-- ==== Sys2Proof/Word.lean ====
section
/-!
DEFINITION. Word.lean: the word types of the device. Multi-byte values are little-endian everywhere (R12); the operations
that join and cut bytes stand in Machine/Bits.lean, where a repair may mend them.
-/
namespace Sys2Proof

/-- A byte of a frame, a record, a memory or a message. -/
abbrev Byte := BitVec 8

/-- A 32-bit register, triad register or instruction word (R401, R352). -/
abbrev Word := BitVec 32

/-- A 64-bit queue item: bits 63:60 are the tag, bits 59:0 the payload (R40). -/
abbrev Item := BitVec 64

end Sys2Proof
end

