-- ==== Sys2Proof/Config.lean ====
section
/-!
DEFINITION. Config.lean: what the spec leaves to the implementation, and the free values of the model. Every constant here is
opaque: nothing in Lean can evaluate it or prove a value of it, so that a theorem about the model holds for every choice.
-/
namespace Sys2Proof

/-- A value that the spec does not fix, one for each number the model's counter `free` reaches (assumption log 2). -/
opaque Config.freeValue : Nat → BitVec 64

/-- SHA-384 of a byte string, as its 48-byte digest string (R84, R85; assumption log 3). -/
opaque Config.sha384 : List Byte → List Byte

/-- HMAC-SHA-256 of a message under a key, as its 32-byte string (R413; assumption log 3). -/
opaque Config.hmacSha256 : List Byte → List Byte → List Byte

/-- ECDSA P-384 verification of (r, s) over a digest with a public key (R85; assumption log 3). -/
opaque Config.ecdsaVerify : List Byte → List Byte → List Byte → List Byte → Bool

/-- MACsec protection with AES-GCM: key, nonce, additional data and plaintext give the ciphertext with its ICV
(R428; assumption log 3). -/
opaque Config.gcmSeal : List Byte → List Byte → List Byte → List Byte → List Byte

/-- MACsec verification with AES-GCM: key, nonce, additional data and ciphertext with ICV give the plaintext, or none when
the ICV does not match (R428; assumption log 3). -/
opaque Config.gcmOpen : List Byte → List Byte → List Byte → List Byte → Option (List Byte)

/-- The three fixed neighbours of a die sensor, which the spec calls fixed and does not list (R456; assumption log 4). -/
opaque Config.sensorNbr : Nat → Nat × Nat × Nat

/-- The frequency correction in units of 10⁻¹² that the OTP coefficients give the RTC crystal at a temperature code
(R461, R478; assumption log 4). -/
opaque Config.rtcCorrection : Int → Int

/-- The IDCODE value and the boundary register, which the spec leaves to Thezal's BSDL file (R507; assumption log 4). -/
opaque Config.idcode : Word

/-- The 64-bit UID of the service tag, which the spec does not give (R486; assumption log 4). -/
opaque Config.tagUid : BitVec 64

/-- The layout of the Tripwire threshold store and map over which `TRW_STORE_CRC` is taken, which the spec does not give
(R324; assumption log 4). -/
opaque Config.storeBytes : List Byte → List Byte

/-- The demand that a Gaffer client reports at the boundary of a cycle, none where it makes no report: the spec states what a demand is and no value
(R452; assumption log 2). -/
opaque Config.demand : Nat → Nat → Option Nat

/-- The MAC address of the recovery service, which R101 derives from the unique identifier in a way that the spec does not give
(assumption log 4). -/
opaque Config.recoveryMac : Nat → List Byte

/-- The destination MAC and IP address of the device's own safety status frames on a port, which the spec does not give (R322;
assumption log 4). -/
opaque Config.sfDest : Nat → List Byte × List Byte

end Sys2Proof
end

