-- ==== Sys2Proof/Machine/Tbl.lean ====
section
/-!
DEFINITION. Machine/Tbl.lean: sparse tables as plain data. A table is a list of keys and values with strictly rising keys that
lists no value equal to what an unlisted key reads as, so that equal tables are equal data. Every array of the device (the
registers of the Control Window, queues, node tables, memories) is such a table.
-/
namespace Sys2Proof

/-- A sparse table from numbers to values. -/
abbrev Tbl (α : Type) := List (Nat × α)

/-- The value at a key; `dflt` where the key is not listed. -/
def Tbl.get {α : Type} (t : Tbl α) (k : Nat) (dflt : α) : α :=
  match t with
  | [] => dflt
  | (k', v) :: r => if k = k' then v else Tbl.get r k dflt

/-- The listed value at a key. -/
def Tbl.find {α : Type} (t : Tbl α) (k : Nat) : Option α :=
  match t with
  | [] => none
  | (k', v) :: r => if k = k' then some v else Tbl.find r k

/-- Lists a value at a key, in rising key order. -/
def Tbl.ins {α : Type} (t : Tbl α) (k : Nat) (v : α) : Tbl α :=
  match t with
  | [] => [(k, v)]
  | (k', v') :: r =>
    if k < k' then (k, v) :: (k', v') :: r
    else if k = k' then (k, v) :: r
    else (k', v') :: Tbl.ins r k v

/-- Removes a key. -/
def Tbl.del {α : Type} (t : Tbl α) (k : Nat) : Tbl α :=
  match t with
  | [] => []
  | (k', v') :: r => if k = k' then Tbl.del r k else (k', v') :: Tbl.del r k

/-- Writes a value at a key whose unlisted value is `dflt`: writing `dflt` removes the entry. -/
def Tbl.set {α : Type} [DecidableEq α] (t : Tbl α) (k : Nat) (v : α) (dflt : α) : Tbl α :=
  if v = dflt then Tbl.del t k else Tbl.ins t k v

/-- The canonical form: keys strictly rising and no listed value equal to the unlisted one. -/
def Tbl.wf {α : Type} [DecidableEq α] (t : Tbl α) (dflt : Nat → α) : Bool :=
  match t with
  | [] => true
  | [(k, v)] => decide (v ≠ dflt k)
  | (k, v) :: (k', v') :: r => decide (k < k') && decide (v ≠ dflt k) && Tbl.wf ((k', v') :: r) dflt

end Sys2Proof
end

