-- ==== Sys2Proof/Syntax.lean ====
section
/-!
DEFINITION. Syntax.lean: the commands of the block, one constructor for each row of spec/opcode_table.json, with the row's
operands. Every command carries the device time `t` in ns at which it reaches the device. A command that reports something arriving
from outside carries what arrives; a command that is a register access carries the requester (Table 8.2) and the written value.
-/
namespace Sys2Proof

/-- What a power-on reset samples (R4, R483): the straps, the `DBG_EN` ball, the UID that the OTP holds is that of the device; whether pages of the
learned-value store have been freed, so that it leaves its read-only state. -/
structure BootIn where
  devAddr : Fin 4
  bootMode : Fin 8
  dbgEn : Bool
  freed : Bool
deriving DecidableEq, Repr
/-- A compare entry of a lane (R334): lane (1 A, 2 B, 3 C), PC, kind (1 register, 2 store, 3 bus access), whether a register is a special one, the register
number or address, the value or data, the size, direction and queue-operation fields as one number, whether it carries an error mark. -/
structure CEntry where
  lane : Nat
  pc : Word
  kind : Nat
  special : Bool
  x : Nat
  y : Nat
  z : Nat
  mark : Bool
deriving DecidableEq, Repr

/-- The program of one copy of a record as the store reports it: the page, whether the page was erased for it, its verify pulses, whether it failed to verify. -/
structure NvProg where
  page : Nat
  erase : Bool
  pulses : Nat
  fail : Bool
deriving DecidableEq, Repr

/-- The commands of the block. -/
inductive Instr where
  /-- VBAT_APPLIED (R26): VBAT is applied with VAUX absent and the device goes from OFF to STANDBY. -/
  | vbatApplied (t : Nat)
  /-- VAUX_APPLIED (R26): VAUX is applied and the watch island enters WATCH, or goes on to BOOT when the main rails are good and RESET_N is released. -/
  | vauxApplied (t : Nat) (b : BootIn)
  /-- VAUX_REMOVED (R26): VAUX is removed; WATCH goes to STANDBY and the watch die changes to VBAT. -/
  | vauxRemoved (t : Nat)
  /-- POWER_ON (R87): Main rails good, RESET_N released and VAUX present: the device leaves WATCH for BOOT and starts the boot sequence. -/
  | powerOn (t : Nat) (b : BootIn)
  /-- MAIN_RAILS_LOST (R27): Loss of the main rails trips every output, stops ring transmission and moves the device to WATCH or STANDBY. -/
  | mainRailsLost (t : Nat)
  /-- RESET_N_ASSERTED (R26): RESET_N is asserted and released, taking the device from HALT back to BOOT. -/
  | resetNAsserted (t : Nat) (b : BootIn)
  /-- BOOT_SLOT_LOAD (R90): Reading and checking of a Reel slot at boot completes and the device boots from it, falls back to the other slot or enters DARK. -/
  | bootSlotLoad (t : Nat) (damaged : Bool)
  /-- STRUCTURE_BUILT (R87): The structure of an accepted Reel has been built and the device enters QUIET. -/
  | structureBuilt (t : Nat)
  /-- ENTER_RUN (R165): Rings enumerated and Slate lock achieved under the AUTO start policy: the device moves from QUIET to RUN by itself. -/
  | enterRun (t : Nat)
  /-- GLB_GO (R421): A write of GLB_CTRL.GO moves QUIET to RUN under the HOST start policy. -/
  | glbGo (t : Nat) (req : Nat)
  /-- GLB_WRAP (R463): A write of GLB_CTRL.WRAP requests a Wrap from RUN. -/
  | glbWrap (t : Nat) (req : Nat)
  /-- CYCLE_BOUNDARY (R149): Device time reaches a 125 us cycle boundary and the cycle counter advances. -/
  | cycleBoundary (t : Nat)
  /-- CMD_OVERRUN (R145): A command frame that has waited 8 cycles raises EV_LNK_CMD_OVERRUN for its queue. -/
  | cmdOverrun (t : Nat) (ring : Fin 64) (qid : Nat)
  /-- NODE_FRAME_RECEIVE (R132): A copy of a node frame arrives at a port and is accepted or refused under R122. -/
  | nodeFrameReceive (t : Nat) (port : Fin 128) (cycle pos : Nat) (codeErr : Bool) (frame : List Byte)
  /-- FRAME_HOLD_DEADLINE (R132): The hold deadline of a scheduled node frame passes and the receive checker writes its items. -/
  | frameHoldDeadline (t : Nat) (ring : Fin 64) (cycle addr ntype : Nat)
  /-- CYC_RETURN (R116): A CYC returns to the originator and the loop delay of the rotation is measured. -/
  | cycReturn (t : Nat) (ring : Fin 64) (rot : Fin 2) (delay : Nat)
  /-- RING_LONG (R116): A loop delay above 31,000 ns in 8 consecutive cycles sets LONG. -/
  | ringLong (t : Nat) (ring : Fin 64)
  /-- RING_BREAK (R135): A rotation's CYC fails to return for 4 cycles and a break is declared. -/
  | ringBreak (t : Nat) (ring : Fin 64)
  /-- RING_RESTORED (R135): Both CYC return for 8 consecutive cycles and BROKEN clears. -/
  | ringRestored (t : Nat) (ring : Fin 64)
  /-- CYC_RECEIVE (R114): A non-active originator receives a CYC carrying the ACTIVE device's ORIG and stops originating at the end of the cycle. -/
  | cycReceive (t : Nat) (ring : Fin 64) (rot : Fin 2) (orig : Fin 2)
  /-- LNK_RING_ENUM (R131): A write of LNK_RING_CTRL.ENUM starts an enumeration of the ring. -/
  | lnkRingEnum (t : Nat) (req : Nat) (ring : Fin 64)
  /-- ENUM_REPLY (R131): An enumeration REPLY is compared with the ring map and stored identity, giving an outcome. -/
  | enumReply (t : Nat) (ring : Fin 64) (addr : Nat) (data : List Byte)
  /-- ENUM_END (R131): An enumeration ends after 150 ms and addresses without outcome become MISSING. -/
  | enumEnd (t : Nat) (ring : Fin 64)
  /-- LNK_RING_WAKE (R147): A write of LNK_RING_CTRL.WAKE sends a wake tone on both ports outside RUN. -/
  | lnkRingWake (t : Nat) (req : Nat) (ring : Fin 64)
  /-- LNK_RING_SLEEP (R202): A write of LNK_RING_CTRL.SLEEP in QUIET sends SLEEP to the ring. -/
  | lnkRingSleep (t : Nat) (req : Nat) (ring : Fin 64)
  /-- LNK_PORT_ENABLE (R147): A write of LNK_PORT_CTRL.ENABLE stops or restarts a port at the next boundary. -/
  | lnkPortEnable (t : Nat) (req : Nat) (port : Fin 128) (enable : Bool)
  /-- LNK_PORT_WAKE (R147): A write of LNK_PORT_CTRL.WAKE sends a wake tone on one port outside RUN. -/
  | lnkPortWake (t : Nat) (req : Nat) (port : Fin 128) (value : Word)
  /-- PTP_EVENT_RECEIVE (R154): A PTP Sync or delay message is received and gives an offset measurement. -/
  | ptpEventReceive (t : Nat) (port : Fin 4) (kind value : Nat)
  /-- PTP_ANNOUNCE_RECEIVE (R154): A PTP Announce message is received. -/
  | ptpAnnounceReceive (t : Nat) (port : Fin 4) (dataset : List Nat) (utc : Option Int) (leap61 leap59 malformed : Bool)
  /-- PTP_SOURCE_TIMEOUT (R154): No Sync or Announce within the receipt timeout: the PTP source is lost and holdover begins. -/
  | ptpSourceTimeout (t : Nat) (port : Fin 4)
  /-- PPS_EDGE (R154): A PPS_IN edge gives a phase measurement labelled from TB_PPS_TOD. -/
  | ppsEdge (t : Nat)
  /-- PPS_EDGE_MISSING (R154): Two missing PPS edges make the PPS source lost. -/
  | ppsEdgeMissing (t : Nat)
  /-- TIMEBASE_STEP (R159): A decided step is applied at the second boundary after the decision. -/
  | timebaseStep (t : Nat)
  /-- SLEW_COMPLETE (R158): A slew of device time is complete. -/
  | slewComplete (t : Nat)
  /-- TB_TIME_WRITE (R159): A write of TB_TIME_NS is a set request: set at once outside RUN, corrected or refused in RUN. -/
  | tbTimeWrite (t : Nat) (req : Nat) (ns : Word)
  /-- HOLDOVER_SECOND (R162): Once a second in holdover the error bound and compensated frequency are updated. -/
  | holdoverSecond (t : Nat)
  /-- TCOMP_LEARN (R161): Once a minute while LOCKED the temperature compensation bin is updated. -/
  | tcompLearn (t : Nat)
  /-- REF_FAIL (R152): REF_IN stops or leaves 100 ppm; a fatal event takes the device to HALT. -/
  | refFail (t : Nat) (deviation : Nat)
  /-- REF10_LOST (R152): REF10_IN is lost or leaves its window and the frequency source falls back to REF_IN. -/
  | ref10Lost (t : Nat)
  /-- RTC_UPDATE (R152): Once a second while TIME_VALID is set TB writes device time to the RTC. -/
  | rtcUpdate (t : Nat)
  /-- SLATE_SYNC_EDGE (R167): A follower timestamps the SLATE_SYNC falling edge and steers to it. -/
  | slateSyncEdge (t : Nat) (dev : Int)
  /-- SYNC_LOST (R168): A follower misses 3 consecutive SLATE_SYNC pulses and turns to two-way time transfer. -/
  | syncLost (t : Nat)
  /-- BOARD_MASTER_ELECTION (R166): The master's peer messages are absent for 3 ms and the next master is elected. -/
  | boardMasterElection (t : Nat)
  /-- BOARD_TIME (R167): A BOARD_TIME peer frame gives the labels, state and any step of the next pulse. -/
  | boardTime (t : Nat) (link : Fin 4) (codeErr : Bool) (frame : List Byte)
  /-- TWTT (R168): A two-way time transfer frame is received over a peer link. -/
  | twtt (t : Nat) (link : Fin 4) (codeErr : Bool) (frame : List Byte)
  /-- TB_UTC_SET (R170): A write of TB_UTC_SET sets the UTC offset while SRC is 2. -/
  | tbUtcSet (t : Nat) (req : Nat) (value : Word)
  /-- SWP_SAMPLE_PACKET (R177): SWP takes a sample packet from its input queue and runs the channel filters. -/
  | swpSamplePacket (t : Nat) (ring : Fin 64) (qid : Nat)
  /-- OPEN_WIRE_EVALUATE (R190): Once an open-wire Take's data are complete each tested tap is judged suspect, clear or inconclusive. -/
  | openWireEvaluate (t : Nat) (ring : Fin 64) (take : Nat)
  /-- SWP_OW_CLEAR (R192): A write of SWP_OW_CLEAR returns confirmed taps to suspect. -/
  | swpOwClear (t : Nat) (req : Nat) (value : Word)
  /-- BAL_QUIET (R196): From p - 20 ms every balancing switch opens for the plan measurement. -/
  | balQuiet (t : Nat)
  /-- BAL_PLAN (R198): At a plan instant SWP plans balancing within each container's granted pool. -/
  | balPlan (t : Nat)
  /-- BAL_CLOSE (R199): Planned switches close from the first Slate at or after p + 1 ms. -/
  | balClose (t : Nat)
  /-- NODE_WAKE (R202): A tone on a port of an asleep ring in DARK or QUIET raises EV_SWP_NODE_WAKE. -/
  | nodeWake (t : Nat) (port : Fin 128)
  /-- QF_OPEN (R216): A push with HEAD and no open packet reserves the head slot and takes the producer lock. -/
  | qfOpen (t : Nat) (req qid : Nat) (value : Item)
  /-- QF_APPEND (R216): A push without HEAD on an open packet stores an item behind the reserved slot. -/
  | qfAppend (t : Nat) (req qid : Nat) (value : Item)
  /-- QF_CLOSE (R217): A push with HEAD on an open packet writes the length word and releases the lock. -/
  | qfClose (t : Nat) (req qid : Nat) (value : Item)
  /-- QF_PUSH_SINGLE (R216): A push without HEAD and no open packet stores a single item. -/
  | qfPushSingle (t : Nat) (req qid : Nat) (value : Item)
  /-- QF_POP (R210): A pop returns the next item, a not-valid item, or waits on an empty near queue. -/
  | qfPop (t : Nat) (req qid : Nat)
  /-- DOORBELL_LOW_WRITE (R208): A 32-bit write to a doorbell's low word is held in the requester's holding register. -/
  | doorbellLowWrite (t : Nat) (req qid : Nat) (value : Word)
  /-- DOORBELL_HIGH_READ (R208): A read of a doorbell's high word returns the latched high word. -/
  | doorbellHighRead (t : Nat) (req qid : Nat)
  /-- HOST_POP_TIMEOUT (R210): A host read of an empty near queue ends after 8 us with TIMEOUT set. -/
  | hostPopTimeout (t : Nat) (req : Nat)
  /-- POP_WAIT_RESUME (R210): An item becomes readable and a waiting reader gets it. -/
  | popWaitResume (t : Nat) (req qid : Nat)
  /-- BLOCK_WAIT_RESUME (R212): A slot frees and a producer waiting under BLOCK stores its item. -/
  | blockWaitResume (t : Nat) (qid : Nat)
  /-- QF_CUT (R219): QF_CMD CUT discards the rest of a packet and releases the consumer lock. -/
  | qfCut (t : Nat) (req qid : Nat)
  /-- QF_ABORT (R219): QF_CMD ABORT closes the producer's open packet with ERR. -/
  | qfAbort (t : Nat) (req qid : Nat)
  /-- QF_RELEASE (R224): QF_CMD RELEASE acknowledges LOCK_LOST and releases any held lock. -/
  | qfRelease (t : Nat) (req qid : Nat)
  /-- QF_FLUSH (R230): QF_CMD FLUSH discards every closed unit of a program-consumed queue and cuts an open one. -/
  | qfFlush (t : Nat) (req qid : Nat)
  /-- LOCK_RECLAIM_PRODUCER (R222): A producer lock idle for QF_LOCK_TIMEOUT is reclaimed and the packet closed as oversize. -/
  | lockReclaimProducer (t : Nat) (qid : Nat)
  /-- LOCK_RECLAIM_CONSUMER (R223): A consumer lock idle for QF_LOCK_TIMEOUT is reclaimed and the rest of the unit cut. -/
  | lockReclaimConsumer (t : Nat) (qid : Nat)
  /-- QSTAT_READ (R221): A read of QF_QSTAT returns a consistent status and latches QF_QWM for the requester. -/
  | qstatRead (t : Nat) (req qid : Nat)
  /-- QSTAT_WM_CLEAR (R221): Writing 1 to WM_EVT clears it, zeroes CROSS and resets PEAK in one slot. -/
  | qstatWmClear (t : Nat) (req qid : Nat)
  /-- QSTAT_LOSS_CLEAR (R215): Writing 1 to LOSS clears it and re-enables EV_QF_LOSS. -/
  | qstatLossClear (t : Nat) (req qid : Nat)
  /-- STALL_WARN (R228): A producer waiting under BLOCK longer than QF_STALL_WARN raises EV_QF_STALL. -/
  | stallWarn (t : Nat) (qid : Nat)
  /-- QF_ECC_UNCORRECTABLE (R229): An uncorrectable stored item is returned with ERR, or lost descriptor state empties the queue. -/
  | qfEccUncorrectable (t : Nat) (qid pos : Nat) (descriptor : Bool)
  /-- EST_INPUT_ITEM (R233): An EST tile reads an input item, discarding it as late after its Take's closure. -/
  | estInputItem (t : Nat) (ring : Fin 64) (qid : Nat)
  /-- TAKE_CLOSURE (R233): An EST tile closes Take k when all expected items arrive or at s(k+1) + 40 us and processes it. -/
  | takeClosure (t : Nat) (ring : Fin 64)
  /-- RESET_IMP (R260): EST_CH_CTRL.RESET_IMP clears all 48 impedance entries at the next Take. -/
  | resetImp (t : Nat) (req : Nat) (ch : Fin 131072)
  /-- RESET_CAP (R260): EST_CH_CTRL.RESET_CAP sets Q_use to nominal and clears CHAIN. -/
  | resetCap (t : Nat) (req : Nat) (ch : Fin 131072)
  /-- RESET_EFC (R260): EST_CH_CTRL.RESET_EFC zeroes EFC and its remainder. -/
  | resetEfc (t : Nat) (req : Nat) (ch : Fin 131072)
  /-- ANCHOR_FULL (R260): EST_CH_CTRL.ANCHOR_FULL takes a full anchor without learning. -/
  | anchorFull (t : Nat) (req : Nat) (ch : Fin 131072)
  /-- ANCHOR_EMPTY (R260): EST_CH_CTRL.ANCHOR_EMPTY takes an empty anchor without learning. -/
  | anchorEmpty (t : Nat) (req : Nat) (ch : Fin 131072)
  /-- REPORT_NOW (R260): EST_CH_CTRL.REPORT_NOW sets reported SOC to the target without slewing. -/
  | reportNow (t : Nat) (req : Nat) (ch : Fin 131072)
  /-- LPE_INPUT_ITEM (R266): LPE reads an input item and assigns it to a tick window by ts32, discarding late items. -/
  | lpeInputItem (t : Nat) (ctx : Fin 512) (qid : Nat)
  /-- SAT_EXPIRED (R279): t_sat reaches SAT_TICKS and the context acts per SAT_ACT. -/
  | satExpired (t : Nat) (ctx : Fin 512)
  /-- MEASUREMENT_LOST (R278): A measurement absent at W consecutive ticks puts the context in LOSS. -/
  | measurementLost (t : Nat) (ctx : Fin 512)
  /-- TICK_SKIP (R270): A tick falls due while the context still waits on a BLOCK output and is skipped. -/
  | tickSkip (t : Nat) (ctx : Fin 512)
  /-- LPE_RESUME (R279): LPE_CTX_CTRL.RESUME returns a SAFE context to RUN at the next tick. -/
  | lpeResume (t : Nat) (req : Nat) (ctx : Fin 512)
  /-- LPE_FORCE_SAFE (R279): LPE_CTX_CTRL.FORCE_SAFE puts the context in SAFE at the next tick. -/
  | lpeForceSafe (t : Nat) (req : Nat) (ctx : Fin 512)
  /-- LPE_RESET_X (R285): LPE_CTX_CTRL.RESET_X zeroes the states at the next tick with a change of formula. -/
  | lpeResetX (t : Nat) (req : Nat) (ctx : Fin 512)
  /-- DSP_INPUT_RECORD (R288): DSP takes an input record, checks it and gives it an apply boundary. -/
  | dspInputRecord (t : Nat) (qid : Nat)
  /-- DSP_CAN_INPUT (R289): DSP takes a CAN dispatch frame as an immediate input. -/
  | dspCanInput (t : Nat) (qid : Nat)
  /-- DSP_MIRROR (R294): A STAND-IN receives a mirrored dispatch input with its apply boundary. -/
  | dspMirror (t : Nat) (link : Fin 4) (codeErr : Bool) (frame : List Byte)
  /-- DSP_UNMIRRORED (R294): A STAND-IN's own input without a mirror after 1 ms is discarded. -/
  | dspUnmirrored (t : Nat)
  /-- DERATE_GRACE_EXPIRY (R299): A string's grace timer expires and the requested factor is enforced. -/
  | derateGraceExpiry (t : Nat) (string : Fin 256)
  /-- DSP_WATCHDOG (R297): No setpoint from the selected source for WDOG ms sets p_req to 0. -/
  | dspWatchdog (t : Nat)
  /-- FFR_ACTIVE (R296): n_d consecutive allocations with e nonzero activate the frequency response. -/
  | ffrActive (t : Nat)
  /-- FFR_END (R296): n_d consecutive allocations with e zero end the frequency response. -/
  | ffrEnd (t : Nat)
  /-- FREQ_LOST (R296): The newest frequency sample is older than F_TIMEOUT and the response ends. -/
  | freqLost (t : Nat)
  /-- DSP_SRC_WRITE (R297): A write of DSP_CTRL.SRC changes the selected source at the next allocation. -/
  | dspSrcWrite (t : Nat) (req : Nat) (value : Word)
  /-- TRW_FRAME_ACCEPT (R310): The TRW checker accepts a frame copy and compares its raw values with the thresholds. -/
  | trwFrameAccept (t : Nat) (port : Fin 128) (cycle pos : Nat) (codeErr : Bool) (frame : List Byte)
  /-- TRW_NOT_DELIVERED (R311): A frame not accepted by TRW 1 us after its scheduled end counts as not delivered. -/
  | trwNotDelivered (t : Nat) (ring : Fin 64) (cycle addr ntype : Nat)
  /-- TRW_STR_RESET (R314): TRW_STR_CTRL.RESET clears the string causes whose conditions no longer hold. -/
  | trwStrReset (t : Nat) (req : Nat) (string : Fin 256)
  /-- TRW_RESET_GLOBAL (R314): TRW_CTRL.RESET_GLOBAL clears all-strings causes whose conditions no longer hold. -/
  | trwResetGlobal (t : Nat) (req : Nat)
  /-- ESTOP_FIRE_INPUT (R319): TRW debounces an E-stop or fire input with action 1 and latches ESTOP or FIRE. -/
  | estopFireInput (t : Nat) (input : Fin 8) (level : Bool)
  /-- SAFETY_FRAME_RECEIVE (R322): TRW receives a safety frame copy and refuses it, acts on it or compares it. -/
  | safetyFrameReceive (t : Nat) (port : Fin 2) (payload : List Byte)
  /-- SF_SINGLE (R322): No second copy within SF_WINDOW counts a single-copy safety frame. -/
  | sfSingle (t : Nat) (seq : Nat)
  /-- SF_TIMEOUT (R322): No heartbeat for SF_TIMEOUT latches SF for all strings. -/
  | sfTimeout (t : Nat)
  /-- SF_STATUS_SEND (R322): Every SF_PERIOD the device sends a KIND 3 status frame on both ports. -/
  | sfStatusSend (t : Nat)
  /-- FEEDBACK_MISMATCH (R320): A trip output and its feedback differing for FB_DELAY sets MISMATCH. -/
  | feedbackMismatch (t : Nat) (output : Fin 6)
  /-- TRW_STORE_CHECK (R324): Every 1 ms TRW checks its threshold store; a failure is fatal. -/
  | trwStoreCheck (t : Nat) (found : Nat) (uncorrectable : Bool)
  /-- TRW_CFG_WRITE (R321): A write to TRW configuration registers is accepted only in QUIET from a protected non-T0 requester. -/
  | trwCfgWrite (t : Nat) (req off : Nat) (value : Word)
  /-- P_PERMIT_WRITE (R316): T0 writes a P permit entry for a head, bank and CTAG. -/
  | pPermitWrite (t : Nat) (req : Nat) (ring : Fin 64) (head : Fin 8) (bank : Fin 4) (value : Word)
  /-- TRW_P_TRIP_WRITE (R320): T0 writes TRW_P_TRIP, applied to the P outputs at the next boundary. -/
  | trwPTripWrite (t : Nat) (req : Nat) (value : Word)
  /-- TRW_TEST_GO (R327): TRW_TEST_CTRL.GO requests a permit-path test of a string. -/
  | trwTestGo (t : Nat) (req : Nat) (string : Fin 256)
  /-- TRW_TEST_ABORT (R328): TRW_TEST_CTRL.ABORT ends the running test and restores the grants. -/
  | trwTestAbort (t : Nat) (req : Nat)
  /-- TEST_STEP_LIMIT (R328): A test step's limit runs out and the test fails. -/
  | testStepLimit (t : Nat)
  /-- TEST_DUE (R328): AGE exceeds TEST_DAYS and EV_TRW_TEST_DUE is raised. -/
  | testDue (t : Nat) (string : Fin 256)
  /-- VOTER_COMPARE (R334): The voter compares the lanes' compare entries and issues voted results. -/
  | voterCompare (t : Nat) (tr : Fin 4) (ents : List CEntry)
  /-- TRD_READMIT (R340): TRD_READMIT GO requests re-admission of an excluded lane. -/
  | trdReadmit (t : Nat) (req : Nat) (tr : Fin 4) (lane : Fin 4)
  /-- TRD_READMIT_CANCEL (R341): TRD_READMIT CANCEL ends a pending re-admission. -/
  | trdReadmitCancel (t : Nat) (req : Nat) (tr : Fin 4)
  /-- LANE_SELFTEST_DONE (R340): A lane's self-test completes and passes or fails. -/
  | laneSelftestDone (t : Nat) (tr : Fin 4) (lane : Nat) (pass : Bool)
  /-- TRD_RESTART (R342): TRD_RESTART GO restarts a halted triad or split lanes. -/
  | trdRestart (t : Nat) (req : Nat) (tr : Fin 4) (lanes : Fin 8)
  /-- TRD_WDOG_EXPIRY (R339): No watchdog kick for PERIOD us puts the triad or lane in safe halt. -/
  | trdWdogExpiry (t : Nat) (tr : Fin 4) (l : Fin 3)
  /-- TRD_WDOG_KICK (R339): A write of 0x5A5A to TRD_WDOG_KICK from the triad restarts its watchdog. -/
  | trdWdogKick (t : Nat) (req : Nat) (tr : Fin 4) (value : Word)
  /-- TRD_WDOG_WRITE (R339): A write of TRD_WDOG.PERIOD sets the watchdog and restarts its count. -/
  | trdWdogWrite (t : Nat) (req : Nat) (tr : Fin 4) (value : Word)
  /-- BUS_LOCK_REVOKE (R347): The triad bus lock is revoked after 2 us, 64 accesses or when its holder stops voting. -/
  | busLockRevoke (t : Nat)
  /-- DEBUG_HALT (R349): The debugger or a breakpoint halts a lane, removing it from the vote and tainting the triad. -/
  | debugHalt (t : Nat) (tr : Fin 4) (lane : Nat) (dbgEn : Bool)
  /-- DEBUG_RESUME (R349): A debug-halted lane is resumed outside the vote. -/
  | debugResume (t : Nat) (tr : Fin 4) (lane : Nat) (dbgEn : Bool)
  /-- DEBUG_COMMAND (R348): A triad debug command arrives at the port and is executed or refused under SEALED. -/
  | debugCommand (t : Nat) (tr : Fin 4) (lane op addr : Nat) (value : Word) (dbgEn : Bool)
  /-- ADD (R356): ADD writes ra + rb. -/
  | add (t : Nat) (tr : Fin 4) (l : Fin 6) (rd ra rb : Fin 32)
  /-- SUB (R356): SUB writes ra - rb. -/
  | sub (t : Nat) (tr : Fin 4) (l : Fin 6) (rd ra rb : Fin 32)
  /-- ADDO (R356): ADDO adds and sets OV on signed overflow. -/
  | addo (t : Nat) (tr : Fin 4) (l : Fin 6) (rd ra rb : Fin 32)
  /-- SUBO (R356): SUBO subtracts and sets OV on signed overflow. -/
  | subo (t : Nat) (tr : Fin 4) (l : Fin 6) (rd ra rb : Fin 32)
  /-- NEG (R356): NEG negates ra, setting OV for -2^31. -/
  | neg (t : Nat) (tr : Fin 4) (l : Fin 6) (rd ra : Fin 32)
  /-- ABS (R356): ABS writes the absolute value, setting OV for -2^31. -/
  | abs (t : Nat) (tr : Fin 4) (l : Fin 6) (rd ra : Fin 32)
  /-- AND (R356): AND writes the bitwise and. -/
  | and (t : Nat) (tr : Fin 4) (l : Fin 6) (rd ra rb : Fin 32)
  /-- OR (R356): OR writes the bitwise or. -/
  | or (t : Nat) (tr : Fin 4) (l : Fin 6) (rd ra rb : Fin 32)
  /-- XOR (R356): XOR writes the bitwise exclusive or. -/
  | xor (t : Nat) (tr : Fin 4) (l : Fin 6) (rd ra rb : Fin 32)
  /-- NOR (R356): NOR writes the inverted or. -/
  | nor (t : Nat) (tr : Fin 4) (l : Fin 6) (rd ra rb : Fin 32)
  /-- ANDN (R356): ANDN writes ra and not rb. -/
  | andn (t : Nat) (tr : Fin 4) (l : Fin 6) (rd ra rb : Fin 32)
  /-- SLL (R356): SLL shifts left by rb[7:0]. -/
  | sll (t : Nat) (tr : Fin 4) (l : Fin 6) (rd ra rb : Fin 32)
  /-- SRL (R356): SRL shifts right logically. -/
  | srl (t : Nat) (tr : Fin 4) (l : Fin 6) (rd ra rb : Fin 32)
  /-- SRA (R356): SRA shifts right arithmetically. -/
  | sra (t : Nat) (tr : Fin 4) (l : Fin 6) (rd ra rb : Fin 32)
  /-- ROR (R356): ROR rotates right by n mod 32. -/
  | ror (t : Nat) (tr : Fin 4) (l : Fin 6) (rd ra rb : Fin 32)
  /-- ROL (R356): ROL rotates left by n mod 32. -/
  | rol (t : Nat) (tr : Fin 4) (l : Fin 6) (rd ra rb : Fin 32)
  /-- SLT (R356): SLT sets 1 on signed less-than. -/
  | slt (t : Nat) (tr : Fin 4) (l : Fin 6) (rd ra rb : Fin 32)
  /-- SLTU (R356): SLTU sets 1 on unsigned less-than. -/
  | sltu (t : Nat) (tr : Fin 4) (l : Fin 6) (rd ra rb : Fin 32)
  /-- MIN (R356): MIN writes the signed minimum. -/
  | min (t : Nat) (tr : Fin 4) (l : Fin 6) (rd ra rb : Fin 32)
  /-- MAX (R356): MAX writes the signed maximum. -/
  | max (t : Nat) (tr : Fin 4) (l : Fin 6) (rd ra rb : Fin 32)
  /-- MINU (R356): MINU writes the unsigned minimum. -/
  | minu (t : Nat) (tr : Fin 4) (l : Fin 6) (rd ra rb : Fin 32)
  /-- MAXU (R356): MAXU writes the unsigned maximum. -/
  | maxu (t : Nat) (tr : Fin 4) (l : Fin 6) (rd ra rb : Fin 32)
  /-- MUL (R356): MUL writes the low 32 bits of the product. -/
  | mul (t : Nat) (tr : Fin 4) (l : Fin 6) (rd ra rb : Fin 32)
  /-- MULH (R356): MULH writes the high word of the signed product. -/
  | mulh (t : Nat) (tr : Fin 4) (l : Fin 6) (rd ra rb : Fin 32)
  /-- MULHU (R356): MULHU writes the high word of the unsigned product. -/
  | mulhu (t : Nat) (tr : Fin 4) (l : Fin 6) (rd ra rb : Fin 32)
  /-- DIV (R360): DIV writes the signed quotient with the edge results of Table 14.5. -/
  | div (t : Nat) (tr : Fin 4) (l : Fin 6) (rd ra rb : Fin 32)
  /-- DIVU (R360): DIVU writes the unsigned quotient. -/
  | divu (t : Nat) (tr : Fin 4) (l : Fin 6) (rd ra rb : Fin 32)
  /-- REM (R360): REM writes the signed remainder. -/
  | rem (t : Nat) (tr : Fin 4) (l : Fin 6) (rd ra rb : Fin 32)
  /-- REMU (R360): REMU writes the unsigned remainder. -/
  | remu (t : Nat) (tr : Fin 4) (l : Fin 6) (rd ra rb : Fin 32)
  /-- CLZ (R356): CLZ writes the count of leading zeros. -/
  | clz (t : Nat) (tr : Fin 4) (l : Fin 6) (rd ra : Fin 32)
  /-- POPC (R356): POPC writes the count of set bits. -/
  | popc (t : Nat) (tr : Fin 4) (l : Fin 6) (rd ra : Fin 32)
  /-- ADDI (R358): ADDI adds a sign-extended immediate. -/
  | addi (t : Nat) (tr : Fin 4) (l : Fin 6) (rd ra : Fin 32) (imm : BitVec 16)
  /-- SLTI (R358): SLTI compares signed with an immediate. -/
  | slti (t : Nat) (tr : Fin 4) (l : Fin 6) (rd ra : Fin 32) (imm : BitVec 16)
  /-- SLTIU (R358): SLTIU compares unsigned with a sign-extended immediate. -/
  | sltiu (t : Nat) (tr : Fin 4) (l : Fin 6) (rd ra : Fin 32) (imm : BitVec 16)
  /-- ANDI (R358): ANDI ands with a zero-extended immediate. -/
  | andi (t : Nat) (tr : Fin 4) (l : Fin 6) (rd ra : Fin 32) (imm : BitVec 16)
  /-- ORI (R358): ORI ors with a zero-extended immediate. -/
  | ori (t : Nat) (tr : Fin 4) (l : Fin 6) (rd ra : Fin 32) (imm : BitVec 16)
  /-- XORI (R358): XORI exclusive-ors with a zero-extended immediate. -/
  | xori (t : Nat) (tr : Fin 4) (l : Fin 6) (rd ra : Fin 32) (imm : BitVec 16)
  /-- LUI (R358): LUI loads an immediate into the upper half. -/
  | lui (t : Nat) (tr : Fin 4) (l : Fin 6) (rd : Fin 32) (imm : BitVec 16)
  /-- SLLI (R358): SLLI shifts left by an immediate. -/
  | slli (t : Nat) (tr : Fin 4) (l : Fin 6) (rd ra : Fin 32) (n : BitVec 8)
  /-- SRLI (R358): SRLI shifts right logically by an immediate. -/
  | srli (t : Nat) (tr : Fin 4) (l : Fin 6) (rd ra : Fin 32) (n : BitVec 8)
  /-- SRAI (R358): SRAI shifts right arithmetically by an immediate. -/
  | srai (t : Nat) (tr : Fin 4) (l : Fin 6) (rd ra : Fin 32) (n : BitVec 8)
  /-- RORI (R358): RORI rotates right by an immediate. -/
  | rori (t : Nat) (tr : Fin 4) (l : Fin 6) (rd ra : Fin 32) (n : BitVec 8)
  /-- LW (R361): LW loads a word from TCM or the Control Window. -/
  | lw (t : Nat) (tr : Fin 4) (l : Fin 6) (rd ra : Fin 32) (imm : BitVec 16) (ecc : List (Nat × Bool))
  /-- LH (R361): LH loads a sign-extended halfword. -/
  | lh (t : Nat) (tr : Fin 4) (l : Fin 6) (rd ra : Fin 32) (imm : BitVec 16) (ecc : List (Nat × Bool))
  /-- LHU (R361): LHU loads a zero-extended halfword. -/
  | lhu (t : Nat) (tr : Fin 4) (l : Fin 6) (rd ra : Fin 32) (imm : BitVec 16) (ecc : List (Nat × Bool))
  /-- LB (R361): LB loads a sign-extended byte. -/
  | lb (t : Nat) (tr : Fin 4) (l : Fin 6) (rd ra : Fin 32) (imm : BitVec 16) (ecc : List (Nat × Bool))
  /-- LBU (R361): LBU loads a zero-extended byte. -/
  | lbu (t : Nat) (tr : Fin 4) (l : Fin 6) (rd ra : Fin 32) (imm : BitVec 16) (ecc : List (Nat × Bool))
  /-- SW (R361): SW stores a word to data TCM or the Control Window. -/
  | sw (t : Nat) (tr : Fin 4) (l : Fin 6) (rs ra : Fin 32) (imm : BitVec 16)
  /-- SH (R361): SH stores a halfword. -/
  | sh (t : Nat) (tr : Fin 4) (l : Fin 6) (rs ra : Fin 32) (imm : BitVec 16)
  /-- SB (R361): SB stores a byte. -/
  | sb (t : Nat) (tr : Fin 4) (l : Fin 6) (rs ra : Fin 32) (imm : BitVec 16)
  /-- BEQ (R362): BEQ branches when equal. -/
  | beq (t : Nat) (tr : Fin 4) (l : Fin 6) (ra rb : Fin 32) (off : BitVec 16)
  /-- BNE (R362): BNE branches when not equal. -/
  | bne (t : Nat) (tr : Fin 4) (l : Fin 6) (ra rb : Fin 32) (off : BitVec 16)
  /-- BLT (R362): BLT branches on signed less-than. -/
  | blt (t : Nat) (tr : Fin 4) (l : Fin 6) (ra rb : Fin 32) (off : BitVec 16)
  /-- BGE (R362): BGE branches on signed greater-or-equal. -/
  | bge (t : Nat) (tr : Fin 4) (l : Fin 6) (ra rb : Fin 32) (off : BitVec 16)
  /-- BLTU (R362): BLTU branches on unsigned less-than. -/
  | bltu (t : Nat) (tr : Fin 4) (l : Fin 6) (ra rb : Fin 32) (off : BitVec 16)
  /-- BGEU (R362): BGEU branches on unsigned greater-or-equal. -/
  | bgeu (t : Nat) (tr : Fin 4) (l : Fin 6) (ra rb : Fin 32) (off : BitVec 16)
  /-- J (R362): J jumps by a 26-bit word offset. -/
  | j (t : Nat) (tr : Fin 4) (l : Fin 6) (off : BitVec 26)
  /-- JAL (R362): JAL jumps and links into g31. -/
  | jal (t : Nat) (tr : Fin 4) (l : Fin 6) (off : BitVec 26)
  /-- JALR (R362): JALR jumps to a register target and links. -/
  | jalr (t : Nat) (tr : Fin 4) (l : Fin 6) (rd ra : Fin 32) (imm : BitVec 16)
  /-- QPUSH (R363): QPUSH pushes a register pair into a queue, waiting without limit. -/
  | qpush (t : Nat) (tr : Fin 4) (l : Fin 6) (rp ra rd : Fin 32)
  /-- QPOP (R363): QPOP pops an item into a register pair, waiting on a near queue. -/
  | qpop (t : Nat) (tr : Fin 4) (l : Fin 6) (rp ra rd : Fin 32)
  /-- QPOPT (R365): QPOPT pops with a wait limited to TMO us. -/
  | qpopt (t : Nat) (tr : Fin 4) (l : Fin 6) (rp ra rd : Fin 32) (tmo : BitVec 8)
  /-- QCUT (R363): QCUT cuts as a consumer. -/
  | qcut (t : Nat) (tr : Fin 4) (l : Fin 6) (ra rd : Fin 32)
  /-- QABORT (R363): QABORT closes the lane's open packet with ERR. -/
  | qabort (t : Nat) (tr : Fin 4) (l : Fin 6) (ra rd : Fin 32)
  /-- QRELEASE (R363): QRELEASE acts as QF_CMD RELEASE. -/
  | qrelease (t : Nat) (tr : Fin 4) (l : Fin 6) (ra rd : Fin 32)
  /-- QPUSH2 (R518): QPUSH2 pushes two items as one unit or two appends. -/
  | qpush2 (t : Nat) (tr : Fin 4) (l : Fin 6) (rp ra rd : Fin 32)
  /-- QPUSHT (R365): QPUSHT pushes with a wait limited to TMO us. -/
  | qpusht (t : Nat) (tr : Fin 4) (l : Fin 6) (rp ra rd : Fin 32) (tmo : BitVec 8)
  /-- QUEUE_WAIT_TIMEOUT (R365): A QPOPT or QPUSHT wait runs out after TMO us. -/
  | queueWaitTimeout (t : Nat) (tr : Fin 4) (l : Fin 6)
  /-- NOP (R373): NOP does nothing. -/
  | nop (t : Nat) (tr : Fin 4) (l : Fin 6)
  /-- MFSR (R353): MFSR reads a special register. -/
  | mfsr (t : Nat) (tr : Fin 4) (l : Fin 6) (rd sr : Fin 32)
  /-- MTSR (R353): MTSR writes a special register. -/
  | mtsr (t : Nat) (tr : Fin 4) (l : Fin 6) (sr ra : Fin 32)
  /-- TBR (R366): TBR reads the timebase value selected by sel. -/
  | tbr (t : Nat) (tr : Fin 4) (l : Fin 6) (rd sel : Fin 32)
  /-- WAIT (R367): WAIT stops the lane until a selected condition holds. -/
  | wait (t : Nat) (tr : Fin 4) (l : Fin 6) (rd ra rb : Fin 32)
  /-- WAIT_WAKE (R367): A selected condition comes to hold and a waiting lane resumes with the condition bits. -/
  | waitWake (t : Nat) (tr : Fin 4) (l : Fin 6)
  /-- SYNCPT (R368): SYNCPT marks a copy point and performs a pending re-admission. -/
  | syncpt (t : Nat) (tr : Fin 4) (l : Fin 6) (crcOk : Bool)
  /-- LOCK (R369): LOCK takes the triad bus lock. -/
  | lock (t : Nat) (tr : Fin 4) (l : Fin 6) (rd : Fin 32)
  /-- UNLOCK (R369): UNLOCK releases the bus lock and reports its state. -/
  | unlock (t : Nat) (tr : Fin 4) (l : Fin 6) (rd : Fin 32)
  /-- TRAP (R371): TRAP raises cause 8 with a code. -/
  | trap (t : Nat) (tr : Fin 4) (l : Fin 6) (code : Fin 32)
  /-- RTE (R371): RTE returns from a trap handler. -/
  | rte (t : Nat) (tr : Fin 4) (l : Fin 6)
  /-- HALT (R371): HALT halts the lane as an unrecoverable trap. -/
  | halt (t : Nat) (tr : Fin 4) (l : Fin 6)
  /-- PRESENCE_SEND (R379): Every 8 us a device sends PRESENCE on every peer link. -/
  | presenceSend (t : Nat)
  /-- PRESENCE_RECEIVE (R379): A PRESENCE frame renews the lease, resolves roles or reveals a pairing mismatch. -/
  | presenceReceive (t : Nat) (link : Fin 4) (codeErr : Bool) (frame : List Byte)
  /-- ROLE_RESOLVE_TIMEOUT (R374): After 1 ms (device P) or 10 ms (device S) in RUN without a partner the device becomes ACTIVE. -/
  | roleResolveTimeout (t : Nat)
  /-- LEASE_EXPIRY (R381): A STAND-IN's lease expires at L + 32 us and it takes over with a new epoch. -/
  | leaseExpiry (t : Nat)
  /-- GATES_OPEN (R381): At L + 48 us the new ACTIVE device opens its actuating gates. -/
  | gatesOpen (t : Nat)
  /-- TAKEOVER (R382): A TAKEOVER frame with a higher epoch demotes the ACTIVE device. -/
  | takeover (t : Nat) (link : Fin 4) (codeErr : Bool) (frame : List Byte)
  /-- PARTNER_LOST (R380): No PRESENCE for 32 us clears PARTNER_OK on the ACTIVE device. -/
  | partnerLost (t : Nat)
  /-- STREAM_ABSENT_ORIGINATE (R383): The originator's stream is absent for 2 us and the Stand-in originates the ring non-actuating. -/
  | streamAbsentOriginate (t : Nat) (ring : Fin 64)
  /-- ACCEPT (R386): An ACCEPT frame gives the originator's acceptance entries for node frames. -/
  | accept (t : Nat) (link : Fin 4) (codeErr : Bool) (frame : List Byte)
  /-- CONTENT (R386): A CONTENT frame delivers a node frame's bytes to the partner. -/
  | content (t : Nat) (link : Fin 4) (codeErr : Bool) (frame : List Byte)
  /-- WANT (R386): A WANT frame asks the originator for frame content. -/
  | want (t : Nat) (link : Fin 4) (codeErr : Bool) (frame : List Byte)
  /-- MIRROR_MISS (R386): Content not arrived 50 us after the hold deadline makes the frame STALE. -/
  | mirrorMiss (t : Nat) (ring : Fin 64) (cycle addr ntype : Nat)
  /-- COMPARE (R387): A COMPARE frame's digests are compared with the device's own for the cycle. -/
  | compare (t : Nat) (link : Fin 4) (codeErr : Bool) (frame : List Byte)
  /-- STATE (R388): A STATE frame delivers engine state to a joining device, applied at its Take. -/
  | state (t : Nat) (link : Fin 4) (codeErr : Bool) (frame : List Byte)
  /-- TAKE_SYNC (R388): A TAKE_SYNC frame gives each ring's Take counter to a joining device. -/
  | takeSync (t : Nat) (link : Fin 4) (codeErr : Bool) (frame : List Byte)
  /-- SIN_SWITCH (R389): SIN_CTRL.SWITCH requests a manual switch and sends a SWITCH frame. -/
  | sinSwitch (t : Nat) (req : Nat)
  /-- SWITCH_ABORT (R389): SIN_CTRL.SWITCH_ABORT ends a pending switch before K_sw. -/
  | switchAbort (t : Nat) (req : Nat)
  /-- SWITCH (R389): A SWITCH frame tells the Stand-in the switch boundary and new epoch. -/
  | switch (t : Nat) (link : Fin 4) (codeErr : Bool) (frame : List Byte)
  /-- SWITCH_NO_ACK (R389): No SWITCH_ACK within 200 us abandons the switch. -/
  | switchNoAck (t : Nat)
  /-- SWITCH_BOUNDARY (R389): At K_sw the roles exchange and origination moves. -/
  | switchBoundary (t : Nat)
  /-- NOTE (R391): A NOTE frame reports a partner debug halt, T0 authority change or safe halt. -/
  | note (t : Nat) (link : Fin 4) (codeErr : Bool) (frame : List Byte)
  /-- PEER_DOWN (R392): A peer link loses alignment or PRESENCE for 32 us and goes down. -/
  | peerDown (t : Nat) (link : Fin 4) (alignment : Bool)
  /-- PEER_UP (R392): A peer link regains alignment and PRESENCE and comes up. -/
  | peerUp (t : Nat) (link : Fin 4)
  /-- CUT_READY (R103): A CUT_READY frame reports a partner ready for a cut time. -/
  | cutReady (t : Nat) (link : Fin 4) (codeErr : Bool) (frame : List Byte)
  /-- SPLICE (R97): A SPLICE frame delivers a Reel block over a peer link. -/
  | splice (t : Nat) (link : Fin 4) (codeErr : Bool) (frame : List Byte)
  /-- IMG_RX_PUSH (R96): IMG_RX_CTRL.PUSH takes the block in IMG_RX_BLOCK into the receive session. -/
  | imgRxPush (t : Nat) (req : Nat) (value : Word)
  /-- RX_SESSION_TIMEOUT (R96): No block accepted for TIMEOUT seconds closes the session. -/
  | rxSessionTimeout (t : Nat)
  /-- IMG_RX_ABORT (R96): IMG_CTRL.RX_ABORT closes the receive session and discards the buffer. -/
  | imgRxAbort (t : Nat) (req : Nat) (value : Word)
  /-- SLOT_WRITE_DONE (R99): A slot write completes as VALID or fails. -/
  | slotWriteDone (t : Nat) (fail : Option Nat)
  /-- IMG_KEY_GO (R93): IMG_KEY_CTRL.GO checks a key request and starts enrolment or revocation. -/
  | imgKeyGo (t : Nat) (req : Nat) (value : Word)
  /-- KEY_FUSE_DONE (R93): Fuse blowing and readback of a key request complete. -/
  | keyFuseDone (t : Nat) (ok : Bool) (back : List Byte) (valid : Bool)
  /-- IMG_COMMIT (R94): IMG_CTRL.COMMIT advances the anti-rollback counter and clears trial. -/
  | imgCommit (t : Nat) (req : Nat) (value : Word)
  /-- IMG_CUT_ARM (R102): IMG_CUT_CTRL.ARM arms a scheduled cut-over. -/
  | imgCutArm (t : Nat) (req : Nat) (value : Word)
  /-- SHADOW_BUILT (R103): The shadow structure of an armed cut-over is built. -/
  | shadowBuilt (t : Nat) (damaged : Bool)
  /-- CUTOVER (R104): At boundary B the new image takes effect. -/
  | cutover (t : Nat)
  /-- CUT_MISSED (R103): A device not ready 1 ms before the cut time abandons the cut-over. -/
  | cutMissed (t : Nat)
  /-- IMG_CUT_DISARM (R105): IMG_CTRL.CUT_DISARM disarms an armed cut-over. -/
  | imgCutDisarm (t : Nat) (req : Nat) (value : Word)
  /-- IMG_ACTIVATE (R107): IMG_ACT_CTRL.GO issues an activate command. -/
  | imgActivate (t : Nat) (req : Nat) (value : Word)
  /-- ACTIVATE_BUILD_DONE (R107): The build of an activated image completes and QUIET is entered. -/
  | activateBuildDone (t : Nat) (damaged : Bool)
  /-- ETH_FRAME_RECEIVE (R423): An Ethernet frame is received, checked for length, VLAN, MACsec and PRP, and delivered. -/
  | ethFrameReceive (t : Nat) (port : Fin 4) (frame : List Byte)
  /-- ETH_LINK_CHANGE (R435): An Ethernet port's link goes up or down. -/
  | ethLinkChange (t : Nat) (port : Fin 4) (up : Bool) (speed : Fin 4)
  /-- PRP_SUPERVISION_SEND (R425): Every 2 s a PRP supervision frame is sent. -/
  | prpSupervisionSend (t : Nat) (pair : Fin 2)
  /-- PRP_PATH_SILENT (R427): A port silent for PRP_SILENT while the other receives loses its path. -/
  | prpPathSilent (t : Nat) (port : Fin 4)
  /-- MACSEC_TX_SWITCH (R429): MACSEC_OVERLAP seconds after enrolment transmission moves to the new association. -/
  | macsecTxSwitch (t : Nat) (port : Fin 4)
  /-- MACSEC_OLD_RX_REMOVE (R429): After a further overlap the old receive association is removed. -/
  | macsecOldRxRemove (t : Nat) (port : Fin 4)
  /-- EGRESS_UNIT_TAKE (R432): A NET port takes a unit from an egress queue and sends or gathers it. -/
  | egressUnitTake (t : Nat) (port : Fin 4) (qid : Nat)
  /-- TELEMETRY_FLUSH (R433): A telemetry datagram is sent FLUSH us after its first unit. -/
  | telemetryFlush (t : Nat) (binding : Fin 32)
  /-- CWP_REQUEST (R412): A CWP request is authenticated, judged by SEQ and its operations executed in order. -/
  | cwpRequest (t : Nat) (port : Fin 4)
  /-- CWP_OPEN (R414): An OPEN allocates a session and returns its device nonce. -/
  | cwpOpen (t : Nat) (port : Fin 4)
  /-- CWP_CLOSE (R414): A CLOSE request closes a session. -/
  | cwpClose (t : Nat) (port : Fin 4)
  /-- CWP_IDLE_TIMEOUT (R414): A session idle for IDLE seconds closes. -/
  | cwpIdleTimeout (t : Nat) (session : Fin 64)
  /-- PCIE_LINK_CHANGE (R407): The PCIe link goes up or down. -/
  | pcieLinkChange (t : Nat) (up : Bool) (speed : Fin 4) (width : Fin 4) (bme0 bme1 : Bool)
  /-- PCIE_FLR (R407): A function level reset clears the function's requester state. -/
  | pcieFlr (t : Nat) (func : Fin 2)
  /-- MSIX_FIRE (R408): An armed vector's condition holds and its message is sent. -/
  | msixFire (t : Nat) (vector : Fin 64) (masked : Bool)
  /-- GLB_MSIX_ARM (R408): A write of ARM re-arms a vector, firing at once if the condition holds. -/
  | glbMsixArm (t : Nat) (req : Nat) (vector : Fin 64) (value : Word) (masked : Bool)
  /-- GLB_MSIX_MAP (R408): A write of GLB_MSIX_MAP binds a vector, refused for open writes naming function 1. -/
  | glbMsixMap (t : Nat) (req : Nat) (vector : Fin 64) (value : Word)
  /-- GLB_KEY_ENROL (R420): GLB_KEY_CTRL GO with OP 0 enrols a key store entry. -/
  | glbKeyEnrol (t : Nat) (req : Nat) (entry : Fin 64)
  /-- GLB_KEY_ERASE (R420): GLB_KEY_CTRL GO with OP 1 erases a key store entry. -/
  | glbKeyErase (t : Nat) (req : Nat) (entry : Fin 64)
  /-- KEY_STORE_DONE (R420): Storing and readback of a key entry complete and RESULT is set. -/
  | keyStoreDone (t : Nat) (ok : Bool)
  /-- FULLTIME_NS_READ (R51): A read of a full-time NS word latches the seconds words for the requester. -/
  | fulltimeNsRead (t : Nat) (req off : Nat)
  /-- WIDE_LOW_READ (R402): A read of the low word of a wide value fills the requester's latch. -/
  | wideLowRead (t : Nat) (req off : Nat)
  /-- REGISTER_WRITE (R14): A write to a register without its own row applies the access codes and realm rule. -/
  | registerWrite (t : Nat) (req off : Nat) (value : Word) (be : BitVec 4)
  /-- CAN_SLOT_END (R438): A slot ends with its frame not begun, which is withdrawn. -/
  | canSlotEnd (t : Nat) (ctrl : Fin 4)
  /-- CAN_FRAME_RECEIVE (R440): A received CAN frame is filtered and written to its queue. -/
  | canFrameReceive (t : Nat) (ctrl : Fin 4) (id : Nat) (ide fdf brs esi : Bool) (dlc : Fin 16) (data : List Byte) (sof : Nat)
  /-- CAN_BUS_OFF (R441): A controller enters bus-off and stops transmitting. -/
  | canBusOff (t : Nat) (ctrl : Fin 4) (tec : Nat)
  /-- CAN_RECOVER (R441): After 128 recessive sequences the controller returns to error active. -/
  | canRecover (t : Nat) (ctrl : Fin 4)
  /-- CAN_ERROR_PASSIVE (R441): A controller enters error passive. -/
  | canErrorPassive (t : Nat) (ctrl : Fin 4) (tec recv : Nat)
  /-- QD_SAMPLE (R442): A filtered decoder sample moves the count by a step or counts an illegal change. -/
  | qdSample (t : Nat) (qd : Fin 8) (a b z : Bool)
  /-- FLD_QD_SET (R444): A write of FLD_QD_SET replaces the count. -/
  | fldQdSet (t : Nat) (req : Nat) (qd : Fin 8) (value : Word)
  /-- FLD_QD_ERRCNT (R443): A write of FLD_QD_ERRCNT sets the error count and re-arms the event. -/
  | fldQdErrcnt (t : Nat) (req : Nat) (qd : Fin 8) (value : Word)
  /-- PWM_PERIOD_START (R445): A PWM period starts and the duty in force is applied. -/
  | pwmPeriodStart (t : Nat) (pwm : Fin 16)
  /-- FLD_PWM_HOST (R445): A write of FLD_PWM_HOST sets the host duty from the next period. -/
  | fldPwmHost (t : Nat) (req : Nat) (pwm : Fin 16) (value : Word)
  /-- GPIO_INPUT_CHANGE (R446): A filtered GPIO input change writes an item. -/
  | gpioInputChange (t : Nat) (pin : Fin 16) (level : Bool)
  /-- FLD_GPIO_OUT (R446): A write of FLD_GPIO_OUT changes GPIO output levels. -/
  | fldGpioOut (t : Nat) (req : Nat) (value : Word)
  /-- FLD_INPUT_DEBOUNCE (R447): FLD debounces an E-stop or fire input change, writes an item and may request a Wrap. -/
  | fldInputDebounce (t : Nat) (input : Fin 8) (level : Bool)
  /-- GRANT_RECLAIM (R453): A client without a report for 1 ms loses its grant above the floor. -/
  | grantReclaim (t : Nat) (client : Fin 140)
  /-- GAF_CAP (R455): A write of GAF_CLIENT_CTRL.CAP caps a client, refused below F for protected use from the open realm. -/
  | gafCap (t : Nat) (req : Nat) (client : Fin 140) (value : Word)
  /-- DIE_SENSOR_SAMPLE (R457): Every 1 ms the die sensors are sampled and checked. -/
  | dieSensorSample (t : Nat) (temps : List Int)
  /-- HW_THERMAL_SHUTDOWN (R459): The comparators find a sensor and neighbour at 115 C and start an immediate shutdown. -/
  | hwThermalShutdown (t : Nat) (sensor : Fin 32)
  /-- HALT_FORCE (R459): HALT not entered 1 ms after the comparators fired is forced. -/
  | haltForce (t : Nat)
  /-- GAF_SENS_RESTORE (R457): GAF_SENS_CTRL.RESTORE returns an excluded sensor. -/
  | gafSensRestore (t : Nat) (req : Nat) (sensor : Fin 32)
  /-- THROTTLE_GRACE_EXPIRY (R460): The throttle grace ends with a die at warn and enforcement begins. -/
  | throttleGraceExpiry (t : Nat)
  /-- THROTTLE_STEP (R460): Every 1 s at warn disc falls by D0/8. -/
  | throttleStep (t : Nat)
  /-- THROTTLE_RELEASE_STEP (R460): Every 10 s without warn disc rises by D0/8 until released. -/
  | throttleReleaseStep (t : Nat)
  /-- COMPENSATION_UPDATE (R461): Once a second the Gaffer supplies temperatures to the compensated elements. -/
  | compensationUpdate (t : Nat)
  /-- HEAT_POOL_EVALUATE (R462): Each container's granted balancing pool is computed. -/
  | heatPoolEvaluate (t : Nat)
  /-- SHUTDOWN_REQ (R463): SHUTDOWN_REQ_N low for 1 ms requests a Wrap. -/
  | shutdownReq (t : Nat)
  /-- PWR_GOOD_FALL (R463): PWR_GOOD low for 10 us requests a supply-loss Wrap or an immediate shutdown. -/
  | pwrGoodFall (t : Nat)
  /-- WRAP_STRING_STEP (R464): A string in a Wrap advances from RAMP, HELD or OPEN as its Takes and STATUS show. -/
  | wrapStringStep (t : Nat) (string : Fin 256)
  /-- WRAP_HOLD_T (R464): HOLD_T elapses and HOLD is sent regardless of current. -/
  | wrapHoldT (t : Nat)
  /-- WRAP_OPEN_TIMEOUT (R464): A string OPEN for 100 ms goes to DONE unconfirmed. -/
  | wrapOpenTimeout (t : Nat) (string : Fin 256)
  /-- WRAP_COMPLETE (R465): All strings DONE and snapshots written complete the Wrap to QUIET or HALT. -/
  | wrapComplete (t : Nat)
  /-- WRAP_LIMIT (R465): The Wrap time limit runs out and an immediate shutdown starts. -/
  | wrapLimit (t : Nat)
  /-- IMMEDIATE_SHUTDOWN (R468): Trip outputs trip, a withdrawing PERMIT is sent, then HALT is entered. -/
  | immediateShutdown (t : Nat)
  /-- WAKE_PIN (R472): A wake pin active for DEB ms asserts MAIN_EN_N. -/
  | wakePin (t : Nat) (pin : Fin 4)
  /-- RTC_ALARM (R472): The RTC reaches WCH_ALARM and asserts MAIN_EN_N. -/
  | rtcAlarm (t : Nat)
  /-- WCH_RELEASE (R472): WCH_CTRL.RELEASE releases MAIN_EN_N. -/
  | wchRelease (t : Nat) (req : Nat) (value : Word)
  /-- DAILY (R473): At a Daily instant ADC, pins, tones and rules are processed. -/
  | daily (t : Nat) (adc : List (List Nat)) (pins : Nat) (t30 t31 : Int)
  /-- TONE_DETECT (R475): A watch tone detector latches a 64 MHz tone and tone rules are evaluated. -/
  | toneDetect (t : Nat) (port : Fin 128)
  /-- VBAT_LOW (R471): VBAT falls below 2.0 V. -/
  | vbatLow (t : Nat)
  /-- RECORD_WRITE_DONE (R480): A two-copy NVM record write completes. -/
  | recordWriteDone (t : Nat) (bb : Bool) (copy0 copy1 : NvProg)
  /-- PST_SCRUB (R481): The background read of every page completes its 30-day pass, rewriting weak records. -/
  | pstScrub (t : Nat) (found : List (Nat × Nat))
  /-- PST_BB_SEL (R485): A write of PST_BB_SEL selects a black-box record for the window. -/
  | pstBbSel (t : Nat) (req : Nat) (value : Word)
  /-- TAG_RF_READ (R486): An RF read command returns committed tag copies. -/
  | tagRfRead (t : Nat) (cmd : Nat) (uid : Option Nat) (sel : Bool) (block n : Nat)
  /-- TAG_RF_WRITE (R488): An RF write to pages 30 or 31 commits within the write sequence. -/
  | tagRfWrite (t : Nat) (cmd : Nat) (uid : Option Nat) (sel : Bool) (block : Nat) (data : List Byte)
  /-- TAG_FIELD_LOSS (R488): Loss of the RF field ends the RF write sequence. -/
  | tagFieldLoss (t : Nat)
  /-- TAG_RF_IDLE (R488): 10 s without an RF command ends the RF write sequence. -/
  | tagRfIdle (t : Nat)
  /-- TAG_COMMIT (R487): A device-side tag page commit takes place or fails after 25 ms. -/
  | tagCommit (t : Nat) (page : Fin 32) (busy : Bool)
  /-- TAG_REFRESH (R489): PST rewrites tag pages 0 to 20 on its period or events. -/
  | tagRefresh (t : Nat)
  /-- PST_TAG_COMMIT (R490): PST_TAG_CTRL.COMMIT commits the shadow of a host page. -/
  | pstTagCommit (t : Nat) (req : Nat) (value : Word)
  /-- BYPASS (R507): The JTAG BYPASS instruction. -/
  | bypass (t : Nat)
  /-- IDCODE (R507): The JTAG IDCODE instruction. -/
  | idcode (t : Nat)
  /-- SAMPLE_PRELOAD (R507): The JTAG SAMPLE/PRELOAD instruction. -/
  | samplePreload (t : Nat)
  /-- EXTEST (R507): EXTEST, executed only with DBG_EN in DARK, otherwise as BYPASS. -/
  | extest (t : Nat) (dbgEn : Bool)
  /-- CLAMP (R507): CLAMP, executed only with DBG_EN in DARK. -/
  | clamp (t : Nat) (dbgEn : Bool)
  /-- INTEST (R507): INTEST, executed only with DBG_EN in DARK. -/
  | intest (t : Nat) (dbgEn : Bool)
  /-- VBAT_REMOVED (R471): VBAT is removed while VAUX is absent, the device goes to OFF and the RTC and retention memory are lost. -/
  | vbatRemoved (t : Nat)
  /-- FORCE_SHADOW_BUILT (R107): The re-authentication and shadow build of an activate command with FORCE in RUN completes, starting the Wrap, or fails with REEL_REFUSED. -/
  | forceShadowBuilt (t : Nat) (damaged : Bool)
  /-- REF10_RESTORED (R151): REF10_IN returns within its 2 ppm window while enabled and becomes the frequency source again. -/
  | ref10Restored (t : Nat)
  /-- PTP_MESSAGE_SEND (R155): At each configured interval a PTP port sends its Sync, Announce, Delay_Req or Pdelay_Req with one-step timestamping. -/
  | ptpMessageSend (t : Nat) (port : Fin 4) (kind : Nat)
  /-- LNK_PORT_LOS (R147): A Nusal port loses line signal or character alignment, setting LOS and raising EV_LNK_PORT_DOWN. -/
  | lnkPortLos (t : Nat) (port : Fin 128)
  /-- LNK_PORT_SYNC_GAINED (R147): A Nusal port regains signal and character alignment and raises EV_LNK_PORT_UP. -/
  | lnkPortSyncGained (t : Nat) (port : Fin 128)
  /-- TRIP_FB_CHANGE (R320): A TRIP_FB input changes level, starting the FB_DELAY comparison or clearing MISMATCH when output and feedback agree again. -/
  | tripFbChange (t : Nat) (output : Fin 6) (level : Bool)
  /-- LANE_SILENT (R334): A voting lane presents no compare entry within 1 us of another lane and is treated as silent. -/
  | laneSilent (t : Nat) (tr : Fin 4) (lane : Nat) (pc : Word)
  /-- ILLEGAL_WORD (R355): A lane fetches an instruction word with an unassigned opcode or FN, or a nonzero required field, and takes the ILLEGAL trap. -/
  | illegalWord (t : Nat) (tr : Fin 4) (l : Fin 6)
  /-- FETCH_BUS_FAULT (R362): A lane fetches from a PC outside the instruction TCM and takes the BUS trap. -/
  | fetchBusFault (t : Nat) (tr : Fin 4) (l : Fin 6)
  /-- LEASE_SET_RECEIVE (R379): A ring LEASE ordered set from the partner arrives at a STAND-IN or CONTENDING device and renews the lease or resolves the role. -/
  | leaseSetReceive (t : Nat) (ring : Fin 64) (rot : Fin 2) (delay : Nat)
  /-- COMMIT_FUSES_DONE (R94): The anti-rollback fuses of a commit have been blown, the other slot is marked INVALID where needed, and EV_IMG_COMMIT is raised. -/
  | commitFusesDone (t : Nat)
  /-- RTC_COMPENSATION (R478): In WATCH, every 60 s when the Daily interval is longer, the RTC correction is updated from sensors 30 and 31. -/
  | rtcCompensation (t : Nat) (t30 t31 : Int)
  /-- TAG_RF_COMMAND (R486): The tag receives an Inventory, Stay Quiet, Select, Reset to Ready, Get System Information or unsupported RF command and answers. -/
  | tagRfCommand (t : Nat) (cmd : Nat) (uid : Option Nat) (sel : Bool) (maskLen mask : Nat)
  /-- RC_READ (R13): A read of an RC field returns its value and clears it under R513. -/
  | rcRead (t : Nat) (req off : Nat)
deriving DecidableEq, Repr

/-- The device time at which a command reaches the device. -/
def Instr.time : Instr → Nat
  | .vbatApplied t .. | .vauxApplied t .. | .vauxRemoved t .. | .powerOn t .. | .mainRailsLost t .. | .resetNAsserted t .. | .bootSlotLoad t .. | .structureBuilt t .. => t
  | .enterRun t .. | .glbGo t .. | .glbWrap t .. | .cycleBoundary t .. | .cmdOverrun t .. | .nodeFrameReceive t .. | .frameHoldDeadline t .. | .cycReturn t .. => t
  | .ringLong t .. | .ringBreak t .. | .ringRestored t .. | .cycReceive t .. | .lnkRingEnum t .. | .enumReply t .. | .enumEnd t .. | .lnkRingWake t .. => t
  | .lnkRingSleep t .. | .lnkPortEnable t .. | .lnkPortWake t .. | .ptpEventReceive t .. | .ptpAnnounceReceive t .. | .ptpSourceTimeout t .. | .ppsEdge t .. | .ppsEdgeMissing t .. => t
  | .timebaseStep t .. | .slewComplete t .. | .tbTimeWrite t .. | .holdoverSecond t .. | .tcompLearn t .. | .refFail t .. | .ref10Lost t .. | .rtcUpdate t .. => t
  | .slateSyncEdge t .. | .syncLost t .. | .boardMasterElection t .. | .boardTime t .. | .twtt t .. | .tbUtcSet t .. | .swpSamplePacket t .. | .openWireEvaluate t .. => t
  | .swpOwClear t .. | .balQuiet t .. | .balPlan t .. | .balClose t .. | .nodeWake t .. | .qfOpen t .. | .qfAppend t .. | .qfClose t .. => t
  | .qfPushSingle t .. | .qfPop t .. | .doorbellLowWrite t .. | .doorbellHighRead t .. | .hostPopTimeout t .. | .popWaitResume t .. | .blockWaitResume t .. | .qfCut t .. => t
  | .qfAbort t .. | .qfRelease t .. | .qfFlush t .. | .lockReclaimProducer t .. | .lockReclaimConsumer t .. | .qstatRead t .. | .qstatWmClear t .. | .qstatLossClear t .. => t
  | .stallWarn t .. | .qfEccUncorrectable t .. | .estInputItem t .. | .takeClosure t .. | .resetImp t .. | .resetCap t .. | .resetEfc t .. | .anchorFull t .. => t
  | .anchorEmpty t .. | .reportNow t .. | .lpeInputItem t .. | .satExpired t .. | .measurementLost t .. | .tickSkip t .. | .lpeResume t .. | .lpeForceSafe t .. => t
  | .lpeResetX t .. | .dspInputRecord t .. | .dspCanInput t .. | .dspMirror t .. | .dspUnmirrored t .. | .derateGraceExpiry t .. | .dspWatchdog t .. | .ffrActive t .. => t
  | .ffrEnd t .. | .freqLost t .. | .dspSrcWrite t .. | .trwFrameAccept t .. | .trwNotDelivered t .. | .trwStrReset t .. | .trwResetGlobal t .. | .estopFireInput t .. => t
  | .safetyFrameReceive t .. | .sfSingle t .. | .sfTimeout t .. | .sfStatusSend t .. | .feedbackMismatch t .. | .trwStoreCheck t .. | .trwCfgWrite t .. | .pPermitWrite t .. => t
  | .trwPTripWrite t .. | .trwTestGo t .. | .trwTestAbort t .. | .testStepLimit t .. | .testDue t .. | .voterCompare t .. | .trdReadmit t .. | .trdReadmitCancel t .. => t
  | .laneSelftestDone t .. | .trdRestart t .. | .trdWdogExpiry t .. | .trdWdogKick t .. | .trdWdogWrite t .. | .busLockRevoke t .. | .debugHalt t .. | .debugResume t .. => t
  | .debugCommand t .. | .add t .. | .sub t .. | .addo t .. | .subo t .. | .neg t .. | .abs t .. | .and t .. => t
  | .or t .. | .xor t .. | .nor t .. | .andn t .. | .sll t .. | .srl t .. | .sra t .. | .ror t .. => t
  | .rol t .. | .slt t .. | .sltu t .. | .min t .. | .max t .. | .minu t .. | .maxu t .. | .mul t .. => t
  | .mulh t .. | .mulhu t .. | .div t .. | .divu t .. | .rem t .. | .remu t .. | .clz t .. | .popc t .. => t
  | .addi t .. | .slti t .. | .sltiu t .. | .andi t .. | .ori t .. | .xori t .. | .lui t .. | .slli t .. => t
  | .srli t .. | .srai t .. | .rori t .. | .lw t .. | .lh t .. | .lhu t .. | .lb t .. | .lbu t .. => t
  | .sw t .. | .sh t .. | .sb t .. | .beq t .. | .bne t .. | .blt t .. | .bge t .. | .bltu t .. => t
  | .bgeu t .. | .j t .. | .jal t .. | .jalr t .. | .qpush t .. | .qpop t .. | .qpopt t .. | .qcut t .. => t
  | .qabort t .. | .qrelease t .. | .qpush2 t .. | .qpusht t .. | .queueWaitTimeout t .. | .nop t .. | .mfsr t .. | .mtsr t .. => t
  | .tbr t .. | .wait t .. | .waitWake t .. | .syncpt t .. | .lock t .. | .unlock t .. | .trap t .. | .rte t .. => t
  | .halt t .. | .presenceSend t .. | .presenceReceive t .. | .roleResolveTimeout t .. | .leaseExpiry t .. | .gatesOpen t .. | .takeover t .. | .partnerLost t .. => t
  | .streamAbsentOriginate t .. | .accept t .. | .content t .. | .want t .. | .mirrorMiss t .. | .compare t .. | .state t .. | .takeSync t .. => t
  | .sinSwitch t .. | .switchAbort t .. | .switch t .. | .switchNoAck t .. | .switchBoundary t .. | .note t .. | .peerDown t .. | .peerUp t .. => t
  | .cutReady t .. | .splice t .. | .imgRxPush t .. | .rxSessionTimeout t .. | .imgRxAbort t .. | .slotWriteDone t .. | .imgKeyGo t .. | .keyFuseDone t .. => t
  | .imgCommit t .. | .imgCutArm t .. | .shadowBuilt t .. | .cutover t .. | .cutMissed t .. | .imgCutDisarm t .. | .imgActivate t .. | .activateBuildDone t .. => t
  | .ethFrameReceive t .. | .ethLinkChange t .. | .prpSupervisionSend t .. | .prpPathSilent t .. | .macsecTxSwitch t .. | .macsecOldRxRemove t .. | .egressUnitTake t .. | .telemetryFlush t .. => t
  | .cwpRequest t .. | .cwpOpen t .. | .cwpClose t .. | .cwpIdleTimeout t .. | .pcieLinkChange t .. | .pcieFlr t .. | .msixFire t .. | .glbMsixArm t .. => t
  | .glbMsixMap t .. | .glbKeyEnrol t .. | .glbKeyErase t .. | .keyStoreDone t .. | .fulltimeNsRead t .. | .wideLowRead t .. | .registerWrite t .. | .canSlotEnd t .. => t
  | .canFrameReceive t .. | .canBusOff t .. | .canRecover t .. | .canErrorPassive t .. | .qdSample t .. | .fldQdSet t .. | .fldQdErrcnt t .. | .pwmPeriodStart t .. => t
  | .fldPwmHost t .. | .gpioInputChange t .. | .fldGpioOut t .. | .fldInputDebounce t .. | .grantReclaim t .. | .gafCap t .. | .dieSensorSample t .. | .hwThermalShutdown t .. => t
  | .haltForce t .. | .gafSensRestore t .. | .throttleGraceExpiry t .. | .throttleStep t .. | .throttleReleaseStep t .. | .compensationUpdate t .. | .heatPoolEvaluate t .. | .shutdownReq t .. => t
  | .pwrGoodFall t .. | .wrapStringStep t .. | .wrapHoldT t .. | .wrapOpenTimeout t .. | .wrapComplete t .. | .wrapLimit t .. | .immediateShutdown t .. | .wakePin t .. => t
  | .rtcAlarm t .. | .wchRelease t .. | .daily t .. | .toneDetect t .. | .vbatLow t .. | .recordWriteDone t .. | .pstScrub t .. | .pstBbSel t .. => t
  | .tagRfRead t .. | .tagRfWrite t .. | .tagFieldLoss t .. | .tagRfIdle t .. | .tagCommit t .. | .tagRefresh t .. | .pstTagCommit t .. | .bypass t .. => t
  | .idcode t .. | .samplePreload t .. | .extest t .. | .clamp t .. | .intest t .. | .vbatRemoved t .. | .forceShadowBuilt t .. | .ref10Restored t .. => t
  | .ptpMessageSend t .. | .lnkPortLos t .. | .lnkPortSyncGained t .. | .tripFbChange t .. | .laneSilent t .. | .illegalWord t .. | .fetchBusFault t .. | .leaseSetReceive t .. => t
  | .commitFusesDone t .. | .rtcCompensation t .. | .tagRfCommand t .. | .rcRead t .. => t

end Sys2Proof
end

