-- ==== Sys2Proof/Machine/Bits.lean ====
section
/-!
DEFINITION. Machine/Bits.lean: numbers, byte strings and checks. Rounding, saturation and the integer edge cases of chapter 2,
ts32 and full time, little-endian bytes, and the cyclic checks the spec names with their parameters.
-/
namespace Sys2Proof.Machine

/-! ### Bits and signs -/

/-- The field of `width` bits at bit `lo` of a number. -/
def bitsOf (x lo width : Nat) : Nat := x / 2 ^ lo % 2 ^ width

/-- Bit `i` of a number. -/
def bitAt (x i : Nat) : Bool := x / 2 ^ i % 2 == 1

/-- A Bool as the number 1 or 0. -/
def b2n (b : Bool) : Nat := if b then 1 else 0

/-- The signed value of a `width`-bit code. -/
def sx (width x : Nat) : Int :=
  let y := x % 2 ^ width
  if width ≠ 0 ∧ 2 ^ (width - 1) ≤ y then (y : Int) - (2 ^ width : Nat) else (y : Int)

/-- The `width`-bit code of an integer, mod 2^width. -/
def code (width : Nat) (x : Int) : Nat := (x % ((2 ^ width : Nat) : Int)).toNat

/-- The number of set bits among bits 0 to n − 1. -/
def popc (x : Nat) : Nat → Nat
  | 0 => 0
  | n + 1 => b2n (bitAt x n) + popc x n

/-- Bits 0 to n − 1 that are set, ascending. -/
def setBits (x n : Nat) : List Nat := (List.range n).filter (fun i => bitAt x i)

/-- x with bit i set or cleared. -/
def setBit (x i : Nat) (b : Bool) : Nat := if bitAt x i then (if b then x else x - 2 ^ i) else (if b then x + 2 ^ i else x)

/-! ### Engine arithmetic (R31 to R35) -/

/-- Rounded quotient, half up toward +∞ (R31): floor((2x + n) / 2n). -/
def rhu (x : Int) (n : Nat) : Int := Int.fdiv (2 * x + (n : Int)) (2 * (n : Int))

/-- Dropping k fraction bits with rounding half up (R31). -/
def dropBits (x : Int) (k : Nat) : Int := rhu x (2 ^ k)

/-- The nearest value of a range, and whether the value lay outside it (R32). -/
def satTo (lo hi x : Int) : Int × Bool := if x < lo then (lo, true) else if hi < x then (hi, true) else (x, false)

/-- Saturation to a signed width (R32). -/
def satS (width : Nat) (x : Int) : Int × Bool := satTo (-(2 ^ (width - 1) : Nat)) ((2 ^ (width - 1) : Nat) - 1) x

/-- Saturation to an unsigned width (R32). -/
def satU (width : Nat) (x : Int) : Int × Bool := satTo 0 ((2 ^ width : Nat) - 1) x

/-- Saturation to a signed width, without the flag. -/
def clampS (width : Nat) (x : Int) : Int := (satS width x).1

/-- A counter that saturates at an all-ones width. -/
def satAdd (width x n : Nat) : Nat := min (x + n) (2 ^ width - 1)

/-- Quotient rounded half up of an integer by a nonzero integer, for an engine (R31). -/
def rdiv (x : Int) (y : Int) : Int :=
  if y < 0 then rhu (-x) y.natAbs else rhu x y.natAbs

/-- The integer square root: the greatest r with r × r ≤ n. -/
def isqrt (n : Nat) : Nat := Nat.sqrt n

/-! ### Time (R47 to R53) -/

/-- ts32 of a device time in ns (chapter 2). -/
def ts32 (n : Nat) : Nat := n % 2 ^ 32

/-- The interval from ts32 value a to ts32 value b (R49). -/
def tsDiff (a b : Nat) : Int :=
  let d := ((b : Int) - (a : Int)) % (2 ^ 32 : Int)
  if d ≥ 2 ^ 31 then d - 2 ^ 32 else d

/-- The extension of a ts32 value against a reference in ns (R47). -/
def tsExtend (nref t : Nat) : Nat := ((nref : Int) + tsDiff (nref % 2 ^ 32) t).toNat

/-- The cycle number at a device time (chapter 0). -/
def cycleOf (n : Nat) : Nat := n / 125000

/-- The three full-time words of a device time (Table 2.9). -/
def fullTime (n : Nat) : Nat × Nat × Nat :=
  let s := n / 1000000000
  (n % 1000000000, s % 2 ^ 32, s / 2 ^ 32 % 2 ^ 16)

/-- A full-time value from its three words; none when malformed (R53). -/
def ofFullTime (ns lo hi : Nat) : Option Nat :=
  if ns < 1000000000 ∧ hi < 2 ^ 16 then some ((hi * 2 ^ 32 + lo) * 1000000000 + ns) else none

/-! ### Byte strings (R12) -/

/-- Byte i of a string, 0 beyond its end. -/
def byteAt (b : List Byte) (i : Nat) : Nat := (b.getD i 0).toNat

/-- The little-endian number of n bytes from offset i. -/
def le (b : List Byte) (i : Nat) : Nat → Nat
  | 0 => 0
  | n + 1 => byteAt b i + 256 * le b (i + 1) n

/-- The big-endian number of n bytes from offset i. -/
def be (b : List Byte) (i : Nat) : Nat → Nat
  | 0 => 0
  | n + 1 => byteAt b i * 256 ^ n + be b (i + 1) n

/-- n bytes from offset i. -/
def slice (b : List Byte) (i n : Nat) : List Byte := (b.drop i).take n

/-- A number as n little-endian bytes. -/
def toLe (x : Nat) : Nat → List Byte
  | 0 => []
  | n + 1 => BitVec.ofNat 8 x :: toLe (x / 256) n

/-- A number as n big-endian bytes. -/
def toBe (x n : Nat) : List Byte := (toLe x n).reverse

/-- Whether every byte is 0. -/
def allZero (b : List Byte) : Bool := b.all (fun x => x == 0)

/-- A string padded with zero bytes to n bytes, or cut to n. -/
def padTo (b : List Byte) (n : Nat) : List Byte := b.take n ++ List.replicate (n - b.length) 0

/-- A 12-byte full-time field (R52). -/
def time12 (n : Nat) : List Byte :=
  let (ns, lo, hi) := fullTime n
  toLe ns 4 ++ toLe lo 4 ++ toLe hi 2 ++ toLe 0 2

/-- The device time of a 12-byte full-time field; none when malformed (R52, R53). -/
def ofTime12 (b : List Byte) (i : Nat) : Option Nat :=
  if le b (i + 10) 2 = 0 then ofFullTime (le b i 4) (le b (i + 4) 4) (le b (i + 8) 2) else none

/-! ### Cyclic checks -/

/-- Eight steps of a reflected 32-bit CRC. -/
def crc32Bits (poly : BitVec 32) : Nat → BitVec 32 → BitVec 32
  | 0, c => c
  | n + 1, c => crc32Bits poly n (if c.getLsbD 0 then (c >>> 1) ^^^ poly else c >>> 1)

/-- CRC-32C (R59): reflected polynomial 0x82F63B78, initial value and final XOR all ones. -/
def crc32c (b : List Byte) : Nat :=
  ((b.foldl (fun c x => crc32Bits 0x82F63B78#32 8 (c ^^^ x.setWidth 32)) 0xFFFFFFFF#32) ^^^ 0xFFFFFFFF#32).toNat

/-- Eight steps of an 8-bit CRC, most significant bit first. -/
def crc8Bits (poly : BitVec 8) : Nat → BitVec 8 → BitVec 8
  | 0, c => c
  | n + 1, c => crc8Bits poly n (if c.getLsbD 7 then (c <<< 1) ^^^ poly else c <<< 1)

/-- CRC-8 with a polynomial, from an initial value, most significant bit first. -/
def crc8 (poly : Nat) (init : Nat) (b : List Byte) : Nat :=
  (b.foldl (fun c x => crc8Bits (BitVec.ofNat 8 poly) 8 (c ^^^ x)) (BitVec.ofNat 8 init)).toNat

/-! ### Lists -/

/-- Puts an element in front of the first one that it may stand before. -/
def insertBy {α : Type} (le : α → α → Bool) (a : α) : List α → List α
  | [] => [a]
  | b :: l => if le a b then a :: b :: l else b :: insertBy le a l

/-- Sorts a list; elements that may stand in either order keep the one they have. -/
def sortBy {α : Type} (le : α → α → Bool) : List α → List α
  | [] => []
  | a :: l => insertBy le a (sortBy le l)

/-- The median of a list of integers: the middle one of an odd count; of an even count the mean of the two middle ones, rounded
half up (R31). 0 of an empty list. -/
def median (l : List Int) : Int :=
  let s := sortBy (fun a b => decide (a ≤ b)) l
  let n := s.length
  if n % 2 = 1 then s.getD (n / 2) 0 else rhu (s.getD (n / 2 - 1) 0 + s.getD (n / 2) 0) 2

/-- Sum of naturals. -/
def sumN (l : List Nat) : Nat := l.foldl (· + ·) 0

/-- Sum of integers. -/
def sumI (l : List Int) : Int := l.foldl (· + ·) 0

/-- The least element of a list of naturals, or a default when it is empty. -/
def minN (l : List Nat) (d : Nat) : Nat := match l with
  | [] => d
  | x :: r => r.foldl min x

/-- The greatest element of a list of naturals, or a default when it is empty. -/
def maxN (l : List Nat) (d : Nat) : Nat := match l with
  | [] => d
  | x :: r => r.foldl max x

/-- The list with element i replaced. -/
def setAt {α : Type} (l : List α) (i : Nat) (v : α) : List α := l.set i v

/-- A list grown to length n with a filler. -/
def grow {α : Type} (l : List α) (n : Nat) (d : α) : List α := l ++ List.replicate (n - l.length) d

end Sys2Proof.Machine
end

