-- ==== Sys2Proof/Machine/Events.lean ====
section
/-!
DEFINITION. Machine/Events.lean: the events of the spec's event tables (Tables 4.21 to 19.13): subsystem ID, local code and
severity. The event code is ID × 1,024 + local code (R56); the severity of a code is fixed.
-/
namespace Sys2Proof.Machine

/-- An event of an event table: subsystem ID, local code, severity (R56). -/
structure Ev where
  id : Nat
  loc : Nat
  sev : Nat
deriving DecidableEq, Repr

/-- The event code (R56). -/
def Ev.code (e : Ev) : Nat := e.id * 1024 + e.loc

namespace Ev


/-! ### IMG (spec/04_startup_update.md) -/

def IMG_BOOT_SLOT : Ev := ⟨1, 0x1, 0⟩
def IMG_FALLBACK : Ev := ⟨1, 0x2, 2⟩
def IMG_DARK : Ev := ⟨1, 0x3, 3⟩
def IMG_LOAD_REFUSED : Ev := ⟨1, 0x4, 2⟩
def IMG_ROLE_MISMATCH : Ev := ⟨1, 0x5, 3⟩
def IMG_BOOT_MODE : Ev := ⟨1, 0x6, 1⟩
def IMG_BLOCK_CRC : Ev := ⟨1, 0x7, 1⟩
def IMG_RX_COMPLETE : Ev := ⟨1, 0x8, 0⟩
def IMG_RX_TIMEOUT : Ev := ⟨1, 0x9, 2⟩
def IMG_SPLICE_PASS : Ev := ⟨1, 0xA, 0⟩
def IMG_SLOT_WRITTEN : Ev := ⟨1, 0xB, 0⟩
def IMG_SLOT_WRITE_FAIL : Ev := ⟨1, 0xC, 3⟩
def IMG_CUT_ARMED : Ev := ⟨1, 0xD, 0⟩
def IMG_CUT_DONE : Ev := ⟨1, 0xE, 1⟩
def IMG_CUT_MISSED : Ev := ⟨1, 0xF, 2⟩
def IMG_ACTIVATE : Ev := ⟨1, 0x10, 1⟩
def IMG_TRIAL_REVERT : Ev := ⟨1, 0x11, 2⟩
def IMG_COMMIT : Ev := ⟨1, 0x12, 1⟩
def IMG_KEY_ENROL : Ev := ⟨1, 0x13, 1⟩
def IMG_KEY_REVOKE : Ev := ⟨1, 0x14, 1⟩
def IMG_KEY_REFUSED : Ev := ⟨1, 0x15, 2⟩
def IMG_CARRY_DROP : Ev := ⟨1, 0x16, 1⟩

/-! ### LNK (spec/05_nusal_links.md) -/

def LNK_PORT_DOWN : Ev := ⟨2, 0x1, 2⟩
def LNK_PORT_UP : Ev := ⟨2, 0x2, 0⟩
def LNK_RING_BREAK : Ev := ⟨2, 0x3, 2⟩
def LNK_RING_RESTORED : Ev := ⟨2, 0x4, 1⟩
def LNK_NODE_LOST : Ev := ⟨2, 0x5, 3⟩
def LNK_NODE_BACK : Ev := ⟨2, 0x6, 1⟩
def LNK_ENUM_DONE : Ev := ⟨2, 0x7, 0⟩
def LNK_NODE_MISMATCH : Ev := ⟨2, 0x8, 3⟩
def LNK_NODE_REPLACED : Ev := ⟨2, 0x9, 1⟩
def LNK_CRC_RATE : Ev := ⟨2, 0xA, 2⟩
def LNK_SLOT_ERR : Ev := ⟨2, 0xB, 2⟩
def LNK_DUP_DIFFER : Ev := ⟨2, 0xC, 3⟩
def LNK_RING_LONG : Ev := ⟨2, 0xD, 3⟩
def LNK_EPOCH_BEHIND : Ev := ⟨2, 0xE, 3⟩
def LNK_CMD_OVERRUN : Ev := ⟨2, 0xF, 2⟩
def LNK_ORIGIN_CHANGE : Ev := ⟨2, 0x10, 1⟩
def LNK_ALIGN_DEGRADED : Ev := ⟨2, 0x11, 2⟩

/-! ### TB (spec/06_timebase_slate.md) -/

def TB_LOCKED : Ev := ⟨3, 0x1, 0⟩
def TB_HOLDOVER : Ev := ⟨3, 0x2, 2⟩
def TB_HOLD_LONG : Ev := ⟨3, 0x3, 3⟩
def TB_SRC_CHANGE : Ev := ⟨3, 0x4, 1⟩
def TB_STEP : Ev := ⟨3, 0x5, 2⟩
def TB_OUTLIER : Ev := ⟨3, 0x6, 1⟩
def TB_PPS_LOST : Ev := ⟨3, 0x7, 2⟩
def TB_REF10_LOST : Ev := ⟨3, 0x8, 2⟩
def TB_REF_FAIL : Ev := ⟨3, 0x9, 5⟩
def TB_SYNC_LOST : Ev := ⟨3, 0xA, 2⟩
def TB_BOARD_ALIGN : Ev := ⟨3, 0xB, 3⟩
def TB_BOARD_MASTER : Ev := ⟨3, 0xC, 1⟩
def TB_PORT_STATE : Ev := ⟨3, 0xD, 0⟩
def TB_SET_REFUSED : Ev := ⟨3, 0xE, 1⟩
def TB_BAD_TIME : Ev := ⟨3, 0xF, 1⟩
def TB_LEAP : Ev := ⟨3, 0x10, 1⟩
def TB_TCOMP_GAP : Ev := ⟨3, 0x11, 1⟩

/-! ### SWP (spec/07_cell_sweeps.md) -/

def SWP_NODE_STATE : Ev := ⟨4, 0x1, 1⟩
def SWP_NODE_CONFLICT : Ev := ⟨4, 0x2, 2⟩
def SWP_NODE_AGREE : Ev := ⟨4, 0x3, 0⟩
def SWP_NSTATE_BAD : Ev := ⟨4, 0x4, 2⟩
def SWP_OW_SUSPECT : Ev := ⟨4, 0x5, 2⟩
def SWP_OW_CONFIRMED : Ev := ⟨4, 0x6, 3⟩
def SWP_OW_CLEARED : Ev := ⟨4, 0x7, 1⟩
def SWP_TEMP_EXCLUDED : Ev := ⟨4, 0x8, 2⟩
def SWP_TEMP_RESTORED : Ev := ⟨4, 0x9, 1⟩
def SWP_FILTER_SAT : Ev := ⟨4, 0xA, 2⟩
def SWP_BAL_LIMITED : Ev := ⟨4, 0xB, 1⟩
def SWP_BAL_CUT : Ev := ⟨4, 0xC, 2⟩
def SWP_NODE_WAKE : Ev := ⟨4, 0xD, 1⟩
def SWP_RESYNC : Ev := ⟨4, 0xE, 0⟩

/-! ### QF (spec/08_queue_fabric.md) -/

def QF_WATERMARK : Ev := ⟨5, 0x1, 1⟩
def QF_LOSS : Ev := ⟨5, 0x2, 2⟩
def QF_LOCK_RECLAIM : Ev := ⟨5, 0x3, 2⟩
def QF_REFUSED : Ev := ⟨5, 0x4, 1⟩
def QF_STALL : Ev := ⟨5, 0x5, 2⟩
def QF_ECC : Ev := ⟨5, 0x6, 3⟩

/-! ### EST (spec/09_state_estimation.md) -/

def EST_INPUT_GAP : Ev := ⟨6, 0x1, 2⟩
def EST_CHAIN_BREAK : Ev := ⟨6, 0x2, 1⟩
def EST_CAPACITY_REJECT : Ev := ⟨6, 0x3, 2⟩
def EST_IMP_OUTLIER : Ev := ⟨6, 0x4, 2⟩
def EST_DERATE : Ev := ⟨6, 0x5, 2⟩
def EST_DERATE_END : Ev := ⟨6, 0x6, 1⟩
def EST_FULL : Ev := ⟨6, 0x7, 0⟩
def EST_EMPTY : Ev := ⟨6, 0x8, 0⟩
def EST_TABLE_CLEARED : Ev := ⟨6, 0x9, 1⟩
def EST_RESTORE : Ev := ⟨6, 0xA, 0⟩
def EST_TEMP_NONE : Ev := ⟨6, 0xB, 2⟩
def EST_ARITH : Ev := ⟨6, 0xC, 2⟩

/-! ### LPE (spec/10_loop_engine.md) -/

def LPE_SAT_EXPIRED : Ev := ⟨7, 0x1, 2⟩
def LPE_HOLD : Ev := ⟨7, 0x2, 2⟩
def LPE_SAFE : Ev := ⟨7, 0x3, 3⟩
def LPE_LOSS : Ev := ⟨7, 0x4, 3⟩
def LPE_RESUMED : Ev := ⟨7, 0x5, 1⟩
def LPE_GAIN_SWITCH : Ev := ⟨7, 0x6, 0⟩
def LPE_INPUT_LATE : Ev := ⟨7, 0x7, 2⟩
def LPE_INPUT_BAD : Ev := ⟨7, 0x8, 2⟩
def LPE_TICK_SKIP : Ev := ⟨7, 0x9, 2⟩
def LPE_ARITH : Ev := ⟨7, 0xA, 2⟩

/-! ### DSP (spec/11_dispatch.md) -/

def DSP_INPUT_REFUSED : Ev := ⟨8, 0x1, 1⟩
def DSP_SRC_CHANGE : Ev := ⟨8, 0x2, 1⟩
def DSP_WATCHDOG : Ev := ⟨8, 0x3, 2⟩
def DSP_SHORTFALL : Ev := ⟨8, 0x4, 2⟩
def DSP_FFR_ACTIVE : Ev := ⟨8, 0x5, 1⟩
def DSP_FFR_END : Ev := ⟨8, 0x6, 0⟩
def DSP_FREQ_LOST : Ev := ⟨8, 0x7, 2⟩
def DSP_DERATE_GRACE : Ev := ⟨8, 0x8, 2⟩
def DSP_DERATE_ENFORCED : Ev := ⟨8, 0x9, 2⟩
def DSP_DERATE_LIFTED : Ev := ⟨8, 0xA, 1⟩
def DSP_HR_STALE : Ev := ⟨8, 0xB, 2⟩
def DSP_LATE_APPLY : Ev := ⟨8, 0xC, 1⟩
def DSP_PENDING_FULL : Ev := ⟨8, 0xD, 2⟩
def DSP_MIRROR_LATE : Ev := ⟨8, 0xE, 3⟩
def DSP_UNMIRRORED : Ev := ⟨8, 0xF, 2⟩
def DSP_ARITH : Ev := ⟨8, 0x10, 2⟩

/-! ### TRW (spec/12_protection.md) -/

def TRW_TRIP_V : Ev := ⟨9, 0x1, 4⟩
def TRW_TRIP_T : Ev := ⟨9, 0x2, 4⟩
def TRW_TRIP_I : Ev := ⟨9, 0x3, 4⟩
def TRW_TRIP_ISO : Ev := ⟨9, 0x4, 4⟩
def TRW_TRIP_MISSING : Ev := ⟨9, 0x5, 4⟩
def TRW_TRIP_INPUT : Ev := ⟨9, 0x6, 4⟩
def TRW_TRIP_SF : Ev := ⟨9, 0x7, 4⟩
def TRW_WELD : Ev := ⟨9, 0x8, 4⟩
def TRW_RESET : Ev := ⟨9, 0x9, 1⟩
def TRW_ADMIT : Ev := ⟨9, 0xA, 0⟩
def TRW_SF_SINGLE : Ev := ⟨9, 0xB, 2⟩
def TRW_SF_DIFFER : Ev := ⟨9, 0xC, 3⟩
def TRW_SF_REFUSED : Ev := ⟨9, 0xD, 1⟩
def TRW_FB_MISMATCH : Ev := ⟨9, 0xE, 3⟩
def TRW_P_STALE : Ev := ⟨9, 0xF, 3⟩
def TRW_T0_AUTH : Ev := ⟨9, 0x10, 3⟩
def TRW_TEST_PASS : Ev := ⟨9, 0x11, 0⟩
def TRW_TEST_FAIL : Ev := ⟨9, 0x12, 3⟩
def TRW_TEST_DUE : Ev := ⟨9, 0x13, 2⟩
def TRW_STORE : Ev := ⟨9, 0x14, 5⟩
def TRW_CFG_REFUSED : Ev := ⟨9, 0x15, 1⟩

/-! ### TRD (spec/13_triad_complex.md) -/

def TRD_MISMATCH : Ev := ⟨10, 0x1, 2⟩
def TRD_HALT : Ev := ⟨10, 0x2, 3⟩
def TRD_READMIT : Ev := ⟨10, 0x3, 1⟩
def TRD_RESTART : Ev := ⟨10, 0x4, 1⟩
def TRD_PROG_HALT : Ev := ⟨10, 0x5, 3⟩
def TRD_WDOG : Ev := ⟨10, 0x6, 3⟩
def TRD_LOCK_REVOKED : Ev := ⟨10, 0x7, 2⟩
def TRD_DEBUG_PORT : Ev := ⟨10, 0x8, 1⟩
def TRD_DEBUG_HALT : Ev := ⟨10, 0x9, 2⟩
def TRD_DEBUG_REFUSED : Ev := ⟨10, 0xA, 1⟩
def TRD_HANDOVER : Ev := ⟨10, 0xB, 0⟩
def TRD_ECC : Ev := ⟨10, 0xC, 1⟩

/-! ### SIN (spec/15_stand_in_pairs.md) -/

def SIN_ROLE : Ev := ⟨11, 0x1, 1⟩
def SIN_TAKEOVER : Ev := ⟨11, 0x2, 3⟩
def SIN_DEMOTED : Ev := ⟨11, 0x3, 3⟩
def SIN_PARTNER_LOST : Ev := ⟨11, 0x4, 2⟩
def SIN_PARTNER_BACK : Ev := ⟨11, 0x5, 1⟩
def SIN_PEER_DOWN : Ev := ⟨11, 0x6, 2⟩
def SIN_PEER_UP : Ev := ⟨11, 0x7, 0⟩
def SIN_COMPARE : Ev := ⟨11, 0x8, 3⟩
def SIN_INSTEP : Ev := ⟨11, 0x9, 1⟩
def SIN_SWITCH : Ev := ⟨11, 0xA, 1⟩
def SIN_PAIR_MISMATCH : Ev := ⟨11, 0xB, 3⟩
def SIN_PARTNER_NOTE : Ev := ⟨11, 0xC, 2⟩
def SIN_EPOCH_LIMIT : Ev := ⟨11, 0xD, 3⟩
def SIN_MIRROR_MISS : Ev := ⟨11, 0xE, 2⟩

/-! ### GLB (spec/16_host_access.md) -/

def GLB_STATE : Ev := ⟨0, 0x1, 1⟩
def GLB_ACCESS_REFUSED : Ev := ⟨0, 0x2, 1⟩
def GLB_CWP_DISCARD : Ev := ⟨0, 0x3, 2⟩
def GLB_SESSION : Ev := ⟨0, 0x4, 0⟩
def GLB_SESSION_FULL : Ev := ⟨0, 0x5, 2⟩
def GLB_PCIE_LINK : Ev := ⟨0, 0x6, 2⟩
def GLB_PCIE_FLR : Ev := ⟨0, 0x7, 1⟩
def GLB_KEY : Ev := ⟨0, 0x8, 1⟩
def GLB_CWP_OVERRUN : Ev := ⟨0, 0x9, 2⟩

/-! ### NET (spec/17_networks_fieldbus_io.md) -/

def NET_LINK : Ev := ⟨12, 0x1, 2⟩
def NET_PRP_PATH : Ev := ⟨12, 0x2, 2⟩
def NET_PRP_RESTORED : Ev := ⟨12, 0x3, 1⟩
def NET_MACSEC : Ev := ⟨12, 0x4, 2⟩
def NET_MACSEC_KEY : Ev := ⟨12, 0x5, 1⟩
def NET_MACSEC_CLOSED : Ev := ⟨12, 0x6, 3⟩
def NET_TX_DISCARD : Ev := ⟨12, 0x7, 2⟩
def NET_PRP_TABLE_FULL : Ev := ⟨12, 0x8, 2⟩

/-! ### FLD (spec/17_networks_fieldbus_io.md) -/

def FLD_QD_ILLEGAL : Ev := ⟨13, 0x1, 2⟩
def FLD_QD_SAT : Ev := ⟨13, 0x2, 2⟩
def FLD_CAN_BUSOFF : Ev := ⟨13, 0x3, 3⟩
def FLD_CAN_RECOVER : Ev := ⟨13, 0x4, 1⟩
def FLD_CAN_PASSIVE : Ev := ⟨13, 0x5, 2⟩
def FLD_CAN_MISS : Ev := ⟨13, 0x6, 2⟩
def FLD_CAN_ABORT : Ev := ⟨13, 0x7, 2⟩
def FLD_CAN_TX_BAD : Ev := ⟨13, 0x8, 2⟩
def FLD_INPUT_ON : Ev := ⟨13, 0x9, 2⟩
def FLD_INPUT_OFF : Ev := ⟨13, 0xA, 1⟩

/-! ### GAF (spec/18_power_thermal_wrap.md) -/

def GAF_THROTTLE_REQ : Ev := ⟨14, 0x1, 2⟩
def GAF_THROTTLE_ENFORCED : Ev := ⟨14, 0x2, 2⟩
def GAF_THROTTLE_END : Ev := ⟨14, 0x3, 1⟩
def GAF_GRANT_RECLAIM : Ev := ⟨14, 0x4, 2⟩
def GAF_REALM_HOLD : Ev := ⟨14, 0x5, 2⟩
def GAF_TEMP_WARN : Ev := ⟨14, 0x6, 2⟩
def GAF_TEMP_WRAP : Ev := ⟨14, 0x7, 3⟩
def GAF_TEMP_SHUTDOWN : Ev := ⟨14, 0x8, 5⟩
def GAF_SENSOR_EXCLUDED : Ev := ⟨14, 0x9, 2⟩
def GAF_SENSOR_RESTORED : Ev := ⟨14, 0xA, 1⟩
def GAF_SENSORS_LOST : Ev := ⟨14, 0xB, 3⟩
def GAF_WRAP_START : Ev := ⟨14, 0xC, 2⟩
def GAF_WRAP_DONE : Ev := ⟨14, 0xD, 1⟩
def GAF_WRAP_LIMIT : Ev := ⟨14, 0xE, 3⟩
def GAF_OPEN_UNCONFIRMED : Ev := ⟨14, 0xF, 3⟩
def GAF_IMMEDIATE : Ev := ⟨14, 0x10, 5⟩
def GAF_HEAT_CUT : Ev := ⟨14, 0x11, 1⟩
def GAF_COMP_HOLD : Ev := ⟨14, 0x12, 2⟩

/-! ### WCH (spec/19_watch_store_tag.md) -/

def WCH_WAKE : Ev := ⟨15, 0x1, 1⟩
def WCH_RULE : Ev := ⟨15, 0x2, 2⟩
def WCH_VBAT_LOW : Ev := ⟨15, 0x3, 2⟩
def WCH_VAUX : Ev := ⟨15, 0x4, 1⟩
def WCH_LOG_OVERFLOW : Ev := ⟨15, 0x5, 2⟩
def WCH_RTC_INVALID : Ev := ⟨15, 0x6, 2⟩

/-! ### PST (spec/19_watch_store_tag.md) -/

def PST_WEAR_WARN : Ev := ⟨16, 0x1, 2⟩
def PST_PAGE_RETIRED : Ev := ⟨16, 0x2, 1⟩
def PST_SPARES_LOW : Ev := ⟨16, 0x3, 2⟩
def PST_LEARN_FROZEN : Ev := ⟨16, 0x4, 3⟩
def PST_ECC : Ev := ⟨16, 0x5, 1⟩
def PST_RECORD_LOST : Ev := ⟨16, 0x6, 3⟩
def PST_BB_DROPPED : Ev := ⟨16, 0x7, 2⟩
def PST_TAG_BUSY : Ev := ⟨16, 0x8, 1⟩
def PST_TAG_NOTE : Ev := ⟨16, 0x9, 1⟩
def PST_REGION_FULL : Ev := ⟨16, 0xA, 3⟩

end Ev

end Sys2Proof.Machine
end

