-- ==== Sys2Proof/Machine/Queue.lean ====
section
/-!
DEFINITION. Machine/Queue.lean: one queue of the queue fabric (chapter 8) as plain data, and what a write, a read, a Cut and a
reclaim do to it. The fabric as a whole (endpoints, realms, routing, counters, events) stands in Machine/Ops.lean.
-/
namespace Sys2Proof.Machine

/-- The full policies (R211 to R214). -/
inductive Policy where
  | block | dropNew | overwrite
deriving DecidableEq, Repr

/-- What the running Reel declares of a queue (Table 3.11, Table 3.5). -/
structure QDef where
  depth : Nat
  policy : Policy
  cls : Nat
  producer : Nat
  consumer : Nat
  wmHigh : Nat
  carry : Nat
  prot : Bool
  openRead : Bool
deriving DecidableEq, Repr

/-- A closed unit: a packet, a single item or an event record (chapter 8, Full policies). -/
inductive QUnit where
  | pkt (head : Item) (items : List Item)
  | one (it : Item)
  | ev (a b : Item)
deriving DecidableEq, Repr

/-- The items a unit occupies. -/
def QUnit.items : QUnit → List Item
  | .pkt h l => h :: l
  | .one a => [a]
  | .ev a b => [a, b]

/-- The slots a unit occupies. -/
def QUnit.size : QUnit → Nat
  | .pkt _ l => l.length + 1
  | .one _ => 1
  | .ev _ _ => 2

/-- An open packet (R216): its producer, the items behind the reserved slot, whether its appends are now discarded and its head will
carry ERR (R213, R218), and whether it holds no slot any more because its OPEN did not fit or a Cut removed it. -/
structure OpenPkt where
  req : Nat
  items : List Item
  discard : Bool
  gone : Bool
deriving DecidableEq, Repr

/-- A unit being read (R223): the lock's holder and the unread items. -/
structure Reading where
  req : Nat
  rest : List Item
deriving DecidableEq, Repr

/-- A queue: its definition, its closed units oldest first, the open packet (always the newest, since its producer holds the
lock), the unit being read, the requesters whose next operation is refused with LOCK_LOST (R224), the requesters waiting to read,
and the status fields of Tables 8.7 and 8.8. -/
structure Queue where
  qd : QDef
  units : List QUnit := []
  openp : Option OpenPkt := none
  reading : Option Reading := none
  lost : List Nat := []
  waiters : List Nat := []
  wmEvt : Bool := false
  loss : Bool := false
  cross : Nat := 0
  peak : Nat := 0
deriving DecidableEq, Repr

/-- What an operation on a queue tells the fabric: a watermark notice to raise, a loss to raise with its kind and item count. -/
inductive QNote where
  | watermark (level cross : Nat)
  | loss (kind items : Nat)
deriving DecidableEq, Repr

/-- The outcome of an operation: the queue after it, the status of Table 8.15 (0 for done; 0x24 where the producer would wait), the
notes, the items counted under each counter, and the item read. -/
structure QRes where
  q : Queue
  st : Nat := 0
  notes : List QNote := []
  drops : Nat := 0
  overs : Nat := 0
  cuts : Nat := 0
  item : Option Item := none
deriving DecidableEq, Repr

/-- `LEVEL` (R211): every occupied slot. -/
def Queue.level (q : Queue) : Nat :=
  sumN (q.units.map QUnit.size)
    + (match q.openp with | some p => if p.gone then 0 else p.items.length + 1 | none => 0)
    + (match q.reading with | some r => r.rest.length | none => 0)

/-- Bookkeeping of a write that filled n slots: the crossing of R220 and `PEAK`. -/
def Queue.wrote (q : Queue) (n : Nat) : Queue × List QNote :=
  let l := q.level
  let q := { q with peak := max q.peak (min l 65535) }
  let w := q.qd.wmHigh
  if w ≠ 0 ∧ w ≤ l ∧ l < w + n then
    let c := satAdd 8 q.cross 1
    ({ q with cross := c, wmEvt := true }, if q.wmEvt then [] else [.watermark w c])
  else (q, [])

/-- The 0 to 1 transition of `LOSS` raises the event once until the host clears it (R215). -/
def Queue.noteLoss (q : Queue) (kind items : Nat) : Queue × List QNote :=
  ({ q with loss := true }, if q.loss then [] else [.loss kind items])

/-- Discards the oldest units that nobody is reading until n slots are free (R214); answers what is left and the items discarded. -/
def dropOldest (units : List QUnit) (used depth n : Nat) : List QUnit × Nat :=
  match units with
  | [] => ([], 0)
  | u :: r =>
    if used + n ≤ depth then (u :: r, 0)
    else
      let (l, k) := dropOldest r (used - u.size) depth n
      (l, k + u.size)

/-- What the policy says of a write of n slots: the queue with room made, whether it fits, the items overwritten (R212 to R214). -/
def Queue.makeRoom (q : Queue) (n : Nat) : Queue × Bool × Nat :=
  if q.level + n ≤ q.qd.depth then (q, true, 0)
  else match q.qd.policy with
    | .overwrite =>
      let (us, k) := dropOldest q.units q.level q.qd.depth n
      let q' := { q with units := us }
      (q', decide (q'.level + n ≤ q'.qd.depth), k)
    | _ => (q, false, 0)

/-- The oversize condition of R218: the reserved head is the oldest unit and the queue is full. -/
def Queue.oversizeNow (q : Queue) : Bool :=
  q.units.isEmpty && q.reading.isNone && decide (q.qd.depth ≤ q.level)

/-- Stores a closed unit (a single item or an event record, or a packet an engine writes whole once it fits). -/
def Queue.putUnit (q : Queue) (u : QUnit) : QRes :=
  let (q1, fits, k) := q.makeRoom u.size
  if fits then
    let (q2, n2) := if k = 0 then (q1, []) else q1.noteLoss 2 k
    let (q3, n3) := ({ q2 with units := q2.units ++ [u] }).wrote u.size
    { q := q3, notes := n2 ++ n3, overs := k }
  else if q.qd.policy = .block then { q := q, st := 0x24 }
  else
    let (q2, n2) := q1.noteLoss (if q.qd.policy = .overwrite then 2 else 1) (u.size + k)
    { q := q2, st := 0x25, notes := n2, drops := u.size, overs := k }

/-- OPEN (Table 8.3): reserves the head slot and takes the producer lock. -/
def Queue.openPkt (q : Queue) (req : Nat) : QRes :=
  let (q1, fits, k) := q.makeRoom 1
  if fits then
    let (q2, n2) := if k = 0 then (q1, []) else q1.noteLoss 2 k
    let (q3, n3) := ({ q2 with openp := some { req := req, items := [], discard := false, gone := false } }).wrote 1
    { q := q3, notes := n2 ++ n3, overs := k }
  else if q.qd.policy = .block then { q := q, st := 0x24 }
  else
    let (q2, n2) := q1.noteLoss (if q.qd.policy = .overwrite then 2 else 1) 1
    let q3 := { q2 with openp := some { req := req, items := [], discard := true, gone := true } }
    { q := q3, st := 0x25, notes := n2, drops := 1, overs := k }

/-- The stored form of an item behind a head: VALID set, HEAD and LAST clear, ERR kept (R216, R217). -/
def storedItem (v : Item) : Item := (v &&& 0x1FFFFFFFFFFFFFFF#64) ||| 0x8000000000000000#64

/-- An append of an open packet (R213, R218). -/
def Queue.append (q : Queue) (p : OpenPkt) (v : Item) : QRes :=
  if p.gone then { q := q }
  else if p.discard then { q := q, st := if q.oversizeNow then 0x29 else if q.qd.policy = .block then 0x29 else 0x25, drops := 1 }
  else if q.oversizeNow ∨ p.items.length ≥ 65535 then
    { q := { q with openp := some { p with discard := true }, loss := true }, st := 0x29, notes := [.loss 3 1], drops := 1 }
  else
    let (q1, fits, k) := q.makeRoom 1
    if fits then
      let (q2, n2) := if k = 0 then (q1, []) else q1.noteLoss 2 k
      let (q3, n3) := ({ q2 with openp := some { p with items := p.items ++ [storedItem v] } }).wrote 1
      { q := q3, notes := n2 ++ n3, overs := k }
    else if q.qd.policy = .block then { q := q, st := 0x24 }
    else
      let q1' := { q1 with openp := some { p with discard := true } }
      if q1'.oversizeNow then
        { q := { q1' with loss := true }, st := 0x29, notes := [.loss 3 1], drops := 1, overs := k }
      else
        let (q2, n2) := q1'.noteLoss (if q.qd.policy = .overwrite then 2 else 1) 1
        { q := q2, st := 0x25, notes := n2, drops := 1, overs := k }

/-- Sets LAST on the final item of a packet (R217). -/
def markLast : List Item → List Item
  | [] => []
  | [a] => [a ||| 0x2000000000000000#64]
  | a :: b :: r => a :: markLast (b :: r)

/-- The HEAD item of R217: VALID and HEAD, ERR as given, LAST with no items, payload [59:16] of the close value and `COUNT`. -/
def headItem (v : Item) (err : Bool) (n : Nat) : Item :=
  ((v &&& 0x0FFFFFFFFFFF0000#64) ||| BitVec.ofNat 64 (n % 65536)) ||| 0xC000000000000000#64
    ||| (if err then 0x1000000000000000#64 else 0#64) ||| (if n = 0 then 0x2000000000000000#64 else 0#64)

/-- The ERR bit of an item (R40). -/
def itemErr (v : Item) : Bool := v.getLsbD 60

/-- CLOSE (R217): the head is written and the lock released; a packet that holds no slot is absorbed. -/
def Queue.closePkt (q : Queue) (p : OpenPkt) (v : Item) (err : Bool) : QRes :=
  if p.gone then { q := { q with openp := none } }
  else
    let u := QUnit.pkt (headItem v (itemErr v || err || p.discard) p.items.length) (markLast p.items)
    { q := { q with openp := none, units := q.units ++ [u] } }

/-- A program's push of a raw value (R216, Table 8.3), its producer lock already judged. -/
def Queue.push (q : Queue) (req : Nat) (v : Item) : QRes :=
  match q.openp with
  | some p => if v.getLsbD 62 then q.closePkt p v false else q.append p v
  | none =>
    if v.getLsbD 62 then q.openPkt req
    else q.putUnit (.one ((v &&& 0x3FFFFFFFFFFFFFFF#64) ||| 0x8000000000000000#64))

/-- Whether a unit or the rest of one can be read (R210). -/
def Queue.readable (q : Queue) : Bool := q.reading.isSome || !q.units.isEmpty

/-- A read by a requester that may read (R210, R223): the next item, taking or releasing the consumer lock. `none` when empty. -/
def Queue.popItem (q : Queue) (req : Nat) : QRes :=
  match q.reading with
  | some r =>
    if r.req = req then
      match r.rest with
      | [] => { q := { q with reading := none } }
      | a :: [] => { q := { q with reading := none }, item := some a }
      | a :: b :: l => { q := { q with reading := some { r with rest := b :: l } }, item := some a }
    else { q := q, st := 0x26 }
  | none =>
    match q.units with
    | [] => { q := q }
    | u :: us =>
      match u.items with
      | [] => { q := { q with units := us } }
      | a :: [] => { q := { q with units := us }, item := some a }
      | a :: b :: l => { q := { q with units := us, reading := some { req := req, rest := b :: l } }, item := some a }

/-- An engine takes the next unit whole (R219, R226). -/
def Queue.takeUnit (q : Queue) : Queue × Option QUnit :=
  match q.reading, q.units with
  | none, u :: us => ({ q with units := us }, some u)
  | _, _ => (q, none)

/-- Cut by consumer position (Table 8.4). -/
def Queue.cut (q : Queue) (req : Nat) : QRes :=
  match q.reading with
  | some r =>
    if r.req = req then { q := { q with reading := none }, cuts := r.rest.length }
    else { q := q, st := 0x26 }
  | none =>
    match q.units with
    | .pkt h l :: us => { q := { q with units := us }, cuts := (QUnit.pkt h l).size }
    | _ :: _ => { q := q, st := 0x28 }
    | [] =>
      match q.openp with
      | some p =>
        if p.gone then { q := q, st := 0x28 }
        else { q := { q with openp := some { p with items := [], discard := true, gone := true } }, cuts := p.items.length + 1 }
      | none => { q := q, st := 0x28 }

/-- ABORT (R219, R224): the producer's open packet is closed with ERR. -/
def Queue.abort (q : Queue) (req : Nat) : QRes :=
  match q.openp with
  | some p => if p.req = req then q.closePkt p 0#64 true else { q := q, st := 0x28 }
  | none => { q := q, st := 0x28 }

/-- RELEASE (R224): acknowledges LOCK_LOST and gives up any lock the requester holds. -/
def Queue.release (q : Queue) (req : Nat) : QRes :=
  let q := { q with lost := q.lost.filter (fun x => x ≠ req) }
  let r1 : QRes := match q.reading with
    | some r => if r.req = req then { q := { q with reading := none }, cuts := r.rest.length } else { q := q }
    | none => { q := q }
  match r1.q.openp with
  | some p => if p.req = req then { (r1.q.closePkt p 0#64 true) with cuts := r1.cuts } else r1
  | none => r1

/-- FLUSH (Table 8.11): every closed unit is discarded and an open one cut. -/
def Queue.flush (q : Queue) (req : Nat) : QRes :=
  let n := sumN (q.units.map QUnit.size)
  let rd := match q.reading with
    | some r => if r.req = req then r.rest.length else 0
    | none => 0
  let rd' := match q.reading with
    | some r => if r.req = req then none else some r
    | none => none
  let q := { q with units := [], reading := rd' }
  match q.openp with
  | some p =>
    if p.gone then { q := q, cuts := n + rd }
    else { q := { q with openp := some { p with items := [], discard := true, gone := true } }, cuts := n + rd + p.items.length + 1 }
  | none => { q := q, cuts := n + rd }

/-- Reclaim of the producer lock (R222): the packet is closed as oversize, with ERR. -/
def Queue.reclaimProducer (q : Queue) : Option (QRes × Nat) :=
  match q.openp with
  | some p =>
    let r := q.closePkt p 0#64 true
    let q' := { r.q with lost := p.req :: r.q.lost.filter (fun x => x ≠ p.req) }
    some ({ r with q := q' }, p.items.length)
  | none => none

/-- Reclaim of the consumer lock (R223): the rest of the unit is discarded as by Cut. -/
def Queue.reclaimConsumer (q : Queue) : Option (QRes × Nat) :=
  match q.reading with
  | some r =>
    let q' := { q with reading := none, lost := r.req :: q.lost.filter (fun x => x ≠ r.req) }
    some ({ q := q', cuts := r.rest.length }, r.rest.length)
  | none => none

/-- Lost descriptor state (R229): the queue is emptied, its locks released, `LOSS` set. -/
def Queue.metaLost (q : Queue) : Queue :=
  { q with units := [], openp := none, reading := none, loss := true }

/-- The `QF_QSTAT` word (Table 8.7). -/
def Queue.qstat (q : Queue) : Nat :=
  q.level % 2 ^ 21 + b2n q.wmEvt * 2 ^ 21 + b2n q.loss * 2 ^ 22 + b2n q.openp.isSome * 2 ^ 23 + q.cross % 256 * 2 ^ 24

/-- The `QF_QWM` word (Table 8.8). -/
def Queue.qwm (q : Queue) : Nat := min q.peak 65535 + q.qd.wmHigh % 65536 * 65536

/-- The `QF_QINFO` word (Table 8.9). -/
def Queue.qinfo (q : Queue) : Nat :=
  q.qd.depth % 2 ^ 21 + (match q.qd.policy with | .block => 0 | .dropNew => 1 | .overwrite => 2) * 2 ^ 21
    + b2n q.qd.prot * 2 ^ 23 + b2n q.qd.openRead * 2 ^ 24 + b2n q.reading.isSome * 2 ^ 25

end Sys2Proof.Machine
end

