-- ==== Sys2Proof/Machine/Regs.lean ====
section
/-!
DEFINITION. Machine/Regs.lean: every register field of the Control Window, transcribed from the register tables of the spec
(Tables 4.9 to 19.11): its word offset, its bits, its access code (Table 0.7), whether it is marked /P, and its reset value.
A reset value that the spec gives as Reel, OTP, PST, strap, ball, RTC or no value is 0 here (assumption log 1). A register array has one
field with strides. The queue status words, `QF_RESULT` and the read-only windows are not in this table: Machine/Window.lean
computes them from the state they show. The string and tile blocks of the EST tables are views that every channel of the string or
ring shares (R260); their one home is at the offsets above 0x1_8000_0000, which no access reaches directly.
-/
namespace Sys2Proof.Machine

/-- The access codes of Table 0.7 (R13). -/
inductive Access where
  | ro | rw | wo | w1c | w1s | rc
deriving DecidableEq, Repr

/-- A register field, or an array of them: element (i, j) lies in the word at base + s1 × i + s2 × j. -/
structure Field where
  base : Nat
  lo : Nat
  width : Nat
  acc : Access
  prot : Bool
  reset : Nat
  s1 : Nat := 0
  n1 : Nat := 1
  s2 : Nat := 0
  n2 : Nat := 1
deriving DecidableEq, Repr

/-- The word offset of element (i, j). -/
def Field.addr (f : Field) (i j : Nat) : Nat := f.base + f.s1 * i + f.s2 * j

/-- Whether a word offset is that of some element of the field. -/
def Field.covers (f : Field) (off : Nat) : Bool :=
  if off < f.base then false
  else
    let d := off - f.base
    if f.n1 = 1 then (if f.n2 = 1 then d == 0 else d % f.s2 == 0 && d / f.s2 < f.n2)
    else
      let i := d / f.s1
      let r := d % f.s1
      i < f.n1 && (if f.n2 = 1 then r == 0 else r % f.s2 == 0 && r / f.s2 < f.n2)

namespace Reg


/-! ### GLB (spec/16_host_access.md, R421) -/

def GLB_ID_PART : Field := { base := 0x0, lo := 0, width := 16, acc := .ro, prot := false, reset := 0x5128 }
def GLB_ID_STEP : Field := { base := 0x0, lo := 16, width := 4, acc := .ro, prot := false, reset := 0x1 }
def GLB_ID_FORMAT : Field := { base := 0x0, lo := 20, width := 4, acc := .ro, prot := false, reset := 0x1 }
def GLB_UID_LO_UID : Field := { base := 0x4, lo := 0, width := 32, acc := .ro, prot := false, reset := 0x0 }
def GLB_UID_HI_UID : Field := { base := 0x8, lo := 0, width := 32, acc := .ro, prot := false, reset := 0x0 }
def GLB_STATUS_STATE : Field := { base := 0x10, lo := 0, width := 3, acc := .ro, prot := false, reset := 0x1 }
def GLB_STATUS_DEBUG : Field := { base := 0x10, lo := 3, width := 1, acc := .ro, prot := false, reset := 0x0 }
def GLB_STATUS_DBG_EN : Field := { base := 0x10, lo := 4, width := 1, acc := .ro, prot := false, reset := 0x0 }
def GLB_STATUS_SEALED : Field := { base := 0x10, lo := 5, width := 1, acc := .ro, prot := false, reset := 0x0 }
def GLB_STATUS_READER_PROT : Field := { base := 0x10, lo := 6, width := 1, acc := .ro, prot := false, reset := 0x0 }
def GLB_STATUS_DEV_ADDR : Field := { base := 0x10, lo := 8, width := 2, acc := .ro, prot := false, reset := 0x0 }
def GLB_STATUS_BOOT_MODE : Field := { base := 0x10, lo := 10, width := 3, acc := .ro, prot := false, reset := 0x0 }
def GLB_STATUS_GO_WAIT : Field := { base := 0x10, lo := 13, width := 1, acc := .ro, prot := false, reset := 0x0 }
def GLB_CTRL_GO : Field := { base := 0x14, lo := 0, width := 1, acc := .wo, prot := true, reset := 0x0 }
def GLB_CTRL_WRAP : Field := { base := 0x14, lo := 1, width := 1, acc := .wo, prot := true, reset := 0x0 }
def GLB_ACC_ERR_ADDR_ADDR : Field := { base := 0x20, lo := 0, width := 32, acc := .ro, prot := false, reset := 0x0 }
def GLB_ACC_ERR_INFO_STATUS : Field := { base := 0x24, lo := 0, width := 8, acc := .ro, prot := false, reset := 0x0 }
def GLB_ACC_ERR_INFO_REQ : Field := { base := 0x24, lo := 8, width := 8, acc := .ro, prot := false, reset := 0x0 }
def GLB_ACC_ERR_INFO_WRITE : Field := { base := 0x24, lo := 16, width := 1, acc := .ro, prot := false, reset := 0x0 }
def GLB_ACC_ERR_CNT_COUNT : Field := { base := 0x28, lo := 0, width := 32, acc := .rc, prot := false, reset := 0x0 }
def GLB_CWP_CTRL_IDLE : Field := { base := 0x40, lo := 0, width := 12, acc := .rw, prot := true, reset := 0x1e }
def GLB_CWP_SESS_LO_OPEN : Field := { base := 0x44, lo := 0, width := 32, acc := .ro, prot := false, reset := 0x0 }
def GLB_CWP_SESS_HI_OPEN : Field := { base := 0x48, lo := 0, width := 32, acc := .ro, prot := false, reset := 0x0 }
def GLB_CWP_CNT_AUTH_CNT : Field := { base := 0x50, lo := 0, width := 32, acc := .rc, prot := false, reset := 0x0 }
def GLB_CWP_CNT_FORMAT_CNT : Field := { base := 0x54, lo := 0, width := 32, acc := .rc, prot := false, reset := 0x0 }
def GLB_CWP_CNT_SEQ_CNT : Field := { base := 0x58, lo := 0, width := 32, acc := .rc, prot := false, reset := 0x0 }
def GLB_CWP_CNT_DROP_CNT : Field := { base := 0x5C, lo := 0, width := 32, acc := .rc, prot := false, reset := 0x0 }
def GLB_PCIE_STAT_LINK : Field := { base := 0x60, lo := 0, width := 1, acc := .ro, prot := false, reset := 0x0 }
def GLB_PCIE_STAT_SPEED : Field := { base := 0x60, lo := 1, width := 2, acc := .ro, prot := false, reset := 0x0 }
def GLB_PCIE_STAT_WIDTH : Field := { base := 0x60, lo := 3, width := 2, acc := .ro, prot := false, reset := 0x0 }
def GLB_PCIE_STAT_F0_BME : Field := { base := 0x60, lo := 5, width := 1, acc := .ro, prot := false, reset := 0x0 }
def GLB_PCIE_STAT_F1_BME : Field := { base := 0x60, lo := 6, width := 1, acc := .ro, prot := false, reset := 0x0 }
def GLB_PCIE_STAT_FLR : Field := { base := 0x60, lo := 8, width := 8, acc := .rc, prot := false, reset := 0x0 }
def GLB_KEY_CTRL_INDEX : Field := { base := 0x100, lo := 0, width := 6, acc := .wo, prot := true, reset := 0x0 }
def GLB_KEY_CTRL_OP : Field := { base := 0x100, lo := 8, width := 1, acc := .wo, prot := true, reset := 0x0 }
def GLB_KEY_CTRL_GO : Field := { base := 0x100, lo := 9, width := 1, acc := .wo, prot := true, reset := 0x0 }
def GLB_KEY_STAT_BUSY : Field := { base := 0x104, lo := 0, width := 1, acc := .ro, prot := false, reset := 0x0 }
def GLB_KEY_STAT_RESULT : Field := { base := 0x104, lo := 4, width := 4, acc := .ro, prot := false, reset := 0x0 }
def GLB_KEY_MAP_LO_ENROLLED : Field := { base := 0x108, lo := 0, width := 32, acc := .ro, prot := false, reset := 0x0 }
def GLB_KEY_MAP_HI_ENROLLED : Field := { base := 0x10C, lo := 0, width := 32, acc := .ro, prot := false, reset := 0x0 }
def GLB_KEY_DATA_KEY : Field := { base := 0x120, lo := 0, width := 32, acc := .wo, prot := true, reset := 0x0, s1 := 4, n1 := 8 }
def GLB_MSIX_MAP_QID : Field := { base := 0x200, lo := 0, width := 20, acc := .rw, prot := false, reset := 0x0, s1 := 4, n1 := 64 }
def GLB_MSIX_MAP_FUNC : Field := { base := 0x200, lo := 20, width := 1, acc := .rw, prot := false, reset := 0x0, s1 := 4, n1 := 64 }
def GLB_MSIX_MAP_COND : Field := { base := 0x200, lo := 21, width := 2, acc := .rw, prot := false, reset := 0x0, s1 := 4, n1 := 64 }
def GLB_MSIX_ARM_ARM : Field := { base := 0x300, lo := 0, width := 1, acc := .w1s, prot := false, reset := 0x1, s1 := 4, n1 := 64 }
def GLB_MSIX_ARM_FIRED : Field := { base := 0x300, lo := 1, width := 1, acc := .w1c, prot := false, reset := 0x0, s1 := 4, n1 := 64 }

/-! ### IMG (spec/04_startup_update.md, R109) -/

def IMG_STATUS_BOOT_MODE : Field := { base := 0x10000, lo := 0, width := 3, acc := .ro, prot := false, reset := 0x0 }
def IMG_STATUS_RUN_SLOT : Field := { base := 0x10000, lo := 3, width := 2, acc := .ro, prot := false, reset := 0x3 }
def IMG_STATUS_PREF_SLOT : Field := { base := 0x10000, lo := 5, width := 1, acc := .ro, prot := false, reset := 0x0 }
def IMG_STATUS_BOOT_PATH : Field := { base := 0x10000, lo := 6, width := 2, acc := .ro, prot := false, reset := 0x0 }
def IMG_STATUS_RX_OPEN : Field := { base := 0x10000, lo := 8, width := 1, acc := .ro, prot := false, reset := 0x0 }
def IMG_STATUS_SLOT_BUSY : Field := { base := 0x10000, lo := 9, width := 1, acc := .ro, prot := false, reset := 0x0 }
def IMG_STATUS_CUT : Field := { base := 0x10000, lo := 10, width := 2, acc := .ro, prot := false, reset := 0x0 }
def IMG_STATUS_ACT_BUSY : Field := { base := 0x10000, lo := 12, width := 1, acc := .ro, prot := false, reset := 0x0 }
def IMG_CTRL_COMMIT : Field := { base := 0x10004, lo := 0, width := 1, acc := .wo, prot := true, reset := 0x0 }
def IMG_CTRL_RX_ABORT : Field := { base := 0x10004, lo := 1, width := 1, acc := .wo, prot := true, reset := 0x0 }
def IMG_CTRL_CUT_DISARM : Field := { base := 0x10004, lo := 2, width := 1, acc := .wo, prot := true, reset := 0x0 }
def IMG_RESULT_STATUS : Field := { base := 0x10008, lo := 0, width := 8, acc := .ro, prot := false, reset := 0x0 }
def IMG_RESULT_OP : Field := { base := 0x10008, lo := 8, width := 8, acc := .ro, prot := false, reset := 0x0 }
def IMG_SLOT_INFO_STATE : Field := { base := 0x10010, lo := 0, width := 2, acc := .ro, prot := false, reset := 0x0, s1 := 16, n1 := 2 }
def IMG_SLOT_INFO_TRIAL : Field := { base := 0x10010, lo := 2, width := 1, acc := .ro, prot := false, reset := 0x0, s1 := 16, n1 := 2 }
def IMG_SLOT_INFO_TRIAL_LEFT : Field := { base := 0x10010, lo := 3, width := 1, acc := .ro, prot := false, reset := 0x0, s1 := 16, n1 := 2 }
def IMG_SLOT_INFO_SEC_VER : Field := { base := 0x10010, lo := 8, width := 7, acc := .ro, prot := false, reset := 0x0, s1 := 16, n1 := 2 }
def IMG_SLOT_INFO_KEY_SLOT : Field := { base := 0x10010, lo := 16, width := 8, acc := .ro, prot := false, reset := 0x0, s1 := 16, n1 := 2 }
def IMG_SLOT_ID_LO_IMAGE_ID : Field := { base := 0x10014, lo := 0, width := 32, acc := .ro, prot := false, reset := 0x0, s1 := 16, n1 := 2 }
def IMG_SLOT_ID_HI_IMAGE_ID : Field := { base := 0x10018, lo := 0, width := 32, acc := .ro, prot := false, reset := 0x0, s1 := 16, n1 := 2 }
def IMG_SLOT_CLASS_CONT_CLASS : Field := { base := 0x1001C, lo := 0, width := 32, acc := .ro, prot := false, reset := 0x0, s1 := 16, n1 := 2 }
def IMG_RX_CTRL_PUSH : Field := { base := 0x10040, lo := 0, width := 1, acc := .wo, prot := true, reset := 0x0 }
def IMG_RX_CTRL_TARGET : Field := { base := 0x10040, lo := 1, width := 2, acc := .rw, prot := true, reset := 0x0 }
def IMG_RX_CTRL_TIMEOUT : Field := { base := 0x10040, lo := 16, width := 16, acc := .rw, prot := true, reset := 0x3c }
def IMG_RX_STATUS_RECEIVED : Field := { base := 0x10044, lo := 0, width := 15, acc := .ro, prot := false, reset := 0x0 }
def IMG_RX_STATUS_LAST : Field := { base := 0x10044, lo := 16, width := 8, acc := .ro, prot := false, reset := 0x0 }
def IMG_RX_STATUS_OWN : Field := { base := 0x10044, lo := 24, width := 2, acc := .ro, prot := false, reset := 0x0 }
def IMG_RX_ID_LO_IMAGE_ID : Field := { base := 0x10048, lo := 0, width := 32, acc := .ro, prot := false, reset := 0x0 }
def IMG_RX_ID_HI_IMAGE_ID : Field := { base := 0x1004C, lo := 0, width := 32, acc := .ro, prot := false, reset := 0x0 }
def IMG_RX_COUNT_BLOCK_COUNT : Field := { base := 0x10050, lo := 0, width := 15, acc := .ro, prot := false, reset := 0x0 }
def IMG_CUT_NS_NS : Field := { base := 0x10060, lo := 0, width := 32, acc := .rw, prot := true, reset := 0x0 }
def IMG_CUT_SEC_LO_SEC : Field := { base := 0x10064, lo := 0, width := 32, acc := .rw, prot := true, reset := 0x0 }
def IMG_CUT_SEC_HI_SEC : Field := { base := 0x10068, lo := 0, width := 32, acc := .rw, prot := true, reset := 0x0 }
def IMG_CUT_CTRL_SLOT : Field := { base := 0x1006C, lo := 0, width := 1, acc := .rw, prot := true, reset := 0x0 }
def IMG_CUT_CTRL_ARM : Field := { base := 0x1006C, lo := 1, width := 1, acc := .wo, prot := true, reset := 0x0 }
def IMG_ACT_CTRL_SLOT : Field := { base := 0x10080, lo := 0, width := 1, acc := .rw, prot := true, reset := 0x0 }
def IMG_ACT_CTRL_FORCE : Field := { base := 0x10080, lo := 1, width := 1, acc := .rw, prot := true, reset := 0x0 }
def IMG_ACT_CTRL_GO : Field := { base := 0x10080, lo := 2, width := 1, acc := .wo, prot := true, reset := 0x0 }
def IMG_REFUSE_REASON : Field := { base := 0x10090, lo := 0, width := 8, acc := .ro, prot := false, reset := 0x0 }
def IMG_REFUSE_SECTION : Field := { base := 0x10090, lo := 8, width := 8, acc := .ro, prot := false, reset := 0xff }
def IMG_REFUSE_INSTANCE : Field := { base := 0x10090, lo := 16, width := 2, acc := .ro, prot := false, reset := 0x0 }
def IMG_REFUSE_REC_RECORD : Field := { base := 0x10094, lo := 0, width := 24, acc := .ro, prot := false, reset := 0xffffff }
def IMG_KEY_STATUS_PROG : Field := { base := 0x100A0, lo := 0, width := 4, acc := .ro, prot := false, reset := 0x0 }
def IMG_KEY_STATUS_REVOKED : Field := { base := 0x100A0, lo := 4, width := 4, acc := .ro, prot := false, reset := 0x0 }
def IMG_KEY_STATUS_DAMAGED : Field := { base := 0x100A0, lo := 8, width := 4, acc := .ro, prot := false, reset := 0x0 }
def IMG_KEY_STATUS_ROLLBACK : Field := { base := 0x100A0, lo := 16, width := 7, acc := .ro, prot := false, reset := 0x0 }
def IMG_KEY_CTRL_GO : Field := { base := 0x100A4, lo := 0, width := 1, acc := .wo, prot := true, reset := 0x0 }
def IMG_KEY_NONCE_LO_NONCE : Field := { base := 0x100A8, lo := 0, width := 32, acc := .ro, prot := false, reset := 0x0 }
def IMG_KEY_NONCE_HI_NONCE : Field := { base := 0x100AC, lo := 0, width := 32, acc := .ro, prot := false, reset := 0x0 }
def IMG_KEY_REQ_WORD : Field := { base := 0x10400, lo := 0, width := 32, acc := .wo, prot := true, reset := 0x0, s1 := 4, n1 := 128 }
def IMG_RX_MAP_WORD : Field := { base := 0x10800, lo := 0, width := 32, acc := .ro, prot := false, reset := 0x0, s1 := 4, n1 := 512 }
def IMG_RX_BLOCK_WORD : Field := { base := 0x18000, lo := 0, width := 32, acc := .wo, prot := true, reset := 0x0, s1 := 4, n1 := 1024 }

/-! ### TB (spec/06_timebase_slate.md, R170) -/

def TB_TIME_NS_NS : Field := { base := 0x20000, lo := 0, width := 32, acc := .rw, prot := true, reset := 0x0 }
def TB_TIME_SEC_LO_SEC : Field := { base := 0x20004, lo := 0, width := 32, acc := .rw, prot := true, reset := 0x0 }
def TB_TIME_SEC_HI_SEC : Field := { base := 0x20008, lo := 0, width := 32, acc := .rw, prot := true, reset := 0x0 }
def TB_CYCLE_CYCLE : Field := { base := 0x2000C, lo := 0, width := 32, acc := .ro, prot := false, reset := 0x0 }
def TB_STATUS_STATE : Field := { base := 0x20010, lo := 0, width := 3, acc := .ro, prot := false, reset := 0x0 }
def TB_STATUS_SRC : Field := { base := 0x20010, lo := 4, width := 3, acc := .ro, prot := false, reset := 0x0 }
def TB_STATUS_PTP_PORT : Field := { base := 0x20010, lo := 8, width := 2, acc := .ro, prot := false, reset := 0x0 }
def TB_STATUS_REF10_OK : Field := { base := 0x20010, lo := 10, width := 1, acc := .ro, prot := false, reset := 0x0 }
def TB_STATUS_REF10_USED : Field := { base := 0x20010, lo := 11, width := 1, acc := .ro, prot := false, reset := 0x0 }
def TB_STATUS_PPS_OK : Field := { base := 0x20010, lo := 12, width := 1, acc := .ro, prot := false, reset := 0x0 }
def TB_STATUS_SLEWING : Field := { base := 0x20010, lo := 13, width := 1, acc := .ro, prot := false, reset := 0x0 }
def TB_STATUS_STEP_PENDING : Field := { base := 0x20010, lo := 14, width := 1, acc := .ro, prot := false, reset := 0x0 }
def TB_STATUS_TIME_VALID : Field := { base := 0x20010, lo := 15, width := 1, acc := .ro, prot := false, reset := 0x0 }
def TB_STATUS_BOARD_MASTER : Field := { base := 0x20010, lo := 16, width := 1, acc := .ro, prot := false, reset := 0x0 }
def TB_STATUS_SYNC_OK : Field := { base := 0x20010, lo := 17, width := 1, acc := .ro, prot := false, reset := 0x0 }
def TB_STATUS_SLATE_LOCK : Field := { base := 0x20010, lo := 18, width := 1, acc := .ro, prot := false, reset := 0x0 }
def TB_CTRL_STEP_EN : Field := { base := 0x20014, lo := 0, width := 1, acc := .rw, prot := true, reset := 0x1 }
def TB_CTRL_REF10_EN : Field := { base := 0x20014, lo := 1, width := 1, acc := .rw, prot := true, reset := 0x0 }
def TB_CTRL_PPS_IN_EN : Field := { base := 0x20014, lo := 2, width := 1, acc := .rw, prot := true, reset := 0x0 }
def TB_CTRL_PPS_OUT_EN : Field := { base := 0x20014, lo := 3, width := 1, acc := .rw, prot := true, reset := 0x0 }
def TB_CTRL_PRIO : Field := { base := 0x20014, lo := 4, width := 1, acc := .rw, prot := true, reset := 0x0 }
def TB_CTRL_SLEW_MAX : Field := { base := 0x20014, lo := 8, width := 8, acc := .rw, prot := true, reset := 0x1e }
def TB_CTRL_QUALIFY : Field := { base := 0x20014, lo := 16, width := 8, acc := .rw, prot := true, reset := 0x8 }
def TB_ERR_SET_REFUSED : Field := { base := 0x20018, lo := 0, width := 1, acc := .w1c, prot := false, reset := 0x0 }
def TB_ERR_BAD_TIME : Field := { base := 0x20018, lo := 1, width := 1, acc := .w1c, prot := false, reset := 0x0 }
def TB_ERR_OUTLIER : Field := { base := 0x20018, lo := 2, width := 1, acc := .w1c, prot := false, reset := 0x0 }
def TB_ERR_PPS_LOST : Field := { base := 0x20018, lo := 3, width := 1, acc := .w1c, prot := false, reset := 0x0 }
def TB_ERR_REF10_LOST : Field := { base := 0x20018, lo := 4, width := 1, acc := .w1c, prot := false, reset := 0x0 }
def TB_ERR_SYNC_LOST : Field := { base := 0x20018, lo := 5, width := 1, acc := .w1c, prot := false, reset := 0x0 }
def TB_ERR_BOARD_ALIGN : Field := { base := 0x20018, lo := 6, width := 1, acc := .w1c, prot := false, reset := 0x0 }
def TB_OFFSET_THETA : Field := { base := 0x20020, lo := 0, width := 32, acc := .ro, prot := false, reset := 0x0 }
def TB_FREQ_FREQ : Field := { base := 0x20024, lo := 0, width := 32, acc := .ro, prot := false, reset := 0x0 }
def TB_HOLD_TIME_SECONDS : Field := { base := 0x20028, lo := 0, width := 32, acc := .ro, prot := false, reset := 0x0 }
def TB_HOLD_ERR_E : Field := { base := 0x2002C, lo := 0, width := 32, acc := .ro, prot := false, reset := 0x0 }
def TB_HOLD_CTRL_TSRC : Field := { base := 0x20030, lo := 0, width := 1, acc := .rw, prot := true, reset := 0x0 }
def TB_HOLD_CTRL_LIMIT : Field := { base := 0x20030, lo := 16, width := 16, acc := .rw, prot := true, reset := 0x1f4 }
def TB_PPS_CTRL_IN_POL : Field := { base := 0x20040, lo := 0, width := 1, acc := .rw, prot := true, reset := 0x0 }
def TB_PPS_CTRL_OUT_POL : Field := { base := 0x20040, lo := 1, width := 1, acc := .rw, prot := true, reset := 0x0 }
def TB_PPS_CTRL_TOD_VALID : Field := { base := 0x20040, lo := 2, width := 1, acc := .rw, prot := true, reset := 0x0 }
def TB_PPS_CTRL_OUT_WIDTH : Field := { base := 0x20040, lo := 8, width := 8, acc := .rw, prot := true, reset := 0x64 }
def TB_PPS_TOD_LO_SEC : Field := { base := 0x20044, lo := 0, width := 32, acc := .rw, prot := true, reset := 0x0 }
def TB_PPS_TOD_HI_SEC : Field := { base := 0x20048, lo := 0, width := 32, acc := .rw, prot := true, reset := 0x0 }
def TB_PPS_TS_NS_NS : Field := { base := 0x2004C, lo := 0, width := 32, acc := .ro, prot := false, reset := 0x0 }
def TB_PPS_TS_SEC_LO_SEC : Field := { base := 0x20050, lo := 0, width := 32, acc := .ro, prot := false, reset := 0x0 }
def TB_PPS_TS_SEC_HI_SEC : Field := { base := 0x20054, lo := 0, width := 32, acc := .ro, prot := false, reset := 0x0 }
def TB_UTC_UTC_OFFSET : Field := { base := 0x20060, lo := 0, width := 16, acc := .ro, prot := false, reset := 0x0 }
def TB_UTC_VALID : Field := { base := 0x20060, lo := 16, width := 1, acc := .ro, prot := false, reset := 0x0 }
def TB_UTC_LEAP61 : Field := { base := 0x20060, lo := 17, width := 1, acc := .ro, prot := false, reset := 0x0 }
def TB_UTC_LEAP59 : Field := { base := 0x20060, lo := 18, width := 1, acc := .ro, prot := false, reset := 0x0 }
def TB_UTC_SET_UTC_OFFSET : Field := { base := 0x20064, lo := 0, width := 16, acc := .rw, prot := true, reset := 0x0 }
def TB_UTC_SET_VALID : Field := { base := 0x20064, lo := 16, width := 1, acc := .rw, prot := true, reset := 0x0 }
def TB_UTC_SET_LEAP61 : Field := { base := 0x20064, lo := 17, width := 1, acc := .rw, prot := true, reset := 0x0 }
def TB_UTC_SET_LEAP59 : Field := { base := 0x20064, lo := 18, width := 1, acc := .rw, prot := true, reset := 0x0 }
def TB_BOARD_MASTER : Field := { base := 0x20070, lo := 0, width := 2, acc := .ro, prot := false, reset := 0x0 }
def TB_BOARD_MASTER_VALID : Field := { base := 0x20070, lo := 2, width := 1, acc := .ro, prot := false, reset := 0x0 }
def TB_BOARD_DEV : Field := { base := 0x20070, lo := 16, width := 16, acc := .ro, prot := false, reset := 0x0 }
def TB_PTP_DS_PRIORITY1 : Field := { base := 0x20080, lo := 0, width := 8, acc := .rw, prot := true, reset := 0x80 }
def TB_PTP_DS_PRIORITY2 : Field := { base := 0x20080, lo := 8, width := 8, acc := .rw, prot := true, reset := 0x80 }
def TB_PTP_DS_SLAVE_ONLY : Field := { base := 0x20080, lo := 16, width := 1, acc := .rw, prot := true, reset := 0x1 }
def TB_PTP_DS_CLASS : Field := { base := 0x20080, lo := 24, width := 8, acc := .ro, prot := false, reset := 0xf8 }
def TB_TCOMP_FREQ_FREQ : Field := { base := 0x20100, lo := 0, width := 32, acc := .ro, prot := false, reset := 0x0, s1 := 8, n1 := 32 }
def TB_TCOMP_INFO_MINUTES : Field := { base := 0x20104, lo := 0, width := 16, acc := .ro, prot := false, reset := 0x0, s1 := 8, n1 := 32 }
def TB_TCOMP_INFO_VALID : Field := { base := 0x20104, lo := 16, width := 1, acc := .ro, prot := false, reset := 0x0, s1 := 8, n1 := 32 }
def TB_PTP_STAT_PORT_STATE : Field := { base := 0x20200, lo := 0, width := 4, acc := .ro, prot := false, reset := 0x3, s1 := 64, n1 := 4 }
def TB_PTP_STAT_OPT : Field := { base := 0x20200, lo := 4, width := 4, acc := .ro, prot := false, reset := 0x0, s1 := 64, n1 := 4 }
def TB_PTP_INT_LOG_ANNOUNCE : Field := { base := 0x20204, lo := 0, width := 8, acc := .rw, prot := true, reset := 0x1, s1 := 64, n1 := 4 }
def TB_PTP_INT_LOG_SYNC : Field := { base := 0x20204, lo := 8, width := 8, acc := .rw, prot := true, reset := 0x0, s1 := 64, n1 := 4 }
def TB_PTP_INT_LOG_DELAY : Field := { base := 0x20204, lo := 16, width := 8, acc := .rw, prot := true, reset := 0x0, s1 := 64, n1 := 4 }
def TB_PTP_INT_ANN_TIMEOUT : Field := { base := 0x20204, lo := 24, width := 8, acc := .rw, prot := true, reset := 0x3, s1 := 64, n1 := 4 }
def TB_PTP_LAT_TX : Field := { base := 0x20208, lo := 0, width := 16, acc := .rw, prot := true, reset := 0x0, s1 := 64, n1 := 4 }
def TB_PTP_LAT_RX : Field := { base := 0x20208, lo := 16, width := 16, acc := .rw, prot := true, reset := 0x0, s1 := 64, n1 := 4 }
def TB_PTP_DELAY_MEAN_DELAY : Field := { base := 0x2020C, lo := 0, width := 32, acc := .ro, prot := false, reset := 0xffffffff, s1 := 64, n1 := 4 }
def TB_PTP_OFFSET_THETA : Field := { base := 0x20210, lo := 0, width := 32, acc := .ro, prot := false, reset := 0x0, s1 := 64, n1 := 4 }
def TB_PTP_CNT_EVENT_RX : Field := { base := 0x20214, lo := 0, width := 16, acc := .rc, prot := false, reset := 0x0, s1 := 64, n1 := 4 }
def TB_PTP_CNT_DISCARD : Field := { base := 0x20214, lo := 16, width := 16, acc := .rc, prot := false, reset := 0x0, s1 := 64, n1 := 4 }

/-! ### GAF (spec/18_power_thermal_wrap.md, R469) -/

def GAF_STATUS_WRAP_STATE : Field := { base := 0x30000, lo := 0, width := 3, acc := .ro, prot := false, reset := 0x0 }
def GAF_STATUS_WRAP_CAUSE : Field := { base := 0x30000, lo := 4, width := 4, acc := .ro, prot := false, reset := 0x0 }
def GAF_STATUS_THR_REQ : Field := { base := 0x30000, lo := 8, width := 1, acc := .ro, prot := false, reset := 0x0 }
def GAF_STATUS_THR_ENF : Field := { base := 0x30000, lo := 9, width := 1, acc := .ro, prot := false, reset := 0x0 }
def GAF_STATUS_SHORT : Field := { base := 0x30000, lo := 10, width := 1, acc := .ro, prot := false, reset := 0x0 }
def GAF_STATUS_PWR_GOOD : Field := { base := 0x30000, lo := 11, width := 1, acc := .ro, prot := false, reset := 0x0 }
def GAF_STATUS_SHUTDOWN_REQ : Field := { base := 0x30000, lo := 12, width := 1, acc := .ro, prot := false, reset := 0x0 }
def GAF_STATUS_ALERT : Field := { base := 0x30000, lo := 13, width := 1, acc := .ro, prot := false, reset := 0x0 }
def GAF_WRAP_CFG_ZERO_I : Field := { base := 0x30004, lo := 0, width := 8, acc := .rw, prot := true, reset := 0x14 }
def GAF_WRAP_CFG_HOLD_T : Field := { base := 0x30004, lo := 16, width := 16, acc := .rw, prot := true, reset := 0x7d0 }
def GAF_HOLDUP_HOLDUP : Field := { base := 0x30008, lo := 0, width := 16, acc := .rw, prot := true, reset := 0x0 }
def GAF_WRAP_STAT_STRINGS : Field := { base := 0x3000C, lo := 0, width := 9, acc := .ro, prot := false, reset := 0x0 }
def GAF_WRAP_STAT_DONE : Field := { base := 0x3000C, lo := 16, width := 9, acc := .ro, prot := false, reset := 0x0 }
def GAF_WRAP_TIME_ELAPSED : Field := { base := 0x30010, lo := 0, width := 16, acc := .ro, prot := false, reset := 0x0 }
def GAF_WRAP_TIME_LIMIT : Field := { base := 0x30010, lo := 16, width := 16, acc := .ro, prot := false, reset := 0x0 }
def GAF_POOL_POOL : Field := { base := 0x30020, lo := 0, width := 16, acc := .ro, prot := false, reset := 0x0 }
def GAF_POOL_FIXED : Field := { base := 0x30020, lo := 16, width := 16, acc := .ro, prot := false, reset := 0xa0 }
def GAF_BUDGET_DISC : Field := { base := 0x30024, lo := 0, width := 16, acc := .ro, prot := false, reset := 0x0 }
def GAF_BUDGET_GRANTED : Field := { base := 0x30024, lo := 16, width := 16, acc := .ro, prot := false, reset := 0x0 }
def GAF_THERM_T_WARN : Field := { base := 0x30028, lo := 0, width := 16, acc := .ro, prot := false, reset := 0x0 }
def GAF_THERM_T_WRAP : Field := { base := 0x30028, lo := 16, width := 16, acc := .ro, prot := false, reset := 0x0 }
def GAF_DIE_T0_LOGIC : Field := { base := 0x3002C, lo := 0, width := 16, acc := .ro, prot := false, reset := 0x0 }
def GAF_DIE_T0_DRAM : Field := { base := 0x3002C, lo := 16, width := 16, acc := .ro, prot := false, reset := 0x0 }
def GAF_DIE_T1_NVM : Field := { base := 0x30030, lo := 0, width := 16, acc := .ro, prot := false, reset := 0x0 }
def GAF_DIE_T1_WATCH : Field := { base := 0x30030, lo := 16, width := 16, acc := .ro, prot := false, reset := 0x0 }
def GAF_HEAT_CFG_HEAT_T0 : Field := { base := 0x30034, lo := 0, width := 16, acc := .rw, prot := true, reset := 0xfa0 }
def GAF_HEAT_CFG_HEAT_T1 : Field := { base := 0x30034, lo := 16, width := 16, acc := .rw, prot := true, reset := 0x1388 }
def GAF_COMP_AMP_HOLD : Field := { base := 0x30038, lo := 0, width := 1, acc := .ro, prot := false, reset := 0x0 }
def GAF_COMP_ADC_HOLD : Field := { base := 0x30038, lo := 1, width := 1, acc := .ro, prot := false, reset := 0x0 }
def GAF_COMP_RTC_HOLD : Field := { base := 0x30038, lo := 2, width := 1, acc := .ro, prot := false, reset := 0x0 }
def GAF_COMP_RTC_CORR : Field := { base := 0x30038, lo := 16, width := 16, acc := .ro, prot := false, reset := 0x0 }
def GAF_CLIENT_CFG_SUBSYS : Field := { base := 0x30400, lo := 0, width := 6, acc := .ro, prot := false, reset := 0x0, s1 := 16, n1 := 140 }
def GAF_CLIENT_CFG_INSTANCE : Field := { base := 0x30400, lo := 8, width := 6, acc := .ro, prot := false, reset := 0x0, s1 := 16, n1 := 140 }
def GAF_CLIENT_CFG_PRIO : Field := { base := 0x30400, lo := 16, width := 3, acc := .ro, prot := false, reset := 0x0, s1 := 16, n1 := 140 }
def GAF_CLIENT_CFG_PROT_USE : Field := { base := 0x30400, lo := 19, width := 1, acc := .ro, prot := false, reset := 0x0, s1 := 16, n1 := 140 }
def GAF_CLIENT_RATE_FULL : Field := { base := 0x30404, lo := 0, width := 16, acc := .ro, prot := false, reset := 0x0, s1 := 16, n1 := 140 }
def GAF_CLIENT_RATE_FLOOR : Field := { base := 0x30404, lo := 16, width := 16, acc := .ro, prot := false, reset := 0x0, s1 := 16, n1 := 140 }
def GAF_CLIENT_GRANT_DEMAND : Field := { base := 0x30408, lo := 0, width := 16, acc := .ro, prot := false, reset := 0x0, s1 := 16, n1 := 140 }
def GAF_CLIENT_GRANT_GRANT : Field := { base := 0x30408, lo := 16, width := 16, acc := .ro, prot := false, reset := 0x0, s1 := 16, n1 := 140 }
def GAF_CLIENT_CTRL_CAP : Field := { base := 0x3040C, lo := 0, width := 16, acc := .rw, prot := false, reset := 0xffff, s1 := 16, n1 := 140 }
def GAF_CLIENT_CTRL_RECLAIMED : Field := { base := 0x3040C, lo := 16, width := 1, acc := .ro, prot := false, reset := 0x0, s1 := 16, n1 := 140 }
def GAF_SENS_T : Field := { base := 0x31000, lo := 0, width := 16, acc := .ro, prot := false, reset := 0x0, s1 := 4, n1 := 32 }
def GAF_SENS_EXCL : Field := { base := 0x31000, lo := 16, width := 1, acc := .ro, prot := false, reset := 0x0, s1 := 4, n1 := 32 }
def GAF_SENS_WRAP_LVL : Field := { base := 0x31000, lo := 17, width := 1, acc := .ro, prot := false, reset := 0x0, s1 := 4, n1 := 32 }
def GAF_SENS_NBR_N0 : Field := { base := 0x31080, lo := 0, width := 5, acc := .ro, prot := false, reset := 0x0, s1 := 4, n1 := 32 }
def GAF_SENS_NBR_N1 : Field := { base := 0x31080, lo := 8, width := 5, acc := .ro, prot := false, reset := 0x0, s1 := 4, n1 := 32 }
def GAF_SENS_NBR_N2 : Field := { base := 0x31080, lo := 16, width := 5, acc := .ro, prot := false, reset := 0x0, s1 := 4, n1 := 32 }
def GAF_SENS_CTRL_SENSOR : Field := { base := 0x31100, lo := 0, width := 5, acc := .wo, prot := true, reset := 0x0 }
def GAF_SENS_CTRL_RESTORE : Field := { base := 0x31100, lo := 8, width := 1, acc := .wo, prot := true, reset := 0x0 }
def GAF_HEAT_POOL_POOL_W : Field := { base := 0x31200, lo := 0, width := 16, acc := .ro, prot := false, reset := 0x0, s1 := 8, n1 := 64 }
def GAF_HEAT_POOL_GRANTED : Field := { base := 0x31200, lo := 16, width := 16, acc := .ro, prot := false, reset := 0x0, s1 := 8, n1 := 64 }
def GAF_HEAT_CAP_CAP : Field := { base := 0x31204, lo := 0, width := 16, acc := .rw, prot := true, reset := 0xffff, s1 := 8, n1 := 64 }
def GAF_HEAT_CAP_T_HOT : Field := { base := 0x31204, lo := 16, width := 16, acc := .ro, prot := false, reset := 0x0, s1 := 8, n1 := 64 }

/-! ### WCH (spec/19_watch_store_tag.md, R491) -/

def WCH_STATUS_VAUX_OK : Field := { base := 0x40000, lo := 0, width := 1, acc := .ro, prot := false, reset := 0x0 }
def WCH_STATUS_VBAT_OK : Field := { base := 0x40000, lo := 1, width := 1, acc := .ro, prot := false, reset := 0x0 }
def WCH_STATUS_VBAT_LOW : Field := { base := 0x40000, lo := 2, width := 1, acc := .ro, prot := false, reset := 0x0 }
def WCH_STATUS_RTC_VALID : Field := { base := 0x40000, lo := 3, width := 1, acc := .ro, prot := false, reset := 0x0 }
def WCH_STATUS_MAIN_REQ : Field := { base := 0x40000, lo := 4, width := 1, acc := .ro, prot := false, reset := 0x0 }
def WCH_WAKE_CAUSE_PIN : Field := { base := 0x40004, lo := 0, width := 4, acc := .w1c, prot := false, reset := 0x0 }
def WCH_WAKE_CAUSE_ALARM : Field := { base := 0x40004, lo := 4, width := 1, acc := .w1c, prot := false, reset := 0x0 }
def WCH_WAKE_CAUSE_RULE : Field := { base := 0x40004, lo := 5, width := 1, acc := .w1c, prot := false, reset := 0x0 }
def WCH_WAKE_CAUSE_VAUX : Field := { base := 0x40004, lo := 6, width := 1, acc := .w1c, prot := false, reset := 0x0 }
def WCH_CTRL_RELEASE : Field := { base := 0x40008, lo := 0, width := 1, acc := .wo, prot := true, reset := 0x0 }
def WCH_CTRL_SLEEP_ON_HALT : Field := { base := 0x40008, lo := 1, width := 1, acc := .rw, prot := true, reset := 0x0 }
def WCH_WAKE_CFG_EN : Field := { base := 0x4000C, lo := 0, width := 4, acc := .rw, prot := true, reset := 0x0 }
def WCH_WAKE_CFG_POL : Field := { base := 0x4000C, lo := 4, width := 4, acc := .rw, prot := true, reset := 0x0 }
def WCH_WAKE_CFG_DEB : Field := { base := 0x4000C, lo := 8, width := 8, acc := .rw, prot := true, reset := 0xa }
def WCH_WAKE_CFG_ON_VAUX : Field := { base := 0x4000C, lo := 16, width := 1, acc := .rw, prot := true, reset := 0x0 }
def WCH_ALARM_SEC : Field := { base := 0x40010, lo := 0, width := 32, acc := .rw, prot := true, reset := 0x0 }
def WCH_ALARM_CTRL_EN : Field := { base := 0x40014, lo := 0, width := 1, acc := .rw, prot := true, reset := 0x0 }
def WCH_RTC_NS_NS : Field := { base := 0x40020, lo := 0, width := 32, acc := .ro, prot := false, reset := 0x0 }
def WCH_RTC_SEC_LO_SEC : Field := { base := 0x40024, lo := 0, width := 32, acc := .ro, prot := false, reset := 0x0 }
def WCH_RTC_SEC_HI_SEC : Field := { base := 0x40028, lo := 0, width := 32, acc := .ro, prot := false, reset := 0x0 }
def WCH_DAILY_INT_INTERVAL : Field := { base := 0x40030, lo := 0, width := 17, acc := .ro, prot := false, reset := 0x0 }
def WCH_DAILY_CNT_RUNS : Field := { base := 0x40034, lo := 0, width := 24, acc := .ro, prot := false, reset := 0x0 }
def WCH_DAILY_CNT_SKIPPED : Field := { base := 0x40034, lo := 24, width := 8, acc := .rc, prot := false, reset := 0x0 }
def WCH_TONE_TONE : Field := { base := 0x40040, lo := 0, width := 32, acc := .w1c, prot := false, reset := 0x0, s1 := 4, n1 := 4 }
def WCH_ADC_CFG_SHIFT : Field := { base := 0x40050, lo := 0, width := 3, acc := .rw, prot := true, reset := 0x2 }
def WCH_ADC_CFG_ADC_EN : Field := { base := 0x40050, lo := 8, width := 8, acc := .ro, prot := false, reset := 0x0 }
def WCH_ADC_RAW : Field := { base := 0x40060, lo := 0, width := 12, acc := .ro, prot := false, reset := 0x0, s1 := 4, n1 := 8 }
def WCH_ADC_FILT : Field := { base := 0x40060, lo := 16, width := 12, acc := .ro, prot := false, reset := 0x0, s1 := 4, n1 := 8 }
def WCH_RULE_COUNT : Field := { base := 0x40080, lo := 0, width := 8, acc := .ro, prot := false, reset := 0x0, s1 := 4, n1 := 16 }
def WCH_RULE_TRUE : Field := { base := 0x40080, lo := 8, width := 1, acc := .ro, prot := false, reset := 0x0, s1 := 4, n1 := 16 }
def WCH_RULE_FIRED : Field := { base := 0x40080, lo := 9, width := 1, acc := .w1c, prot := false, reset := 0x0, s1 := 4, n1 := 16 }
def WCH_RULE_DEFINED : Field := { base := 0x40080, lo := 15, width := 1, acc := .ro, prot := false, reset := 0x0, s1 := 4, n1 := 16 }
def WCH_RULE_ACTION : Field := { base := 0x40080, lo := 16, width := 3, acc := .ro, prot := false, reset := 0x0, s1 := 4, n1 := 16 }
def WCH_LOG_COUNT : Field := { base := 0x400C0, lo := 0, width := 7, acc := .ro, prot := false, reset := 0x0 }
def WCH_LOG_OVERFLOW : Field := { base := 0x400C0, lo := 8, width := 8, acc := .rc, prot := false, reset := 0x0 }

/-! ### PST (spec/19_watch_store_tag.md, R492) -/

def PST_STATUS_LEARN_RO : Field := { base := 0x50000, lo := 0, width := 1, acc := .ro, prot := false, reset := 0x0 }
def PST_STATUS_SCRUB : Field := { base := 0x50000, lo := 1, width := 1, acc := .ro, prot := false, reset := 0x0 }
def PST_STATUS_TAG_FIELD : Field := { base := 0x50000, lo := 2, width := 1, acc := .ro, prot := false, reset := 0x0 }
def PST_STATUS_TAG_RFW : Field := { base := 0x50000, lo := 3, width := 1, acc := .ro, prot := false, reset := 0x0 }
def PST_CNT_ECC_CNT : Field := { base := 0x50004, lo := 0, width := 32, acc := .rc, prot := false, reset := 0x0 }
def PST_CNT_LOST_CNT : Field := { base := 0x50008, lo := 0, width := 32, acc := .rc, prot := false, reset := 0x0 }
def PST_BACKLOG_RECORDS : Field := { base := 0x5000C, lo := 0, width := 16, acc := .ro, prot := false, reset := 0x0 }
def PST_BACKLOG_SNAPSHOTS : Field := { base := 0x5000C, lo := 16, width := 16, acc := .ro, prot := false, reset := 0x0 }
def PST_WEAR_CYCLES_CYCLES : Field := { base := 0x50100, lo := 0, width := 32, acc := .ro, prot := false, reset := 0x0, s1 := 16, n1 := 5 }
def PST_WEAR_PAGES_WARNED : Field := { base := 0x50104, lo := 0, width := 16, acc := .ro, prot := false, reset := 0x0, s1 := 16, n1 := 5 }
def PST_WEAR_PAGES_RETIRED : Field := { base := 0x50104, lo := 16, width := 16, acc := .ro, prot := false, reset := 0x0, s1 := 16, n1 := 5 }
def PST_WEAR_SPARES_SPARES_LEFT : Field := { base := 0x50108, lo := 0, width := 16, acc := .ro, prot := false, reset := 0x0, s1 := 16, n1 := 5 }
def PST_WEAR_DAYS_DAYS_LEFT : Field := { base := 0x5010C, lo := 0, width := 16, acc := .ro, prot := false, reset := 0xffff, s1 := 16, n1 := 5 }
def PST_BB_NEWEST_SEQ : Field := { base := 0x50200, lo := 0, width := 32, acc := .ro, prot := false, reset := 0x0 }
def PST_BB_OLDEST_SEQ : Field := { base := 0x50204, lo := 0, width := 32, acc := .ro, prot := false, reset := 0x0 }
def PST_BB_SEL_SEQ : Field := { base := 0x50208, lo := 0, width := 32, acc := .rw, prot := false, reset := 0x0 }
def PST_BB_SEL_STAT_STAT : Field := { base := 0x5020C, lo := 0, width := 2, acc := .ro, prot := false, reset := 0x0 }
def PST_BB_DROPPED_CNT : Field := { base := 0x50210, lo := 0, width := 32, acc := .rc, prot := false, reset := 0x0 }
def PST_TAG_CTRL_PAGE : Field := { base := 0x50300, lo := 0, width := 5, acc := .rw, prot := false, reset := 0x15 }
def PST_TAG_CTRL_COMMIT : Field := { base := 0x50300, lo := 8, width := 1, acc := .wo, prot := false, reset := 0x0 }
def PST_TAG_CTRL_PERIOD : Field := { base := 0x50300, lo := 16, width := 16, acc := .rw, prot := true, reset := 0x3c }
def PST_TAG_STAT_STATUS : Field := { base := 0x50304, lo := 0, width := 8, acc := .ro, prot := false, reset := 0x0 }
def PST_TAG_STAT_PENDING : Field := { base := 0x50304, lo := 8, width := 1, acc := .ro, prot := false, reset := 0x0 }
def PST_TAG_UID_LO_UID : Field := { base := 0x50308, lo := 0, width := 32, acc := .ro, prot := false, reset := 0x0 }
def PST_TAG_UID_HI_UID : Field := { base := 0x5030C, lo := 0, width := 32, acc := .ro, prot := false, reset := 0x0 }
def PST_TAG_SHADOW_WORD : Field := { base := 0x52000, lo := 0, width := 32, acc := .rw, prot := false, reset := 0x0, s1 := 4, n1 := 128 }

/-! ### SIN (spec/15_stand_in_pairs.md, R398) -/

def SIN_STATUS_ROLE : Field := { base := 0x60000, lo := 0, width := 2, acc := .ro, prot := false, reset := 0x3 }
def SIN_STATUS_CONFIG : Field := { base := 0x60000, lo := 2, width := 2, acc := .ro, prot := false, reset := 0x0 }
def SIN_STATUS_DEV_P : Field := { base := 0x60000, lo := 4, width := 1, acc := .ro, prot := false, reset := 0x0 }
def SIN_STATUS_INSTEP : Field := { base := 0x60000, lo := 5, width := 1, acc := .ro, prot := false, reset := 0x0 }
def SIN_STATUS_JOINING : Field := { base := 0x60000, lo := 6, width := 1, acc := .ro, prot := false, reset := 0x0 }
def SIN_STATUS_PARTNER_OK : Field := { base := 0x60000, lo := 7, width := 1, acc := .ro, prot := false, reset := 0x0 }
def SIN_STATUS_PARTNER_ROLE : Field := { base := 0x60000, lo := 8, width := 2, acc := .ro, prot := false, reset := 0x3 }
def SIN_STATUS_PARTNER_STATE : Field := { base := 0x60000, lo := 10, width := 3, acc := .ro, prot := false, reset := 0x0 }
def SIN_STATUS_PARTNER_DEBUG : Field := { base := 0x60000, lo := 13, width := 1, acc := .ro, prot := false, reset := 0x0 }
def SIN_STATUS_SWITCH_PEND : Field := { base := 0x60000, lo := 14, width := 1, acc := .ro, prot := false, reset := 0x0 }
def SIN_STATUS_PAIR_ERR : Field := { base := 0x60000, lo := 15, width := 1, acc := .ro, prot := false, reset := 0x0 }
def SIN_STATUS_PEER_UP : Field := { base := 0x60000, lo := 16, width := 4, acc := .ro, prot := false, reset := 0x0 }
def SIN_STATUS_ORIGINATES : Field := { base := 0x60000, lo := 20, width := 1, acc := .ro, prot := false, reset := 0x0 }
def SIN_EPOCH_EPOCH : Field := { base := 0x60004, lo := 0, width := 32, acc := .ro, prot := false, reset := 0x0 }
def SIN_EPOCH_PARTNER_EPOCH : Field := { base := 0x60008, lo := 0, width := 32, acc := .ro, prot := false, reset := 0x0 }
def SIN_EPOCH_RES_H : Field := { base := 0x6000C, lo := 0, width := 32, acc := .ro, prot := false, reset := 0x0 }
def SIN_LEASE_AGE : Field := { base := 0x60010, lo := 0, width := 16, acc := .ro, prot := false, reset := 0xffff }
def SIN_LEASE_PATH : Field := { base := 0x60010, lo := 16, width := 8, acc := .ro, prot := false, reset := 0xff }
def SIN_CTRL_SWITCH : Field := { base := 0x60014, lo := 0, width := 1, acc := .wo, prot := true, reset := 0x0 }
def SIN_CTRL_SWITCH_ABORT : Field := { base := 0x60014, lo := 1, width := 1, acc := .wo, prot := true, reset := 0x0 }
def SIN_SWITCH_STATUS : Field := { base := 0x60018, lo := 0, width := 8, acc := .ro, prot := false, reset := 0x0 }
def SIN_SWITCH_K_K : Field := { base := 0x6001C, lo := 0, width := 32, acc := .ro, prot := false, reset := 0x0 }
def SIN_COUNT_TAKEOVERS : Field := { base := 0x60020, lo := 0, width := 16, acc := .ro, prot := false, reset := 0x0 }
def SIN_COUNT_DEMOTIONS : Field := { base := 0x60020, lo := 16, width := 16, acc := .ro, prot := false, reset := 0x0 }
def SIN_AGREE_AGREE_RUN : Field := { base := 0x60030, lo := 0, width := 32, acc := .ro, prot := false, reset := 0x0 }
def SIN_CMP_PERMIT_CNT : Field := { base := 0x60034, lo := 0, width := 32, acc := .rc, prot := false, reset := 0x0 }
def SIN_CMP_CMD_CNT : Field := { base := 0x60038, lo := 0, width := 32, acc := .rc, prot := false, reset := 0x0 }
def SIN_CMP_IO_CNT : Field := { base := 0x6003C, lo := 0, width := 32, acc := .rc, prot := false, reset := 0x0 }
def SIN_CMP_LAST_LAST_K : Field := { base := 0x60040, lo := 0, width := 32, acc := .ro, prot := false, reset := 0x0 }
def SIN_MIR_MISS_CNT : Field := { base := 0x60048, lo := 0, width := 32, acc := .rc, prot := false, reset := 0x0 }
def SIN_PEER_STAT_UP : Field := { base := 0x60080, lo := 0, width := 1, acc := .ro, prot := false, reset := 0x0, s1 := 16, n1 := 4 }
def SIN_PEER_STAT_SYNC : Field := { base := 0x60080, lo := 1, width := 1, acc := .ro, prot := false, reset := 0x0, s1 := 16, n1 := 4 }
def SIN_PEER_STAT_PEER_ADDR : Field := { base := 0x60080, lo := 4, width := 2, acc := .ro, prot := false, reset := 0x0, s1 := 16, n1 := 4 }
def SIN_PEER_STAT_ADDR_VALID : Field := { base := 0x60080, lo := 6, width := 1, acc := .ro, prot := false, reset := 0x0, s1 := 16, n1 := 4 }
def SIN_PEER_CRC_CNT : Field := { base := 0x60084, lo := 0, width := 32, acc := .rc, prot := false, reset := 0x0, s1 := 16, n1 := 4 }
def SIN_PEER_FRAMES_CNT : Field := { base := 0x60088, lo := 0, width := 32, acc := .rc, prot := false, reset := 0x0, s1 := 16, n1 := 4 }
def SIN_PEER_DUP_CNT : Field := { base := 0x6008C, lo := 0, width := 32, acc := .rc, prot := false, reset := 0x0, s1 := 16, n1 := 4 }

/-! ### TRW (spec/12_protection.md, R330) -/

def TRW_STATUS_ACTIVE : Field := { base := 0x70000, lo := 0, width := 1, acc := .ro, prot := false, reset := 0x0 }
def TRW_STATUS_SF_OK : Field := { base := 0x70000, lo := 1, width := 1, acc := .ro, prot := false, reset := 0x0 }
def TRW_STATUS_T0_AUTH : Field := { base := 0x70000, lo := 2, width := 1, acc := .ro, prot := false, reset := 0x0 }
def TRW_STATUS_TEST_BUSY : Field := { base := 0x70000, lo := 3, width := 1, acc := .ro, prot := false, reset := 0x0 }
def TRW_STATUS_LATCHED : Field := { base := 0x70000, lo := 8, width := 9, acc := .ro, prot := false, reset := 0x0 }
def TRW_CTRL_RESET_GLOBAL : Field := { base := 0x70004, lo := 0, width := 1, acc := .wo, prot := true, reset := 0x0 }
def TRW_CFG0_SF_EN : Field := { base := 0x70008, lo := 0, width := 1, acc := .rw, prot := true, reset := 0x0 }
def TRW_CFG0_SF_TX_EN : Field := { base := 0x70008, lo := 1, width := 1, acc := .rw, prot := true, reset := 0x0 }
def TRW_CFG0_SF_PERIOD : Field := { base := 0x70008, lo := 2, width := 6, acc := .rw, prot := true, reset := 0xa }
def TRW_CFG0_SF_WINDOW : Field := { base := 0x70008, lo := 8, width := 8, acc := .rw, prot := true, reset := 0x1 }
def TRW_CFG0_SF_TIMEOUT : Field := { base := 0x70008, lo := 16, width := 16, acc := .rw, prot := true, reset := 0x64 }
def TRW_CFG1_WELD_I : Field := { base := 0x7000C, lo := 0, width := 8, acc := .rw, prot := true, reset := 0xa }
def TRW_CFG1_WELD_T : Field := { base := 0x7000C, lo := 8, width := 8, acc := .rw, prot := true, reset := 0x14 }
def TRW_CFG1_FB_DELAY : Field := { base := 0x7000C, lo := 16, width := 8, acc := .rw, prot := true, reset := 0x14 }
def TRW_CFG1_FB_EN : Field := { base := 0x7000C, lo := 24, width := 6, acc := .rw, prot := true, reset := 0x0 }
def TRW_CFG2_TEST_I : Field := { base := 0x70010, lo := 0, width := 8, acc := .rw, prot := true, reset := 0x14 }
def TRW_CFG2_TEST_T : Field := { base := 0x70010, lo := 8, width := 8, acc := .rw, prot := true, reset := 0x14 }
def TRW_CFG2_CLOSE_T : Field := { base := 0x70010, lo := 16, width := 8, acc := .rw, prot := true, reset := 0x32 }
def TRW_CFG2_TEST_DAYS : Field := { base := 0x70010, lo := 24, width := 8, acc := .rw, prot := true, reset := 0x5a }
def TRW_ERR_CFG_REFUSED : Field := { base := 0x70014, lo := 0, width := 1, acc := .w1c, prot := false, reset := 0x0 }
def TRW_ERR_FB : Field := { base := 0x70014, lo := 1, width := 1, acc := .w1c, prot := false, reset := 0x0 }
def TRW_ERR_SF_DIFFER : Field := { base := 0x70014, lo := 2, width := 1, acc := .w1c, prot := false, reset := 0x0 }
def TRW_ERR_SF_REFUSED : Field := { base := 0x70014, lo := 3, width := 1, acc := .w1c, prot := false, reset := 0x0 }
def TRW_ERR_P_STALE : Field := { base := 0x70014, lo := 4, width := 1, acc := .w1c, prot := false, reset := 0x0 }
def TRW_ERR_T0_READ : Field := { base := 0x70014, lo := 5, width := 1, acc := .w1c, prot := false, reset := 0x0 }
def TRW_SF_SENDER_LO_SENDER : Field := { base := 0x70018, lo := 0, width := 32, acc := .rw, prot := true, reset := 0x0 }
def TRW_SF_SENDER_HI_SENDER : Field := { base := 0x7001C, lo := 0, width := 32, acc := .rw, prot := true, reset := 0x0 }
def TRW_OUT_MASK_MASK : Field := { base := 0x70020, lo := 0, width := 10, acc := .rw, prot := true, reset := 0x0, s1 := 4, n1 := 3 }
def TRW_OUT_STAT_H_LEVEL : Field := { base := 0x70030, lo := 0, width := 3, acc := .ro, prot := false, reset := 0x0 }
def TRW_OUT_STAT_P_LEVEL : Field := { base := 0x70030, lo := 3, width := 3, acc := .ro, prot := false, reset := 0x0 }
def TRW_OUT_STAT_FB_LEVEL : Field := { base := 0x70030, lo := 8, width := 6, acc := .ro, prot := false, reset := 0x0 }
def TRW_OUT_STAT_MISMATCH : Field := { base := 0x70030, lo := 16, width := 6, acc := .ro, prot := false, reset := 0x0 }
def TRW_P_TRIP_TRIP : Field := { base := 0x70034, lo := 0, width := 3, acc := .rw, prot := true, reset := 0x7 }
def TRW_TEST_CTRL_STRING : Field := { base := 0x70040, lo := 0, width := 8, acc := .wo, prot := true, reset := 0x0 }
def TRW_TEST_CTRL_GO : Field := { base := 0x70040, lo := 8, width := 1, acc := .wo, prot := true, reset := 0x0 }
def TRW_TEST_CTRL_ABORT : Field := { base := 0x70040, lo := 9, width := 1, acc := .wo, prot := true, reset := 0x0 }
def TRW_TEST_STAT_STRING : Field := { base := 0x70044, lo := 0, width := 8, acc := .ro, prot := false, reset := 0x0 }
def TRW_TEST_STAT_STEP : Field := { base := 0x70044, lo := 8, width := 3, acc := .ro, prot := false, reset := 0x0 }
def TRW_TEST_STAT_STATUS : Field := { base := 0x70044, lo := 16, width := 8, acc := .ro, prot := false, reset := 0x0 }
def TRW_CNT_CRC_CNT : Field := { base := 0x70050, lo := 0, width := 32, acc := .rc, prot := false, reset := 0x0 }
def TRW_CNT_SF_SINGLE_CNT : Field := { base := 0x70054, lo := 0, width := 32, acc := .rc, prot := false, reset := 0x0 }
def TRW_CNT_SF_DIFFER_CNT : Field := { base := 0x70058, lo := 0, width := 32, acc := .rc, prot := false, reset := 0x0 }
def TRW_CNT_SF_REFUSED_CNT : Field := { base := 0x7005C, lo := 0, width := 32, acc := .rc, prot := false, reset := 0x0 }
def TRW_GLOBAL_ESTOP : Field := { base := 0x70060, lo := 0, width := 1, acc := .ro, prot := false, reset := 0x0 }
def TRW_GLOBAL_FIRE : Field := { base := 0x70060, lo := 1, width := 1, acc := .ro, prot := false, reset := 0x0 }
def TRW_GLOBAL_SF_TIMEOUT : Field := { base := 0x70060, lo := 2, width := 1, acc := .ro, prot := false, reset := 0x0 }
def TRW_GLOBAL_INPUTS : Field := { base := 0x70060, lo := 8, width := 8, acc := .ro, prot := false, reset := 0x0 }
def TRW_STORE_CRC_CRC : Field := { base := 0x70064, lo := 0, width := 32, acc := .ro, prot := false, reset := 0x0 }
def TRW_STR_STAT_H_GRANT : Field := { base := 0x71000, lo := 0, width := 1, acc := .ro, prot := false, reset := 0x0, s1 := 16, n1 := 256 }
def TRW_STR_STAT_P_GRANT : Field := { base := 0x71000, lo := 1, width := 1, acc := .ro, prot := false, reset := 0x0, s1 := 16, n1 := 256 }
def TRW_STR_STAT_ADMITTED : Field := { base := 0x71000, lo := 2, width := 1, acc := .ro, prot := false, reset := 0x0, s1 := 16, n1 := 256 }
def TRW_STR_STAT_LATCHED : Field := { base := 0x71000, lo := 3, width := 1, acc := .ro, prot := false, reset := 0x0, s1 := 16, n1 := 256 }
def TRW_STR_STAT_TEST : Field := { base := 0x71000, lo := 4, width := 1, acc := .ro, prot := false, reset := 0x0, s1 := 16, n1 := 256 }
def TRW_STR_STAT_WELD_PEND : Field := { base := 0x71000, lo := 5, width := 1, acc := .ro, prot := false, reset := 0x0, s1 := 16, n1 := 256 }
def TRW_STR_STAT_HEAD : Field := { base := 0x71000, lo := 8, width := 7, acc := .ro, prot := false, reset := 0x0, s1 := 16, n1 := 256 }
def TRW_STR_STAT_RING : Field := { base := 0x71000, lo := 16, width := 6, acc := .ro, prot := false, reset := 0x0, s1 := 16, n1 := 256 }
def TRW_STR_STAT_CONTACT : Field := { base := 0x71000, lo := 24, width := 4, acc := .ro, prot := false, reset := 0x0, s1 := 16, n1 := 256 }
def TRW_STR_STAT_H_HELD : Field := { base := 0x71000, lo := 28, width := 1, acc := .ro, prot := false, reset := 0x0, s1 := 16, n1 := 256 }
def TRW_STR_STAT_P_HELD : Field := { base := 0x71000, lo := 29, width := 1, acc := .ro, prot := false, reset := 0x0, s1 := 16, n1 := 256 }
def TRW_STR_CAUSE_CAUSES : Field := { base := 0x71004, lo := 0, width := 10, acc := .ro, prot := false, reset := 0x0, s1 := 16, n1 := 256 }
def TRW_STR_CAUSE_FIRST : Field := { base := 0x71004, lo := 12, width := 4, acc := .ro, prot := false, reset := 0x0, s1 := 16, n1 := 256 }
def TRW_STR_CAUSE_SLOT : Field := { base := 0x71004, lo := 16, width := 11, acc := .ro, prot := false, reset := 0x0, s1 := 16, n1 := 256 }
def TRW_STR_CAUSE_SLOT_TEMP : Field := { base := 0x71004, lo := 27, width := 1, acc := .ro, prot := false, reset := 0x0, s1 := 16, n1 := 256 }
def TRW_STR_TEST_AGE : Field := { base := 0x71008, lo := 0, width := 32, acc := .ro, prot := false, reset := 0x0, s1 := 16, n1 := 256 }
def TRW_STR_CTRL_RESET : Field := { base := 0x7100C, lo := 0, width := 1, acc := .wo, prot := true, reset := 0x0, s1 := 16, n1 := 256 }
def TRW_SET_WORD_WORD : Field := { base := 0x74000, lo := 0, width := 32, acc := .ro, prot := false, reset := 0x0, s1 := 32, n1 := 16, s2 := 4, n2 := 6 }
def TRW_SET_USED_USED : Field := { base := 0x74018, lo := 0, width := 1, acc := .ro, prot := false, reset := 0x0, s1 := 32, n1 := 16 }
def TRW_P_ENTRY_CTAG : Field := { base := 0x78000, lo := 0, width := 8, acc := .rw, prot := true, reset := 0x0, s1 := 128, n1 := 64, s2 := 4, n2 := 32 }
def TRW_P_ENTRY_P_CODE : Field := { base := 0x78000, lo := 8, width := 8, acc := .rw, prot := true, reset := 0x0, s1 := 128, n1 := 64, s2 := 4, n2 := 32 }
def TRW_P_ENTRY_P_CHK : Field := { base := 0x78000, lo := 16, width := 8, acc := .rw, prot := true, reset := 0x0, s1 := 128, n1 := 64, s2 := 4, n2 := 32 }

/-! ### DSP (spec/11_dispatch.md, R306) -/

def DSP_STATUS_RUNNING : Field := { base := 0x80000, lo := 0, width := 1, acc := .ro, prot := false, reset := 0x0 }
def DSP_STATUS_SRC : Field := { base := 0x80000, lo := 1, width := 2, acc := .ro, prot := false, reset := 0x3 }
def DSP_STATUS_FFR_ACTIVE : Field := { base := 0x80000, lo := 3, width := 1, acc := .ro, prot := false, reset := 0x0 }
def DSP_STATUS_SHORT : Field := { base := 0x80000, lo := 4, width := 1, acc := .ro, prot := false, reset := 0x0 }
def DSP_STATUS_WDOG : Field := { base := 0x80000, lo := 5, width := 1, acc := .ro, prot := false, reset := 0x0 }
def DSP_STATUS_MIRROR : Field := { base := 0x80000, lo := 6, width := 1, acc := .ro, prot := false, reset := 0x0 }
def DSP_STATUS_PENDING : Field := { base := 0x80000, lo := 8, width := 5, acc := .ro, prot := false, reset := 0x0 }
def DSP_CTRL_SRC : Field := { base := 0x80004, lo := 0, width := 2, acc := .rw, prot := true, reset := 0x0 }
def DSP_CTRL_WDOG : Field := { base := 0x80004, lo := 16, width := 16, acc := .rw, prot := true, reset := 0x0 }
def DSP_FFR_CTRL_EN : Field := { base := 0x80008, lo := 0, width := 1, acc := .rw, prot := true, reset := 0x0 }
def DSP_FFR_CTRL_F_TIMEOUT : Field := { base := 0x80008, lo := 16, width := 16, acc := .rw, prot := true, reset := 0xc8 }
def DSP_P_REQ_P_REQ : Field := { base := 0x80010, lo := 0, width := 32, acc := .ro, prot := false, reset := 0x0 }
def DSP_P_BASE_P_BASE : Field := { base := 0x80014, lo := 0, width := 32, acc := .ro, prot := false, reset := 0x0 }
def DSP_P_FFR_P_FFR : Field := { base := 0x80018, lo := 0, width := 32, acc := .ro, prot := false, reset := 0x0 }
def DSP_P_ALLOC_P_ALLOC : Field := { base := 0x8001C, lo := 0, width := 32, acc := .ro, prot := false, reset := 0x0 }
def DSP_AVAIL_DIS_AVAIL_DIS : Field := { base := 0x80020, lo := 0, width := 32, acc := .ro, prot := false, reset := 0x0 }
def DSP_AVAIL_CHG_AVAIL_CHG : Field := { base := 0x80024, lo := 0, width := 32, acc := .ro, prot := false, reset := 0x0 }
def DSP_FREQ_FREQ : Field := { base := 0x80028, lo := 0, width := 32, acc := .ro, prot := false, reset := 0x0 }
def DSP_CYCLE_CYCLE : Field := { base := 0x8002C, lo := 0, width := 32, acc := .ro, prot := false, reset := 0x0 }
def DSP_SEQ_FRAME_SEQ : Field := { base := 0x80030, lo := 0, width := 32, acc := .ro, prot := false, reset := 0x0 }
def DSP_SEQ_CAN_SEQ : Field := { base := 0x80034, lo := 0, width := 8, acc := .ro, prot := false, reset := 0x0 }
def DSP_CNT_REFUSED_CNT : Field := { base := 0x80040, lo := 0, width := 32, acc := .rc, prot := false, reset := 0x0 }
def DSP_CNT_LATE_CNT : Field := { base := 0x80044, lo := 0, width := 32, acc := .rc, prot := false, reset := 0x0 }
def DSP_CNT_HR_LATE_CNT : Field := { base := 0x80048, lo := 0, width := 32, acc := .rc, prot := false, reset := 0x0 }
def DSP_CNT_UNMIRRORED_CNT : Field := { base := 0x8004C, lo := 0, width := 32, acc := .rc, prot := false, reset := 0x0 }
def DSP_ARITH_SAT : Field := { base := 0x80050, lo := 0, width := 1, acc := .w1c, prot := false, reset := 0x0 }
def DSP_ARITH_OV : Field := { base := 0x80050, lo := 1, width := 1, acc := .w1c, prot := false, reset := 0x0 }
def DSP_ARITH_DZ : Field := { base := 0x80050, lo := 2, width := 1, acc := .w1c, prot := false, reset := 0x0 }
def DSP_ERR_REASON : Field := { base := 0x80054, lo := 0, width := 4, acc := .ro, prot := false, reset := 0x0 }
def DSP_ERR_PRODUCER : Field := { base := 0x80054, lo := 16, width := 16, acc := .ro, prot := false, reset := 0x0 }
def DSP_STR_SET_VALUE : Field := { base := 0x81000, lo := 0, width := 32, acc := .ro, prot := false, reset := 0x0, s1 := 32, n1 := 256 }
def DSP_STR_HI_HI : Field := { base := 0x81004, lo := 0, width := 32, acc := .ro, prot := false, reset := 0x0, s1 := 32, n1 := 256 }
def DSP_STR_LO_LO : Field := { base := 0x81008, lo := 0, width := 32, acc := .ro, prot := false, reset := 0x0, s1 := 32, n1 := 256 }
def DSP_STR_DER_REQUESTED : Field := { base := 0x8100C, lo := 0, width := 16, acc := .ro, prot := false, reset := 0x8000, s1 := 32, n1 := 256 }
def DSP_STR_DER_ENFORCED : Field := { base := 0x8100C, lo := 16, width := 16, acc := .ro, prot := false, reset := 0x8000, s1 := 32, n1 := 256 }
def DSP_STR_STAT_IN_DISP : Field := { base := 0x81010, lo := 0, width := 1, acc := .ro, prot := false, reset := 0x0, s1 := 32, n1 := 256 }
def DSP_STR_STAT_UNIT : Field := { base := 0x81010, lo := 1, width := 1, acc := .ro, prot := false, reset := 0x0, s1 := 32, n1 := 256 }
def DSP_STR_STAT_DIRECT : Field := { base := 0x81010, lo := 2, width := 1, acc := .ro, prot := false, reset := 0x0, s1 := 32, n1 := 256 }
def DSP_STR_STAT_HR_STALE : Field := { base := 0x81010, lo := 3, width := 1, acc := .ro, prot := false, reset := 0x0, s1 := 32, n1 := 256 }
def DSP_STR_STAT_GRACE : Field := { base := 0x81010, lo := 4, width := 1, acc := .ro, prot := false, reset := 0x0, s1 := 32, n1 := 256 }
def DSP_STR_STAT_FIXED : Field := { base := 0x81010, lo := 5, width := 1, acc := .ro, prot := false, reset := 0x0, s1 := 32, n1 := 256 }
def DSP_STR_STAT_RING : Field := { base := 0x81010, lo := 8, width := 6, acc := .ro, prot := false, reset := 0x0, s1 := 32, n1 := 256 }
def DSP_STR_STAT_GRACE_LEFT : Field := { base := 0x81010, lo := 16, width := 16, acc := .ro, prot := false, reset := 0x0, s1 := 32, n1 := 256 }
def DSP_STR_HR_TS32 : Field := { base := 0x81014, lo := 0, width := 32, acc := .ro, prot := false, reset := 0x0, s1 := 32, n1 := 256 }

/-! ### NET (spec/17_networks_fieldbus_io.md, R434) -/

def NET_PORT_STAT_LINK : Field := { base := 0x90000, lo := 0, width := 1, acc := .ro, prot := false, reset := 0x0, s1 := 256, n1 := 4 }
def NET_PORT_STAT_MODE : Field := { base := 0x90000, lo := 1, width := 3, acc := .ro, prot := false, reset := 0x0, s1 := 256, n1 := 4 }
def NET_PORT_STAT_SPEED : Field := { base := 0x90000, lo := 4, width := 2, acc := .ro, prot := false, reset := 0x0, s1 := 256, n1 := 4 }
def NET_PORT_STAT_PRP : Field := { base := 0x90000, lo := 6, width := 1, acc := .ro, prot := false, reset := 0x0, s1 := 256, n1 := 4 }
def NET_PORT_STAT_MACSEC : Field := { base := 0x90000, lo := 7, width := 1, acc := .ro, prot := false, reset := 0x0, s1 := 256, n1 := 4 }
def NET_PORT_STAT_TX_AN : Field := { base := 0x90000, lo := 8, width := 2, acc := .ro, prot := false, reset := 0x0, s1 := 256, n1 := 4 }
def NET_PORT_STAT_SA_PENDING : Field := { base := 0x90000, lo := 10, width := 1, acc := .ro, prot := false, reset := 0x0, s1 := 256, n1 := 4 }
def NET_PORT_STAT_CLOSED : Field := { base := 0x90000, lo := 11, width := 1, acc := .ro, prot := false, reset := 0x0, s1 := 256, n1 := 4 }
def NET_PORT_ERR_LINK_LOST : Field := { base := 0x90004, lo := 0, width := 1, acc := .w1c, prot := false, reset := 0x0, s1 := 256, n1 := 4 }
def NET_PORT_ERR_TOO_LONG : Field := { base := 0x90004, lo := 1, width := 1, acc := .w1c, prot := false, reset := 0x0, s1 := 256, n1 := 4 }
def NET_PORT_ERR_VLAN : Field := { base := 0x90004, lo := 2, width := 1, acc := .w1c, prot := false, reset := 0x0, s1 := 256, n1 := 4 }
def NET_PORT_ERR_ICV : Field := { base := 0x90004, lo := 3, width := 1, acc := .w1c, prot := false, reset := 0x0, s1 := 256, n1 := 4 }
def NET_PORT_ERR_REPLAY : Field := { base := 0x90004, lo := 4, width := 1, acc := .w1c, prot := false, reset := 0x0, s1 := 256, n1 := 4 }
def NET_PORT_ERR_WRONG_LAN : Field := { base := 0x90004, lo := 5, width := 1, acc := .w1c, prot := false, reset := 0x0, s1 := 256, n1 := 4 }
def NET_PORT_ERR_PRP_TABLE_FULL : Field := { base := 0x90004, lo := 6, width := 1, acc := .w1c, prot := false, reset := 0x0, s1 := 256, n1 := 4 }
def NET_PORT_ERR_TX_DISCARD : Field := { base := 0x90004, lo := 7, width := 1, acc := .w1c, prot := false, reset := 0x0, s1 := 256, n1 := 4 }
def NET_PORT_ERR_PAUSE_RX : Field := { base := 0x90004, lo := 8, width := 1, acc := .w1c, prot := false, reset := 0x0, s1 := 256, n1 := 4 }
def NET_CNT_RX_FRAMES_CNT : Field := { base := 0x90010, lo := 0, width := 32, acc := .rc, prot := false, reset := 0x0, s1 := 256, n1 := 4 }
def NET_CNT_TX_FRAMES_CNT : Field := { base := 0x90014, lo := 0, width := 32, acc := .rc, prot := false, reset := 0x0, s1 := 256, n1 := 4 }
def NET_CNT_RX_DROP_CNT : Field := { base := 0x90018, lo := 0, width := 32, acc := .rc, prot := false, reset := 0x0, s1 := 256, n1 := 4 }
def NET_CNT_MACSEC_FAIL_CNT : Field := { base := 0x9001C, lo := 0, width := 32, acc := .rc, prot := false, reset := 0x0, s1 := 256, n1 := 4 }
def NET_CNT_PRP_DUP_CNT : Field := { base := 0x90020, lo := 0, width := 32, acc := .rc, prot := false, reset := 0x0, s1 := 256, n1 := 4 }
def NET_CNT_PRP_WRONG_LAN_CNT : Field := { base := 0x90024, lo := 0, width := 32, acc := .rc, prot := false, reset := 0x0, s1 := 256, n1 := 4 }
def NET_CNT_TX_DISCARD_CNT : Field := { base := 0x90028, lo := 0, width := 32, acc := .rc, prot := false, reset := 0x0, s1 := 256, n1 := 4 }
def NET_CNT_PAUSE_RX_CNT : Field := { base := 0x9002C, lo := 0, width := 32, acc := .rc, prot := false, reset := 0x0, s1 := 256, n1 := 4 }
def NET_MACSEC_SSCI_TX_SSCI : Field := { base := 0x90030, lo := 0, width := 32, acc := .rw, prot := true, reset := 0x1, s1 := 256, n1 := 4 }
def NET_MACSEC_SSCI_PEER_SSCI : Field := { base := 0x90034, lo := 0, width := 32, acc := .rw, prot := true, reset := 0x2, s1 := 256, n1 := 4 }
def NET_CTRL_PRP_SILENT : Field := { base := 0x90800, lo := 0, width := 16, acc := .rw, prot := true, reset := 0x3e8 }
def NET_CTRL_MACSEC_OVERLAP : Field := { base := 0x90800, lo := 16, width := 16, acc := .rw, prot := true, reset := 0xa }
def NET_APP_PORT_PORT : Field := { base := 0x90804, lo := 0, width := 16, acc := .rw, prot := true, reset := 0x0 }
def NET_PAIR_STAT_PATH_LOST : Field := { base := 0x90808, lo := 0, width := 4, acc := .ro, prot := false, reset := 0x0 }
def NET_EGQ_QID : Field := { base := 0x91000, lo := 0, width := 20, acc := .rw, prot := true, reset := 0x0, s1 := 64, n1 := 32 }
def NET_EGQ_KIND : Field := { base := 0x91000, lo := 20, width := 1, acc := .rw, prot := true, reset := 0x0, s1 := 64, n1 := 32 }
def NET_EGQ_EN : Field := { base := 0x91000, lo := 31, width := 1, acc := .rw, prot := true, reset := 0x0, s1 := 64, n1 := 32 }
def NET_EGQ_DMAC_LO_DMAC : Field := { base := 0x91004, lo := 0, width := 32, acc := .rw, prot := true, reset := 0x0, s1 := 64, n1 := 32 }
def NET_EGQ_DMAC_HI_DMAC : Field := { base := 0x91008, lo := 0, width := 16, acc := .rw, prot := true, reset := 0x0, s1 := 64, n1 := 32 }
def NET_EGQ_DMAC_HI_DPORT : Field := { base := 0x91008, lo := 16, width := 16, acc := .rw, prot := true, reset := 0x0, s1 := 64, n1 := 32 }
def NET_EGQ_FLUSH_FLUSH : Field := { base := 0x9100C, lo := 0, width := 16, acc := .rw, prot := true, reset := 0x3e8, s1 := 64, n1 := 32 }
def NET_EGQ_DIP4_DIP4 : Field := { base := 0x91010, lo := 0, width := 32, acc := .rw, prot := true, reset := 0x0, s1 := 64, n1 := 32 }
def NET_EGQ_DIP6_DIP6 : Field := { base := 0x91014, lo := 0, width := 32, acc := .rw, prot := true, reset := 0x0, s1 := 64, n1 := 32, s2 := 4, n2 := 4 }
def NET_EGQ_SEQ_SEQ : Field := { base := 0x91024, lo := 0, width := 32, acc := .ro, prot := false, reset := 0x0, s1 := 64, n1 := 32 }

/-! ### FLD (spec/17_networks_fieldbus_io.md, R448) -/

def FLD_CAN_STAT_STATE : Field := { base := 0xA0000, lo := 0, width := 3, acc := .ro, prot := false, reset := 0x0, s1 := 256, n1 := 4 }
def FLD_CAN_STAT_TEC : Field := { base := 0xA0000, lo := 8, width := 8, acc := .ro, prot := false, reset := 0x0, s1 := 256, n1 := 4 }
def FLD_CAN_STAT_REC : Field := { base := 0xA0000, lo := 16, width := 8, acc := .ro, prot := false, reset := 0x0, s1 := 256, n1 := 4 }
def FLD_CAN_POS_SLOT : Field := { base := 0xA0004, lo := 0, width := 6, acc := .ro, prot := false, reset := 0x0, s1 := 256, n1 := 4 }
def FLD_CAN_POS_CYCLE : Field := { base := 0xA0004, lo := 8, width := 4, acc := .ro, prot := false, reset := 0x0, s1 := 256, n1 := 4 }
def FLD_CAN_POS_RECOVER : Field := { base := 0xA0004, lo := 16, width := 8, acc := .ro, prot := false, reset := 0x0, s1 := 256, n1 := 4 }
def FLD_CAN_BT_NOM_SP : Field := { base := 0xA0008, lo := 0, width := 7, acc := .rw, prot := true, reset := 0x50, s1 := 256, n1 := 4 }
def FLD_CAN_BT_DATA_SP : Field := { base := 0xA0008, lo := 8, width := 7, acc := .rw, prot := true, reset := 0x4b, s1 := 256, n1 := 4 }
def FLD_CAN_BT_NOM_SJW : Field := { base := 0xA0008, lo := 16, width := 6, acc := .rw, prot := true, reset := 0x8, s1 := 256, n1 := 4 }
def FLD_CAN_BT_DATA_SJW : Field := { base := 0xA0008, lo := 24, width := 6, acc := .rw, prot := true, reset := 0x2, s1 := 256, n1 := 4 }
def FLD_CAN_CNT_TX_CNT : Field := { base := 0xA0010, lo := 0, width := 32, acc := .rc, prot := false, reset := 0x0, s1 := 256, n1 := 4 }
def FLD_CAN_CNT_MISS_CNT : Field := { base := 0xA0014, lo := 0, width := 32, acc := .rc, prot := false, reset := 0x0, s1 := 256, n1 := 4 }
def FLD_CAN_CNT_ABORT_CNT : Field := { base := 0xA0018, lo := 0, width := 32, acc := .rc, prot := false, reset := 0x0, s1 := 256, n1 := 4 }
def FLD_CAN_CNT_SUPERSEDED_CNT : Field := { base := 0xA001C, lo := 0, width := 32, acc := .rc, prot := false, reset := 0x0, s1 := 256, n1 := 4 }
def FLD_CAN_CNT_RX_CNT : Field := { base := 0xA0020, lo := 0, width := 32, acc := .rc, prot := false, reset := 0x0, s1 := 256, n1 := 4 }
def FLD_CAN_CNT_RX_DROP_CNT : Field := { base := 0xA0024, lo := 0, width := 32, acc := .rc, prot := false, reset := 0x0, s1 := 256, n1 := 4 }
def FLD_CAN_CNT_BUSOFF_CNT : Field := { base := 0xA0028, lo := 0, width := 32, acc := .rc, prot := false, reset := 0x0, s1 := 256, n1 := 4 }
def FLD_CAN_CNT_TX_BAD_CNT : Field := { base := 0xA002C, lo := 0, width := 32, acc := .rc, prot := false, reset := 0x0, s1 := 256, n1 := 4 }
def FLD_QD_COUNT_COUNT : Field := { base := 0xA0800, lo := 0, width := 32, acc := .ro, prot := false, reset := 0x0, s1 := 32, n1 := 8 }
def FLD_QD_ERRCNT_CNT : Field := { base := 0xA0804, lo := 0, width := 16, acc := .rw, prot := true, reset := 0x0, s1 := 32, n1 := 8 }
def FLD_QD_INDEX_INDEX : Field := { base := 0xA0808, lo := 0, width := 32, acc := .ro, prot := false, reset := 0x0, s1 := 32, n1 := 8 }
def FLD_QD_STAT_LEVELS : Field := { base := 0xA080C, lo := 0, width := 3, acc := .ro, prot := false, reset := 0x0, s1 := 32, n1 := 8 }
def FLD_QD_STAT_SAT : Field := { base := 0xA080C, lo := 3, width := 1, acc := .w1c, prot := false, reset := 0x0, s1 := 32, n1 := 8 }
def FLD_QD_STAT_ILL_RAISED : Field := { base := 0xA080C, lo := 4, width := 1, acc := .ro, prot := false, reset := 0x0, s1 := 32, n1 := 8 }
def FLD_QD_STAT_ENABLE : Field := { base := 0xA080C, lo := 8, width := 1, acc := .ro, prot := false, reset := 0x0, s1 := 32, n1 := 8 }
def FLD_QD_CTRL_DIR : Field := { base := 0xA0810, lo := 0, width := 1, acc := .rw, prot := true, reset := 0x0, s1 := 32, n1 := 8 }
def FLD_QD_CTRL_Z_EN : Field := { base := 0xA0810, lo := 1, width := 1, acc := .rw, prot := true, reset := 0x0, s1 := 32, n1 := 8 }
def FLD_QD_SET_SET : Field := { base := 0xA0814, lo := 0, width := 28, acc := .wo, prot := true, reset := 0x0, s1 := 32, n1 := 8 }
def FLD_PWM_STAT_DRIVE : Field := { base := 0xA0A00, lo := 0, width := 1, acc := .ro, prot := false, reset := 0x0, s1 := 16, n1 := 16 }
def FLD_PWM_STAT_BOUND : Field := { base := 0xA0A00, lo := 1, width := 1, acc := .ro, prot := false, reset := 0x0, s1 := 16, n1 := 16 }
def FLD_PWM_STAT_DEFINED : Field := { base := 0xA0A00, lo := 2, width := 1, acc := .ro, prot := false, reset := 0x0, s1 := 16, n1 := 16 }
def FLD_PWM_STAT_DUTY : Field := { base := 0xA0A00, lo := 16, width := 16, acc := .ro, prot := false, reset := 0x0, s1 := 16, n1 := 16 }
def FLD_PWM_HOST_DUTY : Field := { base := 0xA0A04, lo := 0, width := 16, acc := .rw, prot := true, reset := 0x0, s1 := 16, n1 := 16 }
def FLD_PWM_PERIOD_PERIOD : Field := { base := 0xA0A08, lo := 0, width := 32, acc := .ro, prot := false, reset := 0x0, s1 := 16, n1 := 16 }
def FLD_GPIO_IN_LEVEL : Field := { base := 0xA0C00, lo := 0, width := 16, acc := .ro, prot := false, reset := 0x0 }
def FLD_GPIO_OUT_LEVEL : Field := { base := 0xA0C04, lo := 0, width := 16, acc := .rw, prot := true, reset := 0x0 }
def FLD_GPIO_DIR_OUT : Field := { base := 0xA0C08, lo := 0, width := 16, acc := .ro, prot := false, reset := 0x0 }
def FLD_SAFE_IN_LEVEL : Field := { base := 0xA0C10, lo := 0, width := 8, acc := .ro, prot := false, reset := 0x0 }
def FLD_SAFE_IN_ACTIVE : Field := { base := 0xA0C10, lo := 8, width := 8, acc := .ro, prot := false, reset := 0x0 }
def FLD_SAFE_IN_DEFINED : Field := { base := 0xA0C10, lo := 16, width := 8, acc := .ro, prot := false, reset := 0x0 }

/-! ### LNK (spec/05_nusal_links.md, R147) -/

def LNK_PORT_CTRL_ENABLE : Field := { base := 0x100000, lo := 0, width := 1, acc := .rw, prot := true, reset := 0x0, s1 := 4096, n1 := 128 }
def LNK_PORT_CTRL_WAKE : Field := { base := 0x100000, lo := 1, width := 1, acc := .wo, prot := true, reset := 0x0, s1 := 4096, n1 := 128 }
def LNK_PORT_STAT_SIGNAL : Field := { base := 0x100004, lo := 0, width := 1, acc := .ro, prot := false, reset := 0x0, s1 := 4096, n1 := 128 }
def LNK_PORT_STAT_SYNC : Field := { base := 0x100004, lo := 1, width := 1, acc := .ro, prot := false, reset := 0x0, s1 := 4096, n1 := 128 }
def LNK_PORT_STAT_CYC_OK : Field := { base := 0x100004, lo := 2, width := 1, acc := .ro, prot := false, reset := 0x0, s1 := 4096, n1 := 128 }
def LNK_PORT_STAT_TONE : Field := { base := 0x100004, lo := 3, width := 1, acc := .ro, prot := false, reset := 0x0, s1 := 4096, n1 := 128 }
def LNK_PORT_STAT_ROT : Field := { base := 0x100004, lo := 4, width := 2, acc := .ro, prot := false, reset := 0x3, s1 := 4096, n1 := 128 }
def LNK_PORT_STAT_ROLE : Field := { base := 0x100004, lo := 6, width := 2, acc := .ro, prot := false, reset := 0x0, s1 := 4096, n1 := 128 }
def LNK_PORT_ERR_LOS : Field := { base := 0x100008, lo := 0, width := 1, acc := .w1c, prot := false, reset := 0x0, s1 := 4096, n1 := 128 }
def LNK_PORT_ERR_CODE : Field := { base := 0x100008, lo := 1, width := 1, acc := .w1c, prot := false, reset := 0x0, s1 := 4096, n1 := 128 }
def LNK_PORT_ERR_CRC : Field := { base := 0x100008, lo := 2, width := 1, acc := .w1c, prot := false, reset := 0x0, s1 := 4096, n1 := 128 }
def LNK_PORT_ERR_SLOT : Field := { base := 0x100008, lo := 3, width := 1, acc := .w1c, prot := false, reset := 0x0, s1 := 4096, n1 := 128 }
def LNK_PORT_ERR_DUP_DIFFER : Field := { base := 0x100008, lo := 4, width := 1, acc := .w1c, prot := false, reset := 0x0, s1 := 4096, n1 := 128 }
def LNK_CNT_CODE_CNT : Field := { base := 0x100010, lo := 0, width := 32, acc := .rc, prot := false, reset := 0x0, s1 := 4096, n1 := 128 }
def LNK_CNT_CRC_CNT : Field := { base := 0x100014, lo := 0, width := 32, acc := .rc, prot := false, reset := 0x0, s1 := 4096, n1 := 128 }
def LNK_CNT_SLOT_CNT : Field := { base := 0x100018, lo := 0, width := 32, acc := .rc, prot := false, reset := 0x0, s1 := 4096, n1 := 128 }
def LNK_CNT_DUPMISS_CNT : Field := { base := 0x10001C, lo := 0, width := 32, acc := .rc, prot := false, reset := 0x0, s1 := 4096, n1 := 128 }
def LNK_CNT_FRAMES_CNT : Field := { base := 0x100020, lo := 0, width := 32, acc := .rc, prot := false, reset := 0x0, s1 := 4096, n1 := 128 }
def LNK_CNT_CMDREJ_CNT : Field := { base := 0x100024, lo := 0, width := 32, acc := .rc, prot := false, reset := 0x0, s1 := 8192, n1 := 64 }
def LNK_RING_STAT_STATE : Field := { base := 0x100100, lo := 0, width := 3, acc := .ro, prot := false, reset := 0x0, s1 := 8192, n1 := 64 }
def LNK_RING_STAT_BROKEN : Field := { base := 0x100100, lo := 3, width := 1, acc := .ro, prot := false, reset := 0x0, s1 := 8192, n1 := 64 }
def LNK_RING_STAT_ORIG : Field := { base := 0x100100, lo := 4, width := 1, acc := .ro, prot := false, reset := 0x0, s1 := 8192, n1 := 64 }
def LNK_RING_STAT_LONG : Field := { base := 0x100100, lo := 5, width := 1, acc := .ro, prot := false, reset := 0x0, s1 := 8192, n1 := 64 }
def LNK_RING_STAT_BREAK_LO : Field := { base := 0x100100, lo := 8, width := 7, acc := .ro, prot := false, reset := 0x0, s1 := 8192, n1 := 64 }
def LNK_RING_STAT_BREAK_HI : Field := { base := 0x100100, lo := 16, width := 7, acc := .ro, prot := false, reset := 0x0, s1 := 8192, n1 := 64 }
def LNK_RING_DP_D0 : Field := { base := 0x100104, lo := 0, width := 16, acc := .ro, prot := false, reset := 0xffff, s1 := 8192, n1 := 64 }
def LNK_RING_DP_D1 : Field := { base := 0x100104, lo := 16, width := 16, acc := .ro, prot := false, reset := 0xffff, s1 := 8192, n1 := 64 }
def LNK_RING_DS_D0 : Field := { base := 0x100108, lo := 0, width := 16, acc := .ro, prot := false, reset := 0xffff, s1 := 8192, n1 := 64 }
def LNK_RING_DS_D1 : Field := { base := 0x100108, lo := 16, width := 16, acc := .ro, prot := false, reset := 0xffff, s1 := 8192, n1 := 64 }
def LNK_RING_ENUM_MATCHED : Field := { base := 0x10010C, lo := 0, width := 7, acc := .ro, prot := false, reset := 0x0, s1 := 8192, n1 := 64 }
def LNK_RING_ENUM_MISSING : Field := { base := 0x10010C, lo := 8, width := 7, acc := .ro, prot := false, reset := 0x0, s1 := 8192, n1 := 64 }
def LNK_RING_ENUM_WRONG : Field := { base := 0x10010C, lo := 16, width := 7, acc := .ro, prot := false, reset := 0x0, s1 := 8192, n1 := 64 }
def LNK_RING_ENUM_ATTEMPTS : Field := { base := 0x10010C, lo := 24, width := 8, acc := .ro, prot := false, reset := 0x0, s1 := 8192, n1 := 64 }
def LNK_RING_CTRL_ENUM : Field := { base := 0x100110, lo := 0, width := 1, acc := .wo, prot := true, reset := 0x0, s1 := 8192, n1 := 64 }
def LNK_RING_CTRL_WAKE : Field := { base := 0x100110, lo := 1, width := 1, acc := .wo, prot := true, reset := 0x0, s1 := 8192, n1 := 64 }
def LNK_RING_CTRL_SLEEP : Field := { base := 0x100110, lo := 2, width := 1, acc := .wo, prot := true, reset := 0x0, s1 := 8192, n1 := 64 }
def LNK_RING_TAKE_TAKE : Field := { base := 0x100114, lo := 0, width := 32, acc := .ro, prot := false, reset := 0x0, s1 := 8192, n1 := 64 }
def LNK_NODE_LINK_ROT0 : Field := { base := 0x100400, lo := 0, width := 1, acc := .ro, prot := false, reset := 0x0, s1 := 8192, n1 := 64, s2 := 4, n2 := 127 }
def LNK_NODE_LINK_ROT1 : Field := { base := 0x100400, lo := 1, width := 1, acc := .ro, prot := false, reset := 0x0, s1 := 8192, n1 := 64, s2 := 4, n2 := 127 }
def LNK_NODE_LINK_UID_OK : Field := { base := 0x100400, lo := 2, width := 1, acc := .ro, prot := false, reset := 0x0, s1 := 8192, n1 := 64, s2 := 4, n2 := 127 }
def LNK_NODE_LINK_CONFLICT : Field := { base := 0x100400, lo := 3, width := 1, acc := .ro, prot := false, reset := 0x0, s1 := 8192, n1 := 64, s2 := 4, n2 := 127 }
def LNK_NODE_LINK_EST : Field := { base := 0x100400, lo := 4, width := 1, acc := .ro, prot := false, reset := 0x0, s1 := 8192, n1 := 64, s2 := 4, n2 := 127 }
def LNK_NODE_LINK_DELTA : Field := { base := 0x100400, lo := 16, width := 16, acc := .ro, prot := false, reset := 0x0, s1 := 8192, n1 := 64, s2 := 4, n2 := 127 }
def LNK_NODE_EMAX_E_MAX : Field := { base := 0x100800, lo := 0, width := 32, acc := .ro, prot := false, reset := 0x0, s1 := 8192, n1 := 64, s2 := 4, n2 := 127 }

/-! ### SWP (spec/07_cell_sweeps.md, R203) -/

def SWP_CTRL_BAL_EN : Field := { base := 0x180000, lo := 0, width := 1, acc := .rw, prot := true, reset := 0x0 }
def SWP_CTRL_XCHK_EN : Field := { base := 0x180000, lo := 1, width := 1, acc := .rw, prot := true, reset := 0x1 }
def SWP_CTRL_SLEEP_HALT : Field := { base := 0x180000, lo := 2, width := 1, acc := .rw, prot := true, reset := 0x0 }
def SWP_CTRL_OW_ITEST : Field := { base := 0x180000, lo := 4, width := 3, acc := .rw, prot := true, reset := 0x1 }
def SWP_BAL_CFG_R_BAL : Field := { base := 0x180004, lo := 0, width := 16, acc := .rw, prot := true, reset := 0x80e8 }
def SWP_BAL_CFG_BAL_DV : Field := { base := 0x180004, lo := 16, width := 16, acc := .rw, prot := true, reset := 0x64 }
def SWP_BAL_LIM_BAL_V_MIN : Field := { base := 0x180008, lo := 0, width := 16, acc := .rw, prot := true, reset := 0x0 }
def SWP_BAL_LIM_BAL_I_MAX : Field := { base := 0x180008, lo := 16, width := 16, acc := .rw, prot := true, reset := 0x32 }
def SWP_BAL_PERIOD_PERIOD : Field := { base := 0x18000C, lo := 0, width := 12, acc := .rw, prot := true, reset := 0xa }
def SWP_SLEEP_V_V_LO : Field := { base := 0x180010, lo := 0, width := 16, acc := .rw, prot := true, reset := 0x61a8 }
def SWP_SLEEP_V_V_HI : Field := { base := 0x180010, lo := 16, width := 16, acc := .rw, prot := true, reset := 0x8e94 }
def SWP_SLEEP_T_T_HI : Field := { base := 0x180014, lo := 0, width := 16, acc := .rw, prot := true, reset := 0x1770 }
def SWP_OW_CLEAR_RING : Field := { base := 0x180018, lo := 0, width := 6, acc := .wo, prot := true, reset := 0x0 }
def SWP_OW_CLEAR_ADDR : Field := { base := 0x180018, lo := 8, width := 7, acc := .wo, prot := true, reset := 0x0 }
def SWP_OW_CLEAR_MASK : Field := { base := 0x180018, lo := 16, width := 16, acc := .wo, prot := true, reset := 0x0 }
def SWP_FILT_COEF_COEF : Field := { base := 0x180100, lo := 0, width := 32, acc := .ro, prot := false, reset := 0x0, s1 := 32, n1 := 24, s2 := 4, n2 := 5 }
def SWP_FILT_S_S : Field := { base := 0x180114, lo := 0, width := 16, acc := .ro, prot := false, reset := 0x0, s1 := 32, n1 := 24 }
def SWP_CONT_GRANT_POOL_W : Field := { base := 0x180400, lo := 0, width := 16, acc := .ro, prot := false, reset := 0x0, s1 := 8, n1 := 64 }
def SWP_CONT_GRANT_CELLS : Field := { base := 0x180400, lo := 16, width := 16, acc := .ro, prot := false, reset := 0x0, s1 := 8, n1 := 64 }
def SWP_CONT_PLAN_PLAN_MW : Field := { base := 0x180404, lo := 0, width := 32, acc := .ro, prot := false, reset := 0x0, s1 := 8, n1 := 64 }
def SWP_RING_STAT_RATE : Field := { base := 0x181000, lo := 0, width := 2, acc := .ro, prot := false, reset := 0x0, s1 := 4096, n1 := 64 }
def SWP_RING_STAT_PHASE : Field := { base := 0x181000, lo := 2, width := 5, acc := .ro, prot := false, reset := 0x0, s1 := 4096, n1 := 64 }
def SWP_RING_STAT_OW_EN : Field := { base := 0x181000, lo := 7, width := 1, acc := .ro, prot := false, reset := 0x0, s1 := 4096, n1 := 64 }
def SWP_RING_STAT_BAL_ON : Field := { base := 0x181000, lo := 8, width := 1, acc := .ro, prot := false, reset := 0x0, s1 := 4096, n1 := 64 }
def SWP_RING_STAT_POLL_P : Field := { base := 0x181000, lo := 16, width := 8, acc := .ro, prot := false, reset := 0x0, s1 := 4096, n1 := 64 }
def SWP_RING_POLL_NEXT_FIRST : Field := { base := 0x181004, lo := 0, width := 7, acc := .ro, prot := false, reset := 0x1, s1 := 4096, n1 := 64 }
def SWP_RING_POLL_NEXT_COUNT : Field := { base := 0x181004, lo := 8, width := 4, acc := .ro, prot := false, reset := 0x0, s1 := 4096, n1 := 64 }
def SWP_RING_OWCNT_RUNS : Field := { base := 0x181008, lo := 0, width := 16, acc := .rc, prot := false, reset := 0x0, s1 := 4096, n1 := 64 }
def SWP_RING_OWCNT_INCONC : Field := { base := 0x181008, lo := 16, width := 16, acc := .rc, prot := false, reset := 0x0, s1 := 4096, n1 := 64 }
def SWP_RING_ARITH_SAT : Field := { base := 0x18100C, lo := 0, width := 1, acc := .w1c, prot := false, reset := 0x0, s1 := 4096, n1 := 64 }
def SWP_RING_ARITH_OV : Field := { base := 0x18100C, lo := 1, width := 1, acc := .w1c, prot := false, reset := 0x0, s1 := 4096, n1 := 64 }
def SWP_RING_ARITH_DZ : Field := { base := 0x18100C, lo := 2, width := 1, acc := .w1c, prot := false, reset := 0x0, s1 := 4096, n1 := 64 }
def SWP_RUSH_CTRL_EN_CELL : Field := { base := 0x181010, lo := 0, width := 1, acc := .rw, prot := false, reset := 0x0, s1 := 4096, n1 := 64 }
def SWP_RUSH_CTRL_EN_TEMP : Field := { base := 0x181010, lo := 1, width := 1, acc := .rw, prot := false, reset := 0x0, s1 := 4096, n1 := 64 }
def SWP_RUSH_CTRL_DECIM : Field := { base := 0x181010, lo := 8, width := 8, acc := .rw, prot := false, reset := 0x0, s1 := 4096, n1 := 64 }
def SWP_RUSH_CTRL_FIRST_ADDR : Field := { base := 0x181010, lo := 16, width := 7, acc := .rw, prot := false, reset := 0x1, s1 := 4096, n1 := 64 }
def SWP_RUSH_CTRL_LAST_ADDR : Field := { base := 0x181010, lo := 24, width := 7, acc := .rw, prot := false, reset := 0x7e, s1 := 4096, n1 := 64 }
def SWP_RING_SETTLE_LEFT : Field := { base := 0x181014, lo := 0, width := 16, acc := .ro, prot := false, reset := 0x0, s1 := 4096, n1 := 64 }
def SWP_RING_SETTLE_RESETS : Field := { base := 0x181014, lo := 16, width := 16, acc := .ro, prot := false, reset := 0x0, s1 := 4096, n1 := 64 }
def SWP_NODE_STATE_STATE : Field := { base := 0x181100, lo := 0, width := 3, acc := .ro, prot := false, reset := 0x3, s1 := 4096, n1 := 64, s2 := 16, n2 := 127 }
def SWP_NODE_STATE_MGMT : Field := { base := 0x181100, lo := 4, width := 3, acc := .ro, prot := false, reset := 0x3, s1 := 4096, n1 := 64, s2 := 16, n2 := 127 }
def SWP_NODE_STATE_DATA : Field := { base := 0x181100, lo := 8, width := 3, acc := .ro, prot := false, reset := 0x3, s1 := 4096, n1 := 64, s2 := 16, n2 := 127 }
def SWP_NODE_STATE_MISMATCH : Field := { base := 0x181100, lo := 12, width := 1, acc := .ro, prot := false, reset := 0x0, s1 := 4096, n1 := 64, s2 := 16, n2 := 127 }
def SWP_NODE_STATE_CONFLICT : Field := { base := 0x181100, lo := 13, width := 1, acc := .ro, prot := false, reset := 0x0, s1 := 4096, n1 := 64, s2 := 16, n2 := 127 }
def SWP_NODE_STATE_DIFF_POLLS : Field := { base := 0x181100, lo := 16, width := 4, acc := .ro, prot := false, reset := 0x0, s1 := 4096, n1 := 64, s2 := 16, n2 := 127 }
def SWP_NODE_OW_SUSPECT : Field := { base := 0x181104, lo := 0, width := 16, acc := .ro, prot := false, reset := 0x0, s1 := 4096, n1 := 64, s2 := 16, n2 := 127 }
def SWP_NODE_OW_CONFIRMED : Field := { base := 0x181104, lo := 16, width := 16, acc := .ro, prot := false, reset := 0x0, s1 := 4096, n1 := 64, s2 := 16, n2 := 127 }
def SWP_NODE_BAL_MASK : Field := { base := 0x181108, lo := 0, width := 16, acc := .ro, prot := false, reset := 0x0, s1 := 4096, n1 := 64, s2 := 16, n2 := 127 }
def SWP_NODE_BAL_TAKES_LEFT : Field := { base := 0x181108, lo := 16, width := 16, acc := .ro, prot := false, reset := 0x0, s1 := 4096, n1 := 64, s2 := 16, n2 := 127 }
def SWP_NODE_DIAG_TEMP_EXCL : Field := { base := 0x18110C, lo := 0, width := 8, acc := .ro, prot := false, reset := 0x0, s1 := 4096, n1 := 64, s2 := 16, n2 := 127 }
def SWP_NODE_DIAG_OW_COUNT : Field := { base := 0x18110C, lo := 8, width := 4, acc := .ro, prot := false, reset := 0x0, s1 := 4096, n1 := 64, s2 := 16, n2 := 127 }
def SWP_NODE_DIAG_FOLLOW_UP : Field := { base := 0x18110C, lo := 12, width := 1, acc := .ro, prot := false, reset := 0x0, s1 := 4096, n1 := 64, s2 := 16, n2 := 127 }

/-! ### LPE (spec/10_loop_engine.md, R285) -/

def LPE_CTX_CFG0_DIV : Field := { base := 0x200000, lo := 0, width := 8, acc := .ro, prot := false, reset := 0x0, s1 := 2048, n1 := 512 }
def LPE_CTX_CFG0_NX : Field := { base := 0x200000, lo := 8, width := 4, acc := .ro, prot := false, reset := 0x0, s1 := 2048, n1 := 512 }
def LPE_CTX_CFG0_NU : Field := { base := 0x200000, lo := 12, width := 3, acc := .ro, prot := false, reset := 0x0, s1 := 2048, n1 := 512 }
def LPE_CTX_CFG0_NY : Field := { base := 0x200000, lo := 16, width := 3, acc := .ro, prot := false, reset := 0x0, s1 := 2048, n1 := 512 }
def LPE_CTX_CFG0_NR : Field := { base := 0x200000, lo := 20, width := 3, acc := .ro, prot := false, reset := 0x0, s1 := 2048, n1 := 512 }
def LPE_CTX_CFG0_NSV : Field := { base := 0x200000, lo := 24, width := 2, acc := .ro, prot := false, reset := 0x0, s1 := 2048, n1 := 512 }
def LPE_CTX_CFG0_NGAIN : Field := { base := 0x200000, lo := 26, width := 6, acc := .ro, prot := false, reset := 0x0, s1 := 2048, n1 := 512 }
def LPE_CTX_CFG1_KIND : Field := { base := 0x200004, lo := 0, width := 2, acc := .ro, prot := false, reset := 0x0, s1 := 2048, n1 := 512 }
def LPE_CTX_CFG1_BUILT : Field := { base := 0x200004, lo := 2, width := 1, acc := .ro, prot := false, reset := 0x0, s1 := 2048, n1 := 512 }
def LPE_CTX_CFG1_HAS_STRING : Field := { base := 0x200004, lo := 3, width := 1, acc := .ro, prot := false, reset := 0x0, s1 := 2048, n1 := 512 }
def LPE_CTX_CFG1_SAT_ACT : Field := { base := 0x200004, lo := 4, width := 2, acc := .ro, prot := false, reset := 0x0, s1 := 2048, n1 := 512 }
def LPE_CTX_CFG1_STRING : Field := { base := 0x200004, lo := 8, width := 8, acc := .ro, prot := false, reset := 0x0, s1 := 2048, n1 := 512 }
def LPE_CTX_CFG2_SAT_TICKS : Field := { base := 0x200008, lo := 0, width := 16, acc := .ro, prot := false, reset := 0x0, s1 := 2048, n1 := 512 }
def LPE_CTX_CFG2_LOSS_TICKS : Field := { base := 0x200008, lo := 16, width := 16, acc := .ro, prot := false, reset := 0x0, s1 := 2048, n1 := 512 }
def LPE_CTX_STAT_STATE : Field := { base := 0x20000C, lo := 0, width := 3, acc := .ro, prot := false, reset := 0x0, s1 := 2048, n1 := 512 }
def LPE_CTX_STAT_GAIN : Field := { base := 0x20000C, lo := 8, width := 5, acc := .ro, prot := false, reset := 0x0, s1 := 2048, n1 := 512 }
def LPE_CTX_STAT_REGION : Field := { base := 0x20000C, lo := 16, width := 5, acc := .ro, prot := false, reset := 0x0, s1 := 2048, n1 := 512 }
def LPE_CTX_STAT_CAND : Field := { base := 0x20000C, lo := 24, width := 5, acc := .ro, prot := false, reset := 0x0, s1 := 2048, n1 := 512 }
def LPE_CTX_STAT_CAND_COUNT : Field := { base := 0x20000C, lo := 29, width := 2, acc := .ro, prot := false, reset := 0x0, s1 := 2048, n1 := 512 }
def LPE_CTX_FLAGS_SAT_OUT : Field := { base := 0x200010, lo := 0, width := 4, acc := .ro, prot := false, reset := 0x0, s1 := 2048, n1 := 512 }
def LPE_CTX_FLAGS_ABSENT : Field := { base := 0x200010, lo := 4, width := 4, acc := .ro, prot := false, reset := 0x0, s1 := 2048, n1 := 512 }
def LPE_CTX_FLAGS_LOST : Field := { base := 0x200010, lo := 8, width := 4, acc := .ro, prot := false, reset := 0x0, s1 := 2048, n1 := 512 }
def LPE_CTX_FLAGS_BUMP_J : Field := { base := 0x200010, lo := 16, width := 5, acc := .ro, prot := false, reset := 0x10, s1 := 2048, n1 := 512 }
def LPE_CTX_FLAGS_DERATE : Field := { base := 0x200010, lo := 24, width := 1, acc := .ro, prot := false, reset := 0x0, s1 := 2048, n1 := 512 }
def LPE_CTX_SATT_T_SAT : Field := { base := 0x200014, lo := 0, width := 16, acc := .ro, prot := false, reset := 0x0, s1 := 2048, n1 := 512 }
def LPE_CTX_SATT_T_SAT_PEAK : Field := { base := 0x200014, lo := 16, width := 16, acc := .rc, prot := false, reset := 0x0, s1 := 2048, n1 := 512 }
def LPE_CTX_CTRL_RESUME : Field := { base := 0x200018, lo := 0, width := 1, acc := .wo, prot := true, reset := 0x0, s1 := 2048, n1 := 512 }
def LPE_CTX_CTRL_FORCE_SAFE : Field := { base := 0x200018, lo := 1, width := 1, acc := .wo, prot := true, reset := 0x0, s1 := 2048, n1 := 512 }
def LPE_CTX_CTRL_RESET_X : Field := { base := 0x200018, lo := 2, width := 1, acc := .wo, prot := true, reset := 0x0, s1 := 2048, n1 := 512 }
def LPE_CTX_ARITH_SAT : Field := { base := 0x20001C, lo := 0, width := 1, acc := .w1c, prot := false, reset := 0x0, s1 := 2048, n1 := 512 }
def LPE_CTX_ARITH_OV : Field := { base := 0x20001C, lo := 1, width := 1, acc := .w1c, prot := false, reset := 0x0, s1 := 2048, n1 := 512 }
def LPE_CTX_ARITH_DZ : Field := { base := 0x20001C, lo := 2, width := 1, acc := .w1c, prot := false, reset := 0x0, s1 := 2048, n1 := 512 }
def LPE_CTX_TICK_CYCLE : Field := { base := 0x200020, lo := 0, width := 32, acc := .ro, prot := false, reset := 0x0, s1 := 2048, n1 := 512 }
def LPE_CTX_CNT_LATE : Field := { base := 0x200024, lo := 0, width := 16, acc := .rc, prot := false, reset := 0x0, s1 := 2048, n1 := 512 }
def LPE_CTX_CNT_SKIPPED : Field := { base := 0x200024, lo := 16, width := 8, acc := .rc, prot := false, reset := 0x0, s1 := 2048, n1 := 512 }
def LPE_CTX_CNT_BAD : Field := { base := 0x200024, lo := 24, width := 8, acc := .rc, prot := false, reset := 0x0, s1 := 2048, n1 := 512 }
def LPE_CTX_ERR_RESUME_REFUSED : Field := { base := 0x200028, lo := 0, width := 1, acc := .w1c, prot := false, reset := 0x0, s1 := 2048, n1 := 512 }
def LPE_X_X : Field := { base := 0x200040, lo := 0, width := 32, acc := .ro, prot := false, reset := 0x0, s1 := 2048, n1 := 512, s2 := 4, n2 := 8 }
def LPE_Y_Y : Field := { base := 0x200060, lo := 0, width := 32, acc := .ro, prot := false, reset := 0x0, s1 := 2048, n1 := 512, s2 := 4, n2 := 4 }
def LPE_R_R : Field := { base := 0x200070, lo := 0, width := 32, acc := .ro, prot := false, reset := 0x0, s1 := 2048, n1 := 512, s2 := 4, n2 := 4 }
def LPE_U_U : Field := { base := 0x200080, lo := 0, width := 32, acc := .ro, prot := false, reset := 0x0, s1 := 2048, n1 := 512, s2 := 4, n2 := 4 }
def LPE_U_RAW_U_RAW : Field := { base := 0x200090, lo := 0, width := 32, acc := .ro, prot := false, reset := 0x0, s1 := 2048, n1 := 512, s2 := 4, n2 := 4 }
def LPE_D0_D0 : Field := { base := 0x2000A0, lo := 0, width := 32, acc := .ro, prot := false, reset := 0x0, s1 := 2048, n1 := 512, s2 := 4, n2 := 4 }
def LPE_SV_SV : Field := { base := 0x2000B0, lo := 0, width := 32, acc := .ro, prot := false, reset := 0x0, s1 := 2048, n1 := 512, s2 := 4, n2 := 3 }
def LPE_AGE_AGE : Field := { base := 0x2000C0, lo := 0, width := 16, acc := .ro, prot := false, reset := 0x0, s1 := 2048, n1 := 512, s2 := 4, n2 := 4 }
def LPE_A_A : Field := { base := 0x200200, lo := 0, width := 32, acc := .ro, prot := false, reset := 0x0, s1 := 2048, n1 := 512, s2 := 4, n2 := 64 }
def LPE_B_B : Field := { base := 0x200300, lo := 0, width := 32, acc := .ro, prot := false, reset := 0x0, s1 := 2048, n1 := 512, s2 := 4, n2 := 32 }
def LPE_L_L : Field := { base := 0x200380, lo := 0, width := 32, acc := .ro, prot := false, reset := 0x0, s1 := 2048, n1 := 512, s2 := 4, n2 := 32 }
def LPE_K_K : Field := { base := 0x200400, lo := 0, width := 32, acc := .ro, prot := false, reset := 0x0, s1 := 2048, n1 := 512, s2 := 4, n2 := 32 }
def LPE_KR_KR : Field := { base := 0x200480, lo := 0, width := 32, acc := .ro, prot := false, reset := 0x0, s1 := 2048, n1 := 512, s2 := 4, n2 := 16 }
def LPE_U_MIN_V : Field := { base := 0x200500, lo := 0, width := 32, acc := .ro, prot := false, reset := 0x0, s1 := 2048, n1 := 512, s2 := 4, n2 := 4 }
def LPE_U_MAX_V : Field := { base := 0x200510, lo := 0, width := 32, acc := .ro, prot := false, reset := 0x0, s1 := 2048, n1 := 512, s2 := 4, n2 := 4 }
def LPE_U_RATE_V : Field := { base := 0x200520, lo := 0, width := 32, acc := .ro, prot := false, reset := 0x0, s1 := 2048, n1 := 512, s2 := 4, n2 := 4 }
def LPE_U_SAFE_V : Field := { base := 0x200530, lo := 0, width := 32, acc := .ro, prot := false, reset := 0x0, s1 := 2048, n1 := 512, s2 := 4, n2 := 4 }
def LPE_SCALE_V : Field := { base := 0x200540, lo := 0, width := 32, acc := .ro, prot := false, reset := 0x0, s1 := 2048, n1 := 512, s2 := 4, n2 := 12 }
def LPE_EDGE_V : Field := { base := 0x200580, lo := 0, width := 32, acc := .ro, prot := false, reset := 0x0, s1 := 2048, n1 := 512, s2 := 4, n2 := 7 }
def LPE_MAP_V : Field := { base := 0x2005A0, lo := 0, width := 32, acc := .ro, prot := false, reset := 0x0, s1 := 2048, n1 := 512, s2 := 4, n2 := 8 }
def LPE_MEAS_QID_QID : Field := { base := 0x2005C0, lo := 0, width := 20, acc := .ro, prot := false, reset := 0x0, s1 := 2048, n1 := 512, s2 := 4, n2 := 4 }
def LPE_REF_QID_QID : Field := { base := 0x2005D0, lo := 0, width := 20, acc := .ro, prot := false, reset := 0x0, s1 := 2048, n1 := 512, s2 := 4, n2 := 4 }
def LPE_OUT_OUT : Field := { base := 0x2005E0, lo := 0, width := 32, acc := .ro, prot := false, reset := 0x0, s1 := 2048, n1 := 512, s2 := 4, n2 := 4 }
def LPE_SV_QID_QID : Field := { base := 0x2005F0, lo := 0, width := 20, acc := .ro, prot := false, reset := 0x0, s1 := 2048, n1 := 512, s2 := 4, n2 := 3 }

/-! ### TRD (spec/13_triad_complex.md, R350) -/

def TRD_STATUS_MODE : Field := { base := 0x400000, lo := 0, width := 2, acc := .ro, prot := false, reset := 0x0, s1 := 1048576, n1 := 4 }
def TRD_STATUS_VOTE : Field := { base := 0x400000, lo := 2, width := 2, acc := .ro, prot := false, reset := 0x0, s1 := 1048576, n1 := 4 }
def TRD_STATUS_AUTH : Field := { base := 0x400000, lo := 4, width := 1, acc := .ro, prot := false, reset := 0x0, s1 := 1048576, n1 := 4 }
def TRD_STATUS_HALTED : Field := { base := 0x400000, lo := 5, width := 1, acc := .ro, prot := false, reset := 0x0, s1 := 1048576, n1 := 4 }
def TRD_STATUS_READMIT_PEND : Field := { base := 0x400000, lo := 6, width := 1, acc := .ro, prot := false, reset := 0x0, s1 := 1048576, n1 := 4 }
def TRD_STATUS_TAINT : Field := { base := 0x400000, lo := 7, width := 1, acc := .ro, prot := false, reset := 0x0, s1 := 1048576, n1 := 4 }
def TRD_STATUS_REALM : Field := { base := 0x400000, lo := 8, width := 1, acc := .ro, prot := false, reset := 0x0, s1 := 1048576, n1 := 4 }
def TRD_STATUS_LOCK : Field := { base := 0x400000, lo := 9, width := 1, acc := .ro, prot := false, reset := 0x0, s1 := 1048576, n1 := 4 }
def TRD_READMIT_LANE : Field := { base := 0x400004, lo := 0, width := 2, acc := .wo, prot := true, reset := 0x0, s1 := 1048576, n1 := 4 }
def TRD_READMIT_GO : Field := { base := 0x400004, lo := 2, width := 1, acc := .wo, prot := true, reset := 0x0, s1 := 1048576, n1 := 4 }
def TRD_READMIT_CANCEL : Field := { base := 0x400004, lo := 3, width := 1, acc := .wo, prot := true, reset := 0x0, s1 := 1048576, n1 := 4 }
def TRD_READMIT_STATUS : Field := { base := 0x400004, lo := 8, width := 8, acc := .ro, prot := false, reset := 0x0, s1 := 1048576, n1 := 4 }
def TRD_RESTART_LANES : Field := { base := 0x400008, lo := 0, width := 3, acc := .wo, prot := true, reset := 0x0, s1 := 1048576, n1 := 4 }
def TRD_RESTART_GO : Field := { base := 0x400008, lo := 3, width := 1, acc := .wo, prot := true, reset := 0x0, s1 := 1048576, n1 := 4 }
def TRD_RESTART_STATUS : Field := { base := 0x400008, lo := 8, width := 8, acc := .ro, prot := false, reset := 0x0, s1 := 1048576, n1 := 4 }
def TRD_WDOG_PERIOD : Field := { base := 0x40000C, lo := 0, width := 16, acc := .rw, prot := true, reset := 0x0, s1 := 1048576, n1 := 4 }
def TRD_WDOG_KICK_KEY : Field := { base := 0x400010, lo := 0, width := 32, acc := .wo, prot := false, reset := 0x0, s1 := 1048576, n1 := 4 }
def TRD_LANE_STAT_STATE : Field := { base := 0x400020, lo := 0, width := 3, acc := .ro, prot := false, reset := 0x0, s1 := 1048576, n1 := 4, s2 := 4, n2 := 3 }
def TRD_LANE_STAT_CAUSE : Field := { base := 0x400020, lo := 4, width := 3, acc := .ro, prot := false, reset := 0x0, s1 := 1048576, n1 := 4, s2 := 4, n2 := 3 }
def TRD_LANE_STAT_EXCL : Field := { base := 0x400020, lo := 8, width := 8, acc := .ro, prot := false, reset := 0x0, s1 := 1048576, n1 := 4, s2 := 4, n2 := 3 }
def TRD_LANE_STAT_ECC_CORR : Field := { base := 0x400020, lo := 16, width := 16, acc := .rc, prot := false, reset := 0x0, s1 := 1048576, n1 := 4, s2 := 4, n2 := 3 }
def TRD_MIS_PC_PC : Field := { base := 0x400030, lo := 0, width := 32, acc := .ro, prot := false, reset := 0x0, s1 := 1048576, n1 := 4 }
def TRD_MIS_INFO_LANES : Field := { base := 0x400034, lo := 0, width := 3, acc := .ro, prot := false, reset := 0x0, s1 := 1048576, n1 := 4 }
def TRD_MIS_INFO_KIND : Field := { base := 0x400034, lo := 4, width := 4, acc := .ro, prot := false, reset := 0x0, s1 := 1048576, n1 := 4 }
def TRD_MIS_INFO_REG : Field := { base := 0x400034, lo := 8, width := 5, acc := .ro, prot := false, reset := 0x0, s1 := 1048576, n1 := 4 }
def TRD_MIS_INFO_SPECIAL : Field := { base := 0x400034, lo := 13, width := 1, acc := .ro, prot := false, reset := 0x0, s1 := 1048576, n1 := 4 }
def TRD_MIS_TS_TS32 : Field := { base := 0x400038, lo := 0, width := 32, acc := .ro, prot := false, reset := 0x0, s1 := 1048576, n1 := 4 }
def TRD_PC_PC : Field := { base := 0x400040, lo := 0, width := 32, acc := .ro, prot := false, reset := 0x0, s1 := 1048576, n1 := 4, s2 := 4, n2 := 3 }
def TRD_ERR_WDOG : Field := { base := 0x400050, lo := 0, width := 1, acc := .w1c, prot := false, reset := 0x0, s1 := 1048576, n1 := 4 }
def TRD_ERR_PROG_HALT : Field := { base := 0x400050, lo := 1, width := 1, acc := .w1c, prot := false, reset := 0x0, s1 := 1048576, n1 := 4 }
def TRD_ERR_LOCK_REVOKED : Field := { base := 0x400050, lo := 2, width := 1, acc := .w1c, prot := false, reset := 0x0, s1 := 1048576, n1 := 4 }
def TRD_ERR_BUS_FAULT : Field := { base := 0x400050, lo := 3, width := 1, acc := .w1c, prot := false, reset := 0x0, s1 := 1048576, n1 := 4 }
def TRD_ERR_DEBUG_REFUSED : Field := { base := 0x400050, lo := 4, width := 1, acc := .w1c, prot := false, reset := 0x0, s1 := 1048576, n1 := 4 }

/-! ### QF (spec/08_queue_fabric.md, R230) -/

def QF_LOCK_TIMEOUT_TIMEOUT : Field := { base := 0x1C00000, lo := 0, width := 10, acc := .rw, prot := true, reset := 0x0 }
def QF_STALL_WARN_WARN : Field := { base := 0x1C00004, lo := 0, width := 16, acc := .rw, prot := true, reset := 0x3e8 }
def QF_CMD_QID : Field := { base := 0x1C00008, lo := 0, width := 20, acc := .wo, prot := false, reset := 0x0 }
def QF_CMD_OP : Field := { base := 0x1C00008, lo := 20, width := 4, acc := .wo, prot := false, reset := 0x0 }
def QF_ERR_ECC_CORR : Field := { base := 0x1C00010, lo := 0, width := 1, acc := .w1c, prot := false, reset := 0x0 }
def QF_ERR_ECC_UNCORR : Field := { base := 0x1C00010, lo := 1, width := 1, acc := .w1c, prot := false, reset := 0x0 }
def QF_ERR_META : Field := { base := 0x1C00010, lo := 2, width := 1, acc := .w1c, prot := false, reset := 0x0 }
def QF_ERR_RECLAIM : Field := { base := 0x1C00010, lo := 3, width := 1, acc := .w1c, prot := false, reset := 0x0 }
def QF_ERR_REFUSED : Field := { base := 0x1C00010, lo := 4, width := 1, acc := .w1c, prot := false, reset := 0x0 }
def QF_ERR_STALL : Field := { base := 0x1C00010, lo := 5, width := 1, acc := .w1c, prot := false, reset := 0x0 }
def QF_NEAR_USED_ITEMS : Field := { base := 0x1C00014, lo := 0, width := 22, acc := .ro, prot := false, reset := 0x0 }
def QF_FAR_USED_UNITS : Field := { base := 0x1C00018, lo := 0, width := 23, acc := .ro, prot := false, reset := 0x0 }
def QF_CNT_DROP_CNT : Field := { base := 0x1C00020, lo := 0, width := 32, acc := .rc, prot := false, reset := 0x0 }
def QF_CNT_OVERWRITE_CNT : Field := { base := 0x1C00024, lo := 0, width := 32, acc := .rc, prot := false, reset := 0x0 }
def QF_CNT_CUT_CNT : Field := { base := 0x1C00028, lo := 0, width := 32, acc := .rc, prot := false, reset := 0x0 }
def QF_CNT_RECLAIM_CNT : Field := { base := 0x1C0002C, lo := 0, width := 32, acc := .rc, prot := false, reset := 0x0 }
def QF_CNT_ECC_CORR_CNT : Field := { base := 0x1C00030, lo := 0, width := 32, acc := .rc, prot := false, reset := 0x0 }
def QF_CNT_REFUSED_CNT : Field := { base := 0x1C00034, lo := 0, width := 32, acc := .rc, prot := false, reset := 0x0 }

/-! ### EST (spec/09_state_estimation.md, R260) -/

def EST_CH_STAT_USED : Field := { base := 0x10000000, lo := 0, width := 1, acc := .ro, prot := false, reset := 0x0, s1 := 1024, n1 := 131072 }
def EST_CH_STAT_ANCHORED : Field := { base := 0x10000000, lo := 1, width := 1, acc := .ro, prot := false, reset := 0x0, s1 := 1024, n1 := 131072 }
def EST_CH_STAT_CHAIN : Field := { base := 0x10000000, lo := 2, width := 1, acc := .ro, prot := false, reset := 0x0, s1 := 1024, n1 := 131072 }
def EST_CH_STAT_LAST_EMPTY : Field := { base := 0x10000000, lo := 3, width := 1, acc := .ro, prot := false, reset := 0x0, s1 := 1024, n1 := 131072 }
def EST_CH_STAT_EOC : Field := { base := 0x10000000, lo := 4, width := 1, acc := .ro, prot := false, reset := 0x0, s1 := 1024, n1 := 131072 }
def EST_CH_STAT_FULL : Field := { base := 0x10000000, lo := 5, width := 1, acc := .ro, prot := false, reset := 0x0, s1 := 1024, n1 := 131072 }
def EST_CH_STAT_EOD : Field := { base := 0x10000000, lo := 6, width := 1, acc := .ro, prot := false, reset := 0x0, s1 := 1024, n1 := 131072 }
def EST_CH_STAT_EMPTY : Field := { base := 0x10000000, lo := 7, width := 1, acc := .ro, prot := false, reset := 0x0, s1 := 1024, n1 := 131072 }
def EST_CH_STAT_HOLD : Field := { base := 0x10000000, lo := 8, width := 1, acc := .ro, prot := false, reset := 0x0, s1 := 1024, n1 := 131072 }
def EST_CH_STAT_OBSERVING : Field := { base := 0x10000000, lo := 9, width := 1, acc := .ro, prot := false, reset := 0x0, s1 := 1024, n1 := 131072 }
def EST_CH_STAT_RESTORED : Field := { base := 0x10000000, lo := 10, width := 1, acc := .ro, prot := false, reset := 0x0, s1 := 1024, n1 := 131072 }
def EST_CH_STAT_FROZEN : Field := { base := 0x10000000, lo := 11, width := 1, acc := .ro, prot := false, reset := 0x0, s1 := 1024, n1 := 131072 }
def EST_CH_STAT_OUTLIER : Field := { base := 0x10000000, lo := 12, width := 1, acc := .ro, prot := false, reset := 0x0, s1 := 1024, n1 := 131072 }
def EST_CH_STAT_FULL_RUN : Field := { base := 0x10000000, lo := 16, width := 4, acc := .ro, prot := false, reset := 0x0, s1 := 1024, n1 := 131072 }
def EST_CH_STAT_EMPTY_RUN : Field := { base := 0x10000000, lo := 20, width := 4, acc := .ro, prot := false, reset := 0x0, s1 := 1024, n1 := 131072 }
def EST_CH_STAT_SET : Field := { base := 0x10000000, lo := 24, width := 8, acc := .ro, prot := false, reset := 0x0, s1 := 1024, n1 := 131072 }
def EST_CH_SOC_SOC : Field := { base := 0x10000004, lo := 0, width := 16, acc := .ro, prot := false, reset := 0x0, s1 := 1024, n1 := 131072 }
def EST_CH_SOC_TARGET : Field := { base := 0x10000004, lo := 16, width := 16, acc := .ro, prot := false, reset := 0x0, s1 := 1024, n1 := 131072 }
def EST_CH_REP_REP : Field := { base := 0x10000008, lo := 0, width := 32, acc := .ro, prot := false, reset := 0x0, s1 := 1024, n1 := 131072 }
def EST_CH_V_V_F : Field := { base := 0x1000000C, lo := 0, width := 16, acc := .ro, prot := false, reset := 0x0, s1 := 1024, n1 := 131072 }
def EST_CH_V_V_C : Field := { base := 0x1000000C, lo := 16, width := 16, acc := .ro, prot := false, reset := 0x0, s1 := 1024, n1 := 131072 }
def EST_CH_I_I_F : Field := { base := 0x10000010, lo := 0, width := 24, acc := .ro, prot := false, reset := 0x0, s1 := 1024, n1 := 131072 }
def EST_CH_LIM_CHG_I_CHG : Field := { base := 0x10000014, lo := 0, width := 24, acc := .ro, prot := false, reset := 0x0, s1 := 1024, n1 := 131072 }
def EST_CH_LIM_DIS_I_DIS : Field := { base := 0x10000018, lo := 0, width := 24, acc := .ro, prot := false, reset := 0x0, s1 := 1024, n1 := 131072 }
def EST_CH_FACT_F_C : Field := { base := 0x1000001C, lo := 0, width := 16, acc := .ro, prot := false, reset := 0x0, s1 := 1024, n1 := 131072 }
def EST_CH_FACT_F_D : Field := { base := 0x1000001C, lo := 16, width := 16, acc := .ro, prot := false, reset := 0x0, s1 := 1024, n1 := 131072 }
def EST_CH_Q_LO_Q : Field := { base := 0x10000020, lo := 0, width := 32, acc := .ro, prot := false, reset := 0x0, s1 := 1024, n1 := 131072 }
def EST_CH_Q_HI_Q : Field := { base := 0x10000024, lo := 0, width := 16, acc := .ro, prot := false, reset := 0x0, s1 := 1024, n1 := 131072 }
def EST_CH_QUSE_LO_Q_USE : Field := { base := 0x10000028, lo := 0, width := 32, acc := .ro, prot := false, reset := 0x0, s1 := 1024, n1 := 131072 }
def EST_CH_QUSE_HI_Q_USE : Field := { base := 0x1000002C, lo := 0, width := 16, acc := .ro, prot := false, reset := 0x0, s1 := 1024, n1 := 131072 }
def EST_CH_QBAL_LO_Q_BAL : Field := { base := 0x10000030, lo := 0, width := 32, acc := .ro, prot := false, reset := 0x0, s1 := 1024, n1 := 131072 }
def EST_CH_QBAL_HI_Q_BAL : Field := { base := 0x10000034, lo := 0, width := 16, acc := .ro, prot := false, reset := 0x0, s1 := 1024, n1 := 131072 }
def EST_CH_EFC_EFC : Field := { base := 0x10000038, lo := 0, width := 32, acc := .ro, prot := false, reset := 0x0, s1 := 1024, n1 := 131072 }
def EST_CH_ANCHOR_FULLS : Field := { base := 0x1000003C, lo := 0, width := 16, acc := .ro, prot := false, reset := 0x0, s1 := 1024, n1 := 131072 }
def EST_CH_ANCHOR_EMPTIES : Field := { base := 0x1000003C, lo := 16, width := 16, acc := .ro, prot := false, reset := 0x0, s1 := 1024, n1 := 131072 }
def EST_CH_ANCHOR_TAKE_TAKE : Field := { base := 0x10000040, lo := 0, width := 32, acc := .ro, prot := false, reset := 0x0, s1 := 1024, n1 := 131072 }
def EST_CH_TEMP_T : Field := { base := 0x10000044, lo := 0, width := 16, acc := .ro, prot := false, reset := 0x0, s1 := 1024, n1 := 131072 }
def EST_CH_TEMP_INPUT : Field := { base := 0x10000044, lo := 16, width := 3, acc := .ro, prot := false, reset := 0x0, s1 := 1024, n1 := 131072 }
def EST_CH_TEMP_T_VALID : Field := { base := 0x10000044, lo := 19, width := 1, acc := .ro, prot := false, reset := 0x0, s1 := 1024, n1 := 131072 }
def EST_CH_IMPSTAT_ACCEPTED : Field := { base := 0x10000048, lo := 0, width := 16, acc := .ro, prot := false, reset := 0x0, s1 := 1024, n1 := 131072 }
def EST_CH_IMPSTAT_REJECTED : Field := { base := 0x10000048, lo := 16, width := 16, acc := .ro, prot := false, reset := 0x0, s1 := 1024, n1 := 131072 }
def EST_CH_PERSIST_TAKE : Field := { base := 0x1000004C, lo := 0, width := 32, acc := .ro, prot := false, reset := 0x0, s1 := 1024, n1 := 131072 }
def EST_CH_CTRL_RESET_IMP : Field := { base := 0x10000050, lo := 0, width := 1, acc := .wo, prot := true, reset := 0x0, s1 := 1024, n1 := 131072 }
def EST_CH_CTRL_RESET_CAP : Field := { base := 0x10000050, lo := 1, width := 1, acc := .wo, prot := true, reset := 0x0, s1 := 1024, n1 := 131072 }
def EST_CH_CTRL_RESET_EFC : Field := { base := 0x10000050, lo := 2, width := 1, acc := .wo, prot := true, reset := 0x0, s1 := 1024, n1 := 131072 }
def EST_CH_CTRL_ANCHOR_FULL : Field := { base := 0x10000050, lo := 3, width := 1, acc := .wo, prot := true, reset := 0x0, s1 := 1024, n1 := 131072 }
def EST_CH_CTRL_ANCHOR_EMPTY : Field := { base := 0x10000050, lo := 4, width := 1, acc := .wo, prot := true, reset := 0x0, s1 := 1024, n1 := 131072 }
def EST_CH_CTRL_REPORT_NOW : Field := { base := 0x10000050, lo := 5, width := 1, acc := .wo, prot := true, reset := 0x0, s1 := 1024, n1 := 131072 }
def EST_IMP0_R_OHM : Field := { base := 0x10000100, lo := 0, width := 16, acc := .ro, prot := false, reset := 0x0, s1 := 1024, n1 := 131072, s2 := 8, n2 := 48 }
def EST_IMP0_R_POL : Field := { base := 0x10000100, lo := 16, width := 16, acc := .ro, prot := false, reset := 0x0, s1 := 1024, n1 := 131072, s2 := 8, n2 := 48 }
def EST_IMP1_TAU_POL : Field := { base := 0x10000104, lo := 0, width := 16, acc := .ro, prot := false, reset := 0x0, s1 := 1024, n1 := 131072, s2 := 8, n2 := 48 }
def EST_IMP1_COUNT : Field := { base := 0x10000104, lo := 16, width := 8, acc := .ro, prot := false, reset := 0x0, s1 := 1024, n1 := 131072, s2 := 8, n2 := 48 }
def EST_IMP1_PCOUNT : Field := { base := 0x10000104, lo := 24, width := 8, acc := .ro, prot := false, reset := 0x0, s1 := 1024, n1 := 131072, s2 := 8, n2 := 48 }

/-! ### ESTV (spec/09_state_estimation.md, R260) -/

def EST_STR_I_CHG_LIM : Field := { base := 0x180000000, lo := 0, width := 24, acc := .ro, prot := false, reset := 0x0, s1 := 32, n1 := 256 }
def EST_STR_I_DIS_LIM : Field := { base := 0x180000004, lo := 0, width := 24, acc := .ro, prot := false, reset := 0x0, s1 := 32, n1 := 256 }
def EST_STR_P_CHG_LIM : Field := { base := 0x180000008, lo := 0, width := 32, acc := .ro, prot := false, reset := 0x0, s1 := 32, n1 := 256 }
def EST_STR_P_DIS_LIM : Field := { base := 0x18000000C, lo := 0, width := 32, acc := .ro, prot := false, reset := 0x0, s1 := 32, n1 := 256 }
def EST_STR_SOC_SOC_MIN : Field := { base := 0x180000010, lo := 0, width := 14, acc := .ro, prot := false, reset := 0x0, s1 := 32, n1 := 256 }
def EST_STR_SOC_SOC_MAX : Field := { base := 0x180000010, lo := 16, width := 14, acc := .ro, prot := false, reset := 0x0, s1 := 32, n1 := 256 }
def EST_STR_FLAGS_HFLAGS : Field := { base := 0x180000014, lo := 0, width := 12, acc := .ro, prot := false, reset := 0x0, s1 := 32, n1 := 256 }
def EST_STR_FLAGS_REASONS : Field := { base := 0x180000014, lo := 12, width := 4, acc := .ro, prot := false, reset := 0x0, s1 := 32, n1 := 256 }
def EST_STR_FLAGS_FACTOR : Field := { base := 0x180000014, lo := 16, width := 16, acc := .ro, prot := false, reset := 0x8000, s1 := 32, n1 := 256 }
def EST_STR_IMP_STEPS : Field := { base := 0x180000018, lo := 0, width := 16, acc := .ro, prot := false, reset := 0x0, s1 := 32, n1 := 256 }
def EST_STR_IMP_OBS_DONE : Field := { base := 0x180000018, lo := 16, width := 16, acc := .ro, prot := false, reset := 0x0, s1 := 32, n1 := 256 }
def EST_STR_TAKE_TAKE : Field := { base := 0x18000001C, lo := 0, width := 32, acc := .ro, prot := false, reset := 0x0, s1 := 32, n1 := 256 }
def EST_TILE_ARITH_SAT : Field := { base := 0x180010000, lo := 0, width := 1, acc := .w1c, prot := false, reset := 0x0, s1 := 16, n1 := 64 }
def EST_TILE_ARITH_OV : Field := { base := 0x180010000, lo := 1, width := 1, acc := .w1c, prot := false, reset := 0x0, s1 := 16, n1 := 64 }
def EST_TILE_ARITH_DZ : Field := { base := 0x180010000, lo := 2, width := 1, acc := .w1c, prot := false, reset := 0x0, s1 := 16, n1 := 64 }
def EST_TILE_IN_BOUND : Field := { base := 0x180010004, lo := 0, width := 6, acc := .ro, prot := false, reset := 0x0, s1 := 16, n1 := 64 }
def EST_TILE_IN_LATE : Field := { base := 0x180010004, lo := 16, width := 16, acc := .rc, prot := false, reset := 0x0, s1 := 16, n1 := 64 }
def EST_TILE_TAKE_TAKE : Field := { base := 0x180010008, lo := 0, width := 32, acc := .ro, prot := false, reset := 0x0, s1 := 16, n1 := 64 }

end Reg

/-- The fields of the GLB region. -/
def fieldsGLB : List Field :=
  [Reg.GLB_ID_PART, Reg.GLB_ID_STEP, Reg.GLB_ID_FORMAT, Reg.GLB_UID_LO_UID, Reg.GLB_UID_HI_UID, Reg.GLB_STATUS_STATE, Reg.GLB_STATUS_DEBUG, Reg.GLB_STATUS_DBG_EN, Reg.GLB_STATUS_SEALED, Reg.GLB_STATUS_READER_PROT, Reg.GLB_STATUS_DEV_ADDR, Reg.GLB_STATUS_BOOT_MODE, Reg.GLB_STATUS_GO_WAIT, Reg.GLB_CTRL_GO, Reg.GLB_CTRL_WRAP, Reg.GLB_ACC_ERR_ADDR_ADDR, Reg.GLB_ACC_ERR_INFO_STATUS, Reg.GLB_ACC_ERR_INFO_REQ, Reg.GLB_ACC_ERR_INFO_WRITE, Reg.GLB_ACC_ERR_CNT_COUNT, Reg.GLB_CWP_CTRL_IDLE, Reg.GLB_CWP_SESS_LO_OPEN, Reg.GLB_CWP_SESS_HI_OPEN, Reg.GLB_CWP_CNT_AUTH_CNT] ++
  [Reg.GLB_CWP_CNT_FORMAT_CNT, Reg.GLB_CWP_CNT_SEQ_CNT, Reg.GLB_CWP_CNT_DROP_CNT, Reg.GLB_PCIE_STAT_LINK, Reg.GLB_PCIE_STAT_SPEED, Reg.GLB_PCIE_STAT_WIDTH, Reg.GLB_PCIE_STAT_F0_BME, Reg.GLB_PCIE_STAT_F1_BME, Reg.GLB_PCIE_STAT_FLR, Reg.GLB_KEY_CTRL_INDEX, Reg.GLB_KEY_CTRL_OP, Reg.GLB_KEY_CTRL_GO, Reg.GLB_KEY_STAT_BUSY, Reg.GLB_KEY_STAT_RESULT, Reg.GLB_KEY_MAP_LO_ENROLLED, Reg.GLB_KEY_MAP_HI_ENROLLED, Reg.GLB_KEY_DATA_KEY, Reg.GLB_MSIX_MAP_QID, Reg.GLB_MSIX_MAP_FUNC, Reg.GLB_MSIX_MAP_COND, Reg.GLB_MSIX_ARM_ARM, Reg.GLB_MSIX_ARM_FIRED]

/-- The fields of the IMG region. -/
def fieldsIMG : List Field :=
  [Reg.IMG_STATUS_BOOT_MODE, Reg.IMG_STATUS_RUN_SLOT, Reg.IMG_STATUS_PREF_SLOT, Reg.IMG_STATUS_BOOT_PATH, Reg.IMG_STATUS_RX_OPEN, Reg.IMG_STATUS_SLOT_BUSY, Reg.IMG_STATUS_CUT, Reg.IMG_STATUS_ACT_BUSY, Reg.IMG_CTRL_COMMIT, Reg.IMG_CTRL_RX_ABORT, Reg.IMG_CTRL_CUT_DISARM, Reg.IMG_RESULT_STATUS, Reg.IMG_RESULT_OP, Reg.IMG_SLOT_INFO_STATE, Reg.IMG_SLOT_INFO_TRIAL, Reg.IMG_SLOT_INFO_TRIAL_LEFT, Reg.IMG_SLOT_INFO_SEC_VER, Reg.IMG_SLOT_INFO_KEY_SLOT, Reg.IMG_SLOT_ID_LO_IMAGE_ID, Reg.IMG_SLOT_ID_HI_IMAGE_ID, Reg.IMG_SLOT_CLASS_CONT_CLASS, Reg.IMG_RX_CTRL_PUSH, Reg.IMG_RX_CTRL_TARGET, Reg.IMG_RX_CTRL_TIMEOUT] ++
  [Reg.IMG_RX_STATUS_RECEIVED, Reg.IMG_RX_STATUS_LAST, Reg.IMG_RX_STATUS_OWN, Reg.IMG_RX_ID_LO_IMAGE_ID, Reg.IMG_RX_ID_HI_IMAGE_ID, Reg.IMG_RX_COUNT_BLOCK_COUNT, Reg.IMG_CUT_NS_NS, Reg.IMG_CUT_SEC_LO_SEC, Reg.IMG_CUT_SEC_HI_SEC, Reg.IMG_CUT_CTRL_SLOT, Reg.IMG_CUT_CTRL_ARM, Reg.IMG_ACT_CTRL_SLOT, Reg.IMG_ACT_CTRL_FORCE, Reg.IMG_ACT_CTRL_GO, Reg.IMG_REFUSE_REASON, Reg.IMG_REFUSE_SECTION, Reg.IMG_REFUSE_INSTANCE, Reg.IMG_REFUSE_REC_RECORD, Reg.IMG_KEY_STATUS_PROG, Reg.IMG_KEY_STATUS_REVOKED, Reg.IMG_KEY_STATUS_DAMAGED, Reg.IMG_KEY_STATUS_ROLLBACK, Reg.IMG_KEY_CTRL_GO, Reg.IMG_KEY_NONCE_LO_NONCE] ++
  [Reg.IMG_KEY_NONCE_HI_NONCE, Reg.IMG_KEY_REQ_WORD, Reg.IMG_RX_MAP_WORD, Reg.IMG_RX_BLOCK_WORD]

/-- The fields of the TB region. -/
def fieldsTB : List Field :=
  [Reg.TB_TIME_NS_NS, Reg.TB_TIME_SEC_LO_SEC, Reg.TB_TIME_SEC_HI_SEC, Reg.TB_CYCLE_CYCLE, Reg.TB_STATUS_STATE, Reg.TB_STATUS_SRC, Reg.TB_STATUS_PTP_PORT, Reg.TB_STATUS_REF10_OK, Reg.TB_STATUS_REF10_USED, Reg.TB_STATUS_PPS_OK, Reg.TB_STATUS_SLEWING, Reg.TB_STATUS_STEP_PENDING, Reg.TB_STATUS_TIME_VALID, Reg.TB_STATUS_BOARD_MASTER, Reg.TB_STATUS_SYNC_OK, Reg.TB_STATUS_SLATE_LOCK, Reg.TB_CTRL_STEP_EN, Reg.TB_CTRL_REF10_EN, Reg.TB_CTRL_PPS_IN_EN, Reg.TB_CTRL_PPS_OUT_EN, Reg.TB_CTRL_PRIO, Reg.TB_CTRL_SLEW_MAX, Reg.TB_CTRL_QUALIFY, Reg.TB_ERR_SET_REFUSED] ++
  [Reg.TB_ERR_BAD_TIME, Reg.TB_ERR_OUTLIER, Reg.TB_ERR_PPS_LOST, Reg.TB_ERR_REF10_LOST, Reg.TB_ERR_SYNC_LOST, Reg.TB_ERR_BOARD_ALIGN, Reg.TB_OFFSET_THETA, Reg.TB_FREQ_FREQ, Reg.TB_HOLD_TIME_SECONDS, Reg.TB_HOLD_ERR_E, Reg.TB_HOLD_CTRL_TSRC, Reg.TB_HOLD_CTRL_LIMIT, Reg.TB_PPS_CTRL_IN_POL, Reg.TB_PPS_CTRL_OUT_POL, Reg.TB_PPS_CTRL_TOD_VALID, Reg.TB_PPS_CTRL_OUT_WIDTH, Reg.TB_PPS_TOD_LO_SEC, Reg.TB_PPS_TOD_HI_SEC, Reg.TB_PPS_TS_NS_NS, Reg.TB_PPS_TS_SEC_LO_SEC, Reg.TB_PPS_TS_SEC_HI_SEC, Reg.TB_UTC_UTC_OFFSET, Reg.TB_UTC_VALID, Reg.TB_UTC_LEAP61] ++
  [Reg.TB_UTC_LEAP59, Reg.TB_UTC_SET_UTC_OFFSET, Reg.TB_UTC_SET_VALID, Reg.TB_UTC_SET_LEAP61, Reg.TB_UTC_SET_LEAP59, Reg.TB_BOARD_MASTER, Reg.TB_BOARD_MASTER_VALID, Reg.TB_BOARD_DEV, Reg.TB_PTP_DS_PRIORITY1, Reg.TB_PTP_DS_PRIORITY2, Reg.TB_PTP_DS_SLAVE_ONLY, Reg.TB_PTP_DS_CLASS, Reg.TB_TCOMP_FREQ_FREQ, Reg.TB_TCOMP_INFO_MINUTES, Reg.TB_TCOMP_INFO_VALID, Reg.TB_PTP_STAT_PORT_STATE, Reg.TB_PTP_STAT_OPT, Reg.TB_PTP_INT_LOG_ANNOUNCE, Reg.TB_PTP_INT_LOG_SYNC, Reg.TB_PTP_INT_LOG_DELAY, Reg.TB_PTP_INT_ANN_TIMEOUT, Reg.TB_PTP_LAT_TX, Reg.TB_PTP_LAT_RX, Reg.TB_PTP_DELAY_MEAN_DELAY] ++
  [Reg.TB_PTP_OFFSET_THETA, Reg.TB_PTP_CNT_EVENT_RX, Reg.TB_PTP_CNT_DISCARD]

/-- The fields of the GAF region. -/
def fieldsGAF : List Field :=
  [Reg.GAF_STATUS_WRAP_STATE, Reg.GAF_STATUS_WRAP_CAUSE, Reg.GAF_STATUS_THR_REQ, Reg.GAF_STATUS_THR_ENF, Reg.GAF_STATUS_SHORT, Reg.GAF_STATUS_PWR_GOOD, Reg.GAF_STATUS_SHUTDOWN_REQ, Reg.GAF_STATUS_ALERT, Reg.GAF_WRAP_CFG_ZERO_I, Reg.GAF_WRAP_CFG_HOLD_T, Reg.GAF_HOLDUP_HOLDUP, Reg.GAF_WRAP_STAT_STRINGS, Reg.GAF_WRAP_STAT_DONE, Reg.GAF_WRAP_TIME_ELAPSED, Reg.GAF_WRAP_TIME_LIMIT, Reg.GAF_POOL_POOL, Reg.GAF_POOL_FIXED, Reg.GAF_BUDGET_DISC, Reg.GAF_BUDGET_GRANTED, Reg.GAF_THERM_T_WARN, Reg.GAF_THERM_T_WRAP, Reg.GAF_DIE_T0_LOGIC, Reg.GAF_DIE_T0_DRAM, Reg.GAF_DIE_T1_NVM] ++
  [Reg.GAF_DIE_T1_WATCH, Reg.GAF_HEAT_CFG_HEAT_T0, Reg.GAF_HEAT_CFG_HEAT_T1, Reg.GAF_COMP_AMP_HOLD, Reg.GAF_COMP_ADC_HOLD, Reg.GAF_COMP_RTC_HOLD, Reg.GAF_COMP_RTC_CORR, Reg.GAF_CLIENT_CFG_SUBSYS, Reg.GAF_CLIENT_CFG_INSTANCE, Reg.GAF_CLIENT_CFG_PRIO, Reg.GAF_CLIENT_CFG_PROT_USE, Reg.GAF_CLIENT_RATE_FULL, Reg.GAF_CLIENT_RATE_FLOOR, Reg.GAF_CLIENT_GRANT_DEMAND, Reg.GAF_CLIENT_GRANT_GRANT, Reg.GAF_CLIENT_CTRL_CAP, Reg.GAF_CLIENT_CTRL_RECLAIMED, Reg.GAF_SENS_T, Reg.GAF_SENS_EXCL, Reg.GAF_SENS_WRAP_LVL, Reg.GAF_SENS_NBR_N0, Reg.GAF_SENS_NBR_N1, Reg.GAF_SENS_NBR_N2, Reg.GAF_SENS_CTRL_SENSOR] ++
  [Reg.GAF_SENS_CTRL_RESTORE, Reg.GAF_HEAT_POOL_POOL_W, Reg.GAF_HEAT_POOL_GRANTED, Reg.GAF_HEAT_CAP_CAP, Reg.GAF_HEAT_CAP_T_HOT]

/-- The fields of the WCH region. -/
def fieldsWCH : List Field :=
  [Reg.WCH_STATUS_VAUX_OK, Reg.WCH_STATUS_VBAT_OK, Reg.WCH_STATUS_VBAT_LOW, Reg.WCH_STATUS_RTC_VALID, Reg.WCH_STATUS_MAIN_REQ, Reg.WCH_WAKE_CAUSE_PIN, Reg.WCH_WAKE_CAUSE_ALARM, Reg.WCH_WAKE_CAUSE_RULE, Reg.WCH_WAKE_CAUSE_VAUX, Reg.WCH_CTRL_RELEASE, Reg.WCH_CTRL_SLEEP_ON_HALT, Reg.WCH_WAKE_CFG_EN, Reg.WCH_WAKE_CFG_POL, Reg.WCH_WAKE_CFG_DEB, Reg.WCH_WAKE_CFG_ON_VAUX, Reg.WCH_ALARM_SEC, Reg.WCH_ALARM_CTRL_EN, Reg.WCH_RTC_NS_NS, Reg.WCH_RTC_SEC_LO_SEC, Reg.WCH_RTC_SEC_HI_SEC, Reg.WCH_DAILY_INT_INTERVAL, Reg.WCH_DAILY_CNT_RUNS, Reg.WCH_DAILY_CNT_SKIPPED, Reg.WCH_TONE_TONE] ++
  [Reg.WCH_ADC_CFG_SHIFT, Reg.WCH_ADC_CFG_ADC_EN, Reg.WCH_ADC_RAW, Reg.WCH_ADC_FILT, Reg.WCH_RULE_COUNT, Reg.WCH_RULE_TRUE, Reg.WCH_RULE_FIRED, Reg.WCH_RULE_DEFINED, Reg.WCH_RULE_ACTION, Reg.WCH_LOG_COUNT, Reg.WCH_LOG_OVERFLOW]

/-- The fields of the PST region. -/
def fieldsPST : List Field :=
  [Reg.PST_STATUS_LEARN_RO, Reg.PST_STATUS_SCRUB, Reg.PST_STATUS_TAG_FIELD, Reg.PST_STATUS_TAG_RFW, Reg.PST_CNT_ECC_CNT, Reg.PST_CNT_LOST_CNT, Reg.PST_BACKLOG_RECORDS, Reg.PST_BACKLOG_SNAPSHOTS, Reg.PST_WEAR_CYCLES_CYCLES, Reg.PST_WEAR_PAGES_WARNED, Reg.PST_WEAR_PAGES_RETIRED, Reg.PST_WEAR_SPARES_SPARES_LEFT, Reg.PST_WEAR_DAYS_DAYS_LEFT, Reg.PST_BB_NEWEST_SEQ, Reg.PST_BB_OLDEST_SEQ, Reg.PST_BB_SEL_SEQ, Reg.PST_BB_SEL_STAT_STAT, Reg.PST_BB_DROPPED_CNT, Reg.PST_TAG_CTRL_PAGE, Reg.PST_TAG_CTRL_COMMIT, Reg.PST_TAG_CTRL_PERIOD, Reg.PST_TAG_STAT_STATUS, Reg.PST_TAG_STAT_PENDING, Reg.PST_TAG_UID_LO_UID] ++
  [Reg.PST_TAG_UID_HI_UID, Reg.PST_TAG_SHADOW_WORD]

/-- The fields of the SIN region. -/
def fieldsSIN : List Field :=
  [Reg.SIN_STATUS_ROLE, Reg.SIN_STATUS_CONFIG, Reg.SIN_STATUS_DEV_P, Reg.SIN_STATUS_INSTEP, Reg.SIN_STATUS_JOINING, Reg.SIN_STATUS_PARTNER_OK, Reg.SIN_STATUS_PARTNER_ROLE, Reg.SIN_STATUS_PARTNER_STATE, Reg.SIN_STATUS_PARTNER_DEBUG, Reg.SIN_STATUS_SWITCH_PEND, Reg.SIN_STATUS_PAIR_ERR, Reg.SIN_STATUS_PEER_UP, Reg.SIN_STATUS_ORIGINATES, Reg.SIN_EPOCH_EPOCH, Reg.SIN_EPOCH_PARTNER_EPOCH, Reg.SIN_EPOCH_RES_H, Reg.SIN_LEASE_AGE, Reg.SIN_LEASE_PATH, Reg.SIN_CTRL_SWITCH, Reg.SIN_CTRL_SWITCH_ABORT, Reg.SIN_SWITCH_STATUS, Reg.SIN_SWITCH_K_K, Reg.SIN_COUNT_TAKEOVERS, Reg.SIN_COUNT_DEMOTIONS] ++
  [Reg.SIN_AGREE_AGREE_RUN, Reg.SIN_CMP_PERMIT_CNT, Reg.SIN_CMP_CMD_CNT, Reg.SIN_CMP_IO_CNT, Reg.SIN_CMP_LAST_LAST_K, Reg.SIN_MIR_MISS_CNT, Reg.SIN_PEER_STAT_UP, Reg.SIN_PEER_STAT_SYNC, Reg.SIN_PEER_STAT_PEER_ADDR, Reg.SIN_PEER_STAT_ADDR_VALID, Reg.SIN_PEER_CRC_CNT, Reg.SIN_PEER_FRAMES_CNT, Reg.SIN_PEER_DUP_CNT]

/-- The fields of the TRW region. -/
def fieldsTRW : List Field :=
  [Reg.TRW_STATUS_ACTIVE, Reg.TRW_STATUS_SF_OK, Reg.TRW_STATUS_T0_AUTH, Reg.TRW_STATUS_TEST_BUSY, Reg.TRW_STATUS_LATCHED, Reg.TRW_CTRL_RESET_GLOBAL, Reg.TRW_CFG0_SF_EN, Reg.TRW_CFG0_SF_TX_EN, Reg.TRW_CFG0_SF_PERIOD, Reg.TRW_CFG0_SF_WINDOW, Reg.TRW_CFG0_SF_TIMEOUT, Reg.TRW_CFG1_WELD_I, Reg.TRW_CFG1_WELD_T, Reg.TRW_CFG1_FB_DELAY, Reg.TRW_CFG1_FB_EN, Reg.TRW_CFG2_TEST_I, Reg.TRW_CFG2_TEST_T, Reg.TRW_CFG2_CLOSE_T, Reg.TRW_CFG2_TEST_DAYS, Reg.TRW_ERR_CFG_REFUSED, Reg.TRW_ERR_FB, Reg.TRW_ERR_SF_DIFFER, Reg.TRW_ERR_SF_REFUSED, Reg.TRW_ERR_P_STALE] ++
  [Reg.TRW_ERR_T0_READ, Reg.TRW_SF_SENDER_LO_SENDER, Reg.TRW_SF_SENDER_HI_SENDER, Reg.TRW_OUT_MASK_MASK, Reg.TRW_OUT_STAT_H_LEVEL, Reg.TRW_OUT_STAT_P_LEVEL, Reg.TRW_OUT_STAT_FB_LEVEL, Reg.TRW_OUT_STAT_MISMATCH, Reg.TRW_P_TRIP_TRIP, Reg.TRW_TEST_CTRL_STRING, Reg.TRW_TEST_CTRL_GO, Reg.TRW_TEST_CTRL_ABORT, Reg.TRW_TEST_STAT_STRING, Reg.TRW_TEST_STAT_STEP, Reg.TRW_TEST_STAT_STATUS, Reg.TRW_CNT_CRC_CNT, Reg.TRW_CNT_SF_SINGLE_CNT, Reg.TRW_CNT_SF_DIFFER_CNT, Reg.TRW_CNT_SF_REFUSED_CNT, Reg.TRW_GLOBAL_ESTOP, Reg.TRW_GLOBAL_FIRE, Reg.TRW_GLOBAL_SF_TIMEOUT, Reg.TRW_GLOBAL_INPUTS, Reg.TRW_STORE_CRC_CRC] ++
  [Reg.TRW_STR_STAT_H_GRANT, Reg.TRW_STR_STAT_P_GRANT, Reg.TRW_STR_STAT_ADMITTED, Reg.TRW_STR_STAT_LATCHED, Reg.TRW_STR_STAT_TEST, Reg.TRW_STR_STAT_WELD_PEND, Reg.TRW_STR_STAT_HEAD, Reg.TRW_STR_STAT_RING, Reg.TRW_STR_STAT_CONTACT, Reg.TRW_STR_STAT_H_HELD, Reg.TRW_STR_STAT_P_HELD, Reg.TRW_STR_CAUSE_CAUSES, Reg.TRW_STR_CAUSE_FIRST, Reg.TRW_STR_CAUSE_SLOT, Reg.TRW_STR_CAUSE_SLOT_TEMP, Reg.TRW_STR_TEST_AGE, Reg.TRW_STR_CTRL_RESET, Reg.TRW_SET_WORD_WORD, Reg.TRW_SET_USED_USED, Reg.TRW_P_ENTRY_CTAG, Reg.TRW_P_ENTRY_P_CODE, Reg.TRW_P_ENTRY_P_CHK]

/-- The fields of the DSP region. -/
def fieldsDSP : List Field :=
  [Reg.DSP_STATUS_RUNNING, Reg.DSP_STATUS_SRC, Reg.DSP_STATUS_FFR_ACTIVE, Reg.DSP_STATUS_SHORT, Reg.DSP_STATUS_WDOG, Reg.DSP_STATUS_MIRROR, Reg.DSP_STATUS_PENDING, Reg.DSP_CTRL_SRC, Reg.DSP_CTRL_WDOG, Reg.DSP_FFR_CTRL_EN, Reg.DSP_FFR_CTRL_F_TIMEOUT, Reg.DSP_P_REQ_P_REQ, Reg.DSP_P_BASE_P_BASE, Reg.DSP_P_FFR_P_FFR, Reg.DSP_P_ALLOC_P_ALLOC, Reg.DSP_AVAIL_DIS_AVAIL_DIS, Reg.DSP_AVAIL_CHG_AVAIL_CHG, Reg.DSP_FREQ_FREQ, Reg.DSP_CYCLE_CYCLE, Reg.DSP_SEQ_FRAME_SEQ, Reg.DSP_SEQ_CAN_SEQ, Reg.DSP_CNT_REFUSED_CNT, Reg.DSP_CNT_LATE_CNT, Reg.DSP_CNT_HR_LATE_CNT] ++
  [Reg.DSP_CNT_UNMIRRORED_CNT, Reg.DSP_ARITH_SAT, Reg.DSP_ARITH_OV, Reg.DSP_ARITH_DZ, Reg.DSP_ERR_REASON, Reg.DSP_ERR_PRODUCER, Reg.DSP_STR_SET_VALUE, Reg.DSP_STR_HI_HI, Reg.DSP_STR_LO_LO, Reg.DSP_STR_DER_REQUESTED, Reg.DSP_STR_DER_ENFORCED, Reg.DSP_STR_STAT_IN_DISP, Reg.DSP_STR_STAT_UNIT, Reg.DSP_STR_STAT_DIRECT, Reg.DSP_STR_STAT_HR_STALE, Reg.DSP_STR_STAT_GRACE, Reg.DSP_STR_STAT_FIXED, Reg.DSP_STR_STAT_RING, Reg.DSP_STR_STAT_GRACE_LEFT, Reg.DSP_STR_HR_TS32]

/-- The fields of the NET region. -/
def fieldsNET : List Field :=
  [Reg.NET_PORT_STAT_LINK, Reg.NET_PORT_STAT_MODE, Reg.NET_PORT_STAT_SPEED, Reg.NET_PORT_STAT_PRP, Reg.NET_PORT_STAT_MACSEC, Reg.NET_PORT_STAT_TX_AN, Reg.NET_PORT_STAT_SA_PENDING, Reg.NET_PORT_STAT_CLOSED, Reg.NET_PORT_ERR_LINK_LOST, Reg.NET_PORT_ERR_TOO_LONG, Reg.NET_PORT_ERR_VLAN, Reg.NET_PORT_ERR_ICV, Reg.NET_PORT_ERR_REPLAY, Reg.NET_PORT_ERR_WRONG_LAN, Reg.NET_PORT_ERR_PRP_TABLE_FULL, Reg.NET_PORT_ERR_TX_DISCARD, Reg.NET_PORT_ERR_PAUSE_RX, Reg.NET_CNT_RX_FRAMES_CNT, Reg.NET_CNT_TX_FRAMES_CNT, Reg.NET_CNT_RX_DROP_CNT, Reg.NET_CNT_MACSEC_FAIL_CNT, Reg.NET_CNT_PRP_DUP_CNT, Reg.NET_CNT_PRP_WRONG_LAN_CNT, Reg.NET_CNT_TX_DISCARD_CNT] ++
  [Reg.NET_CNT_PAUSE_RX_CNT, Reg.NET_MACSEC_SSCI_TX_SSCI, Reg.NET_MACSEC_SSCI_PEER_SSCI, Reg.NET_CTRL_PRP_SILENT, Reg.NET_CTRL_MACSEC_OVERLAP, Reg.NET_APP_PORT_PORT, Reg.NET_PAIR_STAT_PATH_LOST, Reg.NET_EGQ_QID, Reg.NET_EGQ_KIND, Reg.NET_EGQ_EN, Reg.NET_EGQ_DMAC_LO_DMAC, Reg.NET_EGQ_DMAC_HI_DMAC, Reg.NET_EGQ_DMAC_HI_DPORT, Reg.NET_EGQ_FLUSH_FLUSH, Reg.NET_EGQ_DIP4_DIP4, Reg.NET_EGQ_DIP6_DIP6, Reg.NET_EGQ_SEQ_SEQ]

/-- The fields of the FLD region. -/
def fieldsFLD : List Field :=
  [Reg.FLD_CAN_STAT_STATE, Reg.FLD_CAN_STAT_TEC, Reg.FLD_CAN_STAT_REC, Reg.FLD_CAN_POS_SLOT, Reg.FLD_CAN_POS_CYCLE, Reg.FLD_CAN_POS_RECOVER, Reg.FLD_CAN_BT_NOM_SP, Reg.FLD_CAN_BT_DATA_SP, Reg.FLD_CAN_BT_NOM_SJW, Reg.FLD_CAN_BT_DATA_SJW, Reg.FLD_CAN_CNT_TX_CNT, Reg.FLD_CAN_CNT_MISS_CNT, Reg.FLD_CAN_CNT_ABORT_CNT, Reg.FLD_CAN_CNT_SUPERSEDED_CNT, Reg.FLD_CAN_CNT_RX_CNT, Reg.FLD_CAN_CNT_RX_DROP_CNT, Reg.FLD_CAN_CNT_BUSOFF_CNT, Reg.FLD_CAN_CNT_TX_BAD_CNT, Reg.FLD_QD_COUNT_COUNT, Reg.FLD_QD_ERRCNT_CNT, Reg.FLD_QD_INDEX_INDEX, Reg.FLD_QD_STAT_LEVELS, Reg.FLD_QD_STAT_SAT, Reg.FLD_QD_STAT_ILL_RAISED] ++
  [Reg.FLD_QD_STAT_ENABLE, Reg.FLD_QD_CTRL_DIR, Reg.FLD_QD_CTRL_Z_EN, Reg.FLD_QD_SET_SET, Reg.FLD_PWM_STAT_DRIVE, Reg.FLD_PWM_STAT_BOUND, Reg.FLD_PWM_STAT_DEFINED, Reg.FLD_PWM_STAT_DUTY, Reg.FLD_PWM_HOST_DUTY, Reg.FLD_PWM_PERIOD_PERIOD, Reg.FLD_GPIO_IN_LEVEL, Reg.FLD_GPIO_OUT_LEVEL, Reg.FLD_GPIO_DIR_OUT, Reg.FLD_SAFE_IN_LEVEL, Reg.FLD_SAFE_IN_ACTIVE, Reg.FLD_SAFE_IN_DEFINED]

/-- The fields of the LNK region. -/
def fieldsLNK : List Field :=
  [Reg.LNK_PORT_CTRL_ENABLE, Reg.LNK_PORT_CTRL_WAKE, Reg.LNK_PORT_STAT_SIGNAL, Reg.LNK_PORT_STAT_SYNC, Reg.LNK_PORT_STAT_CYC_OK, Reg.LNK_PORT_STAT_TONE, Reg.LNK_PORT_STAT_ROT, Reg.LNK_PORT_STAT_ROLE, Reg.LNK_PORT_ERR_LOS, Reg.LNK_PORT_ERR_CODE, Reg.LNK_PORT_ERR_CRC, Reg.LNK_PORT_ERR_SLOT, Reg.LNK_PORT_ERR_DUP_DIFFER, Reg.LNK_CNT_CODE_CNT, Reg.LNK_CNT_CRC_CNT, Reg.LNK_CNT_SLOT_CNT, Reg.LNK_CNT_DUPMISS_CNT, Reg.LNK_CNT_FRAMES_CNT, Reg.LNK_CNT_CMDREJ_CNT, Reg.LNK_RING_STAT_STATE, Reg.LNK_RING_STAT_BROKEN, Reg.LNK_RING_STAT_ORIG, Reg.LNK_RING_STAT_LONG, Reg.LNK_RING_STAT_BREAK_LO] ++
  [Reg.LNK_RING_STAT_BREAK_HI, Reg.LNK_RING_DP_D0, Reg.LNK_RING_DP_D1, Reg.LNK_RING_DS_D0, Reg.LNK_RING_DS_D1, Reg.LNK_RING_ENUM_MATCHED, Reg.LNK_RING_ENUM_MISSING, Reg.LNK_RING_ENUM_WRONG, Reg.LNK_RING_ENUM_ATTEMPTS, Reg.LNK_RING_CTRL_ENUM, Reg.LNK_RING_CTRL_WAKE, Reg.LNK_RING_CTRL_SLEEP, Reg.LNK_RING_TAKE_TAKE, Reg.LNK_NODE_LINK_ROT0, Reg.LNK_NODE_LINK_ROT1, Reg.LNK_NODE_LINK_UID_OK, Reg.LNK_NODE_LINK_CONFLICT, Reg.LNK_NODE_LINK_EST, Reg.LNK_NODE_LINK_DELTA, Reg.LNK_NODE_EMAX_E_MAX]

/-- The fields of the SWP region. -/
def fieldsSWP : List Field :=
  [Reg.SWP_CTRL_BAL_EN, Reg.SWP_CTRL_XCHK_EN, Reg.SWP_CTRL_SLEEP_HALT, Reg.SWP_CTRL_OW_ITEST, Reg.SWP_BAL_CFG_R_BAL, Reg.SWP_BAL_CFG_BAL_DV, Reg.SWP_BAL_LIM_BAL_V_MIN, Reg.SWP_BAL_LIM_BAL_I_MAX, Reg.SWP_BAL_PERIOD_PERIOD, Reg.SWP_SLEEP_V_V_LO, Reg.SWP_SLEEP_V_V_HI, Reg.SWP_SLEEP_T_T_HI, Reg.SWP_OW_CLEAR_RING, Reg.SWP_OW_CLEAR_ADDR, Reg.SWP_OW_CLEAR_MASK, Reg.SWP_FILT_COEF_COEF, Reg.SWP_FILT_S_S, Reg.SWP_CONT_GRANT_POOL_W, Reg.SWP_CONT_GRANT_CELLS, Reg.SWP_CONT_PLAN_PLAN_MW, Reg.SWP_RING_STAT_RATE, Reg.SWP_RING_STAT_PHASE, Reg.SWP_RING_STAT_OW_EN, Reg.SWP_RING_STAT_BAL_ON] ++
  [Reg.SWP_RING_STAT_POLL_P, Reg.SWP_RING_POLL_NEXT_FIRST, Reg.SWP_RING_POLL_NEXT_COUNT, Reg.SWP_RING_OWCNT_RUNS, Reg.SWP_RING_OWCNT_INCONC, Reg.SWP_RING_ARITH_SAT, Reg.SWP_RING_ARITH_OV, Reg.SWP_RING_ARITH_DZ, Reg.SWP_RUSH_CTRL_EN_CELL, Reg.SWP_RUSH_CTRL_EN_TEMP, Reg.SWP_RUSH_CTRL_DECIM, Reg.SWP_RUSH_CTRL_FIRST_ADDR, Reg.SWP_RUSH_CTRL_LAST_ADDR, Reg.SWP_RING_SETTLE_LEFT, Reg.SWP_RING_SETTLE_RESETS, Reg.SWP_NODE_STATE_STATE, Reg.SWP_NODE_STATE_MGMT, Reg.SWP_NODE_STATE_DATA, Reg.SWP_NODE_STATE_MISMATCH, Reg.SWP_NODE_STATE_CONFLICT, Reg.SWP_NODE_STATE_DIFF_POLLS, Reg.SWP_NODE_OW_SUSPECT, Reg.SWP_NODE_OW_CONFIRMED, Reg.SWP_NODE_BAL_MASK] ++
  [Reg.SWP_NODE_BAL_TAKES_LEFT, Reg.SWP_NODE_DIAG_TEMP_EXCL, Reg.SWP_NODE_DIAG_OW_COUNT, Reg.SWP_NODE_DIAG_FOLLOW_UP]

/-- The fields of the LPE region. -/
def fieldsLPE : List Field :=
  [Reg.LPE_CTX_CFG0_DIV, Reg.LPE_CTX_CFG0_NX, Reg.LPE_CTX_CFG0_NU, Reg.LPE_CTX_CFG0_NY, Reg.LPE_CTX_CFG0_NR, Reg.LPE_CTX_CFG0_NSV, Reg.LPE_CTX_CFG0_NGAIN, Reg.LPE_CTX_CFG1_KIND, Reg.LPE_CTX_CFG1_BUILT, Reg.LPE_CTX_CFG1_HAS_STRING, Reg.LPE_CTX_CFG1_SAT_ACT, Reg.LPE_CTX_CFG1_STRING, Reg.LPE_CTX_CFG2_SAT_TICKS, Reg.LPE_CTX_CFG2_LOSS_TICKS, Reg.LPE_CTX_STAT_STATE, Reg.LPE_CTX_STAT_GAIN, Reg.LPE_CTX_STAT_REGION, Reg.LPE_CTX_STAT_CAND, Reg.LPE_CTX_STAT_CAND_COUNT, Reg.LPE_CTX_FLAGS_SAT_OUT, Reg.LPE_CTX_FLAGS_ABSENT, Reg.LPE_CTX_FLAGS_LOST, Reg.LPE_CTX_FLAGS_BUMP_J, Reg.LPE_CTX_FLAGS_DERATE] ++
  [Reg.LPE_CTX_SATT_T_SAT, Reg.LPE_CTX_SATT_T_SAT_PEAK, Reg.LPE_CTX_CTRL_RESUME, Reg.LPE_CTX_CTRL_FORCE_SAFE, Reg.LPE_CTX_CTRL_RESET_X, Reg.LPE_CTX_ARITH_SAT, Reg.LPE_CTX_ARITH_OV, Reg.LPE_CTX_ARITH_DZ, Reg.LPE_CTX_TICK_CYCLE, Reg.LPE_CTX_CNT_LATE, Reg.LPE_CTX_CNT_SKIPPED, Reg.LPE_CTX_CNT_BAD, Reg.LPE_CTX_ERR_RESUME_REFUSED, Reg.LPE_X_X, Reg.LPE_Y_Y, Reg.LPE_R_R, Reg.LPE_U_U, Reg.LPE_U_RAW_U_RAW, Reg.LPE_D0_D0, Reg.LPE_SV_SV, Reg.LPE_AGE_AGE, Reg.LPE_A_A, Reg.LPE_B_B, Reg.LPE_L_L] ++
  [Reg.LPE_K_K, Reg.LPE_KR_KR, Reg.LPE_U_MIN_V, Reg.LPE_U_MAX_V, Reg.LPE_U_RATE_V, Reg.LPE_U_SAFE_V, Reg.LPE_SCALE_V, Reg.LPE_EDGE_V, Reg.LPE_MAP_V, Reg.LPE_MEAS_QID_QID, Reg.LPE_REF_QID_QID, Reg.LPE_OUT_OUT, Reg.LPE_SV_QID_QID]

/-- The fields of the TRD region. -/
def fieldsTRD : List Field :=
  [Reg.TRD_STATUS_MODE, Reg.TRD_STATUS_VOTE, Reg.TRD_STATUS_AUTH, Reg.TRD_STATUS_HALTED, Reg.TRD_STATUS_READMIT_PEND, Reg.TRD_STATUS_TAINT, Reg.TRD_STATUS_REALM, Reg.TRD_STATUS_LOCK, Reg.TRD_READMIT_LANE, Reg.TRD_READMIT_GO, Reg.TRD_READMIT_CANCEL, Reg.TRD_READMIT_STATUS, Reg.TRD_RESTART_LANES, Reg.TRD_RESTART_GO, Reg.TRD_RESTART_STATUS, Reg.TRD_WDOG_PERIOD, Reg.TRD_WDOG_KICK_KEY, Reg.TRD_LANE_STAT_STATE, Reg.TRD_LANE_STAT_CAUSE, Reg.TRD_LANE_STAT_EXCL, Reg.TRD_LANE_STAT_ECC_CORR, Reg.TRD_MIS_PC_PC, Reg.TRD_MIS_INFO_LANES, Reg.TRD_MIS_INFO_KIND] ++
  [Reg.TRD_MIS_INFO_REG, Reg.TRD_MIS_INFO_SPECIAL, Reg.TRD_MIS_TS_TS32, Reg.TRD_PC_PC, Reg.TRD_ERR_WDOG, Reg.TRD_ERR_PROG_HALT, Reg.TRD_ERR_LOCK_REVOKED, Reg.TRD_ERR_BUS_FAULT, Reg.TRD_ERR_DEBUG_REFUSED]

/-- The fields of the QF region. -/
def fieldsQF : List Field :=
  [Reg.QF_LOCK_TIMEOUT_TIMEOUT, Reg.QF_STALL_WARN_WARN, Reg.QF_CMD_QID, Reg.QF_CMD_OP, Reg.QF_ERR_ECC_CORR, Reg.QF_ERR_ECC_UNCORR, Reg.QF_ERR_META, Reg.QF_ERR_RECLAIM, Reg.QF_ERR_REFUSED, Reg.QF_ERR_STALL, Reg.QF_NEAR_USED_ITEMS, Reg.QF_FAR_USED_UNITS, Reg.QF_CNT_DROP_CNT, Reg.QF_CNT_OVERWRITE_CNT, Reg.QF_CNT_CUT_CNT, Reg.QF_CNT_RECLAIM_CNT, Reg.QF_CNT_ECC_CORR_CNT, Reg.QF_CNT_REFUSED_CNT]

/-- The fields of the EST region. -/
def fieldsEST : List Field :=
  [Reg.EST_CH_STAT_USED, Reg.EST_CH_STAT_ANCHORED, Reg.EST_CH_STAT_CHAIN, Reg.EST_CH_STAT_LAST_EMPTY, Reg.EST_CH_STAT_EOC, Reg.EST_CH_STAT_FULL, Reg.EST_CH_STAT_EOD, Reg.EST_CH_STAT_EMPTY, Reg.EST_CH_STAT_HOLD, Reg.EST_CH_STAT_OBSERVING, Reg.EST_CH_STAT_RESTORED, Reg.EST_CH_STAT_FROZEN, Reg.EST_CH_STAT_OUTLIER, Reg.EST_CH_STAT_FULL_RUN, Reg.EST_CH_STAT_EMPTY_RUN, Reg.EST_CH_STAT_SET, Reg.EST_CH_SOC_SOC, Reg.EST_CH_SOC_TARGET, Reg.EST_CH_REP_REP, Reg.EST_CH_V_V_F, Reg.EST_CH_V_V_C, Reg.EST_CH_I_I_F, Reg.EST_CH_LIM_CHG_I_CHG, Reg.EST_CH_LIM_DIS_I_DIS] ++
  [Reg.EST_CH_FACT_F_C, Reg.EST_CH_FACT_F_D, Reg.EST_CH_Q_LO_Q, Reg.EST_CH_Q_HI_Q, Reg.EST_CH_QUSE_LO_Q_USE, Reg.EST_CH_QUSE_HI_Q_USE, Reg.EST_CH_QBAL_LO_Q_BAL, Reg.EST_CH_QBAL_HI_Q_BAL, Reg.EST_CH_EFC_EFC, Reg.EST_CH_ANCHOR_FULLS, Reg.EST_CH_ANCHOR_EMPTIES, Reg.EST_CH_ANCHOR_TAKE_TAKE, Reg.EST_CH_TEMP_T, Reg.EST_CH_TEMP_INPUT, Reg.EST_CH_TEMP_T_VALID, Reg.EST_CH_IMPSTAT_ACCEPTED, Reg.EST_CH_IMPSTAT_REJECTED, Reg.EST_CH_PERSIST_TAKE, Reg.EST_CH_CTRL_RESET_IMP, Reg.EST_CH_CTRL_RESET_CAP, Reg.EST_CH_CTRL_RESET_EFC, Reg.EST_CH_CTRL_ANCHOR_FULL, Reg.EST_CH_CTRL_ANCHOR_EMPTY, Reg.EST_CH_CTRL_REPORT_NOW] ++
  [Reg.EST_IMP0_R_OHM, Reg.EST_IMP0_R_POL, Reg.EST_IMP1_TAU_POL, Reg.EST_IMP1_COUNT, Reg.EST_IMP1_PCOUNT]

/-- The fields of the ESTV region. -/
def fieldsESTV : List Field :=
  [Reg.EST_STR_I_CHG_LIM, Reg.EST_STR_I_DIS_LIM, Reg.EST_STR_P_CHG_LIM, Reg.EST_STR_P_DIS_LIM, Reg.EST_STR_SOC_SOC_MIN, Reg.EST_STR_SOC_SOC_MAX, Reg.EST_STR_FLAGS_HFLAGS, Reg.EST_STR_FLAGS_REASONS, Reg.EST_STR_FLAGS_FACTOR, Reg.EST_STR_IMP_STEPS, Reg.EST_STR_IMP_OBS_DONE, Reg.EST_STR_TAKE_TAKE, Reg.EST_TILE_ARITH_SAT, Reg.EST_TILE_ARITH_OV, Reg.EST_TILE_ARITH_DZ, Reg.EST_TILE_IN_BOUND, Reg.EST_TILE_IN_LATE, Reg.EST_TILE_TAKE_TAKE]

/-- The fields of the GLB region whose reset value is not 0. -/
def resetGLB : List Field := [Reg.GLB_ID_PART, Reg.GLB_ID_STEP, Reg.GLB_ID_FORMAT, Reg.GLB_STATUS_STATE, Reg.GLB_CWP_CTRL_IDLE, Reg.GLB_MSIX_ARM_ARM]

/-- The fields of the IMG region whose reset value is not 0. -/
def resetIMG : List Field := [Reg.IMG_STATUS_RUN_SLOT, Reg.IMG_RX_CTRL_TIMEOUT, Reg.IMG_REFUSE_SECTION, Reg.IMG_REFUSE_REC_RECORD]

/-- The fields of the TB region whose reset value is not 0. -/
def resetTB : List Field := [Reg.TB_CTRL_STEP_EN, Reg.TB_CTRL_SLEW_MAX, Reg.TB_CTRL_QUALIFY, Reg.TB_HOLD_CTRL_LIMIT, Reg.TB_PPS_CTRL_OUT_WIDTH, Reg.TB_PTP_DS_PRIORITY1, Reg.TB_PTP_DS_PRIORITY2, Reg.TB_PTP_DS_SLAVE_ONLY, Reg.TB_PTP_DS_CLASS, Reg.TB_PTP_STAT_PORT_STATE, Reg.TB_PTP_INT_LOG_ANNOUNCE, Reg.TB_PTP_INT_ANN_TIMEOUT, Reg.TB_PTP_DELAY_MEAN_DELAY]

/-- The fields of the GAF region whose reset value is not 0. -/
def resetGAF : List Field := [Reg.GAF_WRAP_CFG_ZERO_I, Reg.GAF_WRAP_CFG_HOLD_T, Reg.GAF_POOL_FIXED, Reg.GAF_HEAT_CFG_HEAT_T0, Reg.GAF_HEAT_CFG_HEAT_T1, Reg.GAF_CLIENT_CTRL_CAP, Reg.GAF_HEAT_CAP_CAP]

/-- The fields of the WCH region whose reset value is not 0. -/
def resetWCH : List Field := [Reg.WCH_WAKE_CFG_DEB, Reg.WCH_ADC_CFG_SHIFT]

/-- The fields of the PST region whose reset value is not 0. -/
def resetPST : List Field := [Reg.PST_WEAR_DAYS_DAYS_LEFT, Reg.PST_TAG_CTRL_PAGE, Reg.PST_TAG_CTRL_PERIOD]

/-- The fields of the SIN region whose reset value is not 0. -/
def resetSIN : List Field := [Reg.SIN_STATUS_ROLE, Reg.SIN_STATUS_PARTNER_ROLE, Reg.SIN_LEASE_AGE, Reg.SIN_LEASE_PATH]

/-- The fields of the TRW region whose reset value is not 0. -/
def resetTRW : List Field := [Reg.TRW_CFG0_SF_PERIOD, Reg.TRW_CFG0_SF_WINDOW, Reg.TRW_CFG0_SF_TIMEOUT, Reg.TRW_CFG1_WELD_I, Reg.TRW_CFG1_WELD_T, Reg.TRW_CFG1_FB_DELAY, Reg.TRW_CFG2_TEST_I, Reg.TRW_CFG2_TEST_T, Reg.TRW_CFG2_CLOSE_T, Reg.TRW_CFG2_TEST_DAYS, Reg.TRW_P_TRIP_TRIP]

/-- The fields of the DSP region whose reset value is not 0. -/
def resetDSP : List Field := [Reg.DSP_STATUS_SRC, Reg.DSP_FFR_CTRL_F_TIMEOUT, Reg.DSP_STR_DER_REQUESTED, Reg.DSP_STR_DER_ENFORCED]

/-- The fields of the NET region whose reset value is not 0. -/
def resetNET : List Field := [Reg.NET_MACSEC_SSCI_TX_SSCI, Reg.NET_MACSEC_SSCI_PEER_SSCI, Reg.NET_CTRL_PRP_SILENT, Reg.NET_CTRL_MACSEC_OVERLAP, Reg.NET_EGQ_FLUSH_FLUSH]

/-- The fields of the FLD region whose reset value is not 0. -/
def resetFLD : List Field := [Reg.FLD_CAN_BT_NOM_SP, Reg.FLD_CAN_BT_DATA_SP, Reg.FLD_CAN_BT_NOM_SJW, Reg.FLD_CAN_BT_DATA_SJW]

/-- The fields of the LNK region whose reset value is not 0. -/
def resetLNK : List Field := [Reg.LNK_PORT_STAT_ROT, Reg.LNK_RING_DP_D0, Reg.LNK_RING_DP_D1, Reg.LNK_RING_DS_D0, Reg.LNK_RING_DS_D1]

/-- The fields of the SWP region whose reset value is not 0. -/
def resetSWP : List Field := [Reg.SWP_CTRL_XCHK_EN, Reg.SWP_CTRL_OW_ITEST, Reg.SWP_BAL_CFG_R_BAL, Reg.SWP_BAL_CFG_BAL_DV, Reg.SWP_BAL_LIM_BAL_I_MAX, Reg.SWP_BAL_PERIOD_PERIOD, Reg.SWP_SLEEP_V_V_LO, Reg.SWP_SLEEP_V_V_HI, Reg.SWP_SLEEP_T_T_HI, Reg.SWP_RING_POLL_NEXT_FIRST, Reg.SWP_RUSH_CTRL_FIRST_ADDR, Reg.SWP_RUSH_CTRL_LAST_ADDR, Reg.SWP_NODE_STATE_STATE, Reg.SWP_NODE_STATE_MGMT, Reg.SWP_NODE_STATE_DATA]

/-- The fields of the LPE region whose reset value is not 0. -/
def resetLPE : List Field := [Reg.LPE_CTX_FLAGS_BUMP_J]

/-- The fields of the TRD region whose reset value is not 0. -/
def resetTRD : List Field := []

/-- The fields of the QF region whose reset value is not 0. -/
def resetQF : List Field := [Reg.QF_STALL_WARN_WARN]

/-- The fields of the EST region whose reset value is not 0. -/
def resetEST : List Field := []

/-- The fields of the ESTV region whose reset value is not 0. -/
def resetESTV : List Field := [Reg.EST_STR_FLAGS_FACTOR]

/-- The fields of the region that holds a word offset (Table 16.1). -/
def regionFields (off : Nat) : List Field :=
  if off < 0x10000 then fieldsGLB
  else if off < 0x20000 then fieldsIMG
  else if off < 0x30000 then fieldsTB
  else if off < 0x40000 then fieldsGAF
  else if off < 0x50000 then fieldsWCH
  else if off < 0x60000 then fieldsPST
  else if off < 0x70000 then fieldsSIN
  else if off < 0x80000 then fieldsTRW
  else if off < 0x90000 then fieldsDSP
  else if off < 0xA0000 then fieldsNET
  else if off < 0x100000 then fieldsFLD
  else if off < 0x180000 then fieldsLNK
  else if off < 0x200000 then fieldsSWP
  else if off < 0x400000 then fieldsLPE
  else if off < 0x1000000 then fieldsTRD
  else if off < 0x10000000 then fieldsQF
  else if off < 0x180000000 then fieldsEST
  else fieldsESTV

/-- The fields in the word at an offset; none where no register is assigned (R15). -/
def fieldsAt (off : Nat) : List Field := (regionFields off).filter (fun f => f.covers off)

/-- The subsystem ID and instance of Gaffer client c (Table 18.2). -/
def clientId (c : Nat) : Nat × Nat :=
  if c < 64 then (4, c) else if c < 128 then (6, c - 64) else if c = 128 then (7, 0) else if c = 129 then (8, 0)
  else if c < 134 then (10, c - 130) else if c = 134 then (5, 0) else if c < 139 then (12, c - 135) else (13, 0)

/-- The reset words that a table of the spec gives element by element: `TRW_OUT_MASK` (Table 12.13) and the identity of the Gaffer
clients (Table 18.2). -/
def resetSpecial (off : Nat) : Nat :=
  if off = 0x70020 then 0x1E0
  else if 0x30400 ≤ off ∧ off < 0x30400 + 16 * 140 ∧ off % 16 = 0 then
    let (s, i) := clientId ((off - 0x30400) / 16)
    s + i * 256
  else 0

/-- The fields whose reset value is not 0 of the region that holds a word offset. -/
def regionReset (off : Nat) : List Field :=
  if off < 0x10000 then resetGLB
  else if off < 0x20000 then resetIMG
  else if off < 0x30000 then resetTB
  else if off < 0x40000 then resetGAF
  else if off < 0x50000 then resetWCH
  else if off < 0x60000 then resetPST
  else if off < 0x70000 then resetSIN
  else if off < 0x80000 then resetTRW
  else if off < 0x90000 then resetDSP
  else if off < 0xA0000 then resetNET
  else if off < 0x100000 then resetFLD
  else if off < 0x180000 then resetLNK
  else if off < 0x200000 then resetSWP
  else if off < 0x400000 then resetLPE
  else if off < 0x1000000 then resetTRD
  else if off < 0x10000000 then resetQF
  else if off < 0x180000000 then resetEST
  else resetESTV

/-- The reset value of the word at an offset. -/
def resetWord (off : Nat) : Word :=
  BitVec.ofNat 32 ((regionReset off).foldl (fun a f => if f.covers off then a + f.reset * 2 ^ f.lo else a) (resetSpecial off))

/-- A word with a field replaced. -/
def putField (w : Word) (lo width v : Nat) : Word :=
  BitVec.ofNat 32 (w.toNat - bitsOf w.toNat lo width * 2 ^ lo + v % 2 ^ width * 2 ^ lo)

end Sys2Proof.Machine
end

