-- ==== Sys2Proof/Machine/State.lean ====
section
/-!
DEFINITION. Machine/State.lean: the state of the device as plain data, its stops, and the state right after reset. Every
register of the Control Window lies in `regs` (Machine/Regs.lean gives their fields); everything else the spec gives the device
(queues, the running structure, engine state that no register shows, memories, the store, pins) has a field of its own.
-/
namespace Sys2Proof.Machine

/-- The device states (Table 0.2, Table 1.3). -/
inductive DevState where
  | off | standby | watch | boot | dark | quiet | run | wrap | halt
deriving DecidableEq, Repr

/-! ### The Reel and the image controller (chapters 3 and 4) -/

/-- A record of an image: its section type, its record type, its index in the section, and its bytes with the 8-byte header (R65). -/
structure Rec where
  sec : Nat
  typ : Nat
  idx : Nat
  b : List Byte
deriving DecidableEq, Repr

/-- The structure of an accepted Reel: the image header, every record, the section types present in directory order. -/
structure Reel where
  hdr : List Byte
  recs : List Rec
  secs : List Nat := []
deriving DecidableEq, Repr

/-- Slot states (Table 4.3). -/
inductive SlotState where
  | empty | writing | valid | invalid
deriving DecidableEq, Repr

/-- A Reel slot with its metadata (R89 to R91) and its blocks (R58). -/
structure Slot where
  st : SlotState := .empty
  trial : Bool := false
  trialLeft : Bool := false
  blocks : List (List Byte) := []
deriving DecidableEq, Repr

/-- A key slot in OTP (R92): the 48-byte hash, the valid fuse and the revocation fuse. -/
structure KeySlot where
  hash : List Byte := []
  valid : Bool := false
  revoked : Bool := false
deriving DecidableEq, Repr

/-- The OTP fuses (R92, Table 16.8). -/
structure Otp where
  keys : Tbl KeySlot := []
  rollback : Nat := 0
  uid : Nat := 0
deriving DecidableEq, Repr

/-- A receive session (R96 to R100): the image, its block count, the accepted blocks by number, the source that opened it
(0 host, 1 + n peer link n), whether it passes to another device, the block numbers accepted, the own-clock instant of the last one. -/
structure RxSession where
  imageId : Nat
  count : Nat
  src : Nat
  blocks : Tbl (List Byte) := []
  pass : Bool := false
  got : List Nat := []
  at_ : Nat := 0
deriving DecidableEq, Repr

/-- An armed cut-over (R102 to R105): its slot, its cut time in ns, the new structure once its shadow is built. -/
structure Cut where
  slot : Nat
  time : Nat
  shadow : Option Reel := none
deriving DecidableEq, Repr

/-- An activate command in progress (R107, R108). -/
structure Activate where
  slot : Nat
  force : Bool
  shadow : Option Reel := none
deriving DecidableEq, Repr

/-- A key request accepted and being blown (R93). -/
structure KeyReq where
  op : Nat
  slot : Nat
  hash : List Byte
deriving DecidableEq, Repr

/-- The image controller: the slots and keys in the NVM and OTP, the requests in progress; the cut times that partners have reported ready for, by sender
(0 the pair partner, 2 and 3 the devices behind peer links 2 and 3), the slots that the boot in progress has yet to try, the slot and structure it has
accepted. -/
structure Img where
  slots : Tbl Slot := []
  pref : Nat := 0
  otp : Otp := {}
  nonce : Nat := 0
  rx : Option RxSession := none
  slotWrite : Option (Nat × List (List Byte)) := none
  cut : Option Cut := none
  act : Option Activate := none
  keyReq : Option KeyReq := none
  commit : Option Nat := none
  bootSlot : Nat := 3
  reports : Tbl Nat := []
  boot : Option (List Nat) := none
  loaded : Option (Nat × Reel) := none
deriving DecidableEq, Repr

/-! ### Requesters, sessions and the key store (chapters 8 and 16) -/

/-- What the fabric and the Control Window keep for each requester (Table 8.2): its `QF_RESULT`, its doorbell holding register and
latched high word (R208), its wide-value latch with the tag (R402), its full-time latches by NS word offset (R51), its `QF_QSTAT`
latch (R221), a read that waits on an empty near queue with its own-clock instant (R210). -/
structure Req where
  kind : Nat := 0
  status : Nat := 0
  qid : Nat := 0
  held : Option Nat := none
  high : Nat := 0
  wide : Option (Nat × Nat) := none
  times : Tbl (Nat × Nat) := []
  qwm : Option (Nat × Nat) := none
  pop : Option (Nat × Nat) := none
deriving DecidableEq, Repr

/-- A CWP session (R414, R415): the source address and UDP port, the receiving port, the device nonce and the client nonce, the last
accepted `SEQ`, the cached response, the key store entry that authenticates it (0xFF for none), the own-clock instant of its last accepted request. -/
structure Session where
  addr : List Byte
  udp : Nat
  port : Nat
  nonce : Nat
  cnonce : Nat
  seq : Nat
  cache : List Byte
  key : Nat
  at_ : Nat
deriving DecidableEq, Repr

/-- A CWP datagram waiting at a port (R417): source MAC address, source address, source UDP port, bytes. -/
structure CwpMsg where
  mac : List Byte
  addr : List Byte
  udp : Nat
  bytes : List Byte
deriving DecidableEq, Repr

/-- Host access: sessions, waiting datagrams by port, key store entries, the key request in progress (entry, operation), MSI-X messages held
pending in the table of a function (numbered 64 × function + entry), the seconds words written to a full-time register whose NS word is still to come (R51), by
offset. -/
structure HostIf where
  sess : Tbl Session := []
  waiting : Tbl (List CwpMsg) := []
  keys : Tbl (List Byte) := []
  keyReq : Option (Nat × Nat) := none
  pend : List Nat := []
  stage : Tbl Nat := []
deriving DecidableEq, Repr

/-! ### The queue fabric (chapter 8) -/

/-- A write that waits under BLOCK: the source and the queues it is bound to, what it writes, its own-clock instant, whether the stall is reported. -/
structure QWait where
  req : Nat
  qids : List Nat
  unit : QUnit
  at_ : Nat := 0
  warned : Bool := false
deriving DecidableEq, Repr

/-- A queue instruction of a triad that waits (R210, R212): its operation (Table 14.8), queue and values, its own-clock instant, the limit of its wait
in µs, whether the stall is reported. -/
structure LWait where
  op : Nat
  qid : Nat
  v : Item := 0#64
  v2 : Item := 0#64
  at_ : Nat := 0
  tmo : Option Nat := none
  warned : Bool := false
deriving DecidableEq, Repr

/-- The queue fabric: the queues the running Reel builds, by QID; the engine writes that wait for a slot, oldest first; the queue instructions that wait,
by requester code; the own-clock instants at which the holders of producer and consumer locks last used them, by QID. -/
structure Qf where
  qs : Tbl Queue := []
  waits : List QWait := []
  lanes : Tbl LWait := []
  prodAt : Tbl Nat := []
  consAt : Tbl Nat := []
deriving DecidableEq, Repr

/-! ### Power, thermal and Wrap (chapter 18) -/

/-- The states of a string in a Wrap (Table 18.5). -/
inductive WState where
  | ramp | held | opening | done
deriving DecidableEq, Repr

/-- A string in a Wrap: its state, whether it has been at zero in a Take, the device time at which its HOLD entered the ring, the device time and own-clock
instant at which its withdrawal entered the ring, whether it left OPEN unconfirmed. -/
structure WString where
  st : WState := .ramp
  zeroed : Bool := false
  hold : Option Nat := none
  openAt : Option (Nat × Nat) := none
  unconf : Bool := false
deriving DecidableEq, Repr

/-- A Wrap in progress (R463 to R467): its first cause, its start boundary in device time and on the own clock, the own-clock instant at which its time limit
ends, its strings, whether EST has the Wrap trigger, whether it ends in HALT, whether it has completed and waits for SLEEP to leave: 1 in the next window, 2 sent. -/
structure WrapRun where
  cause : Nat
  start : Nat
  own0 : Nat
  endAt : Nat
  strings : Tbl WString := []
  trigger : Bool := false
  toHalt : Bool := true
  sleep : Nat := 0
deriving DecidableEq, Repr

/-- The check state of a die sensor: the own-clock instant since which its deviation lasts, samples in a row at or above `T_WRAP` with each neighbour. -/
structure Sensor where
  dev : Option Nat := none
  wrap0 : Nat := 0
  wrap1 : Nat := 0
  wrap2 : Nat := 0
deriving DecidableEq, Repr

/-- The Gaffer beside its registers: sensor check state, dies standing at warn, whether a die stands at Wrap, dies whose sensors are lost, Wrap causes waiting
for the next boundary (oldest first), the Wrap in progress, the immediate shutdown in progress (cause, step, cycle of the last step), sensors at the hardware
threshold with a neighbour at the last sample, the instant at which the comparators fired, the end of the throttle grace, the last throttle step, since when no
die has stood at warn, the last report of each client, the temperature supplied to TB. Instants are those of the own clock. -/
structure Gaf where
  sens : Tbl Sensor := []
  warn : List Nat := []
  wrapStand : Bool := false
  lost : List Nat := []
  wrapReq : List Nat := []
  wrap : Option WrapRun := none
  immediate : Option (Nat × Nat × Nat) := none
  hwPrev : List Nat := []
  hwAt : Option Nat := none
  graceAt : Option Nat := none
  stepAt : Nat := 0
  calmAt : Option Nat := none
  reportAt : Tbl Nat := []
  refTemp : Int := 0
deriving DecidableEq, Repr

/-! ### Watch island, persistent store and service tag (chapter 19) -/

/-- A black-box record (Table 19.4), with the pages of its two copies once written and whether each copy still passes its checks. -/
structure BbRec where
  kind : Nat
  seq : Nat
  time : Nat
  ev0 : Item
  ev1 : Item
  context : List Word
  page0 : Nat := 0
  page1 : Nat := 0
  ok0 : Bool := true
  ok1 : Bool := true
deriving DecidableEq, Repr

/-- The watch island beside its registers: the RTC in ns with the own-clock instant of that value and of the last write by TB, the RTC second of the last
Daily instant reached, the instant until which the last Daily runs, the filter values y at 1/256 of a code of the channels that a Daily has set (R474), the wake
pins active now, the rules whose tone or pin has been active since their last evaluation (R476), the `WATCH` records in force, the watch log, a wake that QUIET
has not yet reported, an RTC lost in OFF that BOOT has not yet reported, the RTC correction and its instant (R478). -/
structure Wch where
  rtc : Nat := 0
  rtcAt : Nat := 0
  rtcSet : Option Nat := none
  daily : Option Nat := none
  busy : Nat := 0
  y : Tbl Int := []
  pins : Nat := 0
  seen : List Nat := []
  cfg : List Rec := []
  log : List BbRec := []
  wakePend : Bool := false
  rtcLost : Bool := false
  corr : Int := 0
  corrAt : Nat := 0
deriving DecidableEq, Repr

/-- A record of the persistent store (R480) in its newest generation: kind, key, generation, body, write time, the pages of its two
copies and whether each copy still passes its checks, and the body of the generation before it. -/
structure NvRec where
  kind : Nat
  key : Nat
  gen : Nat
  body : List Byte
  time : Nat
  page0 : Nat := 0
  page1 : Nat := 0
  ok0 : Bool := true
  ok1 : Bool := true
  prev : Option (List Byte) := none
deriving DecidableEq, Repr

/-- The wear record of a page (R482). -/
structure Page where
  cycles : Nat := 0
  pulses : List Nat := []
  warned : Bool := false
  remap : Option Nat := none
deriving DecidableEq, Repr

/-- What PST has waiting to write: a record of the store. -/
structure PstWrite where
  kind : Nat
  key : Nat
  body : List Byte
deriving DecidableEq, Repr

/-- The service tag: committed and shadow copies by page (512 bytes each), page generations, pages whose device commit waits (the own-clock instant from which
it may take place, whether it is the host's), whether the RF field is present, the instant of the last RF command, the RF write sequence (open, blocks written,
pages written), the quiet and selected states of the air interface, the event ring of pages 13 to 19, whether an event asks for a rewrite, the last rewrite. -/
structure Tag where
  committed : Tbl (List Byte) := []
  shadow : Tbl (List Byte) := []
  gens : Tbl Nat := []
  pend : Tbl (Nat × Bool) := []
  field : Bool := false
  lastRf : Nat := 0
  rfOpen : Bool := false
  rfBlocks : Nat := 0
  rfPages : List Nat := []
  quietSt : Bool := false
  selected : Bool := false
  ring : List (List Byte) := []
  dirty : Bool := false
  lastRefresh : Nat := 0
deriving DecidableEq, Repr

/-- The persistent store: records, writes waiting, wear by page, spares used and erases by region, samples of a region's erases (time, count) over the last 7
days, regions whose low spares are reported, the learned-value store read-only, black box written and waiting, its next number, records dropped since the last
loss marker, whether their event is raised, pages that have left the black-box ring, whether its end is reported, the events of
each severity from 3 on since reset. -/
structure Pst where
  recs : List NvRec := []
  writes : List PstWrite := []
  pages : Tbl Page := []
  sparesUsed : Tbl Nat := []
  erases : Tbl Nat := []
  hist : Tbl (List (Nat × Nat)) := []
  sparesLow : List Nat := []
  learnRo : Bool := false
  bb : List BbRec := []
  bbBuf : List BbRec := []
  bbNext : Nat := 0
  bbLost : Nat := 0
  bbDropEv : Bool := false
  bbPagesGone : Nat := 0
  bbFullEv : Bool := false
  sev : Tbl Nat := []
  tag : Tag := {}
deriving DecidableEq, Repr

/-- The instructions of the debug port (R507). -/
inductive JtagIns where
  | bypass | idcode | sample | extest | clamp | intest
deriving DecidableEq, Repr

/-- The debug port (R507): the instruction in force. -/
structure Jtag where
  ins : JtagIns := .bypass
deriving DecidableEq, Repr

/-- Supplies and input balls that commands report: VBAT, VAUX, main rails with `RESET_N` released, `DBG_EN`, `PWR_GOOD`. -/
structure Supply where
  vbat : Bool := false
  vaux : Bool := false
  rails : Bool := false
  dbgEn : Bool := false
  pwrGood : Bool := true
deriving DecidableEq, Repr

/-- The output balls: `READY`, `FAULT_N`, the trip outputs (bit k set: permissive), `THERM_ALERT_N`, `MAIN_EN_N`, `RST_OUT_N`. -/
structure Pins where
  ready : Bool := false
  faultN : Bool := true
  tripH : Nat := 0
  tripP : Nat := 0
  thermN : Bool := true
  mainEnN : Bool := true
  rstOutN : Bool := false
deriving DecidableEq, Repr


/-! ### Links (chapter 5) and cell sweeps (chapter 7) -/

/-- A scheduled node frame whose first accepted copy is held (R132): its cycle, address and type, the frame bytes without CRC, the port of the
first copy, whether the other rotation's copy has been accepted. -/
structure Held where
  cyc : Nat
  addr : Nat
  ntype : Nat
  bytes : List Byte
  port : Nat
  both : Bool
deriving DecidableEq, Repr

/-- A device frame waiting to be sent: type, destination, payload without `EPOCH`; the queue it came from, if any. -/
structure LCmd where
  typ : Nat
  dest : Nat
  pay : List Byte
  qid : Option Nat := none
deriving DecidableEq, Repr

/-- The content of a Take (R174): its number, re-sync, the poll range, the addresses that a re-sync Slate admits, an open-wire Take of the
whole ring or of the nodes of a follow-up, the BAL entries that take effect at its Slate (address, mask, Takes), the `TAKE` record that comes into force with it. -/
structure TakePlan where
  take : Nat
  resync : Bool
  rsAddr : Nat
  pollFirst : Nat
  pollCount : Nat
  admits : List Nat := []
  bals : List (Nat × Nat × Nat) := []
  owAll : Bool := false
  owNodes : List Nat := []
  newRec : Option Rec := none
deriving DecidableEq, Repr

/-- A ring's link state. -/
structure LRing where
  /-- Consecutive cycles without a return of the CYC of rotation 0 and 1, cycles with both back, the returns of the cycle in progress. -/
  loss0 : Nat := 0
  loss1 : Nat := 0
  back : Nat := 0
  seen : Nat := 0
  /-- Consecutive cycles with a loop delay above 31,000 ns; the loop delays last measured. -/
  long : Nat := 0
  held : List Held := []
  /-- Frames of recent cycles whose items are written: cycle, address, type. -/
  written : List (Nat × Nat × Nat) := []
  /-- Consecutive Takes without DATA, by address. -/
  miss : Tbl Nat := []
  /-- Last valid codes: DATA_V or DATA_I, temperatures, DATA_Q, by address. -/
  lastV : Tbl (List Int) := []
  lastT : Tbl (List Int) := []
  lastQ : Tbl Int := []
  /-- Enumeration: outcomes by address (1 MATCH, 2 REPLACED, 3 WRONG, 4 MISSING), EXTRA replies, the end of the enumeration in progress, whether an
  ENUM of `MODE` 2 is due. -/
  outc : Tbl Nat := []
  extra : Nat := 0
  enumEnd : Option Nat := none
  enumRun : Bool := false
  /-- Nodes waiting for admission. -/
  toAdmit : List Nat := []
  /-- Whether this device originates the ring, and whether it stops at the end of the cycle. -/
  orig : Bool := false
  stopAt : Bool := false
  /-- Whether the originator's stream is absent, so that this device originates from the next boundary (R383). -/
  absent : Bool := false
  /-- LNK's own frames, and those of SWP and the Gaffer, that wait. -/
  cmds : List LCmd := []
  /-- Cycles the head packet of a command queue has waited, and whether its overrun is reported. -/
  waited : Tbl (Nat × Bool) := []
  rr : Nat := 0
  /-- Replies expected: cycle, position, address, `TAG`. -/
  replies : List (Nat × Nat × Nat × Nat) := []
  /-- The content fixed for the next Take, the Take in progress with the cycle of its Slate, and the one before it. -/
  plan : Option TakePlan := none
  cur : Option (TakePlan × Nat) := none
  prev : Option (TakePlan × Nat) := none
  /-- A whole-ring re-sync is due at the next Slate. -/
  resync : Bool := false
  /-- The Take counter is set: the ring has had a Slate since entry to RUN, or has taken its counter from the partner (R150). -/
  counted : Bool := false
  /-- The ports stopped by `LNK_PORT_CTRL.ENABLE`, from the next boundary. -/
  stopped : Nat := 0
  /-- The mean hop delay of the last two-rotation measurement (R137), and whether the loop delays differ by more than 20 ns (R136). -/
  hop : Option Nat := none
  misaligned : Bool := false
  /-- The cycle that carried the assign-mode ENUM of an enumeration outside RUN whose confirm-mode ENUM is due. -/
  enumSent : Option Nat := none
  /-- After a cut-over that changes the schedule (Table 4.5): the `TAKE` record that waits for the end of the Take in progress, and the record of the Take before
  the one in progress where it was another. -/
  newTake : Option Rec := none
  prevTake : Option Rec := none
  /-- Nodes whose `E_MAX` has been asked for after the enumeration and is still outstanding (R377). -/
  emaxAsk : List Nat := []
deriving DecidableEq, Repr

/-- The links: rings, and the instants of the CRC failures of the last second by port. -/
structure Lnk where
  rings : Tbl LRing := []
  crcAt : Tbl (List Nat) := []
  /-- Nodes replaced since EST last looked (persistence trigger). -/
  replaced : List Nat := []
  /-- The cycle whose boundary was the last to be dealt with (R149), and the cycle whose PERMIT has left ahead of its window (R468). -/
  done : Option Nat := none
  permitK : Option Nat := none
  /-- The highest `E_MAX` read from register 0x0010 of any node (R377). -/
  emaxRead : Nat := 0
deriving DecidableEq, Repr

/-- A channel filter (R177 to R180): histories in sQ8.24, settling outputs left, whether it has had a valid code, the Take from which a reset waits for an input,
the last output, the held temperature code, whether iteration is stopped, the latest output's flags, the counts of R194, the Take of the last iteration. -/
structure Filt where
  u1 : Int := 0
  u2 : Int := 0
  y1 : Int := 0
  y2 : Int := 0
  settle : Nat := 0
  valid : Bool := false
  due : Option Nat := none
  out : Int := 0
  held : Int := 0
  stop : Bool := true
  oflags : Nat := 0
  bad : Nat := 0
  good : Nat := 0
  take : Nat := 0
deriving DecidableEq, Repr

/-- What SWP keeps of a node beside its registers: polls without STATUS, DATA reports, open-wire counts and attributes by tap, the Takes in which the
node is tested, raw items (code, flags) of the latest Takes, whether the node runs on `DELAY_EST`, the measurement Take's items (R196), the last
reports of the node. -/
structure SNode where
  missed : Nat := 0
  owCnt : Tbl Nat := []
  owAttr : Nat := 0
  follow : Option Nat := none
  tested : List Nat := []
  raws : List (Nat × List (Int × Nat)) := []
  estOn : Bool := false
  meas : List (Int × Nat) := []
deriving DecidableEq, Repr

/-- A container's balancing plan: cells (device channel, power in mW) in plan order. -/
structure BalPlan where
  cells : List (Nat × Nat) := []
deriving DecidableEq, Repr

/-- The cell sweep unit. -/
structure Swp where
  filt : Tbl Filt := []
  tfilt : Tbl Filt := []
  nodes : Tbl SNode := []
  plans : Tbl BalPlan := []
  quiet : Bool := false
  planAt : Nat := 0
  measCur : Tbl (List (Int × Nat)) := []
deriving DecidableEq, Repr

/-! ### Timebase (chapter 6) -/

/-- A PTP port: the last Sync (source time of its origin, device time of its arrival), the transmission instant of the last request, the data set of
the last Announce (`priority1`, `clockClass`, accuracy, variance, `priority2`, identity, steps removed). -/
structure PtpPort where
  sync : Option (Int × Int) := none
  req : Option Nat := none
  ann : Option (List Nat) := none
deriving DecidableEq, Repr

/-- The timebase beside its registers: ports; offsets being qualified by source kind (1 PTP, 2 `PPS_IN`), newest first, and the kinds qualified; the
grandmaster followed; consecutive offsets of 100 ns or less, and consecutive discards; the slew in progress (offset, own-clock instant of its start);
the step due for decision, and the one decided (m, residual, boundary cycle); whether a source was ever selected; the last 16 offsets; frequency
corrections of the last 64 s with their own-clock instants; what holdover started from (f0, T0), its bound in 10⁻⁴ ns, whether it met a gap;
temperatures of the minute; missing and off-time `PPS_IN` edges and the last edge's own-clock instant; peer device states by link; a follower's
pulses within and beyond ±25 ns, whether it aligns by TWTT and the instant of its last request; whether `REF_IN` runs; timebase steps applied since reset (R366). -/
structure Tb where
  ports : Tbl PtpPort := []
  hist : Tbl (List Int) := []
  qual : List Nat := []
  gm : Nat := 0
  good : Nat := 0
  disc : Nat := 0
  slew : Option (Int × Nat) := none
  stepReq : Option Int := none
  step : Option (Int × Int × Nat) := none
  ever : Bool := false
  offs : List Int := []
  freqs : List (Nat × Int) := []
  f0 : Int := 0
  t0 : Int := 0
  e : Nat := 0
  gap : Bool := false
  temps : List Int := []
  ppsMiss : Nat := 0
  ppsOff : Nat := 0
  peers : Tbl (Nat × Nat) := []
  near : Nat := 0
  far : Nat := 0
  twtt : Bool := false
  twttAt : Option Nat := none
  masterSrc : Nat := 0
  refOk : Bool := true
  steps : Nat := 0
deriving DecidableEq, Repr

/-! ### State estimation (chapter 9) -/

/-- What a tile has read of one Take: filtered and raw cell items by slot and current items by 16 × string + channel (code, flags), charge items by 32 ×
string + cycle of the Take. -/
structure TakeIn where
  vf : Tbl (Nat × Nat) := []
  raw : Tbl (Nat × Nat) := []
  cur : Tbl (Int × Nat) := []
  chg : Tbl (Int × Nat) := []
deriving DecidableEq, Repr

/-- A tile: the next Take to close, what it has read of open Takes, the latest temperature items by temperature slot, the combined node states it has
read, the whole seconds of the Take processed last, whether the Q_use range test of R259 is due. -/
structure Tile where
  next : Option Nat := none
  inbox : Tbl TakeIn := []
  temps : Tbl (Int × Nat) := []
  nodes : Tbl Nat := []
  sec : Option Nat := none
  retest : Bool := false
deriving DecidableEq, Repr

/-- A cell's sample of a recent Take: Take, raw code, raw flags, whether its filtered item is `SETTLING`, partner code. -/
structure ESample where
  take : Nat
  v : Int
  flags : Nat
  settling : Bool
  i : Int
deriving DecidableEq, Repr

/-- A polarisation observation (R252): its entry, di, v(b), the kept codes (n, code, usable). -/
structure Obs where
  e : Nat
  di : Int
  vb : Int
  kept : List (Nat × Int × Bool) := []
deriving DecidableEq, Repr

/-- A cell channel beside its registers: companion filter, its reset due, whether the last filtered item was `SETTLING`, the last partner code; remainder
of R238; flags of the last filtered item; the two latest samples; the observation; Takes without usable temperature; commands of `EST_CH_CTRL` waiting. -/
structure ECh where
  u1 : Int := 0
  u2 : Int := 0
  y1 : Int := 0
  y2 : Int := 0
  settling : Bool := false
  lastI : Int := 0
  rem : Nat := 0
  flags : Nat := 0x100
  hist : List ESample := []
  obs : Option Obs := none
  noTemp : Nat := 0
  cmd : Nat := 0
deriving DecidableEq, Repr

/-- A string: the latest steady Take with the sum of its current codes, the open observation (Take b, its sum, steady Takes since). -/
structure EStr where
  last : Option (Nat × Int) := none
  obs : Option (Nat × Int × Nat) := none
deriving DecidableEq, Repr

/-- The estimator: tiles by ring, channels, strings, rings whose Wrap snapshot is due. -/
structure Est where
  tiles : Tbl Tile := []
  ch : Tbl ECh := []
  str : Tbl EStr := []
  wrapSnap : List Nat := []
deriving DecidableEq, Repr

/-! ### Loop engine (chapter 10) -/

/-- An input item that waits for its window (R266): its queue, ts32, the Slate of its packet (its own ts32 for a signal item), value code, whether it
carries `SETTLING`. -/
structure LItem where
  qid : Nat
  ts : Nat
  grp : Nat
  v : Int
  settling : Bool
deriving DecidableEq, Repr

/-- A context beside its registers: items waiting, the instant of its last tick, the formula changes due at its next tick (first tick of a context), the
references last read, whether references are taken as 0 (R281), the tick's scheduling variables, commands of `LPE_CTX_CTRL` waiting, consecutive clear
ticks in HOLD, presences of measurements since LOSS was entered, the old image's K and KR of a carried context (R276), and the `EV_LPE_SAT_EXPIRED`
episode. -/
structure LCtx where
  items : List LItem := []
  last : Option Nat := none
  fresh : Bool := true
  refs : List Int := []
  wrapZero : Bool := false
  cmd : Nat := 0
  clear : Nat := 0
  seen : List Nat := []
  oldK : Option (List Int × List Int) := none
  expired : Bool := false
deriving DecidableEq, Repr

/-- The loop engine: contexts. -/
structure Lpe where
  ctx : Tbl LCtx := []
deriving DecidableEq, Repr
/-! ### Dispatch allocator (chapter 11) -/

/-- An accepted dispatch input: its source kind (0 frames, 1 CAN, 2 triads), its kind, value code, apply boundary (cycle), order of acceptance. -/
structure DInput where
  src : Nat
  kind : Nat
  value : Nat
  b : Nat
  ord : Nat
deriving DecidableEq, Repr

/-- An input as received, in the form of Table 11.3: producer, `KIND`, `FORMAT`, the four items, packet error, and whether it came over CAN. -/
structure DRaw where
  prod : Nat
  kind : Nat
  fmt : Nat
  items : List Nat
  err : Bool := false
deriving DecidableEq, Repr

/-- A headroom packet (Table 9.2), with its ts32 extended. -/
structure DHead where
  ts : Nat
  socMin : Nat
  socMax : Nat
  iChg : Nat
  iDis : Nat
  pChg : Nat
  pDis : Nat
deriving DecidableEq, Repr

/-- A string of the allocator: headroom packets waiting and in use; derate items and supervision records waiting (ts, value) and in force; the grace
timer in allocations left; the setpoint last written. -/
structure DStr where
  hrs : List DHead := []
  hr : Option DHead := none
  ders : List (Nat × Nat) := []
  der : Nat := 32768
  sups : List (Nat × Bool) := []
  sup : Bool := false
  grace : Option Nat := none
  v : Option Int := none
deriving DecidableEq, Repr

/-- The dispatch allocator beside its registers: last accepted sequence numbers (0 frames, else the producer); pending inputs; setpoints in force by
source and the frequency sample in force, each with its apply boundary; inputs of its own that wait for their mirrors, mirrors whose own copies have not
come, both with own-clock instants; p8; consecutive allocations with e = 0 or not; whether the frequency is lost; own-clock instants of accepted setpoints
by source; the last allocation's boundary; whether every output is due; the strings. -/
structure Dsp where
  seqs : Tbl Nat := []
  pend : List DInput := []
  force : Tbl (Nat × Nat) := []
  freq : Option (Nat × Nat) := none
  held : List (DRaw × Nat) := []
  early : List (DRaw × Nat) := []
  ord : Nat := 0
  p8 : Int := 0
  off : Nat := 0
  dead : Nat := 0
  freqLost : Bool := false
  accAt : Tbl Nat := []
  last : Option Nat := none
  all : Bool := false
  strs : Tbl DStr := []
deriving DecidableEq, Repr

/-! ### Tripwire (chapter 12) -/

/-- A pending weld check (R326): the instant the withdrawal entered the ring, and the two results so far. -/
structure Weld where
  at_ : Nat
  cur : Option Bool := none
  stat : Option Bool := none
deriving DecidableEq, Repr

/-- A string of the Tripwire beside its registers: nodes whose DATA and STATUS are evaluated since its admission window began, whether a heartbeat has
permitted it since, whether its admission is announced, cycles without a valid P entry with whether that is reported, a pending weld check, whether a
STATUS after a `WELD` latch showed open contactors, the greatest current magnitude of the last Take, `SFLAGS` of the last STATUS, the instant of its last
test pass, whether `EV_TRW_TEST_DUE` is raised, the Slate of its last Take of currents and whether every sample of it was valid, the Slate of its last STATUS. -/
structure TStr where
  data : List Nat := []
  stat : List Nat := []
  hb : Bool := false
  said : Bool := false
  stale : Nat := 0
  staleSaid : Bool := false
  weld : Option Weld := none
  weldOk : Bool := false
  cur : Nat := 0
  sfl : Nat := 0
  pass : Option Nat := none
  due : Bool := false
  curAt : Nat := 0
  curOk : Bool := false
  statAt : Nat := 0
deriving DecidableEq, Repr

/-- An accepted safety frame `SEQ` (R322): the ports it came on, the first copy, its own-clock instant, whether a second copy was compared, whether the
window has ended. -/
structure SfCopy where
  seq : Nat
  ports : List Nat
  bytes : List Byte
  at_ : Nat
  paired : Bool := false
  closed : Bool := false
deriving DecidableEq, Repr

/-- The Tripwire beside its registers: the levels it gives the H and P trip outputs before the gates, persistence counts (2^24 × kind + 2^12 × ring + slot
or string), undelivered frames in a row by node (STATUS at 2^13), frames taken lately (ring, cycle, address, type), strings, safety frames, the mask of
the latest heartbeat and its own-clock instant, the last accepted `SEQ` since entry to RUN, the `SEQ` of device status frames with the own-clock instant of
the last one, own-clock instants from which an output and its feedback differ, the running test (string, own-clock instant and device time of the step). -/
structure Trw where
  outH : Nat := 0
  outP : Nat := 0
  cnt : Tbl Nat := []
  miss : Tbl Nat := []
  taken : List (Nat × Nat × Nat × Nat) := []
  strs : Tbl TStr := []
  sfs : List SfCopy := []
  hbMask : List Byte := []
  hbAt : Nat := 0
  sfSeq : Option Nat := none
  txSeq : Nat := 0
  txAt : Option Nat := none
  fbAt : Tbl Nat := []
  test : Option (Nat × Nat × Nat) := none
deriving DecidableEq, Repr

/-! ### Triad complex and lanes (chapters 13 and 14) -/

/-- What a lane holds beside its memories (R352, Table 14.1): the program counter, g1 to g31, the special registers that are written (`STATUS` is
derived), the watch slots, the device time of its last TBR of sel 1 (R366), the cycle in which the WAIT it stands at was issued. -/
structure Core where
  pc : Word := 0#32
  g : Tbl Word := []
  flags : Nat := 0
  trapen : Nat := 0
  tvec : Word := 0#32
  epc : Word := 0#32
  cause : Nat := 0
  badaddr : Word := 0#32
  escratch : Word := 0#32
  inTrap : Bool := false
  wq : Tbl Word := []
  instret : Word := 0#32
  tbr : Option Nat := none
  wait : Option Nat := none
deriving DecidableEq, Repr

/-- A lane: its core, its TCMs by word, the breakpoints set in it, whether it is to halt again after one instruction, whether it passes the breakpoint at
its PC once (it has been resumed there). -/
structure Lane where
  core : Core := {}
  itcm : Tbl Word := []
  dtcm : Tbl Word := []
  bps : List Nat := []
  step : Bool := false
  skip : Bool := false
deriving DecidableEq, Repr

/-- Why lanes of a triad are in self-test (R340, R342, R344). -/
inductive TPhase where
  | idle | start | restart | readmit
deriving DecidableEq, Repr

/-- A triad beside its registers: its lanes (1 A, 2 B, 3 C), why lanes are in self-test, those still in it, those that have passed, the lane whose
re-admission is pending, the own-clock instants from which its watchdogs count, by unit (0 voted, 1 and 2 split lanes). -/
structure Triad where
  lanes : Tbl Lane := []
  phase : TPhase := .idle
  testing : List Nat := []
  passed : List Nat := []
  readmit : Option Nat := none
  kick : Tbl Nat := []
deriving DecidableEq, Repr

/-- The holder of the triad bus lock (R347): its requester code, the own-clock instant at which it took it, accesses under it. -/
structure BusLock where
  req : Nat
  at_ : Nat
  n : Nat := 0
deriving DecidableEq, Repr

/-- The triad complex: the triads, the bus lock, and the requesters whose lock has been revoked and who have not met that yet (R369). -/
structure Trd where
  tri : Tbl Triad := []
  lock : Option BusLock := none
  revoked : List Nat := []
deriving DecidableEq, Repr


/-! ### Stand-in manager (chapter 15) -/

/-- An acceptance entry whose frame's content this device still lacks (R386): ring, cycle, data position, address, type, whether only one copy was
accepted, the CRC of the accepted copy. -/
structure AccWant where
  ring : Nat
  cyc : Nat
  pos : Nat
  addr : Nat
  ntype : Nat
  dup : Bool
  crc : Nat
deriving DecidableEq, Repr

/-- The stand-in manager beside its registers: whether the actuating gates are open; the reservation base; the latest renewal instant with its path;
own-clock instant of entry to RUN; own-clock instants of the last PRESENCE by link and of the last one of an ACTIVE partner; whether the partner was lost,
whether device P in RUN was heard since entry to RUN, whether the partner is in step, whether it is tainted; the instant at which the gates open; the
pending switch: its boundary, its own-clock instant, whether it is this device's own request, whether it is acknowledged, its epoch, the Wrap cause that waits
for it (R390); snapshot: whether it is complete, parts received (index, Take, bytes), parts due to be sent; cycles of agreement and of difference, the cycle
compared last, own and partner's digests by cycle, event hold-off; acceptance entries without content, content without entry, frames accepted lately for
WANT (ring, cycle, position, bytes); missed frames; the next `SEQ` by peer frame type, copies accepted lately (sender, type, sequence, own-clock instant). -/
structure Sin where
  gates : Bool := false
  base : Nat := 0
  lease : Option (Nat × Nat) := none
  runAt : Nat := 0
  presAt : Tbl Nat := []
  activeAt : Option Nat := none
  lostP : Bool := false
  heardP : Bool := false
  pInstep : Bool := false
  pTaint : Bool := false
  actAt : Option Nat := none
  switchK : Option Nat := none
  switchAt : Nat := 0
  switchOwn : Bool := false
  acked : Bool := false
  switchEpoch : Nat := 0
  switchWrap : Option Nat := none
  snapDone : Bool := false
  parts : List (Nat × Nat × List Byte) := []
  snapDue : Bool := false
  agree : Nat := 0
  differ : Nat := 0
  lastCmp : Option Nat := none
  own : Tbl (Nat × Nat × Nat) := []
  theirs : Tbl (Nat × Nat × Nat) := []
  wants : List AccWant := []
  conts : List (Nat × Nat × Nat × List Byte) := []
  sent : List (Nat × Nat × Nat × List Byte) := []
  txSeq : Tbl Nat := []
  seen : List (Nat × Nat × Nat × Nat) := []
deriving DecidableEq, Repr

/-! ### Network ports (chapter 17) -/

/-- A MACsec association (R428, R429): its number, its key, and the packet number sent last, or the lowest acceptable on receipt. -/
structure MacSa where
  an : Nat
  key : List Byte
  pn : Nat := 1
deriving DecidableEq, Repr

/-- A network port beside its registers: its receive associations, its transmit association, the own-clock instants at which a key change moves
transmission and removes the old association, the end of a received PAUSE, the instant of its last frame, and frames that wait for the end of a PAUSE. -/
structure NetPort where
  rx : List MacSa := []
  tx : Option MacSa := none
  switchAt : Option Nat := none
  removeAt : Option Nat := none
  pauseTo : Nat := 0
  lastRx : Nat := 0
  held : List (Nat × List Byte) := []
deriving DecidableEq, Repr

/-- A PRP pair (R425, R426): the sequence number of its next frame, of its next supervision frame, the instant of its last supervision frame, and the
source nodes of the duplicate table with the sequence numbers seen and their instants. -/
structure PrpPair where
  seq : Nat := 0
  supSeq : Nat := 0
  supAt : Option Nat := none
  nodes : List (Nat × List (Nat × Nat)) := []
deriving DecidableEq, Repr

/-- An egress binding (R432, R433): the items gathered, the port, the instant of the first unit taken, whether units were discarded since the
datagram before. -/
structure Egress where
  items : List Item := []
  port : Nat := 0
  at_ : Nat := 0
  lost : Bool := false
deriving DecidableEq, Repr

structure Net where
  ports : Tbl NetPort := []
  pairs : Tbl PrpPair := []
  egress : Tbl Egress := []
deriving DecidableEq, Repr

/-! ### Field bus and plant I/O (chapter 17) -/

/-- A CAN controller beside its registers: the frame of the slot in progress that has not begun (slot flags, identifier, data), the slot and basic cycle
it belongs to; the slot records of the image before a cut-over, which stay in force until the next basic cycle 0. -/
structure CanCtl where
  frame : Option (Nat × Nat × List Byte) := none
  slot : Nat := 0
  cycle : Nat := 0
  sheet : Option (List Rec) := none
deriving DecidableEq, Repr

/-- A quadrature decoder beside its registers: filtered A, B and Z, and the pair (A, B) from which the next step is judged. -/
structure QDec where
  a : Bool := false
  b : Bool := false
  z : Bool := false
  refA : Bool := false
  refB : Bool := false
deriving DecidableEq, Repr

/-- A PWM channel beside its registers: the loop engine's duties that wait for a period start, with the instant from which each counts. -/
structure Pwm where
  duties : List (Nat × Nat) := []
deriving DecidableEq, Repr

structure Fld where
  cans : Tbl CanCtl := []
  qds : Tbl QDec := []
  pwms : Tbl Pwm := []
deriving DecidableEq, Repr

/-! ### The device -/

/-- What the device drives out while it executes one command: values returned to a requester, items popped, frames and ordered sets on
the rings, the peer links, Ethernet and CAN, interrupts, tag and JTAG answers. -/
inductive Out where
  /-- A register read: requester, offset, the word returned. -/
  | word (req off : Nat) (v : Word)
  /-- The status of an access (Table 16.6). -/
  | status (req st : Nat)
  /-- An item returned by a pop: requester, queue, item. -/
  | item (req qid : Nat) (it : Item)
  /-- A word of a doorbell read: requester, queue, word. -/
  | half (req qid : Nat) (v : Word)
  /-- A command frame into the ends of a ring: bit 0 port 2r, bit 1 port 2r + 1. -/
  | ring (ring ends : Nat) (frame : List Byte)
  /-- Ordered sets into a rotation of a ring: kind 0 the CYC set with its two octets, kind 1 the 16 LEASE sets of the cycle (R112, R117). -/
  | oset (ring rot kind : Nat) (octets : List Byte)
  /-- A wake tone on a port. -/
  | tone (port : Nat)
  /-- A frame on a peer link. -/
  | peer (link : Nat) (frame : List Byte)
  /-- A PTP message from a port: kind (0 Sync, 1 Announce, 2 Delay_Req, 3 Pdelay_Req, 4 Pdelay_Resp, 5 Delay_Resp, 6 management answer `NOT_SUPPORTED`), the time it
  carries, the data set it announces. -/
  | ptp (port kind time : Nat) (ds : List Nat)
  /-- A frame on an Ethernet port. -/
  | eth (port : Nat) (frame : List Byte)
  /-- A CAN frame: controller, slot flags, identifier, data. -/
  | can (ctrl flags id : Nat) (data : List Byte)
  /-- An MSI-X message: function, entry. -/
  | msix (func entry : Nat)
  /-- An answer of the service tag. -/
  | tag (bytes : List Byte)
  /-- A value shifted out of the debug port. -/
  | jtag (v : Nat)
  /-- The `SLATE_SYNC` pulse of the board time master. -/
  | slateSync
  /-- A balancing, PWM or GPIO change at an instant of the grid: kind, channel, value. -/
  | pin (kind ch value : Nat)
deriving DecidableEq, Repr

/-- The device: everything but the queue of waiting commands. -/
structure Dev where
  /-- Registers of the Control Window, by word offset; an unlisted word holds its reset value. -/
  regs : Tbl Word := []
  /-- The device state (Table 0.2). -/
  mode : DevState := .boot
  /-- State changes asked for by the command in progress, with the cause code of `EV_GLB_STATE`. -/
  stReq : List (DevState × Nat) := []
  /-- Device time N in ns (R47). -/
  now : Nat := 0
  /-- The device's own clock in ns since reset, which timebase steps do not affect (R514). -/
  own : Nat := 0
  /-- The model's own counter of free values taken (assumption log 2). -/
  free : Nat := 0
  /-- The next `SEQ` of each subsystem (R55). -/
  evSeq : Tbl Nat := []
  /-- Event hold-offs (R514): end of the hold-off and the occurrences since the last event, by event and instance. -/
  hold : Tbl (Nat × Nat) := []
  /-- What the last command executed drove out. -/
  out : List Out := []
  /-- What the Control Window and the fabric keep for each requester. -/
  reqs : Tbl Req := []
  /-- The running structure; none before the first build. -/
  reel : Option Reel := none
  qf : Qf := {}
  img : Img := {}
  host : HostIf := {}
  lnk : Lnk := {}
  tb : Tb := {}
  swp : Swp := {}
  est : Est := {}
  lpe : Lpe := {}
  dsp : Dsp := {}
  trw : Trw := {}
  trd : Trd := {}
  sin : Sin := {}
  net : Net := {}
  fld : Fld := {}
  gaf : Gaf := {}
  wch : Wch := {}
  pst : Pst := {}
  jtag : Jtag := {}
  supply : Supply := {}
  pins : Pins := {}
deriving DecidableEq, Repr

/-- The state of the block: the device, and the commands that wait, first in, first out. -/
structure State where
  dev : Dev
  pending : List Instr
deriving DecidableEq, Repr

/-- No command of this device stops the machine with a fault: what the spec calls a fault is an event, a refusal recorded in a register or a
change of device state, all of which are next states. The one constructor is raised by no command. Safe: nothing reaches it. -/
inductive Fault where
  | unreachable
deriving DecidableEq, Repr

/-- Why a command has no next state. -/
inductive Refusal where
  /-- A command without a meaning in this model, by its mnemonic; raised by an arm of `exec`. Safe: the machine stops. -/
  | notModelled (mnemonic : String)
deriving DecidableEq, Repr

/-- The state right after power-on reset (R4, Table 0.7): every register at its reset value, the device in BOOT with its supplies present,
every store, queue and table empty (assumption log 1). -/
def State.reset : State :=
  { dev := { supply := { vbat := true, vaux := true, rails := true } }, pending := [] }

end Sys2Proof.Machine
end

