-- ==== Sys2Proof/Machine/Reel.lean ====
section
/-!
DEFINITION. Machine/Reel.lean: reading the records of an image (chapter 3): one accessor for each field that the device uses, named
after the record and the field of Tables 3.5 to 3.17.
-/
namespace Sys2Proof.Machine

/-- An unsigned byte of a record. -/
def Rec.u8 (r : Rec) (o : Nat) : Nat := byteAt r.b o
/-- A 16-bit field of a record. -/
def Rec.u16 (r : Rec) (o : Nat) : Nat := le r.b o 2
/-- A 32-bit field of a record. -/
def Rec.u32 (r : Rec) (o : Nat) : Nat := le r.b o 4
/-- A signed 16-bit field of a record. -/
def Rec.s16 (r : Rec) (o : Nat) : Int := sx 16 (r.u16 o)
/-- A signed 32-bit field of a record. -/
def Rec.s32 (r : Rec) (o : Nat) : Int := sx 32 (r.u32 o)

/-! ### Section types (Table 3.4) -/

def secRealm : Nat := 1
def secRole : Nat := 2
def secRing : Nat := 3
def secTake : Nat := 4
def secFilter : Nat := 5
def secQueue : Nat := 6
def secRoute : Nat := 7
def secEvroute : Nat := 8
def secEstp : Nat := 9
def secLoop : Nat := 10
def secDisp : Nat := 11
def secTrip : Nat := 12
def secProg : Nat := 13
def secCall : Nat := 14
def secNet : Nat := 15
def secPio : Nat := 16
def secGaf : Nat := 17
def secWatch : Nat := 18
def secPersist : Nat := 19
def secSplice : Nat := 20

/-- The records of one type in one section, in record order. -/
def Reel.sel (r : Reel) (sec typ : Nat) : List Rec := r.recs.filter (fun x => x.sec == sec && x.typ == typ)

/-- The first record of a type that meets a condition. -/
def Reel.pick (r : Reel) (sec typ : Nat) (p : Rec → Bool) : Option Rec := (r.sel sec typ).find? p

/-- A record, or an empty one. -/
def Rec.orEmpty (o : Option Rec) : Rec := o.getD { sec := 0, typ := 0, idx := 0, b := [] }

/-! ### Header (Table 3.2) -/

def Reel.imageId (r : Reel) : Nat := le r.hdr 8 8
def Reel.contClass (r : Reel) : Nat := le r.hdr 20 4
def Reel.secVer (r : Reel) : Nat := byteAt r.hdr 24
def Reel.keySlot (r : Reel) : Nat := byteAt r.hdr 25
def Reel.sealed (r : Reel) : Bool := bitAt (le r.hdr 26 2) 0
def Reel.startHost (r : Reel) : Bool := bitAt (le r.hdr 26 2) 1
def Reel.part (r : Reel) : Nat := le r.hdr 44 4

/-! ### Roles (Table 3.6) -/

def Reel.role (r : Reel) : Rec := Rec.orEmpty ((r.sel secRole 1).head?)
def Reel.config (r : Reel) : Nat := r.role.u8 8
def Reel.devAddr (r : Reel) : Nat := r.role.u8 9
def Reel.peerMask (r : Reel) : Nat := r.role.u8 10
def Reel.pairId (r : Reel) : Nat := r.role.u32 12

/-! ### Rings and nodes (Table 3.7) -/

def Reel.ringRec (r : Reel) (ring : Nat) : Option Rec := r.pick secRing 1 (fun x => x.u8 8 == ring)
def Reel.present (r : Reel) (ring : Nat) : Bool := match r.ringRec ring with
  | some x => x.u8 9 == 1
  | none => false
def Reel.rings (r : Reel) : List Nat := (List.range 64).filter r.present
def Reel.ringNodes (r : Reel) (ring : Nat) : Nat := (Rec.orEmpty (r.ringRec ring)).u8 10
def Reel.seg1 (r : Reel) (ring : Nat) : Nat := (Rec.orEmpty (r.ringRec ring)).u8 11
def Reel.cellCh (r : Reel) (ring : Nat) : Nat := (Rec.orEmpty (r.ringRec ring)).u16 12
def Reel.tempCh (r : Reel) (ring : Nat) : Nat := (Rec.orEmpty (r.ringRec ring)).u16 14
def Reel.strings (r : Reel) (ring : Nat) : Nat := (Rec.orEmpty (r.ringRec ring)).u8 16
def Reel.nodes (r : Reel) (ring : Nat) : List Rec := (r.sel secRing 2).filter (fun x => x.u8 8 == ring)
def Reel.node (r : Reel) (ring addr : Nat) : Option Rec := r.pick secRing 2 (fun x => x.u8 8 == ring && x.u8 9 == addr)
def Rec.ndRing (n : Rec) : Nat := n.u8 8
def Rec.ndAddr (n : Rec) : Nat := n.u8 9
def Rec.ndKind (n : Rec) : Nat := n.u8 10
def Rec.ndString (n : Rec) : Nat := n.u16 12
def Rec.ndFirstCell (n : Rec) : Nat := n.u16 14
def Rec.ndCellMask (n : Rec) : Nat := n.u16 16
def Rec.ndTempMask (n : Rec) : Nat := n.u8 18
def Rec.ndCellBase (n : Rec) : Nat := n.u16 20
def Rec.ndTempBase (n : Rec) : Nat := n.u16 22
def Rec.ndUid (n : Rec) : Nat := le n.b 24 8
def Reel.cellNodes (r : Reel) (ring : Nat) : List Rec := (r.nodes ring).filter (fun x => x.ndKind == 1)
def Reel.heads (r : Reel) (ring : Nat) : List Rec := (r.nodes ring).filter (fun x => x.ndKind == 2)
def Reel.allHeads (r : Reel) : List Rec := r.rings.flatMap r.heads
/-- The head of a device string. -/
def Reel.headOf (r : Reel) (str : Nat) : Option Rec := r.allHeads.find? (fun x => x.ndString == str)
/-- The device strings that have a head, ascending. -/
def Reel.allStrings (r : Reel) : List Nat := sortBy (fun a b => decide (a ≤ b)) (r.allHeads.map Rec.ndString)
/-- The ring of a device string. -/
def Reel.ringOf (r : Reel) (str : Nat) : Option Nat := (r.headOf str).map Rec.ndRing
/-- The cell nodes of a device string. -/
def Reel.cellNodesOf (r : Reel) (str : Nat) : List Rec := match r.ringOf str with
  | some g => (r.cellNodes g).filter (fun x => x.ndString == str)
  | none => []
/-- The cell slots of a node, ascending by channel. -/
def Rec.cellSlots (n : Rec) : List Nat := (setBits n.ndCellMask 16).map (fun j => n.ndCellBase + j)
/-- The temperature slots of a node. -/
def Rec.tempSlots (n : Rec) : List Nat := (setBits n.ndTempMask 8).map (fun j => n.ndTempBase + j)
/-- The node that holds a cell slot of a ring, and the channel of the slot in it. -/
def Reel.cellAt (r : Reel) (ring slot : Nat) : Option (Rec × Nat) :=
  ((r.cellNodes ring).find? (fun n => decide (n.ndCellBase ≤ slot) && decide (slot < n.ndCellBase + 16)
    && bitAt n.ndCellMask (slot - n.ndCellBase))).map (fun n => (n, slot - n.ndCellBase))

/-! ### Takes and filters (Tables 3.8, 3.9) -/

def Reel.takeRec (r : Reel) (ring : Nat) : Rec := Rec.orEmpty (r.pick secTake 1 (fun x => x.u8 8 == ring))
/-- The structure with another `TAKE` record for the ring that the record names. -/
def Reel.withTake (r : Reel) (x : Rec) : Reel :=
  { r with recs := r.recs.map (fun y => if y.sec == secTake && y.typ == 1 && y.u8 8 == x.u8 8 then x else y) }
def Reel.rate (r : Reel) (ring : Nat) : Nat := (r.takeRec ring).u8 9
/-- Cycles per Take: 32, 16, 8 or 4. -/
def cyclesPerTake (rate : Nat) : Nat := 32 / 2 ^ rate
def Reel.cpt (r : Reel) (ring : Nat) : Nat := cyclesPerTake (r.rate ring)
/-- Takes per second of a rate code. -/
def takesPerSec (rate : Nat) : Nat := 250 * 2 ^ rate
def Reel.phase (r : Reel) (ring : Nat) : Nat := (r.takeRec ring).u8 10
/-- The filter corner code of a slot: the `FILTER` record that names it, else 1 (10 Hz). -/
def Reel.corner (r : Reel) (ring kind slot : Nat) : Nat :=
  match r.pick secFilter 1 (fun x => x.u8 8 == ring && x.u8 9 == kind && decide (x.u16 12 ≤ slot) && decide (slot < x.u16 12 + x.u16 14)) with
  | some x => x.u8 10
  | none => 1

/-! ### Realms (R67, Table 3.5) -/

/-- Whether a `REALM` record names an element. -/
def realmNames (x : Rec) (kind el : Nat) : Bool :=
  x.u8 8 == kind && decide (x.u32 12 ≤ el) && decide (el < x.u32 12 + x.u32 16)
/-- The realm of an element of a kind, protected or not: its own record, else the record of its subsystem, else open; R21 overrides. -/
def Reel.realmOf (r : Reel) (kind el subsys : Nat) : Bool :=
  if (kind = 3 ∧ el = 0) ∨ (kind = 1 ∧ (el = 1 ∨ el = 9 ∨ el = 11)) then true
  else match r.pick secRealm 1 (fun x => realmNames x kind el) with
    | some x => x.u8 9 == 1
    | none =>
      if kind = 1 ∨ kind = 2 then false
      else match r.pick secRealm 1 (fun x => realmNames x 1 subsys) with
        | some x => x.u8 9 == 1
        | none => false

/-! ### Queues and routes (Tables 3.10, 3.11) -/

def Reel.queueGlobal (r : Reel) : Rec := Rec.orEmpty ((r.sel secQueue 1).head?)
def Reel.queueRecs (r : Reel) : List Rec := r.sel secQueue 2
def Rec.qid (q : Rec) : Nat := q.u32 8
def Rec.qdepth (q : Rec) : Nat := q.u32 12
def policyOf (c : Nat) : Policy := if c = 0 then .block else if c = 1 then .dropNew else .overwrite
/-- The definition of a queue that the fabric builds from a `QUEUE` record. -/
def Reel.qdef (r : Reel) (q : Rec) : QDef :=
  { depth := q.qdepth, policy := policyOf (q.u8 16), cls := q.u8 17, producer := q.u16 18, consumer := q.u16 20,
    wmHigh := q.u16 22, carry := q.u32 24, prot := r.realmOf 2 q.qid 5,
    openRead := match r.pick secRealm 1 (fun x => realmNames x 2 q.qid) with
      | some x => bitAt (x.u16 10) 0
      | none => false }
/-- The queues bound to a stream of a source (R73). -/
def Reel.routes (r : Reel) (source stream : Nat) : List Nat :=
  ((r.sel secRoute 1).filter (fun x => x.u16 8 == source && x.u16 10 == stream)).map (fun x => x.u32 12)

/-! ### ESTP and TRIP (Tables 3.12, 3.15) -/

def Reel.estSet (r : Reel) (ch : Nat) : Nat :=
  (Rec.orEmpty (r.pick secEstp 2 (fun x => decide (x.u32 8 ≤ ch) && decide (ch < x.u32 8 + x.u32 12)))).u8 16
def Reel.estPar (r : Reel) (set : Nat) : Rec := Rec.orEmpty (r.pick secEstp 1 (fun x => x.u8 8 == set))
def Reel.tripSetOf (r : Reel) (kind ring el : Nat) : Nat :=
  (Rec.orEmpty (r.pick secTrip 2 (fun x => x.u8 9 == kind && (kind == 2 || x.u8 8 == ring)
    && decide (x.u16 12 ≤ el) && decide (el < x.u16 12 + x.u16 14)))).u8 10
def Reel.tripSet (r : Reel) (set : Nat) : Rec := Rec.orEmpty (r.pick secTrip 1 (fun x => x.u8 8 == set))

/-! ### Loops, dispatch, programs (Tables 3.13, 3.14, R80) -/

def Reel.loopRec (r : Reel) (c typ : Nat) : Option Rec := r.pick secLoop typ (fun x => x.u16 8 == c)
def Reel.loops (r : Reel) : List Nat := (r.sel secLoop 1).map (fun x => x.u16 8)
def Reel.disp (r : Reel) : Option Rec := (r.sel secDisp 1).head?
def Reel.dispStr (r : Reel) (str : Nat) : Option Rec := r.pick secDisp 2 (fun x => x.u16 8 == str)
def Reel.prog (r : Reel) (triad lane : Nat) : Option Rec := r.pick secProg 1 (fun x => x.u8 8 == triad && x.u8 9 == lane)
/-- Whether a triad runs voted, runs split, or is not started. -/
def Reel.voted (r : Reel) (triad : Nat) : Bool := (r.prog triad 0).isSome
def Reel.split (r : Reel) (triad : Nat) : Bool := !r.voted triad && ((r.prog triad 1).isSome || (r.prog triad 2).isSome)

/-! ### Plant interfaces, budgets and persistence (Tables 3.16, 3.17) -/

def Reel.net (r : Reel) (port : Nat) : Option Rec := r.pick secNet 1 (fun x => x.u8 8 == port)
def Reel.can (r : Reel) (ctrl : Nat) : Option Rec := r.pick secCall 1 (fun x => x.u8 8 == ctrl)
def Reel.gaf (r : Reel) : Rec := Rec.orEmpty ((r.sel secGaf 1).head?)
def Reel.persist (r : Reel) : Rec := Rec.orEmpty ((r.sel secPersist 1).head?)
def Reel.splice (r : Reel) : Rec := Rec.orEmpty ((r.sel secSplice 1).head?)

/-! ### The running structure -/

/-- The records of the running structure. -/
def Dev.recs (d : Dev) (sec typ : Nat) : List Rec := match d.reel with
  | some r => r.sel sec typ
  | none => []
/-- The running structure, or an empty one. -/
def Dev.rl (d : Dev) : Reel := d.reel.getD { hdr := [], recs := [] }

end Sys2Proof.Machine
end

