-- ==== Sys2Proof/Machine/Ops.lean ====
section
/-!
DEFINITION. Machine/Ops.lean: the operations every subsystem shares. Registers (R13 to R15), the clock (R47 to R53, R514), events with their
routing, black box and hold-offs (R54 to R57, R74, R484, R514), writes of engines and wire sources into the queue fabric (R211 to R225), and
the device state machine (R26, R27, Table 1.3).
-/
namespace Sys2Proof.Machine

/-! ### Registers -/

/-- The word at an offset as it is held. -/
def Dev.word (d : Dev) (off : Nat) : Word := d.regs.get off (resetWord off)

/-- Writes the word at an offset. -/
def Dev.setWord (d : Dev) (off : Nat) (w : Word) : Dev := { d with regs := d.regs.set off w (resetWord off) }

/-- The value of element (i, j) of a field. -/
def Dev.rd (d : Dev) (f : Field) (i : Nat := 0) (j : Nat := 0) : Nat := bitsOf (d.word (f.addr i j)).toNat f.lo f.width

/-- The value of a field as a signed code. -/
def Dev.rdI (d : Dev) (f : Field) (i : Nat := 0) (j : Nat := 0) : Int := sx f.width (d.rd f i j)

/-- Whether a one-bit field is set. -/
def Dev.on (d : Dev) (f : Field) (i : Nat := 0) (j : Nat := 0) : Bool := d.rd f i j == 1

/-- Writes element (i, j) of a field. -/
def Dev.wr (d : Dev) (f : Field) (v : Nat) (i : Nat := 0) (j : Nat := 0) : Dev :=
  let a := f.addr i j
  d.setWord a (putField (d.word a) f.lo f.width v)

/-- Writes a signed value into a field. -/
def Dev.wrI (d : Dev) (f : Field) (v : Int) (i : Nat := 0) (j : Nat := 0) : Dev := d.wr f (code f.width v) i j

/-- Sets a one-bit field. -/
def Dev.set1 (d : Dev) (f : Field) (i : Nat := 0) (j : Nat := 0) : Dev := d.wr f 1 i j

/-- Clears a field. -/
def Dev.clr (d : Dev) (f : Field) (i : Nat := 0) (j : Nat := 0) : Dev := d.wr f 0 i j

/-- Adds to a saturating counter field. -/
def Dev.bump (d : Dev) (f : Field) (n : Nat := 1) (i : Nat := 0) (j : Nat := 0) : Dev :=
  d.wr f (satAdd f.width (d.rd f i j) n) i j

/-- Adds to a counter field that wraps. -/
def Dev.bumpMod (d : Dev) (f : Field) (n : Nat := 1) (i : Nat := 0) (j : Nat := 0) : Dev := d.wr f (d.rd f i j + n) i j

/-- A value of two words, the low word at the first field. -/
def Dev.rd2 (d : Dev) (lo hi : Field) (i : Nat := 0) : Nat := d.rd lo i + d.rd hi i * 2 ^ lo.width

/-- Writes a value of two words. -/
def Dev.wr2 (d : Dev) (lo hi : Field) (v : Nat) (i : Nat := 0) : Dev := (d.wr lo v i).wr hi (v / 2 ^ lo.width) i

/-! ### Outputs, free values -/

/-- Adds to what the command drives out. -/
def Dev.emit (d : Dev) (o : Out) : Dev := { d with out := d.out ++ [o] }

/-- A free value (assumption log 2), as a number below 2^64. -/
def Dev.fresh (d : Dev) : Dev × Nat := ({ d with free := d.free + 1 }, (Config.freeValue d.free).toNat)

/-! ### The running structure seen by every subsystem -/

/-- The cycle number K (chapter 6). -/
def Dev.cyc (d : Dev) : Nat := cycleOf d.now

/-- The realm of a subsystem. -/
def Dev.subRealm (d : Dev) (id : Nat) : Bool := d.rl.realmOf 1 id id

/-- Whether the device is in RUN or WRAP. -/
def Dev.live (d : Dev) : Bool := d.mode == .run || d.mode == .wrap

/-! ### The fabric as engines and wire sources see it -/

/-- A packet written item by item by one producer (R216 to R218): OPEN, appends, CLOSE. -/
def Queue.putPacket (q : Queue) (head : Item) (items : List Item) (err : Bool) : QRes :=
  if q.qd.policy = .block ∧ q.level + items.length + 1 > q.qd.depth then { q := q, st := 0x24 }
  else
    let r0 := q.openPkt 0
    let r1 := items.foldl (fun (a : QRes) it =>
      match a.q.openp with
      | some p =>
        let r := a.q.append p it
        { q := r.q, st := 0, notes := a.notes ++ r.notes, drops := a.drops + r.drops, overs := a.overs + r.overs }
      | none => a) { r0 with st := 0 }
    match r1.q.openp with
    | some p => { r1 with q := (r1.q.closePkt p head err).q }
    | none => r1

/-- Writes a unit as a producer that is an engine or a wire source. -/
def Queue.putWhole (q : Queue) (u : QUnit) : QRes :=
  match u with
  | .pkt h l => q.putPacket h l (itemErr h)
  | u => q.putUnit u

/-! ### Events -/

/-- The offset at which the region of a subsystem starts (Table 16.1). -/
def regionBase (id : Nat) : Nat :=
  match id with
  | 0 => 0 | 1 => 0x10000 | 2 => 0x100000 | 3 => 0x20000 | 4 => 0x180000 | 5 => 0x1000000 | 6 => 0x10000000
  | 7 => 0x200000 | 8 => 0x80000 | 9 => 0x70000 | 10 => 0x400000 | 11 => 0x60000 | 12 => 0x90000 | 13 => 0xA0000
  | 14 => 0x30000 | 15 => 0x40000 | _ => 0x50000

/-- The two items of an event record (Table 2.10). -/
def eventItems (ts : Nat) (e : Ev) (realm : Bool) (seq inst data : Nat) : Item × Item :=
  (BitVec.ofNat 64 (8 * 2 ^ 60 + ts % 2 ^ 32 * 2 ^ 28 + e.code % 2 ^ 16 * 2 ^ 12 + e.sev * 2 ^ 9 + b2n realm * 2 ^ 8 + seq % 256),
   BitVec.ofNat 64 (10 * 2 ^ 60 + inst % 2 ^ 20 * 2 ^ 40 + data % 2 ^ 40))

/-- Whether an `EVROUTE` record matches an event (R74). -/
def evMatches (x : Rec) (e : Ev) : Bool :=
  (e.code &&& x.u16 10) == (x.u16 8 &&& x.u16 10) && decide (x.u8 12 ≤ e.sev)

/-- The queues an event is written to (R74). -/
def Dev.evQueues (d : Dev) (e : Ev) : List Nat :=
  match d.reel with
  | none => []
  | some r =>
    let ms := (r.sel secEvroute 1).filter (fun x => evMatches x e)
    if ms.isEmpty then (let q := r.queueGlobal.u32 12; if q = 0xFFFFF then [] else [q])
    else (ms.map (fun x => x.u32 16)).dedup

/-- The words of a region that a black-box record keeps (Table 19.4). -/
def Dev.bbContext (d : Dev) (id : Nat) : List Word := (List.range 54).map (fun k => d.word (regionBase id + 4 * k))

/-- Appends a record to the black-box buffer (R484, R485): `none` when the buffer is full. -/
def Dev.bbPut (d : Dev) (kind : Nat) (ev : Item × Item) (ctx : List Word) : Option Dev :=
  if d.pst.bbBuf.length ≥ 4096 then none
  else
    let r : BbRec := { kind := kind, seq := d.pst.bbNext, time := d.now, ev0 := ev.1, ev1 := ev.2, context := ctx }
    some { d with pst := { d.pst with bbBuf := d.pst.bbBuf ++ [r], bbNext := d.pst.bbNext + 1 } }

/-- Stores what an operation did to a queue and its counters (Table 8.13). -/
def Dev.setQueue (d : Dev) (qid : Nat) (r : QRes) : Dev :=
  let d := { d with qf := { d.qf with qs := d.qf.qs.ins qid r.q } }
  let d := if r.drops = 0 then d else d.bump Reg.QF_CNT_DROP_CNT r.drops
  let d := if r.overs = 0 then d else d.bump Reg.QF_CNT_OVERWRITE_CNT r.overs
  if r.cuts = 0 then d else d.bump Reg.QF_CNT_CUT_CNT r.cuts

/-- The code of a device state in `GLB_STATUS.STATE` (Table 16.8); 0 for the states in which the main dies have no supply. -/
def DevState.stateCode : DevState → Nat
  | .boot => 1 | .dark => 2 | .quiet => 3 | .run => 4 | .wrap => 5 | .halt => 6 | _ => 0

/-- The RTC as it reads, at its resolution of 30.5 µs (R478). -/
def Dev.rtcNow (d : Dev) : Nat :=
  (d.wch.rtc + (d.own - d.wch.rtcAt)) * 32768 / 1000000000 * 1000000000 / 32768

/-- Whether the main dies run (Table 1.3: BOOT to HALT). -/
def Dev.mainOn (d : Dev) : Bool := d.mode.stateCode != 0

/-- Appends a record to the watch log of 64 records (R477), and whether the record is the first to overwrite one since `OVERFLOW` was read. -/
def Dev.logPut (d : Dev) (r : BbRec) : Dev × Bool :=
  if d.wch.log.length < 64 then
    let d := { d with wch := { d.wch with log := d.wch.log ++ [r] } }
    (d.wr Reg.WCH_LOG_COUNT d.wch.log.length, false)
  else
    let first := d.rd Reg.WCH_LOG_OVERFLOW == 0
    (({ d with wch := { d.wch with log := d.wch.log.drop 1 ++ [r] } }).bump Reg.WCH_LOG_OVERFLOW, first)

/-- An entry of the tag's event ring (Table 19.6, pages 13 to 19). -/
def tagEntry (e : Ev) (sec inst data : Nat) : List Byte := toLe e.code 2 ++ [BitVec.ofNat 8 e.sev, 0#8] ++ toLe sec 4 ++ toLe inst 4 ++ toLe data 4

/-- Whether an event goes to the black box (R484): severity 2 or higher, which covers every Tripwire latch,
timebase step and debug halt, and every Tripwire reset. -/
def recorded (e : Ev) : Bool := decide (2 ≤ e.sev) || e == Ev.TRW_RESET

/-- Numbers an event: the next `SEQ` of its subsystem (R55). -/
def Dev.takeSeq (d : Dev) (id : Nat) : Dev := { d with evSeq := d.evSeq.ins id ((d.evSeq.get id 0 + 1) % 256) }

/-- How the operations that store an event raise the events that this gives rise to. -/
abbrev Raiser := Dev → Ev → Bool → Nat → Nat → Nat → Dev

/-- Appends a record to the watch log; the first to overwrite one raises its event (R477). -/
def Dev.logEvent (again : Raiser) (ts : Nat) (d : Dev) (r : BbRec) : Dev :=
  let p := d.logPut r
  if p.2 then again p.1 Ev.WCH_LOG_OVERFLOW (p.1.subRealm 15) ts 0 1 else p.1

/-- Raises what the fabric reports of a queue. -/
def Dev.noteQueue (again : Raiser) (ts qid : Nat) (d : Dev) (n : QNote) : Dev :=
  match n with
  | .watermark l c => again d Ev.QF_WATERMARK (d.subRealm 5) ts qid (l % 2 ^ 21 + c % 256 * 2 ^ 32)
  | .loss k m => again d Ev.QF_LOSS (d.subRealm 5) ts qid (k + min m (2 ^ 24 - 1) * 2 ^ 8)

/-- Writes an event record to a queue (R74). -/
def Dev.evToQueue (again : Raiser) (ts : Nat) (ev : Item × Item) (d : Dev) (qid : Nat) : Dev :=
  match d.qf.qs.find qid with
  | none => d
  | some q =>
    let r := q.putUnit (.ev ev.1 ev.2)
    r.notes.foldl (Dev.noteQueue again ts qid) (d.setQueue qid r)

/-- Writes an event record to the black box (R484), and its mirror to the watch log from severity 3 (R477). -/
def Dev.evToBox (again : Raiser) (ts : Nat) (e : Ev) (ev : Item × Item) (d : Dev) : Dev :=
  if recorded e then
    match d.bbPut 1 ev (d.bbContext e.id) with
    | some d' =>
      if 3 ≤ e.sev then
        Dev.logEvent again ts d' { kind := 1, seq := d.pst.bbNext, time := d.now, ev0 := ev.1, ev1 := ev.2, context := d.bbContext e.id }
      else d'
    | none =>
      let x := { (d.bump Reg.PST_BB_DROPPED_CNT) with pst := { d.pst with bbLost := d.pst.bbLost + 1 } }
      if x.pst.bbDropEv then x
      else again { x with pst := { x.pst with bbDropEv := true } } Ev.PST_BB_DROPPED (x.subRealm 16) ts 0 1
  else d

/-- Writes an event into the tag's event ring from severity 2 (R489). -/
def Dev.evToTag (e : Ev) (inst data : Nat) (d : Dev) : Dev :=
  if 2 ≤ e.sev then
    { d with pst := { d.pst with tag := { d.pst.tag with
      ring := (d.pst.tag.ring ++ [tagEntry e (d.now / 1000000000) inst data]).drop (d.pst.tag.ring.length + 1 - 217)
      dirty := d.pst.tag.dirty || (e.id == 9 && e.sev == 4) } } }
  else d

/-- Counts an event of severity 3 or higher. -/
def Dev.evCount (e : Ev) (d : Dev) : Dev :=
  if 3 ≤ e.sev then { d with pst := { d.pst with sev := d.pst.sev.ins e.sev (d.pst.sev.get e.sev 0 + 1) } } else d

/-- A fatal event asks for HALT (R54); the two events of an immediate shutdown leave HALT to the end of its sequence (R468). -/
def Dev.evFatal (e : Ev) (d : Dev) : Dev :=
  if e.sev = 5 ∧ !(d.gaf.immediate.isSome && (e == Ev.GAF_IMMEDIATE || e == Ev.GAF_TEMP_SHUTDOWN)) then { d with stReq := d.stReq ++ [(.halt, 7)] } else d

/-- The record of an event while the main dies are off: in the watch log alone (R477). -/
def Dev.evToWatch (again : Raiser) (e : Ev) (realm : Bool) (ts seq inst data : Nat) (d : Dev) : Dev :=
  let ev := eventItems (ts32 d.rtcNow) e realm seq inst data
  Dev.logEvent again ts { d with pst := { d.pst with bbNext := d.pst.bbNext + 1 } }
    { kind := 3, seq := d.pst.bbNext, time := d.rtcNow, ev0 := ev.1, ev1 := ev.2, context := [] }

/-- Stores an event while the main dies run. -/
def Dev.evStore (again : Raiser) (e : Ev) (realm : Bool) (ts seq inst data : Nat) (d : Dev) : Dev :=
  let ev := eventItems ts e realm seq inst data
  Dev.evFatal e (Dev.evCount e (Dev.evToTag e inst data (Dev.evToBox again ts e ev ((d.evQueues e).foldl (Dev.evToQueue again ts ev) d))))

/-- Raises an event (R54 to R57): numbers it, writes it to its queues, to the black box (R484), to the tag's event ring, and asks for HALT when it is fatal.
`fuel` bounds the events that the fabric raises while it stores events: each sets a status bit of a queue that was clear. -/
def Dev.raiseF (fuel : Nat) (d : Dev) (e : Ev) (realm : Bool) (ts inst data : Nat) : Dev :=
  match fuel with
  | 0 => d
  | fuel + 1 =>
    let x := d.takeSeq e.id
    if x.mode = .off then x
    else if x.mainOn then x.evStore (Dev.raiseF fuel) e realm ts (d.evSeq.get e.id 0) inst data
    else x.evToWatch (Dev.raiseF fuel) e realm ts (d.evSeq.get e.id 0) inst data

/-- Raises an event of an element of a given realm, at an instant. -/
def Dev.raiseAt (d : Dev) (e : Ev) (realm : Bool) (ts inst data : Nat) : Dev :=
  Dev.raiseF (2 * d.qf.qs.length + 6) d e realm (ts32 ts) inst data

/-- Raises an event of a subsystem at the present instant. -/
def Dev.raise (d : Dev) (e : Ev) (inst data : Nat) : Dev := d.raiseAt e (d.subRealm e.id) d.now inst data

/-- Raises an event at most once per interval of the device's own clock for an instance (R514); `data` is given the count of occurrences
since the previous event of that kind and instance. -/
def Dev.raiseHeld (d : Dev) (e : Ev) (key ival inst : Nat) (data : Nat → Nat) : Dev :=
  let k := e.code * 2 ^ 24 + key
  let (u, n) := d.hold.get k (0, 0)
  if d.own < u then { d with hold := d.hold.ins k (u, n + 1) }
  else ({ d with hold := d.hold.ins k (d.own + ival, 0) }).raise e inst (data (n + 1))

/-- One second and one minute in ns. -/
def oneSec : Nat := 1000000000
def oneMin : Nat := 60000000000

/-! ### Writing into the fabric -/

/-- Stores the outcome of an operation on a queue, and raises what it gave rise to. -/
def Dev.applyRes (d : Dev) (qid : Nat) (r : QRes) : Dev :=
  r.notes.foldl (fun (d : Dev) n =>
    match n with
    | .watermark l c => d.raise Ev.QF_WATERMARK qid (l % 2 ^ 21 + c % 256 * 2 ^ 32)
    | .loss k m => d.raise Ev.QF_LOSS qid (k + min m (2 ^ 24 - 1) * 2 ^ 8)) (d.setQueue qid r)

/-- Whether a BLOCK queue has room for a unit that is written whole. -/
def Queue.roomFor (q : Queue) (n : Nat) : Bool := q.qd.policy ≠ .block || decide (q.level + n ≤ q.qd.depth)

/-- Whether every queue of a list has room for a unit, as far as a producer must wait for it (R225). -/
def Dev.allRoom (d : Dev) (qids : List Nat) (n : Nat) : Bool :=
  qids.all (fun q => match d.qf.qs.find q with
    | some x => x.roomFor n
    | none => true)

/-- Stores a unit into every queue of a list (R225). -/
def Dev.storeAll (d : Dev) (qids : List Nat) (u : QUnit) : Dev :=
  qids.foldl (fun (d : Dev) qid => match d.qf.qs.find qid with
    | some q => d.applyRes qid (q.putWhole u)
    | none => d) d

/-- An engine or a wire source writes a unit into the queues bound to its stream: at once when no earlier write to one of them waits and every
BLOCK queue has room, else it waits its turn (R212, R225). -/
def Dev.qput (d : Dev) (req : Nat) (qids : List Nat) (u : QUnit) : Dev :=
  if qids.isEmpty then d
  else if d.allRoom qids u.size && !d.qf.waits.any (fun w => w.qids.any (fun q => qids.contains q)) then d.storeAll qids u
  else { d with qf := { d.qf with waits := d.qf.waits ++ [{ req := req, qids := qids, unit := u, at_ := d.own }] } }

/-- Writes to the queues bound to a stream of a source. -/
def Dev.produce (d : Dev) (source stream : Nat) (u : QUnit) : Dev := d.qput source (d.rl.routes source stream) u

/-- Whether a producer still waits for room. -/
def Dev.blocked (d : Dev) (source : Nat) : Bool := d.qf.waits.any (fun w => w.req == source)

/-- The next unit that an engine takes from a queue (R226). -/
def Dev.take (d : Dev) (qid : Nat) : Dev × Option QUnit :=
  match d.qf.qs.find qid with
  | none => (d, none)
  | some q =>
    let (q', u) := q.takeUnit
    ({ d with qf := { d.qf with qs := d.qf.qs.ins qid q' } }, u)

/-- A head item of an engine's packet: HEAD with a payload [59:16]. -/
def mkHead (payload : Nat) : Item := BitVec.ofNat 64 (12 * 2 ^ 60 + payload % 2 ^ 44 * 2 ^ 16)

/-- An item with VALID alone and a 60-bit payload. -/
def mkItem (payload : Nat) : Item := BitVec.ofNat 64 (8 * 2 ^ 60 + payload % 2 ^ 60)

/-- The payload field [lo + width − 1 : lo] of an item. -/
def itemBits (v : Item) (lo width : Nat) : Nat := bitsOf v.toNat lo width

/-! ### The device state machine (R26, R27) -/

/-- The transitions of Table 1.3, with the loss of the last supply (Table 0.2). The lines OFF or STANDBY to BOOT are the passage through WATCH that the table says
happens at once; the lines WATCH to OFF and BOOT to HALT to OFF are the passage through STANDBY where no VBAT is left. -/
def DevState.edge : DevState → DevState → Bool
  | .off, .standby => true
  | .off, .watch => true
  | .standby, .watch => true
  | .off, .boot => true
  | .standby, .boot => true
  | .watch, .standby => true
  | .watch, .boot => true
  | .boot, .quiet => true
  | .boot, .dark => true
  | .dark, .quiet => true
  | .quiet, .quiet => true
  | .quiet, .run => true
  | .run, .run => true
  | .run, .wrap => true
  | .wrap, .quiet => true
  | .wrap, .halt => true
  | .boot, .halt => true
  | .dark, .halt => true
  | .quiet, .halt => true
  | .run, .halt => true
  | .halt, .boot => true
  | .standby, .off => true
  | .watch, .off => true
  | a, .watch => a == .boot || a == .dark || a == .quiet || a == .run || a == .wrap || a == .halt
  | a, .standby => a == .boot || a == .dark || a == .quiet || a == .run || a == .wrap || a == .halt
  | a, .off => a == .boot || a == .dark || a == .quiet || a == .run || a == .wrap || a == .halt
  | _, _ => false

/-- The order in which causes of one instant win (R26): loss of supplies, then HALT, WRAP, DARK, QUIET, RUN. -/
def DevState.rank : DevState → Nat
  | .off => 0 | .standby => 1 | .watch => 2 | .halt => 3 | .wrap => 4 | .dark => 5 | .quiet => 6 | .run => 7 | .boot => 8

/-- The transition that wins among those asked for. -/
def pickState (old : DevState) (reqs : List (DevState × Nat)) : Option (DevState × Nat) :=
  (reqs.filter (fun r => old.edge r.1)).foldl (fun a r => match a with
    | none => some r
    | some b => if r.1.rank < b.1.rank then some r else some b) none

/-- Asks for a change of device state, with the cause code of Table 16.13. -/
def Dev.go (d : Dev) (st : DevState) (cause : Nat) : Dev := { d with stReq := d.stReq ++ [(st, cause)] }

/-- The record that every state change leaves (R26): `EV_GLB_STATE`, and a black-box record of kind 2. -/
def Dev.noteState (d : Dev) (old new cause : Nat) : Dev :=
  let seq := d.evSeq.get 0 0
  let data := new + old * 8 + cause * 256
  let ev := eventItems (ts32 d.now) Ev.GLB_STATE (d.subRealm 0) seq 0 data
  let d := match d.bbPut 2 ev (d.bbContext 0) with
    | some d => d
    | none => { (d.bump Reg.PST_BB_DROPPED_CNT) with pst := { d.pst with bbLost := d.pst.bbLost + 1 } }
  d.raise Ev.GLB_STATE 0 data

/-- Whether the actuating gates are open: the role actuates, its gates are open, and the state grants (R9, R10, R381). -/
def Dev.gates (d : Dev) : Bool := d.live && d.sin.gates && decide (d.rd Reg.SIN_STATUS_ROLE ≤ 1)

/-- The levels of the six trip outputs that their feedback is compared with (R320): a STAND-IN compares the ACTIVE device's, which it computes in step. -/
def Dev.tripLevels (d : Dev) : Nat :=
  if d.gaf.immediate.isSome then 0 else if d.gates || (d.live && d.rd Reg.SIN_STATUS_ROLE == 2) then d.trw.outH % 8 + d.trw.outP % 8 * 8 else 0

/-- Compares the trip outputs with their feedback (R320): an output that differs is timed from now, one that agrees loses its `MISMATCH`. -/
def Dev.watchFb (d : Dev) : Dev :=
  let lv := d.tripLevels
  let fb := d.rd Reg.TRW_OUT_STAT_FB_LEVEL
  let en := d.rd Reg.TRW_CFG1_FB_EN
  let dif := (List.range 6).filter (fun k => bitAt en k && bitAt lv k != bitAt fb k)
  let at_ := dif.foldl (fun (t : Tbl Nat) k => t.ins k (d.trw.fbAt.get k d.own)) []
  { d.wr Reg.TRW_OUT_STAT_MISMATCH (sumN (dif.map (fun k => if bitAt (d.rd Reg.TRW_OUT_STAT_MISMATCH) k then 2 ^ k else 0))) with
    trw := { d.trw with fbAt := at_ } }

/-- The output balls that follow the state: `READY`, `FAULT_N`, `RST_OUT_N` (high from 60 ms after the release of `RESET_N`) and the trip outputs with the levels `TRW_OUT_STAT` shows (R10, R27, R320, chapter 20). -/
def Dev.drivePins (d : Dev) : Dev :=
  let open_ := d.gates && d.gaf.immediate.isNone
  let h := if open_ then d.trw.outH % 8 else 0
  let p := if open_ then d.trw.outP % 8 else 0
  let d := ((d.wr Reg.TRW_OUT_STAT_H_LEVEL h).wr Reg.TRW_OUT_STAT_P_LEVEL p).watchFb
  { d with pins := { d.pins with
      ready := d.mode == .run
      faultN := d.mainOn && !(d.mode == .dark || d.mode == .halt)
      rstOutN := d.supply.rails && decide (60000000 ≤ d.own)
      tripH := h
      tripP := p } }

/-- The fuses as they end: a fuse once blown stays blown (R92). -/
def Otp.merge (old new : Otp) : Otp :=
  { keys := (List.range 4).foldl (fun (t : Tbl KeySlot) k =>
      let a := old.keys.get k {}
      let b := new.keys.get k {}
      let c : KeySlot := { hash := if a.valid then a.hash else b.hash, valid := a.valid || b.valid, revoked := a.revoked || b.revoked }
      t.set k c {}) []
    rollback := max old.rollback new.rollback
    uid := old.uid }

/-- The instruction that the debug port executes where a boundary-scan instruction may not drive (R507). -/
def JtagIns.safe : JtagIns → JtagIns
  | .extest => .bypass
  | .clamp => .bypass
  | .intest => .bypass
  | i => i

end Sys2Proof.Machine
end

