-- ==== Sys2Proof/Machine/Store.lean ====
section
/-!
DEFINITION. Machine/Store.lean: the records of the persistent store as its clients see them (R480, R481): a read takes the newest generation of
which a copy survives, and a write waits until the store has programmed both copies (`RECORD_WRITE_DONE`).
-/
namespace Sys2Proof.Machine

/-- The record of a kind and key. -/
def Pst.find (p : Pst) (kind key : Nat) : Option NvRec := p.recs.find? (fun r => r.kind == kind && r.key == key)

/-- The records with one replaced or added. -/
def Pst.store (p : Pst) (r : NvRec) : Pst :=
  { p with recs := p.recs.filter (fun x => !(x.kind == r.kind && x.key == r.key)) ++ [r] }

/-- The NVM region of a kind of record (Table 19.2): 2 key store, 3 learned-value store. -/
def nvRegion (kind : Nat) : Nat := if kind = 1 ∨ kind = 2 ∨ kind = 3 ∨ kind = 8 then 3 else 2

/-- Reads a record (R481): the newest surviving generation, with what the read repairs, counts and reports. -/
def Dev.nvRead (d : Dev) (kind key : Nat) : Dev × Option (List Byte) :=
  match d.pst.find kind key with
  | none => (d, none)
  | some r =>
    if r.ok0 && r.ok1 then (d, some r.body)
    else if r.ok0 || r.ok1 then
      let d := { d with pst := d.pst.store { r with ok0 := true, ok1 := true } }
      ((d.bump Reg.PST_CNT_ECC_CNT).raise Ev.PST_ECC (if r.ok0 then r.page1 else r.page0) kind, some r.body)
    else
      let d := ((d.bump Reg.PST_CNT_LOST_CNT).raise Ev.PST_RECORD_LOST (nvRegion kind) (kind + key % 2 ^ 32 * 2 ^ 8))
      match r.prev with
      | some b => ({ d with pst := d.pst.store { r with body := b, gen := r.gen - 1, ok0 := true, ok1 := true, prev := none } }, some b)
      | none => ({ d with pst := { d.pst with recs := d.pst.recs.filter (fun x => !(x.kind == kind && x.key == key)) } }, none)

/-- Asks the store to write a record; a newer one replaces one of the same kind and key that still waits (R257). A learned-value store that
is read-only takes none (R483). -/
def Dev.nvWrite (d : Dev) (kind key : Nat) (body : List Byte) : Dev :=
  let old := d.pst.writes.filter (fun w => !(w.kind == kind && w.key == key))
  if d.pst.learnRo && nvRegion kind == 3 then d else
  { d with pst := { d.pst with writes := old ++ [{ kind := kind, key := key, body := body }] } }

/-- The body of a record as it will read once the waiting writes are done. -/
def Dev.nvPeek (d : Dev) (kind key : Nat) : Option (List Byte) :=
  match d.pst.writes.reverse.find? (fun w => w.kind == kind && w.key == key) with
  | some w => some w.body
  | none => (d.pst.find kind key).map (fun r => r.body)

end Sys2Proof.Machine
end

