-- ==== Sys2Proof/Machine/Role.lean ====
section
/-!
DEFINITION. Machine/Role.lean: pair roles, the fencing epoch, demotion (R374 to R378, R382), and who may actuate or originate.
-/
namespace Sys2Proof.Machine

/-- Role codes of `SIN_STATUS.ROLE`. -/
def roleAlone : Nat := 0
def roleActive : Nat := 1
def roleStandIn : Nat := 2
def roleContending : Nat := 3

def Dev.role (d : Dev) : Nat := d.rd Reg.SIN_STATUS_ROLE
/-- The sampled `DEV_ADDR[1:0]` strap (R4). -/
def Dev.devAddr (d : Dev) : Nat := d.rd Reg.GLB_STATUS_DEV_ADDR
/-- Whether the running structure is Solo. -/
def Dev.solo (d : Dev) : Bool := d.rl.config == 0
/-- Whether the device is device P of its pair (R6); a Solo device counts as P. -/
def Dev.isP (d : Dev) : Bool := d.solo || d.devAddr % 2 == 0
/-- The originator code of this device: 0 device P or Solo, 1 device S. -/
def Dev.origCode (d : Dev) : Nat := b2n (!d.isP)
/-- Whether the role actuates (R9). -/
def Dev.actRole (d : Dev) : Bool := d.role == roleAlone || d.role == roleActive
/-- Whether the device may send actuating frames: its role actuates, its gates are open, it is in RUN or WRAP (R9, R10, R381). -/
def Dev.actuates (d : Dev) : Bool := d.actRole && d.gates

/-- Changes the role, with `EV_SIN_ROLE`. -/
def Dev.setRole (d : Dev) (r : Nat) : Dev :=
  if d.role = r then d
  else
    let old := d.role
    let d := d.wr Reg.SIN_STATUS_ROLE r
    d.raise Ev.SIN_ROLE 0 (r + old * 4 + d.rd Reg.SIN_EPOCH_EPOCH % 2 ^ 32 * 2 ^ 8)

/-- The highest `E_MAX` read from any node: from STATUS, and from register 0x0010 after an enumeration (R377). -/
def Dev.nodesEmax (d : Dev) : Nat :=
  (d.rl.rings.flatMap (fun r => (d.rl.nodes r).map (fun n => d.rd Reg.LNK_NODE_EMAX_E_MAX r n.ndAddr))).foldl max d.lnk.emaxRead

/-- The epoch that a device takes when it becomes ACTIVE (R377). -/
def Dev.nextEpoch (d : Dev) : Nat :=
  max (max (d.rd Reg.SIN_EPOCH_EPOCH) (if d.solo then 0 else d.rd Reg.SIN_EPOCH_PARTNER_EPOCH)) (max d.nodesEmax d.sin.base) + 1

/-- Sets the epoch; when it exceeds H − 32,768 the reservation is advanced in the background (R378). -/
def Dev.setEpoch (d : Dev) (e : Nat) : Dev :=
  let d := d.wr Reg.SIN_EPOCH_EPOCH e
  let h := d.rd Reg.SIN_EPOCH_RES_H
  if h < e + 32768 ∧ !d.pst.writes.any (fun w => w.kind == 7) then d.nvWrite 7 0 (toLe (h + 65536) 4) else d

/-- Raises the epoch as R377 says; `none` when it would exceed 0xFFFF_FFFE. -/
def Dev.raiseEpoch (d : Dev) : Dev × Bool :=
  let e := d.nextEpoch
  if 0xFFFFFFFE < e then (d.raise Ev.SIN_EPOCH_LIMIT 0 e, false) else (d.setEpoch e, true)

/-- The link state of a ring. -/
def Dev.lr (d : Dev) (ring : Nat) : LRing := d.lnk.rings.get ring {}

/-- Replaces the link state of a ring. -/
def Dev.setLr (d : Dev) (ring : Nat) (r : LRing) : Dev :=
  { d with lnk := { d.lnk with rings := d.lnk.rings.set ring r {} } }

/-- Starts or stops originating a ring at once, with `EV_LNK_ORIGIN_CHANGE` (R383). -/
def Dev.setOrig (d : Dev) (ring : Nat) (on : Bool) : Dev :=
  let r := d.lr ring
  let d := d.setLr ring { r with orig := on, stopAt := false, absent := false }
  let code := if on then d.origCode else 1 - d.origCode
  let d := [2 * ring, 2 * ring + 1].foldl (fun (d : Dev) p => d.wr Reg.LNK_PORT_STAT_ROLE (if on then 1 else 2) p) d
  let d := d.wr Reg.SIN_STATUS_ORIGINATES (b2n (d.rl.rings.any (fun g => (d.lr g).orig)))
  if d.rd Reg.LNK_RING_STAT_ORIG ring = code then d
  else (d.wr Reg.LNK_RING_STAT_ORIG code ring).raise Ev.LNK_ORIGIN_CHANGE ring code

/-- A device that becomes STAND-IN while its partner is in RUN joins (R388). -/
def Dev.join (d : Dev) (cause : Nat) : Dev :=
  let was := d.on Reg.SIN_STATUS_INSTEP
  let d := (d.set1 Reg.SIN_STATUS_JOINING).clr Reg.SIN_STATUS_INSTEP
  let d := { d with sin := { d.sin with snapDone := false, agree := 0, differ := 0 } }
  let d := d.wr Reg.SIN_AGREE_AGREE_RUN 0
  if was then d.raise Ev.SIN_INSTEP 0 (cause * 2) else d

/-- Demotion (R382) on evidence of a higher authority: 1 TAKEOVER frame, 2 ring CYC, 3 node `E_MAX`. The gates close, origination stops at the end of the
cycle, the higher epoch is adopted, and a pending switch is superseded. -/
def Dev.demote (d : Dev) (evidence epoch : Nat) : Dev :=
  if d.role ≠ roleActive then d
  else
    let d := { d with sin := { d.sin with gates := false, actAt := none } }
    let d := d.rl.rings.foldl (fun (d : Dev) g => let r := d.lr g; if r.orig then d.setLr g { r with stopAt := true } else d) d
    let d := if d.rd Reg.SIN_EPOCH_EPOCH < epoch then d.setEpoch epoch else d
    let d := if d.on Reg.SIN_STATUS_SWITCH_PEND then
        let d := ((d.clr Reg.SIN_STATUS_SWITCH_PEND).wr Reg.SIN_SWITCH_STATUS 7)
        let d := { d with sin := { d.sin with switchK := none } }
        d.raise Ev.SIN_SWITCH 0 (7 + d.rd Reg.SIN_SWITCH_K_K % 2 ^ 32 * 2 ^ 8)
      else d
    let d := if d.mode == .run then (d.setRole roleStandIn).join 1 else d.setRole roleContending
    let d := d.bump Reg.SIN_COUNT_DEMOTIONS
    d.raise Ev.SIN_DEMOTED 0 (epoch % 2 ^ 32 + evidence * 2 ^ 32)

end Sys2Proof.Machine
end

