-- ==== Sys2Proof/Machine/Node.lean ====
section
/-!
DEFINITION. Machine/Node.lean: node states and their two views (R184 to R187), node and tap tables, positions of frames on a ring (R117, R118,
R516), and the flags of items (R43, R44, R199).
-/
namespace Sys2Proof.Machine

/-- The instance of a node in events: 128 × ring + address. -/
def nodeInst (ring addr : Nat) : Nat := 128 * ring + addr

/-- What SWP keeps of a node. -/
def Dev.sn (d : Dev) (ring addr : Nat) : SNode := d.swp.nodes.get (nodeInst ring addr) {}

/-- Replaces what SWP keeps of a node. -/
def Dev.setSn (d : Dev) (ring addr : Nat) (n : SNode) : Dev :=
  { d with swp := { d.swp with nodes := d.swp.nodes.set (nodeInst ring addr) n {} } }

def Dev.nodeState (d : Dev) (ring addr : Nat) : Nat := d.rd Reg.SWP_NODE_STATE_STATE ring addr
def Dev.mgmtView (d : Dev) (ring addr : Nat) : Nat := d.rd Reg.SWP_NODE_STATE_MGMT ring addr
def Dev.dataView (d : Dev) (ring addr : Nat) : Nat := d.rd Reg.SWP_NODE_STATE_DATA ring addr

/-- The Slate instant of the Take in progress on a ring, or the present instant where none is. -/
def Dev.slateAt (d : Dev) (ring : Nat) : Nat := match (d.lr ring).cur with
  | some (_, c) => c * 125000
  | none => d.now

/-- A single record item of SWP streams 3 and 4 (Table 7.4). -/
def swpRecord (ts ring addr kind low : Nat) : QUnit :=
  .one (BitVec.ofNat 64 (10 * 2 ^ 60 + ts32 ts * 2 ^ 28 + ring * 2 ^ 22 + addr * 2 ^ 15 + kind * 2 ^ 12 + low))

/-- Sets both views of a node and what follows from them (R185, R187, Table 7.4): combined state, `MISMATCH`, the event, the stream 3 record, and the
switches of a node that leaves ACTIVE. -/
def Dev.putViews (d : Dev) (ring addr m v : Nat) : Dev :=
  let om := d.mgmtView ring addr
  let ov := d.dataView ring addr
  let oc := d.nodeState ring addr
  if om = m ∧ ov = v then d
  else
    let c := max m v
    let d := (((d.wr Reg.SWP_NODE_STATE_MGMT m ring addr).wr Reg.SWP_NODE_STATE_DATA v ring addr).wr Reg.SWP_NODE_STATE_STATE c ring addr).wr
      Reg.SWP_NODE_STATE_MISMATCH (b2n (m != v)) ring addr
    let d := if c = oc then d else d.raise Ev.SWP_NODE_STATE (nodeInst ring addr) (c + oc * 16 + m * 256 + v * 4096)
    d.produce (0x3000 + ring) 3 (swpRecord (d.slateAt ring) ring addr c (m * 512 + v * 64 + b2n (m != v) * 32))

/-- A view that has reached LOST or FAULTED, or ASLEEP, stays there until admission (R184, Table 7.6). -/
def stick (old new : Nat) : Nat := if 3 ≤ old ∨ old = 1 then max old new else new

/-- Updates the management view. -/
def Dev.updMgmt (d : Dev) (ring addr m : Nat) : Dev :=
  d.putViews ring addr (stick (d.mgmtView ring addr) m) (d.dataView ring addr)

/-- Updates the data view. -/
def Dev.updData (d : Dev) (ring addr v : Nat) : Dev :=
  d.putViews ring addr (d.mgmtView ring addr) (stick (d.dataView ring addr) v)

/-- A node's own report; a reserved code counts as FAULTED and raises `EV_SWP_NSTATE_BAD` (R184). -/
def Dev.ownReport (d : Dev) (ring addr code which : Nat) : Dev × Nat :=
  if code = 0 ∨ code = 2 ∨ code = 4 then (d, code)
  else (d.raise Ev.SWP_NSTATE_BAD (nodeInst ring addr) (code % 8 + which * 256), 4)

/-- Admission of a node at a re-sync Slate (Table 5.10, R164, R184). -/
def Dev.admitNode (d : Dev) (ring addr take : Nat) : Dev :=
  let was := d.nodeState ring addr
  let r := d.lr ring
  let d := d.setLr ring { r with toAdmit := r.toAdmit.filter (fun a => a != addr), miss := r.miss.del addr }
  let d := d.setSn ring addr { d.sn ring addr with missed := 0 }
  let d := d.putViews ring addr (if (d.sn ring addr).estOn then 2 else 0) 0
  if was = 3 then d.raise Ev.LNK_NODE_BACK (nodeInst ring addr) (take % 2 ^ 32) else d

/-- Compares the two views at a poll (R186). -/
def Dev.comparePoll (d : Dev) (ring addr : Nat) : Dev :=
  let m := d.mgmtView ring addr
  let v := d.dataView ring addr
  if m = v then
    let d := d.clr Reg.SWP_NODE_STATE_DIFF_POLLS ring addr
    if d.on Reg.SWP_NODE_STATE_CONFLICT ring addr then
      (d.clr Reg.SWP_NODE_STATE_CONFLICT ring addr).raise Ev.SWP_NODE_AGREE (nodeInst ring addr) m
    else d
  else
    let d := d.bump Reg.SWP_NODE_STATE_DIFF_POLLS 1 ring addr
    if d.rd Reg.SWP_NODE_STATE_DIFF_POLLS ring addr ≥ 3 ∧ !d.on Reg.SWP_NODE_STATE_CONFLICT ring addr then
      (d.set1 Reg.SWP_NODE_STATE_CONFLICT ring addr).raise Ev.SWP_NODE_CONFLICT (nodeInst ring addr) (m + v * 16)
    else d

/-! ### Positions on a ring -/

/-- Length in characters of a node frame by type and data length (Table 5.7). -/
def nodeFrameLen (ntype data : Nat) : Nat :=
  match ntype with
  | 1 => 39 | 2 => 55 | 3 => 10 | 4 => 35 | _ => 10 + data

/-- First and last data position of the Take window in cycle index i of C (Table 5.3). -/
def takeWindow (c i : Nat) : Nat × Nat := (if i = 0 then 789 else 126, if i + 1 = c then 1184 else 1580)

/-- The structure under which a ring ran a cycle: with the former `TAKE` record for a cycle before the Take in progress (Table 4.5). -/
def Dev.rlAt (d : Dev) (ring cyc : Nat) : Reel :=
  let r := d.lr ring
  match r.prevTake, r.cur with
  | some x, some (_, c) => if cyc < c then d.rl.withTake x else d.rl
  | _, _ => d.rl

/-- The cycle index and position of element k of the Take-window sequence with H heads (R516). -/
def seqPos (c h : Nat) : Nat → Nat → Nat → Nat × Nat
  | 0, i, _ => (i, 0)
  | fuel + 1, i, k =>
    let (a, b) := takeWindow c i
    let n := b + 1 - a - 10 * h
    if k < n then
      let p := a + k
      (i, if p < 1185 - 10 * h then p else p + 10 * h)
    else seqPos c h fuel (i + 1) (k - n)

/-- `DATA_CYC` and `DATA_POS` of a node (R516): the frames before it in address order fill the sequence. -/
def Reel.dataPos (r : Reel) (ring addr : Nat) : Nat × Nat :=
  let before := sumN (((r.nodes ring).filter (fun n => decide (n.ndAddr < addr))).map (fun n => if n.ndKind = 1 then 39 else 55))
  seqPos (r.cpt ring) (r.heads ring).length 32 0 before

/-- `Q_POS` of a string head (R516). -/
def Reel.qPos (r : Reel) (ring addr : Nat) : Nat :=
  let hs := r.heads ring
  let h := (hs.filter (fun n => decide (n.ndAddr < addr))).length
  1185 - 10 * (hs.length - h)

/-- The head index of a string head on its ring (R316). -/
def Reel.headIdx (r : Reel) (ring addr : Nat) : Nat := ((r.heads ring).filter (fun n => decide (n.ndAddr < addr))).length

/-! ### Item flags (Table 2.7) -/

/-- Whether a cell channel's sense taps are suspect or confirmed: tap j + 1 above it or tap j below it (R191). -/
def Dev.tapSuspect (d : Dev) (ring addr j : Nat) : Bool :=
  let s := d.rd Reg.SWP_NODE_OW_SUSPECT ring addr
  bitAt s j || (j ≠ 0 && bitAt s (j - 1))

/-- Whether SWP commanded a cell's switch closed for the Take in progress (R199). -/
def Dev.balClosed (d : Dev) (ring addr j : Nat) : Bool :=
  decide (0 < d.rd Reg.SWP_NODE_BAL_TAKES_LEFT ring addr) && bitAt (d.rd Reg.SWP_NODE_BAL_MASK ring addr) j

/-- Flags of a cell item, bits 10 to 5 (Table 2.6). -/
def Dev.cellFlags (d : Dev) (ring addr j : Nat) (nflag rangeAny stale dup : Bool) (v : Int) : Nat :=
  b2n (d.tapSuspect ring addr j) * 1024 + b2n (nflag || d.balClosed ring addr j) * 512 + b2n stale * 256
    + b2n (d.mgmtView ring addr != d.dataView ring addr) * 128 + b2n (rangeAny || v == 0 || v == 65535) * 64 + b2n dup * 32

/-- Flags of a temperature item (R195). -/
def Dev.tempFlags (d : Dev) (ring addr j : Nat) (rangeAny stale dup : Bool) (v : Int) : Nat :=
  b2n (bitAt (d.rd Reg.SWP_NODE_DIAG_TEMP_EXCL ring addr) j) * 1024 + b2n stale * 256
    + b2n (d.mgmtView ring addr != d.dataView ring addr) * 128 + b2n (rangeAny || v == -32768 || v == 32767) * 64 + b2n dup * 32

/-- Flags of a current or charge item (R43). -/
def Dev.curFlags (d : Dev) (ring addr : Nat) (rangeAny stale dup : Bool) (v : Int) : Nat :=
  b2n stale * 8 + b2n (d.mgmtView ring addr != d.dataView ring addr) * 4 + b2n (rangeAny || v == -8388607 || v == 8388607) * 2 + b2n dup

/-- A sample item (R42). -/
def sampleItem (ts : Nat) (v : Int) (flags : Nat) : Item := mkItem (ts32 ts * 2 ^ 28 + code 16 v * 2 ^ 12 + flags)

/-- A current or charge item (R43). -/
def currentItem (ts : Nat) (v : Int) (flags : Nat) : Item := mkItem (ts32 ts * 2 ^ 28 + code 24 v * 2 ^ 4 + flags)

/-- The HEAD payload of a receive packet (R146), bits 59:16. -/
def rxHead (slot addr ring : Nat) : Item := mkHead (slot + addr * 2 ^ 12 + ring * 2 ^ 19)

end Sys2Proof.Machine
end

