-- ==== Sys2Proof/Machine/Peer.lean ====
section
/-!
DEFINITION. Machine/Peer.lean: peer-link frames (R392 to R396): building and sending one, and taking a received one.
-/
namespace Sys2Proof.Machine

/-- Peer frame types (Table 15.4). -/
def pfPresence : Nat := 1
def pfTakeover : Nat := 2
def pfSwitch : Nat := 3
def pfBoardTime : Nat := 4
def pfTwtt : Nat := 5
def pfAccept : Nat := 6
def pfContent : Nat := 7
def pfWant : Nat := 8
def pfDspMirror : Nat := 9
def pfCompare : Nat := 10
def pfCutReady : Nat := 11
def pfNote : Nat := 12
def pfSplice : Nat := 13
def pfTakeSync : Nat := 14
def pfState : Nat := 15

/-- A peer frame from `TYPE` to `CRC` (R393). -/
def peerFrame (typ seq : Nat) (pay : List Byte) : List Byte :=
  let b := toLe typ 1 ++ toLe pay.length 2 ++ toLe seq 2 ++ pay
  b ++ toLe (crc32c b) 4

/-- The peer links of a device, by `PEER_MASK` of its `ROLE` record. -/
def Dev.peerLinks (d : Dev) : List Nat := setBits d.rl.peerMask 4

/-- The links to the pair partner (R396). -/
def Dev.pairLinks (d : Dev) : List Nat := d.peerLinks.filter (fun l => decide (l < 2))

/-- Sends one frame on a list of links, with one `SEQ` (R394). -/
def Dev.peerSend (d : Dev) (links : List Nat) (typ : Nat) (pay : List Byte) : Dev :=
  if links.isEmpty then d
  else
    let seq := d.sin.txSeq.get typ 0
    let d := { d with sin := { d.sin with txSeq := d.sin.txSeq.ins typ ((seq + 1) % 65536) } }
    links.foldl (fun (d : Dev) l => d.emit (.peer l (peerFrame typ seq pay))) d

/-- Whether `LEN` is right for a type (Table 15.4); urgent frames carry at most 64 bytes. -/
def peerLenOk (typ : Nat) (pay : List Byte) : Bool :=
  let n := pay.length
  match typ with
  | 1 => n == 20 | 2 => n == 12 | 3 => n == 8 | 4 => n == 26 | 5 => n == 12
  | 6 => decide (byteAt pay 5 ≤ 30) && n == 8 + 8 * byteAt pay 5
  | 7 => decide (8 ≤ n) | 8 => decide (byteAt pay 5 ≤ 8) && n == 6 + 2 * byteAt pay 5
  | 9 => n == 44 | 10 => n == 16 | 11 => n == 20 | 12 => n == 8 | 13 => n == 4098 | 14 => n == 264
  | 15 => decide (8 ≤ n) && decide (n ≤ 1032)
  | _ => false

/-- The sender behind a link: the pair partner on links 0 and 1, one device behind each of links 2 and 3 (R396). -/
def peerSender (link : Nat) : Nat := if link < 2 then 0 else link

/-- Takes a received frame of a type (R393, R394, R396): checks and counts it, and answers its payload unless it is discarded. -/
def Dev.peerRx (d : Dev) (link typ : Nat) (codeErr : Bool) (frame : List Byte) : Dev × Option (List Byte) :=
  let n := frame.length
  let pay := slice frame 5 (n - 9)
  if codeErr || decide (n < 9) || le frame 1 2 != n - 9 || crc32c (frame.take (n - 4)) != le frame (n - 4) 4 || byteAt frame 0 != typ || !peerLenOk typ pay then
    (d.bump Reg.SIN_PEER_CRC_CNT 1 link, none)
  else if 2 ≤ link ∧ !(typ == pfPresence || typ == pfBoardTime || typ == pfTwtt || typ == pfSplice || typ == pfCutReady) then (d, none)
  else
    let seq := le frame 3 2
    let s := peerSender link
    let old := d.sin.seen.filter (fun x => decide (d.own < x.2.2.2 + 256000))
    if old.any (fun x => x.1 == s && x.2.1 == typ && x.2.2.1 == seq) then
      ({ d with sin := { d.sin with seen := old } }.bump Reg.SIN_PEER_DUP_CNT 1 link, none)
    else
      ({ d with sin := { d.sin with seen := old ++ [(s, typ, seq, d.own)] } }.bump Reg.SIN_PEER_FRAMES_CNT 1 link, some pay)

end Sys2Proof.Machine
end

