-- ==== Sys2Proof/Machine/Dsp.lean ====
section
/-!
DEFINITION. Machine/Dsp.lean: the dispatch allocator (chapter 11). Inputs and their checks (R287 to R292), the pair mirror (R294), the plant target
(R295 to R298), headroom and derates (R299 to R301), allocation (R302, R303) and outputs (R304).
-/
namespace Sys2Proof.Machine

def Dev.dstr (d : Dev) (s : Nat) : DStr := d.dsp.strs.get s {}
def Dev.setDstr (d : Dev) (s : Nat) (x : DStr) : Dev := { d with dsp := { d.dsp with strs := d.dsp.strs.set s x {} } }

/-! ### Records (Table 3.14) -/

def Reel.dispRec (r : Reel) : Rec := Rec.orEmpty r.disp
def Rec.dpPolicy (x : Rec) : Nat := x.u8 8
def Rec.dpSources (x : Rec) : Nat := x.u8 9
def Rec.dpGrace (x : Rec) : Nat := x.u16 10
def Rec.dpFnom (x : Rec) : Nat := x.u32 12
def Rec.dpFdead (x : Rec) : Nat := x.u32 16
def Rec.dpDroop (x : Rec) : Int := x.s32 20
def Rec.dpFfrMax (x : Rec) : Int := x.s32 24
def Rec.dpFfrDelay (x : Rec) : Nat := x.u32 28
def Rec.dpRamp (x : Rec) : Nat := x.u32 32
def Rec.dsUnit (x : Rec) : Nat := x.u8 10
def Rec.dsWeight (x : Rec) : Nat := x.u16 12
def Rec.dsLoop (x : Rec) : Nat := x.u16 14
/-- The strings in dispatch, ascending. -/
def Reel.dispStrings (r : Reel) : List Nat := sortBy (fun a b => decide (a ≤ b)) ((r.sel secDisp 2).map (fun x => x.u16 8))

/-- n_d of R296. -/
def Rec.dpDelay (x : Rec) : Nat := (x.dpFfrDelay + 124) / 125

/-- The allocator's cycle lags (Table 11.1). -/
def lagEst : Nat := 375000
def lagLpe : Nat := 125000

/-- Whether the role holds its own inputs unused (R294; a CONTENDING device is taken as a STAND-IN, assumption log 20). -/
def Dev.dspHolds (d : Dev) : Bool := d.role == roleStandIn || d.role == roleContending

/-- Writes the input status fields. -/
def Dev.dspShow (d : Dev) : Dev :=
  (d.wr Reg.DSP_STATUS_PENDING d.dsp.pend.length).wr Reg.DSP_STATUS_MIRROR (b2n (d.on Reg.DSP_STATUS_RUNNING && d.dspHolds))

/-- A sticky arithmetic flag of the allocator (R36): 0 `SAT`, 2 `DZ`. -/
def Dev.dspArith (d : Dev) (sat : Bool) : Dev :=
  if !sat || d.on Reg.DSP_ARITH_SAT then d else (d.set1 Reg.DSP_ARITH_SAT).raise Ev.DSP_ARITH 0 1

/-! ### Inputs -/

/-- The source kind of a producer (Table 11.1): 0 frames, 1 CAN, 2 triads, 3 none. -/
def dspSource (prod : Nat) : Nat :=
  if prod = 0xA000 ∨ prod = 0xA001 then 0 else if 0xC000 ≤ prod ∧ prod ≤ 0xC003 then 1 else if 0x8000 ≤ prod ∧ prod ≤ 0x800E then 2 else 3

/-- Where the sequence of a producer is kept: one for the frames of the network pair, one for each CAN controller and each triad. -/
def dspSeqKey (prod : Nat) : Nat := if dspSource prod = 0 then 0 else prod

def DRaw.item (x : DRaw) (k : Nat) : Nat := x.items.getD k 0
def DRaw.value (x : DRaw) : Nat := x.item 0 % 2 ^ 32
def DRaw.sec (x : DRaw) : Nat := x.item 1 % 2 ^ 48
def DRaw.ns (x : DRaw) : Nat := x.item 2 % 2 ^ 32
def DRaw.seq (x : DRaw) : Nat := x.item 3 % 2 ^ 32
def DRaw.seqChk (x : DRaw) : Bool := bitAt (x.item 3) 32

/-- Whether a reserved field of an input record is not 0 (Table 11.3); the `VALUE` of a cancel is one (Table 11.2). -/
def DRaw.reserved (x : DRaw) : Bool :=
  x.items.length != 4 || decide (2 ^ 32 ≤ x.item 0) || decide (2 ^ 48 ≤ x.item 1) || decide (2 ^ 32 ≤ x.item 2) || decide (2 ^ 33 ≤ x.item 3)
    || (x.kind == 3 && x.value != 0)

/-- Whether a sequence number is new (R288, R289). -/
def Dev.dspNew (d : Dev) (x : DRaw) : Bool :=
  match d.dsp.seqs.find (dspSeqKey x.prod) with
  | none => true
  | some l =>
    if dspSource x.prod = 1 then (let n := (x.seq + 256 - l % 256) % 256; decide (1 ≤ n) && decide (n ≤ 127))
    else (let n := (x.seq + 2 ^ 32 - l) % 2 ^ 32; decide (1 ≤ n) && decide (n ≤ 2 ^ 31 - 1))

/-- The first cycle boundary at or after an instant. -/
def boundaryAfter (n : Nat) : Nat := (n + 124999) / 125000

/-- The apply boundary of an input (R290): an immediate one's, or the one at or after its apply time; whether the apply time was late. -/
def Dev.dspApply (d : Dev) (apply : Nat) : Nat × Bool :=
  let imm := boundaryAfter (d.now + 20000)
  if apply = 0 then (imm, false)
  else
    let b := boundaryAfter apply
    if d.now + 20000 ≤ b * 125000 then (b, false) else (imm, true)

/-- The first check of Table 11.5 that an input fails, or 0. -/
def Dev.dspCheck (d : Dev) (x : DRaw) : Nat :=
  let so := d.rl.dispRec.dpSources
  let src := dspSource x.prod
  let imm := x.sec == 0 && x.ns == 0
  let apply := ofFullTime x.ns (x.sec % 2 ^ 32) (x.sec / 2 ^ 32)
  if x.fmt = 0 ∨ x.err = true ∨ x.reserved = true then 1
  else if x.kind = 0 ∨ 3 < x.kind then 2
  else if 3 ≤ src ∨ bitAt so src = false ∨ (x.kind = 2 ∧ bitAt so 3 = false) then 3
  else if x.seqChk && !d.dspNew x then 4
  else if !imm && apply.isNone then 5
  else if !imm && decide (d.now + 60 * oneSec < apply.getD 0) then 6
  else if 16 ≤ d.dsp.pend.length then 7
  else if d.mode ≠ .run then 8
  else 0

/-- Refuses an input (Table 11.5). -/
def Dev.dspRefuse (d : Dev) (prod reason seq : Nat) : Dev :=
  let d := ((d.bump Reg.DSP_CNT_REFUSED_CNT).wr Reg.DSP_ERR_REASON reason).wr Reg.DSP_ERR_PRODUCER prod
  let d := if reason = 7 then d.raise Ev.DSP_PENDING_FULL prod 0 else d
  d.raiseHeld Ev.DSP_INPUT_REFUSED prod oneSec prod (fun _ => reason + seq % 2 ^ 32 * 256)

/-- Records an accepted input with its apply boundary: sequence, watchdog, the list of pending inputs. -/
def Dev.dspAccept (d : Dev) (x : DRaw) (b : Nat) : Dev :=
  let src := dspSource x.prod
  let d := if x.seqChk then { d with dsp := { d.dsp with seqs := d.dsp.seqs.ins (dspSeqKey x.prod) x.seq } } else d
  let d := if src = 0 then d.wr Reg.DSP_SEQ_FRAME_SEQ x.seq else if src = 1 then d.wr Reg.DSP_SEQ_CAN_SEQ x.seq else d
  let d := if x.kind = 1 then
      (let d := { d with dsp := { d.dsp with accAt := d.dsp.accAt.ins src d.own } }
       if d.rd Reg.DSP_STATUS_SRC = src then d.clr Reg.DSP_STATUS_WDOG else d)
    else d
  let e : DInput := { src := src, kind := x.kind, value := x.value, b := b, ord := d.dsp.ord }
  { d with dsp := { d.dsp with pend := d.dsp.pend ++ [e], ord := d.dsp.ord + 1 } }

/-- Sends an accepted input to the pair partner (R294, Table 15.4). -/
def Dev.dspMirrorOut (d : Dev) (x : DRaw) (b : Nat) : Dev :=
  d.peerSend d.pairLinks pfDspMirror
    (toLe x.prod 2 ++ toLe x.kind 1 ++ toLe x.fmt 1 ++ toLe b 4 ++ toLe (ts32 d.now) 4 ++ (List.range 4).flatMap (fun k => toLe (x.item k) 8))

/-- Takes an input record (R288 to R291, R294). -/
def Dev.dspTake (d : Dev) (x : DRaw) : Dev :=
  let early := d.dsp.early.filter (fun e => decide (d.own < e.2 + 1000000))
  let d := { d with dsp := { d.dsp with early := early } }
  if d.dspHolds && early.any (fun e => e.1 == x) then
    { d with dsp := { d.dsp with early := early.eraseP (fun e => e.1 == x) } }
  else
    let r := d.dspCheck x
    if r ≠ 0 then d.dspRefuse x.prod r x.seq
    else if d.dspHolds then { d with dsp := { d.dsp with held := d.dsp.held ++ [(x, d.own)] } }
    else
      let (b, late) := d.dspApply (if x.sec = 0 ∧ x.ns = 0 then 0 else (ofFullTime x.ns (x.sec % 2 ^ 32) (x.sec / 2 ^ 32)).getD 0)
      let d := if late then
          (d.bump Reg.DSP_CNT_LATE_CNT).raiseHeld Ev.DSP_LATE_APPLY x.prod oneSec x.prod (fun n => min n (2 ^ 32 - 1))
        else d
      let d := d.dspAccept x b
      if d.role = roleActive then d.dspMirrorOut x b else d

/-- A packet or item of an estimator or a loop: headroom packets (Table 9.2), derate items (R249), supervision records (R282); discarded and counted when
it comes after the allocation whose window included it (R292). -/
def Dev.dspStream (d : Dev) (prod : Nat) (u : QUnit) : Dev :=
  let late (ts lag : Nat) : Bool := match d.dsp.last with
    | some b => decide (ts + lag ≤ b)
    | none => false
  match u with
  | .pkt h items =>
    let s := itemBits h 16 8
    if itemErr h || items.length != 4 || (d.rl.dispStr s).isNone then d
    else
      let it (k : Nat) : Item := items.getD k 0
      let ts := tsExtend d.now (itemBits (it 0) 28 32)
      if late ts lagEst then d.bump Reg.DSP_CNT_HR_LATE_CNT
      else
        let x := d.dstr s
        let p : DHead := { ts := ts, socMin := itemBits (it 0) 14 14, socMax := itemBits (it 0) 0 14, iChg := itemBits (it 1) 24 24, iDis := itemBits (it 1) 0 24, pChg := itemBits (it 2) 0 32, pDis := itemBits (it 3) 0 32 }
        d.setDstr s { x with hrs := x.hrs ++ [p] }
  | .one it =>
    let ts := tsExtend d.now (itemBits it 28 32)
    if prod / 4096 = 4 then
      let s := itemBits it 20 8
      if (d.rl.dispStr s).isNone then d
      else if late ts lagEst then d.bump Reg.DSP_CNT_HR_LATE_CNT
      else d.setDstr s { d.dstr s with ders := (d.dstr s).ders ++ [(ts, itemBits it 4 16)] }
    else
      let s := itemBits it 8 8
      if !bitAt (itemBits it 0 8) 7 || (d.rl.dispStr s).isNone then d
      else if late ts lagLpe then d.bump Reg.DSP_CNT_HR_LATE_CNT
      else d.setDstr s { d.dstr s with sups := (d.dstr s).sups ++ [(ts, bitAt (itemBits it 0 8) 6)] }
  | _ => d

/-- DSP_INPUT_RECORD: DSP reads the next unit of a queue it consumes. -/
def Dev.dspInput (d : Dev) (qid : Nat) : Dev :=
  match d.qf.qs.find qid with
  | none => d
  | some q =>
    if q.qd.consumer ≠ 0x6000 ∨ dspSource q.qd.producer = 1 then d
    else match d.take qid with
      | (d, none) => d
      | (d, some u) =>
        let p := q.qd.producer
        if dspSource p = 3 then (d.dspStream p u).dspShow
        else match u with
          | .pkt h items => (d.dspTake { prod := p, kind := itemBits h 16 8, fmt := itemBits h 24 8, items := items.map (fun i => itemBits i 0 60), err := itemErr h || itemBits h 32 28 != 0 }).dspShow
          | _ => d.dspRefuse p 1 0

/-- DSP_CAN_INPUT: a CAN frame delivered to DSP (R289, Table 17.9), as an immediate input record with its sequence checked. -/
def Dev.dspCan (d : Dev) (qid : Nat) : Dev :=
  match d.qf.qs.find qid with
  | none => d
  | some q =>
    if q.qd.consumer ≠ 0x6000 ∨ dspSource q.qd.producer ≠ 1 then d
    else match d.take qid with
      | (d, none) => d
      | (d, some (.pkt h items)) =>
        let data (k : Nat) : Nat := itemBits (items.getD (1 + k / 7) 0) (8 * (k % 7)) 8
        let short := decide (itemBits h 53 7 < 8)
        let value := data 4 + data 5 * 2 ^ 8 + data 6 * 2 ^ 16 + data 7 * 2 ^ 24
        (d.dspTake { prod := q.qd.producer, kind := data 0, fmt := 1, items := [value, 0, 0, data 1 + 2 ^ 32], err := itemErr h || short || data 2 != 0 || data 3 != 0 }).dspShow
      | (d, some _) => d.dspRefuse q.qd.producer 1 0

/-- DSP_MIRROR: the partner's accepted input (R294). -/
def Dev.dspMirror (d : Dev) (link : Nat) (codeErr : Bool) (frame : List Byte) : Dev :=
  match d.peerRx link pfDspMirror codeErr frame with
  | (d, none) => d
  | (d, some p) =>
    if !(d.on Reg.DSP_STATUS_RUNNING && d.dspHolds) then d
    else
      let x : DRaw := { prod := le p 0 2, kind := byteAt p 2, fmt := byteAt p 3, items := (List.range 4).map (fun k => le p (12 + 8 * k) 8) }
      let b := ((d.cyc : Int) + tsDiff (d.cyc % 2 ^ 32) (le p 4 4)).toNat
      let d := if d.dsp.held.any (fun h => h.1 == x) then { d with dsp := { d.dsp with held := d.dsp.held.eraseP (fun h => h.1 == x) } }
        else { d with dsp := { d.dsp with early := d.dsp.early ++ [(x, d.own)] } }
      let missed := match d.dsp.last with
        | some l => if b * 125000 ≤ l then l / 125000 - b + 1 else 0
        | none => 0
      let d := if missed = 0 then d else d.raise Ev.DSP_MIRROR_LATE x.prod (min missed (2 ^ 32 - 1))
      if 16 ≤ d.dsp.pend.length then (d.raise Ev.DSP_PENDING_FULL x.prod 0).dspShow else (d.dspAccept x b).dspShow

/-- DSP_UNMIRRORED: own inputs whose mirror has not come within 1 ms are discarded (R294). -/
def Dev.dspUnmirrored (d : Dev) : Dev :=
  let due (h : DRaw × Nat) : Bool := decide (h.2 + 1000000 ≤ d.own)
  let gone := d.dsp.held.filter due
  let d := { d with dsp := { d.dsp with held := d.dsp.held.filter (fun h => !due h) } }
  gone.foldl (fun (d : Dev) h =>
    (d.bump Reg.DSP_CNT_UNMIRRORED_CNT).raise Ev.DSP_UNMIRRORED h.1.prod (if h.1.seqChk then h.1.seq else 0)) d

/-- The device becomes ALONE or ACTIVE (R294, R304): its own unmirrored inputs are accepted as if they arrived now, and every output is due. -/
def Dev.dspTakeover (d : Dev) : Dev :=
  let held := d.dsp.held
  let d := { d with dsp := { d.dsp with held := [], all := true } }
  (held.foldl (fun (d : Dev) h => d.dspTake h.1) d).dspShow

/-! ### The plant target (R295 to R297) -/

/-- Takes one pending input whose boundary has come (R291, R292). -/
def Dev.dspApplyInput (d : Dev) (x : DInput) : Dev :=
  if x.kind = 1 then
    match d.dsp.force.find x.src with
    | some (_, b) => if b ≤ x.b then { d with dsp := { d.dsp with force := d.dsp.force.ins x.src (x.value, x.b) } } else d
    | none => { d with dsp := { d.dsp with force := d.dsp.force.ins x.src (x.value, x.b) } }
  else if x.kind = 2 then
    match d.dsp.freq with
    | some (_, b) => if b ≤ x.b then { d with dsp := { d.dsp with freq := some (x.value, x.b), freqLost := false } } else d
    | none => { d with dsp := { d.dsp with freq := some (x.value, x.b), freqLost := false } }
  else { d with dsp := { d.dsp with pend := d.dsp.pend.filter (fun y => !(y.src == x.src && decide (x.b < y.b))) } }

/-- The inputs whose boundary has come, in order of boundary and acceptance. -/
def Dev.dspInputs (d : Dev) : Dev :=
  let k := d.cyc
  let due := sortBy (fun a b => decide (a.b < b.b) || (a.b == b.b && decide (a.ord ≤ b.ord))) (d.dsp.pend.filter (fun x => decide (x.b ≤ k)))
  let d := due.foldl (fun (d : Dev) x => d.dspApplyInput x) d
  { d with dsp := { d.dsp with pend := d.dsp.pend.filter (fun x => decide (k < x.b)) } }

/-- DSP_WATCHDOG: the selected source has had no setpoint accepted for `WDOG` ms (R297). -/
def Dev.dspWatch (d : Dev) : Dev :=
  let w := d.rd Reg.DSP_CTRL_WDOG
  let src := d.rd Reg.DSP_STATUS_SRC
  let quiet := decide (d.dsp.accAt.get src 0 + w * 1000000 ≤ d.own)
  if !d.on Reg.DSP_STATUS_RUNNING || w == 0 || src == 3 || d.on Reg.DSP_STATUS_WDOG || !quiet then d
  else
    let d := { d.set1 Reg.DSP_STATUS_WDOG with dsp := { d.dsp with force := d.dsp.force.del src } }
    d.raise Ev.DSP_WATCHDOG src w

/-- The source selected by `DSP_CTRL.SRC` comes into use (R297). -/
def Dev.dspSelect (d : Dev) : Dev :=
  let want := d.rd Reg.DSP_CTRL_SRC
  let src := if want = 3 ∨ bitAt d.rl.dispRec.dpSources want = false then 3 else want
  let old := d.rd Reg.DSP_STATUS_SRC
  if src = old then d else ((d.wr Reg.DSP_STATUS_SRC src).clr Reg.DSP_STATUS_WDOG).raise Ev.DSP_SRC_CHANGE src old

/-- p_lin and e of R296 for a frequency in force. -/
def ffrLin (x : Rec) (f : Nat) : Int × Int :=
  let df : Int := (f : Int) - x.dpFnom
  let dead : Int := x.dpFdead
  let e := if dead < df then df - dead else if df < -dead then df + dead else 0
  let p := rhu (x.dpDroop * e) 1000
  (e, min (max p (-x.dpFfrMax)) x.dpFfrMax)

/-- FFR_ACTIVE: the response becomes active once n_d consecutive allocations had e ≠ 0 (R296). -/
def Dev.ffrStart (d : Dev) : Dev :=
  let x := d.rl.dispRec
  match d.dsp.freq with
  | none => d
  | some (f, _) =>
    let (e, p) := ffrLin x f
    if d.on Reg.DSP_STATUS_FFR_ACTIVE || !d.on Reg.DSP_FFR_CTRL_EN || !d.on Reg.DSP_STATUS_RUNNING || d.mode == .wrap || d.dsp.freqLost || e == 0
        || decide (d.dsp.off < x.dpDelay) then d
    else ((d.set1 Reg.DSP_STATUS_FFR_ACTIVE).wrI Reg.DSP_P_FFR_P_FFR p).raise Ev.DSP_FFR_ACTIVE 0 (code 32 p)

/-- FFR_END: the response ends once n_d consecutive allocations had e = 0 (R296). -/
def Dev.ffrEnd (d : Dev) : Dev :=
  let x := d.rl.dispRec
  match d.dsp.freq with
  | none => d
  | some (f, _) =>
    if !d.on Reg.DSP_STATUS_FFR_ACTIVE || (ffrLin x f).1 != 0 || decide (d.dsp.dead < x.dpDelay) then d
    else ((d.clr Reg.DSP_STATUS_FFR_ACTIVE).wr Reg.DSP_P_FFR_P_FFR 0).raise Ev.DSP_FFR_END 0 0

/-- FREQ_LOST: the newest sample is older than `F_TIMEOUT` (R296). -/
def Dev.ffrLost (d : Dev) : Dev :=
  let tmo := max 1 (d.rd Reg.DSP_FFR_CTRL_F_TIMEOUT)
  match d.dsp.freq with
  | none => d
  | some (_, b) =>
    if d.dsp.freqLost || !d.on Reg.DSP_FFR_CTRL_EN || !d.on Reg.DSP_STATUS_RUNNING || decide (d.cyc ≤ b + 8 * tmo) then d
    else
      let d := (d.clr Reg.DSP_STATUS_FFR_ACTIVE).wr Reg.DSP_P_FFR_P_FFR 0
      { d with dsp := { d.dsp with freqLost := true, off := 0, dead := 0 } }.raise Ev.DSP_FREQ_LOST 0 tmo

/-- The frequency response at an allocation (R296): p_ffr. -/
def Dev.dspFfr (d : Dev) : Dev :=
  let d := match d.dsp.freq with
    | some (f, _) => d.wr Reg.DSP_FREQ_FREQ f
    | none => d
  if !d.on Reg.DSP_FFR_CTRL_EN || d.mode == .wrap then
    { ((d.clr Reg.DSP_STATUS_FFR_ACTIVE).wr Reg.DSP_P_FFR_P_FFR 0) with dsp := { d.dsp with off := 0, dead := 0 } }
  else
    let d := d.ffrLost
    match d.dsp.freq with
    | none => d
    | some (f, _) =>
      if d.dsp.freqLost then d
      else
        let (e, p) := ffrLin d.rl.dispRec f
        let d := if e = 0 then { d with dsp := { d.dsp with off := 0, dead := d.dsp.dead + 1 } }
          else { d with dsp := { d.dsp with off := d.dsp.off + 1, dead := 0 } }
        let d := d.ffrStart.ffrEnd
        d.wrI Reg.DSP_P_FFR_P_FFR (if d.on Reg.DSP_STATUS_FFR_ACTIVE then p else 0)

/-- The plant target p_tgt (R295, R298). -/
def Dev.dspTarget (d : Dev) : Dev × Int :=
  let src := d.rd Reg.DSP_STATUS_SRC
  let pReq : Int := if d.mode = .wrap ∨ src = 3 ∨ d.on Reg.DSP_STATUS_WDOG = true then 0
    else match d.dsp.force.find src with
      | some (v, _) => sx 32 v
      | none => 0
  let ramp : Int := d.rl.dispRec.dpRamp
  let p8 := if ramp = 0 then 8 * pReq else d.dsp.p8 + min (max (8 * pReq - d.dsp.p8) (-ramp)) ramp
  let base := rhu p8 8
  let (tgt, sat) := satS 32 (base + d.rdI Reg.DSP_P_FFR_P_FFR)
  let d := { d with dsp := { d.dsp with p8 := p8 } }
  (((d.wrI Reg.DSP_P_REQ_P_REQ pReq).wrI Reg.DSP_P_BASE_P_BASE base).dspArith sat, tgt)

/-! ### Headroom and derates (R299, R300) -/

/-- DERATE_GRACE_EXPIRY: a grace timer that has run out enforces the requested factor (R299). -/
def Dev.derateExpire (d : Dev) (s : Nat) : Dev :=
  let x := d.dstr s
  if x.grace ≠ some 0 then d
  else
    let req := d.rd Reg.DSP_STR_DER_REQUESTED s
    let d := (d.setDstr s { x with grace := none }).wr Reg.DSP_STR_DER_ENFORCED req s
    ((d.wr Reg.DSP_STR_STAT_GRACE 0 s).wr Reg.DSP_STR_STAT_GRACE_LEFT 0 s).raise Ev.DSP_DERATE_ENFORCED s req

/-- The factors of a string at an allocation (R292, R299). -/
def Dev.dspDerate (d : Dev) (s : Nat) : Dev :=
  let b := d.now
  let x := d.dstr s
  let (dn, dl) := x.ders.partition (fun p => decide (p.1 + lagEst ≤ b))
  let (sn, sl) := x.sups.partition (fun p => decide (p.1 + lagLpe ≤ b))
  let der := match dn.getLast? with
    | some p => p.2
    | none => x.der
  let sup := match sn.getLast? with
    | some p => p.2
    | none => x.sup
  let req := min der (if sup then 0 else 32768)
  let enf := d.rd Reg.DSP_STR_DER_ENFORCED s
  let d := d.wr Reg.DSP_STR_DER_REQUESTED req s
  let x := { x with ders := dl, sups := sl, der := der, sup := sup }
  let grace := d.rl.dispRec.dpGrace
  if enf ≤ req then
    let d := ((d.setDstr s { x with grace := none }).wr Reg.DSP_STR_DER_ENFORCED req s)
    let d := (d.wr Reg.DSP_STR_STAT_GRACE 0 s).wr Reg.DSP_STR_STAT_GRACE_LEFT 0 s
    if enf < req then d.raise Ev.DSP_DERATE_LIFTED s req else d
  else
    let (n, start) := match x.grace with
      | some n => (n - 1, false)
      | none => (8 * grace, true)
    let d := d.setDstr s { x with grace := some n }
    let d := (d.wr Reg.DSP_STR_STAT_GRACE 1 s).wr Reg.DSP_STR_STAT_GRACE_LEFT ((n + 7) / 8) s
    let d := if start then d.raise Ev.DSP_DERATE_GRACE s (req + grace * 2 ^ 16) else d
    d.derateExpire s

/-- The limits of a string at an allocation (R292, R300). -/
def Dev.dspLimits (d : Dev) (s : Nat) : Dev :=
  let b := d.now
  let x := d.dstr s
  let (now, later) := x.hrs.partition (fun p => decide (p.ts + lagEst ≤ b))
  let hr := match now.getLast? with
    | some p => some p
    | none => x.hr
  let d := d.setDstr s { x with hrs := later, hr := hr }
  let ring := (d.rl.ringOf s).getD 0
  let limit := 4 * d.rl.cpt ring * 125000 + lagEst
  let stale := match hr with
    | some p => decide (p.ts + limit < b)
    | none => true
  let e := d.rd Reg.DSP_STR_DER_ENFORCED s
  let hi := match hr with
    | some p => if stale then 0 else p.pDis * e / 32768
    | none => 0
  let lo := match hr with
    | some p => if stale then 0 else p.pChg * e / 32768
    | none => 0
  let ts := match hr with
    | some p => ts32 p.ts
    | none => 0
  let was := d.on Reg.DSP_STR_STAT_HR_STALE s
  let d := (((d.wr Reg.DSP_STR_STAT_HR_STALE (b2n stale) s).wr Reg.DSP_STR_HI_HI hi s).wr Reg.DSP_STR_LO_LO lo s).wr Reg.DSP_STR_HR_TS32 ts s
  if stale && !was then d.raise Ev.DSP_HR_STALE s ts else d

/-! ### Allocation (R301 to R303) -/

/-- A string in the allocation: its number, limit h, weight c. -/
structure AStr where
  s : Nat
  h : Nat
  c : Nat
deriving DecidableEq, Repr

/-- The walk of R302 over the eligible strings in order: what remains, the weight left, the strings fixed. -/
def fillWalk (rem cw : Nat) (fixed : List AStr) : List AStr → Nat × Nat × List AStr
  | [] => (rem, cw, fixed)
  | a :: r => if a.h * cw ≤ rem * a.c then fillWalk (rem - a.h) (cw - a.c) (fixed ++ [a]) r else (rem, cw, fixed)

/-- The shares of R302 without their sign, by string, and the strings held at their limits, of a power p over strings with limits and weights. -/
def allocShares (p : Nat) (l : List AStr) : List (Nat × Nat) × List Nat :=
  let elig := l.filter (fun a => decide (0 < a.h) && decide (0 < a.c))
  let order := sortBy (fun a b => decide (a.h * b.c < b.h * a.c) || (a.h * b.c == b.h * a.c && decide (a.s ≤ b.s))) elig
  let (rem, cw, fixed) := fillWalk p (sumN (elig.map AStr.c)) [] order
  let free := sortBy (fun a b => decide (a.s ≤ b.s)) (elig.filter (fun a => !fixed.any (fun f => f.s == a.s)))
  let q := free.map (fun a => (a.s, rem * a.c / cw))
  let r := rem - sumN (q.map (fun x => x.2))
  let q := (List.range q.length).map (fun k => let x := q.getD k (0, 0); if k < r then (x.1, x.2 + 1) else x)
  (fixed.map (fun a => (a.s, a.h)) ++ q, fixed.map AStr.s)

/-- The weight of a string (Table 11.6). -/
def Dev.dspWeight (d : Dev) (s : Nat) (dis : Bool) : Nat :=
  let p := d.rl.dispRec.dpPolicy
  let (lo, hi) := match (d.dstr s).hr with
    | some h => (h.socMin, h.socMax)
    | none => (0, 0)
  if p = 0 then (if dis then d.rd Reg.DSP_STR_HI_HI s else d.rd Reg.DSP_STR_LO_LO s)
  else if p = 1 then 1
  else if p = 2 then (if dis then 1 + lo else 10001 - hi)
  else (Rec.orEmpty (d.rl.dispStr s)).dsWeight

/-- The setpoint v of a share in the string's unit (R303). -/
def Dev.dspValue (d : Dev) (s : Nat) (share : Int) : Int :=
  if (Rec.orEmpty (d.rl.dispStr s)).dsUnit ≠ 1 then share
  else
    let e := d.rd Reg.DSP_STR_DER_ENFORCED s
    let hi := d.rd Reg.DSP_STR_HI_HI s
    let lo := d.rd Reg.DSP_STR_LO_LO s
    match (d.dstr s).hr with
    | none => 0
    | some h =>
      if 0 < share ∧ 0 < hi then rhu (share * h.iDis * e) (32768 * hi)
      else if share < 0 ∧ 0 < lo then -(rhu (-share * h.iChg * e) (32768 * lo))
      else 0

/-! ### Outputs (R304) -/

/-- A SETPOINT packet (R144): type 0x19, 5 bytes, the address and the value. -/
def setpointPacket (addr : Nat) (v : Int) : QUnit :=
  .pkt (mkHead 0) [mkItem (0x19 * 2 ^ 52 + 5 * 2 ^ 36), mkItem (addr + code 32 v * 2 ^ 8)]

/-- Writes the setpoint of a string. -/
def Dev.dspWrite (d : Dev) (s : Nat) (v : Int) : Dev :=
  let x := Rec.orEmpty (d.rl.dispStr s)
  if x.dsLoop ≠ 0xFFFF then
    let (c, sat) := satS 28 v
    (d.dspArith sat).produce 0x6000 s (.one (mkItem (ts32 d.now * 2 ^ 28 + code 28 c)))
  else match d.rl.headOf s with
    | some n => let (c, sat) := satS 32 v; (d.dspArith sat).produce 0x6000 (0x100 + n.ndRing) (setpointPacket n.ndAddr c)
    | none => d

/-- DSP_ALLOCATION: the allocation at the present boundary (R292 to R304). -/
def Dev.dspAllocate (d : Dev) : Dev :=
  if !d.live || d.rl.disp.isNone then d
  else
    let strs := d.rl.dispStrings
    let d := { d.set1 Reg.DSP_STATUS_RUNNING with dsp := { d.dsp with last := some d.now } }
    let d := d.dspInputs.dspSelect.dspWatch.dspFfr
    let (d, tgt) := d.dspTarget
    let d := strs.foldl (fun (d : Dev) s => (d.dspDerate s).dspLimits s) d
    let aDis := sumN (strs.map (fun s => d.rd Reg.DSP_STR_HI_HI s))
    let aChg := sumN (strs.map (fun s => d.rd Reg.DSP_STR_LO_LO s))
    let dis := decide (0 ≤ tgt)
    let avail := if dis then aDis else aChg
    let p := min tgt.natAbs avail
    let short := decide (avail < tgt.natAbs)
    let d := (d.wr Reg.DSP_AVAIL_DIS_AVAIL_DIS (min aDis (2 ^ 32 - 1))).wr Reg.DSP_AVAIL_CHG_AVAIL_CHG (min aChg (2 ^ 32 - 1))
    let d := if short && !d.on Reg.DSP_STATUS_SHORT then d.raise Ev.DSP_SHORTFALL 0 (min (tgt.natAbs - p) (2 ^ 32 - 1)) else d
    let d := d.wr Reg.DSP_STATUS_SHORT (b2n short)
    let l := strs.map (fun s => ({ s := s, h := d.rd (if dis then Reg.DSP_STR_HI_HI else Reg.DSP_STR_LO_LO) s, c := d.dspWeight s dis } : AStr))
    let (sh, fixed) := if tgt = 0 then ([], []) else allocShares p l
    let share (s : Nat) : Int := let m : Nat := ((sh.find? (fun x => x.1 == s)).map (fun x => x.2)).getD 0; if dis then m else -(m : Int)
    let d := d.wrI Reg.DSP_P_ALLOC_P_ALLOC (sumI (strs.map share))
    let all := d.dsp.all || d.cyc % 8000 == 0
    let d := strs.foldl (fun (d : Dev) s =>
      let v := d.dspValue s (share s)
      let changed := (d.dstr s).v != some v
      let d := (d.wrI Reg.DSP_STR_SET_VALUE (clampS 32 v) s).wr Reg.DSP_STR_STAT_FIXED (b2n (fixed.contains s)) s
      if changed || all then (d.setDstr s { d.dstr s with v := some v }).dspWrite s v else d) d
    let d := { d with dsp := { d.dsp with all := false } }
    (d.wr Reg.DSP_CYCLE_CYCLE d.cyc).dspShow

/-! ### Build, start and stop -/

/-- The configuration registers and strings of a built structure (Tables 11.11, 11.15). -/
def Dev.dspBuild (d : Dev) : Dev :=
  let so := d.rl.dispRec.dpSources
  let first := ((List.range 3).find? (fun i => bitAt so i)).getD 3
  let d := { d with dsp := {} }
  let d := if d.rl.disp.isNone then d
    else ((d.wr Reg.DSP_CTRL_SRC first).wr Reg.DSP_FFR_CTRL_EN (b2n (bitAt so 3))).wr Reg.DSP_STATUS_SRC first
  d.rl.dispStrings.foldl (fun (d : Dev) s =>
    let x := Rec.orEmpty (d.rl.dispStr s)
    let d := (d.wr Reg.DSP_STR_STAT_IN_DISP 1 s).wr Reg.DSP_STR_STAT_UNIT x.dsUnit s
    let d := (d.wr Reg.DSP_STR_STAT_DIRECT (b2n (x.dsLoop == 0xFFFF)) s).wr Reg.DSP_STR_STAT_RING ((d.rl.ringOf s).getD 0) s
    (d.wr Reg.DSP_STR_DER_REQUESTED 32768 s).wr Reg.DSP_STR_DER_ENFORCED 32768 s) d

/-- Entry to RUN (R288, R295, R304). -/
def Dev.dspStart (d : Dev) : Dev :=
  if d.rl.disp.isNone then d
  else
    let at_ : Tbl Nat := [(0, d.own), (1, d.own), (2, d.own)]
    let d := { d.set1 Reg.DSP_STATUS_RUNNING with dsp := { d.dsp with seqs := [], pend := [], force := [], freq := none, held := [], early := [], p8 := 0, off := 0, dead := 0, freqLost := false, accAt := at_, last := none, all := d.actRole } }
    (d.clr Reg.DSP_STATUS_WDOG).dspShow

/-- Leaving RUN and WRAP (R298). -/
def Dev.dspStop (d : Dev) : Dev :=
  let d := { d.clr Reg.DSP_STATUS_RUNNING with dsp := { d.dsp with pend := [], held := [], early := [], last := none } }
  ((d.clr Reg.DSP_STATUS_FFR_ACTIVE).wr Reg.DSP_P_FFR_P_FFR 0).dspShow

end Sys2Proof.Machine
end

