-- ==== Sys2Proof/Machine/Lnk.lean ====
section
/-!
DEFINITION. Machine/Lnk.lean: the Nusal links (chapter 5). Acceptance and delivery of node frames (R122, R126, R132 to R135, R146), enumeration
(R129 to R131, R517), the command window (R118, R121, R123, R144, R145, R226), loop delays and breaks (R116, R135, R136), ports.
-/
namespace Sys2Proof.Machine

/-! ### Node frames -/

/-- Type, state, `RANGE_ANY`, address and `NFLAG` of a node frame (R121). -/
def nfType (b : List Byte) : Nat := byteAt b 0 % 16
def nfState (b : List Byte) : Nat := byteAt b 0 / 16 % 8
def nfRange (b : List Byte) : Bool := bitAt (byteAt b 0) 7
def nfAddr (b : List Byte) : Nat := byteAt b 1 % 128
def nfFlag (b : List Byte) : Bool := bitAt (byteAt b 1) 7

/-- The check of a frame's CRC: the CRC-32C of every byte before the last four (R121). -/
def crcOk (b : List Byte) : Bool := decide (4 ≤ b.length) && crc32c (b.take (b.length - 4)) == le b (b.length - 4) 4

/-- Whether type and length of a node frame agree (R122, Table 5.7). -/
def nfLenOk (b : List Byte) : Bool :=
  match nfType b with
  | 1 => b.length == 38
  | 2 => b.length == 54
  | 3 => b.length == 9
  | 4 => b.length == 34
  | 5 => decide (9 ≤ b.length) && byteAt b 2 + 7 == b.length
  | _ => false

/-- The rotation that a port of a ring receives: the originator receives each rotation where it returns, another station where it comes in
(R114, R115). -/
def Dev.portRot (d : Dev) (port : Nat) : Nat :=
  if (d.lr (port / 2)).orig then 1 - port % 2 else port % 2

/-- The port of a ring that receives a rotation. -/
def Dev.rotPort (d : Dev) (ring rot : Nat) : Nat := 2 * ring + (if (d.lr ring).orig then 1 - rot else rot)

/-- The Take of a ring that a cycle belongs to, with the cycle of its Slate. -/
def LRing.takeOf (r : LRing) (cyc : Nat) : Option (TakePlan × Nat) :=
  match r.cur with
  | some (p, c) => if c ≤ cyc then some (p, c) else (match r.prev with
    | some (p', c') => if c' ≤ cyc then some (p', c') else none
    | none => none)
  | none => none

/-- The node frame scheduled at a data position of a cycle of a ring: address and type (R516, Table 5.7). -/
def Dev.scheduled (d : Dev) (ring cyc pos : Nat) : Option (Nat × Nat) :=
  let r := d.lr ring
  let rl := d.rlAt ring cyc
  match r.replies.find? (fun x => x.1 == cyc && x.2.1 == pos) with
  | some x => some (x.2.2.1, 5)
  | none =>
    match r.takeOf cyc with
    | none => none
    | some (p, c) =>
      let i := cyc - c
      let cpt := rl.cpt ring
      if cpt ≤ i then none
      else if 1185 ≤ pos ∧ i + 1 = cpt then
        let k := (pos - 1185) / 35
        if (pos - 1185) % 35 = 0 ∧ k < p.pollCount then (rl.node ring (p.pollFirst + k)).map (fun n => (n.ndAddr, 4)) else none
      else
        match (rl.heads ring).find? (fun n => rl.qPos ring n.ndAddr == pos) with
        | some n => some (n.ndAddr, 3)
        | none =>
          match (rl.nodes ring).find? (fun n => rl.dataPos ring n.ndAddr == (i, pos)) with
          | some n => some (n.ndAddr, n.ndKind)
          | none => none

/-- Values for codes that no frame has ever carried (assumption log 2): n free values. -/
def Dev.freshCodes (d : Dev) (n width : Nat) : Dev × List Int :=
  (List.range n).foldl (fun (a : Dev × List Int) _ =>
    let (d, v) := a.1.fresh
    (d, a.2 ++ [sx width v])) (d, [])

/-- Never-used code −2^23 is clamped (R39). -/
def clamp24 (v : Int) : Int := if v = -8388608 then -8388607 else v

/-- A list of bytes as items of 7 bytes each (R144). -/
def byteItems (b : List Byte) : List Item :=
  (List.range ((b.length + 6) / 7)).map (fun k => mkItem (le (padTo (slice b (7 * k) 7) 7) 0 7))

/-- Writes the packets of a DATA_V frame, or of its absence (streams 0; R42, R133, R146). -/
def Dev.putCells (d : Dev) (ring cyc addr : Nat) (fr : Option (List Byte)) (dup : Bool) : Dev :=
  match d.rl.node ring addr with
  | none => d
  | some n =>
    let r := d.lr ring
    let slate := (match r.takeOf cyc with | some (_, c) => c * 125000 | none => d.now)
    let bad := decide (3 ≤ d.nodeState ring addr)
    let (d, old) := match r.lastV.find addr with
      | some l => (d, l)
      | none => if fr.isSome && !bad then (d, []) else d.freshCodes 16 16
    let old := old.map (fun v => v % 65536)
    let (codes, stale, rng, nfl) := match fr with
      | some b => if bad then (old, true, nfRange b, nfFlag b)
          else ((List.range 16).map (fun j => (le b (2 + 2 * j) 2 : Int)), false, nfRange b, nfFlag b)
      | none => (old, true, false, false)
    let d := if stale then d else d.setLr ring { d.lr ring with lastV := (d.lr ring).lastV.ins addr codes }
    let items := (setBits n.ndCellMask 16).map (fun j =>
      let v := codes.getD j 0
      sampleItem (slate + 4000 * j) v (d.cellFlags ring addr j nfl rng stale dup v))
    d.produce (0x1000 + ring) 0 (.pkt (rxHead n.ndCellBase addr ring) items)

/-- Writes the packet of a DATA_I frame, or of its absence (stream 2). -/
def Dev.putCurrents (d : Dev) (ring cyc addr : Nat) (fr : Option (List Byte)) (dup : Bool) : Dev :=
  let r := d.lr ring
  let slate := (match r.takeOf cyc with | some (_, c) => c * 125000 | none => d.now)
  let bad := decide (3 ≤ d.nodeState ring addr)
  let (d, old) := match r.lastV.find addr with
    | some l => (d, l)
    | none => if fr.isSome && !bad then (d, []) else d.freshCodes 16 24
  let (codes, stale, rng) := match fr with
    | some b => if bad then (old, true, nfRange b) else ((List.range 16).map (fun j => clamp24 (sx 24 (le b (2 + 3 * j) 3))), false, nfRange b)
    | none => (old, true, false)
  let d := if stale then d else d.setLr ring { d.lr ring with lastV := (d.lr ring).lastV.ins addr codes }
  let items := (List.range 16).map (fun j =>
    let v := clamp24 (codes.getD j 0)
    currentItem (slate + 4000 * j) v (d.curFlags ring addr rng stale dup v))
  d.produce (0x1000 + ring) 2 (.pkt (rxHead 0 addr ring) items)

/-- Writes the packet of a DATA_Q frame, or of its absence (stream 3): the charge over the cycle before. -/
def Dev.putCharge (d : Dev) (ring cyc addr : Nat) (fr : Option (List Byte)) (dup : Bool) : Dev :=
  let r := d.lr ring
  let bad := decide (3 ≤ d.nodeState ring addr)
  let (d, old) := match r.lastQ.find addr with
    | some v => (d, v)
    | none => if fr.isSome && !bad then (d, 0) else (let (d, v) := d.fresh; (d, sx 24 v))
  let (v, stale, rng) := match fr with
    | some b => if bad then (old, true, nfRange b) else (clamp24 (sx 24 (le b 2 3)), false, nfRange b)
    | none => (old, true, false)
  let v := clamp24 v
  let d := if stale then d else d.setLr ring { d.lr ring with lastQ := (d.lr ring).lastQ.ins addr v }
  d.produce (0x1000 + ring) 3 (.pkt (rxHead 0 addr ring) [currentItem ((cyc - 1) * 125000) v (d.curFlags ring addr rng stale dup v)])

/-- Writes the temperature packet of a cell node's STATUS, or of its absence (stream 1; R146, R179). -/
def Dev.putTemps (d : Dev) (ring cyc addr : Nat) (fr : Option (List Byte)) (dup : Bool) : Dev :=
  match d.rl.node ring addr with
  | none => d
  | some n =>
    if n.ndKind ≠ 1 ∨ n.ndTempMask = 0 then d
    else
      let r := d.lr ring
      let slate := (match r.takeOf cyc with | some (_, c) => c * 125000 | none => d.now)
      let bad := decide (3 ≤ d.nodeState ring addr)
      let (d, old) := match r.lastT.find addr with
        | some l => (d, l)
        | none => if fr.isSome && !bad then (d, []) else d.freshCodes 8 16
      let (codes, stale, rng) := match fr with
        | some b => if bad then (old, true, nfRange b) else ((List.range 8).map (fun j => sx 16 (le b (14 + 2 * j) 2)), false, nfRange b)
        | none => (old, true, false)
      let d := if stale then d else d.setLr ring { d.lr ring with lastT := (d.lr ring).lastT.ins addr codes }
      let items := (setBits n.ndTempMask 8).map (fun j =>
        let v := codes.getD j 0
        sampleItem (slate + 4000 * (16 + j)) v (d.tempFlags ring addr j rng stale dup v))
      d.produce (0x1000 + ring) 1 (.pkt (rxHead n.ndTempBase addr ring) items)

/-- What an accepted STATUS tells LNK itself: `E_MAX`, `DELTA`, `DELAY_EST` (R137, R140, R382, Table 5.8). -/
def Dev.statusSeen (d : Dev) (ring addr : Nat) (b : List Byte) : Dev :=
  let emax := le b 6 4
  let sfl := le b 4 2
  let d := (d.wr Reg.LNK_NODE_EMAX_E_MAX emax ring addr).wr Reg.LNK_NODE_LINK_DELTA (le b 10 2) ring addr
  let d := if d.rd Reg.SIN_EPOCH_EPOCH < emax then
      (d.raise Ev.LNK_EPOCH_BEHIND (nodeInst ring addr) emax).demote 3 emax
    else d
  let n := d.sn ring addr
  if n.estOn && bitAt sfl 6 && bitAt sfl 7 then
    (d.setSn ring addr { n with estOn := false }).clr Reg.LNK_NODE_LINK_EST ring addr
  else d

/-- Marks a scheduled frame as written, and forgets old ones. -/
def Dev.markWritten (d : Dev) (ring cyc addr ntype : Nat) : Dev :=
  let r := d.lr ring
  d.setLr ring { r with
    held := r.held.filter (fun h => !(h.cyc == cyc && h.addr == addr && h.ntype == ntype)),
    written := (cyc, addr, ntype) :: r.written.filter (fun x => decide (cyc < x.1 + 64)) }

/-- The answer to a READ of `E_MAX` after an enumeration, or its absence (R377). -/
def Dev.emaxGot (d : Dev) (ring addr v : Nat) : Dev :=
  let r := d.lr ring
  if r.emaxAsk.contains addr then
    let d := d.setLr ring { r with emaxAsk := r.emaxAsk.filter (fun a => a != addr) }
    { d with lnk := { d.lnk with emaxRead := max d.lnk.emaxRead v } }
  else d

/-- Writes the items of an accepted scheduled frame (R132, R146); `b` is the frame without its CRC. -/
def Dev.deliver (d : Dev) (ring cyc addr ntype : Nat) (b : List Byte) (dup : Bool) : Dev :=
  let d := d.markWritten ring cyc addr ntype
  match ntype with
  | 4 =>
    let slate := (match (d.lr ring).takeOf cyc with | some (_, c) => c * 125000 | none => d.now)
    let d := d.statusSeen ring addr b
    let d := d.putTemps ring cyc addr (some b) dup
    let hdr := mkItem (ts32 slate * 2 ^ 28 + addr)
    d.produce (0x1000 + ring) 4 (.pkt (rxHead 0 addr ring) (hdr :: byteItems (slice b 2 28)))
  | 5 =>
    let r := d.lr ring
    let d := d.setLr ring { r with replies := r.replies.filter (fun x => !(x.1 == cyc && x.2.2.1 == addr)) }
    let d := d.emaxGot ring addr (if byteAt b 4 = 0 ∧ b.length = 9 then le b 5 4 else 0)
    let hdr := mkItem (byteAt b 3 * 2 ^ 52 + byteAt b 4 * 2 ^ 44 + addr)
    d.produce (0x1000 + ring) 5 (.pkt (rxHead 0 addr ring) (hdr :: byteItems (b.drop 5)))
  | _ =>
    let (d, v) := d.ownReport ring addr (nfState b) 0
    let d := d.updData ring addr v
    if ntype = 3 then d.putCharge ring cyc addr (some b) dup
    else
      let r := d.lr ring
      let d := d.setLr ring { r with miss := r.miss.del addr }
      if ntype = 1 then d.putCells ring cyc addr (some b) dup else d.putCurrents ring cyc addr (some b) dup

/-- Neither copy of a scheduled frame was accepted (R133, R179, R184, Table 5.14). -/
def Dev.missed (d : Dev) (ring cyc addr ntype : Nat) : Dev :=
  let d := d.markWritten ring cyc addr ntype
  match ntype with
  | 4 =>
    let n := d.sn ring addr
    let d := d.setSn ring addr { n with missed := n.missed + 1 }
    let d := if n.missed + 1 ≥ 3 then d.updMgmt ring addr 3 else d
    let d := d.comparePoll ring addr
    d.putTemps ring cyc addr none false
  | 5 =>
    let r := d.lr ring
    match r.replies.find? (fun x => x.1 == cyc && x.2.2.1 == addr) with
    | none => d
    | some x =>
      let d := d.setLr ring { r with replies := r.replies.filter (fun y => !(y.1 == cyc && y.2.2.1 == addr)) }
      let d := d.emaxGot ring addr 0
      d.produce (0x1000 + ring) 5 (.pkt (rxHead 0 addr ring) [mkItem (x.2.2.2 * 2 ^ 52 + 0xFF * 2 ^ 44 + addr)])
  | 3 => d.putCharge ring cyc addr none false
  | _ =>
    let r := d.lr ring
    let k := r.miss.get addr 0 + 1
    let d := d.setLr ring { r with miss := r.miss.ins addr k }
    let d := if k = 3 ∧ d.dataView ring addr < 3 then
        (d.updData ring addr 3).raise Ev.LNK_NODE_LOST (nodeInst ring addr) (d.rd Reg.LNK_RING_TAKE_TAKE ring)
      else d
    if ntype = 1 then d.putCells ring cyc addr none false else d.putCurrents ring cyc addr none false

/-- A frame refused under R122: counters, error bits and the CRC rate event. -/
def Dev.refuseFrame (d : Dev) (port : Nat) (codeErr : Bool) : Dev :=
  if codeErr then (d.bump Reg.LNK_CNT_CODE_CNT 1 port).set1 Reg.LNK_PORT_ERR_CODE port
  else
    let d := (d.bump Reg.LNK_CNT_CRC_CNT 1 port).set1 Reg.LNK_PORT_ERR_CRC port
    let old := (d.lnk.crcAt.get port []).filter (fun x => decide (d.own < x + oneSec))
    let d := { d with lnk := { d.lnk with crcAt := d.lnk.crcAt.ins port ((d.own :: old).take 4096) } }
    if old.length = 16 then d.raise Ev.LNK_CRC_RATE port 17 else d

/-- Notes on which rotations a node's frames arrive (Table 5.21). -/
def Dev.noteRot (d : Dev) (ring addr rot : Nat) (on : Bool) : Dev :=
  d.wr (if rot = 0 then Reg.LNK_NODE_LINK_ROT0 else Reg.LNK_NODE_LINK_ROT1) (b2n on) ring addr

/-- The data position of a scheduled frame. -/
def Dev.posOf (d : Dev) (ring cyc addr nt : Nat) : Nat :=
  match nt with
  | 3 => d.rl.qPos ring addr
  | 4 => (match (d.lr ring).takeOf cyc with
    | some (p, _) => 1185 + 35 * (addr - p.pollFirst)
    | none => 0)
  | 5 => (match (d.lr ring).replies.find? (fun x => x.1 == cyc && x.2.2.1 == addr) with
    | some x => x.2.1
    | none => 0)
  | _ => ((d.rlAt ring cyc).dataPos ring addr).2

/-- Sends the acceptance entry of a scheduled frame to the partner (R386), one entry a frame; `rots` is the set of rotations from which a copy was accepted.
The content follows when only the rotation that does not pass the partner gave one: rotation 1 for a node of the first segment, rotation 0 for one of the
second (R6). -/
def Dev.accept (d : Dev) (ring cyc addr nt : Nat) (b : Option (List Byte)) (rots : Nat) : Dev :=
  if d.solo then d
  else
    let pos := d.posOf ring cyc addr nt
    let crc := match b with | some b => crc32c b | none => 0
    let away := if addr ≤ d.rl.seg1 ring then 2 else 1
    let follows := b.isSome && rots == away
    let d := d.peerSend d.pairLinks pfAccept (toLe ring 1 ++ toLe cyc 4 ++ toLe 1 1 ++ toLe 0 2
      ++ toLe pos 2 ++ toLe addr 1 ++ toLe (nt + 16 * rots + 64 * b2n follows) 1 ++ toLe crc 4)
    match b with
    | none => d
    | some b =>
      let full := b ++ toLe crc 4
      let d := { d with sin := { d.sin with sent := (ring, cyc, pos, full) :: d.sin.sent.filter (fun x => decide (cyc < x.2.1 + 8)) } }
      if follows then d.peerSend d.pairLinks pfContent (toLe ring 1 ++ toLe cyc 4 ++ toLe pos 2 ++ toLe 0 1 ++ full) else d

/-- NODE_FRAME_RECEIVE (R132): a copy of a node frame arrives. `frame` is every byte after SOF_N. -/
def Dev.nodeFrame (d : Dev) (port cyc pos : Nat) (codeErr : Bool) (frame : List Byte) : Dev :=
  let ring := port / 2
  if !d.rl.present ring || bitAt (d.lr ring).stopped (port % 2) then d
  else if codeErr then d.refuseFrame port true
  else if !(crcOk frame && nfLenOk frame) then d.refuseFrame port false
  else
    let addr := nfAddr frame
    let nt := nfType frame
    match d.scheduled ring cyc pos with
    | none => ((d.bump Reg.LNK_CNT_SLOT_CNT 1 port).set1 Reg.LNK_PORT_ERR_SLOT port).raise Ev.LNK_SLOT_ERR port addr
    | some (a, t) =>
      if a ≠ addr ∨ t ≠ nt then
        ((d.bump Reg.LNK_CNT_SLOT_CNT 1 port).set1 Reg.LNK_PORT_ERR_SLOT port).raise Ev.LNK_SLOT_ERR port addr
      else
        let d := d.bump Reg.LNK_CNT_FRAMES_CNT 1 port
        let d := d.noteRot ring addr (d.portRot port) true
        let b := frame.take (frame.length - 4)
        let r := d.lr ring
        if r.written.any (fun x => x == (cyc, addr, nt)) then d
        else match r.held.find? (fun h => h.cyc == cyc && h.addr == addr && h.ntype == nt) with
          | none => d.setLr ring { r with held := r.held ++ [{ cyc := cyc, addr := addr, ntype := nt, bytes := b, port := port, both := false }] }
          | some h =>
            if h.port = port then d
            else
              let d := if h.bytes = b then d
                else (d.set1 Reg.LNK_PORT_ERR_DUP_DIFFER port).raise Ev.LNK_DUP_DIFFER (nodeInst ring addr) nt
              if r.orig then (d.accept ring cyc addr nt (some h.bytes) 3).deliver ring cyc addr nt h.bytes false
              else d.setLr ring { r with held := r.held.map (fun x => if x == h then { h with both := true } else x) }

/-- FRAME_HOLD_DEADLINE (R132, R133): the hold deadline of a scheduled frame passes at the originator. -/
def Dev.holdDeadline (d : Dev) (ring cyc addr nt : Nat) : Dev :=
  let r := d.lr ring
  if !r.orig || r.written.any (fun x => x == (cyc, addr, nt)) || (d.rl.node ring addr).isNone then d
  else match r.held.find? (fun h => h.cyc == cyc && h.addr == addr && h.ntype == nt) with
    | some h =>
      let d := d.bump Reg.LNK_CNT_DUPMISS_CNT 1 h.port
      let d := d.noteRot ring addr (1 - d.portRot h.port) false
      (d.accept ring cyc addr nt (some h.bytes) (2 ^ d.portRot h.port)).deliver ring cyc addr nt h.bytes true
    | none =>
      let d := (d.noteRot ring addr 0 false).noteRot ring addr 1 false
      (d.accept ring cyc addr nt none 0).missed ring cyc addr nt

/-! ### Enumeration -/

/-- Whether every mapped address of a ring has an outcome. -/
def Dev.allOutcomes (d : Dev) (ring : Nat) : Bool :=
  (d.rl.nodes ring).all (fun n => (d.lr ring).outc.get n.ndAddr 0 ≠ 0)

/-- Counts the outcomes into `LNK_RING_ENUM` (Table 5.20). -/
def Dev.countEnum (d : Dev) (ring : Nat) : Dev :=
  let r := d.lr ring
  let n := fun (p : Nat → Bool) => ((d.rl.nodes ring).filter (fun x => p (r.outc.get x.ndAddr 0))).length
  ((d.wr Reg.LNK_RING_ENUM_MATCHED (n (fun o => o == 1 || o == 2)) ring).wr Reg.LNK_RING_ENUM_MISSING (n (fun o => o == 4)) ring).wr
    Reg.LNK_RING_ENUM_WRONG (min (n (fun o => o == 3) + r.extra) 127) ring

/-- The READ of register 0x0010 of a node (R377, Table 5.9); the position of its REPLY is the model's (assumption log 42). -/
def emaxRead (addr : Nat) : LCmd := { typ := 0x14, dest := addr, pay := toLe 0 1 ++ toLe 0x10 2 ++ toLe 4 1 ++ toLe (126 + 14 * ((addr - 1) % 100)) 2 }

/-- The end of an enumeration outside RUN (R131): addresses without outcome are MISSING; the originator reads `E_MAX` of the others (R377). -/
def Dev.enumFinish (d : Dev) (ring : Nat) : Dev :=
  let r := d.lr ring
  if r.enumEnd.isNone then d
  else
    let outc := (d.rl.nodes ring).foldl (fun (o : Tbl Nat) n => if o.get n.ndAddr 0 = 0 then o.ins n.ndAddr 4 else o) r.outc
    let d := d.setLr ring { r with outc := outc, enumEnd := none, enumSent := none }
    let d := (d.rl.nodes ring).foldl (fun (d : Dev) n =>
      if outc.get n.ndAddr 0 = 4 then (d.updMgmt ring n.ndAddr 3).updData ring n.ndAddr 3 else d) d
    let d := d.countEnum ring
    let ask := if r.orig && d.mode == .quiet then ((d.rl.nodes ring).map Rec.ndAddr).filter (fun a => outc.get a 0 == 1 || outc.get a 0 == 2) else []
    let d := d.setLr ring { d.lr ring with emaxAsk := ask, cmds := (d.lr ring).cmds ++ ask.map emaxRead }
    let d := d.wr Reg.LNK_RING_STAT_STATE 2 ring
    d.raise Ev.LNK_ENUM_DONE ring (d.rd Reg.LNK_RING_ENUM_MATCHED ring + d.rd Reg.LNK_RING_ENUM_MISSING ring * 2 ^ 8
      + d.rd Reg.LNK_RING_ENUM_WRONG ring * 2 ^ 16)

/-- Starts an enumeration (R131): outside RUN a wake tone, an assign-mode ENUM and 150 ms; in RUN an ENUM of `MODE` 2 at the restart of the poll
rotation. -/
def Dev.enumStart (d : Dev) (ring : Nat) : Dev :=
  if !d.rl.present ring then d
  else
    let r := d.lr ring
    let d := d.bump Reg.LNK_RING_ENUM_ATTEMPTS 1 ring
    if d.mode == .quiet then
      let d := if r.orig then (d.emit (.tone (2 * ring))).emit (.tone (2 * ring + 1)) else d
      let d := d.setLr ring { r with outc := [], extra := 0, enumEnd := some (d.own + 150000000), enumSent := none, cmds := r.cmds ++ [{ typ := 0x10, dest := 0, pay := [0, 0, BitVec.ofNat 8 (d.rl.ringNodes ring), 0] }] }
      (d.countEnum ring).wr Reg.LNK_RING_STAT_STATE 1 ring
    else d.setLr ring { r with enumRun := true }

/-- The CONFIG frame of a node (Table 5.6). -/
def Dev.configOf (d : Dev) (ring : Nat) (n : Rec) (est : Nat) (useEst : Bool) : LCmd :=
  let rl := d.rl
  let (dc, dp) := rl.dataPos ring n.ndAddr
  { typ := 0x11, dest := n.ndAddr, pay := toLe (rl.rate ring) 1 ++ toLe (rl.phase ring) 1 ++ toLe dc 1 ++ toLe (b2n useEst) 1 ++ toLe dp 2 ++ toLe (if n.ndKind = 2 then rl.qPos ring n.ndAddr else 0) 2 ++ toLe (if n.ndKind = 1 then n.ndCellMask else 0) 2 ++ toLe n.ndTempMask 1 ++ toLe (rl.heads ring).length 1 ++ toLe (if useEst then est else 0) 2 }

/-- ENUM_REPLY (R131, R517, Table 5.10): a REPLY to ENUM with its 24 data bytes is compared with the map and the stored identity. -/
def Dev.enumReply (d : Dev) (ring addr : Nat) (data : List Byte) : Dev :=
  let r := d.lr ring
  if !d.rl.present ring then d
  else match d.rl.node ring addr with
  | none => (d.setLr ring { r with extra := r.extra + 1 }).countEnum ring
  | some n =>
    let uid := le data 0 8
    let kind := byteAt data 8
    let cells := byteAt data 9
    let temps := byteAt data 10
    let inst := nodeInst ring addr
    let d := d.wr Reg.LNK_NODE_LINK_CONFLICT (byteAt data 13 % 2) ring addr
    let d := d.wr Reg.LNK_NODE_LINK_DELTA (le data 14 2) ring addr
    let wrong := if kind ≠ n.ndKind then 1
      else if n.ndKind = 1 ∧ (n.ndCellMask ≥ 2 ^ cells ∨ n.ndTempMask ≥ 2 ^ temps) then 2
      else if n.ndUid ≠ 0 ∧ uid ≠ n.ndUid then 3 else 0
    if wrong ≠ 0 then
      let d := (d.setLr ring { r with outc := r.outc.ins addr 3, toAdmit := r.toAdmit.filter (fun a => a != addr) }).clr Reg.LNK_NODE_LINK_UID_OK ring addr
      let d := (d.updMgmt ring addr 4).updData ring addr 4
      let d := (d.countEnum ring).raise Ev.LNK_NODE_MISMATCH inst wrong
      if r.enumEnd.isSome && d.allOutcomes ring then d.enumFinish ring else d
    else
      let stored := (d.nvPeek 8 inst).map (fun b => le b 0 8)
      let repl := n.ndUid == 0 && stored.isSome && stored != some uid
      let d := if stored = some uid then d else d.nvWrite 8 inst (toLe uid 8)
      let one := byteAt data 11 = 0 ∨ byteAt data 12 = 0
      let hops := if byteAt data 11 = 0 then d.rl.ringNodes ring + 1 - addr else addr
      let (d, hop) := match r.hop with
        | some h => (d, h)
        | none => if one then (let (d, v) := d.fresh; (d, v % 2 ^ 16)) else (d, 0)
      let est := hop * hops % 2 ^ 16
      let d := d.setSn ring addr { d.sn ring addr with estOn := decide one }
      let d := d.wr Reg.LNK_NODE_LINK_EST (b2n (decide one)) ring addr
      let d := d.set1 Reg.LNK_NODE_LINK_UID_OK ring addr
      let r := d.lr ring
      let adm := d.nodeState ring addr ≠ 0 ∧ d.nodeState ring addr ≠ 2
      let d := d.setLr ring { r with outc := r.outc.ins addr (if repl then 2 else 1), cmds := r.cmds ++ [d.configOf ring n est (decide one)], toAdmit := if adm then (sortBy (fun a b => decide (a ≤ b)) (addr :: r.toAdmit.filter (fun a => a != addr))) else r.toAdmit }
      let d := if one then d.raise Ev.LNK_ALIGN_DEGRADED inst 0 else d
      let d := if repl then
          let d := d.setSn ring addr { d.sn ring addr with owCnt := [], owAttr := 0, follow := none }
          let d := ((d.wr Reg.SWP_NODE_OW_SUSPECT 0 ring addr).wr Reg.SWP_NODE_OW_CONFIRMED 0 ring addr).wr Reg.SWP_NODE_DIAG_OW_COUNT 0 ring addr
          let d := { d with lnk := { d.lnk with replaced := d.lnk.replaced ++ [inst] } }
          d.raise Ev.LNK_NODE_REPLACED inst (uid % 2 ^ 32)
        else d
      let d := d.countEnum ring
      if r.enumEnd.isSome && d.allOutcomes ring then d.enumFinish ring else d

/-! ### The command window -/

/-- Whether a device frame type is actuating (R122). -/
def actuating (typ : Nat) : Bool := bitAt typ 3

/-- Length of a device frame in characters (R121). -/
def LCmd.chars (c : LCmd) : Nat := 8 + (if actuating c.typ then 4 else 0) + c.pay.length

/-- Order class of a device frame (Table 5.13). -/
def orderOf (typ : Nat) : Nat :=
  match typ with
  | 0x18 => 1 | 0x12 => 2 | 0x19 => 3 | 0x1C => 4 | 0x1B => 4 | 0x1A => 4 | 0x13 => 5 | 0x11 => 5 | 0x10 => 5 | 0x15 => 5 | _ => 6

/-- Whether a frame may stand in the command window and in the overflow region of the cycle (Table 5.5). -/
def inWindow (c : LCmd) (slate : Bool) : Bool :=
  if c.typ = 0x10 then byteAt c.pay 0 ≠ 2 else if c.typ = 0x13 then !slate else true
def inOverflow (c : LCmd) : Bool :=
  c.typ == 0x11 || c.typ == 0x13 || c.typ == 0x14 || c.typ == 0x1A || c.typ == 0x1B || c.typ == 0x1C || c.typ == 0x1E
    || (c.typ == 0x10 && byteAt c.pay 0 == 2)

/-- Entries of SETPOINT and BAL frames after their `COUNT`: a later entry for an address replaces an earlier one (R144). -/
def mergeEntries (a b : List Byte) : List Byte :=
  let split := fun (l : List Byte) => (List.range ((l.length - 1) / 5)).map (fun k => slice l (1 + 5 * k) 5)
  let eb := split b
  let es := (split a).filter (fun e => !eb.any (fun f => byteAt f 0 == byteAt e 0)) ++ eb
  BitVec.ofNat 8 es.length :: es.flatten

/-- A command added to those of the cycle: SETPOINT and BAL commands merge into one frame (R144). -/
def addCmd (l : List LCmd) (c : LCmd) : List LCmd :=
  if c.typ = 0x19 ∨ c.typ = 0x1A then
    match l.find? (fun x => x.typ == c.typ) with
    | some x => l.map (fun y => if y.typ = c.typ then { x with pay := mergeEntries x.pay c.pay } else y)
    | none => l ++ [c]
  else l ++ [c]

/-- The commands of a cycle in the order of Table 5.13. -/
def sortCmds (l : List LCmd) : List LCmd := (List.range 7).flatMap (fun k => l.filter (fun c => orderOf c.typ == k))

/-- Whether the commands of a cycle fit the command window and, in a Slate cycle, the overflow region (R118, R145). -/
def fits (slate : Bool) (l : List LCmd) : Bool :=
  ((sortCmds l).foldl (fun (a : Option (Nat × Nat)) c => match a with
    | none => none
    | some (w, o) =>
      if inWindow c slate && decide (c.chars ≤ w) then some (w - c.chars, o)
      else if inOverflow c && decide (c.chars ≤ o) then some (w, o - c.chars)
      else none) (some (126, if slate then 663 else 0))).isSome

/-- A command packet of a queue read as a command (R144); none when it is to be rejected. -/
def readCmd (u : QUnit) (qid : Nat) (sleepOk : Bool) : Option LCmd :=
  match u with
  | .pkt h (x :: data) =>
    let typ := itemBits x 52 8
    let dest := itemBits x 44 8
    let n := itemBits x 36 8
    let bytes := (data.flatMap (fun i => toLe (itemBits i 0 56) 7)).take n
    let lenOk := match typ with
      | 0x14 => n == 6
      | 0x15 => n == 8 && sleepOk && dest == 0
      | 0x19 => n == 5
      | 0x1A => n == 5
      | 0x1B => n == 4
      | 0x1C => n == 2
      | 0x1E => n == 6 + byteAt bytes 3 && decide (n ≤ 38)
      | _ => false
    if itemErr h || !lenOk || data.length ≠ (n + 6) / 7 then none
    else some { typ := typ, dest := dest, pay := if typ = 0x19 ∨ typ = 0x1A then 1 :: bytes else bytes, qid := some qid }
  | _ => none

/-- The frame of a command: type, destination, length, epoch, payload, CRC (R121). -/
def Dev.frameOf (d : Dev) (c : LCmd) : List Byte :=
  let ep := if actuating c.typ then toLe (d.rd Reg.SIN_EPOCH_EPOCH) 4 else []
  let b := toLe c.typ 1 ++ toLe c.dest 1 ++ toLe (ep.length + c.pay.length) 1 ++ ep ++ c.pay
  b ++ toLe (crc32c b) 4

/-- Takes one packet more from the command queues of a ring: among the heads that fit, one of the lowest order class, round-robin (R226). Rejected
packets leave their queue and are counted (R144). -/
def fillFrom (slate sleepOk : Bool) (qids : List Nat) : Nat → Dev → Nat → List LCmd → Dev × List LCmd
  | 0, d, _, taken => (d, taken)
  | fuel + 1, d, ring, taken =>
    let heads := qids.filterMap (fun q => match d.qf.qs.find q with
      | some x => (match x.reading, x.units with
        | none, u :: _ => some (q, readCmd u q sleepOk)
        | _, _ => none)
      | none => none)
    match heads.find? (fun h => h.2.isNone) with
    | some h => fillFrom slate sleepOk qids fuel (((d.take h.1).1).bump Reg.LNK_CNT_CMDREJ_CNT 1 ring) ring taken
    | none =>
      let ok := heads.filterMap (fun h => match h.2 with
        | some c => if fits slate (addCmd taken c) then some (h.1, c) else none
        | none => none)
      let best := ok.foldl (fun (a : Option (Nat × LCmd)) x => match a with
        | none => some x
        | some y => if orderOf x.2.typ < orderOf y.2.typ then some x else some y) none
      match best with
      | none => (d, taken)
      | some (q, c) => fillFrom slate sleepOk ((qids.filter (fun x => x != q)) ++ [q]) fuel (d.take q).1 ring (addCmd taken c)

/-- The command queues of a ring: those whose consumer is its command transmitter (Table 3.10). -/
def Dev.cmdQueues (d : Dev) (ring : Nat) : List Nat :=
  (d.qf.qs.filter (fun q => q.2.qd.consumer == 0x2000 + ring)).map (fun q => q.1)

/-- The TIME frame of the boundary of cycle k (Table 5.6). -/
def Dev.timeCmd (d : Dev) (ring k : Nat) : LCmd :=
  let n := k * 125000
  { typ := 0x13, dest := 0, pay := toLe k 4 ++ toLe (n / 1000000000) 6 ++ toLe (n % 1000000000) 4 ++ toLe (d.rd Reg.LNK_RING_DP_D0 ring) 2 ++ toLe (d.rd Reg.LNK_RING_DP_D1 ring) 2 ++ toLe (d.rd Reg.LNK_RING_DS_D0 ring) 2 ++ toLe (d.rd Reg.LNK_RING_DS_D1 ring) 2 ++ toLe 0 2 }

/-- The SLATE frame of a Take (Table 5.6). -/
def slateCmd (p : TakePlan) : LCmd :=
  { typ := 0x12, dest := 0, pay := toLe p.take 4 ++ toLe (b2n p.resync) 1 ++ toLe p.rsAddr 1 ++ toLe p.pollFirst 1 ++ toLe p.pollCount 1 }

/-- Fills the command window of cycle k of a ring (R145) and sends it: `first` holds the frames the device itself forms for the cycle. Answers the
actuating commands that the cycle would carry (R387). -/
def Dev.fillWindow (d : Dev) (ring k : Nat) (slate : Bool) (first : List LCmd) : Dev × List LCmd :=
  let r := d.lr ring
  let taken := first.foldl addCmd []
  let (taken, rest) := r.cmds.foldl (fun (a : List LCmd × List LCmd) c =>
    let l := addCmd a.1 c
    if fits slate l then (l, a.2) else (a.1, a.2 ++ [c])) (taken, [])
  let qs := d.cmdQueues ring
  let qs := qs.rotateLeft (r.rr % max qs.length 1)
  let fuel := 8 * qs.length + sumN (qs.map (fun q => match d.qf.qs.find q with | some x => x.units.length | none => 0)) + 1
  let (d, taken) := fillFrom slate (d.mode == .quiet) qs fuel d ring taken
  let waited := qs.foldl (fun (w : Tbl (Nat × Bool)) q => match d.qf.qs.find q with
    | some x => if x.units.isEmpty then w.del q else
        (match taken.any (fun c => c.qid == some q) with
        | true => w.ins q (1, (w.get q (0, false)).2)
        | false => let (n, b) := w.get q (0, false); w.ins q (n + 1, b))
    | none => w.del q) r.waited
  let all := (sortCmds taken).filter (fun c => !(d.gaf.immediate.isSome && (c.typ == 0x19 || c.typ == 0x1A)))
  let ends := (if bitAt r.stopped 0 then 0 else 1) + (if bitAt r.stopped 1 then 0 else 2)
  let d := d.setLr ring { r with cmds := rest, waited := waited, rr := r.rr + 1 }
  let d := all.foldl (fun (d : Dev) c =>
    if actuating c.typ && !d.actuates then (if c.qid.isSome then d.bump Reg.LNK_CNT_CMDREJ_CNT 1 ring else d)
    else
      let d := if r.orig && ends != 0 then d.emit (.ring ring ends (d.frameOf c)) else d
      if c.typ = 0x14 ∨ c.typ = 0x1E then
        let r := d.lr ring
        let cyc := match r.cur with
          | some (_, s) => let cpt := d.rl.cpt ring; let nxt := s + cpt - 1; if k < nxt then nxt else nxt + cpt
          | none => k + 1
        d.setLr ring { r with replies := r.replies ++ [(cyc, le c.pay 4 2, c.dest, byteAt c.pay 0)] }
      else if c.typ = 0x10 ∧ byteAt c.pay 0 = 0 ∧ r.orig then d.setLr ring { d.lr ring with enumSent := some k }
      else d) d
  (d, all.filter (fun c => actuating c.typ))

/-! ### The cycle at the originator -/

/-- The end of a cycle on a ring that this device originates: which CYC returned (R135), the loop delays (R116), a stop of origination (R114), ports
stopped or restarted (R147), the confirm-mode ENUM (R131). -/
def Dev.rollCycle (d : Dev) (ring k : Nat) : Dev :=
  let r := d.lr ring
  let en := fun p => d.on Reg.LNK_PORT_CTRL_ENABLE (2 * ring + p)
  let stopped := b2n (!en 0) + 2 * b2n (!en 1)
  if !r.orig then d.setLr ring { r with stopped := stopped }
  else
    let ok := fun rot => bitAt r.seen rot
    let code := d.origCode
    let d0 := if code = 0 then d.rd Reg.LNK_RING_DP_D0 ring else d.rd Reg.LNK_RING_DS_D0 ring
    let d1 := if code = 0 then d.rd Reg.LNK_RING_DP_D1 ring else d.rd Reg.LNK_RING_DS_D1 ring
    let isLong := (ok 0 && decide (31000 < d0)) || (ok 1 && decide (31000 < d1))
    let conf := match r.enumSent with | some e => decide (e + 4 ≤ k) | none => false
    let d := d.setLr ring { r with
      loss0 := if ok 0 then 0 else r.loss0 + 1, loss1 := if ok 1 then 0 else r.loss1 + 1,
      back := if ok 0 && ok 1 then r.back + 1 else 0, seen := 0, long := if isLong then r.long + 1 else 0, stopped := stopped,
      enumSent := if conf then none else r.enumSent,
      cmds := if conf then r.cmds ++ [{ typ := 0x10, dest := 0, pay := [1, 0, BitVec.ofNat 8 (d.rl.ringNodes ring), 0] }] else r.cmds }
    let d := (d.wr Reg.LNK_PORT_STAT_CYC_OK (b2n (ok 1)) (2 * ring)).wr Reg.LNK_PORT_STAT_CYC_OK (b2n (ok 0)) (2 * ring + 1)
    let d := if isLong then d else d.clr Reg.LNK_RING_STAT_LONG ring
    if r.stopAt then d.setOrig ring false else d

/-- CYC_RETURN (R116, R136): the loop delay of a rotation is measured. -/
def Dev.cycReturn (d : Dev) (ring rot delay : Nat) : Dev :=
  let r := d.lr ring
  if !r.orig then d
  else
    let v := min delay 0xFFFE
    let f := if d.origCode = 0 then (if rot = 0 then Reg.LNK_RING_DP_D0 else Reg.LNK_RING_DP_D1)
      else (if rot = 0 then Reg.LNK_RING_DS_D0 else Reg.LNK_RING_DS_D1)
    let d := (d.wr f v ring).wr Reg.LNK_PORT_STAT_ROT rot (d.rotPort ring rot)
    let seen := setBit r.seen rot true
    let d0 := if d.origCode = 0 then d.rd Reg.LNK_RING_DP_D0 ring else d.rd Reg.LNK_RING_DS_D0 ring
    let d1 := if d.origCode = 0 then d.rd Reg.LNK_RING_DP_D1 ring else d.rd Reg.LNK_RING_DS_D1 ring
    let both := seen = 3
    let dif := if d0 ≤ d1 then d1 - d0 else d0 - d1
    let mis := if both then decide (20 < dif) else r.misaligned
    let hop := if both then some ((d0 + d1) / 2 / (d.rl.ringNodes ring + 1)) else r.hop
    let d := d.setLr ring { r with seen := seen, misaligned := mis, hop := hop }
    if mis && !r.misaligned then d.raise Ev.LNK_ALIGN_DEGRADED ring dif else d

/-- RING_LONG (R116). -/
def Dev.ringLong (d : Dev) (ring : Nat) : Dev :=
  if (d.lr ring).long < 8 ∨ d.on Reg.LNK_RING_STAT_LONG ring then d
  else
    let c := d.origCode
    let d0 := if c = 0 then d.rd Reg.LNK_RING_DP_D0 ring else d.rd Reg.LNK_RING_DS_D0 ring
    let d1 := if c = 0 then d.rd Reg.LNK_RING_DP_D1 ring else d.rd Reg.LNK_RING_DS_D1 ring
    (d.set1 Reg.LNK_RING_STAT_LONG ring).raise Ev.LNK_RING_LONG ring (d0 + d1 * 2 ^ 16)

/-- RING_BREAK (R135): `BREAK_LO` is the highest address that rotation 0 still reaches, whose frames come back on rotation 1; `BREAK_HI` is the
lowest address that rotation 1 still reaches. -/
def Dev.ringBreak (d : Dev) (ring : Nat) : Dev :=
  let r := d.lr ring
  if (r.loss0 < 4 ∧ r.loss1 < 4) ∨ d.on Reg.LNK_RING_STAT_BROKEN ring then d
  else
    let addrs := (d.rl.nodes ring).map Rec.ndAddr
    let lo := maxN (addrs.filter (fun a => d.on Reg.LNK_NODE_LINK_ROT1 ring a)) 0
    let hi := minN (addrs.filter (fun a => d.on Reg.LNK_NODE_LINK_ROT0 ring a)) (d.rl.ringNodes ring + 1)
    (((d.set1 Reg.LNK_RING_STAT_BROKEN ring).wr Reg.LNK_RING_STAT_BREAK_LO lo ring).wr Reg.LNK_RING_STAT_BREAK_HI hi ring).raise
      Ev.LNK_RING_BREAK ring (lo * 2 ^ 8 + hi)

/-- RING_RESTORED (R135). -/
def Dev.ringRestored (d : Dev) (ring : Nat) : Dev :=
  if d.on Reg.LNK_RING_STAT_BROKEN ring && decide (8 ≤ (d.lr ring).back) then
    (d.clr Reg.LNK_RING_STAT_BROKEN ring).raise Ev.LNK_RING_RESTORED ring 0
  else d

/-- CYC_RECEIVE (R114, R382): a CYC of the partner arrives on a ring. -/
def Dev.cycReceive (d : Dev) (ring rot orig : Nat) : Dev :=
  if d.solo || orig == d.origCode then d
  else
    let d := d.wr Reg.LNK_PORT_STAT_ROT rot (d.rotPort ring rot)
    if d.role = roleActive then d.demote 2 (d.rd Reg.SIN_EPOCH_PARTNER_EPOCH)
    else
      let r := d.lr ring
      if r.orig && d.rd Reg.SIN_STATUS_PARTNER_ROLE == roleActive then d.setLr ring { r with stopAt := true } else d

/-- CMD_OVERRUN (R145): a frame of a queue has waited 8 cycles. -/
def Dev.cmdOverrun (d : Dev) (ring qid : Nat) : Dev :=
  let r := d.lr ring
  match r.waited.find qid with
  | some (n, false) =>
    if 8 ≤ n then (d.setLr ring { r with waited := r.waited.ins qid (n, true) }).raise Ev.LNK_CMD_OVERRUN ring (qid % 2 ^ 20) else d
  | _ => d

/-- LNK_PORT_LOS (R147). -/
def Dev.portLos (d : Dev) (port : Nat) : Dev :=
  let d := ((d.clr Reg.LNK_PORT_STAT_SIGNAL port).clr Reg.LNK_PORT_STAT_SYNC port).set1 Reg.LNK_PORT_ERR_LOS port
  let d := (d.clr Reg.LNK_PORT_STAT_CYC_OK port).wr Reg.LNK_PORT_STAT_ROT 3 port
  d.raise Ev.LNK_PORT_DOWN port ((d.word (Reg.LNK_PORT_ERR_LOS.addr port 0)).toNat % 64)

/-- LNK_PORT_SYNC_GAINED (R147). -/
def Dev.portSync (d : Dev) (port : Nat) : Dev :=
  ((d.set1 Reg.LNK_PORT_STAT_SIGNAL port).set1 Reg.LNK_PORT_STAT_SYNC port).raise Ev.LNK_PORT_UP port 0

/-- A wake tone on ports of a present ring, outside RUN only (Tables 5.15, 5.20). -/
def Dev.wakePorts (d : Dev) (ports : List Nat) : Dev :=
  if d.mode == .run then d
  else ports.foldl (fun (d : Dev) p => if d.rl.present (p / 2) then d.emit (.tone p) else d) d

/-- SLEEP to a ring (R124, R202): the frame, and every mapped node ASLEEP in both views. -/
def Dev.sleepRing (d : Dev) (ring : Nat) : Dev :=
  let r := d.lr ring
  if !d.rl.present ring || !r.orig then d
  else
    let tk := d.rl.takeRec ring
    let c : LCmd := { typ := 0x15, dest := 0, pay := toLe (tk.u16 20) 2 ++ toLe (d.rd Reg.SWP_SLEEP_V_V_LO) 2 ++ toLe (d.rd Reg.SWP_SLEEP_V_V_HI) 2 ++ toLe (d.rd Reg.SWP_SLEEP_T_T_HI) 2 }
    let d := (d.setLr ring { r with cmds := r.cmds ++ [c] }).wr Reg.LNK_RING_STAT_STATE 3 ring
    (d.rl.nodes ring).foldl (fun (d : Dev) n =>
      d.putViews ring n.ndAddr (max 1 (d.mgmtView ring n.ndAddr)) (max 1 (d.dataView ring n.ndAddr))) d

end Sys2Proof.Machine
end

