-- ==== Sys2Proof/Machine/Trw.lean ====
section
/-!
DEFINITION. Machine/Trw.lean: the Tripwire (chapter 12). Comparison and persistence (R309, R310), delivery (R311), grants, latches, admission and reset
(R312 to R314), PERMIT entries (R316, R317), E-stop and fire (R319), trip outputs (R320), safety frames (R322), the store check (R324), weld checks and
permit-path tests (R326 to R328).
-/
namespace Sys2Proof.Machine

def Dev.ts (d : Dev) (s : Nat) : TStr := d.trw.strs.get s {}
def Dev.setTs (d : Dev) (s : Nat) (x : TStr) : Dev := { d with trw := { d.trw with strs := d.trw.strs.set s x {} } }

/-! ### Causes (Table 12.3) and records (Table 3.15) -/

def cV : Nat := 0
def cT : Nat := 1
def cI : Nat := 2
def cIso : Nat := 3
def cMissing : Nat := 4
def cEstop : Nat := 5
def cFire : Nat := 6
def cSf : Nat := 7
def cWeld : Nat := 8
def cTest : Nat := 9

def Rec.tpPV (x : Rec) : Nat := x.u8 9
def Rec.tpPT (x : Rec) : Nat := x.u8 10
def Rec.tpPI (x : Rec) : Nat := x.u8 11
def Rec.tpVHigh (x : Rec) : Nat := x.u16 12
def Rec.tpVLow (x : Rec) : Nat := x.u16 14
def Rec.tpTHigh (x : Rec) : Int := x.s16 16
def Rec.tpTLow (x : Rec) : Int := x.s16 18
def Rec.tpIDis (x : Rec) : Nat := x.u32 20
def Rec.tpIChg (x : Rec) : Nat := x.u32 24
def Rec.tpIso (x : Rec) : Nat := x.u32 28

/-- `INSTANCE` for all strings. -/
def allStr : Nat := 0xFFFFF

/-- Every node of a string: its cell nodes and its head. -/
def Reel.strNodes (r : Reel) (s : Nat) : List Rec := r.cellNodesOf s ++ (match r.headOf s with | some n => [n] | none => [])

/-- The all-strings causes that are latched, in the bits of Table 12.3. -/
def Dev.globalCauses (d : Dev) : Nat :=
  d.rd Reg.TRW_GLOBAL_ESTOP * 2 ^ cEstop + d.rd Reg.TRW_GLOBAL_FIRE * 2 ^ cFire + d.rd Reg.TRW_GLOBAL_SF_TIMEOUT * 2 ^ cSf

/-- The H outputs (R320): permissive while no latched cause of any string lies in the output's mask. -/
def Dev.trwOut (d : Dev) : Dev :=
  let strs := d.rl.allStrings
  let all := strs.foldl (fun a s => a ||| d.rd Reg.TRW_STR_CAUSE_CAUSES s) d.globalCauses
  let h := sumN ((List.range 3).map (fun k => if all &&& d.rd Reg.TRW_OUT_MASK_MASK k = 0 then 2 ^ k else 0))
  let n := (strs.filter (fun s => d.rd Reg.TRW_STR_CAUSE_CAUSES s != 0)).length
  { d.wr Reg.TRW_STATUS_LATCHED n with trw := { d.trw with outH := h } }

/-- A string's admission window begins anew (R313). -/
def Dev.trwWindow (d : Dev) (s : Nat) : Dev :=
  (d.setTs s { d.ts s with data := [], stat := [], hb := false, said := false }).clr Reg.TRW_STR_STAT_ADMITTED s

/-- Ends the running test (R328): reason 1 limit, 2 current or weld, 3 abort, 4 cause latched. -/
def Dev.testEnd (d : Dev) (reason : Nat) : Dev :=
  match d.trw.test with
  | none => d
  | some (s, _, _) =>
    let step := d.rd Reg.TRW_TEST_STAT_STEP
    let d := { ((d.wr Reg.TRW_TEST_STAT_STEP 6).clr Reg.TRW_STATUS_TEST_BUSY).clr Reg.TRW_STR_STAT_TEST s with trw := { d.trw with test := none } }
    d.raise Ev.TRW_TEST_FAIL s (step + reason * 8)

/-- Latches a cause for a string (R310); answers whether it was not latched before. Any latch ends admission and a test of the string. -/
def Dev.trwLatch (d : Dev) (s c : Nat) : Dev × Bool :=
  let old := d.rd Reg.TRW_STR_CAUSE_CAUSES s
  if bitAt old c then (d, false)
  else
    let d := d.wr Reg.TRW_STR_CAUSE_CAUSES (old + 2 ^ c) s
    let d := if old = 0 then d.wr Reg.TRW_STR_CAUSE_FIRST c s else d
    let d := (d.set1 Reg.TRW_STR_STAT_LATCHED s).trwWindow s
    let d := match d.trw.test with
      | some (x, _, _) => if x = s then d.testEnd 4 else d
      | none => d
    (d.trwOut, true)

/-! ### Counts (R310) -/

def cntKey (kind ring el : Nat) : Nat := kind * 2 ^ 24 + ring * 2 ^ 12 + el

/-- A sample of a counted value: the count after it. -/
def Dev.trwCount (d : Dev) (key : Nat) (outside : Bool) : Dev × Nat :=
  let n := if outside then min 16 (d.trw.cnt.get key 0 + 1) else 0
  ({ d with trw := { d.trw with cnt := d.trw.cnt.set key n 0 } }, n)

/-- A string not yet admitted starts its window again when a count leaves 0 (R313). -/
def Dev.trwSpoil (d : Dev) (s n : Nat) : Dev :=
  if n = 0 ∨ d.on Reg.TRW_STR_STAT_ADMITTED s = true then d else d.setTs s { d.ts s with data := [], stat := [] }

/-- The counts of a string of one kind. -/
def Dev.strCounts (d : Dev) (s kind : Nat) : List Nat :=
  let g := (d.rl.ringOf s).getD 0
  if kind = 0 then (d.rl.cellNodesOf s).flatMap (fun n => n.cellSlots.map (fun k => d.trw.cnt.get (cntKey 0 g k) 0))
  else if kind = 1 then (d.rl.cellNodesOf s).flatMap (fun n => n.tempSlots.map (fun k => d.trw.cnt.get (cntKey 1 g k) 0))
  else [d.trw.cnt.get (cntKey kind 0 s) 0]

/-- Admission (R313): every node evaluated, every count 0, no cause latched, and a permitting heartbeat when safety frames are enabled. -/
def Dev.trwAdmit (d : Dev) (s : Nat) : Dev :=
  let x := d.ts s
  let nodes := (d.rl.strNodes s).map Rec.ndAddr
  if d.on Reg.TRW_STATUS_ACTIVE && !d.on Reg.TRW_STR_STAT_ADMITTED s && d.rd Reg.TRW_STR_CAUSE_CAUSES s == 0 && d.globalCauses == 0
      && nodes.all (fun a => x.data.contains a && x.stat.contains a) && (List.range 4).all (fun k => (d.strCounts s k).all (fun n => n == 0))
      && (!d.on Reg.TRW_CFG0_SF_EN || x.hb) then
    d.set1 Reg.TRW_STR_STAT_ADMITTED s
  else d

/-! ### Evaluation of frames (R309, R310) -/

/-- A cell's value against its thresholds. -/
def cellOutside (t : Rec) (v : Nat) : Bool := decide (t.tpVHigh < v) || decide (v < t.tpVLow) || v == 0 || v == 65535
/-- A temperature against its thresholds. -/
def tempOutside (t : Rec) (v : Int) : Bool := decide (t.tpTHigh < v) || decide (v < t.tpTLow) || v == -32768 || v == 32767
/-- A current against its thresholds. -/
def curOutside (t : Rec) (i : Int) : Bool := decide ((t.tpIDis : Int) < i) || decide ((t.tpIChg : Int) < -i) || decide (8388607 ≤ i.natAbs)
/-- An insulation report against its limit. -/
def isoOutside (t : Rec) (r : Nat) : Bool := t.tpIso != 0 && decide (r < t.tpIso)

/-- Trips a channel: the cause, its event and the slot registers. -/
def Dev.tripChannel (d : Dev) (s c slot : Nat) (e : Ev) (ts data : Nat) : Dev :=
  match d.trwLatch s c with
  | (d, false) => d
  | (d, true) =>
    let causes := d.rd Reg.TRW_STR_CAUSE_CAUSES s
    let d := if bitAt causes cV && bitAt causes cT then d
      else (d.wr Reg.TRW_STR_CAUSE_SLOT slot s).wr Reg.TRW_STR_CAUSE_SLOT_TEMP (b2n (c == cT)) s
    d.raiseAt e (d.subRealm e.id) ts s data

/-- The cells of a DATA_V frame. -/
def Dev.trwCells (d : Dev) (n : Rec) (slate : Nat) (b : List Byte) : Dev :=
  let g := n.ndRing
  let s := n.ndString
  (setBits n.ndCellMask 16).foldl (fun (d : Dev) j =>
    let v := le b (2 + 2 * j) 2
    let slot := n.ndCellBase + j
    let t := d.rl.tripSet (d.rl.tripSetOf 0 g slot)
    let (d, k) := d.trwCount (cntKey 0 g slot) (cellOutside t v)
    let d := d.trwSpoil s k
    if 0 < k ∧ t.tpPV ≤ k then d.tripChannel s cV slot Ev.TRW_TRIP_V (slate + 4000 * j) (slot + b2n (decide (v < t.tpVLow)) * 2 ^ 11 + v * 2 ^ 16) else d) d

/-- The temperatures of a cell node's STATUS. -/
def Dev.trwTemps (d : Dev) (n : Rec) (slate : Nat) (b : List Byte) : Dev :=
  let g := n.ndRing
  let s := n.ndString
  (setBits n.ndTempMask 8).foldl (fun (d : Dev) j =>
    let v := sx 16 (le b (14 + 2 * j) 2)
    let slot := n.ndTempBase + j
    let t := d.rl.tripSet (d.rl.tripSetOf 1 g slot)
    let (d, k) := d.trwCount (cntKey 1 g slot) (tempOutside t v)
    let d := d.trwSpoil s k
    if 0 < k ∧ t.tpPT ≤ k then
      d.tripChannel s cT slot Ev.TRW_TRIP_T (slate + 4000 * (16 + j)) (slot + b2n (decide (v < t.tpTLow)) * 2 ^ 11 + code 16 v * 2 ^ 16)
    else d) d

/-- A `WELD` latch (R326). -/
def Dev.trwWeld (d : Dev) (s mag : Nat) (seen : Bool) : Dev :=
  let d := (d.setTs s { d.ts s with weld := none }).clr Reg.TRW_STR_STAT_WELD_PEND s
  match d.trwLatch s cWeld with
  | (d, false) => d
  | (d, true) => (d.setTs s { d.ts s with weldOk := false }).raise Ev.TRW_WELD s (min mag (2 ^ 24 - 1) + b2n seen * 2 ^ 24)

/-- Settles a weld check whose two results may be known (R326). -/
def Dev.weldJudge (d : Dev) (s : Nat) : Dev :=
  let x := d.ts s
  match x.weld with
  | none => d
  | some w =>
    if w.cur = some false ∨ w.stat = some false then d.trwWeld s x.cur false
    else if w.cur = some true ∧ w.stat = some true then (d.setTs s { x with weld := none }).clr Reg.TRW_STR_STAT_WELD_PEND s
    else d

/-- The current samples of a head's DATA_I frame, with the current half of a weld check. -/
def Dev.trwCurrents (d : Dev) (n : Rec) (slate : Nat) (b : List Byte) : Dev :=
  let s := n.ndString
  let t := d.rl.tripSet (d.rl.tripSetOf 2 0 s)
  let codes := (List.range 16).map (fun j => sx 24 (le b (2 + 3 * j) 3))
  let d := (List.range 16).foldl (fun (d : Dev) j =>
    let i := codes.getD j 0
    let (d, k) := d.trwCount (cntKey 2 0 s) (curOutside t i)
    let d := d.trwSpoil s k
    if 0 < k ∧ t.tpPI ≤ k then
      match d.trwLatch s cI with
      | (d, false) => d
      | (d, true) => d.raiseAt Ev.TRW_TRIP_I (d.subRealm Ev.TRW_TRIP_I.id) (slate + 4000 * j) s (code 24 i + b2n (decide (i < 0)) * 2 ^ 24)
    else d) d
  let mag := maxN (codes.map Int.natAbs) 0
  let x := { d.ts s with cur := mag, curAt := slate, curOk := codes.all (fun i => decide (i.natAbs < 8388607)) }
  let x := match x.weld with
    | some w => if w.at_ + d.rd Reg.TRW_CFG1_WELD_T * 1000000 ≤ slate ∧ w.cur = none then
        { x with weld := some { w with cur := some (decide (mag ≤ d.rd Reg.TRW_CFG1_WELD_I * 100)) } } else x
    | none => x
  (d.setTs s x).weldJudge s

/-- The limit of a test step in ns (Table 12.7). -/
def Dev.testLimit (d : Dev) : Nat :=
  let st := d.rd Reg.TRW_TEST_STAT_STEP
  if st = 1 ∨ st = 3 then d.rd Reg.TRW_CFG2_TEST_T * 10000000 else d.rd Reg.TRW_CFG2_CLOSE_T * 100000000

/-- A failure of a test step (R328): reasons 1 and 2 latch `TEST`. -/
def Dev.testFail (d : Dev) (reason : Nat) : Dev :=
  match d.trw.test with
  | none => d
  | some (s, _, _) => ((d.testEnd reason).trwLatch s cTest).1

/-- TEST_STEP_JUDGE: a STATUS of the head under test, taken at a Slate 2 ms or more after the step began (R328). -/
def Dev.testJudge (d : Dev) (s slate sfl contact : Nat) : Dev :=
  match d.trw.test with
  | none => d
  | some (x, _, began) =>
    let st := d.rd Reg.TRW_TEST_STAT_STEP
    if x ≠ s ∨ slate < began + 2000000 then d
    else
      let bit := if st ≤ 2 then 0 else 1
      let opened := st = 1 ∨ st = 3
      let low := decide ((d.ts s).cur ≤ d.rd Reg.TRW_CFG2_TEST_I * 100)
      let pass := if opened then !bitAt sfl bit && !bitAt contact 0 && !bitAt contact 1 && !bitAt contact 3
        else bitAt sfl bit && bitAt contact 0 && bitAt contact 1
      if (opened ∧ low = false) ∨ bitAt contact 3 = true then d.testFail 2
      else if !pass then d
      else if st < 4 then { d.wr Reg.TRW_TEST_STAT_STEP (st + 1) with trw := { d.trw with test := some (s, d.own, d.now) } }
      else
        let d := { ((d.wr Reg.TRW_TEST_STAT_STEP 5).clr Reg.TRW_STATUS_TEST_BUSY).clr Reg.TRW_STR_STAT_TEST s with trw := { d.trw with test := none } }
        let d := (d.setTs s { d.ts s with pass := some d.now, due := false }).wr Reg.TRW_STR_TEST_AGE 0 s
        (d.nvWrite 3 s (time12 d.now)).raise Ev.TRW_TEST_PASS s 0

/-- The STATUS of a string head: insulation, contactors, weld check and test step. -/
def Dev.trwHeadStatus (d : Dev) (n : Rec) (slate : Nat) (b : List Byte) : Dev :=
  let s := n.ndString
  let t := d.rl.tripSet (d.rl.tripSetOf 2 0 s)
  let sfl := le b 4 2
  let contact := byteAt b 17 % 16
  let iso := le b 18 2
  let d := ((d.wr Reg.TRW_STR_STAT_CONTACT contact s).wr Reg.TRW_STR_STAT_H_HELD (b2n (bitAt sfl 0)) s).wr Reg.TRW_STR_STAT_P_HELD (b2n (bitAt sfl 1)) s
  let (d, k) := d.trwCount (cntKey 3 0 s) (isoOutside t iso)
  let d := d.trwSpoil s k
  let d := if 2 ≤ k then
      (match d.trwLatch s cIso with
      | (d, false) => d
      | (d, true) => d.raiseAt Ev.TRW_TRIP_ISO (d.subRealm Ev.TRW_TRIP_ISO.id) slate s iso)
    else d
  let clear := !bitAt contact 0 && !bitAt contact 1 && !bitAt contact 3
  let x := { d.ts s with sfl := sfl, statAt := slate, weldOk := (d.ts s).weldOk || clear }
  let x := match x.weld with
    | some w => if w.at_ + 2000000 ≤ slate ∧ w.stat = none then { x with weld := some { w with stat := some clear } } else x
    | none => x
  let d := (d.setTs s x).weldJudge s
  let d := d.testJudge s slate sfl contact
  if bitAt contact 3 then d.trwWeld s (d.ts s).cur true else d

/-- `MISSING` (R311): a node's DATA (0) or STATUS (1) was not delivered. -/
def Dev.trwMiss (d : Dev) (ring addr stat : Nat) : Dev :=
  match d.rl.node ring addr with
  | none => d
  | some n =>
    let key := nodeInst ring addr + stat * 2 ^ 13
    let k := min 3 (d.trw.miss.get key 0 + 1)
    let d := { d with trw := { d.trw with miss := d.trw.miss.ins key k } }
    if k < 3 then d
    else match d.trwLatch n.ndString cMissing with
      | (d, false) => d
      | (d, true) => d.raise Ev.TRW_TRIP_MISSING n.ndString (addr + stat * 2 ^ 8)

/-- A delivered frame: its values are compared (R309 to R311); one whose `NSTATE` is 4 or reserved is not delivered. -/
def Dev.trwEval (d : Dev) (ring cyc addr nt : Nat) (b : List Byte) : Dev :=
  match d.rl.node ring addr with
  | none => d
  | some n =>
    if !d.on Reg.TRW_STATUS_ACTIVE || nt == 3 || nt == 5 then d
    else
      let stat := b2n (nt == 4)
      let st := nfState b
      if !(st == 0 || st == 2) then d.trwMiss ring addr stat
      else
        let slate := (match (d.lr ring).takeOf cyc with | some (_, c) => c * 125000 | none => d.now)
        let d := { d with trw := { d.trw with miss := d.trw.miss.del (nodeInst ring addr + stat * 2 ^ 13) } }
        let s := n.ndString
        let x := d.ts s
        let d := d.setTs s (if nt = 4 then { x with stat := addr :: x.stat.filter (fun a => a != addr) } else { x with data := addr :: x.data.filter (fun a => a != addr) })
        let d := if nt = 1 then d.trwCells n slate b
          else if nt = 2 then d.trwCurrents n slate b
          else if n.ndKind = 2 then d.trwHeadStatus n slate b
          else d.trwTemps n slate b
        d.trwAdmit s

/-- Notes a scheduled frame as taken or given up. -/
def Dev.trwMark (d : Dev) (ring cyc addr nt : Nat) : Dev :=
  { d with trw := { d.trw with taken := (ring, cyc, addr, nt) :: d.trw.taken.filter (fun x => decide (cyc < x.2.1 + 64)) } }

def Dev.trwTaken (d : Dev) (ring cyc addr nt : Nat) : Bool := d.trw.taken.any (fun x => x == (ring, cyc, addr, nt))

/-- TRW_FRAME_ACCEPT: a copy of a node frame at a port, seen by the TRW checker. At the originator the first copy that passes R122 is taken at once. -/
def Dev.trwFrame (d : Dev) (port cyc pos : Nat) (codeErr : Bool) (frame : List Byte) : Dev :=
  let ring := port / 2
  if !d.rl.present ring || bitAt (d.lr ring).stopped (port % 2) then d
  else if codeErr || !(crcOk frame && nfLenOk frame) then d.bump Reg.TRW_CNT_CRC_CNT
  else if d.scheduled ring cyc pos ≠ some (nfAddr frame, nfType frame) then d.bump Reg.TRW_CNT_CRC_CNT
  else
    let addr := nfAddr frame
    let nt := nfType frame
    if !(d.lr ring).orig || d.trwTaken ring cyc addr nt then d
    else (d.trwMark ring cyc addr nt).trwEval ring cyc addr nt (frame.take (frame.length - 4))

/-- A frame taken from the originator's acceptance record (R311, R386): its content, or none where it was not accepted. -/
def Dev.trwMirror (d : Dev) (ring cyc addr nt : Nat) (b : Option (List Byte)) : Dev :=
  if d.trwTaken ring cyc addr nt then d
  else
    let d := d.trwMark ring cyc addr nt
    match b with
    | some b => d.trwEval ring cyc addr nt b
    | none => if d.on Reg.TRW_STATUS_ACTIVE && (nt == 1 || nt == 2 || nt == 4) then d.trwMiss ring addr (b2n (nt == 4)) else d

/-- TRW_NOT_DELIVERED: 1 µs after the scheduled end of a frame that the checker has not accepted (R311). -/
def Dev.trwLate (d : Dev) (ring cyc addr nt : Nat) : Dev :=
  if !(d.lr ring).orig || (d.rl.node ring addr).isNone then d else d.trwMirror ring cyc addr nt none

/-! ### Reset (R314) -/

/-- The causes of a string whose condition still holds. -/
def Dev.trwHolding (d : Dev) (s : Nat) : Nat :=
  let some_ (k : Nat) : Bool := (d.strCounts s k).any (fun n => n != 0)
  let gone := (d.rl.strNodes s).any (fun n =>
    decide (3 ≤ d.trw.miss.get (nodeInst n.ndRing n.ndAddr) 0) || decide (3 ≤ d.trw.miss.get (nodeInst n.ndRing n.ndAddr + 2 ^ 13) 0))
  let sf := d.on Reg.TRW_CFG0_SF_EN && (!bitAt (byteAt d.trw.hbMask (s / 8)) (s % 8) || !d.on Reg.TRW_STATUS_SF_OK)
  let weld := !(d.ts s).weldOk || decide (d.rd Reg.TRW_CFG1_WELD_I * 100 < (d.ts s).cur)
  b2n (some_ 0) * 2 ^ cV + b2n (some_ 1) * 2 ^ cT + b2n (some_ 2) * 2 ^ cI + b2n (some_ 3) * 2 ^ cIso + b2n gone * 2 ^ cMissing + b2n sf * 2 ^ cSf
    + b2n weld * 2 ^ cWeld

/-- `TRW_STR_CTRL.RESET` (R314). -/
def Dev.trwReset (d : Dev) (s : Nat) : Dev :=
  let old := d.rd Reg.TRW_STR_CAUSE_CAUSES s
  let new := old &&& d.trwHolding s
  let d := d.wr Reg.TRW_STR_CAUSE_CAUSES new s
  let d := if new = 0 then ((d.wr Reg.TRW_STR_CAUSE_FIRST 0 s).clr Reg.TRW_STR_STAT_LATCHED s) else d
  let d := if bitAt new cV || bitAt new cT then d else (d.wr Reg.TRW_STR_CAUSE_SLOT 0 s).wr Reg.TRW_STR_CAUSE_SLOT_TEMP 0 s
  let d := if old ≠ 0 ∧ new = 0 then d.trwWindow s else d
  d.trwOut.raise Ev.TRW_RESET s (old - new + new * 2 ^ 16)

/-- Whether an input of a kind with action 1 is active: kind 0 E-stop, 1 fire. -/
def Dev.inputHolds (d : Dev) (kind : Nat) : Bool :=
  (d.recs secPio 4).any (fun x => x.u8 8 / 4 == kind && x.u8 10 == 1 && bitAt (d.rd Reg.TRW_GLOBAL_INPUTS) (x.u8 8))

/-- `TRW_CTRL.RESET_GLOBAL` (R314). -/
def Dev.trwResetGlobal (d : Dev) : Dev :=
  let old := d.globalCauses
  let d := if d.inputHolds 0 then d else d.clr Reg.TRW_GLOBAL_ESTOP
  let d := if d.inputHolds 1 then d else d.clr Reg.TRW_GLOBAL_FIRE
  let d := if d.on Reg.TRW_STATUS_SF_OK || !d.on Reg.TRW_CFG0_SF_EN then d.clr Reg.TRW_GLOBAL_SF_TIMEOUT else d
  let new := d.globalCauses
  d.trwOut.raise Ev.TRW_RESET allStr (old - new + new * 2 ^ 16)

/-- Latches an all-strings cause. -/
def Dev.trwGlobal (d : Dev) (f : Field) : Dev × Bool :=
  if d.on f then (d, false)
  else
    let d := d.set1 f
    let d := (d.rl.allStrings).foldl (fun (d : Dev) s => d.trwWindow s) d
    let d := if d.trw.test.isSome then d.testEnd 4 else d
    (d.trwOut, true)

/-! ### Permits (R312, R316, R317) -/

/-- Whether a Wrap or an immediate shutdown withdraws a string's permits (R464, R468). -/
def Dev.wrapWithdraws (d : Dev) (s : Nat) : Bool :=
  d.gaf.immediate.isSome || (match d.gaf.wrap with
    | some w => (match w.strings.find s with
      | some x => x.st == .opening || x.st == .done
      | none => false)
    | none => false)

/-- Whether TRW grants H to a string at the present boundary (R312, R464). -/
def Dev.trwH (d : Dev) (s : Nat) : Bool :=
  let testing := match d.trw.test with
    | some (x, _, _) => x == s && d.rd Reg.TRW_TEST_STAT_STEP == 1
    | none => false
  d.on Reg.TRW_STATUS_ACTIVE && d.rd Reg.TRW_STR_CAUSE_CAUSES s == 0 && d.globalCauses == 0 && d.on Reg.TRW_STR_STAT_ADMITTED s && !testing && !d.wrapWithdraws s

/-- The check byte of an H code (Table 5.6). -/
def hChk (ctag addr c : Nat) : Nat := 255 - crc8 0x2F 0xFF [BitVec.ofNat 8 ctag, BitVec.ofNat 8 addr, BitVec.ofNat 8 c]
/-- The check byte of a P code (Table 5.6). -/
def pChk (ctag addr c : Nat) : Nat := crc8 0x9B 0 [BitVec.ofNat 8 ctag, BitVec.ofNat 8 addr, BitVec.ofNat 8 c]

/-- A withdrawal of a permit outside a test starts a weld check (R326); grants of both end one that is pending. -/
def Dev.weldStart (d : Dev) (s : Nat) (withdrawn granted : Bool) : Dev :=
  let testing := match d.trw.test with
    | some (x, _, _) => x == s
    | none => false
  if withdrawn && !testing then (d.setTs s { d.ts s with weld := some { at_ := d.now } }).set1 Reg.TRW_STR_STAT_WELD_PEND s
  else if granted && (d.ts s).weld.isSome then (d.setTs s { d.ts s with weld := none }).clr Reg.TRW_STR_STAT_WELD_PEND s
  else d

/-- One PERMIT entry of cycle k for the head of index h: its five bytes. -/
def Dev.permitEntry (d : Dev) (ring h : Nat) (n : Rec) (k : Nat) : Dev × List Byte :=
  let s := n.ndString
  let ctag := k % 256
  let hOn := d.trwH s
  let hc := if hOn then 0x96 else 0
  let e := 4 * h + k % 4
  let valid := d.rd Reg.TRW_P_ENTRY_CTAG ring e == ctag
  let auth := d.on Reg.TRW_STATUS_T0_AUTH
  let useP := valid && auth && !d.wrapWithdraws s
  let pc := if useP then d.rd Reg.TRW_P_ENTRY_P_CODE ring e else 0
  let px := if useP then d.rd Reg.TRW_P_ENTRY_P_CHK ring e else 0
  let pOn := pc == 0x69 && px == pChk ctag n.ndAddr 0x69
  let x := d.ts s
  let stale := if auth && !valid then x.stale + 1 else 0
  let d := d.setTs s { x with stale := min stale 2, staleSaid := if valid && auth then false else (x.staleSaid || decide (2 ≤ stale)) }
  let d := if 2 ≤ stale ∧ x.staleSaid = false then (d.set1 Reg.TRW_ERR_P_STALE).raise Ev.TRW_P_STALE s ctag else d
  let lost := (d.on Reg.TRW_STR_STAT_H_GRANT s && !hOn) || (d.on Reg.TRW_STR_STAT_P_GRANT s && !pOn)
  let d := d.weldStart s lost (hOn && pOn)
  let d := (d.wr Reg.TRW_STR_STAT_H_GRANT (b2n hOn) s).wr Reg.TRW_STR_STAT_P_GRANT (b2n pOn) s
  let d := if hOn && !(d.ts s).said then (d.setTs s { d.ts s with said := true }).raise Ev.TRW_ADMIT s 0 else d
  (d, [BitVec.ofNat 8 n.ndAddr, BitVec.ofNat 8 hc, BitVec.ofNat 8 (hChk ctag n.ndAddr hc), BitVec.ofNat 8 pc, BitVec.ofNat 8 px])

/-- The PERMIT of a ring for cycle k (R17, R142, R312, R316); none for a ring without string heads. -/
def Dev.permit (d : Dev) (ring k : Nat) : Dev × List LCmd :=
  let hs := sortBy (fun a b => decide (a.ndAddr ≤ b.ndAddr)) (d.rl.heads ring)
  if hs.isEmpty then (d, [])
  else
    let (d, body) := (List.range hs.length).foldl (fun (a : Dev × List Byte) i =>
      let (d, e) := a.1.permitEntry ring i (hs.getD i { sec := 0, typ := 0, idx := 0, b := [] }) k
      (d, a.2 ++ e)) (d, [])
    (d, [{ typ := 0x18, dest := 0, pay := toLe k 1 ++ toLe hs.length 1 ++ body }])

/-- The P outputs at a boundary (R317, R320). -/
def Dev.trwPOut (d : Dev) : Dev :=
  let p := if d.on Reg.TRW_STATUS_T0_AUTH then 7 - d.rd Reg.TRW_P_TRIP_TRIP else 0
  { d with trw := { d.trw with outP := p } }

/-- T0 gains or loses protection authority (R317). -/
def Dev.trwAuth (d : Dev) (on : Bool) : Dev :=
  if d.on Reg.TRW_STATUS_T0_AUTH = on then d else (d.wr Reg.TRW_STATUS_T0_AUTH (b2n on)).raise Ev.TRW_T0_AUTH 0 (b2n on)

/-! ### Plant inputs and feedback (R319, R320) -/

/-- ESTOP_FIRE_INPUT: a ball has held a level for its debounce time (R319). -/
def Dev.trwInput (d : Dev) (i : Nat) (level : Bool) : Dev :=
  match d.rl.pick secPio 4 (fun x => x.u8 8 == i) with
  | none => d
  | some x =>
    let active := level != (x.u8 9 == 1)
    let d := d.wr Reg.TRW_GLOBAL_INPUTS (setBit (d.rd Reg.TRW_GLOBAL_INPUTS) i active)
    if active && x.u8 10 == 1 then
      match d.trwGlobal (if i < 4 then Reg.TRW_GLOBAL_ESTOP else Reg.TRW_GLOBAL_FIRE) with
      | (d, false) => d
      | (d, true) => d.raise Ev.TRW_TRIP_INPUT i 0
    else d

/-- TRIP_FB_CHANGE: a feedback input takes a level; what the comparison makes of it follows at the end of the command (`Dev.watchFb`). -/
def Dev.trwFeedback (d : Dev) (k : Nat) (level : Bool) : Dev :=
  d.wr Reg.TRW_OUT_STAT_FB_LEVEL (setBit (d.rd Reg.TRW_OUT_STAT_FB_LEVEL) k level)

/-- FEEDBACK_MISMATCH: an output and its feedback have differed for longer than `FB_DELAY` (R320). -/
def Dev.trwMismatch (d : Dev) (k : Nat) : Dev :=
  match d.trw.fbAt.find k with
  | none => d
  | some a =>
    let m := d.rd Reg.TRW_OUT_STAT_MISMATCH
    if bitAt m k || decide (d.own < a + d.rd Reg.TRW_CFG1_FB_DELAY * 1000000) then d
    else ((d.wr Reg.TRW_OUT_STAT_MISMATCH (setBit m k true)).set1 Reg.TRW_ERR_FB).raise Ev.TRW_FB_MISMATCH k (b2n (bitAt d.tripLevels k))

/-! ### Safety frames (R322) -/

/-- Refuses a copy of a safety frame. -/
def Dev.sfRefuse (d : Dev) (port reason : Nat) : Dev :=
  ((d.bump Reg.TRW_CNT_SF_REFUSED_CNT).set1 Reg.TRW_ERR_SF_REFUSED).raise Ev.TRW_SF_REFUSED port reason

/-- `MASK` of a safety frame for a string. -/
def sfBit (b : List Byte) (s : Nat) : Bool := bitAt (byteAt b (28 + s / 8)) (s % 8)

/-- Latches `SF` for a string. -/
def Dev.sfLatch (d : Dev) (s why seq : Nat) : Dev :=
  match d.trwLatch s cSf with
  | (d, false) => d
  | (d, true) => d.raise Ev.TRW_TRIP_SF s (why + seq * 2 ^ 8)

/-- Acts on an accepted copy; `second` is a second copy that differs from the first. -/
def Dev.sfAct (d : Dev) (b : List Byte) (second : Bool) : Dev :=
  let seq := le b 4 4
  let strs := d.rl.allStrings
  if byteAt b 3 = 1 then
    let new := slice b 28 32
    let mask := if second then (List.range 32).map (fun k => (d.trw.hbMask.getD k 0) &&& (new.getD k 0)) else new
    let d := { d.set1 Reg.TRW_STATUS_SF_OK with trw := { d.trw with hbMask := mask, hbAt := d.own } }
    strs.foldl (fun (d : Dev) s =>
      if bitAt (byteAt mask (s / 8)) (s % 8) then (d.setTs s { d.ts s with hb := true }).trwAdmit s
      else (d.setTs s { d.ts s with hb := false }).sfLatch s 1 seq) d
  else strs.foldl (fun (d : Dev) s => if sfBit b s then d.sfLatch s 2 seq else d) d

/-- SAFETY_FRAME_RECEIVE: a copy of a safety frame from `ETH0` or `ETH1`. -/
def Dev.trwSafety (d : Dev) (port : Nat) (b : List Byte) : Dev :=
  if !d.on Reg.TRW_CFG0_SF_EN || !d.on Reg.TRW_STATUS_ACTIVE then d
  else if b.length ≠ 64 ∨ le b 0 2 ≠ 0x4653 ∨ byteAt b 2 ≠ 1 ∨ crc32c (b.take 60) ≠ le b 60 4 then d.sfRefuse port 1
  else if byteAt b 3 ≠ 1 ∧ byteAt b 3 ≠ 2 then d.sfRefuse port 4
  else if le b 8 8 ≠ d.rd2 Reg.TRW_SF_SENDER_LO_SENDER Reg.TRW_SF_SENDER_HI_SENDER then d.sfRefuse port 2
  else
    let seq := le b 4 4
    match d.trw.sfs.find? (fun c => c.seq == seq) with
    | some c =>
      if c.ports.contains port then d
      else if c.closed || decide (c.at_ + max 1 (d.rd Reg.TRW_CFG0_SF_WINDOW) * 1000000 < d.own) then d.sfRefuse port 3
      else
        let c' : SfCopy := { c with ports := port :: c.ports, paired := true }
        let d := { d with trw := { d.trw with sfs := d.trw.sfs.map (fun (x : SfCopy) => if x.seq == seq then c' else x) } }
        if c.bytes = b then d
        else
          let d := ((d.bump Reg.TRW_CNT_SF_DIFFER_CNT).set1 Reg.TRW_ERR_SF_DIFFER).raise Ev.TRW_SF_DIFFER 0 seq
          d.sfAct b (byteAt c.bytes 3 == 1)
    | none =>
      let new := match d.trw.sfSeq with
        | none => true
        | some l => let n := (seq + 2 ^ 32 - l) % 2 ^ 32; decide (1 ≤ n) && decide (n ≤ 2 ^ 31 - 1)
      if !new then d.sfRefuse port 3
      else
        let keep : List SfCopy := d.trw.sfs.filter (fun c => !c.closed && !c.paired)
        let one : SfCopy := { seq := seq, ports := [port], bytes := b, at_ := d.own }
        let d := { d with trw := { d.trw with sfSeq := some seq, sfs := keep ++ [one] } }
        d.sfAct b false

/-- SF_SINGLE: no second copy came within `SF_WINDOW` (R322). -/
def Dev.sfSingle (d : Dev) (seq : Nat) : Dev :=
  match d.trw.sfs.find? (fun c => c.seq == seq) with
  | none => d
  | some c =>
    if c.paired || c.closed || decide (d.own < c.at_ + max 1 (d.rd Reg.TRW_CFG0_SF_WINDOW) * 1000000) then d
    else
      let d := { d with trw := { d.trw with sfs := d.trw.sfs.map (fun (x : SfCopy) => if x.seq == seq then { c with closed := true } else x) } }
      let port := c.ports.headD 0
      (d.bump Reg.TRW_CNT_SF_SINGLE_CNT).raiseHeld Ev.TRW_SF_SINGLE port oneMin port (fun _ => seq)

/-- SF_TIMEOUT: no heartbeat has been accepted for `SF_TIMEOUT` (R322). -/
def Dev.sfTimeout (d : Dev) : Dev :=
  let w := max 1 (d.rd Reg.TRW_CFG0_SF_TIMEOUT) * 1000000
  if !d.on Reg.TRW_CFG0_SF_EN || !d.on Reg.TRW_STATUS_ACTIVE || decide (d.own < d.trw.hbAt + w) then d
  else
    match (d.clr Reg.TRW_STATUS_SF_OK).trwGlobal Reg.TRW_GLOBAL_SF_TIMEOUT with
    | (d, false) => d
    | (d, true) => d.raise Ev.TRW_TRIP_SF allStr (3 + (d.trw.sfSeq.getD 0) * 2 ^ 8)

/-- The device status frame (R322, Table 12.5). -/
def Dev.sfStatus (d : Dev) : Dev × List Byte :=
  let mask := (List.range 32).map (fun k => BitVec.ofNat 8 (sumN ((List.range 8).map (fun i =>
    let s := 8 * k + i
    b2n (d.on Reg.TRW_STR_STAT_H_GRANT s && d.on Reg.TRW_STR_STAT_P_GRANT s) * 2 ^ i))))
  let b := toLe 0x4653 2 ++ toLe 1 1 ++ toLe 3 1 ++ toLe d.trw.txSeq 4 ++ toLe d.img.otp.uid 8 ++ time12 d.now ++ mask
  ({ d with trw := { d.trw with txSeq := (d.trw.txSeq + 1) % 2 ^ 32, txAt := some d.own } }, b ++ toLe (crc32c b) 4)

/-- Whether a device status frame is due (R322). -/
def Dev.sfDue (d : Dev) : Bool :=
  d.on Reg.TRW_CFG0_SF_TX_EN && (match d.trw.txAt with
    | none => true
    | some a => decide (a + max 1 (d.rd Reg.TRW_CFG0_SF_PERIOD) * 1000000 ≤ d.own))

/-! ### The threshold store (R324) -/

/-- The CRC of the threshold store and map of the running structure. -/
def Reel.storeCrc (r : Reel) : Nat :=
  crc32c (Config.storeBytes ((r.sel secTrip 1 ++ r.sel secTrip 2 ++ r.sel secRing 1 ++ r.sel secRing 2).flatMap (fun x => x.b)))

/-- TRW_STORE_CHECK: the check of every 1 ms finds a CRC, or an uncorrectable error (R324). -/
def Dev.trwStore (d : Dev) (found : Nat) (uncorrectable : Bool) : Dev :=
  if d.reel.isSome && (uncorrectable || found % 2 ^ 32 != d.rd Reg.TRW_STORE_CRC_CRC) then d.raise Ev.TRW_STORE 0 (found % 2 ^ 32) else d

/-! ### Permit-path tests (R327, R328) -/

/-- `TRW_TEST_CTRL.GO` (R327). -/
def Dev.testGo (d : Dev) (s : Nat) : Dev :=
  let x := d.ts s
  let contact := d.rd Reg.TRW_STR_STAT_CONTACT s
  let ready := d.on Reg.TRW_STR_STAT_ADMITTED s && d.rd Reg.TRW_STR_CAUSE_CAUSES s == 0 && d.globalCauses == 0 && d.on Reg.TRW_STR_STAT_H_GRANT s
    && d.on Reg.TRW_STR_STAT_P_GRANT s && bitAt x.sfl 2 && bitAt contact 0 && bitAt contact 1
  let st := if d.trw.test.isSome then 1
    else if d.mode ≠ .run ∨ d.actRole = false then 2
    else if d.rd Reg.TRW_CFG2_TEST_I * 100 < x.cur then 3
    else if !ready then 4 else 0
  let d := d.wr Reg.TRW_TEST_STAT_STATUS st
  if st ≠ 0 then d
  else
    let d := (d.wr Reg.TRW_TEST_STAT_STRING s).wr Reg.TRW_TEST_STAT_STEP 1
    { (d.set1 Reg.TRW_STATUS_TEST_BUSY).set1 Reg.TRW_STR_STAT_TEST s with trw := { d.trw with test := some (s, d.own, d.now) } }

/-- TEST_STEP_LIMIT (R328). -/
def Dev.testLimitOut (d : Dev) : Dev :=
  match d.trw.test with
  | some (_, own, _) => if own + d.testLimit ≤ d.own then d.testFail 1 else d
  | none => d

/-- TEST_DUE: `AGE` exceeds `TEST_DAYS` (R328). -/
def Dev.testDue (d : Dev) (s : Nat) : Dev :=
  let days := d.rd Reg.TRW_CFG2_TEST_DAYS
  let age := d.rd Reg.TRW_STR_TEST_AGE s
  if days = 0 ∨ age ≤ days * 86400 ∨ (d.ts s).due ∨ (d.rl.headOf s).isNone then d
  else (d.setTs s { d.ts s with due := true }).raise Ev.TRW_TEST_DUE s age

/-- `AGE` of every string, once a second. -/
def Dev.testAges (d : Dev) : Dev :=
  d.rl.allStrings.foldl (fun (d : Dev) s => match (d.ts s).pass with
    | some p => d.wr Reg.TRW_STR_TEST_AGE (min ((d.now - p) / oneSec) 0xFFFFFFFE) s
    | none => d.wr Reg.TRW_STR_TEST_AGE 0xFFFFFFFF s) d

/-! ### Build, start and stop -/

/-- The registers of a built structure: threshold windows, heads, the store's CRC (R309, R324, Tables 12.16 to 12.18). -/
def Dev.trwBuild (d : Dev) : Dev :=
  let d := (List.range 16).foldl (fun (d : Dev) n =>
    match d.rl.pick secTrip 1 (fun x => x.u8 8 == n) with
    | some x => (List.range 6).foldl (fun (d : Dev) k => d.wr Reg.TRW_SET_WORD_WORD (x.u32 (8 + 4 * k)) n k) (d.set1 Reg.TRW_SET_USED_USED n)
    | none => (List.range 6).foldl (fun (d : Dev) k => d.wr Reg.TRW_SET_WORD_WORD 0 n k) (d.clr Reg.TRW_SET_USED_USED n)) d
  let d := d.rl.allHeads.foldl (fun (d : Dev) n => (d.wr Reg.TRW_STR_STAT_HEAD n.ndAddr n.ndString).wr Reg.TRW_STR_STAT_RING n.ndRing n.ndString) d
  let d := d.rl.allStrings.foldl (fun (d : Dev) s =>
    let (d, b) := d.nvRead 3 s
    d.setTs s { d.ts s with pass := match b with | some b => ofTime12 b 0 | none => (d.ts s).pass }) d
  (d.wr Reg.TRW_STORE_CRC_CRC d.rl.storeCrc).testAges.trwOut

/-- Entry to RUN (R313, R322). -/
def Dev.trwStart (d : Dev) : Dev :=
  let d := d.rl.allStrings.foldl (fun (d : Dev) s => d.trwWindow s) d
  let d := { d with trw := { d.trw with sfs := [], sfSeq := none, hbMask := [], hbAt := d.own, taken := [], miss := [] } }
  (d.set1 Reg.TRW_STATUS_ACTIVE).wr Reg.TRW_STATUS_SF_OK (b2n (!d.on Reg.TRW_CFG0_SF_EN))

/-- Leaving RUN and WRAP: nothing is granted, a test ends. -/
def Dev.trwStop (d : Dev) : Dev :=
  let d := if d.trw.test.isSome then d.testEnd 3 else d
  let d := d.rl.allStrings.foldl (fun (d : Dev) s =>
    let d := ((d.trwWindow s).clr Reg.TRW_STR_STAT_H_GRANT s).clr Reg.TRW_STR_STAT_P_GRANT s
    (d.setTs s { d.ts s with weld := none, stale := 0 }).clr Reg.TRW_STR_STAT_WELD_PEND s) d
  d.clr Reg.TRW_STATUS_ACTIVE

end Sys2Proof.Machine
end

