-- ==== Sys2Proof/Machine/Net.lean ====
section
/-!
DEFINITION. Machine/Net.lean: the network ports (R423 to R434): frames, VLAN tags, PRP pairs, MACsec, traffic classes and PAUSE, receive streams,
egress bindings and telemetry, and the answers to ARP, neighbour solicitation and echo requests. The formats of Ethernet, IP, UDP, PRP and MACsec are
those of the standards the chapter names (PRESUMED, assumption log 40).
-/
namespace Sys2Proof.Machine

/-! ### Ports -/

/-- What a port runs with: its `NET` record, or the recovery service (R101). -/
structure PortCfg where
  mode : Nat
  mac : List Byte
  vlan : Nat
  key : Nat
  ip4 : Nat
  ip6 : List Byte
  pcp : List Byte
  keyOpen : Nat
  keyProt : Nat
  prp : Bool
deriving DecidableEq, Repr

/-- The other port of a pair. -/
def mate (p : Nat) : Nat := if p % 2 = 0 then p + 1 else p - 1

/-- The `MODE` of a port's record. -/
def Reel.netMode (r : Reel) (p : Nat) : Nat := match r.net p with
  | some x => x.u8 9
  | none => 0

/-- The station address of the recovery service: locally administered, derived from the unique identifier. -/
def recoveryMac (uid : Nat) : List Byte :=
  let m := padTo (Config.recoveryMac uid) 6
  BitVec.ofNat 8 (byteAt m 0 / 4 * 4 + 2) :: m.drop 1

/-- The IPv6 link-local address that EUI-64 forms from a station address. -/
def linkLocal (m : List Byte) : List Byte :=
  toBe 0xFE80 2 ++ toBe 0 6 ++ [BitVec.ofNat 8 (byteAt m 0) ^^^ 2#8] ++ slice m 1 2 ++ [0xFF#8, 0xFE#8] ++ slice m 3 3

/-- Whether the recovery service is up (R101). -/
def Dev.recovery (d : Dev) : Bool := d.mode == .dark && (d.host.keys.find 0).isSome

/-- What a port runs with; none for a port that is down (R423). -/
def Dev.portCfg (d : Dev) (p : Nat) : Option PortCfg :=
  if d.recovery && p == 2 then
    let m := recoveryMac d.img.otp.uid
    some { mode := 1, mac := m, vlan := 0, key := 0xFF, ip4 := 0, ip6 := linkLocal m, pcp := [], keyOpen := 256, keyProt := 0, prp := false }
  else if d.mode == .quiet || d.live then
    match d.rl.net p with
    | some x =>
      if x.u8 9 = 0 then none
      else some { mode := x.u8 9, mac := slice x.b 12 6, vlan := x.u16 18, key := x.u8 21, ip4 := x.u32 24, ip6 := slice x.b 28 16, pcp := slice x.b 48 4, keyOpen := x.u8 52, keyProt := x.u8 53, prp := d.rl.netMode (mate p) != 0 }
    | none => none
  else none

def Dev.np (d : Dev) (p : Nat) : NetPort := d.net.ports.get p {}
def Dev.setNp (d : Dev) (p : Nat) (x : NetPort) : Dev := { d with net := { d.net with ports := d.net.ports.set p x {} } }
def Dev.pair (d : Dev) (i : Nat) : PrpPair := d.net.pairs.get i {}
def Dev.setPair (d : Dev) (i : Nat) (x : PrpPair) : Dev := { d with net := { d.net with pairs := d.net.pairs.set i x {} } }
def Dev.egress (d : Dev) (n : Nat) : Egress := d.net.egress.get n {}
def Dev.setEgress (d : Dev) (n : Nat) (x : Egress) : Dev := { d with net := { d.net with egress := d.net.egress.set n x {} } }

/-- Whether a port can send: it runs, its link is up, its key is not erased. -/
def Dev.portUp (d : Dev) (p : Nat) : Bool :=
  (d.portCfg p).isSome && d.on Reg.NET_PORT_STAT_LINK p && !d.on Reg.NET_PORT_STAT_CLOSED p

/-- The ports on which traffic of a port goes out: both of a PRP pair (R425). -/
def Dev.portsOf (d : Dev) (p : Nat) : List Nat := match d.portCfg p with
  | some c => if c.prp then [p / 2 * 2, p / 2 * 2 + 1] else [p]
  | none => []

/-- The configuration whose addresses the traffic of a port bears: LAN A's of a pair. -/
def Dev.addrCfg (d : Dev) (p : Nat) : Option PortCfg := match d.portsOf p with
  | q :: _ => d.portCfg q
  | [] => none

/-! ### MACsec (R428, R429) -/

/-- The 96-bit salt of an association. -/
def macSalt (key : List Byte) : List Byte := (Config.hmacSha256 key [0x48#8, 0x53#8, 0x43#8, 0x2D#8, 0x53#8, 0x41#8, 0x4C#8, 0x54#8]).take 12

/-- The nonce of a frame: `SSCI` and packet number, combined with the salt. -/
def macNonce (key : List Byte) (ssci pn : Nat) : List Byte :=
  ((toBe ssci 4 ++ toBe pn 8).zip (macSalt key)).map (fun x => x.1 ^^^ x.2)

/-- `SSCI` registers: 0 is taken as 1, or as 2 for the peer's. -/
def Dev.ssciTx (d : Dev) (p : Nat) : Nat := let v := d.rd Reg.NET_MACSEC_SSCI_TX_SSCI p; if v = 0 then 1 else v
def Dev.ssciPeer (d : Dev) (p : Nat) : Nat := let v := d.rd Reg.NET_MACSEC_SSCI_PEER_SSCI p; if v = 0 then 2 else v

/-- Protects a frame (destination and source address, then the rest) with a port's transmit association. -/
def Dev.macProtect (d : Dev) (p : Nat) (c : PortCfg) (frame : List Byte) : Dev × Option (List Byte) :=
  match (d.np p).tx with
  | none => (d, none)
  | some sa =>
    let rest := frame.drop 12
    let sl := if rest.length < 48 then rest.length else 0
    let tag := frame.take 12 ++ toBe 0x88E5 2 ++ toBe (0x2C + sa.an % 4) 1 ++ toBe sl 1 ++ toBe (sa.pn % 2 ^ 32) 4 ++ c.mac ++ toBe 1 2
    let x := d.np p
    (d.setNp p { x with tx := some { sa with pn := sa.pn + 1 } }, some (tag ++ Config.gcmSeal sa.key (macNonce sa.key (d.ssciTx p) sa.pn) tag rest))

/-- The packet number that 32 received bits stand for, given the lowest acceptable one. -/
def pnExtend (low pn : Nat) : Nat :=
  let c := low / 2 ^ 32 * 2 ^ 32 + pn
  if pn < low % 2 ^ 32 ∧ 2 ^ 31 ≤ low % 2 ^ 32 - pn then c + 2 ^ 32 else c

/-- A discard of R428: 3 `ICV` (or unprotected), 4 `REPLAY`. -/
def Dev.macDiscard (d : Dev) (p : Nat) (replay : Bool) : Dev :=
  let d := (d.bump Reg.NET_CNT_MACSEC_FAIL_CNT 1 p).set1 (if replay then Reg.NET_PORT_ERR_REPLAY else Reg.NET_PORT_ERR_ICV) p
  d.raiseHeld Ev.NET_MACSEC p oneSec p (fun n => min n (2 ^ 32 - 1))

/-- Checks and opens a protected frame (R428): the frame that was protected, or none with the discard counted. -/
def Dev.macOpen (d : Dev) (p : Nat) (frame : List Byte) : Dev × Option (List Byte) :=
  let tci := byteAt frame 14
  let sc := bitAt tci 5
  let hdr := if sc then 28 else 20
  if be frame 12 2 ≠ 0x88E5 ∨ !bitAt tci 3 ∨ !bitAt tci 2 ∨ frame.length < hdr + 16 then (d.macDiscard p false, none)
  else
    let x := d.np p
    match x.rx.find? (fun s => s.an % 4 == tci % 4) with
    | none => (d.macDiscard p false, none)
    | some sa =>
      let pn := pnExtend sa.pn (be frame 16 4)
      if pn < sa.pn then (d.macDiscard p true, none)
      else match Config.gcmOpen sa.key (macNonce sa.key (d.ssciPeer p) pn) (frame.take hdr) (frame.drop hdr) with
        | none => (d.macDiscard p false, none)
        | some rest =>
          (d.setNp p { x with rx := x.rx.map (fun s => if s.an == sa.an then { s with pn := pn + 1 } else s) }, some (frame.take 12 ++ rest))

/-- Installs the first association of a port, or closes it when its entry holds no key (R428, R429). -/
def Dev.macInstall (d : Dev) (p key : Nat) : Dev :=
  let x := d.np p
  match d.host.keys.find key with
  | some k => (((d.setNp p { x with rx := [{ an := 0, key := k }], tx := some { an := 0, key := k }, switchAt := none, removeAt := none }).clr
      Reg.NET_PORT_STAT_CLOSED p).clr Reg.NET_PORT_STAT_TX_AN p).clr Reg.NET_PORT_STAT_SA_PENDING p
  | none => (d.setNp p { x with rx := [], tx := none, switchAt := none, removeAt := none }).set1 Reg.NET_PORT_STAT_CLOSED p

/-- `MACSEC_OVERLAP` in ns. -/
def Dev.overlapNs (d : Dev) : Nat := max 1 (d.rd Reg.NET_CTRL_MACSEC_OVERLAP) * oneSec

/-- The effect on a port of an enrolment or erasure of the entry it uses (R429). -/
def Dev.macKey (d : Dev) (p entry : Nat) (erase : Bool) : Dev :=
  let x := d.np p
  if erase then
    let d := (d.setNp p { x with rx := [], tx := none, switchAt := none, removeAt := none }).set1 Reg.NET_PORT_STAT_CLOSED p
    (d.clr Reg.NET_PORT_STAT_SA_PENDING p).raise Ev.NET_MACSEC_CLOSED p entry
  else if d.on Reg.NET_PORT_STAT_CLOSED p then (d.macInstall p entry).raise Ev.NET_MACSEC_KEY p 0
  else match x.rx.getLast? with
    | none => (d.macInstall p entry).raise Ev.NET_MACSEC_KEY p 0
    | some old =>
      let an := (old.an + 1) % 4
      let k := (d.host.keys.find entry).getD []
      let d := d.setNp p { x with rx := x.rx ++ [{ an := an, key := k }], switchAt := some (d.own + d.overlapNs), removeAt := none }
      (d.set1 Reg.NET_PORT_STAT_SA_PENDING p).raise Ev.NET_MACSEC_KEY p an

/-- MACSEC_TX_SWITCH (R429). -/
def Dev.macSwitch (d : Dev) (p : Nat) : Dev :=
  let x := d.np p
  match x.switchAt, x.rx.getLast? with
  | some a, some sa =>
    if d.own < a then d
    else
      let d := d.setNp p { x with tx := some { an := sa.an, key := sa.key }, switchAt := none, removeAt := some (a + d.overlapNs) }
      (d.wr Reg.NET_PORT_STAT_TX_AN sa.an p).raise Ev.NET_MACSEC_KEY p (sa.an + 4)
  | _, _ => d

/-- MACSEC_OLD_RX_REMOVE (R429). -/
def Dev.macRemove (d : Dev) (p : Nat) : Dev :=
  let x := d.np p
  match x.removeAt with
  | some a =>
    if d.own < a then d
    else (d.setNp p { x with rx := x.rx.drop (x.rx.length - 1), removeAt := none }).clr Reg.NET_PORT_STAT_SA_PENDING p
  | none => d

/-- What a change of a key store entry does to the ports (R429, R101). -/
def Dev.netKey (d : Dev) (entry : Nat) (erase : Bool) : Dev :=
  (List.range 4).foldl (fun (d : Dev) p => match d.portCfg p with
    | some c => if c.key = entry then d.macKey p entry erase else d
    | none => d.clr Reg.NET_PORT_STAT_LINK p) d

/-! ### Sending -/

/-- Puts a frame on a port's wire: protected where MACsec is on, and counted. -/
def Dev.portEmit (d : Dev) (p : Nat) (frame : List Byte) : Dev :=
  match d.portCfg p with
  | none => d
  | some c =>
    if !d.portUp p then d
    else if c.key = 0xFF then (d.emit (.eth p frame)).bump Reg.NET_CNT_TX_FRAMES_CNT 1 p
    else match d.macProtect p c frame with
      | (d, some f) => (d.emit (.eth p f)).bump Reg.NET_CNT_TX_FRAMES_CNT 1 p
      | (d, none) => d

/-- Sends a frame of a class on a port: classes 2 and 3 wait for the end of a received PAUSE (R430). -/
def Dev.portSend (d : Dev) (p cls : Nat) (frame : List Byte) : Dev :=
  let x := d.np p
  if 2 ≤ cls ∧ d.own < x.pauseTo then d.setNp p { x with held := x.held ++ [(cls, frame)] } else d.portEmit p frame

/-- Sends what waited for the end of a PAUSE, dispatch before telemetry. -/
def Dev.portRelease (d : Dev) (p : Nat) : Dev :=
  let x := d.np p
  if x.held.isEmpty || decide (d.own < x.pauseTo) then d
  else
    let d := d.setNp p { x with held := [] }
    (x.held.filter (fun h => h.1 == 2) ++ x.held.filter (fun h => h.1 != 2)).foldl (fun (d : Dev) h => d.portEmit p h.2) d

/-- The frame of a class on a port (R424, R430), without its trailer: tag, type and payload. -/
def ethBytes (c : PortCfg) (src dst : List Byte) (cls etype : Nat) (pay : List Byte) : List Byte :=
  dst ++ src ++ (if c.vlan = 0 then [] else toBe 0x8100 2 ++ toBe (byteAt c.pcp cls % 8 * 8192 + c.vlan) 2) ++ toBe etype 2 ++ pay

/-- The redundancy control trailer (R425): sequence number, LAN and LSDU size, suffix. -/
def prpTrailer (seq p lsdu : Nat) : List Byte := toBe seq 2 ++ toBe ((if p % 2 = 0 then 0xA000 else 0xB000) + lsdu % 4096) 2 ++ toBe 0x88FB 2

/-- Sends a payload: on both ports of a pair with one sequence number, else on the port alone (R425). -/
def Dev.netSend (d : Dev) (p cls : Nat) (dst : List Byte) (etype : Nat) (pay : List Byte) : Dev :=
  match d.portCfg p, d.addrCfg p with
  | some c, some a =>
    if c.prp then
      let x := d.pair (p / 2)
      let d := d.setPair (p / 2) { x with seq := (x.seq + 1) % 65536 }
      let body := pay ++ List.replicate (40 - pay.length) 0
      (d.portsOf p).foldl (fun (d : Dev) q => match d.portCfg q with
        | some cq => d.portSend q cls (ethBytes cq a.mac dst cls etype (body ++ prpTrailer x.seq q (body.length + 6)))
        | none => d) d
    else d.portSend p cls (ethBytes c c.mac dst cls etype (pay ++ List.replicate (46 - pay.length) 0))
  | _, _ => d

/-- Sends a payload on one port without a trailer (R426). -/
def Dev.netSingle (d : Dev) (p cls : Nat) (dst : List Byte) (etype : Nat) (pay : List Byte) : Dev :=
  match d.portCfg p with
  | some c => d.portSend p cls (ethBytes c c.mac dst cls etype (pay ++ List.replicate (46 - pay.length) 0))
  | none => d

/-! ### IP and UDP -/

/-- The sum of the 16-bit words of a byte string. -/
def wordSum : List Byte → Nat
  | a :: b :: r => a.toNat * 256 + b.toNat + wordSum r
  | [a] => a.toNat * 256
  | [] => 0

/-- The Internet checksum. -/
def inetSum (b : List Byte) : Nat :=
  let f (n : Nat) : Nat := n % 65536 + n / 65536
  65535 - f (f (f (wordSum b)))

/-- The pseudo-header of a transport payload. -/
def pseudo (src dst : List Byte) (proto len : Nat) : List Byte :=
  if src.length = 4 then src ++ dst ++ toBe proto 2 ++ toBe len 2 else src ++ dst ++ toBe len 4 ++ toBe proto 4

/-- A datagram from `src` to `dst` (4 or 16 bytes each) with its IP header. -/
def ipPacket (src dst : List Byte) (proto hop : Nat) (pay : List Byte) : List Byte :=
  if src.length = 4 then
    let h (c : Nat) : List Byte := toBe 0x4500 2 ++ toBe (20 + pay.length) 2 ++ toBe 0 2 ++ toBe 0x4000 2 ++ toBe hop 1 ++ toBe proto 1 ++ toBe c 2 ++ src ++ dst
    h (inetSum (h 0)) ++ pay
  else toBe 0x60000000 4 ++ toBe pay.length 2 ++ toBe proto 1 ++ toBe hop 1 ++ src ++ dst ++ pay

/-- A UDP header and payload. -/
def udpPacket (src dst : List Byte) (sport dport : Nat) (pay : List Byte) : List Byte :=
  let h (c : Nat) : List Byte := toBe sport 2 ++ toBe dport 2 ++ toBe (8 + pay.length) 2 ++ toBe c 2
  let c := inetSum (pseudo src dst 17 (8 + pay.length) ++ h 0 ++ pay)
  h (if c = 0 then 65535 else c) ++ pay

/-- The EtherType of an address. -/
def ipType (a : List Byte) : Nat := if a.length = 4 then 0x0800 else 0x86DD

/-- The own address of a configuration that suits a destination. -/
def PortCfg.src (c : PortCfg) (dst : List Byte) : List Byte := if dst.length = 4 then toBe c.ip4 4 else c.ip6

/-- Sends a UDP datagram from a port or its pair; `single` sends it on the port alone. -/
def Dev.udpSend (d : Dev) (p cls : Nat) (single : Bool) (dmac dip : List Byte) (sport dport : Nat) (pay : List Byte) : Dev :=
  match d.addrCfg p, d.portCfg p with
  | some a, some c =>
    let src := (if single then c else a).src dip
    let pk := ipPacket src dip 17 64 (udpPacket src dip sport dport pay)
    if single then d.netSingle p cls dmac (ipType dip) pk else d.netSend p cls dmac (ipType dip) pk
  | _, _ => d

/-- What a received frame carries, as far as the device takes part in it. -/
inductive NetRx where
  | arp (sha spa tpa : List Byte)
  | echo (src dst pay : List Byte)
  | solicit (src target : List Byte)
  | udp (src dst : List Byte) (sport dport : Nat) (pay : List Byte)
  | ptp
  | supervision
  | other
deriving DecidableEq, Repr

/-- Reads the UDP of a datagram; `other` when its length or checksum is wrong. -/
def readUdp (src dst pay : List Byte) : NetRx :=
  let n := be pay 4 2
  if pay.length < 8 ∨ n < 8 ∨ pay.length < n then .other
  else
    let u := pay.take n
    if (be u 6 2 ≠ 0 ∨ src.length ≠ 4) ∧ inetSum (pseudo src dst 17 n ++ u) ≠ 0 then .other
    else if be u 2 2 = 319 ∨ be u 2 2 = 320 then .ptp
    else .udp src dst (be u 0 2) (be u 2 2) (u.drop 8)

/-- Reads the payload of a frame of a type. -/
def readFrame (etype : Nat) (b : List Byte) : NetRx :=
  if etype = 0x88F7 then .ptp
  else if etype = 0x88FB then .supervision
  else if etype = 0x0806 then
    (if be b 0 2 = 1 ∧ be b 2 2 = 0x0800 ∧ be b 6 2 = 1 then .arp (slice b 8 6) (slice b 14 4) (slice b 24 4) else .other)
  else if etype = 0x0800 then
    let ihl := byteAt b 0 % 16 * 4
    let n := be b 2 2
    if byteAt b 0 / 16 ≠ 4 ∨ ihl < 20 ∨ n < ihl ∨ b.length < n ∨ inetSum (b.take ihl) ≠ 0 ∨ be b 6 2 % 0x4000 ≠ 0 then .other
    else
      let pay := slice b ihl (n - ihl)
      let src := slice b 12 4
      let dst := slice b 16 4
      if byteAt b 9 = 17 then readUdp src dst pay
      else if byteAt b 9 = 1 ∧ byteAt pay 0 = 8 ∧ inetSum pay = 0 then .echo src dst pay
      else .other
  else if etype = 0x86DD then
    let n := be b 4 2
    if byteAt b 0 / 16 ≠ 6 ∨ b.length < 40 + n then .other
    else
      let pay := slice b 40 n
      let src := slice b 8 16
      let dst := slice b 24 16
      if byteAt b 6 = 17 then readUdp src dst pay
      else if byteAt b 6 = 58 ∧ inetSum (pseudo src dst 58 n ++ pay) = 0 then
        (if byteAt pay 0 = 128 then .echo src dst pay else if byteAt pay 0 = 135 then .solicit src (slice pay 8 16) else .other)
      else .other
  else .other

/-- Whether an address is one of a port's own. -/
def PortCfg.owns (c : PortCfg) (a : List Byte) : Bool :=
  (a.length == 4 && c.ip4 != 0 && a == toBe c.ip4 4) || (a.length == 16 && !allZero c.ip6 && a == c.ip6)

/-- Answers an ARP request, a neighbour solicitation or an echo request (R424). -/
def Dev.answer (d : Dev) (p : Nat) (a : PortCfg) (srcMac : List Byte) (r : NetRx) : Dev :=
  match r with
  | .arp sha spa tpa =>
    if a.owns tpa then
      d.netSend p 0 srcMac 0x0806 (toBe 1 2 ++ toBe 0x0800 2 ++ toBe 6 1 ++ toBe 4 1 ++ toBe 2 2 ++ a.mac ++ tpa ++ sha ++ spa)
    else d
  | .solicit src target =>
    if a.owns target then
      let body (c : Nat) : List Byte := toBe 136 1 ++ toBe 0 1 ++ toBe c 2 ++ toBe 0x60000000 4 ++ target ++ toBe 2 1 ++ toBe 1 1 ++ a.mac
      let c := inetSum (pseudo target src 58 32 ++ body 0)
      d.netSend p 0 srcMac 0x86DD (ipPacket target src 58 255 (body c))
    else d
  | .echo src dst pay =>
    if a.owns dst then
      let v4 := src.length == 4
      let body (c : Nat) : List Byte := toBe (if v4 then 0 else 129) 1 ++ toBe 0 1 ++ toBe c 2 ++ pay.drop 4
      let c := inetSum ((if v4 then [] else pseudo dst src 58 pay.length) ++ body 0)
      d.netSend p 0 srcMac (ipType dst) (ipPacket dst src (if v4 then 1 else 58) 64 (body c))
    else d
  | _ => d

/-! ### Receiving -/

/-- The data items of a payload: 7 bytes each, the first in [7:0] (R144). -/
def dataItems (b : List Byte) : List Item := (List.range ((b.length + 6) / 7)).map (fun k => mkItem (le (padTo (slice b (7 * k) 7) 7) 0 7))

/-- The input record of a dispatch frame (R288, Table 11.3). -/
def inputRecord (b : List Byte) : QUnit :=
  let fmt := b2n (le b 0 2 == 0x4644 && byteAt b 2 == 1)
  .pkt (mkHead (byteAt b 3 + fmt * 2 ^ 8))
    [mkItem (le b 20 4), mkItem (le b 12 6), mkItem (le b 8 4), mkItem (le b 4 4 + 2 ^ 32)]

/-- A CWP datagram arrives at a port (R409, R417): it waits, or is discarded when 16 wait. -/
def Dev.cwpArrive (d : Dev) (p : Nat) (m : CwpMsg) : Dev :=
  let w := d.host.waiting.get p []
  if 16 ≤ w.length then
    (d.bump Reg.GLB_CWP_CNT_DROP_CNT).raiseHeld Ev.GLB_CWP_OVERRUN p oneSec p (fun n => min n (2 ^ 32 - 1))
  else { d with host := { d.host with waiting := d.host.waiting.ins p (w ++ [m]) } }

/-- Delivers a datagram (R409, R431). -/
def Dev.netDeliver (d : Dev) (p : Nat) (srcMac src : List Byte) (sport dport : Nat) (pay : List Byte) : Dev :=
  let app := d.rd Reg.NET_APP_PORT_PORT
  let d0 := d.bump Reg.NET_CNT_RX_FRAMES_CNT 1 p
  let pairA := decide (p < 2) && !d.recovery
  if dport = 47620 then d0.cwpArrive p { mac := srcMac, addr := src, udp := sport, bytes := pay }
  else if pairA ∧ dport = 47621 then
    (if pay.length = 32 then d0.produce (0xA000 + p) 0 (inputRecord pay) else d0.dspRefuse (0xA000 + p) 1 0)
  else if pairA ∧ dport = 47622 then
    let d := d0.trwSafety p pay
    if pay.length = 64 then d.produce (0xA000 + p) 1 (.pkt (mkHead p) (mkItem (ts32 d.now * 2 ^ 28) :: dataItems pay)) else d
  else if app ≠ 0 ∧ (app < 47620 ∨ 47623 < app) ∧ dport = app ∧ !d.recovery ∧ pay.length ≤ 1440 then
    d0.produce (0xA000 + p) 2 (.pkt (mkHead (pay.length + p * 2 ^ 12)) (mkItem (ts32 d.now * 2 ^ 28) :: dataItems pay))
  else if app ≠ 0 ∧ (app < 47620 ∨ 47623 < app) ∧ dport = app ∧ !d.recovery then d
  else d.bump Reg.NET_CNT_RX_DROP_CNT 1 p

/-- What the duplicate table says of a frame (R425, R426): 0 first copy, 1 second copy within 400 ms, 2 a source the full table does not hold. -/
def PrpPair.hear (x : PrpPair) (src seq now : Nat) : PrpPair × Nat :=
  match x.nodes.find? (fun n => n.1 == src) with
  | some n =>
    let l := n.2.filter (fun s => decide (now ≤ s.2 + 400000000))
    let put (l : List (Nat × Nat)) : PrpPair := { x with nodes := x.nodes.map (fun m => if m.1 == src then (src, l) else m) }
    if l.any (fun s => s.1 == seq) then (put (l.filter (fun s => s.1 != seq)), 1) else (put (l ++ [(seq, now)]), 0)
  | none => if 512 ≤ x.nodes.length then (x, 2) else ({ x with nodes := x.nodes ++ [(src, [(seq, now)])] }, 0)

/-- The trailer of a frame's payload: its sequence number and whether it names the other LAN. -/
def readTrailer (p : Nat) (pay : List Byte) : Option (Nat × Bool) :=
  let n := pay.length
  let lan := be pay (n - 4) 2 / 4096
  if n < 6 ∨ be pay (n - 2) 2 ≠ 0x88FB ∨ be pay (n - 4) 2 % 4096 ≠ n ∨ (lan ≠ 0xA ∧ lan ≠ 0xB) then none
  else some (be pay (n - 6) 2, lan != (if p % 2 = 0 then 0xA else 0xB))

/-- Takes a frame with its tag checked: PRP, then delivery. -/
def Dev.netTake (d : Dev) (p : Nat) (c a : PortCfg) (dst srcMac : List Byte) (etype : Nat) (pay : List Byte) : Dev :=
  let tr := if c.prp then readTrailer p pay else none
  let body := if tr.isSome then pay.take (pay.length - 6) else pay
  let r := readFrame etype body
  let exempt := match r with
    | .ptp => true
    | .udp _ _ _ dport _ => dport == 47622
    | _ => false
  let wrong := match tr with | some (_, w) => w | none => false
  let d := if wrong then (d.bump Reg.NET_CNT_PRP_WRONG_LAN_CNT 1 p).set1 Reg.NET_PORT_ERR_WRONG_LAN p else d
  let (d, dup) := match tr with
    | some (seq, _) =>
      if exempt || wrong then (d, false)
      else
        let (x, v) := (d.pair (p / 2)).hear (be srcMac 0 6) seq d.own
        let d := d.setPair (p / 2) x
        if v = 1 then (d.bump Reg.NET_CNT_PRP_DUP_CNT 1 p, true)
        else if v = 2 then
          (if d.on Reg.NET_PORT_ERR_PRP_TABLE_FULL p then (d, false)
           else ((d.set1 Reg.NET_PORT_ERR_PRP_TABLE_FULL p).raise Ev.NET_PRP_TABLE_FULL p 0, false))
        else (d, false)
    | none => (d, false)
  if dup || !(dst == c.mac || dst == a.mac || bitAt (byteAt dst 0) 0) then d
  else match r with
    | .udp src dip sport dport b => if c.owns dip || a.owns dip then d.netDeliver p srcMac src sport dport b else d
    | .other => d
    | r => (d.bump Reg.NET_CNT_RX_FRAMES_CNT 1 p).answer p a srcMac r

/-- The bit time of a port in ps. -/
def Dev.bitPs (d : Dev) (p : Nat) (mode : Nat) : Nat :=
  if mode = 2 then 400 else if mode = 3 then 100
  else if mode = 4 then (match d.rd Reg.NET_PORT_STAT_SPEED p with | 0 => 100000 | 1 => 10000 | _ => 1000)
  else 1000

/-- A MAC control frame (R430): PAUSE stops classes 2 and 3 for its time; any other is discarded. -/
def Dev.macControl (d : Dev) (p mode : Nat) (frame : List Byte) : Dev :=
  if be frame 14 2 ≠ 1 then d
  else
    let x := d.np p
    let d := (d.bump Reg.NET_CNT_PAUSE_RX_CNT 1 p).set1 Reg.NET_PORT_ERR_PAUSE_RX p
    (d.setNp p { x with pauseTo := d.own + be frame 16 2 * 512 * d.bitPs p mode / 1000 }).portRelease p

/-- ETH_FRAME_RECEIVE: a frame from its destination address to its last byte before the FCS (R423 to R431). -/
def Dev.ethRx (d : Dev) (p : Nat) (frame : List Byte) : Dev :=
  match d.portCfg p, d.addrCfg p with
  | some c, some a =>
    if !d.on Reg.NET_PORT_STAT_LINK p || d.on Reg.NET_PORT_STAT_CLOSED p || decide (frame.length < 14) then d
    else
      let x := d.np p
      let d := d.setNp p { x with lastRx := d.own }
      let d := if bitAt (d.rd Reg.NET_PAIR_STAT_PATH_LOST) p then
          (d.wr Reg.NET_PAIR_STAT_PATH_LOST (setBit (d.rd Reg.NET_PAIR_STAT_PATH_LOST) p false)).raise Ev.NET_PRP_RESTORED p 0
        else d
      if 1518 < frame.length then (d.bump Reg.NET_CNT_RX_DROP_CNT 1 p).set1 Reg.NET_PORT_ERR_TOO_LONG p
      else if be frame 12 2 = 0x8808 then d.macControl p c.mode frame
      else
        match (if c.key = 0xFF then (d, some frame) else d.macOpen p frame) with
        | (d, none) => d
        | (d, some f) =>
          let tagged := be f 12 2 == 0x8100
          let vid := be f 14 2 % 4096
          let okTag := if c.vlan = 0 then !tagged || vid == 0 else tagged && vid == c.vlan
          if !okTag then (d.bump Reg.NET_CNT_RX_DROP_CNT 1 p).set1 Reg.NET_PORT_ERR_VLAN p
          else d.netTake p c a (f.take 6) (slice f 6 6) (if tagged then be f 16 2 else be f 12 2) (f.drop (if tagged then 18 else 14))
  | _, _ => d

/-! ### Links and paths -/

/-- Marks the path of a port lost (R427): 1 link down, 2 silent. -/
def Dev.pathLost (d : Dev) (p cause : Nat) : Dev :=
  let v := d.rd Reg.NET_PAIR_STAT_PATH_LOST
  if bitAt v p then d else (d.wr Reg.NET_PAIR_STAT_PATH_LOST (setBit v p true)).raise Ev.NET_PRP_PATH p cause

/-- ETH_LINK_CHANGE. -/
def Dev.ethLink (d : Dev) (p : Nat) (up : Bool) (speed : Nat) : Dev :=
  match d.portCfg p with
  | none => d
  | some c =>
    if d.on Reg.NET_PORT_STAT_LINK p == up then d
    else
      let sp := if c.mode = 4 then min speed 2 else 3
      let x := d.np p
      let d := (((d.wr Reg.NET_PORT_STAT_LINK (b2n up) p).wr Reg.NET_PORT_STAT_SPEED sp p).setNp p { x with lastRx := d.own, pauseTo := d.own })
      let d := d.raise Ev.NET_LINK p (b2n up + sp * 16)
      if up then d
      else
        let d := d.set1 Reg.NET_PORT_ERR_LINK_LOST p
        if c.prp then d.pathLost p 1 else d

/-- PRP_PATH_SILENT (R427). -/
def Dev.prpSilent (d : Dev) (p : Nat) : Dev :=
  match d.portCfg p with
  | none => d
  | some c =>
    let w := max 1 (d.rd Reg.NET_CTRL_PRP_SILENT) * 1000000
    if c.prp && d.on Reg.NET_PORT_STAT_LINK p && decide ((d.np p).lastRx + w ≤ d.own) && decide ((d.np p).lastRx < (d.np (mate p)).lastRx) then d.pathLost p 2 else d

/-- PRP_SUPERVISION_SEND (R425): every 2 s on the ports of a pair. -/
def Dev.prpSupervise (d : Dev) (i : Nat) : Dev :=
  match d.portCfg (2 * i) with
  | none => d
  | some c =>
    let x := d.pair i
    let due := match x.supAt with | some a => decide (a + 2 * oneSec ≤ d.own) | none => true
    if !c.prp || !due then d
    else
      let d := d.setPair i { x with supSeq := (x.supSeq + 1) % 65536, supAt := some d.own }
      d.netSend (2 * i) 0 [0x01#8, 0x15#8, 0x4E#8, 0x00#8, 0x01#8, 0x00#8] 0x88FB (toBe 0x0001 2 ++ toBe x.supSeq 2 ++ toBe 20 1 ++ toBe 6 1 ++ c.mac ++ toBe 0 2)

/-! ### Egress (R432, R433) -/

/-- The binding that names a queue. -/
def Dev.bindingOf (d : Dev) (qid : Nat) : Option Nat := (List.range 32).find? (fun n => d.on Reg.NET_EGQ_EN n && d.rd Reg.NET_EGQ_QID n == qid)

/-- The destination of a binding: MAC address and IP address. -/
def Dev.egDest (d : Dev) (n : Nat) : List Byte × List Byte :=
  let ip4 := d.rd Reg.NET_EGQ_DIP4_DIP4 n
  (toLe (d.rd Reg.NET_EGQ_DMAC_LO_DMAC n) 4 ++ toLe (d.rd Reg.NET_EGQ_DMAC_HI_DMAC n) 2,
   if ip4 = 0 then (List.range 4).flatMap (fun k => toLe (d.rd Reg.NET_EGQ_DIP6_DIP6 n k) 4) else toBe ip4 4)

/-- An egress unit is discarded (R432): 1 no binding, 2 too big, 3 malformed, 4 port down. -/
def Dev.txDiscard (d : Dev) (p qid reason : Nat) (n : Option Nat) : Dev :=
  let d := match n with
    | some n => d.setEgress n { d.egress n with lost := true }
    | none => d
  let d := (d.bump Reg.NET_CNT_TX_DISCARD_CNT 1 p).set1 Reg.NET_PORT_ERR_TX_DISCARD p
  d.raiseHeld Ev.NET_TX_DISCARD p oneSec p (fun _ => qid % 2 ^ 20 + reason * 2 ^ 20)

/-- Sends what a binding has gathered (R433, Table 17.4). -/
def Dev.egFlush (d : Dev) (n : Nat) : Dev :=
  let x := d.egress n
  if x.items.isEmpty then d
  else
    let qid := d.rd Reg.NET_EGQ_QID n
    let (cls, loss) := match d.qf.qs.find qid with
      | some q => (q.qd.cls, q.loss)
      | none => (3, false)
    let seq := (d.rd Reg.NET_EGQ_SEQ_SEQ n + 1) % 2 ^ 32
    let d := (d.wr Reg.NET_EGQ_SEQ_SEQ seq n).setEgress n {}
    let (mac, ip) := d.egDest n
    d.udpSend x.port cls false mac ip 47623 (d.rd Reg.NET_EGQ_DMAC_HI_DPORT n)
      (toLe 0x4D54 2 ++ toLe 1 1 ++ toLe (b2n x.lost + b2n loss * 2) 1 ++ toLe n 2 ++ toLe x.items.length 2 ++ toLe seq 4 ++ toLe d.img.otp.uid 8 ++ time12 d.now
        ++ x.items.flatMap (fun i => toLe i.toNat 8))

/-- The place of a class in the transmit order (Table 17.2). -/
def classRank (c : Nat) : Nat := match c with
  | 1 => 0 | 0 => 1 | 2 => 2 | _ => 3

/-- Whether a port is stopped for a class by a PAUSE. -/
def Dev.pausedFor (d : Dev) (p cls : Nat) : Bool := decide (2 ≤ cls) && (d.portsOf p).all (fun q => decide (d.own < (d.np q).pauseTo) || !d.portUp q)

/-- Whether a queue of the port with a higher class has a unit that the port may send. -/
def Dev.higherWaits (d : Dev) (p rank : Nat) : Bool :=
  d.qf.qs.any (fun q => q.2.qd.consumer == 0xB000 + p && decide (classRank q.2.qd.cls < rank) && !q.2.units.isEmpty && !d.pausedFor p q.2.qd.cls)

/-- EGRESS_UNIT_TAKE (R430, R432, R433). -/
def Dev.egTake (d : Dev) (p qid : Nat) : Dev :=
  match d.qf.qs.find qid with
  | none => d
  | some q =>
    let down := (d.portsOf p).all (fun r => !d.portUp r)
    if q.qd.consumer ≠ 0xB000 + p ∨ (d.portCfg p).isNone then d
    else if down ∧ 2 ≤ q.qd.cls then d
    else if !down && (d.pausedFor p q.qd.cls || d.higherWaits p (classRank q.qd.cls)) then d
    else match d.take qid with
      | (d, none) => d
      | (d, some u) =>
        let b := d.bindingOf qid
        if down then d.txDiscard p qid 4 b
        else match b with
          | none => d.txDiscard p qid 1 none
          | some n =>
            if d.on Reg.NET_EGQ_KIND n then
              (match u with
              | .pkt h items =>
                let len := itemBits h 16 11
                if itemErr h || len == 0 || decide (7 * items.length < len) then d.txDiscard p qid 3 b
                else if 1440 < len then d.txDiscard p qid 2 b
                else
                  let (mac, ip) := d.egDest n
                  let port := d.rd Reg.NET_EGQ_DMAC_HI_DPORT n
                  d.udpSend p q.qd.cls false mac ip port port ((items.flatMap (fun i => toLe (itemBits i 0 56) 7)).take len)
              | _ => d.txDiscard p qid 3 b)
            else if 176 < u.size then d.txDiscard p qid 2 b
            else
              let d := if 176 < (d.egress n).items.length + u.size then d.egFlush n else d
              let x := d.egress n
              d.setEgress n { x with items := x.items ++ u.items, port := p, at_ := if x.items.isEmpty then d.own else x.at_ }

/-- TELEMETRY_FLUSH (R433). -/
def Dev.egDue (d : Dev) (n : Nat) : Dev :=
  let x := d.egress n
  if x.at_ + max 1 (d.rd Reg.NET_EGQ_FLUSH_FLUSH n) * 1000 ≤ d.own then d.egFlush n else d

/-- SF_STATUS_SEND (R322): on both ports of pair A, each without a trailer (R426). -/
def Dev.sfSend (d : Dev) : Dev :=
  if !d.sfDue then d
  else
    let (d, b) := d.sfStatus
    [0, 1].foldl (fun (d : Dev) p => let (mac, ip) := Config.sfDest p; d.udpSend p 1 true (padTo mac 6) (if ip.length = 4 then ip else padTo ip 16) 47622 47622 b) d

/-! ### State changes -/

/-- The ports take what a structure gives them: registers, and associations where the entry of a port changes. -/
def Dev.netBuild (d : Dev) : Dev :=
  (List.range 4).foldl (fun (d : Dev) p => match d.portCfg p with
    | some c =>
      let was := d.on Reg.NET_PORT_STAT_MACSEC p
      let d := ((d.wr Reg.NET_PORT_STAT_MODE c.mode p).wr Reg.NET_PORT_STAT_PRP (b2n c.prp) p).wr Reg.NET_PORT_STAT_MACSEC (b2n (c.key != 0xFF)) p
      let same := was && (match (d.np p).rx.getLast? with | some s => d.host.keys.find c.key == some s.key | none => false)
      if c.key = 0xFF then d.clr Reg.NET_PORT_STAT_CLOSED p else if same then d else d.macInstall p c.key
    | none => ((((d.clr Reg.NET_PORT_STAT_LINK p).clr Reg.NET_PORT_STAT_MODE p).clr Reg.NET_PORT_STAT_PRP p).clr Reg.NET_PORT_STAT_MACSEC p).setNp p {}) d

/-- Every port goes down (R423). -/
def Dev.netStop (d : Dev) : Dev :=
  let d := (List.range 4).foldl (fun (d : Dev) p => (d.clr Reg.NET_PORT_STAT_LINK p).clr Reg.NET_PORT_STAT_SA_PENDING p) d
  { (d.wr Reg.NET_PAIR_STAT_PATH_LOST 0) with net := {}, host := { d.host with waiting := [] } }

end Sys2Proof.Machine
end

