-- ==== Sys2Proof/Machine/Qf.lean ====
section
/-!
DEFINITION. Machine/Qf.lean: the queue fabric as its requesters see it (chapter 8): who a requester is (Table 8.2, R22), refusals (R207, R419), pushes and
pops (R208 to R217), `QF_CMD` (R219, R224), lock reclaim (R222, R223), status and latches (R220, R221), stall warning (R228), storage errors (R229).
-/
namespace Sys2Proof.Machine

/-! ### Requesters -/

def Dev.rq (d : Dev) (req : Nat) : Req := d.reqs.get req {}
def Dev.setRq (d : Dev) (req : Nat) (r : Req) : Dev := { d with reqs := d.reqs.set req r {} }

/-- Whether a requester is a CWP session, and whether it is a triad or a lane. -/
def isCwp (req : Nat) : Bool := decide (0x40 ≤ req) && decide (req < 0x80)
def isLane (req : Nat) : Bool := decide (0x80 ≤ req) && decide (req < 0x90)

/-- The endpoint a requester stands behind (Tables 3.10, 8.2). -/
def reqEndpoint (req : Nat) : Nat :=
  if req = 1 then 0x9000 else if req = 2 then 0x9001 else if isCwp req then 0x9002 else if isLane req then 0x8000 + (req - 0x80) else 0

/-- The realm of a requester (R22, R349, R414): protected or not. -/
def Dev.reqProt (d : Dev) (req : Nat) : Bool :=
  if req = 2 then true
  else if isCwp req then decide (0x70 ≤ req)
  else if isLane req then d.on Reg.TRD_STATUS_AUTH ((req - 0x80) / 4)
  else false

/-- Reports a refused access (R419): the capture registers for PCIe and triads, and the event. -/
def Dev.refuse (d : Dev) (req off : Nat) (write : Bool) (st : Nat) : Dev :=
  let d := if isCwp req then d
    else (((d.wr Reg.GLB_ACC_ERR_ADDR_ADDR off).wr Reg.GLB_ACC_ERR_INFO_STATUS st).wr Reg.GLB_ACC_ERR_INFO_REQ req).wr Reg.GLB_ACC_ERR_INFO_WRITE (b2n write)
  let d := if isCwp req then d else d.bump Reg.GLB_ACC_ERR_CNT_COUNT
  d.raiseHeld Ev.GLB_ACCESS_REFUSED req oneSec req (fun _ => st + off % 2 ^ 32 * 2 ^ 8)

/-- The offset of a queue's doorbell (R208). -/
def doorbell (qid : Nat) : Nat := 0x2000000 + 8 * qid

/-! ### Checks and results -/

/-- The refusal of a push (or, with `pop`, of a pop or Cut) by R207 and R23; 0 for none. -/
def Dev.qfDenied (d : Dev) (req qid : Nat) (pop : Bool) : Nat :=
  match d.qf.qs.find qid with
  | none => 0x20
  | some q =>
    if pop then
      (if q.qd.consumer ≠ reqEndpoint req then 0x22 else if q.qd.prot && !d.reqProt req && !q.qd.openRead then 0x23 else 0)
    else
      (if q.qd.producer ≠ reqEndpoint req then 0x21 else if q.qd.prot && !d.reqProt req then 0x23 else 0)

/-- What a refused queue operation leaves behind (R207, R419). -/
def Dev.qfRefused (d : Dev) (req qid st : Nat) (write : Bool) : Dev :=
  let d := d.refuse req (doorbell qid) write st
  if st = 0x20 then d
  else ((d.bump Reg.QF_CNT_REFUSED_CNT).set1 Reg.QF_ERR_REFUSED).raiseHeld Ev.QF_REFUSED req oneSec qid (fun _ => st + req * 2 ^ 8)

/-- Writes the requester's `QF_RESULT` (R209): kind 1 push, 2 pop, 3 command. -/
def Dev.qfResult (d : Dev) (req kind qid st : Nat) : Dev :=
  d.setRq req { d.rq req with kind := kind, status := st, qid := qid % 2 ^ 20 }

/-- Takes a pending `LOCK_LOST` of a requester on a queue (R224). -/
def Dev.takeLost (d : Dev) (req qid : Nat) : Dev × Bool :=
  match d.qf.qs.find qid with
  | none => (d, false)
  | some q =>
    if q.lost.contains req then ({ d with qf := { d.qf with qs := d.qf.qs.ins qid { q with lost := q.lost.filter (fun x => x != req) } } }, true) else (d, false)

/-- Notes a use of the producer or consumer lock of a queue. -/
def Dev.usedProd (d : Dev) (qid : Nat) : Dev := { d with qf := { d.qf with prodAt := d.qf.prodAt.ins qid d.own } }
def Dev.usedCons (d : Dev) (qid : Nat) : Dev := { d with qf := { d.qf with consAt := d.qf.consAt.ins qid d.own } }

/-! ### Push -/

/-- A push of a raw value by a requester (R207, R208, R212, R216, R222, R224): its status, or none when a queue instruction of a triad must wait (`blk`). -/
def Dev.qfPush (d : Dev) (req qid : Nat) (v : Item) (blk : Bool := isLane req) : Dev × Option Nat :=
  let st := d.qfDenied req qid false
  if st ≠ 0 then (d.qfRefused req qid st true, some st)
  else
    let (d, lost) := d.takeLost req qid
    match d.qf.qs.find qid with
    | none => (d, some 0x20)
    | some q =>
      let other := match q.openp with | some p => p.req != req | none => false
      let opening := q.openp.isNone && v.getLsbD 62
      if lost && !opening then (d, some 0x27)
      else if other then (d, if blk then none else some 0x26)
      else
        let r := q.push req v
        if r.st = 0x24 then (d, if blk then none else some 0x24)
        else ((d.applyRes qid r).usedProd qid, some r.st)

/-- QPUSH2's two items as one unit (R518), or as two appends of the producer's open packet. The Bool says that only the second item still has to be stored. -/
def Dev.qfPush2 (d : Dev) (req qid : Nat) (a b : Item) : Dev × Option Nat × Bool :=
  let st := d.qfDenied req qid false
  if st ≠ 0 then (d.qfRefused req qid st true, some st, false)
  else
    let (d, lost) := d.takeLost req qid
    match d.qf.qs.find qid with
    | none => (d, some 0x20, false)
    | some q =>
      if lost then (d, some 0x27, false)
      else match q.openp with
        | some p =>
          if p.req ≠ req then (d, none, false)
          else
            let r := q.append p a
            if r.st = 0x24 then (d, none, false)
            else
              let d := (d.applyRes qid r).usedProd qid
              (match r.q.openp with
              | some p2 =>
                let r2 := r.q.append p2 b
                if r2.st = 0x24 then (d, none, true) else ((d.applyRes qid r2).usedProd qid, some (if r.st = 0 then r2.st else r.st), false)
              | none => (d, some r.st, false))
        | none =>
          let one (v : Item) (last : Bool) : Item := (v &&& 0x1FFFFFFFFFFFFFFF#64) ||| 0x8000000000000000#64 ||| (if last then 0x2000000000000000#64 else 0#64)
          let r := q.putUnit (.ev (one a false) (one b true))
          if r.st = 0x24 then (d, none, false) else (d.applyRes qid r, some r.st, false)

/-! ### Pop -/

/-- The not-valid item, with or without TIMEOUT (R41). -/
def notValid (timeout : Bool) : Item := if timeout then 1#64 else 0#64

/-- What a pop answers: a status with an item, or a wait. -/
inductive PopAns where
  | got (st : Nat) (it : Item)
  | wait
deriving DecidableEq, Repr

/-- A pop by a requester (R207, R210, R223, R224). `wait` says that the requester must wait: on an empty near queue, or a queue instruction behind a consumer lock (`blk`). -/
def Dev.qfPop (d : Dev) (req qid : Nat) (blk : Bool := isLane req) : Dev × PopAns :=
  let st := d.qfDenied req qid true
  if st ≠ 0 then (d.qfRefused req qid st false, .got st (notValid false))
  else
    let (d, lost) := d.takeLost req qid
    match d.qf.qs.find qid with
    | none => (d, .got 0x20 (notValid false))
    | some q =>
      let other := match q.reading with | some r => r.req != req | none => false
      if lost then (d, .got 0x27 (notValid false))
      else if other then (d, if blk then .wait else .got 0x26 (notValid false))
      else if !q.readable then (d, if qid < 0x10000 then .wait else .got 0 (notValid false))
      else
        let r := q.popItem req
        ((d.applyRes qid r).usedCons qid, .got r.st (r.item.getD (notValid false)))

/-- A host's doorbell read (R208, R210): the item goes to the requester, its high word into the latch, or the read waits. -/
def Dev.hostPop (d : Dev) (req qid : Nat) : Dev :=
  match d.qfPop req qid false with
  | (d, .got st it) =>
    let d := d.qfResult req 2 qid st
    let d := d.setRq req { d.rq req with high := it.toNat / 2 ^ 32, pop := none }
    d.emit (.item req qid it)
  | (d, .wait) => d.setRq req { d.rq req with pop := some (qid, d.own) }

/-- A host's doorbell write (R208). -/
def Dev.hostPush (d : Dev) (req qid : Nat) (v : Item) : Dev :=
  let (d, st) := d.qfPush req qid v false
  (d.qfResult req 1 qid (st.getD 0x26)).emit (.status req (st.getD 0x26))

/-- The end of a host read's wait (R210): a not-valid item with TIMEOUT. -/
def Dev.hostTimeout (d : Dev) (req : Nat) : Dev :=
  match (d.rq req).pop with
  | none => d
  | some (qid, _) =>
    let d := d.qfResult req 2 qid 0
    (d.setRq req { d.rq req with high := 0, pop := none }).emit (.item req qid (notValid true))

/-- HOST_POP_TIMEOUT: 8 µs have passed. -/
def Dev.hostPopLimit (d : Dev) (req : Nat) : Dev :=
  match (d.rq req).pop with
  | some (_, a) => if !isLane req && decide (a + 8000 ≤ d.own) then d.hostTimeout req else d
  | none => d

/-- POP_WAIT_RESUME for a host: the item that has become readable. -/
def Dev.hostResume (d : Dev) (req qid : Nat) : Dev :=
  match (d.rq req).pop with
  | some (q, _) => if q = qid && !isLane req && (match d.qf.qs.find qid with | some x => x.readable | none => false) then d.hostPop req qid else d
  | none => d

/-! ### `QF_CMD` (Table 8.11) -/

/-- Whether an endpoint is a program (Table 3.10). -/
def isProgram (ep : Nat) : Bool := ep / 4096 == 8 || ep / 4096 == 9

/-- A command on a queue: 1 CUT, 2 ABORT, 3 RELEASE, 4 FLUSH; its status. -/
def Dev.qfCmd (d : Dev) (req qid op : Nat) : Dev × Nat :=
  if op < 1 ∨ 4 < op then (d, 0x2A)
  else
    let st := if op = 3 then (if (d.qf.qs.find qid).isNone then 0x20 else 0) else d.qfDenied req qid (op != 2)
    if st ≠ 0 then (d.qfRefused req qid st true, st)
    else match d.qf.qs.find qid with
      | none => (d, 0x20)
      | some q =>
        if op = 3 then (d.applyRes qid (q.release req), 0)
        else if q.lost.contains req then ((d.takeLost req qid).1, 0x27)
        else if op = 4 && !isProgram q.qd.consumer then (d, 0x2A)
        else
          let r := if op = 1 then q.cut req else if op = 2 then q.abort req else q.flush req
          (d.applyRes qid r, r.st)

/-- A host's write of `QF_CMD`. -/
def Dev.hostCmd (d : Dev) (req qid op : Nat) : Dev :=
  let (d, st) := d.qfCmd req qid op
  (d.qfResult req 3 qid st).emit (.status req st)

/-! ### Waits under BLOCK, stall warning, reclaim, errors -/

/-- BLOCK_WAIT_RESUME for the engines: the oldest write that waits on the queue is stored once every queue it is bound to has room (R212, R225). -/
def Dev.engineResume (d : Dev) (qid : Nat) : Dev :=
  match d.qf.waits.find? (fun w => w.qids.contains qid) with
  | none => d
  | some w =>
    let before := d.qf.waits.takeWhile (fun x => x != w)
    if d.allRoom w.qids w.unit.size && !before.any (fun x => x.qids.any (fun q => w.qids.contains q)) then
      { d with qf := { d.qf with waits := d.qf.waits.erase w } }.storeAll w.qids w.unit
    else d

/-- STALL_WARN (R228): producers that have waited on a queue longer than `QF_STALL_WARN`, each reported once. -/
def Dev.stallWarn (d : Dev) (qid : Nat) : Dev :=
  let w := d.rd Reg.QF_STALL_WARN_WARN
  let isOver (a : Nat) : Bool := decide (a + w * 1000 < d.own)
  let eng := d.qf.waits.any (fun x => x.qids.contains qid && !x.warned && isOver x.at_)
  let lanes := d.qf.lanes.filter (fun x => x.2.qid == qid && x.2.op != 1 && x.2.op != 2 && !x.2.warned && isOver x.2.at_)
  let d := { d with qf := { d.qf with
    waits := d.qf.waits.map (fun x => if x.qids.contains qid && isOver x.at_ then { x with warned := true } else x)
    lanes := lanes.foldl (fun (t : Tbl LWait) x => t.ins x.1 { x.2 with warned := true }) d.qf.lanes } }
  let d := if eng then (d.set1 Reg.QF_ERR_STALL).raise Ev.QF_STALL qid w else d
  lanes.foldl (fun (d : Dev) x => (d.set1 Reg.QF_ERR_STALL).raise Ev.QF_STALL qid (w + x.1 * 2 ^ 16)) d

/-- What a reclaim records. -/
def Dev.reclaimed (d : Dev) (qid side req n : Nat) : Dev :=
  ((d.bump Reg.QF_CNT_RECLAIM_CNT).set1 Reg.QF_ERR_RECLAIM).raise Ev.QF_LOCK_RECLAIM qid (side + req * 2 ^ 8 + min n 65535 * 2 ^ 16)

/-- The lock timeout in ns. -/
def Dev.lockNs (d : Dev) : Nat := d.rd Reg.QF_LOCK_TIMEOUT_TIMEOUT * 1000

/-- LOCK_RECLAIM_PRODUCER (R222): time that the holder waits under BLOCK does not count. -/
def Dev.reclaimProd (d : Dev) (qid : Nat) : Dev :=
  match d.qf.qs.find qid with
  | none => d
  | some q => match q.openp with
    | none => d
    | some p =>
      let waiting := match d.qf.lanes.find p.req with | some w => w.qid == qid | none => false
      if waiting || decide (d.own < d.qf.prodAt.get qid 0 + d.lockNs) then d
      else match q.reclaimProducer with
        | none => d
        | some (r, n) => (d.applyRes qid r).reclaimed qid 0 p.req n

/-- LOCK_RECLAIM_CONSUMER (R223). -/
def Dev.reclaimCons (d : Dev) (qid : Nat) : Dev :=
  match d.qf.qs.find qid with
  | none => d
  | some q => match q.reading with
    | none => d
    | some x =>
      if d.own < d.qf.consAt.get qid 0 + d.lockNs then d
      else match q.reclaimConsumer with
        | none => d
        | some (r, n) => (d.applyRes qid r).reclaimed qid 1 x.req n

/-- An item whose stored bits are lost: its payload is a free value, ERR is set, the other tag bits are the fabric's own (R229). -/
def spoil (it : Item) (v : Nat) : Item :=
  ((it &&& 0xF000000000000000#64) ||| 0x1000000000000000#64) ||| BitVec.ofNat 64 (v % 2 ^ 60)

/-- The units with item number n spoilt. -/
def spoilAt (v : Nat) : List QUnit → Nat → List QUnit
  | [], _ => []
  | u :: r, n =>
    if u.size ≤ n then u :: spoilAt v r (n - u.size)
    else (match u with
      | .pkt h l => if n = 0 then .pkt (spoil h v) l else .pkt h (l.set (n - 1) (spoil (l.getD (n - 1) 0#64) v))
      | .one a => .one (spoil a v)
      | .ev a b => if n = 0 then .ev (spoil a v) b else .ev a (spoil b v)) :: r

/-- QF_ECC_UNCORRECTABLE (R229): a stored item, or the descriptor state of a queue, cannot be corrected. -/
def Dev.qfEcc (d : Dev) (qid pos : Nat) (descriptor : Bool) : Dev :=
  match d.qf.qs.find qid with
  | none => d
  | some q =>
    if descriptor then
      ({ d with qf := { d.qf with qs := d.qf.qs.ins qid q.metaLost } }.set1 Reg.QF_ERR_META).raise Ev.QF_ECC qid 2
    else
      let (d, v) := d.fresh
      ({ d with qf := { d.qf with qs := d.qf.qs.ins qid { q with units := spoilAt v q.units pos } } }.set1 Reg.QF_ERR_ECC_UNCORR).raise Ev.QF_ECC qid 1

/-! ### Status registers (R220, R221) -/

/-- A read of `QF_QSTAT`: the word, with `QF_QWM` latched for the requester. -/
def Dev.qstatRead (d : Dev) (req qid : Nat) : Dev × Nat :=
  match d.qf.qs.find qid with
  | none => (d, 0)
  | some q => (d.setRq req { d.rq req with qwm := some (qid, q.qwm) }, q.qstat)

/-- A read of `QF_QWM`. -/
def Dev.qwmRead (d : Dev) (req qid : Nat) : Nat :=
  match d.qf.qs.find qid with
  | none => 0
  | some q => match (d.rq req).qwm with
    | some (k, w) => if k = qid then w else q.qwm
    | none => q.qwm

/-- A write of `QF_QSTAT`: clears `WM_EVT` with `CROSS` and `PEAK`, and `LOSS`; refused from the open realm for a protected queue. -/
def Dev.qstatWrite (d : Dev) (req qid : Nat) (wm loss : Bool) : Dev × Nat :=
  match d.qf.qs.find qid with
  | none => (d, 0)
  | some q =>
    if q.qd.prot && !d.reqProt req && (wm || loss) then (d.refuse req (0x1000000 + 8 * qid) true 0x23, 0x23)
    else
      let q := if wm then { q with wmEvt := false, cross := 0, peak := min q.level 65535 } else q
      let q := if loss then { q with loss := false } else q
      ({ d with qf := { d.qf with qs := d.qf.qs.ins qid q } }, 0)

/-- The HEAD command bit of a pushed value (Table 8.3). -/
def withHead (v : Item) : Item := v ||| 0x4000000000000000#64
def noHead (v : Item) : Item := v &&& 0xBFFFFFFFFFFFFFFF#64

end Sys2Proof.Machine
end

