-- ==== Sys2Proof/Machine/Host.lean ====
section
/-!
DEFINITION. Machine/Host.lean: PCIe (R407), MSI-X vectors (R408), CWP sessions as state (R414), and the key store (R420).
-/
namespace Sys2Proof.Machine

/-! ### Sessions (R414) -/

/-- Closes a session: 2 closed, 3 idle timeout, 4 key changed. Its requester's copies are cleared. -/
def Dev.closeSession (d : Dev) (s why : Nat) : Dev :=
  match d.host.sess.find s with
  | none => d
  | some _ =>
    let d := { d with host := { d.host with sess := d.host.sess.del s } }
    let d := if s < 32 then d.wr Reg.GLB_CWP_SESS_LO_OPEN (setBit (d.rd Reg.GLB_CWP_SESS_LO_OPEN) s false)
      else d.wr Reg.GLB_CWP_SESS_HI_OPEN (setBit (d.rd Reg.GLB_CWP_SESS_HI_OPEN) (s - 32) false)
    (d.setRq (0x40 + s) {}).raise Ev.GLB_SESSION s (why + b2n (decide (48 ≤ s)) * 16)

/-- `GLB_CWP_CTRL.IDLE` in ns: 0 is taken as 1, and above 3,600 as 3,600. -/
def Dev.idleNs (d : Dev) : Nat := min 3600 (max 1 (d.rd Reg.GLB_CWP_CTRL_IDLE)) * oneSec

/-- CWP_IDLE_TIMEOUT. -/
def Dev.sessionIdle (d : Dev) (s : Nat) : Dev :=
  match d.host.sess.find s with
  | none => d
  | some x => if x.at_ + d.idleNs ≤ d.own then d.closeSession s 3 else d

/-! ### PCIe (R407) -/

/-- PCIE_LINK_CHANGE. -/
def Dev.pcieLink (d : Dev) (up : Bool) (speed width bme0 bme1 : Nat) : Dev :=
  let sp := if up then speed else 0
  let wd := if up then width else 0
  let was := d.on Reg.GLB_PCIE_STAT_LINK
  let d := ((d.wr Reg.GLB_PCIE_STAT_LINK (b2n up)).wr Reg.GLB_PCIE_STAT_SPEED sp).wr Reg.GLB_PCIE_STAT_WIDTH wd
  let d := (d.wr Reg.GLB_PCIE_STAT_F0_BME (if up then bme0 else 0)).wr Reg.GLB_PCIE_STAT_F1_BME (if up then bme1 else 0)
  if was == up then d else d.raise Ev.GLB_PCIE_LINK 0 (b2n up + sp * 2 + wd * 8)

/-- PCIE_FLR: clears what the device keeps for the requester of a function, and disarms its vectors. -/
def Dev.pcieFlr (d : Dev) (f : Nat) : Dev :=
  let d := d.setRq (1 + f) {}
  let d := (List.range 64).foldl (fun (d : Dev) n => if d.rd Reg.GLB_MSIX_MAP_FUNC n = f then d.clr Reg.GLB_MSIX_ARM_ARM n else d) d
  (d.bump Reg.GLB_PCIE_STAT_FLR).raise Ev.GLB_PCIE_FLR f 0

/-! ### MSI-X (R408) -/

/-- Whether the condition of a vector holds. -/
def Dev.msixCond (d : Dev) (n : Nat) : Bool :=
  match d.qf.qs.find (d.rd Reg.GLB_MSIX_MAP_QID n) with
  | none => false
  | some q => match d.rd Reg.GLB_MSIX_MAP_COND n with
    | 1 => q.readable
    | 2 => q.wmEvt
    | 3 => q.loss
    | _ => false

/-- Fires an armed vector whose condition holds; a masked entry holds its message as pending. A pending message goes once its entry is unmasked. -/
def Dev.msixFire (d : Dev) (n : Nat) (masked : Bool) : Dev :=
  let f := d.rd Reg.GLB_MSIX_MAP_FUNC n
  let k := 64 * f + n
  let d := if d.on Reg.GLB_MSIX_ARM_ARM n && d.msixCond n then
      let d := (d.set1 Reg.GLB_MSIX_ARM_FIRED n).clr Reg.GLB_MSIX_ARM_ARM n
      { d with host := { d.host with pend := d.host.pend.filter (fun x => x != k) ++ [k] } }
    else d
  if d.host.pend.contains k && !masked then
    { d with host := { d.host with pend := d.host.pend.filter (fun x => x != k) } }.emit (.msix f n)
  else d

/-- Whether an open-realm write to a vector's map is refused (R408). -/
def Dev.msixDenied (d : Dev) (req n v : Nat) : Bool :=
  !d.reqProt req && (bitAt v 20 || d.rd Reg.GLB_MSIX_MAP_FUNC n == 1
    || (match d.qf.qs.find (v % 2 ^ 20) with | some q => q.qd.prot && !q.qd.openRead | none => false))

/-! ### The key store (R420) -/

/-- Whether an entry is enrolled. -/
def Dev.enrolled (d : Dev) (e : Nat) : Bool := (d.host.keys.find e).isSome

/-- `GLB_KEY_MAP` from the entries held. -/
def Dev.showKeys (d : Dev) : Dev :=
  d.wr2 Reg.GLB_KEY_MAP_LO_ENROLLED Reg.GLB_KEY_MAP_HI_ENROLLED (sumN ((List.range 64).map (fun e => if d.enrolled e then 2 ^ e else 0)))

/-- The end of a key request with its result. -/
def Dev.keyEnd (d : Dev) (e op result : Nat) : Dev :=
  let d := ((d.clr Reg.GLB_KEY_STAT_BUSY).wr Reg.GLB_KEY_STAT_RESULT result)
  let d := (List.range 8).foldl (fun (d : Dev) k => d.wr Reg.GLB_KEY_DATA_KEY 0 k) d
  { d with host := { d.host with keyReq := none } }.raise Ev.GLB_KEY e (op + result * 16)

/-- A `GO` of `GLB_KEY_CTRL`: 0 enrol, 1 erase; ignored while `BUSY`. -/
def Dev.keyGo (d : Dev) (e op : Nat) : Dev :=
  if d.on Reg.GLB_KEY_STAT_BUSY then d
  else if d.mode ≠ .dark ∧ d.mode ≠ .quiet ∧ d.mode ≠ .run then d.keyEnd e op 1
  else { (d.set1 Reg.GLB_KEY_STAT_BUSY) with host := { d.host with keyReq := some (e, op) } }

/-- KEY_STORE_DONE: both copies are stored and read back, or the store fails. -/
def Dev.keyDone (d : Dev) (ok : Bool) : Dev :=
  match d.host.keyReq with
  | none => d
  | some (e, op) =>
    if !ok then d.keyEnd e op 2
    else
      let key := (List.range 8).flatMap (fun k => toLe (d.rd Reg.GLB_KEY_DATA_KEY k) 4)
      let d := { d with host := { d.host with keys := if op = 1 then d.host.keys.del e else d.host.keys.ins e key } }
      let d := (d.showKeys.keyEnd e op 0)
      let d := (d.host.sess.filter (fun x => x.2.key == e)).foldl (fun (d : Dev) x => d.closeSession x.1 4) d
      d.netKey e (op == 1)

end Sys2Proof.Machine
end

