-- ==== Sys2Proof/Machine/Tag.lean ====
section
/-!
DEFINITION. Machine/Tag.lean: the service tag (R486 to R490): its memory of two copies a page, the RF commands with the air-interface states, the RF
write sequence, device commits and their contention, and the pages that PST generates.
-/
namespace Sys2Proof.Machine

/-! ### Memory -/

/-- An empty page. -/
def blankPage : List Byte := List.replicate 512 0#8

/-- The committed copy of a page (R487). -/
def Tag.page (g : Tag) (p : Nat) : List Byte := g.committed.get p blankPage

/-- The shadow copy of a page. -/
def Tag.shade (g : Tag) (p : Nat) : List Byte := g.shadow.get p blankPage

/-- Switches the commit pointer of a page: the shadow becomes the committed copy (R487). -/
def Tag.swap (g : Tag) (p : Nat) : Tag :=
  { g with committed := g.committed.set p (g.shade p) blankPage, shadow := g.shadow.set p (g.page p) blankPage }

/-- Puts bytes into a string at an offset. -/
def putBytes (b : List Byte) (o : Nat) (v : List Byte) : List Byte := b.take o ++ v ++ b.drop (o + v.length)

/-- A page with the header of Table 19.5. -/
def withHeader (p gen sec : Nat) (b : List Byte) : List Byte :=
  let h := toLe 0x4754 2 ++ [BitVec.ofNat 8 p, 1#8] ++ toLe gen 4 ++ toLe sec 4
  h ++ toLe (crc32c (h ++ b.drop 16)) 4 ++ b.drop 16

/-- Changes the tag. -/
def Dev.setTag (d : Dev) (g : Tag) : Dev := { d with pst := { d.pst with tag := g } }

/-! ### Pages that PST generates (R489) -/

/-- A text as bytes. -/
def ascii (s : String) : List Byte := s.toList.map (fun c => BitVec.ofNat 8 c.toNat)

/-- A number in hexadecimal digits. -/
def hexDigits : Nat → Nat → List Byte
  | 0, _ => []
  | n + 1, x => hexDigits n (x / 16) ++ [BitVec.ofNat 8 (if x % 16 < 10 then 48 + x % 16 else 55 + x % 16)]

/-- A number in decimal digits. -/
def decDigits (x : Nat) : List Byte := ascii (toString x)

/-- The name of a device state. -/
def DevState.text : DevState → String
  | .off => "OFF" | .standby => "STANDBY" | .watch => "WATCH" | .boot => "BOOT" | .dark => "DARK" | .quiet => "QUIET" | .run => "RUN"
  | .wrap => "WRAP" | .halt => "HALT"

/-- The NDEF area (Table 19.6, pages 0 and 1). The wording of the text record is the model's choice (assumption log 41). -/
def Dev.tagNdef (d : Dev) : List Byte :=
  let cc : List Byte := [0xE2, 0x43, 0x00, 0x01, 0x00, 0x00, 0x00, 0x7F]
  let text := ascii "HSC5128 " ++ hexDigits 16 Config.tagUid.toNat ++ ascii " " ++ ascii d.mode.text ++ ascii " "
    ++ decDigits (d.rd Reg.SIN_STATUS_ROLE) ++ ascii " " ++ decDigits (d.now / 1000000000)
  let pay := [0x02#8] ++ ascii "en" ++ text
  let rec_ : List Byte := [0xD1, 0x01, BitVec.ofNat 8 pay.length, 0x54] ++ pay
  padTo (cc ++ [0x03, BitVec.ofNat 8 rec_.length] ++ rec_ ++ [0xFE]) 1024

/-- The identity page (page 2). The order of its words is the model's choice (assumption log 41). -/
def Dev.tagIdentity (d : Dev) : List Byte :=
  toLe (d.word 0).toNat 4 ++ toLe (d.rd2 Reg.GLB_UID_LO_UID Reg.GLB_UID_HI_UID) 8 ++ toLe (d.rd Reg.GLB_STATUS_DEV_ADDR) 4 ++ toLe d.rl.pairId 4
    ++ toLe d.rl.imageId 8 ++ ((List.range 2).map (fun k => toLe (d.rd Reg.IMG_SLOT_INFO_SEC_VER k) 4 ++ toLe (d.rd Reg.IMG_SLOT_CLASS_CONT_CLASS k) 4)).flatten
    ++ toLe (d.word 0x100A0).toNat 4

/-- The strings with a latched cause. -/
def Dev.latchedStrings (d : Dev) : List Nat := d.rl.allStrings.filter (fun s => d.rd Reg.TRW_STR_CAUSE_CAUSES s != 0)

/-- The status page (page 3). The order of its words is the model's choice (assumption log 41). -/
def Dev.tagStatus (d : Dev) : List Byte :=
  toLe d.mode.stateCode 4 ++ toLe (d.rd Reg.SIN_STATUS_ROLE) 4 ++ toLe (d.rd Reg.SIN_EPOCH_EPOCH) 4 ++ toLe (d.word 0x20000).toNat 4
    ++ toLe d.latchedStrings.length 4 ++ ((List.range 8).map (fun k => toLe (sumN (d.latchedStrings.map (fun s => if s / 32 = k then 2 ^ (s % 32) else 0))) 4)).flatten
    ++ toLe (d.pst.sev.get 3 0) 4 ++ toLe (d.pst.sev.get 4 0) 4 ++ toLe (d.pst.sev.get 5 0) 4

/-- An entry of the string summary (pages 4 to 12). -/
def Dev.tagString (d : Dev) (s : Nat) : List Byte :=
  let flags := b2n (d.rd Reg.TRW_STR_STAT_CONTACT s % 4 == 3) + 2 * b2n (d.rd Reg.TRW_STR_CAUSE_CAUSES s != 0)
    + 4 * b2n (decide (d.rd Reg.EST_STR_FLAGS_FACTOR s < 0x8000)) + 8 * b2n ((d.trw.strs.get s {}).due)
  toLe s 2 ++ toLe flags 2 ++ toLe (d.rd Reg.TRW_STR_CAUSE_CAUSES s) 2 ++ toLe (d.rd Reg.EST_STR_SOC_SOC_MIN s) 2
    ++ toLe (d.rd Reg.EST_STR_SOC_SOC_MAX s) 2 ++ toLe (min (d.rd Reg.TRW_STR_TEST_AGE s / 86400) 65535) 2 ++ toLe 0 4

/-- The watch page (page 20). The order of its words is the model's choice (assumption log 41). -/
def Dev.tagWatch (d : Dev) : List Byte :=
  toLe (d.wch.daily.getD 0) 8 ++ ((List.range 8).map (fun c => toLe (d.rd Reg.WCH_ADC_FILT c) 2)).flatten
    ++ ((List.range 4).map (fun n => toLe (d.rd Reg.WCH_TONE_TONE n) 4)).flatten
    ++ ((List.range 16).map (fun r => [BitVec.ofNat 8 (d.rd Reg.WCH_RULE_COUNT r)])).flatten
    ++ toLe (sumN ((List.range 16).map (fun r => d.rd Reg.WCH_RULE_FIRED r * 2 ^ r))) 4 ++ toLe (d.word 0x40004).toNat 4

/-- The body of a generated page: the 512 bytes before its header is put in. -/
def Dev.tagBody (d : Dev) (p : Nat) : List Byte :=
  if p < 2 then slice d.tagNdef (512 * p) 512
  else
    let b := if p = 2 then d.tagIdentity else if p = 3 then d.tagStatus
      else if p ≤ 12 then ((List.range 31).map (fun i => let s := 31 * (p - 4) + i
        if s < 256 then d.tagString s else [])).flatten
      else if p ≤ 19 then ((d.pst.tag.ring.drop (31 * (p - 13))).take 31).flatten
      else d.tagWatch
    padTo (List.replicate 16 0#8 ++ b) 512

/-- PST writes a generated page into its shadow and asks for its commit. -/
def Dev.tagPut (d : Dev) (p : Nat) : Dev :=
  let g := d.pst.tag
  d.setTag { g with shadow := g.shadow.set p (d.tagBody p) blankPage, pend := g.pend.ins p (d.own, false) }

/-- TAG_REFRESH (R489): PST rewrites pages 0 to 20 on its period and on the events that ask for it. -/
def Dev.tagRefresh (d : Dev) : Dev :=
  let g := d.pst.tag
  if d.mainOn && (g.dirty || decide (g.lastRefresh + max (d.rd Reg.PST_TAG_CTRL_PERIOD) 1 * oneSec ≤ d.own)) then
    let d := (List.range 21).foldl Dev.tagPut d
    d.setTag { d.pst.tag with dirty := false, lastRefresh := d.own }
  else d

/-! ### Device commits (R487, R490) -/

/-- Ends a host commit with a status of Table 19.7. -/
def Dev.tagEnd (d : Dev) (st : Nat) : Dev := (d.wr Reg.PST_TAG_STAT_STATUS st).clr Reg.PST_TAG_STAT_PENDING

/-- The device seconds that a page header carries: RTC time for page 20 (Table 19.5). -/
def Dev.tagSec (d : Dev) (p : Nat) : Nat := (if p = 20 then d.rtcNow else d.now) / 1000000000

/-- Commits the shadow of a page. -/
def Dev.tagCommitPage (d : Dev) (p : Nat) : Dev :=
  let g := d.pst.tag
  let gen := g.gens.get p 0 + 1
  let b := if 2 ≤ p ∧ p ≤ 29 then withHeader p gen (d.tagSec p) (g.shade p)
    else if p < 2 then g.shade p else (g.page p).take 16 ++ (g.shade p).drop 16
  d.setTag ({ g with shadow := g.shadow.set p b blankPage, gens := g.gens.ins p gen, pend := g.pend.del p }.swap p)

/-- TAG_COMMIT (R487): a waiting commit takes place, or has found its page in use by RF commands for 25 ms and fails. -/
def Dev.tagCommit (d : Dev) (p : Nat) (busy : Bool) : Dev :=
  match d.pst.tag.pend.find p with
  | none => d
  | some (at_, host) =>
    if d.own < at_ then d
    else if !busy then
      let d := d.tagCommitPage p
      if host then d.tagEnd 0 else d
    else if d.own < at_ + 25000000 then d
    else
      let g := d.pst.tag
      let d := d.setTag { g with pend := if host then g.pend.del p else g.pend.ins p (d.own + oneSec, false) }
      let d := if host then d.tagEnd 1 else d
      d.raiseHeld Ev.PST_TAG_BUSY p oneSec p (fun _ => b2n host)

/-- PST_TAG_COMMIT (R490): the host asks for the commit of the selected page. -/
def Dev.tagHost (d : Dev) : Dev :=
  let p := d.rd Reg.PST_TAG_CTRL_PAGE
  if d.on Reg.PST_TAG_STAT_PENDING then d.wr Reg.PST_TAG_STAT_STATUS 4
  else if p ≤ 20 then d.wr Reg.PST_TAG_STAT_STATUS 3
  else if 30 ≤ p ∧ d.pst.tag.rfOpen then d.wr Reg.PST_TAG_STAT_STATUS 2
  else (d.setTag { d.pst.tag with pend := d.pst.tag.pend.ins p (d.own, true) }).set1 Reg.PST_TAG_STAT_PENDING

/-- A word of `PST_TAG_SHADOW`, whose bytes 0 to 15 read 0 (Table 19.11). -/
def Dev.tagShadowRead (d : Dev) (k : Nat) : Nat :=
  if k < 4 then 0 else le (d.pst.tag.shade (d.rd Reg.PST_TAG_CTRL_PAGE)) (4 * k) 4

/-- A write of a word of `PST_TAG_SHADOW`; bytes 0 to 15 ignore writes. -/
def Dev.tagShadowWrite (d : Dev) (k : Nat) (v : Nat) : Dev :=
  let p := d.rd Reg.PST_TAG_CTRL_PAGE
  if k < 4 then d else d.setTag { d.pst.tag with shadow := d.pst.tag.shadow.set p (putBytes (d.pst.tag.shade p) (4 * k) (toLe v 4)) blankPage }

/-- A word of `PST_TAG_COMMITTED`. -/
def Dev.tagCommittedRead (d : Dev) (k : Nat) : Nat := le (d.pst.tag.page (d.rd Reg.PST_TAG_CTRL_PAGE)) (4 * k) 4

/-! ### The RF side (R486, R488) -/

/-- An error answer: error flag, code. -/
def tagError (code : Nat) : List Byte := [0x01, BitVec.ofNat 8 code]

/-- Whether a command is for this tag (ISO/IEC 15693): addressed commands by UID, selected-mode commands while selected, others unless quiet. -/
def Tag.listens (g : Tag) (uid : Option Nat) (sel : Bool) : Bool :=
  match uid with
  | some u => u == Config.tagUid.toNat
  | none => if sel then g.selected else !g.quietSt

/-- An RF command arrives: the field is present, and the 10 s of the write sequence start again. -/
def Dev.rfHeard (d : Dev) : Dev :=
  (d.setTag { d.pst.tag with field := true, lastRf := d.own }).set1 Reg.PST_STATUS_TAG_FIELD

/-- The bytes of n blocks of the committed copies from a block on (R487). -/
def Tag.blocks (g : Tag) (b n : Nat) : List Byte :=
  ((List.range n).map (fun i => slice (g.page ((b + i) / 128)) (4 * ((b + i) % 128)) 4)).flatten

/-- TAG_RF_READ (R486, R487): Read Single Block (0x20), Read Multiple Blocks (0x23) and their extended forms (0x30, 0x33). -/
def Dev.tagRead (d : Dev) (cmd : Nat) (uid : Option Nat) (sel : Bool) (block n : Nat) : Dev :=
  let d := d.rfHeard
  if !d.pst.tag.listens uid sel then d
  else
    let b := if cmd = 0x20 ∨ cmd = 0x23 then block % 256 else block % 65536
    let n := if cmd = 0x20 ∨ cmd = 0x30 then 1 else n
    if cmd != 0x20 && cmd != 0x23 && cmd != 0x30 && cmd != 0x33 then d.emit (.tag (tagError 0x01))
    else if 64 < n ∨ 4096 < b + n then d.emit (.tag (tagError 0x10))
    else d.emit (.tag ([0x00#8] ++ d.pst.tag.blocks b n))

/-- Ends the RF write sequence (R488). -/
def Dev.rfEnd (d : Dev) : Dev :=
  let g := d.pst.tag
  if g.rfOpen then
    let d := (d.setTag { g with rfOpen := false, rfBlocks := 0, rfPages := [] }).clr Reg.PST_STATUS_TAG_RFW
    if 0 < g.rfBlocks ∧ d.mode ≠ .off ∧ d.mode ≠ .standby then d.raise Ev.PST_TAG_NOTE (minN g.rfPages 30) (min g.rfBlocks 4095) else d
  else d

/-- Opens the RF write sequence: device commits to pages 30 and 31 that wait are discarded (R488). -/
def Dev.rfBegin (d : Dev) : Dev :=
  if d.pst.tag.rfOpen then d
  else
    let g := d.pst.tag
    let waits := g.pend.any (fun x => decide (30 ≤ x.1))
    let d := (d.setTag { g with rfOpen := true, rfBlocks := 0, rfPages := [], pend := (g.pend.del 30).del 31 }).set1 Reg.PST_STATUS_TAG_RFW
    if waits then d.tagEnd 2 else d

/-- TAG_RF_WRITE (R488): Write Single Block (0x21) and its extended form (0x31). A write outside pages 30 and 31 is answered with 0x12. -/
def Dev.tagWrite (d : Dev) (cmd : Nat) (uid : Option Nat) (sel : Bool) (block : Nat) (data : List Byte) : Dev :=
  let d := d.rfHeard
  if !d.pst.tag.listens uid sel then d
  else
    let b := if cmd = 0x21 then block % 256 else block % 65536
    let p := b / 128
    if cmd != 0x21 && cmd != 0x31 then d.emit (.tag (tagError 0x01))
    else if p ≠ 30 ∧ p ≠ 31 then d.emit (.tag (tagError 0x12))
    else
      let d := d.rfBegin
      let g := d.pst.tag
      let g := { g with shadow := g.shadow.set p (putBytes (g.page p) (4 * (b % 128)) (padTo data 4)) blankPage, gens := g.gens.ins p (g.gens.get p 0 + 1), rfBlocks := g.rfBlocks + 1, rfPages := (p :: g.rfPages).dedup }
      (d.setTag (g.swap p)).emit (.tag [0x00#8])

/-- TAG_RF_COMMAND (R486): Inventory (0x01), Stay Quiet (0x02), Select (0x25), Reset to Ready (0x26), Get System Information (0x2B), its extended form
(0x3B), and every other command, which is answered with error 0x01. -/
def Dev.tagOther (d : Dev) (cmd : Nat) (uid : Option Nat) (sel : Bool) (maskLen mask : Nat) : Dev :=
  let d := d.rfHeard
  let g := d.pst.tag
  let me := Config.tagUid.toNat
  let idBytes := toLe me 8
  if cmd = 0x01 then
    if g.quietSt ∨ bitsOf me 0 maskLen ≠ mask then d else d.emit (.tag ([0x00, 0x00] ++ idBytes))
  else if cmd = 0x02 then (if uid = some me then d.setTag { g with quietSt := true, selected := false } else d)
  else if cmd = 0x25 then
    (if uid = some me then (d.setTag { g with quietSt := false, selected := true }).emit (.tag [0x00])
    else d.setTag { g with selected := false })
  else if !g.listens uid sel then d
  else if cmd = 0x26 then (d.setTag { g with quietSt := false, selected := false }).emit (.tag [0x00])
  else if cmd = 0x2B then d.emit (.tag ([0x00, 0x00] ++ idBytes))
  else if cmd = 0x3B then d.emit (.tag ([0x00, 0x04] ++ idBytes ++ toLe 4095 2 ++ [0x03]))
  else d.emit (.tag (tagError 0x01))

/-- TAG_FIELD_LOSS (R488): the tag loses its supply from the field, and its air interface starts afresh. -/
def Dev.tagFieldLoss (d : Dev) : Dev :=
  (d.setTag { d.pst.tag with field := false, quietSt := false, selected := false }).rfEnd.clr Reg.PST_STATUS_TAG_FIELD

/-- TAG_RF_IDLE (R488): 10 s without an RF command. -/
def Dev.tagIdle (d : Dev) : Dev := if d.pst.tag.lastRf + 10 * oneSec ≤ d.own then d.rfEnd else d

end Sys2Proof.Machine
end

