-- ==== Sys2Proof/Machine/Wch.lean ====
section
/-!
DEFINITION. Machine/Wch.lean: the watch island (R471 to R478): wake sources and `MAIN_EN_N`, Dailies, the auxiliary ADC filters, tone detectors, decision
rules, the watch log's transfer to the black box, the RTC.
-/
namespace Sys2Proof.Machine

/-- Changes the watch island. -/
def Dev.setWch (d : Dev) (w : Wch) : Dev := { d with wch := w }

/-! ### Wake (R472) -/

/-- A wake source acts: its bit of `WCH_WAKE_CAUSE` is set and `MAIN_EN_N` asserted. -/
def Dev.wake (d : Dev) (bit : Nat) : Dev :=
  let d := (d.setWord 0x40004 (d.word 0x40004 ||| BitVec.ofNat 32 (2 ^ bit))).set1 Reg.WCH_STATUS_MAIN_REQ
  { d with pins := { d.pins with mainEnN := false }, wch := { d.wch with wakePend := true } }

/-- Whether a wake source acts in the present mode (R472). -/
def Dev.sleeping (d : Dev) : Bool := d.mode == .standby || d.mode == .watch

/-- Releases `MAIN_EN_N`. -/
def Dev.wakeRelease (d : Dev) : Dev :=
  let d := d.clr Reg.WCH_STATUS_MAIN_REQ
  { d with pins := { d.pins with mainEnN := true } }

/-! ### Configuration (Table 3.17) -/

/-- The `WATCH` type 1 record in force. -/
def Dev.wchRec (d : Dev) : Option Rec := d.wch.cfg.find? (fun r => r.typ == 1)

/-- The Daily interval in seconds: 3,600 without a `WATCH` section (R82, R473). -/
def Dev.dailyInt (d : Dev) : Nat := match d.wchRec with
  | some r => max (r.u32 8) 1
  | none => 3600

/-- Whether the tone detector of a port is enabled. -/
def Dev.toneOn (d : Dev) (port : Nat) : Bool := match d.wchRec with
  | some r => bitAt (le r.b 12 16) port
  | none => false

/-- The record of a decision rule. -/
def Dev.wchRule (d : Dev) (r : Nat) : Option Rec := d.wch.cfg.find? (fun x => x.typ == 2 && x.u8 8 == r)

/-- Takes the `WATCH` section of a structure that is built: the registers that show it, rules whose record changes start again, channels newly enabled
start their filter (R474). -/
def Dev.wchBuild (d : Dev) : Dev :=
  let old := d
  let cfg := d.rl.sel secWatch 1 ++ d.rl.sel secWatch 2
  let d := d.setWch { d.wch with cfg := cfg }
  let en := match d.wchRec with
    | some r => r.u8 28
    | none => 0
  let was := d.rd Reg.WCH_ADC_CFG_ADC_EN
  let d := (d.wr Reg.WCH_ADC_CFG_ADC_EN en).wr Reg.WCH_DAILY_INT_INTERVAL d.dailyInt
  let d := d.setWch { d.wch with y := d.wch.y.filter (fun x => bitAt en x.1 && bitAt was x.1) }
  (List.range 16).foldl (fun (d : Dev) r =>
    let d := match d.wchRule r with
      | some x => (d.set1 Reg.WCH_RULE_DEFINED r).wr Reg.WCH_RULE_ACTION (x.u8 16) r
      | none => (d.clr Reg.WCH_RULE_DEFINED r).clr Reg.WCH_RULE_ACTION r
    if d.wchRule r = old.wchRule r then d
    else ((d.clr Reg.WCH_RULE_COUNT r).clr Reg.WCH_RULE_TRUE r).setWch { d.wch with seen := d.wch.seen.filter (fun k => k != r) }) d

/-! ### Decision rules (R476) -/

/-- The input value of a rule; none when its input can never be true. -/
def Dev.ruleValue (d : Dev) (r : Nat) (x : Rec) : Option Nat :=
  let inp := x.u8 9
  if inp < 8 then (if bitAt (d.rd Reg.WCH_ADC_CFG_ADC_EN) inp then some (d.rd Reg.WCH_ADC_FILT inp) else none)
  else if inp = 0x10 then some (if d.wch.seen.contains r then 4095 else 0)
  else if 0x20 ≤ inp ∧ inp ≤ 0x23 then some (if d.wch.seen.contains r || bitAt d.wch.pins (inp - 0x20) then 4095 else 0)
  else none

/-- The condition of a rule on its input value. -/
def ruleHolds (x : Rec) (v : Nat) : Bool :=
  if x.u8 10 = 0 then decide (x.u16 12 < v)
  else if x.u8 10 = 1 then decide (v < x.u16 12)
  else if x.u8 10 = 2 then decide (v < x.u16 12) || decide (x.u16 14 < v)
  else false

/-- A further record of a rule's firing in the black box, or in the watch log while the main dies are off (R476, action bit 1). -/
def Dev.ruleRecord (d : Dev) (r data : Nat) : Dev :=
  let seq := (d.evSeq.get 15 0 + 255) % 256
  if d.mainOn then
    match d.bbPut 1 (eventItems (ts32 d.now) Ev.WCH_RULE (d.subRealm 15) seq r data) (d.bbContext 15) with
    | some d => d
    | none => { (d.bump Reg.PST_BB_DROPPED_CNT) with pst := { d.pst with bbLost := d.pst.bbLost + 1 } }
  else
    let ev := eventItems (ts32 d.rtcNow) Ev.WCH_RULE (d.subRealm 15) seq r data
    (({ d with pst := { d.pst with bbNext := d.pst.bbNext + 1 } }).logPut
      { kind := 3, seq := d.pst.bbNext, time := d.rtcNow, ev0 := ev.1, ev1 := ev.2, context := [] }).1

/-- A rule fires: its event and its actions. -/
def Dev.ruleFire (d : Dev) (r : Nat) (x : Rec) (v : Nat) : Dev :=
  let act := x.u8 16 % 8
  let data := v % 4096 + act * 2 ^ 16
  let d := (d.set1 Reg.WCH_RULE_FIRED r).raise Ev.WCH_RULE r data
  let d := if bitAt act 0 && d.mode == .watch then d.wake 5 else d
  let d := if bitAt act 1 then d.ruleRecord r data else d
  if bitAt act 2 then d.tagPut 20 else d

/-- Evaluates a rule. -/
def Dev.ruleEval (d : Dev) (r : Nat) : Dev :=
  match d.wchRule r with
  | none => d
  | some x =>
    let v := d.ruleValue r x
    let holds : Bool := match v with
      | some n => ruleHolds x n
      | none => false
    let old := d.rd Reg.WCH_RULE_COUNT r
    let new := if holds then min 255 (old + 1) else 0
    let d := (d.wr Reg.WCH_RULE_COUNT new r).wr Reg.WCH_RULE_TRUE (b2n holds) r
    let d := d.setWch { d.wch with seen := d.wch.seen.filter (fun k => k != r) }
    if holds && decide (old < x.u8 11) && decide (x.u8 11 ≤ new) then d.ruleFire r x (v.getD 0) else d

/-- The rules of an input, ascending. -/
def Dev.rulesOf (d : Dev) (inp : Nat) : List Nat :=
  (List.range 16).filter (fun r => match d.wchRule r with
    | some x => x.u8 9 == inp
    | none => false)

/-- An input becomes active: its rules see it and are evaluated at once. -/
def Dev.ruleSeen (d : Dev) (inp : Nat) : Dev :=
  let rs := d.rulesOf inp
  let d := d.setWch { d.wch with seen := (d.wch.seen ++ rs).dedup }
  rs.foldl Dev.ruleEval d

/-! ### Tones, pins, alarm -/

/-- A tone is seen on a port while its tone detection is LNK's (R475): the tone rules are evaluated. -/
def Dev.toneSeen (d : Dev) (port : Nat) : Dev := if d.mainOn && d.toneOn port then d.ruleSeen 0x10 else d

/-- TONE_DETECT (R475): in WATCH the detector of an enabled port latches a tone. -/
def Dev.toneDetect (d : Dev) (port : Nat) : Dev :=
  if d.mode == .watch && d.toneOn port && !bitAt (d.rd Reg.WCH_TONE_TONE (port / 32)) (port % 32) then
    (d.wr Reg.WCH_TONE_TONE (d.rd Reg.WCH_TONE_TONE (port / 32) + 2 ^ (port % 32)) (port / 32)).ruleSeen 0x10
  else d

/-- What `WCH_TONE` shows (R475): its latches in WATCH, the tone bits of the masked ports in the main-die states. -/
def Dev.toneWord (d : Dev) (n : Nat) : Nat :=
  if d.mainOn then sumN ((List.range 32).map (fun b =>
    if d.toneOn (32 * n + b) && d.on Reg.LNK_PORT_STAT_TONE (32 * n + b) then 2 ^ b else 0))
  else d.rd Reg.WCH_TONE_TONE n

/-- WAKE_PIN (R472, R476): a wake pin has been active for `DEB` ms. -/
def Dev.wakePin (d : Dev) (k : Nat) : Dev :=
  if d.mode == .off then d
  else
    let d := d.setWch { d.wch with pins := setBit d.wch.pins k true }
    let d := if d.sleeping && bitAt (d.rd Reg.WCH_WAKE_CFG_EN) k then d.wake k else d
    if d.mode == .standby then d else d.ruleSeen (0x20 + k)

/-- RTC_ALARM (R472): the RTC seconds equal `WCH_ALARM` while the alarm is enabled. -/
def Dev.rtcAlarm (d : Dev) : Dev :=
  if d.sleeping && d.on Reg.WCH_ALARM_CTRL_EN && d.rtcNow / 1000000000 % 2 ^ 32 == d.rd Reg.WCH_ALARM_SEC then
    (d.clr Reg.WCH_ALARM_CTRL_EN).wake 4
  else d

/-- VBAT_LOW (R471). -/
def Dev.vbatLow (d : Dev) : Dev :=
  if d.mode == .off || d.on Reg.WCH_STATUS_VBAT_LOW then d
  else (d.set1 Reg.WCH_STATUS_VBAT_LOW).raise Ev.WCH_VBAT_LOW 0 0

/-! ### Dailies (R473, R474) -/

/-- A channel's 16 conversions: their mean x and its filter. -/
def Dev.adcDaily (d : Dev) (c : Nat) (conv : List Nat) : Dev :=
  let x := rhu (sumN conv : Nat) (max conv.length 1)
  let y := match d.wch.y.find c with
    | none => 256 * x
    | some y => y + rhu (256 * x - y) (2 ^ d.rd Reg.WCH_ADC_CFG_SHIFT)
  let d := d.setWch { d.wch with y := d.wch.y.ins c y }
  (d.wr Reg.WCH_ADC_RAW x.toNat c).wr Reg.WCH_ADC_FILT (clampS 13 (rhu y 256)).toNat c

/-- The RTC correction from the sensors of the watch die (R478). -/
def Dev.rtcCompensate (d : Dev) (t30 t31 : Int) : Dev :=
  d.setWch { d.wch with corr := Config.rtcCorrection (rhu (t30 + t31) 2), corrAt := d.own }

/-- DAILY (R473): the RTC has reached a Daily instant. `adc` gives the 16 conversions of each channel, `pins` the levels of `WAKE`, `t30` and `t31` the codes
of the watch die's sensors. -/
def Dev.dailyRun (d : Dev) (adc : List (List Nat)) (pins : Nat) (t30 t31 : Int) : Dev :=
  let inst := d.rtcNow / 1000000000 / d.dailyInt * d.dailyInt
  if d.mode == .off || d.mode == .standby || d.wch.daily == some inst then d
  else
    let d := d.setWch { d.wch with daily := some inst }
    if d.own < d.wch.busy then d.bump Reg.WCH_DAILY_CNT_SKIPPED
    else
      let (d, n) := d.fresh
      let d := (d.setWch { d.wch with busy := d.own + n % 5000001 }).bump Reg.WCH_DAILY_CNT_RUNS
      let d := (setBits (d.rd Reg.WCH_ADC_CFG_ADC_EN) 8).foldl (fun (d : Dev) c => d.adcDaily c (adc.getD c [])) d
      let d := d.setWch { d.wch with pins := (pins ^^^ d.rd Reg.WCH_WAKE_CFG_POL) % 16 }
      let d := if d.mode == .watch then (List.range 4).foldl (fun (d : Dev) k => d.wr Reg.WCH_TONE_TONE 0 k) d else d
      let d := (List.range 16).foldl Dev.ruleEval d
      if d.mode == .watch then d.rtcCompensate t30 t31 else d

/-- RTC_COMPENSATION (R478): in WATCH, every 60 s when the Daily interval is longer. -/
def Dev.rtcComp (d : Dev) (t30 t31 : Int) : Dev :=
  if d.mode == .watch && decide (60 < d.dailyInt) && decide (d.wch.corrAt + oneMin ≤ d.own) then d.rtcCompensate t30 t31 else d

/-! ### The RTC and the log at BOOT (R152, R477, R478) -/

/-- TB writes device time to the RTC. -/
def Dev.rtcWrite (d : Dev) : Dev :=
  (d.setWch { d.wch with rtc := d.now, rtcAt := d.own, rtcSet := some d.own }).set1 Reg.WCH_STATUS_RTC_VALID

/-- RTC_UPDATE (R152): once a second while `TIME_VALID` is set. -/
def Dev.rtcUpdate (d : Dev) : Dev :=
  let due : Bool := match d.wch.rtcSet with
    | some a => decide (a + oneSec ≤ d.own)
    | none => true
  if d.mainOn && d.on Reg.TB_STATUS_TIME_VALID && due then d.rtcWrite else d

/-- The RTC restarts at 0 (R478). -/
def Dev.rtcRestart (d : Dev) : Dev :=
  (d.setWch { d.wch with rtc := 0, rtcAt := d.own, rtcSet := none, daily := none, rtcLost := true }).clr Reg.WCH_STATUS_RTC_VALID

/-- At BOOT, PST appends the watch-log records it does not hold to the black box, and empties the log of those written in WATCH (R477). -/
def Dev.logTransfer (d : Dev) : Dev :=
  let d := d.wch.log.foldl (fun (d : Dev) (r : BbRec) =>
    if d.pst.bb.any (fun x => x.seq == r.seq) || d.pst.bbBuf.any (fun x => x.seq == r.seq) then d
    else
      let code_ := bitsOf r.ev0.toNat 12 16
      let sev := bitsOf r.ev0.toNat 9 3
      let data := bitsOf r.ev1.toNat 0 40
      let g := d.pst.tag
      let ent := toLe code_ 2 ++ [BitVec.ofNat 8 sev, 0#8] ++ toLe (r.time / 1000000000) 4 ++ toLe (bitsOf r.ev1.toNat 40 20) 4 ++ toLe data 4
      let d := if r.kind == 3 && decide (2 ≤ sev) then d.setTag { g with ring := (g.ring ++ [ent]).drop (g.ring.length + 1 - 217) } else d
      if d.pst.bbBuf.length < 4096 then { d with pst := { d.pst with bbBuf := d.pst.bbBuf ++ [r] } }
      else { (d.bump Reg.PST_BB_DROPPED_CNT) with pst := { d.pst with bbLost := d.pst.bbLost + 1 } }) d
  let d := d.setWch { d.wch with log := d.wch.log.filter (fun r => r.kind != 3) }
  d.wr Reg.WCH_LOG_COUNT d.wch.log.length

/-- The watch island's part of the first entry to QUIET after a wake (R472). -/
def Dev.wakeReport (d : Dev) : Dev :=
  if d.wch.wakePend then (d.setWch { d.wch with wakePend := false }).raise Ev.WCH_WAKE 0 (bitsOf (d.word 0x40004).toNat 0 7) else d

end Sys2Proof.Machine
end

