-- ==== Sys2Proof/Machine/Swp.lean ====
section
/-!
DEFINITION. Machine/Swp.lean: the cell sweep unit (chapter 7). Filters and settling (R176 to R181), the sample streams (R182, R183), STATUS and the
views (R184 to R187), open-wire Takes (R188 to R192), temperature cross-checks (R194), balancing (R196 to R201), the content of a Take (R173, R174)
and the Slate itself (R150, R163, R164).
-/
namespace Sys2Proof.Machine

/-! ### Filters -/

/-- b0 and a1 of R176 and S of Table 7.2 for entry 6 × `RATE` + `CORNER`; zeros for a pair not permitted. -/
def filtTable : List (Int × Int × Nat) :=
  [(972188, -489275943, 60), (3586083, -442236671, 30), (18107387, -306816492, 12), (0, 0, 0), (0, 0, 0), (0, 0, 0),
   (253589, -513033056, 120), (972188, -489275943, 60), (5391087, -419032599, 24), (18107387, -306816492, 12), (0, 0, 0), (0, 0, 0),
   (64789, -524946537, 240), (253589, -513033056, 120), (1487862, -477447832, 48), (5391087, -419032599, 24), (18107387, -306816492, 12), (0, 0, 0),
   (16376, -530908017, 480), (64789, -524946537, 240), (392001, -507083456, 96), (1487862, -477447832, 48), (5391087, -419032599, 24),
   (18107387, -306816492, 12)]

/-- The five coefficients b0, b1, b2, a1, a2 and S of an entry (R176). -/
def filtCoef (e : Nat) : List Int × Nat :=
  let (b0, a1, s) := filtTable.getD e (0, 0, 0)
  if s = 0 then ([0, 0, 0, 0, 0], 0) else ([b0, 2 * b0, b0, a1, 4 * b0 - 2 ^ 28 - a1], s)

/-- One filter iteration for input code x (R177): the filter after it, and whether a result was saturated. -/
def Filt.iterate (f : Filt) (e : Nat) (lo hi x : Int) : Filt × Bool :=
  let c := (filtCoef e).1
  let u0 := x * 256
  let acc := c.getD 0 0 * u0 + c.getD 1 0 * f.u1 + c.getD 2 0 * f.u2 - c.getD 3 0 * f.y1 - c.getD 4 0 * f.y2
  let (y0, s1) := satS 32 (rhu acc (2 ^ 28))
  let (o, s2) := satTo lo hi (rhu y0 256)
  ({ f with u2 := f.u1, u1 := u0, y2 := f.y1, y1 := y0, out := o }, s1 || s2)

/-- The reset of a filter on an input (R180). -/
def Filt.reset (f : Filt) (e : Nat) (x : Int) : Filt :=
  { f with u1 := x * 256, u2 := x * 256, y1 := x * 256, y2 := x * 256, out := x, due := none, settle := (filtCoef e).2 }

/-- Whether a reset is due on an input of a Take (R180). -/
def Filt.dueAt (f : Filt) (take : Nat) : Bool := match f.due with
  | some t => decide ((take + 2 ^ 32 - t) % 2 ^ 32 < 2 ^ 31)
  | none => false

/-- One Take of a cell channel (R178, R180): input code and whether it is `STALE`. Answers the filter, the code and the flags `SETTLING` and `STALE` of the
output item, and saturation. -/
def Filt.cell (f : Filt) (e take : Nat) (x : Int) (stale : Bool) : Filt × Int × Bool × Bool × Bool :=
  let f := if stale then f else { f with valid := true }
  if !f.valid then (f, x, false, true, false)
  else
    let f := if f.dueAt take then f.reset e x else f
    let (f, sat) := if stale then (f, false) else f.iterate e 0 65535 x
    if 0 < f.settle then ({ f with settle := f.settle - 1 }, x, true, stale, sat)
    else (f, f.out, false, stale, sat)

/-- n iterations of a temperature filter on its held input (R179). -/
def Filt.coast (f : Filt) (e : Nat) : Nat → Filt × Bool
  | 0 => (f, false)
  | n + 1 =>
    let (f, s) := f.iterate e (-32768) 32767 f.held
    let (f, s') := Filt.coast f e n
    (f, s || s')

/-- One polled Take of a temperature channel (R179, R180): the filter iterates for the Takes since the last poll on the held code, then on the new one. -/
def Filt.temp (f : Filt) (e take : Nat) (x : Int) (stale : Bool) : Filt × Int × Bool × Bool × Bool :=
  let gap := (take + 2 ^ 32 - f.take) % 2 ^ 32
  let f := if stale then f else { f with valid := true }
  if !f.valid then ({ f with take := take }, x, false, true, false)
  else if f.dueAt take then
    let f := { (f.reset e x) with held := x, stop := stale, take := take }
    if 0 < f.settle then ({ f with settle := f.settle - 1 }, x, true, stale, false) else (f, f.out, false, stale, false)
  else
    let n := min (gap - 1) 64
    let left := f.settle - (gap - 1)
    let (f, s1) := if f.stop then (f, false) else f.coast e n
    let (f, s2) := if stale then ({ f with stop := true }, false)
      else (let (g, s) := f.iterate e (-32768) 32767 x; ({ g with held := x, stop := false }, s))
    let f := { f with take := take, settle := left }
    if 0 < left then ({ f with settle := left - 1 }, x, true, stale, s1 || s2)
    else (f, f.out, false, stale, s1 || s2)

/-- Sets a filter's sticky `SAT` and raises `EV_SWP_FILTER_SAT` on its 0 to 1 transition (R36, R177). -/
def Dev.filterSat (d : Dev) (ring slot : Nat) (temp : Bool) : Dev :=
  if d.on Reg.SWP_RING_ARITH_SAT ring then d
  else (d.set1 Reg.SWP_RING_ARITH_SAT ring).raise Ev.SWP_FILTER_SAT ring (slot + b2n temp * 2 ^ 16)

def Dev.filt (d : Dev) (ch : Nat) : Filt := d.swp.filt.get ch {}
def Dev.tfilt (d : Dev) (ch : Nat) : Filt := d.swp.tfilt.get ch {}
def Dev.setFilt (d : Dev) (ch : Nat) (f : Filt) : Dev := { d with swp := { d.swp with filt := d.swp.filt.set ch f {} } }
def Dev.setTfilt (d : Dev) (ch : Nat) (f : Filt) : Dev := { d with swp := { d.swp with tfilt := d.swp.tfilt.set ch f {} } }

/-- Marks filters of channels of a ring for reset (R180): every channel, or those of one node; the event counts once in `RESETS`. -/
def Dev.dueReset (d : Dev) (ring addr take : Nat) : Dev :=
  let ns := (d.rl.cellNodes ring).filter (fun n => addr == 0 || n.ndAddr == addr)
  let d := ns.foldl (fun (d : Dev) n =>
    let d := n.cellSlots.foldl (fun (d : Dev) s => let c := 2048 * ring + s; d.setFilt c { d.filt c with due := some take }) d
    n.tempSlots.foldl (fun (d : Dev) s => let c := 1024 * ring + s; d.setTfilt c { d.tfilt c with due := some take }) d) d
  d.bump Reg.SWP_RING_SETTLE_RESETS 1 ring

/-- Recomputes `LEFT` of a ring (Table 7.19). -/
def Dev.settleLeft (d : Dev) (ring : Nat) : Dev :=
  let l := (d.swp.filt.filter (fun x => x.1 / 2048 == ring)).map (fun x => x.2.settle)
    ++ (d.swp.tfilt.filter (fun x => x.1 / 1024 == ring)).map (fun x => x.2.settle)
  d.wr Reg.SWP_RING_SETTLE_LEFT (min (maxN l 0) 65535) ring

/-! ### Sample packets -/

/-- The Take of a ring whose Slate has a given ts32: its number. -/
def Dev.takeAt (d : Dev) (ring ts : Nat) : Nat :=
  let r := d.lr ring
  match r.cur, r.prev with
  | some (p, c), some (p', c') => if ts32 (c * 125000) = ts then p.take else if ts32 (c' * 125000) = ts then p'.take else p.take
  | some (p, _), none => p.take
  | none, _ => d.rd Reg.LNK_RING_TAKE_TAKE ring

/-- Whether a node's frame of a Take goes to the Rushes stream (R183). -/
def Dev.rushed (d : Dev) (ring addr take : Nat) (temp : Bool) : Bool :=
  d.on (if temp then Reg.SWP_RUSH_CTRL_EN_TEMP else Reg.SWP_RUSH_CTRL_EN_CELL) ring
    && decide (d.rd Reg.SWP_RUSH_CTRL_FIRST_ADDR ring ≤ addr) && decide (addr ≤ d.rd Reg.SWP_RUSH_CTRL_LAST_ADDR ring)
    && take % (d.rd Reg.SWP_RUSH_CTRL_DECIM ring + 1) == 0

/-- Flags of an output item: bits 10 to 5 of its input, with `STALE` and `SETTLING` as SWP sets them (R43, R46). -/
def outFlags (fl : Nat) (stale settling : Bool) : Nat := setBit (setBit fl 8 stale) 11 settling

/-- A packet of cell voltages (stream 0). -/
def Dev.swpCells (d : Dev) (ring addr : Nat) (head : Item) (items : List Item) : Dev :=
  match d.rl.node ring addr with
  | none => d
  | some n =>
    let chs := setBits n.ndCellMask 16
    let ts0 := itemBits (items.getD 0 0) 28 32
    let slate := (ts0 + 2 ^ 32 - 4000 * chs.getD 0 0) % 2 ^ 32
    let take := d.takeAt ring slate
    let d := if d.rushed ring addr take false then d.produce (0x3000 + ring) 2 (.pkt head items) else d
    let sn := d.sn ring addr
    let raw := items.map (fun it => ((itemBits it 12 16 : Int), itemBits it 0 12))
    let inMeas := d.swp.quiet && (match (d.lr ring).takeOf (d.cyc) with
      | some (_, c) => decide (d.swp.planAt ≤ c * 125000 + 10000000) && decide (c * 125000 + (d.rl.cpt ring) * 125000 ≤ d.swp.planAt)
      | none => false)
    let d := d.setSn ring addr { sn with raws := ((take, raw) :: sn.raws).take 4, meas := if inMeas then raw else sn.meas }
    let (d, outs) := (chs.zip items).foldl (fun (a : Dev × List Item) x =>
      let slot := n.ndCellBase + x.1
      let fl := itemBits x.2 0 12
      let e := 6 * d.rl.rate ring + d.rl.corner ring 0 slot
      let c := 2048 * ring + slot
      let (f, v, settling, stale, sat) := (a.1.filt c).cell e take (itemBits x.2 12 16) (bitAt fl 8)
      let d := a.1.setFilt c f
      let d := if sat then d.filterSat ring slot false else d
      (d, a.2 ++ [mkItem (itemBits x.2 28 32 * 2 ^ 28 + code 16 v * 2 ^ 12 + outFlags fl stale settling)])) (d, [])
    (d.settleLeft ring).produce (0x3000 + ring) 0 (.pkt head outs)

/-- The cross-check of one temperature input at a poll of its node (R194); `x` is the output just written. -/
def Dev.crossCheck (d : Dev) (ring : Nat) (n : Rec) (j : Nat) (x : Int) : Dev :=
  let lim := (d.rl.takeRec ring).u16 18
  if lim = 0 ∨ !d.on Reg.SWP_CTRL_XCHK_EN then d
  else
    let addr := n.ndAddr
    let cand : List (Rec × Nat) := (if j = 0 then [] else [(n, j - 1)]) ++ [(n, j + 1)]
      ++ ((d.rl.cellNodes ring).filter (fun m => m.ndString == n.ndString && (m.ndAddr + 1 == addr || m.ndAddr == addr + 1))).map (fun m => (m, j))
    let ok := cand.filterMap (fun (m, k) =>
      let f := d.tfilt (1024 * ring + m.ndTempBase + k)
      if k < 8 && bitAt m.ndTempMask k && f.valid && !bitAt f.oflags 8 && !bitAt f.oflags 6
        && !bitAt (d.rd Reg.SWP_NODE_DIAG_TEMP_EXCL ring m.ndAddr) k && d.nodeState ring m.ndAddr == 0
      then some (if 0 < f.settle then f.held else f.out) else none)
    if ok.length < 2 then d
    else
      let dev := (x - median ok).natAbs
      let ch := 1024 * ring + n.ndTempBase + j
      let f := d.tfilt ch
      let ex := d.rd Reg.SWP_NODE_DIAG_TEMP_EXCL ring addr
      let slate := d.slateAt ring
      if bitAt ex j then
        let g := if dev ≤ lim then f.good + 1 else 0
        if g ≥ 16 then
          let d := (d.setTfilt ch { f with good := 0, bad := 0 }).wr Reg.SWP_NODE_DIAG_TEMP_EXCL (setBit ex j false) ring addr
          (d.raise Ev.SWP_TEMP_RESTORED (nodeInst ring addr) j).produce (0x3000 + ring) 4 (swpRecord slate ring addr 5 (j * 128))
        else d.setTfilt ch { f with good := g }
      else
        let b := if lim < dev then f.bad + 1 else 0
        if b ≥ 3 then
          let d := (d.setTfilt ch { f with good := 0, bad := 0 }).wr Reg.SWP_NODE_DIAG_TEMP_EXCL (setBit ex j true) ring addr
          (d.raise Ev.SWP_TEMP_EXCLUDED (nodeInst ring addr) (j + min dev 65535 * 2 ^ 16)).produce (0x3000 + ring) 4
            (swpRecord slate ring addr 4 (j * 128))
        else d.setTfilt ch { f with bad := b }

/-- A packet of temperatures (stream 1). -/
def Dev.swpTemps (d : Dev) (ring addr : Nat) (head : Item) (items : List Item) : Dev :=
  match d.rl.node ring addr with
  | none => d
  | some n =>
    let ins := setBits n.ndTempMask 8
    let ts0 := itemBits (items.getD 0 0) 28 32
    let slate := (ts0 + 2 ^ 32 - 4000 * (16 + ins.getD 0 0)) % 2 ^ 32
    let take := d.takeAt ring slate
    let d := if d.rushed ring addr take true then d.produce (0x3000 + ring) 2 (.pkt head items) else d
    let (d, outs) := (ins.zip items).foldl (fun (a : Dev × List (Nat × Int × Item)) x =>
      let slot := n.ndTempBase + x.1
      let fl := itemBits x.2 0 12
      let e := 6 * d.rl.rate ring + d.rl.corner ring 1 slot
      let c := 1024 * ring + slot
      let (f, v, settling, stale, sat) := (a.1.tfilt c).temp e take (sx 16 (itemBits x.2 12 16)) (bitAt fl 8)
      let ofl := outFlags fl stale settling
      let d := a.1.setTfilt c { f with oflags := ofl }
      let d := if sat then d.filterSat ring slot true else d
      (d, a.2 ++ [(x.1, v, mkItem (itemBits x.2 28 32 * 2 ^ 28 + code 16 v * 2 ^ 12 + ofl))])) (d, [])
    let d := (d.settleLeft ring).produce (0x3000 + ring) 1 (.pkt head (outs.map (fun o => o.2.2)))
    outs.foldl (fun (d : Dev) o => d.crossCheck ring n o.1 o.2.1) d

/-- A STATUS record (stream 4): the management view, and the comparison of the views at the poll (R184 to R186). -/
def Dev.swpStatus (d : Dev) (ring : Nat) (items : List Item) : Dev :=
  let addr := itemBits (items.getD 0 0) 0 7
  let mst := itemBits (items.getD 1 0) 0 8
  if (d.rl.node ring addr).isNone then d
  else
    let n := d.sn ring addr
    let d := d.setSn ring addr { n with missed := 0 }
    let (d, m) := d.ownReport ring addr mst 1
    let d := d.updMgmt ring addr (max m (if n.estOn then 2 else 0))
    d.comparePoll ring addr

/-- A packet of currents (stream 2), kept for the balancing plan (R197). -/
def Dev.swpCurrents (d : Dev) (ring addr : Nat) (items : List Item) : Dev :=
  match d.rl.node ring addr with
  | none => d
  | some n =>
    let inMeas := d.swp.quiet && (match (d.lr ring).takeOf (d.cyc) with
      | some (_, c) => decide (d.swp.planAt ≤ c * 125000 + 10000000) && decide (c * 125000 + (d.rl.cpt ring) * 125000 ≤ d.swp.planAt)
      | none => false)
    if inMeas then
      { d with swp := { d.swp with measCur := d.swp.measCur.ins n.ndString (items.map (fun it => (sx 24 (itemBits it 4 24), itemBits it 0 4))) } }
    else d

/-- SWP_SAMPLE_PACKET (R177): SWP takes the next packet from one of its input queues. A packet whose head carries ERR is discarded (R40). -/
def Dev.swpPacket (d : Dev) (ring qid : Nat) : Dev :=
  match d.qf.qs.find qid with
  | none => d
  | some q =>
    if q.qd.consumer ≠ 0x3000 + ring ∨ d.blocked (0x3000 + ring) then d
    else match d.take qid with
      | (d, some (.pkt h items)) =>
        if itemErr h then d
        else
          let addr := itemBits h 28 7
          let is := fun s => (d.rl.routes (0x1000 + ring) s).contains qid
          if is 0 then d.swpCells ring addr h items
          else if is 1 then d.swpTemps ring addr h items
          else if is 4 then d.swpStatus ring items
          else if is 2 then d.swpCurrents ring addr items
          else d
      | (d, _) => d

/-! ### Open-wire Takes -/

/-- The used taps of a node as a mask: bit j is tap j + 1. -/
def usedTaps (n : Rec) : Nat := n.ndCellMask

/-- The result for one tap in an open-wire Take (R190, R191). -/
def Dev.tapResult (d : Dev) (ring : Nat) (n : Rec) (j : Nat) (ref ow : Nat → Option (Int × Nat)) : Dev :=
  let addr := n.ndAddr
  let inst := nodeInst ring addr
  let tap := j + 1
  let th : Int := 10 * (d.rl.takeRec ring).u16 14
  let confirmN := (d.rl.takeRec ring).u8 16
  let slate := d.slateAt ring
  match ref j, ow j with
  | some (r, rf), some (v, vf) =>
    if bitAt rf 8 || bitAt rf 9 || bitAt vf 8 || bitAt vf 9 then d.bump Reg.SWP_RING_OWCNT_INCONC 1 ring
    else
      let drop := r - v
      let sn := d.sn ring addr
      let sus := d.rd Reg.SWP_NODE_OW_SUSPECT ring addr
      let con := d.rd Reg.SWP_NODE_OW_CONFIRMED ring addr
      if th < drop then
        let att := match ref (j + 1), ow (j + 1) with
          | some (r', _), some (v', _) => decide (th / 2 < v' - r')
          | _, _ => false
        let c := sn.owCnt.get tap 0 + 1
        let d := d.setSn ring addr { sn with owCnt := sn.owCnt.ins tap c, owAttr := setBit sn.owAttr tap att }
        let data := tap + b2n att * 32 + min drop.toNat 65535 * 2 ^ 16
        let d := if c = 1 ∧ !bitAt con j then
            ((d.wr Reg.SWP_NODE_OW_SUSPECT (setBit sus j true) ring addr).raise Ev.SWP_OW_SUSPECT inst data).produce (0x3000 + ring) 4
              (swpRecord slate ring addr 1 (tap * 128 + b2n att * 64))
          else d
        if c ≥ confirmN ∧ !bitAt con j then
          ((d.wr Reg.SWP_NODE_OW_CONFIRMED (setBit con j true) ring addr).raise Ev.SWP_OW_CONFIRMED inst data).produce (0x3000 + ring) 4
            (swpRecord slate ring addr 2 (tap * 128 + b2n att * 64))
        else d
      else
        let d := d.setSn ring addr { sn with owCnt := sn.owCnt.del tap }
        if bitAt sus j && !bitAt con j then
          ((d.wr Reg.SWP_NODE_OW_SUSPECT (setBit sus j false) ring addr).raise Ev.SWP_OW_CLEARED inst tap).produce (0x3000 + ring) 4
            (swpRecord slate ring addr 3 (tap * 128))
        else d
  | _, _ => d.bump Reg.SWP_RING_OWCNT_INCONC 1 ring

/-- OPEN_WIRE_EVALUATE (R190): the tested nodes of an open-wire Take whose data are complete. -/
def Dev.owEvaluate (d : Dev) (ring take : Nat) : Dev :=
  ((d.rl.cellNodes ring).filter (fun n => (d.sn ring n.ndAddr).tested.contains take && d.nodeState ring n.ndAddr == 0)).foldl (fun (d : Dev) n =>
    let addr := n.ndAddr
    let sn := d.sn ring addr
    let chs := setBits n.ndCellMask 16
    let rawOf := fun (l : List (Int × Nat)) (j : Nat) => ((chs.zip l).find? (fun x => x.1 == j)).map (fun x => x.2)
    let ow := match sn.raws.find? (fun x => x.1 == take) with
      | some x => rawOf x.2
      | none => fun _ => none
    let ref := match sn.raws.find? (fun x => !sn.tested.contains x.1 && decide ((take + 2 ^ 32 - x.1) % 2 ^ 32 < 2 ^ 31)) with
      | some x => rawOf x.2
      | none => fun _ => none
    let d := chs.foldl (fun (d : Dev) j => d.tapResult ring n j ref ow) d
    let sn := d.sn ring addr
    let open_ := d.rd Reg.SWP_NODE_OW_SUSPECT ring addr &&& (65535 - d.rd Reg.SWP_NODE_OW_CONFIRMED ring addr)
    let d := d.setSn ring addr { sn with follow := if open_ = 0 then none else some ((take + 2) % 2 ^ 32) }
    let d := d.wr Reg.SWP_NODE_DIAG_FOLLOW_UP (b2n (open_ != 0)) ring addr
    d.wr Reg.SWP_NODE_DIAG_OW_COUNT (min (maxN (sn.owCnt.map (fun x => x.2)) 0) 15) ring addr) d

/-- A write of `SWP_OW_CLEAR` (R192): confirmed taps return to suspect with count 0. -/
def Dev.owClear (d : Dev) (ring addr mask : Nat) : Dev :=
  let con := d.rd Reg.SWP_NODE_OW_CONFIRMED ring addr
  let hit := con &&& mask
  let sn := d.sn ring addr
  let d := d.wr Reg.SWP_NODE_OW_CONFIRMED (con - hit) ring addr
  d.setSn ring addr { sn with owCnt := (setBits hit 16).foldl (fun (t : Tbl Nat) j => t.del (j + 1)) sn.owCnt }

/-! ### Balancing -/

/-- The containers: number, first string, count, pool (Table 3.17). -/
def Dev.containers (d : Dev) : List (Nat × Nat × Nat × Nat) :=
  (d.recs secGaf 3).map (fun x => (x.u8 8, x.u16 10, x.u16 12, x.u16 14))

/-- Whether a ring can balance (R196): its current stream reaches SWP, and open-wire Takes leave room. -/
def Dev.balOn (d : Dev) (ring : Nat) : Bool :=
  let tk := d.rl.takeRec ring
  (d.rl.routes (0x1000 + ring) 2).any (fun q => match d.qf.qs.find q with
    | some x => x.qd.consumer == 0x3000 + ring
    | none => false) && (tk.u8 11 % 2 == 0 || decide (3 < tk.u16 12))

/-- The plan instant at or after a device time, in seconds (R196). -/
def Dev.nextPlan (d : Dev) (t : Nat) : Nat :=
  let p := max 1 (d.rd Reg.SWP_BAL_PERIOD_PERIOD)
  (t + p * 1000000000 - 1) / (p * 1000000000) * p

/-- BAL_QUIET (R196): from 20 ms before a plan instant every switch opens for the measurement. -/
def Dev.balQuiet (d : Dev) : Dev :=
  let p := d.nextPlan d.now * 1000000000
  if d.now + 20000000 < p ∨ p ≤ d.now then d else { d with swp := { d.swp with quiet := true, planAt := p, measCur := [] } }

/-- Measurement items of a string that meet the first two conditions of R197: device channel and code. -/
def Dev.balItems (d : Dev) (ring str : Nat) : List (Nat × Nat) :=
  ((d.rl.cellNodesOf str).filter (fun n => d.nodeState ring n.ndAddr == 0)).flatMap (fun n =>
    ((n.cellSlots.zip (d.sn ring n.ndAddr).meas).filter (fun x => !(bitAt x.2.2 10 || bitAt x.2.2 8 || bitAt x.2.2 7 || bitAt x.2.2 6))).map
      (fun x => (2048 * ring + x.1, x.2.1.toNat)))

/-- The power in mW of a closed switch of a channel at a code (R198); with `R_BAL` 0, outside the field's range, a free value. -/
def Dev.balPower (d : Dev) (c v : Nat) : Nat :=
  let r := d.rd Reg.SWP_BAL_CFG_R_BAL
  if r = 0 then (Config.freeValue (d.free + c)).toNat else (rhu (v * v : Nat) (100 * r)).toNat

/-- The candidates of a string: device channel, v − v_min, power in mW (R197, R198). -/
def Dev.candidates (d : Dev) (str : Nat) : List (Nat × Nat × Nat) :=
  match d.rl.ringOf str with
  | none => []
  | some ring =>
    let cur := d.swp.measCur.get str []
    let curOk := cur.length == 16 && cur.all (fun x => !bitAt x.2 3 && decide (x.1.natAbs ≤ 100 * d.rd Reg.SWP_BAL_LIM_BAL_I_MAX))
    if !d.balOn ring || !curOk then []
    else
      let l := d.balItems ring str
      let vmin := minN (l.map (fun x => x.2)) 0
      (l.filter (fun x => decide (d.rd Reg.SWP_BAL_LIM_BAL_V_MIN ≤ x.2) && decide (d.rd Reg.SWP_BAL_CFG_BAL_DV < x.2 - vmin))).map (fun x =>
        (x.1, x.2 - vmin, d.balPower x.1 x.2))

/-- Cells in order while their power fits the pool (R198): the plan, its power, the number not served. -/
def fitPool (pool : Nat) : Nat → List (Nat × Nat × Nat) → List (Nat × Nat) × Nat × Nat
  | sum, [] => ([], sum, 0)
  | sum, (c, _, p) :: r =>
    if pool < sum + p then ([], sum, r.length + 1)
    else
      let (l, s, k) := fitPool pool (sum + p) r
      ((c, p) :: l, s, k)

/-- Reports a container's plan (Table 7.15). -/
def Dev.reportPlan (d : Dev) (c pool : Nat) (cells : List (Nat × Nat)) : Dev :=
  ((d.wr Reg.SWP_CONT_GRANT_POOL_W pool c).wr Reg.SWP_CONT_GRANT_CELLS (min cells.length 65535) c).wr Reg.SWP_CONT_PLAN_PLAN_MW
    (sumN (cells.map (fun x => x.2))) c

/-- Whether a plan instant lies less than 1 ms back. -/
def Dev.atPlan (d : Dev) : Bool :=
  decide (d.now % 1000000000 < 1000000) && d.now / 1000000000 % max 1 (d.rd Reg.SWP_BAL_PERIOD_PERIOD) == 0

/-- BAL_PLAN (R196, R198), at a plan instant. -/
def Dev.balPlan (d : Dev) : Dev :=
  if !d.atPlan then d
  else
  let d := d.rl.rings.foldl (fun (d : Dev) g => d.wr Reg.SWP_RING_STAT_BAL_ON (b2n (d.balOn g)) g) d
  if !d.on Reg.SWP_CTRL_BAL_EN || !(d.mode == .run) then { d with swp := { d.swp with plans := [] } }
  else d.containers.foldl (fun (d : Dev) (c, first, count, _) =>
    let pool := d.rd Reg.GAF_HEAT_POOL_GRANTED c
    let cand := (List.range count).flatMap (fun k => d.candidates (first + k))
    let cand := sortBy (fun a b => decide (b.2.1 < a.2.1) || (a.2.1 == b.2.1 && decide (a.1 ≤ b.1))) cand
    let (plan, _, left) := fitPool (1000 * pool) 0 cand
    let d := { d with swp := { d.swp with plans := d.swp.plans.ins c { cells := plan } } }
    let d := d.reportPlan c pool plan
    if left = 0 then d else d.raise Ev.SWP_BAL_LIMITED c (min left 65535 + pool * 2 ^ 16)) d |> fun (d : Dev) =>
      if d.rd Reg.SWP_BAL_CFG_R_BAL = 0 then { d with free := d.free + 131072 } else d

/-- BAL_CLOSE (R199): planned switches close from each ring's next Slate. -/
def Dev.balClose (d : Dev) : Dev := if d.now < d.swp.planAt + 1000000 then d else { d with swp := { d.swp with quiet := false } }

/-- A fall of a container's granted pool during a period (R200): cells leave the end of the plan until the planned power fits. -/
def Dev.balFit (d : Dev) (c : Nat) : Dev :=
  let pool := d.rd Reg.GAF_HEAT_POOL_GRANTED c
  match d.swp.plans.find c with
  | none => d
  | some p =>
    let (cells, _, cut) := fitPool (1000 * pool) 0 (p.cells.map (fun x => (x.1, 0, x.2)))
    if cut = 0 then d
    else
      let d := { d with swp := { d.swp with plans := d.swp.plans.ins c { cells := cells } } }
      (d.reportPlan c pool cells).raise Ev.SWP_BAL_CUT c (min cut 65535 + pool * 2 ^ 16)

/-- Removes cells from every plan (R201). -/
def Dev.unplan (d : Dev) (bad : Nat → Bool) : Dev :=
  { d with swp := { d.swp with plans := d.swp.plans.map (fun p => (p.1, { cells := p.2.cells.filter (fun x => !bad x.1) })) } }

/-! ### The content of a Take, and the Slate -/

/-- Whether a node is tested in a Take that is already decided: a ring open-wire Take, or its follow-up (R188). -/
def Dev.testedIn (d : Dev) (ring addr take : Nat) : Bool :=
  let tk := d.rl.takeRec ring
  (tk.u8 11 % 2 == 1 && take % tk.u16 12 == 0) || (d.sn ring addr).follow == some take || (d.sn ring addr).tested.contains take

/-- The switches a node is to have closed in a Take (R189, R199, R201). -/
def Dev.balMask (d : Dev) (ring : Nat) (n : Rec) (take : Nat) : Nat :=
  if d.swp.quiet || !d.on Reg.SWP_CTRL_BAL_EN || !(d.mode == .run) || d.nodeState ring n.ndAddr ≠ 0
    || d.testedIn ring n.ndAddr take || d.testedIn ring n.ndAddr ((take + 1) % 2 ^ 32) || d.testedIn ring n.ndAddr ((take + 2 ^ 32 - 1) % 2 ^ 32) then 0
  else sumN (((d.swp.plans.flatMap (fun p => p.2.cells)).filter (fun x => x.1 / 2048 == ring && decide (n.ndCellBase ≤ x.1 % 2048)
    && decide (x.1 % 2048 < n.ndCellBase + 16))).map (fun x => 2 ^ (x.1 % 2048 - n.ndCellBase)))

/-- Fixes the content of the Take whose Slate is the boundary of cycle k (R150, R164, R173, R174, R188, R199); a Take under a new schedule starts with a re-sync
Slate (Table 4.5). -/
def Dev.fixPlan (d0 : Dev) (ring k : Nat) : Dev :=
  let reel0 := d0.reel
  let nt := (d0.lr ring).newTake
  let d := match nt with
    | some x => { d0.setLr ring { d0.lr ring with resync := true } with reel := some (d0.rl.withTake x) }
    | none => d0
  let r := d.lr ring
  let rl := d.rl
  let take := if r.counted then (d.rd Reg.LNK_RING_TAKE_TAKE ring + 1) % 2 ^ 32 else (k - rl.phase ring) / rl.cpt ring % 2 ^ 32
  let nodes := rl.ringNodes ring
  let first := if r.counted then max 1 (d.rd Reg.SWP_RING_POLL_NEXT_FIRST ring) else 1
  let count := min 11 (nodes + 1 - first)
  let (resync, rs, admits) := if r.resync then (true, 0, r.toAdmit) else match r.toAdmit with
    | a :: _ => (true, a, [a])
    | [] => (false, 0, [])
  let tk := rl.takeRec ring
  let owAll := tk.u8 11 % 2 == 1 && take % tk.u16 12 == 0
  let fol := ((rl.cellNodes ring).filter (fun n => (d.sn ring n.ndAddr).follow == some take)).map Rec.ndAddr
  let old := fun (t : Nat) => decide (2 ≤ (take + 2 ^ 32 - t) % 2 ^ 32) && decide ((take + 2 ^ 32 - t) % 2 ^ 32 < 2 ^ 31)
  let bad := (rl.cellNodes ring).flatMap (fun n =>
    let sn := d.sn ring n.ndAddr
    if d.nodeState ring n.ndAddr ≠ 0 then n.cellSlots.map (fun s => 2048 * ring + s)
    else (sn.raws.filter (fun x => old x.1)).flatMap (fun x => ((n.cellSlots.zip x.2).filter (fun y =>
      bitAt y.2.2 10 || bitAt y.2.2 8 || bitAt y.2.2 7 || bitAt y.2.2 6)).map (fun y => 2048 * ring + y.1)))
  let d := d.unplan (fun c => bad.contains c)
  let full := takesPerSec (rl.rate ring)
  let bals := (rl.cellNodes ring).filterMap (fun n =>
    let m := d.balMask ring n take
    let was := if d.rd Reg.SWP_NODE_BAL_TAKES_LEFT ring n.ndAddr = 0 then 0 else d.rd Reg.SWP_NODE_BAL_MASK ring n.ndAddr
    if m ≠ was then some (n.ndAddr, m, if m = 0 then 0 else full)
    else if m ≠ 0 ∧ d.rd Reg.SWP_NODE_BAL_TAKES_LEFT ring n.ndAddr ≤ full / 2 then some (n.ndAddr, m, full)
    else none)
  let it := d.rd Reg.SWP_CTRL_OW_ITEST
  let it := if it = 0 then 1 else min it 4
  let diags : List LCmd := (if owAll then [{ typ := 0x1B, dest := 0, pay := toLe 1 1 ++ toLe it 1 ++ toLe 0xFFFF 2 }] else
    fol.map (fun a => { typ := 0x1B, dest := a, pay := toLe 1 1 ++ toLe it 1 ++ toLe (usedTaps (Rec.orEmpty (rl.node ring a))) 2 }))
  let balCmds : List LCmd := bals.map (fun b => { typ := 0x1A, dest := 0, pay := toLe 1 1 ++ toLe b.1 1 ++ toLe b.2.1 2 ++ toLe b.2.2 2 })
  let p : TakePlan := { take := take, resync := resync, rsAddr := rs, pollFirst := first, pollCount := count, admits := admits, bals := bals, owAll := owAll, owNodes := if owAll then [] else fol, newRec := nt }
  let r := d.lr ring
  { d.setLr ring { r with plan := some p, cmds := r.cmds ++ diags ++ balCmds } with reel := reel0 }

/-- What `SWP_RING_STAT` shows of a ring's structure (Table 7.16). -/
def Dev.swpShow (d : Dev) (ring : Nat) : Dev :=
  let d := ((d.wr Reg.SWP_RING_STAT_RATE (d.rl.rate ring) ring).wr Reg.SWP_RING_STAT_PHASE (d.rl.phase ring) ring).wr Reg.SWP_RING_STAT_OW_EN ((d.rl.takeRec ring).u8 11) ring
  (d.wr Reg.SWP_RING_STAT_BAL_ON (b2n (d.balOn ring)) ring).wr Reg.SWP_RING_STAT_POLL_P ((d.rl.ringNodes ring + 10) / 11) ring

/-- The Slate of cycle k on a ring (R150, R163, R164, R173, R180): the Take with the fixed content starts. -/
def Dev.slate (d : Dev) (ring k : Nat) : Dev :=
  match (d.lr ring).plan with
  | none => d
  | some p =>
    let r := d.lr ring
    let d := match p.newRec with
      | some x => ({ d.setLr ring { r with newTake := none, prevTake := some (d.rl.takeRec ring) } with reel := some (d.rl.withTake x) }).swpShow ring
      | none => d.setLr ring { r with prevTake := none }
    let r := d.lr ring
    let d := d.setLr ring { r with prev := r.cur, cur := some (p, k), plan := none, counted := true, resync := if p.resync && p.rsAddr == 0 then false else r.resync }
    let d := d.wr Reg.LNK_RING_TAKE_TAKE p.take ring
    let nodes := d.rl.ringNodes ring
    let nf := if p.pollFirst + p.pollCount > nodes then 1 else p.pollFirst + p.pollCount
    let d := (d.wr Reg.SWP_RING_POLL_NEXT_FIRST nf ring).wr Reg.SWP_RING_POLL_NEXT_COUNT (min 11 (nodes + 1 - nf)) ring
    let d := if p.resync then (d.dueReset ring p.rsAddr p.take).raise Ev.SWP_RESYNC ring p.rsAddr else d
    let d := p.admits.foldl (fun (d : Dev) a => d.admitNode ring a p.take) d
    let d := (d.rl.cellNodes ring).foldl (fun (d : Dev) n =>
      let a := n.ndAddr
      let left := d.rd Reg.SWP_NODE_BAL_TAKES_LEFT ring a
      let d := if left = 0 then d
        else if left = 1 then (d.wr Reg.SWP_NODE_BAL_TAKES_LEFT 0 ring a).wr Reg.SWP_NODE_BAL_MASK 0 ring a
        else d.wr Reg.SWP_NODE_BAL_TAKES_LEFT (left - 1) ring a
      if p.owAll || p.owNodes.contains a then
        let sn := d.sn ring a
        (d.setSn ring a { sn with tested := (p.take :: sn.tested).take 4, follow := if sn.follow = some p.take then none else sn.follow }).wr
          Reg.SWP_NODE_DIAG_FOLLOW_UP 0 ring a
      else d) d
    let d := p.bals.foldl (fun (d : Dev) b => (d.wr Reg.SWP_NODE_BAL_MASK b.2.1 ring b.1).wr Reg.SWP_NODE_BAL_TAKES_LEFT b.2.2 ring b.1) d
    d.bump Reg.SWP_RING_OWCNT_RUNS (if p.owAll then 1 else p.owNodes.length) ring

/-- NODE_WAKE (R202): a tone on a port of an asleep ring in DARK or QUIET. -/
def Dev.nodeWake (d : Dev) (port : Nat) : Dev :=
  let ring := port / 2
  let d := if d.on Reg.LNK_PORT_STAT_TONE port then d else (d.set1 Reg.LNK_PORT_STAT_TONE port).toneSeen port
  if d.rd Reg.LNK_RING_STAT_STATE ring = 3 && (d.mode == .dark || d.mode == .quiet) then
    let d := d.raise Ev.SWP_NODE_WAKE ring (port % 2)
    if d.mode == .quiet then d.enumStart ring else d
  else d

end Sys2Proof.Machine
end

