-- ==== Sys2Proof/Machine/Est.lean ====
section
/-!
DEFINITION. Machine/Est.lean: the state estimator (chapter 9). Inputs and Take closure (R232 to R235), charge counting (R236 to R238), compensated voltage
(R239), factors, anchors and capacity (R241 to R243), state of charge and headroom (R244 to R247), derate requests (R248, R249), impedance (R250 to
R254), persistence and restore (R256 to R259), channel commands (R260).
-/
namespace Sys2Proof.Machine

/-! ### Access to channel state -/

def Dev.tile (d : Dev) (ring : Nat) : Tile := d.est.tiles.get ring {}
def Dev.setTile (d : Dev) (ring : Nat) (x : Tile) : Dev := { d with est := { d.est with tiles := d.est.tiles.set ring x {} } }
def Dev.ech (d : Dev) (ch : Nat) : ECh := d.est.ch.get ch {}
def Dev.setEch (d : Dev) (ch : Nat) (x : ECh) : Dev := { d with est := { d.est with ch := d.est.ch.set ch x {} } }
def Dev.estr (d : Dev) (str : Nat) : EStr := d.est.str.get str {}
def Dev.setEstr (d : Dev) (str : Nat) (x : EStr) : Dev := { d with est := { d.est with str := d.est.str.set str x {} } }

/-- The charge count q of a channel, in µC. -/
def Dev.qOf (d : Dev) (ch : Nat) : Int := sx 48 (d.rd2 Reg.EST_CH_Q_LO_Q Reg.EST_CH_Q_HI_Q ch)
def Dev.setQ (d : Dev) (ch : Nat) (q : Int) : Dev := d.wr2 Reg.EST_CH_Q_LO_Q Reg.EST_CH_Q_HI_Q (code 48 q) ch
/-- The learned capacity Q_use, in µC. -/
def Dev.quse (d : Dev) (ch : Nat) : Int := sx 48 (d.rd2 Reg.EST_CH_QUSE_LO_Q_USE Reg.EST_CH_QUSE_HI_Q_USE ch)
def Dev.setQuse (d : Dev) (ch : Nat) (q : Int) : Dev := d.wr2 Reg.EST_CH_QUSE_LO_Q_USE Reg.EST_CH_QUSE_HI_Q_USE (code 48 q) ch
/-- The balancing charge total, in µC. -/
def Dev.qbal (d : Dev) (ch : Nat) : Int := sx 48 (d.rd2 Reg.EST_CH_QBAL_LO_Q_BAL Reg.EST_CH_QBAL_HI_Q_BAL ch)
def Dev.setQbal (d : Dev) (ch : Nat) (q : Int) : Dev := d.wr2 Reg.EST_CH_QBAL_LO_Q_BAL Reg.EST_CH_QBAL_HI_Q_BAL (code 48 q) ch

/-! ### Parameter sets (Table 3.12) -/

/-- The parameter set of a channel. -/
def Dev.epar (d : Dev) (ch : Nat) : Rec := d.rl.estPar (d.rl.estSet ch)
def Rec.qNom (p : Rec) : Nat := p.u32 12
def Rec.vShut (p : Rec) : Int := p.u16 16
def Rec.vFull (p : Rec) : Int := p.u16 18
def Rec.vEoc (p : Rec) : Int := p.u16 20
def Rec.vEod (p : Rec) : Int := p.u16 22
def Rec.rComp (p : Rec) : Nat := p.u16 24
def Rec.eta (p : Rec) : Nat := p.u16 26
def Rec.slew (p : Rec) : Nat := p.u32 28
def Rec.stepI (p : Rec) : Nat := p.u32 32
def Rec.socEdges (p : Rec) : List Nat := (List.range 7).map (fun k => p.u16 (36 + 2 * k))
def Rec.tEdges (p : Rec) : List Int := (List.range 5).map (fun k => p.s16 (50 + 2 * k))
def Rec.edgeBytes (p : Rec) : List Byte := slice p.b 36 24
def Rec.iMaxChg (p : Rec) : Nat := p.u32 60
def Rec.iMaxDis (p : Rec) : Nat := p.u32 64

/-- The used cell channels of a string: node, channel of the node, device channel, in ascending device channel number. -/
def Dev.strCells (d : Dev) (str : Nat) : List (Rec × Nat × Nat) :=
  match d.rl.ringOf str with
  | none => []
  | some ring =>
    let l := (d.rl.cellNodesOf str).flatMap (fun n => (setBits n.ndCellMask 16).map (fun j => (n, j, 2048 * ring + n.ndCellBase + j)))
    (sortBy (fun a b => decide (a.2.2 ≤ b.2.2)) l)

/-- The strings of a ring, ascending. -/
def Dev.ringStrs (d : Dev) (ring : Nat) : List Nat := sortBy (fun a b => decide (a ≤ b)) ((d.rl.heads ring).map Rec.ndString)

/-- The streams of Table 9.1, in table order. -/
def estInputs (ring : Nat) : List (Nat × Nat) :=
  [(0x3000 + ring, 0), (0x3000 + ring, 1), (0x3000 + ring, 3), (0x1000 + ring, 0), (0x1000 + ring, 2), (0x1000 + ring, 3)]

/-- Whether input n of Table 9.1 is bound to a queue that the tile reads. -/
def Dev.estBound (d : Dev) (ring n : Nat) : Bool :=
  let (s, st) := (estInputs ring).getD n (0, 0)
  (d.rl.routes s st).any (fun q => match d.qf.qs.find q with
    | some x => x.qd.consumer == 0x4000 + ring
    | none => false)

/-- The combined state of a node as the tile knows it: LOST until a record says otherwise; ACTIVE where stream 3 is not bound. -/
def Dev.estNode (d : Dev) (ring addr : Nat) : Nat := if d.estBound ring 2 then (d.tile ring).nodes.get addr 3 else 0

/-! ### Arithmetic -/

/-- A sticky arithmetic flag of a tile (R36). -/
def Dev.estSat (d : Dev) (ring : Nat) (sat : Bool) : Dev :=
  if !sat || d.on Reg.EST_TILE_ARITH_SAT ring then d
  else (d.set1 Reg.EST_TILE_ARITH_SAT ring).raise Ev.EST_ARITH ring 1

/-- The value ln r × 2²⁵⁶, rounded down, of r = a / b with 1 < r ≤ 8, by 2 × artanh((r − 1) / (r + 1)); `k` terms. -/
def lnTerms (y num k : Nat) : Nat → Nat
  | 0 => 0
  | n + 1 => num / (2 * k + 1) + lnTerms y (num * y / 2 ^ 256 * y / 2 ^ 256) (k + 1) n

def lnRatio (a b : Nat) : Nat :=
  let y := (a - b) * 2 ^ 256 / (a + b)
  2 * lnTerms y y 0 360

/-- round_half_up(t / ln(a / b)) with t = `tn` / `td` (R252). -/
def tauOf (tn td a b : Nat) : Nat :=
  let l := lnRatio a b
  if l = 0 then 0 else (2 * tn * 2 ^ 256 + td * l) / (2 * td * l)

/-! ### Learning records and events -/

/-- A stream 3 learning record. -/
def Dev.learn (d : Dev) (ring ts kind ch e : Nat) : Dev :=
  d.produce (0x4000 + ring) 3 (.one (mkItem (ts32 ts * 2 ^ 28 + kind * 2 ^ 24 + ch * 2 ^ 7 + e * 2)))

/-- Clears `CHAIN` on a channel. -/
def Dev.breakChain (d : Dev) (ch : Nat) : Dev := d.clr Reg.EST_CH_STAT_CHAIN ch

/-! ### Snapshots and restore (R256 to R258) -/

/-- A channel's record (Table 9.6). -/
def Dev.snapBody (d : Dev) (ch take : Nat) : List Byte :=
  let full := d.rl.persist.u8 8 == 1
  let f (x : List Byte) : List Byte := if full then x else List.replicate x.length 0
  toLe ch 4 ++ toLe take 4 ++ toLe (b2n full) 1
    ++ f (toLe (d.rd Reg.EST_CH_STAT_ANCHORED ch + 2 * d.rd Reg.EST_CH_STAT_LAST_EMPTY ch) 1) ++ toLe 0 2
    ++ (d.epar ch).edgeBytes ++ toLe (d.rd Reg.EST_CH_EFC_EFC ch) 4 ++ toLe (d.ech ch).rem 8
    ++ (List.range 48).flatMap (fun e => toLe (d.word (Reg.EST_IMP0_R_OHM.addr ch e)).toNat 4 ++ toLe (d.word (Reg.EST_IMP1_COUNT.addr ch e)).toNat 4)
    ++ f (toLe (code 64 (d.quse ch)) 8 ++ toLe (code 64 (d.qOf ch)) 8 ++ toLe (d.rd Reg.EST_CH_REP_REP ch) 4
        ++ toLe (d.rd Reg.EST_CH_ANCHOR_FULLS ch) 2 ++ toLe (d.rd Reg.EST_CH_ANCHOR_EMPTIES ch) 2 ++ toLe (code 64 (d.qbal ch)) 8)

/-- Hands a snapshot of a channel to the store. -/
def Dev.snapshot (d : Dev) (ch take : Nat) : Dev :=
  if d.on Reg.EST_CH_STAT_FROZEN ch then d
  else (d.wr Reg.EST_CH_PERSIST_TAKE take ch).nvWrite 1 ch (d.snapBody ch take)

/-- Clears the 48 impedance entries of a channel. -/
def Dev.clearImp (d : Dev) (ch : Nat) : Dev :=
  (List.range 48).foldl (fun (d : Dev) e => (d.setWord (Reg.EST_IMP0_R_OHM.addr ch e) 0).setWord (Reg.EST_IMP1_COUNT.addr ch e) 0) d

/-- The default Q_use: 1,000,000 × `Q_NOM`. -/
def Dev.quseDflt (d : Dev) (ch : Nat) : Int := 1000000 * ((d.epar ch).qNom : Int)

/-- Whether a Q_use lies in Q_NOM / 2 to 6 × Q_NOM / 5. -/
def Dev.quseOk (d : Dev) (ch : Nat) (q : Int) : Bool :=
  let n := d.quseDflt ch
  decide (n ≤ 2 * q) && decide (5 * q ≤ 6 * n)

/-- The target state of charge, uQ0.32 (R244). -/
def Dev.socTarget (d : Dev) (ch : Nat) : Nat :=
  let u := d.quse ch
  if u ≤ 0 then 0 else (satTo 0 (2 ^ 32 - 1) (rhu (2 ^ 32 * (u - d.qOf ch)) u.toNat)).1.toNat

/-- Writes the reported and target state of charge. -/
def Dev.putSoc (d : Dev) (ch rep target : Nat) : Dev :=
  let f (x : Nat) : Nat := (rhu ((x * 10000 : Nat) : Int) (2 ^ 32)).toNat
  ((d.wr Reg.EST_CH_REP_REP rep ch).wr Reg.EST_CH_SOC_SOC (f rep) ch).wr Reg.EST_CH_SOC_TARGET (f target) ch

/-- The reported state of charge is set to the target. -/
def Dev.reportNow (d : Dev) (ch : Nat) : Dev := let t := d.socTarget ch; d.putSoc ch t t

/-- The defaults of R258. -/
def Dev.estDefaults (d : Dev) (ch : Nat) : Dev :=
  let u := d.quseDflt ch
  let d := ((d.setQuse ch u).setQ ch (Int.fdiv u 2)).setQbal ch 0
  let d := ((d.wr Reg.EST_CH_EFC_EFC 0 ch).wr Reg.EST_CH_ANCHOR_FULLS 0 ch).wr Reg.EST_CH_ANCHOR_EMPTIES 0 ch
  let d := (((d.clr Reg.EST_CH_STAT_ANCHORED ch).clr Reg.EST_CH_STAT_CHAIN ch).clr Reg.EST_CH_STAT_LAST_EMPTY ch).clr Reg.EST_CH_STAT_RESTORED ch
  (((d.clearImp ch).setEch ch {}).reportNow ch)

/-- Restores a channel from its record, or sets defaults (R258); whether it was restored. -/
def Dev.estRestore (d : Dev) (ch : Nat) : Dev × Bool :=
  let d := d.estDefaults ch
  match d.nvRead 1 ch with
  | (d, none) => (d, false)
  | (d, some b) =>
    let full := byteAt b 8 == 1
    let fl := byteAt b 9
    let d := (d.wr Reg.EST_CH_EFC_EFC (le b 36 4) ch).setEch ch { d.ech ch with rem := le b 40 8 }
    let d := if slice b 12 24 = (d.epar ch).edgeBytes then
        (List.range 48).foldl (fun (d : Dev) e => (d.setWord (Reg.EST_IMP0_R_OHM.addr ch e) (BitVec.ofNat 32 (le b (48 + 8 * e) 4))).setWord
          (Reg.EST_IMP1_COUNT.addr ch e) (BitVec.ofNat 32 (le b (52 + 8 * e) 4))) d
      else d.raise Ev.EST_TABLE_CLEARED ch 1
    let d := if full then
        let d := ((d.setQuse ch (sx 64 (le b 432 8))).setQ ch (sx 64 (le b 440 8))).setQbal ch (sx 64 (le b 456 8))
        let d := (d.wr Reg.EST_CH_ANCHOR_FULLS (le b 452 2) ch).wr Reg.EST_CH_ANCHOR_EMPTIES (le b 454 2) ch
        (d.wr Reg.EST_CH_STAT_ANCHORED (fl % 2) ch).wr Reg.EST_CH_STAT_LAST_EMPTY (fl / 2 % 2) ch
      else d
    let d := if d.quseOk ch (d.quse ch) then d else d.setQuse ch (d.quseDflt ch)
    ((d.set1 Reg.EST_CH_STAT_RESTORED ch).reportNow ch, true)

/-- The build of a tile in QUIET (R232, R258): every present channel restored or set to defaults; channels kept over an activation (R108) stay as they are. -/
def Dev.estBuild (d : Dev) (ring : Nat) (keep : Nat → Bool := fun _ => false) : Dev :=
  let chs := ((d.ringStrs ring).flatMap d.strCells).map (fun x => x.2.2)
  let (d, n) := chs.foldl (fun (a : Dev × Nat) c =>
    let d := ((a.1.set1 Reg.EST_CH_STAT_USED c).wr Reg.EST_CH_STAT_FROZEN (b2n a.1.pst.learnRo) c).wr Reg.EST_CH_STAT_SET (a.1.rl.estSet c) c
    if keep c then (d, a.2 + 1)
    else
      let (d, ok) := d.estRestore c
      (d, a.2 + b2n ok)) (d, 0)
  let d := (d.ringStrs ring).foldl (fun (d : Dev) s => d.setEstr s {}) (d.setTile ring {})
  let d := d.wr Reg.EST_TILE_IN_BOUND (sumN ((List.range 6).map (fun k => b2n (d.estBound ring k) * 2 ^ k))) ring
  d.raise Ev.EST_RESTORE ring (n + (chs.length - n) * 2 ^ 17)

/-! ### Reading inputs (R233) -/

/-- The Take of a ring that a Slate's ts32 belongs to, with the cycle of its Slate. -/
def Dev.estTake (d : Dev) (ring slate : Nat) : Option (Nat × Nat) :=
  let r := d.lr ring
  match (r.cur.toList ++ r.prev.toList).find? (fun p => ts32 (p.2 * 125000) == slate) with
  | some (p, c) => some (p.take, c)
  | none => none

/-- The Take that a charge item of a cycle belongs to, with the index of the cycle in it. -/
def Dev.estChgTake (d : Dev) (ring cyc : Nat) : Option (Nat × Nat) :=
  let r := d.lr ring
  let len (n : Nat) : Nat := (d.rlAt ring n).cpt ring
  match (r.cur.toList ++ r.prev.toList).find? (fun p => decide (p.2 ≤ cyc + 1) && decide (cyc + 2 ≤ p.2 + len p.2)) with
  | some (p, n) => some (p.take, cyc + 1 - n)
  | none => none

/-- Whether a Take number is not yet closed. -/
def Tile.isOpen (x : Tile) (take : Nat) : Bool := match x.next with
  | none => true
  | some k => decide ((take + 2 ^ 32 - k) % 2 ^ 32 < 2 ^ 31)

/-- Puts what an item says into its Take, or counts it as late. -/
def Dev.estPut (d : Dev) (ring : Nat) (take : Option Nat) (items : Nat) (f : TakeIn → TakeIn) : Dev :=
  let x := d.tile ring
  match take with
  | some k => if x.isOpen k then d.setTile ring { x with inbox := x.inbox.ins k (f (x.inbox.get k {})) } else d.bump Reg.EST_TILE_IN_LATE items ring
  | none => d.bump Reg.EST_TILE_IN_LATE items ring

/-- A packet of cell voltages: filtered or raw. -/
def Dev.estCells (d : Dev) (ring addr : Nat) (items : List Item) (filtered : Bool) : Dev :=
  match d.rl.node ring addr with
  | none => d
  | some n =>
    let chs := setBits n.ndCellMask 16
    let slate := (itemBits (items.getD 0 0) 28 32 + 2 ^ 32 - 4000 * chs.getD 0 0) % 2 ^ 32
    d.estPut ring ((d.estTake ring slate).map (fun p => p.1)) items.length (fun x =>
      (chs.zip items).foldl (fun (x : TakeIn) p =>
        let v := (itemBits p.2 12 16, itemBits p.2 0 12)
        let s := n.ndCellBase + p.1
        if filtered then { x with vf := x.vf.ins s v } else { x with raw := x.raw.ins s v }) x)

/-- EST_INPUT_ITEM: the tile reads the next unit of one of its input queues. A packet whose head carries ERR is discarded (R40). -/
def Dev.estInput (d : Dev) (ring qid : Nat) : Dev :=
  match d.qf.qs.find qid with
  | none => d
  | some q =>
    if q.qd.consumer ≠ 0x4000 + ring ∨ d.blocked (0x4000 + ring) then d
    else match d.take qid with
      | (d, none) => d
      | (d, some u) =>
        let is := fun k => let (s, st) := (estInputs ring).getD k (0, 0); (d.rl.routes s st).contains qid
        match u with
        | .pkt h items =>
          let addr := itemBits h 28 7
          if itemErr h then d
          else if is 0 then d.estCells ring addr items true
          else if is 3 then d.estCells ring addr items false
          else if is 1 then
            (match d.rl.node ring addr with
            | none => d
            | some n =>
              let x := d.tile ring
              d.setTile ring { x with temps := ((setBits n.ndTempMask 8).zip items).foldl (fun (t : Tbl (Int × Nat)) p => t.ins (n.ndTempBase + p.1) (sx 16 (itemBits p.2 12 16), itemBits p.2 0 12)) x.temps })
          else match d.rl.node ring addr with
            | none => d
            | some n =>
              let it0 := items.getD 0 0
              if is 4 then
                d.estPut ring ((d.estTake ring (itemBits it0 28 32)).map (fun p => p.1)) items.length (fun x =>
                  ((List.range 16).zip items).foldl (fun (x : TakeIn) p =>
                    { x with cur := x.cur.ins (16 * n.ndString + p.1) (sx 24 (itemBits p.2 4 24), itemBits p.2 0 4) }) x)
              else if is 5 then
                (match d.estChgTake ring (cycleOf (tsExtend d.now (itemBits it0 28 32))) with
                | some (k, i) => d.estPut ring (some k) 1 (fun x => { x with chg := x.chg.ins (32 * n.ndString + i) (sx 24 (itemBits it0 4 24), itemBits it0 0 4) })
                | none => d.estPut ring none 1 (fun x => x))
              else d
        | .one it =>
          if is 2 then
            let x := d.tile ring
            d.setTile ring { x with nodes := x.nodes.ins (itemBits it 15 7) (itemBits it 12 3) }
          else d
        | .ev _ _ => d

/-! ### Step 1: strings -/

/-- What step 1 gives of a string's Take: its charge, whether an item was substituted, whether the chain is broken, whether the Take is steady by its own
items, the sum of its 16 codes, the step's Take a, the steady Takes of an observation that ends, the Takes since b of one that is open. -/
structure StrTake where
  q : Int := 0
  subst : Bool := false
  brk : Bool := false
  step : Option Nat := none
  ended : Option Nat := none
  since : Option Nat := none
deriving DecidableEq, Repr

/-- The charge of a Take (R236). -/
def takeCharge (x : TakeIn) (str c : Nat) : Int × Bool × Bool :=
  let cur := (List.range 16).filterMap (fun j => match x.cur.find (16 * str + j) with
    | some (v, f) => if bitAt f 3 || bitAt f 1 then none else some v
    | none => none)
  let sub : Int := if cur.isEmpty then 0 else rhu (sumI cur) (8 * cur.length)
  (List.range c).foldl (fun (a : Int × Bool × Bool) i => match x.chg.find (32 * str + i) with
    | some (v, f) => if bitAt f 3 then (a.1 + sub, true, a.2.2 || cur.isEmpty) else (a.1 + v, a.2.1, a.2.2 || bitAt f 1)
    | none => (a.1 + sub, true, a.2.2 || cur.isEmpty)) (0, false, false)

/-- `STEP_I` of a string: the largest over its cells. -/
def Dev.strStepI (d : Dev) (str : Nat) : Nat := maxN ((d.strCells str).map (fun c => (d.epar c.2.2).stepI)) 0

/-- Steadiness, steps and the course of an observation (R250, R252). -/
def strStep (s : EStr) (k stepI nmax : Nat) (codes : List (Int × Nat)) : EStr × Option Nat × Option Nat × Option Nat :=
  let vs := codes.map (fun c => c.1)
  let sum := sumI vs
  let tol : Nat := stepI / 8
  let steady := decide (codes.length = 16) && codes.all (fun c => !bitAt c.2 3 && !bitAt c.2 1)
    && decide (vs.foldl max (vs.headD 0) - vs.foldl min (vs.headD 0) ≤ (tol : Int))
  let (s, ended, since) : EStr × Option Nat × Option Nat := match s.obs with
    | none => (s, none, none)
    | some (b, sb, m) =>
      if steady && decide ((sum - sb).natAbs ≤ 16 * tol) then
        if m + 1 = 2 ^ (nmax + 1) then ({ s with obs := none }, some (m + 1), some (m + 1)) else ({ s with obs := some (b, sb, m + 1) }, none, some (m + 1))
      else ({ s with obs := none }, some m, none)
  let step : Option Nat := if steady && s.obs.isNone then
      (match s.last with
      | some (a, sa) =>
        let gap : Nat := (k + 2 ^ 32 - a) % 2 ^ 32
        if (gap == 1 || gap == 2) && decide (16 * stepI ≤ (sum - sa).natAbs) && decide (0 < stepI) then some a else none
      | none => none)
    else none
  let s := if steady then { s with last := some (k, sum) } else s
  let s := if step.isSome then { s with obs := some (k, sum, 0) } else s
  (s, step, ended, since)

/-- Step 1 of R234 for one string. -/
def Dev.strPart1 (d : Dev) (ring str k c : Nat) (x : TakeIn) : Dev × StrTake :=
  let (q, sub, brk) := takeCharge x str c
  let cells := d.strCells str
  let d := if brk then
      let had := cells.any (fun y => d.on Reg.EST_CH_STAT_CHAIN y.2.2)
      let d := cells.foldl (fun (d : Dev) y => d.breakChain y.2.2) d
      if had then d.raise Ev.EST_CHAIN_BREAK str k else d
    else d
  let codes := (List.range 16).filterMap (fun j => x.cur.find (16 * str + j))
  let (s, step, ended, since) := if d.estBound ring 3 && d.estBound ring 4 then strStep (d.estr str) k (d.strStepI str) (13 + d.rl.rate ring) codes
    else (d.estr str, none, none, none)
  let d := d.setEstr str s
  let d := if step.isSome then d.bump Reg.EST_STR_IMP_STEPS 1 str else d
  (d, { q := q, subst := sub, brk := brk, step := step, ended := ended, since := since })

/-! ### Step 2: cells -/

/-- The charge count, balancing charge and equivalent cycles (R237, R238). -/
def Dev.cellCharge (d : Dev) (ring str k ch : Nat) (q : Int) (raw : Option (Nat × Nat)) : Dev :=
  let p := d.epar ch
  let tTake : Nat := d.rl.cpt ring * 125
  let rbal : Nat := d.rd Reg.SWP_BAL_CFG_R_BAL
  let qeff := if q < 0 then rhu ((p.eta : Int) * q) 32768 else q
  let qb : Int := match raw with
    | some (v, f) =>
      if bitAt f 9 && decide (0 < rbal) then
        let v := if bitAt f 8 then d.rd Reg.EST_CH_V_V_F ch else v
        rhu ((v * tTake : Nat) : Int) (10 * rbal)
      else 0
    | none => 0
  let (nq, s1) := satS 48 (d.qOf ch + qeff + qb)
  let (nb, s2) := satS 48 (d.qbal ch + qb)
  let d := ((d.setQ ch nq).setQbal ch nb).estSat ring (s1 || s2)
  let d := if s1 then
      let had := d.on Reg.EST_CH_STAT_CHAIN ch
      let d := d.breakChain ch
      if had then d.raise Ev.EST_CHAIN_BREAK str k else d
    else d
  if 0 < q then
    let e := d.ech ch
    let t := e.rem + q.toNat
    let unit : Nat := 10000 * p.qNom
    if unit = 0 then d
    else
      (d.bump Reg.EST_CH_EFC_EFC (t / unit) ch).setEch ch { e with rem := t % unit }
  else d

/-- The companion filter (R239): the channel after the Take, its output, and saturation. -/
def ECh.companion (x : ECh) (e : Nat) (prev i : Int) (stale settling restart : Bool) : ECh × Int × Bool :=
  let x := if settling && (restart || !x.settling) then { x with u1 := 2 * i, u2 := 2 * i, y1 := 2 * i, y2 := 2 * i } else x
  let x := { x with settling := settling, lastI := i }
  if stale then (x, prev, false)
  else
    let c := (filtCoef e).1
    let u0 := 2 * i
    let (y0, s1) := satS 32 (rhu (c.getD 0 0 * u0 + c.getD 1 0 * x.u1 + c.getD 2 0 * x.u2 - c.getD 3 0 * x.y1 - c.getD 4 0 * x.y2) (2 ^ 28))
    let (o, s2) := satTo (-8388608) 8388607 (rhu y0 2)
    ({ x with u2 := x.u1, u1 := u0, y2 := x.y1, y1 := y0 }, if settling then i else o, s1 || s2)

/-- Companion filter and compensated voltage (R239). -/
def Dev.cellVoltage (d : Dev) (ring slot ch : Nat) (vf : Option (Nat × Nat)) (cur : Option (Int × Nat)) : Dev :=
  let p := d.epar ch
  let e := 6 * d.rl.rate ring + d.rl.corner ring 0 slot
  let (v, fl) := vf.getD (d.rd Reg.EST_CH_V_V_F ch, setBit (d.ech ch).flags 8 true)
  let settling := bitAt fl 11
  let stale := bitAt fl 8
  let x := d.ech ch
  let restart := settling && (d.filt ch).settle + 1 == (filtCoef e).2
  let (i, istale) := match cur with
    | some (i, f) => (i, bitAt f 3)
    | none => (x.lastI, true)
  let (x, io, sat) := x.companion e (d.rdI Reg.EST_CH_I_I_F ch) i istale settling restart
  let d := ((d.setEch ch { x with flags := fl }).wrI Reg.EST_CH_I_I_F io ch).estSat ring sat
  if stale then d.set1 Reg.EST_CH_STAT_HOLD ch
  else
    let (vc, s) := satU 16 ((v : Int) + rhu (io * p.rComp) 100000)
    (((d.clr Reg.EST_CH_STAT_HOLD ch).wr Reg.EST_CH_V_V_F v ch).wr Reg.EST_CH_V_V_C vc.toNat ch).estSat ring s

/-- The charge factor f_c and the discharge factor f_d (R241). -/
def factors (p : Rec) (vc : Int) : Nat × Nat :=
  let fc : Nat := if vc ≤ p.vEoc then 32768 else if p.vFull ≤ vc then 0 else (rdiv (32768 * (p.vFull - vc)) (p.vFull - p.vEoc)).toNat
  let fd : Nat := if p.vEod ≤ vc then 32768 else if vc ≤ p.vShut then 0 else (rdiv (32768 * (vc - p.vShut)) (p.vEod - p.vShut)).toNat
  (fc, fd)

/-- Writes the factors and their status bits. -/
def Dev.cellFactors (d : Dev) (ch : Nat) : Dev :=
  let (fc, fd) := factors (d.epar ch) (d.rd Reg.EST_CH_V_V_C ch)
  let d := (d.wr Reg.EST_CH_FACT_F_C fc ch).wr Reg.EST_CH_FACT_F_D fd ch
  (((d.wr Reg.EST_CH_STAT_EOC (b2n (decide (fc < 32768))) ch).wr Reg.EST_CH_STAT_FULL (b2n (fc == 0)) ch).wr
    Reg.EST_CH_STAT_EOD (b2n (decide (fd < 32768))) ch).wr Reg.EST_CH_STAT_EMPTY (b2n (fd == 0)) ch

/-- Capacity learning (R243). -/
def Dev.learnCap (d : Dev) (ring ch ts : Nat) (qm : Int) : Dev :=
  let n := d.quseDflt ch
  if n ≤ 2 * qm ∧ 5 * qm ≤ 6 * n then
    (d.setQuse ch (d.quse ch + rhu (qm - d.quse ch) 4)).learn ring ts 6 ch 0
  else
    (d.learn ring ts 7 ch 0).raise Ev.EST_CAPACITY_REJECT ch (code 32 (clampS 32 (Int.fdiv qm 1000000)))

/-- Takes an anchor (R243); `learning` is clear for a manual one (R260). -/
def Dev.anchor (d : Dev) (ring ch take ts : Nat) (empty learning : Bool) : Dev :=
  let measure := learning && d.on Reg.EST_CH_STAT_ANCHORED ch && d.on Reg.EST_CH_STAT_CHAIN ch && (d.on Reg.EST_CH_STAT_LAST_EMPTY ch != empty)
  let d := if measure then d.learnCap ring ch ts (if empty then d.qOf ch else d.quse ch - d.qOf ch) else d
  let d := d.setQ ch (if empty then d.quse ch else 0)
  let d := ((d.set1 Reg.EST_CH_STAT_ANCHORED ch).set1 Reg.EST_CH_STAT_CHAIN ch).wr Reg.EST_CH_STAT_LAST_EMPTY (b2n empty) ch
  let d := if empty then d.bump Reg.EST_CH_ANCHOR_EMPTIES 1 ch else d.bump Reg.EST_CH_ANCHOR_FULLS 1 ch
  (d.wr Reg.EST_CH_ANCHOR_TAKE_TAKE take ch).learn ring ts (if empty then 2 else 1) ch 0

/-- The qualifying counts of a cell (R242) and the anchor when one reaches 8; whether an anchor was taken. -/
def Dev.cellAnchors (d : Dev) (ring addr ch take ts : Nat) (cur : Option (Int × Nat)) : Dev × Bool :=
  let p := d.epar ch
  let fl := (d.ech ch).flags
  let ok := d.estNode ring addr == 0 && !(bitAt fl 11 || bitAt fl 8 || bitAt fl 10 || bitAt fl 9 || bitAt fl 6)
    && (match cur with | some (_, f) => !bitAt f 3 | none => false)
  let vc : Int := d.rd Reg.EST_CH_V_V_C ch
  let i := d.rdI Reg.EST_CH_I_I_F ch
  let full := if ok && decide (p.vFull ≤ vc) && decide (i ≤ 0) then d.rd Reg.EST_CH_STAT_FULL_RUN ch + 1 else 0
  let empty := if ok && decide (vc ≤ p.vShut) && decide (0 ≤ i) then d.rd Reg.EST_CH_STAT_EMPTY_RUN ch + 1 else 0
  let put (d : Dev) (a b : Nat) : Dev := (d.wr Reg.EST_CH_STAT_FULL_RUN a ch).wr Reg.EST_CH_STAT_EMPTY_RUN b ch
  if 8 ≤ full then ((put d 0 0).anchor ring ch take ts false true, true)
  else if 8 ≤ empty then ((put d 0 0).anchor ring ch take ts true true, true)
  else (put d full empty, false)

/-- State of charge and cell limits (R244, R245). -/
def Dev.cellSoc (d : Dev) (ch : Nat) : Dev :=
  let p := d.epar ch
  let target := d.socTarget ch
  let slew : Int := (min (16 * p.slew) (2 ^ 32 - 1) : Nat)
  let rep : Int := d.rd Reg.EST_CH_REP_REP ch
  let rep' := rep + (satTo (-slew) slew ((target : Int) - rep)).1
  let d := d.putSoc ch rep'.toNat target
  let d := d.wr Reg.EST_CH_LIM_CHG_I_CHG (rhu ((p.iMaxChg * d.rd Reg.EST_CH_FACT_F_C ch : Nat) : Int) 32768).toNat ch
  d.wr Reg.EST_CH_LIM_DIS_I_DIS (rhu ((p.iMaxDis * d.rd Reg.EST_CH_FACT_F_D ch : Nat) : Int) 32768).toNat ch

/-- The input that gives a cell its temperature (R253). -/
def Dev.cellTempInput (d : Dev) (ring : Nat) (n : Rec) (j : Nat) : Option (Nat × Int × Nat) :=
  let ok := (setBits n.ndTempMask 8).filterMap (fun i => match (d.tile ring).temps.find (n.ndTempBase + i) with
    | some (v, f) => if bitAt f 10 || bitAt f 8 || bitAt f 6 then none else some (i, v, f)
    | none => none)
  let dist (i : Nat) : Nat := if i < j / 2 then j / 2 - i else i - j / 2
  ok.foldl (fun a x => match a with
    | none => some x
    | some y => if dist x.1 < dist y.1 then some x else some y) none

/-- Temperature selection (R248, R253). -/
def Dev.cellTemp (d : Dev) (ring : Nat) (n : Rec) (j ch : Nat) : Dev :=
  let x := d.ech ch
  let period : Nat := d.rl.cpt ring * 125000
  match d.cellTempInput ring n j with
  | some (i, v, _) =>
    ((((d.setEch ch { x with noTemp := 0 }).wrI Reg.EST_CH_TEMP_T v ch).wr Reg.EST_CH_TEMP_INPUT i ch).set1 Reg.EST_CH_TEMP_T_VALID ch)
  | none =>
    let d := (d.clr Reg.EST_CH_TEMP_T_VALID ch).setEch ch { x with noTemp := x.noTemp + 1 }
    let was := x.noTemp * period
    let is := (x.noTemp + 1) * period
    if d.estBound ring 1 ∧ was < 60 * oneSec ∧ 60 * oneSec ≤ is then d.raise Ev.EST_TEMP_NONE ch (min (is / oneSec) 65535) else d

/-- The entry index of R253, when the cell meets the learning conditions. -/
def Dev.learnEntry (d : Dev) (ring : Nat) (n : Rec) (j ch : Nat) : Option Nat :=
  let p := d.epar ch
  match d.cellTempInput ring n j with
  | none => none
  | some (_, v, f) =>
    if !d.on Reg.EST_CH_STAT_ANCHORED ch || bitAt f 11 || d.estNode ring n.ndAddr != 0 then none
    else
      let s := (p.socEdges.filter (fun x => decide (x ≤ d.rd Reg.EST_CH_SOC_SOC ch))).length
      let t := (p.tEdges.filter (fun x => decide (x ≤ v))).length
      some (8 * t + s)

/-- A sample rejected (R251). -/
def Dev.rejectSample (d : Dev) (ring ch ts e : Nat) : Dev := (d.bump Reg.EST_CH_IMPSTAT_REJECTED 1 ch).learn ring ts 5 ch e

/-- The updated value of R254 for a count. -/
def impMean (old new count : Nat) : Nat :=
  if count = 0 then new else ((old : Int) + rhu ((new : Int) - old) (min (count + 1) 16)).toNat

/-- Whether a sample is implausible against a learned value (R254). -/
def implausible (old new count : Nat) : Bool := decide (16 ≤ count) && (decide (4 * new < old) || decide (4 * old < new))

/-- The comparison of a cell's `R_OHM` with its string's (R254). -/
def Dev.impOutlier (d : Dev) (str ch e : Nat) : Dev :=
  let l := ((d.strCells str).map (fun c => c.2.2)).filter (fun c => decide (16 ≤ d.rd Reg.EST_IMP1_COUNT c e))
  if l.length < 8 ∨ !l.contains ch then d
  else
    let sum := sumN (l.map (fun c => d.rd Reg.EST_IMP0_R_OHM c e))
    let r := d.rd Reg.EST_IMP0_R_OHM ch e
    if 2 * sum < r * l.length then (d.set1 Reg.EST_CH_STAT_OUTLIER ch).raise Ev.EST_IMP_OUTLIER ch (e + r * 2 ^ 16)
    else d.clr Reg.EST_CH_STAT_OUTLIER ch

/-- An ohmic sample x for entry e (R251, R254). -/
def Dev.ohmic (d : Dev) (ring str ch ts e : Nat) (x : Int) : Dev :=
  let c := d.rd Reg.EST_IMP1_COUNT ch e
  let o := d.rd Reg.EST_IMP0_R_OHM ch e
  if x < 1 ∨ 65535 < x then d.rejectSample ring ch ts e
  else if implausible o x.toNat c then d.rejectSample ring ch ts e
  else
    let d := (d.wr Reg.EST_IMP0_R_OHM (impMean o x.toNat c) ch e).wr Reg.EST_IMP1_COUNT (min (c + 1) 255) ch e
    ((d.bump Reg.EST_CH_IMPSTAT_ACCEPTED 1 ch).learn ring ts 3 ch e).impOutlier str ch e

/-- d_n and d_(n+1) of the largest n that R252 admits. -/
def polPick (o : Obs) (m : Nat) : Nat → Option (Nat × Int × Int)
  | 0 => none
  | n + 1 =>
    let dn := fun k => match o.kept.find? (fun x => x.1 == k) with
      | some (_, v, u) => if u then some (o.vb - v) else none
      | none => none
    match dn n, dn (n + 1) with
    | some a, some b =>
      let sgn (x y : Int) : Bool := (decide (0 < x) && decide (0 < y)) || (decide (x < 0) && decide (y < 0))
      if decide (2 ^ (n + 1) ≤ m) && decide (4 ≤ a.natAbs) && sgn a o.di && decide (a.natAbs ≤ 8 * (b - a).natAbs) && decide (b.natAbs < 2 * a.natAbs)
        && sgn (b - a) a then some (n, a, b)
      else polPick o m n
    | _, _ => polPick o m n

/-- The end of an observation after m steady Takes (R252, R254). -/
def Dev.polarisation (d : Dev) (ring ch ts m : Nat) (o : Obs) : Dev × Bool :=
  match polPick o m (14 + d.rl.rate ring) with
  | none => (d, false)
  | some (n, a, b) =>
    let r := rdiv (100000 * a * a) ((2 * a - b) * o.di)
    let tau := tauOf (2 ^ n * (d.rl.cpt ring * 125)) 1000 a.natAbs (b - a).natAbs
    if r < 1 ∨ 65535 < r ∨ tau < 1 ∨ 65535 < tau then (d, false)
    else
      let c := d.rd Reg.EST_IMP1_PCOUNT ch o.e
      let old := d.rd Reg.EST_IMP0_R_POL ch o.e
      if implausible old r.toNat c then (d.rejectSample ring ch ts o.e, false)
      else
        let d := d.wr Reg.EST_IMP0_R_POL (impMean old r.toNat c) ch o.e
        let d := d.wr Reg.EST_IMP1_TAU_POL (impMean (d.rd Reg.EST_IMP1_TAU_POL ch o.e) tau c) ch o.e
        let d := (d.wr Reg.EST_IMP1_PCOUNT (min (c + 1) 255) ch o.e).bump Reg.EST_CH_IMPSTAT_ACCEPTED 1 ch
        (d.learn ring ts 4 ch o.e, true)

/-- Flags that R251 names: `OPEN_WIRE_SUSPECT`, `BALANCING`, `STALE`, `NODE_MISMATCH`, `RANGE`. -/
def impBad (fl : Nat) : Bool := bitAt fl 10 || bitAt fl 9 || bitAt fl 8 || bitAt fl 7 || bitAt fl 6

/-- Impedance extraction for a cell (R251, R252); whether the cell's observation gave a polarisation sample. -/
def Dev.cellImpedance (d : Dev) (ring str k : Nat) (n : Rec) (j ch ts : Nat) (st : StrTake) (raw : Option (Nat × Nat)) (cur : Option (Int × Nat)) : Dev × Bool :=
  let x := d.ech ch
  let (v, fl) : Int × Nat := match raw with | some (v, f) => (v, f) | none => (0, 0x100)
  let now : ESample := { take := k, v := v, flags := fl, settling := bitAt x.flags 11, i := (match cur with | some (i, _) => i | none => 0) }
  -- codes kept at powers of two, then the end of the observation
  let obs : Option Obs := match x.obs, st.since with
    | some o, some m => if m = 2 ^ Nat.log2 m then some { o with kept := o.kept ++ [(Nat.log2 m, v, !impBad fl)] } else some o
    | o, _ => o
  let (d, obs, done) : Dev × Option Obs × Bool := match obs, st.ended with
    | some o, some m =>
      let (d, ok) := d.polarisation ring ch ts m o
      (d, none, ok)
    | o, _ => (d, o, false)
  let hist := (now :: x.hist).take 3
  let (d, obs) : Dev × Option Obs := match st.step with
    | none => (d, obs)
    | some a =>
      match x.hist.find? (fun s => s.take == a) with
      | none => (d, obs)
      | some s =>
        let di := now.i - s.i
        if impBad s.flags || impBad fl || s.settling || now.settling || decide (di.natAbs < (d.epar ch).stepI) || di == 0 then (d, obs)
        else
          let x := rdiv (-100000 * (v - s.v)) di
          match d.learnEntry ring n j ch with
          | none => (d.rejectSample ring ch ts 0, obs)
          | some e => (d.ohmic ring str ch ts e x, some { e := e, di := di, vb := v })
  let d := d.setEch ch { d.ech ch with hist := hist, obs := obs }
  (d.wr Reg.EST_CH_STAT_OBSERVING (b2n obs.isSome) ch, done)

/-- Commands of `EST_CH_CTRL`, in bit order (R260); whether an anchor was taken. -/
def Dev.cellCommands (d : Dev) (ring ch take ts : Nat) : Dev × Bool :=
  let c := (d.ech ch).cmd
  let d := d.setEch ch { d.ech ch with cmd := 0 }
  let d := if bitAt c 0 then (d.clearImp ch).raise Ev.EST_TABLE_CLEARED ch 2 else d
  let d := if bitAt c 1 then (d.setQuse ch (d.quseDflt ch)).breakChain ch else d
  let d := if bitAt c 2 then (d.wr Reg.EST_CH_EFC_EFC 0 ch).setEch ch { d.ech ch with rem := 0 } else d
  let d := if bitAt c 3 then d.anchor ring ch take ts false false else d
  let d := if bitAt c 4 then d.anchor ring ch take ts true false else d
  let d := if bitAt c 5 then d.reportNow ch else d
  (d, bitAt c 3 || bitAt c 4)

/-- Step 2 of R234 for one cell: whether an anchor was taken, whether a polarisation sample was given. -/
def Dev.cellPart (d : Dev) (ring str k slate : Nat) (n : Rec) (j ch : Nat) (st : StrTake) (x : TakeIn) : Dev × Bool × Bool :=
  let slot := n.ndCellBase + j
  let ts := slate + 4000 * j
  let raw := x.raw.find slot
  let cur := x.cur.find (16 * str + j)
  let (d, a0) := d.cellCommands ring ch k ts
  let d := d.cellCharge ring str k ch st.q raw
  let (d, a1) := if d.estBound ring 0 then
      ((d.cellVoltage ring slot ch (x.vf.find slot) cur).cellFactors ch).cellAnchors ring n.ndAddr ch k ts cur
    else (d, false)
  let d := (d.cellSoc ch).cellTemp ring n j ch
  let (d, p) := d.cellImpedance ring str k n j ch ts st raw cur
  (d, a0 || a1, p)

/-- The stream 0 packet of a cell node (R247). -/
def Dev.estNodePacket (d : Dev) (ring slate : Nat) (n : Rec) : Dev :=
  let items := (setBits n.ndCellMask 16).map (fun j =>
    let ch := 2048 * ring + n.ndCellBase + j
    let low := decide (d.rd Reg.EST_CH_FACT_F_C ch < 32768) || decide (d.rd Reg.EST_CH_FACT_F_D ch < 32768)
    mkItem (ts32 (slate + 4000 * j) * 2 ^ 28 + d.rd Reg.EST_CH_SOC_SOC ch * 2 ^ 14 + d.rd Reg.EST_CH_STAT_ANCHORED ch * 2 ^ 13 + b2n low * 2 ^ 12
      + (d.ech ch).flags % 4096))
  d.produce (0x4000 + ring) 0 (.pkt (rxHead n.ndCellBase n.ndAddr ring) items)

/-! ### Step 3: strings -/

/-- The derate reasons of a string (Table 9.4). -/
def Dev.derateReasons (d : Dev) (ring str : Nat) : Nat :=
  let cells := d.strCells str
  let period : Nat := d.rl.cpt ring * 125000
  let node := (d.rl.cellNodesOf str).any (fun n => decide (3 ≤ d.estNode ring n.ndAddr))
  let tap := cells.any (fun c =>
    let s := d.rd Reg.SWP_NODE_OW_CONFIRMED ring c.1.ndAddr
    bitAt s c.2.1 || (c.2.1 ≠ 0 && bitAt s (c.2.1 - 1)))
  let temp := d.estBound ring 1 && cells.any (fun c => decide (60 * oneSec ≤ (d.ech c.2.2).noTemp * period))
  let imp := cells.any (fun c => d.on Reg.EST_CH_STAT_OUTLIER c.2.2)
  b2n node + b2n tap * 2 + b2n temp * 4 + b2n imp * 8

/-- The derate factor of a reason mask. -/
def derateFactor (mask : Nat) : Nat := if bitAt mask 0 then 0 else if mask % 16 = 0 then 32768 else 16384

/-- String limits, derate evaluation and the stream 1 and 2 writes (R246 to R249); whether the factor fell. -/
def Dev.strPart3 (d : Dev) (ring str k cyc : Nat) (st : StrTake) : Dev × Bool :=
  let cells := (d.strCells str).map (fun c => c.2.2)
  if cells.isEmpty || !d.estBound ring 0 then (d, false)
  else
    let dead := (d.rl.cellNodesOf str).any (fun n => decide (3 ≤ d.estNode ring n.ndAddr))
    let ic := if dead then 0 else minN (cells.map (fun c => d.rd Reg.EST_CH_LIM_CHG_I_CHG c)) 0
    let idis := if dead then 0 else minN (cells.map (fun c => d.rd Reg.EST_CH_LIM_DIS_I_DIS c)) 0
    let v := sumN (cells.map (fun c => d.rd Reg.EST_CH_V_V_C c))
    let rs := sumN (cells.map (fun c => (d.epar c).rComp))
    let (pc, s1) := satTo 0 (2 ^ 31 - 1) (rhu ((ic : Int) * (100000 * v + ic * rs)) (10 ^ 12))
    let (pd, s2) := satTo 0 (2 ^ 31 - 1) (rhu ((idis : Int) * (100000 * v - (idis : Int) * rs)) (10 ^ 12))
    let socs := cells.map (fun c => d.rd Reg.EST_CH_SOC_SOC c)
    let any (f : Field) : Bool := cells.any (fun c => d.on f c)
    let mask := d.derateReasons ring str
    let fac := derateFactor mask
    let oldMask := d.rd Reg.EST_STR_FLAGS_REASONS str
    let oldFac := d.rd Reg.EST_STR_FLAGS_FACTOR str
    let oldH := d.rd Reg.EST_STR_FLAGS_HFLAGS str
    let h := b2n (any Reg.EST_CH_STAT_EOC) + b2n (any Reg.EST_CH_STAT_FULL) * 2 + b2n (any Reg.EST_CH_STAT_EOD) * 4 + b2n (any Reg.EST_CH_STAT_EMPTY) * 8
      + b2n (any Reg.EST_CH_STAT_HOLD || st.subst) * 16 + b2n (cells.any (fun c => bitAt (d.ech c).flags 11)) * 32
      + b2n (cells.any (fun c => !d.on Reg.EST_CH_STAT_ANCHORED c)) * 64
      + b2n ((d.rl.cellNodesOf str).any (fun n => d.estNode ring n.ndAddr != 0)) * 128 + b2n (decide (fac < 32768)) * 256
      + b2n (cells.any (fun c => !d.on Reg.EST_CH_STAT_CHAIN c)) * 512
    let ts := ts32 ((cyc + d.rl.cpt ring - 2) * 125000)
    let lo := minN socs 0
    let hi := maxN socs 0
    let d := (((d.wr Reg.EST_STR_I_CHG_LIM ic str).wr Reg.EST_STR_I_DIS_LIM idis str).wr Reg.EST_STR_P_CHG_LIM pc.toNat str).wr
      Reg.EST_STR_P_DIS_LIM pd.toNat str
    let d := ((d.wr Reg.EST_STR_SOC_SOC_MIN lo str).wr Reg.EST_STR_SOC_SOC_MAX hi str).wr Reg.EST_STR_FLAGS_HFLAGS h str
    let d := ((d.wr Reg.EST_STR_FLAGS_REASONS mask str).wr Reg.EST_STR_FLAGS_FACTOR fac str).wr Reg.EST_STR_TAKE_TAKE k str
    let d := d.estSat ring (s1 || s2)
    let d := d.produce (0x4000 + ring) 1 (.pkt (mkHead (str + ring * 2 ^ 8))
      [mkItem (ts * 2 ^ 28 + lo * 2 ^ 14 + hi), mkItem (h * 2 ^ 48 + ic * 2 ^ 24 + idis), mkItem pc.toNat, mkItem pd.toNat])
    let d := if fac = oldFac ∧ mask = oldMask then d
      else d.produce (0x4000 + ring) 2 (.one (mkItem (ts * 2 ^ 28 + str * 2 ^ 20 + fac * 2 ^ 4 + mask)))
    let d := if fac < oldFac then d.raise Ev.EST_DERATE str (fac + mask * 2 ^ 16)
      else if fac = 32768 ∧ oldFac < 32768 then d.raise Ev.EST_DERATE_END str 0 else d
    let d := if bitAt h 1 && !bitAt oldH 1 then d.raise Ev.EST_FULL str k else d
    let d := if bitAt h 3 && !bitAt oldH 3 then d.raise Ev.EST_EMPTY str k else d
    (d, decide (fac < oldFac))

/-! ### Take closure (R233, R234) -/

/-- Whether an expected item of a Take is missing (R233). -/
def Dev.estGap (d : Dev) (ring : Nat) (x : TakeIn) : Bool :=
  let slots := (d.rl.cellNodes ring).flatMap (fun n => (setBits n.ndCellMask 16).map (fun j => n.ndCellBase + j))
  let strs := d.ringStrs ring
  (d.estBound ring 0 && slots.any (fun s => (x.vf.find s).isNone)) || (d.estBound ring 3 && slots.any (fun s => (x.raw.find s).isNone))
    || (d.estBound ring 4 && strs.any (fun s => (List.range 16).any (fun j => (x.cur.find (16 * s + j)).isNone)))
    || (d.estBound ring 5 && strs.any (fun s => (List.range (d.rl.cpt ring)).any (fun i => (x.chg.find (32 * s + i)).isNone)))

/-- The Take that the tile closes next, with the cycle of its Slate. -/
def Dev.estNext (d : Dev) (ring : Nat) : Option (Nat × Nat) :=
  let r := d.lr ring
  let l := (r.prev.toList ++ r.cur.toList).filter (fun p => (d.tile ring).isOpen p.1.take)
  (l.head?).map (fun p => (p.1.take, p.2))

/-- The channels whose snapshots fall due (R257). -/
def Dev.snapDue (d : Dev) (ring slate : Nat) (anchored derated : List Nat) : List Nat :=
  let all := ((d.ringStrs ring).flatMap d.strCells).map (fun x => x.2.2)
  let trig := d.rl.persist.u8 9
  let ival := d.rl.persist.u32 12
  let sec := slate / oneSec
  let byTime := match (d.tile ring).sec with
    | some s => decide (0 < ival) && decide (s / ival < sec / ival)
    | none => false
  if byTime || (bitAt trig 1 && d.est.wrapSnap.contains ring) then all
  else
    let repl := if bitAt trig 3 then (d.rl.cellNodes ring).filter (fun n => d.lnk.replaced.contains (nodeInst ring n.ndAddr)) else []
    all.filter (fun c => (bitAt trig 0 && anchored.contains c)
      || (bitAt trig 2 && derated.any (fun s => (d.strCells s).any (fun y => y.2.2 == c)))
      || repl.any (fun n => (n.cellSlots).any (fun s => 2048 * ring + s == c)))

/-- The Q_use range test at the first Take under a new image (R259). -/
def Dev.estRetest (d : Dev) (ring : Nat) : Dev :=
  if !(d.tile ring).retest then d
  else
    let d := d.setTile ring { d.tile ring with retest := false }
    (((d.ringStrs ring).flatMap d.strCells).map (fun x => x.2.2)).foldl (fun (d : Dev) c =>
      if d.quseOk c (d.quse c) then d else (d.setQuse c (d.quseDflt c)).breakChain c) d

/-- TAKE_CLOSURE: the tile closes its next Take and processes it. -/
def Dev.takeClosure (d : Dev) (ring : Nat) : Dev :=
  if !d.live ∨ d.blocked (0x4000 + ring) then d
  else match d.estNext ring with
    | none => d
    | some (k, cyc) =>
      let slate := cyc * 125000
      let x := (d.tile ring).inbox.get k {}
      let d := d.estRetest ring
      let d := if d.estGap ring x then d.raise Ev.EST_INPUT_GAP ring k else d
      let strs := d.ringStrs ring
      let (d, sts) := strs.foldl (fun (a : Dev × Tbl StrTake) s =>
        let (d, st) := a.1.strPart1 ring s k (a.1.rl.cpt ring) x
        (d, a.2.ins s st)) (d, [])
      let nodes := sortBy (fun a b => decide (a.ndCellBase ≤ b.ndCellBase)) (d.rl.cellNodes ring)
      let (d, anch, pols) := nodes.foldl (fun (a : Dev × List Nat × List Nat) n =>
        let (d, an, po) := (setBits n.ndCellMask 16).foldl (fun (a : Dev × List Nat × List Nat) j =>
          let ch := 2048 * ring + n.ndCellBase + j
          let (d, w, p) := a.1.cellPart ring n.ndString k slate n j ch (sts.get n.ndString {}) x
          (d, if w then a.2.1 ++ [ch] else a.2.1, if p then a.2.2 ++ [n.ndString] else a.2.2)) a
        (d.estNodePacket ring slate n, an, po)) (d, [], [])
      let (d, der) := strs.foldl (fun (a : Dev × List Nat) s =>
        let d := if pols.contains s then a.1.bump Reg.EST_STR_IMP_OBS_DONE 1 s else a.1
        let e := d.estr s
        let d := if e.obs.isSome && !(d.strCells s).any (fun c => (d.ech c.2.2).obs.isSome) then d.setEstr s { e with obs := none } else d
        let (d, f) := d.strPart3 ring s k cyc (sts.get s {})
        (d, if f then a.2 ++ [s] else a.2)) (d, [])
      let due := d.snapDue ring slate anch der
      let d := due.foldl (fun (d : Dev) c => d.snapshot c k) d
      let d := { d with lnk := { d.lnk with replaced := d.lnk.replaced.filter (fun i => i / 128 != ring) }, est := { d.est with wrapSnap := d.est.wrapSnap.filter (fun g => g != ring) } }
      let t := d.tile ring
      let d := d.setTile ring { t with next := some ((k + 1) % 2 ^ 32), inbox := t.inbox.filter (fun p => decide ((p.1 + 2 ^ 32 - (k + 1)) % 2 ^ 32 < 2 ^ 31)), sec := some (slate / oneSec) }
      d.wr Reg.EST_TILE_TAKE_TAKE k ring

/-- A write of `EST_CH_CTRL` (R260): its commands wait for the next Take; bits 3 and 4 together are ignored as a whole. -/
def Dev.estCommand (d : Dev) (ch bits : Nat) : Dev :=
  if !d.on Reg.EST_CH_STAT_USED ch ∨ (bitAt bits 3 && bitAt bits 4) then d
  else d.setEch ch { d.ech ch with cmd := (d.ech ch).cmd ||| bits % 64 }

end Sys2Proof.Machine
end

