-- ==== Sys2Proof/Machine/Fld.lean ====
section
/-!
DEFINITION. Machine/Fld.lean: CAN FD controllers and the call sheet (R436 to R441), quadrature decoders (R442 to R444), PWM outputs (R445), GPIO (R446)
and the debounced E-stop and fire inputs (R447).
-/
namespace Sys2Proof.Machine

/-- Whether FLD works: from entry to QUIET until the device leaves WRAP. -/
def Dev.plant (d : Dev) : Bool := d.mode == .quiet || d.live

def Dev.canCtl (d : Dev) (c : Nat) : CanCtl := d.fld.cans.get c {}
def Dev.setCan (d : Dev) (c : Nat) (x : CanCtl) : Dev := { d with fld := { d.fld with cans := d.fld.cans.set c x {} } }
def Dev.qdec (d : Dev) (q : Nat) : QDec := d.fld.qds.get q {}
def Dev.setQdec (d : Dev) (q : Nat) (x : QDec) : Dev := { d with fld := { d.fld with qds := d.fld.qds.set q x {} } }

/-! ### CAN (R436 to R441) -/

/-- The data length of a `DLC` under ISO 11898-1. -/
def canLen (dlc : Nat) : Nat := if dlc ≤ 8 then dlc else [12, 16, 20, 24, 32, 48, 64].getD (dlc - 9) 64

/-- The call-sheet position of a cycle (R437): basic cycle and slot, where a slot of `q` cycles starts at the boundary. -/
def sheetPos (k q : Nat) : Option (Nat × Nat) :=
  if q = 0 ∨ k % q ≠ 0 then none else some (k / q % 1024 / 64, k / q % 64)

/-- The slot record of a controller at a position. -/
def Reel.canSlot (r : Reel) (c cycle slot : Nat) : Option Rec :=
  r.pick secCall 2 (fun x => x.u8 8 == c && x.u8 9 == cycle && x.u8 10 == slot)

/-- The slot record in force at a position: the sheet of the image before a cut-over runs until basic cycle 0 (Table 4.5). -/
def Dev.sheetSlot (d : Dev) (c cycle slot : Nat) : Option Rec := match (d.canCtl c).sheet with
  | some l => l.find? (fun x => x.u8 8 == c && x.u8 9 == cycle && x.u8 10 == slot)
  | none => d.rl.canSlot c cycle slot

/-- Takes the newest complete unit of a queue and cuts every older one (R438): the queue, the unit, the older units, the items they held. -/
def Queue.takeNewest (q : Queue) : Queue × Option QUnit × Nat × Nat :=
  match q.units.reverse with
  | [] => (q, none, 0, 0)
  | u :: old => ({ q with units := [] }, some u, old.length, sumN (old.map QUnit.size))

/-- The bytes of a source unit, when it is a packet of the record's length without ERR (R439). -/
def canData (dlc : Nat) (u : QUnit) : Option (List Byte) :=
  match u with
  | .pkt h items =>
    let n := canLen dlc
    if itemErr h || itemBits h 53 7 != n || items.length != (n + 6) / 7 then none
    else some ((items.flatMap (fun i => toLe (itemBits i 0 56) 7)).take n)
  | _ => none

/-- A missed slot. -/
def Dev.canMiss (d : Dev) (c cycle slot : Nat) : Dev :=
  (d.bump Reg.FLD_CAN_CNT_MISS_CNT 1 c).raiseHeld Ev.FLD_CAN_MISS c oneSec c (fun n => slot + cycle * 256 + min n 65535 * 2 ^ 16)

/-- The end of a slot for a frame that has not been withdrawn: it went out, unless the controller is in bus-off. -/
def Dev.canWithdraw (d : Dev) (c : Nat) : Dev :=
  let x := d.canCtl c
  match x.frame with
  | none => d
  | some _ =>
    ((d.setCan c { x with frame := none }).bump Reg.FLD_CAN_CNT_ABORT_CNT 1 c).raiseHeld Ev.FLD_CAN_ABORT c oneSec c (fun _ => x.slot + x.cycle * 256)

/-- Closes the slot before: its frame counts as sent, or as withdrawn in bus-off. -/
def Dev.canClose (d : Dev) (c : Nat) : Dev :=
  let x := d.canCtl c
  if x.frame.isNone then d
  else if 3 ≤ d.rd Reg.FLD_CAN_STAT_STATE c then d.canWithdraw c
  else (d.setCan c { x with frame := none }).bump Reg.FLD_CAN_CNT_TX_CNT 1 c

/-- The slot of a controller that starts at the present boundary (R437 to R439); answers the payload of an actuating slot for `D_IO`. -/
def Dev.canSlot (d : Dev) (c : Nat) : Dev × List Byte :=
  match d.rl.can c with
  | none => (d, [])
  | some r =>
    match sheetPos d.cyc (r.u32 20 / 125) with
    | none => (d, [])
    | some (cycle, slot) =>
      let d := if cycle = 0 ∧ slot = 0 then d.setCan c { d.canCtl c with sheet := none } else d
      let d := ((d.canClose c).wr Reg.FLD_CAN_POS_SLOT slot c).wr Reg.FLD_CAN_POS_CYCLE cycle c
      match d.sheetSlot c cycle slot with
      | none => (d, [])
      | some x =>
        let qid := x.u32 16
        match d.qf.qs.find qid with
        | none => (d.canMiss c cycle slot, [])
        | some q =>
          let (q, u, old, cut) := q.takeNewest
          let d := d.setQueue qid { q := q, cuts := cut }
          let d := if old = 0 then d else d.bump Reg.FLD_CAN_CNT_SUPERSEDED_CNT old c
          match u with
          | none => (d.canMiss c cycle slot, [])
          | some u =>
            match canData (x.u8 20 % 16) u with
            | none =>
              let d := (d.bump Reg.FLD_CAN_CNT_TX_BAD_CNT 1 c).raiseHeld Ev.FLD_CAN_TX_BAD c oneSec c (fun _ => qid)
              (d.canMiss c cycle slot, [])
            | some data =>
              let act := bitAt (x.u8 11) 3
              let io := if act then data else []
              if 3 ≤ d.rd Reg.FLD_CAN_STAT_STATE c then (d.canMiss c cycle slot, io)
              else if (if act then d.actuates else d.live) then
                let d := d.setCan c { d.canCtl c with frame := some (x.u8 11, x.u32 12, data), slot := slot, cycle := cycle }
                (d.emit (.can c (x.u8 11 % 8) (x.u32 12) data), io)
              else (d, io)

/-- Every controller at a cycle boundary; the payloads of actuating slots in controller order. -/
def Dev.canBoundary (d : Dev) : Dev × List Byte :=
  if !d.plant then (d, [])
  else [0, 1, 2, 3].foldl (fun (a : Dev × List Byte) c => let (d, b) := a.1.canSlot c; (d, a.2 ++ b)) (d, [])

/-- CAN_SLOT_END: the frame of the slot has not begun. -/
def Dev.canSlotEnd (d : Dev) (c : Nat) : Dev := d.canWithdraw c

/-- CAN_FRAME_RECEIVE (R440, Table 17.9). -/
def Dev.canReceive (d : Dev) (c id : Nat) (ide fdf brs esi : Bool) (dlc : Nat) (data : List Byte) (sof : Nat) : Dev :=
  let n := if fdf then canLen dlc else min 8 dlc
  if !d.plant || (d.rl.can c).isNone || decide (3 ≤ d.rd Reg.FLD_CAN_STAT_STATE c) || data.length != n then d
  else
    match (d.recs secCall 3).find? (fun x => x.u8 8 == c && (id &&& x.u32 16) == (x.u32 12 &&& x.u32 16) && ide == bitAt (x.u8 9) 2) with
    | none => d.bump Reg.FLD_CAN_CNT_RX_DROP_CNT 1 c
    | some x =>
      let head := id % 2 ^ 29 + b2n ide * 2 ^ 29 + b2n fdf * 2 ^ 30 + b2n brs * 2 ^ 31 + b2n esi * 2 ^ 32 + dlc % 16 * 2 ^ 33 + n * 2 ^ 37
      let items := (List.range ((n + 6) / 7)).map (fun k => mkItem (le (padTo (slice data (7 * k) 7) 7) 0 7))
      (d.bump Reg.FLD_CAN_CNT_RX_CNT 1 c).qput (0xC000 + c) [x.u32 20] (.pkt (mkHead head) (mkItem (ts32 sof * 2 ^ 28) :: items))

/-- CAN_BUS_OFF (R441). -/
def Dev.canBusOff (d : Dev) (c tec : Nat) : Dev :=
  if d.rd Reg.FLD_CAN_STAT_STATE c ≠ 1 ∧ d.rd Reg.FLD_CAN_STAT_STATE c ≠ 2 then d
  else
    let d := ((d.wr Reg.FLD_CAN_STAT_STATE 3 c).wr Reg.FLD_CAN_STAT_TEC (min tec 255) c).wr Reg.FLD_CAN_POS_RECOVER 0 c
    (d.bump Reg.FLD_CAN_CNT_BUSOFF_CNT 1 c).raise Ev.FLD_CAN_BUSOFF c (min tec 255)

/-- CAN_RECOVER (R441). -/
def Dev.canRecover (d : Dev) (c : Nat) : Dev :=
  if d.rd Reg.FLD_CAN_STAT_STATE c < 3 then d
  else
    let d := (((d.wr Reg.FLD_CAN_STAT_STATE 1 c).clr Reg.FLD_CAN_STAT_TEC c).clr Reg.FLD_CAN_STAT_REC c).wr Reg.FLD_CAN_POS_RECOVER 128 c
    d.raise Ev.FLD_CAN_RECOVER c 0

/-- CAN_ERROR_PASSIVE (R441). -/
def Dev.canPassive (d : Dev) (c tec rcv : Nat) : Dev :=
  if d.rd Reg.FLD_CAN_STAT_STATE c ≠ 1 then d
  else
    let d := ((d.wr Reg.FLD_CAN_STAT_STATE 2 c).wr Reg.FLD_CAN_STAT_TEC (min tec 255) c).wr Reg.FLD_CAN_STAT_REC (min rcv 255) c
    d.raise Ev.FLD_CAN_PASSIVE c (min tec 255 + min rcv 255 * 256)

/-! ### Quadrature decoders (R442 to R444) -/

/-- The record of a decoder. -/
def Dev.qdRec (d : Dev) (q : Nat) : Rec := Rec.orEmpty ((d.recs secPio 1).find? (fun x => x.u8 8 == q))

/-- The step from one pair (A, B) to another: +1 in the order 00, 10, 11, 01. -/
def qdStep (a b a' b' : Bool) : Int :=
  let pos (x y : Bool) : Int := if x then (if y then 2 else 1) else (if y then 3 else 0)
  if (pos a' b' - pos a b) % 4 = 1 then 1 else if (pos a b - pos a' b') % 4 = 1 then -1 else 0

/-- Moves a count by a step (R444). -/
def Dev.qdMove (d : Dev) (q : Nat) (step : Int) : Dev :=
  let c := d.rdI Reg.FLD_QD_COUNT_COUNT q + (if d.on Reg.FLD_QD_CTRL_DIR q then -step else step)
  let (v, sat) := satS 28 c
  let d := d.wrI Reg.FLD_QD_COUNT_COUNT v q
  if sat && !d.on Reg.FLD_QD_STAT_SAT q then (d.set1 Reg.FLD_QD_STAT_SAT q).raise Ev.FLD_QD_SAT q (b2n (decide (0 < c))) else d

/-- An illegal change (R443). -/
def Dev.qdIllegal (d : Dev) (q : Nat) : Dev :=
  let d := d.bump Reg.FLD_QD_ERRCNT_CNT 1 q
  let n := d.rd Reg.FLD_QD_ERRCNT_CNT q
  if (d.qdRec q).u16 10 < n ∧ !d.on Reg.FLD_QD_STAT_ILL_RAISED q then
    (d.set1 Reg.FLD_QD_STAT_ILL_RAISED q).raise Ev.FLD_QD_ILLEGAL q (n + d.rd Reg.FLD_QD_COUNT_COUNT q % 2 ^ 24 * 2 ^ 16)
  else d

/-- QD_SAMPLE: the filtered levels of a sample. -/
def Dev.qdSample (d : Dev) (q : Nat) (a b z : Bool) : Dev :=
  if !d.plant || (d.qdRec q).u8 9 != 1 then d
  else
    let x := d.qdec q
    let both := a != x.a && b != x.b
    let d := if both then d.qdIllegal q else if a != x.a || b != x.b then d.qdMove q (qdStep x.refA x.refB a b) else d
    let d := if z && !x.z && d.on Reg.FLD_QD_CTRL_Z_EN q then d.wr Reg.FLD_QD_INDEX_INDEX (d.rd Reg.FLD_QD_COUNT_COUNT q) q else d
    (d.setQdec q { a := a, b := b, z := z, refA := a, refB := b }).wr Reg.FLD_QD_STAT_LEVELS (b2n a + b2n b * 2 + b2n z * 4) q

/-- A write of `FLD_QD_SET` (R444): a signed 28-bit preset. -/
def Dev.qdSet (d : Dev) (q v : Nat) : Dev := d.wrI Reg.FLD_QD_COUNT_COUNT (sx 28 v) q

/-- A write of `FLD_QD_ERRCNT` (R443). -/
def Dev.qdErr (d : Dev) (q v : Nat) : Dev :=
  let d := d.wr Reg.FLD_QD_ERRCNT_CNT v q
  if v % 65536 ≤ (d.qdRec q).u16 10 then d.clr Reg.FLD_QD_STAT_ILL_RAISED q else d

/-- The signal items of the decoders at a cycle boundary (R265, R444). -/
def Dev.qdBoundary (d : Dev) : Dev :=
  if !d.plant then d
  else (List.range 8).foldl (fun (d : Dev) q =>
    if (d.qdRec q).u8 9 = 1 then
      d.produce 0xE000 q (.one (mkItem (ts32 d.now * 2 ^ 28 + d.rd Reg.FLD_QD_COUNT_COUNT q % 2 ^ 28) ||| 0x2000000000000000#64))
    else d) d

/-! ### PWM (R445) -/

/-- The record of a channel. -/
def Dev.pwmRec (d : Dev) (p : Nat) : Option Rec := (d.recs secPio 2).find? (fun x => x.u8 8 == p)

/-- Whether an LPE output drives a channel (R284). -/
def Dev.pwmBound (d : Dev) (p : Nat) : Bool :=
  (d.recs secLoop 1).any (fun x => (List.range (x.u8 13)).any (fun n => let w := x.u32 (60 + 4 * n); bitAt w 31 && w / 2 ^ 24 % 16 == p))

/-- Whether a channel drives its ball. -/
def Dev.pwmDrive (d : Dev) (p : Nat) : Bool := (d.pwmRec p).isSome && d.actuates

/-- The period of a channel in ticks of 4 ns. -/
def pwmPeriod (freq : Nat) : Nat := if freq = 0 then 0 else (rhu 250000000 freq).toNat

/-- PWM_PERIOD_START: a period starts, and the duty in force is applied. -/
def Dev.pwmStart (d : Dev) (p : Nat) : Dev :=
  match d.pwmRec p with
  | none => d
  | some r =>
    let per := pwmPeriod (r.u32 12)
    if per = 0 ∨ d.now % (4 * per) ≠ 0 ∨ !d.plant then d
    else
      let duty : Nat :=
        if d.on Reg.FLD_PWM_STAT_BOUND p then
          (match ((d.fld.pwms.get p {}).duties.filter (fun x => decide (x.2 + 40000 ≤ d.now))).getLast? with
          | some x => x.1
          | none => d.rd Reg.FLD_PWM_STAT_DUTY p)
        else min (max (d.rd Reg.FLD_PWM_HOST_DUTY p) (r.u16 16)) (r.u16 18)
      let d := d.wr Reg.FLD_PWM_STAT_DUTY duty p
      if d.pwmDrive p then d.emit (.pin 1 p (rhu (duty * per : Nat) 32768).toNat) else d

/-- A timebase step ends the periods in progress with the outputs low (R445). -/
def Dev.pwmStep (d : Dev) : Dev :=
  (List.range 16).foldl (fun (d : Dev) p => if d.pwmDrive p then d.emit (.pin 1 p 0) else d) d

/-! ### GPIO and inputs (R446, R447) -/

/-- The record of a pin, and of an input. -/
def Dev.gpioRec (d : Dev) (n : Nat) : Option Rec := (d.recs secPio 3).find? (fun x => x.u8 8 == n)
def Dev.inputRec (d : Dev) (n : Nat) : Option Rec := (d.recs secPio 4).find? (fun x => x.u8 8 == n)

/-- GPIO_INPUT_CHANGE: the filtered level of a ball changes. -/
def Dev.gpioChange (d : Dev) (n : Nat) (level : Bool) : Dev :=
  if !d.plant then d
  else
    let r := d.gpioRec n
    let pol := match r with | some x => x.u8 10 == 1 | none => false
    let v := level != pol
    if bitAt (d.rd Reg.FLD_GPIO_IN_LEVEL) n == v then d
    else
      let d := d.wr Reg.FLD_GPIO_IN_LEVEL (setBit (d.rd Reg.FLD_GPIO_IN_LEVEL) n v)
      match r with
      | some x =>
        if x.u8 9 = 1 ∨ x.u32 12 = 0xFFFFF then d
        else d.qput 0xE001 [x.u32 12] (.one (mkItem (ts32 d.now * 2 ^ 28 + n * 2 ^ 8 + b2n v) ||| 0x2000000000000000#64))
      | none => d

/-- Drives the output pins that changed, or every output pin: in RUN and WRAP, in every role. -/
def Dev.gpioDrive (d : Dev) (old : Nat) (all : Bool) : Dev :=
  if !d.live then d
  else
    let now := d.rd Reg.FLD_GPIO_OUT_LEVEL
    (List.range 16).foldl (fun (d : Dev) n => match d.gpioRec n with
      | some x =>
        if x.u8 9 = 1 ∧ (all ∨ bitAt old n != bitAt now n) then d.emit (.pin 2 n (b2n (bitAt now n != (x.u8 10 == 1)))) else d
      | none => d) d

/-- A write of `FLD_GPIO_OUT`. -/
def Dev.gpioOut (d : Dev) (v : Nat) : Dev :=
  let old := d.rd Reg.FLD_GPIO_OUT_LEVEL
  (d.wr Reg.FLD_GPIO_OUT_LEVEL v).gpioDrive old false

/-- A debounced change of an input (R447); answers whether it asks for a Wrap. -/
def Dev.inputChange (d : Dev) (n : Nat) (level : Bool) : Dev × Bool :=
  if !d.plant then (d, false)
  else
    match d.inputRec n with
    | none => (d.wr Reg.FLD_SAFE_IN_LEVEL (setBit (d.rd Reg.FLD_SAFE_IN_LEVEL) n level), false)
    | some x =>
      let v := level != (x.u8 9 == 1)
      let d := d.wr Reg.FLD_SAFE_IN_LEVEL (setBit (d.rd Reg.FLD_SAFE_IN_LEVEL) n v)
      if bitAt (d.rd Reg.FLD_SAFE_IN_ACTIVE) n == v then (d, false)
      else
        let act := x.u8 10 % 4
        let d := d.wr Reg.FLD_SAFE_IN_ACTIVE (setBit (d.rd Reg.FLD_SAFE_IN_ACTIVE) n v)
        let d := d.produce 0xE002 0 (.one (mkItem (ts32 d.now * 2 ^ 28 + n * 2 ^ 8 + b2n v) ||| 0x2000000000000000#64))
        (d.raise (if v then Ev.FLD_INPUT_ON else Ev.FLD_INPUT_OFF) n act, v && act == 2)

/-! ### State changes -/

/-- What a structure gives FLD: controllers on or off, decoders enabled, channels defined and bound, pin directions, inputs defined. Counts and error
counts of decoders are kept (R444). -/
def Dev.fldBuild (d : Dev) : Dev :=
  let d := [0, 1, 2, 3].foldl (fun (d : Dev) c =>
    if (d.rl.can c).isNone then d.clr Reg.FLD_CAN_STAT_STATE c
    else if d.rd Reg.FLD_CAN_STAT_STATE c = 0 then d.wr Reg.FLD_CAN_STAT_STATE 1 c else d) d
  let d := (List.range 8).foldl (fun (d : Dev) q => d.wr Reg.FLD_QD_STAT_ENABLE (b2n ((d.qdRec q).u8 9 == 1)) q) d
  let d := (List.range 16).foldl (fun (d : Dev) p =>
    let d := (d.wr Reg.FLD_PWM_STAT_DEFINED (b2n (d.pwmRec p).isSome) p).wr Reg.FLD_PWM_STAT_BOUND (b2n (d.pwmBound p)) p
    d.wr Reg.FLD_PWM_PERIOD_PERIOD (match d.pwmRec p with | some r => pwmPeriod (r.u32 12) | none => 0) p) d
  let d := d.wr Reg.FLD_GPIO_DIR_OUT (sumN ((List.range 16).map (fun n => match d.gpioRec n with | some x => if x.u8 9 = 1 then 2 ^ n else 0 | none => 0)))
  d.wr Reg.FLD_SAFE_IN_DEFINED (sumN ((List.range 8).map (fun n => if (d.inputRec n).isSome then 2 ^ n else 0)))

/-- Leaving WRAP, or RUN for a state without plant I/O: the controllers are off. -/
def Dev.fldStop (d : Dev) : Dev :=
  let d := [0, 1, 2, 3].foldl (fun (d : Dev) c => (((d.clr Reg.FLD_CAN_STAT_STATE c).clr Reg.FLD_CAN_STAT_TEC c).clr Reg.FLD_CAN_STAT_REC c).setCan c {}) d
  { d with fld := { d.fld with pwms := [] } }

end Sys2Proof.Machine
end

