-- ==== Sys2Proof/Machine/Lpe.lean ====
section
/-!
DEFINITION. Machine/Lpe.lean: the loop engine (chapter 10). Contexts (R262), inputs and windows (R264 to R268), the tick (R269 to R273), gain scheduling
and transfer (R274 to R276), limits, supervision and loop states (R277 to R279), outputs (R280 to R282, R284).
-/
namespace Sys2Proof.Machine

def Dev.lctx (d : Dev) (c : Nat) : LCtx := d.lpe.ctx.get c {}
def Dev.setLctx (d : Dev) (c : Nat) (x : LCtx) : Dev := { d with lpe := { d.lpe with ctx := d.lpe.ctx.set c x {} } }

/-- Loop states (Table 10.2). -/
def lpIdle : Nat := 0
def lpRun : Nat := 1
def lpHold : Nat := 2
def lpSafe : Nat := 3
def lpLoss : Nat := 4

/-! ### Records (Table 3.13) -/

def Reel.loop1 (r : Reel) (c : Nat) : Rec := Rec.orEmpty (r.loopRec c 1)
def Reel.loop3 (r : Reel) (c : Nat) : Rec := Rec.orEmpty (r.loopRec c 3)
def Reel.loop4 (r : Reel) (c : Nat) : Rec := Rec.orEmpty (r.loopRec c 4)
def Rec.lpKind (x : Rec) : Nat := x.u8 10
def Rec.lpDiv (x : Rec) : Nat := x.u8 11
def Rec.lpNx (x : Rec) : Nat := x.u8 12
def Rec.lpNu (x : Rec) : Nat := x.u8 13
def Rec.lpNy (x : Rec) : Nat := x.u8 14
def Rec.lpNr (x : Rec) : Nat := x.u8 15
def Rec.lpNsv (x : Rec) : Nat := x.u8 16
def Rec.lpNreg (x : Rec) (k : Nat) : Nat := x.u8 (17 + k)
def Rec.lpSatAct (x : Rec) : Nat := x.u8 21
def Rec.lpSatTicks (x : Rec) : Nat := x.u16 22
def Rec.lpCarry (x : Rec) : Nat := x.u32 24
def Rec.lpMeas (x : Rec) (j : Nat) : Nat := x.u32 (28 + 4 * j)
def Rec.lpRef (x : Rec) (j : Nat) : Nat := x.u32 (44 + 4 * j)
def Rec.lpOut (x : Rec) (j : Nat) : Nat := x.u32 (60 + 4 * j)
def Rec.lpSv (x : Rec) (j : Nat) : Nat := x.u32 (76 + 4 * j)
def Rec.lpEdge (x : Rec) (e : Nat) : Int := x.s32 (12 + 4 * e)
def Rec.lpMap (x : Rec) (i : Nat) : Nat := x.u8 (40 + i)
def Rec.lpUmin (x : Rec) (n : Nat) : Int := x.s32 (16 + 4 * n)
def Rec.lpUmax (x : Rec) (n : Nat) : Int := x.s32 (32 + 4 * n)
def Rec.lpUrate (x : Rec) (n : Nat) : Int := x.s32 (48 + 4 * n)
def Rec.lpUsafe (x : Rec) (n : Nat) : Int := x.s32 (64 + 4 * n)
def Rec.lpScale (x : Rec) (e : Nat) : Int := x.s32 (80 + 4 * e)

/-- The coefficient record of a gain set. -/
def Reel.loopGain (r : Reel) (c g : Nat) : Rec := Rec.orEmpty (r.pick secLoop 2 (fun x => x.u16 8 == c && x.u8 10 == g))

/-- Coefficient k of a gain record, in the order of R77. -/
def Rec.coef (x : Rec) (k : Nat) : Int := x.s32 (16 + 4 * k)

/-- The matrices of a gain set: A[i][k], B[i][n], L[i][j], K[n][k], KR[n][m]. -/
def gA (l g : Rec) (i k : Nat) : Int := g.coef (i * l.lpNx + k)
def gB (l g : Rec) (i n : Nat) : Int := g.coef (l.lpNx * l.lpNx + i * l.lpNu + n)
def gL (l g : Rec) (i j : Nat) : Int := g.coef (l.lpNx * l.lpNx + l.lpNx * l.lpNu + i * l.lpNy + j)
def gK (l g : Rec) (n k : Nat) : Int := g.coef (l.lpNx * l.lpNx + l.lpNx * l.lpNu + l.lpNx * l.lpNy + n * l.lpNx + k)
def gKr (l g : Rec) (n m : Nat) : Int :=
  g.coef (l.lpNx * l.lpNx + l.lpNx * l.lpNu + l.lpNx * l.lpNy + l.lpNu * l.lpNx + n * l.lpNr + m)

/-- The device string of a context: the `DISP` record that names it (R281). -/
def Reel.loopString (r : Reel) (c : Nat) : Option Nat :=
  if (r.loop1 c).lpKind ≠ 0 then none
  else (r.pick secDisp 2 (fun x => x.u16 14 == c)).map (fun x => x.u16 8)

/-- The tick period of a context in ns (R269). -/
def Reel.tickNs (r : Reel) (c : Nat) : Nat := ((r.loop1 c).lpDiv + 1) * 125000

/-- W of R278. -/
def Reel.lossTicks (r : Reel) (c : Nat) : Nat := let p := r.tickNs c; max 64 ((100000000 + p - 1) / p)

/-! ### Inputs (R264 to R268) -/

/-- Kinds of input: greatest filtered voltage, greatest filtered temperature, mean current, signal; with the ring for the lag. -/
inductive LKind where
  | cell (ring : Nat)
  | temp (ring : Nat)
  | current (ring : Nat)
  | signal
deriving DecidableEq, Repr

/-- The kind of an input queue (Table 10.1), from the `ROUTE` record that binds it. -/
def Dev.lpeKind (d : Dev) (qid : Nat) : LKind :=
  match (d.recs secRoute 1).find? (fun x => x.u32 12 == qid) with
  | none => .signal
  | some x =>
    let s := x.u16 8
    let st := x.u16 10
    if 0x3000 ≤ s ∧ s < 0x3040 ∧ st = 0 then .cell (s - 0x3000)
    else if 0x3000 ≤ s ∧ s < 0x3040 ∧ st = 1 then .temp (s - 0x3000)
    else if 0x1000 ≤ s ∧ s < 0x1040 ∧ st = 2 then .current (s - 0x1000)
    else .signal

/-- The lag D of an input (Table 10.1). -/
def Dev.lpeLag (d : Dev) (k : LKind) : Nat :=
  match k with
  | .cell r => d.rl.cpt r * 125000 + 125000
  | .temp r => d.rl.cpt r * 125000 + 125000
  | .current r => d.rl.cpt r * 125000 + 125000
  | .signal => 125000

/-- An item that is not usable as a signal (R265). -/
def Dev.lpeBad (d : Dev) (c qid : Nat) : Dev :=
  (d.bump Reg.LPE_CTX_CNT_BAD 1 c).raiseHeld Ev.LPE_INPUT_BAD c oneSec c (fun _ => qid)

/-- Takes an item into its window, or discards it as late (R266). -/
def Dev.lpePut (d : Dev) (c : Nat) (lag : Nat) (it : LItem) : Dev :=
  let x := d.lctx c
  let late := match x.last with
    | some b => decide (0 ≤ tsDiff it.ts (ts32 (b + 2 ^ 32 - lag)))
    | none => false
  if late then
    (d.bump Reg.LPE_CTX_CNT_LATE 1 c).raiseHeld Ev.LPE_INPUT_LATE c oneSec c (fun n => it.qid + min n 255 * 2 ^ 24)
  else d.setLctx c { x with items := x.items ++ [it] }

/-- LPE_INPUT_ITEM: the context reads the next unit of one of its input queues. -/
def Dev.lpeInput (d : Dev) (c qid : Nat) : Dev :=
  match d.qf.qs.find qid with
  | none => d
  | some q =>
    if q.qd.consumer ≠ 0x5000 + c then d
    else match d.take qid with
      | (d, none) => d
      | (d, some u) =>
        let k := d.lpeKind qid
        let lag := d.lpeLag k
        match k, u with
        | .signal, .one it =>
          if itemErr it then d.lpeBad c qid
          else d.lpePut c lag { qid := qid, ts := itemBits it 28 32, grp := itemBits it 28 32, v := sx 28 (itemBits it 0 28), settling := false }
        | .signal, _ => d.lpeBad c qid
        | .cell _, .pkt h items =>
          if itemErr h then d
          else items.foldl (fun (d : Dev) it =>
            let f := itemBits it 0 12
            if bitAt f 8 then d
            else d.lpePut c lag { qid := qid, ts := itemBits it 28 32, grp := itemBits it 28 32, v := itemBits it 12 16, settling := bitAt f 11 }) d
        | .temp _, .pkt h items =>
          if itemErr h then d
          else items.foldl (fun (d : Dev) it =>
            let f := itemBits it 0 12
            if bitAt f 8 || bitAt f 10 then d
            else d.lpePut c lag { qid := qid, ts := itemBits it 28 32, grp := itemBits it 28 32, v := sx 16 (itemBits it 12 16), settling := bitAt f 11 }) d
        | .current r, .pkt h items =>
          let head := match d.rl.loopString c with
            | some s => (match d.rl.headOf s with | some n => n.ndRing == r && n.ndAddr == itemBits h 28 7 | none => false)
            | none => false
          if itemErr h || !head then d
          else items.foldl (fun (d : Dev) it =>
            if bitAt (itemBits it 0 4) 3 then d
            else d.lpePut c lag { qid := qid, ts := itemBits it 28 32, grp := itemBits (items.getD 0 0) 28 32, v := sx 24 (itemBits it 4 24), settling := false }) d
        | _, _ => d

/-- The value code of a queue at a tick with its `SETTLING` (Table 10.1), of the items in the window. -/
def reduceItems (k : LKind) (l : List LItem) : Option (Int × Bool) :=
  match k with
  | .signal => l.foldl (fun a it => match a with
      | none => some (it.ts, it.v)
      | some (t, v) => if 0 ≤ tsDiff t it.ts then some (it.ts, it.v) else some (t, v)) none |>.map (fun p => (p.2, false))
  | .current _ =>
    let g := l.foldl (fun a it => match a with
      | none => some it.grp
      | some t => if 0 ≤ tsDiff t it.grp then some it.grp else some t) (none : Option Nat)
    match g with
    | none => none
    | some g =>
      let vs := (l.filter (fun it => it.grp == g)).map (fun it => it.v)
      some (rhu (sumI vs) vs.length, false)
  | _ => l.foldl (fun a it => match a with
      | none => some (it.v, it.settling)
      | some (v, s) => if v < it.v then some (it.v, it.settling) else some (v, s)) none

/-- The items of a queue in the window of a tick at b (R266). -/
def LCtx.window (x : LCtx) (qid lag b : Nat) : List LItem :=
  let c := ts32 (b + 2 ^ 32 - lag)
  let p := match x.last with
    | some a => ts32 (a + 2 ^ 32 - lag)
    | none => ts32 (b + 2 ^ 32 - lag + 2 ^ 32 - oneSec)
  x.items.filter (fun it => it.qid == qid && decide (0 < tsDiff p it.ts) && decide (0 ≤ tsDiff it.ts c))

/-! ### The tick (R271) -/

/-- A sum of the sQ20.52 accumulator rounded and saturated into sQ8.24 (R33). -/
def roundSat (x : Int) : Int × Bool := satS 32 (rhu x (2 ^ 28))

/-- The unlimited output n without the transfer offset, as an exact sum. -/
def lpeSum (l : Rec) (k kr : Nat → Nat → Int) (x r : List Int) (n : Nat) : Int :=
  sumI ((List.range l.lpNx).map (fun i => -(k n i) * x.getD i 0)) + sumI ((List.range l.lpNr).map (fun m => kr n m * r.getD m 0))

/-- The limits of R277 on an unlimited output: the output, and whether it is saturated. -/
def lpeLimit (p : Rec) (n : Nat) (raw prev : Int) : Int × Bool :=
  let v := min (max raw (p.lpUmin n)) (p.lpUmax n)
  let rate := p.lpUrate n
  let u := if rate = 0 then v else min (max v (prev - rate)) (prev + rate)
  (u, v != raw || u != v)

/-- The region of a scheduling variable (R274). -/
def lpeRegion (l e : Rec) (k : Nat) (v : Int) : Nat :=
  if l.lpNsv ≤ k then 0
  else
    let first := if k = 0 then 0 else if k = 1 then 3 else 6
    ((List.range (l.lpNreg k - 1)).filter (fun i => decide (e.lpEdge (first + i) ≤ v))).length

/-- A sticky arithmetic flag of a context (R36): 0 `SAT`, 2 `DZ`. -/
def Dev.lpeArith (d : Dev) (c bit : Nat) (on : Bool) : Dev :=
  let f := if bit = 2 then Reg.LPE_CTX_ARITH_DZ else Reg.LPE_CTX_ARITH_SAT
  if !on || d.on f c then d else (d.set1 f c).raise Ev.LPE_ARITH c (2 ^ bit)

/-- The supervision record of R282. -/
def Dev.lpeRecord (d : Dev) (c cause : Nat) : Dev :=
  let str := d.rl.loopString c
  d.produce (0x5000 + c) 4 (.one (mkItem (ts32 d.now * 2 ^ 28 + c * 2 ^ 19 + d.rd Reg.LPE_CTX_STAT_STATE c * 2 ^ 16 + (str.getD 0) * 2 ^ 8
    + b2n str.isSome * 128 + d.rd Reg.LPE_CTX_FLAGS_DERATE c * 64 + d.rd Reg.LPE_CTX_FLAGS_SAT_OUT c * 4 + cause)))

/-- Shows the active gain set in the coefficient window (Table 10.12). -/
def Dev.lpeShow (d : Dev) (c g : Nat) : Dev :=
  let l := d.rl.loop1 c
  let r := d.rl.loopGain c g
  let put (d : Dev) (f : Field) (rows cols w : Nat) (v : Nat → Nat → Int) : Dev :=
    (List.range rows).foldl (fun (d : Dev) i => (List.range cols).foldl (fun (d : Dev) k => d.wrI f (v i k) c (w * i + k)) d) d
  let d := put d Reg.LPE_A_A l.lpNx l.lpNx 8 (gA l r)
  let d := put d Reg.LPE_B_B l.lpNx l.lpNu 4 (gB l r)
  let d := put d Reg.LPE_L_L l.lpNx l.lpNy 4 (gL l r)
  let d := put d Reg.LPE_K_K l.lpNu l.lpNx 8 (gK l r)
  put d Reg.LPE_KR_KR l.lpNu l.lpNr 4 (gKr l r)

/-- Enters a loop state at a tick (Table 10.3): the state, the derate request, the record and the event. -/
def Dev.lpeEnter (d : Dev) (c st cause : Nat) : Dev :=
  let old := d.rd Reg.LPE_CTX_STAT_STATE c
  if old = st then d
  else
    let str := d.rl.loopString c
    let d := d.wr Reg.LPE_CTX_STAT_STATE st c
    let d := d.wr Reg.LPE_CTX_FLAGS_DERATE (b2n (str.isSome && (st == lpSafe || st == lpLoss))) c
    let d := d.setLctx c { d.lctx c with clear := 0, seen := [] }
    let d := d.lpeRecord c cause
    if st = lpHold then d.raise Ev.LPE_HOLD c (d.rd Reg.LPE_CTX_FLAGS_SAT_OUT c)
    else if st = lpSafe then d.raise Ev.LPE_SAFE c (cause + str.getD 0 * 2 ^ 8 + b2n str.isSome * 2 ^ 16)
    else if st = lpLoss then d.raise Ev.LPE_LOSS c (d.rd Reg.LPE_CTX_FLAGS_LOST c)
    else if st = lpRun ∧ old ≠ lpIdle then d.raise Ev.LPE_RESUMED c old
    else d

/-- t_sat has reached `SAT_TICKS` (R279): the event once for the episode, and the action of `SAT_ACT`. -/
def Dev.lpeExpire (d : Dev) (c : Nat) : Dev :=
  let l := d.rl.loop1 c
  let x := d.lctx c
  if d.rd Reg.LPE_CTX_STAT_STATE c ≠ lpRun ∨ d.rd Reg.LPE_CTX_SATT_T_SAT c < l.lpSatTicks ∨ x.expired ∨ l.lpSatTicks = 0 then d
  else
    let d := (d.setLctx c { x with expired := true }).raise Ev.LPE_SAT_EXPIRED c (d.rd Reg.LPE_CTX_FLAGS_SAT_OUT c + l.lpSatAct % 4 * 16)
    if l.lpSatAct = 2 then d.lpeEnter c lpSafe 0 else if l.lpSatAct = 1 then d.lpeEnter c lpHold 0 else d

/-- A measurement is lost (R278, R279). -/
def Dev.lpeLose (d : Dev) (c : Nat) : Dev :=
  let st := d.rd Reg.LPE_CTX_STAT_STATE c
  let l := d.rl.loop1 c
  let w := d.rl.lossTicks c
  let lost := sumN ((List.range l.lpNy).map (fun j => b2n (decide (w ≤ d.rd Reg.LPE_AGE_AGE c j)) * 2 ^ j))
  let d := d.wr Reg.LPE_CTX_FLAGS_LOST lost c
  if lost ≠ 0 ∧ (st = lpRun ∨ st = lpHold) then d.lpeEnter c lpLoss 1 else d

/-- Writes the output items and PWM duties of a tick (R280, R284). -/
def Dev.lpeOutput (d : Dev) (c n : Nat) (u : Int) : Dev :=
  let l := d.rl.loop1 c
  let s := (d.rl.loop4 c).lpScale (8 + n)
  let target := l.lpOut n
  let exact := if s = 0 then 0 else rdiv (u * 16) s
  let d := d.lpeArith c 2 (s == 0)
  let own := target % 2 ^ 20
  let qs := ((if own = 0xFFFFF then [] else [own]) ++ d.rl.routes (0x5000 + c) n).dedup
  let d := qs.foldl (fun (d : Dev) qid => match d.qf.qs.find qid with
    | none => d
    | some q =>
      if 0x2000 ≤ q.qd.consumer ∧ q.qd.consumer < 0x2040 then
        let (v, sat) := satS 32 exact
        let addr := match d.rl.loopString c with
          | some st => (match d.rl.headOf st with | some h => h.ndAddr | none => 0)
          | none => 0
        (d.lpeArith c 0 sat).qput (0x5000 + c) [qid]
          (.pkt (mkHead 0) [mkItem (0x19 * 2 ^ 52 + 5 * 2 ^ 36), mkItem (addr + code 32 v * 2 ^ 8)])
      else
        let (v, sat) := satS 28 exact
        (d.lpeArith c 0 sat).qput (0x5000 + c) [qid] (.one (mkItem (ts32 d.now * 2 ^ 28 + code 28 v)))) d
  if bitAt target 31 then
    let (v, sat) := satTo 0 65535 exact
    let p := target / 2 ^ 24 % 16
    let d := d.lpeArith c 0 sat
    match d.rl.pick secPio 2 (fun x => x.u8 8 == p) with
    | some x =>
      let old := (d.fld.pwms.get p {}).duties
      let new := old.drop (old.length - 1) ++ [(min (max v.toNat (x.u16 16)) (x.u16 18), d.now)]
      { d with fld := { d.fld with pwms := d.fld.pwms.ins p { duties := new } } }
    | none => d
  else d

/-- What a tick reads of its inputs: measurements with presence, references, scheduling variables with whether each took a new value that does not
settle. -/
structure LIn where
  y : List (Option (Int × Bool))
  r : List Int
  sv : List (Int × Bool)
deriving DecidableEq, Repr

/-- The inputs of a tick at the present boundary (R266 to R268, R272). -/
def Dev.lpeRead (d : Dev) (c : Nat) : LIn × Bool :=
  let l := d.rl.loop1 c
  let p := d.rl.loop4 c
  let x := d.lctx c
  let val (q : Nat) : Option (Int × Bool) := let k := d.lpeKind q; reduceItems k (x.window q (d.lpeLag k) d.now)
  let scaled (q e : Nat) : Option (Int × Bool × Bool) := (val q).map (fun z => let (v, s) := satS 32 (rhu (z.1 * p.lpScale e) 16); (v, z.2, s))
  let ms := (List.range l.lpNy).map (fun j => scaled (l.lpMeas j) j)
  let rs := (List.range l.lpNr).map (fun m => scaled (l.lpRef m) (4 + m))
  let r := (List.range l.lpNr).map (fun m => match rs.getD m none with
    | some (v, _, _) => v
    | none => x.refs.getD m 0)
  let sv := (List.range l.lpNsv).map (fun k =>
    let q := l.lpSv k
    let old := d.rdI Reg.LPE_SV_SV c k
    let of (o : Option (Int × Bool × Bool)) : Int × Bool := match o with
      | some (v, s, _) => (v, !s)
      | none => (old, false)
    match (List.range l.lpNy).find? (fun j => l.lpMeas j == q) with
    | some j => of (ms.getD j none)
    | none => match (List.range l.lpNr).find? (fun m => l.lpRef m == q) with
      | some m => of (rs.getD m none)
      | none => match val q with
        | some (v, s) => (v, !s)
        | none => (old, false))
  let sat := (ms ++ rs).any (fun o => match o with | some (_, _, s) => s | none => false)
  ({ y := ms.map (fun o => o.map (fun v => (v.1, v.2.1))), r := r, sv := sv }, sat)

/-- Gain scheduling (R275): the active index, the candidate and its count after an evaluation of index `i`. -/
def lpeCandidate (active cand count i : Nat) : Nat × Nat × Nat :=
  if i = active then (active, active, 0)
  else
    let n := if i = cand ∧ 0 < count then count + 1 else 1
    if 3 ≤ n then (i, i, 0) else (active, i, n)

/-- One tick of a context at the present boundary (R271 to R279). -/
def Dev.lpeTick (d : Dev) (c : Nat) : Dev :=
  let l := d.rl.loop1 c
  let p := d.rl.loop4 c
  let x := d.lctx c
  let st := d.rd Reg.LPE_CTX_STAT_STATE c
  let first := x.fresh
  -- 1. inputs
  let (inp, isat) := d.lpeRead c
  let d := d.lpeArith c 0 isat
  let xOld := (List.range l.lpNx).map (fun i => d.rdI Reg.LPE_X_X c i)
  let resetX := bitAt x.cmd 2
  let xs := if resetX then xOld.map (fun _ => 0) else xOld
  let ys := (List.range l.lpNy).map (fun j => match inp.y.getD j none with
    | some (v, _) => v
    | none => xs.getD j 0)
  let absent := sumN ((List.range l.lpNy).map (fun j => b2n (inp.y.getD j none).isNone * 2 ^ j))
  let d := (List.range l.lpNy).foldl (fun (d : Dev) j =>
    (d.wr Reg.LPE_AGE_AGE (if bitAt absent j then satAdd 16 (d.rd Reg.LPE_AGE_AGE c j) 1 else 0) c j).wrI Reg.LPE_Y_Y (ys.getD j 0) c j) d
  let d := d.wr Reg.LPE_CTX_FLAGS_ABSENT absent c
  let zero := d.mode == .wrap && l.lpKind == 0
  let rOld := if x.wrapZero then inp.r.map (fun _ => 0) else inp.r
  let rs := if zero then inp.r.map (fun _ => 0) else inp.r
  let d := (List.range l.lpNr).foldl (fun (d : Dev) m => d.wrI Reg.LPE_R_R (rs.getD m 0) c m) d
  let d := (List.range l.lpNsv).foldl (fun (d : Dev) k => d.wrI Reg.LPE_SV_SV (inp.sv.getD k (0, false)).1 c k) d
  -- 2. gain set
  let e := d.rl.loop3 c
  let g := d.rd Reg.LPE_CTX_STAT_GAIN c
  let evaluate := inp.sv.any (fun v => v.2)
  let reg (k : Nat) : Nat := lpeRegion l e k (inp.sv.getD k (0, false)).1
  let (act, cand, cnt) := if evaluate then
      lpeCandidate (d.rd Reg.LPE_CTX_STAT_REGION c) (d.rd Reg.LPE_CTX_STAT_CAND c) (d.rd Reg.LPE_CTX_STAT_CAND_COUNT c) (reg 0 + 4 * reg 1 + 16 * reg 2)
    else (d.rd Reg.LPE_CTX_STAT_REGION c, d.rd Reg.LPE_CTX_STAT_CAND c, d.rd Reg.LPE_CTX_STAT_CAND_COUNT c)
  let d := ((d.wr Reg.LPE_CTX_STAT_REGION act c).wr Reg.LPE_CTX_STAT_CAND cand c).wr Reg.LPE_CTX_STAT_CAND_COUNT cnt c
  let gn := e.lpMap act
  let d := if gn = g then d
    else ((d.wr Reg.LPE_CTX_STAT_GAIN gn c).lpeShow c gn).raise Ev.LPE_GAIN_SWITCH c (gn + g * 2 ^ 8 + act * 2 ^ 16)
  -- 3. unlimited outputs
  let go := d.rl.loopGain c g
  let gg := d.rl.loopGain c gn
  let j0 := d.rd Reg.LPE_CTX_FLAGS_BUMP_J c
  let jn := if j0 < 16 then j0 + 1 else 16
  let prev := (List.range l.lpNu).map (fun n => if first && x.oldK.isNone then p.lpUsafe n else d.rdI Reg.LPE_U_U c n)
  let off (n : Nat) : Int := if jn < 16 then d.rdI Reg.LPE_D0_D0 c n * ((16 - jn : Nat) : Int) * 2 ^ 24 else 0
  let newSum (n : Nat) : Int := lpeSum l (gK l gg) (gKr l gg) xs rs n
  let oldSum (n : Nat) : Int := match x.oldK with
    | some (k, kr) => lpeSum l (fun n i => k.getD (n * l.lpNx + i) 0) (fun n m => kr.getD (n * l.lpNr + m) 0) xOld rOld n
    | none => lpeSum l (gK l go) (gKr l go) xOld rOld n
  let uOld (n : Nat) : Int :=
    if first && x.oldK.isNone then p.lpUsafe n
    else if st = lpHold then d.rdI Reg.LPE_U_U c n
    else if st = lpSafe ∨ st = lpLoss then p.lpUsafe n
    else (roundSat (oldSum n + off n)).1
  let change0 := first || gn != g || resetX || zero != x.wrapZero
  let raw (chg : Bool) (n : Nat) : Int × Int × Bool :=
    if chg then
      let (un, s1) := roundSat (newSum n)
      let (d0, s2) := satS 32 (uOld n - un)
      let (r, s3) := roundSat (newSum n + d0 * 2 ^ 28)
      (r, d0, s1 || s2 || s3)
    else
      let (r, s) := roundSat (newSum n + off n)
      (r, d.rdI Reg.LPE_D0_D0 c n, s)
  let lim0 := (List.range l.lpNu).map (fun n => lpeLimit p n (raw change0 n).1 (prev.getD n 0))
  let sat0 := sumN ((List.range l.lpNu).map (fun n => b2n (lim0.getD n (0, false)).2 * 2 ^ n))
  -- 4. supervision and loop state
  let d := d.wr Reg.LPE_CTX_FLAGS_SAT_OUT sat0 c
  let tsat := d.rd Reg.LPE_CTX_SATT_T_SAT c
  let d := if st = lpRun ∨ st = lpIdle then
      let t := if sat0 = 0 then 0 else satAdd 16 tsat 1
      let d := (d.wr Reg.LPE_CTX_SATT_T_SAT t c).wr Reg.LPE_CTX_SATT_T_SAT_PEAK (max t (d.rd Reg.LPE_CTX_SATT_T_SAT_PEAK c)) c
      if sat0 = 0 then d.setLctx c { d.lctx c with expired := false } else d
    else d
  let seen := (List.range l.lpNy).map (fun j => x.seen.getD j 0 + b2n (!bitAt absent j))
  let clear := if sat0 = 0 then x.clear + 1 else 0
  let d := d.setLctx c { d.lctx c with seen := seen, clear := clear, cmd := 0, refs := inp.r, wrapZero := zero, fresh := false, oldK := none, last := some d.now, items := x.items.filter (fun it => decide (tsDiff it.ts (ts32 (d.now + 2 ^ 32 - d.lpeLag (d.lpeKind it.qid))) < 0)) }
  let d := if st = lpIdle then d.lpeEnter c lpRun 3 else d
  let d := if bitAt x.cmd 1 then d.lpeEnter c lpSafe 2
    else
      let d := if d.rd Reg.LPE_CTX_STAT_STATE c = lpRun ∧ l.lpSatAct = 2 then d.lpeExpire c else d
      let d := d.lpeLose c
      let d := d.lpeExpire c
      if d.rd Reg.LPE_CTX_STAT_STATE c ≠ st then d
      else if st = lpHold ∧ 16 ≤ clear then d.lpeEnter c lpRun 0
      else if st = lpLoss ∧ seen.all (fun n => decide (3 ≤ n)) then d.lpeEnter c lpRun 1
      else if bitAt x.cmd 0 ∧ st = lpSafe then
        (if d.rd Reg.LPE_CTX_FLAGS_LOST c = 0 then d.lpeEnter c lpRun 2 else d.set1 Reg.LPE_CTX_ERR_RESUME_REFUSED c)
      else d
  let sn := d.rd Reg.LPE_CTX_STAT_STATE c
  let back := sn == lpRun && (st == lpHold || st == lpSafe || st == lpLoss)
  let change := change0 || back
  let raws := (List.range l.lpNu).map (fun n => raw change n)
  let lims := (List.range l.lpNu).map (fun n => lpeLimit p n (raws.getD n (0, 0, false)).1 (prev.getD n 0))
  let us := (List.range l.lpNu).map (fun n =>
    if sn = lpRun then (lims.getD n (0, false)).1
    else if sn = lpHold then (if st = lpHold then prev.getD n 0 else (lims.getD n (0, false)).1)
    else p.lpUsafe n)
  let d := d.wr Reg.LPE_CTX_FLAGS_SAT_OUT (sumN ((List.range l.lpNu).map (fun n => b2n (lims.getD n (0, false)).2 * 2 ^ n))) c
  let d := d.wr Reg.LPE_CTX_FLAGS_BUMP_J (if change then 0 else jn) c
  let d := d.lpeArith c 0 (raws.any (fun r => r.2.2))
  -- 5. outputs
  let d := (List.range l.lpNu).foldl (fun (d : Dev) n =>
    let d := ((d.wrI Reg.LPE_U_RAW_U_RAW (raws.getD n (0, 0, false)).1 c n).wrI Reg.LPE_D0_D0 (raws.getD n (0, 0, false)).2.1 c n).wrI Reg.LPE_U_U (us.getD n 0) c n
    d.lpeOutput c n (us.getD n 0)) d
  -- 6. observer
  let nx := (List.range l.lpNx).map (fun i =>
    roundSat (sumI ((List.range l.lpNx).map (fun k => gA l gg i k * xs.getD k 0)) + sumI ((List.range l.lpNu).map (fun n => gB l gg i n * us.getD n 0))
      + sumI ((List.range l.lpNy).map (fun j => gL l gg i j * ys.getD j 0))))
  let d := (List.range l.lpNx).foldl (fun (d : Dev) i => d.wrI Reg.LPE_X_X (nx.getD i (0, false)).1 c i) d
  (d.lpeArith c 0 (nx.any (fun v => v.2))).wr Reg.LPE_CTX_TICK_CYCLE d.cyc c

/-- A tick of a context that still waits under BLOCK is skipped (R270). -/
def Dev.lpeSkip (d : Dev) (c : Nat) : Dev :=
  (d.bump Reg.LPE_CTX_CNT_SKIPPED 1 c).raise Ev.LPE_TICK_SKIP c (d.cyc % 2 ^ 32)

/-- The ticks that fall at the present boundary (R262, R269, R270), in context order. -/
def Dev.lpeBoundary (d : Dev) : Dev :=
  if !d.live then d
  else (sortBy (fun a b => decide (a ≤ b)) d.rl.loops).foldl (fun (d : Dev) c =>
    if d.cyc % ((d.rl.loop1 c).lpDiv + 1) ≠ 0 then d
    else if d.blocked (0x5000 + c) then d.lpeSkip c
    else d.lpeTick c) d

/-- A built context before its first tick: state 0, offsets 0, outputs at `U_SAFE` (R262). -/
def Dev.lpeFresh (d : Dev) (c : Nat) : Dev :=
  let d := d.setLctx c {}
  let d := (List.range 8).foldl (fun (d : Dev) i => d.wr Reg.LPE_X_X 0 c i) d
  let d := (List.range 4).foldl (fun (d : Dev) n => (d.wr Reg.LPE_D0_D0 0 c n).wrI Reg.LPE_U_U ((d.rl.loop4 c).lpUsafe n) c n) d
  let d := (List.range 4).foldl (fun (d : Dev) j => (d.wr Reg.LPE_AGE_AGE 0 c j).wr Reg.LPE_R_R 0 c j) d
  let d := (List.range 3).foldl (fun (d : Dev) k => d.wr Reg.LPE_SV_SV 0 c k) d
  let d := d.setWord (Reg.LPE_CTX_STAT_STATE.addr c 0) 0
  let g := (d.rl.loop3 c).lpMap 0
  let d := (d.wr Reg.LPE_CTX_STAT_GAIN g c).lpeShow c g
  let d := (d.setWord (Reg.LPE_CTX_FLAGS_ABSENT.addr c 0) 0).wr Reg.LPE_CTX_FLAGS_BUMP_J 16 c
  d.wr Reg.LPE_CTX_SATT_T_SAT 0 c

/-- Starts every built context on entry to RUN (R262, R277). -/
def Dev.lpeStart (d : Dev) : Dev := d.rl.loops.foldl (fun (d : Dev) c => d.lpeFresh c) d

/-- Every built context goes to IDLE when the device leaves RUN and WRAP (Table 10.3). -/
def Dev.lpeStop (d : Dev) : Dev :=
  d.rl.loops.foldl (fun (d : Dev) c => d.lpeEnter c lpIdle 3) d

/-- The configuration registers of a built context (Tables 10.8, 10.13). -/
def Dev.lpeBuild (d : Dev) (c : Nat) : Dev :=
  let l := d.rl.loop1 c
  let e := d.rl.loop3 c
  let p := d.rl.loop4 c
  let str := d.rl.loopString c
  let d := (((d.wr Reg.LPE_CTX_CFG0_DIV l.lpDiv c).wr Reg.LPE_CTX_CFG0_NX l.lpNx c).wr Reg.LPE_CTX_CFG0_NU l.lpNu c).wr Reg.LPE_CTX_CFG0_NY l.lpNy c
  let d := ((d.wr Reg.LPE_CTX_CFG0_NR l.lpNr c).wr Reg.LPE_CTX_CFG0_NSV l.lpNsv c).wr Reg.LPE_CTX_CFG0_NGAIN (l.u8 20) c
  let d := (((d.wr Reg.LPE_CTX_CFG1_KIND l.lpKind c).set1 Reg.LPE_CTX_CFG1_BUILT c).wr Reg.LPE_CTX_CFG1_HAS_STRING (b2n str.isSome) c).wr
    Reg.LPE_CTX_CFG1_STRING (str.getD 0) c
  let d := ((d.wr Reg.LPE_CTX_CFG1_SAT_ACT l.lpSatAct c).wr Reg.LPE_CTX_CFG2_SAT_TICKS l.lpSatTicks c).wr
    Reg.LPE_CTX_CFG2_LOSS_TICKS (min (d.rl.lossTicks c) 65535) c
  let d := (List.range 4).foldl (fun (d : Dev) n =>
    let d := ((d.wrI Reg.LPE_U_MIN_V (p.lpUmin n) c n).wrI Reg.LPE_U_MAX_V (p.lpUmax n) c n).wrI Reg.LPE_U_RATE_V (p.lpUrate n) c n
    let d := ((d.wrI Reg.LPE_U_SAFE_V (p.lpUsafe n) c n).wr Reg.LPE_MEAS_QID_QID (l.lpMeas n) c n).wr Reg.LPE_REF_QID_QID (l.lpRef n) c n
    d.wr Reg.LPE_OUT_OUT (l.lpOut n) c n) d
  let d := (List.range 3).foldl (fun (d : Dev) k => d.wr Reg.LPE_SV_QID_QID (l.lpSv k) c k) d
  let d := (List.range 12).foldl (fun (d : Dev) k => d.wrI Reg.LPE_SCALE_V (p.lpScale k) c k) d
  let d := (List.range 7).foldl (fun (d : Dev) k => d.wrI Reg.LPE_EDGE_V (e.lpEdge k) c k) d
  let d := (List.range 8).foldl (fun (d : Dev) k => d.wr Reg.LPE_MAP_V (e.u32 (40 + 4 * k)) c k) d
  (List.range 4).foldl (fun (d : Dev) n => d.wrI Reg.LPE_U_U (p.lpUsafe n) c n) d

/-- A write of `LPE_CTX_CTRL` (Table 10.10): its commands wait for the next tick; `RESUME` outside SAFE is ignored. -/
def Dev.lpeCommand (d : Dev) (c bits : Nat) : Dev :=
  if !d.on Reg.LPE_CTX_CFG1_BUILT c then d
  else d.setLctx c { d.lctx c with cmd := (d.lctx c).cmd ||| bits % 8 }

end Sys2Proof.Machine
end

