-- ==== Sys2Proof/Machine/Tb.lean ====
section
/-!
DEFINITION. Machine/Tb.lean: the timebase (chapter 6). Phase sources and their selection (R153, R154), PTP ports (R155 to R157), slew and step (R158,
R159), the states of Table 6.3, holdover and temperature compensation (R161, R162), Slate lock (R165) and board time (R166 to R168).
-/
namespace Sys2Proof.Machine

/-! ### Codes -/

/-- States of Table 6.3. -/
def tbFree : Nat := 0
def tbAcquiring : Nat := 1
def tbLocked : Nat := 2
def tbHoldover : Nat := 3
def tbHoldLong : Nat := 4

/-- Codes of `TB_STATUS.SRC`. -/
def srcPtp : Nat := 1
def srcPps : Nat := 2
def srcBoard : Nat := 3
def srcHost : Nat := 4

/-- `TB_CTRL.QUALIFY`, held to its range of 4 to 64. -/
def Dev.qualify (d : Dev) : Nat := min 64 (max 4 (d.rd Reg.TB_CTRL_QUALIFY))

/-- `TB_CTRL.SLEW_MAX` in 10⁻⁶; a value outside 1 to 30 is taken as 30. -/
def Dev.slewMax (d : Dev) : Nat := let v := d.rd Reg.TB_CTRL_SLEW_MAX; if 1 ≤ v ∧ v ≤ 30 then v else 30

/-- A signed value of a saturating 32-bit field. -/
def sat32 (v : Int) : Int := clampS 32 v

/-! ### Temperature (R161, R456) -/

/-- The temperature that the Gaffer supplied last (R161, R461). -/
def Dev.tbTemp (d : Dev) : Int := d.gaf.refTemp

/-- The bin of a temperature code (R161). -/
def tcompBin (temp : Int) : Option Nat :=
  let b := Int.fdiv (temp + 4000) 500
  if 0 ≤ b ∧ b < 32 then some b.toNat else none

/-- The centre of a bin as a temperature code. -/
def tcompCentre (b : Nat) : Int := -3750 + 500 * (b : Int)

/-- Linear interpolation between the centres of the two nearest valid bins (R162); `none` where no bin is valid. -/
def Dev.ftab (d : Dev) (temp : Int) : Option Int :=
  let bins := (List.range 32).filter (fun b => d.on Reg.TB_TCOMP_INFO_VALID b)
  let f (b : Nat) : Int := d.rdI Reg.TB_TCOMP_FREQ_FREQ b
  let lo := (bins.filter (fun b => decide (tcompCentre b ≤ temp))).getLast?
  let hi := (bins.filter (fun b => decide (temp ≤ tcompCentre b))).head?
  match lo, hi with
  | none, none => none
  | some a, none => some (f a)
  | none, some b => some (f b)
  | some a, some b =>
    if a = b then some (f a)
    else some (f a + rhu ((f b - f a) * (temp - tcompCentre a)) (tcompCentre b - tcompCentre a).toNat)

/-! ### Frequency -/

/-- Whether a phase source is selected. -/
def Dev.phaseSel (d : Dev) : Bool := let s := d.rd Reg.TB_STATUS_SRC; s == srcPtp || s == srcPps || s == srcBoard

/-- The servo's frequency correction after an accepted offset: a free value within ±500 × 10⁻⁶, since the spec gives the servo a time constant and
no gains (assumption log 2). -/
def Dev.servo (d : Dev) : Dev :=
  let (d, v) := d.fresh
  let f := (satTo (-500000000) 500000000 (sx 32 v)).1
  let old := d.tb.freqs.filter (fun x => decide (d.own < x.1 + 64 * oneSec))
  { (d.wrI Reg.TB_FREQ_FREQ f) with tb := { d.tb with freqs := old ++ [(d.own, f)] } }

/-- The mean frequency correction over the last n ns in which a source was selected. -/
def Dev.meanFreq (d : Dev) (n : Nat) : Int :=
  let l := (d.tb.freqs.filter (fun x => decide (d.own < x.1 + n))).map (fun x => x.2)
  if l.isEmpty then d.rdI Reg.TB_FREQ_FREQ else rhu (sumI l) l.length

/-! ### States, locking, holdover -/

/-- Goes to LOCKED when no slew is in progress and `QUALIFY` consecutive offsets were 100 ns or less (Table 6.3). -/
def Dev.tbLock (d : Dev) : Dev :=
  if d.rd Reg.TB_STATUS_STATE = tbAcquiring ∧ d.tb.slew.isNone ∧ d.tb.step.isNone ∧ d.tb.stepReq.isNone ∧ d.qualify ≤ d.tb.good ∧ d.phaseSel then
    (d.wr Reg.TB_STATUS_STATE tbLocked).raise Ev.TB_LOCKED (d.rd Reg.TB_STATUS_SRC) (d.rd Reg.TB_OFFSET_THETA)
  else d

/-- Ends a slew. -/
def Dev.endSlew (d : Dev) : Dev := { (d.clr Reg.TB_STATUS_SLEWING) with tb := { d.tb with slew := none } }

/-- Begins to slew an offset. -/
def Dev.beginSlew (d : Dev) (theta : Int) : Dev :=
  let d := { (d.set1 Reg.TB_STATUS_SLEWING) with tb := { d.tb with slew := some (theta, d.own) } }
  if d.rd Reg.TB_STATUS_STATE = tbLocked then d.wr Reg.TB_STATUS_STATE tbAcquiring else d

/-- `TB_HOLD_ERR` and `TB_HOLD_TIME` from the bound e, kept in 10⁻⁴ ns. -/
def Dev.putE (d : Dev) (e : Nat) : Dev :=
  { (d.wr Reg.TB_HOLD_ERR_E (min (rhu (e : Int) 10000).toNat (2 ^ 32 - 1))) with tb := { d.tb with e := e } }

/-- Enters HOLDOVER on the loss of a source (R160, R162). -/
def Dev.enterHoldover (d : Dev) (src : Nat) : Dev :=
  let n := d.tb.offs.length
  let e0 : Nat := (if n = 0 then 0 else (rhu ((sumI d.tb.offs).natAbs * 10000 : Nat) n).toNat) + 200000
  let f0 := d.meanFreq (64 * oneSec)
  let d := d.endSlew
  let d := { d with tb := { d.tb with f0 := f0, t0 := d.tbTemp, gap := false, offs := [], good := 0, disc := 0, stepReq := none } }
  let d := ((d.wrI Reg.TB_FREQ_FREQ f0).wr Reg.TB_HOLD_TIME_SECONDS 0).putE e0
  let d := (d.wr Reg.TB_STATUS_SRC 0).wr Reg.TB_STATUS_STATE tbHoldover
  d.raise Ev.TB_HOLDOVER src (min (rhu (e0 : Int) 10000).toNat (2 ^ 32 - 1))

/-- Whether this device is a board time follower (R153, R166). -/
def Dev.follower (d : Dev) : Bool := d.on Reg.TB_BOARD_MASTER_VALID && !d.on Reg.TB_STATUS_BOARD_MASTER

/-- The SLAVE port, if there is one. -/
def Dev.slavePort (d : Dev) : Option Nat := (List.range 4).find? (fun p => d.rd Reg.TB_PTP_STAT_PORT_STATE p == 9)

/-- The phase source of R153; 0 for none. -/
def Dev.bestSrc (d : Dev) : Nat :=
  if d.follower then srcBoard
  else
    let ptp := d.tb.qual.contains srcPtp && d.slavePort.isSome
    let pps := d.tb.qual.contains srcPps && d.on Reg.TB_PPS_CTRL_TOD_VALID && d.on Reg.TB_CTRL_PPS_IN_EN
    if d.on Reg.TB_CTRL_PRIO then (if pps then srcPps else if ptp then srcPtp else 0)
    else (if ptp then srcPtp else if pps then srcPps else 0)

/-- Selects the phase source again (R153): a new source is acquired, and the loss of the last one begins holdover. -/
def Dev.selectSrc (d : Dev) : Dev :=
  let old := d.rd Reg.TB_STATUS_SRC
  let new := d.bestSrc
  if new = old then d
  else if new = 0 then (if d.phaseSel then d.enterHoldover old else d)
  else
    let port := d.slavePort.getD 0
    let d := (d.wr Reg.TB_STATUS_SRC new).wr Reg.TB_STATUS_STATE tbAcquiring
    let d := if new = srcPtp then d.wr Reg.TB_STATUS_PTP_PORT port else d
    let d := if new = srcBoard then d else d.set1 Reg.TB_STATUS_TIME_VALID
    let d := { d with tb := { d.tb with ever := true, good := 0, disc := 0, offs := [] } }
    d.raise Ev.TB_SRC_CHANGE new (old + (if new = srcPtp then port * 16 else 0))

/-- Loss of a source: it must qualify again (R154). -/
def Dev.loseSrc (d : Dev) (kind : Nat) : Dev :=
  let d := { d with tb := { d.tb with qual := d.tb.qual.filter (fun k => k != kind), hist := d.tb.hist.del kind, disc := 0 } }
  d.selectSrc

/-! ### Corrections (R158, R159) -/

/-- What the servo expects an offset to be: what is left of the slew in progress, and the step not yet applied. -/
def Dev.tbPredict (d : Dev) : Int :=
  let left : Int := match d.tb.slew with
    | none => 0
    | some (th, at_) =>
      let done : Int := ((d.own - at_) * d.slewMax / 1000000 : Nat)
      if th < 0 then -(max 0 (-th - done)) else max 0 (th - done)
  match d.tb.step, d.tb.stepReq with
  | some (m, res, _), _ => m * 4000000 + res
  | none, some th => th
  | none, none => left

/-- The step of a residual: m × 4 ms nearest to an offset, halves up (R158). -/
def stepOf (theta : Int) : Int := rhu theta 4000000

/-- Corrects an offset θ (R158): outside RUN and WRAP at once; within them by a slew, or by a step that the next boundary decides. An offset of 100 ns or
less is the servo's and starts no slew. -/
def Dev.correct (d : Dev) (theta : Int) : Dev :=
  if !d.live then { d.endSlew with now := ((d.now : Int) + theta).toNat }
  else if d.tb.step.isSome ∨ d.tb.stepReq.isSome then d
  else if theta.natAbs ≤ 1000 ∨ !d.on Reg.TB_CTRL_STEP_EN ∨ stepOf theta = 0 then
    (if theta.natAbs ≤ 100 then d else d.beginSlew theta)
  else { d with tb := { d.tb with stepReq := some theta } }

/-- The full-time cycle number that a 32-bit cycle number stands for (R149). -/
def Dev.extendCyc (d : Dev) (k : Nat) : Nat := ((d.cyc : Int) + tsDiff (d.cyc % 2 ^ 32) k).toNat

/-- Shifts the cycle labels of a ring's link state by a step (R158: only labels change). -/
def LRing.relabel (r : LRing) (dk : Int) : LRing :=
  let f (c : Nat) : Nat := ((c : Int) + dk).toNat
  { r with
    held := r.held.map (fun h => { h with cyc := f h.cyc })
    written := r.written.map (fun w => (f w.1, w.2))
    replies := r.replies.map (fun w => (f w.1, w.2))
    cur := r.cur.map (fun p => (p.1, f p.2))
    prev := r.prev.map (fun p => (p.1, f p.2))
    enumSent := r.enumSent.map f }

/-- Applies the decided step at its boundary (R158, R159, R164): device time jumps by m × 4 ms, every ring re-syncs at its next Slate, the residual is
slewed. -/
def Dev.applyStep (d : Dev) : Dev :=
  match d.tb.step with
  | none => d
  | some (m, res, k) =>
    if d.cyc < k then d
    else
      let old := ts32 d.now
      let d := (d.clr Reg.TB_STATUS_STEP_PENDING)
      let d := { d with now := ((d.now : Int) + m * 4000000).toNat, tb := { d.tb with step := none, steps := d.tb.steps + 1 } }
      let d := d.rl.rings.foldl (fun (d : Dev) g => d.setLr g { (d.lr g).relabel (32 * m) with resync := true }) d
      let d := { d with lnk := { d.lnk with done := d.lnk.done.map (fun c => ((c : Int) + 32 * m).toNat) } }
      let d := if res = 0 then d else d.beginSlew res
      d.raise Ev.TB_STEP 0 (old % 2 ^ 24 + code 16 m * 2 ^ 24)

/-- The content of a BOARD_TIME frame for the next pulse (R167, Table 15.4). -/
def Dev.boardTimeMsg (d : Dev) : List Byte :=
  let p := (d.now / 1000000 + 1) * 1000000
  let (m, k) : Int × Nat := match d.tb.step with
    | some (m, _, k) => (m, k)
    | none => (0, 0)
  time12 p ++ toLe (cycleOf p) 4 ++ toLe (d.rd Reg.TB_STATUS_STATE) 1 ++ toLe (d.rd Reg.TB_STATUS_SRC) 1 ++ toLe (code 16 m) 2 ++ toLe k 4 ++ toLe 0 2

/-- Decides a step at a cycle boundary (R159), for the second boundary after it; the board time master announces it at once. -/
def Dev.decideStep (d : Dev) : Dev :=
  match d.tb.stepReq with
  | none => d
  | some th =>
    let m := stepOf th
    let d := { (d.set1 Reg.TB_STATUS_STEP_PENDING) with tb := { d.tb with stepReq := none, step := some (m, th - m * 4000000, d.cyc + 2) } }
    if d.on Reg.TB_STATUS_BOARD_MASTER then d.peerSend d.peerLinks pfBoardTime d.boardTimeMsg else d

/-! ### Offset measurements (R154) -/

/-- Accepts an offset of the selected source. -/
def Dev.acceptOffset (d : Dev) (theta : Int) : Dev :=
  let d := d.wrI Reg.TB_OFFSET_THETA (sat32 theta)
  let d := { d with tb := { d.tb with disc := 0, good := if theta.natAbs ≤ 100 then d.tb.good + 1 else 0, offs := (theta :: d.tb.offs).take 16 } }
  ((d.servo).correct theta).tbLock

/-- Whether the newest `QUALIFY` offsets of a list spread over 1 µs or less. -/
def spreadOk (n : Nat) (l : List Int) : Bool :=
  let w := l.take n
  decide (w.length = n) && decide (w.foldl max (w.headD 0) - w.foldl min (w.headD 0) ≤ 1000)

/-- An offset measurement of a source of a kind (R154): of the selected source it is accepted or discarded, of another it counts towards qualifying. -/
def Dev.measure (d : Dev) (kind port : Nat) (theta : Int) : Dev :=
  if kind ≠ srcBoard ∧ d.follower then d
  else if d.rd Reg.TB_STATUS_SRC = kind then
    if (theta - d.tbPredict).natAbs ≤ 1000 then d.acceptOffset theta
    else
      let d := d.set1 Reg.TB_ERR_OUTLIER
      let d := if kind = srcPtp then d.bump Reg.TB_PTP_CNT_DISCARD 1 port else d
      let d := d.raise Ev.TB_OUTLIER kind (code 32 (sat32 theta))
      let n := d.tb.disc + 1
      let d := { d with tb := { d.tb with disc := n } }
      if n < 4 then d
      else if kind = srcPps then ((d.set1 Reg.TB_ERR_PPS_LOST).raise Ev.TB_PPS_LOST 0 2).loseSrc kind
      else d.loseSrc kind
  else
    let l := (theta :: d.tb.hist.get kind []).take 64
    let ok := spreadOk d.qualify l
    let q := d.tb.qual.filter (fun k => k != kind)
    let d := { d with tb := { d.tb with hist := d.tb.hist.ins kind l, qual := if ok then q ++ [kind] else q } }
    let d := d.selectSrc
    if d.rd Reg.TB_STATUS_SRC = kind then
      { d with tb := { d.tb with hist := d.tb.hist.del kind } }.acceptOffset theta
    else d

/-! ### PTP ports (R155 to R157) -/

def Dev.ptp (d : Dev) (p : Nat) : PtpPort := d.tb.ports.get p {}
def Dev.setPtp (d : Dev) (p : Nat) (x : PtpPort) : Dev := { d with tb := { d.tb with ports := d.tb.ports.set p x {} } }

/-- The PTP role of a port (Tables 3.16, 6.2): a Reel that mixes roles 1 and 2 uses role 2 on every PTP port. -/
def Dev.ptpRole (d : Dev) (p : Nat) : Nat :=
  let roles := (List.range 4).map (fun q => match d.rl.net q with | some x => x.u8 10 | none => 0)
  let r := roles.getD p 0
  if r = 0 then 0 else if roles.contains 2 then 2 else 1

/-- The PTP options in effect on a port: with bit 3 set, P2P and Layer 2 (Table 6.2). -/
def Dev.ptpOpt (d : Dev) (p : Nat) : Nat :=
  let o := match d.rl.net p with | some x => x.u8 11 % 16 | none => 0
  if bitAt o 3 then 9 else o

/-- The data set this device announces as grandmaster: `priority1`, class, accuracy and variance unknown (PRESUMED: IEEE 1588 defaults), `priority2`. -/
def Dev.ownDs (d : Dev) : List Nat :=
  [d.rd Reg.TB_PTP_DS_PRIORITY1, d.rd Reg.TB_PTP_DS_CLASS, 0xFE, 0xFFFF, d.rd Reg.TB_PTP_DS_PRIORITY2]

/-- Lexicographic order of data sets, lower is better (PRESUMED: the IEEE 1588 data set comparison). -/
def dsBetter : List Nat → List Nat → Bool
  | a :: l, b :: r => if a = b then dsBetter l r else decide (a < b)
  | _, _ => false

/-- The best data set heard, and its port; the lowest port on a tie. -/
def Dev.bestAnn (d : Dev) : Option (List Nat × Nat) :=
  (List.range 4).foldl (fun a p => match (d.ptp p).ann with
    | none => a
    | some ds => match a with
      | none => some (ds, p)
      | some (b, _) => if dsBetter ds b then some (ds, p) else a) none

/-- Sets a port state, with its event. -/
def Dev.portState (d : Dev) (p st : Nat) : Dev :=
  if d.rd Reg.TB_PTP_STAT_PORT_STATE p = st then d
  else (d.wr Reg.TB_PTP_STAT_PORT_STATE st p).raise Ev.TB_PORT_STATE p st

/-- The state of a PTP port under the best data set (Table 6.2, R157; PRESUMED: the IEEE 1588 state decision). -/
def Dev.ptpDecide (d : Dev) (p : Nat) : Nat :=
  if d.ptpRole p = 0 then 3
  else
    let slaveOnly := d.on Reg.TB_PTP_DS_SLAVE_ONLY && d.ptpRole p == 1
    match d.bestAnn with
    | none => if slaveOnly then 4 else 6
    | some (ds, b) =>
      if !slaveOnly && dsBetter d.ownDs ds then 6
      else if p = b then 9
      else if b / 2 = p / 2 && d.on Reg.NET_PORT_STAT_PRP p then 7
      else if d.ptpRole p = 1 then (if slaveOnly then 4 else 7)
      else match (d.ptp p).ann with
        | some a => if dsBetter (ds.take 6) (a.take 6) then 6 else 7
        | none => 6

/-- `clockClass` announced (R157): 6 while LOCKED on `PPS_IN`, 7 in HOLDOVER, 248 otherwise; the parent's while steered by PTP. -/
def Dev.updClass (d : Dev) : Dev :=
  let st := d.rd Reg.TB_STATUS_STATE
  let src := d.rd Reg.TB_STATUS_SRC
  let c := if src = srcPtp then (match d.bestAnn with | some (ds, _) => ds.getD 1 248 | none => 248)
    else if src = srcPps ∧ st = tbLocked then 6
    else if st = tbHoldover ∧ d.on Reg.TB_CTRL_PPS_IN_EN ∧ !d.slavePort.isSome then 7
    else 248
  d.wr Reg.TB_PTP_DS_CLASS c

/-- Recomputes the port states; a change of the grandmaster followed makes the source qualify again (R154). -/
def Dev.bmca (d : Dev) : Dev :=
  let d := (List.range 4).foldl (fun (d : Dev) p => d.portState p (d.ptpDecide p)) d
  let d := match d.bestAnn with
    | some (ds, _) =>
      let gm := ds.getD 5 0
      if d.tb.gm = gm then d
      else
        let had := d.tb.gm
        let d := { d with tb := { d.tb with gm := gm } }
        if had = 0 then d else d.loseSrc srcPtp
    | none => d
  (match d.slavePort with
    | some p => if d.rd Reg.TB_STATUS_SRC = srcPtp then d.wr Reg.TB_STATUS_PTP_PORT p else d
    | none => d).updClass

/-- A PTP event or delay message (R154 to R156): 0 Sync with its origin time and correction in ns (of a one-step Sync, or of a Sync with its
Follow_Up), 1 Delay_Resp with the corrected receive time, 2 Pdelay_Resp with the turnaround time, 3 Delay_Req, 4 Pdelay_Req, 5 a management message; any
other kind is a malformed message. Receive time is `t` less the latency of the module (R156). -/
def Dev.ptpEvent (d : Dev) (p kind value : Nat) : Dev :=
  if d.ptpRole p = 0 then d
  else if 5 < kind then d.bump Reg.TB_PTP_CNT_DISCARD 1 p
  else
    let rx : Int := (d.now : Int) - d.rd Reg.TB_PTP_LAT_RX p
    let x := d.ptp p
    let d := if kind = 0 ∨ kind = 2 ∨ kind = 3 ∨ kind = 4 then d.bump Reg.TB_PTP_CNT_EVENT_RX 1 p else d
    let slave := d.rd Reg.TB_PTP_STAT_PORT_STATE p == 9
    match kind with
    | 0 =>
      let d := d.setPtp p { x with sync := some (value, rx) }
      let delay := d.rd Reg.TB_PTP_DELAY_MEAN_DELAY p
      if !slave || delay == 0xFFFFFFFF then d
      else
        let theta := (value : Int) + delay - rx
        (d.wrI Reg.TB_PTP_OFFSET_THETA (sat32 theta) p).measure srcPtp p theta
    | 1 =>
      (match x.sync, x.req with
      | some (t1, t2), some t3 =>
        if bitAt (d.ptpOpt p) 0 then d
        else (d.setPtp p { x with req := none }).wr Reg.TB_PTP_DELAY_MEAN_DELAY (min (rhu ((t2 - t1) + ((value : Int) - t3)) 2).toNat 0xFFFFFFFE) p
      | _, _ => d)
    | 2 =>
      (match x.req with
      | some t1 =>
        if !bitAt (d.ptpOpt p) 0 then d
        else (d.setPtp p { x with req := none }).wr Reg.TB_PTP_DELAY_MEAN_DELAY (min (rhu (rx - (t1 : Int) - value) 2).toNat 0xFFFFFFFE) p
      | none => d)
    | 3 => if d.rd Reg.TB_PTP_STAT_PORT_STATE p = 6 ∧ !bitAt (d.ptpOpt p) 0 then d.emit (.ptp p 5 rx.toNat []) else d
    | 4 => if bitAt (d.ptpOpt p) 0 then d.emit (.ptp p 4 rx.toNat []) else d
    | _ => d.emit (.ptp p 6 0 [])

/-- A PTP Announce message (R154, R157, Table 6.11): the data set joins the comparison, and the UTC offset is taken from the SLAVE port. -/
def Dev.ptpAnnounce (d : Dev) (p : Nat) (ds : List Nat) (utc : Option Int) (l61 l59 bad : Bool) : Dev :=
  if d.ptpRole p = 0 then d
  else if bad ∨ ds.length ≠ 7 then d.bump Reg.TB_PTP_CNT_DISCARD 1 p
  else
    let d := (d.setPtp p { d.ptp p with ann := some ds }).bmca
    if d.rd Reg.TB_PTP_STAT_PORT_STATE p ≠ 9 then d
    else
      let d := ((d.wr Reg.TB_UTC_LEAP61 (b2n l61)).wr Reg.TB_UTC_LEAP59 (b2n l59)).wr Reg.TB_UTC_VALID (b2n utc.isSome)
      match utc with
      | none => d
      | some u =>
        let old := d.rd Reg.TB_UTC_UTC_OFFSET
        let d := d.wrI Reg.TB_UTC_UTC_OFFSET u
        if old = code 16 u then d else d.raise Ev.TB_LEAP 0 (code 16 u)

/-- No Sync or no Announce within the receipt timeout (R154, R157): a PASSIVE port of the same pair that hears the same grandmaster takes over
without a change of state; otherwise the source is lost. -/
def Dev.ptpTimeout (d : Dev) (p : Nat) : Dev :=
  let was := d.rd Reg.TB_PTP_STAT_PORT_STATE p
  let d := d.setPtp p { d.ptp p with ann := none, sync := none }
  let d := d.bmca
  if was ≠ 9 then d
  else match d.slavePort with
    | some q => if q / 2 = p / 2 then d else d.loseSrc srcPtp
    | none => d.loseSrc srcPtp

/-- A PTP port sends at one of its intervals (R155 to R157): 0 Sync, 1 Announce, 2 Delay_Req, 3 Pdelay_Req, each with the crossing instant corrected
by the transmit latency. -/
def Dev.ptpSend (d : Dev) (p kind : Nat) : Dev :=
  let st := d.rd Reg.TB_PTP_STAT_PORT_STATE p
  let tx := d.now + d.rd Reg.TB_PTP_LAT_TX p
  let p2p := bitAt (d.ptpOpt p) 0
  if d.ptpRole p = 0 then d
  else if kind = 0 ∧ st = 6 then d.emit (.ptp p 0 tx [])
  else if kind = 1 ∧ st = 6 then
    d.emit (.ptp p 1 tx (if d.rd Reg.TB_STATUS_SRC = srcPtp then (match d.bestAnn with | some (ds, _) => ds | none => d.ownDs) else d.ownDs))
  else if kind = 2 ∧ st = 9 ∧ !p2p then (d.setPtp p { d.ptp p with req := some tx }).emit (.ptp p 2 tx [])
  else if kind = 3 ∧ p2p then (d.setPtp p { d.ptp p with req := some tx }).emit (.ptp p 3 tx [])
  else d

/-! ### `PPS_IN` (R154) -/

/-- A `PPS_IN` edge at the present instant. -/
def Dev.ppsEdge (d : Dev) : Dev :=
  let (ns, lo, hi) := fullTime d.now
  let d := ((d.wr Reg.TB_PPS_TS_NS_NS ns).wr Reg.TB_PPS_TS_SEC_LO_SEC lo).wr Reg.TB_PPS_TS_SEC_HI_SEC hi
  if !d.on Reg.TB_CTRL_PPS_IN_EN then d
  else
    let d := d.set1 Reg.TB_STATUS_PPS_OK
    let tod : Nat := d.rd Reg.TB_PPS_TOD_LO_SEC + d.rd Reg.TB_PPS_TOD_HI_SEC % 65536 * 2 ^ 32
    let next : Nat := (tod + 1) % 2 ^ 48
    let d := (d.wr Reg.TB_PPS_TOD_LO_SEC (next % 2 ^ 32)).wr Reg.TB_PPS_TOD_HI_SEC (next / 2 ^ 32)
    if !d.on Reg.TB_PPS_CTRL_TOD_VALID then d
    else
      let theta := (tod : Int) * 1000000000 - d.now
      if 500000000 < theta.natAbs then
        let d := d.clr Reg.TB_PPS_CTRL_TOD_VALID
        ((d.set1 Reg.TB_ERR_PPS_LOST).raise Ev.TB_PPS_LOST 0 3).loseSrc srcPps
      else d.measure srcPps 0 theta

/-- Two missing `PPS_IN` edges. -/
def Dev.ppsMissing (d : Dev) : Dev :=
  if !d.on Reg.TB_CTRL_PPS_IN_EN then d
  else (((d.clr Reg.TB_STATUS_PPS_OK).set1 Reg.TB_ERR_PPS_LOST).raise Ev.TB_PPS_LOST 0 1).loseSrc srcPps

/-! ### The host's time and UTC (R159, Table 6.11) -/

/-- A set request for device time (R159); `none` for a malformed value (R53). -/
def Dev.timeSet (d : Dev) (v : Option Nat) : Dev :=
  match v with
  | none => (d.set1 Reg.TB_ERR_BAD_TIME).raise Ev.TB_BAD_TIME 0 0
  | some n =>
    if d.follower ∨ d.phaseSel then
      (d.set1 Reg.TB_ERR_SET_REFUSED).raise Ev.TB_SET_REFUSED 0 (d.rd Reg.TB_STATUS_SRC)
    else
      let theta := (n : Int) - d.now
      let old := d.rd Reg.TB_STATUS_SRC
      let d := (d.correct theta).set1 Reg.TB_STATUS_TIME_VALID
      if old = srcHost then d else (d.wr Reg.TB_STATUS_SRC srcHost).raise Ev.TB_SRC_CHANGE srcHost old

/-- A write of `TB_UTC_SET` takes effect while `SRC` is 2. -/
def Dev.utcSet (d : Dev) : Dev :=
  if d.rd Reg.TB_STATUS_SRC ≠ srcPps then d
  else
    let old := d.rd Reg.TB_UTC_UTC_OFFSET
    let new := d.rd Reg.TB_UTC_SET_UTC_OFFSET
    let d := (((d.wr Reg.TB_UTC_UTC_OFFSET new).wr Reg.TB_UTC_VALID (d.rd Reg.TB_UTC_SET_VALID)).wr Reg.TB_UTC_LEAP61 (d.rd Reg.TB_UTC_SET_LEAP61)).wr
      Reg.TB_UTC_LEAP59 (d.rd Reg.TB_UTC_SET_LEAP59)
    if old = new then d else d.raise Ev.TB_LEAP 0 new

/-! ### Holdover and learning (R161, R162) -/

/-- Once a second in holdover. -/
def Dev.holdSecond (d : Dev) : Dev :=
  let st := d.rd Reg.TB_STATUS_STATE
  if st ≠ tbHoldover ∧ st ≠ tbHoldLong then d
  else
    let ref10 := d.on Reg.TB_STATUS_REF10_USED
    let temp := d.tbTemp
    let d := d.bump Reg.TB_HOLD_TIME_SECONDS
    let (d, delta) : Dev × Int :=
      if ref10 then (d, 0)
      else match d.ftab temp, d.ftab d.tb.t0 with
        | some a, some b => (d, a - b)
        | _, _ => let (d, v) := d.fresh; (d, sx 32 v)
    let d := d.wrI Reg.TB_FREQ_FREQ (satTo (-500000000) 500000000 (d.tb.f0 + delta)).1
    let d := match tcompBin temp with
      | some b =>
        if ref10 ∨ d.tb.gap ∨ d.on Reg.TB_TCOMP_INFO_VALID b then d
        else { d with tb := { d.tb with gap := true } }.raise Ev.TB_TCOMP_GAP b (code 16 temp)
      | none => d
    let d := d.putE (d.tb.e + (if ref10 then 200 else 20000) + delta.natAbs)
    let limit : Nat := 10000 * d.rd Reg.TB_HOLD_CTRL_LIMIT
    if st == tbHoldover && decide (limit < d.tb.e) then
      (d.wr Reg.TB_STATUS_STATE tbHoldLong).raise Ev.TB_HOLD_LONG 0 (d.rd Reg.TB_HOLD_TIME_SECONDS)
    else d

/-- The temperature compensation table as a record of the learned-value store: frequency and minutes of each bin. -/
def Dev.tcompBody (d : Dev) : List Byte :=
  (List.range 32).flatMap (fun b => toLe (d.rd Reg.TB_TCOMP_FREQ_FREQ b) 4 ++ toLe (d.rd Reg.TB_TCOMP_INFO_MINUTES b) 4)

/-- Loads the table from its record. -/
def Dev.tcompLoad (d : Dev) (body : List Byte) : Dev :=
  (List.range 32).foldl (fun (d : Dev) b =>
    let m := le body (8 * b + 4) 4
    ((d.wr Reg.TB_TCOMP_FREQ_FREQ (le body (8 * b) 4) b).wr Reg.TB_TCOMP_INFO_MINUTES m b).wr Reg.TB_TCOMP_INFO_VALID (b2n (decide (10 ≤ m))) b) d

/-- Once a minute while LOCKED with `REF_IN` as frequency source (R161). -/
def Dev.tcompLearn (d : Dev) : Dev :=
  let temps := d.tb.temps
  let temp := if temps.isEmpty then d.tbTemp else rhu (sumI temps) temps.length
  let d := { d with tb := { d.tb with temps := [] } }
  if d.rd Reg.TB_STATUS_STATE ≠ tbLocked ∨ d.on Reg.TB_STATUS_REF10_USED then d
  else match tcompBin temp with
    | none => d
    | some b =>
      let f := d.meanFreq oneMin
      let o := d.rdI Reg.TB_TCOMP_FREQ_FREQ b
      let d := (d.wrI Reg.TB_TCOMP_FREQ_FREQ (o + Int.fdiv (f - o + 8) 16) b).bump Reg.TB_TCOMP_INFO_MINUTES 1 b
      let d := d.wr Reg.TB_TCOMP_INFO_VALID (b2n (decide (10 ≤ d.rd Reg.TB_TCOMP_INFO_MINUTES b))) b
      d.nvWrite 2 0 d.tcompBody

/-- Notes a temperature for the mean of the minute, at most one a second's worth of samples kept at a time. -/
def Dev.tbSample (d : Dev) : Dev := { d with tb := { d.tb with temps := (d.tbTemp :: d.tb.temps).take 60000 } }

/-! ### Clock inputs (R151, R152) -/

/-- Slate lock (R165). -/
def Dev.updSlateLock (d : Dev) : Dev :=
  d.wr Reg.TB_STATUS_SLATE_LOCK (b2n (d.tb.refOk && (d.solo || d.on Reg.TB_STATUS_BOARD_MASTER || (d.follower && decide (16 ≤ d.tb.near)))))

/-- `REF_IN` stops or leaves ±100 ppm: a fatal event, which takes the device to HALT (R57). -/
def Dev.refFail (d : Dev) (dev : Nat) : Dev :=
  ({ d with tb := { d.tb with refOk := false } }.updSlateLock).raise Ev.TB_REF_FAIL 0 (min dev (2 ^ 32 - 1))

/-- `REF10_IN` is the frequency source while it is enabled and within its window. -/
def Dev.ref10Use (d : Dev) : Dev := d.wr Reg.TB_STATUS_REF10_USED (b2n (d.on Reg.TB_CTRL_REF10_EN && d.on Reg.TB_STATUS_REF10_OK))

/-- `REF10_IN` is lost or leaves its window. -/
def Dev.ref10Lost (d : Dev) : Dev :=
  let used := d.on Reg.TB_STATUS_REF10_USED
  let d := (d.clr Reg.TB_STATUS_REF10_OK).ref10Use
  if used then (d.set1 Reg.TB_ERR_REF10_LOST).raise Ev.TB_REF10_LOST 0 0 else d

/-- `REF10_IN` is back in its window. -/
def Dev.ref10Back (d : Dev) : Dev := (d.set1 Reg.TB_STATUS_REF10_OK).ref10Use

/-! ### Board time (R166 to R168) -/

/-- Whether a device state code takes part in the election: QUIET, RUN or WRAP. -/
def electable (st : Nat) : Bool := decide (3 ≤ st) && decide (st ≤ 5)

/-- The devices that may be board time master: this one and those reachable over a peer link whose state is QUIET, RUN or WRAP. -/
def Dev.timeCandidates (d : Dev) : List Nat :=
  (if electable d.mode.stateCode then [d.devAddr] else [])
    ++ ((d.peerLinks.filter (fun l => match d.tb.peers.find l with
          | some (st, at_) => electable st && decide (d.own < at_ + 3000000) && d.on Reg.SIN_PEER_STAT_ADDR_VALID l
          | none => false)).map (fun l => d.rd Reg.SIN_PEER_STAT_PEER_ADDR l))

/-- Makes a device board time master. -/
def Dev.setMaster (d : Dev) (m : Nat) : Dev :=
  let old := d.rd Reg.TB_BOARD_MASTER
  let same := d.on Reg.TB_BOARD_MASTER_VALID && old == m
  if same then d
  else
    let d := (d.wr Reg.TB_BOARD_MASTER m).set1 Reg.TB_BOARD_MASTER_VALID
    let d := d.wr Reg.TB_STATUS_BOARD_MASTER (b2n (m == d.devAddr))
    let d := { d with tb := { d.tb with near := 0, far := 0, twtt := false } }
    let d := if d.rd Reg.TB_STATUS_SRC = srcBoard then d.enterHoldover srcBoard else d
    let d := d.raise Ev.TB_BOARD_MASTER m old
    (d.selectSrc).updSlateLock

/-- Election (R166): the master stays while it is a candidate; otherwise the candidate of lowest `DEV_ADDR` is elected. -/
def Dev.electMaster (d : Dev) : Dev :=
  if d.solo then d
  else
    let c := d.timeCandidates
    if d.on Reg.TB_BOARD_MASTER_VALID && c.contains (d.rd Reg.TB_BOARD_MASTER) then d
    else match c with
      | [] =>
        let d := (d.clr Reg.TB_BOARD_MASTER_VALID).clr Reg.TB_STATUS_BOARD_MASTER
        (d.selectSrc).updSlateLock
      | a :: l => d.setMaster (l.foldl min a)

/-- The master's messages have been absent for 3 ms (R166): the devices behind them are no longer reachable. -/
def Dev.masterAbsent (d : Dev) : Dev :=
  let m := d.rd Reg.TB_BOARD_MASTER
  let gone := d.peerLinks.filter (fun l => d.on Reg.TB_BOARD_MASTER_VALID && d.rd Reg.SIN_PEER_STAT_PEER_ADDR l == m)
  { d with tb := { d.tb with peers := gone.foldl (fun (t : Tbl (Nat × Nat)) l => t.del l) d.tb.peers } }.electMaster

/-- A follower's measurement of its own boundary minus the master's (R165, R167, R168). -/
def Dev.boardMeasure (d : Dev) (dev : Int) : Dev :=
  let d := d.wrI Reg.TB_BOARD_DEV (clampS 16 dev)
  let ok := decide (dev.natAbs ≤ 25)
  let far := if ok then 0 else d.tb.far + 1
  let d := { d with tb := { d.tb with near := if ok then d.tb.near + 1 else 0, far := far } }
  let d := if far = 16 then
      (d.set1 Reg.TB_ERR_BOARD_ALIGN).raise Ev.TB_BOARD_ALIGN (d.rd Reg.TB_BOARD_MASTER) (code 32 (sat32 dev))
    else d
  let d := d.updSlateLock
  let d := if d.on Reg.TB_STATUS_SLATE_LOCK ∧ d.tb.masterSrc ≠ 0 then d.set1 Reg.TB_STATUS_TIME_VALID else d
  d.measure srcBoard 0 dev

/-- A follower timestamps the falling edge of `SLATE_SYNC`; `dev` is its own boundary minus the edge, in ns. -/
def Dev.syncEdge (d : Dev) (dev : Int) : Dev :=
  if !d.follower then d
  else { (d.set1 Reg.TB_STATUS_SYNC_OK) with tb := { d.tb with twtt := false } }.boardMeasure dev

/-- Three consecutive pulses are missing (R168). -/
def Dev.syncLost (d : Dev) : Dev :=
  if !d.follower ∨ d.rd Reg.SIN_STATUS_PEER_UP = 0 then d
  else
    let d := (d.clr Reg.TB_STATUS_SYNC_OK).set1 Reg.TB_ERR_SYNC_LOST
    let d := { d with tb := { d.tb with near := 0, twtt := true } }
    (d.updSlateLock).raise Ev.TB_SYNC_LOST (d.rd Reg.TB_BOARD_MASTER) 0

/-- A BOARD_TIME frame (R167, Table 15.4): its sender is the board time master; a follower outside RUN and WRAP takes its label of the next pulse, and a
follower takes the step it announces. -/
def Dev.boardTime (d : Dev) (link : Nat) (pay : List Byte) : Dev :=
  if d.solo ∨ !d.on Reg.SIN_PEER_STAT_ADDR_VALID link then d
  else
    let from_ := d.rd Reg.SIN_PEER_STAT_PEER_ADDR link
    let d := if d.on Reg.TB_BOARD_MASTER_VALID then d else d.setMaster from_
    if !d.follower ∨ d.rd Reg.TB_BOARD_MASTER ≠ from_ then d
    else match ofTime12 pay 0 with
      | none => d
      | some n =>
        let d := { d with tb := { d.tb with masterSrc := byteAt pay 17 } }
        let own := (d.now / 1000000 + 1) * 1000000
        let d := if d.live then d else { d with now := ((d.now : Int) + ((n : Int) - own)).toNat }
        let m := sx 16 (le pay 18 2)
        if m = 0 then d
        else { (d.set1 Reg.TB_STATUS_STEP_PENDING) with tb := { d.tb with stepReq := none, step := some (m, 0, d.extendCyc (le pay 20 4)) } }

/-- A follower asks for two-way time transfer. -/
def Dev.twttAsk (d : Dev) : Dev :=
  if d.tb.twtt then
    { d with tb := { d.tb with twttAt := some d.now } }.peerSend d.peerLinks pfTwtt (toLe 0 4 ++ toLe (ts32 d.now) 4 ++ toLe 0 4)
  else d

/-- A TWTT frame (R168): kind 0 asks and the master answers with kind 1, which carries the arrival of the frame it answers; from the two exchanges the
follower computes its own boundary minus the master's. -/
def Dev.twttFrame (d : Dev) (link : Nat) (pay : List Byte) : Dev :=
  if byteAt pay 0 = 0 then
    if d.on Reg.TB_STATUS_BOARD_MASTER then
      d.peerSend [link] pfTwtt (toLe 1 1 ++ toLe 0 3 ++ toLe (ts32 d.now) 4 ++ toLe (ts32 d.now) 4)
    else d
  else if byteAt pay 0 = 1 ∧ d.follower ∧ d.tb.twtt then
    match d.tb.twttAt with
    | none => d
    | some t1 =>
      let theta := rhu (tsDiff (ts32 t1) (le pay 8 4) - tsDiff (le pay 4 4) (ts32 d.now)) 2
      { d with tb := { d.tb with twttAt := none } }.boardMeasure theta
  else d

end Sys2Proof.Machine
end

