-- ==== Sys2Proof/Machine/Snap.lean ====
section
/-!
DEFINITION. Machine/Snap.lean: the engine state that an ACTIVE device hands to a joining partner (R388). The layout of STATE frames is internal to the device;
the one here is the model's own (assumption log 31): a part starts with the number of parts of the snapshot and its own engine code, and holds entries of a tag,
a key and 64-bit values.
-/
namespace Sys2Proof.Machine

/-- An entry: its tag, its key and its values. -/
structure SnapEntry where
  tag : Nat
  key : Nat
  vals : List Int
deriving DecidableEq, Repr

def bI (b : Bool) : Int := if b then 1 else 0
def oN (o : Option Nat) : List Int := match o with
  | some n => [1, n]
  | none => [0, 0]

def filtVals (f : Filt) : List Int :=
  [f.u1, f.u2, f.y1, f.y2, f.settle, bI f.valid] ++ oN f.due ++ [f.out, f.held, bI f.stop, f.oflags, f.bad, f.good, f.take]
def dstrVals (x : DStr) : List Int :=
  [(x.der : Int)] ++ oN x.grace ++ (match x.v with | some v => [1, v] | none => [0, 0])

/-- The register words of the estimator, the cell sweeps and the loop engine, by the ranges of their regions (Table 16.1). -/
def snapWord (off : Nat) : Bool :=
  (decide (0x180000 ≤ off) && decide (off < 0x400000)) || (decide (0x10000000 ≤ off) && decide (off < 0x20000000))

/-- Everything a snapshot holds: registers of the engines and what they keep beside them. -/
def Dev.snapEntries (d : Dev) : List SnapEntry :=
  ((d.regs.filter (fun x => snapWord x.1)).map (fun x => ⟨0, x.1, [(x.2.toNat : Int)]⟩))
    ++ (d.swp.filt.map (fun x => ⟨1, x.1, filtVals x.2⟩))
    ++ (d.swp.tfilt.map (fun x => ⟨2, x.1, filtVals x.2⟩))
    ++ (d.est.ch.map (fun x => ⟨3, x.1, [x.2.u1, x.2.u2, x.2.y1, x.2.y2, bI x.2.settling, x.2.lastI, x.2.rem, x.2.flags, x.2.noTemp]⟩))
    ++ (d.swp.nodes.map (fun x => ⟨4, x.1, [(x.2.missed : Int), (x.2.owAttr : Int), bI x.2.estOn] ++ x.2.owCnt.flatMap (fun y => [(y.1 : Int), (y.2 : Int)])⟩))
    ++ [⟨5, 0, [d.dsp.p8, d.dsp.off, d.dsp.dead, bI d.dsp.freqLost, d.dsp.ord]⟩]
    ++ (d.dsp.pend.map (fun x => ⟨6, x.src, [x.kind, x.value, x.b, x.ord]⟩))
    ++ (d.dsp.force.map (fun x => ⟨7, x.1, [x.2.1, x.2.2]⟩))
    ++ (d.dsp.strs.map (fun x => ⟨8, x.1, dstrVals x.2 ++ [(d.rd Reg.DSP_STR_DER_ENFORCED x.1 : Int)]⟩))
    ++ (d.trw.cnt.map (fun x => ⟨9, x.1, [(x.2 : Int)]⟩))
    ++ (d.lpe.ctx.map (fun x => ⟨10, x.1, [bI x.2.wrapZero, x.2.clear, bI x.2.expired, bI x.2.fresh] ++ oN x.2.last⟩))

def SnapEntry.bytes (e : SnapEntry) : List Byte :=
  toLe e.tag 1 ++ toLe e.vals.length 1 ++ toLe 0 2 ++ toLe e.key 4 ++ e.vals.flatMap (fun v => toLe (code 64 v) 8)

/-- Packs entries into parts of at most 1,016 bytes. -/
def packParts (cur : List Byte) : List SnapEntry → List (List Byte)
  | [] => if cur.isEmpty then [] else [cur]
  | e :: r =>
    let b := e.bytes
    if cur.length + b.length ≤ 1016 then packParts (cur ++ b) r else cur :: packParts b r

/-- The payloads of the STATE frames of a snapshot. -/
def Dev.snapParts (d : Dev) : List (List Byte) :=
  let ps := packParts [] d.snapEntries
  let take := d.rd Reg.LNK_RING_TAKE_TAKE (d.rl.rings.headD 0)
  ps.zipIdx.map (fun x => toLe 0 1 ++ toLe 0 1 ++ toLe x.2 2 ++ toLe take 4 ++ toLe ps.length 4 ++ toLe 0 4 ++ x.1)

/-- The entries of a part. -/
def readEntries : Nat → List Byte → List SnapEntry
  | 0, _ => []
  | n + 1, b =>
    if b.length < 8 then []
    else
      let k := byteAt b 1
      ⟨byteAt b 0, le b 4 4, (List.range k).map (fun i => sx 64 (le b (8 + 8 * i) 8))⟩ :: readEntries n (b.drop (8 + 8 * k))

def SnapEntry.v (e : SnapEntry) (i : Nat) : Int := e.vals.getD i 0
def SnapEntry.n (e : SnapEntry) (i : Nat) : Nat := (e.v i).toNat
def SnapEntry.o (e : SnapEntry) (i : Nat) : Option Nat := if e.v i = 1 then some (e.n (i + 1)) else none

def SnapEntry.filt (e : SnapEntry) : Filt :=
  { u1 := e.v 0, u2 := e.v 1, y1 := e.v 2, y2 := e.v 3, settle := e.n 4, valid := e.v 5 == 1, due := e.o 6, out := e.v 8, held := e.v 9, stop := e.v 10 == 1, oflags := e.n 11, bad := e.n 12, good := e.n 13, take := e.n 14 }

/-- The pairs of a list. -/
def pairsOf : List Int → List (Nat × Nat)
  | a :: b :: r => (a.toNat, b.toNat) :: pairsOf r
  | _ => []

/-- Applies an entry. -/
def Dev.snapEntry (d : Dev) (e : SnapEntry) : Dev :=
  match e.tag with
  | 0 => if snapWord e.key then d.setWord e.key (BitVec.ofNat 32 (e.n 0)) else d
  | 1 => d.setFilt e.key e.filt
  | 2 => d.setTfilt e.key e.filt
  | 3 =>
    let x := d.ech e.key
    d.setEch e.key { x with
      u1 := e.v 0, u2 := e.v 1, y1 := e.v 2, y2 := e.v 3, settling := e.v 4 == 1, lastI := e.v 5, rem := e.n 6, flags := e.n 7, noTemp := e.n 8 }
  | 4 =>
    let x := d.swp.nodes.get e.key {}
    let c := (pairsOf (e.vals.drop 3)).foldl (fun (t : Tbl Nat) p => t.ins p.1 p.2) []
    { d with swp := { d.swp with nodes := d.swp.nodes.set e.key { x with missed := e.n 0, owAttr := e.n 1, estOn := e.v 2 == 1, owCnt := c } {} } }
  | 5 => { d with dsp := { d.dsp with p8 := e.v 0, off := e.n 1, dead := e.n 2, freqLost := e.v 3 == 1, ord := e.n 4, pend := [] } }
  | 6 => { d with dsp := { d.dsp with pend := d.dsp.pend ++ [{ src := e.key, kind := e.n 0, value := e.n 1, b := e.n 2, ord := e.n 3 }] } }
  | 7 => { d with dsp := { d.dsp with force := d.dsp.force.ins e.key (e.n 0, e.n 1) } }
  | 8 =>
    let x := d.dstr e.key
    (d.setDstr e.key { x with der := e.n 0, grace := e.o 1, v := if e.v 3 = 1 then some (e.v 4) else none }).wr Reg.DSP_STR_DER_ENFORCED (e.n 5) e.key
  | 9 => { d with trw := { d.trw with cnt := d.trw.cnt.set e.key (e.n 0) 0 } }
  | 10 =>
    let x := d.lctx e.key
    d.setLctx e.key { x with wrapZero := e.v 0 == 1, clear := e.n 1, expired := e.v 2 == 1, fresh := e.v 3 == 1, last := e.o 4 }
  | _ => d

/-- Applies a part: the payload of a STATE frame. -/
def Dev.snapApply (d : Dev) (pay : List Byte) : Dev :=
  (readEntries pay.length (pay.drop 16)).foldl (fun (d : Dev) e => d.snapEntry e) d

end Sys2Proof.Machine
end

