-- ==== Sys2Proof/Machine/Sin.lean ====
section
/-!
DEFINITION. Machine/Sin.lean: stand-in pairs (chapter 15). Roles (R374 to R376), epochs (R377, R378), the lease (R379, R380), takeover and origination (R381 to
R384), mirroring (R386), comparison (R387), joining (R388), the manual switch (R389, R390), notes (R391), the state of the peer links (R392).
-/
namespace Sys2Proof.Machine

/-! ### Status -/

/-- Sets or clears `INSTEP` with its event: 1 comparison, 2 snapshot, 3 debug (R388). -/
def Dev.setInstep (d : Dev) (on : Bool) (cause : Nat) : Dev :=
  if d.on Reg.SIN_STATUS_INSTEP = on then d
  else (d.wr Reg.SIN_STATUS_INSTEP (b2n on)).raise Ev.SIN_INSTEP 0 (b2n on + 2 * cause)

/-- The `DEV_ADDR` of the pair partner as its PRESENCE frames give it. -/
def Dev.partnerAddr (d : Dev) : Nat :=
  if d.on Reg.SIN_PEER_STAT_ADDR_VALID 0 then d.rd Reg.SIN_PEER_STAT_PEER_ADDR 0 else d.rd Reg.SIN_PEER_STAT_PEER_ADDR 1

/-- Whether a lane of this device has been debug-halted since reset. -/
def Dev.tainted (d : Dev) : Bool := d.on Reg.GLB_STATUS_DEBUG

/-- The age and path of the latest renewal (Table 15.8): live, and only at a STAND-IN. -/
def Dev.leaseWord (d : Dev) : Nat :=
  match d.sin.lease with
  | some (l, p) => if d.role = roleStandIn then min (d.now - l) 0xFFFF + p * 2 ^ 16 else 0xFFFF + 0xFF * 2 ^ 16
  | none => 0xFFFF + 0xFF * 2 ^ 16

/-! ### Roles (R374 to R378) -/

/-- The device becomes ACTIVE with a raised epoch (R374, R377); whether the epoch allowed it. -/
def Dev.becomeActive (d : Dev) : Dev × Bool :=
  match d.raiseEpoch with
  | (d, false) => (d, false)
  | (d, true) => ((d.setRole roleActive).dspTakeover, true)

/-- Takes a renewal (R379). -/
def Dev.renew (d : Dev) (l path : Nat) : Dev :=
  let l := min l d.now
  match d.sin.lease with
  | some (l0, _) => if l0 < l then { d with sin := { d.sin with lease := some (l, path) } } else d
  | none => { d with sin := { d.sin with lease := some (l, path) } }

/-- The device becomes STAND-IN under rule 1 of R374, and joins (R388). -/
def Dev.becomeStandIn (d : Dev) (l path : Nat) : Dev :=
  let d := { d with sin := { d.sin with gates := false, lease := none } }
  ((d.setRole roleStandIn).renew l path).join 2

/-- Entry to RUN: a Solo device raises its epoch and opens its gates (R377); a device of a pair starts to resolve its role (R374). -/
def Dev.sinRun (d : Dev) : Dev :=
  let d := { d with sin := { d.sin with runAt := d.own, heardP := false, actAt := none } }
  if d.solo then
    match d.raiseEpoch with
    | (d, ok) => { d with sin := { d.sin with gates := ok } }
  else match d.sin.activeAt with
    | some a => if d.own ≤ a + 64000 && !d.on Reg.SIN_STATUS_PAIR_ERR then d.becomeStandIn d.now 0xFF else d
    | none => d

/-- A pending switch ends with a status (R389). -/
def Dev.switchEnd (d : Dev) (st : Nat) : Dev :=
  if !d.on Reg.SIN_STATUS_SWITCH_PEND then { d with sin := { d.sin with switchK := none } }
  else
    let d := { d with sin := { d.sin with switchK := none, acked := false } }
    ((d.clr Reg.SIN_STATUS_SWITCH_PEND).wr Reg.SIN_SWITCH_STATUS st).raise Ev.SIN_SWITCH 0 (st + d.rd Reg.SIN_SWITCH_K_K * 2 ^ 8)

/-- Leaving RUN and WRAP (R376): the gates close, and a device of a pair becomes CONTENDING. -/
def Dev.sinLeave (d : Dev) : Dev :=
  let d := d.switchEnd 7
  let d := { d with sin := { d.sin with gates := false, lease := none, actAt := none, snapDone := false, snapDue := false, parts := [], agree := 0, differ := 0, lastCmp := none, switchWrap := none } }
  let d := (d.clr Reg.SIN_STATUS_JOINING).wr Reg.SIN_AGREE_AGREE_RUN 0
  if d.solo then d else (d.setInstep false 1).setRole roleContending

/-- In QUIET the device reads its reservation H, writes H + 65,536 and takes the old H as its base (R378). The role of a Solo device is ALONE (R374). -/
def Dev.sinQuiet (d : Dev) : Dev :=
  let d := (d.wr Reg.SIN_STATUS_CONFIG d.rl.config).wr Reg.SIN_STATUS_DEV_P (b2n (d.devAddr % 2 == 0))
  let (d, b) := d.nvRead 7 0
  let h := match b with | some b => le b 0 4 | none => 0
  let d := { d.wr Reg.SIN_EPOCH_RES_H h with sin := { d.sin with base := h } }
  let d := d.nvWrite 7 0 (toLe (h + 65536) 4)
  if d.solo then d.setRole roleAlone else d

/-- ROLE_RESOLVE_TIMEOUT: rules 2 and 3 of R374. -/
def Dev.resolve (d : Dev) : Dev :=
  if d.mode != .run || d.solo || d.role != roleContending then d
  else
    let err := d.on Reg.SIN_STATUS_PAIR_ERR
    let due := if d.isP then decide (d.sin.runAt + 1000000 ≤ d.own) else decide (d.sin.runAt + 10000000 ≤ d.own) && !d.sin.heardP && !err
    if due then
      match d.becomeActive with
      | (d, ok) => { d with sin := { d.sin with gates := ok } }
    else d

/-! ### Presence (R375, R379, R380, R392) -/

/-- The payload of a PRESENCE frame (Table 15.4); a device without a running structure gives no `PAIR_ID` and no `CONFIG`. -/
def Dev.presence (d : Dev) : List Byte :=
  let fl := b2n (d.on Reg.SIN_STATUS_INSTEP) + 2 * b2n (d.on Reg.TRW_STATUS_T0_AUTH) + 4 * b2n d.tainted + 8 * b2n (d.sin.switchK.isSome && !d.sin.switchOwn)
  toLe d.devAddr 1 ++ toLe d.role 1 ++ toLe d.mode.stateCode 1 ++ toLe fl 1 ++ toLe d.rl.pairId 4 ++ toLe d.rl.config 1 ++ toLe 0 3
    ++ toLe (d.rd Reg.SIN_EPOCH_EPOCH) 4 ++ toLe (ts32 d.now) 4

/-- PRESENCE_SEND: on every peer link of the structure, or on all four while there is none. -/
def Dev.presenceSend (d : Dev) : Dev :=
  if !d.mainOn then d else d.peerSend (if d.reel.isSome then d.peerLinks else [0, 1, 2, 3]) pfPresence d.presence

/-- A peer link comes up: alignment held and PRESENCE within 32 µs. -/
def Dev.peerUp (d : Dev) (link : Nat) : Dev :=
  if d.on Reg.SIN_PEER_STAT_UP link || !d.on Reg.SIN_PEER_STAT_SYNC link then d
  else match d.sin.presAt.find link with
    | some a =>
      if d.own ≤ a + 32000 then
        (((d.set1 Reg.SIN_PEER_STAT_UP link).wr Reg.SIN_STATUS_PEER_UP (setBit (d.rd Reg.SIN_STATUS_PEER_UP) link true))).raise Ev.SIN_PEER_UP link 0
      else d
    | none => d

/-- PEER_UP: alignment is held again. -/
def Dev.peerAligned (d : Dev) (link : Nat) : Dev := (d.set1 Reg.SIN_PEER_STAT_SYNC link).peerUp link

/-- PEER_DOWN: alignment is lost, or no PRESENCE has come for 32 µs. -/
def Dev.peerDown (d : Dev) (link : Nat) (alignment : Bool) : Dev :=
  let d := if alignment then d.clr Reg.SIN_PEER_STAT_SYNC link else d
  let silent := match d.sin.presAt.find link with | some a => decide (a + 32000 < d.own) | none => true
  if !d.on Reg.SIN_PEER_STAT_UP link || !(alignment || silent) then d
  else
    let d := (d.clr Reg.SIN_PEER_STAT_UP link).wr Reg.SIN_STATUS_PEER_UP (setBit (d.rd Reg.SIN_STATUS_PEER_UP) link false)
    d.raise Ev.SIN_PEER_DOWN link (if alignment then 1 else 2)

/-- PARTNER_LOST (R380): no PRESENCE from the partner on any peer link for 32 µs. -/
def Dev.partnerLost (d : Dev) : Dev :=
  let silent := d.pairLinks.all (fun l => match d.sin.presAt.find l with | some a => decide (a + 32000 < d.own) | none => true)
  if !d.on Reg.SIN_STATUS_PARTNER_OK || !silent then d
  else
    let d := { d.clr Reg.SIN_STATUS_PARTNER_OK with sin := { d.sin with lostP := true, pInstep := false } }
    d.raise Ev.SIN_PARTNER_LOST d.partnerAddr (d.rd Reg.SIN_STATUS_PARTNER_STATE)

/-- A PRESENCE of the pair partner (R374, R375, R379, R380). -/
def Dev.partnerPresence (d : Dev) (link : Nat) (p : List Byte) : Dev :=
  let st := byteAt p 2
  let role := byteAt p 1 % 4
  let fl := byteAt p 3
  let epoch := le p 12 4
  let runs := decide (3 ≤ st) && decide (st ≤ 5)
  let bad := if !runs || d.reel.isNone then 0
    else if le p 4 4 ≠ d.rl.pairId then 1
    else if byteAt p 8 ≠ d.rl.config then 2
    else if byteAt p 0 % 2 = d.devAddr % 2 then 3
    else 0
  if bad ≠ 0 then
    if d.on Reg.SIN_STATUS_PAIR_ERR then d else (d.set1 Reg.SIN_STATUS_PAIR_ERR).raise Ev.SIN_PAIR_MISMATCH link bad
  else if d.on Reg.SIN_STATUS_PAIR_ERR then d
  else
    let was := d.rd Reg.SIN_STATUS_PARTNER_ROLE
    let known := d.rd Reg.SIN_EPOCH_PARTNER_EPOCH
    let d := ((d.wr Reg.SIN_STATUS_PARTNER_ROLE role).wr Reg.SIN_STATUS_PARTNER_STATE st).wr Reg.SIN_EPOCH_PARTNER_EPOCH epoch
    let back := !d.on Reg.SIN_STATUS_PARTNER_OK && d.sin.lostP
    let d := { d.set1 Reg.SIN_STATUS_PARTNER_OK with sin := { d.sin with lostP := false, pInstep := bitAt fl 0, pTaint := bitAt fl 2 } }
    let d := if back then d.raise Ev.SIN_PARTNER_BACK (byteAt p 0) st else d
    let d := if bitAt fl 2 then d.setInstep false 3 else d
    let d := if bitAt fl 3 && d.sin.switchOwn && d.sin.switchK.isSome then { d with sin := { d.sin with acked := true } } else d
    let d := if byteAt p 0 % 2 = 0 ∧ st = 4 then { d with sin := { d.sin with heardP := true } } else d
    let d := if role = roleActive then { d with sin := { d.sin with activeAt := some d.own } } else d
    let d := if d.role = roleActive ∧ role = roleStandIn ∧ (was ≠ roleStandIn ∨ back) ∧ !bitAt fl 0 then
        { d with sin := { d.sin with snapDue := true } }
      else d
    let sent := tsExtend d.now (le p 16 4)
    if role ≠ roleActive then d
    else if d.role = roleStandIn then (if known ≤ epoch then d.renew sent link else d)
    else if d.role = roleContending ∧ d.mode = .run then d.becomeStandIn sent link
    else d

/-- PRESENCE_RECEIVE. -/
def Dev.presenceRx (d : Dev) (link : Nat) (codeErr : Bool) (frame : List Byte) : Dev :=
  match d.peerRx link pfPresence codeErr frame with
  | (d, none) =>
    -- A second copy of a PRESENCE still shows that its link lives.
    if codeErr || crc32c (frame.take (frame.length - 4)) != le frame (frame.length - 4) 4 || frame.length != 29 then d
    else { d with sin := { d.sin with presAt := d.sin.presAt.ins link d.own } }.peerAligned link
  | (d, some p) =>
    let d := { d with sin := { d.sin with presAt := d.sin.presAt.ins link d.own }, tb := { d.tb with peers := d.tb.peers.ins link (byteAt p 2, d.own) } }
    let d := (d.wr Reg.SIN_PEER_STAT_PEER_ADDR (byteAt p 0) link).set1 Reg.SIN_PEER_STAT_ADDR_VALID link
    let d := d.peerAligned link
    let d := if link < 2 && !d.solo then d.partnerPresence link p else d
    if d.reel.isSome then d.electMaster else d

/-- LEASE_SET_RECEIVE (R374, R379): a ring LEASE set with the partner's `ORIG`; `delay` is the propagation delay from the partner's port that the device
derives from `D0` and `D1`. -/
def Dev.leaseSet (d : Dev) (ring delay : Nat) : Dev :=
  if d.solo || !d.rl.present ring || (d.lr ring).orig || d.on Reg.SIN_STATUS_PAIR_ERR then d
  else
    let d := if !d.isP then { d with sin := { d.sin with heardP := true } } else d
    if d.role = roleStandIn then d.renew (d.now - delay) (0x40 + ring)
    else if d.role = roleContending ∧ d.mode = .run ∧ d.pairLinks.all (fun l => !d.on Reg.SIN_PEER_STAT_UP l) then
      d.becomeStandIn (d.now - delay) (0x40 + ring)
    else d

/-! ### Takeover (R381 to R384) -/

/-- LEASE_EXPIRY. -/
def Dev.leaseExpire (d : Dev) : Dev :=
  match d.sin.lease with
  | none => d
  | some (l, path) =>
    if !d.live || d.role != roleStandIn || decide (d.now < l + 32000) then d
    else
      let instep := d.on Reg.SIN_STATUS_INSTEP
      let old := d.rd Reg.SIN_EPOCH_PARTNER_EPOCH
      match d.becomeActive with
      | (d, false) => { d with sin := { d.sin with lease := none } }
      | (d, true) =>
        let d := { d with sin := { d.sin with lease := none, actAt := some (l + 48000), gates := false, switchK := none } }
        let e := d.rd Reg.SIN_EPOCH_EPOCH
        let d := (d.bump Reg.SIN_COUNT_TAKEOVERS).clr Reg.SIN_STATUS_JOINING
        let d := d.raiseAt Ev.SIN_TAKEOVER (d.subRealm 11) (l + 32000) 0 (e + b2n instep * 2 ^ 32 + path % 128 * 2 ^ 33)
        let d := d.peerSend d.pairLinks pfTakeover (toLe old 4 ++ toLe e 4 ++ toLe (ts32 (l + 32000)) 4)
        match d.gaf.wrap with
        | some w => { d with gaf := { d.gaf with wrap := some { w with strings := d.rl.allStrings.foldl (fun (t : Tbl WString) s => t.ins s {}) [] } } }
        | none => d

/-- GATES_OPEN: L + 48 µs. -/
def Dev.gatesOpen (d : Dev) : Dev :=
  match d.sin.actAt with
  | some a => if d.role = roleActive && decide (a ≤ d.now) then { d with sin := { d.sin with gates := true, actAt := none } } else d
  | none => d

/-- TAKEOVER (R382). -/
def Dev.takeoverRx (d : Dev) (p : List Byte) : Dev :=
  let e := le p 4 4
  let d := d.wr Reg.SIN_EPOCH_PARTNER_EPOCH e
  if d.rd Reg.SIN_EPOCH_EPOCH < e then d.demote 1 e else d

/-- STREAM_ABSENT_ORIGINATE (R383): no valid character of the originator on either port of a ring for 2 µs. -/
def Dev.streamAbsent (d : Dev) (ring : Nat) : Dev :=
  if d.role = roleStandIn && d.live && d.rl.present ring && !(d.lr ring).orig then d.setLr ring { d.lr ring with absent := true } else d

/-- Who originates from the present boundary (R114, R383): an ALONE device; the ACTIVE device, after a takeover from L + 48 µs or where the stream was absent;
device P while no device is ACTIVE; a STAND-IN where the stream is absent. -/
def Dev.originate (d : Dev) : Dev :=
  let partnerActive := d.on Reg.SIN_STATUS_PARTNER_OK && d.rd Reg.SIN_STATUS_PARTNER_ROLE == roleActive
  let opened := match d.sin.actAt with | some a => decide (a ≤ d.now) | none => true
  d.rl.rings.foldl (fun (d : Dev) g =>
    let r := d.lr g
    let want := d.solo || (d.role == roleActive && (opened || r.absent)) || (d.role == roleContending && d.isP && !partnerActive) || r.absent
    if want && !r.orig then d.setOrig g true
    else if r.orig && d.role == roleContending && !d.isP then d.setOrig g false
    else d) d

/-! ### Mirrored frames (R386) -/

/-- Character time in a cycle of a data position (R117, Table 5.3). -/
def charOf (pos : Nat) : Nat := pos + 3 + (if pos < 47 then 0 else (pos - 47) / 99 + 1)

/-- Writes a frame as the originator accepted it: `b` without its CRC, or none. -/
def Dev.mirrorWrite (d : Dev) (ring cyc addr nt : Nat) (b : Option (List Byte)) (dup : Bool) : Dev :=
  if (d.lr ring).written.any (fun x => x == (cyc, addr, nt)) then d
  else
    let d := d.trwMirror ring cyc addr nt b
    match b with
    | some b => d.deliver ring cyc addr nt b dup
    | none => d.missed ring cyc addr nt

/-- An acceptance entry. -/
def Dev.acceptEntry (d : Dev) (ring cyc pos addr fl crc : Nat) : Dev :=
  let nt := fl % 16
  let r0 := bitAt fl 4
  let r1 := bitAt fl 5
  if (d.rl.node ring addr).isNone || (d.lr ring).orig then d
  else if !r0 && !r1 then d.mirrorWrite ring cyc addr nt none false
  else
    let dup := !(r0 && r1)
    match (d.lr ring).held.find? (fun h => h.cyc == cyc && h.addr == addr && h.ntype == nt && crc32c h.bytes == crc) with
    | some h => d.mirrorWrite ring cyc addr nt (some h.bytes) dup
    | none =>
      match d.sin.conts.find? (fun x => x.1 == ring && x.2.1 == cyc && x.2.2.1 == pos && le x.2.2.2 (x.2.2.2.length - 4) 4 == crc) with
      | some x => d.mirrorWrite ring cyc addr nt (some (x.2.2.2.take (x.2.2.2.length - 4))) dup
      | none =>
        let w : AccWant := { ring := ring, cyc := cyc, pos := pos, addr := addr, ntype := nt, dup := dup, crc := crc }
        let d := { d with sin := { d.sin with wants := w :: d.sin.wants } }
        if bitAt fl 6 then d else d.peerSend d.pairLinks pfWant (toLe ring 1 ++ toLe cyc 4 ++ toLe 1 1 ++ toLe pos 2)

/-- ACCEPT. -/
def Dev.acceptRx (d : Dev) (p : List Byte) : Dev :=
  let ring := byteAt p 0
  let cyc := d.extendCyc (le p 1 4)
  (List.range (byteAt p 5)).foldl (fun (d : Dev) i =>
    let o := 8 + 8 * i
    d.acceptEntry ring cyc (le p o 2) (byteAt p (o + 2)) (byteAt p (o + 3)) (le p (o + 4) 4)) d

/-- CONTENT: it serves an entry that lacks it, or waits for its entry. -/
def Dev.contentRx (d : Dev) (p : List Byte) : Dev :=
  let ring := byteAt p 0
  let cyc := d.extendCyc (le p 1 4)
  let pos := le p 5 2
  let b := p.drop 8
  if !crcOk b then d
  else match d.sin.wants.find? (fun w => w.ring == ring && w.cyc == cyc && w.pos == pos && w.crc == le b (b.length - 4) 4) with
    | some w => { d with sin := { d.sin with wants := d.sin.wants.erase w } }.mirrorWrite ring cyc w.addr w.ntype (some (b.take (b.length - 4))) w.dup
    | none => { d with sin := { d.sin with conts := (ring, cyc, pos, b) :: d.sin.conts.filter (fun x => decide (cyc < x.2.1 + 8)) } }

/-- WANT: the originator answers with the content. -/
def Dev.wantRx (d : Dev) (p : List Byte) : Dev :=
  let ring := byteAt p 0
  let cyc := d.extendCyc (le p 1 4)
  (List.range (byteAt p 5)).foldl (fun (d : Dev) i =>
    let pos := le p (6 + 2 * i) 2
    match d.sin.sent.find? (fun x => x.1 == ring && x.2.1 == cyc && x.2.2.1 == pos) with
    | some x => d.peerSend d.pairLinks pfContent (toLe ring 1 ++ toLe cyc 4 ++ toLe pos 2 ++ toLe 0 1 ++ x.2.2.2)
    | none => d) d

/-- MIRROR_MISS: 50 µs after the hold deadline of a frame. Without content its items are `STALE`; where no entry came at all the device's own copy serves. -/
def Dev.mirrorMiss (d : Dev) (ring cyc addr nt : Nat) : Dev :=
  let r := d.lr ring
  let len := nodeFrameLen nt 0
  let due := cyc * 125000 + charOf (d.posOf ring cyc addr nt + len) * 625 / 8 + 51000
  if r.orig || d.solo || (d.rl.node ring addr).isNone || r.written.any (fun x => x == (cyc, addr, nt)) || decide (d.now < due) then d
  else
    let wanted := d.sin.wants.find? (fun w => w.ring == ring && w.cyc == cyc && w.addr == addr && w.ntype == nt)
    let own := r.held.find? (fun h => h.cyc == cyc && h.addr == addr && h.ntype == nt)
    match wanted, own with
    | none, some h => d.mirrorWrite ring cyc addr nt (some h.bytes) true
    | w, _ =>
      let d := match w with | some w => { d with sin := { d.sin with wants := d.sin.wants.erase w } } | none => d
      let d := (d.bump Reg.SIN_MIR_MISS_CNT).raiseHeld Ev.SIN_MIRROR_MISS ring oneSec ring (fun n => n)
      d.mirrorWrite ring cyc addr nt none false

/-! ### Comparison (R387) and joining (R388) -/

/-- Compares the digests of a cycle when both are known. -/
def Dev.compareK (d : Dev) (k : Nat) : Dev :=
  match d.sin.own.find k, d.sin.theirs.find k with
  | some a, some b =>
    let d := { d with sin := { d.sin with own := d.sin.own.del k, theirs := d.sin.theirs.del k } }
    let run := match d.sin.lastCmp with | some j => j + 1 == k | none => true
    let bits : Nat := b2n (a.1 != b.1) + 2 * b2n (a.2.1 != b.2.1) + 4 * b2n (a.2.2 != b.2.2)
    let d := if bits = 0 then d else
        let d := d.wr Reg.SIN_CMP_LAST_LAST_K k
        let d := if bitAt bits 0 then d.bump Reg.SIN_CMP_PERMIT_CNT else d
        let d := if bitAt bits 1 then d.bump Reg.SIN_CMP_CMD_CNT else d
        let d := if bitAt bits 2 then d.bump Reg.SIN_CMP_IO_CNT else d
        let key (i : Nat) : Nat := Ev.SIN_COMPARE.code * 2 ^ 24 + i
        let due := (setBits bits 3).any (fun (i : Nat) => decide ((Tbl.get d.hold (key i) ((0, 0) : Nat × Nat)).1 ≤ d.own))
        if due then
          let d := { d with hold := (setBits bits 3).foldl (fun (h : Tbl (Nat × Nat)) i => h.ins (key i) (d.own + oneSec, 0)) d.hold }
          d.raise Ev.SIN_COMPARE 0 (bits + k % 2 ^ 32 * 2 ^ 8)
        else d
    let agree : Nat := if bits ≠ 0 then 0 else if run then min (d.sin.agree + 1) (2 ^ 32 - 1) else 1
    let differ : Nat := if bits % 4 = 0 then 0 else if run then d.sin.differ + 1 else 1
    let d := { d.wr Reg.SIN_AGREE_AGREE_RUN agree with sin := { d.sin with agree := agree, differ := differ, lastCmp := some k } }
    let d := if 8 ≤ differ then d.setInstep false 1 else d
    if d.role = roleStandIn && d.sin.snapDone && decide (8000 ≤ agree) && !d.tainted && !d.sin.pTaint then d.setInstep true 1 else d
  | _, _ => d

/-- The digests of this device for a cycle: they are kept, sent and compared. -/
def Dev.digest (d : Dev) (k p c io : Nat) : Dev :=
  if d.solo then d
  else
    let own := Tbl.ins (d.sin.own.filter (fun x => decide (k < x.1 + 4))) k (p, c, io)
    let d := { d with sin := { d.sin with own := own, theirs := d.sin.theirs.filter (fun x => decide (k < x.1 + 4)) } }
    (d.peerSend d.pairLinks pfCompare (toLe k 4 ++ toLe p 4 ++ toLe c 4 ++ toLe io 4)).compareK k

/-- COMPARE: within K + 250 µs. -/
def Dev.compareRx (d : Dev) (p : List Byte) : Dev :=
  let k := d.extendCyc (le p 0 4)
  if !d.live || decide (k * 125000 + 250000 < d.now) then d
  else ({ d with sin := { d.sin with theirs := d.sin.theirs.ins k (le p 4 4, le p 8 4, le p 12 4) } }).compareK k

/-- Sends the snapshot that a joining partner awaits, with the Take counters (R150, R388). -/
def Dev.snapSend (d : Dev) : Dev :=
  if !d.sin.snapDue || d.role != roleActive then d
  else
    let d := { d with sin := { d.sin with snapDue := false } }
    let sync := toLe (sumN (d.rl.rings.map (fun g => 2 ^ g))) 8 ++ (List.range 64).flatMap (fun g => toLe (if d.rl.present g then d.rd Reg.LNK_RING_TAKE_TAKE g else 0) 4)
    let d := d.peerSend d.pairLinks pfTakeSync sync
    d.snapParts.foldl (fun (d : Dev) p => d.peerSend d.pairLinks pfState p) d

/-- TAKE_SYNC: a joining device takes each ring's Take counter before its first Slate. -/
def Dev.takeSync (d : Dev) (p : List Byte) : Dev :=
  if d.role ≠ roleStandIn then d
  else (d.rl.rings.filter (fun g => bitAt (le p 0 8) g)).foldl (fun (d : Dev) g =>
    let r := d.lr g
    if r.counted then d else (d.setLr g { r with counted := true }).wr Reg.LNK_RING_TAKE_TAKE (le p (8 + 4 * g) 4) g) d

/-- Applies the parts whose Take has come, in order; when all are applied the snapshot is complete. -/
def Dev.snapTry (d : Dev) : Dev :=
  match d.sin.parts with
  | [] => d
  | (_, take, b) :: _ =>
    let total := le b 8 4
    let here := d.rd Reg.LNK_RING_TAKE_TAKE (d.rl.rings.headD 0)
    if d.sin.parts.length < total || 2 ^ 31 ≤ (here + 2 ^ 32 - take) % 2 ^ 32 then d
    else
      let ps := sortBy (fun x y => decide (x.1 ≤ y.1)) d.sin.parts
      let d := { d with sin := { d.sin with parts := [], snapDone := true } }
      (ps.foldl (fun (d : Dev) x => d.snapApply x.2.2) d).clr Reg.SIN_STATUS_JOINING

/-- STATE: a part of the snapshot. A part whose index does not follow the parts received shows that one is lost, which clears `INSTEP`. -/
def Dev.stateRx (d : Dev) (p : List Byte) : Dev :=
  if d.role ≠ roleStandIn || !d.on Reg.SIN_STATUS_JOINING then d
  else
    let i := le p 2 2
    if i = 0 then { d with sin := { d.sin with parts := [(0, le p 4 4, p)] } }.snapTry
    else if i = d.sin.parts.length then { d with sin := { d.sin with parts := d.sin.parts ++ [(i, le p 4 4, p)] } }.snapTry
    else { d with sin := { d.sin with parts := [] } }.setInstep false 2

/-! ### Manual switch (R389, R390) -/

/-- `SIN_CTRL.SWITCH`: a request with its lead in ns, and the Wrap cause that waits for it (R390). -/
def Dev.switchGo (d : Dev) (lead : Nat) (cause : Option Nat) : Dev :=
  let k := boundaryAfter (d.now + lead)
  let cut := match d.img.cut with
    | some c => decide (c.time ≤ k * 125000 + 10000000) && decide (k * 125000 ≤ c.time + 10000000)
    | none => false
  let partner := d.on Reg.SIN_STATUS_PARTNER_OK && d.rd Reg.SIN_STATUS_PARTNER_ROLE == roleStandIn && d.rd Reg.SIN_STATUS_PARTNER_STATE == 4 && d.sin.pInstep
  let st := if d.role ≠ roleActive ∨ d.mode ≠ .run then 1
    else if !partner then 2
    else if d.on Reg.SIN_STATUS_SWITCH_PEND then 3
    else if cut then 5
    else 0
  let d := d.wr Reg.SIN_SWITCH_STATUS st
  if st ≠ 0 then d
  else
    let e := d.rd Reg.SIN_EPOCH_EPOCH + 1
    let d := { d with sin := { d.sin with switchK := some k, switchAt := d.own, switchOwn := true, acked := false, switchEpoch := e, switchWrap := cause } }
    let d := (d.set1 Reg.SIN_STATUS_SWITCH_PEND).wr Reg.SIN_SWITCH_K_K k
    d.peerSend d.pairLinks pfSwitch (toLe k 4 ++ toLe e 4)

/-- Tells the Stand-in that a switch is off: a SWITCH frame of zeros. -/
def Dev.switchOff (d : Dev) : Dev := d.peerSend d.pairLinks pfSwitch (toLe 0 8)

/-- `SIN_CTRL.SWITCH_ABORT`. -/
def Dev.switchAbort (d : Dev) : Dev :=
  if d.on Reg.SIN_STATUS_SWITCH_PEND then (d.switchEnd 6).switchOff else d

/-- SWITCH: the Stand-in takes the boundary and the epoch. -/
def Dev.switchRx (d : Dev) (p : List Byte) : Dev :=
  if d.role ≠ roleStandIn || d.mode != .run then d
  else if le p 4 4 = 0 then { d with sin := { d.sin with switchK := none } }
  else { d with sin := { d.sin with switchK := some (d.extendCyc (le p 0 4)), switchOwn := false, switchEpoch := le p 4 4 } }

/-- SWITCH_NO_ACK: 200 µs have passed. -/
def Dev.switchNoAck (d : Dev) : Dev :=
  if d.on Reg.SIN_STATUS_SWITCH_PEND && d.sin.switchOwn && !d.sin.acked && decide (d.sin.switchAt + 200000 ≤ d.own) then (d.switchEnd 4).switchOff else d

/-- SWITCH_BOUNDARY: the roles exchange at K_sw. -/
def Dev.switchAtK (d : Dev) : Dev :=
  match d.sin.switchK with
  | none => d
  | some k =>
    if d.cyc < k then d
    else if d.sin.switchOwn then
      if d.role ≠ roleActive || !d.sin.acked then d
      else
        let d := d.switchEnd 8
        let d := { d with sin := { d.sin with gates := false, actAt := none, lease := some (k * 125000, 0xFF) } }
        let d := d.rl.rings.foldl (fun (d : Dev) g => if (d.lr g).orig then d.setOrig g false else d) d
        (d.setRole roleStandIn).join 2 |>.set1 Reg.SIN_STATUS_INSTEP
    else
      let d := { d with sin := { d.sin with switchK := none, lease := none } }
      if d.role ≠ roleStandIn then d
      else
        let d := (d.setEpoch (max d.sin.switchEpoch (d.rd Reg.SIN_EPOCH_EPOCH))).setRole roleActive
        let d := { d.clr Reg.SIN_STATUS_JOINING with sin := { d.sin with gates := true, actAt := none } }
        d.dspTakeover.originate

/-! ### Notes (R391) -/

/-- NOTE: a debug halt of the partner clears `INSTEP`. -/
def Dev.noteRx (d : Dev) (p : List Byte) : Dev :=
  let k := byteAt p 0
  let d := if k = 1 then (d.set1 Reg.SIN_STATUS_PARTNER_DEBUG).setInstep false 3 else d
  d.raise Ev.SIN_PARTNER_NOTE d.partnerAddr (k + byteAt p 1 % 4 * 2 ^ 8 + byteAt p 2 % 4 * 2 ^ 10)

/-- A peer frame of a type on its way to what it does. -/
def Dev.onPeer (d : Dev) (link typ : Nat) (codeErr : Bool) (frame : List Byte) (f : Dev → List Byte → Dev) : Dev :=
  match d.peerRx link typ codeErr frame with
  | (d, some p) => f d p
  | (d, none) => d

end Sys2Proof.Machine
end

