-- ==== Sys2Proof/Machine/Gaf.lean ====
section
/-!
DEFINITION. Machine/Gaf.lean: the Gaffer (chapter 18): budget clients and grants (R450 to R455), die sensors and their thresholds (R456 to R459), throttle
(R460), compensation (R461), heat pools (R462), the Wrap (R463 to R467) and the immediate shutdown (R468).
-/
namespace Sys2Proof.Machine

/-! ### Clients (Table 18.2) -/

/-- The subsystem and the instance of a client. -/
def gafClient (c : Nat) : Nat × Nat :=
  if c < 64 then (4, c) else if c < 128 then (6, c - 64) else if c = 128 then (7, 0) else if c = 129 then (8, 0)
  else if c < 134 then (10, c - 130) else if c = 134 then (5, 0) else if c < 139 then (12, c - 135) else (13, 0)

/-- The full rate F of a client under a structure. -/
def Reel.clientFull (r : Reel) (c : Nat) : Nat :=
  let (s, i) := gafClient c
  match s with
  | 4 => if r.present i then 4 else 0
  | 6 => if r.present i then 5 else 0
  | 7 => 40
  | 8 => 10
  | 10 => if r.voted i then 30 else if r.split i then 20 else 0
  | 5 => 20
  | 12 => (match r.net i with | some x => if x.u8 9 = 0 then 0 else 6 | none => 0)
  | _ => 4

/-- The least floor of a client. -/
def leastFloor (c : Nat) : Nat :=
  let (s, i) := gafClient c
  match s with
  | 4 => 2 | 6 => 3 | 7 => 20 | 8 => 5 | 5 => 10 | 13 => 2
  | 10 => if i = 0 then 30 else 0
  | _ => 0

/-- The `GAF` type 2 record of a client. -/
def Reel.clientRec (r : Reel) (c : Nat) : Option Rec :=
  let (s, i) := gafClient c
  r.pick secGaf 2 (fun x => x.u8 8 == s && (x.u16 10 == i || x.u16 10 == 0xFFFF))

/-- The floor of a client (R451). -/
def Reel.clientFloor (r : Reel) (c : Nat) : Nat := match r.clientRec c with
  | some x => x.u16 12
  | none => leastFloor c

/-- The priority of a client: 0 without a record. -/
def Reel.clientPrio (r : Reel) (c : Nat) : Nat := match r.clientRec c with
  | some x => x.u8 9 % 8
  | none => 0

/-- Whether a queue of the structure is protected. -/
def Reel.protQ (r : Reel) (qid : Nat) : Bool := r.realmOf 2 qid 5

/-- Whether a client is in protected use (Table 18.2); `sf` says that `SF_EN` is set. -/
def Reel.protUse (r : Reel) (c : Nat) (sf : Bool) : Bool :=
  let (s, i) := gafClient c
  match s with
  | 4 => r.realmOf 1 4 4 || (r.sel secRoute 1).any (fun x => x.u16 8 == 0x3000 + i && r.protQ (x.u32 12))
  | 6 => r.realmOf 5 i 6
  | 7 => r.loops.any (fun l => r.realmOf 4 l 7)
  | 8 => r.realmOf 1 8 8
  | 10 => i == 0 || r.realmOf 3 i 10
  | 5 => r.queueRecs.any (fun q => decide (0x10000 ≤ q.qid) && r.protQ q.qid)
  | 12 => r.queueRecs.any (fun q => (q.u16 20 == 0xB000 + i || q.u16 18 == 0xA000 + i) && r.protQ q.qid) || (sf && decide (i < 2) && decide (r.clientFull c ≠ 0))
  | _ => r.realmOf 1 13 13

/-- Whether a client is in protected use. -/
def Dev.clientProt (d : Dev) (c : Nat) : Bool := d.rl.protUse c (d.on Reg.TRW_CFG0_SF_EN)

/-! ### Arbitration (R452, R453) -/

/-- One pass over the clients of a priority: client, want and grant; what is left of the budget. -/
def arbPass (share : Nat) : Nat → List (Nat × Nat × Nat) → Nat × List (Nat × Nat × Nat)
  | avail, [] => (avail, [])
  | avail, (c, w, g) :: r =>
    let add := min (min share (w - g)) avail
    let (a, l) := arbPass share (avail - add) r
    (a, (c, w, g + add) :: l)

/-- The passes over one priority, while something is left and someone wants it. -/
def arbPrio : Nat → Nat → List (Nat × Nat × Nat) → Nat × List (Nat × Nat × Nat)
  | 0, avail, l => (avail, l)
  | fuel + 1, avail, l =>
    let n := (l.filter (fun x => decide (x.2.2 < x.2.1))).length
    if avail = 0 ∨ n = 0 then (avail, l)
    else
      let (a, l) := arbPass (max 1 (avail / n)) avail l
      arbPrio fuel a l

/-- The grants of R452: clients as number, priority, want, floor grant. Answers client, want and grant. -/
def arbitrate (disc : Nat) (cl : List (Nat × Nat × Nat × Nat)) : List (Nat × Nat × Nat) :=
  let (_, out) := ((List.range 8).reverse).foldl (fun (a : Nat × List (Nat × Nat × Nat)) p =>
    let mine := (cl.filter (fun x => x.2.1 == p)).map (fun x => (x.1, x.2.2.1, x.2.2.2))
    let (left, got) := arbPrio (2 * mine.length + 4) a.1 mine
    (left, a.2 ++ got)) (disc, [])
  out

/-- The cap of a client. -/
def Dev.clientCap (d : Dev) (c : Nat) : Nat := d.rd Reg.GAF_CLIENT_CTRL_CAP c

/-- The reports of the clients at a boundary, and the grants (R452, R453). -/
def Dev.gafArbitrate (d : Dev) (k : Nat) : Dev :=
  if d.reel.isNone then d
  else
    let d := (List.range 140).foldl (fun (d : Dev) c =>
      match Config.demand c k with
      | none => d
      | some x =>
        let d := (d.wr Reg.GAF_CLIENT_GRANT_DEMAND (min x (d.rd Reg.GAF_CLIENT_RATE_FULL c)) c).clr Reg.GAF_CLIENT_CTRL_RECLAIMED c
        { d with gaf := { d.gaf with reportAt := d.gaf.reportAt.ins c d.own } }) d
    let cl := (List.range 140).map (fun c =>
      let f := d.rd Reg.GAF_CLIENT_RATE_FULL c
      let want := if d.on Reg.GAF_CLIENT_CTRL_RECLAIMED c then 0 else min (min (d.rd Reg.GAF_CLIENT_GRANT_DEMAND c) (d.clientCap c)) f
      (c, d.rd Reg.GAF_CLIENT_CFG_PRIO c, want, min (d.rd Reg.GAF_CLIENT_RATE_FLOOR c) f))
    let out := arbitrate (d.rd Reg.GAF_BUDGET_DISC) cl
    let d := out.foldl (fun (d : Dev) x => d.wr Reg.GAF_CLIENT_GRANT_GRANT x.2.2 x.1) d
    let d := d.wr Reg.GAF_BUDGET_GRANTED (sumN (out.map (fun x => x.2.2)) + d.rd Reg.GAF_POOL_FIXED)
    d.wr Reg.GAF_STATUS_SHORT (b2n (out.any (fun x => decide (x.2.2 < x.2.1))))

/-- GRANT_RECLAIM: 1 ms without a report. -/
def Dev.gafReclaim (d : Dev) (c : Nat) : Dev :=
  match d.gaf.reportAt.find c with
  | none => d
  | some a =>
    if d.own < a + 1000000 || d.on Reg.GAF_CLIENT_CTRL_RECLAIMED c then d
    else
      let g := d.rd Reg.GAF_CLIENT_GRANT_GRANT c
      let fl := min (d.rd Reg.GAF_CLIENT_RATE_FLOOR c) (d.rd Reg.GAF_CLIENT_RATE_FULL c)
      ((d.wr Reg.GAF_CLIENT_GRANT_GRANT (min g fl) c).set1 Reg.GAF_CLIENT_CTRL_RECLAIMED c).raise Ev.GAF_GRANT_RECLAIM c (g - fl)

/-- D0 of R460. -/
def Dev.disc0 (d : Dev) : Nat :=
  d.rd Reg.GAF_POOL_POOL - d.rd Reg.GAF_POOL_FIXED - sumN ((List.range 140).map (fun c => d.rd Reg.GAF_CLIENT_RATE_FLOOR c))

/-! ### Wrap requests (R390, R463, R466) -/

/-- The time limit of a cause in ms (Table 18.4). -/
def Dev.wrapLimit (d : Dev) (cause : Nat) : Nat :=
  let w := d.rl.gaf.u16 16
  if cause = 4 then min w (d.rd Reg.GAF_HOLDUP_HOLDUP) else w

/-- A cause that arrives during a Wrap (R466): it is recorded in the black box, may shorten the limit, and may turn the end into HALT. -/
def Dev.wrapAgain (d : Dev) (cause : Nat) : Dev :=
  match d.gaf.wrap with
  | none => d
  | some w =>
    let lim := d.wrapLimit cause
    let endAt := min w.endAt (d.own + (boundaryAfter d.now * 125000 - d.now) + lim * 1000000)
    let ev := eventItems (ts32 d.now) Ev.GAF_WRAP_START (d.subRealm 14) (d.evSeq.get 14 0) 0 (cause + lim * 2 ^ 16)
    let d := (d.bbPut 1 ev (d.bbContext 14)).getD d
    let d := { d with gaf := { d.gaf with wrap := some { w with endAt := endAt, toHalt := w.toHalt || cause != 5 } } }
    d.wr Reg.GAF_WRAP_TIME_LIMIT (min ((endAt - w.own0) / 1000000) 65535)

/-- A Wrap is requested. A cause local to the device lets an ACTIVE device switch first (R390). -/
def Dev.askWrap (d : Dev) (cause : Nat) : Dev :=
  if d.mode = .wrap then d.wrapAgain cause
  else if d.mode ≠ .run ∨ d.gaf.wrapReq.contains cause = true ∨ d.sin.switchWrap = some cause then d
  else
    let e := if cause = 2 ∨ cause = 3 ∨ cause = 4 then d.switchGo 250000 (some cause) else d
    if e.sin.switchWrap = some cause then e else { d with gaf := { d.gaf with wrapReq := d.gaf.wrapReq ++ [cause] } }

/-! ### The immediate shutdown (R468) -/

/-- Starts an immediate shutdown: 3 thermal, 4 supply loss, 8 Wrap limit. -/
def Dev.immStart (d : Dev) (cause : Nat) : Dev :=
  if d.gaf.immediate.isSome || d.mode.stateCode == 0 || d.mode == .halt then d
  else
    let d := { d with gaf := { d.gaf with immediate := some (cause, 0, d.cyc) } }
    (d.wr Reg.GAF_STATUS_WRAP_STATE 4).raise Ev.GAF_IMMEDIATE 0 cause

/-- The next step of an immediate shutdown at the boundary of cycle k: the withdrawing PERMIT leaves with that boundary's windows, and HALT is entered at the
boundary after. -/
def Dev.immAdvance (d : Dev) (k : Nat) : Dev :=
  match d.gaf.immediate with
  | none => d
  | some (cause, step, last) =>
    if k ≤ last then d
    else if step = 0 then { d with gaf := { d.gaf with immediate := some (cause, 1, k) } }
    else d.go .halt (if cause = 3 then 8 else 7)

/-- IMMEDIATE_SHUTDOWN: the sequence goes on at the boundary reached: a PERMIT that withdraws H and P on every ring, then HALT. -/
def Dev.immRun (d : Dev) : Dev :=
  let k := d.cyc
  match d.gaf.immediate with
  | none => d
  | some (_, step, last) =>
    if k ≤ last then d
    else
      let d := d.immAdvance k
      if step ≠ 0 ∨ !d.actRole ∨ !d.live then d
      else
        let d := { d with lnk := { d.lnk with permitK := some k } }
        d.rl.rings.foldl (fun (d : Dev) g =>
          let (d, cmds) := d.permit g k
          if (d.lr g).orig then cmds.foldl (fun (d : Dev) c => d.emit (.ring g 3 (d.frameOf c))) d else d) d

/-! ### Die sensors (R456 to R459) -/

def Dev.sensor (d : Dev) (s : Nat) : Sensor := d.gaf.sens.get s {}
def Dev.setSensor (d : Dev) (s : Nat) (x : Sensor) : Dev := { d with gaf := { d.gaf with sens := d.gaf.sens.set s x {} } }

/-- The neighbours of a sensor. -/
def sensorNbrs (s : Nat) : List Nat := let (a, b, c) := Config.sensorNbr s; [a % 32, b % 32, c % 32]

def Dev.sensT (d : Dev) (s : Nat) : Int := d.rdI Reg.GAF_SENS_T s
def Dev.sensOk (d : Dev) (s : Nat) : Bool := !d.on Reg.GAF_SENS_EXCL s

/-- The sensors of a die: 0 logic, 1 DRAM, 2 NVM, 3 watch. -/
def dieSensors (die : Nat) : List Nat := match die with
  | 0 => List.range 24 | 1 => [24, 25, 26, 27] | 2 => [28, 29] | _ => [30, 31]

/-- The die of a sensor. -/
def dieOf (s : Nat) : Nat := if s < 24 then 0 else if s < 28 then 1 else if s < 30 then 2 else 3

/-- The usable sensors of a die. -/
def Dev.usable (d : Dev) (die : Nat) : List Nat := (dieSensors die).filter d.sensOk

/-- The greatest of a list of codes. -/
def maxI (l : List Int) : Option Int := match l with
  | [] => none
  | a :: r => some (r.foldl max a)

/-- The temperature of a die (R458). -/
def Dev.dieTemp (d : Dev) (die : Nat) : Option Int := maxI ((d.usable die).map d.sensT)

/-- The cross-check of a sensor (R457). -/
def Dev.sensCheck (d : Dev) (s : Nat) : Dev :=
  if !d.sensOk s then d
  else
    let nb := (sensorNbrs s).filter d.sensOk
    let x := d.sensor s
    if nb.length < 2 then d.setSensor s { x with dev := none }
    else
      let m := median (nb.map d.sensT)
      if (d.sensT s - m).natAbs ≤ 1000 then d.setSensor s { x with dev := none }
      else
        let since := x.dev.getD d.own
        if since + oneSec ≤ d.own then
          ((d.setSensor s {}).set1 Reg.GAF_SENS_EXCL s).raise Ev.GAF_SENSOR_EXCLUDED s (d.rd Reg.GAF_SENS_T s + code 16 m * 2 ^ 16)
        else d.setSensor s { x with dev := some since }

/-- The pair counts of a sensor against `T_WRAP` (R458). -/
def Dev.sensWrap (d : Dev) (s : Nat) : Dev :=
  let lim := d.rdI Reg.GAF_THERM_T_WRAP
  let hot (k : Nat) : Bool := d.sensOk k && decide (lim ≤ d.sensT k)
  let x := d.sensor s
  let nb := sensorNbrs s
  let cnt (i old : Nat) : Nat := if hot s && hot (nb.getD i s) then min 4 (old + 1) else 0
  (d.setSensor s { x with wrap0 := cnt 0 x.wrap0, wrap1 := cnt 1 x.wrap1, wrap2 := cnt 2 x.wrap2 }).wr Reg.GAF_SENS_WRAP_LVL (b2n (decide (lim ≤ d.sensT s))) s

/-- A sensor and the neighbour that agree at the Wrap threshold for 4 samples. -/
def Dev.wrapPair (d : Dev) : Option (Nat × Nat) :=
  ((List.range 32).flatMap (fun s =>
    let x := d.sensor s
    let nb := sensorNbrs s
    (if 4 ≤ x.wrap0 then [(s, nb.getD 0 s)] else []) ++ (if 4 ≤ x.wrap1 then [(s, nb.getD 1 s)] else []) ++ (if 4 ≤ x.wrap2 then [(s, nb.getD 2 s)] else []))).head?

/-- The sensor of a set with the greatest reading. -/
def Dev.hottest (d : Dev) (l : List Nat) : Nat :=
  l.foldl (fun a s => if d.sensT a < d.sensT s then s else a) (l.headD 0)

/-- Enforcement begins (R460): THROTTLE_GRACE_EXPIRY. -/
def Dev.graceOut (d : Dev) : Dev :=
  match d.gaf.graceAt with
  | none => d
  | some a =>
    if d.own < a then d
    else
      let d := { d with gaf := { d.gaf with graceAt := none } }
      if d.gaf.warn.isEmpty then d
      else
        let disc := d.rd Reg.GAF_BUDGET_DISC - d.disc0 / 8
        let d := { ((d.set1 Reg.GAF_STATUS_THR_ENF).wr Reg.GAF_BUDGET_DISC disc) with gaf := { d.gaf with stepAt := d.own } }
        d.raise Ev.GAF_THROTTLE_ENFORCED 0 disc

/-- THROTTLE_STEP (R460). -/
def Dev.throttleStep (d : Dev) : Dev :=
  if d.on Reg.GAF_STATUS_THR_ENF && !d.gaf.warn.isEmpty && decide (d.gaf.stepAt + oneSec ≤ d.own) then
    { d.wr Reg.GAF_BUDGET_DISC (d.rd Reg.GAF_BUDGET_DISC - d.disc0 / 8) with gaf := { d.gaf with stepAt := d.own } }
  else d

/-- THROTTLE_RELEASE_STEP (R460). -/
def Dev.throttleRelease (d : Dev) : Dev :=
  match d.gaf.calmAt with
  | none => d
  | some a =>
    if !d.on Reg.GAF_STATUS_THR_ENF || !d.gaf.warn.isEmpty || decide (d.own < a + 10 * oneSec) then d
    else
      let d0 := d.disc0
      let disc := min d0 (d.rd Reg.GAF_BUDGET_DISC + d0 / 8)
      let d := { d.wr Reg.GAF_BUDGET_DISC disc with gaf := { d.gaf with calmAt := some d.own } }
      if disc < d0 ∧ d0 / 8 ≠ 0 then d
      else ((d.clr Reg.GAF_STATUS_THR_REQ).clr Reg.GAF_STATUS_THR_ENF).raise Ev.GAF_THROTTLE_END 0 0

/-- The warn level of the dies, with the alert and the throttle request (R458, R460). -/
def Dev.warnLevel (d : Dev) : Dev :=
  let t := d.rdI Reg.GAF_THERM_T_WARN
  let old := d.gaf.warn
  let now := [0, 1, 2, 3].filter (fun die => match d.dieTemp die with
    | none => false
    | some v => decide (t ≤ v) || (old.contains die && decide (t - 500 ≤ v)))
  let d := { (d.wr Reg.GAF_STATUS_ALERT (b2n (!now.isEmpty))) with
    gaf := { d.gaf with warn := now, calmAt := if now.isEmpty then some (d.gaf.calmAt.getD d.own) else none }, pins := { d.pins with thermN := now.isEmpty } }
  let d := if old.isEmpty && !now.isEmpty then
      let s := d.hottest (now.flatMap d.usable)
      d.raise Ev.GAF_TEMP_WARN s (d.rd Reg.GAF_SENS_T s)
    else d
  if old.isEmpty && !now.isEmpty && !d.on Reg.GAF_STATUS_THR_REQ then
    let d := { d.set1 Reg.GAF_STATUS_THR_REQ with gaf := { d.gaf with graceAt := some (d.own + d.rl.gaf.u16 10 * 1000000) } }
    (d.raise Ev.GAF_THROTTLE_REQ 0 (code 16 ((maxI (now.filterMap d.dieTemp)).getD 0))).graceOut
  else if now.isEmpty && d.gaf.graceAt.isSome then
    { d.clr Reg.GAF_STATUS_THR_REQ with gaf := { d.gaf with graceAt := none } }
  else d

/-- The Wrap threshold (R458): the event once, the request for as long as a die stands there. -/
def Dev.wrapLevel (d : Dev) : Dev :=
  match d.wrapPair with
  | none => { d with gaf := { d.gaf with wrapStand := false } }
  | some (s, n) =>
    let first := !d.gaf.wrapStand
    let d := if first then { d with gaf := { d.gaf with wrapStand := true } }.raise Ev.GAF_TEMP_WRAP s (d.rd Reg.GAF_SENS_T s + n * 2 ^ 16) else d
    if first || d.mode == .run then d.askWrap 3 else d

/-- Too few usable sensors (R459). -/
def Dev.sensorsLost (d : Dev) : Dev :=
  [0, 1, 2, 3].foldl (fun (d : Dev) die =>
    let n := (d.usable die).length
    let gone := if die = 0 then decide (n < 8) else n == 0
    if !gone then { d with gaf := { d.gaf with lost := d.gaf.lost.filter (fun x => x != die) } }
    else
      let first := !d.gaf.lost.contains die
      let d := if first then { d with gaf := { d.gaf with lost := die :: d.gaf.lost } }.raise Ev.GAF_SENSORS_LOST die n else d
      if first || d.mode == .run then d.askWrap 7 else d) d

/-- The comparators fire (R459): HW_THERMAL_SHUTDOWN. -/
def Dev.hwFire (d : Dev) (s : Nat) : Dev :=
  if d.gaf.hwAt.isSome || d.mode.stateCode == 0 || d.mode == .halt then d
  else
    let d := { d with gaf := { d.gaf with hwAt := some d.own } }.immStart 3
    d.raise Ev.GAF_TEMP_SHUTDOWN s (d.rd Reg.GAF_SENS_T s)

/-- The sensors at the hardware threshold that have a neighbour there. -/
def Dev.hwHot (d : Dev) : List Nat :=
  (List.range 32).filter (fun s => decide (11500 ≤ d.sensT s) && (sensorNbrs s).any (fun n => decide (11500 ≤ d.sensT n)))

/-- The hardware comparators at a sample: twice in a row fires them. -/
def Dev.hwSample (d : Dev) : Dev :=
  let hot := d.hwHot
  let both := hot.filter (fun s => d.gaf.hwPrev.contains s)
  let d := { d with gaf := { d.gaf with hwPrev := hot } }
  match both with
  | s :: _ => d.hwFire s
  | [] => d

/-- HALT_FORCE: 1 ms after the comparators fired. -/
def Dev.haltForce (d : Dev) : Dev :=
  match d.gaf.hwAt with
  | some a => if a + 1000000 ≤ d.own then d.go .halt 8 else d
  | none => d

/-- DIE_SENSOR_SAMPLE: the 32 readings of a sample. -/
def Dev.sensSample (d : Dev) (temps : List Int) : Dev :=
  if temps.length ≠ 32 ∨ d.mode.stateCode = 0 then d
  else
    let d := (List.range 32).foldl (fun (d : Dev) s => d.wrI Reg.GAF_SENS_T (temps.getD s 0) s) d
    let d := (List.range 32).foldl (fun (d : Dev) s => d.sensCheck s) d
    let d := (List.range 32).foldl (fun (d : Dev) s => d.sensWrap s) d
    let d := (((d.wrI Reg.GAF_DIE_T0_LOGIC ((d.dieTemp 0).getD 0)).wrI Reg.GAF_DIE_T0_DRAM ((d.dieTemp 1).getD 0)).wrI Reg.GAF_DIE_T1_NVM
      ((d.dieTemp 2).getD 0)).wrI Reg.GAF_DIE_T1_WATCH ((d.dieTemp 3).getD 0)
    let d := if d.reel.isSome then d.warnLevel.wrapLevel else d
    d.sensorsLost.hwSample

/-- `GAF_SENS_CTRL.RESTORE` (R457). -/
def Dev.sensRestore (d : Dev) (s : Nat) : Dev :=
  if d.sensOk s then d else ((d.setSensor s {}).clr Reg.GAF_SENS_EXCL s).raise Ev.GAF_SENSOR_RESTORED s 0

/-! ### Compensation (R461) -/

/-- COMPENSATION_UPDATE. -/
def Dev.compensate (d : Dev) : Dev :=
  if d.mode.stateCode = 0 then d
  else
    let logic := (d.usable 0).map d.sensT
    let aux := (d.usable 3).map d.sensT
    let held := b2n logic.isEmpty + (if aux.isEmpty then 6 else 0)
    let old := d.rd Reg.GAF_COMP_AMP_HOLD + d.rd Reg.GAF_COMP_ADC_HOLD * 2 + d.rd Reg.GAF_COMP_RTC_HOLD * 4
    let ref : Int := if d.on Reg.TB_HOLD_CTRL_TSRC && d.sensOk 0 then d.sensT 0 else if logic.isEmpty then d.gaf.refTemp else median logic
    let d := { d with gaf := { d.gaf with refTemp := ref } }
    let d := if aux.isEmpty then d
      else d.wrI Reg.GAF_COMP_RTC_CORR (clampS 16 (rhu (Config.rtcCorrection (rhu (sumI aux) aux.length)) 100000))
    let d := ((d.wr Reg.GAF_COMP_AMP_HOLD (held % 2)).wr Reg.GAF_COMP_ADC_HOLD (held / 2 % 2)).wr Reg.GAF_COMP_RTC_HOLD (held / 4)
    if (held &&& (7 - old)) ≠ 0 then d.raise Ev.GAF_COMP_HOLD 0 held else d

/-! ### Heat pools (R462) -/

/-- The highest filtered temperature of a container's used, not excluded inputs, as SWP holds it. -/
def Dev.containerTemp (d : Dev) (first count : Nat) : Option Int :=
  maxI ((List.range count).flatMap (fun i => (d.rl.cellNodesOf (first + i)).flatMap (fun n =>
    (setBits n.ndTempMask 8).filterMap (fun j =>
      let f := d.tfilt (1024 * n.ndRing + n.ndTempBase + j)
      if f.valid && !bitAt (d.rd Reg.SWP_NODE_DIAG_TEMP_EXCL n.ndRing n.ndAddr) j then some f.out else none))))

/-- The granted pool of a container. -/
def Dev.heatEval (d : Dev) (c : Nat) : Dev :=
  match (d.containers.find? (fun x => x.1 == c)) with
  | none => d
  | some (_, first, count, pool) =>
    let t0 := d.rdI Reg.GAF_HEAT_CFG_HEAT_T0
    let t1 := d.rdI Reg.GAF_HEAT_CFG_HEAT_T1
    let t := d.containerTemp first count
    let d := match t with | some v => d.wrI Reg.GAF_HEAT_CAP_T_HOT v c | none => d
    let g : Nat := match t with
      | none => 0
      | some v => if v ≤ t0 then pool else if t1 ≤ v then 0 else (Int.fdiv ((pool : Int) * (t1 - v)) (t1 - t0)).toNat
    let cap := d.rd Reg.GAF_HEAT_CAP_CAP c
    let g := if d.mode = .wrap then 0 else if cap = 0xFFFF then g else min g cap
    let old := d.rd Reg.GAF_HEAT_POOL_GRANTED c
    let d := d.wr Reg.GAF_HEAT_POOL_GRANTED g c
    if g < old then (d.raise Ev.GAF_HEAT_CUT c g).balFit c else d

/-- HEAT_POOL_EVALUATE: every container. -/
def Dev.heatAll (d : Dev) : Dev := d.containers.foldl (fun (d : Dev) x => d.heatEval x.1) d

/-! ### The Wrap (R463 to R467) -/

/-- Replaces a string of the Wrap. -/
def WrapRun.put (w : WrapRun) (s : Nat) (x : WString) : WrapRun := { w with strings := w.strings.ins s x }

/-- Shows the state of the Wrap in the registers, and signals the Wrap trigger once every string has been at zero or reached OPEN. -/
def Dev.wrapShow (d : Dev) : Dev :=
  match d.gaf.wrap with
  | none => d
  | some w =>
    let all := w.strings.map (fun x => x.2)
    let done := all.filter (fun x => x.st == .done)
    let st := if done.length = all.length then 3 else if all.any (fun x => x.st == .ramp || x.st == .held) then 1 else 2
    let d := (d.wr Reg.GAF_WRAP_STAT_STRINGS all.length).wr Reg.GAF_WRAP_STAT_DONE done.length
    let d := if d.gaf.immediate.isSome then d else d.wr Reg.GAF_STATUS_WRAP_STATE st
    if !w.trigger && all.all (fun x => x.zeroed || x.st == .opening || x.st == .done) then
      { d with gaf := { d.gaf with wrap := some { w with trigger := true } }, est := { d.est with wrapSnap := d.rl.rings } }
    else d

/-- Whether a string has a permit in force: the last PERMIT granted both H and P. -/
def Dev.permitted (d : Dev) (s : Nat) : Bool := d.on Reg.TRW_STR_STAT_H_GRANT s && d.on Reg.TRW_STR_STAT_P_GRANT s

/-- A string leaves OPEN (Table 18.5): confirmed, or 0 by the timeout, or 1 with `MISSING` latched. -/
def Dev.wrapDone (d : Dev) (w : WrapRun) (s : Nat) (x : WString) (why : Option Nat) : Dev :=
  let d := { d with gaf := { d.gaf with wrap := some (w.put s { x with st := .done, unconf := why.isSome }) } }
  match why with
  | some r => d.raise Ev.GAF_OPEN_UNCONFIRMED s r
  | none => d

/-- WRAP_STRING_STEP: a string advances as its Takes and its STATUS show (Table 18.5). -/
def Dev.wrapStep (d : Dev) (s : Nat) : Dev :=
  match d.gaf.wrap with
  | none => d
  | some w =>
    match w.strings.find s with
    | none => d
    | some x =>
      let t := d.ts s
      let zero (since : Nat) : Bool := decide (since ≤ t.curAt) && t.curOk && decide (t.cur ≤ max 1 (d.rd Reg.GAF_WRAP_CFG_ZERO_I) * 100)
      let set (x : WString) : Dev := { d with gaf := { d.gaf with wrap := some (w.put s x) } }
      match x.st with
      | .ramp =>
        if !d.permitted s then set { x with st := .opening }
        else if zero w.start then set { x with st := .held, zeroed := true }
        else d
      | .held =>
        if !d.permitted s then set { x with st := .opening }
        else (match x.hold with
          | some h => if zero (h + 2000000) then set { x with st := .opening, zeroed := true } else d
          | none => d)
      | .opening =>
        if bitAt (d.rd Reg.TRW_STR_CAUSE_CAUSES s) cMissing then d.wrapDone w s x (some 1)
        else (match x.openAt with
          | some (o, _) => if o + 2000000 ≤ t.statAt ∧ d.rd Reg.TRW_STR_STAT_CONTACT s % 4 = 0 then d.wrapDone w s x none else d
          | none => d)
      | .done => d

/-- Every string of the Wrap. -/
def Dev.wrapSteps (d : Dev) : Dev :=
  match d.gaf.wrap with
  | none => d
  | some w => (w.strings.foldl (fun (d : Dev) x => d.wrapStep x.1) d).wrapShow

/-- WRAP_HOLD_T: strings still in RAMP are held regardless. -/
def Dev.wrapHoldT (d : Dev) : Dev :=
  match d.gaf.wrap with
  | none => d
  | some w =>
    if d.own < w.own0 + max 1 (d.rd Reg.GAF_WRAP_CFG_HOLD_T) * 1000000 then d
    else { d with gaf := { d.gaf with wrap := some { w with strings := w.strings.map (fun x => (x.1, if x.2.st == .ramp then { x.2 with st := .held } else x.2)) } } }

/-- WRAP_OPEN_TIMEOUT: a string has been OPEN for 100 ms. -/
def Dev.wrapOpenOut (d : Dev) (s : Nat) : Dev :=
  match d.gaf.wrap with
  | none => d
  | some w =>
    match w.strings.find s with
    | none => d
    | some x => match x.st, x.openAt with
      | .opening, some (_, o) => if o + 100000000 ≤ d.own then (d.wrapDone w s x (some 0)).wrapShow else d
      | _, _ => d

/-- The HOLD frames of a ring for the present window, and the instants at which HOLD and the withdrawals enter the ring (R464). -/
def Dev.wrapHolds (d : Dev) (ring : Nat) : Dev × List LCmd :=
  match d.gaf.wrap with
  | none => (d, [])
  | some w =>
    let mine := (d.rl.heads ring).filterMap (fun n => (w.strings.find n.ndString).map (fun x => (n, x)))
    let due := mine.filter (fun p => p.2.st == .held && p.2.hold.isNone)
    let w := mine.foldl (fun (w : WrapRun) p =>
      if p.2.st == .held && p.2.hold.isNone then w.put p.1.ndString { p.2 with hold := some d.now }
      else if p.2.st == .opening && p.2.openAt.isNone then w.put p.1.ndString { p.2 with openAt := some (d.now, d.own) }
      else w) w
    ({ d with gaf := { d.gaf with wrap := some w } }, due.map (fun p => { typ := 0x1C, dest := p.1.ndAddr, pay := [1#8, 0#8] }))

/-- An armed cut-over is given up (R103, R105): 1 not ready, 2 partner not ready, 3 time step, 4 disarmed. -/
def Dev.cutMiss (d : Dev) (why : Nat) : Dev :=
  match d.img.cut with
  | none => d
  | some c => ({ d with img := { d.img with cut := none } }.wr Reg.IMG_STATUS_CUT 0).raise Ev.IMG_CUT_MISSED c.slot why

/-- Entry to WRAP at a boundary for the waiting causes (R463, R464, R466, R467). -/
def Dev.wrapEnter (d : Dev) : Dev :=
  match d.gaf.wrapReq with
  | [] => d
  | cause :: more =>
    let d := { d with gaf := { d.gaf with wrapReq := [] } }
    if d.mode ≠ .run then d
    else
      let lim := d.wrapLimit cause
      let idle := !d.actRole
      let strs := d.rl.allStrings.foldl (fun (t : Tbl WString) s =>
        t.ins s (if idle then { st := .done } else if d.permitted s then {} else { st := .opening })) []
      let w : WrapRun := { cause := cause, start := d.now, own0 := d.own, endAt := d.own + lim * 1000000, strings := strs, toHalt := cause != 5 }
      let d := (d.testEnd 3).cutMiss 4
      let d := { d with mode := .wrap, gaf := { d.gaf with wrap := some w } }
      let d := (d.wr Reg.GAF_STATUS_WRAP_CAUSE cause).wr Reg.GAF_WRAP_TIME_LIMIT lim
      let d := (d.raise Ev.GAF_WRAP_START 0 (cause + lim * 2 ^ 16)).go .wrap 5
      let d := { d with swp := { d.swp with plans := [] } }
      (more.foldl (fun (d : Dev) c => d.wrapAgain c) d.heatAll).wrapShow

/-- The Wrap at a cycle boundary: a cause that waited for a switch comes due once the switch has ended, then entry, or the steps of the strings. -/
def Dev.wrapBoundary (d : Dev) : Dev :=
  let d := match d.sin.switchWrap with
    | some c => if d.on Reg.SIN_STATUS_SWITCH_PEND then d
        else { d with sin := { d.sin with switchWrap := none }, gaf := { d.gaf with wrapReq := d.gaf.wrapReq.filter (fun x => x != c) ++ [c] } }
    | none => d
  d.wrapEnter.wrapSteps

/-- Whether the Wrap has run its course (R465): every string DONE, the snapshots and the black box written. -/
def Dev.wrapReady (d : Dev) : Bool :=
  match d.gaf.wrap with
  | none => false
  | some w => w.strings.all (fun x => x.2.st == .done) && w.trigger && d.est.wrapSnap.isEmpty && !d.pst.writes.any (fun x => x.kind == 1) && d.pst.bbBuf.isEmpty
      && w.sleep == 0 && d.gaf.immediate.isNone

/-- The event of a completed Wrap. -/
def Dev.wrapDoneEv (d : Dev) (w : WrapRun) : Dev :=
  let ms := min ((d.own - w.own0) / 1000000) 65535
  (d.wr Reg.GAF_WRAP_TIME_ELAPSED ms).raise Ev.GAF_WRAP_DONE 0 (ms + (w.strings.filter (fun x => x.2.unconf)).length % 2 ^ 9 * 2 ^ 16)

/-- WRAP_LIMIT (R465). -/
def Dev.wrapLimitOut (d : Dev) : Dev :=
  match d.gaf.wrap with
  | none => d
  | some w =>
    if d.own < w.endAt ∨ w.sleep ≠ 0 ∨ d.gaf.immediate.isSome then d
    else (d.raise Ev.GAF_WRAP_LIMIT 0 (w.strings.filter (fun x => x.2.st != .done)).length).immStart 8

/-- SHUTDOWN_REQ: the ball has been low for 1 ms. -/
def Dev.shutdownReq (d : Dev) : Dev := (d.set1 Reg.GAF_STATUS_SHUTDOWN_REQ).askWrap 2

/-- PWR_GOOD_FALL: the ball has been low for 10 µs (R463). -/
def Dev.pwrFall (d : Dev) : Dev :=
  let d := { d with supply := { d.supply with pwrGood := false } }
  if !d.live then d
  else
    let short : Bool := match d.gaf.wrap with
      | some w => d.mode == .wrap && decide (w.endAt < d.own + 1000000)
      | none => false
    if d.rd Reg.GAF_HOLDUP_HOLDUP = 0 ∨ short then d.immStart 4 else d.askWrap 4

/-- The Gaffer leaves a Wrap or a shutdown behind. -/
def Dev.gafClear (d : Dev) : Dev :=
  { (d.wr Reg.GAF_STATUS_WRAP_STATE 0) with gaf := { d.gaf with wrap := none, immediate := none, wrapReq := [], hwAt := none, hwPrev := [] } }

/-- What a structure gives the Gaffer (R450, R451, R460, R462); grants and exclusions are kept. -/
def Dev.gafBuild (d : Dev) : Dev :=
  let r := d.rl
  let d := ((d.wr Reg.GAF_POOL_POOL (r.gaf.u16 8)).wr Reg.GAF_THERM_T_WARN (r.gaf.u16 12)).wr Reg.GAF_THERM_T_WRAP (r.gaf.u16 14)
  let d := (List.range 140).foldl (fun (d : Dev) c =>
    ((d.wr Reg.GAF_CLIENT_CFG_PRIO (r.clientPrio c) c).wr Reg.GAF_CLIENT_RATE_FULL (r.clientFull c) c).wr Reg.GAF_CLIENT_RATE_FLOOR
      (min (r.clientFloor c) (r.clientFull c)) c) d
  let d := if d.on Reg.GAF_STATUS_THR_ENF then d.wr Reg.GAF_BUDGET_DISC (min (d.rd Reg.GAF_BUDGET_DISC) d.disc0) else d.wr Reg.GAF_BUDGET_DISC d.disc0
  let d := (List.range 64).foldl (fun (d : Dev) c => d.wr Reg.GAF_HEAT_POOL_POOL_W (match d.containers.find? (fun x => x.1 == c) with | some x => x.2.2.2 | none => 0) c) d
  d.heatAll

end Sys2Proof.Machine
end

