-- ==== Sys2Proof/Machine/Pst.lean ====
section
/-!
DEFINITION. Machine/Pst.lean: the persistent store's writing side (R479 to R485): record writes with page wear, retirement and spares, a region without
spares, the background read, the black box and its window.
-/
namespace Sys2Proof.Machine

/-! ### Regions and wear (Table 19.2, R482, R483) -/

/-- The first page and the pages of a region. -/
def nvPages (r : Nat) : Nat × Nat :=
  match r with
  | 0 => (0, 16384) | 1 => (16384, 16384) | 2 => (32768, 256) | 3 => (33024, 32768) | _ => (65792, 16384)

/-- The spare allotment of a region. -/
def nvSpares (r : Nat) : Nat :=
  match r with
  | 0 => 2048 | 1 => 2048 | 2 => 256 | 3 => 16384 | _ => 8192

/-- The first spare page of a region, in region 5. -/
def nvSpare0 (r : Nat) : Nat :=
  match r with
  | 0 => 82176 | 1 => 84224 | 2 => 86272 | 3 => 86528 | _ => 102912

/-- The spares a region has left. -/
def Pst.sparesLeft (p : Pst) (r : Nat) : Nat := nvSpares r - p.sparesUsed.get r 0

/-- Retires a page: a spare of the region's allotment takes its place. False when the region has none left. -/
def Dev.retirePage (d : Dev) (region page : Nat) (verify : Bool) : Dev × Bool :=
  if d.pst.sparesLeft region = 0 then (d, false)
  else
    let used := d.pst.sparesUsed.get region 0
    let d := { d with pst := { d.pst with sparesUsed := d.pst.sparesUsed.ins region (used + 1), pages := d.pst.pages.ins page { remap := some (nvSpare0 region + used) } } }
    let left := d.pst.sparesLeft region
    let d := (d.bump Reg.PST_WEAR_PAGES_RETIRED 1 region).raise Ev.PST_PAGE_RETIRED page (region + b2n verify * 8 + left % 65536 * 2 ^ 16)
    if left * 10 < nvSpares region ∧ !d.pst.sparesLow.contains region then
      (({ d with pst := { d.pst with sparesLow := region :: d.pst.sparesLow } }).raise Ev.PST_SPARES_LOW region left, true)
    else (d, true)

/-- The median of the verify pulses of a page's first 16 programs, once it has had them (R482). -/
def Page.midPulses (p : Page) : Option Int := if p.pulses.length < 16 then none else some (median (p.pulses.map Int.ofNat))

/-- Counts an erase of a page. -/
def Dev.erasePage (d : Dev) (region page : Nat) : Dev :=
  let p := d.pst.pages.get page {}
  let d := { d with pst := { d.pst with pages := d.pst.pages.ins page { p with cycles := p.cycles + 1 }, erases := d.pst.erases.ins region (d.pst.erases.get region 0 + 1) } }
  d.wr Reg.PST_WEAR_CYCLES_CYCLES (max (d.rd Reg.PST_WEAR_CYCLES_CYCLES region) (p.cycles + 1)) region

/-- Warns once of a page whose pulses or cycles have passed their limit. -/
def Dev.wearWarn (d : Dev) (region page pulses : Nat) : Dev :=
  let p := d.pst.pages.get page {}
  let slow : Bool := match p.midPulses with
    | some m => decide (3 * m < 2 * (pulses : Int))
    | none => false
  if !p.warned && (slow || decide (80000 < p.cycles)) then
    let d := { d with pst := { d.pst with pages := d.pst.pages.ins page { p with warned := true } } }
    (d.bump Reg.PST_WEAR_PAGES_WARNED 1 region).raise Ev.PST_WEAR_WARN page (b2n slow + p.cycles % 2 ^ 24 * 2 ^ 8)
  else d

/-- Programs a page, erased first where the write begins the page: the wear it counts, the warning, and its retirement before its 100,001st erase or
when the program fails to verify. False when the region has no spare for it. -/
def Dev.programPage (d : Dev) (region page : Nat) (erase : Bool) (pulses : Nat) (fail : Bool) : Dev × Bool :=
  let (d, ok) := if erase && decide (100000 ≤ (d.pst.pages.get page {}).cycles) then d.retirePage region page false else (d, true)
  if !ok then (d, false)
  else
    let d := if erase then d.erasePage region page else d
    let p := d.pst.pages.get page {}
    let d := { d with pst := { d.pst with pages := d.pst.pages.ins page { p with pulses := if p.pulses.length < 16 then p.pulses ++ [pulses] else p.pulses } } }
    let d := d.wearWarn region page pulses
    if fail then d.retirePage region page true else (d, true)

/-- Records a sample of a region's erases, at most one a day, over 7 days (`DAYS_LEFT`). -/
def Dev.wearSample (d : Dev) (region : Nat) : Dev :=
  let h := d.pst.hist.get region []
  let day : Nat := 86400 * oneSec
  let keep := h.filter (fun x => decide (d.now < x.1 + 7 * day))
  let new := match keep.getLast? with
    | some x => if d.now < x.1 + day then keep else keep ++ [(d.now, d.pst.erases.get region 0)]
    | none => [(d.now, d.pst.erases.get region 0)]
  { d with pst := { d.pst with hist := d.pst.hist.ins region new } }

/-- Days until the mean cycle count of a region reaches 80,000 at the rate of the last 7 days (Table 19.10). -/
def Dev.daysLeft (d : Dev) (region : Nat) : Nat :=
  match (d.pst.hist.get region []).head? with
  | none => 0xFFFF
  | some (t0, e0) =>
    let e := d.pst.erases.get region 0
    let rate := e - e0
    if rate = 0 then 0xFFFF else min 0xFFFF ((80000 * (nvPages region).2 - e) * (d.now - t0) / rate / (86400 * oneSec))

/-- The learned-value store becomes read-only (R483): every present channel shows `FROZEN`, and what waits for the store is dropped. -/
def Dev.learnFreeze (d : Dev) : Dev :=
  if d.pst.learnRo then d
  else
    let d := { d with pst := { d.pst with learnRo := true, writes := d.pst.writes.filter (fun w => nvRegion w.kind != 3) } }
    let chs := d.rl.rings.flatMap (fun ring => ((d.ringStrs ring).flatMap d.strCells).map (fun x => x.2.2))
    let d := chs.foldl (fun (d : Dev) c => d.set1 Reg.EST_CH_STAT_FROZEN c) (d.set1 Reg.PST_STATUS_LEARN_RO)
    d.raise Ev.PST_LEARN_FROZEN 0 0

/-- The records that fit into each half of the black box. -/
def Pst.bbCap (p : Pst) : Nat := 131072 - 16 * p.bbPagesGone

/-- A region must retire a page and has no spare left (R483). -/
def Dev.regionOut (d : Dev) (region : Nat) : Dev :=
  if region = 3 then d.learnFreeze
  else if region = 4 then
    let d := { d with pst := { d.pst with bbPagesGone := d.pst.bbPagesGone + 1 } }
    let d := { d with pst := { d.pst with bb := d.pst.bb.drop (d.pst.bb.length - d.pst.bbCap) } }
    if d.pst.bbCap < 1024 ∧ !d.pst.bbFullEv then ({ d with pst := { d.pst with bbFullEv := true } }).raise Ev.PST_REGION_FULL 4 0 else d
  else d.raise Ev.PST_REGION_FULL region 0

/-! ### Writing (R480, R485) -/

/-- A two-copy program as the store reports it: the page of each copy, whether the page was erased for it, its verify pulses, whether it failed to verify. -/
def Dev.programTwo (d : Dev) (region : Nat) (a b : NvProg) : Dev × Bool :=
  let (d, ok0) := d.programPage region a.page a.erase a.pulses a.fail
  let (d, ok1) := d.programPage region b.page b.erase b.pulses b.fail
  (d.wearSample region, ok0 && ok1)

/-- The oldest black-box record of the buffer is written; a loss marker follows when records were discarded (R485). -/
def Dev.bbWritten (d : Dev) (a b : NvProg) : Dev :=
  match d.pst.bbBuf with
  | [] => d
  | r :: _ =>
    let (d, ok) := d.programTwo 4 a b
    let d : Dev := if ok then d else d.regionOut 4
    let new := d.pst.bb ++ [({ r with page0 := a.page, page1 := b.page } : BbRec)]
    let d := { d with pst := { d.pst with bbBuf := d.pst.bbBuf.drop 1, bb := new.drop (new.length - d.pst.bbCap) } }
    if d.pst.bbLost = 0 then d
    else
      let d := match d.bbPut 4 (0#64, 0#64) [BitVec.ofNat 32 d.pst.bbLost] with
        | some d => d
        | none => d
      { d with pst := { d.pst with bbLost := 0, bbDropEv := false } }

/-- The oldest waiting record is written in a new generation (R480); the epoch reservation shows in `SIN_EPOCH` once it is (R378). -/
def Dev.recWritten (d : Dev) (a b : NvProg) : Dev :=
  match d.pst.writes with
  | [] => d
  | w :: rest =>
    let region := nvRegion w.kind
    let d := { d with pst := { d.pst with writes := rest } }
    let (d, ok) := d.programTwo region a b
    if !ok then d.regionOut region
    else
      let old := d.pst.find w.kind w.key
      let gen := match old with
        | some r => r.gen + 1
        | none => 1
      let d := { d with pst := d.pst.store { kind := w.kind, key := w.key, gen := gen, body := w.body, time := d.now, page0 := a.page, page1 := b.page, prev := old.map (fun r => r.body) } }
      if w.kind = 7 then d.wr Reg.SIN_EPOCH_RES_H (le w.body 0 4) else d

/-- RECORD_WRITE_DONE (R480, R482, R483, R485). -/
def Dev.writeDone (d : Dev) (bb : Bool) (a b : NvProg) : Dev :=
  if !d.mainOn then d else if bb then d.bbWritten a b else d.recWritten a b

/-! ### Reading (R481, R485) -/

/-- Reads a black-box record: what the read repairs, counts and reports. -/
def Dev.bbRead (d : Dev) (seq : Nat) : Dev × Option BbRec :=
  match d.pst.bb.find? (fun r => r.seq == seq) with
  | none => (d, none)
  | some r =>
    if r.ok0 && r.ok1 || !r.ok0 && !r.ok1 then (d, some r)
    else
      let d := { d with pst := { d.pst with bb := d.pst.bb.map (fun (x : BbRec) => if x.seq == seq then { x with ok0 := true, ok1 := true } else x) } }
      ((d.bump Reg.PST_CNT_ECC_CNT).raise Ev.PST_ECC (if r.ok0 then r.page1 else r.page0) 0xFF, some r)

/-- PST_BB_SEL (R485): selects a record for the window. -/
def Dev.bbSelect (d : Dev) : Dev :=
  match d.bbRead (d.rd Reg.PST_BB_SEL_SEQ) with
  | (d, none) => d.wr Reg.PST_BB_SEL_STAT_STAT 1
  | (d, some r) => d.wr Reg.PST_BB_SEL_STAT_STAT (if r.ok0 || r.ok1 then 0 else 2)

/-- The bytes of a black-box record (Table 19.4) as a copy of it holds them. -/
def BbRec.bytes (r : BbRec) (copy : Nat) : List Byte :=
  let h := toLe 0x4242 2 ++ [BitVec.ofNat 8 r.kind, BitVec.ofNat 8 copy] ++ toLe r.seq 4 ++ time12 r.time ++ toLe r.ev0.toNat 8 ++ toLe r.ev1.toNat 8
    ++ padTo ((r.context.map (fun w => toLe w.toNat 4)).flatten) 216
  h ++ toLe (crc32c h) 4

/-- A word of `PST_BB_REC`: of the surviving copy; a free value where no copy of the record is to be had (assumption log 2). -/
def Dev.bbWord (d : Dev) (k : Nat) : Dev × Nat :=
  match d.pst.bb.find? (fun r => r.seq == d.rd Reg.PST_BB_SEL_SEQ) with
  | some r => if r.ok0 || r.ok1 then (d, le (r.bytes (b2n (!r.ok0))) (4 * k) 4) else d.fresh
  | none => d.fresh

/-- PST_SCRUB (R481): the background read has been over every page. `found` gives the pages that needed corrections with the most in one of their sectors: from 4 on
the records of the page are rewritten, beyond 8 the copy fails its checks. -/
def Dev.scrub (d : Dev) (found : List (Nat × Nat)) : Dev :=
  if !d.mainOn then d
  else
    let most := fun (p : Nat) => maxN ((found.filter (fun x => x.1 == p)).map (fun x => x.2)) 0
    let d := { d with pst := { d.pst with
      recs := d.pst.recs.map (fun (r : NvRec) => { r with ok0 := r.ok0 && decide (most r.page0 ≤ 8), ok1 := r.ok1 && decide (most r.page1 ≤ 8) })
      bb := d.pst.bb.map (fun (r : BbRec) => { r with ok0 := r.ok0 && decide (most r.page0 ≤ 8), ok1 := r.ok1 && decide (most r.page1 ≤ 8) }) } }
    let d := (d.pst.recs.map (fun (r : NvRec) => (r.kind, r.key))).foldl (fun (d : Dev) (k : Nat × Nat) =>
      let (d, b) := d.nvRead k.1 k.2
      match b, d.pst.find k.1 k.2 with
      | some body, some r => if 4 ≤ most r.page0 ∨ 4 ≤ most r.page1 then (if d.pst.writes.any (fun w => w.kind == k.1 && w.key == k.2) then d else d.nvWrite k.1 k.2 body) else d
      | _, _ => d) d
    (d.pst.bb.map (fun (r : BbRec) => r.seq)).foldl (fun (d : Dev) q => (d.bbRead q).1) d

end Sys2Proof.Machine
end

