-- ==== Sys2Proof/Machine/ReelForm.lean ====
section
/-!
DEFINITION. Machine/ReelForm.lean: the form of an image: blocks, header, directory, signature block, and the record tables with the range or the set of
values printed for each field (R58 to R65, R84, R85, Tables 3.1 to 3.18; Table 3.19, codes 0x01 to 0x24).
-/
namespace Sys2Proof.Machine

/-- Why an image is refused (R86): reason code of Table 3.19, directory index or 0xFF, record index or 0xFFFFFF. -/
structure LoadErr where
  code : Nat
  sec : Nat := 0xFF
  idx : Nat := 0xFFFFFF
deriving DecidableEq, Repr

/-- The refusal when a condition holds. -/
def bad (c : Bool) (code : Nat) (sec : Nat := 0xFF) (idx : Nat := 0xFFFFFF) : Option LoadErr :=
  if c then some { code := code, sec := sec, idx := idx } else none

/-! ### Blocks (Table 3.1) -/

def blkImage (b : List Byte) : Nat := le b 4064 8
def blkNum (b : List Byte) : Nat := le b 4072 4
def blkCount (b : List Byte) : Nat := le b 4076 4
def blkFlags (b : List Byte) : Nat := le b 4080 4
/-- Whether a block has 4,096 bytes and its CRC is right (R59). -/
def blkCrcOk (b : List Byte) : Bool := b.length == 4096 && crc32c (b.take 4092) == le b 4092 4

/-- The image byte stream of blocks in block-number order. -/
def imageOf (bs : List (List Byte)) : List Byte := (bs.map (fun b => b.take 4064)).flatten

/-- The blocks of an image in block-number order. -/
def inOrder (bs : List (List Byte)) : List (List Byte) := sortBy (fun a b => decide (blkNum a ≤ blkNum b)) bs

/-- Codes 0x01 to 0x03: the blocks. -/
def checkBlocks (bs : List (List Byte)) : Option LoadErr :=
  let n := bs.length
  let id0 := blkImage (bs.headD [])
  bad (bs.any (fun b => !blkCrcOk b)) 0x01
  <|> bad (bs.any (fun b => blkImage b != id0)) 0x02
  <|> bad (n == 0 || decide (16384 < n) || bs.any (fun b => blkCount b != n) || (bs.map blkNum != List.range n)
    || bs.any (fun b => bitAt (blkFlags b) 0 != (blkNum b + 1 == n) || decide (4 ≤ blkFlags b) || !allZero (slice b 4084 8))) 0x03

/-! ### Header, signature block, directory (Tables 3.2, 3.3, 3.18) -/

def imgLen (x : List Byte) : Nat := le x 16 4
def imgSecVer (x : List Byte) : Nat := byteAt x 24
def imgKeySlot (x : List Byte) : Nat := byteAt x 25
def imgSects (x : List Byte) : Nat := le x 28 2
def imgContClass (x : List Byte) : Nat := le x 20 4
def imgId (x : List Byte) : Nat := le x 8 8

/-- Whether the `SIG` flag of a block is right: its payload holds at least one byte of the signature block. -/
def sigFlagOk (len : Nat) (b : List Byte) : Bool :=
  bitAt (blkFlags b) 1 == (decide (4064 * blkNum b < len + 256) && decide (len < 4064 * (blkNum b + 1)))

/-- Codes 0x10 to 0x13: the header. -/
def checkHeader (bs : List (List Byte)) (x : List Byte) : Option LoadErr :=
  let len := imgLen x
  bad (le x 0 4 != 0x4C454552 || le x 4 2 != 1 || le x 6 2 != 128 || le x 30 2 != 128 || decide (64 < imgSecVer x)
    || (decide (3 < imgKeySlot x) && imgKeySlot x != 0xFF) || (ofTime12 x 32).isNone || decide (4 ≤ le x 26 2) || !allZero (slice x 48 80)) 0x10
  <|> bad (imgId x != blkImage (bs.headD []) || imgId x == 0) 0x11
  <|> bad (len % 8 != 0 || decide (len < 128) || (len + 256 + 4063) / 4064 != bs.length || !allZero (x.drop (len + 256)) || bs.any (fun b => !sigFlagOk len b)) 0x12
  <|> bad (le x 44 4 != 0x5128) 0x13

/-- Whether any key slot counts as programmed: its valid fuse is blown, or it is DAMAGED (R92). -/
def KeySlot.damaged (k : KeySlot) : Bool := !k.valid && !allZero k.hash
def Otp.anyKey (o : Otp) : Bool := (List.range 4).any (fun n => (o.keys.get n {}).valid || (o.keys.get n {}).damaged)

/-- Codes 0x19 and 0x14 to 0x18: the signature block against the OTP (R84, R85). -/
def checkSignature (o : Otp) (x : List Byte) : Option LoadErr :=
  let len := imgLen x
  let g := slice x len 256
  let alg := byteAt g 5
  let key := slice g 56 97
  let ks := imgKeySlot x
  let blank := allZero key && allZero (slice g 160 96)
  let slot := o.keys.get ks {}
  let hash := slice g 8 48
  bad (le g 0 4 != 0x4E474953 || decide (1 < alg) || byteAt g 4 != ks || !allZero (slice g 6 2) || !allZero (slice g 153 7)
    || (alg == 0 && (ks != 0xFF || !blank)) || (alg == 1 && ks == 0xFF)) 0x19
  <|> bad (alg == 0 && o.anyKey) 0x14
  <|> bad (alg == 1 && (!slot.valid || slot.revoked || Config.sha384 key != slot.hash)) 0x15
  <|> bad (hash != Config.sha384 (x.take len)) 0x16
  <|> bad (alg == 1 && !Config.ecdsaVerify key hash (slice g 160 48) (slice g 208 48)) 0x17
  <|> bad (decide (imgSecVer x < o.rollback)) 0x18

/-- A directory entry: type, version, offset, length, record count, CRC. -/
structure DirEnt where
  typ : Nat
  ver : Nat
  off : Nat
  len : Nat
  recs : Nat
  crc : Nat
  zero : Bool
deriving DecidableEq, Repr

/-- The directory of an image. -/
def imgDir (x : List Byte) : List DirEnt :=
  (List.range (min (imgSects x) 64)).map (fun k =>
    let b := slice x (128 + 32 * k) 32
    { typ := le b 0 2, ver := le b 2 2, off := le b 4 4, len := le b 8 4, recs := le b 12 4, crc := le b 16 4, zero := allZero (slice b 20 12) })

/-- The bytes of a section. -/
def DirEnt.bytes (e : DirEnt) (x : List Byte) : List Byte := slice x e.off e.len

/-- The first directory entry, by index, that breaks R62; `at_` is where the section before it ends. -/
def dirBad (x : List Byte) (len : Nat) : Nat → Nat → List DirEnt → Option LoadErr
  | _, at_, [] => bad (at_ != len) 0x20
  | k, at_, e :: r =>
    if !e.zero || e.off % 8 != 0 || e.len % 8 != 0 || decide (e.off < at_) || decide (len < e.off + e.len) || !allZero (slice x at_ (e.off - at_)) then
      some { code := 0x20, sec := k }
    else dirBad x len (k + 1) (e.off + e.len) r

/-- The required sections (Table 3.4). -/
def requiredSecs : List Nat := [2, 3, 4, 6, 7, 9, 12, 13, 17, 19, 20]

/-- The index of the first element that meets a condition. -/
def firstIdx {α : Type} (p : α → Bool) : Nat → List α → Option Nat
  | _, [] => none
  | k, a :: r => if p a then some k else firstIdx p (k + 1) r

/-- A refusal at a directory index. -/
def badSec (o : Option Nat) (code : Nat) : Option LoadErr := o.map (fun k => { code := code, sec := k })

/-- Codes 0x20 to 0x23: the directory. -/
def checkDir (x : List Byte) : Option LoadErr :=
  let n := imgSects x
  let d := imgDir x
  bad (n == 0 || decide (64 < n) || decide (imgLen x < 128 + 32 * n)) 0x20
  <|> dirBad x (imgLen x) 0 (128 + 32 * n) d
  <|> badSec (firstIdx (fun e => crc32c (e.bytes x) != e.crc) 0 d) 0x21
  <|> badSec (firstIdx (fun k => (d.getD k ⟨0, 0, 0, 0, 0, 0, true⟩).typ < 0x8000 && (decide ((d.getD k ⟨0, 0, 0, 0, 0, 0, true⟩).typ < 1)
      || decide (20 < (d.getD k ⟨0, 0, 0, 0, 0, 0, true⟩).typ) || (d.getD k ⟨0, 0, 0, 0, 0, 0, true⟩).ver != 1)
      || ((d.take k).any (fun e => e.typ == (d.getD k ⟨0, 0, 0, 0, 0, 0, true⟩).typ))) 0 (List.range d.length)) 0x22
  <|> bad (requiredSecs.any (fun t => !d.any (fun e => e.typ == t))) 0x23

/-! ### Records (R65, Tables 3.5 to 3.17) -/

/-- The values a field may take: any, an unsigned range, a signed range, bits within a mask, one of a list. -/
inductive FChk where
  | any
  | rng (lo hi : Nat)
  | srng (lo hi : Int)
  | mask (m : Nat)
  | oneOf (l : List Nat)
deriving DecidableEq, Repr

/-- A field of a record: offset, size in bytes, values. -/
structure FDef where
  off : Nat
  size : Nat
  chk : FChk := .any
deriving DecidableEq, Repr

/-- A record table: section, type, length (0: variable, from `tail` on checked elsewhere), fields. -/
structure RDef where
  sec : Nat
  typ : Nat
  len : Nat
  fields : List FDef
  tail : Nat := 0
deriving DecidableEq, Repr

def FChk.ok (c : FChk) (size v : Nat) : Bool :=
  match c with
  | .any => true
  | .rng lo hi => decide (lo ≤ v) && decide (v ≤ hi)
  | .srng lo hi => decide (lo ≤ sx (8 * size) v) && decide (sx (8 * size) v ≤ hi)
  | .mask m => (v &&& m) == v
  | .oneOf l => l.contains v

/-- A QID field, 0xFFFFF included. -/
def qf (off : Nat) : FDef := ⟨off, 4, .rng 0 0xFFFFF⟩
/-- A field of any value. -/
def fa (off size : Nat) : FDef := ⟨off, size, .any⟩
/-- A field with a range. -/
def fr (off size lo hi : Nat) : FDef := ⟨off, size, .rng lo hi⟩

/-- `REALM`, `ROLE`, `RING`, `TAKE`, `FILTER`. The ranges of `CONFIG`, `PEER_MASK` and `PHASE` have reason codes of their own. -/
def recDefs1 : List RDef := [
  ⟨1, 1, 24, [fr 8 1 1 7, fr 9 1 0 1, ⟨10, 2, .mask 1⟩, fa 12 4, fr 16 4 1 0xFFFFFFFF], 0⟩,
  ⟨2, 1, 16, [fa 8 1, fr 9 1 0 3, fa 10 1, fa 12 4], 0⟩,
  ⟨3, 1, 24, [fr 8 1 0 63, fr 9 1 0 1, fr 10 1 0 126, fa 11 1, fr 12 2 0 2048, fr 14 2 0 1024, fr 16 1 0 8], 0⟩,
  ⟨3, 2, 32, [fr 8 1 0 63, fr 9 1 1 126, fr 10 1 1 2, fr 12 2 0 255, fr 14 2 0 447, fa 16 2, fa 18 1, fr 20 2 0 2032, fr 22 2 0 1016, fa 24 8], 0⟩,
  ⟨4, 1, 24, [fr 8 1 0 63, fr 9 1 0 3, fa 10 1, ⟨11, 1, .mask 1⟩, fr 12 2 1 65535, fr 14 2 1 1000, fr 16 1 1 15, fa 18 2, fa 20 2], 0⟩,
  ⟨5, 1, 16, [fr 8 1 0 63, fr 9 1 0 1, fr 10 1 0 5, fa 12 2, fr 14 2 1 65535], 0⟩]

/-- `QUEUE`, `ROUTE`, `EVROUTE`, `ESTP`. -/
def recDefs2 : List RDef := [
  ⟨6, 1, 16, [fr 8 2 1 1000, qf 12], 0⟩,
  ⟨6, 2, 32, [qf 8, fa 12 4, fr 16 1 0 2, ⟨17, 1, .oneOf [0, 1, 2, 3, 0xFF]⟩, fa 18 2, fa 20 2, fa 22 2, fa 24 4], 0⟩,
  ⟨7, 1, 16, [fa 8 2, fa 10 2, qf 12], 0⟩,
  ⟨8, 1, 24, [fa 8 2, fa 10 2, fr 12 1 0 5, qf 16], 0⟩,
  ⟨9, 1, 72, [fa 8 1, fa 12 4, fa 16 2, fa 18 2, fa 20 2, fa 22 2, fa 24 2, fr 26 2 0 0x8000, ⟨28, 4, .srng 1 0x7FFFFFFF⟩, fa 32 4, fa 36 14, fa 50 10, fa 60 4, fa 64 4], 0⟩,
  ⟨9, 2, 24, [fa 8 4, fr 12 4 1 0xFFFFFFFF, fa 16 1], 0⟩]

/-- `LOOP`: dimension and region counts have reason 0x45; `DISP`, `TRIP`, `PROG`, whose table R80 has reason 0x46. -/
def recDefs3 : List RDef := [
  ⟨10, 1, 88, [fr 8 2 0 511, fr 10 1 0 2, fa 11 1, fa 12 4, fr 16 1 0 3, fa 17 3, fr 20 1 1 32, fr 21 1 0 2, fr 22 2 1 65535, fa 24 4, qf 28, qf 32, qf 36, qf 40,
    qf 44, qf 48, qf 52, qf 56, ⟨60, 4, .mask 0x8F0FFFFF⟩, ⟨64, 4, .mask 0x8F0FFFFF⟩, ⟨68, 4, .mask 0x8F0FFFFF⟩, ⟨72, 4, .mask 0x8F0FFFFF⟩, qf 76, qf 80, qf 84], 0⟩,
  ⟨10, 2, 0, [fr 8 2 0 511, fa 10 1], 16⟩,
  ⟨10, 3, 72, [fr 8 2 0 511, fa 12 28, fa 40 32], 0⟩,
  ⟨10, 4, 128, [fr 8 2 0 511, fa 16 16, fa 32 16, fa 48 16, fa 64 16, fa 80 48], 0⟩,
  ⟨11, 1, 40, [fr 8 1 0 3, ⟨9, 1, .mask 15⟩, fr 10 2 1 60000, fa 12 4, fa 16 4, fa 20 4, fa 24 4, fa 28 4, fa 32 4], 0⟩,
  ⟨11, 2, 16, [fr 8 2 0 255, fr 10 1 0 1, fa 12 2, fa 14 2], 0⟩,
  ⟨12, 1, 32, [fr 8 1 0 15, fr 9 1 1 16, fr 10 1 1 16, fr 11 1 1 16, fa 12 2, fa 14 2, fa 16 2, fa 18 2, fr 20 4 1 8388607, fr 24 4 1 8388607, fa 28 4], 0⟩,
  ⟨12, 2, 16, [fr 8 1 0 63, fr 9 1 0 2, fr 10 1 0 15, fa 12 2, fr 14 2 1 65535], 0⟩,
  ⟨13, 1, 0, [fa 8 1, fa 9 1, fa 12 4, fa 16 4, fa 20 4, fa 24 4], 32⟩]

/-- `CALL`, `NET`, `PIO`. -/
def recDefs4 : List RDef := [
  ⟨14, 1, 24, [fr 8 1 0 3, ⟨9, 1, .mask 3⟩, fr 12 4 10000 1000000, fr 16 4 0 8000000, fa 20 4], 0⟩,
  ⟨14, 2, 24, [fr 8 1 0 3, fr 9 1 0 15, fr 10 1 0 63, ⟨11, 1, .mask 15⟩, fr 12 4 0 0x1FFFFFFF, qf 16, fr 20 1 0 15], 0⟩,
  ⟨14, 3, 24, [fr 8 1 0 3, ⟨9, 1, .mask 4⟩, fa 12 4, fa 16 4, qf 20], 0⟩,
  ⟨15, 1, 64, [fr 8 1 0 3, fr 9 1 0 4, fr 10 1 0 2, ⟨11, 1, .mask 15⟩, fa 12 6, fr 18 2 0 4094, fa 20 1, ⟨21, 1, .oneOf (0xFF :: List.range 64)⟩, fa 24 4, fa 28 16,
    fa 44 2, fa 48 4, ⟨52, 1, .oneOf (0xFF :: List.range 64)⟩, ⟨53, 1, .oneOf (0xFF :: List.range 64)⟩], 0⟩,
  ⟨16, 1, 16, [fr 8 1 0 7, fr 9 1 0 1, fa 10 2], 0⟩,
  ⟨16, 2, 24, [fr 8 1 0 15, fa 10 2, fr 12 4 10 100000, fa 16 2, fa 18 2], 0⟩,
  ⟨16, 3, 16, [fr 8 1 0 15, fr 9 1 0 1, fr 10 1 0 1, qf 12], 0⟩,
  ⟨16, 4, 16, [fr 8 1 0 7, fr 9 1 0 1, fr 10 1 0 2, fa 11 1], 0⟩]

/-- `GAF`, `WATCH`, `PERSIST`, `SPLICE`. -/
def recDefs5 : List RDef := [
  ⟨17, 1, 24, [fa 8 2, fa 10 2, fa 12 2, ⟨14, 2, .srng (-32768) 11499⟩, fa 16 2], 0⟩,
  ⟨17, 2, 16, [fr 8 1 1 16, fr 9 1 0 7, fa 10 2, fa 12 2], 0⟩,
  ⟨17, 3, 16, [fr 8 1 0 63, fr 10 2 0 255, fa 12 2, fa 14 2], 0⟩,
  ⟨18, 1, 32, [fr 8 4 1 86400, fa 12 16, fa 28 1], 0⟩,
  ⟨18, 2, 24, [fr 8 1 0 15, ⟨9, 1, .oneOf [0, 1, 2, 3, 4, 5, 6, 7, 0x10, 0x20, 0x21, 0x22, 0x23]⟩, fr 10 1 0 2, fr 11 1 1 255, fa 12 4, ⟨16, 1, .mask 7⟩], 0⟩,
  ⟨19, 1, 16, [fr 8 1 0 1, ⟨9, 1, .mask 15⟩, fr 12 4 600 86400], 0⟩,
  ⟨20, 1, 16, [⟨8, 1, .oneOf [0, 1, 2, 3, 0xFF]⟩, ⟨9, 1, .mask 15⟩], 0⟩]

def recDefs : List RDef := recDefs1 ++ recDefs2 ++ recDefs3 ++ recDefs4 ++ recDefs5

/-- Whether a byte of a record is listed in its table. -/
def RDef.lists (r : RDef) (o : Nat) : Bool := r.fields.any (fun f => decide (f.off ≤ o) && decide (o < f.off + f.size))

/-- Whether the bytes of a record keep its table: length, header, listed fields within their values, other bytes 0. -/
def RDef.ok (r : RDef) (b : List Byte) : Bool :=
  let upto := if r.len = 0 then r.tail else r.len
  (if r.len = 0 then decide (r.tail ≤ b.length) else b.length == r.len) && allZero (slice b 5 3)
    && r.fields.all (fun f => f.chk.ok f.size (le b f.off f.size))
    && (List.range upto).all (fun o => decide (o < 8) || r.lists o || byteAt b o == 0)

/-- The records of a section: those read, and whether the bytes end with a whole record. -/
def splitRecs : Nat → List Byte → List (List Byte) × Bool
  | 0, b => ([], b.isEmpty)
  | n + 1, b =>
    if b.isEmpty then ([], true)
    else
      let l := le b 0 4
      if l < 8 ∨ l % 8 ≠ 0 ∨ b.length < l then ([], false)
      else
        let (r, ok) := splitRecs n (b.drop l)
        (b.take l :: r, ok)

/-- The records of a section with their indices. -/
def DirEnt.parse (e : DirEnt) (x : List Byte) : List Rec :=
  let bs := (splitRecs (e.len / 8) (e.bytes x)).1
  (List.range bs.length).map (fun k =>
    let b := bs.getD k []
    { sec := e.typ, typ := byteAt b 4, idx := k, b := b })

/-- The directory index of a section type. -/
def secIdx (x : List Byte) (t : Nat) : Nat := (firstIdx (fun e => e.typ == t) 0 (imgDir x)).getD 0xFF

/-- A refusal at the first record of a list that meets a condition. -/
def badRec (x : List Byte) (code : Nat) (l : List Rec) (p : Rec → Bool) : Option LoadErr :=
  (l.find? p).map (fun r => { code := code, sec := secIdx x r.sec, idx := r.idx })

/-- Whether a record keeps its record table (R65). -/
def recOk (r : Rec) : Bool := match recDefs.find? (fun q => q.sec == r.sec && q.typ == r.typ) with
  | some q => q.ok r.b
  | none => false

/-- The structure that an image describes. -/
def reelOf (x : List Byte) : Reel :=
  { hdr := x.take 128, recs := ((imgDir x).map (fun e => if e.typ ≤ 20 then e.parse x else [])).flatten, secs := ((imgDir x).filter (fun e => decide (e.typ ≤ 20))).map (fun e => e.typ) }

/-- The number of records that a section must hold of its types: `RING` one type 1 record for each ring, `QUEUE` its global record first, one type 1 record in `ROLE`,
`DISP`, `GAF`, `PERSIST` and `SPLICE`, at most one in `WATCH`. -/
def countsBad (s : Reel) (t : Nat) : Bool :=
  let rs := s.recs.filter (fun r => r.sec == t)
  let n1 := (rs.filter (fun r => r.typ == 1)).length
  if t = 3 then (rs.take 64).map (fun r => (r.typ, r.u8 8)) != (List.range 64).map (fun k => (1, k)) || n1 != 64
  else if t = 6 then n1 != 1 || (rs.headD { sec := 0, typ := 0, idx := 0, b := [] }).typ != 1
  else if t = 2 ∨ t = 11 ∨ t = 17 ∨ t = 19 ∨ t = 20 then n1 != 1
  else if t = 18 then decide (1 < n1) else false

/-- Whether a record's `CARRY_KEY` is carried by an earlier record of its section and type (R66). -/
def carryOf (r : Rec) : Nat := if (r.sec = 6 ∧ r.typ = 2) ∨ (r.sec = 10 ∧ r.typ = 1) ∨ (r.sec = 13 ∧ r.typ = 1) then r.u32 24 else 0

/-- The length of a gain set's record (R77). -/
def gainLen (l : Rec) : Nat :=
  let nx := l.u8 12
  let nu := l.u8 13
  let ny := l.u8 14
  let nr := l.u8 15
  (16 + 4 * (nx * nx + nx * nu + nx * ny + nu * nx + nu * nr) + 7) / 8 * 8

/-- Whether a record of variable length has the length its fields give, with its padding 0. -/
def tailOk (s : Reel) (r : Rec) : Bool :=
  if r.sec = 10 ∧ r.typ = 2 then
    match s.loopRec (r.u16 8) 1 with
    | some l =>
      let n := 16 + 4 * (l.u8 12 * l.u8 12 + 2 * (l.u8 12 * l.u8 13) + l.u8 12 * l.u8 14 + l.u8 13 * l.u8 15)
      r.b.length == gainLen l && allZero (r.b.drop n)
    | none => true
  else if r.sec = 13 then
    let n := 32 + r.u32 16 + r.u32 20
    r.b.length == (n + 7) / 8 * 8 && allZero (r.b.drop n)
  else true

/-- Code 0x24: the records of every known section, in directory order. -/
def checkRecords (x : List Byte) : Option LoadErr :=
  let s := reelOf x
  ((imgDir x).filter (fun e => decide (e.typ ≤ 20))).foldl (fun (a : Option LoadErr) (e : DirEnt) =>
    a <|> (
      let rs := e.parse x
      let whole := (splitRecs (e.len / 8) (e.bytes x)).2
      badRec x 0x24 rs (fun r => !recOk r || !tailOk s r)
      <|> bad (!whole || e.recs != rs.length || countsBad s e.typ) 0x24 (secIdx x e.typ) rs.length
      <|> badRec x 0x24 rs (fun r => carryOf r != 0 && rs.any (fun q => decide (q.idx < r.idx) && q.typ == r.typ && carryOf q == carryOf r))
      <|> badRec x 0x24 rs (fun r => r.sec == 6 && r.typ == 2 && (decide (r.u8 17 ≤ 3) != (r.u16 20 / 4096 == 0xB))))) none

end Sys2Proof.Machine
end

