-- ==== Sys2Proof/Machine/ReelCheck.lean ====
section
/-!
DEFINITION. Machine/ReelCheck.lean: the checks of the structure that an image describes (Table 3.19, codes 0x30 to 0x48; R66 to R83, R120, R206, R240, R263, R281,
R284, R287, R304, R309, R315, R397, R430, R436, R437, R440, R445, R451, R463, R476) and the continuity class (R83, R102).
-/
namespace Sys2Proof.Machine

/-! ### Endpoints (Table 3.10) -/

def epKind (e : Nat) : Nat := e / 4096
def epInst (e : Nat) : Nat := e % 4096

/-- Whether an endpoint is defined. -/
def epDefined (e : Nat) : Bool :=
  let i := epInst e
  match epKind e with
  | 1 => decide (i < 64) | 2 => decide (i < 64) | 3 => decide (i < 64) | 4 => decide (i < 64) | 5 => decide (i < 512) | 6 => i == 0
  | 8 => decide (i < 16) && i % 4 != 3
  | 9 => decide (i < 3) | 10 => decide (i < 4) | 11 => decide (i < 4) | 12 => decide (i < 4) | 13 => decide (i < 4) | 14 => decide (i < 3) | 15 => i == 0
  | _ => false

/-- Whether an endpoint is a wire source. -/
def epWire (e : Nat) : Bool := [1, 10, 12, 14, 15].contains (epKind e)
/-- Whether an endpoint is a program. -/
def epProgram (e : Nat) : Bool := [8, 9].contains (epKind e)

/-- Whether a structure builds an endpoint (R75, rule 4). -/
def Reel.builds (s : Reel) (e : Nat) : Bool :=
  let i := epInst e
  match epKind e with
  | 1 => s.present i | 2 => s.present i | 3 => s.present i | 4 => s.present i
  | 5 => (s.loopRec i 1).isSome
  | 8 => (s.prog (i / 4) (i % 4)).isSome
  | _ => true

/-- Whether a queue's producer lies in the open realm, as check 0x40 sees it (R67). -/
def Reel.openProducer (s : Reel) (e : Nat) : Bool :=
  let i := epInst e
  match epKind e with
  | 3 => !s.realmOf 1 4 4
  | 4 => !s.realmOf 5 i 6
  | 5 => !s.realmOf 4 i 7
  | 6 => !s.realmOf 1 8 8
  | 8 => !s.realmOf 3 (i / 4) 10
  | 9 => i == 0
  | _ => false

/-! ### Queues (R205, R206, R75) -/

/-- The largest packet, with its HEAD, of a stream of a source (R206). -/
def packetMax (source stream : Nat) : Nat :=
  match epKind source with
  | 1 => (match stream with | 0 => 17 | 1 => 9 | 2 => 17 | 3 => 2 | 4 => 6 | 5 => 7 | _ => 1)
  | 3 => (match stream with | 0 => 17 | 1 => 9 | 2 => 17 | _ => 1)
  | 4 => (match stream with | 0 => 17 | 1 => 5 | _ => 1)
  | 5 => 3
  | 6 => 3
  | 10 => (match stream with | 0 => 5 | 1 => 12 | 2 => 208 | _ => 1)
  | 12 => 12
  | _ => 1

def Rec.near (q : Rec) : Bool := decide (q.qid < 0x10000)

/-- Code 0x30. -/
def checkQueues (x : List Byte) (s : Reel) : Option LoadErr :=
  let qs := s.queueRecs
  badRec x 0x30 qs (fun q => q.qid == 0xFFFFF || qs.any (fun p => decide (p.idx < q.idx) && p.qid == q.qid)
    || decide (q.qdepth < 4) || decide ((if q.near then 256 else 1048576) < q.qdepth)
    || !epDefined (q.u16 18) || !epDefined (q.u16 20)
    || (s.sel secRoute 1).any (fun r => r.u32 12 == q.qid && decide (q.qdepth < packetMax (r.u16 8) (r.u16 10))))
  <|> bad (decide (2097152 < sumN ((qs.filter (fun q => q.near)).map (fun q => q.qdepth)))
    || decide (268435456 < sumN ((qs.filter (fun q => !q.near)).map (fun q => (q.qdepth + 63) / 64 * 64)))) 0x30 (secIdx x secQueue)

/-- Code 0x31: drainage rules 1 and 2. -/
def checkPolicy (x : List Byte) (s : Reel) : Option LoadErr :=
  badRec x 0x31 s.queueRecs (fun q => q.u8 16 == 0 && (epWire (q.u16 18) || epProgram (q.u16 20) || epKind (q.u16 20) == 13
    || (epKind (q.u16 20) == 11 && (q.u8 17 == 2 || q.u8 17 == 3))))

/-- The endpoints reached from a set over the edges of BLOCK queues, one edge further each time. -/
def reachBlock (edges : List (Nat × Nat)) : Nat → List Nat → List Nat
  | 0, seen => seen
  | n + 1, seen =>
    let new := ((edges.filter (fun e => seen.contains e.1)).map (fun e => e.2)).filter (fun b => !seen.contains b)
    if new.isEmpty then seen else reachBlock edges n (seen ++ new.dedup)

/-- Code 0x32: drainage rule 3, at the lowest BLOCK queue that lies on a cycle. -/
def checkCycle (x : List Byte) (s : Reel) : Option LoadErr :=
  let blk := s.queueRecs.filter (fun q => q.u8 16 == 0)
  let edges := blk.map (fun q => (q.u16 18, q.u16 20))
  badRec x 0x32 blk (fun q => (reachBlock edges edges.length [q.u16 20]).contains (q.u16 18))

/-- Code 0x33: drainage rule 4. -/
def checkConsumer (x : List Byte) (s : Reel) : Option LoadErr := badRec x 0x33 s.queueRecs (fun q => !s.builds (q.u16 20))

/-- The record of a queue. -/
def Reel.queueRec (s : Reel) (qid : Nat) : Option Rec := s.queueRecs.find? (fun q => q.qid == qid)

/-- Whether a queue is an event queue of the structure (R74). -/
def Reel.evQueue (s : Reel) (qid : Nat) : Bool := match s.queueRec qid with
  | some q => q.u16 18 == 0xF000
  | none => false

/-- Code 0x34. -/
def checkRoutes (x : List Byte) (s : Reel) : Option LoadErr :=
  badRec x 0x34 (s.sel secRoute 1) (fun r => match s.queueRec (r.u32 12) with
    | some q => q.u16 18 != r.u16 8
    | none => true)
  <|> badRec x 0x34 (s.sel secEvroute 1) (fun r => !s.evQueue (r.u32 16))
  <|> badRec x 0x34 (s.sel secQueue 1) (fun g => g.u32 12 != 0xFFFFF && !s.evQueue (g.u32 12))

/-! ### Realms, role, rings, rates, coverage -/

/-- Whether two `REALM` records name one element. -/
def realmClash (a b : Rec) : Bool :=
  a.u8 8 == b.u8 8 && decide (a.u32 12 < b.u32 12 + b.u32 16) && decide (b.u32 12 < a.u32 12 + a.u32 16)

/-- Code 0x40. -/
def checkRealm (x : List Byte) (s : Reel) : Option LoadErr :=
  let rs := s.sel secRealm 1
  badRec x 0x40 rs (fun r =>
    (r.u8 9 == 0 && ((r.u8 8 == 1 && [1, 9, 11].any (fun e => realmNames r 1 e)) || (r.u8 8 == 3 && realmNames r 3 0)))
    || (r.u8 8 != 2 && r.u16 10 != 0) || rs.any (fun q => decide (q.idx < r.idx) && realmClash q r))
  <|> badRec x 0x40 s.queueRecs (fun q => (s.protQ q.qid && s.openProducer (q.u16 18))
    || (epKind (q.u16 20) == 8 && decide (epInst (q.u16 20) ≤ 2) && !s.protQ q.qid))

/-- The `PEER_MASK` of a configuration (Table 3.6). -/
def peerMaskOf (config : Nat) : Nat := if config = 0 then 0 else if config = 1 then 3 else 15

/-- Code 0x41; `strap` is the sampled `DEV_ADDR`. -/
def checkRole (x : List Byte) (s : Reel) (strap : Nat) : Option LoadErr :=
  badRec x 0x41 (s.sel secRole 1) (fun r => r.u8 9 != strap || decide (2 < r.u8 8) || r.u8 10 != peerMaskOf (r.u8 8))

/-- Whether the nodes of a structure stand in strictly ascending ring and address order. -/
def nodesAscend : List Rec → Bool
  | [] => true
  | [_] => true
  | a :: b :: r => (decide (a.ndRing < b.ndRing) || (a.ndRing == b.ndRing && decide (a.ndAddr < b.ndAddr))) && nodesAscend (b :: r)

/-- Whether a list of numbers has no repeats. -/
def noRepeat (l : List Nat) : Bool := l.dedup.length == l.length

/-- Whether the record of a ring agrees with its nodes (R69). -/
def Reel.ringOk (s : Reel) (r : Rec) : Bool :=
  let g := r.u8 8
  let ns := s.nodes g
  let cells := ns.filter (fun n => n.ndKind == 1)
  let heads := ns.filter (fun n => n.ndKind == 2)
  if r.u8 9 = 0 then ns.isEmpty && r.u8 10 == 0 && r.u8 11 == 0 && r.u16 12 == 0 && r.u16 14 == 0 && r.u8 16 == 0
  else
    ns.map (fun n => n.ndAddr) == (List.range (r.u8 10)).map (fun k => k + 1)
      && (if s.config = 0 then r.u8 11 == 0 else decide (r.u8 11 ≤ r.u8 10))
      && r.u16 12 == sumN (cells.map (fun n => popc n.ndCellMask 16)) && r.u16 14 == sumN (cells.map (fun n => popc n.ndTempMask 8))
      && r.u8 16 == heads.length
      && noRepeat ((cells.map (fun n => n.cellSlots)).flatten) && noRepeat ((cells.map (fun n => n.tempSlots)).flatten)

/-- Code 0x42. -/
def checkRing (x : List Byte) (s : Reel) : Option LoadErr :=
  let ns := s.sel secRing 2
  badRec x 0x42 (s.sel secRing 1) (fun r => !s.ringOk r)
  <|> bad (!nodesAscend ns) 0x42 (secIdx x secRing)
  <|> badRec x 0x42 ns (fun n => ns.any (fun m => decide (m.idx < n.idx) && m.ndString == n.ndString && (m.ndRing != n.ndRing || (m.ndKind == 2 && n.ndKind == 2))))

/-- Corner frequencies in Hz. -/
def cornerHz (c : Nat) : Nat := [5, 10, 25, 50, 100, 200].getD c 200

/-- Code 0x43 (R120, R172). -/
def checkRate (x : List Byte) (s : Reel) : Option LoadErr :=
  badRec x 0x43 (s.sel secTake 1) (fun t =>
    let g := t.u8 8
    let c := cyclesPerTake (t.u8 9)
    let nc := (s.cellNodes g).length
    let nh := (s.heads g).length
    (t.u8 9 == 3 && decide (1792 < s.cellCh g)) || decide (1455 * c < 39 * nc + 55 * nh + 10 * nh * c + 1059) || decide (c ≤ t.u8 10))
  <|> badRec x 0x43 (s.sel secFilter 1) (fun f => decide (takesPerSec (s.rate (f.u8 8)) < 8 * cornerHz (f.u8 10)))

/-- The device channel and temperature channel numbers of a ring's used slots, and its strings. -/
def Reel.usedCells (s : Reel) (g : Nat) : List Nat := ((s.cellNodes g).map (fun n => n.cellSlots)).flatten
def Reel.usedTemps (s : Reel) (g : Nat) : List Nat := ((s.cellNodes g).map (fun n => n.tempSlots)).flatten

/-- How many of a list of records cover an element. -/
def coverage (l : List Rec) (p : Rec → Bool) : Nat := (l.filter p).length

/-- Whether a `TRIP` assignment or `FILTER` record of a kind covers an element of a ring. -/
def covers16 (r : Rec) (el : Nat) : Bool := decide (r.u16 12 ≤ el) && decide (el < r.u16 12 + r.u16 14)

/-- Code 0x44. -/
def checkCoverage (x : List Byte) (s : Reel) : Option LoadErr :=
  let takes := s.sel secTake 1
  let ests := s.sel secEstp 2
  let trips := s.sel secTrip 2
  let filts := s.sel secFilter 1
  badRec x 0x44 takes (fun t => !s.present (t.u8 8) || takes.any (fun u => decide (u.idx < t.idx) && u.u8 8 == t.u8 8))
  <|> bad (s.rings.any (fun g => !takes.any (fun t => t.u8 8 == g))) 0x44 (secIdx x secTake)
  <|> badRec x 0x44 filts (fun f => filts.any (fun e => decide (e.idx < f.idx) && e.u8 8 == f.u8 8 && e.u8 9 == f.u8 9
    && (if f.u8 9 = 0 then s.usedCells (f.u8 8) else s.usedTemps (f.u8 8)).any (fun c => covers16 e c && covers16 f c)))
  <|> bad (s.rings.any (fun g => (s.usedCells g).any (fun c => coverage ests (fun r => decide (r.u32 8 ≤ 2048 * g + c) && decide (2048 * g + c < r.u32 8 + r.u32 12)) != 1)))
    0x44 (secIdx x secEstp)
  <|> bad (s.rings.any (fun g => (s.usedCells g).any (fun c => coverage trips (fun r => r.u8 9 == 0 && r.u8 8 == g && covers16 r c) != 1)
      || (s.usedTemps g).any (fun c => coverage trips (fun r => r.u8 9 == 1 && r.u8 8 == g && covers16 r c) != 1))
    || s.allStrings.any (fun t => coverage trips (fun r => r.u8 9 == 2 && covers16 r t) != 1)) 0x44 (secIdx x secTrip)

/-! ### Loops (R77, R263, R264, R281, R284) -/

/-- Whether a list of integers is strictly ascending. -/
def strictAsc : List Int → Bool
  | [] => true
  | [_] => true
  | a :: b :: r => decide (a < b) && strictAsc (b :: r)

/-- The string of a loop context: that of the `DISP` record that names it, for `KIND` 0 (R281). -/
def Reel.stringsOfLoop (s : Reel) (c : Nat) : List Nat := ((s.sel secDisp 2).filter (fun x => x.u16 14 == c)).map (fun x => x.u16 8)

/-- Whether the producer of a loop's input queue is permitted (Table 10.1). -/
def Reel.loopInput (s : Reel) (c qid : Nat) (k0str : Bool) : Bool :=
  match s.queueRec qid with
  | none => false
  | some q =>
    let p := q.u16 18
    let strs := ((s.sel secRoute 1).filter (fun r => r.u32 12 == qid && r.u16 8 == p)).map (fun r => r.u16 10)
    q.u16 20 == 0x5000 + c && (match epKind p with
      | 3 => !strs.isEmpty && strs.all (fun t => decide (t ≤ 1))
      | 1 => !strs.isEmpty && strs.all (fun t => t == 2) && k0str
      | 5 => strs.all (fun t => decide (t ≤ 3))
      | 6 => true
      | 8 => true
      | 9 => true
      | 14 => p == 0xE000
      | _ => false)

/-- Whether the region index of a `MAP` entry can occur. -/
def regionOccurs (l : Rec) (i : Nat) : Bool :=
  decide (i % 4 < l.lpNreg 0) && decide (i / 4 % 4 < l.lpNreg 1) && decide (i / 16 < l.lpNreg 2)

/-- Whether the queue target of an output is a command transmitter. -/
def Reel.drivesRing (s : Reel) (t : Nat) : Option Nat :=
  match s.queueRec (t % 2 ^ 20) with
  | some q => if epKind (q.u16 20) = 2 then some (epInst (q.u16 20)) else none
  | none => none

/-- Whether a context breaks a rule of its outputs: R280, R281, R284. -/
def Reel.outBad (s : Reel) (c : Nat) (l : Rec) (n : Nat) : Bool :=
  let t := l.lpOut n
  let qid := t % 2 ^ 20
  let pwm := bitAt t 31
  let ch := bitsOf t 24 4
  if l.lpNu ≤ n then t != 0xFFFFF
  else
    (qid == 0xFFFFF && !pwm)
    || (qid != 0xFFFFF && (match s.queueRec qid with
        | some q => q.u16 18 != 0x5000 + c
        | none => true))
    || (pwm && (!(s.sel secPio 2).any (fun p => p.u8 8 == ch)
        || (s.sel secLoop 1).any (fun m => (List.range m.lpNu).any (fun k => (m.u16 8 != c || k != n) && bitAt (m.lpOut k) 31 && bitsOf (m.lpOut k) 24 4 == ch))))
    || (l.lpKind == 0 && (match s.drivesRing t with
        | some g => n != 0 || (s.stringsOfLoop c).length != 1 || s.ringOf ((s.stringsOfLoop c).headD 0) != some g
        | none => false))

/-- Whether a context breaks a check of code 0x45. -/
def Reel.loopBad (s : Reel) (l : Rec) : Bool :=
  let c := l.u16 8
  let l3 := s.loop3 c
  let l4 := s.loop4 c
  let dim := fun (v hi : Nat) => decide (1 ≤ v) && decide (v ≤ hi)
  let str := l.lpKind == 0 && !(s.stringsOfLoop c).isEmpty
  !(dim l.lpNx 8 && dim l.lpNu 4 && dim l.lpNy 4 && dim l.lpNr 4 && dim (l.lpNreg 0) 4 && dim (l.lpNreg 1) 4 && dim (l.lpNreg 2) 2)
  || (List.range 3).any (fun k => decide (l.lpNsv ≤ k) && l.lpNreg k != 1)
  || decide (1 < (s.sel secLoop 1).countP (fun m => m.u16 8 == c)) || (s.loopRec c 3).isNone || (s.loopRec c 4).isNone
  || (List.range (l.u8 20)).any (fun g => (s.pick secLoop 2 (fun x => x.u16 8 == c && x.u8 10 == g)).isNone)
  || (List.range 32).any (fun i => if regionOccurs l i then decide (l.u8 20 ≤ l3.lpMap i) else l3.lpMap i != 0)
  || decide (l.lpNx < l.lpNy)
  || (List.range l.lpNy).any (fun j => l4.lpScale j == 0) || (List.range l.lpNr).any (fun j => l4.lpScale (4 + j) == 0)
  || (List.range l.lpNu).any (fun j => l4.lpScale (8 + j) == 0)
  || (List.range l.lpNu).any (fun n => decide (l4.lpUmax n ≤ l4.lpUmin n) || decide (l4.lpUsafe n < l4.lpUmin n) || decide (l4.lpUmax n < l4.lpUsafe n)
    || decide (l4.lpUrate n < 0))
  || (List.range 4).any (fun j => if j < l.lpNy then !s.loopInput c (l.lpMeas j) str else l.lpMeas j != 0xFFFFF)
  || (List.range 4).any (fun j => if j < l.lpNr then !s.loopInput c (l.lpRef j) str else l.lpRef j != 0xFFFFF)
  || (List.range 3).any (fun j => if j < l.lpNsv then !s.loopInput c (l.lpSv j) str else l.lpSv j != 0xFFFFF)
  || (List.range 4).any (fun n => s.outBad c l n)
  || !strictAsc ((List.range (l.lpNreg 0 - 1)).map (fun e => l3.lpEdge e)) || !strictAsc ((List.range (l.lpNreg 1 - 1)).map (fun e => l3.lpEdge (3 + e)))

/-- Code 0x45. -/
def checkLoops (x : List Byte) (s : Reel) : Option LoadErr :=
  badRec x 0x45 (s.sel secLoop 1) (fun l => s.loopBad l)
  <|> badRec x 0x45 (s.recs.filter (fun r => r.sec == secLoop && r.typ != 1)) (fun r => match s.loopRec (r.u16 8) 1 with
    | none => true
    | some l => r.typ == 2 && decide (l.u8 20 ≤ r.u8 10))

/-! ### Programs (R80) -/

/-- Code 0x46. -/
def checkProg (x : List Byte) (s : Reel) : Option LoadErr :=
  let ps := s.sel secProg 1
  badRec x 0x46 ps (fun p => decide (3 < p.u8 8) || decide (2 < p.u8 9) || (p.u8 8 == 0 && p.u8 9 != 0)
    || decide (p.u32 16 < 4) || decide (262144 < p.u32 16) || p.u32 16 % 4 != 0 || decide (262144 < p.u32 20) || p.u32 12 % 4 != 0 || decide (p.u32 16 ≤ p.u32 12)
    || ps.any (fun q => decide (q.idx < p.idx) && q.u8 8 == p.u8 8 && (q.u8 9 == p.u8 9 || q.u8 9 == 0 || p.u8 9 == 0)))
  <|> bad ((s.prog 0 0).isNone) 0x46 (secIdx x secProg)

/-! ### Code 0x47 -/

/-- `ESTP` (R76, R240). -/
def limitEst (x : List Byte) (s : Reel) : Option LoadErr :=
  badRec x 0x47 (s.sel secEstp 1) (fun e =>
    !(decide (e.u16 16 ≤ e.u16 22) && decide (e.u16 22 < e.u16 20) && decide (e.u16 20 ≤ e.u16 18)) || e.u32 12 == 0
    || decide (e.u32 60 < 1) || decide (8388607 < e.u32 60) || decide (e.u32 64 < 1) || decide (8388607 < e.u32 64)
    || !strictAsc ((List.range 7).map (fun k => (e.u16 (36 + 2 * k) : Int))) || !strictAsc ((List.range 5).map (fun k => e.s16 (50 + 2 * k)))
    || (s.sel secEstp 1).any (fun f => decide (f.idx < e.idx) && f.u8 8 == e.u8 8))
  <|> badRec x 0x47 (s.sel secEstp 2) (fun a => !(s.sel secEstp 1).any (fun e => e.u8 8 == a.u8 16))

/-- `DISP` (R78, R287, R304). -/
def limitDisp (x : List Byte) (s : Reel) : Option LoadErr :=
  let ds := s.sel secDisp 2
  badRec x 0x47 (s.sel secDisp 1) (fun d => (bitAt (d.u8 9) 3 && d.u32 12 == 0) || decide (d.s32 24 < 0) || decide (50000000 ≤ d.u32 16))
  <|> badRec x 0x47 ds (fun d => (s.headOf (d.u16 8)).isNone || ds.any (fun e => decide (e.idx < d.idx) && e.u16 8 == d.u16 8)
    || (if d.u16 14 = 0xFFFF then
        match s.ringOf (d.u16 8) with
        | some g => !(s.routes 0x6000 (0x100 + g)).any (fun q => match s.queueRec q with
            | some r => r.u16 20 == 0x2000 + g
            | none => false)
        | none => true
      else
        let l := s.loop1 (d.u16 14)
        !(s.routes 0x6000 (d.u16 8)).any (fun q => (List.range l.lpNr).any (fun j => l.lpRef j == q))))
  <|> badRec x 0x47 s.queueRecs (fun q => q.u16 20 == 0x6000 && !(
    [0xA000, 0xA001, 0xC000, 0xC001, 0xC002, 0xC003].contains (q.u16 18) || epKind (q.u16 18) == 8 || epKind (q.u16 18) == 4 || epKind (q.u16 18) == 5))

/-- `TRIP` (R79, R309). -/
def limitTrip (x : List Byte) (s : Reel) : Option LoadErr :=
  badRec x 0x47 (s.sel secTrip 1) (fun t => decide (t.u16 12 ≤ t.u16 14) || decide (t.s16 16 ≤ t.s16 18) || decide (65535 < t.u32 28)
    || (s.sel secTrip 1).any (fun u => decide (u.idx < t.idx) && u.u8 8 == t.u8 8))
  <|> badRec x 0x47 (s.sel secTrip 2) (fun a => !(s.sel secTrip 1).any (fun t => t.u8 8 == a.u8 10))

/-- `CALL` (R81, R436, R437, R440). -/
def limitCall (x : List Byte) (s : Reel) : Option LoadErr :=
  let slots := s.sel secCall 2
  let filts := s.sel secCall 3
  badRec x 0x47 (s.sel secCall 1) (fun c => 80000000 % c.u32 12 != 0 || c.u32 16 == 0 || 80000000 % c.u32 16 != 0 || decide (c.u32 16 < c.u32 12)
    || c.u32 20 % 125 != 0 || decide (c.u32 20 < 125) || decide (64000 < c.u32 20))
  <|> badRec x 0x47 slots (fun c => (!bitAt (c.u8 11) 2 && decide (0x7FF < c.u32 12)) || (decide (9 ≤ c.u8 20) && !bitAt (c.u8 11) 0)
    || slots.any (fun e => decide (e.idx < c.idx) && e.u8 8 == c.u8 8 && e.u8 9 == c.u8 9 && e.u8 10 == c.u8 10))
  <|> badRec x 0x47 filts (fun f => decide (128 ≤ (filts.filter (fun e => decide (e.idx < f.idx) && e.u8 8 == f.u8 8)).length))

/-- `NET` and egress queues (R81, R430). -/
def limitNet (x : List Byte) (s : Reel) : Option LoadErr :=
  let mode := fun (p : Nat) => match s.net p with
    | some r => r.u8 9
    | none => 0
  bad (mode 0 != mode 1 || mode 2 != mode 3) 0x47 (secIdx x secNet)
  <|> badRec x 0x47 s.queueRecs (fun q => epKind (q.u16 20) == 11 && (if epInst (q.u16 20) < 2 then q.u8 17 == 3 else q.u8 17 != 3))

/-- `PIO` (R81, R445). -/
def limitPio (x : List Byte) (s : Reel) : Option LoadErr :=
  let ps := s.recs.filter (fun r => r.sec == secPio)
  badRec x 0x47 ps (fun p => ps.any (fun q => decide (q.idx < p.idx) && q.typ == p.typ && q.u8 8 == p.u8 8)
    || (p.typ == 2 && !(decide (p.u16 16 ≤ p.u16 10) && decide (p.u16 10 ≤ p.u16 18) && decide (p.u16 18 ≤ 32768))))

/-- `GAF` and `WATCH` (R82, R451, R463, R476). -/
def limitGaf (x : List Byte) (s : Reel) : Option LoadErr :=
  let live := (List.range 140).filter (fun c => s.clientFull c != 0)
  badRec x 0x47 (s.sel secGaf 1) (fun g => decide (g.s16 14 ≤ g.s16 12) || g.u16 16 == 0
    || decide (g.u16 8 < 160 + sumN (live.map (fun c => s.clientFloor c))))
  <|> bad (live.any (fun c => decide (s.clientFloor c < leastFloor c) || decide (s.clientFull c < s.clientFloor c)
    || (s.protUse c false && decide (s.clientFloor c < s.clientFull c)))) 0x47 (secIdx x secGaf)
  <|> badRec x 0x47 (s.sel secWatch 2) (fun w => decide (4095 < w.u16 12) || decide (4095 < w.u16 14) || (w.u8 10 == 2 && decide (w.u16 14 ≤ w.u16 12)))

/-- Code 0x47. -/
def checkLimits (x : List Byte) (s : Reel) : Option LoadErr :=
  limitEst x s <|> limitDisp x s <|> limitTrip x s <|> limitCall x s <|> limitNet x s <|> limitPio x s <|> limitGaf x s

/-- Code 0x48 (R397). -/
def checkSplice (x : List Byte) (s : Reel) : Option LoadErr :=
  let pm := s.role.u8 10
  badRec x 0x48 (s.sel secSplice 1) (fun p => (p.u8 8 != 0xFF && !bitAt pm (p.u8 8)) || (p.u8 9 &&& pm) != p.u8 9)

/-! ### The whole check -/

/-- Every check of Table 3.19 up to code 0x48 in the order of the table: the structure, or the first refusal. `o` is the OTP, `strap` the sampled `DEV_ADDR`. -/
def reelLoad (o : Otp) (strap : Nat) (blocks : List (List Byte)) : Reel ⊕ LoadErr :=
  let bs := inOrder blocks
  let x := imageOf bs
  match checkBlocks bs <|> checkHeader bs x <|> checkSignature o x <|> checkDir x <|> checkRecords x with
  | some e => .inr e
  | none =>
    let s := reelOf x
    match checkQueues x s <|> checkPolicy x s <|> checkCycle x s <|> checkConsumer x s <|> checkRoutes x s <|> checkRealm x s <|> checkRole x s strap
      <|> checkRing x s <|> checkRate x s <|> checkCoverage x s <|> checkLoops x s <|> checkProg x s <|> checkLimits x s <|> checkSplice x s with
    | some e => .inr e
    | none => .inl s

/-! ### Continuity (R83, R102) -/

/-- The sections marked "identical" in Table 3.4. -/
def identicalSecs : List Nat := [1, 2, 3, 19, 20]

/-- Whether two images are in the same continuity class (R83). -/
def sameClass (a b : Reel) : Bool :=
  a.contClass == b.contClass && a.contClass != 0 && a.part == b.part
    && identicalSecs.all (fun t => a.secs.contains t == b.secs.contains t
      && (a.recs.filter (fun r => r.sec == t)).map (fun r => r.b) == (b.recs.filter (fun r => r.sec == t)).map (fun r => r.b))

/-- The bytes of a `NET` record without its `PCP` field. -/
def netButPcp (r : Option Rec) : Option (List Byte) := r.map (fun x => x.b.take 48 ++ x.b.drop 52)

/-- Whether a cut-over would need a restart: a triad changes between voted and split, a controller changes its `CALL` type 1 record, a port changes a field other
than `PCP` (R102). -/
def needsRestart (a b : Reel) : Bool :=
  (List.range 4).any (fun t => a.voted t != b.voted t || a.split t != b.split t)
    || (List.range 4).any (fun c => (a.can c).map (fun r => r.b) != (b.can c).map (fun r => r.b))
    || (List.range 4).any (fun p => netButPcp (a.net p) != netButPcp (b.net p))

end Sys2Proof.Machine
end

