-- ==== Sys2Proof/Machine/Trd.lean ====
section
/-!
DEFINITION. Machine/Trd.lean: the triad complex (chapter 13): lanes and their programs, the voter's judgement (R334 to R336), safe halt (R337 to R339),
re-admission and restart (R340 to R342), handover (R344, R345), the bus lock (R347) and debug (R348, R349). Units of a triad are numbered 0 the voted triad,
1 and 2 split lanes A and B, 3 to 5 a lane A to C that runs outside the vote. The instructions stand in Machine/Isa.lean.
-/
namespace Sys2Proof.Machine

/-! ### Lanes -/

def Dev.tri (d : Dev) (tr : Nat) : Triad := d.trd.tri.get tr {}
def Dev.setTri (d : Dev) (tr : Nat) (x : Triad) : Dev := { d with trd := { d.trd with tri := d.trd.tri.set tr x {} } }
def Dev.lane (d : Dev) (tr lane : Nat) : Lane := (d.tri tr).lanes.get lane {}
def Dev.setLane (d : Dev) (tr lane : Nat) (x : Lane) : Dev :=
  let y := d.tri tr
  d.setTri tr { y with lanes := y.lanes.set lane x {} }

/-- `TRD_LANE_STAT.STATE` of a lane (Table 13.9); 0 for a number that is no lane. -/
def Dev.lst (d : Dev) (tr lane : Nat) : Nat := if 1 ≤ lane ∧ lane ≤ 3 then d.rd Reg.TRD_LANE_STAT_STATE tr (lane - 1) else 0
def Dev.setLst (d : Dev) (tr lane st : Nat) : Dev := d.wr Reg.TRD_LANE_STAT_STATE st tr (lane - 1)

/-- `TRD_STATUS.MODE`: 0 not started, 1 voted, 2 split. -/
def Dev.tmode (d : Dev) (tr : Nat) : Nat := d.rd Reg.TRD_STATUS_MODE tr

/-- The voting lanes of a voted triad. -/
def Dev.voters (d : Dev) (tr : Nat) : List Nat := [1, 2, 3].filter (fun l => d.lst tr l == 1)

/-- The requester code of a unit (Table 8.2). -/
def unitReq (tr l : Nat) : Nat := 0x80 + 4 * tr + l

/-- The event instance of a triad or one of its lanes (R351). -/
def trdInst (tr l : Nat) : Nat := 4 * tr + l

/-- The lanes that a unit's instruction runs on. -/
def Dev.members (d : Dev) (tr l : Nat) : List Nat := if l = 0 then d.voters tr else if l ≤ 2 then [l] else [l - 2]

/-- Whether triads run in the device state (R344). -/
def Dev.triadsRun (d : Dev) : Bool := d.mode == .quiet || d.mode == .run || d.mode == .wrap

/-- Whether a unit fetches: its program runs, it is not halted and in no self-test before a start. -/
def Dev.unitRuns (d : Dev) (tr l : Nat) : Bool :=
  let ph := (d.tri tr).phase
  d.triadsRun &&
    (if l = 0 then d.tmode tr == 1 && !d.on Reg.TRD_STATUS_HALTED tr && ph != .start && ph != .restart && !(d.voters tr).isEmpty
     else if l ≤ 2 then d.tmode tr == 2 && d.lst tr l == 1
     else d.lst tr (l - 2) == 6)

/-- Writes what a unit holds into every lane it runs on. -/
def Dev.putUnit (d : Dev) (tr l : Nat) (x : Lane) : Dev :=
  (d.members tr l).foldl (fun (d : Dev) k =>
    let y := d.lane tr k
    d.setLane tr k { y with core := x.core, itcm := x.itcm, dtcm := x.dtcm }) d

/-! ### Authority, notes to the partner -/

/-- Sends a NOTE frame to the partner (R391). -/
def Dev.note (d : Dev) (kind tr lane pc : Nat) : Dev :=
  if d.solo then d else d.peerSend d.pairLinks pfNote (toLe kind 1 ++ toLe tr 1 ++ toLe lane 1 ++ toLe 0 1 ++ toLe pc 4)

/-- Recomputes `VOTE` and `AUTH` (R317, R349), and for T0 the protection authority of TRW. -/
def Dev.trdSync (d : Dev) (tr : Nat) : Dev :=
  let n := (d.voters tr).length
  let run := d.triadsRun && !d.on Reg.TRD_STATUS_HALTED tr && !((d.tri tr).phase == .start || (d.tri tr).phase == .restart)
  let d := d.wr Reg.TRD_STATUS_VOTE (if d.tmode tr = 1 && run then n else 0) tr
  let taint := d.on Reg.TRD_STATUS_TAINT tr
  let auth := run && !taint &&
    (if tr = 0 then d.tmode 0 == 1 && decide (2 ≤ n)
     else d.on Reg.TRD_STATUS_REALM tr && (if d.tmode tr = 1 then decide (1 ≤ n) else d.tmode tr == 2))
  let d := d.wr Reg.TRD_STATUS_AUTH (b2n auth) tr
  if tr = 0 && d.on Reg.TRW_STATUS_T0_AUTH != auth then (d.trwAuth auth).note (if auth then 4 else 2) 0 0 0 else d

/-! ### The bus lock (R347, R369) -/

/-- Ends the hold of the bus lock by revocation: 1 time, 2 access count, 3 holder stopped. -/
def Dev.lockRevoke (d : Dev) (why : Nat) : Dev :=
  match d.trd.lock with
  | none => d
  | some b =>
    let tr := (b.req - 0x80) / 4
    let d := { d with trd := { d.trd with lock := none, revoked := b.req :: d.trd.revoked.filter (fun x => x != b.req) } }
    ((d.clr Reg.TRD_STATUS_LOCK tr).set1 Reg.TRD_ERR_LOCK_REVOKED tr).raise Ev.TRD_LOCK_REVOKED (b.req - 0x80) why

/-- Gives the bus lock up. -/
def Dev.lockFree (d : Dev) (req : Nat) : Dev :=
  match d.trd.lock with
  | none => d
  | some b => if b.req = req then { d with trd := { d.trd with lock := none } }.clr Reg.TRD_STATUS_LOCK ((req - 0x80) / 4) else d

/-- Whether a requester holds the bus lock. -/
def Dev.holdsLock (d : Dev) (req : Nat) : Bool := match d.trd.lock with
  | some b => b.req == req
  | none => false

/-- The holder stops voting. -/
def Dev.lockStop (d : Dev) (req : Nat) : Dev := if d.holdsLock req then d.lockRevoke 3 else d

/-- BUS_LOCK_REVOKE: 2 µs or 64 accesses have passed under the lock. -/
def Dev.lockLimit (d : Dev) : Dev :=
  match d.trd.lock with
  | none => d
  | some b => if 64 ≤ b.n then d.lockRevoke 2 else if b.at_ + 2000 ≤ d.own then d.lockRevoke 1 else d

/-! ### Stops (R336 to R339) -/

/-- What a unit waits for is dropped. -/
def Dev.dropWait (d : Dev) (tr l : Nat) : Dev :=
  let d := { d with qf := { d.qf with lanes := d.qf.lanes.del (unitReq tr l) } }
  (d.members tr l).foldl (fun (d : Dev) k => let x := d.lane tr k; d.setLane tr k { x with core := { x.core with wait := none } }) d

/-- Ends a pending re-admission with a status (R341); the lane is excluded as before. -/
def Dev.readmitEnd (d : Dev) (tr st : Nat) : Dev :=
  let x := d.tri tr
  match x.readmit with
  | none => d
  | some lane =>
    let d := d.setTri tr { x with readmit := none, phase := .idle, testing := [], passed := [] }
    let d := if d.lst tr lane = 3 then d.setLst tr lane 2 else d
    ((d.clr Reg.TRD_STATUS_READMIT_PEND tr).wr Reg.TRD_READMIT_STATUS st tr).raise Ev.TRD_READMIT (trdInst tr lane) st

/-- Records a fault in `TRD_MIS_PC`, `TRD_MIS_INFO` and `TRD_MIS_TS`. -/
def Dev.misWrite (d : Dev) (tr pc lanes kind reg : Nat) (special : Bool) : Dev :=
  let d := (d.wr Reg.TRD_MIS_PC_PC pc tr).wr Reg.TRD_MIS_TS_TS32 (ts32 d.now) tr
  (((d.wr Reg.TRD_MIS_INFO_LANES lanes tr).wr Reg.TRD_MIS_INFO_KIND kind tr).wr Reg.TRD_MIS_INFO_REG reg tr).wr Reg.TRD_MIS_INFO_SPECIAL (b2n special) tr

/-- The `DATA` of `EV_TRD_MISMATCH` and `EV_TRD_HALT`. -/
def Dev.misData (d : Dev) (tr : Nat) : Nat :=
  d.rd Reg.TRD_MIS_PC_PC tr + (d.rd Reg.TRD_MIS_INFO_LANES tr + 16 * d.rd Reg.TRD_MIS_INFO_KIND tr) * 2 ^ 32

/-- Safe halt of a voted triad (R337), its fault recorded before. -/
def Dev.safeHalt (d : Dev) (tr : Nat) : Dev :=
  let d := d.dropWait tr 0
  let d := (d.voters tr).foldl (fun (d : Dev) k => d.setLst tr k 4) d
  let d := (d.set1 Reg.TRD_STATUS_HALTED tr).lockStop (unitReq tr 0)
  let d := (d.readmitEnd tr 3).trdSync tr
  d.note 3 tr 0 (d.rd Reg.TRD_MIS_PC_PC tr)

/-- Safe halt on a comparison fault, with `EV_TRD_HALT`. -/
def Dev.haltFault (d : Dev) (tr pc lanes kind reg : Nat) (special : Bool) : Dev :=
  let d := d.misWrite tr pc lanes kind reg special
  (d.raise Ev.TRD_HALT (trdInst tr 0) (d.misData tr)).safeHalt tr

/-- Halt of a split lane (R343, R347). -/
def Dev.splitHalt (d : Dev) (tr l : Nat) : Dev :=
  (((d.dropWait tr l).setLst tr l 4).lockStop (unitReq tr l)).trdSync tr

/-- Removes one lane from the vote (R336): the triad runs duplex. -/
def Dev.excludeLane (d : Dev) (tr lane pc cause reg : Nat) (special : Bool) : Dev :=
  let d := d.misWrite tr pc (2 ^ (lane - 1)) cause reg special
  let d := ((d.setLst tr lane 2).wr Reg.TRD_LANE_STAT_CAUSE cause tr (lane - 1)).bump Reg.TRD_LANE_STAT_EXCL 1 tr (lane - 1)
  (d.raise Ev.TRD_MISMATCH (trdInst tr lane) (d.misData tr)).trdSync tr

/-- Whether two entries agree (R334): every field is equal and neither carries a mark. -/
def entriesAgree (a b : CEntry) : Bool :=
  !a.mark && !b.mark && a.kind == b.kind && a.special == b.special && a.x == b.x && a.y == b.y && a.z == b.z

/-- The `CAUSE` code of an entry that is not agreed with. -/
def entryCause (e : CEntry) : Nat := if e.mark then 5 else e.kind

/-- Judges the entries presented by voting lanes (Table 13.3). With three voting lanes, two agreeing entries decide; a lane whose entry has not come is not
judged. -/
def Dev.judge (d : Dev) (tr : Nat) (ents : List CEntry) : Dev :=
  let vs := d.voters tr
  let es := vs.filterMap (fun l => ents.find? (fun e => e.lane == l))
  let bits (l : List CEntry) : Nat := sumN (l.map (fun e => 2 ^ (e.lane - 1)))
  let reg (e : CEntry) : Nat := if entryCause e = 1 then e.x else 0
  let spc (e : CEntry) : Bool := entryCause e == 1 && e.special
  if vs.length = 3 then
    (match es.find? (fun a => es.any (fun b => b.lane != a.lane && entriesAgree a b)) with
    | some a =>
      (match es.find? (fun e => !entriesAgree a e) with
      | some e => d.excludeLane tr e.lane e.pc.toNat (entryCause e) (reg e) (spc e)
      | none => d)
    | none => if es.length = 3 then d.haltFault tr ((es.map (fun e => e.pc.toNat)).getD 0 0) (bits es) 8 0 false else d)
  else if vs.length = 2 then
    (match es with
    | [a, b] => if entriesAgree a b then d else
        let e := if a.mark then a else b
        d.haltFault tr a.pc.toNat (bits es) (entryCause e) (reg e) (spc e)
    | [a] => if a.mark then d.haltFault tr a.pc.toNat (bits es) 5 0 false else d
    | _ => d)
  else match es with
    | [a] => if a.mark then d.haltFault tr a.pc.toNat (bits es) 5 0 false else d
    | _ => d

/-- A voting lane is silent for an entry (R334, R336). -/
def Dev.silent (d : Dev) (tr lane pc : Nat) : Dev :=
  if d.lst tr lane ≠ 1 then d
  else match (d.voters tr).length with
    | 3 => d.excludeLane tr lane pc 4 0 false
    | 2 => d.haltFault tr pc (2 ^ (lane - 1)) 4 0 false
    | _ => d

/-- TCM errors met by the lanes of a unit at a load (R334, R343): corrected ones are counted, an uncorrectable one stops a split lane, and in a voted triad marks
the lane's entry. -/
def Dev.tcmErrors (d : Dev) (tr l pc : Nat) (ecc : List (Nat × Bool)) : Dev :=
  let mem := d.members tr l
  let cor := mem.filter (fun k => ecc.any (fun x => x.1 == k && !x.2))
  let bad := mem.filter (fun k => ecc.any (fun x => x.1 == k && x.2))
  let d := cor.foldl (fun (d : Dev) k => (d.bump Reg.TRD_LANE_STAT_ECC_CORR 1 tr (k - 1)).raiseHeld Ev.TRD_ECC (trdInst tr k) oneSec (trdInst tr k) (fun n => min n 65535)) d
  if bad.isEmpty then d
  else if l = 0 then
    d.judge tr ((d.voters tr).map (fun k => { lane := k, pc := BitVec.ofNat 32 pc, kind := 1, special := false, x := 0, y := 0, z := 0, mark := bad.contains k }))
  else if l ≤ 2 then
    let d := d.misWrite tr pc (2 ^ (l - 1)) 5 0 false
    (d.raise Ev.TRD_HALT (trdInst tr l) (d.misData tr)).splitHalt tr l
  else d.setLst tr (l - 2) 4

/-- The watchdog of a unit expires (R339). -/
def Dev.wdogExpire (d : Dev) (tr l : Nat) : Dev :=
  let p := d.rd Reg.TRD_WDOG_PERIOD tr
  if p = 0 || !d.unitRuns tr l || decide (d.own < (d.tri tr).kick.get l 0 + p * 1000) then d
  else
    let d := (d.set1 Reg.TRD_ERR_WDOG tr).raise Ev.TRD_WDOG (trdInst tr l) p
    let pc := (d.lane tr ((d.members tr l).headD 1)).core.pc.toNat
    if l = 0 then (d.misWrite tr pc 0 7 0 false).safeHalt tr else d.splitHalt tr l

/-- A write of `TRD_WDOG_KICK` (R339): only 0x5A5A from the triad itself counts, and in split mode only for the lane that wrote it. -/
def Dev.wdogKick (d : Dev) (tr req v : Nat) : Dev :=
  if v = 0x5A5A && isLane req && (req - 0x80) / 4 == tr then
    let x := d.tri tr
    d.setTri tr { x with kick := x.kick.ins ((req - 0x80) % 4) d.own }
  else d

/-- A write of `TRD_WDOG.PERIOD` restarts every count of the triad. -/
def Dev.wdogSet (d : Dev) (tr p : Nat) : Dev :=
  let x := d.tri tr
  (d.setTri tr { x with kick := [(0, d.own), (1, d.own), (2, d.own)] }).wr Reg.TRD_WDOG_PERIOD p tr

/-! ### Programs (R344, R345) -/

/-- The 32-bit words of a byte string, by index, leaving out words of 0. -/
def imageWords : Nat → Nat → List Byte → Tbl Word
  | 0, _, _ => []
  | n + 1, k, b =>
    if b.isEmpty then []
    else
      let w := BitVec.ofNat 32 (le b 0 4)
      if w = 0#32 then imageWords n (k + 1) (b.drop 4) else (k, w) :: imageWords n (k + 1) (b.drop 4)

/-- Fields and images of a `PROG` record (R80). -/
def Rec.pgEntry (x : Rec) : Nat := x.u32 12
def Rec.pgItcm (x : Rec) : Tbl Word := let b := slice x.b 32 (x.u32 16); imageWords b.length 0 b
def Rec.pgDtcm (x : Rec) : Tbl Word := let b := slice x.b (32 + x.u32 16) (x.u32 20); imageWords b.length 0 b
def Rec.pgCarry (x : Rec) : Nat := x.u32 24

/-- The program of a lane in a Reel: that of the voted triad or its own. -/
def Reel.laneProg (r : Reel) (tr lane : Nat) : Option Rec := if r.voted tr then r.prog tr 0 else r.prog tr lane

/-- Loads a lane with a program and clears its registers (R344). -/
def Dev.loadLane (d : Dev) (tr lane : Nat) (x : Rec) (keepData : Bool) : Dev :=
  let y := d.lane tr lane
  d.setLane tr lane { itcm := x.pgItcm, dtcm := if keepData then y.dtcm else x.pgDtcm, core := { pc := BitVec.ofNat 32 x.pgEntry }, bps := y.bps }

/-- Starts the watchdog counts of a triad at the start of its program. -/
def Dev.kickAll (d : Dev) (tr : Nat) : Dev :=
  let x := d.tri tr
  d.setTri tr { x with kick := [(0, d.own), (1, d.own), (2, d.own)] }

/-- The lanes that a Reel starts in a triad (R332). -/
def Reel.startLanes (r : Reel) (tr : Nat) : List Nat :=
  if r.voted tr then [1, 2, 3] else [1, 2].filter (fun l => (r.prog tr l).isSome)

/-- Entry to QUIET (R332, R344): every triad takes the mode its records give, its lanes are loaded and start their self-test. -/
def Dev.trdQuiet (d : Dev) : Dev :=
  let d := { d with trd := { d.trd with lock := none, revoked := [] } }
  [0, 1, 2, 3].foldl (fun (d : Dev) tr =>
    let ls := d.rl.startLanes tr
    let d := d.wr Reg.TRD_STATUS_MODE (if d.rl.voted tr then 1 else if d.rl.split tr then 2 else 0) tr
    let d := d.wr Reg.TRD_STATUS_REALM (b2n (d.rl.realmOf 3 tr 10)) tr
    let d := ((d.clr Reg.TRD_STATUS_HALTED tr).clr Reg.TRD_STATUS_READMIT_PEND tr).clr Reg.TRD_STATUS_LOCK tr
    let d := [0, 1, 2].foldl (fun (d : Dev) l => { d with qf := { d.qf with lanes := d.qf.lanes.del (unitReq tr l) } }) d
    let d := [1, 2, 3].foldl (fun (d : Dev) l =>
      match ls.contains l, d.rl.laneProg tr l with
      | true, some x => (d.loadLane tr l x false).setLst tr l 3
      | _, _ => (d.setLane tr l {}).setLst tr l 0) d
    let x := d.tri tr
    (d.setTri tr { x with phase := if ls.isEmpty then .idle else .start, testing := ls, passed := [], readmit := none }).trdSync tr) d

/-- The self-tests before a start or a restart have all ended (R342, R344). -/
def Dev.testsDone (d : Dev) (tr : Nat) (restart : Bool) : Dev :=
  let x := d.tri tr
  let ok := x.passed
  let all := [1, 2, 3].filter (fun l => d.lst tr l == 3)
  let bad := all.filter (fun l => !ok.contains l)
  let d := d.setTri tr { x with phase := .idle, testing := [], passed := [] }
  let load (d : Dev) (l : Nat) : Dev := match restart, d.rl.laneProg tr l with
    | true, some p => d.loadLane tr l p false
    | _, _ => d
  if d.tmode tr = 1 then
    let d := bad.foldl (fun (d : Dev) l => (d.setLst tr l 2).bump Reg.TRD_LANE_STAT_EXCL 1 tr (l - 1)) d
    if 2 ≤ ok.length then
      let d := ok.foldl (fun (d : Dev) l => (load d l).setLst tr l 1) d
      let d := ((d.clr Reg.TRD_STATUS_HALTED tr).kickAll tr).trdSync tr
      if restart then (d.wr Reg.TRD_RESTART_STATUS 0 tr).raise Ev.TRD_RESTART (trdInst tr 0) (sumN (ok.map (fun l => 2 ^ (l - 1)))) else d
    else
      let d := ok.foldl (fun (d : Dev) l => d.setLst tr l 4) d
      if restart then ((d.wr Reg.TRD_RESTART_STATUS 5 tr).raise Ev.TRD_RESTART (trdInst tr 0) (5 * 2 ^ 8)).trdSync tr
      else
        let d := d.misWrite tr (d.rd Reg.TRD_MIS_PC_PC tr) (sumN (bad.map (fun l => 2 ^ (l - 1)))) 8 0 false
        (d.raise Ev.TRD_HALT (trdInst tr 0) (d.misData tr)).safeHalt tr
  else
    let d := bad.foldl (fun (d : Dev) l => d.setLst tr l 4) d
    let d := ok.foldl (fun (d : Dev) l => (load d l).setLst tr l 1) d
    let x := d.tri tr
    let d := (d.setTri tr { x with kick := ok.foldl (fun (k : Tbl Nat) l => k.ins l d.own) x.kick }).trdSync tr
    if restart then
      let st := if ok.isEmpty then 5 else 0
      (d.wr Reg.TRD_RESTART_STATUS st tr).raise Ev.TRD_RESTART (trdInst tr 0) (sumN (ok.map (fun l => 2 ^ (l - 1))) + st * 2 ^ 8)
    else d

/-- LANE_SELFTEST_DONE. -/
def Dev.selfTest (d : Dev) (tr lane : Nat) (pass : Bool) : Dev :=
  let x := d.tri tr
  if !x.testing.contains lane then d
  else
    let x := { x with testing := x.testing.filter (fun l => l != lane), passed := if pass then x.passed ++ [lane] else x.passed }
    let d := d.setTri tr x
    match x.phase with
    | .idle => d
    | .start => if x.testing.isEmpty then d.testsDone tr false else d
    | .restart => if x.testing.isEmpty then d.testsDone tr true else d
    | .readmit =>
      if pass then (d.setTri tr { x with phase := .idle, passed := [] }).setLst tr lane 2 |>.set1 Reg.TRD_STATUS_READMIT_PEND tr
      else d.readmitEnd tr 5

/-- `TRD_READMIT.GO` (R340): its status. -/
def Dev.readmitGo (d : Dev) (tr lane : Nat) : Dev :=
  let x := d.tri tr
  let st :=
    if d.tmode tr ≠ 1 then 2
    else if x.readmit.isSome ∨ x.phase ≠ .idle then 4
    else if d.on Reg.TRD_STATUS_HALTED tr ∨ (d.voters tr).length ≠ 2 then 3
    else if d.lst tr lane ≠ 2 ∧ d.lst tr lane ≠ 6 then 1
    else if lane < 1 ∨ 3 < lane then 1
    else 0
  let d := d.wr Reg.TRD_READMIT_STATUS st tr
  if st ≠ 0 then d
  else (d.setTri tr { x with readmit := some lane, phase := .readmit, testing := [lane], passed := [] }).setLst tr lane 3

/-- `TRD_RESTART.GO` (R342). -/
def Dev.restartGo (d : Dev) (tr lanes : Nat) : Dev :=
  let x := d.tri tr
  let halted := if d.tmode tr = 1 then (if d.on Reg.TRD_STATUS_HALTED tr then [1, 2, 3] else [])
    else (setBits lanes 3).filterMap (fun k => if d.lst tr (k + 1) = 4 then some (k + 1) else none)
  let st :=
    if !d.triadsRun then 9
    else if d.tmode tr = 0 then 2
    else if x.phase ≠ .idle then 4
    else if halted.isEmpty then 8
    else 0
  let d := d.wr Reg.TRD_RESTART_STATUS st tr
  if st ≠ 0 then d
  else
    let d := halted.foldl (fun (d : Dev) l => d.setLst tr l 3) d
    d.setTri tr { x with phase := .restart, testing := halted, passed := [] }

/-- What a triad leaves in the fabric at a handover (R345): its open packets are closed as by ABORT and its queue locks released. -/
def Dev.fabricLeave (d : Dev) (req : Nat) : Dev :=
  (d.qf.qs.map (fun x => x.1)).foldl (fun (d : Dev) qid =>
    match d.qf.qs.find qid with
    | none => d
    | some q =>
      let held := (match q.openp with | some p => p.req == req | none => false) || (match q.reading with | some r => r.req == req | none => false)
      if held then d.applyRes qid (q.release req) else d) d

/-- Handover at a scheduled cut-over (R345), the new Reel in force; `old` is the one it replaces. -/
def Dev.trdCutover (d : Dev) (old : Reel) : Dev :=
  [0, 1, 2, 3].foldl (fun (d : Dev) tr =>
    let d := d.readmitEnd tr 7
    let units := if d.tmode tr = 1 then [0] else if d.tmode tr = 2 then [1, 2] else []
    let d := d.wr Reg.TRD_STATUS_REALM (b2n (d.rl.realmOf 3 tr 10)) tr
    units.foldl (fun (d : Dev) u =>
      if !d.unitRuns tr u then d
      else
        let req := unitReq tr u
        let d := ((d.dropWait tr u).fabricLeave req).lockFree req
        let d := { d with trd := { d.trd with revoked := d.trd.revoked.filter (fun x => x != req) } }
        match d.rl.prog tr u with
        | none => d
        | some p =>
          let keep := match old.prog tr u with
            | some o => p.pgCarry != 0 && o.pgCarry == p.pgCarry
            | none => false
          let d := (d.members tr u).foldl (fun (d : Dev) l => d.loadLane tr l p keep) d
          let x := d.tri tr
          let d := d.setTri tr { x with kick := x.kick.ins u d.own }
          (d.trdSync tr).raise Ev.TRD_HANDOVER (trdInst tr u) p.pgEntry) d) d

/-- The triads stop: HALT, or loss of the main rails. -/
def Dev.trdStop (d : Dev) : Dev :=
  let d := { d with trd := { d.trd with lock := none } }
  [0, 1, 2, 3].foldl (fun (d : Dev) tr =>
    let d := (d.readmitEnd tr 7).clr Reg.TRD_STATUS_LOCK tr
    let d := [0, 1, 2].foldl (fun (d : Dev) u => d.dropWait tr u) d
    let d := (d.wr Reg.TRD_STATUS_VOTE 0 tr).clr Reg.TRD_STATUS_AUTH tr
    if tr = 0 && d.on Reg.TRW_STATUS_T0_AUTH then (d.trwAuth false).note 2 0 0 0 else d) d

/-! ### Debug (R348, R349) -/

/-- What the debug port does with a command that arrives while `DBG_EN` reads as given (R348): whether it is accepted. -/
def Dev.dbgPort (d : Dev) (tr : Nat) (dbgEn : Bool) : Dev × Bool :=
  let was := d.on Reg.GLB_STATUS_DBG_EN
  let d := { d.wr Reg.GLB_STATUS_DBG_EN (b2n dbgEn) with supply := { d.supply with dbgEn := dbgEn } }
  if !dbgEn then (d, false)
  else if d.mode != .dark && d.rl.sealed then
    ((d.set1 Reg.TRD_ERR_DEBUG_REFUSED tr).raise Ev.TRD_DEBUG_REFUSED (trdInst tr 0) 0, false)
  else (if was then d else d.raise Ev.TRD_DEBUG_PORT (trdInst tr 0) 0, true)

/-- The debugger, or a breakpoint, halts a lane (R349). -/
def Dev.debugHalt (d : Dev) (tr lane : Nat) : Dev :=
  let st := d.lst tr lane
  if st ≠ 1 ∧ st ≠ 2 ∧ st ≠ 6 then d
  else
    let pc := (d.lane tr lane).core.pc.toNat
    let d := d.readmitEnd tr 7
    let unit := if d.tmode tr = 2 then lane else 0
    let last := st = 1 && (d.tmode tr == 2 || d.voters tr == [lane])
    let d := if last then d.dropWait tr unit else d
    let d := (d.setLst tr lane 5).wr Reg.TRD_LANE_STAT_CAUSE 6 tr (lane - 1)
    let d := if st = 1 then d.bump Reg.TRD_LANE_STAT_EXCL 1 tr (lane - 1) else d
    let d := if last then d.lockStop (unitReq tr unit) else d
    let d := ((d.set1 Reg.GLB_STATUS_DEBUG).set1 Reg.TRD_STATUS_TAINT tr).trdSync tr
    let d := d.note 1 tr lane pc
    d.raise Ev.TRD_DEBUG_HALT (trdInst tr lane) pc

/-- A halted lane is resumed (R349): outside the vote, as the simplex voting lane when none votes, or as a split lane. -/
def Dev.debugResume (d : Dev) (tr lane : Nat) (step : Bool) : Dev :=
  if d.lst tr lane ≠ 5 then d
  else
    let x := d.lane tr lane
    let d := d.setLane tr lane { x with step := step, skip := true, core := { x.core with wait := none } }
    let st := if d.tmode tr = 2 then 1 else if d.tmode tr = 1 && (d.voters tr).isEmpty && !d.on Reg.TRD_STATUS_HALTED tr then 1 else 6
    (d.setLst tr lane st).trdSync tr

/-- A triad debug command at the port: 0 none, 1 halt, 2 single step, 3 resume, 4 set a breakpoint, 5 remove one, 6 read and 7 write a general register,
8 read and 9 write a word of instruction TCM, 10 read and 11 write a word of data TCM, 12 read and 13 write the PC. Registers and TCMs are those of a halted lane. -/
def Dev.dbgOp (d : Dev) (tr lane op addr : Nat) (v : Word) : Dev :=
  let x := d.lane tr lane
  if lane < 1 ∨ 3 < lane then d else
  let halted := d.lst tr lane = 5 || d.lst tr lane = 4 || d.lst tr lane = 2
  match op with
  | 1 => d.debugHalt tr lane
  | 2 => d.debugResume tr lane true
  | 3 => d.debugResume tr lane false
  | 4 => d.setLane tr lane { x with bps := if x.bps.contains addr then x.bps else x.bps ++ [addr] }
  | 5 => d.setLane tr lane { x with bps := x.bps.filter (fun a => a != addr) }
  | 6 => if halted then d.emit (.jtag (if addr % 32 = 0 then 0 else (x.core.g.get (addr % 32) 0#32).toNat)) else d
  | 7 => if halted && addr % 32 != 0 then d.setLane tr lane { x with core := { x.core with g := x.core.g.set (addr % 32) v 0#32 } } else d
  | 8 => if halted then d.emit (.jtag (x.itcm.get (addr / 4) 0#32).toNat) else d
  | 9 => if halted && decide (addr < 0x40000) then d.setLane tr lane { x with itcm := x.itcm.set (addr / 4) v 0#32 } else d
  | 10 => if halted then d.emit (.jtag (x.dtcm.get (addr / 4) 0#32).toNat) else d
  | 11 => if halted && decide (addr < 0x40000) then d.setLane tr lane { x with dtcm := x.dtcm.set (addr / 4) v 0#32 } else d
  | 12 => if halted then d.emit (.jtag x.core.pc.toNat) else d
  | 13 => if halted then d.setLane tr lane { x with core := { x.core with pc := v &&& 0xFFFFFFFC#32 } } else d
  | _ => d

end Sys2Proof.Machine
end

