-- ==== Sys2Proof/Machine/Build.lean ====
section
/-!
DEFINITION. Machine/Build.lean: building the structure of a Reel (R87, R108), entry to QUIET and to RUN (Table 1.3, R88, R131, R165), leaving RUN and WRAP, HALT
(R27), and what crosses a scheduled cut-over (R106, Table 4.5).
-/
namespace Sys2Proof.Machine

/-- Returns the registers of an address range to their reset values. -/
def Dev.dropRegs (d : Dev) (lo hi : Nat) : Dev := { d with regs := d.regs.filter (fun x => decide (x.1 < lo) || decide (hi ≤ x.1)) }

/-! ### Queues -/

/-- `QF_NEAR_USED` and `QF_FAR_USED` (Table 8.12). -/
def Dev.qfSizes (d : Dev) : Dev :=
  let qs := d.rl.queueRecs
  (d.wr Reg.QF_NEAR_USED_ITEMS (sumN ((qs.filter (fun (q : Rec) => q.near)).map (fun (q : Rec) => q.qdepth)))).wr Reg.QF_FAR_USED_UNITS
    (sumN ((qs.filter (fun (q : Rec) => !q.near)).map (fun (q : Rec) => (q.qdepth + 63) / 64)))

/-- Host reads that wait on a queue that is no longer built end with TIMEOUT (R210). -/
def Dev.popsGone (d : Dev) : Dev :=
  (d.reqs.map (fun (x : Nat × Req) => x.1)).foldl (fun (d : Dev) req => match (d.rq req).pop with
    | some (qid, _) => if (d.qf.qs.find qid).isNone then d.hostTimeout req else d
    | none => d) d

/-- The queues of a structure, empty (R72). -/
def Dev.qfBuild (d : Dev) : Dev :=
  let qs := d.rl.queueRecs.foldl (fun (t : Tbl Queue) (q : Rec) => t.ins q.qid { qd := d.rl.qdef q }) []
  let d := { d with qf := { qs := qs } }
  ((d.wr Reg.QF_LOCK_TIMEOUT_TIMEOUT (d.rl.queueGlobal.u16 8)).qfSizes).popsGone

/-! ### Rings -/

/-- Whether the `RING` records of a ring are the same in two structures. -/
def sameRing (a b : Reel) (g : Nat) : Bool :=
  (a.ringRec g).map (fun (x : Rec) => x.b) == (b.ringRec g).map (fun (x : Rec) => x.b) && (a.nodes g).map (fun (x : Rec) => x.b) == (b.nodes g).map (fun (x : Rec) => x.b)

/-- Builds a ring (R108, R131): a kept ring keeps its enumeration and node states and is confirmed by one ENUM, another starts afresh. -/
def Dev.ringBuild (d : Dev) (g : Nat) (keep : Bool) : Dev :=
  let l := 0x100000 + 0x2000 * g
  let w := 0x180000 + 0x1000 * (g + 1)
  let on := d.rl.present g
  let r := d.lr g
  let outc := r.outc
  let adm := (d.rl.nodes g).filterMap (fun (n : Rec) => if outc.get n.ndAddr 0 = 1 ∨ outc.get n.ndAddr 0 = 2 then some n.ndAddr else none)
  let states := d.regs.filter (fun (x : Nat × Word) => decide (w + 0x100 ≤ x.1) && decide (x.1 < w + 0x1000) && x.1 % 16 == 0)
  let d := d.setLr g (if keep then
      { orig := r.orig, outc := outc, hop := r.hop, misaligned := r.misaligned, toAdmit := sortBy (fun a b => decide (a ≤ b)) adm, lastV := r.lastV, lastT := r.lastT, lastQ := r.lastQ, cmds := [{ typ := 0x10, dest := 0, pay := [1, 0, BitVec.ofNat 8 (d.rl.ringNodes g), 0] }] }
    else { orig := r.orig && on })
  let d := if keep then d else (d.dropRegs (l + 0x100) (l + 0x118)).dropRegs (l + 0x400) (l + 0xA00)
  let d := (d.dropRegs w (w + 0x10)).dropRegs (w + 0x14) (w + 0x1000)
  let d := if keep then states.foldl (fun (d : Dev) (x : Nat × Word) => d.setWord x.1 x.2) d else d
  let d := (d.wr Reg.LNK_PORT_CTRL_ENABLE (b2n on) (2 * g)).wr Reg.LNK_PORT_CTRL_ENABLE (b2n on) (2 * g + 1)
  if on then (d.swpShow g).wr Reg.SWP_RING_POLL_NEXT_COUNT (min 11 (d.rl.ringNodes g)) g
  else (d.wr Reg.LNK_PORT_STAT_ROLE 0 (2 * g)).wr Reg.LNK_PORT_STAT_ROLE 0 (2 * g + 1)

/-- Whether every present ring has ended its enumeration (Table 1.3, R131). -/
def Dev.ringsReady (d : Dev) : Bool := d.rl.rings.all (fun g => (d.lr g).enumEnd.isNone && (d.lr g).emaxAsk.isEmpty && d.rd Reg.LNK_RING_STAT_STATE g == 2)

/-! ### Timebase -/

/-- The PTP ports of a structure (Table 6.13) and the temperature compensation table of the store. -/
def Dev.tbBuild (d : Dev) : Dev :=
  let d := (List.range 4).foldl (fun (d : Dev) p =>
    let o := if d.ptpRole p = 0 then 0 else d.ptpOpt p
    let d := ((d.wr Reg.TB_PTP_INT_LOG_ANNOUNCE (if bitAt o 3 then 0 else 1) p).wr Reg.TB_PTP_INT_LOG_SYNC 0 p).wr Reg.TB_PTP_INT_LOG_DELAY 0 p
    (d.wr Reg.TB_PTP_INT_ANN_TIMEOUT 3 p).wr Reg.TB_PTP_STAT_OPT o p) d
  let (d, b) := d.nvRead 2 0
  let d := match b with
    | some b => d.tcompLoad b
    | none => d
  d.bmca

/-! ### The whole structure -/

/-- Whether a channel is present in a structure. -/
def Reel.hasCell (r : Reel) (ch : Nat) : Bool := (r.cellAt (ch / 2048) (ch % 2048)).isSome

/-- The channels of the estimator after a build: the registers of channels that are not kept return to reset. -/
def Dev.estClear (d : Dev) (keep : Nat → Bool) : Dev :=
  let d := { d with regs := d.regs.filter (fun (x : Nat × Word) => decide (x.1 < 0x10000000) || (decide (x.1 < 0x18000000) && keep ((x.1 - 0x10000000) / 1024))) }
  { d with est := { ch := d.est.ch.filter (fun (x : Nat × ECh) => keep x.1) } }

/-- Builds the structure of a Reel in place of the one that runs (R87, R107, R108). `old` is the structure whose rings and channels a FORCE activation keeps. The
causes latched by TRW survive (R314); so does what hosts have written into the registers. -/
def Dev.build (d : Dev) (r : Reel) (slot : Nat) (old : Option Reel) : Dev :=
  let kept (g : Nat) : Bool := match old with
    | some o => o.present g && r.present g && sameRing o r g
    | none => false
  let keepCh (c : Nat) : Bool := match old with
    | some o => o.hasCell c && r.hasCell c
    | none => false
  let d := { d with reel := some r, img := { d.img with bootSlot := slot } }
  let d := (d.wr Reg.GLB_STATUS_SEALED (b2n r.sealed)).qfBuild
  let d := { d with swp := {}, lnk := { d.lnk with crcAt := [], replaced := [] }, lpe := {}, sin := { d.sin with wants := [], conts := [], sent := [], own := [], theirs := [] }, trw := { d.trw with cnt := [], miss := [], taken := [], sfs := [], test := none, fbAt := [] } }
  let d := d.dropRegs 0x180400 0x180800
  let d := (List.range 64).foldl (fun (d : Dev) g => d.ringBuild g (kept g)) d
  let d := r.rings.foldl (fun (d : Dev) g => d.estBuild g keepCh) (d.estClear keepCh)
  let d := r.loops.foldl (fun (d : Dev) c => d.lpeBuild c) (d.dropRegs 0x200000 0x300000)
  let d := ((d.dropRegs 0x81000 0x83000).dspBuild).trwBuild
  d.netBuild.gafBuild.fldBuild.wchBuild.tbBuild

/-- Entry to QUIET with a structure built (Table 1.3, R131, R344, R378, R472): `cause` as in Table 16.13. -/
def Dev.quietEnter (d : Dev) (cause : Nat) (kept : Nat → Bool) : Dev :=
  let d := { d.go .quiet cause with mode := .quiet }
  let d := d.sinQuiet.trdQuiet.originate
  let d := (d.rl.rings.filter (fun g => !kept g)).foldl (fun (d : Dev) g => d.enumStart g) d
  let d := (d.rl.rings.filter kept).foldl (fun (d : Dev) g => d.wr Reg.LNK_RING_STAT_STATE 2 g) d
  d.electMaster.updSlateLock.wakeReport

/-- Whether QUIET to RUN may take place: every ring enumerated and the nodes' `E_MAX` read, Slate lock (Table 1.3, R377). -/
def Dev.runReady (d : Dev) : Bool := d.mode == .quiet && d.reel.isSome && d.img.act.isNone && d.ringsReady && d.on Reg.TB_STATUS_SLATE_LOCK

/-- `GLB_STATUS.GO_WAIT` (Table 16.8). -/
def Dev.goWait (d : Dev) : Bool := d.runReady && d.rl.startHost

/-- Entry to RUN (Table 1.3, R150, R262, R288, R313, R374). -/
def Dev.runEnter (d : Dev) : Dev :=
  let d := { d.go .run 4 with mode := .run }
  let d := d.rl.rings.foldl (fun (d : Dev) g =>
    d.setLr g { d.lr g with resync := true, counted := false, cur := none, prev := none, plan := none, replies := [], written := [], held := [], miss := [], newTake := none, prevTake := none }) d
  let d := d.rl.rings.foldl (fun (d : Dev) g => d.setTile g { d.tile g with next := none, inbox := [] }) d
  let d := d.sinRun.trwStart.dspStart.lpeStart
  d.gpioDrive (d.rd Reg.FLD_GPIO_OUT_LEVEL) true

/-- ENTER_RUN: the start policy is AUTO. -/
def Dev.autoRun (d : Dev) : Dev := if d.runReady && !d.rl.startHost then d.runEnter else d

/-- A write of 1 to `GLB_CTRL.GO`: the start policy is HOST. -/
def Dev.hostRun (d : Dev) : Dev := if d.goWait then d.runEnter else d

/-- Leaving RUN and WRAP for a state in which nothing runs (R10, R262, R298, R376, R105). -/
def Dev.leaveLive (d : Dev) : Dev :=
  let d := d.cutMiss 4
  let d := d.lpeStop.dspStop.trwStop.trwOut.sinLeave
  { d with swp := { d.swp with plans := [], quiet := false } }

/-- Entry to HALT (R27): the engines stop, every ring stops, the ports and controllers go down. -/
def Dev.haltEnter (d : Dev) (wasLive : Bool) : Dev :=
  let d := if wasLive then d.leaveLive else d
  let d := d.trdStop.netStop.fldStop.gafClear
  let d := d.rl.rings.foldl (fun (d : Dev) g =>
    let d := d.setLr g { d.lr g with orig := false, cmds := [], plan := none }
    ((d.wr Reg.LNK_RING_STAT_STATE 4 g).wr Reg.LNK_PORT_STAT_ROLE 0 (2 * g)).wr Reg.LNK_PORT_STAT_ROLE 0 (2 * g + 1)) d
  d.clr Reg.SIN_STATUS_ORIGINATES

/-! ### What crosses a scheduled cut-over (Table 4.5) -/

/-- The queue of the old structure whose content a queue of the new one takes. -/
def carriedFrom (old new : Reel) (q : Rec) : Option Rec :=
  if q.u32 24 = 0 then none
  else old.queueRecs.find? (fun (o : Rec) => o.u32 24 == q.u32 24 && o.qdepth == q.qdepth && o.near == q.near && new.queueRecs.any (fun (x : Rec) => x == q))

/-- The queues at B: carried ones keep content, watermark latches, crossing counts and peaks under their new QID, others are dropped with
`EV_IMG_CARRY_DROP`. Waiting engine writes follow the queues they are bound to. -/
def Dev.qfCutover (d : Dev) (old : Reel) : Dev :=
  let new := d.rl
  let was := d.qf
  let moves := new.queueRecs.filterMap (fun (q : Rec) => (carriedFrom old new q).map (fun (o : Rec) => (o.qid, q.qid)))
  let to_ (qid : Nat) : Option Nat := (moves.find? (fun x => x.1 == qid)).map (fun x => x.2)
  let made := new.queueRecs.foldl (fun (t : Tbl Queue × List (Nat × QRes)) (q : Rec) =>
    let df := new.qdef q
    match (carriedFrom old new q).bind (fun (o : Rec) => was.qs.find o.qid) with
    | none => (t.1.ins q.qid { qd := df }, t.2)
    | some x => match x.reclaimProducer with
      | some (r, _) => (t.1.ins q.qid { r.q with qd := df }, t.2 ++ [(q.qid, { r with q := { r.q with qd := df } })])
      | none => (t.1.ins q.qid { x with qd := df }, t.2)) ([], [])
  let waits := was.waits.filterMap (fun (w : QWait) =>
    let qs := w.qids.filterMap to_
    if qs.isEmpty then none else some { w with qids := qs })
  let d := { d with qf := { was with qs := made.1, waits := waits, prodAt := [], consAt := made.1.filterMap (fun (x : Nat × Queue) => if x.2.reading.isSome then some (x.1, d.own) else none) } }
  let d := made.2.foldl (fun (d : Dev) x => d.applyRes x.1 x.2) d
  let lost := was.qs.filter (fun (x : Nat × Queue) => (to_ x.1).isNone && x.2.level != 0)
  let d := lost.foldl (fun (d : Dev) (x : Nat × Queue) => d.raise Ev.IMG_CARRY_DROP x.1 (1 + min x.2.level (2 ^ 24 - 1) * 2 ^ 8)) d
  (d.reqs.map (fun (x : Nat × Req) => x.1)).foldl (fun (d : Dev) req => match (d.rq req).pop with
    | some (qid, a) => (match to_ qid with
      | some q => d.setRq req { d.rq req with pop := some (q, a) }
      | none => d.hostTimeout req)
    | none => d) (d.wr Reg.QF_LOCK_TIMEOUT_TIMEOUT (new.queueGlobal.u16 8)).qfSizes

/-- The old call sheet with its source queues under their new QIDs. -/
def oldSheet (old new : Reel) (c : Nat) : List Rec :=
  (old.sel secCall 2).filterMap (fun (x : Rec) => if x.u8 8 != c then none else
    let q := match new.queueRecs.find? (fun (n : Rec) => match carriedFrom old new n with | some o => o.qid == x.u32 16 | none => false) with
      | some n => n.qid
      | none => 0xFFFFF
    some { x with b := x.b.take 16 ++ toLe q 4 ++ x.b.drop 20 })

/-- The rings at B: a changed schedule waits for the end of the Take in progress; filters of channels whose corner changes are reset at the next Slate. -/
def Dev.ringCutover (d : Dev) (old : Reel) (g : Nat) : Dev :=
  let new := d.rl
  let oldRec := old.takeRec g
  let newRec := new.takeRec g
  if new.rate g ≠ old.rate g ∨ new.phase g ≠ old.phase g then
    { d.setLr g { d.lr g with newTake := some newRec } with reel := some (new.withTake oldRec) }
  else
    let next := match (d.lr g).plan with
      | some p => p.take
      | none => (d.rd Reg.LNK_RING_TAKE_TAKE g + 1) % 2 ^ 32
    let cs := (new.cellNodes g).flatMap (fun (n : Rec) => n.cellSlots.filter (fun s => new.corner g 0 s != old.corner g 0 s))
    let ts := (new.cellNodes g).flatMap (fun (n : Rec) => n.tempSlots.filter (fun s => new.corner g 1 s != old.corner g 1 s))
    let d := cs.foldl (fun (d : Dev) s => let c := 2048 * g + s; d.setFilt c { d.filt c with due := some next }) d
    let d := ts.foldl (fun (d : Dev) s => let c := 1024 * g + s; d.setTfilt c { d.tfilt c with due := some next }) d
    (if cs.isEmpty && ts.isEmpty then d else d.bump Reg.SWP_RING_SETTLE_RESETS 1 g).swpShow g

/-- The estimator at B: new parameters, impedance tables of channels whose edges change are cleared (R259). -/
def Dev.estCutover (d : Dev) (old : Reel) (g : Nat) : Dev :=
  let chs := ((d.ringStrs g).flatMap d.strCells).map (fun x => x.2.2)
  let d := chs.foldl (fun (d : Dev) c =>
    let was := (old.estPar (old.estSet c)).edgeBytes
    let d := d.wr Reg.EST_CH_STAT_SET (d.rl.estSet c) c
    if was = (d.epar c).edgeBytes then d else (d.clearImp c).raise Ev.IMG_CARRY_DROP c 2) d
  let d := d.wr Reg.EST_TILE_IN_BOUND (sumN ((List.range 6).map (fun k => b2n (d.estBound g k) * 2 ^ k))) g
  d.setTile g { d.tile g with retest := true }

/-- The loop engine at B: contexts with the same `CARRY_KEY` and dimensions go on, with the old `K` and `KR` of the active set for their first tick (R276); others
start afresh. -/
def Dev.lpeCutover (d : Dev) (old : Reel) : Dev :=
  let new := d.rl
  let gone := old.loops.filter (fun c => !new.loops.contains c)
  let d := gone.foldl (fun (d : Dev) c => (d.setLctx c {}).dropRegs (0x200000 + 0x800 * c) (0x200800 + 0x800 * c)) d
  new.loops.foldl (fun (d : Dev) c =>
    let l := new.loop1 c
    let same : Bool := match old.loopRec c 1 with
      | some o => carryOf l != 0 && carryOf o == carryOf l && o.lpNx == l.lpNx && o.lpNu == l.lpNu && o.lpNy == l.lpNy && o.lpNr == l.lpNr
      | none => false
    if same then
      let g := d.rd Reg.LPE_CTX_STAT_GAIN c
      let og := old.loopGain c g
      let us := (List.range 4).map (fun n => d.rdI Reg.LPE_U_U c n)
      let x := d.lctx c
      let k := (List.range l.lpNu).flatMap (fun n => (List.range l.lpNx).map (fun i => gK l og n i))
      let kr := (List.range l.lpNu).flatMap (fun n => (List.range l.lpNr).map (fun m => gKr l og n m))
      let d := d.lpeBuild c
      let d := (List.range 4).foldl (fun (d : Dev) n => d.wrI Reg.LPE_U_U (us.getD n 0) c n) d
      (d.setLctx c { x with items := [], fresh := true, oldK := some (k, kr) }).lpeShow c g
    else ((d.dropRegs (0x200000 + 0x800 * c) (0x200800 + 0x800 * c)).lpeBuild c).lpeFresh c) d

/-- The dispatch allocator at B: setpoints, grace timers and pending inputs go on; sources that the new policy does not have are deselected. -/
def Dev.dspCutover (d : Dev) : Dev :=
  let keep := d.dsp
  let src := d.rd Reg.DSP_CTRL_SRC
  let cur := d.rd Reg.DSP_STATUS_SRC
  let en := d.rd Reg.DSP_FFR_CTRL_EN
  let der := (List.range 256).map (fun s => d.word (Reg.DSP_STR_DER_REQUESTED.addr s 0))
  let so := d.rl.dispRec.dpSources
  let gone := (List.range 256).filter (fun s => d.rd Reg.DSP_STR_STAT_IN_DISP s == 1 && !d.rl.dispStrings.contains s)
  let fresh := d.rl.dispStrings.filter (fun s => d.rd Reg.DSP_STR_STAT_IN_DISP s == 0)
  let d := gone.foldl (fun (d : Dev) s => d.dropRegs (0x81000 + 32 * s) (0x81020 + 32 * s)) d
  let d := d.dspBuild
  let d := (d.rl.dispStrings.filter (fun s => !fresh.contains s)).foldl (fun (d : Dev) s => d.setWord (Reg.DSP_STR_DER_REQUESTED.addr s 0) (der.getD s 0)) d
  let d := { d with dsp := { keep with strs := keep.strs.filter (fun (x : Nat × DStr) => d.rl.dispStrings.contains x.1) } }
  let d := if bitAt so src then d.wr Reg.DSP_CTRL_SRC src else d
  let d := if bitAt so cur then d.wr Reg.DSP_STATUS_SRC cur else d
  (if bitAt so 3 then d.wr Reg.DSP_FFR_CTRL_EN en else d).dspShow

/-- The new structure takes effect at B (R104, R106). -/
def Dev.structCutover (d : Dev) (new : Reel) : Dev :=
  let old := d.rl
  let d := ([0, 1, 2, 3].flatMap (fun (tr : Nat) => [0, 1, 2].map (fun (u : Nat) => unitReq tr u))).foldl (fun (d : Dev) req => d.fabricLeave req) d
  let d := [0, 1, 2, 3].foldl (fun (d : Dev) c => d.setCan c { d.canCtl c with sheet := some ((d.canCtl c).sheet.getD (oldSheet old new c)) }) d
  let d := { d with reel := some new }
  let d := (d.wr Reg.GLB_STATUS_SEALED (b2n new.sealed)).qfCutover old
  let d := new.rings.foldl (fun (d : Dev) g => d.estCutover old g) d
  let d := ((d.lpeCutover old).dspCutover).trwBuild
  let d := (d.trdCutover old).netBuild.gafBuild.fldBuild.wchBuild
  new.rings.foldl (fun (d : Dev) g => d.ringCutover old g) d

end Sys2Proof.Machine
end

