-- ==== Sys2Proof/Machine/Img.lean ====
section
/-!
DEFINITION. Machine/Img.lean: the image controller (chapter 4): boot and slot choice (R89 to R91), key requests (R92, R93), commit (R94, R95), receiving images and
the Splice chain (R96 to R100, R397), the scheduled cut-over (R102 to R106), the activate command (R107, R108).
-/
namespace Sys2Proof.Machine

/-! ### What the registers show (Tables 4.9, 4.12, 4.18) -/

def SlotState.code : SlotState → Nat
  | .empty => 0 | .writing => 1 | .valid => 2 | .invalid => 3

def Dev.slot (d : Dev) (k : Nat) : Slot := d.img.slots.get k {}
def Dev.setSlot (d : Dev) (k : Nat) (s : Slot) : Dev := { d with img := { d.img with slots := d.img.slots.set k s {} } }

/-- The first block of a slot's image, which holds the header. -/
def Slot.head (s : Slot) : List Byte := (s.blocks.find? (fun b => blkNum b == 0)).getD []

/-- Shows a slot. -/
def Dev.slotShow (d : Dev) (k : Nat) : Dev :=
  let s := d.slot k
  let h := s.head
  let d := ((d.wr Reg.IMG_SLOT_INFO_STATE s.st.code k).wr Reg.IMG_SLOT_INFO_TRIAL (b2n s.trial) k).wr Reg.IMG_SLOT_INFO_TRIAL_LEFT (b2n s.trialLeft) k
  let d := (d.wr Reg.IMG_SLOT_INFO_SEC_VER (imgSecVer h % 128) k).wr Reg.IMG_SLOT_INFO_KEY_SLOT (imgKeySlot h) k
  ((d.wr Reg.IMG_SLOT_ID_LO_IMAGE_ID (imgId h) k).wr Reg.IMG_SLOT_ID_HI_IMAGE_ID (imgId h / 2 ^ 32) k).wr Reg.IMG_SLOT_CLASS_CONT_CLASS (imgContClass h) k

/-- Shows the state of the image controller. -/
def Dev.imgShow (d : Dev) : Dev :=
  let d := (d.slotShow 0).slotShow 1
  let d := (d.wr Reg.IMG_STATUS_RUN_SLOT d.img.bootSlot).wr Reg.IMG_STATUS_PREF_SLOT d.img.pref
  let d := (d.wr Reg.IMG_STATUS_RX_OPEN (b2n d.img.rx.isSome)).wr Reg.IMG_STATUS_SLOT_BUSY (b2n d.img.slotWrite.isSome)
  let d := d.wr Reg.IMG_STATUS_ACT_BUSY (b2n d.img.act.isSome)
  let ks := fun (p : KeySlot → Bool) => sumN ((List.range 4).map (fun n => b2n (p (d.img.otp.keys.get n {})) * 2 ^ n))
  let d := ((d.wr Reg.IMG_KEY_STATUS_PROG (ks (fun k => k.valid))).wr Reg.IMG_KEY_STATUS_REVOKED (ks (fun k => k.revoked))).wr Reg.IMG_KEY_STATUS_DAMAGED (ks KeySlot.damaged)
  let d := d.wr Reg.IMG_KEY_STATUS_ROLLBACK d.img.otp.rollback
  d.wr2 Reg.IMG_KEY_NONCE_LO_NONCE Reg.IMG_KEY_NONCE_HI_NONCE d.img.nonce

/-- The status of an IMG request (Table 4.11): 1 block push, 2 cut-over arm, 3 activate, 4 commit, 5 key request, 6 abort or disarm. -/
def Dev.imgResult (d : Dev) (op st : Nat) : Dev := (d.wr Reg.IMG_RESULT_STATUS st).wr Reg.IMG_RESULT_OP op

/-- The registers of a refusal (Table 4.17). -/
def Dev.showRefusal (d : Dev) (inst : Nat) (e : LoadErr) : Dev :=
  (((d.wr Reg.IMG_REFUSE_REASON e.code).wr Reg.IMG_REFUSE_SECTION e.sec).wr Reg.IMG_REFUSE_INSTANCE inst).wr Reg.IMG_REFUSE_REC_RECORD e.idx

/-- A refused image (R86): slot 0 or 1, or 2 for the receive buffer. The content of a slot is kept and marked INVALID. -/
def Dev.loadRefused (d : Dev) (inst : Nat) (e : LoadErr) : Dev :=
  let d := d.showRefusal inst e
  let d := if inst < 2 then d.setSlot inst { d.slot inst with st := .invalid } else d
  d.raise (if e.code = 0x41 then Ev.IMG_ROLE_MISMATCH else Ev.IMG_LOAD_REFUSED) inst (e.code * 2 ^ 32 + e.sec * 2 ^ 24 + e.idx)

/-- Reads a slot and applies the load checks (R86); `damaged` says that a block read back with a failed CRC (R59). -/
def Dev.loadSlot (d : Dev) (k : Nat) (damaged : Bool) : Reel ⊕ LoadErr :=
  if damaged then .inr { code := 0x01 } else reelLoad d.img.otp d.devAddr (d.slot k).blocks

/-- The slot becomes preferred and enters trial (R91). -/
def Dev.prefer (d : Dev) (k : Nat) : Dev :=
  let o := d.img.pref
  let d := if o = k then d else d.setSlot o { d.slot o with trial := false, trialLeft := false }
  { d with img := { d.img with pref := k } }.setSlot k { d.slot k with trial := true, trialLeft := true, st := .valid }

/-! ### Boot (R87, R89, R90) -/

/-- The slots that a boot tries, in order, with the events of the choice. -/
def Dev.bootPlan (d : Dev) : Dev × List Nat :=
  let m := d.rd Reg.GLB_STATUS_BOOT_MODE
  if 4 ≤ m then (d.raise Ev.IMG_BOOT_MODE 0 m, [])
  else if m = 3 then (d, [])
  else if m = 1 then (d, [0])
  else if m = 2 then (d, [1])
  else
    let p := d.img.pref
    let s := d.slot p
    if s.trial && !s.trialLeft then (d.raise Ev.IMG_TRIAL_REVERT p 0, [1 - p, p]) else (d, [p, 1 - p])

/-- Entry to DARK: no slot is accepted, or the straps ask for it. -/
def Dev.goDark (d : Dev) : Dev :=
  let path := if 3 ≤ d.rd Reg.GLB_STATUS_BOOT_MODE then 2 else 3
  let d := { d.wr Reg.IMG_STATUS_BOOT_PATH path with img := { d.img with boot := none } }
  (d.raise Ev.IMG_DARK 0 path).go .dark 2

/-- BOOT_SLOT_LOAD (R90): the next slot of the boot is read and checked. -/
def Dev.bootLoad (d : Dev) (damaged : Bool) : Dev :=
  if d.mode ≠ .boot ∨ d.img.loaded.isSome then d
  else
    let (d, plan) := match d.img.boot with
      | some l => (d, l)
      | none => d.bootPlan
    let live := plan.filter (fun k => (d.slot k).st == .valid)
    match live with
    | [] => d.goDark.imgShow
    | k :: rest =>
      let normal := d.rd Reg.GLB_STATUS_BOOT_MODE == 0
      let s := d.slot k
      let reverted := normal && k != d.img.pref && (d.slot d.img.pref).trial && !(d.slot d.img.pref).trialLeft
      let d := if normal && k == d.img.pref && s.trial then d.setSlot k { s with trialLeft := false } else d
      match d.loadSlot k damaged with
      | .inr e =>
        let d := d.loadRefused k e
        if rest.isEmpty then d.goDark.imgShow else { d with img := { d.img with boot := some rest } }.imgShow
      | .inl r =>
        let id := imgId s.head % 2 ^ 32
        let d := d.raise Ev.IMG_BOOT_SLOT k id
        let d := if k = d.img.pref then d.wr Reg.IMG_STATUS_BOOT_PATH 0 else (d.wr Reg.IMG_STATUS_BOOT_PATH 1).raise Ev.IMG_FALLBACK k id
        let d := if reverted then
            let o := d.img.pref
            { d.setSlot o { d.slot o with trial := false } with img := { (d.setSlot o { d.slot o with trial := false }).img with pref := k } }
          else d
        { d with img := { d.img with boot := none, loaded := some (k, r) } }.imgShow

/-- STRUCTURE_BUILT (R87): the structure of the accepted image is built and QUIET is entered. -/
def Dev.structBuilt (d : Dev) : Dev :=
  match d.img.loaded with
  | none => d
  | some (k, r) =>
    if d.mode ≠ .boot then d
    else
      let d := { d with img := { d.img with loaded := none } }
      ((d.build r k none).quietEnter 1 (fun _ => false)).imgShow

/-! ### Key requests (R92, R93) -/

/-- The 272 bytes of the key request. -/
def Dev.keyReqBytes (d : Dev) : List Byte := (List.range 68).flatMap (fun k => toLe (d.rd Reg.IMG_KEY_REQ_WORD k) 4)

/-- The status of a key request (R93). -/
def Dev.keyCheck (d : Dev) (q : List Byte) : Nat :=
  let o := d.img.otp
  let op := byteAt q 4
  let slot := byteAt q 5
  let auth := byteAt q 6
  let ks := o.keys.get slot {}
  let as_ := o.keys.get auth {}
  let prog := (List.range 4).any (fun n => (o.keys.get n {}).valid)
  if le q 0 4 != 0x4B455952 || !(op == 1 || op == 2) || decide (3 < slot) || byteAt q 7 != 0 || !allZero (slice q 169 7) || le q 8 8 != o.uid then 0x0A
  else if !prog && auth != 0xFF then 0x0A
  else if prog && (decide (3 < auth) || !as_.valid || as_.revoked || Config.sha384 (slice q 72 97) != as_.hash
      || !Config.ecdsaVerify (slice q 72 97) (Config.sha384 (q.take 72)) (slice q 176 48) (slice q 224 48) || decide (le q 16 8 ≤ d.img.nonce)) then 0x0A
  else if op == 1 && (ks.valid || ks.damaged) then 0x0B
  else if op == 2 && ((!ks.valid && !ks.damaged) || ks.revoked) then 0x0B
  else if op == 2 && ((d.reel.isSome && d.rl.keySlot == slot)
      || [0, 1].any (fun k => (d.slot k).st == .valid && imgKeySlot (d.slot k).head == slot)) then 0x0C
  else if op == 2 && ks.valid && !(List.range 4).any (fun n => n != slot && (o.keys.get n {}).valid && !(o.keys.get n {}).revoked) then 0x0D
  else 0

/-- A write of `IMG_KEY_CTRL.GO`. -/
def Dev.imgKeyGo (d : Dev) : Dev :=
  let q := d.keyReqBytes
  let slot := byteAt q 5
  if d.mode ≠ .dark ∧ d.mode ≠ .quiet ∧ d.mode ≠ .run then d.imgResult 5 0x04
  else if d.img.keyReq.isSome then d.imgResult 5 0x01
  else
    let st := d.keyCheck q
    if st ≠ 0 then (d.imgResult 5 st).raise Ev.IMG_KEY_REFUSED slot st
    else
      let d := { d with img := { d.img with nonce := le q 16 8, keyReq := some { op := byteAt q 4, slot := slot, hash := slice q 24 48 } } }
      ((d.nvWrite 6 0 (slice q 16 8)).imgResult 5 0).imgShow

/-- KEY_FUSE_DONE (R93): the fuses are blown and read back; after a mismatch `back` is what the hash fuses hold and `valid` whether the valid fuse is blown. -/
def Dev.keyFuses (d : Dev) (ok : Bool) (back : List Byte) (valid : Bool) : Dev :=
  match d.img.keyReq with
  | none => d
  | some r =>
    let k := d.img.otp.keys.get r.slot {}
    let k' : KeySlot := if r.op = 2 then { k with revoked := k.revoked || ok }
      else if ok then { k with hash := r.hash, valid := true } else { k with hash := padTo back 48, valid := valid }
    let d := { d with img := { d.img with keyReq := none, otp := { d.img.otp with keys := d.img.otp.keys.set r.slot k' {} } } }
    let d := if ok then d.raise (if r.op = 1 then Ev.IMG_KEY_ENROL else Ev.IMG_KEY_REVOKE) r.slot 0
      else (d.imgResult 5 0x0E).raise Ev.IMG_KEY_REFUSED r.slot 0x0E
    d.imgShow

/-! ### Commit (R94, R95) -/

/-- The end of a commit: the counter stands; the image of the other slot may have become unacceptable. -/
def Dev.commitEnd (d : Dev) : Dev :=
  let run := d.img.bootSlot
  let o := 1 - run
  let c := d.img.otp.rollback
  let s := d.slot o
  let d := if s.st == .valid && decide (imgSecVer s.head < c) then
      let d := d.loadRefused o { code := 0x18 }
      (match d.img.cut with
      | some x => if x.slot = o then d.cutMiss 4 else d
      | none => d)
    else d
  (d.raise Ev.IMG_COMMIT run c).imgShow

/-- A write of `IMG_CTRL.COMMIT`. -/
def Dev.imgCommit (d : Dev) : Dev :=
  if d.mode ≠ .run then d.imgResult 4 0x04
  else
    let run := d.img.bootSlot
    let d := (d.setSlot run { d.slot run with trial := false, trialLeft := false }).imgResult 4 0
    if d.img.otp.rollback < d.rl.secVer then { d with img := { d.img with commit := some d.rl.secVer } }.imgShow else d.commitEnd

/-- COMMIT_FUSES_DONE. -/
def Dev.commitFuses (d : Dev) : Dev :=
  match d.img.commit with
  | none => d
  | some v => { d with img := { d.img with commit := none, otp := { d.img.otp with rollback := max d.img.otp.rollback v } } }.commitEnd

/-! ### Receiving images (R96 to R100) -/

/-- The `DOWN_MASK` of the running structure; in DARK there is none. -/
def Dev.downMask (d : Dev) : Nat := if d.mode == .dark then 0 else d.rl.splice.u8 9

/-- Whether a session opened by a source is own from its start (R98). -/
def Dev.ownAtStart (d : Dev) (src : Nat) : Bool := src == 0 && (d.mode == .dark || d.downMask == 0)

/-- The slot that an own image goes to (R99). -/
def Dev.rxTarget (d : Dev) : Nat :=
  if d.mode == .dark then
    match d.rd Reg.IMG_RX_CTRL_TARGET with
    | 1 => 0
    | 2 => 1
    | _ => if (d.slot 0).st != .valid then 0 else if (d.slot 1).st != .valid then 1 else 1 - d.img.pref
  else 1 - d.img.bootSlot

/-- Whether an own session is refused with `IMG_BUSY` (R100). -/
def Dev.rxBusy (d : Dev) : Bool :=
  d.img.slotWrite.isSome || d.rxTarget == d.img.bootSlot || (match d.img.cut with
    | some c => c.slot == d.rxTarget
    | none => false)

/-- The end of a session. A session for another device reports it (R98). -/
def Dev.rxClose (d : Dev) (discard : Bool) : Dev :=
  match d.img.rx with
  | none => d
  | some x =>
    let d := { d with img := { d.img with rx := none } }
    let d := if discard then (d.dropRegs 0x10800 0x11000).wr Reg.IMG_RX_STATUS_RECEIVED 0 else d
    if x.pass then d.raise Ev.IMG_SPLICE_PASS x.src (byteAt ((x.blocks.get 0 [])) 0 % 4) else d

/-- The image bytes from an offset that a session holds, where it holds the blocks they lie in. -/
def RxSession.bytes (x : RxSession) (off n : Nat) : Option (List Byte) :=
  (List.range n).foldl (fun (a : Option (List Byte)) i =>
    match a, x.blocks.find ((off + i) / 4064) with
    | some l, some b => some (l ++ [b.getD ((off + i) % 4064) 0])
    | _, _ => none) (some [])

/-- The `DEV_ADDR` of the image of a session, once block 0 and the block with the `ROLE` type 1 record are there (R98). -/
def RxSession.devAddr (x : RxSession) : Option Nat :=
  match x.blocks.find 0 with
  | none => none
  | some b0 =>
    match (imgDir (b0.take 4064)).find? (fun e => e.typ == secRole) with
    | none => none
    | some e => (x.bytes e.off 16).map (fun r => byteAt r 9)

/-- Shows the session in progress (Table 4.14). -/
def Dev.rxShow (d : Dev) (x : RxSession) : Dev :=
  let d := d.wr Reg.IMG_RX_STATUS_RECEIVED x.got.length
  ((d.wr Reg.IMG_RX_ID_LO_IMAGE_ID x.imageId).wr Reg.IMG_RX_ID_HI_IMAGE_ID (x.imageId / 2 ^ 32)).wr Reg.IMG_RX_COUNT_BLOCK_COUNT x.count

/-- The last block of an own image is there (R99): the load checks, then the write of the target slot. -/
def Dev.rxComplete (d : Dev) (x : RxSession) : Dev × Nat :=
  let bs := x.blocks.map (fun b => b.2)
  let d := { (d.raise Ev.IMG_RX_COMPLETE x.src (x.imageId % 2 ^ 32)) with img := { d.img with rx := none } }
  match reelLoad d.img.otp d.devAddr bs with
  | .inr e => (d.loadRefused 2 e, 0x05)
  | .inl _ =>
    let k := d.rxTarget
    let d := { d with img := { d.img with slotWrite := some (k, bs) } }
    (d.setSlot k { st := .writing }, 0)

/-- What follows once a block is stored: the ownership decision (R98, R100), and the end of the session when its last block is there. -/
def Dev.rxDecide (d : Dev) (x : RxSession) : Dev × Nat :=
  let put (d : Dev) (x : RxSession) : Dev := { d with img := { d.img with rx := some x } }
  let full (x : RxSession) : Bool := x.got.length == x.count
  let own (d : Dev) (x : RxSession) : Dev × Nat :=
    let d := d.wr Reg.IMG_RX_STATUS_OWN 1
    if full x then d.rxComplete x else (put d x, 0)
  if x.pass then (if full x then ((put d x).rxClose false, 0) else (put d x, 0))
  else if d.rd Reg.IMG_RX_STATUS_OWN = 1 then own d x
  else match x.devAddr with
    | some a =>
      if a = d.devAddr then (if d.rxBusy then ((put d x).rxClose true, 0x01) else own d x)
      else
        let x : RxSession := { x with pass := true, blocks := [(0, [BitVec.ofNat 8 a])] }
        let d := d.wr Reg.IMG_RX_STATUS_OWN 2
        (if full x then ((put d x).rxClose false, 0) else (put d x, 0))
    | none => if full x then (if d.rxBusy then ((put d x).rxClose true, 0x01) else own d x) else (put d x, 0)

/-- A block arrives (R96, R97): `src` is 0 for the host, 1 + n for peer link n. Answers the status of Table 4.20. -/
def Dev.rxBlock (d : Dev) (src : Nat) (blk : List Byte) : Dev × Nat :=
  let n := blkNum blk
  if d.mode ≠ .dark ∧ d.mode ≠ .quiet ∧ d.mode ≠ .run then (d, 0x04)
  else if !blkCrcOk blk then (d.raise Ev.IMG_BLOCK_CRC src (n % 2 ^ 14), 0x02)
  else
    let x0 := d.img.rx
    let x : RxSession := x0.getD { imageId := blkImage blk, count := blkCount blk, src := src }
    if x.imageId ≠ blkImage blk ∨ x.count ≠ blkCount blk ∨ x.count ≤ n ∨ 16384 < x.count then (d, 0x03)
    else if x.got.contains n then (d, 0)
    else if x0.isNone && d.ownAtStart src && d.rxBusy then (d, 0x01)
    else
      let d := if x0.isNone then (d.dropRegs 0x10800 0x11000).wr Reg.IMG_RX_STATUS_OWN (b2n (d.ownAtStart src)) else d
      let x : RxSession := { x with got := n :: x.got, blocks := if x.pass then x.blocks else x.blocks.ins n blk, at_ := d.own }
      let w := Reg.IMG_RX_MAP_WORD.addr (n / 32) 0
      let d := (d.setWord w (d.word w ||| BitVec.ofNat 32 (2 ^ (n % 32)))).rxShow x
      let d := d.peerSend (setBits d.downMask 4) pfSplice (toLe (if src = 0 then 0xFF else src - 1) 1 ++ toLe 0 1 ++ blk)
      d.rxDecide x

/-- Takes a block, with the status of the last block. -/
def Dev.rxTake (d : Dev) (src : Nat) (blk : List Byte) : Dev × Nat :=
  let (d, st) := d.rxBlock src blk
  ((d.wr Reg.IMG_RX_STATUS_LAST st).imgShow, st)

/-- A write of 1 to `IMG_RX_CTRL.PUSH`. -/
def Dev.imgPush (d : Dev) : Dev :=
  let (d, st) := d.rxTake 0 ((List.range 1024).flatMap (fun k => toLe (d.rd Reg.IMG_RX_BLOCK_WORD k) 4))
  d.imgResult 1 st

/-- SPLICE (R97, R397): a block over a peer link; outside DARK only the `UPSTREAM` link of the structure counts. -/
def Dev.spliceRx (d : Dev) (link : Nat) (pay : List Byte) : Dev :=
  if d.mode != .dark && d.rl.splice.u8 8 != link then d
  else (d.rxTake (1 + link) (pay.drop 2)).1

/-- RX_SESSION_TIMEOUT (R96). -/
def Dev.rxTimeout (d : Dev) : Dev :=
  match d.img.rx with
  | none => d
  | some x =>
    if d.own < x.at_ + max 1 (d.rd Reg.IMG_RX_CTRL_TIMEOUT) * oneSec then d
    else ((d.raise Ev.IMG_RX_TIMEOUT x.src x.got.length).rxClose true).imgShow

/-- A write of `IMG_CTRL.RX_ABORT`. -/
def Dev.rxAbort (d : Dev) : Dev := ((d.rxClose true).imgResult 6 0).imgShow

/-- SLOT_WRITE_DONE (R99): the write ends; `fail` is the block whose readback or page retirement failed. -/
def Dev.slotWritten (d : Dev) (fail : Option Nat) : Dev :=
  match d.img.slotWrite with
  | none => d
  | some (k, bs) =>
    let d := { d with img := { d.img with slotWrite := none } }
    let s : Slot := { st := if fail.isSome then .invalid else .valid, blocks := bs }
    let d := d.setSlot k s
    let d := match fail with
      | some n => d.raise Ev.IMG_SLOT_WRITE_FAIL k (n % 2 ^ 14)
      | none => d.raise Ev.IMG_SLOT_WRITTEN k (imgId s.head % 2 ^ 32)
    d.imgShow

/-! ### Scheduled cut-over (R102 to R106) -/

/-- The senders that must report ready (R103): partners behind an established link that are in RUN; the pair partner only while its lease is not lost. -/
def Dev.cutPartners (d : Dev) : List Nat :=
  [0, 2, 3].filter (fun s => (d.peerLinks.filter (fun l => peerSender l == s)).any (fun l => d.on Reg.SIN_PEER_STAT_UP l && (match d.tb.peers.find l with
    | some p => p.1 == 4
    | none => false)) && (s != 0 || d.on Reg.SIN_STATUS_PARTNER_OK))

/-- Notes that every partner has reported ready for the same cut time, at least 1 ms before it. -/
def Dev.cutCheck (d : Dev) : Dev :=
  match d.img.cut with
  | none => d
  | some c =>
    if c.shadow.isNone || d.solo || d.rd Reg.IMG_STATUS_CUT == 3 || decide (c.time < d.now + 1000000) then d
    else if d.cutPartners.all (fun s => d.img.reports.find s == some c.time) then d.wr Reg.IMG_STATUS_CUT 3 else d

/-- Whether the cut-over is ready: the shadow built, and in Pair and Quad every partner ready. -/
def Dev.cutReady (d : Dev) : Bool := d.rd Reg.IMG_STATUS_CUT == (if d.solo then 2 else 3)

/-- A write of `IMG_CUT_CTRL` with `ARM` (R102). -/
def Dev.cutArm (d : Dev) : Dev :=
  let k := d.rd Reg.IMG_CUT_CTRL_SLOT
  let s := d.slot k
  let r := reelOf (imageOf (inOrder s.blocks))
  if d.mode ≠ .run then d.imgResult 2 0x04
  else if s.st ≠ .valid ∨ k = d.img.bootSlot then d.imgResult 2 0x09
  else match ofFullTime (d.rd Reg.IMG_CUT_NS_NS) (d.rd Reg.IMG_CUT_SEC_LO_SEC) (d.rd Reg.IMG_CUT_SEC_HI_SEC) with
    | none => d.imgResult 2 0x08
    | some n =>
      if n < d.now + 3 * oneSec ∨ d.now + 2592000 * oneSec < n then d.imgResult 2 0x07
      else if !sameClass d.rl r then (d.showRefusal k { code := 0x50 }).imgResult 2 0x06
      else if needsRestart d.rl r then d.imgResult 2 0x06
      else
        let d := { d.wr Reg.IMG_STATUS_CUT 1 with img := { d.img with cut := some { slot := k, time := n } } }
        (d.imgResult 2 0).raise Ev.IMG_CUT_ARMED k (n / oneSec % 2 ^ 32)

/-- SHADOW_BUILT (R103). -/
def Dev.shadowBuilt (d : Dev) (damaged : Bool) : Dev :=
  match d.img.cut with
  | none => d
  | some c =>
    if d.mode ≠ .run ∨ c.shadow.isSome then d
    else match d.loadSlot c.slot damaged with
      | .inr e => ((d.loadRefused c.slot e).cutMiss 1).imgShow
      | .inl r =>
        if c.time < d.now + 1000000 then d.cutMiss 1
        else
          let d := { d.wr Reg.IMG_STATUS_CUT 2 with img := { d.img with cut := some { c with shadow := some r } } }
          let d := if d.solo then d else d.peerSend d.peerLinks pfCutReady (time12 c.time ++ toLe (imgId (d.slot c.slot).head) 8)
          d.cutCheck

/-- CUT_READY: a partner is ready for a cut time. -/
def Dev.cutReport (d : Dev) (link : Nat) (pay : List Byte) : Dev :=
  match ofTime12 pay 0 with
  | none => d
  | some n => { d with img := { d.img with reports := d.img.reports.ins (peerSender link) n } }.cutCheck

/-- CUT_MISSED (R103): the device or a partner is not ready 1 ms before the cut time. -/
def Dev.cutLate (d : Dev) : Dev :=
  match d.img.cut with
  | none => d
  | some c => if c.time < d.now + 1000000 && !d.cutReady then d.cutMiss (if c.shadow.isNone then 1 else 2) else d

/-- The boundary B of a cut time (R104). -/
def cutBoundary (n : Nat) : Nat := (n + 124999) / 125000 * 125000

/-- CUTOVER (R104): at the first boundary at or after the cut time. -/
def Dev.cutover (d : Dev) : Dev :=
  match d.img.cut with
  | none => d
  | some c =>
    if d.mode ≠ .run ∨ d.now < cutBoundary c.time then d
    else match d.cutReady, c.shadow with
      | true, some r =>
        let d := { d.wr Reg.IMG_STATUS_CUT 0 with img := { d.img with cut := none, reports := [], bootSlot := c.slot } }
        let d := ((d.structCutover r).prefer c.slot).raise Ev.IMG_CUT_DONE c.slot (ts32 (d.cyc * 125000))
        { d with pst := { d.pst with tag := { d.pst.tag with dirty := true } } }.imgShow
      | _, none => d.cutMiss 1
      | _, _ => d.cutMiss 2

/-- After a timebase step: a cut time passed by 1 s or more abandons the cut-over (R104). -/
def Dev.cutStepped (d : Dev) : Dev :=
  match d.img.cut with
  | none => d
  | some c => if cutBoundary c.time < d.now ∧ c.time + oneSec ≤ d.now then d.cutMiss 3 else d

/-- TIMEBASE_STEP (R159), with what a step means for PWM periods (R445) and an armed cut-over (R104). -/
def Dev.timeStep (d : Dev) : Dev :=
  match d.tb.step with
  | none => d
  | some (_, _, k) => if d.cyc < k then d else d.applyStep.pwmStep.cutStepped

/-- A write of `IMG_CTRL.CUT_DISARM` (R105). -/
def Dev.cutDisarm (d : Dev) : Dev := (d.cutMiss 4).imgResult 6 0

/-! ### The activate command (R107, R108) -/

/-- A write of `IMG_ACT_CTRL` with `GO`. -/
def Dev.activate (d : Dev) : Dev :=
  let k := d.rd Reg.IMG_ACT_CTRL_SLOT
  let f := d.on Reg.IMG_ACT_CTRL_FORCE
  if d.mode ≠ .dark ∧ d.mode ≠ .quiet ∧ !(d.mode == .run && f) then d.imgResult 3 0x04
  else if d.img.act.isSome then d.imgResult 3 0x01
  else
    let d := d.cutMiss 4
    let d := { d with img := { d.img with act := some { slot := k, force := f } } }
    ((d.imgResult 3 0).raise Ev.IMG_ACTIVATE k (b2n f)).imgShow

/-- ACTIVATE_BUILD_DONE: in DARK and QUIET the load checks and the build end. -/
def Dev.activateBuilt (d : Dev) (damaged : Bool) : Dev :=
  match d.img.act with
  | none => d
  | some a =>
    if d.mode ≠ .dark ∧ d.mode ≠ .quiet then d
    else
      let d := { d with img := { d.img with act := none } }
      match d.loadSlot a.slot damaged with
      | .inr e => ((d.loadRefused a.slot e).imgResult 3 0x05).imgShow
      | .inl r => (((d.build r a.slot none).quietEnter 3 (fun _ => false)).prefer a.slot).imgShow

/-- FORCE_SHADOW_BUILT: in RUN the shadow of an activation is built, and the Wrap starts. -/
def Dev.forceBuilt (d : Dev) (damaged : Bool) : Dev :=
  match d.img.act with
  | none => d
  | some a =>
    if d.mode ≠ .run ∨ !a.force ∨ a.shadow.isSome then d
    else match d.loadSlot a.slot damaged with
      | .inr e => (({ d with img := { d.img with act := none } }.loadRefused a.slot e).imgResult 3 0x05).imgShow
      | .inl r => { d with img := { d.img with act := some { a with shadow := some r } } }.askWrap 5

/-- An activate command that cannot go on ends with status `STATE` (R466). -/
def Dev.actFail (d : Dev) : Dev :=
  if d.img.act.isNone then d else ({ d with img := { d.img with act := none } }.imgResult 3 0x04).imgShow

/-! ### The end of a Wrap (R465) -/

/-- A Wrap ends in HALT; with `SLEEP_ON_HALT` the watch island releases `MAIN_EN_N` (R472). -/
def Dev.wrapHalt (d : Dev) : Dev := (if d.on Reg.WCH_CTRL_SLEEP_ON_HALT then d.wakeRelease else d).go .halt 6

/-- The end of the Wrap: to QUIET under the new image for an activation, else to HALT. -/
def Dev.wrapFinish (d : Dev) (w : WrapRun) : Dev :=
  let d := { d with pst := { d.pst with tag := { d.pst.tag with dirty := true } } }
  match (if w.toHalt then none else d.img.act), (if w.toHalt then none else d.img.act).bind (fun a => a.shadow) with
  | some a, some r =>
    let old := d.rl
    let kept (g : Nat) : Bool := old.present g && r.present g && sameRing old r g
    let d := { d.leaveLive.gafClear with img := { d.img with act := none } }
    ((({ d with mode := .quiet }.build r a.slot (some old)).quietEnter 6 kept).prefer a.slot).imgShow
  | _, _ => d.wrapHalt

/-- WRAP_COMPLETE: every string is DONE and the snapshots are written. Where the rings are put to sleep (R202), the move to HALT waits for the cycle that
carries SLEEP. -/
def Dev.wrapComplete (d : Dev) : Dev :=
  match d.gaf.wrap with
  | none => d
  | some w =>
    if d.mode ≠ .wrap || !d.wrapReady then d
    else
      let d := d.wrapDoneEv w
      if w.toHalt && d.on Reg.SWP_CTRL_SLEEP_HALT then { d with gaf := { d.gaf with wrap := some { w with sleep := 1 } } }
      else d.wrapFinish w

end Sys2Proof.Machine
end

