-- ==== Sys2Proof/Machine/Power.lean ====
section
/-!
DEFINITION. Machine/Power.lean: supplies, power-on, loss of the main rails and `RESET_N` (R4, R26, R27, R55, R87, R470, R471, R477, R478, Table 1.3), and what a
transition to HALT brings with it.
-/
namespace Sys2Proof.Machine

/-- The registers that a main-die reset leaves: those of the watch island, and the wear registers, which PST reloads from the NVM. -/
def survives (a : Nat) : Bool := (decide (0x40000 ≤ a) && decide (a < 0x50000)) || (decide (0x50100 ≤ a) && decide (a < 0x50150))

/-- An instant of the own clock seen from a clock that restarts at 0. -/
def Wch.rebase (w : Wch) (own : Nat) : Wch :=
  { w with rtc := w.rtc + (own - w.rtcAt), rtcAt := 0, rtcSet := none, busy := w.busy - own, corrAt := w.corrAt - own }

/-- What the main dies lose without supply or in reset (R55, R485, Table 4.7): everything but the watch island, the NVM, the OTP fuses and the balls. A commit stops at
a count between the old one and the `SEC_VER` it goes to; an interrupted enrolment leaves the key slot DAMAGED. -/
def Dev.mainOff (d : Dev) : Dev :=
  let (d, v) := match d.img.commit with
    | some _ => d.fresh
    | none => (d, 0)
  let o := d.img.otp
  let o : Otp := match d.img.commit with
    | some c => { o with rollback := o.rollback + v % (c - o.rollback + 1) }
    | none => o
  let o : Otp := match d.img.keyReq with
    | some r => if r.op = 1 then { o with keys := o.keys.set r.slot { o.keys.get r.slot {} with hash := r.hash } {} } else o
    | none => o
  let p := d.pst
  let g := p.tag
  { regs := d.regs.filter (fun (x : Nat × Word) => survives x.1), mode := d.mode, stReq := d.stReq, now := d.now, free := d.free, evSeq := d.evSeq.filter (fun (x : Nat × Nat) => x.1 == 15), out := d.out, img := { slots := d.img.slots, pref := d.img.pref, otp := o, nonce := d.img.nonce }, host := { keys := d.host.keys }, wch := d.wch.rebase d.own, pst := { recs := p.recs, pages := p.pages, sparesUsed := p.sparesUsed, erases := p.erases, hist := p.hist, sparesLow := p.sparesLow, learnRo := p.learnRo, bb := p.bb, bbNext := p.bbNext, bbPagesGone := p.bbPagesGone, bbFullEv := p.bbFullEv, tag := { g with pend := (g.pend.filter (fun (x : Nat × (Nat × Bool)) => x.1 == 20)).map (fun (x : Nat × (Nat × Bool)) => (x.1, (0, x.2.2))), lastRf := 0, lastRefresh := 0, dirty := false } }, supply := d.supply, pins := d.pins }

/-- The main dies leave reset (R4, R87): straps sampled, device time from the RTC where it is valid, the watch log transferred (R477), what NVM and OTP hold shown. -/
def Dev.mainOn_ (d : Dev) (b : BootIn) : Dev :=
  let d := d.mainOff
  let d := { d with supply := { d.supply with rails := true, dbgEn := b.dbgEn }, now := if d.on Reg.WCH_STATUS_RTC_VALID then d.rtcNow else 0 }
  let d := ((d.wr Reg.GLB_STATUS_DEV_ADDR b.devAddr.val).wr Reg.GLB_STATUS_BOOT_MODE b.bootMode.val).wr Reg.GLB_STATUS_DBG_EN (b2n b.dbgEn)
  let d := (d.wr Reg.IMG_STATUS_BOOT_MODE b.bootMode.val).wr2 Reg.GLB_UID_LO_UID Reg.GLB_UID_HI_UID d.img.otp.uid
  let d := d.wr Reg.SIN_STATUS_DEV_P (b2n (b.devAddr.val % 2 == 0))
  let ro := d.pst.learnRo && !b.freed
  let d := { d.wr Reg.PST_STATUS_LEARN_RO (b2n ro) with pst := { d.pst with learnRo := ro } }
  let d := { d.showKeys.imgShow with mode := .boot }
  let d := d.logTransfer
  let d := if d.wch.rtcLost then { d with wch := { d.wch with rtcLost := false } }.raise Ev.WCH_RTC_INVALID 0 0 else d
  d.go .boot 0

/-- The retention memory is lost (R470): the registers of the watch island return to reset. -/
def Dev.retentionLost (d : Dev) : Dev :=
  let d := { d.dropRegs 0x40000 0x50000 with wch := {}, evSeq := d.evSeq.filter (fun (x : Nat × Nat) => x.1 != 15) }
  { d with pins := { d.pins with mainEnN := true } }

/-- VBAT_APPLIED. -/
def Dev.vbatOn (d : Dev) : Dev :=
  let d := { d with supply := { d.supply with vbat := true } }
  if d.mode == .off && !d.supply.vaux then d.rtcRestart.go .standby 0 else d

/-- VBAT_REMOVED (R471): without VAUX the device is OFF. -/
def Dev.vbatOff (d : Dev) : Dev :=
  let d := { d with supply := { d.supply with vbat := false } }
  if d.mode == .standby then d.retentionLost.go .off 0 else d

/-- VAUX_APPLIED: the watch island enters WATCH, and the device goes on to BOOT when the main rails are good and `RESET_N` is released. -/
def Dev.vauxOn (d : Dev) (b : BootIn) : Dev :=
  let was := d.supply.vaux
  let d := { d with supply := { d.supply with vaux := true } }
  if was then d
  else if d.mode == .off || d.mode == .standby then
    let standby := d.mode == .standby
    let d := if standby then d else d.rtcRestart
    let d := { d with mode := .watch }.raise Ev.WCH_VAUX 0 1
    let d := if standby && d.on Reg.WCH_WAKE_CFG_ON_VAUX then d.wake 6 else d
    if d.supply.rails then d.mainOn_ b else d.go .watch 0
  else d.raise Ev.WCH_VAUX 0 1

/-- VAUX_REMOVED: WATCH goes to STANDBY, without VBAT on to OFF. -/
def Dev.vauxOff (d : Dev) : Dev :=
  let was := d.supply.vaux
  let d := { d with supply := { d.supply with vaux := false } }
  if !was then d
  else
    let d := d.raise Ev.WCH_VAUX 0 0
    if d.mode ≠ .watch then d
    else if d.supply.vbat then d.go .standby 0 else d.retentionLost.go .off 0

/-- POWER_ON: the main rails are good and `RESET_N` is released; with VAUX present the device leaves WATCH for BOOT. -/
def Dev.powerOn (d : Dev) (b : BootIn) : Dev :=
  let d := { d with supply := { d.supply with rails := true } }
  if d.mode == .watch then d.mainOn_ b else d

/-- The main dies lose their supply, or are held in reset (R27): to WATCH while VAUX remains, else to STANDBY, or to OFF without VBAT. -/
def Dev.railsOff (d : Dev) : Dev :=
  let d := { d with supply := { d.supply with rails := false } }
  if !d.mainOn then d
  else
    let d := d.mainOff
    if d.supply.vaux then d.go .watch 0
    else if d.supply.vbat then d.go .standby 0 else d.retentionLost.go .off 0

/-- RESET_N_ASSERTED: in HALT the device goes back to BOOT; in another main state `RESET_N` holds the main dies in reset, as a loss of the rails does, until
POWER_ON reports its release. -/
def Dev.resetN (d : Dev) (b : BootIn) : Dev := if d.mode == .halt then d.mainOn_ b else d.railsOff

end Sys2Proof.Machine
end

