-- ==== Sys2Proof/Machine/Settle.lean ====
section
/-!
DEFINITION. Machine/Settle.lean: what every command begins and ends with: its instant, and the one state change that its causes lead to, with its record (R26, R27).
-/
namespace Sys2Proof.Machine

/-- The fuses as they stand after a command: `o` is the device as the command found it (R92). -/
def Dev.keepFuses (o d : Dev) : Dev := { d with img := { d.img with otp := o.img.otp.merge d.img.otp } }

/-- Takes the device to a state, with the record of the change (R26) and what HALT does (R27). -/
def Dev.enterState (o d : Dev) (m : DevState) (cause : Nat) : Dev :=
  let d := ({ d with mode := m, stReq := [] }).wr Reg.GLB_STATUS_STATE m.stateCode
  let d := if m.stateCode != 0 && o.mode.stateCode != 0 && m != DevState.boot then d.noteState o.mode.stateCode m.stateCode cause else d
  let d := if m == DevState.halt then (d.haltEnter o.live).actFail else d
  { d with mode := m, stReq := [] }

/-- Applies the change of state that wins among those the command asked for (R26). -/
def Dev.applyState (o d : Dev) : Dev :=
  match pickState o.mode d.stReq with
  | none => { d with mode := o.mode, stReq := [] }
  | some (m, c) => o.enterState d m c

/-- A change of state is due to be shown in the tag's pages (R489). -/
def Dev.touchTag (old : DevState) (d : Dev) : Dev :=
  if d.mode = old then d else { d with pst := { d.pst with tag := { d.pst.tag with dirty := true } } }

/-- Outside DARK no boundary-scan instruction drives the balls (R507). -/
def Dev.scanSafe (d : Dev) : Dev := if d.mode = .dark then d else { d with jtag := { ins := d.jtag.ins.safe } }

/-- Ends a command: applies the state change that wins, with its record, shows the state, and drives the balls. `o` is the device as the command found it. -/
def settle (o : Dev) (d : Dev) : Dev :=
  let d := (Dev.touchTag o.mode (o.applyState (o.keepFuses d))).scanSafe
  (d.wr Reg.GLB_STATUS_STATE d.mode.stateCode).drivePins

/-- Begins a command at a device time: the clocks advance, and the outputs of the command before are gone. -/
def begin_ (t : Nat) (d : Dev) : Dev :=
  { d with own := d.own + (t - d.now), now := max t d.now, out := [], stReq := [] }

/-- Runs a command: a next state whose queue is as before. -/
def State.run (t : Nat) (s : State) (f : Dev → Dev) : Host.Outcome State Fault Refusal :=
  .next { s with dev := settle s.dev (f (begin_ t s.dev)) }

end Sys2Proof.Machine
end

