-- ==== Sys2Proof/Machine/Window.lean ====
section
/-!
DEFINITION. Machine/Window.lean: the Control Window (chapter 16): reads and writes of registers under the access codes and the realm rule (R13 to R15, R24, R400 to R403,
R419), full times and wide values (R51, R53, R402), and what a write of each register starts.
-/
namespace Sys2Proof.Machine

/-! ### Where a word lives -/

/-- The string of a device channel. -/
def Reel.stringOf (r : Reel) (ch : Nat) : Nat := match r.cellAt (ch / 2048) (ch % 2048) with
  | some (n, _) => n.ndString
  | none => 0

/-- The home of a word: the string and tile blocks of an EST table are views (R260). -/
def Dev.homeOf (d : Dev) (off : Nat) : Nat :=
  if 0x10000000 ≤ off ∧ off < 0x18000000 then
    let c := (off - 0x10000000) / 1024
    let r := off % 1024
    if 0x300 ≤ r ∧ r < 0x320 then Reg.EST_STR_I_CHG_LIM.base + 32 * d.rl.stringOf c + (r - 0x300)
    else if 0x3F0 ≤ r ∧ r < 0x3FC then Reg.EST_TILE_ARITH_SAT.base + 16 * (c / 2048) + (r - 0x3F0)
    else off
  else off

/-- The fields of the word at an offset, seen through a view; none at an offset that has no register, and at the table of an unused channel. -/
def Dev.fields (d : Dev) (off : Nat) : List Field :=
  if 0x20000000 ≤ off then []
  else if 0x10000000 ≤ off ∧ off < 0x18000000 ∧ !d.on Reg.EST_CH_STAT_USED ((off - 0x10000000) / 1024) then []
  else
    let h := d.homeOf off
    if h < 0x20000000 then fieldsAt h else (fieldsESTV.filter (fun f => f.covers h))

/-- The full-time registers by the offset of their NS word (R51). -/
def fullTimes : List Nat := [0x10060, 0x20000, 0x2004C, 0x40020]

/-- The full-time register that holds a word, and which of its words it is. -/
def fullTimeAt (off : Nat) : Option (Nat × Nat) :=
  (fullTimes.find? (fun b => decide (b ≤ off) && decide (off < b + 12))).map (fun b => (b, (off - b) / 4))

/-- The wide values in the neighbourhood of an offset: low word and count of words (R402). -/
def widesNear (off : Nat) : List (Nat × Nat) :=
  if off < 0x10000 then [(0x4, 2), (0x44, 2), (0x108, 2)]
  else if off < 0x20000 then [(0x10014, 2), (0x10024, 2), (0x10048, 2), (0x100A8, 2)]
  else if off < 0x30000 then [(0x20044, 2)]
  else if 0x50000 ≤ off ∧ off < 0x60000 then [(0x50308, 2)]
  else if 0x70000 ≤ off ∧ off < 0x80000 then [(0x70018, 2)]
  else if 0x91000 ≤ off ∧ off < 0x91800 then
    let b := off / 64 * 64
    [(b + 0x4, 2), (b + 0x14, 4)]
  else if 0x10000000 ≤ off ∧ off < 0x18000000 then
    let b := off / 1024 * 1024
    [(b + 0x20, 2), (b + 0x28, 2), (b + 0x30, 2)]
  else []

/-- The wide value that holds a word: the offset of its low word, its count of words, which of them it is. -/
def wideAt (off : Nat) : Option (Nat × Nat × Nat) :=
  ((widesNear off).find? (fun x => decide (x.1 ≤ off) && decide (off < x.1 + 4 * x.2))).map (fun x => (x.1, x.2, (off - x.1) / 4))

/-! ### Live words -/

/-- A word of a full time: 0 NS, 1 SEC_LO, 2 SEC_HI. -/
def timeWord (n k : Nat) : Nat :=
  let t := fullTime n
  if k = 0 then t.1 else if k = 1 then t.2.1 else t.2.2

/-- Whether a requester is T0. -/
def isT0 (req : Nat) : Bool := isLane req && (req - 0x80) / 4 == 0

/-- `QF_RESULT` as a requester sees it (R209). -/
def Dev.qfResultWord (d : Dev) (req : Nat) : Nat := let r := d.rq req; r.status % 256 + r.kind % 16 * 2 ^ 8 + r.qid * 2 ^ 12

/-- The words of the QF region that show the queues (Tables 8.9, 8.14); `none` for the other words of the region. -/
def Dev.queueWord (d : Dev) (off : Nat) : Option Nat :=
  let sum (q0 : Nat) (p : Queue → Bool) : Nat := sumN ((List.range 32).map (fun b => match d.qf.qs.find (q0 + b) with
    | some q => if p q then 2 ^ b else 0
    | none => 0))
  if 0x1800000 ≤ off ∧ off < 0x1C00000 then
    some (match d.qf.qs.find ((off - 0x1800000) / 4) with
    | none => 0
    | some q => q.qd.depth + (match q.qd.policy with | .block => 0 | .dropNew => 1 | .overwrite => 2) * 2 ^ 21 + b2n q.qd.prot * 2 ^ 23
        + b2n q.qd.openRead * 2 ^ 24 + b2n q.reading.isSome * 2 ^ 25)
  else if 0x1C10000 ≤ off ∧ off < 0x1C30000 then some (sum ((off - 0x1C10000) / 4 * 32) (fun q => q.wmEvt))
  else if 0x1C30000 ≤ off ∧ off < 0x1C50000 then some (sum ((off - 0x1C30000) / 4 * 32) (fun q => q.loss))
  else none

/-- The words of the GAF, WCH, PST, SIN and FLD regions that show live state; the Bool asks for a free value in the bits the state does not fix. -/
def Dev.boardWord (d : Dev) (off : Nat) : Option Nat :=
  let w := (d.word off).toNat
  if off = 0x30000 then some (w + b2n d.supply.pwrGood * 2 ^ 11)
  else if off = 0x30010 then (match d.gaf.wrap with
    | some x => if d.mode == .wrap then some (w / 65536 * 65536 + min ((d.own - x.own0) / 1000000) 65535) else none
    | none => none)
  else if 0x30400 ≤ off ∧ off < 0x30CC0 ∧ off % 16 = 0 then some (w + b2n (d.clientProt ((off - 0x30400) / 16)) * 2 ^ 19)
  else if 0x31080 ≤ off ∧ off < 0x31100 then
    let n := Config.sensorNbr ((off - 0x31080) / 4)
    some (n.1 % 32 + n.2.1 % 32 * 2 ^ 8 + n.2.2 % 32 * 2 ^ 16)
  else if off = 0x40000 then some (w + b2n d.supply.vaux + b2n d.supply.vbat * 2)
  else if 0x40040 ≤ off ∧ off < 0x40050 then some (d.toneWord ((off - 0x40040) / 4))
  else if off = 0x40030 then some d.dailyInt
  else if off = 0x5000C then some (min d.pst.bbBuf.length 65535 + min (d.pst.writes.filter (fun x => x.kind == 1)).length 65535 * 65536)
  else if 0x50100 ≤ off ∧ off < 0x50150 ∧ off % 16 = 8 then some (min (d.pst.sparesLeft ((off - 0x50100) / 16)) 65535)
  else if 0x50100 ≤ off ∧ off < 0x50150 ∧ off % 16 = 12 then some (d.daysLeft ((off - 0x50100) / 16))
  else if off = 0x50308 then some (Config.tagUid.toNat % 2 ^ 32)
  else if off = 0x5030C then some (Config.tagUid.toNat / 2 ^ 32)
  else if 0x52000 ≤ off ∧ off < 0x52200 then some (d.tagShadowRead ((off - 0x52000) / 4))
  else if 0x52200 ≤ off ∧ off < 0x52400 then some (d.tagCommittedRead ((off - 0x52200) / 4))
  else if off = 0x60010 then some d.leaseWord
  else if 0xA0A00 ≤ off ∧ off < 0xA0B00 ∧ off % 16 = 0 then some (w + b2n (d.pwmDrive ((off - 0xA0A00) / 16)))
  else none

/-- The words that no register table or state fixes at all times: `PST_STATUS.SCRUB`, the black-box numbers of an empty black box, the black-box window. -/
def Dev.freeWord (d : Dev) (off : Nat) : Option (Dev × Nat) :=
  if off = 0x50000 then
    let (d, v) := d.fresh
    some (d, (d.word off).toNat + v % 2 * 2)
  else if off = 0x50200 then some (match d.pst.bb.getLast? with | some r => (d, r.seq) | none => d.fresh)
  else if off = 0x50204 then some (match d.pst.bb.head? with | some r => (d, r.seq) | none => d.fresh)
  else if 0x51000 ≤ off ∧ off < 0x51100 then some (d.bbWord ((off - 0x51000) / 4))
  else none

/-- A word of the data TCM windows (Table 13.11): 0 while the lane is gated. -/
def Dev.dtcmWord (d : Dev) (off : Nat) : Option Nat :=
  if off < 0x400000 ∨ 0x800000 ≤ off then none
  else
    let tr := (off - 0x400000) / 0x100000
    let r := off % 0x100000
    if r < 0x40000 then none
    else
      let k := r / 0x40000
      some (if d.lst tr k = 0 then 0 else ((d.lane tr k).dtcm.get (r % 0x40000 / 4) 0#32).toNat)

/-- A word of `SWP_FILT_COEF` (Table 7.14). -/
def filtWord (off : Nat) : Option Nat :=
  if 0x180100 ≤ off ∧ off < 0x180400 then
    let c := filtCoef ((off - 0x180100) / 32)
    let k := off % 32 / 4
    some (if k < 5 then code 32 (c.1.getD k 0) else if k = 5 then c.2 else 0)
  else none

/-- The word at an offset as a requester finds it at this instant, WO fields as 0 (Table 0.7). -/
def Dev.liveWord (d : Dev) (req off : Nat) : Nat :=
  match fullTimeAt off with
  | some (0x20000, k) => timeWord d.now k
  | some (0x40020, k) => timeWord d.rtcNow k
  | _ =>
    if off = 0x10 then (d.word off).toNat + b2n (d.reqProt req) * 2 ^ 6 + b2n d.goWait * 2 ^ 13
    else if off = 0x2000C then d.cyc % 2 ^ 32
    else if off = 0x1C0000C then d.qfResultWord req
    else match d.boardWord off with
      | some w => w
      | none => match filtWord off with
        | some w => w
        | none => match d.dtcmWord off with
          | some w => w
          | none => match d.queueWord off with
            | some w => w
            | none =>
              let fs := d.fields off
              if fs.isEmpty then 0
              else (fs.foldl (fun (w : Word) f => if f.acc = .wo then putField w f.lo f.width 0 else w) (d.word (d.homeOf off))).toNat

/-! ### Reads (R13, R51, R402) -/

/-- Clears the RC fields of a word (R13). -/
def Dev.clearRc (d : Dev) (off : Nat) : Dev :=
  let fs := (d.fields off).filter (fun f => f.acc == .rc)
  if fs.isEmpty then d
  else
    let h := d.homeOf off
    d.setWord h (fs.foldl (fun (w : Word) f => putField w f.lo f.width 0) (d.word h))

/-- A read of a word by a requester: the word, with latches filled and RC fields cleared. -/
def Dev.ctlRead (d : Dev) (req off : Nat) : Dev × Nat :=
  if isT0 req ∧ 0x74000 ≤ off ∧ off < 0x74200 ∧ off % 32 < 0x18 then (d.set1 Reg.TRW_ERR_T0_READ, 0)
  else if 0x1000000 ≤ off ∧ off < 0x1800000 then
    let q := (off - 0x1000000) / 8
    if off % 8 < 4 then d.qstatRead req q else (d, d.qwmRead req q)
  else match d.freeWord off with
    | some x => x
    | none =>
      let w := d.liveWord req off
      match fullTimeAt off with
      | some (b, 0) => (d.setRq req { d.rq req with times := (d.rq req).times.ins b (d.liveWord req (b + 4), d.liveWord req (b + 8)) }, w)
      | some (b, k) => (match (d.rq req).times.find b with
        | some x => (d, if k = 1 then x.1 else x.2)
        | none => (d, w))
      | none => match wideAt off with
        | some (b, n, 0) =>
          (d.setRq req { d.rq req with wide := some (b, sumN ((List.range (n - 1)).map (fun k => d.liveWord req (b + 4 + 4 * k) * 2 ^ (32 * k)))) }, w)
        | some (b, _, k) => (match (d.rq req).wide with
          | some (t, v) => (d, if t = b then v / 2 ^ (32 * (k - 1)) % 2 ^ 32 else w)
          | none => (d, w))
        | none => (d.clearRc off, w)

/-! ### Writes: the access codes and the realm rule (R13, R14) -/

/-- Whether a field is marked /P at this instant; `GLB_MSIX_ARM.ARM` is while its vector names function 1 (Table 16.12). -/
def Dev.isProt (d : Dev) (f : Field) (off : Nat) : Bool :=
  f.prot || (decide (0x300 ≤ off) && decide (off < 0x400) && f.lo == 0 && d.on Reg.GLB_MSIX_MAP_FUNC ((off - 0x300) / 4))

/-- Whether a write would change a /P field (R14). -/
def Dev.changesProt (d : Dev) (req off v : Nat) : Bool :=
  (d.fields off).any (fun f => d.isProt f off && (match f.acc with
    | .rw => bitsOf v f.lo f.width != bitsOf (d.liveWord req off) f.lo f.width
    | .wo => bitsOf v f.lo f.width != 0
    | .w1s => bitsOf v f.lo f.width != 0
    | .w1c => bitsOf v f.lo f.width != 0
    | .ro => false
    | .rc => false))

/-- Whether the WO word at an offset is a window that keeps what is written: key bytes, key request, received block. -/
def isStore (off : Nat) : Bool :=
  (decide (0x120 ≤ off) && decide (off < 0x140)) || (decide (0x10400 ≤ off) && decide (off < 0x10600)) || (decide (0x18000 ≤ off) && decide (off < 0x19000))

/-- Writes a word under the access codes of its fields. -/
def Dev.storeWord (d : Dev) (prot : Bool) (off v : Nat) : Dev :=
  let fs := d.fields off
  if fs.isEmpty then d
  else
    let h := d.homeOf off
    d.setWord h (fs.foldl (fun (w : Word) f =>
      let x := bitsOf v f.lo f.width
      let old := bitsOf w.toNat f.lo f.width
      match f.acc with
      | .rw => if f.prot && !prot then w else putField w f.lo f.width x
      | .wo => if isStore off then putField w f.lo f.width x else w
      | .w1c => putField w f.lo f.width (old - (old &&& x))
      | .w1s => putField w f.lo f.width (old ||| x)
      | .ro => w
      | .rc => w) (d.word h))

/-! ### What a write starts -/

/-- Writes of the GLB region (Tables 16.8, 16.11). -/
def Dev.glbWrite (d : Dev) (off v : Nat) : Dev :=
  if off = 0x14 then
    let d := if bitAt v 0 then d.hostRun else d
    if bitAt v 1 then d.askWrap 1 else d
  else if off = 0x100 ∧ bitAt v 9 then d.keyGo (v % 64) (bitsOf v 8 1)
  else d

/-- Writes of the IMG region (chapter 4). -/
def Dev.imgWrite (d : Dev) (off v : Nat) : Dev :=
  if off = 0x10004 then
    let d := if bitAt v 0 then d.imgCommit else d
    let d := if bitAt v 1 then d.rxAbort else d
    if bitAt v 2 then d.cutDisarm else d
  else if off = 0x10040 ∧ bitAt v 0 then d.imgPush
  else if off = 0x1006C ∧ bitAt v 1 then d.cutArm
  else if off = 0x10080 ∧ bitAt v 2 then d.activate
  else if off = 0x100A4 ∧ bitAt v 0 then d.imgKeyGo
  else d

/-- Writes of the TB region: sources and ports judged anew. -/
def Dev.tbWrite (d : Dev) (off : Nat) : Dev :=
  if off = 0x20014 then
    let d := d.ref10Use
    if d.on Reg.TB_CTRL_PPS_IN_EN then d.selectSrc else d.loseSrc srcPps
  else if off = 0x20040 then d.selectSrc
  else if off = 0x20080 ∨ (0x20200 ≤ off ∧ off < 0x20300 ∧ off % 64 = 4) then d.bmca
  else d

/-- Writes of the LNK region (Tables 5.15, 5.20). -/
def Dev.lnkWrite (d : Dev) (off v : Nat) : Dev :=
  let p := (off - 0x100000) / 0x1000
  let r := off % 0x1000
  if r = 0 ∧ bitAt v 1 then d.wakePorts [p]
  else if r = 0x110 ∧ p % 2 = 0 then
    let g := p / 2
    let d := if bitAt v 0 && (d.mode == .quiet || d.live) then d.enumStart g else d
    let d := if bitAt v 1 then d.wakePorts [2 * g, 2 * g + 1] else d
    if bitAt v 2 && d.mode == .quiet then d.sleepRing g else d
  else d

/-- Writes of the TRW region outside the configuration registers (chapter 12). -/
def Dev.trwWrite (d : Dev) (off v : Nat) : Dev :=
  if off = 0x70004 ∧ bitAt v 0 then d.trwResetGlobal
  else if off = 0x70040 then
    let d := if bitAt v 8 then d.testGo (v % 256) else d
    if bitAt v 9 then d.testEnd 3 else d
  else if 0x71000 ≤ off ∧ off < 0x72000 ∧ off % 16 = 0xC ∧ bitAt v 0 then d.trwReset ((off - 0x71000) / 16)
  else d

/-- Writes of the TRD region (Tables 13.7, 13.8). -/
def Dev.trdWrite (d : Dev) (req off v : Nat) : Dev :=
  let tr := (off - 0x400000) / 0x100000
  let r := off % 0x100000
  if r = 4 then
    let d := if bitAt v 3 then d.readmitEnd tr 7 else d
    if bitAt v 2 then d.readmitGo tr (v % 4) else d
  else if r = 8 ∧ bitAt v 3 then d.restartGo tr (v % 8)
  else if r = 0xC then d.wdogSet tr (v % 65536)
  else if r = 0x10 then d.wdogKick tr req v
  else d

/-- Writes of the regions GAF, WCH, PST, SIN and FLD. -/
def Dev.boardWrite (d : Dev) (off v : Nat) : Dev :=
  if off = 0x31100 ∧ bitAt v 8 then d.sensRestore (v % 32)
  else if 0x31204 ≤ off ∧ off < 0x31400 ∧ off % 8 = 4 then d.heatEval ((off - 0x31204) / 8)
  else if off = 0x40008 ∧ bitAt v 0 then d.wakeRelease
  else if off = 0x50208 then d.bbSelect
  else if off = 0x50300 ∧ bitAt v 8 then d.tagHost
  else if off = 0x60014 then
    let d := if bitAt v 0 then d.switchGo 1000000 none else d
    if bitAt v 1 then d.switchAbort else d
  else if 0xA0814 ≤ off ∧ off < 0xA0900 ∧ off % 32 = 0x14 then d.qdSet ((off - 0xA0800) / 32) v
  else if 0xA0804 ≤ off ∧ off < 0xA0900 ∧ off % 32 = 4 then d.qdErr ((off - 0xA0800) / 32) (v % 65536)
  else d

/-- What a write starts, once its word is stored. -/
def Dev.afterWrite (d : Dev) (req off v : Nat) : Dev :=
  if off < 0x10000 then d.glbWrite off v
  else if off < 0x20000 then d.imgWrite off v
  else if off < 0x30000 then d.tbWrite off
  else if 0x70000 ≤ off ∧ off < 0x80000 then d.trwWrite off v
  else if off < 0x100000 then d.boardWrite off v
  else if off < 0x180000 then d.lnkWrite off v
  else if off = 0x180018 then d.owClear (v % 64) (bitsOf v 8 7) (bitsOf v 16 16)
  else if 0x200000 ≤ off ∧ off < 0x300000 ∧ off % 0x800 = 0x18 then d.lpeCommand ((off - 0x200000) / 0x800) v
  else if 0x400000 ≤ off ∧ off < 0x800000 then d.trdWrite req off v
  else if off = 0x1C00000 then d.wr Reg.QF_LOCK_TIMEOUT_TIMEOUT (min 1000 (max 1 (v % 1024)))
  else if 0x10000000 ≤ off ∧ off < 0x18000000 ∧ off % 1024 = 0x50 then d.estCommand ((off - 0x10000000) / 1024) v
  else d

/-! ### Writes with rules of their own -/

/-- The configuration registers of TRW (R321). -/
def isTrwCfg (off : Nat) : Bool := [0x70008, 0x7000C, 0x70010, 0x70018, 0x7001C, 0x70020, 0x70024, 0x70028].contains off

/-- A write of a TRW configuration register: accepted in QUIET from a protected requester other than T0; an open-realm write that would change it is refused besides
(R14). Answers the access status. -/
def Dev.trwCfgWrite (d : Dev) (req off v : Nat) : Dev × Nat :=
  if d.mode == .quiet && d.reqProt req && !isT0 req then (d.storeWord true off v, 0)
  else
    let st := if !d.reqProt req && d.changesProt req off v then 0x23 else 0
    let d := if st = 0 then d else d.refuse req off true st
    ((d.set1 Reg.TRW_ERR_CFG_REFUSED).raise Ev.TRW_CFG_REFUSED 0 (off % 65536 + req % 256 * 65536), st)

/-- A write of a register that only the voted bus of T0 writes (R316, R320): refused as a /P write of the open realm from any other requester. -/
def Dev.t0Write (d : Dev) (req off v : Nat) : Dev × Nat :=
  if !(req == 0x80 && d.reqProt req) && d.changesProt req off v then (d.refuse req off true 0x23, 0x23) else (d.storeWord (req == 0x80 && d.reqProt req) off v, 0)

/-- A write of a word of a writable full time (R51, R53): the seconds words wait for the NS word, and a malformed value is refused. -/
def Dev.timeWrite (d : Dev) (req b k v : Nat) : Dev × Nat :=
  if k ≠ 0 then ({ d with host := { d.host with stage := d.host.stage.ins (b + 4 * k) v } }, 0)
  else
    let lo := d.host.stage.get (b + 4) (d.liveWord req (b + 4))
    let hi := d.host.stage.get (b + 8) (d.liveWord req (b + 8))
    let d := { d with host := { d.host with stage := (d.host.stage.del (b + 4)).del (b + 8) } }
    match ofFullTime v lo hi with
    | none => ((if b = 0x20000 then d.timeSet none else d).refuse req b true 0x08, 0x08)
    | some n =>
      if b = 0x20000 then (d.timeSet (some n), 0)
      else (((d.wr Reg.IMG_CUT_NS_NS v).wr Reg.IMG_CUT_SEC_LO_SEC lo).wr Reg.IMG_CUT_SEC_HI_SEC hi, 0)

/-- A write of `GAF_CLIENT_CTRL.CAP` (R24, R455). -/
def Dev.capWrite (d : Dev) (req off v : Nat) : Dev × Nat :=
  let c := (off - 0x3040C) / 16
  if !d.reqProt req && d.clientProt c && decide (v % 65536 < d.rd Reg.GAF_CLIENT_RATE_FLOOR c) then
    ((d.refuse req off true 0x30).raise Ev.GAF_REALM_HOLD c (req % 256 + v % 65536 * 65536), 0x30)
  else (d.storeWord true off v, 0)

/-- A write of a doorbell word (R208): the low word is held, the high word pushes; its status. -/
def Dev.bellWrite (d : Dev) (req off v : Nat) : Dev × Nat :=
  let q := (off - 0x2000000) / 8
  if off % 8 < 4 then (d.setRq req { d.rq req with held := some v }, 0)
  else
    let x := d.rq req
    let (d, st) := (d.setRq req { x with held := none }).qfPush req q (BitVec.ofNat 64 (v * 2 ^ 32 + x.held.getD 0)) false
    let s := st.getD 0x26
    (d.qfResult req 1 q s, s)

/-- A write of a word by a requester: its access status (Table 16.6). -/
def Dev.ctlWrite (d : Dev) (req off v : Nat) : Dev × Nat :=
  if off % 4 ≠ 0 then (d.refuse req off true 0x31, 0x31)
  else if 0x20000000 ≤ off then (d.refuse req off true 0x32, 0x32)
  else if 0x2000000 ≤ off ∧ off < 0x2800000 then d.bellWrite req off v
  else if 0x1000000 ≤ off ∧ off < 0x1800000 then (if off % 8 < 4 then d.qstatWrite req ((off - 0x1000000) / 8) (bitAt v 21) (bitAt v 22) else (d, 0))
  else if off = 0x1C00008 then
    let (d, st) := d.qfCmd req (v % 2 ^ 20) (bitsOf v 20 4)
    (d.qfResult req 3 (v % 2 ^ 20) st, st)
  else if isTrwCfg off then d.trwCfgWrite req off v
  else if off = 0x70034 ∨ (0x78000 ≤ off ∧ off < 0x7A000) then d.t0Write req off v
  else if 0x200 ≤ off ∧ off < 0x300 ∧ d.msixDenied req ((off - 0x200) / 4) v = true then (d.refuse req off true 0x23, 0x23)
  else if !d.reqProt req && d.changesProt req off v then (d.refuse req off true 0x23, 0x23)
  else if 0x3040C ≤ off ∧ off < 0x30CC0 ∧ off % 16 = 0xC then d.capWrite req off v
  else if !d.reqProt req && (d.fields off).all (fun f => d.isProt f off || f.acc == .ro || f.acc == .rc) then (d, 0)
  else match fullTimeAt off with
    | some (0x20000, k) => d.timeWrite req 0x20000 k v
    | some (0x10060, k) => d.timeWrite req 0x10060 k v
    | _ =>
      if off = 0x20064 then (if d.rd Reg.TB_STATUS_SRC = srcPps then ((d.storeWord true off v).utcSet, 0) else (d, 0))
      else if 0xA0000 ≤ off ∧ off < 0xA0400 ∧ off % 256 = 8 then ((if d.mode == .quiet then d.storeWord true off v else d), 0)
      else if 0x52000 ≤ off ∧ off < 0x52200 then (d.tagShadowWrite ((off - 0x52000) / 4) v, 0)
      else if off = 0xA0C04 then (d.gpioOut (v % 65536), 0)
      else if 0x100000 ≤ off ∧ off < 0x180000 ∧ off % 0x1000 = 0 ∧ d.rl.present ((off - 0x100000) / 0x2000) = false then (d, 0)
      else ((d.storeWord (d.reqProt req) off v).afterWrite req off v, 0)

/-! ### Accesses as commands -/

/-- Whether an access can come from a requester: the main dies run, and a CWP session is open. -/
def Dev.reqOk (d : Dev) (req : Nat) : Bool :=
  d.mainOn && (req == 1 || req == 2 || isLane req || (isCwp req && (d.host.sess.find (req - 0x40)).isSome))

/-- A register write as a command, with the byte enables of a PCIe write (R401). -/
def Dev.hostWrite (d : Dev) (req off : Nat) (v : Word) (be : BitVec 4 := 15#4) : Dev :=
  if !d.reqOk req then d
  else if (req = 1 ∨ req = 2) ∧ be ≠ 15#4 then (d.refuse req off true 0x31).emit (.status req 0x31)
  else
    let (d, st) := d.ctlWrite req off v.toNat
    d.emit (.status req st)

/-- A register read as a command: doorbell reads have commands of their own. -/
def Dev.hostRead (d : Dev) (req off : Nat) : Dev :=
  if !d.reqOk req then d
  else if off % 4 ≠ 0 then (d.refuse req off false 0x31).emit (.status req 0x31)
  else if 0x20000000 ≤ off then (d.refuse req off false 0x32).emit (.status req 0x32)
  else
    let (d, w) := d.ctlRead req off
    d.emit (.word req off (BitVec.ofNat 32 w))

end Sys2Proof.Machine
end

