-- ==== Sys2Proof/Machine/Cwp.lean ====
section
/-!
DEFINITION. Machine/Cwp.lean: the Control Window Protocol (R409 to R418): format, authentication, sessions, sequence numbers and operations. A command serves the oldest datagram
that waits at a port, when it is of the command's kind.
-/
namespace Sys2Proof.Machine

/-! ### Fields of a message (Table 16.3) -/

def cwpKind (b : List Byte) : Nat := byteAt b 3
def cwpSession (b : List Byte) : Nat := byteAt b 4
def cwpProt (b : List Byte) : Bool := bitAt (byteAt b 5) 0
def cwpStop (b : List Byte) : Bool := bitAt (byteAt b 5) 1
def cwpOps (b : List Byte) : Nat := byteAt b 6
def cwpSeq (b : List Byte) : Nat := le b 8 4
def cwpNonce (b : List Byte) : Nat := le b 16 8
def cwpCnonce (b : List Byte) : Nat := le b 24 8

/-- An operation (Table 16.4): `OP`, `COUNT`, `ADDR`, its data. -/
structure CwpOp where
  op : Nat
  count : Nat
  addr : Nat
  data : List Byte
deriving DecidableEq, Repr

/-- The length of the data of an operation in a request; `none` outside Table 16.4. -/
def opData (op count : Nat) : Option Nat :=
  match op with
  | 1 => if 1 ≤ count then some 0 else none
  | 2 => if 1 ≤ count then some (4 * count) else none
  | 3 => if 1 ≤ count ∧ count ≤ 64 then some (8 * count) else none
  | 4 => if 1 ≤ count ∧ count ≤ 64 then some 0 else none
  | 5 => if count = 1 then some 4 else none
  | _ => none

/-- The operations of a request, which fill the bytes exactly (R416). -/
def readOps : Nat → List Byte → Option (List CwpOp)
  | 0, b => if b.isEmpty then some [] else none
  | n + 1, b =>
    if b.length < 8 ∨ le b 2 2 ≠ 0 then none
    else match opData (byteAt b 0) (byteAt b 1) with
      | none => none
      | some k =>
        if b.length < 8 + k then none
        else (readOps n (b.drop (8 + k))).map (fun l => { op := byteAt b 0, count := byteAt b 1, addr := le b 4 4, data := slice b 8 k } :: l)

/-- The operations of a well-formed message (R410, R411, R416); `none` for a datagram that is discarded as malformed. -/
def cwpFormat (b : List Byte) : Option (List CwpOp) :=
  let n := b.length
  let k := cwpKind b
  if n < 48 ∨ 1440 < n ∨ le b 12 2 ≠ n ∨ le b 0 2 ≠ 0x5743 ∨ byteAt b 2 ≠ 1 ∨ (k ≠ 1 ∧ k ≠ 3 ∧ k ≠ 5) ∨ 4 ≤ byteAt b 5 ∨ le b 14 2 ≠ 0 then none
  else if k = 1 then (if 1 ≤ cwpOps b ∧ cwpOps b ≤ 64 then readOps (cwpOps b) (slice b 32 (n - 48)) else none)
  else if cwpOps b = 0 ∧ n = 48 then some [] else none

/-! ### Authentication (R413) -/

/-- The tag of a message without its tag under a key store entry; zeros where no key is used. -/
def Dev.cwpTag (d : Dev) (key : Nat) (b : List Byte) : List Byte :=
  if key = 0xFF then List.replicate 16 0#8 else padTo ((Config.hmacSha256 (d.host.keys.get key []) b).take 16) 16

/-- The key store entry that a message is judged with (0xFF: none is used); `none` when it is discarded. -/
def Dev.cwpAuth (d : Dev) (c : PortCfg) (b : List Byte) : Option Nat :=
  let key := if cwpProt b then c.keyProt else c.keyOpen
  let n := b.length
  let good := d.cwpTag key (b.take (n - 16)) == b.drop (n - 16)
  if key = 0xFF then (if !cwpProt b && good then some 0xFF else none)
  else if d.enrolled key && good then some key else none

/-- Discards a message: 1 format, 2 authentication (R413, R416). -/
def Dev.cwpDiscard (d : Dev) (p why : Nat) : Dev :=
  let d := d.bump (if why = 1 then Reg.GLB_CWP_CNT_FORMAT_CNT else Reg.GLB_CWP_CNT_AUTH_CNT)
  d.raiseHeld Ev.GLB_CWP_DISCARD p oneSec p (fun n => why + min n (2 ^ 32 - 1) * 2 ^ 8)

/-! ### Responses -/

/-- A message with its header and tag. -/
def Dev.cwpMessage (d : Dev) (key kind session flags ops status seq nonce cnonce : Nat) (body : List Byte) : List Byte :=
  let h := toLe 0x5743 2 ++ toLe 1 1 ++ toLe kind 1 ++ toLe session 1 ++ toLe flags 1 ++ toLe ops 1 ++ toLe status 1 ++ toLe seq 4
    ++ toLe (48 + body.length) 2 ++ toLe 0 2 ++ toLe nonce 8 ++ toLe cnonce 8
  let m := h ++ body
  m ++ d.cwpTag key m

/-- Sends a response to where its request came from. -/
def Dev.cwpSend (d : Dev) (p : Nat) (m : CwpMsg) (b : List Byte) : Dev := d.udpSend p (if p < 2 then 0 else 3) false m.mac m.addr 47620 m.udp b

/-- Sends a response without results. -/
def Dev.cwpAnswer (d : Dev) (p : Nat) (m : CwpMsg) (key kind session status nonce cnonce : Nat) : Dev :=
  d.cwpSend p m (d.cwpMessage key kind session (byteAt m.bytes 5) 0 status (cwpSeq m.bytes) nonce cnonce [])

/-- What a session is bound to for a port: the port, or its PRP pair by its first port (R414). -/
def bindPort (c : PortCfg) (p : Nat) : Nat := if c.prp then p / 2 * 2 else p

/-! ### Operations (R411, R412) -/

/-- Whether the recovery service serves a word: GLB and IMG only (R418). -/
def darkServes (off n : Nat) : Bool := decide (off + 4 * n ≤ 0x20000)

/-- The status of reaching a word over CWP (Table 16.6). -/
def cwpReach (off : Nat) : Nat :=
  if off % 4 ≠ 0 then 0x31 else if (0x2000000 ≤ off ∧ off < 0x2800000) ∨ 0x20000000 ≤ off then 0x32 else 0

/-- Words read from an offset on: what was read, and the status that ended it. -/
def cwpRead (req : Nat) : Nat → Dev → Nat → List Byte → Dev × Nat × List Byte
  | 0, d, _, out => (d, 0, out)
  | n + 1, d, off, out =>
    let st := cwpReach off
    if st ≠ 0 then (d.refuse req off false st, st, out)
    else
      let (d, w) := d.ctlRead req off
      cwpRead req n d (off + 4) (out ++ toLe w 4)

/-- Words written from an offset on: how many, and the status that ended it. -/
def cwpWrite (req : Nat) : Nat → Dev → Nat → List Byte → Nat → Dev × Nat × Nat
  | 0, d, _, _, done => (d, 0, done)
  | n + 1, d, off, data, done =>
    let st := cwpReach off
    if st ≠ 0 then (d.refuse req off true st, st, done)
    else
      let (d, st) := d.ctlWrite req off (le data 0 4)
      if st ≠ 0 then (d, st, done) else cwpWrite req n d (off + 4) (data.drop 4) (done + 1)

/-- Items pushed. -/
def cwpPush (req qid : Nat) : Nat → Dev → List Byte → Nat → Dev × Nat × Nat
  | 0, d, _, done => (d, 0, done)
  | n + 1, d, data, done =>
    let (d, st) := d.qfPush req qid (BitVec.ofNat 64 (le data 0 8)) false
    let st := st.getD 0x26
    if st ≠ 0 then (d, st, done) else cwpPush req qid n d (data.drop 8) (done + 1)

/-- Items popped, up to and with the first not-valid one. -/
def cwpPop (req qid : Nat) : Nat → Dev → List Byte → Nat → Dev × Nat × Nat × List Byte
  | 0, d, out, done => (d, 0, done, out)
  | n + 1, d, out, done =>
    match d.qfPop req qid false with
    | (d, .wait) => (d, 0, done + 1, out ++ toLe (notValid true).toNat 8)
    | (d, .got st it) =>
      let out := out ++ toLe it.toNat 8
      if st ≠ 0 ∨ it.getLsbD 63 = false then (d, st, done + 1, out) else cwpPop req qid n d out (done + 1)

/-- An operation: its status and its result with data. -/
def Dev.cwpDo (d : Dev) (req : Nat) (o : CwpOp) : Dev × Nat × List Byte :=
  let res (st done : Nat) (data : List Byte) : List Byte := toLe o.op 1 ++ toLe st 1 ++ toLe done 1 ++ [0#8] ++ data
  let qid := o.addr % 2 ^ 20
  if d.mode == .dark && (decide (3 ≤ o.op) || !darkServes o.addr o.count) then (d, 0x34, res 0x34 0 [])
  else match o.op with
    | 1 =>
      let (d, st, out) := cwpRead req o.count d o.addr []
      (d, st, res st (out.length / 4) out)
    | 2 =>
      let (d, st, done) := cwpWrite req o.count d o.addr o.data 0
      (d, st, res st done [])
    | 3 =>
      let (d, st, done) := cwpPush req qid o.count d o.data 0
      (d, st, res st done [])
    | 4 =>
      let (d, st, done, out) := cwpPop req qid o.count d [] 0
      (d, st, res st done out)
    | _ =>
      let (d, st) := d.qfCmd req qid (byteAt o.data 0 % 16)
      (d, st, res st (b2n (st == 0)) [])

/-- The operations of a request in order; after an error with `STOP` the rest is skipped. -/
def cwpRun (req : Nat) (stop : Bool) : Dev → Bool → List CwpOp → Dev × List Byte
  | d, _, [] => (d, [])
  | d, ended, o :: r =>
    let (d, st, out) := if ended then (d, 0x33, toLe o.op 1 ++ toLe 0x33 1 ++ [0#8, 0#8]) else d.cwpDo req o
    let (d, rest) := cwpRun req stop d (ended || (stop && st != 0 && st != 0x28)) r
    (d, out ++ rest)

/-- The length of the response of a request with every READ and POP at its full `COUNT` (R411). -/
def cwpSize (ops : List CwpOp) : Nat := 48 + sumN (ops.map (fun o => 4 + (if o.op = 1 then 4 * o.count else if o.op = 4 then 8 * o.count else 0)))

/-! ### Sessions (R414, R415) -/

/-- Whether a message fits the session it names (R415). -/
def Dev.cwpFits (c : PortCfg) (p : Nat) (m : CwpMsg) (x : Session) : Bool :=
  x.nonce == cwpNonce m.bytes && x.addr == m.addr && x.udp == m.udp && x.port == bindPort c p && cwpProt m.bytes == decide (48 ≤ cwpSession m.bytes)

/-- A request or CLOSE that has passed format and authentication. -/
def Dev.cwpSerial (d : Dev) (c : PortCfg) (p : Nat) (m : CwpMsg) (key : Nat) (ops : List CwpOp) : Dev :=
  let s := cwpSession m.bytes
  let close := cwpKind m.bytes == 5
  let kind := if close then 6 else 2
  match d.host.sess.find s with
  | none => (d.bump Reg.GLB_CWP_CNT_SEQ_CNT).cwpAnswer p m key kind s 1 (cwpNonce m.bytes) 0
  | some x =>
    let ahead := (cwpSeq m.bytes + 2 ^ 32 - x.seq) % 2 ^ 32
    if !Dev.cwpFits c p m x then (d.bump Reg.GLB_CWP_CNT_SEQ_CNT).cwpAnswer p m key kind s 1 (cwpNonce m.bytes) 0
    else if ahead = 0 then d.cwpSend p m x.cache
    else if 2 ^ 31 ≤ ahead then (d.bump Reg.GLB_CWP_CNT_SEQ_CNT).cwpAnswer p m key kind s 2 x.nonce 0
    else if close then (d.cwpAnswer p m key 6 s 0 x.nonce 0).closeSession s 2
    else if 1440 < cwpSize ops then d.cwpAnswer p m key 2 s 4 x.nonce 0
    else
      let (d, out) := cwpRun (0x40 + s) (cwpStop m.bytes) d false ops
      let b := d.cwpMessage key 2 s (byteAt m.bytes 5) ops.length 0 (cwpSeq m.bytes) x.nonce 0 out
      let d := match d.host.sess.find s with
        | some y => { d with host := { d.host with sess := d.host.sess.ins s { y with seq := cwpSeq m.bytes, cache := b, at_ := d.own } } }
        | none => d
      d.cwpSend p m b

/-- The open session that an OPEN repeats, if any (R414). -/
def Dev.cwpSame (d : Dev) (m : CwpMsg) : Option (Nat × Session) :=
  d.host.sess.find? (fun x => x.2.addr == m.addr && x.2.udp == m.udp && decide (48 ≤ x.1) == cwpProt m.bytes && x.2.cnonce == cwpCnonce m.bytes)

/-- An OPEN that has passed format and authentication (R414). -/
def Dev.cwpOpens (d : Dev) (c : PortCfg) (p : Nat) (m : CwpMsg) (key : Nat) : Dev :=
  let prot := cwpProt m.bytes
  let cn := cwpCnonce m.bytes
  match d.cwpSame m with
  | some (s, x) => d.cwpAnswer p m key 4 s 0 x.nonce cn
  | none =>
    let ids := if prot then (List.range 16).map (fun k => 48 + k) else List.range 48
    match ids.find? (fun s => (d.host.sess.find s).isNone) with
    | none => (d.cwpAnswer p m key 4 0xFF 3 0 cn).raise Ev.GLB_SESSION_FULL (b2n prot) 0
    | some s =>
      let (d, v) := d.fresh
      let nonce := max 1 v
      let x : Session := { addr := m.addr, udp := m.udp, port := bindPort c p, nonce := nonce, cnonce := cn, seq := cwpSeq m.bytes, cache := [], key := key, at_ := d.own }
      let d := { d with host := { d.host with sess := d.host.sess.ins s x } }
      let d := if s < 32 then d.wr Reg.GLB_CWP_SESS_LO_OPEN (setBit (d.rd Reg.GLB_CWP_SESS_LO_OPEN) s true)
        else d.wr Reg.GLB_CWP_SESS_HI_OPEN (setBit (d.rd Reg.GLB_CWP_SESS_HI_OPEN) (s - 32) true)
      let b := d.cwpMessage key 4 s (byteAt m.bytes 5) 0 0 (cwpSeq m.bytes) nonce cn []
      let d := { d with host := { d.host with sess := d.host.sess.ins s { x with cache := b } } }
      (d.raise Ev.GLB_SESSION s (1 + b2n prot * 16)).cwpSend p m b

/-- Serves the oldest datagram that waits at a port, when `want` holds of its kind (R416 to R418). -/
def Dev.cwpServe (d : Dev) (p : Nat) (want : Nat → Bool) : Dev :=
  match d.host.waiting.get p [] with
  | [] => d
  | m :: rest =>
    if !want (cwpKind m.bytes) then d
    else
      let d := { d with host := { d.host with waiting := if rest.isEmpty then d.host.waiting.del p else d.host.waiting.ins p rest } }
      match cwpFormat m.bytes, d.portCfg p with
      | none, _ => d.cwpDiscard p 1
      | some _, none => d
      | some ops, some c => match d.cwpAuth c m.bytes with
        | none => d.cwpDiscard p 2
        | some key => if cwpKind m.bytes = 3 then d.cwpOpens c p m key else d.cwpSerial c p m key ops

end Sys2Proof.Machine
end

