-- ==== Sys2Proof/Machine/Cycle.lean ====
section
/-!
DEFINITION. Machine/Cycle.lean: the cycle boundary (R149): the order in which everything that the spec ties to a boundary happens there (R117, R145, R163, R174, R270,
R302, R312, R320, R387, R438, R444, R452, R464, R468).
-/
namespace Sys2Proof.Machine

/-! ### The Take at a boundary -/

/-- Whether the boundary of cycle k is a Slate of a ring (R163). After a change of schedule the new grid begins once the Take in progress has ended (Table 4.5). -/
def Dev.slateDue (d : Dev) (ring k : Nat) : Bool :=
  let r := d.lr ring
  match r.newTake with
  | none => k % d.rl.cpt ring == d.rl.phase ring % d.rl.cpt ring
  | some x =>
    let rl := d.rl.withTake x
    let ended := match r.cur with
      | some (_, c) => decide (c + d.rl.cpt ring ≤ k)
      | none => true
    ended && k % rl.cpt ring == rl.phase ring % rl.cpt ring

/-- Whether cycle k carries a Take on a ring (Table 5.3). -/
def Dev.carriesTake (d : Dev) (ring k : Nat) : Bool :=
  d.live && (match (d.lr ring).cur with
    | some (_, c) => decide (k < c + d.rl.cpt ring)
    | none => false)

/-- The content of the Take whose Slate is the next boundary (R174). A step that takes effect at that boundary makes it a re-sync Slate already (R164). -/
def Dev.fixNext (d : Dev) (ring k : Nat) : Dev :=
  if !d.live || !d.slateDue ring (k + 1) then d
  else
    let step := match d.tb.step with
      | some (_, _, b) => b == k + 1
      | none => false
    let d := if step then d.setLr ring { d.lr ring with resync := true } else d
    d.fixPlan ring (k + 1)

/-- The ENUM of `MODE` 2 in the Slate cycle at which the poll rotation restarts (R130, R131). -/
def Dev.enumRunCmd (d : Dev) (ring k : Nat) : Dev × List LCmd :=
  match (d.lr ring).cur with
  | none => (d, [])
  | some (p, c) =>
    let lost := (d.rl.nodes ring).any (fun n => d.nodeState ring n.ndAddr == 3)
    if c ≠ k ∨ p.pollFirst ≠ 1 ∨ d.mode ≠ .run ∨ ((d.lr ring).enumRun || lost) = false then (d, [])
    else
      let d := if (d.lr ring).enumRun then d else d.bump Reg.LNK_RING_ENUM_ATTEMPTS 1 ring
      (d.setLr ring { d.lr ring with enumRun := false, outc := [], extra := 0 },
        [{ typ := 0x10, dest := 0, pay := [2, 0, BitVec.ofNat 8 (d.rl.ringNodes ring), BitVec.ofNat 8 (d.rl.rate ring)] }])

/-! ### One ring -/

/-- The scheduled frames that begin in a cycle of a ring: address and type (R516, Table 5.7). -/
def Dev.framesOf (d : Dev) (ring cyc : Nat) : List (Nat × Nat) :=
  let r := d.lr ring
  let rl := d.rlAt ring cyc
  let reps := (r.replies.filter (fun x => x.1 == cyc)).map (fun x => (x.2.2.1, 5))
  match r.takeOf cyc with
  | none => reps
  | some (p, c) =>
    let i := cyc - c
    let polls := if i + 1 = rl.cpt ring then (List.range p.pollCount).map (fun j => (p.pollFirst + j, 4)) else []
    let data := (rl.nodes ring).filter (fun n => (rl.dataPos ring n.ndAddr).1 == i)
    if rl.cpt ring ≤ i then reps else reps ++ polls ++ (rl.heads ring).map (fun n => (n.ndAddr, 3)) ++ data.map (fun n => (n.ndAddr, n.ndKind))

/-- The hold deadline of every frame that began three cycles ago has passed (R132, R133). -/
def Dev.deadlines (d : Dev) (ring k : Nat) : Dev :=
  if k < 3 then d
  else (d.framesOf ring (k - 3)).foldl (fun (d : Dev) x => d.holdDeadline ring (k - 3) x.1 x.2) d

/-- The end of a cycle on a ring and what follows from it: loop delays, breaks, deadlines (R116, R133, R135). -/
def Dev.endCycle (d : Dev) (ring k : Nat) : Dev :=
  ((((d.rollCycle ring k).ringLong ring).ringBreak ring).ringRestored ring).deadlines ring k

/-- The CYC and LEASE sets of cycle k on a ring that this device originates (R112, R117). -/
def Dev.launchCyc (d : Dev) (ring k : Nat) : Dev :=
  let r := d.lr ring
  if !r.orig then d
  else ([0, 1].filter (fun rot => !bitAt r.stopped rot)).foldl (fun (d : Dev) rot =>
    (d.emit (.oset ring rot 0 [BitVec.ofNat 8 k, BitVec.ofNat 8 (rot + 2 * d.origCode)])).emit (.oset ring rot 1 [])) d

/-- The frames that the device itself forms for cycle k of a ring: PERMIT, SLATE, HOLD, TIME, ENUM of `MODE` 2 (Tables 5.5, 5.13); the PERMIT apart. -/
def Dev.ownFrames (d : Dev) (ring k : Nat) : Dev × List LCmd × List LCmd :=
  let (d, permit) := if d.live then d.permit ring k else (d, [])
  let slate := match (d.lr ring).plan with
    | some p => if d.live then [slateCmd p] else []
    | none => []
  let (d, holds) := d.wrapHolds ring
  let slateHere := match (d.lr ring).cur with
    | some (_, c) => d.live && c == k
    | none => false
  let time := if slateHere || (!d.carriesTake ring k && k % 8 == 0) then [d.timeCmd ring k] else []
  let (d, enum) := d.enumRunCmd ring k
  let sent := if d.lnk.permitK == some k then [] else permit
  (d, sent ++ slate ++ holds ++ time ++ enum, permit)

/-- A ring at the boundary of cycle k: the Slate, the content of the next Take, the windows. Answers the PERMIT of the cycle and the other actuating commands. -/
def Dev.ringCycle (d : Dev) (ring k : Nat) : Dev × List LCmd × List LCmd :=
  let d := d.launchCyc ring k
  let d := if d.live then (d.slate ring k).fixNext ring k else d
  let slateHere := match (d.lr ring).cur with
    | some (_, c) => d.live && c == k
    | none => false
  let (d, first, permit) := d.ownFrames ring k
  let (d, cmds) := d.fillWindow ring k slateHere first
  let d := (d.lr ring).waited.foldl (fun (d : Dev) x => d.cmdOverrun ring x.1) d
  (d, permit, cmds.filter (fun c => c.typ != 0x18))

/-! ### The digests (R387) -/

/-- `D_PERMIT`: the entries of every PERMIT. -/
def digestPermit (l : List LCmd) : Nat := crc32c (l.flatMap (fun c => c.pay.drop 2))
/-- `D_CMD`: type, destination and payload of every other actuating frame. -/
def digestCmd (l : List LCmd) : Nat := crc32c (l.flatMap (fun c => [BitVec.ofNat 8 c.typ, BitVec.ofNat 8 c.dest] ++ c.pay))
/-- `D_IO`: the trip outputs, the PWM duty codes, the payloads of actuating CAN slots. -/
def Dev.digestIo (d : Dev) (can : List Byte) : Nat :=
  crc32c (toLe (d.trw.outH + 8 * d.trw.outP) 1 ++ (List.range 16).flatMap (fun p => toLe (d.rd Reg.FLD_PWM_STAT_DUTY p) 2) ++ can)

/-! ### The boundary -/

/-- The board time master's pulse and message, and a follower's request for time transfer (R167, R168). -/
def Dev.boardPulse (d : Dev) (k : Nat) : Dev :=
  if k % 8 ≠ 0 then d
  else if d.on Reg.TB_STATUS_BOARD_MASTER && !d.solo && d.plant then (d.emit .slateSync).peerSend d.peerLinks pfBoardTime d.boardTimeMsg
  else d.twttAsk

/-- Whether the command in progress has led to HALT. -/
def Dev.halting (d : Dev) : Bool := d.stReq.any (fun x => x.1 == DevState.halt)

/-- What ends at the boundary of cycle k: an immediate shutdown that has sent its PERMIT, and the cycle that carried SLEEP after a Wrap (R202, R468). -/
def Dev.cycleEnds (d : Dev) (k : Nat) : Dev :=
  let d := d.immAdvance k
  match d.gaf.wrap with
  | some w => if w.sleep = 2 && d.mode == .wrap then d.wrapHalt else d
  | none => d

/-- SLEEP on every ring that the device originates, in the first cycle after a Wrap has completed (R202). -/
def Dev.cycleSleep (d : Dev) : Dev :=
  match d.gaf.wrap with
  | some w =>
    if w.sleep = 1 && d.mode == .wrap then
      d.rl.rings.foldl (fun (d : Dev) g => d.sleepRing g) { d with gaf := { d.gaf with wrap := some { w with sleep := 2 } } }
    else d
  | none => d

/-- The changes of structure, role and state that take effect at a boundary (R104, R114, R389, R463). -/
def Dev.cycleChanges (d : Dev) : Dev := d.cutLate.cutover.switchAtK.originate.wrapBoundary

/-- Every ring of the structure, in ring order. -/
def Dev.ringCycles (d : Dev) (k : Nat) : Dev × List LCmd × List LCmd :=
  d.rl.rings.foldl (fun (a : Dev × List LCmd × List LCmd) g =>
    let (d, p, c) := a.1.ringCycle g k
    (d, a.2.1 ++ p, a.2.2 ++ c)) (d, [], [])

/-- The engines at the boundary of cycle k, after the command windows are filled: what they write leaves in a later window (R293). -/
def Dev.engines (d : Dev) (k : Nat) : Dev :=
  let d := ((d.dspAllocate).lpeBoundary).trwPOut
  ((d.qdBoundary).gafArbitrate k).decideStep

/-- CYCLE_BOUNDARY (R149): device time has reached the boundary of cycle K. Each boundary is dealt with once. -/
def Dev.cycleBoundary (d : Dev) : Dev :=
  let d := d.timeStep
  let k := d.cyc
  if d.lnk.done = some k then d
  else
    let d := { d with lnk := { d.lnk with done := some k } }
    if !d.plant then d.gafArbitrate k
    else
      let d := d.cycleEnds k
      if d.halting then d
      else
        let d := d.rl.rings.foldl (fun (d : Dev) g => d.endCycle g k) d
        let d := d.cycleChanges.cycleSleep
        let (d, permits, cmds) := d.ringCycles k
        let d := d.engines k
        let (d, can) := d.canBoundary
        let d := d.boardPulse k
        let d := if k % 8000 = 0 then d.testAges else d
        let d := d.snapSend.snapTry
        let d := [0, 1, 2, 3].foldl (fun (d : Dev) p => d.portRelease p) d
        if d.live then d.digest k (digestPermit permits) (digestCmd cmds) (d.digestIo can) else d

end Sys2Proof.Machine
end

