-- ==== Sys2Proof/Machine/Alu.lean ====
section
/-!
DEFINITION. Machine/Alu.lean: the arithmetic of the triad instruction set on 32-bit words (R356 to R360, Tables 14.3 to 14.5, Table 2.2), and the words that
encode instructions (R354, Tables 14.2, 14.8, 14.10, 14.12).
-/
namespace Sys2Proof.Machine

/-! ### Integer operations -/

/-- A truth value as a register value. -/
def wordOf (b : Bool) : Word := if b then 1#32 else 0#32

/-- The shift amount: the low 8 bits of the operand (R359). -/
def shAmt (b : Word) : Nat := b.toNat % 256

def aluSll (a b : Word) : Word := if 32 ≤ shAmt b then 0#32 else a <<< shAmt b
def aluSrl (a b : Word) : Word := if 32 ≤ shAmt b then 0#32 else a >>> shAmt b
def aluSra (a b : Word) : Word := a.sshiftRight (min (shAmt b) 32)
def aluRor (a b : Word) : Word := a.rotateRight (shAmt b % 32)
def aluRol (a b : Word) : Word := a.rotateLeft (shAmt b % 32)
def aluMulh (a b : Word) : Word := BitVec.ofInt 32 (Int.fdiv (a.toInt * b.toInt) (2 ^ 32))
def aluMulhu (a b : Word) : Word := BitVec.ofNat 32 (a.toNat * b.toNat / 2 ^ 32)

/-- The most negative value. -/
def minInt32 : Word := 0x80000000#32

/-- Division with the edge results of Table 14.5. -/
def aluDiv (a b : Word) : Word := if b = 0#32 then 0#32 else BitVec.ofInt 32 (Int.tdiv a.toInt b.toInt)
def aluRem (a b : Word) : Word := if b = 0#32 then a else BitVec.ofInt 32 (Int.tmod a.toInt b.toInt)
def aluDivu (a b : Word) : Word := if b = 0#32 then 0#32 else BitVec.ofNat 32 (a.toNat / b.toNat)
def aluRemu (a b : Word) : Word := if b = 0#32 then a else BitVec.ofNat 32 (a.toNat % b.toNat)

/-- The number of leading zero bits among the low n bits. -/
def clzNat (x : Nat) : Nat → Nat
  | 0 => 0
  | n + 1 => if bitAt x n then 0 else clzNat x n + 1

/-! ### Flags (R357, R360): bit 1 `OV`, bit 2 `DZ` -/

/-- `OV` of a sum or difference: the exact result lies outside the signed range. -/
def ovOf (x : Int) : Nat := if x < -(2 ^ 31) ∨ 2 ^ 31 ≤ x then 2 else 0
/-- `OV` of NEG and ABS (R35). -/
def ovMin (a : Word) : Nat := if a = minInt32 then 2 else 0
/-- The flag of a signed division or remainder. -/
def divFlag (a b : Word) : Nat := if b = 0#32 then 4 else if a = minInt32 ∧ b = 0xFFFFFFFF#32 then 2 else 0
/-- The flag of an unsigned one. -/
def divuFlag (b : Word) : Nat := if b = 0#32 then 4 else 0

/-! ### Encodings -/

/-- R and SYS format. -/
def wR (op rd ra rb fn : Nat) : Word := BitVec.ofNat 32 (op * 2 ^ 26 + rd * 2 ^ 21 + ra * 2 ^ 16 + rb * 2 ^ 11 + fn)
/-- I, S and B format: the register at [25:21], the register at [20:16], the immediate. -/
def wI (op x y imm : Nat) : Word := BitVec.ofNat 32 (op * 2 ^ 26 + x * 2 ^ 21 + y * 2 ^ 16 + imm)
/-- J format. -/
def wJ (op imm : Nat) : Word := BitVec.ofNat 32 (op * 2 ^ 26 + imm)
/-- Q format. -/
def wQ (rp ra rd qop tmo : Nat) : Word := BitVec.ofNat 32 (0x30 * 2 ^ 26 + rp * 2 ^ 21 + ra * 2 ^ 16 + rd * 2 ^ 11 + qop * 2 ^ 8 + tmo)

/-- Fields of a word. -/
def wOp (w : Word) : Nat := bitsOf w.toNat 26 6
def wRd (w : Word) : Nat := bitsOf w.toNat 21 5
def wRa (w : Word) : Nat := bitsOf w.toNat 16 5
def wRb (w : Word) : Nat := bitsOf w.toNat 11 5
def wFn (w : Word) : Nat := bitsOf w.toNat 0 11

/-- Whether an R-format function is assigned, and whether its rb must be 0 (Table 14.3). -/
def rFns : List Nat := [1, 2, 3, 4, 5, 6, 8, 9, 10, 11, 12, 0x10, 0x11, 0x12, 0x13, 0x14, 0x18, 0x19, 0x1A, 0x1B, 0x1C, 0x1D, 0x20, 0x21, 0x22, 0x24, 0x25, 0x26, 0x27, 0x28, 0x29]
def rFnsUnary : List Nat := [5, 6, 0x28, 0x29]

/-- Whether the fields of a SYS word that Table 14.10 marks 0 are 0, for an assigned function. -/
def sysOk (w : Word) : Bool :=
  let rd := wRd w == 0
  let ra := wRa w == 0
  let rb := wRb w == 0
  match wFn w with
  | 0 => rd && ra && rb
  | 1 => ra
  | 2 => rd
  | 4 => ra
  | 8 => true
  | 0x10 => rd && ra && rb
  | 0x11 => ra && rb
  | 0x12 => ra && rb
  | 0x18 => rd && ra
  | 0x19 => rd && ra && rb
  | 0x1A => rd && ra && rb
  | _ => false

/-- Whether the fields of a Q word that Table 14.8 marks 0 are 0. -/
def qOk (w : Word) : Bool :=
  let qop := bitsOf w.toNat 8 3
  (qop == 2 || qop == 7 || bitsOf w.toNat 0 8 == 0) && (!(qop == 3 || qop == 4 || qop == 5) || wRd w == 0)

/-- Whether a word has an assigned opcode and function and zeros where the tables ask for them (R355, R373); the register pair rules and the numbers that
R353, R366 and R518 refuse are judged by the instructions themselves. -/
def wordLegal (w : Word) : Bool :=
  match wOp w with
  | 0 => rFns.contains (wFn w) && (!rFnsUnary.contains (wFn w) || wRb w == 0)
  | 1 => true | 2 => true | 3 => true | 4 => true | 5 => true | 6 => true
  | 7 => wRa w == 0
  | 8 => bitsOf w.toNat 8 8 == 0 | 9 => bitsOf w.toNat 8 8 == 0 | 10 => bitsOf w.toNat 8 8 == 0 | 11 => bitsOf w.toNat 8 8 == 0
  | 0x10 => true | 0x11 => true | 0x12 => true | 0x13 => true | 0x14 => true
  | 0x18 => true | 0x19 => true | 0x1A => true
  | 0x20 => true | 0x21 => true | 0x22 => true | 0x23 => true | 0x24 => true | 0x25 => true
  | 0x28 => true | 0x29 => true | 0x2A => true
  | 0x30 => qOk w
  | 0x38 => sysOk w
  | _ => false

end Sys2Proof.Machine
end

