-- ==== Sys2Proof/Machine/Isa.lean ====
section
/-!
DEFINITION. Machine/Isa.lean: the triad instruction set (chapter 14) but for loads and stores of the Control Window, which stand in Machine/IsaBus.lean. A
command names the unit that executes (Machine/Trd.lean) and the operands of the instruction. It has its effect when that unit runs, waits for nothing, and the
word at its PC is the encoding of exactly that instruction; else nothing happens. In a voted triad one execution serves every voting lane (R335).
-/
namespace Sys2Proof.Machine

/-! ### Registers of a lane (R352, R353) -/

/-- Reads a general register; g0 reads 0. -/
def Core.rd (c : Core) (r : Nat) : Word := if r = 0 then 0#32 else c.g.get r 0#32
/-- Writes a general register; a write of g0 is discarded. -/
def Core.put (c : Core) (r : Nat) (v : Word) : Core := if r = 0 then c else { c with g := c.g.set r v 0#32 }

/-- `STATUS.LOCK` of a unit: 0 not held, 1 held, 2 revoked. -/
def Dev.lockState (d : Dev) (tr l : Nat) : Nat :=
  if 3 ≤ l then 0 else if d.holdsLock (unitReq tr l) then 1 else if d.trd.revoked.contains (unitReq tr l) then 2 else 0

/-- Special register 7. -/
def Dev.srStatus (d : Dev) (tr l : Nat) (c : Core) : Nat :=
  b2n c.inTrap + (if d.tmode tr = 2 then (if l ≤ 2 then l else l - 2) else 0) * 2 + tr * 16 + d.rd Reg.TRD_STATUS_REALM tr * 64 + d.lockState tr l * 256

/-- MFSR: none for a number that is not in Table 14.1. -/
def Dev.readSr (d : Dev) (tr l : Nat) (c : Core) (sr : Nat) : Option Word :=
  match sr with
  | 0 => some (BitVec.ofNat 32 c.flags)
  | 1 => some (BitVec.ofNat 32 c.trapen)
  | 2 => some c.tvec
  | 3 => some c.epc
  | 4 => some (BitVec.ofNat 32 c.cause)
  | 5 => some c.badaddr
  | 6 => some c.escratch
  | 7 => some (BitVec.ofNat 32 (d.srStatus tr l c))
  | 16 => some c.instret
  | n => if 8 ≤ n ∧ n ≤ 15 then some (c.wq.get (n - 8) 0#32) else none

/-- MTSR: none for a number that is not in Table 14.1. -/
def Core.writeSr (c : Core) (sr : Nat) (v : Word) : Option Core :=
  match sr with
  | 0 => some { c with flags := c.flags &&& (7 - v.toNat % 8) }
  | 1 => some { c with trapen := v.toNat &&& 0xE }
  | 2 => some { c with tvec := v &&& 0xFFFFFFFC#32 }
  | 3 => some { c with epc := v &&& 0xFFFFFFFC#32 }
  | 4 => some c
  | 5 => some c
  | 6 => some { c with escratch := v }
  | 7 => some c
  | 16 => some c
  | n => if 8 ≤ n ∧ n ≤ 15 then some { c with wq := c.wq.set (n - 8) (v &&& 0x800FFFFF#32) 0#32 } else none

/-! ### Retiring, trapping (R370, R371) -/

/-- A program halts (R338). -/
def Dev.progHalt (d : Dev) (tr l pc : Nat) : Dev :=
  let d := (d.set1 Reg.TRD_ERR_PROG_HALT tr).raise Ev.TRD_PROG_HALT (trdInst tr (if l ≤ 2 then l else l - 2)) pc
  if l = 0 then (d.misWrite tr pc 0 6 0 false).safeHalt tr
  else if l ≤ 2 then d.splitHalt tr l
  else d.setLst tr (l - 2) 4

/-- Takes a trap with a cause, its information and the address to return to; `pc` is the instruction's own. -/
def Dev.trapTo (d : Dev) (tr l : Nat) (x : Lane) (pc : Nat) (ret : Word) (cause info : Nat) : Dev :=
  if x.core.tvec = 0#32 || x.core.inTrap then d.progHalt tr l pc
  else d.putUnit tr l { x with core := { x.core with
    epc := ret, cause := cause, badaddr := BitVec.ofNat 32 info, inTrap := true, pc := x.core.tvec } }

/-- After an instruction, a lane that was single-stepped halts again, and a resumed lane no longer passes its breakpoint. -/
def Dev.afterInst (d : Dev) (tr : Nat) (mem : List Nat) : Dev :=
  mem.foldl (fun (d : Dev) k =>
    let y := d.lane tr k
    let d := if y.skip || y.step then d.setLane tr k { y with skip := false, step := false } else d
    if y.step then d.debugHalt tr k else d) d

/-- A trap in place of the instruction. -/
def Dev.trapIn (d : Dev) (tr l : Nat) (x : Lane) (cause info : Nat) : Dev :=
  let d := if cause = 3 then d.set1 Reg.TRD_ERR_BUS_FAULT tr else d
  let mem := d.members tr l
  (d.trapTo tr l x x.core.pc.toNat x.core.pc cause info).afterInst tr mem

/-- Completes an instruction: the lane as it left it, the next PC, and a trap taken after it. -/
def Dev.complete (d : Dev) (tr l : Nat) (x : Lane) (npc : Word) (tp : Option (Nat × Nat)) : Dev :=
  let mem := d.members tr l
  let pc := x.core.pc
  let d := mem.foldl (fun (d : Dev) k => d.wr Reg.TRD_PC_PC pc.toNat tr (k - 1)) d
  let y : Lane := { x with core := { x.core with pc := npc, instret := x.core.instret + 1#32, wait := none } }
  let d := d.putUnit tr l y
  let d := match tp with
    | none => d
    | some (cause, info) => d.trapTo tr l y pc.toNat (pc + 4#32) cause info
  d.afterInst tr mem

/-- Completes an instruction that falls through. -/
def Dev.next (d : Dev) (tr l : Nat) (x : Lane) : Dev := d.complete tr l x (x.core.pc + 4#32) none

/-- Completes an instruction that writes one register. -/
def Dev.result (d : Dev) (tr l : Nat) (x : Lane) (r : Nat) (v : Word) : Dev := d.next tr l { x with core := x.core.put r v }

/-! ### Fetching -/

/-- The lanes of a unit that stand at a breakpoint halt (R349). -/
def Dev.breakpoints (d : Dev) (tr l : Nat) : Dev :=
  (d.members tr l).foldl (fun (d : Dev) k =>
    let y := d.lane tr k
    if !y.skip && y.bps.contains y.core.pc.toNat then d.debugHalt tr k else d) d

/-- The lane whose state a unit executes from. -/
def Dev.unitLane (d : Dev) (tr l : Nat) : Lane := d.lane tr ((d.members tr l).headD 1)

/-- Whether a unit waits: at a WAIT, or in a queue instruction. -/
def Dev.unitWaits (d : Dev) (tr l : Nat) : Bool :=
  (d.unitLane tr l).core.wait.isSome || (l ≤ 2 && (d.qf.lanes.find (unitReq tr l)).isSome)

/-- The word at the PC; none outside instruction TCM (R333). -/
def Lane.fetch (x : Lane) : Option Word :=
  if x.core.pc.toNat < 0x40000 then some (x.itcm.get (x.core.pc.toNat / 4) 0#32) else none

/-- Executes an instruction: `f` is given the lane, when the unit stands at that word and is free to execute it. -/
def Dev.isa (d : Dev) (tr l : Nat) (w : Word) (f : Dev → Lane → Dev) : Dev :=
  if !d.unitRuns tr l || d.unitWaits tr l then d
  else
    let d := d.breakpoints tr l
    if d.unitRuns tr l && (d.unitLane tr l).fetch == some w then f d (d.unitLane tr l) else d

/-! ### Arithmetic and logic (R356 to R360) -/

/-- An ALU instruction: its result and the flags it sets (bit 1 `OV`, bit 2 `DZ`); a set flag traps afterwards when its enable is set (R357). -/
def Dev.alu (d : Dev) (tr l : Nat) (w : Word) (rd : Nat) (f : Core → Word × Nat) : Dev :=
  d.isa tr l w fun d x =>
    let (v, fl) := f x.core
    let c := x.core.put rd v
    let c := { c with flags := c.flags ||| fl }
    d.complete tr l { x with core := c } (x.core.pc + 4#32)
      (if fl &&& x.core.trapen = 0 then none else some (if fl = 4 then 4 else 5, 0))

/-- An R-format instruction of two sources without flags. -/
def Dev.alu2 (d : Dev) (tr l fn rd ra rb : Nat) (f : Word → Word → Word) : Dev :=
  d.alu tr l (wR 0 rd ra rb fn) rd fun c => (f (c.rd ra) (c.rd rb), 0)

/-- An I-format instruction without flags. -/
def Dev.aluI (d : Dev) (tr l op rd ra imm : Nat) (f : Word → Word) : Dev :=
  d.alu tr l (wI op rd ra imm) rd fun c => (f (c.rd ra), 0)

/-! ### Branches and jumps (R362) -/

/-- A byte offset of words from a signed count. -/
def jumpTo (pc : Word) (off : Int) : Word := pc + BitVec.ofInt 32 (4 * off)

/-- A B-format branch. -/
def Dev.branch (d : Dev) (tr l op ra rb : Nat) (off : BitVec 16) (f : Word → Word → Bool) : Dev :=
  d.isa tr l (wI op ra rb off.toNat) fun d x =>
    d.complete tr l x (if f (x.core.rd ra) (x.core.rd rb) then jumpTo x.core.pc off.toInt else x.core.pc + 4#32) none

/-! ### Memory of a lane (R333, R361) -/

/-- The word of a TCM at an address; none outside the TCMs. -/
def Lane.tcm (x : Lane) (ea : Nat) : Option Word :=
  if ea < 0x40000 then some (x.itcm.get (ea / 4) 0#32)
  else if 0x10000000 ≤ ea ∧ ea < 0x10040000 then some (x.dtcm.get ((ea - 0x10000000) / 4) 0#32)
  else none

/-- The effective address. -/
def Core.ea (c : Core) (ra : Nat) (imm : BitVec 16) : Word := c.rd ra + imm.signExtend 32

/-- The part of a word that a load of a size takes: 1, 2 or 4 bytes at an address, sign-extended or not. -/
def loadPart (w : Word) (ea size : Nat) (signed : Bool) : Word :=
  let v := w.toNat / 2 ^ (8 * (ea % 4)) % 2 ^ (8 * size)
  if signed then BitVec.ofInt 32 (sx (8 * size) v) else BitVec.ofNat 32 v

/-- A word with the part that a store of a size writes replaced. -/
def storePart (w : Word) (ea size : Nat) (v : Word) : Word :=
  putField w (8 * (ea % 4)) (8 * size) v.toNat

/-- A load from a TCM; `win` takes one from the Control Window, which only LW may do. -/
def Dev.load (d : Dev) (tr l op rd ra : Nat) (imm : BitVec 16) (size : Nat) (signed : Bool) (ecc : List (Nat × Bool))
    (win : Dev → Lane → Nat → Dev) : Dev :=
  d.isa tr l (wI op rd ra imm.toNat) fun d x =>
    let ea := (x.core.ea ra imm).toNat
    if ea % size ≠ 0 then d.trapIn tr l x 2 ea
    else match x.tcm ea with
      | some w =>
        let d := d.tcmErrors tr l x.core.pc.toNat ecc
        if d.unitRuns tr l then d.result tr l x rd (loadPart w ea size signed) else d
      | none => if 0x80000000 ≤ ea ∧ ea < 0xA0000000 then win d x ea else d.trapIn tr l x 3 ea

/-- A store to data TCM; `win` makes one to the Control Window, which only SW may do. -/
def Dev.store (d : Dev) (tr l op rs ra : Nat) (imm : BitVec 16) (size : Nat) (win : Dev → Lane → Nat → Word → Dev) : Dev :=
  d.isa tr l (wI op rs ra imm.toNat) fun d x =>
    let ea := (x.core.ea ra imm).toNat
    let v := x.core.rd rs
    if ea % size ≠ 0 then d.trapIn tr l x 2 ea
    else if 0x10000000 ≤ ea ∧ ea < 0x10040000 then
      let k := (ea - 0x10000000) / 4
      d.next tr l { x with dtcm := x.dtcm.set k (storePart (x.dtcm.get k 0#32) ea size v) 0#32 }
    else if 0x80000000 ≤ ea ∧ ea < 0xA0000000 then win d x ea v
    else d.trapIn tr l x 3 ea

/-! ### Queue instructions (R363 to R365, R518) -/

/-- The kind of `QF_RESULT` of a queue operation: 1 push, 2 pop, 3 command (R209). -/
def qopKind (qop : Nat) : Nat := if qop = 1 ∨ qop = 2 then 2 else if qop = 3 ∨ qop = 4 ∨ qop = 5 then 3 else 1

/-- A queue instruction ends: the item of a pop, then the status in rd, then `QF_RESULT`, and the QERR trap when it is enabled. -/
def Dev.qEnd (d : Dev) (tr l : Nat) (x : Lane) (qop rp rd qid st : Nat) (it : Item) : Dev :=
  let req := unitReq tr l
  let d := { d with qf := { d.qf with lanes := d.qf.lanes.del req } }.qfResult req (qopKind qop) qid st
  let c := if qop = 1 ∨ qop = 2 then (x.core.put rp (it.setWidth 32)).put (rp + 1) ((it >>> 32).setWidth 32) else x.core
  let c := c.put rd (BitVec.ofNat 32 st)
  d.complete tr l { x with core := c } (x.core.pc + 4#32)
    (if st ≠ 0 ∧ st ≠ 0x28 ∧ bitAt x.core.trapen 3 then some (6, st + qid % 2 ^ 20 * 2 ^ 8) else none)

/-- A queue instruction waits (R210, R212). -/
def Dev.qWait (d : Dev) (tr l : Nat) (w : LWait) : Dev := { d with qf := { d.qf with lanes := d.qf.lanes.ins (unitReq tr l) w } }

/-- The status of a push whose wait has run out (R365): `Q_LOCKED` behind another producer's lock, else `Q_FULL`. -/
def Dev.pushOut (d : Dev) (req qid : Nat) : Nat :=
  match d.qf.qs.find qid with
  | none => 0x20
  | some q => match q.openp with
    | some p => if p.req = req then 0x24 else 0x26
    | none => 0x24

/-- Tries the queue operation of a unit; where it cannot complete, the unit waits as `w` says, or the operation ends when its limit is 0. `qop` 8 is the second
item of a QPUSH2 into an open packet. -/
def Dev.qTry (d : Dev) (tr l : Nat) (x : Lane) (rp rd : Nat) (w : LWait) : Dev :=
  let req := unitReq tr l
  match w.op with
  | 1 | 2 =>
    (match d.qfPop req w.qid with
    | (d, .got st it) => d.qEnd tr l x w.op rp rd w.qid st it
    | (d, .wait) => if w.tmo = some 0 then d.qEnd tr l x w.op rp rd w.qid 0 (notValid false) else d.qWait tr l w)
  | 6 =>
    (match d.qfPush2 req w.qid w.v w.v2 with
    | (d, some st, _) => d.qEnd tr l x 6 rp rd w.qid st (notValid false)
    | (d, none, false) => d.qWait tr l w
    | (d, none, true) => d.qWait tr l { w with op := 8, v := noHead w.v2 })
  | _ =>
    (match d.qfPush req w.qid w.v with
    | (d, some st) => d.qEnd tr l x w.op rp rd w.qid st (notValid false)
    | (d, none) => if w.tmo = some 0 then d.qEnd tr l x w.op rp rd w.qid (d.pushOut req w.qid) (notValid false) else d.qWait tr l w)

/-- A register pair as an item, high word and low word. -/
def Core.pair (c : Core) (r : Nat) : Item := BitVec.ofNat 64 ((c.rd (r + 1)).toNat * 2 ^ 32 + (c.rd r).toNat)

/-- Executes a queue instruction. Outside the vote it is discarded (R349); what its registers then receive is a free value. -/
def Dev.queueInst (d : Dev) (tr l qop rp ra rd tmo : Nat) : Dev :=
  let w := wQ rp ra rd qop tmo
  d.isa tr l w fun d x =>
    let c := x.core
    let pairBad := if qop = 6 then rp % 4 != 0 else (qop == 0 || qop == 1 || qop == 2 || qop == 7) && rp % 2 != 0
    let v := c.pair rp
    let v2 := c.pair (rp + 2)
    if pairBad || (qop == 6 && (v.getLsbD 62 || v2.getLsbD 62 || !v2.getLsbD 61)) then d.trapIn tr l x 1 w.toNat
    else if 3 ≤ l then
      let (d, a) := d.fresh
      let (d, b) := d.fresh
      let c := if qop = 1 ∨ qop = 2 then (c.put rp (BitVec.ofNat 32 b)).put (rp + 1) (BitVec.ofNat 32 (b / 2 ^ 32)) else c
      d.next tr l { x with core := c.put rd (BitVec.ofNat 32 a) }
    else
      let q := (c.rd ra).toNat
      let qid := q % 2 ^ 20
      if 2 ^ 20 ≤ q then d.qEnd tr l x qop rp rd qid 0x20 (notValid false)
      else if qop = 3 ∨ qop = 4 ∨ qop = 5 then
        let (d, st) := d.qfCmd (unitReq tr l) qid (qop - 2)
        d.qEnd tr l x qop rp rd qid st (notValid false)
      else d.qTry tr l x rp rd { op := qop, qid := qid, v := v, v2 := v2, at_ := d.own, tmo := if qop = 2 ∨ qop = 7 then some tmo else none }

/-- A waiting queue instruction tries again. -/
def Dev.qRetry (d : Dev) (tr l : Nat) : Dev :=
  match d.qf.lanes.find (unitReq tr l) with
  | none => d
  | some w =>
    let x := d.unitLane tr l
    match d.unitRuns tr l, x.fetch with
    | true, some i => d.qTry tr l x (wRd i) (wRb i) w
    | _, _ => d

/-- QUEUE_WAIT_TIMEOUT: the wait of a QPOPT or QPUSHT runs out (R365). -/
def Dev.qLimit (d : Dev) (tr l : Nat) : Dev :=
  match d.qf.lanes.find (unitReq tr l) with
  | none => d
  | some w =>
    let x := d.unitLane tr l
    match d.unitRuns tr l, x.fetch, w.tmo with
    | true, some i, some n =>
      if d.own < w.at_ + n * 1000 then d
      else if w.op = 2 then d.qEnd tr l x 2 (wRd i) (wRb i) w.qid 0 (notValid (decide (w.qid < 0x10000)))
      else d.qEnd tr l x w.op (wRd i) (wRb i) w.qid (d.pushOut (unitReq tr l) w.qid) (notValid false)
    | _, _, _ => d

/-- POP_WAIT_RESUME: a reader that waits on a near queue is served (R210), host or triad. -/
def Dev.popResume (d : Dev) (req qid : Nat) : Dev :=
  if isLane req then
    match d.qf.lanes.find req with
    | some w => if w.qid == qid && (w.op == 1 || w.op == 2) then d.qRetry ((req - 0x80) / 4) ((req - 0x80) % 4) else d
    | none => d
  else d.hostResume req qid

/-- BLOCK_WAIT_RESUME: a producer that waits on a queue writes (R212, R222), engine or triad. -/
def Dev.blockResume (d : Dev) (qid : Nat) : Dev :=
  let d := d.engineResume qid
  ((d.qf.lanes.filter (fun x => x.2.qid == qid && x.2.op != 1 && x.2.op != 2)).map (fun x => x.1)).foldl
    (fun (d : Dev) req => d.qRetry ((req - 0x80) / 4) ((req - 0x80) % 4)) d

/-! ### Waiting, timebase, copy point, lock (R366 to R369) -/

/-- The conditions of a WAIT that hold now, among those its mask selects; `k` is the cycle of its issue. -/
def Dev.waitBits (d : Dev) (c : Core) (mask rb : Word) (k : Nat) : Nat :=
  let slot (i : Nat) : Bool :=
    let w := (c.wq.get i 0#32).toNat
    bitAt w 31 && (match d.qf.qs.find (w % 2 ^ 20) with
      | some q => q.readable
      | none => false)
  let holds (i : Nat) : Bool := if i < 8 then slot i else if i = 8 then decide (k < d.cyc) else decide (0 ≤ tsDiff rb.toNat (ts32 d.now))
  sumN ((List.range 10).map (fun i => if bitAt mask.toNat i && holds i then 2 ^ i else 0))

/-- WAIT. -/
def Dev.waitInst (d : Dev) (tr l rd ra rb : Nat) : Dev :=
  d.isa tr l (wR 0x38 rd ra rb 8) fun d x =>
    let m := x.core.rd ra
    let b := d.waitBits x.core m (x.core.rd rb) d.cyc
    if m.toNat % 1024 = 0 ∨ b ≠ 0 then d.result tr l x rd (BitVec.ofNat 32 b)
    else d.putUnit tr l { x with core := { x.core with wait := some d.cyc } }

/-- WAIT_WAKE: a selected condition has come to hold. -/
def Dev.waitWake (d : Dev) (tr l : Nat) : Dev :=
  let x := d.unitLane tr l
  match d.unitRuns tr l, x.core.wait, x.fetch with
  | true, some k, some i =>
    let b := d.waitBits x.core (x.core.rd (wRa i)) (x.core.rd (wRb i)) k
    if b = 0 then d else d.result tr l x (wRd i) (BitVec.ofNat 32 b)
  | _, _, _ => d

/-- TBR: the value of a selection (Table 14.9a); none for another number. -/
def Dev.tbrValue (d : Dev) (c : Core) (sel : Nat) : Option Nat :=
  let n := c.tbr
  match sel with
  | 0 => some (ts32 d.now)
  | 1 => some (fullTime d.now).1
  | 2 => some (match n with | some t => (fullTime t).2.1 | none => 0)
  | 3 => some (match n with | some t => (fullTime t).2.2 | none => 0)
  | 4 => some (match n with | some t => cycleOf t | none => 0)
  | 5 => some d.cyc
  | 6 => some (d.now % 125000)
  | 7 => some d.tb.steps
  | _ => none

/-- Whether a requester holds a queue lock. -/
def Dev.holdsQueue (d : Dev) (req : Nat) : Bool :=
  d.qf.qs.any (fun x => (match x.2.openp with | some p => p.req == req | none => false) || (match x.2.reading with | some r => r.req == req | none => false))

/-- SYNCPT: the copy of R341 into the lane to be readmitted. The pause is a free value between 8,192 ns and 20 µs. -/
def Dev.syncpt (d : Dev) (tr l : Nat) (crcOk : Bool) : Dev :=
  d.isa tr l (wR 0x38 0 0 0 0x10) fun d x =>
    let d := d.next tr l x
    let req := unitReq tr 0
    match (d.tri tr).readmit with
    | none => d
    | some lane =>
      if l ≠ 0 || !d.on Reg.TRD_STATUS_READMIT_PEND tr || d.holdsLock req || d.holdsQueue req then d
      else if !crcOk then d.readmitEnd tr 6
      else
        let y := d.unitLane tr 0
        let (d, f) := d.fresh
        let d := (d.setLane tr lane { d.lane tr lane with core := y.core, itcm := y.itcm, dtcm := y.dtcm }).setLst tr lane 1
        let t := d.tri tr
        let d := (d.setTri tr { t with readmit := none, phase := .idle, testing := [], passed := [] }).clr Reg.TRD_STATUS_READMIT_PEND tr
        ((d.wr Reg.TRD_READMIT_STATUS 0 tr).trdSync tr).raise Ev.TRD_READMIT (trdInst tr lane) ((8192 + f % 11809) * 2 ^ 8)

/-- LOCK: waits while another unit holds the bus lock. -/
def Dev.lockInst (d : Dev) (tr l rd : Nat) : Dev :=
  d.isa tr l (wR 0x38 rd 0 0 0x11) fun d x =>
    let req := unitReq tr l
    if 3 ≤ l then (let (d, v) := d.fresh; d.result tr l x rd (BitVec.ofNat 32 v))
    else match d.trd.lock with
      | some b => if b.req = req then d.result tr l x rd 1#32 else d
      | none =>
        let d := { d with trd := { d.trd with lock := some { req := req, at_ := d.own }, revoked := d.trd.revoked.filter (fun r => r != req) } }
        (d.set1 Reg.TRD_STATUS_LOCK tr).result tr l x rd 0#32

/-- UNLOCK. -/
def Dev.unlockInst (d : Dev) (tr l rd : Nat) : Dev :=
  d.isa tr l (wR 0x38 rd 0 0 0x12) fun d x =>
    let req := unitReq tr l
    if 3 ≤ l then (let (d, v) := d.fresh; d.result tr l x rd (BitVec.ofNat 32 v))
    else if d.holdsLock req then (d.lockFree req).result tr l x rd 0#32
    else if d.trd.revoked.contains req then
      { d with trd := { d.trd with revoked := d.trd.revoked.filter (fun r => r != req) } }.result tr l x rd 2#32
    else d.result tr l x rd 1#32

end Sys2Proof.Machine
end

