-- ==== Sys2Proof/Machine/IsaBus.lean ====
section
/-!
DEFINITION. Machine/IsaBus.lean: LW and SW (R361): loads and stores of a triad that may reach the Control Window, under the bus lock (R347, R369).
-/
namespace Sys2Proof.Machine

/-- Whether an access status is a refusal (R361, R419). -/
def isRefusal (st : Nat) : Bool := st == 0x08 || (decide (0x20 ≤ st) && decide (st ≤ 0x23)) || (decide (0x30 ≤ st) && decide (st ≤ 0x32))

/-- Counts a Control Window access of the holder of the bus lock; the lock is revoked once its 64th has completed. -/
def Dev.countAccess (d : Dev) (req : Nat) : Dev :=
  match d.trd.lock with
  | none => d
  | some b =>
    if b.req ≠ req then d
    else
      let d := { d with trd := { d.trd with lock := some { b with n := b.n + 1 } } }
      if 64 ≤ b.n + 1 then d.lockRevoke 2 else d

/-- A Control Window access of a unit on its way: not issued with LOCKLOST after a revocation; it waits while another unit holds the bus lock (R369). Lanes outside the vote
make none (R349). -/
def Dev.busAccess (d : Dev) (tr l : Nat) (x : Lane) (ea : Nat) (outside : Dev → Dev) (go : Dev → Nat → Nat → Dev) : Dev :=
  let req := unitReq tr l
  if 3 ≤ l then outside d
  else if d.trd.revoked.contains req then
    { d with trd := { d.trd with revoked := d.trd.revoked.filter (fun r => r != req) } }.trapIn tr l x 7 ea
  else if d.trd.lock.isSome && !d.holdsLock req then d
  else go d req (ea - 0x80000000)

/-- The end of a load from the Control Window: the word, or the BUS trap of a refusal. -/
def Dev.loadEnd (d : Dev) (tr l rd ea st w : Nat) : Dev :=
  let d := d.countAccess (unitReq tr l)
  if isRefusal st then d.trapIn tr l (d.unitLane tr l) 3 ea else d.result tr l (d.unitLane tr l) rd (BitVec.ofNat 32 w)

/-- The low word of a doorbell (R208, R210): a pop as a host makes it, which waits up to 8 µs on an empty near queue. -/
def Dev.bellLoad (d : Dev) (tr l rd ea req q : Nat) : Dev :=
  let get (d : Dev) (st : Nat) (it : Item) : Dev :=
    let d := d.qfResult req 2 q st
    (d.setRq req { d.rq req with high := it.toNat / 2 ^ 32, pop := none }).loadEnd tr l rd ea st (it.toNat % 2 ^ 32)
  let since := match (d.rq req).pop with
    | some (k, a) => if k = q then a else d.own
    | none => d.own
  match d.qfPop req q false with
  | (d, .got st it) => get d st it
  | (d, .wait) => if since + 8000 ≤ d.own then get d 0 (notValid true) else d.setRq req { d.rq req with pop := some (q, since) }

/-- A load of the Control Window. -/
def Dev.busLoad (d : Dev) (tr l rd : Nat) (x : Lane) (ea : Nat) : Dev :=
  d.busAccess tr l x ea (fun d => d.result tr l x rd 0#32) fun d req off =>
    if 0x2000000 ≤ off ∧ off < 0x2800000 then
      (if off % 8 < 4 then d.bellLoad tr l rd ea req ((off - 0x2000000) / 8) else d.loadEnd tr l rd ea 0 (d.rq req).high)
    else
      let (d, w) := d.ctlRead req off
      d.loadEnd tr l rd ea 0 w

/-- A store to the Control Window. -/
def Dev.busStore (d : Dev) (tr l : Nat) (x : Lane) (ea : Nat) (v : Word) : Dev :=
  d.busAccess tr l x ea (fun d => d.next tr l x) fun d req off =>
    let (d, st) := d.ctlWrite req off v.toNat
    let d := d.countAccess req
    if !d.unitRuns tr l then d
    else if isRefusal st then d.trapIn tr l (d.unitLane tr l) 3 ea else d.next tr l (d.unitLane tr l)

end Sys2Proof.Machine
end

