-- ==== Sys2Proof/Machine/Jtag.lean ====
section
/-!
DEFINITION. Machine/Jtag.lean: the instructions of the debug port (R507).
-/
namespace Sys2Proof.Machine

/-- Puts an instruction of the debug port in force while the main rails are good. -/
def Dev.jtagSet (d : Dev) (i : JtagIns) : Dev := if d.mainOn then { d with jtag := { ins := i } } else d

/-- Shifts a value out of the port. -/
def Dev.jtagOut (d : Dev) (v : Nat) : Dev := if d.mainOn then d.emit (.jtag v) else d

/-- BYPASS: the one-bit bypass register, which captures 0. -/
def Dev.jtagBypass (d : Dev) : Dev := (d.jtagSet .bypass).jtagOut 0

/-- SAMPLE/PRELOAD: the boundary register, whose layout the BSDL file gives; what it shifts out is a free value (assumption log 2). -/
def Dev.jtagSample (d : Dev) : Dev :=
  let (d, v) := d.fresh
  (d.jtagSet .sample).jtagOut v

/-- An instruction that drives balls: only with `DBG_EN` asserted and the device in DARK, else BYPASS in its place. -/
def Dev.jtagDrive (d : Dev) (i : JtagIns) (dbgEn : Bool) : Dev :=
  let d := { d with supply := { d.supply with dbgEn := dbgEn } }
  if dbgEn && d.mode == .dark then
    let d := d.jtagSet i
    if i == .clamp then d.jtagOut 0
    else
      let (d, v) := d.fresh
      d.jtagOut v
  else d.jtagBypass

end Sys2Proof.Machine
end

