-- ==== Sys2Proof/Machine/Meanings.lean ====
section
/-!
DEFINITION. Machine/Meanings.lean: the meaning of each command, one definition per constructor of `Instr`, each a call of the operation that the chapter files define.
-/
namespace Sys2Proof.Machine

/-! ### Chapters 1 and 3: supplies and device states -/

/-- VBAT_APPLIED (R26). -/
def execVbatApplied (t : Nat) (s : State) : Host.Outcome State Fault Refusal := s.run t fun d => d.vbatOn
/-- VBAT_REMOVED (R471). -/
def execVbatRemoved (t : Nat) (s : State) : Host.Outcome State Fault Refusal := s.run t fun d => d.vbatOff
/-- VAUX_APPLIED (R26). -/
def execVauxApplied (t : Nat) (b : BootIn) (s : State) : Host.Outcome State Fault Refusal := s.run t fun d => d.vauxOn b
/-- VAUX_REMOVED (R26). -/
def execVauxRemoved (t : Nat) (s : State) : Host.Outcome State Fault Refusal := s.run t fun d => d.vauxOff
/-- POWER_ON (R87). -/
def execPowerOn (t : Nat) (b : BootIn) (s : State) : Host.Outcome State Fault Refusal := s.run t fun d => d.powerOn b
/-- MAIN_RAILS_LOST (R27). -/
def execMainRailsLost (t : Nat) (s : State) : Host.Outcome State Fault Refusal := s.run t fun d => d.railsOff
/-- RESET_N_ASSERTED (R26). -/
def execResetNAsserted (t : Nat) (b : BootIn) (s : State) : Host.Outcome State Fault Refusal := s.run t fun d => d.resetN b
/-- ENTER_RUN (R165). -/
def execEnterRun (t : Nat) (s : State) : Host.Outcome State Fault Refusal := s.run t fun d => d.autoRun

/-! ### Chapter 4: images -/

/-- BOOT_SLOT_LOAD (R90). -/
def execBootSlotLoad (t : Nat) (damaged : Bool) (s : State) : Host.Outcome State Fault Refusal := s.run t fun d => d.bootLoad damaged
/-- STRUCTURE_BUILT (R87). -/
def execStructureBuilt (t : Nat) (s : State) : Host.Outcome State Fault Refusal := s.run t fun d => d.structBuilt
/-- SPLICE (R97). -/
def execSplice (t : Nat) (link : Fin 4) (codeErr : Bool) (frame : List Byte) (s : State) : Host.Outcome State Fault Refusal := s.run t fun d => d.onPeer link pfSplice codeErr frame fun d p => d.spliceRx link p
/-- RX_SESSION_TIMEOUT (R96). -/
def execRxSessionTimeout (t : Nat) (s : State) : Host.Outcome State Fault Refusal := s.run t fun d => d.rxTimeout
/-- SLOT_WRITE_DONE (R99). -/
def execSlotWriteDone (t : Nat) (fail : Option Nat) (s : State) : Host.Outcome State Fault Refusal := s.run t fun d => d.slotWritten fail
/-- KEY_FUSE_DONE (R93). -/
def execKeyFuseDone (t : Nat) (ok : Bool) (back : List Byte) (valid : Bool) (s : State) : Host.Outcome State Fault Refusal := s.run t fun d => d.keyFuses ok back valid
/-- COMMIT_FUSES_DONE (R94). -/
def execCommitFusesDone (t : Nat) (s : State) : Host.Outcome State Fault Refusal := s.run t fun d => d.commitFuses
/-- CUT_READY (R103). -/
def execCutReady (t : Nat) (link : Fin 4) (codeErr : Bool) (frame : List Byte) (s : State) : Host.Outcome State Fault Refusal := s.run t fun d => d.onPeer link pfCutReady codeErr frame fun d p => d.cutReport link p
/-- SHADOW_BUILT (R103). -/
def execShadowBuilt (t : Nat) (damaged : Bool) (s : State) : Host.Outcome State Fault Refusal := s.run t fun d => d.shadowBuilt damaged
/-- CUT_MISSED (R103). -/
def execCutMissed (t : Nat) (s : State) : Host.Outcome State Fault Refusal := s.run t fun d => d.cutLate
/-- CUTOVER (R104). -/
def execCutover (t : Nat) (s : State) : Host.Outcome State Fault Refusal := s.run t fun d => d.cutover
/-- ACTIVATE_BUILD_DONE (R107). -/
def execActivateBuildDone (t : Nat) (damaged : Bool) (s : State) : Host.Outcome State Fault Refusal := s.run t fun d => d.activateBuilt damaged
/-- FORCE_SHADOW_BUILT (R107). -/
def execForceShadowBuilt (t : Nat) (damaged : Bool) (s : State) : Host.Outcome State Fault Refusal := s.run t fun d => d.forceBuilt damaged
/-- WRAP_COMPLETE (R465). -/
def execWrapComplete (t : Nat) (s : State) : Host.Outcome State Fault Refusal := s.run t fun d => d.wrapComplete

/-! ### Chapter 5: links and rings -/

/-- CYCLE_BOUNDARY (R149). -/
def execCycleBoundary (t : Nat) (s : State) : Host.Outcome State Fault Refusal := s.run t fun d => d.cycleBoundary
/-- NODE_FRAME_RECEIVE (R132). -/
def execNodeFrameReceive (t : Nat) (port : Fin 128) (cycle pos : Nat) (codeErr : Bool) (frame : List Byte) (s : State) : Host.Outcome State Fault Refusal :=
  s.run t fun d => d.nodeFrame port cycle pos codeErr frame
/-- FRAME_HOLD_DEADLINE (R132). -/
def execFrameHoldDeadline (t : Nat) (ring : Fin 64) (cycle addr ntype : Nat) (s : State) : Host.Outcome State Fault Refusal := s.run t fun d => d.holdDeadline ring cycle addr ntype
/-- CYC_RETURN (R116). -/
def execCycReturn (t : Nat) (ring : Fin 64) (rot : Fin 2) (delay : Nat) (s : State) : Host.Outcome State Fault Refusal := s.run t fun d => d.cycReturn ring rot delay
/-- RING_LONG (R116). -/
def execRingLong (t : Nat) (ring : Fin 64) (s : State) : Host.Outcome State Fault Refusal := s.run t fun d => d.ringLong ring
/-- RING_BREAK (R135). -/
def execRingBreak (t : Nat) (ring : Fin 64) (s : State) : Host.Outcome State Fault Refusal := s.run t fun d => d.ringBreak ring
/-- RING_RESTORED (R135). -/
def execRingRestored (t : Nat) (ring : Fin 64) (s : State) : Host.Outcome State Fault Refusal := s.run t fun d => d.ringRestored ring
/-- CYC_RECEIVE (R114). -/
def execCycReceive (t : Nat) (ring : Fin 64) (rot orig : Fin 2) (s : State) : Host.Outcome State Fault Refusal := s.run t fun d => d.cycReceive ring rot orig
/-- CMD_OVERRUN (R145). -/
def execCmdOverrun (t : Nat) (ring : Fin 64) (qid : Nat) (s : State) : Host.Outcome State Fault Refusal := s.run t fun d => d.cmdOverrun ring qid
/-- ENUM_REPLY (R131). -/
def execEnumReply (t : Nat) (ring : Fin 64) (addr : Nat) (data : List Byte) (s : State) : Host.Outcome State Fault Refusal := s.run t fun d => d.enumReply ring addr data
/-- ENUM_END (R131). -/
def execEnumEnd (t : Nat) (ring : Fin 64) (s : State) : Host.Outcome State Fault Refusal := s.run t fun d => d.enumFinish ring
/-- LNK_PORT_LOS (R147). -/
def execLnkPortLos (t : Nat) (port : Fin 128) (s : State) : Host.Outcome State Fault Refusal := s.run t fun d => d.portLos port
/-- LNK_PORT_SYNC_GAINED (R147). -/
def execLnkPortSyncGained (t : Nat) (port : Fin 128) (s : State) : Host.Outcome State Fault Refusal := s.run t fun d => d.portSync port

/-! ### Chapter 6: the timebase -/

/-- PTP_EVENT_RECEIVE (R154). -/
def execPtpEventReceive (t : Nat) (port : Fin 4) (kind value : Nat) (s : State) : Host.Outcome State Fault Refusal := s.run t fun d => d.ptpEvent port kind value
/-- PTP_ANNOUNCE_RECEIVE (R154). -/
def execPtpAnnounceReceive (t : Nat) (port : Fin 4) (dataset : List Nat) (utc : Option Int) (leap61 leap59 malformed : Bool) (s : State) : Host.Outcome State Fault Refusal :=
  s.run t fun d => d.ptpAnnounce port dataset utc leap61 leap59 malformed
/-- PTP_SOURCE_TIMEOUT (R154). -/
def execPtpSourceTimeout (t : Nat) (port : Fin 4) (s : State) : Host.Outcome State Fault Refusal := s.run t fun d => d.ptpTimeout port
/-- PTP_MESSAGE_SEND (R155). -/
def execPtpMessageSend (t : Nat) (port : Fin 4) (kind : Nat) (s : State) : Host.Outcome State Fault Refusal := s.run t fun d => d.ptpSend port kind
/-- PPS_EDGE (R154). -/
def execPpsEdge (t : Nat) (s : State) : Host.Outcome State Fault Refusal := s.run t fun d => d.ppsEdge.updClass
/-- PPS_EDGE_MISSING (R154). -/
def execPpsEdgeMissing (t : Nat) (s : State) : Host.Outcome State Fault Refusal := s.run t fun d => d.ppsMissing.updClass
/-- SLEW_COMPLETE (R158). -/
def execSlewComplete (t : Nat) (s : State) : Host.Outcome State Fault Refusal := s.run t fun d => d.endSlew.tbLock.updClass
/-- HOLDOVER_SECOND (R162). -/
def execHoldoverSecond (t : Nat) (s : State) : Host.Outcome State Fault Refusal := s.run t fun d => d.holdSecond
/-- TCOMP_LEARN (R161). -/
def execTcompLearn (t : Nat) (s : State) : Host.Outcome State Fault Refusal := s.run t fun d => d.tcompLearn
/-- REF_FAIL (R152). -/
def execRefFail (t : Nat) (deviation : Nat) (s : State) : Host.Outcome State Fault Refusal := s.run t fun d => d.refFail deviation
/-- REF10_LOST (R152). -/
def execRef10Lost (t : Nat) (s : State) : Host.Outcome State Fault Refusal := s.run t fun d => d.ref10Lost
/-- REF10_RESTORED (R151). -/
def execRef10Restored (t : Nat) (s : State) : Host.Outcome State Fault Refusal := s.run t fun d => d.ref10Back
/-- SLATE_SYNC_EDGE (R167). -/
def execSlateSyncEdge (t : Nat) (dev : Int) (s : State) : Host.Outcome State Fault Refusal := s.run t fun d => d.syncEdge dev
/-- SYNC_LOST (R168). -/
def execSyncLost (t : Nat) (s : State) : Host.Outcome State Fault Refusal := s.run t fun d => d.syncLost
/-- BOARD_MASTER_ELECTION (R166). -/
def execBoardMasterElection (t : Nat) (s : State) : Host.Outcome State Fault Refusal := s.run t fun d => d.masterAbsent
/-- BOARD_TIME (R167). -/
def execBoardTime (t : Nat) (link : Fin 4) (codeErr : Bool) (frame : List Byte) (s : State) : Host.Outcome State Fault Refusal := s.run t fun d =>
  match d.peerRx link pfBoardTime codeErr frame with
  | (d, some p) => d.boardTime link p
  | (d, none) => d
/-- TWTT (R168). -/
def execTwtt (t : Nat) (link : Fin 4) (codeErr : Bool) (frame : List Byte) (s : State) : Host.Outcome State Fault Refusal := s.run t fun d =>
  match d.peerRx link pfTwtt codeErr frame with
  | (d, some p) => d.twttFrame link p
  | (d, none) => d
/-- TIMEBASE_STEP (R159). -/
def execTimebaseStep (t : Nat) (s : State) : Host.Outcome State Fault Refusal := s.run t fun d => d.timeStep

/-! ### Chapter 7: the sweep -/

/-- SWP_SAMPLE_PACKET (R177). -/
def execSwpSamplePacket (t : Nat) (ring : Fin 64) (qid : Nat) (s : State) : Host.Outcome State Fault Refusal := s.run t fun d => d.swpPacket ring qid
/-- OPEN_WIRE_EVALUATE (R190). -/
def execOpenWireEvaluate (t : Nat) (ring : Fin 64) (take : Nat) (s : State) : Host.Outcome State Fault Refusal := s.run t fun d => d.owEvaluate ring take
/-- BAL_QUIET (R196). -/
def execBalQuiet (t : Nat) (s : State) : Host.Outcome State Fault Refusal := s.run t fun d => d.balQuiet
/-- BAL_PLAN (R198). -/
def execBalPlan (t : Nat) (s : State) : Host.Outcome State Fault Refusal := s.run t fun d => d.balPlan
/-- BAL_CLOSE (R199). -/
def execBalClose (t : Nat) (s : State) : Host.Outcome State Fault Refusal := s.run t fun d => d.balClose
/-- NODE_WAKE (R202). -/
def execNodeWake (t : Nat) (port : Fin 128) (s : State) : Host.Outcome State Fault Refusal := s.run t fun d => d.nodeWake port

/-! ### Chapter 9: the estimator -/

/-- EST_INPUT_ITEM (R233). -/
def execEstInputItem (t : Nat) (ring : Fin 64) (qid : Nat) (s : State) : Host.Outcome State Fault Refusal := s.run t fun d => d.estInput ring qid
/-- TAKE_CLOSURE (R233). -/
def execTakeClosure (t : Nat) (ring : Fin 64) (s : State) : Host.Outcome State Fault Refusal := s.run t fun d => d.takeClosure ring

/-! ### Chapter 10: the loop engine -/

/-- LPE_INPUT_ITEM (R266). -/
def execLpeInputItem (t : Nat) (ctx : Fin 512) (qid : Nat) (s : State) : Host.Outcome State Fault Refusal := s.run t fun d => d.lpeInput ctx qid
/-- SAT_EXPIRED (R279). -/
def execSatExpired (t : Nat) (ctx : Fin 512) (s : State) : Host.Outcome State Fault Refusal := s.run t fun d => d.lpeExpire ctx
/-- MEASUREMENT_LOST (R278). -/
def execMeasurementLost (t : Nat) (ctx : Fin 512) (s : State) : Host.Outcome State Fault Refusal := s.run t fun d => d.lpeLose ctx
/-- TICK_SKIP (R270): A tick that falls due while the context still waits (R270). -/
def execTickSkip (t : Nat) (ctx : Fin 512) (s : State) : Host.Outcome State Fault Refusal := s.run t fun d => if d.live && d.blocked (0x5000 + ctx) then d.lpeSkip ctx else d

/-! ### Chapter 11: dispatch -/

/-- DSP_INPUT_RECORD (R288). -/
def execDspInputRecord (t : Nat) (qid : Nat) (s : State) : Host.Outcome State Fault Refusal := s.run t fun d => d.dspInput qid
/-- DSP_CAN_INPUT (R289). -/
def execDspCanInput (t : Nat) (qid : Nat) (s : State) : Host.Outcome State Fault Refusal := s.run t fun d => d.dspCan qid
/-- DSP_MIRROR (R294). -/
def execDspMirror (t : Nat) (link : Fin 4) (codeErr : Bool) (frame : List Byte) (s : State) : Host.Outcome State Fault Refusal := s.run t fun d => d.dspMirror link codeErr frame
/-- DSP_UNMIRRORED (R294). -/
def execDspUnmirrored (t : Nat) (s : State) : Host.Outcome State Fault Refusal := s.run t fun d => d.dspUnmirrored
/-- DERATE_GRACE_EXPIRY (R299). -/
def execDerateGraceExpiry (t : Nat) (string : Fin 256) (s : State) : Host.Outcome State Fault Refusal := s.run t fun d => d.derateExpire string
/-- DSP_WATCHDOG (R297). -/
def execDspWatchdog (t : Nat) (s : State) : Host.Outcome State Fault Refusal := s.run t fun d => d.dspWatch
/-- FFR_ACTIVE (R296). -/
def execFfrActive (t : Nat) (s : State) : Host.Outcome State Fault Refusal := s.run t fun d => d.ffrStart
/-- FFR_END (R296). -/
def execFfrEnd (t : Nat) (s : State) : Host.Outcome State Fault Refusal := s.run t fun d => d.ffrEnd
/-- FREQ_LOST (R296). -/
def execFreqLost (t : Nat) (s : State) : Host.Outcome State Fault Refusal := s.run t fun d => d.ffrLost

/-! ### Chapter 12: the Tripwire -/

/-- TRW_FRAME_ACCEPT (R310). -/
def execTrwFrameAccept (t : Nat) (port : Fin 128) (cycle pos : Nat) (codeErr : Bool) (frame : List Byte) (s : State) : Host.Outcome State Fault Refusal :=
  s.run t fun d => d.trwFrame port cycle pos codeErr frame
/-- TRW_NOT_DELIVERED (R311). -/
def execTrwNotDelivered (t : Nat) (ring : Fin 64) (cycle addr ntype : Nat) (s : State) : Host.Outcome State Fault Refusal := s.run t fun d => d.trwLate ring cycle addr ntype
/-- ESTOP_FIRE_INPUT (R319). -/
def execEstopFireInput (t : Nat) (input : Fin 8) (level : Bool) (s : State) : Host.Outcome State Fault Refusal := s.run t fun d => d.trwInput input level
/-- SAFETY_FRAME_RECEIVE (R322). -/
def execSafetyFrameReceive (t : Nat) (port : Fin 2) (payload : List Byte) (s : State) : Host.Outcome State Fault Refusal := s.run t fun d => d.trwSafety port payload
/-- SF_SINGLE (R322). -/
def execSfSingle (t : Nat) (seq : Nat) (s : State) : Host.Outcome State Fault Refusal := s.run t fun d => d.sfSingle seq
/-- SF_TIMEOUT (R322). -/
def execSfTimeout (t : Nat) (s : State) : Host.Outcome State Fault Refusal := s.run t fun d => d.sfTimeout
/-- FEEDBACK_MISMATCH (R320). -/
def execFeedbackMismatch (t : Nat) (output : Fin 6) (s : State) : Host.Outcome State Fault Refusal := s.run t fun d => d.trwMismatch output
/-- TRW_STORE_CHECK (R324). -/
def execTrwStoreCheck (t : Nat) (found : Nat) (uncorrectable : Bool) (s : State) : Host.Outcome State Fault Refusal := s.run t fun d => d.trwStore found uncorrectable
/-- TEST_STEP_LIMIT (R328). -/
def execTestStepLimit (t : Nat) (s : State) : Host.Outcome State Fault Refusal := s.run t fun d => d.testLimitOut
/-- TEST_DUE (R328). -/
def execTestDue (t : Nat) (string : Fin 256) (s : State) : Host.Outcome State Fault Refusal := s.run t fun d => d.testDue string
/-- TRIP_FB_CHANGE (R320). -/
def execTripFbChange (t : Nat) (output : Fin 6) (level : Bool) (s : State) : Host.Outcome State Fault Refusal := s.run t fun d => d.trwFeedback output level

/-! ### Chapter 8: the queue fabric -/

/-- QF_OPEN (R216). -/
def execQfOpen (t : Nat) (req qid : Nat) (value : Item) (s : State) : Host.Outcome State Fault Refusal := s.run t fun d => d.hostPush req qid (withHead value)
/-- QF_APPEND (R216). -/
def execQfAppend (t : Nat) (req qid : Nat) (value : Item) (s : State) : Host.Outcome State Fault Refusal := s.run t fun d => d.hostPush req qid (noHead value)
/-- QF_CLOSE (R217). -/
def execQfClose (t : Nat) (req qid : Nat) (value : Item) (s : State) : Host.Outcome State Fault Refusal := s.run t fun d => d.hostPush req qid (withHead value)
/-- QF_PUSH_SINGLE (R216). -/
def execQfPushSingle (t : Nat) (req qid : Nat) (value : Item) (s : State) : Host.Outcome State Fault Refusal := s.run t fun d => d.hostPush req qid (noHead value)
/-- QF_POP (R210). -/
def execQfPop (t : Nat) (req qid : Nat) (s : State) : Host.Outcome State Fault Refusal := s.run t fun d => d.hostPop req qid
/-- DOORBELL_LOW_WRITE (R208): The low word waits for the high one (R208). -/
def execDoorbellLowWrite (t : Nat) (req _qid : Nat) (value : Word) (s : State) : Host.Outcome State Fault Refusal := s.run t fun d =>
  (d.setRq req { d.rq req with held := some value.toNat }).emit (.status req 0)
/-- DOORBELL_HIGH_READ (R208). -/
def execDoorbellHighRead (t : Nat) (req qid : Nat) (s : State) : Host.Outcome State Fault Refusal := s.run t fun d => d.emit (.half req qid (BitVec.ofNat 32 (d.rq req).high))
/-- HOST_POP_TIMEOUT (R210). -/
def execHostPopTimeout (t : Nat) (req : Nat) (s : State) : Host.Outcome State Fault Refusal := s.run t fun d => d.hostPopLimit req
/-- QF_CUT (R219). -/
def execQfCut (t : Nat) (req qid : Nat) (s : State) : Host.Outcome State Fault Refusal := s.run t fun d => d.hostCmd req qid 1
/-- QF_ABORT (R219). -/
def execQfAbort (t : Nat) (req qid : Nat) (s : State) : Host.Outcome State Fault Refusal := s.run t fun d => d.hostCmd req qid 2
/-- QF_RELEASE (R224). -/
def execQfRelease (t : Nat) (req qid : Nat) (s : State) : Host.Outcome State Fault Refusal := s.run t fun d => d.hostCmd req qid 3
/-- QF_FLUSH (R230). -/
def execQfFlush (t : Nat) (req qid : Nat) (s : State) : Host.Outcome State Fault Refusal := s.run t fun d => d.hostCmd req qid 4
/-- LOCK_RECLAIM_PRODUCER (R222). -/
def execLockReclaimProducer (t : Nat) (qid : Nat) (s : State) : Host.Outcome State Fault Refusal := s.run t fun d => d.reclaimProd qid
/-- LOCK_RECLAIM_CONSUMER (R223). -/
def execLockReclaimConsumer (t : Nat) (qid : Nat) (s : State) : Host.Outcome State Fault Refusal := s.run t fun d => d.reclaimCons qid
/-- QSTAT_READ (R221). -/
def execQstatRead (t : Nat) (req qid : Nat) (s : State) : Host.Outcome State Fault Refusal := s.run t fun d =>
  let (d, w) := d.qstatRead req qid
  d.emit (.word req (0x1000000 + 8 * qid) (BitVec.ofNat 32 w))
/-- QSTAT_WM_CLEAR (R221). -/
def execQstatWmClear (t : Nat) (req qid : Nat) (s : State) : Host.Outcome State Fault Refusal := s.run t fun d =>
  let (d, st) := d.qstatWrite req qid true false
  d.emit (.status req st)
/-- QSTAT_LOSS_CLEAR (R215). -/
def execQstatLossClear (t : Nat) (req qid : Nat) (s : State) : Host.Outcome State Fault Refusal := s.run t fun d =>
  let (d, st) := d.qstatWrite req qid false true
  d.emit (.status req st)
/-- STALL_WARN (R228). -/
def execStallWarn (t : Nat) (qid : Nat) (s : State) : Host.Outcome State Fault Refusal := s.run t fun d => d.stallWarn qid
/-- QF_ECC_UNCORRECTABLE (R229). -/
def execQfEccUncorrectable (t : Nat) (qid pos : Nat) (descriptor : Bool) (s : State) : Host.Outcome State Fault Refusal := s.run t fun d => d.qfEcc qid pos descriptor

/-! ### Chapter 13: the triads -/

/-- VOTER_COMPARE (R334). -/
def execVoterCompare (t : Nat) (tr : Fin 4) (ents : List CEntry) (s : State) : Host.Outcome State Fault Refusal := s.run t fun d => if d.unitRuns tr 0 then d.judge tr ents else d
/-- LANE_SILENT (R334). -/
def execLaneSilent (t : Nat) (tr : Fin 4) (lane : Nat) (pc : Word) (s : State) : Host.Outcome State Fault Refusal := s.run t fun d =>
  if d.unitRuns tr 0 then d.silent tr lane pc.toNat else d
/-- LANE_SELFTEST_DONE (R340). -/
def execLaneSelftestDone (t : Nat) (tr : Fin 4) (lane : Nat) (pass : Bool) (s : State) : Host.Outcome State Fault Refusal := s.run t fun d => d.selfTest tr lane pass
/-- TRD_WDOG_EXPIRY (R339). -/
def execTrdWdogExpiry (t : Nat) (tr : Fin 4) (l : Fin 3) (s : State) : Host.Outcome State Fault Refusal := s.run t fun d => d.wdogExpire tr l
/-- BUS_LOCK_REVOKE (R347). -/
def execBusLockRevoke (t : Nat) (s : State) : Host.Outcome State Fault Refusal := s.run t fun d => d.lockLimit
/-- DEBUG_HALT (R349). -/
def execDebugHalt (t : Nat) (tr : Fin 4) (lane : Nat) (dbgEn : Bool) (s : State) : Host.Outcome State Fault Refusal := s.run t fun d =>
  let (d, ok) := d.dbgPort tr dbgEn
  if ok then d.debugHalt tr lane else d
/-- DEBUG_RESUME (R349). -/
def execDebugResume (t : Nat) (tr : Fin 4) (lane : Nat) (dbgEn : Bool) (s : State) : Host.Outcome State Fault Refusal := s.run t fun d =>
  let (d, ok) := d.dbgPort tr dbgEn
  if ok then d.debugResume tr lane false else d
/-- DEBUG_COMMAND (R348). -/
def execDebugCommand (t : Nat) (tr : Fin 4) (lane op addr : Nat) (value : Word) (dbgEn : Bool) (s : State) : Host.Outcome State Fault Refusal := s.run t fun d =>
  let (d, ok) := d.dbgPort tr dbgEn
  if ok then d.dbgOp tr lane op addr value else d

/-! ### Chapter 14: the instruction set -/

section
variable (t : Nat) (tr : Fin 4) (l : Fin 6)
/-- ADD (R356). -/
def execAdd (rd ra rb : Fin 32) (s : State) : Host.Outcome State Fault Refusal := s.run t fun d => d.alu2 tr l 1 rd ra rb fun a b => a + b
/-- SUB (R356). -/
def execSub (rd ra rb : Fin 32) (s : State) : Host.Outcome State Fault Refusal := s.run t fun d => d.alu2 tr l 2 rd ra rb fun a b => a - b
/-- ADDO (R356). -/
def execAddo (rd ra rb : Fin 32) (s : State) : Host.Outcome State Fault Refusal := s.run t fun d =>
  d.alu tr l (wR 0 rd ra rb 3) rd fun c => (c.rd ra + c.rd rb, ovOf ((c.rd ra).toInt + (c.rd rb).toInt))
/-- SUBO (R356). -/
def execSubo (rd ra rb : Fin 32) (s : State) : Host.Outcome State Fault Refusal := s.run t fun d =>
  d.alu tr l (wR 0 rd ra rb 4) rd fun c => (c.rd ra - c.rd rb, ovOf ((c.rd ra).toInt - (c.rd rb).toInt))
/-- NEG (R356). -/
def execNeg (rd ra : Fin 32) (s : State) : Host.Outcome State Fault Refusal := s.run t fun d =>
  d.alu tr l (wR 0 rd ra 0 5) rd fun c => (0#32 - c.rd ra, ovMin (c.rd ra))
/-- ABS (R356). -/
def execAbs (rd ra : Fin 32) (s : State) : Host.Outcome State Fault Refusal := s.run t fun d =>
  d.alu tr l (wR 0 rd ra 0 6) rd fun c => (if (c.rd ra).toInt < 0 then 0#32 - c.rd ra else c.rd ra, ovMin (c.rd ra))
/-- AND (R356). -/
def execAnd (rd ra rb : Fin 32) (s : State) : Host.Outcome State Fault Refusal := s.run t fun d => d.alu2 tr l 8 rd ra rb fun a b => a &&& b
/-- OR (R356). -/
def execOr (rd ra rb : Fin 32) (s : State) : Host.Outcome State Fault Refusal := s.run t fun d => d.alu2 tr l 9 rd ra rb fun a b => a ||| b
/-- XOR (R356). -/
def execXor (rd ra rb : Fin 32) (s : State) : Host.Outcome State Fault Refusal := s.run t fun d => d.alu2 tr l 0xA rd ra rb fun a b => a ^^^ b
/-- NOR (R356). -/
def execNor (rd ra rb : Fin 32) (s : State) : Host.Outcome State Fault Refusal := s.run t fun d => d.alu2 tr l 0xB rd ra rb fun a b => ~~~(a ||| b)
/-- ANDN (R356). -/
def execAndn (rd ra rb : Fin 32) (s : State) : Host.Outcome State Fault Refusal := s.run t fun d => d.alu2 tr l 0xC rd ra rb fun a b => a &&& ~~~b
/-- SLL (R356). -/
def execSll (rd ra rb : Fin 32) (s : State) : Host.Outcome State Fault Refusal := s.run t fun d => d.alu2 tr l 0x10 rd ra rb fun a b => aluSll a b
/-- SRL (R356). -/
def execSrl (rd ra rb : Fin 32) (s : State) : Host.Outcome State Fault Refusal := s.run t fun d => d.alu2 tr l 0x11 rd ra rb fun a b => aluSrl a b
/-- SRA (R356). -/
def execSra (rd ra rb : Fin 32) (s : State) : Host.Outcome State Fault Refusal := s.run t fun d => d.alu2 tr l 0x12 rd ra rb fun a b => aluSra a b
/-- ROR (R356). -/
def execRor (rd ra rb : Fin 32) (s : State) : Host.Outcome State Fault Refusal := s.run t fun d => d.alu2 tr l 0x13 rd ra rb fun a b => aluRor a b
/-- ROL (R356). -/
def execRol (rd ra rb : Fin 32) (s : State) : Host.Outcome State Fault Refusal := s.run t fun d => d.alu2 tr l 0x14 rd ra rb fun a b => aluRol a b
/-- SLT (R356). -/
def execSlt (rd ra rb : Fin 32) (s : State) : Host.Outcome State Fault Refusal := s.run t fun d => d.alu2 tr l 0x18 rd ra rb fun a b => wordOf (decide (a.toInt < b.toInt))
/-- SLTU (R356). -/
def execSltu (rd ra rb : Fin 32) (s : State) : Host.Outcome State Fault Refusal := s.run t fun d => d.alu2 tr l 0x19 rd ra rb fun a b => wordOf (decide (a.toNat < b.toNat))
/-- MIN (R356). -/
def execMin (rd ra rb : Fin 32) (s : State) : Host.Outcome State Fault Refusal := s.run t fun d => d.alu2 tr l 0x1A rd ra rb fun a b => if b.toInt < a.toInt then b else a
/-- MAX (R356). -/
def execMax (rd ra rb : Fin 32) (s : State) : Host.Outcome State Fault Refusal := s.run t fun d => d.alu2 tr l 0x1B rd ra rb fun a b => if a.toInt < b.toInt then b else a
/-- MINU (R356). -/
def execMinu (rd ra rb : Fin 32) (s : State) : Host.Outcome State Fault Refusal := s.run t fun d => d.alu2 tr l 0x1C rd ra rb fun a b => if b.toNat < a.toNat then b else a
/-- MAXU (R356). -/
def execMaxu (rd ra rb : Fin 32) (s : State) : Host.Outcome State Fault Refusal := s.run t fun d => d.alu2 tr l 0x1D rd ra rb fun a b => if a.toNat < b.toNat then b else a
/-- MUL (R356). -/
def execMul (rd ra rb : Fin 32) (s : State) : Host.Outcome State Fault Refusal := s.run t fun d => d.alu2 tr l 0x20 rd ra rb fun a b => a * b
/-- MULH (R356). -/
def execMulh (rd ra rb : Fin 32) (s : State) : Host.Outcome State Fault Refusal := s.run t fun d => d.alu2 tr l 0x21 rd ra rb fun a b => aluMulh a b
/-- MULHU (R356). -/
def execMulhu (rd ra rb : Fin 32) (s : State) : Host.Outcome State Fault Refusal := s.run t fun d => d.alu2 tr l 0x22 rd ra rb fun a b => aluMulhu a b
/-- DIV (R360). -/
def execDiv (rd ra rb : Fin 32) (s : State) : Host.Outcome State Fault Refusal := s.run t fun d =>
  d.alu tr l (wR 0 rd ra rb 0x24) rd fun c => (aluDiv (c.rd ra) (c.rd rb), divFlag (c.rd ra) (c.rd rb))
/-- DIVU (R360). -/
def execDivu (rd ra rb : Fin 32) (s : State) : Host.Outcome State Fault Refusal := s.run t fun d =>
  d.alu tr l (wR 0 rd ra rb 0x25) rd fun c => (aluDivu (c.rd ra) (c.rd rb), divuFlag (c.rd rb))
/-- REM (R360). -/
def execRem (rd ra rb : Fin 32) (s : State) : Host.Outcome State Fault Refusal := s.run t fun d =>
  d.alu tr l (wR 0 rd ra rb 0x26) rd fun c => (aluRem (c.rd ra) (c.rd rb), divFlag (c.rd ra) (c.rd rb))
/-- REMU (R360). -/
def execRemu (rd ra rb : Fin 32) (s : State) : Host.Outcome State Fault Refusal := s.run t fun d =>
  d.alu tr l (wR 0 rd ra rb 0x27) rd fun c => (aluRemu (c.rd ra) (c.rd rb), divuFlag (c.rd rb))
/-- CLZ (R356). -/
def execClz (rd ra : Fin 32) (s : State) : Host.Outcome State Fault Refusal := s.run t fun d =>
  d.alu tr l (wR 0 rd ra 0 0x28) rd fun c => (BitVec.ofNat 32 (clzNat (c.rd ra).toNat 32), 0)
/-- POPC (R356). -/
def execPopc (rd ra : Fin 32) (s : State) : Host.Outcome State Fault Refusal := s.run t fun d =>
  d.alu tr l (wR 0 rd ra 0 0x29) rd fun c => (BitVec.ofNat 32 (popc (c.rd ra).toNat 32), 0)

/-! #### Table 14.4 -/

/-- ADDI (R358). -/
def execAddi (rd ra : Fin 32) (imm : BitVec 16) (s : State) : Host.Outcome State Fault Refusal := s.run t fun d => d.aluI tr l 1 rd ra imm.toNat fun a => a + imm.signExtend 32
/-- SLTI (R358). -/
def execSlti (rd ra : Fin 32) (imm : BitVec 16) (s : State) : Host.Outcome State Fault Refusal := s.run t fun d => d.aluI tr l 2 rd ra imm.toNat fun a => wordOf (decide (a.toInt < (imm.signExtend 32).toInt))
/-- SLTIU (R358). -/
def execSltiu (rd ra : Fin 32) (imm : BitVec 16) (s : State) : Host.Outcome State Fault Refusal := s.run t fun d => d.aluI tr l 3 rd ra imm.toNat fun a => wordOf (decide (a.toNat < (imm.signExtend 32).toNat))
/-- ANDI (R358). -/
def execAndi (rd ra : Fin 32) (imm : BitVec 16) (s : State) : Host.Outcome State Fault Refusal := s.run t fun d => d.aluI tr l 4 rd ra imm.toNat fun a => a &&& imm.zeroExtend 32
/-- ORI (R358). -/
def execOri (rd ra : Fin 32) (imm : BitVec 16) (s : State) : Host.Outcome State Fault Refusal := s.run t fun d => d.aluI tr l 5 rd ra imm.toNat fun a => a ||| imm.zeroExtend 32
/-- XORI (R358). -/
def execXori (rd ra : Fin 32) (imm : BitVec 16) (s : State) : Host.Outcome State Fault Refusal := s.run t fun d => d.aluI tr l 6 rd ra imm.toNat fun a => a ^^^ imm.zeroExtend 32
/-- LUI (R358). -/
def execLui (rd : Fin 32) (imm : BitVec 16) (s : State) : Host.Outcome State Fault Refusal := s.run t fun d => d.aluI tr l 7 rd 0 imm.toNat fun _ => imm.zeroExtend 32 <<< 16
/-- SLLI (R358). -/
def execSlli (rd ra : Fin 32) (n : BitVec 8) (s : State) : Host.Outcome State Fault Refusal := s.run t fun d => d.aluI tr l 8 rd ra n.toNat fun a => aluSll a (n.zeroExtend 32)
/-- SRLI (R358). -/
def execSrli (rd ra : Fin 32) (n : BitVec 8) (s : State) : Host.Outcome State Fault Refusal := s.run t fun d => d.aluI tr l 9 rd ra n.toNat fun a => aluSrl a (n.zeroExtend 32)
/-- SRAI (R358). -/
def execSrai (rd ra : Fin 32) (n : BitVec 8) (s : State) : Host.Outcome State Fault Refusal := s.run t fun d => d.aluI tr l 0xA rd ra n.toNat fun a => aluSra a (n.zeroExtend 32)
/-- RORI (R358). -/
def execRori (rd ra : Fin 32) (n : BitVec 8) (s : State) : Host.Outcome State Fault Refusal := s.run t fun d => d.aluI tr l 0xB rd ra n.toNat fun a => aluRor a (n.zeroExtend 32)

/-! #### Table 14.6: loads and stores that do not reach the Control Window -/

/-- LW (R361). -/
def execLw (rd ra : Fin 32) (imm : BitVec 16) (ecc : List (Nat × Bool)) (s : State) : Host.Outcome State Fault Refusal := s.run t fun d =>
  d.load tr l 0x10 rd ra imm 4 false ecc fun d x ea => d.busLoad tr l rd x ea
/-- LH (R361). -/
def execLh (rd ra : Fin 32) (imm : BitVec 16) (ecc : List (Nat × Bool)) (s : State) : Host.Outcome State Fault Refusal := s.run t fun d =>
  d.load tr l 0x11 rd ra imm 2 true ecc fun d x ea => d.trapIn tr l x 3 ea
/-- LHU (R361). -/
def execLhu (rd ra : Fin 32) (imm : BitVec 16) (ecc : List (Nat × Bool)) (s : State) : Host.Outcome State Fault Refusal := s.run t fun d =>
  d.load tr l 0x12 rd ra imm 2 false ecc fun d x ea => d.trapIn tr l x 3 ea
/-- LB (R361). -/
def execLb (rd ra : Fin 32) (imm : BitVec 16) (ecc : List (Nat × Bool)) (s : State) : Host.Outcome State Fault Refusal := s.run t fun d =>
  d.load tr l 0x13 rd ra imm 1 true ecc fun d x ea => d.trapIn tr l x 3 ea
/-- LBU (R361). -/
def execLbu (rd ra : Fin 32) (imm : BitVec 16) (ecc : List (Nat × Bool)) (s : State) : Host.Outcome State Fault Refusal := s.run t fun d =>
  d.load tr l 0x14 rd ra imm 1 false ecc fun d x ea => d.trapIn tr l x 3 ea
/-- SH (R361). -/
def execSh (rs ra : Fin 32) (imm : BitVec 16) (s : State) : Host.Outcome State Fault Refusal := s.run t fun d =>
  d.store tr l 0x19 rs ra imm 2 fun d x ea _ => d.trapIn tr l x 3 ea
/-- SW (R361). -/
def execSw (rs ra : Fin 32) (imm : BitVec 16) (s : State) : Host.Outcome State Fault Refusal := s.run t fun d =>
  d.store tr l 0x18 rs ra imm 4 fun d x ea v => d.busStore tr l x ea v
/-- SB (R361). -/
def execSb (rs ra : Fin 32) (imm : BitVec 16) (s : State) : Host.Outcome State Fault Refusal := s.run t fun d =>
  d.store tr l 0x1A rs ra imm 1 fun d x ea _ => d.trapIn tr l x 3 ea

/-! #### Table 14.7 -/

/-- BEQ (R362). -/
def execBeq (ra rb : Fin 32) (off : BitVec 16) (s : State) : Host.Outcome State Fault Refusal := s.run t fun d => d.branch tr l 0x20 ra rb off fun a b => a == b
/-- BNE (R362). -/
def execBne (ra rb : Fin 32) (off : BitVec 16) (s : State) : Host.Outcome State Fault Refusal := s.run t fun d => d.branch tr l 0x21 ra rb off fun a b => a != b
/-- BLT (R362). -/
def execBlt (ra rb : Fin 32) (off : BitVec 16) (s : State) : Host.Outcome State Fault Refusal := s.run t fun d => d.branch tr l 0x22 ra rb off fun a b => decide (a.toInt < b.toInt)
/-- BGE (R362). -/
def execBge (ra rb : Fin 32) (off : BitVec 16) (s : State) : Host.Outcome State Fault Refusal := s.run t fun d => d.branch tr l 0x23 ra rb off fun a b => decide (b.toInt ≤ a.toInt)
/-- BLTU (R362). -/
def execBltu (ra rb : Fin 32) (off : BitVec 16) (s : State) : Host.Outcome State Fault Refusal := s.run t fun d => d.branch tr l 0x24 ra rb off fun a b => decide (a.toNat < b.toNat)
/-- BGEU (R362). -/
def execBgeu (ra rb : Fin 32) (off : BitVec 16) (s : State) : Host.Outcome State Fault Refusal := s.run t fun d => d.branch tr l 0x25 ra rb off fun a b => decide (b.toNat ≤ a.toNat)
/-- J (R362). -/
def execJ (off : BitVec 26) (s : State) : Host.Outcome State Fault Refusal := s.run t fun d =>
  d.isa tr l (wJ 0x28 off.toNat) fun d x => d.complete tr l x (jumpTo x.core.pc off.toInt) none
/-- JAL (R362). -/
def execJal (off : BitVec 26) (s : State) : Host.Outcome State Fault Refusal := s.run t fun d =>
  d.isa tr l (wJ 0x29 off.toNat) fun d x =>
    d.complete tr l { x with core := x.core.put 31 (x.core.pc + 4#32) } (jumpTo x.core.pc off.toInt) none
/-- JALR (R362). -/
def execJalr (rd ra : Fin 32) (imm : BitVec 16) (s : State) : Host.Outcome State Fault Refusal := s.run t fun d =>
  d.isa tr l (wI 0x2A rd ra imm.toNat) fun d x =>
    let a := x.core.ea ra imm
    if a.toNat % 4 ≠ 0 then d.trapIn tr l x 2 a.toNat
    else d.complete tr l { x with core := x.core.put rd (x.core.pc + 4#32) } a none

/-! #### Table 14.8 -/

/-- QPUSH (R363). -/
def execQpush (rp ra rd : Fin 32) (s : State) : Host.Outcome State Fault Refusal := s.run t fun d => d.queueInst tr l 0 rp ra rd 0
/-- QPOP (R363). -/
def execQpop (rp ra rd : Fin 32) (s : State) : Host.Outcome State Fault Refusal := s.run t fun d => d.queueInst tr l 1 rp ra rd 0
/-- QPUSH2 (R518). -/
def execQpush2 (rp ra rd : Fin 32) (s : State) : Host.Outcome State Fault Refusal := s.run t fun d => d.queueInst tr l 6 rp ra rd 0
/-- QPOPT (R365). -/
def execQpopt (rp ra rd : Fin 32) (tmo : BitVec 8) (s : State) : Host.Outcome State Fault Refusal := s.run t fun d => d.queueInst tr l 2 rp ra rd tmo.toNat
/-- QPUSHT (R365). -/
def execQpusht (rp ra rd : Fin 32) (tmo : BitVec 8) (s : State) : Host.Outcome State Fault Refusal := s.run t fun d => d.queueInst tr l 7 rp ra rd tmo.toNat
/-- QCUT (R363). -/
def execQcut (ra rd : Fin 32) (s : State) : Host.Outcome State Fault Refusal := s.run t fun d => d.queueInst tr l 3 0 ra rd 0
/-- QABORT (R363). -/
def execQabort (ra rd : Fin 32) (s : State) : Host.Outcome State Fault Refusal := s.run t fun d => d.queueInst tr l 4 0 ra rd 0
/-- QRELEASE (R363). -/
def execQrelease (ra rd : Fin 32) (s : State) : Host.Outcome State Fault Refusal := s.run t fun d => d.queueInst tr l 5 0 ra rd 0
/-- QUEUE_WAIT_TIMEOUT (R365). -/
def execQueueWaitTimeout (s : State) : Host.Outcome State Fault Refusal := s.run t fun d => d.qLimit tr l

/-! #### Table 14.10 -/

/-- NOP (R373). -/
def execNop (s : State) : Host.Outcome State Fault Refusal := s.run t fun d => d.isa tr l (wR 0x38 0 0 0 0) fun d x => d.next tr l x
/-- MFSR (R353). -/
def execMfsr (rd sr : Fin 32) (s : State) : Host.Outcome State Fault Refusal := s.run t fun d =>
  let w := wR 0x38 rd 0 sr 1
  d.isa tr l w fun d x =>
    match d.readSr tr l x.core sr with
    | some v => d.result tr l x rd v
    | none => d.trapIn tr l x 1 w.toNat
/-- MTSR (R353). -/
def execMtsr (sr ra : Fin 32) (s : State) : Host.Outcome State Fault Refusal := s.run t fun d =>
  let w := wR 0x38 0 ra sr 2
  d.isa tr l w fun d x =>
    match x.core.writeSr sr (x.core.rd ra) with
    | some c => d.next tr l { x with core := c }
    | none => d.trapIn tr l x 1 w.toNat
/-- TBR (R366). -/
def execTbr (rd sel : Fin 32) (s : State) : Host.Outcome State Fault Refusal := s.run t fun d =>
  let w := wR 0x38 rd 0 sel 4
  d.isa tr l w fun d x =>
    match d.tbrValue x.core sel with
    | some v =>
      let c := if sel.val = 1 then { x.core with tbr := some d.now } else x.core
      d.result tr l { x with core := c } rd (BitVec.ofNat 32 v)
    | none => d.trapIn tr l x 1 w.toNat
/-- WAIT (R367). -/
def execWait (rd ra rb : Fin 32) (s : State) : Host.Outcome State Fault Refusal := s.run t fun d => d.waitInst tr l rd ra rb
/-- WAIT_WAKE (R367). -/
def execWaitWake (s : State) : Host.Outcome State Fault Refusal := s.run t fun d => d.waitWake tr l
/-- SYNCPT (R368). -/
def execSyncpt (crcOk : Bool) (s : State) : Host.Outcome State Fault Refusal := s.run t fun d => d.syncpt tr l crcOk
/-- LOCK (R369). -/
def execLock (rd : Fin 32) (s : State) : Host.Outcome State Fault Refusal := s.run t fun d => d.lockInst tr l rd
/-- UNLOCK (R369). -/
def execUnlock (rd : Fin 32) (s : State) : Host.Outcome State Fault Refusal := s.run t fun d => d.unlockInst tr l rd
/-- TRAP (R371). -/
def execTrap (code : Fin 32) (s : State) : Host.Outcome State Fault Refusal := s.run t fun d =>
  d.isa tr l (wR 0x38 0 0 code 0x18) fun d x => d.complete tr l x (x.core.pc + 4#32) (some (8, code.val))
/-- RTE (R371). -/
def execRte (s : State) : Host.Outcome State Fault Refusal := s.run t fun d =>
  let w := wR 0x38 0 0 0 0x19
  d.isa tr l w fun d x =>
    if x.core.inTrap then d.complete tr l { x with core := { x.core with inTrap := false } } x.core.epc none
    else d.trapIn tr l x 1 w.toNat
/-- HALT (R371). -/
def execHalt (s : State) : Host.Outcome State Fault Refusal := s.run t fun d =>
  d.isa tr l (wR 0x38 0 0 0 0x1A) fun d x => d.progHalt tr l x.core.pc.toNat

/-! #### Traps of the fetch (R333, R355) -/

/-- ILLEGAL_WORD: the word at the PC is no instruction. -/
def execIllegalWord (s : State) : Host.Outcome State Fault Refusal := s.run t fun d =>
  match (d.unitLane tr l).fetch with
  | some w => if wordLegal w then d else d.isa tr l w fun d x => d.trapIn tr l x 1 w.toNat
  | none => d
/-- FETCH_BUS_FAULT: the PC lies outside instruction TCM. -/
def execFetchBusFault (s : State) : Host.Outcome State Fault Refusal := s.run t fun d =>
  if !d.unitRuns tr l || d.unitWaits tr l then d
  else
    let x := d.unitLane tr l
    match x.fetch with
    | some _ => d
    | none => d.trapIn tr l x 3 x.core.pc.toNat

end

/-! #### Waits of hosts, engines and triads on queues (chapter 8) -/

/-- POP_WAIT_RESUME (R210). -/
def execPopWaitResume (t : Nat) (req qid : Nat) (s : State) : Host.Outcome State Fault Refusal := s.run t fun d => d.popResume req qid
/-- BLOCK_WAIT_RESUME (R212). -/
def execBlockWaitResume (t : Nat) (qid : Nat) (s : State) : Host.Outcome State Fault Refusal := s.run t fun d => d.blockResume qid

/-! ### Chapter 15: the second-in-step link -/

/-- PRESENCE_SEND (R379). -/
def execPresenceSend (t : Nat) (s : State) : Host.Outcome State Fault Refusal := s.run t fun d => d.presenceSend
/-- PRESENCE_RECEIVE (R379). -/
def execPresenceReceive (t : Nat) (link : Fin 4) (codeErr : Bool) (frame : List Byte) (s : State) : Host.Outcome State Fault Refusal := s.run t fun d => d.presenceRx link codeErr frame
/-- ROLE_RESOLVE_TIMEOUT (R374). -/
def execRoleResolveTimeout (t : Nat) (s : State) : Host.Outcome State Fault Refusal := s.run t fun d => d.resolve
/-- LEASE_EXPIRY (R381). -/
def execLeaseExpiry (t : Nat) (s : State) : Host.Outcome State Fault Refusal := s.run t fun d => d.leaseExpire
/-- GATES_OPEN (R381). -/
def execGatesOpen (t : Nat) (s : State) : Host.Outcome State Fault Refusal := s.run t fun d => d.gatesOpen
/-- TAKEOVER (R382). -/
def execTakeover (t : Nat) (link : Fin 4) (codeErr : Bool) (frame : List Byte) (s : State) : Host.Outcome State Fault Refusal := s.run t fun d => d.onPeer link pfTakeover codeErr frame Dev.takeoverRx
/-- PARTNER_LOST (R380). -/
def execPartnerLost (t : Nat) (s : State) : Host.Outcome State Fault Refusal := s.run t fun d => d.partnerLost
/-- STREAM_ABSENT_ORIGINATE (R383). -/
def execStreamAbsentOriginate (t : Nat) (ring : Fin 64) (s : State) : Host.Outcome State Fault Refusal := s.run t fun d => d.streamAbsent ring
/-- ACCEPT (R386). -/
def execAccept (t : Nat) (link : Fin 4) (codeErr : Bool) (frame : List Byte) (s : State) : Host.Outcome State Fault Refusal := s.run t fun d => d.onPeer link pfAccept codeErr frame Dev.acceptRx
/-- CONTENT (R386). -/
def execContent (t : Nat) (link : Fin 4) (codeErr : Bool) (frame : List Byte) (s : State) : Host.Outcome State Fault Refusal := s.run t fun d => d.onPeer link pfContent codeErr frame Dev.contentRx
/-- WANT (R386). -/
def execWant (t : Nat) (link : Fin 4) (codeErr : Bool) (frame : List Byte) (s : State) : Host.Outcome State Fault Refusal := s.run t fun d => d.onPeer link pfWant codeErr frame Dev.wantRx
/-- MIRROR_MISS (R386). -/
def execMirrorMiss (t : Nat) (ring : Fin 64) (cycle addr ntype : Nat) (s : State) : Host.Outcome State Fault Refusal := s.run t fun d => d.mirrorMiss ring cycle addr ntype
/-- COMPARE (R387). -/
def execCompare (t : Nat) (link : Fin 4) (codeErr : Bool) (frame : List Byte) (s : State) : Host.Outcome State Fault Refusal := s.run t fun d => d.onPeer link pfCompare codeErr frame Dev.compareRx
/-- STATE (R388). -/
def execState (t : Nat) (link : Fin 4) (codeErr : Bool) (frame : List Byte) (s : State) : Host.Outcome State Fault Refusal := s.run t fun d => d.onPeer link pfState codeErr frame Dev.stateRx
/-- TAKE_SYNC (R388). -/
def execTakeSync (t : Nat) (link : Fin 4) (codeErr : Bool) (frame : List Byte) (s : State) : Host.Outcome State Fault Refusal := s.run t fun d => d.onPeer link pfTakeSync codeErr frame Dev.takeSync
/-- SWITCH (R389). -/
def execSwitch (t : Nat) (link : Fin 4) (codeErr : Bool) (frame : List Byte) (s : State) : Host.Outcome State Fault Refusal := s.run t fun d => d.onPeer link pfSwitch codeErr frame Dev.switchRx
/-- SWITCH_NO_ACK (R389). -/
def execSwitchNoAck (t : Nat) (s : State) : Host.Outcome State Fault Refusal := s.run t fun d => d.switchNoAck
/-- SWITCH_BOUNDARY (R389). -/
def execSwitchBoundary (t : Nat) (s : State) : Host.Outcome State Fault Refusal := s.run t fun d => d.switchAtK
/-- NOTE (R391). -/
def execNote (t : Nat) (link : Fin 4) (codeErr : Bool) (frame : List Byte) (s : State) : Host.Outcome State Fault Refusal := s.run t fun d => d.onPeer link pfNote codeErr frame Dev.noteRx
/-- PEER_DOWN (R392). -/
def execPeerDown (t : Nat) (link : Fin 4) (alignment : Bool) (s : State) : Host.Outcome State Fault Refusal := s.run t fun d => d.peerDown link alignment
/-- LEASE_SET_RECEIVE (R379). -/
def execLeaseSetReceive (t : Nat) (ring : Fin 64) (_rot : Fin 2) (delay : Nat) (s : State) : Host.Outcome State Fault Refusal := s.run t fun d =>
  d.leaseSet ring delay
/-- PEER_UP (R392). -/
def execPeerUp (t : Nat) (link : Fin 4) (s : State) : Host.Outcome State Fault Refusal := s.run t fun d => d.peerAligned link

/-! ### Chapter 16: the network -/

/-- ETH_FRAME_RECEIVE (R423). -/
def execEthFrameReceive (t : Nat) (port : Fin 4) (frame : List Byte) (s : State) : Host.Outcome State Fault Refusal := s.run t fun d => d.ethRx port frame
/-- ETH_LINK_CHANGE (R435). -/
def execEthLinkChange (t : Nat) (port : Fin 4) (up : Bool) (speed : Fin 4) (s : State) : Host.Outcome State Fault Refusal := s.run t fun d => d.ethLink port up speed
/-- PRP_SUPERVISION_SEND (R425). -/
def execPrpSupervisionSend (t : Nat) (pair : Fin 2) (s : State) : Host.Outcome State Fault Refusal := s.run t fun d => d.prpSupervise pair
/-- PRP_PATH_SILENT (R427). -/
def execPrpPathSilent (t : Nat) (port : Fin 4) (s : State) : Host.Outcome State Fault Refusal := s.run t fun d => d.prpSilent port
/-- MACSEC_TX_SWITCH (R429). -/
def execMacsecTxSwitch (t : Nat) (port : Fin 4) (s : State) : Host.Outcome State Fault Refusal := s.run t fun d => d.macSwitch port
/-- MACSEC_OLD_RX_REMOVE (R429). -/
def execMacsecOldRxRemove (t : Nat) (port : Fin 4) (s : State) : Host.Outcome State Fault Refusal := s.run t fun d => d.macRemove port
/-- EGRESS_UNIT_TAKE (R432). -/
def execEgressUnitTake (t : Nat) (port : Fin 4) (qid : Nat) (s : State) : Host.Outcome State Fault Refusal := s.run t fun d => d.egTake port qid
/-- TELEMETRY_FLUSH (R433). -/
def execTelemetryFlush (t : Nat) (binding : Fin 32) (s : State) : Host.Outcome State Fault Refusal := s.run t fun d => d.egDue binding
/-- SF_STATUS_SEND (R322). -/
def execSfStatusSend (t : Nat) (s : State) : Host.Outcome State Fault Refusal := s.run t fun d => d.sfSend

/-! ### Chapter 16: the host -/

/-- CWP_IDLE_TIMEOUT (R414). -/
def execCwpIdleTimeout (t : Nat) (session : Fin 64) (s : State) : Host.Outcome State Fault Refusal := s.run t fun d => d.sessionIdle session
/-- PCIE_LINK_CHANGE (R407). -/
def execPcieLinkChange (t : Nat) (up : Bool) (speed : Fin 4) (width : Fin 4) (bme0 bme1 : Bool) (s : State) : Host.Outcome State Fault Refusal :=
  s.run t fun d => d.pcieLink up speed width (b2n bme0) (b2n bme1)
/-- PCIE_FLR (R407). -/
def execPcieFlr (t : Nat) (func : Fin 2) (s : State) : Host.Outcome State Fault Refusal := s.run t fun d => d.pcieFlr func
/-- MSIX_FIRE (R408). -/
def execMsixFire (t : Nat) (vector : Fin 64) (masked : Bool) (s : State) : Host.Outcome State Fault Refusal := s.run t fun d => d.msixFire vector masked
/-- KEY_STORE_DONE (R420). -/
def execKeyStoreDone (t : Nat) (ok : Bool) (s : State) : Host.Outcome State Fault Refusal := s.run t fun d => d.keyDone ok

/-! ### Chapter 17: field interfaces -/

/-- CAN_SLOT_END (R438). -/
def execCanSlotEnd (t : Nat) (ctrl : Fin 4) (s : State) : Host.Outcome State Fault Refusal := s.run t fun d => d.canSlotEnd ctrl
/-- CAN_FRAME_RECEIVE (R440). -/
def execCanFrameReceive (t : Nat) (ctrl : Fin 4) (id : Nat) (ide fdf brs esi : Bool) (dlc : Fin 16) (data : List Byte) (sof : Nat) (s : State) : Host.Outcome State Fault Refusal :=
  s.run t fun d => d.canReceive ctrl id ide fdf brs esi dlc data sof
/-- CAN_BUS_OFF (R441). -/
def execCanBusOff (t : Nat) (ctrl : Fin 4) (tec : Nat) (s : State) : Host.Outcome State Fault Refusal := s.run t fun d => d.canBusOff ctrl tec
/-- CAN_RECOVER (R441). -/
def execCanRecover (t : Nat) (ctrl : Fin 4) (s : State) : Host.Outcome State Fault Refusal := s.run t fun d => d.canRecover ctrl
/-- CAN_ERROR_PASSIVE (R441). -/
def execCanErrorPassive (t : Nat) (ctrl : Fin 4) (tec recv : Nat) (s : State) : Host.Outcome State Fault Refusal := s.run t fun d => d.canPassive ctrl tec recv
/-- QD_SAMPLE (R442). -/
def execQdSample (t : Nat) (qd : Fin 8) (a b z : Bool) (s : State) : Host.Outcome State Fault Refusal := s.run t fun d => d.qdSample qd a b z
/-- PWM_PERIOD_START (R445). -/
def execPwmPeriodStart (t : Nat) (pwm : Fin 16) (s : State) : Host.Outcome State Fault Refusal := s.run t fun d => d.pwmStart pwm
/-- GPIO_INPUT_CHANGE (R446). -/
def execGpioInputChange (t : Nat) (pin : Fin 16) (level : Bool) (s : State) : Host.Outcome State Fault Refusal := s.run t fun d => d.gpioChange pin level

/-! ### Chapter 18: power and thermal governor -/

/-- GRANT_RECLAIM (R453). -/
def execGrantReclaim (t : Nat) (client : Fin 140) (s : State) : Host.Outcome State Fault Refusal := s.run t fun d => d.gafReclaim client
/-- DIE_SENSOR_SAMPLE (R457). -/
def execDieSensorSample (t : Nat) (temps : List Int) (s : State) : Host.Outcome State Fault Refusal := s.run t fun d => d.sensSample temps
/-- HW_THERMAL_SHUTDOWN (R459). -/
def execHwThermalShutdown (t : Nat) (sensor : Fin 32) (s : State) : Host.Outcome State Fault Refusal := s.run t fun d => if d.hwHot.contains sensor.val then d.hwFire sensor else d
/-- HALT_FORCE (R459). -/
def execHaltForce (t : Nat) (s : State) : Host.Outcome State Fault Refusal := s.run t fun d => d.haltForce
/-- THROTTLE_GRACE_EXPIRY (R460). -/
def execThrottleGraceExpiry (t : Nat) (s : State) : Host.Outcome State Fault Refusal := s.run t fun d => d.graceOut
/-- THROTTLE_STEP (R460). -/
def execThrottleStep (t : Nat) (s : State) : Host.Outcome State Fault Refusal := s.run t fun d => d.throttleStep
/-- THROTTLE_RELEASE_STEP (R460). -/
def execThrottleReleaseStep (t : Nat) (s : State) : Host.Outcome State Fault Refusal := s.run t fun d => d.throttleRelease
/-- COMPENSATION_UPDATE (R461). -/
def execCompensationUpdate (t : Nat) (s : State) : Host.Outcome State Fault Refusal := s.run t fun d => d.compensate
/-- HEAT_POOL_EVALUATE (R462). -/
def execHeatPoolEvaluate (t : Nat) (s : State) : Host.Outcome State Fault Refusal := s.run t fun d => d.heatAll
/-- SHUTDOWN_REQ (R463). -/
def execShutdownReq (t : Nat) (s : State) : Host.Outcome State Fault Refusal := s.run t fun d => d.shutdownReq
/-- PWR_GOOD_FALL (R463). -/
def execPwrGoodFall (t : Nat) (s : State) : Host.Outcome State Fault Refusal := s.run t fun d => d.pwrFall
/-- WRAP_STRING_STEP (R464). -/
def execWrapStringStep (t : Nat) (string : Fin 256) (s : State) : Host.Outcome State Fault Refusal := s.run t fun d => (d.wrapStep string).wrapShow
/-- WRAP_HOLD_T (R464). -/
def execWrapHoldT (t : Nat) (s : State) : Host.Outcome State Fault Refusal := s.run t fun d => d.wrapHoldT.wrapShow
/-- WRAP_OPEN_TIMEOUT (R464). -/
def execWrapOpenTimeout (t : Nat) (string : Fin 256) (s : State) : Host.Outcome State Fault Refusal := s.run t fun d => d.wrapOpenOut string
/-- WRAP_LIMIT (R465). -/
def execWrapLimit (t : Nat) (s : State) : Host.Outcome State Fault Refusal := s.run t fun d => d.wrapLimitOut
/-- IMMEDIATE_SHUTDOWN (R468). -/
def execImmediateShutdown (t : Nat) (s : State) : Host.Outcome State Fault Refusal := s.run t fun d => d.immRun
/-- FLD_INPUT_DEBOUNCE (R447). -/
def execFldInputDebounce (t : Nat) (input : Fin 8) (level : Bool) (s : State) : Host.Outcome State Fault Refusal := s.run t fun d =>
  let (d, w) := d.inputChange input level
  if w then d.askWrap 6 else d

/-! ### Chapter 20: the debug port -/

/-- BYPASS (R507). -/
def execBypass (t : Nat) (s : State) : Host.Outcome State Fault Refusal := s.run t fun d => d.jtagBypass
/-- IDCODE (R507). -/
def execIdcode (t : Nat) (s : State) : Host.Outcome State Fault Refusal := s.run t fun d => (d.jtagSet .idcode).jtagOut Config.idcode.toNat
/-- SAMPLE_PRELOAD (R507). -/
def execSamplePreload (t : Nat) (s : State) : Host.Outcome State Fault Refusal := s.run t fun d => d.jtagSample
/-- EXTEST (R507). -/
def execExtest (t : Nat) (dbgEn : Bool) (s : State) : Host.Outcome State Fault Refusal := s.run t fun d => d.jtagDrive .extest dbgEn
/-- CLAMP (R507). -/
def execClamp (t : Nat) (dbgEn : Bool) (s : State) : Host.Outcome State Fault Refusal := s.run t fun d => d.jtagDrive .clamp dbgEn
/-- INTEST (R507). -/
def execIntest (t : Nat) (dbgEn : Bool) (s : State) : Host.Outcome State Fault Refusal := s.run t fun d => d.jtagDrive .intest dbgEn

/-! ### Chapter 19: the watch island -/

/-- WAKE_PIN (R472). -/
def execWakePin (t : Nat) (pin : Fin 4) (s : State) : Host.Outcome State Fault Refusal := s.run t fun d => d.wakePin pin
/-- RTC_ALARM (R472). -/
def execRtcAlarm (t : Nat) (s : State) : Host.Outcome State Fault Refusal := s.run t fun d => d.rtcAlarm
/-- VBAT_LOW (R471). -/
def execVbatLow (t : Nat) (s : State) : Host.Outcome State Fault Refusal := s.run t fun d => d.vbatLow
/-- TONE_DETECT (R475). -/
def execToneDetect (t : Nat) (port : Fin 128) (s : State) : Host.Outcome State Fault Refusal := s.run t fun d => d.toneDetect port
/-- DAILY (R473). -/
def execDaily (t : Nat) (adc : List (List Nat)) (pins : Nat) (t30 t31 : Int) (s : State) : Host.Outcome State Fault Refusal := s.run t fun d => d.dailyRun adc pins t30 t31
/-- RTC_COMPENSATION (R478). -/
def execRtcCompensation (t : Nat) (t30 t31 : Int) (s : State) : Host.Outcome State Fault Refusal := s.run t fun d => d.rtcComp t30 t31
/-- RTC_UPDATE (R152). -/
def execRtcUpdate (t : Nat) (s : State) : Host.Outcome State Fault Refusal := s.run t fun d => d.rtcUpdate

/-! ### Chapter 19: the tag -/

/-- TAG_RF_READ (R486). -/
def execTagRfRead (t : Nat) (cmd : Nat) (uid : Option Nat) (sel : Bool) (block n : Nat) (s : State) : Host.Outcome State Fault Refusal := s.run t fun d => d.tagRead cmd uid sel block n
/-- TAG_RF_WRITE (R488). -/
def execTagRfWrite (t : Nat) (cmd : Nat) (uid : Option Nat) (sel : Bool) (block : Nat) (data : List Byte) (s : State) : Host.Outcome State Fault Refusal :=
  s.run t fun d => d.tagWrite cmd uid sel block data
/-- TAG_RF_COMMAND (R486). -/
def execTagRfCommand (t : Nat) (cmd : Nat) (uid : Option Nat) (sel : Bool) (maskLen mask : Nat) (s : State) : Host.Outcome State Fault Refusal :=
  s.run t fun d => d.tagOther cmd uid sel maskLen mask
/-- TAG_FIELD_LOSS (R488). -/
def execTagFieldLoss (t : Nat) (s : State) : Host.Outcome State Fault Refusal := s.run t fun d => d.tagFieldLoss
/-- TAG_RF_IDLE (R488). -/
def execTagRfIdle (t : Nat) (s : State) : Host.Outcome State Fault Refusal := s.run t fun d => d.tagIdle
/-- TAG_COMMIT (R487). -/
def execTagCommit (t : Nat) (page : Fin 32) (busy : Bool) (s : State) : Host.Outcome State Fault Refusal := s.run t fun d => d.tagCommit page busy
/-- TAG_REFRESH (R489). -/
def execTagRefresh (t : Nat) (s : State) : Host.Outcome State Fault Refusal := s.run t fun d => d.tagRefresh

/-! ### Chapter 19: the persistent store -/

/-- RECORD_WRITE_DONE (R480). -/
def execRecordWriteDone (t : Nat) (bb : Bool) (copy0 copy1 : NvProg) (s : State) : Host.Outcome State Fault Refusal := s.run t fun d => d.writeDone bb copy0 copy1
/-- PST_SCRUB (R481). -/
def execPstScrub (t : Nat) (found : List (Nat × Nat)) (s : State) : Host.Outcome State Fault Refusal := s.run t fun d => d.scrub found

/-! ### Register writes and reads (chapter 16) -/

/-- REGISTER_WRITE (R14). -/
def execRegisterWrite (t : Nat) (req off : Nat) (value : Word) (be : BitVec 4) (s : State) : Host.Outcome State Fault Refusal := s.run t fun d => d.hostWrite req off value be
/-- RC_READ (R13). -/
def execRcRead (t : Nat) (req off : Nat) (s : State) : Host.Outcome State Fault Refusal := s.run t fun d => d.hostRead req off
/-- FULLTIME_NS_READ (R51). -/
def execFulltimeNsRead (t : Nat) (req off : Nat) (s : State) : Host.Outcome State Fault Refusal := s.run t fun d => d.hostRead req off
/-- WIDE_LOW_READ (R402). -/
def execWideLowRead (t : Nat) (req off : Nat) (s : State) : Host.Outcome State Fault Refusal := s.run t fun d => d.hostRead req off
/-- GLB_GO (R421). -/
def execGlbGo (t : Nat) (req : Nat) (s : State) : Host.Outcome State Fault Refusal := s.run t fun d => d.hostWrite req 0x14 1#32
/-- GLB_WRAP (R463). -/
def execGlbWrap (t : Nat) (req : Nat) (s : State) : Host.Outcome State Fault Refusal := s.run t fun d => d.hostWrite req 0x14 2#32
/-- GLB_MSIX_ARM (R408). -/
def execGlbMsixArm (t : Nat) (req : Nat) (vector : Fin 64) (value : Word) (masked : Bool) (s : State) : Host.Outcome State Fault Refusal := s.run t fun d =>
  (d.hostWrite req (0x300 + 4 * vector) (value ||| 1#32)).msixFire vector masked
/-- GLB_MSIX_MAP (R408). -/
def execGlbMsixMap (t : Nat) (req : Nat) (vector : Fin 64) (value : Word) (s : State) : Host.Outcome State Fault Refusal := s.run t fun d => d.hostWrite req (0x200 + 4 * vector) value
/-- GLB_KEY_ENROL (R420). -/
def execGlbKeyEnrol (t : Nat) (req : Nat) (entry : Fin 64) (s : State) : Host.Outcome State Fault Refusal := s.run t fun d => d.hostWrite req 0x100 (BitVec.ofNat 32 (entry + 2 ^ 9))
/-- GLB_KEY_ERASE (R420). -/
def execGlbKeyErase (t : Nat) (req : Nat) (entry : Fin 64) (s : State) : Host.Outcome State Fault Refusal := s.run t fun d => d.hostWrite req 0x100 (BitVec.ofNat 32 (entry + 2 ^ 9 + 2 ^ 8))
/-- IMG_RX_PUSH (R96). -/
def execImgRxPush (t : Nat) (req : Nat) (value : Word) (s : State) : Host.Outcome State Fault Refusal := s.run t fun d => d.hostWrite req 0x10040 (value ||| 1#32)
/-- IMG_RX_ABORT (R96). -/
def execImgRxAbort (t : Nat) (req : Nat) (value : Word) (s : State) : Host.Outcome State Fault Refusal := s.run t fun d => d.hostWrite req 0x10004 (value ||| 2#32)
/-- IMG_KEY_GO (R93). -/
def execImgKeyGo (t : Nat) (req : Nat) (value : Word) (s : State) : Host.Outcome State Fault Refusal := s.run t fun d => d.hostWrite req 0x100A4 (value ||| 1#32)
/-- IMG_COMMIT (R94). -/
def execImgCommit (t : Nat) (req : Nat) (value : Word) (s : State) : Host.Outcome State Fault Refusal := s.run t fun d => d.hostWrite req 0x10004 (value ||| 1#32)
/-- IMG_CUT_ARM (R102). -/
def execImgCutArm (t : Nat) (req : Nat) (value : Word) (s : State) : Host.Outcome State Fault Refusal := s.run t fun d => d.hostWrite req 0x1006C (value ||| 2#32)
/-- IMG_CUT_DISARM (R105). -/
def execImgCutDisarm (t : Nat) (req : Nat) (value : Word) (s : State) : Host.Outcome State Fault Refusal := s.run t fun d => d.hostWrite req 0x10004 (value ||| 4#32)
/-- IMG_ACTIVATE (R107). -/
def execImgActivate (t : Nat) (req : Nat) (value : Word) (s : State) : Host.Outcome State Fault Refusal := s.run t fun d => d.hostWrite req 0x10080 (value ||| 4#32)
/-- LNK_RING_ENUM (R131). -/
def execLnkRingEnum (t : Nat) (req : Nat) (ring : Fin 64) (s : State) : Host.Outcome State Fault Refusal := s.run t fun d => d.hostWrite req (0x100110 + 0x2000 * ring) 1#32
/-- LNK_RING_WAKE (R147). -/
def execLnkRingWake (t : Nat) (req : Nat) (ring : Fin 64) (s : State) : Host.Outcome State Fault Refusal := s.run t fun d => d.hostWrite req (0x100110 + 0x2000 * ring) 2#32
/-- LNK_RING_SLEEP (R202). -/
def execLnkRingSleep (t : Nat) (req : Nat) (ring : Fin 64) (s : State) : Host.Outcome State Fault Refusal := s.run t fun d => d.hostWrite req (0x100110 + 0x2000 * ring) 4#32
/-- LNK_PORT_ENABLE (R147). -/
def execLnkPortEnable (t : Nat) (req : Nat) (port : Fin 128) (enable : Bool) (s : State) : Host.Outcome State Fault Refusal := s.run t fun d => d.hostWrite req (0x100000 + 0x1000 * port) (BitVec.ofNat 32 (b2n enable))
/-- LNK_PORT_WAKE (R147). -/
def execLnkPortWake (t : Nat) (req : Nat) (port : Fin 128) (value : Word) (s : State) : Host.Outcome State Fault Refusal := s.run t fun d => d.hostWrite req (0x100000 + 0x1000 * port) (value ||| 2#32)
/-- TB_TIME_WRITE (R159). -/
def execTbTimeWrite (t : Nat) (req : Nat) (ns : Word) (s : State) : Host.Outcome State Fault Refusal := s.run t fun d => d.hostWrite req 0x20000 ns
/-- TB_UTC_SET (R170). -/
def execTbUtcSet (t : Nat) (req : Nat) (value : Word) (s : State) : Host.Outcome State Fault Refusal := s.run t fun d => d.hostWrite req 0x20064 value
/-- SWP_OW_CLEAR (R192). -/
def execSwpOwClear (t : Nat) (req : Nat) (value : Word) (s : State) : Host.Outcome State Fault Refusal := s.run t fun d => d.hostWrite req 0x180018 value
/-- RESET_IMP (R260). -/
def execResetImp (t : Nat) (req : Nat) (ch : Fin 131072) (s : State) : Host.Outcome State Fault Refusal := s.run t fun d => d.hostWrite req (0x10000050 + 1024 * ch) 1#32
/-- RESET_CAP (R260). -/
def execResetCap (t : Nat) (req : Nat) (ch : Fin 131072) (s : State) : Host.Outcome State Fault Refusal := s.run t fun d => d.hostWrite req (0x10000050 + 1024 * ch) 2#32
/-- RESET_EFC (R260). -/
def execResetEfc (t : Nat) (req : Nat) (ch : Fin 131072) (s : State) : Host.Outcome State Fault Refusal := s.run t fun d => d.hostWrite req (0x10000050 + 1024 * ch) 4#32
/-- ANCHOR_FULL (R260). -/
def execAnchorFull (t : Nat) (req : Nat) (ch : Fin 131072) (s : State) : Host.Outcome State Fault Refusal := s.run t fun d => d.hostWrite req (0x10000050 + 1024 * ch) 8#32
/-- ANCHOR_EMPTY (R260). -/
def execAnchorEmpty (t : Nat) (req : Nat) (ch : Fin 131072) (s : State) : Host.Outcome State Fault Refusal := s.run t fun d => d.hostWrite req (0x10000050 + 1024 * ch) 16#32
/-- REPORT_NOW (R260). -/
def execReportNow (t : Nat) (req : Nat) (ch : Fin 131072) (s : State) : Host.Outcome State Fault Refusal := s.run t fun d => d.hostWrite req (0x10000050 + 1024 * ch) 32#32
/-- LPE_RESUME (R279). -/
def execLpeResume (t : Nat) (req : Nat) (ctx : Fin 512) (s : State) : Host.Outcome State Fault Refusal := s.run t fun d => d.hostWrite req (0x200018 + 0x800 * ctx) 1#32
/-- LPE_FORCE_SAFE (R279). -/
def execLpeForceSafe (t : Nat) (req : Nat) (ctx : Fin 512) (s : State) : Host.Outcome State Fault Refusal := s.run t fun d => d.hostWrite req (0x200018 + 0x800 * ctx) 2#32
/-- LPE_RESET_X (R285). -/
def execLpeResetX (t : Nat) (req : Nat) (ctx : Fin 512) (s : State) : Host.Outcome State Fault Refusal := s.run t fun d => d.hostWrite req (0x200018 + 0x800 * ctx) 4#32
/-- DSP_SRC_WRITE (R297). -/
def execDspSrcWrite (t : Nat) (req : Nat) (value : Word) (s : State) : Host.Outcome State Fault Refusal := s.run t fun d => d.hostWrite req 0x80004 value
/-- TRW_STR_RESET (R314). -/
def execTrwStrReset (t : Nat) (req : Nat) (string : Fin 256) (s : State) : Host.Outcome State Fault Refusal := s.run t fun d => d.hostWrite req (0x7100C + 16 * string) 1#32
/-- TRW_RESET_GLOBAL (R314). -/
def execTrwResetGlobal (t : Nat) (req : Nat) (s : State) : Host.Outcome State Fault Refusal := s.run t fun d => d.hostWrite req 0x70004 1#32
/-- TRW_CFG_WRITE (R321). -/
def execTrwCfgWrite (t : Nat) (req off : Nat) (value : Word) (s : State) : Host.Outcome State Fault Refusal := s.run t fun d => if isTrwCfg off then d.hostWrite req off value else d
/-- P_PERMIT_WRITE (R316). -/
def execPPermitWrite (t : Nat) (req : Nat) (ring : Fin 64) (head : Fin 8) (bank : Fin 4) (value : Word) (s : State) : Host.Outcome State Fault Refusal := s.run t fun d => d.hostWrite req (0x78000 + 0x80 * ring + 0x10 * head + 4 * bank) value
/-- TRW_P_TRIP_WRITE (R320). -/
def execTrwPTripWrite (t : Nat) (req : Nat) (value : Word) (s : State) : Host.Outcome State Fault Refusal := s.run t fun d => d.hostWrite req 0x70034 value
/-- TRW_TEST_GO (R327). -/
def execTrwTestGo (t : Nat) (req : Nat) (string : Fin 256) (s : State) : Host.Outcome State Fault Refusal := s.run t fun d => d.hostWrite req 0x70040 (BitVec.ofNat 32 (string + 2 ^ 8))
/-- TRW_TEST_ABORT (R328). -/
def execTrwTestAbort (t : Nat) (req : Nat) (s : State) : Host.Outcome State Fault Refusal := s.run t fun d => d.hostWrite req 0x70040 0x200#32
/-- TRD_READMIT (R340). -/
def execTrdReadmit (t : Nat) (req : Nat) (tr : Fin 4) (lane : Fin 4) (s : State) : Host.Outcome State Fault Refusal := s.run t fun d => d.hostWrite req (0x400004 + 0x100000 * tr) (BitVec.ofNat 32 (lane + 4))
/-- TRD_READMIT_CANCEL (R341). -/
def execTrdReadmitCancel (t : Nat) (req : Nat) (tr : Fin 4) (s : State) : Host.Outcome State Fault Refusal := s.run t fun d => d.hostWrite req (0x400004 + 0x100000 * tr) 8#32
/-- TRD_RESTART (R342). -/
def execTrdRestart (t : Nat) (req : Nat) (tr : Fin 4) (lanes : Fin 8) (s : State) : Host.Outcome State Fault Refusal := s.run t fun d => d.hostWrite req (0x400008 + 0x100000 * tr) (BitVec.ofNat 32 (lanes + 8))
/-- TRD_WDOG_KICK (R339). -/
def execTrdWdogKick (t : Nat) (req : Nat) (tr : Fin 4) (value : Word) (s : State) : Host.Outcome State Fault Refusal := s.run t fun d => d.hostWrite req (0x400010 + 0x100000 * tr) value
/-- TRD_WDOG_WRITE (R339). -/
def execTrdWdogWrite (t : Nat) (req : Nat) (tr : Fin 4) (value : Word) (s : State) : Host.Outcome State Fault Refusal := s.run t fun d => d.hostWrite req (0x40000C + 0x100000 * tr) value
/-- SIN_SWITCH (R389). -/
def execSinSwitch (t : Nat) (req : Nat) (s : State) : Host.Outcome State Fault Refusal := s.run t fun d => d.hostWrite req 0x60014 1#32
/-- SWITCH_ABORT (R389). -/
def execSwitchAbort (t : Nat) (req : Nat) (s : State) : Host.Outcome State Fault Refusal := s.run t fun d => d.hostWrite req 0x60014 2#32
/-- FLD_QD_SET (R444). -/
def execFldQdSet (t : Nat) (req : Nat) (qd : Fin 8) (value : Word) (s : State) : Host.Outcome State Fault Refusal := s.run t fun d => d.hostWrite req (0xA0814 + 32 * qd) value
/-- FLD_QD_ERRCNT (R443). -/
def execFldQdErrcnt (t : Nat) (req : Nat) (qd : Fin 8) (value : Word) (s : State) : Host.Outcome State Fault Refusal := s.run t fun d => d.hostWrite req (0xA0804 + 32 * qd) value
/-- FLD_PWM_HOST (R445). -/
def execFldPwmHost (t : Nat) (req : Nat) (pwm : Fin 16) (value : Word) (s : State) : Host.Outcome State Fault Refusal := s.run t fun d => d.hostWrite req (0xA0A04 + 16 * pwm) value
/-- FLD_GPIO_OUT (R446). -/
def execFldGpioOut (t : Nat) (req : Nat) (value : Word) (s : State) : Host.Outcome State Fault Refusal := s.run t fun d => d.hostWrite req 0xA0C04 value
/-- GAF_CAP (R455). -/
def execGafCap (t : Nat) (req : Nat) (client : Fin 140) (value : Word) (s : State) : Host.Outcome State Fault Refusal := s.run t fun d => d.hostWrite req (0x3040C + 16 * client) value
/-- GAF_SENS_RESTORE (R457). -/
def execGafSensRestore (t : Nat) (req : Nat) (sensor : Fin 32) (s : State) : Host.Outcome State Fault Refusal := s.run t fun d => d.hostWrite req 0x31100 (BitVec.ofNat 32 (sensor + 2 ^ 8))
/-- WCH_RELEASE (R472). -/
def execWchRelease (t : Nat) (req : Nat) (value : Word) (s : State) : Host.Outcome State Fault Refusal := s.run t fun d => d.hostWrite req 0x40008 (value ||| 1#32)
/-- PST_BB_SEL (R485). -/
def execPstBbSel (t : Nat) (req : Nat) (value : Word) (s : State) : Host.Outcome State Fault Refusal := s.run t fun d => d.hostWrite req 0x50208 value
/-- PST_TAG_COMMIT (R490). -/
def execPstTagCommit (t : Nat) (req : Nat) (value : Word) (s : State) : Host.Outcome State Fault Refusal := s.run t fun d => d.hostWrite req 0x50300 (value ||| 0x100#32)

/-! ### The Control Window Protocol (chapter 16) -/

/-- CWP_REQUEST (R412). -/
def execCwpRequest (t : Nat) (port : Fin 4) (s : State) : Host.Outcome State Fault Refusal := s.run t fun d => d.cwpServe port fun k => k != 3 && k != 5
/-- CWP_OPEN (R414). -/
def execCwpOpen (t : Nat) (port : Fin 4) (s : State) : Host.Outcome State Fault Refusal := s.run t fun d => d.cwpServe port fun k => k == 3
/-- CWP_CLOSE (R414). -/
def execCwpClose (t : Nat) (port : Fin 4) (s : State) : Host.Outcome State Fault Refusal := s.run t fun d => d.cwpServe port fun k => k == 5

end Sys2Proof.Machine
end

