-- ==== Sys2Proof/Machine/Dispatch.lean ====
section
/-!
DEFINITION. Machine/Dispatch.lean: the meaning of each command, one arm per constructor.
-/
namespace Sys2Proof.Machine

open Sys2Proof

/-- The effect of a command on everything but the queue of waiting commands. -/
def exec (i : Instr) (s : State) : Host.Outcome State Fault Refusal :=
  match i with
  | .vbatApplied t => Sys2Proof.Machine.execVbatApplied t s
  | .vauxApplied t b => Sys2Proof.Machine.execVauxApplied t b s
  | .vauxRemoved t => Sys2Proof.Machine.execVauxRemoved t s
  | .powerOn t b => Sys2Proof.Machine.execPowerOn t b s
  | .mainRailsLost t => Sys2Proof.Machine.execMainRailsLost t s
  | .resetNAsserted t b => Sys2Proof.Machine.execResetNAsserted t b s
  | .bootSlotLoad t damaged => Sys2Proof.Machine.execBootSlotLoad t damaged s
  | .structureBuilt t => Sys2Proof.Machine.execStructureBuilt t s
  | .enterRun t => Sys2Proof.Machine.execEnterRun t s
  | .glbGo t req => Sys2Proof.Machine.execGlbGo t req s
  | .glbWrap t req => Sys2Proof.Machine.execGlbWrap t req s
  | .cycleBoundary t => Sys2Proof.Machine.execCycleBoundary t s
  | .cmdOverrun t ring qid => Sys2Proof.Machine.execCmdOverrun t ring qid s
  | .nodeFrameReceive t port cycle pos codeErr frame => Sys2Proof.Machine.execNodeFrameReceive t port cycle pos codeErr frame s
  | .frameHoldDeadline t ring cycle addr ntype => Sys2Proof.Machine.execFrameHoldDeadline t ring cycle addr ntype s
  | .cycReturn t ring rot delay => Sys2Proof.Machine.execCycReturn t ring rot delay s
  | .ringLong t ring => Sys2Proof.Machine.execRingLong t ring s
  | .ringBreak t ring => Sys2Proof.Machine.execRingBreak t ring s
  | .ringRestored t ring => Sys2Proof.Machine.execRingRestored t ring s
  | .cycReceive t ring rot orig => Sys2Proof.Machine.execCycReceive t ring rot orig s
  | .lnkRingEnum t req ring => Sys2Proof.Machine.execLnkRingEnum t req ring s
  | .enumReply t ring addr data => Sys2Proof.Machine.execEnumReply t ring addr data s
  | .enumEnd t ring => Sys2Proof.Machine.execEnumEnd t ring s
  | .lnkRingWake t req ring => Sys2Proof.Machine.execLnkRingWake t req ring s
  | .lnkRingSleep t req ring => Sys2Proof.Machine.execLnkRingSleep t req ring s
  | .lnkPortEnable t req port enable => Sys2Proof.Machine.execLnkPortEnable t req port enable s
  | .lnkPortWake t req port value => Sys2Proof.Machine.execLnkPortWake t req port value s
  | .ptpEventReceive t port kind value => Sys2Proof.Machine.execPtpEventReceive t port kind value s
  | .ptpAnnounceReceive t port dataset utc leap61 leap59 malformed => Sys2Proof.Machine.execPtpAnnounceReceive t port dataset utc leap61 leap59 malformed s
  | .ptpSourceTimeout t port => Sys2Proof.Machine.execPtpSourceTimeout t port s
  | .ppsEdge t => Sys2Proof.Machine.execPpsEdge t s
  | .ppsEdgeMissing t => Sys2Proof.Machine.execPpsEdgeMissing t s
  | .timebaseStep t => Sys2Proof.Machine.execTimebaseStep t s
  | .slewComplete t => Sys2Proof.Machine.execSlewComplete t s
  | .tbTimeWrite t req ns => Sys2Proof.Machine.execTbTimeWrite t req ns s
  | .holdoverSecond t => Sys2Proof.Machine.execHoldoverSecond t s
  | .tcompLearn t => Sys2Proof.Machine.execTcompLearn t s
  | .refFail t deviation => Sys2Proof.Machine.execRefFail t deviation s
  | .ref10Lost t => Sys2Proof.Machine.execRef10Lost t s
  | .rtcUpdate t => Sys2Proof.Machine.execRtcUpdate t s
  | .slateSyncEdge t dev => Sys2Proof.Machine.execSlateSyncEdge t dev s
  | .syncLost t => Sys2Proof.Machine.execSyncLost t s
  | .boardMasterElection t => Sys2Proof.Machine.execBoardMasterElection t s
  | .boardTime t link codeErr frame => Sys2Proof.Machine.execBoardTime t link codeErr frame s
  | .twtt t link codeErr frame => Sys2Proof.Machine.execTwtt t link codeErr frame s
  | .tbUtcSet t req value => Sys2Proof.Machine.execTbUtcSet t req value s
  | .swpSamplePacket t ring qid => Sys2Proof.Machine.execSwpSamplePacket t ring qid s
  | .openWireEvaluate t ring take => Sys2Proof.Machine.execOpenWireEvaluate t ring take s
  | .swpOwClear t req value => Sys2Proof.Machine.execSwpOwClear t req value s
  | .balQuiet t => Sys2Proof.Machine.execBalQuiet t s
  | .balPlan t => Sys2Proof.Machine.execBalPlan t s
  | .balClose t => Sys2Proof.Machine.execBalClose t s
  | .nodeWake t port => Sys2Proof.Machine.execNodeWake t port s
  | .qfOpen t req qid value => Sys2Proof.Machine.execQfOpen t req qid value s
  | .qfAppend t req qid value => Sys2Proof.Machine.execQfAppend t req qid value s
  | .qfClose t req qid value => Sys2Proof.Machine.execQfClose t req qid value s
  | .qfPushSingle t req qid value => Sys2Proof.Machine.execQfPushSingle t req qid value s
  | .qfPop t req qid => Sys2Proof.Machine.execQfPop t req qid s
  | .doorbellLowWrite t req qid value => Sys2Proof.Machine.execDoorbellLowWrite t req qid value s
  | .doorbellHighRead t req qid => Sys2Proof.Machine.execDoorbellHighRead t req qid s
  | .hostPopTimeout t req => Sys2Proof.Machine.execHostPopTimeout t req s
  | .popWaitResume t req qid => Sys2Proof.Machine.execPopWaitResume t req qid s
  | .blockWaitResume t qid => Sys2Proof.Machine.execBlockWaitResume t qid s
  | .qfCut t req qid => Sys2Proof.Machine.execQfCut t req qid s
  | .qfAbort t req qid => Sys2Proof.Machine.execQfAbort t req qid s
  | .qfRelease t req qid => Sys2Proof.Machine.execQfRelease t req qid s
  | .qfFlush t req qid => Sys2Proof.Machine.execQfFlush t req qid s
  | .lockReclaimProducer t qid => Sys2Proof.Machine.execLockReclaimProducer t qid s
  | .lockReclaimConsumer t qid => Sys2Proof.Machine.execLockReclaimConsumer t qid s
  | .qstatRead t req qid => Sys2Proof.Machine.execQstatRead t req qid s
  | .qstatWmClear t req qid => Sys2Proof.Machine.execQstatWmClear t req qid s
  | .qstatLossClear t req qid => Sys2Proof.Machine.execQstatLossClear t req qid s
  | .stallWarn t qid => Sys2Proof.Machine.execStallWarn t qid s
  | .qfEccUncorrectable t qid pos descriptor => Sys2Proof.Machine.execQfEccUncorrectable t qid pos descriptor s
  | .estInputItem t ring qid => Sys2Proof.Machine.execEstInputItem t ring qid s
  | .takeClosure t ring => Sys2Proof.Machine.execTakeClosure t ring s
  | .resetImp t req ch => Sys2Proof.Machine.execResetImp t req ch s
  | .resetCap t req ch => Sys2Proof.Machine.execResetCap t req ch s
  | .resetEfc t req ch => Sys2Proof.Machine.execResetEfc t req ch s
  | .anchorFull t req ch => Sys2Proof.Machine.execAnchorFull t req ch s
  | .anchorEmpty t req ch => Sys2Proof.Machine.execAnchorEmpty t req ch s
  | .reportNow t req ch => Sys2Proof.Machine.execReportNow t req ch s
  | .lpeInputItem t ctx qid => Sys2Proof.Machine.execLpeInputItem t ctx qid s
  | .satExpired t ctx => Sys2Proof.Machine.execSatExpired t ctx s
  | .measurementLost t ctx => Sys2Proof.Machine.execMeasurementLost t ctx s
  | .tickSkip t ctx => Sys2Proof.Machine.execTickSkip t ctx s
  | .lpeResume t req ctx => Sys2Proof.Machine.execLpeResume t req ctx s
  | .lpeForceSafe t req ctx => Sys2Proof.Machine.execLpeForceSafe t req ctx s
  | .lpeResetX t req ctx => Sys2Proof.Machine.execLpeResetX t req ctx s
  | .dspInputRecord t qid => Sys2Proof.Machine.execDspInputRecord t qid s
  | .dspCanInput t qid => Sys2Proof.Machine.execDspCanInput t qid s
  | .dspMirror t link codeErr frame => Sys2Proof.Machine.execDspMirror t link codeErr frame s
  | .dspUnmirrored t => Sys2Proof.Machine.execDspUnmirrored t s
  | .derateGraceExpiry t string => Sys2Proof.Machine.execDerateGraceExpiry t string s
  | .dspWatchdog t => Sys2Proof.Machine.execDspWatchdog t s
  | .ffrActive t => Sys2Proof.Machine.execFfrActive t s
  | .ffrEnd t => Sys2Proof.Machine.execFfrEnd t s
  | .freqLost t => Sys2Proof.Machine.execFreqLost t s
  | .dspSrcWrite t req value => Sys2Proof.Machine.execDspSrcWrite t req value s
  | .trwFrameAccept t port cycle pos codeErr frame => Sys2Proof.Machine.execTrwFrameAccept t port cycle pos codeErr frame s
  | .trwNotDelivered t ring cycle addr ntype => Sys2Proof.Machine.execTrwNotDelivered t ring cycle addr ntype s
  | .trwStrReset t req string => Sys2Proof.Machine.execTrwStrReset t req string s
  | .trwResetGlobal t req => Sys2Proof.Machine.execTrwResetGlobal t req s
  | .estopFireInput t input level => Sys2Proof.Machine.execEstopFireInput t input level s
  | .safetyFrameReceive t port payload => Sys2Proof.Machine.execSafetyFrameReceive t port payload s
  | .sfSingle t seq => Sys2Proof.Machine.execSfSingle t seq s
  | .sfTimeout t => Sys2Proof.Machine.execSfTimeout t s
  | .sfStatusSend t => Sys2Proof.Machine.execSfStatusSend t s
  | .feedbackMismatch t output => Sys2Proof.Machine.execFeedbackMismatch t output s
  | .trwStoreCheck t found uncorrectable => Sys2Proof.Machine.execTrwStoreCheck t found uncorrectable s
  | .trwCfgWrite t req off value => Sys2Proof.Machine.execTrwCfgWrite t req off value s
  | .pPermitWrite t req ring head bank value => Sys2Proof.Machine.execPPermitWrite t req ring head bank value s
  | .trwPTripWrite t req value => Sys2Proof.Machine.execTrwPTripWrite t req value s
  | .trwTestGo t req string => Sys2Proof.Machine.execTrwTestGo t req string s
  | .trwTestAbort t req => Sys2Proof.Machine.execTrwTestAbort t req s
  | .testStepLimit t => Sys2Proof.Machine.execTestStepLimit t s
  | .testDue t string => Sys2Proof.Machine.execTestDue t string s
  | .voterCompare t tr ents => Sys2Proof.Machine.execVoterCompare t tr ents s
  | .trdReadmit t req tr lane => Sys2Proof.Machine.execTrdReadmit t req tr lane s
  | .trdReadmitCancel t req tr => Sys2Proof.Machine.execTrdReadmitCancel t req tr s
  | .laneSelftestDone t tr lane pass => Sys2Proof.Machine.execLaneSelftestDone t tr lane pass s
  | .trdRestart t req tr lanes => Sys2Proof.Machine.execTrdRestart t req tr lanes s
  | .trdWdogExpiry t tr l => Sys2Proof.Machine.execTrdWdogExpiry t tr l s
  | .trdWdogKick t req tr value => Sys2Proof.Machine.execTrdWdogKick t req tr value s
  | .trdWdogWrite t req tr value => Sys2Proof.Machine.execTrdWdogWrite t req tr value s
  | .busLockRevoke t => Sys2Proof.Machine.execBusLockRevoke t s
  | .debugHalt t tr lane dbgEn => Sys2Proof.Machine.execDebugHalt t tr lane dbgEn s
  | .debugResume t tr lane dbgEn => Sys2Proof.Machine.execDebugResume t tr lane dbgEn s
  | .debugCommand t tr lane op addr value dbgEn => Sys2Proof.Machine.execDebugCommand t tr lane op addr value dbgEn s
  | .add t tr l rd ra rb => Sys2Proof.Machine.execAdd t tr l rd ra rb s
  | .sub t tr l rd ra rb => Sys2Proof.Machine.execSub t tr l rd ra rb s
  | .addo t tr l rd ra rb => Sys2Proof.Machine.execAddo t tr l rd ra rb s
  | .subo t tr l rd ra rb => Sys2Proof.Machine.execSubo t tr l rd ra rb s
  | .neg t tr l rd ra => Sys2Proof.Machine.execNeg t tr l rd ra s
  | .abs t tr l rd ra => Sys2Proof.Machine.execAbs t tr l rd ra s
  | .and t tr l rd ra rb => Sys2Proof.Machine.execAnd t tr l rd ra rb s
  | .or t tr l rd ra rb => Sys2Proof.Machine.execOr t tr l rd ra rb s
  | .xor t tr l rd ra rb => Sys2Proof.Machine.execXor t tr l rd ra rb s
  | .nor t tr l rd ra rb => Sys2Proof.Machine.execNor t tr l rd ra rb s
  | .andn t tr l rd ra rb => Sys2Proof.Machine.execAndn t tr l rd ra rb s
  | .sll t tr l rd ra rb => Sys2Proof.Machine.execSll t tr l rd ra rb s
  | .srl t tr l rd ra rb => Sys2Proof.Machine.execSrl t tr l rd ra rb s
  | .sra t tr l rd ra rb => Sys2Proof.Machine.execSra t tr l rd ra rb s
  | .ror t tr l rd ra rb => Sys2Proof.Machine.execRor t tr l rd ra rb s
  | .rol t tr l rd ra rb => Sys2Proof.Machine.execRol t tr l rd ra rb s
  | .slt t tr l rd ra rb => Sys2Proof.Machine.execSlt t tr l rd ra rb s
  | .sltu t tr l rd ra rb => Sys2Proof.Machine.execSltu t tr l rd ra rb s
  | .min t tr l rd ra rb => Sys2Proof.Machine.execMin t tr l rd ra rb s
  | .max t tr l rd ra rb => Sys2Proof.Machine.execMax t tr l rd ra rb s
  | .minu t tr l rd ra rb => Sys2Proof.Machine.execMinu t tr l rd ra rb s
  | .maxu t tr l rd ra rb => Sys2Proof.Machine.execMaxu t tr l rd ra rb s
  | .mul t tr l rd ra rb => Sys2Proof.Machine.execMul t tr l rd ra rb s
  | .mulh t tr l rd ra rb => Sys2Proof.Machine.execMulh t tr l rd ra rb s
  | .mulhu t tr l rd ra rb => Sys2Proof.Machine.execMulhu t tr l rd ra rb s
  | .div t tr l rd ra rb => Sys2Proof.Machine.execDiv t tr l rd ra rb s
  | .divu t tr l rd ra rb => Sys2Proof.Machine.execDivu t tr l rd ra rb s
  | .rem t tr l rd ra rb => Sys2Proof.Machine.execRem t tr l rd ra rb s
  | .remu t tr l rd ra rb => Sys2Proof.Machine.execRemu t tr l rd ra rb s
  | .clz t tr l rd ra => Sys2Proof.Machine.execClz t tr l rd ra s
  | .popc t tr l rd ra => Sys2Proof.Machine.execPopc t tr l rd ra s
  | .addi t tr l rd ra imm => Sys2Proof.Machine.execAddi t tr l rd ra imm s
  | .slti t tr l rd ra imm => Sys2Proof.Machine.execSlti t tr l rd ra imm s
  | .sltiu t tr l rd ra imm => Sys2Proof.Machine.execSltiu t tr l rd ra imm s
  | .andi t tr l rd ra imm => Sys2Proof.Machine.execAndi t tr l rd ra imm s
  | .ori t tr l rd ra imm => Sys2Proof.Machine.execOri t tr l rd ra imm s
  | .xori t tr l rd ra imm => Sys2Proof.Machine.execXori t tr l rd ra imm s
  | .lui t tr l rd imm => Sys2Proof.Machine.execLui t tr l rd imm s
  | .slli t tr l rd ra n => Sys2Proof.Machine.execSlli t tr l rd ra n s
  | .srli t tr l rd ra n => Sys2Proof.Machine.execSrli t tr l rd ra n s
  | .srai t tr l rd ra n => Sys2Proof.Machine.execSrai t tr l rd ra n s
  | .rori t tr l rd ra n => Sys2Proof.Machine.execRori t tr l rd ra n s
  | .lw t tr l rd ra imm ecc => Sys2Proof.Machine.execLw t tr l rd ra imm ecc s
  | .lh t tr l rd ra imm ecc => Sys2Proof.Machine.execLh t tr l rd ra imm ecc s
  | .lhu t tr l rd ra imm ecc => Sys2Proof.Machine.execLhu t tr l rd ra imm ecc s
  | .lb t tr l rd ra imm ecc => Sys2Proof.Machine.execLb t tr l rd ra imm ecc s
  | .lbu t tr l rd ra imm ecc => Sys2Proof.Machine.execLbu t tr l rd ra imm ecc s
  | .sw t tr l rs ra imm => Sys2Proof.Machine.execSw t tr l rs ra imm s
  | .sh t tr l rs ra imm => Sys2Proof.Machine.execSh t tr l rs ra imm s
  | .sb t tr l rs ra imm => Sys2Proof.Machine.execSb t tr l rs ra imm s
  | .beq t tr l ra rb off => Sys2Proof.Machine.execBeq t tr l ra rb off s
  | .bne t tr l ra rb off => Sys2Proof.Machine.execBne t tr l ra rb off s
  | .blt t tr l ra rb off => Sys2Proof.Machine.execBlt t tr l ra rb off s
  | .bge t tr l ra rb off => Sys2Proof.Machine.execBge t tr l ra rb off s
  | .bltu t tr l ra rb off => Sys2Proof.Machine.execBltu t tr l ra rb off s
  | .bgeu t tr l ra rb off => Sys2Proof.Machine.execBgeu t tr l ra rb off s
  | .j t tr l off => Sys2Proof.Machine.execJ t tr l off s
  | .jal t tr l off => Sys2Proof.Machine.execJal t tr l off s
  | .jalr t tr l rd ra imm => Sys2Proof.Machine.execJalr t tr l rd ra imm s
  | .qpush t tr l rp ra rd => Sys2Proof.Machine.execQpush t tr l rp ra rd s
  | .qpop t tr l rp ra rd => Sys2Proof.Machine.execQpop t tr l rp ra rd s
  | .qpopt t tr l rp ra rd tmo => Sys2Proof.Machine.execQpopt t tr l rp ra rd tmo s
  | .qcut t tr l ra rd => Sys2Proof.Machine.execQcut t tr l ra rd s
  | .qabort t tr l ra rd => Sys2Proof.Machine.execQabort t tr l ra rd s
  | .qrelease t tr l ra rd => Sys2Proof.Machine.execQrelease t tr l ra rd s
  | .qpush2 t tr l rp ra rd => Sys2Proof.Machine.execQpush2 t tr l rp ra rd s
  | .qpusht t tr l rp ra rd tmo => Sys2Proof.Machine.execQpusht t tr l rp ra rd tmo s
  | .queueWaitTimeout t tr l => Sys2Proof.Machine.execQueueWaitTimeout t tr l s
  | .nop t tr l => Sys2Proof.Machine.execNop t tr l s
  | .mfsr t tr l rd sr => Sys2Proof.Machine.execMfsr t tr l rd sr s
  | .mtsr t tr l sr ra => Sys2Proof.Machine.execMtsr t tr l sr ra s
  | .tbr t tr l rd sel => Sys2Proof.Machine.execTbr t tr l rd sel s
  | .wait t tr l rd ra rb => Sys2Proof.Machine.execWait t tr l rd ra rb s
  | .waitWake t tr l => Sys2Proof.Machine.execWaitWake t tr l s
  | .syncpt t tr l crcOk => Sys2Proof.Machine.execSyncpt t tr l crcOk s
  | .lock t tr l rd => Sys2Proof.Machine.execLock t tr l rd s
  | .unlock t tr l rd => Sys2Proof.Machine.execUnlock t tr l rd s
  | .trap t tr l code => Sys2Proof.Machine.execTrap t tr l code s
  | .rte t tr l => Sys2Proof.Machine.execRte t tr l s
  | .halt t tr l => Sys2Proof.Machine.execHalt t tr l s
  | .presenceSend t => Sys2Proof.Machine.execPresenceSend t s
  | .presenceReceive t link codeErr frame => Sys2Proof.Machine.execPresenceReceive t link codeErr frame s
  | .roleResolveTimeout t => Sys2Proof.Machine.execRoleResolveTimeout t s
  | .leaseExpiry t => Sys2Proof.Machine.execLeaseExpiry t s
  | .gatesOpen t => Sys2Proof.Machine.execGatesOpen t s
  | .takeover t link codeErr frame => Sys2Proof.Machine.execTakeover t link codeErr frame s
  | .partnerLost t => Sys2Proof.Machine.execPartnerLost t s
  | .streamAbsentOriginate t ring => Sys2Proof.Machine.execStreamAbsentOriginate t ring s
  | .accept t link codeErr frame => Sys2Proof.Machine.execAccept t link codeErr frame s
  | .content t link codeErr frame => Sys2Proof.Machine.execContent t link codeErr frame s
  | .want t link codeErr frame => Sys2Proof.Machine.execWant t link codeErr frame s
  | .mirrorMiss t ring cycle addr ntype => Sys2Proof.Machine.execMirrorMiss t ring cycle addr ntype s
  | .compare t link codeErr frame => Sys2Proof.Machine.execCompare t link codeErr frame s
  | .state t link codeErr frame => Sys2Proof.Machine.execState t link codeErr frame s
  | .takeSync t link codeErr frame => Sys2Proof.Machine.execTakeSync t link codeErr frame s
  | .sinSwitch t req => Sys2Proof.Machine.execSinSwitch t req s
  | .switchAbort t req => Sys2Proof.Machine.execSwitchAbort t req s
  | .switch t link codeErr frame => Sys2Proof.Machine.execSwitch t link codeErr frame s
  | .switchNoAck t => Sys2Proof.Machine.execSwitchNoAck t s
  | .switchBoundary t => Sys2Proof.Machine.execSwitchBoundary t s
  | .note t link codeErr frame => Sys2Proof.Machine.execNote t link codeErr frame s
  | .peerDown t link alignment => Sys2Proof.Machine.execPeerDown t link alignment s
  | .peerUp t link => Sys2Proof.Machine.execPeerUp t link s
  | .cutReady t link codeErr frame => Sys2Proof.Machine.execCutReady t link codeErr frame s
  | .splice t link codeErr frame => Sys2Proof.Machine.execSplice t link codeErr frame s
  | .imgRxPush t req value => Sys2Proof.Machine.execImgRxPush t req value s
  | .rxSessionTimeout t => Sys2Proof.Machine.execRxSessionTimeout t s
  | .imgRxAbort t req value => Sys2Proof.Machine.execImgRxAbort t req value s
  | .slotWriteDone t fail => Sys2Proof.Machine.execSlotWriteDone t fail s
  | .imgKeyGo t req value => Sys2Proof.Machine.execImgKeyGo t req value s
  | .keyFuseDone t ok back valid => Sys2Proof.Machine.execKeyFuseDone t ok back valid s
  | .imgCommit t req value => Sys2Proof.Machine.execImgCommit t req value s
  | .imgCutArm t req value => Sys2Proof.Machine.execImgCutArm t req value s
  | .shadowBuilt t damaged => Sys2Proof.Machine.execShadowBuilt t damaged s
  | .cutover t => Sys2Proof.Machine.execCutover t s
  | .cutMissed t => Sys2Proof.Machine.execCutMissed t s
  | .imgCutDisarm t req value => Sys2Proof.Machine.execImgCutDisarm t req value s
  | .imgActivate t req value => Sys2Proof.Machine.execImgActivate t req value s
  | .activateBuildDone t damaged => Sys2Proof.Machine.execActivateBuildDone t damaged s
  | .ethFrameReceive t port frame => Sys2Proof.Machine.execEthFrameReceive t port frame s
  | .ethLinkChange t port up speed => Sys2Proof.Machine.execEthLinkChange t port up speed s
  | .prpSupervisionSend t pair => Sys2Proof.Machine.execPrpSupervisionSend t pair s
  | .prpPathSilent t port => Sys2Proof.Machine.execPrpPathSilent t port s
  | .macsecTxSwitch t port => Sys2Proof.Machine.execMacsecTxSwitch t port s
  | .macsecOldRxRemove t port => Sys2Proof.Machine.execMacsecOldRxRemove t port s
  | .egressUnitTake t port qid => Sys2Proof.Machine.execEgressUnitTake t port qid s
  | .telemetryFlush t binding => Sys2Proof.Machine.execTelemetryFlush t binding s
  | .cwpRequest t port => Sys2Proof.Machine.execCwpRequest t port s
  | .cwpOpen t port => Sys2Proof.Machine.execCwpOpen t port s
  | .cwpClose t port => Sys2Proof.Machine.execCwpClose t port s
  | .cwpIdleTimeout t session => Sys2Proof.Machine.execCwpIdleTimeout t session s
  | .pcieLinkChange t up speed width bme0 bme1 => Sys2Proof.Machine.execPcieLinkChange t up speed width bme0 bme1 s
  | .pcieFlr t func => Sys2Proof.Machine.execPcieFlr t func s
  | .msixFire t vector masked => Sys2Proof.Machine.execMsixFire t vector masked s
  | .glbMsixArm t req vector value masked => Sys2Proof.Machine.execGlbMsixArm t req vector value masked s
  | .glbMsixMap t req vector value => Sys2Proof.Machine.execGlbMsixMap t req vector value s
  | .glbKeyEnrol t req entry => Sys2Proof.Machine.execGlbKeyEnrol t req entry s
  | .glbKeyErase t req entry => Sys2Proof.Machine.execGlbKeyErase t req entry s
  | .keyStoreDone t ok => Sys2Proof.Machine.execKeyStoreDone t ok s
  | .fulltimeNsRead t req off => Sys2Proof.Machine.execFulltimeNsRead t req off s
  | .wideLowRead t req off => Sys2Proof.Machine.execWideLowRead t req off s
  | .registerWrite t req off value be => Sys2Proof.Machine.execRegisterWrite t req off value be s
  | .canSlotEnd t ctrl => Sys2Proof.Machine.execCanSlotEnd t ctrl s
  | .canFrameReceive t ctrl id ide fdf brs esi dlc data sof => Sys2Proof.Machine.execCanFrameReceive t ctrl id ide fdf brs esi dlc data sof s
  | .canBusOff t ctrl tec => Sys2Proof.Machine.execCanBusOff t ctrl tec s
  | .canRecover t ctrl => Sys2Proof.Machine.execCanRecover t ctrl s
  | .canErrorPassive t ctrl tec recv => Sys2Proof.Machine.execCanErrorPassive t ctrl tec recv s
  | .qdSample t qd a b z => Sys2Proof.Machine.execQdSample t qd a b z s
  | .fldQdSet t req qd value => Sys2Proof.Machine.execFldQdSet t req qd value s
  | .fldQdErrcnt t req qd value => Sys2Proof.Machine.execFldQdErrcnt t req qd value s
  | .pwmPeriodStart t pwm => Sys2Proof.Machine.execPwmPeriodStart t pwm s
  | .fldPwmHost t req pwm value => Sys2Proof.Machine.execFldPwmHost t req pwm value s
  | .gpioInputChange t pin level => Sys2Proof.Machine.execGpioInputChange t pin level s
  | .fldGpioOut t req value => Sys2Proof.Machine.execFldGpioOut t req value s
  | .fldInputDebounce t input level => Sys2Proof.Machine.execFldInputDebounce t input level s
  | .grantReclaim t client => Sys2Proof.Machine.execGrantReclaim t client s
  | .gafCap t req client value => Sys2Proof.Machine.execGafCap t req client value s
  | .dieSensorSample t temps => Sys2Proof.Machine.execDieSensorSample t temps s
  | .hwThermalShutdown t sensor => Sys2Proof.Machine.execHwThermalShutdown t sensor s
  | .haltForce t => Sys2Proof.Machine.execHaltForce t s
  | .gafSensRestore t req sensor => Sys2Proof.Machine.execGafSensRestore t req sensor s
  | .throttleGraceExpiry t => Sys2Proof.Machine.execThrottleGraceExpiry t s
  | .throttleStep t => Sys2Proof.Machine.execThrottleStep t s
  | .throttleReleaseStep t => Sys2Proof.Machine.execThrottleReleaseStep t s
  | .compensationUpdate t => Sys2Proof.Machine.execCompensationUpdate t s
  | .heatPoolEvaluate t => Sys2Proof.Machine.execHeatPoolEvaluate t s
  | .shutdownReq t => Sys2Proof.Machine.execShutdownReq t s
  | .pwrGoodFall t => Sys2Proof.Machine.execPwrGoodFall t s
  | .wrapStringStep t string => Sys2Proof.Machine.execWrapStringStep t string s
  | .wrapHoldT t => Sys2Proof.Machine.execWrapHoldT t s
  | .wrapOpenTimeout t string => Sys2Proof.Machine.execWrapOpenTimeout t string s
  | .wrapComplete t => Sys2Proof.Machine.execWrapComplete t s
  | .wrapLimit t => Sys2Proof.Machine.execWrapLimit t s
  | .immediateShutdown t => Sys2Proof.Machine.execImmediateShutdown t s
  | .wakePin t pin => Sys2Proof.Machine.execWakePin t pin s
  | .rtcAlarm t => Sys2Proof.Machine.execRtcAlarm t s
  | .wchRelease t req value => Sys2Proof.Machine.execWchRelease t req value s
  | .daily t adc pins t30 t31 => Sys2Proof.Machine.execDaily t adc pins t30 t31 s
  | .toneDetect t port => Sys2Proof.Machine.execToneDetect t port s
  | .vbatLow t => Sys2Proof.Machine.execVbatLow t s
  | .recordWriteDone t bb copy0 copy1 => Sys2Proof.Machine.execRecordWriteDone t bb copy0 copy1 s
  | .pstScrub t found => Sys2Proof.Machine.execPstScrub t found s
  | .pstBbSel t req value => Sys2Proof.Machine.execPstBbSel t req value s
  | .tagRfRead t cmd uid sel block n => Sys2Proof.Machine.execTagRfRead t cmd uid sel block n s
  | .tagRfWrite t cmd uid sel block data => Sys2Proof.Machine.execTagRfWrite t cmd uid sel block data s
  | .tagFieldLoss t => Sys2Proof.Machine.execTagFieldLoss t s
  | .tagRfIdle t => Sys2Proof.Machine.execTagRfIdle t s
  | .tagCommit t page busy => Sys2Proof.Machine.execTagCommit t page busy s
  | .tagRefresh t => Sys2Proof.Machine.execTagRefresh t s
  | .pstTagCommit t req value => Sys2Proof.Machine.execPstTagCommit t req value s
  | .bypass t => Sys2Proof.Machine.execBypass t s
  | .idcode t => Sys2Proof.Machine.execIdcode t s
  | .samplePreload t => Sys2Proof.Machine.execSamplePreload t s
  | .extest t dbgEn => Sys2Proof.Machine.execExtest t dbgEn s
  | .clamp t dbgEn => Sys2Proof.Machine.execClamp t dbgEn s
  | .intest t dbgEn => Sys2Proof.Machine.execIntest t dbgEn s
  | .vbatRemoved t => Sys2Proof.Machine.execVbatRemoved t s
  | .forceShadowBuilt t damaged => Sys2Proof.Machine.execForceShadowBuilt t damaged s
  | .ref10Restored t => Sys2Proof.Machine.execRef10Restored t s
  | .ptpMessageSend t port kind => Sys2Proof.Machine.execPtpMessageSend t port kind s
  | .lnkPortLos t port => Sys2Proof.Machine.execLnkPortLos t port s
  | .lnkPortSyncGained t port => Sys2Proof.Machine.execLnkPortSyncGained t port s
  | .tripFbChange t output level => Sys2Proof.Machine.execTripFbChange t output level s
  | .laneSilent t tr lane pc => Sys2Proof.Machine.execLaneSilent t tr lane pc s
  | .illegalWord t tr l => Sys2Proof.Machine.execIllegalWord t tr l s
  | .fetchBusFault t tr l => Sys2Proof.Machine.execFetchBusFault t tr l s
  | .leaseSetReceive t ring rot delay => Sys2Proof.Machine.execLeaseSetReceive t ring rot delay s
  | .commitFusesDone t => Sys2Proof.Machine.execCommitFusesDone t s
  | .rtcCompensation t t30 t31 => Sys2Proof.Machine.execRtcCompensation t t30 t31 s
  | .tagRfCommand t cmd uid sel maskLen mask => Sys2Proof.Machine.execTagRfCommand t cmd uid sel maskLen mask s
  | .rcRead t req off => Sys2Proof.Machine.execRcRead t req off s

end Sys2Proof.Machine
end

