-- ==== Sys2Proof/Safety.lean ====
section
/-!
DEFINITION. Safety.lean: what claims say of a device: that no output stands where the spec forbids it, that the registers tell the state, that fuses go one way.
-/
namespace Sys2Proof.Machine

/-- What the balls and the status registers show is what the device is: `STATE` is the device state, `READY` is high in RUN alone, `FAULT_N` is low in DARK and HALT and
without supply, and `TRW_OUT_STAT` holds the trip outputs (R10, R27, R320). -/
def Dev.Shown (d : Dev) : Prop :=
  d.rd Reg.GLB_STATUS_STATE = d.mode.stateCode ∧ d.pins.ready = (d.mode == .run) ∧ d.pins.faultN = (d.mainOn && !(d.mode == .dark || d.mode == .halt)) ∧
  d.rd Reg.TRW_OUT_STAT_H_LEVEL = d.pins.tripH ∧ d.rd Reg.TRW_OUT_STAT_P_LEVEL = d.pins.tripP

/-- Trip outputs are permissive only from a device that may actuate: in RUN or WRAP, with its gates open, outside an immediate shutdown (R9, R10, R27, R320, R468). -/
def Dev.TripSafe (d : Dev) : Prop :=
  (d.pins.tripH ≠ 0 ∨ d.pins.tripP ≠ 0) → d.live = true ∧ d.actRole = true ∧ d.sin.gates = true ∧ d.gaf.immediate = none

/-- The debug port drives the balls only in DARK (R507). -/
def Dev.ScanSafe (d : Dev) : Prop := d.mode ≠ .dark → d.jtag.ins.safe = d.jtag.ins

/-- No state change is left over from a command. -/
def Dev.Rested (d : Dev) : Prop := d.stReq = []

/-- A device between two commands. -/
def Dev.Settled (d : Dev) : Prop := d.Shown ∧ d.TripSafe ∧ d.ScanSafe ∧ d.Rested

/-- Fuses go one way: the anti-rollback counter never falls, a key slot once valid or revoked stays so, and a valid slot keeps its hash (R92 to R94). -/
def Otp.Grows (old new : Otp) : Prop :=
  old.rollback ≤ new.rollback ∧ new.uid = old.uid ∧
  ∀ k, k < 4 → ((old.keys.get k {}).valid = true → (new.keys.get k {}).valid = true ∧ (new.keys.get k {}).hash = (old.keys.get k {}).hash) ∧
    ((old.keys.get k {}).revoked = true → (new.keys.get k {}).revoked = true)

/-- The bounds that a device keeps to itself: the device state moves along Table 1.3. -/
def DevState.Moves (a b : DevState) : Prop := a = b ∨ a.edge b = true

/-- A command ends in a next state, with the queue as it was and a device of which something holds. -/
def Ends (c : Instr) (s : State) (p : Dev → Prop) : Prop := ∃ u, exec c s = .next u ∧ u.pending = s.pending ∧ p u.dev

/-- A unit of a triad is about to execute a word: it runs, waits for nothing, the word stands at its PC, and no lane of it is single-stepped or stands at a breakpoint
(R333, R335, R349). -/
def Dev.Stands (d : Dev) (tr l : Nat) (w : Word) : Prop :=
  d.unitRuns tr l = true ∧ d.unitWaits tr l = false ∧ (d.unitLane tr l).fetch = some w ∧
  ∀ k ∈ d.members tr l, (d.lane tr k).bps.contains (d.lane tr k).core.pc.toNat = false ∧ (d.lane tr k).step = false ∧ (d.lane tr k).skip = false

/-- What an instruction of a unit leaves (R335, R370): every lane that executes it holds the core `c` and the memories `m` of the unit, every other lane of every triad is as
before; no register changes but the PC registers, `GLB_STATUS` and `TRW_OUT_STAT`; queues, device state and the bus lock are as before. -/
def Dev.Retires (d u : Dev) (tr l : Nat) (m : Lane) (c : Core) : Prop :=
  (∀ k ∈ d.members tr l, u.lane tr k = { d.lane tr k with core := c, itcm := m.itcm, dtcm := m.dtcm }) ∧
  (∀ tr' k, (tr' ≠ tr ∨ k ∉ d.members tr l) → u.lane tr' k = d.lane tr' k) ∧
  (∀ a, (∀ k ∈ d.members tr l, a ≠ Reg.TRD_PC_PC.addr tr (k - 1)) → a ≠ 0x10 → a ≠ 0x70030 → u.word a = d.word a) ∧
  u.mode = d.mode ∧ u.qf = d.qf ∧ u.trd.lock = d.trd.lock

/-- The core of a unit after an instruction that wrote `v` to register `rd` and went on to the next word. -/
def Core.fallsTo (c : Core) (rd : Nat) (v : Word) : Core := { c.put rd v with pc := c.pc + 4#32, instret := c.instret + 1#32 }

/-- The core of a unit after an instruction that went on at an address. -/
def Core.goesTo (c : Core) (npc : Word) : Core := { c with pc := npc, instret := c.instret + 1#32 }

/-- A core with flags set. -/
def Core.flagged (c : Core) (fl : Nat) : Core := { c with flags := c.flags ||| fl }

/-- A core that has taken a trap (R371): the return address, the cause and its information are saved, and execution goes on at the vector. -/
def Core.trapped (c : Core) (ret : Word) (cause info : Nat) : Core :=
  { c with epc := ret, cause := cause, badaddr := BitVec.ofNat 32 info, inTrap := true, pc := c.tvec }

/-- An instruction completes wherever its unit stands at its word: the unit's lanes hold the core that `k` makes of the lane, the rest is as before. -/
def Executes (c : Instr) (s : State) (tr l : Nat) (w : Word) (k : Core → Core) : Prop :=
  s.dev.Stands tr l w → Ends c s fun d => s.dev.Retires d tr l (s.dev.unitLane tr l) (k (s.dev.unitLane tr l).core)

/-- No event is routed to a queue. -/
def Dev.NoEvents (d : Dev) (qid : Nat) : Prop := ∀ e, qid ∉ d.evQueues e

/-- A requester may push to a queue, or pop or cut it: it is built, R207 and R23 refuse nothing, the requester lost no lock on it, and no event is routed to it. -/
def Dev.MayUse (d : Dev) (req qid : Nat) (pop : Bool) (q : Queue) : Prop :=
  d.qf.qs.find qid = some q ∧ d.qfDenied req qid pop = 0 ∧ req ∉ q.lost ∧ d.NoEvents qid

/-- What a queue holds: its closed units, its open packet and the unit being read. -/
def Dev.Holds (d : Dev) (qid : Nat) (units : List QUnit) (openp : Option OpenPkt) (reading : Option Reading) : Prop :=
  ∃ q, d.qf.qs.find qid = some q ∧ q.units = units ∧ q.openp = openp ∧ q.reading = reading

/-- Every other queue to which no event is routed is as it was. -/
def Dev.SparesQueues (d u : Dev) (qid : Nat) : Prop := ∀ k, k ≠ qid → d.NoEvents k → u.qf.qs.find k = d.qf.qs.find k

/-- A protected requester can make accesses: the main dies run, and its session, where it needs one, is open (R22, R414). -/
def Dev.Takes (d : Dev) (req : Nat) : Prop := d.reqOk req = true ∧ d.reqProt req = true

/-- The device's own clock at a command given at device time t. -/
def Dev.ownAt (d : Dev) (t : Nat) : Nat := d.own + (t - d.now)

/-- The words that storing an event may change: the counters of the fabric, of the black box and of the watch log. -/
def evWords : List Nat :=
  [Reg.QF_CNT_DROP_CNT.addr 0 0, Reg.QF_CNT_OVERWRITE_CNT.addr 0 0, Reg.QF_CNT_CUT_CNT.addr 0 0, Reg.PST_BB_DROPPED_CNT.addr 0 0,
   Reg.WCH_LOG_COUNT.addr 0 0, Reg.WCH_LOG_OVERFLOW.addr 0 0]

/-- The registers that differ lie in the given words, in the event counters, or are the two that every command shows afresh: `GLB_STATUS` and `TRW_OUT_STAT`. -/
def Dev.OnlyWrites (d u : Dev) (ws : List Nat) : Prop := ∀ a, a ∉ ws → a ∉ evWords → a ≠ 0x10 → a ≠ 0x70030 → u.word a = d.word a

/-- The device time at a command given at device time t: it never runs backwards. -/
def Dev.nowAt (d : Dev) (t : Nat) : Nat := max t d.now

/-- A peer frame is taken (R393, R394, R396): it is whole, of the type and of a length right for it, a type its link may bring, and no copy of one taken within 256 us;
`pay` is its payload. -/
def Dev.Hears (d : Dev) (t link typ : Nat) (codeErr : Bool) (frame pay : List Byte) : Prop := ((begin_ t d).peerRx link typ codeErr frame).2 = some pay

/-- A block that the session `x` in progress, an own image's, lacks and that is not its last (R96, R98). -/
def Dev.NextBlock (d : Dev) (x : RxSession) (blk : List Byte) : Prop :=
  d.img.rx = some x ∧ x.pass = false ∧ d.rd Reg.IMG_RX_STATUS_OWN = 1 ∧ blkCrcOk blk = true ∧ blkImage blk = x.imageId ∧ blkCount blk = x.count ∧ blkNum blk < x.count ∧
  x.count ≤ 16384 ∧ x.got.contains (blkNum blk) = false ∧ x.got.length + 1 ≠ x.count

/-- The session with one block more, taken at an own-clock instant. -/
def RxSession.took (x : RxSession) (blk : List Byte) (at_ : Nat) : RxSession :=
  { x with got := blkNum blk :: x.got, blocks := x.blocks.ins (blkNum blk) blk, at_ := at_ }

/-- The outcome of a command is a next state that satisfies a property. -/
def Answers (o : Host.Outcome State Fault Refusal) (p : State → Prop) : Prop := ∃ u, o = .next u ∧ p u

end Sys2Proof.Machine
end

