-- ==== Sys2Proof/Certificates/Slice0/Obligations.lean ====
section
/-!
DEFINITION. Certificates/Slice0/Obligations.lean: what is claimed of the device, rule by rule. `Ends c s p` says that a command completes, with the queue of commands as it was and a
device of which p holds; `Executes` says it of an instruction of a triad, with what the instruction leaves unchanged.
-/
open Sys2Proof Sys2Proof.Machine

/-! ### The block as a whole -/

/-- For every state whose queue is a command c followed by q, a step is exec of c on the state with queue q. A step on an empty queue leaves the state as it is. The queue and its order are the model's frame for commands from outside (assumption logs 5 and 6). (spec/00_scope.md) -/
def Obligations.StepRunsTheFrontCommand : Prop :=
  (∀ (s : State) (c : Instr) (q : List Instr), s.pending = c :: q → step s = exec c { s with pending := q }) ∧
  (∀ s : State, s.pending = [] → step s = .next s)

/-- State.reset is in BOOT with an empty queue, no running structure, no queue, no trip output permissive, READY low and FAULT_N high, and is settled; GLB_STATUS.STATE reads 1, the CWP idle time 30, the stand-in role CONTENDING (3) and a triad watchdog period 0. (spec/01_system_operation.md, spec/16_host_access.md, spec/13_triad_complex.md, spec/18_power_thermal_wrap.md) -/
def Obligations.ResetState : Prop :=
  State.reset.pending = [] ∧ State.reset.dev.mode = .boot ∧ State.reset.dev.reel = none ∧ State.reset.dev.qf.qs = [] ∧
  State.reset.dev.pins.tripH = 0 ∧ State.reset.dev.pins.tripP = 0 ∧ State.reset.dev.pins.ready = false ∧ State.reset.dev.pins.faultN = true ∧
  State.reset.dev.rd Reg.GLB_STATUS_STATE = 1 ∧ State.reset.dev.rd Reg.GLB_CWP_CTRL_IDLE = 30 ∧ State.reset.dev.rd Reg.TRD_WDOG_PERIOD = 0 ∧
  State.reset.dev.rd Reg.SIN_STATUS_ROLE = 3 ∧ State.reset.dev.Settled

/-- For every command and state exec answers a next state, never a fault or a refusal; the queue is the one it was given, and no state change is left to be made. (spec/95_what_each_step_holds.md) -/
def Obligations.EveryCommandAnswers : Prop :=
  ∀ (c : Instr) (s : State), ∃ u, exec c s = .next u ∧ u.pending = s.pending ∧ u.dev.Rested

/-- If a state is settled and a step answers a next state, that state is settled: GLB_STATUS.STATE is the device state, READY is high in RUN alone and FAULT_N low in DARK, HALT and without supply; TRW_OUT_STAT holds the trip outputs; a trip output is permissive only in RUN or WRAP, with the role ALONE or ACTIVE, the actuating gates open and no immediate shutdown; the debug port holds a driving instruction only in DARK; no state change is pending (R9, R10, R27, R320, R507). (spec/00_scope.md, spec/01_system_operation.md, spec/12_protection.md, spec/20_electrical_package.md) -/
def Obligations.SettledIsKept : Prop :=
  ∀ s u : State, s.dev.Settled → step s = .next u → u.dev.Settled

/-- For every state and command, the device state after the command is the one before it or one that Table 1.3 allows from it, with the passages through WATCH and STANDBY that the table takes at once (R26; assumption log 43 names the passages). (spec/01_system_operation.md) -/
def Obligations.StateMovesAlongTable13 : Prop :=
  ∀ (c : Instr) (s u : State), exec c s = .next u → s.dev.mode.Moves u.dev.mode

/-- For every state and command: the anti-rollback counter does not fall; the unique identity stays; for each key slot 0 to 3, a slot that is valid stays valid with the same hash, and a revoked slot stays revoked (R92 to R94). (spec/04_startup_update.md) -/
def Obligations.FusesGoOneWay : Prop :=
  ∀ (c : Instr) (s u : State), exec c s = .next u → s.dev.img.otp.Grows u.dev.img.otp

/-- From OFF without VAUX, VBAT brings STANDBY; VBAT lost in STANDBY brings OFF. VAUX brings WATCH from OFF or STANDBY while the main rails are down; VAUX lost in WATCH brings STANDBY while VBAT lasts. In WATCH, good main rails with RESET_N released bring BOOT with the straps sampled into GLB_STATUS and no running structure; RESET_N in HALT does the same. Losing the main rails with VAUX present brings WATCH with every trip output at its trip level, READY low and no running structure (R4, R26, R27, R471). (spec/01_system_operation.md, spec/19_watch_store_tag.md) -/
def Obligations.SuppliesMoveTheState : Prop :=
  ∀ (s : State) (t : Nat) (b : BootIn),
    let booted (d : Dev) : Prop := d.mode = .boot ∧ d.reel = none ∧ d.rd Reg.GLB_STATUS_DEV_ADDR = b.devAddr ∧ d.rd Reg.GLB_STATUS_BOOT_MODE = b.bootMode ∧
      d.rd Reg.GLB_STATUS_DBG_EN = b2n b.dbgEn ∧ d.img.slots = s.dev.img.slots ∧ d.img.pref = s.dev.img.pref
    (s.dev.mode = .off → s.dev.supply.vaux = false → Ends (.vbatApplied t) s fun d => d.mode = .standby ∧ d.supply.vbat = true) ∧
    (s.dev.mode = .standby → Ends (.vbatRemoved t) s fun d => d.mode = .off ∧ d.supply.vbat = false ∧ d.pins.mainEnN = true) ∧
    (s.dev.mode = .off ∨ s.dev.mode = .standby → s.dev.supply.vaux = false → s.dev.supply.rails = false →
      Ends (.vauxApplied t b) s fun d => d.mode = .watch ∧ d.supply.vaux = true) ∧
    (s.dev.mode = .watch → s.dev.supply.vaux = true → s.dev.supply.vbat = true → Ends (.vauxRemoved t) s fun d => d.mode = .standby ∧ d.supply.vaux = false) ∧
    (s.dev.mode = .watch → Ends (.powerOn t b) s booted) ∧
    (s.dev.mode = .halt → Ends (.resetNAsserted t b) s booted) ∧
    (s.dev.mainOn = true → s.dev.supply.vaux = true →
      Ends (.mainRailsLost t) s fun d => d.mode = .watch ∧ d.reel = none ∧ d.pins.tripH = 0 ∧ d.pins.tripP = 0 ∧ d.pins.ready = false ∧ d.supply.rails = false)

/-! ### Chapter 4: images, keys, cut-over, activation -/

/-- In BOOT with one slot left to try: a slot whose image passes the load checks is accepted and the device stays in BOOT to build it; one that fails is marked INVALID, its refusal shown in IMG_REFUSE, and the device enters DARK. A boot strap of 3 enters DARK at once. The built structure of the accepted image becomes the running structure of its slot in QUIET. In QUIET with every ring enumerated and Slate lock, start policy AUTO enters RUN and start policy HOST does at a write of GLB_CTRL.GO by a protected requester; READY is high in RUN (R86, R87, R90, R165). (spec/01_system_operation.md, spec/04_startup_update.md) -/
def Obligations.BootLoadsAndEntersRun : Prop :=
  ∀ (s : State) (t req k : Nat) (damaged : Bool) (r : Reel) (e : LoadErr),
    (s.dev.mode = .boot → s.dev.img.loaded = none → s.dev.img.boot = some [k] → k < 2 → (s.dev.slot k).st = .valid →
      (s.dev.loadSlot k damaged = .inl r → Ends (.bootSlotLoad t damaged) s fun d => d.img.loaded = some (k, r) ∧ d.mode = .boot ∧ d.img.boot = none) ∧
      (s.dev.loadSlot k damaged = .inr e → Ends (.bootSlotLoad t damaged) s fun d =>
        d.mode = .dark ∧ (d.slot k).st = .invalid ∧ d.rd Reg.IMG_REFUSE_REASON = e.code % 2 ^ Reg.IMG_REFUSE_REASON.width ∧ d.rd Reg.IMG_REFUSE_INSTANCE = k ∧ d.pins.faultN = false)) ∧
    (s.dev.mode = .boot → s.dev.img.loaded = none → s.dev.img.boot = none → s.dev.rd Reg.GLB_STATUS_BOOT_MODE = 3 →
      Ends (.bootSlotLoad t damaged) s fun d => d.mode = .dark ∧ d.rd Reg.IMG_STATUS_BOOT_PATH = 2 ∧ d.img.slots = s.dev.img.slots) ∧
    (s.dev.mode = .boot → s.dev.img.loaded = some (k, r) →
      Ends (.structureBuilt t) s fun d => d.mode = .quiet ∧ d.reel = some r ∧ d.img.bootSlot = k ∧ d.img.loaded = none) ∧
    (s.dev.runReady = true → s.dev.rl.startHost = false → Ends (.enterRun t) s fun d => d.mode = .run ∧ d.pins.ready = true) ∧
    (s.dev.runReady = true → s.dev.rl.startHost = true → s.dev.Takes req → Ends (.glbGo t req) s fun d => d.mode = .run ∧ d.pins.ready = true)

/-- While the device may receive (DARK, QUIET or RUN), a block that an own session lacks joins it, with the instant of its arrival: one pushed by a protected requester with status OK in IMG_RESULT and IMG_RX_STATUS.LAST, or one in a SPLICE frame from a peer link that may bring it (any in DARK, the UPSTREAM link else). A session without a block for the timeout ends; RX_ABORT ends it with operation 6, status OK. The end of a slot write makes the slot VALID with the image's blocks, or INVALID when a block fails (R96, R97, R99). (spec/04_startup_update.md) -/
def Obligations.ImagesAreReceived : Prop :=
  ∀ (s : State) (t req k n : Nat) (v : Word) (link : Fin 4) (codeErr : Bool) (frame pay : List Byte) (x : RxSession) (bs : List (List Byte)),
    let blk := (List.range 1024).flatMap (fun j => toLe (s.dev.rd Reg.IMG_RX_BLOCK_WORD j) 4)
    (s.dev.mode = .dark ∨ s.dev.mode = .quiet ∨ s.dev.mode = .run →
      (s.dev.Takes req → s.dev.NextBlock x blk →
        Ends (.imgRxPush t req v) s fun d => d.img.rx = some (x.took blk (s.dev.ownAt t)) ∧ d.rd Reg.IMG_RX_STATUS_LAST = 0 ∧ d.rd Reg.IMG_RESULT_STATUS = 0 ∧ d.rd Reg.IMG_RESULT_OP = 1) ∧
      (s.dev.Hears t link pfSplice codeErr frame pay → s.dev.mode = .dark ∨ s.dev.rl.splice.u8 8 = link → s.dev.NextBlock x (pay.drop 2) →
        Ends (.splice t link codeErr frame) s fun d => d.img.rx = some (x.took (pay.drop 2) (s.dev.ownAt t)) ∧ d.rd Reg.IMG_RX_STATUS_LAST = 0)) ∧
    (s.dev.img.rx = some x →
      (x.at_ + max 1 (s.dev.rd Reg.IMG_RX_CTRL_TIMEOUT) * oneSec ≤ s.dev.ownAt t → Ends (.rxSessionTimeout t) s fun d => d.img.rx = none ∧ d.rd Reg.IMG_STATUS_RX_OPEN = 0) ∧
      (s.dev.Takes req → v &&& 5#32 = 0#32 → Ends (.imgRxAbort t req v) s fun d =>
        d.img.rx = none ∧ d.rd Reg.IMG_STATUS_RX_OPEN = 0 ∧ d.rd Reg.IMG_RESULT_STATUS = 0 ∧ d.rd Reg.IMG_RESULT_OP = 6)) ∧
    (s.dev.img.slotWrite = some (k, bs) → k < 2 →
      Ends (.slotWriteDone t none) s (fun d => d.slot k = { st := .valid, blocks := bs } ∧ d.img.slotWrite = none ∧ d.rd Reg.IMG_SLOT_INFO_STATE k = 2) ∧
      Ends (.slotWriteDone t (some n)) s (fun d => d.slot k = { st := .invalid, blocks := bs } ∧ d.img.slotWrite = none ∧ d.rd Reg.IMG_SLOT_INFO_STATE k = 3))

/-- In DARK, QUIET or RUN, with no key request in progress, a request in the window that passes the checks of R93 is taken with its slot, operation and hash, its nonce kept, operation 5 and status OK. Once its fuses are blown and read back, a slot to enrol is valid with the hash of the request, a slot to revoke is revoked. In RUN, COMMIT ends the trial of the running slot with operation 4 and status OK, and asks for the counter to go to the security version of the running structure where that is higher; COMMIT_FUSES_DONE brings the counter there (R92 to R94). (spec/04_startup_update.md) -/
def Obligations.KeysAndCommit : Prop :=
  ∀ (s : State) (t req c : Nat) (v : Word) (back : List Byte) (valid : Bool) (q : KeyReq),
    let w := s.dev.keyReqBytes
    (s.dev.mode = .dark ∨ s.dev.mode = .quiet ∨ s.dev.mode = .run → s.dev.Takes req → s.dev.img.keyReq = none → s.dev.keyCheck w = 0 →
      Ends (.imgKeyGo t req v) s fun d => d.img.keyReq = some { op := byteAt w 4, slot := byteAt w 5, hash := slice w 24 48 } ∧ d.img.nonce = le w 16 8 ∧
        d.rd Reg.IMG_RESULT_STATUS = 0 ∧ d.rd Reg.IMG_RESULT_OP = 5) ∧
    (s.dev.img.keyReq = some q → q.slot < 4 →
      (q.op = 1 → (s.dev.img.otp.keys.get q.slot {}).valid = false →
        Ends (.keyFuseDone t true back valid) s fun d => (d.img.otp.keys.get q.slot {}).valid = true ∧ (d.img.otp.keys.get q.slot {}).hash = q.hash ∧ d.img.keyReq = none) ∧
      (q.op = 2 → Ends (.keyFuseDone t true back valid) s fun d => (d.img.otp.keys.get q.slot {}).revoked = true ∧ d.img.keyReq = none)) ∧
    (s.dev.mode = .run → s.dev.Takes req → v &&& 6#32 = 0#32 →
      Ends (.imgCommit t req v) s fun d => (d.slot s.dev.img.bootSlot).trial = false ∧ (d.slot s.dev.img.bootSlot).trialLeft = false ∧ d.rd Reg.IMG_RESULT_STATUS = 0 ∧
        d.rd Reg.IMG_RESULT_OP = 4 ∧ (s.dev.img.otp.rollback < s.dev.rl.secVer → d.img.commit = some s.dev.rl.secVer)) ∧
    (s.dev.img.commit = some c → Ends (.commitFusesDone t) s fun d => d.img.otp.rollback = max s.dev.img.otp.rollback c ∧ d.img.commit = none)

/-- In RUN, ARM for a VALID slot that does not run, with a well-formed cut time 3 s to 30 days ahead and an image of the same class that needs no restart, arms the cut-over: status 1, operation 2. A shadow built in time is kept; a partner's CUT_READY notes its cut time. At or after the boundary of the cut time a ready cut-over makes its slot the running and preferred one, in trial, and the device stays in RUN. One not ready 1 ms before its time is given up, as is one disarmed (R91, R102 to R105). (spec/04_startup_update.md) -/
def Obligations.ScheduledCutOver : Prop :=
  ∀ (s : State) (t req n : Nat) (v : Word) (link : Fin 4) (codeErr damaged : Bool) (frame pay : List Byte) (c : Cut) (r : Reel),
    let k := v.toNat % 2
    let new := reelOf (imageOf (inOrder (s.dev.slot k).blocks))
    (s.dev.mode = .run → s.dev.Takes req → (s.dev.slot k).st = .valid → k ≠ s.dev.img.bootSlot →
      ofFullTime (s.dev.rd Reg.IMG_CUT_NS_NS) (s.dev.rd Reg.IMG_CUT_SEC_LO_SEC) (s.dev.rd Reg.IMG_CUT_SEC_HI_SEC) = some n →
      s.dev.nowAt t + 3 * oneSec ≤ n → n ≤ s.dev.nowAt t + 2592000 * oneSec → sameClass s.dev.rl new = true → needsRestart s.dev.rl new = false →
      Ends (.imgCutArm t req v) s fun d => d.img.cut = some { slot := k, time := n } ∧ d.rd Reg.IMG_STATUS_CUT = 1 ∧ d.rd Reg.IMG_RESULT_STATUS = 0 ∧ d.rd Reg.IMG_RESULT_OP = 2) ∧
    (s.dev.Takes req → v &&& 3#32 = 0#32 →
      Ends (.imgCutDisarm t req v) s fun d => d.img.cut = none ∧ d.rd Reg.IMG_RESULT_STATUS = 0 ∧ d.rd Reg.IMG_RESULT_OP = 6) ∧
    (s.dev.Hears t link pfCutReady codeErr frame pay → ofTime12 pay 0 = some n → Ends (.cutReady t link codeErr frame) s fun d => d.img.reports.find (peerSender link) = some n) ∧
    (s.dev.img.cut = some c →
      (s.dev.mode = .run → c.shadow = none → s.dev.loadSlot c.slot damaged = .inl r → s.dev.nowAt t + 1000000 ≤ c.time →
        Ends (.shadowBuilt t damaged) s fun d => d.img.cut = some { c with shadow := some r } ∧ (s.dev.solo = true → d.rd Reg.IMG_STATUS_CUT = 2)) ∧
      (s.dev.mode = .run → s.dev.cutReady = true → c.shadow = some r → cutBoundary c.time ≤ s.dev.nowAt t →
        Ends (.cutover t) s fun d => d.img.cut = none ∧ d.img.bootSlot = c.slot ∧ d.img.pref = c.slot ∧ (d.slot c.slot).trial = true ∧ d.rd Reg.IMG_STATUS_CUT = 0 ∧ d.mode = .run) ∧
      (c.time < s.dev.nowAt t + 1000000 → s.dev.cutReady = false → Ends (.cutMissed t) s fun d => d.img.cut = none ∧ d.rd Reg.IMG_STATUS_CUT = 0))

/-- In DARK or QUIET, or in RUN with FORCE, with no activation in progress, a write of IMG_ACT_CTRL with GO takes the request with operation 3 and status OK and gives up an armed cut-over. In DARK and QUIET the loaded image becomes the running structure in QUIET and its slot the preferred one, in trial. In RUN the loaded image is kept as the shadow and a Wrap of cause 5 is asked for. A complete Wrap with a shadow to activate ends in QUIET under it; one that is to end in HALT, and puts no ring to sleep, ends in HALT with FAULT_N low and every trip output at its trip level (R27, R107, R108, R465). (spec/04_startup_update.md, spec/18_power_thermal_wrap.md) -/
def Obligations.ActivationAndEndOfWrap : Prop :=
  ∀ (s : State) (t req : Nat) (v : Word) (damaged : Bool) (a : Activate) (r : Reel) (w : WrapRun),
    let active (d : Dev) (k : Nat) : Prop := d.mode = .quiet ∧ d.reel = some r ∧ d.img.bootSlot = k ∧ d.img.pref = k ∧ (d.slot k).trial = true ∧ d.img.act = none
    (s.dev.Takes req → s.dev.img.act = none → s.dev.mode = .dark ∨ s.dev.mode = .quiet ∨ (s.dev.mode = .run ∧ v.getLsbD 1 = true) →
      Ends (.imgActivate t req v) s fun d => d.img.act = some { slot := v.toNat % 2, force := v.getLsbD 1 } ∧ d.img.cut = none ∧ d.rd Reg.IMG_RESULT_STATUS = 0 ∧ d.rd Reg.IMG_RESULT_OP = 3) ∧
    (s.dev.img.act = some a →
      (s.dev.mode = .dark ∨ s.dev.mode = .quiet → s.dev.loadSlot a.slot damaged = .inl r → Ends (.activateBuildDone t damaged) s fun d => active d a.slot) ∧
      (s.dev.mode = .run → a.force = true → a.shadow = none → s.dev.loadSlot a.slot damaged = .inl r → s.dev.sin.switchWrap = none →
        Ends (.forceShadowBuilt t damaged) s fun d => d.img.act = some { a with shadow := some r } ∧ 5 ∈ d.gaf.wrapReq ∧ d.mode = .run) ∧
      (s.dev.mode = .wrap → s.dev.gaf.wrap = some w → s.dev.wrapReady = true → w.toHalt = false → a.shadow = some r → Ends (.wrapComplete t) s fun d => active d a.slot)) ∧
    (s.dev.mode = .wrap → s.dev.gaf.wrap = some w → s.dev.wrapReady = true → w.toHalt = true → s.dev.rd Reg.SWP_CTRL_SLEEP_HALT = 0 →
      Ends (.wrapComplete t) s fun d => d.mode = .halt ∧ d.pins.faultN = false ∧ d.pins.tripH = 0 ∧ d.pins.tripP = 0)

/-! ### Chapter 5: links and rings -/

/-- A port that loses its signal shows SIGNAL, SYNC and CYC_OK 0, ROT 3 and the latched LOS; one that gains alignment shows SIGNAL and SYNC. On a ring that this device originates, the return of its CYC sets the loop delay of the rotation, and its return counts for the cycle. A loop delay too long for 8 cycles sets LONG; a CYC missing for 4 cycles sets BROKEN; both back for 8 cycles clear it. A CYC of the partner demotes an ACTIVE device; to another it shows the rotation its port receives. A queue's frame that has waited 8 cycles is reported once (R114, R116, R135, R145, R147, R382). Each changes no register but those named and where events are counted, the demotion apart. (spec/05_nusal_links.md) -/
def Obligations.PortsAndRingsShowTheirState : Prop :=
  ∀ (s : State) (t delay qid n : Nat) (port : Fin 128) (ring : Fin 64) (rot orig : Fin 2),
    Ends (.lnkPortLos t port) s (fun d => d.rd Reg.LNK_PORT_STAT_SIGNAL port = 0 ∧ d.rd Reg.LNK_PORT_STAT_SYNC port = 0 ∧ d.rd Reg.LNK_PORT_STAT_CYC_OK port = 0 ∧
      d.rd Reg.LNK_PORT_STAT_ROT port = 3 ∧ d.rd Reg.LNK_PORT_ERR_LOS port = 1 ∧ s.dev.OnlyWrites d [Reg.LNK_PORT_STAT_ROT.addr port 0, Reg.LNK_PORT_ERR_LOS.addr port 0]) ∧
    Ends (.lnkPortSyncGained t port) s (fun d => d.rd Reg.LNK_PORT_STAT_SIGNAL port = 1 ∧ d.rd Reg.LNK_PORT_STAT_SYNC port = 1 ∧ s.dev.OnlyWrites d [Reg.LNK_PORT_STAT_SYNC.addr port 0]) ∧
    ((s.dev.lr ring).orig = true →
      let f := if s.dev.origCode = 0 then (if rot.val = 0 then Reg.LNK_RING_DP_D0 else Reg.LNK_RING_DP_D1) else (if rot.val = 0 then Reg.LNK_RING_DS_D0 else Reg.LNK_RING_DS_D1)
      Ends (.cycReturn t ring rot delay) s fun d => d.rd f ring = min delay 0xFFFE ∧ d.rd Reg.LNK_PORT_STAT_ROT (s.dev.rotPort ring rot) = rot ∧
        bitAt (d.lr ring).seen rot = true ∧ s.dev.OnlyWrites d [f.addr ring 0, Reg.LNK_PORT_STAT_ROT.addr (s.dev.rotPort ring rot) 0]) ∧
    (8 ≤ (s.dev.lr ring).long → s.dev.rd Reg.LNK_RING_STAT_LONG ring = 0 →
      Ends (.ringLong t ring) s fun d => d.rd Reg.LNK_RING_STAT_LONG ring = 1 ∧ s.dev.OnlyWrites d [Reg.LNK_RING_STAT_LONG.addr ring 0]) ∧
    (4 ≤ (s.dev.lr ring).loss0 ∨ 4 ≤ (s.dev.lr ring).loss1 → s.dev.rd Reg.LNK_RING_STAT_BROKEN ring = 0 →
      Ends (.ringBreak t ring) s fun d => d.rd Reg.LNK_RING_STAT_BROKEN ring = 1 ∧ s.dev.OnlyWrites d [Reg.LNK_RING_STAT_BROKEN.addr ring 0]) ∧
    (8 ≤ (s.dev.lr ring).back → s.dev.rd Reg.LNK_RING_STAT_BROKEN ring = 1 →
      Ends (.ringRestored t ring) s fun d => d.rd Reg.LNK_RING_STAT_BROKEN ring = 0 ∧ s.dev.OnlyWrites d [Reg.LNK_RING_STAT_BROKEN.addr ring 0]) ∧
    (s.dev.solo = false → orig.val ≠ s.dev.origCode →
      (s.dev.role ≠ roleActive → Ends (.cycReceive t ring rot orig) s fun d => d.rd Reg.LNK_PORT_STAT_ROT (s.dev.rotPort ring rot) = rot ∧
        s.dev.OnlyWrites d [Reg.LNK_PORT_STAT_ROT.addr (s.dev.rotPort ring rot) 0]) ∧
      (s.dev.role = roleActive → s.dev.mode = .run → Ends (.cycReceive t ring rot orig) s fun d => d.role = roleStandIn ∧ d.sin.gates = false ∧ d.pins.tripH = 0 ∧ d.pins.tripP = 0)) ∧
    ((s.dev.lr ring).waited.find qid = some (n, false) → 8 ≤ n →
      Ends (.cmdOverrun t ring qid) s fun d => (d.lr ring).waited.find qid = some (n, true) ∧ s.dev.OnlyWrites d [])

/-- On a present ring whose port runs: a frame with a good CRC and length at the position where it is scheduled, whose items are not yet written and of which no copy is held, is counted and held for its second copy; a frame with a bad CRC or length is counted as such and nothing is held. At the originator, the hold deadline of a scheduled frame not yet written writes its items from the one copy held, which is counted as a missing duplicate, or as missing without a copy, and marks the frame as written (R122, R132, R133). (spec/05_nusal_links.md) -/
def Obligations.NodeFramesAreAcceptedOnce : Prop :=
  ∀ (s : State) (t cyc pos addr nt : Nat) (port : Fin 128) (ring : Fin 64) (frame : List Byte) (h : Held),
    let g := port.val / 2
    (s.dev.rl.present g = true → bitAt (s.dev.lr g).stopped (port % 2) = false →
      (crcOk frame = true → nfLenOk frame = true → s.dev.scheduled g cyc pos = some (nfAddr frame, nfType frame) →
        (cyc, nfAddr frame, nfType frame) ∉ (s.dev.lr g).written →
        (∀ x ∈ (s.dev.lr g).held, ¬ (x.cyc = cyc ∧ x.addr = nfAddr frame ∧ x.ntype = nfType frame)) →
        Ends (.nodeFrameReceive t port cyc pos false frame) s fun d =>
          (d.lr g).held = (s.dev.lr g).held ++ [{ cyc := cyc, addr := nfAddr frame, ntype := nfType frame, bytes := frame.take (frame.length - 4), port := port, both := false }] ∧
          d.rd Reg.LNK_CNT_FRAMES_CNT port = min (s.dev.rd Reg.LNK_CNT_FRAMES_CNT port + 1) (2 ^ 32 - 1)) ∧
      (crcOk frame = false ∨ nfLenOk frame = false →
        Ends (.nodeFrameReceive t port cyc pos false frame) s fun d => (d.lr g).held = (s.dev.lr g).held ∧ d.rd Reg.LNK_PORT_ERR_CRC port = 1 ∧
          d.rd Reg.LNK_CNT_CRC_CNT port = min (s.dev.rd Reg.LNK_CNT_CRC_CNT port + 1) (2 ^ 32 - 1) ∧
          s.dev.OnlyWrites d [Reg.LNK_CNT_CRC_CNT.addr port 0, Reg.LNK_PORT_ERR_CRC.addr port 0])) ∧
    ((s.dev.lr ring).orig = true → (cyc, addr, nt) ∉ (s.dev.lr ring).written → (s.dev.rl.node ring addr).isSome = true →
      ((s.dev.lr ring).held.find? (fun x => x.cyc == cyc && x.addr == addr && x.ntype == nt) = some h → h.port < 128 →
        Ends (.frameHoldDeadline t ring cyc addr nt) s fun d => (cyc, addr, nt) ∈ (d.lr ring).written ∧
          d.rd Reg.LNK_CNT_DUPMISS_CNT h.port = min (s.dev.rd Reg.LNK_CNT_DUPMISS_CNT h.port + 1) (2 ^ 32 - 1)) ∧
      ((s.dev.lr ring).held.find? (fun x => x.cyc == cyc && x.addr == addr && x.ntype == nt) = none →
        Ends (.frameHoldDeadline t ring cyc addr nt) s fun d => (cyc, addr, nt) ∈ (d.lr ring).written))

/-- A write of LNK_RING_CTRL.ENUM by a protected requester in QUIET starts the enumeration of a present ring: one attempt more (saturating), state 1, an end 150 ms on. A REPLY from an unmapped address is extra; one whose kind differs from the map is WRONG; one that fits in kind, cells, sensors and identity is MATCH or REPLACED and shows UID_OK. The end of the enumeration gives every mapped address without an outcome MISSING and shows state 2 (R131, R517). (spec/05_nusal_links.md, spec/16_host_access.md) -/
def Obligations.RingsEnumerate : Prop :=
  ∀ (s : State) (t req e addr : Nat) (ring : Fin 64) (data : List Byte) (n : Rec),
    s.dev.rl.present ring = true →
    (s.dev.mode = .quiet → s.dev.Takes req →
      Ends (.lnkRingEnum t req ring) s fun d => (d.lr ring).enumEnd = some (s.dev.ownAt t + 150000000) ∧ (d.lr ring).outc = [] ∧ d.rd Reg.LNK_RING_STAT_STATE ring = 1 ∧
        d.rd Reg.LNK_RING_ENUM_ATTEMPTS ring = min (s.dev.rd Reg.LNK_RING_ENUM_ATTEMPTS ring + 1) 255) ∧
    (s.dev.rl.node ring addr = none → Ends (.enumReply t ring addr data) s fun d => (d.lr ring).extra = (s.dev.lr ring).extra + 1 ∧ (d.lr ring).outc = (s.dev.lr ring).outc) ∧
    (s.dev.rl.node ring addr = some n → n.ndAddr = addr →
      (byteAt data 8 ≠ n.ndKind → Ends (.enumReply t ring addr data) s fun d => (d.lr ring).outc.get addr 0 = 3 ∧ d.rd Reg.LNK_NODE_LINK_UID_OK ring addr = 0) ∧
      (byteAt data 8 = n.ndKind → ¬ (n.ndKind = 1 ∧ (2 ^ byteAt data 9 ≤ n.ndCellMask ∨ 2 ^ byteAt data 10 ≤ n.ndTempMask)) → n.ndUid = 0 ∨ le data 0 8 = n.ndUid →
        Ends (.enumReply t ring addr data) s fun d => ((d.lr ring).outc.get addr 0 = 1 ∨ (d.lr ring).outc.get addr 0 = 2) ∧ d.rd Reg.LNK_NODE_LINK_UID_OK ring addr = 1)) ∧
    ((s.dev.lr ring).enumEnd = some e →
      Ends (.enumEnd t ring) s fun d => (d.lr ring).enumEnd = none ∧ d.rd Reg.LNK_RING_STAT_STATE ring = 2 ∧
        ∀ x ∈ s.dev.rl.nodes ring, (d.lr ring).outc.get x.ndAddr 0 = if (s.dev.lr ring).outc.get x.ndAddr 0 = 0 then 4 else (s.dev.lr ring).outc.get x.ndAddr 0)

/-- For a protected requester and a present ring: WAKE of the ring outside RUN sends a tone on both its ports, WAKE of a port a tone on it, and LNK_PORT_CTRL keeps ENABLE as written; ENABLE written alone shows so and sends none. SLEEP in QUIET on a ring that this device originates adds a SLEEP frame to those it is to send and shows state 3. A tone on a port shows there; that of an asleep ring in QUIET starts its enumeration (R124, R131, R147, R202). (spec/05_nusal_links.md, spec/07_cell_sweeps.md, spec/16_host_access.md) -/
def Obligations.RingsWakeAndSleep : Prop :=
  ∀ (s : State) (t req : Nat) (ring : Fin 64) (port : Fin 128) (v : Word) (en : Bool),
    (s.dev.Takes req →
      (s.dev.rl.present ring = true → s.dev.mode ≠ .run → Ends (.lnkRingWake t req ring) s fun d => d.out = [.tone (2 * ring), .tone (2 * ring + 1), .status req 0]) ∧
      (s.dev.rl.present ring = true → s.dev.mode = .quiet → (s.dev.lr ring).orig = true →
        Ends (.lnkRingSleep t req ring) s fun d => d.rd Reg.LNK_RING_STAT_STATE ring = 3 ∧ ∃ p, (d.lr ring).cmds = (s.dev.lr ring).cmds ++ [{ typ := 0x15, dest := 0, pay := p }]) ∧
      (s.dev.rl.present (port / 2) = true →
        Ends (.lnkPortEnable t req port en) s (fun d => d.rd Reg.LNK_PORT_CTRL_ENABLE port = b2n en ∧ d.out = [.status req 0] ∧ s.dev.OnlyWrites d [Reg.LNK_PORT_CTRL_ENABLE.addr port 0]) ∧
        (s.dev.mode ≠ .run → Ends (.lnkPortWake t req port v) s fun d => d.rd Reg.LNK_PORT_CTRL_ENABLE port = v.toNat % 2 ∧ d.out = [.tone port, .status req 0] ∧
          s.dev.OnlyWrites d [Reg.LNK_PORT_CTRL_ENABLE.addr port 0]))) ∧
    Ends (.nodeWake t port) s (fun d => d.rd Reg.LNK_PORT_STAT_TONE port = 1) ∧
    (s.dev.rl.present (port / 2) = true → s.dev.mode = .quiet → s.dev.rd Reg.LNK_RING_STAT_STATE (port / 2) = 3 →
      Ends (.nodeWake t port) s fun d => (d.lr (port / 2)).enumEnd = some (s.dev.ownAt t + 150000000) ∧ d.rd Reg.LNK_RING_STAT_STATE (port / 2) = 1)

/-! ### Chapter 6: the timebase -/

/-- On a PTP port with a role: a Sync at a SLAVE port with a known mean delay shows its offset; a Delay_Req at an end-to-end MASTER port is answered with its receive time; a malformed message is discarded and counted; an Announce is kept; a timeout forgets the port's Sync and Announce, and with no other source the timebase enters HOLDOVER; a MASTER port sends Sync with its crossing time. A PPS_IN edge is timestamped and counts the time of day on; its loss shows and the source must qualify again. The end of a slew clears SLEWING. Each second of holdover counts; a minute of learning counts in its bin. REF_IN failure ends in HALT; loss of REF10_IN in use falls back, its return restores it (R151 to R158, R161, R162). (spec/06_timebase_slate.md) -/
def Obligations.PhaseSourcesAndReferences : Prop :=
  ∀ (s : State) (t k v dv : Nat) (p : Fin 4) (ds : List Nat) (utc : Option Int) (a b bad : Bool) (bin : Nat),
    let now := s.dev.nowAt t
    let rx : Int := (now : Int) - s.dev.rd Reg.TB_PTP_LAT_RX p
    (s.dev.ptpRole p ≠ 0 →
      (s.dev.rd Reg.TB_PTP_STAT_PORT_STATE p = 9 → s.dev.rd Reg.TB_PTP_DELAY_MEAN_DELAY p ≠ 0xFFFFFFFF →
        Ends (.ptpEventReceive t p 0 v) s fun d => d.rdI Reg.TB_PTP_OFFSET_THETA p = sat32 ((v : Int) + s.dev.rd Reg.TB_PTP_DELAY_MEAN_DELAY p - rx)) ∧
      (s.dev.rd Reg.TB_PTP_STAT_PORT_STATE p = 6 → bitAt (s.dev.ptpOpt p) 0 = false → Ends (.ptpEventReceive t p 3 v) s fun d => d.out = [.ptp p 5 rx.toNat []]) ∧
      (5 < k → Ends (.ptpEventReceive t p k v) s fun d => d.rd Reg.TB_PTP_CNT_DISCARD p = min (s.dev.rd Reg.TB_PTP_CNT_DISCARD p + 1) 65535 ∧ s.dev.OnlyWrites d [Reg.TB_PTP_CNT_DISCARD.addr p 0]) ∧
      (bad = false → ds.length = 7 → Ends (.ptpAnnounceReceive t p ds utc a b bad) s fun d => (d.ptp p).ann = some ds) ∧
      (s.dev.rd Reg.TB_PTP_STAT_PORT_STATE p = 6 → Ends (.ptpMessageSend t p 0) s fun d => d.out = [.ptp p 0 (now + s.dev.rd Reg.TB_PTP_LAT_TX p) []])) ∧
    Ends (.ptpSourceTimeout t p) s (fun d => (d.ptp p).ann = none ∧ (d.ptp p).sync = none) ∧
    (s.dev.rd Reg.TB_PTP_STAT_PORT_STATE p = 9 → (∀ q, q < 4 → q ≠ p.val → (s.dev.ptp q).ann = none) → s.dev.rd Reg.TB_STATUS_SRC = srcPtp → s.dev.follower = false →
      srcPps ∉ s.dev.tb.qual → Ends (.ptpSourceTimeout t p) s fun d => d.rd Reg.TB_STATUS_STATE = tbHoldover ∧ d.rd Reg.TB_STATUS_SRC = 0) ∧
    (s.dev.rd Reg.TB_CTRL_PPS_IN_EN = 1 →
      Ends (.ppsEdge t) s (fun d => d.rd Reg.TB_PPS_TS_NS_NS = now % 1000000000 ∧ d.rd Reg.TB_STATUS_PPS_OK = 1 ∧ d.rd Reg.TB_PPS_TOD_LO_SEC = (s.dev.rd Reg.TB_PPS_TOD_LO_SEC + 1) % 2 ^ 32) ∧
      Ends (.ppsEdgeMissing t) s (fun d => d.rd Reg.TB_STATUS_PPS_OK = 0 ∧ d.rd Reg.TB_ERR_PPS_LOST = 1 ∧ srcPps ∉ d.tb.qual)) ∧
    Ends (.slewComplete t) s (fun d => d.tb.slew = none ∧ d.rd Reg.TB_STATUS_SLEWING = 0) ∧
    (s.dev.rd Reg.TB_STATUS_STATE = tbHoldover ∨ s.dev.rd Reg.TB_STATUS_STATE = tbHoldLong →
      Ends (.holdoverSecond t) s fun d => d.rd Reg.TB_HOLD_TIME_SECONDS = min (s.dev.rd Reg.TB_HOLD_TIME_SECONDS + 1) (2 ^ 32 - 1)) ∧
    (s.dev.rd Reg.TB_STATUS_STATE = tbLocked → s.dev.rd Reg.TB_STATUS_REF10_USED = 0 → s.dev.tb.temps = [] → tcompBin s.dev.tbTemp = some bin →
      Ends (.tcompLearn t) s fun d => d.rd Reg.TB_TCOMP_INFO_MINUTES bin = min (s.dev.rd Reg.TB_TCOMP_INFO_MINUTES bin + 1) 65535 ∧
        d.rd Reg.TB_TCOMP_INFO_VALID bin = b2n (decide (10 ≤ d.rd Reg.TB_TCOMP_INFO_MINUTES bin))) ∧
    (s.dev.mainOn = true → s.dev.mode ≠ .halt → Ends (.refFail t dv) s fun d => d.mode = .halt ∧ d.tb.refOk = false ∧ d.pins.faultN = false ∧ d.pins.tripH = 0 ∧ d.pins.tripP = 0) ∧
    (s.dev.rd Reg.TB_STATUS_REF10_USED = 1 → Ends (.ref10Lost t) s fun d => d.rd Reg.TB_STATUS_REF10_OK = 0 ∧ d.rd Reg.TB_STATUS_REF10_USED = 0 ∧ d.rd Reg.TB_ERR_REF10_LOST = 1 ∧
      s.dev.OnlyWrites d [0x20010, 0x20018]) ∧
    Ends (.ref10Restored t) s (fun d => d.rd Reg.TB_STATUS_REF10_OK = 1 ∧ d.rd Reg.TB_STATUS_REF10_USED = s.dev.rd Reg.TB_CTRL_REF10_EN ∧ s.dev.OnlyWrites d [0x20010])

/-- A decided step of m moves device time by m x 4 ms once its cycle is reached and is gone. Outside RUN and WRAP, with no phase source and no master to follow, a protected write of TB_TIME (seconds first, then the nanoseconds) sets device time, SRC 4 and TIME_VALID; TB_UTC_SET takes effect while SRC is 2. A follower takes the deviation of its boundary from a SLATE_SYNC edge; three missing pulses start two-way time transfer. Where no other candidate is heard the device becomes board time master. From the master's BOARD_TIME a follower outside RUN and WRAP takes the label of the next pulse, and a live one the step announced. The master answers a TWTT request with both instants (R53, R158, R159, R165 to R168, R170). (spec/06_timebase_slate.md, spec/16_host_access.md) -/
def Obligations.StepsAndBoardTime : Prop :=
  ∀ (s : State) (t req n k lo hi : Nat) (m res dev : Int) (ns v : Word) (link : Fin 4) (codeErr : Bool) (frame pay : List Byte),
    let now := s.dev.nowAt t
    (s.dev.tb.step = some (m, res, k) → k ≤ cycleOf now →
      Ends (.timebaseStep t) s fun d => d.now = ((now : Int) + m * 4000000).toNat ∧ d.tb.step = none ∧ d.tb.steps = s.dev.tb.steps + 1 ∧ d.rd Reg.TB_STATUS_STEP_PENDING = 0) ∧
    (s.dev.Takes req →
      (s.dev.host.stage.find 0x20004 = some lo → s.dev.host.stage.find 0x20008 = some hi → ofFullTime ns.toNat lo hi = some n → s.dev.follower = false → s.dev.phaseSel = false → s.dev.live = false →
        Ends (.tbTimeWrite t req ns) s fun d => d.now = n ∧ d.rd Reg.TB_STATUS_SRC = srcHost ∧ d.rd Reg.TB_STATUS_TIME_VALID = 1 ∧ d.out = [.status req 0]) ∧
      (s.dev.rd Reg.TB_STATUS_SRC = srcPps → Ends (.tbUtcSet t req v) s fun d => d.rd Reg.TB_UTC_UTC_OFFSET = v.toNat % 65536 ∧ d.rd Reg.TB_UTC_VALID = b2n (v.getLsbD 16) ∧
        d.rd Reg.TB_UTC_LEAP61 = b2n (v.getLsbD 17) ∧ d.rd Reg.TB_UTC_LEAP59 = b2n (v.getLsbD 18) ∧ s.dev.OnlyWrites d [0x20060, 0x20064])) ∧
    (s.dev.follower = true →
      Ends (.slateSyncEdge t dev) s (fun d => d.rd Reg.TB_STATUS_SYNC_OK = 1 ∧ d.rdI Reg.TB_BOARD_DEV = clampS 16 dev ∧ d.tb.near = if dev.natAbs ≤ 25 then s.dev.tb.near + 1 else 0) ∧
      (s.dev.rd Reg.SIN_STATUS_PEER_UP ≠ 0 → Ends (.syncLost t) s fun d => d.rd Reg.TB_STATUS_SYNC_OK = 0 ∧ d.rd Reg.TB_ERR_SYNC_LOST = 1 ∧ d.tb.twtt = true ∧ d.tb.near = 0)) ∧
    (s.dev.solo = false → s.dev.mode = .quiet ∨ s.dev.mode = .run ∨ s.dev.mode = .wrap → s.dev.tb.peers = [] → s.dev.rd Reg.TB_BOARD_MASTER_VALID = 1 → s.dev.rd Reg.TB_BOARD_MASTER ≠ s.dev.devAddr →
      Ends (.boardMasterElection t) s fun d => d.rd Reg.TB_BOARD_MASTER = s.dev.devAddr ∧ d.rd Reg.TB_STATUS_BOARD_MASTER = 1 ∧ d.rd Reg.TB_BOARD_MASTER_VALID = 1) ∧
    (s.dev.Hears t link pfBoardTime codeErr frame pay → s.dev.solo = false → s.dev.rd Reg.SIN_PEER_STAT_ADDR_VALID link = 1 → s.dev.follower = true →
      s.dev.rd Reg.TB_BOARD_MASTER = s.dev.rd Reg.SIN_PEER_STAT_PEER_ADDR link → ofTime12 pay 0 = some n →
      (s.dev.live = false → Ends (.boardTime t link codeErr frame) s fun d => d.now = ((now : Int) + ((n : Int) - ((now / 1000000 + 1) * 1000000 : Nat))).toNat) ∧
      (s.dev.live = true → sx 16 (le pay 18 2) ≠ 0 →
        Ends (.boardTime t link codeErr frame) s fun d => d.tb.step = some (sx 16 (le pay 18 2), 0, (begin_ t s.dev).extendCyc (le pay 20 4)) ∧ d.rd Reg.TB_STATUS_STEP_PENDING = 1)) ∧
    (s.dev.Hears t link pfTwtt codeErr frame pay → byteAt pay 0 = 0 → s.dev.rd Reg.TB_STATUS_BOARD_MASTER = 1 →
      Ends (.twtt t link codeErr frame) s fun d => d.out = [.peer link (peerFrame pfTwtt (s.dev.sin.txSeq.get pfTwtt 0) (toLe 1 1 ++ toLe 0 3 ++ toLe (ts32 now) 4 ++ toLe (ts32 now) 4))])

/-! ### Chapter 7: the sweep -/

/-- A packet that SWP takes from an input queue of a ring leaves the queue; one with ERR is discarded; one of cell voltages advances the filter of every cell of its node and keeps the raw codes of its Take. After OPEN_WIRE_EVALUATE a tested node in state 0 has FOLLOW_UP set, with a follow-up two Takes on, where taps are suspect and not confirmed, and not else. A protected write of SWP_OW_CLEAR takes the named taps out of CONFIRMED. Within 20 ms before a plan instant every switch opens for the measurement, until 1 ms after it; at the instant, with BAL_EN in RUN, each container's planned power is within its granted pool, else no plan stands (R40, R177, R190, R192, R196, R198, R199). (spec/07_cell_sweeps.md, spec/16_host_access.md) -/
def Obligations.SweepFiltersTestsAndBalances : Prop :=
  ∀ (s : State) (t req qid take : Nat) (ring : Fin 64) (q : Queue) (h : Item) (items : List Item) (us : List QUnit) (n : Rec) (v : Word),
    (s.dev.qf.qs.find qid = some q → q.qd.consumer = 0x3000 + ring → s.dev.blocked (0x3000 + ring) = false → q.reading = none → q.units = .pkt h items :: us →
      (itemErr h = true → Ends (.swpSamplePacket t ring qid) s fun d => d.Holds qid us q.openp none ∧ d.swp = s.dev.swp ∧ s.dev.SparesQueues d qid) ∧
      (itemErr h = false → qid ∈ s.dev.rl.routes (0x1000 + ring) 0 → s.dev.rl.node ring (itemBits h 28 7) = some n →
        let chs := setBits n.ndCellMask 16
        let ts := (itemBits (items.getD 0 0) 28 32 + 2 ^ 32 - 4000 * chs.getD 0 0) % 2 ^ 32
        Ends (.swpSamplePacket t ring qid) s fun d =>
          (∀ x ∈ chs.zip items, d.filt (2048 * ring + n.ndCellBase + x.1) = ((s.dev.filt (2048 * ring + n.ndCellBase + x.1)).cell (6 * s.dev.rl.rate ring + s.dev.rl.corner ring 0 (n.ndCellBase + x.1))
            (s.dev.takeAt ring ts) (itemBits x.2 12 16) (bitAt (itemBits x.2 0 12) 8)).1) ∧
          (d.sn ring (itemBits h 28 7)).raws.head? = some (s.dev.takeAt ring ts, items.map fun it => ((itemBits it 12 16 : Int), itemBits it 0 12)))) ∧
    (n ∈ s.dev.rl.cellNodes ring → take ∈ (s.dev.sn ring n.ndAddr).tested → s.dev.nodeState ring n.ndAddr = 0 →
      Ends (.openWireEvaluate t ring take) s fun d =>
        let opened := d.rd Reg.SWP_NODE_OW_SUSPECT ring n.ndAddr &&& (65535 - d.rd Reg.SWP_NODE_OW_CONFIRMED ring n.ndAddr)
        d.rd Reg.SWP_NODE_DIAG_FOLLOW_UP ring n.ndAddr = b2n (opened != 0) ∧ (d.sn ring n.ndAddr).follow = if opened = 0 then none else some ((take + 2) % 2 ^ 32)) ∧
    (s.dev.Takes req →
      let con := s.dev.rd Reg.SWP_NODE_OW_CONFIRMED (v.toNat % 64) (bitsOf v.toNat 8 7)
      Ends (.swpOwClear t req v) s fun d => d.rd Reg.SWP_NODE_OW_CONFIRMED (v.toNat % 64) (bitsOf v.toNat 8 7) = con - (con &&& bitsOf v.toNat 16 16) ∧ d.out = [.status req 0] ∧
        s.dev.OnlyWrites d [Reg.SWP_NODE_OW_CONFIRMED.addr (v.toNat % 64) (bitsOf v.toNat 8 7)]) ∧
    (let p := s.dev.nextPlan (s.dev.nowAt t) * 1000000000;
      p ≤ s.dev.nowAt t + 20000000 → s.dev.nowAt t < p → Ends (.balQuiet t) s fun d => d.swp.quiet = true ∧ d.swp.planAt = p) ∧
    ((begin_ t s.dev).atPlan = true →
      (s.dev.rd Reg.SWP_CTRL_BAL_EN = 1 → s.dev.mode = .run → Ends (.balPlan t) s fun d => ∀ x ∈ s.dev.containers, ∃ p, d.swp.plans.find x.1 = some p ∧
        sumN (p.cells.map fun y => y.2) ≤ 1000 * s.dev.rd Reg.GAF_HEAT_POOL_GRANTED x.1) ∧
      (s.dev.rd Reg.SWP_CTRL_BAL_EN = 0 ∨ s.dev.mode ≠ .run → Ends (.balPlan t) s fun d => d.swp.plans = [])) ∧
    (s.dev.swp.planAt + 1000000 ≤ s.dev.nowAt t → Ends (.balClose t) s fun d => d.swp.quiet = false)

/-! ### Chapter 9: the estimator -/

/-- A packet that a tile reads leaves its queue: with ERR it is discarded; a stream 3 item of SWP sets the node's combined state; filtered cell voltages of an open Take are kept in it. TAKE_CLOSURE of a live tile that does not wait under BLOCK closes the oldest open Take: TAKE shows it, the next one follows, items that come later are late; and of every string whose used cells have bound voltages the derate factor is that of the reason mask, the state of charge limits are the least and greatest reported codes of its cells, and the current limits are the least of the cells' limits, 0 where a node is LOST or FAULTED. A protected write of EST_CH_CTRL of a used channel adds its command to those that wait for the channel's next Take, and changes no register (R40, R233, R234, R246, R248, R260). (spec/09_state_estimation.md, spec/16_host_access.md) -/
def Obligations.TilesCloseTakes : Prop :=
  ∀ (s : State) (t req qid k cyc : Nat) (ring : Fin 64) (ch : Fin 131072) (q : Queue) (h it : Item) (items : List Item) (us : List QUnit) (n : Rec),
    (s.dev.qf.qs.find qid = some q → q.qd.consumer = 0x4000 + ring → s.dev.blocked (0x4000 + ring) = false → q.reading = none →
      (q.units = .pkt h items :: us → itemErr h = true → Ends (.estInputItem t ring qid) s fun d => d.Holds qid us q.openp none ∧ d.est = s.dev.est ∧ s.dev.SparesQueues d qid) ∧
      (q.units = .one it :: us → qid ∈ s.dev.rl.routes (0x3000 + ring) 3 →
        Ends (.estInputItem t ring qid) s fun d => (d.tile ring).nodes.find (itemBits it 15 7) = some (itemBits it 12 3)) ∧
      (q.units = .pkt h items :: us → itemErr h = false → qid ∈ s.dev.rl.routes (0x3000 + ring) 0 → s.dev.rl.node ring (itemBits h 28 7) = some n →
        s.dev.estTake ring ((itemBits (items.getD 0 0) 28 32 + 2 ^ 32 - 4000 * (setBits n.ndCellMask 16).getD 0 0) % 2 ^ 32) = some (k, cyc) → (s.dev.tile ring).isOpen k = true →
        Ends (.estInputItem t ring qid) s fun d => ∀ x ∈ (setBits n.ndCellMask 16).zip items,
          ((d.tile ring).inbox.get k {}).vf.find (n.ndCellBase + x.1) = some (itemBits x.2 12 16, itemBits x.2 0 12))) ∧
    (s.dev.live = true → s.dev.blocked (0x4000 + ring) = false → s.dev.estNext ring = some (k, cyc) →
      Ends (.takeClosure t ring) s fun d => d.rd Reg.EST_TILE_TAKE_TAKE ring = k % 2 ^ 32 ∧ (d.tile ring).next = some ((k + 1) % 2 ^ 32) ∧ (d.tile ring).isOpen k = false ∧
        ∀ str ∈ s.dev.ringStrs ring, str < 256 → s.dev.strCells str ≠ [] → s.dev.estBound ring 0 = true →
          let socs := (s.dev.strCells str).map fun c => d.rd Reg.EST_CH_SOC_SOC c.2.2
          let dead := (s.dev.rl.cellNodesOf str).any fun n => decide (3 ≤ s.dev.estNode ring n.ndAddr)
          d.rd Reg.EST_STR_FLAGS_FACTOR str = derateFactor (d.rd Reg.EST_STR_FLAGS_REASONS str) ∧
          d.rd Reg.EST_STR_SOC_SOC_MIN str = minN socs 0 % 2 ^ 14 ∧ d.rd Reg.EST_STR_SOC_SOC_MAX str = maxN socs 0 % 2 ^ 14 ∧
          d.rd Reg.EST_STR_I_CHG_LIM str = (if dead then 0 else minN ((s.dev.strCells str).map fun c => d.rd Reg.EST_CH_LIM_CHG_I_CHG c.2.2) 0) % 2 ^ 24 ∧
          d.rd Reg.EST_STR_I_DIS_LIM str = (if dead then 0 else minN ((s.dev.strCells str).map fun c => d.rd Reg.EST_CH_LIM_DIS_I_DIS c.2.2) 0) % 2 ^ 24) ∧
    (s.dev.Takes req → s.dev.rd Reg.EST_CH_STAT_USED ch = 1 →
      let waits (bits : Nat) (d : Dev) : Prop := (d.ech ch).cmd = (s.dev.ech ch).cmd ||| bits ∧ d.out = [.status req 0] ∧ s.dev.OnlyWrites d []
      Ends (.resetImp t req ch) s (waits 1) ∧ Ends (.resetCap t req ch) s (waits 2) ∧ Ends (.resetEfc t req ch) s (waits 4) ∧
      Ends (.anchorFull t req ch) s (waits 8) ∧ Ends (.anchorEmpty t req ch) s (waits 16) ∧ Ends (.reportNow t req ch) s (waits 32))

/-! ### Chapter 10: the loop engine -/

/-- An item of a signal queue that a context reads leaves the queue: with ERR it counts as bad, else it joins the context's items. In RUN, when T_SAT has reached SAT_TICKS (not 0) for the first time in the episode, SAT_ACT 2 leads to SAFE, 1 to HOLD, 0 leaves the state. In RUN or HOLD a measurement absent for W ticks leads to LOSS, with the lost ones in LOST and, for a context of a string, the derate request. A tick of a context that waits under BLOCK is counted as skipped and does nothing else. A protected write of LPE_CTX_CTRL of a built context adds its command to those that wait for the next tick and changes no register (R265, R266, R270, R278, R279, R285). (spec/10_loop_engine.md, spec/16_host_access.md) -/
def Obligations.LoopsReadHoldAndFallBack : Prop :=
  ∀ (s : State) (t req qid : Nat) (c : Fin 512) (q : Queue) (it : Item) (us : List QUnit),
    let l := s.dev.rl.loop1 c
    (s.dev.qf.qs.find qid = some q → q.qd.consumer = 0x5000 + c → q.reading = none → q.units = .one it :: us → s.dev.lpeKind qid = .signal →
      (itemErr it = true → Ends (.lpeInputItem t c qid) s fun d => d.Holds qid us q.openp none ∧ d.rd Reg.LPE_CTX_CNT_BAD c = min (s.dev.rd Reg.LPE_CTX_CNT_BAD c + 1) 255 ∧
        (d.lctx c).items = (s.dev.lctx c).items) ∧
      (itemErr it = false → (s.dev.lctx c).last = none → Ends (.lpeInputItem t c qid) s fun d => d.Holds qid us q.openp none ∧
        (d.lctx c).items = (s.dev.lctx c).items ++ [{ qid := qid, ts := itemBits it 28 32, grp := itemBits it 28 32, v := sx 28 (itemBits it 0 28), settling := false }])) ∧
    (s.dev.rd Reg.LPE_CTX_STAT_STATE c = lpRun → l.lpSatTicks ≠ 0 → l.lpSatTicks ≤ s.dev.rd Reg.LPE_CTX_SATT_T_SAT c → (s.dev.lctx c).expired = false →
      Ends (.satExpired t c) s fun d => (d.lctx c).expired = true ∧ d.rd Reg.LPE_CTX_STAT_STATE c = (if l.lpSatAct = 2 then lpSafe else if l.lpSatAct = 1 then lpHold else lpRun) ∧
        (l.lpSatAct = 2 → d.rd Reg.LPE_CTX_FLAGS_DERATE c = b2n (s.dev.rl.loopString c).isSome)) ∧
    (s.dev.rd Reg.LPE_CTX_STAT_STATE c = lpRun ∨ s.dev.rd Reg.LPE_CTX_STAT_STATE c = lpHold →
      (∃ j, j < l.lpNy ∧ s.dev.rl.lossTicks c ≤ s.dev.rd Reg.LPE_AGE_AGE c j) →
      Ends (.measurementLost t c) s fun d => d.rd Reg.LPE_CTX_STAT_STATE c = lpLoss ∧ d.rd Reg.LPE_CTX_FLAGS_DERATE c = b2n (s.dev.rl.loopString c).isSome ∧
        d.rd Reg.LPE_CTX_FLAGS_LOST c = sumN ((List.range l.lpNy).map fun j => b2n (decide (s.dev.rl.lossTicks c ≤ s.dev.rd Reg.LPE_AGE_AGE c j)) * 2 ^ j) % 16) ∧
    (s.dev.live = true → s.dev.blocked (0x5000 + c) = true → Ends (.tickSkip t c) s fun d =>
      d.rd Reg.LPE_CTX_CNT_SKIPPED c = min (s.dev.rd Reg.LPE_CTX_CNT_SKIPPED c + 1) 255 ∧ s.dev.OnlyWrites d [Reg.LPE_CTX_CNT_SKIPPED.addr c 0] ∧ d.lctx c = s.dev.lctx c) ∧
    (s.dev.Takes req → s.dev.rd Reg.LPE_CTX_CFG1_BUILT c = 1 →
      let waits (bits : Nat) (d : Dev) : Prop := (d.lctx c).cmd = (s.dev.lctx c).cmd ||| bits ∧ d.out = [.status req 0] ∧ s.dev.OnlyWrites d []
      Ends (.lpeResume t req c) s (waits 1) ∧ Ends (.lpeForceSafe t req c) s (waits 2) ∧ Ends (.lpeResetX t req c) s (waits 4))

/-! ### Chapter 11: dispatch -/

/-- An input record from a frame or triad queue that fails a check of Table 11.5 is refused with its reason and producer. One that passes on a device that uses its own inputs joins the pending inputs with its apply boundary, 20 us ahead at least for an immediate one; a CAN input is immediate. On a STAND-IN it is held until the partner's mirror of it comes, and the mirror makes it pending at the boundary that the partner chose; what is not mirrored within 1 ms is discarded and counted. A protected write of DSP_CTRL selects the source wanted and the watchdog and changes no other register (R287 to R294, R297). (spec/11_dispatch.md, spec/16_host_access.md) -/
def Obligations.DispatchTakesInputs : Prop :=
  ∀ (s : State) (t req qid : Nat) (q : Queue) (h : Item) (items : List Item) (us : List QUnit) (v : Word) (link : Fin 4) (codeErr : Bool) (frame pay : List Byte),
    let x : DRaw := { prod := q.qd.producer, kind := itemBits h 16 8, fmt := itemBits h 24 8, items := items.map (fun i => itemBits i 0 60), err := itemErr h || itemBits h 32 28 != 0 }
    let byte (k : Nat) : Nat := itemBits (items.getD (1 + k / 7) 0) (8 * (k % 7)) 8
    let y : DRaw := { prod := q.qd.producer, kind := byte 0, fmt := 1, items := [byte 4 + byte 5 * 2 ^ 8 + byte 6 * 2 ^ 16 + byte 7 * 2 ^ 24, 0, 0, byte 1 + 2 ^ 32], err := itemErr h || decide (itemBits h 53 7 < 8) || byte 2 != 0 || byte 3 != 0 }
    let refused (z : DRaw) (d : Dev) : Prop := d.rd Reg.DSP_CNT_REFUSED_CNT = min (s.dev.rd Reg.DSP_CNT_REFUSED_CNT + 1) (2 ^ 32 - 1) ∧
      d.rd Reg.DSP_ERR_REASON = (begin_ t s.dev).dspCheck z ∧ d.rd Reg.DSP_ERR_PRODUCER = z.prod % 2 ^ 16 ∧ d.dsp.pend = s.dev.dsp.pend
    let pending (z : DRaw) (b : Nat) (d : Dev) : Prop := d.dsp.pend = s.dev.dsp.pend ++ [{ src := dspSource z.prod, kind := z.kind, value := z.value, b := b, ord := s.dev.dsp.ord }] ∧
      d.rd Reg.DSP_STATUS_PENDING = (s.dev.dsp.pend.length + 1) % 32
    (s.dev.qf.qs.find qid = some q → q.qd.consumer = 0x6000 → q.reading = none → q.units = .pkt h items :: us → s.dev.dsp.early = [] →
      (dspSource q.qd.producer = 0 ∨ dspSource q.qd.producer = 2 →
        ((begin_ t s.dev).dspCheck x ≠ 0 → Ends (.dspInputRecord t qid) s (refused x)) ∧
        ((begin_ t s.dev).dspCheck x = 0 → s.dev.dspHolds = false → x.sec = 0 → x.ns = 0 → Ends (.dspInputRecord t qid) s (pending x (boundaryAfter (s.dev.nowAt t + 20000)))) ∧
        ((begin_ t s.dev).dspCheck x = 0 → s.dev.dspHolds = false → ∀ a, a ≠ 0 → ofFullTime x.ns (x.sec % 2 ^ 32) (x.sec / 2 ^ 32) = some a → s.dev.nowAt t + 20000 ≤ boundaryAfter a * 125000 →
          Ends (.dspInputRecord t qid) s (pending x (boundaryAfter a))) ∧
        ((begin_ t s.dev).dspCheck x = 0 → s.dev.dspHolds = true → Ends (.dspInputRecord t qid) s fun d => d.dsp.held = s.dev.dsp.held ++ [(x, s.dev.ownAt t)] ∧ d.dsp.pend = s.dev.dsp.pend)) ∧
      (dspSource q.qd.producer = 1 →
        ((begin_ t s.dev).dspCheck y ≠ 0 → Ends (.dspCanInput t qid) s (refused y)) ∧
        ((begin_ t s.dev).dspCheck y = 0 → s.dev.dspHolds = false → Ends (.dspCanInput t qid) s (pending y (boundaryAfter (s.dev.nowAt t + 20000)))))) ∧
    (s.dev.Hears t link pfDspMirror codeErr frame pay → s.dev.rd Reg.DSP_STATUS_RUNNING = 1 → s.dev.dspHolds = true → s.dev.dsp.pend.length < 16 →
      let z : DRaw := { prod := le pay 0 2, kind := byteAt pay 2, fmt := byteAt pay 3, items := (List.range 4).map (fun k => le pay (12 + 8 * k) 8) }
      s.dev.dsp.held.any (fun e => e.1 == z) = true →
      Ends (.dspMirror t link codeErr frame) s fun d => d.dsp.held = s.dev.dsp.held.eraseP (fun e => e.1 == z) ∧
        pending z ((cycleOf (s.dev.nowAt t) : Int) + tsDiff (cycleOf (s.dev.nowAt t) % 2 ^ 32) (le pay 4 4)).toNat d) ∧
    (let late := s.dev.dsp.held.filter fun e => decide (e.2 + 1000000 ≤ s.dev.ownAt t);
      Ends (.dspUnmirrored t) s fun d => d.dsp.held = s.dev.dsp.held.filter (fun e => !decide (e.2 + 1000000 ≤ s.dev.ownAt t)) ∧
        d.rd Reg.DSP_CNT_UNMIRRORED_CNT = min (s.dev.rd Reg.DSP_CNT_UNMIRRORED_CNT + late.length) (2 ^ 32 - 1)) ∧
    (s.dev.Takes req → Ends (.dspSrcWrite t req v) s fun d => d.rd Reg.DSP_CTRL_SRC = v.toNat % 4 ∧ d.rd Reg.DSP_CTRL_WDOG = v.toNat / 2 ^ 16 ∧ d.out = [.status req 0] ∧ s.dev.OnlyWrites d [0x80004])

/-- A running allocator whose selected source has had no setpoint accepted for WDOG ms sets WDOG and drops the setpoint in force. The frequency response becomes active once enough consecutive allocations had a deviation outside the dead band, with the power of the droop limited to FFR_MAX, and ends once as many had none. Samples older than F_TIMEOUT end it and are not used. A derate whose grace timer has run out is enforced at the requested factor (R296, R297, R299). (spec/11_dispatch.md) -/
def Obligations.DispatchWatchesAndResponds : Prop :=
  ∀ (s : State) (t f b : Nat) (str : Fin 256),
    let r := s.dev.rl.dispRec
    let src := s.dev.rd Reg.DSP_STATUS_SRC
    (s.dev.rd Reg.DSP_STATUS_RUNNING = 1 → s.dev.rd Reg.DSP_CTRL_WDOG ≠ 0 → src ≠ 3 → s.dev.rd Reg.DSP_STATUS_WDOG = 0 →
      s.dev.dsp.accAt.get src 0 + s.dev.rd Reg.DSP_CTRL_WDOG * 1000000 ≤ s.dev.ownAt t →
      Ends (.dspWatchdog t) s fun d => d.rd Reg.DSP_STATUS_WDOG = 1 ∧ d.dsp.force.find src = none ∧ s.dev.OnlyWrites d [0x80000]) ∧
    (s.dev.dsp.freq = some (f, b) →
      (s.dev.rd Reg.DSP_STATUS_FFR_ACTIVE = 0 → s.dev.rd Reg.DSP_FFR_CTRL_EN = 1 → s.dev.rd Reg.DSP_STATUS_RUNNING = 1 → s.dev.mode ≠ .wrap → s.dev.dsp.freqLost = false →
        (ffrLin r f).1 ≠ 0 → r.dpDelay ≤ s.dev.dsp.off →
        Ends (.ffrActive t) s fun d => d.rd Reg.DSP_STATUS_FFR_ACTIVE = 1 ∧ d.rd Reg.DSP_P_FFR_P_FFR = code 32 (ffrLin r f).2 ∧ s.dev.OnlyWrites d [0x80000, 0x80018]) ∧
      (s.dev.rd Reg.DSP_STATUS_FFR_ACTIVE = 1 → (ffrLin r f).1 = 0 → r.dpDelay ≤ s.dev.dsp.dead →
        Ends (.ffrEnd t) s fun d => d.rd Reg.DSP_STATUS_FFR_ACTIVE = 0 ∧ d.rd Reg.DSP_P_FFR_P_FFR = 0 ∧ s.dev.OnlyWrites d [0x80000, 0x80018]) ∧
      (s.dev.rd Reg.DSP_FFR_CTRL_EN = 1 → s.dev.rd Reg.DSP_STATUS_RUNNING = 1 → s.dev.dsp.freqLost = false → b + 8 * max 1 (s.dev.rd Reg.DSP_FFR_CTRL_F_TIMEOUT) < cycleOf (s.dev.nowAt t) →
        Ends (.freqLost t) s fun d => d.dsp.freqLost = true ∧ d.rd Reg.DSP_STATUS_FFR_ACTIVE = 0 ∧ d.rd Reg.DSP_P_FFR_P_FFR = 0 ∧ s.dev.OnlyWrites d [0x80000, 0x80018])) ∧
    ((s.dev.dstr str).grace = some 0 →
      Ends (.derateGraceExpiry t str) s fun d => d.rd Reg.DSP_STR_DER_ENFORCED str = s.dev.rd Reg.DSP_STR_DER_REQUESTED str ∧ d.rd Reg.DSP_STR_STAT_GRACE str = 0 ∧
        (d.dstr str).grace = none ∧ s.dev.OnlyWrites d [Reg.DSP_STR_DER_ENFORCED.addr str 0, Reg.DSP_STR_STAT_GRACE.addr str 0])

/-! ### Chapter 12: the Tripwire -/

/-- A frame copy that is not whole is counted and judges nothing. A cell outside its thresholds for its persistence count latches V of its string; a node's third frame in a row not delivered latches MISSING. An active E-stop or fire input with action 1 latches its global cause: no string stays admitted and every trip output whose mask holds the cause is low; SF_TIMEOUT without a heartbeat does the same. A malformed safety frame is refused and counted; a whole new heartbeat sets SF_OK and latches SF of every string whose bit it leaves clear; a trip frame latches SF of every string it names; a copy that stays single is counted. A difference of an output and its feedback beyond FB_DELAY sets MISMATCH. A wrong CRC of the threshold store leads to HALT with every output low (R309 to R311, R319, R320, R322, R324). (spec/12_protection.md) -/
def Obligations.TripwireLatchesCauses : Prop :=
  ∀ (s : State) (t : Nat) (port : Fin 128) (ring : Fin 64) (cyc pos addr nt seq a found : Nat) (codeErr level bad : Bool) (frame pay : List Byte) (n x : Rec) (j : Nat) (input : Fin 8) (k : Fin 6) (sp : Fin 2)
    (c : SfCopy),
    let caused (d : Dev) (str b : Nat) : Prop := bitAt (d.rd Reg.TRW_STR_CAUSE_CAUSES str) b = true
    let allOut (d : Dev) (b : Nat) : Prop := (∀ str ∈ s.dev.rl.allStrings, str < 256 → d.rd Reg.TRW_STR_STAT_ADMITTED str = 0) ∧
      ∀ o, o < 3 → bitAt (s.dev.rd Reg.TRW_OUT_MASK_MASK o) b = true → bitAt d.pins.tripH o = false
    let g := port.val / 2
    (s.dev.rl.present g = true → bitAt (s.dev.lr g).stopped (port % 2) = false →
      (codeErr = true ∨ crcOk frame = false → Ends (.trwFrameAccept t port cyc pos codeErr frame) s fun d =>
        d.rd Reg.TRW_CNT_CRC_CNT = min (s.dev.rd Reg.TRW_CNT_CRC_CNT + 1) (2 ^ 32 - 1) ∧ s.dev.OnlyWrites d [0x70050] ∧ d.trw.cnt = s.dev.trw.cnt) ∧
      (codeErr = false → crcOk frame = true → nfLenOk frame = true → nfType frame = 1 → nfState frame = 0 → s.dev.scheduled g cyc pos = some (nfAddr frame, 1) → (s.dev.lr g).orig = true →
        s.dev.trwTaken g cyc (nfAddr frame) 1 = false → s.dev.rd Reg.TRW_STATUS_ACTIVE = 1 → s.dev.rl.node g (nfAddr frame) = some n → n.ndString < 256 → j ∈ setBits n.ndCellMask 16 →
        let set := s.dev.rl.tripSet (s.dev.rl.tripSetOf 0 n.ndRing (n.ndCellBase + j))
        cellOutside set (le (frame.take (frame.length - 4)) (2 + 2 * j) 2) = true → set.tpPV ≤ min 16 (s.dev.trw.cnt.get (cntKey 0 n.ndRing (n.ndCellBase + j)) 0 + 1) →
        Ends (.trwFrameAccept t port cyc pos codeErr frame) s fun d => caused d n.ndString cV)) ∧
    ((s.dev.lr ring).orig = true → s.dev.rl.node ring addr = some n → s.dev.trwTaken ring cyc addr nt = false → s.dev.rd Reg.TRW_STATUS_ACTIVE = 1 → nt = 1 ∨ nt = 2 ∨ nt = 4 →
      let key := nodeInst ring addr + b2n (nt == 4) * 2 ^ 13
      Ends (.trwNotDelivered t ring cyc addr nt) s fun d => d.trw.miss.get key 0 = min 3 (s.dev.trw.miss.get key 0 + 1) ∧
        (2 ≤ s.dev.trw.miss.get key 0 → n.ndString < 256 → caused d n.ndString cMissing)) ∧
    (s.dev.rl.pick secPio 4 (fun y => y.u8 8 == input.val) = some x →
      let f := if input.val < 4 then Reg.TRW_GLOBAL_ESTOP else Reg.TRW_GLOBAL_FIRE
      ((level != (x.u8 9 == 1)) = true → x.u8 10 = 1 → s.dev.rd f = 0 → Ends (.estopFireInput t input level) s fun d =>
        d.rd f = 1 ∧ bitAt (d.rd Reg.TRW_GLOBAL_INPUTS) input = true ∧ allOut d (if input.val < 4 then cEstop else cFire)) ∧
      ((level != (x.u8 9 == 1)) = false → Ends (.estopFireInput t input level) s fun d => bitAt (d.rd Reg.TRW_GLOBAL_INPUTS) input = false ∧ s.dev.OnlyWrites d [0x70060])) ∧
    (s.dev.rd Reg.TRW_CFG0_SF_EN = 1 → s.dev.rd Reg.TRW_STATUS_ACTIVE = 1 →
      (crc32c (pay.take 60) ≠ le pay 60 4 → Ends (.safetyFrameReceive t sp pay) s fun d =>
        d.rd Reg.TRW_CNT_SF_REFUSED_CNT = min (s.dev.rd Reg.TRW_CNT_SF_REFUSED_CNT + 1) (2 ^ 32 - 1) ∧ d.rd Reg.TRW_ERR_SF_REFUSED = 1 ∧ s.dev.OnlyWrites d [0x7005C, 0x70014]) ∧
      (pay.length = 64 → le pay 0 2 = 0x4653 → byteAt pay 2 = 1 → crc32c (pay.take 60) = le pay 60 4 → le pay 8 8 = s.dev.rd2 Reg.TRW_SF_SENDER_LO_SENDER Reg.TRW_SF_SENDER_HI_SENDER →
        s.dev.trw.sfSeq = none → s.dev.trw.sfs = [] →
        (byteAt pay 3 = 1 → Ends (.safetyFrameReceive t sp pay) s fun d => d.rd Reg.TRW_STATUS_SF_OK = 1 ∧ d.trw.sfSeq = some (le pay 4 4) ∧ d.trw.hbMask = slice pay 28 32 ∧ d.trw.hbAt = s.dev.ownAt t ∧
          ∀ str ∈ s.dev.rl.allStrings, str < 256 → sfBit pay str = false → caused d str cSf) ∧
        (byteAt pay 3 = 2 → Ends (.safetyFrameReceive t sp pay) s fun d => ∀ str ∈ s.dev.rl.allStrings, str < 256 → sfBit pay str = true → caused d str cSf)) ∧
      (s.dev.trw.hbAt + max 1 (s.dev.rd Reg.TRW_CFG0_SF_TIMEOUT) * 1000000 ≤ s.dev.ownAt t → s.dev.rd Reg.TRW_GLOBAL_SF_TIMEOUT = 0 →
        Ends (.sfTimeout t) s fun d => d.rd Reg.TRW_STATUS_SF_OK = 0 ∧ d.rd Reg.TRW_GLOBAL_SF_TIMEOUT = 1 ∧ allOut d cSf)) ∧
    (s.dev.trw.sfs.find? (fun y => y.seq == seq) = some c → c.paired = false → c.closed = false → c.at_ + max 1 (s.dev.rd Reg.TRW_CFG0_SF_WINDOW) * 1000000 ≤ s.dev.ownAt t →
      Ends (.sfSingle t seq) s fun d => d.rd Reg.TRW_CNT_SF_SINGLE_CNT = min (s.dev.rd Reg.TRW_CNT_SF_SINGLE_CNT + 1) (2 ^ 32 - 1) ∧ ∀ y ∈ d.trw.sfs, y.seq = seq → y.closed = true) ∧
    (s.dev.trw.fbAt.find k = some a → bitAt (s.dev.rd Reg.TRW_CFG1_FB_EN) k = true → bitAt s.dev.tripLevels k ≠ bitAt (s.dev.rd Reg.TRW_OUT_STAT_FB_LEVEL) k →
      bitAt (s.dev.rd Reg.TRW_OUT_STAT_MISMATCH) k = false → a + s.dev.rd Reg.TRW_CFG1_FB_DELAY * 1000000 ≤ s.dev.ownAt t →
      Ends (.feedbackMismatch t k) s fun d => bitAt (d.rd Reg.TRW_OUT_STAT_MISMATCH) k = true ∧ d.rd Reg.TRW_ERR_FB = 1 ∧ s.dev.OnlyWrites d [0x70014]) ∧
    Ends (.tripFbChange t k level) s (fun d => d.rd Reg.TRW_OUT_STAT_FB_LEVEL = setBit (s.dev.rd Reg.TRW_OUT_STAT_FB_LEVEL) k level ∧ s.dev.OnlyWrites d []) ∧
    (s.dev.reel.isSome = true → s.dev.mainOn = true → s.dev.mode ≠ .halt →
      (bad = true ∨ found % 2 ^ 32 ≠ s.dev.rd Reg.TRW_STORE_CRC_CRC → Ends (.trwStoreCheck t found bad) s fun d => d.mode = .halt ∧ d.pins.tripH = 0 ∧ d.pins.tripP = 0 ∧ d.pins.faultN = false) ∧
      (bad = false → found % 2 ^ 32 = s.dev.rd Reg.TRW_STORE_CRC_CRC → Ends (.trwStoreCheck t found bad) s fun d => d.mode = s.dev.mode ∧ s.dev.OnlyWrites d []))

/-- A protected string reset keeps the latched causes whose condition still holds and drops the rest; a global reset likewise. A TRW configuration word is written by a protected requester other than T0 in QUIET, and any other write leaves it and shows CFG_REFUSED. A P entry and P_TRIP are written by the voted bus of T0 alone. A device status frame goes out when due, with the next sequence number. A permit-path test begins at step 1 where the string is ready in RUN with little current; an abort ends it, and a step past its limit ends it with TEST latched; a test overdue is reported once (R314, R316, R320 to R322, R327, R328). (spec/12_protection.md, spec/16_host_access.md) -/
def Obligations.TripwireIsResetConfiguredAndTested : Prop :=
  ∀ (s : State) (t req own_ began off : Nat) (str : Fin 256) (ring : Fin 64) (head : Fin 8) (bank : Fin 4) (v : Word),
    let cause (d : Dev) : Nat := d.rd Reg.TRW_STR_CAUSE_CAUSES str
    let e := 4 * head.val + bank.val
    let x := s.dev.ts str
    (s.dev.Takes req →
      Ends (.trwStrReset t req str) s (fun d => cause d = cause s.dev &&& s.dev.trwHolding str ∧ d.out = [.status req 0] ∧ (cause d = 0 → d.rd Reg.TRW_STR_STAT_LATCHED str = 0 ∧ d.rd Reg.TRW_STR_CAUSE_FIRST str = 0)) ∧
      Ends (.trwResetGlobal t req) s (fun d => d.rd Reg.TRW_GLOBAL_ESTOP = (if s.dev.inputHolds 0 then s.dev.rd Reg.TRW_GLOBAL_ESTOP else 0) ∧
        d.rd Reg.TRW_GLOBAL_FIRE = (if s.dev.inputHolds 1 then s.dev.rd Reg.TRW_GLOBAL_FIRE else 0) ∧
        d.rd Reg.TRW_GLOBAL_SF_TIMEOUT = (if s.dev.rd Reg.TRW_STATUS_SF_OK = 1 ∨ s.dev.rd Reg.TRW_CFG0_SF_EN = 0 then 0 else s.dev.rd Reg.TRW_GLOBAL_SF_TIMEOUT) ∧ d.out = [.status req 0])) ∧
    (s.dev.Takes req → isTrwCfg off = true →
      (s.dev.mode = .quiet → isT0 req = false → Ends (.trwCfgWrite t req off v) s fun d => (∀ f ∈ s.dev.fields off, bitsOf (d.word off).toNat f.lo f.width = bitsOf v.toNat f.lo f.width) ∧
        d.out = [.status req 0] ∧ s.dev.OnlyWrites d [off]) ∧
      (s.dev.mode ≠ .quiet ∨ isT0 req = true → Ends (.trwCfgWrite t req off v) s fun d => d.rd Reg.TRW_ERR_CFG_REFUSED = 1 ∧ d.word off = s.dev.word off ∧ s.dev.OnlyWrites d [0x70014])) ∧
    (s.dev.Takes req →
      (req = 0x80 → Ends (.pPermitWrite t req ring head bank v) s (fun d => d.rd Reg.TRW_P_ENTRY_CTAG ring e = v.toNat % 256 ∧ d.rd Reg.TRW_P_ENTRY_P_CODE ring e = v.toNat / 2 ^ 8 % 256 ∧
          d.rd Reg.TRW_P_ENTRY_P_CHK ring e = v.toNat / 2 ^ 16 % 256 ∧ s.dev.OnlyWrites d [Reg.TRW_P_ENTRY_CTAG.addr ring e]) ∧
        Ends (.trwPTripWrite t req v) s (fun d => d.rd Reg.TRW_P_TRIP_TRIP = v.toNat % 8 ∧ s.dev.OnlyWrites d [0x70034])) ∧
      (req ≠ 0x80 → Ends (.pPermitWrite t req ring head bank v) s (fun d => ∀ b, d.rd Reg.TRW_P_ENTRY_P_CODE ring b = s.dev.rd Reg.TRW_P_ENTRY_P_CODE ring b) ∧
        Ends (.trwPTripWrite t req v) s fun d => d.rd Reg.TRW_P_TRIP_TRIP = s.dev.rd Reg.TRW_P_TRIP_TRIP)) ∧
    ((begin_ t s.dev).sfDue = true → Ends (.sfStatusSend t) s fun d => d.trw.txSeq = (s.dev.trw.txSeq + 1) % 2 ^ 32 ∧ d.trw.txAt = some (s.dev.ownAt t)) ∧
    (s.dev.Takes req →
      (s.dev.trw.test = none → s.dev.mode = .run → s.dev.actRole = true → x.cur ≤ s.dev.rd Reg.TRW_CFG2_TEST_I * 100 → s.dev.rd Reg.TRW_STR_STAT_ADMITTED str = 1 → cause s.dev = 0 →
        s.dev.globalCauses = 0 → s.dev.rd Reg.TRW_STR_STAT_H_GRANT str = 1 → s.dev.rd Reg.TRW_STR_STAT_P_GRANT str = 1 → bitAt x.sfl 2 = true →
        bitAt (s.dev.rd Reg.TRW_STR_STAT_CONTACT str) 0 = true → bitAt (s.dev.rd Reg.TRW_STR_STAT_CONTACT str) 1 = true →
        Ends (.trwTestGo t req str) s fun d => d.trw.test = some (str.val, s.dev.ownAt t, s.dev.nowAt t) ∧ d.rd Reg.TRW_TEST_STAT_STEP = 1 ∧ d.rd Reg.TRW_TEST_STAT_STRING = str ∧
          d.rd Reg.TRW_TEST_STAT_STATUS = 0 ∧ d.rd Reg.TRW_STATUS_TEST_BUSY = 1 ∧ d.rd Reg.TRW_STR_STAT_TEST str = 1) ∧
      (s.dev.trw.test = some (str.val, own_, began) → Ends (.trwTestAbort t req) s fun d => d.trw.test = none ∧ d.rd Reg.TRW_TEST_STAT_STEP = 6 ∧ d.rd Reg.TRW_STATUS_TEST_BUSY = 0 ∧
        d.rd Reg.TRW_STR_STAT_TEST str = 0 ∧ cause d = cause s.dev)) ∧
    (s.dev.trw.test = some (str.val, own_, began) → own_ + s.dev.testLimit ≤ s.dev.ownAt t →
      Ends (.testStepLimit t) s fun d => d.trw.test = none ∧ d.rd Reg.TRW_TEST_STAT_STEP = 6 ∧ d.rd Reg.TRW_STATUS_TEST_BUSY = 0 ∧ bitAt (cause d) cTest = true) ∧
    (s.dev.rd Reg.TRW_CFG2_TEST_DAYS ≠ 0 → s.dev.rd Reg.TRW_CFG2_TEST_DAYS * 86400 < s.dev.rd Reg.TRW_STR_TEST_AGE str → x.due = false → (s.dev.rl.headOf str).isSome = true →
      Ends (.testDue t str) s fun d => (d.ts str).due = true ∧ s.dev.OnlyWrites d [])

/-! ### Chapter 8: the queue fabric -/

/-- For a requester that is the queue's producer, is refused nothing and lost no lock, the command completes with status OK: a single push appends the value as one item with VALID set; OPEN takes the producer lock with an empty open packet; APPEND adds the item, with VALID set and HEAD and LAST clear, to the producer's own open packet; CLOSE appends the packet, its head with HEAD, VALID, the payload and ERR of the value and the count of items, LAST set on the last item, and gives the lock up. A single push, OPEN and APPEND need one free slot, CLOSE none. Every other queue stays as it is (R208, R216, R217). The low word of a doorbell write waits for the high word (R208). (spec/08_queue_fabric.md) -/
def Obligations.PushesStoreInOrder : Prop :=
  ∀ (s : State) (t req qid : Nat) (v : Item) (w : Word) (q : Queue),
    (s.dev.MayUse req qid false q →
      (q.openp = none → q.level + 1 ≤ q.qd.depth →
        Ends (.qfPushSingle t req qid v) s (fun d => d.Holds qid (q.units ++ [.one ((v &&& 0x3FFFFFFFFFFFFFFF#64) ||| 0x8000000000000000#64)]) none q.reading ∧
          d.out = [.status req 0] ∧ s.dev.SparesQueues d qid) ∧
        Ends (.qfOpen t req qid v) s (fun d => d.Holds qid q.units (some { req := req, items := [], discard := false, gone := false }) q.reading ∧
          d.out = [.status req 0] ∧ s.dev.SparesQueues d qid)) ∧
      (∀ items, q.openp = some { req := req, items := items, discard := false, gone := false } →
        (q.level + 1 ≤ q.qd.depth → items.length < 65535 →
          Ends (.qfAppend t req qid v) s (fun d =>
            d.Holds qid q.units (some { req := req, items := items ++ [(v &&& 0x1FFFFFFFFFFFFFFF#64) ||| 0x8000000000000000#64], discard := false, gone := false }) q.reading ∧
            d.out = [.status req 0] ∧ s.dev.SparesQueues d qid)) ∧
        Ends (.qfClose t req qid v) s (fun d => d.Holds qid (q.units ++ [.pkt (headItem v (itemErr v) items.length) (markLast items)]) none q.reading ∧
          d.out = [.status req 0] ∧ s.dev.SparesQueues d qid))) ∧
    Ends (.doorbellLowWrite t req qid w) s (fun d => (d.rq req).held = some w.toNat ∧ d.out = [.status req 0] ∧ d.qf = s.dev.qf)

/-- For a requester that is the queue's consumer, is refused nothing and lost no lock, where no other requester reads: a pop of a single item removes it; a pop of a packet answers its head and takes the consumer lock for the rest; the reader's next pop answers the next item, and gives the lock up with the last. The item goes to the requester, its high word into the latch that DOORBELL_HIGH_READ answers. On an empty near queue the reader waits and nothing is answered, until POP_WAIT_RESUME answers the item that became readable or, after 8 us, HOST_POP_TIMEOUT answers a not-valid item with TIMEOUT; an empty far queue answers a not-valid item at once (R208, R210, R223). (spec/08_queue_fabric.md) -/
def Obligations.PopsReadInOrder : Prop :=
  ∀ (s : State) (t req qid : Nat) (q : Queue) (it a : Item) (l : List Item) (us : List QUnit),
    (s.dev.MayUse req qid true q →
      (q.reading = none → q.units = .one it :: us →
        Ends (.qfPop t req qid) s (fun d => d.Holds qid us q.openp none ∧ d.out = [.item req qid it] ∧ (d.rq req).high = it.toNat / 2 ^ 32 ∧ s.dev.SparesQueues d qid) ∧
        (isLane req = false → (∃ since, (s.dev.rq req).pop = some (qid, since)) →
          Ends (.popWaitResume t req qid) s (fun d => d.Holds qid us q.openp none ∧ d.out = [.item req qid it] ∧ (d.rq req).pop = none ∧ s.dev.SparesQueues d qid))) ∧
      (q.reading = none → q.units = .pkt it (a :: l) :: us →
        Ends (.qfPop t req qid) s (fun d => d.Holds qid us q.openp (some { req := req, rest := a :: l }) ∧ d.out = [.item req qid it] ∧ s.dev.SparesQueues d qid)) ∧
      (∀ b, q.reading = some { req := req, rest := it :: b :: l } →
        Ends (.qfPop t req qid) s (fun d => d.Holds qid q.units q.openp (some { req := req, rest := b :: l }) ∧ d.out = [.item req qid it] ∧ s.dev.SparesQueues d qid)) ∧
      (q.reading = some { req := req, rest := [it] } →
        Ends (.qfPop t req qid) s (fun d => d.Holds qid q.units q.openp none ∧ d.out = [.item req qid it] ∧ s.dev.SparesQueues d qid)) ∧
      (q.reading = none → q.units = [] →
        (qid < 0x10000 → Ends (.qfPop t req qid) s (fun d => d.out = [] ∧ (d.rq req).pop = some (qid, s.dev.ownAt t) ∧ d.qf = s.dev.qf)) ∧
        (0x10000 ≤ qid → Ends (.qfPop t req qid) s (fun d => d.out = [.item req qid 0#64] ∧ d.qf = s.dev.qf)))) ∧
    Ends (.doorbellHighRead t req qid) s (fun d => d.out = [.half req qid (BitVec.ofNat 32 (s.dev.rq req).high)] ∧ d.qf = s.dev.qf) ∧
    (∀ since, (s.dev.rq req).pop = some (qid, since) → isLane req = false → since + 8000 ≤ s.dev.ownAt t →
      Ends (.hostPopTimeout t req) s (fun d => d.out = [.item req qid 1#64] ∧ (d.rq req).pop = none ∧ d.qf = s.dev.qf))

/-- For a requester that is refused nothing and lost no lock on the queue, the command completes with status OK. CUT discards the rest of the unit that the requester reads, or a whole oldest packet that nobody reads; ABORT closes the producer's open packet with ERR and COUNT as appended; RELEASE gives up the locks that the requester holds, as CUT and ABORT do, and needs no right to the queue; FLUSH, on a queue whose consumer is a program, discards every closed unit. Every other queue stays as it is (R219, R224, R230). (spec/08_queue_fabric.md) -/
def Obligations.QueueCommandsDiscardAndRelease : Prop :=
  ∀ (s : State) (t req qid : Nat) (q : Queue) (h : Item) (rest items : List Item) (us : List QUnit),
    (s.dev.MayUse req qid true q →
      (q.reading = some { req := req, rest := rest } →
        Ends (.qfCut t req qid) s (fun d => d.Holds qid q.units q.openp none ∧ d.out = [.status req 0] ∧ s.dev.SparesQueues d qid)) ∧
      (q.reading = none → q.units = .pkt h items :: us →
        Ends (.qfCut t req qid) s (fun d => d.Holds qid us q.openp none ∧ d.out = [.status req 0] ∧ s.dev.SparesQueues d qid)) ∧
      (isProgram q.qd.consumer = true → q.reading = none → q.openp = none →
        Ends (.qfFlush t req qid) s (fun d => d.Holds qid [] none none ∧ d.out = [.status req 0] ∧ s.dev.SparesQueues d qid))) ∧
    (s.dev.MayUse req qid false q → q.openp = some { req := req, items := items, discard := false, gone := false } →
      Ends (.qfAbort t req qid) s (fun d => d.Holds qid (q.units ++ [.pkt (headItem 0#64 true items.length) (markLast items)]) none q.reading ∧
        d.out = [.status req 0] ∧ s.dev.SparesQueues d qid)) ∧
    (s.dev.qf.qs.find qid = some q → s.dev.NoEvents qid →
      (q.reading = some { req := req, rest := rest } → q.openp = none →
        Ends (.qfRelease t req qid) s (fun d => d.Holds qid q.units none none ∧ d.out = [.status req 0] ∧ s.dev.SparesQueues d qid)) ∧
      (q.reading = none → q.openp = some { req := req, items := items, discard := false, gone := false } →
        Ends (.qfRelease t req qid) s (fun d => d.Holds qid (q.units ++ [.pkt (headItem 0#64 true items.length) (markLast items)]) none none ∧
          d.out = [.status req 0] ∧ s.dev.SparesQueues d qid)))

/-- Once the own clock has passed the last use of a producer lock by the lock timeout, and its holder does not wait on the queue, LOCK_RECLAIM_PRODUCER closes the open packet with ERR, releases the lock and leaves LOCK_LOST to the holder; for a consumer lock, LOCK_RECLAIM_CONSUMER discards the rest of the unit, releases the lock and leaves LOCK_LOST. Both set QF_ERR.RECLAIM and count in QF_CNT_RECLAIM, which saturates. (spec/08_queue_fabric.md) -/
def Obligations.LocksAreReclaimed : Prop :=
  ∀ (s : State) (t qid r : Nat) (q : Queue) (items rest : List Item),
    s.dev.qf.qs.find qid = some q → s.dev.NoEvents qid →
    let past (a : Nat) : Prop := a + s.dev.rd Reg.QF_LOCK_TIMEOUT_TIMEOUT * 1000 ≤ s.dev.ownAt t
    let noted (d : Dev) : Prop := d.rd Reg.QF_ERR_RECLAIM = 1 ∧
      d.rd Reg.QF_CNT_RECLAIM_CNT = min (s.dev.rd Reg.QF_CNT_RECLAIM_CNT + 1) (2 ^ Reg.QF_CNT_RECLAIM_CNT.width - 1) ∧
      ∃ q', d.qf.qs.find qid = some q' ∧ r ∈ q'.lost
    (q.openp = some { req := r, items := items, discard := false, gone := false } → past (s.dev.qf.prodAt.get qid 0) →
      (∀ w, s.dev.qf.lanes.find r = some w → w.qid ≠ qid) →
      Ends (.lockReclaimProducer t qid) s fun d => d.Holds qid (q.units ++ [.pkt (headItem 0#64 true items.length) (markLast items)]) none q.reading ∧ noted d) ∧
    (q.reading = some { req := r, rest := rest } → past (s.dev.qf.consAt.get qid 0) →
      Ends (.lockReclaimConsumer t qid) s fun d => d.Holds qid q.units q.openp none ∧ noted d)

/-- BLOCK_WAIT_RESUME stores the oldest engine write that waits for the queue once it has room, and removes it from the waits; STALL_WARN sets QF_ERR.STALL for a write that has waited longer than QF_STALL_WARN, and marks it so that it is reported once; QF_ECC_UNCORRECTABLE sets ERR in a stored item, keeping its other tag bits, its payload being open (R229; the model's free value, assumption log 2), or empties a queue whose descriptor state is lost, with LOSS set and its locks released (R212, R225, R228, R229). (spec/08_queue_fabric.md) -/
def Obligations.QueueWaitsAndErrors : Prop :=
  ∀ (s : State) (t qid : Nat) (q : Queue) (it : Item) (us : List QUnit) (w : QWait),
    s.dev.qf.qs.find qid = some q → s.dev.NoEvents qid →
    (s.dev.qf.waits = [w] → w.qids = [qid] → w.unit = .one it → s.dev.qf.lanes = [] → q.level + 1 ≤ q.qd.depth →
      Ends (.blockWaitResume t qid) s fun d => d.Holds qid (q.units ++ [.one it]) q.openp q.reading ∧ d.qf.waits = []) ∧
    (w ∈ s.dev.qf.waits → qid ∈ w.qids → w.warned = false → w.at_ + s.dev.rd Reg.QF_STALL_WARN_WARN * 1000 < s.dev.ownAt t →
      Ends (.stallWarn t qid) s fun d => d.rd Reg.QF_ERR_STALL = 1 ∧ { w with warned := true } ∈ d.qf.waits) ∧
    Ends (.qfEccUncorrectable t qid 0 true) s (fun d => d.Holds qid [] none none ∧ d.rd Reg.QF_ERR_META = 1) ∧
    (q.units = .one it :: us →
      Ends (.qfEccUncorrectable t qid 0 false) s fun d => d.rd Reg.QF_ERR_ECC_UNCORR = 1 ∧
        ∃ x : Item, d.Holds qid (.one x :: us) q.openp q.reading ∧ x.getLsbD 60 = true ∧ x.getLsbD 61 = it.getLsbD 61 ∧ x.getLsbD 62 = it.getLsbD 62 ∧ x.getLsbD 63 = it.getLsbD 63)

/-- A read of QF_QSTAT answers the word of Table 8.7 and latches QF_QWM for the requester; a write of WM_EVT clears it with CROSS and brings PEAK to the level; a write of LOSS clears it. A protected queue takes these writes from a protected requester alone; units and locks stay as they are (R215, R220, R221). (spec/08_queue_fabric.md) -/
def Obligations.QueueStatusRegisters : Prop :=
  ∀ (s : State) (t req qid : Nat) (q : Queue), s.dev.qf.qs.find qid = some q →
    Ends (.qstatRead t req qid) s (fun d =>
      d.out = [.word req (0x1000000 + 8 * qid) (BitVec.ofNat 32 (q.level % 2 ^ 21 + b2n q.wmEvt * 2 ^ 21 + b2n q.loss * 2 ^ 22 + b2n q.openp.isSome * 2 ^ 23 + q.cross % 256 * 2 ^ 24))] ∧
      (d.rq req).qwm = some (qid, min q.peak 65535 + q.qd.wmHigh % 65536 * 65536) ∧ d.qf = s.dev.qf) ∧
    (q.qd.prot = false ∨ s.dev.reqProt req = true →
      Ends (.qstatWmClear t req qid) s (fun d => d.qf.qs.find qid = some { q with wmEvt := false, cross := 0, peak := min q.level 65535 } ∧ d.out = [.status req 0] ∧
        s.dev.SparesQueues d qid) ∧
      Ends (.qstatLossClear t req qid) s (fun d => d.qf.qs.find qid = some { q with loss := false } ∧ d.out = [.status req 0] ∧ s.dev.SparesQueues d qid))

/-- For a unit that votes or runs split, stands at the instruction with a queue number below 2^20 in ra, an allowed register pair, and is refused nothing: QPUSH and QPUSHT append a single item with room for it and write 0 to rd; QPUSH2 (HEAD clear in both words, LAST set in the second) appends both items as one unit with room for two; QPOP and QPOPT write the oldest single item to the pair and 0 to rd; QCUT discards a packet nobody reads, QABORT closes its open packet with ERR, QRELEASE gives up its producer lock so; QF_RESULT shows the status. A QPOPT that waits on an empty near queue ends after its limit with a not-valid item with TIMEOUT and status 0, rd 0, on the next word, with the queues as they are (R210, R363 to R365, R518). (spec/14_triad_instruction_set.md, spec/08_queue_fabric.md) -/
def Obligations.TriadQueueInstructions : Prop :=
  (∀ (s : State) (t qid : Nat) (tr : Fin 4) (l : Fin 6) (rp ra rd : Fin 32) (tmo : BitVec 8) (q : Queue) (it h : Item) (items : List Item) (us : List QUnit),
      let x := (s.dev.unitLane tr l).core
      let req := unitReq tr l
      let v : Item := BitVec.ofNat 64 ((x.rd (rp.val + 1)).toNat * 2 ^ 32 + (x.rd rp).toNat)
      let v2 : Item := BitVec.ofNat 64 ((x.rd (rp.val + 3)).toNat * 2 ^ 32 + (x.rd (rp.val + 2)).toNat)
      let stored (v : Item) : Item := (v &&& 0x3FFFFFFFFFFFFFFF#64) ||| 0x8000000000000000#64
      let retired (d : Dev) (c : Core) : Prop := (∀ k ∈ s.dev.members tr l, (d.lane tr k).core = c.fallsTo rd 0#32) ∧ (d.rq req).status = 0 ∧ (d.rq req).qid = qid
      l.val < 3 → x.rd ra = BitVec.ofNat 32 qid → qid < 2 ^ 20 →
      (s.dev.MayUse req qid false q →
        (q.openp = none → rp.val % 2 = 0 → v.getLsbD 62 = false → q.level + 1 ≤ q.qd.depth →
          (s.dev.Stands tr l (wQ rp ra rd 0 0) → Ends (.qpush t tr l rp ra rd) s fun d => d.Holds qid (q.units ++ [.one (stored v)]) none q.reading ∧ retired d x) ∧
          (s.dev.Stands tr l (wQ rp ra rd 7 tmo.toNat) → Ends (.qpusht t tr l rp ra rd tmo) s fun d => d.Holds qid (q.units ++ [.one (stored v)]) none q.reading ∧ retired d x)) ∧
        (q.openp = none → rp.val % 4 = 0 → v.getLsbD 62 = false → v2.getLsbD 62 = false → v2.getLsbD 61 = true → q.level + 2 ≤ q.qd.depth →
          s.dev.Stands tr l (wQ rp ra rd 6 0) → Ends (.qpush2 t tr l rp ra rd) s fun d => ∃ a b, d.Holds qid (q.units ++ [.ev a b]) none q.reading ∧
            a = (v &&& 0x1FFFFFFFFFFFFFFF#64) ||| 0x8000000000000000#64 ∧ b = (v2 &&& 0x1FFFFFFFFFFFFFFF#64) ||| 0xA000000000000000#64 ∧ retired d x) ∧
        (q.openp = some { req := req, items := items, discard := false, gone := false } →
          s.dev.Stands tr l (wQ 0 ra rd 4 0) → Ends (.qabort t tr l ra rd) s fun d => d.Holds qid (q.units ++ [.pkt (headItem 0#64 true items.length) (markLast items)]) none q.reading ∧ retired d x)) ∧
      (s.dev.qf.qs.find qid = some q → s.dev.NoEvents qid → q.reading = none → q.openp = some { req := req, items := items, discard := false, gone := false } →
        s.dev.Stands tr l (wQ 0 ra rd 5 0) → Ends (.qrelease t tr l ra rd) s fun d => d.Holds qid (q.units ++ [.pkt (headItem 0#64 true items.length) (markLast items)]) none none ∧ retired d x) ∧
      (s.dev.MayUse req qid true q → q.reading = none →
        (q.units = .one it :: us → rp.val % 2 = 0 →
          let c := (x.put rp (it.setWidth 32)).put (rp.val + 1) ((it >>> 32).setWidth 32)
          (s.dev.Stands tr l (wQ rp ra rd 1 0) → Ends (.qpop t tr l rp ra rd) s fun d => d.Holds qid us q.openp none ∧ retired d c) ∧
          (s.dev.Stands tr l (wQ rp ra rd 2 tmo.toNat) → Ends (.qpopt t tr l rp ra rd tmo) s fun d => d.Holds qid us q.openp none ∧ retired d c)) ∧
        (q.units = .pkt h items :: us →
          s.dev.Stands tr l (wQ 0 ra rd 3 0) → Ends (.qcut t tr l ra rd) s fun d => d.Holds qid us q.openp none ∧ retired d x))) ∧
  (∀ (s : State) (t : Nat) (tr : Fin 4) (l : Fin 3) (rp ra rd : Fin 32) (tmo : BitVec 8) (w : LWait) (n : Nat),
      let x := s.dev.unitLane tr l
      s.dev.unitRuns tr l = true → x.fetch = some (wQ rp ra rd 2 tmo.toNat) → (∀ k ∈ s.dev.members tr l, (s.dev.lane tr k).step = false ∧ (s.dev.lane tr k).skip = false) →
      s.dev.qf.lanes.find (unitReq tr l) = some w → w.op = 2 → w.qid < 0x10000 → w.tmo = some n → w.at_ + n * 1000 ≤ s.dev.ownAt t →
      Ends (.queueWaitTimeout t tr (l.castLE (by decide))) s fun d =>
        (∀ k ∈ s.dev.members tr l, (d.lane tr k).core = { (((x.core.put rp 1#32).put (rp.val + 1) 0#32).put rd 0#32) with pc := x.core.pc + 4#32, instret := x.core.instret + 1#32, wait := none }) ∧
        d.qf.lanes.find (unitReq tr l) = none ∧ d.qf.qs = s.dev.qf.qs)

/-! ### Chapter 14: the instruction set -/

/-- Wherever a unit stands at the word of one of the R-format instructions that set no flag, the command completes: every lane of the unit holds the result of Table 14.3 in rd (a write of g0 is discarded, g0 reads 0), goes on to the next word and counts one instruction retired; flags, special registers, memories, other lanes, queues and every other register stay as they are. Shifts and rotates take their amount from the low 8 bits of the operand. (spec/14_triad_instruction_set.md) -/
def Obligations.ArithmeticAndLogic : Prop :=
  ∀ (s : State) (t : Nat) (tr : Fin 4) (l : Fin 6) (rd ra rb : Fin 32),
    let op (c : Instr) (fn : Nat) (f : Word → Word → Word) : Prop :=
      Executes c s tr l (wR 0 rd ra rb fn) fun c => c.fallsTo rd (f (c.rd ra) (c.rd rb))
    op (.add t tr l rd ra rb) 0x01 (fun a b => a + b) ∧
    op (.sub t tr l rd ra rb) 0x02 (fun a b => a - b) ∧
    op (.and t tr l rd ra rb) 0x08 (fun a b => a &&& b) ∧
    op (.or t tr l rd ra rb) 0x09 (fun a b => a ||| b) ∧
    op (.xor t tr l rd ra rb) 0x0A (fun a b => a ^^^ b) ∧
    op (.nor t tr l rd ra rb) 0x0B (fun a b => ~~~(a ||| b)) ∧
    op (.andn t tr l rd ra rb) 0x0C (fun a b => a &&& ~~~b) ∧
    op (.sll t tr l rd ra rb) 0x10 (fun a b => BitVec.ofNat 32 (a.toNat * 2 ^ (b.toNat % 256))) ∧
    op (.srl t tr l rd ra rb) 0x11 (fun a b => BitVec.ofNat 32 (a.toNat / 2 ^ (b.toNat % 256))) ∧
    op (.sra t tr l rd ra rb) 0x12 (fun a b => BitVec.ofInt 32 (a.toInt / 2 ^ (b.toNat % 256))) ∧
    op (.ror t tr l rd ra rb) 0x13 (fun a b => a.rotateRight (b.toNat % 256)) ∧
    op (.rol t tr l rd ra rb) 0x14 (fun a b => a.rotateLeft (b.toNat % 256)) ∧
    op (.slt t tr l rd ra rb) 0x18 (fun a b => if a.toInt < b.toInt then 1#32 else 0#32) ∧
    op (.sltu t tr l rd ra rb) 0x19 (fun a b => if a.toNat < b.toNat then 1#32 else 0#32) ∧
    op (.min t tr l rd ra rb) 0x1A (fun a b => BitVec.ofInt 32 (min a.toInt b.toInt)) ∧
    op (.max t tr l rd ra rb) 0x1B (fun a b => BitVec.ofInt 32 (max a.toInt b.toInt)) ∧
    op (.minu t tr l rd ra rb) 0x1C (fun a b => BitVec.ofNat 32 (min a.toNat b.toNat)) ∧
    op (.maxu t tr l rd ra rb) 0x1D (fun a b => BitVec.ofNat 32 (max a.toNat b.toNat)) ∧
    op (.mul t tr l rd ra rb) 0x20 (fun a b => BitVec.ofNat 32 (a.toNat * b.toNat)) ∧
    op (.mulh t tr l rd ra rb) 0x21 (fun a b => BitVec.ofInt 32 (a.toInt * b.toInt / 2 ^ 32)) ∧
    op (.mulhu t tr l rd ra rb) 0x22 (fun a b => BitVec.ofNat 32 (a.toNat * b.toNat / 2 ^ 32)) ∧
    (rb = 0 → op (.clz t tr l rd ra) 0x28 (fun a _ => BitVec.ofNat 32 (32 - (List.range 32).foldl (fun n i => if a.getLsbD i then i + 1 else n) 0))) ∧
    (rb = 0 → op (.popc t tr l rd ra) 0x29 (fun a _ => BitVec.ofNat 32 ((List.range 32).filter (fun i => a.getLsbD i)).length))

/-- Wherever a unit stands at the word of ADDO, SUBO, NEG, ABS, DIV, DIVU, REM or REMU, the command completes: rd holds the result of Tables 14.3 and 14.5 and the flag named there is set on top of the flags that stood (a division by zero gives 0, its remainder ra, and sets DZ; the most negative value divided by -1 gives itself, its remainder 0, and sets OV). Where the flag's trap enable is clear the unit goes on to the next word; where it is set, a handler is set and none runs, it traps after the instruction, with the next address saved, cause 4 for DZ and 5 for OV and no information. Everything else stays as it is. (R360) -/
def Obligations.ArithmeticThatSetsFlags : Prop :=
  ∀ (s : State) (t : Nat) (tr : Fin 4) (l : Fin 6) (rd ra rb : Fin 32),
    let x := (s.dev.unitLane tr l).core
    let minus : Word := 0x80000000#32
    let out (v : Int) : Nat := if v < -2 ^ 31 ∨ 2 ^ 31 ≤ v then 2 else 0
    let op (c : Instr) (rb : Nat) (fn : Nat) (f : Word → Word → Word × Nat) : Prop :=
      let v := (f (x.rd ra) (x.rd rb)).1
      let fl := (f (x.rd ra) (x.rd rb)).2
      (fl &&& x.trapen = 0 → Executes c s tr l (wR 0 rd ra rb fn) fun c => (c.fallsTo rd v).flagged fl) ∧
      (fl &&& x.trapen ≠ 0 → x.tvec ≠ 0#32 → x.inTrap = false →
        Executes c s tr l (wR 0 rd ra rb fn) fun c => ((c.fallsTo rd v).flagged fl).trapped (c.pc + 4#32) (if fl = 4 then 4 else 5) 0)
    op (.addo t tr l rd ra rb) rb 0x03 (fun a b => (a + b, out (a.toInt + b.toInt))) ∧
    op (.subo t tr l rd ra rb) rb 0x04 (fun a b => (a - b, out (a.toInt - b.toInt))) ∧
    op (.neg t tr l rd ra) 0 0x05 (fun a _ => (-a, if a = minus then 2 else 0)) ∧
    op (.abs t tr l rd ra) 0 0x06 (fun a _ => (BitVec.ofNat 32 a.toInt.natAbs, if a = minus then 2 else 0)) ∧
    op (.div t tr l rd ra rb) rb 0x24 (fun a b =>
      if b = 0#32 then (0#32, 4) else if a = minus ∧ b.toInt = -1 then (minus, 2) else (BitVec.ofInt 32 (a.toInt.tdiv b.toInt), 0)) ∧
    op (.rem t tr l rd ra rb) rb 0x26 (fun a b =>
      if b = 0#32 then (a, 4) else if a = minus ∧ b.toInt = -1 then (0#32, 2) else (BitVec.ofInt 32 (a.toInt.tmod b.toInt), 0)) ∧
    op (.divu t tr l rd ra rb) rb 0x25 (fun a b => if b = 0#32 then (0#32, 4) else (BitVec.ofNat 32 (a.toNat / b.toNat), 0)) ∧
    op (.remu t tr l rd ra rb) rb 0x27 (fun a b => if b = 0#32 then (a, 4) else (BitVec.ofNat 32 (a.toNat % b.toNat), 0))

/-- Wherever a unit stands at the word of an I-format arithmetic or logic instruction, the command completes: rd holds the result of Table 14.4 (sign-extended immediate for ADDI, SLTI and SLTIU, zero-extended for ANDI, ORI and XORI, in the upper half for LUI, the low 8 bits as an amount for the shifts), the unit goes on to the next word, and everything else stays as it is. (R358) -/
def Obligations.ImmediateInstructions : Prop :=
  ∀ (s : State) (t : Nat) (tr : Fin 4) (l : Fin 6) (rd ra : Fin 32) (imm : BitVec 16) (n : BitVec 8),
    let op (c : Instr) (op ra imm : Nat) (f : Word → Word) : Prop := Executes c s tr l (wI op rd ra imm) fun c => c.fallsTo rd (f (c.rd ra))
    let i : Word := imm.signExtend 32
    let z : Word := imm.setWidth 32
    op (.addi t tr l rd ra imm) 0x01 ra imm.toNat (fun a => a + i) ∧
    op (.slti t tr l rd ra imm) 0x02 ra imm.toNat (fun a => if a.toInt < i.toInt then 1#32 else 0#32) ∧
    op (.sltiu t tr l rd ra imm) 0x03 ra imm.toNat (fun a => if a.toNat < i.toNat then 1#32 else 0#32) ∧
    op (.andi t tr l rd ra imm) 0x04 ra imm.toNat (fun a => a &&& z) ∧
    op (.ori t tr l rd ra imm) 0x05 ra imm.toNat (fun a => a ||| z) ∧
    op (.xori t tr l rd ra imm) 0x06 ra imm.toNat (fun a => a ^^^ z) ∧
    op (.lui t tr l rd imm) 0x07 0 imm.toNat (fun _ => BitVec.ofNat 32 (imm.toNat * 2 ^ 16)) ∧
    op (.slli t tr l rd ra n) 0x08 ra n.toNat (fun a => BitVec.ofNat 32 (a.toNat * 2 ^ n.toNat)) ∧
    op (.srli t tr l rd ra n) 0x09 ra n.toNat (fun a => BitVec.ofNat 32 (a.toNat / 2 ^ n.toNat)) ∧
    op (.srai t tr l rd ra n) 0x0A ra n.toNat (fun a => BitVec.ofInt 32 (a.toInt / 2 ^ n.toNat)) ∧
    op (.rori t tr l rd ra n) 0x0B ra n.toNat (fun a => a.rotateRight n.toNat)

/-- Wherever a unit stands at the word of LW, LH, LHU, LB or LBU, no lane reports a memory error, and ea (ra plus the sign-extended immediate, mod 2^32) is aligned and lies in the instruction or data TCM, the command completes: rd holds the word, or the sign- or zero-extended halfword or byte at ea in little-endian order, and everything else, all memory included, stays as it is. Where ea is not aligned, a handler is set and none runs, the unit traps in place with cause 2 and ea (R361, R371). (spec/14_triad_instruction_set.md, spec/13_triad_complex.md) -/
def Obligations.LoadsFromTcm : Prop :=
  ∀ (s : State) (t : Nat) (tr : Fin 4) (l : Fin 6) (rd ra : Fin 32) (imm : BitVec 16),
    let x := s.dev.unitLane tr l
    let ea := (x.core.rd ra + imm.signExtend 32).toNat
    let op (c : Instr) (op size : Nat) (f : Word → Word) : Prop :=
      (ea % size = 0 → (∀ w, (ea < 0x40000 ∧ w = x.itcm.get (ea / 4) 0#32 ∨ 0x10000000 ≤ ea ∧ ea < 0x10040000 ∧ w = x.dtcm.get ((ea - 0x10000000) / 4) 0#32) →
        Executes c s tr l (wI op rd ra imm.toNat) fun c => c.fallsTo rd (f (w >>> (8 * (ea % 4)))))) ∧
      (ea % size ≠ 0 → x.core.tvec ≠ 0#32 → x.core.inTrap = false → Executes c s tr l (wI op rd ra imm.toNat) fun c => c.trapped c.pc 2 ea)
    op (.lw t tr l rd ra imm []) 0x10 4 (fun w => w) ∧
    op (.lh t tr l rd ra imm []) 0x11 2 (fun w => (w.setWidth 16).signExtend 32) ∧
    op (.lhu t tr l rd ra imm []) 0x12 2 (fun w => (w.setWidth 16).setWidth 32) ∧
    op (.lb t tr l rd ra imm []) 0x13 1 (fun w => (w.setWidth 8).signExtend 32) ∧
    op (.lbu t tr l rd ra imm []) 0x14 1 (fun w => (w.setWidth 8).setWidth 32)

/-- Wherever a unit stands at the word of SW, SH or SB and ea is aligned and lies in data TCM, the command completes: the word at ea holds rs, or has its halfword or byte at ea replaced by the low part of rs, in every lane of the unit; every other word of data TCM, the whole instruction TCM, and everything else but the PC stay as they are. Where ea is not aligned, a handler is set and none runs, the unit traps in place with cause 2 and ea, and memory stays as it is (R361, R371). (spec/14_triad_instruction_set.md, spec/13_triad_complex.md) -/
def Obligations.StoresToTcm : Prop :=
  ∀ (s : State) (t : Nat) (tr : Fin 4) (l : Fin 6) (rs ra : Fin 32) (imm : BitVec 16),
    let x := s.dev.unitLane tr l
    let ea := (x.core.rd ra + imm.signExtend 32).toNat
    let k := (ea - 0x10000000) / 4
    let op (c : Instr) (op size : Nat) (mask : Word) : Prop :=
      (ea % size = 0 → 0x10000000 ≤ ea → ea < 0x10040000 → s.dev.Stands tr l (wI op rs ra imm.toNat) →
        Ends c s fun d => ∃ m : Lane, m.itcm = x.itcm ∧
          m.dtcm.get k 0#32 = (x.dtcm.get k 0#32 &&& ~~~(mask <<< (8 * (ea % 4)))) ||| ((x.core.rd rs &&& mask) <<< (8 * (ea % 4))) ∧
          (∀ j, j ≠ k → m.dtcm.get j 0#32 = x.dtcm.get j 0#32) ∧
          s.dev.Retires d tr l m (x.core.goesTo (x.core.pc + 4#32))) ∧
      (ea % size ≠ 0 → x.core.tvec ≠ 0#32 → x.core.inTrap = false → Executes c s tr l (wI op rs ra imm.toNat) fun c => c.trapped c.pc 2 ea)
    op (.sw t tr l rs ra imm) 0x18 4 0xFFFFFFFF#32 ∧
    op (.sh t tr l rs ra imm) 0x19 2 0xFFFF#32 ∧
    op (.sb t tr l rs ra imm) 0x1A 1 0xFF#32

/-- Wherever a unit stands at the word of a branch, the command completes with the PC at PC + 4 x offset when the comparison holds and at the next word when not; J and JAL go to PC + 4 x offset, JAL with g31 = PC + 4; JALR goes to ra plus the sign-extended immediate with rd = PC + 4 when that is a multiple of 4, and traps in place with ALIGN and the target, writing neither rd nor PC, when it is not. A target outside instruction TCM is no hindrance. Everything else stays as it is. (R362) -/
def Obligations.BranchesAndJumps : Prop :=
  ∀ (s : State) (t : Nat) (tr : Fin 4) (l : Fin 6) (rd ra rb : Fin 32) (off imm : BitVec 16) (far : BitVec 26),
    let x := s.dev.unitLane tr l
    let br (c : Instr) (op : Nat) (p : Word → Word → Bool) : Prop := Executes c s tr l (wI op ra rb off.toNat) fun c =>
      c.goesTo (if p (c.rd ra) (c.rd rb) then c.pc + BitVec.ofInt 32 (4 * off.toInt) else c.pc + 4#32)
    br (.beq t tr l ra rb off) 0x20 (fun a b => a = b) ∧
    br (.bne t tr l ra rb off) 0x21 (fun a b => a ≠ b) ∧
    br (.blt t tr l ra rb off) 0x22 (fun a b => a.toInt < b.toInt) ∧
    br (.bge t tr l ra rb off) 0x23 (fun a b => a.toInt ≥ b.toInt) ∧
    br (.bltu t tr l ra rb off) 0x24 (fun a b => a.toNat < b.toNat) ∧
    br (.bgeu t tr l ra rb off) 0x25 (fun a b => a.toNat ≥ b.toNat) ∧
    Executes (.j t tr l far) s tr l (wJ 0x28 far.toNat) (fun c => c.goesTo (c.pc + BitVec.ofInt 32 (4 * far.toInt))) ∧
    Executes (.jal t tr l far) s tr l (wJ 0x29 far.toNat) (fun c => (c.put 31 (c.pc + 4#32)).goesTo (c.pc + BitVec.ofInt 32 (4 * far.toInt))) ∧
    (let a := x.core.rd ra + imm.signExtend 32
     (a.toNat % 4 = 0 → Executes (.jalr t tr l rd ra imm) s tr l (wI 0x2A rd ra imm.toNat) fun c => (c.put rd (c.pc + 4#32)).goesTo a) ∧
     (a.toNat % 4 ≠ 0 → x.core.tvec ≠ 0#32 → x.core.inTrap = false →
       Executes (.jalr t tr l rd ra imm) s tr l (wI 0x2A rd ra imm.toNat) fun c => c.trapped c.pc 2 a.toNat))

/-- Wherever a unit stands at MFSR or MTSR of a number of Table 14.1, the command completes: MFSR writes the register's content to rd; MTSR clears the flags named by ones (FLAGS), stores bits 3:1 (TRAPEN), bits 31:2 (TVEC, EPC), the word (ESCRATCH) or QID and EN (WQ0 to WQ7), and ignores a write of CAUSE, BADADDR, STATUS and INSTRET. For any other number, where a handler is set and none runs, both trap in place with ILLEGAL and the instruction word, and have no other effect. (R353) -/
def Obligations.SpecialRegisters : Prop :=
  ∀ (s : State) (t : Nat) (tr : Fin 4) (l : Fin 6) (r sr : Fin 32),
    let x := (s.dev.unitLane tr l).core
    let reads (v : Word) : Prop := Executes (.mfsr t tr l r sr) s tr l (wR 0x38 r 0 sr 1) fun c => c.fallsTo r v
    let writes (f : Core → Word → Core) : Prop := Executes (.mtsr t tr l sr r) s tr l (wR 0x38 0 r sr 2) fun c => (f c (c.rd r)).goesTo (c.pc + 4#32)
    (sr = 0 → reads (BitVec.ofNat 32 x.flags) ∧ writes fun c v => { c with flags := c.flags &&& (7 - v.toNat % 8) }) ∧
    (sr = 1 → reads (BitVec.ofNat 32 x.trapen) ∧ writes fun c v => { c with trapen := v.toNat &&& 0xE }) ∧
    (sr = 2 → reads x.tvec ∧ writes fun c v => { c with tvec := v &&& 0xFFFFFFFC#32 }) ∧
    (sr = 3 → reads x.epc ∧ writes fun c v => { c with epc := v &&& 0xFFFFFFFC#32 }) ∧
    (sr = 4 → reads (BitVec.ofNat 32 x.cause) ∧ writes fun c _ => c) ∧
    (sr = 5 → reads x.badaddr ∧ writes fun c _ => c) ∧
    (sr = 6 → reads x.escratch ∧ writes fun c v => { c with escratch := v }) ∧
    (sr = 7 → reads (BitVec.ofNat 32 (b2n x.inTrap + 2 * (if s.dev.rd Reg.TRD_STATUS_MODE tr = 2 then (if l.val ≤ 2 then l.val else l.val - 2) else 0) + 16 * tr.val +
      64 * s.dev.rd Reg.TRD_STATUS_REALM tr + 256 * s.dev.lockState tr l)) ∧ writes fun c _ => c) ∧
    (∀ k : Nat, k < 8 → sr.val = 8 + k → reads (x.wq.get k 0#32) ∧ writes fun c v => { c with wq := c.wq.set k (v &&& 0x800FFFFF#32) 0#32 }) ∧
    (sr = 16 → reads x.instret ∧ writes fun c _ => c) ∧
    (16 < sr.val → x.tvec ≠ 0#32 → x.inTrap = false →
      Executes (.mfsr t tr l r sr) s tr l (wR 0x38 r 0 sr 1) (fun c => c.trapped c.pc 1 (wR 0x38 r 0 sr 1).toNat) ∧
      Executes (.mtsr t tr l sr r) s tr l (wR 0x38 0 r sr 2) (fun c => c.trapped c.pc 1 (wR 0x38 0 r sr 2).toNat))

/-- Wherever a unit stands at TBR, the command completes with the value of Table 14.9a in rd: ts32, the nanoseconds word (which latches the instant), the seconds and the cycle number of the latched instant (0 before the first), the cycle number, the nanoseconds of the cycle, or the count of timebase steps. For any other selection, where a handler is set and none runs, it traps in place with ILLEGAL and the instruction word. (spec/14_triad_instruction_set.md) -/
def Obligations.TimebaseReads : Prop :=
  ∀ (s : State) (t : Nat) (tr : Fin 4) (l : Fin 6) (rd sel : Fin 32),
    let x := (s.dev.unitLane tr l).core
    let n := max t s.dev.now
    let w := wR 0x38 rd 0 sel 4
    let reads (v : Nat) : Prop := Executes (.tbr t tr l rd sel) s tr l w fun c => c.fallsTo rd (BitVec.ofNat 32 v)
    (sel = 0 → reads (n % 2 ^ 32)) ∧
    (sel = 1 → Executes (.tbr t tr l rd sel) s tr l w fun c => { c.fallsTo rd (BitVec.ofNat 32 (n % 1000000000)) with tbr := some n }) ∧
    (∀ a, x.tbr = some a → (sel = 2 → reads (a / 1000000000 % 2 ^ 32)) ∧ (sel = 3 → reads (a / 1000000000 / 2 ^ 32 % 2 ^ 16)) ∧ (sel = 4 → reads (a / 125000))) ∧
    (x.tbr = none → sel = 2 ∨ sel = 3 ∨ sel = 4 → reads 0) ∧
    (sel = 5 → reads (n / 125000)) ∧
    (sel = 6 → reads (n % 125000)) ∧
    (sel = 7 → reads s.dev.tb.steps) ∧
    (7 < sel.val → x.tvec ≠ 0#32 → x.inTrap = false → Executes (.tbr t tr l rd sel) s tr l w fun c => c.trapped c.pc 1 w.toNat)

/-- Wherever a handler is set and none runs, a unit at TRAP takes cause 8 with its code and the next address saved, and a unit at a word that is no instruction traps in place with ILLEGAL and that word. RTE in a handler ends it and goes on at the saved address; outside a handler it traps with ILLEGAL, where one is set. NOP goes on to the next word. Everything else stays as it is. (spec/14_triad_instruction_set.md) -/
def Obligations.TrapsAndReturns : Prop :=
  ∀ (s : State) (t : Nat) (tr : Fin 4) (l : Fin 6) (code : Fin 32) (w : Word),
    let x := (s.dev.unitLane tr l).core
    let rte := wR 0x38 0 0 0 0x19
    Executes (.nop t tr l) s tr l (wR 0x38 0 0 0 0) (fun c => c.goesTo (c.pc + 4#32)) ∧
    (x.inTrap = true → Executes (.rte t tr l) s tr l rte fun c => { c.goesTo c.epc with inTrap := false }) ∧
    (x.tvec ≠ 0#32 → x.inTrap = false →
      Executes (.trap t tr l code) s tr l (wR 0x38 0 0 code 0x18) (fun c => (c.goesTo (c.pc + 4#32)).trapped (c.pc + 4#32) 8 code) ∧
      Executes (.rte t tr l) s tr l rte (fun c => c.trapped c.pc 1 rte.toNat) ∧
      (wordLegal w = false → Executes (.illegalWord t tr l) s tr l w fun c => c.trapped c.pc 1 w.toNat))

/-- Where a unit runs and waits for nothing, no lane of it is stepped or resumed, its PC lies outside instruction TCM, a handler is set and none runs, FETCH_BUS_FAULT completes: every lane holds EPC and BADADDR equal to that PC, cause 3 and the PC at the handler, and TRD_ERR.BUS_FAULT of the triad is set (R333, R362, R370). A unit at HALT that executes it sets TRD_ERR.PROG_HALT and runs no more (R338, R371). (spec/13_triad_complex.md, spec/14_triad_instruction_set.md) -/
def Obligations.FetchOutsideTcm : Prop :=
  ∀ (s : State) (t : Nat) (tr : Fin 4) (l : Fin 6),
    let x := s.dev.unitLane tr l
    (s.dev.unitRuns tr l = true → s.dev.unitWaits tr l = false → 0x40000 ≤ x.core.pc.toNat → x.core.tvec ≠ 0#32 → x.core.inTrap = false →
      (∀ k ∈ s.dev.members tr l, (s.dev.lane tr k).step = false ∧ (s.dev.lane tr k).skip = false) →
      Ends (.fetchBusFault t tr l) s fun d =>
        (∀ k ∈ s.dev.members tr l, (d.lane tr k).core = x.core.trapped x.core.pc 3 x.core.pc.toNat) ∧ d.rd Reg.TRD_ERR_BUS_FAULT tr = 1) ∧
    (s.dev.Stands tr l (wR 0x38 0 0 0 0x1A) → Ends (.halt t tr l) s fun d => d.rd Reg.TRD_ERR_PROG_HALT tr = 1 ∧ d.unitRuns tr l = false)

/-- WAIT with no selectable bit in its mask ends at once with 0; with the deadline alone it ends at once with bit 9 where the ts32 of rb has been reached, and else the unit waits at the same PC; with bit 8 alone it waits, and WAIT_WAKE ends it with bit 8 once a later cycle has begun. SYNCPT with no re-admission goes on to the next word. LOCK of a unit that votes or runs split takes a free lock, writes 0 and sets TRD_STATUS.LOCK, and writes 1 where the unit holds it already; UNLOCK frees the lock it holds and writes 0, answers 2 once after a revocation and 1 where the lock was not held (R367 to R369). (spec/14_triad_instruction_set.md, spec/13_triad_complex.md) -/
def Obligations.WaitsSyncsAndLocks : Prop :=
  ∀ (s : State) (t : Nat) (tr : Fin 4) (l : Fin 6) (rd ra rb : Fin 32),
    let x := (s.dev.unitLane tr l).core
    let n := max t s.dev.now
    let w := wR 0x38 rd ra rb 8
    let req := unitReq tr l
    let lw := wR 0x38 rd 0 0 0x11
    let uw := wR 0x38 rd 0 0 0x12
    let wrote (d : Dev) (v : Word) : Prop := ∀ k ∈ s.dev.members tr l, (d.lane tr k).core = x.fallsTo rd v
    ((x.rd ra).toNat % 1024 = 0 → Executes (.wait t tr l rd ra rb) s tr l w fun c => c.fallsTo rd 0#32) ∧
    ((x.rd ra).toNat % 1024 = 512 → 0 ≤ tsDiff (x.rd rb).toNat (n % 2 ^ 32) → Executes (.wait t tr l rd ra rb) s tr l w fun c => c.fallsTo rd 512#32) ∧
    ((x.rd ra).toNat % 1024 = 512 → tsDiff (x.rd rb).toNat (n % 2 ^ 32) < 0 → Executes (.wait t tr l rd ra rb) s tr l w fun c => { c with wait := some (n / 125000) }) ∧
    ((x.rd ra).toNat % 1024 = 256 → Executes (.wait t tr l rd ra rb) s tr l w fun c => { c with wait := some (n / 125000) }) ∧
    (∀ k0, s.dev.unitRuns tr l = true → x.wait = some k0 → (s.dev.unitLane tr l).fetch = some w → (x.rd ra).toNat % 1024 = 256 → k0 < n / 125000 →
      (∀ k ∈ s.dev.members tr l, (s.dev.lane tr k).step = false ∧ (s.dev.lane tr k).skip = false) →
      Ends (.waitWake t tr l) s fun d => ∀ k ∈ s.dev.members tr l, (d.lane tr k).core = { x.fallsTo rd 256#32 with wait := none }) ∧
    ((s.dev.tri tr).readmit = none → Executes (.syncpt t tr l true) s tr l (wR 0x38 0 0 0 0x10) fun c => c.goesTo (c.pc + 4#32)) ∧
    (l.val < 3 →
      (s.dev.trd.lock = none → s.dev.Stands tr l lw → Ends (.lock t tr l rd) s fun d =>
        wrote d 0#32 ∧ d.trd.lock = some { req := req, at_ := s.dev.ownAt t } ∧ d.rd Reg.TRD_STATUS_LOCK tr = 1) ∧
      (∀ b, s.dev.trd.lock = some b → b.req = req → Executes (.lock t tr l rd) s tr l lw fun c => c.fallsTo rd 1#32) ∧
      (∀ b, s.dev.trd.lock = some b → b.req = req → s.dev.Stands tr l uw → Ends (.unlock t tr l rd) s fun d =>
        wrote d 0#32 ∧ d.trd.lock = none ∧ d.rd Reg.TRD_STATUS_LOCK tr = 0) ∧
      (s.dev.trd.lock = none → req ∈ s.dev.trd.revoked → s.dev.Stands tr l uw → Ends (.unlock t tr l rd) s fun d => wrote d 2#32 ∧ req ∉ d.trd.revoked) ∧
      (s.dev.trd.lock = none → req ∉ s.dev.trd.revoked → Executes (.unlock t tr l rd) s tr l uw fun c => c.fallsTo rd 1#32))

/-! ### Chapter 13: the triads -/

/-- In a voted triad that runs with three voting lanes, where two lanes present equal unmarked entries and the third one that differs, VOTER_COMPARE takes the third lane out of the vote (state 2, its cause, one more exclusion) and the triad goes on; three entries of which no two agree halt it. With two voting lanes, entries that differ halt the triad. A silent lane leaves the vote of three with cause 4, and halts a vote of two. A halted triad shows HALTED, its lanes state 4, and runs no more (R334, R336, R337). (spec/13_triad_complex.md) -/
def Obligations.VoterExcludesAndHalts : Prop :=
  ∀ (s : State) (t : Nat) (tr : Fin 4) (a b c : CEntry) (pc : Word),
    s.dev.unitRuns tr 0 = true →
    let halted (d : Dev) : Prop := d.rd Reg.TRD_STATUS_HALTED tr = 1 ∧ (∀ k ∈ s.dev.voters tr, d.lst tr k = 4) ∧ d.unitRuns tr 0 = false
    (s.dev.voters tr = [1, 2, 3] →
      (a.lane = 1 → b.lane = 2 → c.lane = 3 → entriesAgree a b = true → entriesAgree a c = false →
        Ends (.voterCompare t tr [a, b, c]) s fun d => d.lst tr 3 = 2 ∧ d.lst tr 1 = 1 ∧ d.lst tr 2 = 1 ∧ d.rd Reg.TRD_LANE_STAT_CAUSE tr 2 = entryCause c % 2 ^ Reg.TRD_LANE_STAT_CAUSE.width ∧
          d.rd Reg.TRD_LANE_STAT_EXCL tr 2 = min (s.dev.rd Reg.TRD_LANE_STAT_EXCL tr 2 + 1) (2 ^ Reg.TRD_LANE_STAT_EXCL.width - 1)) ∧
      (a.lane = 1 → b.lane = 2 → c.lane = 3 → entriesAgree a b = false → entriesAgree a c = false → entriesAgree b c = false →
        Ends (.voterCompare t tr [a, b, c]) s halted) ∧
      (∀ k : Nat, 1 ≤ k → k ≤ 3 → Ends (.laneSilent t tr k pc) s fun d => d.lst tr k = 2 ∧ d.rd Reg.TRD_LANE_STAT_CAUSE tr (k - 1) = 4 ∧ d.voters tr = [1, 2, 3].filter (· ≠ k))) ∧
    (s.dev.voters tr = [1, 2] →
      (a.lane = 1 → b.lane = 2 → entriesAgree a b = false → Ends (.voterCompare t tr [a, b]) s halted) ∧
      Ends (.laneSilent t tr 1 pc) s halted ∧ Ends (.laneSilent t tr 2 pc) s halted)

/-- In a voted triad with two voting lanes that is neither halted nor busy, a write of TRD_READMIT with GO by a requester whose write is taken puts an excluded lane to its self-test with status OK; a passed test leaves the re-admission pending, CANCEL ends it with status 7 and the lane excluded. A write of TRD_RESTART with GO in a halted triad puts its lanes to their self-test. The last self-test of a start that two or more lanes have passed makes them the voting lanes (R340 to R342, R344). (spec/13_triad_complex.md) -/
def Obligations.LanesStartRejoinAndRestart : Prop :=
  ∀ (s : State) (t req : Nat) (tr : Fin 4) (lane : Fin 4) (k : Nat),
    s.dev.Takes req →
    (s.dev.tmode tr = 1 → (s.dev.tri tr).readmit = none → (s.dev.tri tr).phase = .idle → s.dev.rd Reg.TRD_STATUS_HALTED tr = 0 → (s.dev.voters tr).length = 2 →
      1 ≤ lane.val → s.dev.lst tr lane = 2 →
      Ends (.trdReadmit t req tr lane) s fun d => d.rd Reg.TRD_READMIT_STATUS tr = 0 ∧ d.lst tr lane = 3 ∧ (d.tri tr).readmit = some lane.val ∧ (d.tri tr).testing = [lane.val]) ∧
    (1 ≤ k → k ≤ 3 → (s.dev.tri tr).phase = .readmit → (s.dev.tri tr).testing = [k] →
      Ends (.laneSelftestDone t tr k true) s fun d => d.rd Reg.TRD_STATUS_READMIT_PEND tr = 1 ∧ d.lst tr k = 2) ∧
    (1 ≤ k → k ≤ 3 → (s.dev.tri tr).readmit = some k → s.dev.lst tr k = 3 →
      Ends (.trdReadmitCancel t req tr) s fun d => d.rd Reg.TRD_READMIT_STATUS tr = 7 ∧ d.rd Reg.TRD_STATUS_READMIT_PEND tr = 0 ∧ d.lst tr k = 2 ∧ (d.tri tr).readmit = none) ∧
    (s.dev.triadsRun = true → s.dev.tmode tr = 1 → s.dev.rd Reg.TRD_STATUS_HALTED tr = 1 → (s.dev.tri tr).phase = .idle →
      Ends (.trdRestart t req tr 0) s fun d => d.rd Reg.TRD_RESTART_STATUS tr = 0 ∧ d.lst tr 1 = 3 ∧ d.lst tr 2 = 3 ∧ d.lst tr 3 = 3 ∧ (d.tri tr).phase = .restart) ∧
    (s.dev.tmode tr = 1 → (s.dev.tri tr).phase = .start → (s.dev.tri tr).testing = [3] → (s.dev.tri tr).passed = [1, 2] →
      s.dev.lst tr 1 = 3 → s.dev.lst tr 2 = 3 → s.dev.lst tr 3 = 3 →
      Ends (.laneSelftestDone t tr 3 true) s fun d => d.voters tr = [1, 2, 3] ∧ d.rd Reg.TRD_STATUS_HALTED tr = 0)

/-- A write of TRD_WDOG sets the period and restarts every count of the triad; a write of 0x5A5A to TRD_WDOG_KICK by the triad restarts the count of its unit. Where a unit runs and the own clock has passed its last kick by a period other than 0, TRD_WDOG_EXPIRY sets TRD_ERR.WDOG and the unit runs no more. BUS_LOCK_REVOKE frees a lock held for 2 us or 64 accesses, leaves LOCK_LOST to its holder and sets TRD_ERR.LOCK_REVOKED (R339, R347). (spec/13_triad_complex.md) -/
def Obligations.WatchdogAndBusLock : Prop :=
  ∀ (s : State) (t req : Nat) (tr : Fin 4) (l : Fin 3) (v : Word) (b : BusLock),
    (s.dev.Takes req →
      Ends (.trdWdogWrite t req tr v) s fun d => d.rd Reg.TRD_WDOG_PERIOD tr = v.toNat % 65536 ∧ (d.tri tr).kick = [(0, s.dev.ownAt t), (1, s.dev.ownAt t), (2, s.dev.ownAt t)]) ∧
    (s.dev.reqOk (unitReq tr l) = true → Ends (.trdWdogKick t (unitReq tr l) tr 0x5A5A#32) s fun d => (d.tri tr).kick.get l 0 = s.dev.ownAt t) ∧
    (s.dev.unitRuns tr l = true → s.dev.rd Reg.TRD_WDOG_PERIOD tr ≠ 0 → (s.dev.tri tr).kick.get l 0 + s.dev.rd Reg.TRD_WDOG_PERIOD tr * 1000 ≤ s.dev.ownAt t →
      Ends (.trdWdogExpiry t tr l) s fun d => d.rd Reg.TRD_ERR_WDOG tr = 1 ∧ d.unitRuns tr l = false) ∧
    (s.dev.trd.lock = some b → b.req = unitReq tr l → 64 ≤ b.n ∨ b.at_ + 2000 ≤ s.dev.ownAt t →
      Ends (.busLockRevoke t) s fun d => d.trd.lock = none ∧ b.req ∈ d.trd.revoked ∧ d.rd Reg.TRD_STATUS_LOCK tr = 0 ∧ d.rd Reg.TRD_ERR_LOCK_REVOKED tr = 1)

/-- With DBG_EN high, in DARK or under an image that is not sealed, DEBUG_HALT takes a lane that votes, is excluded or runs outside the vote to the debug halt: state 5, cause 6, TAINT of its triad and GLB_STATUS.DEBUG set; DEBUG_RESUME takes a halted lane on, outside the vote where others vote; DEBUG_COMMAND 6 answers a general register of a halted lane and changes no lane (R348, R349). (spec/13_triad_complex.md) -/
def Obligations.DebugHaltsAndResumes : Prop :=
  ∀ (s : State) (t : Nat) (tr : Fin 4) (lane r : Nat) (v : Word),
    s.dev.mode = .dark ∨ s.dev.rl.sealed = false → 1 ≤ lane → lane ≤ 3 →
    (s.dev.lst tr lane = 1 ∨ s.dev.lst tr lane = 2 ∨ s.dev.lst tr lane = 6 →
      Ends (.debugHalt t tr lane true) s fun d => d.lst tr lane = 5 ∧ d.rd Reg.TRD_LANE_STAT_CAUSE tr (lane - 1) = 6 ∧ d.rd Reg.TRD_STATUS_TAINT tr = 1 ∧ d.rd Reg.GLB_STATUS_DEBUG = 1) ∧
    (s.dev.lst tr lane = 5 → s.dev.tmode tr = 1 → s.dev.voters tr ≠ [] →
      Ends (.debugResume t tr lane true) s fun d => d.lst tr lane = 6 ∧ d.voters tr = s.dev.voters tr) ∧
    (s.dev.lst tr lane = 5 → 1 ≤ r → r < 32 →
      Ends (.debugCommand t tr lane 6 r v true) s fun d => d.out = [.jtag ((s.dev.lane tr lane).core.rd r).toNat] ∧ d.trd = s.dev.trd)

/-! ### Chapter 15: stand-in pairs -/

/-- PRESENCE goes out on every peer link in use. A STAND-IN takes a newer renewal from its ACTIVE partner's PRESENCE or LEASE sets; a partner of another pair sets PAIR_ERR. Device P after 1 ms in RUN, or device S that has not heard it after 10 ms, becomes ACTIVE with a raised epoch and open gates. A live STAND-IN whose lease is 32 us old becomes ACTIVE with a raised epoch; its gates, and with them its trip outputs, stay closed until 48 us after the renewal. A TAKEOVER with a higher epoch demotes an ACTIVE device, closes its gates and gives it that epoch. A partner not heard on any link is lost; a ring whose stream is absent is taken up by a live STAND-IN (R374, R375, R377, R379 to R383). (spec/15_stand_in_pairs.md) -/
def Obligations.LeasesRolesAndTakeover : Prop :=
  ∀ (s : State) (t : Nat) (link : Fin 4) (ring : Fin 64) (rot : Fin 2) (delay l path a : Nat) (codeErr : Bool) (frame pay : List Byte),
    let now := s.dev.nowAt t
    (s.dev.mainOn = true → Ends (.presenceSend t) s fun d =>
      d.out = (if s.dev.reel.isSome then s.dev.peerLinks else [0, 1, 2, 3]).map fun k => .peer k (peerFrame pfPresence (s.dev.sin.txSeq.get pfPresence 0) (begin_ t s.dev).presence)) ∧
    (s.dev.Hears t link pfPresence codeErr frame pay → link.val < 2 → s.dev.solo = false → s.dev.reel.isSome = true → s.dev.rd Reg.SIN_STATUS_PAIR_ERR = 0 → 3 ≤ byteAt pay 2 → byteAt pay 2 ≤ 5 →
      (le pay 4 4 ≠ s.dev.rl.pairId → Ends (.presenceReceive t link codeErr frame) s fun d => d.rd Reg.SIN_STATUS_PAIR_ERR = 1 ∧ d.sin.lease = s.dev.sin.lease ∧ d.rd Reg.SIN_STATUS_ROLE = s.dev.rd Reg.SIN_STATUS_ROLE) ∧
      (le pay 4 4 = s.dev.rl.pairId → byteAt pay 8 = s.dev.rl.config → byteAt pay 0 % 2 ≠ s.dev.devAddr % 2 → byteAt pay 1 % 4 = roleActive → s.dev.role = roleStandIn →
        s.dev.rd Reg.SIN_EPOCH_PARTNER_EPOCH ≤ le pay 12 4 → s.dev.sin.lease = some (l, path) → l < min (tsExtend now (le pay 16 4)) now →
        Ends (.presenceReceive t link codeErr frame) s fun d => d.sin.lease = some (min (tsExtend now (le pay 16 4)) now, link.val) ∧ d.rd Reg.SIN_STATUS_PARTNER_ROLE = roleActive ∧
          d.rd Reg.SIN_STATUS_PARTNER_STATE = byteAt pay 2 ∧ d.rd Reg.SIN_EPOCH_PARTNER_EPOCH = le pay 12 4 ∧ d.rd Reg.SIN_STATUS_PARTNER_OK = 1)) ∧
    (s.dev.solo = false → s.dev.rl.present ring = true → (s.dev.lr ring).orig = false → s.dev.rd Reg.SIN_STATUS_PAIR_ERR = 0 → s.dev.role = roleStandIn → s.dev.sin.lease = some (l, path) → l < now - delay →
      Ends (.leaseSetReceive t ring rot delay) s fun d => d.sin.lease = some (now - delay, 0x40 + ring.val)) ∧
    (s.dev.mode = .run → s.dev.solo = false → s.dev.role = roleContending → s.dev.nextEpoch ≤ 0xFFFFFFFE →
      (s.dev.isP = true ∧ s.dev.sin.runAt + 1000000 ≤ s.dev.ownAt t) ∨
        (s.dev.isP = false ∧ s.dev.sin.runAt + 10000000 ≤ s.dev.ownAt t ∧ s.dev.sin.heardP = false ∧ s.dev.rd Reg.SIN_STATUS_PAIR_ERR = 0) →
      Ends (.roleResolveTimeout t) s fun d => d.rd Reg.SIN_STATUS_ROLE = roleActive ∧ d.rd Reg.SIN_EPOCH_EPOCH = s.dev.nextEpoch ∧ d.sin.gates = true) ∧
    (s.dev.sin.lease = some (l, path) → s.dev.live = true → s.dev.role = roleStandIn → l + 32000 ≤ now → s.dev.nextEpoch ≤ 0xFFFFFFFE →
      Ends (.leaseExpiry t) s fun d => d.rd Reg.SIN_STATUS_ROLE = roleActive ∧ d.rd Reg.SIN_EPOCH_EPOCH = s.dev.nextEpoch ∧ d.sin.actAt = some (l + 48000) ∧ d.sin.gates = false ∧
        d.rd Reg.SIN_COUNT_TAKEOVERS = min (s.dev.rd Reg.SIN_COUNT_TAKEOVERS + 1) 65535 ∧ d.pins.tripH = 0 ∧ d.pins.tripP = 0) ∧
    (s.dev.sin.actAt = some a → s.dev.role = roleActive → a ≤ now → Ends (.gatesOpen t) s fun d => d.sin.gates = true ∧ d.sin.actAt = none ∧ s.dev.OnlyWrites d []) ∧
    (s.dev.Hears t link pfTakeover codeErr frame pay → s.dev.role = roleActive → s.dev.rd Reg.SIN_EPOCH_EPOCH < le pay 4 4 →
      Ends (.takeover t link codeErr frame) s fun d => d.rd Reg.SIN_STATUS_ROLE = (if s.dev.mode = .run then roleStandIn else roleContending) ∧ d.rd Reg.SIN_EPOCH_EPOCH = le pay 4 4 ∧
        d.rd Reg.SIN_EPOCH_PARTNER_EPOCH = le pay 4 4 ∧ d.sin.gates = false ∧ d.rd Reg.SIN_COUNT_DEMOTIONS = min (s.dev.rd Reg.SIN_COUNT_DEMOTIONS + 1) 65535 ∧ d.pins.tripH = 0 ∧ d.pins.tripP = 0) ∧
    (s.dev.rd Reg.SIN_STATUS_PARTNER_OK = 1 → (∀ k ∈ s.dev.pairLinks, ∀ b, s.dev.sin.presAt.find k = some b → b + 32000 < s.dev.ownAt t) →
      Ends (.partnerLost t) s fun d => d.rd Reg.SIN_STATUS_PARTNER_OK = 0 ∧ d.sin.lostP = true ∧ d.sin.pInstep = false ∧ s.dev.OnlyWrites d [0x60000]) ∧
    (s.dev.role = roleStandIn → s.dev.live = true → s.dev.rl.present ring = true → (s.dev.lr ring).orig = false →
      Ends (.streamAbsentOriginate t ring) s fun d => (d.lr ring).absent = true ∧ s.dev.OnlyWrites d [])

/-- An acceptance entry without a copy writes the frame as missed; one whose own copy matches writes that; one without content asks for it. CONTENT serves the entry that waits for it, or waits for its entry; a WANT is answered with the frame sent. After the deadline a frame with no entry is served by the own copy, else counted as missed. Equal digests of a cycle lengthen the agreement run; a difference of the PERMIT digest counts and ends it. The first part of a snapshot begins it; a part out of order drops it and clears INSTEP. TAKE_SYNC sets the Take counter of each ring once. A note of a debug halt clears INSTEP (R386 to R388, R391). (spec/15_stand_in_pairs.md) -/
def Obligations.PairsMirrorCompareAndJoin : Prop :=
  ∀ (s : State) (t : Nat) (link : Fin 4) (ring : Fin 64) (cyc addr nt g : Nat) (codeErr : Bool) (frame pay : List Byte) (w : AccWant) (h : Held) (x : Nat × Nat × Nat × List Byte) (a b : Nat × Nat × Nat),
    let c := (begin_ t s.dev).extendCyc (le pay 1 4)
    let r := byteAt pay 0
    let done (d : Dev) (ring cyc addr nt : Nat) : Prop := (cyc, addr, nt) ∈ (d.lr ring).written
    (s.dev.Hears t link pfAccept codeErr frame pay → byteAt pay 5 = 1 → (s.dev.rl.node r (byteAt pay 10)).isSome = true → (s.dev.lr r).orig = false → (s.dev.lr r).written = [] →
      let n := byteAt pay 11 % 16
      let own := (s.dev.lr r).held.find? fun y => y.cyc == c && y.addr == byteAt pay 10 && y.ntype == n && crc32c y.bytes == le pay 12 4
      (bitAt (byteAt pay 11) 4 = false → bitAt (byteAt pay 11) 5 = false → Ends (.accept t link codeErr frame) s fun d => done d r c (byteAt pay 10) n) ∧
      (bitAt (byteAt pay 11) 4 = true → own = some h → Ends (.accept t link codeErr frame) s fun d => done d r c (byteAt pay 10) n) ∧
      (bitAt (byteAt pay 11) 4 = true → bitAt (byteAt pay 11) 6 = false → own = none → s.dev.sin.conts = [] → Ends (.accept t link codeErr frame) s fun d =>
        (∃ e ∈ d.sin.wants, e.ring = r ∧ e.cyc = c ∧ e.addr = byteAt pay 10 ∧ e.ntype = n) ∧
        d.out = s.dev.pairLinks.map fun k => .peer k (peerFrame pfWant (s.dev.sin.txSeq.get pfWant 0) (toLe r 1 ++ toLe c 4 ++ toLe 1 1 ++ toLe (le pay 8 2) 2)))) ∧
    (s.dev.Hears t link pfContent codeErr frame pay → crcOk (pay.drop 8) = true →
      let f := s.dev.sin.wants.find? fun y => y.ring == r && y.cyc == c && y.pos == le pay 5 2 && y.crc == le (pay.drop 8) ((pay.drop 8).length - 4) 4
      (f = some w → Ends (.content t link codeErr frame) s fun d => d.sin.wants = s.dev.sin.wants.erase w ∧ ((s.dev.lr r).written = [] → done d r c w.addr w.ntype)) ∧
      (f = none → Ends (.content t link codeErr frame) s fun d => (r, c, le pay 5 2, pay.drop 8) ∈ d.sin.conts)) ∧
    (s.dev.Hears t link pfWant codeErr frame pay → byteAt pay 5 = 1 → s.dev.sin.sent.find? (fun y => y.1 == r && y.2.1 == c && y.2.2.1 == le pay 6 2) = some x →
      Ends (.want t link codeErr frame) s fun d => d.out = s.dev.pairLinks.map fun k => .peer k (peerFrame pfContent (s.dev.sin.txSeq.get pfContent 0)
        (toLe r 1 ++ toLe c 4 ++ toLe (le pay 6 2) 2 ++ toLe 0 1 ++ x.2.2.2))) ∧
    ((s.dev.lr ring).orig = false → s.dev.solo = false → (s.dev.rl.node ring addr).isSome = true → (s.dev.lr ring).written = [] →
      cyc * 125000 + charOf (s.dev.posOf ring cyc addr nt + nodeFrameLen nt 0) * 625 / 8 + 51000 ≤ s.dev.nowAt t → s.dev.sin.wants = [] →
      Ends (.mirrorMiss t ring cyc addr nt) s fun d => done d ring cyc addr nt ∧
        d.rd Reg.SIN_MIR_MISS_CNT = (if ((s.dev.lr ring).held.find? fun y => y.cyc == cyc && y.addr == addr && y.ntype == nt).isSome then s.dev.rd Reg.SIN_MIR_MISS_CNT
          else min (s.dev.rd Reg.SIN_MIR_MISS_CNT + 1) (2 ^ 32 - 1))) ∧
    (s.dev.Hears t link pfCompare codeErr frame pay → s.dev.live = true →
      let k := (begin_ t s.dev).extendCyc (le pay 0 4)
      s.dev.nowAt t ≤ k * 125000 + 250000 → s.dev.sin.own.find k = some a → s.dev.sin.lastCmp = some (k - 1) → 0 < k → b = (le pay 4 4, le pay 8 4, le pay 12 4) →
      (a = b → Ends (.compare t link codeErr frame) s fun d => d.rd Reg.SIN_AGREE_AGREE_RUN = min (s.dev.sin.agree + 1) (2 ^ 32 - 1) ∧ d.sin.lastCmp = some k ∧ d.sin.own.find k = none) ∧
      (a.1 ≠ b.1 → Ends (.compare t link codeErr frame) s fun d => d.rd Reg.SIN_AGREE_AGREE_RUN = 0 ∧ d.rd Reg.SIN_CMP_LAST_LAST_K = k % 2 ^ 32 ∧
        d.rd Reg.SIN_CMP_PERMIT_CNT = min (s.dev.rd Reg.SIN_CMP_PERMIT_CNT + 1) (2 ^ 32 - 1))) ∧
    (s.dev.Hears t link pfState codeErr frame pay → s.dev.role = roleStandIn → s.dev.rd Reg.SIN_STATUS_JOINING = 1 →
      (le pay 2 2 = 0 → 1 < le pay 8 4 → Ends (.state t link codeErr frame) s fun d => d.sin.parts = [(0, le pay 4 4, pay)]) ∧
      (le pay 2 2 ≠ 0 → le pay 2 2 ≠ s.dev.sin.parts.length → Ends (.state t link codeErr frame) s fun d => d.sin.parts = [] ∧ d.rd Reg.SIN_STATUS_INSTEP = 0)) ∧
    (s.dev.Hears t link pfTakeSync codeErr frame pay → s.dev.role = roleStandIn → g ∈ s.dev.rl.rings → bitAt (le pay 0 8) g = true → (s.dev.lr g).counted = false →
      Ends (.takeSync t link codeErr frame) s fun d => d.rd Reg.LNK_RING_TAKE_TAKE g = le pay (8 + 4 * g) 4 ∧ (d.lr g).counted = true) ∧
    (s.dev.Hears t link pfNote codeErr frame pay →
      (byteAt pay 0 = 1 → Ends (.note t link codeErr frame) s fun d => d.rd Reg.SIN_STATUS_PARTNER_DEBUG = 1 ∧ d.rd Reg.SIN_STATUS_INSTEP = 0) ∧
      (byteAt pay 0 ≠ 1 → Ends (.note t link codeErr frame) s fun d => s.dev.OnlyWrites d [Reg.SIN_PEER_FRAMES_CNT.addr link 0]))

/-- A protected SWITCH of an ACTIVE device in RUN with a partner in step sets its boundary 1 ms ahead and the next epoch; a device that is not ACTIVE in RUN refuses with status 1. An abort ends it with status 6, 200 us without an acknowledgement with 4. The Stand-in takes boundary and epoch from the SWITCH frame. At the boundary the acknowledged ACTIVE device becomes STAND-IN, its gates and trip outputs closed, and the Stand-in becomes ACTIVE with the epoch and open gates. A peer link goes down with its alignment, and comes up aligned with a PRESENCE not older than 32 us (R389, R392). (spec/15_stand_in_pairs.md, spec/16_host_access.md) -/
def Obligations.SwitchesAndPeerLinks : Prop :=
  ∀ (s : State) (t req k a : Nat) (link : Fin 4) (codeErr : Bool) (frame pay : List Byte),
    (s.dev.Takes req →
      (s.dev.role = roleActive → s.dev.mode = .run → s.dev.rd Reg.SIN_STATUS_PARTNER_OK = 1 → s.dev.rd Reg.SIN_STATUS_PARTNER_ROLE = roleStandIn → s.dev.rd Reg.SIN_STATUS_PARTNER_STATE = 4 →
        s.dev.sin.pInstep = true → s.dev.rd Reg.SIN_STATUS_SWITCH_PEND = 0 → s.dev.img.cut = none →
        Ends (.sinSwitch t req) s fun d => d.rd Reg.SIN_SWITCH_STATUS = 0 ∧ d.rd Reg.SIN_STATUS_SWITCH_PEND = 1 ∧ d.sin.switchK = some (boundaryAfter (s.dev.nowAt t + 1000000)) ∧
          d.sin.switchEpoch = s.dev.rd Reg.SIN_EPOCH_EPOCH + 1 ∧ d.sin.acked = false ∧ s.dev.OnlyWrites d [0x60000, 0x60018, 0x6001C]) ∧
      (s.dev.role ≠ roleActive ∨ s.dev.mode ≠ .run → Ends (.sinSwitch t req) s fun d => d.rd Reg.SIN_SWITCH_STATUS = 1 ∧ d.sin.switchK = s.dev.sin.switchK ∧ s.dev.OnlyWrites d [0x60018]) ∧
      (s.dev.rd Reg.SIN_STATUS_SWITCH_PEND = 1 → Ends (.switchAbort t req) s fun d => d.rd Reg.SIN_STATUS_SWITCH_PEND = 0 ∧ d.rd Reg.SIN_SWITCH_STATUS = 6 ∧ d.sin.switchK = none)) ∧
    (s.dev.Hears t link pfSwitch codeErr frame pay → s.dev.role = roleStandIn → s.dev.mode = .run → le pay 4 4 ≠ 0 →
      Ends (.switch t link codeErr frame) s fun d => d.sin.switchK = some ((begin_ t s.dev).extendCyc (le pay 0 4)) ∧ d.sin.switchEpoch = le pay 4 4 ∧ d.sin.switchOwn = false) ∧
    (s.dev.rd Reg.SIN_STATUS_SWITCH_PEND = 1 → s.dev.sin.switchOwn = true → s.dev.sin.acked = false → s.dev.sin.switchAt + 200000 ≤ s.dev.ownAt t →
      Ends (.switchNoAck t) s fun d => d.rd Reg.SIN_STATUS_SWITCH_PEND = 0 ∧ d.rd Reg.SIN_SWITCH_STATUS = 4 ∧ d.sin.switchK = none) ∧
    (s.dev.sin.switchK = some k → k ≤ cycleOf (s.dev.nowAt t) →
      (s.dev.sin.switchOwn = true → s.dev.sin.acked = true → s.dev.role = roleActive → Ends (.switchBoundary t) s fun d =>
        d.rd Reg.SIN_STATUS_ROLE = roleStandIn ∧ d.sin.gates = false ∧ d.pins.tripH = 0 ∧ d.pins.tripP = 0 ∧ d.sin.lease = some (k * 125000, 0xFF)) ∧
      (s.dev.sin.switchOwn = false → s.dev.role = roleStandIn → Ends (.switchBoundary t) s fun d =>
        d.rd Reg.SIN_STATUS_ROLE = roleActive ∧ d.sin.gates = true ∧ d.rd Reg.SIN_EPOCH_EPOCH = max s.dev.sin.switchEpoch (s.dev.rd Reg.SIN_EPOCH_EPOCH) % 2 ^ 32)) ∧
    (s.dev.rd Reg.SIN_PEER_STAT_UP link = 1 → Ends (.peerDown t link true) s fun d => d.rd Reg.SIN_PEER_STAT_UP link = 0 ∧ d.rd Reg.SIN_PEER_STAT_SYNC link = 0 ∧
      bitAt (d.rd Reg.SIN_STATUS_PEER_UP) link = false ∧ s.dev.OnlyWrites d [0x60000, Reg.SIN_PEER_STAT_UP.addr link 0]) ∧
    (s.dev.rd Reg.SIN_PEER_STAT_UP link = 0 → s.dev.sin.presAt.find link = some a → s.dev.ownAt t ≤ a + 32000 → Ends (.peerUp t link) s fun d => d.rd Reg.SIN_PEER_STAT_UP link = 1 ∧
      d.rd Reg.SIN_PEER_STAT_SYNC link = 1 ∧ bitAt (d.rd Reg.SIN_STATUS_PEER_UP) link = true ∧ s.dev.OnlyWrites d [0x60000, Reg.SIN_PEER_STAT_UP.addr link 0])

/-! ### Chapter 16: host access -/

/-- A write with byte enables or an offset that no word has is refused 0x31, one past the window 0x32, one of the open realm that would change a protected field 0x23; each leaves every register but the capture of refused accesses. A write of TRW_ERR clears the bits written as 1, from any realm. A read of a word with no latch answers its live value and clears its RC fields. A read of a full time's NS word, or of the low word of a two-word value, keeps the other words for its requester. A protected Wrap request is asked for in RUN. PCIe link changes show in GLB_PCIE_STAT; a function level reset clears what is held for its requester and disarms its vectors (R13, R14, R51, R401, R402, R407, R419, R463). (spec/00_scope.md, spec/01_system_operation.md, spec/02_numbers_time_records.md, spec/16_host_access.md) -/
def Obligations.RegistersFollowTheirAccessCodes : Prop :=
  ∀ (s : State) (t req off : Nat) (v : Word) (be : BitVec 4) (func : Fin 2) (speed width : Fin 4) (bme0 bme1 : Bool),
    let refused (st : Nat) (d : Dev) : Prop := d.out = [.status req st] ∧ s.dev.OnlyWrites d [0x20, 0x24, 0x28]
    let live (o : Nat) : Nat := (begin_ t s.dev).liveWord req o
    (s.dev.reqOk req = true →
      (req = 1 ∨ req = 2 → be ≠ 15#4 → Ends (.registerWrite t req off v be) s (refused 0x31)) ∧
      (off % 4 ≠ 0 → Ends (.registerWrite t req off v 15#4) s (refused 0x31)) ∧
      (off % 4 = 0 → 0x20000000 ≤ off → Ends (.registerWrite t req off v 15#4) s (refused 0x32)) ∧
      (s.dev.reqProt req = false → off % 4 = 0 → off < 0x1000000 → isTrwCfg off = false → off ≠ 0x70034 → off < 0x78000 ∨ 0x7A000 ≤ off → off < 0x200 ∨ 0x300 ≤ off →
        (begin_ t s.dev).changesProt req off v.toNat = true → Ends (.registerWrite t req off v 15#4) s (refused 0x23)) ∧
      Ends (.registerWrite t req 0x70014 v 15#4) s (fun d => d.out = [.status req 0] ∧ d.rd Reg.TRW_ERR_CFG_REFUSED = (if v.getLsbD 0 then 0 else s.dev.rd Reg.TRW_ERR_CFG_REFUSED) ∧
        d.rd Reg.TRW_ERR_FB = (if v.getLsbD 1 then 0 else s.dev.rd Reg.TRW_ERR_FB) ∧ s.dev.OnlyWrites d [0x70014]) ∧
      (off % 4 = 0 → off < 0x1000000 → isT0 req = false → (begin_ t s.dev).freeWord off = none → fullTimeAt off = none → wideAt off = none →
        Ends (.rcRead t req off) s fun d => d.out = [.word req off (BitVec.ofNat 32 (live off))] ∧ (∀ f ∈ s.dev.fields off, f.acc = .rc → bitsOf (d.word off).toNat f.lo f.width = 0) ∧ s.dev.OnlyWrites d [off]) ∧
      (off ∈ fullTimes → isT0 req = false → Ends (.fulltimeNsRead t req off) s fun d => d.out = [.word req off (BitVec.ofNat 32 (live off))] ∧
        (d.rq req).times.find off = some (live (off + 4), live (off + 8)) ∧ s.dev.OnlyWrites d []) ∧
      (off % 4 = 0 → off < 0x1000000 → isT0 req = false → (begin_ t s.dev).freeWord off = none → fullTimeAt off = none → wideAt off = some (off, 2, 0) →
        Ends (.wideLowRead t req off) s fun d => d.out = [.word req off (BitVec.ofNat 32 (live off))] ∧ (d.rq req).wide = some (off, live (off + 4)) ∧ s.dev.OnlyWrites d [])) ∧
    (s.dev.Takes req → s.dev.mode = .run → s.dev.sin.switchWrap ≠ some 1 → Ends (.glbWrap t req) s fun d => 1 ∈ d.gaf.wrapReq ∧ d.out = [.status req 0] ∧ s.dev.OnlyWrites d []) ∧
    Ends (.pcieLinkChange t true speed width bme0 bme1) s (fun d => d.rd Reg.GLB_PCIE_STAT_LINK = 1 ∧ d.rd Reg.GLB_PCIE_STAT_SPEED = speed ∧ d.rd Reg.GLB_PCIE_STAT_WIDTH = width ∧
      d.rd Reg.GLB_PCIE_STAT_F0_BME = b2n bme0 ∧ d.rd Reg.GLB_PCIE_STAT_F1_BME = b2n bme1 ∧ s.dev.OnlyWrites d [0x60]) ∧
    Ends (.pcieLinkChange t false speed width bme0 bme1) s (fun d => d.rd Reg.GLB_PCIE_STAT_LINK = 0 ∧ d.rd Reg.GLB_PCIE_STAT_SPEED = 0 ∧ d.rd Reg.GLB_PCIE_STAT_WIDTH = 0 ∧
      d.rd Reg.GLB_PCIE_STAT_F0_BME = 0 ∧ d.rd Reg.GLB_PCIE_STAT_F1_BME = 0 ∧ s.dev.OnlyWrites d [0x60]) ∧
    Ends (.pcieFlr t func) s (fun d => d.rq (1 + func) = {} ∧ d.rd Reg.GLB_PCIE_STAT_FLR = min (s.dev.rd Reg.GLB_PCIE_STAT_FLR + 1) 255 ∧
      ∀ n, n < 64 → s.dev.rd Reg.GLB_MSIX_MAP_FUNC n = func → d.rd Reg.GLB_MSIX_ARM_ARM n = 0)

/-- A protected map write sets queue, function and condition of a vector; arming it fires at once where the condition holds, and MSIX_FIRE fires an armed one: the message goes, or waits while its entry is masked. A key request waits for its store; when that is done the entry is enrolled or erased, the key data is gone and sessions of that key end; a failed store changes no entry. Of the datagram that waits longest at a port: a malformed or unauthenticated one is counted, OPEN gets the first free session of its realm, CLOSE ends its session, a request of one word read is answered and its sequence number kept, a repeated one is not run again. An idle session ends (R408, R411, R413 to R416, R420). (spec/16_host_access.md) -/
def Obligations.VectorsKeysAndSessions : Prop :=
  ∀ (s : State) (t req key sid op off : Nat) (n ent sess : Fin 64) (v : Word) (p : Fin 4) (m : CwpMsg) (rest : List CwpMsg) (c : PortCfg) (x : Session) (ops : List CwpOp),
    let f := s.dev.rd Reg.GLB_MSIX_MAP_FUNC n
    let b := m.bytes
    let ahead := (cwpSeq b + 2 ^ 32 - x.seq) % 2 ^ 32
    (s.dev.Takes req →
      Ends (.glbMsixMap t req n v) s (fun d => d.out = [.status req 0] ∧ d.rd Reg.GLB_MSIX_MAP_QID n = v.toNat % 2 ^ 20 ∧ d.rd Reg.GLB_MSIX_MAP_FUNC n = b2n (v.getLsbD 20) ∧
        d.rd Reg.GLB_MSIX_MAP_COND n = v.toNat / 2 ^ 21 % 4 ∧ s.dev.OnlyWrites d [Reg.GLB_MSIX_MAP_QID.addr n 0]) ∧
      (s.dev.host.pend = [] →
        (s.dev.msixCond n = true → Ends (.glbMsixArm t req n v false) s fun d => d.out = [.status req 0, .msix f n] ∧ d.rd Reg.GLB_MSIX_ARM_FIRED n = 1 ∧ d.rd Reg.GLB_MSIX_ARM_ARM n = 0) ∧
        (s.dev.msixCond n = false → Ends (.glbMsixArm t req n v false) s fun d => d.out = [.status req 0] ∧ d.rd Reg.GLB_MSIX_ARM_ARM n = 1)) ∧
      (s.dev.rd Reg.GLB_KEY_STAT_BUSY = 0 → s.dev.mode = .dark ∨ s.dev.mode = .quiet ∨ s.dev.mode = .run →
        Ends (.glbKeyEnrol t req ent) s (fun d => d.rd Reg.GLB_KEY_STAT_BUSY = 1 ∧ d.host.keyReq = some (ent.val, 0) ∧ d.host.keys = s.dev.host.keys ∧ s.dev.OnlyWrites d [0x104]) ∧
        Ends (.glbKeyErase t req ent) s (fun d => d.rd Reg.GLB_KEY_STAT_BUSY = 1 ∧ d.host.keyReq = some (ent.val, 1) ∧ d.host.keys = s.dev.host.keys ∧ s.dev.OnlyWrites d [0x104]))) ∧
    (s.dev.host.pend = [] → s.dev.rd Reg.GLB_MSIX_ARM_ARM n = 1 → s.dev.msixCond n = true →
      Ends (.msixFire t n false) s (fun d => d.out = [.msix f n] ∧ d.host.pend = [] ∧ d.rd Reg.GLB_MSIX_ARM_FIRED n = 1 ∧ d.rd Reg.GLB_MSIX_ARM_ARM n = 0) ∧
      Ends (.msixFire t n true) s (fun d => d.out = [] ∧ d.host.pend = [64 * f + n] ∧ d.rd Reg.GLB_MSIX_ARM_FIRED n = 1 ∧ d.rd Reg.GLB_MSIX_ARM_ARM n = 0)) ∧
    (s.dev.host.keyReq = some (key, op) →
      Ends (.keyStoreDone t true) s (fun d => d.host.keys.find key = (if op = 1 then none else some ((List.range 8).flatMap fun k => toLe (s.dev.rd Reg.GLB_KEY_DATA_KEY k) 4)) ∧
        d.rd Reg.GLB_KEY_STAT_BUSY = 0 ∧ d.rd Reg.GLB_KEY_STAT_RESULT = 0 ∧ (∀ k, k < 8 → d.rd Reg.GLB_KEY_DATA_KEY k = 0) ∧ ∀ y ∈ s.dev.host.sess, y.2.key = key → d.host.sess.find y.1 = none) ∧
      Ends (.keyStoreDone t false) s fun d => d.host.keys = s.dev.host.keys ∧ d.rd Reg.GLB_KEY_STAT_BUSY = 0 ∧ d.rd Reg.GLB_KEY_STAT_RESULT = 2 ∧ ∀ k, k < 8 → d.rd Reg.GLB_KEY_DATA_KEY k = 0) ∧
    (s.dev.host.waiting.get p [] = m :: rest →
      (cwpKind b = 1 → cwpFormat b = none → Ends (.cwpRequest t p) s fun d => d.rd Reg.GLB_CWP_CNT_FORMAT_CNT = min (s.dev.rd Reg.GLB_CWP_CNT_FORMAT_CNT + 1) (2 ^ 32 - 1) ∧
        d.host.waiting.get p [] = rest ∧ d.host.sess = s.dev.host.sess ∧ s.dev.OnlyWrites d [0x54]) ∧
      (cwpFormat b = some ops → s.dev.portCfg p = some c →
        (cwpKind b = 1 → s.dev.cwpAuth c b = none → Ends (.cwpRequest t p) s fun d => d.rd Reg.GLB_CWP_CNT_AUTH_CNT = min (s.dev.rd Reg.GLB_CWP_CNT_AUTH_CNT + 1) (2 ^ 32 - 1) ∧
          d.host.waiting.get p [] = rest ∧ d.host.sess = s.dev.host.sess ∧ s.dev.OnlyWrites d [0x50]) ∧
        (s.dev.cwpAuth c b = some key →
          (cwpKind b = 3 → s.dev.cwpSame m = none →
            (if cwpProt b then (List.range 16).map (fun k => 48 + k) else List.range 48).find? (fun k => (s.dev.host.sess.find k).isNone) = some sid →
            Ends (.cwpOpen t p) s fun d => ∃ y, d.host.sess.find sid = some y ∧ y.addr = m.addr ∧ y.udp = m.udp ∧ y.nonce ≠ 0 ∧ y.cnonce = cwpCnonce b ∧ y.seq = cwpSeq b ∧ y.key = key ∧ y.at_ = s.dev.ownAt t) ∧
          (cwpSession b < 64 → s.dev.host.sess.find (cwpSession b) = some x → Dev.cwpFits c p m x = true →
            (cwpKind b = 5 → ahead ≠ 0 → ahead < 2 ^ 31 → Ends (.cwpClose t p) s fun d => d.host.sess.find (cwpSession b) = none) ∧
            (cwpKind b = 1 → ahead = 0 → Ends (.cwpRequest t p) s fun d => d.host.sess = s.dev.host.sess ∧ d.qf = s.dev.qf) ∧
            (cwpKind b = 1 → ahead ≠ 0 → ahead < 2 ^ 31 → ops = [{ op := 1, count := 1, addr := off, data := [] }] → s.dev.mode ≠ .dark → off % 4 = 0 → off < 0x1000000 →
              (begin_ t s.dev).freeWord off = none → fullTimeAt off = none → wideAt off = none →
              let w := (begin_ t s.dev).liveWord (0x40 + cwpSession b) off
              Ends (.cwpRequest t p) s fun d => d.host.sess.find (cwpSession b) = some { x with seq := cwpSeq b, at_ := s.dev.ownAt t, cache := s.dev.cwpMessage key 2 (cwpSession b) (byteAt b 5) 1 0 (cwpSeq b) x.nonce 0 ([1#8, 0#8, 1#8, 0#8] ++ toLe w 4) }))))) ∧
    (s.dev.host.sess.find sess = some x → x.at_ + s.dev.idleNs ≤ s.dev.ownAt t → Ends (.cwpIdleTimeout t sess) s fun d => d.host.sess.find sess = none)

/-! ### Chapter 17: the network ports and the field -/

/-- On a port that runs with its link up: a frame above 1,518 bytes or with the wrong tag is discarded and counted, a PAUSE stops classes 2 and 3 for its time, a CWP datagram for the device waits at the port. A link change shows; a link lost in a PRP pair loses its path, as a silence does while the other LAN is heard. Supervision frames are numbered. After the overlap a port sends under its newest association, and later drops the older ones. A telemetry unit that fits joins what its binding gathers; a unit without a binding is discarded and counted; what was gathered goes out after the flush time with the next sequence number (R423 to R433). (spec/17_networks_fieldbus_io.md) -/
def Obligations.NetworkPortsTakeAndSend : Prop :=
  ∀ (s : State) (t a_ qid n : Nat) (p : Fin 4) (pair : Fin 2) (bind : Fin 32) (c a : PortCfg) (frame src dip pay : List Byte) (sport : Nat) (up : Bool) (speed : Fin 4) (sa : MacSa) (q : Queue) (u : QUnit) (us : List QUnit),
    let np := s.dev.np p
    let link := s.dev.rd Reg.NET_PORT_STAT_LINK p
    let bumped (f : Field) (d : Dev) : Prop := d.rd f p = min (s.dev.rd f p + 1) (2 ^ 32 - 1)
    let body := frame.drop 14
    (s.dev.portCfg p = some c →
      (s.dev.addrCfg p = some a → link = 1 → s.dev.rd Reg.NET_PORT_STAT_CLOSED p = 0 → 14 ≤ frame.length →
        (1518 < frame.length → Ends (.ethFrameReceive t p frame) s fun d => bumped Reg.NET_CNT_RX_DROP_CNT d ∧ d.rd Reg.NET_PORT_ERR_TOO_LONG p = 1 ∧ d.host = s.dev.host) ∧
        (frame.length ≤ 1518 → be frame 12 2 = 0x8808 → be frame 14 2 = 1 → Ends (.ethFrameReceive t p frame) s fun d =>
          bumped Reg.NET_CNT_PAUSE_RX_CNT d ∧ d.rd Reg.NET_PORT_ERR_PAUSE_RX p = 1 ∧ (d.np p).pauseTo = s.dev.ownAt t + be frame 16 2 * 512 * s.dev.bitPs p c.mode / 1000) ∧
        (frame.length ≤ 1518 → c.key = 0xFF → c.vlan = 0 → be frame 12 2 = 0x8100 → be frame 14 2 % 4096 ≠ 0 → Ends (.ethFrameReceive t p frame) s fun d =>
          bumped Reg.NET_CNT_RX_DROP_CNT d ∧ d.rd Reg.NET_PORT_ERR_VLAN p = 1 ∧ d.host = s.dev.host) ∧
        (frame.length ≤ 1518 → c.key = 0xFF → c.vlan = 0 → c.prp = false → be frame 12 2 ≠ 0x8808 → be frame 12 2 ≠ 0x8100 → frame.take 6 = c.mac →
          readFrame (be frame 12 2) body = .udp src dip sport 47620 pay → c.owns dip = true → (s.dev.host.waiting.get p []).length < 16 →
          Ends (.ethFrameReceive t p frame) s fun d => bumped Reg.NET_CNT_RX_FRAMES_CNT d ∧
            d.host.waiting.get p [] = s.dev.host.waiting.get p [] ++ [{ mac := slice frame 6 6, addr := src, udp := sport, bytes := pay }])) ∧
      (link ≠ b2n up → Ends (.ethLinkChange t p up speed) s fun d => d.rd Reg.NET_PORT_STAT_LINK p = b2n up ∧ d.rd Reg.NET_PORT_STAT_SPEED p = (if c.mode = 4 then min speed.val 2 else 3) ∧
        (up = false → d.rd Reg.NET_PORT_ERR_LINK_LOST p = 1 ∧ (c.prp = true → bitAt (d.rd Reg.NET_PAIR_STAT_PATH_LOST) p = true))) ∧
      (c.prp = true → link = 1 → np.lastRx + max 1 (s.dev.rd Reg.NET_CTRL_PRP_SILENT) * 1000000 ≤ s.dev.ownAt t → np.lastRx < (s.dev.np (mate p)).lastRx →
        Ends (.prpPathSilent t p) s fun d => bitAt (d.rd Reg.NET_PAIR_STAT_PATH_LOST) p = true ∧ s.dev.OnlyWrites d [0x90808])) ∧
    (s.dev.portCfg (2 * pair) = some c → c.prp = true → (∀ b, (s.dev.pair pair).supAt = some b → b + 2000000000 ≤ s.dev.ownAt t) →
      Ends (.prpSupervisionSend t pair) s fun d => (d.pair pair).supSeq = ((s.dev.pair pair).supSeq + 1) % 65536 ∧ (d.pair pair).supAt = some (s.dev.ownAt t)) ∧
    (np.switchAt = some a_ → np.rx.getLast? = some sa → a_ ≤ s.dev.ownAt t → Ends (.macsecTxSwitch t p) s fun d =>
      (d.np p).tx = some { an := sa.an, key := sa.key } ∧ (d.np p).removeAt = some (a_ + s.dev.overlapNs) ∧ d.rd Reg.NET_PORT_STAT_TX_AN p = sa.an % 4 ∧ s.dev.OnlyWrites d [Reg.NET_PORT_STAT_LINK.addr p 0]) ∧
    (np.removeAt = some a_ → a_ ≤ s.dev.ownAt t → Ends (.macsecOldRxRemove t p) s fun d =>
      (d.np p).rx = np.rx.drop (np.rx.length - 1) ∧ d.rd Reg.NET_PORT_STAT_SA_PENDING p = 0 ∧ s.dev.OnlyWrites d [Reg.NET_PORT_STAT_LINK.addr p 0]) ∧
    (s.dev.qf.qs.find qid = some q → q.qd.consumer = 0xB000 + p → (s.dev.portCfg p).isSome = true → (s.dev.portsOf p).any (fun r => s.dev.portUp r) = true → q.reading = none → q.units = u :: us →
      (begin_ t s.dev).pausedFor p q.qd.cls = false → (begin_ t s.dev).higherWaits p (classRank q.qd.cls) = false →
      (s.dev.bindingOf qid = none → Ends (.egressUnitTake t p qid) s fun d => d.Holds qid us q.openp none ∧ bumped Reg.NET_CNT_TX_DISCARD_CNT d ∧ d.rd Reg.NET_PORT_ERR_TX_DISCARD p = 1) ∧
      (s.dev.bindingOf qid = some n → s.dev.rd Reg.NET_EGQ_KIND n = 0 → u.size ≤ 176 → (s.dev.egress n).items.length + u.size ≤ 176 →
        Ends (.egressUnitTake t p qid) s fun d => d.Holds qid us q.openp none ∧ (d.egress n).items = (s.dev.egress n).items ++ u.items)) ∧
    ((s.dev.egress bind).items ≠ [] → (s.dev.egress bind).at_ + max 1 (s.dev.rd Reg.NET_EGQ_FLUSH_FLUSH bind) * 1000 ≤ s.dev.ownAt t →
      Ends (.telemetryFlush t bind) s fun d => (d.egress bind).items = [] ∧ d.rd Reg.NET_EGQ_SEQ_SEQ bind = (s.dev.rd Reg.NET_EGQ_SEQ_SEQ bind + 1) % 2 ^ 32)

/-- A CAN frame not begun at its slot's end is withdrawn and counted; a received frame that passes no filter is dropped and counted; bus-off, recovery and error passive change the state of Table 17.8. A decoder moves its count by one step on a change of one level, saturating at 28 bits; on a change of both it counts an error and keeps the count. Protected writes preset the count and the error count. A PWM period takes the host's duty within its limits where no loop drives the channel; a protected write sets the host's duty. GPIO_OUT drives the output pins that change; an input change shows; a debounced input shows its polarity-corrected level, and with action 2 asks for a Wrap in RUN (R438, R440 to R447). (spec/17_networks_fieldbus_io.md, spec/16_host_access.md) -/
def Obligations.FieldInterfacesFollowTheirInputs : Prop :=
  ∀ (s : State) (t req id sof tec rcv : Nat) (c : Fin 4) (q : Fin 8) (ch : Fin 16) (dlc : Fin 16) (ide fdf brs esi a b z level : Bool) (data : List Byte) (fr : Nat × Nat × List Byte) (r x : Rec) (v : Word),
    let st := s.dev.rd Reg.FLD_CAN_STAT_STATE c
    let bumped (f : Field) (d : Dev) : Prop := d.rd f c = min (s.dev.rd f c + 1) (2 ^ 32 - 1)
    let qd := s.dev.qdec q
    ((s.dev.canCtl c).frame = some fr → Ends (.canSlotEnd t c) s fun d => (d.canCtl c).frame = none ∧ bumped Reg.FLD_CAN_CNT_ABORT_CNT d ∧ s.dev.OnlyWrites d [Reg.FLD_CAN_CNT_ABORT_CNT.addr c 0]) ∧
    (s.dev.plant = true → (s.dev.rl.can c).isSome = true → st < 3 → data.length = (if fdf then canLen dlc else min 8 dlc.val) →
      ((s.dev.recs secCall 3).find? (fun x => x.u8 8 == c.val && (id &&& x.u32 16) == (x.u32 12 &&& x.u32 16) && ide == bitAt (x.u8 9) 2) = none →
        Ends (.canFrameReceive t c id ide fdf brs esi dlc data sof) s fun d => bumped Reg.FLD_CAN_CNT_RX_DROP_CNT d ∧ s.dev.OnlyWrites d [Reg.FLD_CAN_CNT_RX_DROP_CNT.addr c 0]) ∧
      ((s.dev.recs secCall 3).find? (fun x => x.u8 8 == c.val && (id &&& x.u32 16) == (x.u32 12 &&& x.u32 16) && ide == bitAt (x.u8 9) 2) = some x →
        Ends (.canFrameReceive t c id ide fdf brs esi dlc data sof) s fun d => bumped Reg.FLD_CAN_CNT_RX_CNT d)) ∧
    (st = 1 ∨ st = 2 → Ends (.canBusOff t c tec) s fun d => d.rd Reg.FLD_CAN_STAT_STATE c = 3 ∧ d.rd Reg.FLD_CAN_STAT_TEC c = min tec 255 ∧ d.rd Reg.FLD_CAN_POS_RECOVER c = 0 ∧ bumped Reg.FLD_CAN_CNT_BUSOFF_CNT d) ∧
    (3 ≤ st → Ends (.canRecover t c) s fun d => d.rd Reg.FLD_CAN_STAT_STATE c = 1 ∧ d.rd Reg.FLD_CAN_STAT_TEC c = 0 ∧ d.rd Reg.FLD_CAN_STAT_REC c = 0) ∧
    (st = 1 → Ends (.canErrorPassive t c tec rcv) s fun d => d.rd Reg.FLD_CAN_STAT_STATE c = 2 ∧ d.rd Reg.FLD_CAN_STAT_TEC c = min tec 255 ∧ d.rd Reg.FLD_CAN_STAT_REC c = min rcv 255) ∧
    (s.dev.plant = true → (s.dev.qdRec q).u8 9 = 1 →
      ((a != qd.a) != (b != qd.b) → Ends (.qdSample t q a b z) s fun d => d.rd Reg.FLD_QD_STAT_LEVELS q = b2n a + b2n b * 2 + b2n z * 4 ∧
        d.rdI Reg.FLD_QD_COUNT_COUNT q = (satS 28 (s.dev.rdI Reg.FLD_QD_COUNT_COUNT q + (if s.dev.rd Reg.FLD_QD_CTRL_DIR q = 1 then -qdStep qd.refA qd.refB a b else qdStep qd.refA qd.refB a b))).1) ∧
      (a ≠ qd.a → b ≠ qd.b → Ends (.qdSample t q a b z) s fun d => d.rd Reg.FLD_QD_COUNT_COUNT q = s.dev.rd Reg.FLD_QD_COUNT_COUNT q ∧
        d.rd Reg.FLD_QD_ERRCNT_CNT q = min (s.dev.rd Reg.FLD_QD_ERRCNT_CNT q + 1) 65535)) ∧
    (s.dev.Takes req →
      Ends (.fldQdSet t req q v) s (fun d => d.rdI Reg.FLD_QD_COUNT_COUNT q = sx 28 v.toNat ∧ d.out = [.status req 0] ∧ s.dev.OnlyWrites d [Reg.FLD_QD_COUNT_COUNT.addr q 0]) ∧
      Ends (.fldQdErrcnt t req q v) s (fun d => d.rd Reg.FLD_QD_ERRCNT_CNT q = v.toNat % 65536 ∧ (v.toNat % 65536 ≤ (s.dev.qdRec q).u16 10 → d.rd Reg.FLD_QD_STAT_ILL_RAISED q = 0) ∧ d.out = [.status req 0]) ∧
      Ends (.fldPwmHost t req ch v) s (fun d => d.rd Reg.FLD_PWM_HOST_DUTY ch = v.toNat % 65536 ∧ d.out = [.status req 0] ∧ s.dev.OnlyWrites d [Reg.FLD_PWM_HOST_DUTY.addr ch 0]) ∧
      Ends (.fldGpioOut t req v) s fun d => d.rd Reg.FLD_GPIO_OUT_LEVEL = v.toNat % 65536 ∧ s.dev.OnlyWrites d [0xA0C04] ∧ d.out = ((List.range 16).filterMap fun n => match s.dev.gpioRec n with
        | some y => if s.dev.live && y.u8 9 == 1 && bitAt (s.dev.rd Reg.FLD_GPIO_OUT_LEVEL) n != bitAt (v.toNat % 65536) n then some (.pin 2 n (b2n (bitAt (v.toNat % 65536) n != (y.u8 10 == 1)))) else none
        | none => none) ++ [.status req 0]) ∧
    (s.dev.plant = true → s.dev.pwmRec ch = some r → pwmPeriod (r.u32 12) ≠ 0 → s.dev.nowAt t % (4 * pwmPeriod (r.u32 12)) = 0 → s.dev.rd Reg.FLD_PWM_STAT_BOUND ch = 0 →
      Ends (.pwmPeriodStart t ch) s fun d => d.rd Reg.FLD_PWM_STAT_DUTY ch = min (max (s.dev.rd Reg.FLD_PWM_HOST_DUTY ch) (r.u16 16)) (r.u16 18) ∧
        (s.dev.pwmDrive ch = false → d.out = []) ∧ s.dev.OnlyWrites d [Reg.FLD_PWM_STAT_DUTY.addr ch 0]) ∧
    (s.dev.plant = true → s.dev.gpioRec ch = none → Ends (.gpioInputChange t ch level) s fun d => bitAt (d.rd Reg.FLD_GPIO_IN_LEVEL) ch = level ∧ s.dev.OnlyWrites d [0xA0C00]) ∧
    (s.dev.plant = true → s.dev.inputRec q = some x →
      let act := level != (x.u8 9 == 1)
      bitAt (s.dev.rd Reg.FLD_SAFE_IN_ACTIVE) q ≠ act → Ends (.fldInputDebounce t q level) s fun d => bitAt (d.rd Reg.FLD_SAFE_IN_ACTIVE) q = act ∧ bitAt (d.rd Reg.FLD_SAFE_IN_LEVEL) q = act ∧
        (act = true → x.u8 10 % 4 = 2 → s.dev.mode = .run → s.dev.sin.switchWrap ≠ some 6 → 6 ∈ d.gaf.wrapReq))

/-! ### Chapter 18: the Gaffer and the Wrap -/

/-- A client silent for 1 ms keeps at most its floor. A protected write stores a cap; an open one below the floor of a client in protected use is refused and changes nothing. A sample shows 32 readings, each die's highest usable one, and the dies at the warn level with ALERT and THERM_N. The comparators' shutdown shows state 4 with every trip output low, and HALT follows 1 ms after. RESTORE clears an exclusion. Enforcement takes D0/8 off the budget, once more each second; every 10 s without a warning die gives D0/8 back, and at D0 the throttle ends. Without a usable sensor compensation holds. A container's pool falls from T0 to T1 (R453 to R462). (spec/18_power_thermal_wrap.md, spec/16_host_access.md) -/
def Obligations.GafferGrantsSensesAndThrottles : Prop :=
  ∀ (s : State) (t req a v first count pool : Nat) (c : Fin 140) (k : Fin 32) (box : Fin 64) (cap : Word) (temps : List Int) (x : Int),
    let g := s.dev.gaf
    let disc := s.dev.rd Reg.GAF_BUDGET_DISC
    let t0 := s.dev.rdI Reg.GAF_HEAT_CFG_HEAT_T0
    let t1 := s.dev.rdI Reg.GAF_HEAT_CFG_HEAT_T1
    let aux := (s.dev.usable 3).map s.dev.sensT
    (g.reportAt.find c = some a → a + 1000000 ≤ s.dev.ownAt t → s.dev.rd Reg.GAF_CLIENT_CTRL_RECLAIMED c = 0 → Ends (.grantReclaim t c) s fun d =>
      d.rd Reg.GAF_CLIENT_GRANT_GRANT c = min (s.dev.rd Reg.GAF_CLIENT_GRANT_GRANT c) (min (s.dev.rd Reg.GAF_CLIENT_RATE_FLOOR c) (s.dev.rd Reg.GAF_CLIENT_RATE_FULL c)) ∧
      d.rd Reg.GAF_CLIENT_CTRL_RECLAIMED c = 1 ∧ s.dev.OnlyWrites d [Reg.GAF_CLIENT_GRANT_GRANT.addr c 0, Reg.GAF_CLIENT_CTRL_RECLAIMED.addr c 0]) ∧
    (s.dev.Takes req → Ends (.gafCap t req c cap) s fun d => d.rd Reg.GAF_CLIENT_CTRL_CAP c = cap.toNat % 65536 ∧ d.out = [.status req 0] ∧ s.dev.OnlyWrites d [Reg.GAF_CLIENT_CTRL_CAP.addr c 0]) ∧
    (s.dev.reqOk req = true → s.dev.reqProt req = false → s.dev.clientProt c = true → cap.toNat % 65536 < s.dev.rd Reg.GAF_CLIENT_RATE_FLOOR c →
      Ends (.gafCap t req c cap) s fun d => d.rd Reg.GAF_CLIENT_CTRL_CAP c = s.dev.rd Reg.GAF_CLIENT_CTRL_CAP c ∧ d.out = [.status req 0x30]) ∧
    (temps.length = 32 → s.dev.mainOn = true → Ends (.dieSensorSample t temps) s fun d =>
      (∀ j, j < 32 → d.rd Reg.GAF_SENS_T j = code 16 (temps.getD j 0)) ∧ d.rdI Reg.GAF_DIE_T0_LOGIC = (d.dieTemp 0).getD 0 ∧ d.rdI Reg.GAF_DIE_T1_WATCH = (d.dieTemp 3).getD 0 ∧
      (s.dev.reel.isSome = true → d.rd Reg.GAF_STATUS_ALERT = b2n (!d.gaf.warn.isEmpty) ∧ d.pins.thermN = d.gaf.warn.isEmpty ∧
        ∀ die, die < 4 → (die ∈ d.gaf.warn ↔ ∃ y, d.dieTemp die = some y ∧ (s.dev.rdI Reg.GAF_THERM_T_WARN ≤ y ∨ die ∈ g.warn ∧ s.dev.rdI Reg.GAF_THERM_T_WARN - 500 ≤ y)))) ∧
    (s.dev.mainOn = true → s.dev.mode ≠ .halt →
      (k.val ∈ s.dev.hwHot → g.hwAt = none → g.immediate = none → Ends (.hwThermalShutdown t k) s fun d => d.gaf.hwAt = some (s.dev.ownAt t) ∧
        d.gaf.immediate = some (3, 0, cycleOf (s.dev.nowAt t)) ∧ d.rd Reg.GAF_STATUS_WRAP_STATE = 4 ∧ d.pins.tripH = 0 ∧ d.pins.tripP = 0 ∧ d.mode = s.dev.mode) ∧
      (g.hwAt = some a → a + 1000000 ≤ s.dev.ownAt t → Ends (.haltForce t) s fun d => d.mode = .halt ∧ d.pins.tripH = 0 ∧ d.pins.tripP = 0 ∧ d.pins.faultN = false)) ∧
    (s.dev.Takes req → s.dev.rd Reg.GAF_SENS_EXCL k = 1 → Ends (.gafSensRestore t req k) s fun d => d.rd Reg.GAF_SENS_EXCL k = 0 ∧ d.sensor k = {} ∧ d.out = [.status req 0]) ∧
    (g.graceAt = some a → a ≤ s.dev.ownAt t → Ends (.throttleGraceExpiry t) s fun d => d.gaf.graceAt = none ∧ (g.warn ≠ [] → d.rd Reg.GAF_STATUS_THR_ENF = 1 ∧
      d.rd Reg.GAF_BUDGET_DISC = disc - s.dev.disc0 / 8 ∧ d.gaf.stepAt = s.dev.ownAt t) ∧ (g.warn = [] → s.dev.OnlyWrites d [])) ∧
    (s.dev.rd Reg.GAF_STATUS_THR_ENF = 1 →
      (g.warn ≠ [] → g.stepAt + 1000000000 ≤ s.dev.ownAt t → Ends (.throttleStep t) s fun d => d.rd Reg.GAF_BUDGET_DISC = disc - s.dev.disc0 / 8 ∧ d.gaf.stepAt = s.dev.ownAt t ∧
        s.dev.OnlyWrites d [0x30024]) ∧
      (g.warn = [] → g.calmAt = some a → a + 10000000000 ≤ s.dev.ownAt t → Ends (.throttleReleaseStep t) s fun d => d.rd Reg.GAF_BUDGET_DISC = min s.dev.disc0 (disc + s.dev.disc0 / 8) ∧
        (s.dev.disc0 ≤ disc + s.dev.disc0 / 8 → d.rd Reg.GAF_STATUS_THR_REQ = 0 ∧ d.rd Reg.GAF_STATUS_THR_ENF = 0))) ∧
    (s.dev.mainOn = true → Ends (.compensationUpdate t) s fun d => d.rd Reg.GAF_COMP_AMP_HOLD = b2n (s.dev.usable 0).isEmpty ∧ d.rd Reg.GAF_COMP_ADC_HOLD = b2n (s.dev.usable 3).isEmpty ∧
      d.rd Reg.GAF_COMP_RTC_HOLD = b2n (s.dev.usable 3).isEmpty ∧ (aux ≠ [] → d.rd Reg.GAF_COMP_RTC_CORR = code 16 (clampS 16 (rhu (Config.rtcCorrection (rhu (sumI aux) aux.length)) 100000))) ∧
      s.dev.OnlyWrites d [0x30038]) ∧
    (s.dev.containers.find? (fun y => y.1 == box.val) = some (box.val, first, count, pool) → pool < 65536 →
      let ends (n : Nat) : Prop := Ends (.heatPoolEvaluate t) s fun d => d.rd Reg.GAF_HEAT_POOL_GRANTED box = n
      (s.dev.mode = .wrap ∨ s.dev.containerTemp first count = none → ends 0) ∧
      (s.dev.mode ≠ .wrap → s.dev.rd Reg.GAF_HEAT_CAP_CAP box = 0xFFFF → s.dev.containerTemp first count = some x →
        (x ≤ t0 → ends pool) ∧ (t0 < x → t1 ≤ x → ends 0) ∧ (t0 < x → x < t1 → ends (pool * (t1 - x).toNat / (t1 - t0).toNat))) ∧
      (s.dev.mode ≠ .wrap → s.dev.rd Reg.GAF_HEAT_CAP_CAP box = v → v < pool → s.dev.containerTemp first count = some x → x ≤ t0 → ends v))

/-- In RUN a shutdown request and a PWR_GOOD fall with holdup ask for a Wrap or for a switch first; a fall without holdup starts an immediate shutdown. A ramping string without permit opens; one with permit and a current at zero since the start is held; a held one without permit opens; an opening one with MISSING latched is done unconfirmed, and one whose contactors read open 2 ms after is done. At HOLD_T ramping strings are held. After 100 ms an opening string is done unconfirmed. The Wrap limit starts an immediate shutdown: state 4, every trip output low. Its next boundary sends the withdrawing PERMIT, and the boundary after ends in HALT (R390, R463 to R468). (spec/18_power_thermal_wrap.md, spec/15_stand_in_pairs.md) -/
def Obligations.WrapRunsToItsEnd : Prop :=
  ∀ (s : State) (t c last i o : Nat) (str : Fin 256) (w : WrapRun) (x : WString),
    let g := s.dev.gaf
    let k := cycleOf (s.dev.nowAt t)
    let ts := s.dev.ts str
    let calm (since : Nat) : Prop := since ≤ ts.curAt ∧ ts.curOk = true ∧ ts.cur ≤ max 1 (s.dev.rd Reg.GAF_WRAP_CFG_ZERO_I) * 100
    let becomes (y : WString) (d : Dev) : Prop := ∃ r, d.gaf.wrap = some r ∧ r.strings.find str = some y
    let shut (cause : Nat) (d : Dev) : Prop := d.gaf.immediate = some (cause, 0, k) ∧ d.rd Reg.GAF_STATUS_WRAP_STATE = 4 ∧ d.pins.tripH = 0 ∧ d.pins.tripP = 0 ∧ d.mode = s.dev.mode
    let asked (cause : Nat) (d : Dev) : Prop := cause ∈ d.gaf.wrapReq ∨ d.sin.switchWrap = some cause
    (s.dev.mode = .run → Ends (.shutdownReq t) s (fun d => d.rd Reg.GAF_STATUS_SHUTDOWN_REQ = 1 ∧ asked 2 d) ∧
      (s.dev.rd Reg.GAF_HOLDUP_HOLDUP ≠ 0 → Ends (.pwrGoodFall t) s fun d => d.supply.pwrGood = false ∧ asked 4 d) ∧
      (s.dev.rd Reg.GAF_HOLDUP_HOLDUP = 0 → g.immediate = none → Ends (.pwrGoodFall t) s fun d => d.supply.pwrGood = false ∧ shut 4 d)) ∧
    (s.dev.live = false → Ends (.pwrGoodFall t) s fun d => d.supply.pwrGood = false ∧ d.gaf = g ∧ s.dev.OnlyWrites d []) ∧
    (g.wrap = some w →
      (w.strings.find str = some x →
        (x.st = .ramp → s.dev.permitted str = false → Ends (.wrapStringStep t str) s (becomes { x with st := .opening })) ∧
        (x.st = .ramp → s.dev.permitted str = true → calm w.start → Ends (.wrapStringStep t str) s (becomes { x with st := .held, zeroed := true })) ∧
        (x.st = .held → s.dev.permitted str = false → Ends (.wrapStringStep t str) s (becomes { x with st := .opening })) ∧
        (x.st = .held → s.dev.permitted str = true → x.hold = some o → calm (o + 2000000) → Ends (.wrapStringStep t str) s (becomes { x with st := .opening, zeroed := true })) ∧
        (x.st = .opening → bitAt (s.dev.rd Reg.TRW_STR_CAUSE_CAUSES str) cMissing = true → Ends (.wrapStringStep t str) s (becomes { x with st := .done, unconf := true })) ∧
        (x.st = .opening → bitAt (s.dev.rd Reg.TRW_STR_CAUSE_CAUSES str) cMissing = false → x.openAt = some (i, o) → i + 2000000 ≤ ts.statAt → s.dev.rd Reg.TRW_STR_STAT_CONTACT str % 4 = 0 →
          Ends (.wrapStringStep t str) s (becomes { x with st := .done, unconf := false })) ∧
        (x.st = .opening → x.openAt = some (i, o) → o + 100000000 ≤ s.dev.ownAt t → Ends (.wrapOpenTimeout t str) s (becomes { x with st := .done, unconf := true }))) ∧
      (w.own0 + max 1 (s.dev.rd Reg.GAF_WRAP_CFG_HOLD_T) * 1000000 ≤ s.dev.ownAt t → Ends (.wrapHoldT t) s fun d => ∃ r, d.gaf.wrap = some r ∧
        ∀ j, r.strings.find j = (w.strings.find j).map fun y => if y.st = .ramp then { y with st := .held } else y) ∧
      (s.dev.mode = .wrap → w.sleep = 0 → g.immediate = none → w.endAt ≤ s.dev.ownAt t → Ends (.wrapLimit t) s (shut 8))) ∧
    (s.dev.mainOn = true → s.dev.mode ≠ .halt → last < k →
      (g.immediate = some (c, 0, last) → Ends (.immediateShutdown t) s fun d => d.gaf.immediate = some (c, 1, k) ∧ d.mode = s.dev.mode) ∧
      (g.immediate = some (c, 1, last) → Ends (.immediateShutdown t) s fun d => d.mode = .halt ∧ d.pins.tripH = 0 ∧ d.pins.tripP = 0 ∧ d.pins.faultN = false))

/-! ### Chapters 19 and 20: the watch island and the debug port -/

/-- In STANDBY and WATCH an enabled wake pin, and an alarm whose second has come, set their cause and assert MAIN_EN_N; a write of RELEASE releases it. VBAT_LOW shows. In WATCH an enabled tone detector latches its port. A Daily at a new instant is counted, and every enabled channel shows the rounded mean of its conversions and its filter; one that falls into a Daily still running is skipped and counted. In WATCH the correction follows the watch die's sensors. Once a second device time goes to the RTC while it is valid. The debug port shifts a zero for BYPASS and CLAMP and the code for IDCODE, and an instruction that drives balls outside DARK or without DBG_EN is BYPASS (R152, R471 to R475, R478, R507). (spec/19_watch_store_tag.md, spec/06_timebase_slate.md, spec/20_electrical_package.md) -/
def Obligations.WatchIslandAndDebugPort : Prop :=
  ∀ (s : State) (t req pins y : Nat) (pin : Fin 4) (port : Fin 128) (ch : Fin 8) (adc : List (List Nat)) (t30 t31 : Int) (v : Word) (dbg : Bool),
    let b := begin_ t s.dev
    let asserted (bit : Nat) (d : Dev) : Prop := d.pins.mainEnN = false ∧ d.rd Reg.WCH_STATUS_MAIN_REQ = 1 ∧ bitAt (d.word 0x40004).toNat bit = true
    let inst := b.rtcNow / 1000000000 / s.dev.dailyInt * s.dev.dailyInt
    let conv := adc.getD ch []
    let mean := rhu (sumN conv : Nat) (max conv.length 1)
    (s.dev.mode = .standby ∨ s.dev.mode = .watch →
      (bitAt (s.dev.rd Reg.WCH_WAKE_CFG_EN) pin = true → Ends (.wakePin t pin) s (asserted pin)) ∧
      (s.dev.rd Reg.WCH_ALARM_CTRL_EN = 1 → b.rtcNow / 1000000000 % 2 ^ 32 = s.dev.rd Reg.WCH_ALARM_SEC → Ends (.rtcAlarm t) s fun d => asserted 4 d ∧ d.rd Reg.WCH_ALARM_CTRL_EN = 0)) ∧
    (s.dev.Takes req → Ends (.wchRelease t req v) s fun d => d.pins.mainEnN = true ∧ d.rd Reg.WCH_STATUS_MAIN_REQ = 0 ∧ d.out = [.status req 0]) ∧
    (s.dev.mode ≠ .off → Ends (.vbatLow t) s fun d => d.rd Reg.WCH_STATUS_VBAT_LOW = 1 ∧ s.dev.OnlyWrites d [0x40000]) ∧
    (s.dev.mode = .watch → s.dev.toneOn port = true → Ends (.toneDetect t port) s fun d => bitAt (d.rd Reg.WCH_TONE_TONE (port / 32)) (port % 32) = true) ∧
    (s.dev.mode = .watch ∨ s.dev.mainOn = true → s.dev.wch.daily ≠ some inst →
      (s.dev.ownAt t < s.dev.wch.busy → Ends (.daily t adc pins t30 t31) s fun d =>
        d.rd Reg.WCH_DAILY_CNT_SKIPPED = min (s.dev.rd Reg.WCH_DAILY_CNT_SKIPPED + 1) 255 ∧ d.wch.daily = some inst ∧ s.dev.OnlyWrites d [0x40034]) ∧
      (s.dev.wch.busy ≤ s.dev.ownAt t → Ends (.daily t adc pins t30 t31) s fun d => d.rd Reg.WCH_DAILY_CNT_RUNS = min (s.dev.rd Reg.WCH_DAILY_CNT_RUNS + 1) (2 ^ 24 - 1) ∧ d.wch.daily = some inst ∧
        (bitAt (s.dev.rd Reg.WCH_ADC_CFG_ADC_EN) ch = true → (∀ z ∈ conv, z < 4096) → d.rd Reg.WCH_ADC_RAW ch = mean.toNat ∧
          (s.dev.wch.y.find ch = none → d.rd Reg.WCH_ADC_FILT ch = mean.toNat) ∧
          (s.dev.wch.y.find ch = some y → d.rd Reg.WCH_ADC_FILT ch = (clampS 13 (rhu (y + rhu (256 * mean - y) (2 ^ s.dev.rd Reg.WCH_ADC_CFG_SHIFT)) 256)).toNat)))) ∧
    (s.dev.mode = .watch → 60 < s.dev.dailyInt → s.dev.wch.corrAt + 60000000000 ≤ s.dev.ownAt t → Ends (.rtcCompensation t t30 t31) s fun d =>
      d.wch.corr = Config.rtcCorrection (rhu (t30 + t31) 2) ∧ d.wch.corrAt = s.dev.ownAt t ∧ s.dev.OnlyWrites d []) ∧
    (s.dev.mainOn = true → s.dev.rd Reg.TB_STATUS_TIME_VALID = 1 → (∀ a, s.dev.wch.rtcSet = some a → a + 1000000000 ≤ s.dev.ownAt t) → Ends (.rtcUpdate t) s fun d =>
      d.wch.rtc = s.dev.nowAt t ∧ d.wch.rtcAt = s.dev.ownAt t ∧ d.wch.rtcSet = some (s.dev.ownAt t) ∧ d.rd Reg.WCH_STATUS_RTC_VALID = 1 ∧ s.dev.OnlyWrites d [0x40000]) ∧
    (s.dev.mainOn = true →
      let holds (i : JtagIns) (d : Dev) : Prop := d.jtag.ins = i ∧ (∃ n, d.out = [.jtag n]) ∧ s.dev.OnlyWrites d []
      Ends (.bypass t) s (fun d => holds .bypass d ∧ d.out = [.jtag 0]) ∧ Ends (.idcode t) s (fun d => holds .idcode d ∧ d.out = [.jtag Config.idcode.toNat]) ∧
      Ends (.samplePreload t) s (holds .sample) ∧
      (dbg = true ∧ s.dev.mode = .dark → Ends (.extest t dbg) s (holds .extest) ∧ Ends (.clamp t dbg) s (fun d => holds .clamp d ∧ d.out = [.jtag 0]) ∧ Ends (.intest t dbg) s (holds .intest)) ∧
      (dbg = false ∨ s.dev.mode ≠ .dark → Ends (.extest t dbg) s (holds .bypass) ∧ Ends (.clamp t dbg) s (holds .bypass) ∧ Ends (.intest t dbg) s (holds .bypass)))

/-! ### Chapter 19: the store and the tag -/

/-- Programs of two pages that verify, on pages below 99,999 erases, write the oldest waiting record with the next generation, both copies good; an epoch reservation then shows in SIN_EPOCH. The oldest record of the black-box buffer becomes the newest of the black box. A page of the learned-value store that fails with no spare left makes the store read-only. The background read leaves every record of which a copy survives readable in both copies with its body, asks for a rewrite where a sector needed 4 or more corrections, and drops a record without a survivor or an older generation. A write of PST_BB_SEL selects by number and shows 0, 1 for none, 2 for no surviving copy (R480 to R485). (spec/19_watch_store_tag.md) -/
def Obligations.StoreWritesScrubsAndSelects : Prop :=
  ∀ (s : State) (t req kind key : Nat) (a b : NvProg) (w : PstWrite) (rest : List PstWrite) (r : BbRec) (more : List BbRec) (n : NvRec) (found : List (Nat × Nat)) (v : Word),
    let p := s.dev.pst
    let good (x : NvProg) : Prop := x.fail = false ∧ (x.erase = true → (p.pages.get x.page {}).cycles < 99999)
    let most (page : Nat) : Nat := maxN ((found.filter fun x => x.1 == page).map fun x => x.2) 0
    (s.dev.mainOn = true →
      (p.writes = w :: rest → good a → good b → Ends (.recordWriteDone t false a b) s fun d => d.pst.writes = rest ∧
        (∃ x, d.pst.find w.kind w.key = some x ∧ x.body = w.body ∧ x.gen = (match p.find w.kind w.key with | some o => o.gen + 1 | none => 1) ∧ x.ok0 = true ∧ x.ok1 = true ∧
          x.page0 = a.page ∧ x.page1 = b.page ∧ x.time = s.dev.nowAt t) ∧ (w.kind = 7 → d.rd Reg.SIN_EPOCH_RES_H = le w.body 0 4)) ∧
      (p.bbBuf = r :: more → p.bbPagesGone < 8192 → good a → good b → Ends (.recordWriteDone t true a b) s fun d =>
        (∃ new, d.pst.bbBuf = more ++ new) ∧ d.pst.bb.getLast? = some { r with page0 := a.page, page1 := b.page }) ∧
      (p.writes = w :: rest → nvRegion w.kind = 3 → a.fail = true → a.erase = false → p.sparesLeft 3 = 0 → Ends (.recordWriteDone t false a b) s fun d =>
        d.pst.learnRo = true ∧ (p.learnRo = false → d.rd Reg.PST_STATUS_LEARN_RO = 1)) ∧
      (p.find kind key = some n →
        (n.ok0 = true ∧ most n.page0 ≤ 8 ∨ n.ok1 = true ∧ most n.page1 ≤ 8 → Ends (.pstScrub t found) s fun d =>
          (∃ x, d.pst.find kind key = some x ∧ x.body = n.body ∧ x.gen = n.gen ∧ x.ok0 = true ∧ x.ok1 = true) ∧
          (4 ≤ most n.page0 ∨ 4 ≤ most n.page1 → (p.learnRo = true → nvRegion kind ≠ 3) → ∃ x ∈ d.pst.writes, x.kind = kind ∧ x.key = key)) ∧
        ((n.ok0 = false ∨ 8 < most n.page0) → (n.ok1 = false ∨ 8 < most n.page1) → n.prev = none → Ends (.pstScrub t found) s fun d => d.pst.find kind key = none))) ∧
    (s.dev.Takes req → Ends (.pstBbSel t req v) s fun d => d.rd Reg.PST_BB_SEL_SEQ = v.toNat ∧ d.out = [.status req 0] ∧
      d.rd Reg.PST_BB_SEL_STAT_STAT = (match p.bb.find? fun x => x.seq == v.toNat with | none => 1 | some x => if x.ok0 || x.ok1 then 0 else 2))

/-- A read the tag hears answers the blocks' committed bytes, or error 0x10 beyond 64 blocks or the memory. A write to page 30 or 31 replaces its block at once and opens the write sequence; to any other page it is answered 0x12 and changes no page. Inventory answers the identity, Stay Quiet and Select set the state, an unknown command is answered 0x01. A lost field ends the sequence and the states; 10 s without a command ends the sequence. A due commit replaces the page with a new generation; one that finds its page busy for 25 ms fails, the host's with status 1, and the device's waits a second more. A refresh rewrites pages 0 to 20 in their shadows. A host commit waits, or shows 3, 2 or 4 where it may not (R486 to R490). (spec/19_watch_store_tag.md) -/
def Obligations.TagAnswersAndCommits : Prop :=
  ∀ (s : State) (t req cmd block n mask len at_ : Nat) (uid : Option Nat) (sel host : Bool) (page : Fin 32) (data : List Byte) (v : Word),
    let g := s.dev.pst.tag
    let blk := if cmd = 0x20 ∨ cmd = 0x23 ∨ cmd = 0x21 then block % 256 else block % 65536
    let cnt := if cmd = 0x20 ∨ cmd = 0x30 then 1 else n
    let heard (d : Dev) : Prop := d.pst.tag.field = true ∧ d.pst.tag.lastRf = s.dev.ownAt t ∧ d.rd Reg.PST_STATUS_TAG_FIELD = 1
    let same (d : Dev) : Prop := ∀ q, d.pst.tag.page q = g.page q
    let me := Config.tagUid.toNat
    let pg := v.toNat % 32
    (cmd = 0x20 ∨ cmd = 0x23 ∨ cmd = 0x30 ∨ cmd = 0x33 →
      (g.listens uid sel = true → Ends (.tagRfRead t cmd uid sel block n) s fun d => heard d ∧ same d ∧
        d.out = [.tag (if 64 < cnt ∨ 4096 < blk + cnt then [0x01, 0x10] else 0x00 :: g.blocks blk cnt)]) ∧
      (g.listens uid sel = false → Ends (.tagRfRead t cmd uid sel block n) s fun d => heard d ∧ same d ∧ d.out = [])) ∧
    (cmd = 0x21 ∨ cmd = 0x31 → g.listens uid sel = true →
      (blk / 128 = 30 ∨ blk / 128 = 31 → Ends (.tagRfWrite t cmd uid sel block data) s fun d => heard d ∧ d.out = [.tag [0x00]] ∧ d.pst.tag.rfOpen = true ∧ d.rd Reg.PST_STATUS_TAG_RFW = 1 ∧
        d.pst.tag.page (blk / 128) = putBytes (g.page (blk / 128)) (4 * (blk % 128)) (padTo data 4) ∧ ∀ q, q ≠ blk / 128 → d.pst.tag.page q = g.page q) ∧
      (blk / 128 ≠ 30 → blk / 128 ≠ 31 → Ends (.tagRfWrite t cmd uid sel block data) s fun d => heard d ∧ same d ∧ d.out = [.tag [0x01, 0x12]] ∧ d.pst.tag.rfOpen = g.rfOpen)) ∧
    (g.quietSt = false → bitsOf me 0 len = mask → Ends (.tagRfCommand t 0x01 uid sel len mask) s fun d => heard d ∧ same d ∧ d.out = [.tag ([0x00, 0x00] ++ toLe me 8)]) ∧
    Ends (.tagRfCommand t 0x02 (some me) sel len mask) s (fun d => heard d ∧ d.out = [] ∧ d.pst.tag.quietSt = true ∧ d.pst.tag.selected = false) ∧
    Ends (.tagRfCommand t 0x25 (some me) sel len mask) s (fun d => heard d ∧ d.out = [.tag [0x00]] ∧ d.pst.tag.quietSt = false ∧ d.pst.tag.selected = true) ∧
    (cmd ∉ [0x01, 0x02, 0x25, 0x26, 0x2B, 0x3B] → g.listens uid sel = true → Ends (.tagRfCommand t cmd uid sel len mask) s fun d => heard d ∧ same d ∧ d.out = [.tag [0x01, 0x01]]) ∧
    Ends (.tagFieldLoss t) s (fun d => d.pst.tag.field = false ∧ d.pst.tag.quietSt = false ∧ d.pst.tag.selected = false ∧ d.pst.tag.rfOpen = false ∧ d.rd Reg.PST_STATUS_TAG_FIELD = 0 ∧ same d) ∧
    (g.rfOpen = true → g.lastRf + 10000000000 ≤ s.dev.ownAt t → Ends (.tagRfIdle t) s fun d => d.pst.tag.rfOpen = false ∧ d.rd Reg.PST_STATUS_TAG_RFW = 0 ∧ same d) ∧
    (g.pend.find page = some (at_, host) → at_ ≤ s.dev.ownAt t →
      (Ends (.tagCommit t page false) s fun d => d.pst.tag.pend.find page = none ∧ d.pst.tag.gens.get page 0 = g.gens.get page 0 + 1 ∧
        d.pst.tag.page page = (if page.val < 2 then g.shade page else if page.val ≤ 29 then withHeader page (g.gens.get page 0 + 1) ((begin_ t s.dev).tagSec page) (g.shade page)
          else (g.page page).take 16 ++ (g.shade page).drop 16) ∧ (∀ q, q ≠ page.val → d.pst.tag.page q = g.page q) ∧ (host = true → d.rd Reg.PST_TAG_STAT_STATUS = 0 ∧ d.rd Reg.PST_TAG_STAT_PENDING = 0)) ∧
      (at_ + 25000000 ≤ s.dev.ownAt t → Ends (.tagCommit t page true) s fun d => same d ∧
        (host = true → d.pst.tag.pend.find page = none ∧ d.rd Reg.PST_TAG_STAT_STATUS = 1 ∧ d.rd Reg.PST_TAG_STAT_PENDING = 0) ∧
        (host = false → d.pst.tag.pend.find page = some (s.dev.ownAt t + 1000000000, false)))) ∧
    (s.dev.mainOn = true → g.dirty = true ∨ g.lastRefresh + max (s.dev.rd Reg.PST_TAG_CTRL_PERIOD) 1 * 1000000000 ≤ s.dev.ownAt t → Ends (.tagRefresh t) s fun d =>
      d.pst.tag.dirty = false ∧ d.pst.tag.lastRefresh = s.dev.ownAt t ∧ same d ∧ ∀ q, q < 21 → d.pst.tag.pend.find q = some (s.dev.ownAt t, false) ∧ d.pst.tag.shade q = (begin_ t s.dev).tagBody q) ∧
    (s.dev.Takes req → Ends (.pstTagCommit t req v) s fun d => d.rd Reg.PST_TAG_CTRL_PAGE = pg ∧ same d ∧ d.out = [.status req 0] ∧
      (s.dev.rd Reg.PST_TAG_STAT_PENDING = 1 → d.rd Reg.PST_TAG_STAT_STATUS = 4) ∧
      (s.dev.rd Reg.PST_TAG_STAT_PENDING = 0 → (pg ≤ 20 → d.rd Reg.PST_TAG_STAT_STATUS = 3) ∧ (30 ≤ pg → g.rfOpen = true → d.rd Reg.PST_TAG_STAT_STATUS = 2) ∧
        (20 < pg → (pg < 30 ∨ g.rfOpen = false) → d.pst.tag.pend.find pg = some (s.dev.ownAt t, true) ∧ d.rd Reg.PST_TAG_STAT_PENDING = 1)))

/-! ### Chapter 6: the cycle boundary -/

/-- With no timebase step pending: a boundary already dealt with does nothing. Outside QUIET, RUN and WRAP a boundary is dealt with and nothing is sent. The boundary after the one that sent the withdrawing PERMIT of an immediate shutdown ends in HALT with every trip output low. In QUIET, with no cut-over armed and no switch scheduled, a single device sends into each enabled rotation of each ring that it originates the CYC set with the low octet of the cycle number, and the cycle's LEASE sets (R112, R117, R149, R468). (spec/05_nusal_links.md, spec/06_timebase_slate.md, spec/18_power_thermal_wrap.md) -/
def Obligations.CycleBoundaryActsOnce : Prop :=
  ∀ (s : State) (t c last : Nat) (ring : Fin 64) (rot : Fin 2),
    let k := cycleOf (s.dev.nowAt t)
    s.dev.tb.step = none →
    (s.dev.lnk.done = some k → Ends (.cycleBoundary t) s fun d => d.out = [] ∧ d.lnk = s.dev.lnk ∧ d.qf = s.dev.qf ∧ d.mode = s.dev.mode ∧ s.dev.OnlyWrites d []) ∧
    (s.dev.lnk.done ≠ some k →
      (s.dev.plant = false → Ends (.cycleBoundary t) s fun d => d.lnk.done = some k ∧ d.out = [] ∧ d.mode = s.dev.mode) ∧
      (s.dev.plant = true → s.dev.gaf.immediate = some (c, 1, last) → last < k →
        Ends (.cycleBoundary t) s fun d => d.mode = .halt ∧ d.pins.tripH = 0 ∧ d.pins.tripP = 0 ∧ d.pins.faultN = false) ∧
      (s.dev.mode = .quiet → s.dev.solo = true → s.dev.gaf.immediate = none → s.dev.gaf.wrap = none → s.dev.img.cut = none → s.dev.sin.switchK = none →
        ring.val ∈ s.dev.rl.rings → (s.dev.lr ring).orig = true → s.dev.rd Reg.LNK_PORT_CTRL_ENABLE (2 * ring + rot) = 1 →
        Ends (.cycleBoundary t) s fun d => d.mode = .quiet ∧ d.lnk.done = some k ∧
          .oset ring rot 0 [BitVec.ofNat 8 k, BitVec.ofNat 8 rot] ∈ d.out ∧ .oset ring rot 1 [] ∈ d.out))
end

