-- ==== Sys2Proof/Laws/Bits.lean ====
section
/-!
SUPPORT. Laws/Bits.lean: fields of words: reading back what was written, and fields that do not overlap.
-/
namespace Sys2Proof.Machine

theorem bitsOf_lt (x lo w : Nat) : bitsOf x lo w < 2 ^ w := Nat.mod_lt _ (Nat.two_pow_pos w)

theorem bitsOf_mod (x lo w n : Nat) (h : lo + w ≤ n) : bitsOf (x % 2 ^ n) lo w = bitsOf x lo w := by
  unfold bitsOf
  apply Nat.eq_of_testBit_eq
  intro i
  simp only [Nat.testBit_mod_two_pow, Nat.testBit_div_two_pow]
  by_cases hi : i < w
  · have : i + lo < n := by omega
    simp [hi, this]
  · simp [hi]

/-- The number that `putField` makes, bit by bit. -/
theorem testBit_put (x lo w v i : Nat) :
    (x - bitsOf x lo w * 2 ^ lo + v % 2 ^ w * 2 ^ lo).testBit i = if lo ≤ i ∧ i < lo + w then v.testBit (i - lo) else x.testBit i := by
  have hx : x = 2 ^ (lo + w) * (x / 2 ^ (lo + w)) + (2 ^ lo * (x / 2 ^ lo % 2 ^ w) + x % 2 ^ lo) := by
    have h1 := Nat.div_add_mod x (2 ^ lo)
    have h2 := Nat.div_add_mod (x / 2 ^ lo) (2 ^ w)
    have h3 : x / 2 ^ lo / 2 ^ w = x / 2 ^ (lo + w) := by rw [Nat.div_div_eq_div_mul, ← Nat.pow_add]
    rw [h3] at h2
    calc x = 2 ^ lo * (x / 2 ^ lo) + x % 2 ^ lo := h1.symm
      _ = 2 ^ lo * (2 ^ w * (x / 2 ^ (lo + w)) + x / 2 ^ lo % 2 ^ w) + x % 2 ^ lo := by rw [h2]
      _ = _ := by rw [Nat.mul_add, ← Nat.mul_assoc, ← Nat.pow_add, Nat.add_assoc]
  have he : x - bitsOf x lo w * 2 ^ lo + v % 2 ^ w * 2 ^ lo = 2 ^ (lo + w) * (x / 2 ^ (lo + w)) + (2 ^ lo * (v % 2 ^ w) + x % 2 ^ lo) := by
    unfold bitsOf
    have e1 : x / 2 ^ lo % 2 ^ w * 2 ^ lo = 2 ^ lo * (x / 2 ^ lo % 2 ^ w) := Nat.mul_comm _ _
    have e2 : v % 2 ^ w * 2 ^ lo = 2 ^ lo * (v % 2 ^ w) := Nat.mul_comm _ _
    rw [e1, e2]
    omega
  have hr : x % 2 ^ lo < 2 ^ lo := Nat.mod_lt _ (Nat.two_pow_pos lo)
  have hb : ∀ y, y < 2 ^ w → 2 ^ lo * y + x % 2 ^ lo < 2 ^ (lo + w) := by
    intro y hy
    rw [Nat.pow_add]
    calc 2 ^ lo * y + x % 2 ^ lo < 2 ^ lo * y + 2 ^ lo := by omega
      _ = 2 ^ lo * (y + 1) := by ring
      _ ≤ 2 ^ lo * 2 ^ w := Nat.mul_le_mul_left _ hy
  rw [he, Nat.testBit_two_pow_mul_add _ (hb _ (Nat.mod_lt _ (Nat.two_pow_pos w))), Nat.testBit_two_pow_mul_add _ hr]
  by_cases h1 : i < lo + w
  · by_cases h2 : i < lo
    · have : ¬ (lo ≤ i) := by omega
      simp [h1, h2, this, Nat.testBit_mod_two_pow]
    · have h3 : lo ≤ i := by omega
      have h4 : i - lo < w := by omega
      simp [h1, h2, h3, h4, Nat.testBit_mod_two_pow]
  · have h3 : lo + w ≤ i := by omega
    simp [h1, Nat.testBit_div_two_pow, Nat.sub_add_cancel h3]

theorem toNat_putField (w : Word) (lo width v : Nat) (h : lo + width ≤ 32) :
    (putField w lo width v).toNat = w.toNat - bitsOf w.toNat lo width * 2 ^ lo + v % 2 ^ width * 2 ^ lo := by
  unfold putField
  rw [BitVec.toNat_ofNat]
  apply Nat.mod_eq_of_lt
  apply Nat.lt_pow_two_of_testBit
  intro i hi
  rw [testBit_put]
  have : ¬ (lo ≤ i ∧ i < lo + width) := by omega
  rw [if_neg this]
  exact Nat.testBit_lt_two_pow (Nat.lt_of_lt_of_le w.isLt (Nat.pow_le_pow_right (by decide) hi))

/-- A field reads back as what was written. -/
theorem bitsOf_putField_self (w : Word) (lo width v : Nat) (h : lo + width ≤ 32) : bitsOf (putField w lo width v).toNat lo width = v % 2 ^ width := by
  rw [toNat_putField w lo width v h]
  apply Nat.eq_of_testBit_eq
  intro i
  unfold bitsOf
  simp only [Nat.testBit_mod_two_pow, Nat.testBit_div_two_pow]
  have := testBit_put w.toNat lo width v (i + lo)
  unfold bitsOf at this
  rw [this]
  by_cases hi : i < width
  · have : i + lo < lo + width := by omega
    simp [hi, this]
  · simp [hi]

/-- Writing a field leaves every field of the word that does not overlap it. -/
theorem bitsOf_putField_disjoint (w : Word) (lo width v lo' width' : Nat) (h : lo + width ≤ 32) (hd : lo' + width' ≤ lo ∨ lo + width ≤ lo') :
    bitsOf (putField w lo width v).toNat lo' width' = bitsOf w.toNat lo' width' := by
  rw [toNat_putField w lo width v h]
  apply Nat.eq_of_testBit_eq
  intro i
  have := testBit_put w.toNat lo width v (i + lo')
  unfold bitsOf at this ⊢
  simp only [Nat.testBit_mod_two_pow, Nat.testBit_div_two_pow]
  rw [this]
  by_cases hi : i < width'
  · have : ¬ (lo ≤ i + lo' ∧ i + lo' < lo + width) := by omega
    simp [hi, this]
  · simp [hi]

end Sys2Proof.Machine
end

