-- ==== Sys2Proof/Laws/State.lean ====
section
/-!
SUPPORT. Laws/State.lean: which parts of the device each primitive update leaves as they were, one lemma per part and update.
-/
namespace Sys2Proof.Machine


/-! ### A word, a field -/

@[simp] theorem Dev.setWord_mode (d : Dev) (off : Nat) (w : Word) : (d.setWord off w).mode = d.mode := rfl
@[simp] theorem Dev.setWord_stReq (d : Dev) (off : Nat) (w : Word) : (d.setWord off w).stReq = d.stReq := rfl
@[simp] theorem Dev.setWord_now (d : Dev) (off : Nat) (w : Word) : (d.setWord off w).now = d.now := rfl
@[simp] theorem Dev.setWord_own (d : Dev) (off : Nat) (w : Word) : (d.setWord off w).own = d.own := rfl
@[simp] theorem Dev.setWord_free (d : Dev) (off : Nat) (w : Word) : (d.setWord off w).free = d.free := rfl
@[simp] theorem Dev.setWord_evSeq (d : Dev) (off : Nat) (w : Word) : (d.setWord off w).evSeq = d.evSeq := rfl
@[simp] theorem Dev.setWord_hold (d : Dev) (off : Nat) (w : Word) : (d.setWord off w).hold = d.hold := rfl
@[simp] theorem Dev.setWord_out (d : Dev) (off : Nat) (w : Word) : (d.setWord off w).out = d.out := rfl
@[simp] theorem Dev.setWord_reqs (d : Dev) (off : Nat) (w : Word) : (d.setWord off w).reqs = d.reqs := rfl
@[simp] theorem Dev.setWord_reel (d : Dev) (off : Nat) (w : Word) : (d.setWord off w).reel = d.reel := rfl
@[simp] theorem Dev.setWord_qf (d : Dev) (off : Nat) (w : Word) : (d.setWord off w).qf = d.qf := rfl
@[simp] theorem Dev.setWord_img (d : Dev) (off : Nat) (w : Word) : (d.setWord off w).img = d.img := rfl
@[simp] theorem Dev.setWord_host (d : Dev) (off : Nat) (w : Word) : (d.setWord off w).host = d.host := rfl
@[simp] theorem Dev.setWord_lnk (d : Dev) (off : Nat) (w : Word) : (d.setWord off w).lnk = d.lnk := rfl
@[simp] theorem Dev.setWord_tb (d : Dev) (off : Nat) (w : Word) : (d.setWord off w).tb = d.tb := rfl
@[simp] theorem Dev.setWord_swp (d : Dev) (off : Nat) (w : Word) : (d.setWord off w).swp = d.swp := rfl
@[simp] theorem Dev.setWord_est (d : Dev) (off : Nat) (w : Word) : (d.setWord off w).est = d.est := rfl
@[simp] theorem Dev.setWord_lpe (d : Dev) (off : Nat) (w : Word) : (d.setWord off w).lpe = d.lpe := rfl
@[simp] theorem Dev.setWord_dsp (d : Dev) (off : Nat) (w : Word) : (d.setWord off w).dsp = d.dsp := rfl
@[simp] theorem Dev.setWord_trw (d : Dev) (off : Nat) (w : Word) : (d.setWord off w).trw = d.trw := rfl
@[simp] theorem Dev.setWord_trd (d : Dev) (off : Nat) (w : Word) : (d.setWord off w).trd = d.trd := rfl
@[simp] theorem Dev.setWord_sin (d : Dev) (off : Nat) (w : Word) : (d.setWord off w).sin = d.sin := rfl
@[simp] theorem Dev.setWord_net (d : Dev) (off : Nat) (w : Word) : (d.setWord off w).net = d.net := rfl
@[simp] theorem Dev.setWord_fld (d : Dev) (off : Nat) (w : Word) : (d.setWord off w).fld = d.fld := rfl
@[simp] theorem Dev.setWord_gaf (d : Dev) (off : Nat) (w : Word) : (d.setWord off w).gaf = d.gaf := rfl
@[simp] theorem Dev.setWord_wch (d : Dev) (off : Nat) (w : Word) : (d.setWord off w).wch = d.wch := rfl
@[simp] theorem Dev.setWord_pst (d : Dev) (off : Nat) (w : Word) : (d.setWord off w).pst = d.pst := rfl
@[simp] theorem Dev.setWord_jtag (d : Dev) (off : Nat) (w : Word) : (d.setWord off w).jtag = d.jtag := rfl
@[simp] theorem Dev.setWord_supply (d : Dev) (off : Nat) (w : Word) : (d.setWord off w).supply = d.supply := rfl
@[simp] theorem Dev.setWord_pins (d : Dev) (off : Nat) (w : Word) : (d.setWord off w).pins = d.pins := rfl
@[simp] theorem Dev.wr_mode (d : Dev) (f : Field) (v i j : Nat) : (d.wr f v i j).mode = d.mode := rfl
@[simp] theorem Dev.wr_stReq (d : Dev) (f : Field) (v i j : Nat) : (d.wr f v i j).stReq = d.stReq := rfl
@[simp] theorem Dev.wr_now (d : Dev) (f : Field) (v i j : Nat) : (d.wr f v i j).now = d.now := rfl
@[simp] theorem Dev.wr_own (d : Dev) (f : Field) (v i j : Nat) : (d.wr f v i j).own = d.own := rfl
@[simp] theorem Dev.wr_free (d : Dev) (f : Field) (v i j : Nat) : (d.wr f v i j).free = d.free := rfl
@[simp] theorem Dev.wr_evSeq (d : Dev) (f : Field) (v i j : Nat) : (d.wr f v i j).evSeq = d.evSeq := rfl
@[simp] theorem Dev.wr_hold (d : Dev) (f : Field) (v i j : Nat) : (d.wr f v i j).hold = d.hold := rfl
@[simp] theorem Dev.wr_out (d : Dev) (f : Field) (v i j : Nat) : (d.wr f v i j).out = d.out := rfl
@[simp] theorem Dev.wr_reqs (d : Dev) (f : Field) (v i j : Nat) : (d.wr f v i j).reqs = d.reqs := rfl
@[simp] theorem Dev.wr_reel (d : Dev) (f : Field) (v i j : Nat) : (d.wr f v i j).reel = d.reel := rfl
@[simp] theorem Dev.wr_qf (d : Dev) (f : Field) (v i j : Nat) : (d.wr f v i j).qf = d.qf := rfl
@[simp] theorem Dev.wr_img (d : Dev) (f : Field) (v i j : Nat) : (d.wr f v i j).img = d.img := rfl
@[simp] theorem Dev.wr_host (d : Dev) (f : Field) (v i j : Nat) : (d.wr f v i j).host = d.host := rfl
@[simp] theorem Dev.wr_lnk (d : Dev) (f : Field) (v i j : Nat) : (d.wr f v i j).lnk = d.lnk := rfl
@[simp] theorem Dev.wr_tb (d : Dev) (f : Field) (v i j : Nat) : (d.wr f v i j).tb = d.tb := rfl
@[simp] theorem Dev.wr_swp (d : Dev) (f : Field) (v i j : Nat) : (d.wr f v i j).swp = d.swp := rfl
@[simp] theorem Dev.wr_est (d : Dev) (f : Field) (v i j : Nat) : (d.wr f v i j).est = d.est := rfl
@[simp] theorem Dev.wr_lpe (d : Dev) (f : Field) (v i j : Nat) : (d.wr f v i j).lpe = d.lpe := rfl
@[simp] theorem Dev.wr_dsp (d : Dev) (f : Field) (v i j : Nat) : (d.wr f v i j).dsp = d.dsp := rfl
@[simp] theorem Dev.wr_trw (d : Dev) (f : Field) (v i j : Nat) : (d.wr f v i j).trw = d.trw := rfl
@[simp] theorem Dev.wr_trd (d : Dev) (f : Field) (v i j : Nat) : (d.wr f v i j).trd = d.trd := rfl
@[simp] theorem Dev.wr_sin (d : Dev) (f : Field) (v i j : Nat) : (d.wr f v i j).sin = d.sin := rfl
@[simp] theorem Dev.wr_net (d : Dev) (f : Field) (v i j : Nat) : (d.wr f v i j).net = d.net := rfl
@[simp] theorem Dev.wr_fld (d : Dev) (f : Field) (v i j : Nat) : (d.wr f v i j).fld = d.fld := rfl
@[simp] theorem Dev.wr_gaf (d : Dev) (f : Field) (v i j : Nat) : (d.wr f v i j).gaf = d.gaf := rfl
@[simp] theorem Dev.wr_wch (d : Dev) (f : Field) (v i j : Nat) : (d.wr f v i j).wch = d.wch := rfl
@[simp] theorem Dev.wr_pst (d : Dev) (f : Field) (v i j : Nat) : (d.wr f v i j).pst = d.pst := rfl
@[simp] theorem Dev.wr_jtag (d : Dev) (f : Field) (v i j : Nat) : (d.wr f v i j).jtag = d.jtag := rfl
@[simp] theorem Dev.wr_supply (d : Dev) (f : Field) (v i j : Nat) : (d.wr f v i j).supply = d.supply := rfl
@[simp] theorem Dev.wr_pins (d : Dev) (f : Field) (v i j : Nat) : (d.wr f v i j).pins = d.pins := rfl
@[simp] theorem Dev.wrI_mode (d : Dev) (f : Field) (v : Int) (i j : Nat) : (d.wrI f v i j).mode = d.mode := rfl
@[simp] theorem Dev.wrI_stReq (d : Dev) (f : Field) (v : Int) (i j : Nat) : (d.wrI f v i j).stReq = d.stReq := rfl
@[simp] theorem Dev.wrI_now (d : Dev) (f : Field) (v : Int) (i j : Nat) : (d.wrI f v i j).now = d.now := rfl
@[simp] theorem Dev.wrI_own (d : Dev) (f : Field) (v : Int) (i j : Nat) : (d.wrI f v i j).own = d.own := rfl
@[simp] theorem Dev.wrI_free (d : Dev) (f : Field) (v : Int) (i j : Nat) : (d.wrI f v i j).free = d.free := rfl
@[simp] theorem Dev.wrI_evSeq (d : Dev) (f : Field) (v : Int) (i j : Nat) : (d.wrI f v i j).evSeq = d.evSeq := rfl
@[simp] theorem Dev.wrI_hold (d : Dev) (f : Field) (v : Int) (i j : Nat) : (d.wrI f v i j).hold = d.hold := rfl
@[simp] theorem Dev.wrI_out (d : Dev) (f : Field) (v : Int) (i j : Nat) : (d.wrI f v i j).out = d.out := rfl
@[simp] theorem Dev.wrI_reqs (d : Dev) (f : Field) (v : Int) (i j : Nat) : (d.wrI f v i j).reqs = d.reqs := rfl
@[simp] theorem Dev.wrI_reel (d : Dev) (f : Field) (v : Int) (i j : Nat) : (d.wrI f v i j).reel = d.reel := rfl
@[simp] theorem Dev.wrI_qf (d : Dev) (f : Field) (v : Int) (i j : Nat) : (d.wrI f v i j).qf = d.qf := rfl
@[simp] theorem Dev.wrI_img (d : Dev) (f : Field) (v : Int) (i j : Nat) : (d.wrI f v i j).img = d.img := rfl
@[simp] theorem Dev.wrI_host (d : Dev) (f : Field) (v : Int) (i j : Nat) : (d.wrI f v i j).host = d.host := rfl
@[simp] theorem Dev.wrI_lnk (d : Dev) (f : Field) (v : Int) (i j : Nat) : (d.wrI f v i j).lnk = d.lnk := rfl
@[simp] theorem Dev.wrI_tb (d : Dev) (f : Field) (v : Int) (i j : Nat) : (d.wrI f v i j).tb = d.tb := rfl
@[simp] theorem Dev.wrI_swp (d : Dev) (f : Field) (v : Int) (i j : Nat) : (d.wrI f v i j).swp = d.swp := rfl
@[simp] theorem Dev.wrI_est (d : Dev) (f : Field) (v : Int) (i j : Nat) : (d.wrI f v i j).est = d.est := rfl
@[simp] theorem Dev.wrI_lpe (d : Dev) (f : Field) (v : Int) (i j : Nat) : (d.wrI f v i j).lpe = d.lpe := rfl
@[simp] theorem Dev.wrI_dsp (d : Dev) (f : Field) (v : Int) (i j : Nat) : (d.wrI f v i j).dsp = d.dsp := rfl
@[simp] theorem Dev.wrI_trw (d : Dev) (f : Field) (v : Int) (i j : Nat) : (d.wrI f v i j).trw = d.trw := rfl
@[simp] theorem Dev.wrI_trd (d : Dev) (f : Field) (v : Int) (i j : Nat) : (d.wrI f v i j).trd = d.trd := rfl
@[simp] theorem Dev.wrI_sin (d : Dev) (f : Field) (v : Int) (i j : Nat) : (d.wrI f v i j).sin = d.sin := rfl
@[simp] theorem Dev.wrI_net (d : Dev) (f : Field) (v : Int) (i j : Nat) : (d.wrI f v i j).net = d.net := rfl
@[simp] theorem Dev.wrI_fld (d : Dev) (f : Field) (v : Int) (i j : Nat) : (d.wrI f v i j).fld = d.fld := rfl
@[simp] theorem Dev.wrI_gaf (d : Dev) (f : Field) (v : Int) (i j : Nat) : (d.wrI f v i j).gaf = d.gaf := rfl
@[simp] theorem Dev.wrI_wch (d : Dev) (f : Field) (v : Int) (i j : Nat) : (d.wrI f v i j).wch = d.wch := rfl
@[simp] theorem Dev.wrI_pst (d : Dev) (f : Field) (v : Int) (i j : Nat) : (d.wrI f v i j).pst = d.pst := rfl
@[simp] theorem Dev.wrI_jtag (d : Dev) (f : Field) (v : Int) (i j : Nat) : (d.wrI f v i j).jtag = d.jtag := rfl
@[simp] theorem Dev.wrI_supply (d : Dev) (f : Field) (v : Int) (i j : Nat) : (d.wrI f v i j).supply = d.supply := rfl
@[simp] theorem Dev.wrI_pins (d : Dev) (f : Field) (v : Int) (i j : Nat) : (d.wrI f v i j).pins = d.pins := rfl
@[simp] theorem Dev.set1_mode (d : Dev) (f : Field) (i j : Nat) : (d.set1 f i j).mode = d.mode := rfl
@[simp] theorem Dev.set1_stReq (d : Dev) (f : Field) (i j : Nat) : (d.set1 f i j).stReq = d.stReq := rfl
@[simp] theorem Dev.set1_now (d : Dev) (f : Field) (i j : Nat) : (d.set1 f i j).now = d.now := rfl
@[simp] theorem Dev.set1_own (d : Dev) (f : Field) (i j : Nat) : (d.set1 f i j).own = d.own := rfl
@[simp] theorem Dev.set1_free (d : Dev) (f : Field) (i j : Nat) : (d.set1 f i j).free = d.free := rfl
@[simp] theorem Dev.set1_evSeq (d : Dev) (f : Field) (i j : Nat) : (d.set1 f i j).evSeq = d.evSeq := rfl
@[simp] theorem Dev.set1_hold (d : Dev) (f : Field) (i j : Nat) : (d.set1 f i j).hold = d.hold := rfl
@[simp] theorem Dev.set1_out (d : Dev) (f : Field) (i j : Nat) : (d.set1 f i j).out = d.out := rfl
@[simp] theorem Dev.set1_reqs (d : Dev) (f : Field) (i j : Nat) : (d.set1 f i j).reqs = d.reqs := rfl
@[simp] theorem Dev.set1_reel (d : Dev) (f : Field) (i j : Nat) : (d.set1 f i j).reel = d.reel := rfl
@[simp] theorem Dev.set1_qf (d : Dev) (f : Field) (i j : Nat) : (d.set1 f i j).qf = d.qf := rfl
@[simp] theorem Dev.set1_img (d : Dev) (f : Field) (i j : Nat) : (d.set1 f i j).img = d.img := rfl
@[simp] theorem Dev.set1_host (d : Dev) (f : Field) (i j : Nat) : (d.set1 f i j).host = d.host := rfl
@[simp] theorem Dev.set1_lnk (d : Dev) (f : Field) (i j : Nat) : (d.set1 f i j).lnk = d.lnk := rfl
@[simp] theorem Dev.set1_tb (d : Dev) (f : Field) (i j : Nat) : (d.set1 f i j).tb = d.tb := rfl
@[simp] theorem Dev.set1_swp (d : Dev) (f : Field) (i j : Nat) : (d.set1 f i j).swp = d.swp := rfl
@[simp] theorem Dev.set1_est (d : Dev) (f : Field) (i j : Nat) : (d.set1 f i j).est = d.est := rfl
@[simp] theorem Dev.set1_lpe (d : Dev) (f : Field) (i j : Nat) : (d.set1 f i j).lpe = d.lpe := rfl
@[simp] theorem Dev.set1_dsp (d : Dev) (f : Field) (i j : Nat) : (d.set1 f i j).dsp = d.dsp := rfl
@[simp] theorem Dev.set1_trw (d : Dev) (f : Field) (i j : Nat) : (d.set1 f i j).trw = d.trw := rfl
@[simp] theorem Dev.set1_trd (d : Dev) (f : Field) (i j : Nat) : (d.set1 f i j).trd = d.trd := rfl
@[simp] theorem Dev.set1_sin (d : Dev) (f : Field) (i j : Nat) : (d.set1 f i j).sin = d.sin := rfl
@[simp] theorem Dev.set1_net (d : Dev) (f : Field) (i j : Nat) : (d.set1 f i j).net = d.net := rfl
@[simp] theorem Dev.set1_fld (d : Dev) (f : Field) (i j : Nat) : (d.set1 f i j).fld = d.fld := rfl
@[simp] theorem Dev.set1_gaf (d : Dev) (f : Field) (i j : Nat) : (d.set1 f i j).gaf = d.gaf := rfl
@[simp] theorem Dev.set1_wch (d : Dev) (f : Field) (i j : Nat) : (d.set1 f i j).wch = d.wch := rfl
@[simp] theorem Dev.set1_pst (d : Dev) (f : Field) (i j : Nat) : (d.set1 f i j).pst = d.pst := rfl
@[simp] theorem Dev.set1_jtag (d : Dev) (f : Field) (i j : Nat) : (d.set1 f i j).jtag = d.jtag := rfl
@[simp] theorem Dev.set1_supply (d : Dev) (f : Field) (i j : Nat) : (d.set1 f i j).supply = d.supply := rfl
@[simp] theorem Dev.set1_pins (d : Dev) (f : Field) (i j : Nat) : (d.set1 f i j).pins = d.pins := rfl
@[simp] theorem Dev.clr_mode (d : Dev) (f : Field) (i j : Nat) : (d.clr f i j).mode = d.mode := rfl
@[simp] theorem Dev.clr_stReq (d : Dev) (f : Field) (i j : Nat) : (d.clr f i j).stReq = d.stReq := rfl
@[simp] theorem Dev.clr_now (d : Dev) (f : Field) (i j : Nat) : (d.clr f i j).now = d.now := rfl
@[simp] theorem Dev.clr_own (d : Dev) (f : Field) (i j : Nat) : (d.clr f i j).own = d.own := rfl
@[simp] theorem Dev.clr_free (d : Dev) (f : Field) (i j : Nat) : (d.clr f i j).free = d.free := rfl
@[simp] theorem Dev.clr_evSeq (d : Dev) (f : Field) (i j : Nat) : (d.clr f i j).evSeq = d.evSeq := rfl
@[simp] theorem Dev.clr_hold (d : Dev) (f : Field) (i j : Nat) : (d.clr f i j).hold = d.hold := rfl
@[simp] theorem Dev.clr_out (d : Dev) (f : Field) (i j : Nat) : (d.clr f i j).out = d.out := rfl
@[simp] theorem Dev.clr_reqs (d : Dev) (f : Field) (i j : Nat) : (d.clr f i j).reqs = d.reqs := rfl
@[simp] theorem Dev.clr_reel (d : Dev) (f : Field) (i j : Nat) : (d.clr f i j).reel = d.reel := rfl
@[simp] theorem Dev.clr_qf (d : Dev) (f : Field) (i j : Nat) : (d.clr f i j).qf = d.qf := rfl
@[simp] theorem Dev.clr_img (d : Dev) (f : Field) (i j : Nat) : (d.clr f i j).img = d.img := rfl
@[simp] theorem Dev.clr_host (d : Dev) (f : Field) (i j : Nat) : (d.clr f i j).host = d.host := rfl
@[simp] theorem Dev.clr_lnk (d : Dev) (f : Field) (i j : Nat) : (d.clr f i j).lnk = d.lnk := rfl
@[simp] theorem Dev.clr_tb (d : Dev) (f : Field) (i j : Nat) : (d.clr f i j).tb = d.tb := rfl
@[simp] theorem Dev.clr_swp (d : Dev) (f : Field) (i j : Nat) : (d.clr f i j).swp = d.swp := rfl
@[simp] theorem Dev.clr_est (d : Dev) (f : Field) (i j : Nat) : (d.clr f i j).est = d.est := rfl
@[simp] theorem Dev.clr_lpe (d : Dev) (f : Field) (i j : Nat) : (d.clr f i j).lpe = d.lpe := rfl
@[simp] theorem Dev.clr_dsp (d : Dev) (f : Field) (i j : Nat) : (d.clr f i j).dsp = d.dsp := rfl
@[simp] theorem Dev.clr_trw (d : Dev) (f : Field) (i j : Nat) : (d.clr f i j).trw = d.trw := rfl
@[simp] theorem Dev.clr_trd (d : Dev) (f : Field) (i j : Nat) : (d.clr f i j).trd = d.trd := rfl
@[simp] theorem Dev.clr_sin (d : Dev) (f : Field) (i j : Nat) : (d.clr f i j).sin = d.sin := rfl
@[simp] theorem Dev.clr_net (d : Dev) (f : Field) (i j : Nat) : (d.clr f i j).net = d.net := rfl
@[simp] theorem Dev.clr_fld (d : Dev) (f : Field) (i j : Nat) : (d.clr f i j).fld = d.fld := rfl
@[simp] theorem Dev.clr_gaf (d : Dev) (f : Field) (i j : Nat) : (d.clr f i j).gaf = d.gaf := rfl
@[simp] theorem Dev.clr_wch (d : Dev) (f : Field) (i j : Nat) : (d.clr f i j).wch = d.wch := rfl
@[simp] theorem Dev.clr_pst (d : Dev) (f : Field) (i j : Nat) : (d.clr f i j).pst = d.pst := rfl
@[simp] theorem Dev.clr_jtag (d : Dev) (f : Field) (i j : Nat) : (d.clr f i j).jtag = d.jtag := rfl
@[simp] theorem Dev.clr_supply (d : Dev) (f : Field) (i j : Nat) : (d.clr f i j).supply = d.supply := rfl
@[simp] theorem Dev.clr_pins (d : Dev) (f : Field) (i j : Nat) : (d.clr f i j).pins = d.pins := rfl
@[simp] theorem Dev.bump_mode (d : Dev) (f : Field) (n i j : Nat) : (d.bump f n i j).mode = d.mode := rfl
@[simp] theorem Dev.bump_stReq (d : Dev) (f : Field) (n i j : Nat) : (d.bump f n i j).stReq = d.stReq := rfl
@[simp] theorem Dev.bump_now (d : Dev) (f : Field) (n i j : Nat) : (d.bump f n i j).now = d.now := rfl
@[simp] theorem Dev.bump_own (d : Dev) (f : Field) (n i j : Nat) : (d.bump f n i j).own = d.own := rfl
@[simp] theorem Dev.bump_free (d : Dev) (f : Field) (n i j : Nat) : (d.bump f n i j).free = d.free := rfl
@[simp] theorem Dev.bump_evSeq (d : Dev) (f : Field) (n i j : Nat) : (d.bump f n i j).evSeq = d.evSeq := rfl
@[simp] theorem Dev.bump_hold (d : Dev) (f : Field) (n i j : Nat) : (d.bump f n i j).hold = d.hold := rfl
@[simp] theorem Dev.bump_out (d : Dev) (f : Field) (n i j : Nat) : (d.bump f n i j).out = d.out := rfl
@[simp] theorem Dev.bump_reqs (d : Dev) (f : Field) (n i j : Nat) : (d.bump f n i j).reqs = d.reqs := rfl
@[simp] theorem Dev.bump_reel (d : Dev) (f : Field) (n i j : Nat) : (d.bump f n i j).reel = d.reel := rfl
@[simp] theorem Dev.bump_qf (d : Dev) (f : Field) (n i j : Nat) : (d.bump f n i j).qf = d.qf := rfl
@[simp] theorem Dev.bump_img (d : Dev) (f : Field) (n i j : Nat) : (d.bump f n i j).img = d.img := rfl
@[simp] theorem Dev.bump_host (d : Dev) (f : Field) (n i j : Nat) : (d.bump f n i j).host = d.host := rfl
@[simp] theorem Dev.bump_lnk (d : Dev) (f : Field) (n i j : Nat) : (d.bump f n i j).lnk = d.lnk := rfl
@[simp] theorem Dev.bump_tb (d : Dev) (f : Field) (n i j : Nat) : (d.bump f n i j).tb = d.tb := rfl
@[simp] theorem Dev.bump_swp (d : Dev) (f : Field) (n i j : Nat) : (d.bump f n i j).swp = d.swp := rfl
@[simp] theorem Dev.bump_est (d : Dev) (f : Field) (n i j : Nat) : (d.bump f n i j).est = d.est := rfl
@[simp] theorem Dev.bump_lpe (d : Dev) (f : Field) (n i j : Nat) : (d.bump f n i j).lpe = d.lpe := rfl
@[simp] theorem Dev.bump_dsp (d : Dev) (f : Field) (n i j : Nat) : (d.bump f n i j).dsp = d.dsp := rfl
@[simp] theorem Dev.bump_trw (d : Dev) (f : Field) (n i j : Nat) : (d.bump f n i j).trw = d.trw := rfl
@[simp] theorem Dev.bump_trd (d : Dev) (f : Field) (n i j : Nat) : (d.bump f n i j).trd = d.trd := rfl
@[simp] theorem Dev.bump_sin (d : Dev) (f : Field) (n i j : Nat) : (d.bump f n i j).sin = d.sin := rfl
@[simp] theorem Dev.bump_net (d : Dev) (f : Field) (n i j : Nat) : (d.bump f n i j).net = d.net := rfl
@[simp] theorem Dev.bump_fld (d : Dev) (f : Field) (n i j : Nat) : (d.bump f n i j).fld = d.fld := rfl
@[simp] theorem Dev.bump_gaf (d : Dev) (f : Field) (n i j : Nat) : (d.bump f n i j).gaf = d.gaf := rfl
@[simp] theorem Dev.bump_wch (d : Dev) (f : Field) (n i j : Nat) : (d.bump f n i j).wch = d.wch := rfl
@[simp] theorem Dev.bump_pst (d : Dev) (f : Field) (n i j : Nat) : (d.bump f n i j).pst = d.pst := rfl
@[simp] theorem Dev.bump_jtag (d : Dev) (f : Field) (n i j : Nat) : (d.bump f n i j).jtag = d.jtag := rfl
@[simp] theorem Dev.bump_supply (d : Dev) (f : Field) (n i j : Nat) : (d.bump f n i j).supply = d.supply := rfl
@[simp] theorem Dev.bump_pins (d : Dev) (f : Field) (n i j : Nat) : (d.bump f n i j).pins = d.pins := rfl
@[simp] theorem Dev.bumpMod_mode (d : Dev) (f : Field) (n i j : Nat) : (d.bumpMod f n i j).mode = d.mode := rfl
@[simp] theorem Dev.bumpMod_stReq (d : Dev) (f : Field) (n i j : Nat) : (d.bumpMod f n i j).stReq = d.stReq := rfl
@[simp] theorem Dev.bumpMod_now (d : Dev) (f : Field) (n i j : Nat) : (d.bumpMod f n i j).now = d.now := rfl
@[simp] theorem Dev.bumpMod_own (d : Dev) (f : Field) (n i j : Nat) : (d.bumpMod f n i j).own = d.own := rfl
@[simp] theorem Dev.bumpMod_free (d : Dev) (f : Field) (n i j : Nat) : (d.bumpMod f n i j).free = d.free := rfl
@[simp] theorem Dev.bumpMod_evSeq (d : Dev) (f : Field) (n i j : Nat) : (d.bumpMod f n i j).evSeq = d.evSeq := rfl
@[simp] theorem Dev.bumpMod_hold (d : Dev) (f : Field) (n i j : Nat) : (d.bumpMod f n i j).hold = d.hold := rfl
@[simp] theorem Dev.bumpMod_out (d : Dev) (f : Field) (n i j : Nat) : (d.bumpMod f n i j).out = d.out := rfl
@[simp] theorem Dev.bumpMod_reqs (d : Dev) (f : Field) (n i j : Nat) : (d.bumpMod f n i j).reqs = d.reqs := rfl
@[simp] theorem Dev.bumpMod_reel (d : Dev) (f : Field) (n i j : Nat) : (d.bumpMod f n i j).reel = d.reel := rfl
@[simp] theorem Dev.bumpMod_qf (d : Dev) (f : Field) (n i j : Nat) : (d.bumpMod f n i j).qf = d.qf := rfl
@[simp] theorem Dev.bumpMod_img (d : Dev) (f : Field) (n i j : Nat) : (d.bumpMod f n i j).img = d.img := rfl
@[simp] theorem Dev.bumpMod_host (d : Dev) (f : Field) (n i j : Nat) : (d.bumpMod f n i j).host = d.host := rfl
@[simp] theorem Dev.bumpMod_lnk (d : Dev) (f : Field) (n i j : Nat) : (d.bumpMod f n i j).lnk = d.lnk := rfl
@[simp] theorem Dev.bumpMod_tb (d : Dev) (f : Field) (n i j : Nat) : (d.bumpMod f n i j).tb = d.tb := rfl
@[simp] theorem Dev.bumpMod_swp (d : Dev) (f : Field) (n i j : Nat) : (d.bumpMod f n i j).swp = d.swp := rfl
@[simp] theorem Dev.bumpMod_est (d : Dev) (f : Field) (n i j : Nat) : (d.bumpMod f n i j).est = d.est := rfl
@[simp] theorem Dev.bumpMod_lpe (d : Dev) (f : Field) (n i j : Nat) : (d.bumpMod f n i j).lpe = d.lpe := rfl
@[simp] theorem Dev.bumpMod_dsp (d : Dev) (f : Field) (n i j : Nat) : (d.bumpMod f n i j).dsp = d.dsp := rfl
@[simp] theorem Dev.bumpMod_trw (d : Dev) (f : Field) (n i j : Nat) : (d.bumpMod f n i j).trw = d.trw := rfl
@[simp] theorem Dev.bumpMod_trd (d : Dev) (f : Field) (n i j : Nat) : (d.bumpMod f n i j).trd = d.trd := rfl
@[simp] theorem Dev.bumpMod_sin (d : Dev) (f : Field) (n i j : Nat) : (d.bumpMod f n i j).sin = d.sin := rfl
@[simp] theorem Dev.bumpMod_net (d : Dev) (f : Field) (n i j : Nat) : (d.bumpMod f n i j).net = d.net := rfl
@[simp] theorem Dev.bumpMod_fld (d : Dev) (f : Field) (n i j : Nat) : (d.bumpMod f n i j).fld = d.fld := rfl
@[simp] theorem Dev.bumpMod_gaf (d : Dev) (f : Field) (n i j : Nat) : (d.bumpMod f n i j).gaf = d.gaf := rfl
@[simp] theorem Dev.bumpMod_wch (d : Dev) (f : Field) (n i j : Nat) : (d.bumpMod f n i j).wch = d.wch := rfl
@[simp] theorem Dev.bumpMod_pst (d : Dev) (f : Field) (n i j : Nat) : (d.bumpMod f n i j).pst = d.pst := rfl
@[simp] theorem Dev.bumpMod_jtag (d : Dev) (f : Field) (n i j : Nat) : (d.bumpMod f n i j).jtag = d.jtag := rfl
@[simp] theorem Dev.bumpMod_supply (d : Dev) (f : Field) (n i j : Nat) : (d.bumpMod f n i j).supply = d.supply := rfl
@[simp] theorem Dev.bumpMod_pins (d : Dev) (f : Field) (n i j : Nat) : (d.bumpMod f n i j).pins = d.pins := rfl
@[simp] theorem Dev.wr2_mode (d : Dev) (lo hi : Field) (v i : Nat) : (d.wr2 lo hi v i).mode = d.mode := rfl
@[simp] theorem Dev.wr2_stReq (d : Dev) (lo hi : Field) (v i : Nat) : (d.wr2 lo hi v i).stReq = d.stReq := rfl
@[simp] theorem Dev.wr2_now (d : Dev) (lo hi : Field) (v i : Nat) : (d.wr2 lo hi v i).now = d.now := rfl
@[simp] theorem Dev.wr2_own (d : Dev) (lo hi : Field) (v i : Nat) : (d.wr2 lo hi v i).own = d.own := rfl
@[simp] theorem Dev.wr2_free (d : Dev) (lo hi : Field) (v i : Nat) : (d.wr2 lo hi v i).free = d.free := rfl
@[simp] theorem Dev.wr2_evSeq (d : Dev) (lo hi : Field) (v i : Nat) : (d.wr2 lo hi v i).evSeq = d.evSeq := rfl
@[simp] theorem Dev.wr2_hold (d : Dev) (lo hi : Field) (v i : Nat) : (d.wr2 lo hi v i).hold = d.hold := rfl
@[simp] theorem Dev.wr2_out (d : Dev) (lo hi : Field) (v i : Nat) : (d.wr2 lo hi v i).out = d.out := rfl
@[simp] theorem Dev.wr2_reqs (d : Dev) (lo hi : Field) (v i : Nat) : (d.wr2 lo hi v i).reqs = d.reqs := rfl
@[simp] theorem Dev.wr2_reel (d : Dev) (lo hi : Field) (v i : Nat) : (d.wr2 lo hi v i).reel = d.reel := rfl
@[simp] theorem Dev.wr2_qf (d : Dev) (lo hi : Field) (v i : Nat) : (d.wr2 lo hi v i).qf = d.qf := rfl
@[simp] theorem Dev.wr2_img (d : Dev) (lo hi : Field) (v i : Nat) : (d.wr2 lo hi v i).img = d.img := rfl
@[simp] theorem Dev.wr2_host (d : Dev) (lo hi : Field) (v i : Nat) : (d.wr2 lo hi v i).host = d.host := rfl
@[simp] theorem Dev.wr2_lnk (d : Dev) (lo hi : Field) (v i : Nat) : (d.wr2 lo hi v i).lnk = d.lnk := rfl
@[simp] theorem Dev.wr2_tb (d : Dev) (lo hi : Field) (v i : Nat) : (d.wr2 lo hi v i).tb = d.tb := rfl
@[simp] theorem Dev.wr2_swp (d : Dev) (lo hi : Field) (v i : Nat) : (d.wr2 lo hi v i).swp = d.swp := rfl
@[simp] theorem Dev.wr2_est (d : Dev) (lo hi : Field) (v i : Nat) : (d.wr2 lo hi v i).est = d.est := rfl
@[simp] theorem Dev.wr2_lpe (d : Dev) (lo hi : Field) (v i : Nat) : (d.wr2 lo hi v i).lpe = d.lpe := rfl
@[simp] theorem Dev.wr2_dsp (d : Dev) (lo hi : Field) (v i : Nat) : (d.wr2 lo hi v i).dsp = d.dsp := rfl
@[simp] theorem Dev.wr2_trw (d : Dev) (lo hi : Field) (v i : Nat) : (d.wr2 lo hi v i).trw = d.trw := rfl
@[simp] theorem Dev.wr2_trd (d : Dev) (lo hi : Field) (v i : Nat) : (d.wr2 lo hi v i).trd = d.trd := rfl
@[simp] theorem Dev.wr2_sin (d : Dev) (lo hi : Field) (v i : Nat) : (d.wr2 lo hi v i).sin = d.sin := rfl
@[simp] theorem Dev.wr2_net (d : Dev) (lo hi : Field) (v i : Nat) : (d.wr2 lo hi v i).net = d.net := rfl
@[simp] theorem Dev.wr2_fld (d : Dev) (lo hi : Field) (v i : Nat) : (d.wr2 lo hi v i).fld = d.fld := rfl
@[simp] theorem Dev.wr2_gaf (d : Dev) (lo hi : Field) (v i : Nat) : (d.wr2 lo hi v i).gaf = d.gaf := rfl
@[simp] theorem Dev.wr2_wch (d : Dev) (lo hi : Field) (v i : Nat) : (d.wr2 lo hi v i).wch = d.wch := rfl
@[simp] theorem Dev.wr2_pst (d : Dev) (lo hi : Field) (v i : Nat) : (d.wr2 lo hi v i).pst = d.pst := rfl
@[simp] theorem Dev.wr2_jtag (d : Dev) (lo hi : Field) (v i : Nat) : (d.wr2 lo hi v i).jtag = d.jtag := rfl
@[simp] theorem Dev.wr2_supply (d : Dev) (lo hi : Field) (v i : Nat) : (d.wr2 lo hi v i).supply = d.supply := rfl
@[simp] theorem Dev.wr2_pins (d : Dev) (lo hi : Field) (v i : Nat) : (d.wr2 lo hi v i).pins = d.pins := rfl

/-! ### Outputs, requests, state changes -/

@[simp] theorem Dev.emit_regs (d : Dev) (o : Out) : (d.emit o).regs = d.regs := rfl
@[simp] theorem Dev.emit_mode (d : Dev) (o : Out) : (d.emit o).mode = d.mode := rfl
@[simp] theorem Dev.emit_stReq (d : Dev) (o : Out) : (d.emit o).stReq = d.stReq := rfl
@[simp] theorem Dev.emit_now (d : Dev) (o : Out) : (d.emit o).now = d.now := rfl
@[simp] theorem Dev.emit_own (d : Dev) (o : Out) : (d.emit o).own = d.own := rfl
@[simp] theorem Dev.emit_free (d : Dev) (o : Out) : (d.emit o).free = d.free := rfl
@[simp] theorem Dev.emit_evSeq (d : Dev) (o : Out) : (d.emit o).evSeq = d.evSeq := rfl
@[simp] theorem Dev.emit_hold (d : Dev) (o : Out) : (d.emit o).hold = d.hold := rfl
@[simp] theorem Dev.emit_reqs (d : Dev) (o : Out) : (d.emit o).reqs = d.reqs := rfl
@[simp] theorem Dev.emit_reel (d : Dev) (o : Out) : (d.emit o).reel = d.reel := rfl
@[simp] theorem Dev.emit_qf (d : Dev) (o : Out) : (d.emit o).qf = d.qf := rfl
@[simp] theorem Dev.emit_img (d : Dev) (o : Out) : (d.emit o).img = d.img := rfl
@[simp] theorem Dev.emit_host (d : Dev) (o : Out) : (d.emit o).host = d.host := rfl
@[simp] theorem Dev.emit_lnk (d : Dev) (o : Out) : (d.emit o).lnk = d.lnk := rfl
@[simp] theorem Dev.emit_tb (d : Dev) (o : Out) : (d.emit o).tb = d.tb := rfl
@[simp] theorem Dev.emit_swp (d : Dev) (o : Out) : (d.emit o).swp = d.swp := rfl
@[simp] theorem Dev.emit_est (d : Dev) (o : Out) : (d.emit o).est = d.est := rfl
@[simp] theorem Dev.emit_lpe (d : Dev) (o : Out) : (d.emit o).lpe = d.lpe := rfl
@[simp] theorem Dev.emit_dsp (d : Dev) (o : Out) : (d.emit o).dsp = d.dsp := rfl
@[simp] theorem Dev.emit_trw (d : Dev) (o : Out) : (d.emit o).trw = d.trw := rfl
@[simp] theorem Dev.emit_trd (d : Dev) (o : Out) : (d.emit o).trd = d.trd := rfl
@[simp] theorem Dev.emit_sin (d : Dev) (o : Out) : (d.emit o).sin = d.sin := rfl
@[simp] theorem Dev.emit_net (d : Dev) (o : Out) : (d.emit o).net = d.net := rfl
@[simp] theorem Dev.emit_fld (d : Dev) (o : Out) : (d.emit o).fld = d.fld := rfl
@[simp] theorem Dev.emit_gaf (d : Dev) (o : Out) : (d.emit o).gaf = d.gaf := rfl
@[simp] theorem Dev.emit_wch (d : Dev) (o : Out) : (d.emit o).wch = d.wch := rfl
@[simp] theorem Dev.emit_pst (d : Dev) (o : Out) : (d.emit o).pst = d.pst := rfl
@[simp] theorem Dev.emit_jtag (d : Dev) (o : Out) : (d.emit o).jtag = d.jtag := rfl
@[simp] theorem Dev.emit_supply (d : Dev) (o : Out) : (d.emit o).supply = d.supply := rfl
@[simp] theorem Dev.emit_pins (d : Dev) (o : Out) : (d.emit o).pins = d.pins := rfl
@[simp] theorem Dev.go_regs (d : Dev) (m : DevState) (c : Nat) : (d.go m c).regs = d.regs := rfl
@[simp] theorem Dev.go_mode (d : Dev) (m : DevState) (c : Nat) : (d.go m c).mode = d.mode := rfl
@[simp] theorem Dev.go_now (d : Dev) (m : DevState) (c : Nat) : (d.go m c).now = d.now := rfl
@[simp] theorem Dev.go_own (d : Dev) (m : DevState) (c : Nat) : (d.go m c).own = d.own := rfl
@[simp] theorem Dev.go_free (d : Dev) (m : DevState) (c : Nat) : (d.go m c).free = d.free := rfl
@[simp] theorem Dev.go_evSeq (d : Dev) (m : DevState) (c : Nat) : (d.go m c).evSeq = d.evSeq := rfl
@[simp] theorem Dev.go_hold (d : Dev) (m : DevState) (c : Nat) : (d.go m c).hold = d.hold := rfl
@[simp] theorem Dev.go_out (d : Dev) (m : DevState) (c : Nat) : (d.go m c).out = d.out := rfl
@[simp] theorem Dev.go_reqs (d : Dev) (m : DevState) (c : Nat) : (d.go m c).reqs = d.reqs := rfl
@[simp] theorem Dev.go_reel (d : Dev) (m : DevState) (c : Nat) : (d.go m c).reel = d.reel := rfl
@[simp] theorem Dev.go_qf (d : Dev) (m : DevState) (c : Nat) : (d.go m c).qf = d.qf := rfl
@[simp] theorem Dev.go_img (d : Dev) (m : DevState) (c : Nat) : (d.go m c).img = d.img := rfl
@[simp] theorem Dev.go_host (d : Dev) (m : DevState) (c : Nat) : (d.go m c).host = d.host := rfl
@[simp] theorem Dev.go_lnk (d : Dev) (m : DevState) (c : Nat) : (d.go m c).lnk = d.lnk := rfl
@[simp] theorem Dev.go_tb (d : Dev) (m : DevState) (c : Nat) : (d.go m c).tb = d.tb := rfl
@[simp] theorem Dev.go_swp (d : Dev) (m : DevState) (c : Nat) : (d.go m c).swp = d.swp := rfl
@[simp] theorem Dev.go_est (d : Dev) (m : DevState) (c : Nat) : (d.go m c).est = d.est := rfl
@[simp] theorem Dev.go_lpe (d : Dev) (m : DevState) (c : Nat) : (d.go m c).lpe = d.lpe := rfl
@[simp] theorem Dev.go_dsp (d : Dev) (m : DevState) (c : Nat) : (d.go m c).dsp = d.dsp := rfl
@[simp] theorem Dev.go_trw (d : Dev) (m : DevState) (c : Nat) : (d.go m c).trw = d.trw := rfl
@[simp] theorem Dev.go_trd (d : Dev) (m : DevState) (c : Nat) : (d.go m c).trd = d.trd := rfl
@[simp] theorem Dev.go_sin (d : Dev) (m : DevState) (c : Nat) : (d.go m c).sin = d.sin := rfl
@[simp] theorem Dev.go_net (d : Dev) (m : DevState) (c : Nat) : (d.go m c).net = d.net := rfl
@[simp] theorem Dev.go_fld (d : Dev) (m : DevState) (c : Nat) : (d.go m c).fld = d.fld := rfl
@[simp] theorem Dev.go_gaf (d : Dev) (m : DevState) (c : Nat) : (d.go m c).gaf = d.gaf := rfl
@[simp] theorem Dev.go_wch (d : Dev) (m : DevState) (c : Nat) : (d.go m c).wch = d.wch := rfl
@[simp] theorem Dev.go_pst (d : Dev) (m : DevState) (c : Nat) : (d.go m c).pst = d.pst := rfl
@[simp] theorem Dev.go_jtag (d : Dev) (m : DevState) (c : Nat) : (d.go m c).jtag = d.jtag := rfl
@[simp] theorem Dev.go_supply (d : Dev) (m : DevState) (c : Nat) : (d.go m c).supply = d.supply := rfl
@[simp] theorem Dev.go_pins (d : Dev) (m : DevState) (c : Nat) : (d.go m c).pins = d.pins := rfl
@[simp] theorem Dev.begin_regs (t : Nat) (d : Dev) : (begin_ t d).regs = d.regs := rfl
@[simp] theorem Dev.begin_mode (t : Nat) (d : Dev) : (begin_ t d).mode = d.mode := rfl
@[simp] theorem Dev.begin_free (t : Nat) (d : Dev) : (begin_ t d).free = d.free := rfl
@[simp] theorem Dev.begin_evSeq (t : Nat) (d : Dev) : (begin_ t d).evSeq = d.evSeq := rfl
@[simp] theorem Dev.begin_hold (t : Nat) (d : Dev) : (begin_ t d).hold = d.hold := rfl
@[simp] theorem Dev.begin_reqs (t : Nat) (d : Dev) : (begin_ t d).reqs = d.reqs := rfl
@[simp] theorem Dev.begin_reel (t : Nat) (d : Dev) : (begin_ t d).reel = d.reel := rfl
@[simp] theorem Dev.begin_qf (t : Nat) (d : Dev) : (begin_ t d).qf = d.qf := rfl
@[simp] theorem Dev.begin_img (t : Nat) (d : Dev) : (begin_ t d).img = d.img := rfl
@[simp] theorem Dev.begin_host (t : Nat) (d : Dev) : (begin_ t d).host = d.host := rfl
@[simp] theorem Dev.begin_lnk (t : Nat) (d : Dev) : (begin_ t d).lnk = d.lnk := rfl
@[simp] theorem Dev.begin_tb (t : Nat) (d : Dev) : (begin_ t d).tb = d.tb := rfl
@[simp] theorem Dev.begin_swp (t : Nat) (d : Dev) : (begin_ t d).swp = d.swp := rfl
@[simp] theorem Dev.begin_est (t : Nat) (d : Dev) : (begin_ t d).est = d.est := rfl
@[simp] theorem Dev.begin_lpe (t : Nat) (d : Dev) : (begin_ t d).lpe = d.lpe := rfl
@[simp] theorem Dev.begin_dsp (t : Nat) (d : Dev) : (begin_ t d).dsp = d.dsp := rfl
@[simp] theorem Dev.begin_trw (t : Nat) (d : Dev) : (begin_ t d).trw = d.trw := rfl
@[simp] theorem Dev.begin_trd (t : Nat) (d : Dev) : (begin_ t d).trd = d.trd := rfl
@[simp] theorem Dev.begin_sin (t : Nat) (d : Dev) : (begin_ t d).sin = d.sin := rfl
@[simp] theorem Dev.begin_net (t : Nat) (d : Dev) : (begin_ t d).net = d.net := rfl
@[simp] theorem Dev.begin_fld (t : Nat) (d : Dev) : (begin_ t d).fld = d.fld := rfl
@[simp] theorem Dev.begin_gaf (t : Nat) (d : Dev) : (begin_ t d).gaf = d.gaf := rfl
@[simp] theorem Dev.begin_wch (t : Nat) (d : Dev) : (begin_ t d).wch = d.wch := rfl
@[simp] theorem Dev.begin_pst (t : Nat) (d : Dev) : (begin_ t d).pst = d.pst := rfl
@[simp] theorem Dev.begin_jtag (t : Nat) (d : Dev) : (begin_ t d).jtag = d.jtag := rfl
@[simp] theorem Dev.begin_supply (t : Nat) (d : Dev) : (begin_ t d).supply = d.supply := rfl
@[simp] theorem Dev.begin_pins (t : Nat) (d : Dev) : (begin_ t d).pins = d.pins := rfl
@[simp] theorem Dev.begin_stReq (t : Nat) (d : Dev) : (begin_ t d).stReq = [] := rfl
@[simp] theorem Dev.begin_out (t : Nat) (d : Dev) : (begin_ t d).out = [] := rfl
@[simp] theorem Dev.begin_now (t : Nat) (d : Dev) : (begin_ t d).now = max t d.now := rfl
@[simp] theorem Dev.begin_own (t : Nat) (d : Dev) : (begin_ t d).own = d.own + (t - d.now) := rfl
@[simp] theorem Dev.emit_out (d : Dev) (o : Out) : (d.emit o).out = d.out ++ [o] := rfl
@[simp] theorem Dev.go_stReq (d : Dev) (m : DevState) (c : Nat) : (d.go m c).stReq = d.stReq ++ [(m, c)] := rfl
theorem Dev.withTrw_regs (d : Dev) (x : Trw) : ({ d with trw := x }).regs = d.regs := rfl
theorem Dev.withTrw_mode (d : Dev) (x : Trw) : ({ d with trw := x }).mode = d.mode := rfl
theorem Dev.withTrw_stReq (d : Dev) (x : Trw) : ({ d with trw := x }).stReq = d.stReq := rfl
theorem Dev.withTrw_now (d : Dev) (x : Trw) : ({ d with trw := x }).now = d.now := rfl
theorem Dev.withTrw_own (d : Dev) (x : Trw) : ({ d with trw := x }).own = d.own := rfl
theorem Dev.withTrw_free (d : Dev) (x : Trw) : ({ d with trw := x }).free = d.free := rfl
theorem Dev.withTrw_evSeq (d : Dev) (x : Trw) : ({ d with trw := x }).evSeq = d.evSeq := rfl
theorem Dev.withTrw_hold (d : Dev) (x : Trw) : ({ d with trw := x }).hold = d.hold := rfl
theorem Dev.withTrw_out (d : Dev) (x : Trw) : ({ d with trw := x }).out = d.out := rfl
theorem Dev.withTrw_reqs (d : Dev) (x : Trw) : ({ d with trw := x }).reqs = d.reqs := rfl
theorem Dev.withTrw_reel (d : Dev) (x : Trw) : ({ d with trw := x }).reel = d.reel := rfl
theorem Dev.withTrw_qf (d : Dev) (x : Trw) : ({ d with trw := x }).qf = d.qf := rfl
theorem Dev.withTrw_img (d : Dev) (x : Trw) : ({ d with trw := x }).img = d.img := rfl
theorem Dev.withTrw_host (d : Dev) (x : Trw) : ({ d with trw := x }).host = d.host := rfl
theorem Dev.withTrw_lnk (d : Dev) (x : Trw) : ({ d with trw := x }).lnk = d.lnk := rfl
theorem Dev.withTrw_tb (d : Dev) (x : Trw) : ({ d with trw := x }).tb = d.tb := rfl
theorem Dev.withTrw_swp (d : Dev) (x : Trw) : ({ d with trw := x }).swp = d.swp := rfl
theorem Dev.withTrw_est (d : Dev) (x : Trw) : ({ d with trw := x }).est = d.est := rfl
theorem Dev.withTrw_lpe (d : Dev) (x : Trw) : ({ d with trw := x }).lpe = d.lpe := rfl
theorem Dev.withTrw_dsp (d : Dev) (x : Trw) : ({ d with trw := x }).dsp = d.dsp := rfl
theorem Dev.withTrw_trd (d : Dev) (x : Trw) : ({ d with trw := x }).trd = d.trd := rfl
theorem Dev.withTrw_sin (d : Dev) (x : Trw) : ({ d with trw := x }).sin = d.sin := rfl
theorem Dev.withTrw_net (d : Dev) (x : Trw) : ({ d with trw := x }).net = d.net := rfl
theorem Dev.withTrw_fld (d : Dev) (x : Trw) : ({ d with trw := x }).fld = d.fld := rfl
theorem Dev.withTrw_gaf (d : Dev) (x : Trw) : ({ d with trw := x }).gaf = d.gaf := rfl
theorem Dev.withTrw_wch (d : Dev) (x : Trw) : ({ d with trw := x }).wch = d.wch := rfl
theorem Dev.withTrw_pst (d : Dev) (x : Trw) : ({ d with trw := x }).pst = d.pst := rfl
theorem Dev.withTrw_jtag (d : Dev) (x : Trw) : ({ d with trw := x }).jtag = d.jtag := rfl
theorem Dev.withTrw_supply (d : Dev) (x : Trw) : ({ d with trw := x }).supply = d.supply := rfl
theorem Dev.withTrw_pins (d : Dev) (x : Trw) : ({ d with trw := x }).pins = d.pins := rfl
theorem Dev.withPins_regs (d : Dev) (x : Pins) : ({ d with pins := x }).regs = d.regs := rfl
theorem Dev.withPins_mode (d : Dev) (x : Pins) : ({ d with pins := x }).mode = d.mode := rfl
theorem Dev.withPins_stReq (d : Dev) (x : Pins) : ({ d with pins := x }).stReq = d.stReq := rfl
theorem Dev.withPins_now (d : Dev) (x : Pins) : ({ d with pins := x }).now = d.now := rfl
theorem Dev.withPins_own (d : Dev) (x : Pins) : ({ d with pins := x }).own = d.own := rfl
theorem Dev.withPins_free (d : Dev) (x : Pins) : ({ d with pins := x }).free = d.free := rfl
theorem Dev.withPins_evSeq (d : Dev) (x : Pins) : ({ d with pins := x }).evSeq = d.evSeq := rfl
theorem Dev.withPins_hold (d : Dev) (x : Pins) : ({ d with pins := x }).hold = d.hold := rfl
theorem Dev.withPins_out (d : Dev) (x : Pins) : ({ d with pins := x }).out = d.out := rfl
theorem Dev.withPins_reqs (d : Dev) (x : Pins) : ({ d with pins := x }).reqs = d.reqs := rfl
theorem Dev.withPins_reel (d : Dev) (x : Pins) : ({ d with pins := x }).reel = d.reel := rfl
theorem Dev.withPins_qf (d : Dev) (x : Pins) : ({ d with pins := x }).qf = d.qf := rfl
theorem Dev.withPins_img (d : Dev) (x : Pins) : ({ d with pins := x }).img = d.img := rfl
theorem Dev.withPins_host (d : Dev) (x : Pins) : ({ d with pins := x }).host = d.host := rfl
theorem Dev.withPins_lnk (d : Dev) (x : Pins) : ({ d with pins := x }).lnk = d.lnk := rfl
theorem Dev.withPins_tb (d : Dev) (x : Pins) : ({ d with pins := x }).tb = d.tb := rfl
theorem Dev.withPins_swp (d : Dev) (x : Pins) : ({ d with pins := x }).swp = d.swp := rfl
theorem Dev.withPins_est (d : Dev) (x : Pins) : ({ d with pins := x }).est = d.est := rfl
theorem Dev.withPins_lpe (d : Dev) (x : Pins) : ({ d with pins := x }).lpe = d.lpe := rfl
theorem Dev.withPins_dsp (d : Dev) (x : Pins) : ({ d with pins := x }).dsp = d.dsp := rfl
theorem Dev.withPins_trw (d : Dev) (x : Pins) : ({ d with pins := x }).trw = d.trw := rfl
theorem Dev.withPins_trd (d : Dev) (x : Pins) : ({ d with pins := x }).trd = d.trd := rfl
theorem Dev.withPins_sin (d : Dev) (x : Pins) : ({ d with pins := x }).sin = d.sin := rfl
theorem Dev.withPins_net (d : Dev) (x : Pins) : ({ d with pins := x }).net = d.net := rfl
theorem Dev.withPins_fld (d : Dev) (x : Pins) : ({ d with pins := x }).fld = d.fld := rfl
theorem Dev.withPins_gaf (d : Dev) (x : Pins) : ({ d with pins := x }).gaf = d.gaf := rfl
theorem Dev.withPins_wch (d : Dev) (x : Pins) : ({ d with pins := x }).wch = d.wch := rfl
theorem Dev.withPins_pst (d : Dev) (x : Pins) : ({ d with pins := x }).pst = d.pst := rfl
theorem Dev.withPins_jtag (d : Dev) (x : Pins) : ({ d with pins := x }).jtag = d.jtag := rfl
theorem Dev.withPins_supply (d : Dev) (x : Pins) : ({ d with pins := x }).supply = d.supply := rfl
@[simp] theorem Dev.watchFb_mode (d : Dev) : d.watchFb.mode = d.mode := (Dev.withTrw_mode _ _).trans (Dev.wr_mode _ _ _ _ _)
@[simp] theorem Dev.watchFb_stReq (d : Dev) : d.watchFb.stReq = d.stReq := (Dev.withTrw_stReq _ _).trans (Dev.wr_stReq _ _ _ _ _)
@[simp] theorem Dev.watchFb_now (d : Dev) : d.watchFb.now = d.now := (Dev.withTrw_now _ _).trans (Dev.wr_now _ _ _ _ _)
@[simp] theorem Dev.watchFb_own (d : Dev) : d.watchFb.own = d.own := (Dev.withTrw_own _ _).trans (Dev.wr_own _ _ _ _ _)
@[simp] theorem Dev.watchFb_free (d : Dev) : d.watchFb.free = d.free := (Dev.withTrw_free _ _).trans (Dev.wr_free _ _ _ _ _)
@[simp] theorem Dev.watchFb_evSeq (d : Dev) : d.watchFb.evSeq = d.evSeq := (Dev.withTrw_evSeq _ _).trans (Dev.wr_evSeq _ _ _ _ _)
@[simp] theorem Dev.watchFb_hold (d : Dev) : d.watchFb.hold = d.hold := (Dev.withTrw_hold _ _).trans (Dev.wr_hold _ _ _ _ _)
@[simp] theorem Dev.watchFb_out (d : Dev) : d.watchFb.out = d.out := (Dev.withTrw_out _ _).trans (Dev.wr_out _ _ _ _ _)
@[simp] theorem Dev.watchFb_reqs (d : Dev) : d.watchFb.reqs = d.reqs := (Dev.withTrw_reqs _ _).trans (Dev.wr_reqs _ _ _ _ _)
@[simp] theorem Dev.watchFb_reel (d : Dev) : d.watchFb.reel = d.reel := (Dev.withTrw_reel _ _).trans (Dev.wr_reel _ _ _ _ _)
@[simp] theorem Dev.watchFb_qf (d : Dev) : d.watchFb.qf = d.qf := (Dev.withTrw_qf _ _).trans (Dev.wr_qf _ _ _ _ _)
@[simp] theorem Dev.watchFb_img (d : Dev) : d.watchFb.img = d.img := (Dev.withTrw_img _ _).trans (Dev.wr_img _ _ _ _ _)
@[simp] theorem Dev.watchFb_host (d : Dev) : d.watchFb.host = d.host := (Dev.withTrw_host _ _).trans (Dev.wr_host _ _ _ _ _)
@[simp] theorem Dev.watchFb_lnk (d : Dev) : d.watchFb.lnk = d.lnk := (Dev.withTrw_lnk _ _).trans (Dev.wr_lnk _ _ _ _ _)
@[simp] theorem Dev.watchFb_tb (d : Dev) : d.watchFb.tb = d.tb := (Dev.withTrw_tb _ _).trans (Dev.wr_tb _ _ _ _ _)
@[simp] theorem Dev.watchFb_swp (d : Dev) : d.watchFb.swp = d.swp := (Dev.withTrw_swp _ _).trans (Dev.wr_swp _ _ _ _ _)
@[simp] theorem Dev.watchFb_est (d : Dev) : d.watchFb.est = d.est := (Dev.withTrw_est _ _).trans (Dev.wr_est _ _ _ _ _)
@[simp] theorem Dev.watchFb_lpe (d : Dev) : d.watchFb.lpe = d.lpe := (Dev.withTrw_lpe _ _).trans (Dev.wr_lpe _ _ _ _ _)
@[simp] theorem Dev.watchFb_dsp (d : Dev) : d.watchFb.dsp = d.dsp := (Dev.withTrw_dsp _ _).trans (Dev.wr_dsp _ _ _ _ _)
@[simp] theorem Dev.watchFb_trd (d : Dev) : d.watchFb.trd = d.trd := (Dev.withTrw_trd _ _).trans (Dev.wr_trd _ _ _ _ _)
@[simp] theorem Dev.watchFb_sin (d : Dev) : d.watchFb.sin = d.sin := (Dev.withTrw_sin _ _).trans (Dev.wr_sin _ _ _ _ _)
@[simp] theorem Dev.watchFb_net (d : Dev) : d.watchFb.net = d.net := (Dev.withTrw_net _ _).trans (Dev.wr_net _ _ _ _ _)
@[simp] theorem Dev.watchFb_fld (d : Dev) : d.watchFb.fld = d.fld := (Dev.withTrw_fld _ _).trans (Dev.wr_fld _ _ _ _ _)
@[simp] theorem Dev.watchFb_gaf (d : Dev) : d.watchFb.gaf = d.gaf := (Dev.withTrw_gaf _ _).trans (Dev.wr_gaf _ _ _ _ _)
@[simp] theorem Dev.watchFb_wch (d : Dev) : d.watchFb.wch = d.wch := (Dev.withTrw_wch _ _).trans (Dev.wr_wch _ _ _ _ _)
@[simp] theorem Dev.watchFb_pst (d : Dev) : d.watchFb.pst = d.pst := (Dev.withTrw_pst _ _).trans (Dev.wr_pst _ _ _ _ _)
@[simp] theorem Dev.watchFb_jtag (d : Dev) : d.watchFb.jtag = d.jtag := (Dev.withTrw_jtag _ _).trans (Dev.wr_jtag _ _ _ _ _)
@[simp] theorem Dev.watchFb_supply (d : Dev) : d.watchFb.supply = d.supply := (Dev.withTrw_supply _ _).trans (Dev.wr_supply _ _ _ _ _)
@[simp] theorem Dev.watchFb_pins (d : Dev) : d.watchFb.pins = d.pins := (Dev.withTrw_pins _ _).trans (Dev.wr_pins _ _ _ _ _)
@[simp] theorem Dev.drivePins_mode (d : Dev) : d.drivePins.mode = d.mode :=
  ((Dev.withPins_mode _ _).trans (Dev.watchFb_mode _)).trans ((Dev.wr_mode _ _ _ _ _).trans (Dev.wr_mode _ _ _ _ _))
@[simp] theorem Dev.drivePins_stReq (d : Dev) : d.drivePins.stReq = d.stReq :=
  ((Dev.withPins_stReq _ _).trans (Dev.watchFb_stReq _)).trans ((Dev.wr_stReq _ _ _ _ _).trans (Dev.wr_stReq _ _ _ _ _))
@[simp] theorem Dev.drivePins_now (d : Dev) : d.drivePins.now = d.now :=
  ((Dev.withPins_now _ _).trans (Dev.watchFb_now _)).trans ((Dev.wr_now _ _ _ _ _).trans (Dev.wr_now _ _ _ _ _))
@[simp] theorem Dev.drivePins_own (d : Dev) : d.drivePins.own = d.own :=
  ((Dev.withPins_own _ _).trans (Dev.watchFb_own _)).trans ((Dev.wr_own _ _ _ _ _).trans (Dev.wr_own _ _ _ _ _))
@[simp] theorem Dev.drivePins_free (d : Dev) : d.drivePins.free = d.free :=
  ((Dev.withPins_free _ _).trans (Dev.watchFb_free _)).trans ((Dev.wr_free _ _ _ _ _).trans (Dev.wr_free _ _ _ _ _))
@[simp] theorem Dev.drivePins_evSeq (d : Dev) : d.drivePins.evSeq = d.evSeq :=
  ((Dev.withPins_evSeq _ _).trans (Dev.watchFb_evSeq _)).trans ((Dev.wr_evSeq _ _ _ _ _).trans (Dev.wr_evSeq _ _ _ _ _))
@[simp] theorem Dev.drivePins_hold (d : Dev) : d.drivePins.hold = d.hold :=
  ((Dev.withPins_hold _ _).trans (Dev.watchFb_hold _)).trans ((Dev.wr_hold _ _ _ _ _).trans (Dev.wr_hold _ _ _ _ _))
@[simp] theorem Dev.drivePins_out (d : Dev) : d.drivePins.out = d.out :=
  ((Dev.withPins_out _ _).trans (Dev.watchFb_out _)).trans ((Dev.wr_out _ _ _ _ _).trans (Dev.wr_out _ _ _ _ _))
@[simp] theorem Dev.drivePins_reqs (d : Dev) : d.drivePins.reqs = d.reqs :=
  ((Dev.withPins_reqs _ _).trans (Dev.watchFb_reqs _)).trans ((Dev.wr_reqs _ _ _ _ _).trans (Dev.wr_reqs _ _ _ _ _))
@[simp] theorem Dev.drivePins_reel (d : Dev) : d.drivePins.reel = d.reel :=
  ((Dev.withPins_reel _ _).trans (Dev.watchFb_reel _)).trans ((Dev.wr_reel _ _ _ _ _).trans (Dev.wr_reel _ _ _ _ _))
@[simp] theorem Dev.drivePins_qf (d : Dev) : d.drivePins.qf = d.qf :=
  ((Dev.withPins_qf _ _).trans (Dev.watchFb_qf _)).trans ((Dev.wr_qf _ _ _ _ _).trans (Dev.wr_qf _ _ _ _ _))
@[simp] theorem Dev.drivePins_img (d : Dev) : d.drivePins.img = d.img :=
  ((Dev.withPins_img _ _).trans (Dev.watchFb_img _)).trans ((Dev.wr_img _ _ _ _ _).trans (Dev.wr_img _ _ _ _ _))
@[simp] theorem Dev.drivePins_host (d : Dev) : d.drivePins.host = d.host :=
  ((Dev.withPins_host _ _).trans (Dev.watchFb_host _)).trans ((Dev.wr_host _ _ _ _ _).trans (Dev.wr_host _ _ _ _ _))
@[simp] theorem Dev.drivePins_lnk (d : Dev) : d.drivePins.lnk = d.lnk :=
  ((Dev.withPins_lnk _ _).trans (Dev.watchFb_lnk _)).trans ((Dev.wr_lnk _ _ _ _ _).trans (Dev.wr_lnk _ _ _ _ _))
@[simp] theorem Dev.drivePins_tb (d : Dev) : d.drivePins.tb = d.tb :=
  ((Dev.withPins_tb _ _).trans (Dev.watchFb_tb _)).trans ((Dev.wr_tb _ _ _ _ _).trans (Dev.wr_tb _ _ _ _ _))
@[simp] theorem Dev.drivePins_swp (d : Dev) : d.drivePins.swp = d.swp :=
  ((Dev.withPins_swp _ _).trans (Dev.watchFb_swp _)).trans ((Dev.wr_swp _ _ _ _ _).trans (Dev.wr_swp _ _ _ _ _))
@[simp] theorem Dev.drivePins_est (d : Dev) : d.drivePins.est = d.est :=
  ((Dev.withPins_est _ _).trans (Dev.watchFb_est _)).trans ((Dev.wr_est _ _ _ _ _).trans (Dev.wr_est _ _ _ _ _))
@[simp] theorem Dev.drivePins_lpe (d : Dev) : d.drivePins.lpe = d.lpe :=
  ((Dev.withPins_lpe _ _).trans (Dev.watchFb_lpe _)).trans ((Dev.wr_lpe _ _ _ _ _).trans (Dev.wr_lpe _ _ _ _ _))
@[simp] theorem Dev.drivePins_dsp (d : Dev) : d.drivePins.dsp = d.dsp :=
  ((Dev.withPins_dsp _ _).trans (Dev.watchFb_dsp _)).trans ((Dev.wr_dsp _ _ _ _ _).trans (Dev.wr_dsp _ _ _ _ _))
@[simp] theorem Dev.drivePins_trd (d : Dev) : d.drivePins.trd = d.trd :=
  ((Dev.withPins_trd _ _).trans (Dev.watchFb_trd _)).trans ((Dev.wr_trd _ _ _ _ _).trans (Dev.wr_trd _ _ _ _ _))
@[simp] theorem Dev.drivePins_sin (d : Dev) : d.drivePins.sin = d.sin :=
  ((Dev.withPins_sin _ _).trans (Dev.watchFb_sin _)).trans ((Dev.wr_sin _ _ _ _ _).trans (Dev.wr_sin _ _ _ _ _))
@[simp] theorem Dev.drivePins_net (d : Dev) : d.drivePins.net = d.net :=
  ((Dev.withPins_net _ _).trans (Dev.watchFb_net _)).trans ((Dev.wr_net _ _ _ _ _).trans (Dev.wr_net _ _ _ _ _))
@[simp] theorem Dev.drivePins_fld (d : Dev) : d.drivePins.fld = d.fld :=
  ((Dev.withPins_fld _ _).trans (Dev.watchFb_fld _)).trans ((Dev.wr_fld _ _ _ _ _).trans (Dev.wr_fld _ _ _ _ _))
@[simp] theorem Dev.drivePins_gaf (d : Dev) : d.drivePins.gaf = d.gaf :=
  ((Dev.withPins_gaf _ _).trans (Dev.watchFb_gaf _)).trans ((Dev.wr_gaf _ _ _ _ _).trans (Dev.wr_gaf _ _ _ _ _))
@[simp] theorem Dev.drivePins_wch (d : Dev) : d.drivePins.wch = d.wch :=
  ((Dev.withPins_wch _ _).trans (Dev.watchFb_wch _)).trans ((Dev.wr_wch _ _ _ _ _).trans (Dev.wr_wch _ _ _ _ _))
@[simp] theorem Dev.drivePins_pst (d : Dev) : d.drivePins.pst = d.pst :=
  ((Dev.withPins_pst _ _).trans (Dev.watchFb_pst _)).trans ((Dev.wr_pst _ _ _ _ _).trans (Dev.wr_pst _ _ _ _ _))
@[simp] theorem Dev.drivePins_jtag (d : Dev) : d.drivePins.jtag = d.jtag :=
  ((Dev.withPins_jtag _ _).trans (Dev.watchFb_jtag _)).trans ((Dev.wr_jtag _ _ _ _ _).trans (Dev.wr_jtag _ _ _ _ _))
@[simp] theorem Dev.drivePins_supply (d : Dev) : d.drivePins.supply = d.supply :=
  ((Dev.withPins_supply _ _).trans (Dev.watchFb_supply _)).trans ((Dev.wr_supply _ _ _ _ _).trans (Dev.wr_supply _ _ _ _ _))

/-! ### A free value -/

@[simp] theorem Dev.fresh_dev (d : Dev) : d.fresh.1 = { d with free := d.free + 1 } := rfl

end Sys2Proof.Machine
end

