-- ==== Sys2Proof/Laws/Tbl.lean ====
section
/-!
SUPPORT. Laws/Tbl.lean: what reading a sparse table gives after a write or a removal, and that every operation keeps the canonical form.
-/
namespace Sys2Proof

variable {α : Type}

@[simp] theorem Tbl.get_nil (k : Nat) (e : α) : Tbl.get [] k e = e := rfl

theorem Tbl.get_cons (p : Nat × α) (t : Tbl α) (k : Nat) (e : α) : Tbl.get (p :: t) k e = if k = p.1 then p.2 else Tbl.get t k e := rfl

theorem Tbl.get_eq_find (t : Tbl α) (k : Nat) (e : α) : Tbl.get t k e = (Tbl.find t k).getD e := by
  induction t with
  | nil => rfl
  | cons p r ih =>
    obtain ⟨k', v⟩ := p
    by_cases h : k = k'
    · simp [Tbl.get, Tbl.find, h]
    · simp [Tbl.get, Tbl.find, h, ih]

theorem Tbl.find_ins (t : Tbl α) (k k' : Nat) (v : α) : Tbl.find (Tbl.ins t k v) k' = if k' = k then some v else Tbl.find t k' := by
  induction t with
  | nil => simp [Tbl.ins, Tbl.find]
  | cons p r ih =>
    obtain ⟨a, w⟩ := p
    simp only [Tbl.ins]
    split
    · simp [Tbl.find]
    · split
      · rename_i h1 h2
        subst h2
        by_cases h : k' = k <;> simp [Tbl.find, h]
      · rename_i h1 h2
        by_cases h : k' = a
        · subst h
          simp [Tbl.find, Ne.symm h2]
        · simp [Tbl.find, h, ih]

@[simp] theorem Tbl.find_ins_self (t : Tbl α) (k : Nat) (v : α) : Tbl.find (Tbl.ins t k v) k = some v := by simp [Tbl.find_ins]

theorem Tbl.find_ins_ne (t : Tbl α) {k k' : Nat} (v : α) (h : k' ≠ k) : Tbl.find (Tbl.ins t k v) k' = Tbl.find t k' := by simp [Tbl.find_ins, h]

theorem Tbl.find_del (t : Tbl α) (k k' : Nat) : Tbl.find (Tbl.del t k) k' = if k' = k then none else Tbl.find t k' := by
  induction t with
  | nil => simp [Tbl.del, Tbl.find]
  | cons p r ih =>
    obtain ⟨a, w⟩ := p
    simp only [Tbl.del]
    split
    · rename_i h
      subst h
      by_cases h' : k' = k
      · subst h'
        simpa using ih
      · simp [ih, Tbl.find, h']
    · rename_i h
      by_cases h' : k' = a
      · subst h'
        simp [Tbl.find, Ne.symm h]
      · simp [Tbl.find, h', ih]

@[simp] theorem Tbl.get_ins_self (t : Tbl α) (k : Nat) (v e : α) : Tbl.get (Tbl.ins t k v) k e = v := by simp [Tbl.get_eq_find]

theorem Tbl.get_ins_ne (t : Tbl α) {k k' : Nat} (v e : α) (h : k' ≠ k) : Tbl.get (Tbl.ins t k v) k' e = Tbl.get t k' e := by
  simp [Tbl.get_eq_find, Tbl.find_ins_ne t v h]

@[simp] theorem Tbl.get_set_self [DecidableEq α] (t : Tbl α) (k : Nat) (v e : α) : Tbl.get (Tbl.set t k v e) k e = v := by
  unfold Tbl.set
  split
  · simp [Tbl.get_eq_find, Tbl.find_del, *]
  · simp

theorem Tbl.get_set_ne [DecidableEq α] (t : Tbl α) {k k' : Nat} (v e e' : α) (h : k' ≠ k) : Tbl.get (Tbl.set t k v e') k' e = Tbl.get t k' e := by
  unfold Tbl.set
  split
  · simp [Tbl.get_eq_find, Tbl.find_del, h]
  · exact Tbl.get_ins_ne t v e h

theorem Tbl.get_set [DecidableEq α] (t : Tbl α) (k k' : Nat) (v e : α) : Tbl.get (Tbl.set t k v e) k' e = if k' = k then v else Tbl.get t k' e := by
  by_cases h : k' = k
  · subst h; simp
  · simp [h, Tbl.get_set_ne t v e e h]

/-! ### The canonical form -/

/-- Every listed key is above a bound. -/
def Tbl.above (b : Nat) (t : Tbl α) : Prop := ∀ p ∈ t, b < p.1

theorem Tbl.wf_cons [DecidableEq α] (p : Nat × α) (t : Tbl α) (d : Nat → α) :
    Tbl.wf (p :: t) d = true ↔ p.2 ≠ d p.1 ∧ Tbl.above p.1 t ∧ Tbl.wf t d = true := by
  induction t generalizing p with
  | nil => simp [Tbl.wf, Tbl.above]
  | cons q r ih =>
    have h := ih q
    simp only [Tbl.wf, Bool.and_eq_true, decide_eq_true_eq] at h ⊢
    simp only [Tbl.above, List.mem_cons, forall_eq_or_imp] at h ⊢
    constructor
    · rintro ⟨⟨h1, h2⟩, h3⟩
      refine ⟨h2, ⟨h1, fun x hx => ?_⟩, h3⟩
      have := (h.1 h3).2.1 x hx
      omega
    · rintro ⟨h1, ⟨h2, _⟩, h3⟩
      exact ⟨⟨h2, h1⟩, h3⟩

theorem Tbl.above_ins {b k : Nat} (t : Tbl α) (v : α) (h : Tbl.above b t) (hk : b < k) : Tbl.above b (Tbl.ins t k v) := by
  induction t with
  | nil => simpa [Tbl.ins, Tbl.above] using hk
  | cons p r ih =>
    have hp : b < p.1 := h p (by simp)
    have hr : Tbl.above b r := fun x hx => h x (by simp [hx])
    simp only [Tbl.ins]
    split
    · intro x hx
      rcases List.mem_cons.1 hx with rfl | hx
      · exact hk
      · exact h x hx
    · split
      · intro x hx
        rcases List.mem_cons.1 hx with rfl | hx
        · exact hk
        · exact hr x hx
      · intro x hx
        rcases List.mem_cons.1 hx with rfl | hx
        · exact hp
        · exact ih hr x hx

theorem Tbl.above_del {b k : Nat} (t : Tbl α) (h : Tbl.above b t) : Tbl.above b (Tbl.del t k) := by
  induction t with
  | nil => exact h
  | cons p r ih =>
    have hr : Tbl.above b r := fun x hx => h x (by simp [hx])
    simp only [Tbl.del]
    split
    · exact ih hr
    · intro x hx
      rcases List.mem_cons.1 hx with rfl | hx
      · exact h _ (by simp)
      · exact ih hr x hx

/-- Listing a value that differs from the unlisted one keeps the canonical form. -/
theorem Tbl.wf_ins [DecidableEq α] (t : Tbl α) (d : Nat → α) (k : Nat) (v : α) (h : Tbl.wf t d = true) (hv : v ≠ d k) : Tbl.wf (Tbl.ins t k v) d = true := by
  induction t with
  | nil => simpa [Tbl.ins, Tbl.wf] using hv
  | cons p r ih =>
    obtain ⟨h1, h2, h3⟩ := (Tbl.wf_cons p r d).1 h
    simp only [Tbl.ins]
    split
    · rename_i hk
      refine (Tbl.wf_cons (k, v) (p :: r) d).2 ⟨hv, fun x hx => ?_, h⟩
      rcases List.mem_cons.1 hx with rfl | hx
      · exact hk
      · exact Nat.lt_trans hk (h2 x hx)
    · split
      · rename_i hk
        exact (Tbl.wf_cons (k, v) r d).2 ⟨hv, by subst hk; exact h2, h3⟩
      · exact (Tbl.wf_cons p _ d).2 ⟨h1, Tbl.above_ins r v h2 (by omega), ih h3⟩

/-- Removing an entry keeps the canonical form. -/
theorem Tbl.wf_del [DecidableEq α] (t : Tbl α) (d : Nat → α) (k : Nat) (h : Tbl.wf t d = true) : Tbl.wf (Tbl.del t k) d = true := by
  induction t with
  | nil => exact h
  | cons p r ih =>
    obtain ⟨h1, h2, h3⟩ := (Tbl.wf_cons p r d).1 h
    simp only [Tbl.del]
    split
    · exact ih h3
    · exact (Tbl.wf_cons p _ d).2 ⟨h1, Tbl.above_del r h2, ih h3⟩

/-- Writing a value keeps the canonical form. -/
theorem Tbl.wf_set [DecidableEq α] (t : Tbl α) (d : Nat → α) (k : Nat) (v : α) (h : Tbl.wf t d = true) : Tbl.wf (Tbl.set t k v (d k)) d = true := by
  unfold Tbl.set
  split
  · exact Tbl.wf_del t d k h
  · rename_i hv
    exact Tbl.wf_ins t d k v h hv

end Sys2Proof
end

