-- ==== Sys2Proof/Laws/Regs.lean ====
section
/-!
SUPPORT. Laws/Regs.lean: what a word and a field read as after a write to the same place and to another.
-/
namespace Sys2Proof.Machine

@[simp] theorem Dev.word_setWord_self (d : Dev) (off : Nat) (w : Word) : (d.setWord off w).word off = w := Tbl.get_set_self _ _ _ _

theorem Dev.word_setWord_ne (d : Dev) {off a : Nat} (w : Word) (h : a ≠ off) : (d.setWord off w).word a = d.word a := Tbl.get_set_ne _ _ _ _ h

theorem Dev.word_wr_ne (d : Dev) (f : Field) (v i j : Nat) {a : Nat} (h : a ≠ f.addr i j) : (d.wr f v i j).word a = d.word a :=
  Dev.word_setWord_ne d _ h

theorem Dev.word_wr_self (d : Dev) (f : Field) (v i j : Nat) : (d.wr f v i j).word (f.addr i j) = putField (d.word (f.addr i j)) f.lo f.width v :=
  Dev.word_setWord_self d _ _

/-- Two devices with the same registers read alike. -/
theorem Dev.word_congr {d e : Dev} (h : d.regs = e.regs) (a : Nat) : d.word a = e.word a := by unfold Dev.word; rw [h]

theorem Dev.rd_congr {d e : Dev} {f : Field} {i j : Nat} (h : d.word (f.addr i j) = e.word (f.addr i j)) : d.rd f i j = e.rd f i j := by
  unfold Dev.rd; rw [h]

theorem Dev.rd_lt (d : Dev) (f : Field) (i j : Nat) : d.rd f i j < 2 ^ f.width := bitsOf_lt _ _ _

/-- A field reads back as what was written, mod its width. -/
theorem Dev.rd_wr_self (d : Dev) (f : Field) (v i j : Nat) (h : f.lo + f.width ≤ 32) : (d.wr f v i j).rd f i j = v % 2 ^ f.width := by
  unfold Dev.rd
  rw [Dev.word_wr_self]
  exact bitsOf_putField_self _ _ _ _ h

/-- A write of one word leaves the fields of every other word. -/
theorem Dev.rd_wr_ne (d : Dev) (f g : Field) (v i j i' j' : Nat) (h : g.addr i' j' ≠ f.addr i j) : (d.wr f v i j).rd g i' j' = d.rd g i' j' :=
  Dev.rd_congr (Dev.word_wr_ne d f v i j h)

/-- A write of a field leaves every field of the same word that does not overlap it. -/
theorem Dev.rd_wr_disjoint (d : Dev) (f g : Field) (v i j i' j' : Nat) (h : f.lo + f.width ≤ 32)
    (hd : g.lo + g.width ≤ f.lo ∨ f.lo + f.width ≤ g.lo) : (d.wr f v i j).rd g i' j' = d.rd g i' j' := by
  by_cases ha : g.addr i' j' = f.addr i j
  · unfold Dev.rd
    rw [ha, Dev.word_wr_self]
    exact bitsOf_putField_disjoint _ _ _ _ _ _ h hd
  · exact Dev.rd_wr_ne d f g v i j i' j' ha

/-! ### Updates that write no register -/

@[simp] theorem Dev.word_emit (d : Dev) (o : Out) (a : Nat) : (d.emit o).word a = d.word a := rfl
@[simp] theorem Dev.word_go (d : Dev) (m : DevState) (c a : Nat) : (d.go m c).word a = d.word a := rfl
@[simp] theorem Dev.word_begin_ (t : Nat) (d : Dev) (a : Nat) : (begin_ t d).word a = d.word a := rfl
@[simp] theorem Dev.rd_emit (d : Dev) (o : Out) (f : Field) (i j : Nat) : (d.emit o).rd f i j = d.rd f i j := rfl
@[simp] theorem Dev.rd_go (d : Dev) (m : DevState) (c : Nat) (f : Field) (i j : Nat) : (d.go m c).rd f i j = d.rd f i j := rfl
@[simp] theorem Dev.rd_begin_ (t : Nat) (d : Dev) (f : Field) (i j : Nat) : (begin_ t d).rd f i j = d.rd f i j := rfl
@[simp] theorem Dev.on_emit (d : Dev) (o : Out) (f : Field) (i j : Nat) : (d.emit o).on f i j = d.on f i j := rfl
@[simp] theorem Dev.on_begin_ (t : Nat) (d : Dev) (f : Field) (i j : Nat) : (begin_ t d).on f i j = d.on f i j := rfl

/-- The registers keep their canonical form (`Tbl.wf`) under every write of a word. -/
theorem Dev.regs_wf_setWord (d : Dev) (off : Nat) (w : Word) (h : Tbl.wf d.regs resetWord = true) : Tbl.wf (d.setWord off w).regs resetWord = true :=
  Tbl.wf_set _ _ _ _ h

theorem Dev.regs_wf_wr (d : Dev) (f : Field) (v i j : Nat) (h : Tbl.wf d.regs resetWord = true) : Tbl.wf (d.wr f v i j).regs resetWord = true :=
  Dev.regs_wf_setWord d _ _ h

end Sys2Proof.Machine
end

