-- ==== Sys2Proof/Laws/Events.lean ====
section
/-!
SUPPORT. Laws/Events.lean: what raising an event leaves as it was: everything but the event's own places (sequence numbers, queues, black box, watch log, tag ring, their
counters), and a request for HALT when it is fatal.
-/
namespace Sys2Proof.Machine

/-- `e` differs from `d` at most in where events are stored, and in the state changes asked for. -/
def Dev.EvKeeps (d e : Dev) : Prop :=
  e = { d with
    regs := e.regs, evSeq := e.evSeq, qf := { d.qf with qs := e.qf.qs }, pst := e.pst, wch := { d.wch with log := e.wch.log }, stReq := e.stReq } ∧
  ∀ a, a ∉ evWords → e.word a = d.word a

theorem Dev.EvKeeps.refl (d : Dev) : d.EvKeeps d := ⟨rfl, fun _ _ => rfl⟩

theorem Dev.EvKeeps.trans {a b c : Dev} (h : a.EvKeeps b) (k : b.EvKeeps c) : a.EvKeeps c := by
  obtain ⟨h1, h2⟩ := h
  obtain ⟨k1, k2⟩ := k
  refine ⟨?_, fun x hx => (k2 x hx).trans (h2 x hx)⟩
  generalize c.regs = r, c.evSeq = s, c.qf.qs = q, c.pst = p, c.wch.log = l, c.stReq = t at k1 ⊢
  rw [k1, h1]

theorem Dev.evKeeps_wr (d : Dev) (f : Field) (v i j : Nat) (h : f.addr i j ∈ evWords) : d.EvKeeps (d.wr f v i j) :=
  ⟨rfl, fun x hx => Dev.word_wr_ne d f v i j (fun e => hx (e ▸ h))⟩

theorem Dev.evKeeps_bump (d : Dev) (f : Field) (n i j : Nat) (h : f.addr i j ∈ evWords) : d.EvKeeps (d.bump f n i j) := Dev.evKeeps_wr d f _ i j h

theorem Dev.evKeeps_pst (d : Dev) (p : Pst) : d.EvKeeps { d with pst := p } := ⟨rfl, fun _ _ => rfl⟩

theorem Dev.evKeeps_setQueue (d : Dev) (qid : Nat) (r : QRes) : d.EvKeeps (d.setQueue qid r) := by
  have h0 : d.EvKeeps { d with qf := { d.qf with qs := d.qf.qs.ins qid r.q } } := ⟨rfl, fun _ _ => rfl⟩
  have step : ∀ (x : Dev) (c : Prop) [Decidable c] (f : Field) (n : Nat), f.addr 0 0 ∈ evWords → Dev.EvKeeps x (if c then x else x.bump f n) := by
    intro x _ _ f n hf
    split
    · exact Dev.EvKeeps.refl x
    · exact Dev.evKeeps_bump x f n 0 0 hf
  unfold Dev.setQueue
  exact ((h0.trans (step _ _ Reg.QF_CNT_DROP_CNT _ (by simp [evWords]))).trans (step _ _ Reg.QF_CNT_OVERWRITE_CNT _ (by simp [evWords]))).trans
    (step _ _ Reg.QF_CNT_CUT_CNT _ (by simp [evWords]))

theorem Dev.evKeeps_log (d : Dev) (l : List BbRec) : d.EvKeeps { d with wch := { d.wch with log := l } } := ⟨rfl, fun _ _ => rfl⟩

theorem Dev.evKeeps_logPut (d : Dev) (r : BbRec) : d.EvKeeps (d.logPut r).1 := by
  unfold Dev.logPut
  split
  · exact (Dev.evKeeps_log d _).trans (Dev.evKeeps_wr _ Reg.WCH_LOG_COUNT _ 0 0 (by simp [evWords]))
  · exact (Dev.evKeeps_log d _).trans (Dev.evKeeps_bump _ Reg.WCH_LOG_OVERFLOW _ 0 0 (by simp [evWords]))

theorem Dev.evKeeps_bbPut (d x : Dev) (k : Nat) (ev : Item × Item) (ctx : List Word) (h : d.bbPut k ev ctx = some x) : d.EvKeeps x := by
  unfold Dev.bbPut at h
  split at h
  · cases h
  · cases h; exact Dev.evKeeps_pst d _

theorem Dev.evKeeps_foldl {β : Type} (f : Dev → β → Dev) (h : ∀ (x : Dev) b, x.EvKeeps (f x b)) (l : List β) (d : Dev) : d.EvKeeps (l.foldl f d) := by
  induction l generalizing d with
  | nil => exact Dev.EvKeeps.refl d
  | cons b l ih => exact (h d b).trans (ih (f d b))

/-- A raiser that leaves everything but where events are stored. -/
def Raiser.Keeps (again : Raiser) : Prop := ∀ (d : Dev) e realm ts inst data, d.EvKeeps (again d e realm ts inst data)

section
variable {again : Raiser} (h : again.Keeps)
include h

theorem Dev.evKeeps_logEvent (ts : Nat) (d : Dev) (r : BbRec) : d.EvKeeps (Dev.logEvent again ts d r) := by
  unfold Dev.logEvent
  dsimp only
  split
  · exact (Dev.evKeeps_logPut d r).trans (h _ _ _ _ _ _)
  · exact Dev.evKeeps_logPut d r

theorem Dev.evKeeps_evToQueue (ts : Nat) (ev : Item × Item) (d : Dev) (qid : Nat) : d.EvKeeps (Dev.evToQueue again ts ev d qid) := by
  unfold Dev.evToQueue
  split
  · exact Dev.EvKeeps.refl d
  · refine (Dev.evKeeps_setQueue d qid _).trans (Dev.evKeeps_foldl _ (fun x n => ?_) _ _)
    cases n <;> exact h _ _ _ _ _ _

theorem Dev.evKeeps_evToBox (ts : Nat) (e : Ev) (ev : Item × Item) (d : Dev) : d.EvKeeps (Dev.evToBox again ts e ev d) := by
  unfold Dev.evToBox
  split
  · split
    · rename_i d' hd
      have := Dev.evKeeps_bbPut d d' _ _ _ hd
      split
      · exact this.trans (Dev.evKeeps_logEvent h _ _ _)
      · exact this
    · have := (Dev.evKeeps_bump d Reg.PST_BB_DROPPED_CNT 1 0 0 (by simp [evWords])).trans
        (Dev.evKeeps_pst _ { d.pst with bbLost := d.pst.bbLost + 1 })
      dsimp only
      split
      · exact this
      · exact (this.trans (Dev.evKeeps_pst _ _)).trans (h _ _ _ _ _ _)
  · exact Dev.EvKeeps.refl d

theorem Dev.evKeeps_evToWatch (e : Ev) (realm : Bool) (ts seq inst data : Nat) (d : Dev) : d.EvKeeps (Dev.evToWatch again e realm ts seq inst data d) :=
  (Dev.evKeeps_pst d _).trans (Dev.evKeeps_logEvent h _ _ _)

theorem Dev.evKeeps_evStore (e : Ev) (realm : Bool) (ts seq inst data : Nat) (d : Dev) : d.EvKeeps (Dev.evStore again e realm ts seq inst data d) := by
  have hw : ∀ (x : Dev) (c : Prop) [Decidable c] (y : Dev), x.EvKeeps y → x.EvKeeps (if c then y else x) := by
    intro x _ _ y hy
    split
    · exact hy
    · exact Dev.EvKeeps.refl x
  have hf : ∀ x : Dev, x.EvKeeps (Dev.evFatal e x) := fun x => hw x _ _ ⟨rfl, fun _ _ => rfl⟩
  have hc : ∀ x : Dev, x.EvKeeps (Dev.evCount e x) := fun x => hw x _ _ (Dev.evKeeps_pst x _)
  have ht : ∀ x : Dev, x.EvKeeps (Dev.evToTag e inst data x) := fun x => hw x _ _ (Dev.evKeeps_pst x _)
  exact ((((Dev.evKeeps_foldl _ (fun x q => Dev.evKeeps_evToQueue h ts _ x q) _ d).trans (Dev.evKeeps_evToBox h ts e _ _)).trans (ht _)).trans (hc _)).trans (hf _)

end

/-- Raising an event leaves everything but the places where events are stored. -/
theorem Dev.evKeeps_raiseF (fuel : Nat) : Raiser.Keeps (Dev.raiseF fuel) := by
  induction fuel with
  | zero => intro d _ _ _ _ _; exact Dev.EvKeeps.refl d
  | succ fuel ih =>
    intro d e realm ts inst data
    have hs : d.EvKeeps (d.takeSeq e.id) := ⟨rfl, fun _ _ => rfl⟩
    unfold Dev.raiseF
    dsimp only
    split
    · exact hs
    · split
      · exact hs.trans (Dev.evKeeps_evStore ih _ _ _ _ _ _ _)
      · exact hs.trans (Dev.evKeeps_evToWatch ih _ _ _ _ _ _ _)

theorem Dev.evKeeps_raiseAt (d : Dev) (e : Ev) (realm : Bool) (ts inst data : Nat) : d.EvKeeps (d.raiseAt e realm ts inst data) :=
  Dev.evKeeps_raiseF _ _ _ _ _ _ _

theorem Dev.evKeeps_raise (d : Dev) (e : Ev) (inst data : Nat) : d.EvKeeps (d.raise e inst data) := Dev.evKeeps_raiseAt _ _ _ _ _ _

theorem Dev.evKeeps_applyRes (d : Dev) (qid : Nat) (r : QRes) : d.EvKeeps (d.applyRes qid r) := by
  refine (Dev.evKeeps_setQueue d qid r).trans (Dev.evKeeps_foldl _ (fun x n => ?_) _ _)
  cases n <;> exact Dev.evKeeps_raise _ _ _ _

/-! ### State changes asked for -/

/-- A raiser that asks for no state change unless the event is fatal. -/
def Raiser.Calm (again : Raiser) : Prop := ∀ (d : Dev) (e : Ev) realm ts inst data, e.sev < 5 → (again d e realm ts inst data).stReq = d.stReq

theorem Dev.stReq_foldl {β : Type} (f : Dev → β → Dev) (h : ∀ (x : Dev) b, (f x b).stReq = x.stReq) (l : List β) (d : Dev) : (l.foldl f d).stReq = d.stReq := by
  induction l generalizing d with
  | nil => rfl
  | cons b l ih => exact (ih (f d b)).trans (h d b)

@[simp] theorem Dev.setQueue_stReq (d : Dev) (qid : Nat) (r : QRes) : (d.setQueue qid r).stReq = d.stReq := by
  unfold Dev.setQueue
  dsimp only
  split <;> split <;> split <;> simp

@[simp] theorem Dev.logPut_stReq (d : Dev) (r : BbRec) : (d.logPut r).1.stReq = d.stReq := by
  unfold Dev.logPut
  split <;> simp

section
variable {again : Raiser} (h : again.Calm)
include h

theorem Dev.stReq_logEvent (ts : Nat) (d : Dev) (r : BbRec) : (Dev.logEvent again ts d r).stReq = d.stReq := by
  unfold Dev.logEvent
  dsimp only
  split
  · rw [h _ _ _ _ _ _ (by decide)]; simp
  · simp

theorem Dev.stReq_evToQueue (ts : Nat) (ev : Item × Item) (d : Dev) (qid : Nat) : (Dev.evToQueue again ts ev d qid).stReq = d.stReq := by
  unfold Dev.evToQueue
  split
  · rfl
  · refine (Dev.stReq_foldl _ (fun x n => ?_) _ _).trans (by simp)
    cases n <;> exact h _ _ _ _ _ _ (by decide)

theorem Dev.stReq_evToBox (ts : Nat) (e : Ev) (ev : Item × Item) (d : Dev) : (Dev.evToBox again ts e ev d).stReq = d.stReq := by
  unfold Dev.evToBox
  split
  · split
    · rename_i d' hd
      have : d'.stReq = d.stReq := by
        unfold Dev.bbPut at hd
        split at hd
        · cases hd
        · cases hd; rfl
      split
      · rw [Dev.stReq_logEvent h]; exact this
      · exact this
    · dsimp only
      split
      · simp
      · rw [h _ _ _ _ _ _ (by decide)]; simp
  · rfl

end

/-- An event that is not fatal asks for no change of state. -/
theorem Dev.stReq_raiseF (fuel : Nat) : Raiser.Calm (Dev.raiseF fuel) := by
  induction fuel with
  | zero => intro d _ _ _ _ _ _; rfl
  | succ fuel ih =>
    intro d e realm ts inst data hsev
    unfold Dev.raiseF
    dsimp only
    split
    · rfl
    · split
      · unfold Dev.evStore Dev.evFatal Dev.evCount Dev.evToTag
        dsimp only
        rw [if_neg (by omega)]
        have h1 := Dev.stReq_evToBox ih ts e (eventItems ts e realm (d.evSeq.get e.id 0) inst data)
          ((((d.takeSeq e.id).evQueues e).foldl (Dev.evToQueue (Dev.raiseF fuel) ts (eventItems ts e realm (d.evSeq.get e.id 0) inst data)) (d.takeSeq e.id)))
        have h2 := Dev.stReq_foldl _ (fun x q => Dev.stReq_evToQueue ih ts (eventItems ts e realm (d.evSeq.get e.id 0) inst data) x q)
          ((d.takeSeq e.id).evQueues e) (d.takeSeq e.id)
        have h3 := h1.trans h2
        split <;> split <;> exact h3
      · exact Dev.stReq_logEvent ih _ _ _

theorem Dev.stReq_raise (d : Dev) (e : Ev) (inst data : Nat) (h : e.sev < 5) : (d.raise e inst data).stReq = d.stReq := Dev.stReq_raiseF _ _ _ _ _ _ _ h

end Sys2Proof.Machine
end

