-- ==== Sys2Proof/Laws/Settle.lean ====
section
/-!
SUPPORT. Laws/Settle.lean: what the end of a command does: with no state change asked for it drives the balls and leaves the rest; the state moves where `pickState` says.
-/
namespace Sys2Proof.Machine

/-- The words that the end of a command writes where no change of state was asked for: `GLB_STATUS` and `TRW_OUT_STAT`. -/
def settleWords : List Nat := [Reg.GLB_STATUS_STATE.addr 0 0, Reg.TRW_OUT_STAT_H_LEVEL.addr 0 0]

theorem Dev.word_watchFb (d : Dev) (a : Nat) (h : a ≠ Reg.TRW_OUT_STAT_MISMATCH.addr 0 0) : d.watchFb.word a = d.word a :=
  Dev.word_wr_ne d Reg.TRW_OUT_STAT_MISMATCH _ 0 0 h

theorem Dev.word_drivePins (d : Dev) (a : Nat) (h : a ≠ Reg.TRW_OUT_STAT_H_LEVEL.addr 0 0) : d.drivePins.word a = d.word a :=
  ((Dev.word_watchFb _ a h).trans (Dev.word_wr_ne _ Reg.TRW_OUT_STAT_P_LEVEL _ 0 0 h)).trans (Dev.word_wr_ne _ Reg.TRW_OUT_STAT_H_LEVEL _ 0 0 h)

/-- The state that a command leads to. -/
theorem Dev.applyState_mode (o d : Dev) : (o.applyState d).mode = ((pickState o.mode d.stReq).map (·.1)).getD o.mode := by
  unfold Dev.applyState
  split <;> rename_i h <;> rw [h] <;> rfl

@[simp] theorem Dev.applyState_stReq (o d : Dev) : (o.applyState d).stReq = [] := by
  unfold Dev.applyState
  split <;> rfl

theorem Dev.applyState_calm (o d : Dev) (h : d.stReq = []) : o.applyState d = { d with mode := o.mode, stReq := [] } := by
  unfold Dev.applyState
  rw [h]
  rfl

@[simp] theorem Dev.touchTag_mode (m : DevState) (d : Dev) : (d.touchTag m).mode = d.mode := by unfold Dev.touchTag; split <;> rfl
@[simp] theorem Dev.touchTag_stReq (m : DevState) (d : Dev) : (d.touchTag m).stReq = d.stReq := by unfold Dev.touchTag; split <;> rfl
@[simp] theorem Dev.scanSafe_mode (d : Dev) : d.scanSafe.mode = d.mode := by unfold Dev.scanSafe; split <;> rfl
@[simp] theorem Dev.scanSafe_stReq (d : Dev) : d.scanSafe.stReq = d.stReq := by unfold Dev.scanSafe; split <;> rfl

/-- The device state after a command. -/
theorem settle_mode (o d : Dev) : (settle o d).mode = ((pickState o.mode d.stReq).map (·.1)).getD o.mode := by
  unfold settle
  dsimp only
  rw [Dev.drivePins_mode, Dev.wr_mode, Dev.scanSafe_mode, Dev.touchTag_mode, Dev.applyState_mode]
  rfl

/-- The end of a command in which no change of state was asked for. -/
theorem settle_calm (o d : Dev) (h : d.stReq = []) :
    settle o d = (({ o.keepFuses d with mode := o.mode, stReq := [] } : Dev).scanSafe.wr Reg.GLB_STATUS_STATE o.mode.stateCode).drivePins := by
  have h1 := Dev.applyState_calm o (o.keepFuses d) h
  unfold settle
  dsimp only
  rw [h1]
  have h2 : Dev.touchTag o.mode { o.keepFuses d with mode := o.mode, stReq := [] } = { o.keepFuses d with mode := o.mode, stReq := [] } := if_pos rfl
  rw [h2, Dev.scanSafe_mode]

@[simp] theorem Dev.word_scanSafe (d : Dev) (a : Nat) : d.scanSafe.word a = d.word a := by unfold Dev.scanSafe; split <;> rfl
@[simp] theorem Dev.scanSafe_now (d : Dev) : d.scanSafe.now = d.now := by unfold Dev.scanSafe; split <;> rfl
@[simp] theorem Dev.scanSafe_own (d : Dev) : d.scanSafe.own = d.own := by unfold Dev.scanSafe; split <;> rfl
@[simp] theorem Dev.scanSafe_free (d : Dev) : d.scanSafe.free = d.free := by unfold Dev.scanSafe; split <;> rfl
@[simp] theorem Dev.scanSafe_evSeq (d : Dev) : d.scanSafe.evSeq = d.evSeq := by unfold Dev.scanSafe; split <;> rfl
@[simp] theorem Dev.scanSafe_hold (d : Dev) : d.scanSafe.hold = d.hold := by unfold Dev.scanSafe; split <;> rfl
@[simp] theorem Dev.scanSafe_out (d : Dev) : d.scanSafe.out = d.out := by unfold Dev.scanSafe; split <;> rfl
@[simp] theorem Dev.scanSafe_reqs (d : Dev) : d.scanSafe.reqs = d.reqs := by unfold Dev.scanSafe; split <;> rfl
@[simp] theorem Dev.scanSafe_reel (d : Dev) : d.scanSafe.reel = d.reel := by unfold Dev.scanSafe; split <;> rfl
@[simp] theorem Dev.scanSafe_qf (d : Dev) : d.scanSafe.qf = d.qf := by unfold Dev.scanSafe; split <;> rfl
@[simp] theorem Dev.scanSafe_img (d : Dev) : d.scanSafe.img = d.img := by unfold Dev.scanSafe; split <;> rfl
@[simp] theorem Dev.scanSafe_host (d : Dev) : d.scanSafe.host = d.host := by unfold Dev.scanSafe; split <;> rfl
@[simp] theorem Dev.scanSafe_lnk (d : Dev) : d.scanSafe.lnk = d.lnk := by unfold Dev.scanSafe; split <;> rfl
@[simp] theorem Dev.scanSafe_tb (d : Dev) : d.scanSafe.tb = d.tb := by unfold Dev.scanSafe; split <;> rfl
@[simp] theorem Dev.scanSafe_swp (d : Dev) : d.scanSafe.swp = d.swp := by unfold Dev.scanSafe; split <;> rfl
@[simp] theorem Dev.scanSafe_est (d : Dev) : d.scanSafe.est = d.est := by unfold Dev.scanSafe; split <;> rfl
@[simp] theorem Dev.scanSafe_lpe (d : Dev) : d.scanSafe.lpe = d.lpe := by unfold Dev.scanSafe; split <;> rfl
@[simp] theorem Dev.scanSafe_dsp (d : Dev) : d.scanSafe.dsp = d.dsp := by unfold Dev.scanSafe; split <;> rfl
@[simp] theorem Dev.scanSafe_trw (d : Dev) : d.scanSafe.trw = d.trw := by unfold Dev.scanSafe; split <;> rfl
@[simp] theorem Dev.scanSafe_trd (d : Dev) : d.scanSafe.trd = d.trd := by unfold Dev.scanSafe; split <;> rfl
@[simp] theorem Dev.scanSafe_sin (d : Dev) : d.scanSafe.sin = d.sin := by unfold Dev.scanSafe; split <;> rfl
@[simp] theorem Dev.scanSafe_net (d : Dev) : d.scanSafe.net = d.net := by unfold Dev.scanSafe; split <;> rfl
@[simp] theorem Dev.scanSafe_fld (d : Dev) : d.scanSafe.fld = d.fld := by unfold Dev.scanSafe; split <;> rfl
@[simp] theorem Dev.scanSafe_gaf (d : Dev) : d.scanSafe.gaf = d.gaf := by unfold Dev.scanSafe; split <;> rfl
@[simp] theorem Dev.scanSafe_wch (d : Dev) : d.scanSafe.wch = d.wch := by unfold Dev.scanSafe; split <;> rfl
@[simp] theorem Dev.scanSafe_pst (d : Dev) : d.scanSafe.pst = d.pst := by unfold Dev.scanSafe; split <;> rfl
@[simp] theorem Dev.scanSafe_supply (d : Dev) : d.scanSafe.supply = d.supply := by unfold Dev.scanSafe; split <;> rfl
@[simp] theorem Dev.scanSafe_pins (d : Dev) : d.scanSafe.pins = d.pins := by unfold Dev.scanSafe; split <;> rfl

/-- A word that is neither `GLB_STATUS` nor `TRW_OUT_STAT` is as the command left it. -/
theorem settle_word (o d : Dev) (h : d.stReq = []) (a : Nat) (ha : a ∉ settleWords) : (settle o d).word a = d.word a := by
  rw [settle_calm o d h]
  simp only [settleWords, List.mem_cons, List.not_mem_nil, or_false, not_or] at ha
  rw [Dev.word_drivePins _ a ha.2, Dev.word_wr_ne _ _ _ _ _ ha.1, Dev.word_scanSafe]
  rfl

theorem settle_rd (o d : Dev) (h : d.stReq = []) (f : Field) (i j : Nat) (ha : f.addr i j ∉ settleWords) : (settle o d).rd f i j = d.rd f i j :=
  Dev.rd_congr (settle_word o d h _ ha)

section
variable (o d : Dev) (h : d.stReq = [])
include h
theorem settle_now : (settle o d).now = d.now := by
  rw [settle_calm o d h]; simp [Dev.keepFuses]
theorem settle_own : (settle o d).own = d.own := by
  rw [settle_calm o d h]; simp [Dev.keepFuses]
theorem settle_free : (settle o d).free = d.free := by
  rw [settle_calm o d h]; simp [Dev.keepFuses]
theorem settle_evSeq : (settle o d).evSeq = d.evSeq := by
  rw [settle_calm o d h]; simp [Dev.keepFuses]
theorem settle_hold : (settle o d).hold = d.hold := by
  rw [settle_calm o d h]; simp [Dev.keepFuses]
theorem settle_out : (settle o d).out = d.out := by
  rw [settle_calm o d h]; simp [Dev.keepFuses]
theorem settle_reqs : (settle o d).reqs = d.reqs := by
  rw [settle_calm o d h]; simp [Dev.keepFuses]
theorem settle_reel : (settle o d).reel = d.reel := by
  rw [settle_calm o d h]; simp [Dev.keepFuses]
theorem settle_qf : (settle o d).qf = d.qf := by
  rw [settle_calm o d h]; simp [Dev.keepFuses]
theorem settle_host : (settle o d).host = d.host := by
  rw [settle_calm o d h]; simp [Dev.keepFuses]
theorem settle_lnk : (settle o d).lnk = d.lnk := by
  rw [settle_calm o d h]; simp [Dev.keepFuses]
theorem settle_tb : (settle o d).tb = d.tb := by
  rw [settle_calm o d h]; simp [Dev.keepFuses]
theorem settle_swp : (settle o d).swp = d.swp := by
  rw [settle_calm o d h]; simp [Dev.keepFuses]
theorem settle_est : (settle o d).est = d.est := by
  rw [settle_calm o d h]; simp [Dev.keepFuses]
theorem settle_lpe : (settle o d).lpe = d.lpe := by
  rw [settle_calm o d h]; simp [Dev.keepFuses]
theorem settle_dsp : (settle o d).dsp = d.dsp := by
  rw [settle_calm o d h]; simp [Dev.keepFuses]
theorem settle_trd : (settle o d).trd = d.trd := by
  rw [settle_calm o d h]; simp [Dev.keepFuses]
theorem settle_sin : (settle o d).sin = d.sin := by
  rw [settle_calm o d h]; simp [Dev.keepFuses]
theorem settle_net : (settle o d).net = d.net := by
  rw [settle_calm o d h]; simp [Dev.keepFuses]
theorem settle_fld : (settle o d).fld = d.fld := by
  rw [settle_calm o d h]; simp [Dev.keepFuses]
theorem settle_gaf : (settle o d).gaf = d.gaf := by
  rw [settle_calm o d h]; simp [Dev.keepFuses]
theorem settle_wch : (settle o d).wch = d.wch := by
  rw [settle_calm o d h]; simp [Dev.keepFuses]
theorem settle_pst : (settle o d).pst = d.pst := by
  rw [settle_calm o d h]; simp [Dev.keepFuses]
theorem settle_supply : (settle o d).supply = d.supply := by
  rw [settle_calm o d h]; simp [Dev.keepFuses]
theorem settle_mode_calm : (settle o d).mode = o.mode := by
  rw [settle_calm o d h]; simp [Dev.keepFuses]
theorem settle_img : (settle o d).img = { d.img with otp := o.img.otp.merge d.img.otp } := by
  rw [settle_calm o d h]; simp [Dev.keepFuses]
end

end Sys2Proof.Machine
end

