-- ==== Sys2Proof/Laws/Exec.lean ====
section
/-!
SUPPORT. Laws/Exec.lean: what every command does: it calls its own meaning, which is one run at its instant; so it answers a next state and leaves the queue of commands.
-/
namespace Sys2Proof.Machine

theorem State.run_eq (t : Nat) (s : State) (f : Dev → Dev) : s.run t f = .next { s with dev := settle s.dev (f (begin_ t s.dev)) } := rfl

/-- A run answers a property that holds of the settled device with the queue as it was. -/
theorem State.run_answers {t : Nat} {s : State} {f : Dev → Dev} {p : State → Prop} (h : p { s with dev := settle s.dev (f (begin_ t s.dev)) }) :
    Answers (s.run t f) p := ⟨_, rfl, h⟩

/-! ### The arms of `exec` -/

@[simp] theorem exec_vbatApplied (t : Nat) (s : State) : exec (.vbatApplied t) s = execVbatApplied t s := rfl
@[simp] theorem exec_vauxApplied (t : Nat) (b : BootIn) (s : State) : exec (.vauxApplied t b) s = execVauxApplied t b s := rfl
@[simp] theorem exec_vauxRemoved (t : Nat) (s : State) : exec (.vauxRemoved t) s = execVauxRemoved t s := rfl
@[simp] theorem exec_powerOn (t : Nat) (b : BootIn) (s : State) : exec (.powerOn t b) s = execPowerOn t b s := rfl
@[simp] theorem exec_mainRailsLost (t : Nat) (s : State) : exec (.mainRailsLost t) s = execMainRailsLost t s := rfl
@[simp] theorem exec_resetNAsserted (t : Nat) (b : BootIn) (s : State) : exec (.resetNAsserted t b) s = execResetNAsserted t b s := rfl
@[simp] theorem exec_bootSlotLoad (t : Nat) (damaged : Bool) (s : State) : exec (.bootSlotLoad t damaged) s = execBootSlotLoad t damaged s := rfl
@[simp] theorem exec_structureBuilt (t : Nat) (s : State) : exec (.structureBuilt t) s = execStructureBuilt t s := rfl
@[simp] theorem exec_enterRun (t : Nat) (s : State) : exec (.enterRun t) s = execEnterRun t s := rfl
@[simp] theorem exec_glbGo (t : Nat) (req : Nat) (s : State) : exec (.glbGo t req) s = execGlbGo t req s := rfl
@[simp] theorem exec_glbWrap (t : Nat) (req : Nat) (s : State) : exec (.glbWrap t req) s = execGlbWrap t req s := rfl
@[simp] theorem exec_cycleBoundary (t : Nat) (s : State) : exec (.cycleBoundary t) s = execCycleBoundary t s := rfl
@[simp] theorem exec_cmdOverrun (t : Nat) (ring : Fin 64) (qid : Nat) (s : State) : exec (.cmdOverrun t ring qid) s = execCmdOverrun t ring qid s := rfl
@[simp] theorem exec_nodeFrameReceive (t : Nat) (port : Fin 128) (cycle pos : Nat) (codeErr : Bool) (frame : List Byte) (s : State) : exec (.nodeFrameReceive t port cycle pos codeErr frame) s = execNodeFrameReceive t port cycle pos codeErr frame s := rfl
@[simp] theorem exec_frameHoldDeadline (t : Nat) (ring : Fin 64) (cycle addr ntype : Nat) (s : State) : exec (.frameHoldDeadline t ring cycle addr ntype) s = execFrameHoldDeadline t ring cycle addr ntype s := rfl
@[simp] theorem exec_cycReturn (t : Nat) (ring : Fin 64) (rot : Fin 2) (delay : Nat) (s : State) : exec (.cycReturn t ring rot delay) s = execCycReturn t ring rot delay s := rfl
@[simp] theorem exec_ringLong (t : Nat) (ring : Fin 64) (s : State) : exec (.ringLong t ring) s = execRingLong t ring s := rfl
@[simp] theorem exec_ringBreak (t : Nat) (ring : Fin 64) (s : State) : exec (.ringBreak t ring) s = execRingBreak t ring s := rfl
@[simp] theorem exec_ringRestored (t : Nat) (ring : Fin 64) (s : State) : exec (.ringRestored t ring) s = execRingRestored t ring s := rfl
@[simp] theorem exec_cycReceive (t : Nat) (ring : Fin 64) (rot : Fin 2) (orig : Fin 2) (s : State) : exec (.cycReceive t ring rot orig) s = execCycReceive t ring rot orig s := rfl
@[simp] theorem exec_lnkRingEnum (t : Nat) (req : Nat) (ring : Fin 64) (s : State) : exec (.lnkRingEnum t req ring) s = execLnkRingEnum t req ring s := rfl
@[simp] theorem exec_enumReply (t : Nat) (ring : Fin 64) (addr : Nat) (data : List Byte) (s : State) : exec (.enumReply t ring addr data) s = execEnumReply t ring addr data s := rfl
@[simp] theorem exec_enumEnd (t : Nat) (ring : Fin 64) (s : State) : exec (.enumEnd t ring) s = execEnumEnd t ring s := rfl
@[simp] theorem exec_lnkRingWake (t : Nat) (req : Nat) (ring : Fin 64) (s : State) : exec (.lnkRingWake t req ring) s = execLnkRingWake t req ring s := rfl
@[simp] theorem exec_lnkRingSleep (t : Nat) (req : Nat) (ring : Fin 64) (s : State) : exec (.lnkRingSleep t req ring) s = execLnkRingSleep t req ring s := rfl
@[simp] theorem exec_lnkPortEnable (t : Nat) (req : Nat) (port : Fin 128) (enable : Bool) (s : State) : exec (.lnkPortEnable t req port enable) s = execLnkPortEnable t req port enable s := rfl
@[simp] theorem exec_lnkPortWake (t : Nat) (req : Nat) (port : Fin 128) (value : Word) (s : State) : exec (.lnkPortWake t req port value) s = execLnkPortWake t req port value s := rfl
@[simp] theorem exec_ptpEventReceive (t : Nat) (port : Fin 4) (kind value : Nat) (s : State) : exec (.ptpEventReceive t port kind value) s = execPtpEventReceive t port kind value s := rfl
@[simp] theorem exec_ptpAnnounceReceive (t : Nat) (port : Fin 4) (dataset : List Nat) (utc : Option Int) (leap61 leap59 malformed : Bool) (s : State) : exec (.ptpAnnounceReceive t port dataset utc leap61 leap59 malformed) s = execPtpAnnounceReceive t port dataset utc leap61 leap59 malformed s := rfl
@[simp] theorem exec_ptpSourceTimeout (t : Nat) (port : Fin 4) (s : State) : exec (.ptpSourceTimeout t port) s = execPtpSourceTimeout t port s := rfl
@[simp] theorem exec_ppsEdge (t : Nat) (s : State) : exec (.ppsEdge t) s = execPpsEdge t s := rfl
@[simp] theorem exec_ppsEdgeMissing (t : Nat) (s : State) : exec (.ppsEdgeMissing t) s = execPpsEdgeMissing t s := rfl
@[simp] theorem exec_timebaseStep (t : Nat) (s : State) : exec (.timebaseStep t) s = execTimebaseStep t s := rfl
@[simp] theorem exec_slewComplete (t : Nat) (s : State) : exec (.slewComplete t) s = execSlewComplete t s := rfl
@[simp] theorem exec_tbTimeWrite (t : Nat) (req : Nat) (ns : Word) (s : State) : exec (.tbTimeWrite t req ns) s = execTbTimeWrite t req ns s := rfl
@[simp] theorem exec_holdoverSecond (t : Nat) (s : State) : exec (.holdoverSecond t) s = execHoldoverSecond t s := rfl
@[simp] theorem exec_tcompLearn (t : Nat) (s : State) : exec (.tcompLearn t) s = execTcompLearn t s := rfl
@[simp] theorem exec_refFail (t : Nat) (deviation : Nat) (s : State) : exec (.refFail t deviation) s = execRefFail t deviation s := rfl
@[simp] theorem exec_ref10Lost (t : Nat) (s : State) : exec (.ref10Lost t) s = execRef10Lost t s := rfl
@[simp] theorem exec_rtcUpdate (t : Nat) (s : State) : exec (.rtcUpdate t) s = execRtcUpdate t s := rfl
@[simp] theorem exec_slateSyncEdge (t : Nat) (dev : Int) (s : State) : exec (.slateSyncEdge t dev) s = execSlateSyncEdge t dev s := rfl
@[simp] theorem exec_syncLost (t : Nat) (s : State) : exec (.syncLost t) s = execSyncLost t s := rfl
@[simp] theorem exec_boardMasterElection (t : Nat) (s : State) : exec (.boardMasterElection t) s = execBoardMasterElection t s := rfl
@[simp] theorem exec_boardTime (t : Nat) (link : Fin 4) (codeErr : Bool) (frame : List Byte) (s : State) : exec (.boardTime t link codeErr frame) s = execBoardTime t link codeErr frame s := rfl
@[simp] theorem exec_twtt (t : Nat) (link : Fin 4) (codeErr : Bool) (frame : List Byte) (s : State) : exec (.twtt t link codeErr frame) s = execTwtt t link codeErr frame s := rfl
@[simp] theorem exec_tbUtcSet (t : Nat) (req : Nat) (value : Word) (s : State) : exec (.tbUtcSet t req value) s = execTbUtcSet t req value s := rfl
@[simp] theorem exec_swpSamplePacket (t : Nat) (ring : Fin 64) (qid : Nat) (s : State) : exec (.swpSamplePacket t ring qid) s = execSwpSamplePacket t ring qid s := rfl
@[simp] theorem exec_openWireEvaluate (t : Nat) (ring : Fin 64) (take : Nat) (s : State) : exec (.openWireEvaluate t ring take) s = execOpenWireEvaluate t ring take s := rfl
@[simp] theorem exec_swpOwClear (t : Nat) (req : Nat) (value : Word) (s : State) : exec (.swpOwClear t req value) s = execSwpOwClear t req value s := rfl
@[simp] theorem exec_balQuiet (t : Nat) (s : State) : exec (.balQuiet t) s = execBalQuiet t s := rfl
@[simp] theorem exec_balPlan (t : Nat) (s : State) : exec (.balPlan t) s = execBalPlan t s := rfl
@[simp] theorem exec_balClose (t : Nat) (s : State) : exec (.balClose t) s = execBalClose t s := rfl
@[simp] theorem exec_nodeWake (t : Nat) (port : Fin 128) (s : State) : exec (.nodeWake t port) s = execNodeWake t port s := rfl
@[simp] theorem exec_qfOpen (t : Nat) (req qid : Nat) (value : Item) (s : State) : exec (.qfOpen t req qid value) s = execQfOpen t req qid value s := rfl
@[simp] theorem exec_qfAppend (t : Nat) (req qid : Nat) (value : Item) (s : State) : exec (.qfAppend t req qid value) s = execQfAppend t req qid value s := rfl
@[simp] theorem exec_qfClose (t : Nat) (req qid : Nat) (value : Item) (s : State) : exec (.qfClose t req qid value) s = execQfClose t req qid value s := rfl
@[simp] theorem exec_qfPushSingle (t : Nat) (req qid : Nat) (value : Item) (s : State) : exec (.qfPushSingle t req qid value) s = execQfPushSingle t req qid value s := rfl
@[simp] theorem exec_qfPop (t : Nat) (req qid : Nat) (s : State) : exec (.qfPop t req qid) s = execQfPop t req qid s := rfl
@[simp] theorem exec_doorbellLowWrite (t : Nat) (req qid : Nat) (value : Word) (s : State) : exec (.doorbellLowWrite t req qid value) s = execDoorbellLowWrite t req qid value s := rfl
@[simp] theorem exec_doorbellHighRead (t : Nat) (req qid : Nat) (s : State) : exec (.doorbellHighRead t req qid) s = execDoorbellHighRead t req qid s := rfl
@[simp] theorem exec_hostPopTimeout (t : Nat) (req : Nat) (s : State) : exec (.hostPopTimeout t req) s = execHostPopTimeout t req s := rfl
@[simp] theorem exec_popWaitResume (t : Nat) (req qid : Nat) (s : State) : exec (.popWaitResume t req qid) s = execPopWaitResume t req qid s := rfl
@[simp] theorem exec_blockWaitResume (t : Nat) (qid : Nat) (s : State) : exec (.blockWaitResume t qid) s = execBlockWaitResume t qid s := rfl
@[simp] theorem exec_qfCut (t : Nat) (req qid : Nat) (s : State) : exec (.qfCut t req qid) s = execQfCut t req qid s := rfl
@[simp] theorem exec_qfAbort (t : Nat) (req qid : Nat) (s : State) : exec (.qfAbort t req qid) s = execQfAbort t req qid s := rfl
@[simp] theorem exec_qfRelease (t : Nat) (req qid : Nat) (s : State) : exec (.qfRelease t req qid) s = execQfRelease t req qid s := rfl
@[simp] theorem exec_qfFlush (t : Nat) (req qid : Nat) (s : State) : exec (.qfFlush t req qid) s = execQfFlush t req qid s := rfl
@[simp] theorem exec_lockReclaimProducer (t : Nat) (qid : Nat) (s : State) : exec (.lockReclaimProducer t qid) s = execLockReclaimProducer t qid s := rfl
@[simp] theorem exec_lockReclaimConsumer (t : Nat) (qid : Nat) (s : State) : exec (.lockReclaimConsumer t qid) s = execLockReclaimConsumer t qid s := rfl
@[simp] theorem exec_qstatRead (t : Nat) (req qid : Nat) (s : State) : exec (.qstatRead t req qid) s = execQstatRead t req qid s := rfl
@[simp] theorem exec_qstatWmClear (t : Nat) (req qid : Nat) (s : State) : exec (.qstatWmClear t req qid) s = execQstatWmClear t req qid s := rfl
@[simp] theorem exec_qstatLossClear (t : Nat) (req qid : Nat) (s : State) : exec (.qstatLossClear t req qid) s = execQstatLossClear t req qid s := rfl
@[simp] theorem exec_stallWarn (t : Nat) (qid : Nat) (s : State) : exec (.stallWarn t qid) s = execStallWarn t qid s := rfl
@[simp] theorem exec_qfEccUncorrectable (t : Nat) (qid pos : Nat) (descriptor : Bool) (s : State) : exec (.qfEccUncorrectable t qid pos descriptor) s = execQfEccUncorrectable t qid pos descriptor s := rfl
@[simp] theorem exec_estInputItem (t : Nat) (ring : Fin 64) (qid : Nat) (s : State) : exec (.estInputItem t ring qid) s = execEstInputItem t ring qid s := rfl
@[simp] theorem exec_takeClosure (t : Nat) (ring : Fin 64) (s : State) : exec (.takeClosure t ring) s = execTakeClosure t ring s := rfl
@[simp] theorem exec_resetImp (t : Nat) (req : Nat) (ch : Fin 131072) (s : State) : exec (.resetImp t req ch) s = execResetImp t req ch s := rfl
@[simp] theorem exec_resetCap (t : Nat) (req : Nat) (ch : Fin 131072) (s : State) : exec (.resetCap t req ch) s = execResetCap t req ch s := rfl
@[simp] theorem exec_resetEfc (t : Nat) (req : Nat) (ch : Fin 131072) (s : State) : exec (.resetEfc t req ch) s = execResetEfc t req ch s := rfl
@[simp] theorem exec_anchorFull (t : Nat) (req : Nat) (ch : Fin 131072) (s : State) : exec (.anchorFull t req ch) s = execAnchorFull t req ch s := rfl
@[simp] theorem exec_anchorEmpty (t : Nat) (req : Nat) (ch : Fin 131072) (s : State) : exec (.anchorEmpty t req ch) s = execAnchorEmpty t req ch s := rfl
@[simp] theorem exec_reportNow (t : Nat) (req : Nat) (ch : Fin 131072) (s : State) : exec (.reportNow t req ch) s = execReportNow t req ch s := rfl
@[simp] theorem exec_lpeInputItem (t : Nat) (ctx : Fin 512) (qid : Nat) (s : State) : exec (.lpeInputItem t ctx qid) s = execLpeInputItem t ctx qid s := rfl
@[simp] theorem exec_satExpired (t : Nat) (ctx : Fin 512) (s : State) : exec (.satExpired t ctx) s = execSatExpired t ctx s := rfl
@[simp] theorem exec_measurementLost (t : Nat) (ctx : Fin 512) (s : State) : exec (.measurementLost t ctx) s = execMeasurementLost t ctx s := rfl
@[simp] theorem exec_tickSkip (t : Nat) (ctx : Fin 512) (s : State) : exec (.tickSkip t ctx) s = execTickSkip t ctx s := rfl
@[simp] theorem exec_lpeResume (t : Nat) (req : Nat) (ctx : Fin 512) (s : State) : exec (.lpeResume t req ctx) s = execLpeResume t req ctx s := rfl
@[simp] theorem exec_lpeForceSafe (t : Nat) (req : Nat) (ctx : Fin 512) (s : State) : exec (.lpeForceSafe t req ctx) s = execLpeForceSafe t req ctx s := rfl
@[simp] theorem exec_lpeResetX (t : Nat) (req : Nat) (ctx : Fin 512) (s : State) : exec (.lpeResetX t req ctx) s = execLpeResetX t req ctx s := rfl
@[simp] theorem exec_dspInputRecord (t : Nat) (qid : Nat) (s : State) : exec (.dspInputRecord t qid) s = execDspInputRecord t qid s := rfl
@[simp] theorem exec_dspCanInput (t : Nat) (qid : Nat) (s : State) : exec (.dspCanInput t qid) s = execDspCanInput t qid s := rfl
@[simp] theorem exec_dspMirror (t : Nat) (link : Fin 4) (codeErr : Bool) (frame : List Byte) (s : State) : exec (.dspMirror t link codeErr frame) s = execDspMirror t link codeErr frame s := rfl
@[simp] theorem exec_dspUnmirrored (t : Nat) (s : State) : exec (.dspUnmirrored t) s = execDspUnmirrored t s := rfl
@[simp] theorem exec_derateGraceExpiry (t : Nat) (string : Fin 256) (s : State) : exec (.derateGraceExpiry t string) s = execDerateGraceExpiry t string s := rfl
@[simp] theorem exec_dspWatchdog (t : Nat) (s : State) : exec (.dspWatchdog t) s = execDspWatchdog t s := rfl
@[simp] theorem exec_ffrActive (t : Nat) (s : State) : exec (.ffrActive t) s = execFfrActive t s := rfl
@[simp] theorem exec_ffrEnd (t : Nat) (s : State) : exec (.ffrEnd t) s = execFfrEnd t s := rfl
@[simp] theorem exec_freqLost (t : Nat) (s : State) : exec (.freqLost t) s = execFreqLost t s := rfl
@[simp] theorem exec_dspSrcWrite (t : Nat) (req : Nat) (value : Word) (s : State) : exec (.dspSrcWrite t req value) s = execDspSrcWrite t req value s := rfl
@[simp] theorem exec_trwFrameAccept (t : Nat) (port : Fin 128) (cycle pos : Nat) (codeErr : Bool) (frame : List Byte) (s : State) : exec (.trwFrameAccept t port cycle pos codeErr frame) s = execTrwFrameAccept t port cycle pos codeErr frame s := rfl
@[simp] theorem exec_trwNotDelivered (t : Nat) (ring : Fin 64) (cycle addr ntype : Nat) (s : State) : exec (.trwNotDelivered t ring cycle addr ntype) s = execTrwNotDelivered t ring cycle addr ntype s := rfl
@[simp] theorem exec_trwStrReset (t : Nat) (req : Nat) (string : Fin 256) (s : State) : exec (.trwStrReset t req string) s = execTrwStrReset t req string s := rfl
@[simp] theorem exec_trwResetGlobal (t : Nat) (req : Nat) (s : State) : exec (.trwResetGlobal t req) s = execTrwResetGlobal t req s := rfl
@[simp] theorem exec_estopFireInput (t : Nat) (input : Fin 8) (level : Bool) (s : State) : exec (.estopFireInput t input level) s = execEstopFireInput t input level s := rfl
@[simp] theorem exec_safetyFrameReceive (t : Nat) (port : Fin 2) (payload : List Byte) (s : State) : exec (.safetyFrameReceive t port payload) s = execSafetyFrameReceive t port payload s := rfl
@[simp] theorem exec_sfSingle (t : Nat) (seq : Nat) (s : State) : exec (.sfSingle t seq) s = execSfSingle t seq s := rfl
@[simp] theorem exec_sfTimeout (t : Nat) (s : State) : exec (.sfTimeout t) s = execSfTimeout t s := rfl
@[simp] theorem exec_sfStatusSend (t : Nat) (s : State) : exec (.sfStatusSend t) s = execSfStatusSend t s := rfl
@[simp] theorem exec_feedbackMismatch (t : Nat) (output : Fin 6) (s : State) : exec (.feedbackMismatch t output) s = execFeedbackMismatch t output s := rfl
@[simp] theorem exec_trwStoreCheck (t : Nat) (found : Nat) (uncorrectable : Bool) (s : State) : exec (.trwStoreCheck t found uncorrectable) s = execTrwStoreCheck t found uncorrectable s := rfl
@[simp] theorem exec_trwCfgWrite (t : Nat) (req off : Nat) (value : Word) (s : State) : exec (.trwCfgWrite t req off value) s = execTrwCfgWrite t req off value s := rfl
@[simp] theorem exec_pPermitWrite (t : Nat) (req : Nat) (ring : Fin 64) (head : Fin 8) (bank : Fin 4) (value : Word) (s : State) : exec (.pPermitWrite t req ring head bank value) s = execPPermitWrite t req ring head bank value s := rfl
@[simp] theorem exec_trwPTripWrite (t : Nat) (req : Nat) (value : Word) (s : State) : exec (.trwPTripWrite t req value) s = execTrwPTripWrite t req value s := rfl
@[simp] theorem exec_trwTestGo (t : Nat) (req : Nat) (string : Fin 256) (s : State) : exec (.trwTestGo t req string) s = execTrwTestGo t req string s := rfl
@[simp] theorem exec_trwTestAbort (t : Nat) (req : Nat) (s : State) : exec (.trwTestAbort t req) s = execTrwTestAbort t req s := rfl
@[simp] theorem exec_testStepLimit (t : Nat) (s : State) : exec (.testStepLimit t) s = execTestStepLimit t s := rfl
@[simp] theorem exec_testDue (t : Nat) (string : Fin 256) (s : State) : exec (.testDue t string) s = execTestDue t string s := rfl
@[simp] theorem exec_voterCompare (t : Nat) (tr : Fin 4) (ents : List CEntry) (s : State) : exec (.voterCompare t tr ents) s = execVoterCompare t tr ents s := rfl
@[simp] theorem exec_trdReadmit (t : Nat) (req : Nat) (tr : Fin 4) (lane : Fin 4) (s : State) : exec (.trdReadmit t req tr lane) s = execTrdReadmit t req tr lane s := rfl
@[simp] theorem exec_trdReadmitCancel (t : Nat) (req : Nat) (tr : Fin 4) (s : State) : exec (.trdReadmitCancel t req tr) s = execTrdReadmitCancel t req tr s := rfl
@[simp] theorem exec_laneSelftestDone (t : Nat) (tr : Fin 4) (lane : Nat) (pass : Bool) (s : State) : exec (.laneSelftestDone t tr lane pass) s = execLaneSelftestDone t tr lane pass s := rfl
@[simp] theorem exec_trdRestart (t : Nat) (req : Nat) (tr : Fin 4) (lanes : Fin 8) (s : State) : exec (.trdRestart t req tr lanes) s = execTrdRestart t req tr lanes s := rfl
@[simp] theorem exec_trdWdogExpiry (t : Nat) (tr : Fin 4) (l : Fin 3) (s : State) : exec (.trdWdogExpiry t tr l) s = execTrdWdogExpiry t tr l s := rfl
@[simp] theorem exec_trdWdogKick (t : Nat) (req : Nat) (tr : Fin 4) (value : Word) (s : State) : exec (.trdWdogKick t req tr value) s = execTrdWdogKick t req tr value s := rfl
@[simp] theorem exec_trdWdogWrite (t : Nat) (req : Nat) (tr : Fin 4) (value : Word) (s : State) : exec (.trdWdogWrite t req tr value) s = execTrdWdogWrite t req tr value s := rfl
@[simp] theorem exec_busLockRevoke (t : Nat) (s : State) : exec (.busLockRevoke t) s = execBusLockRevoke t s := rfl
@[simp] theorem exec_debugHalt (t : Nat) (tr : Fin 4) (lane : Nat) (dbgEn : Bool) (s : State) : exec (.debugHalt t tr lane dbgEn) s = execDebugHalt t tr lane dbgEn s := rfl
@[simp] theorem exec_debugResume (t : Nat) (tr : Fin 4) (lane : Nat) (dbgEn : Bool) (s : State) : exec (.debugResume t tr lane dbgEn) s = execDebugResume t tr lane dbgEn s := rfl
@[simp] theorem exec_debugCommand (t : Nat) (tr : Fin 4) (lane op addr : Nat) (value : Word) (dbgEn : Bool) (s : State) : exec (.debugCommand t tr lane op addr value dbgEn) s = execDebugCommand t tr lane op addr value dbgEn s := rfl
@[simp] theorem exec_add (t : Nat) (tr : Fin 4) (l : Fin 6) (rd ra rb : Fin 32) (s : State) : exec (.add t tr l rd ra rb) s = execAdd t tr l rd ra rb s := rfl
@[simp] theorem exec_sub (t : Nat) (tr : Fin 4) (l : Fin 6) (rd ra rb : Fin 32) (s : State) : exec (.sub t tr l rd ra rb) s = execSub t tr l rd ra rb s := rfl
@[simp] theorem exec_addo (t : Nat) (tr : Fin 4) (l : Fin 6) (rd ra rb : Fin 32) (s : State) : exec (.addo t tr l rd ra rb) s = execAddo t tr l rd ra rb s := rfl
@[simp] theorem exec_subo (t : Nat) (tr : Fin 4) (l : Fin 6) (rd ra rb : Fin 32) (s : State) : exec (.subo t tr l rd ra rb) s = execSubo t tr l rd ra rb s := rfl
@[simp] theorem exec_neg (t : Nat) (tr : Fin 4) (l : Fin 6) (rd ra : Fin 32) (s : State) : exec (.neg t tr l rd ra) s = execNeg t tr l rd ra s := rfl
@[simp] theorem exec_abs (t : Nat) (tr : Fin 4) (l : Fin 6) (rd ra : Fin 32) (s : State) : exec (.abs t tr l rd ra) s = execAbs t tr l rd ra s := rfl
@[simp] theorem exec_and (t : Nat) (tr : Fin 4) (l : Fin 6) (rd ra rb : Fin 32) (s : State) : exec (.and t tr l rd ra rb) s = execAnd t tr l rd ra rb s := rfl
@[simp] theorem exec_or (t : Nat) (tr : Fin 4) (l : Fin 6) (rd ra rb : Fin 32) (s : State) : exec (.or t tr l rd ra rb) s = execOr t tr l rd ra rb s := rfl
@[simp] theorem exec_xor (t : Nat) (tr : Fin 4) (l : Fin 6) (rd ra rb : Fin 32) (s : State) : exec (.xor t tr l rd ra rb) s = execXor t tr l rd ra rb s := rfl
@[simp] theorem exec_nor (t : Nat) (tr : Fin 4) (l : Fin 6) (rd ra rb : Fin 32) (s : State) : exec (.nor t tr l rd ra rb) s = execNor t tr l rd ra rb s := rfl
@[simp] theorem exec_andn (t : Nat) (tr : Fin 4) (l : Fin 6) (rd ra rb : Fin 32) (s : State) : exec (.andn t tr l rd ra rb) s = execAndn t tr l rd ra rb s := rfl
@[simp] theorem exec_sll (t : Nat) (tr : Fin 4) (l : Fin 6) (rd ra rb : Fin 32) (s : State) : exec (.sll t tr l rd ra rb) s = execSll t tr l rd ra rb s := rfl
@[simp] theorem exec_srl (t : Nat) (tr : Fin 4) (l : Fin 6) (rd ra rb : Fin 32) (s : State) : exec (.srl t tr l rd ra rb) s = execSrl t tr l rd ra rb s := rfl
@[simp] theorem exec_sra (t : Nat) (tr : Fin 4) (l : Fin 6) (rd ra rb : Fin 32) (s : State) : exec (.sra t tr l rd ra rb) s = execSra t tr l rd ra rb s := rfl
@[simp] theorem exec_ror (t : Nat) (tr : Fin 4) (l : Fin 6) (rd ra rb : Fin 32) (s : State) : exec (.ror t tr l rd ra rb) s = execRor t tr l rd ra rb s := rfl
@[simp] theorem exec_rol (t : Nat) (tr : Fin 4) (l : Fin 6) (rd ra rb : Fin 32) (s : State) : exec (.rol t tr l rd ra rb) s = execRol t tr l rd ra rb s := rfl
@[simp] theorem exec_slt (t : Nat) (tr : Fin 4) (l : Fin 6) (rd ra rb : Fin 32) (s : State) : exec (.slt t tr l rd ra rb) s = execSlt t tr l rd ra rb s := rfl
@[simp] theorem exec_sltu (t : Nat) (tr : Fin 4) (l : Fin 6) (rd ra rb : Fin 32) (s : State) : exec (.sltu t tr l rd ra rb) s = execSltu t tr l rd ra rb s := rfl
@[simp] theorem exec_min (t : Nat) (tr : Fin 4) (l : Fin 6) (rd ra rb : Fin 32) (s : State) : exec (.min t tr l rd ra rb) s = execMin t tr l rd ra rb s := rfl
@[simp] theorem exec_max (t : Nat) (tr : Fin 4) (l : Fin 6) (rd ra rb : Fin 32) (s : State) : exec (.max t tr l rd ra rb) s = execMax t tr l rd ra rb s := rfl
@[simp] theorem exec_minu (t : Nat) (tr : Fin 4) (l : Fin 6) (rd ra rb : Fin 32) (s : State) : exec (.minu t tr l rd ra rb) s = execMinu t tr l rd ra rb s := rfl
@[simp] theorem exec_maxu (t : Nat) (tr : Fin 4) (l : Fin 6) (rd ra rb : Fin 32) (s : State) : exec (.maxu t tr l rd ra rb) s = execMaxu t tr l rd ra rb s := rfl
@[simp] theorem exec_mul (t : Nat) (tr : Fin 4) (l : Fin 6) (rd ra rb : Fin 32) (s : State) : exec (.mul t tr l rd ra rb) s = execMul t tr l rd ra rb s := rfl
@[simp] theorem exec_mulh (t : Nat) (tr : Fin 4) (l : Fin 6) (rd ra rb : Fin 32) (s : State) : exec (.mulh t tr l rd ra rb) s = execMulh t tr l rd ra rb s := rfl
@[simp] theorem exec_mulhu (t : Nat) (tr : Fin 4) (l : Fin 6) (rd ra rb : Fin 32) (s : State) : exec (.mulhu t tr l rd ra rb) s = execMulhu t tr l rd ra rb s := rfl
@[simp] theorem exec_div (t : Nat) (tr : Fin 4) (l : Fin 6) (rd ra rb : Fin 32) (s : State) : exec (.div t tr l rd ra rb) s = execDiv t tr l rd ra rb s := rfl
@[simp] theorem exec_divu (t : Nat) (tr : Fin 4) (l : Fin 6) (rd ra rb : Fin 32) (s : State) : exec (.divu t tr l rd ra rb) s = execDivu t tr l rd ra rb s := rfl
@[simp] theorem exec_rem (t : Nat) (tr : Fin 4) (l : Fin 6) (rd ra rb : Fin 32) (s : State) : exec (.rem t tr l rd ra rb) s = execRem t tr l rd ra rb s := rfl
@[simp] theorem exec_remu (t : Nat) (tr : Fin 4) (l : Fin 6) (rd ra rb : Fin 32) (s : State) : exec (.remu t tr l rd ra rb) s = execRemu t tr l rd ra rb s := rfl
@[simp] theorem exec_clz (t : Nat) (tr : Fin 4) (l : Fin 6) (rd ra : Fin 32) (s : State) : exec (.clz t tr l rd ra) s = execClz t tr l rd ra s := rfl
@[simp] theorem exec_popc (t : Nat) (tr : Fin 4) (l : Fin 6) (rd ra : Fin 32) (s : State) : exec (.popc t tr l rd ra) s = execPopc t tr l rd ra s := rfl
@[simp] theorem exec_addi (t : Nat) (tr : Fin 4) (l : Fin 6) (rd ra : Fin 32) (imm : BitVec 16) (s : State) : exec (.addi t tr l rd ra imm) s = execAddi t tr l rd ra imm s := rfl
@[simp] theorem exec_slti (t : Nat) (tr : Fin 4) (l : Fin 6) (rd ra : Fin 32) (imm : BitVec 16) (s : State) : exec (.slti t tr l rd ra imm) s = execSlti t tr l rd ra imm s := rfl
@[simp] theorem exec_sltiu (t : Nat) (tr : Fin 4) (l : Fin 6) (rd ra : Fin 32) (imm : BitVec 16) (s : State) : exec (.sltiu t tr l rd ra imm) s = execSltiu t tr l rd ra imm s := rfl
@[simp] theorem exec_andi (t : Nat) (tr : Fin 4) (l : Fin 6) (rd ra : Fin 32) (imm : BitVec 16) (s : State) : exec (.andi t tr l rd ra imm) s = execAndi t tr l rd ra imm s := rfl
@[simp] theorem exec_ori (t : Nat) (tr : Fin 4) (l : Fin 6) (rd ra : Fin 32) (imm : BitVec 16) (s : State) : exec (.ori t tr l rd ra imm) s = execOri t tr l rd ra imm s := rfl
@[simp] theorem exec_xori (t : Nat) (tr : Fin 4) (l : Fin 6) (rd ra : Fin 32) (imm : BitVec 16) (s : State) : exec (.xori t tr l rd ra imm) s = execXori t tr l rd ra imm s := rfl
@[simp] theorem exec_lui (t : Nat) (tr : Fin 4) (l : Fin 6) (rd : Fin 32) (imm : BitVec 16) (s : State) : exec (.lui t tr l rd imm) s = execLui t tr l rd imm s := rfl
@[simp] theorem exec_slli (t : Nat) (tr : Fin 4) (l : Fin 6) (rd ra : Fin 32) (n : BitVec 8) (s : State) : exec (.slli t tr l rd ra n) s = execSlli t tr l rd ra n s := rfl
@[simp] theorem exec_srli (t : Nat) (tr : Fin 4) (l : Fin 6) (rd ra : Fin 32) (n : BitVec 8) (s : State) : exec (.srli t tr l rd ra n) s = execSrli t tr l rd ra n s := rfl
@[simp] theorem exec_srai (t : Nat) (tr : Fin 4) (l : Fin 6) (rd ra : Fin 32) (n : BitVec 8) (s : State) : exec (.srai t tr l rd ra n) s = execSrai t tr l rd ra n s := rfl
@[simp] theorem exec_rori (t : Nat) (tr : Fin 4) (l : Fin 6) (rd ra : Fin 32) (n : BitVec 8) (s : State) : exec (.rori t tr l rd ra n) s = execRori t tr l rd ra n s := rfl
@[simp] theorem exec_lw (t : Nat) (tr : Fin 4) (l : Fin 6) (rd ra : Fin 32) (imm : BitVec 16) (ecc : List (Nat × Bool)) (s : State) : exec (.lw t tr l rd ra imm ecc) s = execLw t tr l rd ra imm ecc s := rfl
@[simp] theorem exec_lh (t : Nat) (tr : Fin 4) (l : Fin 6) (rd ra : Fin 32) (imm : BitVec 16) (ecc : List (Nat × Bool)) (s : State) : exec (.lh t tr l rd ra imm ecc) s = execLh t tr l rd ra imm ecc s := rfl
@[simp] theorem exec_lhu (t : Nat) (tr : Fin 4) (l : Fin 6) (rd ra : Fin 32) (imm : BitVec 16) (ecc : List (Nat × Bool)) (s : State) : exec (.lhu t tr l rd ra imm ecc) s = execLhu t tr l rd ra imm ecc s := rfl
@[simp] theorem exec_lb (t : Nat) (tr : Fin 4) (l : Fin 6) (rd ra : Fin 32) (imm : BitVec 16) (ecc : List (Nat × Bool)) (s : State) : exec (.lb t tr l rd ra imm ecc) s = execLb t tr l rd ra imm ecc s := rfl
@[simp] theorem exec_lbu (t : Nat) (tr : Fin 4) (l : Fin 6) (rd ra : Fin 32) (imm : BitVec 16) (ecc : List (Nat × Bool)) (s : State) : exec (.lbu t tr l rd ra imm ecc) s = execLbu t tr l rd ra imm ecc s := rfl
@[simp] theorem exec_sw (t : Nat) (tr : Fin 4) (l : Fin 6) (rs ra : Fin 32) (imm : BitVec 16) (s : State) : exec (.sw t tr l rs ra imm) s = execSw t tr l rs ra imm s := rfl
@[simp] theorem exec_sh (t : Nat) (tr : Fin 4) (l : Fin 6) (rs ra : Fin 32) (imm : BitVec 16) (s : State) : exec (.sh t tr l rs ra imm) s = execSh t tr l rs ra imm s := rfl
@[simp] theorem exec_sb (t : Nat) (tr : Fin 4) (l : Fin 6) (rs ra : Fin 32) (imm : BitVec 16) (s : State) : exec (.sb t tr l rs ra imm) s = execSb t tr l rs ra imm s := rfl
@[simp] theorem exec_beq (t : Nat) (tr : Fin 4) (l : Fin 6) (ra rb : Fin 32) (off : BitVec 16) (s : State) : exec (.beq t tr l ra rb off) s = execBeq t tr l ra rb off s := rfl
@[simp] theorem exec_bne (t : Nat) (tr : Fin 4) (l : Fin 6) (ra rb : Fin 32) (off : BitVec 16) (s : State) : exec (.bne t tr l ra rb off) s = execBne t tr l ra rb off s := rfl
@[simp] theorem exec_blt (t : Nat) (tr : Fin 4) (l : Fin 6) (ra rb : Fin 32) (off : BitVec 16) (s : State) : exec (.blt t tr l ra rb off) s = execBlt t tr l ra rb off s := rfl
@[simp] theorem exec_bge (t : Nat) (tr : Fin 4) (l : Fin 6) (ra rb : Fin 32) (off : BitVec 16) (s : State) : exec (.bge t tr l ra rb off) s = execBge t tr l ra rb off s := rfl
@[simp] theorem exec_bltu (t : Nat) (tr : Fin 4) (l : Fin 6) (ra rb : Fin 32) (off : BitVec 16) (s : State) : exec (.bltu t tr l ra rb off) s = execBltu t tr l ra rb off s := rfl
@[simp] theorem exec_bgeu (t : Nat) (tr : Fin 4) (l : Fin 6) (ra rb : Fin 32) (off : BitVec 16) (s : State) : exec (.bgeu t tr l ra rb off) s = execBgeu t tr l ra rb off s := rfl
@[simp] theorem exec_j (t : Nat) (tr : Fin 4) (l : Fin 6) (off : BitVec 26) (s : State) : exec (.j t tr l off) s = execJ t tr l off s := rfl
@[simp] theorem exec_jal (t : Nat) (tr : Fin 4) (l : Fin 6) (off : BitVec 26) (s : State) : exec (.jal t tr l off) s = execJal t tr l off s := rfl
@[simp] theorem exec_jalr (t : Nat) (tr : Fin 4) (l : Fin 6) (rd ra : Fin 32) (imm : BitVec 16) (s : State) : exec (.jalr t tr l rd ra imm) s = execJalr t tr l rd ra imm s := rfl
@[simp] theorem exec_qpush (t : Nat) (tr : Fin 4) (l : Fin 6) (rp ra rd : Fin 32) (s : State) : exec (.qpush t tr l rp ra rd) s = execQpush t tr l rp ra rd s := rfl
@[simp] theorem exec_qpop (t : Nat) (tr : Fin 4) (l : Fin 6) (rp ra rd : Fin 32) (s : State) : exec (.qpop t tr l rp ra rd) s = execQpop t tr l rp ra rd s := rfl
@[simp] theorem exec_qpopt (t : Nat) (tr : Fin 4) (l : Fin 6) (rp ra rd : Fin 32) (tmo : BitVec 8) (s : State) : exec (.qpopt t tr l rp ra rd tmo) s = execQpopt t tr l rp ra rd tmo s := rfl
@[simp] theorem exec_qcut (t : Nat) (tr : Fin 4) (l : Fin 6) (ra rd : Fin 32) (s : State) : exec (.qcut t tr l ra rd) s = execQcut t tr l ra rd s := rfl
@[simp] theorem exec_qabort (t : Nat) (tr : Fin 4) (l : Fin 6) (ra rd : Fin 32) (s : State) : exec (.qabort t tr l ra rd) s = execQabort t tr l ra rd s := rfl
@[simp] theorem exec_qrelease (t : Nat) (tr : Fin 4) (l : Fin 6) (ra rd : Fin 32) (s : State) : exec (.qrelease t tr l ra rd) s = execQrelease t tr l ra rd s := rfl
@[simp] theorem exec_qpush2 (t : Nat) (tr : Fin 4) (l : Fin 6) (rp ra rd : Fin 32) (s : State) : exec (.qpush2 t tr l rp ra rd) s = execQpush2 t tr l rp ra rd s := rfl
@[simp] theorem exec_qpusht (t : Nat) (tr : Fin 4) (l : Fin 6) (rp ra rd : Fin 32) (tmo : BitVec 8) (s : State) : exec (.qpusht t tr l rp ra rd tmo) s = execQpusht t tr l rp ra rd tmo s := rfl
@[simp] theorem exec_queueWaitTimeout (t : Nat) (tr : Fin 4) (l : Fin 6) (s : State) : exec (.queueWaitTimeout t tr l) s = execQueueWaitTimeout t tr l s := rfl
@[simp] theorem exec_nop (t : Nat) (tr : Fin 4) (l : Fin 6) (s : State) : exec (.nop t tr l) s = execNop t tr l s := rfl
@[simp] theorem exec_mfsr (t : Nat) (tr : Fin 4) (l : Fin 6) (rd sr : Fin 32) (s : State) : exec (.mfsr t tr l rd sr) s = execMfsr t tr l rd sr s := rfl
@[simp] theorem exec_mtsr (t : Nat) (tr : Fin 4) (l : Fin 6) (sr ra : Fin 32) (s : State) : exec (.mtsr t tr l sr ra) s = execMtsr t tr l sr ra s := rfl
@[simp] theorem exec_tbr (t : Nat) (tr : Fin 4) (l : Fin 6) (rd sel : Fin 32) (s : State) : exec (.tbr t tr l rd sel) s = execTbr t tr l rd sel s := rfl
@[simp] theorem exec_wait (t : Nat) (tr : Fin 4) (l : Fin 6) (rd ra rb : Fin 32) (s : State) : exec (.wait t tr l rd ra rb) s = execWait t tr l rd ra rb s := rfl
@[simp] theorem exec_waitWake (t : Nat) (tr : Fin 4) (l : Fin 6) (s : State) : exec (.waitWake t tr l) s = execWaitWake t tr l s := rfl
@[simp] theorem exec_syncpt (t : Nat) (tr : Fin 4) (l : Fin 6) (crcOk : Bool) (s : State) : exec (.syncpt t tr l crcOk) s = execSyncpt t tr l crcOk s := rfl
@[simp] theorem exec_lock (t : Nat) (tr : Fin 4) (l : Fin 6) (rd : Fin 32) (s : State) : exec (.lock t tr l rd) s = execLock t tr l rd s := rfl
@[simp] theorem exec_unlock (t : Nat) (tr : Fin 4) (l : Fin 6) (rd : Fin 32) (s : State) : exec (.unlock t tr l rd) s = execUnlock t tr l rd s := rfl
@[simp] theorem exec_trap (t : Nat) (tr : Fin 4) (l : Fin 6) (code : Fin 32) (s : State) : exec (.trap t tr l code) s = execTrap t tr l code s := rfl
@[simp] theorem exec_rte (t : Nat) (tr : Fin 4) (l : Fin 6) (s : State) : exec (.rte t tr l) s = execRte t tr l s := rfl
@[simp] theorem exec_halt (t : Nat) (tr : Fin 4) (l : Fin 6) (s : State) : exec (.halt t tr l) s = execHalt t tr l s := rfl
@[simp] theorem exec_presenceSend (t : Nat) (s : State) : exec (.presenceSend t) s = execPresenceSend t s := rfl
@[simp] theorem exec_presenceReceive (t : Nat) (link : Fin 4) (codeErr : Bool) (frame : List Byte) (s : State) : exec (.presenceReceive t link codeErr frame) s = execPresenceReceive t link codeErr frame s := rfl
@[simp] theorem exec_roleResolveTimeout (t : Nat) (s : State) : exec (.roleResolveTimeout t) s = execRoleResolveTimeout t s := rfl
@[simp] theorem exec_leaseExpiry (t : Nat) (s : State) : exec (.leaseExpiry t) s = execLeaseExpiry t s := rfl
@[simp] theorem exec_gatesOpen (t : Nat) (s : State) : exec (.gatesOpen t) s = execGatesOpen t s := rfl
@[simp] theorem exec_takeover (t : Nat) (link : Fin 4) (codeErr : Bool) (frame : List Byte) (s : State) : exec (.takeover t link codeErr frame) s = execTakeover t link codeErr frame s := rfl
@[simp] theorem exec_partnerLost (t : Nat) (s : State) : exec (.partnerLost t) s = execPartnerLost t s := rfl
@[simp] theorem exec_streamAbsentOriginate (t : Nat) (ring : Fin 64) (s : State) : exec (.streamAbsentOriginate t ring) s = execStreamAbsentOriginate t ring s := rfl
@[simp] theorem exec_accept (t : Nat) (link : Fin 4) (codeErr : Bool) (frame : List Byte) (s : State) : exec (.accept t link codeErr frame) s = execAccept t link codeErr frame s := rfl
@[simp] theorem exec_content (t : Nat) (link : Fin 4) (codeErr : Bool) (frame : List Byte) (s : State) : exec (.content t link codeErr frame) s = execContent t link codeErr frame s := rfl
@[simp] theorem exec_want (t : Nat) (link : Fin 4) (codeErr : Bool) (frame : List Byte) (s : State) : exec (.want t link codeErr frame) s = execWant t link codeErr frame s := rfl
@[simp] theorem exec_mirrorMiss (t : Nat) (ring : Fin 64) (cycle addr ntype : Nat) (s : State) : exec (.mirrorMiss t ring cycle addr ntype) s = execMirrorMiss t ring cycle addr ntype s := rfl
@[simp] theorem exec_compare (t : Nat) (link : Fin 4) (codeErr : Bool) (frame : List Byte) (s : State) : exec (.compare t link codeErr frame) s = execCompare t link codeErr frame s := rfl
@[simp] theorem exec_state (t : Nat) (link : Fin 4) (codeErr : Bool) (frame : List Byte) (s : State) : exec (.state t link codeErr frame) s = execState t link codeErr frame s := rfl
@[simp] theorem exec_takeSync (t : Nat) (link : Fin 4) (codeErr : Bool) (frame : List Byte) (s : State) : exec (.takeSync t link codeErr frame) s = execTakeSync t link codeErr frame s := rfl
@[simp] theorem exec_sinSwitch (t : Nat) (req : Nat) (s : State) : exec (.sinSwitch t req) s = execSinSwitch t req s := rfl
@[simp] theorem exec_switchAbort (t : Nat) (req : Nat) (s : State) : exec (.switchAbort t req) s = execSwitchAbort t req s := rfl
@[simp] theorem exec_switch (t : Nat) (link : Fin 4) (codeErr : Bool) (frame : List Byte) (s : State) : exec (.switch t link codeErr frame) s = execSwitch t link codeErr frame s := rfl
@[simp] theorem exec_switchNoAck (t : Nat) (s : State) : exec (.switchNoAck t) s = execSwitchNoAck t s := rfl
@[simp] theorem exec_switchBoundary (t : Nat) (s : State) : exec (.switchBoundary t) s = execSwitchBoundary t s := rfl
@[simp] theorem exec_note (t : Nat) (link : Fin 4) (codeErr : Bool) (frame : List Byte) (s : State) : exec (.note t link codeErr frame) s = execNote t link codeErr frame s := rfl
@[simp] theorem exec_peerDown (t : Nat) (link : Fin 4) (alignment : Bool) (s : State) : exec (.peerDown t link alignment) s = execPeerDown t link alignment s := rfl
@[simp] theorem exec_peerUp (t : Nat) (link : Fin 4) (s : State) : exec (.peerUp t link) s = execPeerUp t link s := rfl
@[simp] theorem exec_cutReady (t : Nat) (link : Fin 4) (codeErr : Bool) (frame : List Byte) (s : State) : exec (.cutReady t link codeErr frame) s = execCutReady t link codeErr frame s := rfl
@[simp] theorem exec_splice (t : Nat) (link : Fin 4) (codeErr : Bool) (frame : List Byte) (s : State) : exec (.splice t link codeErr frame) s = execSplice t link codeErr frame s := rfl
@[simp] theorem exec_imgRxPush (t : Nat) (req : Nat) (value : Word) (s : State) : exec (.imgRxPush t req value) s = execImgRxPush t req value s := rfl
@[simp] theorem exec_rxSessionTimeout (t : Nat) (s : State) : exec (.rxSessionTimeout t) s = execRxSessionTimeout t s := rfl
@[simp] theorem exec_imgRxAbort (t : Nat) (req : Nat) (value : Word) (s : State) : exec (.imgRxAbort t req value) s = execImgRxAbort t req value s := rfl
@[simp] theorem exec_slotWriteDone (t : Nat) (fail : Option Nat) (s : State) : exec (.slotWriteDone t fail) s = execSlotWriteDone t fail s := rfl
@[simp] theorem exec_imgKeyGo (t : Nat) (req : Nat) (value : Word) (s : State) : exec (.imgKeyGo t req value) s = execImgKeyGo t req value s := rfl
@[simp] theorem exec_keyFuseDone (t : Nat) (ok : Bool) (back : List Byte) (valid : Bool) (s : State) : exec (.keyFuseDone t ok back valid) s = execKeyFuseDone t ok back valid s := rfl
@[simp] theorem exec_imgCommit (t : Nat) (req : Nat) (value : Word) (s : State) : exec (.imgCommit t req value) s = execImgCommit t req value s := rfl
@[simp] theorem exec_imgCutArm (t : Nat) (req : Nat) (value : Word) (s : State) : exec (.imgCutArm t req value) s = execImgCutArm t req value s := rfl
@[simp] theorem exec_shadowBuilt (t : Nat) (damaged : Bool) (s : State) : exec (.shadowBuilt t damaged) s = execShadowBuilt t damaged s := rfl
@[simp] theorem exec_cutover (t : Nat) (s : State) : exec (.cutover t) s = execCutover t s := rfl
@[simp] theorem exec_cutMissed (t : Nat) (s : State) : exec (.cutMissed t) s = execCutMissed t s := rfl
@[simp] theorem exec_imgCutDisarm (t : Nat) (req : Nat) (value : Word) (s : State) : exec (.imgCutDisarm t req value) s = execImgCutDisarm t req value s := rfl
@[simp] theorem exec_imgActivate (t : Nat) (req : Nat) (value : Word) (s : State) : exec (.imgActivate t req value) s = execImgActivate t req value s := rfl
@[simp] theorem exec_activateBuildDone (t : Nat) (damaged : Bool) (s : State) : exec (.activateBuildDone t damaged) s = execActivateBuildDone t damaged s := rfl
@[simp] theorem exec_ethFrameReceive (t : Nat) (port : Fin 4) (frame : List Byte) (s : State) : exec (.ethFrameReceive t port frame) s = execEthFrameReceive t port frame s := rfl
@[simp] theorem exec_ethLinkChange (t : Nat) (port : Fin 4) (up : Bool) (speed : Fin 4) (s : State) : exec (.ethLinkChange t port up speed) s = execEthLinkChange t port up speed s := rfl
@[simp] theorem exec_prpSupervisionSend (t : Nat) (pair : Fin 2) (s : State) : exec (.prpSupervisionSend t pair) s = execPrpSupervisionSend t pair s := rfl
@[simp] theorem exec_prpPathSilent (t : Nat) (port : Fin 4) (s : State) : exec (.prpPathSilent t port) s = execPrpPathSilent t port s := rfl
@[simp] theorem exec_macsecTxSwitch (t : Nat) (port : Fin 4) (s : State) : exec (.macsecTxSwitch t port) s = execMacsecTxSwitch t port s := rfl
@[simp] theorem exec_macsecOldRxRemove (t : Nat) (port : Fin 4) (s : State) : exec (.macsecOldRxRemove t port) s = execMacsecOldRxRemove t port s := rfl
@[simp] theorem exec_egressUnitTake (t : Nat) (port : Fin 4) (qid : Nat) (s : State) : exec (.egressUnitTake t port qid) s = execEgressUnitTake t port qid s := rfl
@[simp] theorem exec_telemetryFlush (t : Nat) (binding : Fin 32) (s : State) : exec (.telemetryFlush t binding) s = execTelemetryFlush t binding s := rfl
@[simp] theorem exec_cwpRequest (t : Nat) (port : Fin 4) (s : State) : exec (.cwpRequest t port) s = execCwpRequest t port s := rfl
@[simp] theorem exec_cwpOpen (t : Nat) (port : Fin 4) (s : State) : exec (.cwpOpen t port) s = execCwpOpen t port s := rfl
@[simp] theorem exec_cwpClose (t : Nat) (port : Fin 4) (s : State) : exec (.cwpClose t port) s = execCwpClose t port s := rfl
@[simp] theorem exec_cwpIdleTimeout (t : Nat) (session : Fin 64) (s : State) : exec (.cwpIdleTimeout t session) s = execCwpIdleTimeout t session s := rfl
@[simp] theorem exec_pcieLinkChange (t : Nat) (up : Bool) (speed : Fin 4) (width : Fin 4) (bme0 bme1 : Bool) (s : State) : exec (.pcieLinkChange t up speed width bme0 bme1) s = execPcieLinkChange t up speed width bme0 bme1 s := rfl
@[simp] theorem exec_pcieFlr (t : Nat) (func : Fin 2) (s : State) : exec (.pcieFlr t func) s = execPcieFlr t func s := rfl
@[simp] theorem exec_msixFire (t : Nat) (vector : Fin 64) (masked : Bool) (s : State) : exec (.msixFire t vector masked) s = execMsixFire t vector masked s := rfl
@[simp] theorem exec_glbMsixArm (t : Nat) (req : Nat) (vector : Fin 64) (value : Word) (masked : Bool) (s : State) : exec (.glbMsixArm t req vector value masked) s = execGlbMsixArm t req vector value masked s := rfl
@[simp] theorem exec_glbMsixMap (t : Nat) (req : Nat) (vector : Fin 64) (value : Word) (s : State) : exec (.glbMsixMap t req vector value) s = execGlbMsixMap t req vector value s := rfl
@[simp] theorem exec_glbKeyEnrol (t : Nat) (req : Nat) (entry : Fin 64) (s : State) : exec (.glbKeyEnrol t req entry) s = execGlbKeyEnrol t req entry s := rfl
@[simp] theorem exec_glbKeyErase (t : Nat) (req : Nat) (entry : Fin 64) (s : State) : exec (.glbKeyErase t req entry) s = execGlbKeyErase t req entry s := rfl
@[simp] theorem exec_keyStoreDone (t : Nat) (ok : Bool) (s : State) : exec (.keyStoreDone t ok) s = execKeyStoreDone t ok s := rfl
@[simp] theorem exec_fulltimeNsRead (t : Nat) (req off : Nat) (s : State) : exec (.fulltimeNsRead t req off) s = execFulltimeNsRead t req off s := rfl
@[simp] theorem exec_wideLowRead (t : Nat) (req off : Nat) (s : State) : exec (.wideLowRead t req off) s = execWideLowRead t req off s := rfl
@[simp] theorem exec_registerWrite (t : Nat) (req off : Nat) (value : Word) (be : BitVec 4) (s : State) : exec (.registerWrite t req off value be) s = execRegisterWrite t req off value be s := rfl
@[simp] theorem exec_canSlotEnd (t : Nat) (ctrl : Fin 4) (s : State) : exec (.canSlotEnd t ctrl) s = execCanSlotEnd t ctrl s := rfl
@[simp] theorem exec_canFrameReceive (t : Nat) (ctrl : Fin 4) (id : Nat) (ide fdf brs esi : Bool) (dlc : Fin 16) (data : List Byte) (sof : Nat) (s : State) : exec (.canFrameReceive t ctrl id ide fdf brs esi dlc data sof) s = execCanFrameReceive t ctrl id ide fdf brs esi dlc data sof s := rfl
@[simp] theorem exec_canBusOff (t : Nat) (ctrl : Fin 4) (tec : Nat) (s : State) : exec (.canBusOff t ctrl tec) s = execCanBusOff t ctrl tec s := rfl
@[simp] theorem exec_canRecover (t : Nat) (ctrl : Fin 4) (s : State) : exec (.canRecover t ctrl) s = execCanRecover t ctrl s := rfl
@[simp] theorem exec_canErrorPassive (t : Nat) (ctrl : Fin 4) (tec recv : Nat) (s : State) : exec (.canErrorPassive t ctrl tec recv) s = execCanErrorPassive t ctrl tec recv s := rfl
@[simp] theorem exec_qdSample (t : Nat) (qd : Fin 8) (a b z : Bool) (s : State) : exec (.qdSample t qd a b z) s = execQdSample t qd a b z s := rfl
@[simp] theorem exec_fldQdSet (t : Nat) (req : Nat) (qd : Fin 8) (value : Word) (s : State) : exec (.fldQdSet t req qd value) s = execFldQdSet t req qd value s := rfl
@[simp] theorem exec_fldQdErrcnt (t : Nat) (req : Nat) (qd : Fin 8) (value : Word) (s : State) : exec (.fldQdErrcnt t req qd value) s = execFldQdErrcnt t req qd value s := rfl
@[simp] theorem exec_pwmPeriodStart (t : Nat) (pwm : Fin 16) (s : State) : exec (.pwmPeriodStart t pwm) s = execPwmPeriodStart t pwm s := rfl
@[simp] theorem exec_fldPwmHost (t : Nat) (req : Nat) (pwm : Fin 16) (value : Word) (s : State) : exec (.fldPwmHost t req pwm value) s = execFldPwmHost t req pwm value s := rfl
@[simp] theorem exec_gpioInputChange (t : Nat) (pin : Fin 16) (level : Bool) (s : State) : exec (.gpioInputChange t pin level) s = execGpioInputChange t pin level s := rfl
@[simp] theorem exec_fldGpioOut (t : Nat) (req : Nat) (value : Word) (s : State) : exec (.fldGpioOut t req value) s = execFldGpioOut t req value s := rfl
@[simp] theorem exec_fldInputDebounce (t : Nat) (input : Fin 8) (level : Bool) (s : State) : exec (.fldInputDebounce t input level) s = execFldInputDebounce t input level s := rfl
@[simp] theorem exec_grantReclaim (t : Nat) (client : Fin 140) (s : State) : exec (.grantReclaim t client) s = execGrantReclaim t client s := rfl
@[simp] theorem exec_gafCap (t : Nat) (req : Nat) (client : Fin 140) (value : Word) (s : State) : exec (.gafCap t req client value) s = execGafCap t req client value s := rfl
@[simp] theorem exec_dieSensorSample (t : Nat) (temps : List Int) (s : State) : exec (.dieSensorSample t temps) s = execDieSensorSample t temps s := rfl
@[simp] theorem exec_hwThermalShutdown (t : Nat) (sensor : Fin 32) (s : State) : exec (.hwThermalShutdown t sensor) s = execHwThermalShutdown t sensor s := rfl
@[simp] theorem exec_haltForce (t : Nat) (s : State) : exec (.haltForce t) s = execHaltForce t s := rfl
@[simp] theorem exec_gafSensRestore (t : Nat) (req : Nat) (sensor : Fin 32) (s : State) : exec (.gafSensRestore t req sensor) s = execGafSensRestore t req sensor s := rfl
@[simp] theorem exec_throttleGraceExpiry (t : Nat) (s : State) : exec (.throttleGraceExpiry t) s = execThrottleGraceExpiry t s := rfl
@[simp] theorem exec_throttleStep (t : Nat) (s : State) : exec (.throttleStep t) s = execThrottleStep t s := rfl
@[simp] theorem exec_throttleReleaseStep (t : Nat) (s : State) : exec (.throttleReleaseStep t) s = execThrottleReleaseStep t s := rfl
@[simp] theorem exec_compensationUpdate (t : Nat) (s : State) : exec (.compensationUpdate t) s = execCompensationUpdate t s := rfl
@[simp] theorem exec_heatPoolEvaluate (t : Nat) (s : State) : exec (.heatPoolEvaluate t) s = execHeatPoolEvaluate t s := rfl
@[simp] theorem exec_shutdownReq (t : Nat) (s : State) : exec (.shutdownReq t) s = execShutdownReq t s := rfl
@[simp] theorem exec_pwrGoodFall (t : Nat) (s : State) : exec (.pwrGoodFall t) s = execPwrGoodFall t s := rfl
@[simp] theorem exec_wrapStringStep (t : Nat) (string : Fin 256) (s : State) : exec (.wrapStringStep t string) s = execWrapStringStep t string s := rfl
@[simp] theorem exec_wrapHoldT (t : Nat) (s : State) : exec (.wrapHoldT t) s = execWrapHoldT t s := rfl
@[simp] theorem exec_wrapOpenTimeout (t : Nat) (string : Fin 256) (s : State) : exec (.wrapOpenTimeout t string) s = execWrapOpenTimeout t string s := rfl
@[simp] theorem exec_wrapComplete (t : Nat) (s : State) : exec (.wrapComplete t) s = execWrapComplete t s := rfl
@[simp] theorem exec_wrapLimit (t : Nat) (s : State) : exec (.wrapLimit t) s = execWrapLimit t s := rfl
@[simp] theorem exec_immediateShutdown (t : Nat) (s : State) : exec (.immediateShutdown t) s = execImmediateShutdown t s := rfl
@[simp] theorem exec_wakePin (t : Nat) (pin : Fin 4) (s : State) : exec (.wakePin t pin) s = execWakePin t pin s := rfl
@[simp] theorem exec_rtcAlarm (t : Nat) (s : State) : exec (.rtcAlarm t) s = execRtcAlarm t s := rfl
@[simp] theorem exec_wchRelease (t : Nat) (req : Nat) (value : Word) (s : State) : exec (.wchRelease t req value) s = execWchRelease t req value s := rfl
@[simp] theorem exec_daily (t : Nat) (adc : List (List Nat)) (pins : Nat) (t30 t31 : Int) (s : State) : exec (.daily t adc pins t30 t31) s = execDaily t adc pins t30 t31 s := rfl
@[simp] theorem exec_toneDetect (t : Nat) (port : Fin 128) (s : State) : exec (.toneDetect t port) s = execToneDetect t port s := rfl
@[simp] theorem exec_vbatLow (t : Nat) (s : State) : exec (.vbatLow t) s = execVbatLow t s := rfl
@[simp] theorem exec_recordWriteDone (t : Nat) (bb : Bool) (copy0 copy1 : NvProg) (s : State) : exec (.recordWriteDone t bb copy0 copy1) s = execRecordWriteDone t bb copy0 copy1 s := rfl
@[simp] theorem exec_pstScrub (t : Nat) (found : List (Nat × Nat)) (s : State) : exec (.pstScrub t found) s = execPstScrub t found s := rfl
@[simp] theorem exec_pstBbSel (t : Nat) (req : Nat) (value : Word) (s : State) : exec (.pstBbSel t req value) s = execPstBbSel t req value s := rfl
@[simp] theorem exec_tagRfRead (t : Nat) (cmd : Nat) (uid : Option Nat) (sel : Bool) (block n : Nat) (s : State) : exec (.tagRfRead t cmd uid sel block n) s = execTagRfRead t cmd uid sel block n s := rfl
@[simp] theorem exec_tagRfWrite (t : Nat) (cmd : Nat) (uid : Option Nat) (sel : Bool) (block : Nat) (data : List Byte) (s : State) : exec (.tagRfWrite t cmd uid sel block data) s = execTagRfWrite t cmd uid sel block data s := rfl
@[simp] theorem exec_tagFieldLoss (t : Nat) (s : State) : exec (.tagFieldLoss t) s = execTagFieldLoss t s := rfl
@[simp] theorem exec_tagRfIdle (t : Nat) (s : State) : exec (.tagRfIdle t) s = execTagRfIdle t s := rfl
@[simp] theorem exec_tagCommit (t : Nat) (page : Fin 32) (busy : Bool) (s : State) : exec (.tagCommit t page busy) s = execTagCommit t page busy s := rfl
@[simp] theorem exec_tagRefresh (t : Nat) (s : State) : exec (.tagRefresh t) s = execTagRefresh t s := rfl
@[simp] theorem exec_pstTagCommit (t : Nat) (req : Nat) (value : Word) (s : State) : exec (.pstTagCommit t req value) s = execPstTagCommit t req value s := rfl
@[simp] theorem exec_bypass (t : Nat) (s : State) : exec (.bypass t) s = execBypass t s := rfl
@[simp] theorem exec_idcode (t : Nat) (s : State) : exec (.idcode t) s = execIdcode t s := rfl
@[simp] theorem exec_samplePreload (t : Nat) (s : State) : exec (.samplePreload t) s = execSamplePreload t s := rfl
@[simp] theorem exec_extest (t : Nat) (dbgEn : Bool) (s : State) : exec (.extest t dbgEn) s = execExtest t dbgEn s := rfl
@[simp] theorem exec_clamp (t : Nat) (dbgEn : Bool) (s : State) : exec (.clamp t dbgEn) s = execClamp t dbgEn s := rfl
@[simp] theorem exec_intest (t : Nat) (dbgEn : Bool) (s : State) : exec (.intest t dbgEn) s = execIntest t dbgEn s := rfl
@[simp] theorem exec_vbatRemoved (t : Nat) (s : State) : exec (.vbatRemoved t) s = execVbatRemoved t s := rfl
@[simp] theorem exec_forceShadowBuilt (t : Nat) (damaged : Bool) (s : State) : exec (.forceShadowBuilt t damaged) s = execForceShadowBuilt t damaged s := rfl
@[simp] theorem exec_ref10Restored (t : Nat) (s : State) : exec (.ref10Restored t) s = execRef10Restored t s := rfl
@[simp] theorem exec_ptpMessageSend (t : Nat) (port : Fin 4) (kind : Nat) (s : State) : exec (.ptpMessageSend t port kind) s = execPtpMessageSend t port kind s := rfl
@[simp] theorem exec_lnkPortLos (t : Nat) (port : Fin 128) (s : State) : exec (.lnkPortLos t port) s = execLnkPortLos t port s := rfl
@[simp] theorem exec_lnkPortSyncGained (t : Nat) (port : Fin 128) (s : State) : exec (.lnkPortSyncGained t port) s = execLnkPortSyncGained t port s := rfl
@[simp] theorem exec_tripFbChange (t : Nat) (output : Fin 6) (level : Bool) (s : State) : exec (.tripFbChange t output level) s = execTripFbChange t output level s := rfl
@[simp] theorem exec_laneSilent (t : Nat) (tr : Fin 4) (lane : Nat) (pc : Word) (s : State) : exec (.laneSilent t tr lane pc) s = execLaneSilent t tr lane pc s := rfl
@[simp] theorem exec_illegalWord (t : Nat) (tr : Fin 4) (l : Fin 6) (s : State) : exec (.illegalWord t tr l) s = execIllegalWord t tr l s := rfl
@[simp] theorem exec_fetchBusFault (t : Nat) (tr : Fin 4) (l : Fin 6) (s : State) : exec (.fetchBusFault t tr l) s = execFetchBusFault t tr l s := rfl
@[simp] theorem exec_leaseSetReceive (t : Nat) (ring : Fin 64) (rot : Fin 2) (delay : Nat) (s : State) : exec (.leaseSetReceive t ring rot delay) s = execLeaseSetReceive t ring rot delay s := rfl
@[simp] theorem exec_commitFusesDone (t : Nat) (s : State) : exec (.commitFusesDone t) s = execCommitFusesDone t s := rfl
@[simp] theorem exec_rtcCompensation (t : Nat) (t30 t31 : Int) (s : State) : exec (.rtcCompensation t t30 t31) s = execRtcCompensation t t30 t31 s := rfl
@[simp] theorem exec_tagRfCommand (t : Nat) (cmd : Nat) (uid : Option Nat) (sel : Bool) (maskLen mask : Nat) (s : State) : exec (.tagRfCommand t cmd uid sel maskLen mask) s = execTagRfCommand t cmd uid sel maskLen mask s := rfl
@[simp] theorem exec_rcRead (t : Nat) (req off : Nat) (s : State) : exec (.rcRead t req off) s = execRcRead t req off s := rfl

/-! ### Every meaning is one run -/

theorem run_vbatApplied (t : Nat) (s : State) : ∃ f, exec (.vbatApplied t) s = s.run t f := by
  rw [exec_vbatApplied]; unfold execVbatApplied; exact ⟨_, rfl⟩
theorem run_vauxApplied (t : Nat) (b : BootIn) (s : State) : ∃ f, exec (.vauxApplied t b) s = s.run t f := by
  rw [exec_vauxApplied]; unfold execVauxApplied; exact ⟨_, rfl⟩
theorem run_vauxRemoved (t : Nat) (s : State) : ∃ f, exec (.vauxRemoved t) s = s.run t f := by
  rw [exec_vauxRemoved]; unfold execVauxRemoved; exact ⟨_, rfl⟩
theorem run_powerOn (t : Nat) (b : BootIn) (s : State) : ∃ f, exec (.powerOn t b) s = s.run t f := by
  rw [exec_powerOn]; unfold execPowerOn; exact ⟨_, rfl⟩
theorem run_mainRailsLost (t : Nat) (s : State) : ∃ f, exec (.mainRailsLost t) s = s.run t f := by
  rw [exec_mainRailsLost]; unfold execMainRailsLost; exact ⟨_, rfl⟩
theorem run_resetNAsserted (t : Nat) (b : BootIn) (s : State) : ∃ f, exec (.resetNAsserted t b) s = s.run t f := by
  rw [exec_resetNAsserted]; unfold execResetNAsserted; exact ⟨_, rfl⟩
theorem run_bootSlotLoad (t : Nat) (damaged : Bool) (s : State) : ∃ f, exec (.bootSlotLoad t damaged) s = s.run t f := by
  rw [exec_bootSlotLoad]; unfold execBootSlotLoad; exact ⟨_, rfl⟩
theorem run_structureBuilt (t : Nat) (s : State) : ∃ f, exec (.structureBuilt t) s = s.run t f := by
  rw [exec_structureBuilt]; unfold execStructureBuilt; exact ⟨_, rfl⟩
theorem run_enterRun (t : Nat) (s : State) : ∃ f, exec (.enterRun t) s = s.run t f := by
  rw [exec_enterRun]; unfold execEnterRun; exact ⟨_, rfl⟩
theorem run_glbGo (t : Nat) (req : Nat) (s : State) : ∃ f, exec (.glbGo t req) s = s.run t f := by
  rw [exec_glbGo]; unfold execGlbGo; exact ⟨_, rfl⟩
theorem run_glbWrap (t : Nat) (req : Nat) (s : State) : ∃ f, exec (.glbWrap t req) s = s.run t f := by
  rw [exec_glbWrap]; unfold execGlbWrap; exact ⟨_, rfl⟩
theorem run_cycleBoundary (t : Nat) (s : State) : ∃ f, exec (.cycleBoundary t) s = s.run t f := by
  rw [exec_cycleBoundary]; unfold execCycleBoundary; exact ⟨_, rfl⟩
theorem run_cmdOverrun (t : Nat) (ring : Fin 64) (qid : Nat) (s : State) : ∃ f, exec (.cmdOverrun t ring qid) s = s.run t f := by
  rw [exec_cmdOverrun]; unfold execCmdOverrun; exact ⟨_, rfl⟩
theorem run_nodeFrameReceive (t : Nat) (port : Fin 128) (cycle pos : Nat) (codeErr : Bool) (frame : List Byte) (s : State) : ∃ f, exec (.nodeFrameReceive t port cycle pos codeErr frame) s = s.run t f := by
  rw [exec_nodeFrameReceive]; unfold execNodeFrameReceive; exact ⟨_, rfl⟩
theorem run_frameHoldDeadline (t : Nat) (ring : Fin 64) (cycle addr ntype : Nat) (s : State) : ∃ f, exec (.frameHoldDeadline t ring cycle addr ntype) s = s.run t f := by
  rw [exec_frameHoldDeadline]; unfold execFrameHoldDeadline; exact ⟨_, rfl⟩
theorem run_cycReturn (t : Nat) (ring : Fin 64) (rot : Fin 2) (delay : Nat) (s : State) : ∃ f, exec (.cycReturn t ring rot delay) s = s.run t f := by
  rw [exec_cycReturn]; unfold execCycReturn; exact ⟨_, rfl⟩
theorem run_ringLong (t : Nat) (ring : Fin 64) (s : State) : ∃ f, exec (.ringLong t ring) s = s.run t f := by
  rw [exec_ringLong]; unfold execRingLong; exact ⟨_, rfl⟩
theorem run_ringBreak (t : Nat) (ring : Fin 64) (s : State) : ∃ f, exec (.ringBreak t ring) s = s.run t f := by
  rw [exec_ringBreak]; unfold execRingBreak; exact ⟨_, rfl⟩
theorem run_ringRestored (t : Nat) (ring : Fin 64) (s : State) : ∃ f, exec (.ringRestored t ring) s = s.run t f := by
  rw [exec_ringRestored]; unfold execRingRestored; exact ⟨_, rfl⟩
theorem run_cycReceive (t : Nat) (ring : Fin 64) (rot : Fin 2) (orig : Fin 2) (s : State) : ∃ f, exec (.cycReceive t ring rot orig) s = s.run t f := by
  rw [exec_cycReceive]; unfold execCycReceive; exact ⟨_, rfl⟩
theorem run_lnkRingEnum (t : Nat) (req : Nat) (ring : Fin 64) (s : State) : ∃ f, exec (.lnkRingEnum t req ring) s = s.run t f := by
  rw [exec_lnkRingEnum]; unfold execLnkRingEnum; exact ⟨_, rfl⟩
theorem run_enumReply (t : Nat) (ring : Fin 64) (addr : Nat) (data : List Byte) (s : State) : ∃ f, exec (.enumReply t ring addr data) s = s.run t f := by
  rw [exec_enumReply]; unfold execEnumReply; exact ⟨_, rfl⟩
theorem run_enumEnd (t : Nat) (ring : Fin 64) (s : State) : ∃ f, exec (.enumEnd t ring) s = s.run t f := by
  rw [exec_enumEnd]; unfold execEnumEnd; exact ⟨_, rfl⟩
theorem run_lnkRingWake (t : Nat) (req : Nat) (ring : Fin 64) (s : State) : ∃ f, exec (.lnkRingWake t req ring) s = s.run t f := by
  rw [exec_lnkRingWake]; unfold execLnkRingWake; exact ⟨_, rfl⟩
theorem run_lnkRingSleep (t : Nat) (req : Nat) (ring : Fin 64) (s : State) : ∃ f, exec (.lnkRingSleep t req ring) s = s.run t f := by
  rw [exec_lnkRingSleep]; unfold execLnkRingSleep; exact ⟨_, rfl⟩
theorem run_lnkPortEnable (t : Nat) (req : Nat) (port : Fin 128) (enable : Bool) (s : State) : ∃ f, exec (.lnkPortEnable t req port enable) s = s.run t f := by
  rw [exec_lnkPortEnable]; unfold execLnkPortEnable; exact ⟨_, rfl⟩
theorem run_lnkPortWake (t : Nat) (req : Nat) (port : Fin 128) (value : Word) (s : State) : ∃ f, exec (.lnkPortWake t req port value) s = s.run t f := by
  rw [exec_lnkPortWake]; unfold execLnkPortWake; exact ⟨_, rfl⟩
theorem run_ptpEventReceive (t : Nat) (port : Fin 4) (kind value : Nat) (s : State) : ∃ f, exec (.ptpEventReceive t port kind value) s = s.run t f := by
  rw [exec_ptpEventReceive]; unfold execPtpEventReceive; exact ⟨_, rfl⟩
theorem run_ptpAnnounceReceive (t : Nat) (port : Fin 4) (dataset : List Nat) (utc : Option Int) (leap61 leap59 malformed : Bool) (s : State) : ∃ f, exec (.ptpAnnounceReceive t port dataset utc leap61 leap59 malformed) s = s.run t f := by
  rw [exec_ptpAnnounceReceive]; unfold execPtpAnnounceReceive; exact ⟨_, rfl⟩
theorem run_ptpSourceTimeout (t : Nat) (port : Fin 4) (s : State) : ∃ f, exec (.ptpSourceTimeout t port) s = s.run t f := by
  rw [exec_ptpSourceTimeout]; unfold execPtpSourceTimeout; exact ⟨_, rfl⟩
theorem run_ppsEdge (t : Nat) (s : State) : ∃ f, exec (.ppsEdge t) s = s.run t f := by
  rw [exec_ppsEdge]; unfold execPpsEdge; exact ⟨_, rfl⟩
theorem run_ppsEdgeMissing (t : Nat) (s : State) : ∃ f, exec (.ppsEdgeMissing t) s = s.run t f := by
  rw [exec_ppsEdgeMissing]; unfold execPpsEdgeMissing; exact ⟨_, rfl⟩
theorem run_timebaseStep (t : Nat) (s : State) : ∃ f, exec (.timebaseStep t) s = s.run t f := by
  rw [exec_timebaseStep]; unfold execTimebaseStep; exact ⟨_, rfl⟩
theorem run_slewComplete (t : Nat) (s : State) : ∃ f, exec (.slewComplete t) s = s.run t f := by
  rw [exec_slewComplete]; unfold execSlewComplete; exact ⟨_, rfl⟩
theorem run_tbTimeWrite (t : Nat) (req : Nat) (ns : Word) (s : State) : ∃ f, exec (.tbTimeWrite t req ns) s = s.run t f := by
  rw [exec_tbTimeWrite]; unfold execTbTimeWrite; exact ⟨_, rfl⟩
theorem run_holdoverSecond (t : Nat) (s : State) : ∃ f, exec (.holdoverSecond t) s = s.run t f := by
  rw [exec_holdoverSecond]; unfold execHoldoverSecond; exact ⟨_, rfl⟩
theorem run_tcompLearn (t : Nat) (s : State) : ∃ f, exec (.tcompLearn t) s = s.run t f := by
  rw [exec_tcompLearn]; unfold execTcompLearn; exact ⟨_, rfl⟩
theorem run_refFail (t : Nat) (deviation : Nat) (s : State) : ∃ f, exec (.refFail t deviation) s = s.run t f := by
  rw [exec_refFail]; unfold execRefFail; exact ⟨_, rfl⟩
theorem run_ref10Lost (t : Nat) (s : State) : ∃ f, exec (.ref10Lost t) s = s.run t f := by
  rw [exec_ref10Lost]; unfold execRef10Lost; exact ⟨_, rfl⟩
theorem run_rtcUpdate (t : Nat) (s : State) : ∃ f, exec (.rtcUpdate t) s = s.run t f := by
  rw [exec_rtcUpdate]; unfold execRtcUpdate; exact ⟨_, rfl⟩
theorem run_slateSyncEdge (t : Nat) (dev : Int) (s : State) : ∃ f, exec (.slateSyncEdge t dev) s = s.run t f := by
  rw [exec_slateSyncEdge]; unfold execSlateSyncEdge; exact ⟨_, rfl⟩
theorem run_syncLost (t : Nat) (s : State) : ∃ f, exec (.syncLost t) s = s.run t f := by
  rw [exec_syncLost]; unfold execSyncLost; exact ⟨_, rfl⟩
theorem run_boardMasterElection (t : Nat) (s : State) : ∃ f, exec (.boardMasterElection t) s = s.run t f := by
  rw [exec_boardMasterElection]; unfold execBoardMasterElection; exact ⟨_, rfl⟩
theorem run_boardTime (t : Nat) (link : Fin 4) (codeErr : Bool) (frame : List Byte) (s : State) : ∃ f, exec (.boardTime t link codeErr frame) s = s.run t f := by
  rw [exec_boardTime]; unfold execBoardTime; exact ⟨_, rfl⟩
theorem run_twtt (t : Nat) (link : Fin 4) (codeErr : Bool) (frame : List Byte) (s : State) : ∃ f, exec (.twtt t link codeErr frame) s = s.run t f := by
  rw [exec_twtt]; unfold execTwtt; exact ⟨_, rfl⟩
theorem run_tbUtcSet (t : Nat) (req : Nat) (value : Word) (s : State) : ∃ f, exec (.tbUtcSet t req value) s = s.run t f := by
  rw [exec_tbUtcSet]; unfold execTbUtcSet; exact ⟨_, rfl⟩
theorem run_swpSamplePacket (t : Nat) (ring : Fin 64) (qid : Nat) (s : State) : ∃ f, exec (.swpSamplePacket t ring qid) s = s.run t f := by
  rw [exec_swpSamplePacket]; unfold execSwpSamplePacket; exact ⟨_, rfl⟩
theorem run_openWireEvaluate (t : Nat) (ring : Fin 64) (take : Nat) (s : State) : ∃ f, exec (.openWireEvaluate t ring take) s = s.run t f := by
  rw [exec_openWireEvaluate]; unfold execOpenWireEvaluate; exact ⟨_, rfl⟩
theorem run_swpOwClear (t : Nat) (req : Nat) (value : Word) (s : State) : ∃ f, exec (.swpOwClear t req value) s = s.run t f := by
  rw [exec_swpOwClear]; unfold execSwpOwClear; exact ⟨_, rfl⟩
theorem run_balQuiet (t : Nat) (s : State) : ∃ f, exec (.balQuiet t) s = s.run t f := by
  rw [exec_balQuiet]; unfold execBalQuiet; exact ⟨_, rfl⟩
theorem run_balPlan (t : Nat) (s : State) : ∃ f, exec (.balPlan t) s = s.run t f := by
  rw [exec_balPlan]; unfold execBalPlan; exact ⟨_, rfl⟩
theorem run_balClose (t : Nat) (s : State) : ∃ f, exec (.balClose t) s = s.run t f := by
  rw [exec_balClose]; unfold execBalClose; exact ⟨_, rfl⟩
theorem run_nodeWake (t : Nat) (port : Fin 128) (s : State) : ∃ f, exec (.nodeWake t port) s = s.run t f := by
  rw [exec_nodeWake]; unfold execNodeWake; exact ⟨_, rfl⟩
theorem run_qfOpen (t : Nat) (req qid : Nat) (value : Item) (s : State) : ∃ f, exec (.qfOpen t req qid value) s = s.run t f := by
  rw [exec_qfOpen]; unfold execQfOpen; exact ⟨_, rfl⟩
theorem run_qfAppend (t : Nat) (req qid : Nat) (value : Item) (s : State) : ∃ f, exec (.qfAppend t req qid value) s = s.run t f := by
  rw [exec_qfAppend]; unfold execQfAppend; exact ⟨_, rfl⟩
theorem run_qfClose (t : Nat) (req qid : Nat) (value : Item) (s : State) : ∃ f, exec (.qfClose t req qid value) s = s.run t f := by
  rw [exec_qfClose]; unfold execQfClose; exact ⟨_, rfl⟩
theorem run_qfPushSingle (t : Nat) (req qid : Nat) (value : Item) (s : State) : ∃ f, exec (.qfPushSingle t req qid value) s = s.run t f := by
  rw [exec_qfPushSingle]; unfold execQfPushSingle; exact ⟨_, rfl⟩
theorem run_qfPop (t : Nat) (req qid : Nat) (s : State) : ∃ f, exec (.qfPop t req qid) s = s.run t f := by
  rw [exec_qfPop]; unfold execQfPop; exact ⟨_, rfl⟩
theorem run_doorbellLowWrite (t : Nat) (req qid : Nat) (value : Word) (s : State) : ∃ f, exec (.doorbellLowWrite t req qid value) s = s.run t f := by
  rw [exec_doorbellLowWrite]; unfold execDoorbellLowWrite; exact ⟨_, rfl⟩
theorem run_doorbellHighRead (t : Nat) (req qid : Nat) (s : State) : ∃ f, exec (.doorbellHighRead t req qid) s = s.run t f := by
  rw [exec_doorbellHighRead]; unfold execDoorbellHighRead; exact ⟨_, rfl⟩
theorem run_hostPopTimeout (t : Nat) (req : Nat) (s : State) : ∃ f, exec (.hostPopTimeout t req) s = s.run t f := by
  rw [exec_hostPopTimeout]; unfold execHostPopTimeout; exact ⟨_, rfl⟩
theorem run_popWaitResume (t : Nat) (req qid : Nat) (s : State) : ∃ f, exec (.popWaitResume t req qid) s = s.run t f := by
  rw [exec_popWaitResume]; unfold execPopWaitResume; exact ⟨_, rfl⟩
theorem run_blockWaitResume (t : Nat) (qid : Nat) (s : State) : ∃ f, exec (.blockWaitResume t qid) s = s.run t f := by
  rw [exec_blockWaitResume]; unfold execBlockWaitResume; exact ⟨_, rfl⟩
theorem run_qfCut (t : Nat) (req qid : Nat) (s : State) : ∃ f, exec (.qfCut t req qid) s = s.run t f := by
  rw [exec_qfCut]; unfold execQfCut; exact ⟨_, rfl⟩
theorem run_qfAbort (t : Nat) (req qid : Nat) (s : State) : ∃ f, exec (.qfAbort t req qid) s = s.run t f := by
  rw [exec_qfAbort]; unfold execQfAbort; exact ⟨_, rfl⟩
theorem run_qfRelease (t : Nat) (req qid : Nat) (s : State) : ∃ f, exec (.qfRelease t req qid) s = s.run t f := by
  rw [exec_qfRelease]; unfold execQfRelease; exact ⟨_, rfl⟩
theorem run_qfFlush (t : Nat) (req qid : Nat) (s : State) : ∃ f, exec (.qfFlush t req qid) s = s.run t f := by
  rw [exec_qfFlush]; unfold execQfFlush; exact ⟨_, rfl⟩
theorem run_lockReclaimProducer (t : Nat) (qid : Nat) (s : State) : ∃ f, exec (.lockReclaimProducer t qid) s = s.run t f := by
  rw [exec_lockReclaimProducer]; unfold execLockReclaimProducer; exact ⟨_, rfl⟩
theorem run_lockReclaimConsumer (t : Nat) (qid : Nat) (s : State) : ∃ f, exec (.lockReclaimConsumer t qid) s = s.run t f := by
  rw [exec_lockReclaimConsumer]; unfold execLockReclaimConsumer; exact ⟨_, rfl⟩
theorem run_qstatRead (t : Nat) (req qid : Nat) (s : State) : ∃ f, exec (.qstatRead t req qid) s = s.run t f := by
  rw [exec_qstatRead]; unfold execQstatRead; exact ⟨_, rfl⟩
theorem run_qstatWmClear (t : Nat) (req qid : Nat) (s : State) : ∃ f, exec (.qstatWmClear t req qid) s = s.run t f := by
  rw [exec_qstatWmClear]; unfold execQstatWmClear; exact ⟨_, rfl⟩
theorem run_qstatLossClear (t : Nat) (req qid : Nat) (s : State) : ∃ f, exec (.qstatLossClear t req qid) s = s.run t f := by
  rw [exec_qstatLossClear]; unfold execQstatLossClear; exact ⟨_, rfl⟩
theorem run_stallWarn (t : Nat) (qid : Nat) (s : State) : ∃ f, exec (.stallWarn t qid) s = s.run t f := by
  rw [exec_stallWarn]; unfold execStallWarn; exact ⟨_, rfl⟩
theorem run_qfEccUncorrectable (t : Nat) (qid pos : Nat) (descriptor : Bool) (s : State) : ∃ f, exec (.qfEccUncorrectable t qid pos descriptor) s = s.run t f := by
  rw [exec_qfEccUncorrectable]; unfold execQfEccUncorrectable; exact ⟨_, rfl⟩
theorem run_estInputItem (t : Nat) (ring : Fin 64) (qid : Nat) (s : State) : ∃ f, exec (.estInputItem t ring qid) s = s.run t f := by
  rw [exec_estInputItem]; unfold execEstInputItem; exact ⟨_, rfl⟩
theorem run_takeClosure (t : Nat) (ring : Fin 64) (s : State) : ∃ f, exec (.takeClosure t ring) s = s.run t f := by
  rw [exec_takeClosure]; unfold execTakeClosure; exact ⟨_, rfl⟩
theorem run_resetImp (t : Nat) (req : Nat) (ch : Fin 131072) (s : State) : ∃ f, exec (.resetImp t req ch) s = s.run t f := by
  rw [exec_resetImp]; unfold execResetImp; exact ⟨_, rfl⟩
theorem run_resetCap (t : Nat) (req : Nat) (ch : Fin 131072) (s : State) : ∃ f, exec (.resetCap t req ch) s = s.run t f := by
  rw [exec_resetCap]; unfold execResetCap; exact ⟨_, rfl⟩
theorem run_resetEfc (t : Nat) (req : Nat) (ch : Fin 131072) (s : State) : ∃ f, exec (.resetEfc t req ch) s = s.run t f := by
  rw [exec_resetEfc]; unfold execResetEfc; exact ⟨_, rfl⟩
theorem run_anchorFull (t : Nat) (req : Nat) (ch : Fin 131072) (s : State) : ∃ f, exec (.anchorFull t req ch) s = s.run t f := by
  rw [exec_anchorFull]; unfold execAnchorFull; exact ⟨_, rfl⟩
theorem run_anchorEmpty (t : Nat) (req : Nat) (ch : Fin 131072) (s : State) : ∃ f, exec (.anchorEmpty t req ch) s = s.run t f := by
  rw [exec_anchorEmpty]; unfold execAnchorEmpty; exact ⟨_, rfl⟩
theorem run_reportNow (t : Nat) (req : Nat) (ch : Fin 131072) (s : State) : ∃ f, exec (.reportNow t req ch) s = s.run t f := by
  rw [exec_reportNow]; unfold execReportNow; exact ⟨_, rfl⟩
theorem run_lpeInputItem (t : Nat) (ctx : Fin 512) (qid : Nat) (s : State) : ∃ f, exec (.lpeInputItem t ctx qid) s = s.run t f := by
  rw [exec_lpeInputItem]; unfold execLpeInputItem; exact ⟨_, rfl⟩
theorem run_satExpired (t : Nat) (ctx : Fin 512) (s : State) : ∃ f, exec (.satExpired t ctx) s = s.run t f := by
  rw [exec_satExpired]; unfold execSatExpired; exact ⟨_, rfl⟩
theorem run_measurementLost (t : Nat) (ctx : Fin 512) (s : State) : ∃ f, exec (.measurementLost t ctx) s = s.run t f := by
  rw [exec_measurementLost]; unfold execMeasurementLost; exact ⟨_, rfl⟩
theorem run_tickSkip (t : Nat) (ctx : Fin 512) (s : State) : ∃ f, exec (.tickSkip t ctx) s = s.run t f := by
  rw [exec_tickSkip]; unfold execTickSkip; exact ⟨_, rfl⟩
theorem run_lpeResume (t : Nat) (req : Nat) (ctx : Fin 512) (s : State) : ∃ f, exec (.lpeResume t req ctx) s = s.run t f := by
  rw [exec_lpeResume]; unfold execLpeResume; exact ⟨_, rfl⟩
theorem run_lpeForceSafe (t : Nat) (req : Nat) (ctx : Fin 512) (s : State) : ∃ f, exec (.lpeForceSafe t req ctx) s = s.run t f := by
  rw [exec_lpeForceSafe]; unfold execLpeForceSafe; exact ⟨_, rfl⟩
theorem run_lpeResetX (t : Nat) (req : Nat) (ctx : Fin 512) (s : State) : ∃ f, exec (.lpeResetX t req ctx) s = s.run t f := by
  rw [exec_lpeResetX]; unfold execLpeResetX; exact ⟨_, rfl⟩
theorem run_dspInputRecord (t : Nat) (qid : Nat) (s : State) : ∃ f, exec (.dspInputRecord t qid) s = s.run t f := by
  rw [exec_dspInputRecord]; unfold execDspInputRecord; exact ⟨_, rfl⟩
theorem run_dspCanInput (t : Nat) (qid : Nat) (s : State) : ∃ f, exec (.dspCanInput t qid) s = s.run t f := by
  rw [exec_dspCanInput]; unfold execDspCanInput; exact ⟨_, rfl⟩
theorem run_dspMirror (t : Nat) (link : Fin 4) (codeErr : Bool) (frame : List Byte) (s : State) : ∃ f, exec (.dspMirror t link codeErr frame) s = s.run t f := by
  rw [exec_dspMirror]; unfold execDspMirror; exact ⟨_, rfl⟩
theorem run_dspUnmirrored (t : Nat) (s : State) : ∃ f, exec (.dspUnmirrored t) s = s.run t f := by
  rw [exec_dspUnmirrored]; unfold execDspUnmirrored; exact ⟨_, rfl⟩
theorem run_derateGraceExpiry (t : Nat) (string : Fin 256) (s : State) : ∃ f, exec (.derateGraceExpiry t string) s = s.run t f := by
  rw [exec_derateGraceExpiry]; unfold execDerateGraceExpiry; exact ⟨_, rfl⟩
theorem run_dspWatchdog (t : Nat) (s : State) : ∃ f, exec (.dspWatchdog t) s = s.run t f := by
  rw [exec_dspWatchdog]; unfold execDspWatchdog; exact ⟨_, rfl⟩
theorem run_ffrActive (t : Nat) (s : State) : ∃ f, exec (.ffrActive t) s = s.run t f := by
  rw [exec_ffrActive]; unfold execFfrActive; exact ⟨_, rfl⟩
theorem run_ffrEnd (t : Nat) (s : State) : ∃ f, exec (.ffrEnd t) s = s.run t f := by
  rw [exec_ffrEnd]; unfold execFfrEnd; exact ⟨_, rfl⟩
theorem run_freqLost (t : Nat) (s : State) : ∃ f, exec (.freqLost t) s = s.run t f := by
  rw [exec_freqLost]; unfold execFreqLost; exact ⟨_, rfl⟩
theorem run_dspSrcWrite (t : Nat) (req : Nat) (value : Word) (s : State) : ∃ f, exec (.dspSrcWrite t req value) s = s.run t f := by
  rw [exec_dspSrcWrite]; unfold execDspSrcWrite; exact ⟨_, rfl⟩
theorem run_trwFrameAccept (t : Nat) (port : Fin 128) (cycle pos : Nat) (codeErr : Bool) (frame : List Byte) (s : State) : ∃ f, exec (.trwFrameAccept t port cycle pos codeErr frame) s = s.run t f := by
  rw [exec_trwFrameAccept]; unfold execTrwFrameAccept; exact ⟨_, rfl⟩
theorem run_trwNotDelivered (t : Nat) (ring : Fin 64) (cycle addr ntype : Nat) (s : State) : ∃ f, exec (.trwNotDelivered t ring cycle addr ntype) s = s.run t f := by
  rw [exec_trwNotDelivered]; unfold execTrwNotDelivered; exact ⟨_, rfl⟩
theorem run_trwStrReset (t : Nat) (req : Nat) (string : Fin 256) (s : State) : ∃ f, exec (.trwStrReset t req string) s = s.run t f := by
  rw [exec_trwStrReset]; unfold execTrwStrReset; exact ⟨_, rfl⟩
theorem run_trwResetGlobal (t : Nat) (req : Nat) (s : State) : ∃ f, exec (.trwResetGlobal t req) s = s.run t f := by
  rw [exec_trwResetGlobal]; unfold execTrwResetGlobal; exact ⟨_, rfl⟩
theorem run_estopFireInput (t : Nat) (input : Fin 8) (level : Bool) (s : State) : ∃ f, exec (.estopFireInput t input level) s = s.run t f := by
  rw [exec_estopFireInput]; unfold execEstopFireInput; exact ⟨_, rfl⟩
theorem run_safetyFrameReceive (t : Nat) (port : Fin 2) (payload : List Byte) (s : State) : ∃ f, exec (.safetyFrameReceive t port payload) s = s.run t f := by
  rw [exec_safetyFrameReceive]; unfold execSafetyFrameReceive; exact ⟨_, rfl⟩
theorem run_sfSingle (t : Nat) (seq : Nat) (s : State) : ∃ f, exec (.sfSingle t seq) s = s.run t f := by
  rw [exec_sfSingle]; unfold execSfSingle; exact ⟨_, rfl⟩
theorem run_sfTimeout (t : Nat) (s : State) : ∃ f, exec (.sfTimeout t) s = s.run t f := by
  rw [exec_sfTimeout]; unfold execSfTimeout; exact ⟨_, rfl⟩
theorem run_sfStatusSend (t : Nat) (s : State) : ∃ f, exec (.sfStatusSend t) s = s.run t f := by
  rw [exec_sfStatusSend]; unfold execSfStatusSend; exact ⟨_, rfl⟩
theorem run_feedbackMismatch (t : Nat) (output : Fin 6) (s : State) : ∃ f, exec (.feedbackMismatch t output) s = s.run t f := by
  rw [exec_feedbackMismatch]; unfold execFeedbackMismatch; exact ⟨_, rfl⟩
theorem run_trwStoreCheck (t : Nat) (found : Nat) (uncorrectable : Bool) (s : State) : ∃ f, exec (.trwStoreCheck t found uncorrectable) s = s.run t f := by
  rw [exec_trwStoreCheck]; unfold execTrwStoreCheck; exact ⟨_, rfl⟩
theorem run_trwCfgWrite (t : Nat) (req off : Nat) (value : Word) (s : State) : ∃ f, exec (.trwCfgWrite t req off value) s = s.run t f := by
  rw [exec_trwCfgWrite]; unfold execTrwCfgWrite; exact ⟨_, rfl⟩
theorem run_pPermitWrite (t : Nat) (req : Nat) (ring : Fin 64) (head : Fin 8) (bank : Fin 4) (value : Word) (s : State) : ∃ f, exec (.pPermitWrite t req ring head bank value) s = s.run t f := by
  rw [exec_pPermitWrite]; unfold execPPermitWrite; exact ⟨_, rfl⟩
theorem run_trwPTripWrite (t : Nat) (req : Nat) (value : Word) (s : State) : ∃ f, exec (.trwPTripWrite t req value) s = s.run t f := by
  rw [exec_trwPTripWrite]; unfold execTrwPTripWrite; exact ⟨_, rfl⟩
theorem run_trwTestGo (t : Nat) (req : Nat) (string : Fin 256) (s : State) : ∃ f, exec (.trwTestGo t req string) s = s.run t f := by
  rw [exec_trwTestGo]; unfold execTrwTestGo; exact ⟨_, rfl⟩
theorem run_trwTestAbort (t : Nat) (req : Nat) (s : State) : ∃ f, exec (.trwTestAbort t req) s = s.run t f := by
  rw [exec_trwTestAbort]; unfold execTrwTestAbort; exact ⟨_, rfl⟩
theorem run_testStepLimit (t : Nat) (s : State) : ∃ f, exec (.testStepLimit t) s = s.run t f := by
  rw [exec_testStepLimit]; unfold execTestStepLimit; exact ⟨_, rfl⟩
theorem run_testDue (t : Nat) (string : Fin 256) (s : State) : ∃ f, exec (.testDue t string) s = s.run t f := by
  rw [exec_testDue]; unfold execTestDue; exact ⟨_, rfl⟩
theorem run_voterCompare (t : Nat) (tr : Fin 4) (ents : List CEntry) (s : State) : ∃ f, exec (.voterCompare t tr ents) s = s.run t f := by
  rw [exec_voterCompare]; unfold execVoterCompare; exact ⟨_, rfl⟩
theorem run_trdReadmit (t : Nat) (req : Nat) (tr : Fin 4) (lane : Fin 4) (s : State) : ∃ f, exec (.trdReadmit t req tr lane) s = s.run t f := by
  rw [exec_trdReadmit]; unfold execTrdReadmit; exact ⟨_, rfl⟩
theorem run_trdReadmitCancel (t : Nat) (req : Nat) (tr : Fin 4) (s : State) : ∃ f, exec (.trdReadmitCancel t req tr) s = s.run t f := by
  rw [exec_trdReadmitCancel]; unfold execTrdReadmitCancel; exact ⟨_, rfl⟩
theorem run_laneSelftestDone (t : Nat) (tr : Fin 4) (lane : Nat) (pass : Bool) (s : State) : ∃ f, exec (.laneSelftestDone t tr lane pass) s = s.run t f := by
  rw [exec_laneSelftestDone]; unfold execLaneSelftestDone; exact ⟨_, rfl⟩
theorem run_trdRestart (t : Nat) (req : Nat) (tr : Fin 4) (lanes : Fin 8) (s : State) : ∃ f, exec (.trdRestart t req tr lanes) s = s.run t f := by
  rw [exec_trdRestart]; unfold execTrdRestart; exact ⟨_, rfl⟩
theorem run_trdWdogExpiry (t : Nat) (tr : Fin 4) (l : Fin 3) (s : State) : ∃ f, exec (.trdWdogExpiry t tr l) s = s.run t f := by
  rw [exec_trdWdogExpiry]; unfold execTrdWdogExpiry; exact ⟨_, rfl⟩
theorem run_trdWdogKick (t : Nat) (req : Nat) (tr : Fin 4) (value : Word) (s : State) : ∃ f, exec (.trdWdogKick t req tr value) s = s.run t f := by
  rw [exec_trdWdogKick]; unfold execTrdWdogKick; exact ⟨_, rfl⟩
theorem run_trdWdogWrite (t : Nat) (req : Nat) (tr : Fin 4) (value : Word) (s : State) : ∃ f, exec (.trdWdogWrite t req tr value) s = s.run t f := by
  rw [exec_trdWdogWrite]; unfold execTrdWdogWrite; exact ⟨_, rfl⟩
theorem run_busLockRevoke (t : Nat) (s : State) : ∃ f, exec (.busLockRevoke t) s = s.run t f := by
  rw [exec_busLockRevoke]; unfold execBusLockRevoke; exact ⟨_, rfl⟩
theorem run_debugHalt (t : Nat) (tr : Fin 4) (lane : Nat) (dbgEn : Bool) (s : State) : ∃ f, exec (.debugHalt t tr lane dbgEn) s = s.run t f := by
  rw [exec_debugHalt]; unfold execDebugHalt; exact ⟨_, rfl⟩
theorem run_debugResume (t : Nat) (tr : Fin 4) (lane : Nat) (dbgEn : Bool) (s : State) : ∃ f, exec (.debugResume t tr lane dbgEn) s = s.run t f := by
  rw [exec_debugResume]; unfold execDebugResume; exact ⟨_, rfl⟩
theorem run_debugCommand (t : Nat) (tr : Fin 4) (lane op addr : Nat) (value : Word) (dbgEn : Bool) (s : State) : ∃ f, exec (.debugCommand t tr lane op addr value dbgEn) s = s.run t f := by
  rw [exec_debugCommand]; unfold execDebugCommand; exact ⟨_, rfl⟩
theorem run_add (t : Nat) (tr : Fin 4) (l : Fin 6) (rd ra rb : Fin 32) (s : State) : ∃ f, exec (.add t tr l rd ra rb) s = s.run t f := by
  rw [exec_add]; unfold execAdd; exact ⟨_, rfl⟩
theorem run_sub (t : Nat) (tr : Fin 4) (l : Fin 6) (rd ra rb : Fin 32) (s : State) : ∃ f, exec (.sub t tr l rd ra rb) s = s.run t f := by
  rw [exec_sub]; unfold execSub; exact ⟨_, rfl⟩
theorem run_addo (t : Nat) (tr : Fin 4) (l : Fin 6) (rd ra rb : Fin 32) (s : State) : ∃ f, exec (.addo t tr l rd ra rb) s = s.run t f := by
  rw [exec_addo]; unfold execAddo; exact ⟨_, rfl⟩
theorem run_subo (t : Nat) (tr : Fin 4) (l : Fin 6) (rd ra rb : Fin 32) (s : State) : ∃ f, exec (.subo t tr l rd ra rb) s = s.run t f := by
  rw [exec_subo]; unfold execSubo; exact ⟨_, rfl⟩
theorem run_neg (t : Nat) (tr : Fin 4) (l : Fin 6) (rd ra : Fin 32) (s : State) : ∃ f, exec (.neg t tr l rd ra) s = s.run t f := by
  rw [exec_neg]; unfold execNeg; exact ⟨_, rfl⟩
theorem run_abs (t : Nat) (tr : Fin 4) (l : Fin 6) (rd ra : Fin 32) (s : State) : ∃ f, exec (.abs t tr l rd ra) s = s.run t f := by
  rw [exec_abs]; unfold execAbs; exact ⟨_, rfl⟩
theorem run_and (t : Nat) (tr : Fin 4) (l : Fin 6) (rd ra rb : Fin 32) (s : State) : ∃ f, exec (.and t tr l rd ra rb) s = s.run t f := by
  rw [exec_and]; unfold execAnd; exact ⟨_, rfl⟩
theorem run_or (t : Nat) (tr : Fin 4) (l : Fin 6) (rd ra rb : Fin 32) (s : State) : ∃ f, exec (.or t tr l rd ra rb) s = s.run t f := by
  rw [exec_or]; unfold execOr; exact ⟨_, rfl⟩
theorem run_xor (t : Nat) (tr : Fin 4) (l : Fin 6) (rd ra rb : Fin 32) (s : State) : ∃ f, exec (.xor t tr l rd ra rb) s = s.run t f := by
  rw [exec_xor]; unfold execXor; exact ⟨_, rfl⟩
theorem run_nor (t : Nat) (tr : Fin 4) (l : Fin 6) (rd ra rb : Fin 32) (s : State) : ∃ f, exec (.nor t tr l rd ra rb) s = s.run t f := by
  rw [exec_nor]; unfold execNor; exact ⟨_, rfl⟩
theorem run_andn (t : Nat) (tr : Fin 4) (l : Fin 6) (rd ra rb : Fin 32) (s : State) : ∃ f, exec (.andn t tr l rd ra rb) s = s.run t f := by
  rw [exec_andn]; unfold execAndn; exact ⟨_, rfl⟩
theorem run_sll (t : Nat) (tr : Fin 4) (l : Fin 6) (rd ra rb : Fin 32) (s : State) : ∃ f, exec (.sll t tr l rd ra rb) s = s.run t f := by
  rw [exec_sll]; unfold execSll; exact ⟨_, rfl⟩
theorem run_srl (t : Nat) (tr : Fin 4) (l : Fin 6) (rd ra rb : Fin 32) (s : State) : ∃ f, exec (.srl t tr l rd ra rb) s = s.run t f := by
  rw [exec_srl]; unfold execSrl; exact ⟨_, rfl⟩
theorem run_sra (t : Nat) (tr : Fin 4) (l : Fin 6) (rd ra rb : Fin 32) (s : State) : ∃ f, exec (.sra t tr l rd ra rb) s = s.run t f := by
  rw [exec_sra]; unfold execSra; exact ⟨_, rfl⟩
theorem run_ror (t : Nat) (tr : Fin 4) (l : Fin 6) (rd ra rb : Fin 32) (s : State) : ∃ f, exec (.ror t tr l rd ra rb) s = s.run t f := by
  rw [exec_ror]; unfold execRor; exact ⟨_, rfl⟩
theorem run_rol (t : Nat) (tr : Fin 4) (l : Fin 6) (rd ra rb : Fin 32) (s : State) : ∃ f, exec (.rol t tr l rd ra rb) s = s.run t f := by
  rw [exec_rol]; unfold execRol; exact ⟨_, rfl⟩
theorem run_slt (t : Nat) (tr : Fin 4) (l : Fin 6) (rd ra rb : Fin 32) (s : State) : ∃ f, exec (.slt t tr l rd ra rb) s = s.run t f := by
  rw [exec_slt]; unfold execSlt; exact ⟨_, rfl⟩
theorem run_sltu (t : Nat) (tr : Fin 4) (l : Fin 6) (rd ra rb : Fin 32) (s : State) : ∃ f, exec (.sltu t tr l rd ra rb) s = s.run t f := by
  rw [exec_sltu]; unfold execSltu; exact ⟨_, rfl⟩
theorem run_min (t : Nat) (tr : Fin 4) (l : Fin 6) (rd ra rb : Fin 32) (s : State) : ∃ f, exec (.min t tr l rd ra rb) s = s.run t f := by
  rw [exec_min]; unfold execMin; exact ⟨_, rfl⟩
theorem run_max (t : Nat) (tr : Fin 4) (l : Fin 6) (rd ra rb : Fin 32) (s : State) : ∃ f, exec (.max t tr l rd ra rb) s = s.run t f := by
  rw [exec_max]; unfold execMax; exact ⟨_, rfl⟩
theorem run_minu (t : Nat) (tr : Fin 4) (l : Fin 6) (rd ra rb : Fin 32) (s : State) : ∃ f, exec (.minu t tr l rd ra rb) s = s.run t f := by
  rw [exec_minu]; unfold execMinu; exact ⟨_, rfl⟩
theorem run_maxu (t : Nat) (tr : Fin 4) (l : Fin 6) (rd ra rb : Fin 32) (s : State) : ∃ f, exec (.maxu t tr l rd ra rb) s = s.run t f := by
  rw [exec_maxu]; unfold execMaxu; exact ⟨_, rfl⟩
theorem run_mul (t : Nat) (tr : Fin 4) (l : Fin 6) (rd ra rb : Fin 32) (s : State) : ∃ f, exec (.mul t tr l rd ra rb) s = s.run t f := by
  rw [exec_mul]; unfold execMul; exact ⟨_, rfl⟩
theorem run_mulh (t : Nat) (tr : Fin 4) (l : Fin 6) (rd ra rb : Fin 32) (s : State) : ∃ f, exec (.mulh t tr l rd ra rb) s = s.run t f := by
  rw [exec_mulh]; unfold execMulh; exact ⟨_, rfl⟩
theorem run_mulhu (t : Nat) (tr : Fin 4) (l : Fin 6) (rd ra rb : Fin 32) (s : State) : ∃ f, exec (.mulhu t tr l rd ra rb) s = s.run t f := by
  rw [exec_mulhu]; unfold execMulhu; exact ⟨_, rfl⟩
theorem run_div (t : Nat) (tr : Fin 4) (l : Fin 6) (rd ra rb : Fin 32) (s : State) : ∃ f, exec (.div t tr l rd ra rb) s = s.run t f := by
  rw [exec_div]; unfold execDiv; exact ⟨_, rfl⟩
theorem run_divu (t : Nat) (tr : Fin 4) (l : Fin 6) (rd ra rb : Fin 32) (s : State) : ∃ f, exec (.divu t tr l rd ra rb) s = s.run t f := by
  rw [exec_divu]; unfold execDivu; exact ⟨_, rfl⟩
theorem run_rem (t : Nat) (tr : Fin 4) (l : Fin 6) (rd ra rb : Fin 32) (s : State) : ∃ f, exec (.rem t tr l rd ra rb) s = s.run t f := by
  rw [exec_rem]; unfold execRem; exact ⟨_, rfl⟩
theorem run_remu (t : Nat) (tr : Fin 4) (l : Fin 6) (rd ra rb : Fin 32) (s : State) : ∃ f, exec (.remu t tr l rd ra rb) s = s.run t f := by
  rw [exec_remu]; unfold execRemu; exact ⟨_, rfl⟩
theorem run_clz (t : Nat) (tr : Fin 4) (l : Fin 6) (rd ra : Fin 32) (s : State) : ∃ f, exec (.clz t tr l rd ra) s = s.run t f := by
  rw [exec_clz]; unfold execClz; exact ⟨_, rfl⟩
theorem run_popc (t : Nat) (tr : Fin 4) (l : Fin 6) (rd ra : Fin 32) (s : State) : ∃ f, exec (.popc t tr l rd ra) s = s.run t f := by
  rw [exec_popc]; unfold execPopc; exact ⟨_, rfl⟩
theorem run_addi (t : Nat) (tr : Fin 4) (l : Fin 6) (rd ra : Fin 32) (imm : BitVec 16) (s : State) : ∃ f, exec (.addi t tr l rd ra imm) s = s.run t f := by
  rw [exec_addi]; unfold execAddi; exact ⟨_, rfl⟩
theorem run_slti (t : Nat) (tr : Fin 4) (l : Fin 6) (rd ra : Fin 32) (imm : BitVec 16) (s : State) : ∃ f, exec (.slti t tr l rd ra imm) s = s.run t f := by
  rw [exec_slti]; unfold execSlti; exact ⟨_, rfl⟩
theorem run_sltiu (t : Nat) (tr : Fin 4) (l : Fin 6) (rd ra : Fin 32) (imm : BitVec 16) (s : State) : ∃ f, exec (.sltiu t tr l rd ra imm) s = s.run t f := by
  rw [exec_sltiu]; unfold execSltiu; exact ⟨_, rfl⟩
theorem run_andi (t : Nat) (tr : Fin 4) (l : Fin 6) (rd ra : Fin 32) (imm : BitVec 16) (s : State) : ∃ f, exec (.andi t tr l rd ra imm) s = s.run t f := by
  rw [exec_andi]; unfold execAndi; exact ⟨_, rfl⟩
theorem run_ori (t : Nat) (tr : Fin 4) (l : Fin 6) (rd ra : Fin 32) (imm : BitVec 16) (s : State) : ∃ f, exec (.ori t tr l rd ra imm) s = s.run t f := by
  rw [exec_ori]; unfold execOri; exact ⟨_, rfl⟩
theorem run_xori (t : Nat) (tr : Fin 4) (l : Fin 6) (rd ra : Fin 32) (imm : BitVec 16) (s : State) : ∃ f, exec (.xori t tr l rd ra imm) s = s.run t f := by
  rw [exec_xori]; unfold execXori; exact ⟨_, rfl⟩
theorem run_lui (t : Nat) (tr : Fin 4) (l : Fin 6) (rd : Fin 32) (imm : BitVec 16) (s : State) : ∃ f, exec (.lui t tr l rd imm) s = s.run t f := by
  rw [exec_lui]; unfold execLui; exact ⟨_, rfl⟩
theorem run_slli (t : Nat) (tr : Fin 4) (l : Fin 6) (rd ra : Fin 32) (n : BitVec 8) (s : State) : ∃ f, exec (.slli t tr l rd ra n) s = s.run t f := by
  rw [exec_slli]; unfold execSlli; exact ⟨_, rfl⟩
theorem run_srli (t : Nat) (tr : Fin 4) (l : Fin 6) (rd ra : Fin 32) (n : BitVec 8) (s : State) : ∃ f, exec (.srli t tr l rd ra n) s = s.run t f := by
  rw [exec_srli]; unfold execSrli; exact ⟨_, rfl⟩
theorem run_srai (t : Nat) (tr : Fin 4) (l : Fin 6) (rd ra : Fin 32) (n : BitVec 8) (s : State) : ∃ f, exec (.srai t tr l rd ra n) s = s.run t f := by
  rw [exec_srai]; unfold execSrai; exact ⟨_, rfl⟩
theorem run_rori (t : Nat) (tr : Fin 4) (l : Fin 6) (rd ra : Fin 32) (n : BitVec 8) (s : State) : ∃ f, exec (.rori t tr l rd ra n) s = s.run t f := by
  rw [exec_rori]; unfold execRori; exact ⟨_, rfl⟩
theorem run_lw (t : Nat) (tr : Fin 4) (l : Fin 6) (rd ra : Fin 32) (imm : BitVec 16) (ecc : List (Nat × Bool)) (s : State) : ∃ f, exec (.lw t tr l rd ra imm ecc) s = s.run t f := by
  rw [exec_lw]; unfold execLw; exact ⟨_, rfl⟩
theorem run_lh (t : Nat) (tr : Fin 4) (l : Fin 6) (rd ra : Fin 32) (imm : BitVec 16) (ecc : List (Nat × Bool)) (s : State) : ∃ f, exec (.lh t tr l rd ra imm ecc) s = s.run t f := by
  rw [exec_lh]; unfold execLh; exact ⟨_, rfl⟩
theorem run_lhu (t : Nat) (tr : Fin 4) (l : Fin 6) (rd ra : Fin 32) (imm : BitVec 16) (ecc : List (Nat × Bool)) (s : State) : ∃ f, exec (.lhu t tr l rd ra imm ecc) s = s.run t f := by
  rw [exec_lhu]; unfold execLhu; exact ⟨_, rfl⟩
theorem run_lb (t : Nat) (tr : Fin 4) (l : Fin 6) (rd ra : Fin 32) (imm : BitVec 16) (ecc : List (Nat × Bool)) (s : State) : ∃ f, exec (.lb t tr l rd ra imm ecc) s = s.run t f := by
  rw [exec_lb]; unfold execLb; exact ⟨_, rfl⟩
theorem run_lbu (t : Nat) (tr : Fin 4) (l : Fin 6) (rd ra : Fin 32) (imm : BitVec 16) (ecc : List (Nat × Bool)) (s : State) : ∃ f, exec (.lbu t tr l rd ra imm ecc) s = s.run t f := by
  rw [exec_lbu]; unfold execLbu; exact ⟨_, rfl⟩
theorem run_sw (t : Nat) (tr : Fin 4) (l : Fin 6) (rs ra : Fin 32) (imm : BitVec 16) (s : State) : ∃ f, exec (.sw t tr l rs ra imm) s = s.run t f := by
  rw [exec_sw]; unfold execSw; exact ⟨_, rfl⟩
theorem run_sh (t : Nat) (tr : Fin 4) (l : Fin 6) (rs ra : Fin 32) (imm : BitVec 16) (s : State) : ∃ f, exec (.sh t tr l rs ra imm) s = s.run t f := by
  rw [exec_sh]; unfold execSh; exact ⟨_, rfl⟩
theorem run_sb (t : Nat) (tr : Fin 4) (l : Fin 6) (rs ra : Fin 32) (imm : BitVec 16) (s : State) : ∃ f, exec (.sb t tr l rs ra imm) s = s.run t f := by
  rw [exec_sb]; unfold execSb; exact ⟨_, rfl⟩
theorem run_beq (t : Nat) (tr : Fin 4) (l : Fin 6) (ra rb : Fin 32) (off : BitVec 16) (s : State) : ∃ f, exec (.beq t tr l ra rb off) s = s.run t f := by
  rw [exec_beq]; unfold execBeq; exact ⟨_, rfl⟩
theorem run_bne (t : Nat) (tr : Fin 4) (l : Fin 6) (ra rb : Fin 32) (off : BitVec 16) (s : State) : ∃ f, exec (.bne t tr l ra rb off) s = s.run t f := by
  rw [exec_bne]; unfold execBne; exact ⟨_, rfl⟩
theorem run_blt (t : Nat) (tr : Fin 4) (l : Fin 6) (ra rb : Fin 32) (off : BitVec 16) (s : State) : ∃ f, exec (.blt t tr l ra rb off) s = s.run t f := by
  rw [exec_blt]; unfold execBlt; exact ⟨_, rfl⟩
theorem run_bge (t : Nat) (tr : Fin 4) (l : Fin 6) (ra rb : Fin 32) (off : BitVec 16) (s : State) : ∃ f, exec (.bge t tr l ra rb off) s = s.run t f := by
  rw [exec_bge]; unfold execBge; exact ⟨_, rfl⟩
theorem run_bltu (t : Nat) (tr : Fin 4) (l : Fin 6) (ra rb : Fin 32) (off : BitVec 16) (s : State) : ∃ f, exec (.bltu t tr l ra rb off) s = s.run t f := by
  rw [exec_bltu]; unfold execBltu; exact ⟨_, rfl⟩
theorem run_bgeu (t : Nat) (tr : Fin 4) (l : Fin 6) (ra rb : Fin 32) (off : BitVec 16) (s : State) : ∃ f, exec (.bgeu t tr l ra rb off) s = s.run t f := by
  rw [exec_bgeu]; unfold execBgeu; exact ⟨_, rfl⟩
theorem run_j (t : Nat) (tr : Fin 4) (l : Fin 6) (off : BitVec 26) (s : State) : ∃ f, exec (.j t tr l off) s = s.run t f := by
  rw [exec_j]; unfold execJ; exact ⟨_, rfl⟩
theorem run_jal (t : Nat) (tr : Fin 4) (l : Fin 6) (off : BitVec 26) (s : State) : ∃ f, exec (.jal t tr l off) s = s.run t f := by
  rw [exec_jal]; unfold execJal; exact ⟨_, rfl⟩
theorem run_jalr (t : Nat) (tr : Fin 4) (l : Fin 6) (rd ra : Fin 32) (imm : BitVec 16) (s : State) : ∃ f, exec (.jalr t tr l rd ra imm) s = s.run t f := by
  rw [exec_jalr]; unfold execJalr; exact ⟨_, rfl⟩
theorem run_qpush (t : Nat) (tr : Fin 4) (l : Fin 6) (rp ra rd : Fin 32) (s : State) : ∃ f, exec (.qpush t tr l rp ra rd) s = s.run t f := by
  rw [exec_qpush]; unfold execQpush; exact ⟨_, rfl⟩
theorem run_qpop (t : Nat) (tr : Fin 4) (l : Fin 6) (rp ra rd : Fin 32) (s : State) : ∃ f, exec (.qpop t tr l rp ra rd) s = s.run t f := by
  rw [exec_qpop]; unfold execQpop; exact ⟨_, rfl⟩
theorem run_qpopt (t : Nat) (tr : Fin 4) (l : Fin 6) (rp ra rd : Fin 32) (tmo : BitVec 8) (s : State) : ∃ f, exec (.qpopt t tr l rp ra rd tmo) s = s.run t f := by
  rw [exec_qpopt]; unfold execQpopt; exact ⟨_, rfl⟩
theorem run_qcut (t : Nat) (tr : Fin 4) (l : Fin 6) (ra rd : Fin 32) (s : State) : ∃ f, exec (.qcut t tr l ra rd) s = s.run t f := by
  rw [exec_qcut]; unfold execQcut; exact ⟨_, rfl⟩
theorem run_qabort (t : Nat) (tr : Fin 4) (l : Fin 6) (ra rd : Fin 32) (s : State) : ∃ f, exec (.qabort t tr l ra rd) s = s.run t f := by
  rw [exec_qabort]; unfold execQabort; exact ⟨_, rfl⟩
theorem run_qrelease (t : Nat) (tr : Fin 4) (l : Fin 6) (ra rd : Fin 32) (s : State) : ∃ f, exec (.qrelease t tr l ra rd) s = s.run t f := by
  rw [exec_qrelease]; unfold execQrelease; exact ⟨_, rfl⟩
theorem run_qpush2 (t : Nat) (tr : Fin 4) (l : Fin 6) (rp ra rd : Fin 32) (s : State) : ∃ f, exec (.qpush2 t tr l rp ra rd) s = s.run t f := by
  rw [exec_qpush2]; unfold execQpush2; exact ⟨_, rfl⟩
theorem run_qpusht (t : Nat) (tr : Fin 4) (l : Fin 6) (rp ra rd : Fin 32) (tmo : BitVec 8) (s : State) : ∃ f, exec (.qpusht t tr l rp ra rd tmo) s = s.run t f := by
  rw [exec_qpusht]; unfold execQpusht; exact ⟨_, rfl⟩
theorem run_queueWaitTimeout (t : Nat) (tr : Fin 4) (l : Fin 6) (s : State) : ∃ f, exec (.queueWaitTimeout t tr l) s = s.run t f := by
  rw [exec_queueWaitTimeout]; unfold execQueueWaitTimeout; exact ⟨_, rfl⟩
theorem run_nop (t : Nat) (tr : Fin 4) (l : Fin 6) (s : State) : ∃ f, exec (.nop t tr l) s = s.run t f := by
  rw [exec_nop]; unfold execNop; exact ⟨_, rfl⟩
theorem run_mfsr (t : Nat) (tr : Fin 4) (l : Fin 6) (rd sr : Fin 32) (s : State) : ∃ f, exec (.mfsr t tr l rd sr) s = s.run t f := by
  rw [exec_mfsr]; unfold execMfsr; exact ⟨_, rfl⟩
theorem run_mtsr (t : Nat) (tr : Fin 4) (l : Fin 6) (sr ra : Fin 32) (s : State) : ∃ f, exec (.mtsr t tr l sr ra) s = s.run t f := by
  rw [exec_mtsr]; unfold execMtsr; exact ⟨_, rfl⟩
theorem run_tbr (t : Nat) (tr : Fin 4) (l : Fin 6) (rd sel : Fin 32) (s : State) : ∃ f, exec (.tbr t tr l rd sel) s = s.run t f := by
  rw [exec_tbr]; unfold execTbr; exact ⟨_, rfl⟩
theorem run_wait (t : Nat) (tr : Fin 4) (l : Fin 6) (rd ra rb : Fin 32) (s : State) : ∃ f, exec (.wait t tr l rd ra rb) s = s.run t f := by
  rw [exec_wait]; unfold execWait; exact ⟨_, rfl⟩
theorem run_waitWake (t : Nat) (tr : Fin 4) (l : Fin 6) (s : State) : ∃ f, exec (.waitWake t tr l) s = s.run t f := by
  rw [exec_waitWake]; unfold execWaitWake; exact ⟨_, rfl⟩
theorem run_syncpt (t : Nat) (tr : Fin 4) (l : Fin 6) (crcOk : Bool) (s : State) : ∃ f, exec (.syncpt t tr l crcOk) s = s.run t f := by
  rw [exec_syncpt]; unfold execSyncpt; exact ⟨_, rfl⟩
theorem run_lock (t : Nat) (tr : Fin 4) (l : Fin 6) (rd : Fin 32) (s : State) : ∃ f, exec (.lock t tr l rd) s = s.run t f := by
  rw [exec_lock]; unfold execLock; exact ⟨_, rfl⟩
theorem run_unlock (t : Nat) (tr : Fin 4) (l : Fin 6) (rd : Fin 32) (s : State) : ∃ f, exec (.unlock t tr l rd) s = s.run t f := by
  rw [exec_unlock]; unfold execUnlock; exact ⟨_, rfl⟩
theorem run_trap (t : Nat) (tr : Fin 4) (l : Fin 6) (code : Fin 32) (s : State) : ∃ f, exec (.trap t tr l code) s = s.run t f := by
  rw [exec_trap]; unfold execTrap; exact ⟨_, rfl⟩
theorem run_rte (t : Nat) (tr : Fin 4) (l : Fin 6) (s : State) : ∃ f, exec (.rte t tr l) s = s.run t f := by
  rw [exec_rte]; unfold execRte; exact ⟨_, rfl⟩
theorem run_halt (t : Nat) (tr : Fin 4) (l : Fin 6) (s : State) : ∃ f, exec (.halt t tr l) s = s.run t f := by
  rw [exec_halt]; unfold execHalt; exact ⟨_, rfl⟩
theorem run_presenceSend (t : Nat) (s : State) : ∃ f, exec (.presenceSend t) s = s.run t f := by
  rw [exec_presenceSend]; unfold execPresenceSend; exact ⟨_, rfl⟩
theorem run_presenceReceive (t : Nat) (link : Fin 4) (codeErr : Bool) (frame : List Byte) (s : State) : ∃ f, exec (.presenceReceive t link codeErr frame) s = s.run t f := by
  rw [exec_presenceReceive]; unfold execPresenceReceive; exact ⟨_, rfl⟩
theorem run_roleResolveTimeout (t : Nat) (s : State) : ∃ f, exec (.roleResolveTimeout t) s = s.run t f := by
  rw [exec_roleResolveTimeout]; unfold execRoleResolveTimeout; exact ⟨_, rfl⟩
theorem run_leaseExpiry (t : Nat) (s : State) : ∃ f, exec (.leaseExpiry t) s = s.run t f := by
  rw [exec_leaseExpiry]; unfold execLeaseExpiry; exact ⟨_, rfl⟩
theorem run_gatesOpen (t : Nat) (s : State) : ∃ f, exec (.gatesOpen t) s = s.run t f := by
  rw [exec_gatesOpen]; unfold execGatesOpen; exact ⟨_, rfl⟩
theorem run_takeover (t : Nat) (link : Fin 4) (codeErr : Bool) (frame : List Byte) (s : State) : ∃ f, exec (.takeover t link codeErr frame) s = s.run t f := by
  rw [exec_takeover]; unfold execTakeover; exact ⟨_, rfl⟩
theorem run_partnerLost (t : Nat) (s : State) : ∃ f, exec (.partnerLost t) s = s.run t f := by
  rw [exec_partnerLost]; unfold execPartnerLost; exact ⟨_, rfl⟩
theorem run_streamAbsentOriginate (t : Nat) (ring : Fin 64) (s : State) : ∃ f, exec (.streamAbsentOriginate t ring) s = s.run t f := by
  rw [exec_streamAbsentOriginate]; unfold execStreamAbsentOriginate; exact ⟨_, rfl⟩
theorem run_accept (t : Nat) (link : Fin 4) (codeErr : Bool) (frame : List Byte) (s : State) : ∃ f, exec (.accept t link codeErr frame) s = s.run t f := by
  rw [exec_accept]; unfold execAccept; exact ⟨_, rfl⟩
theorem run_content (t : Nat) (link : Fin 4) (codeErr : Bool) (frame : List Byte) (s : State) : ∃ f, exec (.content t link codeErr frame) s = s.run t f := by
  rw [exec_content]; unfold execContent; exact ⟨_, rfl⟩
theorem run_want (t : Nat) (link : Fin 4) (codeErr : Bool) (frame : List Byte) (s : State) : ∃ f, exec (.want t link codeErr frame) s = s.run t f := by
  rw [exec_want]; unfold execWant; exact ⟨_, rfl⟩
theorem run_mirrorMiss (t : Nat) (ring : Fin 64) (cycle addr ntype : Nat) (s : State) : ∃ f, exec (.mirrorMiss t ring cycle addr ntype) s = s.run t f := by
  rw [exec_mirrorMiss]; unfold execMirrorMiss; exact ⟨_, rfl⟩
theorem run_compare (t : Nat) (link : Fin 4) (codeErr : Bool) (frame : List Byte) (s : State) : ∃ f, exec (.compare t link codeErr frame) s = s.run t f := by
  rw [exec_compare]; unfold execCompare; exact ⟨_, rfl⟩
theorem run_state (t : Nat) (link : Fin 4) (codeErr : Bool) (frame : List Byte) (s : State) : ∃ f, exec (.state t link codeErr frame) s = s.run t f := by
  rw [exec_state]; unfold execState; exact ⟨_, rfl⟩
theorem run_takeSync (t : Nat) (link : Fin 4) (codeErr : Bool) (frame : List Byte) (s : State) : ∃ f, exec (.takeSync t link codeErr frame) s = s.run t f := by
  rw [exec_takeSync]; unfold execTakeSync; exact ⟨_, rfl⟩
theorem run_sinSwitch (t : Nat) (req : Nat) (s : State) : ∃ f, exec (.sinSwitch t req) s = s.run t f := by
  rw [exec_sinSwitch]; unfold execSinSwitch; exact ⟨_, rfl⟩
theorem run_switchAbort (t : Nat) (req : Nat) (s : State) : ∃ f, exec (.switchAbort t req) s = s.run t f := by
  rw [exec_switchAbort]; unfold execSwitchAbort; exact ⟨_, rfl⟩
theorem run_switch (t : Nat) (link : Fin 4) (codeErr : Bool) (frame : List Byte) (s : State) : ∃ f, exec (.switch t link codeErr frame) s = s.run t f := by
  rw [exec_switch]; unfold execSwitch; exact ⟨_, rfl⟩
theorem run_switchNoAck (t : Nat) (s : State) : ∃ f, exec (.switchNoAck t) s = s.run t f := by
  rw [exec_switchNoAck]; unfold execSwitchNoAck; exact ⟨_, rfl⟩
theorem run_switchBoundary (t : Nat) (s : State) : ∃ f, exec (.switchBoundary t) s = s.run t f := by
  rw [exec_switchBoundary]; unfold execSwitchBoundary; exact ⟨_, rfl⟩
theorem run_note (t : Nat) (link : Fin 4) (codeErr : Bool) (frame : List Byte) (s : State) : ∃ f, exec (.note t link codeErr frame) s = s.run t f := by
  rw [exec_note]; unfold execNote; exact ⟨_, rfl⟩
theorem run_peerDown (t : Nat) (link : Fin 4) (alignment : Bool) (s : State) : ∃ f, exec (.peerDown t link alignment) s = s.run t f := by
  rw [exec_peerDown]; unfold execPeerDown; exact ⟨_, rfl⟩
theorem run_peerUp (t : Nat) (link : Fin 4) (s : State) : ∃ f, exec (.peerUp t link) s = s.run t f := by
  rw [exec_peerUp]; unfold execPeerUp; exact ⟨_, rfl⟩
theorem run_cutReady (t : Nat) (link : Fin 4) (codeErr : Bool) (frame : List Byte) (s : State) : ∃ f, exec (.cutReady t link codeErr frame) s = s.run t f := by
  rw [exec_cutReady]; unfold execCutReady; exact ⟨_, rfl⟩
theorem run_splice (t : Nat) (link : Fin 4) (codeErr : Bool) (frame : List Byte) (s : State) : ∃ f, exec (.splice t link codeErr frame) s = s.run t f := by
  rw [exec_splice]; unfold execSplice; exact ⟨_, rfl⟩
theorem run_imgRxPush (t : Nat) (req : Nat) (value : Word) (s : State) : ∃ f, exec (.imgRxPush t req value) s = s.run t f := by
  rw [exec_imgRxPush]; unfold execImgRxPush; exact ⟨_, rfl⟩
theorem run_rxSessionTimeout (t : Nat) (s : State) : ∃ f, exec (.rxSessionTimeout t) s = s.run t f := by
  rw [exec_rxSessionTimeout]; unfold execRxSessionTimeout; exact ⟨_, rfl⟩
theorem run_imgRxAbort (t : Nat) (req : Nat) (value : Word) (s : State) : ∃ f, exec (.imgRxAbort t req value) s = s.run t f := by
  rw [exec_imgRxAbort]; unfold execImgRxAbort; exact ⟨_, rfl⟩
theorem run_slotWriteDone (t : Nat) (fail : Option Nat) (s : State) : ∃ f, exec (.slotWriteDone t fail) s = s.run t f := by
  rw [exec_slotWriteDone]; unfold execSlotWriteDone; exact ⟨_, rfl⟩
theorem run_imgKeyGo (t : Nat) (req : Nat) (value : Word) (s : State) : ∃ f, exec (.imgKeyGo t req value) s = s.run t f := by
  rw [exec_imgKeyGo]; unfold execImgKeyGo; exact ⟨_, rfl⟩
theorem run_keyFuseDone (t : Nat) (ok : Bool) (back : List Byte) (valid : Bool) (s : State) : ∃ f, exec (.keyFuseDone t ok back valid) s = s.run t f := by
  rw [exec_keyFuseDone]; unfold execKeyFuseDone; exact ⟨_, rfl⟩
theorem run_imgCommit (t : Nat) (req : Nat) (value : Word) (s : State) : ∃ f, exec (.imgCommit t req value) s = s.run t f := by
  rw [exec_imgCommit]; unfold execImgCommit; exact ⟨_, rfl⟩
theorem run_imgCutArm (t : Nat) (req : Nat) (value : Word) (s : State) : ∃ f, exec (.imgCutArm t req value) s = s.run t f := by
  rw [exec_imgCutArm]; unfold execImgCutArm; exact ⟨_, rfl⟩
theorem run_shadowBuilt (t : Nat) (damaged : Bool) (s : State) : ∃ f, exec (.shadowBuilt t damaged) s = s.run t f := by
  rw [exec_shadowBuilt]; unfold execShadowBuilt; exact ⟨_, rfl⟩
theorem run_cutover (t : Nat) (s : State) : ∃ f, exec (.cutover t) s = s.run t f := by
  rw [exec_cutover]; unfold execCutover; exact ⟨_, rfl⟩
theorem run_cutMissed (t : Nat) (s : State) : ∃ f, exec (.cutMissed t) s = s.run t f := by
  rw [exec_cutMissed]; unfold execCutMissed; exact ⟨_, rfl⟩
theorem run_imgCutDisarm (t : Nat) (req : Nat) (value : Word) (s : State) : ∃ f, exec (.imgCutDisarm t req value) s = s.run t f := by
  rw [exec_imgCutDisarm]; unfold execImgCutDisarm; exact ⟨_, rfl⟩
theorem run_imgActivate (t : Nat) (req : Nat) (value : Word) (s : State) : ∃ f, exec (.imgActivate t req value) s = s.run t f := by
  rw [exec_imgActivate]; unfold execImgActivate; exact ⟨_, rfl⟩
theorem run_activateBuildDone (t : Nat) (damaged : Bool) (s : State) : ∃ f, exec (.activateBuildDone t damaged) s = s.run t f := by
  rw [exec_activateBuildDone]; unfold execActivateBuildDone; exact ⟨_, rfl⟩
theorem run_ethFrameReceive (t : Nat) (port : Fin 4) (frame : List Byte) (s : State) : ∃ f, exec (.ethFrameReceive t port frame) s = s.run t f := by
  rw [exec_ethFrameReceive]; unfold execEthFrameReceive; exact ⟨_, rfl⟩
theorem run_ethLinkChange (t : Nat) (port : Fin 4) (up : Bool) (speed : Fin 4) (s : State) : ∃ f, exec (.ethLinkChange t port up speed) s = s.run t f := by
  rw [exec_ethLinkChange]; unfold execEthLinkChange; exact ⟨_, rfl⟩
theorem run_prpSupervisionSend (t : Nat) (pair : Fin 2) (s : State) : ∃ f, exec (.prpSupervisionSend t pair) s = s.run t f := by
  rw [exec_prpSupervisionSend]; unfold execPrpSupervisionSend; exact ⟨_, rfl⟩
theorem run_prpPathSilent (t : Nat) (port : Fin 4) (s : State) : ∃ f, exec (.prpPathSilent t port) s = s.run t f := by
  rw [exec_prpPathSilent]; unfold execPrpPathSilent; exact ⟨_, rfl⟩
theorem run_macsecTxSwitch (t : Nat) (port : Fin 4) (s : State) : ∃ f, exec (.macsecTxSwitch t port) s = s.run t f := by
  rw [exec_macsecTxSwitch]; unfold execMacsecTxSwitch; exact ⟨_, rfl⟩
theorem run_macsecOldRxRemove (t : Nat) (port : Fin 4) (s : State) : ∃ f, exec (.macsecOldRxRemove t port) s = s.run t f := by
  rw [exec_macsecOldRxRemove]; unfold execMacsecOldRxRemove; exact ⟨_, rfl⟩
theorem run_egressUnitTake (t : Nat) (port : Fin 4) (qid : Nat) (s : State) : ∃ f, exec (.egressUnitTake t port qid) s = s.run t f := by
  rw [exec_egressUnitTake]; unfold execEgressUnitTake; exact ⟨_, rfl⟩
theorem run_telemetryFlush (t : Nat) (binding : Fin 32) (s : State) : ∃ f, exec (.telemetryFlush t binding) s = s.run t f := by
  rw [exec_telemetryFlush]; unfold execTelemetryFlush; exact ⟨_, rfl⟩
theorem run_cwpRequest (t : Nat) (port : Fin 4) (s : State) : ∃ f, exec (.cwpRequest t port) s = s.run t f := by
  rw [exec_cwpRequest]; unfold execCwpRequest; exact ⟨_, rfl⟩
theorem run_cwpOpen (t : Nat) (port : Fin 4) (s : State) : ∃ f, exec (.cwpOpen t port) s = s.run t f := by
  rw [exec_cwpOpen]; unfold execCwpOpen; exact ⟨_, rfl⟩
theorem run_cwpClose (t : Nat) (port : Fin 4) (s : State) : ∃ f, exec (.cwpClose t port) s = s.run t f := by
  rw [exec_cwpClose]; unfold execCwpClose; exact ⟨_, rfl⟩
theorem run_cwpIdleTimeout (t : Nat) (session : Fin 64) (s : State) : ∃ f, exec (.cwpIdleTimeout t session) s = s.run t f := by
  rw [exec_cwpIdleTimeout]; unfold execCwpIdleTimeout; exact ⟨_, rfl⟩
theorem run_pcieLinkChange (t : Nat) (up : Bool) (speed : Fin 4) (width : Fin 4) (bme0 bme1 : Bool) (s : State) : ∃ f, exec (.pcieLinkChange t up speed width bme0 bme1) s = s.run t f := by
  rw [exec_pcieLinkChange]; unfold execPcieLinkChange; exact ⟨_, rfl⟩
theorem run_pcieFlr (t : Nat) (func : Fin 2) (s : State) : ∃ f, exec (.pcieFlr t func) s = s.run t f := by
  rw [exec_pcieFlr]; unfold execPcieFlr; exact ⟨_, rfl⟩
theorem run_msixFire (t : Nat) (vector : Fin 64) (masked : Bool) (s : State) : ∃ f, exec (.msixFire t vector masked) s = s.run t f := by
  rw [exec_msixFire]; unfold execMsixFire; exact ⟨_, rfl⟩
theorem run_glbMsixArm (t : Nat) (req : Nat) (vector : Fin 64) (value : Word) (masked : Bool) (s : State) : ∃ f, exec (.glbMsixArm t req vector value masked) s = s.run t f := by
  rw [exec_glbMsixArm]; unfold execGlbMsixArm; exact ⟨_, rfl⟩
theorem run_glbMsixMap (t : Nat) (req : Nat) (vector : Fin 64) (value : Word) (s : State) : ∃ f, exec (.glbMsixMap t req vector value) s = s.run t f := by
  rw [exec_glbMsixMap]; unfold execGlbMsixMap; exact ⟨_, rfl⟩
theorem run_glbKeyEnrol (t : Nat) (req : Nat) (entry : Fin 64) (s : State) : ∃ f, exec (.glbKeyEnrol t req entry) s = s.run t f := by
  rw [exec_glbKeyEnrol]; unfold execGlbKeyEnrol; exact ⟨_, rfl⟩
theorem run_glbKeyErase (t : Nat) (req : Nat) (entry : Fin 64) (s : State) : ∃ f, exec (.glbKeyErase t req entry) s = s.run t f := by
  rw [exec_glbKeyErase]; unfold execGlbKeyErase; exact ⟨_, rfl⟩
theorem run_keyStoreDone (t : Nat) (ok : Bool) (s : State) : ∃ f, exec (.keyStoreDone t ok) s = s.run t f := by
  rw [exec_keyStoreDone]; unfold execKeyStoreDone; exact ⟨_, rfl⟩
theorem run_fulltimeNsRead (t : Nat) (req off : Nat) (s : State) : ∃ f, exec (.fulltimeNsRead t req off) s = s.run t f := by
  rw [exec_fulltimeNsRead]; unfold execFulltimeNsRead; exact ⟨_, rfl⟩
theorem run_wideLowRead (t : Nat) (req off : Nat) (s : State) : ∃ f, exec (.wideLowRead t req off) s = s.run t f := by
  rw [exec_wideLowRead]; unfold execWideLowRead; exact ⟨_, rfl⟩
theorem run_registerWrite (t : Nat) (req off : Nat) (value : Word) (be : BitVec 4) (s : State) : ∃ f, exec (.registerWrite t req off value be) s = s.run t f := by
  rw [exec_registerWrite]; unfold execRegisterWrite; exact ⟨_, rfl⟩
theorem run_canSlotEnd (t : Nat) (ctrl : Fin 4) (s : State) : ∃ f, exec (.canSlotEnd t ctrl) s = s.run t f := by
  rw [exec_canSlotEnd]; unfold execCanSlotEnd; exact ⟨_, rfl⟩
theorem run_canFrameReceive (t : Nat) (ctrl : Fin 4) (id : Nat) (ide fdf brs esi : Bool) (dlc : Fin 16) (data : List Byte) (sof : Nat) (s : State) : ∃ f, exec (.canFrameReceive t ctrl id ide fdf brs esi dlc data sof) s = s.run t f := by
  rw [exec_canFrameReceive]; unfold execCanFrameReceive; exact ⟨_, rfl⟩
theorem run_canBusOff (t : Nat) (ctrl : Fin 4) (tec : Nat) (s : State) : ∃ f, exec (.canBusOff t ctrl tec) s = s.run t f := by
  rw [exec_canBusOff]; unfold execCanBusOff; exact ⟨_, rfl⟩
theorem run_canRecover (t : Nat) (ctrl : Fin 4) (s : State) : ∃ f, exec (.canRecover t ctrl) s = s.run t f := by
  rw [exec_canRecover]; unfold execCanRecover; exact ⟨_, rfl⟩
theorem run_canErrorPassive (t : Nat) (ctrl : Fin 4) (tec recv : Nat) (s : State) : ∃ f, exec (.canErrorPassive t ctrl tec recv) s = s.run t f := by
  rw [exec_canErrorPassive]; unfold execCanErrorPassive; exact ⟨_, rfl⟩
theorem run_qdSample (t : Nat) (qd : Fin 8) (a b z : Bool) (s : State) : ∃ f, exec (.qdSample t qd a b z) s = s.run t f := by
  rw [exec_qdSample]; unfold execQdSample; exact ⟨_, rfl⟩
theorem run_fldQdSet (t : Nat) (req : Nat) (qd : Fin 8) (value : Word) (s : State) : ∃ f, exec (.fldQdSet t req qd value) s = s.run t f := by
  rw [exec_fldQdSet]; unfold execFldQdSet; exact ⟨_, rfl⟩
theorem run_fldQdErrcnt (t : Nat) (req : Nat) (qd : Fin 8) (value : Word) (s : State) : ∃ f, exec (.fldQdErrcnt t req qd value) s = s.run t f := by
  rw [exec_fldQdErrcnt]; unfold execFldQdErrcnt; exact ⟨_, rfl⟩
theorem run_pwmPeriodStart (t : Nat) (pwm : Fin 16) (s : State) : ∃ f, exec (.pwmPeriodStart t pwm) s = s.run t f := by
  rw [exec_pwmPeriodStart]; unfold execPwmPeriodStart; exact ⟨_, rfl⟩
theorem run_fldPwmHost (t : Nat) (req : Nat) (pwm : Fin 16) (value : Word) (s : State) : ∃ f, exec (.fldPwmHost t req pwm value) s = s.run t f := by
  rw [exec_fldPwmHost]; unfold execFldPwmHost; exact ⟨_, rfl⟩
theorem run_gpioInputChange (t : Nat) (pin : Fin 16) (level : Bool) (s : State) : ∃ f, exec (.gpioInputChange t pin level) s = s.run t f := by
  rw [exec_gpioInputChange]; unfold execGpioInputChange; exact ⟨_, rfl⟩
theorem run_fldGpioOut (t : Nat) (req : Nat) (value : Word) (s : State) : ∃ f, exec (.fldGpioOut t req value) s = s.run t f := by
  rw [exec_fldGpioOut]; unfold execFldGpioOut; exact ⟨_, rfl⟩
theorem run_fldInputDebounce (t : Nat) (input : Fin 8) (level : Bool) (s : State) : ∃ f, exec (.fldInputDebounce t input level) s = s.run t f := by
  rw [exec_fldInputDebounce]; unfold execFldInputDebounce; exact ⟨_, rfl⟩
theorem run_grantReclaim (t : Nat) (client : Fin 140) (s : State) : ∃ f, exec (.grantReclaim t client) s = s.run t f := by
  rw [exec_grantReclaim]; unfold execGrantReclaim; exact ⟨_, rfl⟩
theorem run_gafCap (t : Nat) (req : Nat) (client : Fin 140) (value : Word) (s : State) : ∃ f, exec (.gafCap t req client value) s = s.run t f := by
  rw [exec_gafCap]; unfold execGafCap; exact ⟨_, rfl⟩
theorem run_dieSensorSample (t : Nat) (temps : List Int) (s : State) : ∃ f, exec (.dieSensorSample t temps) s = s.run t f := by
  rw [exec_dieSensorSample]; unfold execDieSensorSample; exact ⟨_, rfl⟩
theorem run_hwThermalShutdown (t : Nat) (sensor : Fin 32) (s : State) : ∃ f, exec (.hwThermalShutdown t sensor) s = s.run t f := by
  rw [exec_hwThermalShutdown]; unfold execHwThermalShutdown; exact ⟨_, rfl⟩
theorem run_haltForce (t : Nat) (s : State) : ∃ f, exec (.haltForce t) s = s.run t f := by
  rw [exec_haltForce]; unfold execHaltForce; exact ⟨_, rfl⟩
theorem run_gafSensRestore (t : Nat) (req : Nat) (sensor : Fin 32) (s : State) : ∃ f, exec (.gafSensRestore t req sensor) s = s.run t f := by
  rw [exec_gafSensRestore]; unfold execGafSensRestore; exact ⟨_, rfl⟩
theorem run_throttleGraceExpiry (t : Nat) (s : State) : ∃ f, exec (.throttleGraceExpiry t) s = s.run t f := by
  rw [exec_throttleGraceExpiry]; unfold execThrottleGraceExpiry; exact ⟨_, rfl⟩
theorem run_throttleStep (t : Nat) (s : State) : ∃ f, exec (.throttleStep t) s = s.run t f := by
  rw [exec_throttleStep]; unfold execThrottleStep; exact ⟨_, rfl⟩
theorem run_throttleReleaseStep (t : Nat) (s : State) : ∃ f, exec (.throttleReleaseStep t) s = s.run t f := by
  rw [exec_throttleReleaseStep]; unfold execThrottleReleaseStep; exact ⟨_, rfl⟩
theorem run_compensationUpdate (t : Nat) (s : State) : ∃ f, exec (.compensationUpdate t) s = s.run t f := by
  rw [exec_compensationUpdate]; unfold execCompensationUpdate; exact ⟨_, rfl⟩
theorem run_heatPoolEvaluate (t : Nat) (s : State) : ∃ f, exec (.heatPoolEvaluate t) s = s.run t f := by
  rw [exec_heatPoolEvaluate]; unfold execHeatPoolEvaluate; exact ⟨_, rfl⟩
theorem run_shutdownReq (t : Nat) (s : State) : ∃ f, exec (.shutdownReq t) s = s.run t f := by
  rw [exec_shutdownReq]; unfold execShutdownReq; exact ⟨_, rfl⟩
theorem run_pwrGoodFall (t : Nat) (s : State) : ∃ f, exec (.pwrGoodFall t) s = s.run t f := by
  rw [exec_pwrGoodFall]; unfold execPwrGoodFall; exact ⟨_, rfl⟩
theorem run_wrapStringStep (t : Nat) (string : Fin 256) (s : State) : ∃ f, exec (.wrapStringStep t string) s = s.run t f := by
  rw [exec_wrapStringStep]; unfold execWrapStringStep; exact ⟨_, rfl⟩
theorem run_wrapHoldT (t : Nat) (s : State) : ∃ f, exec (.wrapHoldT t) s = s.run t f := by
  rw [exec_wrapHoldT]; unfold execWrapHoldT; exact ⟨_, rfl⟩
theorem run_wrapOpenTimeout (t : Nat) (string : Fin 256) (s : State) : ∃ f, exec (.wrapOpenTimeout t string) s = s.run t f := by
  rw [exec_wrapOpenTimeout]; unfold execWrapOpenTimeout; exact ⟨_, rfl⟩
theorem run_wrapComplete (t : Nat) (s : State) : ∃ f, exec (.wrapComplete t) s = s.run t f := by
  rw [exec_wrapComplete]; unfold execWrapComplete; exact ⟨_, rfl⟩
theorem run_wrapLimit (t : Nat) (s : State) : ∃ f, exec (.wrapLimit t) s = s.run t f := by
  rw [exec_wrapLimit]; unfold execWrapLimit; exact ⟨_, rfl⟩
theorem run_immediateShutdown (t : Nat) (s : State) : ∃ f, exec (.immediateShutdown t) s = s.run t f := by
  rw [exec_immediateShutdown]; unfold execImmediateShutdown; exact ⟨_, rfl⟩
theorem run_wakePin (t : Nat) (pin : Fin 4) (s : State) : ∃ f, exec (.wakePin t pin) s = s.run t f := by
  rw [exec_wakePin]; unfold execWakePin; exact ⟨_, rfl⟩
theorem run_rtcAlarm (t : Nat) (s : State) : ∃ f, exec (.rtcAlarm t) s = s.run t f := by
  rw [exec_rtcAlarm]; unfold execRtcAlarm; exact ⟨_, rfl⟩
theorem run_wchRelease (t : Nat) (req : Nat) (value : Word) (s : State) : ∃ f, exec (.wchRelease t req value) s = s.run t f := by
  rw [exec_wchRelease]; unfold execWchRelease; exact ⟨_, rfl⟩
theorem run_daily (t : Nat) (adc : List (List Nat)) (pins : Nat) (t30 t31 : Int) (s : State) : ∃ f, exec (.daily t adc pins t30 t31) s = s.run t f := by
  rw [exec_daily]; unfold execDaily; exact ⟨_, rfl⟩
theorem run_toneDetect (t : Nat) (port : Fin 128) (s : State) : ∃ f, exec (.toneDetect t port) s = s.run t f := by
  rw [exec_toneDetect]; unfold execToneDetect; exact ⟨_, rfl⟩
theorem run_vbatLow (t : Nat) (s : State) : ∃ f, exec (.vbatLow t) s = s.run t f := by
  rw [exec_vbatLow]; unfold execVbatLow; exact ⟨_, rfl⟩
theorem run_recordWriteDone (t : Nat) (bb : Bool) (copy0 copy1 : NvProg) (s : State) : ∃ f, exec (.recordWriteDone t bb copy0 copy1) s = s.run t f := by
  rw [exec_recordWriteDone]; unfold execRecordWriteDone; exact ⟨_, rfl⟩
theorem run_pstScrub (t : Nat) (found : List (Nat × Nat)) (s : State) : ∃ f, exec (.pstScrub t found) s = s.run t f := by
  rw [exec_pstScrub]; unfold execPstScrub; exact ⟨_, rfl⟩
theorem run_pstBbSel (t : Nat) (req : Nat) (value : Word) (s : State) : ∃ f, exec (.pstBbSel t req value) s = s.run t f := by
  rw [exec_pstBbSel]; unfold execPstBbSel; exact ⟨_, rfl⟩
theorem run_tagRfRead (t : Nat) (cmd : Nat) (uid : Option Nat) (sel : Bool) (block n : Nat) (s : State) : ∃ f, exec (.tagRfRead t cmd uid sel block n) s = s.run t f := by
  rw [exec_tagRfRead]; unfold execTagRfRead; exact ⟨_, rfl⟩
theorem run_tagRfWrite (t : Nat) (cmd : Nat) (uid : Option Nat) (sel : Bool) (block : Nat) (data : List Byte) (s : State) : ∃ f, exec (.tagRfWrite t cmd uid sel block data) s = s.run t f := by
  rw [exec_tagRfWrite]; unfold execTagRfWrite; exact ⟨_, rfl⟩
theorem run_tagFieldLoss (t : Nat) (s : State) : ∃ f, exec (.tagFieldLoss t) s = s.run t f := by
  rw [exec_tagFieldLoss]; unfold execTagFieldLoss; exact ⟨_, rfl⟩
theorem run_tagRfIdle (t : Nat) (s : State) : ∃ f, exec (.tagRfIdle t) s = s.run t f := by
  rw [exec_tagRfIdle]; unfold execTagRfIdle; exact ⟨_, rfl⟩
theorem run_tagCommit (t : Nat) (page : Fin 32) (busy : Bool) (s : State) : ∃ f, exec (.tagCommit t page busy) s = s.run t f := by
  rw [exec_tagCommit]; unfold execTagCommit; exact ⟨_, rfl⟩
theorem run_tagRefresh (t : Nat) (s : State) : ∃ f, exec (.tagRefresh t) s = s.run t f := by
  rw [exec_tagRefresh]; unfold execTagRefresh; exact ⟨_, rfl⟩
theorem run_pstTagCommit (t : Nat) (req : Nat) (value : Word) (s : State) : ∃ f, exec (.pstTagCommit t req value) s = s.run t f := by
  rw [exec_pstTagCommit]; unfold execPstTagCommit; exact ⟨_, rfl⟩
theorem run_bypass (t : Nat) (s : State) : ∃ f, exec (.bypass t) s = s.run t f := by
  rw [exec_bypass]; unfold execBypass; exact ⟨_, rfl⟩
theorem run_idcode (t : Nat) (s : State) : ∃ f, exec (.idcode t) s = s.run t f := by
  rw [exec_idcode]; unfold execIdcode; exact ⟨_, rfl⟩
theorem run_samplePreload (t : Nat) (s : State) : ∃ f, exec (.samplePreload t) s = s.run t f := by
  rw [exec_samplePreload]; unfold execSamplePreload; exact ⟨_, rfl⟩
theorem run_extest (t : Nat) (dbgEn : Bool) (s : State) : ∃ f, exec (.extest t dbgEn) s = s.run t f := by
  rw [exec_extest]; unfold execExtest; exact ⟨_, rfl⟩
theorem run_clamp (t : Nat) (dbgEn : Bool) (s : State) : ∃ f, exec (.clamp t dbgEn) s = s.run t f := by
  rw [exec_clamp]; unfold execClamp; exact ⟨_, rfl⟩
theorem run_intest (t : Nat) (dbgEn : Bool) (s : State) : ∃ f, exec (.intest t dbgEn) s = s.run t f := by
  rw [exec_intest]; unfold execIntest; exact ⟨_, rfl⟩
theorem run_vbatRemoved (t : Nat) (s : State) : ∃ f, exec (.vbatRemoved t) s = s.run t f := by
  rw [exec_vbatRemoved]; unfold execVbatRemoved; exact ⟨_, rfl⟩
theorem run_forceShadowBuilt (t : Nat) (damaged : Bool) (s : State) : ∃ f, exec (.forceShadowBuilt t damaged) s = s.run t f := by
  rw [exec_forceShadowBuilt]; unfold execForceShadowBuilt; exact ⟨_, rfl⟩
theorem run_ref10Restored (t : Nat) (s : State) : ∃ f, exec (.ref10Restored t) s = s.run t f := by
  rw [exec_ref10Restored]; unfold execRef10Restored; exact ⟨_, rfl⟩
theorem run_ptpMessageSend (t : Nat) (port : Fin 4) (kind : Nat) (s : State) : ∃ f, exec (.ptpMessageSend t port kind) s = s.run t f := by
  rw [exec_ptpMessageSend]; unfold execPtpMessageSend; exact ⟨_, rfl⟩
theorem run_lnkPortLos (t : Nat) (port : Fin 128) (s : State) : ∃ f, exec (.lnkPortLos t port) s = s.run t f := by
  rw [exec_lnkPortLos]; unfold execLnkPortLos; exact ⟨_, rfl⟩
theorem run_lnkPortSyncGained (t : Nat) (port : Fin 128) (s : State) : ∃ f, exec (.lnkPortSyncGained t port) s = s.run t f := by
  rw [exec_lnkPortSyncGained]; unfold execLnkPortSyncGained; exact ⟨_, rfl⟩
theorem run_tripFbChange (t : Nat) (output : Fin 6) (level : Bool) (s : State) : ∃ f, exec (.tripFbChange t output level) s = s.run t f := by
  rw [exec_tripFbChange]; unfold execTripFbChange; exact ⟨_, rfl⟩
theorem run_laneSilent (t : Nat) (tr : Fin 4) (lane : Nat) (pc : Word) (s : State) : ∃ f, exec (.laneSilent t tr lane pc) s = s.run t f := by
  rw [exec_laneSilent]; unfold execLaneSilent; exact ⟨_, rfl⟩
theorem run_illegalWord (t : Nat) (tr : Fin 4) (l : Fin 6) (s : State) : ∃ f, exec (.illegalWord t tr l) s = s.run t f := by
  rw [exec_illegalWord]; unfold execIllegalWord; exact ⟨_, rfl⟩
theorem run_fetchBusFault (t : Nat) (tr : Fin 4) (l : Fin 6) (s : State) : ∃ f, exec (.fetchBusFault t tr l) s = s.run t f := by
  rw [exec_fetchBusFault]; unfold execFetchBusFault; exact ⟨_, rfl⟩
theorem run_leaseSetReceive (t : Nat) (ring : Fin 64) (rot : Fin 2) (delay : Nat) (s : State) : ∃ f, exec (.leaseSetReceive t ring rot delay) s = s.run t f := by
  rw [exec_leaseSetReceive]; unfold execLeaseSetReceive; exact ⟨_, rfl⟩
theorem run_commitFusesDone (t : Nat) (s : State) : ∃ f, exec (.commitFusesDone t) s = s.run t f := by
  rw [exec_commitFusesDone]; unfold execCommitFusesDone; exact ⟨_, rfl⟩
theorem run_rtcCompensation (t : Nat) (t30 t31 : Int) (s : State) : ∃ f, exec (.rtcCompensation t t30 t31) s = s.run t f := by
  rw [exec_rtcCompensation]; unfold execRtcCompensation; exact ⟨_, rfl⟩
theorem run_tagRfCommand (t : Nat) (cmd : Nat) (uid : Option Nat) (sel : Bool) (maskLen mask : Nat) (s : State) : ∃ f, exec (.tagRfCommand t cmd uid sel maskLen mask) s = s.run t f := by
  rw [exec_tagRfCommand]; unfold execTagRfCommand; exact ⟨_, rfl⟩
theorem run_rcRead (t : Nat) (req off : Nat) (s : State) : ∃ f, exec (.rcRead t req off) s = s.run t f := by
  rw [exec_rcRead]; unfold execRcRead; exact ⟨_, rfl⟩

/-- Every command is one run at its instant. -/
theorem exec_run (c : Instr) (s : State) : ∃ f, exec c s = s.run c.time f :=
  match c with
  | .vbatApplied t => run_vbatApplied t s
  | .vauxApplied t b => run_vauxApplied t b s
  | .vauxRemoved t => run_vauxRemoved t s
  | .powerOn t b => run_powerOn t b s
  | .mainRailsLost t => run_mainRailsLost t s
  | .resetNAsserted t b => run_resetNAsserted t b s
  | .bootSlotLoad t damaged => run_bootSlotLoad t damaged s
  | .structureBuilt t => run_structureBuilt t s
  | .enterRun t => run_enterRun t s
  | .glbGo t req => run_glbGo t req s
  | .glbWrap t req => run_glbWrap t req s
  | .cycleBoundary t => run_cycleBoundary t s
  | .cmdOverrun t ring qid => run_cmdOverrun t ring qid s
  | .nodeFrameReceive t port cycle pos codeErr frame => run_nodeFrameReceive t port cycle pos codeErr frame s
  | .frameHoldDeadline t ring cycle addr ntype => run_frameHoldDeadline t ring cycle addr ntype s
  | .cycReturn t ring rot delay => run_cycReturn t ring rot delay s
  | .ringLong t ring => run_ringLong t ring s
  | .ringBreak t ring => run_ringBreak t ring s
  | .ringRestored t ring => run_ringRestored t ring s
  | .cycReceive t ring rot orig => run_cycReceive t ring rot orig s
  | .lnkRingEnum t req ring => run_lnkRingEnum t req ring s
  | .enumReply t ring addr data => run_enumReply t ring addr data s
  | .enumEnd t ring => run_enumEnd t ring s
  | .lnkRingWake t req ring => run_lnkRingWake t req ring s
  | .lnkRingSleep t req ring => run_lnkRingSleep t req ring s
  | .lnkPortEnable t req port enable => run_lnkPortEnable t req port enable s
  | .lnkPortWake t req port value => run_lnkPortWake t req port value s
  | .ptpEventReceive t port kind value => run_ptpEventReceive t port kind value s
  | .ptpAnnounceReceive t port dataset utc leap61 leap59 malformed => run_ptpAnnounceReceive t port dataset utc leap61 leap59 malformed s
  | .ptpSourceTimeout t port => run_ptpSourceTimeout t port s
  | .ppsEdge t => run_ppsEdge t s
  | .ppsEdgeMissing t => run_ppsEdgeMissing t s
  | .timebaseStep t => run_timebaseStep t s
  | .slewComplete t => run_slewComplete t s
  | .tbTimeWrite t req ns => run_tbTimeWrite t req ns s
  | .holdoverSecond t => run_holdoverSecond t s
  | .tcompLearn t => run_tcompLearn t s
  | .refFail t deviation => run_refFail t deviation s
  | .ref10Lost t => run_ref10Lost t s
  | .rtcUpdate t => run_rtcUpdate t s
  | .slateSyncEdge t dev => run_slateSyncEdge t dev s
  | .syncLost t => run_syncLost t s
  | .boardMasterElection t => run_boardMasterElection t s
  | .boardTime t link codeErr frame => run_boardTime t link codeErr frame s
  | .twtt t link codeErr frame => run_twtt t link codeErr frame s
  | .tbUtcSet t req value => run_tbUtcSet t req value s
  | .swpSamplePacket t ring qid => run_swpSamplePacket t ring qid s
  | .openWireEvaluate t ring take => run_openWireEvaluate t ring take s
  | .swpOwClear t req value => run_swpOwClear t req value s
  | .balQuiet t => run_balQuiet t s
  | .balPlan t => run_balPlan t s
  | .balClose t => run_balClose t s
  | .nodeWake t port => run_nodeWake t port s
  | .qfOpen t req qid value => run_qfOpen t req qid value s
  | .qfAppend t req qid value => run_qfAppend t req qid value s
  | .qfClose t req qid value => run_qfClose t req qid value s
  | .qfPushSingle t req qid value => run_qfPushSingle t req qid value s
  | .qfPop t req qid => run_qfPop t req qid s
  | .doorbellLowWrite t req qid value => run_doorbellLowWrite t req qid value s
  | .doorbellHighRead t req qid => run_doorbellHighRead t req qid s
  | .hostPopTimeout t req => run_hostPopTimeout t req s
  | .popWaitResume t req qid => run_popWaitResume t req qid s
  | .blockWaitResume t qid => run_blockWaitResume t qid s
  | .qfCut t req qid => run_qfCut t req qid s
  | .qfAbort t req qid => run_qfAbort t req qid s
  | .qfRelease t req qid => run_qfRelease t req qid s
  | .qfFlush t req qid => run_qfFlush t req qid s
  | .lockReclaimProducer t qid => run_lockReclaimProducer t qid s
  | .lockReclaimConsumer t qid => run_lockReclaimConsumer t qid s
  | .qstatRead t req qid => run_qstatRead t req qid s
  | .qstatWmClear t req qid => run_qstatWmClear t req qid s
  | .qstatLossClear t req qid => run_qstatLossClear t req qid s
  | .stallWarn t qid => run_stallWarn t qid s
  | .qfEccUncorrectable t qid pos descriptor => run_qfEccUncorrectable t qid pos descriptor s
  | .estInputItem t ring qid => run_estInputItem t ring qid s
  | .takeClosure t ring => run_takeClosure t ring s
  | .resetImp t req ch => run_resetImp t req ch s
  | .resetCap t req ch => run_resetCap t req ch s
  | .resetEfc t req ch => run_resetEfc t req ch s
  | .anchorFull t req ch => run_anchorFull t req ch s
  | .anchorEmpty t req ch => run_anchorEmpty t req ch s
  | .reportNow t req ch => run_reportNow t req ch s
  | .lpeInputItem t ctx qid => run_lpeInputItem t ctx qid s
  | .satExpired t ctx => run_satExpired t ctx s
  | .measurementLost t ctx => run_measurementLost t ctx s
  | .tickSkip t ctx => run_tickSkip t ctx s
  | .lpeResume t req ctx => run_lpeResume t req ctx s
  | .lpeForceSafe t req ctx => run_lpeForceSafe t req ctx s
  | .lpeResetX t req ctx => run_lpeResetX t req ctx s
  | .dspInputRecord t qid => run_dspInputRecord t qid s
  | .dspCanInput t qid => run_dspCanInput t qid s
  | .dspMirror t link codeErr frame => run_dspMirror t link codeErr frame s
  | .dspUnmirrored t => run_dspUnmirrored t s
  | .derateGraceExpiry t string => run_derateGraceExpiry t string s
  | .dspWatchdog t => run_dspWatchdog t s
  | .ffrActive t => run_ffrActive t s
  | .ffrEnd t => run_ffrEnd t s
  | .freqLost t => run_freqLost t s
  | .dspSrcWrite t req value => run_dspSrcWrite t req value s
  | .trwFrameAccept t port cycle pos codeErr frame => run_trwFrameAccept t port cycle pos codeErr frame s
  | .trwNotDelivered t ring cycle addr ntype => run_trwNotDelivered t ring cycle addr ntype s
  | .trwStrReset t req string => run_trwStrReset t req string s
  | .trwResetGlobal t req => run_trwResetGlobal t req s
  | .estopFireInput t input level => run_estopFireInput t input level s
  | .safetyFrameReceive t port payload => run_safetyFrameReceive t port payload s
  | .sfSingle t seq => run_sfSingle t seq s
  | .sfTimeout t => run_sfTimeout t s
  | .sfStatusSend t => run_sfStatusSend t s
  | .feedbackMismatch t output => run_feedbackMismatch t output s
  | .trwStoreCheck t found uncorrectable => run_trwStoreCheck t found uncorrectable s
  | .trwCfgWrite t req off value => run_trwCfgWrite t req off value s
  | .pPermitWrite t req ring head bank value => run_pPermitWrite t req ring head bank value s
  | .trwPTripWrite t req value => run_trwPTripWrite t req value s
  | .trwTestGo t req string => run_trwTestGo t req string s
  | .trwTestAbort t req => run_trwTestAbort t req s
  | .testStepLimit t => run_testStepLimit t s
  | .testDue t string => run_testDue t string s
  | .voterCompare t tr ents => run_voterCompare t tr ents s
  | .trdReadmit t req tr lane => run_trdReadmit t req tr lane s
  | .trdReadmitCancel t req tr => run_trdReadmitCancel t req tr s
  | .laneSelftestDone t tr lane pass => run_laneSelftestDone t tr lane pass s
  | .trdRestart t req tr lanes => run_trdRestart t req tr lanes s
  | .trdWdogExpiry t tr l => run_trdWdogExpiry t tr l s
  | .trdWdogKick t req tr value => run_trdWdogKick t req tr value s
  | .trdWdogWrite t req tr value => run_trdWdogWrite t req tr value s
  | .busLockRevoke t => run_busLockRevoke t s
  | .debugHalt t tr lane dbgEn => run_debugHalt t tr lane dbgEn s
  | .debugResume t tr lane dbgEn => run_debugResume t tr lane dbgEn s
  | .debugCommand t tr lane op addr value dbgEn => run_debugCommand t tr lane op addr value dbgEn s
  | .add t tr l rd ra rb => run_add t tr l rd ra rb s
  | .sub t tr l rd ra rb => run_sub t tr l rd ra rb s
  | .addo t tr l rd ra rb => run_addo t tr l rd ra rb s
  | .subo t tr l rd ra rb => run_subo t tr l rd ra rb s
  | .neg t tr l rd ra => run_neg t tr l rd ra s
  | .abs t tr l rd ra => run_abs t tr l rd ra s
  | .and t tr l rd ra rb => run_and t tr l rd ra rb s
  | .or t tr l rd ra rb => run_or t tr l rd ra rb s
  | .xor t tr l rd ra rb => run_xor t tr l rd ra rb s
  | .nor t tr l rd ra rb => run_nor t tr l rd ra rb s
  | .andn t tr l rd ra rb => run_andn t tr l rd ra rb s
  | .sll t tr l rd ra rb => run_sll t tr l rd ra rb s
  | .srl t tr l rd ra rb => run_srl t tr l rd ra rb s
  | .sra t tr l rd ra rb => run_sra t tr l rd ra rb s
  | .ror t tr l rd ra rb => run_ror t tr l rd ra rb s
  | .rol t tr l rd ra rb => run_rol t tr l rd ra rb s
  | .slt t tr l rd ra rb => run_slt t tr l rd ra rb s
  | .sltu t tr l rd ra rb => run_sltu t tr l rd ra rb s
  | .min t tr l rd ra rb => run_min t tr l rd ra rb s
  | .max t tr l rd ra rb => run_max t tr l rd ra rb s
  | .minu t tr l rd ra rb => run_minu t tr l rd ra rb s
  | .maxu t tr l rd ra rb => run_maxu t tr l rd ra rb s
  | .mul t tr l rd ra rb => run_mul t tr l rd ra rb s
  | .mulh t tr l rd ra rb => run_mulh t tr l rd ra rb s
  | .mulhu t tr l rd ra rb => run_mulhu t tr l rd ra rb s
  | .div t tr l rd ra rb => run_div t tr l rd ra rb s
  | .divu t tr l rd ra rb => run_divu t tr l rd ra rb s
  | .rem t tr l rd ra rb => run_rem t tr l rd ra rb s
  | .remu t tr l rd ra rb => run_remu t tr l rd ra rb s
  | .clz t tr l rd ra => run_clz t tr l rd ra s
  | .popc t tr l rd ra => run_popc t tr l rd ra s
  | .addi t tr l rd ra imm => run_addi t tr l rd ra imm s
  | .slti t tr l rd ra imm => run_slti t tr l rd ra imm s
  | .sltiu t tr l rd ra imm => run_sltiu t tr l rd ra imm s
  | .andi t tr l rd ra imm => run_andi t tr l rd ra imm s
  | .ori t tr l rd ra imm => run_ori t tr l rd ra imm s
  | .xori t tr l rd ra imm => run_xori t tr l rd ra imm s
  | .lui t tr l rd imm => run_lui t tr l rd imm s
  | .slli t tr l rd ra n => run_slli t tr l rd ra n s
  | .srli t tr l rd ra n => run_srli t tr l rd ra n s
  | .srai t tr l rd ra n => run_srai t tr l rd ra n s
  | .rori t tr l rd ra n => run_rori t tr l rd ra n s
  | .lw t tr l rd ra imm ecc => run_lw t tr l rd ra imm ecc s
  | .lh t tr l rd ra imm ecc => run_lh t tr l rd ra imm ecc s
  | .lhu t tr l rd ra imm ecc => run_lhu t tr l rd ra imm ecc s
  | .lb t tr l rd ra imm ecc => run_lb t tr l rd ra imm ecc s
  | .lbu t tr l rd ra imm ecc => run_lbu t tr l rd ra imm ecc s
  | .sw t tr l rs ra imm => run_sw t tr l rs ra imm s
  | .sh t tr l rs ra imm => run_sh t tr l rs ra imm s
  | .sb t tr l rs ra imm => run_sb t tr l rs ra imm s
  | .beq t tr l ra rb off => run_beq t tr l ra rb off s
  | .bne t tr l ra rb off => run_bne t tr l ra rb off s
  | .blt t tr l ra rb off => run_blt t tr l ra rb off s
  | .bge t tr l ra rb off => run_bge t tr l ra rb off s
  | .bltu t tr l ra rb off => run_bltu t tr l ra rb off s
  | .bgeu t tr l ra rb off => run_bgeu t tr l ra rb off s
  | .j t tr l off => run_j t tr l off s
  | .jal t tr l off => run_jal t tr l off s
  | .jalr t tr l rd ra imm => run_jalr t tr l rd ra imm s
  | .qpush t tr l rp ra rd => run_qpush t tr l rp ra rd s
  | .qpop t tr l rp ra rd => run_qpop t tr l rp ra rd s
  | .qpopt t tr l rp ra rd tmo => run_qpopt t tr l rp ra rd tmo s
  | .qcut t tr l ra rd => run_qcut t tr l ra rd s
  | .qabort t tr l ra rd => run_qabort t tr l ra rd s
  | .qrelease t tr l ra rd => run_qrelease t tr l ra rd s
  | .qpush2 t tr l rp ra rd => run_qpush2 t tr l rp ra rd s
  | .qpusht t tr l rp ra rd tmo => run_qpusht t tr l rp ra rd tmo s
  | .queueWaitTimeout t tr l => run_queueWaitTimeout t tr l s
  | .nop t tr l => run_nop t tr l s
  | .mfsr t tr l rd sr => run_mfsr t tr l rd sr s
  | .mtsr t tr l sr ra => run_mtsr t tr l sr ra s
  | .tbr t tr l rd sel => run_tbr t tr l rd sel s
  | .wait t tr l rd ra rb => run_wait t tr l rd ra rb s
  | .waitWake t tr l => run_waitWake t tr l s
  | .syncpt t tr l crcOk => run_syncpt t tr l crcOk s
  | .lock t tr l rd => run_lock t tr l rd s
  | .unlock t tr l rd => run_unlock t tr l rd s
  | .trap t tr l code => run_trap t tr l code s
  | .rte t tr l => run_rte t tr l s
  | .halt t tr l => run_halt t tr l s
  | .presenceSend t => run_presenceSend t s
  | .presenceReceive t link codeErr frame => run_presenceReceive t link codeErr frame s
  | .roleResolveTimeout t => run_roleResolveTimeout t s
  | .leaseExpiry t => run_leaseExpiry t s
  | .gatesOpen t => run_gatesOpen t s
  | .takeover t link codeErr frame => run_takeover t link codeErr frame s
  | .partnerLost t => run_partnerLost t s
  | .streamAbsentOriginate t ring => run_streamAbsentOriginate t ring s
  | .accept t link codeErr frame => run_accept t link codeErr frame s
  | .content t link codeErr frame => run_content t link codeErr frame s
  | .want t link codeErr frame => run_want t link codeErr frame s
  | .mirrorMiss t ring cycle addr ntype => run_mirrorMiss t ring cycle addr ntype s
  | .compare t link codeErr frame => run_compare t link codeErr frame s
  | .state t link codeErr frame => run_state t link codeErr frame s
  | .takeSync t link codeErr frame => run_takeSync t link codeErr frame s
  | .sinSwitch t req => run_sinSwitch t req s
  | .switchAbort t req => run_switchAbort t req s
  | .switch t link codeErr frame => run_switch t link codeErr frame s
  | .switchNoAck t => run_switchNoAck t s
  | .switchBoundary t => run_switchBoundary t s
  | .note t link codeErr frame => run_note t link codeErr frame s
  | .peerDown t link alignment => run_peerDown t link alignment s
  | .peerUp t link => run_peerUp t link s
  | .cutReady t link codeErr frame => run_cutReady t link codeErr frame s
  | .splice t link codeErr frame => run_splice t link codeErr frame s
  | .imgRxPush t req value => run_imgRxPush t req value s
  | .rxSessionTimeout t => run_rxSessionTimeout t s
  | .imgRxAbort t req value => run_imgRxAbort t req value s
  | .slotWriteDone t fail => run_slotWriteDone t fail s
  | .imgKeyGo t req value => run_imgKeyGo t req value s
  | .keyFuseDone t ok back valid => run_keyFuseDone t ok back valid s
  | .imgCommit t req value => run_imgCommit t req value s
  | .imgCutArm t req value => run_imgCutArm t req value s
  | .shadowBuilt t damaged => run_shadowBuilt t damaged s
  | .cutover t => run_cutover t s
  | .cutMissed t => run_cutMissed t s
  | .imgCutDisarm t req value => run_imgCutDisarm t req value s
  | .imgActivate t req value => run_imgActivate t req value s
  | .activateBuildDone t damaged => run_activateBuildDone t damaged s
  | .ethFrameReceive t port frame => run_ethFrameReceive t port frame s
  | .ethLinkChange t port up speed => run_ethLinkChange t port up speed s
  | .prpSupervisionSend t pair => run_prpSupervisionSend t pair s
  | .prpPathSilent t port => run_prpPathSilent t port s
  | .macsecTxSwitch t port => run_macsecTxSwitch t port s
  | .macsecOldRxRemove t port => run_macsecOldRxRemove t port s
  | .egressUnitTake t port qid => run_egressUnitTake t port qid s
  | .telemetryFlush t binding => run_telemetryFlush t binding s
  | .cwpRequest t port => run_cwpRequest t port s
  | .cwpOpen t port => run_cwpOpen t port s
  | .cwpClose t port => run_cwpClose t port s
  | .cwpIdleTimeout t session => run_cwpIdleTimeout t session s
  | .pcieLinkChange t up speed width bme0 bme1 => run_pcieLinkChange t up speed width bme0 bme1 s
  | .pcieFlr t func => run_pcieFlr t func s
  | .msixFire t vector masked => run_msixFire t vector masked s
  | .glbMsixArm t req vector value masked => run_glbMsixArm t req vector value masked s
  | .glbMsixMap t req vector value => run_glbMsixMap t req vector value s
  | .glbKeyEnrol t req entry => run_glbKeyEnrol t req entry s
  | .glbKeyErase t req entry => run_glbKeyErase t req entry s
  | .keyStoreDone t ok => run_keyStoreDone t ok s
  | .fulltimeNsRead t req off => run_fulltimeNsRead t req off s
  | .wideLowRead t req off => run_wideLowRead t req off s
  | .registerWrite t req off value be => run_registerWrite t req off value be s
  | .canSlotEnd t ctrl => run_canSlotEnd t ctrl s
  | .canFrameReceive t ctrl id ide fdf brs esi dlc data sof => run_canFrameReceive t ctrl id ide fdf brs esi dlc data sof s
  | .canBusOff t ctrl tec => run_canBusOff t ctrl tec s
  | .canRecover t ctrl => run_canRecover t ctrl s
  | .canErrorPassive t ctrl tec recv => run_canErrorPassive t ctrl tec recv s
  | .qdSample t qd a b z => run_qdSample t qd a b z s
  | .fldQdSet t req qd value => run_fldQdSet t req qd value s
  | .fldQdErrcnt t req qd value => run_fldQdErrcnt t req qd value s
  | .pwmPeriodStart t pwm => run_pwmPeriodStart t pwm s
  | .fldPwmHost t req pwm value => run_fldPwmHost t req pwm value s
  | .gpioInputChange t pin level => run_gpioInputChange t pin level s
  | .fldGpioOut t req value => run_fldGpioOut t req value s
  | .fldInputDebounce t input level => run_fldInputDebounce t input level s
  | .grantReclaim t client => run_grantReclaim t client s
  | .gafCap t req client value => run_gafCap t req client value s
  | .dieSensorSample t temps => run_dieSensorSample t temps s
  | .hwThermalShutdown t sensor => run_hwThermalShutdown t sensor s
  | .haltForce t => run_haltForce t s
  | .gafSensRestore t req sensor => run_gafSensRestore t req sensor s
  | .throttleGraceExpiry t => run_throttleGraceExpiry t s
  | .throttleStep t => run_throttleStep t s
  | .throttleReleaseStep t => run_throttleReleaseStep t s
  | .compensationUpdate t => run_compensationUpdate t s
  | .heatPoolEvaluate t => run_heatPoolEvaluate t s
  | .shutdownReq t => run_shutdownReq t s
  | .pwrGoodFall t => run_pwrGoodFall t s
  | .wrapStringStep t string => run_wrapStringStep t string s
  | .wrapHoldT t => run_wrapHoldT t s
  | .wrapOpenTimeout t string => run_wrapOpenTimeout t string s
  | .wrapComplete t => run_wrapComplete t s
  | .wrapLimit t => run_wrapLimit t s
  | .immediateShutdown t => run_immediateShutdown t s
  | .wakePin t pin => run_wakePin t pin s
  | .rtcAlarm t => run_rtcAlarm t s
  | .wchRelease t req value => run_wchRelease t req value s
  | .daily t adc pins t30 t31 => run_daily t adc pins t30 t31 s
  | .toneDetect t port => run_toneDetect t port s
  | .vbatLow t => run_vbatLow t s
  | .recordWriteDone t bb copy0 copy1 => run_recordWriteDone t bb copy0 copy1 s
  | .pstScrub t found => run_pstScrub t found s
  | .pstBbSel t req value => run_pstBbSel t req value s
  | .tagRfRead t cmd uid sel block n => run_tagRfRead t cmd uid sel block n s
  | .tagRfWrite t cmd uid sel block data => run_tagRfWrite t cmd uid sel block data s
  | .tagFieldLoss t => run_tagFieldLoss t s
  | .tagRfIdle t => run_tagRfIdle t s
  | .tagCommit t page busy => run_tagCommit t page busy s
  | .tagRefresh t => run_tagRefresh t s
  | .pstTagCommit t req value => run_pstTagCommit t req value s
  | .bypass t => run_bypass t s
  | .idcode t => run_idcode t s
  | .samplePreload t => run_samplePreload t s
  | .extest t dbgEn => run_extest t dbgEn s
  | .clamp t dbgEn => run_clamp t dbgEn s
  | .intest t dbgEn => run_intest t dbgEn s
  | .vbatRemoved t => run_vbatRemoved t s
  | .forceShadowBuilt t damaged => run_forceShadowBuilt t damaged s
  | .ref10Restored t => run_ref10Restored t s
  | .ptpMessageSend t port kind => run_ptpMessageSend t port kind s
  | .lnkPortLos t port => run_lnkPortLos t port s
  | .lnkPortSyncGained t port => run_lnkPortSyncGained t port s
  | .tripFbChange t output level => run_tripFbChange t output level s
  | .laneSilent t tr lane pc => run_laneSilent t tr lane pc s
  | .illegalWord t tr l => run_illegalWord t tr l s
  | .fetchBusFault t tr l => run_fetchBusFault t tr l s
  | .leaseSetReceive t ring rot delay => run_leaseSetReceive t ring rot delay s
  | .commitFusesDone t => run_commitFusesDone t s
  | .rtcCompensation t t30 t31 => run_rtcCompensation t t30 t31 s
  | .tagRfCommand t cmd uid sel maskLen mask => run_tagRfCommand t cmd uid sel maskLen mask s
  | .rcRead t req off => run_rcRead t req off s

end Sys2Proof.Machine
end

