-- ==== Sys2Proof/Laws/Unit.lean ====
section
/-!
SUPPORT. Laws/Unit.lean: what executing an instruction on a unit of a triad can do: its lanes, its PC registers, and nothing else.
-/
namespace Sys2Proof.Machine

@[simp] theorem Dev.tri_setTri_self (d : Dev) (tr : Nat) (x : Triad) : (d.setTri tr x).tri tr = x := Tbl.get_set_self _ _ _ _

theorem Dev.tri_setTri_ne (d : Dev) {tr a : Nat} (x : Triad) (h : a ≠ tr) : (d.setTri tr x).tri a = d.tri a := Tbl.get_set_ne _ _ _ _ h

@[simp] theorem Dev.lane_setLane_self (d : Dev) (tr k : Nat) (x : Lane) : (d.setLane tr k x).lane tr k = x := by
  unfold Dev.lane Dev.setLane
  simp

theorem Dev.lane_setLane_ne (d : Dev) {tr k a b : Nat} (x : Lane) (h : a ≠ tr ∨ b ≠ k) : (d.setLane tr k x).lane a b = d.lane a b := by
  unfold Dev.lane Dev.setLane
  by_cases ha : a = tr
  · subst ha
    have hb : b ≠ k := by simpa using h
    simp [Tbl.get_set_ne _ _ _ _ hb]
  · dsimp only
    rw [Dev.tri_setTri_ne _ _ ha]

/-- `e` differs from `d` at most in what the lanes hold. -/
def Dev.LaneOnly (d e : Dev) : Prop := e = { d with trd := { d.trd with tri := e.trd.tri } }

theorem Dev.LaneOnly.refl (d : Dev) : d.LaneOnly d := rfl

theorem Dev.LaneOnly.trans {a b c : Dev} (h : a.LaneOnly b) (k : b.LaneOnly c) : a.LaneOnly c := by
  unfold Dev.LaneOnly at *
  generalize c.trd.tri = x at k ⊢
  rw [k, h]

theorem Dev.laneOnly_setLane (d : Dev) (tr k : Nat) (x : Lane) : d.LaneOnly (d.setLane tr k x) := rfl

theorem Dev.laneOnly_foldl {β : Type} (f : Dev → β → Dev) (h : ∀ (x : Dev) b, x.LaneOnly (f x b)) (l : List β) (d : Dev) : d.LaneOnly (l.foldl f d) := by
  induction l generalizing d with
  | nil => rfl
  | cons b l ih => exact (h d b).trans (ih (f d b))

theorem Dev.laneOnly_putUnit (d : Dev) (tr l : Nat) (x : Lane) : d.LaneOnly (d.putUnit tr l x) :=
  Dev.laneOnly_foldl _ (fun y k => Dev.laneOnly_setLane y tr k _) _ _

section
variable {d e : Dev} (h : d.LaneOnly e)
include h
theorem Dev.LaneOnly.word (a : Nat) : e.word a = d.word a := by rw [h]; rfl
theorem Dev.LaneOnly.mode : e.mode = d.mode := by rw [h]
theorem Dev.LaneOnly.stReq : e.stReq = d.stReq := by rw [h]
theorem Dev.LaneOnly.qf : e.qf = d.qf := by rw [h]
theorem Dev.LaneOnly.lock : e.trd.lock = d.trd.lock := by rw [h]
theorem Dev.LaneOnly.members (tr l : Nat) : e.members tr l = d.members tr l := by
  have : ∀ a, e.lst tr a = d.lst tr a := by
    intro a
    unfold Dev.lst
    rw [Dev.rd_congr (h.word _)]
  unfold Dev.members Dev.voters
  simp [this]
end

/-- Lanes after a fold that writes each lane of a list without repeats. -/
theorem Dev.lane_foldl (tr : Nat) (g : Dev → Nat → Lane) (hg : ∀ (x y : Dev) k, x.lane tr k = y.lane tr k → g x k = g y k) (l : List Nat) (hl : l.Nodup) (d : Dev) (a b : Nat) :
    (l.foldl (fun (d : Dev) k => d.setLane tr k (g d k)) d).lane a b = if a = tr ∧ b ∈ l then g d b else d.lane a b := by
  induction l generalizing d with
  | nil => simp
  | cons k l ih =>
    rw [List.nodup_cons] at hl
    rw [List.foldl_cons, ih hl.2]
    by_cases ha : a = tr
    · subst ha
      by_cases hb : b = k
      · subst hb
        simp [hl.1]
      · have hne : ∀ x : Lane, (d.setLane a k x).lane a b = d.lane a b := fun x => Dev.lane_setLane_ne d x (Or.inr hb)
        by_cases hm : b ∈ l
        · simp [hm, hg _ _ _ (hne _)]
        · simp [hm, hb, hne]
    · have hne : ∀ x : Lane, (d.setLane tr k x).lane a b = d.lane a b := fun x => Dev.lane_setLane_ne d x (Or.inl ha)
      simp [ha, hne]

theorem Dev.members_nodup (d : Dev) (tr l : Nat) : (d.members tr l).Nodup := by
  unfold Dev.members
  split
  · exact List.Nodup.filter _ (by decide)
  · split <;> exact List.nodup_singleton _

/-- The lanes of a unit hold what was put, the other lanes what they held. -/
theorem Dev.lane_putUnit (d : Dev) (tr l : Nat) (x : Lane) (a b : Nat) :
    (d.putUnit tr l x).lane a b = if a = tr ∧ b ∈ d.members tr l then { d.lane tr b with core := x.core, itcm := x.itcm, dtcm := x.dtcm } else d.lane a b :=
  Dev.lane_foldl tr (fun (d : Dev) k => { d.lane tr k with core := x.core, itcm := x.itcm, dtcm := x.dtcm }) (fun x y k h => by rw [h]) _ (Dev.members_nodup d tr l) d a b

theorem foldl_fix {α β : Type} (f : α → β → α) (l : List β) (d : α) (h : ∀ b ∈ l, f d b = d) : l.foldl f d = d := by
  induction l with
  | nil => rfl
  | cons b l ih =>
    rw [List.foldl_cons, h b (by simp)]
    exact ih (fun x hx => h x (by simp [hx]))

/-- With no lane stepped or resumed, the end of an instruction changes nothing. -/
theorem Dev.afterInst_id (d : Dev) (tr : Nat) (mem : List Nat) (h : ∀ k ∈ mem, (d.lane tr k).step = false ∧ (d.lane tr k).skip = false) : d.afterInst tr mem = d := by
  refine foldl_fix _ _ _ (fun k hk => ?_)
  obtain ⟨h1, h2⟩ := h k hk
  simp [h1, h2]

/-- The PC registers written at the end of an instruction. -/
theorem Dev.foldl_pc (tr pc : Nat) (l : List Nat) (d : Dev) :
    (l.foldl (fun (d : Dev) k => d.wr Reg.TRD_PC_PC pc tr (k - 1)) d) = { d with regs := (l.foldl (fun (d : Dev) k => d.wr Reg.TRD_PC_PC pc tr (k - 1)) d).regs } ∧
    ∀ a, (∀ k ∈ l, a ≠ Reg.TRD_PC_PC.addr tr (k - 1)) → (l.foldl (fun (d : Dev) k => d.wr Reg.TRD_PC_PC pc tr (k - 1)) d).word a = d.word a := by
  induction l generalizing d with
  | nil => exact ⟨rfl, fun _ _ => rfl⟩
  | cons k l ih =>
    obtain ⟨h1, h2⟩ := ih (d.wr Reg.TRD_PC_PC pc tr (k - 1))
    refine ⟨?_, fun a ha => ?_⟩
    · rw [List.foldl_cons]
      generalize (l.foldl (fun (d : Dev) k => d.wr Reg.TRD_PC_PC pc tr (k - 1)) (d.wr Reg.TRD_PC_PC pc tr (k - 1))).regs = r at h1 ⊢
      rw [h1]
      rfl
    · rw [List.foldl_cons, h2 a (fun k' hk => ha k' (by simp [hk]))]
      exact Dev.word_wr_ne _ _ _ _ _ (ha k (by simp))

/-- An instruction whose word stands at the PC of a unit that is free runs on the unit's lane. -/
theorem Dev.isa_stands (d : Dev) (tr l : Nat) (w : Word) (f : Dev → Lane → Dev) (h : d.Stands tr l w) : d.isa tr l w f = f d (d.unitLane tr l) := by
  obtain ⟨h1, h2, h3, h4⟩ := h
  have hb : d.breakpoints tr l = d := by
    refine foldl_fix _ _ _ (fun k hk => ?_)
    have := (h4 k hk).1
    simp only [this, Bool.and_false, Bool.false_eq_true, if_false]
  unfold Dev.isa
  simp [h1, h2, hb, h3]

/-- Beginning a command moves clocks alone. -/
theorem Dev.stands_begin (t : Nat) (d : Dev) (tr l : Nat) (w : Word) : (begin_ t d).Stands tr l w ↔ d.Stands tr l w := Iff.rfl

/-- The completion of an instruction, where no lane is stepped or resumed and no trap is taken. -/
theorem Dev.complete_eq (d : Dev) (tr l : Nat) (x : Lane) (npc : Word) (h : ∀ k ∈ d.members tr l, (d.lane tr k).step = false ∧ (d.lane tr k).skip = false) :
    d.complete tr l x npc none = ((d.members tr l).foldl (fun (d : Dev) k => d.wr Reg.TRD_PC_PC x.core.pc.toNat tr (k - 1)) d).putUnit tr l
      { x with core := { x.core with pc := npc, instret := x.core.instret + 1#32, wait := none } } := by
  unfold Dev.complete
  dsimp only
  apply Dev.afterInst_id
  intro k hk
  rw [Dev.lane_putUnit]
  have he : ∀ a b, ((d.members tr l).foldl (fun (d : Dev) k => d.wr Reg.TRD_PC_PC x.core.pc.toNat tr (k - 1)) d).lane a b = d.lane a b := by
    intro a b
    rw [(Dev.foldl_pc tr _ _ d).1]
    rfl
  split
  · simpa [he] using h k hk
  · simpa [he] using h k hk

/-- The lane states are not among the PC registers. -/
theorem pc_ne_state (tr i tr' k : Nat) (h2 : i < 3) (h4 : k < 3) : Reg.TRD_LANE_STAT_STATE.addr tr i ≠ Reg.TRD_PC_PC.addr tr' k := by
  simp only [Field.addr, Reg.TRD_LANE_STAT_STATE, Reg.TRD_PC_PC]
  omega

theorem Dev.mem_members (d : Dev) {tr l k : Nat} (hl : l < 6) (h : k ∈ d.members tr l) : 1 ≤ k ∧ k ≤ 3 := by
  unfold Dev.members Dev.voters at h
  split at h
  · have := List.mem_of_mem_filter h
    simp at this
    omega
  · split at h <;> simp at h <;> omega

section
variable {d : Dev} {tr l : Nat} {x : Lane} {npc : Word} (h : ∀ k ∈ d.members tr l, (d.lane tr k).step = false ∧ (d.lane tr k).skip = false)
include h

theorem Dev.complete_word {a : Nat} (ha : ∀ k ∈ d.members tr l, a ≠ Reg.TRD_PC_PC.addr tr (k - 1)) : (d.complete tr l x npc none).word a = d.word a := by
  rw [Dev.complete_eq d tr l x npc h, (Dev.laneOnly_putUnit _ tr l _).word]
  exact (Dev.foldl_pc tr _ _ d).2 a ha

theorem Dev.complete_lane (hl : l < 6) (a b : Nat) :
    (d.complete tr l x npc none).lane a b =
      if a = tr ∧ b ∈ d.members tr l then
        { d.lane tr b with core := { x.core with pc := npc, instret := x.core.instret + 1#32, wait := none }, itcm := x.itcm, dtcm := x.dtcm }
      else d.lane a b := by
  rw [Dev.complete_eq d tr l x npc h, Dev.lane_putUnit]
  have he : ∀ a b, ((d.members tr l).foldl (fun (d : Dev) k => d.wr Reg.TRD_PC_PC x.core.pc.toNat tr (k - 1)) d).lane a b = d.lane a b := by
    intro a b
    rw [(Dev.foldl_pc tr _ _ d).1]
    rfl
  have hm : ((d.members tr l).foldl (fun (d : Dev) k => d.wr Reg.TRD_PC_PC x.core.pc.toNat tr (k - 1)) d).members tr l = d.members tr l := by
    have hs : ∀ a, ((d.members tr l).foldl (fun (d : Dev) k => d.wr Reg.TRD_PC_PC x.core.pc.toNat tr (k - 1)) d).lst tr a = d.lst tr a := by
      intro a
      unfold Dev.lst
      split
      · rename_i ha
        apply Dev.rd_congr
        apply (Dev.foldl_pc tr _ _ d).2
        intro k hk
        have := Dev.mem_members d hl hk
        exact pc_ne_state tr (a - 1) tr (k - 1) (by omega) (by omega)
      · rfl
    unfold Dev.members Dev.voters at hs ⊢
    simp only [hs]
  rw [hm]
  simp only [he]

end

/-! ### What an instruction leaves before its command settles -/

/-- What an instruction may have done to a device: the lanes of its unit hold a core and the memories of `m`; PC registers changed; all else is as it was. -/
structure Dev.Wrote (d e : Dev) (tr l : Nat) (m : Lane) (c : Core) : Prop where
  lanes : ∀ a b, e.lane a b = if a = tr ∧ b ∈ d.members tr l then { d.lane tr b with core := c, itcm := m.itcm, dtcm := m.dtcm } else d.lane a b
  words : ∀ a, (∀ k ∈ d.members tr l, a ≠ Reg.TRD_PC_PC.addr tr (k - 1)) → e.word a = d.word a
  mode : e.mode = d.mode
  stReq : e.stReq = d.stReq
  qf : e.qf = d.qf
  lock : e.trd.lock = d.trd.lock
  host : e.host = d.host

/-- Only the memories of the lane count. -/
theorem Dev.Wrote.mem {d e : Dev} {tr l : Nat} {m m' : Lane} {c : Core} (h : d.Wrote e tr l m c) (i : m'.itcm = m.itcm) (j : m'.dtcm = m.dtcm) : d.Wrote e tr l m' c :=
  ⟨by rw [i, j]; exact h.lanes, h.words, h.mode, h.stReq, h.qf, h.lock, h.host⟩

theorem Dev.Wrote.members {d e : Dev} {tr l : Nat} {m : Lane} {c : Core} (hl : l < 6) (h : d.Wrote e tr l m c) : e.members tr l = d.members tr l := by
  have hs : ∀ a, e.lst tr a = d.lst tr a := by
    intro a
    unfold Dev.lst
    split
    · apply Dev.rd_congr
      apply h.words
      intro k hk
      have := Dev.mem_members d hl hk
      exact pc_ne_state tr (a - 1) tr (k - 1) (by omega) (by omega)
    · rfl
  unfold Dev.members Dev.voters
  simp only [hs]

/-- Putting a core into the lanes of a unit. -/
theorem Dev.wrote_putUnit (d : Dev) (tr l : Nat) (x : Lane) : d.Wrote (d.putUnit tr l x) tr l x x.core := by
  have k := Dev.laneOnly_putUnit d tr l x
  exact ⟨Dev.lane_putUnit d tr l x, fun a _ => k.word a, k.mode, k.stReq, k.qf, k.lock, by rw [k]⟩

/-- A later write of the same lanes replaces the earlier. -/
theorem Dev.Wrote.trans {d e g : Dev} {tr l : Nat} {m m' : Lane} {c c' : Core} (hl : l < 6) (h : d.Wrote e tr l m c) (k : e.Wrote g tr l m' c') : d.Wrote g tr l m' c' := by
  have hm := h.members hl
  refine ⟨fun a b => ?_, fun a ha => ?_, k.mode.trans h.mode, k.stReq.trans h.stReq, k.qf.trans h.qf, k.lock.trans h.lock, k.host.trans h.host⟩
  · rw [k.lanes, hm]
    split
    · rename_i hab
      rw [h.lanes, if_pos ⟨rfl, hab.2⟩]
    · rename_i hab
      rw [h.lanes, if_neg hab]
  · rw [k.words a (by rw [hm]; exact ha), h.words a ha]

section
variable {d : Dev} {tr l : Nat} (h : ∀ k ∈ d.members tr l, (d.lane tr k).step = false ∧ (d.lane tr k).skip = false) (hl : l < 6)
include h hl

/-- An instruction that completes without a trap. -/
theorem Dev.wrote_complete (x : Lane) (npc : Word) :
    d.Wrote (d.complete tr l x npc none) tr l x { x.core with pc := npc, instret := x.core.instret + 1#32, wait := none } := by
  have hk := Dev.laneOnly_putUnit ((d.members tr l).foldl (fun (d : Dev) k => d.wr Reg.TRD_PC_PC x.core.pc.toNat tr (k - 1)) d) tr l
    { x with core := { x.core with pc := npc, instret := x.core.instret + 1#32, wait := none } }
  refine ⟨Dev.complete_lane h hl, fun a ha => Dev.complete_word h ha, ?_, ?_, ?_, ?_, ?_⟩ <;> rw [Dev.complete_eq d tr l x npc h]
  · rw [hk.mode, (Dev.foldl_pc tr _ _ d).1]
  · rw [hk.stReq, (Dev.foldl_pc tr _ _ d).1]
  · rw [hk.qf, (Dev.foldl_pc tr _ _ d).1]
  · rw [hk.lock, (Dev.foldl_pc tr _ _ d).1]
  · rw [hk, (Dev.foldl_pc tr _ _ d).1]

omit hl in
/-- A trap taken where the handler is set and none runs. -/
theorem Dev.wrote_trapTo (x : Lane) (pc : Nat) (ret : Word) (cause info : Nat) (hv : x.core.tvec ≠ 0#32) (hi : x.core.inTrap = false) :
    d.Wrote ((d.trapTo tr l x pc ret cause info).afterInst tr (d.members tr l)) tr l x (x.core.trapped ret cause info) := by
  have e : d.trapTo tr l x pc ret cause info = d.putUnit tr l { x with core := x.core.trapped ret cause info } := by
    unfold Dev.trapTo
    simp [hv, hi, Core.trapped]
  have hp := Dev.wrote_putUnit d tr l { x with core := x.core.trapped ret cause info }
  rw [e, Dev.afterInst_id]
  · exact hp.mem rfl rfl
  · intro k hk
    rw [hp.lanes]
    split
    · exact h k hk
    · exact h k hk

/-- An instruction that completes and takes a trap after it. -/
theorem Dev.wrote_complete_trap (x : Lane) (npc : Word) (cause info : Nat) (hv : x.core.tvec ≠ 0#32) (hi : x.core.inTrap = false) :
    d.Wrote (d.complete tr l x npc (some (cause, info))) tr l x
      (Core.trapped { x.core with pc := npc, instret := x.core.instret + 1#32, wait := none } (x.core.pc + 4#32) cause info) := by
  have h1 := Dev.wrote_complete h hl x npc
  have hs : ∀ k ∈ (d.complete tr l x npc none).members tr l, ((d.complete tr l x npc none).lane tr k).step = false ∧ ((d.complete tr l x npc none).lane tr k).skip = false := by
    intro k hk
    rw [h1.members hl] at hk
    rw [h1.lanes]
    split
    · exact h k hk
    · exact h k hk
  have h2 := Dev.wrote_trapTo hs { x with core := { x.core with pc := npc, instret := x.core.instret + 1#32, wait := none } } x.core.pc.toNat (x.core.pc + 4#32) cause info hv hi
  have e : d.complete tr l x npc (some (cause, info)) =
      ((d.complete tr l x npc none).trapTo tr l { x with core := { x.core with pc := npc, instret := x.core.instret + 1#32, wait := none } } x.core.pc.toNat
        (x.core.pc + 4#32) cause info).afterInst tr ((d.complete tr l x npc none).members tr l) := by
    rw [h1.members hl, Dev.complete_eq d tr l x npc h]
    rfl
  rw [e]
  exact h1.trans hl (h2.mem rfl rfl)

end

/-! ### A command that is one instruction -/

/-- A command whose run is an instruction of a unit retires it. -/
theorem Dev.Wrote.retires {t : Nat} {o e : Dev} {tr l : Nat} {m : Lane} {c : Core} (h : (begin_ t o).Wrote e tr l m c) : o.Retires (settle o e) tr l m c := by
  have hst : e.stReq = [] := h.stReq
  have hl' : ∀ a b, (settle o e).lane a b = e.lane a b := by
    intro a b
    unfold Dev.lane Dev.tri
    rw [settle_trd o _ hst]
  refine ⟨fun k hk => ?_, fun a k hk => ?_, fun a ha h1 h2 => ?_, ?_, ?_, ?_⟩
  · rw [hl', h.lanes, if_pos ⟨rfl, hk⟩]
    rfl
  · rw [hl', h.lanes, if_neg]
    · rfl
    · rintro ⟨rfl, hk'⟩
      rcases hk with hk | hk
      · exact hk rfl
      · exact hk hk'
  · rw [settle_word o _ hst a (by simp [settleWords, Reg.GLB_STATUS_STATE, Reg.TRW_OUT_STAT_H_LEVEL, Field.addr]; omega)]
    exact h.words a ha
  · exact settle_mode_calm o _ hst
  · rw [settle_qf o _ hst]; exact h.qf
  · rw [settle_trd o _ hst]; exact h.lock

/-- A lane that waits for nothing has no wait recorded. -/
theorem Dev.Stands.wait {d : Dev} {tr l : Nat} {w : Word} (h : d.Stands tr l w) : (d.unitLane tr l).core.wait = none := by
  have := h.2.1
  unfold Dev.unitWaits at this
  cases hw : (d.unitLane tr l).core.wait <;> simp_all

/-- No lane of a unit that stands at its word is stepped or resumed. -/
theorem Dev.Stands.calm {d : Dev} {tr l : Nat} {w : Word} (t : Nat) (h : d.Stands tr l w) :
    ∀ k ∈ (begin_ t d).members tr l, ((begin_ t d).lane tr k).step = false ∧ ((begin_ t d).lane tr k).skip = false := fun k hk => (h.2.2.2 k hk).2

/-- A command that is one instruction, by what the instruction does to the lanes. -/
theorem executes_of {c : Instr} {s : State} {t tr l : Nat} {w : Word} {k : Core → Core} {f : Dev → Lane → Dev} (hc : exec c s = s.run t fun d => d.isa tr l w f)
    (hf : s.dev.Stands tr l w → (begin_ t s.dev).Wrote (f (begin_ t s.dev) (s.dev.unitLane tr l)) tr l (s.dev.unitLane tr l) (k (s.dev.unitLane tr l).core)) :
    Executes c s tr l w k := by
  intro h
  refine ⟨_, hc, rfl, ?_⟩
  have h1 : (begin_ t s.dev).isa tr l w f = f (begin_ t s.dev) (s.dev.unitLane tr l) := Dev.isa_stands _ _ _ _ _ ((Dev.stands_begin t s.dev tr l w).2 h)
  dsimp only
  rw [h1]
  exact (hf h).retires

theorem Core.put_wait (c : Core) (r : Nat) (v : Word) : (c.put r v).wait = c.wait := by unfold Core.put; split <;> rfl
theorem Core.put_instret (c : Core) (r : Nat) (v : Word) : (c.put r v).instret = c.instret := by unfold Core.put; split <;> rfl
theorem Core.put_pc (c : Core) (r : Nat) (v : Word) : (c.put r v).pc = c.pc := by unfold Core.put; split <;> rfl
theorem Core.put_flags (c : Core) (r : Nat) (v : Word) : (c.put r v).flags = c.flags := by unfold Core.put; split <;> rfl

/-- An ALU instruction that sets no enabled flag. -/
theorem executes_alu {c : Instr} {s : State} {t tr l : Nat} {w : Word} {rd : Nat} {f : Core → Word × Nat} (hl : l < 6)
    (hc : exec c s = s.run t fun d => d.alu tr l w rd f) (h0 : (f (s.dev.unitLane tr l).core).2 &&& (s.dev.unitLane tr l).core.trapen = 0) :
    Executes c s tr l w (fun c => (c.fallsTo rd (f c).1).flagged (f c).2) := by
  refine executes_of hc (fun h => ?_)
  have hw := h.wait
  generalize hx : s.dev.unitLane tr l = x at *
  have := Dev.wrote_complete (h.calm t) hl
    { x with core := { x.core.put rd (f x.core).1 with flags := (x.core.put rd (f x.core).1).flags ||| (f x.core).2 } } (x.core.pc + 4#32)
  simp only [h0, if_true]
  have e : (Core.fallsTo x.core rd (f x.core).1).flagged (f x.core).2 =
      { x.core.put rd (f x.core).1 with flags := (x.core.put rd (f x.core).1).flags ||| (f x.core).2, pc := x.core.pc + 4#32, instret := (x.core.put rd (f x.core).1).instret + 1#32, wait := none } := by
    have hq : (x.core.put rd (f x.core).1).wait = none := by rw [Core.put_wait, hw]
    simp only [Core.fallsTo, Core.flagged, hq, Core.put_instret]
  rw [e]
  exact this.mem rfl rfl

@[simp] theorem Core.flagged_zero (c : Core) : c.flagged 0 = c := by simp [Core.flagged]

/-- An ALU instruction that sets an enabled flag traps after it. -/
theorem executes_alu_trap {c : Instr} {s : State} {t tr l : Nat} {w : Word} {rd : Nat} {f : Core → Word × Nat} (hl : l < 6)
    (hc : exec c s = s.run t fun d => d.alu tr l w rd f) (h0 : (f (s.dev.unitLane tr l).core).2 &&& (s.dev.unitLane tr l).core.trapen ≠ 0)
    (hv : (s.dev.unitLane tr l).core.tvec ≠ 0#32) (hi : (s.dev.unitLane tr l).core.inTrap = false) :
    Executes c s tr l w (fun c => ((c.fallsTo rd (f c).1).flagged (f c).2).trapped (c.pc + 4#32) (if (f c).2 = 4 then 4 else 5) 0) := by
  refine executes_of hc (fun h => ?_)
  have hw := h.wait
  generalize hx : s.dev.unitLane tr l = x at *
  have ht : (x.core.put rd (f x.core).1).tvec = x.core.tvec := by unfold Core.put; split <;> rfl
  have hj : (x.core.put rd (f x.core).1).inTrap = x.core.inTrap := by unfold Core.put; split <;> rfl
  have := Dev.wrote_complete_trap (h.calm t) hl
    { x with core := { x.core.put rd (f x.core).1 with flags := (x.core.put rd (f x.core).1).flags ||| (f x.core).2 } } (x.core.pc + 4#32)
    (if (f x.core).2 = 4 then 4 else 5) 0 (by rw [ht]; exact hv) (by rw [hj]; exact hi)
  simp only [h0, if_false]
  have e : ((Core.fallsTo x.core rd (f x.core).1).flagged (f x.core).2).trapped (x.core.pc + 4#32) (if (f x.core).2 = 4 then 4 else 5) 0 =
      Core.trapped { x.core.put rd (f x.core).1 with
        flags := (x.core.put rd (f x.core).1).flags ||| (f x.core).2, pc := x.core.pc + 4#32, instret := (x.core.put rd (f x.core).1).instret + 1#32, wait := none }
        ((x.core.put rd (f x.core).1).pc + 4#32) (if (f x.core).2 = 4 then 4 else 5) 0 := by
    have hq : (x.core.put rd (f x.core).1).wait = none := by rw [Core.put_wait, hw]
    simp only [Core.fallsTo, Core.flagged, Core.trapped, hq, Core.put_instret, Core.put_pc]
  rw [e]
  exact this.mem rfl rfl

/-- An instruction that writes one register and goes on. -/
theorem Dev.Stands.wrote_result {d : Dev} {tr l : Nat} {w : Word} (t : Nat) (h : d.Stands tr l w) (hl : l < 6) (r : Nat) (v : Word) :
    (begin_ t d).Wrote ((begin_ t d).result tr l (d.unitLane tr l) r v) tr l (d.unitLane tr l) ((d.unitLane tr l).core.fallsTo r v) := by
  have := Dev.wrote_complete (h.calm t) hl { d.unitLane tr l with core := (d.unitLane tr l).core.put r v } ((d.unitLane tr l).core.pc + 4#32)
  have e : (d.unitLane tr l).core.fallsTo r v = { (d.unitLane tr l).core.put r v with
      pc := (d.unitLane tr l).core.pc + 4#32, instret := ((d.unitLane tr l).core.put r v).instret + 1#32, wait := none } := by
    have hq : ((d.unitLane tr l).core.put r v).wait = none := by rw [Core.put_wait, h.wait]
    simp only [Core.fallsTo, hq, Core.put_instret]
  rw [e]
  unfold Dev.result Dev.next
  rw [Core.put_pc]
  exact this.mem rfl rfl

/-- A trap in place of an instruction, other than BUS. -/
theorem Dev.Stands.wrote_trapIn {d : Dev} {tr l : Nat} {w : Word} (t : Nat) (h : d.Stands tr l w) (hl : l < 6) (cause info : Nat) (hc : cause ≠ 3)
    (hv : (d.unitLane tr l).core.tvec ≠ 0#32) (hi : (d.unitLane tr l).core.inTrap = false) :
    (begin_ t d).Wrote ((begin_ t d).trapIn tr l (d.unitLane tr l) cause info) tr l (d.unitLane tr l)
      ((d.unitLane tr l).core.trapped (d.unitLane tr l).core.pc cause info) := by
  have := Dev.wrote_trapTo (h.calm t) (d.unitLane tr l) (d.unitLane tr l).core.pc.toNat (d.unitLane tr l).core.pc cause info hv hi
  unfold Dev.trapIn
  simp only [hc, if_false]
  exact this

end Sys2Proof.Machine
end

