-- ==== Sys2Proof/WellFormed.lean ====
section
/-!
DEFINITION. WellFormed.lean: which commands can arrive at all: operands within the ranges that the spec gives them. `exec` does not ask for it.
-/
namespace Sys2Proof

/-- A device time: the seconds count has 48 bits (R47, Table 2.9). -/
def WF.time (t : Nat) : Bool := decide (t < 2 ^ 48 * 1000000000)

/-- A requester of Table 8.2 that is not an engine: PCIe functions, CWP sessions, triad lanes. -/
def WF.requester (r : Nat) : Bool :=
  r == 1 || r == 2 || (decide (0x40 ≤ r) && decide (r < 0x80)) || (decide (0x80 ≤ r) && decide (r < 0x90) && r % 4 != 3)

/-- A queue number that can be built: 20 bits, and 0xFFFFF stands for none (chapter 0). -/
def WF.queue (q : Nat) : Bool := decide (q < 0xFFFFF)

/-- A register offset: a word of the 512 MiB Control Window (R400). -/
def WF.offset (o : Nat) : Bool := decide (o < 0x20000000) && o % 4 == 0

/-- An address of a node: 1 to 126 (R121). -/
def WF.node (a : Nat) : Bool := decide (1 ≤ a) && decide (a ≤ 126)

/-- A scheduled node frame: its address and its type (Table 5.7). -/
def WF.frameOf (a nt : Nat) : Bool := WF.node a && decide (1 ≤ nt) && decide (nt ≤ 5)

/-- A data position of a cycle (R117). -/
def WF.position (p : Nat) : Bool := decide (p ≤ 1580)

/-- A single physical lane of a triad: 1 A, 2 B, 3 C (Table 8.2, R332). -/
def WF.lane (l : Nat) : Bool := decide (1 ≤ l) && decide (l ≤ 3)

/-- A byte string of at most n bytes. -/
def WF.bytes (n : Nat) (b : List Byte) : Bool := decide (b.length ≤ n)

/-- Data of a CAN frame: 64 bytes at most, 8 in a classic frame; identifiers of 11 or 29 bits (R436). -/
def WF.can (ide fdf : Bool) (id : Nat) (data : List Byte) : Bool :=
  decide (id < (if ide then 2 ^ 29 else 2 ^ 11)) && decide (data.length ≤ (if fdf then 64 else 8))

/-- The operands of a command lie in their ranges, its time apart. -/
def Instr.operandsOk : Instr → Bool
  -- register accesses and doorbells
  | .registerWrite _ r o _ _ | .trwCfgWrite _ r o _ | .fulltimeNsRead _ r o | .wideLowRead _ r o | .rcRead _ r o => WF.requester r && WF.offset o
  | .glbGo _ r | .glbWrap _ r | .hostPopTimeout _ r | .trwResetGlobal _ r | .trwTestAbort _ r | .sinSwitch _ r | .switchAbort _ r => WF.requester r
  | .lnkPortWake _ r _ _ | .lnkRingEnum _ r _ | .lnkRingWake _ r _ | .lnkRingSleep _ r _ | .lnkPortEnable _ r _ _ => WF.requester r
  | .glbKeyEnrol _ r _ | .glbKeyErase _ r _ | .glbMsixArm _ r _ _ _ | .glbMsixMap _ r _ _ | .gafCap _ r _ _ | .gafSensRestore _ r _ => WF.requester r
  | .resetImp _ r _ | .resetCap _ r _ | .resetEfc _ r _ | .anchorFull _ r _ | .anchorEmpty _ r _ | .reportNow _ r _ => WF.requester r
  | .tbTimeWrite _ r _ | .trdWdogKick _ r _ _ | .trdWdogWrite _ r _ _ | .trwStrReset _ r _ | .trwTestGo _ r _ | .trdRestart _ r _ _ => WF.requester r
  | .trdReadmit _ r _ _ | .trdReadmitCancel _ r _ | .pPermitWrite _ r _ _ _ _ | .fldPwmHost _ r _ _ | .fldQdSet _ r _ _ | .fldQdErrcnt _ r _ _ => WF.requester r
  | .lpeResume _ r _ | .lpeForceSafe _ r _ | .lpeResetX _ r _ | .tbUtcSet _ r _ | .swpOwClear _ r _ | .dspSrcWrite _ r _ | .trwPTripWrite _ r _ => WF.requester r
  | .imgRxPush _ r _ | .imgRxAbort _ r _ | .imgKeyGo _ r _ | .imgCommit _ r _ | .imgCutArm _ r _ | .imgCutDisarm _ r _ | .imgActivate _ r _ => WF.requester r
  | .fldGpioOut _ r _ | .wchRelease _ r _ | .pstBbSel _ r _ | .pstTagCommit _ r _ => WF.requester r
  | .doorbellLowWrite _ r q _ | .qfOpen _ r q _ | .qfAppend _ r q _ | .qfClose _ r q _ | .qfPushSingle _ r q _ | .qfPop _ r q => WF.requester r && WF.queue q
  | .doorbellHighRead _ r q | .popWaitResume _ r q | .qfCut _ r q | .qfAbort _ r q | .qfRelease _ r q | .qfFlush _ r q => WF.requester r && WF.queue q
  | .qstatRead _ r q | .qstatWmClear _ r q | .qstatLossClear _ r q => WF.requester r && WF.queue q
  -- queues
  | .cmdOverrun _ _ q | .swpSamplePacket _ _ q | .estInputItem _ _ q | .lpeInputItem _ _ q | .egressUnitTake _ _ q => WF.queue q
  | .blockWaitResume _ q | .lockReclaimProducer _ q | .lockReclaimConsumer _ q | .stallWarn _ q | .dspInputRecord _ q | .dspCanInput _ q => WF.queue q
  | .qfEccUncorrectable _ q _ _ => WF.queue q
  -- rings
  | .nodeFrameReceive _ _ _ p _ b | .trwFrameAccept _ _ _ p _ b => WF.position p && WF.bytes 300 b
  | .frameHoldDeadline _ _ _ a n | .trwNotDelivered _ _ _ a n | .mirrorMiss _ _ _ a n => WF.frameOf a n
  | .enumReply _ _ a b => decide (a ≤ 126) && b.length == 24
  | .cycReturn _ _ _ dl | .leaseSetReceive _ _ _ dl => decide (dl < 2 ^ 32)
  | .openWireEvaluate _ _ k => decide (k < 2 ^ 32)
  -- peer links, networks, field bus
  | .boardTime _ _ _ b | .twtt _ _ _ b | .dspMirror _ _ _ b | .presenceReceive _ _ _ b | .takeover _ _ _ b | .accept _ _ _ b | .content _ _ _ b => WF.bytes 70000 b
  | .want _ _ _ b | .compare _ _ _ b | .state _ _ _ b | .takeSync _ _ _ b | .switch _ _ _ b | .note _ _ _ b | .cutReady _ _ _ b | .splice _ _ _ b => WF.bytes 70000 b
  | .ethFrameReceive _ _ b => WF.bytes 2048 b
  | .safetyFrameReceive _ _ b => WF.bytes 1500 b
  | .canFrameReceive _ _ id ide fdf _ _ _ b _ => WF.can ide fdf id b
  | .ptpEventReceive _ _ k _ => decide (k ≤ 3)
  | .ptpMessageSend _ _ k => decide (k ≤ 3)
  -- triads
  | .laneSelftestDone _ _ l _ => WF.lane l
  | .laneSilent _ _ l _ => WF.lane l
  | .debugHalt _ _ l _ | .debugResume _ _ l _ => WF.lane l
  | .debugCommand _ _ l _ _ _ _ => WF.lane l
  | .voterCompare _ _ es => decide (es.length ≤ 3) && es.all (fun e => WF.lane e.lane)
  -- sensors and the watch island
  | .dieSensorSample _ ts => ts.length == 32
  | .daily _ adc _ _ _ => decide (adc.length ≤ 16)
  | .recordWriteDone _ _ a b => decide (a.pulses < 256) && decide (b.pulses < 256)
  | .tagRfRead _ c _ _ b _ | .tagRfWrite _ c _ _ b _ => decide (c < 256) && decide (b < 65536)
  | .tagRfCommand _ c _ _ _ _ => decide (c < 256)
  | .keyFuseDone _ _ b _ => WF.bytes 48 b
  | _ => true

/-- A well-formed command: its device time and its operands lie in their ranges. -/
def Instr.wellFormed (i : Instr) : Bool := WF.time i.time && i.operandsOk

end Sys2Proof
end

