-- ==== Sys2Proof/Tests/Slice0.lean ====
section
/-!
SUPPORT. Tests/Slice0.lean: commands that the form check refuses, worked examples of the spec, and for every statement with hypotheses a state and operands that meet them.
A test's expected value comes from the spec's tables or from hand calculation by its rules; a witness shows only that the hypotheses of a statement can be met together.
-/
namespace Sys2Proof.Machine

/-! ### Small structures and states for the tests -/

/-- A record with the given fields: offset, bytes, value. -/
def tRec (sec typ : Nat) (fs : List (Nat × Nat × Nat)) : Rec :=
  { sec := sec, typ := typ, idx := 0, b := fs.foldl (fun b x => putBytes b x.1 (toLe x.2.2 x.2.1)) (List.replicate 64 0#8) }

/-- Ring 0 with a cell node at address 1 (16 cells, 2 temperatures) and a head at address 2, both of string 0. -/
def tRing : List Rec :=
  [tRec secRing 1 [(8, 1, 0), (9, 1, 1), (10, 1, 2), (11, 1, 2), (12, 2, 16), (14, 2, 2), (16, 1, 1)],
   tRec secRing 2 [(8, 1, 0), (9, 1, 1), (10, 1, 1), (12, 2, 0), (16, 2, 0xFFFF), (18, 1, 3), (24, 8, 0x1122)],
   tRec secRing 2 [(8, 1, 0), (9, 1, 2), (10, 1, 2), (12, 2, 0)],
   tRec secTake 1 [(8, 1, 0), (9, 1, 2), (12, 2, 64)]]

/-- The `ROLE` record of a Solo device, or of a device of a Pair (`config` 1) with all its peer links. -/
def tRole (config : Nat) : Rec := tRec secRole 1 [(8, 1, config), (10, 1, if config = 0 then 0 else 3), (12, 4, 7)]

/-- A device at 1 ms with a structure. -/
def tDev (m : DevState) (recs : List Rec) : Dev :=
  { State.reset.dev with mode := m, now := 1000000, own := 1000000, reel := some { hdr := [], recs := recs } }

/-- Writes registers: field, indices, value. -/
def Dev.tPut (d : Dev) (l : List (Field × Nat × Nat × Nat)) : Dev := l.foldl (fun (d : Dev) x => d.wr x.1 x.2.2.2 x.2.1 x.2.2.1) d

/-- A state with an empty queue of commands. -/
def tSt (d : Dev) : State := { dev := d, pending := [] }

/-- A device with no structure in a given device state. -/
def tBare (m : DevState) : Dev := { State.reset.dev with mode := m, now := 1000000, own := 1000000 }

/-- A Solo device in RUN whose role actuates, on one ring that it originates. -/
def tSolo (m : DevState) (more : List Rec) : Dev :=
  (({ tDev m (tRole 0 :: tRing ++ more) with sin := { State.reset.dev.sin with gates := true } }).setLr 0 { orig := true }).tPut [(Reg.SIN_STATUS_ROLE, 0, 0, 0)]

/-- A device of a Pair, with a role, on one ring. -/
def tPair (m : DevState) (role : Nat) (more : List Rec) : Dev := (tDev m (tRole 1 :: tRing ++ more)).tPut [(Reg.SIN_STATUS_ROLE, 0, 0, role)]


/-- No event goes to a queue where the structure routes none and names no default queue. -/
theorem noEvents_of (d : Dev) (qid : Nat) (h : (match d.reel with | some r => (r.sel secEvroute 1).isEmpty && r.queueGlobal.u32 12 == 0xFFFFF | none => true) = true) : d.NoEvents qid := by
  intro e
  cases hr : d.reel with
  | none => simp [Dev.evQueues, hr]
  | some r =>
    rw [hr] at h
    simp only [Bool.and_eq_true, List.isEmpty_iff, beq_iff_eq] at h
    simp [Dev.evQueues, hr, h.1, h.2]

theorem all_some {α : Type} {o : Option α} {p : α → Prop} [DecidablePred p] (h : o.all (fun a => decide (p a)) = true) : ∀ a, o = some a → p a := by
  intro a e
  subst e
  simpa using h

theorem all_mem_some {α : Type} {l : List Nat} {o : Nat → Option α} {p : α → Prop} [DecidablePred p] (h : l.all (fun k => (o k).all (fun a => decide (p a))) = true) :
    ∀ k ∈ l, ∀ a, o k = some a → p a := by
  intro k hk
  exact all_some (List.all_eq_true.mp h k hk)

/-- A CRC-32C in natural numbers, step by step: the kernel evaluates it on long lists. -/
def crcBitN : Nat → Nat → Nat
  | 0, c => c
  | n + 1, c => match c % 2 with
    | 0 => crcBitN n (c / 2)
    | _ + 1 => crcBitN n (Nat.xor (c / 2) 0x82F63B78)
def crcN : List Byte → Nat → Nat
  | [], c => c
  | x :: l, c => match c with
    | 0 => crcN l (crcBitN 8 x.toNat)
    | m + 1 => crcN l (crcBitN 8 (Nat.xor (m + 1) x.toNat))
theorem crcBitN_eq (n : Nat) (c : BitVec 32) : crcBitN n c.toNat = (crc32Bits 0x82F63B78#32 n c).toNat := by
  induction n generalizing c with
  | zero => rfl
  | succ n ih =>
    have hs : (c >>> 1).toNat = c.toNat / 2 := by rw [BitVec.toNat_ushiftRight, Nat.shiftRight_eq_div_pow]
    have hb : c.getLsbD 0 = decide (c.toNat % 2 = 1) := by
      rw [BitVec.getLsbD, Nat.testBit_zero]
    rw [crcBitN, crc32Bits, hb]
    rcases Nat.mod_two_eq_zero_or_one c.toNat with h | h
    · rw [h, ← hs]; simpa using ih (c >>> 1)
    · rw [h, ← hs]
      have := ih ((c >>> 1) ^^^ 0x82F63B78#32)
      rw [BitVec.toNat_xor] at this
      simpa using this
theorem crcN_eq (l : List Byte) (c : BitVec 32) : crcN l c.toNat = (l.foldl (fun c x => crc32Bits 0x82F63B78#32 8 (c ^^^ x.setWidth 32)) c).toNat := by
  induction l generalizing c with
  | nil => rfl
  | cons x l ih =>
    rw [List.foldl_cons, ← ih]
    have hx : (c ^^^ x.setWidth 32).toNat = Nat.xor c.toNat x.toNat := by
      rw [BitVec.toNat_xor, BitVec.toNat_setWidth_of_le (by decide)]; rfl
    rw [← crcBitN_eq, hx]
    cases hc : c.toNat with
    | zero => simp only [crcN]; congr 2; exact (Nat.zero_xor _).symm
    | succ m => rfl
theorem crc_eq (l : List Byte) : crc32c l = Nat.xor (crcN l 0xFFFFFFFF) 0xFFFFFFFF := by
  rw [crc32c, BitVec.toNat_xor, ← crcN_eq]; rfl
/-! ### Ill-formed commands (WellFormed.lean) -/

theorem test_wf_time : (Instr.enterRun (2 ^ 48 * 1000000000)).wellFormed = false := by decide +kernel
theorem test_wf_requester : (Instr.glbGo 0 3).wellFormed = false ∧ (Instr.glbGo 0 0x83).wellFormed = false ∧ (Instr.glbGo 0 2).wellFormed = true := by decide +kernel
theorem test_wf_queue : (Instr.qfPop 0 2 0xFFFFF).wellFormed = false := by decide +kernel
theorem test_wf_offset : (Instr.registerWrite 0 2 3 0 15).wellFormed = false ∧ (Instr.registerWrite 0 2 0x20000000 0 15).wellFormed = false := by decide +kernel
theorem test_wf_node : (Instr.frameHoldDeadline 0 0 0 127 1).wellFormed = false ∧ (Instr.frameHoldDeadline 0 0 0 0 1).wellFormed = false := by decide +kernel
theorem test_wf_frameOf : (Instr.trwNotDelivered 0 0 0 1 6).wellFormed = false := by decide +kernel
theorem test_wf_position : (Instr.nodeFrameReceive 0 0 0 1581 false []).wellFormed = false := by decide +kernel
theorem test_wf_lane : (Instr.laneSilent 0 0 0 3).wellFormed = false ∧ (Instr.laneSilent 0 0 4 3).wellFormed = false := by decide +kernel
theorem test_wf_bytes : (Instr.keyFuseDone 0 true (List.replicate 49 0) true).wellFormed = false := by decide +kernel
theorem test_wf_can : (Instr.canFrameReceive 0 0 0x800 false false false false 0 [] 0).wellFormed = false := by decide +kernel

/-! ### States for the statements on supplies, images and keys -/

def wOff : State := tSt { tBare .off with supply := {} }
def wStandby : State := tSt { tBare .standby with supply := { vbat := true } }
def wWatch : State := tSt { tBare .watch with supply := { vbat := true, vaux := true } }
def wHalt : State := tSt (tBare .halt)
def wQuiet : State := tSt (tSolo .quiet [])
def wRun : State := tSt (tSolo .run [])
def wDark : State := tSt (tBare .dark)

/-- In BOOT with one slot left to try, whose image has no block at all. -/
def wBoot1 : State := tSt { tBare .boot with img := { boot := some [1], slots := [(1, { st := .valid })] } }
/-- In BOOT with an accepted structure. -/
def wBootDone : State := tSt { tBare .boot with img := { loaded := some (1, { hdr := [], recs := [tRole 0] }) } }
/-- In BOOT with the strap for DARK. -/
def wBoot3 : State := tSt ((tBare .boot).tPut [(Reg.GLB_STATUS_BOOT_MODE, 0, 0, 3)])
/-- In QUIET, ready for RUN. -/
def wReady : State := tSt ((tSolo .quiet []).tPut [(Reg.TB_STATUS_SLATE_LOCK, 0, 0, 1), (Reg.LNK_RING_STAT_STATE, 0, 0, 2)])
/-- The same with start policy HOST. -/
def wReadyHost : State := tSt { wReady.dev with reel := some { hdr := List.replicate 26 0#8 ++ [2#8], recs := wReady.dev.rl.recs } }

/-- Block 1 of 3 of image 5, all bytes 0 before its trailer, with its CRC. -/
def tBlk : List Byte := ([List.replicate 4064 0#8, toLe 5 8, toLe 1 4, toLe 3 4, toLe 0 4, List.replicate 8 0#8, toLe 0xa2128526 4] : List (List Byte)).flatten
/-- A session that lacks it. -/
def tRxOpen : RxSession := { imageId := 5, count := 3, src := 0, at_ := 900000 }
/-- A device that receives its own image, with the block in `IMG_RX_BLOCK`. -/
def wRx : State := tSt { (tBare .dark).tPut [(Reg.IMG_RX_BLOCK_WORD, 1016, 0, 5), (Reg.IMG_RX_BLOCK_WORD, 1018, 0, 1), (Reg.IMG_RX_BLOCK_WORD, 1019, 0, 3), (Reg.IMG_RX_BLOCK_WORD, 1023, 0, 0xa2128526)] with
  img := { rx := some tRxOpen } }
def wRx1 : State := tSt { wRx.dev.wr Reg.IMG_RX_STATUS_OWN 1 with own := 1000000 }
/-- The SPLICE frame with the block: a length word and the block. -/
def tSplice : List Byte := [13#8] ++ toLe 4098 2 ++ toLe 1 2 ++ (toLe 0 2 ++ tBlk) ++ toLe 0x27f91e35 4
def wSlotWrite : State := tSt { tBare .quiet with img := { slotWrite := some (1, [tBlk]) } }

/-- A key request that enrols slot 2 of a device without keys. -/
def tKeyWords : List (Field × Nat × Nat × Nat) :=
  [(Reg.IMG_KEY_REQ_WORD, 0, 0, 0x4B455952), (Reg.IMG_KEY_REQ_WORD, 1, 0, 0x00FF0201), (Reg.IMG_KEY_REQ_WORD, 4, 0, 9), (Reg.IMG_KEY_REQ_WORD, 6, 0, 77)]
def wKey : State := tSt ((tBare .quiet).tPut tKeyWords)
def wFuse1 : State := tSt { tBare .quiet with img := { keyReq := some { op := 1, slot := 2, hash := [7, 8] } } }
def wFuse2 : State := tSt { tBare .quiet with img := { keyReq := some { op := 2, slot := 3, hash := [] }, otp := { keys := [(3, { valid := true })] } } }
/-- In RUN in trial, with a security version above the counter. -/
def wTrial : State := tSt { tBare .run with reel := some { hdr := List.replicate 24 0#8 ++ [4#8], recs := [tRole 0] },
                                            img := { bootSlot := 1, slots := [(1, { st := .valid, trial := true, trialLeft := true })], otp := { rollback := 2 } } }
def wCommit : State := tSt { tBare .run with img := { commit := some 4, otp := { rollback := 2 } } }

/-- A header of class 6. -/
def tHdr6 : List Byte := padTo (List.replicate 20 0#8 ++ [6#8]) 128
/-- In RUN under a class 6 structure, with an image of the class in slot 1 and a cut time 5 s ahead. -/
def tCut : Dev := { (tBare .run).tPut [(Reg.IMG_CUT_NS_NS, 0, 0, 1000000), (Reg.IMG_CUT_SEC_LO_SEC, 0, 0, 5)] with
  reel := some { hdr := tHdr6, recs := [] }, img := { bootSlot := 0, slots := [(1, { st := .valid, blocks := [tHdr6] })] } }
def wCut : State := tSt tCut
def tCutStruct : Reel := { hdr := tHdr6, recs := [tRole 0] }
def wCutReady : State := tSt { (tCut.wr Reg.IMG_STATUS_CUT 2) with img := { tCut.img with cut := some { slot := 1, time := 1000000, shadow := some tCutStruct } } }
def wCutLate : State := tSt { tCut with img := { tCut.img with cut := some { slot := 1, time := 1000000 } } }
def tCutReport : List Byte := peerFrame pfCutReady 1 (time12 123 ++ toLe 1 8)

def wActDark : State := tSt { tBare .dark with img := { slots := [(1, { st := .valid, blocks := [tHdr6] })] } }
/-- A Wrap that has run its course. -/
def tWrapDone (toHalt : Bool) : WrapRun := { cause := 5, start := 0, own0 := 0, endAt := 9000000, strings := [(0, { st := .done })], trigger := true, toHalt := toHalt }
def wWrapAct : State := tSt { tSolo .wrap [] with gaf := { wrap := some (tWrapDone false) }, img := { act := some { slot := 1, force := true, shadow := some tCutStruct } } }
def wWrapHalt : State := tSt { tSolo .wrap [] with gaf := { wrap := some (tWrapDone true) } }

/-! ### An image that passes the load checks -/

/-- A record: length, type, fields. -/
def tR (n typ : Nat) (fs : List (Nat × Nat × Nat)) : List Byte := ((0, 4, n) :: (4, 1, typ) :: fs).foldl (fun b x => putBytes b x.1 (toLe x.2.2 x.2.1)) (List.replicate n 0#8)
/-- The sections of a Solo device without rings: type, records, their number, CRC. -/
def tSecs : List (Nat × List Byte × Nat × Nat) :=
  [(2, tR 16 1 [], 1, 0x65276665),
   (3, (List.range 64).flatMap (fun k => tR 24 1 [(8, 1, k)]), 64, 0x3042ED1E),
   (4, [], 0, 0),
   (6, tR 16 1 [(8, 2, 1), (12, 4, 0xFFFFF)], 1, 0x7264D255),
   (7, [], 0, 0), (9, [], 0, 0), (12, [], 0, 0),
   (13, tR 40 1 [(16, 4, 4)], 1, 0xBD8F922E),
   (17, tR 24 1 [(8, 2, 1000), (12, 2, 8000), (14, 2, 9000), (16, 2, 1000)], 1, 0x1F118F93),
   (19, tR 16 1 [(12, 4, 600)], 1, 0x9ECEB954),
   (20, tR 16 1 [(8, 1, 0xFF)], 1, 0x7A3256C0)]
/-- The directory, the sections from an offset on. -/
def tDir (off : Nat) : List (Nat × List Byte × Nat × Nat) → List Byte
  | [] => []
  | (t, b, n, c) :: r => toLe t 2 ++ toLe 1 2 ++ toLe off 4 ++ toLe b.length 4 ++ toLe n 4 ++ toLe c 4 ++ List.replicate 12 0#8 ++ tDir (off + b.length) r
/-- The image of identifier 5: header, directory, sections; 2,144 bytes. -/
def tImage : List Byte :=
  ([toLe 0x4C454552 4, toLe 1 2, toLe 128 2, toLe 5 8, toLe 2144 4, toLe 0 4, [0#8, 0xFF#8], toLe 0 2, toLe 11 2, toLe 128 2, List.replicate 12 0#8, toLe 0x5128 4, List.replicate 80 0#8, tDir 480 tSecs, tSecs.flatMap (fun x => x.2.1)] : List (List Byte)).flatten
/-- Its block, unsigned, with a hash and a CRC: all of the block before the hash, and from the hash on. -/
def tLoadBlk (hash : List Byte) (crc : Nat) : List Byte :=
  ([tImage, toLe 0x4E474953 4, [0xFF#8, 0#8, 0#8, 0#8], padTo hash 48, List.replicate 1864 0#8, toLe 5 8, toLe 0 4, toLe 1 4, toLe 3 4, List.replicate 8 0#8, toLe crc 4] : List (List Byte)).flatten
/-- The SHA-384 of the image. -/
def tHash : List Byte := [0x90, 0x3E, 0x44, 0xC2, 0xD4, 0x0F, 0x8A, 0xAA, 0xF0, 0x43, 0x01, 0xE5, 0x79, 0x35, 0xA0, 0x68, 0xB3, 0x64, 0xB0, 0xB5, 0x22, 0x84, 0x90, 0xD9, 0x83, 0x25, 0x12, 0xD8, 0xD6, 0x91, 0x76, 0x56, 0x39, 0xFB, 0xA0, 0x21, 0x8D, 0x23, 0x66, 0x31, 0x0D, 0x0C, 0x38, 0x9E, 0x4D, 0xC1, 0x00, 0xD4]
/-- The image as one block. -/
@[irreducible] def tLoad : List Byte := tLoadBlk tHash 0xbd72762d
/-! ### States for the statements on rings -/

/-- Appends the CRC of a node frame. -/
def tCrc (b : List Byte) : List Byte := b ++ toLe (crc32c b) 4

/-- The device of `tSolo` with a changed ring 0. -/
def tRg (m : DevState) (r : LRing) (more : List Rec) : Dev := (tSolo m more).setLr 0 { r with orig := true }

/-- A Take in progress from cycle 7 whose content polls nobody. -/
def tTake : TakePlan := { take := 1, resync := false, rsAddr := 0, pollFirst := 1, pollCount := 1 }
def wTake : State := tSt { tRg .run { cur := some (tTake, 7) } [] with now := 900000, own := 900000 }

/-- The DATA frame of node 1: every cell 3.300 V, both temperatures 25 °C, state OK. -/
def tDataV : List Byte := tCrc ([0x01#8, 0x01#8] ++ (List.replicate 16 (toLe 33000 2)).flatten)
/-- Its position in its cycle. -/
def tPos : Nat := ((List.range 1581).find? fun p => wTake.dev.scheduled 0 7 p == some (1, 1)).getD 0

def wLong : State := tSt (tRg .run { long := 8 } [])
def wLoss : State := tSt (tRg .run { loss1 := 4 } [])
def wBack : State := tSt ((tRg .run { back := 8 } []).tPut [(Reg.LNK_RING_STAT_BROKEN, 0, 0, 1)])
def wStandIn : State := tSt (tPair .run 2 [])
def wActive : State := tSt { tPair .run 1 [] with sin := { gates := true }, trw := { outH := 7, outP := 7 } }
def wWaited : State := tSt (tRg .run { waited := [(5, (8, false))] } [])
def tHeld : Held := { cyc := 7, addr := 1, ntype := 1, bytes := tDataV.take 34, port := 1, both := false }
def wHeld : State := tSt { tRg .run { cur := some (tTake, 7), held := [tHeld] } [] with now := 1400000, own := 1400000 }
def wEnum : State := tSt (tRg .quiet { enumEnd := some 2000000 } [])
/-- A REPLY's 24 bytes: identity, kind, cells, sensors. -/
def tReply (kind : Nat) : List Byte := toLe 0x1122 8 ++ [BitVec.ofNat 8 kind, 16#8, 8#8] ++ List.replicate 13 0#8
def wAsleep : State := tSt ((tSolo .quiet []).tPut [(Reg.LNK_RING_STAT_STATE, 0, 0, 3)])

/-- The record of node 1. -/
def tNode1 : Rec := tRec secRing 2 [(8, 1, 0), (9, 1, 1), (10, 1, 1), (12, 2, 0), (16, 2, 0xFFFF), (18, 1, 3), (24, 8, 0x1122)]

/-! ### States for the statements on the timebase and the sweep -/

/-- A queue definition. -/
def tQd (depth producer consumer : Nat) (policy : Policy) : QDef :=
  { depth := depth, policy := policy, cls := 1, producer := producer, consumer := consumer, wmHigh := 0xFFFF, carry := 0, prot := false, openRead := false }
/-- An empty queue. -/
def tQueue : Queue := { qd := tQd 16 0x02 0x02 .block }
/-- A device with one queue more. -/
def Dev.tQ (d : Dev) (qid : Nat) (q : Queue) : Dev := { d with qf := { d.qf with qs := d.qf.qs.ins qid q } }
/-- A `ROUTE` record: source, stream, queue. -/
def tRoute (src stream qid : Nat) : Rec := tRec secRoute 1 [(8, 2, src), (10, 2, stream), (12, 4, qid)]
/-- The global `QUEUE` record with no default event queue. -/
def tQGlob : Rec := tRec secQueue 1 [(12, 4, 0xFFFFF)]

/-- PTP on port 0, end to end. -/
def tPtpNet : Rec := tRec secNet 1 [(8, 1, 0), (9, 1, 1), (10, 1, 1)]
/-- A SLAVE port with a known mean delay. -/
def wPtpSlave : State := tSt ((tSolo .run [tPtpNet]).tPut [(Reg.TB_PTP_STAT_PORT_STATE, 0, 0, 9), (Reg.TB_PTP_DELAY_MEAN_DELAY, 0, 0, 700), (Reg.TB_STATUS_SRC, 0, 0, 1),
  (Reg.TB_STATUS_STATE, 0, 0, 2)])
def wPtpMaster : State := tSt ((tSolo .run [tPtpNet]).tPut [(Reg.TB_PTP_STAT_PORT_STATE, 0, 0, 6)])
def wPps : State := tSt ((tSolo .run []).tPut [(Reg.TB_CTRL_PPS_IN_EN, 0, 0, 1), (Reg.TB_PPS_TOD_LO_SEC, 0, 0, 41)])
def wHoldover : State := tSt ((tSolo .run []).tPut [(Reg.TB_STATUS_STATE, 0, 0, 3)])
def wLocked : State := tSt { (tSolo .run []).tPut [(Reg.TB_STATUS_STATE, 0, 0, 2), (Reg.TB_TCOMP_INFO_MINUTES, 13, 0, 9)] with gaf := { refTemp := 2500 } }
def wRef10 : State := tSt ((tSolo .run []).tPut [(Reg.TB_STATUS_REF10_USED, 0, 0, 1), (Reg.TB_STATUS_REF10_OK, 0, 0, 1), (Reg.TB_CTRL_REF10_EN, 0, 0, 1)])

def wStep : State := tSt { tSolo .run [] with tb := { step := some (3, 0, 10) } }
def wTimeSet : State := tSt { tSolo .quiet [] with host := { stage := [(0x20004, 77), (0x20008, 0)] } }
def wUtc : State := tSt ((tSolo .quiet []).tPut [(Reg.TB_STATUS_SRC, 0, 0, 2)])
/-- A follower of the board time master at address 2, which a peer link has shown. -/
def tFollow (m : DevState) : Dev := (tPair m 2 []).tPut [(Reg.TB_BOARD_MASTER_VALID, 0, 0, 1), (Reg.TB_BOARD_MASTER, 0, 0, 2), (Reg.SIN_STATUS_PEER_UP, 0, 0, 1),
  (Reg.SIN_PEER_STAT_ADDR_VALID, 0, 0, 1), (Reg.SIN_PEER_STAT_PEER_ADDR, 0, 0, 2)]
def wFollow : State := tSt (tFollow .quiet)
def wFollowRun : State := tSt (tFollow .run)
def wNoPeer : State := tSt ((tPair .quiet 3 []).tPut [(Reg.TB_BOARD_MASTER_VALID, 0, 0, 1), (Reg.TB_BOARD_MASTER, 0, 0, 2)])
def wBoardMaster : State := tSt ((tPair .quiet 3 []).tPut [(Reg.TB_STATUS_BOARD_MASTER, 0, 0, 1)])
/-- A BOARD_TIME payload: the label of the next pulse 12 s, a step of 2, its cycle 20. -/
def tBoardTime : List Byte := time12 12000000000 ++ toLe 0 6 ++ toLe 2 2 ++ toLe 20 4 ++ toLe 0 2
def tTwtt : List Byte := toLe 0 12

/-- The queue of cell packets of ring 0, whose consumer is SWP. -/
def tSwpHead : Item := BitVec.ofNat 64 (0xC000000000000000 + 1 * 2 ^ 28)
def tSwpItems : List Item := (List.range 16).map fun k => BitVec.ofNat 64 (8 * 2 ^ 60 + 875000 * 2 ^ 28 + 4000 * k * 2 ^ 28 + (33000 + k) * 2 ^ 12)
def tSwpQ (head : Item) : Queue := { qd := tQd 64 0x1000 0x3000 .overwrite, units := [.pkt head tSwpItems] }
def tSwp (head : Item) : Dev := ({ tRg .run { cur := some (tTake, 7) } [tRoute 0x1000 0 9, tQGlob] with now := 900000, own := 900000 }).tQ 9 (tSwpQ head)
def wSwp : State := tSt (tSwp tSwpHead)
def wSwpErr : State := tSt (tSwp (tSwpHead ||| 0x1000000000000000#64))
def wOpenWire : State := tSt { (tSolo .run []).tPut [(Reg.SWP_NODE_STATE_STATE, 0, 1, 0)] with swp := { nodes := [(1, { tested := [5] })] } }
def wOwClear : State := tSt ((tSolo .run []).tPut [(Reg.SWP_NODE_OW_CONFIRMED, 0, 1, 0x0F0F)])
/-- 10 ms before a plan instant; at one; after one. -/
def wBeforePlan : State := tSt { tSolo .run [] with now := 59990000000, own := 59990000000 }
def wAtPlan : State := tSt { (tSolo .run [tRec secGaf 3 [(8, 1, 0), (10, 2, 0), (12, 2, 1), (14, 2, 50)]]).tPut [(Reg.SWP_CTRL_BAL_EN, 0, 0, 1), (Reg.GAF_HEAT_POOL_GRANTED, 0, 0, 50)] with
  now := 60000000000, own := 60000000000 }
def wAtPlanQuiet : State := tSt { tSolo .quiet [] with now := 60000000000, own := 60000000000 }
def wAfterPlan : State := tSt { tSolo .run [] with now := 60001000000, own := 60001000000, swp := { quiet := true, planAt := 60000000000 } }

/-! ### States for the statements on the estimator, the loops and dispatch -/

/-- Ring 0's tile with its routes: filtered cells in queue 9, node states in queue 10. -/
def tEst (q9 q10 : List QUnit) : Dev :=
  let d := { tRg .run { cur := some (tTake, 7) } [tRoute 0x3000 0 9, tRoute 0x3000 3 10, tQGlob] with now := 900000, own := 900000 }
  ((d.tQ 9 { qd := tQd 64 0x3000 0x4000 .overwrite, units := q9 }).tQ 10 { qd := tQd 64 0x3000 0x4000 .overwrite, units := q10 }).tPut [(Reg.EST_CH_STAT_USED, 3, 0, 1)]
/-- Node 1's state 2 with both views. -/
def tNodeState : Item := BitVec.ofNat 64 (8 * 2 ^ 60 + 1 * 2 ^ 15 + 2 * 2 ^ 12)
def wEst : State := tSt (tEst [.pkt tSwpHead tSwpItems] [.one tNodeState])
def wEstErr : State := tSt (tEst [.pkt (tSwpHead ||| 0x1000000000000000#64) tSwpItems] [])

/-- Loop 5 with one measurement and one output, whose saturation expires after 4 ticks. -/
def tLoop (satAct : Nat) : Rec := tRec secLoop 1 [(8, 2, 5), (12, 1, 1), (13, 1, 1), (14, 1, 1), (15, 1, 1), (21, 1, satAct), (22, 2, 4)]
/-- A string record of dispatch for string 0 with loop 5. -/
def tDispStr : Rec := tRec secDisp 2 [(8, 2, 0), (12, 2, 1), (14, 2, 5)]
/-- A signal of 1.5 at 0.9 ms. -/
def tSignal : Item := BitVec.ofNat 64 (8 * 2 ^ 60 + 900000 * 2 ^ 28 + 98304)
def tLpeQ (it : Item) : Queue := { qd := tQd 16 0x8000 0x5005 .dropNew, units := [.one it] }
def tLpe (satAct : Nat) (it : Item) : Dev := ((tSolo .run [tLoop satAct, tDispStr, tQGlob]).tQ 9 (tLpeQ it)).tPut [(Reg.LPE_CTX_CFG1_BUILT, 5, 0, 1), (Reg.LPE_CTX_STAT_STATE, 5, 0, 1),
  (Reg.LPE_CTX_SATT_T_SAT, 5, 0, 4)]
def wLpe (satAct : Nat) : State := tSt (tLpe satAct tSignal)
def wLpeBad : State := tSt (tLpe 0 (tSignal ||| 0x1000000000000000#64))
/-- In HOLD with the measurement 800 ticks old. -/
def wLpeOld : State := tSt ((tLpe 0 tSignal).tPut [(Reg.LPE_CTX_STAT_STATE, 5, 0, 2), (Reg.LPE_AGE_AGE, 5, 0, 800)])
/-- A context that waits for room in a BLOCK queue. -/
def wLpeWait : State := tSt { tLpe 0 tSignal with qf := { (tLpe 0 tSignal).qf with waits := [{ req := 0x5005, qids := [3], unit := .one 0, at_ := 0 }] } }

/-- A `DISP` record that allows every source, and its device. -/
def tDisp : Rec := tRec secDisp 1 [(9, 1, 15), (12, 4, 50000000), (16, 4, 20000), (20, 4, 1000000), (24, 4, 5000000), (28, 4, 250)]
def tDspHead (kind fmt : Nat) : Item := BitVec.ofNat 64 (12 * 2 ^ 60 + fmt * 2 ^ 24 + kind * 2 ^ 16)
def tDspItems (sec ns : Nat) : List Item := [BitVec.ofNat 64 (8 * 2 ^ 60 + 777), BitVec.ofNat 64 (8 * 2 ^ 60 + sec), BitVec.ofNat 64 (8 * 2 ^ 60 + ns), BitVec.ofNat 64 (10 * 2 ^ 60 + 2 ^ 32 + 8)]
/-- A CAN input: kind 1, sequence 8, value 777. -/
def tDspCan (kind : Nat) : List Item := [BitVec.ofNat 64 (8 * 2 ^ 60), BitVec.ofNat 64 (8 * 2 ^ 60 + kind + 8 * 2 ^ 8 + 777 * 2 ^ 32), BitVec.ofNat 64 (10 * 2 ^ 60)]
def tCanHead : Item := BitVec.ofNat 64 (12 * 2 ^ 60 + 8 * 2 ^ 53)
def tDspQ (prod : Nat) (h : Item) (items : List Item) : Queue := { qd := tQd 64 prod 0x6000 .overwrite, units := [.pkt h items] }
def tDsp (role : Nat) (prod : Nat) (h : Item) (items : List Item) : Dev := ((tPair .run role [tDisp, tQGlob]).tQ 9 (tDspQ prod h items)).tPut [(Reg.DSP_STATUS_RUNNING, 0, 0, 1)]
def wDsp (sec ns : Nat) : State := tSt (tDsp 0 0x8000 (tDspHead 1 1) (tDspItems sec ns))
def wDspBad : State := tSt (tDsp 0 0x8000 (tDspHead 1 0) (tDspItems 0 0))
def wDspStandIn : State := tSt (tDsp 2 0x8000 (tDspHead 1 1) (tDspItems 0 0))
def wDspCan (kind : Nat) : State := tSt (tDsp 0 0xC000 tCanHead (tDspCan kind))
def tDRaw : DRaw := { prod := 0x8000, kind := 1, fmt := 1, items := [777, 0, 0, 2 ^ 32 + 8] }
def wDspHeld : State := tSt { tDsp 2 0x8000 (tDspHead 1 1) [] with dsp := { held := [(tDRaw, 900000)] } }
def tMirror : List Byte := toLe 0x8000 2 ++ [1, 1] ++ toLe 20 4 ++ toLe 0 4 ++ toLe 777 8 ++ toLe 0 8 ++ toLe 0 8 ++ toLe (2 ^ 32 + 8) 8
def wDspWdog : State := tSt ((tPair .run 0 [tDisp, tQGlob]).tPut [(Reg.DSP_STATUS_RUNNING, 0, 0, 1), (Reg.DSP_CTRL_WDOG, 0, 0, 1), (Reg.DSP_STATUS_SRC, 0, 0, 2)])
/-- A frequency sample of 49.970 Hz, outside the dead band for two allocations. -/
def tFreq (f : Nat) (active : Nat) : Dev := { (tPair .run 0 [tDisp, tQGlob]).tPut [(Reg.DSP_STATUS_RUNNING, 0, 0, 1), (Reg.DSP_FFR_CTRL_EN, 0, 0, 1), (Reg.DSP_STATUS_FFR_ACTIVE, 0, 0, active),
  (Reg.DSP_FFR_CTRL_F_TIMEOUT, 0, 0, 1)] with dsp := { freq := some (f, 7), off := 3, dead := 3 } }
def wFreqOff : State := tSt (tFreq 49970000 0)
def wFreqDead : State := tSt (tFreq 50000000 1)
def wGrace : State := tSt { (tPair .run 0 [tDisp, tQGlob]).tPut [(Reg.DSP_STR_DER_REQUESTED, 7, 0, 1234)] with dsp := { strs := [(7, { grace := some 0 })] } }

/-! ### States for the statements on the Tripwire -/

/-- Trip set 1 for every cell of ring 0: voltages from 2.5 V to 4.2 V, at once; its inputs and outputs. -/
def tTrip : List Rec := [tRec secTrip 1 [(8, 1, 1), (9, 1, 1), (10, 1, 1), (11, 1, 1), (12, 2, 42000), (14, 2, 25000)], tRec secTrip 2 [(8, 1, 0), (9, 1, 0), (10, 1, 1), (12, 2, 0), (14, 2, 2048)]]
/-- An E-stop on input 0, a fire input on input 4, both with action 1. -/
def tPins : List Rec := [tRec secPio 4 [(8, 1, 0), (10, 1, 1)], tRec secPio 4 [(8, 1, 4), (10, 1, 1)]]
/-- A Tripwire that is active, with string 0 admitted and every output permissive. -/
def tTrwR (r : LRing) : Dev := { (tRg .run r (tTrip ++ tPins ++ [tQGlob])).tPut [(Reg.TRW_STATUS_ACTIVE, 0, 0, 1), (Reg.TRW_STR_STAT_ADMITTED, 0, 0, 1), (Reg.TRW_OUT_MASK_MASK, 0, 0, 0x3FF),
  (Reg.TRW_OUT_MASK_MASK, 1, 0, 0x3FF), (Reg.TRW_OUT_MASK_MASK, 2, 0, 0x3FF), (Reg.TRW_CFG0_SF_EN, 0, 0, 1), (Reg.TRW_CFG0_SF_TIMEOUT, 0, 0, 10), (Reg.TRW_CFG0_SF_WINDOW, 0, 0, 10),
  (Reg.TRW_SF_SENDER_LO_SENDER, 0, 0, 0x55)] with now := 900000, own := 900000, trw := { outH := 7, outP := 7, miss := [(nodeInst 0 1, 2)] } }
def wTrw : State := tSt (tTrwR { cur := some (tTake, 7) })
/-- Node 1 with a cell at 4.3 V. -/
def tDataHigh : List Byte := tCrc ([0x01#8, 0x01#8] ++ toLe 43000 2 ++ (List.replicate 15 (toLe 33000 2)).flatten)
def wEstop : State := tSt (wTrw.dev.tPut [(Reg.TRW_GLOBAL_INPUTS, 0, 0, 1)])
/-- A safety frame: kind, sequence, sender 0x55, mask of strings. -/
def tSf (kind mask : Nat) : List Byte := tCrc (toLe 0x4653 2 ++ [1#8, BitVec.ofNat 8 kind] ++ toLe 9 4 ++ toLe 0x55 8 ++ toLe 0 12 ++ toLe mask 32)
def wSfOld : State := tSt { wTrw.dev with trw := { wTrw.dev.trw with sfs := [{ seq := 9, ports := [0], bytes := [], at_ := 0 }] } }
def tSfCopy : SfCopy := { seq := 9, ports := [0], bytes := [], at_ := 0 }
/-- Output 1 high with its feedback low for long. -/
def wFb : State := tSt { wTrw.dev.tPut [(Reg.TRW_CFG1_FB_EN, 0, 0, 2)] with trw := { wTrw.dev.trw with fbAt := [(1, 0)] } }

def wTrwQuiet : State := tSt ((tSolo .quiet [tQGlob]).tPut [(Reg.TRW_STR_CAUSE_CAUSES, 0, 0, 1), (Reg.TRW_STR_STAT_LATCHED, 0, 0, 1)])
def tLane0 : Dev := (tSolo .run [tQGlob]).tPut [(Reg.TRD_STATUS_AUTH, 0, 0, 1)]
def wLane0 : State := tSt tLane0
def wSfTx : State := tSt ((tSolo .run [tQGlob]).tPut [(Reg.TRW_CFG0_SF_TX_EN, 0, 0, 1)])
/-- String 0 admitted, permitted and ready for its test. -/
def wTestReady : State := tSt { (tSolo .run [tQGlob]).tPut [(Reg.TRW_STR_STAT_ADMITTED, 0, 0, 1), (Reg.TRW_STR_STAT_H_GRANT, 0, 0, 1), (Reg.TRW_STR_STAT_P_GRANT, 0, 0, 1), (Reg.TRW_STR_STAT_CONTACT, 0, 0, 3)] with
  trw := { strs := [(0, { sfl := 4 })] } }
def wTesting : State := tSt { (tSolo .run [tQGlob]).tPut [(Reg.TRW_TEST_STAT_STEP, 0, 0, 1), (Reg.TRW_STATUS_TEST_BUSY, 0, 0, 1)] with trw := { test := some (0, 900000, 900000) } }
def wTestDue : State := tSt ((tSolo .run [tQGlob]).tPut [(Reg.TRW_CFG2_TEST_DAYS, 0, 0, 1), (Reg.TRW_STR_TEST_AGE, 0, 0, 86401)])

/-! ### States for the statements on queues -/

def tItem : Item := 0x8000000000000005#64
/-- A queue written by the host's protected function and read by the sweep. -/
def tPushQ (op : Option OpenPkt) : Queue := { qd := tQd 16 0x9001 0x4000 .block, units := [.one tItem], openp := op }
/-- A queue written by the sweep and read by the host's protected function. -/
def tPopQ (us : List QUnit) (rd : Option Reading) : Queue := { qd := tQd 16 0x4000 0x9001 .block, units := us, reading := rd }
/-- A queue written and read by the host's protected function. -/
def tBothQ (us : List QUnit) (op : Option OpenPkt) (rd : Option Reading) : Queue := { qd := tQd 16 0x9001 0x9001 .block, units := us, openp := op, reading := rd }
def tPkt : QUnit := .pkt 0xC040000000000000#64 [tItem, 0xA000000000000006#64]
def tOpenP : OpenPkt := { req := 2, items := [tItem], discard := false, gone := false }
def wQ9 (q : Queue) : State := tSt ((tSolo .run [tQGlob]).tQ 9 q)
def wQFar : State := tSt ((tSolo .run [tQGlob]).tQ 0x10000 (tPopQ [] none))
/-- The host's function has waited at the empty queue 9, which now holds an item. -/
def wQPopWait (us : List QUnit) : State := tSt { (wQ9 (tPopQ us none)).dev with qf := { (wQ9 (tPopQ us none)).dev.qf with qs := (wQ9 (tPopQ us none)).dev.qf.qs }, reqs := [(2, { pop := some (9, 900000) })] }
def tQWait : QWait := { req := 0x4000, qids := [9], unit := .one tItem, at_ := 0 }
def wQBlock : State := tSt { (wQ9 (tPopQ [] none)).dev with qf := { (wQ9 (tPopQ [] none)).dev.qf with waits := [tQWait] } }

/-- Lane A of triad 0, running split, at a word, with 9 in g3 and 5 in g4. -/
def tSplit (w : Word) (q : Queue) : Dev :=
  (({ (tSolo .run [tQGlob]).tQ 9 q with trd := { tri := [(0, { lanes := [(1, { core := { g := [(3, 9#32), (4, 5#32), (6, 5#32), (7, 0x20000000#32)] }, itcm := [(0, w)] })] })] } }).tPut
    [(Reg.TRD_STATUS_MODE, 0, 0, 2), (Reg.TRD_LANE_STAT_STATE, 0, 0, 1), (Reg.TRD_STATUS_REALM, 0, 0, 1), (Reg.TRD_STATUS_AUTH, 0, 0, 1)])
def wSplit (w : Word) (q : Queue) : State := tSt (tSplit w q)
def tTrdPush (op : Option OpenPkt) : Queue := { qd := tQd 16 0x8001 0x4000 .block, openp := op }
def tTrdPop (us : List QUnit) : Queue := { qd := tQd 16 0x4000 0x8001 .block, units := us }
def tTrdOpen : OpenPkt := { req := 0x81, items := [tItem], discard := false, gone := false }
def tLWait : LWait := { op := 2, qid := 9, at_ := 0, tmo := some 10 }
def wSplitWait (w : Word) : State := tSt { tSplit w (tTrdPop []) with qf := { (tSplit w (tTrdPop [])).qf with lanes := [(0x81, tLWait)] } }

/-- Lane A of triad 0, running split, with a core and one word of data TCM; `w` is the word at address 0. -/
def tIsa (c : Core) (w : Word) : Dev :=
  ({ tSolo .run [tQGlob] with trd := { tri := [(0, { lanes := [(1, { core := c, itcm := [(0, w)], dtcm := [(0, 0x8182F384#32)] })] })] } }).tPut
    [(Reg.TRD_STATUS_MODE, 0, 0, 2), (Reg.TRD_LANE_STAT_STATE, 0, 0, 1), (Reg.TRD_STATUS_REALM, 0, 0, 1), (Reg.TRD_STATUS_AUTH, 0, 0, 1)]
def wIsa (c : Core) (w : Word) : State := tSt (tIsa c w)
/-- A core with a handler at 64: g1 to g9 hold -2^31, -1, 7, 0, the base of data TCM, 300, 2^30, 512, 256; `inTrap` as given. -/
def tCore (inTrap : Bool) : Core :=
  { g := [(1, 0x80000000#32), (2, 0xFFFFFFFF#32), (3, 7#32), (5, 0x10000000#32), (6, 300#32), (7, 0x40000000#32), (8, 512#32), (9, 256#32)], tvec := 64#32, epc := 20#32, inTrap := inTrap }
def tBusLock : BusLock := { req := 0x81, at_ := 900000 }
/-- The lane at a word with the bus lock held, or lost. -/
def wBusHeld (w : Word) : State := tSt { (tIsa (tCore false) w).tPut [(Reg.TRD_STATUS_LOCK, 0, 0, 1)] with trd := { (tIsa (tCore false) w).trd with lock := some tBusLock } }
def wRevoked (w : Word) : State := tSt { tIsa (tCore false) w with trd := { (tIsa (tCore false) w).trd with revoked := [0x81] } }

/-- Triad 1 under a vote, its lanes in the given states. -/
def tVote (a b c : Nat) (tr : Triad) (more : List (Field × Nat × Nat × Nat)) : Dev :=
  { (tSolo .run [tQGlob]).tPut ([(Reg.TRD_STATUS_MODE, 1, 0, 1), (Reg.TRD_LANE_STAT_STATE, 1, 0, a), (Reg.TRD_LANE_STAT_STATE, 1, 1, b), (Reg.TRD_LANE_STAT_STATE, 1, 2, c),
    (Reg.TRD_STATUS_REALM, 1, 0, 1), (Reg.TRD_STATUS_AUTH, 1, 0, 1)] ++ more) with trd := { tri := [(1, tr)] } }
def wVote (a b c : Nat) (tr : Triad) (more : List (Field × Nat × Nat × Nat)) : State := tSt (tVote a b c tr more)
/-- An entry of a lane: what it wrote. -/
def tCEntry (lane x : Nat) : CEntry := { lane := lane, pc := 0#32, kind := 1, special := false, x := x, y := 0, z := 0, mark := false }
/-! ### States for the statements on pairs -/

/-- A device of a Pair in RUN, in step, with its partner known, on a ring it does not originate; changes to its stand-in manager. -/
def tSin (m : DevState) (role : Nat) (x : Sin) (more : List (Field × Nat × Nat × Nat)) : Dev :=
  { (tPair m role [tQGlob]).tPut ([(Reg.SIN_STATUS_PARTNER_OK, 0, 0, 1), (Reg.SIN_STATUS_PARTNER_ROLE, 0, 0, 3 - role), (Reg.SIN_STATUS_PARTNER_STATE, 0, 0, 4)] ++ more) with sin := x }
def wSin (m : DevState) (role : Nat) (x : Sin) (more : List (Field × Nat × Nat × Nat)) : State := tSt (tSin m role x more)
/-- The payload of a PRESENCE of the ACTIVE partner in RUN: pair, epoch, ts32 of its renewal. -/
def tPresence (pair epoch ts : Nat) : List Byte := [1#8, 1#8, 4#8, 0#8] ++ toLe pair 4 ++ [1#8, 0#8, 0#8, 0#8] ++ toLe epoch 4 ++ toLe ts 4
/-- The payload of an ACCEPT of ring 0, cycle 7, node 1, DATA, with its flags and the CRC of the frame. -/
def tAccept (flags : Nat) (crc : Nat) : List Byte := [0#8] ++ toLe 7 4 ++ [1#8, 0#8, 0#8] ++ toLe 8 2 ++ [1#8, BitVec.ofNat 8 (1 + 16 * flags)] ++ toLe crc 4
def tAccWant : AccWant := { ring := 0, cyc := 7, pos := 8, addr := 1, ntype := 1, dup := false, crc := 0 }
/-- A STAND-IN with a lease renewed at 900 µs. -/
def wLease : State := wSin .run 2 { lease := some (900000, 0) } []
/-- A copy of node 1's DATA frame of cycle 7 held at the deadline. -/
def tOwnCopy : Held := { cyc := 7, addr := 1, ntype := 1, bytes := tDataV.take 34, port := 1, both := false }
def tOwnCrc : Nat := crc32c tOwnCopy.bytes
def wOwnCopy : State := tSt ((wSin .run 2 {} []).dev.setLr 0 { held := [tOwnCopy] })
/-- The content of a frame with its CRC, in a CONTENT frame's payload. -/
def tContent : List Byte := [0#8] ++ toLe 7 4 ++ toLe 8 2 ++ [0#8] ++ tCrc (tDataV.take 34)
def tWant8 : AccWant := { tAccWant with crc := crc32c (tDataV.take 34) }
/-- A COMPARE payload of cycle 7. -/
def tCompare (p : Nat) : List Byte := toLe 7 4 ++ toLe p 4 ++ toLe 2 4 ++ toLe 3 4
def wCompare : State := wSin .run 2 { own := [(7, (1, 2, 3))], lastCmp := some 6 } []
def tState (part : Nat) : List Byte := toLe 0 2 ++ toLe part 2 ++ toLe 5 4 ++ toLe 2 4 ++ List.replicate 4 0#8
/-! ### States for the statements on host access -/

/-- Port 0 alone, without a key for the open realm. -/
def tNet0 : Rec := tRec secNet 1 [(8, 1, 0), (9, 1, 1), (12, 6, 0x020000000002), (21, 1, 0xFF), (24, 4, 0xC0A80002), (52, 1, 0xFF), (53, 1, 0)]
/-- A message of the open realm without a key: kind, session, operations, sequence, nonce, body. -/
def tCwp (kind session ops seq nonce : Nat) (body : List Byte) : List Byte :=
  toLe 0x5743 2 ++ [1#8, BitVec.ofNat 8 kind, BitVec.ofNat 8 session, 0#8, BitVec.ofNat 8 ops, 0#8] ++ toLe seq 4 ++ toLe (48 + body.length) 2 ++ toLe 0 2 ++ toLe nonce 8 ++ toLe 0x77 8 ++
    body ++ List.replicate 16 0#8
def tMsg (b : List Byte) : CwpMsg := { mac := [2#8, 0, 0, 0, 0, 1], addr := [192#8, 168, 0, 1], udp := 5000, bytes := b }
def tCwpMsg : CwpMsg := tMsg []
def tSession : Session := { addr := [192#8, 168, 0, 1], udp := 5000, port := 0, nonce := 9, cnonce := 0x78, seq := 4, cache := [], key := 0xFF, at_ := 900000 }
def tPortCfg : PortCfg := (tSolo .run [tQGlob, tNet0]).portCfg 0 |>.getD { mode := 0, mac := [], vlan := 0, key := 0, ip4 := 0, ip6 := [], pcp := [], keyOpen := 0, keyProt := 0, prp := false }
/-- Session 3 open, and a datagram waiting at port 0. -/
def wCwp (b : List Byte) : State := tSt { tSolo .run [tQGlob, tNet0] with host := { sess := [(3, tSession)], waiting := [(0, [tMsg b])] } }
def tReq1 (seq : Nat) : List Byte := tCwp 1 3 1 seq 9 ([1#8, 1#8, 0#8, 0#8] ++ toLe 0x60018 4)
/-- Queue 9 with an item and MSI-X vector 5 on it, armed as given. -/
def wMsix (us : List QUnit) (arm : Nat) : State := tSt (((tSolo .run [tQGlob]).tQ 9 (tPopQ us none)).tPut [(Reg.GLB_MSIX_MAP_QID, 5, 0, 9), (Reg.GLB_MSIX_MAP_COND, 5, 0, 1), (Reg.GLB_MSIX_ARM_ARM, 5, 0, arm)])
def wKeyReq : State := tSt { tSolo .run [tQGlob] with host := { keyReq := some (3, 0), sess := [(3, { tSession with key := 3 })] } }
def wRunning : State := tSt (tSolo .run [tQGlob])
/-! ### States for the statements on networks and the field -/

/-- Port 0 up. -/
def tNetDev (more : List Rec) : Dev := (tSolo .run ([tQGlob, tNet0] ++ more)).tPut [(Reg.NET_PORT_STAT_LINK, 0, 0, 1)]
def wNet : State := tSt (tNetDev [])
def tMac : List Byte := [2#8, 0, 0, 0, 0, 2]
def tEthHead (etype : Nat) : List Byte := tMac ++ [2#8, 0, 0, 0, 0, 1] ++ toBe etype 2
def tFrameLong : List Byte := tEthHead 0x0800 ++ List.replicate 1505 0#8
def tFramePause : List Byte := tEthHead 0x8808 ++ toBe 1 2 ++ toBe 100 2 ++ List.replicate 42 0#8
def tFrameVlan : List Byte := tEthHead 0x8100 ++ toBe 5 2 ++ toBe 0x0800 2 ++ List.replicate 46 0#8
/-- A datagram for CWP from 192.168.0.1. -/
def tFrameCwp : List Byte := tEthHead 0x0800 ++ ipPacket [192#8, 168, 0, 1] [192#8, 168, 0, 2] 17 64 (udpPacket [192#8, 168, 0, 1] [192#8, 168, 0, 2] 5000 47620 (tReq1 5))
/-- Ports 0 and 1 as a PRP pair, both up; the mate of port 0 heard. -/
def tNetPrp (port : Nat) : Rec := tRec secNet 1 [(8, 1, port), (9, 1, if port = 0 then 2 else 3), (12, 6, 0x020000000002), (21, 1, 0xFF), (52, 1, 0xFF), (53, 1, 0)]
def wPrp : State := tSt { (tSolo .run [tQGlob, tNetPrp 0, tNetPrp 1]).tPut [(Reg.NET_PORT_STAT_LINK, 0, 0, 1), (Reg.NET_PORT_STAT_LINK, 1, 0, 1)] with
  net := { ports := [(1, { lastRx := 900000 })], pairs := [(0, { supAt := some 5 })] } }
def tMacSa : MacSa := { an := 1, key := [7#8] }
def wMacSwitch : State := tSt { tNetDev [] with net := { ports := [(0, { rx := [{ an := 0, key := [] }, tMacSa], switchAt := some 900000, removeAt := some 900000 })] } }
/-- Queue 9 of port 0's egress with a unit, bound by binding 2 or not; what binding 2 has gathered. -/
def tEgQ : Queue := { qd := tQd 16 0x8000 0xB000 .dropNew, units := [.one tItem, .one 6] }
def wEgress (en : Nat) : State := tSt { ((tNetDev []).tQ 9 tEgQ).tPut [(Reg.NET_EGQ_EN, 2, 0, en), (Reg.NET_EGQ_QID, 2, 0, 9)] with net := { egress := [(2, { items := [7], port := 0, at_ := 900000 })] } }

/-- CAN controller 0 with a filter for identifier 0x123, its state as given and a frame in its slot. -/
def tCan (st : Nat) : Dev := { (tSolo .run [tQGlob, tRec secCall 1 [(8, 1, 0)], tRec secCall 3 [(8, 1, 0), (12, 4, 0x123), (16, 4, 0x7FF)]]).tPut [(Reg.FLD_CAN_STAT_STATE, 0, 0, st)] with
  fld := { cans := [(0, { frame := some (0x123, 0, [1#8]) })] } }
def wCan (st : Nat) : State := tSt (tCan st)
def tFilter : Rec := tRec secCall 3 [(8, 1, 0), (12, 4, 0x123), (16, 4, 0x7FF)]
/-- Decoder 2, PWM channel 3 at 50 kHz and safe input 1 with action 2. -/
def tPwmR : Rec := tRec secPio 2 [(8, 1, 3), (12, 4, 50000), (16, 2, 100), (18, 2, 60000)]
def tInR : Rec := tRec secPio 4 [(8, 1, 1), (10, 1, 2)]
def wPio : State := tSt ((tSolo .run [tQGlob, tRec secPio 1 [(8, 1, 2), (9, 1, 1)], tPwmR, tInR]).tPut [(Reg.FLD_PWM_HOST_DUTY, 3, 0, 50)])
def tNoCfg : PortCfg := { mode := 0, mac := [], vlan := 0, key := 0, ip4 := 0, ip6 := [], pcp := [], keyOpen := 0, keyProt := 0, prp := false }
def tPrpCfg : PortCfg := (wPrp.dev.portCfg 0).getD tNoCfg
/-! ### States for the statements on the Gaffer, the Wrap and the watch island -/

/-- A Solo device in RUN with some Gaffer state and registers. -/
def wGaf (g : Gaf) (more : List (Field × Nat × Nat × Nat)) : State := tSt { (tSolo .run [tQGlob]).tPut ([(Reg.GAF_POOL_POOL, 0, 0, 1000), (Reg.GAF_CLIENT_RATE_FLOOR, 130, 0, 30), (Reg.GAF_BUDGET_DISC, 0, 0, 400)] ++ more) with gaf := g }
/-- Every sensor at 120 °C. -/
def wHot : State := tSt ((tSolo .run [tQGlob]).tPut ((List.range 32).map fun k => (Reg.GAF_SENS_T, k, 0, 12000)))
/-- Container 3 over string 0 with a pool of 800, its temperature. -/
def wHeat (m : DevState) (out : Int) (cap : Nat) (valid : Bool) : State := tSt { (tSolo m [tQGlob, tRec secGaf 3 [(8, 1, 3), (10, 2, 0), (12, 2, 1), (14, 2, 800)]]).tPut [(Reg.GAF_HEAT_CAP_CAP, 3, 0, cap)] with
  swp := { tfilt := [(0, { valid := valid, out := out })] } }
/-- A Wrap with string 5 in a state; its Tripwire state and registers. -/
def wWrap (x : WString) (y : TStr) (more : List (Field × Nat × Nat × Nat)) : State := tSt { (tSolo .wrap [tQGlob]).tPut more with
  gaf := { wrap := some { cause := 1, start := 900000, own0 := 900000, endAt := 2000000000, strings := [(5, x)] } }, trw := { strs := [(5, y)] } }
def tWrap (x : WString) : WrapRun := { cause := 1, start := 900000, own0 := 900000, endAt := 2000000000, strings := [(5, x)] }
def tGranted : List (Field × Nat × Nat × Nat) := [(Reg.TRW_STR_STAT_H_GRANT, 5, 0, 1), (Reg.TRW_STR_STAT_P_GRANT, 5, 0, 1)]

/-- A device in WATCH: wake pin 1 and the alarm enabled, tone detector 7 enabled, Dailies each 120 s. -/
def tWatch : Rec := tRec 14 1 [(8, 4, 120), (12, 1, 0x80)]
def wIsland (x : Wch) (more : List (Field × Nat × Nat × Nat)) : State := tSt { (tBare .watch).tPut ([(Reg.WCH_WAKE_CFG_EN, 0, 0, 2), (Reg.WCH_ALARM_CTRL_EN, 0, 0, 1), (Reg.WCH_ALARM_SEC, 0, 0, 500), (Reg.WCH_ADC_CFG_ADC_EN, 0, 0, 1)] ++ more) with
  wch := { x with cfg := [tWatch], rtc := 500000000000, rtcAt := 1000000 } }
def wTimed : State := tSt ((tSolo .run [tQGlob]).tPut [(Reg.TB_STATUS_TIME_VALID, 0, 0, 1)])
def wDarkPort : State := tSt (tBare .dark)
/-- Every sensor is hot, whichever its neighbours are (Table 18.3 leaves them to the device). -/
theorem hot_hot : (0 : Fin 32).val ∈ wHot.dev.hwHot := by
  have h : ∀ k : Fin 32, 11500 ≤ wHot.dev.sensT k.val := by decide +kernel
  unfold Dev.hwHot
  simp only [List.mem_filter, List.mem_range, Bool.and_eq_true, decide_eq_true_eq, List.any_eq_true]
  refine ⟨by decide, h 0, _, List.mem_cons_self, ?_⟩
  exact h ⟨(Config.sensorNbr (0 : Fin 32).val).1 % 32, Nat.mod_lt _ (by decide)⟩
/-! ### States for the statements on the store, the tag and the cycle boundary -/

/-- A Solo device in QUIET with some store state and registers. -/
def wPst (p : Pst) (more : List (Field × Nat × Nat × Nat)) : State := tSt { (tSolo .quiet [tQGlob]).tPut more with pst := p }
def tWrite (kind : Nat) : PstWrite := { kind := kind, key := 0, body := [1#8, 2, 3, 4] }
def tProg (page : Nat) (fail : Bool) : NvProg := { page := page, erase := false, pulses := 1, fail := fail }
def tBb (ok : Bool) : BbRec := { kind := 1, seq := 6, time := 0, ev0 := 0, ev1 := 0, context := [], ok0 := ok, ok1 := ok }
def tNv (ok : Bool) : NvRec := { kind := 7, key := 0, gen := 3, body := [9#8], time := 0, page0 := 40, page1 := 41, ok0 := ok, ok1 := false }
def wTag (g : Tag) (more : List (Field × Nat × Nat × Nat)) : State := wPst { tag := g } more
def wCyc (m : DevState) (done : Option Nat) (im : Option (Nat × Nat × Nat)) : State := tSt { (tRg m {} [tQGlob]).tPut [(Reg.LNK_PORT_CTRL_ENABLE, 0, 0, 1)] with
  lnk := { (tRg m {} [tQGlob]).lnk with done := done }, gaf := { immediate := im } }
/-! ### A state and operands for the hypotheses of every statement -/

set_option Elab.async false
set_option maxRecDepth 100000

theorem witness_ActivationAndEndOfWrap_1 :
    let s : State := wActDark
    let req : Nat := 2
    let v : Word := 1
    (s.dev.Takes req) ∧ (s.dev.img.act = none) ∧ (s.dev.mode = .dark ∨ s.dev.mode = .quiet ∨ (s.dev.mode = .run ∧ v.getLsbD 1 = true)) := by
  dsimp only
  exact ⟨by unfold Dev.Takes; decide +kernel, by decide +kernel, by decide +kernel⟩

theorem witness_ActivationAndEndOfWrap_2 :
    let s : State := wWrapAct
    let a : Activate := { slot := 1, force := true, shadow := some tCutStruct }
    let r : Reel := tCutStruct
    let w : WrapRun := tWrapDone false
    (s.dev.img.act = some a) ∧ (s.dev.mode = .wrap) ∧ (s.dev.gaf.wrap = some w) ∧ (s.dev.wrapReady = true) ∧ (w.toHalt = false) ∧ (a.shadow = some r) := by
  dsimp only
  decide +kernel

theorem witness_ActivationAndEndOfWrap_3 :
    let s : State := wWrapHalt
    let w : WrapRun := tWrapDone true
    (s.dev.mode = .wrap) ∧ (s.dev.gaf.wrap = some w) ∧ (s.dev.wrapReady = true) ∧ (w.toHalt = true) ∧ (s.dev.rd Reg.SWP_CTRL_SLEEP_HALT = 0) := by
  dsimp only
  decide +kernel

theorem witness_BootLoadsAndEntersRun_1 :
    let s : State := wBoot1
    let k : Nat := 1
    let damaged : Bool := true
    let e : LoadErr := { code := 0x01 }
    (s.dev.mode = .boot) ∧ (s.dev.img.loaded = none) ∧ (s.dev.img.boot = some [k]) ∧ (k < 2) ∧ ((s.dev.slot k).st = .valid) ∧ (s.dev.loadSlot k damaged = .inr e) := by
  dsimp only
  decide +kernel

theorem witness_BootLoadsAndEntersRun_2 :
    let s : State := wBoot3
    (s.dev.mode = .boot) ∧ (s.dev.img.loaded = none) ∧ (s.dev.img.boot = none) ∧ (s.dev.rd Reg.GLB_STATUS_BOOT_MODE = 3) := by
  dsimp only
  decide +kernel

theorem witness_BootLoadsAndEntersRun_3 :
    let s : State := wBootDone
    let k : Nat := 1
    let r : Reel := { hdr := [], recs := [tRole 0] }
    (s.dev.mode = .boot) ∧ (s.dev.img.loaded = some (k, r)) := by
  dsimp only
  decide +kernel

theorem witness_BootLoadsAndEntersRun_4 :
    let s : State := wReady
    (s.dev.runReady = true) ∧ (s.dev.rl.startHost = false) := by
  dsimp only
  decide +kernel

theorem witness_BootLoadsAndEntersRun_5 :
    let s : State := wReadyHost
    let req : Nat := 2
    (s.dev.runReady = true) ∧ (s.dev.rl.startHost = true) ∧ (s.dev.Takes req) := by
  dsimp only
  exact ⟨by decide +kernel, by decide +kernel, by unfold Dev.Takes; decide +kernel⟩

theorem witness_CycleBoundaryActsOnce_1 :
    let s : State := wCyc .run (some 16) none
    let t : Nat := 2000000
    let k := cycleOf (s.dev.nowAt t)
    (s.dev.tb.step = none) ∧ (s.dev.lnk.done = some k) := by
  dsimp only
  decide +kernel

theorem witness_CycleBoundaryActsOnce_2 :
    let s : State := wDarkPort
    let t : Nat := 2000000
    let k := cycleOf (s.dev.nowAt t)
    (s.dev.tb.step = none) ∧ (s.dev.lnk.done ≠ some k) ∧ (s.dev.plant = false) := by
  dsimp only
  decide +kernel

theorem witness_CycleBoundaryActsOnce_3 :
    let s : State := wCyc .run none (some (4, 1, 9))
    let t : Nat := 2000000
    let c : Nat := 4
    let last : Nat := 9
    let k := cycleOf (s.dev.nowAt t)
    (s.dev.tb.step = none) ∧ (s.dev.lnk.done ≠ some k) ∧ (s.dev.plant = true) ∧ (s.dev.gaf.immediate = some (c, 1, last)) ∧ (last < k) := by
  dsimp only
  decide +kernel

theorem witness_CycleBoundaryActsOnce_4 :
    let s : State := wCyc .quiet none none
    let t : Nat := 2000000
    let ring : Fin 64 := 0
    let rot : Fin 2 := 0
    let k := cycleOf (s.dev.nowAt t)
    (s.dev.tb.step = none) ∧ (s.dev.lnk.done ≠ some k) ∧ (s.dev.mode = .quiet) ∧ (s.dev.solo = true) ∧ (s.dev.gaf.immediate = none) ∧ (s.dev.gaf.wrap = none) ∧ (s.dev.img.cut = none) ∧ (s.dev.sin.switchK = none) ∧ (ring.val ∈ s.dev.rl.rings) ∧ ((s.dev.lr ring).orig = true) ∧ (s.dev.rd Reg.LNK_PORT_CTRL_ENABLE (2 * ring + rot) = 1) := by
  dsimp only
  decide +kernel

theorem witness_DebugHaltsAndResumes_1 :
    let s : State := wVote 1 1 1 {} []
    let tr : Fin 4 := 1
    let lane : Nat := 3
    (s.dev.mode = .dark ∨ s.dev.rl.sealed = false) ∧ (1 ≤ lane) ∧ (lane ≤ 3) ∧ (s.dev.lst tr lane = 1 ∨ s.dev.lst tr lane = 2 ∨ s.dev.lst tr lane = 6) := by
  dsimp only
  decide +kernel

theorem witness_DebugHaltsAndResumes_2 :
    let s : State := wVote 1 1 5 {} []
    let tr : Fin 4 := 1
    let lane : Nat := 3
    let r : Nat := 5
    (s.dev.mode = .dark ∨ s.dev.rl.sealed = false) ∧ (1 ≤ lane) ∧ (lane ≤ 3) ∧ (s.dev.lst tr lane = 5) ∧ (s.dev.tmode tr = 1) ∧ (s.dev.voters tr ≠ []) ∧ (1 ≤ r) ∧ (r < 32) := by
  dsimp only
  decide +kernel

theorem witness_DispatchTakesInputs_1 :
    let s : State := wDsp 0 0
    let t : Nat := 2000000
    let req : Nat := 2
    let qid : Nat := 9
    let q : Queue := tDspQ 0x8000 (tDspHead 1 1) (tDspItems 0 0)
    let h : Item := tDspHead 1 1
    let items : List Item := tDspItems 0 0
    let us : List QUnit := []
    let x : DRaw := { prod := q.qd.producer, kind := itemBits h 16 8, fmt := itemBits h 24 8, items := items.map (fun i => itemBits i 0 60), err := itemErr h || itemBits h 32 28 != 0 }
    (s.dev.qf.qs.find qid = some q) ∧ (q.qd.consumer = 0x6000) ∧ (q.reading = none) ∧ (q.units = .pkt h items :: us) ∧ (s.dev.dsp.early = []) ∧ (dspSource q.qd.producer = 0 ∨ dspSource q.qd.producer = 2) ∧ ((begin_ t s.dev).dspCheck x = 0) ∧ (s.dev.dspHolds = false) ∧ (x.sec = 0) ∧ (x.ns = 0) ∧ (s.dev.Takes req) := by
  dsimp only
  exact ⟨by decide +kernel, by decide +kernel, by decide +kernel, by decide +kernel, by decide +kernel, by decide +kernel, by decide +kernel, by decide +kernel, by decide +kernel, by decide +kernel, by unfold Dev.Takes; decide +kernel⟩

theorem witness_DispatchTakesInputs_2 :
    let s : State := wDsp 3 7
    let t : Nat := 2000000
    let qid : Nat := 9
    let q : Queue := tDspQ 0x8000 (tDspHead 1 1) (tDspItems 3 7)
    let h : Item := tDspHead 1 1
    let items : List Item := tDspItems 3 7
    let us : List QUnit := []
    let a := 3000000007
    let x : DRaw := { prod := q.qd.producer, kind := itemBits h 16 8, fmt := itemBits h 24 8, items := items.map (fun i => itemBits i 0 60), err := itemErr h || itemBits h 32 28 != 0 }
    (s.dev.qf.qs.find qid = some q) ∧ (q.qd.consumer = 0x6000) ∧ (q.reading = none) ∧ (q.units = .pkt h items :: us) ∧ (s.dev.dsp.early = []) ∧ (dspSource q.qd.producer = 0 ∨ dspSource q.qd.producer = 2) ∧ ((begin_ t s.dev).dspCheck x = 0) ∧ (s.dev.dspHolds = false) ∧ (a ≠ 0) ∧ (ofFullTime x.ns (x.sec % 2 ^ 32) (x.sec / 2 ^ 32) = some a) ∧ (s.dev.nowAt t + 20000 ≤ boundaryAfter a * 125000) := by
  dsimp only
  decide +kernel

theorem witness_DispatchTakesInputs_3 :
    let s : State := wDspBad
    let t : Nat := 2000000
    let qid : Nat := 9
    let q : Queue := tDspQ 0x8000 (tDspHead 1 0) (tDspItems 0 0)
    let h : Item := tDspHead 1 0
    let items : List Item := tDspItems 0 0
    let us : List QUnit := []
    let x : DRaw := { prod := q.qd.producer, kind := itemBits h 16 8, fmt := itemBits h 24 8, items := items.map (fun i => itemBits i 0 60), err := itemErr h || itemBits h 32 28 != 0 }
    (s.dev.qf.qs.find qid = some q) ∧ (q.qd.consumer = 0x6000) ∧ (q.reading = none) ∧ (q.units = .pkt h items :: us) ∧ (s.dev.dsp.early = []) ∧ (dspSource q.qd.producer = 0 ∨ dspSource q.qd.producer = 2) ∧ ((begin_ t s.dev).dspCheck x ≠ 0) := by
  dsimp only
  decide +kernel

theorem witness_DispatchTakesInputs_4 :
    let s : State := wDspStandIn
    let t : Nat := 2000000
    let qid : Nat := 9
    let q : Queue := tDspQ 0x8000 (tDspHead 1 1) (tDspItems 0 0)
    let h : Item := tDspHead 1 1
    let items : List Item := tDspItems 0 0
    let us : List QUnit := []
    let x : DRaw := { prod := q.qd.producer, kind := itemBits h 16 8, fmt := itemBits h 24 8, items := items.map (fun i => itemBits i 0 60), err := itemErr h || itemBits h 32 28 != 0 }
    (s.dev.qf.qs.find qid = some q) ∧ (q.qd.consumer = 0x6000) ∧ (q.reading = none) ∧ (q.units = .pkt h items :: us) ∧ (s.dev.dsp.early = []) ∧ (dspSource q.qd.producer = 0 ∨ dspSource q.qd.producer = 2) ∧ ((begin_ t s.dev).dspCheck x = 0) ∧ (s.dev.dspHolds = true) := by
  dsimp only
  decide +kernel

theorem witness_DispatchTakesInputs_5 :
    let s : State := wDspCan 1
    let t : Nat := 2000000
    let qid : Nat := 9
    let q : Queue := tDspQ 0xC000 tCanHead (tDspCan 1)
    let h : Item := tCanHead
    let items : List Item := tDspCan 1
    let us : List QUnit := []
    let byte (k : Nat) : Nat := itemBits (items.getD (1 + k / 7) 0) (8 * (k % 7)) 8
    let y : DRaw := { prod := q.qd.producer, kind := byte 0, fmt := 1, items := [byte 4 + byte 5 * 2 ^ 8 + byte 6 * 2 ^ 16 + byte 7 * 2 ^ 24, 0, 0, byte 1 + 2 ^ 32], err := itemErr h || decide (itemBits h 53 7 < 8) || byte 2 != 0 || byte 3 != 0 }
    (s.dev.qf.qs.find qid = some q) ∧ (q.qd.consumer = 0x6000) ∧ (q.reading = none) ∧ (q.units = .pkt h items :: us) ∧ (s.dev.dsp.early = []) ∧ (dspSource q.qd.producer = 1) ∧ ((begin_ t s.dev).dspCheck y = 0) ∧ (s.dev.dspHolds = false) := by
  dsimp only
  decide +kernel

theorem witness_DispatchTakesInputs_6 :
    let s : State := wDspCan 4
    let t : Nat := 2000000
    let qid : Nat := 9
    let q : Queue := tDspQ 0xC000 tCanHead (tDspCan 4)
    let h : Item := tCanHead
    let items : List Item := tDspCan 4
    let us : List QUnit := []
    let byte (k : Nat) : Nat := itemBits (items.getD (1 + k / 7) 0) (8 * (k % 7)) 8
    let y : DRaw := { prod := q.qd.producer, kind := byte 0, fmt := 1, items := [byte 4 + byte 5 * 2 ^ 8 + byte 6 * 2 ^ 16 + byte 7 * 2 ^ 24, 0, 0, byte 1 + 2 ^ 32], err := itemErr h || decide (itemBits h 53 7 < 8) || byte 2 != 0 || byte 3 != 0 }
    (s.dev.qf.qs.find qid = some q) ∧ (q.qd.consumer = 0x6000) ∧ (q.reading = none) ∧ (q.units = .pkt h items :: us) ∧ (s.dev.dsp.early = []) ∧ (dspSource q.qd.producer = 1) ∧ ((begin_ t s.dev).dspCheck y ≠ 0) := by
  dsimp only
  decide +kernel

theorem witness_DispatchTakesInputs_7 :
    let s : State := wDspHeld
    let t : Nat := 1500000
    let items : List Item := []
    let link : Fin 4 := 0
    let codeErr : Bool := false
    let frame : List Byte := peerFrame pfDspMirror 4 tMirror
    let pay : List Byte := tMirror
    let z : DRaw := { prod := le pay 0 2, kind := byteAt pay 2, fmt := byteAt pay 3, items := (List.range 4).map (fun k => le pay (12 + 8 * k) 8) }
    (s.dev.Hears t link pfDspMirror codeErr frame pay) ∧ (s.dev.rd Reg.DSP_STATUS_RUNNING = 1) ∧ (s.dev.dspHolds = true) ∧ (s.dev.dsp.pend.length < 16) ∧ (s.dev.dsp.held.any (fun e => e.1 == z) = true) := by
  dsimp only
  exact ⟨by unfold Dev.Hears; decide +kernel, by decide +kernel, by decide +kernel, by decide +kernel, by decide +kernel⟩

theorem witness_DispatchWatchesAndResponds_1 :
    let s : State := wDspWdog
    let t : Nat := 2000000
    let src := s.dev.rd Reg.DSP_STATUS_SRC
    (s.dev.rd Reg.DSP_STATUS_RUNNING = 1) ∧ (s.dev.rd Reg.DSP_CTRL_WDOG ≠ 0) ∧ (src ≠ 3) ∧ (s.dev.rd Reg.DSP_STATUS_WDOG = 0) ∧ (s.dev.dsp.accAt.get src 0 + s.dev.rd Reg.DSP_CTRL_WDOG * 1000000 ≤ s.dev.ownAt t) := by
  dsimp only
  decide +kernel

theorem witness_DispatchWatchesAndResponds_2 :
    let s : State := wFreqOff
    let t : Nat := 2000000
    let f : Nat := 49970000
    let b : Nat := 7
    let r := s.dev.rl.dispRec
    (s.dev.dsp.freq = some (f, b)) ∧ (s.dev.rd Reg.DSP_STATUS_FFR_ACTIVE = 0) ∧ (s.dev.rd Reg.DSP_FFR_CTRL_EN = 1) ∧ (s.dev.rd Reg.DSP_STATUS_RUNNING = 1) ∧ (s.dev.mode ≠ .wrap) ∧ (s.dev.dsp.freqLost = false) ∧ ((ffrLin r f).1 ≠ 0) ∧ (r.dpDelay ≤ s.dev.dsp.off) ∧ (b + 8 * max 1 (s.dev.rd Reg.DSP_FFR_CTRL_F_TIMEOUT) < cycleOf (s.dev.nowAt t)) := by
  dsimp only
  decide +kernel

theorem witness_DispatchWatchesAndResponds_3 :
    let s : State := wFreqDead
    let f : Nat := 50000000
    let b : Nat := 7
    let r := s.dev.rl.dispRec
    (s.dev.dsp.freq = some (f, b)) ∧ (s.dev.rd Reg.DSP_STATUS_FFR_ACTIVE = 1) ∧ ((ffrLin r f).1 = 0) ∧ (r.dpDelay ≤ s.dev.dsp.dead) := by
  dsimp only
  decide +kernel

theorem witness_DispatchWatchesAndResponds_4 :
    let s : State := wGrace
    let str : Fin 256 := 7
    ((s.dev.dstr str).grace = some 0) := by
  dsimp only
  decide +kernel

theorem witness_FetchOutsideTcm_1 :
    let s : State := wIsa { tCore false with pc := 0x40000#32 } 0
    let tr : Fin 4 := 0
    let l : Fin 6 := 1
    let x := s.dev.unitLane tr l
    (s.dev.unitRuns tr l = true) ∧ (s.dev.unitWaits tr l = false) ∧ (0x40000 ≤ x.core.pc.toNat) ∧ (x.core.tvec ≠ 0#32) ∧ (x.core.inTrap = false) ∧ ((∀ k ∈ s.dev.members tr l, (s.dev.lane tr k).step = false ∧ (s.dev.lane tr k).skip = false)) := by
  dsimp only
  decide +kernel

theorem witness_FetchOutsideTcm_2 :
    let s : State := wIsa (tCore false) (wR 0x38 0 0 0 0x1A)
    let tr : Fin 4 := 0
    let l : Fin 6 := 1
    (s.dev.Stands tr l (wR 0x38 0 0 0 0x1A)) := by
  dsimp only
  exact by unfold Dev.Stands; decide +kernel

theorem witness_FieldInterfacesFollowTheirInputs_1 :
    let s : State := wCan 1
    let req : Nat := 2
    let id : Nat := 0x124
    let c : Fin 4 := 0
    let ch : Fin 16 := 0
    let dlc : Fin 16 := 1
    let ide : Bool := false
    let fdf : Bool := false
    let data : List Byte := [1#8]
    let fr : Nat × Nat × List Byte := (0x123, 0, [1#8])
    let x : Rec := { sec := 0, typ := 0, idx := 0, b := [] }
    let st := s.dev.rd Reg.FLD_CAN_STAT_STATE c
    ((s.dev.canCtl c).frame = some fr) ∧ (s.dev.plant = true) ∧ ((s.dev.rl.can c).isSome = true) ∧ (st < 3) ∧ (data.length = (if fdf then canLen dlc else min 8 dlc.val)) ∧ ((s.dev.recs secCall 3).find? (fun x => x.u8 8 == c.val && (id &&& x.u32 16) == (x.u32 12 &&& x.u32 16) && ide == bitAt (x.u8 9) 2) = none) ∧ (st = 1 ∨ st = 2) ∧ (st = 1) ∧ (s.dev.Takes req) ∧ (s.dev.gpioRec ch = none) := by
  dsimp only
  exact ⟨by decide +kernel, by decide +kernel, by decide +kernel, by decide +kernel, by decide +kernel, by decide +kernel, by decide +kernel, by decide +kernel, by unfold Dev.Takes; decide +kernel, by decide +kernel⟩

theorem witness_FieldInterfacesFollowTheirInputs_2 :
    let s : State := wCan 2
    let id : Nat := 0x123
    let c : Fin 4 := 0
    let dlc : Fin 16 := 1
    let ide : Bool := false
    let fdf : Bool := false
    let data : List Byte := [1#8]
    let x : Rec := tFilter
    let st := s.dev.rd Reg.FLD_CAN_STAT_STATE c
    (s.dev.plant = true) ∧ ((s.dev.rl.can c).isSome = true) ∧ (st < 3) ∧ (data.length = (if fdf then canLen dlc else min 8 dlc.val)) ∧ ((s.dev.recs secCall 3).find? (fun x => x.u8 8 == c.val && (id &&& x.u32 16) == (x.u32 12 &&& x.u32 16) && ide == bitAt (x.u8 9) 2) = some x) := by
  dsimp only
  decide +kernel

theorem witness_FieldInterfacesFollowTheirInputs_3 :
    let s : State := wCan 3
    let c : Fin 4 := 0
    let st := s.dev.rd Reg.FLD_CAN_STAT_STATE c
    (3 ≤ st) := by
  dsimp only
  decide +kernel

theorem witness_FieldInterfacesFollowTheirInputs_4 :
    let s : State := wPio
    let q : Fin 8 := 2
    let a : Bool := true
    let b : Bool := false
    let qd := s.dev.qdec q
    (s.dev.plant = true) ∧ ((s.dev.qdRec q).u8 9 = 1) ∧ ((a != qd.a) != (b != qd.b)) := by
  dsimp only
  decide +kernel

theorem witness_FieldInterfacesFollowTheirInputs_5 :
    let s : State := wPio
    let q : Fin 8 := 2
    let a : Bool := true
    let b : Bool := true
    let qd := s.dev.qdec q
    (s.dev.plant = true) ∧ ((s.dev.qdRec q).u8 9 = 1) ∧ (a ≠ qd.a) ∧ (b ≠ qd.b) := by
  dsimp only
  decide +kernel

theorem witness_FieldInterfacesFollowTheirInputs_6 :
    let s : State := wPio
    let t : Nat := 2000000
    let ch : Fin 16 := 3
    let r : Rec := tPwmR
    (s.dev.plant = true) ∧ (s.dev.pwmRec ch = some r) ∧ (pwmPeriod (r.u32 12) ≠ 0) ∧ (s.dev.nowAt t % (4 * pwmPeriod (r.u32 12)) = 0) ∧ (s.dev.rd Reg.FLD_PWM_STAT_BOUND ch = 0) := by
  dsimp only
  decide +kernel

theorem witness_FieldInterfacesFollowTheirInputs_7 :
    let s : State := wPio
    let q : Fin 8 := 1
    let level : Bool := true
    let x : Rec := tInR
    let act := level != (x.u8 9 == 1)
    (s.dev.plant = true) ∧ (s.dev.inputRec q = some x) ∧ (bitAt (s.dev.rd Reg.FLD_SAFE_IN_ACTIVE) q ≠ act) := by
  dsimp only
  decide +kernel

theorem witness_GafferGrantsSensesAndThrottles_1 :
    let s : State := wGaf { reportAt := [(5, 900000)] } [(Reg.GAF_CLIENT_GRANT_GRANT, 5, 0, 40), (Reg.GAF_CLIENT_RATE_FLOOR, 5, 0, 7), (Reg.GAF_CLIENT_RATE_FULL, 5, 0, 60)]
    let t : Nat := 3000000
    let req : Nat := 2
    let a : Nat := 900000
    let c : Fin 140 := 5
    let g := s.dev.gaf
    (g.reportAt.find c = some a) ∧ (a + 1000000 ≤ s.dev.ownAt t) ∧ (s.dev.rd Reg.GAF_CLIENT_CTRL_RECLAIMED c = 0) ∧ (s.dev.Takes req) ∧ (s.dev.mainOn = true) := by
  dsimp only
  exact ⟨by decide +kernel, by decide +kernel, by decide +kernel, by unfold Dev.Takes; decide +kernel, by decide +kernel⟩

theorem witness_GafferGrantsSensesAndThrottles_2 :
    let s : State := wGaf {} []
    let req : Nat := 1
    let c : Fin 140 := 130
    let cap : Word := 9
    (s.dev.reqOk req = true) ∧ (s.dev.reqProt req = false) ∧ (s.dev.clientProt c = true) ∧ (cap.toNat % 65536 < s.dev.rd Reg.GAF_CLIENT_RATE_FLOOR c) := by
  dsimp only
  decide +kernel

theorem witness_GafferGrantsSensesAndThrottles_3 :
    let s : State := wGaf {} []
    let temps : List Int := (List.replicate 32 (9000 : Int))
    (temps.length = 32) ∧ (s.dev.mainOn = true) := by
  dsimp only
  decide +kernel

theorem witness_GafferGrantsSensesAndThrottles_4 :
    let s : State := wHot
    let k : Fin 32 := 0
    let g := s.dev.gaf
    (s.dev.mainOn = true) ∧ (s.dev.mode ≠ .halt) ∧ (k.val ∈ s.dev.hwHot) ∧ (g.hwAt = none) ∧ (g.immediate = none) := by
  dsimp only
  exact ⟨by decide +kernel, by decide +kernel, hot_hot, by decide +kernel, by decide +kernel⟩

theorem witness_GafferGrantsSensesAndThrottles_5 :
    let s : State := wGaf { hwAt := some 900000 } []
    let t : Nat := 3000000
    let a : Nat := 900000
    let g := s.dev.gaf
    (s.dev.mainOn = true) ∧ (s.dev.mode ≠ .halt) ∧ (g.hwAt = some a) ∧ (a + 1000000 ≤ s.dev.ownAt t) := by
  dsimp only
  decide +kernel

theorem witness_GafferGrantsSensesAndThrottles_6 :
    let s : State := wGaf {} [(Reg.GAF_SENS_EXCL, 4, 0, 1)]
    let req : Nat := 2
    let k : Fin 32 := 4
    (s.dev.Takes req) ∧ (s.dev.rd Reg.GAF_SENS_EXCL k = 1) := by
  dsimp only
  exact ⟨by unfold Dev.Takes; decide +kernel, by decide +kernel⟩

theorem witness_GafferGrantsSensesAndThrottles_7 :
    let s : State := wGaf { graceAt := some 900000, warn := [1] } []
    let t : Nat := 3000000
    let a : Nat := 900000
    let g := s.dev.gaf
    (g.graceAt = some a) ∧ (a ≤ s.dev.ownAt t) := by
  dsimp only
  decide +kernel

theorem witness_GafferGrantsSensesAndThrottles_8 :
    let s : State := wGaf { stepAt := 900000, warn := [1] } [(Reg.GAF_STATUS_THR_ENF, 0, 0, 1)]
    let t : Nat := 3000000000
    let g := s.dev.gaf
    (s.dev.rd Reg.GAF_STATUS_THR_ENF = 1) ∧ (g.warn ≠ []) ∧ (g.stepAt + 1000000000 ≤ s.dev.ownAt t) := by
  dsimp only
  decide +kernel

theorem witness_GafferGrantsSensesAndThrottles_9 :
    let s : State := wGaf { calmAt := some 900000 } [(Reg.GAF_STATUS_THR_ENF, 0, 0, 1)]
    let t : Nat := 30000000000
    let a : Nat := 900000
    let g := s.dev.gaf
    (s.dev.rd Reg.GAF_STATUS_THR_ENF = 1) ∧ (g.warn = []) ∧ (g.calmAt = some a) ∧ (a + 10000000000 ≤ s.dev.ownAt t) := by
  dsimp only
  decide +kernel

theorem witness_GafferGrantsSensesAndThrottles_10 :
    let s : State := wHeat .wrap 3000 0xFFFF true
    let first : Nat := 0
    let count : Nat := 1
    let pool : Nat := 800
    let box : Fin 64 := 3
    (s.dev.containers.find? (fun y => y.1 == box.val) = some (box.val, first, count, pool)) ∧ (pool < 65536) ∧ (s.dev.mode = .wrap ∨ s.dev.containerTemp first count = none) := by
  dsimp only
  decide +kernel

theorem witness_GafferGrantsSensesAndThrottles_11 :
    let s : State := wHeat .run 3000 0xFFFF true
    let first : Nat := 0
    let count : Nat := 1
    let pool : Nat := 800
    let box : Fin 64 := 3
    let x : Int := 3000
    let t0 := s.dev.rdI Reg.GAF_HEAT_CFG_HEAT_T0
    (s.dev.containers.find? (fun y => y.1 == box.val) = some (box.val, first, count, pool)) ∧ (pool < 65536) ∧ (s.dev.mode ≠ .wrap) ∧ (s.dev.rd Reg.GAF_HEAT_CAP_CAP box = 0xFFFF) ∧ (s.dev.containerTemp first count = some x) ∧ (x ≤ t0) := by
  dsimp only
  decide +kernel

theorem witness_GafferGrantsSensesAndThrottles_12 :
    let s : State := wHeat .run 6000 0xFFFF true
    let first : Nat := 0
    let count : Nat := 1
    let pool : Nat := 800
    let box : Fin 64 := 3
    let x : Int := 6000
    let t0 := s.dev.rdI Reg.GAF_HEAT_CFG_HEAT_T0
    let t1 := s.dev.rdI Reg.GAF_HEAT_CFG_HEAT_T1
    (s.dev.containers.find? (fun y => y.1 == box.val) = some (box.val, first, count, pool)) ∧ (pool < 65536) ∧ (s.dev.mode ≠ .wrap) ∧ (s.dev.rd Reg.GAF_HEAT_CAP_CAP box = 0xFFFF) ∧ (s.dev.containerTemp first count = some x) ∧ (t0 < x) ∧ (t1 ≤ x) := by
  dsimp only
  decide +kernel

theorem witness_GafferGrantsSensesAndThrottles_13 :
    let s : State := wHeat .run 4321 0xFFFF true
    let first : Nat := 0
    let count : Nat := 1
    let pool : Nat := 800
    let box : Fin 64 := 3
    let x : Int := 4321
    let t0 := s.dev.rdI Reg.GAF_HEAT_CFG_HEAT_T0
    let t1 := s.dev.rdI Reg.GAF_HEAT_CFG_HEAT_T1
    (s.dev.containers.find? (fun y => y.1 == box.val) = some (box.val, first, count, pool)) ∧ (pool < 65536) ∧ (s.dev.mode ≠ .wrap) ∧ (s.dev.rd Reg.GAF_HEAT_CAP_CAP box = 0xFFFF) ∧ (s.dev.containerTemp first count = some x) ∧ (t0 < x) ∧ (x < t1) := by
  dsimp only
  decide +kernel

theorem witness_GafferGrantsSensesAndThrottles_14 :
    let s : State := wHeat .run 3000 300 true
    let v : Nat := 300
    let first : Nat := 0
    let count : Nat := 1
    let pool : Nat := 800
    let box : Fin 64 := 3
    let x : Int := 3000
    let t0 := s.dev.rdI Reg.GAF_HEAT_CFG_HEAT_T0
    (s.dev.containers.find? (fun y => y.1 == box.val) = some (box.val, first, count, pool)) ∧ (pool < 65536) ∧ (s.dev.mode ≠ .wrap) ∧ (s.dev.rd Reg.GAF_HEAT_CAP_CAP box = v) ∧ (v < pool) ∧ (s.dev.containerTemp first count = some x) ∧ (x ≤ t0) := by
  dsimp only
  decide +kernel

theorem witness_ImagesAreReceived_1 :
    let s : State := wRx1
    let req : Nat := 2
    let x : RxSession := tRxOpen
    let blk := (List.range 1024).flatMap (fun j => toLe (s.dev.rd Reg.IMG_RX_BLOCK_WORD j) 4)
    (s.dev.mode = .dark ∨ s.dev.mode = .quiet ∨ s.dev.mode = .run) ∧ (s.dev.Takes req) ∧ (s.dev.NextBlock x blk) := by
  dsimp only
  simp only [Dev.Takes, Dev.NextBlock, blkCrcOk, crc_eq]
  decide +kernel

theorem witness_ImagesAreReceived_2 :
    let s : State := wRx1
    let t : Nat := 2000000
    let link : Fin 4 := 0
    let codeErr : Bool := false
    let frame : List Byte := tSplice
    let pay : List Byte := toLe 0 2 ++ tBlk
    let x : RxSession := tRxOpen
    (s.dev.mode = .dark ∨ s.dev.mode = .quiet ∨ s.dev.mode = .run) ∧ (s.dev.Hears t link pfSplice codeErr frame pay) ∧ (s.dev.mode = .dark ∨ s.dev.rl.splice.u8 8 = link) ∧ (s.dev.NextBlock x (pay.drop 2)) := by
  dsimp only
  simp only [Dev.Hears, Dev.peerRx, Dev.NextBlock, blkCrcOk, crc_eq]
  decide +kernel

theorem witness_ImagesAreReceived_3 :
    let s : State := wRx1
    let t : Nat := 120000000000
    let req : Nat := 2
    let v : Word := 2
    let x : RxSession := tRxOpen
    (s.dev.img.rx = some x) ∧ (x.at_ + max 1 (s.dev.rd Reg.IMG_RX_CTRL_TIMEOUT) * oneSec ≤ s.dev.ownAt t) ∧ (s.dev.Takes req) ∧ (v &&& 5#32 = 0#32) := by
  dsimp only
  exact ⟨by decide +kernel, by decide +kernel, by unfold Dev.Takes; decide +kernel, by decide +kernel⟩

theorem witness_ImagesAreReceived_4 :
    let s : State := wSlotWrite
    let k : Nat := 1
    let bs : List (List Byte) := [tBlk]
    (s.dev.img.slotWrite = some (k, bs)) ∧ (k < 2) := by
  dsimp only
  exact ⟨rfl, by decide⟩

theorem witness_KeysAndCommit_1 :
    let s : State := wKey
    let req : Nat := 2
    let w := s.dev.keyReqBytes
    (s.dev.mode = .dark ∨ s.dev.mode = .quiet ∨ s.dev.mode = .run) ∧ (s.dev.Takes req) ∧ (s.dev.img.keyReq = none) ∧ (s.dev.keyCheck w = 0) := by
  dsimp only
  exact ⟨by decide +kernel, by unfold Dev.Takes; decide +kernel, by decide +kernel, by decide +kernel⟩

theorem witness_KeysAndCommit_2 :
    let s : State := wFuse1
    let q : KeyReq := { op := 1, slot := 2, hash := [7, 8] }
    (s.dev.img.keyReq = some q) ∧ (q.slot < 4) ∧ (q.op = 1) ∧ ((s.dev.img.otp.keys.get q.slot {}).valid = false) := by
  dsimp only
  decide +kernel

theorem witness_KeysAndCommit_3 :
    let s : State := wFuse2
    let q : KeyReq := { op := 2, slot := 3, hash := [] }
    (s.dev.img.keyReq = some q) ∧ (q.slot < 4) ∧ (q.op = 2) := by
  dsimp only
  decide +kernel

theorem witness_KeysAndCommit_4 :
    let s : State := wTrial
    let req : Nat := 2
    let v : Word := 1
    (s.dev.mode = .run) ∧ (s.dev.Takes req) ∧ (v &&& 6#32 = 0#32) := by
  dsimp only
  exact ⟨by decide +kernel, by unfold Dev.Takes; decide +kernel, by decide +kernel⟩

theorem witness_KeysAndCommit_5 :
    let s : State := wCommit
    let c : Nat := 4
    (s.dev.img.commit = some c) := by
  dsimp only
  decide +kernel

theorem witness_LanesStartRejoinAndRestart_1 :
    let s : State := wVote 1 1 2 {} []
    let req : Nat := 2
    let tr : Fin 4 := 1
    let lane : Fin 4 := 3
    (s.dev.Takes req) ∧ (s.dev.tmode tr = 1) ∧ ((s.dev.tri tr).readmit = none) ∧ ((s.dev.tri tr).phase = .idle) ∧ (s.dev.rd Reg.TRD_STATUS_HALTED tr = 0) ∧ ((s.dev.voters tr).length = 2) ∧ (1 ≤ lane.val) ∧ (s.dev.lst tr lane = 2) := by
  dsimp only
  exact ⟨by unfold Dev.Takes; decide +kernel, by decide +kernel, by decide +kernel, by decide +kernel, by decide +kernel, by decide +kernel, by decide +kernel, by decide +kernel⟩

theorem witness_LanesStartRejoinAndRestart_2 :
    let s : State := wVote 1 1 2 { phase := .readmit, testing := [3] } []
    let req : Nat := 2
    let tr : Fin 4 := 1
    let k : Nat := 3
    (s.dev.Takes req) ∧ (1 ≤ k) ∧ (k ≤ 3) ∧ ((s.dev.tri tr).phase = .readmit) ∧ ((s.dev.tri tr).testing = [k]) := by
  dsimp only
  exact ⟨by unfold Dev.Takes; decide +kernel, by decide +kernel, by decide +kernel, by decide +kernel, by decide +kernel⟩

theorem witness_LanesStartRejoinAndRestart_3 :
    let s : State := wVote 1 1 3 { readmit := some 3 } []
    let req : Nat := 2
    let tr : Fin 4 := 1
    let k : Nat := 3
    (s.dev.Takes req) ∧ (1 ≤ k) ∧ (k ≤ 3) ∧ ((s.dev.tri tr).readmit = some k) ∧ (s.dev.lst tr k = 3) := by
  dsimp only
  exact ⟨by unfold Dev.Takes; decide +kernel, by decide +kernel, by decide +kernel, by decide +kernel, by decide +kernel⟩

theorem witness_LanesStartRejoinAndRestart_4 :
    let s : State := wVote 4 4 2 {} [(Reg.TRD_STATUS_HALTED, 1, 0, 1)]
    let req : Nat := 2
    let tr : Fin 4 := 1
    (s.dev.Takes req) ∧ (s.dev.triadsRun = true) ∧ (s.dev.tmode tr = 1) ∧ (s.dev.rd Reg.TRD_STATUS_HALTED tr = 1) ∧ ((s.dev.tri tr).phase = .idle) := by
  dsimp only
  exact ⟨by unfold Dev.Takes; decide +kernel, by decide +kernel, by decide +kernel, by decide +kernel, by decide +kernel⟩

theorem witness_LanesStartRejoinAndRestart_5 :
    let s : State := wVote 3 3 3 { phase := .start, testing := [3], passed := [1, 2] } []
    let req : Nat := 2
    let tr : Fin 4 := 1
    (s.dev.Takes req) ∧ (s.dev.tmode tr = 1) ∧ ((s.dev.tri tr).phase = .start) ∧ ((s.dev.tri tr).testing = [3]) ∧ ((s.dev.tri tr).passed = [1, 2]) ∧ (s.dev.lst tr 1 = 3) ∧ (s.dev.lst tr 2 = 3) ∧ (s.dev.lst tr 3 = 3) := by
  dsimp only
  exact ⟨by unfold Dev.Takes; decide +kernel, by decide +kernel, by decide +kernel, by decide +kernel, by decide +kernel, by decide +kernel, by decide +kernel, by decide +kernel⟩

theorem witness_LeasesRolesAndTakeover_1 :
    let s : State := wLease
    let t : Nat := 1000000
    let link : Fin 4 := 0
    let ring : Fin 64 := 0
    let codeErr : Bool := false
    let frame : List Byte := peerFrame pfPresence 5 (tPresence 9 5 950000)
    let pay : List Byte := tPresence 9 5 950000
    (s.dev.mainOn = true) ∧ (s.dev.Hears t link pfPresence codeErr frame pay) ∧ (link.val < 2) ∧ (s.dev.solo = false) ∧ (s.dev.reel.isSome = true) ∧ (s.dev.rd Reg.SIN_STATUS_PAIR_ERR = 0) ∧ (3 ≤ byteAt pay 2) ∧ (byteAt pay 2 ≤ 5) ∧ (le pay 4 4 ≠ s.dev.rl.pairId) ∧ (s.dev.rd Reg.SIN_STATUS_PARTNER_OK = 1) ∧ ((∀ k ∈ s.dev.pairLinks, ∀ b, s.dev.sin.presAt.find k = some b → b + 32000 < s.dev.ownAt t)) ∧ (s.dev.role = roleStandIn) ∧ (s.dev.live = true) ∧ (s.dev.rl.present ring = true) ∧ ((s.dev.lr ring).orig = false) := by
  dsimp only
  exact ⟨by decide +kernel, by unfold Dev.Hears; decide +kernel, by decide +kernel, by decide +kernel, by decide +kernel, by decide +kernel, by decide +kernel, by decide +kernel, by decide +kernel, by decide +kernel, all_mem_some (by decide +kernel), by decide +kernel, by decide +kernel, by decide +kernel, by decide +kernel⟩

theorem witness_LeasesRolesAndTakeover_2 :
    let s : State := wLease
    let t : Nat := 1000000
    let link : Fin 4 := 0
    let ring : Fin 64 := 0
    let delay : Nat := 0
    let l : Nat := 900000
    let path : Nat := 0
    let codeErr : Bool := false
    let frame : List Byte := peerFrame pfPresence 5 (tPresence 7 5 950000)
    let pay : List Byte := tPresence 7 5 950000
    let now := s.dev.nowAt t
    (s.dev.Hears t link pfPresence codeErr frame pay) ∧ (link.val < 2) ∧ (s.dev.solo = false) ∧ (s.dev.reel.isSome = true) ∧ (s.dev.rd Reg.SIN_STATUS_PAIR_ERR = 0) ∧ (3 ≤ byteAt pay 2) ∧ (byteAt pay 2 ≤ 5) ∧ (le pay 4 4 = s.dev.rl.pairId) ∧ (byteAt pay 8 = s.dev.rl.config) ∧ (byteAt pay 0 % 2 ≠ s.dev.devAddr % 2) ∧ (byteAt pay 1 % 4 = roleActive) ∧ (s.dev.role = roleStandIn) ∧ (s.dev.rd Reg.SIN_EPOCH_PARTNER_EPOCH ≤ le pay 12 4) ∧ (s.dev.sin.lease = some (l, path)) ∧ (l < min (tsExtend now (le pay 16 4)) now) ∧ (s.dev.rl.present ring = true) ∧ ((s.dev.lr ring).orig = false) ∧ (l < now - delay) ∧ (s.dev.live = true) ∧ (l + 32000 ≤ now) ∧ (s.dev.nextEpoch ≤ 0xFFFFFFFE) := by
  dsimp only
  exact ⟨by unfold Dev.Hears; decide +kernel, by decide +kernel, by decide +kernel, by decide +kernel, by decide +kernel, by decide +kernel, by decide +kernel, by decide +kernel, by decide +kernel, by decide +kernel, by decide +kernel, by decide +kernel, by decide +kernel, by decide +kernel, by decide +kernel, by decide +kernel, by decide +kernel, by decide +kernel, by decide +kernel, by decide +kernel, by decide +kernel⟩

theorem witness_LeasesRolesAndTakeover_3 :
    let s : State := wSin .run 3 {} []
    let t : Nat := 3000000
    (s.dev.mode = .run) ∧ (s.dev.solo = false) ∧ (s.dev.role = roleContending) ∧ (s.dev.nextEpoch ≤ 0xFFFFFFFE) ∧ ((s.dev.isP = true ∧ s.dev.sin.runAt + 1000000 ≤ s.dev.ownAt t) ∨ (s.dev.isP = false ∧ s.dev.sin.runAt + 10000000 ≤ s.dev.ownAt t ∧ s.dev.sin.heardP = false ∧ s.dev.rd Reg.SIN_STATUS_PAIR_ERR = 0)) := by
  dsimp only
  decide +kernel

theorem witness_LeasesRolesAndTakeover_4 :
    let s : State := wSin .run 1 { actAt := some 900000 } []
    let t : Nat := 1000000
    let a : Nat := 900000
    let now := s.dev.nowAt t
    (s.dev.sin.actAt = some a) ∧ (s.dev.role = roleActive) ∧ (a ≤ now) := by
  dsimp only
  decide +kernel

theorem witness_LeasesRolesAndTakeover_5 :
    let s : State := wSin .run 1 { gates := true } []
    let t : Nat := 1000000
    let link : Fin 4 := 1
    let codeErr : Bool := false
    let frame : List Byte := peerFrame pfTakeover 5 (toLe 0 4 ++ toLe 9 4 ++ toLe 0 4)
    let pay : List Byte := toLe 0 4 ++ toLe 9 4 ++ toLe 0 4
    (s.dev.Hears t link pfTakeover codeErr frame pay) ∧ (s.dev.role = roleActive) ∧ (s.dev.rd Reg.SIN_EPOCH_EPOCH < le pay 4 4) := by
  dsimp only
  exact ⟨by unfold Dev.Hears; decide +kernel, by decide +kernel, by decide +kernel⟩

theorem witness_LocksAreReclaimed_1 :
    let s : State := wQ9 (tPushQ (some tOpenP))
    let t : Nat := 2000000000000
    let qid : Nat := 9
    let r : Nat := 2
    let q : Queue := tPushQ (some tOpenP)
    let items : List Item := [tItem]
    let past (a : Nat) : Prop := a + s.dev.rd Reg.QF_LOCK_TIMEOUT_TIMEOUT * 1000 ≤ s.dev.ownAt t
    (s.dev.qf.qs.find qid = some q) ∧ (s.dev.NoEvents qid) ∧ (q.openp = some { req := r, items := items, discard := false, gone := false }) ∧ (past (s.dev.qf.prodAt.get qid 0)) ∧ ((∀ w, s.dev.qf.lanes.find r = some w → w.qid ≠ qid)) := by
  dsimp only
  exact ⟨by decide +kernel, noEvents_of _ _ (by decide +kernel), by decide +kernel, by decide +kernel, all_some (by decide +kernel)⟩

theorem witness_LocksAreReclaimed_2 :
    let s : State := wQ9 (tPopQ [.one 1] (some { req := 2, rest := [5] }))
    let t : Nat := 2000000000000
    let qid : Nat := 9
    let r : Nat := 2
    let q : Queue := tPopQ [.one 1] (some { req := 2, rest := [5] })
    let rest : List Item := [5]
    let past (a : Nat) : Prop := a + s.dev.rd Reg.QF_LOCK_TIMEOUT_TIMEOUT * 1000 ≤ s.dev.ownAt t
    (s.dev.qf.qs.find qid = some q) ∧ (s.dev.NoEvents qid) ∧ (q.reading = some { req := r, rest := rest }) ∧ (past (s.dev.qf.consAt.get qid 0)) := by
  dsimp only
  exact ⟨by decide +kernel, noEvents_of _ _ (by decide +kernel), by decide +kernel, by decide +kernel⟩

theorem witness_LoopsReadHoldAndFallBack_1 :
    let s : State := wLpe 0
    let req : Nat := 2
    let qid : Nat := 9
    let c : Fin 512 := 5
    let q : Queue := tLpeQ tSignal
    let it : Item := tSignal
    let us : List QUnit := []
    let l := s.dev.rl.loop1 c
    (s.dev.qf.qs.find qid = some q) ∧ (q.qd.consumer = 0x5000 + c) ∧ (q.reading = none) ∧ (q.units = .one it :: us) ∧ (s.dev.lpeKind qid = .signal) ∧ (itemErr it = false) ∧ ((s.dev.lctx c).last = none) ∧ (s.dev.rd Reg.LPE_CTX_STAT_STATE c = lpRun) ∧ (l.lpSatTicks ≠ 0) ∧ (l.lpSatTicks ≤ s.dev.rd Reg.LPE_CTX_SATT_T_SAT c) ∧ ((s.dev.lctx c).expired = false) ∧ (s.dev.Takes req) ∧ (s.dev.rd Reg.LPE_CTX_CFG1_BUILT c = 1) := by
  dsimp only
  exact ⟨by decide +kernel, by decide +kernel, by decide +kernel, by decide +kernel, by decide +kernel, by decide +kernel, by decide +kernel, by decide +kernel, by decide +kernel, by decide +kernel, by decide +kernel, by unfold Dev.Takes; decide +kernel, by decide +kernel⟩

theorem witness_LoopsReadHoldAndFallBack_2 :
    let s : State := wLpeBad
    let qid : Nat := 9
    let c : Fin 512 := 5
    let q : Queue := tLpeQ (tSignal ||| 0x1000000000000000#64)
    let it : Item := tSignal ||| 0x1000000000000000#64
    let us : List QUnit := []
    (s.dev.qf.qs.find qid = some q) ∧ (q.qd.consumer = 0x5000 + c) ∧ (q.reading = none) ∧ (q.units = .one it :: us) ∧ (s.dev.lpeKind qid = .signal) ∧ (itemErr it = true) := by
  dsimp only
  decide +kernel

theorem witness_LoopsReadHoldAndFallBack_3 :
    let s : State := wLpeOld
    let c : Fin 512 := 5
    let l := s.dev.rl.loop1 c
    (s.dev.rd Reg.LPE_CTX_STAT_STATE c = lpRun ∨ s.dev.rd Reg.LPE_CTX_STAT_STATE c = lpHold) ∧ ((∃ j, j < l.lpNy ∧ s.dev.rl.lossTicks c ≤ s.dev.rd Reg.LPE_AGE_AGE c j)) := by
  dsimp only
  decide +kernel

theorem witness_LoopsReadHoldAndFallBack_4 :
    let s : State := wLpeWait
    let c : Fin 512 := 5
    (s.dev.live = true) ∧ (s.dev.blocked (0x5000 + c) = true) := by
  dsimp only
  decide +kernel

theorem witness_NetworkPortsTakeAndSend_1 :
    let s : State := wNet
    let p : Fin 4 := 0
    let c : PortCfg := tPortCfg
    let a : PortCfg := tPortCfg
    let frame : List Byte := tFrameLong
    let up : Bool := false
    let link := s.dev.rd Reg.NET_PORT_STAT_LINK p
    (s.dev.portCfg p = some c) ∧ (s.dev.addrCfg p = some a) ∧ (link = 1) ∧ (s.dev.rd Reg.NET_PORT_STAT_CLOSED p = 0) ∧ (14 ≤ frame.length) ∧ (1518 < frame.length) ∧ (link ≠ b2n up) := by
  dsimp only
  decide +kernel

theorem witness_NetworkPortsTakeAndSend_2 :
    let s : State := wNet
    let p : Fin 4 := 0
    let c : PortCfg := tPortCfg
    let a : PortCfg := tPortCfg
    let frame : List Byte := tFramePause
    let link := s.dev.rd Reg.NET_PORT_STAT_LINK p
    (s.dev.portCfg p = some c) ∧ (s.dev.addrCfg p = some a) ∧ (link = 1) ∧ (s.dev.rd Reg.NET_PORT_STAT_CLOSED p = 0) ∧ (14 ≤ frame.length) ∧ (frame.length ≤ 1518) ∧ (be frame 12 2 = 0x8808) ∧ (be frame 14 2 = 1) := by
  dsimp only
  decide +kernel

theorem witness_NetworkPortsTakeAndSend_3 :
    let s : State := wNet
    let p : Fin 4 := 0
    let c : PortCfg := tPortCfg
    let a : PortCfg := tPortCfg
    let frame : List Byte := tFrameVlan
    let link := s.dev.rd Reg.NET_PORT_STAT_LINK p
    (s.dev.portCfg p = some c) ∧ (s.dev.addrCfg p = some a) ∧ (link = 1) ∧ (s.dev.rd Reg.NET_PORT_STAT_CLOSED p = 0) ∧ (14 ≤ frame.length) ∧ (frame.length ≤ 1518) ∧ (c.key = 0xFF) ∧ (c.vlan = 0) ∧ (be frame 12 2 = 0x8100) ∧ (be frame 14 2 % 4096 ≠ 0) := by
  dsimp only
  decide +kernel

theorem witness_NetworkPortsTakeAndSend_4 :
    let s : State := wNet
    let p : Fin 4 := 0
    let c : PortCfg := tPortCfg
    let a : PortCfg := tPortCfg
    let frame : List Byte := tFrameCwp
    let src : List Byte := [192#8, 168, 0, 1]
    let dip : List Byte := [192#8, 168, 0, 2]
    let pay : List Byte := tReq1 5
    let sport : Nat := 5000
    let link := s.dev.rd Reg.NET_PORT_STAT_LINK p
    let body := frame.drop 14
    (s.dev.portCfg p = some c) ∧ (s.dev.addrCfg p = some a) ∧ (link = 1) ∧ (s.dev.rd Reg.NET_PORT_STAT_CLOSED p = 0) ∧ (14 ≤ frame.length) ∧ (frame.length ≤ 1518) ∧ (c.key = 0xFF) ∧ (c.vlan = 0) ∧ (c.prp = false) ∧ (be frame 12 2 ≠ 0x8808) ∧ (be frame 12 2 ≠ 0x8100) ∧ (frame.take 6 = c.mac) ∧ (readFrame (be frame 12 2) body = .udp src dip sport 47620 pay) ∧ (c.owns dip = true) ∧ ((s.dev.host.waiting.get p []).length < 16) := by
  dsimp only
  decide +kernel

theorem witness_NetworkPortsTakeAndSend_5 :
    let s : State := wPrp
    let t : Nat := 2000000000000
    let p : Fin 4 := 0
    let pair : Fin 2 := 0
    let c : PortCfg := tPrpCfg
    let np := s.dev.np p
    let link := s.dev.rd Reg.NET_PORT_STAT_LINK p
    (s.dev.portCfg p = some c) ∧ (c.prp = true) ∧ (link = 1) ∧ (np.lastRx + max 1 (s.dev.rd Reg.NET_CTRL_PRP_SILENT) * 1000000 ≤ s.dev.ownAt t) ∧ (np.lastRx < (s.dev.np (mate p)).lastRx) ∧ (s.dev.portCfg (2 * pair) = some c) ∧ ((∀ b, (s.dev.pair pair).supAt = some b → b + 2000000000 ≤ s.dev.ownAt t)) := by
  dsimp only
  exact ⟨by decide +kernel, by decide +kernel, by decide +kernel, by decide +kernel, by decide +kernel, by decide +kernel, all_some (by decide +kernel)⟩

theorem witness_NetworkPortsTakeAndSend_6 :
    let s : State := wMacSwitch
    let t : Nat := 2000000
    let a_ : Nat := 900000
    let p : Fin 4 := 0
    let sa : MacSa := tMacSa
    let np := s.dev.np p
    (np.switchAt = some a_) ∧ (np.rx.getLast? = some sa) ∧ (a_ ≤ s.dev.ownAt t) ∧ (np.removeAt = some a_) := by
  dsimp only
  decide +kernel

theorem witness_NetworkPortsTakeAndSend_7 :
    let s : State := wEgress 0
    let t : Nat := 2000000
    let qid : Nat := 9
    let p : Fin 4 := 0
    let bind : Fin 32 := 2
    let q : Queue := tEgQ
    let u : QUnit := .one tItem
    let us : List QUnit := [.one 6]
    (s.dev.qf.qs.find qid = some q) ∧ (q.qd.consumer = 0xB000 + p) ∧ ((s.dev.portCfg p).isSome = true) ∧ ((s.dev.portsOf p).any (fun r => s.dev.portUp r) = true) ∧ (q.reading = none) ∧ (q.units = u :: us) ∧ ((begin_ t s.dev).pausedFor p q.qd.cls = false) ∧ ((begin_ t s.dev).higherWaits p (classRank q.qd.cls) = false) ∧ (s.dev.bindingOf qid = none) ∧ ((s.dev.egress bind).items ≠ []) ∧ ((s.dev.egress bind).at_ + max 1 (s.dev.rd Reg.NET_EGQ_FLUSH_FLUSH bind) * 1000 ≤ s.dev.ownAt t) := by
  dsimp only
  decide +kernel

theorem witness_NetworkPortsTakeAndSend_8 :
    let s : State := wEgress 1
    let t : Nat := 2000000
    let qid : Nat := 9
    let n : Nat := 2
    let p : Fin 4 := 0
    let q : Queue := tEgQ
    let u : QUnit := .one tItem
    let us : List QUnit := [.one 6]
    (s.dev.qf.qs.find qid = some q) ∧ (q.qd.consumer = 0xB000 + p) ∧ ((s.dev.portCfg p).isSome = true) ∧ ((s.dev.portsOf p).any (fun r => s.dev.portUp r) = true) ∧ (q.reading = none) ∧ (q.units = u :: us) ∧ ((begin_ t s.dev).pausedFor p q.qd.cls = false) ∧ ((begin_ t s.dev).higherWaits p (classRank q.qd.cls) = false) ∧ (s.dev.bindingOf qid = some n) ∧ (s.dev.rd Reg.NET_EGQ_KIND n = 0) ∧ (u.size ≤ 176) ∧ ((s.dev.egress n).items.length + u.size ≤ 176) := by
  dsimp only
  decide +kernel

theorem witness_NodeFramesAreAcceptedOnce_1 :
    let s : State := wTake
    let cyc : Nat := 7
    let pos : Nat := tPos
    let addr : Nat := 1
    let nt : Nat := 1
    let port : Fin 128 := 0
    let ring : Fin 64 := 0
    let frame : List Byte := tDataV
    let g := port.val / 2
    (s.dev.rl.present g = true) ∧ (bitAt (s.dev.lr g).stopped (port % 2) = false) ∧ (crcOk frame = true) ∧ (nfLenOk frame = true) ∧ (s.dev.scheduled g cyc pos = some (nfAddr frame, nfType frame)) ∧ ((cyc, nfAddr frame, nfType frame) ∉ (s.dev.lr g).written) ∧ ((∀ x ∈ (s.dev.lr g).held, ¬ (x.cyc = cyc ∧ x.addr = nfAddr frame ∧ x.ntype = nfType frame))) ∧ ((s.dev.lr ring).orig = true) ∧ ((cyc, addr, nt) ∉ (s.dev.lr ring).written) ∧ ((s.dev.rl.node ring addr).isSome = true) ∧ ((s.dev.lr ring).held.find? (fun x => x.cyc == cyc && x.addr == addr && x.ntype == nt) = none) := by
  dsimp only
  decide +kernel

theorem witness_NodeFramesAreAcceptedOnce_2 :
    let s : State := wTake
    let port : Fin 128 := 0
    let frame : List Byte := tDataV.take 37 ++ [0#8]
    let g := port.val / 2
    (s.dev.rl.present g = true) ∧ (bitAt (s.dev.lr g).stopped (port % 2) = false) ∧ (crcOk frame = false ∨ nfLenOk frame = false) := by
  dsimp only
  decide +kernel

theorem witness_NodeFramesAreAcceptedOnce_3 :
    let s : State := wHeld
    let cyc : Nat := 7
    let addr : Nat := 1
    let nt : Nat := 1
    let ring : Fin 64 := 0
    let h : Held := tHeld
    ((s.dev.lr ring).orig = true) ∧ ((cyc, addr, nt) ∉ (s.dev.lr ring).written) ∧ ((s.dev.rl.node ring addr).isSome = true) ∧ ((s.dev.lr ring).held.find? (fun x => x.cyc == cyc && x.addr == addr && x.ntype == nt) = some h) ∧ (h.port < 128) := by
  dsimp only
  decide +kernel

theorem witness_PairsMirrorCompareAndJoin_1 :
    let s : State := wOwnCopy
    let t : Nat := 1000000
    let link : Fin 4 := 0
    let codeErr : Bool := false
    let frame : List Byte := peerFrame pfAccept 5 (tAccept 0 0)
    let pay : List Byte := tAccept 0 0
    let r := byteAt pay 0
    (s.dev.Hears t link pfAccept codeErr frame pay) ∧ (byteAt pay 5 = 1) ∧ ((s.dev.rl.node r (byteAt pay 10)).isSome = true) ∧ ((s.dev.lr r).orig = false) ∧ ((s.dev.lr r).written = []) ∧ (bitAt (byteAt pay 11) 4 = false) ∧ (bitAt (byteAt pay 11) 5 = false) := by
  dsimp only
  exact ⟨by unfold Dev.Hears; decide +kernel, by decide +kernel, by decide +kernel, by decide +kernel, by decide +kernel, by decide +kernel, by decide +kernel⟩

theorem witness_PairsMirrorCompareAndJoin_2 :
    let s : State := wOwnCopy
    let t : Nat := 1000000
    let link : Fin 4 := 0
    let codeErr : Bool := false
    let frame : List Byte := peerFrame pfAccept 5 (tAccept 1 tOwnCrc)
    let pay : List Byte := tAccept 1 tOwnCrc
    let h : Held := tOwnCopy
    let c := (begin_ t s.dev).extendCyc (le pay 1 4)
    let r := byteAt pay 0
    let n := byteAt pay 11 % 16
    let own := (s.dev.lr r).held.find? fun y => y.cyc == c && y.addr == byteAt pay 10 && y.ntype == n && crc32c y.bytes == le pay 12 4
    (s.dev.Hears t link pfAccept codeErr frame pay) ∧ (byteAt pay 5 = 1) ∧ ((s.dev.rl.node r (byteAt pay 10)).isSome = true) ∧ ((s.dev.lr r).orig = false) ∧ ((s.dev.lr r).written = []) ∧ (bitAt (byteAt pay 11) 4 = true) ∧ (own = some h) := by
  dsimp only
  exact ⟨by unfold Dev.Hears; decide +kernel, by decide +kernel, by decide +kernel, by decide +kernel, by decide +kernel, by decide +kernel, by decide +kernel⟩

theorem witness_PairsMirrorCompareAndJoin_3 :
    let s : State := wOwnCopy
    let t : Nat := 1000000
    let link : Fin 4 := 0
    let codeErr : Bool := false
    let frame : List Byte := peerFrame pfAccept 5 (tAccept 1 5)
    let pay : List Byte := tAccept 1 5
    let c := (begin_ t s.dev).extendCyc (le pay 1 4)
    let r := byteAt pay 0
    let n := byteAt pay 11 % 16
    let own := (s.dev.lr r).held.find? fun y => y.cyc == c && y.addr == byteAt pay 10 && y.ntype == n && crc32c y.bytes == le pay 12 4
    (s.dev.Hears t link pfAccept codeErr frame pay) ∧ (byteAt pay 5 = 1) ∧ ((s.dev.rl.node r (byteAt pay 10)).isSome = true) ∧ ((s.dev.lr r).orig = false) ∧ ((s.dev.lr r).written = []) ∧ (bitAt (byteAt pay 11) 4 = true) ∧ (bitAt (byteAt pay 11) 6 = false) ∧ (own = none) ∧ (s.dev.sin.conts = []) := by
  dsimp only
  exact ⟨by unfold Dev.Hears; decide +kernel, by decide +kernel, by decide +kernel, by decide +kernel, by decide +kernel, by decide +kernel, by decide +kernel, by decide +kernel, by decide +kernel⟩

theorem witness_PairsMirrorCompareAndJoin_4 :
    let s : State := wSin .run 2 { wants := [tWant8] } []
    let t : Nat := 1000000
    let link : Fin 4 := 0
    let codeErr : Bool := false
    let frame : List Byte := peerFrame pfContent 5 (tContent)
    let pay : List Byte := tContent
    let w : AccWant := tWant8
    let c := (begin_ t s.dev).extendCyc (le pay 1 4)
    let r := byteAt pay 0
    let f := s.dev.sin.wants.find? fun y => y.ring == r && y.cyc == c && y.pos == le pay 5 2 && y.crc == le (pay.drop 8) ((pay.drop 8).length - 4) 4
    (s.dev.Hears t link pfContent codeErr frame pay) ∧ (crcOk (pay.drop 8) = true) ∧ (f = some w) := by
  dsimp only
  exact ⟨by unfold Dev.Hears; decide +kernel, by decide +kernel, by decide +kernel⟩

theorem witness_PairsMirrorCompareAndJoin_5 :
    let s : State := wSin .run 2 {} []
    let t : Nat := 1000000
    let link : Fin 4 := 0
    let codeErr : Bool := false
    let frame : List Byte := peerFrame pfContent 5 (tContent)
    let pay : List Byte := tContent
    let c := (begin_ t s.dev).extendCyc (le pay 1 4)
    let r := byteAt pay 0
    let f := s.dev.sin.wants.find? fun y => y.ring == r && y.cyc == c && y.pos == le pay 5 2 && y.crc == le (pay.drop 8) ((pay.drop 8).length - 4) 4
    (s.dev.Hears t link pfContent codeErr frame pay) ∧ (crcOk (pay.drop 8) = true) ∧ (f = none) := by
  dsimp only
  exact ⟨by unfold Dev.Hears; decide +kernel, by decide +kernel, by decide +kernel⟩

theorem witness_PairsMirrorCompareAndJoin_6 :
    let s : State := wSin .run 1 { sent := [(0, 7, 8, tDataV)] } []
    let t : Nat := 1000000
    let link : Fin 4 := 0
    let codeErr : Bool := false
    let frame : List Byte := peerFrame pfWant 5 ([0#8] ++ toLe 7 4 ++ [1#8] ++ toLe 8 2)
    let pay : List Byte := [0#8] ++ toLe 7 4 ++ [1#8] ++ toLe 8 2
    let x : Nat × Nat × Nat × List Byte := (0, 7, 8, tDataV)
    let c := (begin_ t s.dev).extendCyc (le pay 1 4)
    let r := byteAt pay 0
    (s.dev.Hears t link pfWant codeErr frame pay) ∧ (byteAt pay 5 = 1) ∧ (s.dev.sin.sent.find? (fun y => y.1 == r && y.2.1 == c && y.2.2.1 == le pay 6 2) = some x) := by
  dsimp only
  exact ⟨by unfold Dev.Hears; decide +kernel, by decide +kernel, by decide +kernel⟩

theorem witness_PairsMirrorCompareAndJoin_7 :
    let s : State := wSin .run 2 {} []
    let t : Nat := 1200000
    let ring : Fin 64 := 0
    let cyc : Nat := 7
    let addr : Nat := 1
    let nt : Nat := 1
    ((s.dev.lr ring).orig = false) ∧ (s.dev.solo = false) ∧ ((s.dev.rl.node ring addr).isSome = true) ∧ ((s.dev.lr ring).written = []) ∧ (cyc * 125000 + charOf (s.dev.posOf ring cyc addr nt + nodeFrameLen nt 0) * 625 / 8 + 51000 ≤ s.dev.nowAt t) ∧ (s.dev.sin.wants = []) := by
  dsimp only
  decide +kernel

theorem witness_PairsMirrorCompareAndJoin_8 :
    let s : State := wCompare
    let t : Nat := 1000000
    let link : Fin 4 := 0
    let codeErr : Bool := false
    let frame : List Byte := peerFrame pfCompare 5 (tCompare 1)
    let pay : List Byte := tCompare 1
    let a : Nat × Nat × Nat := (1, 2, 3)
    let b : Nat × Nat × Nat := (1, 2, 3)
    let k := (begin_ t s.dev).extendCyc (le pay 0 4)
    (s.dev.Hears t link pfCompare codeErr frame pay) ∧ (s.dev.live = true) ∧ (s.dev.nowAt t ≤ k * 125000 + 250000) ∧ (s.dev.sin.own.find k = some a) ∧ (s.dev.sin.lastCmp = some (k - 1)) ∧ (0 < k) ∧ (b = (le pay 4 4, le pay 8 4, le pay 12 4)) ∧ (a = b) := by
  dsimp only
  exact ⟨by unfold Dev.Hears; decide +kernel, by decide +kernel, by decide +kernel, by decide +kernel, by decide +kernel, by decide +kernel, by decide +kernel, by decide +kernel⟩

theorem witness_PairsMirrorCompareAndJoin_9 :
    let s : State := wCompare
    let t : Nat := 1000000
    let link : Fin 4 := 0
    let codeErr : Bool := false
    let frame : List Byte := peerFrame pfCompare 5 (tCompare 9)
    let pay : List Byte := tCompare 9
    let a : Nat × Nat × Nat := (1, 2, 3)
    let b : Nat × Nat × Nat := (9, 2, 3)
    let k := (begin_ t s.dev).extendCyc (le pay 0 4)
    (s.dev.Hears t link pfCompare codeErr frame pay) ∧ (s.dev.live = true) ∧ (s.dev.nowAt t ≤ k * 125000 + 250000) ∧ (s.dev.sin.own.find k = some a) ∧ (s.dev.sin.lastCmp = some (k - 1)) ∧ (0 < k) ∧ (b = (le pay 4 4, le pay 8 4, le pay 12 4)) ∧ (a.1 ≠ b.1) := by
  dsimp only
  exact ⟨by unfold Dev.Hears; decide +kernel, by decide +kernel, by decide +kernel, by decide +kernel, by decide +kernel, by decide +kernel, by decide +kernel, by decide +kernel⟩

theorem witness_PairsMirrorCompareAndJoin_10 :
    let s : State := wSin .run 2 {} [(Reg.SIN_STATUS_JOINING, 0, 0, 1)]
    let t : Nat := 1000000
    let link : Fin 4 := 0
    let codeErr : Bool := false
    let frame : List Byte := peerFrame pfState 5 (tState 0)
    let pay : List Byte := tState 0
    (s.dev.Hears t link pfState codeErr frame pay) ∧ (s.dev.role = roleStandIn) ∧ (s.dev.rd Reg.SIN_STATUS_JOINING = 1) ∧ (le pay 2 2 = 0) ∧ (1 < le pay 8 4) := by
  dsimp only
  exact ⟨by unfold Dev.Hears; decide +kernel, by decide +kernel, by decide +kernel, by decide +kernel, by decide +kernel⟩

theorem witness_PairsMirrorCompareAndJoin_11 :
    let s : State := wSin .run 2 {} [(Reg.SIN_STATUS_JOINING, 0, 0, 1)]
    let t : Nat := 1000000
    let link : Fin 4 := 0
    let codeErr : Bool := false
    let frame : List Byte := peerFrame pfState 5 (tState 1)
    let pay : List Byte := tState 1
    (s.dev.Hears t link pfState codeErr frame pay) ∧ (s.dev.role = roleStandIn) ∧ (s.dev.rd Reg.SIN_STATUS_JOINING = 1) ∧ (le pay 2 2 ≠ 0) ∧ (le pay 2 2 ≠ s.dev.sin.parts.length) := by
  dsimp only
  exact ⟨by unfold Dev.Hears; decide +kernel, by decide +kernel, by decide +kernel, by decide +kernel, by decide +kernel⟩

theorem witness_PairsMirrorCompareAndJoin_12 :
    let s : State := wSin .run 2 {} [(Reg.SIN_STATUS_JOINING, 0, 0, 1)]
    let t : Nat := 1000000
    let link : Fin 4 := 0
    let g : Nat := 0
    let codeErr : Bool := false
    let frame : List Byte := peerFrame pfTakeSync 5 (toLe 1 8 ++ toLe 77 4 ++ List.replicate 252 0#8)
    let pay : List Byte := toLe 1 8 ++ toLe 77 4 ++ List.replicate 252 0#8
    (s.dev.Hears t link pfTakeSync codeErr frame pay) ∧ (s.dev.role = roleStandIn) ∧ (g ∈ s.dev.rl.rings) ∧ (bitAt (le pay 0 8) g = true) ∧ ((s.dev.lr g).counted = false) := by
  dsimp only
  simp only [Dev.Hears, Dev.peerRx, crc_eq]
  decide +kernel

theorem witness_PairsMirrorCompareAndJoin_13 :
    let s : State := wSin .run 2 {} []
    let t : Nat := 1000000
    let link : Fin 4 := 0
    let codeErr : Bool := false
    let frame : List Byte := peerFrame pfNote 5 ([1#8, 0, 0, 0, 0, 0, 0, 0])
    let pay : List Byte := [1#8, 0, 0, 0, 0, 0, 0, 0]
    (s.dev.Hears t link pfNote codeErr frame pay) ∧ (byteAt pay 0 = 1) := by
  dsimp only
  exact ⟨by unfold Dev.Hears; decide +kernel, by decide +kernel⟩

theorem witness_PairsMirrorCompareAndJoin_14 :
    let s : State := wSin .run 2 {} []
    let t : Nat := 1000000
    let link : Fin 4 := 0
    let codeErr : Bool := false
    let frame : List Byte := peerFrame pfNote 5 ([2#8, 0, 0, 0, 0, 0, 0, 0])
    let pay : List Byte := [2#8, 0, 0, 0, 0, 0, 0, 0]
    (s.dev.Hears t link pfNote codeErr frame pay) ∧ (byteAt pay 0 ≠ 1) := by
  dsimp only
  exact ⟨by unfold Dev.Hears; decide +kernel, by decide +kernel⟩

theorem witness_PhaseSourcesAndReferences_1 :
    let s : State := wPtpSlave
    let k : Nat := 6
    let p : Fin 4 := 0
    let ds : List Nat := [128, 6, 33, 100, 128, 9, 0]
    let bad : Bool := false
    (s.dev.ptpRole p ≠ 0) ∧ (s.dev.rd Reg.TB_PTP_STAT_PORT_STATE p = 9) ∧ (s.dev.rd Reg.TB_PTP_DELAY_MEAN_DELAY p ≠ 0xFFFFFFFF) ∧ (5 < k) ∧ (bad = false) ∧ (ds.length = 7) ∧ ((∀ q, q < 4 → q ≠ p.val → (s.dev.ptp q).ann = none)) ∧ (s.dev.rd Reg.TB_STATUS_SRC = srcPtp) ∧ (s.dev.follower = false) ∧ (srcPps ∉ s.dev.tb.qual) ∧ (s.dev.mainOn = true) ∧ (s.dev.mode ≠ .halt) := by
  dsimp only
  decide +kernel

theorem witness_PhaseSourcesAndReferences_2 :
    let s : State := wPtpMaster
    let p : Fin 4 := 0
    (s.dev.ptpRole p ≠ 0) ∧ (s.dev.rd Reg.TB_PTP_STAT_PORT_STATE p = 6) ∧ (bitAt (s.dev.ptpOpt p) 0 = false) := by
  dsimp only
  decide +kernel

theorem witness_PhaseSourcesAndReferences_3 :
    let s : State := wPps
    (s.dev.rd Reg.TB_CTRL_PPS_IN_EN = 1) := by
  dsimp only
  decide +kernel

theorem witness_PhaseSourcesAndReferences_4 :
    let s : State := wHoldover
    (s.dev.rd Reg.TB_STATUS_STATE = tbHoldover ∨ s.dev.rd Reg.TB_STATUS_STATE = tbHoldLong) := by
  dsimp only
  decide +kernel

theorem witness_PhaseSourcesAndReferences_5 :
    let s : State := wLocked
    let bin : Nat := 13
    (s.dev.rd Reg.TB_STATUS_STATE = tbLocked) ∧ (s.dev.rd Reg.TB_STATUS_REF10_USED = 0) ∧ (s.dev.tb.temps = []) ∧ (tcompBin s.dev.tbTemp = some bin) := by
  dsimp only
  decide +kernel

theorem witness_PhaseSourcesAndReferences_6 :
    let s : State := wRef10
    (s.dev.rd Reg.TB_STATUS_REF10_USED = 1) := by
  dsimp only
  decide +kernel

theorem witness_PopsReadInOrder_1 :
    let s : State := wQ9 (tPopQ [.one tItem] none)
    let req : Nat := 2
    let qid : Nat := 9
    let q : Queue := tPopQ [.one tItem] none
    let it : Item := tItem
    let us : List QUnit := []
    (s.dev.MayUse req qid true q) ∧ (q.reading = none) ∧ (q.units = .one it :: us) := by
  dsimp only
  exact ⟨⟨by decide +kernel, by decide +kernel, by decide +kernel, noEvents_of _ _ (by decide +kernel)⟩, by decide +kernel, by decide +kernel⟩

theorem witness_PopsReadInOrder_2 :
    let s : State := wQPopWait [.one tItem]
    let t : Nat := 2000000
    let req : Nat := 2
    let qid : Nat := 9
    let q : Queue := tPopQ [.one tItem] none
    let it : Item := tItem
    let us : List QUnit := []
    let since := 900000
    (s.dev.MayUse req qid true q) ∧ (q.reading = none) ∧ (q.units = .one it :: us) ∧ (isLane req = false) ∧ ((∃ since, (s.dev.rq req).pop = some (qid, since))) ∧ ((s.dev.rq req).pop = some (qid, since)) ∧ (since + 8000 ≤ s.dev.ownAt t) := by
  dsimp only
  exact ⟨⟨by decide +kernel, by decide +kernel, by decide +kernel, noEvents_of _ _ (by decide +kernel)⟩, by decide +kernel, by decide +kernel, by decide +kernel, ⟨900000, by decide +kernel⟩, by decide +kernel, by decide +kernel⟩

theorem witness_PopsReadInOrder_3 :
    let s : State := wQ9 (tPopQ [tPkt] none)
    let req : Nat := 2
    let qid : Nat := 9
    let q : Queue := tPopQ [tPkt] none
    let it : Item := 0xC040000000000000#64
    let a : Item := tItem
    let l : List Item := [0xA000000000000006#64]
    let us : List QUnit := []
    (s.dev.MayUse req qid true q) ∧ (q.reading = none) ∧ (q.units = .pkt it (a :: l) :: us) := by
  dsimp only
  exact ⟨⟨by decide +kernel, by decide +kernel, by decide +kernel, noEvents_of _ _ (by decide +kernel)⟩, by decide +kernel, by decide +kernel⟩

theorem witness_PopsReadInOrder_4 :
    let s : State := wQ9 (tPopQ [.one 1] (some { req := 2, rest := [1, 2, 3] }))
    let req : Nat := 2
    let qid : Nat := 9
    let q : Queue := tPopQ [.one 1] (some { req := 2, rest := [1, 2, 3] })
    let it : Item := 1
    let l : List Item := [3]
    let b := 2
    (s.dev.MayUse req qid true q) ∧ (q.reading = some { req := req, rest := it :: b :: l }) := by
  dsimp only
  exact ⟨⟨by decide +kernel, by decide +kernel, by decide +kernel, noEvents_of _ _ (by decide +kernel)⟩, by decide +kernel⟩

theorem witness_PopsReadInOrder_5 :
    let s : State := wQ9 (tPopQ [.one 1] (some { req := 2, rest := [5] }))
    let req : Nat := 2
    let qid : Nat := 9
    let q : Queue := tPopQ [.one 1] (some { req := 2, rest := [5] })
    let it : Item := 5
    (s.dev.MayUse req qid true q) ∧ (q.reading = some { req := req, rest := [it] }) := by
  dsimp only
  exact ⟨⟨by decide +kernel, by decide +kernel, by decide +kernel, noEvents_of _ _ (by decide +kernel)⟩, by decide +kernel⟩

theorem witness_PopsReadInOrder_6 :
    let s : State := wQ9 (tPopQ [] none)
    let req : Nat := 2
    let qid : Nat := 9
    let q : Queue := tPopQ [] none
    (s.dev.MayUse req qid true q) ∧ (q.reading = none) ∧ (q.units = []) ∧ (qid < 0x10000) := by
  dsimp only
  exact ⟨⟨by decide +kernel, by decide +kernel, by decide +kernel, noEvents_of _ _ (by decide +kernel)⟩, by decide +kernel, by decide +kernel, by decide +kernel⟩

theorem witness_PopsReadInOrder_7 :
    let s : State := wQFar
    let req : Nat := 2
    let qid : Nat := 0x10000
    let q : Queue := tPopQ [] none
    (s.dev.MayUse req qid true q) ∧ (q.reading = none) ∧ (q.units = []) ∧ (0x10000 ≤ qid) := by
  dsimp only
  exact ⟨⟨by decide +kernel, by decide +kernel, by decide +kernel, noEvents_of _ _ (by decide +kernel)⟩, by decide +kernel, by decide +kernel, by decide +kernel⟩

theorem witness_PortsAndRingsShowTheirState_1 :
    let s : State := wRun
    let ring : Fin 64 := 0
    ((s.dev.lr ring).orig = true) := by
  dsimp only
  decide +kernel

theorem witness_PortsAndRingsShowTheirState_2 :
    let s : State := wLong
    let ring : Fin 64 := 0
    (8 ≤ (s.dev.lr ring).long) ∧ (s.dev.rd Reg.LNK_RING_STAT_LONG ring = 0) := by
  dsimp only
  decide +kernel

theorem witness_PortsAndRingsShowTheirState_3 :
    let s : State := wLoss
    let ring : Fin 64 := 0
    (4 ≤ (s.dev.lr ring).loss0 ∨ 4 ≤ (s.dev.lr ring).loss1) ∧ (s.dev.rd Reg.LNK_RING_STAT_BROKEN ring = 0) := by
  dsimp only
  decide +kernel

theorem witness_PortsAndRingsShowTheirState_4 :
    let s : State := wBack
    let ring : Fin 64 := 0
    (8 ≤ (s.dev.lr ring).back) ∧ (s.dev.rd Reg.LNK_RING_STAT_BROKEN ring = 1) := by
  dsimp only
  decide +kernel

theorem witness_PortsAndRingsShowTheirState_5 :
    let s : State := wStandIn
    let orig : Fin 2 := 1
    (s.dev.solo = false) ∧ (orig.val ≠ s.dev.origCode) ∧ (s.dev.role ≠ roleActive) := by
  dsimp only
  decide +kernel

theorem witness_PortsAndRingsShowTheirState_6 :
    let s : State := wActive
    let orig : Fin 2 := 1
    (s.dev.solo = false) ∧ (orig.val ≠ s.dev.origCode) ∧ (s.dev.role = roleActive) ∧ (s.dev.mode = .run) := by
  dsimp only
  decide +kernel

theorem witness_PortsAndRingsShowTheirState_7 :
    let s : State := wWaited
    let qid : Nat := 5
    let n : Nat := 8
    let ring : Fin 64 := 0
    ((s.dev.lr ring).waited.find qid = some (n, false)) ∧ (8 ≤ n) := by
  dsimp only
  decide +kernel

theorem witness_PushesStoreInOrder_1 :
    let s : State := wQ9 (tPushQ none)
    let req : Nat := 2
    let qid : Nat := 9
    let q : Queue := tPushQ none
    (s.dev.MayUse req qid false q) ∧ (q.openp = none) ∧ (q.level + 1 ≤ q.qd.depth) := by
  dsimp only
  exact ⟨⟨by decide +kernel, by decide +kernel, by decide +kernel, noEvents_of _ _ (by decide +kernel)⟩, by decide +kernel, by decide +kernel⟩

theorem witness_PushesStoreInOrder_2 :
    let s : State := wQ9 (tPushQ (some tOpenP))
    let req : Nat := 2
    let qid : Nat := 9
    let q : Queue := tPushQ (some tOpenP)
    let items := [tItem]
    (s.dev.MayUse req qid false q) ∧ (q.openp = some { req := req, items := items, discard := false, gone := false }) ∧ (q.level + 1 ≤ q.qd.depth) ∧ (items.length < 65535) := by
  dsimp only
  exact ⟨⟨by decide +kernel, by decide +kernel, by decide +kernel, noEvents_of _ _ (by decide +kernel)⟩, by decide +kernel, by decide +kernel, by decide +kernel⟩

theorem witness_QueueCommandsDiscardAndRelease_1 :
    let s : State := wQ9 (tPopQ [.one 1] (some { req := 2, rest := [5] }))
    let req : Nat := 2
    let qid : Nat := 9
    let q : Queue := tPopQ [.one 1] (some { req := 2, rest := [5] })
    let rest : List Item := [5]
    (s.dev.MayUse req qid true q) ∧ (q.reading = some { req := req, rest := rest }) ∧ (s.dev.qf.qs.find qid = some q) ∧ (s.dev.NoEvents qid) ∧ (q.openp = none) := by
  dsimp only
  exact ⟨⟨by decide +kernel, by decide +kernel, by decide +kernel, noEvents_of _ _ (by decide +kernel)⟩, by decide +kernel, by decide +kernel, noEvents_of _ _ (by decide +kernel), by decide +kernel⟩

theorem witness_QueueCommandsDiscardAndRelease_2 :
    let s : State := wQ9 (tPopQ [tPkt] none)
    let req : Nat := 2
    let qid : Nat := 9
    let q : Queue := tPopQ [tPkt] none
    let h : Item := 0xC040000000000000#64
    let items : List Item := [tItem, 0xA000000000000006#64]
    let us : List QUnit := []
    (s.dev.MayUse req qid true q) ∧ (q.reading = none) ∧ (q.units = .pkt h items :: us) ∧ (isProgram q.qd.consumer = true) ∧ (q.openp = none) := by
  dsimp only
  exact ⟨⟨by decide +kernel, by decide +kernel, by decide +kernel, noEvents_of _ _ (by decide +kernel)⟩, by decide +kernel, by decide +kernel, by decide +kernel, by decide +kernel⟩

theorem witness_QueueCommandsDiscardAndRelease_3 :
    let s : State := wQ9 (tPushQ (some tOpenP))
    let req : Nat := 2
    let qid : Nat := 9
    let q : Queue := tPushQ (some tOpenP)
    let items : List Item := [tItem]
    (s.dev.MayUse req qid false q) ∧ (q.openp = some { req := req, items := items, discard := false, gone := false }) ∧ (s.dev.qf.qs.find qid = some q) ∧ (s.dev.NoEvents qid) ∧ (q.reading = none) := by
  dsimp only
  exact ⟨⟨by decide +kernel, by decide +kernel, by decide +kernel, noEvents_of _ _ (by decide +kernel)⟩, by decide +kernel, by decide +kernel, noEvents_of _ _ (by decide +kernel), by decide +kernel⟩

theorem witness_QueueStatusRegisters_1 :
    let s : State := wQ9 { tPopQ [.one tItem] none with wmEvt := true, loss := true, cross := 3, peak := 7 }
    let req : Nat := 2
    let qid : Nat := 9
    let q : Queue := { tPopQ [.one tItem] none with wmEvt := true, loss := true, cross := 3, peak := 7 }
    (s.dev.qf.qs.find qid = some q) ∧ (q.qd.prot = false ∨ s.dev.reqProt req = true) := by
  dsimp only
  decide +kernel

theorem witness_QueueWaitsAndErrors_1 :
    let s : State := wQBlock
    let t : Nat := 2000000000000
    let qid : Nat := 9
    let q : Queue := tPopQ [] none
    let it : Item := tItem
    let w : QWait := tQWait
    (s.dev.qf.qs.find qid = some q) ∧ (s.dev.NoEvents qid) ∧ (s.dev.qf.waits = [w]) ∧ (w.qids = [qid]) ∧ (w.unit = .one it) ∧ (s.dev.qf.lanes = []) ∧ (q.level + 1 ≤ q.qd.depth) ∧ (w ∈ s.dev.qf.waits) ∧ (qid ∈ w.qids) ∧ (w.warned = false) ∧ (w.at_ + s.dev.rd Reg.QF_STALL_WARN_WARN * 1000 < s.dev.ownAt t) := by
  dsimp only
  exact ⟨by decide +kernel, noEvents_of _ _ (by decide +kernel), by decide +kernel, by decide +kernel, by decide +kernel, by decide +kernel, by decide +kernel, by decide +kernel, by decide +kernel, by decide +kernel, by decide +kernel⟩

theorem witness_QueueWaitsAndErrors_2 :
    let s : State := wQ9 (tPopQ [.one tItem, tPkt] none)
    let qid : Nat := 9
    let q : Queue := tPopQ [.one tItem, tPkt] none
    let it : Item := tItem
    let us : List QUnit := [tPkt]
    (s.dev.qf.qs.find qid = some q) ∧ (s.dev.NoEvents qid) ∧ (q.units = .one it :: us) := by
  dsimp only
  exact ⟨by decide +kernel, noEvents_of _ _ (by decide +kernel), by decide +kernel⟩

theorem witness_RegistersFollowTheirAccessCodes_1 :
    let s : State := wRunning
    let t : Nat := 2000000
    let req : Nat := 2
    let off : Nat := 0x40000
    let be : BitVec 4 := 3
    (s.dev.reqOk req = true) ∧ (req = 1 ∨ req = 2) ∧ (be ≠ 15#4) ∧ (off % 4 = 0) ∧ (off < 0x1000000) ∧ (isT0 req = false) ∧ ((begin_ t s.dev).freeWord off = none) ∧ (fullTimeAt off = none) ∧ (wideAt off = none) ∧ (s.dev.Takes req) ∧ (s.dev.mode = .run) ∧ (s.dev.sin.switchWrap ≠ some 1) := by
  dsimp only
  exact ⟨by decide +kernel, by decide +kernel, by decide +kernel, by decide +kernel, by decide +kernel, by decide +kernel, by decide +kernel, by decide +kernel, by decide +kernel, by unfold Dev.Takes; decide +kernel, by decide +kernel, by decide +kernel⟩

theorem witness_RegistersFollowTheirAccessCodes_2 :
    let s : State := wRunning
    let req : Nat := 2
    let off : Nat := 0x40002
    (s.dev.reqOk req = true) ∧ (off % 4 ≠ 0) := by
  dsimp only
  decide +kernel

theorem witness_RegistersFollowTheirAccessCodes_3 :
    let s : State := wRunning
    let req : Nat := 2
    let off : Nat := 0x20000000
    (s.dev.reqOk req = true) ∧ (off % 4 = 0) ∧ (0x20000000 ≤ off) := by
  dsimp only
  decide +kernel

theorem witness_RegistersFollowTheirAccessCodes_4 :
    let s : State := wRunning
    let req : Nat := 2
    let off : Nat := (fullTimes.getD 0 0)
    (s.dev.reqOk req = true) ∧ (off ∈ fullTimes) ∧ (isT0 req = false) := by
  dsimp only
  decide +kernel

theorem witness_RegistersFollowTheirAccessCodes_5 :
    let s : State := wRunning
    let t : Nat := 2000000
    let req : Nat := 1
    let off : Nat := Reg.TRD_WDOG_PERIOD.addr 1 0
    let v : Word := 0xFFFF
    (s.dev.reqOk req = true) ∧ (s.dev.reqProt req = false) ∧ (off % 4 = 0) ∧ (off < 0x1000000) ∧ (isTrwCfg off = false) ∧ (off ≠ 0x70034) ∧ (off < 0x78000 ∨ 0x7A000 ≤ off) ∧ (off < 0x200 ∨ 0x300 ≤ off) ∧ ((begin_ t s.dev).changesProt req off v.toNat = true) := by
  dsimp only
  decide +kernel

theorem witness_RegistersFollowTheirAccessCodes_6 :
    let s : State := wRunning
    let t : Nat := 2000000
    let req : Nat := 1
    let off : Nat := 0x10024
    (s.dev.reqOk req = true) ∧ (off % 4 = 0) ∧ (off < 0x1000000) ∧ (isT0 req = false) ∧ ((begin_ t s.dev).freeWord off = none) ∧ (fullTimeAt off = none) ∧ (wideAt off = some (off, 2, 0)) := by
  dsimp only
  decide +kernel

theorem witness_RingsEnumerate_1 :
    let s : State := wQuiet
    let req : Nat := 2
    let addr : Nat := 9
    let ring : Fin 64 := 0
    (s.dev.rl.present ring = true) ∧ (s.dev.mode = .quiet) ∧ (s.dev.Takes req) ∧ (s.dev.rl.node ring addr = none) := by
  dsimp only
  exact ⟨by decide +kernel, by decide +kernel, by unfold Dev.Takes; decide +kernel, by decide +kernel⟩

theorem witness_RingsEnumerate_2 :
    let s : State := wEnum
    let e : Nat := 2000000
    let addr : Nat := 1
    let ring : Fin 64 := 0
    let data : List Byte := tReply 2
    let n : Rec := tNode1
    (s.dev.rl.present ring = true) ∧ (s.dev.rl.node ring addr = some n) ∧ (n.ndAddr = addr) ∧ (byteAt data 8 ≠ n.ndKind) ∧ ((s.dev.lr ring).enumEnd = some e) := by
  dsimp only
  decide +kernel

theorem witness_RingsEnumerate_3 :
    let s : State := wEnum
    let addr : Nat := 1
    let ring : Fin 64 := 0
    let data : List Byte := tReply 1
    let n : Rec := tNode1
    (s.dev.rl.present ring = true) ∧ (s.dev.rl.node ring addr = some n) ∧ (n.ndAddr = addr) ∧ (byteAt data 8 = n.ndKind) ∧ (¬ (n.ndKind = 1 ∧ (2 ^ byteAt data 9 ≤ n.ndCellMask ∨ 2 ^ byteAt data 10 ≤ n.ndTempMask))) ∧ (n.ndUid = 0 ∨ le data 0 8 = n.ndUid) := by
  dsimp only
  decide +kernel

theorem witness_RingsWakeAndSleep_1 :
    let s : State := wQuiet
    let req : Nat := 2
    let ring : Fin 64 := 0
    let port : Fin 128 := 1
    (s.dev.Takes req) ∧ (s.dev.rl.present ring = true) ∧ (s.dev.mode ≠ .run) ∧ (s.dev.mode = .quiet) ∧ ((s.dev.lr ring).orig = true) ∧ (s.dev.rl.present (port / 2) = true) := by
  dsimp only
  exact ⟨by unfold Dev.Takes; decide +kernel, by decide +kernel, by decide +kernel, by decide +kernel, by decide +kernel, by decide +kernel⟩

theorem witness_RingsWakeAndSleep_2 :
    let s : State := wAsleep
    let port : Fin 128 := 0
    (s.dev.rl.present (port / 2) = true) ∧ (s.dev.mode = .quiet) ∧ (s.dev.rd Reg.LNK_RING_STAT_STATE (port / 2) = 3) := by
  dsimp only
  decide +kernel

theorem witness_ScheduledCutOver_1 :
    let s : State := wCut
    let t : Nat := 2000000
    let req : Nat := 2
    let n : Nat := 5001000000
    let v : Word := 3
    let k := v.toNat % 2
    let new := reelOf (imageOf (inOrder (s.dev.slot k).blocks))
    (s.dev.mode = .run) ∧ (s.dev.Takes req) ∧ ((s.dev.slot k).st = .valid) ∧ (k ≠ s.dev.img.bootSlot) ∧ (ofFullTime (s.dev.rd Reg.IMG_CUT_NS_NS) (s.dev.rd Reg.IMG_CUT_SEC_LO_SEC) (s.dev.rd Reg.IMG_CUT_SEC_HI_SEC) = some n) ∧ (s.dev.nowAt t + 3 * oneSec ≤ n) ∧ (n ≤ s.dev.nowAt t + 2592000 * oneSec) ∧ (sameClass s.dev.rl new = true) ∧ (needsRestart s.dev.rl new = false) := by
  dsimp only
  exact ⟨by decide +kernel, by unfold Dev.Takes; decide +kernel, by decide +kernel, by decide +kernel, by decide +kernel, by decide +kernel, by decide +kernel, by decide +kernel, by decide +kernel⟩

theorem witness_ScheduledCutOver_2 :
    let s : State := wCutReady
    let t : Nat := 2000000
    let req : Nat := 2
    let v : Word := 4
    let c : Cut := { slot := 1, time := 1000000, shadow := some tCutStruct }
    let r : Reel := tCutStruct
    (s.dev.Takes req) ∧ (v &&& 3#32 = 0#32) ∧ (s.dev.img.cut = some c) ∧ (s.dev.mode = .run) ∧ (s.dev.cutReady = true) ∧ (c.shadow = some r) ∧ (cutBoundary c.time ≤ s.dev.nowAt t) := by
  dsimp only
  exact ⟨by unfold Dev.Takes; decide +kernel, by decide +kernel, by decide +kernel, by decide +kernel, by decide +kernel, by decide +kernel, by decide +kernel⟩

theorem witness_ScheduledCutOver_3 :
    let s : State := wCutLate
    let t : Nat := 2000000
    let c : Cut := { slot := 1, time := 1000000 }
    (s.dev.img.cut = some c) ∧ (c.time < s.dev.nowAt t + 1000000) ∧ (s.dev.cutReady = false) := by
  dsimp only
  decide +kernel

theorem witness_ScheduledCutOver_4 :
    let s : State := wCut
    let t : Nat := 2000000
    let n : Nat := 123
    let link : Fin 4 := 0
    let codeErr : Bool := false
    let frame : List Byte := tCutReport
    let pay : List Byte := time12 123 ++ toLe 1 8
    (s.dev.Hears t link pfCutReady codeErr frame pay) ∧ (ofTime12 pay 0 = some n) := by
  dsimp only
  exact ⟨by unfold Dev.Hears; decide +kernel, by decide +kernel⟩

theorem witness_StepsAndBoardTime_1 :
    let s : State := wStep
    let t : Nat := 2000000
    let k : Nat := 10
    let m : Int := 3
    let res : Int := 0
    let now := s.dev.nowAt t
    (s.dev.tb.step = some (m, res, k)) ∧ (k ≤ cycleOf now) := by
  dsimp only
  decide +kernel

theorem witness_StepsAndBoardTime_2 :
    let s : State := wTimeSet
    let req : Nat := 2
    let n : Nat := 77000000005
    let lo : Nat := 77
    let hi : Nat := 0
    let ns : Word := 5
    (s.dev.Takes req) ∧ (s.dev.host.stage.find 0x20004 = some lo) ∧ (s.dev.host.stage.find 0x20008 = some hi) ∧ (ofFullTime ns.toNat lo hi = some n) ∧ (s.dev.follower = false) ∧ (s.dev.phaseSel = false) ∧ (s.dev.live = false) := by
  dsimp only
  exact ⟨by unfold Dev.Takes; decide +kernel, by decide +kernel, by decide +kernel, by decide +kernel, by decide +kernel, by decide +kernel, by decide +kernel⟩

theorem witness_StepsAndBoardTime_3 :
    let s : State := wUtc
    let req : Nat := 2
    (s.dev.Takes req) ∧ (s.dev.rd Reg.TB_STATUS_SRC = srcPps) := by
  dsimp only
  exact ⟨by unfold Dev.Takes; decide +kernel, by decide +kernel⟩

theorem witness_StepsAndBoardTime_4 :
    let s : State := wFollow
    let t : Nat := 2000000
    let n : Nat := 12000000000
    let link : Fin 4 := 0
    let codeErr : Bool := false
    let frame : List Byte := peerFrame pfBoardTime 3 tBoardTime
    let pay : List Byte := tBoardTime
    (s.dev.follower = true) ∧ (s.dev.rd Reg.SIN_STATUS_PEER_UP ≠ 0) ∧ (s.dev.solo = false) ∧ (s.dev.mode = .quiet ∨ s.dev.mode = .run ∨ s.dev.mode = .wrap) ∧ (s.dev.tb.peers = []) ∧ (s.dev.rd Reg.TB_BOARD_MASTER_VALID = 1) ∧ (s.dev.rd Reg.TB_BOARD_MASTER ≠ s.dev.devAddr) ∧ (s.dev.Hears t link pfBoardTime codeErr frame pay) ∧ (s.dev.rd Reg.SIN_PEER_STAT_ADDR_VALID link = 1) ∧ (s.dev.rd Reg.TB_BOARD_MASTER = s.dev.rd Reg.SIN_PEER_STAT_PEER_ADDR link) ∧ (ofTime12 pay 0 = some n) ∧ (s.dev.live = false) := by
  dsimp only
  exact ⟨by decide +kernel, by decide +kernel, by decide +kernel, by decide +kernel, by decide +kernel, by decide +kernel, by decide +kernel, by unfold Dev.Hears; decide +kernel, by decide +kernel, by decide +kernel, by decide +kernel, by decide +kernel⟩

theorem witness_StepsAndBoardTime_5 :
    let s : State := wFollowRun
    let t : Nat := 2000000
    let n : Nat := 12000000000
    let link : Fin 4 := 0
    let codeErr : Bool := false
    let frame : List Byte := peerFrame pfBoardTime 3 tBoardTime
    let pay : List Byte := tBoardTime
    (s.dev.Hears t link pfBoardTime codeErr frame pay) ∧ (s.dev.solo = false) ∧ (s.dev.rd Reg.SIN_PEER_STAT_ADDR_VALID link = 1) ∧ (s.dev.follower = true) ∧ (s.dev.rd Reg.TB_BOARD_MASTER = s.dev.rd Reg.SIN_PEER_STAT_PEER_ADDR link) ∧ (ofTime12 pay 0 = some n) ∧ (s.dev.live = true) ∧ (sx 16 (le pay 18 2) ≠ 0) := by
  dsimp only
  exact ⟨by unfold Dev.Hears; decide +kernel, by decide +kernel, by decide +kernel, by decide +kernel, by decide +kernel, by decide +kernel, by decide +kernel, by decide +kernel⟩

theorem witness_StepsAndBoardTime_6 :
    let s : State := wBoardMaster
    let t : Nat := 2000000
    let link : Fin 4 := 0
    let codeErr : Bool := false
    let frame : List Byte := peerFrame pfTwtt 3 tTwtt
    let pay : List Byte := tTwtt
    (s.dev.Hears t link pfTwtt codeErr frame pay) ∧ (byteAt pay 0 = 0) ∧ (s.dev.rd Reg.TB_STATUS_BOARD_MASTER = 1) := by
  dsimp only
  exact ⟨by unfold Dev.Hears; decide +kernel, by decide +kernel, by decide +kernel⟩

theorem witness_StoreWritesScrubsAndSelects_1 :
    let s : State := wPst { writes := [tWrite 7, tWrite 3] } []
    let req : Nat := 2
    let a : NvProg := tProg 40 false
    let b : NvProg := tProg 41 false
    let w : PstWrite := tWrite 7
    let rest : List PstWrite := [tWrite 3]
    let p := s.dev.pst
    let good (x : NvProg) : Prop := x.fail = false ∧ (x.erase = true → (p.pages.get x.page {}).cycles < 99999)
    (s.dev.mainOn = true) ∧ (p.writes = w :: rest) ∧ (good a) ∧ (good b) ∧ (s.dev.Takes req) := by
  dsimp only
  exact ⟨by decide +kernel, by decide +kernel, by decide +kernel, by decide +kernel, by unfold Dev.Takes; decide +kernel⟩

theorem witness_StoreWritesScrubsAndSelects_2 :
    let s : State := wPst { bbBuf := [tBb true, tBb true], bb := [tBb true] } []
    let a : NvProg := tProg 40 false
    let b : NvProg := tProg 41 false
    let r : BbRec := tBb true
    let more : List BbRec := [tBb true]
    let p := s.dev.pst
    let good (x : NvProg) : Prop := x.fail = false ∧ (x.erase = true → (p.pages.get x.page {}).cycles < 99999)
    (s.dev.mainOn = true) ∧ (p.bbBuf = r :: more) ∧ (p.bbPagesGone < 8192) ∧ (good a) ∧ (good b) := by
  dsimp only
  decide +kernel

theorem witness_StoreWritesScrubsAndSelects_3 :
    let s : State := wPst { writes := [tWrite 3], sparesUsed := [(3, 100000)], bb := [tBb false] } []
    let a : NvProg := tProg 40 true
    let w : PstWrite := tWrite 3
    let rest : List PstWrite := []
    let p := s.dev.pst
    (s.dev.mainOn = true) ∧ (p.writes = w :: rest) ∧ (nvRegion w.kind = 3) ∧ (a.fail = true) ∧ (a.erase = false) ∧ (p.sparesLeft 3 = 0) := by
  dsimp only
  decide +kernel

theorem witness_StoreWritesScrubsAndSelects_4 :
    let s : State := wPst { recs := [tNv true] } []
    let kind : Nat := 7
    let key : Nat := 0
    let n : NvRec := tNv true
    let found : List (Nat × Nat) := [(40, 3)]
    let p := s.dev.pst
    let most (page : Nat) : Nat := maxN ((found.filter fun x => x.1 == page).map fun x => x.2) 0
    (s.dev.mainOn = true) ∧ (p.find kind key = some n) ∧ (n.ok0 = true ∧ most n.page0 ≤ 8 ∨ n.ok1 = true ∧ most n.page1 ≤ 8) := by
  dsimp only
  decide +kernel

theorem witness_StoreWritesScrubsAndSelects_5 :
    let s : State := wPst { recs := [tNv true] } []
    let kind : Nat := 7
    let key : Nat := 0
    let n : NvRec := tNv true
    let found : List (Nat × Nat) := [(40, 9)]
    let p := s.dev.pst
    let most (page : Nat) : Nat := maxN ((found.filter fun x => x.1 == page).map fun x => x.2) 0
    (s.dev.mainOn = true) ∧ (p.find kind key = some n) ∧ ((n.ok0 = false ∨ 8 < most n.page0)) ∧ ((n.ok1 = false ∨ 8 < most n.page1)) ∧ (n.prev = none) := by
  dsimp only
  decide +kernel

theorem witness_SuppliesMoveTheState_1 :
    let s : State := wOff
    (s.dev.mode = .off) ∧ (s.dev.supply.vaux = false) ∧ (s.dev.mode = .off ∨ s.dev.mode = .standby) ∧ (s.dev.supply.rails = false) := by
  dsimp only
  decide +kernel

theorem witness_SuppliesMoveTheState_2 :
    let s : State := wStandby
    (s.dev.mode = .standby) := by
  dsimp only
  decide +kernel

theorem witness_SuppliesMoveTheState_3 :
    let s : State := wWatch
    (s.dev.mode = .watch) ∧ (s.dev.supply.vaux = true) ∧ (s.dev.supply.vbat = true) := by
  dsimp only
  decide +kernel

theorem witness_SuppliesMoveTheState_4 :
    let s : State := wHalt
    (s.dev.mode = .halt) ∧ (s.dev.mainOn = true) ∧ (s.dev.supply.vaux = true) := by
  dsimp only
  decide +kernel

theorem witness_SweepFiltersTestsAndBalances_1 :
    let s : State := wSwp
    let t : Nat := 950000
    let qid : Nat := 9
    let ring : Fin 64 := 0
    let q : Queue := tSwpQ tSwpHead
    let h : Item := tSwpHead
    let items : List Item := tSwpItems
    let us : List QUnit := []
    let n : Rec := tNode1
    (s.dev.qf.qs.find qid = some q) ∧ (q.qd.consumer = 0x3000 + ring) ∧ (s.dev.blocked (0x3000 + ring) = false) ∧ (q.reading = none) ∧ (q.units = .pkt h items :: us) ∧ (itemErr h = false) ∧ (qid ∈ s.dev.rl.routes (0x1000 + ring) 0) ∧ (s.dev.rl.node ring (itemBits h 28 7) = some n) ∧ ((begin_ t s.dev).atPlan = true) ∧ (s.dev.rd Reg.SWP_CTRL_BAL_EN = 0 ∨ s.dev.mode ≠ .run) := by
  dsimp only
  decide +kernel

theorem witness_SweepFiltersTestsAndBalances_2 :
    let s : State := wSwpErr
    let qid : Nat := 9
    let ring : Fin 64 := 0
    let q : Queue := tSwpQ (tSwpHead ||| 0x1000000000000000#64)
    let h : Item := tSwpHead ||| 0x1000000000000000#64
    let items : List Item := tSwpItems
    let us : List QUnit := []
    (s.dev.qf.qs.find qid = some q) ∧ (q.qd.consumer = 0x3000 + ring) ∧ (s.dev.blocked (0x3000 + ring) = false) ∧ (q.reading = none) ∧ (q.units = .pkt h items :: us) ∧ (itemErr h = true) := by
  dsimp only
  decide +kernel

theorem witness_SweepFiltersTestsAndBalances_3 :
    let s : State := wOpenWire
    let t : Nat := 2000000
    let take : Nat := 5
    let ring : Fin 64 := 0
    let n : Rec := tNode1
    (n ∈ s.dev.rl.cellNodes ring) ∧ (take ∈ (s.dev.sn ring n.ndAddr).tested) ∧ (s.dev.nodeState ring n.ndAddr = 0) ∧ (s.dev.swp.planAt + 1000000 ≤ s.dev.nowAt t) := by
  dsimp only
  decide +kernel

theorem witness_SweepFiltersTestsAndBalances_4 :
    let s : State := wOwClear
    let req : Nat := 2
    (s.dev.Takes req) := by
  dsimp only
  exact by unfold Dev.Takes; decide +kernel

theorem witness_SweepFiltersTestsAndBalances_5 :
    let s : State := wBeforePlan
    let t : Nat := 59991000000
    let p := s.dev.nextPlan (s.dev.nowAt t) * 1000000000
    (p ≤ s.dev.nowAt t + 20000000) ∧ (s.dev.nowAt t < p) := by
  dsimp only
  decide +kernel

theorem witness_SweepFiltersTestsAndBalances_6 :
    let s : State := wAtPlan
    let t : Nat := 60000500000
    ((begin_ t s.dev).atPlan = true) ∧ (s.dev.rd Reg.SWP_CTRL_BAL_EN = 1) ∧ (s.dev.mode = .run) := by
  dsimp only
  decide +kernel

theorem witness_SwitchesAndPeerLinks_1 :
    let s : State := wSin .run 1 { pInstep := true, gates := true } []
    let req : Nat := 2
    (s.dev.Takes req) ∧ (s.dev.role = roleActive) ∧ (s.dev.mode = .run) ∧ (s.dev.rd Reg.SIN_STATUS_PARTNER_OK = 1) ∧ (s.dev.rd Reg.SIN_STATUS_PARTNER_ROLE = roleStandIn) ∧ (s.dev.rd Reg.SIN_STATUS_PARTNER_STATE = 4) ∧ (s.dev.sin.pInstep = true) ∧ (s.dev.rd Reg.SIN_STATUS_SWITCH_PEND = 0) ∧ (s.dev.img.cut = none) := by
  dsimp only
  exact ⟨by unfold Dev.Takes; decide +kernel, by decide +kernel, by decide +kernel, by decide +kernel, by decide +kernel, by decide +kernel, by decide +kernel, by decide +kernel, by decide +kernel⟩

theorem witness_SwitchesAndPeerLinks_2 :
    let s : State := wSin .run 2 { pInstep := true } []
    let req : Nat := 2
    (s.dev.Takes req) ∧ (s.dev.role ≠ roleActive ∨ s.dev.mode ≠ .run) := by
  dsimp only
  exact ⟨by unfold Dev.Takes; decide +kernel, by decide +kernel⟩

theorem witness_SwitchesAndPeerLinks_3 :
    let s : State := wSin .run 1 { pInstep := true, gates := true, switchK := some 7, switchOwn := true } [(Reg.SIN_STATUS_SWITCH_PEND, 0, 0, 1)]
    let t : Nat := 2000000
    let req : Nat := 2
    (s.dev.Takes req) ∧ (s.dev.rd Reg.SIN_STATUS_SWITCH_PEND = 1) ∧ (s.dev.sin.switchOwn = true) ∧ (s.dev.sin.acked = false) ∧ (s.dev.sin.switchAt + 200000 ≤ s.dev.ownAt t) := by
  dsimp only
  exact ⟨by unfold Dev.Takes; decide +kernel, by decide +kernel, by decide +kernel, by decide +kernel, by decide +kernel⟩

theorem witness_SwitchesAndPeerLinks_4 :
    let s : State := wSin .run 2 {} []
    let t : Nat := 1000000
    let link : Fin 4 := 0
    let codeErr : Bool := false
    let frame : List Byte := peerFrame pfSwitch 5 (toLe 20 4 ++ toLe 9 4)
    let pay : List Byte := toLe 20 4 ++ toLe 9 4
    (s.dev.Hears t link pfSwitch codeErr frame pay) ∧ (s.dev.role = roleStandIn) ∧ (s.dev.mode = .run) ∧ (le pay 4 4 ≠ 0) := by
  dsimp only
  exact ⟨by unfold Dev.Hears; decide +kernel, by decide +kernel, by decide +kernel, by decide +kernel⟩

theorem witness_SwitchesAndPeerLinks_5 :
    let s : State := wSin .run 1 { gates := true, switchK := some 7, switchOwn := true, acked := true } [(Reg.SIN_STATUS_SWITCH_PEND, 0, 0, 1)]
    let t : Nat := 1000000
    let k : Nat := 7
    (s.dev.sin.switchK = some k) ∧ (k ≤ cycleOf (s.dev.nowAt t)) ∧ (s.dev.sin.switchOwn = true) ∧ (s.dev.sin.acked = true) ∧ (s.dev.role = roleActive) := by
  dsimp only
  decide +kernel

theorem witness_SwitchesAndPeerLinks_6 :
    let s : State := wSin .run 2 { switchK := some 7, switchEpoch := 9 } [(Reg.SIN_STATUS_SWITCH_PEND, 0, 0, 1)]
    let t : Nat := 1000000
    let k : Nat := 7
    (s.dev.sin.switchK = some k) ∧ (k ≤ cycleOf (s.dev.nowAt t)) ∧ (s.dev.sin.switchOwn = false) ∧ (s.dev.role = roleStandIn) := by
  dsimp only
  decide +kernel

theorem witness_SwitchesAndPeerLinks_7 :
    let s : State := wSin .run 2 {} [(Reg.SIN_PEER_STAT_UP, 1, 0, 1)]
    let link : Fin 4 := 1
    (s.dev.rd Reg.SIN_PEER_STAT_UP link = 1) := by
  dsimp only
  decide +kernel

theorem witness_SwitchesAndPeerLinks_8 :
    let s : State := wSin .run 2 { presAt := [(1, 990000)] } []
    let t : Nat := 1000000
    let a : Nat := 990000
    let link : Fin 4 := 1
    (s.dev.rd Reg.SIN_PEER_STAT_UP link = 0) ∧ (s.dev.sin.presAt.find link = some a) ∧ (s.dev.ownAt t ≤ a + 32000) := by
  dsimp only
  decide +kernel

theorem witness_TagAnswersAndCommits_1 :
    let s : State := wTag {  } []
    let req : Nat := 2
    let cmd : Nat := 32
    let mask : Nat := 0
    let len : Nat := 0
    let uid : Option Nat := none
    let sel : Bool := false
    let g := s.dev.pst.tag
    let me := Config.tagUid.toNat
    (cmd = 0x20 ∨ cmd = 0x23 ∨ cmd = 0x30 ∨ cmd = 0x33) ∧ (g.listens uid sel = true) ∧ (g.quietSt = false) ∧ (bitsOf me 0 len = mask) ∧ (cmd ∉ [0x01, 0x02, 0x25, 0x26, 0x2B, 0x3B]) ∧ (s.dev.Takes req) := by
  dsimp only
  exact ⟨by decide +kernel, by decide +kernel, by decide +kernel, by simp [bitsOf, Nat.mod_one], by decide +kernel, by unfold Dev.Takes; decide +kernel⟩

theorem witness_TagAnswersAndCommits_2 :
    let s : State := wTag { quietSt := true } []
    let cmd : Nat := 32
    let uid : Option Nat := none
    let sel : Bool := false
    let g := s.dev.pst.tag
    (cmd = 0x20 ∨ cmd = 0x23 ∨ cmd = 0x30 ∨ cmd = 0x33) ∧ (g.listens uid sel = false) := by
  dsimp only
  decide +kernel

theorem witness_TagAnswersAndCommits_3 :
    let s : State := wTag {  } []
    let cmd : Nat := 33
    let block : Nat := 3841
    let uid : Option Nat := none
    let sel : Bool := false
    let g := s.dev.pst.tag
    let blk := if cmd = 0x20 ∨ cmd = 0x23 ∨ cmd = 0x21 then block % 256 else block % 65536
    (cmd = 0x21 ∨ cmd = 0x31) ∧ (g.listens uid sel = true) ∧ (blk / 128 ≠ 30) ∧ (blk / 128 ≠ 31) := by
  dsimp only
  decide +kernel

theorem witness_TagAnswersAndCommits_4 :
    let s : State := wTag {  } []
    let cmd : Nat := 49
    let block : Nat := 3841
    let uid : Option Nat := none
    let sel : Bool := false
    let g := s.dev.pst.tag
    let blk := if cmd = 0x20 ∨ cmd = 0x23 ∨ cmd = 0x21 then block % 256 else block % 65536
    (cmd = 0x21 ∨ cmd = 0x31) ∧ (g.listens uid sel = true) ∧ (blk / 128 = 30 ∨ blk / 128 = 31) := by
  dsimp only
  decide +kernel

theorem witness_TagAnswersAndCommits_5 :
    let s : State := wTag { pend := [(0, (900000, true))], rfOpen := true } [(Reg.PST_TAG_STAT_PENDING, 0, 0, 1)]
    let t : Nat := 3000000
    let at_ : Nat := 900000
    let host : Bool := true
    let page : Fin 32 := 0
    let g := s.dev.pst.tag
    (g.pend.find page = some (at_, host)) ∧ (at_ ≤ s.dev.ownAt t) := by
  dsimp only
  decide +kernel

theorem witness_TagAnswersAndCommits_6 :
    let s : State := wTag { pend := [(25, (900000, true))], rfOpen := true } [(Reg.PST_TAG_STAT_PENDING, 0, 0, 1)]
    let t : Nat := 90000000
    let at_ : Nat := 900000
    let host : Bool := true
    let page : Fin 32 := 25
    let g := s.dev.pst.tag
    (g.pend.find page = some (at_, host)) ∧ (at_ ≤ s.dev.ownAt t) ∧ (at_ + 25000000 ≤ s.dev.ownAt t) := by
  dsimp only
  decide +kernel

theorem witness_TagAnswersAndCommits_7 :
    let s : State := wTag { rfOpen := true, dirty := true } []
    let t : Nat := 30000000000
    let g := s.dev.pst.tag
    (g.rfOpen = true) ∧ (g.lastRf + 10000000000 ≤ s.dev.ownAt t) ∧ (s.dev.mainOn = true) ∧ (g.dirty = true ∨ g.lastRefresh + max (s.dev.rd Reg.PST_TAG_CTRL_PERIOD) 1 * 1000000000 ≤ s.dev.ownAt t) := by
  dsimp only
  decide +kernel

theorem witness_TilesCloseTakes_1 :
    let s : State := wEst
    let req : Nat := 2
    let qid : Nat := 9
    let k : Nat := 1
    let cyc : Nat := 7
    let ring : Fin 64 := 0
    let ch : Fin 131072 := 3
    let q : Queue := (wEst.dev.qf.qs.find 9).getD tQueue
    let h : Item := tSwpHead
    let items : List Item := tSwpItems
    let us : List QUnit := []
    let n : Rec := tNode1
    (s.dev.qf.qs.find qid = some q) ∧ (q.qd.consumer = 0x4000 + ring) ∧ (s.dev.blocked (0x4000 + ring) = false) ∧ (q.reading = none) ∧ (q.units = .pkt h items :: us) ∧ (itemErr h = false) ∧ (qid ∈ s.dev.rl.routes (0x3000 + ring) 0) ∧ (s.dev.rl.node ring (itemBits h 28 7) = some n) ∧ (s.dev.estTake ring ((itemBits (items.getD 0 0) 28 32 + 2 ^ 32 - 4000 * (setBits n.ndCellMask 16).getD 0 0) % 2 ^ 32) = some (k, cyc)) ∧ ((s.dev.tile ring).isOpen k = true) ∧ (s.dev.live = true) ∧ (s.dev.estNext ring = some (k, cyc)) ∧ (s.dev.Takes req) ∧ (s.dev.rd Reg.EST_CH_STAT_USED ch = 1) := by
  dsimp only
  exact ⟨by decide +kernel, by decide +kernel, by decide +kernel, by decide +kernel, by decide +kernel, by decide +kernel, by decide +kernel, by decide +kernel, by decide +kernel, by decide +kernel, by decide +kernel, by decide +kernel, by unfold Dev.Takes; decide +kernel, by decide +kernel⟩

theorem witness_TilesCloseTakes_2 :
    let s : State := wEst
    let qid : Nat := 10
    let ring : Fin 64 := 0
    let q : Queue := (wEst.dev.qf.qs.find 10).getD tQueue
    let it : Item := tNodeState
    let us : List QUnit := []
    (s.dev.qf.qs.find qid = some q) ∧ (q.qd.consumer = 0x4000 + ring) ∧ (s.dev.blocked (0x4000 + ring) = false) ∧ (q.reading = none) ∧ (q.units = .one it :: us) ∧ (qid ∈ s.dev.rl.routes (0x3000 + ring) 3) := by
  dsimp only
  decide +kernel

theorem witness_TilesCloseTakes_3 :
    let s : State := wEstErr
    let qid : Nat := 9
    let ring : Fin 64 := 0
    let q : Queue := (wEstErr.dev.qf.qs.find 9).getD tQueue
    let h : Item := tSwpHead ||| 0x1000000000000000#64
    let items : List Item := tSwpItems
    let us : List QUnit := []
    (s.dev.qf.qs.find qid = some q) ∧ (q.qd.consumer = 0x4000 + ring) ∧ (s.dev.blocked (0x4000 + ring) = false) ∧ (q.reading = none) ∧ (q.units = .pkt h items :: us) ∧ (itemErr h = true) := by
  dsimp only
  decide +kernel

theorem witness_TriadQueueInstructions_1 :
    let s : State := wSplit (wQ 4 3 5 0 0) (tTrdPush none)
    let qid : Nat := 9
    let tr : Fin 4 := 0
    let l : Fin 6 := 1
    let rp : Fin 32 := 4
    let ra : Fin 32 := 3
    let rd : Fin 32 := 5
    let q : Queue := tTrdPush none
    let x := (s.dev.unitLane tr l).core
    let req := unitReq tr l
    let v : Item := BitVec.ofNat 64 ((x.rd (rp.val + 1)).toNat * 2 ^ 32 + (x.rd rp).toNat)
    (l.val < 3) ∧ (x.rd ra = BitVec.ofNat 32 qid) ∧ (qid < 2 ^ 20) ∧ (s.dev.MayUse req qid false q) ∧ (q.openp = none) ∧ (rp.val % 2 = 0) ∧ (v.getLsbD 62 = false) ∧ (q.level + 1 ≤ q.qd.depth) ∧ (s.dev.Stands tr l (wQ rp ra rd 0 0)) := by
  dsimp only
  exact ⟨by decide +kernel, by decide +kernel, by decide +kernel, ⟨by decide +kernel, by decide +kernel, by decide +kernel, noEvents_of _ _ (by decide +kernel)⟩, by decide +kernel, by decide +kernel, by decide +kernel, by decide +kernel, by unfold Dev.Stands; decide +kernel⟩

theorem witness_TriadQueueInstructions_2 :
    let s : State := wSplit (wQ 4 3 5 7 9) (tTrdPush none)
    let qid : Nat := 9
    let tr : Fin 4 := 0
    let l : Fin 6 := 1
    let rp : Fin 32 := 4
    let ra : Fin 32 := 3
    let rd : Fin 32 := 5
    let tmo : BitVec 8 := 9
    let q : Queue := tTrdPush none
    let x := (s.dev.unitLane tr l).core
    let req := unitReq tr l
    let v : Item := BitVec.ofNat 64 ((x.rd (rp.val + 1)).toNat * 2 ^ 32 + (x.rd rp).toNat)
    (l.val < 3) ∧ (x.rd ra = BitVec.ofNat 32 qid) ∧ (qid < 2 ^ 20) ∧ (s.dev.MayUse req qid false q) ∧ (q.openp = none) ∧ (rp.val % 2 = 0) ∧ (v.getLsbD 62 = false) ∧ (q.level + 1 ≤ q.qd.depth) ∧ (s.dev.Stands tr l (wQ rp ra rd 7 tmo.toNat)) := by
  dsimp only
  exact ⟨by decide +kernel, by decide +kernel, by decide +kernel, ⟨by decide +kernel, by decide +kernel, by decide +kernel, noEvents_of _ _ (by decide +kernel)⟩, by decide +kernel, by decide +kernel, by decide +kernel, by decide +kernel, by unfold Dev.Stands; decide +kernel⟩

theorem witness_TriadQueueInstructions_3 :
    let s : State := wSplit (wQ 4 3 5 6 0) (tTrdPush none)
    let qid : Nat := 9
    let tr : Fin 4 := 0
    let l : Fin 6 := 1
    let rp : Fin 32 := 4
    let ra : Fin 32 := 3
    let rd : Fin 32 := 5
    let q : Queue := tTrdPush none
    let x := (s.dev.unitLane tr l).core
    let req := unitReq tr l
    let v : Item := BitVec.ofNat 64 ((x.rd (rp.val + 1)).toNat * 2 ^ 32 + (x.rd rp).toNat)
    let v2 : Item := BitVec.ofNat 64 ((x.rd (rp.val + 3)).toNat * 2 ^ 32 + (x.rd (rp.val + 2)).toNat)
    (l.val < 3) ∧ (x.rd ra = BitVec.ofNat 32 qid) ∧ (qid < 2 ^ 20) ∧ (s.dev.MayUse req qid false q) ∧ (q.openp = none) ∧ (rp.val % 4 = 0) ∧ (v.getLsbD 62 = false) ∧ (v2.getLsbD 62 = false) ∧ (v2.getLsbD 61 = true) ∧ (q.level + 2 ≤ q.qd.depth) ∧ (s.dev.Stands tr l (wQ rp ra rd 6 0)) := by
  dsimp only
  exact ⟨by decide +kernel, by decide +kernel, by decide +kernel, ⟨by decide +kernel, by decide +kernel, by decide +kernel, noEvents_of _ _ (by decide +kernel)⟩, by decide +kernel, by decide +kernel, by decide +kernel, by decide +kernel, by decide +kernel, by decide +kernel, by unfold Dev.Stands; decide +kernel⟩

theorem witness_TriadQueueInstructions_4 :
    let s : State := wSplit (wQ 0 3 5 4 0) (tTrdPush (some tTrdOpen))
    let qid : Nat := 9
    let tr : Fin 4 := 0
    let l : Fin 6 := 1
    let ra : Fin 32 := 3
    let rd : Fin 32 := 5
    let q : Queue := tTrdPush (some tTrdOpen)
    let items : List Item := [tItem]
    let x := (s.dev.unitLane tr l).core
    let req := unitReq tr l
    (l.val < 3) ∧ (x.rd ra = BitVec.ofNat 32 qid) ∧ (qid < 2 ^ 20) ∧ (s.dev.MayUse req qid false q) ∧ (q.openp = some { req := req, items := items, discard := false, gone := false }) ∧ (s.dev.Stands tr l (wQ 0 ra rd 4 0)) := by
  dsimp only
  exact ⟨by decide +kernel, by decide +kernel, by decide +kernel, ⟨by decide +kernel, by decide +kernel, by decide +kernel, noEvents_of _ _ (by decide +kernel)⟩, by decide +kernel, by unfold Dev.Stands; decide +kernel⟩

theorem witness_TriadQueueInstructions_5 :
    let s : State := wSplit (wQ 0 3 5 5 0) (tTrdPush (some tTrdOpen))
    let qid : Nat := 9
    let tr : Fin 4 := 0
    let l : Fin 6 := 1
    let ra : Fin 32 := 3
    let rd : Fin 32 := 5
    let q : Queue := tTrdPush (some tTrdOpen)
    let items : List Item := [tItem]
    let x := (s.dev.unitLane tr l).core
    let req := unitReq tr l
    (l.val < 3) ∧ (x.rd ra = BitVec.ofNat 32 qid) ∧ (qid < 2 ^ 20) ∧ (s.dev.qf.qs.find qid = some q) ∧ (s.dev.NoEvents qid) ∧ (q.reading = none) ∧ (q.openp = some { req := req, items := items, discard := false, gone := false }) ∧ (s.dev.Stands tr l (wQ 0 ra rd 5 0)) := by
  dsimp only
  exact ⟨by decide +kernel, by decide +kernel, by decide +kernel, by decide +kernel, noEvents_of _ _ (by decide +kernel), by decide +kernel, by decide +kernel, by unfold Dev.Stands; decide +kernel⟩

theorem witness_TriadQueueInstructions_6 :
    let s : State := wSplit (wQ 4 3 5 1 0) (tTrdPop [.one tItem])
    let qid : Nat := 9
    let tr : Fin 4 := 0
    let l : Fin 6 := 1
    let rp : Fin 32 := 4
    let ra : Fin 32 := 3
    let rd : Fin 32 := 5
    let q : Queue := tTrdPop [.one tItem]
    let it : Item := tItem
    let us : List QUnit := []
    let x := (s.dev.unitLane tr l).core
    let req := unitReq tr l
    (l.val < 3) ∧ (x.rd ra = BitVec.ofNat 32 qid) ∧ (qid < 2 ^ 20) ∧ (s.dev.MayUse req qid true q) ∧ (q.reading = none) ∧ (q.units = .one it :: us) ∧ (rp.val % 2 = 0) ∧ (s.dev.Stands tr l (wQ rp ra rd 1 0)) := by
  dsimp only
  exact ⟨by decide +kernel, by decide +kernel, by decide +kernel, ⟨by decide +kernel, by decide +kernel, by decide +kernel, noEvents_of _ _ (by decide +kernel)⟩, by decide +kernel, by decide +kernel, by decide +kernel, by unfold Dev.Stands; decide +kernel⟩

theorem witness_TriadQueueInstructions_7 :
    let s : State := wSplit (wQ 4 3 5 2 9) (tTrdPop [.one tItem])
    let qid : Nat := 9
    let tr : Fin 4 := 0
    let l : Fin 6 := 1
    let rp : Fin 32 := 4
    let ra : Fin 32 := 3
    let rd : Fin 32 := 5
    let tmo : BitVec 8 := 9
    let q : Queue := tTrdPop [.one tItem]
    let it : Item := tItem
    let us : List QUnit := []
    let x := (s.dev.unitLane tr l).core
    let req := unitReq tr l
    (l.val < 3) ∧ (x.rd ra = BitVec.ofNat 32 qid) ∧ (qid < 2 ^ 20) ∧ (s.dev.MayUse req qid true q) ∧ (q.reading = none) ∧ (q.units = .one it :: us) ∧ (rp.val % 2 = 0) ∧ (s.dev.Stands tr l (wQ rp ra rd 2 tmo.toNat)) := by
  dsimp only
  exact ⟨by decide +kernel, by decide +kernel, by decide +kernel, ⟨by decide +kernel, by decide +kernel, by decide +kernel, noEvents_of _ _ (by decide +kernel)⟩, by decide +kernel, by decide +kernel, by decide +kernel, by unfold Dev.Stands; decide +kernel⟩

theorem witness_TriadQueueInstructions_8 :
    let s : State := wSplit (wQ 0 3 5 3 0) (tTrdPop [tPkt])
    let qid : Nat := 9
    let tr : Fin 4 := 0
    let l : Fin 6 := 1
    let ra : Fin 32 := 3
    let rd : Fin 32 := 5
    let q : Queue := tTrdPop [tPkt]
    let h : Item := 0xC040000000000000#64
    let items : List Item := [tItem, 0xA000000000000006#64]
    let us : List QUnit := []
    let x := (s.dev.unitLane tr l).core
    let req := unitReq tr l
    (l.val < 3) ∧ (x.rd ra = BitVec.ofNat 32 qid) ∧ (qid < 2 ^ 20) ∧ (s.dev.MayUse req qid true q) ∧ (q.reading = none) ∧ (q.units = .pkt h items :: us) ∧ (s.dev.Stands tr l (wQ 0 ra rd 3 0)) := by
  dsimp only
  exact ⟨by decide +kernel, by decide +kernel, by decide +kernel, ⟨by decide +kernel, by decide +kernel, by decide +kernel, noEvents_of _ _ (by decide +kernel)⟩, by decide +kernel, by decide +kernel, by unfold Dev.Stands; decide +kernel⟩

theorem witness_TripwireIsResetConfiguredAndTested_1 :
    let s : State := wTrwQuiet
    let req : Nat := 2
    let off : Nat := 0x70008
    (s.dev.Takes req) ∧ (isTrwCfg off = true) ∧ (s.dev.mode = .quiet) ∧ (isT0 req = false) ∧ (req ≠ 0x80) := by
  dsimp only
  exact ⟨by unfold Dev.Takes; decide +kernel, by decide +kernel, by decide +kernel, by decide +kernel, by decide +kernel⟩

theorem witness_TripwireIsResetConfiguredAndTested_2 :
    let s : State := wTrw
    let req : Nat := 2
    let off : Nat := 0x70028
    (s.dev.Takes req) ∧ (isTrwCfg off = true) ∧ (s.dev.mode ≠ .quiet ∨ isT0 req = true) := by
  dsimp only
  exact ⟨by unfold Dev.Takes; decide +kernel, by decide +kernel, by decide +kernel⟩

theorem witness_TripwireIsResetConfiguredAndTested_3 :
    let s : State := wLane0
    let req : Nat := 0x80
    (s.dev.Takes req) ∧ (req = 0x80) := by
  dsimp only
  exact ⟨by unfold Dev.Takes; decide +kernel, by decide +kernel⟩

theorem witness_TripwireIsResetConfiguredAndTested_4 :
    let s : State := wSfTx
    let t : Nat := 2000000
    ((begin_ t s.dev).sfDue = true) := by
  dsimp only
  decide +kernel

theorem witness_TripwireIsResetConfiguredAndTested_5 :
    let s : State := wTestReady
    let req : Nat := 2
    let str : Fin 256 := 0
    let cause (d : Dev) : Nat := d.rd Reg.TRW_STR_CAUSE_CAUSES str
    let x := s.dev.ts str
    (s.dev.Takes req) ∧ (s.dev.trw.test = none) ∧ (s.dev.mode = .run) ∧ (s.dev.actRole = true) ∧ (x.cur ≤ s.dev.rd Reg.TRW_CFG2_TEST_I * 100) ∧ (s.dev.rd Reg.TRW_STR_STAT_ADMITTED str = 1) ∧ (cause s.dev = 0) ∧ (s.dev.globalCauses = 0) ∧ (s.dev.rd Reg.TRW_STR_STAT_H_GRANT str = 1) ∧ (s.dev.rd Reg.TRW_STR_STAT_P_GRANT str = 1) ∧ (bitAt x.sfl 2 = true) ∧ (bitAt (s.dev.rd Reg.TRW_STR_STAT_CONTACT str) 0 = true) ∧ (bitAt (s.dev.rd Reg.TRW_STR_STAT_CONTACT str) 1 = true) := by
  dsimp only
  exact ⟨by unfold Dev.Takes; decide +kernel, by decide +kernel, by decide +kernel, by decide +kernel, by decide +kernel, by decide +kernel, by decide +kernel, by decide +kernel, by decide +kernel, by decide +kernel, by decide +kernel, by decide +kernel, by decide +kernel⟩

theorem witness_TripwireIsResetConfiguredAndTested_6 :
    let s : State := wTesting
    let req : Nat := 2
    let own_ : Nat := 900000
    let began : Nat := 900000
    let str : Fin 256 := 0
    (s.dev.Takes req) ∧ (s.dev.trw.test = some (str.val, own_, began)) := by
  dsimp only
  exact ⟨by unfold Dev.Takes; decide +kernel, by decide +kernel⟩

theorem witness_TripwireIsResetConfiguredAndTested_7 :
    let s : State := wTesting
    let t : Nat := 200000000000
    let own_ : Nat := 900000
    let began : Nat := 900000
    let str : Fin 256 := 0
    (s.dev.trw.test = some (str.val, own_, began)) ∧ (own_ + s.dev.testLimit ≤ s.dev.ownAt t) := by
  dsimp only
  decide +kernel

theorem witness_TripwireIsResetConfiguredAndTested_8 :
    let s : State := wTestDue
    let str : Fin 256 := 0
    let x := s.dev.ts str
    (s.dev.rd Reg.TRW_CFG2_TEST_DAYS ≠ 0) ∧ (s.dev.rd Reg.TRW_CFG2_TEST_DAYS * 86400 < s.dev.rd Reg.TRW_STR_TEST_AGE str) ∧ (x.due = false) ∧ ((s.dev.rl.headOf str).isSome = true) := by
  dsimp only
  decide +kernel

theorem witness_TripwireLatchesCauses_1 :
    let s : State := wTrw
    let port : Fin 128 := 0
    let ring : Fin 64 := 0
    let cyc : Nat := 7
    let pos : Nat := tPos
    let addr : Nat := 1
    let nt : Nat := 1
    let found : Nat := 5
    let codeErr : Bool := false
    let level : Bool := true
    let bad : Bool := false
    let frame : List Byte := tDataHigh
    let pay : List Byte := tSf 1 0
    let n : Rec := tNode1
    let x : Rec := tRec secPio 4 [(8, 1, 0), (10, 1, 1)]
    let j : Nat := 0
    let input : Fin 8 := 0
    let g := port.val / 2
    let set := s.dev.rl.tripSet (s.dev.rl.tripSetOf 0 n.ndRing (n.ndCellBase + j))
    let f := if input.val < 4 then Reg.TRW_GLOBAL_ESTOP else Reg.TRW_GLOBAL_FIRE
    (s.dev.rl.present g = true) ∧ (bitAt (s.dev.lr g).stopped (port % 2) = false) ∧ (codeErr = false) ∧ (crcOk frame = true) ∧ (nfLenOk frame = true) ∧ (nfType frame = 1) ∧ (nfState frame = 0) ∧ (s.dev.scheduled g cyc pos = some (nfAddr frame, 1)) ∧ ((s.dev.lr g).orig = true) ∧ (s.dev.trwTaken g cyc (nfAddr frame) 1 = false) ∧ (s.dev.rd Reg.TRW_STATUS_ACTIVE = 1) ∧ (s.dev.rl.node g (nfAddr frame) = some n) ∧ (n.ndString < 256) ∧ (j ∈ setBits n.ndCellMask 16) ∧ (cellOutside set (le (frame.take (frame.length - 4)) (2 + 2 * j) 2) = true) ∧ (set.tpPV ≤ min 16 (s.dev.trw.cnt.get (cntKey 0 n.ndRing (n.ndCellBase + j)) 0 + 1)) ∧ ((s.dev.lr ring).orig = true) ∧ (s.dev.rl.node ring addr = some n) ∧ (s.dev.trwTaken ring cyc addr nt = false) ∧ (nt = 1 ∨ nt = 2 ∨ nt = 4) ∧ (s.dev.rl.pick secPio 4 (fun y => y.u8 8 == input.val) = some x) ∧ ((level != (x.u8 9 == 1)) = true) ∧ (x.u8 10 = 1) ∧ (s.dev.rd f = 0) ∧ (s.dev.rd Reg.TRW_CFG0_SF_EN = 1) ∧ (pay.length = 64) ∧ (le pay 0 2 = 0x4653) ∧ (byteAt pay 2 = 1) ∧ (crc32c (pay.take 60) = le pay 60 4) ∧ (le pay 8 8 = s.dev.rd2 Reg.TRW_SF_SENDER_LO_SENDER Reg.TRW_SF_SENDER_HI_SENDER) ∧ (s.dev.trw.sfSeq = none) ∧ (s.dev.trw.sfs = []) ∧ (byteAt pay 3 = 1) ∧ (s.dev.reel.isSome = true) ∧ (s.dev.mainOn = true) ∧ (s.dev.mode ≠ .halt) ∧ (bad = true ∨ found % 2 ^ 32 ≠ s.dev.rd Reg.TRW_STORE_CRC_CRC) := by
  dsimp only
  decide +kernel

theorem witness_TripwireLatchesCauses_2 :
    let s : State := wTrw
    let t : Nat := 20950000
    let port : Fin 128 := 1
    let codeErr : Bool := true
    let frame : List Byte := []
    let pay : List Byte := tSf 2 1
    let g := port.val / 2
    (s.dev.rl.present g = true) ∧ (bitAt (s.dev.lr g).stopped (port % 2) = false) ∧ (codeErr = true ∨ crcOk frame = false) ∧ (s.dev.rd Reg.TRW_CFG0_SF_EN = 1) ∧ (s.dev.rd Reg.TRW_STATUS_ACTIVE = 1) ∧ (pay.length = 64) ∧ (le pay 0 2 = 0x4653) ∧ (byteAt pay 2 = 1) ∧ (crc32c (pay.take 60) = le pay 60 4) ∧ (le pay 8 8 = s.dev.rd2 Reg.TRW_SF_SENDER_LO_SENDER Reg.TRW_SF_SENDER_HI_SENDER) ∧ (s.dev.trw.sfSeq = none) ∧ (s.dev.trw.sfs = []) ∧ (byteAt pay 3 = 2) ∧ (s.dev.trw.hbAt + max 1 (s.dev.rd Reg.TRW_CFG0_SF_TIMEOUT) * 1000000 ≤ s.dev.ownAt t) ∧ (s.dev.rd Reg.TRW_GLOBAL_SF_TIMEOUT = 0) := by
  dsimp only
  decide +kernel

theorem witness_TripwireLatchesCauses_3 :
    let s : State := wTrw
    let found : Nat := 0
    let bad : Bool := false
    let pay : List Byte := [1]
    (s.dev.rd Reg.TRW_CFG0_SF_EN = 1) ∧ (s.dev.rd Reg.TRW_STATUS_ACTIVE = 1) ∧ (crc32c (pay.take 60) ≠ le pay 60 4) ∧ (s.dev.reel.isSome = true) ∧ (s.dev.mainOn = true) ∧ (s.dev.mode ≠ .halt) ∧ (bad = false) ∧ (found % 2 ^ 32 = s.dev.rd Reg.TRW_STORE_CRC_CRC) := by
  dsimp only
  decide +kernel

theorem witness_TripwireLatchesCauses_4 :
    let s : State := wEstop
    let level : Bool := false
    let x : Rec := tRec secPio 4 [(8, 1, 0), (10, 1, 1)]
    let input : Fin 8 := 0
    (s.dev.rl.pick secPio 4 (fun y => y.u8 8 == input.val) = some x) ∧ ((level != (x.u8 9 == 1)) = false) := by
  dsimp only
  decide +kernel

theorem witness_TripwireLatchesCauses_5 :
    let s : State := wSfOld
    let t : Nat := 20000000
    let seq : Nat := 9
    let c : SfCopy := tSfCopy
    (s.dev.trw.sfs.find? (fun y => y.seq == seq) = some c) ∧ (c.paired = false) ∧ (c.closed = false) ∧ (c.at_ + max 1 (s.dev.rd Reg.TRW_CFG0_SF_WINDOW) * 1000000 ≤ s.dev.ownAt t) := by
  dsimp only
  decide +kernel

theorem witness_TripwireLatchesCauses_6 :
    let s : State := wFb
    let t : Nat := 990000000
    let a : Nat := 0
    let k : Fin 6 := 1
    (s.dev.trw.fbAt.find k = some a) ∧ (bitAt (s.dev.rd Reg.TRW_CFG1_FB_EN) k = true) ∧ (bitAt s.dev.tripLevels k ≠ bitAt (s.dev.rd Reg.TRW_OUT_STAT_FB_LEVEL) k) ∧ (bitAt (s.dev.rd Reg.TRW_OUT_STAT_MISMATCH) k = false) ∧ (a + s.dev.rd Reg.TRW_CFG1_FB_DELAY * 1000000 ≤ s.dev.ownAt t) := by
  dsimp only
  decide +kernel

theorem witness_VectorsKeysAndSessions_1 :
    let s : State := wMsix [.one 1] 0
    let req : Nat := 2
    let n : Fin 64 := 5
    (s.dev.Takes req) ∧ (s.dev.host.pend = []) ∧ (s.dev.msixCond n = true) ∧ (s.dev.rd Reg.GLB_KEY_STAT_BUSY = 0) ∧ (s.dev.mode = .dark ∨ s.dev.mode = .quiet ∨ s.dev.mode = .run) := by
  dsimp only
  exact ⟨by unfold Dev.Takes; decide +kernel, by decide +kernel, by decide +kernel, by decide +kernel, by decide +kernel⟩

theorem witness_VectorsKeysAndSessions_2 :
    let s : State := wMsix [] 0
    let req : Nat := 2
    let n : Fin 64 := 5
    (s.dev.Takes req) ∧ (s.dev.host.pend = []) ∧ (s.dev.msixCond n = false) := by
  dsimp only
  exact ⟨by unfold Dev.Takes; decide +kernel, by decide +kernel, by decide +kernel⟩

theorem witness_VectorsKeysAndSessions_3 :
    let s : State := wMsix [.one 1] 1
    let n : Fin 64 := 5
    (s.dev.host.pend = []) ∧ (s.dev.rd Reg.GLB_MSIX_ARM_ARM n = 1) ∧ (s.dev.msixCond n = true) := by
  dsimp only
  decide +kernel

theorem witness_VectorsKeysAndSessions_4 :
    let s : State := wKeyReq
    let key : Nat := 3
    let op : Nat := 0
    (s.dev.host.keyReq = some (key, op)) := by
  dsimp only
  decide +kernel

theorem witness_VectorsKeysAndSessions_5 :
    let s : State := wCwp (tCwp 1 3 1 5 9 [])
    let p : Fin 4 := 0
    let m : CwpMsg := tMsg (tCwp 1 3 1 5 9 [])
    let rest : List CwpMsg := []
    let b := m.bytes
    (s.dev.host.waiting.get p [] = m :: rest) ∧ (cwpKind b = 1) ∧ (cwpFormat b = none) := by
  dsimp only
  decide +kernel

theorem witness_VectorsKeysAndSessions_6 :
    let s : State := wCwp ((tReq1 5).take 55 ++ [1#8])
    let p : Fin 4 := 0
    let m : CwpMsg := tMsg ((tReq1 5).take 55 ++ [1#8])
    let rest : List CwpMsg := []
    let c : PortCfg := tPortCfg
    let ops : List CwpOp := [{ op := 1, count := 1, addr := 0x60018, data := [] }]
    let b := m.bytes
    (s.dev.host.waiting.get p [] = m :: rest) ∧ (cwpFormat b = some ops) ∧ (s.dev.portCfg p = some c) ∧ (cwpKind b = 1) ∧ (s.dev.cwpAuth c b = none) := by
  dsimp only
  decide +kernel

theorem witness_VectorsKeysAndSessions_7 :
    let s : State := wCwp (tCwp 3 0 0 5 0 [])
    let key : Nat := 0xFF
    let sid : Nat := 0
    let p : Fin 4 := 0
    let m : CwpMsg := tMsg (tCwp 3 0 0 5 0 [])
    let rest : List CwpMsg := []
    let c : PortCfg := tPortCfg
    let ops : List CwpOp := []
    let b := m.bytes
    (s.dev.host.waiting.get p [] = m :: rest) ∧ (cwpFormat b = some ops) ∧ (s.dev.portCfg p = some c) ∧ (s.dev.cwpAuth c b = some key) ∧ (cwpKind b = 3) ∧ (s.dev.cwpSame m = none) ∧ ((if cwpProt b then (List.range 16).map (fun k => 48 + k) else List.range 48).find? (fun k => (s.dev.host.sess.find k).isNone) = some sid) := by
  dsimp only
  decide +kernel

theorem witness_VectorsKeysAndSessions_8 :
    let s : State := wCwp (tCwp 5 3 0 5 9 [])
    let key : Nat := 0xFF
    let p : Fin 4 := 0
    let m : CwpMsg := tMsg (tCwp 5 3 0 5 9 [])
    let rest : List CwpMsg := []
    let c : PortCfg := tPortCfg
    let x : Session := tSession
    let ops : List CwpOp := []
    let b := m.bytes
    let ahead := (cwpSeq b + 2 ^ 32 - x.seq) % 2 ^ 32
    (s.dev.host.waiting.get p [] = m :: rest) ∧ (cwpFormat b = some ops) ∧ (s.dev.portCfg p = some c) ∧ (s.dev.cwpAuth c b = some key) ∧ (cwpSession b < 64) ∧ (s.dev.host.sess.find (cwpSession b) = some x) ∧ (Dev.cwpFits c p m x = true) ∧ (cwpKind b = 5) ∧ (ahead ≠ 0) ∧ (ahead < 2 ^ 31) := by
  dsimp only
  decide +kernel

theorem witness_VectorsKeysAndSessions_9 :
    let s : State := wCwp (tReq1 4)
    let key : Nat := 0xFF
    let p : Fin 4 := 0
    let m : CwpMsg := tMsg (tReq1 4)
    let rest : List CwpMsg := []
    let c : PortCfg := tPortCfg
    let x : Session := tSession
    let ops : List CwpOp := [{ op := 1, count := 1, addr := 0x60018, data := [] }]
    let b := m.bytes
    let ahead := (cwpSeq b + 2 ^ 32 - x.seq) % 2 ^ 32
    (s.dev.host.waiting.get p [] = m :: rest) ∧ (cwpFormat b = some ops) ∧ (s.dev.portCfg p = some c) ∧ (s.dev.cwpAuth c b = some key) ∧ (cwpSession b < 64) ∧ (s.dev.host.sess.find (cwpSession b) = some x) ∧ (Dev.cwpFits c p m x = true) ∧ (cwpKind b = 1) ∧ (ahead = 0) := by
  dsimp only
  decide +kernel

theorem witness_VectorsKeysAndSessions_10 :
    let s : State := wCwp (tReq1 5)
    let t : Nat := 2000000
    let key : Nat := 0xFF
    let op : Nat := 0
    let off : Nat := 0x60018
    let p : Fin 4 := 0
    let m : CwpMsg := tMsg (tReq1 5)
    let rest : List CwpMsg := []
    let c : PortCfg := tPortCfg
    let x : Session := tSession
    let ops : List CwpOp := [{ op := 1, count := 1, addr := 0x60018, data := [] }]
    let b := m.bytes
    let ahead := (cwpSeq b + 2 ^ 32 - x.seq) % 2 ^ 32
    (s.dev.host.waiting.get p [] = m :: rest) ∧ (cwpFormat b = some ops) ∧ (s.dev.portCfg p = some c) ∧ (s.dev.cwpAuth c b = some key) ∧ (cwpSession b < 64) ∧ (s.dev.host.sess.find (cwpSession b) = some x) ∧ (Dev.cwpFits c p m x = true) ∧ (cwpKind b = 1) ∧ (ahead ≠ 0) ∧ (ahead < 2 ^ 31) ∧ (ops = [{ op := 1, count := 1, addr := off, data := [] }]) ∧ (s.dev.mode ≠ .dark) ∧ (off % 4 = 0) ∧ (off < 0x1000000) ∧ ((begin_ t s.dev).freeWord off = none) ∧ (fullTimeAt off = none) ∧ (wideAt off = none) := by
  dsimp only
  decide +kernel

theorem witness_VectorsKeysAndSessions_11 :
    let s : State := wCwp []
    let t : Nat := 20000000000000
    let sess : Fin 64 := 3
    let x : Session := tSession
    (s.dev.host.sess.find sess = some x) ∧ (x.at_ + s.dev.idleNs ≤ s.dev.ownAt t) := by
  dsimp only
  decide +kernel

theorem witness_VoterExcludesAndHalts_1 :
    let s : State := wVote 1 1 1 {} []
    let tr : Fin 4 := 1
    let a : CEntry := tCEntry 1 5
    let b : CEntry := tCEntry 2 5
    let c : CEntry := tCEntry 3 6
    let k := 2
    (s.dev.unitRuns tr 0 = true) ∧ (s.dev.voters tr = [1, 2, 3]) ∧ (a.lane = 1) ∧ (b.lane = 2) ∧ (c.lane = 3) ∧ (entriesAgree a b = true) ∧ (entriesAgree a c = false) ∧ (1 ≤ k) ∧ (k ≤ 3) := by
  dsimp only
  decide +kernel

theorem witness_VoterExcludesAndHalts_2 :
    let s : State := wVote 1 1 1 {} []
    let tr : Fin 4 := 1
    let a : CEntry := tCEntry 1 5
    let b : CEntry := tCEntry 2 7
    let c : CEntry := tCEntry 3 6
    (s.dev.unitRuns tr 0 = true) ∧ (s.dev.voters tr = [1, 2, 3]) ∧ (a.lane = 1) ∧ (b.lane = 2) ∧ (c.lane = 3) ∧ (entriesAgree a b = false) ∧ (entriesAgree a c = false) ∧ (entriesAgree b c = false) := by
  dsimp only
  decide +kernel

theorem witness_VoterExcludesAndHalts_3 :
    let s : State := wVote 1 1 2 {} []
    let tr : Fin 4 := 1
    let a : CEntry := tCEntry 1 5
    let b : CEntry := tCEntry 2 7
    (s.dev.unitRuns tr 0 = true) ∧ (s.dev.voters tr = [1, 2]) ∧ (a.lane = 1) ∧ (b.lane = 2) ∧ (entriesAgree a b = false) := by
  dsimp only
  decide +kernel

theorem witness_WatchIslandAndDebugPort_1 :
    let s : State := wIsland {} []
    let t : Nat := 3000000
    let pin : Fin 4 := 1
    let port : Fin 128 := 7
    let b := begin_ t s.dev
    let inst := b.rtcNow / 1000000000 / s.dev.dailyInt * s.dev.dailyInt
    (s.dev.mode = .standby ∨ s.dev.mode = .watch) ∧ (bitAt (s.dev.rd Reg.WCH_WAKE_CFG_EN) pin = true) ∧ (s.dev.rd Reg.WCH_ALARM_CTRL_EN = 1) ∧ (b.rtcNow / 1000000000 % 2 ^ 32 = s.dev.rd Reg.WCH_ALARM_SEC) ∧ (s.dev.mode ≠ .off) ∧ (s.dev.mode = .watch) ∧ (s.dev.toneOn port = true) ∧ (s.dev.mode = .watch ∨ s.dev.mainOn = true) ∧ (s.dev.wch.daily ≠ some inst) ∧ (s.dev.wch.busy ≤ s.dev.ownAt t) := by
  dsimp only
  decide +kernel

theorem witness_WatchIslandAndDebugPort_2 :
    let s : State := wIsland { y := [(0, 25600)] } [(Reg.WCH_ADC_CFG_SHIFT, 0, 0, 3)]
    let t : Nat := 90000003000000
    (s.dev.mode = .watch) ∧ (60 < s.dev.dailyInt) ∧ (s.dev.wch.corrAt + 60000000000 ≤ s.dev.ownAt t) := by
  dsimp only
  decide +kernel

theorem witness_WatchIslandAndDebugPort_3 :
    let s : State := wIsland { busy := 4000000 } []
    let t : Nat := 3000000
    let b := begin_ t s.dev
    let inst := b.rtcNow / 1000000000 / s.dev.dailyInt * s.dev.dailyInt
    (s.dev.mode = .watch ∨ s.dev.mainOn = true) ∧ (s.dev.wch.daily ≠ some inst) ∧ (s.dev.ownAt t < s.dev.wch.busy) := by
  dsimp only
  decide +kernel

theorem witness_WatchIslandAndDebugPort_4 :
    let s : State := wTimed
    let t : Nat := 3000000
    let req : Nat := 2
    let dbg : Bool := false
    (s.dev.Takes req) ∧ (s.dev.mainOn = true) ∧ (s.dev.rd Reg.TB_STATUS_TIME_VALID = 1) ∧ ((∀ a, s.dev.wch.rtcSet = some a → a + 1000000000 ≤ s.dev.ownAt t)) ∧ (dbg = false ∨ s.dev.mode ≠ .dark) := by
  dsimp only
  exact ⟨by unfold Dev.Takes; decide +kernel, by decide +kernel, by decide +kernel, all_some (by decide +kernel), by decide +kernel⟩

theorem witness_WatchIslandAndDebugPort_5 :
    let s : State := wDarkPort
    let dbg : Bool := true
    (s.dev.mainOn = true) ∧ (dbg = true ∧ s.dev.mode = .dark) := by
  dsimp only
  decide +kernel

theorem witness_WatchdogAndBusLock_1 :
    let s : State := wVote 1 1 1 {} [(Reg.TRD_WDOG_PERIOD, 1, 0, 1)]
    let t : Nat := 9000000
    let req : Nat := 2
    let tr : Fin 4 := 1
    let l : Fin 3 := 0
    (s.dev.Takes req) ∧ (s.dev.reqOk (unitReq tr l) = true) ∧ (s.dev.unitRuns tr l = true) ∧ (s.dev.rd Reg.TRD_WDOG_PERIOD tr ≠ 0) ∧ ((s.dev.tri tr).kick.get l 0 + s.dev.rd Reg.TRD_WDOG_PERIOD tr * 1000 ≤ s.dev.ownAt t) := by
  dsimp only
  exact ⟨by unfold Dev.Takes; decide +kernel, by decide +kernel, by decide +kernel, by decide +kernel, by decide +kernel⟩

theorem witness_WatchdogAndBusLock_2 :
    let s : State := wBusHeld 0
    let t : Nat := 2000000000
    let tr : Fin 4 := 0
    let l : Fin 3 := 1
    let b : BusLock := tBusLock
    (s.dev.trd.lock = some b) ∧ (b.req = unitReq tr l) ∧ (64 ≤ b.n ∨ b.at_ + 2000 ≤ s.dev.ownAt t) := by
  dsimp only
  decide +kernel

theorem witness_WrapRunsToItsEnd_1 :
    let s : State := wGaf {} [(Reg.GAF_HOLDUP_HOLDUP, 0, 0, 300)]
    (s.dev.mode = .run) ∧ (s.dev.rd Reg.GAF_HOLDUP_HOLDUP ≠ 0) := by
  dsimp only
  decide +kernel

theorem witness_WrapRunsToItsEnd_2 :
    let s : State := wGaf {} [(Reg.GAF_HOLDUP_HOLDUP, 0, 0, 0)]
    let g := s.dev.gaf
    (s.dev.mode = .run) ∧ (s.dev.rd Reg.GAF_HOLDUP_HOLDUP = 0) ∧ (g.immediate = none) := by
  dsimp only
  decide +kernel

theorem witness_WrapRunsToItsEnd_3 :
    let s : State := wIsland {} []
    (s.dev.live = false) := by
  dsimp only
  decide +kernel

theorem witness_WrapRunsToItsEnd_4 :
    let s : State := wWrap {} {} []
    let str : Fin 256 := 5
    let w : WrapRun := tWrap {}
    let x : WString := {}
    let g := s.dev.gaf
    (g.wrap = some w) ∧ (w.strings.find str = some x) ∧ (x.st = .ramp) ∧ (s.dev.permitted str = false) := by
  dsimp only
  decide +kernel

theorem witness_WrapRunsToItsEnd_5 :
    let s : State := wWrap {} { curAt := 950000, curOk := true, cur := 0 } tGranted
    let str : Fin 256 := 5
    let w : WrapRun := tWrap {}
    let x : WString := {}
    let g := s.dev.gaf
    let ts := s.dev.ts str
    let calm (since : Nat) : Prop := since ≤ ts.curAt ∧ ts.curOk = true ∧ ts.cur ≤ max 1 (s.dev.rd Reg.GAF_WRAP_CFG_ZERO_I) * 100
    (g.wrap = some w) ∧ (w.strings.find str = some x) ∧ (x.st = .ramp) ∧ (s.dev.permitted str = true) ∧ (calm w.start) := by
  dsimp only
  decide +kernel

theorem witness_WrapRunsToItsEnd_6 :
    let s : State := wWrap { st := .held } {} []
    let str : Fin 256 := 5
    let w : WrapRun := tWrap { st := .held }
    let x : WString := { st := .held }
    let g := s.dev.gaf
    (g.wrap = some w) ∧ (w.strings.find str = some x) ∧ (x.st = .held) ∧ (s.dev.permitted str = false) := by
  dsimp only
  decide +kernel

theorem witness_WrapRunsToItsEnd_7 :
    let s : State := wWrap { st := .held, hold := some 1000 } { curAt := 2950000, curOk := true, cur := 0 } tGranted
    let o : Nat := 1000
    let str : Fin 256 := 5
    let w : WrapRun := tWrap { st := .held, hold := some 1000 }
    let x : WString := { st := .held, hold := some 1000 }
    let g := s.dev.gaf
    let ts := s.dev.ts str
    let calm (since : Nat) : Prop := since ≤ ts.curAt ∧ ts.curOk = true ∧ ts.cur ≤ max 1 (s.dev.rd Reg.GAF_WRAP_CFG_ZERO_I) * 100
    (g.wrap = some w) ∧ (w.strings.find str = some x) ∧ (x.st = .held) ∧ (s.dev.permitted str = true) ∧ (x.hold = some o) ∧ (calm (o + 2000000)) := by
  dsimp only
  decide +kernel

theorem witness_WrapRunsToItsEnd_8 :
    let s : State := wWrap { st := .opening } {} [(Reg.TRW_STR_CAUSE_CAUSES, 5, 0, 16)]
    let str : Fin 256 := 5
    let w : WrapRun := tWrap { st := .opening }
    let x : WString := { st := .opening }
    let g := s.dev.gaf
    (g.wrap = some w) ∧ (w.strings.find str = some x) ∧ (x.st = .opening) ∧ (bitAt (s.dev.rd Reg.TRW_STR_CAUSE_CAUSES str) cMissing = true) := by
  dsimp only
  decide +kernel

theorem witness_WrapRunsToItsEnd_9 :
    let s : State := wWrap { st := .opening, openAt := some (1000, 1000) } { statAt := 2950000 } []
    let t : Nat := 300000000
    let i : Nat := 1000
    let o : Nat := 1000
    let str : Fin 256 := 5
    let w : WrapRun := tWrap { st := .opening, openAt := some (1000, 1000) }
    let x : WString := { st := .opening, openAt := some (1000, 1000) }
    let g := s.dev.gaf
    let ts := s.dev.ts str
    (g.wrap = some w) ∧ (w.strings.find str = some x) ∧ (x.st = .opening) ∧ (bitAt (s.dev.rd Reg.TRW_STR_CAUSE_CAUSES str) cMissing = false) ∧ (x.openAt = some (i, o)) ∧ (i + 2000000 ≤ ts.statAt) ∧ (s.dev.rd Reg.TRW_STR_STAT_CONTACT str % 4 = 0) ∧ (o + 100000000 ≤ s.dev.ownAt t) := by
  dsimp only
  decide +kernel

theorem witness_WrapRunsToItsEnd_10 :
    let s : State := wWrap {} {} []
    let t : Nat := 9000000000
    let w : WrapRun := tWrap {}
    let g := s.dev.gaf
    (g.wrap = some w) ∧ (w.own0 + max 1 (s.dev.rd Reg.GAF_WRAP_CFG_HOLD_T) * 1000000 ≤ s.dev.ownAt t) ∧ (s.dev.mode = .wrap) ∧ (w.sleep = 0) ∧ (g.immediate = none) ∧ (w.endAt ≤ s.dev.ownAt t) := by
  dsimp only
  decide +kernel

theorem witness_WrapRunsToItsEnd_11 :
    let s : State := wGaf { immediate := some (4, 0, 7) } []
    let t : Nat := 3000000
    let c : Nat := 4
    let last : Nat := 7
    let g := s.dev.gaf
    let k := cycleOf (s.dev.nowAt t)
    (s.dev.mainOn = true) ∧ (s.dev.mode ≠ .halt) ∧ (last < k) ∧ (g.immediate = some (c, 0, last)) := by
  dsimp only
  decide +kernel

theorem witness_WrapRunsToItsEnd_12 :
    let s : State := wGaf { immediate := some (4, 1, 7) } []
    let t : Nat := 3000000
    let c : Nat := 4
    let last : Nat := 7
    let g := s.dev.gaf
    let k := cycleOf (s.dev.nowAt t)
    (s.dev.mainOn = true) ∧ (s.dev.mode ≠ .halt) ∧ (last < k) ∧ (g.immediate = some (c, 1, last)) := by
  dsimp only
  decide +kernel

/-! ### The load checks on that image, whose SHA-384 Lean cannot evaluate (assumption log 3) -/

theorem load_blocks : inOrder [tLoad] = [tLoad] ∧ checkBlocks [tLoad] = none := by
  refine ⟨by decide +kernel, ?_⟩
  simp only [checkBlocks, blkCrcOk, crc_eq]
  decide +kernel
/-- The image byte stream of its block. -/
def tX : List Byte := ([tImage, toLe 0x4E474953 4, [0xFF#8, 0#8, 0#8, 0#8], padTo tHash 48, List.replicate 1864 0#8] : List (List Byte)).flatten
theorem load_image : imageOf [tLoad] = tX := by decide +kernel
theorem load_header : checkHeader [tLoad] tX = none := by decide +kernel
theorem load_take : tX.take (imgLen tX) = tImage := by decide +kernel
theorem load_sig (h : Config.sha384 tImage = tHash) : checkSignature {} tX = none := by
  unfold checkSignature
  simp only
  rw [load_take, h]
  decide +kernel
theorem load_dir : checkDir tX = none := by
  simp only [checkDir, crc_eq]
  decide +kernel
theorem load_recs : checkRecords tX = none := by decide +kernel
/-- The structure that the image describes. -/
def tLoaded : Reel := reelOf tX
theorem tLoaded_eq : reelOf tX = tLoaded := by rw [tLoaded]
theorem load_struct1 : (checkQueues tX tLoaded <|> checkPolicy tX tLoaded <|> checkCycle tX tLoaded <|> checkConsumer tX tLoaded <|> checkRoutes tX tLoaded <|> checkRealm tX tLoaded <|> checkRole tX tLoaded 0) = none := by decide +kernel
theorem load_struct2 : (checkRing tX tLoaded <|> checkRate tX tLoaded <|> checkCoverage tX tLoaded <|> checkLoops tX tLoaded <|> checkProg tX tLoaded) = none := by decide +kernel
theorem load_struct3 : (checkLimits tX tLoaded <|> checkSplice tX tLoaded) = none := by decide +kernel
theorem reelLoad_ok {o : Otp} {n : Nat} {bs : List (List Byte)} {x : List Byte} {s : Reel} (h0 : inOrder bs = bs ∧ checkBlocks bs = none) (hx : imageOf bs = x) (h1 : checkHeader bs x = none)
    (h2 : checkSignature o x = none) (h3 : checkDir x = none) (h4 : checkRecords x = none) (hs : reelOf x = s)
    (a : (checkQueues x s <|> checkPolicy x s <|> checkCycle x s <|> checkConsumer x s <|> checkRoutes x s <|> checkRealm x s <|> checkRole x s n) = none)
    (b : (checkRing x s <|> checkRate x s <|> checkCoverage x s <|> checkLoops x s <|> checkProg x s) = none) (c : (checkLimits x s <|> checkSplice x s) = none) :
    reelLoad o n bs = .inl s := by
  subst hs
  simp only [Option.orElse_eq_orElse, Option.orElse_eq_or, Option.or_eq_none_iff] at a b c
  unfold reelLoad
  simp [h0.1, h0.2, hx, h1, h2, h3, h4, a, b, c]

theorem load_ok (h : Config.sha384 tImage = tHash) : reelLoad {} 0 [tLoad] = .inl tLoaded :=
  reelLoad_ok load_blocks load_image load_header (load_sig h) load_dir load_recs tLoaded_eq load_struct1 load_struct2 load_struct3

/-- A device whose slot 1 holds the given blocks. -/
def tLoadSlot (bs : List (List Byte)) (d : Dev) (i : Img) : Dev := { d with img := { i with slots := [(1, { st := .valid, blocks := bs })] } }
theorem load_slot_of {bs : List (List Byte)} {s : Reel} (hl : reelLoad {} 0 bs = .inl s) (d : Dev) (i : Img) (ha : d.devAddr = 0) (ho : i.otp = {}) :
    (tLoadSlot bs d i).loadSlot 1 false = .inl s := by
  have e1 : (tLoadSlot bs d i).img.otp = i.otp := rfl
  have e2 : (tLoadSlot bs d i).devAddr = d.devAddr := rfl
  have e3 : ((tLoadSlot bs d i).slot 1).blocks = bs := rfl
  unfold Dev.loadSlot
  rw [e1, e2, e3, ho, ha]
  exact hl
/-- A device whose slot 1 holds that image. -/
def tLoadDev (d : Dev) (i : Img) : Dev := tLoadSlot [tLoad] d i
theorem load_slot (h : Config.sha384 tImage = tHash) (d : Dev) (i : Img) (ha : d.devAddr = 0) (ho : i.otp = {}) : (tLoadDev d i).loadSlot 1 false = .inl tLoaded :=
  load_slot_of (load_ok h) d i ha ho

def wLoadBoot : State := tSt (tLoadDev (tBare .boot) { boot := some [1] })
theorem witness_BootLoadsAndEntersRun_load (h : Config.sha384 tImage = tHash) :
    let s := wLoadBoot
    s.dev.mode = .boot ∧ s.dev.img.loaded = none ∧ s.dev.img.boot = some [1] ∧ 1 < 2 ∧ (s.dev.slot 1).st = .valid ∧ s.dev.loadSlot 1 false = .inl tLoaded :=
  ⟨rfl, rfl, rfl, by decide, rfl, load_slot h _ _ (by decide +kernel) rfl⟩
def wLoadCut : State := tSt (tLoadDev (tSolo .run []) { cut := some { slot := 1, time := 9000000 } })
theorem witness_ScheduledCutOver_load (h : Config.sha384 tImage = tHash) :
    let s := wLoadCut
    let c : Cut := { slot := 1, time := 9000000 }
    s.dev.img.cut = some c ∧ s.dev.mode = .run ∧ c.shadow = none ∧ s.dev.loadSlot c.slot false = .inl tLoaded ∧ s.dev.nowAt 2000000 + 1000000 ≤ c.time :=
  ⟨rfl, rfl, rfl, load_slot h _ _ (by decide +kernel) rfl, by decide +kernel⟩
def wLoadAct (m : DevState) (force : Bool) : State := tSt (tLoadDev (tSolo m []) { act := some { slot := 1, force := force } })
theorem witness_ActivationAndEndOfWrap_load (h : Config.sha384 tImage = tHash) :
    let s := wLoadAct .quiet false
    let a : Activate := { slot := 1, force := false }
    s.dev.img.act = some a ∧ (s.dev.mode = .dark ∨ s.dev.mode = .quiet) ∧ s.dev.loadSlot a.slot false = .inl tLoaded :=
  ⟨rfl, .inr rfl, load_slot h _ _ (by decide +kernel) rfl⟩
theorem witness_ActivationAndEndOfWrap_force (h : Config.sha384 tImage = tHash) :
    let s := wLoadAct .run true
    let a : Activate := { slot := 1, force := true }
    s.dev.img.act = some a ∧ s.dev.mode = .run ∧ a.force = true ∧ a.shadow = none ∧ s.dev.loadSlot a.slot false = .inl tLoaded ∧ s.dev.sin.switchWrap = none :=
  ⟨rfl, rfl, rfl, rfl, load_slot h _ _ (by decide +kernel) rfl, rfl⟩
/-! ### The instruction statements: lane A of triad 0, split, at its word -/

/-- The lane stands at any word at address 0. -/
theorem isa_stands (c : Core) (w : Word) (hp : c.pc = 0#32) (hw : c.wait = none) : (wIsa c w).dev.Stands 0 1 w := by
  have hm : (wIsa c w).dev.members 0 1 = [1] := rfl
  have hl : (wIsa c w).dev.lane 0 1 = { core := c, itcm := [(0, w)], dtcm := [(0, 0x8182F384#32)] } := rfl
  have hu : (wIsa c w).dev.unitLane 0 1 = { core := c, itcm := [(0, w)], dtcm := [(0, 0x8182F384#32)] } := rfl
  have hr : (wIsa c w).dev.unitRuns 0 1 = true := by
    have e : (wIsa c w).dev.unitRuns 0 1 = (wIsa {} 0#32).dev.unitRuns 0 1 := rfl
    rw [e]; decide +kernel
  have hq : (wIsa c w).dev.qf.lanes.find (unitReq 0 1) = none := rfl
  unfold Dev.Stands
  rw [hr, hu, hm]
  refine ⟨rfl, ?_, ?_, ?_⟩
  · unfold Dev.unitWaits; rw [hu, hq]; simp [hw]
  · simp [Lane.fetch, hp, Tbl.get]
  · intro k hk
    rw [List.mem_singleton.mp hk, hl]
    simp

theorem isa_core (c : Core) (w : Word) : ((wIsa c w).dev.unitLane 0 1).core = c := rfl

/-- A core with every trap enabled. -/
def tTrapCore : Core := { tCore false with trapen := 14 }
/-- The core with an address in g10. -/
def tAt (a : Word) : Core := { tCore false with g := [(10, a)] }
/-- The core with a latched full time. -/
def tLatched : Core := { tCore false with tbr := some 5000000000 }

theorem witness_ArithmeticAndLogic : ∀ (fn : Nat) (rd ra rb : Fin 32), let s := wIsa (tCore false) (wR 0 rd ra rb fn); s.dev.Stands 0 1 (wR 0 rd ra rb fn) :=
  fun _ _ _ _ => isa_stands _ _ rfl rfl
theorem witness_ImmediateInstructions : ∀ (op : Nat) (rd ra : Fin 32) (imm : Nat), let s := wIsa (tCore false) (wI op rd ra imm); s.dev.Stands 0 1 (wI op rd ra imm) :=
  fun _ _ _ _ => isa_stands _ _ rfl rfl

/-- `ADDO`, `SUBO`, `NEG`, `ABS`, `DIV` and `REM` without a trap, and with an enabled flag: overflow, or division by zero. -/
theorem witness_ArithmeticThatSetsFlags_1 : ∀ fn : Nat,
    let w := wR 0 4 1 2 fn
    let s := wIsa (tCore false) w
    let x := (s.dev.unitLane 0 1).core
    s.dev.Stands 0 1 w ∧ 2 &&& x.trapen = 0 ∧ 4 &&& x.trapen = 0 :=
  fun _ => ⟨isa_stands _ _ rfl rfl, by rw [isa_core]; decide, by rw [isa_core]; decide⟩
theorem witness_ArithmeticThatSetsFlags_2 : ∀ (rb fn : Nat),
    let w := wR 0 4 1 rb fn
    let s := wIsa tTrapCore w
    let x := (s.dev.unitLane 0 1).core
    s.dev.Stands 0 1 w ∧ x.tvec ≠ 0#32 ∧ x.inTrap = false ∧ 2 &&& x.trapen ≠ 0 ∧ 4 &&& x.trapen ≠ 0 :=
  fun _ _ => ⟨isa_stands _ _ rfl rfl, by show ¬ (64#32 = 0#32); decide, rfl, by show ¬ (2 &&& 14 = 0); decide, by show ¬ (4 &&& 14 = 0); decide⟩
/-- The operands that set the flags there: -2^31 + -1, -2^31 - 7, -2^31 / -1, and a divisor 0. -/
theorem witness_ArithmeticThatSetsFlags_3 :
    let x := tTrapCore
    (x.rd 1).toInt + (x.rd 2).toInt < -2 ^ 31 ∧ (x.rd 1).toInt - (x.rd 3).toInt < -2 ^ 31 ∧ x.rd 1 = 0x80000000#32 ∧ (x.rd 2).toInt = -1 ∧ x.rd 0 = 0#32 := by decide

/-- Loads: both ends of each memory, and a misaligned address. -/
theorem witness_LoadsFromTcm_1 : ∀ a ∈ [0#32, 0x3FFFC#32, 0x10000000#32, 0x1003FFFC#32], ∀ op : Nat,
    let ea := ((tAt a).rd 10 + (0#16).signExtend 32).toNat
    (wIsa (tAt a) (wI op 4 10 0)).dev.Stands 0 1 (wI op 4 10 0) ∧ ea % 4 = 0 ∧ (ea < 0x40000 ∨ 0x10000000 ≤ ea ∧ ea < 0x10040000) := by
  intro a ha op
  refine ⟨isa_stands _ _ rfl rfl, ?_⟩
  clear op
  simp only [List.mem_cons, List.not_mem_nil, or_false] at ha
  rcases ha with rfl | rfl | rfl | rfl <;> decide
theorem witness_LoadsFromTcm_2 : ∀ op : Nat,
    let w := wI op 4 5 3
    let s := wIsa (tCore false) w
    let x := (s.dev.unitLane 0 1).core
    let ea := (x.rd 5 + (3#16).signExtend 32).toNat
    s.dev.Stands 0 1 w ∧ ea % 4 ≠ 0 ∧ ea % 2 ≠ 0 ∧ x.tvec ≠ 0#32 ∧ x.inTrap = false := by
  intro op
  refine ⟨isa_stands _ _ rfl rfl, ?_⟩
  simp only [isa_core]
  decide
/-- Stores: both ends of data memory, and a misaligned address. -/
theorem witness_StoresToTcm_1 : ∀ a ∈ [0x10000000#32, 0x1003FFFC#32], ∀ op : Nat,
    let ea := ((tAt a).rd 10 + (0#16).signExtend 32).toNat
    (wIsa (tAt a) (wI op 3 10 0)).dev.Stands 0 1 (wI op 3 10 0) ∧ ea % 4 = 0 ∧ 0x10000000 ≤ ea ∧ ea < 0x10040000 := by
  intro a ha op
  refine ⟨isa_stands _ _ rfl rfl, ?_⟩
  clear op
  simp only [List.mem_cons, List.not_mem_nil, or_false] at ha
  rcases ha with rfl | rfl <;> decide
theorem witness_StoresToTcm_2 : ∀ op : Nat,
    let w := wI op 3 5 3
    let s := wIsa (tCore false) w
    let x := (s.dev.unitLane 0 1).core
    let ea := (x.rd 5 + (3#16).signExtend 32).toNat
    s.dev.Stands 0 1 w ∧ ea % 4 ≠ 0 ∧ ea % 2 ≠ 0 ∧ x.tvec ≠ 0#32 ∧ x.inTrap = false := by
  intro op
  refine ⟨isa_stands _ _ rfl rfl, ?_⟩
  simp only [isa_core]
  decide

theorem witness_BranchesAndJumps_1 : ∀ (op : Nat) (ra rb : Fin 32) (off : Nat) (far : Nat),
    (wIsa (tCore false) (wI op ra rb off)).dev.Stands 0 1 (wI op ra rb off) ∧ (wIsa (tCore false) (wJ op far)).dev.Stands 0 1 (wJ op far) :=
  fun _ _ _ _ _ => ⟨isa_stands _ _ rfl rfl, isa_stands _ _ rfl rfl⟩
/-- `JALR` to a word and to an address between two words. -/
theorem witness_BranchesAndJumps_2 :
    let w := wI 0x2A 4 6 0
    let s := wIsa (tCore false) w
    s.dev.Stands 0 1 w ∧ ((s.dev.unitLane 0 1).core.rd 6 + (0#16).signExtend 32).toNat % 4 = 0 := ⟨isa_stands _ _ rfl rfl, by decide +kernel⟩
theorem witness_BranchesAndJumps_3 :
    let w := wI 0x2A 4 6 2
    let s := wIsa (tCore false) w
    let x := (s.dev.unitLane 0 1).core
    s.dev.Stands 0 1 w ∧ (x.rd 6 + (2#16).signExtend 32).toNat % 4 ≠ 0 ∧ x.tvec ≠ 0#32 ∧ x.inTrap = false := ⟨isa_stands _ _ rfl rfl, by decide +kernel⟩

/-- Every special register number, those above 16 with a handler in force. -/
theorem witness_SpecialRegisters : ∀ (r sr : Fin 32),
    let a := wR 0x38 r 0 sr 1
    let b := wR 0x38 0 r sr 2
    let s := wIsa (tCore false) a
    s.dev.Stands 0 1 a ∧ (wIsa (tCore false) b).dev.Stands 0 1 b ∧ (s.dev.unitLane 0 1).core.tvec ≠ 0#32 ∧ (s.dev.unitLane 0 1).core.inTrap = false :=
  fun _ _ => ⟨isa_stands _ _ rfl rfl, isa_stands _ _ rfl rfl, by show ¬ (64#32 = 0#32); decide, rfl⟩
theorem witness_TimebaseReads_1 : ∀ (rd sel : Fin 32),
    let w := wR 0x38 rd 0 sel 4
    let s := wIsa (tCore false) w
    s.dev.Stands 0 1 w ∧ (s.dev.unitLane 0 1).core.tbr = none ∧ (s.dev.unitLane 0 1).core.tvec ≠ 0#32 ∧ (s.dev.unitLane 0 1).core.inTrap = false :=
  fun _ _ => ⟨isa_stands _ _ rfl rfl, rfl, by show ¬ (64#32 = 0#32); decide, rfl⟩
theorem witness_TimebaseReads_2 : ∀ (rd sel : Fin 32),
    let w := wR 0x38 rd 0 sel 4
    let s := wIsa tLatched w
    s.dev.Stands 0 1 w ∧ (s.dev.unitLane 0 1).core.tbr = some 5000000000 :=
  fun _ _ => ⟨isa_stands _ _ rfl rfl, rfl⟩
/-- `NOP`, `TRAP`, `RTE` and an illegal word outside a trap, `RTE` inside one. -/
theorem witness_TrapsAndReturns_1 : ∀ w : Word,
    let s := wIsa (tCore false) w
    s.dev.Stands 0 1 w ∧ (s.dev.unitLane 0 1).core.tvec ≠ 0#32 ∧ (s.dev.unitLane 0 1).core.inTrap = false :=
  fun _ => ⟨isa_stands _ _ rfl rfl, by show ¬ (64#32 = 0#32); decide, rfl⟩
theorem witness_TrapsAndReturns_2 :
    let w := wR 0x38 0 0 0 0x19
    let s := wIsa (tCore true) w
    s.dev.Stands 0 1 w ∧ (s.dev.unitLane 0 1).core.inTrap = true := ⟨isa_stands _ _ rfl rfl, rfl⟩
theorem witness_TrapsAndReturns_3 : wordLegal (wR 0x38 0 0 0 0x1F) = false := by decide

/-- `WAIT` on nothing, on a time that has come (`g3`, 7 ns) and on one to come (`g7`, 2^30 ns, at 1 ms), and on the next Cycle. -/
theorem witness_WaitsSyncsAndLocks_1 : ∀ (rd ra rb : Fin 32),
    let w := wR 0x38 rd ra rb 8
    (wIsa (tCore false) w).dev.Stands 0 1 w := fun _ _ _ => isa_stands _ _ rfl rfl
theorem witness_WaitsSyncsAndLocks_2 :
    let x := ((wIsa (tCore false) 0#32).dev.unitLane 0 1).core
    let n := max 1000000 (wIsa (tCore false) 0#32).dev.now
    (x.rd 0).toNat % 1024 = 0 ∧ (x.rd 8).toNat % 1024 = 512 ∧ 0 ≤ tsDiff (x.rd 3).toNat (n % 2 ^ 32) ∧ tsDiff (x.rd 7).toNat (n % 2 ^ 32) < 0 ∧ (x.rd 9).toNat % 1024 = 256 := by decide +kernel
/-- A lane that waits for the next Cycle since Cycle 7. -/
theorem witness_WaitsSyncsAndLocks_3 :
    let w := wR 0x38 4 9 0 8
    let s := wIsa { tCore false with wait := some 7 } w
    let x := (s.dev.unitLane 0 1).core
    s.dev.unitRuns 0 1 = true ∧ x.wait = some 7 ∧ (s.dev.unitLane 0 1).fetch = some w ∧ (x.rd 9).toNat % 1024 = 256 ∧ 7 < max 1000000 s.dev.now / 125000 ∧
      ∀ k ∈ s.dev.members 0 1, (s.dev.lane 0 k).step = false ∧ (s.dev.lane 0 k).skip = false := by decide +kernel
theorem witness_WaitsSyncsAndLocks_4 :
    let w := wR 0x38 0 0 0 0x10
    let s := wIsa (tCore false) w
    s.dev.Stands 0 1 w ∧ (s.dev.tri 0).readmit = none := ⟨isa_stands _ _ rfl rfl, by decide +kernel⟩
/-- `LOCK` and `UNLOCK` with the bus free, held by the lane, and lost by it. -/
theorem witness_WaitsSyncsAndLocks_5 : ∀ w : Word,
    let s := wIsa (tCore false) w
    (1 : Fin 6).val < 3 ∧ s.dev.trd.lock = none ∧ unitReq 0 1 ∉ s.dev.trd.revoked ∧ s.dev.Stands 0 1 w :=
  fun _ => ⟨by decide, rfl, List.not_mem_nil, isa_stands _ _ rfl rfl⟩
theorem witness_WaitsSyncsAndLocks_6 :
    let lw := wR 0x38 4 0 0 0x11
    let uw := wR 0x38 4 0 0 0x12
    let b := tBusLock
    (wBusHeld lw).dev.trd.lock = some b ∧ (wBusHeld uw).dev.trd.lock = some b ∧ b.req = unitReq 0 1 ∧ (wBusHeld lw).dev.Stands 0 1 lw ∧ (wBusHeld uw).dev.Stands 0 1 uw := by
  unfold Dev.Stands
  decide +kernel
theorem witness_WaitsSyncsAndLocks_7 :
    let uw := wR 0x38 4 0 0 0x12
    let s := wRevoked uw
    s.dev.trd.lock = none ∧ unitReq 0 1 ∈ s.dev.trd.revoked ∧ s.dev.Stands 0 1 uw := by
  unfold Dev.Stands
  decide +kernel

/-- A lane that has waited 10 µs at a `QPOPT` of an empty near queue. -/
theorem witness_TriadQueueInstructions_wait :
    let s := wSplitWait (wQ 4 3 5 2 10)
    let x := s.dev.unitLane 0 1
    s.dev.unitRuns 0 1 = true ∧ x.fetch = some (wQ 4 3 5 2 10) ∧ (∀ k ∈ s.dev.members 0 1, (s.dev.lane 0 k).step = false ∧ (s.dev.lane 0 k).skip = false) ∧
      s.dev.qf.lanes.find (unitReq 0 1) = some tLWait ∧ tLWait.op = 2 ∧ tLWait.qid < 0x10000 ∧ tLWait.tmo = some 10 ∧ tLWait.at_ + 10 * 1000 ≤ s.dev.ownAt 2000000 := by decide +kernel

/-! ### The statements on every command -/

theorem reset_settled : State.reset.dev.Settled := by
  unfold Dev.Settled Dev.Shown Dev.TripSafe Dev.ScanSafe Dev.Rested
  decide +kernel
theorem witness_SettledIsKept : State.reset.dev.Settled ∧ step State.reset = .next State.reset := ⟨reset_settled, rfl⟩
theorem witness_StateMovesAlongTable13 : ∃ u, exec (.nop 0 0 1) State.reset = .next u := ⟨_, rfl⟩
theorem witness_FusesGoOneWay : ∃ u, exec (.nop 0 0 1) State.reset = .next u := ⟨_, rfl⟩
theorem witness_StepRunsTheFrontCommand : ({ State.reset with pending := [.nop 0 0 1] } : State).pending = .nop 0 0 1 :: [] ∧ State.reset.pending = [] := ⟨rfl, rfl⟩

/-! ### Worked examples and check values of the spec (expected values as printed there) -/

/-- Table 14.13, the words of the Lowmarsh Gap loop. -/
theorem test_words_lowmarsh :
    wI 0x01 4 0 0x0420 = 0x04800420#32 ∧ wI 0x07 6 0 0x8000 = 0x1CC08000#32 ∧ wR 0 6 6 4 9 = 0x00C62009#32 ∧ wR 0x38 0 6 8 2 = 0xE0064002#32 ∧ wI 0x05 5 0 1 = 0x14A00001#32 ∧
    wR 0x38 7 5 0 8 = 0xE0E50008#32 ∧ wQ 8 4 10 1 0 = 0xC1045100#32 ∧ wI 0x09 11 9 28 = 0x2569001C#32 ∧ wI 0x04 11 11 1 = 0x116B0001#32 ∧ wI 0x21 11 0 3 = 0x85600003#32 ∧
    wJ 0x28 53 = 0xA0000035#32 ∧ wQ 0 4 10 3 0 = 0xC0045300#32 ∧ wJ 0x28 0x3FFFFF8 = 0xA3FFFFF8#32 := by decide
/-- Every word of that table is legal (R355). -/
theorem test_words_legal :
    ([0x04800420#32, 0x1CC08000#32, 0x00C62009#32, 0xE0064002#32, 0x14A00001#32, 0xE0E50008#32, 0xC1045100#32, 0x2569001C#32, 0x116B0001#32, 0x85600003#32, 0xA0000035#32,
      0xC0045300#32, 0xA3FFFFF8#32] : List Word).all wordLegal = true := by decide
/-- Table 2.8, the extensions of three ts32 values. -/
theorem test_ts_ardnalee :
    tsExtend 1000000000000 0x00001000 = 1000727384064 ∧ tsExtend 1000000000000 0xD0000000 = 999922073600 ∧ tsExtend 1000000000000 0x87756E00 = 998705032704 := by decide
/-- The check values for "123456789" of R59 and R144. -/
theorem test_crc32c : crc32c [0x31, 0x32, 0x33, 0x34, 0x35, 0x36, 0x37, 0x38, 0x39] = 0xE3069283 := by
  rw [crc_eq]
  decide +kernel
theorem test_crc8_h : 255 - crc8 0x2F 0xFF [0x31, 0x32, 0x33, 0x34, 0x35, 0x36, 0x37, 0x38, 0x39] = 0xDF := by decide +kernel
theorem test_crc8_p : crc8 0x9B 0 [0x31, 0x32, 0x33, 0x34, 0x35, 0x36, 0x37, 0x38, 0x39] = 0xEA := by decide +kernel
/-- R437: the position of cycle 14,400,000,006,422 with slots of 250 µs. -/
theorem test_sheet_position : sheetPos 14400000006422 2 = some (2, 11) ∧ sheetPos 14400000006423 2 = none := by decide
/-- The factor of the fullest cell of string 56 at Orravik, and its means and time constant (R241, R252, R254). -/
theorem test_orravik_factor : (factors (tRec secEstp 1 [(16, 2, 28000), (18, 2, 36000), (20, 2, 35500), (22, 2, 30000)]) 35800).1 = 13107 := by decide
theorem test_orravik_means : impMean 292 300 40 = 293 ∧ impMean 205 200 12 = 205 ∧ impMean 1520 1495 12 = 1518 := by decide
theorem test_orravik_tau : tauOf 1024000 1000 119 60 = 1495 := by decide +kernel
/-- Table 11.9: the allocation with string 12 derated, and the shares within the grace time. -/
theorem test_glasvane :
    allocShares 1860000 [⟨8, 520000, 6001⟩, ⟨9, 300000, 7001⟩, ⟨10, 480000, 5001⟩, ⟨11, 450000, 4001⟩, ⟨12, 250000, 6501⟩] =
      ([(12, 250000), (9, 300000), (8, 520000), (10, 438880), (11, 351120)], [12, 9, 8]) := by decide +kernel
theorem test_glasvane_grace :
    allocShares 1860000 [⟨8, 520000, 6001⟩, ⟨9, 300000, 7001⟩, ⟨10, 480000, 5001⟩, ⟨11, 450000, 4001⟩, ⟨12, 500000, 6501⟩] =
      ([(9, 300000), (8, 435341), (10, 362796), (11, 290251), (12, 471612)], [9]) := by decide +kernel
end Sys2Proof.Machine
end

section
/-!
PROOFS. Proofs/InstructionSet.lean: the instructions of chapter 14 that set flags, take an immediate, jump, or reach the special registers. First what the ALU's
functions compute, then what an instruction of each shape leaves in the core of its unit, then the four statements.
-/
namespace Sys2Proof.Machine

/-! ### What the ALU computes (Tables 14.3 to 14.5) -/

theorem wordOf_decide (p : Prop) [Decidable p] : wordOf (decide p) = if p then 1#32 else 0#32 := by
  simp [wordOf]

/-- The absolute value as the magnitude of the signed value, that of -2^31 taken mod 2^32 (R35). -/
theorem abs_eq_natAbs (a : Word) : (if a.toInt < 0 then 0#32 - a else a) = BitVec.ofNat 32 a.toInt.natAbs := by
  have hm : BitVec.ofNat 32 a.toInt.natAbs = BitVec.ofInt 32 (a.toInt.natAbs : Int) := (BitVec.ofInt_natCast ..).symm
  rw [hm]
  split
  case isTrue h => rw [Int.ofNat_natAbs_of_nonpos h.le, BitVec.ofInt_neg, BitVec.ofInt_toInt, BitVec.zero_sub]
  case isFalse h => rw [Int.natAbs_of_nonneg (not_lt.mp h), BitVec.ofInt_toInt]

theorem divFlag_eq (a b : Word) : divFlag a b = if b = 0#32 then 4 else if a = 0x80000000#32 ∧ b.toInt = -1 then 2 else 0 := by
  have hb : b = 0xFFFFFFFF#32 ↔ b.toInt = -1 := by
    rw [← BitVec.toInt_inj]
    rfl
  simp only [divFlag, minInt32, hb]

/-- A signed division's result and flag by the edges of Table 14.5: `z` for a divisor 0, `m` for -2^31 by -1, else the result `q`, which is `m` there anyway. -/
theorem signed_edges (a b z m q : Word) (hm : a = 0x80000000#32 → b.toInt = -1 → q = m) :
    (if b = 0#32 then z else q, divFlag a b) = if b = 0#32 then (z, 4) else if a = 0x80000000#32 ∧ b.toInt = -1 then (m, 2) else (q, 0) := by
  rw [divFlag_eq]
  split
  case isTrue => rfl
  case isFalse =>
    split
    case isTrue h => rw [hm h.1 h.2]
    case isFalse => rfl

theorem div_edges (a b : Word) : (aluDiv a b, divFlag a b) =
    if b = 0#32 then (0#32, 4) else if a = 0x80000000#32 ∧ b.toInt = -1 then (0x80000000#32, 2) else (BitVec.ofInt 32 (a.toInt.tdiv b.toInt), 0) :=
  signed_edges a b _ _ _ fun ha hb => by rw [ha, hb]; rfl

theorem rem_edges (a b : Word) : (aluRem a b, divFlag a b) =
    if b = 0#32 then (a, 4) else if a = 0x80000000#32 ∧ b.toInt = -1 then (0#32, 2) else (BitVec.ofInt 32 (a.toInt.tmod b.toInt), 0) :=
  signed_edges a b _ _ _ fun ha hb => by rw [ha, hb]; rfl

theorem divu_edges (a b : Word) : (aluDivu a b, divuFlag b) = if b = 0#32 then (0#32, 4) else (BitVec.ofNat 32 (a.toNat / b.toNat), 0) := by
  unfold aluDivu divuFlag
  split <;> rfl

theorem remu_edges (a b : Word) : (aluRemu a b, divuFlag b) = if b = 0#32 then (a, 4) else (BitVec.ofNat 32 (a.toNat % b.toNat), 0) := by
  unfold aluRemu divuFlag
  split <;> rfl

/-- An immediate shift amount is taken as it is. -/
theorem shAmt_zeroExtend (n : BitVec 8) : shAmt (n.zeroExtend 32) = n.toNat := by
  simp only [shAmt, BitVec.truncate_eq_setWidth, BitVec.toNat_setWidth]
  omega

theorem aluSll_eq_mul (a b : Word) : aluSll a b = BitVec.ofNat 32 (a.toNat * 2 ^ shAmt b) := by
  have hs : aluSll a b = a <<< shAmt b := by
    unfold aluSll
    split
    case isTrue h => exact (BitVec.shiftLeft_eq_zero h).symm
    case isFalse => rfl
  rw [hs]
  apply BitVec.eq_of_toNat_eq
  rw [BitVec.toNat_shiftLeft, BitVec.toNat_ofNat, Nat.shiftLeft_eq]

theorem aluSrl_eq_div (a b : Word) : aluSrl a b = BitVec.ofNat 32 (a.toNat / 2 ^ shAmt b) := by
  have hs : aluSrl a b = a >>> shAmt b := by
    unfold aluSrl
    split
    case isTrue h => exact (BitVec.ushiftRight_eq_zero h).symm
    case isFalse => rfl
  rw [hs]
  apply BitVec.eq_of_toNat_eq
  rw [BitVec.toNat_ushiftRight, BitVec.toNat_ofNat, Nat.shiftRight_eq_div_pow,
    Nat.mod_eq_of_lt (lt_of_le_of_lt (Nat.div_le_self _ _) a.isLt)]

/-- Past 32 places an arithmetic shift leaves the sign alone, as the division by a greater power does. -/
theorem aluSra_eq_div (a b : Word) : aluSra a b = BitVec.ofInt 32 (a.toInt / 2 ^ shAmt b) := by
  have hs : aluSra a b = a.sshiftRight (shAmt b) := by
    unfold aluSra
    rcases Nat.le_total (shAmt b) 32 with hn | hn
    · rw [Nat.min_eq_left hn]
    · ext i hi
      rw [Nat.min_eq_right hn, BitVec.getElem_sshiftRight, BitVec.getElem_sshiftRight, dif_neg (by omega), dif_neg (by omega)]
  rw [hs, BitVec.sshiftRight, Int.shiftRight_eq_div_pow]
  norm_cast

theorem aluRor_eq_rotateRight (a b : Word) : aluRor a b = a.rotateRight (shAmt b) :=
  BitVec.rotateRight_mod_eq_rotateRight

theorem zeroExtend_shiftLeft_16 (imm : BitVec 16) : imm.zeroExtend 32 <<< 16 = BitVec.ofNat 32 (imm.toNat * 2 ^ 16) := by
  apply BitVec.eq_of_toNat_eq
  simp only [BitVec.toNat_shiftLeft, BitVec.truncate_eq_setWidth, BitVec.toNat_setWidth, BitVec.toNat_ofNat, Nat.shiftLeft_eq]
  omega

/-! ### What an instruction of each shape leaves -/

/-- Only the core that the unit held counts. -/
theorem Executes.congr {c : Instr} {s : State} {tr l : Nat} {w : Word} {k k' : Core → Core} (h : Executes c s tr l w k)
    (hk : k (s.dev.unitLane tr l).core = k' (s.dev.unitLane tr l).core) : Executes c s tr l w k' := by
  intro hst
  rw [← hk]
  exact h hst

/-- An ALU instruction writes its result and sets its flag; it goes on, or traps after it where the flag's trap is enabled (R357). -/
theorem executes_alu_flags {c : Instr} {s : State} {t tr l : Nat} {w : Word} {rd : Nat} {f : Core → Word × Nat} {p : Word × Nat} (hl : l < 6)
    (hc : exec c s = s.run t fun d => d.alu tr l w rd f) (hp : f (s.dev.unitLane tr l).core = p) :
    (p.2 &&& (s.dev.unitLane tr l).core.trapen = 0 → Executes c s tr l w fun c => (c.fallsTo rd p.1).flagged p.2) ∧
    (p.2 &&& (s.dev.unitLane tr l).core.trapen ≠ 0 → (s.dev.unitLane tr l).core.tvec ≠ 0#32 → (s.dev.unitLane tr l).core.inTrap = false →
      Executes c s tr l w fun c => ((c.fallsTo rd p.1).flagged p.2).trapped (c.pc + 4#32) (if p.2 = 4 then 4 else 5) 0) := by
  subst hp
  exact ⟨fun h0 => (executes_alu hl hc h0).congr rfl, fun h0 hv hi => (executes_alu_trap hl hc h0 hv hi).congr rfl⟩

/-- An I-format instruction writes its result and goes on. -/
theorem executes_aluI {c : Instr} {s : State} {t tr l op rd ra imm : Nat} {f g : Word → Word} (hl : l < 6)
    (hc : exec c s = s.run t fun d => d.aluI tr l op rd ra imm f) (hfg : ∀ a, f a = g a) :
    Executes c s tr l (wI op rd ra imm) fun c => c.fallsTo rd (g (c.rd ra)) := by
  refine (executes_alu hl hc (Nat.zero_and _)).congr ?_
  rw [Core.flagged_zero, hfg]

/-- An instruction that leaves a core, still waiting for nothing, and goes on at an address. -/
theorem Dev.Stands.wrote_goesTo {d : Dev} {tr l : Nat} {w : Word} (t : Nat) (h : d.Stands tr l w) (hl : l < 6) {c : Core} (hc : c.wait = none) (npc : Word) :
    (begin_ t d).Wrote ((begin_ t d).complete tr l { d.unitLane tr l with core := c } npc none) tr l (d.unitLane tr l) (c.goesTo npc) := by
  have hw := Dev.wrote_complete (h.calm t) hl { d.unitLane tr l with core := c } npc
  have e : c.goesTo npc = { c with pc := npc, instret := c.instret + 1#32, wait := none } := by
    simp only [Core.goesTo, hc]
  rw [e]
  exact hw.mem rfl rfl

/-- A branch goes to its target where its comparison holds, else to the next word. -/
theorem executes_branch {c : Instr} {s : State} {t tr l op ra rb : Nat} {off : BitVec 16} {f p : Word → Word → Bool} (hl : l < 6)
    (hc : exec c s = s.run t fun d => d.branch tr l op ra rb off f) (hfp : ∀ a b, f a b = p a b) :
    Executes c s tr l (wI op ra rb off.toNat) fun c =>
      c.goesTo (if p (c.rd ra) (c.rd rb) then c.pc + BitVec.ofInt 32 (4 * off.toInt) else c.pc + 4#32) := by
  refine executes_of hc fun h => ?_
  rw [← hfp]
  exact h.wrote_goesTo t hl h.wait _

/-- J goes to its target. -/
theorem executes_j (s : State) (t : Nat) (tr : Fin 4) (l : Fin 6) (far : BitVec 26) :
    Executes (.j t tr l far) s tr l (wJ 0x28 far.toNat) fun c => c.goesTo (c.pc + BitVec.ofInt 32 (4 * far.toInt)) :=
  executes_of (exec_j t tr l far s) fun h => h.wrote_goesTo t l.isLt h.wait _

/-- JAL goes to its target with the return address in g31. -/
theorem executes_jal (s : State) (t : Nat) (tr : Fin 4) (l : Fin 6) (far : BitVec 26) :
    Executes (.jal t tr l far) s tr l (wJ 0x29 far.toNat) fun c => (c.put 31 (c.pc + 4#32)).goesTo (c.pc + BitVec.ofInt 32 (4 * far.toInt)) :=
  executes_of (exec_jal t tr l far s) fun h => h.wrote_goesTo t l.isLt ((Core.put_wait _ _ _).trans h.wait) _

section
variable (s : State) (t : Nat) (tr : Fin 4) (l : Fin 6) (rd ra : Fin 32) (imm : BitVec 16)

/-- JALR to a word's address goes there with the return address in rd. -/
theorem executes_jalr_aligned (ha : ((s.dev.unitLane tr l).core.ea ra imm).toNat % 4 = 0) :
    Executes (.jalr t tr l rd ra imm) s tr l (wI 0x2A rd ra imm.toNat) fun c => (c.put rd (c.pc + 4#32)).goesTo (c.ea ra imm) := by
  refine executes_of (exec_jalr t tr l rd ra imm s) fun h => ?_
  simp only [ha, ne_eq, not_true_eq_false, if_false]
  exact h.wrote_goesTo t l.isLt ((Core.put_wait _ _ _).trans h.wait) _

/-- JALR to any other address traps in place. -/
theorem executes_jalr_misaligned (ha : ((s.dev.unitLane tr l).core.ea ra imm).toNat % 4 ≠ 0)
    (hv : (s.dev.unitLane tr l).core.tvec ≠ 0#32) (hi : (s.dev.unitLane tr l).core.inTrap = false) :
    Executes (.jalr t tr l rd ra imm) s tr l (wI 0x2A rd ra imm.toNat) fun c => c.trapped c.pc 2 (c.ea ra imm).toNat := by
  refine executes_of (exec_jalr t tr l rd ra imm s) fun h => ?_
  simp only [ha, ne_eq, not_false_eq_true, if_true]
  exact h.wrote_trapIn t l.isLt 2 _ (by decide) hv hi
end

/-! ### Special registers (R353) -/

theorem Dev.readSr_wq (d : Dev) (tr l : Nat) (c : Core) {k : Nat} (hk : k < 8) : d.readSr tr l c (8 + k) = some (c.wq.get k 0#32) := by
  interval_cases k <;> rfl

theorem Core.writeSr_wq (c : Core) {k : Nat} (hk : k < 8) (v : Word) :
    c.writeSr (8 + k) v = some { c with wq := c.wq.set k (v &&& 0x800FFFFF#32) 0#32 } := by
  interval_cases k <;> rfl

/-- A number above 16 is not in Table 14.1. -/
theorem Dev.readSr_none (d : Dev) (tr l : Nat) (c : Core) {sr : Nat} (h : 16 < sr) : d.readSr tr l c sr = none := by
  unfold Dev.readSr
  split
  case h_10 => exact if_neg (by omega)
  all_goals omega

theorem Core.writeSr_none (c : Core) {sr : Nat} (h : 16 < sr) (v : Word) : c.writeSr sr v = none := by
  unfold Core.writeSr
  split
  case h_10 => exact if_neg (by omega)
  all_goals omega

/-- A write of a special register moves neither the PC nor a wait. -/
theorem Core.writeSr_pc_wait {c c' : Core} {sr : Nat} {v : Word} (h : c.writeSr sr v = some c') : c'.pc = c.pc ∧ c'.wait = c.wait := by
  unfold Core.writeSr at h
  split at h
  case h_10 =>
    split at h
    case isTrue => cases h; exact ⟨rfl, rfl⟩
    case isFalse => cases h
  all_goals cases h; exact ⟨rfl, rfl⟩

theorem Dev.srStatus_eq (d : Dev) (tr l : Nat) (c : Core) :
    d.srStatus tr l c = b2n c.inTrap + 2 * (if d.rd Reg.TRD_STATUS_MODE tr = 2 then (if l ≤ 2 then l else l - 2) else 0) + 16 * tr +
      64 * d.rd Reg.TRD_STATUS_REALM tr + 256 * d.lockState tr l := by
  unfold Dev.srStatus Dev.tmode
  omega

section
variable {s : State} (t : Nat) {tr : Fin 4} {l : Fin 6} {r sr : Fin 32}

/-- MFSR of a number of Table 14.1. -/
theorem executes_mfsr {v : Word} (hr : s.dev.readSr tr l (s.dev.unitLane tr l).core sr = some v) :
    Executes (.mfsr t tr l r sr) s tr l (wR 0x38 r 0 sr 1) fun c => c.fallsTo r v := by
  refine executes_of (exec_mfsr t tr l r sr s) fun h => ?_
  have hb : (begin_ t s.dev).readSr tr l (s.dev.unitLane tr l).core sr = some v := hr
  simp only [hb]
  exact h.wrote_result t l.isLt r v

/-- MTSR of a number of Table 14.1. -/
theorem executes_mtsr {c' : Core} (hw : (s.dev.unitLane tr l).core.writeSr sr ((s.dev.unitLane tr l).core.rd r) = some c') :
    Executes (.mtsr t tr l sr r) s tr l (wR 0x38 0 r sr 2) fun c => c'.goesTo (c.pc + 4#32) := by
  refine executes_of (exec_mtsr t tr l sr r s) fun h => ?_
  obtain ⟨hpc, hwait⟩ := Core.writeSr_pc_wait hw
  simp only [hw]
  rw [← hpc]
  exact h.wrote_goesTo t l.isLt (hwait.trans h.wait) _

/-- MFSR of any other number. -/
theorem executes_mfsr_illegal (hs : 16 < sr.val) (hv : (s.dev.unitLane tr l).core.tvec ≠ 0#32) (hi : (s.dev.unitLane tr l).core.inTrap = false) :
    Executes (.mfsr t tr l r sr) s tr l (wR 0x38 r 0 sr 1) fun c => c.trapped c.pc 1 (wR 0x38 r 0 sr 1).toNat := by
  refine executes_of (exec_mfsr t tr l r sr s) fun h => ?_
  simp only [Dev.readSr_none _ _ _ _ hs]
  exact h.wrote_trapIn t l.isLt 1 _ (by decide) hv hi

/-- MTSR of any other number. -/
theorem executes_mtsr_illegal (hs : 16 < sr.val) (hv : (s.dev.unitLane tr l).core.tvec ≠ 0#32) (hi : (s.dev.unitLane tr l).core.inTrap = false) :
    Executes (.mtsr t tr l sr r) s tr l (wR 0x38 0 r sr 2) fun c => c.trapped c.pc 1 (wR 0x38 0 r sr 2).toNat := by
  refine executes_of (exec_mtsr t tr l sr r s) fun h => ?_
  simp only [Core.writeSr_none _ hs]
  exact h.wrote_trapIn t l.isLt 1 _ (by decide) hv hi
end

/-! ### The statements -/

/-- Settles O34: each of these instructions is one ALU instruction; what is left is that its result and flag are those of Tables 14.3 and 14.5. -/
theorem arithmeticThatSetsFlags : Obligations.ArithmeticThatSetsFlags := by
  intro s t tr l rd ra rb
  refine ⟨?_, ?_, ?_, ?_, ?_, ?_, ?_, ?_⟩
  · exact executes_alu_flags l.isLt (exec_addo t tr l rd ra rb s) rfl
  · exact executes_alu_flags l.isLt (exec_subo t tr l rd ra rb s) rfl
  · exact executes_alu_flags l.isLt (exec_neg t tr l rd ra s) (congrArg₂ Prod.mk (BitVec.zero_sub _) rfl)
  · exact executes_alu_flags l.isLt (exec_abs t tr l rd ra s) (congrArg₂ Prod.mk (abs_eq_natAbs _) rfl)
  · exact executes_alu_flags l.isLt (exec_div t tr l rd ra rb s) (div_edges _ _)
  · exact executes_alu_flags l.isLt (exec_rem t tr l rd ra rb s) (rem_edges _ _)
  · exact executes_alu_flags l.isLt (exec_divu t tr l rd ra rb s) (divu_edges _ _)
  · exact executes_alu_flags l.isLt (exec_remu t tr l rd ra rb s) (remu_edges _ _)

/-- Settles O35: each of these instructions is one I-format ALU instruction; what is left is that its function is that of Table 14.4. -/
theorem immediateInstructions : Obligations.ImmediateInstructions := by
  intro s t tr l rd ra imm n
  refine ⟨?_, ?_, ?_, ?_, ?_, ?_, ?_, ?_, ?_, ?_, ?_⟩
  · exact executes_aluI l.isLt (exec_addi t tr l rd ra imm s) fun _ => rfl
  · exact executes_aluI l.isLt (exec_slti t tr l rd ra imm s) fun _ => wordOf_decide _
  · exact executes_aluI l.isLt (exec_sltiu t tr l rd ra imm s) fun _ => wordOf_decide _
  · exact executes_aluI l.isLt (exec_andi t tr l rd ra imm s) fun _ => rfl
  · exact executes_aluI l.isLt (exec_ori t tr l rd ra imm s) fun _ => rfl
  · exact executes_aluI l.isLt (exec_xori t tr l rd ra imm s) fun _ => rfl
  · exact executes_aluI l.isLt (exec_lui t tr l rd imm s) fun _ => zeroExtend_shiftLeft_16 imm
  · exact executes_aluI l.isLt (exec_slli t tr l rd ra n s) fun a => by rw [aluSll_eq_mul, shAmt_zeroExtend]
  · exact executes_aluI l.isLt (exec_srli t tr l rd ra n s) fun a => by rw [aluSrl_eq_div, shAmt_zeroExtend]
  · exact executes_aluI l.isLt (exec_srai t tr l rd ra n s) fun a => by rw [aluSra_eq_div, shAmt_zeroExtend]
  · exact executes_aluI l.isLt (exec_rori t tr l rd ra n s) fun a => by rw [aluRor_eq_rotateRight, shAmt_zeroExtend]

/-- Settles O38: the branches differ in their comparison alone; the jumps have a lemma each, JALR one for either alignment of its target. -/
theorem branchesAndJumps : Obligations.BranchesAndJumps := by
  intro s t tr l rd ra rb off imm far
  refine ⟨?_, ?_, ?_, ?_, ?_, ?_, executes_j s t tr l far, executes_jal s t tr l far, ?_, ?_⟩
  · exact executes_branch l.isLt (exec_beq t tr l ra rb off s) fun _ _ => rfl
  · exact executes_branch l.isLt (exec_bne t tr l ra rb off s) (p := fun a b => a ≠ b) (fun _ _ => (decide_not ..).symm)
  · exact executes_branch l.isLt (exec_blt t tr l ra rb off s) fun _ _ => rfl
  · exact executes_branch l.isLt (exec_bge t tr l ra rb off s) fun _ _ => rfl
  · exact executes_branch l.isLt (exec_bltu t tr l ra rb off s) fun _ _ => rfl
  · exact executes_branch l.isLt (exec_bgeu t tr l ra rb off s) fun _ _ => rfl
  · exact fun ha => (executes_jalr_aligned s t tr l rd ra imm ha).congr rfl
  · exact fun ha hv hi => (executes_jalr_misaligned s t tr l rd ra imm ha hv hi).congr rfl

/-- Settles O39: number by number, what Table 14.1 reads and writes; the two instructions do the rest alike for each. -/
theorem specialRegisters : Obligations.SpecialRegisters := by
  intro s t tr l r sr
  refine ⟨?flags, ?trapen, ?tvec, ?epc, ?cause, ?badaddr, ?escratch, ?status, ?wq, ?instret, ?other⟩
  case status =>
    rintro rfl
    refine ⟨executes_mfsr t ?_, Executes.congr (executes_mtsr t rfl) rfl⟩
    rw [← Dev.srStatus_eq]
    rfl
  case wq =>
    intro k hk hsr
    refine ⟨executes_mfsr t ?_, Executes.congr (executes_mtsr t (c' := _) ?_) rfl⟩
    · rw [hsr, Dev.readSr_wq _ _ _ _ hk]
    · rw [hsr, Core.writeSr_wq _ hk]
  case other => exact fun hs hv hi => ⟨executes_mfsr_illegal t hs hv hi, executes_mtsr_illegal t hs hv hi⟩
  all_goals
    rintro rfl
    exact ⟨executes_mfsr t rfl, Executes.congr (executes_mtsr t rfl) rfl⟩

end Sys2Proof.Machine
end

section
/-!
PROOFS. Proofs/EveryCommand.lean: what holds of every command, since each is one run that ends in `settle`: it answers, its device is settled and
the state moves along Table 1.3.
-/
namespace Sys2Proof.Machine

/-! ### The end of a command -/

@[simp] theorem settle_stReq (o d : Dev) : (settle o d).stReq = [] := by
  unfold settle
  dsimp only
  rw [Dev.drivePins_stReq, Dev.wr_stReq, Dev.scanSafe_stReq, Dev.touchTag_stReq, Dev.applyState_stReq]

theorem Dev.rd_watchFb (d : Dev) (f : Field) (i j : Nat) (hd : f.lo + f.width ≤ 16) : d.watchFb.rd f i j = d.rd f i j :=
  Dev.rd_wr_disjoint d Reg.TRW_OUT_STAT_MISMATCH f _ 0 0 i j (by decide) (Or.inl hd)

/-- The trip outputs as they are driven: both withheld unless the actuating gates are open outside an immediate shutdown. -/
def Dev.tripOut (d : Dev) (x : Nat) : Nat := if d.gates && d.gaf.immediate.isNone then x % 8 else 0

theorem Dev.tripOut_lt (d : Dev) (x : Nat) : d.tripOut x < 2 ^ 3 := by
  unfold Dev.tripOut
  split <;> omega

theorem Dev.drivePins_pins (d : Dev) : d.drivePins.pins =
    { d.pins with
      ready := d.mode == .run, faultN := d.mainOn && !(d.mode == .dark || d.mode == .halt), rstOutN := d.supply.rails && decide (60000000 ≤ d.own),
      tripH := d.tripOut d.trw.outH, tripP := d.tripOut d.trw.outP } := rfl

theorem Dev.drivePins_h_level (d : Dev) : d.drivePins.rd Reg.TRW_OUT_STAT_H_LEVEL = d.tripOut d.trw.outH := by
  have h := Dev.rd_wr_self d Reg.TRW_OUT_STAT_H_LEVEL (d.tripOut d.trw.outH) 0 0 (by decide)
  have hp := Dev.rd_wr_disjoint (d.wr Reg.TRW_OUT_STAT_H_LEVEL (d.tripOut d.trw.outH)) Reg.TRW_OUT_STAT_P_LEVEL Reg.TRW_OUT_STAT_H_LEVEL (d.tripOut d.trw.outP)
    0 0 0 0 (by decide) (by decide)
  exact (Dev.rd_watchFb _ Reg.TRW_OUT_STAT_H_LEVEL 0 0 (by decide)).trans (hp.trans (h.trans (Nat.mod_eq_of_lt (d.tripOut_lt _))))

theorem Dev.drivePins_p_level (d : Dev) : d.drivePins.rd Reg.TRW_OUT_STAT_P_LEVEL = d.tripOut d.trw.outP := by
  have h := Dev.rd_wr_self (d.wr Reg.TRW_OUT_STAT_H_LEVEL (d.tripOut d.trw.outH)) Reg.TRW_OUT_STAT_P_LEVEL (d.tripOut d.trw.outP) 0 0 (by decide)
  exact (Dev.rd_watchFb _ Reg.TRW_OUT_STAT_P_LEVEL 0 0 (by decide)).trans (h.trans (Nat.mod_eq_of_lt (d.tripOut_lt _)))

theorem Dev.rd_drivePins (d : Dev) (f : Field) (i j : Nat) (h : f.addr i j ≠ 0x70030) : d.drivePins.rd f i j = d.rd f i j :=
  Dev.rd_congr (Dev.word_drivePins d _ h)

/-- The device that a command ends in, before its state and its balls are shown. -/
def Dev.ended (o d : Dev) : Dev := (Dev.touchTag o.mode (o.applyState (o.keepFuses d))).scanSafe

theorem settle_ended (o d : Dev) : settle o d = ((o.ended d).wr Reg.GLB_STATUS_STATE (o.ended d).mode.stateCode).drivePins := rfl

theorem DevState.stateCode_lt (m : DevState) : m.stateCode < 2 ^ 3 := by
  cases m <;> decide

/-- The registers and balls show what the device is after every command. -/
theorem settle_shown (o d : Dev) : (settle o d).Shown := by
  rw [settle_ended]
  generalize o.ended d = e
  refine ⟨?state, ?ready, ?faultN, ?h, ?p⟩
  case state =>
    rw [Dev.rd_drivePins _ _ _ _ (by decide), Dev.rd_wr_self _ _ _ _ _ (by decide), Dev.drivePins_mode, Dev.wr_mode]
    exact Nat.mod_eq_of_lt e.mode.stateCode_lt
  case ready => rw [Dev.drivePins_pins, Dev.drivePins_mode]
  case faultN => rw [Dev.drivePins_pins]; unfold Dev.mainOn; rw [Dev.drivePins_mode]
  case h => rw [Dev.drivePins_h_level, Dev.drivePins_pins]
  case p => rw [Dev.drivePins_p_level, Dev.drivePins_pins]

theorem Dev.actRole_iff (d : Dev) : d.actRole = true ↔ d.rd Reg.SIN_STATUS_ROLE ≤ 1 := by
  unfold Dev.actRole Dev.role roleAlone roleActive
  rw [Bool.or_eq_true, beq_iff_eq, beq_iff_eq]
  omega

/-- A trip output is driven permissive only by a device that actuates. -/
theorem Dev.drivePins_tripSafe (d : Dev) : d.drivePins.TripSafe := by
  intro h
  rw [Dev.drivePins_pins] at h
  have hopen : (d.gates && d.gaf.immediate.isNone) = true := by
    by_contra hc
    simp [Dev.tripOut, hc] at h
  unfold Dev.gates at hopen
  simp only [Bool.and_eq_true, decide_eq_true_eq, Option.isNone_iff_eq_none] at hopen
  obtain ⟨⟨⟨hlive, hgates⟩, hrole⟩, himm⟩ := hopen
  refine ⟨?_, (Dev.actRole_iff _).2 ?_, ?_, ?_⟩
  · unfold Dev.live; rw [Dev.drivePins_mode]; exact hlive
  · rw [Dev.rd_drivePins _ _ _ _ (by decide)]; exact hrole
  · rw [Dev.drivePins_sin]; exact hgates
  · rw [Dev.drivePins_gaf]; exact himm

theorem JtagIns.safe_safe (i : JtagIns) : i.safe.safe = i.safe := by
  cases i <;> rfl

theorem Dev.scanSafe_scanSafe (d : Dev) (h : d.mode ≠ .dark) : d.scanSafe.jtag.ins.safe = d.scanSafe.jtag.ins := by
  unfold Dev.scanSafe
  rw [if_neg h]
  exact d.jtag.ins.safe_safe

theorem settle_scanSafe (o d : Dev) : (settle o d).ScanSafe := by
  intro h
  rw [settle_ended] at h ⊢
  rw [Dev.drivePins_mode, Dev.wr_mode, Dev.ended, Dev.scanSafe_mode] at h
  rw [Dev.drivePins_jtag, Dev.wr_jtag]
  exact Dev.scanSafe_scanSafe _ h

/-- Every command ends in a settled device. -/
theorem settle_settled (o d : Dev) : (settle o d).Settled :=
  ⟨settle_shown o d, Dev.drivePins_tripSafe _, settle_scanSafe o d, settle_stReq o d⟩

/-- The device after a command is its run's outcome, settled. -/
theorem exec_dev {c : Instr} {s u : State} (h : exec c s = .next u) : ∃ d, u = { s with dev := settle s.dev d } := by
  obtain ⟨f, hf⟩ := exec_run c s
  rw [hf, State.run_eq] at h
  cases h
  exact ⟨_, rfl⟩

/-! ### The state machine -/

/-- What a fold that keeps one of two elements answers is one of the list. -/
theorem foldl_choose_mem {α : Type} (f : Option α → α → Option α) (hf : ∀ a r x, f a r = some x → x = r ∨ a = some x) (l : List α) (a : Option α) (x : α)
    (h : l.foldl f a = some x) : x ∈ l ∨ a = some x := by
  induction l generalizing a with
  | nil => exact Or.inr h
  | cons r l ih =>
    rcases ih (f a r) h with hm | hm
    · exact Or.inl (List.mem_cons_of_mem _ hm)
    · rcases hf a r x hm with rfl | ha
      · exact Or.inl List.mem_cons_self
      · exact Or.inr ha

/-- The state change that wins is one that Table 1.3 allows. -/
theorem pickState_edge {old : DevState} {l : List (DevState × Nat)} {x : DevState × Nat} (h : pickState old l = some x) : old.edge x.1 = true := by
  unfold pickState at h
  refine (foldl_choose_mem _ (fun a r y hy => ?_) _ _ _ h).elim (fun hm => (List.mem_filter.1 hm).2) (fun hm => nomatch hm)
  cases a with
  | none => exact Or.inl (Option.some.inj hy).symm
  | some b =>
    dsimp only at hy
    split at hy
    · exact Or.inl (Option.some.inj hy).symm
    · exact Or.inr hy

theorem settle_moves (o d : Dev) : o.mode.Moves (settle o d).mode := by
  rw [settle_mode]
  cases h : pickState o.mode d.stReq with
  | none => exact Or.inl rfl
  | some x => exact Or.inr (pickState_edge h)

/-! ### The statements -/

/-- Settles O1: a step takes the command at the front of the queue. -/
theorem stepRunsTheFrontCommand : Obligations.StepRunsTheFrontCommand :=
  ⟨fun s c q h => by unfold step; rw [h], fun s h => by unfold step; rw [h]⟩

/-- Settles O2: registers by evaluation of the reset words; that the state is settled is its own test. -/
theorem resetState : Obligations.ResetState :=
  ⟨rfl, rfl, rfl, rfl, rfl, rfl, rfl, rfl, by decide +kernel, by decide +kernel, by decide +kernel, by decide +kernel, reset_settled⟩

/-- Settles O3: every command is one run, and a run keeps the queue and ends with no state change asked for. -/
theorem everyCommandAnswers : Obligations.EveryCommandAnswers := by
  intro c s
  obtain ⟨f, hf⟩ := exec_run c s
  exact ⟨_, hf, rfl, settle_stReq _ _⟩

/-- Settles O4: a step that runs a command ends in a settled device whatever the command did; one that idles keeps its device. -/
theorem settledIsKept : Obligations.SettledIsKept := by
  intro s u hs hu
  unfold step at hu
  split at hu
  case h_1 => cases hu; exact hs
  case h_2 =>
    obtain ⟨d, rfl⟩ := exec_dev hu
    exact settle_settled _ d

/-- Settles O5: the only change of state is the one that wins among those of Table 1.3. -/
theorem stateMovesAlongTable13 : Obligations.StateMovesAlongTable13 := by
  intro c s u hu
  obtain ⟨d, rfl⟩ := exec_dev hu
  exact settle_moves _ d

end Sys2Proof.Machine
end

section
/-!
PROOFS. Proofs/Frames.lean: what the operations that every subsystem shares leave as it was: raising an event, and the outcome of an operation on a queue.
-/
namespace Sys2Proof.Machine

/-! ### Raising an event -/

section
variable {d e : Dev} (h : d.EvKeeps e)
include h
theorem Dev.EvKeeps.mode : e.mode = d.mode := by rw [h.1]
theorem Dev.EvKeeps.now : e.now = d.now := by rw [h.1]
theorem Dev.EvKeeps.own : e.own = d.own := by rw [h.1]
theorem Dev.EvKeeps.free : e.free = d.free := by rw [h.1]
theorem Dev.EvKeeps.hold : e.hold = d.hold := by rw [h.1]
theorem Dev.EvKeeps.out : e.out = d.out := by rw [h.1]
theorem Dev.EvKeeps.reqs : e.reqs = d.reqs := by rw [h.1]
theorem Dev.EvKeeps.reel : e.reel = d.reel := by rw [h.1]
theorem Dev.EvKeeps.img : e.img = d.img := by rw [h.1]
theorem Dev.EvKeeps.host : e.host = d.host := by rw [h.1]
theorem Dev.EvKeeps.lnk : e.lnk = d.lnk := by rw [h.1]
theorem Dev.EvKeeps.tb : e.tb = d.tb := by rw [h.1]
theorem Dev.EvKeeps.swp : e.swp = d.swp := by rw [h.1]
theorem Dev.EvKeeps.est : e.est = d.est := by rw [h.1]
theorem Dev.EvKeeps.lpe : e.lpe = d.lpe := by rw [h.1]
theorem Dev.EvKeeps.dsp : e.dsp = d.dsp := by rw [h.1]
theorem Dev.EvKeeps.trw : e.trw = d.trw := by rw [h.1]
theorem Dev.EvKeeps.trd : e.trd = d.trd := by rw [h.1]
theorem Dev.EvKeeps.sin : e.sin = d.sin := by rw [h.1]
theorem Dev.EvKeeps.net : e.net = d.net := by rw [h.1]
theorem Dev.EvKeeps.fld : e.fld = d.fld := by rw [h.1]
theorem Dev.EvKeeps.gaf : e.gaf = d.gaf := by rw [h.1]
theorem Dev.EvKeeps.jtag : e.jtag = d.jtag := by rw [h.1]
theorem Dev.EvKeeps.supply : e.supply = d.supply := by rw [h.1]
theorem Dev.EvKeeps.pins : e.pins = d.pins := by rw [h.1]
end

section
variable (d : Dev) (e : Ev) (inst data : Nat)
@[simp] theorem Dev.raise_mode : (d.raise e inst data).mode = d.mode := (Dev.evKeeps_raise d e inst data).mode
@[simp] theorem Dev.raise_now : (d.raise e inst data).now = d.now := (Dev.evKeeps_raise d e inst data).now
@[simp] theorem Dev.raise_own : (d.raise e inst data).own = d.own := (Dev.evKeeps_raise d e inst data).own
@[simp] theorem Dev.raise_free : (d.raise e inst data).free = d.free := (Dev.evKeeps_raise d e inst data).free
@[simp] theorem Dev.raise_hold : (d.raise e inst data).hold = d.hold := (Dev.evKeeps_raise d e inst data).hold
@[simp] theorem Dev.raise_out : (d.raise e inst data).out = d.out := (Dev.evKeeps_raise d e inst data).out
@[simp] theorem Dev.raise_reqs : (d.raise e inst data).reqs = d.reqs := (Dev.evKeeps_raise d e inst data).reqs
@[simp] theorem Dev.raise_reel : (d.raise e inst data).reel = d.reel := (Dev.evKeeps_raise d e inst data).reel
@[simp] theorem Dev.raise_img : (d.raise e inst data).img = d.img := (Dev.evKeeps_raise d e inst data).img
@[simp] theorem Dev.raise_host : (d.raise e inst data).host = d.host := (Dev.evKeeps_raise d e inst data).host
@[simp] theorem Dev.raise_lnk : (d.raise e inst data).lnk = d.lnk := (Dev.evKeeps_raise d e inst data).lnk
@[simp] theorem Dev.raise_tb : (d.raise e inst data).tb = d.tb := (Dev.evKeeps_raise d e inst data).tb
@[simp] theorem Dev.raise_swp : (d.raise e inst data).swp = d.swp := (Dev.evKeeps_raise d e inst data).swp
@[simp] theorem Dev.raise_est : (d.raise e inst data).est = d.est := (Dev.evKeeps_raise d e inst data).est
@[simp] theorem Dev.raise_lpe : (d.raise e inst data).lpe = d.lpe := (Dev.evKeeps_raise d e inst data).lpe
@[simp] theorem Dev.raise_dsp : (d.raise e inst data).dsp = d.dsp := (Dev.evKeeps_raise d e inst data).dsp
@[simp] theorem Dev.raise_trw : (d.raise e inst data).trw = d.trw := (Dev.evKeeps_raise d e inst data).trw
@[simp] theorem Dev.raise_trd : (d.raise e inst data).trd = d.trd := (Dev.evKeeps_raise d e inst data).trd
@[simp] theorem Dev.raise_sin : (d.raise e inst data).sin = d.sin := (Dev.evKeeps_raise d e inst data).sin
@[simp] theorem Dev.raise_net : (d.raise e inst data).net = d.net := (Dev.evKeeps_raise d e inst data).net
@[simp] theorem Dev.raise_fld : (d.raise e inst data).fld = d.fld := (Dev.evKeeps_raise d e inst data).fld
@[simp] theorem Dev.raise_gaf : (d.raise e inst data).gaf = d.gaf := (Dev.evKeeps_raise d e inst data).gaf
@[simp] theorem Dev.raise_jtag : (d.raise e inst data).jtag = d.jtag := (Dev.evKeeps_raise d e inst data).jtag
@[simp] theorem Dev.raise_supply : (d.raise e inst data).supply = d.supply := (Dev.evKeeps_raise d e inst data).supply
@[simp] theorem Dev.raise_pins : (d.raise e inst data).pins = d.pins := (Dev.evKeeps_raise d e inst data).pins
end

theorem Dev.word_raise (d : Dev) (e : Ev) (inst data : Nat) {a : Nat} (h : a ∉ evWords) : (d.raise e inst data).word a = d.word a :=
  (Dev.evKeeps_raise d e inst data).2 a h

theorem Dev.rd_raise (d : Dev) (e : Ev) (inst data : Nat) (f : Field) (i j : Nat) (h : f.addr i j ∉ evWords) : (d.raise e inst data).rd f i j = d.rd f i j :=
  Dev.rd_congr (Dev.word_raise d e inst data h)

/-! ### The backbone of the device -/

/-- `e` differs from `d` at most in what the subsystems hold: the state and the changes of state asked for, the clocks, the running structure, the image controller, the
supplies, the debug port and the balls are as they were. -/
abbrev Dev.Spares (d e : Dev) : Prop :=
  e.mode = d.mode ∧ e.stReq = d.stReq ∧ e.now = d.now ∧ e.own = d.own ∧ e.reel = d.reel ∧ e.img = d.img ∧ e.supply = d.supply ∧ e.jtag = d.jtag ∧ e.pins = d.pins

theorem Dev.Spares.refl (d : Dev) : d.Spares d := by simp [Dev.Spares]

theorem Dev.Spares.trans {a b c : Dev} (h : a.Spares b) (k : b.Spares c) : a.Spares c := by simp_all [Dev.Spares]

theorem Dev.spares_raise (d : Dev) (e : Ev) (inst data : Nat) (h : e.sev < 5) : d.Spares (d.raise e inst data) :=
  ⟨Dev.raise_mode _ _ _ _, Dev.stReq_raise d e inst data h, Dev.raise_now _ _ _ _, Dev.raise_own _ _ _ _, Dev.raise_reel _ _ _ _, Dev.raise_img _ _ _ _, Dev.raise_supply _ _ _ _, Dev.raise_jtag _ _ _ _, Dev.raise_pins _ _ _ _⟩

/-- A step of a fold that leaves a part of the device. -/
def Leaves {α β : Type} (p : Dev → α) (f : Dev → β → Dev) : Prop := ∀ x b, p (f x b) = p x

@[simp] theorem leaves_iff {α β : Type} (p : Dev → α) (f : Dev → β → Dev) : Leaves p f ↔ ∀ x b, p (f x b) = p x := ⟨fun h => h, fun h => h⟩

theorem Leaves.foldl {α β : Type} {p : Dev → α} {f : Dev → β → Dev} (h : Leaves p f) (l : List β) (d : Dev) : p (l.foldl f d) = p d := by
  induction l generalizing d with
  | nil => rfl
  | cons b l ih => exact (ih (f d b)).trans (h d b)

/-- A fold of which every step spares the backbone spares it. -/
theorem Dev.spares_foldl {β : Type} {f : Dev → β → Dev} (hf : ∀ (x : Dev) b, x.Spares (f x b)) (l : List β) {d e : Dev} (h : d.Spares e) : d.Spares (l.foldl f e) := by
  induction l generalizing e with
  | nil => exact h
  | cons b l ih => exact ih (h.trans (hf e b))

section
variable {β : Type} {f : Dev → β → Dev} {l : List β} {d : Dev}
@[simp] theorem Dev.foldl_mode (h : Leaves Dev.mode f) : (l.foldl f d).mode = d.mode := h.foldl l d
@[simp] theorem Dev.foldl_stReq (h : Leaves Dev.stReq f) : (l.foldl f d).stReq = d.stReq := h.foldl l d
@[simp] theorem Dev.foldl_now (h : Leaves Dev.now f) : (l.foldl f d).now = d.now := h.foldl l d
@[simp] theorem Dev.foldl_own (h : Leaves Dev.own f) : (l.foldl f d).own = d.own := h.foldl l d
@[simp] theorem Dev.foldl_reel (h : Leaves Dev.reel f) : (l.foldl f d).reel = d.reel := h.foldl l d
@[simp] theorem Dev.foldl_img (h : Leaves Dev.img f) : (l.foldl f d).img = d.img := h.foldl l d
@[simp] theorem Dev.foldl_supply (h : Leaves Dev.supply f) : (l.foldl f d).supply = d.supply := h.foldl l d
@[simp] theorem Dev.foldl_jtag (h : Leaves Dev.jtag f) : (l.foldl f d).jtag = d.jtag := h.foldl l d
@[simp] theorem Dev.foldl_pins (h : Leaves Dev.pins f) : (l.foldl f d).pins = d.pins := h.foldl l d
end

section
variable (c : Prop) [Decidable c] (a b : Dev)
@[simp] theorem Dev.ite_mode : (if c then a else b).mode = if c then a.mode else b.mode := apply_ite Dev.mode c a b
@[simp] theorem Dev.ite_stReq : (if c then a else b).stReq = if c then a.stReq else b.stReq := apply_ite Dev.stReq c a b
@[simp] theorem Dev.ite_now : (if c then a else b).now = if c then a.now else b.now := apply_ite Dev.now c a b
@[simp] theorem Dev.ite_own : (if c then a else b).own = if c then a.own else b.own := apply_ite Dev.own c a b
@[simp] theorem Dev.ite_reel : (if c then a else b).reel = if c then a.reel else b.reel := apply_ite Dev.reel c a b
@[simp] theorem Dev.ite_img : (if c then a else b).img = if c then a.img else b.img := apply_ite Dev.img c a b
@[simp] theorem Dev.ite_supply : (if c then a else b).supply = if c then a.supply else b.supply := apply_ite Dev.supply c a b
@[simp] theorem Dev.ite_jtag : (if c then a else b).jtag = if c then a.jtag else b.jtag := apply_ite Dev.jtag c a b
@[simp] theorem Dev.ite_pins : (if c then a else b).pins = if c then a.pins else b.pins := apply_ite Dev.pins c a b
end

theorem Dev.spares_wr (d : Dev) (f : Field) (v i j : Nat) : d.Spares (d.wr f v i j) := by simp -implicitDefEqProofs [Dev.Spares]

theorem Dev.spares_ite {d a b : Dev} (c : Prop) [Decidable c] (ha : d.Spares a) (hb : d.Spares b) : d.Spares (if c then a else b) := by
  split
  · exact ha
  · exact hb

end Sys2Proof.Machine
end

section
/-!
PROOFS. Proofs/Spared.lean: the operations of each subsystem that a build and the changes of state use leave the backbone of the device.
-/
namespace Sys2Proof.Machine

@[simp] theorem Dev.spares_setQueue (d : Dev) (qid : Nat) (r : QRes) : d.Spares (d.setQueue qid r) := by
  unfold Dev.setQueue
  simp -implicitDefEqProofs [Dev.Spares, Dev.stReq_raise]

@[simp] theorem Dev.spares_applyRes (d : Dev) (qid : Nat) (r : QRes) : d.Spares (d.applyRes qid r) := by
  have h : d.Spares (d.setQueue qid r) := Dev.spares_setQueue d qid r
  unfold Dev.applyRes
  generalize d.setQueue qid r = x at h
  refine Dev.spares_foldl (fun x n => ?_) _ h
  cases n
  case watermark => exact Dev.spares_raise _ _ _ _ (by decide)
  case loss => exact Dev.spares_raise _ _ _ _ (by decide)

@[simp] theorem Dev.spares_storeAll (d : Dev) (qids : List Nat) (u : QUnit) : d.Spares (d.storeAll qids u) := by
  refine Dev.spares_foldl (fun x qid => ?_) _ (Dev.Spares.refl d)
  split
  · exact Dev.spares_applyRes _ _ _
  · exact Dev.Spares.refl x

@[simp] theorem Dev.spares_qput (d : Dev) (req : Nat) (qids : List Nat) (u : QUnit) : d.Spares (d.qput req qids u) := by
  unfold Dev.qput
  simp -implicitDefEqProofs [Dev.Spares, Dev.stReq_raise]

@[simp] theorem Dev.spares_produce (d : Dev) (source stream : Nat) (u : QUnit) : d.Spares (d.produce source stream u) := by
  unfold Dev.produce
  simp -implicitDefEqProofs [Dev.Spares, Dev.stReq_raise]

@[simp] theorem Dev.spares_nvRead (d : Dev) (kind key : Nat) : d.Spares (d.nvRead kind key).1 := by
  unfold Dev.nvRead
  dsimp only
  (repeat' split) <;> simp -implicitDefEqProofs [Dev.Spares, Dev.stReq_raise, Ev.PST_ECC, Ev.PST_RECORD_LOST]

@[simp] theorem Dev.spares_nvWrite (d : Dev) (kind key : Nat) (body : List Byte) : d.Spares (d.nvWrite kind key body) := by
  unfold Dev.nvWrite
  simp -implicitDefEqProofs [Dev.Spares, Dev.stReq_raise]

@[simp] theorem Dev.spares_setRole (d : Dev) (r : Nat) : d.Spares (d.setRole r) := by
  unfold Dev.setRole
  simp -implicitDefEqProofs [Dev.Spares, Dev.stReq_raise, Ev.SIN_ROLE]

@[simp] theorem Dev.spares_setEpoch (d : Dev) (e : Nat) : d.Spares (d.setEpoch e) := by
  unfold Dev.setEpoch
  simp -implicitDefEqProofs [Dev.Spares, Dev.stReq_raise]

@[simp] theorem Dev.spares_raiseEpoch (d : Dev) : d.Spares (d.raiseEpoch).1 := by
  unfold Dev.raiseEpoch
  dsimp only
  split <;> simp -implicitDefEqProofs [Dev.Spares, Dev.stReq_raise, Ev.SIN_EPOCH_LIMIT]

@[simp] theorem Dev.spares_setLr (d : Dev) (ring : Nat) (r : LRing) : d.Spares (d.setLr ring r) := by
  unfold Dev.setLr
  simp -implicitDefEqProofs [Dev.Spares, Dev.stReq_raise]

@[simp] theorem Dev.spares_setOrig (d : Dev) (ring : Nat) (on : Bool) : d.Spares (d.setOrig ring on) := by
  unfold Dev.setOrig
  simp -implicitDefEqProofs [Dev.Spares, Dev.stReq_raise, Ev.LNK_ORIGIN_CHANGE]

@[simp] theorem Dev.spares_join (d : Dev) (cause : Nat) : d.Spares (d.join cause) := by
  unfold Dev.join
  simp -implicitDefEqProofs [Dev.Spares, Dev.stReq_raise, Ev.SIN_INSTEP]

@[simp] theorem Dev.spares_peerSend (d : Dev) (links : List Nat) (typ : Nat) (pay : List Byte) : d.Spares (d.peerSend links typ pay) := by
  unfold Dev.peerSend
  simp -implicitDefEqProofs [Dev.Spares, Dev.stReq_raise]

@[simp] theorem Dev.spares_dspShow (d : Dev) : d.Spares (d.dspShow) := by
  unfold Dev.dspShow
  simp -implicitDefEqProofs [Dev.Spares, Dev.stReq_raise]

@[simp] theorem Dev.spares_dspBuild (d : Dev) : d.Spares (d.dspBuild) := by
  unfold Dev.dspBuild
  simp -implicitDefEqProofs [Dev.Spares, Dev.stReq_raise]

@[simp] theorem Dev.spares_dspStart (d : Dev) : d.Spares (d.dspStart) := by
  unfold Dev.dspStart
  simp -implicitDefEqProofs [Dev.Spares, Dev.stReq_raise]

@[simp] theorem Dev.spares_dspStop (d : Dev) : d.Spares (d.dspStop) := by
  unfold Dev.dspStop
  simp -implicitDefEqProofs [Dev.Spares, Dev.stReq_raise]

@[simp] theorem Dev.spares_countEnum (d : Dev) (ring : Nat) : d.Spares (d.countEnum ring) := by
  unfold Dev.countEnum
  simp -implicitDefEqProofs [Dev.Spares, Dev.stReq_raise]

@[simp] theorem Dev.spares_enumStart (d : Dev) (ring : Nat) : d.Spares (d.enumStart ring) := by
  unfold Dev.enumStart
  simp -implicitDefEqProofs [Dev.Spares, Dev.stReq_raise]

@[simp] theorem Dev.spares_setTs (d : Dev) (s : Nat) (x : TStr) : d.Spares (d.setTs s x) := by
  unfold Dev.setTs
  simp -implicitDefEqProofs [Dev.Spares, Dev.stReq_raise]

@[simp] theorem Dev.spares_trwOut (d : Dev) : d.Spares (d.trwOut) := by
  unfold Dev.trwOut
  simp -implicitDefEqProofs [Dev.Spares, Dev.stReq_raise]

@[simp] theorem Dev.spares_trwWindow (d : Dev) (s : Nat) : d.Spares (d.trwWindow s) := by
  unfold Dev.trwWindow
  simp -implicitDefEqProofs [Dev.Spares, Dev.stReq_raise]

@[simp] theorem Dev.spares_testEnd (d : Dev) (reason : Nat) : d.Spares (d.testEnd reason) := by
  unfold Dev.testEnd
  split <;> simp -implicitDefEqProofs [Dev.Spares, Dev.stReq_raise, Ev.TRW_TEST_FAIL]

@[simp] theorem Dev.spares_trwAuth (d : Dev) (on : Bool) : d.Spares (d.trwAuth on) := by
  unfold Dev.trwAuth
  simp -implicitDefEqProofs [Dev.Spares, Dev.stReq_raise, Ev.TRW_T0_AUTH]

@[simp] theorem Dev.spares_testAges (d : Dev) : d.Spares (d.testAges) := by
  refine Dev.spares_foldl (fun x s => ?_) _ (Dev.Spares.refl d)
  split <;> simp -implicitDefEqProofs [Dev.Spares]

/-- A threshold set shown from its record. -/
theorem Dev.spares_trwSet (d : Dev) (n : Nat) : d.Spares (match d.rl.pick secTrip 1 (fun x => x.u8 8 == n) with
    | some x => (List.range 6).foldl (fun (d : Dev) k => d.wr Reg.TRW_SET_WORD_WORD (x.u32 (8 + 4 * k)) n k) (d.set1 Reg.TRW_SET_USED_USED n)
    | none => (List.range 6).foldl (fun (d : Dev) k => d.wr Reg.TRW_SET_WORD_WORD 0 n k) (d.clr Reg.TRW_SET_USED_USED n)) := by
  split <;> simp -implicitDefEqProofs [Dev.Spares]

@[simp] theorem Dev.spares_trwBuild (d : Dev) : d.Spares (d.trwBuild) := by
  have h := Dev.spares_foldl Dev.spares_trwSet (List.range 16) (Dev.Spares.refl d)
  unfold Dev.trwBuild
  dsimp only
  refine h.trans ?_
  generalize (List.range 16).foldl _ d = e
  simp -implicitDefEqProofs [Dev.Spares]

@[simp] theorem Dev.spares_trwStart (d : Dev) : d.Spares (d.trwStart) := by
  unfold Dev.trwStart
  simp -implicitDefEqProofs [Dev.Spares, Dev.stReq_raise]

@[simp] theorem Dev.spares_trwStop (d : Dev) : d.Spares (d.trwStop) := by
  unfold Dev.trwStop
  simp -implicitDefEqProofs [Dev.Spares, Dev.stReq_raise]

@[simp] theorem Dev.spares_setNp (d : Dev) (p : Nat) (x : NetPort) : d.Spares (d.setNp p x) := by
  unfold Dev.setNp
  simp -implicitDefEqProofs [Dev.Spares, Dev.stReq_raise]

@[simp] theorem Dev.spares_macInstall (d : Dev) (p key : Nat) : d.Spares (d.macInstall p key) := by
  unfold Dev.macInstall
  split <;> simp -implicitDefEqProofs [Dev.Spares, Dev.stReq_raise]

@[simp] theorem Dev.spares_netBuild (d : Dev) : d.Spares (d.netBuild) := by
  unfold Dev.netBuild
  refine Dev.spares_foldl (fun x b => ?_) _ (Dev.Spares.refl d)
  dsimp only
  (repeat' split) <;> simp -implicitDefEqProofs [Dev.Spares, Dev.stReq_raise]

@[simp] theorem Dev.spares_netStop (d : Dev) : d.Spares (d.netStop) := by
  unfold Dev.netStop
  simp -implicitDefEqProofs [Dev.Spares, Dev.stReq_raise]

@[simp] theorem Dev.spares_setRq (d : Dev) (req : Nat) (r : Req) : d.Spares (d.setRq req r) := by
  unfold Dev.setRq
  simp -implicitDefEqProofs [Dev.Spares, Dev.stReq_raise]

@[simp] theorem Dev.spares_qfResult (d : Dev) (req kind qid st : Nat) : d.Spares (d.qfResult req kind qid st) := by
  unfold Dev.qfResult
  simp -implicitDefEqProofs [Dev.Spares, Dev.stReq_raise]

@[simp] theorem Dev.spares_hostTimeout (d : Dev) (req : Nat) : d.Spares (d.hostTimeout req) := by
  unfold Dev.hostTimeout
  split <;> simp -implicitDefEqProofs [Dev.Spares, Dev.stReq_raise]

@[simp] theorem Dev.spares_setWch (d : Dev) (w : Wch) : d.Spares (d.setWch w) := by
  unfold Dev.setWch
  simp -implicitDefEqProofs [Dev.Spares, Dev.stReq_raise]

/-- A watch rule shown from its record; `old` is the device before the structure was built. -/
theorem Dev.spares_wchRule (old d : Dev) (r : Nat) : d.Spares (
    let d := match d.wchRule r with
      | some x => (d.set1 Reg.WCH_RULE_DEFINED r).wr Reg.WCH_RULE_ACTION (x.u8 16) r
      | none => (d.clr Reg.WCH_RULE_DEFINED r).clr Reg.WCH_RULE_ACTION r
    if d.wchRule r = old.wchRule r then d
    else ((d.clr Reg.WCH_RULE_COUNT r).clr Reg.WCH_RULE_TRUE r).setWch { d.wch with seen := d.wch.seen.filter (fun k => k != r) }) := by
  dsimp only
  split <;> split <;> simp -implicitDefEqProofs [Dev.Spares]

@[simp] theorem Dev.spares_wchBuild (d : Dev) : d.Spares (d.wchBuild) := by
  unfold Dev.wchBuild
  refine Dev.spares_foldl (Dev.spares_wchRule d) _ ?_
  simp -implicitDefEqProofs [Dev.Spares]

@[simp] theorem Dev.spares_wakeReport (d : Dev) : d.Spares (d.wakeReport) := by
  unfold Dev.wakeReport
  simp -implicitDefEqProofs [Dev.Spares, Dev.stReq_raise, Ev.WCH_WAKE]

@[simp] theorem Dev.spares_reportPlan (d : Dev) (c pool : Nat) (cells : List (Nat × Nat)) : d.Spares (d.reportPlan c pool cells) := by
  unfold Dev.reportPlan
  simp -implicitDefEqProofs [Dev.Spares, Dev.stReq_raise]

@[simp] theorem Dev.spares_balFit (d : Dev) (c : Nat) : d.Spares (d.balFit c) := by
  unfold Dev.balFit
  split <;> simp -implicitDefEqProofs [Dev.Spares, Dev.stReq_raise, Ev.SWP_BAL_CUT]

@[simp] theorem Dev.spares_swpShow (d : Dev) (ring : Nat) : d.Spares (d.swpShow ring) := by
  unfold Dev.swpShow
  simp -implicitDefEqProofs [Dev.Spares, Dev.stReq_raise]

@[simp] theorem Dev.spares_setTile (d : Dev) (ring : Nat) (x : Tile) : d.Spares (d.setTile ring x) := by
  unfold Dev.setTile
  simp -implicitDefEqProofs [Dev.Spares, Dev.stReq_raise]

@[simp] theorem Dev.spares_setEch (d : Dev) (ch : Nat) (x : ECh) : d.Spares (d.setEch ch x) := by
  unfold Dev.setEch
  simp -implicitDefEqProofs [Dev.Spares, Dev.stReq_raise]

@[simp] theorem Dev.spares_setEstr (d : Dev) (str : Nat) (x : EStr) : d.Spares (d.setEstr str x) := by
  unfold Dev.setEstr
  simp -implicitDefEqProofs [Dev.Spares, Dev.stReq_raise]

@[simp] theorem Dev.spares_setQ (d : Dev) (ch : Nat) (q : Int) : d.Spares (d.setQ ch q) := by
  unfold Dev.setQ
  simp -implicitDefEqProofs [Dev.Spares, Dev.stReq_raise]

@[simp] theorem Dev.spares_setQuse (d : Dev) (ch : Nat) (q : Int) : d.Spares (d.setQuse ch q) := by
  unfold Dev.setQuse
  simp -implicitDefEqProofs [Dev.Spares, Dev.stReq_raise]

@[simp] theorem Dev.spares_setQbal (d : Dev) (ch : Nat) (q : Int) : d.Spares (d.setQbal ch q) := by
  unfold Dev.setQbal
  simp -implicitDefEqProofs [Dev.Spares, Dev.stReq_raise]

@[simp] theorem Dev.spares_clearImp (d : Dev) (ch : Nat) : d.Spares (d.clearImp ch) := by
  unfold Dev.clearImp
  simp -implicitDefEqProofs [Dev.Spares, Dev.stReq_raise]

@[simp] theorem Dev.spares_putSoc (d : Dev) (ch rep target : Nat) : d.Spares (d.putSoc ch rep target) := by
  unfold Dev.putSoc
  simp -implicitDefEqProofs [Dev.Spares, Dev.stReq_raise]

@[simp] theorem Dev.spares_reportNow (d : Dev) (ch : Nat) : d.Spares (d.reportNow ch) := by
  unfold Dev.reportNow
  simp -implicitDefEqProofs [Dev.Spares, Dev.stReq_raise]

@[simp] theorem Dev.spares_estDefaults (d : Dev) (ch : Nat) : d.Spares (d.estDefaults ch) := by
  unfold Dev.estDefaults
  simp -implicitDefEqProofs [Dev.Spares, Dev.stReq_raise]

@[simp] theorem Dev.spares_estRestore (d : Dev) (ch : Nat) : d.Spares (d.estRestore ch).1 := by
  have h := (Dev.spares_estDefaults d ch).trans (Dev.spares_nvRead (d.estDefaults ch) 1 ch)
  unfold Dev.estRestore
  dsimp only
  split
  case h_1 _ x heq => rw [heq] at h; exact h
  case h_2 _ x b heq =>
    rw [heq] at h
    refine h.trans ?_
    split <;> split <;> split <;> simp -implicitDefEqProofs [Dev.Spares, Dev.stReq_raise, Ev.EST_TABLE_CLEARED]

/-- A channel built: kept, or its learned values restored. -/
theorem Dev.spares_estChannel (keep : Nat → Bool) (a : Dev × Nat) (c : Nat) : a.1.Spares (
    let d := ((a.1.set1 Reg.EST_CH_STAT_USED c).wr Reg.EST_CH_STAT_FROZEN (b2n a.1.pst.learnRo) c).wr Reg.EST_CH_STAT_SET (a.1.rl.estSet c) c
    if keep c then (d, a.2 + 1)
    else
      let (d, ok) := d.estRestore c
      (d, a.2 + b2n ok)).1 := by
  dsimp only
  split <;> simp -implicitDefEqProofs [Dev.Spares]

@[simp] theorem Dev.spares_estBuild (d : Dev) (ring : Nat) (keep : Nat → Bool) : d.Spares (d.estBuild ring keep) := by
  have hf : ∀ (l : List Nat) (a : Dev × Nat), a.1.Spares (l.foldl (fun (a : Dev × Nat) c =>
      let d := ((a.1.set1 Reg.EST_CH_STAT_USED c).wr Reg.EST_CH_STAT_FROZEN (b2n a.1.pst.learnRo) c).wr Reg.EST_CH_STAT_SET (a.1.rl.estSet c) c
      if keep c then (d, a.2 + 1)
      else
        let (d, ok) := d.estRestore c
        (d, a.2 + b2n ok)) a).1 := by
    intro l
    induction l with
    | nil => exact fun a => Dev.Spares.refl a.1
    | cons c l ih => exact fun a => (Dev.spares_estChannel keep a c).trans (ih _)
  have h := hf (((d.ringStrs ring).flatMap d.strCells).map (fun x => x.2.2)) (d, 0)
  unfold Dev.estBuild
  dsimp only at h ⊢
  refine h.trans ?_
  simp -implicitDefEqProofs only [Dev.Spares, Dev.raise_mode, Dev.raise_now, Dev.raise_own, Dev.raise_reel, Dev.raise_img, Dev.raise_supply, Dev.raise_jtag, Dev.raise_pins, Dev.stReq_raise, Ev.EST_RESTORE, Nat.reduceLT]
  simp -implicitDefEqProofs [Dev.Spares]

@[simp] theorem Dev.spares_setCan (d : Dev) (c : Nat) (x : CanCtl) : d.Spares (d.setCan c x) := by
  unfold Dev.setCan
  simp -implicitDefEqProofs [Dev.Spares, Dev.stReq_raise]

@[simp] theorem Dev.spares_gpioDrive (d : Dev) (old : Nat) (all : Bool) : d.Spares (d.gpioDrive old all) := by
  unfold Dev.gpioDrive
  split
  case isTrue => exact Dev.Spares.refl d
  case isFalse =>
    refine Dev.spares_foldl (fun x n => ?_) _ (Dev.Spares.refl d)
    (repeat' split) <;> simp -implicitDefEqProofs [Dev.Spares]

@[simp] theorem Dev.spares_fldBuild (d : Dev) : d.Spares (d.fldBuild) := by
  unfold Dev.fldBuild
  simp -implicitDefEqProofs [Dev.Spares, Dev.stReq_raise]

@[simp] theorem Dev.spares_fldStop (d : Dev) : d.Spares (d.fldStop) := by
  unfold Dev.fldStop
  simp -implicitDefEqProofs [Dev.Spares, Dev.stReq_raise]

@[simp] theorem Dev.spares_setLctx (d : Dev) (c : Nat) (x : LCtx) : d.Spares (d.setLctx c x) := by
  unfold Dev.setLctx
  simp -implicitDefEqProofs [Dev.Spares, Dev.stReq_raise]

@[simp] theorem Dev.spares_lpeRecord (d : Dev) (c cause : Nat) : d.Spares (d.lpeRecord c cause) := by
  unfold Dev.lpeRecord
  simp -implicitDefEqProofs [Dev.Spares, Dev.stReq_raise]

@[simp] theorem Dev.spares_lpeShow (d : Dev) (c g : Nat) : d.Spares (d.lpeShow c g) := by
  unfold Dev.lpeShow
  simp -implicitDefEqProofs [Dev.Spares, Dev.stReq_raise]

@[simp] theorem Dev.spares_lpeEnter (d : Dev) (c st cause : Nat) : d.Spares (d.lpeEnter c st cause) := by
  unfold Dev.lpeEnter
  simp -implicitDefEqProofs [Dev.Spares, Dev.stReq_raise, Ev.LPE_HOLD, Ev.LPE_LOSS, Ev.LPE_RESUMED, Ev.LPE_SAFE]

@[simp] theorem Dev.spares_lpeFresh (d : Dev) (c : Nat) : d.Spares (d.lpeFresh c) := by
  unfold Dev.lpeFresh
  simp -implicitDefEqProofs [Dev.Spares, Dev.stReq_raise]

@[simp] theorem Dev.spares_lpeStart (d : Dev) : d.Spares (d.lpeStart) := by
  unfold Dev.lpeStart
  simp -implicitDefEqProofs [Dev.Spares, Dev.stReq_raise]

@[simp] theorem Dev.spares_lpeStop (d : Dev) : d.Spares (d.lpeStop) := by
  unfold Dev.lpeStop
  simp -implicitDefEqProofs [Dev.Spares, Dev.stReq_raise]

@[simp] theorem Dev.spares_lpeBuild (d : Dev) (c : Nat) : d.Spares (d.lpeBuild c) := by
  unfold Dev.lpeBuild
  simp -implicitDefEqProofs [Dev.Spares, Dev.stReq_raise]

@[simp] theorem Dev.spares_endSlew (d : Dev) : d.Spares (d.endSlew) := by
  unfold Dev.endSlew
  simp -implicitDefEqProofs [Dev.Spares, Dev.stReq_raise]

@[simp] theorem Dev.spares_putE (d : Dev) (e : Nat) : d.Spares (d.putE e) := by
  unfold Dev.putE
  simp -implicitDefEqProofs [Dev.Spares, Dev.stReq_raise]

@[simp] theorem Dev.spares_enterHoldover (d : Dev) (src : Nat) : d.Spares (d.enterHoldover src) := by
  unfold Dev.enterHoldover
  simp -implicitDefEqProofs [Dev.Spares, Dev.stReq_raise, Ev.TB_HOLDOVER]

@[simp] theorem Dev.spares_selectSrc (d : Dev) : d.Spares (d.selectSrc) := by
  unfold Dev.selectSrc
  simp -implicitDefEqProofs [Dev.Spares, Dev.stReq_raise, Ev.TB_SRC_CHANGE]

@[simp] theorem Dev.spares_loseSrc (d : Dev) (kind : Nat) : d.Spares (d.loseSrc kind) := by
  unfold Dev.loseSrc
  simp -implicitDefEqProofs [Dev.Spares, Dev.stReq_raise]

@[simp] theorem Dev.spares_portState (d : Dev) (p st : Nat) : d.Spares (d.portState p st) := by
  unfold Dev.portState
  simp -implicitDefEqProofs [Dev.Spares, Dev.stReq_raise, Ev.TB_PORT_STATE]

@[simp] theorem Dev.spares_updClass (d : Dev) : d.Spares (d.updClass) := by
  unfold Dev.updClass
  simp -implicitDefEqProofs [Dev.Spares, Dev.stReq_raise]

@[simp] theorem Dev.spares_bmca (d : Dev) : d.Spares (d.bmca) := by
  unfold Dev.bmca
  dsimp only
  (repeat' split) <;> simp -implicitDefEqProofs [Dev.Spares, Dev.stReq_raise]

@[simp] theorem Dev.spares_tcompLoad (d : Dev) (body : List Byte) : d.Spares (d.tcompLoad body) := by
  unfold Dev.tcompLoad
  simp -implicitDefEqProofs [Dev.Spares, Dev.stReq_raise]

@[simp] theorem Dev.spares_updSlateLock (d : Dev) : d.Spares (d.updSlateLock) := by
  unfold Dev.updSlateLock
  simp -implicitDefEqProofs [Dev.Spares, Dev.stReq_raise]

@[simp] theorem Dev.spares_setMaster (d : Dev) (m : Nat) : d.Spares (d.setMaster m) := by
  unfold Dev.setMaster
  simp -implicitDefEqProofs [Dev.Spares, Dev.stReq_raise, Ev.TB_BOARD_MASTER]

@[simp] theorem Dev.spares_electMaster (d : Dev) : d.Spares (d.electMaster) := by
  unfold Dev.electMaster
  dsimp only
  (repeat' split) <;> simp -implicitDefEqProofs [Dev.Spares, Dev.stReq_raise]

@[simp] theorem Dev.spares_setInstep (d : Dev) (on : Bool) (cause : Nat) : d.Spares (d.setInstep on cause) := by
  unfold Dev.setInstep
  simp -implicitDefEqProofs [Dev.Spares, Dev.stReq_raise, Ev.SIN_INSTEP]

@[simp] theorem Dev.spares_renew (d : Dev) (l path : Nat) : d.Spares (d.renew l path) := by
  unfold Dev.renew
  split <;> simp -implicitDefEqProofs [Dev.Spares, Dev.stReq_raise]

@[simp] theorem Dev.spares_becomeStandIn (d : Dev) (l path : Nat) : d.Spares (d.becomeStandIn l path) := by
  unfold Dev.becomeStandIn
  simp -implicitDefEqProofs [Dev.Spares, Dev.stReq_raise]

@[simp] theorem Dev.spares_sinRun (d : Dev) : d.Spares (d.sinRun) := by
  unfold Dev.sinRun
  dsimp only
  (repeat' split) <;> simp -implicitDefEqProofs [Dev.Spares, Dev.stReq_raise]

@[simp] theorem Dev.spares_switchEnd (d : Dev) (st : Nat) : d.Spares (d.switchEnd st) := by
  unfold Dev.switchEnd
  simp -implicitDefEqProofs [Dev.Spares, Dev.stReq_raise, Ev.SIN_SWITCH]

@[simp] theorem Dev.spares_sinLeave (d : Dev) : d.Spares (d.sinLeave) := by
  unfold Dev.sinLeave
  simp -implicitDefEqProofs [Dev.Spares, Dev.stReq_raise]

@[simp] theorem Dev.spares_sinQuiet (d : Dev) : d.Spares (d.sinQuiet) := by
  unfold Dev.sinQuiet
  simp -implicitDefEqProofs [Dev.Spares, Dev.stReq_raise]

@[simp] theorem Dev.spares_originate (d : Dev) : d.Spares (d.originate) := by
  unfold Dev.originate
  simp -implicitDefEqProofs [Dev.Spares, Dev.stReq_raise]

@[simp] theorem Dev.spares_heatEval (d : Dev) (c : Nat) : d.Spares (d.heatEval c) := by
  unfold Dev.heatEval
  dsimp only
  (repeat' split) <;> simp -implicitDefEqProofs [Dev.Spares, Dev.stReq_raise, Ev.GAF_HEAT_CUT]

@[simp] theorem Dev.spares_heatAll (d : Dev) : d.Spares (d.heatAll) := by
  unfold Dev.heatAll
  simp -implicitDefEqProofs [Dev.Spares, Dev.stReq_raise]

@[simp] theorem Dev.spares_gafClear (d : Dev) : d.Spares (d.gafClear) := by
  unfold Dev.gafClear
  simp -implicitDefEqProofs [Dev.Spares, Dev.stReq_raise]

/-- The discretionary budget that a build sets. -/
theorem Dev.spares_budgetBuild (d : Dev) : d.Spares (if d.on Reg.GAF_STATUS_THR_ENF then
    d.wr Reg.GAF_BUDGET_DISC (min (d.rd Reg.GAF_BUDGET_DISC) d.disc0) else d.wr Reg.GAF_BUDGET_DISC d.disc0) :=
  Dev.spares_ite _ (Dev.spares_wr _ _ _ _ _) (Dev.spares_wr _ _ _ _ _)

@[simp] theorem Dev.spares_gafBuild (d : Dev) : d.Spares (d.gafBuild) := by
  unfold Dev.gafBuild
  generalize List.range 140 = allClients, List.range 64 = allContainers
  extract_lets r pool clients budget heat
  have h1 : d.Spares pool := by simp -implicitDefEqProofs [Dev.Spares, pool]
  have h2 : d.Spares clients := Dev.spares_foldl (fun x c => by simp -implicitDefEqProofs [Dev.Spares]) _ h1
  clear_value clients
  have h3 : clients.Spares budget := Dev.spares_budgetBuild clients
  clear_value budget
  have h4 : d.Spares heat := Dev.spares_foldl (fun x c => Dev.spares_wr _ _ _ _ _) _ (h2.trans h3)
  exact h4.trans (Dev.spares_heatAll _)

@[simp] theorem Dev.spares_setTri (d : Dev) (tr : Nat) (x : Triad) : d.Spares (d.setTri tr x) := by
  unfold Dev.setTri
  simp -implicitDefEqProofs [Dev.Spares, Dev.stReq_raise]

@[simp] theorem Dev.spares_setLane (d : Dev) (tr lane : Nat) (x : Lane) : d.Spares (d.setLane tr lane x) := by
  unfold Dev.setLane
  simp -implicitDefEqProofs [Dev.Spares, Dev.stReq_raise]

@[simp] theorem Dev.spares_setLst (d : Dev) (tr lane st : Nat) : d.Spares (d.setLst tr lane st) := by
  unfold Dev.setLst
  simp -implicitDefEqProofs [Dev.Spares, Dev.stReq_raise]

@[simp] theorem Dev.spares_putUnit (d : Dev) (tr l : Nat) (x : Lane) : d.Spares (d.putUnit tr l x) := by
  unfold Dev.putUnit
  simp -implicitDefEqProofs [Dev.Spares, Dev.stReq_raise]

@[simp] theorem Dev.spares_note (d : Dev) (kind tr lane pc : Nat) : d.Spares (d.note kind tr lane pc) := by
  unfold Dev.note
  simp -implicitDefEqProofs [Dev.Spares, Dev.stReq_raise]

@[simp] theorem Dev.spares_trdSync (d : Dev) (tr : Nat) : d.Spares (d.trdSync tr) := by
  unfold Dev.trdSync
  extract_lets n run voting taint auth authorised
  have h : d.Spares authorised := by simp -implicitDefEqProofs [Dev.Spares, authorised, voting]
  clear_value authorised
  split
  case isTrue =>
    refine h.trans ?_
    simp -implicitDefEqProofs [Dev.Spares]
  case isFalse => exact h

@[simp] theorem Dev.spares_dropWait (d : Dev) (tr l : Nat) : d.Spares (d.dropWait tr l) := by
  unfold Dev.dropWait
  simp -implicitDefEqProofs [Dev.Spares, Dev.stReq_raise]

@[simp] theorem Dev.spares_readmitEnd (d : Dev) (tr st : Nat) : d.Spares (d.readmitEnd tr st) := by
  unfold Dev.readmitEnd
  extract_lets x
  split
  case h_1 => exact Dev.Spares.refl d
  case h_2 idle _ lane _ =>
    have hi : d.Spares idle := Dev.spares_setTri _ _ _
    clear_value idle
    exact hi.trans (by simp -implicitDefEqProofs [Dev.Spares, Dev.stReq_raise, Ev.TRD_READMIT])

@[simp] theorem Dev.spares_loadLane (d : Dev) (tr lane : Nat) (x : Rec) (keepData : Bool) : d.Spares (d.loadLane tr lane x keepData) := by
  unfold Dev.loadLane
  simp -implicitDefEqProofs [Dev.Spares, Dev.stReq_raise]

@[simp] theorem Dev.spares_trdQuiet (d : Dev) : d.Spares (d.trdQuiet) := by
  unfold Dev.trdQuiet
  generalize [0, 1, 2, 3] = triads, [0, 1, 2] = units, [1, 2, 3] = lanes
  refine Dev.spares_foldl (fun a tr => ?_) _ (by simp [Dev.Spares])
  extract_lets ls mode realm halted served loaded x
  have hs : a.Spares served := Dev.spares_foldl (fun b l => by simp [Dev.Spares]) _ (by simp -implicitDefEqProofs [Dev.Spares, halted, realm, mode])
  have hl : a.Spares loaded := by
    refine Dev.spares_foldl (fun b l => ?_) _ hs
    split <;> simp -implicitDefEqProofs [Dev.Spares]
  exact hl.trans (by simp -implicitDefEqProofs [Dev.Spares])

@[simp] theorem Dev.spares_trdStop (d : Dev) : d.Spares (d.trdStop) := by
  unfold Dev.trdStop
  simp -implicitDefEqProofs [Dev.Spares, Dev.stReq_raise]

@[simp] theorem Dev.spares_dropRegs (d : Dev) (lo hi : Nat) : d.Spares (d.dropRegs lo hi) := by
  unfold Dev.dropRegs
  simp -implicitDefEqProofs [Dev.Spares, Dev.stReq_raise]

@[simp] theorem Dev.spares_qfSizes (d : Dev) : d.Spares (d.qfSizes) := by
  unfold Dev.qfSizes
  simp -implicitDefEqProofs [Dev.Spares, Dev.stReq_raise]

@[simp] theorem Dev.spares_popsGone (d : Dev) : d.Spares (d.popsGone) := by
  unfold Dev.popsGone
  refine Dev.spares_foldl (fun a req => ?_) _ (Dev.Spares.refl d)
  split <;> simp -implicitDefEqProofs [Dev.Spares]

@[simp] theorem Dev.spares_qfBuild (d : Dev) : d.Spares (d.qfBuild) := by
  unfold Dev.qfBuild
  simp -implicitDefEqProofs [Dev.Spares, Dev.stReq_raise]

@[simp] theorem Dev.spares_ringBuild (d : Dev) (g : Nat) (keep : Bool) : d.Spares (d.ringBuild g keep) := by
  unfold Dev.ringBuild
  simp -implicitDefEqProofs [Dev.Spares, Dev.stReq_raise]

@[simp] theorem Dev.spares_tbBuild (d : Dev) : d.Spares (d.tbBuild) := by
  unfold Dev.tbBuild
  extract_lets ports
  have hp : d.Spares ports := Dev.spares_foldl (fun a p => by simp -implicitDefEqProofs [Dev.Spares]) _ (Dev.Spares.refl d)
  clear_value ports
  refine hp.trans ?_
  dsimp only
  split <;> simp -implicitDefEqProofs [Dev.Spares]

@[simp] theorem Dev.spares_estClear (d : Dev) (keep : Nat → Bool) : d.Spares (d.estClear keep) := by
  unfold Dev.estClear
  simp -implicitDefEqProofs [Dev.Spares, Dev.stReq_raise]

@[simp] theorem Dev.spares_slotShow (d : Dev) (k : Nat) : d.Spares (d.slotShow k) := by
  unfold Dev.slotShow
  simp -implicitDefEqProofs [Dev.Spares, Dev.stReq_raise]

@[simp] theorem Dev.spares_imgShow (d : Dev) : d.Spares (d.imgShow) := by
  unfold Dev.imgShow
  simp -implicitDefEqProofs [Dev.Spares, Dev.stReq_raise]

end Sys2Proof.Machine
end

section
/-!
PROOFS. Proofs/StateChanges.lean: what a build, the entries into QUIET, RUN and HALT and a failed activation change of the device's backbone.
-/
namespace Sys2Proof.Machine

@[simp] theorem Dev.spares_imgResult (d : Dev) (op st : Nat) : d.Spares (d.imgResult op st) := by
  unfold Dev.imgResult
  simp -implicitDefEqProofs [Dev.Spares, Dev.stReq_raise]

/-- A black-box record is put away in the store. -/
theorem Dev.spares_bbPut {d e : Dev} {k : Nat} {ev : Item × Item} {ctx : List Word} (h : d.bbPut k ev ctx = some e) : d.Spares e := by
  unfold Dev.bbPut at h
  split at h
  case isTrue => exact nomatch h
  case isFalse => cases h; exact Dev.Spares.refl d

theorem Dev.spares_noteState (d : Dev) (old new cause : Nat) : d.Spares (d.noteState old new cause) := by
  unfold Dev.noteState
  extract_lets seq data ev lost pst noted
  have hn : d.Spares noted := by
    simp only [noted]
    split
    case h_1 e he => exact Dev.spares_bbPut he
    case h_2 => simp -implicitDefEqProofs [Dev.Spares, lost]
  exact hn.trans (Dev.spares_raise _ _ _ _ (by decide))

/-- The device without its armed cut-over. -/
def Dev.noCut (d : Dev) : Dev := { d with img := { d.img with cut := none } }

/-- The device without its activation. -/
def Dev.noAct (d : Dev) : Dev := { d with img := { d.img with act := none } }

/-- The device with `r` of slot `slot` as its running structure. -/
def Dev.carry (d : Dev) (r : Reel) (slot : Nat) : Dev := { d with reel := some r, img := { d.img with bootSlot := slot } }

/-- The device that has asked for `m` and goes on in it. -/
def Dev.goIn (d : Dev) (m : DevState) (cause : Nat) : Dev := { d.go m cause with mode := m }

theorem Dev.spares_cutMiss (d : Dev) (why : Nat) : d.noCut.Spares (d.cutMiss why) := by
  unfold Dev.cutMiss
  split
  case h_1 h => unfold Dev.noCut; rw [← h]; exact Dev.Spares.refl d
  case h_2 c _ => exact Dev.Spares.trans (b := _) (Dev.spares_wr _ _ _ _ _) (Dev.spares_raise _ _ _ _ (by decide))

theorem Dev.spares_leaveLive (d : Dev) : d.noCut.Spares d.leaveLive := by
  unfold Dev.leaveLive
  exact (d.spares_cutMiss 4).trans (by simp [Dev.Spares])

/-- What HALT stops, with the rings given up. -/
theorem Dev.spares_haltEnter (d : Dev) (wasLive : Bool) :
    Dev.Spares (if wasLive then d.noCut else d) (d.haltEnter wasLive) := by
  unfold Dev.haltEnter
  extract_lets left stopped rings
  have hl : Dev.Spares (if wasLive then d.noCut else d) left := by
    cases wasLive
    · exact Dev.Spares.refl d
    · exact d.spares_leaveLive
  clear_value left
  have hs : left.Spares stopped := by simp [Dev.Spares, stopped]
  have hr : stopped.Spares rings := Dev.spares_foldl (fun a g => by simp -implicitDefEqProofs [Dev.Spares]) _ (Dev.Spares.refl _)
  exact ((hl.trans hs).trans hr).trans (by simp -implicitDefEqProofs [Dev.Spares])

theorem Dev.spares_actFail (d : Dev) : d.noAct.Spares d.actFail := by
  unfold Dev.actFail
  split
  case isTrue h =>
    unfold Dev.noAct
    rw [← Option.isNone_iff_eq_none.1 h]
    exact Dev.Spares.refl d
  case isFalse => exact (Dev.spares_imgResult _ _ _).trans (Dev.spares_imgShow _)

theorem Dev.spares_quietEnter (d : Dev) (cause : Nat) (kept : Nat → Bool) : (d.goIn .quiet cause).Spares (d.quietEnter cause kept) := by
  unfold Dev.quietEnter
  extract_lets asked q o started shown
  have ho : q.Spares o := by simp -implicitDefEqProofs [Dev.Spares, o]
  have hs : q.Spares started := Dev.spares_foldl (fun a g => by simp -implicitDefEqProofs [Dev.Spares]) _ ho
  have hw : q.Spares shown := Dev.spares_foldl (fun a g => Dev.spares_wr _ _ _ _ _) _ hs
  exact hw.trans (by simp -implicitDefEqProofs [Dev.Spares])

theorem Dev.spares_runEnter (d : Dev) : (d.goIn .run 4).Spares d.runEnter := by
  unfold Dev.runEnter
  extract_lets asked q rings tiles started
  have hr : q.Spares rings := Dev.spares_foldl (fun a g => by simp -implicitDefEqProofs [Dev.Spares]) _ (Dev.Spares.refl _)
  have ht : q.Spares tiles := Dev.spares_foldl (fun a g => by simp -implicitDefEqProofs [Dev.Spares]) _ hr
  exact ht.trans (by simp -implicitDefEqProofs [Dev.Spares, started])

theorem Dev.spares_build (d : Dev) (r : Reel) (slot : Nat) (old : Option Reel) : (d.carry r slot).Spares (d.build r slot old) := by
  unfold Dev.build
  generalize List.range 64 = rings
  extract_lets kept keepCh img carried queues lnk trw sin cleared dropped ringsBuilt channels tiles loops
  have hq : carried.Spares queues := by simp -implicitDefEqProofs [Dev.Spares, queues]
  have hc : queues.Spares dropped := by simp -implicitDefEqProofs [Dev.Spares, dropped, cleared]
  clear_value dropped
  have hr : dropped.Spares ringsBuilt := Dev.spares_foldl (fun a g => by simp -implicitDefEqProofs [Dev.Spares]) _ (Dev.Spares.refl _)
  clear_value ringsBuilt
  have ht : ringsBuilt.Spares channels := Dev.spares_foldl (fun a g => by simp -implicitDefEqProofs [Dev.Spares]) _ (Dev.spares_estClear _ _)
  clear_value channels
  have hp : channels.Spares tiles := Dev.spares_foldl (fun a g => by simp -implicitDefEqProofs [Dev.Spares]) _ (Dev.spares_dropRegs _ _ _)
  clear_value tiles
  have hd : tiles.Spares loops := by simp -implicitDefEqProofs [Dev.Spares, loops]
  clear_value loops
  exact (((((hq.trans hc).trans hr).trans ht).trans hp).trans hd).trans (by simp -implicitDefEqProofs [Dev.Spares])

end Sys2Proof.Machine
end

section
/-!
PROOFS. Proofs/Fuses.lean: the fuses go one way, for no command and no change of state drops what is blown.
-/
namespace Sys2Proof.Machine

/-! ### Fuses -/

/-- A table written key by key from a list reads as the values written. -/
theorem Tbl_get_foldl_set {α : Type} [DecidableEq α] (g : Nat → α) (e : α) (l : List Nat) (t : Tbl α) (k : Nat) :
    (l.foldl (fun (t : Tbl α) k => t.set k (g k) e) t).get k e = if k ∈ l then g k else t.get k e := by
  induction l generalizing t with
  | nil => simp
  | cons a l ih =>
    rw [List.foldl_cons, ih, Tbl.get_set]
    by_cases hk : k = a
    · simp [hk]
    · simp [hk]

/-- A key slot as a command leaves it: `a` as it found it, `b` as its meaning made it. -/
def KeySlot.merge (a b : KeySlot) : KeySlot := { hash := if a.valid then a.hash else b.hash, valid := a.valid || b.valid, revoked := a.revoked || b.revoked }

theorem Otp.merge_key (o n : Otp) {k : Nat} (hk : k < 4) : (o.merge n).keys.get k {} = (o.keys.get k {}).merge (n.keys.get k {}) := by
  refine (Tbl_get_foldl_set (fun k => (o.keys.get k {}).merge (n.keys.get k {})) ({} : KeySlot) (List.range 4) [] k).trans ?_
  rw [if_pos (List.mem_range.2 hk)]

theorem Otp.grows_merge (o n : Otp) : o.Grows (o.merge n) := by
  refine ⟨Nat.le_max_left _ _, rfl, fun k hk => ?_⟩
  rw [Otp.merge_key o n hk]
  constructor
  · intro hv
    simp [KeySlot.merge, hv]
  · intro hr
    simp [KeySlot.merge, hr]

/-! ### A change of state leaves the fuses -/

theorem Dev.Spares.img {d e : Dev} (h : d.Spares e) : e.img = d.img := h.2.2.2.2.2.1

theorem Dev.haltEnter_otp (d : Dev) (wasLive : Bool) : (d.haltEnter wasLive).img.otp = d.img.otp := by
  rw [(d.spares_haltEnter wasLive).img]
  cases wasLive <;> rfl

theorem Dev.actFail_otp (d : Dev) : d.actFail.img.otp = d.img.otp := by
  rw [d.spares_actFail.img]
  rfl

theorem Dev.enterState_otp (o d : Dev) (m : DevState) (cause : Nat) : (o.enterState d m cause).img.otp = d.img.otp := by
  unfold Dev.enterState
  extract_lets asked noted halted
  have ha : asked.img.otp = d.img.otp := by simp only [asked, Dev.wr_img]
  have hn : noted.img.otp = d.img.otp := by
    simp only [noted]
    split
    · rw [(Dev.spares_noteState _ _ _ _).img, ha]
    · exact ha
  show halted.img.otp = d.img.otp
  simp only [halted]
  split
  · rw [Dev.actFail_otp, Dev.haltEnter_otp, hn]
  · exact hn

theorem Dev.applyState_otp (o d : Dev) : (o.applyState d).img.otp = d.img.otp := by
  unfold Dev.applyState
  split
  · rfl
  · exact Dev.enterState_otp _ _ _ _

theorem Dev.touchTag_img (m : DevState) (d : Dev) : (Dev.touchTag m d).img = d.img := by
  unfold Dev.touchTag
  split <;> rfl

/-- The fuses after a command are those before it and those that it has blown. -/
theorem settle_otp (o d : Dev) : (settle o d).img.otp = o.img.otp.merge d.img.otp := by
  rw [settle_ended, Dev.drivePins_img, Dev.wr_img, Dev.ended, Dev.scanSafe_img, Dev.touchTag_img, Dev.applyState_otp]
  rfl

/-- Settles O6: what a command makes of the fuses is joined to those blown before, and no change of state takes any away. -/
theorem fusesGoOneWay : Obligations.FusesGoOneWay := by
  intro c s u hu
  obtain ⟨d, rfl⟩ := exec_dev hu
  show s.dev.img.otp.Grows (settle s.dev d).img.otp
  rw [settle_otp]
  exact Otp.grows_merge _ _

end Sys2Proof.Machine
end

section
/-!
PROOFS. Proofs/Registers.lean: fields that never share a place, whatever their indices, and what writes of one leave of another.
-/
namespace Sys2Proof.Machine

/-- No element of one field lies in the word of an element of the other: their offsets differ modulo every stride. -/
def Field.apartWord (f g : Field) : Bool :=
  let m := Nat.gcd (Nat.gcd f.s1 f.s2) (Nat.gcd g.s1 g.s2)
  f.base % m != g.base % m

theorem Field.addr_mod (f : Field) {m : Nat} (h1 : m ∣ f.s1) (h2 : m ∣ f.s2) (i j : Nat) : f.addr i j % m = f.base % m := by
  obtain ⟨a, ha⟩ := h1
  obtain ⟨b, hb⟩ := h2
  rw [Field.addr, ha, hb, Nat.mul_assoc, Nat.mul_assoc, Nat.add_mul_mod_self_left, Nat.add_mul_mod_self_left]

theorem Field.addr_ne {f g : Field} (h : f.apartWord g = true) (i j i' j' : Nat) : f.addr i j ≠ g.addr i' j' := by
  intro he
  unfold Field.apartWord at h
  rw [bne_iff_ne] at h
  apply h
  generalize hm : Nat.gcd (Nat.gcd f.s1 f.s2) (Nat.gcd g.s1 g.s2) = m
  have hf : m ∣ Nat.gcd f.s1 f.s2 := hm ▸ Nat.gcd_dvd_left _ _
  have hg : m ∣ Nat.gcd g.s1 g.s2 := hm ▸ Nat.gcd_dvd_right _ _
  rw [← f.addr_mod (hf.trans (Nat.gcd_dvd_left _ _)) (hf.trans (Nat.gcd_dvd_right _ _)) i j,
    ← g.addr_mod (hg.trans (Nat.gcd_dvd_left _ _)) (hg.trans (Nat.gcd_dvd_right _ _)) i' j', he]

/-- A write of `g` leaves `f`, whatever the indices: they lie in different words, or in different bits of a word. -/
def Field.apart (f g : Field) : Bool :=
  f.apartWord g || decide (g.lo + g.width ≤ 32) && (decide (f.lo + f.width ≤ g.lo) || decide (g.lo + g.width ≤ f.lo))

theorem Dev.rd_wr_apart (d : Dev) (f g : Field) (v i j i' j' : Nat) (h : g.apart f = true) : (d.wr f v i j).rd g i' j' = d.rd g i' j' := by
  unfold Field.apart at h
  simp only [Bool.or_eq_true, Bool.and_eq_true, decide_eq_true_eq] at h
  rcases h with h | ⟨h32, h⟩
  · exact Dev.rd_wr_ne d f g v i j i' j' (Field.addr_ne h _ _ _ _)
  · exact Dev.rd_wr_disjoint d f g v i j i' j' h32 h

/-- The fields that storing an event may change. -/
def evFields : List Field :=
  [Reg.QF_CNT_DROP_CNT, Reg.QF_CNT_OVERWRITE_CNT, Reg.QF_CNT_CUT_CNT, Reg.PST_BB_DROPPED_CNT, Reg.WCH_LOG_COUNT, Reg.WCH_LOG_OVERFLOW]

/-- Storing an event leaves the field. -/
def Field.quiet (f : Field) : Bool := evFields.all (fun g => f.apartWord g)

theorem Field.not_mem_evWords {f : Field} (h : f.quiet = true) (i j : Nat) : f.addr i j ∉ evWords := by
  unfold Field.quiet evFields at h
  simp only [List.all_cons, List.all_nil, Bool.and_true, Bool.and_eq_true] at h
  obtain ⟨h1, h2, h3, h4, h5, h6⟩ := h
  unfold evWords
  simp only [List.mem_cons, List.not_mem_nil, or_false, not_or]
  exact ⟨Field.addr_ne h1 _ _ _ _, Field.addr_ne h2 _ _ _ _, Field.addr_ne h3 _ _ _ _, Field.addr_ne h4 _ _ _ _, Field.addr_ne h5 _ _ _ _, Field.addr_ne h6 _ _ _ _⟩

theorem Dev.rd_raise_quiet (d : Dev) (e : Ev) (inst data : Nat) (f : Field) (i j : Nat) (h : f.quiet = true) : (d.raise e inst data).rd f i j = d.rd f i j :=
  Dev.rd_raise d e inst data f i j (Field.not_mem_evWords h i j)

/-! ### Elements of fields -/

/-- The field has the element. -/
def Field.has (f : Field) (i j : Nat) : Bool := (f.s1 == 0 || decide (i < f.n1)) && (f.s2 == 0 || decide (j < f.n2))

theorem Field.has_of {f : Field} {i j : Nat} (hi : i < f.n1) (hj : j < f.n2) : f.has i j = true := by
  simp [Field.has, hi, hj]

/-- The word of the field's last element. -/
def Field.last (f : Field) : Nat := f.base + f.s1 * (f.n1 - 1) + f.s2 * (f.n2 - 1)

/-- No element of one field lies in the word of an element of the other: their offsets differ modulo the strides of the first index, or their ranges are disjoint. -/
def Field.apartIn (f g : Field) : Bool :=
  (let m := Nat.gcd f.s1 g.s1
   (List.range (max f.n2 1)).all fun j => (List.range (max g.n2 1)).all fun j' => (f.base + f.s2 * j) % m != (g.base + g.s2 * j') % m) ||
  decide (f.last < g.base) || decide (g.last < f.base)

theorem Field.has_iff (f : Field) (i j : Nat) : f.has i j = true ↔ (f.s1 = 0 ∨ i < f.n1) ∧ (f.s2 = 0 ∨ j < f.n2) := by
  simp [Field.has]

theorem Field.addr_le_last {f : Field} {i j : Nat} (h : f.has i j = true) : f.addr i j ≤ f.last := by
  have hb : ∀ s i n : Nat, s = 0 ∨ i < n → s * i ≤ s * (n - 1) := by
    rintro s i n (rfl | h)
    · simp
    · exact Nat.mul_le_mul_left _ (by omega)
  rw [Field.has_iff] at h
  exact Nat.add_le_add (Nat.add_le_add_left (hb _ _ _ h.1) _) (hb _ _ _ h.2)

theorem Field.base_le_addr (f : Field) (i j : Nat) : f.base ≤ f.addr i j := by
  unfold Field.addr
  omega

theorem Field.addr_mod_inner (f : Field) {m : Nat} (h : m ∣ f.s1) {i j : Nat} (hj : f.has i j = true) : ∃ k, k < max f.n2 1 ∧ f.addr i j % m = (f.base + f.s2 * k) % m := by
  obtain ⟨a, ha⟩ := h
  have he : ∀ k, f.s2 * k = f.s2 * j → f.addr i j % m = (f.base + f.s2 * k) % m := by
    intro k hk
    rw [Field.addr, ha, hk, Nat.mul_assoc, Nat.add_right_comm, Nat.add_mul_mod_self_left]
  rw [Field.has_iff] at hj
  rcases hj.2 with hj | hj
  · exact ⟨0, by omega, he 0 (by rw [hj, Nat.zero_mul, Nat.zero_mul])⟩
  · exact ⟨j, by omega, he j rfl⟩

theorem Field.addr_ne_in {f g : Field} (h : f.apartIn g = true) {i j : Nat} (hj : f.has i j = true) {i' j' : Nat} (hj' : g.has i' j' = true) :
    f.addr i j ≠ g.addr i' j' := by
  intro he
  unfold Field.apartIn at h
  rw [Bool.or_eq_true, Bool.or_eq_true, decide_eq_true_eq, decide_eq_true_eq] at h
  have hf := Field.addr_le_last hj
  have hg := Field.addr_le_last hj'
  have hf' := f.base_le_addr i j
  have hg' := g.base_le_addr i' j'
  rcases h with (h | h) | h
  · obtain ⟨k, hk, hf⟩ := f.addr_mod_inner (Nat.gcd_dvd_left f.s1 g.s1) hj
    obtain ⟨k', hk', hg⟩ := g.addr_mod_inner (Nat.gcd_dvd_right f.s1 g.s1) hj'
    have hne := List.all_eq_true.1 (List.all_eq_true.1 h k (List.mem_range.2 hk)) k' (List.mem_range.2 hk')
    rw [bne_iff_ne] at hne
    exact hne (hf.symm.trans ((congrArg (· % _) he).trans hg))
  · omega
  · omega

/-- A write of an element of `g` leaves the elements of `f`. -/
def Field.free (f g : Field) : Bool :=
  f.apartIn g || decide (g.lo + g.width ≤ 32) && (decide (f.lo + f.width ≤ g.lo) || decide (g.lo + g.width ≤ f.lo))

theorem Dev.rd_wr_free (d : Dev) {f g : Field} (v : Nat) {i j i' j' : Nat} (hj : f.has i j = true) (hj' : g.has i' j' = true) (h : g.free f = true) :
    (d.wr f v i j).rd g i' j' = d.rd g i' j' := by
  unfold Field.free at h
  simp only [Bool.or_eq_true, Bool.and_eq_true, decide_eq_true_eq] at h
  rcases h with h | ⟨h32, h⟩
  · exact Dev.rd_wr_ne d f g v i j i' j' (Field.addr_ne_in h hj' hj)
  · exact Dev.rd_wr_disjoint d f g v i j i' j' h32 h

/-! ### What a function writes -/

/-- The field is changed by no write of the fields listed and by no storing of an event. -/
def Field.clearOf (f : Field) (l : List Field) : Bool := l.all f.free && evFields.all f.apartIn

theorem Field.clearOf_free {f g : Field} {l : List Field} (h : f.clearOf l = true) (hg : g ∈ l) : f.free g = true :=
  List.all_eq_true.1 (Bool.and_eq_true_iff.1 h).1 g hg

theorem Field.clearOf_events {f : Field} {l : List Field} (h : f.clearOf l = true) {i j : Nat} (hj : f.has i j = true) : f.addr i j ∉ evWords := by
  have he : ∀ g ∈ evFields, f.apartIn g = true := List.all_eq_true.1 (Bool.and_eq_true_iff.1 h).2
  intro hm
  unfold evWords at hm
  simp only [List.mem_cons, List.not_mem_nil, or_false] at hm
  unfold evFields at he
  rcases hm with hm | hm | hm | hm | hm | hm <;> exact Field.addr_ne_in (he _ (by simp)) hj rfl hm

/-- `e` reads as `d` in every element of a field that a write of none of those listed, nor the storing of an event, changes. -/
def Dev.Writes (l : List Field) (d e : Dev) : Prop := ∀ (f : Field) (i j : Nat), f.has i j = true → f.clearOf l = true → e.rd f i j = d.rd f i j

namespace Dev.Writes

theorem refl (l : List Field) (d : Dev) : Dev.Writes l d d := fun _ _ _ _ _ => rfl

theorem trans {l : List Field} {a b c : Dev} (h : Dev.Writes l a b) (k : Dev.Writes l b c) : Dev.Writes l a c :=
  fun f i j hj hl => (k f i j hj hl).trans (h f i j hj hl)

theorem mono {l m : List Field} {d e : Dev} (h : Dev.Writes l d e) (hs : l ⊆ m) : Dev.Writes m d e := fun f i j hj hl =>
  h f i j hj (Bool.and_eq_true_iff.2 ⟨List.all_eq_true.2 fun _ hg => Field.clearOf_free hl (hs hg), (Bool.and_eq_true_iff.1 hl).2⟩)

theorem wr {l : List Field} {f : Field} (d : Dev) (v : Nat) {i j : Nat} (hj : f.has i j = true) (h : f ∈ l) : Dev.Writes l d (d.wr f v i j) :=
  fun _ _ _ hj' hl => Dev.rd_wr_free d v hj hj' (Field.clearOf_free hl h)

theorem raise (l : List Field) (d : Dev) (e : Ev) (inst data : Nat) : Dev.Writes l d (d.raise e inst data) :=
  fun f i j hj hl => Dev.rd_raise d e inst data f i j (Field.clearOf_events hl hj)

/-- A device with the same registers reads alike. -/
theorem of_regs {l : List Field} {d e : Dev} (h : e.regs = d.regs) : Dev.Writes l d e :=
  fun _ _ _ _ _ => Dev.rd_congr (Dev.word_congr h _)

theorem ite {l : List Field} {d a b : Dev} (c : Prop) [Decidable c] (ha : Dev.Writes l d a) (hb : Dev.Writes l d b) : Dev.Writes l d (if c then a else b) := by
  split
  · exact ha
  · exact hb

theorem foldl {β : Type} {l : List Field} {f : Dev → β → Dev} (bs : List β) (hf : ∀ (x : Dev) b, b ∈ bs → Dev.Writes l x (f x b)) (d : Dev) :
    Dev.Writes l d (bs.foldl f d) := by
  induction bs generalizing d with
  | nil => exact refl l d
  | cons b bs ih => exact (hf d b List.mem_cons_self).trans (ih (fun x c hc => hf x c (List.mem_cons_of_mem _ hc)) (f d b))

end Dev.Writes

end Sys2Proof.Machine
end

section
/-!
PROOFS. Proofs/Arithmetic.lean: the R-format instructions of chapter 14 that set no flag: what is left of each is that the ALU computes the result of Table 14.3.
-/
namespace Sys2Proof.Machine

/-! ### What the ALU computes (Table 14.3) -/

theorem aluRol_eq_rotateLeft (a b : Word) : aluRol a b = a.rotateLeft (shAmt b) :=
  BitVec.rotateLeft_mod_eq_rotateLeft

theorem aluMulh_eq_div (a b : Word) : aluMulh a b = BitVec.ofInt 32 (a.toInt * b.toInt / 2 ^ 32) := by
  unfold aluMulh
  rw [Int.fdiv_eq_ediv_of_nonneg _ (by decide)]

theorem mul_eq_ofNat (a b : Word) : a * b = BitVec.ofNat 32 (a.toNat * b.toNat) := rfl

theorem ite_lt_eq_ofInt_min (a b : Word) : (if b.toInt < a.toInt then b else a) = BitVec.ofInt 32 (min a.toInt b.toInt) := by
  split
  case isTrue h => rw [min_eq_right h.le, BitVec.ofInt_toInt]
  case isFalse h => rw [min_eq_left (not_lt.1 h), BitVec.ofInt_toInt]

theorem ite_lt_eq_ofInt_max (a b : Word) : (if a.toInt < b.toInt then b else a) = BitVec.ofInt 32 (max a.toInt b.toInt) := by
  split
  case isTrue h => rw [max_eq_right h.le, BitVec.ofInt_toInt]
  case isFalse h => rw [max_eq_left (not_lt.1 h), BitVec.ofInt_toInt]

theorem ite_lt_eq_ofNat_min (a b : Word) : (if b.toNat < a.toNat then b else a) = BitVec.ofNat 32 (min a.toNat b.toNat) := by
  split
  case isTrue h => rw [min_eq_right h.le, BitVec.ofNat_toNat, BitVec.setWidth_eq]
  case isFalse h => rw [min_eq_left (not_lt.1 h), BitVec.ofNat_toNat, BitVec.setWidth_eq]

theorem ite_lt_eq_ofNat_max (a b : Word) : (if a.toNat < b.toNat then b else a) = BitVec.ofNat 32 (max a.toNat b.toNat) := by
  split
  case isTrue h => rw [max_eq_right h.le, BitVec.ofNat_toNat, BitVec.setWidth_eq]
  case isFalse h => rw [max_eq_left (not_lt.1 h), BitVec.ofNat_toNat, BitVec.setWidth_eq]

theorem bitAt_toNat (a : Word) (i : Nat) : bitAt a.toNat i = a.getLsbD i := by
  unfold bitAt
  rw [BitVec.getLsbD, Nat.testBit_eq_decide_div_mod_eq]
  rfl

/-- The place after the highest bit set among the low `n`. -/
def bitLength (a : Word) (n : Nat) : Nat := (List.range n).foldl (fun n i => if a.getLsbD i then i + 1 else n) 0

theorem bitLength_succ (a : Word) (n : Nat) : bitLength a (n + 1) = if a.getLsbD n then n + 1 else bitLength a n := by
  unfold bitLength
  rw [List.range_succ, List.foldl_append]
  rfl

theorem clzNat_add_bitLength (a : Word) (n : Nat) : clzNat a.toNat n + bitLength a n = n := by
  induction n with
  | zero => rfl
  | succ n ih =>
    rw [bitLength_succ, clzNat, bitAt_toNat]
    split <;> omega

theorem clzNat_eq_sub (a : Word) : clzNat a.toNat 32 = 32 - bitLength a 32 := by
  have h := clzNat_add_bitLength a 32
  omega

theorem popc_eq_length (a : Word) (n : Nat) : popc a.toNat n = ((List.range n).filter (fun i => a.getLsbD i)).length := by
  induction n with
  | zero => rfl
  | succ n ih =>
    rw [popc, bitAt_toNat, ih, List.range_succ, List.filter_append, List.length_append, Nat.add_comm]
    cases h : a.getLsbD n <;> simp [h, b2n]

/-! ### What an instruction of this shape leaves -/

/-- An ALU instruction that sets no flag writes its result and goes on. -/
theorem executes_alu_plain {c : Instr} {s : State} {t tr l rd : Nat} {w : Word} {f : Core → Word} {g : Core → Word} (hl : l < 6)
    (hc : exec c s = s.run t fun d => d.alu tr l w rd fun c => (f c, 0)) (hfg : ∀ c, f c = g c) : Executes c s tr l w fun c => c.fallsTo rd (g c) := by
  refine (executes_alu hl hc (Nat.zero_and _)).congr ?_
  rw [Core.flagged_zero, hfg]

/-- An R-format instruction of two sources writes its result and goes on. -/
theorem executes_alu2 {c : Instr} {s : State} {t tr l fn rd ra rb : Nat} {f g : Word → Word → Word} (hl : l < 6)
    (hc : exec c s = s.run t fun d => d.alu2 tr l fn rd ra rb f) (hfg : ∀ a b, f a b = g a b) :
    Executes c s tr l (wR 0 rd ra rb fn) fun c => c.fallsTo rd (g (c.rd ra) (c.rd rb)) :=
  executes_alu_plain hl hc fun _ => hfg _ _

/-- Settles O33: each of these instructions is one ALU instruction without flags; what is left is that its function is that of Table 14.3. -/
theorem arithmeticAndLogic : Obligations.ArithmeticAndLogic := by
  intro s t tr l rd ra rb
  refine ⟨?_, ?_, ?_, ?_, ?_, ?_, ?_, ?_, ?_, ?_, ?_, ?_, ?_, ?_, ?_, ?_, ?_, ?_, ?_, ?_, ?_, ?_, ?_⟩
  · exact executes_alu2 l.isLt (exec_add t tr l rd ra rb s) fun _ _ => rfl
  · exact executes_alu2 l.isLt (exec_sub t tr l rd ra rb s) fun _ _ => rfl
  · exact executes_alu2 l.isLt (exec_and t tr l rd ra rb s) fun _ _ => rfl
  · exact executes_alu2 l.isLt (exec_or t tr l rd ra rb s) fun _ _ => rfl
  · exact executes_alu2 l.isLt (exec_xor t tr l rd ra rb s) fun _ _ => rfl
  · exact executes_alu2 l.isLt (exec_nor t tr l rd ra rb s) fun _ _ => rfl
  · exact executes_alu2 l.isLt (exec_andn t tr l rd ra rb s) fun _ _ => rfl
  · exact executes_alu2 l.isLt (exec_sll t tr l rd ra rb s) aluSll_eq_mul
  · exact executes_alu2 l.isLt (exec_srl t tr l rd ra rb s) aluSrl_eq_div
  · exact executes_alu2 l.isLt (exec_sra t tr l rd ra rb s) aluSra_eq_div
  · exact executes_alu2 l.isLt (exec_ror t tr l rd ra rb s) aluRor_eq_rotateRight
  · exact executes_alu2 l.isLt (exec_rol t tr l rd ra rb s) aluRol_eq_rotateLeft
  · exact executes_alu2 l.isLt (exec_slt t tr l rd ra rb s) fun _ _ => wordOf_decide _
  · exact executes_alu2 l.isLt (exec_sltu t tr l rd ra rb s) fun _ _ => wordOf_decide _
  · exact executes_alu2 l.isLt (exec_min t tr l rd ra rb s) ite_lt_eq_ofInt_min
  · exact executes_alu2 l.isLt (exec_max t tr l rd ra rb s) ite_lt_eq_ofInt_max
  · exact executes_alu2 l.isLt (exec_minu t tr l rd ra rb s) ite_lt_eq_ofNat_min
  · exact executes_alu2 l.isLt (exec_maxu t tr l rd ra rb s) ite_lt_eq_ofNat_max
  · exact executes_alu2 l.isLt (exec_mul t tr l rd ra rb s) mul_eq_ofNat
  · exact executes_alu2 l.isLt (exec_mulh t tr l rd ra rb s) aluMulh_eq_div
  · exact executes_alu2 l.isLt (exec_mulhu t tr l rd ra rb s) fun _ _ => rfl
  · rintro rfl
    exact executes_alu_plain l.isLt (exec_clz t tr l rd ra s) fun c => congrArg (BitVec.ofNat 32) (clzNat_eq_sub _)
  · rintro rfl
    exact executes_alu_plain l.isLt (exec_popc t tr l rd ra s) fun c => congrArg (BitVec.ofNat 32) (popc_eq_length _ _)

end Sys2Proof.Machine
end

section
/-!
PROOFS. Proofs/LoadsAndStores.lean: loads from the TCMs of a lane and stores to its data TCM.
-/
namespace Sys2Proof.Machine

/-! ### The parts of a word -/

/-- The part of a word that a load takes, as a number. -/
theorem toNat_setWidth_shiftRight (w : Word) (k n : Nat) : ((w >>> k).setWidth n).toNat = w.toNat / 2 ^ k % 2 ^ n := by
  rw [BitVec.toNat_setWidth, BitVec.toNat_ushiftRight, Nat.shiftRight_eq_div_pow]

theorem loadPart_unsigned (w : Word) (ea size : Nat) : loadPart w ea size false = ((w >>> (8 * (ea % 4))).setWidth (8 * size)).setWidth 32 := by
  apply BitVec.eq_of_toNat_eq
  rw [BitVec.toNat_setWidth, toNat_setWidth_shiftRight]
  simp [loadPart]

theorem sx_toNat {n : Nat} (v : BitVec n) : sx n v.toNat = v.toInt := by
  unfold sx
  rw [BitVec.toInt_eq_toNat_cond]
  dsimp only
  rw [Nat.mod_eq_of_lt v.isLt]
  rcases n with _ | n
  · have := v.isLt
    simp at this ⊢
    omega
  · have hp : 2 ^ (n + 1) = 2 * 2 ^ n := by ring
    simp only [Nat.add_sub_cancel]
    split <;> split <;> omega

theorem loadPart_signed (w : Word) (ea size : Nat) : loadPart w ea size true = ((w >>> (8 * (ea % 4))).setWidth (8 * size)).signExtend 32 := by
  rw [BitVec.signExtend, ← sx_toNat, toNat_setWidth_shiftRight]
  rfl

/-- Bits `k` to `k + n - 1` of a word. -/
def partMask (k n : Nat) : Word := (BitVec.allOnes n).setWidth 32 <<< k

theorem getLsbD_putField (w v : Word) {k n i : Nat} (h : k + n ≤ 32) :
    (putField w k n v.toNat).getLsbD i = if k ≤ i ∧ i < k + n then v.getLsbD (i - k) else w.getLsbD i := by
  rw [BitVec.getLsbD, toNat_putField w k n _ h, testBit_put]
  rfl

/-- A word with a part replaced keeps what lies outside the part. -/
theorem putField_eq_mask (w v : Word) {k n : Nat} (h : k + n ≤ 32) :
    putField w k n v.toNat = (w &&& ~~~((BitVec.allOnes n).setWidth 32 <<< k)) ||| ((v &&& (BitVec.allOnes n).setWidth 32) <<< k) := by
  apply BitVec.eq_of_getLsbD_eq
  intro i hi
  rw [getLsbD_putField w v h]
  simp only [BitVec.getLsbD_or, BitVec.getLsbD_and, BitVec.getLsbD_not, BitVec.getLsbD_shiftLeft, BitVec.getLsbD_setWidth, BitVec.getLsbD_allOnes, hi, decide_true,
    Bool.true_and]
  by_cases hk : i < k
  · have : ¬ (k ≤ i ∧ i < k + n) := by omega
    simp [hk, this]
  · by_cases hn : i < k + n
    · have h1 : k ≤ i := by omega
      have h2 : i - k < n := by omega
      have h3 : i - k < 32 := by omega
      simp [hk, hn, h1, h2, h3]
    · have h2 : ¬ i - k < n := by omega
      simp [hk, hn, h2]

/-! ### Loads -/

theorem Lane.tcm_of {x : Lane} {ea : Nat} {w : Word}
    (h : ea < 0x40000 ∧ w = x.itcm.get (ea / 4) 0#32 ∨ 0x10000000 ≤ ea ∧ ea < 0x10040000 ∧ w = x.dtcm.get ((ea - 0x10000000) / 4) 0#32) : x.tcm ea = some w := by
  unfold Lane.tcm
  rcases h with ⟨hlt, rfl⟩ | ⟨hlo, hhi, rfl⟩
  · rw [if_pos hlt]
  · rw [if_neg (by omega), if_pos ⟨hlo, hhi⟩]

theorem Dev.tcmErrors_nil (d : Dev) (tr l pc : Nat) : d.tcmErrors tr l pc [] = d := by
  simp [Dev.tcmErrors]

theorem Dev.unitRuns_begin (t : Nat) (d : Dev) (tr l : Nat) : (begin_ t d).unitRuns tr l = d.unitRuns tr l := rfl

section
variable {c : Instr} {s : State} {t tr l op rd ra size : Nat} {imm : BitVec 16} {signed : Bool} {win : Dev → Lane → Nat → Dev} (hl : l < 6)
  (hc : exec c s = s.run t fun d => d.load tr l op rd ra imm size signed [] win)
include hl hc

/-- A load of a TCM whose address is aligned writes the part of the word to rd. -/
theorem executes_load {w : Word} (ha : ((s.dev.unitLane tr l).core.ea ra imm).toNat % size = 0)
    (hw : (s.dev.unitLane tr l).tcm ((s.dev.unitLane tr l).core.ea ra imm).toNat = some w) :
    Executes c s tr l (wI op rd ra imm.toNat) fun c => c.fallsTo rd (loadPart w ((s.dev.unitLane tr l).core.ea ra imm).toNat size signed) := by
  refine executes_of hc fun h => ?_
  simp only [ha, ne_eq, not_true_eq_false, if_false, hw, Dev.tcmErrors_nil, Dev.unitRuns_begin, h.1, if_true]
  exact h.wrote_result t hl rd _

/-- A load at any other address traps in place. -/
theorem executes_load_misaligned (ha : ((s.dev.unitLane tr l).core.ea ra imm).toNat % size ≠ 0)
    (hv : (s.dev.unitLane tr l).core.tvec ≠ 0#32) (hi : (s.dev.unitLane tr l).core.inTrap = false) :
    Executes c s tr l (wI op rd ra imm.toNat) fun c => c.trapped c.pc 2 (c.ea ra imm).toNat := by
  refine executes_of hc fun h => ?_
  simp only [ha, ne_eq, not_false_eq_true, if_true]
  exact h.wrote_trapIn t hl 2 _ (by decide) hv hi

end

/-! ### Stores -/

/-- A lane whose data TCM holds a stored value. -/
def Lane.stored (x : Lane) (ea size : Nat) (v : Word) : Lane :=
  { x with dtcm := x.dtcm.set ((ea - 0x10000000) / 4) (storePart (x.dtcm.get ((ea - 0x10000000) / 4) 0#32) ea size v) 0#32 }

section
variable {c : Instr} {s : State} {t tr l op rs ra size : Nat} {imm : BitVec 16} {win : Dev → Lane → Nat → Word → Dev} (hl : l < 6)
  (hc : exec c s = s.run t fun d => d.store tr l op rs ra imm size win)
include hl hc

/-- A store at an address that is not aligned traps in place. -/
theorem executes_store_misaligned (ha : ((s.dev.unitLane tr l).core.ea ra imm).toNat % size ≠ 0)
    (hv : (s.dev.unitLane tr l).core.tvec ≠ 0#32) (hi : (s.dev.unitLane tr l).core.inTrap = false) :
    Executes c s tr l (wI op rs ra imm.toNat) fun c => c.trapped c.pc 2 (c.ea ra imm).toNat := by
  refine executes_of hc fun h => ?_
  simp only [ha, ne_eq, not_false_eq_true, if_true]
  exact h.wrote_trapIn t hl 2 _ (by decide) hv hi

/-- A store to data TCM leaves its lanes with one word of it changed. -/
theorem ends_store {ea : Nat} (hea : ((s.dev.unitLane tr l).core.ea ra imm).toNat = ea) (ha : ea % size = 0) (hlo : 0x10000000 ≤ ea) (hhi : ea < 0x10040000)
    (h : s.dev.Stands tr l (wI op rs ra imm.toNat)) :
    Ends c s fun d => s.dev.Retires d tr l ((s.dev.unitLane tr l).stored ea size ((s.dev.unitLane tr l).core.rd rs))
      ((s.dev.unitLane tr l).core.goesTo ((s.dev.unitLane tr l).core.pc + 4#32)) := by
  refine ⟨_, hc, rfl, ?_⟩
  dsimp only [Dev.store]
  rw [Dev.isa_stands _ _ _ _ _ ((Dev.stands_begin t s.dev tr l _).2 h)]
  have hx : (begin_ t s.dev).unitLane tr l = s.dev.unitLane tr l := rfl
  simp only [hx, hea, ha, ne_eq, not_true_eq_false, if_false, hlo, hhi, and_self, if_true]
  have hw := Dev.wrote_complete (h.calm t) hl ((s.dev.unitLane tr l).stored ea size ((s.dev.unitLane tr l).core.rd rs)) ((s.dev.unitLane tr l).core.pc + 4#32)
  have e : (s.dev.unitLane tr l).core.goesTo ((s.dev.unitLane tr l).core.pc + 4#32) =
      { (s.dev.unitLane tr l).core with pc := (s.dev.unitLane tr l).core.pc + 4#32, instret := (s.dev.unitLane tr l).core.instret + 1#32, wait := none } := by
    simp only [Core.goesTo, h.wait]
  rw [e]
  exact hw.retires

end

/-! ### The statements -/

section
variable {c : Instr} {s : State} {t : Nat} {tr : Fin 4} {l : Fin 6} {op rd ra size : Nat} {imm : BitVec 16}

/-- What a load does, by the function that takes its part of the word. -/
theorem loads_of {signed : Bool} {win : Dev → Lane → Nat → Dev} {f : Word → Word} {x : Lane} {ea : Nat} (hx : s.dev.unitLane tr l = x)
    (hea : (x.core.rd ra + imm.signExtend 32).toNat = ea) (hc : exec c s = s.run t fun d => d.load tr l op rd ra imm size signed [] win)
    (hf : ea % size = 0 → ∀ w, loadPart w ea size signed = f (w >>> (8 * (ea % 4)))) :
    (ea % size = 0 → (∀ w, (ea < 0x40000 ∧ w = x.itcm.get (ea / 4) 0#32 ∨ 0x10000000 ≤ ea ∧ ea < 0x10040000 ∧ w = x.dtcm.get ((ea - 0x10000000) / 4) 0#32) →
      Executes c s tr l (wI op rd ra imm.toNat) fun c => c.fallsTo rd (f (w >>> (8 * (ea % 4)))))) ∧
    (ea % size ≠ 0 → x.core.tvec ≠ 0#32 → x.core.inTrap = false → Executes c s tr l (wI op rd ra imm.toNat) fun c => c.trapped c.pc 2 ea) := by
  subst hea hx
  refine ⟨fun ha w hw => (executes_load l.isLt hc ha (Lane.tcm_of hw)).congr ?_, fun ha hv hi => (executes_load_misaligned l.isLt hc ha hv hi).congr rfl⟩
  rw [← hf ha]
  rfl

/-- What a store does, by the mask of its part of the word. -/
theorem stores_of {win : Dev → Lane → Nat → Word → Dev} {mask : Word} {x : Lane} {ea : Nat} (hx : s.dev.unitLane tr l = x)
    (hea : (x.core.rd ra + imm.signExtend 32).toNat = ea) (hc : exec c s = s.run t fun d => d.store tr l op rd ra imm size win)
    (hs : ea % size = 0 → 8 * (ea % 4) + 8 * size ≤ 32) (hm : (BitVec.allOnes (8 * size)).setWidth 32 = mask) :
    (ea % size = 0 → 0x10000000 ≤ ea → ea < 0x10040000 → s.dev.Stands tr l (wI op rd ra imm.toNat) →
      Ends c s fun d => ∃ m : Lane, m.itcm = x.itcm ∧
        m.dtcm.get ((ea - 0x10000000) / 4) 0#32 = (x.dtcm.get ((ea - 0x10000000) / 4) 0#32 &&& ~~~(mask <<< (8 * (ea % 4)))) ||| ((x.core.rd rd &&& mask) <<< (8 * (ea % 4))) ∧
        (∀ j, j ≠ (ea - 0x10000000) / 4 → m.dtcm.get j 0#32 = x.dtcm.get j 0#32) ∧
        s.dev.Retires d tr l m (x.core.goesTo (x.core.pc + 4#32))) ∧
    (ea % size ≠ 0 → x.core.tvec ≠ 0#32 → x.core.inTrap = false → Executes c s tr l (wI op rd ra imm.toNat) fun c => c.trapped c.pc 2 ea) := by
  subst hm
  refine ⟨fun ha hlo hhi h => ?_, fun ha hv hi => ?_⟩
  · subst hx
    obtain ⟨u, hu, hq, hr⟩ := ends_store l.isLt hc hea ha hlo hhi h
    refine ⟨u, hu, hq, (s.dev.unitLane tr l).stored ea size ((s.dev.unitLane tr l).core.rd rd), rfl, ?_, fun j hj => Tbl.get_set_ne _ _ _ _ hj, hr⟩
    rw [← putField_eq_mask _ _ (hs ha)]
    exact Tbl.get_set_self _ _ _ _
  · subst hea hx
    exact (executes_store_misaligned l.isLt hc ha hv hi).congr rfl

end

/-- Settles O36: the five loads differ in the part of the word that they take. -/
theorem loadsFromTcm : Obligations.LoadsFromTcm := by
  intro s t tr l rd ra imm
  refine ⟨?lw, ?lh, ?lhu, ?lb, ?lbu⟩
  case lw => exact loads_of (f := fun w => w) rfl rfl (exec_lw t tr l rd ra imm [] s) fun ha w => by rw [loadPart_unsigned, ha]; simp
  case lh => exact loads_of (f := fun w => (w.setWidth 16).signExtend 32) rfl rfl (exec_lh t tr l rd ra imm [] s) fun _ w => loadPart_signed w _ 2
  case lhu => exact loads_of (f := fun w => (w.setWidth 16).setWidth 32) rfl rfl (exec_lhu t tr l rd ra imm [] s) fun _ w => loadPart_unsigned w _ 2
  case lb => exact loads_of (f := fun w => (w.setWidth 8).signExtend 32) rfl rfl (exec_lb t tr l rd ra imm [] s) fun _ w => loadPart_signed w _ 1
  case lbu => exact loads_of (f := fun w => (w.setWidth 8).setWidth 32) rfl rfl (exec_lbu t tr l rd ra imm [] s) fun _ w => loadPart_unsigned w _ 1

/-- Settles O37: the three stores differ in the mask of the part that they replace. -/
theorem storesToTcm : Obligations.StoresToTcm := by
  intro s t tr l rs ra imm
  refine ⟨?sw, ?sh, ?sb⟩
  case sw => exact stores_of rfl rfl (exec_sw t tr l rs ra imm s) (by omega) (by decide)
  case sh => exact stores_of rfl rfl (exec_sh t tr l rs ra imm s) (by omega) (by decide)
  case sb => exact stores_of rfl rfl (exec_sb t tr l rs ra imm s) (by omega) (by decide)

end Sys2Proof.Machine
end

section
/-!
PROOFS. Proofs/Traps.lean: reads of the timebase by a triad, traps and returns.
-/
namespace Sys2Proof.Machine

/-- A command that leaves its unit as an instruction does, however it came to execute it. -/
theorem executes_run {c : Instr} {s : State} {t tr l : Nat} {w : Word} {k : Core → Core} {f : Dev → Dev} (hc : exec c s = s.run t f)
    (hf : s.dev.Stands tr l w → (begin_ t s.dev).Wrote (f (begin_ t s.dev)) tr l (s.dev.unitLane tr l) (k (s.dev.unitLane tr l).core)) :
    Executes c s tr l w k :=
  fun h => ⟨_, hc, rfl, (hf h).retires⟩

/-- An instruction that leaves a core, still waiting for nothing, and writes a register of it. -/
theorem Dev.Stands.wrote_resultOf {d : Dev} {tr l : Nat} {w : Word} (t : Nat) (h : d.Stands tr l w) (hl : l < 6) {c : Core} (hc : c.wait = none) (r : Nat) (v : Word) :
    (begin_ t d).Wrote ((begin_ t d).result tr l { d.unitLane tr l with core := c } r v) tr l (d.unitLane tr l) (c.fallsTo r v) := by
  have hw := h.wrote_goesTo t hl (c := c.put r v) (by rw [Core.put_wait, hc]) (c.pc + 4#32)
  rw [Core.goesTo, Core.put_instret] at hw
  unfold Dev.result Dev.next
  dsimp only
  rw [Core.put_pc]
  exact hw

/-! ### TBR (Table 14.9a) -/

theorem Core.put_tbr (c : Core) (r : Nat) (v : Word) (n : Option Nat) : { c.put r v with tbr := n } = { c with tbr := n }.put r v := by
  unfold Core.put
  split <;> rfl

section
variable {s : State} {t : Nat} {tr : Fin 4} {l : Fin 6} {rd sel : Fin 32}

/-- TBR of a selection other than 1 writes its value. -/
theorem executes_tbr {v : Nat} (hs : sel.val ≠ 1) (hv : (begin_ t s.dev).tbrValue (s.dev.unitLane tr l).core sel = some v) :
    Executes (.tbr t tr l rd sel) s tr l (wR 0x38 rd 0 sel 4) fun c => c.fallsTo rd (BitVec.ofNat 32 v) := by
  refine executes_of (exec_tbr t tr l rd sel s) fun h => ?_
  simp only [hv, hs, if_false]
  exact h.wrote_result t l.isLt rd _

/-- TBR of the nanoseconds word latches the instant. -/
theorem executes_tbr_latch (hs : sel = 1) :
    Executes (.tbr t tr l rd sel) s tr l (wR 0x38 rd 0 sel 4) fun c => { c.fallsTo rd (BitVec.ofNat 32 (max t s.dev.now % 1000000000)) with tbr := some (max t s.dev.now) } := by
  refine executes_of (exec_tbr t tr l rd sel s) fun h => ?_
  subst hs
  have hw := h.wrote_resultOf t l.isLt (c := { (s.dev.unitLane tr l).core with tbr := some (max t s.dev.now) }) h.wait rd
    (BitVec.ofNat 32 (max t s.dev.now % 1000000000))
  rw [Core.fallsTo, ← Core.put_tbr] at hw
  exact hw

theorem executes_tbr_illegal (hs : 7 < sel.val) (hv : (s.dev.unitLane tr l).core.tvec ≠ 0#32) (hi : (s.dev.unitLane tr l).core.inTrap = false) :
    Executes (.tbr t tr l rd sel) s tr l (wR 0x38 rd 0 sel 4) fun c => c.trapped c.pc 1 (wR 0x38 rd 0 sel 4).toNat := by
  refine executes_of (exec_tbr t tr l rd sel s) fun h => ?_
  have hn : (begin_ t s.dev).tbrValue (s.dev.unitLane tr l).core sel = none := by
    unfold Dev.tbrValue
    dsimp only
    split
    case h_9 => rfl
    all_goals omega
  simp only [hn]
  exact h.wrote_trapIn t l.isLt 1 _ (by decide) hv hi

end

/-- Settles O40: selection by selection, the value of Table 14.9a; only selection 1 changes the latched instant. -/
theorem timebaseReads : Obligations.TimebaseReads := by
  intro s t tr l rd sel
  refine ⟨?ts32, ?latch, ?latched, ?never, ?cycle, ?phase, ?steps, ?other⟩
  case latch => exact executes_tbr_latch
  case latched =>
    intro a ha
    refine ⟨?_, ?_, ?_⟩ <;> rintro rfl <;> refine executes_tbr (by decide) ?_ <;> simp only [Dev.tbrValue, ha] <;> rfl
  case never =>
    rintro ha (rfl | rfl | rfl) <;> refine executes_tbr (by decide) ?_ <;> simp only [Dev.tbrValue, ha] <;> rfl
  case other => exact executes_tbr_illegal
  all_goals
    rintro rfl
    exact executes_tbr (by decide) rfl

/-! ### Traps and returns (R371) -/

section
variable {s : State} {t : Nat} {tr : Fin 4} {l : Fin 6}

theorem executes_nop : Executes (.nop t tr l) s tr l (wR 0x38 0 0 0 0) fun c => c.goesTo (c.pc + 4#32) :=
  executes_of (exec_nop t tr l s) fun h => h.wrote_goesTo t l.isLt h.wait _

theorem executes_rte (hi : (s.dev.unitLane tr l).core.inTrap = true) :
    Executes (.rte t tr l) s tr l (wR 0x38 0 0 0 0x19) fun c => { c.goesTo c.epc with inTrap := false } := by
  refine executes_of (exec_rte t tr l s) fun h => ?_
  simp only [hi, if_true]
  exact h.wrote_goesTo t l.isLt (c := { (s.dev.unitLane tr l).core with inTrap := false }) h.wait _

section
variable (hv : (s.dev.unitLane tr l).core.tvec ≠ 0#32) (hi : (s.dev.unitLane tr l).core.inTrap = false)
include hv hi

theorem executes_trap (code : Fin 32) :
    Executes (.trap t tr l code) s tr l (wR 0x38 0 0 code 0x18) fun c => (c.goesTo (c.pc + 4#32)).trapped (c.pc + 4#32) 8 code := by
  refine executes_of (exec_trap t tr l code s) fun h => ?_
  have hw := Dev.wrote_complete_trap (h.calm t) l.isLt (s.dev.unitLane tr l) ((s.dev.unitLane tr l).core.pc + 4#32) 8 code hv hi
  have e : (s.dev.unitLane tr l).core.goesTo ((s.dev.unitLane tr l).core.pc + 4#32) =
      { (s.dev.unitLane tr l).core with pc := (s.dev.unitLane tr l).core.pc + 4#32, instret := (s.dev.unitLane tr l).core.instret + 1#32, wait := none } := by
    simp only [Core.goesTo, h.wait]
  rw [e]
  exact hw

theorem executes_rte_illegal : Executes (.rte t tr l) s tr l (wR 0x38 0 0 0 0x19) fun c => c.trapped c.pc 1 (wR 0x38 0 0 0 0x19).toNat := by
  refine executes_of (exec_rte t tr l s) fun h => ?_
  simp only [hi]
  exact h.wrote_trapIn t l.isLt 1 _ (by decide) hv hi

theorem executes_illegalWord {w : Word} (hw : wordLegal w = false) : Executes (.illegalWord t tr l) s tr l w fun c => c.trapped c.pc 1 w.toNat := by
  refine executes_run (exec_illegalWord t tr l s) fun h => ?_
  have hf : ((begin_ t s.dev).unitLane tr l).fetch = some w := h.2.2.1
  simp only [hf, hw, Bool.false_eq_true, if_false]
  rw [Dev.isa_stands _ _ _ _ _ ((Dev.stands_begin t s.dev tr l w).2 h)]
  exact h.wrote_trapIn t l.isLt 1 _ (by decide) hv hi

end

end

/-- Settles O41: one lemma for each of the instructions and for the word that is none. -/
theorem trapsAndReturns : Obligations.TrapsAndReturns := by
  intro s t tr l code w
  exact ⟨executes_nop, executes_rte, fun hv hi => ⟨executes_trap hv hi code, executes_rte_illegal hv hi, executes_illegalWord hv hi⟩⟩

end Sys2Proof.Machine
end

section
/-!
PROOFS. Proofs/HostWrites.lean: a write of a register by a requester that may write it: which words change, what a field then reads as, and what the write goes on to.
-/
namespace Sys2Proof.Machine

/-! ### Which registers take a plain write -/

/-- Offsets at which a write by a protected requester stores the word and then has its effect: none of the windows and registers with rules of their own. -/
def plainOffset (off : Nat) : Bool :=
  decide (off % 4 = 0) && decide (off < 0x1000000) && !isTrwCfg off && off != 0x70034 && !(decide (0x78000 ≤ off) && decide (off < 0x7A000)) &&
  !(decide (0x200 ≤ off) && decide (off < 0x300)) && !(decide (0x3040C ≤ off) && decide (off < 0x30CC0) && off % 16 == 0xC) && (fullTimeAt off).isNone &&
  off != 0x20064 && !(decide (0xA0000 ≤ off) && decide (off < 0xA0400) && off % 256 == 8) && !(decide (0x52000 ≤ off) && decide (off < 0x52200)) && off != 0xA0C04 &&
  !(decide (0x100000 ≤ off) && decide (off < 0x180000) && off % 0x1000 == 0)

/-- What a plain write does, where the realm rule refuses nothing and some field may be written. -/
theorem Dev.ctlWrite_stored (d : Dev) {req off v : Nat} (ho : plainOffset off = true) (hr : (!d.reqProt req && d.changesProt req off v) = false)
    (hf : (!d.reqProt req && (d.fields off).all (fun f => d.isProt f off || f.acc == .ro || f.acc == .rc)) = false) :
    d.ctlWrite req off v = ((d.storeWord (d.reqProt req) off v).afterWrite req off v, 0) := by
  simp only [plainOffset, Bool.and_eq_true, Bool.not_eq_true', decide_eq_true_eq, bne_iff_ne, Bool.and_eq_false_iff, decide_eq_false_iff_not, Option.isNone_iff_eq_none,
    beq_eq_false_iff_ne] at ho
  obtain ⟨⟨⟨⟨⟨⟨⟨⟨⟨⟨⟨⟨h4, hlt⟩, hcfg⟩, h34⟩, hp⟩, hmsix⟩, hcap⟩, hfull⟩, hutc⟩, hpwm⟩, htag⟩, hgpio⟩, hlnk⟩ := ho
  unfold Dev.ctlWrite
  rw [if_neg (by omega), if_neg (by omega), if_neg (by omega), if_neg (by omega), if_neg (by omega), if_neg (by rw [hcfg]; decide), if_neg (by omega), if_neg (by omega),
    hr, if_neg (by decide), if_neg (by omega), hf, if_neg (by decide), hfull]
  dsimp only
  rw [if_neg hutc, if_neg (by omega), if_neg (by omega), if_neg hgpio, if_neg (by omega)]

/-- What a plain write by a protected requester does. -/
theorem Dev.ctlWrite_plain (d : Dev) {req off v : Nat} (hr : d.reqProt req = true) (ho : plainOffset off = true) :
    d.ctlWrite req off v = ((d.storeWord true off v).afterWrite req off v, 0) := by
  have h := d.ctlWrite_stored (v := v) ho (by rw [hr]; rfl) (by rw [hr]; rfl)
  rwa [hr] at h

theorem Dev.hostWrite_plain (d : Dev) {req off : Nat} (v : Word) (hok : d.Takes req) (ho : plainOffset off = true) :
    d.hostWrite req off v = ((d.storeWord true off v.toNat).afterWrite req off v.toNat).emit (.status req 0) := by
  unfold Dev.hostWrite
  rw [hok.1, if_neg (by simp), if_neg (by simp), Dev.ctlWrite_plain d hok.2 ho]

theorem Dev.takes_begin (t : Nat) (d : Dev) (req : Nat) : (begin_ t d).Takes req ↔ d.Takes req := Iff.rfl

/-! ### Storing the word -/

/-- Whether a write by a protected requester changes a field. -/
def Field.stores (off : Nat) (f : Field) : Bool := match f.acc with
  | .rw | .w1c | .w1s => true
  | .wo => isStore off
  | .ro | .rc => false

/-- Storing a word changes registers alone. -/
theorem Dev.storeWord_regs (d : Dev) (p : Bool) (off v : Nat) : d.storeWord p off v = { d with regs := (d.storeWord p off v).regs } := by
  unfold Dev.storeWord
  dsimp only
  split <;> rfl

section
variable (d : Dev) (p : Bool) (off v : Nat)
@[simp] theorem Dev.storeWord_mode : (d.storeWord p off v).mode = d.mode := by rw [Dev.storeWord_regs]
@[simp] theorem Dev.storeWord_stReq : (d.storeWord p off v).stReq = d.stReq := by rw [Dev.storeWord_regs]
@[simp] theorem Dev.storeWord_now : (d.storeWord p off v).now = d.now := by rw [Dev.storeWord_regs]
@[simp] theorem Dev.storeWord_own : (d.storeWord p off v).own = d.own := by rw [Dev.storeWord_regs]
@[simp] theorem Dev.storeWord_free : (d.storeWord p off v).free = d.free := by rw [Dev.storeWord_regs]
@[simp] theorem Dev.storeWord_out : (d.storeWord p off v).out = d.out := by rw [Dev.storeWord_regs]
@[simp] theorem Dev.storeWord_reqs : (d.storeWord p off v).reqs = d.reqs := by rw [Dev.storeWord_regs]
@[simp] theorem Dev.storeWord_reel : (d.storeWord p off v).reel = d.reel := by rw [Dev.storeWord_regs]
@[simp] theorem Dev.storeWord_qf : (d.storeWord p off v).qf = d.qf := by rw [Dev.storeWord_regs]
@[simp] theorem Dev.storeWord_img : (d.storeWord p off v).img = d.img := by rw [Dev.storeWord_regs]
@[simp] theorem Dev.storeWord_host : (d.storeWord p off v).host = d.host := by rw [Dev.storeWord_regs]
@[simp] theorem Dev.storeWord_lnk : (d.storeWord p off v).lnk = d.lnk := by rw [Dev.storeWord_regs]
@[simp] theorem Dev.storeWord_tb : (d.storeWord p off v).tb = d.tb := by rw [Dev.storeWord_regs]
@[simp] theorem Dev.storeWord_swp : (d.storeWord p off v).swp = d.swp := by rw [Dev.storeWord_regs]
@[simp] theorem Dev.storeWord_est : (d.storeWord p off v).est = d.est := by rw [Dev.storeWord_regs]
@[simp] theorem Dev.storeWord_lpe : (d.storeWord p off v).lpe = d.lpe := by rw [Dev.storeWord_regs]
@[simp] theorem Dev.storeWord_dsp : (d.storeWord p off v).dsp = d.dsp := by rw [Dev.storeWord_regs]
@[simp] theorem Dev.storeWord_trw : (d.storeWord p off v).trw = d.trw := by rw [Dev.storeWord_regs]
@[simp] theorem Dev.storeWord_trd : (d.storeWord p off v).trd = d.trd := by rw [Dev.storeWord_regs]
@[simp] theorem Dev.storeWord_sin : (d.storeWord p off v).sin = d.sin := by rw [Dev.storeWord_regs]
@[simp] theorem Dev.storeWord_net : (d.storeWord p off v).net = d.net := by rw [Dev.storeWord_regs]
@[simp] theorem Dev.storeWord_fld : (d.storeWord p off v).fld = d.fld := by rw [Dev.storeWord_regs]
@[simp] theorem Dev.storeWord_gaf : (d.storeWord p off v).gaf = d.gaf := by rw [Dev.storeWord_regs]
@[simp] theorem Dev.storeWord_wch : (d.storeWord p off v).wch = d.wch := by rw [Dev.storeWord_regs]
@[simp] theorem Dev.storeWord_pst : (d.storeWord p off v).pst = d.pst := by rw [Dev.storeWord_regs]
@[simp] theorem Dev.storeWord_jtag : (d.storeWord p off v).jtag = d.jtag := by rw [Dev.storeWord_regs]
@[simp] theorem Dev.storeWord_supply : (d.storeWord p off v).supply = d.supply := by rw [Dev.storeWord_regs]
@[simp] theorem Dev.storeWord_pins : (d.storeWord p off v).pins = d.pins := by rw [Dev.storeWord_regs]
end

/-- A word as a write by a protected requester leaves it, field by field. -/
def storeFields (off v : Nat) (fs : List Field) (w : Word) : Word :=
  fs.foldl (fun (w : Word) f =>
    let x := bitsOf v f.lo f.width
    let old := bitsOf w.toNat f.lo f.width
    match f.acc with
    | .rw => putField w f.lo f.width x
    | .wo => if isStore off then putField w f.lo f.width x else w
    | .w1c => putField w f.lo f.width (old - (old &&& x))
    | .w1s => putField w f.lo f.width (old ||| x)
    | .ro => w
    | .rc => w) w

theorem Dev.homeOf_plain (d : Dev) {off : Nat} (h : off < 0x10000000) : d.homeOf off = off := by
  unfold Dev.homeOf
  rw [if_neg (by omega)]

theorem Dev.fields_plain (d : Dev) {off : Nat} (h : off < 0x10000000) : d.fields off = fieldsAt off := by
  unfold Dev.fields
  rw [if_neg (by omega), if_neg (by omega), Dev.homeOf_plain d h]
  dsimp only
  rw [if_pos (by omega)]

theorem Dev.storeWord_eq (d : Dev) {off : Nat} (v : Nat) (h : off < 0x10000000) :
    d.storeWord true off v = if (fieldsAt off).isEmpty then d else d.setWord off (storeFields off v (fieldsAt off) (d.word off)) := by
  unfold Dev.storeWord storeFields
  dsimp only
  rw [Dev.fields_plain d h, Dev.homeOf_plain d h]
  refine congrArg (fun g => if (fieldsAt off).isEmpty = true then d else d.setWord off ((fieldsAt off).foldl g (d.word off))) ?_
  funext w f
  cases f.acc <;> simp

/-- Storing a word changes no other. -/
theorem Dev.word_storeWord_ne (d : Dev) {off a : Nat} (v : Nat) (h : off < 0x10000000) (ha : a ≠ off) : (d.storeWord true off v).word a = d.word a := by
  rw [Dev.storeWord_eq d v h]
  split
  · rfl
  · exact Dev.word_setWord_ne d _ ha

theorem Dev.word_storeWord_self (d : Dev) {off : Nat} (v : Nat) (h : off < 0x10000000) :
    (d.storeWord true off v).word off = storeFields off v (fieldsAt off) (d.word off) := by
  rw [Dev.storeWord_eq d v h]
  split
  case isTrue he => rw [List.isEmpty_iff.1 he]; rfl
  case isFalse => exact Dev.word_setWord_self d _ _

/-- One field of a word stored. -/
theorem storeFields_cons (off v : Nat) (f : Field) (fs : List Field) (w : Word) : storeFields off v (f :: fs) w = storeFields off v fs (storeFields off v [f] w) := rfl

theorem bitsOf_storeFields_one (off v : Nat) (f : Field) (w : Word) {lo width : Nat} (h32 : f.lo + f.width ≤ 32)
    (hd : f.stores off = true → lo + width ≤ f.lo ∨ f.lo + f.width ≤ lo) : bitsOf (storeFields off v [f] w).toNat lo width = bitsOf w.toNat lo width := by
  unfold Field.stores at hd
  unfold storeFields
  simp only [List.foldl_cons, List.foldl_nil]
  cases ha : f.acc <;> simp only [ha] at hd ⊢
  case wo =>
    split
    case isTrue hs => exact bitsOf_putField_disjoint _ _ _ _ _ _ h32 (hd hs)
    case isFalse => rfl
  all_goals exact bitsOf_putField_disjoint _ _ _ _ _ _ h32 (hd trivial)

/-- A part of the word that no stored field overlaps stays. -/
theorem bitsOf_storeFields (off v : Nat) (fs : List Field) (w : Word) {lo width : Nat}
    (h : ∀ f ∈ fs, f.lo + f.width ≤ 32 ∧ (f.stores off = true → lo + width ≤ f.lo ∨ f.lo + f.width ≤ lo)) :
    bitsOf (storeFields off v fs w).toNat lo width = bitsOf w.toNat lo width := by
  induction fs generalizing w with
  | nil => rfl
  | cons f fs ih =>
    obtain ⟨h32, hd⟩ := h f List.mem_cons_self
    rw [storeFields_cons, ih _ fun g hg => h g (List.mem_cons_of_mem _ hg), bitsOf_storeFields_one off v f w h32 hd]

/-- Whether storing the word at an offset leaves the bits of a field. -/
def Field.standsAt (g : Field) (off : Nat) : Bool :=
  (fieldsAt off).all fun f => decide (f.lo + f.width ≤ 32) && (!f.stores off || decide (g.lo + g.width ≤ f.lo) || decide (f.lo + f.width ≤ g.lo))

theorem Dev.rd_storeWord_stands (d : Dev) {off : Nat} (v : Nat) (h : off < 0x10000000) (g : Field) (i j : Nat) (hg : g.standsAt off = true) :
    (d.storeWord true off v).rd g i j = d.rd g i j := by
  unfold Dev.rd
  by_cases ha : g.addr i j = off
  · rw [ha, Dev.word_storeWord_self d v h]
    refine bitsOf_storeFields off v _ _ fun f hf => ?_
    have hk := List.all_eq_true.1 hg f hf
    simp only [Bool.and_eq_true, Bool.or_eq_true, Bool.not_eq_true', decide_eq_true_eq] at hk
    refine ⟨hk.1, fun hs => ?_⟩
    rw [hs] at hk
    simpa using hk.2
  · rw [Dev.word_storeWord_ne d v h ha]

/-- A read-write field of the word reads as what was written. -/
theorem Dev.rd_storeWord_rw (d : Dev) {off : Nat} (v : Nat) (h : off < 0x10000000) (g : Field) (i j : Nat) {pre post : List Field}
    (hs : fieldsAt off = pre ++ g :: post) (ha : g.addr i j = off) (hrw : g.acc = .rw) (h32 : g.lo + g.width ≤ 32)
    (hp : (post.all fun f => decide (f.lo + f.width ≤ 32) && (decide (g.lo + g.width ≤ f.lo) || decide (f.lo + f.width ≤ g.lo))) = true) :
    (d.storeWord true off v).rd g i j = bitsOf v g.lo g.width := by
  unfold Dev.rd
  rw [ha, Dev.word_storeWord_self d v h, hs]
  unfold storeFields
  rw [List.foldl_append, List.foldl_cons]
  simp only [hrw]
  rw [← storeFields, bitsOf_storeFields, bitsOf_putField_self _ _ _ _ h32, Nat.mod_eq_of_lt (bitsOf_lt _ _ _)]
  intro f hf
  have hk := List.all_eq_true.1 hp f hf
  simp only [Bool.and_eq_true, Bool.or_eq_true, decide_eq_true_eq] at hk
  exact ⟨hk.1, fun _ => hk.2⟩

end Sys2Proof.Machine
end

section
/-!
PROOFS. Proofs/Triads.lean: rules of the triad complex: what its operations write, what they leave, and how the states of the lanes read after them.
-/
namespace Sys2Proof.Machine

/-! ### Commands that ask for no change of state -/

/-- The end of a command whose run is given. -/
theorem ends_of {c : Instr} {s : State} {t : Nat} {f : Dev → Dev} {p : Dev → Prop} (hc : exec c s = s.run t f) (h : p (settle s.dev (f (begin_ t s.dev)))) : Ends c s p :=
  ⟨_, hc, rfl, h⟩

/-- What the end of a command shows afresh. -/
def settleFields : List Field := [Reg.GLB_STATUS_STATE, Reg.TRW_OUT_STAT_H_LEVEL, Reg.TRW_OUT_STAT_P_LEVEL, Reg.TRW_OUT_STAT_MISMATCH]

theorem Dev.writes_drivePins (d : Dev) : Dev.Writes settleFields d d.drivePins :=
  ((Dev.Writes.wr d _ rfl (by simp [settleFields])).trans (Dev.Writes.wr _ _ rfl (by simp [settleFields]))).trans (Dev.Writes.wr _ _ rfl (by simp [settleFields]))

theorem Dev.writes_settle (o d : Dev) (h : d.stReq = []) : Dev.Writes settleFields d (settle o d) := by
  rw [settle_calm o d h]
  refine Dev.Writes.trans (Dev.Writes.trans ?_ (Dev.Writes.wr _ _ rfl (by simp [settleFields]))) (Dev.writes_drivePins _)
  exact fun _ _ _ _ _ => Dev.rd_congr (Dev.word_scanSafe _ _)

/-- A field reads after a command as its run left it. -/
theorem settle_rd_clear (o d : Dev) (h : d.stReq = []) (f : Field) (i j : Nat) (hj : f.has i j = true) (hf : f.clearOf settleFields = true) :
    (settle o d).rd f i j = d.rd f i j := Dev.writes_settle o d h f i j hj hf

/-! ### The states of the lanes -/

section
variable {d e : Dev} {tr : Nat}

theorem Dev.lst_eq {k : Nat} (h : 1 ≤ k) (h3 : k ≤ 3) : d.lst tr k = d.rd Reg.TRD_LANE_STAT_STATE tr (k - 1) := if_pos ⟨h, h3⟩

/-- A state that is not 0 is that of a lane. -/
theorem Dev.lst_bounds {k n : Nat} (h : d.lst tr k = n + 1) : 1 ≤ k ∧ k ≤ 3 := by
  unfold Dev.lst at h
  split at h
  case isTrue hk => exact hk
  case isFalse => omega

/-- What writes no lane state leaves them all. -/
theorem Dev.Writes.lst {l : List Field} (h : Dev.Writes l d e) (hl : Reg.TRD_LANE_STAT_STATE.clearOf l = true) (htr : tr < 4) (k : Nat) : e.lst tr k = d.lst tr k := by
  unfold Dev.lst
  split
  case isTrue hk => exact h _ _ _ (Field.has_of htr (Nat.sub_one_lt_of_le hk.1 hk.2)) hl
  case isFalse => rfl

theorem Dev.voters_congr (h : ∀ k, e.lst tr k = d.lst tr k) : e.voters tr = d.voters tr := by
  unfold Dev.voters
  simp only [h]

theorem Dev.members_congr (h : ∀ k, e.lst tr k = d.lst tr k) (l : Nat) : e.members tr l = d.members tr l := by
  unfold Dev.members
  rw [Dev.voters_congr h]

theorem Dev.lst_setLst (d : Dev) (tr : Nat) {k : Nat} (h : 1 ≤ k) (h3 : k ≤ 3) (st a : Nat) :
    (d.setLst tr k st).lst tr a = if a = k then st % 8 else d.lst tr a := by
  unfold Dev.setLst
  split
  case isTrue ha =>
    subst ha
    rw [Dev.lst_eq h h3]
    exact Dev.rd_wr_self d Reg.TRD_LANE_STAT_STATE st tr (a - 1) (by decide)
  case isFalse ha =>
    unfold Dev.lst
    split
    case isTrue hb =>
      refine Dev.rd_wr_ne _ _ _ _ _ _ _ _ ?_
      simp only [Field.addr, Reg.TRD_LANE_STAT_STATE]
      omega
    case isFalse => rfl

theorem Dev.mem_voters {k : Nat} : k ∈ d.voters tr ↔ d.lst tr k = 1 := by
  unfold Dev.voters
  simp only [List.mem_filter, beq_iff_eq]
  constructor
  · exact fun h => h.2
  · intro h
    have := Dev.lst_bounds h
    refine ⟨?_, h⟩
    simp
    omega

end

/-! ### What the operations write -/

theorem Dev.writes_trwAuth (d : Dev) (b : Bool) : Dev.Writes [Reg.TRW_STATUS_T0_AUTH] d (d.trwAuth b) := by
  unfold Dev.trwAuth
  refine Dev.Writes.ite _ (Dev.Writes.refl _ _) ?_
  exact (Dev.Writes.wr d _ rfl (by simp)).trans (Dev.Writes.raise _ _ _ _ _)

@[simp] theorem Dev.trwAuth_trd (d : Dev) (b : Bool) : (d.trwAuth b).trd = d.trd := by
  unfold Dev.trwAuth
  split <;> simp

theorem Dev.foldl_emit (g : Nat → Out) (l : List Nat) (d : Dev) : l.foldl (fun (d : Dev) x => d.emit (g x)) d = { d with out := d.out ++ l.map g } := by
  induction l generalizing d with
  | nil => simp
  | cons x l ih =>
    rw [List.foldl_cons, ih]
    simp [Dev.emit]

/-- A peer frame moves its sequence number and the outputs alone. -/
theorem Dev.peerSend_eq (d : Dev) (links : List Nat) (typ : Nat) (pay : List Byte) :
    d.peerSend links typ pay = { d with sin := (d.peerSend links typ pay).sin, out := (d.peerSend links typ pay).out } := by
  unfold Dev.peerSend
  split
  · rfl
  · dsimp only
    rw [Dev.foldl_emit]

theorem Dev.note_eq (d : Dev) (kind tr lane pc : Nat) :
    d.note kind tr lane pc = { d with sin := (d.note kind tr lane pc).sin, out := (d.note kind tr lane pc).out } := by
  unfold Dev.note
  split
  · rfl
  · exact Dev.peerSend_eq _ _ _ _

@[simp] theorem Dev.note_regs (d : Dev) (kind tr lane pc : Nat) : (d.note kind tr lane pc).regs = d.regs := by rw [Dev.note_eq]
@[simp] theorem Dev.note_trd (d : Dev) (kind tr lane pc : Nat) : (d.note kind tr lane pc).trd = d.trd := by rw [Dev.note_eq]

theorem Dev.writes_note (l : List Field) (d : Dev) (kind tr lane pc : Nat) : Dev.Writes l d (d.note kind tr lane pc) := Dev.Writes.of_regs (Dev.note_regs _ _ _ _ _)

/-- What `trdSync` computes afresh. -/
def syncFields : List Field := [Reg.TRD_STATUS_VOTE, Reg.TRD_STATUS_AUTH, Reg.TRW_STATUS_T0_AUTH]

/-- What a revocation of the bus lock writes. -/
def lockFields : List Field := [Reg.TRD_STATUS_LOCK, Reg.TRD_ERR_LOCK_REVOKED]

/-- What the recording of a fault writes. -/
def misFields : List Field :=
  [Reg.TRD_MIS_PC_PC, Reg.TRD_MIS_TS_TS32, Reg.TRD_MIS_INFO_LANES, Reg.TRD_MIS_INFO_KIND, Reg.TRD_MIS_INFO_REG, Reg.TRD_MIS_INFO_SPECIAL]

/-- What the end of a re-admission writes. -/
def readmitFields : List Field := [Reg.TRD_LANE_STAT_STATE, Reg.TRD_STATUS_READMIT_PEND, Reg.TRD_READMIT_STATUS]

@[simp] theorem Dev.trdSync_trd (d : Dev) (tr : Nat) : (d.trdSync tr).trd = d.trd := by
  unfold Dev.trdSync
  extract_lets n run voting taint auth authorised
  split
  · rw [Dev.note_trd, Dev.trwAuth_trd]; simp [authorised, voting]
  · simp [authorised, voting]

@[simp] theorem Dev.lockRevoke_tri (d : Dev) (why : Nat) : (d.lockRevoke why).trd.tri = d.trd.tri := by
  unfold Dev.lockRevoke
  split <;> simp

@[simp] theorem Dev.spares_lockRevoke (d : Dev) (why : Nat) : d.Spares (d.lockRevoke why) := by
  unfold Dev.lockRevoke
  split
  case h_1 => exact Dev.Spares.refl d
  case h_2 b _ => simp -implicitDefEqProofs [Dev.Spares, Dev.stReq_raise, Ev.TRD_LOCK_REVOKED]

@[simp] theorem Dev.lockStop_tri (d : Dev) (req : Nat) : (d.lockStop req).trd.tri = d.trd.tri := by
  unfold Dev.lockStop
  split <;> simp

@[simp] theorem Dev.spares_lockStop (d : Dev) (req : Nat) : d.Spares (d.lockStop req) := Dev.spares_ite _ (Dev.spares_lockRevoke _ _) (Dev.Spares.refl _)

@[simp] theorem Dev.misWrite_trd (d : Dev) (tr pc lanes kind reg : Nat) (special : Bool) : (d.misWrite tr pc lanes kind reg special).trd = d.trd := rfl

@[simp] theorem Dev.spares_misWrite (d : Dev) (tr pc lanes kind reg : Nat) (special : Bool) : d.Spares (d.misWrite tr pc lanes kind reg special) := by
  unfold Dev.misWrite
  simp -implicitDefEqProofs [Dev.Spares]

section
variable {tr : Nat} (htr : tr < 4)
include htr

theorem Dev.Writes.setLst {l : List Field} (hl : Reg.TRD_LANE_STAT_STATE ∈ l) (d : Dev) {k : Nat} (h : 1 ≤ k) (h3 : k ≤ 3) (st : Nat) :
    Dev.Writes l d (d.setLst tr k st) := Dev.Writes.wr d st (Field.has_of htr (Nat.sub_one_lt_of_le h h3)) hl

/-- A write of a field of a triad's own registers. -/
theorem Dev.Writes.wrTri {l : List Field} {f : Field} (d : Dev) (v : Nat) (h1 : f.n1 = 4) (h2 : 0 < f.n2) (h : f ∈ l) : Dev.Writes l d (d.wr f v tr) :=
  Dev.Writes.wr d v (Field.has_of (h1 ▸ htr) h2) h

theorem Dev.writes_trdSync (d : Dev) : Dev.Writes syncFields d (d.trdSync tr) := by
  unfold Dev.trdSync
  extract_lets n run voting taint auth authorised
  have ha : Dev.Writes syncFields d authorised :=
    (Dev.Writes.wrTri htr d _ rfl (by decide) (by simp [syncFields])).trans (Dev.Writes.wrTri htr _ _ rfl (by decide) (by simp [syncFields]))
  refine Dev.Writes.ite _ (ha.trans ?_) ha
  exact ((Dev.writes_trwAuth _ _).mono (by simp [syncFields])).trans (Dev.writes_note _ _ _ _ _ _)

theorem Dev.lst_trdSync (d : Dev) (k : Nat) : (d.trdSync tr).lst tr k = d.lst tr k := (Dev.writes_trdSync htr d).lst (by decide) htr k

theorem Dev.writes_lockRevoke {d : Dev} (why : Nat) {l : Nat} (hl : l < 4) (h : ∀ b, d.trd.lock = some b → b.req = unitReq tr l) :
    Dev.Writes lockFields d (d.lockRevoke why) := by
  unfold Dev.lockRevoke
  split
  case h_1 => exact Dev.Writes.refl _ _
  case h_2 b hb =>
    have htri : (b.req - 0x80) / 4 = tr := by
      rw [h b hb]
      unfold unitReq
      omega
    rw [htri]
    refine Dev.Writes.trans ?_ (Dev.Writes.raise _ _ _ _ _)
    refine Dev.Writes.trans ?_ (Dev.Writes.wrTri htr _ _ rfl (by decide) (by simp [lockFields]))
    exact (Dev.Writes.of_regs rfl).trans (Dev.Writes.wrTri htr _ _ rfl (by decide) (by simp [lockFields]))

theorem Dev.writes_lockStop (d : Dev) {l : Nat} (hl : l < 4) : Dev.Writes lockFields d (d.lockStop (unitReq tr l)) := by
  unfold Dev.lockStop
  split
  case isTrue h =>
    refine Dev.writes_lockRevoke htr 3 hl fun b hb => ?_
    unfold Dev.holdsLock at h
    rw [hb] at h
    simpa using h
  case isFalse => exact Dev.Writes.refl _ _

theorem Dev.writes_misWrite (d : Dev) (pc lanes kind reg : Nat) (special : Bool) : Dev.Writes misFields d (d.misWrite tr pc lanes kind reg special) := by
  unfold Dev.misWrite
  refine Dev.Writes.trans ?_ (Dev.Writes.wrTri htr _ _ rfl (by decide) (by simp [misFields]))
  refine Dev.Writes.trans ?_ (Dev.Writes.wrTri htr _ _ rfl (by decide) (by simp [misFields]))
  refine Dev.Writes.trans ?_ (Dev.Writes.wrTri htr _ _ rfl (by decide) (by simp [misFields]))
  refine Dev.Writes.trans ?_ (Dev.Writes.wrTri htr _ _ rfl (by decide) (by simp [misFields]))
  exact (Dev.Writes.wrTri htr _ _ rfl (by decide) (by simp [misFields])).trans (Dev.Writes.wrTri htr _ _ rfl (by decide) (by simp [misFields]))

/-! ### The end of a re-admission -/

theorem Dev.writes_readmitEnd (d : Dev) (st : Nat) : Dev.Writes readmitFields d (d.readmitEnd tr st) := by
  unfold Dev.readmitEnd
  extract_lets x
  split
  case h_1 => exact Dev.Writes.refl _ _
  case h_2 idle _ lane _ =>
    extract_lets back
    have hb : Dev.Writes readmitFields d back := by
      simp only [back]
      split
      case isTrue hk =>
        obtain ⟨h1, h3⟩ := Dev.lst_bounds hk
        exact (Dev.Writes.of_regs rfl).trans (Dev.Writes.setLst htr (by simp [readmitFields]) _ h1 h3 _)
      case isFalse => exact Dev.Writes.of_regs rfl
    refine Dev.Writes.trans ?_ (Dev.Writes.raise _ _ _ _ _)
    exact (hb.trans (Dev.Writes.wrTri htr _ _ rfl (by decide) (by simp [readmitFields]))).trans (Dev.Writes.wrTri htr _ _ rfl (by decide) (by simp [readmitFields]))

/-- A pending re-admission that ends takes its lane out of its test, and no other lane. -/
theorem Dev.lst_readmitEnd (d : Dev) (st k : Nat) : (d.readmitEnd tr st).lst tr k = if (d.tri tr).readmit = some k ∧ d.lst tr k = 3 then 2 else d.lst tr k := by
  unfold Dev.readmitEnd
  extract_lets x
  split
  case h_1 hx => simp [x] at hx; simp [hx]
  case h_2 idle _ lane hx =>
    extract_lets back
    have hl : ∀ a, idle.lst tr a = d.lst tr a := fun a => rfl
    have hb : Dev.Writes [Reg.TRD_STATUS_READMIT_PEND, Reg.TRD_READMIT_STATUS] back
        (((back.clr Reg.TRD_STATUS_READMIT_PEND tr).wr Reg.TRD_READMIT_STATUS st tr).raise Ev.TRD_READMIT (trdInst tr lane) st) :=
      ((Dev.Writes.wrTri htr _ _ rfl (by decide) (by simp)).trans (Dev.Writes.wrTri htr _ _ rfl (by decide) (by simp))).trans (Dev.Writes.raise _ _ _ _ _)
    rw [hb.lst (by decide) htr]
    simp only [x] at hx
    simp only [back, hl, hx, Option.some.injEq]
    by_cases h3 : d.lst tr lane = 3
    · obtain ⟨h1, hk⟩ := Dev.lst_bounds h3
      rw [if_pos h3, Dev.lst_setLst _ _ h1 hk]
      by_cases ha : k = lane
      · subst ha; simp [h3]
      · simp [ha, hl, Ne.symm ha]
    · rw [if_neg h3, hl]
      by_cases ha : lane = k
      · subst ha; simp [h3]
      · simp [ha]

end

end Sys2Proof.Machine
end

section
/-!
PROOFS. Proofs/TriadStops.lean: exclusions and halts of triads, and the watchdog and the bus lock that cause some of them.
-/
namespace Sys2Proof.Machine

/-! ### Writing the states of several lanes -/

section
variable {tr : Nat} (htr : tr < 4)

theorem Dev.lst_foldl_setLst (st : Nat) (ks : List Nat) (h : ∀ k ∈ ks, 1 ≤ k ∧ k ≤ 3) (d : Dev) (a : Nat) :
    (ks.foldl (fun (d : Dev) k => d.setLst tr k st) d).lst tr a = if a ∈ ks then st % 8 else d.lst tr a := by
  induction ks generalizing d with
  | nil => rfl
  | cons k ks ih =>
    obtain ⟨h1, h3⟩ := h k List.mem_cons_self
    rw [List.foldl_cons, ih (fun x hx => h x (List.mem_cons_of_mem _ hx)), Dev.lst_setLst _ _ h1 h3]
    by_cases ha : a = k
    · simp [ha]
    · simp [ha]

@[simp] theorem Dev.foldl_setLst_trd (st : Nat) (ks : List Nat) (d : Dev) : (ks.foldl (fun (d : Dev) k => d.setLst tr k st) d).trd = d.trd := by
  induction ks generalizing d with
  | nil => rfl
  | cons k ks ih => rw [List.foldl_cons, ih]; rfl

@[simp] theorem Dev.spares_foldl_setLst (st : Nat) (ks : List Nat) (d : Dev) : d.Spares (ks.foldl (fun (d : Dev) k => d.setLst tr k st) d) :=
  Dev.spares_foldl (fun _ _ => Dev.spares_setLst _ _ _ _) _ (Dev.Spares.refl d)

include htr in
theorem Dev.writes_foldl_setLst (st : Nat) (ks : List Nat) (h : ∀ k ∈ ks, 1 ≤ k ∧ k ≤ 3) (d : Dev) :
    Dev.Writes [Reg.TRD_LANE_STAT_STATE] d (ks.foldl (fun (d : Dev) k => d.setLst tr k st) d) :=
  Dev.Writes.foldl _ (fun x k hk => Dev.Writes.setLst htr (by simp) x (h k hk).1 (h k hk).2 st) d

theorem Dev.voters_bounds {d : Dev} {k : Nat} (h : k ∈ d.voters tr) : 1 ≤ k ∧ k ≤ 3 := Dev.lst_bounds (Dev.mem_voters.1 h)

/-! ### Halts -/

@[simp] theorem Dev.setLane_regs (d : Dev) (tr k : Nat) (x : Lane) : (d.setLane tr k x).regs = d.regs := rfl

theorem Dev.LaneOnly.regs {d e : Dev} (h : d.LaneOnly e) : e.regs = d.regs := by rw [h]

@[simp] theorem Dev.dropWait_regs (d : Dev) (tr l : Nat) : (d.dropWait tr l).regs = d.regs := by
  unfold Dev.dropWait
  extract_lets qf served
  exact (Dev.laneOnly_foldl _ (fun y k => Dev.laneOnly_setLane y tr k _) _ served).regs

/-- What a halt of a voted triad writes. -/
def haltFields : List Field :=
  [Reg.TRD_LANE_STAT_STATE, Reg.TRD_STATUS_HALTED, Reg.TRD_STATUS_LOCK, Reg.TRD_ERR_LOCK_REVOKED, Reg.TRD_STATUS_READMIT_PEND, Reg.TRD_READMIT_STATUS,
   Reg.TRD_STATUS_VOTE, Reg.TRD_STATUS_AUTH, Reg.TRW_STATUS_T0_AUTH]

@[simp] theorem Dev.spares_safeHalt (d : Dev) (tr : Nat) : d.Spares (d.safeHalt tr) := by
  unfold Dev.safeHalt
  extract_lets waits states stopped synced
  have hs : d.Spares states := (Dev.spares_dropWait d tr 0).trans (Dev.spares_foldl_setLst _ _ _)
  clear_value states
  exact hs.trans (by simp -implicitDefEqProofs [Dev.Spares, synced, stopped])

/-- The device of a halted triad, before what hangs on it is given up. -/
def Dev.haltShown (d : Dev) (tr : Nat) : Dev := ((d.dropWait tr 0).voters tr).foldl (fun (d : Dev) k => d.setLst tr k 4) (d.dropWait tr 0) |>.set1 Reg.TRD_STATUS_HALTED tr

theorem Dev.safeHalt_eq (d : Dev) (tr : Nat) : d.safeHalt tr =
    ((((d.haltShown tr).lockStop (unitReq tr 0)).readmitEnd tr 3).trdSync tr).note 3 tr 0
      (((((d.haltShown tr).lockStop (unitReq tr 0)).readmitEnd tr 3).trdSync tr).rd Reg.TRD_MIS_PC_PC tr) := rfl

theorem Dev.voters_dropWait (d : Dev) (tr l : Nat) : (d.dropWait tr l).voters tr = d.voters tr :=
  Dev.voters_congr fun k => by unfold Dev.lst Dev.rd; rw [Dev.word_congr (Dev.dropWait_regs d tr l)]

include htr

theorem Dev.writes_haltShown (d : Dev) : Dev.Writes [Reg.TRD_LANE_STAT_STATE, Reg.TRD_STATUS_HALTED] d (d.haltShown tr) := by
  unfold Dev.haltShown
  refine Dev.Writes.trans (Dev.Writes.trans (Dev.Writes.of_regs (Dev.dropWait_regs d tr 0)) ?_) (Dev.Writes.wrTri htr _ _ rfl (by decide) (by simp))
  exact (Dev.writes_foldl_setLst htr 4 _ (fun _ hk => Dev.voters_bounds hk) _).mono (by simp)

theorem Dev.writes_safeHalt (d : Dev) : Dev.Writes haltFields d (d.safeHalt tr) := by
  rw [Dev.safeHalt_eq]
  refine Dev.Writes.trans ?_ (Dev.writes_note _ _ _ _ _ _)
  refine Dev.Writes.trans ?_ ((Dev.writes_trdSync htr _).mono (by simp [syncFields, haltFields]))
  refine Dev.Writes.trans ?_ ((Dev.writes_readmitEnd htr _ _).mono (by simp [readmitFields, haltFields]))
  refine Dev.Writes.trans ?_ ((Dev.writes_lockStop htr _ (by decide)).mono (by simp [lockFields, haltFields]))
  exact (Dev.writes_haltShown htr d).mono (by simp [haltFields])

/-- After `HALTED` is set nothing of a halt touches it. -/
theorem Dev.halted_safeHalt (d : Dev) : (d.safeHalt tr).rd Reg.TRD_STATUS_HALTED tr = 1 := by
  have hset : (d.haltShown tr).rd Reg.TRD_STATUS_HALTED tr = 1 := Dev.rd_wr_self _ _ _ _ _ (by decide)
  rw [Dev.safeHalt_eq, Dev.writes_note [] _ _ _ _ _ _ _ _ (Field.has_of htr (by decide)) (by decide),
    Dev.writes_trdSync htr _ _ _ _ (Field.has_of htr (by decide)) (by decide), Dev.writes_readmitEnd htr _ _ _ _ _ (Field.has_of htr (by decide)) (by decide),
    Dev.writes_lockStop htr _ (by decide) _ _ _ (Field.has_of htr (by decide)) (by decide), hset]

theorem Dev.lst_haltShown (d : Dev) (k : Nat) : (d.haltShown tr).lst tr k = if k ∈ d.voters tr then 4 else d.lst tr k := by
  have hw : Dev.Writes [Reg.TRD_STATUS_HALTED] (((d.dropWait tr 0).voters tr).foldl (fun (d : Dev) k => d.setLst tr k 4) (d.dropWait tr 0)) (d.haltShown tr) :=
    Dev.Writes.wrTri htr _ _ rfl (by decide) (by simp)
  rw [hw.lst (by decide) htr, Dev.lst_foldl_setLst _ _ (fun _ hk => Dev.voters_bounds hk), Dev.voters_dropWait]
  have hl : (d.dropWait tr 0).lst tr k = d.lst tr k := (Dev.Writes.of_regs (l := []) (Dev.dropWait_regs d tr 0)).lst (by decide) htr k
  rw [hl]

/-- The lanes that voted are halted. -/
theorem Dev.lst_safeHalt {d : Dev} {k : Nat} (h : k ∈ d.voters tr) : (d.safeHalt tr).lst tr k = 4 := by
  have h4 : ((d.haltShown tr).lockStop (unitReq tr 0)).lst tr k = 4 := by
    rw [(Dev.writes_lockStop htr _ (by decide)).lst (by decide) htr, Dev.lst_haltShown htr, if_pos h]
  rw [Dev.safeHalt_eq, (Dev.writes_note [] _ _ _ _ _).lst (by decide) htr, Dev.lst_trdSync htr, Dev.lst_readmitEnd htr, h4]
  simp

theorem Dev.lst_splitHalt (d : Dev) {l : Nat} (h1 : 1 ≤ l) (h2 : l ≤ 2) : (d.splitHalt tr l).lst tr l = 4 := by
  unfold Dev.splitHalt
  rw [Dev.lst_trdSync htr, (Dev.writes_lockStop htr _ (by omega)).lst (by decide) htr, Dev.lst_setLst _ _ h1 (by omega)]
  simp

theorem Dev.writes_splitHalt (d : Dev) {l : Nat} (h1 : 1 ≤ l) (h2 : l ≤ 2) : Dev.Writes haltFields d (d.splitHalt tr l) := by
  unfold Dev.splitHalt
  refine Dev.Writes.trans ?_ ((Dev.writes_trdSync htr _).mono (by simp [syncFields, haltFields]))
  refine Dev.Writes.trans ?_ ((Dev.writes_lockStop htr _ (by omega)).mono (by simp [lockFields, haltFields]))
  exact (Dev.Writes.of_regs (Dev.dropWait_regs d tr l)).trans (Dev.Writes.setLst htr (by simp [haltFields]) _ h1 (by omega) _)

omit htr in
@[simp] theorem Dev.spares_splitHalt (d : Dev) (tr l : Nat) : d.Spares (d.splitHalt tr l) := by
  unfold Dev.splitHalt
  simp -implicitDefEqProofs [Dev.Spares]

end

/-! ### What runs no more -/

/-- A unit of a triad runs no more: the triad is halted, or its lane neither votes nor runs outside the vote. -/
def Dev.UnitStopped (d : Dev) (tr l : Nat) : Prop :=
  (l = 0 → d.rd Reg.TRD_STATUS_HALTED tr = 1) ∧ (1 ≤ l → l ≤ 2 → d.lst tr l = 4) ∧ (3 ≤ l → d.lst tr (l - 2) = 4)

theorem Dev.UnitStopped.runs {d : Dev} {tr l : Nat} (h : d.UnitStopped tr l) : d.unitRuns tr l = false := by
  obtain ⟨h0, h1, h3⟩ := h
  unfold Dev.unitRuns
  dsimp only
  by_cases hl : l = 0
  · simp [hl, Dev.on, h0 hl]
  · by_cases hl2 : l ≤ 2
    · simp [hl, hl2, h1 (by omega) hl2]
    · simp [hl, hl2, h3 (by omega)]

theorem Dev.UnitStopped.settle {o d : Dev} {tr l : Nat} (htr : tr < 4) (hst : d.stReq = []) (h : d.UnitStopped tr l) : (settle o d).UnitStopped tr l := by
  have hl : ∀ k, (Machine.settle o d).lst tr k = d.lst tr k := (Dev.writes_settle o d hst).lst (by decide) htr
  have hh := settle_rd_clear o d hst Reg.TRD_STATUS_HALTED tr 0 (Field.has_of htr (by decide)) (by decide)
  obtain ⟨h0, h1, h3⟩ := h
  exact ⟨fun h => hh.trans (h0 h), fun a b => (hl l).trans (h1 a b), fun a => (hl _).trans (h3 a)⟩

section
variable {tr l : Nat} (htr : tr < 4) (hl : l < 6)

@[simp] theorem Dev.spares_progHalt (d : Dev) (tr l pc : Nat) : d.Spares (d.progHalt tr l pc) := by
  unfold Dev.progHalt
  extract_lets shown
  have hs : d.Spares shown := by simp -implicitDefEqProofs [Dev.Spares, shown, Dev.stReq_raise, Ev.TRD_PROG_HALT]
  refine hs.trans (Dev.spares_ite _ ((Dev.spares_misWrite _ _ _ _ _ _ _).trans (Dev.spares_safeHalt _ _)) (Dev.spares_ite _ (Dev.spares_splitHalt _ _ _) (Dev.spares_setLst _ _ _ _)))

include htr hl

theorem Dev.writes_progHalt (d : Dev) (pc : Nat) : Dev.Writes (haltFields ++ misFields)
    ((d.set1 Reg.TRD_ERR_PROG_HALT tr).raise Ev.TRD_PROG_HALT (trdInst tr (if l ≤ 2 then l else l - 2)) pc) (d.progHalt tr l pc) := by
  unfold Dev.progHalt
  extract_lets shown
  change Dev.Writes _ shown _
  clear_value shown
  by_cases h0 : l = 0
  · rw [if_pos h0]
    exact ((Dev.writes_misWrite htr _ _ _ _ _ _).mono (by simp)).trans ((Dev.writes_safeHalt htr _).mono (by simp))
  · rw [if_neg h0]
    by_cases h2 : l ≤ 2
    · rw [if_pos h2]
      exact (Dev.writes_splitHalt htr _ (by omega) h2).mono (by simp)
    · rw [if_neg h2]
      exact Dev.Writes.setLst htr (by simp [haltFields]) _ (by omega) (by omega) _

/-- A program that halts says so. -/
theorem Dev.progHalt_shown (d : Dev) (pc : Nat) : (d.progHalt tr l pc).rd Reg.TRD_ERR_PROG_HALT tr = 1 := by
  rw [Dev.writes_progHalt htr hl d pc _ _ _ (Field.has_of htr (by decide)) (by decide), Dev.Writes.raise [] _ _ _ _ _ _ _ (Field.has_of htr (by decide)) (by decide)]
  exact Dev.rd_wr_self _ _ _ _ _ (by decide)

theorem Dev.progHalt_stops (d : Dev) (pc : Nat) : (d.progHalt tr l pc).UnitStopped tr l := by
  unfold Dev.progHalt
  extract_lets shown
  refine ⟨fun h => ?_, fun h1 h2 => ?_, fun h3 => ?_⟩
  · rw [if_pos h]
    exact Dev.halted_safeHalt htr _
  · rw [if_neg (by omega), if_pos h2]
    exact Dev.lst_splitHalt htr _ h1 h2
  · rw [if_neg (by omega), if_neg (by omega), Dev.lst_setLst _ _ (by omega) (by omega)]
    simp

end

end Sys2Proof.Machine
end

section
/-!
PROOFS. Proofs/FetchAndWait.lean: fetches outside instruction TCM, HALT, and the instructions that wait, synchronise and lock.
-/
namespace Sys2Proof.Machine

/-! ### What a command that executed on a unit leaves -/

section
variable {o d e : Dev} {tr l : Nat} {m : Lane} {c : Core} (h : d.Wrote e tr l m c) (hst : d.stReq = [])
include h hst

theorem Dev.Wrote.settle_core {k : Nat} (hk : k ∈ d.members tr l) : ((settle o e).lane tr k).core = c := by
  unfold Dev.lane Dev.tri
  rw [settle_trd o e (h.stReq.trans hst)]
  have hl := h.lanes tr k
  rw [if_pos ⟨rfl, hk⟩] at hl
  exact congrArg Lane.core hl

theorem Dev.Wrote.settle_rd (htr : tr < 4) (hl : l < 6) {f : Field} {i j : Nat} (hf : f.has i j = true) (hpc : f.apartIn Reg.TRD_PC_PC = true)
    (hs : f.clearOf settleFields = true) : (settle o e).rd f i j = d.rd f i j := by
  rw [settle_rd_clear o e (h.stReq.trans hst) f i j hf hs]
  refine Dev.rd_congr (h.words _ fun k hk => ?_)
  have hb := Dev.mem_members d hl hk
  exact Field.addr_ne_in hpc hf (Field.has_of htr (Nat.sub_one_lt_of_le hb.1 hb.2))

end

/-- A write of a triad's field that is no lane state leaves the lanes of its units as they were. -/
theorem Dev.members_wr {d : Dev} {tr : Nat} (htr : tr < 4) {f : Field} (v l : Nat) (h1 : f.n1 = 4) (h2 : 0 < f.n2) (hf : Reg.TRD_LANE_STAT_STATE.clearOf [f] = true) :
    (d.wr f v tr).members tr l = d.members tr l :=
  Dev.members_congr (fun k => (Dev.Writes.wrTri htr d v h1 h2 (by simp)).lst hf htr k) l

/-! ### A fetch outside instruction TCM, and HALT -/

theorem ends_fetchBusFault {s : State} (t : Nat) (tr : Fin 4) (l : Fin 6) (hr : s.dev.unitRuns tr l = true) (hw : s.dev.unitWaits tr l = false)
    (hpc : 0x40000 ≤ (s.dev.unitLane tr l).core.pc.toNat) (hv : (s.dev.unitLane tr l).core.tvec ≠ 0#32) (hi : (s.dev.unitLane tr l).core.inTrap = false)
    (hc : ∀ k ∈ s.dev.members tr l, (s.dev.lane tr k).step = false ∧ (s.dev.lane tr k).skip = false) :
    Ends (.fetchBusFault t tr l) s fun d =>
      (∀ k ∈ s.dev.members tr l, (d.lane tr k).core = (s.dev.unitLane tr l).core.trapped (s.dev.unitLane tr l).core.pc 3 (s.dev.unitLane tr l).core.pc.toNat) ∧
      d.rd Reg.TRD_ERR_BUS_FAULT tr = 1 := by
  have hm : ((begin_ t s.dev).set1 Reg.TRD_ERR_BUS_FAULT tr).members tr l = s.dev.members tr l := Dev.members_wr tr.isLt _ _ rfl (by decide) (by decide)
  have hwr := Dev.wrote_trapTo (d := (begin_ t s.dev).set1 Reg.TRD_ERR_BUS_FAULT tr) (by rw [hm]; exact hc) (s.dev.unitLane tr l) (s.dev.unitLane tr l).core.pc.toNat
    (s.dev.unitLane tr l).core.pc 3 (s.dev.unitLane tr l).core.pc.toNat hv hi
  refine ends_of (exec_fetchBusFault t tr l s) ?_
  have hf : (s.dev.unitLane tr l).fetch = none := if_neg (Nat.not_lt.2 hpc)
  have hx : (begin_ t s.dev).unitLane tr l = s.dev.unitLane tr l := rfl
  have hr' : (begin_ t s.dev).unitRuns tr l = true := hr
  have hw' : (begin_ t s.dev).unitWaits tr l = false := hw
  simp only [hr', hw', hx, hf, Bool.not_true, Bool.or_self, Bool.false_eq_true, if_false, Dev.trapIn, if_true]
  refine ⟨fun k hk => hwr.settle_core rfl (hm ▸ hk), ?_⟩
  rw [hwr.settle_rd rfl tr.isLt l.isLt (Field.has_of tr.isLt (by decide)) (by decide) (by decide)]
  exact Dev.rd_wr_self (begin_ t s.dev) Reg.TRD_ERR_BUS_FAULT 1 tr 0 (by decide)

theorem ends_halt {s : State} (t : Nat) (tr : Fin 4) (l : Fin 6) (h : s.dev.Stands tr l (wR 0x38 0 0 0 0x1A)) :
    Ends (.halt t tr l) s fun d => d.rd Reg.TRD_ERR_PROG_HALT tr = 1 ∧ d.unitRuns tr l = false := by
  refine ends_of (exec_halt t tr l s) ?_
  rw [Dev.isa_stands _ _ _ _ _ ((Dev.stands_begin t s.dev tr l _).2 h)]
  generalize ((begin_ t s.dev).unitLane tr l).core.pc.toNat = pc
  have hst : ((begin_ t s.dev).progHalt tr l pc).stReq = [] := (Dev.spares_progHalt (begin_ t s.dev) tr l pc).2.1
  refine ⟨?_, ((Dev.progHalt_stops tr.isLt l.isLt _ pc).settle tr.isLt hst).runs⟩
  rw [settle_rd_clear _ _ hst _ _ _ (Field.has_of tr.isLt (by decide)) (by decide)]
  exact Dev.progHalt_shown tr.isLt l.isLt _ pc

/-- Settles O42: a BUS trap in place of the fetch, and the halt of a program. -/
theorem fetchOutsideTcm : Obligations.FetchOutsideTcm := fun _ t tr l => ⟨ends_fetchBusFault t tr l, ends_halt t tr l⟩

/-! ### WAIT (R367) -/

/-- What a mask selects of the conditions that hold. -/
theorem Dev.waitBits_none (d : Dev) (c : Core) {mask : Word} (rb : Word) (k : Nat) (h : mask.toNat % 1024 = 0) : d.waitBits c mask rb k = 0 := by
  have hb : ∀ i < 10, bitAt mask.toNat i = false := by
    intro i hi
    unfold bitAt
    interval_cases i <;> simp <;> omega
  unfold Dev.waitBits
  simp [List.range_succ, sumN, hb]

theorem Dev.waitBits_deadline (d : Dev) (c : Core) {mask : Word} (rb : Word) (k : Nat) (h : mask.toNat % 1024 = 512) :
    d.waitBits c mask rb k = if 0 ≤ tsDiff rb.toNat (ts32 d.now) then 512 else 0 := by
  have hb : ∀ i < 9, bitAt mask.toNat i = false := by
    intro i hi
    unfold bitAt
    interval_cases i <;> simp <;> omega
  have h9 : bitAt mask.toNat 9 = true := by
    unfold bitAt
    simp
    omega
  unfold Dev.waitBits
  simp [List.range_succ, sumN, hb, h9]

theorem Dev.waitBits_cycle (d : Dev) (c : Core) {mask : Word} (rb : Word) (k : Nat) (h : mask.toNat % 1024 = 256) :
    d.waitBits c mask rb k = if k < d.cyc then 256 else 0 := by
  have hb : ∀ i < 8, bitAt mask.toNat i = false := by
    intro i hi
    unfold bitAt
    interval_cases i <;> simp <;> omega
  have h8 : bitAt mask.toNat 8 = true := by
    unfold bitAt
    simp
    omega
  have h9 : bitAt mask.toNat 9 = false := by
    unfold bitAt
    simp
    omega
  unfold Dev.waitBits
  simp [List.range_succ, sumN, hb, h8, h9]

section
variable {s : State} {t : Nat} {tr : Fin 4} {l : Fin 6} {rd ra rb : Fin 32}

/-- A WAIT of which something holds, or that selects nothing, goes on. -/
theorem executes_wait_done {b : Nat}
    (hb : (begin_ t s.dev).waitBits (s.dev.unitLane tr l).core ((s.dev.unitLane tr l).core.rd ra) ((s.dev.unitLane tr l).core.rd rb) (begin_ t s.dev).cyc = b)
    (hm : ((s.dev.unitLane tr l).core.rd ra).toNat % 1024 = 0 ∨ b ≠ 0) :
    Executes (.wait t tr l rd ra rb) s tr l (wR 0x38 rd ra rb 8) fun c => c.fallsTo rd (BitVec.ofNat 32 b) := by
  refine executes_of (exec_wait t tr l rd ra rb s) fun h => ?_
  simp only [hb, hm, if_true]
  exact h.wrote_result t l.isLt rd _

/-- A WAIT of which nothing holds waits from its cycle on. -/
theorem executes_wait_held (hm : ((s.dev.unitLane tr l).core.rd ra).toNat % 1024 ≠ 0)
    (hb : (begin_ t s.dev).waitBits (s.dev.unitLane tr l).core ((s.dev.unitLane tr l).core.rd ra) ((s.dev.unitLane tr l).core.rd rb) (begin_ t s.dev).cyc = 0) :
    Executes (.wait t tr l rd ra rb) s tr l (wR 0x38 rd ra rb 8) fun c => { c with wait := some (max t s.dev.now / 125000) } := by
  refine executes_of (exec_wait t tr l rd ra rb s) fun h => ?_
  simp only [hb, hm, ne_eq, not_true_eq_false, or_self, if_false]
  exact (Dev.wrote_putUnit (begin_ t s.dev) tr l _).mem rfl rfl

end

/-! #### The fields of a word (R354) -/

theorem toNat_wR {op fn : Nat} (rd ra rb : Fin 32) (ho : op < 64) (hf : fn < 2048) :
    (wR op rd ra rb fn).toNat = op * 2 ^ 26 + rd * 2 ^ 21 + ra * 2 ^ 16 + rb * 2 ^ 11 + fn := by
  unfold wR
  rw [BitVec.toNat_ofNat, Nat.mod_eq_of_lt]
  omega

section
variable {op fn : Nat} (rd ra rb : Fin 32) (ho : op < 64) (hf : fn < 2048)
include ho hf

theorem wRd_wR : wRd (wR op rd ra rb fn) = rd := by
  unfold wRd bitsOf
  rw [toNat_wR rd ra rb ho hf]
  omega

theorem wRa_wR : wRa (wR op rd ra rb fn) = ra := by
  unfold wRa bitsOf
  rw [toNat_wR rd ra rb ho hf]
  omega

theorem wRb_wR : wRb (wR op rd ra rb fn) = rb := by
  unfold wRb bitsOf
  rw [toNat_wR rd ra rb ho hf]
  omega

end

/-- An instruction that ends a wait: it writes a register and goes on. -/
theorem Dev.wrote_resultWake {d : Dev} {tr l : Nat} (hl : l < 6) (hc : ∀ k ∈ d.members tr l, (d.lane tr k).step = false ∧ (d.lane tr k).skip = false) (x : Lane) (r : Nat) (v : Word) :
    d.Wrote (d.result tr l x r v) tr l x { x.core.fallsTo r v with wait := none } := by
  have hw := Dev.wrote_complete hc hl { x with core := x.core.put r v } (x.core.pc + 4#32)
  unfold Dev.result Dev.next
  dsimp only at hw ⊢
  rw [Core.put_pc, Core.fallsTo]
  rw [Core.put_instret] at hw
  exact hw.mem rfl rfl

theorem ends_waitWake {s : State} {t : Nat} {tr : Fin 4} {l : Fin 6} {rd ra rb : Fin 32} {k0 : Nat} (hr : s.dev.unitRuns tr l = true)
    (hw : (s.dev.unitLane tr l).core.wait = some k0) (hf : (s.dev.unitLane tr l).fetch = some (wR 0x38 rd ra rb 8))
    (hm : ((s.dev.unitLane tr l).core.rd ra).toNat % 1024 = 256) (hk : k0 < max t s.dev.now / 125000)
    (hc : ∀ k ∈ s.dev.members tr l, (s.dev.lane tr k).step = false ∧ (s.dev.lane tr k).skip = false) :
    Ends (.waitWake t tr l) s fun d => ∀ k ∈ s.dev.members tr l, (d.lane tr k).core = { (s.dev.unitLane tr l).core.fallsTo rd 256#32 with wait := none } := by
  refine ends_of (exec_waitWake t tr l s) ?_
  have hx : (begin_ t s.dev).unitLane tr l = s.dev.unitLane tr l := rfl
  have hr' : (begin_ t s.dev).unitRuns tr l = true := hr
  have hb : (begin_ t s.dev).waitBits (s.dev.unitLane tr l).core ((s.dev.unitLane tr l).core.rd ra) ((s.dev.unitLane tr l).core.rd rb) k0 = 256 := by
    rw [Dev.waitBits_cycle _ _ _ _ hm, if_pos]
    exact hk
  have hd : wRd (wR 0x38 rd ra rb 8) = rd := wRd_wR rd ra rb (by decide) (by decide)
  have ha : wRa (wR 0x38 rd ra rb 8) = ra := wRa_wR rd ra rb (by decide) (by decide)
  have hbr : wRb (wR 0x38 rd ra rb 8) = rb := wRb_wR rd ra rb (by decide) (by decide)
  unfold Dev.waitWake
  simp only [hx, hr', hw, hf, hd, ha, hbr, hb]
  exact fun k hkm => (Dev.wrote_resultWake (d := begin_ t s.dev) l.isLt hc (s.dev.unitLane tr l) rd 256#32).settle_core rfl hkm

/-! ### SYNCPT (R368) -/

theorem Dev.readmit_setLane (d : Dev) (tr k a : Nat) (x : Lane) : ((d.setLane tr k x).tri a).readmit = (d.tri a).readmit := by
  unfold Dev.setLane
  by_cases h : a = tr
  · subst h
    rw [Dev.tri_setTri_self]
  · rw [Dev.tri_setTri_ne _ _ h]

theorem Dev.readmit_putUnit (d : Dev) (tr l a : Nat) (x : Lane) : ((d.putUnit tr l x).tri a).readmit = (d.tri a).readmit := by
  unfold Dev.putUnit
  generalize d.members tr l = ks
  induction ks generalizing d with
  | nil => rfl
  | cons k ks ih => rw [List.foldl_cons, ih, Dev.readmit_setLane]

theorem executes_syncpt {s : State} {t : Nat} {tr : Fin 4} {l : Fin 6} (hn : (s.dev.tri tr).readmit = none) :
    Executes (.syncpt t tr l true) s tr l (wR 0x38 0 0 0 0x10) fun c => c.goesTo (c.pc + 4#32) := by
  refine executes_of (exec_syncpt t tr l true s) fun h => ?_
  have hw := h.wrote_goesTo t l.isLt h.wait ((s.dev.unitLane tr l).core.pc + 4#32)
  have hr : (((begin_ t s.dev).next tr l (s.dev.unitLane tr l)).tri tr).readmit = none := by
    unfold Dev.next
    rw [Dev.complete_eq _ _ _ _ _ (h.calm t), Dev.readmit_putUnit, (Dev.foldl_pc _ _ _ _).1]
    exact hn
  simp only [hr]
  exact hw

/-! ### LOCK and UNLOCK (R369) -/

/-- A device that differs from the one before in nothing that an instruction reads of its lanes. -/
structure Dev.SameLanes (d e : Dev) (tr l : Nat) : Prop where
  members : e.members tr l = d.members tr l
  lane : ∀ k, e.lane tr k = d.lane tr k
  stReq : e.stReq = []

theorem Dev.SameLanes.calm {d e : Dev} {t tr l : Nat} {w : Word} (h : (begin_ t d).SameLanes e tr l) (hs : d.Stands tr l w) :
    ∀ k ∈ e.members tr l, (e.lane tr k).step = false ∧ (e.lane tr k).skip = false := by
  intro k hk
  rw [h.members] at hk
  rw [h.lane]
  exact hs.calm t k hk

/-- A core that waits for nothing any more. -/
def Core.woken (c : Core) : Core := { c with wait := none }

theorem Core.woken_eq {c : Core} (h : c.wait = none) : c.woken = c := by
  cases c
  cases h
  rfl

/-- An instruction leaves the revocations of the bus lock. -/
theorem Dev.result_revoked {d : Dev} {tr l : Nat} (hc : ∀ k ∈ d.members tr l, (d.lane tr k).step = false ∧ (d.lane tr k).skip = false) (x : Lane) (r : Nat) (v : Word) :
    (d.result tr l x r v).trd.revoked = d.trd.revoked := by
  unfold Dev.result Dev.next
  rw [Dev.complete_eq _ _ _ _ _ hc, Dev.laneOnly_putUnit, (Dev.foldl_pc _ _ _ _).1]

/-- An instruction that also changed something beside the lanes writes a register and goes on. -/
theorem Dev.SameLanes.wrote_result {d e : Dev} {t tr l : Nat} {w : Word} (h : (begin_ t d).SameLanes e tr l) (hs : d.Stands tr l w) (hl : l < 6) (r : Nat) (v : Word) :
    e.Wrote (e.result tr l (d.unitLane tr l) r v) tr l (d.unitLane tr l) ((d.unitLane tr l).core.fallsTo r v) := by
  have hw : e.Wrote (e.result tr l (d.unitLane tr l) r v) tr l (d.unitLane tr l) ((d.unitLane tr l).core.fallsTo r v).woken :=
    Dev.wrote_resultWake hl (h.calm hs) (d.unitLane tr l) r v
  rwa [Core.woken_eq (c := (d.unitLane tr l).core.fallsTo r v) ((Core.put_wait _ _ _).trans hs.wait)] at hw

/-- The device with the bus lock and the revocations as given. -/
def Dev.setLock (d : Dev) (lock : Option BusLock) (revoked : List Nat) : Dev := { d with trd := { d.trd with lock := lock, revoked := revoked } }

theorem Dev.sameLanes_setLock (t : Nat) (d : Dev) (lock : Option BusLock) (revoked : List Nat) (tr l : Nat) :
    (begin_ t d).SameLanes ((begin_ t d).setLock lock revoked) tr l := ⟨rfl, fun _ => rfl, rfl⟩

/-- `TRD_STATUS.LOCK` written too. -/
theorem Dev.sameLanes_setLock_wr (t : Nat) (d : Dev) (lock : Option BusLock) (revoked : List Nat) (tr : Fin 4) (l v : Nat) :
    (begin_ t d).SameLanes (((begin_ t d).setLock lock revoked).wr Reg.TRD_STATUS_LOCK v tr) tr l :=
  ⟨Dev.members_wr (d := (begin_ t d).setLock lock revoked) tr.isLt v l rfl (by decide) (by decide), fun _ => rfl, rfl⟩

section
variable {s : State} {t : Nat} {tr : Fin 4} {l : Fin 6} {rd : Fin 32} (hl : l.val < 3)
include hl

/-- LOCK takes a free lock. -/
theorem ends_lock_free (hf : s.dev.trd.lock = none) (h : s.dev.Stands tr l (wR 0x38 rd 0 0 0x11)) :
    Ends (.lock t tr l rd) s fun d => (∀ k ∈ s.dev.members tr l, (d.lane tr k).core = (s.dev.unitLane tr l).core.fallsTo rd 0#32) ∧
      d.trd.lock = some { req := unitReq tr l, at_ := s.dev.ownAt t } ∧ d.rd Reg.TRD_STATUS_LOCK tr = 1 := by
  have hs := Dev.sameLanes_setLock_wr t s.dev (some { req := unitReq tr l, at_ := s.dev.ownAt t }) (s.dev.trd.revoked.filter (fun r => r != unitReq tr l)) tr l 1
  have hw := hs.wrote_result h l.isLt rd 0#32
  refine ends_of (exec_lock t tr l rd s) ?_
  have hb : (begin_ t s.dev).trd.lock = none := hf
  have hx : (begin_ t s.dev).unitLane tr l = s.dev.unitLane tr l := rfl
  rw [Dev.lockInst, Dev.isa_stands _ _ _ _ _ ((Dev.stands_begin t s.dev tr l _).2 h), hx]
  dsimp only
  rw [if_neg (by omega), hb]
  refine ⟨fun k hk => hw.settle_core hs.stReq (by rw [hs.members]; exact hk), ?_, ?_⟩
  · exact (congrArg Trd.lock (settle_trd _ _ (hw.stReq.trans hs.stReq))).trans hw.lock
  · refine (hw.settle_rd (f := Reg.TRD_STATUS_LOCK) hs.stReq tr.isLt l.isLt (Field.has_of tr.isLt (by decide)) (by decide) (by decide)).trans ?_
    exact Dev.rd_wr_self _ Reg.TRD_STATUS_LOCK 1 tr 0 (by decide)

/-- LOCK of the unit that holds the lock answers 1. -/
theorem executes_lock_held {b : BusLock} (hb : s.dev.trd.lock = some b) (hr : b.req = unitReq tr l) :
    Executes (.lock t tr l rd) s tr l (wR 0x38 rd 0 0 0x11) fun c => c.fallsTo rd 1#32 := by
  refine executes_of (exec_lock t tr l rd s) fun h => ?_
  have hb' : (begin_ t s.dev).trd.lock = some b := hb
  dsimp only
  rw [if_neg (by omega), hb']
  dsimp only
  rw [if_pos hr]
  exact h.wrote_result t l.isLt rd _

/-- UNLOCK of the unit that holds the lock frees it. -/
theorem ends_unlock_held {b : BusLock} (hb : s.dev.trd.lock = some b) (hr : b.req = unitReq tr l) (h : s.dev.Stands tr l (wR 0x38 rd 0 0 0x12)) :
    Ends (.unlock t tr l rd) s fun d => (∀ k ∈ s.dev.members tr l, (d.lane tr k).core = (s.dev.unitLane tr l).core.fallsTo rd 0#32) ∧
      d.trd.lock = none ∧ d.rd Reg.TRD_STATUS_LOCK tr = 0 := by
  have hb' : (begin_ t s.dev).trd.lock = some b := hb
  have htri : (unitReq tr l - 0x80) / 4 = tr.val := by
    unfold unitReq
    omega
  have hfree : (begin_ t s.dev).lockFree (unitReq tr l) = ((begin_ t s.dev).setLock none s.dev.trd.revoked).wr Reg.TRD_STATUS_LOCK 0 tr := by
    unfold Dev.lockFree
    rw [hb', htri]
    exact if_pos hr
  have hh : (begin_ t s.dev).holdsLock (unitReq tr l) = true := by
    unfold Dev.holdsLock
    rw [hb']
    exact beq_iff_eq.2 hr
  have hx : (begin_ t s.dev).unitLane tr l = s.dev.unitLane tr l := rfl
  have hs := Dev.sameLanes_setLock_wr t s.dev none s.dev.trd.revoked tr l 0
  have hw := hs.wrote_result h l.isLt rd 0#32
  refine ends_of (exec_unlock t tr l rd s) ?_
  rw [Dev.unlockInst, Dev.isa_stands _ _ _ _ _ ((Dev.stands_begin t s.dev tr l _).2 h), hx]
  dsimp only
  rw [if_neg (by omega), if_pos hh, hfree]
  refine ⟨fun k hk => hw.settle_core hs.stReq (by rw [hs.members]; exact hk), ?_, ?_⟩
  · exact (congrArg Trd.lock (settle_trd _ _ (hw.stReq.trans hs.stReq))).trans hw.lock
  · refine (hw.settle_rd (f := Reg.TRD_STATUS_LOCK) hs.stReq tr.isLt l.isLt (Field.has_of tr.isLt (by decide)) (by decide) (by decide)).trans ?_
    exact Dev.rd_wr_self _ Reg.TRD_STATUS_LOCK 0 tr 0 (by decide)

/-- UNLOCK of a unit whose lock was revoked answers 2, once. -/
theorem ends_unlock_revoked (hn : s.dev.trd.lock = none) (hr : unitReq tr l ∈ s.dev.trd.revoked) (h : s.dev.Stands tr l (wR 0x38 rd 0 0 0x12)) :
    Ends (.unlock t tr l rd) s fun d => (∀ k ∈ s.dev.members tr l, (d.lane tr k).core = (s.dev.unitLane tr l).core.fallsTo rd 2#32) ∧ unitReq tr l ∉ d.trd.revoked := by
  have hh : (begin_ t s.dev).holdsLock (unitReq tr l) = false := by
    have hn' : (begin_ t s.dev).trd.lock = none := hn
    unfold Dev.holdsLock
    rw [hn']
  have hr' : (begin_ t s.dev).trd.revoked.contains (unitReq tr l) = true := List.contains_iff_mem.2 hr
  have hx : (begin_ t s.dev).unitLane tr l = s.dev.unitLane tr l := rfl
  have hs := Dev.sameLanes_setLock t s.dev s.dev.trd.lock (s.dev.trd.revoked.filter (fun r => r != unitReq tr l)) tr l
  have hw := hs.wrote_result h l.isLt rd 2#32
  refine ends_of (exec_unlock t tr l rd s) ?_
  rw [Dev.unlockInst, Dev.isa_stands _ _ _ _ _ ((Dev.stands_begin t s.dev tr l _).2 h), hx]
  dsimp only
  rw [if_neg (by omega), hh, if_neg (by decide), if_pos hr']
  refine ⟨fun k hk => hw.settle_core hs.stReq (by rw [hs.members]; exact hk), ?_⟩
  have hrev : (settle s.dev (((begin_ t s.dev).setLock s.dev.trd.lock (s.dev.trd.revoked.filter (fun r => r != unitReq tr l))).result tr l (s.dev.unitLane tr l) rd 2#32)).trd.revoked =
      s.dev.trd.revoked.filter (fun r => r != unitReq tr l) :=
    (congrArg Trd.revoked (settle_trd _ _ (hw.stReq.trans hs.stReq))).trans (Dev.result_revoked (hs.calm h) _ _ _)
  intro hm
  have hm' := hrev ▸ hm
  simp at hm'

/-- UNLOCK of a unit that does not hold the lock answers 1. -/
theorem executes_unlock_free (hn : s.dev.trd.lock = none) (hr : unitReq tr l ∉ s.dev.trd.revoked) :
    Executes (.unlock t tr l rd) s tr l (wR 0x38 rd 0 0 0x12) fun c => c.fallsTo rd 1#32 := by
  have hh : (begin_ t s.dev).holdsLock (unitReq tr l) = false := by
    have hn' : (begin_ t s.dev).trd.lock = none := hn
    unfold Dev.holdsLock
    rw [hn']
  have hr' : ¬ (begin_ t s.dev).trd.revoked.contains (unitReq tr l) = true := fun hc => hr (List.contains_iff_mem.1 hc)
  refine executes_of (exec_unlock t tr l rd s) fun h => ?_
  dsimp only
  rw [if_neg (by omega), hh, if_neg (by decide), if_neg hr']
  exact h.wrote_result t l.isLt rd _

end

/-- Settles O43: WAIT by what its mask selects and what of it holds, and one lemma for each case of SYNCPT, LOCK and UNLOCK. -/
theorem waitsSyncsAndLocks : Obligations.WaitsSyncsAndLocks := by
  intro s t tr l rd ra rb
  refine ⟨?nothing, ?reached, ?early, ?cycle, ?wake, executes_syncpt, ?locks⟩
  case nothing => exact fun hm => executes_wait_done (Dev.waitBits_none _ _ _ _ hm) (Or.inl hm)
  case reached =>
    intro hm hd
    refine executes_wait_done (b := 512) ?_ (Or.inr (by decide))
    rw [Dev.waitBits_deadline _ _ _ _ hm]
    exact if_pos hd
  case early =>
    intro hm hd
    refine executes_wait_held (by omega) ?_
    rw [Dev.waitBits_deadline _ _ _ _ hm]
    exact if_neg (not_le.2 hd)
  case cycle =>
    intro hm
    refine executes_wait_held (by omega) ?_
    rw [Dev.waitBits_cycle _ _ _ _ hm, if_neg (lt_irrefl _)]
  case wake => exact fun k0 hr hw hf hm hk hc => ends_waitWake hr hw hf hm hk hc
  case locks =>
    intro hl
    exact ⟨ends_lock_free hl, fun b => executes_lock_held hl, fun b => ends_unlock_held hl, ends_unlock_revoked hl, executes_unlock_free hl⟩

end Sys2Proof.Machine
end

section
/-!
PROOFS. Proofs/Voting.lean: what the voter makes of the entries of its lanes and of a silent lane.
-/
namespace Sys2Proof.Machine

/-! ### Exclusion of a lane (R336) -/

section
variable {tr : Nat} (htr : tr < 4)

/-- The device that has taken a lane out of the vote, before what follows from it. -/
def Dev.excluded (d : Dev) (tr lane cause : Nat) : Dev :=
  ((d.setLst tr lane 2).wr Reg.TRD_LANE_STAT_CAUSE cause tr (lane - 1)).bump Reg.TRD_LANE_STAT_EXCL 1 tr (lane - 1)

theorem Dev.excludeLane_eq (d : Dev) (tr lane pc cause reg : Nat) (special : Bool) : d.excludeLane tr lane pc cause reg special =
    ((((d.misWrite tr pc (2 ^ (lane - 1)) cause reg special).excluded tr lane cause).raise Ev.TRD_MISMATCH (trdInst tr lane)
      (((d.misWrite tr pc (2 ^ (lane - 1)) cause reg special).excluded tr lane cause).misData tr)).trdSync tr) := rfl

@[simp] theorem Dev.spares_excludeLane (d : Dev) (tr lane pc cause reg : Nat) (special : Bool) : d.Spares (d.excludeLane tr lane pc cause reg special) := by
  rw [Dev.excludeLane_eq]
  unfold Dev.excluded
  simp -implicitDefEqProofs [Dev.Spares, Dev.stReq_raise, Ev.TRD_MISMATCH]

include htr
variable {lane : Nat}

/-- After the exclusion only the authority of the triad is computed afresh. -/
theorem Dev.writes_excludeLane (d : Dev) (pc cause reg : Nat) (special : Bool) :
    Dev.Writes syncFields ((d.misWrite tr pc (2 ^ (lane - 1)) cause reg special).excluded tr lane cause) (d.excludeLane tr lane pc cause reg special) := by
  rw [Dev.excludeLane_eq]
  exact (Dev.Writes.raise _ _ _ _ _).trans (Dev.writes_trdSync htr _)

variable (h1 : 1 ≤ lane) (h3 : lane ≤ 3)
include h1 h3

theorem Dev.lst_excluded (d : Dev) (cause k : Nat) : (d.excluded tr lane cause).lst tr k = if k = lane then 2 else d.lst tr k := by
  have hb : lane - 1 < 3 := Nat.sub_one_lt_of_le h1 h3
  have hw : Dev.Writes [Reg.TRD_LANE_STAT_CAUSE, Reg.TRD_LANE_STAT_EXCL] (d.setLst tr lane 2) (d.excluded tr lane cause) :=
    (Dev.Writes.wr _ _ (Field.has_of htr hb) (by simp)).trans (Dev.Writes.wr _ _ (Field.has_of htr hb) (by simp))
  rw [hw.lst (by decide) htr, Dev.lst_setLst _ _ h1 h3]

theorem Dev.lst_excludeLane (d : Dev) (pc cause reg : Nat) (special : Bool) (k : Nat) :
    (d.excludeLane tr lane pc cause reg special).lst tr k = if k = lane then 2 else d.lst tr k := by
  rw [(Dev.writes_excludeLane htr d pc cause reg special).lst (by decide) htr, Dev.lst_excluded htr h1 h3, (Dev.writes_misWrite htr d _ _ _ _ _).lst (by decide) htr]

theorem Dev.cause_excludeLane (d : Dev) (pc cause reg : Nat) (special : Bool) :
    (d.excludeLane tr lane pc cause reg special).rd Reg.TRD_LANE_STAT_CAUSE tr (lane - 1) = cause % 2 ^ Reg.TRD_LANE_STAT_CAUSE.width := by
  have hb : lane - 1 < 3 := Nat.sub_one_lt_of_le h1 h3
  rw [Dev.writes_excludeLane htr d pc cause reg special _ _ _ (Field.has_of htr hb) (by decide)]
  refine (Dev.rd_wr_free _ _ (Field.has_of htr hb) (Field.has_of htr hb) (by decide)).trans ?_
  exact Dev.rd_wr_self _ Reg.TRD_LANE_STAT_CAUSE cause tr (lane - 1) (by decide)

theorem Dev.excl_excludeLane (d : Dev) (pc cause reg : Nat) (special : Bool) :
    (d.excludeLane tr lane pc cause reg special).rd Reg.TRD_LANE_STAT_EXCL tr (lane - 1) =
      min (d.rd Reg.TRD_LANE_STAT_EXCL tr (lane - 1) + 1) (2 ^ Reg.TRD_LANE_STAT_EXCL.width - 1) := by
  have hb : lane - 1 < 3 := Nat.sub_one_lt_of_le h1 h3
  have hhas : Reg.TRD_LANE_STAT_EXCL.has tr (lane - 1) = true := Field.has_of htr hb
  rw [Dev.writes_excludeLane htr d pc cause reg special _ _ _ hhas (by decide)]
  unfold Dev.excluded Dev.bump Dev.setLst
  rw [Dev.rd_wr_self _ _ _ _ _ (by decide), Dev.rd_wr_free _ _ (Field.has_of htr hb) hhas (by decide), Dev.rd_wr_free _ _ (Field.has_of htr hb) hhas (by decide),
    Dev.writes_misWrite htr d _ _ _ _ _ _ _ _ hhas (by decide)]
  unfold satAdd
  rw [Nat.mod_eq_of_lt]
  have := d.rd_lt Reg.TRD_LANE_STAT_EXCL tr (lane - 1)
  simp only [Reg.TRD_LANE_STAT_EXCL] at this ⊢
  omega

end

/-! ### Halt on a fault (R337) -/

@[simp] theorem Dev.spares_haltFault (d : Dev) (tr pc lanes kind reg : Nat) (special : Bool) : d.Spares (d.haltFault tr pc lanes kind reg special) := by
  unfold Dev.haltFault
  simp -implicitDefEqProofs [Dev.Spares, Dev.stReq_raise, Ev.TRD_HALT]

/-- A halted triad shows it, its lanes that voted are halted, and it runs no more. -/
def Dev.HaltedFrom (o d : Dev) (tr : Nat) : Prop := d.rd Reg.TRD_STATUS_HALTED tr = 1 ∧ (∀ k ∈ o.voters tr, d.lst tr k = 4) ∧ d.unitRuns tr 0 = false

theorem Dev.haltedFrom_haltFault {tr : Nat} (htr : tr < 4) (d : Dev) (pc lanes kind reg : Nat) (special : Bool) : d.HaltedFrom (d.haltFault tr pc lanes kind reg special) tr := by
  have hh : (d.haltFault tr pc lanes kind reg special).rd Reg.TRD_STATUS_HALTED tr = 1 := Dev.halted_safeHalt htr _
  refine ⟨hh, fun k hk => Dev.lst_safeHalt htr ?_, Dev.UnitStopped.runs ⟨fun _ => hh, by omega, by omega⟩⟩
  have hw : Dev.Writes misFields d ((d.misWrite tr pc lanes kind reg special).raise Ev.TRD_HALT (trdInst tr 0) ((d.misWrite tr pc lanes kind reg special).misData tr)) :=
    (Dev.writes_misWrite htr d _ _ _ _ _).trans (Dev.Writes.raise _ _ _ _ _)
  rw [Dev.voters_congr (hw.lst (by decide) htr)]
  exact hk

theorem Dev.HaltedFrom.settle {s d : Dev} {tr : Nat} (htr : tr < 4) (hst : d.stReq = []) (h : s.HaltedFrom d tr) : s.HaltedFrom (settle s d) tr := by
  obtain ⟨hh, hl, hr⟩ := h
  have hh' := (settle_rd_clear s d hst Reg.TRD_STATUS_HALTED tr 0 (Field.has_of htr (by decide)) (by decide)).trans hh
  refine ⟨hh', fun k hk => ?_, Dev.UnitStopped.runs ⟨fun _ => hh', by omega, by omega⟩⟩
  rw [(Dev.writes_settle s d hst).lst (by decide) htr]
  exact hl k hk

/-! ### Judgement (R334, Table 13.3) -/

theorem entriesAgree_comm (a b : CEntry) : entriesAgree a b = entriesAgree b a := by
  unfold entriesAgree
  rw [Bool.eq_iff_iff]
  simp only [Bool.and_eq_true, Bool.not_eq_true', beq_iff_eq]
  constructor <;> rintro ⟨⟨⟨⟨⟨⟨h1, h2⟩, h3⟩, h4⟩, h5⟩, h6⟩, h7⟩ <;> simp [h1, h2, h3, h4, h5, h6, h7]

/-- An entry that agrees with another carries no mark, so it agrees with itself. -/
theorem entriesAgree_self {a b : CEntry} (h : entriesAgree a b = true) : entriesAgree a a = true := by
  unfold entriesAgree at h ⊢
  simp only [Bool.and_eq_true, Bool.not_eq_true'] at h
  simp [h.1.1.1.1.1.1]

/-- The register that a fault of an entry names. -/
def entryReg (e : CEntry) : Nat := if entryCause e = 1 then e.x else 0

/-- Whether that is a special register. -/
def entrySpecial (e : CEntry) : Bool := entryCause e == 1 && e.special

section
variable {d : Dev} {tr : Nat} {a b c : CEntry} (ha : a.lane = 1) (hb : b.lane = 2)
include ha hb

/-- Two entries that differ halt the triad. -/
theorem Dev.judge_two (hv : d.voters tr = [1, 2]) (hab : entriesAgree a b = false) :
    d.judge tr [a, b] = d.haltFault tr a.pc.toNat 3 (entryCause (if a.mark then a else b)) (entryReg (if a.mark then a else b)) (entrySpecial (if a.mark then a else b)) := by
  unfold Dev.judge
  rw [hv]
  simp [ha, hb, hab, sumN, entryReg, entrySpecial]

variable (hc : c.lane = 3) (hv : d.voters tr = [1, 2, 3])
include hc hv

/-- Two agreeing entries of three take the lane of the third one out of the vote. -/
theorem Dev.judge_outvoted (hab : entriesAgree a b = true) (hac : entriesAgree a c = false) :
    d.judge tr [a, b, c] = d.excludeLane tr 3 c.pc.toNat (entryCause c) (entryReg c) (entrySpecial c) := by
  unfold Dev.judge
  rw [hv]
  simp [ha, hb, hc, hab, hac, entriesAgree_self hab, entryReg, entrySpecial]

/-- Three entries of which no two agree halt the triad. -/
theorem Dev.judge_three (hab : entriesAgree a b = false) (hac : entriesAgree a c = false) (hbc : entriesAgree b c = false) :
    d.judge tr [a, b, c] = d.haltFault tr a.pc.toNat 7 8 0 false := by
  have hba := (entriesAgree_comm b a).trans hab
  have hca := (entriesAgree_comm c a).trans hac
  have hcb := (entriesAgree_comm c b).trans hbc
  unfold Dev.judge
  rw [hv]
  simp [ha, hb, hc, hab, hac, hbc, hba, hca, hcb, sumN]

end

/-! ### Silence (R334, R336) -/

theorem Dev.silent_three {d : Dev} {tr k : Nat} (hv : d.voters tr = [1, 2, 3]) (hk : k ∈ d.voters tr) (pc : Nat) : d.silent tr k pc = d.excludeLane tr k pc 4 0 false := by
  unfold Dev.silent
  rw [if_neg (not_not.2 (Dev.mem_voters.1 hk)), hv]
  rfl

theorem Dev.silent_two {d : Dev} {tr k : Nat} (hv : d.voters tr = [1, 2]) (hk : k ∈ d.voters tr) (pc : Nat) :
    d.silent tr k pc = d.haltFault tr pc (2 ^ (k - 1)) 4 0 false := by
  unfold Dev.silent
  rw [if_neg (not_not.2 (Dev.mem_voters.1 hk)), hv]
  rfl

/-! ### The commands -/

section
variable {s : State} (t : Nat) {tr : Fin 4} (hr : s.dev.unitRuns tr 0 = true)
include hr

theorem ends_voterCompare {ents : List CEntry} {p : Dev → Prop} (h : p (settle s.dev ((begin_ t s.dev).judge tr ents))) : Ends (.voterCompare t tr ents) s p :=
  ends_of (exec_voterCompare t tr ents s) (by
    have hr' : (begin_ t s.dev).unitRuns tr 0 = true := hr
    rw [if_pos hr']
    exact h)

theorem ends_laneSilent {k : Nat} {pc : Word} {p : Dev → Prop} (h : p (settle s.dev ((begin_ t s.dev).silent tr k pc.toNat))) : Ends (.laneSilent t tr k pc) s p :=
  ends_of (exec_laneSilent t tr k pc s) (by
    have hr' : (begin_ t s.dev).unitRuns tr 0 = true := hr
    rw [if_pos hr']
    exact h)

end

theorem settle_halted {s : State} (t : Nat) (tr : Fin 4) {pc lanes kind reg : Nat} {special : Bool} :
    s.dev.HaltedFrom (settle s.dev ((begin_ t s.dev).haltFault tr pc lanes kind reg special)) tr :=
  Dev.HaltedFrom.settle tr.isLt (Dev.spares_haltFault _ _ _ _ _ _ _).2.1 (Dev.haltedFrom_haltFault tr.isLt (begin_ t s.dev) _ _ _ _ _)

/-- What an exclusion shows after the command. -/
theorem settle_excluded {s : State} (t : Nat) (tr : Fin 4) {lane pc cause reg : Nat} {special : Bool} (h1 : 1 ≤ lane) (h3 : lane ≤ 3) :
    let d := settle s.dev ((begin_ t s.dev).excludeLane tr lane pc cause reg special)
    (∀ k, d.lst tr k = if k = lane then 2 else s.dev.lst tr k) ∧ d.rd Reg.TRD_LANE_STAT_CAUSE tr (lane - 1) = cause % 2 ^ Reg.TRD_LANE_STAT_CAUSE.width ∧
      d.rd Reg.TRD_LANE_STAT_EXCL tr (lane - 1) = min (s.dev.rd Reg.TRD_LANE_STAT_EXCL tr (lane - 1) + 1) (2 ^ Reg.TRD_LANE_STAT_EXCL.width - 1) := by
  have hst : ((begin_ t s.dev).excludeLane tr lane pc cause reg special).stReq = [] := (Dev.spares_excludeLane _ _ _ _ _ _ _).2.1
  have hb : lane - 1 < 3 := Nat.sub_one_lt_of_le h1 h3
  refine ⟨fun k => ?_, ?_, ?_⟩
  · rw [(Dev.writes_settle s.dev _ hst).lst (by decide) tr.isLt, Dev.lst_excludeLane tr.isLt h1 h3]
    rfl
  · rw [settle_rd_clear _ _ hst _ _ _ (Field.has_of tr.isLt hb) (by decide), Dev.cause_excludeLane tr.isLt h1 h3]
  · rw [settle_rd_clear _ _ hst _ _ _ (Field.has_of tr.isLt hb) (by decide), Dev.excl_excludeLane tr.isLt h1 h3]
    rfl

/-- Settles O44: the vote of three excludes the lane that differs or is silent, and halts on three answers; the vote of two halts. -/
theorem voterExcludesAndHalts : Obligations.VoterExcludesAndHalts := by
  intro s t tr a b c pc hr
  refine ⟨fun hv => ⟨fun ha hb hc hab hac => ?outvoted, fun ha hb hc hab hac hbc => ?three, fun k h1 h3 => ?silent⟩,
    fun hv => ⟨fun ha hb hab => ?two, ?silentA, ?silentB⟩⟩
  case outvoted =>
    refine ends_voterCompare t hr ?_
    rw [Dev.judge_outvoted (d := begin_ t s.dev) ha hb hc hv hab hac]
    obtain ⟨hl, hcause, hexcl⟩ := settle_excluded (s := s) t tr (lane := 3) (pc := c.pc.toNat) (cause := entryCause c) (reg := entryReg c) (special := entrySpecial c)
      (by decide) (by decide)
    have hvoter : ∀ k ∈ [1, 2, 3], s.dev.lst tr k = 1 := fun k hk => Dev.mem_voters.1 (hv ▸ hk)
    exact ⟨hl 3, (hl 1).trans (hvoter 1 (by simp)), (hl 2).trans (hvoter 2 (by simp)), hcause, hexcl⟩
  case three =>
    refine ends_voterCompare t hr ?_
    rw [Dev.judge_three (d := begin_ t s.dev) ha hb hc hv hab hac hbc]
    exact settle_halted t tr
  case silent =>
    have hk : k ∈ s.dev.voters tr := by
      rw [hv]
      simp
      omega
    refine ends_laneSilent t hr ?_
    rw [Dev.silent_three (d := begin_ t s.dev) hv hk]
    obtain ⟨hl, hcause, -⟩ := settle_excluded (s := s) t tr (pc := pc.toNat) (cause := 4) (reg := 0) (special := false) h1 h3
    refine ⟨(hl k).trans (if_pos rfl), hcause, ?_⟩
    have hvoter : ∀ j ∈ [1, 2, 3], s.dev.lst tr j = 1 := fun j hj => Dev.mem_voters.1 (hv ▸ hj)
    refine List.filter_congr fun j hj => ?_
    rw [hl, hvoter j hj]
    by_cases hjk : j = k <;> simp [hjk]
  case two =>
    refine ends_voterCompare t hr ?_
    rw [Dev.judge_two (d := begin_ t s.dev) ha hb hv hab]
    exact settle_halted t tr
  case silentA =>
    refine ends_laneSilent t hr ?_
    rw [Dev.silent_two (d := begin_ t s.dev) hv (by rw [show (begin_ t s.dev).voters tr = [1, 2] from hv]; simp)]
    exact settle_halted t tr
  case silentB =>
    refine ends_laneSilent t hr ?_
    rw [Dev.silent_two (d := begin_ t s.dev) hv (by rw [show (begin_ t s.dev).voters tr = [1, 2] from hv]; simp)]
    exact settle_halted t tr

end Sys2Proof.Machine
end

section
/-!
PROOFS. Proofs/TriadRegisters.lean: the registers of a triad that a host writes, the watchdog, the bus lock and the self-tests of the lanes.
-/
namespace Sys2Proof.Machine

/-! ### Writes of a triad's registers -/

/-- The offset of a register of a triad. -/
def triOff (tr r : Nat) : Nat := 0x400000 + r + 0x100000 * tr

theorem plainOffset_tri (tr : Fin 4) : plainOffset (0x400004 + 0x100000 * tr) = true ∧ plainOffset (0x400008 + 0x100000 * tr) = true ∧
    plainOffset (0x40000C + 0x100000 * tr) = true ∧ plainOffset (0x400010 + 0x100000 * tr) = true := by
  revert tr
  decide

theorem fieldsAt_tri (tr : Fin 4) :
    fieldsAt (0x400004 + 0x100000 * tr) = [Reg.TRD_READMIT_LANE, Reg.TRD_READMIT_GO, Reg.TRD_READMIT_CANCEL, Reg.TRD_READMIT_STATUS] ∧
    fieldsAt (0x400008 + 0x100000 * tr) = [Reg.TRD_RESTART_LANES, Reg.TRD_RESTART_GO, Reg.TRD_RESTART_STATUS] ∧
    fieldsAt (0x40000C + 0x100000 * tr) = [Reg.TRD_WDOG_PERIOD] ∧ fieldsAt (0x400010 + 0x100000 * tr) = [Reg.TRD_WDOG_KICK_KEY] := by
  revert tr
  decide +kernel

/-- A write at an offset among the triads' registers goes on to what that register does. -/
theorem Dev.afterWrite_tri (d : Dev) (req : Nat) (tr : Fin 4) {r : Nat} (hr : r < 0x1000) (v : Nat) :
    d.afterWrite req (0x400000 + r + 0x100000 * tr) v = d.trdWrite req (0x400000 + r + 0x100000 * tr) v := by
  unfold Dev.afterWrite
  rw [if_neg (by omega), if_neg (by omega), if_neg (by omega), if_neg (by omega), if_neg (by omega), if_neg (by omega), if_neg (by omega), if_neg (by omega), if_pos (by omega)]

theorem Dev.trdWrite_readmit (d : Dev) (req : Nat) (tr : Fin 4) (v : Nat) : d.trdWrite req (0x400004 + 0x100000 * tr) v =
    if bitAt v 2 then (if bitAt v 3 then d.readmitEnd tr 7 else d).readmitGo tr (v % 4) else (if bitAt v 3 then d.readmitEnd tr 7 else d) := by
  have ht : (0x400004 + 0x100000 * tr.val - 0x400000) / 0x100000 = tr := by omega
  unfold Dev.trdWrite
  rw [ht]
  exact if_pos (by omega)

theorem Dev.trdWrite_restart (d : Dev) (req : Nat) (tr : Fin 4) {v : Nat} (hv : bitAt v 3 = true) :
    d.trdWrite req (0x400008 + 0x100000 * tr) v = d.restartGo tr (v % 8) := by
  have ht : (0x400008 + 0x100000 * tr.val - 0x400000) / 0x100000 = tr := by omega
  unfold Dev.trdWrite
  rw [ht]
  dsimp only
  rw [if_neg (by omega), if_pos ⟨by omega, hv⟩]

theorem Dev.trdWrite_wdog (d : Dev) (req : Nat) (tr : Fin 4) (v : Nat) : d.trdWrite req (0x40000C + 0x100000 * tr) v = d.wdogSet tr (v % 65536) := by
  have ht : (0x40000C + 0x100000 * tr.val - 0x400000) / 0x100000 = tr := by omega
  unfold Dev.trdWrite
  rw [ht]
  dsimp only
  rw [if_neg (by omega), if_neg (by omega), if_pos (by omega)]

theorem Dev.trdWrite_kick (d : Dev) (req : Nat) (tr : Fin 4) (v : Nat) : d.trdWrite req (0x400010 + 0x100000 * tr) v = d.wdogKick tr req v := by
  have ht : (0x400010 + 0x100000 * tr.val - 0x400000) / 0x100000 = tr := by omega
  unfold Dev.trdWrite
  rw [ht]
  dsimp only
  rw [if_neg (by omega), if_neg (by omega), if_neg (by omega), if_pos (by omega)]

/-- A plain write by a requester that may make it, as the command of a host. -/
theorem ends_hostWrite {c : Instr} {s : State} {t req off : Nat} {v : Word} {p : Dev → Prop} (hc : exec c s = s.run t fun d => d.hostWrite req off v)
    (hok : s.dev.Takes req) (ho : plainOffset off = true)
    (h : p (settle s.dev ((((begin_ t s.dev).storeWord true off v.toNat).afterWrite req off v.toNat).emit (.status req 0)))) : Ends c s p := by
  refine ends_of hc ?_
  rw [Dev.hostWrite_plain _ _ ((Dev.takes_begin t s.dev req).2 hok) ho]
  exact h

theorem settle_tri (o d : Dev) (h : d.stReq = []) (tr : Nat) : (settle o d).tri tr = d.tri tr := by
  unfold Dev.tri
  rw [settle_trd o d h]

theorem Dev.tri_wr (d : Dev) (f : Field) (v i j tr : Nat) : (d.wr f v i j).tri tr = d.tri tr := rfl

theorem Dev.tri_setLst (d : Dev) (tr k st a : Nat) : (d.setLst tr k st).tri a = d.tri a := rfl

/-! ### The watchdog (R339) -/

theorem ends_wdogWrite (s : State) (t req : Nat) (tr : Fin 4) (v : Word) (hok : s.dev.Takes req) :
    Ends (.trdWdogWrite t req tr v) s fun d =>
      d.rd Reg.TRD_WDOG_PERIOD tr = v.toNat % 65536 ∧ (d.tri tr).kick = [(0, s.dev.ownAt t), (1, s.dev.ownAt t), (2, s.dev.ownAt t)] := by
  refine ends_hostWrite (exec_trdWdogWrite t req tr v s) hok (plainOffset_tri tr).2.2.1 ?_
  rw [Dev.afterWrite_tri _ _ tr (r := 0xC) (by decide), Dev.trdWrite_wdog]
  generalize hd : (begin_ t s.dev).storeWord true (0x40000C + 0x100000 * tr) v.toNat = d
  have hst : d.stReq = [] := by rw [← hd, Dev.storeWord_stReq]; rfl
  have hown : d.own = s.dev.ownAt t := by rw [← hd, Dev.storeWord_own]; rfl
  have hst' : ((d.wdogSet tr (v.toNat % 65536)).emit (.status req 0)).stReq = [] := hst
  refine ⟨?_, ?_⟩
  · rw [settle_rd_clear _ _ hst' _ _ _ (Field.has_of tr.isLt (by decide)) (by decide), Dev.rd_emit]
    exact (Dev.rd_wr_self _ Reg.TRD_WDOG_PERIOD _ tr 0 (by decide)).trans (Nat.mod_mod _ _)
  · rw [settle_tri _ _ hst', ← hown]
    exact congrArg Triad.kick (Dev.tri_setTri_self d tr _)

theorem ends_wdogKick (s : State) (t : Nat) (tr : Fin 4) (l : Fin 3) (hok : s.dev.reqOk (unitReq tr l) = true) :
    Ends (.trdWdogKick t (unitReq tr l) tr 0x5A5A#32) s fun d => (d.tri tr).kick.get l 0 = s.dev.ownAt t := by
  have hlane : unitReq tr l ≠ 1 ∧ unitReq tr l ≠ 2 ∧ isLane (unitReq tr l) = true := by
    unfold unitReq isLane
    simp
    omega
  have hfields : ∀ d : Dev, d.fields (0x400010 + 0x100000 * tr) = [Reg.TRD_WDOG_KICK_KEY] := fun d => by
    rw [Dev.fields_plain d (by omega), (fieldsAt_tri tr).2.2.2]
  have hprot : ∀ d : Dev, d.isProt Reg.TRD_WDOG_KICK_KEY (0x400010 + 0x100000 * tr) = false := fun d => by
    have ho : ¬ 0x400010 + 0x100000 * tr.val < 0x400 := by omega
    simp [Dev.isProt, Reg.TRD_WDOG_KICK_KEY, ho]
  refine ends_of (exec_trdWdogKick t (unitReq tr l) tr 0x5A5A#32 s) ?_
  have hok' : (begin_ t s.dev).reqOk (unitReq tr l) = true := hok
  unfold Dev.hostWrite
  rw [hok', if_neg (by decide), if_neg (by omega), Dev.ctlWrite_stored _ (plainOffset_tri tr).2.2.2
    (by unfold Dev.changesProt; rw [hfields]; simp [hprot]) (by rw [hfields]; simp [hprot]; simp [Reg.TRD_WDOG_KICK_KEY])]
  dsimp only
  rw [Dev.afterWrite_tri _ _ tr (r := 0x10) (by decide), Dev.trdWrite_kick]
  generalize hd : (begin_ t s.dev).storeWord ((begin_ t s.dev).reqProt (unitReq tr l)) (0x400010 + 0x100000 * tr) (0x5A5A#32).toNat = d
  have hst : d.stReq = [] := by rw [← hd, Dev.storeWord_stReq]; rfl
  have hown : d.own = s.dev.ownAt t := by rw [← hd, Dev.storeWord_own]; rfl
  have hdiv : (unitReq tr l - 0x80) / 4 = tr.val ∧ (unitReq tr l - 0x80) % 4 = l.val := by
    unfold unitReq
    omega
  have hk : d.wdogKick tr (unitReq tr l) (0x5A5A#32).toNat = d.setTri tr { d.tri tr with kick := (d.tri tr).kick.ins l d.own } := by
    unfold Dev.wdogKick
    rw [hdiv.1, hdiv.2, if_pos (by simp [hlane.2.2])]
  rw [settle_tri _ _ (by rw [hk]; exact hst), hk]
  refine (congrArg (fun x : Triad => x.kick.get l 0) (Dev.tri_setTri_self d tr _)).trans ?_
  rw [← hown]
  exact Tbl.get_ins_self _ _ _ _

/-- The device of an expired watchdog, before its unit stops. -/
def Dev.wdogShown (d : Dev) (tr l : Nat) : Dev := (d.set1 Reg.TRD_ERR_WDOG tr).raise Ev.TRD_WDOG (trdInst tr l) (d.rd Reg.TRD_WDOG_PERIOD tr)

theorem Dev.wdogExpire_eq {d : Dev} {tr l : Nat} (hr : d.unitRuns tr l = true) (hp : d.rd Reg.TRD_WDOG_PERIOD tr ≠ 0)
    (hk : (d.tri tr).kick.get l 0 + d.rd Reg.TRD_WDOG_PERIOD tr * 1000 ≤ d.own) :
    ∃ pc, d.wdogExpire tr l = if l = 0 then ((d.wdogShown tr l).misWrite tr pc 0 7 0 false).safeHalt tr else (d.wdogShown tr l).splitHalt tr l := by
  refine ⟨((d.wdogShown tr l).lane tr (((d.wdogShown tr l).members tr l).headD 1)).core.pc.toNat, ?_⟩
  have hlt : ¬ d.own < (d.tri tr).kick.get l 0 + d.rd Reg.TRD_WDOG_PERIOD tr * 1000 := not_lt.2 hk
  unfold Dev.wdogExpire
  dsimp only
  rw [if_neg (by simp [hp, hr, hlt])]
  rfl

theorem Dev.wdogShown_err {tr : Nat} (htr : tr < 4) (d : Dev) (l : Nat) : (d.wdogShown tr l).rd Reg.TRD_ERR_WDOG tr = 1 := by
  unfold Dev.wdogShown
  rw [Dev.Writes.raise [] _ _ _ _ _ _ _ (Field.has_of htr (by decide)) (by decide)]
  exact Dev.rd_wr_self _ Reg.TRD_ERR_WDOG 1 tr 0 (by decide)

theorem ends_wdogExpiry (s : State) (t : Nat) (tr : Fin 4) (l : Fin 3) (hr : s.dev.unitRuns tr l = true) (hp : s.dev.rd Reg.TRD_WDOG_PERIOD tr ≠ 0)
    (hk : (s.dev.tri tr).kick.get l 0 + s.dev.rd Reg.TRD_WDOG_PERIOD tr * 1000 ≤ s.dev.ownAt t) :
    Ends (.trdWdogExpiry t tr l) s fun d => d.rd Reg.TRD_ERR_WDOG tr = 1 ∧ d.unitRuns tr l = false := by
  obtain ⟨pc, he⟩ := Dev.wdogExpire_eq (d := begin_ t s.dev) (tr := tr) (l := l) hr hp hk
  refine ends_of (exec_trdWdogExpiry t tr l s) ?_
  rw [he]
  have herr := Dev.wdogShown_err tr.isLt (begin_ t s.dev) l
  have hst : ((begin_ t s.dev).wdogShown tr l).stReq = [] := Dev.stReq_raise _ _ _ _ (by decide)
  generalize (begin_ t s.dev).wdogShown tr l = d at herr hst
  have hcalm : (if l.val = 0 then (d.misWrite tr pc 0 7 0 false).safeHalt tr else d.splitHalt tr l).stReq = [] := by
    split
    · exact ((Dev.spares_misWrite d _ _ _ _ _ _).trans (Dev.spares_safeHalt _ _)).2.1.trans hst
    · exact (Dev.spares_splitHalt d _ _).2.1.trans hst
  have hw : Dev.Writes (haltFields ++ misFields) d (if l.val = 0 then (d.misWrite tr pc 0 7 0 false).safeHalt tr else d.splitHalt tr l) := by
    split
    · exact ((Dev.writes_misWrite tr.isLt _ _ _ _ _ _).mono (by simp)).trans ((Dev.writes_safeHalt tr.isLt _).mono (by simp))
    · exact (Dev.writes_splitHalt tr.isLt _ (by omega) (by omega)).mono (by simp)
  have hstop : (if l.val = 0 then (d.misWrite tr pc 0 7 0 false).safeHalt tr else d.splitHalt tr l).UnitStopped tr l := by
    refine ⟨fun h => ?_, fun h1 h2 => ?_, by omega⟩
    · rw [if_pos h]
      exact Dev.halted_safeHalt tr.isLt _
    · rw [if_neg (by omega)]
      exact Dev.lst_splitHalt tr.isLt _ h1 h2
  refine ⟨?_, (hstop.settle tr.isLt hcalm).runs⟩
  rw [settle_rd_clear _ _ hcalm _ _ _ (Field.has_of tr.isLt (by decide)) (by decide), hw _ _ _ (Field.has_of tr.isLt (by decide)) (by decide), herr]

/-! ### The bus lock (R347) -/

theorem Dev.lockLimit_eq {d : Dev} {b : BusLock} (hb : d.trd.lock = some b) (h : 64 ≤ b.n ∨ b.at_ + 2000 ≤ d.own) : ∃ why, d.lockLimit = d.lockRevoke why := by
  unfold Dev.lockLimit
  rw [hb]
  dsimp only
  by_cases hn : 64 ≤ b.n
  · exact ⟨2, if_pos hn⟩
  · exact ⟨1, by rw [if_neg hn, if_pos (h.resolve_left hn)]⟩

theorem ends_busLockRevoke (s : State) (t : Nat) (tr : Fin 4) (l : Fin 3) (b : BusLock) (hb : s.dev.trd.lock = some b) (hreq : b.req = unitReq tr l)
    (h : 64 ≤ b.n ∨ b.at_ + 2000 ≤ s.dev.ownAt t) :
    Ends (.busLockRevoke t) s fun d => d.trd.lock = none ∧ b.req ∈ d.trd.revoked ∧ d.rd Reg.TRD_STATUS_LOCK tr = 0 ∧ d.rd Reg.TRD_ERR_LOCK_REVOKED tr = 1 := by
  obtain ⟨why, he⟩ := Dev.lockLimit_eq (d := begin_ t s.dev) hb h
  refine ends_of (exec_busLockRevoke t s) ?_
  rw [he]
  have hst : ((begin_ t s.dev).lockRevoke why).stReq = [] := (Dev.spares_lockRevoke _ _).2.1
  have htri : (b.req - 0x80) / 4 = tr.val := by
    rw [hreq]
    unfold unitReq
    omega
  have heq : (begin_ t s.dev).lockRevoke why = ((((begin_ t s.dev).setLock none (b.req :: s.dev.trd.revoked.filter (fun x => x != b.req))).clr Reg.TRD_STATUS_LOCK tr).set1
      Reg.TRD_ERR_LOCK_REVOKED tr).raise Ev.TRD_LOCK_REVOKED (b.req - 0x80) why := by
    have hb' : (begin_ t s.dev).trd.lock = some b := hb
    unfold Dev.lockRevoke
    rw [hb']
    dsimp only
    rw [htri]
    rfl
  have hhas : ∀ f : Field, f.n1 = 4 → 0 < f.n2 → f.has tr 0 = true := fun f h1 h2 => Field.has_of (lt_of_lt_of_eq tr.isLt h1.symm) h2
  refine ⟨?_, ?_, ?_, ?_⟩
  · rw [settle_trd _ _ hst, heq, Dev.raise_trd]
    rfl
  · rw [settle_trd _ _ hst, heq, Dev.raise_trd]
    exact List.mem_cons_self
  · rw [settle_rd_clear _ _ hst _ _ _ (hhas _ rfl (by decide)) (by decide), heq, Dev.Writes.raise [] _ _ _ _ _ _ _ (hhas _ rfl (by decide)) (by decide)]
    refine (Dev.rd_wr_free _ _ (hhas _ rfl (by decide)) (hhas _ rfl (by decide)) (by decide)).trans ?_
    exact Dev.rd_wr_self _ Reg.TRD_STATUS_LOCK 0 tr 0 (by decide)
  · rw [settle_rd_clear _ _ hst _ _ _ (hhas _ rfl (by decide)) (by decide), heq, Dev.Writes.raise [] _ _ _ _ _ _ _ (hhas _ rfl (by decide)) (by decide)]
    exact Dev.rd_wr_self _ Reg.TRD_ERR_LOCK_REVOKED 1 tr 0 (by decide)

/-- Settles O46: the two registers of the watchdog, its expiry, and the revocation of the bus lock. -/
theorem watchdogAndBusLock : Obligations.WatchdogAndBusLock := fun s t req tr l v b =>
  ⟨ends_wdogWrite s t req tr v, ends_wdogKick s t tr l, ends_wdogExpiry s t tr l, ends_busLockRevoke s t tr l b⟩

end Sys2Proof.Machine
end

section
/-!
PROOFS. Proofs/LaneTests.lean: re-admission, restart and the start of a triad by the self-tests of its lanes.
-/
namespace Sys2Proof.Machine

/-! ### Commands that are written to a register without being kept there -/

/-- Storing changes nothing where no field of the word takes a write. -/
theorem Dev.word_storeWord_inert (d : Dev) {off : Nat} (v : Nat) (h : off < 0x10000000) (hi : ((fieldsAt off).all fun f => !f.stores off) = true) (a : Nat) :
    (d.storeWord true off v).word a = d.word a := by
  by_cases ha : a = off
  · subst ha
    rw [Dev.word_storeWord_self d v h]
    generalize fieldsAt a = fs at hi
    generalize d.word a = w
    induction fs with
    | nil => rfl
    | cons f fs ih =>
      rw [List.all_cons, Bool.and_eq_true] at hi
      have hf : storeFields a v [f] w = w := by
        have hs := hi.1
        unfold Field.stores at hs
        unfold storeFields
        simp only [List.foldl_cons, List.foldl_nil]
        cases hacc : f.acc <;> simp only [hacc, Bool.not_true, Bool.false_eq_true] at hs ⊢
        rw [Bool.not_eq_true'] at hs
        rw [hs]
        rfl
      rw [storeFields_cons, hf, ih hi.2]
  · exact Dev.word_storeWord_ne d v h ha

theorem Dev.rd_storeWord_inert (d : Dev) {off : Nat} (v : Nat) (h : off < 0x10000000) (hi : ((fieldsAt off).all fun f => !f.stores off) = true) (f : Field) (i j : Nat) :
    (d.storeWord true off v).rd f i j = d.rd f i j := Dev.rd_congr (Dev.word_storeWord_inert d v h hi _)

theorem inert_readmit (tr : Fin 4) : ((fieldsAt (0x400004 + 0x100000 * tr)).all fun f => !f.stores (0x400004 + 0x100000 * tr)) = true := by
  rw [(fieldsAt_tri tr).1]
  revert tr
  decide

theorem inert_restart (tr : Fin 4) : ((fieldsAt (0x400008 + 0x100000 * tr)).all fun f => !f.stores (0x400008 + 0x100000 * tr)) = true := by
  rw [(fieldsAt_tri tr).2.1]
  revert tr
  decide

/-! ### Re-admission (R340, R341) -/

/-- A lane that is asked for is put to its test. -/
theorem Dev.readmitGo_eq {d : Dev} {tr lane : Nat} (hm : d.tmode tr = 1) (hn : (d.tri tr).readmit = none) (hp : (d.tri tr).phase = .idle)
    (hh : d.rd Reg.TRD_STATUS_HALTED tr = 0) (hv : (d.voters tr).length = 2) (hl : d.lst tr lane = 2) :
    d.readmitGo tr lane = ((d.wr Reg.TRD_READMIT_STATUS 0 tr).setTri tr { d.tri tr with readmit := some lane, phase := .readmit, testing := [lane], passed := [] }).setLst tr lane 3 := by
  obtain ⟨h1, h3⟩ := Dev.lst_bounds hl
  have hst : (if d.tmode tr ≠ 1 then 2 else if (d.tri tr).readmit.isSome ∨ (d.tri tr).phase ≠ .idle then 4
      else if d.on Reg.TRD_STATUS_HALTED tr ∨ (d.voters tr).length ≠ 2 then 3 else if d.lst tr lane ≠ 2 ∧ d.lst tr lane ≠ 6 then 1
      else if lane < 1 ∨ 3 < lane then 1 else 0) = 0 := by
    rw [if_neg (by simp [hm]), if_neg (by simp [hn, hp]), if_neg (by simp [Dev.on, hh, hv]), if_neg (by simp [hl]), if_neg (by omega)]
  unfold Dev.readmitGo
  dsimp only
  rw [hst]
  rfl

theorem Dev.Writes.storeInert (l : List Field) (d : Dev) {off : Nat} (v : Nat) (h : off < 0x10000000) (hi : ((fieldsAt off).all fun f => !f.stores off) = true) :
    Dev.Writes l d (d.storeWord true off v) := fun f i j _ _ => Dev.rd_storeWord_inert d v h hi f i j

theorem ends_trdReadmit (s : State) (t req : Nat) (tr : Fin 4) (lane : Fin 4) (hok : s.dev.Takes req) (hm : s.dev.tmode tr = 1) (hn : (s.dev.tri tr).readmit = none)
    (hp : (s.dev.tri tr).phase = .idle) (hh : s.dev.rd Reg.TRD_STATUS_HALTED tr = 0) (hv : (s.dev.voters tr).length = 2) (hl : s.dev.lst tr lane = 2) :
    Ends (.trdReadmit t req tr lane) s fun d =>
      d.rd Reg.TRD_READMIT_STATUS tr = 0 ∧ d.lst tr lane = 3 ∧ (d.tri tr).readmit = some lane.val ∧ (d.tri tr).testing = [lane.val] := by
  have hval : (BitVec.ofNat 32 (lane.val + 4)).toNat = lane.val + 4 := by
    rw [BitVec.toNat_ofNat]
    omega
  have hbits : bitAt (lane.val + 4) 2 = true ∧ bitAt (lane.val + 4) 3 = false ∧ (lane.val + 4) % 4 = lane.val :=
    (by decide : ∀ k : Fin 4, bitAt (k.val + 4) 2 = true ∧ bitAt (k.val + 4) 3 = false ∧ (k.val + 4) % 4 = k.val) lane
  obtain ⟨h1, h3⟩ := Dev.lst_bounds hl
  refine ends_hostWrite (exec_trdReadmit t req tr lane s) hok (plainOffset_tri tr).1 ?_
  rw [hval, Dev.afterWrite_tri _ _ tr (r := 4) (by decide), Dev.trdWrite_readmit, hbits.1, hbits.2.1, hbits.2.2]
  have hin := inert_readmit tr
  have hw : Dev.Writes [] (begin_ t s.dev) ((begin_ t s.dev).storeWord true (0x400004 + 0x100000 * tr) (lane + 4)) := Dev.Writes.storeInert _ _ _ (by omega) hin
  have htrd : ((begin_ t s.dev).storeWord true (0x400004 + 0x100000 * tr) (lane + 4)).trd = s.dev.trd := Dev.storeWord_trd _ _ _ _
  have hst : ((begin_ t s.dev).storeWord true (0x400004 + 0x100000 * tr) (lane + 4)).stReq = [] := Dev.storeWord_stReq _ _ _ _
  generalize (begin_ t s.dev).storeWord true (0x400004 + 0x100000 * tr) (lane + 4) = d at hw htrd hst
  have hrd : ∀ f : Field, f.n1 = 4 → 0 < f.n2 → f.clearOf [] = true → d.rd f tr = s.dev.rd f tr :=
    fun f h1 h2 hc => hw f tr 0 (Field.has_of (lt_of_lt_of_eq tr.isLt h1.symm) h2) hc
  have hlst : ∀ k, d.lst tr k = s.dev.lst tr k := hw.lst (by decide) tr.isLt
  have htri : d.tri tr = s.dev.tri tr := by unfold Dev.tri; rw [htrd]
  have hmode : d.tmode tr = 1 := (hrd Reg.TRD_STATUS_MODE rfl (by decide) (by decide)).trans hm
  have hhalt : d.rd Reg.TRD_STATUS_HALTED tr = 0 := (hrd _ rfl (by decide) (by decide)).trans hh
  simp only [Bool.false_eq_true, if_true, if_false]
  rw [Dev.readmitGo_eq hmode (htri ▸ hn) (htri ▸ hp) hhalt (by rw [Dev.voters_congr hlst]; exact hv) ((hlst _).trans hl)]
  generalize hx : ((d.wr Reg.TRD_READMIT_STATUS 0 tr).setTri tr { d.tri tr with readmit := some lane.val, phase := .readmit, testing := [lane.val], passed := [] }) = e
  have hest : e.stReq = [] := by rw [← hx]; exact hst
  have hstatus : e.rd Reg.TRD_READMIT_STATUS tr = 0 := by rw [← hx]; exact Dev.rd_wr_self d Reg.TRD_READMIT_STATUS 0 tr 0 (by decide)
  have hetri : e.tri tr = { d.tri tr with readmit := some lane.val, phase := .readmit, testing := [lane.val], passed := [] } := by rw [← hx]; exact Dev.tri_setTri_self _ _ _
  have hcalm : ((e.setLst tr lane 3).emit (.status req 0)).stReq = [] := hest
  refine ⟨?_, ?_, ?_, ?_⟩
  · rw [settle_rd_clear _ _ hcalm _ _ _ (Field.has_of tr.isLt (by decide)) (by decide), Dev.rd_emit,
      Dev.Writes.setLst (l := [Reg.TRD_LANE_STAT_STATE]) tr.isLt (by simp) e h1 h3 3 _ _ _ (Field.has_of tr.isLt (by decide)) (by decide), hstatus]
  · rw [(Dev.writes_settle _ _ hcalm).lst (by decide) tr.isLt]
    exact (Dev.lst_setLst e tr h1 h3 3 lane).trans (if_pos rfl)
  · rw [settle_tri _ _ hcalm]
    exact congrArg Triad.readmit hetri
  · rw [settle_tri _ _ hcalm]
    exact congrArg Triad.testing hetri

/-- What a command written to a word that keeps nothing starts from: the device before it, to every register and triad. -/
structure Dev.Starts (s d : Dev) : Prop where
  writes : Dev.Writes [] s d
  trd : d.trd = s.trd
  stReq : d.stReq = []
  mode : d.mode = s.mode

theorem Dev.starts_storeWord (t : Nat) (s : Dev) {off : Nat} (v : Nat) (h : off < 0x10000000) (hi : ((fieldsAt off).all fun f => !f.stores off) = true) :
    s.Starts ((begin_ t s).storeWord true off v) :=
  ⟨(Dev.Writes.of_regs rfl).trans (Dev.Writes.storeInert _ _ _ h hi), Dev.storeWord_trd _ _ _ _, Dev.storeWord_stReq _ _ _ _, Dev.storeWord_mode _ _ _ _⟩

theorem Dev.Starts.rd {s d : Dev} (h : s.Starts d) (tr : Fin 4) (f : Field) (h1 : f.n1 = 4) (h2 : 0 < f.n2) (hc : f.clearOf [] = true) : d.rd f tr = s.rd f tr :=
  h.writes f tr 0 (Field.has_of (lt_of_lt_of_eq tr.isLt h1.symm) h2) hc

theorem Dev.Starts.tri {s d : Dev} (h : s.Starts d) (tr : Nat) : d.tri tr = s.tri tr := by
  unfold Dev.tri
  rw [h.trd]

/-! ### A re-admission that is cancelled or whose lane has passed -/

theorem Dev.readmitEnd_shown {d : Dev} {tr k st : Nat} (htr : tr < 4) (h : (d.tri tr).readmit = some k) (hst : st < 2 ^ Reg.TRD_READMIT_STATUS.width) :
    (d.readmitEnd tr st).rd Reg.TRD_READMIT_STATUS tr = st ∧ (d.readmitEnd tr st).rd Reg.TRD_STATUS_READMIT_PEND tr = 0 ∧ ((d.readmitEnd tr st).tri tr).readmit = none := by
  unfold Dev.readmitEnd
  dsimp only
  rw [h]
  dsimp only
  generalize hi : d.setTri tr { d.tri tr with readmit := none, phase := .idle, testing := [], passed := [] } = idle
  have htri : (idle.tri tr).readmit = none := by rw [← hi]; exact congrArg Triad.readmit (Dev.tri_setTri_self d tr _)
  have hback : ∀ p : Prop, [Decidable p] → ((if p then idle.setLst tr k 2 else idle).tri tr).readmit = none := fun p _ => by
    split
    · exact htri
    · exact htri
  refine ⟨?_, ?_, ?_⟩
  · rw [Dev.rd_raise_quiet _ _ _ _ _ _ _ (by decide), Dev.rd_wr_self _ Reg.TRD_READMIT_STATUS st tr 0 (by decide)]
    exact Nat.mod_eq_of_lt hst
  · rw [Dev.rd_raise_quiet _ _ _ _ _ _ _ (by decide), Dev.rd_wr_free _ _ (Field.has_of htr (by decide)) (Field.has_of htr (by decide)) (by decide)]
    exact Dev.rd_wr_self _ Reg.TRD_STATUS_READMIT_PEND 0 tr 0 (by decide)
  · unfold Dev.tri
    rw [Dev.raise_trd]
    exact hback _

theorem ends_trdReadmitCancel (s : State) (t req : Nat) (tr : Fin 4) {k : Nat} (hok : s.dev.Takes req) (hn : (s.dev.tri tr).readmit = some k) (hl : s.dev.lst tr k = 3) :
    Ends (.trdReadmitCancel t req tr) s fun d => d.rd Reg.TRD_READMIT_STATUS tr = 7 ∧ d.rd Reg.TRD_STATUS_READMIT_PEND tr = 0 ∧ d.lst tr k = 2 ∧ (d.tri tr).readmit = none := by
  refine ends_hostWrite (exec_trdReadmitCancel t req tr s) hok (plainOffset_tri tr).1 ?_
  rw [Dev.afterWrite_tri _ _ tr (r := 4) (by decide), Dev.trdWrite_readmit, if_neg (by decide), if_pos (by decide)]
  have h := Dev.starts_storeWord t s.dev (8#32).toNat (by omega) (inert_readmit tr)
  generalize (begin_ t s.dev).storeWord true (0x400004 + 0x100000 * tr) (8#32).toNat = d at h
  have hcalm : ((d.readmitEnd tr 7).emit (.status req 0)).stReq = [] := ((Dev.spares_readmitEnd d tr 7).2.1).trans h.stReq
  obtain ⟨hstatus, hpend, hnone⟩ := Dev.readmitEnd_shown (st := 7) tr.isLt ((congrArg Triad.readmit (h.tri tr)).trans hn) (by decide)
  refine ⟨?_, ?_, ?_, ?_⟩
  · rw [settle_rd_clear _ _ hcalm _ _ _ (Field.has_of tr.isLt (by decide)) (by decide), Dev.rd_emit, hstatus]
  · rw [settle_rd_clear _ _ hcalm _ _ _ (Field.has_of tr.isLt (by decide)) (by decide), Dev.rd_emit, hpend]
  · rw [(Dev.writes_settle _ _ hcalm).lst (by decide) tr.isLt]
    refine (Dev.lst_readmitEnd tr.isLt d 7 k).trans (if_pos ⟨(congrArg Triad.readmit (h.tri tr)).trans hn, ?_⟩)
    rw [h.writes.lst (by decide) tr.isLt, hl]
  · rw [settle_tri _ _ hcalm]
    exact hnone

/-- The device of a lane that has passed its test for a re-admission, before that shows. -/
def Dev.testPassed (d : Dev) (tr k : Nat) : Dev :=
  let x := { d.tri tr with testing := (d.tri tr).testing.filter (fun l => l != k), passed := (d.tri tr).passed ++ [k] }
  (d.setTri tr x).setTri tr { x with phase := .idle, passed := [] }

theorem Dev.selfTest_readmit {d : Dev} {tr k : Nat} (hp : (d.tri tr).phase = .readmit) (ht : (d.tri tr).testing = [k]) :
    d.selfTest tr k true = ((d.testPassed tr k).setLst tr k 2).set1 Reg.TRD_STATUS_READMIT_PEND tr := by
  unfold Dev.selfTest Dev.testPassed
  dsimp only
  rw [if_neg (by simp [ht])]
  simp only [hp, if_true]

theorem ends_readmitTested (s : State) (t : Nat) (tr : Fin 4) {k : Nat} (h1 : 1 ≤ k) (h3 : k ≤ 3) (hp : (s.dev.tri tr).phase = .readmit) (ht : (s.dev.tri tr).testing = [k]) :
    Ends (.laneSelftestDone t tr k true) s fun d => d.rd Reg.TRD_STATUS_READMIT_PEND tr = 1 ∧ d.lst tr k = 2 := by
  have he : (begin_ t s.dev).selfTest tr k true = (((begin_ t s.dev).testPassed tr k).setLst tr k 2).set1 Reg.TRD_STATUS_READMIT_PEND tr := Dev.selfTest_readmit hp ht
  refine ends_of (exec_laneSelftestDone t tr k true s) ?_
  rw [he]
  generalize hd : (begin_ t s.dev).testPassed tr k = e
  have hest : e.stReq = [] := by rw [← hd]; rfl
  have hcalm : ((e.setLst tr k 2).set1 Reg.TRD_STATUS_READMIT_PEND tr).stReq = [] := hest
  have hw : Dev.Writes [Reg.TRD_STATUS_READMIT_PEND] (e.setLst tr k 2) ((e.setLst tr k 2).set1 Reg.TRD_STATUS_READMIT_PEND tr) :=
    Dev.Writes.wrTri tr.isLt _ _ rfl (by decide) (by simp)
  refine ⟨?_, ?_⟩
  · rw [settle_rd_clear _ _ hcalm _ _ _ (Field.has_of tr.isLt (by decide)) (by decide)]
    exact Dev.rd_wr_self _ Reg.TRD_STATUS_READMIT_PEND 1 tr 0 (by decide)
  · rw [(Dev.writes_settle _ _ hcalm).lst (by decide) tr.isLt, hw.lst (by decide) tr.isLt]
    exact (Dev.lst_setLst e tr h1 h3 2 k).trans (if_pos rfl)

/-! ### The restart of a halted triad (R342) -/

theorem Dev.stReq_setTri (d : Dev) (tr : Nat) (x : Triad) (o : Out) : ((d.setTri tr x).emit o).stReq = d.stReq := rfl

theorem Dev.writes_setTri (d : Dev) (tr : Nat) (x : Triad) (o : Out) : Dev.Writes [] d ((d.setTri tr x).emit o) := Dev.Writes.of_regs rfl

theorem Dev.tri_emit (d : Dev) (o : Out) (tr : Nat) : (d.emit o).tri tr = d.tri tr := rfl

/-- What a triad is that begins its restart with all its lanes. -/
def Triad.restarting (x : Triad) : Triad := { x with phase := .restart, testing := [1, 2, 3], passed := [] }

theorem Dev.restartGo_halted {d : Dev} {tr : Nat} (hrun : d.triadsRun = true) (hm : d.tmode tr = 1) (hh : d.rd Reg.TRD_STATUS_HALTED tr = 1) (hp : (d.tri tr).phase = .idle) :
    d.restartGo tr 0 = ([1, 2, 3].foldl (fun (d : Dev) l => d.setLst tr l 3) (d.wr Reg.TRD_RESTART_STATUS 0 tr)).setTri tr (d.tri tr).restarting := by
  have hon : d.on Reg.TRD_STATUS_HALTED tr = true := by simp [Dev.on, hh]
  unfold Dev.restartGo Triad.restarting
  extract_lets x halted st shown
  have hhalted : halted = [1, 2, 3] := by
    simp only [halted]
    rw [if_pos hm, if_pos hon]
  have hst : st = 0 := by
    simp only [st, hhalted, hrun, hm, x, hp]
    rfl
  clear_value halted st
  subst hhalted hst
  exact if_neg (by simp)

theorem ends_trdRestart (s : State) (t req : Nat) (tr : Fin 4) (hok : s.dev.Takes req) (hrun : s.dev.triadsRun = true) (hm : s.dev.tmode tr = 1)
    (hh : s.dev.rd Reg.TRD_STATUS_HALTED tr = 1) (hp : (s.dev.tri tr).phase = .idle) :
    Ends (.trdRestart t req tr 0) s fun d => d.rd Reg.TRD_RESTART_STATUS tr = 0 ∧ d.lst tr 1 = 3 ∧ d.lst tr 2 = 3 ∧ d.lst tr 3 = 3 ∧ (d.tri tr).phase = .restart := by
  refine ends_hostWrite (exec_trdRestart t req tr 0 s) hok (plainOffset_tri tr).2.1 ?_
  rw [Dev.afterWrite_tri _ _ tr (r := 8) (by decide), Dev.trdWrite_restart _ _ _ (by decide)]
  have h := Dev.starts_storeWord t s.dev (BitVec.ofNat 32 ((0 : Fin 8) + 8)).toNat (by omega) (inert_restart tr)
  generalize (begin_ t s.dev).storeWord true (0x400008 + 0x100000 * tr) (BitVec.ofNat 32 ((0 : Fin 8) + 8)).toNat = d at h
  have hr : d.triadsRun = true := by
    unfold Dev.triadsRun
    rw [h.mode]
    exact hrun
  rw [show (BitVec.ofNat 32 ((0 : Fin 8) + 8)).toNat % 8 = 0 from rfl,
    Dev.restartGo_halted hr ((h.rd tr Reg.TRD_STATUS_MODE rfl (by decide) (by decide)).trans hm) ((h.rd tr _ rfl (by decide) (by decide)).trans hh)
      ((congrArg Triad.phase (h.tri tr)).trans hp)]
  generalize he : d.wr Reg.TRD_RESTART_STATUS 0 tr = e
  have hstatus : e.rd Reg.TRD_RESTART_STATUS tr = 0 := by rw [← he]; exact Dev.rd_wr_self d Reg.TRD_RESTART_STATUS 0 tr 0 (by decide)
  have hlanes : ∀ k ∈ [1, 2, 3], 1 ≤ k ∧ k ≤ 3 := by decide
  have hfold := Dev.lst_foldl_setLst (tr := tr) 3 [1, 2, 3] hlanes e
  have hw := Dev.writes_foldl_setLst tr.isLt 3 [1, 2, 3] hlanes e
  have hest : ([1, 2, 3].foldl (fun (d : Dev) l => d.setLst tr l 3) e).stReq = [] := by
    rw [(Dev.spares_foldl_setLst (tr := tr) 3 [1, 2, 3] e).2.1, ← he]
    exact h.stReq
  generalize [1, 2, 3].foldl (fun (d : Dev) l => d.setLst tr l 3) e = f at hfold hw hest
  generalize hx : (d.tri tr).restarting = x
  have hphase : x.phase = .restart := by rw [← hx]; rfl
  have hcalm : ((f.setTri tr x).emit (.status req 0)).stReq = [] := (Dev.stReq_setTri f tr x _).trans hest
  have hset := Dev.writes_setTri f tr x (.status req 0)
  have hlst : ∀ k ∈ [1, 2, 3], (settle s.dev ((f.setTri tr x).emit (.status req 0))).lst tr k = 3 := fun k hk => by
    rw [(Dev.writes_settle _ _ hcalm).lst (by decide) tr.isLt, hset.lst (by decide) tr.isLt, hfold, if_pos hk]
  refine ⟨?_, hlst 1 (by simp), hlst 2 (by simp), hlst 3 (by simp), ?_⟩
  · rw [settle_rd_clear _ _ hcalm _ _ _ (Field.has_of tr.isLt (by decide)) (by decide), hset _ _ _ (Field.has_of tr.isLt (by decide)) (by decide),
      hw _ _ _ (Field.has_of tr.isLt (by decide)) (by decide), hstatus]
  · rw [settle_tri _ _ hcalm, Dev.tri_emit, Dev.tri_setTri_self, hphase]

/-! ### The start of a triad (R344) -/

/-- What a triad is whose last lane in test has passed. -/
def Triad.tested (x : Triad) : Triad := { x with phase := .idle, testing := [], passed := [] }

/-- The device of a voted triad whose three lanes have passed, before that shows. -/
def Dev.votes (d : Dev) (tr : Nat) : Dev := [1, 2, 3].foldl (fun (d : Dev) l => d.setLst tr l 1) (d.setTri tr (d.tri tr).tested)

theorem Dev.testsDone_start {d : Dev} {tr : Nat} (hm : d.tmode tr = 1) (hp : (d.tri tr).passed = [1, 2, 3]) (hl : ∀ k ∈ [1, 2, 3], d.lst tr k = 3) :
    d.testsDone tr false = (((d.votes tr).clr Reg.TRD_STATUS_HALTED tr).kickAll tr).trdSync tr := by
  have hall : [1, 2, 3].filter (fun l => d.lst tr l == 3) = [1, 2, 3] := by
    rw [List.filter_eq_self]
    intro k hk
    rw [hl k hk]
    rfl
  have hmode : (d.setTri tr (d.tri tr).tested).tmode tr = 1 := hm
  unfold Triad.tested at hmode
  unfold Dev.testsDone Dev.votes Triad.tested
  dsimp only
  rw [hall, hp, if_pos hmode, if_pos (by decide)]
  rfl

/-- The device of a lane that has passed the last self-test of its triad. -/
def Dev.lastTested (d : Dev) (tr k : Nat) : Dev := d.setTri tr { d.tri tr with testing := (d.tri tr).testing.filter (fun l => l != k), passed := (d.tri tr).passed ++ [k] }

theorem Dev.lastTested_tri (d : Dev) (tr k : Nat) : ((d.lastTested tr k).tri tr).passed = (d.tri tr).passed ++ [k] :=
  congrArg Triad.passed (Dev.tri_setTri_self d tr _)

theorem Dev.selfTest_start {d : Dev} {tr k : Nat} (hp : (d.tri tr).phase = .start) (ht : (d.tri tr).testing = [k]) :
    d.selfTest tr k true = (d.lastTested tr k).testsDone tr false := by
  have hempty : ((d.tri tr).testing.filter (fun l => l != k)).isEmpty = true := by simp [ht]
  unfold Dev.selfTest Dev.lastTested
  dsimp only
  rw [if_neg (by simp [ht])]
  simp only [hp, hempty, if_true]

theorem ends_startTested (s : State) (t : Nat) (tr : Fin 4) (hm : s.dev.tmode tr = 1) (hp : (s.dev.tri tr).phase = .start) (ht : (s.dev.tri tr).testing = [3])
    (hd : (s.dev.tri tr).passed = [1, 2]) (hl : ∀ k ∈ [1, 2, 3], s.dev.lst tr k = 3) :
    Ends (.laneSelftestDone t tr 3 true) s fun d => d.voters tr = [1, 2, 3] ∧ d.rd Reg.TRD_STATUS_HALTED tr = 0 := by
  have hm' : (begin_ t s.dev).tmode tr = 1 := hm
  have hp' : ((begin_ t s.dev).tri tr).phase = .start := hp
  have ht' : ((begin_ t s.dev).tri tr).testing = [3] := ht
  have hd' : ((begin_ t s.dev).tri tr).passed = [1, 2] := hd
  have hl' : ∀ k ∈ [1, 2, 3], (begin_ t s.dev).lst tr k = 3 := hl
  have hst : (begin_ t s.dev).stReq = [] := rfl
  refine ends_of (exec_laneSelftestDone t tr 3 true s) ?_
  generalize begin_ t s.dev = d at hm' hp' ht' hd' hl' hst
  rw [Dev.selfTest_start hp' ht', Dev.testsDone_start (d := d.lastTested tr 3) hm' (by rw [Dev.lastTested_tri]; exact congrArg (· ++ [3]) hd') hl']
  generalize he : (d.lastTested tr 3).votes tr = e
  have hlst : ∀ k ∈ [1, 2, 3], e.lst tr k = 1 := fun k hk => by
    rw [← he]
    exact (Dev.lst_foldl_setLst 1 [1, 2, 3] (by decide) _ k).trans (if_pos hk)
  have hest : e.stReq = [] := by
    rw [← he]
    exact (Dev.spares_foldl_setLst (tr := tr) 1 [1, 2, 3] _).2.1.trans hst
  have hkick : Dev.Writes [] (e.clr Reg.TRD_STATUS_HALTED tr) ((e.clr Reg.TRD_STATUS_HALTED tr).kickAll tr) := Dev.Writes.of_regs rfl
  have hw : Dev.Writes [Reg.TRD_STATUS_HALTED] e ((e.clr Reg.TRD_STATUS_HALTED tr).kickAll tr) :=
    (Dev.Writes.wrTri tr.isLt e 0 (f := Reg.TRD_STATUS_HALTED) rfl (by decide) (by simp)).trans (hkick.mono (by simp))
  have hcalm : (((e.clr Reg.TRD_STATUS_HALTED tr).kickAll tr).trdSync tr).stReq = [] := (Dev.spares_trdSync _ _).2.1.trans hest
  have hvote : ∀ k ∈ [1, 2, 3], (settle s.dev (((e.clr Reg.TRD_STATUS_HALTED tr).kickAll tr).trdSync tr)).lst tr k = 1 := fun k hk => by
    rw [(Dev.writes_settle _ _ hcalm).lst (by decide) tr.isLt, Dev.lst_trdSync tr.isLt, hw.lst (by decide) tr.isLt, hlst k hk]
  refine ⟨?_, ?_⟩
  · unfold Dev.voters
    rw [List.filter_eq_self]
    intro k hk
    rw [hvote k hk]
    rfl
  · rw [settle_rd_clear _ _ hcalm _ _ _ (Field.has_of tr.isLt (by decide)) (by decide), Dev.writes_trdSync tr.isLt _ _ _ _ (Field.has_of tr.isLt (by decide)) (by decide),
      hkick _ _ _ (Field.has_of tr.isLt (by decide)) (by decide)]
    exact Dev.rd_wr_self e Reg.TRD_STATUS_HALTED 0 tr 0 (by decide)

/-! ### The obligation -/

/-- Settles O45, by the command that moves each kind of self-test on. -/
theorem lanesStartRejoinAndRestart : Obligations.LanesStartRejoinAndRestart := fun s t req tr lane _ hok =>
  ⟨fun hm hn hp hh hv _ hl => ends_trdReadmit s t req tr lane hok hm hn hp hh hv hl,
    fun h1 h3 hp ht => ends_readmitTested s t tr h1 h3 hp ht,
    fun _ _ hn hl => ends_trdReadmitCancel s t req tr hok hn hl,
    fun hrun hm hh hp => ends_trdRestart s t req tr hok hrun hm hh hp,
    fun hm hp ht hd h1 h2 h3 => ends_startTested s t tr hm hp ht hd (by simp [h1, h2, h3])⟩

end Sys2Proof.Machine
end

section
/-!
PROOFS. Proofs/Debugger.lean: the debug port, which halts a lane, reads it and resumes it (R348, R349).
-/
namespace Sys2Proof.Machine

/-! ### The port (R348) -/

/-- The device with DBG_EN high. -/
def Dev.dbgEnabled (d : Dev) : Dev := { d.wr Reg.GLB_STATUS_DBG_EN (b2n true) with supply := { d.supply with dbgEn := true } }

/-- The device whose debug port is heard. -/
def Dev.dbgOpen (d : Dev) (tr : Nat) : Dev :=
  if d.on Reg.GLB_STATUS_DBG_EN then d.dbgEnabled else d.dbgEnabled.raise Ev.TRD_DEBUG_PORT (trdInst tr 0) 0

theorem Dev.dbgPort_open {d : Dev} (tr : Nat) (h : d.mode = .dark ∨ d.rl.sealed = false) : d.dbgPort tr true = (d.dbgOpen tr, true) := by
  have heq : d.dbgPort tr true = if d.dbgEnabled.mode != .dark && d.dbgEnabled.rl.sealed then
      ((d.dbgEnabled.set1 Reg.TRD_ERR_DEBUG_REFUSED tr).raise Ev.TRD_DEBUG_REFUSED (trdInst tr 0) 0, false) else (d.dbgOpen tr, true) := rfl
  have hno : ¬ (d.dbgEnabled.mode != .dark && d.dbgEnabled.rl.sealed) = true := by
    change ¬ (d.mode != .dark && d.rl.sealed) = true
    obtain h | h := h <;> simp [h]
  rw [heq, if_neg hno]

theorem Dev.writes_dbgOpen (d : Dev) (tr : Nat) : Dev.Writes [Reg.GLB_STATUS_DBG_EN] d (d.dbgOpen tr) := by
  have hw : Dev.Writes [Reg.GLB_STATUS_DBG_EN] d d.dbgEnabled := (Dev.Writes.wr d _ (by decide) (by simp)).trans (Dev.Writes.of_regs rfl)
  unfold Dev.dbgOpen
  split
  · exact hw
  · exact hw.trans (Dev.Writes.raise _ _ _ _ _)

theorem Dev.dbgOpen_keeps (d : Dev) (tr : Nat) : (d.dbgOpen tr).trd = d.trd ∧ (d.dbgOpen tr).stReq = d.stReq ∧ (d.dbgOpen tr).out = d.out := by
  unfold Dev.dbgOpen
  split
  · exact ⟨rfl, rfl, rfl⟩
  · exact ⟨Dev.raise_trd _ _ _ _, (Dev.spares_raise _ _ _ _ (by decide)).2.1, Dev.raise_out _ _ _ _⟩

/-! ### The halt of a lane (R349) -/

/-- The device of a lane in the debug halt, before what hangs on it is given up. -/
def Dev.laneHeld (d : Dev) (tr lane : Nat) : Dev := (d.setLst tr lane 5).wr Reg.TRD_LANE_STAT_CAUSE 6 tr (lane - 1)

/-- What the end of a debug halt shows and tells. -/
def Dev.debugShown (d : Dev) (tr lane pc : Nat) : Dev :=
  ((((d.set1 Reg.GLB_STATUS_DEBUG).set1 Reg.TRD_STATUS_TAINT tr).trdSync tr).note 1 tr lane pc).raise Ev.TRD_DEBUG_HALT (trdInst tr lane) pc

theorem Dev.debugHalt_eq {d : Dev} {tr lane : Nat} (h : d.lst tr lane = 1 ∨ d.lst tr lane = 2 ∨ d.lst tr lane = 6) :
    ∃ (e : Dev) (votes last : Bool) (unit pc : Nat), (unit = lane ∨ unit = 0) ∧ e.stReq = d.stReq ∧
      d.debugHalt tr lane =
        (if last then (if votes then (e.laneHeld tr lane).bump Reg.TRD_LANE_STAT_EXCL 1 tr (lane - 1) else e.laneHeld tr lane).lockStop (unitReq tr unit)
          else (if votes then (e.laneHeld tr lane).bump Reg.TRD_LANE_STAT_EXCL 1 tr (lane - 1) else e.laneHeld tr lane)).debugShown tr lane pc := by
  have hno : ¬ (d.lst tr lane ≠ 1 ∧ d.lst tr lane ≠ 2 ∧ d.lst tr lane ≠ 6) := by omega
  unfold Dev.debugHalt
  extract_lets st pc ended unit last dropped
  rw [if_neg hno]
  refine ⟨dropped, st = 1, last, unit, pc, ?_, ?_, ?_⟩
  · simp only [unit]
    split
    · exact .inl rfl
    · exact .inr rfl
  · have hd : ended.stReq = d.stReq := (Dev.spares_readmitEnd d tr 7).2.1
    simp only [dropped]
    split
    · exact ((Dev.spares_dropWait _ _ _).2.1).trans hd
    · exact hd
  · simp only [decide_eq_true_eq]
    rfl

theorem Dev.stReq_debugShown (d : Dev) (tr lane pc : Nat) : (d.debugShown tr lane pc).stReq = d.stReq := by
  unfold Dev.debugShown
  exact (Dev.spares_raise _ _ _ _ (by decide)).2.1.trans ((Dev.spares_note _ _ _ _ _).2.1.trans (Dev.spares_trdSync _ _).2.1)

section
variable {tr : Nat} (htr : tr < 4)
include htr

theorem Dev.debugShown_shows (d : Dev) (lane pc : Nat) :
    (d.debugShown tr lane pc).rd Reg.TRD_STATUS_TAINT tr = 1 ∧ (d.debugShown tr lane pc).rd Reg.GLB_STATUS_DEBUG = 1 := by
  generalize hs : (d.set1 Reg.GLB_STATUS_DEBUG).set1 Reg.TRD_STATUS_TAINT tr = shown
  have htaint : shown.rd Reg.TRD_STATUS_TAINT tr = 1 := by rw [← hs]; exact Dev.rd_wr_self _ Reg.TRD_STATUS_TAINT 1 tr 0 (by decide)
  have hdebug : shown.rd Reg.GLB_STATUS_DEBUG = 1 := by
    rw [← hs]
    exact (Dev.rd_wr_free _ _ (Field.has_of htr (by decide)) (by decide) (by decide)).trans (Dev.rd_wr_self _ Reg.GLB_STATUS_DEBUG 1 0 0 (by decide))
  have hw : Dev.Writes syncFields shown (d.debugShown tr lane pc) := by
    rw [← hs]
    exact ((Dev.writes_trdSync htr _).trans (Dev.writes_note _ _ _ _ _ _)).trans (Dev.Writes.raise _ _ _ _ _)
  rw [hw _ _ _ (Field.has_of htr (by decide)) (by decide), hw _ _ _ (by decide) (by decide)]
  exact ⟨htaint, hdebug⟩

theorem Dev.writes_debugShown (d : Dev) (lane pc : Nat) : Dev.Writes (Reg.GLB_STATUS_DEBUG :: Reg.TRD_STATUS_TAINT :: syncFields) d (d.debugShown tr lane pc) := by
  refine ((Dev.Writes.trans ?_ ((Dev.writes_trdSync htr _).mono (by simp [syncFields]))).trans (Dev.writes_note _ _ _ _ _ _)).trans (Dev.Writes.raise _ _ _ _ _)
  exact (Dev.Writes.wr d 1 (by decide) (by simp)).trans (Dev.Writes.wrTri htr _ 1 rfl (by decide) (by simp))

/-- What a halt of a lane for the debugger shows, and which fields it touches besides. -/
theorem Dev.debugHalt_shows {d : Dev} {lane : Nat} (h1 : 1 ≤ lane) (h3 : lane ≤ 3) (h : d.lst tr lane = 1 ∨ d.lst tr lane = 2 ∨ d.lst tr lane = 6) :
    (d.debugHalt tr lane).stReq = d.stReq ∧ (d.debugHalt tr lane).lst tr lane = 5 ∧ (d.debugHalt tr lane).rd Reg.TRD_LANE_STAT_CAUSE tr (lane - 1) = 6 ∧
      (d.debugHalt tr lane).rd Reg.TRD_STATUS_TAINT tr = 1 ∧ (d.debugHalt tr lane).rd Reg.GLB_STATUS_DEBUG = 1 := by
  obtain ⟨e, votes, last, unit, pc, hu, hst, heq⟩ := Dev.debugHalt_eq h
  have hl : lane - 1 < 3 := by omega
  have hunit : unit < 4 := by omega
  generalize hv : (if votes then (e.laneHeld tr lane).bump Reg.TRD_LANE_STAT_EXCL 1 tr (lane - 1) else e.laneHeld tr lane) = counted at heq
  have hcount : Dev.Writes [Reg.TRD_LANE_STAT_EXCL] (e.laneHeld tr lane) counted ∧ counted.stReq = e.stReq := by
    rw [← hv]
    split
    · exact ⟨Dev.Writes.wr _ _ (Field.has_of htr hl) (by simp), rfl⟩
    · exact ⟨Dev.Writes.refl _ _, rfl⟩
  generalize hf : (if last then counted.lockStop (unitReq tr unit) else counted) = freed at heq
  have hfree : Dev.Writes lockFields counted freed ∧ freed.stReq = counted.stReq := by
    rw [← hf]
    split
    · exact ⟨Dev.writes_lockStop htr _ hunit, (Dev.spares_lockStop _ _).2.1⟩
    · exact ⟨Dev.Writes.refl _ _, rfl⟩
  have hlst : (e.laneHeld tr lane).lst tr lane = 5 := by
    have hw : Dev.Writes [Reg.TRD_LANE_STAT_CAUSE] (e.setLst tr lane 5) (e.laneHeld tr lane) := Dev.Writes.wr _ _ (Field.has_of htr hl) (by simp)
    rw [hw.lst (by decide) htr, Dev.lst_setLst e tr h1 h3, if_pos rfl]
  have hcause : (e.laneHeld tr lane).rd Reg.TRD_LANE_STAT_CAUSE tr (lane - 1) = 6 := Dev.rd_wr_self _ Reg.TRD_LANE_STAT_CAUSE 6 _ _ (by decide)
  have hshown := Dev.writes_debugShown htr freed lane pc
  rw [heq]
  refine ⟨?_, ?_, ?_, Dev.debugShown_shows htr _ _ _⟩
  · rw [Dev.stReq_debugShown, hfree.2, hcount.2, hst]
  · rw [hshown.lst (by decide) htr, hfree.1.lst (by decide) htr, hcount.1.lst (by decide) htr, hlst]
  · rw [hshown _ _ _ (Field.has_of htr hl) (by decide), hfree.1 _ _ _ (Field.has_of htr hl) (by decide), hcount.1 _ _ _ (Field.has_of htr hl) (by decide), hcause]

end

theorem ends_debugHalt {s : State} (t : Nat) (tr : Fin 4) {lane : Nat} (hp : s.dev.mode = .dark ∨ s.dev.rl.sealed = false) (h1 : 1 ≤ lane) (h3 : lane ≤ 3)
    (h : s.dev.lst tr lane = 1 ∨ s.dev.lst tr lane = 2 ∨ s.dev.lst tr lane = 6) :
    Ends (.debugHalt t tr lane true) s fun d => d.lst tr lane = 5 ∧ d.rd Reg.TRD_LANE_STAT_CAUSE tr (lane - 1) = 6 ∧ d.rd Reg.TRD_STATUS_TAINT tr = 1 ∧ d.rd Reg.GLB_STATUS_DEBUG = 1 := by
  have hport : (begin_ t s.dev).dbgPort tr true = ((begin_ t s.dev).dbgOpen tr, true) := Dev.dbgPort_open tr hp
  have hopen := Dev.writes_dbgOpen (begin_ t s.dev) tr
  obtain ⟨-, hcalm, -⟩ := Dev.dbgOpen_keeps (begin_ t s.dev) tr
  have hlst : ((begin_ t s.dev).dbgOpen tr).lst tr lane = s.dev.lst tr lane := hopen.lst (by decide) tr.isLt lane
  obtain ⟨hst, hlane, hcause, htaint, hdebug⟩ := Dev.debugHalt_shows tr.isLt h1 h3 (by rw [hlst]; exact h)
  refine ends_of (exec_debugHalt t tr lane true s) ?_
  rw [hport]
  dsimp only
  rw [if_pos rfl]
  generalize ((begin_ t s.dev).dbgOpen tr).debugHalt tr lane = d at *
  have hd : d.stReq = [] := hst.trans hcalm
  have hl : lane - 1 < 3 := by omega
  refine ⟨?_, ?_, ?_, ?_⟩
  · rw [(Dev.writes_settle _ _ hd).lst (by decide) tr.isLt, hlane]
  · rw [settle_rd_clear _ _ hd _ _ _ (Field.has_of tr.isLt hl) (by decide), hcause]
  · rw [settle_rd_clear _ _ hd _ _ _ (Field.has_of tr.isLt (by decide)) (by decide), htaint]
  · rw [settle_rd_clear _ _ hd _ _ _ (by decide) (by decide), hdebug]

/-! ### The resumption of a lane (R349) -/

/-- The lane that leaves the debug halt, stepping over the breakpoint it stands at. -/
def Lane.resumed (x : Lane) : Lane := { x with step := false, skip := true, core := { x.core with wait := none } }

theorem Dev.debugResume_voted {d : Dev} {tr lane : Nat} (hl : d.lst tr lane = 5) (hm : d.tmode tr = 1) (hv : d.voters tr ≠ []) :
    d.debugResume tr lane false = ((d.setLane tr lane (d.lane tr lane).resumed).setLst tr lane 6).trdSync tr := by
  unfold Dev.debugResume
  rw [if_neg (by omega)]
  dsimp only
  generalize he : d.setLane tr lane { d.lane tr lane with step := false, skip := true, core := { (d.lane tr lane).core with wait := none } } = e
  have hmode : e.tmode tr = 1 := by rw [← he]; exact hm
  have hvote : e.voters tr ≠ [] := by rw [← he]; exact hv
  rw [hmode, if_neg (by decide), if_neg (by simp [hvote]), ← he]
  rfl

theorem ends_debugResume {s : State} (t : Nat) (tr : Fin 4) {lane : Nat} (hp : s.dev.mode = .dark ∨ s.dev.rl.sealed = false)
    (hl : s.dev.lst tr lane = 5) (hm : s.dev.tmode tr = 1) (hv : s.dev.voters tr ≠ []) :
    Ends (.debugResume t tr lane true) s fun d => d.lst tr lane = 6 ∧ d.voters tr = s.dev.voters tr := by
  obtain ⟨h1, h3⟩ := Dev.lst_bounds hl
  have hport : (begin_ t s.dev).dbgPort tr true = ((begin_ t s.dev).dbgOpen tr, true) := Dev.dbgPort_open tr hp
  have hopen := Dev.writes_dbgOpen (begin_ t s.dev) tr
  obtain ⟨-, hcalm, -⟩ := Dev.dbgOpen_keeps (begin_ t s.dev) tr
  have hlst : ∀ k, ((begin_ t s.dev).dbgOpen tr).lst tr k = s.dev.lst tr k := hopen.lst (by decide) tr.isLt
  have hmode : ((begin_ t s.dev).dbgOpen tr).tmode tr = 1 := (hopen Reg.TRD_STATUS_MODE tr 0 (Field.has_of tr.isLt (by decide)) (by decide)).trans hm
  refine ends_of (exec_debugResume t tr lane true s) ?_
  rw [hport]
  dsimp only
  rw [if_pos rfl]
  generalize (begin_ t s.dev).dbgOpen tr = d at *
  rw [Dev.debugResume_voted ((hlst lane).trans hl) hmode (by rw [Dev.voters_congr hlst]; exact hv)]
  have hback : ∀ k, (d.setLane tr lane (d.lane tr lane).resumed).lst tr k = s.dev.lst tr k := fun k =>
    ((Dev.Writes.of_regs (l := []) rfl).lst (by decide) tr.isLt k).trans (hlst k)
  have hst : ((d.setLane tr lane (d.lane tr lane).resumed).setLst tr lane 6).stReq = [] := hcalm
  have hset := Dev.lst_setLst (d.setLane tr lane (d.lane tr lane).resumed) tr h1 h3 6
  generalize (d.setLane tr lane (d.lane tr lane).resumed).setLst tr lane 6 = e at hst hset
  have hd : (e.trdSync tr).stReq = [] := (Dev.spares_trdSync _ _).2.1.trans hst
  have hend : ∀ k, (settle s.dev (e.trdSync tr)).lst tr k = if k = lane then 6 else s.dev.lst tr k := fun k => by
    rw [(Dev.writes_settle _ _ hd).lst (by decide) tr.isLt, Dev.lst_trdSync tr.isLt, hset, hback]
  refine ⟨(hend lane).trans (if_pos rfl), ?_⟩
  unfold Dev.voters
  refine List.filter_congr fun k _ => ?_
  rw [hend]
  split
  case isTrue hk => rw [hk, hl]; rfl
  case isFalse => rfl

/-! ### What the debugger reads -/

theorem ends_debugRead {s : State} (t : Nat) (tr : Fin 4) {lane r : Nat} (v : Word) (hp : s.dev.mode = .dark ∨ s.dev.rl.sealed = false)
    (hl : s.dev.lst tr lane = 5) (h1 : 1 ≤ r) (h32 : r < 32) :
    Ends (.debugCommand t tr lane 6 r v true) s fun d => d.out = [.jtag ((s.dev.lane tr lane).core.rd r).toNat] ∧ d.trd = s.dev.trd := by
  obtain ⟨hl1, hl3⟩ := Dev.lst_bounds hl
  have hport : (begin_ t s.dev).dbgPort tr true = ((begin_ t s.dev).dbgOpen tr, true) := Dev.dbgPort_open tr hp
  have hlst : ((begin_ t s.dev).dbgOpen tr).lst tr lane = 5 := ((Dev.writes_dbgOpen (begin_ t s.dev) tr).lst (by decide) tr.isLt lane).trans hl
  obtain ⟨htrd, hst, hout⟩ := Dev.dbgOpen_keeps (begin_ t s.dev) tr
  refine ends_of (exec_debugCommand t tr lane 6 r v true s) ?_
  rw [hport]
  dsimp only
  rw [if_pos rfl]
  generalize (begin_ t s.dev).dbgOpen tr = d at *
  have hlane : d.lane tr lane = s.dev.lane tr lane := by
    unfold Dev.lane Dev.tri
    rw [htrd]
    rfl
  have hop : d.dbgOp tr lane 6 r v = d.emit (.jtag ((s.dev.lane tr lane).core.rd r).toNat) := by
    have hmod : r % 32 = r := Nat.mod_eq_of_lt h32
    have hbounds : ¬ (lane < 1 ∨ 3 < lane) := by omega
    have hr : ¬ r = 0 := by omega
    unfold Dev.dbgOp Core.rd
    simp only [hbounds, hlst, hlane, hmod, hr, if_false, decide_true, Bool.true_or, if_true]
  have hcalm : (d.emit (.jtag ((s.dev.lane tr lane).core.rd r).toNat)).stReq = [] := hst
  rw [hop, settle_out _ _ hcalm, settle_trd _ _ hcalm]
  refine ⟨?_, htrd⟩
  exact congrArg (· ++ _) hout

/-- Settles O47, by the command of the debugger. -/
theorem debugHaltsAndResumes : Obligations.DebugHaltsAndResumes := fun _ t tr _ _ v hp h1 h3 =>
  ⟨ends_debugHalt t tr hp h1 h3, ends_debugResume t tr hp, ends_debugRead t tr v hp⟩

end Sys2Proof.Machine
end

section
/-!
PROOFS. Proofs/QueueStore.lean: what storing the outcome of an operation on a queue leaves of the other queues: raising an event reaches the queues it is routed to, and no other.
-/
namespace Sys2Proof.Machine

/-! ### Queues that no event is routed to -/

theorem Dev.NoEvents.of_reel {d e : Dev} {k : Nat} (h : d.NoEvents k) (hr : e.reel = d.reel) : e.NoEvents k := fun ev => by
  have hq : e.evQueues ev = d.evQueues ev := by
    unfold Dev.evQueues
    rw [hr]
  rw [hq]
  exact h ev

theorem Dev.NoEvents.keeps {d e : Dev} {k : Nat} (h : d.NoEvents k) (he : d.EvKeeps e) : e.NoEvents k := h.of_reel he.reel

/-- A raiser that leaves a queue to which no event is routed as it is. -/
def Raiser.Apart (again : Raiser) (k : Nat) : Prop :=
  ∀ (d : Dev) e realm ts inst data, d.NoEvents k → (again d e realm ts inst data).qf.qs.find k = d.qf.qs.find k

theorem Dev.setQueue_qs (d : Dev) (qid : Nat) (r : QRes) : (d.setQueue qid r).qf = { d.qf with qs := d.qf.qs.ins qid r.q } := by
  have hstep : ∀ (x : Dev) (c : Prop) [Decidable c] (f : Field) (n : Nat), (if c then x else x.bump f n).qf = x.qf := fun x c _ f n => by
    split
    · rfl
    · rfl
  unfold Dev.setQueue
  dsimp only
  rw [hstep, hstep, hstep]

section
variable {again : Raiser} {k : Nat} (h : again.Apart k)
include h

theorem Dev.find_logEvent (ts : Nat) (d : Dev) (r : BbRec) (hn : d.NoEvents k) : (Dev.logEvent again ts d r).qf.qs.find k = d.qf.qs.find k := by
  have hput : (d.logPut r).1.qf = d.qf := by
    unfold Dev.logPut
    split
    · rfl
    · rfl
  unfold Dev.logEvent
  dsimp only
  split
  · rw [h _ _ _ _ _ _ (hn.keeps (Dev.evKeeps_logPut _ _)), hput]
  · rw [hput]

theorem Dev.find_evToBox (ts : Nat) (e : Ev) (ev : Item × Item) (d : Dev) (hn : d.NoEvents k) : (Dev.evToBox again ts e ev d).qf.qs.find k = d.qf.qs.find k := by
  unfold Dev.evToBox
  split
  case isFalse => rfl
  case isTrue =>
    split
    case h_1 d' hd =>
      have hq : d'.qf = d.qf := by
        unfold Dev.bbPut at hd
        split at hd
        · cases hd
        · cases hd
          rfl
      split
      · rw [Dev.find_logEvent h _ _ _ (hn.keeps (Dev.evKeeps_bbPut _ _ _ _ _ hd)), hq]
      · rw [hq]
    case h_2 =>
      dsimp only
      split
      · rfl
      · exact h _ _ _ _ _ _ (hn.of_reel rfl)

variable (hk : again.Keeps)
include hk

theorem Dev.find_notes (ts qid : Nat) (ns : List QNote) (d : Dev) (hn : d.NoEvents k) :
    (ns.foldl (Dev.noteQueue again ts qid) d).qf.qs.find k = d.qf.qs.find k := by
  induction ns generalizing d with
  | nil => rfl
  | cons n ns ih =>
    have hone : (Dev.noteQueue again ts qid d n).qf.qs.find k = d.qf.qs.find k := by
      cases n
      · exact h _ _ _ _ _ _ hn
      · exact h _ _ _ _ _ _ hn
    have hkeep : d.EvKeeps (Dev.noteQueue again ts qid d n) := by
      cases n
      · exact hk _ _ _ _ _ _
      · exact hk _ _ _ _ _ _
    rw [List.foldl_cons, ih _ (hn.keeps hkeep), hone]

theorem Dev.find_evToQueue (ts : Nat) (ev : Item × Item) (d : Dev) {qid : Nat} (hq : k ≠ qid) (hn : d.NoEvents k) :
    (Dev.evToQueue again ts ev d qid).qf.qs.find k = d.qf.qs.find k := by
  unfold Dev.evToQueue
  split
  case h_1 => rfl
  case h_2 q _ =>
    dsimp only
    rw [Dev.find_notes h hk _ _ _ _ (hn.keeps (Dev.evKeeps_setQueue _ _ _)), Dev.setQueue_qs]
    exact Tbl.find_ins_ne _ _ hq

theorem Dev.find_evStore (e : Ev) (realm : Bool) (ts seq inst data : Nat) (d : Dev) (hn : d.NoEvents k) :
    (Dev.evStore again e realm ts seq inst data d).qf.qs.find k = d.qf.qs.find k := by
  have hfold : ∀ (ev : Item × Item) (qs : List Nat) (x : Dev), x.NoEvents k → k ∉ qs → (qs.foldl (Dev.evToQueue again ts ev) x).qf.qs.find k = x.qf.qs.find k := by
    intro ev qs
    induction qs with
    | nil => exact fun _ _ _ => rfl
    | cons a qs ih =>
      intro x hx ha
      rw [List.mem_cons, not_or] at ha
      rw [List.foldl_cons, ih _ (hx.keeps (Dev.evKeeps_evToQueue hk _ _ _ _)) ha.2, Dev.find_evToQueue h hk _ _ _ ha.1 hx]
  have hf : ∀ x : Dev, (Dev.evFatal e x).qf = x.qf := fun x => by unfold Dev.evFatal; split <;> rfl
  have hc : ∀ x : Dev, (Dev.evCount e x).qf = x.qf := fun x => by unfold Dev.evCount; split <;> rfl
  have ht : ∀ x : Dev, (Dev.evToTag e inst data x).qf = x.qf := fun x => by unfold Dev.evToTag; split <;> rfl
  unfold Dev.evStore
  rw [hf, hc, ht, Dev.find_evToBox h _ _ _ _ (hn.keeps (Dev.evKeeps_foldl _ (fun x q => Dev.evKeeps_evToQueue hk _ _ x q) _ _)), hfold _ _ _ hn (hn e)]

end

theorem Dev.apart_raiseF (fuel k : Nat) : Raiser.Apart (Dev.raiseF fuel) k := by
  induction fuel with
  | zero => exact fun _ _ _ _ _ _ _ => rfl
  | succ fuel ih =>
    intro d e realm ts inst data hn
    have hs : (d.takeSeq e.id).NoEvents k := hn.of_reel rfl
    unfold Dev.raiseF
    dsimp only
    split
    · rfl
    · split
      · exact Dev.find_evStore ih (Dev.evKeeps_raiseF fuel) _ _ _ _ _ _ _ hs
      · exact Dev.find_logEvent ih _ _ _ (hs.of_reel rfl)

theorem Dev.find_raise (d : Dev) (e : Ev) (inst data : Nat) {k : Nat} (hn : d.NoEvents k) : (d.raise e inst data).qf.qs.find k = d.qf.qs.find k :=
  Dev.apart_raiseF _ _ _ _ _ _ _ _ hn

/-! ### The outcome of an operation on a queue -/

theorem Dev.find_applyRes (d : Dev) (qid : Nat) (r : QRes) {k : Nat} (hn : d.NoEvents k) : (d.applyRes qid r).qf.qs.find k = if k = qid then some r.q else d.qf.qs.find k := by
  have hfold : ∀ (ns : List QNote) (x : Dev), x.NoEvents k →
      (ns.foldl (fun (d : Dev) n => match n with
        | .watermark l c => d.raise Ev.QF_WATERMARK qid (l % 2 ^ 21 + c % 256 * 2 ^ 32)
        | .loss k m => d.raise Ev.QF_LOSS qid (k + min m (2 ^ 24 - 1) * 2 ^ 8)) x).qf.qs.find k = x.qf.qs.find k := by
    intro ns
    induction ns with
    | nil => exact fun _ _ => rfl
    | cons n ns ih =>
      intro x hx
      rw [List.foldl_cons]
      cases n
      · exact (ih _ (hx.keeps (Dev.evKeeps_raise _ _ _ _))).trans (Dev.find_raise _ _ _ _ hx)
      · exact (ih _ (hx.keeps (Dev.evKeeps_raise _ _ _ _))).trans (Dev.find_raise _ _ _ _ hx)
  refine (hfold _ _ (hn.keeps (Dev.evKeeps_setQueue d qid r))).trans ?_
  rw [Dev.setQueue_qs]
  exact Tbl.find_ins _ _ _ _

theorem Dev.spares_queues (d : Dev) (qid : Nat) (r : QRes) : d.SparesQueues (d.applyRes qid r) qid := fun _ hne hn =>
  (Dev.find_applyRes d qid r hn).trans (if_neg hne)

end Sys2Proof.Machine
end

section
/-!
PROOFS. Proofs/QueueOps.lean: the operations on one queue that has room, or that holds what the operation needs (R208 to R224).
-/
namespace Sys2Proof.Machine

/-! ### Pushed values -/

theorem noHead_head (v : Item) : (noHead v).getLsbD 62 = false := by simp [noHead]

theorem withHead_head (v : Item) : (withHead v).getLsbD 62 = true := by simp [withHead]

theorem noHead_single (v : Item) : noHead v &&& 0x3FFFFFFFFFFFFFFF#64 = v &&& 0x3FFFFFFFFFFFFFFF#64 := by
  unfold noHead
  rw [BitVec.and_assoc]
  rfl

theorem storedItem_noHead (v : Item) : storedItem (noHead v) = storedItem v := by
  unfold storedItem noHead
  rw [BitVec.and_assoc]
  rfl

theorem headItem_withHead (v : Item) (err : Bool) (n : Nat) : headItem (withHead v) err n = headItem v err n := by
  have h : withHead v &&& 0x0FFFFFFFFFFF0000#64 = v &&& 0x0FFFFFFFFFFF0000#64 := by
    unfold withHead
    rw [BitVec.and_comm, BitVec.and_or_distrib_left, BitVec.and_comm _ v]
    exact BitVec.or_zero
  unfold headItem
  rw [h]

theorem itemErr_withHead (v : Item) : itemErr (withHead v) = itemErr v := by simp [itemErr, withHead]

/-! ### Writing -/

/-- What a write of slots leaves of a queue: all but its peak and its watermark. -/
theorem Queue.wrote_keeps (q : Queue) (n : Nat) :
    (q.wrote n).1.units = q.units ∧ (q.wrote n).1.openp = q.openp ∧ (q.wrote n).1.reading = q.reading ∧ (q.wrote n).1.lost = q.lost ∧ (q.wrote n).1.qd = q.qd := by
  unfold Queue.wrote
  dsimp only
  split
  · exact ⟨rfl, rfl, rfl, rfl, rfl⟩
  · exact ⟨rfl, rfl, rfl, rfl, rfl⟩

theorem Queue.makeRoom_fits {q : Queue} {n : Nat} (h : q.level + n ≤ q.qd.depth) : q.makeRoom n = (q, true, 0) := if_pos h

/-- The outcome of an operation that succeeds: its status, and what the queue holds after it. -/
def QRes.Leaves (r : QRes) (units : List QUnit) (openp : Option OpenPkt) (reading : Option Reading) : Prop :=
  r.st = 0 ∧ r.q.units = units ∧ r.q.openp = openp ∧ r.q.reading = reading

theorem QRes.leaves_wrote (q : Queue) (n : Nat) (ns : List QNote) (k : Nat) : QRes.Leaves { q := (q.wrote n).1, notes := ns ++ (q.wrote n).2, overs := k } q.units q.openp q.reading := by
  obtain ⟨hu, ho, hr, -, -⟩ := q.wrote_keeps n
  exact ⟨rfl, hu, ho, hr⟩

theorem Queue.leaves_putUnit {q : Queue} {u : QUnit} (h : q.level + u.size ≤ q.qd.depth) : (q.putUnit u).Leaves (q.units ++ [u]) q.openp q.reading := by
  unfold Queue.putUnit
  rw [Queue.makeRoom_fits h]
  exact QRes.leaves_wrote { q with units := q.units ++ [u] } u.size [] 0

/-- The open packet of a requester that has lost nothing of it. -/
def openBy (req : Nat) (items : List Item) : OpenPkt := { req := req, items := items, discard := false, gone := false }

theorem Queue.leaves_openPkt {q : Queue} (req : Nat) (h : q.level + 1 ≤ q.qd.depth) : (q.openPkt req).Leaves q.units (some (openBy req [])) q.reading := by
  unfold Queue.openPkt
  rw [Queue.makeRoom_fits h]
  exact QRes.leaves_wrote { q with openp := some (openBy req []) } 1 [] 0

theorem Queue.leaves_append {q : Queue} {req : Nat} {items : List Item} (v : Item) (h : q.level + 1 ≤ q.qd.depth) (hl : items.length < 65535) :
    (q.append (openBy req items) v).Leaves q.units (some (openBy req (items ++ [storedItem v]))) q.reading := by
  have hno : ¬ (q.oversizeNow = true ∨ (openBy req items).items.length ≥ 65535) := by
    have hlen : (openBy req items).items.length = items.length := rfl
    unfold Queue.oversizeNow
    rw [hlen]
    simp
    omega
  unfold Queue.append
  rw [if_neg (by simp [openBy]), if_neg (by simp [openBy]), if_neg hno, Queue.makeRoom_fits h]
  exact QRes.leaves_wrote { q with openp := some (openBy req (items ++ [storedItem v])) } 1 [] 0

theorem Queue.leaves_closePkt (q : Queue) (req : Nat) (items : List Item) (v : Item) (err : Bool) :
    (q.closePkt (openBy req items) v err).Leaves (q.units ++ [.pkt (headItem v (itemErr v || err) items.length) (markLast items)]) none q.reading := by
  unfold Queue.closePkt
  rw [if_neg (by simp [openBy])]
  refine ⟨rfl, ?_, rfl, rfl⟩
  simp [openBy]

theorem Queue.leaves_push_single {q : Queue} (req : Nat) (v : Item) (ho : q.openp = none) (hv : v.getLsbD 62 = false) (h : q.level + 1 ≤ q.qd.depth) :
    (q.push req v).Leaves (q.units ++ [.one ((v &&& 0x3FFFFFFFFFFFFFFF#64) ||| 0x8000000000000000#64)]) none q.reading := by
  unfold Queue.push
  rw [ho]
  dsimp only
  rw [hv, if_neg (by decide), ← ho]
  exact Queue.leaves_putUnit (u := .one _) h

theorem Queue.leaves_push_open {q : Queue} (req : Nat) (v : Item) (ho : q.openp = none) (hv : v.getLsbD 62 = true) (h : q.level + 1 ≤ q.qd.depth) :
    (q.push req v).Leaves q.units (some (openBy req [])) q.reading := by
  unfold Queue.push
  rw [ho]
  dsimp only
  rw [hv, if_pos rfl]
  exact Queue.leaves_openPkt req h

theorem Queue.leaves_push_append {q : Queue} {req : Nat} {items : List Item} (v : Item) (ho : q.openp = some (openBy req items)) (hv : v.getLsbD 62 = false)
    (h : q.level + 1 ≤ q.qd.depth) (hl : items.length < 65535) : (q.push req v).Leaves q.units (some (openBy req (items ++ [storedItem v]))) q.reading := by
  unfold Queue.push
  rw [ho]
  dsimp only
  rw [hv, if_neg (by decide)]
  exact Queue.leaves_append v h hl

theorem Queue.leaves_push_close {q : Queue} {req : Nat} {items : List Item} (v : Item) (ho : q.openp = some (openBy req items)) (hv : v.getLsbD 62 = true) :
    (q.push req v).Leaves (q.units ++ [.pkt (headItem v (itemErr v) items.length) (markLast items)]) none q.reading := by
  unfold Queue.push
  rw [ho]
  dsimp only
  rw [hv, if_pos rfl]
  have h := Queue.leaves_closePkt q req items v false
  rw [Bool.or_false] at h
  exact h

theorem Queue.leaves_abort {q : Queue} {req : Nat} {items : List Item} (ho : q.openp = some (openBy req items)) :
    (q.abort req).Leaves (q.units ++ [.pkt (headItem 0#64 true items.length) (markLast items)]) none q.reading := by
  unfold Queue.abort
  rw [ho]
  dsimp only
  rw [if_pos (show (openBy req items).req = req from rfl)]
  have h := Queue.leaves_closePkt q req items 0#64 true
  rw [Bool.or_true] at h
  exact h

/-! ### Reading -/

theorem Queue.popItem_reading {q : Queue} {req : Nat} {it : Item} {l : List Item} (h : q.reading = some { req := req, rest := it :: l }) :
    q.popItem req = { q := { q with reading := if l = [] then none else some { req := req, rest := l } }, item := some it } := by
  unfold Queue.popItem
  rw [h]
  cases l <;> simp

theorem Queue.popItem_unit {q : Queue} {u : QUnit} {us : List QUnit} {it : Item} {l : List Item} (req : Nat) (hr : q.reading = none) (hu : q.units = u :: us) (hi : u.items = it :: l) :
    q.popItem req = { q := { q with units := us, reading := if l = [] then none else some { req := req, rest := l } }, item := some it } := by
  unfold Queue.popItem
  rw [hr, hu]
  dsimp only
  rw [hi]
  cases l <;> simp [hr]

end Sys2Proof.Machine
end

section
/-!
PROOFS. Proofs/QueueHosts.lean: the queue operations of a requester that is refused nothing (R207 to R224), as commands of a host.
-/
namespace Sys2Proof.Machine

/-! ### A requester that may use a queue -/

section
variable {d : Dev} {req qid : Nat} {pop : Bool} {q : Queue} (h : d.MayUse req qid pop q)
include h

theorem Dev.MayUse.found : d.qf.qs.find qid = some q := h.1

theorem Dev.MayUse.allowed : d.qfDenied req qid pop = 0 := h.2.1

theorem Dev.MayUse.kept : req ∉ q.lost := h.2.2.1

theorem Dev.MayUse.noEvents : d.NoEvents qid := h.2.2.2

theorem Dev.MayUse.takeLost : d.takeLost req qid = (d, false) := by
  unfold Dev.takeLost
  rw [h.found]
  exact if_neg (by simp [h.kept])

end

theorem Dev.qfPush_done {d : Dev} {req qid : Nat} {q : Queue} (h : d.MayUse req qid false q) (v : Item) (blk : Bool) (ho : ∀ p, q.openp = some p → p.req = req)
    (hst : (q.push req v).st = 0) : d.qfPush req qid v blk = ((d.applyRes qid (q.push req v)).usedProd qid, some 0) := by
  unfold Dev.qfPush
  simp only [h.allowed, ne_eq, not_true_eq_false, if_false, h.takeLost, h.found, Bool.false_and, Bool.false_eq_true, hst]
  cases hp : q.openp with
  | none => rfl
  | some p => simp [ho p hp]

theorem Dev.qfPop_done {d : Dev} {req qid : Nat} {q q' : Queue} {it : Item} (h : d.MayUse req qid true q) (blk : Bool) (hr : ∀ r, q.reading = some r → r.req = req)
    (hread : q.readable = true) (hp : q.popItem req = { q := q', item := some it }) :
    d.qfPop req qid blk = ((d.applyRes qid { q := q', item := some it }).usedCons qid, .got 0 it) := by
  unfold Dev.qfPop
  simp only [h.allowed, ne_eq, not_true_eq_false, if_false, h.takeLost, h.found, Bool.false_eq_true, hread, Bool.not_true, hp]
  cases hq : q.reading with
  | none => rfl
  | some r => simp [hr r hq]

theorem Dev.qfPop_empty {d : Dev} {req qid : Nat} {q : Queue} (h : d.MayUse req qid true q) (blk : Bool) (hr : q.reading = none) (hu : q.units = []) :
    d.qfPop req qid blk = (d, if qid < 0x10000 then .wait else .got 0 (notValid false)) := by
  have hread : q.readable = false := by simp [Queue.readable, hr, hu]
  unfold Dev.qfPop
  simp only [h.allowed, ne_eq, not_true_eq_false, if_false, h.takeLost, h.found, Bool.false_eq_true, hr, hread, Bool.not_false, if_true]

theorem Dev.qfCmd_done {d : Dev} {req qid op : Nat} {q : Queue} (h : d.MayUse req qid (op != 2) q) {r : QRes} (hop : op = 1 ∨ op = 2 ∨ op = 4 ∧ isProgram q.qd.consumer = true)
    (hr : (if op = 1 then q.cut req else if op = 2 then q.abort req else q.flush req) = r) : d.qfCmd req qid op = (d.applyRes qid r, r.st) := by
  have hrange : ¬ (op < 1 ∨ 4 < op) := by omega
  have h3 : ¬ op = 3 := by omega
  have hprog : ¬ (decide (op = 4) && !isProgram q.qd.consumer) = true := by
    obtain ho | ho | ⟨-, hc⟩ := hop
    · simp [ho]
    · simp [ho]
    · simp [hc]
  have hlost : ¬ q.lost.contains req = true := by simp [h.kept]
  unfold Dev.qfCmd
  rw [if_neg hrange]
  dsimp only
  rw [if_neg h3, h.allowed, if_neg (by decide), h.found]
  dsimp only
  rw [if_neg h3, if_neg hlost, if_neg hprog, hr]

theorem Dev.qfCmd_release {d : Dev} {req qid : Nat} {q : Queue} (h : d.qf.qs.find qid = some q) : d.qfCmd req qid 3 = (d.applyRes qid (q.release req), 0) := by
  unfold Dev.qfCmd
  simp [h]

/-! ### What such a command leaves -/

theorem Dev.rq_setRq (d : Dev) (req : Nat) (r : Req) : (d.setRq req r).rq req = r := Tbl.get_set_self _ _ _ _

theorem settle_rq (o d : Dev) (h : d.stReq = []) (req : Nat) : (settle o d).rq req = d.rq req := by
  unfold Dev.rq
  rw [settle_reqs _ _ h]

/-- A command that stores the outcome of an operation on a queue leaves every other queue that no event is routed to. -/
theorem settle_queue {s : State} {t qid : Nat} {e : Dev} {r : QRes} {units : List QUnit} {openp : Option OpenPkt} {reading : Option Reading}
    (hn : s.dev.NoEvents qid) (hl : r.Leaves units openp reading) (hst : e.stReq = []) (hqs : e.qf.qs = ((begin_ t s.dev).applyRes qid r).qf.qs) :
    (settle s.dev e).Holds qid units openp reading ∧ s.dev.SparesQueues (settle s.dev e) qid := by
  have hfind : ∀ k, s.dev.NoEvents k → (settle s.dev e).qf.qs.find k = if k = qid then some r.q else s.dev.qf.qs.find k := fun k hk => by
    rw [settle_qf _ _ hst, hqs]
    exact Dev.find_applyRes (begin_ t s.dev) qid r (hk.of_reel rfl)
  obtain ⟨-, hu, ho, hr⟩ := hl
  exact ⟨⟨r.q, (hfind qid hn).trans (if_pos rfl), hu, ho, hr⟩, fun k hne hk => (hfind k hk).trans (if_neg hne)⟩

theorem ends_hostPush {c : Instr} {s : State} {t req qid : Nat} {q : Queue} {v : Item} {units : List QUnit} {openp : Option OpenPkt} {reading : Option Reading}
    (hc : exec c s = s.run t fun d => d.hostPush req qid v) (h : s.dev.MayUse req qid false q) (ho : ∀ p, q.openp = some p → p.req = req)
    (hl : (q.push req v).Leaves units openp reading) :
    Ends c s fun d => d.Holds qid units openp reading ∧ d.out = [.status req 0] ∧ s.dev.SparesQueues d qid := by
  have h' : (begin_ t s.dev).MayUse req qid false q := h
  refine ends_of hc ?_
  unfold Dev.hostPush
  rw [Dev.qfPush_done h' v false ho hl.1]
  dsimp only [Option.getD_some]
  have hst : ((((begin_ t s.dev).applyRes qid (q.push req v)).usedProd qid).qfResult req 1 qid 0 |>.emit (.status req 0)).stReq = [] :=
    (Dev.spares_applyRes (begin_ t s.dev) qid (q.push req v)).2.1
  have hout : ((begin_ t s.dev).applyRes qid (q.push req v)).out = [] := (Dev.evKeeps_applyRes (begin_ t s.dev) qid (q.push req v)).out
  obtain ⟨hholds, hspares⟩ := settle_queue (t := t) h.noEvents hl hst rfl
  refine ⟨hholds, ?_, hspares⟩
  rw [settle_out _ _ hst]
  exact congrArg (· ++ _) hout

theorem ends_hostCmd {c : Instr} {s : State} {t req qid op : Nat} {units : List QUnit} {openp : Option OpenPkt} {reading : Option Reading} {r : QRes}
    (hc : exec c s = s.run t fun d => d.hostCmd req qid op) (hn : s.dev.NoEvents qid) (hr : (begin_ t s.dev).qfCmd req qid op = ((begin_ t s.dev).applyRes qid r, 0))
    (hl : r.Leaves units openp reading) :
    Ends c s fun d => d.Holds qid units openp reading ∧ d.out = [.status req 0] ∧ s.dev.SparesQueues d qid := by
  refine ends_of hc ?_
  unfold Dev.hostCmd
  rw [hr]
  dsimp only
  have hst : (((begin_ t s.dev).applyRes qid r).qfResult req 3 qid 0 |>.emit (.status req 0)).stReq = [] := (Dev.spares_applyRes (begin_ t s.dev) qid r).2.1
  have hout : ((begin_ t s.dev).applyRes qid r).out = [] := (Dev.evKeeps_applyRes (begin_ t s.dev) qid r).out
  obtain ⟨hholds, hspares⟩ := settle_queue (t := t) hn hl hst rfl
  refine ⟨hholds, ?_, hspares⟩
  rw [settle_out _ _ hst]
  exact congrArg (· ++ _) hout

/-- A read that answers an item, which goes to the requester with its high word kept for it. -/
theorem ends_hostPop {c : Instr} {s : State} {t req qid : Nat} {f : Dev → Dev} {q q' : Queue} {it : Item} {units : List QUnit} {openp : Option OpenPkt} {reading : Option Reading}
    (hc : exec c s = s.run t f) (hf : f (begin_ t s.dev) = (begin_ t s.dev).hostPop req qid) (h : s.dev.MayUse req qid true q) (hr : ∀ r, q.reading = some r → r.req = req)
    (hread : q.readable = true) (hp : q.popItem req = { q := q', item := some it }) (hu : q'.units = units) (ho : q'.openp = openp) (hd : q'.reading = reading) :
    Ends c s fun d => d.Holds qid units openp reading ∧ d.out = [.item req qid it] ∧ (d.rq req).high = it.toNat / 2 ^ 32 ∧ (d.rq req).pop = none ∧ s.dev.SparesQueues d qid := by
  have h' : (begin_ t s.dev).MayUse req qid true q := h
  refine ends_of hc ?_
  rw [hf]
  unfold Dev.hostPop
  rw [Dev.qfPop_done h' false hr hread hp]
  dsimp only
  generalize he : (((begin_ t s.dev).applyRes qid { q := q', item := some it }).usedCons qid).qfResult req 2 qid 0 = e
  have hest : e.stReq = [] := by
    rw [← he]
    exact (Dev.spares_applyRes (begin_ t s.dev) qid _).2.1
  have hout : e.out = [] := by
    rw [← he]
    exact (Dev.evKeeps_applyRes (begin_ t s.dev) qid _).out
  have hqs : e.qf.qs = ((begin_ t s.dev).applyRes qid { q := q', item := some it }).qf.qs := by rw [← he]; rfl
  have hst : ((e.setRq req { e.rq req with high := it.toNat / 2 ^ 32, pop := none }).emit (.item req qid it)).stReq = [] := hest
  have hrq : (settle s.dev ((e.setRq req { e.rq req with high := it.toNat / 2 ^ 32, pop := none }).emit (.item req qid it))).rq req =
      { e.rq req with high := it.toNat / 2 ^ 32, pop := none } := by
    rw [settle_rq _ _ hst]
    exact Dev.rq_setRq e req _
  obtain ⟨hholds, hspares⟩ := settle_queue (t := t) (r := { q := q', item := some it }) h.noEvents ⟨rfl, hu, ho, hd⟩ hst hqs
  refine ⟨hholds, ?_, congrArg Req.high hrq, congrArg Req.pop hrq, hspares⟩
  rw [settle_out _ _ hst]
  exact congrArg (· ++ _) hout

end Sys2Proof.Machine
end

section
/-!
PROOFS. Proofs/HostQueues.lean: pushes, pops and queue commands of a host, as commands (R208, R210, R216 to R219, R224).
-/
namespace Sys2Proof.Machine

/-! ### Pushes -/

theorem ends_doorbellLow (s : State) (t req qid : Nat) (w : Word) :
    Ends (.doorbellLowWrite t req qid w) s fun d => (d.rq req).held = some w.toNat ∧ d.out = [.status req 0] ∧ d.qf = s.dev.qf := by
  refine ends_of (exec_doorbellLowWrite t req qid w s) ?_
  generalize hr : { (begin_ t s.dev).rq req with held := some w.toNat } = r
  have hst : (((begin_ t s.dev).setRq req r).emit (.status req 0)).stReq = [] := rfl
  have hrq : (((begin_ t s.dev).setRq req r).emit (.status req 0)).rq req = r := Dev.rq_setRq _ _ _
  refine ⟨?_, ?_, ?_⟩
  · rw [settle_rq _ _ hst, hrq, ← hr]
  · rw [settle_out _ _ hst]
    rfl
  · rw [settle_qf _ _ hst]
    rfl

theorem Queue.other_none {q : Queue} {req : Nat} (h : q.openp = none) : ∀ p, q.openp = some p → p.req = req := by simp [h]

theorem Queue.other_own {q : Queue} {req : Nat} {items : List Item} (h : q.openp = some (openBy req items)) : ∀ p, q.openp = some p → p.req = req := by
  simp only [h, Option.some.injEq, forall_eq']
  rfl

/-- Settles O26, by the outcome of each push on a queue with room. -/
theorem pushesStoreInOrder : Obligations.PushesStoreInOrder := by
  intro s t req qid v w q
  refine ⟨fun h => ⟨fun ho hroom => ⟨?_, ?_⟩, fun items ho => ⟨fun hroom hlen => ?_, ?_⟩⟩, ends_doorbellLow s t req qid w⟩
  · rw [← noHead_single]
    exact ends_hostPush (exec_qfPushSingle t req qid v s) h (Queue.other_none ho) (Queue.leaves_push_single req _ ho (noHead_head v) hroom)
  · exact ends_hostPush (exec_qfOpen t req qid v s) h (Queue.other_none ho) (Queue.leaves_push_open req _ ho (withHead_head v) hroom)
  · have hl := Queue.leaves_push_append (noHead v) ho (noHead_head v) hroom hlen
    rw [storedItem_noHead] at hl
    exact ends_hostPush (exec_qfAppend t req qid v s) h (Queue.other_own ho) hl
  · have hl := Queue.leaves_push_close (withHead v) ho (withHead_head v)
    rw [headItem_withHead, itemErr_withHead] at hl
    exact ends_hostPush (exec_qfClose t req qid v s) h (Queue.other_own ho) hl

/-! ### Pops -/

theorem Ends.imp {c : Instr} {s : State} {p p' : Dev → Prop} (h : Ends c s p) (hp : ∀ d, p d → p' d) : Ends c s p' := by
  obtain ⟨u, hu, hq, hd⟩ := h
  exact ⟨u, hu, hq, hp _ hd⟩

theorem Queue.reads_none {q : Queue} {req : Nat} (h : q.reading = none) : ∀ r, q.reading = some r → r.req = req := by simp [h]

theorem Queue.reads_own {q : Queue} {req : Nat} {rest : List Item} (h : q.reading = some { req := req, rest := rest }) : ∀ r, q.reading = some r → r.req = req := by
  simp [h]

theorem Queue.readable_reading {q : Queue} {r : Reading} (h : q.reading = some r) : q.readable = true := by simp [Queue.readable, h]

theorem Queue.readable_unit {q : Queue} {u : QUnit} {us : List QUnit} (h : q.units = u :: us) : q.readable = true := by simp [Queue.readable, h]

section
variable {s : State} {t req qid : Nat} {q : Queue} (h : s.dev.MayUse req qid true q)
include h

/-- The read of an item of the unit that the requester already reads. -/
theorem ends_qfPop_reading {it : Item} {l : List Item} (hr : q.reading = some { req := req, rest := it :: l }) :
    Ends (.qfPop t req qid) s fun d => d.Holds qid q.units q.openp (if l = [] then none else some { req := req, rest := l }) ∧ d.out = [.item req qid it] ∧ s.dev.SparesQueues d qid :=
  (ends_hostPop (exec_qfPop t req qid s) rfl h (Queue.reads_own hr) (Queue.readable_reading hr) (Queue.popItem_reading hr) rfl rfl rfl).imp
    fun _ ⟨hh, ho, _, _, hs⟩ => ⟨hh, ho, hs⟩

theorem ends_qfPop_packet {it a : Item} {l : List Item} {us : List QUnit} (hr : q.reading = none) (hu : q.units = .pkt it (a :: l) :: us) :
    Ends (.qfPop t req qid) s fun d => d.Holds qid us q.openp (some { req := req, rest := a :: l }) ∧ d.out = [.item req qid it] ∧ s.dev.SparesQueues d qid :=
  (ends_hostPop (exec_qfPop t req qid s) rfl h (Queue.reads_none hr) (Queue.readable_unit hu) (Queue.popItem_unit req hr hu rfl) rfl rfl rfl).imp
    fun _ ⟨hh, ho, _, _, hs⟩ => ⟨hh, ho, hs⟩

theorem ends_qfPop_one {it : Item} {us : List QUnit} (hr : q.reading = none) (hu : q.units = .one it :: us) :
    Ends (.qfPop t req qid) s fun d => d.Holds qid us q.openp none ∧ d.out = [.item req qid it] ∧ (d.rq req).high = it.toNat / 2 ^ 32 ∧ s.dev.SparesQueues d qid :=
  (ends_hostPop (exec_qfPop t req qid s) rfl h (Queue.reads_none hr) (Queue.readable_unit hu) (Queue.popItem_unit req hr hu rfl) rfl rfl rfl).imp
    fun _ ⟨hh, ho, hw, _, hs⟩ => ⟨hh, ho, hw, hs⟩

theorem ends_popWaitResume {it : Item} {us : List QUnit} {since : Nat} (hr : q.reading = none) (hu : q.units = .one it :: us) (hlane : isLane req = false)
    (hw : (s.dev.rq req).pop = some (qid, since)) :
    Ends (.popWaitResume t req qid) s fun d => d.Holds qid us q.openp none ∧ d.out = [.item req qid it] ∧ (d.rq req).pop = none ∧ s.dev.SparesQueues d qid := by
  have hw' : ((begin_ t s.dev).rq req).pop = some (qid, since) := hw
  have hf : (begin_ t s.dev).popResume req qid = (begin_ t s.dev).hostPop req qid := by
    unfold Dev.popResume Dev.hostResume
    simp [hlane, hw', h.found, Queue.readable_unit hu]
  exact (ends_hostPop (exec_popWaitResume t req qid s) hf h (Queue.reads_none hr) (Queue.readable_unit hu) (Queue.popItem_unit req hr hu rfl) rfl rfl rfl).imp
    fun _ ⟨hh, ho, _, hn, hs⟩ => ⟨hh, ho, hn, hs⟩

/-- The read of a near queue that is empty waits. -/
theorem ends_qfPop_near (hr : q.reading = none) (hu : q.units = []) (hq : qid < 0x10000) :
    Ends (.qfPop t req qid) s fun d => d.out = [] ∧ (d.rq req).pop = some (qid, s.dev.ownAt t) ∧ d.qf = s.dev.qf := by
  have h' : (begin_ t s.dev).MayUse req qid true q := h
  refine ends_of (exec_qfPop t req qid s) ?_
  unfold Dev.hostPop
  rw [Dev.qfPop_empty h' false hr hu, if_pos hq]
  dsimp only
  have hst : ((begin_ t s.dev).setRq req { (begin_ t s.dev).rq req with pop := some (qid, (begin_ t s.dev).own) }).stReq = [] := rfl
  refine ⟨?_, ?_, ?_⟩
  · rw [settle_out _ _ hst]
    rfl
  · rw [settle_rq _ _ hst, Dev.rq_setRq]
    rfl
  · rw [settle_qf _ _ hst]
    rfl

/-- The read of a far queue that is empty answers at once. -/
theorem ends_qfPop_far (hr : q.reading = none) (hu : q.units = []) (hq : 0x10000 ≤ qid) :
    Ends (.qfPop t req qid) s fun d => d.out = [.item req qid 0#64] ∧ d.qf = s.dev.qf := by
  have h' : (begin_ t s.dev).MayUse req qid true q := h
  refine ends_of (exec_qfPop t req qid s) ?_
  unfold Dev.hostPop
  rw [Dev.qfPop_empty h' false hr hu, if_neg (not_lt.2 hq)]
  dsimp only
  generalize he : ((begin_ t s.dev).qfResult req 2 qid 0).setRq req _ = e
  have hst : (e.emit (.item req qid (notValid false))).stReq = [] := by rw [← he]; rfl
  refine ⟨?_, ?_⟩
  · rw [settle_out _ _ hst, ← he]
    rfl
  · rw [settle_qf _ _ hst, ← he]
    rfl

end

theorem ends_doorbellHigh (s : State) (t req qid : Nat) :
    Ends (.doorbellHighRead t req qid) s fun d => d.out = [.half req qid (BitVec.ofNat 32 (s.dev.rq req).high)] ∧ d.qf = s.dev.qf := by
  refine ends_of (exec_doorbellHighRead t req qid s) ?_
  have hst : ((begin_ t s.dev).emit (.half req qid (BitVec.ofNat 32 ((begin_ t s.dev).rq req).high))).stReq = [] := rfl
  rw [settle_out _ _ hst, settle_qf _ _ hst]
  exact ⟨rfl, rfl⟩

theorem ends_hostPopTimeout {s : State} {t req qid since : Nat} (hw : (s.dev.rq req).pop = some (qid, since)) (hlane : isLane req = false) (hlate : since + 8000 ≤ s.dev.ownAt t) :
    Ends (.hostPopTimeout t req) s fun d => d.out = [.item req qid 1#64] ∧ (d.rq req).pop = none ∧ d.qf = s.dev.qf := by
  have hw' : ((begin_ t s.dev).rq req).pop = some (qid, since) := hw
  have hlate' : since + 8000 ≤ (begin_ t s.dev).own := hlate
  refine ends_of (exec_hostPopTimeout t req s) ?_
  unfold Dev.hostPopLimit Dev.hostTimeout
  simp only [hw', hlane, hlate', Bool.not_false, decide_true, Bool.and_self, if_true]
  generalize he : (begin_ t s.dev).qfResult req 2 qid 0 = e
  have hest : e.stReq = [] ∧ e.out = [] ∧ e.qf = s.dev.qf := by
    rw [← he]
    exact ⟨rfl, rfl, rfl⟩
  obtain ⟨hst, hout, hqf⟩ := hest
  generalize hr : { e.rq req with high := 0, pop := none } = r
  have hst' : ((e.setRq req r).emit (.item req qid (notValid true))).stReq = [] := hst
  have hrq : ((e.setRq req r).emit (.item req qid (notValid true))).rq req = r := Dev.rq_setRq _ _ _
  refine ⟨?_, ?_, ?_⟩
  · rw [settle_out _ _ hst']
    exact congrArg (· ++ _) hout
  · rw [settle_rq _ _ hst', hrq, ← hr]
  · rw [settle_qf _ _ hst']
    exact hqf

/-- Settles O27, by what the queue holds for the reader. -/
theorem popsReadInOrder : Obligations.PopsReadInOrder := by
  intro s t req qid q it a l us
  refine ⟨fun h => ⟨fun hr hu => ⟨ends_qfPop_one h hr hu, fun hlane ⟨_, hw⟩ => ends_popWaitResume h hr hu hlane hw⟩, ends_qfPop_packet h,
    fun b hr => ?_, fun hr => ?_, fun hr hu => ⟨ends_qfPop_near h hr hu, ends_qfPop_far h hr hu⟩⟩, ends_doorbellHigh s t req qid,
    fun _ hw hlane hlate => ends_hostPopTimeout hw hlane hlate⟩
  · exact ends_qfPop_reading h hr
  · exact ends_qfPop_reading h hr

/-! ### Commands on a queue -/

theorem Queue.leaves_cut_reading {q : Queue} {req : Nat} {rest : List Item} (hr : q.reading = some { req := req, rest := rest }) : (q.cut req).Leaves q.units q.openp none := by
  unfold Queue.cut
  rw [hr]
  dsimp only
  rw [if_pos rfl]
  exact ⟨rfl, rfl, rfl, rfl⟩

theorem Queue.leaves_cut_packet {q : Queue} {h : Item} {items : List Item} {us : List QUnit} (req : Nat) (hr : q.reading = none) (hu : q.units = .pkt h items :: us) :
    (q.cut req).Leaves us q.openp none := by
  unfold Queue.cut
  rw [hr, hu]
  exact ⟨rfl, rfl, rfl, rfl⟩

theorem Queue.leaves_flush {q : Queue} (req : Nat) (hr : q.reading = none) (ho : q.openp = none) : (q.flush req).Leaves [] none none := by
  unfold Queue.flush
  dsimp only
  rw [ho, hr]
  exact ⟨rfl, rfl, rfl, rfl⟩

theorem Queue.leaves_release_reading {q : Queue} {req : Nat} {rest : List Item} (hr : q.reading = some { req := req, rest := rest }) (ho : q.openp = none) :
    (q.release req).Leaves q.units none none := by
  unfold Queue.release
  simp only [hr, ho, if_true]
  exact ⟨rfl, rfl, rfl, rfl⟩

theorem Queue.leaves_release_open {q : Queue} {req : Nat} {items : List Item} (hr : q.reading = none) (ho : q.openp = some (openBy req items)) :
    (q.release req).Leaves (q.units ++ [.pkt (headItem 0#64 true items.length) (markLast items)]) none none := by
  have hown : (openBy req items).req = req := rfl
  unfold Queue.release
  simp only [hr, ho, hown, if_true]
  have h := Queue.leaves_closePkt { q with reading := none, openp := some (openBy req items), lost := q.lost.filter (fun x => x ≠ req) } req items 0#64 true
  rw [Bool.or_true] at h
  exact h

section
variable {s : State} {t req qid : Nat} {q : Queue}

theorem ends_qfCut {units : List QUnit} {openp : Option OpenPkt} {reading : Option Reading} (h : s.dev.MayUse req qid true q) (hl : (q.cut req).Leaves units openp reading) :
    Ends (.qfCut t req qid) s fun d => d.Holds qid units openp reading ∧ d.out = [.status req 0] ∧ s.dev.SparesQueues d qid :=
  ends_hostCmd (exec_qfCut t req qid s) h.noEvents ((Dev.qfCmd_done (d := begin_ t s.dev) (op := 1) h (.inl rfl) rfl).trans (by rw [if_pos rfl, hl.1])) hl

theorem ends_qfAbort {units : List QUnit} {openp : Option OpenPkt} {reading : Option Reading} (h : s.dev.MayUse req qid false q) (hl : (q.abort req).Leaves units openp reading) :
    Ends (.qfAbort t req qid) s fun d => d.Holds qid units openp reading ∧ d.out = [.status req 0] ∧ s.dev.SparesQueues d qid :=
  ends_hostCmd (exec_qfAbort t req qid s) h.noEvents ((Dev.qfCmd_done (d := begin_ t s.dev) (op := 2) h (.inr (.inl rfl)) rfl).trans (by
    rw [if_neg (by decide), if_pos rfl, hl.1])) hl

theorem ends_qfFlush {units : List QUnit} {openp : Option OpenPkt} {reading : Option Reading} (h : s.dev.MayUse req qid true q) (hc : isProgram q.qd.consumer = true)
    (hl : (q.flush req).Leaves units openp reading) :
    Ends (.qfFlush t req qid) s fun d => d.Holds qid units openp reading ∧ d.out = [.status req 0] ∧ s.dev.SparesQueues d qid :=
  ends_hostCmd (exec_qfFlush t req qid s) h.noEvents ((Dev.qfCmd_done (d := begin_ t s.dev) (op := 4) h (.inr (.inr ⟨rfl, hc⟩)) rfl).trans (by
    rw [if_neg (by decide), if_neg (by decide), hl.1])) hl

theorem ends_qfRelease {units : List QUnit} {openp : Option OpenPkt} {reading : Option Reading} (hf : s.dev.qf.qs.find qid = some q) (hn : s.dev.NoEvents qid)
    (hl : (q.release req).Leaves units openp reading) :
    Ends (.qfRelease t req qid) s fun d => d.Holds qid units openp reading ∧ d.out = [.status req 0] ∧ s.dev.SparesQueues d qid :=
  ends_hostCmd (exec_qfRelease t req qid s) hn (Dev.qfCmd_release (d := begin_ t s.dev) hf) hl

end

/-- Settles O28, by the outcome of each command on the queue. -/
theorem queueCommandsDiscardAndRelease : Obligations.QueueCommandsDiscardAndRelease := by
  intro s t req qid q h rest items us
  refine ⟨fun hm => ⟨fun hr => ends_qfCut hm (Queue.leaves_cut_reading hr), fun hr hu => ?_, fun hc hr ho => ends_qfFlush hm hc (Queue.leaves_flush req hr ho)⟩,
    fun hm ho => ends_qfAbort hm (Queue.leaves_abort ho),
    fun hf hn => ⟨fun hr ho => ends_qfRelease hf hn (Queue.leaves_release_reading hr ho), fun hr ho => ends_qfRelease hf hn (Queue.leaves_release_open hr ho)⟩⟩
  exact ends_qfCut hm (Queue.leaves_cut_packet req hr hu)

end Sys2Proof.Machine
end

section
/-!
PROOFS. Proofs/QueueCare.lean: locks that are reclaimed, writes that wait, stored bits that are lost, and the status registers of a queue (R212, R215, R220 to R223, R228, R229).
-/
namespace Sys2Proof.Machine

/-- A counter that counts saturates. -/
theorem Dev.rd_bump_self (d : Dev) (f : Field) (n i j : Nat) (hf : f.lo + f.width ≤ 32) : (d.bump f n i j).rd f i j = satAdd f.width (d.rd f i j) n := by
  have hpos : 0 < 2 ^ f.width := Nat.two_pow_pos _
  refine (Dev.rd_wr_self d f _ i j hf).trans (Nat.mod_eq_of_lt ?_)
  unfold satAdd
  omega

/-! ### Locks that are reclaimed (R222, R223) -/

/-- A reclaim shows and counts. -/
theorem Dev.reclaimed_shows (d : Dev) (qid side req n : Nat) :
    (d.reclaimed qid side req n).rd Reg.QF_ERR_RECLAIM = 1 ∧
      (d.reclaimed qid side req n).rd Reg.QF_CNT_RECLAIM_CNT = min (d.rd Reg.QF_CNT_RECLAIM_CNT + 1) (2 ^ Reg.QF_CNT_RECLAIM_CNT.width - 1) := by
  unfold Dev.reclaimed
  rw [Dev.rd_raise_quiet _ _ _ _ _ _ _ (by decide), Dev.rd_raise_quiet _ _ _ _ _ _ _ (by decide)]
  refine ⟨Dev.rd_wr_self _ Reg.QF_ERR_RECLAIM 1 0 0 (by decide), ?_⟩
  exact (Dev.rd_wr_free _ _ (by decide) (by decide) (by decide)).trans (Dev.rd_bump_self d Reg.QF_CNT_RECLAIM_CNT 1 0 0 (by decide))

theorem Dev.reclaimed_keeps (d : Dev) (qid side req n : Nat) :
    (d.reclaimed qid side req n).stReq = d.stReq ∧ ∀ k, d.NoEvents k → (d.reclaimed qid side req n).qf.qs.find k = d.qf.qs.find k := by
  unfold Dev.reclaimed
  exact ⟨(Dev.spares_raise _ _ _ _ (by decide)).2.1, fun k hk => Dev.find_raise _ _ _ _ (hk.of_reel rfl)⟩

/-- The command that reclaims a lock, once it has found it. -/
theorem ends_reclaim {c : Instr} {s : State} {t qid side r n : Nat} {f : Dev → Dev} {res : QRes} {units : List QUnit} {openp : Option OpenPkt} {reading : Option Reading}
    (hc : exec c s = s.run t f) (hf : f (begin_ t s.dev) = ((begin_ t s.dev).applyRes qid res).reclaimed qid side r n) (hn : s.dev.NoEvents qid)
    (hl : res.Leaves units openp reading) (hr : r ∈ res.q.lost) :
    Ends c s fun d => d.Holds qid units openp reading ∧ d.rd Reg.QF_ERR_RECLAIM = 1 ∧
      d.rd Reg.QF_CNT_RECLAIM_CNT = min (s.dev.rd Reg.QF_CNT_RECLAIM_CNT + 1) (2 ^ Reg.QF_CNT_RECLAIM_CNT.width - 1) ∧ ∃ q', d.qf.qs.find qid = some q' ∧ r ∈ q'.lost := by
  refine ends_of hc ?_
  rw [hf]
  have hcnt : ((begin_ t s.dev).applyRes qid res).rd Reg.QF_CNT_RECLAIM_CNT = s.dev.rd Reg.QF_CNT_RECLAIM_CNT :=
    Dev.rd_congr ((Dev.evKeeps_applyRes (begin_ t s.dev) qid res).2 _ (by decide))
  have hkeep := Dev.evKeeps_applyRes (begin_ t s.dev) qid res
  have hst : ((begin_ t s.dev).applyRes qid res).stReq = [] := (Dev.spares_applyRes (begin_ t s.dev) qid res).2.1
  have hfind : ((begin_ t s.dev).applyRes qid res).qf.qs.find qid = some res.q := (Dev.find_applyRes (begin_ t s.dev) qid res (hn.of_reel rfl)).trans (if_pos rfl)
  have hne : ((begin_ t s.dev).applyRes qid res).NoEvents qid := Dev.NoEvents.keeps (d := begin_ t s.dev) hn hkeep
  generalize (begin_ t s.dev).applyRes qid res = e at *
  obtain ⟨hcalm, hqs⟩ := e.reclaimed_keeps qid side r n
  obtain ⟨herr, hcount⟩ := e.reclaimed_shows qid side r n
  have hst' := hcalm.trans hst
  have hq : (settle s.dev (e.reclaimed qid side r n)).qf.qs.find qid = some res.q := by
    rw [settle_qf _ _ hst', hqs qid hne, hfind]
  obtain ⟨-, hu, ho, hd⟩ := hl
  refine ⟨⟨res.q, hq, hu, ho, hd⟩, ?_, ?_, res.q, hq, hr⟩
  · rw [settle_rd_clear _ _ hst' _ _ _ (by decide) (by decide), herr]
  · rw [settle_rd_clear _ _ hst' _ _ _ (by decide) (by decide), hcount, hcnt]

theorem ends_reclaimProducer {s : State} {t qid r : Nat} {q : Queue} {items : List Item} (hq : s.dev.qf.qs.find qid = some q) (hn : s.dev.NoEvents qid)
    (ho : q.openp = some (openBy r items)) (hpast : s.dev.qf.prodAt.get qid 0 + s.dev.rd Reg.QF_LOCK_TIMEOUT_TIMEOUT * 1000 ≤ s.dev.ownAt t)
    (hw : ∀ w, s.dev.qf.lanes.find r = some w → w.qid ≠ qid) :
    Ends (.lockReclaimProducer t qid) s fun d => d.Holds qid (q.units ++ [.pkt (headItem 0#64 true items.length) (markLast items)]) none q.reading ∧ d.rd Reg.QF_ERR_RECLAIM = 1 ∧
      d.rd Reg.QF_CNT_RECLAIM_CNT = min (s.dev.rd Reg.QF_CNT_RECLAIM_CNT + 1) (2 ^ Reg.QF_CNT_RECLAIM_CNT.width - 1) ∧ ∃ q', d.qf.qs.find qid = some q' ∧ r ∈ q'.lost := by
  have hl := Queue.leaves_closePkt q r items 0#64 true
  rw [Bool.or_true] at hl
  have hlost : (q.closePkt (openBy r items) 0#64 true).q.lost = q.lost := by
    unfold Queue.closePkt
    split
    · rfl
    · rfl
  generalize hclosed : q.closePkt (openBy r items) 0#64 true = res at hl hlost
  have hrec : q.reclaimProducer = some ({ res with q := { res.q with lost := r :: res.q.lost.filter (fun x => x ≠ r) } }, items.length) := by
    unfold Queue.reclaimProducer
    rw [ho, ← hclosed]
    rfl
  have hq' : (begin_ t s.dev).qf.qs.find qid = some q := hq
  have hlate : ¬ (begin_ t s.dev).own < (begin_ t s.dev).qf.prodAt.get qid 0 + (begin_ t s.dev).lockNs := not_lt.2 hpast
  have hf : (begin_ t s.dev).reclaimProd qid =
      ((begin_ t s.dev).applyRes qid { res with q := { res.q with lost := r :: res.q.lost.filter (fun x => x ≠ r) } }).reclaimed qid 0 r items.length := by
    have hreq : (openBy r items).req = r := rfl
    unfold Dev.reclaimProd
    simp only [hq', ho, hlate, hreq, hrec, decide_false, Bool.or_false]
    cases hlane : (begin_ t s.dev).qf.lanes.find r with
    | none => rfl
    | some w => simp [hw w hlane]
  exact ends_reclaim (exec_lockReclaimProducer t qid s) hf hn hl (List.mem_cons_self)

theorem ends_reclaimConsumer {s : State} {t qid r : Nat} {q : Queue} {rest : List Item} (hq : s.dev.qf.qs.find qid = some q) (hn : s.dev.NoEvents qid)
    (hr : q.reading = some { req := r, rest := rest }) (hpast : s.dev.qf.consAt.get qid 0 + s.dev.rd Reg.QF_LOCK_TIMEOUT_TIMEOUT * 1000 ≤ s.dev.ownAt t) :
    Ends (.lockReclaimConsumer t qid) s fun d => d.Holds qid q.units q.openp none ∧ d.rd Reg.QF_ERR_RECLAIM = 1 ∧
      d.rd Reg.QF_CNT_RECLAIM_CNT = min (s.dev.rd Reg.QF_CNT_RECLAIM_CNT + 1) (2 ^ Reg.QF_CNT_RECLAIM_CNT.width - 1) ∧ ∃ q', d.qf.qs.find qid = some q' ∧ r ∈ q'.lost := by
  have hq' : (begin_ t s.dev).qf.qs.find qid = some q := hq
  have hlate : ¬ (begin_ t s.dev).own < (begin_ t s.dev).qf.consAt.get qid 0 + (begin_ t s.dev).lockNs := not_lt.2 hpast
  have hf : (begin_ t s.dev).reclaimCons qid =
      ((begin_ t s.dev).applyRes qid { q := { q with reading := none, lost := r :: q.lost.filter (fun x => x ≠ r) }, cuts := rest.length }).reclaimed qid 1 r rest.length := by
    unfold Dev.reclaimCons Queue.reclaimConsumer
    simp only [hq', hr, hlate, if_false]
  exact ends_reclaim (exec_lockReclaimConsumer t qid s) hf hn ⟨rfl, rfl, rfl, rfl⟩ (List.mem_cons_self)

/-- Settles O29, by the lock that is reclaimed. -/
theorem locksAreReclaimed : Obligations.LocksAreReclaimed := fun _ _ _ _ _ _ _ hq hn =>
  ⟨fun ho hpast hw => ends_reclaimProducer hq hn ho hpast hw, fun hr hpast => ends_reclaimConsumer hq hn hr hpast⟩

/-! ### Status registers (R215, R220, R221) -/

theorem ends_qstatRead {s : State} {t req qid : Nat} {q : Queue} (hq : s.dev.qf.qs.find qid = some q) :
    Ends (.qstatRead t req qid) s fun d => d.out = [.word req (0x1000000 + 8 * qid) (BitVec.ofNat 32 q.qstat)] ∧ (d.rq req).qwm = some (qid, q.qwm) ∧ d.qf = s.dev.qf := by
  have hq' : (begin_ t s.dev).qf.qs.find qid = some q := hq
  refine ends_of (exec_qstatRead t req qid s) ?_
  generalize hr : { (begin_ t s.dev).rq req with qwm := some (qid, q.qwm) } = r
  have hread : (begin_ t s.dev).qstatRead req qid = ((begin_ t s.dev).setRq req r, q.qstat) := by
    unfold Dev.qstatRead
    rw [hq', ← hr]
  rw [hread]
  have hst : (((begin_ t s.dev).setRq req r).emit (.word req (0x1000000 + 8 * qid) (BitVec.ofNat 32 q.qstat))).stReq = [] := rfl
  have hrq : (((begin_ t s.dev).setRq req r).emit (.word req (0x1000000 + 8 * qid) (BitVec.ofNat 32 q.qstat))).rq req = r := Dev.rq_setRq _ _ _
  refine ⟨?_, ?_, ?_⟩
  · rw [settle_out _ _ hst]
    rfl
  · rw [settle_rq _ _ hst, hrq, ← hr]
  · rw [settle_qf _ _ hst]
    rfl

/-- What a write of the status of a queue clears. -/
def Queue.cleared (q : Queue) (wm loss : Bool) : Queue :=
  let q := if wm then { q with wmEvt := false, cross := 0, peak := min q.level 65535 } else q
  if loss then { q with loss := false } else q

theorem Dev.qstatWrite_taken {d : Dev} {req qid : Nat} {q : Queue} (wm loss : Bool) (hq : d.qf.qs.find qid = some q) (hp : q.qd.prot = false ∨ d.reqProt req = true) :
    d.qstatWrite req qid wm loss = ({ d with qf := { d.qf with qs := d.qf.qs.ins qid (q.cleared wm loss) } }, 0) := by
  have hno : ¬ (q.qd.prot && !d.reqProt req && (wm || loss)) = true := by
    obtain h | h := hp <;> simp [h]
  unfold Dev.qstatWrite
  rw [hq]
  dsimp only
  rw [if_neg hno]
  rfl

theorem ends_qstatClear {c : Instr} {s : State} {t req qid : Nat} {q : Queue} {wm loss : Bool}
    (hc : exec c s = s.run t fun d => (d.qstatWrite req qid wm loss).1.emit (.status req (d.qstatWrite req qid wm loss).2)) (hq : s.dev.qf.qs.find qid = some q)
    (hp : q.qd.prot = false ∨ s.dev.reqProt req = true) :
    Ends c s fun d => d.qf.qs.find qid = some (q.cleared wm loss) ∧ d.out = [.status req 0] ∧ s.dev.SparesQueues d qid := by
  refine ends_of hc ?_
  rw [Dev.qstatWrite_taken (d := begin_ t s.dev) wm loss hq hp]
  generalize he : { begin_ t s.dev with qf := { (begin_ t s.dev).qf with qs := (begin_ t s.dev).qf.qs.ins qid (q.cleared wm loss) } } = e
  have hst : (e.emit (.status req 0)).stReq = [] := by rw [← he]; rfl
  have hfind : ∀ k, (settle s.dev (e.emit (.status req 0))).qf.qs.find k = if k = qid then some (q.cleared wm loss) else s.dev.qf.qs.find k := fun k => by
    rw [settle_qf _ _ hst, ← he]
    exact Tbl.find_ins _ _ _ _
  refine ⟨(hfind qid).trans (if_pos rfl), ?_, fun k hne _ => (hfind k).trans (if_neg hne)⟩
  rw [settle_out _ _ hst, ← he]
  rfl

/-- Settles O31, by the read and the two clears of the word. -/
theorem queueStatusRegisters : Obligations.QueueStatusRegisters := fun s t req qid _ hq =>
  ⟨ends_qstatRead hq, fun hp => ⟨ends_qstatClear (exec_qstatWmClear t req qid s) hq hp, ends_qstatClear (exec_qstatLossClear t req qid s) hq hp⟩⟩

end Sys2Proof.Machine
end

section
/-!
PROOFS. Proofs/QueueWaits.lean: writes that wait under BLOCK, the warning of a long wait, and stored bits that cannot be corrected (R212, R225, R228, R229).
-/
namespace Sys2Proof.Machine

theorem Dev.EvKeeps.waits {d e : Dev} (h : d.EvKeeps e) : e.qf.waits = d.qf.waits := by rw [h.1]

theorem Dev.EvKeeps.lanes {d e : Dev} (h : d.EvKeeps e) : e.qf.lanes = d.qf.lanes := by rw [h.1]

/-! ### The oldest engine write that waits (R212, R225) -/

theorem ends_blockWaitResume {s : State} {t qid : Nat} {q : Queue} {w : QWait} {it : Item} (hq : s.dev.qf.qs.find qid = some q) (hn : s.dev.NoEvents qid)
    (hw : s.dev.qf.waits = [w]) (hqs : w.qids = [qid]) (hu : w.unit = .one it) (hl : s.dev.qf.lanes = []) (hroom : q.level + 1 ≤ q.qd.depth) :
    Ends (.blockWaitResume t qid) s fun d => d.Holds qid (q.units ++ [.one it]) q.openp q.reading ∧ d.qf.waits = [] := by
  have hq' : (begin_ t s.dev).qf.qs.find qid = some q := hq
  have hw' : (begin_ t s.dev).qf.waits = [w] := hw
  generalize he : { begin_ t s.dev with qf := { (begin_ t s.dev).qf with waits := [] } } = e
  have hstored : (begin_ t s.dev).engineResume qid = e.applyRes qid (q.putUnit (.one it)) := by
    have hroom' : (begin_ t s.dev).allRoom [qid] 1 = true := by
      unfold Dev.allRoom Queue.roomFor
      rw [List.all_cons, hq']
      simp [hroom]
    have hfind : e.qf.qs.find qid = some q := by rw [← he]; exact hq'
    have hsize : (QUnit.one it).size = 1 := rfl
    unfold Dev.engineResume
    simp only [hw', hqs, hu, hsize, hroom', List.find?_cons, List.contains_cons, beq_self_eq_true, Bool.true_or, List.takeWhile_cons, bne_self_eq_false, Bool.false_eq_true, if_false,
      List.any_nil, Bool.not_false, Bool.and_self, if_true, List.erase_cons_head, he]
    unfold Dev.storeAll
    rw [List.foldl_cons, List.foldl_nil, hfind]
    rfl
  refine ends_of (exec_blockWaitResume t qid s) ?_
  have hkeep := Dev.evKeeps_applyRes e qid (q.putUnit (.one it))
  have hqf : (e.applyRes qid (q.putUnit (.one it))).qf.lanes = [] ∧ (e.applyRes qid (q.putUnit (.one it))).qf.waits = [] := by
    rw [hkeep.lanes, hkeep.waits, ← he]
    exact ⟨hl, rfl⟩
  have hres : (begin_ t s.dev).blockResume qid = e.applyRes qid (q.putUnit (.one it)) := by
    unfold Dev.blockResume
    rw [hstored]
    dsimp only
    rw [hqf.1]
    rfl
  have hst : (e.applyRes qid (q.putUnit (.one it))).stReq = [] := by
    rw [(Dev.spares_applyRes _ _ _).2.1, ← he]
    rfl
  have hfound := Dev.find_applyRes e qid (q.putUnit (.one it)) (k := qid) (by rw [← he]; exact hn.of_reel rfl)
  obtain ⟨-, hunits, hopen, hread⟩ := Queue.leaves_putUnit (q := q) (u := .one it) hroom
  rw [hres]
  refine ⟨⟨(q.putUnit (.one it)).q, ?_, hunits, hopen, hread⟩, ?_⟩
  · rw [settle_qf _ _ hst, hfound, if_pos rfl]
  · rw [settle_qf _ _ hst, hqf.2]

/-! ### The warning of a long wait (R228) -/

/-- Whether a write has waited on a queue for longer than the warning allows. -/
def QWait.isLong (w : QWait) (d : Dev) (qid : Nat) : Bool := w.qids.contains qid && decide (w.at_ + d.rd Reg.QF_STALL_WARN_WARN * 1000 < d.own)

/-- The device with every engine write that has waited for too long on a queue marked, and lanes that wait as given. -/
def Dev.marksLong (d : Dev) (qid : Nat) (lanes : Tbl LWait) : Dev :=
  { d with qf := { d.qf with waits := d.qf.waits.map (fun x => if x.isLong d qid then { x with warned := true } else x), lanes := lanes } }

theorem Dev.stallWarn_engine {d : Dev} {qid : Nat} {w : QWait} (hw : w ∈ d.qf.waits) (hq : qid ∈ w.qids) (hn : w.warned = false)
    (hlate : w.at_ + d.rd Reg.QF_STALL_WARN_WARN * 1000 < d.own) :
    ∃ (lanes : Tbl LWait) (marked : List (Nat × LWait)) (e : Dev),
      e = d.marksLong qid lanes ∧
      d.stallWarn qid = marked.foldl (fun (x : Dev) y => (x.set1 Reg.QF_ERR_STALL).raise Ev.QF_STALL qid (d.rd Reg.QF_STALL_WARN_WARN + y.1 * 2 ^ 16))
        ((e.set1 Reg.QF_ERR_STALL).raise Ev.QF_STALL qid (d.rd Reg.QF_STALL_WARN_WARN)) := by
  have heng : (d.qf.waits.any (fun x => x.qids.contains qid && !x.warned && decide (x.at_ + d.rd Reg.QF_STALL_WARN_WARN * 1000 < d.own))) = true := by
    rw [List.any_eq_true]
    exact ⟨w, hw, by simp [hq, hn, hlate]⟩
  unfold Dev.stallWarn
  extract_lets warn isOver eng marked source shown counted
  refine ⟨_, marked, shown, rfl, ?_⟩
  simp only [counted, eng, isOver, warn]
  rw [if_pos heng]

theorem ends_stallWarn {s : State} {t qid : Nat} {w : QWait} (hw : w ∈ s.dev.qf.waits) (hq : qid ∈ w.qids) (hn : w.warned = false)
    (hlate : w.at_ + s.dev.rd Reg.QF_STALL_WARN_WARN * 1000 < s.dev.ownAt t) :
    Ends (.stallWarn t qid) s fun d => d.rd Reg.QF_ERR_STALL = 1 ∧ { w with warned := true } ∈ d.qf.waits := by
  obtain ⟨lanes, marked, e, he, heq⟩ := Dev.stallWarn_engine (d := begin_ t s.dev) hw hq hn hlate
  have hwaits : { w with warned := true } ∈ e.qf.waits := by
    have hlong : w.isLong (begin_ t s.dev) qid = true := by
      have hlate' : w.at_ + (begin_ t s.dev).rd Reg.QF_STALL_WARN_WARN * 1000 < (begin_ t s.dev).own := hlate
      unfold QWait.isLong
      rw [decide_eq_true hlate', Bool.and_true, List.contains_iff_mem]
      exact hq
    rw [he]
    refine List.mem_map.2 ⟨w, hw, ?_⟩
    rw [if_pos hlong]
  have hest : e.stReq = [] := by rw [he]; rfl
  generalize (begin_ t s.dev).rd Reg.QF_STALL_WARN_WARN = warn at heq
  have hstep : ∀ (x : Dev) (n : Nat), ((x.set1 Reg.QF_ERR_STALL).raise Ev.QF_STALL qid n).rd Reg.QF_ERR_STALL = 1 ∧
      ((x.set1 Reg.QF_ERR_STALL).raise Ev.QF_STALL qid n).stReq = x.stReq ∧ ((x.set1 Reg.QF_ERR_STALL).raise Ev.QF_STALL qid n).qf.waits = x.qf.waits := fun x n => by
    refine ⟨?_, (Dev.spares_raise _ _ _ _ (by decide)).2.1, ?_⟩
    · rw [Dev.rd_raise_quiet _ _ _ _ _ _ _ (by decide)]
      exact Dev.rd_wr_self _ Reg.QF_ERR_STALL 1 0 0 (by decide)
    · exact (Dev.evKeeps_raise (x.set1 Reg.QF_ERR_STALL) Ev.QF_STALL qid n).waits
  have hfold : ∀ (l : List (Nat × LWait)) (x : Dev), x.rd Reg.QF_ERR_STALL = 1 →
      (l.foldl (fun (x : Dev) y => (x.set1 Reg.QF_ERR_STALL).raise Ev.QF_STALL qid (warn + y.1 * 2 ^ 16)) x).rd Reg.QF_ERR_STALL = 1 ∧
      (l.foldl (fun (x : Dev) y => (x.set1 Reg.QF_ERR_STALL).raise Ev.QF_STALL qid (warn + y.1 * 2 ^ 16)) x).stReq = x.stReq ∧
      (l.foldl (fun (x : Dev) y => (x.set1 Reg.QF_ERR_STALL).raise Ev.QF_STALL qid (warn + y.1 * 2 ^ 16)) x).qf.waits = x.qf.waits := by
    intro l
    induction l with
    | nil => exact fun _ hx => ⟨hx, rfl, rfl⟩
    | cons y l ih =>
      intro x _
      obtain ⟨h1, h2, h3⟩ := hstep x (warn + y.1 * 2 ^ 16)
      obtain ⟨k1, k2, k3⟩ := ih _ h1
      exact ⟨k1, k2.trans h2, k3.trans h3⟩
  obtain ⟨h1, h2, h3⟩ := hstep e warn
  obtain ⟨k1, k2, k3⟩ := hfold marked _ h1
  refine ends_of (exec_stallWarn t qid s) ?_
  rw [heq]
  have hst := k2.trans (h2.trans hest)
  refine ⟨?_, ?_⟩
  · rw [settle_rd_clear _ _ hst _ _ _ (by decide) (by decide), k1]
  · rw [settle_qf _ _ hst, k3, h3]
    exact hwaits

/-! ### Stored bits that are lost (R229) -/

/-- The device with a queue replaced. -/
def Dev.putQueue (d : Dev) (qid : Nat) (q : Queue) : Dev := { d with qf := { d.qf with qs := d.qf.qs.ins qid q } }

/-- A queue that is replaced, with the error that shows why. -/
theorem settle_lostBits {s : State} {d : Dev} {qid n : Nat} {f : Field} (q : Queue) (hn : d.NoEvents qid) (hst : d.stReq = []) (hf : f.has 0 0 = true) (hc : f.clearOf settleFields = true)
    (hquiet : f.quiet = true) (hw : f.lo + f.width ≤ 32) (hone : 1 % 2 ^ f.width = 1) :
    (settle s.dev (((d.putQueue qid q).set1 f).raise Ev.QF_ECC qid n)).qf.qs.find qid = some q ∧ (settle s.dev (((d.putQueue qid q).set1 f).raise Ev.QF_ECC qid n)).rd f = 1 := by
  have hcalm : (((d.putQueue qid q).set1 f).raise Ev.QF_ECC qid n).stReq = [] := (Dev.spares_raise _ _ _ _ (by decide)).2.1.trans hst
  refine ⟨?_, ?_⟩
  · rw [settle_qf _ _ hcalm, Dev.find_raise _ _ _ _ (hn.of_reel (e := (d.putQueue qid q).set1 f) rfl)]
    exact Tbl.find_ins_self _ _ _
  · rw [settle_rd_clear _ _ hcalm _ _ _ hf hc, Dev.rd_raise_quiet _ _ _ _ _ _ _ hquiet]
    exact (Dev.rd_wr_self _ f 1 0 0 hw).trans hone

theorem spoil_tags (it : Item) (v : Nat) : (spoil it v).getLsbD 60 = true ∧ (spoil it v).getLsbD 61 = it.getLsbD 61 ∧ (spoil it v).getLsbD 62 = it.getLsbD 62 ∧
    (spoil it v).getLsbD 63 = it.getLsbD 63 := by
  have hv : ∀ i, 60 ≤ i → (BitVec.ofNat 64 (v % 2 ^ 60)).getLsbD i = false := fun i hi => by
    rw [BitVec.getLsbD_ofNat, Nat.testBit_lt_two_pow, Bool.and_false]
    exact lt_of_lt_of_le (Nat.mod_lt _ (by decide)) (Nat.pow_le_pow_right (by decide) hi)
  have hbit : ∀ i, 60 ≤ i → (spoil it v).getLsbD i = (it.getLsbD i && (0xF000000000000000#64).getLsbD i || (0x1000000000000000#64).getLsbD i) := fun i hi => by
    unfold spoil
    rw [BitVec.getLsbD_or, BitVec.getLsbD_or, BitVec.getLsbD_and, hv i hi, Bool.or_false]
  rw [hbit 60 (by decide), hbit 61 (by decide), hbit 62 (by decide), hbit 63 (by decide)]
  simp

theorem ends_eccDescriptor {s : State} {t qid pos : Nat} {q : Queue} (hq : s.dev.qf.qs.find qid = some q) (hn : s.dev.NoEvents qid) :
    Ends (.qfEccUncorrectable t qid pos true) s fun d => d.Holds qid [] none none ∧ d.rd Reg.QF_ERR_META = 1 := by
  have hq' : (begin_ t s.dev).qf.qs.find qid = some q := hq
  have heq : (begin_ t s.dev).qfEcc qid pos true = (((begin_ t s.dev).putQueue qid q.metaLost).set1 Reg.QF_ERR_META).raise Ev.QF_ECC qid 2 := by
    unfold Dev.qfEcc
    rw [hq']
    rfl
  obtain ⟨hfound, hshown⟩ := settle_lostBits (s := s) (d := begin_ t s.dev) (n := 2) (f := Reg.QF_ERR_META) q.metaLost hn rfl (by decide) (by decide) (by decide) (by decide) (by decide)
  refine ends_of (exec_qfEccUncorrectable t qid pos true s) ?_
  rw [heq]
  exact ⟨⟨q.metaLost, hfound, rfl, rfl, rfl⟩, hshown⟩

/-- The queue whose item number n is spoilt. -/
def Queue.spoilt (q : Queue) (v n : Nat) : Queue := { q with units := spoilAt v q.units n }

theorem ends_eccItem {s : State} {t qid : Nat} {q : Queue} {it : Item} {us : List QUnit} (hq : s.dev.qf.qs.find qid = some q) (hn : s.dev.NoEvents qid) (hu : q.units = .one it :: us) :
    Ends (.qfEccUncorrectable t qid 0 false) s fun d => d.rd Reg.QF_ERR_ECC_UNCORR = 1 ∧
      ∃ x : Item, d.Holds qid (.one x :: us) q.openp q.reading ∧ x.getLsbD 60 = true ∧ x.getLsbD 61 = it.getLsbD 61 ∧ x.getLsbD 62 = it.getLsbD 62 ∧ x.getLsbD 63 = it.getLsbD 63 := by
  have hq' : (begin_ t s.dev).qf.qs.find qid = some q := hq
  obtain ⟨e, v, hfresh⟩ : ∃ e v, (begin_ t s.dev).fresh = (e, v) := ⟨_, _, rfl⟩
  have he : e.stReq = [] ∧ e.reel = s.dev.reel := by
    have h1 : e = (begin_ t s.dev).fresh.1 := by rw [hfresh]
    rw [h1]
    exact ⟨rfl, rfl⟩
  have heq : (begin_ t s.dev).qfEcc qid 0 false = ((e.putQueue qid (q.spoilt v 0)).set1 Reg.QF_ERR_ECC_UNCORR).raise Ev.QF_ECC qid 1 := by
    unfold Dev.qfEcc
    rw [hq']
    dsimp only
    rw [hfresh, if_neg (by decide)]
    rfl
  have hunits : (q.spoilt v 0).units = .one (spoil it v) :: us := by
    unfold Queue.spoilt
    rw [hu]
    rfl
  obtain ⟨hfound, hshown⟩ := settle_lostBits (s := s) (d := e) (n := 1) (f := Reg.QF_ERR_ECC_UNCORR) (q.spoilt v 0) (hn.of_reel he.2) he.1 (by decide) (by decide) (by decide) (by decide) (by decide)
  refine ends_of (exec_qfEccUncorrectable t qid 0 false s) ?_
  rw [heq]
  exact ⟨hshown, spoil it v, ⟨q.spoilt v 0, hfound, hunits, rfl, rfl⟩, spoil_tags it v⟩

/-- Settles O30, by the wait that ends and the bits that are lost. -/
theorem queueWaitsAndErrors : Obligations.QueueWaitsAndErrors := fun _ _ _ _ _ _ _ hq hn =>
  ⟨ends_blockWaitResume hq hn, fun hw hin hwarn hlate => ends_stallWarn hw hin hwarn hlate, ends_eccDescriptor hq hn, ends_eccItem hq hn⟩

end Sys2Proof.Machine
end

section
/-!
PROOFS. Proofs/Words.lean: which register words a command may change, and what it leaves of the others.
-/
namespace Sys2Proof.Machine

/-- The registers that differ lie in the given words, or in the event counters. -/
def Dev.Touches (ws : List Nat) (d e : Dev) : Prop := ∀ a, a ∉ ws → a ∉ evWords → e.word a = d.word a

namespace Dev.Touches
variable {ws : List Nat}

theorem refl (ws : List Nat) (d : Dev) : Dev.Touches ws d d := fun _ _ _ => rfl

theorem trans {a b c : Dev} (h : Dev.Touches ws a b) (k : Dev.Touches ws b c) : Dev.Touches ws a c := fun x hx he => (k x hx he).trans (h x hx he)

theorem mono {vs : List Nat} {d e : Dev} (h : Dev.Touches vs d e) (hs : vs ⊆ ws) : Dev.Touches ws d e := fun x hx he => h x (fun hv => hx (hs hv)) he

theorem of_regs {d e : Dev} (h : e.regs = d.regs) : Dev.Touches ws d e := fun _ _ _ => Dev.word_congr h _

theorem wr (d : Dev) {f : Field} (v i j : Nat) (h : f.addr i j ∈ ws) : Dev.Touches ws d (d.wr f v i j) := fun _ hx _ =>
  Dev.word_wr_ne d f v i j fun hn => hx (hn ▸ h)

theorem raise (ws : List Nat) (d : Dev) (e : Ev) (inst data : Nat) : Dev.Touches ws d (d.raise e inst data) := fun _ _ he => Dev.word_raise d e inst data he

theorem applyRes (ws : List Nat) (d : Dev) (qid : Nat) (r : QRes) : Dev.Touches ws d (d.applyRes qid r) := fun _ _ he => (Dev.evKeeps_applyRes d qid r).2 _ he

theorem ite {d a b : Dev} (c : Prop) [Decidable c] (ha : Dev.Touches ws d a) (hb : Dev.Touches ws d b) : Dev.Touches ws d (if c then a else b) := by
  split
  · exact ha
  · exact hb

theorem foldl {β : Type} {f : Dev → β → Dev} (bs : List β) (hf : ∀ (x : Dev) b, b ∈ bs → Dev.Touches ws x (f x b)) (d : Dev) : Dev.Touches ws d (bs.foldl f d) := by
  induction bs generalizing d with
  | nil => exact refl _ _
  | cons b bs ih => exact (hf d b List.mem_cons_self).trans (ih (fun x c hc => hf x c (List.mem_cons_of_mem _ hc)) _)

theorem rd {d e : Dev} (h : Dev.Touches ws d e) {f : Field} {i j : Nat} (hw : f.addr i j ∉ ws) (he : f.addr i j ∉ evWords) : e.rd f i j = d.rd f i j :=
  Dev.rd_congr (h _ hw he)

/-- What a command touches, as the obligations say it. -/
theorem settle {s : State} {t : Nat} {e : Dev} (h : Dev.Touches ws (begin_ t s.dev) e) (hst : e.stReq = []) : s.dev.OnlyWrites (settle s.dev e) ws := fun a ha he h10 h70 =>
  (settle_word _ _ hst a (by simp only [settleWords, List.mem_cons, List.not_mem_nil, or_false, not_or]; exact ⟨h10, h70⟩)).trans (h a ha he)

end Dev.Touches

end Sys2Proof.Machine
end

section
/-!
PROOFS. Proofs/WatchRules.lean: what the decision rules of the watch island may change (R476), and how a wake source shows (R472).
-/
namespace Sys2Proof.Machine

/-! ### A wake source that acts (R472) -/

/-- A wake source has acted: `MAIN_EN_N` is asserted and its cause is set. -/
def Dev.Asserted (d : Dev) (bit : Nat) : Prop := d.pins.mainEnN = false ∧ d.rd Reg.WCH_STATUS_MAIN_REQ = 1 ∧ bitAt (d.word 0x40004).toNat bit = true

theorem bitAt_eq_getLsbD (w : Word) (i : Nat) : bitAt w.toNat i = w.getLsbD i := by
  unfold bitAt
  rw [BitVec.getLsbD, Nat.testBit_eq_decide_div_mod_eq]
  exact (Bool.beq_eq_decide_eq _ _)

theorem Dev.word_wake (d : Dev) (bit : Nat) : (d.wake bit).word 0x40004 = d.word 0x40004 ||| BitVec.ofNat 32 (2 ^ bit) := by
  refine (Dev.word_wr_ne (d.setWord 0x40004 (d.word 0x40004 ||| BitVec.ofNat 32 (2 ^ bit))) Reg.WCH_STATUS_MAIN_REQ 1 0 0 (a := 0x40004) (by decide)).trans ?_
  exact Tbl.get_set_self _ _ _ _

theorem Dev.asserted_wake (d : Dev) {bit : Nat} (h : bit < 32) : (d.wake bit).Asserted bit := by
  refine ⟨rfl, Dev.rd_wr_self _ Reg.WCH_STATUS_MAIN_REQ 1 0 0 (by decide), ?_⟩
  rw [bitAt_eq_getLsbD, Dev.word_wake, BitVec.getLsbD_or, BitVec.getLsbD_ofNat]
  simp [h]

theorem Dev.Asserted.wake {d : Dev} {bit : Nat} (h : d.Asserted bit) (b : Nat) : (d.wake b).Asserted bit := by
  obtain ⟨-, -, hb⟩ := h
  refine ⟨rfl, Dev.rd_wr_self _ Reg.WCH_STATUS_MAIN_REQ 1 0 0 (by decide), ?_⟩
  rw [bitAt_eq_getLsbD] at hb ⊢
  rw [Dev.word_wake, BitVec.getLsbD_or, hb, Bool.true_or]

theorem Dev.EvKeeps.daily {d e : Dev} (h : d.EvKeeps e) : e.wch.daily = d.wch.daily := by rw [h.1]

/-! ### What a decision rule changes (R476) -/

/-- A step of the decision rules: it writes the words of the rules and of the wake sources alone, leaves the device state, the clock and the filters, and every wake
source that has acted. -/
structure Dev.RuleStep (d e : Dev) : Prop where
  touches : Dev.Touches (0x40000 :: 0x40004 :: (List.range 16).map (fun r => 0x40080 + 4 * r)) d e
  mode : e.mode = d.mode
  stReq : e.stReq = d.stReq
  out : e.out = d.out
  own : e.own = d.own
  daily : e.wch.daily = d.wch.daily
  asserted : ∀ bit, d.Asserted bit → e.Asserted bit

namespace Dev.RuleStep

theorem refl (d : Dev) : d.RuleStep d := ⟨Dev.Touches.refl _ _, rfl, rfl, rfl, rfl, rfl, fun _ h => h⟩

theorem trans {a b c : Dev} (h : a.RuleStep b) (k : b.RuleStep c) : a.RuleStep c :=
  ⟨h.touches.trans k.touches, k.mode.trans h.mode, k.stReq.trans h.stReq, k.out.trans h.out, k.own.trans h.own, k.daily.trans h.daily, fun b hb => k.asserted b (h.asserted b hb)⟩

theorem ite {d a b : Dev} (c : Prop) [Decidable c] (ha : d.RuleStep a) (hb : d.RuleStep b) : d.RuleStep (if c then a else b) := by
  split
  · exact ha
  · exact hb

theorem foldl {β : Type} {f : Dev → β → Dev} (bs : List β) (hf : ∀ (x : Dev) b, b ∈ bs → x.RuleStep (f x b)) (d : Dev) : d.RuleStep (bs.foldl f d) := by
  induction bs generalizing d with
  | nil => exact refl _
  | cons b bs ih => exact (hf d b List.mem_cons_self).trans (ih (fun x c hc => hf x c (List.mem_cons_of_mem _ hc)) _)

/-- A step that leaves the registers and the pins. -/
theorem of_same {d e : Dev} (h : e.regs = d.regs) (hp : e.pins = d.pins) (hm : e.mode = d.mode) (hs : e.stReq = d.stReq) (ho : e.out = d.out) (hw : e.own = d.own)
    (hd : e.wch.daily = d.wch.daily) : d.RuleStep e :=
  ⟨Dev.Touches.of_regs h, hm, hs, ho, hw, hd, fun b hb => by
    obtain ⟨h1, h2, h3⟩ := hb
    exact ⟨hp ▸ h1, (Dev.rd_congr (Dev.word_congr h _)).trans h2, (Dev.word_congr h _).symm ▸ h3⟩⟩

/-- A write of a register apart from the wake sources. -/
theorem wr (d : Dev) {f : Field} (v i j : Nat) (h : f.addr i j ∈ (List.range 16).map (fun r => 0x40080 + 4 * r) ∨ f.addr i j ∈ evWords) : d.RuleStep (d.wr f v i j) := by
  have hapart : f.addr i j ≠ 0x40000 ∧ f.addr i j ≠ 0x40004 := by
    obtain h | h := h
    · obtain ⟨r, -, hr⟩ := List.mem_map.1 h
      omega
    · constructor
      · rintro hc
        rw [hc] at h
        exact absurd h (by decide)
      · rintro hc
        rw [hc] at h
        exact absurd h (by decide)
  refine ⟨fun a ha he => Dev.word_wr_ne d f v i j ?_, rfl, rfl, rfl, rfl, rfl, fun b hb => ?_⟩
  · rintro rfl
    obtain h | h := h
    · exact ha (List.mem_cons_of_mem _ (List.mem_cons_of_mem _ h))
    · exact he h
  · obtain ⟨h1, h2, h3⟩ := hb
    refine ⟨h1, (Dev.rd_congr (Dev.word_wr_ne d f v i j ?_)).trans h2, ?_⟩
    · exact fun hc => hapart.1 hc.symm
    · rw [Dev.word_wr_ne d f v i j (fun hc => hapart.2 hc.symm)]
      exact h3

theorem raise (d : Dev) (e : Ev) (inst data : Nat) (h : e.sev < 5) : d.RuleStep (d.raise e inst data) :=
  ⟨Dev.Touches.raise _ _ _ _ _, Dev.raise_mode _ _ _ _, Dev.stReq_raise _ _ _ _ h, Dev.raise_out _ _ _ _, Dev.raise_own _ _ _ _,
    (Dev.evKeeps_raise d e inst data).daily, fun b hb => by
      obtain ⟨h1, h2, h3⟩ := hb
      exact ⟨(Dev.raise_pins _ _ _ _).symm ▸ h1, (Dev.rd_raise_quiet _ _ _ _ _ _ _ (by decide)).trans h2, (Dev.word_raise d e inst data (a := 0x40004) (by decide)).symm ▸ h3⟩⟩

theorem wake (d : Dev) (bit : Nat) : d.RuleStep (d.wake bit) := by
  refine ⟨fun a ha _ => ?_, rfl, rfl, rfl, rfl, rfl, fun _ hb => hb.wake bit⟩
  rw [List.mem_cons, List.mem_cons, not_or, not_or] at ha
  refine (Dev.word_wr_ne (d.setWord 0x40004 (d.word 0x40004 ||| BitVec.ofNat 32 (2 ^ bit))) Reg.WCH_STATUS_MAIN_REQ 1 0 0 ha.1).trans ?_
  exact Tbl.get_set_ne _ _ _ _ ha.2.1

end Dev.RuleStep

/-- The device with its watch log replaced. -/
def Dev.withLog (d : Dev) (l : List BbRec) : Dev := { d with wch := { d.wch with log := l } }

theorem Dev.ruleStep_withLog (d : Dev) (l : List BbRec) : d.RuleStep (d.withLog l) := Dev.RuleStep.of_same rfl rfl rfl rfl rfl rfl rfl

theorem Dev.ruleStep_logPut (d : Dev) (r : BbRec) : d.RuleStep (d.logPut r).1 := by
  unfold Dev.logPut
  split
  · exact (d.ruleStep_withLog (d.wch.log ++ [r])).trans (Dev.RuleStep.wr (d.withLog (d.wch.log ++ [r])) _ 0 0 (f := Reg.WCH_LOG_COUNT) (.inr (by decide)))
  · exact (d.ruleStep_withLog (d.wch.log.drop 1 ++ [r])).trans (Dev.RuleStep.wr (d.withLog (d.wch.log.drop 1 ++ [r])) _ 0 0 (f := Reg.WCH_LOG_OVERFLOW) (.inr (by decide)))

theorem Dev.ruleStep_ruleRecord (d : Dev) (r data : Nat) : d.RuleStep (d.ruleRecord r data) := by
  unfold Dev.ruleRecord
  dsimp only
  split
  · split
    case h_1 e he =>
      unfold Dev.bbPut at he
      split at he
      · cases he
      · cases he
        exact Dev.RuleStep.of_same rfl rfl rfl rfl rfl rfl rfl
    case h_2 => exact (Dev.RuleStep.wr d _ 0 0 (f := Reg.PST_BB_DROPPED_CNT) (.inr (by decide))).trans (Dev.RuleStep.of_same rfl rfl rfl rfl rfl rfl rfl)
  · exact Dev.RuleStep.trans (b := { d with pst := { d.pst with bbNext := d.pst.bbNext + 1 } }) (Dev.RuleStep.of_same rfl rfl rfl rfl rfl rfl rfl) (Dev.ruleStep_logPut _ _)

/-- The words of the rules. -/
theorem ruleWord_mem {r : Nat} (h : r < 16) : 0x40080 + 4 * r + 0 * 0 ∈ (List.range 16).map (fun r => 0x40080 + 4 * r) := List.mem_map.2 ⟨r, List.mem_range.2 h, by omega⟩

theorem Dev.ruleStep_ruleFire (d : Dev) {r : Nat} (h : r < 16) (x : Rec) (v : Nat) : d.RuleStep (d.ruleFire r x v) := by
  unfold Dev.ruleFire
  dsimp only
  have hfired : d.RuleStep ((d.set1 Reg.WCH_RULE_FIRED r).raise Ev.WCH_RULE r (v % 4096 + x.u8 16 % 8 * 2 ^ 16)) :=
    (Dev.RuleStep.wr d 1 r 0 (f := Reg.WCH_RULE_FIRED) (.inl (ruleWord_mem h))).trans (Dev.RuleStep.raise _ _ _ _ (by decide))
  generalize (d.set1 Reg.WCH_RULE_FIRED r).raise Ev.WCH_RULE r (v % 4096 + x.u8 16 % 8 * 2 ^ 16) = e at hfired
  refine hfired.trans ?_
  have hwake := Dev.RuleStep.ite (bitAt (x.u8 16 % 8) 0 && e.mode == .watch) (Dev.RuleStep.wake e 5) (Dev.RuleStep.refl e)
  generalize (if bitAt (x.u8 16 % 8) 0 && e.mode == .watch then e.wake 5 else e) = f at hwake
  refine hwake.trans ?_
  have hrec := Dev.RuleStep.ite (bitAt (x.u8 16 % 8) 1) (Dev.ruleStep_ruleRecord f r (v % 4096 + x.u8 16 % 8 * 2 ^ 16)) (Dev.RuleStep.refl f)
  generalize (if bitAt (x.u8 16 % 8) 1 then f.ruleRecord r (v % 4096 + x.u8 16 % 8 * 2 ^ 16) else f) = g at hrec
  exact hrec.trans (Dev.RuleStep.ite _ (Dev.RuleStep.of_same rfl rfl rfl rfl rfl rfl rfl) (Dev.RuleStep.refl g))

theorem Dev.ruleStep_ruleEval (d : Dev) {r : Nat} (h : r < 16) : d.RuleStep (d.ruleEval r) := by
  unfold Dev.ruleEval
  split
  case h_1 => exact Dev.RuleStep.refl d
  case h_2 x _ =>
    extract_lets v holds old new counted watch seen
    have hc : d.RuleStep counted := (Dev.RuleStep.wr d _ r 0 (f := Reg.WCH_RULE_COUNT) (.inl (ruleWord_mem h))).trans (Dev.RuleStep.wr _ _ r 0 (f := Reg.WCH_RULE_TRUE) (.inl (ruleWord_mem h)))
    have hs : counted.RuleStep seen := Dev.RuleStep.of_same rfl rfl rfl rfl rfl rfl rfl
    exact (hc.trans hs).trans (Dev.RuleStep.ite _ (Dev.ruleStep_ruleFire _ h _ _) (Dev.RuleStep.refl _))

theorem Dev.ruleStep_ruleSeen (d : Dev) (inp : Nat) : d.RuleStep (d.ruleSeen inp) := by
  unfold Dev.ruleSeen
  have hs : d.RuleStep (d.setWch { d.wch with seen := (d.wch.seen ++ d.rulesOf inp).dedup }) := Dev.RuleStep.of_same rfl rfl rfl rfl rfl rfl rfl
  refine hs.trans (Dev.RuleStep.foldl _ (fun x r hr => Dev.ruleStep_ruleEval x ?_) _)
  unfold Dev.rulesOf at hr
  exact List.mem_range.1 (List.mem_of_mem_filter hr)

end Sys2Proof.Machine
end

section
/-!
PROOFS. Proofs/WatchIsland.lean: wake sources, the alarm, the release of `MAIN_EN_N`, the tone detectors and the RTC (R152, R471 to R475, R478).
-/
namespace Sys2Proof.Machine

theorem settle_mainEnN (o d : Dev) (h : d.stReq = []) : (settle o d).pins.mainEnN = d.pins.mainEnN := by
  rw [settle_calm o d h, Dev.drivePins_pins]
  simp [Dev.keepFuses]

theorem Dev.Asserted.settle {o d : Dev} {bit : Nat} (h : d.Asserted bit) (hst : d.stReq = []) : (settle o d).Asserted bit := by
  obtain ⟨h1, h2, h3⟩ := h
  refine ⟨(settle_mainEnN o d hst).trans h1, (settle_rd_clear _ _ hst _ _ _ (by decide) (by decide)).trans h2, ?_⟩
  rw [settle_word _ _ hst 0x40004 (by decide)]
  exact h3

/-! ### Wake sources (R471, R472, R475) -/

section
variable {s : State} {t : Nat}

theorem ends_wakePin {pin : Fin 4} (hm : s.dev.mode = .standby ∨ s.dev.mode = .watch) (hen : bitAt (s.dev.rd Reg.WCH_WAKE_CFG_EN) pin = true) :
    Ends (.wakePin t pin) s fun d => d.Asserted pin := by
  refine ends_of (exec_wakePin t pin s) ?_
  have hm' : (begin_ t s.dev).mode = .standby ∨ (begin_ t s.dev).mode = .watch := hm
  have hen' : bitAt ((begin_ t s.dev).rd Reg.WCH_WAKE_CFG_EN) pin = true := hen
  have hst : (begin_ t s.dev).stReq = [] := rfl
  generalize begin_ t s.dev = d at hm' hen' hst
  have hoff : ¬ (d.mode == .off) = true := by obtain h | h := hm' <;> simp [h]
  have hsleep : d.sleeping = true := by
    unfold Dev.sleeping
    obtain h | h := hm' <;> simp [h]
  unfold Dev.wakePin
  extract_lets watch seen woken
  rw [if_neg hoff]
  have hwake : woken = seen.wake pin := if_pos (by rw [Bool.and_eq_true]; exact ⟨hsleep, hen'⟩)
  clear_value woken
  rw [hwake]
  have hseen : seen.stReq = [] := hst
  clear_value seen
  have hstep := Dev.RuleStep.ite ((seen.wake pin).mode == .standby) (Dev.RuleStep.refl (seen.wake pin)) (Dev.ruleStep_ruleSeen (seen.wake pin) (0x20 + pin))
  exact (hstep.asserted pin (Dev.asserted_wake seen (by omega))).settle (hstep.stReq.trans hseen)

theorem ends_rtcAlarm (hm : s.dev.mode = .standby ∨ s.dev.mode = .watch) (hen : s.dev.rd Reg.WCH_ALARM_CTRL_EN = 1)
    (hsec : (begin_ t s.dev).rtcNow / 1000000000 % 2 ^ 32 = s.dev.rd Reg.WCH_ALARM_SEC) :
    Ends (.rtcAlarm t) s fun d => d.Asserted 4 ∧ d.rd Reg.WCH_ALARM_CTRL_EN = 0 := by
  have hsec' : (begin_ t s.dev).rtcNow / 1000000000 % 2 ^ 32 = (begin_ t s.dev).rd Reg.WCH_ALARM_SEC := hsec
  have hen' : (begin_ t s.dev).on Reg.WCH_ALARM_CTRL_EN = true := by
    have h : (begin_ t s.dev).rd Reg.WCH_ALARM_CTRL_EN = 1 := hen
    simp [Dev.on, h]
  have hsleep : (begin_ t s.dev).sleeping = true := by
    have hm' : (begin_ t s.dev).mode = .standby ∨ (begin_ t s.dev).mode = .watch := hm
    unfold Dev.sleeping
    obtain h | h := hm' <;> rw [h] <;> rfl
  refine ends_of (exec_rtcAlarm t s) ?_
  have heq : (begin_ t s.dev).rtcAlarm = ((begin_ t s.dev).clr Reg.WCH_ALARM_CTRL_EN).wake 4 := by
    unfold Dev.rtcAlarm
    rw [hsleep, hen', hsec', beq_self_eq_true]
    rfl
  rw [heq]
  generalize he : (begin_ t s.dev).clr Reg.WCH_ALARM_CTRL_EN = e
  have hest : e.stReq = [] := by rw [← he]; rfl
  have hoff : e.rd Reg.WCH_ALARM_CTRL_EN = 0 := by rw [← he]; exact Dev.rd_wr_self _ Reg.WCH_ALARM_CTRL_EN 0 0 0 (by decide)
  have hw := Dev.RuleStep.wake e 4
  have hst := hw.stReq.trans hest
  refine ⟨(Dev.asserted_wake e (by decide)).settle hst, ?_⟩
  rw [settle_rd_clear _ _ hst _ _ _ (by decide) (by decide), hw.touches.rd (by decide) (by decide), hoff]

theorem ends_wchRelease {req : Nat} (v : Word) (hok : s.dev.Takes req) :
    Ends (.wchRelease t req v) s fun d => d.pins.mainEnN = true ∧ d.rd Reg.WCH_STATUS_MAIN_REQ = 0 ∧ d.out = [.status req 0] := by
  have hbit : bitAt (v ||| 1#32).toNat 0 = true := by
    rw [bitAt_eq_getLsbD]
    simp
  refine ends_hostWrite (exec_wchRelease t req v s) hok (by decide) ?_
  generalize hd : (begin_ t s.dev).storeWord true 0x40008 (v ||| 1#32).toNat = d
  have hst : d.stReq = [] := by rw [← hd, Dev.storeWord_stReq]; rfl
  have hout : d.out = [] := by rw [← hd, Dev.storeWord_out]; rfl
  have heq : d.afterWrite req 0x40008 (v ||| 1#32).toNat = d.wakeRelease := by
    generalize (v ||| 1#32).toNat = n at hbit
    unfold Dev.afterWrite Dev.boardWrite
    simp [hbit]
  rw [heq]
  generalize he : d.wakeRelease = e
  have hkeep : e.stReq = [] ∧ e.out = [] ∧ e.pins.mainEnN = true ∧ e.rd Reg.WCH_STATUS_MAIN_REQ = 0 := by
    rw [← he]
    exact ⟨hst, hout, rfl, Dev.rd_wr_self d Reg.WCH_STATUS_MAIN_REQ 0 0 0 (by decide)⟩
  obtain ⟨hest, heout, hpin, hreq⟩ := hkeep
  have hcalm : (e.emit (.status req 0)).stReq = [] := hest
  refine ⟨(settle_mainEnN _ _ hcalm).trans hpin, ?_, ?_⟩
  · rw [settle_rd_clear _ _ hcalm _ _ _ (by decide) (by decide), Dev.rd_emit, hreq]
  · rw [settle_out _ _ hcalm]
    exact congrArg (· ++ _) heout

theorem ends_vbatLow (hm : s.dev.mode ≠ .off) : Ends (.vbatLow t) s fun d => d.rd Reg.WCH_STATUS_VBAT_LOW = 1 ∧ s.dev.OnlyWrites d [0x40000] := by
  refine ends_of (exec_vbatLow t s) ?_
  have hoff : ¬ ((begin_ t s.dev).mode == .off) = true := by simpa using hm
  have hst : (begin_ t s.dev).stReq = [] := rfl
  have hshown : (begin_ t s.dev).vbatLow.rd Reg.WCH_STATUS_VBAT_LOW = 1 ∧ (begin_ t s.dev).vbatLow.stReq = [] ∧ Dev.Touches [0x40000] (begin_ t s.dev) (begin_ t s.dev).vbatLow := by
    generalize begin_ t s.dev = d at hoff hst
    unfold Dev.vbatLow
    split
    case isTrue h =>
      rw [Bool.or_eq_true] at h
      have hon : d.on Reg.WCH_STATUS_VBAT_LOW = true := h.resolve_left hoff
      have hone : d.rd Reg.WCH_STATUS_VBAT_LOW = 1 := by simpa [Dev.on] using hon
      exact ⟨hone, hst, Dev.Touches.refl _ _⟩
    case isFalse =>
      refine ⟨?_, (Dev.spares_raise _ _ _ _ (by decide)).2.1.trans hst, (Dev.Touches.wr d 1 0 0 (by decide)).trans (Dev.Touches.raise _ _ _ _ _)⟩
      rw [Dev.rd_raise_quiet _ _ _ _ _ _ _ (by decide)]
      exact Dev.rd_wr_self d Reg.WCH_STATUS_VBAT_LOW 1 0 0 (by decide)
  obtain ⟨hlow, hcalm, htouch⟩ := hshown
  exact ⟨(settle_rd_clear _ _ hcalm _ _ _ (by decide) (by decide)).trans hlow, htouch.settle hcalm⟩

/-! ### Tone detectors (R475) -/

theorem bitAt_eq_testBit (x i : Nat) : bitAt x i = x.testBit i := by
  unfold bitAt
  rw [Nat.testBit_eq_decide_div_mod_eq]
  exact Bool.beq_eq_decide_eq _ _

theorem bitAt_add_pow {x i : Nat} (h : bitAt x i = false) : bitAt (x + 2 ^ i) i = true := by
  unfold bitAt at h ⊢
  rw [Nat.add_div_right _ (Nat.two_pow_pos i)]
  rw [beq_eq_false_iff_ne] at h
  rw [beq_iff_eq]
  omega

theorem ends_toneDetect {port : Fin 128} (hm : s.dev.mode = .watch) (hon : s.dev.toneOn port = true) :
    Ends (.toneDetect t port) s fun d => bitAt (d.rd Reg.WCH_TONE_TONE (port / 32)) (port % 32) = true := by
  refine ends_of (exec_toneDetect t port s) ?_
  have hm' : (begin_ t s.dev).mode = .watch := hm
  have hon' : (begin_ t s.dev).toneOn port = true := hon
  have hst : (begin_ t s.dev).stReq = [] := rfl
  generalize begin_ t s.dev = d at hm' hon' hst
  have hn : port.val / 32 < 4 := by omega
  have hhas : Reg.WCH_TONE_TONE.has (port.val / 32) 0 = true := Field.has_of hn (by decide)
  have hmode : (d.mode == .watch) = true := by rw [hm']; rfl
  unfold Dev.toneDetect
  rw [hon', hmode, Bool.true_and, Bool.true_and]
  split
  case isFalse h =>
    rw [settle_rd_clear _ _ hst _ _ _ hhas (by decide)]
    simpa using h
  case isTrue h =>
    rw [Bool.not_eq_true'] at h
    have hlt : d.rd Reg.WCH_TONE_TONE (port / 32) < 2 ^ 32 := d.rd_lt _ _ _
    generalize d.rd Reg.WCH_TONE_TONE (port / 32) = w at h hlt
    have hsum : bitAt ((w + 2 ^ (port.val % 32)) % 2 ^ 32) (port.val % 32) = true := by
      have hb := bitAt_add_pow h
      rw [bitAt_eq_testBit] at hb ⊢
      rw [Nat.testBit_mod_two_pow, hb, decide_eq_true (Nat.mod_lt _ (by decide))]
      rfl
    generalize he : d.wr Reg.WCH_TONE_TONE (w + 2 ^ (port.val % 32)) (port.val / 32) = e
    have hew : e.rd Reg.WCH_TONE_TONE (port.val / 32) = (w + 2 ^ (port.val % 32)) % 2 ^ 32 := by rw [← he]; exact Dev.rd_wr_self d Reg.WCH_TONE_TONE _ _ _ (by decide)
    have hest : e.stReq = [] := by rw [← he]; exact hst
    have hstep := Dev.ruleStep_ruleSeen e 0x10
    have haddr : ∀ n : Fin 4, Reg.WCH_TONE_TONE.addr n 0 ∉ 0x40000 :: 0x40004 :: (List.range 16).map (fun r => 0x40080 + 4 * r) ∧ Reg.WCH_TONE_TONE.addr n 0 ∉ evWords := by decide
    rw [settle_rd_clear _ _ (hstep.stReq.trans hest) _ _ _ hhas (by decide), hstep.touches.rd (haddr ⟨_, hn⟩).1 (haddr ⟨_, hn⟩).2, hew, hsum]

/-! ### The RTC (R152, R478) -/

theorem ends_rtcCompensation {t30 t31 : Int} (hm : s.dev.mode = .watch) (hi : 60 < s.dev.dailyInt) (hlate : s.dev.wch.corrAt + 60000000000 ≤ s.dev.ownAt t) :
    Ends (.rtcCompensation t t30 t31) s fun d =>
      d.wch.corr = Config.rtcCorrection (rhu (t30 + t31) 2) ∧ d.wch.corrAt = s.dev.ownAt t ∧ s.dev.OnlyWrites d [] := by
  have hm' : ((begin_ t s.dev).mode == .watch) = true := by
    have h : (begin_ t s.dev).mode = .watch := hm
    rw [h]
    rfl
  have hi' : 60 < (begin_ t s.dev).dailyInt := hi
  have hlate' : (begin_ t s.dev).wch.corrAt + oneMin ≤ (begin_ t s.dev).own := hlate
  refine ends_of (exec_rtcCompensation t t30 t31 s) ?_
  have heq : (begin_ t s.dev).rtcComp t30 t31 = (begin_ t s.dev).rtcCompensate t30 t31 := by
    unfold Dev.rtcComp
    rw [hm', decide_eq_true hi', decide_eq_true hlate']
    rfl
  rw [heq]
  have hst : ((begin_ t s.dev).rtcCompensate t30 t31).stReq = [] := rfl
  have htouch : Dev.Touches [] (begin_ t s.dev) ((begin_ t s.dev).rtcCompensate t30 t31) := Dev.Touches.of_regs rfl
  refine ⟨?_, ?_, htouch.settle hst⟩
  · rw [settle_wch _ _ hst]
    rfl
  · rw [settle_wch _ _ hst]
    rfl

theorem ends_rtcUpdate (hm : s.dev.mainOn = true) (hv : s.dev.rd Reg.TB_STATUS_TIME_VALID = 1) (hdue : ∀ a, s.dev.wch.rtcSet = some a → a + 1000000000 ≤ s.dev.ownAt t) :
    Ends (.rtcUpdate t) s fun d =>
      d.wch.rtc = s.dev.nowAt t ∧ d.wch.rtcAt = s.dev.ownAt t ∧ d.wch.rtcSet = some (s.dev.ownAt t) ∧ d.rd Reg.WCH_STATUS_RTC_VALID = 1 ∧ s.dev.OnlyWrites d [0x40000] := by
  have hm' : (begin_ t s.dev).mainOn = true := hm
  have hv' : (begin_ t s.dev).on Reg.TB_STATUS_TIME_VALID = true := by
    have h : (begin_ t s.dev).rd Reg.TB_STATUS_TIME_VALID = 1 := hv
    simp [Dev.on, h]
  refine ends_of (exec_rtcUpdate t s) ?_
  have heq : (begin_ t s.dev).rtcUpdate = (begin_ t s.dev).rtcWrite := by
    unfold Dev.rtcUpdate
    rw [hm', hv']
    cases hr : (begin_ t s.dev).wch.rtcSet with
    | none => rfl
    | some a =>
      have hlate : decide (a + oneSec ≤ (begin_ t s.dev).own) = true := decide_eq_true (hdue a hr)
      dsimp only
      rw [hlate]
      rfl
  rw [heq]
  have hst : (begin_ t s.dev).rtcWrite.stReq = [] := rfl
  have htouch : Dev.Touches [0x40000] (begin_ t s.dev) (begin_ t s.dev).rtcWrite := by
    unfold Dev.rtcWrite
    generalize he : (begin_ t s.dev).setWch _ = e
    have hregs : Dev.Touches [0x40000] (begin_ t s.dev) e := Dev.Touches.of_regs (by rw [← he]; rfl)
    exact hregs.trans (Dev.Touches.wr e 1 0 0 (by decide))
  refine ⟨?_, ?_, ?_, ?_, htouch.settle hst⟩
  · rw [settle_wch _ _ hst]
    rfl
  · rw [settle_wch _ _ hst]
    rfl
  · rw [settle_wch _ _ hst]
    rfl
  · rw [settle_rd_clear _ _ hst _ _ _ (by decide) (by decide)]
    exact Dev.rd_wr_self _ Reg.WCH_STATUS_RTC_VALID 1 0 0 (by decide)

end

end Sys2Proof.Machine
end

section
/-!
PROOFS. Proofs/Dailies.lean: what a Daily measures and counts (R473, R474).
-/
namespace Sys2Proof.Machine

/-! ### The mean of the conversions -/

theorem sumN_eq_sum (l : List Nat) : sumN l = l.sum := by
  unfold sumN
  rw [List.sum_eq_foldl]

theorem rhu_natCast (x n : Nat) : rhu (x : Int) n = ((2 * x + n) / (2 * n) : Nat) := by
  unfold rhu
  rw [Int.fdiv_eq_ediv_of_nonneg _ (by positivity)]
  push_cast
  rfl

/-- The mean of the conversions of a channel. -/
def adcMean (conv : List Nat) : Int := rhu (sumN conv : Nat) (max conv.length 1)

theorem adcMean_bounds {conv : List Nat} (h : ∀ z ∈ conv, z < 4096) : 0 ≤ adcMean conv ∧ adcMean conv < 4096 := by
  have hsum : sumN conv ≤ conv.length * 4095 := by
    rw [sumN_eq_sum]
    exact (List.sum_le_card_nsmul conv 4095 fun z hz => Nat.le_of_lt_succ (h z hz)).trans_eq (by simp)
  unfold adcMean
  rw [rhu_natCast]
  refine ⟨Int.natCast_nonneg _, ?_⟩
  have hlt : (2 * sumN conv + max conv.length 1) / (2 * max conv.length 1) < 4096 := by
    rw [Nat.div_lt_iff_lt_mul (by omega)]
    omega
  exact_mod_cast hlt

theorem clampS_bounds (x : Int) : -4096 ≤ clampS 13 x ∧ clampS 13 x ≤ 4095 := by
  unfold clampS satS satTo
  norm_num
  split
  · norm_num
  · split
    · norm_num
    · omega

theorem clampS_id {x : Int} (h : -4096 ≤ x) (h' : x ≤ 4095) : clampS 13 x = x := by
  unfold clampS satS satTo
  norm_num
  rw [if_neg (by omega), if_neg (by omega)]

theorem rhu_scaled (x : Int) : rhu (256 * x) 256 = x := by
  unfold rhu
  rw [Int.fdiv_eq_ediv_of_nonneg _ (by norm_num)]
  omega

/-! ### One channel (R474) -/

/-- The filter of a channel after its conversions. -/
def Dev.adcFilter (d : Dev) (c : Nat) (conv : List Nat) : Int :=
  match d.wch.y.find c with
  | none => 256 * adcMean conv
  | some y => y + rhu (256 * adcMean conv - y) (2 ^ d.rd Reg.WCH_ADC_CFG_SHIFT)

theorem Dev.adcDaily_shows (d : Dev) {c : Nat} (hc : c < 8) (conv : List Nat) :
    (d.adcDaily c conv).rd Reg.WCH_ADC_RAW c = (adcMean conv).toNat % 4096 ∧ (d.adcDaily c conv).rd Reg.WCH_ADC_FILT c = (clampS 13 (rhu (d.adcFilter c conv) 256)).toNat := by
  have hhas : Reg.WCH_ADC_RAW.has c 0 = true ∧ Reg.WCH_ADC_FILT.has c 0 = true := ⟨Field.has_of hc (by decide), Field.has_of hc (by decide)⟩
  have hlt : (clampS 13 (rhu (d.adcFilter c conv) 256)).toNat < 4096 := by
    have h := clampS_bounds (rhu (d.adcFilter c conv) 256)
    omega
  unfold Dev.adcFilter adcMean at hlt
  unfold Dev.adcDaily Dev.adcFilter adcMean
  refine ⟨(Dev.rd_wr_free _ _ hhas.2 hhas.1 (by decide)).trans (Dev.rd_wr_self _ Reg.WCH_ADC_RAW _ c 0 (by decide)), ?_⟩
  exact (Dev.rd_wr_self _ Reg.WCH_ADC_FILT _ c 0 (by decide)).trans (Nat.mod_eq_of_lt hlt)

/-- What the conversions of a channel leave of the rest: the registers of the other channels, their filters, the shift, the counts and the instant. -/
structure Dev.AdcKeeps (d e : Dev) (ch : Nat) : Prop where
  touches : Dev.Touches ((List.range 8).map fun c => 0x40060 + 4 * c) d e
  raw : e.rd Reg.WCH_ADC_RAW ch = d.rd Reg.WCH_ADC_RAW ch
  filt : e.rd Reg.WCH_ADC_FILT ch = d.rd Reg.WCH_ADC_FILT ch
  y : e.wch.y.find ch = d.wch.y.find ch

/-- What the conversions of any channel leave. -/
structure Dev.AdcStep (d e : Dev) : Prop where
  touches : Dev.Touches ((List.range 8).map fun c => 0x40060 + 4 * c) d e
  stReq : e.stReq = d.stReq
  mode : e.mode = d.mode
  daily : e.wch.daily = d.wch.daily

theorem Dev.AdcStep.refl (d : Dev) : d.AdcStep d := ⟨Dev.Touches.refl _ _, rfl, rfl, rfl⟩

theorem Dev.AdcStep.trans {a b c : Dev} (h : a.AdcStep b) (k : b.AdcStep c) : a.AdcStep c :=
  ⟨h.touches.trans k.touches, k.stReq.trans h.stReq, k.mode.trans h.mode, k.daily.trans h.daily⟩

theorem Dev.AdcStep.wr (d : Dev) {f : Field} (v i j : Nat) (h : f.addr i j ∈ (List.range 8).map fun c => 0x40060 + 4 * c) : d.AdcStep (d.wr f v i j) :=
  ⟨Dev.Touches.wr d v i j h, rfl, rfl, rfl⟩

/-- The device with the filter of a channel replaced. -/
def Dev.withFilter (d : Dev) (c : Nat) (y : Int) : Dev := d.setWch { d.wch with y := d.wch.y.ins c y }

theorem Dev.adcDaily_eq (d : Dev) (c : Nat) (conv : List Nat) : d.adcDaily c conv =
    ((d.withFilter c (d.adcFilter c conv)).wr Reg.WCH_ADC_RAW (adcMean conv).toNat c).wr Reg.WCH_ADC_FILT (clampS 13 (rhu (d.adcFilter c conv) 256)).toNat c := rfl

theorem Dev.adcStep_adcDaily (d : Dev) {c : Nat} (hc : c < 8) (conv : List Nat) : d.AdcStep (d.adcDaily c conv) := by
  have hmem : 0x40060 + 4 * c + 0 * 0 ∈ (List.range 8).map fun c => 0x40060 + 4 * c := List.mem_map.2 ⟨c, List.mem_range.2 hc, by omega⟩
  rw [Dev.adcDaily_eq]
  generalize d.adcFilter c conv = y
  have hf : d.AdcStep (d.withFilter c y) := ⟨Dev.Touches.of_regs rfl, rfl, rfl, rfl⟩
  exact (hf.trans (Dev.AdcStep.wr _ (f := Reg.WCH_ADC_RAW) _ c 0 hmem)).trans (Dev.AdcStep.wr _ (f := Reg.WCH_ADC_FILT) _ c 0 hmem)

theorem Dev.adcKeeps_adcDaily (d : Dev) {c ch : Nat} (hc : c < 8) (hne : ch ≠ c) (conv : List Nat) : d.AdcKeeps (d.adcDaily c conv) ch := by
  have haddr : ∀ f : Field, f.addr ch 0 = 0x40060 + 4 * ch → (d.adcDaily c conv).word (f.addr ch 0) = d.word (f.addr ch 0) := fun f hf => by
    rw [Dev.adcDaily_eq, hf]
    generalize d.adcFilter c conv = y
    refine (Dev.word_wr_ne _ Reg.WCH_ADC_FILT _ c 0 ?_).trans ((Dev.word_wr_ne _ Reg.WCH_ADC_RAW _ c 0 ?_).trans rfl)
    · have h : Reg.WCH_ADC_FILT.addr c 0 = 0x40060 + 4 * c + 0 * 0 := rfl
      omega
    · have h : Reg.WCH_ADC_RAW.addr c 0 = 0x40060 + 4 * c + 0 * 0 := rfl
      omega
  refine ⟨(Dev.adcStep_adcDaily d hc conv).touches, Dev.rd_congr (haddr _ ?_), Dev.rd_congr (haddr _ ?_), ?_⟩
  · show 0x40060 + 4 * ch + 0 * 0 = _
    omega
  · show 0x40060 + 4 * ch + 0 * 0 = _
    omega
  · rw [Dev.adcDaily_eq]
    generalize d.adcFilter c conv = y
    exact Tbl.find_ins_ne _ _ hne

/-! ### All channels -/

section
variable (adc : List (List Nat))

theorem Dev.adcStep_foldl (cs : List Nat) (h : ∀ c ∈ cs, c < 8) (d : Dev) : d.AdcStep (cs.foldl (fun (d : Dev) c => d.adcDaily c (adc.getD c [])) d) := by
  induction cs generalizing d with
  | nil => exact Dev.AdcStep.refl d
  | cons c cs ih => exact (Dev.adcStep_adcDaily d (h c List.mem_cons_self) _).trans (ih (fun x hx => h x (List.mem_cons_of_mem _ hx)) _)

theorem Dev.adcKeeps_foldl {ch : Nat} (cs : List Nat) (h : ∀ c ∈ cs, c < 8) (hn : ch ∉ cs) (d : Dev) : d.AdcKeeps (cs.foldl (fun (d : Dev) c => d.adcDaily c (adc.getD c [])) d) ch := by
  induction cs generalizing d with
  | nil => exact ⟨Dev.Touches.refl _ _, rfl, rfl, rfl⟩
  | cons c cs ih =>
    rw [List.mem_cons, not_or] at hn
    have h1 := Dev.adcKeeps_adcDaily d (h c List.mem_cons_self) hn.1 (adc.getD c [])
    have h2 := ih (fun x hx => h x (List.mem_cons_of_mem _ hx)) hn.2 (d.adcDaily c (adc.getD c []))
    exact ⟨h1.touches.trans h2.touches, h2.raw.trans h1.raw, h2.filt.trans h1.filt, h2.y.trans h1.y⟩

/-- A channel among those that are converted shows its mean and its filter. -/
theorem Dev.adc_foldl_shows {ch : Nat} {cs : List Nat} (h : ∀ c ∈ cs, c < 8) (hd : cs.Nodup) (hm : ch ∈ cs) (d : Dev) :
    (cs.foldl (fun (d : Dev) c => d.adcDaily c (adc.getD c [])) d).rd Reg.WCH_ADC_RAW ch = (adcMean (adc.getD ch [])).toNat % 4096 ∧
    (cs.foldl (fun (d : Dev) c => d.adcDaily c (adc.getD c [])) d).rd Reg.WCH_ADC_FILT ch = (clampS 13 (rhu (d.adcFilter ch (adc.getD ch [])) 256)).toNat := by
  obtain ⟨pre, post, rfl⟩ := List.append_of_mem hm
  rw [List.nodup_append, List.nodup_cons] at hd
  obtain ⟨-, ⟨hpost, -⟩, hpre⟩ := hd
  have hbefore := Dev.adcKeeps_foldl adc (ch := ch) pre (fun c hc => h c (by simp [hc])) (fun hc => hpre ch hc ch (by simp) rfl) d
  rw [List.foldl_append, List.foldl_cons]
  generalize pre.foldl (fun (d : Dev) c => d.adcDaily c (adc.getD c [])) d = e at hbefore
  have hafter := Dev.adcKeeps_foldl adc (ch := ch) post (fun c hc => h c (by simp [hc])) hpost (e.adcDaily ch (adc.getD ch []))
  have hshown := Dev.adcDaily_shows e (h ch hm) (adc.getD ch [])
  have hfilter : e.adcFilter ch (adc.getD ch []) = d.adcFilter ch (adc.getD ch []) := by
    unfold Dev.adcFilter
    rw [hbefore.y, hbefore.touches.rd (f := Reg.WCH_ADC_CFG_SHIFT) (by decide) (by decide)]
  rw [hafter.raw, hafter.filt, ← hfilter]
  exact hshown

end

end Sys2Proof.Machine
end

section
/-!
PROOFS. Proofs/WatchObligation.lean: a Daily as a command (R473), the instructions of the debug port (R507), and what the island and the port do together.
-/
namespace Sys2Proof.Machine

/-! ### A Daily (R473) -/

/-- The Daily instant that the RTC has reached. -/
def Dev.dailyInst (d : Dev) : Nat := d.rtcNow / 1000000000 / d.dailyInt * d.dailyInt

/-- The device with a Daily instant taken. -/
def Dev.dailyTaken (d : Dev) : Dev := d.setWch { d.wch with daily := some d.dailyInst }

/-- The device of a Daily that has begun. -/
def Dev.dailyBegun (d : Dev) : Dev :=
  (d.dailyTaken.fresh.1.setWch { d.dailyTaken.fresh.1.wch with busy := d.own + d.dailyTaken.fresh.2 % 5000001 }).bump Reg.WCH_DAILY_CNT_RUNS

/-- The rest of a Daily, after the conversions. -/
def Dev.dailyRest (d : Dev) (pins : Nat) (t30 t31 : Int) : Dev :=
  let d := d.setWch { d.wch with pins := (pins ^^^ d.rd Reg.WCH_WAKE_CFG_POL) % 16 }
  let d := if d.mode == .watch then (List.range 4).foldl (fun (d : Dev) k => d.wr Reg.WCH_TONE_TONE 0 k) d else d
  let d := (List.range 16).foldl Dev.ruleEval d
  if d.mode == .watch then d.rtcCompensate t30 t31 else d

theorem Dev.dailyRun_skips {d : Dev} (adc : List (List Nat)) (pins : Nat) (t30 t31 : Int) (hm : d.mode = .watch ∨ d.mainOn = true) (hi : d.wch.daily ≠ some d.dailyInst)
    (hb : d.own < d.wch.busy) : d.dailyRun adc pins t30 t31 = d.dailyTaken.bump Reg.WCH_DAILY_CNT_SKIPPED := by
  have hno : ¬ (d.mode == .off || d.mode == .standby || d.wch.daily == some d.dailyInst) = true := by
    unfold Dev.mainOn at hm
    cases hd : d.mode <;> simp [DevState.stateCode, hd, hi] at hm ⊢
  unfold Dev.dailyRun
  exact (if_neg hno).trans (if_pos hb)

theorem Dev.dailyRun_runs {d : Dev} (adc : List (List Nat)) (pins : Nat) (t30 t31 : Int) (hm : d.mode = .watch ∨ d.mainOn = true) (hi : d.wch.daily ≠ some d.dailyInst)
    (hb : d.wch.busy ≤ d.own) : d.dailyRun adc pins t30 t31 =
      ((setBits (d.dailyBegun.rd Reg.WCH_ADC_CFG_ADC_EN) 8).foldl (fun (d : Dev) c => d.adcDaily c (adc.getD c [])) d.dailyBegun).dailyRest pins t30 t31 := by
  have hno : ¬ (d.mode == .off || d.mode == .standby || d.wch.daily == some d.dailyInst) = true := by
    unfold Dev.mainOn at hm
    cases hd : d.mode <;> simp [DevState.stateCode, hd, hi] at hm ⊢
  have hb' : ¬ d.dailyTaken.own < d.dailyTaken.wch.busy := not_lt.2 hb
  unfold Dev.dailyRun
  exact (if_neg hno).trans (if_neg hb')

/-- The words that a Daily writes after its conversions. -/
def dailyWords : List Nat := 0x40000 :: 0x40004 :: ((List.range 16).map (fun r => 0x40080 + 4 * r) ++ (List.range 4).map (fun k => 0x40040 + 4 * k))

/-- What the rest of a Daily leaves: the channels, the instant, the count. -/
structure Dev.DailyStep (d e : Dev) : Prop where
  touches : Dev.Touches dailyWords d e
  stReq : e.stReq = d.stReq
  daily : e.wch.daily = d.wch.daily

theorem Dev.DailyStep.refl (d : Dev) : d.DailyStep d := ⟨Dev.Touches.refl _ _, rfl, rfl⟩

theorem Dev.DailyStep.trans {a b c : Dev} (h : a.DailyStep b) (k : b.DailyStep c) : a.DailyStep c :=
  ⟨h.touches.trans k.touches, k.stReq.trans h.stReq, k.daily.trans h.daily⟩

theorem Dev.DailyStep.ite {d a b : Dev} (c : Prop) [Decidable c] (ha : d.DailyStep a) (hb : d.DailyStep b) : d.DailyStep (if c then a else b) := by
  split
  · exact ha
  · exact hb

theorem Dev.DailyStep.foldl {f : Dev → Nat → Dev} (ks : List Nat) (hf : ∀ (x : Dev) k, k ∈ ks → x.DailyStep (f x k)) (d : Dev) : d.DailyStep (ks.foldl f d) := by
  induction ks generalizing d with
  | nil => exact Dev.DailyStep.refl d
  | cons k ks ih => exact (hf d k List.mem_cons_self).trans (ih (fun x j hj => hf x j (List.mem_cons_of_mem _ hj)) _)

theorem Dev.RuleStep.dailyStep {d e : Dev} (h : d.RuleStep e) : d.DailyStep e :=
  ⟨h.touches.mono (fun a ha => by
    simp only [dailyWords, List.mem_cons, List.mem_append] at ha ⊢
    tauto), h.stReq, h.daily⟩

theorem Dev.dailyStep_tone (d : Dev) {k : Nat} (hk : k < 4) : d.DailyStep (d.wr Reg.WCH_TONE_TONE 0 k) := by
  have hmem : 0x40040 + 4 * k + 0 * 0 ∈ dailyWords := by
    simp only [dailyWords, List.mem_cons, List.mem_append, List.mem_map, List.mem_range]
    exact .inr (.inr (.inr ⟨k, hk, by omega⟩))
  exact ⟨Dev.Touches.wr d (f := Reg.WCH_TONE_TONE) 0 k 0 hmem, rfl, rfl⟩

theorem Dev.dailyStep_dailyRest (d : Dev) (pins : Nat) (t30 t31 : Int) : d.DailyStep (d.dailyRest pins t30 t31) := by
  unfold Dev.dailyRest
  extract_lets watch seen cleared ruled
  have h1 : d.DailyStep seen := ⟨Dev.Touches.of_regs rfl, rfl, rfl⟩
  clear_value seen
  have h2 : seen.DailyStep cleared := by
    simp only [cleared]
    split
    · exact Dev.DailyStep.foldl _ (fun x k hk => x.dailyStep_tone (List.mem_range.1 hk)) _
    · exact Dev.DailyStep.refl _
  clear_value cleared
  have h3 : cleared.DailyStep ruled := (Dev.RuleStep.foldl _ (fun x r hr => x.ruleStep_ruleEval (List.mem_range.1 hr)) _).dailyStep
  clear_value ruled
  refine ((h1.trans h2).trans h3).trans ?_
  split
  · exact ⟨Dev.Touches.of_regs rfl, rfl, rfl⟩
  · exact Dev.DailyStep.refl _

theorem Dev.dailyBegun_shows (d : Dev) :
    d.dailyBegun.rd Reg.WCH_DAILY_CNT_RUNS = min (d.rd Reg.WCH_DAILY_CNT_RUNS + 1) (2 ^ 24 - 1) ∧ d.dailyBegun.wch.daily = some d.dailyInst ∧ d.dailyBegun.stReq = d.stReq ∧
      d.dailyBegun.wch.y = d.wch.y ∧ Dev.Touches [0x40034] d d.dailyBegun := by
  unfold Dev.dailyBegun
  generalize he : d.dailyTaken.fresh.1.setWch _ = e
  have hk : e.regs = d.regs ∧ e.stReq = d.stReq ∧ e.wch.daily = some d.dailyInst ∧ e.wch.y = d.wch.y := by
    rw [← he]
    exact ⟨rfl, rfl, rfl, rfl⟩
  obtain ⟨hregs, hst, hdaily, hy⟩ := hk
  have hrd : e.rd Reg.WCH_DAILY_CNT_RUNS = d.rd Reg.WCH_DAILY_CNT_RUNS := Dev.rd_congr (Dev.word_congr hregs _)
  refine ⟨?_, hdaily, hst, hy, (Dev.Touches.of_regs hregs).trans (Dev.Touches.wr e _ 0 0 (by decide))⟩
  rw [← hrd]
  exact Dev.rd_bump_self e Reg.WCH_DAILY_CNT_RUNS 1 0 0 (by decide)

section
variable {s : State} {t pins : Nat} {adc : List (List Nat)} {t30 t31 : Int} (hm : s.dev.mode = .watch ∨ s.dev.mainOn = true)
  (hi : s.dev.wch.daily ≠ some (begin_ t s.dev).dailyInst)
include hm hi

theorem ends_daily_skips (hb : s.dev.ownAt t < s.dev.wch.busy) : Ends (.daily t adc pins t30 t31) s fun d =>
    d.rd Reg.WCH_DAILY_CNT_SKIPPED = min (s.dev.rd Reg.WCH_DAILY_CNT_SKIPPED + 1) 255 ∧ d.wch.daily = some (begin_ t s.dev).dailyInst ∧ s.dev.OnlyWrites d [0x40034] := by
  refine ends_of (exec_daily t adc pins t30 t31 s) ?_
  rw [Dev.dailyRun_skips (d := begin_ t s.dev) adc pins t30 t31 hm hi hb]
  generalize he : (begin_ t s.dev).dailyTaken = e
  have hk : e.regs = s.dev.regs ∧ e.stReq = [] ∧ e.wch.daily = some (begin_ t s.dev).dailyInst := by
    rw [← he]
    exact ⟨rfl, rfl, rfl⟩
  obtain ⟨hregs, hst, hdaily⟩ := hk
  have hrd : e.rd Reg.WCH_DAILY_CNT_SKIPPED = s.dev.rd Reg.WCH_DAILY_CNT_SKIPPED := Dev.rd_congr (Dev.word_congr hregs _)
  have hcalm : (e.bump Reg.WCH_DAILY_CNT_SKIPPED).stReq = [] := hst
  have htouch : Dev.Touches [0x40034] (begin_ t s.dev) (e.bump Reg.WCH_DAILY_CNT_SKIPPED) :=
    Dev.Touches.trans (Dev.Touches.of_regs (d := begin_ t s.dev) hregs) (Dev.Touches.wr e (f := Reg.WCH_DAILY_CNT_SKIPPED) _ 0 0 (by decide))
  refine ⟨?_, ?_, htouch.settle hcalm⟩
  · rw [settle_rd_clear _ _ hcalm _ _ _ (by decide) (by decide), ← hrd]
    exact Dev.rd_bump_self e Reg.WCH_DAILY_CNT_SKIPPED 1 0 0 (by decide)
  · rw [settle_wch _ _ hcalm]
    exact hdaily

theorem ends_daily_runs (hb : s.dev.wch.busy ≤ s.dev.ownAt t) : Ends (.daily t adc pins t30 t31) s fun d =>
    d.rd Reg.WCH_DAILY_CNT_RUNS = min (s.dev.rd Reg.WCH_DAILY_CNT_RUNS + 1) (2 ^ 24 - 1) ∧ d.wch.daily = some (begin_ t s.dev).dailyInst ∧
      ∀ ch : Fin 8, bitAt (s.dev.rd Reg.WCH_ADC_CFG_ADC_EN) ch = true →
        d.rd Reg.WCH_ADC_RAW ch = (adcMean (adc.getD ch [])).toNat % 4096 ∧ d.rd Reg.WCH_ADC_FILT ch = (clampS 13 (rhu (s.dev.adcFilter ch (adc.getD ch [])) 256)).toNat := by
  refine ends_of (exec_daily t adc pins t30 t31 s) ?_
  rw [Dev.dailyRun_runs (d := begin_ t s.dev) adc pins t30 t31 hm hi hb]
  obtain ⟨hruns, hdaily, hst, hy, htouch⟩ := (begin_ t s.dev).dailyBegun_shows
  generalize (begin_ t s.dev).dailyBegun = b at hruns hdaily hst hy htouch
  have hcs : ∀ c ∈ setBits (b.rd Reg.WCH_ADC_CFG_ADC_EN) 8, c < 8 := fun c hc => List.mem_range.1 (List.mem_of_mem_filter hc)
  have hstep := Dev.adcStep_foldl adc _ hcs b
  have hshows := fun (ch : Fin 8) (h : ch.val ∈ setBits (b.rd Reg.WCH_ADC_CFG_ADC_EN) 8) => Dev.adc_foldl_shows adc hcs (List.Nodup.filter _ List.nodup_range) h b
  generalize (setBits (b.rd Reg.WCH_ADC_CFG_ADC_EN) 8).foldl (fun (d : Dev) c => d.adcDaily c (adc.getD c [])) b = e at hstep hshows
  have hrest := e.dailyStep_dailyRest pins t30 t31
  generalize e.dailyRest pins t30 t31 = f at hrest
  have hcalm : f.stReq = [] := (hrest.stReq.trans hstep.stReq).trans hst
  have hen : b.rd Reg.WCH_ADC_CFG_ADC_EN = s.dev.rd Reg.WCH_ADC_CFG_ADC_EN := htouch.rd (by decide) (by decide)
  refine ⟨?_, ?_, fun ch hch => ?_⟩
  · rw [settle_rd_clear _ _ hcalm _ _ _ (by decide) (by decide), hrest.touches.rd (by decide) (by decide), hstep.touches.rd (by decide) (by decide), hruns]
    rfl
  · rw [settle_wch _ _ hcalm, hrest.daily, hstep.daily, hdaily]
  · have hmem : ch.val ∈ setBits (b.rd Reg.WCH_ADC_CFG_ADC_EN) 8 := by
      unfold setBits
      rw [hen, List.mem_filter]
      exact ⟨List.mem_range.2 ch.isLt, hch⟩
    obtain ⟨hraw, hfilt⟩ := hshows ch hmem
    have hfilter : b.adcFilter ch (adc.getD ch []) = s.dev.adcFilter ch (adc.getD ch []) := by
      have hshift : b.rd Reg.WCH_ADC_CFG_SHIFT = s.dev.rd Reg.WCH_ADC_CFG_SHIFT := htouch.rd (by decide) (by decide)
      unfold Dev.adcFilter
      rw [hy, hshift]
      rfl
    have haddr : ∀ n : Fin 8, Reg.WCH_ADC_RAW.addr n 0 ∉ dailyWords ∧ Reg.WCH_ADC_RAW.addr n 0 ∉ evWords ∧ Reg.WCH_ADC_FILT.addr n 0 ∉ dailyWords ∧ Reg.WCH_ADC_FILT.addr n 0 ∉ evWords := by
      decide
    obtain ⟨h1, h2, h3, h4⟩ := haddr ch
    rw [settle_rd_clear _ _ hcalm _ _ _ (Field.has_of ch.isLt (by decide)) (by decide), settle_rd_clear _ _ hcalm _ _ _ (Field.has_of ch.isLt (by decide)) (by decide),
      hrest.touches.rd h1 h2, hrest.touches.rd h3 h4, hraw, hfilt, hfilter]
    exact ⟨rfl, rfl⟩

end

/-! ### The debug port (R507) -/

theorem Dev.scanSafe_ins (d : Dev) : d.scanSafe.jtag.ins = if d.mode = .dark then d.jtag.ins else d.jtag.ins.safe := by
  unfold Dev.scanSafe
  split
  · rfl
  · rfl

theorem settle_jtag (o d : Dev) (h : d.stReq = []) : (settle o d).jtag.ins = if o.mode = .dark then d.jtag.ins else d.jtag.ins.safe := by
  rw [settle_calm o d h, Dev.drivePins_jtag, Dev.wr_jtag, Dev.scanSafe_ins]
  rfl

/-- An instruction of the debug port that is in force, with what the port shifts out. -/
def Dev.Shifts (o d : Dev) (i : JtagIns) (n : Nat) : Prop := d.jtag.ins = i ∧ d.out = [.jtag n] ∧ o.OnlyWrites d []

theorem ends_jtag {c : Instr} {s : State} {t : Nat} {f : Dev → Dev} {i : JtagIns} {n : Nat} (hc : exec c s = s.run t f) (hst : (f (begin_ t s.dev)).stReq = [])
    (hr : (f (begin_ t s.dev)).regs = s.dev.regs) (ho : (f (begin_ t s.dev)).out = [.jtag n]) (hi : (f (begin_ t s.dev)).jtag.ins = i) (hs : s.dev.mode = .dark ∨ i.safe = i) :
    Ends c s fun d => s.dev.Shifts d i n := by
  refine ends_of hc ?_
  generalize f (begin_ t s.dev) = e at *
  have htouch : Dev.Touches [] (begin_ t s.dev) e := Dev.Touches.of_regs hr
  refine ⟨?_, (settle_out _ _ hst).trans ho, htouch.settle hst⟩
  rw [settle_jtag _ _ hst, hi]
  split
  case isTrue => rfl
  case isFalse h => exact hs.resolve_left h

/-- The device with an instruction in force at its debug port. -/
def Dev.withIns (d : Dev) (i : JtagIns) : Dev := { d with jtag := { ins := i } }

theorem Dev.jtagSet_on {d : Dev} (h : d.mainOn = true) (i : JtagIns) : d.jtagSet i = d.withIns i := if_pos h

theorem Dev.jtagOut_on {d : Dev} (h : d.mainOn = true) (n : Nat) : d.jtagOut n = d.emit (.jtag n) := if_pos h

/-- The device with an instruction in force and a value shifted out. -/
def Dev.shifting (d : Dev) (i : JtagIns) (n : Nat) : Dev := (d.withIns i).emit (.jtag n)

theorem Dev.jtagSet_out {d : Dev} (h : d.mainOn = true) (i : JtagIns) (n : Nat) : (d.jtagSet i).jtagOut n = d.shifting i n := by
  rw [Dev.jtagSet_on h]
  exact Dev.jtagOut_on (d := d.withIns i) h n

theorem ends_shifting {c : Instr} {s : State} {t : Nat} {f : Dev → Dev} {i : JtagIns} {n : Nat} {e : Dev} (hc : exec c s = s.run t f) (hf : f (begin_ t s.dev) = e.shifting i n)
    (he : e.stReq = [] ∧ e.out = [] ∧ e.regs = s.dev.regs) (hs : s.dev.mode = .dark ∨ i.safe = i) : Ends c s fun d => s.dev.Shifts d i n := by
  obtain ⟨hst, hout, hregs⟩ := he
  refine ends_jtag hc ?_ ?_ ?_ ?_ hs
  · rw [hf]
    exact hst
  · rw [hf]
    exact hregs
  · rw [hf]
    exact congrArg (· ++ _) hout
  · rw [hf]
    rfl

/-- The device with the level of DBG_EN noted. -/
def Dev.dbgLevel (d : Dev) (b : Bool) : Dev := { d with supply := { d.supply with dbgEn := b } }

theorem Dev.jtagDrive_dark {d : Dev} {i : JtagIns} (hm : d.mode = .dark) (hi : i ≠ .clamp) :
    d.jtagDrive i true = ((d.dbgLevel true).fresh.1).shifting i (d.dbgLevel true).fresh.2 := by
  have hon : (d.dbgLevel true).mainOn = true := by
    unfold Dev.mainOn
    rw [show (d.dbgLevel true).mode = .dark from hm]
    rfl
  have hdark : (true && (d.dbgLevel true).mode == .dark) = true := by
    rw [show (d.dbgLevel true).mode = .dark from hm]
    rfl
  have hdrive : d.jtagDrive i true = if i == .clamp then ((d.dbgLevel true).jtagSet i).jtagOut 0 else
      (((d.dbgLevel true).jtagSet i).fresh.1).jtagOut ((d.dbgLevel true).jtagSet i).fresh.2 := if_pos hdark
  rw [hdrive, if_neg (by simpa using hi), Dev.jtagSet_on hon]
  exact Dev.jtagOut_on (d := ((d.dbgLevel true).withIns i).fresh.1) hon _

theorem Dev.jtagDrive_clamp {d : Dev} (hm : d.mode = .dark) : d.jtagDrive .clamp true = (d.dbgLevel true).shifting .clamp 0 := by
  have hon : (d.dbgLevel true).mainOn = true := by
    unfold Dev.mainOn
    rw [show (d.dbgLevel true).mode = .dark from hm]
    rfl
  have hdark : (true && (d.dbgLevel true).mode == .dark) = true := by
    rw [show (d.dbgLevel true).mode = .dark from hm]
    rfl
  have hdrive : d.jtagDrive .clamp true = if JtagIns.clamp == .clamp then ((d.dbgLevel true).jtagSet .clamp).jtagOut 0 else
      (((d.dbgLevel true).jtagSet .clamp).fresh.1).jtagOut ((d.dbgLevel true).jtagSet .clamp).fresh.2 := if_pos hdark
  rw [hdrive, if_pos (by decide)]
  exact Dev.jtagSet_out hon _ _

theorem Dev.jtagDrive_refused {d : Dev} {i : JtagIns} {b : Bool} (hon : d.mainOn = true) (h : b = false ∨ d.mode ≠ .dark) : d.jtagDrive i b = (d.dbgLevel b).shifting .bypass 0 := by
  have hno : ¬ (b && (d.dbgLevel b).mode == .dark) = true := by
    have hmode : (d.dbgLevel b).mode = d.mode := rfl
    rw [hmode]
    obtain h | h := h <;> simp [h]
  have hdrive : d.jtagDrive i b = (d.dbgLevel b).jtagBypass := if_neg hno
  rw [hdrive]
  exact Dev.jtagSet_out (d := d.dbgLevel b) hon _ _

section
variable {s : State} {t : Nat} {b : Bool}

theorem ends_jtagRefused {c : Instr} {i : JtagIns} (hc : exec c s = s.run t fun d => d.jtagDrive i b) (hon : s.dev.mainOn = true) (h : b = false ∨ s.dev.mode ≠ .dark) :
    Ends c s fun d => s.dev.Shifts d .bypass 0 :=
  ends_shifting hc (Dev.jtagDrive_refused (d := begin_ t s.dev) hon h) ⟨rfl, rfl, rfl⟩ (.inr rfl)

theorem ends_jtagDriven {c : Instr} {i : JtagIns} (hc : exec c s = s.run t fun d => d.jtagDrive i b) (hb : b = true) (hm : s.dev.mode = .dark) (hi : i ≠ .clamp) :
    Ends c s fun d => ∃ n, s.dev.Shifts d i n := by
  subst hb
  exact (ends_shifting hc (Dev.jtagDrive_dark (d := begin_ t s.dev) hm hi) ⟨rfl, rfl, rfl⟩ (.inl hm)).imp fun _ h => ⟨_, h⟩

theorem ends_jtagClamp (hb : b = true) (hm : s.dev.mode = .dark) : Ends (.clamp t b) s fun d => s.dev.Shifts d .clamp 0 := by
  subst hb
  exact ends_shifting (exec_clamp t true s) (Dev.jtagDrive_clamp (d := begin_ t s.dev) hm) ⟨rfl, rfl, rfl⟩ (.inl hm)

end

/-- Settles O57, by the source, the Daily and the instruction that the command brings. -/
theorem watchIslandAndDebugPort : Obligations.WatchIslandAndDebugPort := by
  intro s t req pins y pin port ch adc t30 t31 v dbg
  refine ⟨fun hm => ⟨ends_wakePin hm, ends_rtcAlarm hm⟩, ends_wchRelease v, ends_vbatLow, ends_toneDetect, fun hm hi => ⟨ends_daily_skips hm hi, fun hb => ?_⟩,
    ends_rtcCompensation, ends_rtcUpdate, fun hon => ?_⟩
  · refine (ends_daily_runs (adc := adc) (pins := pins) (t30 := t30) (t31 := t31) hm hi hb).imp fun d hd => ?_
    obtain ⟨hruns, hdaily, hch⟩ := hd
    refine ⟨hruns, hdaily, fun hen hconv => ?_⟩
    obtain ⟨hraw, hfilt⟩ := hch ch hen
    obtain ⟨hmean0, hmean⟩ := adcMean_bounds hconv
    refine ⟨?_, fun hy => ?_, fun hy => ?_⟩
    · exact hraw.trans (Nat.mod_eq_of_lt (by omega))
    · have hf : s.dev.adcFilter ch (adc.getD ch []) = 256 * adcMean (adc.getD ch []) := by
        unfold Dev.adcFilter
        rw [hy]
      rw [hfilt, hf, rhu_scaled, clampS_id (by omega) (by omega)]
      rfl
    · have hf : s.dev.adcFilter ch (adc.getD ch []) = y + rhu (256 * adcMean (adc.getD ch []) - y) (2 ^ s.dev.rd Reg.WCH_ADC_CFG_SHIFT) := by
        unfold Dev.adcFilter
        rw [show s.dev.wch.y.find ch = some (y : Int) from hy]
      rw [hfilt, hf]
      rfl
  · have hon' : (begin_ t s.dev).mainOn = true := hon
    have hall : ∀ {c : Instr} {i : JtagIns} {n : Nat}, Ends c s (fun d => s.dev.Shifts d i n) →
        Ends c s fun d => (d.jtag.ins = i ∧ (∃ n, d.out = [.jtag n]) ∧ s.dev.OnlyWrites d []) ∧ d.out = [.jtag n] := fun h => h.imp fun _ ⟨h1, h2, h3⟩ => ⟨⟨h1, ⟨_, h2⟩, h3⟩, h2⟩
    have hsome : ∀ {c : Instr} {i : JtagIns}, Ends c s (fun d => ∃ n, s.dev.Shifts d i n) →
        Ends c s fun d => d.jtag.ins = i ∧ (∃ n, d.out = [.jtag n]) ∧ s.dev.OnlyWrites d [] := fun h => h.imp fun _ ⟨n, h1, h2, h3⟩ => ⟨h1, ⟨n, h2⟩, h3⟩
    refine ⟨hall (ends_shifting (exec_bypass t s) (Dev.jtagSet_out hon' _ _) ⟨rfl, rfl, rfl⟩ (.inr rfl)),
      hall (ends_shifting (exec_idcode t s) (Dev.jtagSet_out hon' _ _) ⟨rfl, rfl, rfl⟩ (.inr rfl)), ?_, fun hd => ?_, fun hd => ?_⟩
    · have hf : (begin_ t s.dev).jtagSample = (begin_ t s.dev).fresh.1.shifting .sample (begin_ t s.dev).fresh.2 := Dev.jtagSet_out (d := (begin_ t s.dev).fresh.1) hon _ _
      exact hsome ((ends_shifting (exec_samplePreload t s) hf ⟨rfl, rfl, rfl⟩ (.inr rfl)).imp fun _ h => ⟨_, h⟩)
    · exact ⟨hsome (ends_jtagDriven (exec_extest t dbg s) hd.1 hd.2 (by decide)), hall (ends_jtagClamp hd.1 hd.2), hsome (ends_jtagDriven (exec_intest t dbg s) hd.1 hd.2 (by decide))⟩
    · have hback : ∀ {c : Instr} {i : JtagIns}, exec c s = s.run t (fun d => d.jtagDrive i dbg) →
          Ends c s fun d => d.jtag.ins = .bypass ∧ (∃ n, d.out = [.jtag n]) ∧ s.dev.OnlyWrites d [] := fun hc => hsome ((ends_jtagRefused hc hon hd).imp fun _ h => ⟨_, h⟩)
      exact ⟨hback (exec_extest t dbg s), hback (exec_clamp t dbg s), hback (exec_intest t dbg s)⟩

end Sys2Proof.Machine
end

section
/-!
PROOFS. Proofs/TagRegisters.lean: the RF write sequence of the tag and the bit that shows it (R488).
-/
namespace Sys2Proof.Machine

/-- What holds at the end of a command holds of the settled device that its function gives. -/
theorem Ends.holds {c : Instr} {s : State} {t : Nat} {f : Dev → Dev} {p : Dev → Prop} (h : Ends c s p) (hc : exec c s = s.run t f) : p (settle s.dev (f (begin_ t s.dev))) := by
  obtain ⟨u, hu, -, hp⟩ := h
  rw [hc] at hu
  cases hu
  exact hp

/-- After reset, with an RF write sequence open that `PST_STATUS.TAG_RFW` does not show. -/
def hiddenRfWrite : State := { State.reset with dev := State.reset.dev.setTag { State.reset.dev.pst.tag with rfOpen := true } }

/-- A write of a block of page 30 in a sequence that is open already leaves `TAG_RFW` as it is. -/
theorem hiddenRfWrite_rfw : (settle hiddenRfWrite.dev ((begin_ 0 hiddenRfWrite.dev).tagWrite 0x31 none false 3840 [])).rd Reg.PST_STATUS_TAG_RFW = 0 := by
  decide +kernel

/-- Refutes O59: a write to page 30 sets `TAG_RFW` only where it opens the write sequence; in a state whose sequence is open while the bit reads 0, it stays 0. -/
theorem not_tagAnswersAndCommits : ¬ Obligations.TagAnswersAndCommits := by
  intro h
  obtain ⟨-, hwrite, -⟩ := h hiddenRfWrite 0 0 0x31 3840 0 0 0 0 none false false 0 [] 0
  obtain ⟨-, -, -, hshown, -⟩ := ((hwrite (.inr rfl) rfl).1 (.inl rfl)).holds (exec_tagRfWrite 0 0x31 none false 3840 [] hiddenRfWrite)
  exact absurd (hiddenRfWrite_rfw.symm.trans hshown) (by decide)

end Sys2Proof.Machine
end

section
/-!
PROOFS. Proofs/StoreEvents.lean: what an event leaves of the persistent store (R484): all but the black-box buffer, its counters, the event counts and the tag's ring.
-/
namespace Sys2Proof.Machine

/-- A store to which only events were noted: records at the end of the black-box buffer, counts, entries of the tag's ring. -/
def Pst.Notes (p q : Pst) : Prop :=
  (∃ new, q.bbBuf = p.bbBuf ++ new) ∧ q = { p with bbBuf := q.bbBuf, bbNext := q.bbNext, bbLost := q.bbLost, bbDropEv := q.bbDropEv, sev := q.sev, tag := q.tag }

namespace Pst.Notes

theorem refl (p : Pst) : p.Notes p := ⟨⟨[], (List.append_nil _).symm⟩, rfl⟩

theorem trans {p q r : Pst} (h : p.Notes q) (k : q.Notes r) : p.Notes r := by
  obtain ⟨⟨l, hl⟩, hq⟩ := h
  obtain ⟨⟨m, hm⟩, hr⟩ := k
  refine ⟨⟨l ++ m, by rw [hm, hl, List.append_assoc]⟩, ?_⟩
  rw [hr, hq]

section
variable {p q : Pst} (h : p.Notes q)
include h

theorem bbBuf : ∃ new, q.bbBuf = p.bbBuf ++ new := h.1
theorem recs : q.recs = p.recs := by rw [h.2]
theorem writes : q.writes = p.writes := by rw [h.2]
theorem pages : q.pages = p.pages := by rw [h.2]
theorem sparesUsed : q.sparesUsed = p.sparesUsed := by rw [h.2]
theorem learnRo : q.learnRo = p.learnRo := by rw [h.2]
theorem bb : q.bb = p.bb := by rw [h.2]
theorem bbPagesGone : q.bbPagesGone = p.bbPagesGone := by rw [h.2]

end
end Pst.Notes

/-- Raising an event only notes it in the store. -/
def Raiser.Notes (again : Raiser) : Prop := ∀ (d : Dev) e realm ts inst data, d.pst.Notes (again d e realm ts inst data).pst

section
variable {again : Raiser} (h : again.Notes)
include h

theorem Dev.notes_logEvent (ts : Nat) (d : Dev) (r : BbRec) : d.pst.Notes (Dev.logEvent again ts d r).pst := by
  have hput : (d.logPut r).1.pst = d.pst := by
    unfold Dev.logPut
    split
    · rfl
    · rfl
  unfold Dev.logEvent
  dsimp only
  rw [← hput]
  split
  · exact h _ _ _ _ _ _
  · exact Pst.Notes.refl _

theorem Dev.notes_evToBox (ts : Nat) (e : Ev) (ev : Item × Item) (d : Dev) : d.pst.Notes (Dev.evToBox again ts e ev d).pst := by
  unfold Dev.evToBox
  split
  case isFalse => exact Pst.Notes.refl _
  case isTrue =>
    split
    case h_1 d' hd =>
      have hq : d.pst.Notes d'.pst := by
        unfold Dev.bbPut at hd
        split at hd
        · cases hd
        · cases hd
          exact ⟨⟨_, rfl⟩, rfl⟩
      split
      · exact hq.trans (Dev.notes_logEvent h _ _ _)
      · exact hq
    case h_2 =>
      have hlost : ∀ b, d.pst.Notes { d.pst with bbLost := d.pst.bbLost + 1, bbDropEv := b } := fun b => ⟨⟨[], (List.append_nil _).symm⟩, rfl⟩
      dsimp only
      split
      · exact hlost _
      · exact (hlost true).trans (h _ _ _ _ _ _)

theorem Dev.notes_notes (ts qid : Nat) (ns : List QNote) (d : Dev) : d.pst.Notes (ns.foldl (Dev.noteQueue again ts qid) d).pst := by
  induction ns generalizing d with
  | nil => exact Pst.Notes.refl _
  | cons n ns ih =>
    have hone : d.pst.Notes (Dev.noteQueue again ts qid d n).pst := by
      cases n
      · exact h _ _ _ _ _ _
      · exact h _ _ _ _ _ _
    exact hone.trans (ih _)

theorem Dev.notes_evToQueue (ts : Nat) (ev : Item × Item) (d : Dev) (qid : Nat) : d.pst.Notes (Dev.evToQueue again ts ev d qid).pst := by
  unfold Dev.evToQueue
  split
  case h_1 => exact Pst.Notes.refl _
  case h_2 q _ =>
    have hset : ∀ r : QRes, (d.setQueue qid r).pst = d.pst := fun r => by
      have hstep : ∀ (x : Dev) (c : Prop) [Decidable c] (f : Field) (n : Nat), (if c then x else x.bump f n).pst = x.pst := fun x c _ f n => by
        split
        · rfl
        · rfl
      unfold Dev.setQueue
      dsimp only
      rw [hstep, hstep, hstep]
    dsimp only
    rw [← hset (q.putUnit (.ev ev.1 ev.2))]
    exact Dev.notes_notes h _ _ _ _

theorem Dev.notes_evStore (e : Ev) (realm : Bool) (ts seq inst data : Nat) (d : Dev) : d.pst.Notes (Dev.evStore again e realm ts seq inst data d).pst := by
  have hfold : ∀ (ev : Item × Item) (qs : List Nat) (x : Dev), x.pst.Notes (qs.foldl (Dev.evToQueue again ts ev) x).pst := by
    intro ev qs
    induction qs with
    | nil => exact fun _ => Pst.Notes.refl _
    | cons a qs ih => exact fun x => (Dev.notes_evToQueue h _ _ _ _).trans (ih _)
  have hf : ∀ x : Dev, x.pst.Notes (Dev.evFatal e x).pst := fun x => by unfold Dev.evFatal; split <;> exact Pst.Notes.refl _
  have hc : ∀ x : Dev, x.pst.Notes (Dev.evCount e x).pst := fun x => by
    unfold Dev.evCount
    split
    · exact ⟨⟨[], (List.append_nil _).symm⟩, rfl⟩
    · exact Pst.Notes.refl _
  have ht : ∀ x : Dev, x.pst.Notes (Dev.evToTag e inst data x).pst := fun x => by
    unfold Dev.evToTag
    split
    · exact ⟨⟨[], (List.append_nil _).symm⟩, rfl⟩
    · exact Pst.Notes.refl _
  exact ((((hfold _ _ _).trans (Dev.notes_evToBox h _ _ _ _)).trans (ht _)).trans (hc _)).trans (hf _)

end

theorem Dev.notes_raiseF (fuel : Nat) : Raiser.Notes (Dev.raiseF fuel) := by
  induction fuel with
  | zero => exact fun _ _ _ _ _ _ => Pst.Notes.refl _
  | succ fuel ih =>
    intro d e realm ts inst data
    unfold Dev.raiseF
    dsimp only
    split
    · exact Pst.Notes.refl _
    · split
      · exact Dev.notes_evStore ih _ _ _ _ _ _ (d.takeSeq e.id)
      · have hnext : d.pst.Notes { d.pst with bbNext := d.pst.bbNext + 1 } := ⟨⟨[], (List.append_nil _).symm⟩, rfl⟩
        exact hnext.trans (Dev.notes_logEvent ih _ _ _)

theorem Dev.notes_raise (d : Dev) (e : Ev) (inst data : Nat) : d.pst.Notes (d.raise e inst data).pst := Dev.notes_raiseF _ _ _ _ _ _ _

end Sys2Proof.Machine
end

section
/-!
PROOFS. Proofs/StoreWear.lean: programs of pages: what they wear, and what they leave of the store's records and waiting writes (R480, R482).
-/
namespace Sys2Proof.Machine

/-- A store whose pages were worn and to which events were noted. -/
def Pst.Wears (p q : Pst) : Prop :=
  (∃ new, q.bbBuf = p.bbBuf ++ new) ∧ q.recs = p.recs ∧ q.writes = p.writes ∧ q.sparesUsed = p.sparesUsed ∧ q.learnRo = p.learnRo ∧ q.bb = p.bb ∧ q.bbPagesGone = p.bbPagesGone

theorem Pst.Notes.wears {p q : Pst} (h : p.Notes q) : p.Wears q := ⟨h.bbBuf, h.recs, h.writes, h.sparesUsed, h.learnRo, h.bb, h.bbPagesGone⟩

theorem Pst.Wears.trans {p q r : Pst} (h : p.Wears q) (k : q.Wears r) : p.Wears r := by
  obtain ⟨⟨l, hl⟩, h1, h2, h3, h4, h5, h6⟩ := h
  obtain ⟨⟨m, hm⟩, k1, k2, k3, k4, k5, k6⟩ := k
  exact ⟨⟨l ++ m, by rw [hm, hl, List.append_assoc]⟩, k1.trans h1, k2.trans h2, k3.trans h3, k4.trans h4, k5.trans h5, k6.trans h6⟩

/-- A device that wrote pages of its store: no state of another kind changed, and every page's erases grew by at most n. -/
def Dev.Programs (n : Nat) (d e : Dev) : Prop :=
  d.Spares e ∧ d.pst.Wears e.pst ∧ ∀ q, (e.pst.pages.get q {}).cycles ≤ (d.pst.pages.get q {}).cycles + n

namespace Dev.Programs

theorem trans {m n : Nat} {a b c : Dev} (h : a.Programs m b) (k : b.Programs n c) : a.Programs (m + n) c := by
  obtain ⟨h1, h2, h3⟩ := h
  obtain ⟨k1, k2, k3⟩ := k
  refine ⟨h1.trans k1, h2.trans k2, fun q => ?_⟩
  have := h3 q
  have := k3 q
  omega

theorem of_pst {n : Nat} (d : Dev) {p : Pst} (hw : d.pst.Wears p) (hc : ∀ q, (p.pages.get q {}).cycles ≤ (d.pst.pages.get q {}).cycles + n) : d.Programs n { d with pst := p } :=
  ⟨⟨rfl, rfl, rfl, rfl, rfl, rfl, rfl, rfl, rfl⟩, hw, hc⟩

theorem refl (d : Dev) : d.Programs 0 d := of_pst d (Pst.Notes.refl d.pst).wears fun _ => le_rfl

theorem raise (d : Dev) (e : Ev) (inst data : Nat) (h : e.sev < 5) : d.Programs 0 (d.raise e inst data) := by
  have hn := Dev.notes_raise d e inst data
  exact ⟨Dev.spares_raise _ _ _ _ h, hn.wears, fun q => by rw [hn.pages]; exact le_rfl⟩

theorem wr (d : Dev) (f : Field) (v i j : Nat) : d.Programs 0 (d.wr f v i j) := ⟨Dev.spares_wr _ _ _ _ _, (Pst.Notes.refl d.pst).wears, fun _ => le_rfl⟩

end Dev.Programs

/-- A page of the table replaced by one with at most n erases more. -/
theorem Dev.programs_page (d : Dev) (page n : Nat) (x : Page) (h : x.cycles ≤ (d.pst.pages.get page {}).cycles + n) (es : Tbl Nat) :
    d.Programs n { d with pst := { d.pst with pages := d.pst.pages.ins page x, erases := es } } := by
  refine Dev.Programs.of_pst d (p := { d.pst with pages := d.pst.pages.ins page x, erases := es }) ⟨⟨[], (List.append_nil _).symm⟩, rfl, rfl, rfl, rfl, rfl, rfl⟩ fun q => ?_
  rcases eq_or_ne q page with rfl | hne
  · rw [show ({ d.pst with pages := d.pst.pages.ins q x, erases := es } : Pst).pages = d.pst.pages.ins q x from rfl, Tbl.get_ins_self]
    exact h
  · rw [show ({ d.pst with pages := d.pst.pages.ins page x, erases := es } : Pst).pages = d.pst.pages.ins page x from rfl, Tbl.get_ins_ne _ _ _ hne]
    exact Nat.le_add_right _ _

theorem Dev.programs_erasePage (d : Dev) (region page : Nat) : d.Programs 1 (d.erasePage region page) :=
  (Dev.programs_page d page 1 _ le_rfl _).trans (Dev.Programs.wr _ _ _ _ _)

theorem Dev.programs_wearWarn (d : Dev) (region page pulses : Nat) : d.Programs 0 (d.wearWarn region page pulses) := by
  unfold Dev.wearWarn
  extract_lets p slow
  split
  · have hpage := Dev.programs_page d page 0 { p with warned := true } le_rfl d.pst.erases
    exact (hpage.trans (Dev.Programs.wr _ _ _ _ _)).trans (Dev.Programs.raise _ _ _ _ (by decide))
  · exact Dev.Programs.refl d

/-- The device after a page was erased, where the write begins it, and programmed. -/
def Dev.programmed (d : Dev) (region page : Nat) (erase : Bool) (pulses : Nat) : Dev :=
  let d := if erase then d.erasePage region page else d
  let p := d.pst.pages.get page {}
  let d := { d with pst := { d.pst with pages := d.pst.pages.ins page { p with pulses := if p.pulses.length < 16 then p.pulses ++ [pulses] else p.pulses } } }
  d.wearWarn region page pulses

theorem Dev.programs_programmed (d : Dev) (region page : Nat) (erase : Bool) (pulses : Nat) : d.Programs 1 (d.programmed region page erase pulses) := by
  have herase : d.Programs 1 (if erase then d.erasePage region page else d) := by
    split
    · exact Dev.programs_erasePage d region page
    · exact ⟨(Dev.Programs.refl d).1, (Dev.Programs.refl d).2.1, fun _ => Nat.le_add_right _ _⟩
  unfold Dev.programmed
  extract_lets e p src f
  exact (herase.trans (Dev.programs_page e page 0 { p with pulses := if p.pulses.length < 16 then p.pulses ++ [pulses] else p.pulses } le_rfl e.pst.erases)).trans (Dev.programs_wearWarn f region page pulses)

/-- A page that needs no spare before its program. -/
theorem Dev.programPage_ready {d : Dev} {page : Nat} {erase : Bool} (h : erase = true → (d.pst.pages.get page {}).cycles < 100000) (region pulses : Nat) (fail : Bool) :
    d.programPage region page erase pulses fail = if fail then (d.programmed region page erase pulses).retirePage region page true else (d.programmed region page erase pulses, true) := by
  have hno : ¬ (erase && decide (100000 ≤ (d.pst.pages.get page {}).cycles)) = true := by
    simpa using h
  unfold Dev.programPage
  rw [if_neg hno]
  rfl

/-- A program that verifies, on a page that is not worn out. -/
def Pst.Verifies (p : Pst) (x : NvProg) : Prop := x.fail = false ∧ (x.erase = true → (p.pages.get x.page {}).cycles < 99999)

theorem Dev.programs_wearSample (d : Dev) (region : Nat) : d.Programs 0 (d.wearSample region) :=
  Dev.Programs.of_pst d (p := (d.wearSample region).pst) ⟨⟨[], (List.append_nil _).symm⟩, rfl, rfl, rfl, rfl, rfl, rfl⟩ fun _ => le_rfl

/-- Two programs that verify are done, whichever pages they take. -/
theorem Dev.programTwo_good {d : Dev} {a b : NvProg} (ha : d.pst.Verifies a) (hb : d.pst.Verifies b) (region : Nat) : ∃ e, d.programTwo region a b = (e, true) ∧ d.Programs 2 e := by
  obtain ⟨hfa, hca⟩ := ha
  obtain ⟨hfb, hcb⟩ := hb
  have h1 := Dev.programs_programmed d region a.page a.erase a.pulses
  generalize he : d.programmed region a.page a.erase a.pulses = e at h1
  have h2 := Dev.programs_programmed e region b.page b.erase b.pulses
  have hready : b.erase = true → (e.pst.pages.get b.page {}).cycles < 100000 := fun hb => by
    have := h1.2.2 b.page
    have := hcb hb
    omega
  refine ⟨(e.programmed region b.page b.erase b.pulses).wearSample region, ?_, (h1.trans h2).trans (Dev.programs_wearSample _ region)⟩
  unfold Dev.programTwo
  rw [Dev.programPage_ready (fun h => by have := hca h; omega), hfa, he]
  simp only [Bool.false_eq_true, if_false]
  rw [Dev.programPage_ready hready, hfb]
  rfl

/-! ### A region without spares (R483) -/

theorem Dev.retirePage_out {d : Dev} {region : Nat} (h : d.pst.sparesLeft region = 0) (page : Nat) (verify : Bool) : d.retirePage region page verify = (d, false) := if_pos h

theorem Pst.Wears.sparesLeft {p q : Pst} (h : p.Wears q) (region : Nat) : q.sparesLeft region = p.sparesLeft region := by
  unfold Pst.sparesLeft
  rw [h.2.2.2.1]

/-- Without a spare a program wears its page or gives up. -/
theorem Dev.programPage_out {d : Dev} {region : Nat} (h : d.pst.sparesLeft region = 0) (page : Nat) (erase : Bool) (pulses : Nat) (fail : Bool) :
    d.Programs 1 (d.programPage region page erase pulses fail).1 ∧ (fail = true → (d.programPage region page erase pulses fail).2 = false) := by
  have hp := Dev.programs_programmed d region page erase pulses
  by_cases hready : erase = true → (d.pst.pages.get page {}).cycles < 100000
  · rw [Dev.programPage_ready hready, Dev.retirePage_out ((hp.2.1.sparesLeft region).trans h)]
    cases fail
    · exact ⟨hp, fun h => absurd h (by decide)⟩
    · exact ⟨hp, fun _ => rfl⟩
  · have hwant : (erase && decide (100000 ≤ (d.pst.pages.get page {}).cycles)) = true := by simpa using hready
    have heq : d.programPage region page erase pulses fail = (d, false) := by
      unfold Dev.programPage
      rw [if_pos hwant, Dev.retirePage_out h]
      rfl
    rw [heq]
    exact ⟨⟨(Dev.Programs.refl d).1, (Dev.Programs.refl d).2.1, fun _ => Nat.le_add_right _ _⟩, fun _ => rfl⟩

theorem Dev.programTwo_out {d : Dev} {a b : NvProg} {region : Nat} (h : d.pst.sparesLeft region = 0) (ha : a.fail = true) :
    ∃ e, d.programTwo region a b = (e, false) ∧ d.Programs 2 e := by
  obtain ⟨h1, hf⟩ := Dev.programPage_out h a.page a.erase a.pulses a.fail
  generalize hx : d.programPage region a.page a.erase a.pulses a.fail = x at h1 hf
  obtain ⟨h2, -⟩ := Dev.programPage_out ((h1.2.1.sparesLeft region).trans h) b.page b.erase b.pulses b.fail
  refine ⟨((x.1.programPage region b.page b.erase b.pulses b.fail).1).wearSample region, ?_, (h1.trans h2).trans (Dev.programs_wearSample _ region)⟩
  unfold Dev.programTwo
  rw [hx]
  dsimp only
  rw [hf ha, Bool.false_and]

end Sys2Proof.Machine
end

section
/-!
PROOFS. Proofs/StoreRecords.lean: what a finished program, the background read and a selection do to the records of the store (R480, R481, R483, R485).
-/
namespace Sys2Proof.Machine

/-! ### The records of a kind and key -/

/-- The records without those of a kind and key. -/
theorem Pst.find_filter (p : Pst) (k key k' key' : Nat) :
    (p.recs.filter fun x => !(x.kind == k && x.key == key)).find? (fun r => r.kind == k' && r.key == key') = if k' = k ∧ key' = key then none else p.find k' key' := by
  rw [List.find?_filter]
  unfold Pst.find
  split
  case isTrue h =>
    obtain ⟨rfl, rfl⟩ := h
    rw [List.find?_eq_none]
    intro x _
    cases x.kind == k' && x.key == key' <;> simp
  case isFalse h =>
    refine congrArg (fun g => List.find? g p.recs) (funext fun x => ?_)
    cases hx : x.kind == k' && x.key == key'
    · simp
    · simp only [Bool.and_eq_true, beq_iff_eq] at hx
      obtain ⟨rfl, rfl⟩ := hx
      have hne : (x.kind == k && x.key == key) = false := by
        rw [Bool.eq_false_iff]
        intro hc
        simp only [Bool.and_eq_true, beq_iff_eq] at hc
        exact h hc
      rw [hne]
      rfl

theorem Pst.find_store (p : Pst) (r : NvRec) (k key : Nat) : (p.store r).find k key = if k = r.kind ∧ key = r.key then some r else p.find k key := by
  have hf := Pst.find_filter p r.kind r.key k key
  unfold Pst.store Pst.find
  rw [List.find?_append, hf]
  split
  case isTrue h =>
    obtain ⟨rfl, rfl⟩ := h
    simp
  case isFalse h =>
    have hno : List.find? (fun x : NvRec => x.kind == k && x.key == key) [r] = none := by
      rw [List.find?_cons_of_neg]
      · rfl
      · intro hc
        simp only [Bool.and_eq_true, beq_iff_eq] at hc
        exact h ⟨hc.1.symm, hc.2.symm⟩
    rw [hno, Option.or_none]
    rfl

theorem Pst.find_congr {p q : Pst} (h : q.recs = p.recs) (k key : Nat) : q.find k key = p.find k key := by
  unfold Pst.find
  rw [h]

/-! ### A program that is done (R480, R483, R485) -/

section
variable {s : State} {t : Nat} {a b : NvProg} {w : PstWrite} {rest : List PstWrite}

theorem mainOn_begin (h : s.dev.mainOn = true) : (begin_ t s.dev).mainOn = true := h

/-- The record that a write leaves. -/
def Dev.written (d : Dev) (w : PstWrite) (a b : NvProg) : NvRec :=
  { kind := w.kind, key := w.key, gen := ((d.pst.find w.kind w.key).map NvRec.gen).getD 0 + 1, body := w.body, time := d.now, page0 := a.page, page1 := b.page,
    prev := (d.pst.find w.kind w.key).map NvRec.body }

/-- The epoch reservation shows once its record is written (R378). -/
def Dev.showEpoch (d : Dev) (w : PstWrite) : Dev := if w.kind = 7 then d.wr Reg.SIN_EPOCH_RES_H (le w.body 0 4) else d

theorem Dev.recWritten_done {d e : Dev} (hw : d.pst.writes = w :: rest) (h : ({ d with pst := { d.pst with writes := rest } } : Dev).programTwo (nvRegion w.kind) a b = (e, true)) :
    d.recWritten a b = ({ e with pst := e.pst.store (e.written w a b) } : Dev).showEpoch w := by
  unfold Dev.recWritten
  rw [hw]
  dsimp only
  rw [h]
  unfold Dev.written Dev.showEpoch
  cases e.pst.find w.kind w.key
  · rfl
  · rfl

theorem Dev.recWritten_out {d e : Dev} (hw : d.pst.writes = w :: rest) (h : ({ d with pst := { d.pst with writes := rest } } : Dev).programTwo (nvRegion w.kind) a b = (e, false)) :
    d.recWritten a b = e.regionOut (nvRegion w.kind) := by
  unfold Dev.recWritten
  rw [hw]
  dsimp only
  rw [h]
  rfl

theorem Dev.showEpoch_pst (d : Dev) (w : PstWrite) : (d.showEpoch w).pst = d.pst := by
  unfold Dev.showEpoch
  split
  · rfl
  · rfl

theorem Dev.showEpoch_stReq (d : Dev) (w : PstWrite) : (d.showEpoch w).stReq = d.stReq := by
  unfold Dev.showEpoch
  split
  · rfl
  · rfl

theorem le_lt_pow (b : List Byte) (o n : Nat) : le b o n < 2 ^ (8 * n) := by
  induction n generalizing o with
  | zero => exact Nat.one_pos
  | succ n ih =>
    have hrest := ih (o + 1)
    have hbyte : byteAt b o < 256 := (b.getD o 0).isLt
    have hpow : 2 ^ (8 * (n + 1)) = 256 * 2 ^ (8 * n) := by rw [Nat.mul_succ, Nat.pow_add, Nat.mul_comm]
    rw [hpow]
    unfold le
    omega

theorem ends_recordWritten (hon : s.dev.mainOn = true) (hw : s.dev.pst.writes = w :: rest) (ha : s.dev.pst.Verifies a) (hb : s.dev.pst.Verifies b) :
    Ends (.recordWriteDone t false a b) s fun d => d.pst.writes = rest ∧ d.pst.find w.kind w.key = some ((begin_ t s.dev).written w a b) ∧
      (w.kind = 7 → d.rd Reg.SIN_EPOCH_RES_H = le w.body 0 4) := by
  refine ends_of (exec_recordWriteDone t false a b s) ?_
  have hdone : (begin_ t s.dev).writeDone false a b = (begin_ t s.dev).recWritten a b := by
    unfold Dev.writeDone
    rw [mainOn_begin hon]
    rfl
  rw [hdone]
  have hw' : (begin_ t s.dev).pst.writes = w :: rest := hw
  have ha' : (begin_ t s.dev).pst.Verifies a := ha
  have hb' : (begin_ t s.dev).pst.Verifies b := hb
  have hst : (begin_ t s.dev).stReq = [] := rfl
  generalize begin_ t s.dev = d at hw' ha' hb' hst
  obtain ⟨e, he, hsp, hwear, -⟩ := Dev.programTwo_good (d := { d with pst := { d.pst with writes := rest } }) ha' hb' (nvRegion w.kind)
  rw [Dev.recWritten_done hw' he]
  have hest : e.stReq = [] := hsp.2.1.trans hst
  have hnow : e.now = d.now := hsp.2.2.1
  obtain ⟨-, hrecs, hwrites, -⟩ := hwear
  have hwritten : e.written w a b = d.written w a b := by
    unfold Dev.written
    rw [hnow, Pst.find_congr hrecs]
    rfl
  have hcalm : (({ e with pst := e.pst.store (e.written w a b) } : Dev).showEpoch w).stReq = [] := (Dev.showEpoch_stReq _ _).trans hest
  rw [settle_pst _ _ hcalm, Dev.showEpoch_pst]
  refine ⟨hwrites, ?_, fun h7 => ?_⟩
  · dsimp only
    rw [Pst.find_store, if_pos ⟨rfl, rfl⟩, hwritten]
  · rw [settle_rd_clear _ _ hcalm _ _ _ (by decide) (by decide)]
    unfold Dev.showEpoch
    rw [if_pos h7, Dev.rd_wr_self _ Reg.SIN_EPOCH_RES_H _ 0 0 (by decide)]
    exact Nat.mod_eq_of_lt (le_lt_pow _ _ _)

/-! ### The black box (R485) -/

theorem Dev.bbPut_keeps {d e : Dev} {k : Nat} {ev : Item × Item} {ctx : List Word} (h : d.bbPut k ev ctx = some e) :
    (∃ new, e.pst.bbBuf = d.pst.bbBuf ++ new) ∧ e.pst.bb = d.pst.bb ∧ e.stReq = d.stReq := by
  unfold Dev.bbPut at h
  split at h
  · cases h
  · cases h
    exact ⟨⟨_, rfl⟩, rfl, rfl⟩

/-- The oldest record of the buffer moves into the black box. -/
def Dev.boxed (e : Dev) (r : BbRec) (a b : NvProg) : Dev :=
  let new := e.pst.bb ++ [({ r with page0 := a.page, page1 := b.page } : BbRec)]
  { e with pst := { e.pst with bbBuf := e.pst.bbBuf.drop 1, bb := new.drop (new.length - e.pst.bbCap) } }

/-- The loss marker of a black box that discarded records. -/
def Dev.markLoss (d : Dev) : Dev :=
  if d.pst.bbLost = 0 then d
  else
    let d := (d.bbPut 4 (0#64, 0#64) [BitVec.ofNat 32 d.pst.bbLost]).getD d
    { d with pst := { d.pst with bbLost := 0, bbDropEv := false } }

theorem Dev.bbWritten_done {d e : Dev} {r : BbRec} {more : List BbRec} (hb : d.pst.bbBuf = r :: more) (h : d.programTwo 4 a b = (e, true)) : d.bbWritten a b = (e.boxed r a b).markLoss := by
  unfold Dev.bbWritten
  rw [hb]
  dsimp only
  rw [h]
  unfold Dev.markLoss
  simp only [if_true]
  generalize hx : e.boxed r a b = x
  unfold Dev.boxed at hx
  dsimp only at hx
  have hlost : e.pst.bbLost = x.pst.bbLost := by rw [← hx]
  rw [hx, hlost]
  split
  · rfl
  · cases x.bbPut 4 (0#64, 0#64) [BitVec.ofNat 32 x.pst.bbLost]
    · rfl
    · rfl

theorem Dev.markLoss_keeps (d : Dev) : (∃ new, d.markLoss.pst.bbBuf = d.pst.bbBuf ++ new) ∧ d.markLoss.pst.bb = d.pst.bb ∧ d.markLoss.stReq = d.stReq := by
  have hself : (∃ new, d.pst.bbBuf = d.pst.bbBuf ++ new) ∧ d.pst.bb = d.pst.bb ∧ d.stReq = d.stReq := ⟨⟨[], (List.append_nil _).symm⟩, rfl, rfl⟩
  unfold Dev.markLoss
  split
  · exact hself
  · extract_lets e src
    have he : (∃ new, e.pst.bbBuf = d.pst.bbBuf ++ new) ∧ e.pst.bb = d.pst.bb ∧ e.stReq = d.stReq := by
      cases hp : d.bbPut 4 (0#64, 0#64) [BitVec.ofNat 32 d.pst.bbLost] with
      | none => rw [show e = d from (congrArg (Option.getD · d) hp)]; exact hself
      | some e' => rw [show e = e' from (congrArg (Option.getD · d) hp)]; exact Dev.bbPut_keeps hp
    exact he

theorem getLast?_drop_append {α : Type} (l : List α) (x : α) {n : Nat} (h : 0 < n) : ((l ++ [x]).drop ((l ++ [x]).length - n)).getLast? = some x := by
  rw [List.getLast?_drop, if_neg, List.getLast?_concat]
  rw [List.length_append, List.length_singleton]
  omega

theorem ends_bbWritten {r : BbRec} {more : List BbRec} (hon : s.dev.mainOn = true) (hr : s.dev.pst.bbBuf = r :: more) (hcap : s.dev.pst.bbPagesGone < 8192)
    (ha : s.dev.pst.Verifies a) (hb : s.dev.pst.Verifies b) :
    Ends (.recordWriteDone t true a b) s fun d => (∃ new, d.pst.bbBuf = more ++ new) ∧ d.pst.bb.getLast? = some { r with page0 := a.page, page1 := b.page } := by
  refine ends_of (exec_recordWriteDone t true a b s) ?_
  have hdone : (begin_ t s.dev).writeDone true a b = (begin_ t s.dev).bbWritten a b := by
    unfold Dev.writeDone
    rw [mainOn_begin hon]
    rfl
  rw [hdone]
  have hr' : (begin_ t s.dev).pst.bbBuf = r :: more := hr
  have hcap' : (begin_ t s.dev).pst.bbPagesGone < 8192 := hcap
  have ha' : (begin_ t s.dev).pst.Verifies a := ha
  have hb' : (begin_ t s.dev).pst.Verifies b := hb
  have hst : (begin_ t s.dev).stReq = [] := rfl
  generalize begin_ t s.dev = d at hr' hcap' ha' hb' hst
  obtain ⟨e, he, hsp, hwear, -⟩ := Dev.programTwo_good ha' hb' 4
  obtain ⟨⟨new, hbuf⟩, -, -, -, -, -, hgone⟩ := hwear
  rw [Dev.bbWritten_done hr' he]
  obtain ⟨⟨new', hbuf'⟩, hbb, hst'⟩ := Dev.markLoss_keeps (e.boxed r a b)
  have hcalm : (e.boxed r a b).markLoss.stReq = [] := hst'.trans (hsp.2.1.trans hst)
  rw [settle_pst _ _ hcalm]
  refine ⟨⟨new ++ new', ?_⟩, ?_⟩
  · have hdrop : (e.boxed r a b).pst.bbBuf = more ++ new := by
      have h1 : (e.boxed r a b).pst.bbBuf = e.pst.bbBuf.drop 1 := rfl
      rw [h1, hbuf, hr']
      rfl
    rw [hbuf', hdrop, List.append_assoc]
  · rw [hbb]
    refine getLast?_drop_append _ _ ?_
    unfold Pst.bbCap
    omega

/-! ### A store without spares (R483) -/

theorem Dev.learnFreeze_shown {d : Dev} (h : d.pst.learnRo = false) : d.learnFreeze.pst.learnRo = true ∧ d.learnFreeze.rd Reg.PST_STATUS_LEARN_RO = 1 ∧ d.learnFreeze.stReq = d.stReq := by
  have hfold : ∀ (l : List Nat) (x : Dev), (l.foldl (fun (d : Dev) c => d.set1 Reg.EST_CH_STAT_FROZEN c) x).pst = x.pst ∧
      (l.foldl (fun (d : Dev) c => d.set1 Reg.EST_CH_STAT_FROZEN c) x).rd Reg.PST_STATUS_LEARN_RO = x.rd Reg.PST_STATUS_LEARN_RO ∧
      (l.foldl (fun (d : Dev) c => d.set1 Reg.EST_CH_STAT_FROZEN c) x).stReq = x.stReq := by
    intro l
    induction l with
    | nil => exact fun _ => ⟨rfl, rfl, rfl⟩
    | cons c l ih =>
      intro x
      obtain ⟨h1, h2, h3⟩ := ih (x.set1 Reg.EST_CH_STAT_FROZEN c)
      rw [List.foldl_cons]
      exact ⟨h1.trans (Dev.wr_pst x _ _ _ _), h2.trans (Dev.rd_wr_apart x Reg.EST_CH_STAT_FROZEN Reg.PST_STATUS_LEARN_RO 1 c 0 0 0 (by decide)), h3.trans (Dev.wr_stReq x _ _ _ _)⟩
  have hno : ¬ d.pst.learnRo = true := by simp [h]
  unfold Dev.learnFreeze
  rw [if_neg hno]
  extract_lets src f chs g
  obtain ⟨h1, h2, h3⟩ := hfold chs (f.set1 Reg.PST_STATUS_LEARN_RO)
  have hpst : g.pst = f.pst := h1
  have hrd : g.rd Reg.PST_STATUS_LEARN_RO = 1 := h2.trans (Dev.rd_wr_self f Reg.PST_STATUS_LEARN_RO 1 0 0 (by decide))
  have hstq : g.stReq = d.stReq := h3
  refine ⟨?_, ?_, (Dev.spares_raise g _ _ _ (by decide)).2.1.trans hstq⟩
  · rw [(Dev.notes_raise g _ _ _).learnRo, hpst]
  · rw [Dev.rd_raise_quiet _ _ _ _ _ _ _ (by decide), hrd]

theorem ends_learnFrozen (hon : s.dev.mainOn = true) (hw : s.dev.pst.writes = w :: rest) (h3 : nvRegion w.kind = 3) (hf : a.fail = true) (hs : s.dev.pst.sparesLeft 3 = 0) :
    Ends (.recordWriteDone t false a b) s fun d => d.pst.learnRo = true ∧ (s.dev.pst.learnRo = false → d.rd Reg.PST_STATUS_LEARN_RO = 1) := by
  refine ends_of (exec_recordWriteDone t false a b s) ?_
  have hdone : (begin_ t s.dev).writeDone false a b = (begin_ t s.dev).recWritten a b := by
    unfold Dev.writeDone
    rw [mainOn_begin hon]
    rfl
  have hw' : (begin_ t s.dev).pst.writes = w :: rest := hw
  have hs' : (begin_ t s.dev).pst.sparesLeft 3 = 0 := hs
  have hst : (begin_ t s.dev).stReq = [] := rfl
  have hro : (begin_ t s.dev).pst.learnRo = s.dev.pst.learnRo := rfl
  rw [hdone]
  generalize begin_ t s.dev = d at hw' hs' hst hro
  have hs3 : ({ d with pst := { d.pst with writes := rest } } : Dev).pst.sparesLeft (nvRegion w.kind) = 0 := by rw [h3]; exact hs'
  obtain ⟨e, he, hsp, hwear, -⟩ := Dev.programTwo_out (b := b) hs3 hf
  have hest : e.stReq = [] := hsp.2.1.trans hst
  have hero : e.pst.learnRo = s.dev.pst.learnRo := hwear.2.2.2.2.1.trans hro
  rw [Dev.recWritten_out hw' he, h3, show e.regionOut 3 = e.learnFreeze from rfl]
  cases hl : s.dev.pst.learnRo
  · obtain ⟨h1, h2, hst'⟩ := Dev.learnFreeze_shown (hero.trans hl)
    have hcalm := hst'.trans hest
    rw [settle_pst _ _ hcalm, settle_rd_clear _ _ hcalm _ _ _ (by decide) (by decide)]
    exact ⟨h1, fun _ => h2⟩
  · have hstay : e.learnFreeze = e := if_pos (hero.trans hl)
    rw [hstay, settle_pst _ _ hest]
    exact ⟨hero.trans hl, fun h => absurd h (by decide)⟩

end
end Sys2Proof.Machine
end

section
/-!
PROOFS. Proofs/StoreScrub.lean: the background read of the store and the selection of black-box records (R481, R485).
-/
namespace Sys2Proof.Machine

/-- The most corrections that a read found in a sector of a page. -/
def mostIn (found : List (Nat × Nat)) (page : Nat) : Nat := maxN ((found.filter fun x => x.1 == page).map fun x => x.2) 0

/-- A record as the background read finds it: a copy of more than 8 corrections fails. -/
def readRecord (found : List (Nat × Nat)) (r : NvRec) : NvRec :=
  { r with ok0 := r.ok0 && decide (mostIn found r.page0 ≤ 8), ok1 := r.ok1 && decide (mostIn found r.page1 ≤ 8) }

/-- The device once the background read has been over its pages. -/
def Dev.overPages (d : Dev) (found : List (Nat × Nat)) : Dev :=
  { d with pst := { d.pst with
    recs := d.pst.recs.map (readRecord found)
    bb := d.pst.bb.map (fun (r : BbRec) => { r with ok0 := r.ok0 && decide (mostIn found r.page0 ≤ 8), ok1 := r.ok1 && decide (mostIn found r.page1 ≤ 8) }) } }

/-- A rewrite of a record of worn pages is asked for, once. -/
def Dev.rewrite (d : Dev) (found : List (Nat × Nat)) (k : Nat × Nat) (body : List Byte) (r : NvRec) : Dev :=
  if 4 ≤ mostIn found r.page0 ∨ 4 ≤ mostIn found r.page1 then (if d.pst.writes.any (fun w => w.kind == k.1 && w.key == k.2) then d else d.nvWrite k.1 k.2 body) else d

/-- What the background read does about the record of a kind and key. -/
def Dev.scrubRecord (found : List (Nat × Nat)) (d : Dev) (k : Nat × Nat) : Dev :=
  ((d.nvRead k.1 k.2).2.bind fun body => ((d.nvRead k.1 k.2).1.pst.find k.1 k.2).map fun r => (d.nvRead k.1 k.2).1.rewrite found k body r).getD (d.nvRead k.1 k.2).1

theorem Dev.scrub_eq {d : Dev} (h : d.mainOn = true) (found : List (Nat × Nat)) :
    d.scrub found = ((((d.overPages found).pst.recs.map fun (r : NvRec) => (r.kind, r.key)).foldl (Dev.scrubRecord found) (d.overPages found)).pst.bb.map fun (r : BbRec) => r.seq).foldl
      (fun (d : Dev) q => (d.bbRead q).1) (((d.overPages found).pst.recs.map fun (r : NvRec) => (r.kind, r.key)).foldl (Dev.scrubRecord found) (d.overPages found)) := by
  have hstep : (fun (d : Dev) (k : Nat × Nat) =>
      let (d, b) := d.nvRead k.1 k.2
      match b, d.pst.find k.1 k.2 with
      | some body, some r => if 4 ≤ mostIn found r.page0 ∨ 4 ≤ mostIn found r.page1 then (if d.pst.writes.any (fun w => w.kind == k.1 && w.key == k.2) then d else d.nvWrite k.1 k.2 body) else d
      | _, _ => d) = Dev.scrubRecord found := by
    funext d k
    unfold Dev.scrubRecord
    generalize d.nvRead k.1 k.2 = x
    obtain ⟨e, b⟩ := x
    dsimp only
    cases b
    · rfl
    · cases e.pst.find k.1 k.2
      · rfl
      · rfl
  rw [← hstep]
  unfold Dev.scrub
  rw [h]
  rfl

/-! ### One record -/

section
variable {d : Dev} {k key k' key' : Nat}

/-- What a read of a record leaves of the store, apart from that record. -/
theorem Dev.nvRead_keeps (d : Dev) (k key : Nat) : (d.nvRead k key).1.pst.writes = d.pst.writes ∧ (d.nvRead k key).1.pst.learnRo = d.pst.learnRo ∧ (d.nvRead k key).1.stReq = d.stReq ∧
    ∀ k' key', ¬ (k' = k ∧ key' = key) → (d.nvRead k key).1.pst.find k' key' = d.pst.find k' key' := by
  have hstore : ∀ (r : NvRec), r.kind = k → r.key = key → ∀ k' key', ¬ (k' = k ∧ key' = key) → (d.pst.store r).find k' key' = d.pst.find k' key' := by
    intro r hk hkey k' key' hne
    rw [Pst.find_store, if_neg (by rw [hk, hkey]; exact hne)]
  have hlost := Dev.notes_raise (d.bump Reg.PST_CNT_LOST_CNT) Ev.PST_RECORD_LOST (nvRegion k) (k + key % 2 ^ 32 * 2 ^ 8)
  have hlostReq := (Dev.spares_raise (d.bump Reg.PST_CNT_LOST_CNT) Ev.PST_RECORD_LOST (nvRegion k) (k + key % 2 ^ 32 * 2 ^ 8) (by decide)).2.1
  generalize hl : (d.bump Reg.PST_CNT_LOST_CNT).raise Ev.PST_RECORD_LOST (nvRegion k) (k + key % 2 ^ 32 * 2 ^ 8) = l at hlost hlostReq
  unfold Dev.nvRead
  split
  case h_1 => exact ⟨rfl, rfl, rfl, fun _ _ _ => rfl⟩
  case h_2 r hr =>
    obtain ⟨hkind, hkey⟩ : r.kind = k ∧ r.key = key := by
      have h := List.find?_some hr
      simpa using h
    split
    · exact ⟨rfl, rfl, rfl, fun _ _ _ => rfl⟩
    · split
      · dsimp only
        generalize hx : ({ d with pst := d.pst.store { r with ok0 := true, ok1 := true } } : Dev) = x
        have hn := Dev.notes_raise (x.bump Reg.PST_CNT_ECC_CNT) Ev.PST_ECC (if r.ok0 then r.page1 else r.page0) k
        have hs := (Dev.spares_raise (x.bump Reg.PST_CNT_ECC_CNT) Ev.PST_ECC (if r.ok0 then r.page1 else r.page0) k (by decide)).2.1
        subst hx
        exact ⟨hn.writes, hn.learnRo, hs, fun k' key' hne => (Pst.find_congr hn.recs k' key').trans (hstore { r with ok0 := true, ok1 := true } hkind hkey k' key' hne)⟩
      · dsimp only
        rw [hl]
        have hfind : ∀ k' key', l.pst.find k' key' = d.pst.find k' key' := Pst.find_congr hlost.recs
        split
        case h_1 b _ =>
          refine ⟨hlost.writes, hlost.learnRo, hlostReq, fun k' key' hne => ?_⟩
          rw [Pst.find_store, if_neg (by rw [hkind, hkey]; exact hne), hfind]
        case h_2 =>
          refine ⟨hlost.writes, hlost.learnRo, hlostReq, fun k' key' hne => ?_⟩
          exact (Pst.find_filter l.pst k key k' key').trans ((if_neg hne).trans (hfind k' key'))

theorem Dev.nvRead_absent (h : d.pst.find k key = none) : d.nvRead k key = (d, none) := by
  unfold Dev.nvRead
  rw [h]

theorem bothGood_eq {r : NvRec} (h0 : r.ok0 = true) (h1 : r.ok1 = true) : r = { r with ok0 := true, ok1 := true } := by
  cases r
  simp only at h0 h1
  subst h0 h1
  rfl

/-- A record of which a copy survives is read, and both copies are good then. -/
theorem Dev.nvRead_survives {r : NvRec} (h : d.pst.find k key = some r) (hok : (r.ok0 || r.ok1) = true) :
    (d.nvRead k key).2 = some r.body ∧ (d.nvRead k key).1.pst.find k key = some { r with ok0 := true, ok1 := true } := by
  obtain ⟨hkind, hkey⟩ : r.kind = k ∧ r.key = key := by
    have h := List.find?_some h
    simpa using h
  unfold Dev.nvRead
  rw [h]
  dsimp only
  split
  case isTrue hb =>
    obtain ⟨h0, h1⟩ := Bool.and_eq_true_iff.1 hb
    exact ⟨rfl, h.trans (congrArg some (bothGood_eq h0 h1))⟩
  case isFalse =>
    refine ⟨rfl, ?_⟩
    rw [Pst.find_congr (Dev.notes_raise _ _ _ _).recs]
    exact (Pst.find_store _ _ _ _).trans (if_pos ⟨hkind.symm, hkey.symm⟩)

/-- A record of which neither copy nor an older generation survives is gone. -/
theorem Dev.nvRead_lost {r : NvRec} (h : d.pst.find k key = some r) (h0 : r.ok0 = false) (h1 : r.ok1 = false) (hp : r.prev = none) :
    (d.nvRead k key).2 = none ∧ (d.nvRead k key).1.pst.find k key = none := by
  unfold Dev.nvRead
  rw [h]
  dsimp only
  rw [h0, h1, if_neg (by decide), if_neg (by decide), hp]
  exact ⟨rfl, (Pst.find_filter _ _ _ _ _).trans (if_pos ⟨rfl, rfl⟩)⟩

/-- What asking for a rewrite leaves of the store. -/
theorem Dev.rewrite_keeps (d : Dev) (found : List (Nat × Nat)) (k : Nat × Nat) (body : List Byte) (r : NvRec) :
    (d.rewrite found k body r).pst.recs = d.pst.recs ∧ (d.rewrite found k body r).pst.learnRo = d.pst.learnRo ∧ (d.rewrite found k body r).stReq = d.stReq ∧
    ∀ w ∈ d.pst.writes, ¬ (w.kind = k.1 ∧ w.key = k.2) ∨ (d.pst.writes.any fun w => w.kind == k.1 && w.key == k.2) = true → w ∈ (d.rewrite found k body r).pst.writes := by
  unfold Dev.rewrite
  split
  · split
    · exact ⟨rfl, rfl, rfl, fun _ h _ => h⟩
    case isFalse hany =>
      unfold Dev.nvWrite
      dsimp only
      split
      · exact ⟨rfl, rfl, rfl, fun _ h _ => h⟩
      · refine ⟨rfl, rfl, rfl, fun w hw hne => List.mem_append_left _ (List.mem_filter.2 ⟨hw, ?_⟩)⟩
        simp only [Bool.not_eq_true', Bool.and_eq_false_iff, beq_eq_false_iff_ne]
        exact not_and_or.1 (hne.resolve_right hany)
  · exact ⟨rfl, rfl, rfl, fun _ h _ => h⟩

/-- The store asks for a write of a record. -/
def Pst.Awaits (p : Pst) (k key : Nat) : Prop := ∃ w ∈ p.writes, w.kind = k ∧ w.key = key

theorem Dev.awaits_rewrite {found : List (Nat × Nat)} {c : Nat × Nat} {body : List Byte} {r : NvRec} (h : d.pst.Awaits k key) : (d.rewrite found c body r).pst.Awaits k key := by
  obtain ⟨w, hw, hk, hkey⟩ := h
  refine ⟨w, (Dev.rewrite_keeps d found c body r).2.2.2 w hw ?_, hk, hkey⟩
  by_cases hsame : w.kind = c.1 ∧ w.key = c.2
  · exact .inr (List.any_eq_true.2 ⟨w, hw, by simpa using hsame⟩)
  · exact .inl hsame

theorem Dev.awaits_rewritten {found : List (Nat × Nat)} {body : List Byte} {r : NvRec} (hm : 4 ≤ mostIn found r.page0 ∨ 4 ≤ mostIn found r.page1)
    (hro : d.pst.learnRo = true → nvRegion k ≠ 3) : (d.rewrite found (k, key) body r).pst.Awaits k key := by
  unfold Dev.rewrite
  rw [if_pos hm]
  split
  case isTrue hany =>
    obtain ⟨w, hw, h⟩ := List.any_eq_true.1 hany
    exact ⟨w, hw, by simpa using h⟩
  case isFalse =>
    have hno : ¬ (d.pst.learnRo && nvRegion k == 3) = true := by simpa using hro
    unfold Dev.nvWrite
    dsimp only
    rw [if_neg hno]
    exact ⟨_, List.mem_append_right _ List.mem_cons_self, rfl, rfl⟩

/-- The read of a record and what it asks for. -/
theorem Dev.scrubRecord_cases (found : List (Nat × Nat)) (d : Dev) (c : Nat × Nat) :
    Dev.scrubRecord found d c = (d.nvRead c.1 c.2).1 ∨ ∃ body r, Dev.scrubRecord found d c = (d.nvRead c.1 c.2).1.rewrite found c body r := by
  unfold Dev.scrubRecord
  cases (d.nvRead c.1 c.2).2
  · exact .inl rfl
  · cases (d.nvRead c.1 c.2).1.pst.find c.1 c.2
    · exact .inl rfl
    · exact .inr ⟨_, _, rfl⟩

theorem Dev.scrubRecord_keeps (found : List (Nat × Nat)) (d : Dev) (c : Nat × Nat) : (Dev.scrubRecord found d c).pst.learnRo = d.pst.learnRo ∧ (Dev.scrubRecord found d c).stReq = d.stReq ∧
    (∀ k key, (Dev.scrubRecord found d c).pst.find k key = (d.nvRead c.1 c.2).1.pst.find k key) ∧ ∀ k key, d.pst.Awaits k key → (Dev.scrubRecord found d c).pst.Awaits k key := by
  obtain ⟨hw, hro, hst, -⟩ := Dev.nvRead_keeps d c.1 c.2
  have hawait : ∀ k key, d.pst.Awaits k key → (d.nvRead c.1 c.2).1.pst.Awaits k key := fun k key h => by
    unfold Pst.Awaits
    rw [hw]
    exact h
  obtain h | ⟨body, r, h⟩ := Dev.scrubRecord_cases found d c
  · rw [h]
    exact ⟨hro, hst, fun _ _ => rfl, hawait⟩
  · rw [h]
    obtain ⟨h1, h2, h3, -⟩ := Dev.rewrite_keeps (d.nvRead c.1 c.2).1 found c body r
    exact ⟨h2.trans hro, h3.trans hst, Pst.find_congr h1, fun k key hk => Dev.awaits_rewrite (hawait k key hk)⟩

end

/-! ### All records -/

/-- A record that has a copy left is there with its body, its generation and its pages. -/
def Dev.Survives (n : NvRec) (d : Dev) : Prop :=
  ∃ x, d.pst.find n.kind n.key = some x ∧ x.body = n.body ∧ x.gen = n.gen ∧ x.page0 = n.page0 ∧ x.page1 = n.page1 ∧ (x.ok0 || x.ok1) = true

/-- Both copies of the record are good, and its rewrite is asked for where its pages needed many corrections. -/
def Dev.Repaired (found : List (Nat × Nat)) (n : NvRec) (d : Dev) : Prop :=
  (∃ x, d.pst.find n.kind n.key = some x ∧ x.body = n.body ∧ x.gen = n.gen ∧ x.page0 = n.page0 ∧ x.page1 = n.page1 ∧ x.ok0 = true ∧ x.ok1 = true) ∧
  (4 ≤ mostIn found n.page0 ∨ 4 ≤ mostIn found n.page1 → (d.pst.learnRo = true → nvRegion n.kind ≠ 3) → d.pst.Awaits n.kind n.key)

section
variable {found : List (Nat × Nat)} {n : NvRec}

theorem Dev.Repaired.survives {d : Dev} (h : d.Repaired found n) : d.Survives n := by
  obtain ⟨⟨x, h1, h2, h3, h4, h5, h6, -⟩, -⟩ := h
  exact ⟨x, h1, h2, h3, h4, h5, by rw [h6, Bool.true_or]⟩

/-- The read of the record repairs it. -/
theorem Dev.Survives.repaired {d : Dev} (h : d.Survives n) : (Dev.scrubRecord found d (n.kind, n.key)).Repaired found n := by
  obtain ⟨x, hx, hbody, hgen, hp0, hp1, hok⟩ := h
  obtain ⟨hread, hfind⟩ := Dev.nvRead_survives hx hok
  obtain ⟨hro, -, hsame, -⟩ := Dev.scrubRecord_keeps found d (n.kind, n.key)
  refine ⟨⟨{ x with ok0 := true, ok1 := true }, (hsame _ _).trans hfind, hbody, hgen, hp0, hp1, rfl, rfl⟩, fun hm hl => ?_⟩
  have heq : Dev.scrubRecord found d (n.kind, n.key) = (d.nvRead n.kind n.key).1.rewrite found (n.kind, n.key) x.body { x with ok0 := true, ok1 := true } := by
    unfold Dev.scrubRecord
    rw [hread, hfind]
    rfl
  have hl' : (d.nvRead n.kind n.key).1.pst.learnRo = true → nvRegion n.kind ≠ 3 := fun h => hl (hro.trans ((Dev.nvRead_keeps d n.kind n.key).2.1.symm.trans h))
  rw [heq]
  exact Dev.awaits_rewritten (r := { x with ok0 := true, ok1 := true }) (hp0 ▸ hp1 ▸ hm) hl'

/-- The read of another record leaves it as it is. -/
theorem Dev.find_scrubRecord_ne {d : Dev} {c : Nat × Nat} {k key : Nat} (h : ¬ (k = c.1 ∧ key = c.2)) : (Dev.scrubRecord found d c).pst.find k key = d.pst.find k key :=
  ((Dev.scrubRecord_keeps found d c).2.2.1 k key).trans ((Dev.nvRead_keeps d c.1 c.2).2.2.2 k key h)

theorem Dev.Survives.step {d : Dev} (h : d.Survives n) (c : Nat × Nat) : (Dev.scrubRecord found d c).Survives n := by
  by_cases hc : n.kind = c.1 ∧ n.key = c.2
  · have hc' : c = (n.kind, n.key) := Prod.ext hc.1.symm hc.2.symm
    rw [hc']
    exact h.repaired.survives
  · obtain ⟨x, hx, hrest⟩ := h
    exact ⟨x, (Dev.find_scrubRecord_ne hc).trans hx, hrest⟩

theorem Dev.Repaired.step {d : Dev} (h : d.Repaired found n) (c : Nat × Nat) : (Dev.scrubRecord found d c).Repaired found n := by
  by_cases hc : n.kind = c.1 ∧ n.key = c.2
  · have hc' : c = (n.kind, n.key) := Prod.ext hc.1.symm hc.2.symm
    rw [hc']
    exact h.survives.repaired
  · obtain ⟨hro, -, -, hawait⟩ := Dev.scrubRecord_keeps found d c
    obtain ⟨⟨x, hx, hrest⟩, hw⟩ := h
    exact ⟨⟨x, (Dev.find_scrubRecord_ne hc).trans hx, hrest⟩, fun hm hl => hawait _ _ (hw hm fun h => hl (hro.trans h))⟩

/-- A fold that keeps a fact, and at one of its elements a second one. -/
theorem foldl_reaches {α β : Type} {f : α → β → α} {P Q : α → Prop} {b : β} (hp : ∀ x c, P x → P (f x c)) (hq : ∀ x c, Q x → Q (f x c)) (hit : ∀ x, P x → Q (f x b)) :
    ∀ (l : List β) (x : α), b ∈ l → P x → Q (l.foldl f x)
  | [], _, hb, _ => absurd hb List.not_mem_nil
  | c :: l, x, hb, hx => by
    have hkeep : ∀ (l : List β) (x : α), Q x → Q (l.foldl f x) := fun l => by
      induction l with
      | nil => exact fun _ h => h
      | cons c l ih => exact fun x h => ih _ (hq x c h)
    rw [List.foldl_cons]
    obtain rfl | hb := List.mem_cons.1 hb
    · exact hkeep l _ (hit x hx)
    · exact foldl_reaches hp hq hit l _ hb (hp x c hx)

/-- A record that is lost for good, or gone already. -/
def Dev.Loses (n : NvRec) (d : Dev) : Prop :=
  d.pst.find n.kind n.key = none ∨ ∃ x, d.pst.find n.kind n.key = some x ∧ x.ok0 = false ∧ x.ok1 = false ∧ x.prev = none

theorem Dev.Loses.gone {d : Dev} (h : d.Loses n) : (Dev.scrubRecord found d (n.kind, n.key)).pst.find n.kind n.key = none := by
  rw [(Dev.scrubRecord_keeps found d (n.kind, n.key)).2.2.1]
  obtain h | ⟨x, hx, h0, h1, hp⟩ := h
  · rw [Dev.nvRead_absent h]
    exact h
  · exact (Dev.nvRead_lost hx h0 h1 hp).2

theorem Dev.Loses.step {d : Dev} (h : d.Loses n) (c : Nat × Nat) : (Dev.scrubRecord found d c).Loses n := by
  by_cases hc : n.kind = c.1 ∧ n.key = c.2
  · have hc' : c = (n.kind, n.key) := Prod.ext hc.1.symm hc.2.symm
    rw [hc']
    exact .inl h.gone
  · unfold Dev.Loses
    rw [Dev.find_scrubRecord_ne hc]
    exact h

theorem Dev.find_scrubRecord_none {d : Dev} (h : d.pst.find n.kind n.key = none) (c : Nat × Nat) : (Dev.scrubRecord found d c).pst.find n.kind n.key = none := by
  by_cases hc : n.kind = c.1 ∧ n.key = c.2
  · have hc' : c = (n.kind, n.key) := Prod.ext hc.1.symm hc.2.symm
    rw [hc']
    exact Dev.Loses.gone (.inl h)
  · rw [Dev.find_scrubRecord_ne hc, h]

theorem Dev.scrubRecords_stReq (l : List (Nat × Nat)) (d : Dev) : (l.foldl (Dev.scrubRecord found) d).stReq = d.stReq := by
  induction l generalizing d with
  | nil => rfl
  | cons c l ih => exact (ih _).trans (Dev.scrubRecord_keeps found d c).2.1

theorem Dev.scrubRecords_learnRo (l : List (Nat × Nat)) (d : Dev) : (l.foldl (Dev.scrubRecord found) d).pst.learnRo = d.pst.learnRo := by
  induction l generalizing d with
  | nil => rfl
  | cons c l ih => exact (ih _).trans (Dev.scrubRecord_keeps found d c).1

end

/-! ### The black box and the settlement -/

/-- A read of a black-box record touches only the black box. -/
theorem Dev.bbRead_keeps (d : Dev) (seq : Nat) : (d.bbRead seq).1.pst.recs = d.pst.recs ∧ (d.bbRead seq).1.pst.writes = d.pst.writes ∧ (d.bbRead seq).1.pst.learnRo = d.pst.learnRo ∧
    (d.bbRead seq).1.stReq = d.stReq := by
  unfold Dev.bbRead
  split
  · exact ⟨rfl, rfl, rfl, rfl⟩
  · split
    · exact ⟨rfl, rfl, rfl, rfl⟩
    · dsimp only
      refine ⟨(Dev.notes_raise _ _ _ _).recs, (Dev.notes_raise _ _ _ _).writes, (Dev.notes_raise _ _ _ _).learnRo, (Dev.spares_raise _ _ _ _ (by decide)).2.1⟩

theorem Dev.bbReads_keep (l : List Nat) (d : Dev) : (l.foldl (fun (d : Dev) q => (d.bbRead q).1) d).pst.recs = d.pst.recs ∧ (l.foldl (fun (d : Dev) q => (d.bbRead q).1) d).pst.writes = d.pst.writes ∧
    (l.foldl (fun (d : Dev) q => (d.bbRead q).1) d).pst.learnRo = d.pst.learnRo ∧ (l.foldl (fun (d : Dev) q => (d.bbRead q).1) d).stReq = d.stReq := by
  induction l generalizing d with
  | nil => exact ⟨rfl, rfl, rfl, rfl⟩
  | cons q l ih =>
    obtain ⟨h1, h2, h3, h4⟩ := ih (d.bbRead q).1
    obtain ⟨k1, k2, k3, k4⟩ := Dev.bbRead_keeps d q
    exact ⟨h1.trans k1, h2.trans k2, h3.trans k3, h4.trans k4⟩

section
variable {s : State} {t : Nat} {found : List (Nat × Nat)}

/-- The store after the background read, up to its black box. -/
theorem ends_scrub {p : Pst → Prop} (hon : s.dev.mainOn = true) (hcongr : ∀ x y : Pst, y.recs = x.recs → y.writes = x.writes → y.learnRo = x.learnRo → p x → p y)
    (h : p (((((begin_ t s.dev).overPages found).pst.recs.map fun (r : NvRec) => (r.kind, r.key)).foldl (Dev.scrubRecord found) ((begin_ t s.dev).overPages found)).pst)) :
    Ends (.pstScrub t found) s fun d => p d.pst := by
  refine ends_of (exec_pstScrub t found s) ?_
  rw [Dev.scrub_eq (mainOn_begin hon)]
  have hst : ((begin_ t s.dev).overPages found).stReq = [] := rfl
  generalize (begin_ t s.dev).overPages found = d at h hst
  have hcalm := (Dev.scrubRecords_stReq (found := found) (d.pst.recs.map fun (r : NvRec) => (r.kind, r.key)) d).trans hst
  generalize (d.pst.recs.map fun (r : NvRec) => (r.kind, r.key)).foldl (Dev.scrubRecord found) d = e at h hcalm
  obtain ⟨h1, h2, h3, h4⟩ := Dev.bbReads_keep (e.pst.bb.map fun (r : BbRec) => r.seq) e
  rw [settle_pst _ _ (h4.trans hcalm)]
  exact hcongr _ _ h1 h2 h3 h

theorem find_map_read (l : List NvRec) (k key : Nat) :
    (l.map (readRecord found)).find? (fun r => r.kind == k && r.key == key) = (l.find? (fun r => r.kind == k && r.key == key)).map (readRecord found) := by
  rw [List.find?_map]
  rfl

variable {kind key : Nat} {n : NvRec}

theorem ends_scrub_survives (hon : s.dev.mainOn = true) (hn : s.dev.pst.find kind key = some n)
    (hok : n.ok0 = true ∧ mostIn found n.page0 ≤ 8 ∨ n.ok1 = true ∧ mostIn found n.page1 ≤ 8) :
    Ends (.pstScrub t found) s fun d => (∃ x, d.pst.find kind key = some x ∧ x.body = n.body ∧ x.gen = n.gen ∧ x.ok0 = true ∧ x.ok1 = true) ∧
      (4 ≤ mostIn found n.page0 ∨ 4 ≤ mostIn found n.page1 → (s.dev.pst.learnRo = true → nvRegion kind ≠ 3) → d.pst.Awaits kind key) := by
  obtain ⟨rfl, rfl⟩ : n.kind = kind ∧ n.key = key := by
    have h := List.find?_some hn
    simpa using h
  refine ends_scrub (p := fun p => (∃ x, p.find n.kind n.key = some x ∧ x.body = n.body ∧ x.gen = n.gen ∧ x.ok0 = true ∧ x.ok1 = true) ∧
      (4 ≤ mostIn found n.page0 ∨ 4 ≤ mostIn found n.page1 → (s.dev.pst.learnRo = true → nvRegion n.kind ≠ 3) → p.Awaits n.kind n.key)) hon ?_ ?_
  · intro x y hr hw _ hx
    rw [Pst.find_congr hr]
    unfold Pst.Awaits at hx ⊢
    rw [hw]
    exact hx
  · have hsurv : ((begin_ t s.dev).overPages found).Survives n := by
      refine ⟨readRecord found n, ?_, rfl, rfl, rfl, rfl, ?_⟩
      · exact (find_map_read s.dev.pst.recs n.kind n.key).trans (congrArg (Option.map (readRecord found)) hn)
      · unfold readRecord
        obtain ⟨h, hm⟩ | ⟨h, hm⟩ := hok
        · simp [h, hm]
        · simp [h, hm]
    have hmem : (n.kind, n.key) ∈ ((begin_ t s.dev).overPages found).pst.recs.map fun (r : NvRec) => (r.kind, r.key) :=
      List.mem_map.2 ⟨readRecord found n, List.mem_map.2 ⟨n, List.mem_of_find?_eq_some hn, rfl⟩, rfl⟩
    have hro : ((begin_ t s.dev).overPages found).pst.learnRo = s.dev.pst.learnRo := rfl
    generalize (begin_ t s.dev).overPages found = d at hsurv hmem hro
    have hrep := foldl_reaches (Q := Dev.Repaired found n) (fun x c h => Dev.Survives.step h c) (fun x c h => Dev.Repaired.step h c) (fun x h => Dev.Survives.repaired h) _ d hmem hsurv
    have hro' := (Dev.scrubRecords_learnRo (found := found) (d.pst.recs.map fun (r : NvRec) => (r.kind, r.key)) d).trans hro
    obtain ⟨⟨x, h1, h2, h3, -, -, h4, h5⟩, hw⟩ := hrep
    exact ⟨⟨x, h1, h2, h3, h4, h5⟩, fun hm hl => hw hm fun h => hl (hro'.symm.trans h)⟩

theorem ends_scrub_lost (hon : s.dev.mainOn = true) (hn : s.dev.pst.find kind key = some n) (h0 : n.ok0 = false ∨ 8 < mostIn found n.page0) (h1 : n.ok1 = false ∨ 8 < mostIn found n.page1)
    (hp : n.prev = none) : Ends (.pstScrub t found) s fun d => d.pst.find kind key = none := by
  obtain ⟨rfl, rfl⟩ : n.kind = kind ∧ n.key = key := by
    have h := List.find?_some hn
    simpa using h
  refine ends_scrub (p := fun p => p.find n.kind n.key = none) hon (fun x y hr _ _ hx => (Pst.find_congr hr _ _).trans hx) ?_
  have hlose : ((begin_ t s.dev).overPages found).Loses n := by
    refine .inr ⟨readRecord found n, (find_map_read s.dev.pst.recs n.kind n.key).trans (congrArg (Option.map (readRecord found)) hn), ?_, ?_, hp⟩
    · unfold readRecord
      simpa using fun h => h0.resolve_left (by simp [h])
    · unfold readRecord
      simpa using fun h => h1.resolve_left (by simp [h])
  have hmem : (n.kind, n.key) ∈ ((begin_ t s.dev).overPages found).pst.recs.map fun (r : NvRec) => (r.kind, r.key) :=
    List.mem_map.2 ⟨readRecord found n, List.mem_map.2 ⟨n, List.mem_of_find?_eq_some hn, rfl⟩, rfl⟩
  generalize (begin_ t s.dev).overPages found = d at hlose hmem
  exact foldl_reaches (P := Dev.Loses n) (Q := fun d => d.pst.find n.kind n.key = none) (fun x c h => Dev.Loses.step h c) (fun _ c h => Dev.find_scrubRecord_none h c)
    (fun x h => Dev.Loses.gone h) _ d hmem hlose

end
end Sys2Proof.Machine
end

section
/-!
PROOFS. Proofs/Store.lean: the selection of a black-box record, and the store's statement (R480 to R485).
-/
namespace Sys2Proof.Machine

/-- What the selection of a record shows: 0 where a copy is left, 1 without the record, 2 without a copy. -/
def Pst.selection (p : Pst) (seq : Nat) : Nat := ((p.bb.find? fun x => x.seq == seq).map fun x => if x.ok0 || x.ok1 then 0 else 2).getD 1

theorem Dev.bbRead_none {d : Dev} {seq : Nat} (h : d.pst.bb.find? (fun r => r.seq == seq) = none) : d.bbRead seq = (d, none) := by
  unfold Dev.bbRead
  rw [h]

/-- A read of a record that the black box has answers it, and changes no register but counters. -/
theorem Dev.bbRead_some {d : Dev} {seq : Nat} {r : BbRec} (h : d.pst.bb.find? (fun r => r.seq == seq) = some r) :
    ∃ x, d.bbRead seq = (x, some r) ∧ x.rd Reg.PST_BB_SEL_SEQ = d.rd Reg.PST_BB_SEL_SEQ ∧ x.stReq = d.stReq ∧ x.out = d.out := by
  unfold Dev.bbRead
  rw [h]
  dsimp only
  split
  · exact ⟨d, rfl, rfl, rfl, rfl⟩
  · refine ⟨_, rfl, ?_⟩
    generalize hx : ({ d with pst := { d.pst with bb := d.pst.bb.map (fun (x : BbRec) => if x.seq == seq then { x with ok0 := true, ok1 := true } else x) } } : Dev) = x
    have hreg : x.regs = d.regs ∧ x.stReq = d.stReq ∧ x.out = d.out := by subst hx; exact ⟨rfl, rfl, rfl⟩
    obtain ⟨h1, h2, h3⟩ := hreg
    refine ⟨?_, (Dev.spares_raise _ _ _ _ (by decide)).2.1.trans h2, (Dev.raise_out _ _ _ _).trans h3⟩
    rw [Dev.rd_raise_quiet _ _ _ _ _ _ _ (by decide)]
    refine (Dev.rd_wr_apart x Reg.PST_CNT_ECC_CNT Reg.PST_BB_SEL_SEQ _ 0 0 0 0 (by decide)).trans ?_
    exact congrArg (fun w : Word => bitsOf w.toNat 0 32) (Dev.word_congr h1 _)

theorem Dev.bbSelect_shown (d : Dev) : (d.bbSelect).rd Reg.PST_BB_SEL_STAT_STAT = d.pst.selection (d.rd Reg.PST_BB_SEL_SEQ) ∧ d.bbSelect.rd Reg.PST_BB_SEL_SEQ = d.rd Reg.PST_BB_SEL_SEQ ∧
    d.bbSelect.stReq = d.stReq ∧ d.bbSelect.out = d.out := by
  have hshow : ∀ (x : Dev) (v : Nat), v < 4 → (x.wr Reg.PST_BB_SEL_STAT_STAT v).rd Reg.PST_BB_SEL_STAT_STAT = v ∧
      (x.wr Reg.PST_BB_SEL_STAT_STAT v).rd Reg.PST_BB_SEL_SEQ = x.rd Reg.PST_BB_SEL_SEQ := fun x v hv =>
    ⟨(Dev.rd_wr_self x Reg.PST_BB_SEL_STAT_STAT v 0 0 (by decide)).trans (Nat.mod_eq_of_lt hv), Dev.rd_wr_apart x Reg.PST_BB_SEL_STAT_STAT Reg.PST_BB_SEL_SEQ v 0 0 0 0 (by decide)⟩
  unfold Dev.bbSelect Pst.selection
  cases h : d.pst.bb.find? fun x => x.seq == d.rd Reg.PST_BB_SEL_SEQ with
  | none =>
    obtain ⟨h1, h2⟩ := hshow d 1 (by decide)
    rw [Dev.bbRead_none h]
    exact ⟨h1, h2, rfl, rfl⟩
  | some r =>
    have hcode : (if r.ok0 || r.ok1 then 0 else 2 : Nat) < 4 := by split <;> decide
    obtain ⟨x, hx, hseq, hst, hout⟩ := Dev.bbRead_some h
    obtain ⟨h1, h2⟩ := hshow x _ hcode
    rw [hx]
    exact ⟨h1, h2.trans hseq, (Dev.wr_stReq _ _ _ _ _).trans hst, (Dev.wr_out _ _ _ _ _).trans hout⟩

section
variable {s : State} {t : Nat}

theorem ends_pstBbSel {req : Nat} (v : Word) (hok : s.dev.Takes req) : Ends (.pstBbSel t req v) s fun d => d.rd Reg.PST_BB_SEL_SEQ = v.toNat ∧ d.out = [.status req 0] ∧
    d.rd Reg.PST_BB_SEL_STAT_STAT = s.dev.pst.selection v.toNat := by
  refine ends_hostWrite (exec_pstBbSel t req v s) hok (by decide) ?_
  generalize hd : (begin_ t s.dev).storeWord true 0x50208 v.toNat = d
  have hst : d.stReq = [] := by rw [← hd, Dev.storeWord_stReq]; rfl
  have hout : d.out = [] := by rw [← hd, Dev.storeWord_out]; rfl
  have hpst : d.pst = s.dev.pst := by rw [← hd, Dev.storeWord_pst]; rfl
  have hseq : d.rd Reg.PST_BB_SEL_SEQ = v.toNat := by
    rw [← hd, Dev.rd_storeWord_rw (begin_ t s.dev) v.toNat (by decide) Reg.PST_BB_SEL_SEQ 0 0 (pre := []) (post := []) (by decide) (by decide) (by decide) (by decide) (by decide)]
    unfold bitsOf
    rw [show Reg.PST_BB_SEL_SEQ.lo = 0 from rfl, show Reg.PST_BB_SEL_SEQ.width = 32 from rfl, Nat.pow_zero, Nat.div_one]
    exact Nat.mod_eq_of_lt v.isLt
  have heq : d.afterWrite req 0x50208 v.toNat = d.bbSelect := by
    generalize v.toNat = n
    unfold Dev.afterWrite Dev.boardWrite
    simp
  rw [heq]
  obtain ⟨h1, h2, h3, h4⟩ := Dev.bbSelect_shown d
  generalize d.bbSelect = e at h1 h2 h3 h4
  have hcalm : (e.emit (.status req 0)).stReq = [] := h3.trans hst
  refine ⟨?_, ?_, ?_⟩
  · rw [settle_rd_clear _ _ hcalm _ _ _ (by decide) (by decide), Dev.rd_emit, h2, hseq]
  · rw [settle_out _ _ hcalm]
    exact congrArg (· ++ [Out.status req 0]) (h4.trans hout)
  · rw [settle_rd_clear _ _ hcalm _ _ _ (by decide) (by decide), Dev.rd_emit, h1, hseq, hpst]

end

/-- Settles O58, by the program, the record of the background read or the selection that the command brings. -/
theorem storeWritesScrubsAndSelects : Obligations.StoreWritesScrubsAndSelects := by
  intro s t req kind key a b w rest r more n found v
  refine ⟨fun hon => ⟨fun hw ha hb => ?_, fun hr hcap ha hb => ends_bbWritten hon hr hcap ha hb, fun hw h3 hf _ hs => ends_learnFrozen hon hw h3 hf hs, fun hn => ⟨fun hok => ?_, fun h0 h1 hp => ?_⟩⟩,
    fun hok => ?_⟩
  · refine (ends_recordWritten (t := t) hon hw ha hb).imp fun d hd => ?_
    obtain ⟨h1, h2, h3⟩ := hd
    refine ⟨h1, ⟨_, h2, rfl, ?_, rfl, rfl, rfl, rfl, rfl⟩, h3⟩
    have hgen : ((begin_ t s.dev).written w a b).gen = ((s.dev.pst.find w.kind w.key).map NvRec.gen).getD 0 + 1 := rfl
    rw [hgen]
    cases s.dev.pst.find w.kind w.key
    · rfl
    · rfl
  · exact ends_scrub_survives hon hn hok
  · exact ends_scrub_lost hon hn h0 h1 hp
  · refine (ends_pstBbSel (t := t) v hok).imp fun d hd => ?_
    obtain ⟨h1, h2, h3⟩ := hd
    refine ⟨h1, h2, h3.trans ?_⟩
    unfold Pst.selection
    cases s.dev.pst.bb.find? fun x => x.seq == v.toNat
    · rfl
    · rfl

end Sys2Proof.Machine
end

section
/-!
PROOFS. Proofs/PairState.lean: what the operations on a pair's roles, epochs and switches leave and show (R374 to R378, R388, R389).
-/
namespace Sys2Proof.Machine

/-! ### Frames to the partner -/

section
variable (d : Dev) (links : List Nat) (typ : Nat) (pay : List Byte)

theorem Dev.peerSend_sin : (d.peerSend links typ pay).sin = { d.sin with txSeq := (d.peerSend links typ pay).sin.txSeq } := by
  unfold Dev.peerSend
  split
  · rfl
  · dsimp only
    rw [Dev.foldl_emit]

theorem Dev.peerSend_out : (d.peerSend links typ pay).out = d.out ++ links.map fun k => .peer k (peerFrame typ (d.sin.txSeq.get typ 0) pay) := by
  unfold Dev.peerSend
  split
  case isTrue h =>
    rw [List.isEmpty_iff.1 h, List.map_nil, List.append_nil]
  case isFalse =>
    dsimp only
    rw [Dev.foldl_emit]

@[simp] theorem Dev.peerSend_regs : (d.peerSend links typ pay).regs = d.regs := by rw [Dev.peerSend_eq]
@[simp] theorem Dev.peerSend_stReq : (d.peerSend links typ pay).stReq = d.stReq := by rw [Dev.peerSend_eq]
@[simp] theorem Dev.peerSend_gaf : (d.peerSend links typ pay).gaf = d.gaf := by rw [Dev.peerSend_eq]
@[simp] theorem Dev.peerSend_lnk : (d.peerSend links typ pay).lnk = d.lnk := by rw [Dev.peerSend_eq]
@[simp] theorem Dev.peerSend_switchK : (d.peerSend links typ pay).sin.switchK = d.sin.switchK := by rw [Dev.peerSend_sin]
@[simp] theorem Dev.peerSend_switchEpoch : (d.peerSend links typ pay).sin.switchEpoch = d.sin.switchEpoch := by rw [Dev.peerSend_sin]
@[simp] theorem Dev.peerSend_switchWrap : (d.peerSend links typ pay).sin.switchWrap = d.sin.switchWrap := by rw [Dev.peerSend_sin]
@[simp] theorem Dev.peerSend_acked : (d.peerSend links typ pay).sin.acked = d.sin.acked := by rw [Dev.peerSend_sin]
@[simp] theorem Dev.peerSend_lease : (d.peerSend links typ pay).sin.lease = d.sin.lease := by rw [Dev.peerSend_sin]
@[simp] theorem Dev.peerSend_gates : (d.peerSend links typ pay).sin.gates = d.sin.gates := by rw [Dev.peerSend_sin]
@[simp] theorem Dev.peerSend_actAt : (d.peerSend links typ pay).sin.actAt = d.sin.actAt := by rw [Dev.peerSend_sin]
@[simp] theorem Dev.peerSend_wants : (d.peerSend links typ pay).sin.wants = d.sin.wants := by rw [Dev.peerSend_sin]

theorem Dev.rd_peerSend (f : Field) (i j : Nat) : (d.peerSend links typ pay).rd f i j = d.rd f i j := Dev.rd_congr (Dev.word_congr (Dev.peerSend_regs d links typ pay) _)

end

/-! ### A write that stores nothing -/

/-- What a command written to a word that keeps nothing starts from. -/
structure Dev.Begins (t : Nat) (s d : Dev) : Prop where
  word : ∀ a, d.word a = s.word a
  same : d = { begin_ t s with regs := d.regs }

theorem Dev.begins_storeWord (t : Nat) (s : Dev) {off : Nat} (v : Nat) (h : off < 0x10000000) (hi : ((fieldsAt off).all fun f => !f.stores off) = true) :
    Dev.Begins t s ((begin_ t s).storeWord true off v) :=
  ⟨fun a => Dev.word_storeWord_inert _ v h hi a, Dev.storeWord_regs _ _ _ _⟩

section
variable {t : Nat} {s d : Dev} (h : Dev.Begins t s d)
include h

theorem Dev.Begins.rd (f : Field) (i j : Nat) : d.rd f i j = s.rd f i j := Dev.rd_congr (h.word _)
theorem Dev.Begins.mode : d.mode = s.mode := by rw [h.same]; rfl
theorem Dev.Begins.now : d.now = s.nowAt t := by rw [h.same]; rfl
theorem Dev.Begins.stReq : d.stReq = [] := by rw [h.same]; rfl
theorem Dev.Begins.out : d.out = [] := by rw [h.same]; rfl
theorem Dev.Begins.sin : d.sin = s.sin := by rw [h.same]; rfl
theorem Dev.Begins.img : d.img = s.img := by rw [h.same]; rfl
theorem Dev.Begins.gaf : d.gaf = s.gaf := by rw [h.same]; rfl
theorem Dev.Begins.touches {ws : List Nat} : Dev.Touches ws (begin_ t s) d := fun a _ _ => h.word a

end

/-! ### The manual switch (R389) -/

/-- The device once a switch to a boundary is set, its frame to come. -/
def Dev.switching (d : Dev) (k : Nat) (cause : Option Nat) : Dev :=
  let d := d.wr Reg.SIN_SWITCH_STATUS 0
  let d := { d with sin := { d.sin with switchK := some k, switchAt := d.own, switchOwn := true, acked := false, switchEpoch := d.rd Reg.SIN_EPOCH_EPOCH + 1, switchWrap := cause } }
  (d.set1 Reg.SIN_STATUS_SWITCH_PEND).wr Reg.SIN_SWITCH_K_K k

theorem Dev.switchGo_refused {d : Dev} (h : d.role ≠ roleActive ∨ d.mode ≠ .run) (lead : Nat) (cause : Option Nat) : d.switchGo lead cause = d.wr Reg.SIN_SWITCH_STATUS 1 := by
  unfold Dev.switchGo
  extract_lets k cut partner st e
  have hst : st = 1 := if_pos h
  rw [if_pos (by rw [hst]; decide)]
  exact congrArg (d.wr Reg.SIN_SWITCH_STATUS · 0 0) hst

theorem Dev.switchGo_done {d : Dev} (hr : d.role = roleActive) (hm : d.mode = .run) (h1 : d.rd Reg.SIN_STATUS_PARTNER_OK = 1) (h2 : d.rd Reg.SIN_STATUS_PARTNER_ROLE = roleStandIn)
    (h3 : d.rd Reg.SIN_STATUS_PARTNER_STATE = 4) (h4 : d.sin.pInstep = true) (h5 : d.rd Reg.SIN_STATUS_SWITCH_PEND = 0) (h6 : d.img.cut = none) (lead : Nat) (cause : Option Nat) :
    ∃ pay, d.switchGo lead cause = (d.switching (boundaryAfter (d.now + lead)) cause).peerSend (d.switching (boundaryAfter (d.now + lead)) cause).pairLinks pfSwitch pay := by
  unfold Dev.switchGo
  extract_lets k cut partner st e
  have hcut : cut = false := by
    change (match d.img.cut with | some c => _ | none => _) = false
    rw [h6]
  have hpartner : partner = true := by
    have : partner = (d.on Reg.SIN_STATUS_PARTNER_OK && d.rd Reg.SIN_STATUS_PARTNER_ROLE == roleStandIn && d.rd Reg.SIN_STATUS_PARTNER_STATE == 4 && d.sin.pInstep) := rfl
    rw [this, h2, h3, h4]
    simp [Dev.on, h1]
  have hst : st = 0 := by
    have hno : ¬ (d.role ≠ roleActive ∨ d.mode ≠ .run) := by simp [hr, hm]
    have hpend : ¬ d.on Reg.SIN_STATUS_SWITCH_PEND = true := by simp [Dev.on, h5]
    refine (if_neg hno).trans ((if_neg ?_).trans ((if_neg hpend).trans (if_neg ?_)))
    · rw [hpartner]
      decide
    · rw [hcut]
      decide
  rw [if_neg (by rw [hst]; decide)]
  clear_value st
  subst hst
  exact ⟨_, rfl⟩

/-! ### Ends of a switch -/

/-- A switch in progress that ends shows its status and is no longer pending. -/
theorem Dev.switchEnd_shown {d : Dev} (h : d.rd Reg.SIN_STATUS_SWITCH_PEND = 1) {st : Nat} (hst : st < 256) :
    (d.switchEnd st).rd Reg.SIN_STATUS_SWITCH_PEND = 0 ∧ (d.switchEnd st).rd Reg.SIN_SWITCH_STATUS = st ∧ (d.switchEnd st).sin = { d.sin with switchK := none, acked := false } := by
  have hno : ¬ (!d.on Reg.SIN_STATUS_SWITCH_PEND) = true := by simp [Dev.on, h]
  unfold Dev.switchEnd
  rw [if_neg hno]
  extract_lets src e
  refine ⟨?_, ?_, Dev.raise_sin _ _ _ _⟩
  · rw [Dev.rd_raise_quiet _ _ _ _ _ _ _ (by decide), Dev.rd_wr_apart _ _ _ _ _ _ _ _ (by decide)]
    exact Dev.rd_wr_self e Reg.SIN_STATUS_SWITCH_PEND 0 0 0 (by decide)
  · rw [Dev.rd_raise_quiet _ _ _ _ _ _ _ (by decide)]
    exact (Dev.rd_wr_self _ Reg.SIN_SWITCH_STATUS st 0 0 (by decide)).trans (Nat.mod_eq_of_lt hst)

/-- The switch ends and the partner is told. -/
theorem Dev.switchOff_shown {d : Dev} (h : d.rd Reg.SIN_STATUS_SWITCH_PEND = 1) {st : Nat} (hst : st < 256) :
    ((d.switchEnd st).switchOff).rd Reg.SIN_STATUS_SWITCH_PEND = 0 ∧ ((d.switchEnd st).switchOff).rd Reg.SIN_SWITCH_STATUS = st ∧ ((d.switchEnd st).switchOff).sin.switchK = none ∧
    ((d.switchEnd st).switchOff).stReq = d.stReq := by
  obtain ⟨h1, h2, h3⟩ := Dev.switchEnd_shown h hst
  have hst' : (d.switchEnd st).stReq = d.stReq := (Dev.spares_switchEnd d st).2.1
  generalize d.switchEnd st = e at h1 h2 h3 hst'
  unfold Dev.switchOff
  rw [Dev.rd_peerSend, Dev.rd_peerSend, Dev.peerSend_switchK, Dev.peerSend_stReq, h3]
  exact ⟨h1, h2, rfl, hst'⟩

end Sys2Proof.Machine
end

section
/-!
PROOFS. Proofs/RoleChange.lean: what a change of role leaves: the dispatch records that a takeover accepts, the origination of rings, the epoch (R114, R294, R374, R377).
-/
namespace Sys2Proof.Machine

/-- A step that keeps the device state and writes only elements of the given fields. -/
structure Dev.Within (l : List Field) (d e : Dev) : Prop where
  spares : d.Spares e
  writes : Dev.Writes l d e

namespace Dev.Within
variable {l : List Field}

theorem refl (l : List Field) (d : Dev) : Dev.Within l d d := ⟨Dev.Spares.refl d, Dev.Writes.refl l d⟩

theorem trans {a b c : Dev} (h : Dev.Within l a b) (k : Dev.Within l b c) : Dev.Within l a c := ⟨h.spares.trans k.spares, h.writes.trans k.writes⟩

theorem mono {m : List Field} {d e : Dev} (h : Dev.Within l d e) (hs : l ⊆ m) : Dev.Within m d e := ⟨h.spares, h.writes.mono hs⟩

theorem wr {f : Field} (d : Dev) (v : Nat) {i j : Nat} (hj : f.has i j = true) (h : f ∈ l) : Dev.Within l d (d.wr f v i j) := ⟨Dev.spares_wr _ _ _ _ _, Dev.Writes.wr d v hj h⟩

theorem bump {f : Field} (d : Dev) (n : Nat) {i j : Nat} (hj : f.has i j = true) (h : f ∈ l) : Dev.Within l d (d.bump f n i j) := wr d _ hj h

theorem raise (l : List Field) (d : Dev) (e : Ev) (inst data : Nat) (h : e.sev < 5) : Dev.Within l d (d.raise e inst data) := ⟨Dev.spares_raise _ _ _ _ h, Dev.Writes.raise l d e inst data⟩

theorem ite {d a b : Dev} (c : Prop) [Decidable c] (ha : Dev.Within l d a) (hb : Dev.Within l d b) : Dev.Within l d (if c then a else b) := by
  split
  · exact ha
  · exact hb

theorem foldl {β : Type} {f : Dev → β → Dev} (bs : List β) (hf : ∀ (x : Dev) b, b ∈ bs → Dev.Within l x (f x b)) (d : Dev) : Dev.Within l d (bs.foldl f d) := by
  induction bs generalizing d with
  | nil => exact refl l d
  | cons b bs ih => exact (hf d b List.mem_cons_self).trans (ih (fun x c hc => hf x c (List.mem_cons_of_mem _ hc)) (f d b))

/-- A device that differs in neither its registers nor its state. -/
theorem of_same {d e : Dev} (hs : d.Spares e) (hr : e.regs = d.regs) : Dev.Within l d e := ⟨hs, Dev.Writes.of_regs hr⟩

theorem stReq {d e : Dev} (h : Dev.Within l d e) : e.stReq = d.stReq := h.spares.2.1
theorem mode {d e : Dev} (h : Dev.Within l d e) : e.mode = d.mode := h.spares.1
theorem now {d e : Dev} (h : Dev.Within l d e) : e.now = d.now := h.spares.2.2.1
theorem own {d e : Dev} (h : Dev.Within l d e) : e.own = d.own := h.spares.2.2.2.1
theorem reel {d e : Dev} (h : Dev.Within l d e) : e.reel = d.reel := h.spares.2.2.2.2.1

theorem rd {d e : Dev} (h : Dev.Within l d e) {f : Field} {i j : Nat} (hj : f.has i j = true) (hc : f.clearOf l = true) : e.rd f i j = d.rd f i j := h.writes f i j hj hc

end Dev.Within

/-! ### Dispatch inputs (R288, R294) -/

/-- The fields that an input record may write. -/
def inputFields : List Field :=
  [Reg.DSP_CNT_REFUSED_CNT, Reg.DSP_ERR_REASON, Reg.DSP_ERR_PRODUCER, Reg.DSP_CNT_LATE_CNT, Reg.DSP_SEQ_FRAME_SEQ, Reg.DSP_SEQ_CAN_SEQ, Reg.DSP_STATUS_WDOG, Reg.DSP_STATUS_PENDING,
   Reg.DSP_STATUS_MIRROR]

/-- The sequence numbers of sent peer frames alone differ. -/
def Sin.Sends (a b : Sin) : Prop := b = { a with txSeq := b.txSeq }

theorem Sin.Sends.refl (a : Sin) : a.Sends a := rfl
theorem Sin.Sends.trans {a b c : Sin} (h : a.Sends b) (k : b.Sends c) : a.Sends c := by
  unfold Sin.Sends at *
  rw [k, h]

section
variable {a b : Sin} (h : a.Sends b)
include h
theorem Sin.Sends.gates : b.gates = a.gates := by rw [h]
theorem Sin.Sends.lease : b.lease = a.lease := by rw [h]
theorem Sin.Sends.actAt : b.actAt = a.actAt := by rw [h]
theorem Sin.Sends.switchK : b.switchK = a.switchK := by rw [h]
theorem Sin.Sends.switchWrap : b.switchWrap = a.switchWrap := by rw [h]
end

/-- A step of the dispatcher's inputs: it stays within its registers, and of the pair's state it moves the sequence numbers alone. -/
structure Dev.Inputs (d e : Dev) : Prop where
  within : Dev.Within inputFields d e
  sin : d.sin.Sends e.sin
  lnk : e.lnk = d.lnk
  gaf : e.gaf = d.gaf

theorem Dev.Inputs.refl (d : Dev) : d.Inputs d := ⟨Dev.Within.refl _ d, Sin.Sends.refl _, rfl, rfl⟩

theorem Dev.Inputs.trans {a b c : Dev} (h : a.Inputs b) (k : b.Inputs c) : a.Inputs c :=
  ⟨h.within.trans k.within, h.sin.trans k.sin, k.lnk.trans h.lnk, k.gaf.trans h.gaf⟩

theorem Dev.Inputs.wr {f : Field} (d : Dev) (v : Nat) {i j : Nat} (hj : f.has i j = true) (h : f ∈ inputFields) : d.Inputs (d.wr f v i j) :=
  ⟨Dev.Within.wr d v hj h, Sin.Sends.refl _, rfl, rfl⟩

theorem Dev.Inputs.raise (d : Dev) (e : Ev) (inst data : Nat) (h : e.sev < 5) : d.Inputs (d.raise e inst data) := by
  refine ⟨Dev.Within.raise _ _ _ _ _ h, ?_, Dev.raise_lnk _ _ _ _, Dev.raise_gaf _ _ _ _⟩
  rw [Dev.raise_sin]
  exact Sin.Sends.refl _

theorem Dev.Inputs.raiseHeld (d : Dev) (e : Ev) (key ival inst : Nat) (data : Nat → Nat) (h : e.sev < 5) : d.Inputs (d.raiseHeld e key ival inst data) := by
  have hhold : ∀ x : Tbl (Nat × Nat), d.Inputs { d with hold := x } := fun x =>
    ⟨Dev.Within.of_same ⟨rfl, rfl, rfl, rfl, rfl, rfl, rfl, rfl, rfl⟩ rfl, Sin.Sends.refl _, rfl, rfl⟩
  unfold Dev.raiseHeld
  dsimp only
  split
  · exact hhold _
  · exact (hhold _).trans (Dev.Inputs.raise _ _ _ _ h)

theorem Dev.Inputs.dsp (d : Dev) (x : Dsp) : d.Inputs { d with dsp := x } :=
  ⟨Dev.Within.of_same ⟨rfl, rfl, rfl, rfl, rfl, rfl, rfl, rfl, rfl⟩ rfl, Sin.Sends.refl _, rfl, rfl⟩

theorem Dev.Inputs.peerSend (d : Dev) (links : List Nat) (typ : Nat) (pay : List Byte) : d.Inputs (d.peerSend links typ pay) :=
  ⟨Dev.Within.of_same (Dev.spares_peerSend _ _ _ _) (Dev.peerSend_regs _ _ _ _), Dev.peerSend_sin _ _ _ _, Dev.peerSend_lnk _ _ _ _, Dev.peerSend_gaf _ _ _ _⟩

theorem Dev.Inputs.ite {d a b : Dev} (c : Prop) [Decidable c] (ha : d.Inputs a) (hb : d.Inputs b) : d.Inputs (if c then a else b) := by
  split
  · exact ha
  · exact hb

theorem Dev.inputs_dspRefuse (d : Dev) (prod reason seq : Nat) : d.Inputs (d.dspRefuse prod reason seq) := by
  unfold Dev.dspRefuse
  extract_lets e f
  have he : d.Inputs e := ((Dev.Inputs.wr d _ (by decide) (by decide)).trans (Dev.Inputs.wr _ _ (by decide) (by decide))).trans (Dev.Inputs.wr _ _ (by decide) (by decide))
  have hf : e.Inputs f := Dev.Inputs.ite _ (Dev.Inputs.raise _ _ _ _ (by decide)) (Dev.Inputs.refl e)
  exact (he.trans hf).trans (Dev.Inputs.raiseHeld _ _ _ _ _ _ (by decide))

theorem Dev.inputs_dspAccept (d : Dev) (x : DRaw) (b : Nat) : d.Inputs (d.dspAccept x b) := by
  unfold Dev.dspAccept
  extract_lets src se e f sg acc g entry sh
  have he : d.Inputs e := Dev.Inputs.ite _ (Dev.Inputs.dsp d _) (Dev.Inputs.refl d)
  have hf : e.Inputs f := Dev.Inputs.ite _ (Dev.Inputs.wr _ _ (by decide) (by decide)) (Dev.Inputs.ite _ (Dev.Inputs.wr _ _ (by decide) (by decide)) (Dev.Inputs.refl e))
  have hacc : f.Inputs acc := Dev.Inputs.dsp f _
  have hg : f.Inputs g := Dev.Inputs.ite _ (Dev.Inputs.ite _ (hacc.trans (Dev.Inputs.wr acc 0 (by decide) (by decide))) hacc) (Dev.Inputs.refl f)
  exact ((he.trans hf).trans hg).trans (Dev.Inputs.dsp g _)

theorem Dev.inputs_dspTake (d : Dev) (x : DRaw) : d.Inputs (d.dspTake x) := by
  unfold Dev.dspTake
  extract_lets early sd e sr r
  have he : d.Inputs e := Dev.Inputs.dsp d _
  refine he.trans (Dev.Inputs.ite _ (Dev.Inputs.dsp e _) (Dev.Inputs.ite _ (Dev.inputs_dspRefuse _ _ _ _) (Dev.Inputs.ite _ (Dev.Inputs.dsp e _) ?_)))
  generalize e.dspApply _ = p
  obtain ⟨b, late⟩ := p
  dsimp -zeta only
  extract_lets f g
  have hf : e.Inputs f := Dev.Inputs.ite _ ((Dev.Inputs.wr e _ (by decide) (by decide)).trans (Dev.Inputs.raiseHeld _ _ _ _ _ _ (by decide))) (Dev.Inputs.refl e)
  exact (hf.trans (Dev.inputs_dspAccept f x _)).trans (Dev.Inputs.ite _ (Dev.Inputs.peerSend _ _ _ _) (Dev.Inputs.refl _))

/-- A takeover accepts the inputs held, and changes nothing else of the pair's state. -/
theorem Dev.inputs_dspTakeover (d : Dev) : d.Inputs d.dspTakeover := by
  have hfold : ∀ (l : List (DRaw × Nat)) (x : Dev), x.Inputs (l.foldl (fun (d : Dev) h => d.dspTake h.1) x) := fun l => by
    induction l with
    | nil => exact Dev.Inputs.refl
    | cons h l ih => exact fun x => (Dev.inputs_dspTake x h.1).trans (ih _)
  unfold Dev.dspTakeover Dev.dspShow
  extract_lets held sd e
  exact (((Dev.Inputs.dsp d _).trans (hfold held e)).trans (Dev.Inputs.wr _ _ (by decide) (by decide))).trans (Dev.Inputs.wr _ _ (by decide) (by decide))

/-! ### Roles, epochs, joining -/

/-- The fields of the pair's status that change with its role. -/
def roleFields : List Field := [Reg.SIN_STATUS_ROLE]

theorem Dev.within_setRole (d : Dev) (r : Nat) : Dev.Within roleFields d (d.setRole r) := by
  unfold Dev.setRole
  split
  · exact Dev.Within.refl _ d
  · exact (Dev.Within.wr d r (by decide) (by decide)).trans (Dev.Within.raise _ _ _ _ _ (by decide))

theorem Dev.setRole_role {d : Dev} {r : Nat} (h : r < 4) : (d.setRole r).rd Reg.SIN_STATUS_ROLE = r := by
  unfold Dev.setRole
  split
  case isTrue hr => exact hr
  case isFalse =>
    dsimp only
    rw [Dev.rd_raise_quiet _ _ _ _ _ _ _ (by decide)]
    exact (Dev.rd_wr_self d Reg.SIN_STATUS_ROLE r 0 0 (by decide)).trans (Nat.mod_eq_of_lt h)

@[simp] theorem Dev.setRole_sin (d : Dev) (r : Nat) : (d.setRole r).sin = d.sin := by
  unfold Dev.setRole
  split
  · rfl
  · exact Dev.raise_sin _ _ _ _

@[simp] theorem Dev.setRole_lnk (d : Dev) (r : Nat) : (d.setRole r).lnk = d.lnk := by
  unfold Dev.setRole
  split
  · rfl
  · exact Dev.raise_lnk _ _ _ _

/-- Setting the epoch shows it; nothing else of the pair's state changes. -/
theorem Dev.setEpoch_eq (d : Dev) (e : Nat) : ∃ p, d.setEpoch e = { d.wr Reg.SIN_EPOCH_EPOCH e with pst := p } := by
  unfold Dev.setEpoch Dev.nvWrite
  dsimp only
  split
  · split
    · exact ⟨_, rfl⟩
    · exact ⟨_, rfl⟩
  · exact ⟨_, rfl⟩

theorem Dev.within_setEpoch (d : Dev) (e : Nat) : Dev.Within [Reg.SIN_EPOCH_EPOCH] d (d.setEpoch e) := by
  obtain ⟨p, hp⟩ := Dev.setEpoch_eq d e
  have hregs : (d.setEpoch e).regs = (d.wr Reg.SIN_EPOCH_EPOCH e).regs := by rw [hp]
  exact ⟨Dev.spares_setEpoch d e, (Dev.Writes.wr d e (by decide) (by decide)).trans (Dev.Writes.of_regs hregs)⟩

theorem Dev.setEpoch_shown (d : Dev) (e : Nat) : (d.setEpoch e).rd Reg.SIN_EPOCH_EPOCH = e % 2 ^ 32 := by
  obtain ⟨p, hp⟩ := Dev.setEpoch_eq d e
  rw [hp]
  exact Dev.rd_wr_self d Reg.SIN_EPOCH_EPOCH e 0 0 (by decide)

@[simp] theorem Dev.setEpoch_sin (d : Dev) (e : Nat) : (d.setEpoch e).sin = d.sin := by
  obtain ⟨p, hp⟩ := Dev.setEpoch_eq d e
  rw [hp]
  rfl

@[simp] theorem Dev.setEpoch_lnk (d : Dev) (e : Nat) : (d.setEpoch e).lnk = d.lnk := by
  obtain ⟨p, hp⟩ := Dev.setEpoch_eq d e
  rw [hp]
  rfl

/-- The fields that joining a partner writes. -/
def joinFields : List Field := [Reg.SIN_STATUS_JOINING, Reg.SIN_STATUS_INSTEP, Reg.SIN_AGREE_AGREE_RUN]

theorem Dev.within_join (d : Dev) (cause : Nat) : Dev.Within joinFields d (d.join cause) := by
  unfold Dev.join
  extract_lets was e sd f g
  have he : Dev.Within joinFields d e := (Dev.Within.wr d 1 (by decide) (by decide)).trans (Dev.Within.wr _ 0 (by decide) (by decide))
  have hf : Dev.Within joinFields e f := Dev.Within.of_same ⟨rfl, rfl, rfl, rfl, rfl, rfl, rfl, rfl, rfl⟩ rfl
  exact ((he.trans hf).trans (Dev.Within.wr f 0 (by decide) (by decide))).trans (Dev.Within.ite _ (Dev.Within.raise _ _ _ _ _ (by decide)) (Dev.Within.refl _ _))

theorem Dev.join_sin (d : Dev) (cause : Nat) : (d.join cause).sin = { d.sin with snapDone := false, agree := 0, differ := 0 } := by
  unfold Dev.join
  extract_lets was e sd f g
  have hg : g.sin = { d.sin with snapDone := false, agree := 0, differ := 0 } := rfl
  split
  · rw [Dev.raise_sin, hg]
  · exact hg

/-! ### Origination (R114, R383) -/

/-- The fields that a change of origination writes. -/
def origFields : List Field := [Reg.LNK_PORT_STAT_ROLE, Reg.SIN_STATUS_ORIGINATES, Reg.LNK_RING_STAT_ORIG]

theorem Dev.within_setOrig (d : Dev) {ring : Nat} (h : ring < 64) (on : Bool) : Dev.Within origFields d (d.setOrig ring on) := by
  refine ⟨Dev.spares_setOrig d ring on, ?_⟩
  unfold Dev.setOrig
  extract_lets r e code f g
  have he : Dev.Writes origFields d e := Dev.Writes.of_regs rfl
  have hf : Dev.Writes origFields e f := by
    refine Dev.Writes.foldl _ (fun x p hp => ?_) e
    have hp' : p < 128 := by
      simp only [List.mem_cons, List.not_mem_nil, or_false] at hp
      omega
    exact Dev.Writes.wr x _ (Field.has_of hp' (by decide)) (by decide)
  have hg : Dev.Writes origFields f g := Dev.Writes.wr f _ (by decide) (by decide)
  refine ((he.trans hf).trans hg).trans (Dev.Writes.ite _ (Dev.Writes.refl _ g) ?_)
  exact (Dev.Writes.wr g code (Field.has_of h (by decide)) (by decide)).trans (Dev.Writes.raise _ _ _ _ _)

theorem Dev.setOrig_sin (d : Dev) (ring : Nat) (on : Bool) : (d.setOrig ring on).sin = d.sin := by
  have hfold : ∀ (v : Nat) (l : List Nat) (x : Dev), (l.foldl (fun (d : Dev) p => d.wr Reg.LNK_PORT_STAT_ROLE v p) x).sin = x.sin := fun v l => by
    induction l with
    | nil => exact fun _ => rfl
    | cons p l ih =>
      intro x
      rw [List.foldl_cons, ih, Dev.wr_sin]
  unfold Dev.setOrig
  extract_lets r e code f g
  have hg : g.sin = d.sin := (Dev.wr_sin _ _ _ _ _).trans (hfold _ _ e)
  split
  · exact hg
  · rw [Dev.raise_sin, Dev.wr_sin, hg]

theorem Reel.lt_of_mem_rings {r : Reel} {g : Nat} (h : g ∈ r.rings) : g < 64 := List.mem_range.1 (List.mem_filter.1 h).1

theorem Dev.within_originate (d : Dev) : Dev.Within origFields d d.originate := by
  unfold Dev.originate
  extract_lets partner opened
  refine Dev.Within.foldl _ (fun x g hg => ?_) d
  exact Dev.Within.ite _ (Dev.within_setOrig x (Reel.lt_of_mem_rings hg) _) (Dev.Within.ite _ (Dev.within_setOrig x (Reel.lt_of_mem_rings hg) _) (Dev.Within.refl _ x))

theorem Dev.originate_sin (d : Dev) : d.originate.sin = d.sin := by
  unfold Dev.originate
  extract_lets partner opened
  generalize d.rl.rings = l
  clear_value partner opened
  induction l generalizing d with
  | nil => rfl
  | cons g l ih =>
    rw [List.foldl_cons, ih]
    dsimp only
    split
    · exact Dev.setOrig_sin d g true
    · split
      · exact Dev.setOrig_sin d g false
      · rfl

end Sys2Proof.Machine
end

section
/-!
PROOFS. Proofs/Switch.lean: the manual switch and the peer links (R389, R392).
-/
namespace Sys2Proof.Machine

/-- Where the gates are closed, or the device may not actuate, no trip output is permissive. -/
theorem Dev.Settled.no_trip {d : Dev} (h : d.Settled) (hg : ¬ (d.live = true ∧ d.actRole = true ∧ d.sin.gates = true ∧ d.gaf.immediate = none)) : d.pins.tripH = 0 ∧ d.pins.tripP = 0 := by
  obtain ⟨-, htrip, -, -⟩ := h
  exact ⟨by_contra fun hn => hg (htrip (.inl hn)), by_contra fun hn => hg (htrip (.inr hn))⟩

theorem settle_no_trip (o : Dev) {d : Dev} (hst : d.stReq = []) (hg : d.sin.gates = false) : (settle o d).pins.tripH = 0 ∧ (settle o d).pins.tripP = 0 := by
  refine (settle_settled o d).no_trip fun h => ?_
  rw [settle_sin o d hst, hg] at h
  exact absurd h.2.2.1 (by decide)

section
variable {s : State} {t req : Nat}

/-! ### Requests of the host -/

theorem inert_sinCtrl : ((fieldsAt 0x60014).all fun f => !f.stores 0x60014) = true := by decide

/-- A command written to SIN_CTRL, from the device before it. -/
theorem ends_sinCtrl {c : Instr} {v : Word} {p : Dev → Prop} {f : Dev → Dev} (hc : exec c s = s.run t fun d => d.hostWrite req 0x60014 v) (hok : s.dev.Takes req)
    (hf : ∀ d : Dev, d.afterWrite req 0x60014 v.toNat = f d) (h : ∀ d, Dev.Begins t s.dev d → p (settle s.dev ((f d).emit (.status req 0)))) : Ends c s p := by
  refine ends_hostWrite hc hok (by decide) ?_
  rw [hf]
  exact h _ (Dev.begins_storeWord t s.dev v.toNat (by decide) inert_sinCtrl)

theorem Dev.afterWrite_switch (d : Dev) : d.afterWrite req 0x60014 (1#32).toNat = d.switchGo 1000000 none := by
  unfold Dev.afterWrite Dev.boardWrite
  simp [bitAt]

theorem Dev.afterWrite_abort (d : Dev) : d.afterWrite req 0x60014 (2#32).toNat = d.switchAbort := by
  unfold Dev.afterWrite Dev.boardWrite
  simp [bitAt]

theorem Dev.switching_shown (d : Dev) (k : Nat) (cause : Option Nat) : (d.switching k cause).rd Reg.SIN_SWITCH_STATUS = 0 ∧ (d.switching k cause).rd Reg.SIN_STATUS_SWITCH_PEND = 1 ∧
    (d.switching k cause).sin.switchK = some k ∧ (d.switching k cause).sin.switchEpoch = d.rd Reg.SIN_EPOCH_EPOCH + 1 ∧ (d.switching k cause).sin.acked = false ∧
    (d.switching k cause).sin.switchWrap = cause ∧ (d.switching k cause).stReq = d.stReq ∧ Dev.Touches [0x60000, 0x60018, 0x6001C] d (d.switching k cause) := by
  have hepoch := Dev.rd_wr_apart d Reg.SIN_SWITCH_STATUS Reg.SIN_EPOCH_EPOCH 0 0 0 0 0 (by decide)
  unfold Dev.switching
  extract_lets e src f
  have hstatus : f.rd Reg.SIN_SWITCH_STATUS = 0 := Dev.rd_wr_self d Reg.SIN_SWITCH_STATUS 0 0 0 (by decide)
  have hk : f.sin.switchK = some k ∧ f.sin.switchEpoch = (d.wr Reg.SIN_SWITCH_STATUS 0).rd Reg.SIN_EPOCH_EPOCH + 1 ∧ f.sin.acked = false ∧ f.sin.switchWrap = cause ∧ f.stReq = d.stReq := ⟨rfl, rfl, rfl, rfl, rfl⟩
  have ht : Dev.Touches [0x60000, 0x60018, 0x6001C] d f := (Dev.Touches.wr d (f := Reg.SIN_SWITCH_STATUS) 0 0 0 (by decide)).trans (Dev.Touches.of_regs rfl)
  rw [hepoch] at hk
  clear_value f
  have hs : ((f.set1 Reg.SIN_STATUS_SWITCH_PEND).wr Reg.SIN_SWITCH_K_K k).sin = f.sin := (Dev.wr_sin _ _ _ _ _).trans (Dev.wr_sin _ _ _ _ _)
  obtain ⟨h1, h2, h3, h4, h5⟩ := hk
  refine ⟨?_, ?_, h1, (congrArg Sin.switchEpoch hs).trans h2, h3, h4, ((Dev.wr_stReq _ _ _ _ _).trans (Dev.wr_stReq _ _ _ _ _)).trans h5, ht.trans ?_⟩
  · rw [Dev.rd_wr_apart _ _ _ _ _ _ _ _ (by decide)]
    exact (Dev.rd_wr_apart f Reg.SIN_STATUS_SWITCH_PEND Reg.SIN_SWITCH_STATUS 1 0 0 0 0 (by decide)).trans hstatus
  · rw [Dev.rd_wr_apart _ _ _ _ _ _ _ _ (by decide)]
    exact Dev.rd_wr_self f Reg.SIN_STATUS_SWITCH_PEND 1 0 0 (by decide)
  · exact (Dev.Touches.wr f (f := Reg.SIN_STATUS_SWITCH_PEND) 1 0 0 (by decide)).trans (Dev.Touches.wr _ k 0 0 (by decide))

theorem Dev.Touches.peerSend (ws : List Nat) (d : Dev) (links : List Nat) (typ : Nat) (pay : List Byte) : Dev.Touches ws d (d.peerSend links typ pay) :=
  Dev.Touches.of_regs (Dev.peerSend_regs d links typ pay)

theorem Dev.rd_settle_emit {f : Field} {i j : Nat} (o e : Dev) (x : Out) (hst : e.stReq = []) (hj : f.has i j = true) (hf : f.clearOf settleFields = true) :
    (settle o (e.emit x)).rd f i j = e.rd f i j := (settle_rd_clear o (e.emit x) hst f i j hj hf).trans (Dev.rd_emit _ _ _ _ _)

theorem settle_emit_sin (o e : Dev) (x : Out) (hst : e.stReq = []) : (settle o (e.emit x)).sin = e.sin := settle_sin o (e.emit x) hst

theorem ends_sinSwitch (hok : s.dev.Takes req) (hr : s.dev.role = roleActive) (hm : s.dev.mode = .run) (h1 : s.dev.rd Reg.SIN_STATUS_PARTNER_OK = 1)
    (h2 : s.dev.rd Reg.SIN_STATUS_PARTNER_ROLE = roleStandIn) (h3 : s.dev.rd Reg.SIN_STATUS_PARTNER_STATE = 4) (h4 : s.dev.sin.pInstep = true)
    (h5 : s.dev.rd Reg.SIN_STATUS_SWITCH_PEND = 0) (h6 : s.dev.img.cut = none) :
    Ends (.sinSwitch t req) s fun d => d.rd Reg.SIN_SWITCH_STATUS = 0 ∧ d.rd Reg.SIN_STATUS_SWITCH_PEND = 1 ∧ d.sin.switchK = some (boundaryAfter (s.dev.nowAt t + 1000000)) ∧
      d.sin.switchEpoch = s.dev.rd Reg.SIN_EPOCH_EPOCH + 1 ∧ d.sin.acked = false ∧ s.dev.OnlyWrites d [0x60000, 0x60018, 0x6001C] := by
  refine ends_sinCtrl (exec_sinSwitch t req s) hok Dev.afterWrite_switch fun d hd => ?_
  obtain ⟨pay, hgo⟩ := Dev.switchGo_done ((hd.rd _ _ _).trans hr) (hd.mode.trans hm) ((hd.rd _ _ _).trans h1) ((hd.rd _ _ _).trans h2) ((hd.rd _ _ _).trans h3)
    ((congrArg Sin.pInstep hd.sin).trans h4) ((hd.rd _ _ _).trans h5) ((congrArg Img.cut hd.img).trans h6) 1000000 none
  have hepoch := hd.rd Reg.SIN_EPOCH_EPOCH 0 0
  have hbegin : Dev.Touches [0x60000, 0x60018, 0x6001C] (begin_ t s.dev) d := hd.touches
  rw [hgo, hd.now]
  have hst := hd.stReq
  clear hgo hd
  generalize hk : boundaryAfter (s.dev.nowAt t + 1000000) = k
  obtain ⟨k1, k2, k3, k4, k5, -, k6, k7⟩ := Dev.switching_shown d k none
  generalize d.switching k none = e at k1 k2 k3 k4 k5 k6 k7
  generalize hx : e.peerSend e.pairLinks pfSwitch pay = x
  have hxst : x.stReq = [] := by rw [← hx, Dev.peerSend_stReq, k6, hst]
  have hrd : ∀ (f : Field) (i j : Nat), x.rd f i j = e.rd f i j := fun f i j => by rw [← hx, Dev.rd_peerSend]
  have hsin : x.sin.switchK = e.sin.switchK ∧ x.sin.switchEpoch = e.sin.switchEpoch ∧ x.sin.acked = e.sin.acked := by
    rw [← hx]
    exact ⟨Dev.peerSend_switchK _ _ _ _, Dev.peerSend_switchEpoch _ _ _ _, Dev.peerSend_acked _ _ _ _⟩
  have htouch : Dev.Touches [0x60000, 0x60018, 0x6001C] (begin_ t s.dev) (x.emit (.status req 0)) := by
    rw [← hx]
    exact ((hbegin.trans k7).trans (Dev.Touches.peerSend _ _ _ _ _)).trans (Dev.Touches.of_regs (Dev.emit_regs _ _))
  refine ⟨?_, ?_, ?_, ?_, ?_, htouch.settle hxst⟩
  · rw [Dev.rd_settle_emit _ _ _ hxst (by decide) (by decide), hrd, k1]
  · rw [Dev.rd_settle_emit _ _ _ hxst (by decide) (by decide), hrd, k2]
  all_goals rw [settle_emit_sin _ _ _ hxst]
  · exact hsin.1.trans k3
  · exact hsin.2.1.trans (k4.trans (congrArg (· + 1) hepoch))
  · exact hsin.2.2.trans k5

theorem ends_sinSwitch_refused (hok : s.dev.Takes req) (h : s.dev.role ≠ roleActive ∨ s.dev.mode ≠ .run) :
    Ends (.sinSwitch t req) s fun d => d.rd Reg.SIN_SWITCH_STATUS = 1 ∧ d.sin.switchK = s.dev.sin.switchK ∧ s.dev.OnlyWrites d [0x60018] := by
  refine ends_sinCtrl (exec_sinSwitch t req s) hok Dev.afterWrite_switch fun d hd => ?_
  have hno : d.role ≠ roleActive ∨ d.mode ≠ .run := h.imp (fun h => fun hr => h ((hd.rd Reg.SIN_STATUS_ROLE 0 0).symm.trans hr)) (fun h => fun hm => h (hd.mode.symm.trans hm))
  rw [Dev.switchGo_refused hno]
  have hst : (d.wr Reg.SIN_SWITCH_STATUS 1).stReq = [] := hd.stReq
  have htouch : Dev.Touches [0x60018] (begin_ t s.dev) ((d.wr Reg.SIN_SWITCH_STATUS 1).emit (.status req 0)) :=
    (hd.touches.trans (Dev.Touches.wr d 1 0 0 (by decide))).trans (Dev.Touches.of_regs (Dev.emit_regs _ _))
  refine ⟨?_, ?_, htouch.settle hst⟩
  · rw [Dev.rd_settle_emit _ _ _ hst (by decide) (by decide)]
    exact Dev.rd_wr_self d Reg.SIN_SWITCH_STATUS 1 0 0 (by decide)
  · rw [settle_emit_sin _ _ _ hst]
    exact congrArg Sin.switchK hd.sin

theorem ends_switchAbort (hok : s.dev.Takes req) (h : s.dev.rd Reg.SIN_STATUS_SWITCH_PEND = 1) :
    Ends (.switchAbort t req) s fun d => d.rd Reg.SIN_STATUS_SWITCH_PEND = 0 ∧ d.rd Reg.SIN_SWITCH_STATUS = 6 ∧ d.sin.switchK = none := by
  refine ends_sinCtrl (exec_switchAbort t req s) hok Dev.afterWrite_abort fun d hd => ?_
  have hpend : d.rd Reg.SIN_STATUS_SWITCH_PEND = 1 := (hd.rd _ _ _).trans h
  have heq : d.switchAbort = (d.switchEnd 6).switchOff := if_pos (by simp [Dev.on, hpend])
  obtain ⟨h1, h2, h3, h4⟩ := Dev.switchOff_shown hpend (st := 6) (by decide)
  have hst : d.stReq = [] := hd.stReq
  rw [heq]
  generalize (d.switchEnd 6).switchOff = e at h1 h2 h3 h4
  have hest : e.stReq = [] := h4.trans hst
  refine ⟨?_, ?_, ?_⟩
  · rw [Dev.rd_settle_emit _ _ _ hest (by decide) (by decide), h1]
  · rw [Dev.rd_settle_emit _ _ _ hest (by decide) (by decide), h2]
  · rw [settle_emit_sin _ _ _ hest]
    exact h3

theorem ends_switchNoAck (h : s.dev.rd Reg.SIN_STATUS_SWITCH_PEND = 1) (ho : s.dev.sin.switchOwn = true) (ha : s.dev.sin.acked = false) (ht : s.dev.sin.switchAt + 200000 ≤ s.dev.ownAt t) :
    Ends (.switchNoAck t) s fun d => d.rd Reg.SIN_STATUS_SWITCH_PEND = 0 ∧ d.rd Reg.SIN_SWITCH_STATUS = 4 ∧ d.sin.switchK = none := by
  refine ends_of (exec_switchNoAck t s) ?_
  have hpend : (begin_ t s.dev).rd Reg.SIN_STATUS_SWITCH_PEND = 1 := h
  have hcond : ((begin_ t s.dev).on Reg.SIN_STATUS_SWITCH_PEND && (begin_ t s.dev).sin.switchOwn && !(begin_ t s.dev).sin.acked
      && decide ((begin_ t s.dev).sin.switchAt + 200000 ≤ (begin_ t s.dev).own)) = true := by
    rw [show (begin_ t s.dev).sin = s.dev.sin from rfl, show (begin_ t s.dev).own = s.dev.ownAt t from rfl, ho, ha, decide_eq_true ht]
    simp [Dev.on, hpend]
  have heq : (begin_ t s.dev).switchNoAck = ((begin_ t s.dev).switchEnd 4).switchOff := if_pos hcond
  have hst : (begin_ t s.dev).stReq = [] := rfl
  rw [heq]
  generalize begin_ t s.dev = d at hpend hst
  obtain ⟨h1, h2, h3, h4⟩ := Dev.switchOff_shown hpend (st := 4) (by decide)
  generalize (d.switchEnd 4).switchOff = e at h1 h2 h3 h4
  have hest : e.stReq = [] := h4.trans hst
  refine ⟨?_, ?_, ?_⟩
  · rw [settle_rd_clear _ _ hest _ _ _ (by decide) (by decide), h1]
  · rw [settle_rd_clear _ _ hest _ _ _ (by decide) (by decide), h2]
  · rw [settle_sin _ _ hest]
    exact h3

end
end Sys2Proof.Machine
end

section
/-!
PROOFS. Proofs/PeerFrames.lean: frames heard from a peer, the boundary of a switch, peer links going down and up (R389, R392).
-/
namespace Sys2Proof.Machine

/-! ### A frame that is heard -/

/-- The device that has noted what it has seen of a link's frames. -/
def Dev.noting (d : Dev) (seen : List (Nat × Nat × Nat × Nat)) : Dev := { d with sin := { d.sin with seen := seen } }

/-- The device once a peer frame is heard: what it has seen is noted, the frame counted. -/
def Dev.heard (d : Dev) (link : Nat) (seen : List (Nat × Nat × Nat × Nat)) : Dev := (d.noting seen).bump Reg.SIN_PEER_FRAMES_CNT 1 link

section
variable (d : Dev) (link : Nat) (seen : List (Nat × Nat × Nat × Nat))

@[simp] theorem Dev.heard_sin : (d.heard link seen).sin = { d.sin with seen := seen } := rfl
@[simp] theorem Dev.heard_stReq : (d.heard link seen).stReq = d.stReq := rfl
@[simp] theorem Dev.heard_mode : (d.heard link seen).mode = d.mode := rfl
@[simp] theorem Dev.heard_now : (d.heard link seen).now = d.now := rfl
@[simp] theorem Dev.heard_own : (d.heard link seen).own = d.own := rfl

theorem Dev.within_heard {link : Nat} (h : link < 4) : Dev.Within [Reg.SIN_PEER_FRAMES_CNT] d (d.heard link seen) := by
  have hn : Dev.Within [Reg.SIN_PEER_FRAMES_CNT] d (d.noting seen) := Dev.Within.of_same ⟨rfl, rfl, rfl, rfl, rfl, rfl, rfl, rfl, rfl⟩ rfl
  unfold Dev.heard
  exact hn.trans (Dev.Within.bump _ 1 (Field.has_of h (by decide)) (List.mem_singleton.2 rfl))

end

theorem Dev.peerRx_heard {d : Dev} {link typ : Nat} {codeErr : Bool} {frame pay : List Byte} (h : (d.peerRx link typ codeErr frame).2 = some pay) :
    ∃ seen, d.peerRx link typ codeErr frame = (d.heard link seen, some pay) := by
  unfold Dev.peerRx at h ⊢
  extract_lets at h ⊢
  split at h
  case isTrue => exact absurd h (by simp)
  case isFalse hc =>
    rw [if_neg hc]
    split at h
    case isTrue => exact absurd h (by simp)
    case isFalse hl =>
      rw [if_neg hl]
      split at h
      case isTrue => exact absurd h (by simp)
      case isFalse hs =>
        rw [if_neg hs, ← h]
        exact ⟨_, rfl⟩

theorem Dev.onPeer_heard {d : Dev} {link typ : Nat} {codeErr : Bool} {frame pay : List Byte} (h : (d.peerRx link typ codeErr frame).2 = some pay) (f : Dev → List Byte → Dev) :
    ∃ seen, d.onPeer link typ codeErr frame f = f (d.heard link seen) pay := by
  obtain ⟨seen, hs⟩ := Dev.peerRx_heard h
  unfold Dev.onPeer
  rw [hs]
  exact ⟨seen, rfl⟩

/-- A command that a heard peer frame gives, from the device that has counted it. -/
theorem ends_onPeer {c : Instr} {s : State} {t typ : Nat} {link : Fin 4} {codeErr : Bool} {frame pay : List Byte} {f : Dev → List Byte → Dev} {p : Dev → Prop}
    (hc : exec c s = s.run t fun d => d.onPeer link typ codeErr frame f) (hear : s.dev.Hears t link typ codeErr frame pay)
    (h : ∀ seen, p (settle s.dev (f ((begin_ t s.dev).heard link seen) pay))) : Ends c s p := by
  refine ends_of hc ?_
  obtain ⟨seen, hs⟩ := Dev.onPeer_heard hear f
  rw [hs]
  exact h seen

section
variable {s : State} {t : Nat}

/-- What holds of the pair's state before the pins are driven holds after. -/
theorem settle_sin_of {o e : Dev} {p : Sin → Prop} (hst : e.stReq = []) (h : p e.sin) : p (settle o e).sin := by
  rw [settle_sin o e hst]
  exact h

/-! ### The switch at the Stand-in and at its boundary -/

theorem ends_switch {link : Fin 4} {codeErr : Bool} {frame pay : List Byte} (hear : s.dev.Hears t link pfSwitch codeErr frame pay) (hr : s.dev.role = roleStandIn) (hm : s.dev.mode = .run)
    (hp : le pay 4 4 ≠ 0) : Ends (.switch t link codeErr frame) s fun d =>
      d.sin.switchK = some ((begin_ t s.dev).extendCyc (le pay 0 4)) ∧ d.sin.switchEpoch = le pay 4 4 ∧ d.sin.switchOwn = false := by
  refine ends_onPeer (exec_switch t link codeErr frame s) hear fun seen => ?_
  have hw := (begin_ t s.dev).within_heard seen link.isLt
  have hrole : ((begin_ t s.dev).heard link seen).role = roleStandIn := (hw.rd (by decide) (by decide)).trans hr
  have hmode : ((begin_ t s.dev).heard link seen).mode = .run := hm
  have hext : ((begin_ t s.dev).heard link seen).extendCyc (le pay 0 4) = (begin_ t s.dev).extendCyc (le pay 0 4) := rfl
  have hst : ((begin_ t s.dev).heard link seen).stReq = [] := rfl
  rw [← hext]
  generalize (begin_ t s.dev).heard link seen = d at hrole hmode hst
  have hno : ¬ (d.role ≠ roleStandIn || d.mode != .run) = true := by simp [hrole, hmode]
  unfold Dev.switchRx
  rw [if_neg hno, if_neg hp]
  exact settle_sin_of (p := fun x => x.switchK = _ ∧ x.switchEpoch = _ ∧ x.switchOwn = false) hst ⟨rfl, rfl, rfl⟩

/-- The ACTIVE device at the boundary of its switch: it stops originating, then takes the other role. -/
def Dev.switchedOut (d : Dev) (k : Nat) : Dev :=
  let d := d.switchEnd 8
  let d := { d with sin := { d.sin with gates := false, actAt := none, lease := some (k * 125000, 0xFF) } }
  d.rl.rings.foldl (fun (d : Dev) g => if (d.lr g).orig then d.setOrig g false else d) d

theorem Dev.foldl_setOrig_sin (l : List Nat) (d : Dev) : (l.foldl (fun (d : Dev) g => if (d.lr g).orig then d.setOrig g false else d) d).sin = d.sin := by
  induction l generalizing d with
  | nil => rfl
  | cons g l ih =>
    rw [List.foldl_cons, ih]
    split
    · exact Dev.setOrig_sin d g false
    · rfl

theorem Dev.switchedOut_sin (d : Dev) (k : Nat) : (d.switchedOut k).sin = { (d.switchEnd 8).sin with gates := false, actAt := none, lease := some (k * 125000, 0xFF) } := by
  unfold Dev.switchedOut
  exact Dev.foldl_setOrig_sin _ _

theorem Dev.switchedOut_stReq (d : Dev) (k : Nat) : (d.switchedOut k).stReq = d.stReq := by
  unfold Dev.switchedOut
  extract_lets e src f
  have he : e.stReq = d.stReq := (Dev.spares_switchEnd d 8).2.1
  have hf : f.stReq = e.stReq := rfl
  refine Eq.trans ?_ (hf.trans he)
  refine (Dev.spares_foldl (fun x g => ?_) _ (Dev.Spares.refl f)).2.1
  split
  · exact Dev.spares_setOrig x g false
  · exact Dev.Spares.refl x

theorem ends_switchBoundary_own {k : Nat} (hk : s.dev.sin.switchK = some k) (hle : k ≤ cycleOf (s.dev.nowAt t)) (ho : s.dev.sin.switchOwn = true) (ha : s.dev.sin.acked = true)
    (hr : s.dev.role = roleActive) : Ends (.switchBoundary t) s fun d =>
      d.rd Reg.SIN_STATUS_ROLE = roleStandIn ∧ d.sin.gates = false ∧ d.pins.tripH = 0 ∧ d.pins.tripP = 0 ∧ d.sin.lease = some (k * 125000, 0xFF) := by
  refine ends_of (exec_switchBoundary t s) ?_
  have hcyc : ¬ (begin_ t s.dev).cyc < k := Nat.not_lt.2 hle
  have hno : ¬ ((begin_ t s.dev).role ≠ roleActive || !(begin_ t s.dev).sin.acked) = true := by
    rw [show (begin_ t s.dev).role = s.dev.role from rfl, show (begin_ t s.dev).sin = s.dev.sin from rfl, hr, ha]
    decide
  have heq : (begin_ t s.dev).switchAtK = ((((begin_ t s.dev).switchedOut k).setRole roleStandIn).join 2).set1 Reg.SIN_STATUS_INSTEP := by
    unfold Dev.switchAtK
    rw [show (begin_ t s.dev).sin = s.dev.sin from rfl, hk]
    dsimp only
    rw [if_neg hcyc, if_pos ho, ← show (begin_ t s.dev).sin = s.dev.sin from rfl, if_neg hno]
    rfl
  rw [heq]
  have hst : (begin_ t s.dev).stReq = [] := rfl
  generalize begin_ t s.dev = d at hst
  have h1 : (d.switchedOut k).stReq = [] := (Dev.switchedOut_stReq d k).trans hst
  have hsin := Dev.switchedOut_sin d k
  have h2 : (d.switchedOut k).sin.gates = false ∧ (d.switchedOut k).sin.lease = some (k * 125000, 0xFF) := by
    rw [hsin]
    exact ⟨rfl, rfl⟩
  clear hsin heq hno hcyc
  generalize d.switchedOut k = e at h1 h2
  have hrole : ((e.setRole roleStandIn).join 2).rd Reg.SIN_STATUS_ROLE = roleStandIn :=
    ((Dev.within_join _ 2).rd (by decide) (by decide)).trans (Dev.setRole_role (by decide))
  have hjst : ((e.setRole roleStandIn).join 2).stReq = [] := ((Dev.within_join _ 2).stReq.trans (Dev.within_setRole e _).stReq).trans h1
  have hj : ((e.setRole roleStandIn).join 2).sin.gates = false ∧ ((e.setRole roleStandIn).join 2).sin.lease = some (k * 125000, 0xFF) := by
    rw [Dev.join_sin, Dev.setRole_sin]
    exact h2
  generalize (e.setRole roleStandIn).join 2 = f at hrole hjst hj
  have hfst : (f.set1 Reg.SIN_STATUS_INSTEP).stReq = [] := (Dev.wr_stReq _ _ _ _ _).trans hjst
  have hfsin : (f.set1 Reg.SIN_STATUS_INSTEP).sin = f.sin := Dev.wr_sin _ _ _ _ _
  have hgates : (f.set1 Reg.SIN_STATUS_INSTEP).sin.gates = false := (congrArg Sin.gates hfsin).trans hj.1
  obtain ⟨ht1, ht2⟩ := settle_no_trip s.dev hfst hgates
  refine ⟨?_, ?_, ht1, ht2, ?_⟩
  · rw [settle_rd_clear _ _ hfst _ _ _ (by decide) (by decide)]
    exact (Dev.rd_wr_apart f Reg.SIN_STATUS_INSTEP Reg.SIN_STATUS_ROLE 1 0 0 0 0 (by decide)).trans hrole
  · rw [settle_sin _ _ hfst]
    exact hgates
  · rw [settle_sin _ _ hfst]
    exact (congrArg Sin.lease hfsin).trans hj.2

/-- The STAND-IN at the boundary of its partner's switch, with its epoch and its role taken. -/
def Dev.switchedIn (d : Dev) : Dev :=
  let d := { d with sin := { d.sin with switchK := none, lease := none } }
  let d := (d.setEpoch (max d.sin.switchEpoch (d.rd Reg.SIN_EPOCH_EPOCH))).setRole roleActive
  { d.clr Reg.SIN_STATUS_JOINING with sin := { d.sin with gates := true, actAt := none } }

theorem Dev.switchedIn_shown (d : Dev) : d.switchedIn.rd Reg.SIN_STATUS_ROLE = roleActive ∧ d.switchedIn.sin.gates = true ∧
    d.switchedIn.rd Reg.SIN_EPOCH_EPOCH = max d.sin.switchEpoch (d.rd Reg.SIN_EPOCH_EPOCH) % 2 ^ 32 ∧ d.switchedIn.stReq = d.stReq := by
  unfold Dev.switchedIn
  extract_lets sd e f
  have hepoch : e.sin.switchEpoch = d.sin.switchEpoch ∧ e.rd Reg.SIN_EPOCH_EPOCH = d.rd Reg.SIN_EPOCH_EPOCH ∧ e.stReq = d.stReq := ⟨rfl, Dev.rd_congr (Dev.word_congr rfl _), rfl⟩
  obtain ⟨he1, he2, he3⟩ := hepoch
  have hrole : f.rd Reg.SIN_STATUS_ROLE = roleActive := Dev.setRole_role (by decide)
  have hf : f.rd Reg.SIN_EPOCH_EPOCH = max d.sin.switchEpoch (d.rd Reg.SIN_EPOCH_EPOCH) % 2 ^ 32 :=
    ((Dev.within_setRole _ _).rd (by decide) (by decide)).trans ((Dev.setEpoch_shown e _).trans (by rw [he1, he2]))
  have hst : f.stReq = d.stReq := ((Dev.within_setRole _ _).stReq.trans (Dev.within_setEpoch e _).stReq).trans he3
  clear_value f
  refine ⟨?_, rfl, ?_, ?_⟩
  · exact (Dev.rd_wr_apart f Reg.SIN_STATUS_JOINING Reg.SIN_STATUS_ROLE 0 0 0 0 0 (by decide)).trans hrole
  · exact (Dev.rd_wr_apart f Reg.SIN_STATUS_JOINING Reg.SIN_EPOCH_EPOCH 0 0 0 0 0 (by decide)).trans hf
  · exact (Dev.wr_stReq f Reg.SIN_STATUS_JOINING 0 0 0).trans hst

theorem ends_switchBoundary_partner {k : Nat} (hk : s.dev.sin.switchK = some k) (hle : k ≤ cycleOf (s.dev.nowAt t)) (ho : s.dev.sin.switchOwn = false) (hr : s.dev.role = roleStandIn) :
    Ends (.switchBoundary t) s fun d => d.rd Reg.SIN_STATUS_ROLE = roleActive ∧ d.sin.gates = true ∧
      d.rd Reg.SIN_EPOCH_EPOCH = max s.dev.sin.switchEpoch (s.dev.rd Reg.SIN_EPOCH_EPOCH) % 2 ^ 32 := by
  refine ends_of (exec_switchBoundary t s) ?_
  have hcyc : ¬ (begin_ t s.dev).cyc < k := Nat.not_lt.2 hle
  have hown : ¬ s.dev.sin.switchOwn = true := by simp [ho]
  have hno : ¬ ({ begin_ t s.dev with sin := { s.dev.sin with switchK := none, lease := none } } : Dev).role ≠ roleStandIn := fun hn => hn hr
  have heq : (begin_ t s.dev).switchAtK = ((begin_ t s.dev).switchedIn).dspTakeover.originate := by
    unfold Dev.switchAtK
    rw [show (begin_ t s.dev).sin = s.dev.sin from rfl, hk]
    dsimp only
    rw [if_neg hcyc, if_neg hown, if_neg hno]
    rfl
  rw [heq]
  obtain ⟨h1, h2, h3, h4⟩ := Dev.switchedIn_shown (begin_ t s.dev)
  have hepoch : (begin_ t s.dev).switchedIn.rd Reg.SIN_EPOCH_EPOCH = max s.dev.sin.switchEpoch (s.dev.rd Reg.SIN_EPOCH_EPOCH) % 2 ^ 32 := h3
  have hst : (begin_ t s.dev).switchedIn.stReq = [] := h4
  clear heq hno hcyc h3 h4
  generalize (begin_ t s.dev).switchedIn = e at h1 h2 hepoch hst
  have hin := Dev.inputs_dspTakeover e
  have hor := Dev.within_originate e.dspTakeover
  have hend : e.dspTakeover.originate.stReq = [] := (hor.stReq.trans hin.within.stReq).trans hst
  refine ⟨?_, ?_, ?_⟩
  · rw [settle_rd_clear _ _ hend _ _ _ (by decide) (by decide), hor.rd (by decide) (by decide), hin.within.rd (by decide) (by decide), h1]
  · rw [settle_sin _ _ hend, Dev.originate_sin, hin.sin.gates, h2]
  · rw [settle_rd_clear _ _ hend _ _ _ (by decide) (by decide), hor.rd (by decide) (by decide), hin.within.rd (by decide) (by decide), hepoch]

/-! ### Peer links -/

theorem bitAt_setBit_nibble : ∀ x < 16, ∀ l : Fin 4, ∀ b : Bool, bitAt (setBit x l b % 2 ^ 4) l = b := by decide

/-- What shows whether a peer link is up: the link's own bit and that in the pair's status. -/
theorem Dev.peerUp_shown (d : Dev) (link : Fin 4) (b : Bool) {v : Nat} (hv : v = b2n b) :
    let e := (d.wr Reg.SIN_PEER_STAT_UP v link).wr Reg.SIN_STATUS_PEER_UP (setBit (d.rd Reg.SIN_STATUS_PEER_UP) link b)
    e.rd Reg.SIN_PEER_STAT_UP link = v ∧ e.rd Reg.SIN_PEER_STAT_SYNC link = d.rd Reg.SIN_PEER_STAT_SYNC link ∧ bitAt (e.rd Reg.SIN_STATUS_PEER_UP) link = b ∧
    Dev.Touches [0x60000, Reg.SIN_PEER_STAT_UP.addr link 0] d e := by
  intro e
  have hhas : Reg.SIN_PEER_STAT_UP.has link 0 = true := Field.has_of link.isLt (by decide)
  have hhas' : Reg.SIN_PEER_STAT_SYNC.has link 0 = true := Field.has_of link.isLt (by decide)
  have hv2 : v % 2 ^ 1 = v := by
    subst hv
    revert b
    decide
  refine ⟨?_, ?_, ?_, ?_⟩
  · exact (Dev.rd_wr_free (d.wr Reg.SIN_PEER_STAT_UP v link) (f := Reg.SIN_STATUS_PEER_UP) _ (i := 0) (j := 0) (by decide) hhas (by decide)).trans
      ((Dev.rd_wr_self d Reg.SIN_PEER_STAT_UP v link 0 (by decide)).trans hv2)
  · exact (Dev.rd_wr_free (d.wr Reg.SIN_PEER_STAT_UP v link) (f := Reg.SIN_STATUS_PEER_UP) _ (i := 0) (j := 0) (by decide) hhas' (by decide)).trans
      (Dev.rd_wr_free d (f := Reg.SIN_PEER_STAT_UP) v hhas hhas' (by decide))
  · have h16 : d.rd Reg.SIN_STATUS_PEER_UP < 16 := Dev.rd_lt d Reg.SIN_STATUS_PEER_UP 0 0
    rw [show e.rd Reg.SIN_STATUS_PEER_UP = setBit (d.rd Reg.SIN_STATUS_PEER_UP) link b % 2 ^ 4 from Dev.rd_wr_self _ Reg.SIN_STATUS_PEER_UP _ 0 0 (by decide)]
    exact bitAt_setBit_nibble _ h16 link b
  · exact (Dev.Touches.wr d v link 0 (by simp)).trans (Dev.Touches.wr _ _ 0 0 (List.mem_cons_self))

theorem ends_peerDown {link : Fin 4} (h : s.dev.rd Reg.SIN_PEER_STAT_UP link = 1) : Ends (.peerDown t link true) s fun d =>
    d.rd Reg.SIN_PEER_STAT_UP link = 0 ∧ d.rd Reg.SIN_PEER_STAT_SYNC link = 0 ∧ bitAt (d.rd Reg.SIN_STATUS_PEER_UP) link = false ∧
    s.dev.OnlyWrites d [0x60000, Reg.SIN_PEER_STAT_UP.addr link 0] := by
  refine ends_of (exec_peerDown t link true s) ?_
  have hhas : Reg.SIN_PEER_STAT_UP.has link 0 = true := Field.has_of link.isLt (by decide)
  have hhas' : Reg.SIN_PEER_STAT_SYNC.has link 0 = true := Field.has_of link.isLt (by decide)
  have hsync : ((begin_ t s.dev).clr Reg.SIN_PEER_STAT_SYNC link).rd Reg.SIN_PEER_STAT_SYNC link = 0 := Dev.rd_wr_self _ Reg.SIN_PEER_STAT_SYNC 0 link 0 (by decide)
  have hup : ((begin_ t s.dev).clr Reg.SIN_PEER_STAT_SYNC link).rd Reg.SIN_PEER_STAT_UP link = 1 :=
    (Dev.rd_wr_free (begin_ t s.dev) (f := Reg.SIN_PEER_STAT_SYNC) 0 hhas' hhas (by decide)).trans h
  have htouch : Dev.Touches [0x60000, Reg.SIN_PEER_STAT_UP.addr link 0] (begin_ t s.dev) ((begin_ t s.dev).clr Reg.SIN_PEER_STAT_SYNC link) :=
    Dev.Touches.wr _ 0 link 0 (List.mem_cons_of_mem _ (List.mem_singleton.2 rfl))
  have hst : ((begin_ t s.dev).clr Reg.SIN_PEER_STAT_SYNC link).stReq = [] := rfl
  have heq : (begin_ t s.dev).peerDown link true = (((begin_ t s.dev).clr Reg.SIN_PEER_STAT_SYNC link).clr Reg.SIN_PEER_STAT_UP link
      |>.wr Reg.SIN_STATUS_PEER_UP (setBit (((begin_ t s.dev).clr Reg.SIN_PEER_STAT_SYNC link).rd Reg.SIN_STATUS_PEER_UP) link false)).raise Ev.SIN_PEER_DOWN link 1 := by
    unfold Dev.peerDown
    dsimp only
    rw [if_pos rfl, if_neg (by simp [Dev.on, hup])]
    rfl
  rw [heq]
  clear heq
  generalize (begin_ t s.dev).clr Reg.SIN_PEER_STAT_SYNC link = d at hsync hup htouch hst
  obtain ⟨h1, h2, h3, h4⟩ := Dev.peerUp_shown d link false (v := 0) rfl
  have hest : ((d.clr Reg.SIN_PEER_STAT_UP link).wr Reg.SIN_STATUS_PEER_UP (setBit (d.rd Reg.SIN_STATUS_PEER_UP) link false)).stReq = [] :=
    ((Dev.wr_stReq _ _ _ _ _).trans (Dev.wr_stReq _ _ _ _ _)).trans hst
  unfold Dev.clr at hest ⊢
  generalize (d.wr Reg.SIN_PEER_STAT_UP 0 link).wr Reg.SIN_STATUS_PEER_UP (setBit (d.rd Reg.SIN_STATUS_PEER_UP) link false) = e at h1 h2 h3 h4 hest
  have hr : (e.raise Ev.SIN_PEER_DOWN link 1).stReq = [] := (Dev.Within.raise [] _ _ _ _ (by decide)).stReq.trans hest
  refine ⟨?_, ?_, ?_, ((htouch.trans h4).trans (Dev.Touches.raise _ _ _ _ _)).settle hr⟩
  · rw [settle_rd_clear _ _ hr _ _ _ hhas (by decide), (Dev.Within.raise [] _ _ _ _ (by decide)).rd hhas (by decide), h1]
  · rw [settle_rd_clear _ _ hr _ _ _ hhas' (by decide), (Dev.Within.raise [] _ _ _ _ (by decide)).rd hhas' (by decide), h2, hsync]
  · rw [settle_rd_clear _ _ hr _ _ _ (by decide) (by decide), Dev.rd_raise_quiet _ _ _ _ _ _ _ (by decide), h3]

theorem ends_peerUp {link : Fin 4} {a : Nat} (h : s.dev.rd Reg.SIN_PEER_STAT_UP link = 0) (hp : s.dev.sin.presAt.find link = some a) (ha : s.dev.ownAt t ≤ a + 32000) :
    Ends (.peerUp t link) s fun d => d.rd Reg.SIN_PEER_STAT_UP link = 1 ∧ d.rd Reg.SIN_PEER_STAT_SYNC link = 1 ∧ bitAt (d.rd Reg.SIN_STATUS_PEER_UP) link = true ∧
      s.dev.OnlyWrites d [0x60000, Reg.SIN_PEER_STAT_UP.addr link 0] := by
  refine ends_of (exec_peerUp t link s) ?_
  have hhas : Reg.SIN_PEER_STAT_UP.has link 0 = true := Field.has_of link.isLt (by decide)
  have hhas' : Reg.SIN_PEER_STAT_SYNC.has link 0 = true := Field.has_of link.isLt (by decide)
  have hsync : ((begin_ t s.dev).set1 Reg.SIN_PEER_STAT_SYNC link).rd Reg.SIN_PEER_STAT_SYNC link = 1 := Dev.rd_wr_self _ Reg.SIN_PEER_STAT_SYNC 1 link 0 (by decide)
  have hup : ((begin_ t s.dev).set1 Reg.SIN_PEER_STAT_SYNC link).rd Reg.SIN_PEER_STAT_UP link = 0 :=
    (Dev.rd_wr_free (begin_ t s.dev) (f := Reg.SIN_PEER_STAT_SYNC) 1 hhas' hhas (by decide)).trans h
  have htouch : Dev.Touches [0x60000, Reg.SIN_PEER_STAT_UP.addr link 0] (begin_ t s.dev) ((begin_ t s.dev).set1 Reg.SIN_PEER_STAT_SYNC link) :=
    Dev.Touches.wr _ 1 link 0 (List.mem_cons_of_mem _ (List.mem_singleton.2 rfl))
  have hst : ((begin_ t s.dev).set1 Reg.SIN_PEER_STAT_SYNC link).stReq = [] := rfl
  have hpres : ((begin_ t s.dev).set1 Reg.SIN_PEER_STAT_SYNC link).sin.presAt.find link = some a := hp
  have hown : ((begin_ t s.dev).set1 Reg.SIN_PEER_STAT_SYNC link).own ≤ a + 32000 := ha
  unfold Dev.peerAligned
  generalize (begin_ t s.dev).set1 Reg.SIN_PEER_STAT_SYNC link = d at hsync hup htouch hst hpres hown
  have heq : d.peerUp link = ((d.set1 Reg.SIN_PEER_STAT_UP link).wr Reg.SIN_STATUS_PEER_UP (setBit (d.rd Reg.SIN_STATUS_PEER_UP) link true)).raise Ev.SIN_PEER_UP link 0 := by
    unfold Dev.peerUp
    rw [if_neg (by simp [Dev.on, hup, hsync]), hpres]
    exact if_pos hown
  rw [heq]
  obtain ⟨h1, h2, h3, h4⟩ := Dev.peerUp_shown d link true (v := 1) rfl
  have hest : ((d.set1 Reg.SIN_PEER_STAT_UP link).wr Reg.SIN_STATUS_PEER_UP (setBit (d.rd Reg.SIN_STATUS_PEER_UP) link true)).stReq = [] :=
    ((Dev.wr_stReq _ _ _ _ _).trans (Dev.wr_stReq _ _ _ _ _)).trans hst
  unfold Dev.set1 at hest ⊢
  generalize (d.wr Reg.SIN_PEER_STAT_UP 1 link).wr Reg.SIN_STATUS_PEER_UP (setBit (d.rd Reg.SIN_STATUS_PEER_UP) link true) = e at h1 h2 h3 h4 hest
  have hr : (e.raise Ev.SIN_PEER_UP link 0).stReq = [] := (Dev.Within.raise [] _ _ _ _ (by decide)).stReq.trans hest
  refine ⟨?_, ?_, ?_, ((htouch.trans h4).trans (Dev.Touches.raise _ _ _ _ _)).settle hr⟩
  · rw [settle_rd_clear _ _ hr _ _ _ hhas (by decide), (Dev.Within.raise [] _ _ _ _ (by decide)).rd hhas (by decide), h1]
  · rw [settle_rd_clear _ _ hr _ _ _ hhas' (by decide), (Dev.Within.raise [] _ _ _ _ (by decide)).rd hhas' (by decide), h2, hsync]
  · rw [settle_rd_clear _ _ hr _ _ _ (by decide) (by decide), Dev.rd_raise_quiet _ _ _ _ _ _ _ (by decide), h3]

end

/-- Settles O50, a lemma for each command: the host's requests, the frame, the boundary on either side, the links. -/
theorem switchesAndPeerLinks : Obligations.SwitchesAndPeerLinks := by
  unfold Obligations.SwitchesAndPeerLinks
  intro s t req k a link codeErr frame pay
  refine ⟨fun hok => ⟨ends_sinSwitch hok, ends_sinSwitch_refused hok, ends_switchAbort hok⟩, ends_switch, ends_switchNoAck, fun hk hle => ⟨ends_switchBoundary_own hk hle, ends_switchBoundary_partner hk hle⟩,
    ends_peerDown, ends_peerUp⟩

end Sys2Proof.Machine
end

section
/-!
PROOFS. Proofs/Posts.lean: what storing events and units leaves of the device: everything but queues, the black box, the watch log and the event counters.
-/
namespace Sys2Proof.Machine

/-- `e` is `d` with events stored and units written to queues. -/
structure Dev.Posts (d e : Dev) : Prop where
  same : e = { d with regs := e.regs, evSeq := e.evSeq, hold := e.hold, qf := e.qf, pst := e.pst, wch := { d.wch with log := e.wch.log } }
  words : ∀ a, a ∉ evWords → e.word a = d.word a

namespace Dev.Posts

theorem refl (d : Dev) : d.Posts d := ⟨rfl, fun _ _ => rfl⟩

theorem trans {a b c : Dev} (h : a.Posts b) (k : b.Posts c) : a.Posts c := by
  refine ⟨?_, fun x hx => (k.words x hx).trans (h.words x hx)⟩
  have h1 := h.same
  have h2 := k.same
  rw [h1] at h2
  exact h2

theorem of_evKeeps {d e : Dev} (h : d.EvKeeps e) (hst : e.stReq = d.stReq) : d.Posts e := by
  refine ⟨?_, h.2⟩
  have h1 := h.1
  rw [hst] at h1
  exact h1.trans (by rw [h1])

theorem raise (d : Dev) (e : Ev) (inst data : Nat) (h : e.sev < 5) : d.Posts (d.raise e inst data) := of_evKeeps (Dev.evKeeps_raise d e inst data) (Dev.stReq_raise d e inst data h)

theorem hold (d : Dev) (x : Tbl (Nat × Nat)) : d.Posts { d with hold := x } := ⟨rfl, fun _ _ => rfl⟩

theorem qf (d : Dev) (x : Qf) : d.Posts { d with qf := x } := ⟨rfl, fun _ _ => rfl⟩

theorem raiseHeld (d : Dev) (e : Ev) (key ival inst : Nat) (data : Nat → Nat) (h : e.sev < 5) : d.Posts (d.raiseHeld e key ival inst data) := by
  unfold Dev.raiseHeld
  dsimp only
  split
  · exact hold d _
  · exact (hold d _).trans (raise _ _ _ _ h)

theorem applyRes (d : Dev) (qid : Nat) (r : QRes) : d.Posts (d.applyRes qid r) := of_evKeeps (Dev.evKeeps_applyRes d qid r) (Dev.spares_applyRes d qid r).2.1

theorem foldl {β : Type} {f : Dev → β → Dev} (hf : ∀ (x : Dev) b, x.Posts (f x b)) (l : List β) (d : Dev) : d.Posts (l.foldl f d) := by
  induction l generalizing d with
  | nil => exact refl d
  | cons b l ih => exact (hf d b).trans (ih _)

theorem ite {d a b : Dev} (c : Prop) [Decidable c] (ha : d.Posts a) (hb : d.Posts b) : d.Posts (if c then a else b) := by
  split
  · exact ha
  · exact hb

theorem qput (d : Dev) (req : Nat) (qids : List Nat) (u : QUnit) : d.Posts (d.qput req qids u) := by
  unfold Dev.qput
  refine ite _ (refl d) (ite _ (foldl (fun x qid => ?_) _ d) (qf d _))
  split
  · exact applyRes x qid _
  · exact refl x

theorem produce (d : Dev) (source stream : Nat) (u : QUnit) : d.Posts (d.produce source stream u) := qput d _ _ u

variable {d e : Dev} (h : d.Posts e)
include h

theorem mode : e.mode = d.mode := by rw [h.same]
theorem stReq : e.stReq = d.stReq := by rw [h.same]
theorem now : e.now = d.now := by rw [h.same]
theorem own : e.own = d.own := by rw [h.same]
theorem free : e.free = d.free := by rw [h.same]
theorem out : e.out = d.out := by rw [h.same]
theorem reqs : e.reqs = d.reqs := by rw [h.same]
theorem reel : e.reel = d.reel := by rw [h.same]
theorem img : e.img = d.img := by rw [h.same]
theorem host : e.host = d.host := by rw [h.same]
theorem lnk : e.lnk = d.lnk := by rw [h.same]
theorem tb : e.tb = d.tb := by rw [h.same]
theorem swp : e.swp = d.swp := by rw [h.same]
theorem est : e.est = d.est := by rw [h.same]
theorem lpe : e.lpe = d.lpe := by rw [h.same]
theorem dsp : e.dsp = d.dsp := by rw [h.same]
theorem trw : e.trw = d.trw := by rw [h.same]
theorem trd : e.trd = d.trd := by rw [h.same]
theorem sin : e.sin = d.sin := by rw [h.same]
theorem net : e.net = d.net := by rw [h.same]
theorem fld : e.fld = d.fld := by rw [h.same]
theorem gaf : e.gaf = d.gaf := by rw [h.same]
theorem jtag : e.jtag = d.jtag := by rw [h.same]
theorem supply : e.supply = d.supply := by rw [h.same]
theorem pins : e.pins = d.pins := by rw [h.same]

theorem spares : d.Spares e := ⟨h.mode, h.stReq, h.now, h.own, h.reel, h.img, h.supply, h.jtag, h.pins⟩

theorem touches (ws : List Nat) : Dev.Touches ws d e := fun _ _ he => h.words _ he

/-- A field of no event counter reads as before. -/
theorem rd {f : Field} {i j : Nat} (hj : f.has i j = true) (hf : f.clearOf [] = true) : e.rd f i j = d.rd f i j :=
  Dev.rd_congr (h.words _ (Field.clearOf_events hf hj))

theorem within (l : List Field) : Dev.Within l d e := ⟨h.spares, fun _ _ _ hj hf => Dev.rd_congr (h.words _ (Field.clearOf_events hf hj))⟩

end Dev.Posts

end Sys2Proof.Machine
end

section
/-!
PROOFS. Proofs/FieldInterfaces.lean: CAN controllers, decoders, PWM outputs, pins and safe inputs (R438, R440 to R447).
-/
namespace Sys2Proof.Machine

/-! ### CAN -/

section
variable {d : Dev} {c : Fin 4}

theorem Dev.canCtl_congr {d e : Dev} (h : e.fld = d.fld) (c : Nat) : e.canCtl c = d.canCtl c := by
  unfold Dev.canCtl
  rw [h]

theorem Dev.canCtl_setCan (d : Dev) (c : Nat) (x : CanCtl) : (d.setCan c x).canCtl c = x := Tbl.get_set_self _ _ _ _

/-- A CAN counter that counts. -/
theorem Dev.rd_bump_count (d : Dev) {f : Field} (c : Nat) (hlo : f.lo = 0) (hw : f.width = 32) : (d.bump f 1 c).rd f c = min (d.rd f c + 1) (2 ^ 32 - 1) := by
  rw [Dev.rd_bump_self d f 1 c 0 (by rw [hlo, hw]), hw]
  rfl

theorem Dev.canWithdraw_shown {fr : Nat × Nat × List Byte} (h : (d.canCtl c).frame = some fr) :
    ((d.canWithdraw c).canCtl c).frame = none ∧ (d.canWithdraw c).rd Reg.FLD_CAN_CNT_ABORT_CNT c = min (d.rd Reg.FLD_CAN_CNT_ABORT_CNT c + 1) (2 ^ 32 - 1) ∧
    Dev.Touches [Reg.FLD_CAN_CNT_ABORT_CNT.addr c 0] d (d.canWithdraw c) ∧ (d.canWithdraw c).stReq = d.stReq := by
  have hhas : Reg.FLD_CAN_CNT_ABORT_CNT.has c 0 = true := Field.has_of c.isLt (by decide)
  unfold Dev.canWithdraw
  dsimp only
  rw [h]
  dsimp only
  have hset : Dev.Touches [Reg.FLD_CAN_CNT_ABORT_CNT.addr c 0] d (d.setCan c { d.canCtl c with frame := none }) := Dev.Touches.of_regs rfl
  have hrd : (d.setCan c { d.canCtl c with frame := none }).rd Reg.FLD_CAN_CNT_ABORT_CNT c = d.rd Reg.FLD_CAN_CNT_ABORT_CNT c := Dev.rd_congr (Dev.word_congr rfl _)
  have hctl : ((d.setCan c { d.canCtl c with frame := none }).canCtl c).frame = none := by rw [Dev.canCtl_setCan]
  have hst : (d.setCan c { d.canCtl c with frame := none }).stReq = d.stReq := rfl
  generalize d.setCan c { d.canCtl c with frame := none } = e at hset hrd hctl hst
  have hp := Dev.Posts.raiseHeld (e.bump Reg.FLD_CAN_CNT_ABORT_CNT 1 c) Ev.FLD_CAN_ABORT c oneSec c (fun _ => (d.canCtl c).slot + (d.canCtl c).cycle * 256) (by decide)
  refine ⟨?_, ?_, (hset.trans (Dev.Touches.wr e _ c 0 (List.mem_singleton.2 rfl))).trans (hp.touches _), hp.stReq.trans hst⟩
  · rw [Dev.canCtl_congr hp.fld]
    exact hctl
  · rw [hp.rd hhas (by decide), Dev.rd_bump_count e c rfl rfl, hrd]

variable {s : State} {t : Nat}

theorem ends_canSlotEnd {fr : Nat × Nat × List Byte} (h : (s.dev.canCtl c).frame = some fr) : Ends (.canSlotEnd t c) s fun d =>
    (d.canCtl c).frame = none ∧ d.rd Reg.FLD_CAN_CNT_ABORT_CNT c = min (s.dev.rd Reg.FLD_CAN_CNT_ABORT_CNT c + 1) (2 ^ 32 - 1) ∧
    s.dev.OnlyWrites d [Reg.FLD_CAN_CNT_ABORT_CNT.addr c 0] := by
  refine ends_of (exec_canSlotEnd t c s) ?_
  obtain ⟨h1, h2, h3, h4⟩ := Dev.canWithdraw_shown (d := begin_ t s.dev) (c := c) h
  refine ⟨?_, ?_, h3.settle h4⟩
  · exact (congrArg CanCtl.frame (Dev.canCtl_congr (settle_fld s.dev _ h4) c)).trans h1
  · exact (settle_rd_clear _ _ h4 _ _ _ (Field.has_of c.isLt (by decide)) (by decide)).trans h2

/-- The record of the filter that a received frame passes. -/
def Dev.canFilter (d : Dev) (c id : Nat) (ide : Bool) : Option Rec :=
  (d.recs secCall 3).find? (fun x => x.u8 8 == c && (id &&& x.u32 16) == (x.u32 12 &&& x.u32 16) && ide == bitAt (x.u8 9) 2)

section
variable {id sof : Nat} {ide fdf brs esi : Bool} {dlc : Fin 16} {data : List Byte} (hp : s.dev.plant = true) (hc : (s.dev.rl.can c).isSome = true)
  (hs : s.dev.rd Reg.FLD_CAN_STAT_STATE c < 3) (hl : data.length = (if fdf then canLen dlc else min 8 dlc.val))
include hp hc hs hl

theorem Dev.canReceive_taken : ¬ (!(begin_ t s.dev).plant || ((begin_ t s.dev).rl.can c).isNone || decide (3 ≤ (begin_ t s.dev).rd Reg.FLD_CAN_STAT_STATE c) ||
    data.length != (if fdf then canLen dlc else min 8 dlc.val)) = true := by
  have h1 : (begin_ t s.dev).plant = true := hp
  have h2 : ((begin_ t s.dev).rl.can c).isNone = false := by rw [Option.isNone_eq_false_iff]; exact hc
  have h3 : decide (3 ≤ (begin_ t s.dev).rd Reg.FLD_CAN_STAT_STATE c) = false := decide_eq_false (Nat.not_le.2 hs)
  rw [h1, h2, h3, hl]
  simp

theorem ends_canFrameDropped (hf : s.dev.canFilter c id ide = none) : Ends (.canFrameReceive t c id ide fdf brs esi dlc data sof) s fun d =>
    d.rd Reg.FLD_CAN_CNT_RX_DROP_CNT c = min (s.dev.rd Reg.FLD_CAN_CNT_RX_DROP_CNT c + 1) (2 ^ 32 - 1) ∧ s.dev.OnlyWrites d [Reg.FLD_CAN_CNT_RX_DROP_CNT.addr c 0] := by
  refine ends_of (exec_canFrameReceive t c id ide fdf brs esi dlc data sof s) ?_
  have heq : (begin_ t s.dev).canReceive c id ide fdf brs esi dlc data sof = (begin_ t s.dev).bump Reg.FLD_CAN_CNT_RX_DROP_CNT 1 c := by
    have hf' : (begin_ t s.dev).canFilter c id ide = none := hf
    unfold Dev.canFilter at hf'
    unfold Dev.canReceive
    dsimp only
    rw [if_neg (Dev.canReceive_taken hp hc hs hl), hf']
  rw [heq]
  have hst : ((begin_ t s.dev).bump Reg.FLD_CAN_CNT_RX_DROP_CNT 1 c).stReq = [] := rfl
  refine ⟨?_, Dev.Touches.settle (Dev.Touches.wr _ _ c 0 (List.mem_singleton.2 rfl)) hst⟩
  rw [settle_rd_clear _ _ hst _ _ _ (Field.has_of c.isLt (by decide)) (by decide)]
  exact Dev.rd_bump_count (begin_ t s.dev) c rfl rfl

theorem ends_canFrameTaken {x : Rec} (hf : s.dev.canFilter c id ide = some x) : Ends (.canFrameReceive t c id ide fdf brs esi dlc data sof) s fun d =>
    d.rd Reg.FLD_CAN_CNT_RX_CNT c = min (s.dev.rd Reg.FLD_CAN_CNT_RX_CNT c + 1) (2 ^ 32 - 1) := by
  refine ends_of (exec_canFrameReceive t c id ide fdf brs esi dlc data sof s) ?_
  have heq : ∃ u, (begin_ t s.dev).canReceive c id ide fdf brs esi dlc data sof = ((begin_ t s.dev).bump Reg.FLD_CAN_CNT_RX_CNT 1 c).qput (0xC000 + c) [x.u32 20] u := by
    have hf' : (begin_ t s.dev).canFilter c id ide = some x := hf
    unfold Dev.canFilter at hf'
    unfold Dev.canReceive
    dsimp only
    rw [if_neg (Dev.canReceive_taken hp hc hs hl), hf']
    exact ⟨_, rfl⟩
  obtain ⟨u, hu⟩ := heq
  rw [hu]
  have hq := Dev.Posts.qput ((begin_ t s.dev).bump Reg.FLD_CAN_CNT_RX_CNT 1 c) (0xC000 + c) [x.u32 20] u
  have hhas : Reg.FLD_CAN_CNT_RX_CNT.has c 0 = true := Field.has_of c.isLt (by decide)
  rw [settle_rd_clear _ _ hq.stReq _ _ _ hhas (by decide), hq.rd hhas (by decide)]
  exact Dev.rd_bump_count (begin_ t s.dev) c rfl rfl

end

theorem ends_canBusOff {tec : Nat} (h : s.dev.rd Reg.FLD_CAN_STAT_STATE c = 1 ∨ s.dev.rd Reg.FLD_CAN_STAT_STATE c = 2) : Ends (.canBusOff t c tec) s fun d =>
    d.rd Reg.FLD_CAN_STAT_STATE c = 3 ∧ d.rd Reg.FLD_CAN_STAT_TEC c = min tec 255 ∧ d.rd Reg.FLD_CAN_POS_RECOVER c = 0 ∧
    d.rd Reg.FLD_CAN_CNT_BUSOFF_CNT c = min (s.dev.rd Reg.FLD_CAN_CNT_BUSOFF_CNT c + 1) (2 ^ 32 - 1) := by
  refine ends_of (exec_canBusOff t c tec s) ?_
  have hno : ¬ ((begin_ t s.dev).rd Reg.FLD_CAN_STAT_STATE c ≠ 1 ∧ (begin_ t s.dev).rd Reg.FLD_CAN_STAT_STATE c ≠ 2) := fun hn => h.elim hn.1 hn.2
  have hcnt : (begin_ t s.dev).rd Reg.FLD_CAN_CNT_BUSOFF_CNT c = s.dev.rd Reg.FLD_CAN_CNT_BUSOFF_CNT c := rfl
  have hst : (begin_ t s.dev).stReq = [] := rfl
  rw [← hcnt]
  unfold Dev.canBusOff
  rw [if_neg hno]
  generalize begin_ t s.dev = d at hst
  extract_lets e
  have hS : Reg.FLD_CAN_STAT_STATE.has c 0 = true := Field.has_of c.isLt (by decide)
  have hT : Reg.FLD_CAN_STAT_TEC.has c 0 = true := Field.has_of c.isLt (by decide)
  have hR : Reg.FLD_CAN_POS_RECOVER.has c 0 = true := Field.has_of c.isLt (by decide)
  have hB : Reg.FLD_CAN_CNT_BUSOFF_CNT.has c 0 = true := Field.has_of c.isLt (by decide)
  have h1 : e.rd Reg.FLD_CAN_STAT_STATE c = 3 := (Dev.rd_wr_free _ (f := Reg.FLD_CAN_POS_RECOVER) 0 hR hS (by decide)).trans
    ((Dev.rd_wr_free _ (f := Reg.FLD_CAN_STAT_TEC) (min tec 255) hT hS (by decide)).trans (Dev.rd_wr_self d Reg.FLD_CAN_STAT_STATE 3 c 0 (by decide)))
  have h2 : e.rd Reg.FLD_CAN_STAT_TEC c = min tec 255 := (Dev.rd_wr_free _ (f := Reg.FLD_CAN_POS_RECOVER) 0 hR hT (by decide)).trans
    ((Dev.rd_wr_self _ Reg.FLD_CAN_STAT_TEC (min tec 255) c 0 (by decide)).trans (Nat.mod_eq_of_lt (Nat.lt_succ_of_le (Nat.min_le_right _ _))))
  have h3 : e.rd Reg.FLD_CAN_POS_RECOVER c = 0 := Dev.rd_wr_self _ Reg.FLD_CAN_POS_RECOVER 0 c 0 (by decide)
  have h4 : e.rd Reg.FLD_CAN_CNT_BUSOFF_CNT c = d.rd Reg.FLD_CAN_CNT_BUSOFF_CNT c := (Dev.rd_wr_free _ (f := Reg.FLD_CAN_POS_RECOVER) 0 hR hB (by decide)).trans
    ((Dev.rd_wr_free _ (f := Reg.FLD_CAN_STAT_TEC) (min tec 255) hT hB (by decide)).trans (Dev.rd_wr_free d (f := Reg.FLD_CAN_STAT_STATE) 3 hS hB (by decide)))
  have hest : e.stReq = [] := by simp only [e, Dev.clr, Dev.wr_stReq, hst]
  clear_value e
  have hp := Dev.Posts.raise (e.bump Reg.FLD_CAN_CNT_BUSOFF_CNT 1 c) Ev.FLD_CAN_BUSOFF c (min tec 255) (by decide)
  have hpst := hp.stReq.trans hest
  refine ⟨?_, ?_, ?_, ?_⟩
  · rw [settle_rd_clear _ _ hpst _ _ _ hS (by decide), hp.rd hS (by decide)]
    exact (Dev.rd_wr_free e (f := Reg.FLD_CAN_CNT_BUSOFF_CNT) _ hB hS (by decide)).trans h1
  · rw [settle_rd_clear _ _ hpst _ _ _ hT (by decide), hp.rd hT (by decide)]
    exact (Dev.rd_wr_free e (f := Reg.FLD_CAN_CNT_BUSOFF_CNT) _ hB hT (by decide)).trans h2
  · rw [settle_rd_clear _ _ hpst _ _ _ hR (by decide), hp.rd hR (by decide)]
    exact (Dev.rd_wr_free e (f := Reg.FLD_CAN_CNT_BUSOFF_CNT) _ hB hR (by decide)).trans h3
  · rw [settle_rd_clear _ _ hpst _ _ _ hB (by decide), hp.rd hB (by decide), Dev.rd_bump_count e c rfl rfl, h4]

theorem ends_canRecover (h : 3 ≤ s.dev.rd Reg.FLD_CAN_STAT_STATE c) : Ends (.canRecover t c) s fun d =>
    d.rd Reg.FLD_CAN_STAT_STATE c = 1 ∧ d.rd Reg.FLD_CAN_STAT_TEC c = 0 ∧ d.rd Reg.FLD_CAN_STAT_REC c = 0 := by
  refine ends_of (exec_canRecover t c s) ?_
  have hno : ¬ (begin_ t s.dev).rd Reg.FLD_CAN_STAT_STATE c < 3 := Nat.not_lt.2 h
  have hst : (begin_ t s.dev).stReq = [] := rfl
  unfold Dev.canRecover
  rw [if_neg hno]
  generalize begin_ t s.dev = d at hst
  extract_lets e
  have hS : Reg.FLD_CAN_STAT_STATE.has c 0 = true := Field.has_of c.isLt (by decide)
  have hT : Reg.FLD_CAN_STAT_TEC.has c 0 = true := Field.has_of c.isLt (by decide)
  have hR : Reg.FLD_CAN_STAT_REC.has c 0 = true := Field.has_of c.isLt (by decide)
  have hP : Reg.FLD_CAN_POS_RECOVER.has c 0 = true := Field.has_of c.isLt (by decide)
  have h1 : e.rd Reg.FLD_CAN_STAT_STATE c = 1 := (Dev.rd_wr_free _ (f := Reg.FLD_CAN_POS_RECOVER) 128 hP hS (by decide)).trans
    ((Dev.rd_wr_free _ (f := Reg.FLD_CAN_STAT_REC) 0 hR hS (by decide)).trans
      ((Dev.rd_wr_free _ (f := Reg.FLD_CAN_STAT_TEC) 0 hT hS (by decide)).trans (Dev.rd_wr_self d Reg.FLD_CAN_STAT_STATE 1 c 0 (by decide))))
  have h2 : e.rd Reg.FLD_CAN_STAT_TEC c = 0 := (Dev.rd_wr_free _ (f := Reg.FLD_CAN_POS_RECOVER) 128 hP hT (by decide)).trans
    ((Dev.rd_wr_free _ (f := Reg.FLD_CAN_STAT_REC) 0 hR hT (by decide)).trans (Dev.rd_wr_self _ Reg.FLD_CAN_STAT_TEC 0 c 0 (by decide)))
  have h3 : e.rd Reg.FLD_CAN_STAT_REC c = 0 := (Dev.rd_wr_free _ (f := Reg.FLD_CAN_POS_RECOVER) 128 hP hR (by decide)).trans (Dev.rd_wr_self _ Reg.FLD_CAN_STAT_REC 0 c 0 (by decide))
  have hest : e.stReq = [] := by simp only [e, Dev.clr, Dev.wr_stReq, hst]
  clear_value e
  have hp := Dev.Posts.raise e Ev.FLD_CAN_RECOVER c 0 (by decide)
  have hpst := hp.stReq.trans hest
  refine ⟨?_, ?_, ?_⟩
  · rw [settle_rd_clear _ _ hpst _ _ _ hS (by decide), hp.rd hS (by decide), h1]
  · rw [settle_rd_clear _ _ hpst _ _ _ hT (by decide), hp.rd hT (by decide), h2]
  · rw [settle_rd_clear _ _ hpst _ _ _ hR (by decide), hp.rd hR (by decide), h3]

theorem ends_canErrorPassive {tec rcv : Nat} (h : s.dev.rd Reg.FLD_CAN_STAT_STATE c = 1) : Ends (.canErrorPassive t c tec rcv) s fun d =>
    d.rd Reg.FLD_CAN_STAT_STATE c = 2 ∧ d.rd Reg.FLD_CAN_STAT_TEC c = min tec 255 ∧ d.rd Reg.FLD_CAN_STAT_REC c = min rcv 255 := by
  refine ends_of (exec_canErrorPassive t c tec rcv s) ?_
  have hno : ¬ (begin_ t s.dev).rd Reg.FLD_CAN_STAT_STATE c ≠ 1 := not_not.2 h
  have hst : (begin_ t s.dev).stReq = [] := rfl
  unfold Dev.canPassive
  rw [if_neg hno]
  generalize begin_ t s.dev = d at hst
  extract_lets e
  have hS : Reg.FLD_CAN_STAT_STATE.has c 0 = true := Field.has_of c.isLt (by decide)
  have hT : Reg.FLD_CAN_STAT_TEC.has c 0 = true := Field.has_of c.isLt (by decide)
  have hR : Reg.FLD_CAN_STAT_REC.has c 0 = true := Field.has_of c.isLt (by decide)
  have h1 : e.rd Reg.FLD_CAN_STAT_STATE c = 2 := (Dev.rd_wr_free _ (f := Reg.FLD_CAN_STAT_REC) (min rcv 255) hR hS (by decide)).trans
    ((Dev.rd_wr_free _ (f := Reg.FLD_CAN_STAT_TEC) (min tec 255) hT hS (by decide)).trans (Dev.rd_wr_self d Reg.FLD_CAN_STAT_STATE 2 c 0 (by decide)))
  have h2 : e.rd Reg.FLD_CAN_STAT_TEC c = min tec 255 := (Dev.rd_wr_free _ (f := Reg.FLD_CAN_STAT_REC) (min rcv 255) hR hT (by decide)).trans
    ((Dev.rd_wr_self _ Reg.FLD_CAN_STAT_TEC (min tec 255) c 0 (by decide)).trans (Nat.mod_eq_of_lt (Nat.lt_succ_of_le (Nat.min_le_right _ _))))
  have h3 : e.rd Reg.FLD_CAN_STAT_REC c = min rcv 255 :=
    (Dev.rd_wr_self _ Reg.FLD_CAN_STAT_REC (min rcv 255) c 0 (by decide)).trans (Nat.mod_eq_of_lt (Nat.lt_succ_of_le (Nat.min_le_right _ _)))
  have hest : e.stReq = [] := by simp only [e, Dev.clr, Dev.wr_stReq, hst]
  clear_value e
  have hp := Dev.Posts.raise e Ev.FLD_CAN_PASSIVE c (min tec 255 + min rcv 255 * 256) (by decide)
  have hpst := hp.stReq.trans hest
  refine ⟨?_, ?_, ?_⟩
  · rw [settle_rd_clear _ _ hpst _ _ _ hS (by decide), hp.rd hS (by decide), h1]
  · rw [settle_rd_clear _ _ hpst _ _ _ hT (by decide), hp.rd hT (by decide), h2]
  · rw [settle_rd_clear _ _ hpst _ _ _ hR (by decide), hp.rd hR (by decide), h3]

end

end Sys2Proof.Machine
end

section
/-!
PROOFS. Proofs/Decoders.lean: the samples and presets of the quadrature decoders (R442 to R444).
-/
namespace Sys2Proof.Machine

/-! ### Signed codes -/

/-- A value within the range of a code reads back from it. -/
theorem sx_code {w : Nat} (hw : 0 < w) {x : Int} (h1 : -(2 ^ (w - 1) : Nat) ≤ x) (h2 : x < (2 ^ (w - 1) : Nat)) : sx w (code w x) = x := by
  obtain ⟨n, rfl⟩ : ∃ n, w = n + 1 := ⟨w - 1, by omega⟩
  unfold sx code
  have hp : (2 ^ (n + 1) : Nat) = 2 * 2 ^ n := by rw [Nat.pow_succ, Nat.mul_comm]
  rw [Nat.add_sub_cancel] at h1 h2 ⊢
  rw [hp]
  generalize 2 ^ n = m at h1 h2
  dsimp only
  have hm : 0 < m := by omega
  rcases lt_or_ge x 0 with hneg | hpos
  · have hx : x % ((2 * m : Nat) : Int) = x + 2 * m := by
      rw [← Int.add_emod_right, Int.emod_eq_of_lt (by omega) (by push_cast; omega)]
      push_cast
      ring
    rw [hx, Nat.mod_eq_of_lt (by omega), if_pos (by omega)]
    push_cast
    omega
  · rw [Int.emod_eq_of_lt hpos (by push_cast; omega), Nat.mod_eq_of_lt (by omega), if_neg (by omega)]
    omega

theorem sx_bounds {w : Nat} (hw : 0 < w) (x : Nat) : -(2 ^ (w - 1) : Nat) ≤ sx w x ∧ sx w x < (2 ^ (w - 1) : Nat) := by
  obtain ⟨n, rfl⟩ : ∃ n, w = n + 1 := ⟨w - 1, by omega⟩
  have hp : (2 ^ (n + 1) : Nat) = 2 * 2 ^ n := by rw [Nat.pow_succ, Nat.mul_comm]
  have hlt : x % 2 ^ (n + 1) < 2 ^ (n + 1) := Nat.mod_lt _ (Nat.two_pow_pos _)
  unfold sx
  rw [Nat.add_sub_cancel]
  rw [hp] at hlt ⊢
  generalize x % (2 * 2 ^ n) = y at hlt
  generalize 2 ^ n = m at hlt
  dsimp only
  split
  · push_cast
    omega
  · omega

theorem satS_bounds {w : Nat} (x : Int) : -(2 ^ (w - 1) : Nat) ≤ (satS w x).1 ∧ (satS w x).1 < (2 ^ (w - 1) : Nat) := by
  have hm : 0 < 2 ^ (w - 1) := Nat.two_pow_pos _
  unfold satS satTo
  generalize 2 ^ (w - 1) = m at hm
  split
  · dsimp only
    omega
  · split
    · dsimp only
      omega
    · dsimp only
      omega

theorem Dev.rdI_wrI_self (d : Dev) (f : Field) (i j : Nat) (h : f.lo + f.width ≤ 32) (hw : 0 < f.width) {v : Int} (h1 : -(2 ^ (f.width - 1) : Nat) ≤ v)
    (h2 : v < (2 ^ (f.width - 1) : Nat)) : (d.wrI f v i j).rdI f i j = v := by
  have hc : code f.width v < 2 ^ f.width := by
    unfold code
    have := Int.emod_lt_of_pos v (b := ((2 ^ f.width : Nat) : Int)) (by have := Nat.two_pow_pos f.width; omega)
    have := Int.emod_nonneg v (b := ((2 ^ f.width : Nat) : Int)) (by have := Nat.two_pow_pos f.width; omega)
    omega
  unfold Dev.rdI Dev.wrI
  rw [Dev.rd_wr_self d f _ i j h, Nat.mod_eq_of_lt hc]
  exact sx_code hw h1 h2

theorem Dev.rdI_congr {d e : Dev} {f : Field} {i j : Nat} (h : d.rd f i j = e.rd f i j) : d.rdI f i j = e.rdI f i j := by
  unfold Dev.rdI
  rw [h]

/-! ### Samples -/

section
variable {q : Fin 8} {a b z : Bool}

theorem hasQ {f : Field} (h : f.n1 = 8) (h2 : 0 < f.n2) (q : Fin 8) : f.has q 0 = true := Field.has_of (by omega) h2

/-- The count after a step, whether or not it saturates. -/
theorem Dev.qdMove_shown (d : Dev) (q : Fin 8) (step : Int) :
    (d.qdMove q step).rdI Reg.FLD_QD_COUNT_COUNT q = (satS 28 (d.rdI Reg.FLD_QD_COUNT_COUNT q + (if d.rd Reg.FLD_QD_CTRL_DIR q = 1 then -step else step))).1 ∧
    Dev.Within [Reg.FLD_QD_COUNT_COUNT, Reg.FLD_QD_STAT_SAT] d (d.qdMove q step) := by
  unfold Dev.qdMove
  extract_lets c
  have hc : c = d.rdI Reg.FLD_QD_COUNT_COUNT q + (if d.rd Reg.FLD_QD_CTRL_DIR q = 1 then -step else step) := by
    simp only [c, Dev.on, beq_iff_eq]
  rw [← hc]
  clear_value c
  have hb := satS_bounds (w := 28) c
  generalize satS 28 c = p at hb
  obtain ⟨v, sat⟩ := p
  dsimp -zeta only
  extract_lets e
  have hC : Reg.FLD_QD_COUNT_COUNT.has q 0 = true := hasQ rfl (by decide) q
  have hS : Reg.FLD_QD_STAT_SAT.has q 0 = true := hasQ rfl (by decide) q
  have he : e.rdI Reg.FLD_QD_COUNT_COUNT q = v := Dev.rdI_wrI_self d Reg.FLD_QD_COUNT_COUNT q 0 (by decide) (by decide)
    (Int.le_trans (by decide) hb.1) (Int.lt_of_lt_of_le hb.2 (by decide))
  have hw : Dev.Within [Reg.FLD_QD_COUNT_COUNT, Reg.FLD_QD_STAT_SAT] d e := Dev.Within.wr d _ hC List.mem_cons_self
  clear_value e
  split
  case isFalse => exact ⟨he, hw⟩
  case isTrue =>
    have hp := Dev.Posts.raise (e.set1 Reg.FLD_QD_STAT_SAT q) Ev.FLD_QD_SAT q (b2n (decide (0 < c))) (by decide)
    refine ⟨?_, (hw.trans (Dev.Within.wr e 1 hS (by simp))).trans (hp.within _)⟩
    exact (Dev.rdI_congr (hp.rd hC (by decide))).trans ((Dev.rdI_congr (Dev.rd_wr_free e (f := Reg.FLD_QD_STAT_SAT) 1 hS hC (by decide))).trans he)

/-- The error count after an illegal change, and the count as it was. -/
theorem Dev.qdIllegal_shown (d : Dev) (q : Fin 8) :
    (d.qdIllegal q).rd Reg.FLD_QD_ERRCNT_CNT q = min (d.rd Reg.FLD_QD_ERRCNT_CNT q + 1) 65535 ∧
    Dev.Within [Reg.FLD_QD_ERRCNT_CNT, Reg.FLD_QD_STAT_ILL_RAISED] d (d.qdIllegal q) := by
  unfold Dev.qdIllegal
  extract_lets e n
  have hE : Reg.FLD_QD_ERRCNT_CNT.has q 0 = true := hasQ rfl (by decide) q
  have hI : Reg.FLD_QD_STAT_ILL_RAISED.has q 0 = true := hasQ rfl (by decide) q
  have he : e.rd Reg.FLD_QD_ERRCNT_CNT q = min (d.rd Reg.FLD_QD_ERRCNT_CNT q + 1) 65535 := Dev.rd_bump_self d Reg.FLD_QD_ERRCNT_CNT 1 q 0 (by decide)
  have hw : Dev.Within [Reg.FLD_QD_ERRCNT_CNT, Reg.FLD_QD_STAT_ILL_RAISED] d e := Dev.Within.bump d 1 hE List.mem_cons_self
  clear_value n e
  split
  case isFalse => exact ⟨he, hw⟩
  case isTrue =>
    have hp := Dev.Posts.raise (e.set1 Reg.FLD_QD_STAT_ILL_RAISED q) Ev.FLD_QD_ILLEGAL q
      (n + (e.set1 Reg.FLD_QD_STAT_ILL_RAISED q).rd Reg.FLD_QD_COUNT_COUNT q % 2 ^ 24 * 2 ^ 16) (by decide)
    refine ⟨?_, (hw.trans (Dev.Within.wr e 1 hI (by simp))).trans ?_⟩
    · refine Eq.trans ?_ ((Dev.rd_wr_free e (f := Reg.FLD_QD_STAT_ILL_RAISED) 1 hI hE (by decide)).trans he)
      exact (Dev.Posts.raise _ _ _ _ (by decide)).rd hE (by decide)
    · exact (Dev.Posts.raise _ _ _ _ (by decide)).within _

/-- What a sample does once its levels have been judged: the index is kept on a rising Z, the levels are shown. -/
def Dev.qdLevels (d : Dev) (q : Nat) (x : QDec) (a b z : Bool) : Dev :=
  let d := if z && !x.z && d.on Reg.FLD_QD_CTRL_Z_EN q then d.wr Reg.FLD_QD_INDEX_INDEX (d.rd Reg.FLD_QD_COUNT_COUNT q) q else d
  (d.setQdec q { a := a, b := b, z := z, refA := a, refB := b }).wr Reg.FLD_QD_STAT_LEVELS (b2n a + b2n b * 2 + b2n z * 4) q

theorem levels_lt (a b z : Bool) : b2n a + b2n b * 2 + b2n z * 4 < 2 ^ 3 := by
  revert a b z
  decide

theorem Dev.qdLevels_shown (d : Dev) (q : Fin 8) (x : QDec) (a b z : Bool) :
    (d.qdLevels q x a b z).rd Reg.FLD_QD_STAT_LEVELS q = b2n a + b2n b * 2 + b2n z * 4 ∧ Dev.Within [Reg.FLD_QD_INDEX_INDEX, Reg.FLD_QD_STAT_LEVELS] d (d.qdLevels q x a b z) := by
  unfold Dev.qdLevels
  extract_lets e
  have hI : Reg.FLD_QD_INDEX_INDEX.has q 0 = true := hasQ rfl (by decide) q
  have hL : Reg.FLD_QD_STAT_LEVELS.has q 0 = true := hasQ rfl (by decide) q
  have he : Dev.Within [Reg.FLD_QD_INDEX_INDEX, Reg.FLD_QD_STAT_LEVELS] d e := Dev.Within.ite _ (Dev.Within.wr d _ hI List.mem_cons_self) (Dev.Within.refl _ d)
  clear_value e
  have hset : Dev.Within [Reg.FLD_QD_INDEX_INDEX, Reg.FLD_QD_STAT_LEVELS] e (e.setQdec q { a := a, b := b, z := z, refA := a, refB := b }) :=
    Dev.Within.of_same ⟨rfl, rfl, rfl, rfl, rfl, rfl, rfl, rfl, rfl⟩ rfl
  generalize e.setQdec q { a := a, b := b, z := z, refA := a, refB := b } = f at hset
  refine ⟨?_, (he.trans hset).trans (Dev.Within.wr f _ hL (by simp))⟩
  exact (Dev.rd_wr_self f Reg.FLD_QD_STAT_LEVELS _ q 0 (by decide)).trans (Nat.mod_eq_of_lt (levels_lt a b z))

theorem Dev.qdSample_step {d : Dev} (hp : d.plant = true) (h9 : (d.qdRec q).u8 9 = 1) (h : (a != (d.qdec q).a) != (b != (d.qdec q).b)) :
    d.qdSample q a b z = (d.qdMove q (qdStep (d.qdec q).refA (d.qdec q).refB a b)).qdLevels q (d.qdec q) a b z := by
  unfold Dev.qdSample Dev.qdLevels
  dsimp only
  rw [if_neg (by rw [hp, h9]; decide)]
  generalize d.qdec q = x at h
  have hboth : ¬ (a != x.a && b != x.b) = true := by
    revert h
    cases a != x.a <;> cases b != x.b <;> decide
  have hone : (a != x.a || b != x.b) = true := by
    revert h
    cases a != x.a <;> cases b != x.b <;> decide
  rw [if_neg hboth, if_pos hone]

theorem Dev.qdSample_illegal {d : Dev} (hp : d.plant = true) (h9 : (d.qdRec q).u8 9 = 1) (ha : a ≠ (d.qdec q).a) (hb : b ≠ (d.qdec q).b) :
    d.qdSample q a b z = (d.qdIllegal q).qdLevels q (d.qdec q) a b z := by
  unfold Dev.qdSample Dev.qdLevels
  dsimp only
  have hboth : (a != (d.qdec q).a && b != (d.qdec q).b) = true := by simp [ha, hb]
  rw [if_neg (by rw [hp, h9]; decide), if_pos hboth]

variable {s : State} {t : Nat}

theorem ends_qdSample_step (hp : s.dev.plant = true) (h9 : (s.dev.qdRec q).u8 9 = 1) (h : (a != (s.dev.qdec q).a) != (b != (s.dev.qdec q).b)) : Ends (.qdSample t q a b z) s fun d =>
    d.rd Reg.FLD_QD_STAT_LEVELS q = b2n a + b2n b * 2 + b2n z * 4 ∧ d.rdI Reg.FLD_QD_COUNT_COUNT q = (satS 28 (s.dev.rdI Reg.FLD_QD_COUNT_COUNT q +
      (if s.dev.rd Reg.FLD_QD_CTRL_DIR q = 1 then -qdStep (s.dev.qdec q).refA (s.dev.qdec q).refB a b else qdStep (s.dev.qdec q).refA (s.dev.qdec q).refB a b))).1 := by
  refine ends_of (exec_qdSample t q a b z s) ?_
  have heq : (begin_ t s.dev).qdSample q a b z = _ := Dev.qdSample_step (d := begin_ t s.dev) hp h9 h
  rw [heq]
  have hm := Dev.qdMove_shown (begin_ t s.dev) q (qdStep (s.dev.qdec q).refA (s.dev.qdec q).refB a b)
  change _ = (satS 28 (s.dev.rdI Reg.FLD_QD_COUNT_COUNT q + (if s.dev.rd Reg.FLD_QD_CTRL_DIR q = 1 then _ else _))).1 ∧ _ at hm
  change _ ∧ _ = _
  rw [show (begin_ t s.dev).qdec q = s.dev.qdec q from rfl]
  generalize s.dev.qdec q = x at hm
  obtain ⟨hm1, hm2⟩ := hm
  have hl := Dev.qdLevels_shown ((begin_ t s.dev).qdMove q (qdStep x.refA x.refB a b)) q x a b z
  have hst : ((begin_ t s.dev).qdMove q (qdStep x.refA x.refB a b)).stReq = [] := hm2.stReq
  generalize (begin_ t s.dev).qdMove q (qdStep x.refA x.refB a b) = e at hm1 hl hst
  obtain ⟨hl1, hl2⟩ := hl
  have hC : Reg.FLD_QD_COUNT_COUNT.has q 0 = true := hasQ rfl (by decide) q
  have hL : Reg.FLD_QD_STAT_LEVELS.has q 0 = true := hasQ rfl (by decide) q
  have hst' := hl2.stReq.trans hst
  refine ⟨?_, ?_⟩
  · rw [settle_rd_clear _ _ hst' _ _ _ hL (by decide), hl1]
  · rw [Dev.rdI_congr (settle_rd_clear _ _ hst' _ _ _ hC (by decide)), Dev.rdI_congr (hl2.rd hC (by decide)), hm1]

theorem ends_qdSample_illegal (hp : s.dev.plant = true) (h9 : (s.dev.qdRec q).u8 9 = 1) (ha : a ≠ (s.dev.qdec q).a) (hb : b ≠ (s.dev.qdec q).b) : Ends (.qdSample t q a b z) s fun d =>
    d.rd Reg.FLD_QD_COUNT_COUNT q = s.dev.rd Reg.FLD_QD_COUNT_COUNT q ∧ d.rd Reg.FLD_QD_ERRCNT_CNT q = min (s.dev.rd Reg.FLD_QD_ERRCNT_CNT q + 1) 65535 := by
  refine ends_of (exec_qdSample t q a b z s) ?_
  have heq : (begin_ t s.dev).qdSample q a b z = _ := Dev.qdSample_illegal (d := begin_ t s.dev) hp h9 ha hb
  rw [heq]
  obtain ⟨hm1, hm2⟩ := Dev.qdIllegal_shown (begin_ t s.dev) q
  obtain ⟨-, hl⟩ := Dev.qdLevels_shown ((begin_ t s.dev).qdIllegal q) q ((begin_ t s.dev).qdec q) a b z
  have hst' := hl.stReq.trans hm2.stReq
  have hC : Reg.FLD_QD_COUNT_COUNT.has q 0 = true := hasQ rfl (by decide) q
  have hE : Reg.FLD_QD_ERRCNT_CNT.has q 0 = true := hasQ rfl (by decide) q
  refine ⟨?_, ?_⟩
  · rw [settle_rd_clear _ _ hst' _ _ _ hC (by decide), hl.rd hC (by decide), hm2.rd hC (by decide)]
    rfl
  · rw [settle_rd_clear _ _ hst' _ _ _ hE (by decide), hl.rd hE (by decide), hm1]
    rfl

end

end Sys2Proof.Machine
end

section
/-!
PROOFS. Proofs/WrapRequests.lean: what asking for a Wrap leaves of the device (R390, R463).
-/
namespace Sys2Proof.Machine

/-- The fields that asking for a Wrap may write: those of a switch that goes first, and the limit of a Wrap that runs. -/
def askFields : List Field := [Reg.SIN_SWITCH_STATUS, Reg.SIN_STATUS_SWITCH_PEND, Reg.SIN_SWITCH_K_K, Reg.GAF_WRAP_TIME_LIMIT]

theorem Dev.within_switching (d : Dev) (k : Nat) (cause : Option Nat) : Dev.Within askFields d (d.switching k cause) := by
  unfold Dev.switching
  extract_lets e src f
  have he : Dev.Within askFields d e := Dev.Within.wr d 0 (by decide) (by simp [askFields])
  have hf : Dev.Within askFields e f := Dev.Within.of_same ⟨rfl, rfl, rfl, rfl, rfl, rfl, rfl, rfl, rfl⟩ rfl
  clear_value f
  exact ((he.trans hf).trans (Dev.Within.wr f 1 (by decide) (by simp [askFields]))).trans (Dev.Within.wr _ k (by decide) (by simp [askFields]))

theorem Dev.within_peerSend (l : List Field) (d : Dev) (links : List Nat) (typ : Nat) (pay : List Byte) : Dev.Within l d (d.peerSend links typ pay) :=
  Dev.Within.of_same (Dev.spares_peerSend _ _ _ _) (Dev.peerSend_regs _ _ _ _)

/-- A switch that is asked for is refused or set. -/
theorem Dev.switchGo_cases (d : Dev) (lead : Nat) (cause : Option Nat) : (∃ st, d.switchGo lead cause = d.wr Reg.SIN_SWITCH_STATUS st) ∨
    ∃ k pay, d.switchGo lead cause = (d.switching k cause).peerSend (d.switching k cause).pairLinks pfSwitch pay := by
  unfold Dev.switchGo
  extract_lets k cut partner st e
  by_cases hst : st = 0
  · rw [if_neg (not_not.2 hst)]
    clear_value st
    subst hst
    exact .inr ⟨k, _, rfl⟩
  · rw [if_pos hst]
    exact .inl ⟨st, rfl⟩

theorem Dev.within_switchGo (d : Dev) (lead : Nat) (cause : Option Nat) : Dev.Within askFields d (d.switchGo lead cause) := by
  rcases d.switchGo_cases lead cause with ⟨st, h⟩ | ⟨k, pay, h⟩
  · rw [h]
    exact Dev.Within.wr d st (by decide) (by simp [askFields])
  · rw [h]
    exact (Dev.within_switching d k cause).trans (Dev.within_peerSend _ _ _ _ _)

theorem Dev.bbPut_eq {d x : Dev} {k : Nat} {ev : Item × Item} {ctx : List Word} (h : d.bbPut k ev ctx = some x) : ∃ p, x = { d with pst := p } := by
  unfold Dev.bbPut at h
  split at h
  · cases h
  · cases h
    exact ⟨_, rfl⟩

theorem Dev.within_bbPut (l : List Field) (d : Dev) (k : Nat) (ev : Item × Item) (ctx : List Word) : Dev.Within l d ((d.bbPut k ev ctx).getD d) := by
  cases h : d.bbPut k ev ctx with
  | none => exact Dev.Within.refl l d
  | some x =>
    obtain ⟨p, rfl⟩ := Dev.bbPut_eq h
    exact Dev.Within.of_same ⟨rfl, rfl, rfl, rfl, rfl, rfl, rfl, rfl, rfl⟩ rfl

theorem Dev.within_wrapAgain (d : Dev) (cause : Nat) : Dev.Within askFields d (d.wrapAgain cause) := by
  unfold Dev.wrapAgain
  split
  · exact Dev.Within.refl _ d
  next w _ =>
    extract_lets lim endAt ev e sg f
    have he : Dev.Within askFields d e := Dev.within_bbPut _ d _ _ _
    have hf : Dev.Within askFields e f := Dev.Within.of_same ⟨rfl, rfl, rfl, rfl, rfl, rfl, rfl, rfl, rfl⟩ rfl
    exact (he.trans hf).trans (Dev.Within.wr f _ (by decide) (by simp [askFields]))

theorem Dev.within_askWrap (d : Dev) (cause : Nat) : Dev.Within askFields d (d.askWrap cause) := by
  unfold Dev.askWrap
  extract_lets e
  have he : Dev.Within askFields d e := Dev.Within.ite _ (Dev.within_switchGo d _ _) (Dev.Within.refl _ d)
  refine Dev.Within.ite _ (Dev.within_wrapAgain d cause) (Dev.Within.ite _ (Dev.Within.refl _ d) (Dev.Within.ite _ he ?_))
  exact Dev.Within.of_same ⟨rfl, rfl, rfl, rfl, rfl, rfl, rfl, rfl, rfl⟩ rfl

/-- A cause that lets no switch go first is asked for in RUN. -/
theorem Dev.askWrap_asks {d : Dev} {cause : Nat} (hm : d.mode = .run) (hc : ¬ (cause = 2 ∨ cause = 3 ∨ cause = 4)) (hs : d.sin.switchWrap ≠ some cause) : cause ∈ (d.askWrap cause).gaf.wrapReq := by
  unfold Dev.askWrap
  extract_lets e
  have he : e = d := if_neg hc
  rw [if_neg (by rw [hm]; decide)]
  by_cases h : d.gaf.wrapReq.contains cause = true
  · rw [if_pos (.inr (.inl h))]
    exact List.contains_iff_mem.1 h
  · rw [if_neg (by rintro (hn | hn | hn) <;> [exact hn hm; exact h hn; exact hs hn]), he, if_neg hs]
    exact List.mem_append_right _ (List.mem_singleton.2 rfl)

end Sys2Proof.Machine
end

section
/-!
PROOFS. Proofs/PlantPins.lean: presets and duties that the host writes, PWM periods, pins and safe inputs (R443 to R447).
-/
namespace Sys2Proof.Machine

section
variable {s : State} {t req : Nat} {v : Word}

/-! ### What the host writes -/

theorem plainOffset_qd (q : Fin 8) : plainOffset (0xA0814 + 32 * q) = true ∧ plainOffset (0xA0804 + 32 * q) = true := by
  revert q
  decide

theorem fieldsAt_qd (q : Fin 8) : fieldsAt (0xA0814 + 32 * q) = [Reg.FLD_QD_SET_SET] ∧ fieldsAt (0xA0804 + 32 * q) = [Reg.FLD_QD_ERRCNT_CNT] := by
  revert q
  decide

theorem inert_qdSet (q : Fin 8) : ((fieldsAt (0xA0814 + 32 * q)).all fun f => !f.stores (0xA0814 + 32 * q)) = true := by
  revert q
  decide

theorem plainOffset_pwmHost (ch : Fin 16) : plainOffset (0xA0A04 + 16 * ch) = true ∧ fieldsAt (0xA0A04 + 16 * ch) = [Reg.FLD_PWM_HOST_DUTY] := by
  revert ch
  decide

theorem Dev.afterWrite_qdSet (d : Dev) (v : Nat) (q : Fin 8) : d.afterWrite req (0xA0814 + 32 * q) v = d.qdSet q v := by
  have hq := q.isLt
  unfold Dev.afterWrite Dev.boardWrite
  rw [if_neg (by omega), if_neg (by omega), if_neg (by omega), if_neg (by omega), if_pos (by omega), if_neg (by omega), if_neg (by omega), if_neg (by omega), if_neg (by omega),
    if_neg (by omega), if_neg (by omega), if_pos (by omega)]
  congr 1
  omega

theorem Dev.afterWrite_qdErr (d : Dev) (v : Nat) (q : Fin 8) : d.afterWrite req (0xA0804 + 32 * q) v = d.qdErr q (v % 65536) := by
  have hq := q.isLt
  unfold Dev.afterWrite Dev.boardWrite
  rw [if_neg (by omega), if_neg (by omega), if_neg (by omega), if_neg (by omega), if_pos (by omega), if_neg (by omega), if_neg (by omega), if_neg (by omega), if_neg (by omega),
    if_neg (by omega), if_neg (by omega), if_neg (by omega), if_pos (by omega)]
  congr 1
  omega

theorem Dev.afterWrite_pwmHost (d : Dev) (v : Nat) (ch : Fin 16) : d.afterWrite req (0xA0A04 + 16 * ch) v = d := by
  have hq := ch.isLt
  unfold Dev.afterWrite Dev.boardWrite
  rw [if_neg (by omega), if_neg (by omega), if_neg (by omega), if_neg (by omega), if_pos (by omega), if_neg (by omega), if_neg (by omega), if_neg (by omega), if_neg (by omega),
    if_neg (by omega), if_neg (by omega), if_neg (by omega), if_neg (by omega)]

theorem Dev.touches_storeWord (d : Dev) {off : Nat} (v : Nat) (h : off < 0x10000000) : Dev.Touches [off] d (d.storeWord true off v) := fun _ ha _ =>
  Dev.word_storeWord_ne d v h (fun hn => ha (List.mem_singleton.2 hn))

theorem settle_emit_out (o e : Dev) (x : Out) (hst : e.stReq = []) : (settle o (e.emit x)).out = e.out ++ [x] := settle_out o (e.emit x) hst

theorem ends_fldQdSet (hok : s.dev.Takes req) (q : Fin 8) : Ends (.fldQdSet t req q v) s fun d =>
    d.rdI Reg.FLD_QD_COUNT_COUNT q = sx 28 v.toNat ∧ d.out = [.status req 0] ∧ s.dev.OnlyWrites d [Reg.FLD_QD_COUNT_COUNT.addr q 0] := by
  refine ends_hostWrite (exec_fldQdSet t req q v s) hok (plainOffset_qd q).1 ?_
  have hd := Dev.begins_storeWord t s.dev v.toNat (off := 0xA0814 + 32 * q) (by omega) (inert_qdSet q)
  rw [Dev.afterWrite_qdSet]
  generalize (begin_ t s.dev).storeWord true (0xA0814 + 32 * q) v.toNat = d at hd
  have hb := sx_bounds (w := 28) (by decide) v.toNat
  unfold Dev.qdSet
  generalize sx 28 v.toNat = x at hb
  have hC : Reg.FLD_QD_COUNT_COUNT.has q 0 = true := hasQ rfl (by decide) q
  have h1 : (d.wrI Reg.FLD_QD_COUNT_COUNT x q).rdI Reg.FLD_QD_COUNT_COUNT q = x :=
    Dev.rdI_wrI_self d Reg.FLD_QD_COUNT_COUNT q 0 (by decide) (by decide) (Int.le_trans (by decide) hb.1) (Int.lt_of_lt_of_le hb.2 (by decide))
  have h2 : Dev.Touches [Reg.FLD_QD_COUNT_COUNT.addr q 0] (begin_ t s.dev) (d.wrI Reg.FLD_QD_COUNT_COUNT x q) := hd.touches.trans (Dev.Touches.wr d _ q 0 (List.mem_singleton.2 rfl))
  have hst : (d.wrI Reg.FLD_QD_COUNT_COUNT x q).stReq = [] := (Dev.wrI_stReq _ _ _ _ _).trans hd.stReq
  have hout : (d.wrI Reg.FLD_QD_COUNT_COUNT x q).out = [] := (Dev.wrI_out _ _ _ _ _).trans hd.out
  generalize d.wrI Reg.FLD_QD_COUNT_COUNT x q = e at h1 h2 hst hout
  refine ⟨?_, ?_, Dev.Touches.settle (e := e.emit (.status req 0)) (h2.trans (Dev.Touches.of_regs (Dev.emit_regs _ _))) hst⟩
  · exact (Dev.rdI_congr (Dev.rd_settle_emit _ _ _ hst hC (by decide))).trans h1
  · rw [settle_emit_out _ _ _ hst, hout]
    rfl

theorem ends_fldQdErrcnt (hok : s.dev.Takes req) (q : Fin 8) : Ends (.fldQdErrcnt t req q v) s fun d =>
    d.rd Reg.FLD_QD_ERRCNT_CNT q = v.toNat % 65536 ∧ (v.toNat % 65536 ≤ (s.dev.qdRec q).u16 10 → d.rd Reg.FLD_QD_STAT_ILL_RAISED q = 0) ∧ d.out = [.status req 0] := by
  refine ends_hostWrite (exec_fldQdErrcnt t req q v s) hok (plainOffset_qd q).2 ?_
  rw [Dev.afterWrite_qdErr]
  have hreel : ((begin_ t s.dev).storeWord true (0xA0804 + 32 * q) v.toNat).reel = s.dev.reel := Dev.storeWord_reel _ _ _ _
  have hst : ((begin_ t s.dev).storeWord true (0xA0804 + 32 * q) v.toNat).stReq = [] := Dev.storeWord_stReq _ _ _ _
  have hout : ((begin_ t s.dev).storeWord true (0xA0804 + 32 * q) v.toNat).out = [] := Dev.storeWord_out _ _ _ _
  generalize (begin_ t s.dev).storeWord true (0xA0804 + 32 * q) v.toNat = d at hreel hst hout
  unfold Dev.qdErr
  extract_lets e
  have hE : Reg.FLD_QD_ERRCNT_CNT.has q 0 = true := hasQ rfl (by decide) q
  have hI : Reg.FLD_QD_STAT_ILL_RAISED.has q 0 = true := hasQ rfl (by decide) q
  have he : e.rd Reg.FLD_QD_ERRCNT_CNT q = v.toNat % 65536 := (Dev.rd_wr_self d Reg.FLD_QD_ERRCNT_CNT _ q 0 (by decide)).trans (Nat.mod_mod _ _)
  have hrec : e.qdRec q = s.dev.qdRec q := by
    unfold Dev.qdRec Dev.recs
    rw [show e.reel = d.reel from Dev.wr_reel _ _ _ _ _, hreel]
  have hest : e.stReq = [] := hst
  have heout : e.out = [] := hout
  clear_value e
  rw [hrec, Nat.mod_mod]
  split
  case isTrue hle =>
    have h0 : (e.clr Reg.FLD_QD_STAT_ILL_RAISED q).rd Reg.FLD_QD_STAT_ILL_RAISED q = 0 := Dev.rd_wr_self e Reg.FLD_QD_STAT_ILL_RAISED 0 q 0 (by decide)
    have h1 : (e.clr Reg.FLD_QD_STAT_ILL_RAISED q).rd Reg.FLD_QD_ERRCNT_CNT q = v.toNat % 65536 := (Dev.rd_wr_free e (f := Reg.FLD_QD_STAT_ILL_RAISED) 0 hI hE (by decide)).trans he
    have hst' : (e.clr Reg.FLD_QD_STAT_ILL_RAISED q).stReq = [] := hest
    refine ⟨(Dev.rd_settle_emit _ _ _ hst' hE (by decide)).trans h1, fun _ => (Dev.rd_settle_emit _ _ _ hst' hI (by decide)).trans h0, ?_⟩
    rw [settle_emit_out _ _ _ hst', Dev.clr_out, heout]
    rfl
  case isFalse hle =>
    refine ⟨(Dev.rd_settle_emit _ _ _ hest hE (by decide)).trans he, fun hn => absurd hn hle, ?_⟩
    rw [settle_emit_out _ _ _ hest, heout]
    rfl

theorem ends_fldPwmHost (hok : s.dev.Takes req) (ch : Fin 16) : Ends (.fldPwmHost t req ch v) s fun d =>
    d.rd Reg.FLD_PWM_HOST_DUTY ch = v.toNat % 65536 ∧ d.out = [.status req 0] ∧ s.dev.OnlyWrites d [Reg.FLD_PWM_HOST_DUTY.addr ch 0] := by
  obtain ⟨hplain, hfields⟩ := plainOffset_pwmHost ch
  refine ends_hostWrite (exec_fldPwmHost t req ch v s) hok hplain ?_
  rw [Dev.afterWrite_pwmHost]
  have hst : ((begin_ t s.dev).storeWord true (0xA0A04 + 16 * ch) v.toNat).stReq = [] := Dev.storeWord_stReq _ _ _ _
  have hout : ((begin_ t s.dev).storeWord true (0xA0A04 + 16 * ch) v.toNat).out = [] := Dev.storeWord_out _ _ _ _
  have htouch := Dev.touches_storeWord (begin_ t s.dev) (off := 0xA0A04 + 16 * ch) v.toNat (by omega)
  have hrd : ((begin_ t s.dev).storeWord true (0xA0A04 + 16 * ch) v.toNat).rd Reg.FLD_PWM_HOST_DUTY ch = bitsOf v.toNat 0 16 :=
    Dev.rd_storeWord_rw _ _ (by omega) Reg.FLD_PWM_HOST_DUTY ch 0 (pre := []) (post := []) hfields (by simp [Field.addr, Reg.FLD_PWM_HOST_DUTY]) rfl (by decide) rfl
  generalize (begin_ t s.dev).storeWord true (0xA0A04 + 16 * ch) v.toNat = e at hst hout htouch hrd
  have haddr : Reg.FLD_PWM_HOST_DUTY.addr ch 0 = 0xA0A04 + 16 * ch := by simp [Field.addr, Reg.FLD_PWM_HOST_DUTY]
  refine ⟨?_, ?_, ?_⟩
  · rw [Dev.rd_settle_emit _ _ _ hst (Field.has_of ch.isLt (by decide)) (by decide), hrd]
    simp [bitsOf]
  · rw [settle_emit_out _ _ _ hst, hout]
    rfl
  · rw [haddr]
    exact Dev.Touches.settle (e := e.emit (.status req 0)) (htouch.trans (Dev.Touches.of_regs (Dev.emit_regs _ _))) hst

/-! ### Pins -/

/-- What a change of the output levels drives at a pin. -/
def Dev.pinOut (d : Dev) (old now n : Nat) : Option Out :=
  match d.gpioRec n with
  | some y => if d.live && y.u8 9 == 1 && bitAt old n != bitAt now n then some (.pin 2 n (b2n (bitAt now n != (y.u8 10 == 1)))) else none
  | none => none

/-- The device once it has sent further outputs. -/
def Dev.sends (d : Dev) (l : List Out) : Dev := { d with out := d.out ++ l }

@[simp] theorem Dev.sends_regs (d : Dev) (l : List Out) : (d.sends l).regs = d.regs := rfl
@[simp] theorem Dev.sends_stReq (d : Dev) (l : List Out) : (d.sends l).stReq = d.stReq := rfl
@[simp] theorem Dev.sends_out (d : Dev) (l : List Out) : (d.sends l).out = d.out ++ l := rfl
theorem Dev.rd_sends (d : Dev) (l : List Out) (f : Field) (i j : Nat) : (d.sends l).rd f i j = d.rd f i j := Dev.rd_congr (Dev.word_congr rfl _)

theorem Dev.foldl_emit_some (g : Nat → Option Out) (f : Dev → Nat → Dev) (d0 : Dev) (hf : ∀ l n, f { d0 with out := l } n = match g n with | some x => { d0 with out := l ++ [x] } | none => { d0 with out := l })
    (ns : List Nat) (l : List Out) : ns.foldl f { d0 with out := l } = { d0 with out := l ++ ns.filterMap g } := by
  induction ns generalizing l with
  | nil => simp
  | cons n ns ih =>
    rw [List.foldl_cons, hf]
    cases hg : g n with
    | none => rw [List.filterMap_cons_none hg, ← ih]
    | some x => rw [List.filterMap_cons_some hg, ← List.singleton_append, ← List.append_assoc, ← ih]

/-- Driving the pins that changed sends an output for each, and changes nothing else. -/
theorem Dev.gpioDrive_eq (d : Dev) (old : Nat) : d.gpioDrive old false = d.sends ((List.range 16).filterMap (d.pinOut old (d.rd Reg.FLD_GPIO_OUT_LEVEL))) := by
  unfold Dev.gpioDrive
  by_cases hl : d.live = true
  · rw [if_neg (by simp [hl])]
    dsimp only
    refine Dev.foldl_emit_some (d.pinOut old (d.rd Reg.FLD_GPIO_OUT_LEVEL)) _ d (fun l n => ?_) _ d.out
    have hrec : ({ d with out := l } : Dev).gpioRec n = d.gpioRec n := rfl
    unfold Dev.pinOut
    rw [hrec]
    cases d.gpioRec n with
    | none => rfl
    | some y =>
      dsimp only
      by_cases hc : y.u8 9 = 1 ∧ bitAt old n ≠ bitAt (d.rd Reg.FLD_GPIO_OUT_LEVEL) n
      · rw [if_pos (by simpa using hc), if_pos (by simpa [hl] using hc)]
        rfl
      · rw [if_neg (by simpa using hc), if_neg (by simpa [hl] using hc)]
  · rw [if_pos (by simp [hl])]
    have hnone : (List.range 16).filterMap (d.pinOut old (d.rd Reg.FLD_GPIO_OUT_LEVEL)) = [] := by
      refine List.filterMap_eq_nil_iff.2 fun n _ => ?_
      unfold Dev.pinOut
      cases d.gpioRec n with
      | none => rfl
      | some y =>
        dsimp only
        rw [if_neg (by simp [hl])]
    rw [hnone, Dev.sends, List.append_nil]

theorem Dev.hostWrite_gpioOut (d : Dev) (hok : d.Takes req) : d.hostWrite req 0xA0C04 v = (d.gpioOut (v.toNat % 65536)).emit (.status req 0) := by
  obtain ⟨hr, hp⟩ := hok
  have hcfg : isTrwCfg 0xA0C04 = false := by decide
  have hfull : fullTimeAt 0xA0C04 = none := by decide
  unfold Dev.hostWrite Dev.ctlWrite
  rw [hr, if_neg (by decide), if_neg (by simp), if_neg (by decide), if_neg (by decide), if_neg (by decide), if_neg (by decide), if_neg (by decide), if_neg (by rw [hcfg]; decide),
    if_neg (by decide), if_neg (by simp), hp, if_neg (by simp), if_neg (by decide), if_neg (by simp), hfull]
  dsimp only
  rw [if_neg (by decide), if_neg (by decide), if_neg (by decide), if_pos rfl]

theorem ends_fldGpioOut (hok : s.dev.Takes req) : Ends (.fldGpioOut t req v) s fun d =>
    d.rd Reg.FLD_GPIO_OUT_LEVEL = v.toNat % 65536 ∧ s.dev.OnlyWrites d [0xA0C04] ∧
    d.out = (List.range 16).filterMap (s.dev.pinOut (s.dev.rd Reg.FLD_GPIO_OUT_LEVEL) (v.toNat % 65536)) ++ [.status req 0] := by
  refine ends_of (exec_fldGpioOut t req v s) ?_
  rw [Dev.hostWrite_gpioOut _ ((Dev.takes_begin t s.dev req).2 hok)]
  unfold Dev.gpioOut
  dsimp only
  have hpin : ∀ old now n, ((begin_ t s.dev).wr Reg.FLD_GPIO_OUT_LEVEL (v.toNat % 65536)).pinOut old now n = s.dev.pinOut old now n := fun _ _ _ => rfl
  have hold : (begin_ t s.dev).rd Reg.FLD_GPIO_OUT_LEVEL = s.dev.rd Reg.FLD_GPIO_OUT_LEVEL := rfl
  have hrd : ((begin_ t s.dev).wr Reg.FLD_GPIO_OUT_LEVEL (v.toNat % 65536)).rd Reg.FLD_GPIO_OUT_LEVEL = v.toNat % 65536 :=
    (Dev.rd_wr_self (begin_ t s.dev) Reg.FLD_GPIO_OUT_LEVEL _ 0 0 (by decide)).trans (Nat.mod_mod _ _)
  have htouch : Dev.Touches [0xA0C04] (begin_ t s.dev) ((begin_ t s.dev).wr Reg.FLD_GPIO_OUT_LEVEL (v.toNat % 65536)) := Dev.Touches.wr _ _ 0 0 (by decide)
  have hst : ((begin_ t s.dev).wr Reg.FLD_GPIO_OUT_LEVEL (v.toNat % 65536)).stReq = [] := Dev.wr_stReq _ _ _ _ _
  have hout : ((begin_ t s.dev).wr Reg.FLD_GPIO_OUT_LEVEL (v.toNat % 65536)).out = [] := Dev.wr_out _ _ _ _ _
  rw [hold]
  generalize (begin_ t s.dev).wr Reg.FLD_GPIO_OUT_LEVEL (v.toNat % 65536) = e at hpin hrd htouch hst hout
  rw [Dev.gpioDrive_eq, hrd, funext (hpin _ _)]
  generalize (List.range 16).filterMap _ = l
  have hst' : (e.sends l).stReq = [] := (e.sends_stReq l).trans hst
  have htouch' : Dev.Touches [0xA0C04] (begin_ t s.dev) (e.sends l) := htouch.trans (Dev.Touches.of_regs (e.sends_regs l))
  have hrd' : (e.sends l).rd Reg.FLD_GPIO_OUT_LEVEL = v.toNat % 65536 := (e.rd_sends l _ _ _).trans hrd
  have hout' : (e.sends l).out = l := (e.sends_out l).trans (by rw [hout, List.nil_append])
  generalize e.sends l = x at hst' htouch' hrd' hout'
  refine ⟨(Dev.rd_settle_emit _ _ _ hst' (by decide) (by decide)).trans hrd', ?_, ?_⟩
  · exact Dev.Touches.settle (e := x.emit (.status req 0)) (htouch'.trans (Dev.Touches.of_regs (Dev.emit_regs _ _))) hst'
  · rw [settle_emit_out _ _ _ hst', hout']

/-- A bit that is set within a field's width reads back. -/
theorem bitAt_setBit {w i : Nat} (x : Nat) (b : Bool) (hi : i < w) : bitAt (setBit x i b % 2 ^ w) i = b := by
  rw [bitAt_eq_testBit, Nat.testBit_mod_two_pow, decide_eq_true hi, Bool.true_and, ← bitAt_eq_testBit]
  have hpos : 0 < 2 ^ i := Nat.two_pow_pos i
  unfold setBit
  cases hx : bitAt x i
  · have h0 : x / 2 ^ i % 2 = 0 := by
      unfold bitAt at hx
      rw [beq_eq_false_iff_ne] at hx
      omega
    cases b
    · exact hx
    · simp only [Bool.false_eq_true, if_false, if_true]
      unfold bitAt
      rw [Nat.add_div_right _ hpos]
      simp only [beq_iff_eq]
      omega
  · have h1 : x / 2 ^ i % 2 = 1 := by
      unfold bitAt at hx
      rwa [beq_iff_eq] at hx
    cases b
    · simp only [Bool.false_eq_true, if_false, if_true]
      unfold bitAt
      have hsub : (x - 2 ^ i) / 2 ^ i = x / 2 ^ i - 1 := by
        have := Nat.sub_mul_div x (2 ^ i) 1
        rwa [Nat.mul_one] at this
      rw [hsub, beq_eq_false_iff_ne]
      omega
    · exact hx

/-! ### PWM -/

theorem Dev.pwmDrive_wr (d : Dev) {f : Field} (v p : Nat) (h : Reg.SIN_STATUS_ROLE.free f = true) {i j : Nat} (hj : f.has i j = true) : (d.wr f v i j).pwmDrive p = d.pwmDrive p := by
  have hrole : (d.wr f v i j).rd Reg.SIN_STATUS_ROLE = d.rd Reg.SIN_STATUS_ROLE := Dev.rd_wr_free d v hj (by decide) h
  have hact : (d.wr f v i j).actRole = d.actRole := by
    unfold Dev.actRole Dev.role
    rw [hrole]
  unfold Dev.pwmDrive Dev.actuates Dev.gates
  rw [hact, hrole]
  rfl

theorem ends_pwmPeriodStart {ch : Fin 16} {r : Rec} (hp : s.dev.plant = true) (hr : s.dev.pwmRec ch = some r) (h0 : pwmPeriod (r.u32 12) ≠ 0)
    (hn : s.dev.nowAt t % (4 * pwmPeriod (r.u32 12)) = 0) (hb : s.dev.rd Reg.FLD_PWM_STAT_BOUND ch = 0) : Ends (.pwmPeriodStart t ch) s fun d =>
    d.rd Reg.FLD_PWM_STAT_DUTY ch = min (max (s.dev.rd Reg.FLD_PWM_HOST_DUTY ch) (r.u16 16)) (r.u16 18) ∧ (s.dev.pwmDrive ch = false → d.out = []) ∧
    s.dev.OnlyWrites d [Reg.FLD_PWM_STAT_DUTY.addr ch 0] := by
  refine ends_of (exec_pwmPeriodStart t ch s) ?_
  generalize hv : min (max (s.dev.rd Reg.FLD_PWM_HOST_DUTY ch) (r.u16 16)) (r.u16 18) = duty
  have heq : (begin_ t s.dev).pwmStart ch = (if s.dev.pwmDrive ch then ((begin_ t s.dev).wr Reg.FLD_PWM_STAT_DUTY duty ch).emit (.pin 1 ch (rhu (duty * pwmPeriod (r.u32 12) : Nat) 32768).toNat)
      else (begin_ t s.dev).wr Reg.FLD_PWM_STAT_DUTY duty ch) := by
    have hr' : (begin_ t s.dev).pwmRec ch = some r := hr
    have hgo : ¬ (pwmPeriod (r.u32 12) = 0 ∨ (begin_ t s.dev).now % (4 * pwmPeriod (r.u32 12)) ≠ 0 ∨ (!(begin_ t s.dev).plant) = true) := by
      rw [show (begin_ t s.dev).now = s.dev.nowAt t from rfl, show (begin_ t s.dev).plant = s.dev.plant from rfl, hp, hn]
      simp [h0]
    have hno : ¬ (begin_ t s.dev).on Reg.FLD_PWM_STAT_BOUND ch = true := by
      rw [Dev.on_begin_, Dev.on, hb]
      decide
    unfold Dev.pwmStart
    rw [hr']
    dsimp only
    rw [if_neg hgo, if_neg hno, Dev.rd_begin_, hv, Dev.pwmDrive_wr _ _ _ (by decide) (Field.has_of ch.isLt (by decide)),
      show (begin_ t s.dev).pwmDrive ch = s.dev.pwmDrive ch from rfl]
  rw [heq]
  have hlt : duty < 65536 := by
    have : r.u16 18 < 65536 := le_lt_pow _ _ 2
    omega
  have hrd : ((begin_ t s.dev).wr Reg.FLD_PWM_STAT_DUTY duty ch).rd Reg.FLD_PWM_STAT_DUTY ch = duty :=
    (Dev.rd_wr_self (begin_ t s.dev) Reg.FLD_PWM_STAT_DUTY duty ch 0 (by decide)).trans (Nat.mod_eq_of_lt hlt)
  have htouch : Dev.Touches [Reg.FLD_PWM_STAT_DUTY.addr ch 0] (begin_ t s.dev) ((begin_ t s.dev).wr Reg.FLD_PWM_STAT_DUTY duty ch) := Dev.Touches.wr _ duty ch 0 (List.mem_singleton.2 rfl)
  have hst : ((begin_ t s.dev).wr Reg.FLD_PWM_STAT_DUTY duty ch).stReq = [] := Dev.wr_stReq _ _ _ _ _
  have hout : ((begin_ t s.dev).wr Reg.FLD_PWM_STAT_DUTY duty ch).out = [] := Dev.wr_out _ _ _ _ _
  have hD : Reg.FLD_PWM_STAT_DUTY.has ch 0 = true := Field.has_of ch.isLt (by decide)
  generalize (begin_ t s.dev).wr Reg.FLD_PWM_STAT_DUTY duty ch = e at hrd htouch hst hout
  split
  case isTrue hd =>
    refine ⟨(Dev.rd_settle_emit _ _ _ hst hD (by decide)).trans hrd, fun hn => absurd (hd.symm.trans hn) (by decide), ?_⟩
    generalize Out.pin 1 ch _ = o
    exact Dev.Touches.settle (e := e.emit o) (htouch.trans (Dev.Touches.of_regs (Dev.emit_regs _ _))) hst
  case isFalse hd =>
    exact ⟨(settle_rd_clear _ _ hst _ _ _ hD (by decide)).trans hrd, fun _ => (settle_out _ _ hst).trans hout, htouch.settle hst⟩

/-! ### Inputs -/

theorem ends_gpioInputChange {ch : Fin 16} {level : Bool} (hp : s.dev.plant = true) (hr : s.dev.gpioRec ch = none) : Ends (.gpioInputChange t ch level) s fun d =>
    bitAt (d.rd Reg.FLD_GPIO_IN_LEVEL) ch = level ∧ s.dev.OnlyWrites d [0xA0C00] := by
  refine ends_of (exec_gpioInputChange t ch level s) ?_
  have hr' : (begin_ t s.dev).gpioRec ch = none := hr
  have hgo : ¬ (!(begin_ t s.dev).plant) = true := by
    rw [show (begin_ t s.dev).plant = s.dev.plant from rfl, hp]
    decide
  have hst : (begin_ t s.dev).stReq = [] := rfl
  unfold Dev.gpioChange
  rw [if_neg hgo]
  dsimp only
  rw [hr']
  dsimp only
  rw [Bool.bne_false]
  split
  case isTrue hb =>
    rw [settle_rd_clear _ _ hst _ _ _ (by decide) (by decide)]
    exact ⟨by simpa using hb, (Dev.Touches.refl _ _).settle hst⟩
  case isFalse =>
    generalize hx : setBit ((begin_ t s.dev).rd Reg.FLD_GPIO_IN_LEVEL) ch level = x
    have hst' : ((begin_ t s.dev).wr Reg.FLD_GPIO_IN_LEVEL x).stReq = [] := Dev.wr_stReq _ _ _ _ _
    refine ⟨?_, Dev.Touches.settle (Dev.Touches.wr _ x 0 0 (by decide)) hst'⟩
    rw [settle_rd_clear _ _ hst' _ _ _ (by decide) (by decide), Dev.rd_wr_self (begin_ t s.dev) Reg.FLD_GPIO_IN_LEVEL x 0 0 (by decide), ← hx]
    exact bitAt_setBit (w := 16) _ level ch.isLt

/-- A safe input that changes: both its levels are shown, the change is told, and an input with action 2 that comes on asks for a Wrap. -/
theorem Dev.inputChange_shown {d : Dev} {q : Fin 8} {level : Bool} {x : Rec} (hp : d.plant = true) (hr : d.inputRec q = some x) (hb : bitAt (d.rd Reg.FLD_SAFE_IN_ACTIVE) q ≠ (level != (x.u8 9 == 1))) :
    (d.inputChange q level).2 = ((level != (x.u8 9 == 1)) && x.u8 10 % 4 == 2) ∧
    bitAt ((d.inputChange q level).1.rd Reg.FLD_SAFE_IN_ACTIVE) q = (level != (x.u8 9 == 1)) ∧ bitAt ((d.inputChange q level).1.rd Reg.FLD_SAFE_IN_LEVEL) q = (level != (x.u8 9 == 1)) ∧
    (d.inputChange q level).1.stReq = d.stReq ∧ (d.inputChange q level).1.mode = d.mode ∧ (d.inputChange q level).1.sin = d.sin := by
  unfold Dev.inputChange
  rw [if_neg (by rw [hp]; decide), hr]
  dsimp only
  generalize (level != (x.u8 9 == 1)) = v at hb
  have hL : ∀ y : Nat, bitAt ((d.wr Reg.FLD_SAFE_IN_LEVEL (setBit (d.rd Reg.FLD_SAFE_IN_LEVEL) q v)).rd Reg.FLD_SAFE_IN_LEVEL) q = v := fun _ => by
    rw [Dev.rd_wr_self d Reg.FLD_SAFE_IN_LEVEL _ 0 0 (by decide)]
    exact bitAt_setBit (w := 8) _ v q.isLt
  have hA : (d.wr Reg.FLD_SAFE_IN_LEVEL (setBit (d.rd Reg.FLD_SAFE_IN_LEVEL) q v)).rd Reg.FLD_SAFE_IN_ACTIVE = d.rd Reg.FLD_SAFE_IN_ACTIVE :=
    Dev.rd_wr_free d (f := Reg.FLD_SAFE_IN_LEVEL) _ (i := 0) (j := 0) (by decide) (by decide) (by decide)
  have hkeep : (d.wr Reg.FLD_SAFE_IN_LEVEL (setBit (d.rd Reg.FLD_SAFE_IN_LEVEL) q v)).stReq = d.stReq ∧ (d.wr Reg.FLD_SAFE_IN_LEVEL (setBit (d.rd Reg.FLD_SAFE_IN_LEVEL) q v)).mode = d.mode ∧
      (d.wr Reg.FLD_SAFE_IN_LEVEL (setBit (d.rd Reg.FLD_SAFE_IN_LEVEL) q v)).sin = d.sin := ⟨Dev.wr_stReq _ _ _ _ _, Dev.wr_mode _ _ _ _ _, Dev.wr_sin _ _ _ _ _⟩
  have hL := hL 0
  generalize d.wr Reg.FLD_SAFE_IN_LEVEL (setBit (d.rd Reg.FLD_SAFE_IN_LEVEL) q v) = e at hL hA hkeep
  obtain ⟨hk1, hk2, hk3⟩ := hkeep
  rw [if_neg (by rw [hA]; simpa using hb)]
  dsimp only
  generalize hy : setBit (e.rd Reg.FLD_SAFE_IN_ACTIVE) q v = y
  have hA' : bitAt ((e.wr Reg.FLD_SAFE_IN_ACTIVE y).rd Reg.FLD_SAFE_IN_ACTIVE) q = v := by
    rw [Dev.rd_wr_self e Reg.FLD_SAFE_IN_ACTIVE y 0 0 (by decide), ← hy]
    exact bitAt_setBit (w := 8) _ v q.isLt
  have hL' : (e.wr Reg.FLD_SAFE_IN_ACTIVE y).rd Reg.FLD_SAFE_IN_LEVEL = e.rd Reg.FLD_SAFE_IN_LEVEL :=
    Dev.rd_wr_free e (f := Reg.FLD_SAFE_IN_ACTIVE) y (i := 0) (j := 0) (by decide) (by decide) (by decide)
  have hkeep' : (e.wr Reg.FLD_SAFE_IN_ACTIVE y).stReq = e.stReq ∧ (e.wr Reg.FLD_SAFE_IN_ACTIVE y).mode = e.mode ∧ (e.wr Reg.FLD_SAFE_IN_ACTIVE y).sin = e.sin :=
    ⟨Dev.wr_stReq _ _ _ _ _, Dev.wr_mode _ _ _ _ _, Dev.wr_sin _ _ _ _ _⟩
  generalize e.wr Reg.FLD_SAFE_IN_ACTIVE y = f at hA' hL' hkeep'
  obtain ⟨hf1, hf2, hf3⟩ := hkeep'
  have hev : (if v = true then Ev.FLD_INPUT_ON else Ev.FLD_INPUT_OFF).sev < 5 := by
    cases v <;> decide
  generalize (if v = true then Ev.FLD_INPUT_ON else Ev.FLD_INPUT_OFF) = ev at hev
  generalize (QUnit.one _) = u
  have hposts := (Dev.Posts.produce f 0xE002 0 u).trans (Dev.Posts.raise (f.produce 0xE002 0 u) ev q (x.u8 10 % 4) hev)
  refine ⟨rfl, ?_, ?_, hposts.stReq.trans (hf1.trans hk1), hposts.mode.trans (hf2.trans hk2), hposts.sin.trans (hf3.trans hk3)⟩
  · rw [hposts.rd (by decide) (by decide), hA']
  · rw [hposts.rd (by decide) (by decide), hL', hL]

theorem ends_fldInputDebounce {q : Fin 8} {level : Bool} {x : Rec} (hp : s.dev.plant = true) (hr : s.dev.inputRec q = some x)
    (hb : bitAt (s.dev.rd Reg.FLD_SAFE_IN_ACTIVE) q ≠ (level != (x.u8 9 == 1))) : Ends (.fldInputDebounce t q level) s fun d =>
    bitAt (d.rd Reg.FLD_SAFE_IN_ACTIVE) q = (level != (x.u8 9 == 1)) ∧ bitAt (d.rd Reg.FLD_SAFE_IN_LEVEL) q = (level != (x.u8 9 == 1)) ∧
    ((level != (x.u8 9 == 1)) = true → x.u8 10 % 4 = 2 → s.dev.mode = .run → s.dev.sin.switchWrap ≠ some 6 → 6 ∈ d.gaf.wrapReq) := by
  refine ends_of (exec_fldInputDebounce t q level s) ?_
  obtain ⟨h1, h2, h3, h4, h5, h6⟩ := Dev.inputChange_shown (d := begin_ t s.dev) (q := q) (level := level) (x := x) hp hr hb
  have hm : (begin_ t s.dev).mode = s.dev.mode := rfl
  have hsin : (begin_ t s.dev).sin = s.dev.sin := rfl
  have hst : (begin_ t s.dev).stReq = [] := rfl
  rw [hst] at h4
  rw [hm] at h5
  rw [hsin] at h6
  generalize (begin_ t s.dev).inputChange q level = p at h1 h2 h3 h4 h5 h6
  obtain ⟨e, w⟩ := p
  dsimp only at h1 h2 h3 h4 h5 h6 ⊢
  generalize (level != (x.u8 9 == 1)) = v at h1 h2 h3
  split
  case isTrue hw =>
    have ha := Dev.within_askWrap e 6
    have hst' := ha.stReq.trans h4
    refine ⟨?_, ?_, fun _ _ hm hs => ?_⟩
    · rw [settle_rd_clear _ _ hst' _ _ _ (by decide) (by decide), ha.rd (by decide) (by decide), h2]
    · rw [settle_rd_clear _ _ hst' _ _ _ (by decide) (by decide), ha.rd (by decide) (by decide), h3]
    · rw [settle_gaf _ _ hst']
      exact Dev.askWrap_asks (h5.trans hm) (by decide) (by rwa [h6])
  case isFalse hw =>
    refine ⟨?_, ?_, fun hv h10 => absurd (h1.trans (by rw [hv, h10]; rfl)) hw⟩
    · rw [settle_rd_clear _ _ h4 _ _ _ (by decide) (by decide), h2]
    · rw [settle_rd_clear _ _ h4 _ _ _ (by decide) (by decide), h3]

end

/-- Settles O54, a lemma for each command. -/
theorem fieldInterfacesFollowTheirInputs : Obligations.FieldInterfacesFollowTheirInputs := by
  unfold Obligations.FieldInterfacesFollowTheirInputs
  intro s t req id sof tec rcv c q ch dlc ide fdf brs esi a b z level data fr r x v
  exact ⟨ends_canSlotEnd, fun hp hc hs hl => ⟨ends_canFrameDropped hp hc hs hl, ends_canFrameTaken hp hc hs hl⟩, ends_canBusOff, ends_canRecover, ends_canErrorPassive,
    fun hp h9 => ⟨ends_qdSample_step hp h9, ends_qdSample_illegal hp h9⟩, fun hok => ⟨ends_fldQdSet hok q, ends_fldQdErrcnt hok q, ends_fldPwmHost hok ch, ends_fldGpioOut hok⟩,
    ends_pwmPeriodStart, ends_gpioInputChange, ends_fldInputDebounce⟩

end Sys2Proof.Machine
end

section
/-!
PROOFS. Proofs/EgressEvents.lean: an egress unit discarded on a port whose queue takes events (R74, R432).
-/
namespace Sys2Proof.Machine

/-- The queue of port 0 with one unit to send. -/
def egressQueue : Queue :=
  { qd := { depth := 4, policy := .overwrite, cls := 3, producer := 1, consumer := 0xB000, wmHigh := 0, carry := 0, prot := false, openRead := false }, units := [.one 0#64] }

/-- A device in RUN with port 0 up, no binding, and the port's queue numbered 0, to which the structure, naming no other, sends every event. -/
def egressToEvents : State :=
  tSt { (tDev .run [tRec secNet 1 [(9, 1, 1), (21, 1, 0xFF)]]).tPut [(Reg.NET_PORT_STAT_LINK, 0, 0, 1)] with qf := { State.reset.dev.qf with qs := [(0, egressQueue)] } }

/-- The event of the discard stands in the queue from which the unit was taken. -/
theorem egressToEvents_units : (((settle egressToEvents.dev ((begin_ 0 egressToEvents.dev).egTake (0 : Fin 4) 0)).qf.qs.find 0).map fun q => q.units.isEmpty) = some false := by
  decide +kernel

theorem egressToEvents_taken : (egressToEvents.dev.portCfg 0).isSome = true ∧ (egressToEvents.dev.portsOf 0).any (fun r => egressToEvents.dev.portUp r) = true ∧
    (begin_ 0 egressToEvents.dev).pausedFor 0 egressQueue.qd.cls = false ∧ (begin_ 0 egressToEvents.dev).higherWaits 0 (classRank egressQueue.qd.cls) = false ∧
    egressToEvents.dev.bindingOf 0 = none := by
  decide +kernel

/-- Refutes O53: a unit of a queue without a binding is discarded with an event; where events go to that very queue, it does not hold just the units that followed. -/
theorem not_networkPortsTakeAndSend : ¬ Obligations.NetworkPortsTakeAndSend := by
  intro h
  obtain ⟨hcfg, hup, hpaused, hhigher, hbind⟩ := egressToEvents_taken
  obtain ⟨-, -, -, -, htake, -⟩ := h egressToEvents 0 0 0 0 0 0 0 (PortCfg.mk 0 [] 0 0 0 [] [] 0 0 false) (PortCfg.mk 0 [] 0 0 0 [] [] 0 0 false) [] [] [] [] 0 false 0 { an := 0, key := [] } egressQueue (.one 0#64) []
  obtain ⟨hq, -⟩ := Ends.holds ((htake rfl rfl hcfg hup rfl rfl hpaused hhigher).1 hbind) (exec_egressUnitTake 0 0 0 egressToEvents)
  obtain ⟨q, hfind, hunits, -⟩ := hq
  have hev := egressToEvents_units
  rw [hfind] at hev
  simp only [Option.map_some, hunits] at hev
  exact absurd hev (by decide)

end Sys2Proof.Machine
end

section
/-!
PROOFS. Proofs/DispatchWatch.lean: the source watchdog, the frequency response, the end of a derate's grace (R296, R297, R299).
-/
namespace Sys2Proof.Machine

/-! ### A command that ends by storing an event -/

section
variable {o e x : Dev} (hp : e.Posts x) (hst : e.stReq = [])
include hp hst

theorem Dev.Posts.settle_rd {f : Field} {i j : Nat} (hj : f.has i j = true) (hf : f.clearOf settleFields = true) : (settle o x).rd f i j = e.rd f i j :=
  (settle_rd_clear o x (hp.stReq.trans hst) f i j hj hf).trans (Dev.rd_congr (hp.words _ (Field.clearOf_events hf hj)))

theorem Dev.Posts.settle_dsp : (settle o x).dsp = e.dsp := (Sys2Proof.Machine.settle_dsp o x (hp.stReq.trans hst)).trans hp.dsp

theorem Dev.Posts.settle_touches {s : State} {t : Nat} {ws : List Nat} (h : Dev.Touches ws (begin_ t s.dev) e) : s.dev.OnlyWrites (settle s.dev x) ws :=
  (h.trans (hp.touches ws)).settle (hp.stReq.trans hst)

end

section
variable {s : State} {t : Nat}

theorem ends_dspWatchdog (hrun : s.dev.rd Reg.DSP_STATUS_RUNNING = 1) (hw : s.dev.rd Reg.DSP_CTRL_WDOG ≠ 0) (hsrc : s.dev.rd Reg.DSP_STATUS_SRC ≠ 3) (h0 : s.dev.rd Reg.DSP_STATUS_WDOG = 0)
    (hq : s.dev.dsp.accAt.get (s.dev.rd Reg.DSP_STATUS_SRC) 0 + s.dev.rd Reg.DSP_CTRL_WDOG * 1000000 ≤ s.dev.ownAt t) : Ends (.dspWatchdog t) s fun d =>
    d.rd Reg.DSP_STATUS_WDOG = 1 ∧ d.dsp.force.find (s.dev.rd Reg.DSP_STATUS_SRC) = none ∧ s.dev.OnlyWrites d [0x80000] := by
  refine ends_of (exec_dspWatchdog t s) ?_
  have hno : ¬ (!(begin_ t s.dev).on Reg.DSP_STATUS_RUNNING || (begin_ t s.dev).rd Reg.DSP_CTRL_WDOG == 0 || (begin_ t s.dev).rd Reg.DSP_STATUS_SRC == 3 ||
      (begin_ t s.dev).on Reg.DSP_STATUS_WDOG ||
      !decide ((begin_ t s.dev).dsp.accAt.get ((begin_ t s.dev).rd Reg.DSP_STATUS_SRC) 0 + (begin_ t s.dev).rd Reg.DSP_CTRL_WDOG * 1000000 ≤ (begin_ t s.dev).own)) = true := by
    rw [show (begin_ t s.dev).own = s.dev.ownAt t from rfl, show (begin_ t s.dev).dsp = s.dev.dsp from rfl]
    simp only [Dev.rd_begin_, Dev.on, hrun, h0]
    simp [hw, hsrc]
    exact decide_eq_true hq
  unfold Dev.dspWatch
  dsimp only
  rw [if_neg hno, Dev.rd_begin_, Dev.rd_begin_]
  generalize s.dev.rd Reg.DSP_STATUS_SRC = src
  generalize s.dev.rd Reg.DSP_CTRL_WDOG = w
  have hrd : ((begin_ t s.dev).set1 Reg.DSP_STATUS_WDOG).rd Reg.DSP_STATUS_WDOG = 1 := Dev.rd_wr_self (begin_ t s.dev) Reg.DSP_STATUS_WDOG 1 0 0 (by decide)
  have htouch : Dev.Touches [0x80000] (begin_ t s.dev) ((begin_ t s.dev).set1 Reg.DSP_STATUS_WDOG) := Dev.Touches.wr _ 1 0 0 (by decide)
  have hst : ((begin_ t s.dev).set1 Reg.DSP_STATUS_WDOG).stReq = [] := Dev.wr_stReq _ _ _ _ _
  generalize (begin_ t s.dev).set1 Reg.DSP_STATUS_WDOG = d at hrd htouch hst
  have hdrop : ({ d with dsp := { (begin_ t s.dev).dsp with force := (begin_ t s.dev).dsp.force.del src } } : Dev).dsp.force.find src = none := by
    refine (Tbl.find_del _ src src).trans (if_pos rfl)
  have hrd' : ({ d with dsp := { (begin_ t s.dev).dsp with force := (begin_ t s.dev).dsp.force.del src } } : Dev).rd Reg.DSP_STATUS_WDOG = 1 := (Dev.rd_congr (Dev.word_congr rfl _)).trans hrd
  have htouch' : Dev.Touches [0x80000] (begin_ t s.dev) { d with dsp := { (begin_ t s.dev).dsp with force := (begin_ t s.dev).dsp.force.del src } } := htouch.trans (Dev.Touches.of_regs rfl)
  have hst' : ({ d with dsp := { (begin_ t s.dev).dsp with force := (begin_ t s.dev).dsp.force.del src } } : Dev).stReq = [] := hst
  generalize ({ d with dsp := { (begin_ t s.dev).dsp with force := (begin_ t s.dev).dsp.force.del src } } : Dev) = e at hdrop hrd' htouch' hst'
  have hp := Dev.Posts.raise e Ev.DSP_WATCHDOG src w (by decide)
  refine ⟨?_, ?_, hp.settle_touches hst' htouch'⟩
  · rw [hp.settle_rd hst' (by decide) (by decide), hrd']
  · rw [hp.settle_dsp hst', hdrop]

/-! ### The frequency response -/

/-- The words that show the frequency response. -/
def ffrWords : List Nat := [0x80000, 0x80018]

theorem Dev.ffr_shown (d : Dev) (a p : Nat) (ha : a < 2) :
    let e := (d.wr Reg.DSP_STATUS_FFR_ACTIVE a).wr Reg.DSP_P_FFR_P_FFR p
    e.rd Reg.DSP_STATUS_FFR_ACTIVE = a ∧ e.rd Reg.DSP_P_FFR_P_FFR = p % 2 ^ 32 ∧ Dev.Touches ffrWords d e ∧ e.stReq = d.stReq ∧ e.dsp = d.dsp := by
  intro e
  refine ⟨?_, Dev.rd_wr_self _ Reg.DSP_P_FFR_P_FFR p 0 0 (by decide), ?_, (Dev.wr_stReq _ _ _ _ _).trans (Dev.wr_stReq _ _ _ _ _), (Dev.wr_dsp _ _ _ _ _).trans (Dev.wr_dsp _ _ _ _ _)⟩
  · exact (Dev.rd_wr_apart _ Reg.DSP_P_FFR_P_FFR Reg.DSP_STATUS_FFR_ACTIVE p 0 0 0 0 (by decide)).trans
      ((Dev.rd_wr_self d Reg.DSP_STATUS_FFR_ACTIVE a 0 0 (by decide)).trans (Nat.mod_eq_of_lt ha))
  · exact (Dev.Touches.wr d (f := Reg.DSP_STATUS_FFR_ACTIVE) a 0 0 (by decide)).trans (Dev.Touches.wr _ (f := Reg.DSP_P_FFR_P_FFR) p 0 0 (by decide))

theorem code_lt (w : Nat) (x : Int) : code w x < 2 ^ w := by
  have hpos : (0 : Int) < ((2 ^ w : Nat) : Int) := by
    have := Nat.two_pow_pos w
    omega
  have h1 := Int.emod_lt_of_pos x hpos
  have h2 := Int.emod_nonneg x (Int.ne_of_gt hpos)
  unfold code
  omega

/-- What the end of a command shows of the frequency response. -/
theorem Dev.ffr_settled {d x : Dev} (hst : d.stReq = []) (hd : Dev.Touches ffrWords (begin_ t s.dev) d) (a p : Nat) (ha : a < 2)
    (hx : ((d.wr Reg.DSP_STATUS_FFR_ACTIVE a).wr Reg.DSP_P_FFR_P_FFR p).Posts x) :
    (settle s.dev x).rd Reg.DSP_STATUS_FFR_ACTIVE = a ∧ (settle s.dev x).rd Reg.DSP_P_FFR_P_FFR = p % 2 ^ 32 ∧ s.dev.OnlyWrites (settle s.dev x) [0x80000, 0x80018] := by
  obtain ⟨h1, h2, h3, h4, -⟩ := Dev.ffr_shown d a p ha
  generalize (d.wr Reg.DSP_STATUS_FFR_ACTIVE a).wr Reg.DSP_P_FFR_P_FFR p = e at h1 h2 h3 h4 hx
  have hst' := h4.trans hst
  exact ⟨(hx.settle_rd hst' (by decide) (by decide)).trans h1, (hx.settle_rd hst' (by decide) (by decide)).trans h2, hx.settle_touches hst' (hd.trans h3)⟩

variable {f b : Nat} (hf : s.dev.dsp.freq = some (f, b))
include hf

theorem ends_ffrActive (ha : s.dev.rd Reg.DSP_STATUS_FFR_ACTIVE = 0) (hen : s.dev.rd Reg.DSP_FFR_CTRL_EN = 1) (hrun : s.dev.rd Reg.DSP_STATUS_RUNNING = 1) (hm : s.dev.mode ≠ .wrap)
    (hl : s.dev.dsp.freqLost = false) (he : (ffrLin s.dev.rl.dispRec f).1 ≠ 0) (hoff : s.dev.rl.dispRec.dpDelay ≤ s.dev.dsp.off) : Ends (.ffrActive t) s fun d =>
    d.rd Reg.DSP_STATUS_FFR_ACTIVE = 1 ∧ d.rd Reg.DSP_P_FFR_P_FFR = code 32 (ffrLin s.dev.rl.dispRec f).2 ∧ s.dev.OnlyWrites d [0x80000, 0x80018] := by
  refine ends_of (exec_ffrActive t s) ?_
  have hf' : (begin_ t s.dev).dsp.freq = some (f, b) := hf
  have hrl : (begin_ t s.dev).rl = s.dev.rl := rfl
  have hdsp : (begin_ t s.dev).dsp = s.dev.dsp := rfl
  have hm' : (begin_ t s.dev).mode = s.dev.mode := rfl
  have hst : (begin_ t s.dev).stReq = [] := rfl
  unfold Dev.ffrStart
  dsimp only
  rw [hf']
  dsimp only
  rw [hrl]
  generalize ffrLin s.dev.rl.dispRec f = ep at he
  obtain ⟨e, p⟩ := ep
  dsimp only at he ⊢
  rw [if_neg (by
    rw [hdsp, hm', Dev.on_begin_, Dev.on_begin_, Dev.on_begin_]
    simp [Dev.on, ha, hen, hrun, hm, hl, he, hoff])]
  have h := Dev.ffr_settled (s := s) (t := t) hst (Dev.Touches.refl _ _) 1 (code 32 p) (by decide) (Dev.Posts.raise _ Ev.DSP_FFR_ACTIVE 0 (code 32 p) (by decide))
  rw [Nat.mod_eq_of_lt (code_lt 32 p)] at h
  exact h

theorem ends_ffrEnd (ha : s.dev.rd Reg.DSP_STATUS_FFR_ACTIVE = 1) (he : (ffrLin s.dev.rl.dispRec f).1 = 0) (hdead : s.dev.rl.dispRec.dpDelay ≤ s.dev.dsp.dead) : Ends (.ffrEnd t) s fun d =>
    d.rd Reg.DSP_STATUS_FFR_ACTIVE = 0 ∧ d.rd Reg.DSP_P_FFR_P_FFR = 0 ∧ s.dev.OnlyWrites d [0x80000, 0x80018] := by
  refine ends_of (exec_ffrEnd t s) ?_
  have hf' : (begin_ t s.dev).dsp.freq = some (f, b) := hf
  have hrl : (begin_ t s.dev).rl = s.dev.rl := rfl
  have hdsp : (begin_ t s.dev).dsp = s.dev.dsp := rfl
  have hst : (begin_ t s.dev).stReq = [] := rfl
  unfold Dev.ffrEnd
  dsimp only
  rw [hf']
  dsimp only
  rw [hrl, hdsp, he, if_neg (by
    rw [Dev.on_begin_]
    simp [Dev.on, ha, hdead])]
  exact Dev.ffr_settled (s := s) (t := t) hst (Dev.Touches.refl _ _) 0 0 (by decide) (Dev.Posts.raise _ Ev.DSP_FFR_END 0 0 (by decide))

theorem ends_freqLost (hen : s.dev.rd Reg.DSP_FFR_CTRL_EN = 1) (hrun : s.dev.rd Reg.DSP_STATUS_RUNNING = 1) (hl : s.dev.dsp.freqLost = false)
    (hb : b + 8 * max 1 (s.dev.rd Reg.DSP_FFR_CTRL_F_TIMEOUT) < cycleOf (s.dev.nowAt t)) : Ends (.freqLost t) s fun d =>
    d.dsp.freqLost = true ∧ d.rd Reg.DSP_STATUS_FFR_ACTIVE = 0 ∧ d.rd Reg.DSP_P_FFR_P_FFR = 0 ∧ s.dev.OnlyWrites d [0x80000, 0x80018] := by
  refine ends_of (exec_freqLost t s) ?_
  have hf' : (begin_ t s.dev).dsp.freq = some (f, b) := hf
  have hcyc : (begin_ t s.dev).cyc = cycleOf (s.dev.nowAt t) := rfl
  have hdsp : (begin_ t s.dev).dsp = s.dev.dsp := rfl
  have hst : (begin_ t s.dev).stReq = [] := rfl
  unfold Dev.ffrLost
  dsimp only
  rw [hf']
  dsimp only
  rw [hcyc, hdsp, hl, Dev.rd_begin_, if_neg (by
    rw [Dev.on_begin_, Dev.on_begin_]
    simp [Dev.on, hen, hrun, hb])]
  generalize max 1 (s.dev.rd Reg.DSP_FFR_CTRL_F_TIMEOUT) = tmo
  unfold Dev.clr
  obtain ⟨h1, h2, h3, h4, -⟩ := Dev.ffr_shown (begin_ t s.dev) 0 0 (by decide)
  generalize (((begin_ t s.dev).wr Reg.DSP_STATUS_FFR_ACTIVE 0).wr Reg.DSP_P_FFR_P_FFR 0) = d at h1 h2 h3 h4
  have hst' := h4.trans hst
  generalize hx : ({ d with dsp := { d.dsp with freqLost := true, off := 0, dead := 0 } } : Dev) = x
  have hxl : x.dsp.freqLost = true := by rw [← hx]
  have hxst : x.stReq = [] := by rw [← hx]; exact hst'
  have hxregs : x.regs = d.regs := by rw [← hx]
  have hp := Dev.Posts.raise x Ev.DSP_FREQ_LOST 0 tmo (by decide)
  have hrd : ∀ f i j, x.rd f i j = d.rd f i j := fun f i j => Dev.rd_congr (Dev.word_congr hxregs _)
  refine ⟨?_, ?_, ?_, hp.settle_touches hxst (h3.trans (Dev.Touches.of_regs hxregs))⟩
  · rw [hp.settle_dsp hxst, hxl]
  · rw [hp.settle_rd hxst (by decide) (by decide), hrd, h1]
  · rw [hp.settle_rd hxst (by decide) (by decide), hrd, h2]
    rfl

end

/-! ### Grace timers -/

theorem Dev.dstr_congr {d e : Dev} (h : e.dsp = d.dsp) (str : Nat) : e.dstr str = d.dstr str := by
  unfold Dev.dstr
  rw [h]

theorem Dev.dstr_setDstr (d : Dev) (str : Nat) (x : DStr) : (d.setDstr str x).dstr str = x := Tbl.get_set_self _ _ _ _

theorem ends_derateGraceExpiry {s : State} {t : Nat} {str : Fin 256} (h : (s.dev.dstr str).grace = some 0) : Ends (.derateGraceExpiry t str) s fun d =>
    d.rd Reg.DSP_STR_DER_ENFORCED str = s.dev.rd Reg.DSP_STR_DER_REQUESTED str ∧ d.rd Reg.DSP_STR_STAT_GRACE str = 0 ∧ (d.dstr str).grace = none ∧
    s.dev.OnlyWrites d [Reg.DSP_STR_DER_ENFORCED.addr str 0, Reg.DSP_STR_STAT_GRACE.addr str 0] := by
  refine ends_of (exec_derateGraceExpiry t str s) ?_
  have h' : (begin_ t s.dev).dstr str = s.dev.dstr str := rfl
  unfold Dev.derateExpire
  dsimp only
  rw [h', if_neg (not_not.2 h), Dev.rd_begin_]
  have hlt : s.dev.rd Reg.DSP_STR_DER_REQUESTED str < 2 ^ 16 := s.dev.rd_lt _ _ _
  generalize s.dev.rd Reg.DSP_STR_DER_REQUESTED str = req at hlt
  have hset : Dev.Touches [Reg.DSP_STR_DER_ENFORCED.addr str 0, Reg.DSP_STR_STAT_GRACE.addr str 0] (begin_ t s.dev) ((begin_ t s.dev).setDstr str { s.dev.dstr str with grace := none }) :=
    Dev.Touches.of_regs rfl
  have hgrace : (((begin_ t s.dev).setDstr str { s.dev.dstr str with grace := none }).dstr str).grace = none := by rw [Dev.dstr_setDstr]
  have hst : ((begin_ t s.dev).setDstr str { s.dev.dstr str with grace := none }).stReq = [] := rfl
  generalize (begin_ t s.dev).setDstr str { s.dev.dstr str with grace := none } = d at hset hgrace hst
  have hE : Reg.DSP_STR_DER_ENFORCED.has str 0 = true := Field.has_of str.isLt (by decide)
  have hG : Reg.DSP_STR_STAT_GRACE.has str 0 = true := Field.has_of str.isLt (by decide)
  have hL : Reg.DSP_STR_STAT_GRACE_LEFT.has str 0 = true := Field.has_of str.isLt (by decide)
  generalize he : ((d.wr Reg.DSP_STR_DER_ENFORCED req str).wr Reg.DSP_STR_STAT_GRACE 0 str).wr Reg.DSP_STR_STAT_GRACE_LEFT 0 str = e
  have h1 : e.rd Reg.DSP_STR_DER_ENFORCED str = req := by
    rw [← he, Dev.rd_wr_free _ _ hL hE (by decide), Dev.rd_wr_free _ _ hG hE (by decide), Dev.rd_wr_self d Reg.DSP_STR_DER_ENFORCED req str 0 (by decide)]
    exact Nat.mod_eq_of_lt hlt
  have h2 : e.rd Reg.DSP_STR_STAT_GRACE str = 0 := by
    rw [← he, Dev.rd_wr_free _ _ hL hG (by decide)]
    exact Dev.rd_wr_self _ Reg.DSP_STR_STAT_GRACE 0 str 0 (by decide)
  have h3 : Dev.Touches [Reg.DSP_STR_DER_ENFORCED.addr str 0, Reg.DSP_STR_STAT_GRACE.addr str 0] d e := by
    rw [← he]
    exact ((Dev.Touches.wr d req str 0 (by simp)).trans (Dev.Touches.wr _ 0 str 0 (by simp))).trans (Dev.Touches.wr _ 0 str 0 (by simp [Field.addr, Reg.DSP_STR_STAT_GRACE_LEFT, Reg.DSP_STR_STAT_GRACE]))
  have h4 : e.stReq = [] := by rw [← he, Dev.wr_stReq, Dev.wr_stReq, Dev.wr_stReq, hst]
  have h5 : e.dsp = d.dsp := by rw [← he, Dev.wr_dsp, Dev.wr_dsp, Dev.wr_dsp]
  have hp := Dev.Posts.raise e Ev.DSP_DERATE_ENFORCED str req (by decide)
  refine ⟨?_, ?_, ?_, hp.settle_touches h4 (hset.trans h3)⟩
  · rw [hp.settle_rd h4 hE (by decide), h1]
  · rw [hp.settle_rd h4 hG (by decide), h2]
  · rw [Dev.dstr_congr (hp.settle_dsp h4), Dev.dstr_congr h5, hgrace]

/-- Settles O23, a lemma for each command. -/
theorem dispatchWatchesAndResponds : Obligations.DispatchWatchesAndResponds := by
  unfold Obligations.DispatchWatchesAndResponds
  intro s t f b str
  exact ⟨ends_dspWatchdog, fun hf => ⟨ends_ffrActive hf, ends_ffrEnd hf, ends_freqLost hf⟩, ends_derateGraceExpiry⟩

end Sys2Proof.Machine
end

section
/-!
PROOFS. Proofs/DispatchInputs.lean: input records, CAN inputs, mirrors (R287 to R294, R297).
-/
namespace Sys2Proof.Machine

/-! ### A unit that a reader takes -/

/-- The device once the unit at the front of a queue is taken. -/
def Dev.without (d : Dev) (qid : Nat) (q : Queue) (us : List QUnit) : Dev := { d with qf := { d.qf with qs := d.qf.qs.ins qid { q with units := us } } }

theorem Dev.take_eq {d : Dev} {qid : Nat} {q : Queue} {u : QUnit} {us : List QUnit} (hq : d.qf.qs.find qid = some q) (hr : q.reading = none) (hu : q.units = u :: us) :
    d.take qid = (d.without qid q us, some u) := by
  have ht : q.takeUnit = ({ q with units := us }, some u) := by
    unfold Queue.takeUnit
    rw [hr, hu]
  unfold Dev.take
  rw [hq]
  dsimp only
  rw [ht]
  rfl

theorem Dev.posts_without (d : Dev) (qid : Nat) (q : Queue) (us : List QUnit) : d.Posts (d.without qid q us) := Dev.Posts.qf d _

theorem Dev.find_without (d : Dev) (qid : Nat) (q : Queue) (us : List QUnit) : (d.without qid q us).qf.qs.find qid = some { q with units := us } := Tbl.find_ins_self _ _ _

/-! ### What becomes of an input record -/

section
variable {d : Dev} {x : DRaw} (he : d.dsp.early = [])

theorem Dev.dspCheck_congr {d e : Dev} (hreel : e.reel = d.reel) (hdsp : e.dsp = d.dsp) (hnow : e.now = d.now) (hmode : e.mode = d.mode) (x : DRaw) : e.dspCheck x = d.dspCheck x := by
  unfold Dev.dspCheck Dev.dspNew Dev.rl
  rw [hreel, hdsp, hnow, hmode]

theorem Dev.dspHolds_congr {d e : Dev} (h : e.rd Reg.SIN_STATUS_ROLE = d.rd Reg.SIN_STATUS_ROLE) : e.dspHolds = d.dspHolds := by
  unfold Dev.dspHolds Dev.role
  rw [h]

include he

theorem Dev.earlyDropped : ({ d with dsp := { d.dsp with early := d.dsp.early.filter (fun e => decide (d.own < e.2 + 1000000)) } } : Dev) = d := by
  have h : d.dsp.early.filter (fun e => decide (d.own < e.2 + 1000000)) = d.dsp.early := by
    rw [he]
    rfl
  rw [h]

/-- An input record, where no mirror came before it: refused, held, or accepted. -/
theorem Dev.dspTake_eq : d.dspTake x = if d.dspCheck x ≠ 0 then d.dspRefuse x.prod (d.dspCheck x) x.seq
    else if d.dspHolds then { d with dsp := { d.dsp with held := d.dsp.held ++ [(x, d.own)] } }
    else
      let a := d.dspApply (if x.sec = 0 ∧ x.ns = 0 then 0 else (ofFullTime x.ns (x.sec % 2 ^ 32) (x.sec / 2 ^ 32)).getD 0)
      let f := (if a.2 then (d.bump Reg.DSP_CNT_LATE_CNT).raiseHeld Ev.DSP_LATE_APPLY x.prod oneSec x.prod (fun n => min n (2 ^ 32 - 1)) else d).dspAccept x a.1
      if f.role = roleActive then f.dspMirrorOut x a.1 else f := by
  unfold Dev.dspTake
  dsimp only
  rw [Dev.earlyDropped he, he]
  simp only [List.filter_nil, List.any_nil, Bool.and_false, Bool.false_eq_true, if_false]

end

/-- What a refusal shows. -/
theorem Dev.dspRefuse_shown (d : Dev) (prod : Nat) {reason : Nat} (hr : reason < 16) (seq : Nat) :
    (d.dspRefuse prod reason seq).rd Reg.DSP_CNT_REFUSED_CNT = min (d.rd Reg.DSP_CNT_REFUSED_CNT + 1) (2 ^ 32 - 1) ∧ (d.dspRefuse prod reason seq).rd Reg.DSP_ERR_REASON = reason ∧
    (d.dspRefuse prod reason seq).rd Reg.DSP_ERR_PRODUCER = prod % 2 ^ 16 ∧ (d.dspRefuse prod reason seq).dsp = d.dsp := by
  unfold Dev.dspRefuse
  extract_lets e f
  have h1 : e.rd Reg.DSP_CNT_REFUSED_CNT = min (d.rd Reg.DSP_CNT_REFUSED_CNT + 1) (2 ^ 32 - 1) := (Dev.rd_wr_apart _ Reg.DSP_ERR_PRODUCER Reg.DSP_CNT_REFUSED_CNT prod 0 0 0 0 (by decide)).trans
    ((Dev.rd_wr_apart _ Reg.DSP_ERR_REASON Reg.DSP_CNT_REFUSED_CNT reason 0 0 0 0 (by decide)).trans (Dev.rd_bump_count d 0 rfl rfl))
  have h2 : e.rd Reg.DSP_ERR_REASON = reason := (Dev.rd_wr_apart _ Reg.DSP_ERR_PRODUCER Reg.DSP_ERR_REASON prod 0 0 0 0 (by decide)).trans
    ((Dev.rd_wr_self _ Reg.DSP_ERR_REASON reason 0 0 (by decide)).trans (Nat.mod_eq_of_lt hr))
  have h3 : e.rd Reg.DSP_ERR_PRODUCER = prod % 2 ^ 16 := Dev.rd_wr_self _ Reg.DSP_ERR_PRODUCER prod 0 0 (by decide)
  have h4 : e.dsp = d.dsp := (Dev.wr_dsp _ _ _ _ _).trans ((Dev.wr_dsp _ _ _ _ _).trans (Dev.wr_dsp _ _ _ _ _))
  clear_value e
  have hp : e.Posts (f.raiseHeld Ev.DSP_INPUT_REFUSED prod oneSec prod (fun _ => reason + seq % 2 ^ 32 * 256)) :=
    (Dev.Posts.ite _ (Dev.Posts.raise e _ _ _ (by decide)) (Dev.Posts.refl e)).trans (Dev.Posts.raiseHeld f _ _ _ _ _ (by decide))
  refine ⟨?_, ?_, ?_, hp.dsp.trans h4⟩
  · rw [hp.rd (by decide) (by decide), h1]
  · rw [hp.rd (by decide) (by decide), h2]
  · rw [hp.rd (by decide) (by decide), h3]

/-- An accepted input is the last of those that wait. -/
theorem Dev.dspAccept_pend (d : Dev) (x : DRaw) (b : Nat) :
    (d.dspAccept x b).dsp.pend = d.dsp.pend ++ [{ src := dspSource x.prod, kind := x.kind, value := x.value, b := b, ord := d.dsp.ord }] := by
  unfold Dev.dspAccept
  extract_lets src se e f sg acc g entry sh
  have he : e.dsp.pend = d.dsp.pend ∧ e.dsp.ord = d.dsp.ord := by
    simp only [e]
    split
    · exact ⟨rfl, rfl⟩
    · exact ⟨rfl, rfl⟩
  have hf : f.dsp = e.dsp := by
    simp only [f]
    split
    · exact Dev.wr_dsp _ _ _ _ _
    · split
      · exact Dev.wr_dsp _ _ _ _ _
      · rfl
  have hacc : acc.dsp.pend = f.dsp.pend ∧ acc.dsp.ord = f.dsp.ord := ⟨rfl, rfl⟩
  have hg : g.dsp.pend = f.dsp.pend ∧ g.dsp.ord = f.dsp.ord := by
    simp only [g]
    split
    · split
      · exact hacc
      · exact hacc
    · exact ⟨rfl, rfl⟩
  have hentry : entry = { src := src, kind := x.kind, value := x.value, b := b, ord := d.dsp.ord } := by
    simp only [entry, hg.2, hf, he.2]
  change g.dsp.pend ++ [entry] = _
  rw [hentry, hg.1, hf, he.1]

/-- The fields that show how many inputs wait and whether they wait for mirrors. -/
def showFields : List Field := [Reg.DSP_STATUS_PENDING, Reg.DSP_STATUS_MIRROR]

theorem Dev.dspAccept_held (d : Dev) (x : DRaw) (b : Nat) : (d.dspAccept x b).dsp.held = d.dsp.held := by
  unfold Dev.dspAccept
  extract_lets src se e f sg acc g entry sh
  have he : e.dsp.held = d.dsp.held := by
    simp only [e]
    split
    · rfl
    · rfl
  have hf : f.dsp = e.dsp := by
    simp only [f]
    split
    · exact Dev.wr_dsp _ _ _ _ _
    · split
      · exact Dev.wr_dsp _ _ _ _ _
      · rfl
  have hacc : acc.dsp.held = f.dsp.held := rfl
  have hg : g.dsp.held = f.dsp.held := by
    simp only [g]
    split
    · split
      · exact hacc
      · exact hacc
    · rfl
  change g.dsp.held = _
  rw [hg, hf, he]

/-- Each input that stays unmirrored counts. -/
theorem Dev.unmirrored_shown (gone : List (DRaw × Nat)) (d : Dev) :
    let e := gone.foldl (fun (d : Dev) h => (d.bump Reg.DSP_CNT_UNMIRRORED_CNT).raise Ev.DSP_UNMIRRORED h.1.prod (if h.1.seqChk then h.1.seq else 0)) d
    e.dsp.held = d.dsp.held ∧ e.rd Reg.DSP_CNT_UNMIRRORED_CNT = min (d.rd Reg.DSP_CNT_UNMIRRORED_CNT + gone.length) (2 ^ 32 - 1) ∧ e.stReq = d.stReq := by
  induction gone generalizing d with
  | nil =>
    have hlt : d.rd Reg.DSP_CNT_UNMIRRORED_CNT < 2 ^ 32 := d.rd_lt _ _ _
    refine ⟨rfl, ?_, rfl⟩
    change d.rd Reg.DSP_CNT_UNMIRRORED_CNT = min (d.rd Reg.DSP_CNT_UNMIRRORED_CNT + 0) (2 ^ 32 - 1)
    omega
  | cons h gone ih =>
    intro e
    have hp := Dev.Posts.raise (d.bump Reg.DSP_CNT_UNMIRRORED_CNT) Ev.DSP_UNMIRRORED h.1.prod (if h.1.seqChk then h.1.seq else 0) (by decide)
    obtain ⟨h1, h2, h3⟩ := ih ((d.bump Reg.DSP_CNT_UNMIRRORED_CNT).raise Ev.DSP_UNMIRRORED h.1.prod (if h.1.seqChk then h.1.seq else 0))
    have hcount : (d.bump Reg.DSP_CNT_UNMIRRORED_CNT).rd Reg.DSP_CNT_UNMIRRORED_CNT = min (d.rd Reg.DSP_CNT_UNMIRRORED_CNT + 1) (2 ^ 32 - 1) := Dev.rd_bump_count d 0 rfl rfl
    rw [hp.rd (by decide) (by decide), hcount] at h2
    refine ⟨h1.trans (congrArg Dsp.held hp.dsp), ?_, h3.trans hp.stReq⟩
    rw [List.length_cons]
    refine h2.trans ?_
    omega

theorem Dev.dspShow_shown (d : Dev) : d.dspShow.rd Reg.DSP_STATUS_PENDING = d.dsp.pend.length % 32 ∧ d.dspShow.dsp = d.dsp ∧ Dev.Within showFields d d.dspShow := by
  unfold Dev.dspShow
  refine ⟨?_, (Dev.wr_dsp _ _ _ _ _).trans (Dev.wr_dsp _ _ _ _ _), (Dev.Within.wr d _ (by decide) (by decide)).trans (Dev.Within.wr _ _ (by decide) (by decide))⟩
  exact (Dev.rd_wr_apart _ Reg.DSP_STATUS_MIRROR Reg.DSP_STATUS_PENDING _ 0 0 0 0 (by decide)).trans (Dev.rd_wr_self d Reg.DSP_STATUS_PENDING _ 0 0 (by decide))

/-- An input accepted on time is pending, mirrored by an ACTIVE device. -/
theorem Dev.dspTake_pend {d : Dev} {x : DRaw} {b : Nat} (he : d.dsp.early = []) (hc : d.dspCheck x = 0) (hh : d.dspHolds = false)
    (ha : d.dspApply (if x.sec = 0 ∧ x.ns = 0 then 0 else (ofFullTime x.ns (x.sec % 2 ^ 32) (x.sec / 2 ^ 32)).getD 0) = (b, false)) :
    (d.dspTake x).dsp.pend = d.dsp.pend ++ [{ src := dspSource x.prod, kind := x.kind, value := x.value, b := b, ord := d.dsp.ord }] := by
  rw [Dev.dspTake_eq he, if_neg (not_not.2 hc), if_neg (by simp [hh]), ha]
  dsimp only
  rw [if_neg (c := false = true) Bool.false_ne_true]
  split
  · unfold Dev.dspMirrorOut
    rw [Dev.peerSend_eq]
    exact Dev.dspAccept_pend d x b
  · exact Dev.dspAccept_pend d x b

theorem Dev.dspCheck_lt (d : Dev) (x : DRaw) : d.dspCheck x < 16 := by
  unfold Dev.dspCheck
  dsimp only
  (repeat' split) <;> omega

section
variable {s : State} {t qid : Nat} {q : Queue} {h : Item} {items : List Item} {us : List QUnit} {z : DRaw} {c : Instr}

/-- What a refused input record shows. -/
def Dev.Refuses (s d : Dev) (t : Nat) (z : DRaw) : Prop := d.rd Reg.DSP_CNT_REFUSED_CNT = min (s.rd Reg.DSP_CNT_REFUSED_CNT + 1) (2 ^ 32 - 1) ∧
  d.rd Reg.DSP_ERR_REASON = (begin_ t s).dspCheck z ∧ d.rd Reg.DSP_ERR_PRODUCER = z.prod % 2 ^ 16 ∧ d.dsp.pend = s.dsp.pend

/-- What a pending input shows. -/
def Dev.Pends (s d : Dev) (z : DRaw) (b : Nat) : Prop := d.dsp.pend = s.dsp.pend ++ [{ src := dspSource z.prod, kind := z.kind, value := z.value, b := b, ord := s.dsp.ord }] ∧
  d.rd Reg.DSP_STATUS_PENDING = (s.dsp.pend.length + 1) % 32

/-- Inputs that have been dealt with are shown. -/
theorem Dev.settle_shows (o : Dev) {e : Dev} (hst : e.stReq = []) : (settle o e.dspShow).dsp = e.dsp ∧ (settle o e.dspShow).rd Reg.DSP_STATUS_PENDING = e.dsp.pend.length % 32 ∧
    ∀ (f : Field) (i j : Nat), f.has i j = true → f.clearOf showFields = true → f.clearOf settleFields = true → (settle o e.dspShow).rd f i j = e.rd f i j := by
  obtain ⟨h1, h2, h3⟩ := e.dspShow_shown
  have hst' := h3.stReq.trans hst
  refine ⟨(settle_dsp _ _ hst').trans h2, (settle_rd_clear _ _ hst' _ _ _ (by decide) (by decide)).trans h1, fun f i j hj hc hf => ?_⟩
  rw [settle_rd_clear _ _ hst' _ _ _ hj hf, h3.rd hj hc]

theorem Dev.settle_pends (o : Dev) {e d : Dev} {b : Nat} (hst : e.stReq = []) (hp : e.dsp.pend = d.dsp.pend ++ [{ src := dspSource z.prod, kind := z.kind, value := z.value, b := b, ord := d.dsp.ord }]) :
    d.Pends (settle o e.dspShow) z b := by
  obtain ⟨h1, h2, -⟩ := Dev.settle_shows o hst
  refine ⟨by rw [h1, hp], ?_⟩
  rw [h2, hp, List.length_append]
  rfl

variable {f : Dev → Dev} {e : Dev} (hc : exec c s = s.run t f) (hp : (begin_ t s.dev).Posts e) (heq : f (begin_ t s.dev) = (e.dspTake z).dspShow) (he : s.dev.dsp.early = [])
include hc hp heq he

/-- A record that a command takes and that is refused. -/
theorem ends_refused (hz : (begin_ t s.dev).dspCheck z ≠ 0) : Ends c s fun d => s.dev.Refuses d t z := by
  refine ends_of hc ?_
  have hee : e.dsp.early = [] := (congrArg Dsp.early hp.dsp).trans he
  have hcheck : e.dspCheck z = (begin_ t s.dev).dspCheck z := Dev.dspCheck_congr hp.reel hp.dsp hp.now hp.mode z
  have hin := Dev.inputs_dspRefuse e z.prod (e.dspCheck z) z.seq
  obtain ⟨h1, h2, h3, h4⟩ := Dev.dspRefuse_shown e z.prod (e.dspCheck_lt z) z.seq
  rw [heq, Dev.dspTake_eq hee, if_pos (hcheck ▸ hz)]
  rw [hcheck] at hin h1 h2 h3 h4 ⊢
  generalize e.dspRefuse z.prod ((begin_ t s.dev).dspCheck z) z.seq = x at hin h1 h2 h3 h4
  obtain ⟨hs1, -, hs3⟩ := Dev.settle_shows s.dev (hin.within.stReq.trans hp.stReq)
  refine ⟨?_, ?_, ?_, ?_⟩
  · rw [hs3 _ _ _ (by decide) (by decide) (by decide), h1, hp.rd (by decide) (by decide)]
    rfl
  · rw [hs3 _ _ _ (by decide) (by decide) (by decide), h2]
  · rw [hs3 _ _ _ (by decide) (by decide) (by decide), h3]
  · rw [hs1, h4, hp.dsp]
    rfl

variable (hz : (begin_ t s.dev).dspCheck z = 0)
include hz

/-- A record that a command takes and that is accepted in time. -/
theorem ends_accepted {b : Nat} (hh : s.dev.dspHolds = false)
    (ha : (begin_ t s.dev).dspApply (if z.sec = 0 ∧ z.ns = 0 then 0 else (ofFullTime z.ns (z.sec % 2 ^ 32) (z.sec / 2 ^ 32)).getD 0) = (b, false)) :
    Ends c s fun d => s.dev.Pends d z b := by
  refine ends_of hc ?_
  have hee : e.dsp.early = [] := (congrArg Dsp.early hp.dsp).trans he
  have hcheck : e.dspCheck z = 0 := (Dev.dspCheck_congr hp.reel hp.dsp hp.now hp.mode z).trans hz
  have hhold : e.dspHolds = false := (Dev.dspHolds_congr (hp.rd (by decide) (by decide))).trans hh
  have happly : e.dspApply (if z.sec = 0 ∧ z.ns = 0 then 0 else (ofFullTime z.ns (z.sec % 2 ^ 32) (z.sec / 2 ^ 32)).getD 0) = (b, false) := by
    rw [← ha]
    unfold Dev.dspApply
    rw [hp.now]
  rw [heq]
  have hst := (Dev.inputs_dspTake e z).within.stReq.trans hp.stReq
  have hpend := Dev.dspTake_pend hee hcheck hhold happly
  rw [hp.dsp] at hpend
  exact Dev.settle_pends (d := s.dev) s.dev hst hpend

/-- A record that a command takes and that a STAND-IN holds. -/
theorem ends_held (hh : s.dev.dspHolds = true) : Ends c s fun d => d.dsp.held = s.dev.dsp.held ++ [(z, s.dev.ownAt t)] ∧ d.dsp.pend = s.dev.dsp.pend := by
  refine ends_of hc ?_
  have hee : e.dsp.early = [] := (congrArg Dsp.early hp.dsp).trans he
  have hcheck : e.dspCheck z = 0 := (Dev.dspCheck_congr hp.reel hp.dsp hp.now hp.mode z).trans hz
  have hhold : e.dspHolds = true := (Dev.dspHolds_congr (hp.rd (by decide) (by decide))).trans hh
  have htake : e.dspTake z = { e with dsp := { e.dsp with held := e.dsp.held ++ [(z, e.own)] } } := by
    rw [Dev.dspTake_eq hee, if_neg (not_not.2 hcheck), if_pos hhold]
  have hst := (Dev.inputs_dspTake e z).within.stReq.trans hp.stReq
  rw [heq, (Dev.settle_shows s.dev hst).1, htake]
  have hown : e.own = s.dev.ownAt t := hp.own
  have hdsp : e.dsp = s.dev.dsp := hp.dsp
  rw [hown, hdsp]
  exact ⟨rfl, rfl⟩

end

/-! ### The commands -/

section
variable {s : State} {t qid req : Nat} {q : Queue} {h : Item} {items : List Item} {us : List QUnit}

/-- The input record of a packet. -/
def recordOf (prod : Nat) (h : Item) (items : List Item) : DRaw :=
  { prod := prod, kind := itemBits h 16 8, fmt := itemBits h 24 8, items := items.map (fun i => itemBits i 0 60), err := itemErr h || itemBits h 32 28 != 0 }

/-- The input record of a CAN frame. -/
def canRecordOf (prod : Nat) (h : Item) (items : List Item) : DRaw :=
  let byte (k : Nat) : Nat := itemBits (items.getD (1 + k / 7) 0) (8 * (k % 7)) 8
  { prod := prod, kind := byte 0, fmt := 1, items := [byte 4 + byte 5 * 2 ^ 8 + byte 6 * 2 ^ 16 + byte 7 * 2 ^ 24, 0, 0, byte 1 + 2 ^ 32],
    err := itemErr h || decide (itemBits h 53 7 < 8) || byte 2 != 0 || byte 3 != 0 }

theorem dspInput_eq (hq : s.dev.qf.qs.find qid = some q) (hcons : q.qd.consumer = 0x6000) (hr : q.reading = none) (hu : q.units = .pkt h items :: us)
    (hsrc : dspSource q.qd.producer = 0 ∨ dspSource q.qd.producer = 2) :
    (begin_ t s.dev).dspInput qid = (((begin_ t s.dev).without qid q us).dspTake (recordOf q.qd.producer h items)).dspShow := by
  have hq' : (begin_ t s.dev).qf.qs.find qid = some q := hq
  unfold Dev.dspInput
  rw [hq']
  dsimp only
  rw [if_neg (by rw [hcons]; rintro (hn | hn) <;> omega), Dev.take_eq hq' hr hu]
  dsimp only
  rw [if_neg (by omega)]
  rfl

theorem dspCan_eq (hq : s.dev.qf.qs.find qid = some q) (hcons : q.qd.consumer = 0x6000) (hr : q.reading = none) (hu : q.units = .pkt h items :: us) (hsrc : dspSource q.qd.producer = 1) :
    (begin_ t s.dev).dspCan qid = (((begin_ t s.dev).without qid q us).dspTake (canRecordOf q.qd.producer h items)).dspShow := by
  have hq' : (begin_ t s.dev).qf.qs.find qid = some q := hq
  unfold Dev.dspCan
  rw [hq']
  dsimp only
  rw [if_neg (by rw [hcons, hsrc]; simp), Dev.take_eq hq' hr hu]
  rfl

theorem Dev.dspApply_now (d : Dev) : d.dspApply 0 = (boundaryAfter (d.now + 20000), false) := by
  unfold Dev.dspApply
  exact if_pos rfl

theorem Dev.dspApply_ahead (d : Dev) {a : Nat} (h0 : a ≠ 0) (h : d.now + 20000 ≤ boundaryAfter a * 125000) : d.dspApply a = (boundaryAfter a, false) := by
  unfold Dev.dspApply
  rw [if_neg h0, if_pos h]

theorem canRecordOf_now (prod : Nat) (h : Item) (items : List Item) : (canRecordOf prod h items).sec = 0 ∧ (canRecordOf prod h items).ns = 0 := ⟨rfl, rfl⟩

/-- An input that its partner mirrored is pending at the boundary that the partner chose. -/
theorem ends_dspMirror {link : Fin 4} {codeErr : Bool} {frame pay : List Byte} (hear : s.dev.Hears t link pfDspMirror codeErr frame pay) (hrun : s.dev.rd Reg.DSP_STATUS_RUNNING = 1)
    (hh : s.dev.dspHolds = true) (hfull : s.dev.dsp.pend.length < 16) {z : DRaw}
    (hz : z = { prod := le pay 0 2, kind := byteAt pay 2, fmt := byteAt pay 3, items := (List.range 4).map (fun k => le pay (12 + 8 * k) 8) })
    (hheld : s.dev.dsp.held.any (fun e => e.1 == z) = true) : Ends (.dspMirror t link codeErr frame) s fun d => d.dsp.held = s.dev.dsp.held.eraseP (fun e => e.1 == z) ∧
      s.dev.Pends d z ((cycleOf (s.dev.nowAt t) : Int) + tsDiff (cycleOf (s.dev.nowAt t) % 2 ^ 32) (le pay 4 4)).toNat := by
  refine ends_of (exec_dspMirror t link codeErr frame s) ?_
  obtain ⟨seen, hseen⟩ := Dev.peerRx_heard hear
  have hw := (begin_ t s.dev).within_heard seen link.isLt
  have hdsp : ((begin_ t s.dev).heard link seen).dsp = s.dev.dsp := rfl
  have hcyc : ((begin_ t s.dev).heard link seen).cyc = cycleOf (s.dev.nowAt t) := rfl
  have hst : ((begin_ t s.dev).heard link seen).stReq = [] := rfl
  have hrole : ((begin_ t s.dev).heard link seen).dspHolds = true := (Dev.dspHolds_congr (hw.rd (by decide) (by decide))).trans hh
  have hrun' : ((begin_ t s.dev).heard link seen).on Reg.DSP_STATUS_RUNNING = true := by
    unfold Dev.on
    rw [hw.rd (by decide) (by decide), Dev.rd_begin_, hrun]
    rfl
  unfold Dev.dspMirror
  rw [hseen]
  dsimp -zeta only
  generalize (begin_ t s.dev).heard link seen = d at hdsp hcyc hst hrole hrun'
  rw [if_neg (by rw [hrole, hrun']; decide)]
  extract_lets z' b src x missed y
  have hz' : z' = z := hz.symm
  have hb : b = ((cycleOf (s.dev.nowAt t) : Int) + tsDiff (cycleOf (s.dev.nowAt t) % 2 ^ 32) (le pay 4 4)).toNat := by
    simp only [b, hcyc]
  have hx : x.dsp = { s.dev.dsp with held := s.dev.dsp.held.eraseP (fun e => e.1 == z) } ∧ x.stReq = [] := by
    have hsrc : src = s.dev.dsp := hdsp
    simp only [x, hz', hsrc, hdsp]
    rw [if_pos hheld]
    exact ⟨rfl, hst⟩
  have hy : x.Posts y := Dev.Posts.ite _ (Dev.Posts.refl x) (Dev.Posts.raise x _ _ _ (by decide))
  rw [← hb, hz']
  obtain ⟨hxd, hxst⟩ := hx
  have hyd : y.dsp = { s.dev.dsp with held := s.dev.dsp.held.eraseP (fun e => e.1 == z) } := hy.dsp.trans hxd
  rw [if_neg (by rw [hyd]; exact Nat.not_le.2 hfull)]
  have hst' := (Dev.inputs_dspAccept y z b).within.stReq.trans (hy.stReq.trans hxst)
  have hpend := Dev.dspAccept_pend y z b
  rw [hyd] at hpend
  refine ⟨?_, Dev.settle_pends (d := s.dev) s.dev hst' hpend⟩
  rw [(Dev.settle_shows s.dev hst').1, Dev.dspAccept_held, hyd]

/-- Own inputs that stay unmirrored are discarded and counted. -/
theorem ends_dspUnmirrored : Ends (.dspUnmirrored t) s fun d => d.dsp.held = s.dev.dsp.held.filter (fun e => !decide (e.2 + 1000000 ≤ s.dev.ownAt t)) ∧
    d.rd Reg.DSP_CNT_UNMIRRORED_CNT = min (s.dev.rd Reg.DSP_CNT_UNMIRRORED_CNT + (s.dev.dsp.held.filter fun e => decide (e.2 + 1000000 ≤ s.dev.ownAt t)).length) (2 ^ 32 - 1) := by
  refine ends_of (exec_dspUnmirrored t s) ?_
  unfold Dev.dspUnmirrored
  extract_lets due gone src d
  have hgone : gone = s.dev.dsp.held.filter (fun e => decide (e.2 + 1000000 ≤ s.dev.ownAt t)) := rfl
  have hd : d.dsp.held = s.dev.dsp.held.filter (fun e => !decide (e.2 + 1000000 ≤ s.dev.ownAt t)) ∧ d.stReq = [] ∧
      d.rd Reg.DSP_CNT_UNMIRRORED_CNT = s.dev.rd Reg.DSP_CNT_UNMIRRORED_CNT := ⟨rfl, rfl, Dev.rd_congr (Dev.word_congr rfl _)⟩
  rw [← hgone]
  clear_value gone d
  obtain ⟨hd1, hd2, hd3⟩ := hd
  obtain ⟨h1, h2, h3⟩ := Dev.unmirrored_shown gone d
  refine ⟨?_, ?_⟩
  · rw [settle_dsp _ _ (h3.trans hd2), h1, hd1]
  · rw [settle_rd_clear _ _ (h3.trans hd2) _ _ _ (by decide) (by decide), h2, hd3]

theorem fieldsAt_dspCtrl : plainOffset 0x80004 = true ∧ fieldsAt 0x80004 = [Reg.DSP_CTRL_SRC, Reg.DSP_CTRL_WDOG] := by decide

theorem ends_dspSrcWrite {v : Word} (hok : s.dev.Takes req) : Ends (.dspSrcWrite t req v) s fun d =>
    d.rd Reg.DSP_CTRL_SRC = v.toNat % 4 ∧ d.rd Reg.DSP_CTRL_WDOG = v.toNat / 2 ^ 16 ∧ d.out = [.status req 0] ∧ s.dev.OnlyWrites d [0x80004] := by
  obtain ⟨hplain, hfields⟩ := fieldsAt_dspCtrl
  refine ends_hostWrite (exec_dspSrcWrite t req v s) hok hplain ?_
  have hafter : ∀ e : Dev, e.afterWrite req 0x80004 v.toNat = e := fun e => by
    unfold Dev.afterWrite Dev.boardWrite
    simp
  rw [hafter]
  have hst : ((begin_ t s.dev).storeWord true 0x80004 v.toNat).stReq = [] := Dev.storeWord_stReq _ _ _ _
  have hout : ((begin_ t s.dev).storeWord true 0x80004 v.toNat).out = [] := Dev.storeWord_out _ _ _ _
  have htouch := Dev.touches_storeWord (begin_ t s.dev) (off := 0x80004) v.toNat (by decide)
  have hsrc : ((begin_ t s.dev).storeWord true 0x80004 v.toNat).rd Reg.DSP_CTRL_SRC = bitsOf v.toNat 0 2 :=
    Dev.rd_storeWord_rw _ _ (by decide) Reg.DSP_CTRL_SRC 0 0 (pre := []) (post := [Reg.DSP_CTRL_WDOG]) hfields rfl rfl (by decide) (by decide)
  have hwdog : ((begin_ t s.dev).storeWord true 0x80004 v.toNat).rd Reg.DSP_CTRL_WDOG = bitsOf v.toNat 16 16 :=
    Dev.rd_storeWord_rw _ _ (by decide) Reg.DSP_CTRL_WDOG 0 0 (pre := [Reg.DSP_CTRL_SRC]) (post := []) hfields rfl rfl (by decide) rfl
  generalize (begin_ t s.dev).storeWord true 0x80004 v.toNat = e at hst hout htouch hsrc hwdog
  have hv := v.isLt
  refine ⟨?_, ?_, ?_, Dev.Touches.settle (e := e.emit (.status req 0)) (htouch.trans (Dev.Touches.of_regs (Dev.emit_regs _ _))) hst⟩
  · rw [Dev.rd_settle_emit _ _ _ hst (by decide) (by decide), hsrc]
    unfold bitsOf
    omega
  · rw [Dev.rd_settle_emit _ _ _ hst (by decide) (by decide), hwdog]
    unfold bitsOf
    omega
  · rw [settle_emit_out _ _ _ hst, hout]
    rfl

end

/-- Settles O22, a lemma for each command and for what becomes of a record that is taken. -/
theorem dispatchTakesInputs : Obligations.DispatchTakesInputs := by
  unfold Obligations.DispatchTakesInputs
  intro s t req qid q h items us v link codeErr frame pay x byte y refused pending
  refine ⟨fun hq hcons hr hu he => ⟨fun hsrc => ?_, fun hsrc => ?_⟩, fun hear hrun hh hfull hheld => ends_dspMirror hear hrun hh hfull rfl hheld, ends_dspUnmirrored, ends_dspSrcWrite⟩
  · have heq := dspInput_eq (t := t) hq hcons hr hu hsrc
    have hp := Dev.posts_without (begin_ t s.dev) qid q us
    refine ⟨ends_refused (exec_dspInputRecord t qid s) hp heq he, fun hz hh h0 h1 => ends_accepted (exec_dspInputRecord t qid s) hp heq he hz hh ?_,
      fun hz hh a ha0 ha hahead => ends_accepted (exec_dspInputRecord t qid s) hp heq he hz hh ?_, ends_held (exec_dspInputRecord t qid s) hp heq he⟩
    · exact (congrArg _ (if_pos ⟨h0, h1⟩)).trans (Dev.dspApply_now _)
    · have hno : ¬ (x.sec = 0 ∧ x.ns = 0) := by
        rintro ⟨h0, h1⟩
        rw [h0, h1] at ha
        exact ha0 (Option.some.inj ha).symm
      refine (congrArg _ ((if_neg hno).trans (congrArg (Option.getD · 0) ha))).trans (Dev.dspApply_ahead _ ha0 hahead)
  · have heq := dspCan_eq (t := t) hq hcons hr hu hsrc
    have hp := Dev.posts_without (begin_ t s.dev) qid q us
    refine ⟨ends_refused (exec_dspCanInput t qid s) hp heq he, fun hz hh => ends_accepted (exec_dspCanInput t qid s) hp heq he hz hh ?_⟩
    exact (congrArg _ (if_pos (canRecordOf_now _ _ _))).trans (Dev.dspApply_now _)

end Sys2Proof.Machine
end

section
/-!
PROOFS. Proofs/LoopEvents.lean: a bad item of a loop's signal queue where that queue takes events (R74, R265).
-/
namespace Sys2Proof.Machine

/-- The signal queue of context 0 with one item whose ERR bit is set. -/
def badSignalQueue : Queue :=
  { qd := { depth := 4, policy := .overwrite, cls := 3, producer := 1, consumer := 0x5000, wmHigh := 0, carry := 0, prot := false, openRead := false }, units := [.one (1#64 <<< 60)] }

/-- A device in RUN whose context 0 reads the queue numbered 0, to which the structure, naming no other, sends every event. -/
def signalToEvents : State := tSt { tDev .run [] with qf := { State.reset.dev.qf with qs := [(0, badSignalQueue)] } }

/-- The event of the bad item stands in the queue from which the item was taken. -/
theorem signalToEvents_units : (((settle signalToEvents.dev ((begin_ 0 signalToEvents.dev).lpeInput (0 : Fin 512) 0)).qf.qs.find 0).map fun q => q.units.isEmpty) = some false := by
  decide +kernel

theorem signalToEvents_kind : signalToEvents.dev.lpeKind 0 = .signal := by
  decide +kernel

/-- Refutes O21: a bad item counts with an event; where events go to the queue that the context reads, it does not hold just the units that followed. -/
theorem not_loopsReadHoldAndFallBack : ¬ Obligations.LoopsReadHoldAndFallBack := by
  intro h
  obtain ⟨hread, -⟩ := h signalToEvents 0 0 0 0 badSignalQueue (1#64 <<< 60) []
  obtain ⟨hbad, -⟩ := hread rfl rfl rfl rfl signalToEvents_kind
  obtain ⟨⟨q, hfind, hunits, -⟩, -⟩ := Ends.holds (hbad rfl) (exec_lpeInputItem 0 0 0 signalToEvents)
  have hev := signalToEvents_units
  rw [hfind] at hev
  simp only [Option.map_some, hunits] at hev
  exact absurd hev (by decide)

end Sys2Proof.Machine
end

section
/-!
PROOFS. Proofs/PermitRefusal.lean: the refusal of a P entry's write, and the event counters that lie above the P entries (R74, R214, R316).
-/
namespace Sys2Proof.Machine

/-- An event queue with room for one unit, which it holds, and which drops what comes then. -/
def fullEventQueue : Queue :=
  { qd := { depth := 1, policy := .dropNew, cls := 3, producer := 1, consumer := 2, wmHigh := 0, carry := 0, prot := false, openRead := false }, units := [.one 0#64] }

/-- A device in QUIET whose events go to a full queue that has dropped 255 units. -/
def permitRefused : State :=
  tSt { (tDev .quiet []).tPut [(Reg.QF_CNT_DROP_CNT, 0, 0, 255)] with qf := { State.reset.dev.qf with qs := [(0, fullEventQueue)] } }

/-- The counter of dropped units as the word of a P entry far beyond the table of ring 0. -/
theorem pEntry_addr_drop : Reg.TRW_P_ENTRY_P_CODE.addr (0 : Fin 64) 0x6E2008 = Reg.QF_CNT_DROP_CNT.addr 0 0 := by decide

theorem permitRefused_takes : permitRefused.dev.Takes 2 := by
  constructor <;> decide +kernel

/-- The refusal's event is dropped and counted: bits 8 to 15 of the counter's word change. -/
theorem permitRefused_code : (settle permitRefused.dev ((begin_ 0 permitRefused.dev).hostWrite 2 (0x78000 + 0x80 * (0 : Fin 64) + 0x10 * (0 : Fin 8) + 4 * (0 : Fin 4)) 1#32)).rd
      Reg.TRW_P_ENTRY_P_CODE (0 : Fin 64) 0x6E2008 ≠ permitRefused.dev.rd Reg.TRW_P_ENTRY_P_CODE (0 : Fin 64) 0x6E2008 := by
  decide +kernel

/-- Refutes O25: no bound stands on the index of the P entries that a refused write is to leave; past the table they are other words, the count of dropped events among them. -/
theorem not_tripwireIsResetConfiguredAndTested : ¬ Obligations.TripwireIsResetConfiguredAndTested := by
  intro h
  obtain ⟨-, -, hentry, -⟩ := h permitRefused 0 2 0 0 0 0 0 0 0 1#32
  obtain ⟨hrefused, -⟩ := (hentry permitRefused_takes).2 (by decide)
  exact permitRefused_code (Ends.holds hrefused (exec_pPermitWrite 0 2 0 0 0 1#32 permitRefused) 0x6E2008)

end Sys2Proof.Machine
end

section
/-!
PROOFS. Proofs/Moves.lean: the end of a command that changes the device state to another than HALT (R26): it leaves a record, and the rest as the command made it.
-/
namespace Sys2Proof.Machine

theorem pickState_one {a m : DevState} (cause : Nat) (h : a.edge m = true) : pickState a [(m, cause)] = some (m, cause) := by
  unfold pickState
  rw [List.filter_cons_of_pos (by exact h)]
  rfl

theorem Dev.Posts.writes {d e : Dev} (h : d.Posts e) (l : List Field) : Dev.Writes l d e := fun _ _ _ hj hf => Dev.rd_congr (h.words _ (Field.clearOf_events hf hj))

theorem Dev.posts_bbPut {d e : Dev} {k : Nat} {ev : Item × Item} {ctx : List Word} (h : d.bbPut k ev ctx = some e) : d.Posts e := by
  unfold Dev.bbPut at h
  split at h
  case isTrue => exact nomatch h
  case isFalse => cases h; exact ⟨rfl, fun _ _ => rfl⟩

theorem Dev.posts_evCount (d : Dev) (f : Field) (n i j : Nat) (h : f.addr i j ∈ evWords) : d.Posts (d.bump f n i j) :=
  ⟨rfl, (Dev.evKeeps_bump d f n i j h).2⟩

theorem Dev.posts_noteState (d : Dev) (old new cause : Nat) : d.Posts (d.noteState old new cause) := by
  unfold Dev.noteState
  extract_lets seq data ev lost pst noted
  have hn : d.Posts noted := by
    simp only [noted]
    split
    case h_1 e he => exact Dev.posts_bbPut he
    case h_2 => exact (Dev.posts_evCount d Reg.PST_BB_DROPPED_CNT 1 0 0 (by simp [evWords])).trans ⟨rfl, fun _ _ => rfl⟩
  exact hn.trans (Dev.Posts.raise _ _ _ _ (by decide))

/-- The device in a state, with no further change asked for. -/
def Dev.inState (d : Dev) (m : DevState) : Dev := { d with mode := m, stReq := [] }

theorem Dev.inState_self {d : Dev} {m : DevState} (hm : d.mode = m) (hs : d.stReq = []) : { d with mode := m, stReq := [] } = d := by
  cases hm
  rw [← hs]

/-- A state other than HALT is entered with its record alone. -/
theorem Dev.posts_enterState (o d : Dev) {m : DevState} (cause : Nat) (hm : m ≠ .halt) : ((d.inState m).wr Reg.GLB_STATUS_STATE m.stateCode).Posts (o.enterState d m cause) := by
  unfold Dev.enterState Dev.inState
  extract_lets asked noted halted
  have hn : asked.Posts noted := Dev.Posts.ite _ (Dev.posts_noteState _ _ _ _) (Dev.Posts.refl _)
  have hh : halted = noted := if_neg (by simpa using hm)
  have hmode : noted.mode = m := hn.mode.trans (Dev.wr_mode _ _ _ _ _)
  have hst : noted.stReq = [] := hn.stReq.trans (Dev.wr_stReq _ _ _ _ _)
  rw [hh, Dev.inState_self hmode hst]
  exact hn

/-- What a change of state, other than to HALT, leaves as the command made it. -/
structure Dev.MovedTo (o d : Dev) (m : DevState) (u : Dev) : Prop where
  mode : u.mode = m
  reel : u.reel = d.reel
  img : u.img = { d.img with otp := o.img.otp.merge d.img.otp }
  supply : u.supply = d.supply
  mainEnN : u.pins.mainEnN = d.pins.mainEnN
  rd : ∀ (f : Field) (i j : Nat), f.has i j = true → f.clearOf settleFields = true → u.rd f i j = d.rd f i j

theorem Dev.touchTag_fields (m : DevState) (d : Dev) : (d.touchTag m).reel = d.reel ∧ (d.touchTag m).img = d.img ∧ (d.touchTag m).supply = d.supply ∧ (d.touchTag m).pins = d.pins ∧
    (d.touchTag m).regs = d.regs := by
  unfold Dev.touchTag
  split <;> exact ⟨rfl, rfl, rfl, rfl, rfl⟩

theorem Dev.applyState_of {o d : Dev} {m : DevState} {c : Nat} (h : pickState o.mode d.stReq = some (m, c)) : o.applyState d = o.enterState d m c := by
  unfold Dev.applyState
  rw [h]

theorem settle_moved {o d : Dev} {m : DevState} {c : Nat} (h : pickState o.mode d.stReq = some (m, c)) (hm : m ≠ .halt) : Dev.MovedTo o d m (settle o d) := by
  have hmode : (settle o d).mode = m := by rw [settle_mode, h]; rfl
  rw [settle_ended] at hmode ⊢
  have hp := Dev.posts_enterState o (o.keepFuses d) c hm
  have ha : o.applyState (o.keepFuses d) = o.enterState (o.keepFuses d) m c := Dev.applyState_of h
  unfold Dev.ended at hmode ⊢
  rw [ha] at hmode ⊢
  generalize o.enterState (o.keepFuses d) m c = e at hp hmode ⊢
  obtain ⟨hreel, himg, hsupply, hpins, hregs⟩ := Dev.touchTag_fields o.mode e
  refine ⟨hmode, ?_, ?_, ?_, ?_, fun f i j hj hf => ?_⟩
  · rw [Dev.drivePins_reel, Dev.wr_reel, Dev.scanSafe_reel, hreel, hp.reel, Dev.wr_reel]
    rfl
  · rw [Dev.drivePins_img, Dev.wr_img, Dev.scanSafe_img, himg, hp.img, Dev.wr_img]
    rfl
  · rw [Dev.drivePins_supply, Dev.wr_supply, Dev.scanSafe_supply, hsupply, hp.supply, Dev.wr_supply]
    rfl
  · rw [Dev.drivePins_pins, Dev.wr_pins, Dev.scanSafe_pins, hpins, hp.pins, Dev.wr_pins]
    rfl
  · have hw : Dev.Writes settleFields d (((e.touchTag o.mode).scanSafe.wr Reg.GLB_STATUS_STATE ((e.touchTag o.mode).scanSafe).mode.stateCode).drivePins) := by
      have h1 : Dev.Writes settleFields d (((o.keepFuses d).inState m).wr Reg.GLB_STATUS_STATE m.stateCode) := by
        have h0 : Dev.Writes settleFields d ((o.keepFuses d).inState m) := Dev.Writes.of_regs rfl
        exact h0.trans (Dev.Writes.wr _ _ rfl (by simp [settleFields]))
      have h2 : Dev.Writes settleFields (((o.keepFuses d).inState m).wr Reg.GLB_STATUS_STATE m.stateCode) e := hp.writes _
      have h3 : Dev.Writes settleFields e (e.touchTag o.mode).scanSafe := fun _ _ _ _ _ => Dev.rd_congr ((Dev.word_scanSafe _ _).trans (Dev.word_congr hregs _))
      exact (((h1.trans h2).trans h3).trans (Dev.Writes.wr _ _ rfl (by simp [settleFields]))).trans (Dev.writes_drivePins _)
    exact hw f i j hj hf

end Sys2Proof.Machine
end

section
/-!
PROOFS. Proofs/Supplies.lean: the supplies and RESET_N (R4, R26, R27, R55, R471): what a power-on shows, and the states the supplies lead to.
-/
namespace Sys2Proof.Machine

/-- What the image registers show afresh. -/
def imgShown : List Field :=
  [Reg.IMG_SLOT_INFO_STATE, Reg.IMG_SLOT_INFO_TRIAL, Reg.IMG_SLOT_INFO_TRIAL_LEFT, Reg.IMG_SLOT_INFO_SEC_VER, Reg.IMG_SLOT_INFO_KEY_SLOT, Reg.IMG_SLOT_ID_LO_IMAGE_ID,
    Reg.IMG_SLOT_ID_HI_IMAGE_ID, Reg.IMG_SLOT_CLASS_CONT_CLASS, Reg.IMG_STATUS_RUN_SLOT, Reg.IMG_STATUS_PREF_SLOT, Reg.IMG_STATUS_RX_OPEN, Reg.IMG_STATUS_SLOT_BUSY,
    Reg.IMG_STATUS_ACT_BUSY, Reg.IMG_KEY_STATUS_PROG, Reg.IMG_KEY_STATUS_REVOKED, Reg.IMG_KEY_STATUS_DAMAGED, Reg.IMG_KEY_STATUS_ROLLBACK, Reg.IMG_KEY_NONCE_LO_NONCE,
    Reg.IMG_KEY_NONCE_HI_NONCE]

theorem Dev.within_slotShow (d : Dev) {k : Nat} (h : k < 2) : Dev.Within imgShown d (d.slotShow k) := by
  have w : ∀ (f : Field) (x : Dev) (v : Nat), f.n1 = 2 → f.n2 = 1 → f ∈ imgShown → Dev.Within imgShown x (x.wr f v k) := fun f x v h1 h2 hf =>
    Dev.Within.wr x v (Field.has_of (by omega) (by omega)) hf
  unfold Dev.slotShow
  extract_lets sl hd d1 d2
  refine Dev.Within.trans (Dev.Within.trans (Dev.Within.trans ?_ (w _ _ _ rfl rfl (by simp [imgShown]))) (w _ _ _ rfl rfl (by simp [imgShown]))) (w _ _ _ rfl rfl (by simp [imgShown]))
  refine Dev.Within.trans (Dev.Within.trans ?_ (w _ _ _ rfl rfl (by simp [imgShown]))) (w _ _ _ rfl rfl (by simp [imgShown]))
  exact ((w _ _ _ rfl rfl (by simp [imgShown])).trans (w _ _ _ rfl rfl (by simp [imgShown]))).trans (w _ _ _ rfl rfl (by simp [imgShown]))

theorem Dev.within_imgShow (d : Dev) : Dev.Within imgShown d d.imgShow := by
  have w : ∀ (f : Field) (x : Dev) (v : Nat), f.has 0 0 = true → f ∈ imgShown → Dev.Within imgShown x (x.wr f v) := fun f x v h hf => Dev.Within.wr x v h hf
  unfold Dev.imgShow Dev.wr2
  extract_lets d1 d2 d3 d4 ks d5 d6
  have h1 : Dev.Within imgShown d d1 := (d.within_slotShow (by decide)).trans (Dev.within_slotShow _ (by decide))
  have h2 : Dev.Within imgShown d1 d2 := (w _ _ _ rfl (by simp [imgShown])).trans (w _ _ _ rfl (by simp [imgShown]))
  have h3 : Dev.Within imgShown d2 d3 := (w _ _ _ rfl (by simp [imgShown])).trans (w _ _ _ rfl (by simp [imgShown]))
  have h4 : Dev.Within imgShown d3 d4 := w _ _ _ rfl (by simp [imgShown])
  have h5 : Dev.Within imgShown d4 d5 := ((w _ _ _ rfl (by simp [imgShown])).trans (w _ _ _ rfl (by simp [imgShown]))).trans (w _ _ _ rfl (by simp [imgShown]))
  have h6 : Dev.Within imgShown d5 d6 := w _ _ _ rfl (by simp [imgShown])
  exact (((((h1.trans h2).trans h3).trans h4).trans h5).trans h6).trans ((w _ _ _ rfl (by simp [imgShown])).trans (w _ _ _ rfl (by simp [imgShown])))

theorem Dev.within_showKeys (d : Dev) : Dev.Within [Reg.GLB_KEY_MAP_LO_ENROLLED, Reg.GLB_KEY_MAP_HI_ENROLLED] d d.showKeys :=
  (Dev.Within.wr d _ rfl (by simp)).trans (Dev.Within.wr _ _ rfl (by simp))

/-- What the transfer of the watch log writes. -/
def logFields : List Field := [Reg.PST_BB_DROPPED_CNT, Reg.WCH_LOG_COUNT]

theorem Dev.within_pst (l : List Field) (d : Dev) (x : Pst) : Dev.Within l d { d with pst := x } := Dev.Within.of_same (by simp [Dev.Spares]) rfl

theorem Dev.within_wch (l : List Field) (d : Dev) (x : Wch) : Dev.Within l d { d with wch := x } := Dev.Within.of_same (by simp [Dev.Spares]) rfl

theorem Dev.within_logTransfer (d : Dev) : Dev.Within logFields d d.logTransfer := by
  unfold Dev.logTransfer Dev.setTag Dev.setWch
  refine Dev.Within.trans (Dev.Within.trans (Dev.Within.foldl _ (fun x r _ => ?_) d) (Dev.within_wch _ _ _)) (Dev.Within.wr _ _ rfl (by simp [logFields]))
  beta_reduce
  split
  case isTrue => exact Dev.Within.refl _ _
  case isFalse =>
    extract_lets code_ sev data g ent p y
    have hy : Dev.Within logFields x y := Dev.Within.ite _ (Dev.within_pst _ x _) (Dev.Within.refl _ _)
    have hb : Dev.Within logFields y (y.bump Reg.PST_BB_DROPPED_CNT) := Dev.Within.bump y 1 rfl (by simp [logFields])
    exact hy.trans (Dev.Within.ite _ (Dev.within_pst _ y _) (hb.trans (Dev.within_pst _ _ _)))

theorem Dev.Within.img {l : List Field} {d e : Dev} (h : Dev.Within l d e) : e.img = d.img := h.spares.img

theorem Dev.Within.supply {l : List Field} {d e : Dev} (h : Dev.Within l d e) : e.supply = d.supply := h.spares.2.2.2.2.2.2.1

theorem Dev.Within.pins {l : List Field} {d e : Dev} (h : Dev.Within l d e) : e.pins = d.pins := h.spares.2.2.2.2.2.2.2.2

end Sys2Proof.Machine
end

section
/-!
PROOFS. Proofs/States.lean: the states that the supplies and RESET_N lead to (R4, R26, R27, R471).
-/
namespace Sys2Proof.Machine

/-! ### What the main dies lose and find -/

theorem Dev.mainOff_kept (d : Dev) : d.mainOff.stReq = d.stReq ∧ d.mainOff.mode = d.mode ∧ d.mainOff.reel = none ∧ d.mainOff.supply = d.supply ∧ d.mainOff.pins = d.pins := by
  unfold Dev.mainOff
  cases d.img.commit <;> exact ⟨rfl, rfl, rfl, rfl, rfl⟩

theorem Dev.mainOff_slots (d : Dev) : d.mainOff.img.slots = d.img.slots ∧ d.mainOff.img.pref = d.img.pref := by
  unfold Dev.mainOff
  cases d.img.commit <;> exact ⟨rfl, rfl⟩

/-- What a power-on writes beside the straps. -/
def bootFields : List Field :=
  [Reg.IMG_STATUS_BOOT_MODE, Reg.GLB_UID_LO_UID, Reg.GLB_UID_HI_UID, Reg.SIN_STATUS_DEV_P, Reg.PST_STATUS_LEARN_RO, Reg.GLB_KEY_MAP_LO_ENROLLED, Reg.GLB_KEY_MAP_HI_ENROLLED] ++
    (imgShown ++ logFields)

/-- The device as the straps find it: the main dies out of reset, device time taken from the RTC. -/
def Dev.strapped (d : Dev) (b : BootIn) : Dev :=
  (((({ d.mainOff with
      supply := { d.mainOff.supply with rails := true, dbgEn := b.dbgEn }, now := if d.mainOff.on Reg.WCH_STATUS_RTC_VALID then d.mainOff.rtcNow else 0 }).wr
      Reg.GLB_STATUS_DEV_ADDR b.devAddr.val).wr Reg.GLB_STATUS_BOOT_MODE b.bootMode.val).wr Reg.GLB_STATUS_DBG_EN (b2n b.dbgEn))

theorem Dev.strapped_kept (d : Dev) (b : BootIn) : (d.strapped b).stReq = d.stReq ∧ (d.strapped b).reel = none ∧ (d.strapped b).img = d.mainOff.img := by
  unfold Dev.strapped
  obtain ⟨hst, -, hreel, -, -⟩ := d.mainOff_kept
  refine ⟨?_, ?_, ?_⟩
  · rw [Dev.wr_stReq, Dev.wr_stReq, Dev.wr_stReq]
    exact hst
  · rw [Dev.wr_reel, Dev.wr_reel, Dev.wr_reel]
    exact hreel
  · rw [Dev.wr_img, Dev.wr_img, Dev.wr_img]

/-- What NVM and OTP hold, shown at power-on. -/
def Dev.nvmShown (d : Dev) (b : BootIn) : Dev :=
  let d4 := (d.wr Reg.IMG_STATUS_BOOT_MODE b.bootMode.val).wr2 Reg.GLB_UID_LO_UID Reg.GLB_UID_HI_UID d.img.otp.uid
  let d5 := d4.wr Reg.SIN_STATUS_DEV_P (b2n (b.devAddr.val % 2 == 0))
  let ro := d5.pst.learnRo && !b.freed
  let d6 := { d5.wr Reg.PST_STATUS_LEARN_RO (b2n ro) with pst := { d5.pst with learnRo := ro } }
  d6.showKeys.imgShow

/-- The watch log taken over at power-on, and the clock that lost its time reported (R477). -/
def Dev.logTaken (d : Dev) : Dev :=
  let d := d.logTransfer
  if d.wch.rtcLost then { d with wch := { d.wch with rtcLost := false } }.raise Ev.WCH_RTC_INVALID 0 0 else d

theorem Dev.powerUp_eq (d : Dev) (b : BootIn) : d.mainOn_ b = (Dev.logTaken { (d.strapped b).nvmShown b with mode := .boot }).go .boot 0 := rfl

theorem Dev.within_nvmShown (d : Dev) (b : BootIn) : Dev.Within bootFields d (d.nvmShown b) := by
  have w : ∀ (f : Field) (x : Dev) (v : Nat), f.has 0 0 = true → f ∈ bootFields → Dev.Within bootFields x (x.wr f v) := fun f x v h hf => Dev.Within.wr x v h hf
  unfold Dev.nvmShown
  extract_lets d4 d5 ro shown pst d6
  have h4 : Dev.Within bootFields d d4 :=
    (w Reg.IMG_STATUS_BOOT_MODE d _ rfl (by simp [bootFields])).trans
      ((w Reg.GLB_UID_LO_UID _ _ rfl (by simp [bootFields])).trans (w Reg.GLB_UID_HI_UID _ _ rfl (by simp [bootFields])))
  have h5 : Dev.Within bootFields d4 d5 := w _ _ _ rfl (by simp [bootFields])
  have h6 : Dev.Within bootFields d5 d6 := (w Reg.PST_STATUS_LEARN_RO d5 _ rfl (by simp [bootFields])).trans (Dev.within_pst _ _ _)
  have h7 : Dev.Within bootFields d6 d6.showKeys.imgShow :=
    (d6.within_showKeys.mono (by simp [bootFields])).trans ((Dev.within_imgShow _).mono (fun f hf => List.mem_append_right _ (List.mem_append_left _ hf)))
  exact ((h4.trans h5).trans h6).trans h7

theorem Dev.within_logTaken (d : Dev) : Dev.Within bootFields d d.logTaken := by
  unfold Dev.logTaken
  extract_lets d8
  have h8 : Dev.Within bootFields d d8 := (Dev.within_logTransfer d).mono (fun f hf => List.mem_append_right _ (List.mem_append_right _ hf))
  exact h8.trans (Dev.Within.ite _ ((Dev.within_wch _ d8 _).trans (Dev.Within.raise _ _ _ _ _ (by decide))) (Dev.Within.refl _ _))

/-- The state BOOT is asked for last; before, the registers that a power-on shows are written. -/
theorem Dev.powerUp_asks (d : Dev) (b : BootIn) : ∃ e, d.mainOn_ b = e.go .boot 0 ∧ e.stReq = d.stReq ∧ e.reel = none ∧ e.img = d.mainOff.img ∧
    Dev.Writes bootFields (d.strapped b) e := by
  obtain ⟨sst, sreel, simg⟩ := d.strapped_kept b
  rw [Dev.powerUp_eq]
  generalize d.strapped b = x at sst sreel simg ⊢
  have hb := x.within_nvmShown b
  generalize x.nvmShown b = y at hb ⊢
  have ha := Dev.within_logTaken { y with mode := .boot }
  refine ⟨_, rfl, ?_, ?_, ?_, ?_⟩
  · exact ha.stReq.trans (hb.stReq.trans sst)
  · exact ha.reel.trans (hb.reel.trans sreel)
  · exact ha.img.trans (hb.img.trans simg)
  · exact (hb.writes.trans (Dev.Writes.of_regs rfl)).trans ha.writes

theorem Dev.strapped_shown (d : Dev) (b : BootIn) : (d.strapped b).rd Reg.GLB_STATUS_DEV_ADDR = b.devAddr ∧ (d.strapped b).rd Reg.GLB_STATUS_BOOT_MODE = b.bootMode ∧
    (d.strapped b).rd Reg.GLB_STATUS_DBG_EN = b2n b.dbgEn := by
  unfold Dev.strapped
  generalize ({ d.mainOff with
      supply := { d.mainOff.supply with rails := true, dbgEn := b.dbgEn }, now := if d.mainOff.on Reg.WCH_STATUS_RTC_VALID then d.mainOff.rtcNow else 0 } : Dev) = x
  refine ⟨?_, ?_, ?_⟩
  · rw [Dev.rd_wr_free _ _ rfl rfl (by decide), Dev.rd_wr_free _ _ rfl rfl (by decide), Dev.rd_wr_self _ _ _ _ _ (by decide)]
    exact Nat.mod_eq_of_lt b.devAddr.isLt
  · rw [Dev.rd_wr_free _ _ rfl rfl (by decide), Dev.rd_wr_self _ _ _ _ _ (by decide)]
    exact Nat.mod_eq_of_lt b.bootMode.isLt
  · rw [Dev.rd_wr_self _ _ _ _ _ (by decide)]
    cases b.dbgEn <;> rfl

/-- The device booted on the straps given, as its slots were. -/
def Dev.Booted (o : Dev) (b : BootIn) (d : Dev) : Prop :=
  d.mode = .boot ∧ d.reel = none ∧ d.rd Reg.GLB_STATUS_DEV_ADDR = b.devAddr ∧ d.rd Reg.GLB_STATUS_BOOT_MODE = b.bootMode ∧
    d.rd Reg.GLB_STATUS_DBG_EN = b2n b.dbgEn ∧ d.img.slots = o.img.slots ∧ d.img.pref = o.img.pref

theorem settle_powerUp (o d : Dev) (b : BootIn) (ho : o.mode.edge .boot = true) (hd : d.stReq = []) (hi : d.img = o.img) : o.Booted b (settle o (d.mainOn_ b)) := by
  obtain ⟨e, he, hst, hreel, himg, hw⟩ := d.powerUp_asks b
  have hp : pickState o.mode (d.mainOn_ b).stReq = some (.boot, 0) := by
    rw [he]
    unfold Dev.go
    rw [hst, hd]
    exact pickState_one 0 ho
  have hm := settle_moved hp (by decide)
  obtain ⟨ha, hbm, hdb⟩ := d.strapped_shown b
  have hrd : ∀ f : Field, f.has 0 0 = true → f.clearOf settleFields = true → f.clearOf bootFields = true → (settle o (d.mainOn_ b)).rd f = (d.strapped b).rd f := by
    intro f h0 h1 h2
    rw [hm.rd f 0 0 h0 h1, he]
    exact hw f 0 0 h0 h2
  refine ⟨hm.mode, ?_, ?_, ?_, ?_, ?_, ?_⟩
  · rw [hm.reel, he]
    exact hreel
  · exact (hrd _ rfl (by decide) (by decide)).trans ha
  · exact (hrd _ rfl (by decide) (by decide)).trans hbm
  · exact (hrd _ rfl (by decide) (by decide)).trans hdb
  · rw [hm.img, he]
    exact (congrArg Img.slots himg).trans (d.mainOff_slots.1.trans (by rw [hi]))
  · rw [hm.img, he]
    exact (congrArg Img.pref himg).trans (d.mainOff_slots.2.trans (by rw [hi]))

section
variable {s : State} {t : Nat} {b : BootIn}

/-! ### The supplies -/

/-- A command that asks for one state other than HALT, which Table 1.3 allows, ends in it. -/
theorem ends_moved {c : Instr} {f : Dev → Dev} {p : Dev → Prop} {m : DevState} {cause : Nat} (hc : exec c s = s.run t f) (hst : (f (begin_ t s.dev)).stReq = [(m, cause)])
    (he : s.dev.mode.edge m = true) (hm : m ≠ .halt) (h : ∀ u, Dev.MovedTo s.dev (f (begin_ t s.dev)) m u → u.Settled → p u) : Ends c s p :=
  ends_of hc (h _ (settle_moved (by rw [hst]; exact pickState_one cause he) hm) (settle_settled _ _))

theorem ends_vbatApplied_off (hm : s.dev.mode = .off) (hv : s.dev.supply.vaux = false) : Ends (.vbatApplied t) s fun d => d.mode = .standby ∧ d.supply.vbat = true := by
  have hc : ((begin_ t s.dev).vbatOn) = ({ begin_ t s.dev with supply := { (begin_ t s.dev).supply with vbat := true } } : Dev).rtcRestart.go .standby 0 := by
    have h1 : (s.dev.mode == .off && !s.dev.supply.vaux) = true := by
      rw [hm, hv]
      rfl
    unfold Dev.vbatOn
    exact if_pos h1
  refine ends_moved (t := t) (f := Dev.vbatOn) (m := .standby) (cause := 0) rfl (by rw [hc]; rfl) (by rw [hm]; rfl) (by decide) fun u hu _ => ⟨hu.mode, ?_⟩
  rw [hu.supply, hc]
  rfl

theorem ends_vbatRemoved_standby (hm : s.dev.mode = .standby) : Ends (.vbatRemoved t) s fun d => d.mode = .off ∧ d.supply.vbat = false ∧ d.pins.mainEnN = true := by
  have hc : ((begin_ t s.dev).vbatOff) = ({ begin_ t s.dev with supply := { (begin_ t s.dev).supply with vbat := false } } : Dev).retentionLost.go .off 0 := by
    have h1 : (s.dev.mode == .standby) = true := by
      rw [hm]
      rfl
    unfold Dev.vbatOff
    exact if_pos h1
  refine ends_moved (t := t) (f := Dev.vbatOff) (m := .off) (cause := 0) rfl (by rw [hc]; rfl) (by rw [hm]; rfl) (by decide) fun u hu _ => ⟨hu.mode, ?_, ?_⟩
  · rw [hu.supply, hc]
    rfl
  · rw [hu.mainEnN, hc]
    rfl

theorem Dev.wake_stReq_supply (d : Dev) (bit : Nat) : (d.wake bit).stReq = d.stReq ∧ (d.wake bit).supply = d.supply := by
  unfold Dev.wake
  constructor <;> simp only [Dev.set1, Dev.wr_stReq, Dev.wr_supply, Dev.setWord]

theorem ends_vauxApplied (hm : s.dev.mode = .off ∨ s.dev.mode = .standby) (hv : s.dev.supply.vaux = false) (hr : s.dev.supply.rails = false) :
    Ends (.vauxApplied t b) s fun d => d.mode = .watch ∧ d.supply.vaux = true := by
  have hc : ∃ e : Dev, (begin_ t s.dev).vauxOn b = e.go .watch 0 ∧ e.stReq = [] ∧ e.supply.vaux = true := by
    unfold Dev.vauxOn
    extract_lets was sup d0 standby d1 d2 d3
    have k0 : d0.stReq = [] ∧ d0.supply.vaux = true ∧ d0.supply.rails = false := ⟨rfl, rfl, hr⟩
    have h1 : was = false := hv
    have h2 : (d0.mode == .off || d0.mode == .standby) = true := by
      show (s.dev.mode == .off || s.dev.mode == .standby) = true
      rcases hm with hm | hm <;> rw [hm] <;> rfl
    have k1 : d1.stReq = d0.stReq ∧ d1.supply = d0.supply := by
      simp only [d1]
      split
      · exact ⟨rfl, rfl⟩
      · exact ⟨rfl, rfl⟩
    have k2 : d2.stReq = d1.stReq ∧ d2.supply = d1.supply := ⟨Dev.stReq_raise _ _ _ _ (by decide), Dev.raise_supply _ _ _ _⟩
    have k3 : d3.stReq = d2.stReq ∧ d3.supply = d2.supply := by
      simp only [d3]
      split
      · exact Dev.wake_stReq_supply _ _
      · exact ⟨rfl, rfl⟩
    have ks : d3.supply = d0.supply := k3.2.trans (k2.2.trans k1.2)
    have h4 : d3.supply.rails = false := by rw [ks]; exact k0.2.2
    refine ⟨d3, ?_, k3.1.trans (k2.1.trans (k1.1.trans k0.1)), by rw [ks]⟩
    rw [if_neg (by rw [h1]; decide), if_pos h2, if_neg (by rw [h4]; decide)]
  obtain ⟨e, hc, hst, hsv⟩ := hc
  refine ends_moved (t := t) (f := fun d => d.vauxOn b) (m := .watch) (cause := 0) rfl ?_ ?_ (by decide) fun u hu _ => ⟨hu.mode, ?_⟩
  · rw [hc]
    exact congrArg (· ++ [(DevState.watch, 0)]) hst
  · rcases hm with hm | hm <;> rw [hm] <;> rfl
  · rw [hu.supply, hc]
    exact hsv

theorem ends_vauxRemoved_watch (hm : s.dev.mode = .watch) (hv : s.dev.supply.vaux = true) (hb : s.dev.supply.vbat = true) :
    Ends (.vauxRemoved t) s fun d => d.mode = .standby ∧ d.supply.vaux = false := by
  have hc : ∃ e : Dev, (begin_ t s.dev).vauxOff = e.go .standby 0 ∧ e.stReq = [] ∧ e.supply.vaux = false := by
    unfold Dev.vauxOff
    extract_lets was sup d0 d1
    have h1 : was = true := hv
    have k0 : d0.stReq = [] ∧ d0.supply.vaux = false ∧ d0.supply.vbat = true ∧ d0.mode = .watch := ⟨rfl, rfl, hb, hm⟩
    have k1 : d1.stReq = d0.stReq ∧ d1.supply = d0.supply ∧ d1.mode = d0.mode := ⟨Dev.stReq_raise _ _ _ _ (by decide), Dev.raise_supply _ _ _ _, Dev.raise_mode _ _ _ _⟩
    obtain ⟨hst, hsup, hmode⟩ := k1
    refine ⟨d1, ?_, hst.trans k0.1, by rw [hsup]⟩
    rw [if_neg (by rw [h1]; decide), if_neg (by rw [hmode, k0.2.2.2]; decide), if_pos (by rw [hsup]; exact k0.2.2.1)]
  obtain ⟨e, hc, hst, hsv⟩ := hc
  refine ends_moved (t := t) (f := Dev.vauxOff) (m := .standby) (cause := 0) rfl ?_ (by rw [hm]; rfl) (by decide) fun u hu _ => ⟨hu.mode, ?_⟩
  · rw [hc]
    exact congrArg (· ++ [(DevState.standby, 0)]) hst
  · rw [hu.supply, hc]
    exact hsv

theorem ends_powerOn_watch (hm : s.dev.mode = .watch) : Ends (.powerOn t b) s (s.dev.Booted b) := by
  refine ends_of (t := t) (f := fun d => d.powerOn b) rfl ?_
  have hc : (begin_ t s.dev).powerOn b = ({ begin_ t s.dev with supply := { (begin_ t s.dev).supply with rails := true } } : Dev).mainOn_ b := by
    have h1 : (s.dev.mode == .watch) = true := by
      rw [hm]
      rfl
    unfold Dev.powerOn
    exact if_pos h1
  rw [hc]
  exact settle_powerUp _ _ _ (by rw [hm]; rfl) rfl rfl

theorem ends_resetNAsserted_halt (hm : s.dev.mode = .halt) : Ends (.resetNAsserted t b) s (s.dev.Booted b) := by
  refine ends_of (t := t) (f := fun d => d.resetN b) rfl ?_
  have hc : (begin_ t s.dev).resetN b = (begin_ t s.dev).mainOn_ b := by
    have h1 : (s.dev.mode == .halt) = true := by
      rw [hm]
      rfl
    unfold Dev.resetN
    exact if_pos h1
  rw [hc]
  exact settle_powerUp _ _ _ (by rw [hm]; rfl) rfl rfl

/-- From every state of the main dies Table 1.3 leads to WATCH. -/
theorem DevState.edge_watch_of_main {m : DevState} (h : (m.stateCode != 0) = true) : m.edge .watch = true := by
  cases m
  case off | standby | watch => exact absurd h (by decide)
  all_goals rfl

theorem ends_mainRailsLost (hm : s.dev.mainOn = true) (hv : s.dev.supply.vaux = true) :
    Ends (.mainRailsLost t) s fun d => d.mode = .watch ∧ d.reel = none ∧ d.pins.tripH = 0 ∧ d.pins.tripP = 0 ∧ d.pins.ready = false ∧ d.supply.rails = false := by
  have hc : ∃ x : Dev, (begin_ t s.dev).railsOff = x.mainOff.go .watch 0 ∧ x.stReq = [] ∧ x.supply.rails = false := by
    unfold Dev.railsOff
    extract_lets sup d0 d1
    have h0 : d0.mainOn = true := hm
    obtain ⟨-, -, -, hsup, -⟩ := d0.mainOff_kept
    have h1 : d1.supply.vaux = true := by
      show d0.mainOff.supply.vaux = true
      rw [hsup]
      exact hv
    refine ⟨d0, ?_, rfl, rfl⟩
    rw [if_neg (by rw [h0]; decide), if_pos h1]
  obtain ⟨x, hc, hst, hrails⟩ := hc
  obtain ⟨kst, -, kreel, ksup, -⟩ := x.mainOff_kept
  refine ends_moved (t := t) (f := Dev.railsOff) (m := .watch) (cause := 0) rfl ?_ (DevState.edge_watch_of_main hm) (by decide) fun u hu hset => ?_
  · rw [hc]
    exact congrArg (· ++ [(DevState.watch, 0)]) (kst.trans hst)
  · have htrip := hset.no_trip fun h => by
      have hl : u.live = true := h.1
      unfold Dev.live at hl
      rw [hu.mode] at hl
      exact absurd hl (by decide)
    refine ⟨hu.mode, ?_, htrip.1, htrip.2, ?_, ?_⟩
    · rw [hu.reel, hc]
      exact kreel
    · have hr := hset.1.2.1
      rw [hr, hu.mode]
      rfl
    · rw [hu.supply, hc]
      exact (congrArg Supply.rails ksup).trans hrails

end

/-- Settles O7: every supply command asks for one state, which Table 1.3 allows from where the device is; a power-on shows the straps last of all that it writes to their registers. -/
theorem suppliesMoveTheState : Obligations.SuppliesMoveTheState := fun _ _ _ =>
  ⟨ends_vbatApplied_off, ends_vbatRemoved_standby, ends_vauxApplied, ends_vauxRemoved_watch, ends_powerOn_watch, ends_resetNAsserted_halt, ends_mainRailsLost⟩

end Sys2Proof.Machine
end

section
/-!
PROOFS. Proofs/Accesses.lean: reads and writes of registers as a requester makes them: refusals, write-one-to-clear and read-to-clear fields, latched times and wide values,
the state of the PCIe link (R13, R14, R51, R401, R402, R407, R419).
-/
namespace Sys2Proof.Machine

/-! ### Refusals -/

/-- The words that capture a refused access. -/
def refuseWords : List Nat := [0x20, 0x24, 0x28]

theorem Dev.touches_bump {ws : List Nat} (d : Dev) (f : Field) (n i j : Nat) (h : f.addr i j ∈ ws) : Dev.Touches ws d (d.bump f n i j) := Dev.Touches.wr d _ _ _ h

theorem Dev.touches_refuse (d : Dev) (req off : Nat) (write : Bool) (st : Nat) : Dev.Touches refuseWords d (d.refuse req off write st) := by
  unfold Dev.refuse
  extract_lets d1 d2
  have h1 : Dev.Touches refuseWords d d1 := Dev.Touches.ite _ (Dev.Touches.refl _ d)
    ((((Dev.Touches.wr d _ _ _ (by decide)).trans (Dev.Touches.wr _ _ _ _ (by decide))).trans (Dev.Touches.wr _ _ _ _ (by decide))).trans (Dev.Touches.wr _ _ _ _ (by decide)))
  have h2 : Dev.Touches refuseWords d1 d2 := Dev.Touches.ite _ (Dev.Touches.refl _ d1) (Dev.touches_bump d1 _ _ _ _ (by decide))
  exact (h1.trans h2).trans ((Dev.Posts.raiseHeld d2 Ev.GLB_ACCESS_REFUSED req oneSec req _ (by decide)).touches _)

theorem Dev.refuse_stReq (d : Dev) (req off : Nat) (write : Bool) (st : Nat) : (d.refuse req off write st).stReq = d.stReq := by
  unfold Dev.refuse
  extract_lets d1 d2
  have h1 : d1.stReq = d.stReq := by
    simp only [d1]
    split
    · rfl
    · rw [Dev.wr_stReq, Dev.wr_stReq, Dev.wr_stReq, Dev.wr_stReq]
  have h2 : d2.stReq = d1.stReq := by
    simp only [d2]
    split
    · rfl
    · exact Dev.wr_stReq _ _ _ _ _
  exact (Dev.Posts.raiseHeld d2 Ev.GLB_ACCESS_REFUSED req oneSec req _ (by decide)).stReq.trans (h2.trans h1)

theorem Dev.refuse_out (d : Dev) (req off : Nat) (write : Bool) (st : Nat) : (d.refuse req off write st).out = d.out := by
  unfold Dev.refuse
  extract_lets d1 d2
  have h1 : d1.out = d.out := by
    simp only [d1]
    split
    · rfl
    · rw [Dev.wr_out, Dev.wr_out, Dev.wr_out, Dev.wr_out]
  have h2 : d2.out = d1.out := by
    simp only [d2]
    split
    · rfl
    · exact Dev.wr_out _ _ _ _ _
  exact (Dev.Posts.raiseHeld d2 Ev.GLB_ACCESS_REFUSED req oneSec req _ (by decide)).out.trans (h2.trans h1)

section
variable {s : State} {t req off : Nat} {v : Word}

/-- A refused access is answered with its status, and captured. -/
theorem settle_refuse (write : Bool) (st : Nat) :
    (settle s.dev (((begin_ t s.dev).refuse req off write st).emit (.status req st))).out = [.status req st] ∧
    s.dev.OnlyWrites (settle s.dev (((begin_ t s.dev).refuse req off write st).emit (.status req st))) [0x20, 0x24, 0x28] := by
  have hst : ((begin_ t s.dev).refuse req off write st).stReq = [] := Dev.refuse_stReq (begin_ t s.dev) req off write st
  refine ⟨?_, ?_⟩
  · rw [settle_emit_out _ _ _ hst, Dev.refuse_out]
    rfl
  · exact ((Dev.touches_refuse (begin_ t s.dev) req off write st).trans (Dev.Touches.of_regs (Dev.emit_regs _ _))).settle hst

theorem ends_registerWrite_byteEnables {be : BitVec 4} (hok : s.dev.reqOk req = true) (hf : req = 1 ∨ req = 2) (hbe : be ≠ 15#4) :
    Ends (.registerWrite t req off v be) s fun d => d.out = [.status req 0x31] ∧ s.dev.OnlyWrites d [0x20, 0x24, 0x28] := by
  refine ends_of (exec_registerWrite t req off v be s) ?_
  have hc : (begin_ t s.dev).hostWrite req off v be = ((begin_ t s.dev).refuse req off true 0x31).emit (.status req 0x31) := by
    have hk : (begin_ t s.dev).reqOk req = true := hok
    unfold Dev.hostWrite
    rw [hk, if_neg (by decide), if_pos ⟨hf, hbe⟩]
  rw [hc]
  exact settle_refuse true 0x31

/-- A write with every byte enabled whose outcome is a refusal. -/
theorem ends_registerWrite_refused {st : Nat} (hok : s.dev.reqOk req = true)
    (h : (begin_ t s.dev).ctlWrite req off v.toNat = ((begin_ t s.dev).refuse req off true st, st)) :
    Ends (.registerWrite t req off v 15#4) s fun d => d.out = [.status req st] ∧ s.dev.OnlyWrites d [0x20, 0x24, 0x28] := by
  refine ends_of (exec_registerWrite t req off v 15#4 s) ?_
  have hc : (begin_ t s.dev).hostWrite req off v 15#4 = ((begin_ t s.dev).refuse req off true st).emit (.status req st) := by
    have hk : (begin_ t s.dev).reqOk req = true := hok
    unfold Dev.hostWrite
    rw [hk, if_neg (by decide), if_neg (by simp), h]
  rw [hc]
  exact settle_refuse true st

theorem Dev.ctlWrite_misaligned (d : Dev) {v : Nat} (h : off % 4 ≠ 0) : d.ctlWrite req off v = (d.refuse req off true 0x31, 0x31) := by
  unfold Dev.ctlWrite
  rw [if_pos h]

theorem Dev.ctlWrite_past (d : Dev) {v : Nat} (h : off % 4 = 0) (hoff : 0x20000000 ≤ off) : d.ctlWrite req off v = (d.refuse req off true 0x32, 0x32) := by
  unfold Dev.ctlWrite
  rw [if_neg (by omega), if_pos hoff]

theorem Dev.ctlWrite_open (d : Dev) {v : Nat} (hp : d.reqProt req = false) (h4 : off % 4 = 0) (hlt : off < 0x1000000) (hcfg : isTrwCfg off = false) (htrip : off ≠ 0x70034)
    (hpm : off < 0x78000 ∨ 0x7A000 ≤ off) (hmap : off < 0x200 ∨ 0x300 ≤ off) (hc : d.changesProt req off v = true) : d.ctlWrite req off v = (d.refuse req off true 0x23, 0x23) := by
  unfold Dev.ctlWrite
  rw [if_neg (by omega), if_neg (by omega), if_neg (by omega), if_neg (by omega), if_neg (by omega), hcfg, if_neg (by decide), if_neg (by omega), if_neg (by omega),
    hp, hc, if_pos (by decide)]

/-! ### Fields that a write clears -/

/-- A field that a 1 clears, in a word whose other fields lie elsewhere. -/
theorem Dev.rd_storeWord_w1c (d : Dev) {off : Nat} (v : Nat) (h : off < 0x10000000) (g : Field) (i j : Nat) {pre post : List Field}
    (hs : fieldsAt off = pre ++ g :: post) (ha : g.addr i j = off) (hacc : g.acc = .w1c) (h32 : g.lo + g.width ≤ 32)
    (hp : ((pre ++ post).all fun f => decide (f.lo + f.width ≤ 32) && (decide (g.lo + g.width ≤ f.lo) || decide (f.lo + f.width ≤ g.lo))) = true) :
    (d.storeWord true off v).rd g i j = d.rd g i j - (d.rd g i j &&& bitsOf v g.lo g.width) := by
  have ho : ∀ f ∈ pre ++ post, f.lo + f.width ≤ 32 ∧ (f.stores off = true → g.lo + g.width ≤ f.lo ∨ f.lo + f.width ≤ g.lo) := by
    intro f hf
    have hk := List.all_eq_true.1 hp f hf
    simp only [Bool.and_eq_true, Bool.or_eq_true, decide_eq_true_eq] at hk
    exact ⟨hk.1, fun _ => hk.2⟩
  unfold Dev.rd
  rw [ha, Dev.word_storeWord_self d v h, hs]
  unfold storeFields
  rw [List.foldl_append, List.foldl_cons]
  simp only [hacc]
  rw [← storeFields, ← storeFields, bitsOf_storeFields _ _ _ _ (fun f hf => ho f (List.mem_append_right _ hf)), bitsOf_putField_self _ _ _ _ h32,
    bitsOf_storeFields _ _ _ _ (fun f hf => ho f (List.mem_append_left _ hf))]
  exact Nat.mod_eq_of_lt (Nat.lt_of_le_of_lt (Nat.sub_le _ _) (bitsOf_lt _ _ _))

/-- What remains of a bit that a 1 clears. -/
theorem clear_bit {x : Nat} (hx : x < 2) (b : Bool) : x - (x &&& b2n b) = if b = true then 0 else x := by
  have hx' : x = 0 ∨ x = 1 := by omega
  rcases hx' with rfl | rfl <;> cases b <;> rfl

theorem bitsOf_one_eq (v : Word) (k : Nat) (hk : k < 32) : bitsOf v.toNat k 1 = b2n (v.getLsbD k) := by
  unfold bitsOf b2n
  rw [← BitVec.testBit_toNat, Nat.testBit_eq_decide_div_mod_eq]
  have h : v.toNat / 2 ^ k % 2 < 2 := Nat.mod_lt _ (by decide)
  by_cases h1 : v.toNat / 2 ^ k % 2 = 1
  · simp [h1]
  · have h0 : v.toNat / 2 ^ k % 2 = 0 := by omega
    simp [h0]

theorem fieldsAt_trwErr : fieldsAt 0x70014 = [Reg.TRW_ERR_CFG_REFUSED, Reg.TRW_ERR_FB, Reg.TRW_ERR_SF_DIFFER, Reg.TRW_ERR_SF_REFUSED, Reg.TRW_ERR_P_STALE, Reg.TRW_ERR_T0_READ] := by
  decide +kernel

/-- A word without a protected field is stored alike from either realm. -/
theorem Dev.storeWord_open (d : Dev) (p : Bool) {off : Nat} (v : Nat) (h : off < 0x10000000) (hn : ((fieldsAt off).all fun f => !f.prot) = true) :
    d.storeWord p off v = d.storeWord true off v := by
  unfold Dev.storeWord
  dsimp only
  rw [Dev.fields_plain d h]
  refine congrArg (fun w => if (fieldsAt off).isEmpty = true then d else d.setWord (d.homeOf off) w) (List.foldl_ext _ _ _ fun w f hf => ?_)
  have hf' := List.all_eq_true.1 hn f hf
  rw [Bool.not_eq_true'] at hf'
  rw [hf']
  cases f.acc <;> rfl

theorem Dev.ctlWrite_trwErr (d : Dev) (v : Nat) : d.ctlWrite req 0x70014 v = (d.storeWord true 0x70014 v, 0) := by
  have hf : d.fields 0x70014 = fieldsAt 0x70014 := Dev.fields_plain d (by decide)
  have hr : (!d.reqProt req && d.changesProt req 0x70014 v) = false := by
    have hc : d.changesProt req 0x70014 v = false := by
      unfold Dev.changesProt
      rw [hf, fieldsAt_trwErr]
      rfl
    rw [hc, Bool.and_false]
  have ha : (!d.reqProt req && (d.fields 0x70014).all (fun f => d.isProt f 0x70014 || f.acc == .ro || f.acc == .rc)) = false := by
    rw [hf, fieldsAt_trwErr]
    exact Bool.and_false _
  rw [Dev.ctlWrite_stored d (by decide) hr ha, Dev.storeWord_open d _ v (by decide) (by decide +kernel)]
  have hw : ∀ e : Dev, e.afterWrite req 0x70014 v = e := by
    intro e
    unfold Dev.afterWrite
    rw [if_neg (by decide), if_neg (by decide), if_neg (by decide), if_pos (by decide)]
    unfold Dev.trwWrite
    rw [if_neg (fun h => absurd h.1 (by decide)), if_neg (by decide), if_neg (fun h => absurd h.2.2.1 (by decide))]
  rw [hw]

/-- What remains of a field of one bit that a 1 clears. -/
theorem Dev.rd_clear (d : Dev) (f : Field) (v : Word) (hw : f.width = 1) (hlo : f.lo < 32) :
    d.rd f 0 0 - (d.rd f 0 0 &&& bitsOf v.toNat f.lo f.width) = if v.getLsbD f.lo = true then 0 else d.rd f 0 0 := by
  have hlt := d.rd_lt f 0 0
  rw [hw] at hlt ⊢
  rw [bitsOf_one_eq v _ hlo]
  exact clear_bit hlt _

theorem ends_registerWrite_trwErr (hok : s.dev.reqOk req = true) : Ends (.registerWrite t req 0x70014 v 15#4) s fun d => d.out = [.status req 0] ∧
    d.rd Reg.TRW_ERR_CFG_REFUSED = (if v.getLsbD 0 then 0 else s.dev.rd Reg.TRW_ERR_CFG_REFUSED) ∧
    d.rd Reg.TRW_ERR_FB = (if v.getLsbD 1 then 0 else s.dev.rd Reg.TRW_ERR_FB) ∧ s.dev.OnlyWrites d [0x70014] := by
  refine ends_of (exec_registerWrite t req 0x70014 v 15#4 s) ?_
  have hc : (begin_ t s.dev).hostWrite req 0x70014 v 15#4 = ((begin_ t s.dev).storeWord true 0x70014 v.toNat).emit (.status req 0) := by
    have hk : (begin_ t s.dev).reqOk req = true := hok
    unfold Dev.hostWrite
    rw [hk, if_neg (by decide), if_neg (by simp), Dev.ctlWrite_trwErr]
  rw [hc]
  have hst : ((begin_ t s.dev).storeWord true 0x70014 v.toNat).stReq = [] := Dev.storeWord_stReq _ _ _ _
  refine ⟨?_, ?_, ?_, ?_⟩
  · rw [settle_emit_out _ _ _ hst, Dev.storeWord_out]
    rfl
  · have hw := Dev.rd_storeWord_w1c (begin_ t s.dev) v.toNat (off := 0x70014) (by decide) Reg.TRW_ERR_CFG_REFUSED 0 0 (pre := []) fieldsAt_trwErr rfl rfl (by decide) (by decide)
    refine (Dev.rd_settle_emit _ _ _ hst rfl (by decide)).trans (hw.trans ?_)
    exact Dev.rd_clear (begin_ t s.dev) Reg.TRW_ERR_CFG_REFUSED v rfl (by decide)
  · have hw := Dev.rd_storeWord_w1c (begin_ t s.dev) v.toNat (off := 0x70014) (by decide) Reg.TRW_ERR_FB 0 0 (pre := [Reg.TRW_ERR_CFG_REFUSED]) fieldsAt_trwErr rfl rfl (by decide) (by decide)
    refine (Dev.rd_settle_emit _ _ _ hst rfl (by decide)).trans (hw.trans ?_)
    exact Dev.rd_clear (begin_ t s.dev) Reg.TRW_ERR_FB v rfl (by decide)
  · have hw : Dev.Touches [0x70014] (begin_ t s.dev) ((begin_ t s.dev).storeWord true 0x70014 v.toNat) := fun a ha _ =>
      Dev.word_storeWord_ne _ _ (by decide) fun h => ha (List.mem_singleton.2 h)
    exact (hw.trans (Dev.Touches.of_regs (Dev.emit_regs _ (.status req 0)))).settle (by rw [Dev.emit_stReq]; exact hst)

/-! ### Reads -/

theorem Dev.hostRead_answers (d : Dev) (hok : d.reqOk req = true) (h4 : off % 4 = 0) (hlt : off < 0x20000000) :
    d.hostRead req off = (d.ctlRead req off).1.emit (.word req off (BitVec.ofNat 32 (d.ctlRead req off).2)) := by
  unfold Dev.hostRead
  rw [hok, if_neg (by decide), if_neg (by omega), if_neg (by omega)]

/-- A read of a word below the queues, from a requester other than T0, that no state or latch fills. -/
theorem Dev.ctlRead_plain (d : Dev) (hlt : off < 0x1000000) (hT : isT0 req = false) (hfree : d.freeWord off = none) (hfull : fullTimeAt off = none) (hwide : wideAt off = none) :
    d.ctlRead req off = (d.clearRc off, d.liveWord req off) := by
  unfold Dev.ctlRead
  rw [hT, if_neg (by simp), if_neg (by omega), hfree]
  simp only [hfull, hwide]

/-- A read of the low word of a value of two keeps the high word. -/
theorem Dev.ctlRead_wideLow (d : Dev) (hlt : off < 0x1000000) (hT : isT0 req = false) (hfree : d.freeWord off = none) (hfull : fullTimeAt off = none)
    (hwide : wideAt off = some (off, 2, 0)) :
    d.ctlRead req off = (d.setRq req { d.rq req with wide := some (off, d.liveWord req (off + 4)) }, d.liveWord req off) := by
  have hsum : sumN ((List.range (2 - 1)).map (fun k => d.liveWord req (off + 4 + 4 * k) * 2 ^ (32 * k))) = d.liveWord req (off + 4) := by
    show 0 + d.liveWord req (off + 4 + 4 * 0) * 2 ^ (32 * 0) = _
    rw [Nat.zero_add, Nat.mul_zero, Nat.add_zero, Nat.pow_zero, Nat.mul_one]
  unfold Dev.ctlRead
  rw [hT, if_neg (by simp), if_neg (by omega), hfree]
  simp only [hfull, hwide, hsum]

end

end Sys2Proof.Machine
end

section
/-!
PROOFS. Proofs/ClearOnRead.lean: reads that clear, that keep the other words of a time or of a wide value, and the state of the PCIe link (R13, R51, R402, R407, R419, R463).
-/
namespace Sys2Proof.Machine

/-! ### Fields that a read clears -/

/-- The tables of the regions. -/
def regionTables : List (List Field) :=
  [fieldsGLB, fieldsIMG, fieldsTB, fieldsGAF, fieldsWCH, fieldsPST, fieldsSIN, fieldsTRW, fieldsDSP, fieldsNET, fieldsFLD, fieldsLNK, fieldsSWP, fieldsLPE, fieldsTRD, fieldsQF,
    fieldsEST, fieldsESTV]

theorem List.ite_mem {α : Type} {l : List α} {a b : α} (c : Prop) [Decidable c] (ha : a ∈ l) (hb : b ∈ l) : (if c then a else b) ∈ l := by
  split
  · exact ha
  · exact hb

theorem regionFields_mem (off : Nat) : regionFields off ∈ regionTables := by
  unfold regionFields regionTables
  repeat refine List.ite_mem _ (by simp only [List.mem_cons, true_or, or_true]) ?_
  simp only [List.mem_cons, true_or, or_true]

theorem regionTables_fit : (regionTables.all fun l => l.all fun f => decide (f.lo + f.width ≤ 32)) = true := by decide +kernel

/-- Every field of the tables lies in its word. -/
theorem regionFields_fit (off : Nat) : ((regionFields off).all fun f => decide (f.lo + f.width ≤ 32)) = true := List.all_eq_true.1 regionTables_fit _ (regionFields_mem off)

theorem lo_width_le_of_mem_fieldsAt {off : Nat} {f : Field} (h : f ∈ fieldsAt off) : f.lo + f.width ≤ 32 :=
  of_decide_eq_true (List.all_eq_true.1 (regionFields_fit off) f (List.mem_filter.1 h).1)

/-- A word with fields cleared. -/
def clearFields (fs : List Field) (w : Word) : Word := fs.foldl (fun w f => putField w f.lo f.width 0) w

/-- What is clear stays clear, and the fields named are. -/
theorem getLsbD_clearFields {fs : List Field} (hfit : ∀ f ∈ fs, f.lo + f.width ≤ 32) {i : Nat} (w : Word) (h : w.getLsbD i = false ∨ ∃ f ∈ fs, f.lo ≤ i ∧ i < f.lo + f.width) :
    (clearFields fs w).getLsbD i = false := by
  induction fs generalizing w with
  | nil => exact h.resolve_right fun ⟨_, hf, _⟩ => absurd hf List.not_mem_nil
  | cons g fs ih =>
    have hone := getLsbD_putField w 0#32 (k := g.lo) (n := g.width) (i := i) (hfit g List.mem_cons_self)
    refine ih (fun f hf => hfit f (List.mem_cons_of_mem _ hf)) (putField w g.lo g.width 0) ?_
    by_cases hg : g.lo ≤ i ∧ i < g.lo + g.width
    · left
      rw [if_pos hg] at hone
      exact hone.trans (BitVec.getLsbD_zero ..)
    · rw [if_neg hg] at hone
      refine h.imp (fun h0 => hone.trans h0) fun ⟨f, hf, hr⟩ => ⟨f, (List.mem_cons.1 hf).resolve_left fun he => hg (he ▸ hr), hr⟩

theorem bitsOf_eq_zero {w : Word} {lo width : Nat} (h : ∀ i, lo ≤ i → i < lo + width → w.getLsbD i = false) : bitsOf w.toNat lo width = 0 := by
  apply Nat.eq_of_testBit_eq
  intro i
  unfold bitsOf
  rw [Nat.testBit_mod_two_pow, Nat.testBit_div_two_pow, Nat.zero_testBit]
  by_cases hi : i < width
  · rw [show w.toNat.testBit (i + lo) = w.getLsbD (i + lo) from rfl, h _ (by omega) (by omega), Bool.and_false]
  · rw [decide_eq_false hi, Bool.false_and]

theorem bitsOf_clearFields {fs : List Field} (hfit : ∀ f ∈ fs, f.lo + f.width ≤ 32) (w : Word) {f : Field} (hf : f ∈ fs) : bitsOf (clearFields fs w).toNat f.lo f.width = 0 :=
  bitsOf_eq_zero fun _ hlo hhi => getLsbD_clearFields hfit w (.inr ⟨f, hf, hlo, hhi⟩)

/-- The fields of a word that a read clears. -/
def rcFields (off : Nat) : List Field := (fieldsAt off).filter fun f => f.acc == .rc

theorem Dev.clearRc_eq (d : Dev) {off : Nat} (h : off < 0x10000000) :
    d.clearRc off = if (rcFields off).isEmpty then d else d.setWord off (clearFields (rcFields off) (d.word off)) := by
  unfold Dev.clearRc rcFields clearFields
  dsimp only
  rw [Dev.fields_plain d h, Dev.homeOf_plain d h]

section
variable {s : State} {t req off : Nat}

theorem Dev.clearRc_kept (d : Dev) (h : off < 0x10000000) : Dev.Touches [off] d (d.clearRc off) ∧ (d.clearRc off).stReq = d.stReq ∧ (d.clearRc off).out = d.out := by
  rw [Dev.clearRc_eq d h]
  split
  · exact ⟨Dev.Touches.refl _ _, rfl, rfl⟩
  · exact ⟨fun a ha _ => Dev.word_setWord_ne d _ fun hn => ha (List.mem_singleton.2 hn), rfl, rfl⟩

theorem Dev.clearRc_clears (d : Dev) (h : off < 0x10000000) {f : Field} (hf : f ∈ rcFields off) : bitsOf ((d.clearRc off).word off).toNat f.lo f.width = 0 := by
  rw [Dev.clearRc_eq d h, if_neg (by rw [List.isEmpty_iff]; exact List.ne_nil_of_mem hf), Dev.word_setWord_self]
  exact bitsOf_clearFields (fun g hg => lo_width_le_of_mem_fieldsAt (List.mem_filter.1 hg).1) _ hf

/-- The words that every command shows afresh hold no field that a read clears. -/
theorem rcFields_settled : ∀ a ∈ settleWords, rcFields a = [] := by decide +kernel

theorem ends_rcRead (hok : s.dev.reqOk req = true) (h4 : off % 4 = 0) (hlt : off < 0x1000000) (hT : isT0 req = false) (hfree : (begin_ t s.dev).freeWord off = none)
    (hfull : fullTimeAt off = none) (hwide : wideAt off = none) : Ends (.rcRead t req off) s fun d =>
      d.out = [.word req off (BitVec.ofNat 32 ((begin_ t s.dev).liveWord req off))] ∧
      (∀ f ∈ s.dev.fields off, f.acc = .rc → bitsOf (d.word off).toNat f.lo f.width = 0) ∧ s.dev.OnlyWrites d [off] := by
  refine ends_of (exec_rcRead t req off s) ?_
  have hlt' : off < 0x10000000 := by omega
  rw [Dev.hostRead_answers _ (show (begin_ t s.dev).reqOk req = true from hok) h4 (by omega), Dev.ctlRead_plain _ hlt hT hfree hfull hwide]
  dsimp only
  generalize (begin_ t s.dev).liveWord req off = w
  obtain ⟨htch, hst, hout⟩ := Dev.clearRc_kept (begin_ t s.dev) hlt'
  have hst' : ((begin_ t s.dev).clearRc off).stReq = [] := hst
  refine ⟨?_, fun f hf hacc => ?_, ?_⟩
  · rw [settle_emit_out _ _ _ hst', hout]
    rfl
  · rw [Dev.fields_plain _ hlt'] at hf
    have hrc : f ∈ rcFields off := List.mem_filter.2 ⟨hf, by rw [hacc]; rfl⟩
    have hne : off ∉ settleWords := fun hm => absurd hrc (by rw [rcFields_settled off hm]; exact List.not_mem_nil)
    rw [settle_word _ _ (by rw [Dev.emit_stReq]; exact hst') off hne]
    exact Dev.clearRc_clears (begin_ t s.dev) hlt' hrc
  · exact (htch.trans (Dev.Touches.of_regs (Dev.emit_regs _ _))).settle (by rw [Dev.emit_stReq]; exact hst')

/-! ### Times and wide values -/

/-- A read that keeps words for its requester answers the word and changes no register. -/
theorem settle_keptRead (r : Req) (w : Nat) :
    (settle s.dev (((begin_ t s.dev).setRq req r).emit (.word req off (BitVec.ofNat 32 w)))).out = [.word req off (BitVec.ofNat 32 w)] ∧
    (settle s.dev (((begin_ t s.dev).setRq req r).emit (.word req off (BitVec.ofNat 32 w)))).rq req = r ∧
    s.dev.OnlyWrites (settle s.dev (((begin_ t s.dev).setRq req r).emit (.word req off (BitVec.ofNat 32 w)))) [] := by
  have hst : ((begin_ t s.dev).setRq req r).stReq = [] := rfl
  refine ⟨?_, ?_, ?_⟩
  · exact settle_emit_out _ _ _ hst
  · unfold Dev.rq
    rw [settle_reqs _ _ (by rw [Dev.emit_stReq]; exact hst), Dev.emit_reqs]
    exact Tbl.get_set_self _ _ _ _
  · have h : Dev.Touches [] (begin_ t s.dev) ((begin_ t s.dev).setRq req r) := Dev.Touches.of_regs rfl
    exact (h.trans (Dev.Touches.of_regs (Dev.emit_regs _ _))).settle (by rw [Dev.emit_stReq]; exact hst)

theorem ends_wideLowRead (hok : s.dev.reqOk req = true) (h4 : off % 4 = 0) (hlt : off < 0x1000000) (hT : isT0 req = false) (hfree : (begin_ t s.dev).freeWord off = none)
    (hfull : fullTimeAt off = none) (hwide : wideAt off = some (off, 2, 0)) : Ends (.wideLowRead t req off) s fun d =>
      d.out = [.word req off (BitVec.ofNat 32 ((begin_ t s.dev).liveWord req off))] ∧ (d.rq req).wide = some (off, (begin_ t s.dev).liveWord req (off + 4)) ∧ s.dev.OnlyWrites d [] := by
  refine ends_of (exec_wideLowRead t req off s) ?_
  rw [Dev.hostRead_answers _ (show (begin_ t s.dev).reqOk req = true from hok) h4 (by omega), Dev.ctlRead_wideLow _ hlt hT hfree hfull hwide]
  dsimp only
  obtain ⟨hout, hrq, hw⟩ := settle_keptRead (s := s) (t := t) (req := req) (off := off)
    { (begin_ t s.dev).rq req with wide := some (off, (begin_ t s.dev).liveWord req (off + 4)) } ((begin_ t s.dev).liveWord req off)
  exact ⟨hout, by rw [hrq], hw⟩

/-- A full time's first word is one of four. -/
theorem of_mem_fullTimes (h : off ∈ fullTimes) : off % 4 = 0 ∧ off < 0x1000000 ∧ fullTimeAt off = some (off, 0) ∧ ∀ d : Dev, d.freeWord off = none := by
  have h' : off = 0x10060 ∨ off = 0x20000 ∨ off = 0x2004C ∨ off = 0x40020 := by simpa [fullTimes] using h
  rcases h' with rfl | rfl | rfl | rfl
  all_goals exact ⟨by decide, by decide, by decide, fun _ => rfl⟩

theorem ends_fulltimeNsRead (hok : s.dev.reqOk req = true) (hoff : off ∈ fullTimes) (hT : isT0 req = false) : Ends (.fulltimeNsRead t req off) s fun d =>
    d.out = [.word req off (BitVec.ofNat 32 ((begin_ t s.dev).liveWord req off))] ∧
    (d.rq req).times.find off = some ((begin_ t s.dev).liveWord req (off + 4), (begin_ t s.dev).liveWord req (off + 8)) ∧ s.dev.OnlyWrites d [] := by
  refine ends_of (exec_fulltimeNsRead t req off s) ?_
  obtain ⟨h4, hlt, hfull, hfree⟩ := of_mem_fullTimes hoff
  have hc : (begin_ t s.dev).ctlRead req off = ((begin_ t s.dev).setRq req
      { (begin_ t s.dev).rq req with times := ((begin_ t s.dev).rq req).times.ins off ((begin_ t s.dev).liveWord req (off + 4), (begin_ t s.dev).liveWord req (off + 8)) },
      (begin_ t s.dev).liveWord req off) := by
    unfold Dev.ctlRead
    rw [hT, if_neg (by simp), if_neg (by omega), hfree]
    simp only [hfull]
  rw [Dev.hostRead_answers _ (show (begin_ t s.dev).reqOk req = true from hok) h4 (by omega), hc]
  dsimp only
  obtain ⟨hout, hrq, hw⟩ := settle_keptRead (s := s) (t := t) (req := req) (off := off)
    { (begin_ t s.dev).rq req with times := ((begin_ t s.dev).rq req).times.ins off ((begin_ t s.dev).liveWord req (off + 4), (begin_ t s.dev).liveWord req (off + 8)) }
    ((begin_ t s.dev).liveWord req off)
  exact ⟨hout, by rw [hrq]; exact Tbl.find_ins_self _ _ _, hw⟩

/-! ### A Wrap asked for -/

/-- A cause that lets no switch go first changes no register in RUN. -/
theorem Dev.askWrap_kept {d : Dev} {cause : Nat} (hm : d.mode = .run) (hc : ¬ (cause = 2 ∨ cause = 3 ∨ cause = 4)) :
    (d.askWrap cause).regs = d.regs ∧ (d.askWrap cause).stReq = d.stReq ∧ (d.askWrap cause).out = d.out := by
  unfold Dev.askWrap
  extract_lets e
  have he : e = d := if_neg hc
  rw [if_neg (by rw [hm]; decide), he]
  split
  · exact ⟨rfl, rfl, rfl⟩
  · split
    · exact ⟨rfl, rfl, rfl⟩
    · exact ⟨rfl, rfl, rfl⟩

theorem ends_glbWrap (hok : s.dev.Takes req) (hm : s.dev.mode = .run) (hs : s.dev.sin.switchWrap ≠ some 1) :
    Ends (.glbWrap t req) s fun d => 1 ∈ d.gaf.wrapReq ∧ d.out = [.status req 0] ∧ s.dev.OnlyWrites d [] := by
  refine ends_hostWrite (exec_glbWrap t req s) hok (by decide) ?_
  have hb := Dev.begins_storeWord t s.dev (2#32).toNat (off := 0x14) (by decide) (by decide +kernel)
  generalize (begin_ t s.dev).storeWord true 0x14 (2#32).toNat = d at hb
  have hw : d.afterWrite req 0x14 (2#32).toNat = d.askWrap 1 := rfl
  rw [hw]
  have hmode : d.mode = .run := hb.mode.trans hm
  have hask : 1 ∈ (d.askWrap 1).gaf.wrapReq := Dev.askWrap_asks hmode (by decide) (by rw [hb.sin]; exact hs)
  obtain ⟨hregs, hst, hout⟩ := Dev.askWrap_kept (cause := 1) hmode (by decide)
  have hst' : (d.askWrap 1).stReq = [] := hst.trans hb.stReq
  refine ⟨?_, ?_, ?_⟩
  · rw [settle_gaf _ _ (by rw [Dev.emit_stReq]; exact hst'), Dev.emit_gaf]
    exact hask
  · rw [settle_emit_out _ _ _ hst', hout, hb.out]
    rfl
  · exact ((hb.touches.trans (Dev.Touches.of_regs hregs)).trans (Dev.Touches.of_regs (Dev.emit_regs _ _))).settle (by rw [Dev.emit_stReq]; exact hst')

/-! ### PCIe -/

/-- The state of the link as it is shown. -/
structure Dev.LinkShown (d : Dev) (link speed width bme0 bme1 : Nat) : Prop where
  link : d.rd Reg.GLB_PCIE_STAT_LINK = link
  speed : d.rd Reg.GLB_PCIE_STAT_SPEED = speed
  width : d.rd Reg.GLB_PCIE_STAT_WIDTH = width
  bme0 : d.rd Reg.GLB_PCIE_STAT_F0_BME = bme0
  bme1 : d.rd Reg.GLB_PCIE_STAT_F1_BME = bme1

theorem Dev.linkShown_wr (d : Dev) {link speed width bme0 bme1 : Nat} (hl : link < 2) (hs : speed < 4) (hw : width < 4) (h0 : bme0 < 2) (h1 : bme1 < 2) :
    (((((d.wr Reg.GLB_PCIE_STAT_LINK link).wr Reg.GLB_PCIE_STAT_SPEED speed).wr Reg.GLB_PCIE_STAT_WIDTH width).wr Reg.GLB_PCIE_STAT_F0_BME bme0).wr
      Reg.GLB_PCIE_STAT_F1_BME bme1).LinkShown link speed width bme0 bme1 := by
  have a : ∀ (e : Dev) (f g : Field) (v : Nat), g.apart f = true → (e.wr f v).rd g = e.rd g := fun e f g v h => Dev.rd_wr_apart e f g v 0 0 0 0 h
  have w : ∀ (e : Dev) (f : Field) (v : Nat), f.lo + f.width ≤ 32 → v < 2 ^ f.width → (e.wr f v).rd f = v := fun e f v h hv =>
    (Dev.rd_wr_self e f v 0 0 h).trans (Nat.mod_eq_of_lt hv)
  refine ⟨?_, ?_, ?_, ?_, ?_⟩
  · rw [a _ _ _ _ (by decide), a _ _ _ _ (by decide), a _ _ _ _ (by decide), a _ _ _ _ (by decide), w _ _ _ (by decide) hl]
  · rw [a _ _ _ _ (by decide), a _ _ _ _ (by decide), a _ _ _ _ (by decide), w _ _ _ (by decide) hs]
  · rw [a _ _ _ _ (by decide), a _ _ _ _ (by decide), w _ _ _ (by decide) hw]
  · rw [a _ _ _ _ (by decide), w _ _ _ (by decide) h0]
  · rw [w _ _ _ (by decide) h1]

theorem ends_pcieLinkChange (up : Bool) (speed width : Fin 4) (bme0 bme1 : Bool) : Ends (.pcieLinkChange t up speed width bme0 bme1) s fun d =>
    d.LinkShown (b2n up) (if up then speed else 0) (if up then width else 0) (if up then b2n bme0 else 0) (if up then b2n bme1 else 0) ∧ s.dev.OnlyWrites d [0x60] := by
  refine ends_of (exec_pcieLinkChange t up speed width bme0 bme1 s) ?_
  have hb : ∀ b : Bool, b2n b < 2 := fun b => by cases b <;> decide
  have hsp : (if up then speed.val else 0) < 4 := by split <;> omega
  have hwd : (if up then width.val else 0) < 4 := by split <;> omega
  have h0 : (if up then b2n bme0 else 0) < 2 := by split <;> [exact hb _; decide]
  have h1 : (if up then b2n bme1 else 0) < 2 := by split <;> [exact hb _; decide]
  unfold Dev.pcieLink
  extract_lets sp wd was d1 d2
  have hs2 : d2.LinkShown (b2n up) sp wd (if up then b2n bme0 else 0) (if up then b2n bme1 else 0) := Dev.linkShown_wr (begin_ t s.dev) (hb up) hsp hwd h0 h1
  have ht2 : Dev.Touches [0x60] (begin_ t s.dev) d2 :=
    ((((Dev.Touches.wr _ _ _ _ (by decide)).trans (Dev.Touches.wr _ _ _ _ (by decide))).trans (Dev.Touches.wr _ _ _ _ (by decide))).trans (Dev.Touches.wr _ _ _ _ (by decide))).trans
      (Dev.Touches.wr _ _ _ _ (by decide))
  have hst2 : d2.stReq = [] := by
    simp only [d2, d1, Dev.wr_stReq]
    rfl
  clear_value d2
  have hp : d2.Posts (if was == up then d2 else d2.raise Ev.GLB_PCIE_LINK 0 (b2n up + sp * 2 + wd * 8)) := Dev.Posts.ite _ (Dev.Posts.refl _) (Dev.Posts.raise _ _ _ _ (by decide))
  generalize (if was == up then d2 else d2.raise Ev.GLB_PCIE_LINK 0 (b2n up + sp * 2 + wd * 8)) = e at hp
  have hste : e.stReq = [] := hp.stReq.trans hst2
  have hrd : ∀ f : Field, f.has 0 0 = true → f.clearOf settleFields = true → (settle s.dev e).rd f = d2.rd f := fun f h h' => (settle_rd_clear _ _ hste f 0 0 h h').trans (hp.writes settleFields f 0 0 h h')
  refine ⟨⟨?_, ?_, ?_, ?_, ?_⟩, (ht2.trans (hp.touches _)).settle hste⟩
  · exact (hrd _ rfl (by decide)).trans hs2.link
  · exact (hrd _ rfl (by decide)).trans hs2.speed
  · exact (hrd _ rfl (by decide)).trans hs2.width
  · exact (hrd _ rfl (by decide)).trans hs2.bme0
  · exact (hrd _ rfl (by decide)).trans hs2.bme1

/-- The arm bits of the vectors of a function are cleared by its reset. -/
def Dev.disarmed (d : Dev) (f : Nat) (ns : List Nat) : Dev :=
  ns.foldl (fun (d : Dev) n => if d.rd Reg.GLB_MSIX_MAP_FUNC n = f then d.clr Reg.GLB_MSIX_ARM_ARM n else d) d

theorem Dev.disarmed_cons (d : Dev) (f n : Nat) (ns : List Nat) :
    d.disarmed f (n :: ns) = (if d.rd Reg.GLB_MSIX_MAP_FUNC n = f then d.clr Reg.GLB_MSIX_ARM_ARM n else d).disarmed f ns := rfl

theorem Dev.disarmed_kept (d : Dev) (f : Nat) (ns : List Nat) : (d.disarmed f ns).stReq = d.stReq ∧ (d.disarmed f ns).reqs = d.reqs ∧
    ∀ (g : Field) (k : Nat), g.apart Reg.GLB_MSIX_ARM_ARM = true → (d.disarmed f ns).rd g k = d.rd g k := by
  induction ns generalizing d with
  | nil => exact ⟨rfl, rfl, fun _ _ _ => rfl⟩
  | cons n ns ih =>
    obtain ⟨hst, hrq, hrd⟩ := ih (if d.rd Reg.GLB_MSIX_MAP_FUNC n = f then d.clr Reg.GLB_MSIX_ARM_ARM n else d)
    rw [Dev.disarmed_cons]
    refine ⟨hst.trans ?_, hrq.trans ?_, fun g k hg => (hrd g k hg).trans ?_⟩
    · split
      · exact Dev.wr_stReq _ _ _ _ _
      · rfl
    · split
      · exact Dev.wr_reqs _ _ _ _ _
      · rfl
    · split
      · exact Dev.rd_wr_apart d _ _ _ _ _ _ _ hg
      · rfl

theorem Dev.disarmed_clears (d : Dev) (f : Nat) {ns : List Nat} (hns : ∀ n ∈ ns, n < 64) {n : Nat} (hn : n < 64) (h : n ∈ ns ∧ d.rd Reg.GLB_MSIX_MAP_FUNC n = f ∨ d.rd Reg.GLB_MSIX_ARM_ARM n = 0) :
    (d.disarmed f ns).rd Reg.GLB_MSIX_ARM_ARM n = 0 := by
  induction ns generalizing d with
  | nil => exact h.resolve_left fun h => absurd h.1 List.not_mem_nil
  | cons m ns ih =>
    rw [Dev.disarmed_cons]
    have hmap : ∀ k, (if d.rd Reg.GLB_MSIX_MAP_FUNC m = f then d.clr Reg.GLB_MSIX_ARM_ARM m else d).rd Reg.GLB_MSIX_MAP_FUNC k = d.rd Reg.GLB_MSIX_MAP_FUNC k := fun k => by
      split
      · exact Dev.rd_wr_apart d _ _ _ _ _ _ _ (by decide)
      · rfl
    have harm : d.rd Reg.GLB_MSIX_ARM_ARM n = 0 ∨ n = m ∧ d.rd Reg.GLB_MSIX_MAP_FUNC m = f →
        (if d.rd Reg.GLB_MSIX_MAP_FUNC m = f then d.clr Reg.GLB_MSIX_ARM_ARM m else d).rd Reg.GLB_MSIX_ARM_ARM n = 0 := fun h => by
      have hm : m < 64 := hns m List.mem_cons_self
      split
      case isTrue hf =>
        by_cases he : n = m
        · rw [he]
          exact Dev.rd_wr_self d _ 0 _ _ (by decide)
        · have hne : Reg.GLB_MSIX_ARM_ARM.addr n 0 ≠ Reg.GLB_MSIX_ARM_ARM.addr m 0 := by
            simp only [Reg.GLB_MSIX_ARM_ARM, Field.addr]
            omega
          exact (Dev.rd_congr (Dev.word_wr_ne d _ _ _ _ hne)).trans (h.resolve_right fun hk => he hk.1)
      case isFalse hf => exact h.resolve_right fun hk => hf hk.2
    refine ih _ (fun k hk => hns k (List.mem_cons_of_mem _ hk)) ?_
    rcases h with ⟨hmem, hf⟩ | h0
    · rcases List.mem_cons.1 hmem with rfl | hmem
      · exact .inr (harm (.inr ⟨rfl, hf⟩))
      · exact .inl ⟨hmem, (hmap n).trans hf⟩
    · exact .inr (harm (.inl h0))

theorem ends_pcieFlr (func : Fin 2) : Ends (.pcieFlr t func) s fun d => d.rq (1 + func) = {} ∧ d.rd Reg.GLB_PCIE_STAT_FLR = min (s.dev.rd Reg.GLB_PCIE_STAT_FLR + 1) 255 ∧
    ∀ n, n < 64 → s.dev.rd Reg.GLB_MSIX_MAP_FUNC n = func → d.rd Reg.GLB_MSIX_ARM_ARM n = 0 := by
  refine ends_of (exec_pcieFlr t func s) ?_
  have hc : (begin_ t s.dev).pcieFlr func = ((((begin_ t s.dev).setRq (1 + func) {}).disarmed func (List.range 64)).bump Reg.GLB_PCIE_STAT_FLR).raise Ev.GLB_PCIE_FLR func 0 := rfl
  rw [hc]
  have h0 : ((begin_ t s.dev).setRq (1 + func) {}).rq (1 + func) = {} := Tbl.get_set_self (begin_ t s.dev).reqs (1 + func.val) {} {}
  have hr : ∀ (g : Field) (k : Nat), ((begin_ t s.dev).setRq (1 + func) {}).rd g k = s.dev.rd g k := fun _ _ => rfl
  have hst0 : ((begin_ t s.dev).setRq (1 + func) {}).stReq = [] := rfl
  generalize (begin_ t s.dev).setRq (1 + func) {} = x at h0 hr hst0
  obtain ⟨hst, hrq, hrd⟩ := x.disarmed_kept func (List.range 64)
  have hclr : ∀ n, n < 64 → s.dev.rd Reg.GLB_MSIX_MAP_FUNC n = func → (x.disarmed func (List.range 64)).rd Reg.GLB_MSIX_ARM_ARM n = 0 := fun n hn hf =>
    Dev.disarmed_clears x func (fun k hk => List.mem_range.1 hk) hn (.inl ⟨List.mem_range.2 hn, (hr _ _).trans hf⟩)
  generalize x.disarmed func (List.range 64) = y at hst hrq hrd hclr
  have hp : (y.bump Reg.GLB_PCIE_STAT_FLR).Posts ((y.bump Reg.GLB_PCIE_STAT_FLR).raise Ev.GLB_PCIE_FLR func 0) := Dev.Posts.raise _ _ _ _ (by decide)
  have hbst : (y.bump Reg.GLB_PCIE_STAT_FLR).stReq = [] := (Dev.wr_stReq _ _ _ _ _).trans (hst.trans hst0)
  have hpst := hp.stReq.trans hbst
  refine ⟨?_, ?_, fun n hn hf => ?_⟩
  · unfold Dev.rq at h0 ⊢
    rw [settle_reqs _ _ hpst, hp.reqs]
    exact (congrArg (fun l => Tbl.get l (1 + func.val) {}) ((Dev.wr_reqs _ _ _ _ _).trans hrq)).trans h0
  · rw [settle_rd_clear _ _ hpst _ _ _ rfl (by decide), hp.writes settleFields _ _ _ rfl (by decide), Dev.rd_bump_self y _ 1 0 0 (by decide), hrd _ _ (by decide), hr]
    rfl
  · have hhas : Reg.GLB_MSIX_ARM_ARM.has n 0 = true := Field.has_of hn (by decide)
    rw [settle_rd_clear _ _ hpst _ _ _ hhas (by decide), hp.writes settleFields _ _ _ hhas (by decide)]
    exact (Dev.rd_wr_apart y _ _ _ _ _ _ _ (by decide)).trans (hclr n hn hf)

end

/-- Settles O51: a refusal captures the access alone; a read answers the live word and clears or keeps what its word says. -/
theorem registersFollowTheirAccessCodes : Obligations.RegistersFollowTheirAccessCodes := by
  intro s t req off v be func speed width bme0 bme1 refused live
  refine ⟨fun hok => ⟨ends_registerWrite_byteEnables hok, fun h => ends_registerWrite_refused hok (Dev.ctlWrite_misaligned _ h),
    fun h4 h => ends_registerWrite_refused hok (Dev.ctlWrite_past _ h4 h),
    fun hp h4 hlt hcfg htrip hpm hmap hc => ends_registerWrite_refused hok (Dev.ctlWrite_open _ hp h4 hlt hcfg htrip hpm hmap hc),
    ends_registerWrite_trwErr hok, ends_rcRead hok, ends_fulltimeNsRead hok, ends_wideLowRead hok⟩, ends_glbWrap, ?_, ?_, ends_pcieFlr func⟩
  · obtain ⟨u, hu, hq, hs, hw⟩ := ends_pcieLinkChange (s := s) (t := t) true speed width bme0 bme1
    exact ⟨u, hu, hq, hs.link, hs.speed, hs.width, hs.bme0, hs.bme1, hw⟩
  · obtain ⟨u, hu, hq, hs, hw⟩ := ends_pcieLinkChange (s := s) (t := t) false speed width bme0 bme1
    exact ⟨u, hu, hq, hs.link, hs.speed, hs.width, hs.bme0, hs.bme1, hw⟩

end Sys2Proof.Machine
end

section
/-!
PROOFS. Proofs/ImageRequests.lean: what the operations of the image controller leave and show: results, refusals, an abandoned cut-over, a slot made preferred (R86, R91, R103).
-/
namespace Sys2Proof.Machine

/-! ### A word stored by a host -/

/-- What a command written to a word starts from. -/
structure Dev.Stored (t : Nat) (s : Dev) (off : Nat) (d : Dev) : Prop where
  word : ∀ a, a ≠ off → d.word a = s.word a
  same : d = { begin_ t s with regs := d.regs }

theorem Dev.stored_storeWord (t : Nat) (s : Dev) {off : Nat} (v : Nat) (h : off < 0x10000000) : Dev.Stored t s off ((begin_ t s).storeWord true off v) :=
  ⟨fun _ ha => Dev.word_storeWord_ne _ v h ha, Dev.storeWord_regs _ _ _ _⟩

section
variable {t off : Nat} {s d : Dev} (h : Dev.Stored t s off d)
include h

theorem Dev.Stored.rd {f : Field} {i j : Nat} (hf : f.addr i j ≠ off) : d.rd f i j = s.rd f i j := Dev.rd_congr (h.word _ hf)
theorem Dev.Stored.mode : d.mode = s.mode := by rw [h.same]; rfl
theorem Dev.Stored.now : d.now = s.nowAt t := by rw [h.same]; rfl
theorem Dev.Stored.own : d.own = s.ownAt t := by rw [h.same]; rfl
theorem Dev.Stored.stReq : d.stReq = [] := by rw [h.same]; rfl
theorem Dev.Stored.out : d.out = [] := by rw [h.same]; rfl
theorem Dev.Stored.img : d.img = s.img := by rw [h.same]; rfl
theorem Dev.Stored.reel : d.reel = s.reel := by rw [h.same]; rfl
theorem Dev.Stored.lnk : d.lnk = s.lnk := by rw [h.same]; rfl
theorem Dev.Stored.touches : Dev.Touches [off] (begin_ t s) d := fun a ha _ => h.word a fun hn => ha (List.mem_singleton.2 hn)

end

/-! ### Results and refusals -/

/-- What the result of a request writes. -/
def resultFields : List Field := [Reg.IMG_RESULT_STATUS, Reg.IMG_RESULT_OP]

theorem Dev.within_imgResult (d : Dev) (op st : Nat) : Dev.Within resultFields d (d.imgResult op st) :=
  (Dev.Within.wr d _ rfl (by simp [resultFields])).trans (Dev.Within.wr _ _ rfl (by simp [resultFields]))

theorem Dev.imgResult_shown (d : Dev) {op st : Nat} (ho : op < 256) (hs : st < 256) :
    (d.imgResult op st).rd Reg.IMG_RESULT_STATUS = st ∧ (d.imgResult op st).rd Reg.IMG_RESULT_OP = op := by
  unfold Dev.imgResult
  refine ⟨?_, ?_⟩
  · rw [Dev.rd_wr_apart _ _ _ _ _ _ _ _ (by decide), Dev.rd_wr_self _ _ _ _ _ (by decide)]
    exact Nat.mod_eq_of_lt hs
  · rw [Dev.rd_wr_self _ _ _ _ _ (by decide)]
    exact Nat.mod_eq_of_lt ho

/-- What a refused image writes. -/
def refusalFields : List Field := [Reg.IMG_REFUSE_REASON, Reg.IMG_REFUSE_SECTION, Reg.IMG_REFUSE_INSTANCE, Reg.IMG_REFUSE_REC_RECORD]

theorem Dev.within_showRefusal (d : Dev) (inst : Nat) (e : LoadErr) : Dev.Within refusalFields d (d.showRefusal inst e) :=
  (((Dev.Within.wr d _ rfl (by simp [refusalFields])).trans (Dev.Within.wr _ _ rfl (by simp [refusalFields]))).trans (Dev.Within.wr _ _ rfl (by simp [refusalFields]))).trans
    (Dev.Within.wr _ _ rfl (by simp [refusalFields]))

/-- The device with a slot marked INVALID. -/
def Dev.marked (d : Dev) (k : Nat) : Dev := if k < 2 then d.setSlot k { d.slot k with st := .invalid } else d

theorem Dev.slot_setSlot (d : Dev) (k k' : Nat) (s : Slot) : (d.setSlot k s).slot k' = if k' = k then s else d.slot k' := Tbl.get_set _ _ _ _ _

theorem Dev.marked_img {d e : Dev} (h : d.img = e.img) (k : Nat) : (d.marked k).img = (e.marked k).img := by
  unfold Dev.marked Dev.setSlot Dev.slot
  rw [h]
  split
  · rfl
  · exact h

theorem Dev.marked_kept (d : Dev) (k : Nat) : (d.marked k).regs = d.regs ∧ (d.marked k).mode = d.mode ∧ (d.marked k).stReq = d.stReq ∧ (d.marked k).now = d.now ∧
    (d.marked k).reel = d.reel := by
  unfold Dev.marked
  split <;> exact ⟨rfl, rfl, rfl, rfl, rfl⟩

/-- A refused image shows its refusal, marks its slot and is reported. -/
theorem Dev.posts_loadRefused (d : Dev) (k : Nat) (e : LoadErr) : ((d.showRefusal k e).marked k).Posts (d.loadRefused k e) := by
  have h : (if e.code = 0x41 then Ev.IMG_ROLE_MISMATCH else Ev.IMG_LOAD_REFUSED).sev < 5 := by split <;> decide
  exact Dev.Posts.raise _ _ _ _ h

theorem Dev.loadRefused_img (d : Dev) (k : Nat) (e : LoadErr) : (d.loadRefused k e).img = (d.marked k).img :=
  (d.posts_loadRefused k e).img.trans (Dev.marked_img (d.within_showRefusal k e).img k)

theorem Dev.writes_loadRefused (d : Dev) (k : Nat) (e : LoadErr) : Dev.Writes refusalFields d (d.loadRefused k e) :=
  ((d.within_showRefusal k e).writes.trans (Dev.Writes.of_regs (Dev.marked_kept _ k).1)).trans ((d.posts_loadRefused k e).writes _)

theorem Dev.loadRefused_kept (d : Dev) (k : Nat) (e : LoadErr) : (d.loadRefused k e).mode = d.mode ∧ (d.loadRefused k e).stReq = d.stReq ∧ (d.loadRefused k e).now = d.now ∧
    (d.loadRefused k e).reel = d.reel := by
  have hp := d.posts_loadRefused k e
  have hs := d.within_showRefusal k e
  obtain ⟨-, hmode, hst, hnow, hreel⟩ := Dev.marked_kept (d.showRefusal k e) k
  exact ⟨hp.mode.trans (hmode.trans hs.mode), hp.stReq.trans (hst.trans hs.stReq), hp.now.trans (hnow.trans hs.now), hp.reel.trans (hreel.trans hs.reel)⟩

theorem Dev.within_cutMiss (d : Dev) (why : Nat) : Dev.Within [Reg.IMG_STATUS_CUT] d.noCut (d.cutMiss why) := by
  unfold Dev.cutMiss
  split
  case h_1 h =>
    unfold Dev.noCut
    rw [← h]
    exact Dev.Within.refl _ d
  case h_2 c _ => exact (Dev.Within.wr d.noCut _ rfl (by simp)).trans (Dev.Within.raise _ _ _ _ _ (by decide))

/-- A slot made preferred, in trial. -/
theorem Dev.prefer_shown (d : Dev) (k : Nat) : (d.prefer k).img.pref = k ∧ ((d.prefer k).slot k).trial = true ∧
    (d.prefer k).img = { d.img with pref := k, slots := (d.prefer k).img.slots } := by
  refine ⟨rfl, ?_, ?_⟩
  · unfold Dev.prefer
    exact congrArg Slot.trial ((Dev.slot_setSlot _ k k _).trans (if_pos rfl))
  · unfold Dev.prefer
    dsimp only
    split <;> rfl

theorem Dev.prefer_regs (d : Dev) (k : Nat) : (d.prefer k).regs = d.regs ∧ (d.prefer k).mode = d.mode ∧ (d.prefer k).stReq = d.stReq ∧ (d.prefer k).reel = d.reel := by
  unfold Dev.prefer
  extract_lets o sl e
  have he : e.regs = d.regs ∧ e.mode = d.mode ∧ e.stReq = d.stReq ∧ e.reel = d.reel := by
    simp only [e]
    split <;> exact ⟨rfl, rfl, rfl, rfl⟩
  exact he

theorem Dev.within_nvWrite (l : List Field) (d : Dev) (kind key : Nat) (body : List Byte) : Dev.Within l d (d.nvWrite kind key body) := by
  unfold Dev.nvWrite
  exact Dev.Within.ite _ (Dev.Within.refl _ _) (Dev.within_pst _ _ _)

/-! ### The end of a command of the image controller -/

/-- A command that asks for no state shows its image state as it left it, the fuses joined to those blown before. -/
theorem settle_img_of {o e : Dev} (x : Out) (hst : e.stReq = []) : (settle o (e.emit x)).img = { e.img with otp := o.img.otp.merge e.img.otp } :=
  settle_img o (e.emit x) (by rw [Dev.emit_stReq]; exact hst)

end Sys2Proof.Machine
end

section
/-!
PROOFS. Proofs/Keys.lean: key requests, their fuses, and the commit of a trial (R92 to R94).
-/
namespace Sys2Proof.Machine

section
variable {s : State} {t req : Nat} {v : Word}

theorem orOne_bits (v : Word) : bitAt (v ||| 1#32).toNat 0 = true ∧ bitAt (v ||| 1#32).toNat 1 = v.getLsbD 1 ∧ bitAt (v ||| 1#32).toNat 2 = v.getLsbD 2 := by
  rw [bitAt_eq_testBit, bitAt_eq_testBit, bitAt_eq_testBit]
  refine ⟨?_, ?_, ?_⟩
  · show (v ||| 1#32).getLsbD 0 = true
    simp
  · show (v ||| 1#32).getLsbD 1 = v.getLsbD 1
    simp [BitVec.getLsbD_or]
  · show (v ||| 1#32).getLsbD 2 = v.getLsbD 2
    simp [BitVec.getLsbD_or]

theorem keyReqBytes_congr {d e : Dev} (h : ∀ k, k < 68 → d.rd Reg.IMG_KEY_REQ_WORD k = e.rd Reg.IMG_KEY_REQ_WORD k) : d.keyReqBytes = e.keyReqBytes := by
  unfold Dev.keyReqBytes
  exact List.flatMap_congr fun k hk => by rw [h k (List.mem_range.1 hk)]

theorem keyCheck_congr {d e : Dev} (hi : d.img = e.img) (hr : d.reel = e.reel) (q : List Byte) : d.keyCheck q = e.keyCheck q := by
  unfold Dev.keyCheck Dev.slot Dev.rl
  rw [hi, hr]

/-- The device that has taken a key request. -/
def Dev.keyTaken (d : Dev) (q : List Byte) : Dev :=
  { d with img := { d.img with nonce := le q 16 8, keyReq := some { op := byteAt q 4, slot := byteAt q 5, hash := slice q 24 48 } } }

theorem Dev.imgKeyGo_taken {d : Dev} (hm : d.mode = .dark ∨ d.mode = .quiet ∨ d.mode = .run) (hk : d.img.keyReq = none) (hc : d.keyCheck d.keyReqBytes = 0) :
    d.imgKeyGo = (((d.keyTaken d.keyReqBytes).nvWrite 6 0 (slice d.keyReqBytes 16 8)).imgResult 5 0).imgShow := by
  unfold Dev.imgKeyGo
  dsimp only
  rw [if_neg (by rintro ⟨h1, h2, h3⟩; rcases hm with h | h | h <;> contradiction), hk, if_neg (by decide), hc, if_neg (by decide)]
  unfold Dev.keyTaken
  rfl

theorem ends_imgKeyGo (hm : s.dev.mode = .dark ∨ s.dev.mode = .quiet ∨ s.dev.mode = .run) (hok : s.dev.Takes req) (hk : s.dev.img.keyReq = none)
    (hc : s.dev.keyCheck s.dev.keyReqBytes = 0) : Ends (.imgKeyGo t req v) s fun d =>
      d.img.keyReq = some { op := byteAt s.dev.keyReqBytes 4, slot := byteAt s.dev.keyReqBytes 5, hash := slice s.dev.keyReqBytes 24 48 } ∧
      d.img.nonce = le s.dev.keyReqBytes 16 8 ∧ d.rd Reg.IMG_RESULT_STATUS = 0 ∧ d.rd Reg.IMG_RESULT_OP = 5 := by
  refine ends_hostWrite (exec_imgKeyGo t req v s) hok (by decide) ?_
  have hs := Dev.stored_storeWord t s.dev (v ||| 1#32).toNat (off := 0x100A4) (by decide)
  generalize (begin_ t s.dev).storeWord true 0x100A4 (v ||| 1#32).toNat = d at hs
  have hq : d.keyReqBytes = s.dev.keyReqBytes := keyReqBytes_congr fun k hk => hs.rd (by simp only [Reg.IMG_KEY_REQ_WORD, Field.addr]; omega)
  have hw : d.afterWrite req 0x100A4 (v ||| 1#32).toNat = d.imgKeyGo := by
    unfold Dev.afterWrite Dev.imgWrite
    rw [if_neg (by decide), if_pos (by decide), if_neg (by decide), if_neg (fun h => absurd h.1 (by decide)), if_neg (fun h => absurd h.1 (by decide)),
      if_neg (fun h => absurd h.1 (by decide)), if_pos ⟨rfl, (orOne_bits v).1⟩]
  rw [hw, Dev.imgKeyGo_taken (by rw [hs.mode]; exact hm) (by rw [hs.img]; exact hk) (by rw [keyCheck_congr hs.img hs.reel, hq]; exact hc), hq]
  generalize s.dev.keyReqBytes = q
  have hst0 : (d.keyTaken q).stReq = [] := hs.stReq
  have himg0 : (d.keyTaken q).img.keyReq = some { op := byteAt q 4, slot := byteAt q 5, hash := slice q 24 48 } ∧ (d.keyTaken q).img.nonce = le q 16 8 := ⟨rfl, rfl⟩
  generalize d.keyTaken q = e at hst0 himg0
  have h1 := Dev.within_nvWrite resultFields e 6 0 (slice q 16 8)
  generalize e.nvWrite 6 0 (slice q 16 8) = x at h1
  have h2 := x.within_imgResult 5 0
  have h3 := (x.imgResult 5 0).within_imgShow
  obtain ⟨hrs, hro⟩ := x.imgResult_shown (op := 5) (st := 0) (by decide) (by decide)
  have hst : ((x.imgResult 5 0).imgShow).stReq = [] := h3.stReq.trans (h2.stReq.trans (h1.stReq.trans hst0))
  have himg : ((x.imgResult 5 0).imgShow).img = e.img := h3.img.trans (h2.img.trans h1.img)
  refine ⟨?_, ?_, ?_, ?_⟩
  · rw [settle_img_of _ hst, himg]
    exact himg0.1
  · rw [settle_img_of _ hst, himg]
    exact himg0.2
  · rw [Dev.rd_settle_emit _ _ _ hst rfl (by decide), h3.rd rfl (by decide)]
    exact hrs
  · rw [Dev.rd_settle_emit _ _ _ hst rfl (by decide), h3.rd rfl (by decide)]
    exact hro

/-! ### The fuses of a key -/

/-- The device whose key fuses are blown and read back. -/
def Dev.keyBlown (d : Dev) (q : KeyReq) (k : KeySlot) : Dev :=
  { d with img := { d.img with keyReq := none, otp := { d.img.otp with keys := d.img.otp.keys.set q.slot k {} } } }

/-- The end of a key request whose fuses read back right: the slot's fuses join those blown before. -/
theorem ends_keyFuseDone {q : KeyReq} {back : List Byte} {valid : Bool} {k : KeySlot} (hq : s.dev.img.keyReq = some q) (hlt : q.slot < 4)
    (hk : k = if q.op = 2 then { s.dev.img.otp.keys.get q.slot {} with revoked := (s.dev.img.otp.keys.get q.slot {}).revoked || true }
      else { s.dev.img.otp.keys.get q.slot {} with hash := q.hash, valid := true }) :
    Ends (.keyFuseDone t true back valid) s fun d => d.img.otp.keys.get q.slot {} = (s.dev.img.otp.keys.get q.slot {}).merge k ∧ d.img.keyReq = none := by
  refine ends_of (exec_keyFuseDone t true back valid s) ?_
  have hc : (begin_ t s.dev).keyFuses true back valid =
      (((begin_ t s.dev).keyBlown q k).raise (if q.op = 1 then Ev.IMG_KEY_ENROL else Ev.IMG_KEY_REVOKE) q.slot 0).imgShow := by
    have hq' : (begin_ t s.dev).img.keyReq = some q := hq
    unfold Dev.keyFuses
    rw [hq', hk]
    rfl
  rw [hc]
  have hp : ((begin_ t s.dev).keyBlown q k).Posts (((begin_ t s.dev).keyBlown q k).raise (if q.op = 1 then Ev.IMG_KEY_ENROL else Ev.IMG_KEY_REVOKE) q.slot 0) :=
    Dev.Posts.raise _ _ _ _ (by split <;> decide)
  have hst0 : ((begin_ t s.dev).keyBlown q k).stReq = [] := rfl
  have hkey : ((begin_ t s.dev).keyBlown q k).img.otp.keys.get q.slot {} = k := Tbl.get_set_self _ _ _ _
  have hreq : ((begin_ t s.dev).keyBlown q k).img.keyReq = none := rfl
  generalize ((begin_ t s.dev).keyBlown q k).raise (if q.op = 1 then Ev.IMG_KEY_ENROL else Ev.IMG_KEY_REVOKE) q.slot 0 = e at hp
  generalize (begin_ t s.dev).keyBlown q k = b at hp hst0 hkey hreq
  have hw := e.within_imgShow
  have himg : e.imgShow.img = b.img := hw.img.trans hp.img
  have hst : e.imgShow.stReq = [] := hw.stReq.trans (hp.stReq.trans hst0)
  rw [settle_img _ _ hst, himg]
  exact ⟨(Otp.merge_key _ _ hlt).trans (by rw [hkey]), hreq⟩

theorem ends_keyEnrolled {q : KeyReq} {back : List Byte} {valid : Bool} (hq : s.dev.img.keyReq = some q) (hlt : q.slot < 4) (hop : q.op = 1)
    (hv : (s.dev.img.otp.keys.get q.slot {}).valid = false) : Ends (.keyFuseDone t true back valid) s fun d =>
      (d.img.otp.keys.get q.slot {}).valid = true ∧ (d.img.otp.keys.get q.slot {}).hash = q.hash ∧ d.img.keyReq = none := by
  obtain ⟨u, hu, hpend, hkey, hreq⟩ := ends_keyFuseDone (t := t) (back := back) (valid := valid) hq hlt (k := { s.dev.img.otp.keys.get q.slot {} with hash := q.hash, valid := true })
    (by rw [hop, if_neg (by decide)])
  refine ⟨u, hu, hpend, ?_, ?_, hreq⟩
  · rw [hkey]
    exact Bool.or_true _
  · rw [hkey]
    exact if_neg (by rw [hv]; decide)

theorem ends_keyRevoked {q : KeyReq} {back : List Byte} {valid : Bool} (hq : s.dev.img.keyReq = some q) (hlt : q.slot < 4) (hop : q.op = 2) :
    Ends (.keyFuseDone t true back valid) s fun d => (d.img.otp.keys.get q.slot {}).revoked = true ∧ d.img.keyReq = none := by
  obtain ⟨u, hu, hpend, hkey, hreq⟩ := ends_keyFuseDone (t := t) (back := back) (valid := valid) hq hlt
    (k := { s.dev.img.otp.keys.get q.slot {} with revoked := (s.dev.img.otp.keys.get q.slot {}).revoked || true }) (by rw [hop, if_pos rfl])
  refine ⟨u, hu, hpend, ?_, hreq⟩
  rw [hkey]
  show ((s.dev.img.otp.keys.get q.slot {}).revoked || ((s.dev.img.otp.keys.get q.slot {}).revoked || true)) = true
  rw [Bool.or_true, Bool.or_true]

/-! ### Commit -/

/-- What the end of a commit leaves: the slot that runs, the commit asked for and the counter; no result. -/
structure Dev.CommitKept (d e : Dev) : Prop where
  slot : e.slot d.img.bootSlot = d.slot d.img.bootSlot
  commit : e.img.commit = d.img.commit
  rollback : e.img.otp = d.img.otp
  stReq : e.stReq = d.stReq
  writes : Dev.Writes (refusalFields ++ Reg.IMG_STATUS_CUT :: imgShown) d e

theorem Dev.marked_slot_ne (d : Dev) {k k' : Nat} (h : k' ≠ k) : (d.marked k).slot k' = d.slot k' := by
  unfold Dev.marked
  split
  · rw [Dev.slot_setSlot, if_neg h]
  · rfl

/-- A cut-over given up, as far as a commit looks. -/
theorem Dev.commitKept_cutMiss (d : Dev) (why : Nat) : d.CommitKept (d.cutMiss why) := by
  have h := d.within_cutMiss why
  have hi : (d.cutMiss why).img = { d.img with cut := none } := h.img
  refine ⟨?_, ?_, ?_, h.stReq, ?_⟩
  · unfold Dev.slot
    rw [hi]
  · rw [hi]
  · rw [hi]
  · have h0 : Dev.Writes (refusalFields ++ Reg.IMG_STATUS_CUT :: imgShown) d d.noCut := Dev.Writes.of_regs rfl
    exact h0.trans (h.writes.mono (by simp))

theorem Dev.CommitKept.trans {a b c : Dev} (h : a.CommitKept b) (hb : b.img.bootSlot = a.img.bootSlot) (k : b.CommitKept c) : a.CommitKept c :=
  ⟨by rw [← hb, k.slot, hb, h.slot], k.commit.trans h.commit, k.rollback.trans h.rollback, k.stReq.trans h.stReq, h.writes.trans k.writes⟩

theorem Dev.CommitKept.refl (d : Dev) : d.CommitKept d := ⟨rfl, rfl, rfl, rfl, Dev.Writes.refl _ _⟩

/-- What shows or reports alone keeps all of that. -/
theorem Dev.CommitKept.of_within {d e : Dev} (h : Dev.Within (refusalFields ++ Reg.IMG_STATUS_CUT :: imgShown) d e) : d.CommitKept e :=
  ⟨by unfold Dev.slot; rw [h.img], by rw [h.img], by rw [h.img], h.stReq, h.writes⟩

theorem Dev.commitKept_loadRefused (d : Dev) {o : Nat} (h : d.img.bootSlot ≠ o) (e : LoadErr) : d.CommitKept (d.loadRefused o e) := by
  have hi := d.loadRefused_img o e
  have hm : (d.marked o).img.commit = d.img.commit ∧ (d.marked o).img.otp = d.img.otp := by
    unfold Dev.marked
    split <;> exact ⟨rfl, rfl⟩
  refine ⟨?_, by rw [hi]; exact hm.1, by rw [hi]; exact hm.2, (d.loadRefused_kept o e).2.1, (d.writes_loadRefused o e).mono (by simp)⟩
  exact (congrArg (fun i : Img => i.slots.get d.img.bootSlot {}) hi).trans (Dev.marked_slot_ne d h)

theorem Dev.loadRefused_bootSlot (d : Dev) (o : Nat) (e : LoadErr) : (d.loadRefused o e).img.bootSlot = d.img.bootSlot := by
  rw [d.loadRefused_img]
  unfold Dev.marked
  split <;> rfl

theorem Dev.commitKept_commitEnd (d : Dev) : d.CommitKept d.commitEnd := by
  unfold Dev.commitEnd
  extract_lets run o c sl refused e
  have hne : d.img.bootSlot ≠ o := by
    show d.img.bootSlot ≠ 1 - d.img.bootSlot
    omega
  have he : d.CommitKept e := by
    have hr : d.CommitKept refused := d.commitKept_loadRefused hne _
    have hb : refused.img.bootSlot = d.img.bootSlot := d.loadRefused_bootSlot _ _
    simp only [e]
    split
    · split
      · split
        · exact hr.trans hb (Dev.commitKept_cutMiss _ _)
        · exact hr
      · exact hr
    · exact Dev.CommitKept.refl d
  have hb : e.img.bootSlot = d.img.bootSlot := by
    have hb : refused.img.bootSlot = d.img.bootSlot := d.loadRefused_bootSlot _ _
    simp only [e]
    split
    · split
      · split
        · rw [(refused.within_cutMiss 4).img]
          exact hb
        · exact hb
      · exact hb
    · rfl
  refine he.trans hb (Dev.CommitKept.of_within ?_)
  exact (Dev.Within.raise _ _ _ _ _ (by decide)).trans ((Dev.within_imgShow _).mono fun f hf => List.mem_append_right _ (List.mem_cons_of_mem _ hf))

/-- The running slot out of its trial, the result of a commit shown. -/
def Dev.untried (d : Dev) : Dev := (d.setSlot d.img.bootSlot { d.slot d.img.bootSlot with trial := false, trialLeft := false }).imgResult 4 0

theorem Dev.afterWrite_commit (d : Dev) {x : Nat} (h0 : bitAt x 0 = true) (h1 : bitAt x 1 = false) (h2 : bitAt x 2 = false) : d.afterWrite req 0x10004 x = d.imgCommit := by
  unfold Dev.afterWrite Dev.imgWrite
  rw [if_neg (by decide), if_pos (by decide), if_pos rfl, h0, h1, h2, if_pos rfl]
  dsimp only
  rw [if_neg (by decide), if_neg (by decide)]

/-- The device that asks for its counter to be raised. -/
def Dev.committing (d : Dev) (n : Nat) : Dev := { d with img := { d.img with commit := some n } }

/-- What a commit comes to in RUN. -/
def Dev.commitTo (d : Dev) (n : Nat) : Dev := if d.img.otp.rollback < n then (d.committing n).imgShow else d.commitEnd

theorem Dev.imgCommit_run {d : Dev} (hm : d.mode = .run) : d.imgCommit = d.untried.commitTo d.untried.rl.secVer := by
  unfold Dev.imgCommit Dev.commitTo
  rw [if_neg (by rw [hm]; decide)]
  rfl

/-- The running slot is out of its trial, and the result is that of a commit. -/
theorem Dev.untried_shown (d : Dev) : (d.untried.slot d.img.bootSlot).trial = false ∧ (d.untried.slot d.img.bootSlot).trialLeft = false ∧
    d.untried.rd Reg.IMG_RESULT_STATUS = 0 ∧ d.untried.rd Reg.IMG_RESULT_OP = 4 := by
  have hsl := (Dev.slot_setSlot d d.img.bootSlot d.img.bootSlot { d.slot d.img.bootSlot with trial := false, trialLeft := false }).trans (if_pos rfl)
  unfold Dev.untried
  generalize d.setSlot d.img.bootSlot { d.slot d.img.bootSlot with trial := false, trialLeft := false } = e at hsl
  have hi := (e.within_imgResult 4 0).img
  obtain ⟨hrs, hro⟩ := e.imgResult_shown (op := 4) (st := 0) (by decide) (by decide)
  have hs : (e.imgResult 4 0).slot d.img.bootSlot = { d.slot d.img.bootSlot with trial := false, trialLeft := false } := by
    unfold Dev.slot at hsl ⊢
    rw [hi]
    exact hsl
  exact ⟨by rw [hs], by rw [hs], hrs, hro⟩

theorem Dev.untried_kept (d : Dev) : d.untried.img.bootSlot = d.img.bootSlot ∧ d.untried.img.otp = d.img.otp ∧ d.untried.reel = d.reel ∧ d.untried.stReq = d.stReq := by
  unfold Dev.untried
  have h := Dev.within_imgResult (d.setSlot d.img.bootSlot { d.slot d.img.bootSlot with trial := false, trialLeft := false }) 4 0
  refine ⟨?_, ?_, ?_, ?_⟩
  · rw [h.img]
    rfl
  · rw [h.img]
    rfl
  · rw [h.reel]
    rfl
  · rw [h.stReq]
    rfl

theorem Dev.commitTo_shown (e : Dev) (n : Nat) : (e.commitTo n).stReq = e.stReq ∧ (e.commitTo n).slot e.img.bootSlot = e.slot e.img.bootSlot ∧
    (e.commitTo n).rd Reg.IMG_RESULT_STATUS = e.rd Reg.IMG_RESULT_STATUS ∧ (e.commitTo n).rd Reg.IMG_RESULT_OP = e.rd Reg.IMG_RESULT_OP ∧
    (e.img.otp.rollback < n → (e.commitTo n).img.commit = some n) := by
  unfold Dev.commitTo
  split
  case isTrue h =>
    have hi : (e.committing n).img = { e.img with commit := some n } := rfl
    have hst : (e.committing n).stReq = e.stReq := rfl
    have hrd : ∀ f : Field, (e.committing n).rd f = e.rd f := fun _ => rfl
    generalize e.committing n = x at hi hst hrd
    have h3 := x.within_imgShow
    refine ⟨h3.stReq.trans hst, ?_, (h3.rd rfl (by decide)).trans (hrd _), (h3.rd rfl (by decide)).trans (hrd _), fun _ => ?_⟩
    · unfold Dev.slot
      rw [h3.img, hi]
    · rw [h3.img, hi]
  case isFalse h =>
    have hk := e.commitKept_commitEnd
    exact ⟨hk.stReq, hk.slot, hk.writes _ _ _ rfl (by decide), hk.writes _ _ _ rfl (by decide), fun hn => absurd hn h⟩

theorem ends_imgCommit (hm : s.dev.mode = .run) (hok : s.dev.Takes req) (hv : v &&& 6#32 = 0#32) : Ends (.imgCommit t req v) s fun d =>
    (d.slot s.dev.img.bootSlot).trial = false ∧ (d.slot s.dev.img.bootSlot).trialLeft = false ∧ d.rd Reg.IMG_RESULT_STATUS = 0 ∧ d.rd Reg.IMG_RESULT_OP = 4 ∧
      (s.dev.img.otp.rollback < s.dev.rl.secVer → d.img.commit = some s.dev.rl.secVer) := by
  refine ends_hostWrite (exec_imgCommit t req v s) hok (by decide) ?_
  have hs := Dev.stored_storeWord t s.dev (v ||| 1#32).toNat (off := 0x10004) (by decide)
  generalize (begin_ t s.dev).storeWord true 0x10004 (v ||| 1#32).toNat = d at hs
  have hbits : v.getLsbD 1 = false ∧ v.getLsbD 2 = false := by
    have h : ∀ i, (v &&& 6#32).getLsbD i = false := fun i => by rw [hv]; exact BitVec.getLsbD_zero ..
    have h1 := h 1
    have h2 := h 2
    rw [BitVec.getLsbD_and] at h1 h2
    exact ⟨(Bool.and_true _).symm.trans h1, (Bool.and_true _).symm.trans h2⟩
  obtain ⟨h0, h1, h2⟩ := orOne_bits v
  rw [Dev.afterWrite_commit d h0 (h1.trans hbits.1) (h2.trans hbits.2), Dev.imgCommit_run (hs.mode.trans hm)]
  obtain ⟨htrial, hleft, hrs, hro⟩ := d.untried_shown
  obtain ⟨hboot, hotp, hreel, hst⟩ := d.untried_kept
  rw [hs.img] at htrial hleft hboot hotp
  have hrl : d.untried.rl = s.dev.rl := by
    unfold Dev.rl
    rw [hreel, hs.reel]
  rw [hs.stReq] at hst
  rw [hrl]
  generalize d.untried = e at htrial hleft hrs hro hboot hotp hst
  obtain ⟨hcst, hcslot, hcs, hco, hcc⟩ := e.commitTo_shown s.dev.rl.secVer
  rw [hboot] at hcslot
  rw [hotp] at hcc
  generalize e.commitTo s.dev.rl.secVer = x at hcst hcslot hcs hco hcc
  have hxst := hcst.trans hst
  have himg := settle_img_of (o := s.dev) (e := x) (.status req 0) hxst
  have hsl : (settle s.dev (x.emit (.status req 0))).slot s.dev.img.bootSlot = e.slot s.dev.img.bootSlot := by
    unfold Dev.slot at hcslot ⊢
    rw [himg]
    exact hcslot
  refine ⟨by rw [hsl]; exact htrial, by rw [hsl]; exact hleft, ?_, ?_, fun h => ?_⟩
  · exact (Dev.rd_settle_emit _ _ _ hxst rfl (by decide)).trans (hcs.trans hrs)
  · exact (Dev.rd_settle_emit _ _ _ hxst rfl (by decide)).trans (hco.trans hro)
  · rw [himg]
    exact hcc h

theorem ends_commitFusesDone {c : Nat} (h : s.dev.img.commit = some c) : Ends (.commitFusesDone t) s fun d =>
    d.img.otp.rollback = max s.dev.img.otp.rollback c ∧ d.img.commit = none := by
  refine ends_of (exec_commitFusesDone t s) ?_
  have hc : (begin_ t s.dev).commitFuses = Dev.commitEnd { begin_ t s.dev with
      img := { s.dev.img with commit := none, otp := { s.dev.img.otp with rollback := max s.dev.img.otp.rollback c } } } := by
    have h' : (begin_ t s.dev).img.commit = some c := h
    unfold Dev.commitFuses
    rw [h']
    rfl
  rw [hc]
  have hk := Dev.commitKept_commitEnd { begin_ t s.dev with img := { s.dev.img with commit := none, otp := { s.dev.img.otp with rollback := max s.dev.img.otp.rollback c } } }
  have hst := hk.stReq.trans (show _ = [] from rfl)
  rw [settle_img _ _ hst]
  refine ⟨?_, hk.commit⟩
  show max s.dev.img.otp.rollback _ = _
  rw [hk.rollback]
  exact Nat.max_eq_right (Nat.le_max_left _ _)

end

/-- Settles O10: what a request or its fuses leave is joined to the fuses blown before, and the end of a commit touches the other slot alone. -/
theorem keysAndCommit : Obligations.KeysAndCommit := by
  intro s t req c v back valid q w
  exact ⟨fun hm hok hk hc => ends_imgKeyGo hm hok hk hc, fun hq hlt => ⟨ends_keyEnrolled hq hlt, ends_keyRevoked hq hlt⟩, fun hm hok hv => ends_imgCommit hm hok hv, ends_commitFusesDone⟩

end Sys2Proof.Machine
end

section
/-!
PROOFS. Proofs/Receive.lean: blocks received, sessions ended, slots written (R96, R97, R99).
-/
namespace Sys2Proof.Machine

/-! ### What the image registers show -/

theorem Dev.imgShow_rxOpen (d : Dev) : d.imgShow.rd Reg.IMG_STATUS_RX_OPEN = b2n d.img.rx.isSome := by
  have a : ∀ (e : Dev) (f g : Field) (v : Nat), g.apart f = true → (e.wr f v).rd g = e.rd g := fun e f g v h => Dev.rd_wr_apart e f g v 0 0 0 0 h
  unfold Dev.imgShow Dev.wr2
  extract_lets d1 d2 d3 d4 ks d5 d6
  have himg : d2.img = d.img := by
    have h := (d.within_slotShow (k := 0) (by decide)).trans (Dev.within_slotShow _ (k := 1) (by decide))
    show ((d1.wr Reg.IMG_STATUS_RUN_SLOT d1.img.bootSlot).wr Reg.IMG_STATUS_PREF_SLOT d1.img.pref).img = d.img
    rw [Dev.wr_img, Dev.wr_img]
    exact h.img
  rw [a _ _ _ _ (by decide), a _ _ _ _ (by decide)]
  simp only [d6, d5, d4]
  rw [a _ _ _ _ (by decide), a _ _ _ _ (by decide), a _ _ _ _ (by decide), a _ _ _ _ (by decide), a _ _ _ _ (by decide)]
  simp only [d3]
  rw [a _ _ _ _ (by decide), Dev.rd_wr_self _ _ _ _ _ (by decide), himg]
  cases d.img.rx.isSome <;> rfl

theorem SlotState.code_lt (st : SlotState) : st.code < 4 := by cases st <;> decide

theorem Dev.slotShow_state (d : Dev) {k : Nat} (hk : k < 2) : (d.slotShow k).rd Reg.IMG_SLOT_INFO_STATE k = (d.slot k).st.code := by
  have w : ∀ (f : Field) (x : Dev) (v : Nat), f.n1 = 2 → f.n2 = 1 → Reg.IMG_SLOT_INFO_STATE.free f = true →
      (x.wr f v k).rd Reg.IMG_SLOT_INFO_STATE k = x.rd Reg.IMG_SLOT_INFO_STATE k := fun f x v h1 h2 hf =>
    Dev.rd_wr_free x v (Field.has_of (by omega) (by omega)) (Field.has_of (by show k < 2; exact hk) (by decide)) hf
  unfold Dev.slotShow
  extract_lets sl hd d1 d2
  rw [w _ _ _ rfl rfl (by decide), w _ _ _ rfl rfl (by decide), w _ _ _ rfl rfl (by decide)]
  simp only [d2]
  rw [w _ _ _ rfl rfl (by decide), w _ _ _ rfl rfl (by decide)]
  simp only [d1]
  rw [w _ _ _ rfl rfl (by decide), w _ _ _ rfl rfl (by decide), Dev.rd_wr_self _ _ _ _ _ (by decide)]
  exact Nat.mod_eq_of_lt (SlotState.code_lt _)

/-- The other slot's registers lie apart. -/
theorem Dev.slotShow_other (d : Dev) : (d.slotShow 1).rd Reg.IMG_SLOT_INFO_STATE 0 = d.rd Reg.IMG_SLOT_INFO_STATE 0 := by
  have w : ∀ (f : Field) (x : Dev) (v : Nat), f.addr 1 0 ≠ Reg.IMG_SLOT_INFO_STATE.addr 0 0 → (x.wr f v 1).rd Reg.IMG_SLOT_INFO_STATE 0 = x.rd Reg.IMG_SLOT_INFO_STATE 0 :=
    fun f x v h => Dev.rd_congr (Dev.word_wr_ne x f v 1 0 (Ne.symm h))
  unfold Dev.slotShow
  extract_lets sl hd d1 d2
  rw [w _ _ _ (by decide), w _ _ _ (by decide), w _ _ _ (by decide)]
  simp only [d2]
  rw [w _ _ _ (by decide), w _ _ _ (by decide)]
  simp only [d1]
  rw [w _ _ _ (by decide), w _ _ _ (by decide), w _ _ _ (by decide)]

theorem Dev.imgShow_slotState (d : Dev) {k : Nat} (hk : k < 2) : d.imgShow.rd Reg.IMG_SLOT_INFO_STATE k = (d.slot k).st.code := by
  have hhas : Reg.IMG_SLOT_INFO_STATE.has k 0 = true := Field.has_of hk (by decide)
  have a : ∀ (e : Dev) (f : Field) (v : Nat), f.has 0 0 = true → Reg.IMG_SLOT_INFO_STATE.free f = true → (e.wr f v).rd Reg.IMG_SLOT_INFO_STATE k = e.rd Reg.IMG_SLOT_INFO_STATE k :=
    fun e f v h h' => Dev.rd_wr_free e v h hhas h'
  have hslots : ((d.slotShow 0).slotShow 1).rd Reg.IMG_SLOT_INFO_STATE k = (d.slot k).st.code := by
    have h0 := d.within_slotShow (k := 0) (by decide)
    have hk' : k = 0 ∨ k = 1 := by omega
    rcases hk' with rfl | rfl
    · rw [Dev.slotShow_other, Dev.slotShow_state d (by decide)]
    · rw [Dev.slotShow_state _ (by decide)]
      unfold Dev.slot
      rw [h0.img]
  unfold Dev.imgShow Dev.wr2
  extract_lets d1 d2 d3 d4 ks d5 d6
  rw [a _ _ _ rfl (by decide), a _ _ _ rfl (by decide)]
  simp only [d6, d5, d4]
  rw [a _ _ _ rfl (by decide), a _ _ _ rfl (by decide), a _ _ _ rfl (by decide), a _ _ _ rfl (by decide), a _ _ _ rfl (by decide)]
  simp only [d3, d2]
  rw [a _ _ _ rfl (by decide), a _ _ _ rfl (by decide), a _ _ _ rfl (by decide), a _ _ _ rfl (by decide)]
  exact hslots

/-! ### A block -/

/-- The session's registers, and where a frame is passed on. -/
def rxFields : List Field := [Reg.IMG_RX_STATUS_RECEIVED, Reg.IMG_RX_ID_LO_IMAGE_ID, Reg.IMG_RX_ID_HI_IMAGE_ID, Reg.IMG_RX_COUNT_BLOCK_COUNT]

theorem Dev.within_rxShow (d : Dev) (x : RxSession) : Dev.Within rxFields d (d.rxShow x) :=
  (Dev.Within.wr d _ rfl (by simp [rxFields])).trans
    (((Dev.Within.wr _ _ rfl (by simp [rxFields])).trans (Dev.Within.wr _ _ rfl (by simp [rxFields]))).trans (Dev.Within.wr _ _ rfl (by simp [rxFields])))

/-- The device whose session holds what it has received. -/
def Dev.receiving (d : Dev) (x : RxSession) : Dev := { d with img := { d.img with rx := some x } }

/-- The ownership decision of an own session with a block that is not its last. -/
theorem Dev.rxDecide_own {d : Dev} {x : RxSession} (hp : x.pass = false) (ho : d.rd Reg.IMG_RX_STATUS_OWN = 1) (hn : x.got.length ≠ x.count) :
    d.rxDecide x = ((d.wr Reg.IMG_RX_STATUS_OWN 1).receiving x, 0) := by
  have hf : ¬ (x.got.length == x.count) = true := by simpa using hn
  unfold Dev.rxDecide Dev.receiving
  dsimp only
  rw [hp, if_neg (by decide), if_pos ho, if_neg hf]

/-- The device that has noted a block's number, before it passes the frame on. -/
def Dev.noteBlock (d : Dev) (x : RxSession) (n : Nat) : Dev := (d.setWord (Reg.IMG_RX_MAP_WORD.addr (n / 32) 0) (d.word (Reg.IMG_RX_MAP_WORD.addr (n / 32) 0) ||| BitVec.ofNat 32 (2 ^ (n % 32)))).rxShow x

theorem Dev.rxBlock_next {d : Dev} {x : RxSession} {src : Nat} {blk : List Byte} (hm : d.mode = .dark ∨ d.mode = .quiet ∨ d.mode = .run) (hx : d.NextBlock x blk) :
    ∃ e : Dev, d.rxBlock src blk = (e.receiving (x.took blk d.own), 0) ∧ e.img = d.img ∧ e.stReq = d.stReq := by
  obtain ⟨hrx, hpass, hown, hcrc, himg, hcount, hnum, hle, hgot, hlast⟩ := hx
  have hnot : ¬ (d.mode ≠ .dark ∧ d.mode ≠ .quiet ∧ d.mode ≠ .run) := by
    rintro ⟨h1, h2, h3⟩
    exact hm.elim h1 (fun h => h.elim h2 h3)
  have hbad : ¬ (x.imageId ≠ blkImage blk ∨ x.count ≠ blkCount blk ∨ x.count ≤ blkNum blk ∨ 16384 < x.count) := by
    rw [himg, hcount]
    omega
  have htook : (x.took blk d.own).got.length ≠ (x.took blk d.own).count := hlast
  have hs : d.rxBlock src blk = Dev.rxDecide ((d.noteBlock (x.took blk d.own) (blkNum blk)).peerSend
      (setBits (d.noteBlock (x.took blk d.own) (blkNum blk)).downMask 4) pfSplice (toLe (if src = 0 then 0xFF else src - 1) 1 ++ toLe 0 1 ++ blk)) (x.took blk d.own) := by
    unfold Dev.rxBlock
    dsimp only
    rw [if_neg hnot, hcrc, if_neg (by decide), hrx]
    dsimp only [Option.getD_some, Option.isNone_some]
    rw [if_neg hbad, if_neg (show ¬ (x.got.contains (blkNum blk) = true) by rw [hgot]; decide), if_neg (show ¬ ((false && d.ownAtStart src && d.rxBusy) = true) by simp),
      if_neg (show ¬ (false = true) by decide), if_neg (show ¬ (x.pass = true) by rw [hpass]; decide)]
    rfl
  have hlt : blkNum blk / 32 < 512 := by omega
  have hw : (d.noteBlock (x.took blk d.own) (blkNum blk)).rd Reg.IMG_RX_STATUS_OWN = 1 := by
    unfold Dev.noteBlock
    rw [(Dev.within_rxShow _ _).rd rfl (by decide)]
    refine (Dev.rd_congr (Dev.word_setWord_ne d _ ?_)).trans hown
    simp only [Reg.IMG_RX_MAP_WORD, Reg.IMG_RX_STATUS_OWN, Field.addr]
    omega
  have hk : (d.noteBlock (x.took blk d.own) (blkNum blk)).img = d.img ∧ (d.noteBlock (x.took blk d.own) (blkNum blk)).stReq = d.stReq := by
    unfold Dev.noteBlock
    exact ⟨(Dev.within_rxShow _ _).img, (Dev.within_rxShow _ _).stReq⟩
  rw [hs]
  generalize d.noteBlock (x.took blk d.own) (blkNum blk) = e at hw hk
  have hsend := Dev.within_peerSend rxFields e (setBits e.downMask 4) pfSplice (toLe (if src = 0 then 0xFF else src - 1) 1 ++ toLe 0 1 ++ blk)
  have hw' := (Dev.rd_peerSend e (setBits e.downMask 4) pfSplice (toLe (if src = 0 then 0xFF else src - 1) 1 ++ toLe 0 1 ++ blk) Reg.IMG_RX_STATUS_OWN 0 0).trans hw
  generalize e.peerSend (setBits e.downMask 4) pfSplice (toLe (if src = 0 then 0xFF else src - 1) 1 ++ toLe 0 1 ++ blk) = y at hsend hw'
  refine ⟨y.wr Reg.IMG_RX_STATUS_OWN 1, Dev.rxDecide_own (by exact hpass) hw' htook, ?_, ?_⟩
  · rw [Dev.wr_img, hsend.img, hk.1]
  · rw [Dev.wr_stReq, hsend.stReq, hk.2]

theorem Dev.rxTake_next {d : Dev} {x : RxSession} {src : Nat} {blk : List Byte} (hm : d.mode = .dark ∨ d.mode = .quiet ∨ d.mode = .run) (hx : d.NextBlock x blk) :
    (d.rxTake src blk).2 = 0 ∧ (d.rxTake src blk).1.img = { d.img with rx := some (x.took blk d.own) } ∧ (d.rxTake src blk).1.stReq = d.stReq ∧
      (d.rxTake src blk).1.rd Reg.IMG_RX_STATUS_LAST = 0 := by
  obtain ⟨e, he, himg, hst⟩ := Dev.rxBlock_next (src := src) hm hx
  have ht : d.rxTake src blk = ((((e.receiving (x.took blk d.own)).wr Reg.IMG_RX_STATUS_LAST 0).imgShow), 0) := by
    unfold Dev.rxTake
    rw [he]
  have hi : (e.receiving (x.took blk d.own)).img = { d.img with rx := some (x.took blk d.own) } := by
    unfold Dev.receiving
    rw [himg]
  have hs : (e.receiving (x.took blk d.own)).stReq = d.stReq := hst
  rw [ht]
  generalize e.receiving (x.took blk d.own) = y at hi hs
  have h := (y.wr Reg.IMG_RX_STATUS_LAST 0).within_imgShow
  refine ⟨rfl, ?_, ?_, ?_⟩
  · exact h.img.trans ((Dev.wr_img _ _ _ _ _).trans hi)
  · exact h.stReq.trans ((Dev.wr_stReq _ _ _ _ _).trans hs)
  · exact (h.rd rfl (by decide)).trans (Dev.rd_wr_self y _ 0 0 0 (by decide))

section
variable {s : State} {t req : Nat} {v : Word} {x : RxSession}

theorem orTwo_bits (v : Word) : bitAt (v ||| 2#32).toNat 0 = v.getLsbD 0 ∧ bitAt (v ||| 2#32).toNat 1 = true ∧ bitAt (v ||| 2#32).toNat 2 = v.getLsbD 2 := by
  rw [bitAt_eq_testBit, bitAt_eq_testBit, bitAt_eq_testBit]
  refine ⟨?_, ?_, ?_⟩
  · show (v ||| 2#32).getLsbD 0 = v.getLsbD 0
    simp [BitVec.getLsbD_or]
  · show (v ||| 2#32).getLsbD 1 = true
    simp [BitVec.getLsbD_or]
  · show (v ||| 2#32).getLsbD 2 = v.getLsbD 2
    simp [BitVec.getLsbD_or]

/-- The block in the window. -/
def Dev.rxWindow (d : Dev) : List Byte := (List.range 1024).flatMap (fun j => toLe (d.rd Reg.IMG_RX_BLOCK_WORD j) 4)

theorem ends_imgRxPush (hm : s.dev.mode = .dark ∨ s.dev.mode = .quiet ∨ s.dev.mode = .run) (hok : s.dev.Takes req) (hx : s.dev.NextBlock x s.dev.rxWindow) :
    Ends (.imgRxPush t req v) s fun d => d.img.rx = some (x.took s.dev.rxWindow (s.dev.ownAt t)) ∧ d.rd Reg.IMG_RX_STATUS_LAST = 0 ∧ d.rd Reg.IMG_RESULT_STATUS = 0 ∧
      d.rd Reg.IMG_RESULT_OP = 1 := by
  refine ends_hostWrite (exec_imgRxPush t req v s) hok (by decide) ?_
  have hs := Dev.stored_storeWord t s.dev (v ||| 1#32).toNat (off := 0x10040) (by decide)
  generalize (begin_ t s.dev).storeWord true 0x10040 (v ||| 1#32).toNat = d at hs
  have hwin : (List.range 1024).flatMap (fun k => toLe (d.rd Reg.IMG_RX_BLOCK_WORD k) 4) = s.dev.rxWindow := by
    unfold Dev.rxWindow
    exact List.flatMap_congr fun k _ => by rw [hs.rd (by simp only [Reg.IMG_RX_BLOCK_WORD, Field.addr]; omega)]
  have hw : d.afterWrite req 0x10040 (v ||| 1#32).toNat = (d.rxTake 0 s.dev.rxWindow).1.imgResult 1 (d.rxTake 0 s.dev.rxWindow).2 := by
    unfold Dev.afterWrite Dev.imgWrite
    rw [if_neg (by decide), if_pos (by decide), if_neg (by decide), if_pos ⟨rfl, (orOne_bits v).1⟩]
    rw [← hwin]
    unfold Dev.imgPush
    generalize d.rxTake 0 _ = p
    obtain ⟨e, st⟩ := p
    rfl
  have hxd : d.NextBlock x s.dev.rxWindow := by
    obtain ⟨hrx, hpass, hown, hrest⟩ := hx
    exact ⟨by rw [hs.img]; exact hrx, hpass, (hs.rd (by decide)).trans hown, hrest⟩
  rw [hw]
  obtain ⟨hst, himg, hstReq, hlast⟩ := Dev.rxTake_next (src := 0) (by rw [hs.mode]; exact hm) hxd
  rw [hst]
  generalize (d.rxTake 0 s.dev.rxWindow).1 = y at himg hstReq hlast
  have hr := y.within_imgResult 1 0
  obtain ⟨hrs, hro⟩ := y.imgResult_shown (op := 1) (st := 0) (by decide) (by decide)
  have hyst : (y.imgResult 1 0).stReq = [] := hr.stReq.trans (hstReq.trans hs.stReq)
  refine ⟨?_, ?_, ?_, ?_⟩
  · rw [settle_img_of _ hyst, hr.img, himg, hs.own]
  · exact (Dev.rd_settle_emit _ _ _ hyst rfl (by decide)).trans ((hr.rd rfl (by decide)).trans hlast)
  · exact (Dev.rd_settle_emit _ _ _ hyst rfl (by decide)).trans hrs
  · exact (Dev.rd_settle_emit _ _ _ hyst rfl (by decide)).trans hro

theorem ends_splice {link : Fin 4} {codeErr : Bool} {frame pay : List Byte} (hm : s.dev.mode = .dark ∨ s.dev.mode = .quiet ∨ s.dev.mode = .run)
    (hear : s.dev.Hears t link pfSplice codeErr frame pay) (hl : s.dev.mode = .dark ∨ s.dev.rl.splice.u8 8 = link) (hx : s.dev.NextBlock x (pay.drop 2)) :
    Ends (.splice t link codeErr frame) s fun d => d.img.rx = some (x.took (pay.drop 2) (s.dev.ownAt t)) ∧ d.rd Reg.IMG_RX_STATUS_LAST = 0 := by
  refine ends_onPeer (exec_splice t link codeErr frame s) hear fun seen => ?_
  have hw := (begin_ t s.dev).within_heard seen link.isLt
  have hown : ((begin_ t s.dev).heard link seen).own = s.dev.ownAt t := rfl
  have hmode : ((begin_ t s.dev).heard link seen).mode = s.dev.mode := rfl
  have hrl : ((begin_ t s.dev).heard link seen).rl = s.dev.rl := rfl
  have himg0 : ((begin_ t s.dev).heard link seen).img = s.dev.img := rfl
  have hst0 : ((begin_ t s.dev).heard link seen).stReq = [] := rfl
  have hrd0 : ((begin_ t s.dev).heard link seen).rd Reg.IMG_RX_STATUS_OWN = s.dev.rd Reg.IMG_RX_STATUS_OWN := hw.rd rfl (by decide)
  generalize (begin_ t s.dev).heard link seen = d at hown hmode hrl himg0 hst0 hrd0
  have hxd : d.NextBlock x (pay.drop 2) := by
    obtain ⟨hrx, hpass, ho, hrest⟩ := hx
    exact ⟨by rw [himg0]; exact hrx, hpass, hrd0.trans ho, hrest⟩
  have hc : d.spliceRx link pay = (d.rxTake (1 + link) (pay.drop 2)).1 := by
    unfold Dev.spliceRx
    refine if_neg ?_
    rw [hmode, hrl]
    rcases hl with h | h <;> simp [h]
  rw [hc]
  obtain ⟨-, himg, hstReq, hlast⟩ := Dev.rxTake_next (src := 1 + link) (by rw [hmode]; exact hm) hxd
  have hst := hstReq.trans hst0
  refine ⟨?_, ?_⟩
  · rw [settle_img _ _ hst, himg, hown]
  · rw [settle_rd_clear _ _ hst _ _ _ rfl (by decide)]
    exact hlast

/-! ### The end of a session -/

theorem Dev.rxClose_ended {d : Dev} (h : d.img.rx = some x) (discard : Bool) : (d.rxClose discard).img = { d.img with rx := none } ∧ (d.rxClose discard).stReq = d.stReq := by
  have key : ∀ y : Dev, y.img = { d.img with rx := none } ∧ y.stReq = d.stReq →
      (if x.pass then y.raise Ev.IMG_SPLICE_PASS x.src (byteAt ((x.blocks.get 0 [])) 0 % 4) else y).img = { d.img with rx := none } ∧
      (if x.pass then y.raise Ev.IMG_SPLICE_PASS x.src (byteAt ((x.blocks.get 0 [])) 0 % 4) else y).stReq = d.stReq := fun y hy => by
    have hp : y.Posts (if x.pass then y.raise Ev.IMG_SPLICE_PASS x.src (byteAt ((x.blocks.get 0 [])) 0 % 4) else y) :=
      Dev.Posts.ite _ (Dev.Posts.raise _ _ _ _ (by decide)) (Dev.Posts.refl _)
    exact ⟨hp.img.trans hy.1, hp.stReq.trans hy.2⟩
  unfold Dev.rxClose
  rw [h]
  refine key _ ?_
  split
  · exact ⟨Dev.wr_img _ _ _ _ _, Dev.wr_stReq _ _ _ _ _⟩
  · exact ⟨rfl, rfl⟩

theorem ends_rxSessionTimeout (hx : s.dev.img.rx = some x) (ht : x.at_ + max 1 (s.dev.rd Reg.IMG_RX_CTRL_TIMEOUT) * oneSec ≤ s.dev.ownAt t) :
    Ends (.rxSessionTimeout t) s fun d => d.img.rx = none ∧ d.rd Reg.IMG_STATUS_RX_OPEN = 0 := by
  refine ends_of (exec_rxSessionTimeout t s) ?_
  have hc : (begin_ t s.dev).rxTimeout = (((begin_ t s.dev).raise Ev.IMG_RX_TIMEOUT x.src x.got.length).rxClose true).imgShow := by
    have hx' : (begin_ t s.dev).img.rx = some x := hx
    unfold Dev.rxTimeout
    rw [hx']
    exact if_neg (Nat.not_lt.2 ht)
  rw [hc]
  have hp : (begin_ t s.dev).Posts ((begin_ t s.dev).raise Ev.IMG_RX_TIMEOUT x.src x.got.length) := Dev.Posts.raise _ _ _ _ (by decide)
  generalize (begin_ t s.dev).raise Ev.IMG_RX_TIMEOUT x.src x.got.length = y at hp
  obtain ⟨himg, hst⟩ := Dev.rxClose_ended (d := y) (x := x) (by rw [hp.img]; exact hx) true
  have hw := (y.rxClose true).within_imgShow
  have hst' : (y.rxClose true).imgShow.stReq = [] := hw.stReq.trans (hst.trans hp.stReq)
  refine ⟨?_, ?_⟩
  · rw [settle_img _ _ hst', hw.img, himg]
  · rw [settle_rd_clear _ _ hst' _ _ _ rfl (by decide), Dev.imgShow_rxOpen, himg]
    rfl

theorem Dev.afterWrite_rxAbort (d : Dev) {x : Nat} (h0 : bitAt x 0 = false) (h1 : bitAt x 1 = true) (h2 : bitAt x 2 = false) : d.afterWrite req 0x10004 x = d.rxAbort := by
  unfold Dev.afterWrite Dev.imgWrite
  rw [if_neg (by decide), if_pos (by decide), if_pos rfl, h0, h1, h2]
  dsimp only
  rw [if_neg (by decide), if_pos rfl, if_neg (by decide)]

theorem ends_imgRxAbort (hx : s.dev.img.rx = some x) (hok : s.dev.Takes req) (hv : v &&& 5#32 = 0#32) : Ends (.imgRxAbort t req v) s fun d =>
    d.img.rx = none ∧ d.rd Reg.IMG_STATUS_RX_OPEN = 0 ∧ d.rd Reg.IMG_RESULT_STATUS = 0 ∧ d.rd Reg.IMG_RESULT_OP = 6 := by
  refine ends_hostWrite (exec_imgRxAbort t req v s) hok (by decide) ?_
  have hs := Dev.stored_storeWord t s.dev (v ||| 2#32).toNat (off := 0x10004) (by decide)
  generalize (begin_ t s.dev).storeWord true 0x10004 (v ||| 2#32).toNat = d at hs
  have hbits : v.getLsbD 0 = false ∧ v.getLsbD 2 = false := by
    have h : ∀ i, (v &&& 5#32).getLsbD i = false := fun i => by rw [hv]; exact BitVec.getLsbD_zero ..
    have h1 := h 0
    have h2 := h 2
    rw [BitVec.getLsbD_and] at h1 h2
    exact ⟨(Bool.and_true _).symm.trans h1, (Bool.and_true _).symm.trans h2⟩
  obtain ⟨h0, h1, h2⟩ := orTwo_bits v
  rw [Dev.afterWrite_rxAbort d (h0.trans hbits.1) h1 (h2.trans hbits.2)]
  unfold Dev.rxAbort
  obtain ⟨himg, hst⟩ := Dev.rxClose_ended (d := d) (x := x) (by rw [hs.img]; exact hx) true
  generalize d.rxClose true = y at himg hst
  have hr := y.within_imgResult 6 0
  have hw := (y.imgResult 6 0).within_imgShow
  obtain ⟨hrs, hro⟩ := y.imgResult_shown (op := 6) (st := 0) (by decide) (by decide)
  have hst' : (y.imgResult 6 0).imgShow.stReq = [] := hw.stReq.trans (hr.stReq.trans (hst.trans hs.stReq))
  have himg' : (y.imgResult 6 0).img = { d.img with rx := none } := hr.img.trans himg
  refine ⟨?_, ?_, ?_, ?_⟩
  · rw [settle_img_of _ hst', hw.img, himg']
  · rw [Dev.rd_settle_emit _ _ _ hst' rfl (by decide), Dev.imgShow_rxOpen, himg']
    rfl
  · exact (Dev.rd_settle_emit _ _ _ hst' rfl (by decide)).trans ((hw.rd rfl (by decide)).trans hrs)
  · exact (Dev.rd_settle_emit _ _ _ hst' rfl (by decide)).trans ((hw.rd rfl (by decide)).trans hro)

/-! ### The end of a slot write -/

/-- The device whose slot write has ended with a slot. -/
def Dev.slotHeld (d : Dev) (k : Nat) (sl : Slot) : Dev := { d with img := { d.img with slotWrite := none } }.setSlot k sl

theorem Dev.slotHeld_shown (d : Dev) (k : Nat) (sl : Slot) : (d.slotHeld k sl).slot k = sl ∧ (d.slotHeld k sl).img.slotWrite = none ∧ (d.slotHeld k sl).stReq = d.stReq :=
  ⟨(Dev.slot_setSlot _ k k sl).trans (if_pos rfl), rfl, rfl⟩

theorem ends_slotWriteDone {k : Nat} {bs : List (List Byte)} (fail : Option Nat) (h : s.dev.img.slotWrite = some (k, bs)) (hk : k < 2) : Ends (.slotWriteDone t fail) s fun d =>
    d.slot k = { st := if fail.isSome then .invalid else .valid, blocks := bs } ∧ d.img.slotWrite = none ∧
      d.rd Reg.IMG_SLOT_INFO_STATE k = (if fail.isSome then SlotState.invalid else .valid).code := by
  refine ends_of (exec_slotWriteDone t fail s) ?_
  obtain ⟨hslot, hsw, hst0⟩ := (begin_ t s.dev).slotHeld_shown k { st := if fail.isSome then .invalid else .valid, blocks := bs }
  have hc : ∃ e, (begin_ t s.dev).slotWritten fail = e.imgShow ∧ ((begin_ t s.dev).slotHeld k { st := if fail.isSome then .invalid else .valid, blocks := bs }).Posts e := by
    have h' : (begin_ t s.dev).img.slotWrite = some (k, bs) := h
    unfold Dev.slotWritten
    rw [h']
    cases fail with
    | none => exact ⟨_, rfl, Dev.Posts.raise _ _ _ _ (by decide)⟩
    | some n => exact ⟨_, rfl, Dev.Posts.raise _ _ _ _ (by decide)⟩
  obtain ⟨e, hc, hp⟩ := hc
  rw [hc]
  generalize (begin_ t s.dev).slotHeld k { st := if fail.isSome then .invalid else .valid, blocks := bs } = y at hslot hsw hst0 hp
  have hw := e.within_imgShow
  have hst : e.imgShow.stReq = [] := hw.stReq.trans (hp.stReq.trans hst0)
  have hes : e.slot k = { st := if fail.isSome then .invalid else .valid, blocks := bs } := by
    unfold Dev.slot at hslot ⊢
    rw [hp.img]
    exact hslot
  refine ⟨?_, ?_, ?_⟩
  · unfold Dev.slot at hes ⊢
    rw [settle_img _ _ hst, hw.img]
    exact hes
  · rw [settle_img _ _ hst, hw.img, hp.img]
    exact hsw
  · rw [settle_rd_clear _ _ hst _ _ _ (Field.has_of hk (by decide)) (by decide), Dev.imgShow_slotState e hk, hes]

end

/-- Settles O9: a block that an own session lacks goes through to the end of the decision, which stores it; what ends a session or a write shows so last. -/
theorem imagesAreReceived : Obligations.ImagesAreReceived := by
  intro s t req k n v link codeErr frame pay x bs blk
  exact ⟨fun hm => ⟨fun hok hx => ends_imgRxPush hm hok hx, fun hear hl hx => ends_splice hm hear hl hx⟩,
    fun hx => ⟨ends_rxSessionTimeout hx, ends_imgRxAbort hx⟩, fun h hk => ⟨ends_slotWriteDone none h hk, ends_slotWriteDone (some n) h hk⟩⟩

end Sys2Proof.Machine
end

section
/-!
PROOFS. Proofs/Boot.lean: the slots a boot tries, the structure it builds, the entry to RUN (R86, R87, R90, R165).
-/
namespace Sys2Proof.Machine

section
variable {s : State} {t req k : Nat} {damaged : Bool}

/-! ### A command that ends in a state asked for -/

/-- A command that asks for one state, which Table 1.3 allows, ends in it with what the state shows. -/
theorem ends_asked {c : Instr} {f : Dev → Dev} {p : Dev → Prop} {m : DevState} {cause : Nat} (hc : exec c s = s.run t f) (hst : (f (begin_ t s.dev)).stReq = [(m, cause)])
    (he : s.dev.mode.edge m = true) (h : (settle s.dev (f (begin_ t s.dev))).mode = m → (settle s.dev (f (begin_ t s.dev))).Settled → p (settle s.dev (f (begin_ t s.dev)))) :
    Ends c s p := by
  refine ends_of hc (h ?_ (settle_settled _ _))
  rw [settle_mode, hst, pickState_one cause he]
  rfl

theorem Dev.Settled.ready {d : Dev} (h : d.Settled) (hm : d.mode = .run) : d.pins.ready = true := by
  have hr := h.1.2.1
  rw [hr, hm]
  rfl

theorem Dev.Settled.faultN {d : Dev} (h : d.Settled) (hm : d.mode = .dark ∨ d.mode = .halt) : d.pins.faultN = false := by
  have hf := h.1.2.2.1
  rw [hf]
  rcases hm with hm | hm <;> rw [hm] <;> simp

/-! ### DARK -/

/-- Entry to DARK shows the path and asks for the state. -/
theorem Dev.goDark_shown (d : Dev) : d.goDark.imgShow.stReq = d.stReq ++ [(.dark, 2)] ∧ d.goDark.imgShow.img = { d.img with boot := none } ∧
    d.goDark.imgShow.rd Reg.IMG_STATUS_BOOT_PATH = (if 3 ≤ d.rd Reg.GLB_STATUS_BOOT_MODE then 2 else 3) ∧
    ∀ f ∈ refusalFields, d.goDark.imgShow.rd f = d.rd f := by
  have hdark : ∃ e : Dev, d.goDark = e.go .dark 2 ∧ e.stReq = d.stReq ∧ e.img = { d.img with boot := none } ∧
      e.rd Reg.IMG_STATUS_BOOT_PATH = (if 3 ≤ d.rd Reg.GLB_STATUS_BOOT_MODE then 2 else 3) ∧ ∀ f ∈ refusalFields, e.rd f = d.rd f := by
    unfold Dev.goDark
    extract_lets path shown img e
    have hr : e.Posts (e.raise Ev.IMG_DARK 0 path) := Dev.Posts.raise _ _ _ _ (by decide)
    refine ⟨_, rfl, ?_, ?_, ?_, fun f hf => ?_⟩
    · rw [hr.stReq]
      exact Dev.wr_stReq d Reg.IMG_STATUS_BOOT_PATH path 0 0
    · rw [hr.img]
    · refine (hr.writes settleFields _ _ _ rfl (by decide)).trans ((Dev.rd_wr_self d Reg.IMG_STATUS_BOOT_PATH path 0 0 (by decide)).trans ?_)
      simp only [path]
      split <;> rfl
    · have hfree : f.has 0 0 = true ∧ f.clearOf [Reg.IMG_STATUS_BOOT_PATH] = true := by
        have hall : (refusalFields.all fun f => f.has 0 0 && f.clearOf [Reg.IMG_STATUS_BOOT_PATH]) = true := by decide
        exact (Bool.and_eq_true_iff).1 (List.all_eq_true.1 hall f hf)
      refine (hr.writes [Reg.IMG_STATUS_BOOT_PATH] _ _ _ hfree.1 hfree.2).trans ?_
      exact Dev.Writes.wr (l := [Reg.IMG_STATUS_BOOT_PATH]) d path rfl (List.mem_singleton.2 rfl) f 0 0 hfree.1 hfree.2
  obtain ⟨e, he, hst, himg, hpath, hrest⟩ := hdark
  rw [he]
  have hw := (e.go .dark 2).within_imgShow
  have hgo : (e.go .dark 2).stReq = e.stReq ++ [(.dark, 2)] := rfl
  refine ⟨hw.stReq.trans (by rw [hgo, hst]), hw.img.trans himg, (hw.rd rfl (by decide)).trans hpath, fun f hf => ?_⟩
  have hfree : f.has 0 0 = true ∧ f.clearOf imgShown = true := by
    have hall : (refusalFields.all fun f => f.has 0 0 && f.clearOf imgShown) = true := by decide
    exact (Bool.and_eq_true_iff).1 (List.all_eq_true.1 hall f hf)
  exact (hw.rd hfree.1 hfree.2).trans (hrest f hf)

theorem ends_bootStrapped (hm : s.dev.mode = .boot) (hl : s.dev.img.loaded = none) (hb : s.dev.img.boot = none) (h3 : s.dev.rd Reg.GLB_STATUS_BOOT_MODE = 3) :
    Ends (.bootSlotLoad t damaged) s fun d => d.mode = .dark ∧ d.rd Reg.IMG_STATUS_BOOT_PATH = 2 ∧ d.img.slots = s.dev.img.slots := by
  have hc : (begin_ t s.dev).bootLoad damaged = (begin_ t s.dev).goDark.imgShow := by
    have h3' : (begin_ t s.dev).rd Reg.GLB_STATUS_BOOT_MODE = 3 := h3
    have hplan : (begin_ t s.dev).bootPlan = (begin_ t s.dev, []) := by
      unfold Dev.bootPlan
      rw [h3']
      rfl
    have hb' : (begin_ t s.dev).img.boot = none := hb
    have hno : ¬ ((begin_ t s.dev).mode ≠ .boot ∨ (begin_ t s.dev).img.loaded.isSome = true) := by
      rw [show (begin_ t s.dev).mode = .boot from hm, show (begin_ t s.dev).img.loaded = none from hl]
      decide
    unfold Dev.bootLoad
    rw [if_neg hno, hb']
    dsimp only
    rw [hplan]
    rfl
  obtain ⟨hst, himg, hpath, -⟩ := (begin_ t s.dev).goDark_shown
  refine ends_moved (exec_bootSlotLoad t damaged s) (m := .dark) (cause := 2) (by rw [hc]; exact hst) (by rw [hm]; rfl) (by decide) fun u hu _ => ⟨hu.mode, ?_, ?_⟩
  · rw [hu.rd _ 0 0 rfl (by decide), hc, hpath]
    exact if_pos (le_of_eq h3.symm)
  · rw [hu.img, hc, himg]
    rfl

/-! ### The one slot left -/

/-- The device whose boot has come to slot `k`, in trial or not. -/
def Dev.trying (d : Dev) (k : Nat) : Dev :=
  if d.rd Reg.GLB_STATUS_BOOT_MODE == 0 && k == d.img.pref && (d.slot k).trial then d.setSlot k { d.slot k with trialLeft := false } else d

theorem Dev.trying_kept (d : Dev) (k : Nat) : (d.trying k).stReq = d.stReq ∧ (d.trying k).regs = d.regs ∧ (d.trying k).img = { d.img with slots := (d.trying k).img.slots } ∧
    ((d.trying k).slot k).blocks = (d.slot k).blocks ∧ (d.trying k).mode = d.mode := by
  unfold Dev.trying
  split
  · refine ⟨rfl, rfl, rfl, ?_, rfl⟩
    rw [Dev.slot_setSlot, if_pos rfl]
  · exact ⟨rfl, rfl, rfl, rfl, rfl⟩

theorem Dev.trying_loadSlot (d : Dev) (k : Nat) (damaged : Bool) : (d.trying k).loadSlot k damaged = d.loadSlot k damaged := by
  obtain ⟨-, hregs, himg, hblocks, -⟩ := d.trying_kept k
  unfold Dev.loadSlot
  rw [hblocks, himg, show (d.trying k).devAddr = d.devAddr from Dev.rd_congr (Dev.word_congr hregs _)]

/-- What a refused last slot comes to. -/
theorem Dev.bootLoad_refused {d : Dev} {e : LoadErr} (hm : d.mode = .boot) (hl : d.img.loaded = none) (hb : d.img.boot = some [k]) (hv : (d.slot k).st = .valid)
    (he : d.loadSlot k damaged = .inr e) : d.bootLoad damaged = ((d.trying k).loadRefused k e).goDark.imgShow := by
  have hno : ¬ (d.mode ≠ .boot ∨ d.img.loaded.isSome = true) := by
    rw [hm, hl]
    decide
  have hlive : [k].filter (fun k => (d.slot k).st == .valid) = [k] := by
    rw [List.filter_cons_of_pos (by rw [hv]; rfl)]
    rfl
  have hk := (d.trying_loadSlot k damaged).trans he
  unfold Dev.trying at hk
  unfold Dev.bootLoad
  rw [if_neg hno, hb]
  dsimp only
  rw [hlive]
  dsimp only
  rw [hk]
  rfl

theorem ends_bootRefused {e : LoadErr} (hm : s.dev.mode = .boot) (hl : s.dev.img.loaded = none) (hb : s.dev.img.boot = some [k]) (hk : k < 2) (hv : (s.dev.slot k).st = .valid)
    (he : s.dev.loadSlot k damaged = .inr e) : Ends (.bootSlotLoad t damaged) s fun d =>
      d.mode = .dark ∧ (d.slot k).st = .invalid ∧ d.rd Reg.IMG_REFUSE_REASON = e.code % 2 ^ Reg.IMG_REFUSE_REASON.width ∧ d.rd Reg.IMG_REFUSE_INSTANCE = k ∧ d.pins.faultN = false := by
  have hc : (begin_ t s.dev).bootLoad damaged = (((begin_ t s.dev).trying k).loadRefused k e).goDark.imgShow := Dev.bootLoad_refused hm hl hb hv he
  obtain ⟨hst0, -⟩ := (begin_ t s.dev).trying_kept k
  generalize (begin_ t s.dev).trying k = x at hc hst0
  obtain ⟨hst, himg, -, hrd⟩ := (x.loadRefused k e).goDark_shown
  obtain ⟨-, hrst, -⟩ := x.loadRefused_kept k e
  have hst' : ((begin_ t s.dev).bootLoad damaged).stReq = [(.dark, 2)] := by
    rw [hc, hst, hrst, hst0]
    rfl
  have hshow : (x.loadRefused k e).rd Reg.IMG_REFUSE_REASON = e.code % 2 ^ Reg.IMG_REFUSE_REASON.width ∧ (x.loadRefused k e).rd Reg.IMG_REFUSE_INSTANCE = k := by
    have hp := x.posts_loadRefused k e
    have hregs := (Dev.marked_kept (x.showRefusal k e) k).1
    have hr : ∀ f : Field, f.has 0 0 = true → f.clearOf [] = true → (x.loadRefused k e).rd f = (x.showRefusal k e).rd f := fun f h h' =>
      (hp.writes [] f 0 0 h h').trans (Dev.rd_congr (Dev.word_congr hregs _))
    refine ⟨(hr _ rfl (by decide)).trans ?_, (hr _ rfl (by decide)).trans ?_⟩
    · unfold Dev.showRefusal
      rw [Dev.rd_wr_apart _ _ _ _ _ _ _ _ (by decide), Dev.rd_wr_apart _ _ _ _ _ _ _ _ (by decide), Dev.rd_wr_apart _ _ _ _ _ _ _ _ (by decide), Dev.rd_wr_self _ _ _ _ _ (by decide)]
    · unfold Dev.showRefusal
      rw [Dev.rd_wr_apart _ _ _ _ _ _ _ _ (by decide), Dev.rd_wr_self _ _ _ _ _ (by decide)]
      exact Nat.mod_eq_of_lt (by show k < 4; omega)
  refine ends_moved (exec_bootSlotLoad t damaged s) (m := .dark) (cause := 2) hst' (by rw [hm]; rfl) (by decide) fun u hu hset => ⟨hu.mode, ?_, ?_, ?_, hset.faultN (.inl hu.mode)⟩
  · have hi : u.img.slots = (x.marked k).img.slots := by
      rw [hu.img, hc, himg, x.loadRefused_img]
    unfold Dev.slot
    rw [hi]
    unfold Dev.marked
    rw [if_pos hk]
    exact congrArg Slot.st ((Dev.slot_setSlot x k k _).trans (if_pos rfl))
  · rw [hu.rd _ 0 0 rfl (by decide), hc]
    exact (hrd _ (by simp [refusalFields])).trans hshow.1
  · rw [hu.rd _ 0 0 rfl (by decide), hc]
    exact (hrd _ (by simp [refusalFields])).trans hshow.2

/-- What an accepted last slot comes to: the image is kept to be built, and no state is asked for. -/
theorem Dev.bootLoad_accepted {d : Dev} {r : Reel} (hm : d.mode = .boot) (hl : d.img.loaded = none) (hb : d.img.boot = some [k]) (hv : (d.slot k).st = .valid)
    (he : d.loadSlot k damaged = .inl r) :
    ∃ e : Dev, d.bootLoad damaged = ({ e with img := { e.img with boot := none, loaded := some (k, r) } } : Dev).imgShow ∧ e.stReq = d.stReq := by
  have hno : ¬ (d.mode ≠ .boot ∨ d.img.loaded.isSome = true) := by
    rw [hm, hl]
    decide
  have hlive : [k].filter (fun k => (d.slot k).st == .valid) = [k] := by
    rw [List.filter_cons_of_pos (by rw [hv]; rfl)]
    rfl
  have hk := (d.trying_loadSlot k damaged).trans he
  have hst0 := (d.trying_kept k).1
  unfold Dev.trying at hk hst0
  unfold Dev.bootLoad
  rw [if_neg hno, hb]
  dsimp only
  rw [hlive]
  dsimp only
  rw [hk]
  dsimp only
  generalize (if (d.rd Reg.GLB_STATUS_BOOT_MODE == 0 && k == d.img.pref && (d.slot k).trial) = true then d.setSlot k { d.slot k with trialLeft := false } else d) = x at hst0
  refine ⟨_, rfl, Eq.trans ?_ hst0⟩
  have h1 : x.Posts (x.raise Ev.IMG_BOOT_SLOT k (imgId (d.slot k).head % 2 ^ 32)) := Dev.Posts.raise _ _ _ _ (by decide)
  generalize x.raise Ev.IMG_BOOT_SLOT k (imgId (d.slot k).head % 2 ^ 32) = y at h1
  have h2 : (if k = y.img.pref then y.wr Reg.IMG_STATUS_BOOT_PATH 0 else (y.wr Reg.IMG_STATUS_BOOT_PATH 1).raise Ev.IMG_FALLBACK k (imgId (d.slot k).head % 2 ^ 32)).stReq = y.stReq := by
    split
    · exact Dev.wr_stReq _ _ _ _ _
    · exact (Dev.stReq_raise _ _ _ _ (by decide)).trans (Dev.wr_stReq _ _ _ _ _)
  generalize (if k = y.img.pref then y.wr Reg.IMG_STATUS_BOOT_PATH 0 else (y.wr Reg.IMG_STATUS_BOOT_PATH 1).raise Ev.IMG_FALLBACK k (imgId (d.slot k).head % 2 ^ 32)) = z at h2
  refine Eq.trans ?_ (h2.trans h1.stReq)
  split <;> rfl

theorem ends_bootAccepted {r : Reel} (hm : s.dev.mode = .boot) (hl : s.dev.img.loaded = none) (hb : s.dev.img.boot = some [k]) (hv : (s.dev.slot k).st = .valid)
    (he : s.dev.loadSlot k damaged = .inl r) : Ends (.bootSlotLoad t damaged) s fun d => d.img.loaded = some (k, r) ∧ d.mode = .boot ∧ d.img.boot = none := by
  refine ends_of (exec_bootSlotLoad t damaged s) ?_
  obtain ⟨e, hc, hst⟩ := Dev.bootLoad_accepted (d := begin_ t s.dev) (damaged := damaged) hm hl hb hv he
  rw [hc]
  have hw := Dev.within_imgShow ({ e with img := { e.img with boot := none, loaded := some (k, r) } } : Dev)
  have hst' := hw.stReq.trans (show ({ e with img := { e.img with boot := none, loaded := some (k, r) } } : Dev).stReq = [] from hst)
  refine ⟨?_, ?_, ?_⟩
  · rw [settle_img _ _ hst', hw.img]
  · rw [settle_mode_calm _ _ hst']
    exact hm
  · rw [settle_img _ _ hst', hw.img]

/-! ### The structure built -/

theorem Dev.goIn_kept (d : Dev) (m : DevState) (cause : Nat) : (d.goIn m cause).stReq = d.stReq ++ [(m, cause)] ∧ (d.goIn m cause).reel = d.reel ∧ (d.goIn m cause).img = d.img :=
  ⟨rfl, rfl, rfl⟩

theorem Dev.carry_kept (d : Dev) (r : Reel) (k : Nat) : (d.carry r k).stReq = d.stReq ∧ (d.carry r k).reel = some r ∧ (d.carry r k).img = { d.img with bootSlot := k } :=
  ⟨rfl, rfl, rfl⟩

theorem Dev.Spares.stReq {d e : Dev} (h : d.Spares e) : e.stReq = d.stReq := h.2.1

theorem Dev.Spares.reel {d e : Dev} (h : d.Spares e) : e.reel = d.reel := h.2.2.2.2.1

theorem Dev.quietEnter_kept (d : Dev) (cause : Nat) (kept : Nat → Bool) : (d.quietEnter cause kept).stReq = d.stReq ++ [(.quiet, cause)] ∧
    (d.quietEnter cause kept).reel = d.reel ∧ (d.quietEnter cause kept).img = d.img := by
  have h := d.spares_quietEnter cause kept
  obtain ⟨hst, hreel, himg⟩ := d.goIn_kept .quiet cause
  exact ⟨h.stReq.trans hst, h.reel.trans hreel, h.img.trans himg⟩

theorem Dev.build_kept (d : Dev) (r : Reel) (k : Nat) (old : Option Reel) : (d.build r k old).stReq = d.stReq ∧ (d.build r k old).reel = some r ∧
    (d.build r k old).img = { d.img with bootSlot := k } := by
  have h := d.spares_build r k old
  obtain ⟨hst, hreel, himg⟩ := d.carry_kept r k
  exact ⟨h.stReq.trans hst, h.reel.trans hreel, h.img.trans himg⟩

/-- The entry to QUIET with a structure just built, as far as the device's backbone goes. -/
theorem Dev.built_shown (d : Dev) (r : Reel) (k cause : Nat) (old : Option Reel) (kept : Nat → Bool) :
    ((d.build r k old).quietEnter cause kept).stReq = d.stReq ++ [(.quiet, cause)] ∧ ((d.build r k old).quietEnter cause kept).reel = some r ∧
      ((d.build r k old).quietEnter cause kept).img = { d.img with bootSlot := k } := by
  obtain ⟨hst1, hreel1, himg1⟩ := d.build_kept r k old
  obtain ⟨hst2, hreel2, himg2⟩ := (d.build r k old).quietEnter_kept cause kept
  exact ⟨hst2.trans (by rw [hst1]), hreel2.trans hreel1, himg2.trans himg1⟩

theorem ends_structureBuilt {r : Reel} (hm : s.dev.mode = .boot) (hl : s.dev.img.loaded = some (k, r)) :
    Ends (.structureBuilt t) s fun d => d.mode = .quiet ∧ d.reel = some r ∧ d.img.bootSlot = k ∧ d.img.loaded = none := by
  have hc : ∃ x : Dev, (begin_ t s.dev).structBuilt = ((x.build r k none).quietEnter 1 (fun _ => false)).imgShow ∧ x.stReq = [] ∧ x.img.loaded = none := by
    have hl' : (begin_ t s.dev).img.loaded = some (k, r) := hl
    unfold Dev.structBuilt
    rw [hl']
    dsimp only
    rw [if_neg (by rw [show (begin_ t s.dev).mode = .boot from hm]; decide)]
    exact ⟨_, rfl, rfl, rfl⟩
  obtain ⟨x, hc, hst0, hl0⟩ := hc
  obtain ⟨hst, hreel, himg⟩ := x.built_shown r k 1 none (fun _ => false)
  generalize (x.build r k none).quietEnter 1 (fun _ => false) = y at hc hst hreel himg
  have hw := y.within_imgShow
  refine ends_moved (exec_structureBuilt t s) (m := .quiet) (cause := 1) (by rw [hc, hw.stReq, hst, hst0]; rfl) (by rw [hm]; rfl) (by decide) fun u hu _ => ⟨hu.mode, ?_, ?_, ?_⟩
  · rw [hu.reel, hc, hw.reel, hreel]
  · rw [hu.img, hc, hw.img, himg]
  · rw [hu.img, hc, hw.img, himg]
    exact hl0

/-! ### RUN -/

theorem Dev.runEnter_stReq (d : Dev) : d.runEnter.stReq = d.stReq ++ [(.run, 4)] := d.spares_runEnter.2.1

theorem Dev.runReady_mode {d : Dev} (h : d.runReady = true) : d.mode = .quiet := by
  unfold Dev.runReady at h
  simp only [Bool.and_eq_true, beq_iff_eq] at h
  exact h.1.1.1.1

theorem ends_enterRun (hr : s.dev.runReady = true) (hh : s.dev.rl.startHost = false) : Ends (.enterRun t) s fun d => d.mode = .run ∧ d.pins.ready = true := by
  have hc : (begin_ t s.dev).autoRun = (begin_ t s.dev).runEnter := by
    have h : ((begin_ t s.dev).runReady && !(begin_ t s.dev).rl.startHost) = true := by
      rw [show (begin_ t s.dev).runReady = true from hr, show (begin_ t s.dev).rl.startHost = false from hh]
      rfl
    unfold Dev.autoRun
    exact if_pos h
  refine ends_asked (exec_enterRun t s) (m := .run) (cause := 4) (by rw [hc]; exact Dev.runEnter_stReq _) (by rw [Dev.runReady_mode hr]; rfl) fun hm hset => ⟨hm, hset.ready hm⟩

/-- Readiness reads registers and the structure alone. -/
theorem Dev.Begins.runReady {d : Dev} (h : Dev.Begins t s.dev d) : d.runReady = s.dev.runReady := by
  have hrings : d.ringsReady = s.dev.ringsReady := by
    have hrl : d.rl = s.dev.rl := by
      rw [h.same]
      rfl
    have hlr : ∀ g, d.lr g = s.dev.lr g := fun g => by
      rw [h.same]
      rfl
    unfold Dev.ringsReady
    rw [hrl]
    exact congrArg (List.all s.dev.rl.rings) (funext fun g => by rw [hlr, h.rd])
  have hreel : d.reel = s.dev.reel := by
    rw [h.same]
    rfl
  unfold Dev.runReady
  rw [hrings, h.mode, h.img, hreel, show d.on Reg.TB_STATUS_SLATE_LOCK = s.dev.on Reg.TB_STATUS_SLATE_LOCK from by unfold Dev.on; rw [h.rd]]

theorem ends_glbGo (hr : s.dev.runReady = true) (hh : s.dev.rl.startHost = true) (hok : s.dev.Takes req) : Ends (.glbGo t req) s fun d => d.mode = .run ∧ d.pins.ready = true := by
  refine ends_hostWrite (exec_glbGo t req s) hok (by decide) ?_
  have hb := Dev.begins_storeWord t s.dev (1#32).toNat (off := 0x14) (by decide) (by decide +kernel)
  generalize (begin_ t s.dev).storeWord true 0x14 (1#32).toNat = d at hb
  have hrl : d.rl = s.dev.rl := by
    rw [hb.same]
    rfl
  have hw : d.afterWrite req 0x14 (1#32).toNat = d.runEnter := by
    have hgo : d.goWait = true := by
      unfold Dev.goWait
      rw [hb.runReady, hr, hrl, hh]
      rfl
    have h : d.afterWrite req 0x14 (1#32).toNat = d.hostRun := rfl
    rw [h]
    unfold Dev.hostRun
    exact if_pos hgo
  rw [hw]
  have hst : d.runEnter.stReq = [(.run, 4)] := by
    rw [Dev.runEnter_stReq, hb.stReq]
    rfl
  have hmode : (settle s.dev (d.runEnter.emit (.status req 0))).mode = .run := by
    rw [settle_mode, Dev.emit_stReq, hst, pickState_one 4 (by rw [Dev.runReady_mode hr]; rfl)]
    rfl
  exact ⟨hmode, (settle_settled _ _).ready hmode⟩

end

/-- Settles O8: each way through a boot asks for one state, and what it leaves of the image state goes into it. -/
theorem bootLoadsAndEntersRun : Obligations.BootLoadsAndEntersRun := by
  unfold Obligations.BootLoadsAndEntersRun
  intro s t req k damaged r e
  refine ⟨?_, ?_, ?_, ?_, ?_⟩
  · exact fun hm hl hb hk hv => ⟨ends_bootAccepted hm hl hb hv, ends_bootRefused hm hl hb hk hv⟩
  · exact ends_bootStrapped
  · exact ends_structureBuilt
  · exact ends_enterRun
  · exact ends_glbGo

end Sys2Proof.Machine
end

section
/-!
PROOFS. Proofs/Activation.lean: the activate command, and the end of a Wrap in QUIET or HALT (R27, R107, R108, R465).
-/
namespace Sys2Proof.Machine

section
variable {s : State} {t req : Nat} {v : Word} {damaged : Bool} {a : Activate} {r : Reel} {w : WrapRun}

/-! ### The command -/

theorem orFour_bits (v : Word) : bitAt (v ||| 4#32).toNat 0 = v.getLsbD 0 ∧ bitAt (v ||| 4#32).toNat 1 = v.getLsbD 1 ∧ bitAt (v ||| 4#32).toNat 2 = true := by
  rw [bitAt_eq_testBit, bitAt_eq_testBit, bitAt_eq_testBit]
  refine ⟨?_, ?_, ?_⟩
  · show (v ||| 4#32).getLsbD 0 = v.getLsbD 0
    simp [BitVec.getLsbD_or]
  · show (v ||| 4#32).getLsbD 1 = v.getLsbD 1
    simp [BitVec.getLsbD_or]
  · show (v ||| 4#32).getLsbD 2 = true
    simp [BitVec.getLsbD_or]

theorem bitsOf_orFour (v : Word) : bitsOf (v ||| 4#32).toNat 0 1 = v.toNat % 2 ∧ bitsOf (v ||| 4#32).toNat 1 1 = b2n (v.getLsbD 1) := by
  rw [bitsOf_one_eq _ 0 (by decide), bitsOf_one_eq _ 1 (by decide)]
  refine ⟨?_, ?_⟩
  · rw [show (v ||| 4#32).getLsbD 0 = v.getLsbD 0 by simp [BitVec.getLsbD_or], ← bitsOf_one_eq v 0 (by decide)]
    unfold bitsOf
    rw [Nat.pow_zero, Nat.div_one, Nat.pow_one]
  · rw [show (v ||| 4#32).getLsbD 1 = v.getLsbD 1 by simp [BitVec.getLsbD_or]]

theorem fieldsAt_actCtrl : fieldsAt 0x10080 = [Reg.IMG_ACT_CTRL_SLOT, Reg.IMG_ACT_CTRL_FORCE, Reg.IMG_ACT_CTRL_GO] := by decide +kernel

/-- The device that has taken an activation and given up its cut-over. -/
def Dev.activating (d : Dev) (k : Nat) (f : Bool) : Dev := { d.cutMiss 4 with img := { (d.cutMiss 4).img with act := some { slot := k, force := f } } }

theorem Dev.activate_taken {d : Dev} {f : Bool} (hs : d.rd Reg.IMG_ACT_CTRL_SLOT = v.toNat % 2) (hf : d.on Reg.IMG_ACT_CTRL_FORCE = f) (ha : d.img.act = none)
    (hm : d.mode = .dark ∨ d.mode = .quiet ∨ (d.mode = .run ∧ f = true)) :
    d.activate = (((d.activating (v.toNat % 2) f).imgResult 3 0).raise Ev.IMG_ACTIVATE (v.toNat % 2) (b2n f)).imgShow := by
  have hno : ¬ (d.mode ≠ .dark ∧ d.mode ≠ .quiet ∧ (!(d.mode == .run && f)) = true) := by
    rintro ⟨h1, h2, h3⟩
    rcases hm with h | h | ⟨h, hf'⟩
    · exact h1 h
    · exact h2 h
    · rw [h, hf'] at h3
      exact absurd h3 (by decide)
  unfold Dev.activate
  dsimp only
  rw [hs, hf, if_neg hno, ha, if_neg (by decide)]
  rfl

theorem ends_imgActivate (hok : s.dev.Takes req) (ha : s.dev.img.act = none) (hm : s.dev.mode = .dark ∨ s.dev.mode = .quiet ∨ (s.dev.mode = .run ∧ v.getLsbD 1 = true)) :
    Ends (.imgActivate t req v) s fun d => d.img.act = some { slot := v.toNat % 2, force := v.getLsbD 1 } ∧ d.img.cut = none ∧ d.rd Reg.IMG_RESULT_STATUS = 0 ∧
      d.rd Reg.IMG_RESULT_OP = 3 := by
  refine ends_hostWrite (exec_imgActivate t req v s) hok (by decide) ?_
  have hs := Dev.stored_storeWord t s.dev (v ||| 4#32).toNat (off := 0x10080) (by decide)
  have hslot := Dev.rd_storeWord_rw (begin_ t s.dev) (v ||| 4#32).toNat (off := 0x10080) (by decide) Reg.IMG_ACT_CTRL_SLOT 0 0 (pre := []) fieldsAt_actCtrl rfl rfl (by decide) (by decide)
  have hforce := Dev.rd_storeWord_rw (begin_ t s.dev) (v ||| 4#32).toNat (off := 0x10080) (by decide) Reg.IMG_ACT_CTRL_FORCE 0 0 (pre := [Reg.IMG_ACT_CTRL_SLOT]) fieldsAt_actCtrl rfl rfl
    (by decide) (by decide)
  generalize (begin_ t s.dev).storeWord true 0x10080 (v ||| 4#32).toNat = d at hs hslot hforce
  have hw : d.afterWrite req 0x10080 (v ||| 4#32).toNat = d.activate := by
    unfold Dev.afterWrite Dev.imgWrite
    rw [if_neg (by decide), if_pos (by decide), if_neg (by decide), if_neg (fun h => absurd h.1 (by decide)), if_neg (fun h => absurd h.1 (by decide)), if_pos ⟨rfl, (orFour_bits v).2.2⟩]
  have hon : d.on Reg.IMG_ACT_CTRL_FORCE = v.getLsbD 1 := by
    unfold Dev.on
    rw [hforce, show bitsOf (v ||| 4#32).toNat Reg.IMG_ACT_CTRL_FORCE.lo Reg.IMG_ACT_CTRL_FORCE.width = b2n (v.getLsbD 1) from (bitsOf_orFour v).2]
    cases v.getLsbD 1 <;> rfl
  rw [hw, Dev.activate_taken (v := v) (hslot.trans (bitsOf_orFour v).1) hon (by rw [hs.img]; exact ha) (by rw [hs.mode]; exact hm)]
  have hmiss := d.within_cutMiss 4
  have hact : (d.activating (v.toNat % 2) (v.getLsbD 1)).img.act = some { slot := v.toNat % 2, force := v.getLsbD 1 } := rfl
  have hcut : (d.activating (v.toNat % 2) (v.getLsbD 1)).img.cut = none := congrArg Img.cut hmiss.img
  have hst0 : (d.activating (v.toNat % 2) (v.getLsbD 1)).stReq = [] := hmiss.stReq.trans hs.stReq
  generalize d.activating (v.toNat % 2) (v.getLsbD 1) = x at hact hcut hst0
  have h1 := x.within_imgResult 3 0
  obtain ⟨hrs, hro⟩ := x.imgResult_shown (op := 3) (st := 0) (by decide) (by decide)
  generalize x.imgResult 3 0 = y at h1 hrs hro
  have h2 : y.Posts (y.raise Ev.IMG_ACTIVATE (v.toNat % 2) (b2n (v.getLsbD 1))) := Dev.Posts.raise _ _ _ _ (by decide)
  generalize y.raise Ev.IMG_ACTIVATE (v.toNat % 2) (b2n (v.getLsbD 1)) = z at h2
  have h3 := z.within_imgShow
  have himg : z.imgShow.img = x.img := h3.img.trans (h2.img.trans h1.img)
  have hst : z.imgShow.stReq = [] := h3.stReq.trans (h2.stReq.trans (h1.stReq.trans hst0))
  refine ⟨?_, ?_, ?_, ?_⟩
  · rw [settle_img_of _ hst, himg]
    exact hact
  · rw [settle_img_of _ hst, himg]
    exact hcut
  · rw [Dev.rd_settle_emit _ _ _ hst rfl (by decide), h3.rd rfl (by decide), h2.writes settleFields _ _ _ rfl (by decide)]
    exact hrs
  · rw [Dev.rd_settle_emit _ _ _ hst rfl (by decide), h3.rd rfl (by decide), h2.writes settleFields _ _ _ rfl (by decide)]
    exact hro

/-! ### A structure taken into QUIET -/

/-- A structure that is active in QUIET, its slot preferred and in trial. -/
structure Dev.Active (r : Reel) (k : Nat) (d : Dev) : Prop where
  mode : d.mode = .quiet
  reel : d.reel = some r
  bootSlot : d.img.bootSlot = k
  pref : d.img.pref = k
  trial : (d.slot k).trial = true
  act : d.img.act = none

/-- A build that ends in QUIET makes the structure active. -/
theorem ends_active {c : Instr} {f : Dev → Dev} {x : Dev} {k cause : Nat} {old : Option Reel} {kept : Nat → Bool} (hc : exec c s = s.run t f)
    (hf : f (begin_ t s.dev) = (((x.build r k old).quietEnter cause kept).prefer k).imgShow) (hst0 : x.stReq = []) (hact : x.img.act = none) (he : s.dev.mode.edge .quiet = true) :
    Ends c s fun d => d.Active r k := by
  obtain ⟨hst, hreel, himg⟩ := x.built_shown r k cause old kept
  generalize (x.build r k old).quietEnter cause kept = y at hf hst hreel himg
  obtain ⟨hpref, htrial, hpi⟩ := y.prefer_shown k
  obtain ⟨-, -, hpst, hpreel⟩ := y.prefer_regs k
  generalize y.prefer k = z at hf hpref htrial hpi hpst hpreel
  have hw := z.within_imgShow
  refine ends_moved hc (m := .quiet) (cause := cause) (by rw [hf, hw.stReq, hpst, hst, hst0]; rfl) he (by decide) fun u hu _ => ?_
  have hui : u.img = { z.img with otp := s.dev.img.otp.merge z.img.otp } := by
    rw [hu.img, hf, hw.img]
  refine ⟨hu.mode, ?_, ?_, ?_, ?_, ?_⟩
  · rw [hu.reel, hf, hw.reel, hpreel, hreel]
  · rw [hui, hpi, himg]
  · rw [hui]
    exact hpref
  · unfold Dev.slot at htrial ⊢
    rw [hui]
    exact htrial
  · rw [hui, hpi, himg]
    exact hact

theorem Dev.Active.all {d : Dev} {k : Nat} (h : d.Active r k) : d.mode = .quiet ∧ d.reel = some r ∧ d.img.bootSlot = k ∧ d.img.pref = k ∧ (d.slot k).trial = true ∧ d.img.act = none :=
  ⟨h.mode, h.reel, h.bootSlot, h.pref, h.trial, h.act⟩

theorem ends_activateBuildDone (ha : s.dev.img.act = some a) (hm : s.dev.mode = .dark ∨ s.dev.mode = .quiet) (hl : s.dev.loadSlot a.slot damaged = .inl r) :
    Ends (.activateBuildDone t damaged) s fun d => d.Active r a.slot := by
  have hc : (begin_ t s.dev).activateBuilt damaged = ((((begin_ t s.dev).noAct.build r a.slot none).quietEnter 3 (fun _ => false)).prefer a.slot).imgShow := by
    have ha' : (begin_ t s.dev).img.act = some a := ha
    have hl' : (begin_ t s.dev).noAct.loadSlot a.slot damaged = .inl r := hl
    have hno : ¬ ((begin_ t s.dev).mode ≠ .dark ∧ (begin_ t s.dev).mode ≠ .quiet) := by
      rintro ⟨h1, h2⟩
      exact hm.elim h1 h2
    unfold Dev.noAct at hl' ⊢
    unfold Dev.activateBuilt
    rw [ha']
    dsimp only
    rw [if_neg hno, hl']
  exact ends_active (exec_activateBuildDone t damaged s) hc rfl rfl (by rcases hm with h | h <;> rw [h] <;> rfl)

/-! ### FORCE -/

/-- The device whose activation has its shadow. -/
def Dev.shadowed (d : Dev) (a : Activate) (r : Reel) : Dev := { d with img := { d.img with act := some { a with shadow := some r } } }

theorem ends_forceShadowBuilt (ha : s.dev.img.act = some a) (hm : s.dev.mode = .run) (hf : a.force = true) (hsh : a.shadow = none) (hl : s.dev.loadSlot a.slot damaged = .inl r)
    (hw : s.dev.sin.switchWrap = none) : Ends (.forceShadowBuilt t damaged) s fun d => d.img.act = some { a with shadow := some r } ∧ 5 ∈ d.gaf.wrapReq ∧ d.mode = .run := by
  refine ends_of (exec_forceShadowBuilt t damaged s) ?_
  have hc : (begin_ t s.dev).forceBuilt damaged = ((begin_ t s.dev).shadowed a r).askWrap 5 := by
    have ha' : (begin_ t s.dev).img.act = some a := ha
    have hl' : (begin_ t s.dev).loadSlot a.slot damaged = .inl r := hl
    have hno : ¬ ((begin_ t s.dev).mode ≠ .run ∨ (!a.force) = true ∨ a.shadow.isSome = true) := by
      rw [show (begin_ t s.dev).mode = .run from hm, hf, hsh]
      decide
    unfold Dev.forceBuilt Dev.shadowed
    rw [ha']
    dsimp only
    rw [if_neg hno, hl']
  rw [hc]
  have hmode : ((begin_ t s.dev).shadowed a r).mode = .run := hm
  have hact : ((begin_ t s.dev).shadowed a r).img.act = some { a with shadow := some r } := rfl
  have hsw : ((begin_ t s.dev).shadowed a r).sin.switchWrap ≠ some 5 := by
    rw [show ((begin_ t s.dev).shadowed a r).sin.switchWrap = none from hw]
    exact nofun
  have hst0 : ((begin_ t s.dev).shadowed a r).stReq = [] := rfl
  generalize (begin_ t s.dev).shadowed a r = x at hmode hact hsw hst0
  have hask := Dev.askWrap_asks hmode (by decide) hsw
  obtain ⟨-, hst, -⟩ := Dev.askWrap_kept (cause := 5) hmode (by decide)
  have himg := (x.within_askWrap 5).img
  have hst' := hst.trans hst0
  refine ⟨?_, ?_, ?_⟩
  · rw [settle_img _ _ hst', himg]
    exact hact
  · rw [settle_gaf _ _ hst']
    exact hask
  · rw [settle_mode_calm _ _ hst']
    exact hm

/-! ### The end of a Wrap -/

/-- The device whose Wrap is reported done. -/
theorem Dev.wrapDoneEv_kept (d : Dev) (w : WrapRun) : Dev.Within [Reg.GAF_WRAP_TIME_ELAPSED] d (d.wrapDoneEv w) :=
  (Dev.Within.wr d _ rfl (by simp)).trans (Dev.Within.raise _ _ _ _ _ (by decide))

/-- The pages of the tag are to show what has changed. -/
def Dev.tagDirty (d : Dev) : Dev := { d with pst := { d.pst with tag := { d.pst.tag with dirty := true } } }

theorem Dev.wrapComplete_ready {d : Dev} (hg : d.gaf.wrap = some w) (hm : d.mode = .wrap) (hr : d.wrapReady = true) (hs : w.toHalt = true → d.rd Reg.SWP_CTRL_SLEEP_HALT = 0) :
    d.wrapComplete = (d.wrapDoneEv w).wrapFinish w := by
  have hsleep : ¬ (w.toHalt && (d.wrapDoneEv w).on Reg.SWP_CTRL_SLEEP_HALT) = true := by
    unfold Dev.on
    rw [(d.wrapDoneEv_kept w).rd rfl (by decide)]
    intro h
    obtain ⟨h1, h2⟩ := (Bool.and_eq_true_iff).1 h
    rw [hs h1] at h2
    exact absurd h2 (by decide)
  have hno : ¬ (d.mode ≠ .wrap || !d.wrapReady) = true := by
    rw [hm, hr]
    decide
  unfold Dev.wrapComplete
  rw [hg]
  dsimp only
  rw [if_neg hno, if_neg hsleep]

/-- What the build of an activation starts from at the end of a Wrap. -/
def Dev.wrapLeft (d : Dev) : Dev := { ({ d.leaveLive.gafClear with img := { d.img with act := none } } : Dev) with mode := .quiet }

theorem Dev.wrapFinish_active {d : Dev} (hh : w.toHalt = false) (ha : d.img.act = some a) (hs : a.shadow = some r) :
    ∃ (x : Dev) (kept : Nat → Bool), d.wrapFinish w = (((x.build r a.slot (some d.rl)).quietEnter 6 kept).prefer a.slot).imgShow ∧ x.stReq = d.stReq ∧ x.img.act = none := by
  have hl : d.tagDirty.leaveLive.gafClear.stReq = d.stReq := (Dev.spares_gafClear _).2.1.trans (Dev.spares_leaveLive _).2.1
  unfold Dev.wrapFinish
  rw [hh]
  dsimp only
  rw [if_neg (by decide), ha]
  dsimp only [Option.bind_some]
  rw [hs]
  exact ⟨_, _, rfl, hl, rfl⟩

theorem ends_wrapComplete_active (ha : s.dev.img.act = some a) (hm : s.dev.mode = .wrap) (hg : s.dev.gaf.wrap = some w) (hr : s.dev.wrapReady = true) (hh : w.toHalt = false)
    (hs : a.shadow = some r) : Ends (.wrapComplete t) s fun d => d.Active r a.slot := by
  have hc : (begin_ t s.dev).wrapComplete = ((begin_ t s.dev).wrapDoneEv w).wrapFinish w := Dev.wrapComplete_ready hg hm hr (fun h => by rw [hh] at h; exact absurd h (by decide))
  have hw := (begin_ t s.dev).wrapDoneEv_kept w
  obtain ⟨x, kept, hx, hst, hact⟩ := Dev.wrapFinish_active (d := (begin_ t s.dev).wrapDoneEv w) hh (by rw [hw.img]; exact ha) hs
  exact ends_active (exec_wrapComplete t s) (hc.trans hx) (hst.trans (hw.stReq.trans rfl)) hact (by rw [hm]; rfl)

theorem Dev.wrapFinish_halts {d : Dev} (hh : w.toHalt = true) : (d.wrapFinish w).stReq = d.stReq ++ [(.halt, 6)] := by
  have h : d.wrapFinish w = d.tagDirty.wrapHalt := by
    unfold Dev.wrapFinish
    rw [hh]
    rfl
  rw [h]
  unfold Dev.wrapHalt
  refine congrArg (· ++ [(DevState.halt, 6)]) ?_
  show (if d.tagDirty.on Reg.WCH_CTRL_SLEEP_ON_HALT then d.tagDirty.wakeRelease else d.tagDirty).stReq = d.stReq
  split
  · exact Dev.wr_stReq d.tagDirty Reg.WCH_STATUS_MAIN_REQ 0 0 0
  · rfl

theorem ends_wrapComplete_halt (hm : s.dev.mode = .wrap) (hg : s.dev.gaf.wrap = some w) (hr : s.dev.wrapReady = true) (hh : w.toHalt = true) (hs : s.dev.rd Reg.SWP_CTRL_SLEEP_HALT = 0) :
    Ends (.wrapComplete t) s fun d => d.mode = .halt ∧ d.pins.faultN = false ∧ d.pins.tripH = 0 ∧ d.pins.tripP = 0 := by
  have hc : (begin_ t s.dev).wrapComplete = ((begin_ t s.dev).wrapDoneEv w).wrapFinish w := Dev.wrapComplete_ready hg hm hr (fun _ => hs)
  have hw := (begin_ t s.dev).wrapDoneEv_kept w
  refine ends_asked (exec_wrapComplete t s) (m := .halt) (cause := 6) (by rw [hc, Dev.wrapFinish_halts hh, hw.stReq]; rfl) (by rw [hm]; rfl) fun hmode hset => ?_
  have htrip := hset.no_trip fun h => by
    have hl := h.1
    unfold Dev.live at hl
    rw [hmode] at hl
    exact absurd hl (by decide)
  exact ⟨hmode, hset.faultN (.inr hmode), htrip⟩

end

/-- Settles O12: what is built is made preferred before QUIET is entered, and a Wrap that ends in HALT asks for nothing else. -/
theorem activationAndEndOfWrap : Obligations.ActivationAndEndOfWrap := by
  unfold Obligations.ActivationAndEndOfWrap
  intro s t req v damaged a r w active
  refine ⟨?_, fun ha => ⟨fun hm hl => ?_, ?_, fun hm hg hr hh hs => ?_⟩, ?_⟩
  · exact ends_imgActivate
  · obtain ⟨u, hu, hp, h⟩ := ends_activateBuildDone (t := t) ha hm hl
    exact ⟨u, hu, hp, h.all⟩
  · exact ends_forceShadowBuilt ha
  · obtain ⟨u, hu, hp, h⟩ := ends_wrapComplete_active (t := t) ha hm hg hr hh hs
    exact ⟨u, hu, hp, h.all⟩
  · exact ends_wrapComplete_halt

end Sys2Proof.Machine
end

section
/-!
PROOFS. Proofs/CutoverStructure.lean: taking up a new structure at a cut-over leaves the image controller, its status and the device state alone (R104).
-/
namespace Sys2Proof.Machine

/-- A value listed under a key that a filter keeps is found there still. -/
theorem Tbl.get_filter {α : Type} (t : Tbl α) (p : Nat × α → Bool) (k : Nat) (e : α) (h : ∀ v, p (k, v) = true) : Tbl.get (t.filter p) k e = Tbl.get t k e := by
  induction t with
  | nil => rfl
  | cons x t ih =>
    rw [List.filter_cons, Tbl.get_cons]
    by_cases hk : k = x.1
    · rw [if_pos hk, if_pos (by rw [← Prod.mk.eta (p := x), ← hk]; exact h _), Tbl.get_cons, if_pos hk]
    · rw [if_neg hk]
      split
      · rw [Tbl.get_cons, if_neg hk, ih]
      · exact ih

/-- A step of a subsystem: the state and the changes of state asked for, the image controller and the cut-over status it shows are as they were. -/
structure Dev.Aside (d e : Dev) : Prop where
  mode : e.mode = d.mode
  stReq : e.stReq = d.stReq
  img : e.img = d.img
  status : e.word 0x10000 = d.word 0x10000

namespace Dev.Aside
variable {d e x : Dev}

theorem refl (d : Dev) : d.Aside d := ⟨rfl, rfl, rfl, rfl⟩

theorem trans (h : d.Aside e) (k : e.Aside x) : d.Aside x := ⟨k.mode.trans h.mode, k.stReq.trans h.stReq, k.img.trans h.img, k.status.trans h.status⟩

/-- A device that differs elsewhere than in its registers. -/
theorem keep (h : d.Aside e) (hm : x.mode = e.mode) (hs : x.stReq = e.stReq) (hi : x.img = e.img) (hr : x.regs = e.regs) : d.Aside x :=
  h.trans ⟨hm, hs, hi, Dev.word_congr hr _⟩

theorem of_spares (l : d.Spares e) (hw : e.word 0x10000 = d.word 0x10000) : d.Aside e := ⟨l.1, l.2.1, l.2.2.2.2.2.1, hw⟩

theorem setWord {off : Nat} {w : Word} (h : d.Aside e) (ho : 0x20000 ≤ off) : d.Aside (e.setWord off w) :=
  h.trans ⟨rfl, rfl, rfl, Dev.word_setWord_ne e w (by omega)⟩

theorem wr {f : Field} {v i j : Nat} (h : d.Aside e) (hf : 0x20000 ≤ f.base) : d.Aside (e.wr f v i j) :=
  h.setWord (hf.trans (f.base_le_addr i j))

theorem wrI {f : Field} {v : Int} {i j : Nat} (h : d.Aside e) (hf : 0x20000 ≤ f.base) : d.Aside (e.wrI f v i j) := h.wr hf
theorem set1 {f : Field} {i j : Nat} (h : d.Aside e) (hf : 0x20000 ≤ f.base) : d.Aside (e.set1 f i j) := h.wr hf
theorem clr {f : Field} {i j : Nat} (h : d.Aside e) (hf : 0x20000 ≤ f.base) : d.Aside (e.clr f i j) := h.wr hf
theorem bump {f : Field} {n i j : Nat} (h : d.Aside e) (hf : 0x20000 ≤ f.base) : d.Aside (e.bump f n i j) := h.wr hf

theorem pst {y : Pst} (h : d.Aside e) : d.Aside { e with pst := y } := h.keep rfl rfl rfl rfl
theorem trd {y : Trd} (h : d.Aside e) : d.Aside { e with trd := y } := h.keep rfl rfl rfl rfl
theorem setRq {req : Nat} {r : Req} (h : d.Aside e) : d.Aside (e.setRq req r) := h.keep rfl rfl rfl rfl
theorem setTile {g : Nat} {y : Tile} (h : d.Aside e) : d.Aside (e.setTile g y) := h.keep rfl rfl rfl rfl
theorem setLctx {c : Nat} {y : LCtx} (h : d.Aside e) : d.Aside (e.setLctx c y) := h.keep rfl rfl rfl rfl
theorem setTs {c : Nat} {y : TStr} (h : d.Aside e) : d.Aside (e.setTs c y) := h.keep rfl rfl rfl rfl
theorem setTri {c : Nat} {y : Triad} (h : d.Aside e) : d.Aside (e.setTri c y) := h.keep rfl rfl rfl rfl
theorem setNp {c : Nat} {y : NetPort} (h : d.Aside e) : d.Aside (e.setNp c y) := h.keep rfl rfl rfl rfl
theorem setCan {c : Nat} {y : CanCtl} (h : d.Aside e) : d.Aside (e.setCan c y) := h.keep rfl rfl rfl rfl
theorem setLr {c : Nat} {y : LRing} (h : d.Aside e) : d.Aside (e.setLr c y) := h.keep rfl rfl rfl rfl
theorem setFilt {c : Nat} {y : Filt} (h : d.Aside e) : d.Aside (e.setFilt c y) := h.keep rfl rfl rfl rfl
theorem setTfilt {c : Nat} {y : Filt} (h : d.Aside e) : d.Aside (e.setTfilt c y) := h.keep rfl rfl rfl rfl
theorem setWch {y : Wch} (h : d.Aside e) : d.Aside (e.setWch y) := h.keep rfl rfl rfl rfl
theorem emit {o : Out} (h : d.Aside e) : d.Aside (e.emit o) := h.keep rfl rfl rfl rfl

theorem posts (h : d.Aside e) (k : e.Posts x) : d.Aside x := h.trans ⟨k.mode, k.stReq, k.img, k.words _ (by decide)⟩

theorem raise {ev : Ev} {inst data : Nat} (h : d.Aside e) (hs : ev.sev < 5) : d.Aside (e.raise ev inst data) := h.posts (Dev.Posts.raise _ _ _ _ hs)

theorem ite {a b : Dev} {c : Prop} [Decidable c] (ha : d.Aside a) (hb : d.Aside b) : d.Aside (if c then a else b) := by
  split
  · exact ha
  · exact hb

theorem foldl {β : Type} {f : Dev → β → Dev} {l : List β} (h : d.Aside e) (hf : ∀ (x : Dev) b, x.Aside (f x b)) : d.Aside (l.foldl f e) := by
  induction l generalizing e with
  | nil => exact h
  | cons b l ih => exact ih (h.trans (hf e b))

theorem dropRegs {lo hi : Nat} (h : d.Aside e) (hl : 0x20000 ≤ lo) : d.Aside (e.dropRegs lo hi) := by
  refine h.trans ⟨rfl, rfl, rfl, Tbl.get_filter _ _ _ _ fun v => ?_⟩
  rw [decide_eq_true (show 0x10000 < lo by omega)]
  rfl

end Dev.Aside

section
variable (d : Dev)

/-! ### Queues, estimators and loops -/

theorem Dev.aside_fabricLeave (req : Nat) : d.Aside (d.fabricLeave req) := by
  refine (Dev.Aside.refl d).foldl fun x qid => ?_
  split
  · exact Dev.Aside.refl x
  · exact ((Dev.Aside.refl x).posts (Dev.Posts.applyRes _ _ _)).ite (Dev.Aside.refl x)

theorem Dev.aside_qfSizes : d.Aside d.qfSizes := (Dev.Aside.refl d |>.wr (by decide) |>.wr (by decide))

theorem Dev.Aside.qfResult {d e : Dev} (h : d.Aside e) (req st qid len : Nat) : d.Aside (e.qfResult req st qid len) := h.setRq

theorem Dev.aside_hostTimeout (req : Nat) : d.Aside (d.hostTimeout req) := by
  unfold Dev.hostTimeout
  split
  · exact Dev.Aside.refl d
  · exact ((Dev.Aside.refl d).qfResult req 2 _ 0).setRq.emit

theorem Dev.aside_qfCutover (old : Reel) : d.Aside (d.qfCutover old) := by
  unfold Dev.qfCutover
  extract_lets new was moves to_ made waits e1 e2 lost e3
  have h1 : d.Aside e1 := (Dev.Aside.refl d).keep rfl rfl rfl rfl
  have h2 : d.Aside e2 := h1.foldl fun x q => (Dev.Aside.refl x).posts (Dev.Posts.applyRes x _ _)
  have h3 : d.Aside e3 := h2.foldl fun x q => (Dev.Aside.refl x |>.raise (ev := Ev.IMG_CARRY_DROP) (by decide))
  refine ((h3 |>.wr (by decide)).trans (Dev.aside_qfSizes _)).foldl fun x req => ?_
  split
  · split
    · exact (Dev.Aside.refl x).setRq
    · exact x.aside_hostTimeout _
  · exact Dev.Aside.refl x

theorem Dev.aside_clearImp (ch : Nat) : d.Aside (d.clearImp ch) :=
  (Dev.Aside.refl d).foldl fun x e => ((Dev.Aside.refl x).setWord ((show 0x20000 ≤ Reg.EST_IMP0_R_OHM.base by decide).trans (Field.base_le_addr _ _ _))).setWord
    ((show 0x20000 ≤ Reg.EST_IMP1_COUNT.base by decide).trans (Field.base_le_addr _ _ _))

theorem Dev.aside_estCutover (old : Reel) (g : Nat) : d.Aside (d.estCutover old g) := by
  unfold Dev.estCutover
  extract_lets chs e1 e2
  have h1 : d.Aside e1 := (Dev.Aside.refl d).foldl fun x c => by
    have hw : x.Aside (x.wr Reg.EST_CH_STAT_SET (x.rl.estSet c) c) := (Dev.Aside.refl x |>.wr (by decide))
    exact hw.ite (((hw.trans (Dev.aside_clearImp _ c)) |>.raise (ev := Ev.IMG_CARRY_DROP) (by decide)))
  exact (h1 |>.wr (f := Reg.EST_TILE_IN_BOUND) (by decide) |>.setTile)

theorem Dev.aside_lpeBuild (c : Nat) : d.Aside (d.lpeBuild c) := by
  have h0 := (Dev.Aside.refl d)
  unfold Dev.lpeBuild
  extract_lets l e p str e1 e2 e3 e4 e5 e6 e7 e8 e9
  have h4 : d.Aside e4 := (h0 |>.wr (by decide) |>.wr (by decide) |>.wr (by decide) |>.wr (by decide) |>.wr (by decide) |>.wr (by decide) |>.wr (by decide) |>.wr (by decide) |>.set1 (by decide) |>.wr (by decide) |>.wr (by decide) |>.wr (by decide) |>.wr (by decide) |>.wr (by decide))
  have h5 : d.Aside e5 := h4.foldl fun x n => (Dev.Aside.refl x |>.wrI (by decide) |>.wrI (by decide) |>.wrI (by decide) |>.wrI (by decide) |>.wr (by decide) |>.wr (by decide) |>.wr (by decide))
  have h6 : d.Aside e6 := h5.foldl fun x n => (Dev.Aside.refl x |>.wr (by decide))
  have h7 : d.Aside e7 := h6.foldl fun x n => (Dev.Aside.refl x |>.wrI (by decide))
  have h8 : d.Aside e8 := h7.foldl fun x n => (Dev.Aside.refl x |>.wrI (by decide))
  have h9 : d.Aside e9 := h8.foldl fun x n => (Dev.Aside.refl x |>.wr (by decide))
  exact h9.foldl fun x n => (Dev.Aside.refl x |>.wrI (by decide))

theorem Dev.Aside.table {d e : Dev} (h : d.Aside e) (f : Field) (rows cols w c : Nat) (v : Nat → Nat → Int) (hf : 0x20000 ≤ f.base) :
    d.Aside ((List.range rows).foldl (fun (d : Dev) i => (List.range cols).foldl (fun (d : Dev) k => d.wrI f (v i k) c (w * i + k)) d) e) :=
  h.foldl fun x _ => (Dev.Aside.refl x).foldl fun y _ => (Dev.Aside.refl y).wrI hf

theorem Dev.aside_lpeShow (c g : Nat) : d.Aside (d.lpeShow c g) :=
  (((((Dev.Aside.refl d).table Reg.LPE_A_A _ _ _ _ _ (by decide)).table Reg.LPE_B_B _ _ _ _ _ (by decide)).table Reg.LPE_L_L _ _ _ _ _ (by decide)).table Reg.LPE_K_K _ _ _ _ _ (by decide)).table Reg.LPE_KR_KR _ _ _ _ _ (by decide)

theorem Dev.aside_lpeFresh (c : Nat) : d.Aside (d.lpeFresh c) := by
  unfold Dev.lpeFresh
  extract_lets e1 e2 e3 e4 e5 e6 g e7 e8
  have h1 : d.Aside e1 := (Dev.Aside.refl d).setLctx
  have h2 : d.Aside e2 := h1.foldl fun x n => (Dev.Aside.refl x |>.wr (by decide))
  have h3 : d.Aside e3 := h2.foldl fun x n => (Dev.Aside.refl x |>.wr (by decide) |>.wrI (by decide))
  have h4 : d.Aside e4 := h3.foldl fun x n => (Dev.Aside.refl x |>.wr (by decide) |>.wr (by decide))
  have h5 : d.Aside e5 := h4.foldl fun x n => (Dev.Aside.refl x |>.wr (by decide))
  have h6 : d.Aside e6 := h5.setWord ((show 0x20000 ≤ Reg.LPE_CTX_STAT_STATE.base by decide).trans (Field.base_le_addr _ _ _))
  have h7 : d.Aside e7 := (h6 |>.wr (by decide)).trans (Dev.aside_lpeShow _ _ _)
  exact ((h7.setWord ((show 0x20000 ≤ Reg.LPE_CTX_FLAGS_ABSENT.base by decide).trans (Field.base_le_addr _ _ _))) |>.wr (by decide) |>.wr (by decide))

theorem Dev.aside_lpeCutover (old : Reel) : d.Aside (d.lpeCutover old) := by
  unfold Dev.lpeCutover
  extract_lets new gone e1
  have h1 : d.Aside e1 := (Dev.Aside.refl d).foldl fun x c => (Dev.Aside.refl x).setLctx.dropRegs (by omega)
  refine h1.foldl fun x c => ?_
  extract_lets l same g og us y k kr x1 x2
  refine Dev.Aside.ite ?_ ?_
  · have hb : x.Aside x2 := (x.aside_lpeBuild c).foldl fun z n => (Dev.Aside.refl z |>.wrI (by decide))
    exact hb.setLctx.trans (Dev.aside_lpeShow _ c g)
  · exact ((Dev.Aside.dropRegs (Dev.Aside.refl x) (by omega)).trans (Dev.aside_lpeBuild _ c)).trans (Dev.aside_lpeFresh _ c)

/-! ### Dispatch and trips -/

theorem Dev.aside_dspBuild : d.Aside d.dspBuild := by
  unfold Dev.dspBuild
  extract_lets so first e1 e2
  have h1 : d.Aside e1 := (Dev.Aside.refl d).keep rfl rfl rfl rfl
  have h2 : d.Aside e2 := h1.ite (h1 |>.wr (by decide) |>.wr (by decide) |>.wr (by decide))
  exact h2.foldl fun x s => (Dev.Aside.refl x |>.wr (by decide) |>.wr (by decide) |>.wr (by decide) |>.wr (by decide) |>.wr (by decide) |>.wr (by decide))

theorem Dev.aside_dspShow : d.Aside d.dspShow := (Dev.Aside.refl d |>.wr (by decide) |>.wr (by decide))

theorem Dev.aside_dspCutover : d.Aside d.dspCutover := by
  unfold Dev.dspCutover
  extract_lets keep src cur en der so gone fresh e1 e2 e3 e4 e5 e6
  have h1 : d.Aside e1 := (Dev.Aside.refl d).foldl fun x s => (Dev.Aside.refl x).dropRegs (by omega)
  have h2 : d.Aside e2 := h1.trans (Dev.aside_dspBuild e1)
  have h3 : d.Aside e3 := h2.foldl fun x s => (Dev.Aside.refl x).setWord ((show 0x20000 ≤ Reg.DSP_STR_DER_REQUESTED.base by decide).trans (Field.base_le_addr _ _ _))
  have h4 : d.Aside e4 := h3.keep rfl rfl rfl rfl
  have h5 : d.Aside e5 := (h4 |>.wr (by decide)).ite h4
  have h6 : d.Aside e6 := (h5 |>.wr (by decide)).ite h5
  exact ((h6 |>.wr (by decide)).ite h6).trans (Dev.aside_dspShow _)

theorem Dev.aside_nvRead (kind key : Nat) : d.Aside (d.nvRead kind key).1 := by
  have h0 := Dev.Aside.refl d
  unfold Dev.nvRead
  split
  · exact h0
  · split
    · exact h0
    · split
      · exact (h0.pst |>.bump (by decide) |>.raise (by decide))
      · extract_lets e
        have he : d.Aside e := (h0 |>.bump (by decide) |>.raise (by decide))
        split
        · exact he.keep rfl rfl rfl rfl
        · exact he.keep rfl rfl rfl rfl

theorem Dev.aside_trwOut : d.Aside d.trwOut := by
  have h : d.Aside (d.wr Reg.TRW_STATUS_LATCHED (d.rl.allStrings.filter (fun s => d.rd Reg.TRW_STR_CAUSE_CAUSES s != 0)).length) := (Dev.Aside.refl d |>.wr (by decide))
  exact h.keep rfl rfl rfl rfl

theorem Dev.aside_testAges : d.Aside d.testAges := by
  refine (Dev.Aside.refl d).foldl fun x s => ?_
  split <;> exact (Dev.Aside.refl x |>.wr (by decide))

theorem Dev.aside_trwBuild : d.Aside d.trwBuild := by
  unfold Dev.trwBuild
  extract_lets e1 e2 e3
  have h1 : d.Aside e1 := (Dev.Aside.refl d).foldl fun x n => by
    split
    · exact (Dev.Aside.refl x |>.set1 (by decide)).foldl fun y k => (Dev.Aside.refl y |>.wr (by decide))
    · exact (Dev.Aside.refl x |>.clr (by decide)).foldl fun y k => (Dev.Aside.refl y |>.wr (by decide))
  have h2 : d.Aside e2 := h1.foldl fun x n => (Dev.Aside.refl x |>.wr (by decide) |>.wr (by decide))
  have h3 : d.Aside e3 := h2.foldl fun x s => by
    have h := x.aside_nvRead 3 s
    generalize x.nvRead 3 s = p at h
    exact h.setTs
  exact ((h3 |>.wr (by decide)).trans (Dev.aside_testAges _)).trans (Dev.aside_trwOut _)

/-! ### Triads -/

theorem Dev.aside_setLst (tr lane st : Nat) : d.Aside (d.setLst tr lane st) := (Dev.Aside.refl d |>.wr (by decide))

theorem Dev.aside_readmitEnd (tr st : Nat) : d.Aside (d.readmitEnd tr st) := by
  unfold Dev.readmitEnd
  extract_lets z e1
  split
  · exact Dev.Aside.refl d
  · extract_lets e2
    have h1 : d.Aside e1 := (Dev.Aside.refl d).setTri
    have h2 : d.Aside e2 := (h1.trans (Dev.aside_setLst _ _ _ _)).ite h1
    exact (h2 |>.clr (by decide) |>.wr (by decide) |>.raise (by decide))

theorem Dev.aside_setLane (tr lane : Nat) (x : Lane) : d.Aside (d.setLane tr lane x) := (Dev.Aside.refl d).setTri

theorem Dev.aside_dropWait (tr l : Nat) : d.Aside (d.dropWait tr l) := by
  unfold Dev.dropWait
  extract_lets q e
  have h : d.Aside e := (Dev.Aside.refl d).keep rfl rfl rfl rfl
  exact h.foldl fun x k => Dev.aside_setLane _ _ _ _

theorem Dev.aside_lockFree (req : Nat) : d.Aside (d.lockFree req) := by
  unfold Dev.lockFree
  split
  · exact Dev.Aside.refl d
  · exact ((Dev.Aside.refl d).trd.clr (by decide)).ite (Dev.Aside.refl d)

theorem Dev.aside_loadLane (tr lane : Nat) (x : Rec) (keepData : Bool) : d.Aside (d.loadLane tr lane x keepData) := Dev.aside_setLane _ _ _ _

theorem Dev.aside_trwAuth (on : Bool) : d.Aside (d.trwAuth on) := (Dev.Aside.refl d).ite (Dev.Aside.refl d |>.wr (by decide) |>.raise (by decide))

theorem Dev.aside_note (kind tr lane pc : Nat) : d.Aside (d.note kind tr lane pc) := by
  have h := Dev.spares_note d kind tr lane pc
  refine Dev.Aside.of_spares h (Dev.word_congr ?_ _)
  unfold Dev.note
  split
  · rfl
  · exact Dev.peerSend_regs _ _ _ _

theorem Dev.aside_trdSync (tr : Nat) : d.Aside (d.trdSync tr) := by
  unfold Dev.trdSync
  extract_lets n run e1 taint auth e2
  have h1 : d.Aside e1 := (Dev.Aside.refl d |>.wr (by decide))
  have h2 : d.Aside e2 := (h1 |>.wr (by decide))
  exact ((h2.trans (Dev.aside_trwAuth _ _)).trans (Dev.aside_note _ _ _ _ _)).ite h2

theorem Dev.aside_trdCutover (old : Reel) : d.Aside (d.trdCutover old) := by
  refine (Dev.Aside.refl d).foldl fun x tr => ?_
  extract_lets e1 units e2
  have h2 : x.Aside e2 := ((x.aside_readmitEnd tr 7) |>.wr (by decide))
  refine h2.foldl fun y u => ?_
  refine (Dev.Aside.refl y).ite ?_
  extract_lets req e3 trd e4
  have h3 : y.Aside e3 := ((y.aside_dropWait _ _).trans (Dev.aside_fabricLeave _ _)).trans (Dev.aside_lockFree _ _)
  have h4 : y.Aside e4 := h3.keep rfl rfl rfl rfl
  split
  · exact h4
  · extract_lets keep e5 z e6
    have h5 : y.Aside e5 := h4.foldl fun w l => Dev.aside_loadLane _ _ _ _ _
    have h6 : y.Aside e6 := h5.setTri
    exact ((h6.trans (Dev.aside_trdSync _ _)) |>.raise (by decide))

/-! ### Networks, heat, fields and watch -/

theorem Dev.aside_macInstall (p key : Nat) : d.Aside (d.macInstall p key) := by
  unfold Dev.macInstall
  split
  · exact (Dev.Aside.refl d |>.setNp |>.clr (by decide) |>.clr (by decide) |>.clr (by decide))
  · exact (Dev.Aside.refl d |>.setNp |>.set1 (by decide))

theorem Dev.aside_netBuild : d.Aside d.netBuild := by
  refine (Dev.Aside.refl d).foldl fun x p => ?_
  split
  · extract_lets was e same
    have h : x.Aside e := (Dev.Aside.refl x |>.wr (by decide) |>.wr (by decide) |>.wr (by decide))
    exact (h |>.clr (by decide)).ite (h.ite (h.trans (Dev.aside_macInstall _ _ _)))
  · exact (Dev.Aside.refl x |>.clr (by decide) |>.clr (by decide) |>.clr (by decide) |>.clr (by decide) |>.setNp)

theorem Dev.aside_balFit (c : Nat) : d.Aside (d.balFit c) := by
  unfold Dev.balFit
  extract_lets pool
  split
  · exact Dev.Aside.refl d
  · next p _ =>
    generalize fitPool (1000 * pool) 0 (p.cells.map (fun x => (x.1, 0, x.2))) = f
    refine (Dev.Aside.refl d).ite ?_
    extract_lets e
    have h : d.Aside e := (Dev.Aside.refl d).keep rfl rfl rfl rfl
    exact (h |>.wr (by decide) |>.wr (by decide) |>.wr (by decide) |>.raise (by decide))

theorem Dev.aside_heatEval (c : Nat) : d.Aside (d.heatEval c) := by
  unfold Dev.heatEval
  split
  · exact Dev.Aside.refl d
  · extract_lets t0 t1 t e1 g cap g' old e2
    have h1 : d.Aside e1 := by
      simp only [e1, t]
      split
      · exact (Dev.Aside.refl d |>.wrI (by decide))
      · exact Dev.Aside.refl d
    have h2 : d.Aside e2 := (h1 |>.wr (by decide))
    exact ((h2 |>.raise (by decide)).trans (Dev.aside_balFit _ c)).ite h2

theorem Dev.aside_gafBuild : d.Aside d.gafBuild := by
  unfold Dev.gafBuild
  extract_lets r e1 e2 e3 e4
  have h1 : d.Aside e1 := (Dev.Aside.refl d |>.wr (by decide) |>.wr (by decide) |>.wr (by decide))
  have h2 : d.Aside e2 := h1.foldl fun x c => (Dev.Aside.refl x |>.wr (by decide) |>.wr (by decide) |>.wr (by decide))
  have h3 : d.Aside e3 := (h2 |>.wr (by decide)).ite (h2 |>.wr (by decide))
  have h4 : d.Aside e4 := h3.foldl fun x c => (Dev.Aside.refl x |>.wr (by decide))
  exact h4.foldl fun x c => x.aside_heatEval _

theorem Dev.aside_fldBuild : d.Aside d.fldBuild := by
  unfold Dev.fldBuild
  extract_lets e1 e2 e3 e4
  have h1 : d.Aside e1 := (Dev.Aside.refl d).foldl fun x c => (Dev.Aside.refl x |>.clr (by decide)).ite ((Dev.Aside.refl x |>.wr (by decide)).ite (Dev.Aside.refl x))
  have h2 : d.Aside e2 := h1.foldl fun x c => (Dev.Aside.refl x |>.wr (by decide))
  have h3 : d.Aside e3 := h2.foldl fun x c => (Dev.Aside.refl x |>.wr (by decide) |>.wr (by decide) |>.wr (by decide))
  exact (h3 |>.wr (by decide) |>.wr (by decide))

theorem Dev.aside_wchBuild : d.Aside d.wchBuild := by
  unfold Dev.wchBuild
  extract_lets old cfg wch e1 en was e2 wch' e3
  have h1 : d.Aside e1 := (Dev.Aside.refl d |>.setWch)
  have h2 : d.Aside e2 := (h1 |>.wr (by decide) |>.wr (by decide))
  have h3 : d.Aside e3 := (h2 |>.setWch)
  refine h3.foldl fun x r => ?_
  extract_lets e4
  have h4 : x.Aside e4 := by
    simp only [e4]
    split
    · exact (Dev.Aside.refl x |>.set1 (by decide) |>.wr (by decide))
    · exact (Dev.Aside.refl x |>.clr (by decide) |>.clr (by decide))
  exact h4.ite (h4 |>.clr (by decide) |>.clr (by decide) |>.setWch)

/-! ### The structure -/

theorem Dev.aside_ringCutover (old : Reel) (g : Nat) : d.Aside (d.ringCutover old g) := by
  unfold Dev.ringCutover
  extract_lets new oldRec newRec lr e0 next cs ts e1 e2
  refine Dev.Aside.ite ?_ ?_
  · have h0 : d.Aside e0 := (Dev.Aside.refl d).setLr
    exact h0.keep rfl rfl rfl rfl
  · have h1 : d.Aside e1 := (Dev.Aside.refl d).foldl fun x s => (Dev.Aside.refl x).setFilt
    have h2 : d.Aside e2 := h1.foldl fun x s => (Dev.Aside.refl x).setTfilt
    exact ((h2.ite (h2 |>.bump (by decide))) |>.wr (by decide) |>.wr (by decide) |>.wr (by decide) |>.wr (by decide) |>.wr (by decide))

/-- A structure taken up leaves the device state, the image controller and the status of the cut-over. -/
theorem Dev.aside_structCutover (new : Reel) : d.Aside (d.structCutover new) := by
  unfold Dev.structCutover
  extract_lets old e1 e2 e3 e4 e5 e6 e7
  have h1 : d.Aside e1 := (Dev.Aside.refl d).foldl fun x req => x.aside_fabricLeave req
  have h2 : d.Aside e2 := h1.foldl fun x c => (Dev.Aside.refl x).setCan
  clear_value e2
  have h3 : d.Aside e3 := h2.keep rfl rfl rfl rfl
  have hs : d.Aside (e3.wr Reg.GLB_STATUS_SEALED (b2n new.sealed)) := h3.trans ⟨rfl, rfl, rfl, Dev.word_wr_ne _ _ _ _ _ (by decide)⟩
  have h4 : d.Aside e4 := hs.trans (Dev.aside_qfCutover _ _)
  have h5 : d.Aside e5 := h4.foldl fun x g => x.aside_estCutover old g
  have h6 : d.Aside e6 := ((h5.trans (Dev.aside_lpeCutover _ _)).trans (Dev.aside_dspCutover _)).trans (Dev.aside_trwBuild _)
  have h7 : d.Aside e7 := ((((h6.trans (Dev.aside_trdCutover _ _)).trans (Dev.aside_netBuild _)).trans (Dev.aside_gafBuild _)).trans (Dev.aside_fldBuild _)).trans (Dev.aside_wchBuild _)
  exact h7.foldl fun x g => x.aside_ringCutover old g

end

end Sys2Proof.Machine
end

section
/-!
PROOFS. Proofs/ScheduledCutover.lean: a cut-over is armed, its shadow built, its partners report, and it takes effect or is given up (R91, R102 to R105).
-/
namespace Sys2Proof.Machine

section
variable {s : State} {t req n k : Nat} {v : Word} {damaged : Bool} {c : Cut} {r : Reel}

/-! ### The command -/

/-- The device whose cut-over is as given and shown so. -/
def Dev.cutting (d : Dev) (st : Nat) (c : Option Cut) : Dev := { d.wr Reg.IMG_STATUS_CUT st with img := { d.img with cut := c } }

theorem Dev.cutting_kept (d : Dev) (st : Nat) (c : Option Cut) : (d.cutting st c).mode = d.mode ∧ (d.cutting st c).stReq = d.stReq ∧ (d.cutting st c).now = d.now ∧
    (d.cutting st c).reel = d.reel ∧ (d.cutting st c).img = { d.img with cut := c } := ⟨rfl, rfl, rfl, rfl, rfl⟩

theorem Dev.cutting_shown (d : Dev) {st : Nat} (c : Option Cut) (h : st < 4) : (d.cutting st c).rd Reg.IMG_STATUS_CUT = st :=
  (Dev.rd_wr_self d Reg.IMG_STATUS_CUT st 0 0 (by decide)).trans (Nat.mod_eq_of_lt h)

theorem Dev.cutArm_armed {d : Dev} (hm : d.mode = .run) (hk : d.rd Reg.IMG_CUT_CTRL_SLOT = k) (hv : (d.slot k).st = .valid) (hb : k ≠ d.img.bootSlot)
    (hn : ofFullTime (d.rd Reg.IMG_CUT_NS_NS) (d.rd Reg.IMG_CUT_SEC_LO_SEC) (d.rd Reg.IMG_CUT_SEC_HI_SEC) = some n) (hlo : d.now + 3 * oneSec ≤ n) (hhi : n ≤ d.now + 2592000 * oneSec)
    (hc : sameClass d.rl (reelOf (imageOf (inOrder (d.slot k).blocks))) = true) (hr : needsRestart d.rl (reelOf (imageOf (inOrder (d.slot k).blocks))) = false) :
    d.cutArm = ((d.cutting 1 (some { slot := k, time := n })).imgResult 2 0).raise Ev.IMG_CUT_ARMED k (n / oneSec % 2 ^ 32) := by
  unfold Dev.cutArm
  dsimp only
  rw [hk, hn]
  dsimp only
  rw [if_neg (fun h => h hm), if_neg (by rintro (h | h) <;> contradiction), if_neg (by omega), hc, hr, if_neg (by decide), if_neg (by decide)]
  rfl

theorem fieldsAt_cutCtrl : fieldsAt 0x1006C = [Reg.IMG_CUT_CTRL_SLOT, Reg.IMG_CUT_CTRL_ARM] := by decide +kernel

theorem bitsOf_orTwo (v : Word) : bitsOf (v ||| 2#32).toNat 0 1 = v.toNat % 2 := by
  rw [bitsOf_one_eq _ 0 (by decide), show (v ||| 2#32).getLsbD 0 = v.getLsbD 0 by simp [BitVec.getLsbD_or], ← bitsOf_one_eq v 0 (by decide)]
  unfold bitsOf
  rw [Nat.pow_zero, Nat.div_one, Nat.pow_one]

theorem ends_imgCutArm (hk : k = v.toNat % 2) (hm : s.dev.mode = .run) (hok : s.dev.Takes req) (hv : (s.dev.slot k).st = .valid) (hb : k ≠ s.dev.img.bootSlot)
    (hn : ofFullTime (s.dev.rd Reg.IMG_CUT_NS_NS) (s.dev.rd Reg.IMG_CUT_SEC_LO_SEC) (s.dev.rd Reg.IMG_CUT_SEC_HI_SEC) = some n) (hlo : s.dev.nowAt t + 3 * oneSec ≤ n)
    (hhi : n ≤ s.dev.nowAt t + 2592000 * oneSec) (hc : sameClass s.dev.rl (reelOf (imageOf (inOrder (s.dev.slot k).blocks))) = true)
    (hr : needsRestart s.dev.rl (reelOf (imageOf (inOrder (s.dev.slot k).blocks))) = false) :
    Ends (.imgCutArm t req v) s fun d => d.img.cut = some { slot := k, time := n } ∧ d.rd Reg.IMG_STATUS_CUT = 1 ∧ d.rd Reg.IMG_RESULT_STATUS = 0 ∧ d.rd Reg.IMG_RESULT_OP = 2 := by
  refine ends_hostWrite (exec_imgCutArm t req v s) hok (by decide) ?_
  have hs := Dev.stored_storeWord t s.dev (v ||| 2#32).toNat (off := 0x1006C) (by decide)
  have hslot := Dev.rd_storeWord_rw (begin_ t s.dev) (v ||| 2#32).toNat (off := 0x1006C) (by decide) Reg.IMG_CUT_CTRL_SLOT 0 0 (pre := []) fieldsAt_cutCtrl rfl rfl (by decide) (by decide)
  generalize (begin_ t s.dev).storeWord true 0x1006C (v ||| 2#32).toNat = d at hs hslot
  have hw : d.afterWrite req 0x1006C (v ||| 2#32).toNat = d.cutArm := by
    unfold Dev.afterWrite Dev.imgWrite
    rw [if_neg (by decide), if_pos (by decide), if_neg (by decide), if_neg (fun h => absurd h.1 (by decide)), if_pos ⟨rfl, (orTwo_bits v).2.1⟩]
  have hsl : ∀ j, d.slot j = s.dev.slot j := fun j => by unfold Dev.slot; rw [hs.img]
  have hrl : d.rl = s.dev.rl := by unfold Dev.rl; rw [hs.reel]
  rw [hw, Dev.cutArm_armed (hs.mode.trans hm) (hslot.trans ((bitsOf_orTwo v).trans hk.symm)) (by rw [hsl]; exact hv) (by rw [hs.img]; exact hb)
    (by rw [hs.rd (by decide), hs.rd (by decide), hs.rd (by decide)]; exact hn) (by rw [hs.now]; exact hlo) (by rw [hs.now]; exact hhi) (by rw [hsl, hrl]; exact hc)
    (by rw [hsl, hrl]; exact hr)]
  obtain ⟨-, hst0, -, -, himg0⟩ := d.cutting_kept 1 (some { slot := k, time := n })
  have hcut := d.cutting_shown (st := 1) (some { slot := k, time := n }) (by decide)
  generalize d.cutting 1 (some { slot := k, time := n }) = x at hst0 himg0 hcut
  have h1 := x.within_imgResult 2 0
  obtain ⟨hrs, hro⟩ := x.imgResult_shown (op := 2) (st := 0) (by decide) (by decide)
  generalize x.imgResult 2 0 = y at h1 hrs hro
  have h2 : y.Posts (y.raise Ev.IMG_CUT_ARMED k (n / oneSec % 2 ^ 32)) := Dev.Posts.raise _ _ _ _ (by decide)
  generalize y.raise Ev.IMG_CUT_ARMED k (n / oneSec % 2 ^ 32) = z at h2
  have hst : z.stReq = [] := h2.stReq.trans (h1.stReq.trans (hst0.trans hs.stReq))
  refine ⟨?_, ?_, ?_, ?_⟩
  · rw [settle_img_of _ hst, h2.img, h1.img, himg0]
  · rw [Dev.rd_settle_emit _ _ _ hst rfl (by decide), h2.rd rfl (by decide), h1.rd rfl (by decide)]
    exact hcut
  · rw [Dev.rd_settle_emit _ _ _ hst rfl (by decide), h2.rd rfl (by decide)]
    exact hrs
  · rw [Dev.rd_settle_emit _ _ _ hst rfl (by decide), h2.rd rfl (by decide)]
    exact hro

/-! ### Given up -/

theorem Dev.afterWrite_cutDisarm (d : Dev) {x : Nat} (h0 : bitAt x 0 = false) (h1 : bitAt x 1 = false) (h2 : bitAt x 2 = true) : d.afterWrite req 0x10004 x = d.cutDisarm := by
  unfold Dev.afterWrite Dev.imgWrite
  rw [if_neg (by decide), if_pos (by decide), if_pos rfl, h0, h1, h2]
  dsimp only
  rw [if_pos rfl, if_neg (by decide), if_neg (by decide)]

theorem ends_imgCutDisarm (hok : s.dev.Takes req) (hv : v &&& 3#32 = 0#32) :
    Ends (.imgCutDisarm t req v) s fun d => d.img.cut = none ∧ d.rd Reg.IMG_RESULT_STATUS = 0 ∧ d.rd Reg.IMG_RESULT_OP = 6 := by
  refine ends_hostWrite (exec_imgCutDisarm t req v s) hok (by decide) ?_
  have hs := Dev.stored_storeWord t s.dev (v ||| 4#32).toNat (off := 0x10004) (by decide)
  generalize (begin_ t s.dev).storeWord true 0x10004 (v ||| 4#32).toNat = d at hs
  have hbits : v.getLsbD 0 = false ∧ v.getLsbD 1 = false := by
    have h : ∀ i, (v &&& 3#32).getLsbD i = false := fun i => by rw [hv]; exact BitVec.getLsbD_zero ..
    have h0 := h 0
    have h1 := h 1
    rw [BitVec.getLsbD_and] at h0 h1
    exact ⟨(Bool.and_true _).symm.trans h0, (Bool.and_true _).symm.trans h1⟩
  obtain ⟨h0, h1, h2⟩ := orFour_bits v
  rw [Dev.afterWrite_cutDisarm d (h0.trans hbits.1) (h1.trans hbits.2) h2]
  unfold Dev.cutDisarm
  have h0 := d.within_cutMiss 4
  have hst0 : (d.cutMiss 4).stReq = [] := h0.stReq.trans hs.stReq
  have hcut : (d.cutMiss 4).img.cut = none := congrArg Img.cut h0.img
  generalize d.cutMiss 4 = x at hst0 hcut
  have h1 := x.within_imgResult 6 0
  obtain ⟨hrs, hro⟩ := x.imgResult_shown (op := 6) (st := 0) (by decide) (by decide)
  have hst : (x.imgResult 6 0).stReq = [] := h1.stReq.trans hst0
  refine ⟨?_, ?_, ?_⟩
  · rw [settle_img_of _ hst, h1.img]
    exact hcut
  · rw [Dev.rd_settle_emit _ _ _ hst rfl (by decide)]
    exact hrs
  · rw [Dev.rd_settle_emit _ _ _ hst rfl (by decide)]
    exact hro

theorem Dev.cutMiss_shown {d : Dev} (h : d.img.cut = some c) (why : Nat) : (d.cutMiss why).rd Reg.IMG_STATUS_CUT = 0 := by
  unfold Dev.cutMiss
  rw [h]
  exact (Dev.rd_raise_quiet _ _ _ _ Reg.IMG_STATUS_CUT 0 0 (by decide)).trans (Dev.rd_wr_self _ _ 0 0 0 (by decide))

theorem ends_cutMissed (hc : s.dev.img.cut = some c) (ht : c.time < s.dev.nowAt t + 1000000) (hr : s.dev.cutReady = false) :
    Ends (.cutMissed t) s fun d => d.img.cut = none ∧ d.rd Reg.IMG_STATUS_CUT = 0 := by
  refine ends_of (exec_cutMissed t s) ?_
  have hc' : (begin_ t s.dev).img.cut = some c := hc
  have hx : (begin_ t s.dev).cutLate = (begin_ t s.dev).cutMiss (if c.shadow.isNone then 1 else 2) := by
    unfold Dev.cutLate
    rw [hc']
    dsimp only
    rw [if_pos]
    rw [show (begin_ t s.dev).cutReady = false from hr, decide_eq_true (show c.time < (begin_ t s.dev).now + 1000000 from ht)]
    rfl
  rw [hx]
  generalize (if c.shadow.isNone then 1 else 2) = why
  have h := (begin_ t s.dev).within_cutMiss why
  have hst : ((begin_ t s.dev).cutMiss why).stReq = [] := h.stReq
  have hcut : ((begin_ t s.dev).cutMiss why).img.cut = none := congrArg Img.cut h.img
  have hshown := Dev.cutMiss_shown hc' why
  generalize (begin_ t s.dev).cutMiss why = e at hst hcut hshown
  refine ⟨?_, ?_⟩
  · rw [settle_img _ _ hst]
    exact hcut
  · rw [settle_rd_clear _ _ hst _ _ _ (by decide) (by decide)]
    exact hshown

/-! ### Ready -/

theorem Dev.within_cutCheck (d : Dev) : Dev.Within [Reg.IMG_STATUS_CUT] d d.cutCheck := by
  unfold Dev.cutCheck
  split
  · exact Dev.Within.refl _ d
  · exact Dev.Within.ite _ (Dev.Within.refl _ d) (Dev.Within.ite _ (Dev.Within.wr d 3 rfl (by simp)) (Dev.Within.refl _ d))

theorem Dev.cutCheck_solo {d : Dev} (h : d.solo = true) : d.cutCheck = d := by
  unfold Dev.cutCheck
  split
  · rfl
  · rw [if_pos (by rw [h]; simp)]

/-- The device that has noted a partner's cut time. -/
def Dev.reported (d : Dev) (link n : Nat) : Dev := { d with img := { d.img with reports := d.img.reports.ins (peerSender link) n } }

theorem ends_cutReady {link : Fin 4} {codeErr : Bool} {frame pay : List Byte} (hear : s.dev.Hears t link pfCutReady codeErr frame pay) (hn : ofTime12 pay 0 = some n) :
    Ends (.cutReady t link codeErr frame) s fun d => d.img.reports.find (peerSender link) = some n := by
  refine ends_onPeer (exec_cutReady t link codeErr frame s) hear fun seen => ?_
  have hst0 : ((begin_ t s.dev).heard link seen).stReq = [] := rfl
  generalize (begin_ t s.dev).heard link seen = d at hst0
  have hx : d.cutReport link pay = (d.reported link n).cutCheck := by
    unfold Dev.cutReport
    rw [hn]
    rfl
  rw [hx]
  have h := (d.reported link n).within_cutCheck
  rw [settle_img _ _ (h.stReq.trans hst0), h.img]
  exact Tbl.find_ins_self _ _ _

/-- A shadow built in time is kept and told to the peers. -/
theorem Dev.shadowBuilt_kept {d : Dev} (hc : d.img.cut = some c) (hm : d.mode = .run) (hs : c.shadow = none) (hl : d.loadSlot c.slot damaged = .inl r) (ht : d.now + 1000000 ≤ c.time) :
    ∃ pay, d.shadowBuilt damaged = (if (d.cutting 2 (some { c with shadow := some r })).solo then d.cutting 2 (some { c with shadow := some r })
      else (d.cutting 2 (some { c with shadow := some r })).peerSend (d.cutting 2 (some { c with shadow := some r })).peerLinks pfCutReady pay).cutCheck := by
  refine ⟨time12 c.time ++ toLe (imgId ((d.cutting 2 (some { c with shadow := some r })).slot c.slot).head) 8, ?_⟩
  unfold Dev.shadowBuilt
  rw [hc]
  dsimp only
  rw [if_neg (by rw [hm, hs]; simp), hl]
  dsimp only
  rw [if_neg (by omega)]
  rfl

theorem ends_shadowBuilt (hc : s.dev.img.cut = some c) (hm : s.dev.mode = .run) (hs : c.shadow = none) (hl : s.dev.loadSlot c.slot damaged = .inl r)
    (ht : s.dev.nowAt t + 1000000 ≤ c.time) : Ends (.shadowBuilt t damaged) s fun d =>
      d.img.cut = some { c with shadow := some r } ∧ (s.dev.solo = true → d.rd Reg.IMG_STATUS_CUT = 2) := by
  refine ends_of (exec_shadowBuilt t damaged s) ?_
  obtain ⟨pay, hx⟩ := Dev.shadowBuilt_kept (d := begin_ t s.dev) hc hm hs hl ht
  rw [hx]
  have hst0 : ((begin_ t s.dev).cutting 2 (some { c with shadow := some r })).stReq = [] := rfl
  have hsolo : ((begin_ t s.dev).cutting 2 (some { c with shadow := some r })).solo = s.dev.solo := by
    unfold Dev.solo Dev.rl
    rw [((begin_ t s.dev).cutting_kept 2 (some { c with shadow := some r })).2.2.2.1]
    rfl
  have himg : ((begin_ t s.dev).cutting 2 (some { c with shadow := some r })).img.cut = some { c with shadow := some r } := rfl
  have hshown := (begin_ t s.dev).cutting_shown (st := 2) (some { c with shadow := some r }) (by decide)
  generalize (begin_ t s.dev).cutting 2 (some { c with shadow := some r }) = x at hst0 hsolo himg hshown
  have h1 : Dev.Within [Reg.IMG_STATUS_CUT] x (if x.solo then x else x.peerSend x.peerLinks pfCutReady pay) := Dev.Within.ite _ (Dev.Within.refl _ x) (Dev.within_peerSend _ x _ _ _)
  have h2 := (if x.solo then x else x.peerSend x.peerLinks pfCutReady pay).within_cutCheck
  have hst : (if x.solo then x else x.peerSend x.peerLinks pfCutReady pay).cutCheck.stReq = [] := h2.stReq.trans (h1.stReq.trans hst0)
  refine ⟨?_, fun h => ?_⟩
  · rw [settle_img _ _ hst, h2.img, h1.img]
    exact himg
  · have hso : x.solo = true := hsolo.trans h
    rw [settle_rd_clear _ _ hst _ _ _ (by decide) (by decide), if_pos hso, Dev.cutCheck_solo hso]
    exact hshown

/-! ### In effect -/

/-- The device that has left its old structure for the cut-over's. -/
def Dev.leavingFor (d : Dev) (k : Nat) : Dev := { d.wr Reg.IMG_STATUS_CUT 0 with img := { d.img with cut := none, reports := [], bootSlot := k } }

theorem Dev.cutover_done {d : Dev} (hc : d.img.cut = some c) (hm : d.mode = .run) (hr : d.cutReady = true) (hs : c.shadow = some r) (ht : cutBoundary c.time ≤ d.now) :
    ∃ data, d.cutover = ((((d.leavingFor c.slot).structCutover r).prefer c.slot).raise Ev.IMG_CUT_DONE c.slot data).tagDirty.imgShow := by
  refine ⟨ts32 ((d.leavingFor c.slot).cyc * 125000), ?_⟩
  unfold Dev.cutover
  rw [hc]
  dsimp only
  rw [if_neg (by rintro (h | h); exacts [h hm, absurd h (by omega)]), hr, hs]
  rfl

theorem ends_cutover (hc : s.dev.img.cut = some c) (hm : s.dev.mode = .run) (hr : s.dev.cutReady = true) (hs : c.shadow = some r) (ht : cutBoundary c.time ≤ s.dev.nowAt t) :
    Ends (.cutover t) s fun d => d.img.cut = none ∧ d.img.bootSlot = c.slot ∧ d.img.pref = c.slot ∧ (d.slot c.slot).trial = true ∧ d.rd Reg.IMG_STATUS_CUT = 0 ∧ d.mode = .run := by
  refine ends_of (exec_cutover t s) ?_
  obtain ⟨data, hx⟩ := Dev.cutover_done (d := begin_ t s.dev) hc hm hr hs ht
  rw [hx]
  have hst0 : ((begin_ t s.dev).leavingFor c.slot).stReq = [] := rfl
  have himg0 : ((begin_ t s.dev).leavingFor c.slot).img.cut = none ∧ ((begin_ t s.dev).leavingFor c.slot).img.bootSlot = c.slot := ⟨rfl, rfl⟩
  have hshown0 : ((begin_ t s.dev).leavingFor c.slot).rd Reg.IMG_STATUS_CUT = 0 := Dev.rd_wr_self (begin_ t s.dev) Reg.IMG_STATUS_CUT 0 0 0 (by decide)
  generalize (begin_ t s.dev).leavingFor c.slot = a at hst0 himg0 hshown0
  have h1 := a.aside_structCutover r
  generalize a.structCutover r = b at h1
  obtain ⟨hpref, htrial, hpimg⟩ := b.prefer_shown c.slot
  obtain ⟨hpregs, -, hpst, -⟩ := b.prefer_regs c.slot
  generalize b.prefer c.slot = x at hpref htrial hpimg hpregs hpst
  have h2 : x.Posts (x.raise Ev.IMG_CUT_DONE c.slot data) := Dev.Posts.raise _ _ _ _ (by decide)
  generalize x.raise Ev.IMG_CUT_DONE c.slot data = y at h2
  have h3 : Dev.Within imgShown y y.tagDirty := Dev.within_pst _ y _
  have h4 := h3.trans y.tagDirty.within_imgShow
  generalize y.tagDirty.imgShow = z at h4
  have hst : z.stReq = [] := by rw [h4.stReq, h2.stReq, hpst, h1.stReq, hst0]
  have himg : (settle s.dev z).img = { x.img with otp := s.dev.img.otp.merge x.img.otp } := by rw [settle_img _ _ hst, h4.img, h2.img]
  refine ⟨?_, ?_, ?_, ?_, ?_, ?_⟩
  · rw [himg, hpimg, h1.img]
    exact himg0.1
  · rw [himg, hpimg, h1.img]
    exact himg0.2
  · rw [himg]
    exact hpref
  · unfold Dev.slot at htrial ⊢
    rw [himg]
    exact htrial
  · have hkept : x.rd Reg.IMG_STATUS_CUT = a.rd Reg.IMG_STATUS_CUT := Dev.rd_congr ((Dev.word_congr hpregs 0x10000).trans h1.status)
    rw [settle_rd_clear _ _ hst _ _ _ (by decide) (by decide), h4.rd rfl (by decide), h2.rd rfl (by decide), hkept]
    exact hshown0
  · rw [settle_mode_calm _ _ hst]
    exact hm

end

/-- Settles O11: what takes up the new structure leaves the image controller aside, so that only the cut-over itself moves it. -/
theorem scheduledCutOver : Obligations.ScheduledCutOver := by
  unfold Obligations.ScheduledCutOver
  intro s t req n v link codeErr damaged frame pay c r k new
  refine ⟨?_, ?_, ?_, fun hc => ⟨?_, ?_, ?_⟩⟩
  · intro hm hok hv hb hn hlo hhi hcl hre
    exact ends_imgCutArm rfl hm hok hv hb hn hlo hhi hcl hre
  · exact ends_imgCutDisarm
  · exact ends_cutReady
  · exact ends_shadowBuilt hc
  · exact ends_cutover hc
  · exact ends_cutMissed hc

end Sys2Proof.Machine
end

section
/-!
PROOFS. Proofs/Enumeration.lean: what the start of a ring's enumeration leaves and shows (R131).
-/
namespace Sys2Proof.Machine

/-- What a count of outcomes writes. -/
def enumCounts : List Field := [Reg.LNK_RING_ENUM_MATCHED, Reg.LNK_RING_ENUM_MISSING, Reg.LNK_RING_ENUM_WRONG]

theorem Dev.within_countEnum (d : Dev) {ring : Nat} (h : ring < 64) : Dev.Within enumCounts d (d.countEnum ring) :=
  ((Dev.Within.wr d _ (Field.has_of h (by decide)) (by simp [enumCounts])).trans (Dev.Within.wr _ _ (Field.has_of h (by decide)) (by simp [enumCounts]))).trans
    (Dev.Within.wr _ _ (Field.has_of h (by decide)) (by simp [enumCounts]))

@[simp] theorem Dev.countEnum_lnk (d : Dev) (ring : Nat) : (d.countEnum ring).lnk = d.lnk := by
  unfold Dev.countEnum
  rw [Dev.wr_lnk, Dev.wr_lnk, Dev.wr_lnk]

theorem Dev.lr_setLr (d : Dev) (ring : Nat) (r : LRing) : (d.setLr ring r).lr ring = r := Tbl.get_set_self _ _ _ _

theorem Dev.lr_congr {d e : Dev} (h : e.lnk = d.lnk) (ring : Nat) : e.lr ring = d.lr ring := by
  unfold Dev.lr
  rw [h]

theorem Dev.ite_regs {a b e : Dev} (c : Prop) [Decidable c] (ha : a.regs = e.regs) (hb : b.regs = e.regs) : (if c then a else b).regs = e.regs := by
  split
  · exact ha
  · exact hb

/-- An enumeration that has begun and shows so. -/
structure Dev.Enumerates (ring attempts : Nat) (d : Dev) : Prop where
  enumEnd : (d.lr ring).enumEnd = some (d.own + 150000000)
  outc : (d.lr ring).outc = []
  state : d.rd Reg.LNK_RING_STAT_STATE ring = 1
  attempts : d.rd Reg.LNK_RING_ENUM_ATTEMPTS ring = attempts

theorem Dev.enumStart_quiet {d : Dev} {ring : Nat} (hr : ring < 64) (hp : d.rl.present ring = true) (hm : d.mode = .quiet) :
    (d.enumStart ring).Enumerates ring (min (d.rd Reg.LNK_RING_ENUM_ATTEMPTS ring + 1) 255) := by
  have hA : Reg.LNK_RING_ENUM_ATTEMPTS.has ring 0 = true := Field.has_of hr (by decide)
  have hS : Reg.LNK_RING_STAT_STATE.has ring 0 = true := Field.has_of hr (by decide)
  unfold Dev.enumStart
  rw [hp, if_neg (by decide)]
  extract_lets r e1 e2 e3
  have hm1 : (e1.mode == DevState.quiet) = true := by rw [show e1.mode = d.mode from Dev.wr_mode _ _ _ _ _, hm]; rfl
  have ha1 : e1.rd Reg.LNK_RING_ENUM_ATTEMPTS ring = min (d.rd Reg.LNK_RING_ENUM_ATTEMPTS ring + 1) 255 := Dev.rd_bump_self d Reg.LNK_RING_ENUM_ATTEMPTS 1 ring 0 (by decide)
  rw [if_pos hm1]
  clear_value e1
  have h2 : e2.regs = e1.regs := by
    exact Dev.ite_regs _ rfl rfl
  clear_value e2
  have hlr3 : (e3.lr ring).enumEnd = some (e2.own + 150000000) ∧ (e3.lr ring).outc = [] := by
    simp only [e3]
    rw [Dev.lr_setLr]
    exact ⟨rfl, rfl⟩
  have hr3 : e3.regs = e1.regs := h2
  have hown3 : e3.own = e2.own := rfl
  clear_value e3
  have hw := e3.within_countEnum hr
  have hl := e3.countEnum_lnk ring
  generalize e3.countEnum ring = e4 at hw hl
  have hlr4 : (e4.wr Reg.LNK_RING_STAT_STATE 1 ring).lr ring = e3.lr ring := Dev.lr_congr ((Dev.wr_lnk e4 Reg.LNK_RING_STAT_STATE 1 ring 0).trans hl) ring
  refine ⟨?_, ?_, ?_, ?_⟩
  · rw [hlr4, hlr3.1, Dev.wr_own, hw.own, hown3]
  · rw [hlr4]
    exact hlr3.2
  · exact Dev.rd_wr_self e4 Reg.LNK_RING_STAT_STATE 1 ring 0 (by decide)
  · rw [Dev.rd_wr_free e4 1 hS hA (by decide), hw.rd hA (by decide), Dev.rd_congr (Dev.word_congr hr3 _)]
    exact ha1

end Sys2Proof.Machine
end

section
/-!
PROOFS. Proofs/WakeAndSleep.lean: wake tones, sleep, port enables, and a node that wakes (R112, R124, R147, R202).
-/
namespace Sys2Proof.Machine

section
variable {s : State} {t req : Nat}

/-! ### Writes to a ring -/

theorem plainOffset_ringCtrl (ring : Fin 64) : plainOffset (0x100110 + 0x2000 * ring) = true ∧
    ((fieldsAt (0x100110 + 0x2000 * ring)).all fun f => !f.stores (0x100110 + 0x2000 * ring)) = true := by
  revert ring
  decide +kernel

theorem Dev.afterWrite_lnk (d : Dev) {off v : Nat} (h1 : 0x100000 ≤ off) (h2 : off < 0x180000) : d.afterWrite req off v = d.lnkWrite off v := by
  unfold Dev.afterWrite
  rw [if_neg (by omega), if_neg (by omega), if_neg (by omega), if_neg (by omega), if_neg (by omega), if_pos (by omega)]

theorem Dev.afterWrite_ringWake (d : Dev) (ring : Fin 64) : d.afterWrite req (0x100110 + 0x2000 * ring) 2 = d.wakePorts [2 * ring, 2 * ring + 1] := by
  have hr := ring.isLt
  rw [Dev.afterWrite_lnk d (by omega) (by omega)]
  unfold Dev.lnkWrite
  dsimp only
  rw [if_neg (by omega), if_pos (by omega), if_neg (by simp [bitAt]), if_pos (by decide), if_neg (by simp [bitAt]),
    show (0x100110 + 0x2000 * ring.val - 0x100000) / 0x1000 / 2 = ring by omega]

theorem Dev.afterWrite_ringSleep (d : Dev) (ring : Fin 64) (hm : d.mode = .quiet) : d.afterWrite req (0x100110 + 0x2000 * ring) 4 = d.sleepRing ring := by
  have hr := ring.isLt
  rw [Dev.afterWrite_lnk d (by omega) (by omega)]
  unfold Dev.lnkWrite
  dsimp only
  rw [if_neg (by omega), if_pos (by omega), show bitAt 4 0 = false by decide, show bitAt 4 1 = false by decide, show bitAt 4 2 = true by decide,
    show (0x100110 + 0x2000 * ring.val - 0x100000) / 0x1000 / 2 = ring by omega]
  simp only [Bool.false_and, Bool.false_eq_true, if_false, hm, beq_self_eq_true, Bool.true_and, if_true]

theorem Dev.wakePorts_pair {d : Dev} {ring : Nat} (hm : d.mode ≠ .run) (hp : d.rl.present ring = true) :
    d.wakePorts [2 * ring, 2 * ring + 1] = (d.emit (.tone (2 * ring))).emit (.tone (2 * ring + 1)) := by
  have h0 : d.rl.present (2 * ring / 2) = true := by rw [show 2 * ring / 2 = ring by omega]; exact hp
  have h1 : (d.emit (.tone (2 * ring))).rl.present ((2 * ring + 1) / 2) = true := by rw [show (2 * ring + 1) / 2 = ring by omega]; exact hp
  unfold Dev.wakePorts
  rw [if_neg (by simpa using hm), List.foldl_cons, List.foldl_cons, List.foldl_nil, h0, if_pos rfl, h1, if_pos rfl]

theorem ends_lnkRingWake (hok : s.dev.Takes req) {ring : Fin 64} (hp : s.dev.rl.present ring = true) (hm : s.dev.mode ≠ .run) :
    Ends (.lnkRingWake t req ring) s fun d => d.out = [.tone (2 * ring), .tone (2 * ring + 1), .status req 0] := by
  obtain ⟨hplain, hinert⟩ := plainOffset_ringCtrl ring
  refine ends_hostWrite (exec_lnkRingWake t req ring s) hok hplain ?_
  have hb := Dev.begins_storeWord t s.dev (2#32).toNat (by omega) hinert
  have hreel : ((begin_ t s.dev).storeWord true (0x100110 + 0x2000 * ring) (2#32).toNat).reel = s.dev.reel := Dev.storeWord_reel _ _ _ _
  generalize (begin_ t s.dev).storeWord true (0x100110 + 0x2000 * ring) (2#32).toNat = d at hb hreel
  have hrl : d.rl = s.dev.rl := by unfold Dev.rl; rw [hreel]
  rw [show (2#32).toNat = 2 from rfl, Dev.afterWrite_ringWake, Dev.wakePorts_pair (by rw [hb.mode]; exact hm) (by rw [hrl]; exact hp)]
  have hst : ((d.emit (.tone (2 * ring))).emit (.tone (2 * ring + 1))).stReq = [] := hb.stReq
  rw [settle_emit_out _ _ _ hst, Dev.emit_out, Dev.emit_out, hb.out]
  rfl

/-! ### Sleep -/

/-- What a node's views write. -/
theorem Dev.putViews_kept (d : Dev) (ring addr m v : Nat) : (d.putViews ring addr m v).lnk = d.lnk ∧ (d.putViews ring addr m v).stReq = d.stReq ∧
    ∀ a, a < 0x180000 → a ∉ evWords → (d.putViews ring addr m v).word a = d.word a := by
  unfold Dev.putViews
  extract_lets om ov oc c e f
  have he : e.lnk = d.lnk ∧ e.stReq = d.stReq ∧ ∀ a, a < 0x180000 → a ∉ evWords → e.word a = d.word a := by
    have hne : ∀ (x : Dev) (g : Field) (u i j : Nat) {a : Nat}, 0x180000 ≤ g.base → a < 0x180000 → (x.wr g u i j).word a = x.word a := fun x g u i j a hg ha =>
      Dev.word_wr_ne x g u i j (by have := g.base_le_addr i j; omega)
    refine ⟨?_, ?_, fun a ha _ => ?_⟩
    · simp only [e]
      rw [Dev.wr_lnk, Dev.wr_lnk, Dev.wr_lnk, Dev.wr_lnk]
    · simp only [e]
      rw [Dev.wr_stReq, Dev.wr_stReq, Dev.wr_stReq, Dev.wr_stReq]
    · simp only [e]
      rw [hne _ _ _ _ _ (by decide) ha, hne _ _ _ _ _ (by decide) ha, hne _ _ _ _ _ (by decide) ha, hne _ _ _ _ _ (by decide) ha]
  clear_value e
  have hf : e.Posts f := Dev.Posts.ite _ (Dev.Posts.refl e) (Dev.Posts.raise _ _ _ _ (by decide))
  clear_value f
  split
  · exact ⟨rfl, rfl, fun _ _ _ => rfl⟩
  · have hp := hf.trans (Dev.Posts.produce f (0x3000 + ring) 3 (swpRecord (f.slateAt ring) ring addr c (m * 512 + v * 64 + b2n (m != v) * 32)))
    exact ⟨hp.lnk.trans he.1, hp.stReq.trans he.2.1, fun a ha hev => (hp.words a hev).trans (he.2.2 a ha hev)⟩

theorem Dev.foldl_putViews_kept (ring : Nat) (l : List Rec) (m v : Dev → Rec → Nat) (d : Dev) :
    (l.foldl (fun (d : Dev) n => d.putViews ring n.ndAddr (m d n) (v d n)) d).lnk = d.lnk ∧ (l.foldl (fun (d : Dev) n => d.putViews ring n.ndAddr (m d n) (v d n)) d).stReq = d.stReq ∧
    ∀ a, a < 0x180000 → a ∉ evWords → (l.foldl (fun (d : Dev) n => d.putViews ring n.ndAddr (m d n) (v d n)) d).word a = d.word a := by
  induction l generalizing d with
  | nil => exact ⟨rfl, rfl, fun _ _ _ => rfl⟩
  | cons n l ih =>
    obtain ⟨h1, h2, h3⟩ := d.putViews_kept ring n.ndAddr (m d n) (v d n)
    obtain ⟨k1, k2, k3⟩ := ih (d.putViews ring n.ndAddr (m d n) (v d n))
    exact ⟨k1.trans h1, k2.trans h2, fun a ha he => (k3 a ha he).trans (h3 a ha he)⟩

/-- A ring that has been sent to sleep. -/
theorem Dev.sleepRing_shown {d : Dev} {ring : Nat} (hr : ring < 64) (hp : d.rl.present ring = true) (ho : (d.lr ring).orig = true) :
    (d.sleepRing ring).rd Reg.LNK_RING_STAT_STATE ring = 3 ∧ (∃ p, ((d.sleepRing ring).lr ring).cmds = (d.lr ring).cmds ++ [{ typ := 0x15, dest := 0, pay := p }]) ∧
    (d.sleepRing ring).stReq = d.stReq := by
  have haddr : Reg.LNK_RING_STAT_STATE.addr ring 0 = 0x100100 + 8192 * ring := by simp [Field.addr, Reg.LNK_RING_STAT_STATE]
  have hev : Reg.LNK_RING_STAT_STATE.addr ring 0 ∉ evWords := Field.clearOf_events (l := []) (by decide) (Field.has_of hr (by decide))
  unfold Dev.sleepRing
  dsimp only
  rw [if_neg (by rw [hp, ho]; decide)]
  generalize toLe ((d.rl.takeRec ring).u16 20) 2 ++ toLe (d.rd Reg.SWP_SLEEP_V_V_LO) 2 ++ toLe (d.rd Reg.SWP_SLEEP_V_V_HI) 2 ++ toLe (d.rd Reg.SWP_SLEEP_T_T_HI) 2 = p
  have hl : (d.setLr ring { d.lr ring with cmds := (d.lr ring).cmds ++ [{ typ := 0x15, dest := 0, pay := p }] }).lr ring =
      { d.lr ring with cmds := (d.lr ring).cmds ++ [{ typ := 0x15, dest := 0, pay := p }] } := Dev.lr_setLr _ _ _
  have hst : (d.setLr ring { d.lr ring with cmds := (d.lr ring).cmds ++ [{ typ := 0x15, dest := 0, pay := p }] }).stReq = d.stReq := rfl
  generalize d.setLr ring { d.lr ring with cmds := (d.lr ring).cmds ++ [{ typ := 0x15, dest := 0, pay := p }] } = e at hl hst
  have hs := Dev.rd_wr_self e Reg.LNK_RING_STAT_STATE 3 ring 0 (by decide)
  have hl' : (e.wr Reg.LNK_RING_STAT_STATE 3 ring).lr ring = e.lr ring := Dev.lr_congr (Dev.wr_lnk _ _ _ _ _) ring
  have hst' : (e.wr Reg.LNK_RING_STAT_STATE 3 ring).stReq = d.stReq := (Dev.wr_stReq _ _ _ _ _).trans hst
  generalize e.wr Reg.LNK_RING_STAT_STATE 3 ring = f at hs hl' hst'
  obtain ⟨h1, h2, h3⟩ := f.foldl_putViews_kept ring (f.rl.nodes ring) (fun d n => max 1 (d.mgmtView ring n.ndAddr)) (fun d n => max 1 (d.dataView ring n.ndAddr))
  refine ⟨?_, ⟨p, ?_⟩, h2.trans hst'⟩
  · rw [Dev.rd_congr (h3 _ (by omega) hev)]
    exact hs
  · rw [Dev.lr_congr h1, hl', hl]

theorem ends_lnkRingSleep (hok : s.dev.Takes req) {ring : Fin 64} (hp : s.dev.rl.present ring = true) (hm : s.dev.mode = .quiet) (ho : (s.dev.lr ring).orig = true) :
    Ends (.lnkRingSleep t req ring) s fun d => d.rd Reg.LNK_RING_STAT_STATE ring = 3 ∧ ∃ p, (d.lr ring).cmds = (s.dev.lr ring).cmds ++ [{ typ := 0x15, dest := 0, pay := p }] := by
  obtain ⟨hplain, hinert⟩ := plainOffset_ringCtrl ring
  refine ends_hostWrite (exec_lnkRingSleep t req ring s) hok hplain ?_
  have hb := Dev.begins_storeWord t s.dev (4#32).toNat (by omega) hinert
  have hreel : ((begin_ t s.dev).storeWord true (0x100110 + 0x2000 * ring) (4#32).toNat).reel = s.dev.reel := Dev.storeWord_reel _ _ _ _
  have hlnk : ((begin_ t s.dev).storeWord true (0x100110 + 0x2000 * ring) (4#32).toNat).lnk = s.dev.lnk := Dev.storeWord_lnk _ _ _ _
  generalize (begin_ t s.dev).storeWord true (0x100110 + 0x2000 * ring) (4#32).toNat = d at hb hreel hlnk
  have hrl : d.rl = s.dev.rl := by unfold Dev.rl; rw [hreel]
  have hlr : d.lr ring = s.dev.lr ring := Dev.lr_congr hlnk ring
  rw [show (4#32).toNat = 4 from rfl, Dev.afterWrite_ringSleep d ring (hb.mode.trans hm)]
  obtain ⟨hs, ⟨p, hcmds⟩, hst0⟩ := Dev.sleepRing_shown (d := d) ring.isLt (by rw [hrl]; exact hp) (by rw [hlr]; exact ho)
  generalize d.sleepRing ring = e at hs hcmds hst0
  have hst := hst0.trans hb.stReq
  refine ⟨?_, p, ?_⟩
  · rw [Dev.rd_settle_emit _ _ _ hst (Field.has_of ring.isLt (by decide)) (by decide)]
    exact hs
  · rw [Dev.lr_congr (settle_lnk _ (e.emit (.status req 0)) hst), Dev.lr_congr (Dev.emit_lnk e _), hcmds, hlr]

/-! ### Ports -/

theorem fieldsAt_portCtrl (port : Fin 128) : fieldsAt (0x100000 + 0x1000 * port) = [Reg.LNK_PORT_CTRL_ENABLE, Reg.LNK_PORT_CTRL_WAKE] := by
  revert port
  decide +kernel

theorem portCtrl_rules (port : Fin 128) : isTrwCfg (0x100000 + 0x1000 * port) = false ∧ fullTimeAt (0x100000 + 0x1000 * port) = none := by
  revert port
  decide +kernel

/-- What a write of a port's control does, where its ring is present. -/
theorem Dev.hostWrite_port {d : Dev} (v : Word) (hok : d.Takes req) {port : Fin 128} (hp : d.rl.present (port / 2) = true) :
    d.hostWrite req (0x100000 + 0x1000 * port) v = ((d.storeWord true (0x100000 + 0x1000 * port) v.toNat).lnkWrite (0x100000 + 0x1000 * port) v.toNat).emit (.status req 0) := by
  have hlt := port.isLt
  have hpos := portCtrl_rules port
  have hctl : d.ctlWrite req (0x100000 + 0x1000 * port) v.toNat = ((d.storeWord true (0x100000 + 0x1000 * port) v.toNat).lnkWrite (0x100000 + 0x1000 * port) v.toNat, 0) := by
    unfold Dev.ctlWrite
    rw [if_neg (by omega), if_neg (by omega), if_neg (by omega), if_neg (by omega), if_neg (by omega), if_neg (by rw [hpos.1]; decide), if_neg (by omega), if_neg (by omega), hok.2,
      if_neg (by simp), if_neg (by omega), if_neg (by simp), hpos.2]
    dsimp only
    rw [if_neg (by omega), if_neg (by omega), if_neg (by omega), if_neg (by omega), if_neg, Dev.afterWrite_lnk _ (by omega) (by omega)]
    rintro ⟨-, -, -, h⟩
    rw [show (0x100000 + 0x1000 * port.val - 0x100000) / 0x2000 = port / 2 by omega, hp] at h
    exact absurd h (by decide)
  unfold Dev.hostWrite
  rw [hok.1, if_neg (by simp), if_neg (by simp), hctl]

theorem Dev.lnkWrite_enable (d : Dev) (port : Fin 128) {v : Nat} (h : bitAt v 1 = false) : d.lnkWrite (0x100000 + 0x1000 * port) v = d := by
  unfold Dev.lnkWrite
  dsimp only
  rw [if_neg (by rw [h]; simp), if_neg (by omega)]

theorem Dev.lnkWrite_wake {d : Dev} {port : Fin 128} {v : Nat} (h : bitAt v 1 = true) (hm : d.mode ≠ .run) (hp : d.rl.present (port / 2) = true) :
    d.lnkWrite (0x100000 + 0x1000 * port) v = d.emit (.tone port) := by
  unfold Dev.lnkWrite
  dsimp only
  rw [if_pos ⟨by omega, h⟩, show (0x100000 + 0x1000 * port.val - 0x100000) / 0x1000 = port by omega]
  unfold Dev.wakePorts
  rw [if_neg (by simpa using hm), List.foldl_cons, List.foldl_nil, hp, if_pos rfl]

/-- What a write of a port's control stores. -/
theorem Dev.storeWord_port (d : Dev) (port : Fin 128) (v : Nat) : (d.storeWord true (0x100000 + 0x1000 * port) v).rd Reg.LNK_PORT_CTRL_ENABLE port = v % 2 ∧
    Dev.Touches [Reg.LNK_PORT_CTRL_ENABLE.addr port 0] d (d.storeWord true (0x100000 + 0x1000 * port) v) := by
  have hlt := port.isLt
  have haddr : Reg.LNK_PORT_CTRL_ENABLE.addr port 0 = 0x100000 + 0x1000 * port := by simp [Field.addr, Reg.LNK_PORT_CTRL_ENABLE]
  refine ⟨?_, ?_⟩
  · rw [Dev.rd_storeWord_rw d v (by omega) Reg.LNK_PORT_CTRL_ENABLE port 0 (pre := []) (fieldsAt_portCtrl port) haddr rfl (by decide) (by decide)]
    simp [bitsOf, Reg.LNK_PORT_CTRL_ENABLE]
  · rw [haddr]
    exact Dev.touches_storeWord d v (by omega)

theorem ends_lnkPortEnable (hok : s.dev.Takes req) {port : Fin 128} {en : Bool} (hp : s.dev.rl.present (port / 2) = true) : Ends (.lnkPortEnable t req port en) s fun d =>
    d.rd Reg.LNK_PORT_CTRL_ENABLE port = b2n en ∧ d.out = [.status req 0] ∧ s.dev.OnlyWrites d [Reg.LNK_PORT_CTRL_ENABLE.addr port 0] := by
  refine ends_of (exec_lnkPortEnable t req port en s) ?_
  have hbit : bitAt (BitVec.ofNat 32 (b2n en)).toNat 1 = false ∧ (BitVec.ofNat 32 (b2n en)).toNat % 2 = b2n en := by cases en <;> decide
  rw [Dev.hostWrite_port _ ((Dev.takes_begin t s.dev req).2 hok) hp, Dev.lnkWrite_enable _ port hbit.1]
  obtain ⟨hrd, htouch⟩ := (begin_ t s.dev).storeWord_port port (BitVec.ofNat 32 (b2n en)).toNat
  have hst : ((begin_ t s.dev).storeWord true (0x100000 + 0x1000 * port) (BitVec.ofNat 32 (b2n en)).toNat).stReq = [] := Dev.storeWord_stReq _ _ _ _
  have hout : ((begin_ t s.dev).storeWord true (0x100000 + 0x1000 * port) (BitVec.ofNat 32 (b2n en)).toNat).out = [] := Dev.storeWord_out _ _ _ _
  generalize (begin_ t s.dev).storeWord true (0x100000 + 0x1000 * port) (BitVec.ofNat 32 (b2n en)).toNat = e at hrd htouch hst hout
  refine ⟨?_, ?_, ?_⟩
  · rw [Dev.rd_settle_emit _ _ _ hst (Field.has_of port.isLt (by decide)) (by decide), hrd]
    exact hbit.2
  · rw [settle_emit_out _ _ _ hst, hout]
    rfl
  · exact Dev.Touches.settle (e := e.emit (.status req 0)) (htouch.trans (Dev.Touches.of_regs (Dev.emit_regs _ _))) (by rw [Dev.emit_stReq]; exact hst)

theorem ends_lnkPortWake (hok : s.dev.Takes req) {port : Fin 128} {v : Word} (hp : s.dev.rl.present (port / 2) = true) (hm : s.dev.mode ≠ .run) : Ends (.lnkPortWake t req port v) s fun d =>
    d.rd Reg.LNK_PORT_CTRL_ENABLE port = v.toNat % 2 ∧ d.out = [.tone port, .status req 0] ∧ s.dev.OnlyWrites d [Reg.LNK_PORT_CTRL_ENABLE.addr port 0] := by
  refine ends_of (exec_lnkPortWake t req port v s) ?_
  have hlow : (v ||| 2#32).toNat % 2 = v.toNat % 2 := by
    have h := bitsOf_orTwo v
    unfold bitsOf at h
    rwa [Nat.pow_zero, Nat.div_one, Nat.pow_one] at h
  rw [Dev.hostWrite_port _ ((Dev.takes_begin t s.dev req).2 hok) hp]
  obtain ⟨hrd, htouch⟩ := (begin_ t s.dev).storeWord_port port (v ||| 2#32).toNat
  have hst : ((begin_ t s.dev).storeWord true (0x100000 + 0x1000 * port) (v ||| 2#32).toNat).stReq = [] := Dev.storeWord_stReq _ _ _ _
  have hout : ((begin_ t s.dev).storeWord true (0x100000 + 0x1000 * port) (v ||| 2#32).toNat).out = [] := Dev.storeWord_out _ _ _ _
  have hmode : ((begin_ t s.dev).storeWord true (0x100000 + 0x1000 * port) (v ||| 2#32).toNat).mode = s.dev.mode := Dev.storeWord_mode _ _ _ _
  have hreel : ((begin_ t s.dev).storeWord true (0x100000 + 0x1000 * port) (v ||| 2#32).toNat).reel = s.dev.reel := Dev.storeWord_reel _ _ _ _
  generalize (begin_ t s.dev).storeWord true (0x100000 + 0x1000 * port) (v ||| 2#32).toNat = e at hrd htouch hst hout hmode hreel
  have hrl : e.rl = s.dev.rl := by unfold Dev.rl; rw [hreel]
  rw [Dev.lnkWrite_wake (orTwo_bits v).2.1 (by rw [hmode]; exact hm) (by rw [hrl]; exact hp)]
  have hst' : (e.emit (.tone port)).stReq = [] := hst
  refine ⟨?_, ?_, ?_⟩
  · rw [Dev.rd_settle_emit _ _ _ hst' (Field.has_of port.isLt (by decide)) (by decide), Dev.rd_congr (Dev.word_congr (Dev.emit_regs _ _) _), hrd]
    exact hlow
  · rw [settle_emit_out _ _ _ hst', Dev.emit_out, hout]
    rfl
  · exact Dev.Touches.settle (e := (e.emit (.tone port)).emit (.status req 0)) (htouch.trans (Dev.Touches.of_regs ((Dev.emit_regs _ _).trans (Dev.emit_regs _ _)))) (by rw [Dev.emit_stReq]; exact hst')

end

end Sys2Proof.Machine
end

section
/-!
PROOFS. Proofs/NodeTones.lean: a wake tone that a port hears (R124, R131, R476).
-/
namespace Sys2Proof.Machine

/-! ### The rules of the watch island leave the structure -/

theorem Dev.logPut_reel (d : Dev) (r : BbRec) : (d.logPut r).1.reel = d.reel := by
  unfold Dev.logPut
  split
  · exact Dev.wr_reel (d.withLog (d.wch.log ++ [r])) _ _ _ _
  · exact Dev.wr_reel (d.withLog (d.wch.log.drop 1 ++ [r])) _ _ _ _

theorem Dev.ruleRecord_reel (d : Dev) (r data : Nat) : (d.ruleRecord r data).reel = d.reel := by
  unfold Dev.ruleRecord
  dsimp only
  split
  · split
    case h_1 e he =>
      unfold Dev.bbPut at he
      split at he
      · cases he
      · cases he
        rfl
    case h_2 => exact (Dev.wr_reel _ _ _ _ _ : (d.bump Reg.PST_BB_DROPPED_CNT).reel = d.reel)
  · exact Dev.logPut_reel _ _

theorem Dev.ite_reel_of {a b : Dev} {r : Option Reel} (c : Prop) [Decidable c] (ha : a.reel = r) (hb : b.reel = r) : (if c then a else b).reel = r := by
  split
  · exact ha
  · exact hb

theorem Dev.wake_reel (d : Dev) (bit : Nat) : (d.wake bit).reel = d.reel := Dev.wr_reel (d.setWord 0x40004 (d.word 0x40004 ||| BitVec.ofNat 32 (2 ^ bit))) Reg.WCH_STATUS_MAIN_REQ 1 0 0

theorem Dev.ruleFire_reel (d : Dev) (r : Nat) (x : Rec) (v : Nat) : (d.ruleFire r x v).reel = d.reel := by
  unfold Dev.ruleFire
  extract_lets act data e1 e2 e3
  have h1 : e1.reel = d.reel := (Dev.raise_reel _ _ _ _).trans (Dev.wr_reel _ _ _ _ _)
  have h2 : e2.reel = d.reel := Dev.ite_reel_of _ ((Dev.wake_reel _ _).trans h1) h1
  have h3 : e3.reel = d.reel := Dev.ite_reel_of _ ((Dev.ruleRecord_reel _ _ _).trans h2) h2
  clear_value e3
  exact Dev.ite_reel_of _ h3 h3

theorem Dev.ruleEval_reel (d : Dev) (r : Nat) : (d.ruleEval r).reel = d.reel := by
  unfold Dev.ruleEval
  split
  · rfl
  · extract_lets v holds old new e1 w e2
    have h1 : e1.reel = d.reel := (Dev.wr_reel _ _ _ _ _).trans (Dev.wr_reel _ _ _ _ _)
    have h2 : e2.reel = d.reel := h1
    exact Dev.ite_reel_of _ ((Dev.ruleFire_reel _ _ _ _).trans h2) h2

theorem Dev.ruleSeen_reel (d : Dev) (inp : Nat) : (d.ruleSeen inp).reel = d.reel := by
  unfold Dev.ruleSeen
  dsimp only
  generalize he : d.setWch _ = e
  have h : e.reel = d.reel := by rw [← he]; rfl
  rw [← h]
  generalize d.rulesOf inp = l
  clear he h
  induction l generalizing e with
  | nil => rfl
  | cons r l ih => exact (ih _).trans (Dev.ruleEval_reel e r)

theorem Dev.toneSeen_kept (d : Dev) (port : Nat) : d.RuleStep (d.toneSeen port) ∧ (d.toneSeen port).reel = d.reel := by
  unfold Dev.toneSeen
  split
  · exact ⟨Dev.ruleStep_ruleSeen d _, Dev.ruleSeen_reel d _⟩
  · exact ⟨Dev.RuleStep.refl d, rfl⟩

/-! ### The tone -/

/-- What hears a tone. -/
def Dev.toned (d : Dev) (port : Nat) : Dev := if d.on Reg.LNK_PORT_STAT_TONE port then d else (d.set1 Reg.LNK_PORT_STAT_TONE port).toneSeen port

/-- A device that has heard a tone shows it and is otherwise as before. -/
structure Dev.Tones (port : Nat) (d e : Dev) : Prop where
  tone : e.rd Reg.LNK_PORT_STAT_TONE port = 1
  state : e.rd Reg.LNK_RING_STAT_STATE (port / 2) = d.rd Reg.LNK_RING_STAT_STATE (port / 2)
  mode : e.mode = d.mode
  stReq : e.stReq = d.stReq
  own : e.own = d.own
  reel : e.reel = d.reel

theorem not_watch_word {a : Nat} (h : 0x100000 ≤ a) : a ∉ 0x40000 :: 0x40004 :: (List.range 16).map (fun r => 0x40080 + 4 * r) := by
  simp only [List.mem_cons, List.mem_map, List.mem_range, not_or, not_exists, not_and]
  refine ⟨by omega, by omega, fun r hr => by omega⟩

theorem Dev.tones_toned (d : Dev) {port : Nat} (hp : port < 128) : d.Tones port (d.toned port) := by
  have hT : Reg.LNK_PORT_STAT_TONE.has port 0 = true := Field.has_of hp (by decide)
  have hS : Reg.LNK_RING_STAT_STATE.has (port / 2) 0 = true := Field.has_of (by show port / 2 < 64; omega) (by decide)
  unfold Dev.toned
  split
  case isTrue h =>
    refine ⟨?_, rfl, rfl, rfl, rfl, rfl⟩
    unfold Dev.on at h
    simpa using h
  case isFalse =>
    have h1 : (d.set1 Reg.LNK_PORT_STAT_TONE port).rd Reg.LNK_PORT_STAT_TONE port = 1 := Dev.rd_wr_self d Reg.LNK_PORT_STAT_TONE 1 port 0 (by decide)
    have h2 : (d.set1 Reg.LNK_PORT_STAT_TONE port).rd Reg.LNK_RING_STAT_STATE (port / 2) = d.rd Reg.LNK_RING_STAT_STATE (port / 2) := Dev.rd_wr_free d 1 hT hS (by decide)
    have h3 : (d.set1 Reg.LNK_PORT_STAT_TONE port).mode = d.mode ∧ (d.set1 Reg.LNK_PORT_STAT_TONE port).stReq = d.stReq ∧ (d.set1 Reg.LNK_PORT_STAT_TONE port).own = d.own ∧
        (d.set1 Reg.LNK_PORT_STAT_TONE port).reel = d.reel := ⟨rfl, rfl, rfl, rfl⟩
    obtain ⟨hm, hst, how, hre⟩ := h3
    generalize d.set1 Reg.LNK_PORT_STAT_TONE port = x at h1 h2 hm hst how hre
    obtain ⟨hk, hreel⟩ := x.toneSeen_kept port
    have haT : 0x100000 ≤ Reg.LNK_PORT_STAT_TONE.addr port 0 := (show 0x100000 ≤ Reg.LNK_PORT_STAT_TONE.base by decide).trans (Field.base_le_addr _ _ _)
    have haS : 0x100000 ≤ Reg.LNK_RING_STAT_STATE.addr (port / 2) 0 := (show 0x100000 ≤ Reg.LNK_RING_STAT_STATE.base by decide).trans (Field.base_le_addr _ _ _)
    exact ⟨(hk.touches.rd (not_watch_word haT) (Field.clearOf_events (l := []) (by decide) hT)).trans h1,
      (hk.touches.rd (not_watch_word haS) (Field.clearOf_events (l := []) (by decide) hS)).trans h2, hk.mode.trans hm, hk.stReq.trans hst, hk.own.trans how, hreel.trans hre⟩

section
variable {s : State} {t : Nat} {port : Fin 128}

/-- What a tone means to the ring of its port. -/
theorem Dev.nodeWake_eq (d : Dev) (port : Nat) : d.nodeWake port =
    if (d.toned port).rd Reg.LNK_RING_STAT_STATE (port / 2) = 3 && ((d.toned port).mode == .dark || (d.toned port).mode == .quiet) then
      (if ((d.toned port).raise Ev.SWP_NODE_WAKE (port / 2) (port % 2)).mode == .quiet then ((d.toned port).raise Ev.SWP_NODE_WAKE (port / 2) (port % 2)).enumStart (port / 2)
        else (d.toned port).raise Ev.SWP_NODE_WAKE (port / 2) (port % 2))
    else d.toned port := rfl

theorem Dev.setLr_regs (d : Dev) (ring : Nat) (r : LRing) : (d.setLr ring r).regs = d.regs := rfl

/-- What the start of an enumeration writes besides counts of outcomes. -/
theorem Dev.enumStart_port (d : Dev) {ring port : Nat} (hr : ring < 64) (hp : port < 128) : (d.enumStart ring).rd Reg.LNK_PORT_STAT_TONE port = d.rd Reg.LNK_PORT_STAT_TONE port := by
  have hT : Reg.LNK_PORT_STAT_TONE.has port 0 = true := Field.has_of hp (by decide)
  have hA : Reg.LNK_RING_ENUM_ATTEMPTS.has ring 0 = true := Field.has_of hr (by decide)
  have hS : Reg.LNK_RING_STAT_STATE.has ring 0 = true := Field.has_of hr (by decide)
  by_cases hpres : d.rl.present ring = true
  · unfold Dev.enumStart
    rw [hpres, if_neg (by decide)]
    extract_lets r e1 e2 e3
    have h1 : e1.rd Reg.LNK_PORT_STAT_TONE port = d.rd Reg.LNK_PORT_STAT_TONE port := Dev.rd_wr_free d _ hA hT (by decide)
    by_cases hq : (e1.mode == DevState.quiet) = true
    · rw [if_pos hq]
      clear_value e1
      have h2 : e2.regs = e1.regs := Dev.ite_regs _ rfl rfl
      clear_value e2
      have h3 : e3.regs = e1.regs := h2
      clear_value e3
      rw [Dev.rd_wr_free _ 1 hS hT (by decide), (e3.within_countEnum hr).rd hT (by decide), Dev.rd_congr (Dev.word_congr h3 _)]
      exact h1
    · rw [if_neg hq]
      clear_value e1
      generalize ({ r with enumRun := true } : LRing) = y
      exact (Dev.rd_congr (Dev.word_congr (Dev.setLr_regs e1 ring y) _)).trans h1
  · unfold Dev.enumStart
    rw [if_pos (by rw [Bool.not_eq_true'] ; exact Bool.eq_false_iff.2 hpres)]

theorem ends_nodeWake_tone : Ends (.nodeWake t port) s fun d => d.rd Reg.LNK_PORT_STAT_TONE port = 1 := by
  refine ends_of (exec_nodeWake t port s) ?_
  have hT : Reg.LNK_PORT_STAT_TONE.has port 0 = true := Field.has_of port.isLt (by decide)
  have h := (begin_ t s.dev).tones_toned port.isLt
  have hst0 : (begin_ t s.dev).stReq = [] := rfl
  rw [Dev.nodeWake_eq]
  generalize (begin_ t s.dev).toned port = e at h
  have hp : e.Posts (e.raise Ev.SWP_NODE_WAKE (port / 2) (port % 2)) := Dev.Posts.raise _ _ _ _ (by decide)
  generalize e.raise Ev.SWP_NODE_WAKE (port / 2) (port % 2) = f at hp
  have hest : e.stReq = [] := h.stReq.trans hst0
  have hshown : ∀ x : Dev, x.stReq = e.stReq → x.rd Reg.LNK_PORT_STAT_TONE port = e.rd Reg.LNK_PORT_STAT_TONE port → (settle s.dev x).rd Reg.LNK_PORT_STAT_TONE port = 1 := by
    intro x hx hrd
    rw [settle_rd_clear _ _ (hx.trans hest) _ _ _ hT (by decide), hrd]
    exact h.tone
  split
  · split
    · exact hshown _ ((f.spares_enumStart _).2.1.trans hp.stReq) ((f.enumStart_port (by have := port.isLt; omega) port.isLt).trans (hp.rd hT (by decide)))
    · exact hshown _ hp.stReq (hp.rd hT (by decide))
  · exact hshown e rfl rfl

theorem ends_nodeWake_enum (hp : s.dev.rl.present (port / 2) = true) (hm : s.dev.mode = .quiet) (hs : s.dev.rd Reg.LNK_RING_STAT_STATE (port / 2) = 3) :
    Ends (.nodeWake t port) s fun d => (d.lr (port / 2)).enumEnd = some (s.dev.ownAt t + 150000000) ∧ d.rd Reg.LNK_RING_STAT_STATE (port / 2) = 1 := by
  refine ends_of (exec_nodeWake t port s) ?_
  have hr : port.val / 2 < 64 := by have := port.isLt; omega
  have h := (begin_ t s.dev).tones_toned port.isLt
  have hst0 : (begin_ t s.dev).stReq = [] := rfl
  have hown : (begin_ t s.dev).own = s.dev.ownAt t := rfl
  have hmode : ((begin_ t s.dev).toned port).mode = .quiet := h.mode.trans hm
  have hstate : ((begin_ t s.dev).toned port).rd Reg.LNK_RING_STAT_STATE (port / 2) = 3 := h.state.trans hs
  have hreel : ((begin_ t s.dev).toned port).reel = s.dev.reel := h.reel
  rw [Dev.nodeWake_eq]
  generalize (begin_ t s.dev).toned port = e at h hmode hstate hreel
  have hpo : e.Posts (e.raise Ev.SWP_NODE_WAKE (port / 2) (port % 2)) := Dev.Posts.raise _ _ _ _ (by decide)
  generalize e.raise Ev.SWP_NODE_WAKE (port / 2) (port % 2) = f at hpo
  have hfm : f.mode = .quiet := hpo.mode.trans hmode
  have hfr : f.rl.present (port / 2) = true := by
    unfold Dev.rl
    rw [hpo.reel, hreel]
    exact hp
  rw [if_pos (by rw [hstate, hmode]; decide), if_pos (by rw [hfm]; decide)]
  have hen := Dev.enumStart_quiet hr hfr hfm
  have hsp := f.spares_enumStart (port.val / 2)
  generalize f.enumStart (port.val / 2) = x at hen hsp
  have hst : x.stReq = [] := hsp.2.1.trans (hpo.stReq.trans (h.stReq.trans hst0))
  refine ⟨?_, ?_⟩
  · rw [Dev.lr_congr (settle_lnk _ x hst), hen.enumEnd, hsp.2.2.2.1, hpo.own, h.own, hown]
  · rw [settle_rd_clear _ _ hst _ _ _ (Field.has_of hr (by decide)) (by decide)]
    exact hen.state

end

/-- Settles O16: each write stores at most the enable, and what it sends is its whole output. -/
theorem ringsWakeAndSleep : Obligations.RingsWakeAndSleep := by
  unfold Obligations.RingsWakeAndSleep
  intro s t req ring port v en
  refine ⟨fun hok => ⟨?_, ?_, fun hp => ⟨?_, ?_⟩⟩, ?_, ?_⟩
  · exact ends_lnkRingWake hok
  · exact ends_lnkRingSleep hok
  · exact ends_lnkPortEnable hok hp
  · exact ends_lnkPortWake hok hp
  · exact ends_nodeWake_tone
  · exact ends_nodeWake_enum

end Sys2Proof.Machine
end

section
/-!
PROOFS. Proofs/Steering.lean: what offsets, sources and holdover leave of the device: all but the clock, the servo and the registers of the timebase (R153 to R162).
-/
namespace Sys2Proof.Machine

/-- `e` differs from `d` in the clock, the servo and the fields listed: the ports of the timebase and the count of near boundaries, the device state and its structure stand. -/
structure Dev.Steers (l : List Field) (d e : Dev) : Prop where
  mode : e.mode = d.mode
  stReq : e.stReq = d.stReq
  own : e.own = d.own
  reel : e.reel = d.reel
  out : e.out = d.out
  ports : e.tb.ports = d.tb.ports
  near : e.tb.near = d.tb.near
  writes : Dev.Writes l d e

namespace Dev.Steers
variable {l : List Field} {d e x : Dev}

theorem refl (l : List Field) (d : Dev) : Dev.Steers l d d := ⟨rfl, rfl, rfl, rfl, rfl, rfl, rfl, Dev.Writes.refl l d⟩

theorem trans (h : Dev.Steers l d e) (k : Dev.Steers l e x) : Dev.Steers l d x :=
  ⟨k.mode.trans h.mode, k.stReq.trans h.stReq, k.own.trans h.own, k.reel.trans h.reel, k.out.trans h.out, k.ports.trans h.ports, k.near.trans h.near, h.writes.trans k.writes⟩

theorem mono {m : List Field} (h : Dev.Steers l d e) (hs : l ⊆ m) : Dev.Steers m d e := ⟨h.mode, h.stReq, h.own, h.reel, h.out, h.ports, h.near, h.writes.mono hs⟩

theorem wr {f : Field} {v i j : Nat} (h : Dev.Steers l d e) (hj : f.has i j = true) (hf : f ∈ l) : Dev.Steers l d (e.wr f v i j) :=
  h.trans ⟨Dev.wr_mode _ _ _ _ _, Dev.wr_stReq _ _ _ _ _, Dev.wr_own _ _ _ _ _, Dev.wr_reel _ _ _ _ _, Dev.wr_out _ _ _ _ _, congrArg Tb.ports (Dev.wr_tb _ _ _ _ _),
    congrArg Tb.near (Dev.wr_tb _ _ _ _ _), Dev.Writes.wr e v hj hf⟩

theorem posts (h : Dev.Steers l d e) (k : e.Posts x) : Dev.Steers l d x :=
  h.trans ⟨k.mode, k.stReq, k.own, k.reel, k.out, congrArg Tb.ports k.tb, congrArg Tb.near k.tb, k.writes l⟩

theorem raise {ev : Ev} {inst data : Nat} (h : Dev.Steers l d e) (hs : ev.sev < 5) : Dev.Steers l d (e.raise ev inst data) := h.posts (Dev.Posts.raise _ _ _ _ hs)

/-- The servo's own state moves. -/
theorem tb {y : Tb} (h : Dev.Steers l d e) (hp : y.ports = e.tb.ports) (hn : y.near = e.tb.near) : Dev.Steers l d { e with tb := y } :=
  h.trans ⟨rfl, rfl, rfl, rfl, rfl, hp, hn, Dev.Writes.of_regs rfl⟩

/-- A register is written and the servo's own state moves. -/
theorem wrTb {f : Field} {v i j : Nat} {y : Tb} (h : Dev.Steers l d e) (hj : f.has i j = true) (hf : f ∈ l) (hp : y.ports = e.tb.ports) (hn : y.near = e.tb.near) :
    Dev.Steers l d { e.wr f v i j with tb := y } :=
  (h.wr hj hf).tb (hp.trans (congrArg Tb.ports (Dev.wr_tb e f v i j)).symm) (hn.trans (congrArg Tb.near (Dev.wr_tb e f v i j)).symm)

/-- The clock is set. -/
theorem clock {n : Nat} (h : Dev.Steers l d e) : Dev.Steers l d { e with now := n } := h.trans ⟨rfl, rfl, rfl, rfl, rfl, rfl, rfl, Dev.Writes.of_regs rfl⟩

theorem ite {a b : Dev} {c : Prop} [Decidable c] (ha : Dev.Steers l d a) (hb : Dev.Steers l d b) : Dev.Steers l d (if c then a else b) := by
  split
  · exact ha
  · exact hb

theorem rd (h : Dev.Steers l d e) {f : Field} {i j : Nat} (hj : f.has i j = true) (hf : f.clearOf l = true) : e.rd f i j = d.rd f i j := h.writes f i j hj hf

end Dev.Steers

/-- What a change of source writes. -/
def sourceFields : List Field :=
  [Reg.TB_STATUS_SLEWING, Reg.TB_FREQ_FREQ, Reg.TB_HOLD_TIME_SECONDS, Reg.TB_HOLD_ERR_E, Reg.TB_STATUS_SRC, Reg.TB_STATUS_STATE, Reg.TB_STATUS_PTP_PORT, Reg.TB_STATUS_TIME_VALID]

/-- What an offset measurement writes. -/
def offsetFields : List Field := [Reg.TB_OFFSET_THETA, Reg.TB_ERR_OUTLIER, Reg.TB_PTP_CNT_DISCARD, Reg.TB_ERR_PPS_LOST] ++ sourceFields

theorem sourceFields_sub : sourceFields ⊆ offsetFields := fun _ h => List.mem_append_right _ h

theorem Dev.steers_endSlew (d : Dev) : Dev.Steers sourceFields d d.endSlew :=
  (Dev.Steers.refl _ d).wrTb (by decide) (by simp [sourceFields]) rfl rfl

theorem Dev.steers_beginSlew (d : Dev) (theta : Int) : Dev.Steers sourceFields d (d.beginSlew theta) := by
  unfold Dev.beginSlew
  extract_lets x tb e
  have h : Dev.Steers sourceFields d e := (Dev.Steers.refl _ d).wrTb (by decide) (by simp [sourceFields]) rfl rfl
  exact (h.wr (by decide) (by simp [sourceFields])).ite h

theorem Dev.steers_putE (d : Dev) (e : Nat) : Dev.Steers sourceFields d (d.putE e) := by
  unfold Dev.putE
  generalize min (rhu (e : Int) 10000).toNat (2 ^ 32 - 1) = v
  exact (Dev.Steers.refl _ d).wrTb (by decide) (by simp [sourceFields]) rfl rfl

theorem Dev.steers_enterHoldover (d : Dev) (src : Nat) : Dev.Steers sourceFields d (d.enterHoldover src) := by
  unfold Dev.enterHoldover
  extract_lets n e0 f0 e1 tb e2 e3 e4
  have h1 : Dev.Steers sourceFields d e1 := d.steers_endSlew
  have h2 : Dev.Steers sourceFields d e2 := h1.tb rfl rfl
  have h3 : Dev.Steers sourceFields d e3 := ((h2.wr (by decide) (by simp [sourceFields])).wr (by decide) (by simp [sourceFields])).trans (Dev.steers_putE _ _)
  have h4 : Dev.Steers sourceFields d e4 := (h3.wr (by decide) (by simp [sourceFields])).wr (by decide) (by simp [sourceFields])
  exact h4.raise (by decide)

theorem Dev.steers_selectSrc (d : Dev) : Dev.Steers sourceFields d d.selectSrc := by
  unfold Dev.selectSrc
  extract_lets old new port e1 e2 e3 tb e4
  have h1 : Dev.Steers sourceFields d e1 := ((Dev.Steers.refl _ d).wr (by decide) (by simp [sourceFields])).wr (by decide) (by simp [sourceFields])
  have h2 : Dev.Steers sourceFields d e2 := (h1.wr (by decide) (by simp [sourceFields])).ite h1
  have h3 : Dev.Steers sourceFields d e3 := h2.ite (h2.wr (by decide) (by simp [sourceFields]))
  have h4 : Dev.Steers sourceFields d e4 := h3.tb rfl rfl
  exact (Dev.Steers.refl _ d).ite (((d.steers_enterHoldover _).ite (Dev.Steers.refl _ d)).ite (h4.raise (by decide)))

theorem Dev.steers_loseSrc (d : Dev) (kind : Nat) : Dev.Steers sourceFields d (d.loseSrc kind) := by
  unfold Dev.loseSrc
  extract_lets tb e
  have h : Dev.Steers sourceFields d e := (Dev.Steers.refl _ d).tb rfl rfl
  exact h.trans e.steers_selectSrc

theorem Dev.steers_correct (d : Dev) (theta : Int) : Dev.Steers sourceFields d (d.correct theta) := by
  unfold Dev.correct
  exact (d.steers_endSlew.clock).ite ((Dev.Steers.refl _ d).ite (((Dev.Steers.refl _ d).ite (d.steers_beginSlew theta)).ite ((Dev.Steers.refl _ d).tb rfl rfl)))

theorem Dev.steers_tbLock (d : Dev) : Dev.Steers sourceFields d d.tbLock :=
  (((Dev.Steers.refl _ d).wr (by decide) (by simp [sourceFields])).raise (by decide)).ite (Dev.Steers.refl _ d)

theorem Dev.steers_fresh (l : List Field) (d : Dev) : Dev.Steers l d d.fresh.1 := ⟨rfl, rfl, rfl, rfl, rfl, rfl, rfl, Dev.Writes.of_regs rfl⟩

theorem Dev.steers_servo (d : Dev) : Dev.Steers sourceFields d d.servo := by
  have h := d.steers_fresh sourceFields
  unfold Dev.servo
  generalize d.fresh = p at h
  obtain ⟨e, v⟩ := p
  have hw : Dev.Steers sourceFields d (e.wrI Reg.TB_FREQ_FREQ (satTo (-500000000) 500000000 (sx 32 v)).1) := h.wr (by decide) (by simp [sourceFields])
  generalize he : e.wrI Reg.TB_FREQ_FREQ (satTo (-500000000) 500000000 (sx 32 v)).1 = x at hw
  have ht : x.tb = e.tb := by rw [← he]; exact Dev.wr_tb _ _ _ _ _
  dsimp only
  rw [he]
  exact hw.tb (congrArg Tb.ports ht).symm (congrArg Tb.near ht).symm

theorem Dev.steers_acceptOffset (d : Dev) (theta : Int) : Dev.Steers offsetFields d (d.acceptOffset theta) := by
  unfold Dev.acceptOffset
  extract_lets e1 tb e2
  have h1 : Dev.Steers offsetFields d e1 := (Dev.Steers.refl _ d).wr (by decide) (by simp [offsetFields])
  have h2 : Dev.Steers offsetFields d e2 := h1.tb rfl rfl
  exact h2.trans (((e2.steers_servo.trans (Dev.steers_correct _ theta)).trans (Dev.steers_tbLock _)).mono sourceFields_sub)

theorem Dev.steers_measure (d : Dev) (kind : Nat) {port : Nat} (hp : port < 4) (theta : Int) : Dev.Steers offsetFields d (d.measure kind port theta) := by
  have h0 := Dev.Steers.refl offsetFields d
  unfold Dev.measure
  split
  · exact h0
  · split
    · split
      · exact d.steers_acceptOffset theta
      · extract_lets e1 e2 e3 n tb e4
        have h1 : Dev.Steers offsetFields d e1 := h0.wr (by decide) (by simp [offsetFields])
        have h2 : Dev.Steers offsetFields d e2 := (h1.wr (Field.has_of hp (by decide)) (by simp [offsetFields])).ite h1
        have h3 : Dev.Steers offsetFields d e3 := h2.raise (by decide)
        have h4 : Dev.Steers offsetFields d e4 := h3.tb rfl rfl
        have h5 := (h4.wr (f := Reg.TB_ERR_PPS_LOST) (v := 1) (i := 0) (j := 0) (by decide) (by simp [offsetFields])).raise (ev := Ev.TB_PPS_LOST) (inst := 0) (data := 2) (by decide)
        exact h4.ite ((h5.trans ((Dev.steers_loseSrc _ kind).mono sourceFields_sub)).ite (h4.trans ((Dev.steers_loseSrc _ kind).mono sourceFields_sub)))
    · extract_lets l ok q tb e1 e2 tb'
      have h1 : Dev.Steers offsetFields d e1 := h0.tb rfl rfl
      have h2 : Dev.Steers offsetFields d e2 := h1.trans (e1.steers_selectSrc.mono sourceFields_sub)
      clear_value e2
      split
      · refine Dev.Steers.trans ?_ (Dev.steers_acceptOffset _ _)
        exact h2.tb rfl rfl
      · exact h2

theorem Dev.steers_updClass (d : Dev) : Dev.Steers [Reg.TB_PTP_DS_CLASS] d d.updClass := by
  unfold Dev.updClass
  exact (Dev.Steers.refl _ d).wr (by decide) (by simp)

/-! ### Sources that stand -/

theorem Dev.endSlew_qual (d : Dev) : d.endSlew.tb.qual = d.tb.qual := rfl

theorem Dev.putE_qual (d : Dev) (e : Nat) : (d.putE e).tb.qual = d.tb.qual := rfl

theorem Dev.enterHoldover_qual (d : Dev) (src : Nat) : (d.enterHoldover src).tb.qual = d.tb.qual := by
  unfold Dev.enterHoldover
  extract_lets n e0 f0 e1 tb e2 e3 e4
  have h1 : e1.tb.qual = d.tb.qual := d.endSlew_qual
  clear_value e1
  have h2 : e2.tb.qual = d.tb.qual := h1
  clear_value e2
  have h3 : e3.tb.qual = d.tb.qual := (Dev.putE_qual _ _).trans ((congrArg Tb.qual ((Dev.wr_tb _ _ _ _ _).trans (Dev.wr_tb _ _ _ _ _))).trans h2)
  clear_value e3
  have h4 : e4.tb = e3.tb := (Dev.wr_tb _ _ _ _ _).trans (Dev.wr_tb _ _ _ _ _)
  rw [Dev.raise_tb, h4, h3]

theorem Dev.ite_tb_of {a b : Dev} {y : Tb} (c : Prop) [Decidable c] (ha : a.tb = y) (hb : b.tb = y) : (if c then a else b).tb = y := by
  split
  · exact ha
  · exact hb

theorem Dev.selectSrc_qual (d : Dev) : d.selectSrc.tb.qual = d.tb.qual := by
  unfold Dev.selectSrc
  extract_lets old new port e1 e2 e3 tb e4
  have h1 : e1.tb = d.tb := (Dev.wr_tb _ _ _ _ _).trans (Dev.wr_tb _ _ _ _ _)
  have h2 : e2.tb = d.tb := Dev.ite_tb_of _ ((Dev.wr_tb _ _ _ _ _).trans h1) h1
  have h3 : e3.tb = d.tb := Dev.ite_tb_of _ h2 ((Dev.wr_tb _ _ _ _ _).trans h2)
  clear_value e3
  have h34 : e4.tb.qual = e3.tb.qual := rfl
  have h4 : e4.tb.qual = d.tb.qual := h34.trans (congrArg Tb.qual h3)
  split
  · rfl
  · split
    · split
      · exact d.enterHoldover_qual _
      · rfl
    · exact (congrArg Tb.qual (Dev.raise_tb _ _ _ _)).trans h4

theorem Dev.loseSrc_qual (d : Dev) (kind : Nat) : (d.loseSrc kind).tb.qual = d.tb.qual.filter (fun k => k != kind) := by
  unfold Dev.loseSrc
  exact Dev.selectSrc_qual _

end Sys2Proof.Machine
end

section
/-!
PROOFS. Proofs/PtpPorts.lean: messages on the PTP ports, and the loss of their source (R154 to R157).
-/
namespace Sys2Proof.Machine

/-! ### Values that saturate -/

theorem sat32_bounds (x : Int) : -(2 ^ 31 : Nat) ≤ sat32 x ∧ sat32 x < (2 ^ 31 : Nat) := by
  unfold sat32 clampS satS satTo
  split
  · exact ⟨by decide, by decide⟩
  · split
    · exact ⟨by decide, by decide⟩
    · simp only at *
      omega

/-! ### The ports -/

/-- What the states of the ports and the choice of source write. -/
def portFields : List Field := [Reg.TB_PTP_STAT_PORT_STATE, Reg.TB_PTP_DS_CLASS] ++ sourceFields

theorem sourceFields_port : sourceFields ⊆ portFields := fun _ h => List.mem_append_right _ h

theorem Dev.steers_portState (d : Dev) {p : Nat} (hp : p < 4) (st : Nat) : Dev.Steers [Reg.TB_PTP_STAT_PORT_STATE] d (d.portState p st) :=
  (Dev.Steers.refl _ d).ite (((Dev.Steers.refl _ d).wr (Field.has_of hp (by decide)) (by simp)).raise (by decide))

theorem Dev.portState_tb (d : Dev) (p st : Nat) : (d.portState p st).tb = d.tb := by
  unfold Dev.portState
  split
  · rfl
  · rw [Dev.raise_tb, Dev.wr_tb]

theorem Dev.portState_shown (d : Dev) {p st : Nat} (hp : p < 4) (h : st < 16) : (d.portState p st).rd Reg.TB_PTP_STAT_PORT_STATE p = st := by
  unfold Dev.portState
  split
  case isTrue he => exact he
  case isFalse =>
    rw [Dev.rd_raise _ _ _ _ _ _ _ (Field.clearOf_events (l := []) (by decide) (Field.has_of hp (by decide)))]
    exact (Dev.rd_wr_self d _ st p 0 (by decide)).trans (Nat.mod_eq_of_lt h)

theorem Dev.portState_other (d : Dev) {p q : Nat} (st : Nat) (hq : q < 4) (h : q ≠ p) : (d.portState p st).rd Reg.TB_PTP_STAT_PORT_STATE q = d.rd Reg.TB_PTP_STAT_PORT_STATE q := by
  unfold Dev.portState
  split
  · rfl
  · rw [Dev.rd_raise _ _ _ _ _ _ _ (Field.clearOf_events (l := []) (by decide) (Field.has_of hq (by decide)))]
    exact Dev.rd_wr_ne d _ _ st p 0 q 0 (by simp only [Field.addr, Reg.TB_PTP_STAT_PORT_STATE]; omega)

/-- The states of the ports as decided. -/
def Dev.decidePorts (d : Dev) (l : List Nat) : Dev := l.foldl (fun (d : Dev) p => d.portState p (d.ptpDecide p)) d

theorem Dev.steers_decidePorts (d : Dev) {l : List Nat} (h : ∀ p ∈ l, p < 4) : Dev.Steers [Reg.TB_PTP_STAT_PORT_STATE] d (d.decidePorts l) := by
  induction l generalizing d with
  | nil => exact Dev.Steers.refl _ d
  | cons p l ih => exact (d.steers_portState (h p List.mem_cons_self) _).trans (ih _ fun q hq => h q (List.mem_cons_of_mem _ hq))

theorem Dev.decidePorts_tb (d : Dev) (l : List Nat) : (d.decidePorts l).tb = d.tb := by
  induction l generalizing d with
  | nil => rfl
  | cons p l ih => exact (ih _).trans (d.portState_tb p _)

theorem Dev.bestAnn_congr {d e : Dev} (h : e.tb.ports = d.tb.ports) : e.bestAnn = d.bestAnn := by
  unfold Dev.bestAnn Dev.ptp
  rw [h]

/-- No announcement leaves no port to follow. -/
theorem Dev.ptpDecide_none {d : Dev} (h : d.bestAnn = none) (p : Nat) : d.ptpDecide p = 3 ∨ d.ptpDecide p = 4 ∨ d.ptpDecide p = 6 := by
  unfold Dev.ptpDecide
  split
  · exact .inl rfl
  · extract_lets so
    rw [h]
    dsimp only
    split
    · exact .inr (.inl rfl)
    · exact .inr (.inr rfl)

theorem Dev.decidePorts_none {d : Dev} (h : d.bestAnn = none) {l : List Nat} {q : Nat} (hq : q < 4) (hl : q ∈ l ∨ d.rd Reg.TB_PTP_STAT_PORT_STATE q ≠ 9) :
    (d.decidePorts l).rd Reg.TB_PTP_STAT_PORT_STATE q ≠ 9 := by
  induction l generalizing d with
  | nil => exact hl.elim (fun h => absurd h List.not_mem_nil) id
  | cons p l ih =>
    have hb : (d.portState p (d.ptpDecide p)).bestAnn = none := (Dev.bestAnn_congr (congrArg Tb.ports (d.portState_tb p _))).trans h
    refine ih hb ?_
    by_cases hqp : q = p
    · right
      rw [hqp, Dev.portState_shown d (hqp ▸ hq) (by rcases d.ptpDecide_none h p with h | h | h <;> omega)]
      rcases d.ptpDecide_none h p with h | h | h <;> omega
    · refine hl.imp (fun hm => (List.mem_cons.1 hm).resolve_left hqp) fun hn => ?_
      rw [Dev.portState_other d _ hq hqp]
      exact hn

theorem Dev.slavePort_none {d : Dev} (h : ∀ q, q < 4 → d.rd Reg.TB_PTP_STAT_PORT_STATE q ≠ 9) : d.slavePort = none := by
  unfold Dev.slavePort
  refine List.find?_eq_none.2 fun p hp => ?_
  rw [beq_iff_eq]
  exact h p (List.mem_range.1 hp)

/-- The device that follows a grandmaster, and has lost the source if it followed another. -/
def Dev.followed (d : Dev) : Dev := match d.bestAnn with
  | some (ds, _) =>
    let gm := ds.getD 5 0
    if d.tb.gm = gm then d
    else
      let had := d.tb.gm
      let d := { d with tb := { d.tb with gm := gm } }
      if had = 0 then d else d.loseSrc srcPtp
  | none => d

/-- The device that shows the port it follows. -/
def Dev.showPort (d : Dev) : Dev := match d.slavePort with
  | some p => if d.rd Reg.TB_STATUS_SRC = srcPtp then d.wr Reg.TB_STATUS_PTP_PORT p else d
  | none => d

theorem Dev.bmca_eq (d : Dev) : d.bmca = (d.decidePorts (List.range 4)).followed.showPort.updClass := rfl

theorem Dev.steers_bmca (d : Dev) : Dev.Steers portFields d d.bmca := by
  rw [Dev.bmca_eq]
  have h1 := (d.steers_decidePorts (l := List.range 4) fun p hp => List.mem_range.1 hp).mono (m := portFields) (by simp [portFields])
  generalize d.decidePorts (List.range 4) = e at h1
  have h2 : Dev.Steers portFields d e.followed := by
    unfold Dev.followed
    split
    · extract_lets gm had tb f
      have hf : Dev.Steers portFields d f := h1.tb rfl rfl
      exact h1.ite (hf.ite (hf.trans ((Dev.steers_loseSrc _ _).mono sourceFields_port)))
    · exact h1
  generalize e.followed = f at h2
  have h3 : Dev.Steers portFields d f.showPort := by
    unfold Dev.showPort
    split
    · exact (h2.wr (by decide) (by simp [portFields, sourceFields])).ite h2
    · exact h2
  exact h3.trans ((Dev.steers_updClass _).mono (by simp [portFields]))

/-- Without an announcement no port follows. -/
theorem Dev.bmca_none {d : Dev} (h : d.bestAnn = none) : d.bmca = (d.decidePorts (List.range 4)).updClass ∧ d.bmca.slavePort = none ∧ d.bmca.tb = d.tb := by
  have hb : (d.decidePorts (List.range 4)).bestAnn = none := (Dev.bestAnn_congr (congrArg Tb.ports (d.decidePorts_tb _))).trans h
  have hs : ∀ q, q < 4 → (d.decidePorts (List.range 4)).rd Reg.TB_PTP_STAT_PORT_STATE q ≠ 9 := fun q hq => Dev.decidePorts_none h hq (.inl (List.mem_range.2 hq))
  have htb := d.decidePorts_tb (List.range 4)
  rw [Dev.bmca_eq]
  generalize d.decidePorts (List.range 4) = e at hb hs htb
  have hf : e.followed = e := by
    unfold Dev.followed
    rw [hb]
  have hsh : e.showPort = e := by
    unfold Dev.showPort
    rw [Dev.slavePort_none hs]
  rw [hf, hsh]
  refine ⟨rfl, Dev.slavePort_none fun q hq => ?_, ?_⟩
  · rw [e.steers_updClass.rd (Field.has_of hq (by decide)) (by decide)]
    exact hs q hq
  · unfold Dev.updClass
    rw [Dev.wr_tb]
    exact htb

/-! ### Messages -/

section
variable {s : State} {t v : Nat} {p : Fin 4}

theorem Dev.ptp_setPtp (d : Dev) (p : Nat) (x : PtpPort) : (d.setPtp p x).ptp p = x := Tbl.get_set_self _ _ _ _

theorem Dev.ptp_setPtp_ne (d : Dev) {p q : Nat} (x : PtpPort) (h : q ≠ p) : (d.setPtp p x).ptp q = d.ptp q := Tbl.get_set_ne _ _ _ _ h

theorem Dev.ptp_congr {d e : Dev} (h : e.tb.ports = d.tb.ports) (p : Nat) : e.ptp p = d.ptp p := by
  unfold Dev.ptp
  rw [h]

/-- The device that has counted an event message of a port. -/
def Dev.countedPtp (d : Dev) (p : Nat) : Dev := d.bump Reg.TB_PTP_CNT_EVENT_RX 1 p

theorem Dev.countedPtp_kept (d : Dev) (p : Fin 4) : (d.countedPtp p).stReq = d.stReq ∧ (d.countedPtp p).out = d.out ∧ (d.countedPtp p).reel = d.reel ∧
    Dev.Writes [Reg.TB_PTP_CNT_EVENT_RX] d (d.countedPtp p) :=
  ⟨Dev.wr_stReq _ _ _ _ _, Dev.wr_out _ _ _ _ _, Dev.wr_reel _ _ _ _ _, Dev.Writes.wr d _ (Field.has_of p.isLt (by decide)) (by simp)⟩

theorem Dev.ptpOpt_congr {d e : Dev} (h : e.reel = d.reel) (p : Nat) : e.ptpOpt p = d.ptpOpt p := by
  unfold Dev.ptpOpt Dev.rl
  rw [h]

theorem Dev.ptpEvent_sync {d : Dev} (hr : d.ptpRole p ≠ 0) (hs : d.rd Reg.TB_PTP_STAT_PORT_STATE p = 9) (hd : d.rd Reg.TB_PTP_DELAY_MEAN_DELAY p ≠ 0xFFFFFFFF) :
    ∃ e : Dev, e.stReq = d.stReq ∧ d.ptpEvent p 0 v = (e.wrI Reg.TB_PTP_OFFSET_THETA (sat32 ((v : Int) + d.rd Reg.TB_PTP_DELAY_MEAN_DELAY p - ((d.now : Int) - d.rd Reg.TB_PTP_LAT_RX p))) p).measure
      srcPtp p ((v : Int) + d.rd Reg.TB_PTP_DELAY_MEAN_DELAY p - ((d.now : Int) - d.rd Reg.TB_PTP_LAT_RX p)) := by
  have hP : Reg.TB_PTP_STAT_PORT_STATE.has p 0 = true := Field.has_of p.isLt (by decide)
  have hD : Reg.TB_PTP_DELAY_MEAN_DELAY.has p 0 = true := Field.has_of p.isLt (by decide)
  obtain ⟨h1, -, -, hw⟩ := d.countedPtp_kept p
  refine ⟨(d.countedPtp p).setPtp p { d.ptp p with sync := some (v, (d.now : Int) - d.rd Reg.TB_PTP_LAT_RX p) }, h1, ?_⟩
  have hst : (d.countedPtp p).rd Reg.TB_PTP_STAT_PORT_STATE p = 9 := (hw _ _ _ hP (by decide)).trans hs
  have hde : ((d.countedPtp p).setPtp p { d.ptp p with sync := some (v, (d.now : Int) - d.rd Reg.TB_PTP_LAT_RX p) }).rd Reg.TB_PTP_DELAY_MEAN_DELAY p = d.rd Reg.TB_PTP_DELAY_MEAN_DELAY p :=
    (Dev.rd_congr (Dev.word_congr rfl _)).trans (hw _ _ _ hD (by decide))
  unfold Dev.ptpEvent
  rw [if_neg hr, if_neg (by decide)]
  dsimp only
  rw [if_pos (show 0 = 0 ∨ 0 = 2 ∨ 0 = 3 ∨ 0 = 4 from .inl rfl), ← Dev.countedPtp, hst, hde, if_neg (by simp [hd])] <;> rfl

theorem ends_ptpSync (hr : s.dev.ptpRole p ≠ 0) (hs : s.dev.rd Reg.TB_PTP_STAT_PORT_STATE p = 9) (hd : s.dev.rd Reg.TB_PTP_DELAY_MEAN_DELAY p ≠ 0xFFFFFFFF) :
    Ends (.ptpEventReceive t p 0 v) s fun d =>
      d.rdI Reg.TB_PTP_OFFSET_THETA p = sat32 ((v : Int) + s.dev.rd Reg.TB_PTP_DELAY_MEAN_DELAY p - ((s.dev.nowAt t : Int) - s.dev.rd Reg.TB_PTP_LAT_RX p)) := by
  refine ends_of (exec_ptpEventReceive t p 0 v s) ?_
  have hO : Reg.TB_PTP_OFFSET_THETA.has p 0 = true := Field.has_of p.isLt (by decide)
  obtain ⟨e, hst, he⟩ := Dev.ptpEvent_sync (d := begin_ t s.dev) (v := v) (p := p) hr hs hd
  rw [he]
  show (settle s.dev ((e.wrI Reg.TB_PTP_OFFSET_THETA (sat32 ((v : Int) + s.dev.rd Reg.TB_PTP_DELAY_MEAN_DELAY p - ((s.dev.nowAt t : Int) - s.dev.rd Reg.TB_PTP_LAT_RX p))) p).measure srcPtp p
    ((v : Int) + s.dev.rd Reg.TB_PTP_DELAY_MEAN_DELAY p - ((s.dev.nowAt t : Int) - s.dev.rd Reg.TB_PTP_LAT_RX p)))).rdI Reg.TB_PTP_OFFSET_THETA p = _
  generalize (v : Int) + s.dev.rd Reg.TB_PTP_DELAY_MEAN_DELAY p - ((s.dev.nowAt t : Int) - s.dev.rd Reg.TB_PTP_LAT_RX p) = theta
  obtain ⟨hlo, hhi⟩ := sat32_bounds theta
  have hrd := Dev.rdI_wrI_self e Reg.TB_PTP_OFFSET_THETA p 0 (by decide) (by decide) (v := sat32 theta) hlo hhi
  have hst' : (e.wrI Reg.TB_PTP_OFFSET_THETA (sat32 theta) p).stReq = [] := (Dev.wr_stReq _ _ _ _ _).trans hst
  generalize e.wrI Reg.TB_PTP_OFFSET_THETA (sat32 theta) p = f at hrd hst'
  have hm := f.steers_measure srcPtp p.isLt theta
  rw [Dev.rdI_congr ((settle_rd_clear _ _ (hm.stReq.trans hst') _ _ _ hO (by decide)).trans (hm.rd hO (by decide)))]
  exact hrd

theorem ends_ptpDelayReq (hr : s.dev.ptpRole p ≠ 0) (hs : s.dev.rd Reg.TB_PTP_STAT_PORT_STATE p = 6) (ho : bitAt (s.dev.ptpOpt p) 0 = false) :
    Ends (.ptpEventReceive t p 3 v) s fun d => d.out = [.ptp p 5 ((s.dev.nowAt t : Int) - s.dev.rd Reg.TB_PTP_LAT_RX p).toNat []] := by
  refine ends_of (exec_ptpEventReceive t p 3 v s) ?_
  have hP : Reg.TB_PTP_STAT_PORT_STATE.has p 0 = true := Field.has_of p.isLt (by decide)
  obtain ⟨h1, h2, h3, hw⟩ := (begin_ t s.dev).countedPtp_kept p
  have hst : ((begin_ t s.dev).countedPtp p).rd Reg.TB_PTP_STAT_PORT_STATE p = 6 := (hw _ _ _ hP (by decide)).trans hs
  have hopt : bitAt (((begin_ t s.dev).countedPtp p).ptpOpt p) 0 = false := by
    rw [Dev.ptpOpt_congr h3]
    exact ho
  have heq : (begin_ t s.dev).ptpEvent p 3 v = ((begin_ t s.dev).countedPtp p).emit (.ptp p 5 ((s.dev.nowAt t : Int) - s.dev.rd Reg.TB_PTP_LAT_RX p).toNat []) := by
    have hr' : (begin_ t s.dev).ptpRole p ≠ 0 := hr
    unfold Dev.ptpEvent
    rw [if_neg hr', if_neg (by decide)]
    dsimp only
    rw [if_pos (show 3 = 0 ∨ 3 = 2 ∨ 3 = 3 ∨ 3 = 4 from .inr (.inr (.inl rfl))), ← Dev.countedPtp, hst, hopt, if_pos (by simp)]
    rfl
  rw [heq]
  generalize (begin_ t s.dev).countedPtp p = e at h1 h2
  rw [settle_emit_out _ _ _ h1, h2]
  rfl

theorem ends_ptpMalformed {k : Nat} (hr : s.dev.ptpRole p ≠ 0) (hk : 5 < k) : Ends (.ptpEventReceive t p k v) s fun d =>
    d.rd Reg.TB_PTP_CNT_DISCARD p = min (s.dev.rd Reg.TB_PTP_CNT_DISCARD p + 1) 65535 ∧ s.dev.OnlyWrites d [Reg.TB_PTP_CNT_DISCARD.addr p 0] := by
  refine ends_of (exec_ptpEventReceive t p k v s) ?_
  have hD : Reg.TB_PTP_CNT_DISCARD.has p 0 = true := Field.has_of p.isLt (by decide)
  have heq : (begin_ t s.dev).ptpEvent p k v = (begin_ t s.dev).bump Reg.TB_PTP_CNT_DISCARD 1 p := by
    have hr' : (begin_ t s.dev).ptpRole p ≠ 0 := hr
    unfold Dev.ptpEvent
    rw [if_neg hr', if_pos hk]
  rw [heq]
  have hst : ((begin_ t s.dev).bump Reg.TB_PTP_CNT_DISCARD 1 p).stReq = [] := Dev.wr_stReq _ _ _ _ _
  refine ⟨?_, Dev.Touches.settle (Dev.Touches.wr _ _ _ _ (List.mem_singleton.2 rfl)) hst⟩
  rw [settle_rd_clear _ _ hst _ _ _ hD (by decide), Dev.rd_bump_self _ _ _ _ _ (by decide)]
  rfl

theorem ends_ptpAnnounce {ds : List Nat} {utc : Option Int} {a b bad : Bool} (hr : s.dev.ptpRole p ≠ 0) (hb : bad = false) (hl : ds.length = 7) :
    Ends (.ptpAnnounceReceive t p ds utc a b bad) s fun d => (d.ptp p).ann = some ds := by
  refine ends_of (exec_ptpAnnounceReceive t p ds utc a b bad s) ?_
  have hr' : (begin_ t s.dev).ptpRole p ≠ 0 := hr
  unfold Dev.ptpAnnounce
  rw [if_neg hr', if_neg (by rw [hb, hl]; simp)]
  have hann : (((begin_ t s.dev).setPtp p { (begin_ t s.dev).ptp p with ann := some ds }).ptp p).ann = some ds := by rw [Dev.ptp_setPtp]
  have hst0 : ((begin_ t s.dev).setPtp p { (begin_ t s.dev).ptp p with ann := some ds }).stReq = [] := rfl
  generalize (begin_ t s.dev).setPtp p { (begin_ t s.dev).ptp p with ann := some ds } = e at hann hst0
  have h := e.steers_bmca
  extract_lets f g
  have hshow : ∀ x : Dev, x.stReq = e.stReq → x.tb = f.tb → ((settle s.dev x).ptp p).ann = some ds := by
    intro x hx ht
    rw [Dev.ptp_congr (d := e), hann]
    rw [settle_tb _ x (hx.trans hst0), ht]
    exact h.ports
  have hf : f.stReq = e.stReq := h.stReq
  clear_value f
  split
  · exact hshow _ hf rfl
  · have hg : g.stReq = e.stReq ∧ g.tb = f.tb :=
      ⟨((Dev.wr_stReq _ _ _ _ _).trans ((Dev.wr_stReq _ _ _ _ _).trans (Dev.wr_stReq _ _ _ _ _))).trans hf, (Dev.wr_tb _ _ _ _ _).trans ((Dev.wr_tb _ _ _ _ _).trans (Dev.wr_tb _ _ _ _ _))⟩
    obtain ⟨hg1, hg2⟩ := hg
    clear_value g
    split
    · exact hshow _ hg1 hg2
    · rename_i old u
      extract_lets y
      have hy : y.stReq = e.stReq ∧ y.tb = f.tb := ⟨(Dev.wr_stReq _ _ _ _ _).trans hg1, (Dev.wr_tb _ _ _ _ _).trans hg2⟩
      obtain ⟨hy1, hy2⟩ := hy
      clear_value y
      split
      · exact hshow _ hy1 hy2
      · exact hshow _ ((Dev.stReq_raise _ _ _ _ (by decide)).trans hy1) ((Dev.raise_tb _ _ _ _).trans hy2)

theorem ends_ptpSend (hr : s.dev.ptpRole p ≠ 0) (hs : s.dev.rd Reg.TB_PTP_STAT_PORT_STATE p = 6) :
    Ends (.ptpMessageSend t p 0) s fun d => d.out = [.ptp p 0 (s.dev.nowAt t + s.dev.rd Reg.TB_PTP_LAT_TX p) []] := by
  refine ends_of (exec_ptpMessageSend t p 0 s) ?_
  have heq : (begin_ t s.dev).ptpSend p 0 = (begin_ t s.dev).emit (.ptp p 0 (s.dev.nowAt t + s.dev.rd Reg.TB_PTP_LAT_TX p) []) := by
    have hr' : (begin_ t s.dev).ptpRole p ≠ 0 := hr
    have hs' : (begin_ t s.dev).rd Reg.TB_PTP_STAT_PORT_STATE p = 6 := hs
    unfold Dev.ptpSend
    dsimp only
    rw [if_neg hr', if_pos ⟨rfl, hs'⟩]
    rfl
  have hst : (begin_ t s.dev).stReq = [] := rfl
  rw [heq, settle_emit_out _ _ _ hst]
  rfl

/-! ### The loss of a source -/

/-- The device that has forgotten what a port heard. -/
def Dev.forgetPort (d : Dev) (p : Nat) : Dev := d.setPtp p { d.ptp p with ann := none, sync := none }

theorem Dev.ptpTimeout_steers (d : Dev) (p : Fin 4) : Dev.Steers portFields (d.forgetPort p) (d.ptpTimeout p) := by
  have h := (d.forgetPort p).steers_bmca
  have hl : ∀ e : Dev, Dev.Steers portFields (d.forgetPort p) e → Dev.Steers portFields (d.forgetPort p) (e.loseSrc srcPtp) := fun e he =>
    he.trans ((Dev.steers_loseSrc _ _).mono sourceFields_port)
  unfold Dev.ptpTimeout
  rw [← Dev.forgetPort]
  extract_lets was f
  split
  · exact h
  · split
    · exact h.ite (hl _ h)
    · exact hl _ h

theorem ends_ptpTimeout : Ends (.ptpSourceTimeout t p) s fun d => (d.ptp p).ann = none ∧ (d.ptp p).sync = none := by
  refine ends_of (exec_ptpSourceTimeout t p s) ?_
  have h := (begin_ t s.dev).ptpTimeout_steers p
  have hst : ((begin_ t s.dev).ptpTimeout p).stReq = [] := h.stReq
  have hp : ((begin_ t s.dev).forgetPort p).ptp p = { (begin_ t s.dev).ptp p with ann := none, sync := none } := Dev.ptp_setPtp _ _ _
  rw [Dev.ptp_congr (d := (begin_ t s.dev).forgetPort p) (by rw [settle_tb _ _ hst]; exact h.ports), hp]
  exact ⟨rfl, rfl⟩

theorem Dev.enterHoldover_shown (d : Dev) (src : Nat) : (d.enterHoldover src).rd Reg.TB_STATUS_STATE = tbHoldover ∧ (d.enterHoldover src).rd Reg.TB_STATUS_SRC = 0 := by
  unfold Dev.enterHoldover
  extract_lets n e0 f0 e1 tb e2 e3 e4
  have h4 : e4.rd Reg.TB_STATUS_STATE = tbHoldover ∧ e4.rd Reg.TB_STATUS_SRC = 0 :=
    ⟨Dev.rd_wr_self _ Reg.TB_STATUS_STATE tbHoldover 0 0 (by decide), (Dev.rd_wr_apart _ Reg.TB_STATUS_STATE Reg.TB_STATUS_SRC _ 0 0 0 0 (by decide)).trans
      (Dev.rd_wr_self e3 Reg.TB_STATUS_SRC 0 0 0 (by decide))⟩
  clear_value e4
  exact ⟨(Dev.rd_raise_quiet _ _ _ _ _ _ _ (by decide)).trans h4.1, (Dev.rd_raise_quiet _ _ _ _ _ _ _ (by decide)).trans h4.2⟩

theorem Dev.follower_congr {d e : Dev} (h1 : e.rd Reg.TB_BOARD_MASTER_VALID = d.rd Reg.TB_BOARD_MASTER_VALID) (h2 : e.rd Reg.TB_STATUS_BOARD_MASTER = d.rd Reg.TB_STATUS_BOARD_MASTER) :
    e.follower = d.follower := by
  unfold Dev.follower Dev.on
  rw [h1, h2]

/-- The loss of the last source of a device that follows no board time begins holdover. -/
theorem Dev.loseSrc_last {d : Dev} (hs : d.rd Reg.TB_STATUS_SRC = srcPtp) (hf : d.follower = false) (hq : srcPps ∉ d.tb.qual) :
    (d.loseSrc srcPtp).rd Reg.TB_STATUS_STATE = tbHoldover ∧ (d.loseSrc srcPtp).rd Reg.TB_STATUS_SRC = 0 := by
  unfold Dev.loseSrc
  extract_lets tb e
  have hes : e.rd Reg.TB_STATUS_SRC = srcPtp := hs
  have hef : e.follower = false := hf
  have hpps : e.tb.qual.contains srcPps = false := by
    exact Bool.eq_false_iff.2 fun h => hq (List.mem_of_mem_filter (List.contains_iff_mem.1 h))
  have hptp : e.tb.qual.contains srcPtp = false := by
    exact Bool.eq_false_iff.2 fun h => absurd (List.mem_filter.1 (List.contains_iff_mem.1 h)).2 (by simp)
  clear_value e
  have hbest : e.bestSrc = 0 := by
    unfold Dev.bestSrc
    dsimp only
    rw [hef, hpps, hptp]
    simp
  have hsel : e.phaseSel = true := by
    unfold Dev.phaseSel
    dsimp only
    rw [hes]
    rfl
  unfold Dev.selectSrc
  dsimp only
  rw [hbest, hes, if_neg (by decide), if_pos rfl, hsel, if_pos rfl]
  exact e.enterHoldover_shown _

theorem Dev.bestAnn_none {d : Dev} (h : ∀ q, q < 4 → (d.ptp q).ann = none) : d.bestAnn = none := by
  unfold Dev.bestAnn
  simp [List.range, List.range.loop, h 0 (by decide), h 1 (by decide), h 2 (by decide), h 3 (by decide)]

theorem ends_ptpTimeout_last (hp : s.dev.rd Reg.TB_PTP_STAT_PORT_STATE p = 9) (ho : ∀ q, q < 4 → q ≠ p.val → (s.dev.ptp q).ann = none) (hs : s.dev.rd Reg.TB_STATUS_SRC = srcPtp)
    (hf : s.dev.follower = false) (hq : srcPps ∉ s.dev.tb.qual) :
    Ends (.ptpSourceTimeout t p) s fun d => d.rd Reg.TB_STATUS_STATE = tbHoldover ∧ d.rd Reg.TB_STATUS_SRC = 0 := by
  refine ends_of (exec_ptpSourceTimeout t p s) ?_
  have hbest : ((begin_ t s.dev).forgetPort p).bestAnn = none := by
    refine Dev.bestAnn_none fun q hq => ?_
    by_cases h : q = p.val
    · rw [h]
      exact congrArg PtpPort.ann (Dev.ptp_setPtp _ _ _)
    · exact (congrArg PtpPort.ann (Dev.ptp_setPtp_ne _ _ h)).trans (ho q hq h)
  obtain ⟨-, hslave, htb⟩ := Dev.bmca_none hbest
  have hb := ((begin_ t s.dev).forgetPort p).steers_bmca
  have hdec := Dev.bmca_none hbest
  have heq : (begin_ t s.dev).ptpTimeout p = ((begin_ t s.dev).forgetPort p).bmca.loseSrc srcPtp := by
    have hp' : (begin_ t s.dev).rd Reg.TB_PTP_STAT_PORT_STATE p = 9 := hp
    unfold Dev.ptpTimeout
    rw [← Dev.forgetPort]
    dsimp only
    rw [hp', if_neg (by simp), hslave]
  have hw : Dev.Steers [Reg.TB_PTP_STAT_PORT_STATE, Reg.TB_PTP_DS_CLASS] ((begin_ t s.dev).forgetPort p) ((begin_ t s.dev).forgetPort p).bmca := by
    rw [hdec.1]
    exact ((Dev.steers_decidePorts _ fun q hq => List.mem_range.1 hq).mono (by simp)).trans ((Dev.steers_updClass _).mono (by simp))
  have hqual : ((begin_ t s.dev).forgetPort p).tb.qual = s.dev.tb.qual := rfl
  have hst : ((begin_ t s.dev).forgetPort p).stReq = [] := rfl
  have hs' : ((begin_ t s.dev).forgetPort p).rd Reg.TB_STATUS_SRC = srcPtp := hs
  have hf' : ((begin_ t s.dev).forgetPort p).follower = false := hf
  rw [heq]
  generalize (begin_ t s.dev).forgetPort p = e at htb hw hqual hst hs' hf'
  generalize e.bmca = f at htb hw
  obtain ⟨h1, h2⟩ := Dev.loseSrc_last (d := f) ((hw.rd (by decide) (by decide)).trans hs')
    ((Dev.follower_congr (hw.rd (by decide) (by decide)) (hw.rd (by decide) (by decide))).trans hf') (by rw [htb, hqual]; exact hq)
  have hfst : (f.loseSrc srcPtp).stReq = [] := (f.steers_loseSrc srcPtp).stReq.trans (hw.stReq.trans hst)
  exact ⟨(settle_rd_clear _ _ hfst _ _ _ (by decide) (by decide)).trans h1, (settle_rd_clear _ _ hfst _ _ _ (by decide) (by decide)).trans h2⟩

end

end Sys2Proof.Machine
end

section
/-!
PROOFS. Proofs/TimebaseHalt.lean: an entry to HALT leaves the timebase as it is (R27, R152).
-/
namespace Sys2Proof.Machine

/-- A fold whose steps leave the timebase leaves it. -/
theorem Dev.foldl_tb {α : Type} {f : Dev → α → Dev} (hf : ∀ d a, (f d a).tb = d.tb) (l : List α) (d : Dev) : (l.foldl f d).tb = d.tb := by
  induction l generalizing d with
  | nil => rfl
  | cons a l ih => exact (ih _).trans (hf d a)

theorem Dev.lpeRecord_tb (d : Dev) (c cause : Nat) : (d.lpeRecord c cause).tb = d.tb := by
  unfold Dev.lpeRecord
  exact (Dev.Posts.produce _ _ _ _).tb

theorem Dev.setLctx_tb (d : Dev) (c : Nat) (x : LCtx) : (d.setLctx c x).tb = d.tb := rfl

theorem Dev.lpeEnter_tb (d : Dev) (c st cause : Nat) : (d.lpeEnter c st cause).tb = d.tb := by
  unfold Dev.lpeEnter
  extract_lets old str d1 d2 ctx d3 d4
  have h2 : d2.tb = d.tb := (Dev.wr_tb _ _ _ _ _).trans (Dev.wr_tb _ _ _ _ _)
  clear_value d2 ctx
  have h3 : d3.tb = d.tb := (Dev.setLctx_tb _ _ _).trans h2
  clear_value d3
  have h4 : d4.tb = d.tb := (Dev.lpeRecord_tb _ _ _).trans h3
  clear_value d4
  split
  · rfl
  · split
    · rw [Dev.raise_tb, h4]
    · split
      · rw [Dev.raise_tb, h4]
      · split
        · rw [Dev.raise_tb, h4]
        · split
          · rw [Dev.raise_tb, h4]
          · exact h4

theorem Dev.testEnd_tb (d : Dev) (reason : Nat) : (d.testEnd reason).tb = d.tb := by
  unfold Dev.testEnd
  split
  · rfl
  · simp only [Dev.raise_tb, Dev.clr_tb, Dev.wr_tb]

theorem Dev.trwStop_tb (d : Dev) : d.trwStop.tb = d.tb := by
  unfold Dev.trwStop
  extract_lets tested windows
  have h1 : tested.tb = d.tb := Dev.ite_tb_of _ (d.testEnd_tb 3) rfl
  have h2 : windows.tb = tested.tb := by
    refine Dev.foldl_tb (fun a s => ?_) _ _
    rfl
  exact (Dev.clr_tb _ _ _ _).trans (h2.trans h1)

theorem Dev.cutMiss_tb (d : Dev) (why : Nat) : (d.cutMiss why).tb = d.tb := by
  unfold Dev.cutMiss
  split
  · rfl
  · simp only [Dev.raise_tb, Dev.wr_tb]

theorem Dev.switchEnd_tb (d : Dev) (st : Nat) : (d.switchEnd st).tb = d.tb := by
  unfold Dev.switchEnd
  refine Dev.ite_tb_of _ rfl ?_
  simp only [Dev.raise_tb, Dev.wr_tb, Dev.clr_tb]

theorem Dev.setInstep_tb (d : Dev) (on : Bool) (cause : Nat) : (d.setInstep on cause).tb = d.tb :=
  Dev.ite_tb_of _ rfl ((Dev.raise_tb _ _ _ _).trans (Dev.wr_tb _ _ _ _ _))

theorem Dev.setRole_tb (d : Dev) (r : Nat) : (d.setRole r).tb = d.tb :=
  Dev.ite_tb_of _ rfl ((Dev.raise_tb _ _ _ _).trans (Dev.wr_tb _ _ _ _ _))

theorem Dev.sinLeave_tb (d : Dev) : d.sinLeave.tb = d.tb := by
  unfold Dev.sinLeave
  extract_lets ended sin left shown
  have h : shown.tb = d.tb := (Dev.wr_tb _ _ _ _ _).trans ((Dev.clr_tb _ _ _ _).trans (d.switchEnd_tb 7))
  exact Dev.ite_tb_of _ h ((Dev.setRole_tb _ _).trans ((Dev.setInstep_tb _ _ _).trans h))

theorem Dev.lpeStop_tb (d : Dev) : d.lpeStop.tb = d.tb := Dev.foldl_tb (fun a c => a.lpeEnter_tb c lpIdle 3) _ _

theorem Dev.dspShow_tb (d : Dev) : d.dspShow.tb = d.tb := (Dev.wr_tb _ _ _ _ _).trans (Dev.wr_tb _ _ _ _ _)

theorem Dev.dspStop_tb (d : Dev) : d.dspStop.tb = d.tb := by
  unfold Dev.dspStop
  extract_lets idle
  have h : idle.tb = d.tb := rfl
  clear_value idle
  exact (Dev.dspShow_tb _).trans ((Dev.wr_tb _ _ _ _ _).trans ((Dev.clr_tb _ _ _ _).trans h))

theorem Dev.trwOut_tb (d : Dev) : d.trwOut.tb = d.tb := rfl

theorem Dev.leaveLive_tb (d : Dev) : d.leaveLive.tb = d.tb := by
  unfold Dev.leaveLive
  extract_lets missed left
  have h1 : missed.tb = d.tb := d.cutMiss_tb 4
  show missed.lpeStop.dspStop.trwStop.trwOut.sinLeave.tb = d.tb
  rw [Dev.sinLeave_tb, Dev.trwOut_tb, Dev.trwStop_tb, Dev.dspStop_tb, Dev.lpeStop_tb, h1]

theorem Dev.readmitEnd_tb (d : Dev) (tr st : Nat) : (d.readmitEnd tr st).tb = d.tb := by
  unfold Dev.readmitEnd
  extract_lets x
  split
  · rfl
  · rw [Dev.raise_tb, Dev.wr_tb, Dev.clr_tb]
    exact Dev.ite_tb_of _ rfl rfl

theorem Dev.dropWait_tb (d : Dev) (tr l : Nat) : (d.dropWait tr l).tb = d.tb := by
  unfold Dev.dropWait
  refine (Dev.foldl_tb (fun a k => ?_) _ _).trans rfl
  rfl

theorem Dev.peerSend_tb (d : Dev) (links : List Nat) (typ : Nat) (pay : List Byte) : (d.peerSend links typ pay).tb = d.tb := by
  unfold Dev.peerSend
  split
  · rfl
  · refine (Dev.foldl_tb (fun a l => ?_) _ _).trans rfl
    rfl

theorem Dev.note_tb (d : Dev) (kind tr lane pc : Nat) : (d.note kind tr lane pc).tb = d.tb :=
  Dev.ite_tb_of _ rfl (Dev.peerSend_tb _ _ _ _)

theorem Dev.trwAuth_tb (d : Dev) (on : Bool) : (d.trwAuth on).tb = d.tb :=
  Dev.ite_tb_of _ rfl ((Dev.raise_tb _ _ _ _).trans (Dev.wr_tb _ _ _ _ _))

theorem Dev.trdStop_tb (d : Dev) : d.trdStop.tb = d.tb := by
  unfold Dev.trdStop
  extract_lets src free
  have h0 : free.tb = d.tb := rfl
  clear_value free
  refine (Dev.foldl_tb (fun a tr => ?_) _ _).trans h0
  extract_lets ended lanes shown
  have h1 : ended.tb = a.tb := (Dev.clr_tb _ _ _ _).trans (a.readmitEnd_tb tr 7)
  clear_value ended
  have h2 : lanes.tb = ended.tb := Dev.foldl_tb (fun x u => x.dropWait_tb tr u) _ _
  clear_value lanes
  have h3 : shown.tb = lanes.tb := (Dev.clr_tb _ _ _ _).trans (Dev.wr_tb _ _ _ _ _)
  clear_value shown
  rw [← h1, ← h2, ← h3]
  exact Dev.ite_tb_of _ ((Dev.note_tb _ _ _ _ _).trans (Dev.trwAuth_tb _ _)) rfl

theorem Dev.withNetHost_tb (d : Dev) (x : Net) (y : HostIf) : ({ d with net := x, host := y }).tb = d.tb := rfl

theorem Dev.netStop_tb (d : Dev) : d.netStop.tb = d.tb := by
  have h (a : Dev) (p : Nat) : ((a.clr Reg.NET_PORT_STAT_LINK p).clr Reg.NET_PORT_STAT_SA_PENDING p).tb = a.tb := (Dev.clr_tb _ _ _ _).trans (Dev.clr_tb _ _ _ _)
  unfold Dev.netStop
  exact (Dev.withNetHost_tb _ _ _).trans ((Dev.wr_tb _ _ _ _ _).trans (Dev.foldl_tb h _ _))

theorem Dev.setCan_tb (d : Dev) (c : Nat) (x : CanCtl) : (d.setCan c x).tb = d.tb := rfl

theorem Dev.withFld_tb (d : Dev) (x : Fld) : ({ d with fld := x }).tb = d.tb := rfl

theorem Dev.fldStop_tb (d : Dev) : d.fldStop.tb = d.tb := by
  have h (a : Dev) (c : Nat) : ((((a.clr Reg.FLD_CAN_STAT_STATE c).clr Reg.FLD_CAN_STAT_TEC c).clr Reg.FLD_CAN_STAT_REC c).setCan c {}).tb = a.tb :=
    (Dev.setCan_tb _ _ _).trans ((Dev.clr_tb _ _ _ _).trans ((Dev.clr_tb _ _ _ _).trans (Dev.clr_tb _ _ _ _)))
  unfold Dev.fldStop
  exact (Dev.withFld_tb _ _).trans (Dev.foldl_tb h _ _)

theorem Dev.gafClear_tb (d : Dev) : d.gafClear.tb = d.tb := rfl

theorem Dev.haltEnter_tb (d : Dev) (wasLive : Bool) : (d.haltEnter wasLive).tb = d.tb := by
  unfold Dev.haltEnter
  extract_lets left stopped rings
  have h1 : left.tb = d.tb := by
    cases wasLive
    · rfl
    · exact d.leaveLive_tb
  clear_value left
  have h2 : stopped.tb = left.tb := by
    show left.trdStop.netStop.fldStop.gafClear.tb = left.tb
    rw [Dev.gafClear_tb, Dev.fldStop_tb, Dev.netStop_tb, Dev.trdStop_tb]
  clear_value stopped
  have h3 : rings.tb = stopped.tb := by
    refine Dev.foldl_tb (fun a g => ?_) _ _
    rw [Dev.wr_tb, Dev.wr_tb, Dev.wr_tb]
    rfl
  clear_value rings
  rw [Dev.clr_tb, h3, h2, h1]

theorem Dev.slotShow_tb (d : Dev) (k : Nat) : (d.slotShow k).tb = d.tb := by
  unfold Dev.slotShow
  extract_lets sl hd d1 d2
  have h1 : d1.tb = d.tb := (Dev.wr_tb _ _ _ _ _).trans ((Dev.wr_tb _ _ _ _ _).trans (Dev.wr_tb _ _ _ _ _))
  clear_value d1
  have h2 : d2.tb = d1.tb := (Dev.wr_tb _ _ _ _ _).trans (Dev.wr_tb _ _ _ _ _)
  clear_value d2
  rw [Dev.wr_tb, Dev.wr_tb, Dev.wr_tb, h2, h1]

theorem Dev.imgShow_tb (d : Dev) : d.imgShow.tb = d.tb := by
  unfold Dev.imgShow
  extract_lets d1 d2 d3 d4 ks d5 d6
  have h1 : d1.tb = d.tb := (Dev.slotShow_tb _ _).trans (d.slotShow_tb 0)
  clear_value d1
  have h2 : d2.tb = d1.tb := (Dev.wr_tb _ _ _ _ _).trans (Dev.wr_tb _ _ _ _ _)
  clear_value d2
  have h3 : d3.tb = d2.tb := (Dev.wr_tb _ _ _ _ _).trans (Dev.wr_tb _ _ _ _ _)
  clear_value d3
  have h4 : d4.tb = d3.tb := Dev.wr_tb _ _ _ _ _
  clear_value d4 ks
  have h5 : d5.tb = d4.tb := (Dev.wr_tb _ _ _ _ _).trans ((Dev.wr_tb _ _ _ _ _).trans (Dev.wr_tb _ _ _ _ _))
  clear_value d5
  have h6 : d6.tb = d5.tb := Dev.wr_tb _ _ _ _ _
  clear_value d6
  rw [Dev.wr2_tb, h6, h5, h4, h3, h2, h1]

theorem Dev.imgResult_tb (d : Dev) (op st : Nat) : (d.imgResult op st).tb = d.tb := (Dev.wr_tb _ _ _ _ _).trans (Dev.wr_tb _ _ _ _ _)

theorem Dev.actFail_tb (d : Dev) : d.actFail.tb = d.tb := by
  unfold Dev.actFail
  split
  · rfl
  · rw [Dev.imgShow_tb, Dev.imgResult_tb]

theorem Dev.enterState_tb (o d : Dev) (m : DevState) (cause : Nat) : (o.enterState d m cause).tb = d.tb := by
  unfold Dev.enterState
  extract_lets asked noted halted
  have hn : noted.tb = d.tb := (Dev.ite_tb_of _ (Dev.posts_noteState _ _ _ _).tb rfl).trans (Dev.wr_tb _ _ _ _ _)
  exact Dev.ite_tb_of _ ((Dev.actFail_tb _).trans ((Dev.haltEnter_tb _ _).trans hn)) hn

/-- No end of a command moves the timebase. -/
theorem settle_keeps_tb (o d : Dev) : (settle o d).tb = d.tb := by
  have ha : (o.applyState (o.keepFuses d)).tb = d.tb := by
    unfold Dev.applyState
    split
    · rfl
    · exact Dev.enterState_tb o (o.keepFuses d) _ _
  have ht (e : Dev) : (Dev.touchTag o.mode e).tb = e.tb := by
    unfold Dev.touchTag
    split <;> rfl
  rw [settle_ended, Dev.drivePins_tb, Dev.wr_tb, Dev.ended, Dev.scanSafe_tb, ht, ha]

end Sys2Proof.Machine
end

section
/-!
PROOFS. Proofs/PhaseSources.lean: pulses, holdover and the clock inputs (R151, R152, R154, R158, R161, R162), and the timebase's statement.
-/
namespace Sys2Proof.Machine

/-! ### A fatal event -/

/-- A fatal event that is not one of an immediate shutdown asks for HALT (R54, R57). -/
theorem Dev.stReq_raise_fatal (d : Dev) {e : Ev} (inst data : Nat) (hs : e.sev = 5) (hg : (e == Ev.GAF_IMMEDIATE || e == Ev.GAF_TEMP_SHUTDOWN) = false) (hm : d.mainOn = true) :
    (d.raise e inst data).stReq = d.stReq ++ [(.halt, 7)] := by
  have hmode : (d.takeSeq e.id).mode = d.mode := rfl
  have hoff : d.mode ≠ .off := by
    intro h
    simp [Dev.mainOn, h, DevState.stateCode] at hm
  have hon : (d.takeSeq e.id).mainOn = true := hm
  unfold Dev.raise Dev.raiseAt
  generalize hk : 2 * d.qf.qs.length + 5 = k
  rw [show 2 * d.qf.qs.length + 6 = k + 1 by omega]
  unfold Dev.raiseF
  dsimp only
  rw [if_neg (by rw [hmode]; exact hoff), if_pos hon]
  unfold Dev.evStore Dev.evFatal
  dsimp only
  rw [if_pos ⟨hs, by rw [hg, Bool.and_false]; rfl⟩]
  dsimp only
  have hc (x : Dev) : (Dev.evCount e x).stReq = x.stReq := by
    unfold Dev.evCount
    split <;> rfl
  have ht (x : Dev) : (Dev.evToTag e inst data x).stReq = x.stReq := by
    unfold Dev.evToTag
    split <;> rfl
  rw [hc, ht, Dev.stReq_evToBox (Dev.stReq_raiseF k), Dev.stReq_foldl _ (fun x q => Dev.stReq_evToQueue (Dev.stReq_raiseF k) _ _ x q)]
  rfl

theorem DevState.edge_halt {m : DevState} (hs : m.stateCode ≠ 0) (hh : m ≠ .halt) : m.edge .halt = true := by
  cases m <;> revert hs hh <;> decide

section
variable {s : State} {t : Nat}

/-! ### `PPS_IN` -/

/-- What an edge of `PPS_IN` may write beside its own time. -/
def ppsFields : List Field := Reg.TB_PPS_CTRL_TOD_VALID :: offsetFields

theorem offsetFields_pps : offsetFields ⊆ ppsFields := List.subset_cons_self _ _

/-- The device that has the instant of an edge. -/
def Dev.stamped (d : Dev) : Dev :=
  ((d.wr Reg.TB_PPS_TS_NS_NS (fullTime d.now).1).wr Reg.TB_PPS_TS_SEC_LO_SEC (fullTime d.now).2.1).wr Reg.TB_PPS_TS_SEC_HI_SEC (fullTime d.now).2.2

/-- The time of day that an edge marks. -/
def Dev.ppsTod (d : Dev) : Nat := d.rd Reg.TB_PPS_TOD_LO_SEC + d.rd Reg.TB_PPS_TOD_HI_SEC % 65536 * 2 ^ 32

/-- The device with a time of day as that of the next edge. -/
def Dev.withTod (d : Dev) (next : Nat) : Dev := (d.wr Reg.TB_PPS_TOD_LO_SEC (next % 2 ^ 32)).wr Reg.TB_PPS_TOD_HI_SEC (next / 2 ^ 32)

/-- The device that has counted an edge. -/
def Dev.edgeCounted (d : Dev) : Dev := (d.stamped.set1 Reg.TB_STATUS_PPS_OK).withTod (((d.stamped.set1 Reg.TB_STATUS_PPS_OK).ppsTod + 1) % 2 ^ 48)

/-- The device that judges an edge by the time of day it marks. -/
def Dev.judgePps (d : Dev) (tod : Nat) : Dev :=
  if !d.on Reg.TB_PPS_CTRL_TOD_VALID then d
  else
    let theta := (tod : Int) * 1000000000 - d.now
    if 500000000 < theta.natAbs then (((d.clr Reg.TB_PPS_CTRL_TOD_VALID).set1 Reg.TB_ERR_PPS_LOST).raise Ev.TB_PPS_LOST 0 3).loseSrc srcPps
    else d.measure srcPps 0 theta

theorem Dev.ppsEdge_eq (d : Dev) :
    d.ppsEdge = if !d.stamped.on Reg.TB_CTRL_PPS_IN_EN then d.stamped else d.edgeCounted.judgePps (d.stamped.set1 Reg.TB_STATUS_PPS_OK).ppsTod := rfl

theorem Dev.steers_judgePps (d : Dev) (tod : Nat) : Dev.Steers ppsFields d (d.judgePps tod) := by
  unfold Dev.judgePps
  extract_lets theta
  clear_value theta
  refine (Dev.Steers.refl _ d).ite (Dev.Steers.ite ?_ ((d.steers_measure srcPps (by decide) theta).mono offsetFields_pps))
  have h1 : Dev.Steers ppsFields d ((d.clr Reg.TB_PPS_CTRL_TOD_VALID).set1 Reg.TB_ERR_PPS_LOST) :=
    ((Dev.Steers.refl _ d).wr (by decide) (by simp [ppsFields])).wr (by decide) (by simp [ppsFields, offsetFields])
  exact (h1.raise (by decide)).trans ((Dev.steers_loseSrc _ _).mono fun _ hf => offsetFields_pps (sourceFields_sub hf))

/-- The fields of the instant of an edge. -/
def stampFields : List Field := [Reg.TB_PPS_TS_NS_NS, Reg.TB_PPS_TS_SEC_LO_SEC, Reg.TB_PPS_TS_SEC_HI_SEC]

theorem Dev.steers_stamped (d : Dev) : Dev.Steers stampFields d d.stamped :=
  (((Dev.Steers.refl _ d).wr (by decide) (by simp [stampFields])).wr (by decide) (by simp [stampFields])).wr (by decide) (by simp [stampFields])

theorem Dev.stamped_ns (d : Dev) : d.stamped.rd Reg.TB_PPS_TS_NS_NS = d.now % 1000000000 := by
  refine (Dev.rd_wr_free _ _ (by decide) (by decide) (by decide)).trans ((Dev.rd_wr_free _ _ (by decide) (by decide) (by decide)).trans ?_)
  exact (Dev.rd_wr_self d Reg.TB_PPS_TS_NS_NS _ 0 0 (by decide)).trans (Nat.mod_eq_of_lt ((Nat.mod_lt _ (by decide)).trans (by decide)))

theorem Dev.steers_withTod (d : Dev) (next : Nat) : Dev.Steers [Reg.TB_PPS_TOD_LO_SEC, Reg.TB_PPS_TOD_HI_SEC] d (d.withTod next) :=
  ((Dev.Steers.refl _ d).wr (by decide) (by simp)).wr (by decide) (by simp)

theorem Dev.withTod_lo (d : Dev) (next : Nat) : (d.withTod next).rd Reg.TB_PPS_TOD_LO_SEC = next % 2 ^ 32 :=
  (Dev.rd_wr_free _ _ (by decide) (by decide) (by decide)).trans ((Dev.rd_wr_self d Reg.TB_PPS_TOD_LO_SEC _ 0 0 (by decide)).trans (Nat.mod_mod _ _))

theorem Dev.edgeCounted_shown (d : Dev) : d.edgeCounted.stReq = d.stReq ∧ d.edgeCounted.rd Reg.TB_PPS_TS_NS_NS = d.now % 1000000000 ∧ d.edgeCounted.rd Reg.TB_STATUS_PPS_OK = 1 ∧
    d.edgeCounted.rd Reg.TB_PPS_TOD_LO_SEC = (d.rd Reg.TB_PPS_TOD_LO_SEC + 1) % 2 ^ 32 := by
  have h1 := d.steers_stamped
  have h2 : Dev.Steers [Reg.TB_STATUS_PPS_OK] d.stamped (d.stamped.set1 Reg.TB_STATUS_PPS_OK) := (Dev.Steers.refl _ _).wr (by decide) (by simp)
  have hns := d.stamped_ns
  have hok : (d.stamped.set1 Reg.TB_STATUS_PPS_OK).rd Reg.TB_STATUS_PPS_OK = 1 := Dev.rd_wr_self _ Reg.TB_STATUS_PPS_OK 1 0 0 (by decide)
  have hlo : (d.stamped.set1 Reg.TB_STATUS_PPS_OK).rd Reg.TB_PPS_TOD_LO_SEC = d.rd Reg.TB_PPS_TOD_LO_SEC := (h2.rd (by decide) (by decide)).trans (h1.rd (by decide) (by decide))
  unfold Dev.edgeCounted
  generalize d.stamped.set1 Reg.TB_STATUS_PPS_OK = e at h2 hok hlo
  have h3 := e.steers_withTod ((e.ppsTod + 1) % 2 ^ 48)
  refine ⟨h3.stReq.trans (h2.stReq.trans h1.stReq), (h3.rd (by decide) (by decide)).trans ((h2.rd (by decide) (by decide)).trans hns), (h3.rd (by decide) (by decide)).trans hok, ?_⟩
  rw [e.withTod_lo, ← hlo]
  unfold Dev.ppsTod
  omega

theorem Dev.steers_ppsEdge {d : Dev} (h : d.rd Reg.TB_CTRL_PPS_IN_EN = 1) : Dev.Steers ppsFields d.edgeCounted d.ppsEdge := by
  have hon : d.stamped.on Reg.TB_CTRL_PPS_IN_EN = true := beq_iff_eq.2 ((d.steers_stamped.rd (by decide) (by decide)).trans h)
  rw [Dev.ppsEdge_eq, hon, if_neg (by decide)]
  exact Dev.steers_judgePps _ _

theorem ends_ppsEdge (h : s.dev.rd Reg.TB_CTRL_PPS_IN_EN = 1) : Ends (.ppsEdge t) s fun d =>
    d.rd Reg.TB_PPS_TS_NS_NS = s.dev.nowAt t % 1000000000 ∧ d.rd Reg.TB_STATUS_PPS_OK = 1 ∧ d.rd Reg.TB_PPS_TOD_LO_SEC = (s.dev.rd Reg.TB_PPS_TOD_LO_SEC + 1) % 2 ^ 32 := by
  refine ends_of (exec_ppsEdge t s) ?_
  obtain ⟨hst, hns, hok, htod⟩ := (begin_ t s.dev).edgeCounted_shown
  have h1 : Dev.Steers (Reg.TB_PTP_DS_CLASS :: ppsFields) (begin_ t s.dev).edgeCounted (begin_ t s.dev).ppsEdge.updClass :=
    ((Dev.steers_ppsEdge (d := begin_ t s.dev) h).mono (List.subset_cons_self _ _)).trans ((Dev.steers_updClass _).mono (by simp))
  generalize (begin_ t s.dev).edgeCounted = e at hst hns hok htod h1
  generalize (begin_ t s.dev).ppsEdge.updClass = x at h1
  have hk : ∀ f : Field, f.has 0 0 = true → f.clearOf (Reg.TB_PTP_DS_CLASS :: ppsFields) = true → f.clearOf settleFields = true → (settle s.dev x).rd f = e.rd f := fun f hj h1' h2 =>
    (settle_rd_clear _ _ (h1.stReq.trans hst) _ _ _ hj h2).trans (h1.rd hj h1')
  exact ⟨(hk _ (by decide) (by decide) (by decide)).trans hns, (hk _ (by decide) (by decide) (by decide)).trans hok, (hk _ (by decide) (by decide) (by decide)).trans htod⟩

theorem ends_ppsMissing (h : s.dev.rd Reg.TB_CTRL_PPS_IN_EN = 1) : Ends (.ppsEdgeMissing t) s fun d =>
    d.rd Reg.TB_STATUS_PPS_OK = 0 ∧ d.rd Reg.TB_ERR_PPS_LOST = 1 ∧ srcPps ∉ d.tb.qual := by
  refine ends_of (exec_ppsEdgeMissing t s) ?_
  have hon : (begin_ t s.dev).on Reg.TB_CTRL_PPS_IN_EN = true := beq_iff_eq.2 h
  have hst0 : (begin_ t s.dev).stReq = [] := rfl
  unfold Dev.ppsMissing
  rw [if_neg (by rw [hon]; decide)]
  generalize begin_ t s.dev = b at hst0
  have hok : ((b.clr Reg.TB_STATUS_PPS_OK).set1 Reg.TB_ERR_PPS_LOST).rd Reg.TB_STATUS_PPS_OK = 0 :=
    (Dev.rd_wr_free _ _ (by decide) (by decide) (by decide)).trans (Dev.rd_wr_self b Reg.TB_STATUS_PPS_OK 0 0 0 (by decide))
  have herr : ((b.clr Reg.TB_STATUS_PPS_OK).set1 Reg.TB_ERR_PPS_LOST).rd Reg.TB_ERR_PPS_LOST = 1 := Dev.rd_wr_self _ Reg.TB_ERR_PPS_LOST 1 0 0 (by decide)
  have hst : ((b.clr Reg.TB_STATUS_PPS_OK).set1 Reg.TB_ERR_PPS_LOST).stReq = [] := (Dev.wr_stReq _ _ _ _ _).trans ((Dev.wr_stReq _ _ _ _ _).trans hst0)
  generalize (b.clr Reg.TB_STATUS_PPS_OK).set1 Reg.TB_ERR_PPS_LOST = e at hok herr hst
  have h1 : Dev.Steers (Reg.TB_PTP_DS_CLASS :: sourceFields) e ((e.raise Ev.TB_PPS_LOST 0 1).loseSrc srcPps).updClass :=
    (((Dev.Steers.refl _ e).raise (by decide)).trans ((Dev.steers_loseSrc _ _).mono (List.subset_cons_self _ _))).trans ((Dev.steers_updClass _).mono (by simp))
  have hq : ((e.raise Ev.TB_PPS_LOST 0 1).loseSrc srcPps).updClass.tb.qual = (e.raise Ev.TB_PPS_LOST 0 1).tb.qual.filter (fun k => k != srcPps) :=
    (congrArg Tb.qual (Dev.wr_tb _ _ _ _ _)).trans (Dev.loseSrc_qual _ _)
  generalize ((e.raise Ev.TB_PPS_LOST 0 1).loseSrc srcPps).updClass = x at h1 hq
  have hx := h1.stReq.trans hst
  refine ⟨?_, ?_, ?_⟩
  · exact (settle_rd_clear _ _ hx _ _ _ (by decide) (by decide)).trans ((h1.rd (by decide) (by decide)).trans hok)
  · exact (settle_rd_clear _ _ hx _ _ _ (by decide) (by decide)).trans ((h1.rd (by decide) (by decide)).trans herr)
  · rw [settle_tb _ x hx, hq, List.mem_filter]
    simp

theorem ends_slewComplete : Ends (.slewComplete t) s fun d => d.tb.slew = none ∧ d.rd Reg.TB_STATUS_SLEWING = 0 := by
  refine ends_of (exec_slewComplete t s) ?_
  have h0 : (begin_ t s.dev).endSlew.rd Reg.TB_STATUS_SLEWING = 0 := Dev.rd_wr_self (begin_ t s.dev) Reg.TB_STATUS_SLEWING 0 0 0 (by decide)
  have hs : (begin_ t s.dev).endSlew.tb.slew = none := rfl
  have hst : (begin_ t s.dev).endSlew.stReq = [] := rfl
  generalize (begin_ t s.dev).endSlew = e at h0 hs hst
  have htb : e.tbLock.updClass.tb = e.tb := by
    unfold Dev.updClass Dev.tbLock
    rw [Dev.wr_tb]
    exact Dev.ite_tb_of _ ((Dev.raise_tb _ _ _ _).trans (Dev.wr_tb _ _ _ _ _)) rfl
  have hk : Dev.Steers [Reg.TB_STATUS_STATE, Reg.TB_PTP_DS_CLASS] e e.tbLock.updClass :=
    ((((Dev.Steers.refl _ e).wr (by decide) (by simp)).raise (by decide)).ite (Dev.Steers.refl _ e) : Dev.Steers _ e e.tbLock).trans ((Dev.steers_updClass _).mono (by simp))
  generalize e.tbLock.updClass = x at htb hk
  have hx := hk.stReq.trans hst
  exact ⟨by rw [settle_tb _ x hx, htb, hs], (settle_rd_clear _ _ hx _ _ _ (by decide) (by decide)).trans ((hk.rd (by decide) (by decide)).trans h0)⟩

/-! ### Holdover and learning -/

/-- What a second of holdover writes beside its count. -/
def holdFields : List Field := [Reg.TB_FREQ_FREQ, Reg.TB_HOLD_ERR_E, Reg.TB_STATUS_STATE]

/-- The drift of a second since holdover began, from the table or free. -/
def Dev.drift (d : Dev) (ref10 : Bool) (temp : Int) : Dev × Int :=
  if ref10 then (d, 0)
  else match d.ftab temp, d.ftab d.tb.t0 with
    | some a, some b => (d, a - b)
    | _, _ => let (d, v) := d.fresh; (d, sx 32 v)

/-- The device that has reported a bin not yet learned. -/
def Dev.noteGap (d : Dev) (ref10 : Bool) (temp : Int) : Dev := match tcompBin temp with
  | some b =>
    if ref10 ∨ d.tb.gap ∨ d.on Reg.TB_TCOMP_INFO_VALID b then d
    else { d with tb := { d.tb with gap := true } }.raise Ev.TB_TCOMP_GAP b (code 16 temp)
  | none => d

/-- The device whose error estimate has grown by a second. -/
def Dev.holdAged (d : Dev) (st : Nat) (ref10 : Bool) (delta : Int) : Dev :=
  let d := d.putE (d.tb.e + (if ref10 then 200 else 20000) + delta.natAbs)
  let limit : Nat := 10000 * d.rd Reg.TB_HOLD_CTRL_LIMIT
  if st == tbHoldover && decide (limit < d.tb.e) then
    (d.wr Reg.TB_STATUS_STATE tbHoldLong).raise Ev.TB_HOLD_LONG 0 (d.rd Reg.TB_HOLD_TIME_SECONDS)
  else d

/-- The device that holds the frequency under a drift. -/
def Dev.holdFreq (d : Dev) (delta : Int) : Dev := d.wrI Reg.TB_FREQ_FREQ (satTo (-500000000) 500000000 (d.tb.f0 + delta)).1

theorem Dev.holdSecond_eq (d : Dev) : d.holdSecond =
    if d.rd Reg.TB_STATUS_STATE ≠ tbHoldover ∧ d.rd Reg.TB_STATUS_STATE ≠ tbHoldLong then d
    else
      let p := (d.bump Reg.TB_HOLD_TIME_SECONDS).drift (d.on Reg.TB_STATUS_REF10_USED) d.tbTemp
      ((p.1.holdFreq p.2).noteGap (d.on Reg.TB_STATUS_REF10_USED) d.tbTemp).holdAged (d.rd Reg.TB_STATUS_STATE) (d.on Reg.TB_STATUS_REF10_USED) p.2 := rfl

theorem Dev.steers_drift (d : Dev) (ref10 : Bool) (temp : Int) : Dev.Steers holdFields d (d.drift ref10 temp).1 := by
  unfold Dev.drift
  split
  · exact Dev.Steers.refl _ _
  · split
    · exact Dev.Steers.refl _ _
    · exact Dev.steers_fresh _ _

theorem Dev.steers_noteGap (d : Dev) (ref10 : Bool) (temp : Int) : Dev.Steers holdFields d (d.noteGap ref10 temp) := by
  unfold Dev.noteGap
  have h := Dev.Steers.refl holdFields d
  split
  · refine h.ite (Dev.Steers.raise ?_ (by decide))
    exact h.tb rfl rfl
  · exact h

theorem Dev.steers_holdAged (d : Dev) (st : Nat) (ref10 : Bool) (delta : Int) : Dev.Steers holdFields d (d.holdAged st ref10 delta) := by
  unfold Dev.holdAged
  extract_lets e limit
  have h : Dev.Steers holdFields d e := by
    simp only [e]
    unfold Dev.putE
    generalize min (rhu ((d.tb.e + (if ref10 = true then 200 else 20000) + delta.natAbs : Nat) : Int) 10000).toNat (2 ^ 32 - 1) = v
    exact (Dev.Steers.refl _ d).wrTb (by decide) (by simp [holdFields]) rfl rfl
  exact ((h.wr (by decide) (by simp [holdFields])).raise (by decide)).ite h

theorem Dev.steers_holdSecond {d : Dev} (h : d.rd Reg.TB_STATUS_STATE = tbHoldover ∨ d.rd Reg.TB_STATUS_STATE = tbHoldLong) :
    Dev.Steers holdFields (d.bump Reg.TB_HOLD_TIME_SECONDS) d.holdSecond := by
  rw [Dev.holdSecond_eq, if_neg (by tauto)]
  dsimp only
  have hd := (d.bump Reg.TB_HOLD_TIME_SECONDS).steers_drift (d.on Reg.TB_STATUS_REF10_USED) d.tbTemp
  generalize (d.bump Reg.TB_HOLD_TIME_SECONDS).drift (d.on Reg.TB_STATUS_REF10_USED) d.tbTemp = p at hd
  exact ((hd.wr (by decide) (by simp [holdFields])).trans (Dev.steers_noteGap _ _ _)).trans (Dev.steers_holdAged _ _ _ _)

theorem ends_holdoverSecond (h : s.dev.rd Reg.TB_STATUS_STATE = tbHoldover ∨ s.dev.rd Reg.TB_STATUS_STATE = tbHoldLong) :
    Ends (.holdoverSecond t) s fun d => d.rd Reg.TB_HOLD_TIME_SECONDS = min (s.dev.rd Reg.TB_HOLD_TIME_SECONDS + 1) (2 ^ 32 - 1) := by
  refine ends_of (exec_holdoverSecond t s) ?_
  have hk := Dev.steers_holdSecond (d := begin_ t s.dev) h
  have hb : ((begin_ t s.dev).bump Reg.TB_HOLD_TIME_SECONDS).rd Reg.TB_HOLD_TIME_SECONDS = min (s.dev.rd Reg.TB_HOLD_TIME_SECONDS + 1) (2 ^ 32 - 1) :=
    Dev.rd_bump_self (begin_ t s.dev) Reg.TB_HOLD_TIME_SECONDS 1 0 0 (by decide)
  have hst : ((begin_ t s.dev).bump Reg.TB_HOLD_TIME_SECONDS).stReq = [] := Dev.wr_stReq _ _ _ _ _
  generalize (begin_ t s.dev).bump Reg.TB_HOLD_TIME_SECONDS = e at hk hb hst
  exact (settle_rd_clear _ _ (hk.stReq.trans hst) _ _ _ (by decide) (by decide)).trans ((hk.rd (by decide) (by decide)).trans hb)

theorem tcompBin_lt {x : Int} {b : Nat} (h : tcompBin x = some b) : b < 32 := by
  unfold tcompBin at h
  dsimp only at h
  split at h
  · cases h
    omega
  · cases h

/-- The device without the temperatures of the minute. -/
def Dev.noTemps (d : Dev) : Dev := { d with tb := { d.tb with temps := [] } }

/-- The device that has learned a frequency in a bin. -/
def Dev.learned (d : Dev) (b : Nat) : Dev :=
  (d.wrI Reg.TB_TCOMP_FREQ_FREQ (d.rdI Reg.TB_TCOMP_FREQ_FREQ b + Int.fdiv (d.meanFreq oneMin - d.rdI Reg.TB_TCOMP_FREQ_FREQ b + 8) 16) b).bump Reg.TB_TCOMP_INFO_MINUTES 1 b

/-- The device that shows whether a bin is valid. -/
def Dev.binShown (d : Dev) (b : Nat) : Dev := d.wr Reg.TB_TCOMP_INFO_VALID (b2n (decide (10 ≤ d.rd Reg.TB_TCOMP_INFO_MINUTES b))) b

theorem Dev.tcompLearn_eq {d : Dev} {b : Nat} (hs : d.rd Reg.TB_STATUS_STATE = tbLocked) (hr : d.on Reg.TB_STATUS_REF10_USED = false) (ht : d.tb.temps = [])
    (hb : tcompBin d.tbTemp = some b) : d.tcompLearn = ((d.noTemps.learned b).binShown b).nvWrite 2 0 ((d.noTemps.learned b).binShown b).tcompBody := by
  have hc : ¬ (d.noTemps.rd Reg.TB_STATUS_STATE ≠ tbLocked ∨ d.noTemps.on Reg.TB_STATUS_REF10_USED = true) := by
    rw [show d.noTemps.rd Reg.TB_STATUS_STATE = d.rd Reg.TB_STATUS_STATE from rfl, show d.noTemps.on Reg.TB_STATUS_REF10_USED = d.on Reg.TB_STATUS_REF10_USED from rfl, hs, hr]
    simp
  unfold Dev.tcompLearn
  rw [ht]
  dsimp only
  rw [← Dev.noTemps, if_neg hc, if_pos (show (List.isEmpty ([] : List Int)) = true from rfl), hb]
  rfl

theorem Dev.learned_shown (d : Dev) {b : Nat} (hb : b < 32) : (d.learned b).stReq = d.stReq ∧
    (d.learned b).rd Reg.TB_TCOMP_INFO_MINUTES b = min (d.rd Reg.TB_TCOMP_INFO_MINUTES b + 1) 65535 := by
  unfold Dev.learned
  generalize d.rdI Reg.TB_TCOMP_FREQ_FREQ b + Int.fdiv (d.meanFreq oneMin - d.rdI Reg.TB_TCOMP_FREQ_FREQ b + 8) 16 = fr
  refine ⟨(Dev.wr_stReq _ _ _ _ _).trans (Dev.wr_stReq _ _ _ _ _), ?_⟩
  have h : (d.wrI Reg.TB_TCOMP_FREQ_FREQ fr b).rd Reg.TB_TCOMP_INFO_MINUTES b = d.rd Reg.TB_TCOMP_INFO_MINUTES b :=
    Dev.rd_wr_free d _ (Field.has_of hb (by decide)) (Field.has_of hb (by decide)) (by decide)
  rw [Dev.rd_bump_self _ _ _ _ _ (by decide), h]
  rfl

theorem Dev.binShown_shown (d : Dev) (b : Nat) : (d.binShown b).stReq = d.stReq ∧ (d.binShown b).rd Reg.TB_TCOMP_INFO_MINUTES b = d.rd Reg.TB_TCOMP_INFO_MINUTES b ∧
    (d.binShown b).rd Reg.TB_TCOMP_INFO_VALID b = b2n (decide (10 ≤ d.rd Reg.TB_TCOMP_INFO_MINUTES b)) := by
  unfold Dev.binShown
  refine ⟨Dev.wr_stReq _ _ _ _ _, Dev.rd_wr_disjoint _ _ _ _ _ _ _ _ (by decide) (by decide), ?_⟩
  refine (Dev.rd_wr_self d Reg.TB_TCOMP_INFO_VALID _ b 0 (by decide)).trans (Nat.mod_eq_of_lt ?_)
  cases decide (10 ≤ d.rd Reg.TB_TCOMP_INFO_MINUTES b) <;> decide

theorem ends_tcompLearn {bin : Nat} (hs : s.dev.rd Reg.TB_STATUS_STATE = tbLocked) (hr : s.dev.rd Reg.TB_STATUS_REF10_USED = 0) (ht : s.dev.tb.temps = [])
    (hb : tcompBin s.dev.tbTemp = some bin) : Ends (.tcompLearn t) s fun d => d.rd Reg.TB_TCOMP_INFO_MINUTES bin = min (s.dev.rd Reg.TB_TCOMP_INFO_MINUTES bin + 1) 65535 ∧
      d.rd Reg.TB_TCOMP_INFO_VALID bin = b2n (decide (10 ≤ d.rd Reg.TB_TCOMP_INFO_MINUTES bin)) := by
  refine ends_of (exec_tcompLearn t s) ?_
  have hM : Reg.TB_TCOMP_INFO_MINUTES.has bin 0 = true := Field.has_of (tcompBin_lt hb) (by decide)
  have hV : Reg.TB_TCOMP_INFO_VALID.has bin 0 = true := Field.has_of (tcompBin_lt hb) (by decide)
  have hr' : (begin_ t s.dev).on Reg.TB_STATUS_REF10_USED = false := by
    show (s.dev.rd Reg.TB_STATUS_REF10_USED == 1) = false
    rw [hr]
    rfl
  rw [Dev.tcompLearn_eq (d := begin_ t s.dev) hs hr' ht hb]
  obtain ⟨hls, hlm⟩ := (begin_ t s.dev).noTemps.learned_shown (tcompBin_lt hb)
  have hls' : ((begin_ t s.dev).noTemps.learned bin).stReq = [] := hls
  have hlm' : ((begin_ t s.dev).noTemps.learned bin).rd Reg.TB_TCOMP_INFO_MINUTES bin = min (s.dev.rd Reg.TB_TCOMP_INFO_MINUTES bin + 1) 65535 := hlm
  generalize (begin_ t s.dev).noTemps.learned bin = e at hls' hlm'
  obtain ⟨hbs, hbm, hbv⟩ := e.binShown_shown bin
  generalize e.binShown bin = x at hbs hbm hbv
  have hn := Dev.within_nvWrite [] x 2 0 x.tcompBody
  have hxs := hn.stReq.trans (hbs.trans hls')
  have hmin : (settle s.dev (x.nvWrite 2 0 x.tcompBody)).rd Reg.TB_TCOMP_INFO_MINUTES bin = e.rd Reg.TB_TCOMP_INFO_MINUTES bin :=
    (settle_rd_clear _ _ hxs _ _ _ hM (by decide)).trans ((hn.rd hM (by decide)).trans hbm)
  rw [hmin]
  exact ⟨hlm', (settle_rd_clear _ _ hxs _ _ _ hV (by decide)).trans ((hn.rd hV (by decide)).trans hbv)⟩

/-! ### Clock inputs -/

theorem ends_refFail {dv : Nat} (hon : s.dev.mainOn = true) (hm : s.dev.mode ≠ .halt) :
    Ends (.refFail t dv) s fun d => d.mode = .halt ∧ d.tb.refOk = false ∧ d.pins.faultN = false ∧ d.pins.tripH = 0 ∧ d.pins.tripP = 0 := by
  have he : s.dev.mode.edge .halt = true := DevState.edge_halt (by simpa [Dev.mainOn] using hon) hm
  refine ends_asked (exec_refFail t dv s) (m := .halt) (cause := 7) ?_ he fun hmode hset => ⟨hmode, ?_, hset.faultN (.inr hmode), hset.no_trip ?_⟩
  · unfold Dev.refFail Dev.updSlateLock
    have hon' : ({ begin_ t s.dev with tb := { (begin_ t s.dev).tb with refOk := false } } : Dev).mainOn = true := hon
    have hst : ({ begin_ t s.dev with tb := { (begin_ t s.dev).tb with refOk := false } } : Dev).stReq = [] := rfl
    generalize ({ begin_ t s.dev with tb := { (begin_ t s.dev).tb with refOk := false } } : Dev) = e at hon' hst
    rw [Dev.stReq_raise_fatal _ _ _ rfl (by decide) (by unfold Dev.mainOn; rw [Dev.wr_mode]; exact hon'), Dev.wr_stReq, hst]
    rfl
  · rw [settle_keeps_tb]
    unfold Dev.refFail Dev.updSlateLock
    rw [Dev.raise_tb, Dev.wr_tb]
  · rintro ⟨hl, -⟩
    simp [Dev.live, hmode] at hl

theorem Dev.on_flag (d : Dev) (f : Field) (i j : Nat) (hw : f.width = 1) : b2n (d.on f i j) = d.rd f i j := by
  have h := d.rd_lt f i j
  rw [hw] at h
  unfold Dev.on
  generalize d.rd f i j = x at h
  interval_cases x <;> rfl

theorem ends_ref10Lost (hu : s.dev.rd Reg.TB_STATUS_REF10_USED = 1) : Ends (.ref10Lost t) s fun d => d.rd Reg.TB_STATUS_REF10_OK = 0 ∧ d.rd Reg.TB_STATUS_REF10_USED = 0 ∧ d.rd Reg.TB_ERR_REF10_LOST = 1 ∧
    s.dev.OnlyWrites d [0x20010, 0x20018] := by
  refine ends_of (exec_ref10Lost t s) ?_
  have hon : (begin_ t s.dev).on Reg.TB_STATUS_REF10_USED = true := beq_iff_eq.2 hu
  unfold Dev.ref10Lost Dev.ref10Use
  dsimp only
  rw [hon, if_pos rfl]
  have hst0 : (begin_ t s.dev).stReq = [] := rfl
  have hT0 := Dev.Touches.refl [0x20010, 0x20018] (begin_ t s.dev)
  have hok : ((begin_ t s.dev).clr Reg.TB_STATUS_REF10_OK).rd Reg.TB_STATUS_REF10_OK = 0 := Dev.rd_wr_self _ Reg.TB_STATUS_REF10_OK 0 0 0 (by decide)
  have hst : ((begin_ t s.dev).clr Reg.TB_STATUS_REF10_OK).stReq = [] := (Dev.wr_stReq _ _ _ _ _).trans hst0
  have hT : Dev.Touches [0x20010, 0x20018] (begin_ t s.dev) ((begin_ t s.dev).clr Reg.TB_STATUS_REF10_OK) := Dev.Touches.wr _ _ _ _ (by simp [Field.addr, Reg.TB_STATUS_REF10_OK])
  generalize (begin_ t s.dev).clr Reg.TB_STATUS_REF10_OK = e at hok hst hT
  have hoff : e.on Reg.TB_STATUS_REF10_OK = false := by
    unfold Dev.on
    rw [hok]
    rfl
  rw [hoff, Bool.and_false]
  have hk : Dev.Touches [0x20010, 0x20018] (begin_ t s.dev) (((e.wr Reg.TB_STATUS_REF10_USED (b2n false)).set1 Reg.TB_ERR_REF10_LOST).raise Ev.TB_REF10_LOST 0 0) :=
    ((hT.trans (Dev.Touches.wr _ _ _ _ (by simp [Field.addr, Reg.TB_STATUS_REF10_USED]))).trans (Dev.Touches.wr _ _ _ _ (by simp [Field.addr, Reg.TB_ERR_REF10_LOST]))).trans (Dev.Touches.raise _ _ _ _ _)
  have hxs : (((e.wr Reg.TB_STATUS_REF10_USED (b2n false)).set1 Reg.TB_ERR_REF10_LOST).raise Ev.TB_REF10_LOST 0 0).stReq = [] :=
    (Dev.stReq_raise _ _ _ _ (by decide)).trans ((Dev.wr_stReq _ _ _ _ _).trans ((Dev.wr_stReq _ _ _ _ _).trans hst))
  have hr : ∀ f : Field, f.has 0 0 = true → f.clearOf [] = true →
      (((e.wr Reg.TB_STATUS_REF10_USED (b2n false)).set1 Reg.TB_ERR_REF10_LOST).raise Ev.TB_REF10_LOST 0 0).rd f = ((e.wr Reg.TB_STATUS_REF10_USED (b2n false)).set1 Reg.TB_ERR_REF10_LOST).rd f :=
    fun f hj hc => Dev.rd_raise _ _ _ _ _ _ _ (Field.clearOf_events (l := []) hc hj)
  refine ⟨?_, ?_, ?_, hk.settle hxs⟩
  · refine (settle_rd_clear _ _ hxs _ _ _ (by decide) (by decide)).trans ((hr _ (by decide) (by decide)).trans ?_)
    exact (Dev.rd_wr_free _ _ (by decide) (by decide) (by decide)).trans ((Dev.rd_wr_free _ _ (by decide) (by decide) (by decide)).trans hok)
  · refine (settle_rd_clear _ _ hxs _ _ _ (by decide) (by decide)).trans ((hr _ (by decide) (by decide)).trans ?_)
    exact (Dev.rd_wr_free _ _ (by decide) (by decide) (by decide)).trans (Dev.rd_wr_self e Reg.TB_STATUS_REF10_USED 0 0 0 (by decide))
  · refine (settle_rd_clear _ _ hxs _ _ _ (by decide) (by decide)).trans ((hr _ (by decide) (by decide)).trans ?_)
    exact Dev.rd_wr_self _ Reg.TB_ERR_REF10_LOST 1 0 0 (by decide)

theorem ends_ref10Restored : Ends (.ref10Restored t) s fun d =>
    d.rd Reg.TB_STATUS_REF10_OK = 1 ∧ d.rd Reg.TB_STATUS_REF10_USED = s.dev.rd Reg.TB_CTRL_REF10_EN ∧ s.dev.OnlyWrites d [0x20010] := by
  refine ends_of (exec_ref10Restored t s) ?_
  unfold Dev.ref10Back Dev.ref10Use
  have hok : ((begin_ t s.dev).set1 Reg.TB_STATUS_REF10_OK).rd Reg.TB_STATUS_REF10_OK = 1 := Dev.rd_wr_self _ Reg.TB_STATUS_REF10_OK 1 0 0 (by decide)
  have hen : ((begin_ t s.dev).set1 Reg.TB_STATUS_REF10_OK).rd Reg.TB_CTRL_REF10_EN = s.dev.rd Reg.TB_CTRL_REF10_EN := Dev.rd_wr_free _ _ (by decide) (by decide) (by decide)
  have hst : ((begin_ t s.dev).set1 Reg.TB_STATUS_REF10_OK).stReq = [] := Dev.wr_stReq _ _ _ _ _
  have hT : Dev.Touches [0x20010] (begin_ t s.dev) ((begin_ t s.dev).set1 Reg.TB_STATUS_REF10_OK) := Dev.Touches.wr _ _ _ _ (by simp [Field.addr, Reg.TB_STATUS_REF10_OK])
  generalize (begin_ t s.dev).set1 Reg.TB_STATUS_REF10_OK = e at hok hen hst hT
  have hoff : e.on Reg.TB_STATUS_REF10_OK = true := beq_iff_eq.2 hok
  rw [hoff, Bool.and_true, Dev.on_flag _ _ _ _ rfl, hen]
  have hxs : (e.wr Reg.TB_STATUS_REF10_USED (s.dev.rd Reg.TB_CTRL_REF10_EN)).stReq = [] := (Dev.wr_stReq _ _ _ _ _).trans hst
  refine ⟨?_, ?_, (hT.trans (Dev.Touches.wr _ _ _ _ (by simp [Field.addr, Reg.TB_STATUS_REF10_USED]))).settle hxs⟩
  · exact (settle_rd_clear _ _ hxs _ _ _ (by decide) (by decide)).trans ((Dev.rd_wr_free _ _ (by decide) (by decide) (by decide)).trans hok)
  · refine (settle_rd_clear _ _ hxs _ _ _ (by decide) (by decide)).trans ((Dev.rd_wr_self e Reg.TB_STATUS_REF10_USED _ 0 0 (by decide)).trans (Nat.mod_eq_of_lt ?_))
    exact s.dev.rd_lt Reg.TB_CTRL_REF10_EN 0 0

end

/-- Settles O17: the ports' messages, the source lost, the pulses, holdover and the clock inputs, each by its own lemma. -/
theorem phaseSourcesAndReferences : Obligations.PhaseSourcesAndReferences := by
  unfold Obligations.PhaseSourcesAndReferences
  intro s t k v dv p ds utc a b bad bin now rx
  refine ⟨fun hr => ⟨fun hs hd => ends_ptpSync hr hs hd, fun hs ho => ends_ptpDelayReq hr hs ho, fun hk => ends_ptpMalformed hr hk,
    fun hb hl => ends_ptpAnnounce hr hb hl, fun hs => ends_ptpSend hr hs⟩, ends_ptpTimeout, fun hp ho hs hf hq => ends_ptpTimeout_last hp ho hs hf hq,
    fun h => ⟨ends_ppsEdge h, ends_ppsMissing h⟩, ends_slewComplete, ends_holdoverSecond, ends_tcompLearn, ends_refFail, ends_ref10Lost, ends_ref10Restored⟩

end Sys2Proof.Machine
end

section
/-!
PROOFS. Proofs/Steps.lean: a decided step, and the host's device time and UTC (R53, R158, R159, R170).
-/
namespace Sys2Proof.Machine

/-! ### A step at its boundary -/

/-- Device time stands at `n` after step `k`, with none pending. -/
structure Dev.SteppedTo (n k : Nat) (d : Dev) : Prop where
  now : d.now = n
  step : d.tb.step = none
  steps : d.tb.steps = k
  stReq : d.stReq = []
  shown : d.rd Reg.TB_STATUS_STEP_PENDING = 0

namespace Dev.SteppedTo
variable {n k : Nat} {d : Dev}

theorem raise {ev : Ev} {inst data : Nat} (h : d.SteppedTo n k) (hs : ev.sev < 5) : (d.raise ev inst data).SteppedTo n k :=
  ⟨(Dev.raise_now _ _ _ _).trans h.now, (congrArg Tb.step (Dev.raise_tb _ _ _ _)).trans h.step, (congrArg Tb.steps (Dev.raise_tb _ _ _ _)).trans h.steps,
    (Dev.stReq_raise _ _ _ _ hs).trans h.stReq, (Dev.rd_raise _ _ _ _ _ _ _ (by decide)).trans h.shown⟩

theorem wr {f : Field} {v i j : Nat} (h : d.SteppedTo n k) (hj : f.has i j = true) (hf : Reg.TB_STATUS_STEP_PENDING.free f = true) : (d.wr f v i j).SteppedTo n k :=
  ⟨(Dev.wr_now _ _ _ _ _).trans h.now, (congrArg Tb.step (Dev.wr_tb _ _ _ _ _)).trans h.step, (congrArg Tb.steps (Dev.wr_tb _ _ _ _ _)).trans h.steps,
    (Dev.wr_stReq _ _ _ _ _).trans h.stReq, (Dev.rd_wr_free _ _ hj (by decide) hf).trans h.shown⟩

theorem emit {o : Out} (h : d.SteppedTo n k) : (d.emit o).SteppedTo n k := ⟨h.now, h.step, h.steps, h.stReq, h.shown⟩

theorem setLr {g : Nat} {r : LRing} (h : d.SteppedTo n k) : (d.setLr g r).SteppedTo n k := ⟨h.now, h.step, h.steps, h.stReq, h.shown⟩

theorem withLnk {x : Lnk} (h : d.SteppedTo n k) : ({ d with lnk := x } : Dev).SteppedTo n k := ⟨h.now, h.step, h.steps, h.stReq, h.shown⟩

theorem withImg {x : Img} (h : d.SteppedTo n k) : ({ d with img := x } : Dev).SteppedTo n k := ⟨h.now, h.step, h.steps, h.stReq, h.shown⟩

theorem withTb {x : Tb} (h : d.SteppedTo n k) (hx : x.step = d.tb.step) (hk : x.steps = d.tb.steps) : ({ d with tb := x } : Dev).SteppedTo n k :=
  ⟨h.now, hx.trans h.step, hk.trans h.steps, h.stReq, h.shown⟩

theorem foldl {β : Type} {f : Dev → β → Dev} (hf : ∀ x b, Dev.SteppedTo n k x → Dev.SteppedTo n k (f x b)) (l : List β) {d : Dev} (h : d.SteppedTo n k) : (l.foldl f d).SteppedTo n k := by
  induction l generalizing d with
  | nil => exact h
  | cons b l ih => exact ih (hf _ _ h)

theorem ite {a b : Dev} {c : Prop} [Decidable c] (ha : a.SteppedTo n k) (hb : b.SteppedTo n k) : (if c then a else b).SteppedTo n k := by
  split
  · exact ha
  · exact hb

theorem beginSlew (h : d.SteppedTo n k) (res : Int) : (d.beginSlew res).SteppedTo n k := by
  unfold Dev.beginSlew
  extract_lets x tb e
  have he : e.SteppedTo n k := by
    have hw : (d.set1 Reg.TB_STATUS_SLEWING).SteppedTo n k := h.wr (by decide) (by decide)
    exact hw.withTb (congrArg Tb.step (Dev.wr_tb _ _ _ _ _)).symm (congrArg Tb.steps (Dev.wr_tb _ _ _ _ _)).symm
  exact (he.wr (by decide) (by decide)).ite he

theorem settle {o : Dev} (h : d.SteppedTo n k) : (settle o d).now = n ∧ (settle o d).tb.step = none ∧ (settle o d).tb.steps = k ∧ (settle o d).rd Reg.TB_STATUS_STEP_PENDING = 0 := by
  rw [settle_now _ _ h.stReq, settle_keeps_tb]
  exact ⟨h.now, h.step, h.steps, (settle_rd_clear _ _ h.stReq _ _ _ (by decide) (by decide)).trans h.shown⟩

end Dev.SteppedTo

section
variable {s : State} {t req : Nat}

/-- The device whose clock has jumped by a step. -/
def Dev.jumped (d : Dev) (m : Int) : Dev :=
  { (d.clr Reg.TB_STATUS_STEP_PENDING) with now := ((d.now : Int) + m * 4000000).toNat, tb := { d.tb with step := none, steps := d.tb.steps + 1 } }

theorem Dev.jumped_stepped {d : Dev} (h : d.stReq = []) (m : Int) : (d.jumped m).SteppedTo ((d.now : Int) + m * 4000000).toNat (d.tb.steps + 1) :=
  ⟨rfl, rfl, rfl, h, Dev.rd_wr_self d Reg.TB_STATUS_STEP_PENDING 0 0 0 (by decide)⟩

theorem Dev.applyStep_stepped {d : Dev} {m res : Int} {k : Nat} (hst : d.stReq = []) (h : d.tb.step = some (m, res, k)) (hk : k ≤ d.cyc) :
    d.applyStep.SteppedTo ((d.now : Int) + m * 4000000).toNat (d.tb.steps + 1) := by
  have hj := Dev.jumped_stepped hst m
  unfold Dev.applyStep
  rw [h]
  dsimp only
  rw [if_neg (by omega)]
  refine Dev.SteppedTo.raise ?_ (by decide)
  generalize ((d.now : Int) + m * 4000000).toNat = n at hj ⊢
  have hrings : ∀ l : List Nat, ((l.foldl (fun (d : Dev) g => d.setLr g { (d.lr g).relabel (32 * m) with resync := true }) (d.jumped m))).SteppedTo n (d.tb.steps + 1) :=
    fun l => Dev.SteppedTo.foldl (fun x g hx => hx.setLr) l hj
  exact ((hrings _).withLnk).ite ((hrings _).withLnk.beginSlew res)

theorem Dev.SteppedTo.pwmStep {d : Dev} {n k : Nat} (h : d.SteppedTo n k) : d.pwmStep.SteppedTo n k :=
  Dev.SteppedTo.foldl (fun _ _ hx => hx.emit.ite hx) _ h

theorem Dev.SteppedTo.cutStepped {d : Dev} {n k : Nat} (h : d.SteppedTo n k) : d.cutStepped.SteppedTo n k := by
  unfold Dev.cutStepped
  split
  · exact h
  · refine Dev.SteppedTo.ite ?_ h
    unfold Dev.cutMiss
    split
    · exact h
    · refine Dev.SteppedTo.raise ?_ (by decide)
      exact h.withImg.wr (by decide) (by decide)

theorem ends_timebaseStep {m res : Int} {k : Nat} (h : s.dev.tb.step = some (m, res, k)) (hk : k ≤ cycleOf (s.dev.nowAt t)) : Ends (.timebaseStep t) s fun d =>
    d.now = ((s.dev.nowAt t : Int) + m * 4000000).toNat ∧ d.tb.step = none ∧ d.tb.steps = s.dev.tb.steps + 1 ∧ d.rd Reg.TB_STATUS_STEP_PENDING = 0 := by
  refine ends_of (exec_timebaseStep t s) ?_
  have hk' : k ≤ (begin_ t s.dev).cyc := hk
  have hs := Dev.applyStep_stepped (d := begin_ t s.dev) rfl h hk'
  have heq : (begin_ t s.dev).timeStep = (begin_ t s.dev).applyStep.pwmStep.cutStepped := by
    unfold Dev.timeStep
    rw [show (begin_ t s.dev).tb = s.dev.tb from rfl, h]
    exact if_neg (by omega)
  rw [heq]
  exact hs.pwmStep.cutStepped.settle

/-! ### The host's time -/

/-- The device without the seconds words that waited for `TB_TIME`. -/
def Dev.unstaged (d : Dev) : Dev := { d with host := { d.host with stage := (d.host.stage.del (0x20000 + 4)).del (0x20000 + 8) } }

theorem Dev.hostWrite_time {d : Dev} {lo hi n : Nat} {ns : Word} (hok : d.Takes req) (hlo : d.host.stage.find 0x20004 = some lo) (hhi : d.host.stage.find 0x20008 = some hi)
    (hn : ofFullTime ns.toNat lo hi = some n) : d.hostWrite req 0x20000 ns = (d.unstaged.timeSet (some n)).emit (.status req 0) := by
  have hfull : fullTimeAt 0x20000 = some (0x20000, 0) := by decide
  have hc : d.ctlWrite req 0x20000 ns.toNat = d.timeWrite req 0x20000 0 ns.toNat := by
    unfold Dev.ctlWrite
    rw [if_neg (by decide), if_neg (by decide), if_neg (by decide), if_neg (by decide), if_neg (by decide), if_neg (by decide), if_neg (by decide), if_neg (by simp), hok.2,
      if_neg (by simp), if_neg (by decide), if_neg (by simp), hfull]
    rfl
  have hw : d.timeWrite req 0x20000 0 ns.toNat = (d.unstaged.timeSet (some n), 0) := by
    have hl : d.host.stage.get (0x20000 + 4) (d.liveWord req (0x20000 + 4)) = lo := by
      rw [Tbl.get_eq_find, hlo]
      rfl
    have hh : d.host.stage.get (0x20000 + 8) (d.liveWord req (0x20000 + 8)) = hi := by
      rw [Tbl.get_eq_find, hhi]
      rfl
    unfold Dev.timeWrite
    rw [if_neg (by simp)]
    dsimp only
    rw [hl, hh, hn]
    rfl
  unfold Dev.hostWrite
  rw [hok.1, if_neg (by decide), if_neg (by simp), hc, hw]

/-- The device whose clock is set outside RUN and WRAP. -/
def Dev.clockSet (d : Dev) (n : Nat) : Dev := { d.endSlew with now := n }

theorem Dev.clockSet_kept (d : Dev) {n : Nat} : (d.clockSet n).now = n ∧ (d.clockSet n).stReq = d.stReq ∧ (d.clockSet n).out = d.out := ⟨rfl, rfl, rfl⟩

theorem Dev.correct_idle {d : Dev} (hl : d.live = false) (theta : Int) : d.correct theta = d.clockSet ((d.now : Int) + theta).toNat := by
  unfold Dev.correct
  rw [hl]
  exact if_pos rfl

theorem Dev.timeSet_taken {d : Dev} {n : Nat} (hf : d.follower = false) (hp : d.phaseSel = false) (hl : d.live = false) :
    (d.timeSet (some n)).now = n ∧ (d.timeSet (some n)).stReq = d.stReq ∧ (d.timeSet (some n)).out = d.out ∧ (d.timeSet (some n)).rd Reg.TB_STATUS_SRC = srcHost ∧
      (d.timeSet (some n)).rd Reg.TB_STATUS_TIME_VALID = 1 := by
  have hnow : ((d.now : Int) + ((n : Int) - d.now)).toNat = n := by omega
  have hsrc : ((d.clockSet n).set1 Reg.TB_STATUS_TIME_VALID).rd Reg.TB_STATUS_SRC = d.rd Reg.TB_STATUS_SRC :=
    (Dev.rd_wr_free _ _ (by decide) (by decide) (by decide)).trans (Dev.rd_wr_free d _ (by decide) (by decide) (by decide))
  have hvalid : ((d.clockSet n).set1 Reg.TB_STATUS_TIME_VALID).rd Reg.TB_STATUS_TIME_VALID = 1 := Dev.rd_wr_self _ Reg.TB_STATUS_TIME_VALID 1 0 0 (by decide)
  have hset : ((d.clockSet n).set1 Reg.TB_STATUS_TIME_VALID).now = n ∧ ((d.clockSet n).set1 Reg.TB_STATUS_TIME_VALID).stReq = d.stReq ∧
      ((d.clockSet n).set1 Reg.TB_STATUS_TIME_VALID).out = d.out :=
    ⟨(Dev.wr_now _ _ _ _ _).trans d.clockSet_kept.1, (Dev.wr_stReq _ _ _ _ _).trans d.clockSet_kept.2.1, (Dev.wr_out _ _ _ _ _).trans d.clockSet_kept.2.2⟩
  unfold Dev.timeSet
  dsimp only
  rw [hf, hp, if_neg (by simp), Dev.correct_idle hl, hnow]
  generalize (d.clockSet n).set1 Reg.TB_STATUS_TIME_VALID = e at hsrc hvalid hset
  obtain ⟨hn, hst, ho⟩ := hset
  split
  case isTrue he => exact ⟨hn, hst, ho, hsrc.trans he, hvalid⟩
  case isFalse =>
    refine ⟨(Dev.raise_now _ _ _ _).trans ((Dev.wr_now _ _ _ _ _).trans hn), (Dev.stReq_raise _ _ _ _ (by decide)).trans ((Dev.wr_stReq _ _ _ _ _).trans hst),
      (Dev.raise_out _ _ _ _).trans ((Dev.wr_out _ _ _ _ _).trans ho), ?_, ?_⟩
    · exact (Dev.rd_raise _ _ _ _ _ _ _ (by decide)).trans (Dev.rd_wr_self e Reg.TB_STATUS_SRC srcHost 0 0 (by decide))
    · exact (Dev.rd_raise _ _ _ _ _ _ _ (by decide)).trans ((Dev.rd_wr_free e _ (by decide) (by decide) (by decide)).trans hvalid)

theorem ends_tbTimeWrite {lo hi n : Nat} {ns : Word} (hok : s.dev.Takes req) (hlo : s.dev.host.stage.find 0x20004 = some lo) (hhi : s.dev.host.stage.find 0x20008 = some hi)
    (hn : ofFullTime ns.toNat lo hi = some n) (hf : s.dev.follower = false) (hp : s.dev.phaseSel = false) (hl : s.dev.live = false) :
    Ends (.tbTimeWrite t req ns) s fun d => d.now = n ∧ d.rd Reg.TB_STATUS_SRC = srcHost ∧ d.rd Reg.TB_STATUS_TIME_VALID = 1 ∧ d.out = [.status req 0] := by
  refine ends_of (exec_tbTimeWrite t req ns s) ?_
  rw [Dev.hostWrite_time (d := begin_ t s.dev) hok hlo hhi hn]
  obtain ⟨hnow, hst, ho, hsrc, hvalid⟩ := Dev.timeSet_taken (d := (begin_ t s.dev).unstaged) (n := n) hf hp hl
  have ho' : ((begin_ t s.dev).unstaged.timeSet (some n)).out = [] := ho
  have hst' : (((begin_ t s.dev).unstaged.timeSet (some n)).emit (.status req 0)).stReq = [] := hst
  generalize (begin_ t s.dev).unstaged.timeSet (some n) = e at hnow ho' hst' hsrc hvalid
  refine ⟨?_, ?_, ?_, ?_⟩
  · rw [settle_now _ _ hst']
    exact hnow
  · exact (settle_rd_clear _ _ hst' _ _ _ (by decide) (by decide)).trans hsrc
  · exact (settle_rd_clear _ _ hst' _ _ _ (by decide) (by decide)).trans hvalid
  · rw [settle_out _ _ hst']
    show e.out ++ [.status req 0] = _
    rw [ho']
    rfl

/-! ### UTC -/

theorem Dev.hostWrite_utc {d : Dev} {v : Word} (hok : d.Takes req) (hs : d.rd Reg.TB_STATUS_SRC = srcPps) :
    d.hostWrite req 0x20064 v = (d.storeWord true 0x20064 v.toNat).utcSet.emit (.status req 0) := by
  have hfull : fullTimeAt 0x20064 = none := by decide
  have hc : d.ctlWrite req 0x20064 v.toNat = ((d.storeWord true 0x20064 v.toNat).utcSet, 0) := by
    unfold Dev.ctlWrite
    rw [if_neg (by decide), if_neg (by decide), if_neg (by decide), if_neg (by decide), if_neg (by decide), if_neg (by decide), if_neg (by decide), if_neg (by simp), hok.2,
      if_neg (by simp), if_neg (by decide), if_neg (by simp), hfull]
    dsimp only
    rw [if_pos (by decide), if_pos hs]
  unfold Dev.hostWrite
  rw [hok.1, if_neg (by decide), if_neg (by simp), hc]

theorem fieldsAt_utcSet : fieldsAt 0x20064 = [Reg.TB_UTC_SET_UTC_OFFSET, Reg.TB_UTC_SET_VALID, Reg.TB_UTC_SET_LEAP61, Reg.TB_UTC_SET_LEAP59] := by decide +kernel

/-- The word of `TB_UTC` as a write of `TB_UTC_SET` leaves it. -/
structure Dev.UtcFrom (d : Dev) (v : Word) : Prop where
  offset : d.rd Reg.TB_UTC_UTC_OFFSET = v.toNat % 65536
  valid : d.rd Reg.TB_UTC_VALID = b2n (v.getLsbD 16)
  leap61 : d.rd Reg.TB_UTC_LEAP61 = b2n (v.getLsbD 17)
  leap59 : d.rd Reg.TB_UTC_LEAP59 = b2n (v.getLsbD 18)

/-- The device that shows the UTC it was set. -/
def Dev.utcShown (d : Dev) : Dev :=
  (((d.wr Reg.TB_UTC_UTC_OFFSET (d.rd Reg.TB_UTC_SET_UTC_OFFSET)).wr Reg.TB_UTC_VALID (d.rd Reg.TB_UTC_SET_VALID)).wr Reg.TB_UTC_LEAP61 (d.rd Reg.TB_UTC_SET_LEAP61)).wr
    Reg.TB_UTC_LEAP59 (d.rd Reg.TB_UTC_SET_LEAP59)

theorem Dev.utcShown_from {d : Dev} {v : Word} (h1 : d.rd Reg.TB_UTC_SET_UTC_OFFSET = v.toNat % 65536) (h2 : d.rd Reg.TB_UTC_SET_VALID = b2n (v.getLsbD 16))
    (h3 : d.rd Reg.TB_UTC_SET_LEAP61 = b2n (v.getLsbD 17)) (h4 : d.rd Reg.TB_UTC_SET_LEAP59 = b2n (v.getLsbD 18)) : d.utcShown.UtcFrom v := by
  have hbit (b : Bool) : b2n b % 2 ^ 1 = b2n b := by cases b <;> rfl
  have w (f g : Field) (x : Dev) (n : Nat) (hf : f.lo + f.width ≤ 32) (hd : g.lo + g.width ≤ f.lo ∨ f.lo + f.width ≤ g.lo) : (x.wr f n).rd g = x.rd g := Dev.rd_wr_disjoint x f g n 0 0 0 0 hf hd
  unfold Dev.utcShown
  rw [h1, h2, h3, h4]
  refine ⟨?_, ?_, ?_, ?_⟩
  · rw [w _ _ _ _ (by decide) (by decide), w _ _ _ _ (by decide) (by decide), w _ _ _ _ (by decide) (by decide), Dev.rd_wr_self _ _ _ _ _ (by decide)]
    exact Nat.mod_mod _ _
  · rw [w _ _ _ _ (by decide) (by decide), w _ _ _ _ (by decide) (by decide), Dev.rd_wr_self _ _ _ _ _ (by decide)]
    exact hbit _
  · rw [w _ _ _ _ (by decide) (by decide), Dev.rd_wr_self _ _ _ _ _ (by decide)]
    exact hbit _
  · rw [Dev.rd_wr_self _ _ _ _ _ (by decide)]
    exact hbit _

theorem Dev.touches_utcShown (d : Dev) : Dev.Touches [0x20060, 0x20064] d d.utcShown :=
  (((Dev.Touches.wr d _ _ _ (by simp [Field.addr, Reg.TB_UTC_UTC_OFFSET])).trans (Dev.Touches.wr _ _ _ _ (by simp [Field.addr, Reg.TB_UTC_VALID]))).trans
    (Dev.Touches.wr _ _ _ _ (by simp [Field.addr, Reg.TB_UTC_LEAP61]))).trans (Dev.Touches.wr _ _ _ _ (by simp [Field.addr, Reg.TB_UTC_LEAP59]))

theorem Dev.utcShown_stReq (d : Dev) : d.utcShown.stReq = d.stReq :=
  (Dev.wr_stReq _ _ _ _ _).trans ((Dev.wr_stReq _ _ _ _ _).trans ((Dev.wr_stReq _ _ _ _ _).trans (Dev.wr_stReq _ _ _ _ _)))

/-- While `SRC` is 2 the set UTC is shown, with an event where the offset changes. -/
theorem Dev.utcSet_posts {d : Dev} (hs : d.rd Reg.TB_STATUS_SRC = srcPps) : d.utcShown.Posts d.utcSet := by
  have heq : d.utcSet = if d.rd Reg.TB_UTC_UTC_OFFSET = d.rd Reg.TB_UTC_SET_UTC_OFFSET then d.utcShown else d.utcShown.raise Ev.TB_LEAP 0 (d.rd Reg.TB_UTC_SET_UTC_OFFSET) := by
    unfold Dev.utcSet
    rw [if_neg (by simp [hs])]
    rfl
  rw [heq]
  exact Dev.Posts.ite _ (Dev.Posts.refl _) (Dev.Posts.raise _ _ _ _ (by decide))

theorem Dev.UtcFrom.settle {o e f : Dev} {v : Word} {out : Out} (h : f.UtcFrom v) (hp : f.Posts e) (hst : f.stReq = []) : (Machine.settle o (e.emit out)).UtcFrom v := by
  have hx : (e.emit out).stReq = [] := (Dev.emit_stReq _ _).trans (hp.stReq.trans hst)
  have hk (g : Field) (hj : g.has 0 0 = true) (hc : g.clearOf settleFields = true) (hc' : g.clearOf [] = true) : (Machine.settle o (e.emit out)).rd g = f.rd g :=
    (settle_rd_clear _ _ hx _ _ _ hj hc).trans ((Dev.rd_emit _ _ _ _ _).trans (hp.writes [] _ _ _ hj hc'))
  exact ⟨(hk _ (by decide) (by decide) (by decide)).trans h.offset, (hk _ (by decide) (by decide) (by decide)).trans h.valid,
    (hk _ (by decide) (by decide) (by decide)).trans h.leap61, (hk _ (by decide) (by decide) (by decide)).trans h.leap59⟩

/-- What a write of `TB_UTC_SET` stores. -/
theorem Dev.rd_utcWord (d : Dev) (v : Word) : (d.storeWord true 0x20064 v.toNat).rd Reg.TB_UTC_SET_UTC_OFFSET = bitsOf v.toNat 0 16 ∧
    (d.storeWord true 0x20064 v.toNat).rd Reg.TB_UTC_SET_VALID = bitsOf v.toNat 16 1 ∧ (d.storeWord true 0x20064 v.toNat).rd Reg.TB_UTC_SET_LEAP61 = bitsOf v.toNat 17 1 ∧
    (d.storeWord true 0x20064 v.toNat).rd Reg.TB_UTC_SET_LEAP59 = bitsOf v.toNat 18 1 := by
  refine ⟨?_, ?_, ?_, ?_⟩
  · exact Dev.rd_storeWord_rw d _ (by decide) Reg.TB_UTC_SET_UTC_OFFSET 0 0 (pre := []) fieldsAt_utcSet rfl rfl (by decide) (by decide)
  · exact Dev.rd_storeWord_rw d _ (by decide) Reg.TB_UTC_SET_VALID 0 0 (pre := [Reg.TB_UTC_SET_UTC_OFFSET]) fieldsAt_utcSet rfl rfl (by decide) (by decide)
  · exact Dev.rd_storeWord_rw d _ (by decide) Reg.TB_UTC_SET_LEAP61 0 0 (pre := [Reg.TB_UTC_SET_UTC_OFFSET, Reg.TB_UTC_SET_VALID]) fieldsAt_utcSet rfl rfl (by decide) (by decide)
  · exact Dev.rd_storeWord_rw d _ (by decide) Reg.TB_UTC_SET_LEAP59 0 0 (pre := [Reg.TB_UTC_SET_UTC_OFFSET, Reg.TB_UTC_SET_VALID, Reg.TB_UTC_SET_LEAP61]) fieldsAt_utcSet rfl rfl
      (by decide) (by decide)

theorem ends_tbUtcSet {v : Word} (hok : s.dev.Takes req) (hs : s.dev.rd Reg.TB_STATUS_SRC = srcPps) : Ends (.tbUtcSet t req v) s fun d =>
    d.rd Reg.TB_UTC_UTC_OFFSET = v.toNat % 65536 ∧ d.rd Reg.TB_UTC_VALID = b2n (v.getLsbD 16) ∧ d.rd Reg.TB_UTC_LEAP61 = b2n (v.getLsbD 17) ∧ d.rd Reg.TB_UTC_LEAP59 = b2n (v.getLsbD 18) ∧
      s.dev.OnlyWrites d [0x20060, 0x20064] := by
  refine ends_of (exec_tbUtcSet t req v s) ?_
  rw [Dev.hostWrite_utc (d := begin_ t s.dev) hok hs]
  obtain ⟨h1, h2, h3, h4⟩ := (begin_ t s.dev).rd_utcWord v
  rw [show bitsOf v.toNat 0 16 = v.toNat % 65536 by simp [bitsOf]] at h1
  rw [bitsOf_one_eq v 16 (by decide)] at h2
  rw [bitsOf_one_eq v 17 (by decide)] at h3
  rw [bitsOf_one_eq v 18 (by decide)] at h4
  have hsrc : ((begin_ t s.dev).storeWord true 0x20064 v.toNat).rd Reg.TB_STATUS_SRC = srcPps := (Dev.rd_congr (Dev.word_storeWord_ne _ _ (by decide) (by decide))).trans hs
  have hT : Dev.Touches [0x20060, 0x20064] (begin_ t s.dev) ((begin_ t s.dev).storeWord true 0x20064 v.toNat) :=
    (Dev.touches_storeWord _ _ (by decide)).mono (by simp)
  have hst : ((begin_ t s.dev).storeWord true 0x20064 v.toNat).stReq = [] := Dev.storeWord_stReq _ _ _ _
  have hfrom := Dev.utcShown_from h1 h2 h3 h4
  have hposts := Dev.utcSet_posts hsrc
  have hT' := hT.trans (Dev.touches_utcShown _)
  have hst' := (Dev.utcShown_stReq _).trans hst
  obtain ⟨ho, hv, h61, h59⟩ := hfrom.settle hposts hst' (o := s.dev) (out := .status req 0)
  exact ⟨ho, hv, h61, h59, Dev.Touches.settle (t := t) (fun a ha he => (Dev.word_congr (Dev.emit_regs _ _) a).trans ((hposts.words a he).trans (hT' a ha he))) ((Dev.emit_stReq _ _).trans (hposts.stReq.trans hst'))⟩

end

end Sys2Proof.Machine
end

section
/-!
PROOFS. Proofs/BoardTime.lean: the pulses and frames that followers keep to, and the election of the board time master (R165 to R168), and the statement on steps and board time.
-/
namespace Sys2Proof.Machine

theorem Dev.withTb_stReq (d : Dev) (y : Tb) : ({ d with tb := y } : Dev).stReq = d.stReq := rfl
theorem Dev.withTb_mode (d : Dev) (y : Tb) : ({ d with tb := y } : Dev).mode = d.mode := rfl
theorem Dev.withTb_rd (d : Dev) (y : Tb) (f : Field) (i j : Nat) : ({ d with tb := y } : Dev).rd f i j = d.rd f i j := rfl
theorem Dev.withTb_tb (d : Dev) (y : Tb) : ({ d with tb := y } : Dev).tb = y := rfl

section
variable {s : State} {t : Nat}

theorem clampS16_bounds (x : Int) : -(2 ^ 15 : Nat) ≤ clampS 16 x ∧ clampS 16 x < (2 ^ 15 : Nat) := by
  unfold clampS satS satTo
  split
  · exact ⟨by decide, by decide⟩
  · split
    · exact ⟨by decide, by decide⟩
    · simp only at *
      omega

theorem Dev.steers_updSlateLock {l : List Field} (d : Dev) (h : Reg.TB_STATUS_SLATE_LOCK ∈ l) : Dev.Steers l d d.updSlateLock := (Dev.Steers.refl l d).wr (by decide) h

/-! ### The pulses -/

/-- What a measurement against the master writes beside the deviation. -/
def boardFields : List Field := [Reg.TB_ERR_BOARD_ALIGN, Reg.TB_STATUS_SLATE_LOCK, Reg.TB_STATUS_TIME_VALID] ++ offsetFields

theorem offsetFields_board : offsetFields ⊆ boardFields := fun _ h => List.mem_append_right _ h

/-- The device that has counted whether a boundary was near. -/
def Dev.nearing (d : Dev) (dev : Int) : Dev :=
  { d with tb := { d.tb with near := if decide (dev.natAbs ≤ 25) then d.tb.near + 1 else 0, far := if decide (dev.natAbs ≤ 25) then 0 else d.tb.far + 1 } }

theorem Dev.nearing_kept (d : Dev) (dev : Int) : (d.nearing dev).stReq = d.stReq ∧ (d.nearing dev).tb.near = (if decide (dev.natAbs ≤ 25) then d.tb.near + 1 else 0) ∧
    ∀ f i j, (d.nearing dev).rd f i j = d.rd f i j := ⟨rfl, rfl, fun _ _ _ => rfl⟩

/-- The device that shows a deviation. -/
def Dev.deviated (d : Dev) (dev : Int) : Dev := (d.wrI Reg.TB_BOARD_DEV (clampS 16 dev)).nearing dev

/-- The device that judges how far it is from its master. -/
def Dev.aligned (d : Dev) (dev : Int) (far : Nat) : Dev :=
  let d := if far = 16 then (d.set1 Reg.TB_ERR_BOARD_ALIGN).raise Ev.TB_BOARD_ALIGN (d.rd Reg.TB_BOARD_MASTER) (code 32 (sat32 dev)) else d
  let d := d.updSlateLock
  let d := if d.on Reg.TB_STATUS_SLATE_LOCK ∧ d.tb.masterSrc ≠ 0 then d.set1 Reg.TB_STATUS_TIME_VALID else d
  d.measure srcBoard 0 dev

theorem Dev.boardMeasure_eq (d : Dev) (dev : Int) : d.boardMeasure dev = (d.deviated dev).aligned dev (d.deviated dev).tb.far := rfl

theorem Dev.steers_aligned (d : Dev) (dev : Int) (far : Nat) : Dev.Steers boardFields d (d.aligned dev far) := by
  unfold Dev.aligned
  extract_lets d1 d2 d3
  have h1 : Dev.Steers boardFields d d1 := (((Dev.Steers.refl _ d).wr (by decide) (by simp [boardFields])).raise (by decide)).ite (Dev.Steers.refl _ d)
  have h2 : Dev.Steers boardFields d d2 := h1.trans (d1.steers_updSlateLock (by simp [boardFields]))
  have h3 : Dev.Steers boardFields d d3 := (h2.wr (by decide) (by simp [boardFields])).ite h2
  exact h3.trans ((d3.steers_measure srcBoard (by decide) dev).mono offsetFields_board)

theorem Dev.deviated_shown (d : Dev) (dev : Int) : (d.deviated dev).stReq = d.stReq ∧ (d.deviated dev).rdI Reg.TB_BOARD_DEV = clampS 16 dev ∧
    (d.deviated dev).tb.near = (if dev.natAbs ≤ 25 then d.tb.near + 1 else 0) ∧ (d.deviated dev).rd Reg.TB_STATUS_SYNC_OK = d.rd Reg.TB_STATUS_SYNC_OK := by
  obtain ⟨hlo, hhi⟩ := clampS16_bounds dev
  obtain ⟨hst, hn, hrd⟩ := (d.wrI Reg.TB_BOARD_DEV (clampS 16 dev)).nearing_kept dev
  have hw := Dev.rdI_wrI_self d Reg.TB_BOARD_DEV 0 0 (by decide) (by decide) hlo hhi
  have hok : (d.wrI Reg.TB_BOARD_DEV (clampS 16 dev)).rd Reg.TB_STATUS_SYNC_OK = d.rd Reg.TB_STATUS_SYNC_OK := Dev.rd_wr_free d _ (by decide) (by decide) (by decide)
  have hnear : (d.wrI Reg.TB_BOARD_DEV (clampS 16 dev)).tb.near = d.tb.near := congrArg Tb.near (Dev.wrI_tb _ _ _ _ _)
  have hst' : (d.wrI Reg.TB_BOARD_DEV (clampS 16 dev)).stReq = d.stReq := Dev.wr_stReq _ _ _ _ _
  unfold Dev.deviated
  generalize d.wrI Reg.TB_BOARD_DEV (clampS 16 dev) = e at hst hn hrd hw hok hnear hst'
  refine ⟨hst.trans hst', (Dev.rdI_congr (hrd _ _ _)).trans hw, ?_, (hrd _ _ _).trans hok⟩
  rw [hn, hnear]
  simp only [decide_eq_true_eq]

/-- The device that has seen a pulse. -/
def Dev.pulsed (d : Dev) : Dev := { (d.set1 Reg.TB_STATUS_SYNC_OK) with tb := { d.tb with twtt := false } }

theorem Dev.pulsed_shown (d : Dev) : d.pulsed.stReq = d.stReq ∧ d.pulsed.tb.near = d.tb.near ∧ d.pulsed.rd Reg.TB_STATUS_SYNC_OK = 1 :=
  by
  unfold Dev.pulsed
  rw [Dev.withTb_stReq, Dev.withTb_tb, Dev.withTb_rd]
  exact ⟨Dev.set1_stReq _ _ _ _, rfl, Dev.rd_wr_self d Reg.TB_STATUS_SYNC_OK 1 0 0 (by decide)⟩

theorem Dev.syncEdge_eq {d : Dev} (hf : d.follower = true) (dev : Int) : d.syncEdge dev = d.pulsed.boardMeasure dev := by
  unfold Dev.syncEdge Dev.pulsed
  rw [hf, if_neg (by decide)]

theorem ends_slateSyncEdge {dev : Int} (hf : s.dev.follower = true) : Ends (.slateSyncEdge t dev) s fun d =>
    d.rd Reg.TB_STATUS_SYNC_OK = 1 ∧ d.rdI Reg.TB_BOARD_DEV = clampS 16 dev ∧ d.tb.near = if dev.natAbs ≤ 25 then s.dev.tb.near + 1 else 0 := by
  refine ends_of (exec_slateSyncEdge t dev s) ?_
  obtain ⟨hst, hnear, hok⟩ := (begin_ t s.dev).pulsed_shown
  rw [Dev.begin_tb] at hnear
  rw [Dev.syncEdge_eq (d := begin_ t s.dev) hf, Dev.boardMeasure_eq]
  generalize (begin_ t s.dev).pulsed = e at hok hst hnear
  obtain ⟨hs1, hd1, hn1, ho1⟩ := e.deviated_shown dev
  generalize e.deviated dev = f at hs1 hd1 hn1 ho1
  have hk := f.steers_aligned dev f.tb.far
  generalize f.aligned dev f.tb.far = x at hk
  have hx := hk.stReq.trans (hs1.trans hst)
  refine ⟨(settle_rd_clear _ _ hx _ _ _ (by decide) (by decide)).trans ((hk.rd (by decide) (by decide)).trans (ho1.trans hok)), ?_, ?_⟩
  · rw [← hd1]
    exact Dev.rdI_congr ((settle_rd_clear _ _ hx _ _ _ (by decide) (by decide)).trans (hk.rd (by decide) (by decide)))
  · rw [settle_tb _ _ hx, hk.near, hn1, hnear]

/-- The device that asks for two-way time transfer. -/
def Dev.asking (d : Dev) : Dev := { d with tb := { d.tb with near := 0, twtt := true } }

/-- The device that has lost the pulses. -/
def Dev.unpulsed (d : Dev) : Dev := ((d.clr Reg.TB_STATUS_SYNC_OK).set1 Reg.TB_ERR_SYNC_LOST).asking

theorem Dev.asking_shown (d : Dev) : d.asking.stReq = d.stReq ∧ d.asking.tb.twtt = true ∧ d.asking.tb.near = 0 ∧ ∀ f i j, d.asking.rd f i j = d.rd f i j :=
  ⟨rfl, rfl, rfl, fun _ _ _ => rfl⟩

theorem Dev.unpulsed_shown (d : Dev) : d.unpulsed.stReq = d.stReq ∧ d.unpulsed.tb.twtt = true ∧ d.unpulsed.tb.near = 0 ∧ d.unpulsed.rd Reg.TB_STATUS_SYNC_OK = 0 ∧
    d.unpulsed.rd Reg.TB_ERR_SYNC_LOST = 1 := by
  obtain ⟨hst, htw, hn, hrd⟩ := ((d.clr Reg.TB_STATUS_SYNC_OK).set1 Reg.TB_ERR_SYNC_LOST).asking_shown
  unfold Dev.unpulsed
  rw [hst, htw, hn, hrd, hrd, Dev.set1_stReq, Dev.clr_stReq]
  refine ⟨rfl, rfl, rfl, ?_, ?_⟩
  · exact (Dev.rd_wr_free (d.clr Reg.TB_STATUS_SYNC_OK) _ (by decide) (by decide) (by decide)).trans (Dev.rd_wr_self d Reg.TB_STATUS_SYNC_OK 0 0 0 (by decide))
  · exact Dev.rd_wr_self (d.clr Reg.TB_STATUS_SYNC_OK) Reg.TB_ERR_SYNC_LOST 1 0 0 (by decide)

theorem Dev.syncLost_eq {d : Dev} (hf : d.follower = true) (hu : d.rd Reg.SIN_STATUS_PEER_UP ≠ 0) :
    d.syncLost = d.unpulsed.updSlateLock.raise Ev.TB_SYNC_LOST (d.unpulsed.rd Reg.TB_BOARD_MASTER) 0 := by
  unfold Dev.syncLost
  rw [hf, if_neg (by simp [hu])]
  rfl

theorem ends_syncLost (hf : s.dev.follower = true) (hu : s.dev.rd Reg.SIN_STATUS_PEER_UP ≠ 0) : Ends (.syncLost t) s fun d =>
    d.rd Reg.TB_STATUS_SYNC_OK = 0 ∧ d.rd Reg.TB_ERR_SYNC_LOST = 1 ∧ d.tb.twtt = true ∧ d.tb.near = 0 := by
  refine ends_of (exec_syncLost t s) ?_
  rw [Dev.syncLost_eq (d := begin_ t s.dev) hf hu]
  obtain ⟨hst, htw, hnear, hok, herr⟩ := (begin_ t s.dev).unpulsed_shown
  generalize (begin_ t s.dev).unpulsed = f at hst htw hnear hok herr
  have hk : Dev.Steers [Reg.TB_STATUS_SLATE_LOCK] f (f.updSlateLock.raise Ev.TB_SYNC_LOST (f.rd Reg.TB_BOARD_MASTER) 0) := (f.steers_updSlateLock (by simp)).raise (by decide)
  have htb' : (f.updSlateLock.raise Ev.TB_SYNC_LOST (f.rd Reg.TB_BOARD_MASTER) 0).tb = f.tb := (Dev.raise_tb _ _ _ _).trans (Dev.wr_tb _ _ _ _ _)
  generalize f.updSlateLock.raise Ev.TB_SYNC_LOST (f.rd Reg.TB_BOARD_MASTER) 0 = x at hk htb'
  have hx := hk.stReq.trans hst
  refine ⟨(settle_rd_clear _ _ hx _ _ _ (by decide) (by decide)).trans ((hk.rd (by decide) (by decide)).trans hok),
    (settle_rd_clear _ _ hx _ _ _ (by decide) (by decide)).trans ((hk.rd (by decide) (by decide)).trans herr), ?_⟩
  rw [settle_tb _ _ hx, htb']
  exact ⟨htw, hnear⟩

/-! ### The election -/

theorem Dev.timeCandidates_alone {d : Dev} (hm : d.mode = .quiet ∨ d.mode = .run ∨ d.mode = .wrap) (hp : d.tb.peers = []) : d.timeCandidates = [d.devAddr] := by
  have he : electable d.mode.stateCode = true := by rcases hm with h | h | h <;> rw [h] <;> rfl
  unfold Dev.timeCandidates
  rw [he, hp, if_pos rfl, List.filter_eq_nil_iff.2 (fun l _ => by simp [Tbl.find])]
  rfl

/-- What a new master writes beside its address. -/
def masterFields : List Field := Reg.TB_STATUS_SLATE_LOCK :: sourceFields

/-- The device that has to find its way to a new master. -/
def Dev.astray (d : Dev) : Dev := { d with tb := { d.tb with near := 0, far := 0, twtt := false } }

theorem Dev.astray_kept (d : Dev) : d.astray.stReq = d.stReq ∧ ∀ f i j, d.astray.rd f i j = d.rd f i j := ⟨rfl, fun _ _ _ => rfl⟩

/-- The device that has a master. -/
def Dev.withMaster (d : Dev) (m : Nat) : Dev := (d.wr Reg.TB_BOARD_MASTER m).set1 Reg.TB_BOARD_MASTER_VALID

/-- The device that shows its master. -/
def Dev.mastered (d : Dev) (m : Nat) : Dev := ((d.withMaster m).wr Reg.TB_STATUS_BOARD_MASTER (b2n (m == (d.withMaster m).devAddr))).astray

/-- The device that reports a new master and selects its source again. -/
def Dev.reselected (d : Dev) (m old : Nat) : Dev :=
  let d := if d.rd Reg.TB_STATUS_SRC = srcBoard then d.enterHoldover srcBoard else d
  let d := d.raise Ev.TB_BOARD_MASTER m old
  (d.selectSrc).updSlateLock

theorem Dev.setMaster_other {d : Dev} {m : Nat} (h : d.rd Reg.TB_BOARD_MASTER ≠ m) : d.setMaster m = (d.mastered m).reselected m (d.rd Reg.TB_BOARD_MASTER) := by
  have hno : (d.on Reg.TB_BOARD_MASTER_VALID && d.rd Reg.TB_BOARD_MASTER == m) = false := by simp [h]
  unfold Dev.setMaster
  dsimp only
  rw [hno, if_neg (by decide)]
  rfl

theorem Dev.steers_reselected (d : Dev) (m old : Nat) : Dev.Steers masterFields d (d.reselected m old) := by
  unfold Dev.reselected
  extract_lets d1 d2
  have hs : sourceFields ⊆ masterFields := List.subset_cons_self _ _
  have h1 : Dev.Steers masterFields d d1 := ((d.steers_enterHoldover _).mono hs).ite (Dev.Steers.refl _ d)
  have h2 : Dev.Steers masterFields d d2 := h1.raise (by decide)
  exact (h2.trans (d2.steers_selectSrc.mono hs)).trans (Dev.steers_updSlateLock _ (by simp [masterFields]))

theorem Dev.mastered_shown (d : Dev) : (d.mastered d.devAddr).stReq = d.stReq ∧ (d.mastered d.devAddr).rd Reg.TB_BOARD_MASTER = d.devAddr ∧
    (d.mastered d.devAddr).rd Reg.TB_STATUS_BOARD_MASTER = 1 ∧ (d.mastered d.devAddr).rd Reg.TB_BOARD_MASTER_VALID = 1 := by
  have hlt : d.devAddr < 2 ^ 2 := d.rd_lt Reg.GLB_STATUS_DEV_ADDR 0 0
  generalize hm : d.devAddr = m at hlt
  have hself : (d.withMaster m).devAddr = m := by
    rw [← hm]
    exact (Dev.rd_wr_free _ _ (by decide) (by decide) (by decide)).trans (Dev.rd_wr_free _ _ (by decide) (by decide) (by decide))
  have haddr : (d.withMaster m).rd Reg.TB_BOARD_MASTER = m :=
    (Dev.rd_wr_disjoint _ _ _ _ _ _ _ _ (by decide) (by decide)).trans ((Dev.rd_wr_self d Reg.TB_BOARD_MASTER m 0 0 (by decide)).trans (Nat.mod_eq_of_lt hlt))
  have hvalid : (d.withMaster m).rd Reg.TB_BOARD_MASTER_VALID = 1 := Dev.rd_wr_self _ Reg.TB_BOARD_MASTER_VALID 1 0 0 (by decide)
  have hst : (d.withMaster m).stReq = d.stReq := (Dev.wr_stReq _ _ _ _ _).trans (Dev.wr_stReq _ _ _ _ _)
  unfold Dev.mastered
  rw [hself, beq_self_eq_true]
  generalize d.withMaster m = e at haddr hvalid hst
  obtain ⟨hs, hrd⟩ := (e.wr Reg.TB_STATUS_BOARD_MASTER (b2n true)).astray_kept
  rw [hs, hrd, hrd, hrd, Dev.wr_stReq]
  exact ⟨hst, (Dev.rd_wr_free e _ (by decide) (by decide) (by decide)).trans haddr, Dev.rd_wr_self e Reg.TB_STATUS_BOARD_MASTER (b2n true) 0 0 (by decide),
    (Dev.rd_wr_free e _ (by decide) (by decide) (by decide)).trans hvalid⟩

theorem Tbl.del_nil {α : Type} (l : List Nat) : l.foldl (fun (t : Tbl α) k => t.del k) [] = [] := by
  induction l with
  | nil => rfl
  | cons k l ih => exact ih

/-- The device that hears no other. -/
def Dev.unpeered (d : Dev) : Dev := { d with tb := { d.tb with peers := [] } }

theorem Dev.electMaster_alone {d : Dev} (hs : d.solo = false) (hm : d.mode = .quiet ∨ d.mode = .run ∨ d.mode = .wrap) (hp : d.tb.peers = [])
    (hne : d.rd Reg.TB_BOARD_MASTER ≠ d.devAddr) : d.electMaster = (d.mastered d.devAddr).reselected d.devAddr (d.rd Reg.TB_BOARD_MASTER) := by
  unfold Dev.electMaster
  rw [hs, Dev.timeCandidates_alone hm hp]
  dsimp only
  rw [if_neg (by decide), if_neg (by simp [hne]), ← Dev.setMaster_other hne]
  rfl

theorem Dev.masterAbsent_alone {d : Dev} (hs : d.solo = false) (hm : d.mode = .quiet ∨ d.mode = .run ∨ d.mode = .wrap) (hp : d.tb.peers = [])
    (hne : d.rd Reg.TB_BOARD_MASTER ≠ d.devAddr) :
    d.masterAbsent = (d.unpeered.mastered d.unpeered.devAddr).reselected d.unpeered.devAddr (d.unpeered.rd Reg.TB_BOARD_MASTER) := by
  have habs : d.masterAbsent = d.unpeered.electMaster := by
    unfold Dev.masterAbsent
    rw [hp]
    dsimp only
    rw [Tbl.del_nil]
    rfl
  rw [habs]
  exact Dev.electMaster_alone hs hm rfl hne

theorem ends_boardMasterElection (hs : s.dev.solo = false) (hm : s.dev.mode = .quiet ∨ s.dev.mode = .run ∨ s.dev.mode = .wrap) (hp : s.dev.tb.peers = [])
    (hne : s.dev.rd Reg.TB_BOARD_MASTER ≠ s.dev.devAddr) : Ends (.boardMasterElection t) s fun d =>
      d.rd Reg.TB_BOARD_MASTER = s.dev.devAddr ∧ d.rd Reg.TB_STATUS_BOARD_MASTER = 1 ∧ d.rd Reg.TB_BOARD_MASTER_VALID = 1 := by
  refine ends_of (exec_boardMasterElection t s) ?_
  rw [Dev.masterAbsent_alone (d := begin_ t s.dev) hs hm hp hne]
  have h0 : (begin_ t s.dev).unpeered.stReq = [] ∧ (begin_ t s.dev).unpeered.devAddr = s.dev.devAddr := ⟨rfl, rfl⟩
  generalize (begin_ t s.dev).unpeered = e at h0
  obtain ⟨hst0, haddr⟩ := h0
  obtain ⟨hst, h1, h2, h3⟩ := e.mastered_shown
  rw [haddr] at hst h1 h2 h3 ⊢
  generalize e.mastered s.dev.devAddr = f at hst h1 h2 h3
  have hk := f.steers_reselected s.dev.devAddr (e.rd Reg.TB_BOARD_MASTER)
  generalize f.reselected s.dev.devAddr (e.rd Reg.TB_BOARD_MASTER) = x at hk
  have hx := hk.stReq.trans (hst.trans hst0)
  exact ⟨(settle_rd_clear _ _ hx _ _ _ (by decide) (by decide)).trans ((hk.rd (by decide) (by decide)).trans h1),
    (settle_rd_clear _ _ hx _ _ _ (by decide) (by decide)).trans ((hk.rd (by decide) (by decide)).trans h2),
    (settle_rd_clear _ _ hx _ _ _ (by decide) (by decide)).trans ((hk.rd (by decide) (by decide)).trans h3)⟩

end

end Sys2Proof.Machine
end

section
/-!
PROOFS. Proofs/BoardFrames.lean: BOARD_TIME and TWTT frames (R167, R168), and the statement on steps and board time.
-/
namespace Sys2Proof.Machine

section
variable {s : State} {t : Nat} {link : Fin 4} {codeErr : Bool} {frame pay : List Byte}

/-- The device that has taken its master's source and the label of the next pulse. -/
def Dev.labelled (d : Dev) (n src : Nat) : Dev :=
  let d := { d with tb := { d.tb with masterSrc := src } }
  let own : Nat := (d.now / 1000000 + 1) * 1000000
  if d.live then d else { d with now := ((d.now : Int) + ((n : Int) - own)).toNat }

/-- The device that has taken the step its master announced. -/
def Dev.announced (d : Dev) (m : Int) (k : Nat) : Dev :=
  if m = 0 then d else { (d.set1 Reg.TB_STATUS_STEP_PENDING) with tb := { d.tb with stepReq := none, step := some (m, 0, d.extendCyc k) } }

theorem Dev.withTb_now (d : Dev) (y : Tb) : ({ d with tb := y } : Dev).now = d.now := rfl

theorem Dev.boardTime_eq {d : Dev} {n : Nat} (hs : d.solo = false) (hv : d.rd Reg.SIN_PEER_STAT_ADDR_VALID link = 1) (hf : d.follower = true)
    (hm : d.rd Reg.TB_BOARD_MASTER = d.rd Reg.SIN_PEER_STAT_PEER_ADDR link) (hn : ofTime12 pay 0 = some n) :
    d.boardTime link pay = (d.labelled n (byteAt pay 17)).announced (sx 16 (le pay 18 2)) (le pay 20 4) := by
  have hvalid : d.on Reg.SIN_PEER_STAT_ADDR_VALID link = true := beq_iff_eq.2 hv
  have hmaster : d.on Reg.TB_BOARD_MASTER_VALID = true := (Bool.and_eq_true_iff.1 hf).1
  unfold Dev.boardTime
  rw [hs, hvalid, if_neg (by simp)]
  dsimp only
  rw [hmaster, if_pos rfl, hf, hm, if_neg (by simp), hn]
  rfl

theorem Dev.labelled_kept (d : Dev) (n src : Nat) : (d.labelled n src).stReq = d.stReq ∧
    (d.live = true → (d.labelled n src).now = d.now) ∧ (d.live = false → (d.labelled n src).now = ((d.now : Int) + ((n : Int) - ((d.now / 1000000 + 1) * 1000000 : Nat))).toNat) := by
  unfold Dev.labelled
  extract_lets tb e own
  have he : e.live = d.live := rfl
  rw [he]
  refine ⟨?_, fun h => ?_, fun h => ?_⟩
  · split <;> rfl
  · rw [if_pos h]
  · rw [h, if_neg (by decide)]

theorem Dev.announced_kept (d : Dev) (m : Int) (k : Nat) : (d.announced m k).stReq = d.stReq ∧ (d.announced m k).now = d.now := by
  unfold Dev.announced
  split
  · exact ⟨rfl, rfl⟩
  · rw [Dev.withTb_stReq, Dev.withTb_now]
    exact ⟨Dev.set1_stReq _ _ _ _, Dev.set1_now _ _ _ _⟩

theorem Dev.announced_step (d : Dev) {m : Int} (k : Nat) (hm : m ≠ 0) :
    (d.announced m k).tb.step = some (m, 0, d.extendCyc k) ∧ (d.announced m k).rd Reg.TB_STATUS_STEP_PENDING = 1 := by
  unfold Dev.announced
  rw [if_neg hm, Dev.withTb_tb, Dev.withTb_rd]
  exact ⟨rfl, Dev.rd_wr_self d Reg.TB_STATUS_STEP_PENDING 1 0 0 (by decide)⟩

/-- What a heard frame leaves of what a BOARD_TIME is judged by. -/
theorem ends_boardTime {n : Nat} {p : Dev → Prop} (hear : s.dev.Hears t link pfBoardTime codeErr frame pay) (hs : s.dev.solo = false) (hv : s.dev.rd Reg.SIN_PEER_STAT_ADDR_VALID link = 1)
    (hf : s.dev.follower = true) (hm : s.dev.rd Reg.TB_BOARD_MASTER = s.dev.rd Reg.SIN_PEER_STAT_PEER_ADDR link) (hn : ofTime12 pay 0 = some n)
    (h : ∀ d : Dev, d.stReq = [] → d.now = s.dev.nowAt t → d.live = s.dev.live → p (settle s.dev ((d.labelled n (byteAt pay 17)).announced (sx 16 (le pay 18 2)) (le pay 20 4)))) :
    Ends (.boardTime t link codeErr frame) s p := by
  refine ends_of (exec_boardTime t link codeErr frame s) ?_
  obtain ⟨seen, hrx⟩ := Dev.peerRx_heard hear
  rw [hrx]
  have hw := (begin_ t s.dev).within_heard seen link.isLt
  have hpr (f : Field) (i : Nat) (hj : f.has i 0 = true) (hc : f.clearOf [Reg.SIN_PEER_FRAMES_CNT] = true) : ((begin_ t s.dev).heard link seen).rd f i = s.dev.rd f i := hw.rd hj hc
  have hjl (f : Field) (h : f.n1 = 4 ∧ f.n2 = 1) : f.has link 0 = true := Field.has_of (by rw [h.1]; exact link.isLt) (by rw [h.2]; decide)
  dsimp only
  rw [Dev.boardTime_eq (n := n) (show ((begin_ t s.dev).heard link seen).solo = false from hs) ((hpr _ _ (hjl _ ⟨rfl, rfl⟩) (by decide)).trans hv)
    ((Dev.follower_congr (hpr _ 0 (by decide) (by decide)) (hpr _ 0 (by decide) (by decide))).trans hf)
    ((hpr _ 0 (by decide) (by decide)).trans (hm.trans (hpr _ _ (hjl _ ⟨rfl, rfl⟩) (by decide)).symm)) hn]
  exact h _ rfl rfl rfl

theorem ends_boardTime_label {n : Nat} (hear : s.dev.Hears t link pfBoardTime codeErr frame pay) (hs : s.dev.solo = false) (hv : s.dev.rd Reg.SIN_PEER_STAT_ADDR_VALID link = 1)
    (hf : s.dev.follower = true) (hm : s.dev.rd Reg.TB_BOARD_MASTER = s.dev.rd Reg.SIN_PEER_STAT_PEER_ADDR link) (hn : ofTime12 pay 0 = some n) (hl : s.dev.live = false) :
    Ends (.boardTime t link codeErr frame) s fun d => d.now = ((s.dev.nowAt t : Int) + ((n : Int) - ((s.dev.nowAt t / 1000000 + 1) * 1000000 : Nat))).toNat := by
  refine ends_boardTime hear hs hv hf hm hn fun d hst hnow hlive => ?_
  obtain ⟨h1, -, h2⟩ := d.labelled_kept n (byteAt pay 17)
  have hk := h2 (hlive.trans hl)
  generalize d.labelled n (byteAt pay 17) = e at h1 hk
  obtain ⟨h3, h4⟩ := e.announced_kept (sx 16 (le pay 18 2)) (le pay 20 4)
  rw [settle_now _ _ (h3.trans (h1.trans hst)), h4, hk, hnow]

theorem ends_boardTime_step {n : Nat} (hear : s.dev.Hears t link pfBoardTime codeErr frame pay) (hs : s.dev.solo = false) (hv : s.dev.rd Reg.SIN_PEER_STAT_ADDR_VALID link = 1)
    (hf : s.dev.follower = true) (hm : s.dev.rd Reg.TB_BOARD_MASTER = s.dev.rd Reg.SIN_PEER_STAT_PEER_ADDR link) (hn : ofTime12 pay 0 = some n) (hl : s.dev.live = true)
    (hstep : sx 16 (le pay 18 2) ≠ 0) : Ends (.boardTime t link codeErr frame) s fun d =>
      d.tb.step = some (sx 16 (le pay 18 2), 0, (begin_ t s.dev).extendCyc (le pay 20 4)) ∧ d.rd Reg.TB_STATUS_STEP_PENDING = 1 := by
  refine ends_boardTime hear hs hv hf hm hn fun d hst hnow hlive => ?_
  obtain ⟨h1, h2, -⟩ := d.labelled_kept n (byteAt pay 17)
  have hk := h2 (hlive.trans hl)
  generalize d.labelled n (byteAt pay 17) = e at h1 hk
  obtain ⟨h3, -⟩ := e.announced_kept (sx 16 (le pay 18 2)) (le pay 20 4)
  obtain ⟨h5, h6⟩ := e.announced_step (le pay 20 4) hstep
  have hx := h3.trans (h1.trans hst)
  refine ⟨?_, (settle_rd_clear _ _ hx _ _ _ (by decide) (by decide)).trans h6⟩
  rw [settle_tb _ _ hx, h5]
  have hext : e.extendCyc (le pay 20 4) = (begin_ t s.dev).extendCyc (le pay 20 4) := by
    unfold Dev.extendCyc Dev.cyc
    rw [hk, hnow]
    rfl
  rw [hext]

theorem ends_twtt (hear : s.dev.Hears t link pfTwtt codeErr frame pay) (h0 : byteAt pay 0 = 0) (hm : s.dev.rd Reg.TB_STATUS_BOARD_MASTER = 1) :
    Ends (.twtt t link codeErr frame) s fun d =>
      d.out = [.peer link (peerFrame pfTwtt (s.dev.sin.txSeq.get pfTwtt 0) (toLe 1 1 ++ toLe 0 3 ++ toLe (ts32 (s.dev.nowAt t)) 4 ++ toLe (ts32 (s.dev.nowAt t)) 4))] := by
  refine ends_of (exec_twtt t link codeErr frame s) ?_
  obtain ⟨seen, hrx⟩ := Dev.peerRx_heard hear
  rw [hrx]
  dsimp only
  have hw := (begin_ t s.dev).within_heard seen link.isLt
  have hon : ((begin_ t s.dev).heard link seen).on Reg.TB_STATUS_BOARD_MASTER = true := beq_iff_eq.2 ((hw.rd (by decide) (by decide)).trans hm)
  have hkept : ((begin_ t s.dev).heard link seen).stReq = [] ∧ ((begin_ t s.dev).heard link seen).out = [] ∧ ((begin_ t s.dev).heard link seen).now = s.dev.nowAt t ∧
      ((begin_ t s.dev).heard link seen).sin.txSeq = s.dev.sin.txSeq := ⟨rfl, rfl, rfl, rfl⟩
  generalize (begin_ t s.dev).heard link seen = e at hon hkept
  obtain ⟨hst, ho, hnow, htx⟩ := hkept
  unfold Dev.twttFrame
  rw [h0, if_pos rfl, hon, if_pos rfl, settle_out _ _ ((Dev.peerSend_stReq _ _ _ _).trans hst), Dev.peerSend_out, ho, hnow, htx]
  rfl

end

/-- Settles O18: the step, the host's time and UTC, the pulses, the election and the frames of the board time, each by its own lemma. -/
theorem stepsAndBoardTime : Obligations.StepsAndBoardTime := by
  unfold Obligations.StepsAndBoardTime
  intro s t req n k lo hi m res dev ns v link codeErr frame pay now
  refine ⟨ends_timebaseStep, fun hok => ⟨ends_tbTimeWrite hok, ends_tbUtcSet hok⟩, fun hf => ⟨ends_slateSyncEdge hf, ends_syncLost hf⟩, fun hs hm hp _ hne => ends_boardMasterElection hs hm hp hne,
    fun hear hs hv hf hm hn => ⟨ends_boardTime_label hear hs hv hf hm hn, ends_boardTime_step hear hs hv hf hm hn⟩, ends_twtt⟩

end Sys2Proof.Machine
end

section
/-!
PROOFS. Proofs/EnumReplies.lean: the replies to an enumeration, its end, and the statement on enumerations (R131, R517).
-/
namespace Sys2Proof.Machine

/-! ### What the bookkeeping of an enumeration leaves -/

/-- Whether an offset is that of a node's link word. -/
def nodeWord (a : Nat) : Prop := a < 0x180000 ∧ 0x100000 ≤ a ∧ 0x400 ≤ (a - 0x100000) % 0x2000

theorem nodeWord_events {a : Nat} (h : nodeWord a) : a ∉ evWords := by
  obtain ⟨h1, h2, -⟩ := h
  simp only [evWords, List.mem_cons, List.not_mem_nil, or_false, not_or, Field.addr, Reg.QF_CNT_DROP_CNT, Reg.QF_CNT_OVERWRITE_CNT, Reg.QF_CNT_CUT_CNT, Reg.PST_BB_DROPPED_CNT,
    Reg.WCH_LOG_COUNT, Reg.WCH_LOG_OVERFLOW]
  omega

theorem Rec.ndAddr_lt (n : Rec) : n.ndAddr < 256 := by
  unfold Rec.ndAddr Rec.u8 byteAt
  exact BitVec.isLt _

theorem nodeWord_uid {ring addr : Nat} (hr : ring < 64) (ha : addr < 256) : nodeWord (Reg.LNK_NODE_LINK_UID_OK.addr ring addr) := by
  unfold nodeWord
  simp only [Field.addr, Reg.LNK_NODE_LINK_UID_OK]
  omega

/-- The state of a ring's links and the link words of the nodes stand, and no state is asked for. -/
structure Dev.NodesKept (ring : Nat) (d e : Dev) : Prop where
  lr : e.lr ring = d.lr ring
  stReq : e.stReq = d.stReq
  word : ∀ a, nodeWord a → e.word a = d.word a

namespace Dev.NodesKept
variable {ring : Nat} {d e x : Dev}

theorem refl (ring : Nat) (d : Dev) : Dev.NodesKept ring d d := ⟨rfl, rfl, fun _ _ => rfl⟩

theorem trans (h : Dev.NodesKept ring d e) (k : Dev.NodesKept ring e x) : Dev.NodesKept ring d x :=
  ⟨k.lr.trans h.lr, k.stReq.trans h.stReq, fun a ha => (k.word a ha).trans (h.word a ha)⟩

theorem ite {a b : Dev} {c : Prop} [Decidable c] (ha : Dev.NodesKept ring d a) (hb : Dev.NodesKept ring d b) : Dev.NodesKept ring d (if c then a else b) := by
  split
  · exact ha
  · exact hb

theorem posts (h : Dev.NodesKept ring d e) (k : e.Posts x) : Dev.NodesKept ring d x :=
  h.trans ⟨Dev.lr_congr k.lnk ring, k.stReq, fun a ha => k.words a (nodeWord_events ha)⟩

theorem raise {ev : Ev} {inst data : Nat} (h : Dev.NodesKept ring d e) (hs : ev.sev < 5) : Dev.NodesKept ring d (e.raise ev inst data) := h.posts (Dev.Posts.raise _ _ _ _ hs)

theorem wr {f : Field} {v i j : Nat} (h : Dev.NodesKept ring d e) (hf : ∀ a, nodeWord a → f.addr i j ≠ a) : Dev.NodesKept ring d (e.wr f v i j) :=
  h.trans ⟨Dev.lr_congr (Dev.wr_lnk _ _ _ _ _) ring, Dev.wr_stReq _ _ _ _ _, fun a ha => Dev.word_wr_ne e f v i j fun hn => hf a ha hn.symm⟩

/-- A field of the sweeper lies past the link words. -/
theorem wrSwp {f : Field} {v i j : Nat} (h : Dev.NodesKept ring d e) (hf : 0x180000 ≤ f.base) : Dev.NodesKept ring d (e.wr f v i j) :=
  h.wr fun a ha hn => by
    have := f.base_le_addr i j
    have := ha.1
    omega

theorem views (h : Dev.NodesKept ring d e) (a m v : Nat) : Dev.NodesKept ring d (e.putViews ring a m v) := by
  obtain ⟨hl, hs, hw⟩ := e.putViews_kept ring a m v
  exact h.trans ⟨Dev.lr_congr hl ring, hs, fun x hx => hw x hx.1 (nodeWord_events hx)⟩

theorem mgmt (h : Dev.NodesKept ring d e) (a m : Nat) : Dev.NodesKept ring d (e.updMgmt ring a m) := h.views a _ _

theorem data (h : Dev.NodesKept ring d e) (a v : Nat) : Dev.NodesKept ring d (e.updData ring a v) := h.views a _ _

theorem countEnum (h : Dev.NodesKept ring d e) (hr : ring < 64) : Dev.NodesKept ring d (e.countEnum ring) := by
  unfold Dev.countEnum
  have hno : ∀ (f : Field), f.base = 0x10010C → f.s1 = 8192 → ∀ a, nodeWord a → f.addr ring 0 ≠ a := fun f hb hs a ha hn => by
    obtain ⟨h1, h2, h3⟩ := ha
    simp only [Field.addr, hb, hs] at hn
    omega
  exact ((h.wr (hno _ rfl rfl)).wr (hno _ rfl rfl)).wr (hno _ rfl rfl)

theorem foldl {β : Type} {f : Dev → β → Dev} (hf : ∀ x b, Dev.NodesKept ring x (f x b)) (l : List β) (d : Dev) : Dev.NodesKept ring d (l.foldl f d) := by
  induction l generalizing d with
  | nil => exact refl ring d
  | cons b l ih => exact (hf d b).trans (ih _)

end Dev.NodesKept

/-! ### The end of an enumeration -/

theorem Dev.setLr_stReq (d : Dev) (ring : Nat) (r : LRing) : (d.setLr ring r).stReq = d.stReq := rfl

/-- The outcomes at the end of an enumeration. -/
def endOutcomes (l : List Rec) (o : Tbl Nat) : Tbl Nat := l.foldl (fun (o : Tbl Nat) n => if o.get n.ndAddr 0 = 0 then o.ins n.ndAddr 4 else o) o

theorem endOutcomes_kept {l : List Rec} {o : Tbl Nat} {a : Nat} (h : o.get a 0 ≠ 0) : (endOutcomes l o).get a 0 = o.get a 0 := by
  induction l generalizing o with
  | nil => rfl
  | cons n l ih =>
    have hstep : (if o.get n.ndAddr 0 = 0 then o.ins n.ndAddr 4 else o).get a 0 = o.get a 0 := by
      split
      · rename_i h0
        rw [Tbl.get_eq_find, Tbl.find_ins_ne _ _ (by rintro rfl; exact h h0), ← Tbl.get_eq_find]
      · rfl
    exact (ih (by rw [hstep]; exact h)).trans hstep

theorem endOutcomes_missing {l : List Rec} {o : Tbl Nat} {n : Rec} (hn : n ∈ l) (h : o.get n.ndAddr 0 = 0) : (endOutcomes l o).get n.ndAddr 0 = 4 := by
  induction l generalizing o with
  | nil => exact absurd hn List.not_mem_nil
  | cons m l ih =>
    by_cases hm : m.ndAddr = n.ndAddr
    · have hstep : (if o.get m.ndAddr 0 = 0 then o.ins m.ndAddr 4 else o).get n.ndAddr 0 = 4 := by
        rw [hm, if_pos h, Tbl.get_ins_self]
      exact (endOutcomes_kept (o := if o.get m.ndAddr 0 = 0 then o.ins m.ndAddr 4 else o) (by rw [hstep]; decide)).trans hstep
    · have hstep : (if o.get m.ndAddr 0 = 0 then o.ins m.ndAddr 4 else o).get n.ndAddr 0 = 0 := by
        split
        · rw [Tbl.get_eq_find, Tbl.find_ins_ne _ _ (Ne.symm hm), ← Tbl.get_eq_find, h]
        · exact h
      exact ih ((List.mem_cons.1 hn).resolve_left fun he => hm (he ▸ rfl)) hstep

/-- An enumeration that has ended from `d`. -/
structure Dev.EnumEnded (ring : Nat) (d e : Dev) : Prop where
  enumEnd : (e.lr ring).enumEnd = none
  outc : (e.lr ring).outc = endOutcomes (d.rl.nodes ring) (d.lr ring).outc
  state : e.rd Reg.LNK_RING_STAT_STATE ring = 2
  stReq : e.stReq = d.stReq
  word : ∀ a, nodeWord a → e.word a = d.word a

theorem Dev.enumFinish_ended {d : Dev} {ring : Nat} (hr : ring < 64) (he : (d.lr ring).enumEnd.isSome = true) : Dev.EnumEnded ring d (d.enumFinish ring) := by
  have hS : Reg.LNK_RING_STAT_STATE.has ring 0 = true := Field.has_of hr (by decide)
  have hno : (d.lr ring).enumEnd.isNone = false := by rw [← Option.not_isSome, he]; rfl
  unfold Dev.enumFinish
  extract_lets r outc d1 d2 d3 ask src d4 d5
  rw [show r.enumEnd.isNone = false from hno, if_neg (by decide)]
  have hout : outc = endOutcomes (d.rl.nodes ring) (d.lr ring).outc := rfl
  have h1 : (d1.lr ring).outc = outc ∧ (d1.lr ring).enumEnd = none := by
    simp only [d1]
    rw [Dev.lr_setLr]
    exact ⟨rfl, rfl⟩
  have hs1 : d1.stReq = d.stReq := Dev.setLr_stReq _ _ _
  have hw1 : d1.regs = d.regs := Dev.setLr_regs _ _ _
  clear_value d1 outc
  have h2 : Dev.NodesKept ring d1 d2 := by
    refine Dev.NodesKept.foldl (fun x n => ?_) _ _
    exact Dev.NodesKept.ite (((Dev.NodesKept.refl ring x).mgmt n.ndAddr 3).data n.ndAddr 3) (Dev.NodesKept.refl ring x)
  clear_value d2
  have h3 : Dev.NodesKept ring d1 d3 := h2.countEnum hr
  clear_value d3 ask
  have h4 : (d4.lr ring).outc = (d3.lr ring).outc ∧ (d4.lr ring).enumEnd = (d3.lr ring).enumEnd := by
    simp only [d4]
    rw [Dev.lr_setLr]
    exact ⟨rfl, rfl⟩
  have hs4 : d4.stReq = d3.stReq := Dev.setLr_stReq _ _ _
  have hw4 : d4.regs = d3.regs := Dev.setLr_regs _ _ _
  clear_value d4
  have h5 : Dev.NodesKept ring d4 d5 := (Dev.NodesKept.refl ring d4).wr fun a ha hn => by
    obtain ⟨-, -, h⟩ := ha
    simp only [Field.addr, Reg.LNK_RING_STAT_STATE] at hn
    omega
  have hst5 : d5.rd Reg.LNK_RING_STAT_STATE ring = 2 := Dev.rd_wr_self d4 Reg.LNK_RING_STAT_STATE 2 ring 0 (by decide)
  clear_value d5
  generalize d5.rd Reg.LNK_RING_ENUM_MATCHED ring + d5.rd Reg.LNK_RING_ENUM_MISSING ring * 2 ^ 8 + d5.rd Reg.LNK_RING_ENUM_WRONG ring * 2 ^ 16 = data
  have h6 := h5.raise (ev := Ev.LNK_ENUM_DONE) (inst := ring) (data := data) (by decide)
  refine ⟨?_, ?_, ?_, ?_, fun a ha => ?_⟩
  · rw [h6.lr, h4.2, h3.lr, h1.2]
  · rw [h6.lr, h4.1, h3.lr, h1.1, hout]
  · exact (Dev.rd_raise _ _ _ _ _ _ _ (Field.clearOf_events (l := []) (by decide) hS)).trans hst5
  · exact h6.stReq.trans (hs4.trans (h3.stReq.trans hs1))
  · exact (h6.word a ha).trans ((Dev.word_congr hw4 a).trans ((h3.word a ha).trans (Dev.word_congr hw1 a)))

theorem Dev.afterWrite_ringEnum (d : Dev) {req : Nat} (ring : Fin 64) (hm : d.mode = .quiet) : d.afterWrite req (0x100110 + 0x2000 * ring) 1 = d.enumStart ring := by
  have hr := ring.isLt
  rw [Dev.afterWrite_lnk d (by omega) (by omega)]
  unfold Dev.lnkWrite
  dsimp only
  rw [if_neg (by omega), if_pos (by omega), show bitAt 1 0 = true by decide, show bitAt 1 1 = false by decide, show bitAt 1 2 = false by decide,
    show (0x100110 + 0x2000 * ring.val - 0x100000) / 0x1000 / 2 = ring by omega]
  simp only [hm, beq_self_eq_true, Bool.true_or, Bool.and_true, Bool.false_and, Bool.false_eq_true, if_false, if_true]

section
variable {s : State} {t req : Nat} {ring : Fin 64}

theorem ends_enumEnd {e : Nat} (he : (s.dev.lr ring).enumEnd = some e) : Ends (.enumEnd t ring) s fun d => (d.lr ring).enumEnd = none ∧ d.rd Reg.LNK_RING_STAT_STATE ring = 2 ∧
    ∀ x ∈ s.dev.rl.nodes ring, (d.lr ring).outc.get x.ndAddr 0 = if (s.dev.lr ring).outc.get x.ndAddr 0 = 0 then 4 else (s.dev.lr ring).outc.get x.ndAddr 0 := by
  refine ends_of (exec_enumEnd t ring s) ?_
  have h := Dev.enumFinish_ended (d := begin_ t s.dev) ring.isLt (show ((begin_ t s.dev).lr ring).enumEnd.isSome = true by rw [show (begin_ t s.dev).lr ring = s.dev.lr ring from rfl, he]; rfl)
  have ho : ((begin_ t s.dev).enumFinish ring).lr ring = ((begin_ t s.dev).enumFinish ring).lr ring := rfl
  generalize (begin_ t s.dev).enumFinish ring = x at h
  have hst : x.stReq = [] := h.stReq
  rw [Dev.lr_congr (settle_lnk _ _ hst)]
  refine ⟨h.enumEnd, (settle_rd_clear _ _ hst _ _ _ (Field.has_of ring.isLt (by decide)) (by decide)).trans h.state, fun n hn => ?_⟩
  have hout : (x.lr ring).outc = endOutcomes (s.dev.rl.nodes ring) (s.dev.lr ring).outc := h.outc
  rw [hout]
  split
  · rename_i h0
    exact endOutcomes_missing hn h0
  · rename_i h0
    exact endOutcomes_kept h0

/-! ### The start -/

theorem ends_lnkRingEnum (hp : s.dev.rl.present ring = true) (hm : s.dev.mode = .quiet) (hok : s.dev.Takes req) : Ends (.lnkRingEnum t req ring) s fun d =>
    (d.lr ring).enumEnd = some (s.dev.ownAt t + 150000000) ∧ (d.lr ring).outc = [] ∧ d.rd Reg.LNK_RING_STAT_STATE ring = 1 ∧
      d.rd Reg.LNK_RING_ENUM_ATTEMPTS ring = min (s.dev.rd Reg.LNK_RING_ENUM_ATTEMPTS ring + 1) 255 := by
  obtain ⟨hplain, hinert⟩ := plainOffset_ringCtrl ring
  refine ends_hostWrite (exec_lnkRingEnum t req ring s) hok hplain ?_
  have hb := Dev.begins_storeWord t s.dev (1#32).toNat (by omega) hinert
  have hreel : ((begin_ t s.dev).storeWord true (0x100110 + 0x2000 * ring) (1#32).toNat).reel = s.dev.reel := Dev.storeWord_reel _ _ _ _
  have hown : ((begin_ t s.dev).storeWord true (0x100110 + 0x2000 * ring) (1#32).toNat).own = s.dev.ownAt t := Dev.storeWord_own _ _ _ _
  generalize (begin_ t s.dev).storeWord true (0x100110 + 0x2000 * ring) (1#32).toNat = d at hb hreel hown
  have hrl : d.rl = s.dev.rl := by unfold Dev.rl; rw [hreel]
  have hmode : d.mode = .quiet := hb.mode.trans hm
  rw [show (1#32).toNat = 1 from rfl, Dev.afterWrite_ringEnum d ring hmode]
  have he := Dev.enumStart_quiet ring.isLt (d := d) (by rw [hrl]; exact hp) hmode
  have hsp := d.spares_enumStart ring
  have hst : (d.enumStart ring).stReq = [] := hsp.2.1.trans hb.stReq
  have howns : (d.enumStart ring).own = s.dev.ownAt t := hsp.2.2.2.1.trans hown
  have hatt : d.rd Reg.LNK_RING_ENUM_ATTEMPTS ring = s.dev.rd Reg.LNK_RING_ENUM_ATTEMPTS ring := Dev.rd_congr (hb.word _)
  rw [hatt] at he
  generalize d.enumStart ring = x at he hst howns
  have hx : (x.emit (.status req 0)).stReq = [] := (Dev.emit_stReq _ _).trans hst
  have hlr : (settle s.dev (x.emit (.status req 0))).lr ring = x.lr ring := Dev.lr_congr ((settle_lnk _ _ hx).trans (Dev.emit_lnk x _)) ring
  rw [hlr]
  refine ⟨he.enumEnd.trans (by rw [howns]), he.outc, ?_, ?_⟩
  · rw [Dev.rd_settle_emit _ _ _ hst (Field.has_of ring.isLt (by decide)) (by decide)]
    exact he.state
  · rw [Dev.rd_settle_emit _ _ _ hst (Field.has_of ring.isLt (by decide)) (by decide)]
    exact he.attempts

end

end Sys2Proof.Machine
end

section
/-!
PROOFS. Proofs/EnumOutcomes.lean: the outcome of each reply to an enumeration, and the statement on enumerations (R131, R517).
-/
namespace Sys2Proof.Machine

/-- A reply has its outcome and shows whether its identity is right. -/
structure Dev.Answers (ring addr : Nat) (p : Nat → Prop) (v : Nat) (d : Dev) : Prop where
  outc : p ((d.lr ring).outc.get addr 0)
  shown : d.rd Reg.LNK_NODE_LINK_UID_OK ring addr = v
  stReq : d.stReq = []

namespace Dev.Answers
variable {ring addr v : Nat} {p : Nat → Prop} {d e : Dev}

theorem kept (h : d.Answers ring addr p v) (hr : ring < 64) (ha : addr < 256) (k : Dev.NodesKept ring d e) : e.Answers ring addr p v :=
  ⟨by rw [k.lr]; exact h.outc, (Dev.rd_congr (k.word _ (nodeWord_uid hr ha))).trans h.shown, k.stReq.trans h.stReq⟩

theorem finish (h : d.Answers ring addr p v) (hr : ring < 64) (ha : addr < 256) (hp : ¬ p 0) : (d.enumFinish ring).Answers ring addr p v := by
  cases he : (d.lr ring).enumEnd with
  | none =>
    have hd : d.enumFinish ring = d := by
      exact if_pos (show (d.lr ring).enumEnd.isNone = true by rw [he]; rfl)
    rw [hd]
    exact h
  | some x =>
    have k := Dev.enumFinish_ended hr (show (d.lr ring).enumEnd.isSome = true by rw [he]; rfl)
    have h0 : (d.lr ring).outc.get addr 0 ≠ 0 := fun h0 => hp (h0 ▸ h.outc)
    refine ⟨?_, (Dev.rd_congr (k.word _ (nodeWord_uid hr ha))).trans h.shown, k.stReq.trans h.stReq⟩
    rw [k.outc, endOutcomes_kept h0]
    exact h.outc

theorem finishIf {c : Prop} [Decidable c] (h : d.Answers ring addr p v) (hr : ring < 64) (ha : addr < 256) (hp : ¬ p 0) :
    (if c then d.enumFinish ring else d).Answers ring addr p v := by
  split
  · exact h.finish hr ha hp
  · exact h

theorem onlyElse {c : Prop} [Decidable c] {a b : Dev} (hc : ¬ c) (h : b.Answers ring addr p v) : (if c then a else b).Answers ring addr p v := by
  rw [if_neg hc]
  exact h

theorem settle {o : Dev} (h : d.Answers ring addr p v) (hr : ring < 64) (ha : addr < 256) :
    p (((settle o d).lr ring).outc.get addr 0) ∧ (settle o d).rd Reg.LNK_NODE_LINK_UID_OK ring addr = v := by
  have hw := nodeWord_uid hr ha
  refine ⟨by rw [Dev.lr_congr (settle_lnk _ _ h.stReq)]; exact h.outc, (Dev.rd_congr (settle_word o d h.stReq _ ?_)).trans h.shown⟩
  obtain ⟨-, h1, -⟩ := hw
  simp only [settleWords, List.mem_cons, List.not_mem_nil, or_false, not_or, Field.addr, Reg.GLB_STATUS_STATE, Reg.TRW_OUT_STAT_H_LEVEL, Reg.LNK_NODE_LINK_UID_OK] at h1 ⊢
  omega

end Dev.Answers

section
variable {d : Dev} {ring addr : Nat} {data : List Byte} {n : Rec}

/-- A reply that does not fit the map. -/
theorem Dev.enumReply_wrong (hr : ring < 64) (ha : addr < 256) (hst : d.stReq = []) (hp : d.rl.present ring = true) (hn : d.rl.node ring addr = some n)
    (hk : byteAt data 8 ≠ n.ndKind) : (d.enumReply ring addr data).Answers ring addr (fun o => o = 3) 0 := by
  unfold Dev.enumReply
  rw [hp, hn]
  dsimp -zeta only
  extract_lets r uid kind cells temps inst d1 d2 wrong w1 w2 w3
  rw [if_neg (by decide), if_pos (show wrong ≠ 0 by simp only [wrong]; rw [if_pos hk]; decide)]
  have h2 : d2.stReq = [] := (Dev.wr_stReq _ _ _ _ _).trans ((Dev.wr_stReq _ _ _ _ _).trans hst)
  clear_value d2
  have h1 : w1.Answers ring addr (fun o => o = 3) 0 := by
    refine ⟨?_, Dev.rd_wr_self _ Reg.LNK_NODE_LINK_UID_OK 0 ring addr (by decide), (Dev.clr_stReq _ _ _ _).trans ((Dev.setLr_stReq _ _ _).trans h2)⟩
    simp only [w1]
    rw [Dev.lr_congr (Dev.clr_lnk _ _ _ _), Dev.lr_setLr]
    exact Tbl.get_ins_self _ _ _ _
  clear_value w1
  have hw2 : w2.Answers ring addr (fun o => o = 3) 0 := h1.kept hr ha (((Dev.NodesKept.refl ring w1).mgmt addr 4).data addr 4)
  clear_value w2 wrong
  have hw3 : w3.Answers ring addr (fun o => o = 3) 0 := hw2.kept hr ha (((Dev.NodesKept.refl ring w2).countEnum hr).raise (by decide))
  exact hw3.finishIf hr ha (by decide)

theorem Dev.setSn_stReq (d : Dev) (ring addr : Nat) (n : SNode) : (d.setSn ring addr n).stReq = d.stReq := rfl

theorem Dev.nodesKept_sn (d : Dev) (g ring addr : Nat) (n : SNode) : Dev.NodesKept g d (d.setSn ring addr n) := ⟨rfl, rfl, fun _ _ => rfl⟩

theorem Dev.nvWrite_stReq (d : Dev) (kind key : Nat) (body : List Byte) : (d.nvWrite kind key body).stReq = d.stReq := (Dev.within_nvWrite [] d kind key body).stReq

/-- A reply that fits the map and its stored identity. -/
theorem Dev.enumReply_fits (hr : ring < 64) (ha : addr < 256) (hst : d.stReq = []) (hp : d.rl.present ring = true) (hn : d.rl.node ring addr = some n)
    (hk : byteAt data 8 = n.ndKind) (hc : ¬ (n.ndKind = 1 ∧ (2 ^ byteAt data 9 ≤ n.ndCellMask ∨ 2 ^ byteAt data 10 ≤ n.ndTempMask))) (hu : n.ndUid = 0 ∨ le data 0 8 = n.ndUid) :
    (d.enumReply ring addr data).Answers ring addr (fun o => o = 1 ∨ o = 2) 1 := by
  unfold Dev.enumReply
  rw [hp, hn]
  dsimp -zeta only
  extract_lets r uid kind cells temps inst d1 d2 wrong w1 w2 w3 stored repl d3 one hops est src1 d4 d5 d6 r2 adm d7 d8 src2 d9 d10 src3 d11 d12 d13
  have hw : wrong = 0 := by
    simp only [wrong]
    rw [if_neg (not_not.2 hk), if_neg hc, if_neg (by rintro ⟨h1, h2⟩; exact hu.elim h1 h2)]
  refine .onlyElse (by decide) (.onlyElse (not_not.2 hw) ?_)
  have h2 : d2.stReq = [] := (Dev.wr_stReq _ _ _ _ _).trans ((Dev.wr_stReq _ _ _ _ _).trans hst)
  have h3 : d3.stReq = [] := by
    simp only [d3]
    split
    · exact h2
    · exact (Dev.nvWrite_stReq _ _ _ _).trans h2
  have h4 : d4.stReq = [] := by
    refine (Dev.setSn_stReq _ _ _ _).trans ?_
    show Dev.stReq (match r.hop with
        | some h => (d3, h)
        | none => if one then (d3.fresh.1, d3.fresh.2 % 2 ^ 16) else (d3, 0)).1 = []
    split
    · exact h3
    · split
      · exact h3
      · exact h3
  have h6 : d6.stReq = [] ∧ d6.rd Reg.LNK_NODE_LINK_UID_OK ring addr = 1 :=
    ⟨(Dev.set1_stReq _ _ _ _).trans ((Dev.wr_stReq _ _ _ _ _).trans h4), Dev.rd_wr_self d5 Reg.LNK_NODE_LINK_UID_OK 1 ring addr (by decide)⟩
  obtain ⟨h6s, h6r⟩ := h6
  have h7 : d7.Answers ring addr (fun o => o = 1 ∨ o = 2) 1 := by
    refine ⟨?_, (Dev.rd_congr (Dev.word_congr (Dev.setLr_regs _ _ _) _)).trans h6r, (Dev.setLr_stReq _ _ _).trans h6s⟩
    simp only [d7]
    rw [Dev.lr_setLr]
    dsimp only
    rw [Tbl.get_ins_self]
    split
    · exact .inr rfl
    · exact .inl rfl
  have h8 : Dev.NodesKept ring d7 d8 := Dev.NodesKept.ite ((Dev.NodesKept.refl ring d7).raise (by decide)) (Dev.NodesKept.refl ring d7)
  have h9 : Dev.NodesKept ring d8 d9 := Dev.nodesKept_sn ..
  have h10 : Dev.NodesKept ring d9 d10 := (((Dev.NodesKept.refl ring d9).wrSwp (by decide)).wrSwp (by decide)).wrSwp (by decide)
  have h11 : Dev.NodesKept ring d10 d11 := ⟨rfl, rfl, fun _ _ => rfl⟩
  have h12 : Dev.NodesKept ring d7 d12 := Dev.NodesKept.ite ((((h8.trans h9).trans h10).trans h11).raise (by decide)) h8
  exact ((h7.kept hr ha (h12.countEnum hr))).finishIf hr ha (by decide)

end

section
variable {s : State} {t addr : Nat} {ring : Fin 64} {data : List Byte} {n : Rec}

theorem ends_enumReply_extra (hp : s.dev.rl.present ring = true) (hn : s.dev.rl.node ring addr = none) : Ends (.enumReply t ring addr data) s fun d =>
    (d.lr ring).extra = (s.dev.lr ring).extra + 1 ∧ (d.lr ring).outc = (s.dev.lr ring).outc := by
  refine ends_of (exec_enumReply t ring addr data s) ?_
  unfold Dev.enumReply
  rw [show (begin_ t s.dev).rl.present ring = true from hp, show (begin_ t s.dev).rl.node ring addr = none from hn]
  dsimp only
  rw [if_neg (by decide)]
  have hlr : ((begin_ t s.dev).setLr ring { (begin_ t s.dev).lr ring with extra := ((begin_ t s.dev).lr ring).extra + 1 }).lr ring =
      { (begin_ t s.dev).lr ring with extra := ((begin_ t s.dev).lr ring).extra + 1 } := Dev.lr_setLr _ _ _
  have hst : ((begin_ t s.dev).setLr ring { (begin_ t s.dev).lr ring with extra := ((begin_ t s.dev).lr ring).extra + 1 }).stReq = [] := Dev.setLr_stReq _ _ _
  generalize (begin_ t s.dev).setLr ring { (begin_ t s.dev).lr ring with extra := ((begin_ t s.dev).lr ring).extra + 1 } = e at hlr hst
  have hk := (Dev.NodesKept.refl ring e).countEnum ring.isLt
  generalize e.countEnum ring = x at hk
  rw [Dev.lr_congr (settle_lnk _ _ (hk.stReq.trans hst)), hk.lr, hlr]
  exact ⟨rfl, rfl⟩

theorem ends_enumReply_wrong (hp : s.dev.rl.present ring = true) (hn : s.dev.rl.node ring addr = some n) (hna : n.ndAddr = addr) (hk : byteAt data 8 ≠ n.ndKind) :
    Ends (.enumReply t ring addr data) s fun d => (d.lr ring).outc.get addr 0 = 3 ∧ d.rd Reg.LNK_NODE_LINK_UID_OK ring addr = 0 := by
  refine ends_of (exec_enumReply t ring addr data s) ?_
  have ha : addr < 256 := hna ▸ n.ndAddr_lt
  exact (Dev.enumReply_wrong (d := begin_ t s.dev) ring.isLt ha rfl hp hn hk).settle ring.isLt ha

theorem ends_enumReply_fits (hp : s.dev.rl.present ring = true) (hn : s.dev.rl.node ring addr = some n) (hna : n.ndAddr = addr) (hk : byteAt data 8 = n.ndKind)
    (hc : ¬ (n.ndKind = 1 ∧ (2 ^ byteAt data 9 ≤ n.ndCellMask ∨ 2 ^ byteAt data 10 ≤ n.ndTempMask))) (hu : n.ndUid = 0 ∨ le data 0 8 = n.ndUid) :
    Ends (.enumReply t ring addr data) s fun d => ((d.lr ring).outc.get addr 0 = 1 ∨ (d.lr ring).outc.get addr 0 = 2) ∧ d.rd Reg.LNK_NODE_LINK_UID_OK ring addr = 1 := by
  refine ends_of (exec_enumReply t ring addr data s) ?_
  have ha : addr < 256 := hna ▸ n.ndAddr_lt
  exact (Dev.enumReply_fits (d := begin_ t s.dev) ring.isLt ha rfl hp hn hk hc hu).settle ring.isLt ha

end

/-- Settles O15: the start by the ring's write, each reply by what it finds in the map, the end by the outcomes it leaves. -/
theorem ringsEnumerate : Obligations.RingsEnumerate := by
  unfold Obligations.RingsEnumerate
  intro s t req e addr ring data n hp
  exact ⟨fun hm hok => ends_lnkRingEnum hp hm hok, fun hn => ends_enumReply_extra hp hn,
    fun hn hna => ⟨fun hk => ends_enumReply_wrong hp hn hna hk, fun hk hc hu => ends_enumReply_fits hp hn hna hk hc hu⟩, fun he => ends_enumEnd he⟩

end Sys2Proof.Machine
end

section
/-!
PROOFS. Proofs/NodeFrames.lean: how a node's frames are received, held and written (R122, R132, R133).
-/
namespace Sys2Proof.Machine

/-! ### What the items of a frame leave -/

/-- Neither the links, the Gaffer nor a switch that is due are touched, and no output is taken back. -/
structure Dev.Beside (d e : Dev) : Prop where
  lnk : e.lnk = d.lnk
  gaf : e.gaf = d.gaf
  switchK : d.sin.switchK = none → e.sin.switchK = none
  out : d.out ⊆ e.out

theorem Dev.Beside.refl (d : Dev) : d.Beside d := ⟨rfl, rfl, id, List.Subset.refl _⟩

theorem Dev.Beside.trans {a b c : Dev} (h : a.Beside b) (k : b.Beside c) : a.Beside c :=
  ⟨k.lnk.trans h.lnk, k.gaf.trans h.gaf, fun hs => k.switchK (h.switchK hs), List.Subset.trans h.out k.out⟩

theorem Dev.Beside.wr (d : Dev) (f : Field) (v i j : Nat) : d.Beside (d.wr f v i j) := ⟨rfl, rfl, id, List.Subset.refl _⟩

theorem Dev.Beside.posts {d e : Dev} (h : d.Posts e) : d.Beside e := ⟨h.lnk, h.gaf, fun hs => by rw [h.sin, hs], by rw [h.out]; exact List.Subset.refl _⟩

theorem Dev.Beside.setEpoch (d : Dev) (n : Nat) : d.Beside (d.setEpoch n) := by
  obtain ⟨p, hp⟩ := Dev.setEpoch_eq d n
  rw [hp]
  exact ⟨rfl, rfl, id, List.Subset.refl _⟩

theorem Dev.Beside.setRole (d : Dev) (r : Nat) : d.Beside (d.setRole r) := by
  unfold Dev.setRole
  split
  · exact .refl d
  · exact (Dev.Beside.wr d _ _ _ _).trans (.posts (.raise _ _ _ _ (by decide)))

theorem Dev.Beside.join (d : Dev) (cause : Nat) : d.Beside (d.join cause) := by
  unfold Dev.join
  extract_lets was e sd f g
  have he : d.Beside e := (Dev.Beside.wr d _ _ _ _).trans (.wr _ _ _ _ _)
  have hf : e.Beside f := ⟨rfl, rfl, id, List.Subset.refl _⟩
  have hg : f.Beside g := .wr _ _ _ _ _
  clear_value g
  split
  · exact ((he.trans hf).trans hg).trans (.posts (.raise _ _ _ _ (by decide)))
  · exact (he.trans hf).trans hg

/-- The cycle goes on: the device's state and structure, the boundary dealt with and the enabled ports stand; no output is taken back. -/
structure Dev.Rolls (d e : Dev) : Prop where
  spares : d.Spares e
  done : e.lnk.done = d.lnk.done
  enable : ∀ p, p < 128 → e.rd Reg.LNK_PORT_CTRL_ENABLE p = d.rd Reg.LNK_PORT_CTRL_ENABLE p
  gaf : e.gaf = d.gaf
  switchK : d.sin.switchK = none → e.sin.switchK = none
  out : d.out ⊆ e.out

theorem Dev.Rolls.refl (d : Dev) : d.Rolls d := ⟨.refl d, rfl, fun _ _ => rfl, rfl, id, List.Subset.refl _⟩

theorem Dev.Rolls.trans {a b c : Dev} (h : a.Rolls b) (k : b.Rolls c) : a.Rolls c :=
  ⟨h.spares.trans k.spares, k.done.trans h.done, fun p hp => (k.enable p hp).trans (h.enable p hp), k.gaf.trans h.gaf, fun hs => k.switchK (h.switchK hs), List.Subset.trans h.out k.out⟩

/-- The cycle goes on, and with it every ring: who originates it and the rotations stopped on it stand. -/
structure Dev.RunsOn (d e : Dev) : Prop where
  rolls : d.Rolls e
  lane : ∀ g, ((e.lr g).orig, (e.lr g).stopped) = ((d.lr g).orig, (d.lr g).stopped)

theorem Dev.RunsOn.refl (d : Dev) : d.RunsOn d := ⟨.refl d, fun _ => rfl⟩

theorem Dev.RunsOn.trans {a b c : Dev} (h : a.RunsOn b) (k : b.RunsOn c) : a.RunsOn c := ⟨h.rolls.trans k.rolls, fun g => (k.lane g).trans (h.lane g)⟩

/-- What leaves the links and the enabled ports leaves the rings to run on. -/
theorem Dev.Beside.runsOn {d e : Dev} (h : d.Beside e) (hs : d.Spares e) (hr : ∀ p, p < 128 → e.rd Reg.LNK_PORT_CTRL_ENABLE p = d.rd Reg.LNK_PORT_CTRL_ENABLE p) :
    d.RunsOn e :=
  ⟨⟨hs, by rw [h.lnk], hr, h.gaf, h.switchK, h.out⟩, fun g => by rw [Dev.lr_congr h.lnk]⟩

/-- The frames of a ring that are written, and the counts of missing duplicates, stand; the rings run on. -/
structure Dev.FramesKept (ring : Nat) (d e : Dev) : Prop where
  written : (e.lr ring).written = (d.lr ring).written
  runs : d.RunsOn e
  rd : ∀ p, p < 128 → e.rd Reg.LNK_CNT_DUPMISS_CNT p = d.rd Reg.LNK_CNT_DUPMISS_CNT p

theorem Dev.lr_setLr_ne (d : Dev) {g ring : Nat} (h : g ≠ ring) (r : LRing) : (d.setLr g r).lr ring = d.lr ring := Tbl.get_set_ne _ _ _ _ (Ne.symm h)

theorem Dev.Rolls.setLr (d : Dev) (g : Nat) (r : LRing) : d.Rolls (d.setLr g r) :=
  ⟨Dev.spares_setLr d g r, rfl, fun p _ => Dev.rd_congr (Dev.word_congr (Dev.setLr_regs _ _ _) _), rfl, id, List.Subset.refl _⟩

/-- A ring's record with the same origination and the same stopped rotations. -/
theorem Dev.RunsOn.setLr (d : Dev) (g : Nat) {r : LRing} (h : (r.orig, r.stopped) = ((d.lr g).orig, (d.lr g).stopped)) : d.RunsOn (d.setLr g r) := by
  refine ⟨.setLr d g r, fun ring => ?_⟩
  by_cases hg : g = ring
  · subst hg
    rw [Dev.lr_setLr, h]
  · rw [Dev.lr_setLr_ne d hg]

/-- A field whose word is neither a count of missing duplicates nor a port's control word. -/
def Field.noDup (f : Field) (i j : Nat) : Prop := ∀ p, p < 128 → Reg.LNK_CNT_DUPMISS_CNT.addr p 0 ≠ f.addr i j ∧ Reg.LNK_PORT_CTRL_ENABLE.addr p 0 ≠ f.addr i j

theorem Dev.RunsOn.wr (d : Dev) {f : Field} (v : Nat) {i j : Nat} (hf : ∀ p, p < 128 → Reg.LNK_PORT_CTRL_ENABLE.addr p 0 ≠ f.addr i j) : d.RunsOn (d.wr f v i j) :=
  (Dev.Beside.wr d f v i j).runsOn (Dev.spares_wr _ _ _ _ _) fun p hp => Dev.rd_wr_ne d f _ v i j p 0 (hf p hp)

theorem Dev.RunsOn.within {d e : Dev} {l : List Field} (h : Dev.Within l d e) (hb : d.Beside e) (he : Reg.LNK_PORT_CTRL_ENABLE.clearOf l = true) : d.RunsOn e :=
  hb.runsOn h.spares fun _ hp => h.rd (Field.has_of hp (by decide)) he

theorem Dev.RunsOn.posts {d e : Dev} (h : d.Posts e) : d.RunsOn e := .within (h.within []) (.posts h) (by decide)

namespace Dev.FramesKept
variable {ring : Nat} {d e x : Dev}

theorem refl (ring : Nat) (d : Dev) : Dev.FramesKept ring d d := ⟨rfl, .refl d, fun _ _ => rfl⟩

theorem trans (h : Dev.FramesKept ring d e) (k : Dev.FramesKept ring e x) : Dev.FramesKept ring d x :=
  ⟨k.written.trans h.written, h.runs.trans k.runs, fun p hp => (k.rd p hp).trans (h.rd p hp)⟩

theorem ite {a b : Dev} {c : Prop} [Decidable c] (ha : Dev.FramesKept ring d a) (hb : Dev.FramesKept ring d b) : Dev.FramesKept ring d (if c then a else b) := by
  split
  · exact ha
  · exact hb

theorem stReq (h : Dev.FramesKept ring d e) : e.stReq = d.stReq := h.runs.rolls.spares.2.1

theorem same (hs : d.Spares e) (hb : d.Beside e) (hr : e.regs = d.regs) : Dev.FramesKept ring d e :=
  ⟨by rw [Dev.lr_congr hb.lnk], hb.runsOn hs fun _ _ => Dev.rd_congr (Dev.word_congr hr _), fun _ _ => Dev.rd_congr (Dev.word_congr hr _)⟩

theorem within {l : List Field} (h : Dev.Within l d e) (hb : d.Beside e) (hc : Reg.LNK_CNT_DUPMISS_CNT.clearOf l = true) (he : Reg.LNK_PORT_CTRL_ENABLE.clearOf l = true) :
    Dev.FramesKept ring d e :=
  ⟨by rw [Dev.lr_congr hb.lnk], .within h hb he, fun _ hp => h.rd (Field.has_of hp (by decide)) hc⟩

theorem posts (k : d.Posts e) : Dev.FramesKept ring d e := within (k.within []) (.posts k) (by decide) (by decide)

theorem raise (d : Dev) {ev : Ev} (inst data : Nat) (hs : ev.sev < 5) : Dev.FramesKept ring d (d.raise ev inst data) := posts (Dev.Posts.raise _ _ _ _ hs)

theorem wr (d : Dev) {f : Field} (v : Nat) {i j : Nat} (hf : f.noDup i j) : Dev.FramesKept ring d (d.wr f v i j) :=
  ⟨by rw [Dev.lr_congr (Dev.wr_lnk _ _ _ _ _)], .wr d v fun p hp => (hf p hp).2, fun p hp => Dev.rd_wr_ne d f _ v i j p 0 (hf p hp).1⟩

theorem setLr (d : Dev) (g : Nat) {r : LRing} (hr : r.written = (d.lr g).written) (ho : (r.orig, r.stopped) = ((d.lr g).orig, (d.lr g).stopped)) :
    Dev.FramesKept ring d (d.setLr g r) := by
  refine ⟨?_, .setLr d g ho, fun p _ => Dev.rd_congr (Dev.word_congr (Dev.setLr_regs _ _ _) _)⟩
  by_cases hg : g = ring
  · subst hg
    rw [Dev.lr_setLr, hr]
  · rw [Dev.lr_setLr_ne d hg]

theorem foldl {β : Type} {f : Dev → β → Dev} (hf : ∀ x b, Dev.FramesKept ring x (f x b)) (l : List β) (d : Dev) : Dev.FramesKept ring d (l.foldl f d) := by
  induction l generalizing d with
  | nil => exact refl ring d
  | cons b l ih => exact (hf d b).trans (ih _)

theorem foldl_fst {α β : Type} {f : Dev × α → β → Dev × α} (hf : ∀ x b, Dev.FramesKept ring x.1 (f x b).1) (l : List β) (x : Dev × α) : Dev.FramesKept ring x.1 (l.foldl f x).1 := by
  induction l generalizing x with
  | nil => exact refl ring x.1
  | cons b l ih => exact (hf x b).trans (ih _)

end Dev.FramesKept

/-- The fields of the sweeper lie past the counts of the ports. -/
theorem Field.noDup_past {f : Field} {i j : Nat} (h : 0x180000 ≤ f.base) : f.noDup i j := fun p hp => by
  have := f.base_le_addr i j
  simp only [Field.addr, Reg.LNK_CNT_DUPMISS_CNT, Reg.LNK_PORT_CTRL_ENABLE] at this ⊢
  omega

/-- The words of a node lie between the counts of two ports. -/
theorem Field.noDup_node {f : Field} {i j : Nat} (hb : 0x100400 ≤ f.base) (hb2 : f.base ≤ 0x100800) (h1 : f.s1 = 0x2000) (h2 : f.s2 = 4) (hj : j < 256) : f.noDup i j := fun p hp => by
  simp only [Field.addr, Reg.LNK_CNT_DUPMISS_CNT, Reg.LNK_PORT_CTRL_ENABLE, h1, h2]
  omega

section
variable (d : Dev) (ring addr : Nat)

theorem Dev.framesKept_views (m v : Nat) : Dev.FramesKept ring d (d.putViews ring addr m v) := by
  unfold Dev.putViews
  extract_lets om ov oc c e f
  have he : Dev.FramesKept ring d e := (((Dev.FramesKept.wr d _ (Field.noDup_past (by decide))).trans (.wr _ _ (Field.noDup_past (by decide)))).trans
    (.wr _ _ (Field.noDup_past (by decide)))).trans (.wr _ _ (Field.noDup_past (by decide)))
  clear_value e
  have hf : e.Posts f := Dev.Posts.ite _ (Dev.Posts.refl e) (Dev.Posts.raise _ _ _ _ (by decide))
  clear_value f
  exact .ite (.refl ring d) (he.trans (.posts (hf.trans (Dev.Posts.produce f _ _ _))))

theorem Dev.framesKept_data (v : Nat) : Dev.FramesKept ring d (d.updData ring addr v) := d.framesKept_views ring addr _ _

theorem Dev.framesKept_mgmt (m : Nat) : Dev.FramesKept ring d (d.updMgmt ring addr m) := d.framesKept_views ring addr _ _

theorem Dev.framesKept_poll : Dev.FramesKept ring d (d.comparePoll ring addr) := by
  unfold Dev.comparePoll
  extract_lets m v d1 d2
  have h1 : Dev.FramesKept ring d d1 := Dev.FramesKept.wr d 0 (Field.noDup_past (by decide))
  have h2 : Dev.FramesKept ring d d2 := Dev.FramesKept.wr d _ (Field.noDup_past (by decide))
  refine .ite (.ite ((h1.trans (Dev.FramesKept.wr d1 0 (Field.noDup_past (by decide)))).trans (.raise _ _ _ (by decide))) h1) (.ite ?_ h2)
  exact (h2.trans (Dev.FramesKept.wr d2 1 (Field.noDup_past (by decide)))).trans (.raise _ _ _ (by decide))

theorem Dev.framesKept_emax (v : Nat) : Dev.FramesKept ring d (d.emaxGot ring addr v) := by
  unfold Dev.emaxGot
  extract_lets r d1 src
  have h1 : Dev.FramesKept ring d d1 := Dev.FramesKept.setLr d ring rfl rfl
  have h2 : Dev.FramesKept ring d1 { d1 with lnk := { src with emaxRead := max src.emaxRead v } } := ⟨rfl, ⟨⟨⟨rfl, rfl, rfl, rfl, rfl, rfl, rfl, rfl, rfl⟩, rfl, fun _ _ => rfl, rfl, id, List.Subset.refl _⟩, fun _ => rfl⟩, fun _ _ => rfl⟩
  exact .ite (h1.trans h2) (.refl ring d)

theorem Dev.framesKept_report (code which : Nat) : Dev.FramesKept ring d (d.ownReport ring addr code which).1 := by
  unfold Dev.ownReport
  split
  · exact .refl ring d
  · exact .raise d _ _ (by decide)

theorem Dev.framesKept_codes (n width : Nat) : Dev.FramesKept ring d (d.freshCodes n width).1 := by
  unfold Dev.freshCodes
  refine Dev.FramesKept.foldl_fst (ring := ring) (fun x b => ?_) (List.range n) (d, ([] : List Int))
  exact .same ⟨rfl, rfl, rfl, rfl, rfl, rfl, rfl, rfl, rfl⟩ ⟨rfl, rfl, id, List.Subset.refl _⟩ rfl

theorem Dev.framesKept_demote (evidence epoch : Nat) : Dev.FramesKept ring d (d.demote evidence epoch) := by
  unfold Dev.demote
  split
  · exact .refl ring d
  extract_lets src d1 d2 d3 d4 src2 d5 d6 d7 d8
  have h1 : Dev.FramesKept ring d d1 := .same ⟨rfl, rfl, rfl, rfl, rfl, rfl, rfl, rfl, rfl⟩ ⟨rfl, rfl, id, List.Subset.refl _⟩ rfl
  clear_value d1
  have h2 : Dev.FramesKept ring d1 d2 := by
    refine Dev.FramesKept.foldl (fun x g => ?_) _ _
    exact .ite (Dev.FramesKept.setLr x g rfl rfl) (.refl ring x)
  clear_value d2
  have h3 : Dev.FramesKept ring d2 d3 := .ite (.within (Dev.within_setEpoch d2 epoch) (.setEpoch _ _) (by decide) (by decide)) (.refl ring d2)
  clear_value d3
  have h6 : Dev.FramesKept ring d3 d6 := by
    refine .ite ?_ (.refl ring d3)
    have hp : Dev.FramesKept ring d3 d4 := .within ((Dev.Within.wr (l := [Reg.SIN_STATUS_SWITCH_PEND, Reg.SIN_SWITCH_STATUS]) d3 0 (by decide) (by decide)).trans (Dev.Within.wr _ 7 (by decide) (by decide)))
      ((Dev.Beside.wr _ _ _ _ _).trans (.wr _ _ _ _ _)) (by decide) (by decide)
    clear_value d4
    have hq : Dev.FramesKept ring d4 d5 := .same ⟨rfl, rfl, rfl, rfl, rfl, rfl, rfl, rfl, rfl⟩ ⟨rfl, rfl, fun _ => rfl, List.Subset.refl _⟩ rfl
    exact (hp.trans hq).trans (.raise d5 _ _ (by decide))
  clear_value d6
  have h7 : Dev.FramesKept ring d6 d7 := by
    have hr : ∀ r, Dev.FramesKept ring d6 (d6.setRole r) := fun r => .within (Dev.within_setRole d6 r) (.setRole d6 r) (by decide) (by decide)
    refine .ite ((hr _).trans (.within (Dev.within_join _ 1) (.join _ 1) (by decide) (by decide))) (hr _)
  clear_value d7
  have h8 : Dev.FramesKept ring d7 d8 := .within (Dev.Within.wr (l := [Reg.SIN_COUNT_DEMOTIONS]) d7 _ (by decide) (by decide)) (.wr _ _ _ _ _) (by decide) (by decide)
  exact (((((h1.trans h2).trans h3).trans h6).trans h7).trans h8).trans (.raise d8 _ _ (by decide))

theorem Dev.framesKept_sn (n : SNode) : Dev.FramesKept ring d (d.setSn ring addr n) :=
  .same ⟨rfl, rfl, rfl, rfl, rfl, rfl, rfl, rfl, rfl⟩ ⟨rfl, rfl, id, List.Subset.refl _⟩ rfl

theorem Dev.framesKept_status (b : List Byte) (ha : addr < 256) : Dev.FramesKept ring d (d.statusSeen ring addr b) := by
  unfold Dev.statusSeen
  extract_lets emax sfl d1 d2 n
  have h1 : Dev.FramesKept ring d d1 :=
    (Dev.FramesKept.wr d _ (Field.noDup_node (by decide) (by decide) rfl rfl ha)).trans (Dev.FramesKept.wr _ _ (Field.noDup_node (by decide) (by decide) rfl rfl ha))
  clear_value d1
  have h2 : Dev.FramesKept ring d1 d2 := .ite ((Dev.FramesKept.raise d1 _ _ (by decide)).trans (Dev.framesKept_demote _ ring 3 emax)) (.refl ring d1)
  clear_value d2
  have h3 := d2.framesKept_sn ring addr { n with estOn := false }
  exact (h1.trans h2).trans (.ite (h3.trans (Dev.FramesKept.wr _ 0 (Field.noDup_node (by decide) (by decide) rfl rfl ha))) (.refl ring d2))

end

end Sys2Proof.Machine
end

section
/-!
PROOFS. Proofs/HeldFrames.lean: the items of a frame, its hold deadline, and the statement on the frames of nodes (R122, R132, R133).
-/
namespace Sys2Proof.Machine

/-! ### Writing the items of a frame -/

section
variable (d : Dev) (ring cyc addr : Nat) (fr : Option (List Byte)) (dup : Bool)

theorem Dev.framesKept_produce (source stream : Nat) (u : QUnit) : Dev.FramesKept ring d (d.produce source stream u) := .posts (Dev.Posts.produce d source stream u)

/-- Codes that are open where no last ones are kept (R133). -/
theorem Dev.framesKept_open {α : Type} {c : Prop} [Decidable c] {b : α} {f : Dev × α} (hf : Dev.FramesKept ring d f.1) : Dev.FramesKept ring d (if c then (d, b) else f).1 := by
  split
  · exact .refl ring d
  · exact hf

theorem Dev.framesKept_cells : Dev.FramesKept ring d (d.putCells ring cyc addr fr dup) := by
  unfold Dev.putCells
  split
  · exact .refl ring d
  dsimp -zeta only
  extract_lets r slate bad old r2 e items
  have he : Dev.FramesKept ring d e := by
    refine .ite ?_ (.trans ?_ (.setLr _ ring rfl rfl))
    all_goals
      split
      · exact .refl ring d
      · exact d.framesKept_open ring (d.framesKept_codes ring 16 16)
  exact he.trans (e.framesKept_produce ring _ _ _)

theorem Dev.framesKept_currents : Dev.FramesKept ring d (d.putCurrents ring cyc addr fr dup) := by
  unfold Dev.putCurrents
  dsimp -zeta only
  extract_lets r slate bad r2 e items
  have he : Dev.FramesKept ring d e := by
    refine .ite ?_ (.trans ?_ (.setLr _ ring rfl rfl))
    all_goals
      split
      · exact .refl ring d
      · exact d.framesKept_open ring (d.framesKept_codes ring 16 24)
  exact he.trans (e.framesKept_produce ring _ _ _)

theorem Dev.framesKept_temps : Dev.FramesKept ring d (d.putTemps ring cyc addr fr dup) := by
  unfold Dev.putTemps
  split
  · exact .refl ring d
  refine .ite (.refl ring d) ?_
  dsimp -zeta only
  extract_lets r slate bad r2 e items
  have he : Dev.FramesKept ring d e := by
    refine .ite ?_ (.trans ?_ (.setLr _ ring rfl rfl))
    all_goals
      split
      · exact .refl ring d
      · exact d.framesKept_open ring (d.framesKept_codes ring 8 16)
  exact he.trans (e.framesKept_produce ring _ _ _)

theorem Dev.framesKept_charge : Dev.FramesKept ring d (d.putCharge ring cyc addr fr dup) := by
  unfold Dev.putCharge
  dsimp -zeta only
  extract_lets r bad v r2 e
  have he : Dev.FramesKept ring d e := by
    refine .ite ?_ (.trans ?_ (.setLr _ ring rfl rfl))
    all_goals
      split
      · exact .refl ring d
      · exact d.framesKept_open ring (.same ⟨rfl, rfl, rfl, rfl, rfl, rfl, rfl, rfl, rfl⟩ ⟨rfl, rfl, id, List.Subset.refl _⟩ rfl)
  exact he.trans (e.framesKept_produce ring _ _ _)

/-! ### Delivered and missed frames -/

/-- A frame marked as written; counts as before, and the rings run on. -/
structure Dev.Written (ring : Nat) (x : Nat × Nat × Nat) (d e : Dev) : Prop where
  written : x ∈ (e.lr ring).written
  runs : d.RunsOn e
  rd : ∀ p, p < 128 → e.rd Reg.LNK_CNT_DUPMISS_CNT p = d.rd Reg.LNK_CNT_DUPMISS_CNT p

theorem Dev.Written.kept {ring : Nat} {x : Nat × Nat × Nat} {d e f : Dev} (h : Dev.Written ring x d e) (k : Dev.FramesKept ring e f) : Dev.Written ring x d f :=
  ⟨k.written ▸ h.written, h.runs.trans k.runs, fun p hp => (k.rd p hp).trans (h.rd p hp)⟩

theorem Dev.FramesKept.written_after {ring : Nat} {x : Nat × Nat × Nat} {d e f : Dev} (k : Dev.FramesKept ring d e) (h : Dev.Written ring x e f) : Dev.Written ring x d f :=
  ⟨h.written, k.runs.trans h.runs, fun p hp => (h.rd p hp).trans (k.rd p hp)⟩

theorem Dev.markWritten_written (nt : Nat) : Dev.Written ring (cyc, addr, nt) d (d.markWritten ring cyc addr nt) := by
  unfold Dev.markWritten
  refine ⟨?_, .setLr d ring rfl, fun p _ => Dev.rd_congr (Dev.word_congr (Dev.setLr_regs _ _ _) _)⟩
  dsimp only
  rw [Dev.lr_setLr]
  exact List.mem_cons_self

theorem Dev.framesKept_missClear : Dev.FramesKept ring d (d.setLr ring { d.lr ring with miss := (d.lr ring).miss.del addr }) := .setLr d ring rfl rfl

/-- Writing the items of a frame marks it as written. -/
theorem Dev.deliver_written (nt : Nat) (b : List Byte) (ha : addr < 256) : Dev.Written ring (cyc, addr, nt) d (d.deliver ring cyc addr nt b dup) := by
  have h := d.markWritten_written ring cyc addr nt
  unfold Dev.deliver
  dsimp -zeta only
  extract_lets m slate m1 m2 hdr r m3 m4 hdr2 m5 r2 m6
  replace h : Dev.Written ring (cyc, addr, nt) d m := h
  clear_value m
  split
  · exact h.kept (((m.framesKept_status ring addr b ha).trans (m1.framesKept_temps ring cyc addr _ dup)).trans (m2.framesKept_produce ring _ _ _))
  · have h1 : Dev.FramesKept ring m m3 := .setLr m ring rfl rfl
    exact h.kept ((h1.trans (m3.framesKept_emax ring addr _)).trans (m4.framesKept_produce ring _ _ _))
  · have h1 : Dev.FramesKept ring m m5 := (m.framesKept_report ring addr _ 0).trans (Dev.framesKept_data _ ring addr _)
    clear_value m5
    have h2 : Dev.FramesKept ring m5 m6 := .setLr m5 ring rfl rfl
    exact h.kept (h1.trans (.ite (m5.framesKept_charge ring cyc addr _ dup) (h2.trans (.ite (m6.framesKept_cells ring cyc addr _ dup) (m6.framesKept_currents ring cyc addr _ dup)))))

/-- A frame of which no copy came is marked as written too. -/
theorem Dev.missed_written (nt : Nat) : Dev.Written ring (cyc, addr, nt) d (d.missed ring cyc addr nt) := by
  have h := d.markWritten_written ring cyc addr nt
  unfold Dev.missed
  extract_lets m n m1 m2 m3 r m4 m5 k m6 m7
  replace h : Dev.Written ring (cyc, addr, nt) d m := h
  clear_value m
  split
  · have h1 : Dev.FramesKept ring m m1 := m.framesKept_sn ring addr _
    have h2 : Dev.FramesKept ring m1 m2 := .ite (m1.framesKept_mgmt ring addr 3) (.refl ring m1)
    exact h.kept (((h1.trans h2).trans (m2.framesKept_poll ring addr)).trans (m3.framesKept_temps ring cyc addr none false))
  · split
    · exact h
    · have h1 : Dev.FramesKept ring m m4 := .setLr m ring rfl rfl
      exact h.kept ((h1.trans (m4.framesKept_emax ring addr 0)).trans (m5.framesKept_produce ring _ _ _))
  · exact h.kept (m.framesKept_charge ring cyc addr none false)
  · have h1 : Dev.FramesKept ring m m6 := .setLr m ring rfl rfl
    have h2 : Dev.FramesKept ring m6 m7 := .ite ((m6.framesKept_data ring addr 3).trans (.raise _ _ _ (by decide))) (.refl ring m6)
    exact h.kept ((h1.trans h2).trans (.ite (m7.framesKept_cells ring cyc addr none false) (m7.framesKept_currents ring cyc addr none false)))

theorem Dev.Beside.peerSend (d : Dev) (l : List Nat) (ty : Nat) (pay : List Byte) : d.Beside (d.peerSend l ty pay) := by
  refine ⟨Dev.peerSend_lnk _ _ _ _, Dev.peerSend_gaf _ _ _ _, fun hs => by rw [Dev.peerSend_sin, hs], ?_⟩
  rw [Dev.peerSend_out]
  exact List.subset_append_left _ _

/-- Telling the partner of an acceptance leaves the frames of the ring. -/
theorem Dev.framesKept_accept (nt : Nat) (b : Option (List Byte)) (rots : Nat) : Dev.FramesKept ring d (d.accept ring cyc addr nt b rots) := by
  have hsend : ∀ (x : Dev) (l : List Nat) (ty : Nat) (pay : List Byte), Dev.FramesKept ring x (x.peerSend l ty pay) := fun x l ty pay =>
    .same (Dev.spares_peerSend x l ty pay) (.peerSend x l ty pay) (Dev.peerSend_regs x l ty pay)
  unfold Dev.accept
  refine .ite (.refl ring d) ?_
  extract_lets pos crc away follows m
  have h1 : Dev.FramesKept ring d m := hsend d _ _ _
  clear_value m
  split
  · exact h1
  · extract_lets full m1
    have h2 : Dev.FramesKept ring m m1 := .same ⟨rfl, rfl, rfl, rfl, rfl, rfl, rfl, rfl, rfl⟩ ⟨rfl, rfl, id, List.Subset.refl _⟩ rfl
    exact (h1.trans h2).trans (.ite (hsend m1 _ _ _) (.refl ring m1))

theorem Dev.framesKept_rot (rot : Nat) (on : Bool) (ha : addr < 256) : Dev.FramesKept ring d (d.noteRot ring addr rot on) := by
  unfold Dev.noteRot
  split
  · exact .wr d _ (Field.noDup_node (by decide) (by decide) rfl rfl ha)
  · exact .wr d _ (Field.noDup_node (by decide) (by decide) rfl rfl ha)

end

/-! ### The hold deadline (R132) -/

theorem Reel.node_lt {r : Reel} {ring addr : Nat} (h : (r.node ring addr).isSome = true) : addr < 256 := by
  obtain ⟨n, hn⟩ := Option.isSome_iff_exists.1 h
  unfold Reel.node Reel.pick at hn
  have hp := List.find?_some hn
  simp only [Bool.and_eq_true, beq_iff_eq] at hp
  obtain ⟨-, ha⟩ := hp
  rw [← ha]
  exact n.ndAddr_lt

theorem written_any {l : List (Nat × Nat × Nat)} {x : Nat × Nat × Nat} (h : x ∉ l) : l.any (fun y => y == x) = false := by
  rw [List.any_eq_false]
  intro y hy he
  exact h (beq_iff_eq.1 he ▸ hy)

section
variable {d : Dev} {ring cyc addr nt : Nat} {h : Held}

/-- A frame of which one copy is held, at its deadline. -/
theorem Dev.holdDeadline_copy (hp : h.port < 128) (ho : (d.lr ring).orig = true) (hw : (cyc, addr, nt) ∉ (d.lr ring).written) (hn : (d.rl.node ring addr).isSome = true)
    (hh : (d.lr ring).held.find? (fun x => x.cyc == cyc && x.addr == addr && x.ntype == nt) = some h) :
    Dev.Written ring (cyc, addr, nt) (d.bump Reg.LNK_CNT_DUPMISS_CNT 1 h.port) (d.holdDeadline ring cyc addr nt) := by
  have ha := Reel.node_lt hn
  unfold Dev.holdDeadline
  extract_lets r d1
  rw [if_neg (by simp [r, ho, written_any hw, ← Option.not_isSome, hn]), show r.held.find? _ = _ from hh]
  dsimp -zeta only
  extract_lets d2 d3
  exact ((d2.framesKept_rot ring addr _ false ha).trans (d3.framesKept_accept ring cyc addr nt _ _)).written_after (Dev.deliver_written _ ring cyc addr true nt h.bytes ha)

theorem Dev.holdDeadline_none (ho : (d.lr ring).orig = true) (hw : (cyc, addr, nt) ∉ (d.lr ring).written) (hn : (d.rl.node ring addr).isSome = true)
    (hh : (d.lr ring).held.find? (fun x => x.cyc == cyc && x.addr == addr && x.ntype == nt) = none) :
    Dev.Written ring (cyc, addr, nt) d (d.holdDeadline ring cyc addr nt) := by
  have ha := Reel.node_lt hn
  unfold Dev.holdDeadline
  extract_lets r d1
  rw [if_neg (by simp [r, ho, written_any hw, ← Option.not_isSome, hn]), show r.held.find? _ = _ from hh]
  exact (((d.framesKept_rot ring addr 0 false ha).trans (Dev.framesKept_rot _ ring addr 1 false ha)).trans (d1.framesKept_accept ring cyc addr nt none 0)).written_after (Dev.missed_written _ ring cyc addr nt)

end

section
variable {s : State} {t cyc addr nt : Nat} {ring : Fin 64} {h : Held}

theorem ends_holdDeadline_copy (hp : h.port < 128) (ho : (s.dev.lr ring).orig = true) (hw : (cyc, addr, nt) ∉ (s.dev.lr ring).written) (hn : (s.dev.rl.node ring addr).isSome = true)
    (hh : (s.dev.lr ring).held.find? (fun x => x.cyc == cyc && x.addr == addr && x.ntype == nt) = some h) :
    Ends (.frameHoldDeadline t ring cyc addr nt) s fun d => (cyc, addr, nt) ∈ (d.lr ring).written ∧
      d.rd Reg.LNK_CNT_DUPMISS_CNT h.port = min (s.dev.rd Reg.LNK_CNT_DUPMISS_CNT h.port + 1) (2 ^ 32 - 1) := by
  refine ends_of (exec_frameHoldDeadline t ring cyc addr nt s) ?_
  obtain ⟨hm, hruns, hr⟩ := Dev.holdDeadline_copy (d := begin_ t s.dev) hp ho hw hn hh
  have hst := hruns.rolls.spares.2.1.trans (Dev.wr_stReq _ _ _ _ _)
  refine ⟨?_, ?_⟩
  · rw [Dev.lr_congr (settle_lnk _ _ hst)]
    exact hm
  · rw [settle_rd_clear _ _ hst _ _ _ (Field.has_of hp (by decide)) (by decide), hr _ hp]
    exact Dev.rd_bump_count (begin_ t s.dev) h.port rfl rfl

theorem ends_holdDeadline_none (ho : (s.dev.lr ring).orig = true) (hw : (cyc, addr, nt) ∉ (s.dev.lr ring).written) (hn : (s.dev.rl.node ring addr).isSome = true)
    (hh : (s.dev.lr ring).held.find? (fun x => x.cyc == cyc && x.addr == addr && x.ntype == nt) = none) :
    Ends (.frameHoldDeadline t ring cyc addr nt) s fun d => (cyc, addr, nt) ∈ (d.lr ring).written := by
  refine ends_of (exec_frameHoldDeadline t ring cyc addr nt s) ?_
  obtain ⟨hm, hruns, -⟩ := Dev.holdDeadline_none (d := begin_ t s.dev) ho hw hn hh
  have hs := hruns.rolls.spares.2.1
  rw [Dev.lr_congr (settle_lnk _ _ hs)]
  exact hm

end

/-! ### The first copy of a frame (R122, R133) -/

section
variable {d : Dev} {port : Nat} {frame : List Byte}

theorem Dev.refuseFrame_counted (hp : port < 128) :
    (d.refuseFrame port false).lr (port / 2) = d.lr (port / 2) ∧ (d.refuseFrame port false).stReq = d.stReq ∧
    (d.refuseFrame port false).rd Reg.LNK_PORT_ERR_CRC port = 1 ∧ (d.refuseFrame port false).rd Reg.LNK_CNT_CRC_CNT port = min (d.rd Reg.LNK_CNT_CRC_CNT port + 1) (2 ^ 32 - 1) ∧
    Dev.Touches [Reg.LNK_CNT_CRC_CNT.addr port 0, Reg.LNK_PORT_ERR_CRC.addr port 0] d (d.refuseFrame port false) := by
  unfold Dev.refuseFrame
  rw [if_neg (by decide)]
  extract_lets d1 old src d2
  have hl1 : d1.lnk = d.lnk := (Dev.set1_lnk _ _ _ _).trans (Dev.wr_lnk _ _ _ _ _)
  have hs1 : d1.stReq = d.stReq := (Dev.set1_stReq _ _ _ _).trans (Dev.wr_stReq _ _ _ _ _)
  have he1 : d1.rd Reg.LNK_PORT_ERR_CRC port = 1 := Dev.rd_wr_self _ Reg.LNK_PORT_ERR_CRC 1 port 0 (by decide)
  have hc1 : d1.rd Reg.LNK_CNT_CRC_CNT port = min (d.rd Reg.LNK_CNT_CRC_CNT port + 1) (2 ^ 32 - 1) :=
    (Dev.rd_wr_ne _ _ _ _ _ _ _ _ (by simp only [Field.addr, Reg.LNK_CNT_CRC_CNT, Reg.LNK_PORT_ERR_CRC]; omega)).trans (Dev.rd_bump_count d port rfl rfl)
  have ht1 : Dev.Touches [Reg.LNK_CNT_CRC_CNT.addr port 0, Reg.LNK_PORT_ERR_CRC.addr port 0] d d1 :=
    (Dev.Touches.wr d _ port 0 (by simp)).trans (Dev.Touches.wr _ 1 port 0 (by simp))
  clear_value d1
  have h2 : d2.lr (port / 2) = d1.lr (port / 2) ∧ d2.stReq = d1.stReq ∧ d2.regs = d1.regs := ⟨rfl, rfl, rfl⟩
  obtain ⟨hl2, hs2, hr2⟩ := h2
  clear_value d2
  have hpost : d2.Posts (if old.length = 16 then d2.raise Ev.LNK_CRC_RATE port 17 else d2) := .ite _ (.raise _ _ _ _ (by decide)) (.refl d2)
  generalize (if old.length = 16 then d2.raise Ev.LNK_CRC_RATE port 17 else d2) = e at hpost
  have hrd : ∀ f : Field, f.has port 0 = true → f.clearOf [] = true → e.rd f port = d1.rd f port := fun f hf hc => (hpost.rd hf hc).trans (Dev.rd_congr (Dev.word_congr hr2 _))
  refine ⟨?_, hpost.stReq.trans (hs2.trans hs1), (hrd _ (Field.has_of hp (by decide)) (by decide)).trans he1, (hrd _ (Field.has_of hp (by decide)) (by decide)).trans hc1,
    (ht1.trans (Dev.Touches.of_regs hr2)).trans (hpost.touches _)⟩
  rw [Dev.lr_congr hpost.lnk, hl2, Dev.lr_congr hl1]

/-- The first good copy of a scheduled frame. -/
theorem Dev.nodeFrame_first {cyc pos : Nat} (hp : port < 128) (hpr : d.rl.present (port / 2) = true) (hr : bitAt (d.lr (port / 2)).stopped (port % 2) = false)
    (hc : crcOk frame = true) (hl : nfLenOk frame = true) (hs : d.scheduled (port / 2) cyc pos = some (nfAddr frame, nfType frame))
    (hw : (cyc, nfAddr frame, nfType frame) ∉ (d.lr (port / 2)).written)
    (hh : ∀ x ∈ (d.lr (port / 2)).held, ¬ (x.cyc = cyc ∧ x.addr = nfAddr frame ∧ x.ntype = nfType frame)) :
    ((d.nodeFrame port cyc pos false frame).lr (port / 2)).held =
        (d.lr (port / 2)).held ++ [{ cyc := cyc, addr := nfAddr frame, ntype := nfType frame, bytes := frame.take (frame.length - 4), port := port, both := false }] ∧
      (d.nodeFrame port cyc pos false frame).stReq = d.stReq ∧
      (d.nodeFrame port cyc pos false frame).rd Reg.LNK_CNT_FRAMES_CNT port = min (d.rd Reg.LNK_CNT_FRAMES_CNT port + 1) (2 ^ 32 - 1) := by
  have ha : nfAddr frame < 128 := Nat.mod_lt _ (by decide)
  unfold Dev.nodeFrame
  extract_lets ring addr nt d1 d2 b r
  rw [if_neg (by simp [ring, hpr, hr]), if_neg (by decide), if_neg (by simp [hc, hl]), show d.scheduled ring cyc pos = _ from hs]
  dsimp -zeta only
  rw [if_neg (by simp [addr, nt])]
  have hl2 : d2.lnk = d.lnk := by
    simp only [d2, Dev.noteRot]
    exact (Dev.wr_lnk _ _ _ _ _).trans (Dev.wr_lnk _ _ _ _ _)
  have hs2 : d2.stReq = d.stReq := by
    simp only [d2, Dev.noteRot]
    exact (Dev.wr_stReq _ _ _ _ _).trans (Dev.wr_stReq _ _ _ _ _)
  have hr2 : d2.rd Reg.LNK_CNT_FRAMES_CNT port = min (d.rd Reg.LNK_CNT_FRAMES_CNT port + 1) (2 ^ 32 - 1) := by
    refine Eq.trans ?_ (Dev.rd_bump_count d port rfl rfl)
    simp only [d2, Dev.noteRot]
    refine Dev.rd_wr_ne _ _ _ _ _ _ _ _ ?_
    simp only [addr] at ha ⊢
    split <;> simp only [Field.addr, Reg.LNK_CNT_FRAMES_CNT, Reg.LNK_NODE_LINK_ROT0, Reg.LNK_NODE_LINK_ROT1] <;> omega
  have hr : r = d.lr ring := Dev.lr_congr hl2 ring
  clear_value d2 r
  rw [hr, if_neg (by rw [written_any hw]; decide), List.find?_eq_none.2 (fun x hx hb => hh x hx (by simpa [and_assoc] using hb))]
  refine ⟨?_, (Dev.setLr_stReq _ _ _).trans hs2, (Dev.rd_congr (Dev.word_congr (Dev.setLr_regs _ _ _) _)).trans hr2⟩
  rw [Dev.lr_setLr]

theorem Dev.nodeFrame_bad {cyc pos : Nat} (hpr : d.rl.present (port / 2) = true) (hr : bitAt (d.lr (port / 2)).stopped (port % 2) = false)
    (hb : crcOk frame = false ∨ nfLenOk frame = false) : d.nodeFrame port cyc pos false frame = d.refuseFrame port false := by
  unfold Dev.nodeFrame
  extract_lets ring
  rw [if_neg (by simp [ring, hpr, hr]), if_neg (by decide), if_pos]
  rcases hb with hb | hb <;> simp [hb]

end

section
variable {s : State} {t cyc pos : Nat} {port : Fin 128} {frame : List Byte}

theorem ends_nodeFrame_first (hpr : s.dev.rl.present (port.val / 2) = true) (hr : bitAt (s.dev.lr (port.val / 2)).stopped (port % 2) = false)
    (hc : crcOk frame = true) (hl : nfLenOk frame = true) (hs : s.dev.scheduled (port.val / 2) cyc pos = some (nfAddr frame, nfType frame))
    (hw : (cyc, nfAddr frame, nfType frame) ∉ (s.dev.lr (port.val / 2)).written)
    (hh : ∀ x ∈ (s.dev.lr (port.val / 2)).held, ¬ (x.cyc = cyc ∧ x.addr = nfAddr frame ∧ x.ntype = nfType frame)) :
    Ends (.nodeFrameReceive t port cyc pos false frame) s fun d =>
      (d.lr (port.val / 2)).held =
        (s.dev.lr (port.val / 2)).held ++ [{ cyc := cyc, addr := nfAddr frame, ntype := nfType frame, bytes := frame.take (frame.length - 4), port := port, both := false }] ∧
      d.rd Reg.LNK_CNT_FRAMES_CNT port = min (s.dev.rd Reg.LNK_CNT_FRAMES_CNT port + 1) (2 ^ 32 - 1) := by
  refine ends_of (exec_nodeFrameReceive t port cyc pos false frame s) ?_
  obtain ⟨hheld, hst, hrd⟩ := Dev.nodeFrame_first (d := begin_ t s.dev) port.isLt hpr hr hc hl hs hw hh
  refine ⟨?_, ?_⟩
  · rw [Dev.lr_congr (settle_lnk _ _ hst)]
    exact hheld
  · rw [settle_rd_clear _ _ hst _ _ _ (Field.has_of port.isLt (by decide)) (by decide), hrd]
    rfl

theorem ends_nodeFrame_bad (hpr : s.dev.rl.present (port.val / 2) = true) (hr : bitAt (s.dev.lr (port.val / 2)).stopped (port % 2) = false) (hb : crcOk frame = false ∨ nfLenOk frame = false) :
    Ends (.nodeFrameReceive t port cyc pos false frame) s fun d =>
      (d.lr (port.val / 2)).held = (s.dev.lr (port.val / 2)).held ∧ d.rd Reg.LNK_PORT_ERR_CRC port = 1 ∧
      d.rd Reg.LNK_CNT_CRC_CNT port = min (s.dev.rd Reg.LNK_CNT_CRC_CNT port + 1) (2 ^ 32 - 1) ∧
      s.dev.OnlyWrites d [Reg.LNK_CNT_CRC_CNT.addr port 0, Reg.LNK_PORT_ERR_CRC.addr port 0] := by
  refine ends_of ((exec_nodeFrameReceive t port cyc pos false frame s).trans rfl) ?_
  obtain ⟨hlr, hst, herr, hcnt, htouch⟩ := Dev.refuseFrame_counted (d := begin_ t s.dev) port.isLt
  rw [Dev.nodeFrame_bad (d := begin_ t s.dev) hpr hr hb]
  refine ⟨?_, ?_, ?_, htouch.settle hst⟩
  · rw [Dev.lr_congr (settle_lnk _ _ hst), hlr]
    rfl
  · rw [settle_rd_clear _ _ hst _ _ _ (Field.has_of port.isLt (by decide)) (by decide), herr]
  · rw [settle_rd_clear _ _ hst _ _ _ (Field.has_of port.isLt (by decide)) (by decide), hcnt]
    rfl

end

/-- Settles O14: the first good copy by the schedule it meets, a bad one by its check, the deadline by what marks the frame as written. -/
theorem nodeFramesAreAcceptedOnce : Obligations.NodeFramesAreAcceptedOnce := by
  unfold Obligations.NodeFramesAreAcceptedOnce
  intro s t cyc pos addr nt port ring frame h g
  exact ⟨fun hpr hr => ⟨ends_nodeFrame_first hpr hr, ends_nodeFrame_bad hpr hr⟩,
    fun ho hw hn => ⟨fun hh hp => ends_holdDeadline_copy hp ho hw hn hh, ends_holdDeadline_none ho hw hn⟩⟩

end Sys2Proof.Machine
end

section
/-!
PROOFS. Proofs/WrapStrings.lean: the strings of a Wrap (R464, R465).
-/
namespace Sys2Proof.Machine

/-! ### One string -/

/-- A string of the Wrap replaced. -/
def Dev.putString (d : Dev) (w : WrapRun) (str : Nat) (x : WString) : Dev := { d with gaf := { d.gaf with wrap := some (w.put str x) } }

/-- A string of the Wrap as it stands after a command. -/
def Dev.StringIs (str : Nat) (y : WString) (d : Dev) : Prop := ∃ r, d.gaf.wrap = some r ∧ r.strings.find str = some y

theorem Dev.putString_is (d : Dev) (w : WrapRun) (str : Nat) (x : WString) : (d.putString w str x).StringIs str x := ⟨_, rfl, Tbl.find_ins_self _ _ _⟩

/-- The registers show the Wrap; its strings stand. -/
theorem Dev.wrapShow_strings {d : Dev} {w : WrapRun} (hw : d.gaf.wrap = some w) : ∃ r, d.wrapShow.gaf.wrap = some r ∧ r.strings = w.strings := by
  unfold Dev.wrapShow
  rw [hw]
  dsimp -zeta only
  extract_lets all done st d1 d2 d3
  have h1 : d1.gaf = d.gaf := (Dev.wr_gaf _ _ _ _ _).trans (Dev.wr_gaf d _ _ _ _)
  have h2 : d2.gaf = d.gaf := by
    simp only [d2]
    split
    · exact h1
    · exact (Dev.wr_gaf _ _ _ _ _).trans h1
  split
  · exact ⟨_, rfl, rfl⟩
  · exact ⟨w, by rw [h2, hw], rfl⟩

theorem Dev.wrapShow_stReq (d : Dev) : d.wrapShow.stReq = d.stReq := by
  unfold Dev.wrapShow
  split
  · rfl
  extract_lets all done st d1 d2 d3
  have h1 : d1.stReq = d.stReq := (Dev.wr_stReq _ _ _ _ _).trans (Dev.wr_stReq d _ _ _ _)
  have h2 : d2.stReq = d.stReq := by
    simp only [d2]
    split
    · exact h1
    · exact (Dev.wr_stReq _ _ _ _ _).trans h1
  split
  · exact h2
  · exact h2

theorem Dev.StringIs.shown {d : Dev} {str : Nat} {y : WString} (h : d.StringIs str y) : d.wrapShow.StringIs str y := by
  obtain ⟨w, hw, hf⟩ := h
  obtain ⟨r, hr, hs⟩ := Dev.wrapShow_strings hw
  exact ⟨r, hr, by rw [hs, hf]⟩

theorem Dev.StringIs.settle {o d : Dev} {str : Nat} {y : WString} (h : d.StringIs str y) (hst : d.stReq = []) : (settle o d).StringIs str y := by
  obtain ⟨r, hr, hf⟩ := h
  exact ⟨r, by rw [settle_gaf o d hst, hr], hf⟩

/-- A string that leaves OPEN. -/
theorem Dev.wrapDone_is (d : Dev) (w : WrapRun) (str : Nat) (x : WString) (why : Option Nat) :
    (d.wrapDone w str x why).StringIs str { x with st := .done, unconf := why.isSome } ∧ (d.wrapDone w str x why).stReq = d.stReq := by
  have hp := d.putString_is w str { x with st := .done, unconf := why.isSome }
  unfold Dev.wrapDone
  extract_lets src e
  replace hp : e.StringIs str { x with st := .done, unconf := why.isSome } := hp
  have hst : e.stReq = d.stReq := rfl
  clear_value e
  split
  · next r =>
    obtain ⟨y, hy, hf⟩ := hp
    exact ⟨⟨y, by rw [Dev.raise_gaf, hy], hf⟩, (Dev.stReq_raise _ _ _ _ (by decide)).trans hst⟩
  · exact ⟨hp, hst⟩

/-! ### The steps of Table 18.5 -/

/-- The current of a string has been at zero since an instant. -/
def Dev.Calm (d : Dev) (str since : Nat) : Prop := since ≤ (d.ts str).curAt ∧ (d.ts str).curOk = true ∧ (d.ts str).cur ≤ max 1 (d.rd Reg.GAF_WRAP_CFG_ZERO_I) * 100

section
variable {d : Dev} {w : WrapRun} {x : WString} {str : Nat} (hw : d.gaf.wrap = some w) (hx : w.strings.find str = some x)
include hw hx

theorem Dev.wrapStep_ramp_open (hs : x.st = .ramp) (hp : d.permitted str = false) : d.wrapStep str = d.putString w str { x with st := .opening } := by
  unfold Dev.wrapStep
  simp only [hw, hx, hs, hp]
  rfl

theorem Dev.wrapStep_ramp_held (hs : x.st = .ramp) (hp : d.permitted str = true) (hc : d.Calm str w.start) : d.wrapStep str = d.putString w str { x with st := .held, zeroed := true } := by
  obtain ⟨h1, h2, h3⟩ := hc
  unfold Dev.wrapStep
  simp only [hw, hx, hs, hp, h1, h2, h3]
  rfl

theorem Dev.wrapStep_held_open (hs : x.st = .held) (hp : d.permitted str = false) : d.wrapStep str = d.putString w str { x with st := .opening } := by
  unfold Dev.wrapStep
  simp only [hw, hx, hs, hp]
  rfl

theorem Dev.wrapStep_held_zero {o : Nat} (hs : x.st = .held) (hp : d.permitted str = true) (ho : x.hold = some o) (hc : d.Calm str (o + 2000000)) :
    d.wrapStep str = d.putString w str { x with st := .opening, zeroed := true } := by
  obtain ⟨h1, h2, h3⟩ := hc
  unfold Dev.wrapStep
  simp only [hw, hx, hs, hp, ho, h1, h2, h3]
  rfl

theorem Dev.wrapStep_missing (hs : x.st = .opening) (hm : bitAt (d.rd Reg.TRW_STR_CAUSE_CAUSES str) cMissing = true) : d.wrapStep str = d.wrapDone w str x (some 1) := by
  unfold Dev.wrapStep
  simp only [hw, hx, hs, hm]
  rfl

theorem Dev.wrapStep_confirmed {i o : Nat} (hs : x.st = .opening) (hm : bitAt (d.rd Reg.TRW_STR_CAUSE_CAUSES str) cMissing = false) (ho : x.openAt = some (i, o))
    (h2 : i + 2000000 ≤ (d.ts str).statAt) (hc : d.rd Reg.TRW_STR_STAT_CONTACT str % 4 = 0) : d.wrapStep str = d.wrapDone w str x none := by
  unfold Dev.wrapStep
  simp only [hw, hx, hs, hm, ho]
  rw [if_pos (And.intro h2 hc)]
  rfl

theorem Dev.wrapOpenOut_late {i o : Nat} (hs : x.st = .opening) (ho : x.openAt = some (i, o)) (hl : o + 100000000 ≤ d.own) :
    d.wrapOpenOut str = (d.wrapDone w str x (some 0)).wrapShow := by
  unfold Dev.wrapOpenOut
  simp only [hw, hx, hs, ho]
  exact if_pos hl

end

section
variable {s : State} {t : Nat} {str : Fin 256} {x y : WString} {w : WrapRun}

theorem ends_wrapStep {e : Dev} (he : (begin_ t s.dev).wrapStep str = e) (hy : e.StringIs str y) (hst : e.stReq = []) : Ends (.wrapStringStep t str) s (Dev.StringIs str y) := by
  refine ends_of (exec_wrapStringStep t str s) ?_
  rw [he]
  exact hy.shown.settle ((Dev.wrapShow_stReq e).trans hst)

theorem ends_wrapOpenTimeout {i o : Nat} (hw : s.dev.gaf.wrap = some w) (hx : w.strings.find str = some x) (hs : x.st = .opening) (ho : x.openAt = some (i, o)) (hl : o + 100000000 ≤ s.dev.ownAt t) :
    Ends (.wrapOpenTimeout t str) s (Dev.StringIs str { x with st := .done, unconf := true }) := by
  refine ends_of (exec_wrapOpenTimeout t str s) ?_
  obtain ⟨hd, hst⟩ := (begin_ t s.dev).wrapDone_is w str x (some 0)
  rw [Dev.wrapOpenOut_late (d := begin_ t s.dev) hw hx hs ho hl]
  exact hd.shown.settle ((Dev.wrapShow_stReq _).trans hst)

theorem Tbl.find_map {α β : Type} (f : α → β) (l : Tbl α) (k : Nat) : Tbl.find (l.map fun x => (x.1, f x.2)) k = (Tbl.find l k).map f := by
  induction l with
  | nil => rfl
  | cons x l ih =>
    obtain ⟨k', v⟩ := x
    simp only [List.map_cons, Tbl.find]
    split
    · rfl
    · exact ih

/-- The strings still in RAMP, held. -/
def WrapRun.held (w : WrapRun) : WrapRun := { w with strings := w.strings.map fun x => (x.1, if x.2.st == .ramp then { x.2 with st := .held } else x.2) }

theorem Dev.wrapHoldT_due {d : Dev} (hw : d.gaf.wrap = some w) (hl : w.own0 + max 1 (d.rd Reg.GAF_WRAP_CFG_HOLD_T) * 1000000 ≤ d.own) :
    d.wrapHoldT = { d with gaf := { d.gaf with wrap := some w.held } } := by
  unfold Dev.wrapHoldT
  rw [hw]
  dsimp only
  rw [if_neg (Nat.not_lt.2 hl)]
  rfl

theorem WrapRun.held_find (w : WrapRun) (j : Nat) : w.held.strings.find j = (w.strings.find j).map fun y => if y.st = .ramp then { y with st := .held } else y := by
  refine (Tbl.find_map (fun y : WString => if y.st == .ramp then { y with st := .held } else y) w.strings j).trans ?_
  simp only [beq_iff_eq]

theorem ends_wrapHoldT (hw : s.dev.gaf.wrap = some w) (hl : w.own0 + max 1 (s.dev.rd Reg.GAF_WRAP_CFG_HOLD_T) * 1000000 ≤ s.dev.ownAt t) :
    Ends (.wrapHoldT t) s fun d => ∃ r, d.gaf.wrap = some r ∧ ∀ j, r.strings.find j = (w.strings.find j).map fun y => if y.st = .ramp then { y with st := .held } else y := by
  refine ends_of (exec_wrapHoldT t s) ?_
  have he := Dev.wrapHoldT_due (d := begin_ t s.dev) hw hl
  have hg : (begin_ t s.dev).wrapHoldT.gaf.wrap = some w.held := by rw [he]
  have hst : (begin_ t s.dev).wrapHoldT.stReq = [] := by rw [he]; rfl
  generalize (begin_ t s.dev).wrapHoldT = e at hg hst
  obtain ⟨q, hq, hqs⟩ := Dev.wrapShow_strings hg
  refine ⟨q, by rw [settle_gaf _ _ ((Dev.wrapShow_stReq e).trans hst), hq], fun j => ?_⟩
  rw [hqs, w.held_find]

end

end Sys2Proof.Machine
end

section
/-!
PROOFS. Proofs/ImmediateShutdown.lean: the immediate shutdown and the causes of a Wrap (R390, R463, R468).
-/
namespace Sys2Proof.Machine

/-! ### The start of an immediate shutdown -/

/-- Storing an event that announces an immediate shutdown under way asks for no HALT of its own. -/
theorem Dev.stReq_evStore_shutdown (k : Nat) {e : Ev} (realm : Bool) (ts seq inst data : Nat) {d : Dev} (hg : (e == Ev.GAF_IMMEDIATE || e == Ev.GAF_TEMP_SHUTDOWN) = true)
    (hi : d.gaf.immediate.isSome = true) : (Dev.evStore (Dev.raiseF k) e realm ts seq inst data d).stReq = d.stReq := by
  have hc (x : Dev) : (Dev.evCount e x).stReq = x.stReq ∧ (Dev.evCount e x).gaf = x.gaf := by
    unfold Dev.evCount
    split <;> exact ⟨rfl, rfl⟩
  have ht (x : Dev) : (Dev.evToTag e inst data x).stReq = x.stReq ∧ (Dev.evToTag e inst data x).gaf = x.gaf := by
    unfold Dev.evToTag
    split <;> exact ⟨rfl, rfl⟩
  unfold Dev.evStore
  extract_lets ev
  have hxs := Dev.stReq_foldl _ (fun y q => Dev.stReq_evToQueue (Dev.stReq_raiseF k) ts ev y q) (d.evQueues e) d
  have hxg := (Dev.evKeeps_foldl _ (fun y q => Dev.evKeeps_evToQueue (Dev.evKeeps_raiseF k) ts ev y q) (d.evQueues e) d).gaf
  generalize (d.evQueues e).foldl (Dev.evToQueue (Dev.raiseF k) ts ev) d = x at hxs hxg
  have hbs := Dev.stReq_evToBox (Dev.stReq_raiseF k) ts e ev x
  have hbg := (Dev.evKeeps_evToBox (Dev.evKeeps_raiseF k) ts e ev x).gaf
  unfold Dev.evFatal
  rw [if_neg]
  · rw [(hc _).1, (ht _).1, hbs, hxs]
  · rw [(hc _).2, (ht _).2, hbg, hxg, hi, hg]
    exact fun h => absurd h.2 (by decide)

theorem Dev.stReq_raise_shutdown (d : Dev) {e : Ev} (inst data : Nat) (hg : (e == Ev.GAF_IMMEDIATE || e == Ev.GAF_TEMP_SHUTDOWN) = true) (hi : d.gaf.immediate.isSome = true)
    (hm : d.mainOn = true) : (d.raise e inst data).stReq = d.stReq := by
  have hmode : (d.takeSeq e.id).mode = d.mode := rfl
  have hoff : d.mode ≠ .off := by
    intro h
    simp [Dev.mainOn, h, DevState.stateCode] at hm
  have hon : (d.takeSeq e.id).mainOn = true := hm
  unfold Dev.raise Dev.raiseAt
  rw [show 2 * d.qf.qs.length + 6 = (2 * d.qf.qs.length + 5) + 1 from rfl]
  unfold Dev.raiseF
  dsimp only
  rw [if_neg (by rw [hmode]; exact hoff), if_pos hon]
  exact Dev.stReq_evStore_shutdown _ _ _ _ _ _ hg hi

/-- A device at the first step of an immediate shutdown. -/
def Dev.withdrawing (d : Dev) (cause : Nat) : Dev := { d with gaf := { d.gaf with immediate := some (cause, 0, d.cyc) } }.wr Reg.GAF_STATUS_WRAP_STATE 4

theorem Dev.withdrawing_stReq (d : Dev) (cause : Nat) : (d.withdrawing cause).stReq = d.stReq := Dev.wr_stReq _ _ _ _ _

theorem Dev.withdrawing_gaf (d : Dev) (cause : Nat) : (d.withdrawing cause).gaf = { d.gaf with immediate := some (cause, 0, d.cyc) } := Dev.wr_gaf _ _ _ _ _

theorem Dev.withdrawing_shown (d : Dev) (cause : Nat) : (d.withdrawing cause).rd Reg.GAF_STATUS_WRAP_STATE = 4 := Dev.rd_wr_self _ Reg.GAF_STATUS_WRAP_STATE 4 0 0 (by decide)

theorem Dev.immStart_posts {d : Dev} {cause : Nat} (hi : d.gaf.immediate = none) (hm : d.mainOn = true) (hh : d.mode ≠ .halt) : (d.withdrawing cause).Posts (d.immStart cause) := by
  have hm0 : d.mode.stateCode ≠ 0 := by
    intro h
    simp [Dev.mainOn, h] at hm
  unfold Dev.immStart
  rw [if_neg (by simp [hi, hm0, hh])]
  exact Dev.Posts.of_evKeeps (Dev.evKeeps_raise _ _ _ _) (Dev.stReq_raise_shutdown _ _ _ (by decide) (by rw [Dev.wr_gaf]; rfl) hm)

/-- What an immediate shutdown shows at its start. -/
structure Dev.Shuts (o : Dev) (cause k : Nat) (d : Dev) : Prop where
  immediate : d.gaf.immediate = some (cause, 0, k)
  state : d.rd Reg.GAF_STATUS_WRAP_STATE = 4
  tripH : d.pins.tripH = 0
  tripP : d.pins.tripP = 0
  mode : d.mode = o.mode

theorem Dev.shuts_settle {o d e : Dev} {cause : Nat} (hp : (d.withdrawing cause).Posts e) (hst : d.stReq = []) : Dev.Shuts o cause d.cyc (settle o e) := by
  have he : e.stReq = [] := hp.stReq.trans ((d.withdrawing_stReq cause).trans hst)
  have hg : (settle o e).gaf.immediate = some (cause, 0, d.cyc) := by
    rw [settle_gaf o e he, hp.gaf, d.withdrawing_gaf]
  have htrip := (settle_settled o e).no_trip fun ⟨_, _, _, hn⟩ => by
    rw [hg] at hn
    cases hn
  refine ⟨hg, ?_, htrip.1, htrip.2, settle_mode_calm o e he⟩
  rw [settle_rd_clear o e he _ _ _ (by decide) (by decide), hp.rd (by decide) (by decide)]
  exact d.withdrawing_shown cause

section
variable {s : State} {t : Nat}

theorem Dev.live_mainOn {d : Dev} (h : d.live = true) : d.mainOn = true ∧ d.mode ≠ .halt := by
  simp only [Dev.live, Bool.or_eq_true, beq_iff_eq] at h
  rcases h with h | h <;> simp [Dev.mainOn, h, DevState.stateCode]

/-- The Wrap limit starts an immediate shutdown. -/
theorem ends_wrapLimit {w : WrapRun} (hw : s.dev.gaf.wrap = some w) (hm : s.dev.mode = .wrap) (hs : w.sleep = 0) (hi : s.dev.gaf.immediate = none) (hl : w.endAt ≤ s.dev.ownAt t) :
    Ends (.wrapLimit t) s (Dev.Shuts s.dev 8 (cycleOf (s.dev.nowAt t))) := by
  refine ends_of (exec_wrapLimit t s) ?_
  unfold Dev.wrapLimitOut
  rw [show (begin_ t s.dev).gaf.wrap = some w from hw]
  dsimp only
  rw [if_neg (by rintro (h | h | h); exacts [absurd h (Nat.not_lt.2 hl), h hs, by rw [show (begin_ t s.dev).gaf.immediate = none from hi] at h; cases h])]
  have hp := Dev.Posts.raise (begin_ t s.dev) Ev.GAF_WRAP_LIMIT 0 (w.strings.filter (fun x => x.2.st != .done)).length (by decide)
  have hmode : (begin_ t s.dev).mode = .wrap := hm
  have hcyc : (begin_ t s.dev).cyc = cycleOf (s.dev.nowAt t) := rfl
  have himm : (begin_ t s.dev).gaf.immediate = none := hi
  have hst : (begin_ t s.dev).stReq = [] := rfl
  generalize begin_ t s.dev = b at hp hmode hcyc himm hst
  generalize b.raise Ev.GAF_WRAP_LIMIT 0 _ = e at hp
  have hlive : e.live = true := by simp [Dev.live, hp.mode, hmode]
  have hsh := Dev.shuts_settle (o := s.dev) (Dev.immStart_posts (d := e) (cause := 8) (by rw [hp.gaf, himm]) (Dev.live_mainOn hlive).1 (Dev.live_mainOn hlive).2) (hp.stReq.trans hst)
  rwa [show e.cyc = cycleOf (s.dev.nowAt t) by rw [← hcyc]; unfold Dev.cyc; rw [hp.now]] at hsh

/-! ### PWR_GOOD and SHUTDOWN_REQ (R390, R463) -/

/-- The supply reported as falling. -/
def Dev.pwrLow (d : Dev) : Dev := { d with supply := { d.supply with pwrGood := false } }

theorem Dev.pwrLow_kept (d : Dev) : d.pwrLow.mode = d.mode ∧ d.pwrLow.gaf = d.gaf ∧ d.pwrLow.stReq = d.stReq ∧ d.pwrLow.regs = d.regs ∧ d.pwrLow.cyc = d.cyc ∧ d.pwrLow.supply.pwrGood = false :=
  ⟨rfl, rfl, rfl, rfl, rfl, rfl⟩

theorem Dev.pwrFall_dead {d : Dev} (h : d.live = false) : d.pwrFall = d.pwrLow := by
  unfold Dev.pwrFall
  extract_lets src e short
  rw [if_pos (by rw [show e.live = false from h]; rfl)]
  rfl

theorem Dev.pwrFall_run {d : Dev} (h : d.mode = .run) : d.pwrFall = if d.rd Reg.GAF_HOLDUP_HOLDUP = 0 then d.pwrLow.immStart 4 else d.pwrLow.askWrap 4 := by
  unfold Dev.pwrFall
  extract_lets src e short
  have he : e = d.pwrLow := rfl
  have hm : e.mode = .run := h
  have hr : e.rd Reg.GAF_HOLDUP_HOLDUP = d.rd Reg.GAF_HOLDUP_HOLDUP := rfl
  have hl : e.live = true := by
    simp only [Dev.live, hm]
    decide
  have hshort : short = false := by
    simp only [short]
    split
    · rw [hm]
      rfl
    · rfl
  clear_value short
  rw [if_neg (by rw [hl]; decide), hshort, hr, he]
  simp only [Bool.false_eq_true, or_false]

/-- A cause asked for: it waits, or a switch goes first. -/
def Dev.Asks (cause : Nat) (d : Dev) : Prop := cause ∈ d.gaf.wrapReq ∨ d.sin.switchWrap = some cause

theorem Dev.askWrap_asked {d : Dev} (hm : d.mode = .run) (cause : Nat) : (d.askWrap cause).Asks cause := by
  unfold Dev.askWrap
  extract_lets e
  rw [if_neg (by rw [hm]; decide)]
  by_cases h : d.gaf.wrapReq.contains cause = true
  · rw [if_pos (.inr (.inl h))]
    exact .inl (List.contains_iff_mem.1 h)
  · by_cases hs : d.sin.switchWrap = some cause
    · rw [if_pos (.inr (.inr hs))]
      exact .inr hs
    · rw [if_neg (by rintro (hn | hn | hn) <;> [exact hn hm; exact h hn; exact hs hn])]
      split
      · next he => exact .inr he
      · exact .inl (List.mem_append_right _ (List.mem_singleton.2 rfl))

theorem Dev.Asks.settle {o d : Dev} {cause : Nat} (h : d.Asks cause) (hst : d.stReq = []) : (settle o d).Asks cause := by
  unfold Dev.Asks
  rw [settle_gaf o d hst, settle_sin o d hst]
  exact h

theorem ends_shutdownReq (hm : s.dev.mode = .run) : Ends (.shutdownReq t) s fun d => d.rd Reg.GAF_STATUS_SHUTDOWN_REQ = 1 ∧ d.Asks 2 := by
  refine ends_of (exec_shutdownReq t s) ?_
  unfold Dev.shutdownReq
  have hmode : ((begin_ t s.dev).set1 Reg.GAF_STATUS_SHUTDOWN_REQ).mode = .run := (Dev.set1_mode _ _ _ _).trans hm
  have hst : ((begin_ t s.dev).set1 Reg.GAF_STATUS_SHUTDOWN_REQ).stReq = [] := Dev.set1_stReq _ _ _ _
  have hrd : ((begin_ t s.dev).set1 Reg.GAF_STATUS_SHUTDOWN_REQ).rd Reg.GAF_STATUS_SHUTDOWN_REQ = 1 := Dev.rd_wr_self _ Reg.GAF_STATUS_SHUTDOWN_REQ 1 0 0 (by decide)
  generalize (begin_ t s.dev).set1 Reg.GAF_STATUS_SHUTDOWN_REQ = e at hmode hst hrd
  have hw := e.within_askWrap 2
  refine ⟨?_, (Dev.askWrap_asked hmode 2).settle (hw.stReq.trans hst)⟩
  rw [settle_rd_clear _ _ (hw.stReq.trans hst) _ _ _ (by decide) (by decide), hw.rd (by decide) (by decide), hrd]

theorem Dev.Spares.supply {d e : Dev} (h : d.Spares e) : e.supply = d.supply := h.2.2.2.2.2.2.1

theorem ends_pwrGoodFall_asked (hm : s.dev.mode = .run) (hh : s.dev.rd Reg.GAF_HOLDUP_HOLDUP ≠ 0) : Ends (.pwrGoodFall t) s fun d => d.supply.pwrGood = false ∧ d.Asks 4 := by
  refine ends_of (exec_pwrGoodFall t s) ?_
  rw [Dev.pwrFall_run (d := begin_ t s.dev) hm, if_neg (show ¬ (begin_ t s.dev).rd Reg.GAF_HOLDUP_HOLDUP = 0 from hh)]
  obtain ⟨hmode, -, hstr, -, -, hsup⟩ := (begin_ t s.dev).pwrLow_kept
  have hst : (begin_ t s.dev).pwrLow.stReq = [] := hstr
  generalize (begin_ t s.dev).pwrLow = e at hmode hst hsup
  have hw := e.within_askWrap 4
  refine ⟨?_, (Dev.askWrap_asked (hmode.trans hm) 4).settle (hw.stReq.trans hst)⟩
  rw [settle_supply _ _ (hw.stReq.trans hst), hw.spares.supply, hsup]

theorem ends_pwrGoodFall_short (hm : s.dev.mode = .run) (hh : s.dev.rd Reg.GAF_HOLDUP_HOLDUP = 0) (hi : s.dev.gaf.immediate = none) :
    Ends (.pwrGoodFall t) s fun d => d.supply.pwrGood = false ∧ Dev.Shuts s.dev 4 (cycleOf (s.dev.nowAt t)) d := by
  refine ends_of (exec_pwrGoodFall t s) ?_
  rw [Dev.pwrFall_run (d := begin_ t s.dev) hm, if_pos (show (begin_ t s.dev).rd Reg.GAF_HOLDUP_HOLDUP = 0 from hh)]
  obtain ⟨hmode, hgaf, hstr, -, hcyc, hsup⟩ := (begin_ t s.dev).pwrLow_kept
  have hst : (begin_ t s.dev).pwrLow.stReq = [] := hstr
  have hc : (begin_ t s.dev).cyc = cycleOf (s.dev.nowAt t) := rfl
  rw [← hc, ← hcyc]
  have himm : (begin_ t s.dev).pwrLow.gaf.immediate = none := by rw [hgaf]; exact hi
  replace hmode : (begin_ t s.dev).pwrLow.mode = .run := hmode.trans hm
  generalize (begin_ t s.dev).pwrLow = e at hmode hst hsup himm
  have hp := Dev.immStart_posts (d := e) (cause := 4) himm (by simp [Dev.mainOn, hmode, DevState.stateCode]) (by rw [hmode]; decide)
  refine ⟨?_, Dev.shuts_settle hp hst⟩
  rw [settle_supply _ _ (hp.stReq.trans ((e.withdrawing_stReq 4).trans hst)), hp.supply]
  exact (congrArg Supply.pwrGood (Dev.wr_supply _ _ _ _ _)).trans hsup

theorem ends_pwrGoodFall_dead (hl : s.dev.live = false) : Ends (.pwrGoodFall t) s fun d => d.supply.pwrGood = false ∧ d.gaf = s.dev.gaf ∧ s.dev.OnlyWrites d [] := by
  refine ends_of (exec_pwrGoodFall t s) ?_
  rw [Dev.pwrFall_dead (d := begin_ t s.dev) hl]
  obtain ⟨-, hgaf, hstr, hregs, -, hsup⟩ := (begin_ t s.dev).pwrLow_kept
  have hst : (begin_ t s.dev).pwrLow.stReq = [] := hstr
  generalize (begin_ t s.dev).pwrLow = e at hgaf hst hsup hregs
  refine ⟨?_, ?_, (Dev.Touches.of_regs hregs).settle hst⟩
  · rw [settle_supply _ _ hst, hsup]
  · rw [settle_gaf _ _ hst, hgaf]
    rfl

end

end Sys2Proof.Machine
end

section
/-!
PROOFS. Proofs/WrapEnd.lean: the permits that withdraw, the end in HALT, and the statement on Wraps (R463 to R468).
-/
namespace Sys2Proof.Machine

/-! ### The withdrawing PERMIT (R468) -/

/-- The Gaffer's state and the requests of states stand. -/
def Dev.GafKept (d e : Dev) : Prop := e.gaf = d.gaf ∧ e.stReq = d.stReq

namespace Dev.GafKept

theorem refl (d : Dev) : d.GafKept d := ⟨rfl, rfl⟩

theorem trans {d e x : Dev} (h : d.GafKept e) (k : e.GafKept x) : d.GafKept x := ⟨k.1.trans h.1, k.2.trans h.2⟩

theorem ite {d a b : Dev} (c : Prop) [Decidable c] (ha : d.GafKept a) (hb : d.GafKept b) : d.GafKept (if c then a else b) := by
  split
  · exact ha
  · exact hb

theorem wr (d : Dev) (f : Field) (v i j : Nat) : d.GafKept (d.wr f v i j) := ⟨Dev.wr_gaf _ _ _ _ _, Dev.wr_stReq _ _ _ _ _⟩

theorem raise (d : Dev) (e : Ev) (inst data : Nat) (h : e.sev < 5) : d.GafKept (d.raise e inst data) := ⟨Dev.raise_gaf _ _ _ _, Dev.stReq_raise _ _ _ _ h⟩

theorem foldl {β : Type} {f : Dev → β → Dev} (hf : ∀ x b, Dev.GafKept x (f x b)) (l : List β) (d : Dev) : d.GafKept (l.foldl f d) := by
  induction l generalizing d with
  | nil => exact refl d
  | cons b l ih => exact (hf d b).trans (ih _)

theorem foldl_fst {α β : Type} {f : Dev × α → β → Dev × α} (hf : ∀ x b, Dev.GafKept x.1 (f x b).1) (l : List β) (x : Dev × α) : Dev.GafKept x.1 (l.foldl f x).1 := by
  induction l generalizing x with
  | nil => exact refl x.1
  | cons b l ih => exact (hf x b).trans (ih _)

theorem setTs (d : Dev) (str : Nat) (x : TStr) : d.GafKept (d.setTs str x) := ⟨rfl, rfl⟩

theorem weldStart (d : Dev) (str : Nat) (withdrawn granted : Bool) : d.GafKept (d.weldStart str withdrawn granted) := by
  unfold Dev.weldStart
  extract_lets testing
  exact ite _ ((setTs d str _).trans (wr _ _ _ _ _)) (ite _ ((setTs d str _).trans (wr _ _ _ _ _)) (refl d))

theorem permitEntry (d : Dev) (ring h : Nat) (n : Rec) (k : Nat) : d.GafKept (d.permitEntry ring h n k).1 := by
  unfold Dev.permitEntry
  extract_lets str ctag hOn hc e valid auth useP pc px pOn x stale d1 d2 lost d3 d4 said d5
  have h1 : d.GafKept d1 := setTs d str _
  clear_value d1
  have h2 : d1.GafKept d2 := ite _ ((wr d1 _ _ _ _).trans (raise _ _ _ _ (by decide))) (refl d1)
  clear_value d2
  have h3 : d2.GafKept d3 := weldStart d2 _ _ _
  clear_value d3
  have h4 : d3.GafKept d4 := (wr d3 _ _ _ _).trans (wr _ _ _ _ _)
  clear_value d4
  have h5 : d4.GafKept d5 := ite _ ((setTs d4 str _).trans (raise _ _ _ _ (by decide))) (refl d4)
  exact (((h1.trans h2).trans h3).trans h4).trans h5

theorem permit (d : Dev) (ring k : Nat) : d.GafKept (d.permit ring k).1 := by
  unfold Dev.permit
  extract_lets hs
  split
  · exact refl d
  · refine foldl_fst (fun x i => ?_) (List.range hs.length) (d, ([] : List Byte))
    exact permitEntry x.1 _ _ _ _

end Dev.GafKept

/-- The first boundary after an immediate shutdown has started. -/
theorem Dev.immRun_first {d : Dev} {c last : Nat} (hi : d.gaf.immediate = some (c, 0, last)) (hl : last < d.cyc) :
    d.immRun.gaf.immediate = some (c, 1, d.cyc) ∧ d.immRun.stReq = d.stReq := by
  have ha : (d.immAdvance d.cyc).gaf.immediate = some (c, 1, d.cyc) ∧ (d.immAdvance d.cyc).stReq = d.stReq := by
    unfold Dev.immAdvance
    rw [hi]
    dsimp only
    rw [if_neg (Nat.not_le.2 hl), if_pos rfl]
    exact ⟨rfl, rfl⟩
  unfold Dev.immRun
  extract_lets k e src x
  rw [hi]
  dsimp -zeta only
  rw [if_neg (Nat.not_le.2 hl)]
  obtain ⟨hg, hs⟩ := ha
  have he : e = d.immAdvance d.cyc := rfl
  have hx : e.GafKept x := ⟨rfl, rfl⟩
  rw [← he] at hg hs
  clear_value x
  split
  · exact ⟨hg, hs⟩
  · have key : ∀ {y : Dev}, x.GafKept y → y.gaf.immediate = some (c, 1, d.cyc) ∧ y.stReq = d.stReq := fun h => ⟨by rw [(hx.trans h).1, hg], (hx.trans h).2.trans hs⟩
    refine key (Dev.GafKept.foldl (fun y g => ?_) _ _)
    have hp := Dev.GafKept.permit y g k
    generalize y.permit g k = p at hp
    refine hp.trans (Dev.GafKept.ite _ (Dev.GafKept.foldl (fun z m => ?_) _ _) (Dev.GafKept.refl _))
    exact ⟨rfl, rfl⟩

theorem Dev.immRun_second {d : Dev} {c last : Nat} (hi : d.gaf.immediate = some (c, 1, last)) (hl : last < d.cyc) : d.immRun = d.go .halt (if c = 3 then 8 else 7) := by
  unfold Dev.immRun
  extract_lets k e src x
  rw [hi]
  dsimp -zeta only
  rw [if_neg (Nat.not_le.2 hl), if_pos (.inl (by decide))]
  simp only [e]
  unfold Dev.immAdvance
  rw [hi]
  dsimp only
  rw [if_neg (Nat.not_le.2 hl), if_neg (by decide)]

/-- A device in HALT with every output low. -/
def Dev.Halted (d : Dev) : Prop := d.mode = .halt ∧ d.pins.tripH = 0 ∧ d.pins.tripP = 0 ∧ d.pins.faultN = false

theorem Dev.Settled.halted {d : Dev} (h : d.Settled) (hm : d.mode = .halt) : d.Halted := by
  have htrip := h.no_trip fun ⟨hl, _⟩ => by
    simp [Dev.live, hm] at hl
  exact ⟨hm, htrip.1, htrip.2, h.faultN (.inr hm)⟩

theorem Dev.edge_halt {d : Dev} (hm : d.mainOn = true) (hh : d.mode ≠ .halt) : d.mode.edge .halt = true := by
  refine DevState.edge_halt (fun h => ?_) hh
  simp [Dev.mainOn, h] at hm

section
variable {s : State} {t c last : Nat}

theorem ends_immediate_first (hi : s.dev.gaf.immediate = some (c, 0, last)) (hl : last < cycleOf (s.dev.nowAt t)) :
    Ends (.immediateShutdown t) s fun d => d.gaf.immediate = some (c, 1, cycleOf (s.dev.nowAt t)) ∧ d.mode = s.dev.mode := by
  refine ends_of (exec_immediateShutdown t s) ?_
  obtain ⟨hg, hs⟩ := Dev.immRun_first (d := begin_ t s.dev) hi hl
  have hst : (begin_ t s.dev).immRun.stReq = [] := hs
  exact ⟨by rw [settle_gaf _ _ hst, hg]; rfl, settle_mode_calm _ _ hst⟩

theorem ends_immediate_second (hm : s.dev.mainOn = true) (hh : s.dev.mode ≠ .halt) (hi : s.dev.gaf.immediate = some (c, 1, last)) (hl : last < cycleOf (s.dev.nowAt t)) :
    Ends (.immediateShutdown t) s Dev.Halted := by
  refine ends_asked (exec_immediateShutdown t s) (m := .halt) (cause := if c = 3 then 8 else 7) ?_ (Dev.edge_halt hm hh) fun hmode hset => hset.halted hmode
  rw [Dev.immRun_second (d := begin_ t s.dev) hi hl]
  rfl

end

/-- Settles O56: each string by the row of Table 18.5 it meets, the causes by what they ask for, the limit and the shutdown by their two boundaries. -/
theorem wrapRunsToItsEnd : Obligations.WrapRunsToItsEnd := by
  unfold Obligations.WrapRunsToItsEnd
  intro s t c last i o str w x g k ts calm becomes shut asked
  have hshut : ∀ cause {d : Dev}, Dev.Shuts s.dev cause (cycleOf (s.dev.nowAt t)) d → shut cause d := fun cause d h => ⟨h.immediate, h.state, h.tripH, h.tripP, h.mode⟩
  have hput : ∀ {y : WString} (w' : WrapRun), (begin_ t s.dev).wrapStep str = (begin_ t s.dev).putString w' str y → Ends (.wrapStringStep t str) s (becomes y) := fun w' h =>
    ends_wrapStep h (Dev.putString_is _ _ _ _) rfl
  refine ⟨fun hm => ⟨ends_shutdownReq hm, ends_pwrGoodFall_asked hm, fun hh hi => (ends_pwrGoodFall_short hm hh hi).imp fun _ h => ⟨h.1, hshut 4 h.2⟩⟩, ends_pwrGoodFall_dead,
    fun hw => ⟨fun hx => ⟨?_, ?_, ?_, ?_, ?_, ?_, ?_⟩, ends_wrapHoldT hw, fun hm hs hi hl => (ends_wrapLimit hw hm hs hi hl).imp fun _ h => hshut 8 h⟩,
    fun hm hh hl => ⟨fun hi => ends_immediate_first hi hl, fun hi => ends_immediate_second hm hh hi hl⟩⟩
  · exact fun hs hp => hput w (Dev.wrapStep_ramp_open (d := begin_ t s.dev) hw hx hs hp)
  · exact fun hs hp hc => hput w (Dev.wrapStep_ramp_held (d := begin_ t s.dev) hw hx hs hp hc)
  · exact fun hs hp => hput w (Dev.wrapStep_held_open (d := begin_ t s.dev) hw hx hs hp)
  · exact fun hs hp ho hc => hput w (Dev.wrapStep_held_zero (d := begin_ t s.dev) hw hx hs hp ho hc)
  · intro hs hm
    obtain ⟨hd, hst⟩ := (begin_ t s.dev).wrapDone_is w str x (some 1)
    exact ends_wrapStep (Dev.wrapStep_missing (d := begin_ t s.dev) hw hx hs hm) hd hst
  · intro hs hm ho h2 hc
    obtain ⟨hd, hst⟩ := (begin_ t s.dev).wrapDone_is w str x none
    exact ends_wrapStep (Dev.wrapStep_confirmed (d := begin_ t s.dev) hw hx hs hm ho h2 hc) hd hst
  · exact ends_wrapOpenTimeout hw hx

end Sys2Proof.Machine
end

section
/-!
PROOFS. Proofs/Clients.lean: the clients of the Gaffer, its throttle and its compensation (R453, R455, R460, R461).
-/
namespace Sys2Proof.Machine

/-! ### Clients (R453, R455) -/

section
variable {d : Dev} {c : Fin 140}

/-- A client without a report keeps at most its floor. -/
theorem Dev.gafReclaim_late {a : Nat} (ha : d.gaf.reportAt.find c = some a) (hl : a + 1000000 ≤ d.own) (hr : d.rd Reg.GAF_CLIENT_CTRL_RECLAIMED c = 0) :
    (d.gafReclaim c).rd Reg.GAF_CLIENT_GRANT_GRANT c = min (d.rd Reg.GAF_CLIENT_GRANT_GRANT c) (min (d.rd Reg.GAF_CLIENT_RATE_FLOOR c) (d.rd Reg.GAF_CLIENT_RATE_FULL c)) ∧
    (d.gafReclaim c).rd Reg.GAF_CLIENT_CTRL_RECLAIMED c = 1 ∧ (d.gafReclaim c).stReq = d.stReq ∧
    Dev.Touches [Reg.GAF_CLIENT_GRANT_GRANT.addr c 0, Reg.GAF_CLIENT_CTRL_RECLAIMED.addr c 0] d (d.gafReclaim c) := by
  have hG : Reg.GAF_CLIENT_GRANT_GRANT.has c 0 = true := Field.has_of c.isLt (by decide)
  have hR : Reg.GAF_CLIENT_CTRL_RECLAIMED.has c 0 = true := Field.has_of c.isLt (by decide)
  have hg : d.rd Reg.GAF_CLIENT_GRANT_GRANT c < 2 ^ 16 := bitsOf_lt _ _ _
  unfold Dev.gafReclaim
  rw [ha]
  dsimp -zeta only
  rw [if_neg (by simp [Dev.on, hr]; omega)]
  extract_lets g fl
  have h1 := Dev.rd_wr_self d Reg.GAF_CLIENT_GRANT_GRANT (min g fl) c 0 (by decide)
  have ht1 := Dev.Touches.wr (ws := [Reg.GAF_CLIENT_GRANT_GRANT.addr c 0, Reg.GAF_CLIENT_CTRL_RECLAIMED.addr c 0]) d (f := Reg.GAF_CLIENT_GRANT_GRANT) (min g fl) c 0 (by simp)
  have hs1 := Dev.wr_stReq d Reg.GAF_CLIENT_GRANT_GRANT (min g fl) c 0
  rw [show min g fl % 2 ^ Reg.GAF_CLIENT_GRANT_GRANT.width = min g fl from Nat.mod_eq_of_lt (lt_of_le_of_lt (Nat.min_le_left _ _) hg)] at h1
  generalize d.wr Reg.GAF_CLIENT_GRANT_GRANT (min g fl) c = x at h1 ht1 hs1
  have h2 := Dev.rd_wr_ne x Reg.GAF_CLIENT_CTRL_RECLAIMED Reg.GAF_CLIENT_GRANT_GRANT 1 c 0 c 0 (by simp only [Field.addr, Reg.GAF_CLIENT_CTRL_RECLAIMED, Reg.GAF_CLIENT_GRANT_GRANT]; omega)
  have hp := Dev.Posts.raise (x.set1 Reg.GAF_CLIENT_CTRL_RECLAIMED c) Ev.GAF_GRANT_RECLAIM c (g - fl) (by decide)
  refine ⟨(hp.rd hG (by decide)).trans (h2.trans h1), (hp.rd hR (by decide)).trans (Dev.rd_wr_self x Reg.GAF_CLIENT_CTRL_RECLAIMED 1 c 0 (by decide)),
    hp.stReq.trans ((Dev.set1_stReq _ _ _ _).trans hs1), (ht1.trans (Dev.Touches.wr x 1 c 0 (by simp))).trans (hp.touches _)⟩

theorem fieldsAt_clientCtrl : ∀ c : Fin 140, fieldsAt (0x3040C + 16 * c) = [Reg.GAF_CLIENT_CTRL_CAP, Reg.GAF_CLIENT_CTRL_RECLAIMED] ∧ isTrwCfg (0x3040C + 16 * c) = false := by decide +kernel

/-- A write of a client's cap reaches the rule on caps: no field of the word is protected. -/
theorem Dev.ctlWrite_cap (d : Dev) (req v : Nat) (c : Fin 140) : d.ctlWrite req (0x3040C + 16 * c) v = d.capWrite req (0x3040C + 16 * c) v := by
  obtain ⟨hf, hcfg⟩ := fieldsAt_clientCtrl c
  have hno : d.changesProt req (0x3040C + 16 * c) v = false := by
    unfold Dev.changesProt
    rw [d.fields_plain (by omega), hf]
    have hlo : decide (0x3040C + 16 * c.val < 0x400) = false := decide_eq_false (by omega)
    simp [Dev.isProt, hlo, Reg.GAF_CLIENT_CTRL_CAP, Reg.GAF_CLIENT_CTRL_RECLAIMED]
  unfold Dev.ctlWrite
  rw [if_neg (by omega), if_neg (by omega), if_neg (by omega), if_neg (by omega), if_neg (by omega), if_neg (by rw [hcfg]; decide), if_neg (by omega), if_neg (by omega),
    hno, Bool.and_false, if_neg (by decide), if_pos (by omega)]

end

section
variable {s : State} {t req : Nat} {c : Fin 140} {cap : Word}

theorem ends_grantReclaim {a : Nat} (ha : s.dev.gaf.reportAt.find c = some a) (hl : a + 1000000 ≤ s.dev.ownAt t) (hr : s.dev.rd Reg.GAF_CLIENT_CTRL_RECLAIMED c = 0) :
    Ends (.grantReclaim t c) s fun d =>
      d.rd Reg.GAF_CLIENT_GRANT_GRANT c = min (s.dev.rd Reg.GAF_CLIENT_GRANT_GRANT c) (min (s.dev.rd Reg.GAF_CLIENT_RATE_FLOOR c) (s.dev.rd Reg.GAF_CLIENT_RATE_FULL c)) ∧
      d.rd Reg.GAF_CLIENT_CTRL_RECLAIMED c = 1 ∧ s.dev.OnlyWrites d [Reg.GAF_CLIENT_GRANT_GRANT.addr c 0, Reg.GAF_CLIENT_CTRL_RECLAIMED.addr c 0] := by
  refine ends_of (exec_grantReclaim t c s) ?_
  obtain ⟨hg, hrec, hst, ht⟩ := Dev.gafReclaim_late (d := begin_ t s.dev) ha hl hr
  refine ⟨?_, ?_, ht.settle hst⟩
  · exact (settle_rd_clear _ _ hst _ _ _ (Field.has_of c.isLt (by decide)) (by decide)).trans hg
  · exact (settle_rd_clear _ _ hst _ _ _ (Field.has_of c.isLt (by decide)) (by decide)).trans hrec

theorem ends_gafCap (hok : s.dev.Takes req) : Ends (.gafCap t req c cap) s fun d =>
    d.rd Reg.GAF_CLIENT_CTRL_CAP c = cap.toNat % 65536 ∧ d.out = [.status req 0] ∧ s.dev.OnlyWrites d [Reg.GAF_CLIENT_CTRL_CAP.addr c 0] := by
  refine ends_of (exec_gafCap t req c cap s) ?_
  have hw : (begin_ t s.dev).hostWrite req (0x3040C + 16 * c) cap = ((begin_ t s.dev).storeWord true (0x3040C + 16 * c) cap.toNat).emit (.status req 0) := by
    have hp : (begin_ t s.dev).reqProt req = true := hok.2
    unfold Dev.hostWrite
    rw [show (begin_ t s.dev).reqOk req = true from hok.1, if_neg (by decide), if_neg (by simp), Dev.ctlWrite_cap]
    unfold Dev.capWrite
    rw [hp]
    rfl
  have haddr : Reg.GAF_CLIENT_CTRL_CAP.addr c 0 = 0x3040C + 16 * c := by simp [Field.addr, Reg.GAF_CLIENT_CTRL_CAP]
  have hrd := Dev.rd_storeWord_rw (begin_ t s.dev) cap.toNat (off := 0x3040C + 16 * c) (by omega) Reg.GAF_CLIENT_CTRL_CAP c 0 (pre := []) (fieldsAt_clientCtrl c).1 haddr rfl (by decide) (by decide)
  have ht := Dev.touches_storeWord (begin_ t s.dev) cap.toNat (off := 0x3040C + 16 * c) (by omega)
  have hst := Dev.storeWord_stReq (begin_ t s.dev) true (0x3040C + 16 * c) cap.toNat
  have hout := Dev.storeWord_out (begin_ t s.dev) true (0x3040C + 16 * c) cap.toNat
  rw [hw]
  generalize (begin_ t s.dev).storeWord true (0x3040C + 16 * c) cap.toNat = e at hrd ht hst hout
  refine ⟨?_, ?_, ?_⟩
  · rw [Dev.rd_settle_emit _ _ _ hst (Field.has_of c.isLt (by decide)) (by decide), hrd]
    exact (congrArg (· % 65536) (Nat.div_one _))
  · rw [settle_emit_out _ _ _ hst, hout]
    rfl
  · rw [haddr]
    exact Dev.Touches.settle (e := e.emit (.status req 0)) (ht.trans (Dev.Touches.of_regs (Dev.emit_regs _ _))) hst

theorem ends_gafCap_refused (hok : s.dev.reqOk req = true) (hp : s.dev.reqProt req = false) (hc : s.dev.clientProt c = true) (hl : cap.toNat % 65536 < s.dev.rd Reg.GAF_CLIENT_RATE_FLOOR c) :
    Ends (.gafCap t req c cap) s fun d => d.rd Reg.GAF_CLIENT_CTRL_CAP c = s.dev.rd Reg.GAF_CLIENT_CTRL_CAP c ∧ d.out = [.status req 0x30] := by
  refine ends_of (exec_gafCap t req c cap s) ?_
  have hn : (0x3040C + 16 * c.val - 0x3040C) / 16 = c.val := by omega
  have hw : (begin_ t s.dev).hostWrite req (0x3040C + 16 * c) cap = (((begin_ t s.dev).refuse req (0x3040C + 16 * c) true 0x30).raise Ev.GAF_REALM_HOLD c
      (req % 256 + cap.toNat % 65536 * 65536)).emit (.status req 0x30) := by
    unfold Dev.hostWrite
    rw [show (begin_ t s.dev).reqOk req = true from hok, if_neg (by decide), if_neg (by simp), Dev.ctlWrite_cap]
    unfold Dev.capWrite
    rw [hn]
    dsimp only
    rw [show (begin_ t s.dev).reqProt req = false from hp, show (begin_ t s.dev).clientProt c = true from hc,
      if_pos (by rw [decide_eq_true (show cap.toNat % 65536 < (begin_ t s.dev).rd Reg.GAF_CLIENT_RATE_FLOOR c from hl)]; rfl)]
  rw [hw]
  have ht := Dev.touches_refuse (begin_ t s.dev) req (0x3040C + 16 * c) true 0x30
  have hst := Dev.refuse_stReq (begin_ t s.dev) req (0x3040C + 16 * c) true 0x30
  have hout := Dev.refuse_out (begin_ t s.dev) req (0x3040C + 16 * c) true 0x30
  generalize (begin_ t s.dev).refuse req (0x3040C + 16 * c) true 0x30 = e at ht hst hout
  have hpo := Dev.Posts.raise e Ev.GAF_REALM_HOLD c (req % 256 + cap.toNat % 65536 * 65536) (by decide)
  generalize e.raise Ev.GAF_REALM_HOLD c (req % 256 + cap.toNat % 65536 * 65536) = x at hpo
  have hxs := hpo.stReq.trans hst
  have hC : Reg.GAF_CLIENT_CTRL_CAP.has c 0 = true := Field.has_of c.isLt (by decide)
  refine ⟨?_, ?_⟩
  · rw [Dev.rd_settle_emit _ _ _ hxs hC (by decide), hpo.rd hC (by decide)]
    have hcl : Reg.GAF_CLIENT_CTRL_CAP.clearOf [] = true := by decide
    refine ht.rd ?_ (Field.clearOf_events hcl hC)
    simp only [refuseWords, List.mem_cons, List.not_mem_nil, or_false, Field.addr, Reg.GAF_CLIENT_CTRL_CAP]
    omega
  · rw [settle_emit_out _ _ _ hxs, hpo.out, hout]
    rfl

end

end Sys2Proof.Machine
end

section
/-!
PROOFS. Proofs/Throttle.lean: the throttle, the compensation and the comparators' shutdown (R457, R459 to R461).
-/
namespace Sys2Proof.Machine

/-! ### The throttle (R460) -/

section
variable {d : Dev}

theorem Dev.disc0_lt (d : Dev) : d.disc0 < 2 ^ 16 := by
  have h : d.rd Reg.GAF_POOL_POOL < 2 ^ 16 := bitsOf_lt _ _ _
  unfold Dev.disc0
  omega

theorem Dev.disc_lt (d : Dev) : d.rd Reg.GAF_BUDGET_DISC < 2 ^ 16 := bitsOf_lt _ _ _

/-- The budget as a write of it leaves it. -/
theorem Dev.rd_wr_disc (d : Dev) {v : Nat} (h : v < 2 ^ 16) : (d.wr Reg.GAF_BUDGET_DISC v).rd Reg.GAF_BUDGET_DISC = v :=
  (Dev.rd_wr_self d Reg.GAF_BUDGET_DISC v 0 0 (by decide)).trans (Nat.mod_eq_of_lt h)

/-- The grace timer spent. -/
def Dev.graceSpent (d : Dev) : Dev := { d with gaf := { d.gaf with graceAt := none } }

theorem Dev.graceSpent_kept (d : Dev) : d.graceSpent.gaf.graceAt = none ∧ d.graceSpent.regs = d.regs ∧ d.graceSpent.stReq = d.stReq := ⟨rfl, rfl, rfl⟩

/-- A step of enforcement: the budget, and the instant of the step. -/
def Dev.enforced (d : Dev) (disc : Nat) : Dev := { d with gaf := { d.gaf with stepAt := d.own } }.wr Reg.GAF_BUDGET_DISC disc

theorem Dev.enforced_kept (d : Dev) (disc : Nat) : (d.enforced disc).gaf.stepAt = d.own ∧ (d.enforced disc).stReq = d.stReq ∧ Dev.Touches [0x30024] d (d.enforced disc) := by
  have h : Dev.Touches [0x30024] d { d with gaf := { d.gaf with stepAt := d.own } } := Dev.Touches.of_regs rfl
  exact ⟨congrArg Gaf.stepAt (Dev.wr_gaf _ _ _ _ _), Dev.wr_stReq _ _ _ _ _, h.trans (Dev.Touches.wr _ _ 0 0 (by decide))⟩

theorem Dev.enforced_disc (d : Dev) {disc : Nat} (h : disc < 2 ^ 16) : (d.enforced disc).rd Reg.GAF_BUDGET_DISC = disc := Dev.rd_wr_disc _ h

theorem Dev.graceOut_calm {a : Nat} (hg : d.gaf.graceAt = some a) (ha : a ≤ d.own) (hw : d.gaf.warn = []) : d.graceOut = d.graceSpent := by
  unfold Dev.graceOut
  rw [hg]
  dsimp -zeta only
  rw [if_neg (Nat.not_lt.2 ha)]
  extract_lets sg e disc s1 s2 f
  rw [if_pos (show e.gaf.warn.isEmpty = true from by rw [show e.gaf.warn = d.gaf.warn from rfl, hw]; rfl)]
  rfl

theorem Dev.graceOut_due {a : Nat} (hg : d.gaf.graceAt = some a) (ha : a ≤ d.own) (hw : d.gaf.warn ≠ []) :
    d.graceOut.gaf.graceAt = none ∧ d.graceOut.gaf.stepAt = d.own ∧ d.graceOut.rd Reg.GAF_STATUS_THR_ENF = 1 ∧ d.graceOut.rd Reg.GAF_BUDGET_DISC = d.rd Reg.GAF_BUDGET_DISC - d.disc0 / 8 ∧
    d.graceOut.stReq = d.stReq := by
  unfold Dev.graceOut
  rw [hg]
  dsimp -zeta only
  rw [if_neg (Nat.not_lt.2 ha)]
  extract_lets sg e disc s1 s2 f
  have hwarn : e.gaf.warn.isEmpty = false := by
    rw [show e.gaf.warn = d.gaf.warn from rfl, List.isEmpty_eq_false_iff]
    exact hw
  rw [hwarn, if_neg (by decide)]
  have hdisc : disc = d.rd Reg.GAF_BUDGET_DISC - d.disc0 / 8 := rfl
  have hlt : disc < 2 ^ 16 := lt_of_le_of_lt (Nat.sub_le _ _) d.disc_lt
  have hs1 : s1.stReq = d.stReq := (Dev.wr_stReq _ _ _ _ _).trans (Dev.set1_stReq e _ _ _)
  have hv : s1.rd Reg.GAF_STATUS_THR_ENF = 1 :=
    (Dev.rd_wr_apart _ Reg.GAF_BUDGET_DISC Reg.GAF_STATUS_THR_ENF disc 0 0 0 0 (by decide)).trans (Dev.rd_wr_self e Reg.GAF_STATUS_THR_ENF 1 0 0 (by decide))
  have hb : s1.rd Reg.GAF_BUDGET_DISC = disc := Dev.rd_wr_disc _ hlt
  clear_value s1
  have hgr : f.gaf.graceAt = none := rfl
  have hstep : f.gaf.stepAt = d.own := rfl
  have hregs : f.regs = s1.regs := rfl
  have hst : f.stReq = d.stReq := hs1
  clear_value f
  have hp := Dev.Posts.raise f Ev.GAF_THROTTLE_ENFORCED 0 disc (by decide)
  refine ⟨by rw [hp.gaf, hgr], by rw [hp.gaf, hstep], ?_, ?_, hp.stReq.trans hst⟩
  · rw [hp.rd (by decide) (by decide), Dev.rd_congr (Dev.word_congr hregs _), hv]
  · rw [hp.rd (by decide) (by decide), Dev.rd_congr (Dev.word_congr hregs _), hb, hdisc]

theorem Dev.throttleStep_due (he : d.rd Reg.GAF_STATUS_THR_ENF = 1) (hw : d.gaf.warn ≠ []) (hs : d.gaf.stepAt + 1000000000 ≤ d.own) :
    d.throttleStep = d.enforced (d.rd Reg.GAF_BUDGET_DISC - d.disc0 / 8) := by
  have hwarn : d.gaf.warn.isEmpty = false := List.isEmpty_eq_false_iff.2 hw
  unfold Dev.throttleStep
  rw [if_pos (by simp [Dev.on, he, hwarn, oneSec, hs])]
  rfl

/-- A calm period that ends: the budget a step up. -/
def Dev.released (d : Dev) (disc : Nat) : Dev := { d with gaf := { d.gaf with calmAt := some d.own } }.wr Reg.GAF_BUDGET_DISC disc

theorem Dev.throttleRelease_due {a : Nat} (he : d.rd Reg.GAF_STATUS_THR_ENF = 1) (hw : d.gaf.warn = []) (hc : d.gaf.calmAt = some a) (ha : a + 10000000000 ≤ d.own) :
    d.throttleRelease = if min d.disc0 (d.rd Reg.GAF_BUDGET_DISC + d.disc0 / 8) < d.disc0 ∧ d.disc0 / 8 ≠ 0 then d.released (min d.disc0 (d.rd Reg.GAF_BUDGET_DISC + d.disc0 / 8))
      else (((d.released (min d.disc0 (d.rd Reg.GAF_BUDGET_DISC + d.disc0 / 8))).clr Reg.GAF_STATUS_THR_REQ).clr Reg.GAF_STATUS_THR_ENF).raise Ev.GAF_THROTTLE_END 0 0 := by
  unfold Dev.throttleRelease
  rw [hc]
  dsimp -zeta only
  rw [if_neg (by simp [Dev.on, he, hw, oneSec]; exact decide_eq_false (by omega))]
  rfl

end

section
variable {s : State} {t a : Nat}

theorem ends_throttleGrace (hg : s.dev.gaf.graceAt = some a) (ha : a ≤ s.dev.ownAt t) : Ends (.throttleGraceExpiry t) s fun d =>
    d.gaf.graceAt = none ∧ (s.dev.gaf.warn ≠ [] → d.rd Reg.GAF_STATUS_THR_ENF = 1 ∧ d.rd Reg.GAF_BUDGET_DISC = s.dev.rd Reg.GAF_BUDGET_DISC - s.dev.disc0 / 8 ∧ d.gaf.stepAt = s.dev.ownAt t) ∧
    (s.dev.gaf.warn = [] → s.dev.OnlyWrites d []) := by
  refine ends_of (exec_throttleGraceExpiry t s) ?_
  by_cases hw : s.dev.gaf.warn = []
  · rw [Dev.graceOut_calm (d := begin_ t s.dev) hg ha hw]
    obtain ⟨hgr, hregs, hst⟩ := (begin_ t s.dev).graceSpent_kept
    exact ⟨by rw [settle_gaf _ _ hst, hgr], fun hn => absurd hw hn, fun _ => (Dev.Touches.of_regs hregs).settle hst⟩
  · obtain ⟨h1, h2, h3, h4, h5⟩ := Dev.graceOut_due (d := begin_ t s.dev) hg ha hw
    refine ⟨by rw [settle_gaf _ _ h5, h1], fun _ => ⟨?_, ?_, by rw [settle_gaf _ _ h5, h2]; rfl⟩, fun hn => absurd hn hw⟩
    · rw [settle_rd_clear _ _ h5 _ _ _ (by decide) (by decide), h3]
    · rw [settle_rd_clear _ _ h5 _ _ _ (by decide) (by decide), h4]
      rfl

theorem ends_throttleStep (he : s.dev.rd Reg.GAF_STATUS_THR_ENF = 1) (hw : s.dev.gaf.warn ≠ []) (hs : s.dev.gaf.stepAt + 1000000000 ≤ s.dev.ownAt t) : Ends (.throttleStep t) s fun d =>
    d.rd Reg.GAF_BUDGET_DISC = s.dev.rd Reg.GAF_BUDGET_DISC - s.dev.disc0 / 8 ∧ d.gaf.stepAt = s.dev.ownAt t ∧ s.dev.OnlyWrites d [0x30024] := by
  refine ends_of (exec_throttleStep t s) ?_
  rw [Dev.throttleStep_due (d := begin_ t s.dev) he hw hs]
  have hlt : (begin_ t s.dev).rd Reg.GAF_BUDGET_DISC - (begin_ t s.dev).disc0 / 8 < 2 ^ 16 := lt_of_le_of_lt (Nat.sub_le _ _) (Dev.disc_lt _)
  obtain ⟨hstep, hst, ht⟩ := (begin_ t s.dev).enforced_kept ((begin_ t s.dev).rd Reg.GAF_BUDGET_DISC - (begin_ t s.dev).disc0 / 8)
  have hrd := (begin_ t s.dev).enforced_disc hlt
  generalize (begin_ t s.dev).enforced ((begin_ t s.dev).rd Reg.GAF_BUDGET_DISC - (begin_ t s.dev).disc0 / 8) = e at hstep hst ht hrd
  refine ⟨?_, ?_, ht.settle hst⟩
  · rw [settle_rd_clear _ _ hst _ _ _ (by decide) (by decide), hrd]
    rfl
  · rw [settle_gaf _ _ hst, hstep]
    rfl

theorem ends_throttleRelease (he : s.dev.rd Reg.GAF_STATUS_THR_ENF = 1) (hw : s.dev.gaf.warn = []) (hc : s.dev.gaf.calmAt = some a) (ha : a + 10000000000 ≤ s.dev.ownAt t) :
    Ends (.throttleReleaseStep t) s fun d => d.rd Reg.GAF_BUDGET_DISC = min s.dev.disc0 (s.dev.rd Reg.GAF_BUDGET_DISC + s.dev.disc0 / 8) ∧
      (s.dev.disc0 ≤ s.dev.rd Reg.GAF_BUDGET_DISC + s.dev.disc0 / 8 → d.rd Reg.GAF_STATUS_THR_REQ = 0 ∧ d.rd Reg.GAF_STATUS_THR_ENF = 0) := by
  refine ends_of (exec_throttleReleaseStep t s) ?_
  rw [Dev.throttleRelease_due (d := begin_ t s.dev) he hw hc ha]
  have h0 : (begin_ t s.dev).disc0 = s.dev.disc0 := rfl
  have hr : (begin_ t s.dev).rd Reg.GAF_BUDGET_DISC = s.dev.rd Reg.GAF_BUDGET_DISC := rfl
  rw [h0, hr]
  have hlt : min s.dev.disc0 (s.dev.rd Reg.GAF_BUDGET_DISC + s.dev.disc0 / 8) < 2 ^ 16 := lt_of_le_of_lt (Nat.min_le_left _ _) s.dev.disc0_lt
  have hrd : ((begin_ t s.dev).released (min s.dev.disc0 (s.dev.rd Reg.GAF_BUDGET_DISC + s.dev.disc0 / 8))).rd Reg.GAF_BUDGET_DISC = _ := Dev.rd_wr_disc _ hlt
  have hst : ((begin_ t s.dev).released (min s.dev.disc0 (s.dev.rd Reg.GAF_BUDGET_DISC + s.dev.disc0 / 8))).stReq = [] := Dev.wr_stReq _ _ _ _ _
  generalize (begin_ t s.dev).released (min s.dev.disc0 (s.dev.rd Reg.GAF_BUDGET_DISC + s.dev.disc0 / 8)) = e at hrd hst
  split
  · next hlow =>
    refine ⟨?_, fun hge => absurd hlow.1 (by omega)⟩
    rw [settle_rd_clear _ _ hst _ _ _ (by decide) (by decide), hrd]
  · have hp := Dev.Posts.raise ((e.clr Reg.GAF_STATUS_THR_REQ).clr Reg.GAF_STATUS_THR_ENF) Ev.GAF_THROTTLE_END 0 0 (by decide)
    have hs : ((e.clr Reg.GAF_STATUS_THR_REQ).clr Reg.GAF_STATUS_THR_ENF).stReq = [] := (Dev.clr_stReq _ _ _ _).trans ((Dev.clr_stReq _ _ _ _).trans hst)
    have h1 : ((e.clr Reg.GAF_STATUS_THR_REQ).clr Reg.GAF_STATUS_THR_ENF).rd Reg.GAF_BUDGET_DISC = e.rd Reg.GAF_BUDGET_DISC :=
      (Dev.rd_wr_apart _ _ _ _ _ _ _ _ (by decide)).trans (Dev.rd_wr_apart _ _ _ _ _ _ _ _ (by decide))
    have h2 : ((e.clr Reg.GAF_STATUS_THR_REQ).clr Reg.GAF_STATUS_THR_ENF).rd Reg.GAF_STATUS_THR_REQ = 0 :=
      (Dev.rd_wr_apart _ _ _ _ _ _ _ _ (by decide)).trans (Dev.rd_wr_self e Reg.GAF_STATUS_THR_REQ 0 0 0 (by decide))
    have h3 : ((e.clr Reg.GAF_STATUS_THR_REQ).clr Reg.GAF_STATUS_THR_ENF).rd Reg.GAF_STATUS_THR_ENF = 0 := Dev.rd_wr_self _ Reg.GAF_STATUS_THR_ENF 0 0 0 (by decide)
    generalize (e.clr Reg.GAF_STATUS_THR_REQ).clr Reg.GAF_STATUS_THR_ENF = f at hp hs h1 h2 h3
    refine ⟨?_, fun _ => ⟨?_, ?_⟩⟩
    · rw [hp.settle_rd hs (by decide) (by decide), h1, hrd]
    · rw [hp.settle_rd hs (by decide) (by decide), h2]
    · rw [hp.settle_rd hs (by decide) (by decide), h3]

end

/-! ### The comparators (R459) -/

section
variable {s : State} {t a : Nat} {k : Fin 32}

/-- The comparators fired. -/
def Dev.hwFired (d : Dev) : Dev := { d with gaf := { d.gaf with hwAt := some d.own } }

theorem ends_hwThermal (hm : s.dev.mainOn = true) (hh : s.dev.mode ≠ .halt) (hk : k.val ∈ s.dev.hwHot) (hat : s.dev.gaf.hwAt = none) (hi : s.dev.gaf.immediate = none) :
    Ends (.hwThermalShutdown t k) s fun d => d.gaf.hwAt = some (s.dev.ownAt t) ∧ Dev.Shuts s.dev 3 (cycleOf (s.dev.nowAt t)) d := by
  refine ends_of (exec_hwThermalShutdown t k s) ?_
  have hm0 : (begin_ t s.dev).mode.stateCode ≠ 0 := fun h => by
    have h' : s.dev.mode.stateCode = 0 := h
    simp [Dev.mainOn, h'] at hm
  have hfire : ∀ d : Dev, d.gaf.hwAt = none → d.mode.stateCode ≠ 0 → d.mode ≠ .halt →
      d.hwFire k = (d.hwFired.immStart 3).raise Ev.GAF_TEMP_SHUTDOWN k ((d.hwFired.immStart 3).rd Reg.GAF_SENS_T k) := fun d h1 h2 h3 => by
    unfold Dev.hwFire
    rw [if_neg (by simp [h1, h2, h3])]
    rfl
  rw [if_pos (List.contains_iff_mem.2 (show k.val ∈ (begin_ t s.dev).hwHot from hk)), hfire (begin_ t s.dev) hat hm0 hh]
  have hp := Dev.immStart_posts (d := (begin_ t s.dev).hwFired) (cause := 3) hi hm hh
  have hg := ((begin_ t s.dev).hwFired).withdrawing_gaf 3
  have hc : (begin_ t s.dev).hwFired.cyc = cycleOf (s.dev.nowAt t) := rfl
  have hown : (begin_ t s.dev).hwFired.gaf.hwAt = some (s.dev.ownAt t) := rfl
  have hmain : (begin_ t s.dev).hwFired.mainOn = true := hm
  have hst : (begin_ t s.dev).hwFired.stReq = [] := rfl
  generalize (begin_ t s.dev).hwFired = b at hp hg hc hown hst hmain
  have hig : (b.immStart 3).gaf = { b.gaf with immediate := some (3, 0, b.cyc) } := hp.gaf.trans hg
  have him : (b.immStart 3).mainOn = true := by
    unfold Dev.mainOn
    rw [hp.mode, show (b.withdrawing 3).mode = b.mode from Dev.wr_mode _ _ _ _ _]
    exact hmain
  have hq := Dev.Posts.of_evKeeps (Dev.evKeeps_raise (b.immStart 3) Ev.GAF_TEMP_SHUTDOWN k ((b.immStart 3).rd Reg.GAF_SENS_T k))
    (Dev.stReq_raise_shutdown _ _ _ (by decide) (by rw [hig]; rfl) him)
  have hpq := hp.trans hq
  have hxs := hpq.stReq.trans ((b.withdrawing_stReq 3).trans hst)
  refine ⟨?_, hc ▸ Dev.shuts_settle hpq hst⟩
  rw [settle_gaf _ _ hxs, hpq.gaf, hg]
  exact hown

theorem ends_haltForce (hm : s.dev.mainOn = true) (hh : s.dev.mode ≠ .halt) (hat : s.dev.gaf.hwAt = some a) (ha : a + 1000000 ≤ s.dev.ownAt t) : Ends (.haltForce t) s Dev.Halted := by
  refine ends_asked (exec_haltForce t s) (m := .halt) (cause := 8) ?_ (Dev.edge_halt hm hh) fun hmode hset => hset.halted hmode
  have hgo : ∀ d : Dev, d.gaf.hwAt = some a → a + 1000000 ≤ d.own → d.haltForce = d.go .halt 8 := fun d h1 h2 => by
    unfold Dev.haltForce
    rw [h1]
    exact if_pos h2
  rw [hgo (begin_ t s.dev) hat ha]
  rfl

end

end Sys2Proof.Machine
end

section
/-!
PROOFS. Proofs/HeatPools.lean: the heat pools of the containers (R462).
-/
namespace Sys2Proof.Machine

/-! ### One container -/

/-- What the evaluation of a container reads, and the requests of states, stand. -/
structure Dev.HeatKept (d e : Dev) : Prop where
  reel : e.reel = d.reel
  mode : e.mode = d.mode
  stReq : e.stReq = d.stReq
  tfilt : e.swp.tfilt = d.swp.tfilt
  excl : ∀ a, 0x181000 ≤ a → a < 0x1000000 → e.word a = d.word a
  t0 : e.rdI Reg.GAF_HEAT_CFG_HEAT_T0 = d.rdI Reg.GAF_HEAT_CFG_HEAT_T0
  t1 : e.rdI Reg.GAF_HEAT_CFG_HEAT_T1 = d.rdI Reg.GAF_HEAT_CFG_HEAT_T1
  cap : ∀ c, c < 64 → e.rd Reg.GAF_HEAT_CAP_CAP c = d.rd Reg.GAF_HEAT_CAP_CAP c

namespace Dev.HeatKept

theorem refl (d : Dev) : d.HeatKept d := ⟨rfl, rfl, rfl, rfl, fun _ _ _ => rfl, rfl, rfl, fun _ _ => rfl⟩

theorem trans {d e x : Dev} (h : d.HeatKept e) (k : e.HeatKept x) : d.HeatKept x :=
  ⟨k.reel.trans h.reel, k.mode.trans h.mode, k.stReq.trans h.stReq, k.tfilt.trans h.tfilt, fun a ha hb => (k.excl a ha hb).trans (h.excl a ha hb), k.t0.trans h.t0, k.t1.trans h.t1,
    fun c hc => (k.cap c hc).trans (h.cap c hc)⟩

/-- A write beyond the heat configuration that shares no bits with a cap. -/
theorem wr (d : Dev) {f : Field} {v i j : Nat} (ha : f.addr i j < 0x181000) (hb : 0x31000 ≤ f.base) (hc : Reg.GAF_HEAT_CAP_CAP.apart f = true) : d.HeatKept (d.wr f v i j) := by
  have hlow := f.base_le_addr i j
  exact ⟨Dev.wr_reel _ _ _ _ _, Dev.wr_mode _ _ _ _ _, Dev.wr_stReq _ _ _ _ _, by rw [Dev.wr_swp], fun a h _ => Dev.word_wr_ne d f v i j (by omega),
    Dev.rdI_congr (Dev.rd_wr_ne _ _ _ _ _ _ _ _ (by simp only [Field.addr, Reg.GAF_HEAT_CFG_HEAT_T0] at hlow ⊢; omega)),
    Dev.rdI_congr (Dev.rd_wr_ne _ _ _ _ _ _ _ _ (by simp only [Field.addr, Reg.GAF_HEAT_CFG_HEAT_T1] at hlow ⊢; omega)), fun _ _ => Dev.rd_wr_apart _ _ _ _ _ _ _ _ hc⟩

/-- A write beyond the Gaffer's registers and below the sweeper's nodes. -/
theorem past (d : Dev) {f : Field} {v i j : Nat} (hb : 0x100000 ≤ f.base) (ha : f.addr i j < 0x181000) : d.HeatKept (d.wr f v i j) := by
  have hlow := f.base_le_addr i j
  exact ⟨Dev.wr_reel _ _ _ _ _, Dev.wr_mode _ _ _ _ _, Dev.wr_stReq _ _ _ _ _, by rw [Dev.wr_swp], fun a h _ => Dev.word_wr_ne d f v i j (by omega),
    Dev.rdI_congr (Dev.rd_wr_ne _ _ _ _ _ _ _ _ (by simp only [Field.addr, Reg.GAF_HEAT_CFG_HEAT_T0] at hlow ⊢; omega)),
    Dev.rdI_congr (Dev.rd_wr_ne _ _ _ _ _ _ _ _ (by simp only [Field.addr, Reg.GAF_HEAT_CFG_HEAT_T1] at hlow ⊢; omega)),
    fun c hc => Dev.rd_wr_ne _ _ _ _ _ _ _ _ (by simp only [Field.addr, Reg.GAF_HEAT_CAP_CAP] at hlow ⊢; omega)⟩

theorem evWords_apart {a : Nat} (h : 0x181000 ≤ a) (h2 : a < 0x1000000) : a ∉ evWords := by
  simp only [evWords, List.mem_cons, List.not_mem_nil, or_false, not_or, Field.addr, Reg.QF_CNT_DROP_CNT, Reg.QF_CNT_OVERWRITE_CNT, Reg.QF_CNT_CUT_CNT, Reg.PST_BB_DROPPED_CNT,
    Reg.WCH_LOG_COUNT, Reg.WCH_LOG_OVERFLOW]
  omega

theorem posts {d e : Dev} (h : d.Posts e) : d.HeatKept e :=
  ⟨h.reel, h.mode, h.stReq, by rw [h.swp], fun a ha hb => h.words a (evWords_apart ha hb), Dev.rdI_congr (h.rd (by decide) (by decide)), Dev.rdI_congr (h.rd (by decide) (by decide)),
    fun _ hc => h.rd (Field.has_of hc (by decide)) (by decide)⟩

end Dev.HeatKept

theorem Rec.u8_lt (n : Rec) (o : Nat) : n.u8 o < 256 := by
  unfold Rec.u8 byteAt
  exact BitVec.isLt _

/-- The temperature of a container is read from what stands. -/
theorem Dev.HeatKept.temp {d e : Dev} (h : d.HeatKept e) (first count : Nat) : e.containerTemp first count = d.containerTemp first count := by
  have hrl : e.rl = d.rl := by
    unfold Dev.rl
    rw [h.reel]
  have hf : ∀ ch, e.tfilt ch = d.tfilt ch := fun ch => by
    unfold Dev.tfilt
    rw [h.tfilt]
  have hx : ∀ n : Rec, e.rd Reg.SWP_NODE_DIAG_TEMP_EXCL n.ndRing n.ndAddr = d.rd Reg.SWP_NODE_DIAG_TEMP_EXCL n.ndRing n.ndAddr := fun n => by
    have hr : n.ndRing < 256 := n.u8_lt 8
    have ha : n.ndAddr < 256 := n.u8_lt 9
    refine Dev.rd_congr (h.excl _ ?_ ?_) <;> simp only [Field.addr, Reg.SWP_NODE_DIAG_TEMP_EXCL] <;> omega
  unfold Dev.containerTemp
  simp only [hrl, hf, hx]

theorem Dev.HeatKept.containers {d e : Dev} (h : d.HeatKept e) : e.containers = d.containers := by
  unfold Dev.containers Dev.recs
  rw [h.reel]

/-- The power that a container is granted. -/
def Dev.heatGrant (d : Dev) (c first count pool : Nat) : Nat :=
  let g := match d.containerTemp first count with
    | none => 0
    | some v => if v ≤ d.rdI Reg.GAF_HEAT_CFG_HEAT_T0 then pool else if d.rdI Reg.GAF_HEAT_CFG_HEAT_T1 ≤ v then 0
      else (Int.fdiv ((pool : Int) * (d.rdI Reg.GAF_HEAT_CFG_HEAT_T1 - v)) (d.rdI Reg.GAF_HEAT_CFG_HEAT_T1 - d.rdI Reg.GAF_HEAT_CFG_HEAT_T0)).toNat
  if d.mode = .wrap then 0 else if d.rd Reg.GAF_HEAT_CAP_CAP c = 0xFFFF then g else min g (d.rd Reg.GAF_HEAT_CAP_CAP c)

theorem Dev.HeatKept.grant {d e : Dev} (h : d.HeatKept e) {c : Nat} (hc : c < 64) (first count pool : Nat) : e.heatGrant c first count pool = d.heatGrant c first count pool := by
  unfold Dev.heatGrant
  rw [h.temp, h.t0, h.t1, h.mode, h.cap c hc]

theorem Dev.containers_lt {d : Dev} {x : Nat × Nat × Nat × Nat} (h : x ∈ d.containers) : x.1 < 256 := by
  unfold Dev.containers at h
  obtain ⟨r, -, rfl⟩ := List.mem_map.1 h
  exact BitVec.isLt _

/-- Fitting a container's plan into its pool leaves what the pools are read from, and the pools. -/
theorem Dev.balFit_kept (d : Dev) {c : Nat} (hc : c < 256) : d.HeatKept (d.balFit c) ∧ ∀ b, b < 64 → (d.balFit c).rd Reg.GAF_HEAT_POOL_GRANTED b = d.rd Reg.GAF_HEAT_POOL_GRANTED b := by
  unfold Dev.balFit
  extract_lets pool
  split
  · exact ⟨.refl d, fun _ _ => rfl⟩
  next p _ =>
    dsimp -zeta only
    split
    · exact ⟨.refl d, fun _ _ => rfl⟩
    extract_lets e
    have he : d.HeatKept e := ⟨rfl, rfl, rfl, rfl, fun _ _ _ => rfl, rfl, rfl, fun _ _ => rfl⟩
    have hg : ∀ b, e.rd Reg.GAF_HEAT_POOL_GRANTED b = d.rd Reg.GAF_HEAT_POOL_GRANTED b := fun _ => rfl
    generalize (fitPool (1000 * pool) 0 (p.cells.map fun x => (x.1, 0, x.2))).1 = cells
    clear_value e
    unfold Dev.reportPlan
    have hw : ∀ (x : Dev) (f : Field) (v : Nat), 0x100000 ≤ f.base → f.addr c 0 < 0x181000 → x.HeatKept (x.wr f v c) ∧
        ∀ b, b < 64 → (x.wr f v c).rd Reg.GAF_HEAT_POOL_GRANTED b = x.rd Reg.GAF_HEAT_POOL_GRANTED b := fun x f v hb ha => by
      have hlow := f.base_le_addr c 0
      exact ⟨.past x hb ha, fun b hb => Dev.rd_wr_ne _ _ _ _ _ _ _ _ (by simp only [Field.addr, Reg.GAF_HEAT_POOL_GRANTED] at hlow ⊢; omega)⟩
    obtain ⟨h1, g1⟩ := hw e Reg.SWP_CONT_GRANT_POOL_W pool (by decide) (by simp only [Field.addr, Reg.SWP_CONT_GRANT_POOL_W]; omega)
    generalize e.wr Reg.SWP_CONT_GRANT_POOL_W pool c = f at h1 g1
    obtain ⟨h2, g2⟩ := hw f Reg.SWP_CONT_GRANT_CELLS (min cells.length 65535) (by decide) (by simp only [Field.addr, Reg.SWP_CONT_GRANT_CELLS]; omega)
    generalize f.wr Reg.SWP_CONT_GRANT_CELLS (min cells.length 65535) c = x at h2 g2
    obtain ⟨h3, g3⟩ := hw x Reg.SWP_CONT_PLAN_PLAN_MW (sumN (cells.map fun y => y.2)) (by decide) (by simp only [Field.addr, Reg.SWP_CONT_PLAN_PLAN_MW]; omega)
    generalize x.wr Reg.SWP_CONT_PLAN_PLAN_MW (sumN (cells.map fun y => y.2)) c = y at h3 g3
    have hp := Dev.Posts.raise y Ev.SWP_BAL_CUT c (min (fitPool (1000 * pool) 0 (p.cells.map fun x => (x.1, 0, x.2))).2.2 65535 + pool * 2 ^ 16) (by decide)
    exact ⟨(((he.trans h1).trans h2).trans h3).trans (.posts hp), fun b hb => (hp.rd (Field.has_of hb (by decide)) (by decide)).trans ((g3 b hb).trans ((g2 b hb).trans ((g1 b hb).trans (hg b))))⟩

/-- One container evaluated: its pool as granted, the other pools as before. -/
theorem Dev.heatEval_grants (d : Dev) {c first count pool : Nat} (hc : c < 256) (hf : d.containers.find? (fun x => x.1 == c) = some (c, first, count, pool)) :
    d.HeatKept (d.heatEval c) ∧ (∀ b, b < 64 → b ≠ c → (d.heatEval c).rd Reg.GAF_HEAT_POOL_GRANTED b = d.rd Reg.GAF_HEAT_POOL_GRANTED b) ∧
    (c < 64 → (d.heatEval c).rd Reg.GAF_HEAT_POOL_GRANTED c = d.heatGrant c first count pool % 2 ^ 16) := by
  unfold Dev.heatEval
  rw [hf]
  dsimp -zeta only
  extract_lets t0 t1 temp d1 g cap g2 old d2
  have h1 : d.HeatKept d1 ∧ ∀ b, d1.rd Reg.GAF_HEAT_POOL_GRANTED b = d.rd Reg.GAF_HEAT_POOL_GRANTED b := by
    have hd1 : d1 = d ∨ ∃ v, d1 = d.wrI Reg.GAF_HEAT_CAP_T_HOT v c := by
      rcases ho : d.containerTemp first count with _ | v
      · exact .inl (by simp only [d1, temp, ho])
      · exact .inr ⟨v, by simp only [d1, temp, ho]⟩
    rcases hd1 with h | ⟨v, h⟩
    · rw [h]
      exact ⟨.refl d, fun _ => rfl⟩
    · rw [h]
      exact ⟨.wr d (by simp only [Field.addr, Reg.GAF_HEAT_CAP_T_HOT]; omega) (by decide) (by decide), fun b => Dev.rd_wr_apart _ _ _ _ _ _ _ _ (by decide)⟩
  obtain ⟨hk1, hg1⟩ := h1
  have hgrant : c < 64 → g2 = d.heatGrant c first count pool := fun h => by
    simp only [g2, cap]
    unfold Dev.heatGrant
    rw [hk1.mode, hk1.cap c h] <;> rfl
  clear_value d1 g2
  have h2 : d1.HeatKept d2 := .wr d1 (by simp only [Field.addr, Reg.GAF_HEAT_POOL_GRANTED]; omega) (by decide) (by decide)
  have hself : d2.rd Reg.GAF_HEAT_POOL_GRANTED c = g2 % 2 ^ 16 := Dev.rd_wr_self d1 Reg.GAF_HEAT_POOL_GRANTED g2 c 0 (by decide)
  have hother : ∀ b, b ≠ c → d2.rd Reg.GAF_HEAT_POOL_GRANTED b = d1.rd Reg.GAF_HEAT_POOL_GRANTED b := fun b hb =>
    Dev.rd_wr_ne _ _ _ _ _ _ _ _ (by simp only [Field.addr, Reg.GAF_HEAT_POOL_GRANTED]; omega)
  clear_value d2
  have hend : d2.HeatKept (if g2 < old then (d2.raise Ev.GAF_HEAT_CUT c g2).balFit c else d2) ∧
      ∀ b, b < 64 → (if g2 < old then (d2.raise Ev.GAF_HEAT_CUT c g2).balFit c else d2).rd Reg.GAF_HEAT_POOL_GRANTED b = d2.rd Reg.GAF_HEAT_POOL_GRANTED b := by
    split
    · have hp := Dev.Posts.raise d2 Ev.GAF_HEAT_CUT c g2 (by decide)
      obtain ⟨hk, hb⟩ := Dev.balFit_kept (d2.raise Ev.GAF_HEAT_CUT c g2) hc
      exact ⟨(Dev.HeatKept.posts hp).trans hk, fun b h => (hb b h).trans (hp.rd (Field.has_of h (by decide)) (by decide))⟩
    · exact ⟨.refl d2, fun _ _ => rfl⟩
  obtain ⟨hk3, hb3⟩ := hend
  exact ⟨(hk1.trans h2).trans hk3, fun b h hne => (hb3 b h).trans ((hother b hne).trans (hg1 b)), fun h => (hb3 c h).trans (hself.trans (by rw [hgrant h]))⟩

/-! ### All containers -/

/-- Of the containers evaluated in turn, each is granted what it is granted alone. -/
theorem Dev.heatEvals_grant {d : Dev} {b first count pool : Nat} (hb : b < 64) (hf : d.containers.find? (fun x => x.1 == b) = some (b, first, count, pool)) (l : List (Nat × Nat × Nat × Nat))
    (hl : ∀ x ∈ l, x ∈ d.containers) (e : Dev) (hk : d.HeatKept e) :
    d.HeatKept (l.foldl (fun (d : Dev) x => d.heatEval x.1) e) ∧
    (e.rd Reg.GAF_HEAT_POOL_GRANTED b = d.heatGrant b first count pool % 2 ^ 16 ∨ (∃ x ∈ l, x.1 = b) →
      (l.foldl (fun (d : Dev) x => d.heatEval x.1) e).rd Reg.GAF_HEAT_POOL_GRANTED b = d.heatGrant b first count pool % 2 ^ 16) := by
  induction l generalizing e with
  | nil => exact ⟨hk, fun h => h.elim id fun ⟨x, hx, _⟩ => absurd hx List.not_mem_nil⟩
  | cons x l ih =>
    have hx : x ∈ d.containers := hl x List.mem_cons_self
    obtain ⟨y, hy⟩ : ∃ y, d.containers.find? (fun z => z.1 == x.1) = some y := Option.isSome_iff_exists.1 (List.find?_isSome.2 ⟨x, hx, by simp⟩)
    have hy1 : y.1 = x.1 := by simpa using List.find?_some hy
    obtain ⟨c, f, n, p⟩ := y
    dsimp only at hy1
    subst hy1
    obtain ⟨hstep, hother, hself⟩ := Dev.heatEval_grants e (Dev.containers_lt hx) (by rw [hk.containers]; exact hy)
    obtain ⟨hkeep, hval⟩ := ih (fun z hz => hl z (List.mem_cons_of_mem _ hz)) (e.heatEval x.1) (hk.trans hstep)
    refine ⟨hkeep, fun h => hval ?_⟩
    by_cases hxb : x.1 = b
    · left
      rw [hxb] at hy hself
      rw [hf] at hy
      cases hy
      rw [hxb, hself hb, hk.grant hb]
    · rcases h with h | ⟨z, hz, hzb⟩
      · exact .inl ((hother b hb (Ne.symm hxb)).trans h)
      · rcases List.mem_cons.1 hz with rfl | hz
        · exact absurd hzb hxb
        · exact .inr ⟨z, hz, hzb⟩

theorem Dev.heatAll_grant {d : Dev} {b first count pool : Nat} (hb : b < 64) (hf : d.containers.find? (fun x => x.1 == b) = some (b, first, count, pool)) :
    d.heatAll.rd Reg.GAF_HEAT_POOL_GRANTED b = d.heatGrant b first count pool % 2 ^ 16 ∧ d.heatAll.stReq = d.stReq := by
  obtain ⟨hk, hv⟩ := Dev.heatEvals_grant hb hf d.containers (fun _ h => h) d (.refl d)
  exact ⟨hv (.inr ⟨_, List.mem_of_find?_eq_some hf, rfl⟩), hk.stReq⟩

/-! ### The grant (R462) -/

section
variable {d : Dev} {c first count pool : Nat}

theorem Dev.heatGrant_none (h : d.mode = .wrap ∨ d.containerTemp first count = none) : d.heatGrant c first count pool = 0 := by
  unfold Dev.heatGrant
  rcases h with h | h
  · exact if_pos h
  · rw [h]
    dsimp only
    split
    · rfl
    · split
      · rfl
      · exact Nat.zero_min _

/-- What an uncapped container is granted at a temperature. -/
theorem Dev.heatGrant_uncapped {x : Int} (hm : d.mode ≠ .wrap) (hc : d.rd Reg.GAF_HEAT_CAP_CAP c = 0xFFFF) (ht : d.containerTemp first count = some x) :
    d.heatGrant c first count pool = if x ≤ d.rdI Reg.GAF_HEAT_CFG_HEAT_T0 then pool else if d.rdI Reg.GAF_HEAT_CFG_HEAT_T1 ≤ x then 0
      else pool * (d.rdI Reg.GAF_HEAT_CFG_HEAT_T1 - x).toNat / (d.rdI Reg.GAF_HEAT_CFG_HEAT_T1 - d.rdI Reg.GAF_HEAT_CFG_HEAT_T0).toNat := by
  unfold Dev.heatGrant
  rw [ht]
  dsimp only
  rw [if_neg hm, if_pos hc]
  split
  · rfl
  · split
    · rfl
    · next h0 h1 =>
      generalize d.rdI Reg.GAF_HEAT_CFG_HEAT_T0 = a at h0
      generalize d.rdI Reg.GAF_HEAT_CFG_HEAT_T1 = b at h1
      obtain ⟨m, hm⟩ := Int.eq_ofNat_of_zero_le (show 0 ≤ b - x by omega)
      obtain ⟨n, hn⟩ := Int.eq_ofNat_of_zero_le (show 0 ≤ b - a by omega)
      rw [hm, hn, Int.fdiv_eq_ediv_of_nonneg _ (Int.natCast_nonneg n), ← Int.natCast_mul, ← Int.natCast_ediv, Int.toNat_natCast, Int.toNat_natCast, Int.toNat_natCast]

theorem Dev.heatGrant_capped {x : Int} {v : Nat} (hm : d.mode ≠ .wrap) (hc : d.rd Reg.GAF_HEAT_CAP_CAP c = v) (hv : v < pool) (hp : pool < 65536) (ht : d.containerTemp first count = some x)
    (h0 : x ≤ d.rdI Reg.GAF_HEAT_CFG_HEAT_T0) : d.heatGrant c first count pool = v := by
  unfold Dev.heatGrant
  rw [ht]
  dsimp only
  rw [if_neg hm, hc, if_neg (by omega), if_pos h0]
  omega

end

end Sys2Proof.Machine
end

section
/-!
PROOFS. Proofs/Compensation.lean: the compensation, and the restoring of a sensor (R457, R461).
-/
namespace Sys2Proof.Machine

/-! ### Compensation (R461) -/

/-- The fields of the compensation word that a device shows. -/
structure Dev.Compensated (o d : Dev) : Prop where
  amp : d.rd Reg.GAF_COMP_AMP_HOLD = b2n (o.usable 0).isEmpty
  adc : d.rd Reg.GAF_COMP_ADC_HOLD = b2n (o.usable 3).isEmpty
  rtc : d.rd Reg.GAF_COMP_RTC_HOLD = b2n (o.usable 3).isEmpty
  corr : (o.usable 3).map o.sensT ≠ [] →
    d.rd Reg.GAF_COMP_RTC_CORR = code 16 (clampS 16 (rhu (Config.rtcCorrection (rhu (sumI ((o.usable 3).map o.sensT)) ((o.usable 3).map o.sensT).length)) 100000))

/-- The hold bits of the two dies, as the event carries them. -/
theorem hold_bits : ∀ a b : Bool, (b2n a + if b then 6 else 0) % 2 % 2 = b2n a ∧ (b2n a + if b then 6 else 0) / 2 % 2 % 2 = b2n b ∧ (b2n a + if b then 6 else 0) / 4 % 2 = b2n b := by decide

/-- The three hold bits written, each in its place. -/
theorem Dev.rd_wr_holds (d : Dev) (a b c : Nat) :
    let e := ((d.wr Reg.GAF_COMP_AMP_HOLD a).wr Reg.GAF_COMP_ADC_HOLD b).wr Reg.GAF_COMP_RTC_HOLD c
    e.rd Reg.GAF_COMP_AMP_HOLD = a % 2 ∧ e.rd Reg.GAF_COMP_ADC_HOLD = b % 2 ∧ e.rd Reg.GAF_COMP_RTC_HOLD = c % 2 ∧ e.rd Reg.GAF_COMP_RTC_CORR = d.rd Reg.GAF_COMP_RTC_CORR ∧
      e.stReq = d.stReq ∧ Dev.Touches [0x30038] d e := by
  refine ⟨?_, ?_, ?_, ?_, ?_, ?_⟩
  · rw [Dev.rd_wr_apart _ _ _ _ _ _ _ _ (by decide), Dev.rd_wr_apart _ _ _ _ _ _ _ _ (by decide)]
    exact Dev.rd_wr_self d Reg.GAF_COMP_AMP_HOLD a 0 0 (by decide)
  · rw [Dev.rd_wr_apart _ _ _ _ _ _ _ _ (by decide)]
    exact Dev.rd_wr_self _ Reg.GAF_COMP_ADC_HOLD b 0 0 (by decide)
  · exact Dev.rd_wr_self _ Reg.GAF_COMP_RTC_HOLD c 0 0 (by decide)
  · rw [Dev.rd_wr_apart _ _ _ _ _ _ _ _ (by decide), Dev.rd_wr_apart _ _ _ _ _ _ _ _ (by decide), Dev.rd_wr_apart _ _ _ _ _ _ _ _ (by decide)]
  · exact (Dev.wr_stReq _ _ _ _ _).trans ((Dev.wr_stReq _ _ _ _ _).trans (Dev.wr_stReq _ _ _ _ _))
  · exact ((Dev.Touches.wr d a 0 0 (by decide)).trans (Dev.Touches.wr _ b 0 0 (by decide))).trans (Dev.Touches.wr _ c 0 0 (by decide))

theorem Dev.compensate_shown {d : Dev} (hm : d.mainOn = true) : Dev.Compensated d d.compensate ∧ d.compensate.stReq = d.stReq ∧ Dev.Touches [0x30038] d d.compensate := by
  have hm0 : d.mode.stateCode ≠ 0 := fun h => by simp [Dev.mainOn, h] at hm
  unfold Dev.compensate
  rw [if_neg hm0]
  extract_lets logic aux held old ref sg d1 d2 d3
  have h1 : d1.regs = d.regs ∧ d1.stReq = d.stReq := ⟨rfl, rfl⟩
  obtain ⟨hr1, hs1⟩ := h1
  clear_value d1
  have h2 : d2.stReq = d.stReq ∧ Dev.Touches [0x30038] d d2 ∧ (aux ≠ [] → d2.rd Reg.GAF_COMP_RTC_CORR =
      code 16 (clampS 16 (rhu (Config.rtcCorrection (rhu (sumI aux) aux.length)) 100000))) := by
    simp only [d2]
    split
    · next he => exact ⟨hs1, .of_regs hr1, fun hn => absurd (List.isEmpty_iff.1 he) hn⟩
    · refine ⟨(Dev.wrI_stReq _ _ _ _ _).trans hs1, (Dev.Touches.of_regs hr1).trans (Dev.Touches.wr _ _ 0 0 (by decide)), fun _ => ?_⟩
      exact (Dev.rd_wr_self _ Reg.GAF_COMP_RTC_CORR _ 0 0 (by decide)).trans (Nat.mod_eq_of_lt (code_lt 16 _))
  obtain ⟨hs2, ht2, hc2⟩ := h2
  clear_value d2
  obtain ⟨ha, hb, hc, hk, hs3, ht3⟩ := d2.rd_wr_holds (held % 2) (held / 2 % 2) (held / 4)
  replace ha : d3.rd Reg.GAF_COMP_AMP_HOLD = held % 2 % 2 := ha
  replace hb : d3.rd Reg.GAF_COMP_ADC_HOLD = held / 2 % 2 % 2 := hb
  replace hc : d3.rd Reg.GAF_COMP_RTC_HOLD = held / 4 % 2 := hc
  replace hk : d3.rd Reg.GAF_COMP_RTC_CORR = d2.rd Reg.GAF_COMP_RTC_CORR := hk
  replace hs3 : d3.stReq = d2.stReq := hs3
  replace ht3 : Dev.Touches [0x30038] d2 d3 := ht3
  clear_value d3
  have hl : b2n logic.isEmpty = b2n (d.usable 0).isEmpty := by simp only [logic, List.isEmpty_map]
  have hx : aux.isEmpty = (d.usable 3).isEmpty := by simp only [aux, List.isEmpty_map]
  have hheld : held = b2n (d.usable 0).isEmpty + if (d.usable 3).isEmpty then 6 else 0 := by
    simp only [held]
    rw [hl, hx]
  have hp : d3.Posts (if (held &&& (7 - old)) ≠ 0 then d3.raise Ev.GAF_COMP_HOLD 0 held else d3) := .ite _ (.raise _ _ _ _ (by decide)) (.refl d3)
  generalize (if (held &&& (7 - old)) ≠ 0 then d3.raise Ev.GAF_COMP_HOLD 0 held else d3) = e at hp
  obtain ⟨b0, b1, b2⟩ := hold_bits (d.usable 0).isEmpty (d.usable 3).isEmpty
  refine ⟨⟨?_, ?_, ?_, fun hn => ?_⟩, hp.stReq.trans (hs3.trans hs2), (ht2.trans ht3).trans (hp.touches _)⟩
  · rw [hp.rd (by decide) (by decide), ha, hheld, b0]
  · rw [hp.rd (by decide) (by decide), hb, hheld, b1]
  · rw [hp.rd (by decide) (by decide), hc, hheld, b2]
  · rw [hp.rd (by decide) (by decide), hk, hc2 hn]

section
variable {s : State} {t req : Nat} {k : Fin 32}

theorem ends_compensation (hm : s.dev.mainOn = true) : Ends (.compensationUpdate t) s fun d => Dev.Compensated s.dev d ∧ s.dev.OnlyWrites d [0x30038] := by
  refine ends_of (exec_compensationUpdate t s) ?_
  obtain ⟨⟨h1, h2, h3, h4⟩, hst, ht⟩ := Dev.compensate_shown (d := begin_ t s.dev) hm
  refine ⟨⟨?_, ?_, ?_, fun hn => ?_⟩, ht.settle hst⟩
  · exact (settle_rd_clear _ _ hst _ _ _ (by decide) (by decide)).trans h1
  · exact (settle_rd_clear _ _ hst _ _ _ (by decide) (by decide)).trans h2
  · exact (settle_rd_clear _ _ hst _ _ _ (by decide) (by decide)).trans h3
  · exact (settle_rd_clear _ _ hst _ _ _ (by decide) (by decide)).trans (h4 hn)

/-! ### An excluded sensor restored (R457) -/

theorem inert_sensCtrl : ((fieldsAt 0x31100).all fun f => !f.stores 0x31100) = true := by decide

theorem Dev.afterWrite_restore (d : Dev) {v : Nat} (h : bitAt v 8 = true) : d.afterWrite req 0x31100 v = d.sensRestore (v % 32) := by
  unfold Dev.afterWrite Dev.boardWrite
  simp [h]

theorem ends_gafSensRestore (hok : s.dev.Takes req) (he : s.dev.rd Reg.GAF_SENS_EXCL k = 1) :
    Ends (.gafSensRestore t req k) s fun d => d.rd Reg.GAF_SENS_EXCL k = 0 ∧ d.sensor k = {} ∧ d.out = [.status req 0] := by
  have hv : (BitVec.ofNat 32 (k + 2 ^ 8)).toNat = k + 256 := by
    have hk := k.isLt
    exact (BitVec.toNat_ofNat _ _).trans (Nat.mod_eq_of_lt (by omega))
  have hbit : bitAt (k + 256) 8 = true := (by decide : ∀ k : Fin 32, bitAt (k + 256) 8 = true) k
  have hmod : (k.val + 256) % 32 = k := by omega
  refine ends_hostWrite (exec_gafSensRestore t req k s) hok (by decide) ?_
  have hd := Dev.begins_storeWord t s.dev (BitVec.ofNat 32 (k + 2 ^ 8)).toNat (off := 0x31100) (by decide) inert_sensCtrl
  rw [hv] at hd ⊢
  rw [Dev.afterWrite_restore _ hbit, hmod]
  generalize (begin_ t s.dev).storeWord true 0x31100 (k + 256) = d at hd
  have hx : d.rd Reg.GAF_SENS_EXCL k = 1 := (Dev.rd_congr (hd.word _)).trans he
  have hE : Reg.GAF_SENS_EXCL.has k 0 = true := Field.has_of k.isLt (by decide)
  unfold Dev.sensRestore
  rw [if_neg (by simp [Dev.sensOk, Dev.on, hx])]
  have hs : (d.setSensor k {}).sensor k = {} := by
    exact Tbl.get_set_self d.gaf.sens k.val ({} : Sensor) {}
  have hst : (d.setSensor k {}).stReq = [] := hd.stReq
  have hout : (d.setSensor k {}).out = [] := hd.out
  generalize d.setSensor k {} = e at hs hst hout
  have hc : (e.clr Reg.GAF_SENS_EXCL k).rd Reg.GAF_SENS_EXCL k = 0 := Dev.rd_wr_self e Reg.GAF_SENS_EXCL 0 k 0 (by decide)
  have hg : (e.clr Reg.GAF_SENS_EXCL k).gaf = e.gaf := Dev.clr_gaf _ _ _ _
  have hcs : (e.clr Reg.GAF_SENS_EXCL k).stReq = [] := (Dev.clr_stReq _ _ _ _).trans hst
  have hco : (e.clr Reg.GAF_SENS_EXCL k).out = [] := (Dev.clr_out _ _ _ _).trans hout
  generalize e.clr Reg.GAF_SENS_EXCL k = f at hc hg hcs hco
  have hp := Dev.Posts.raise f Ev.GAF_SENSOR_RESTORED k 0 (by decide)
  generalize f.raise Ev.GAF_SENSOR_RESTORED k 0 = x at hp
  have hxs := hp.stReq.trans hcs
  refine ⟨?_, ?_, ?_⟩
  · rw [Dev.rd_settle_emit _ _ _ hxs hE (by decide), hp.rd hE (by decide), hc]
  · unfold Dev.sensor at hs ⊢
    rw [settle_gaf _ _ (show (x.emit (.status req 0)).stReq = [] from hxs), Dev.emit_gaf, hp.gaf, hg, hs]
  · rw [settle_emit_out _ _ _ hxs, hp.out, hco]
    rfl

end

end Sys2Proof.Machine
end

section
/-!
PROOFS. Proofs/DieSensors.lean: the samples of the die sensors, the levels of the dies, and the statement on the Gaffer (R453 to R462).
-/
namespace Sys2Proof.Machine

/-! ### What the levels of the dies leave -/

/-- A step that writes only elements of the given fields and leaves the state, the pins and the set of warm dies. -/
structure Dev.Warms (l : List Field) (d e : Dev) : Prop where
  within : Dev.Within l d e
  warn : e.gaf.warn = d.gaf.warn

namespace Dev.Warms
variable {l : List Field} {d e x : Dev}

theorem refl (l : List Field) (d : Dev) : Dev.Warms l d d := ⟨.refl l d, rfl⟩

theorem trans (h : Dev.Warms l d e) (k : Dev.Warms l e x) : Dev.Warms l d x := ⟨h.within.trans k.within, k.warn.trans h.warn⟩

theorem mono {m : List Field} (h : Dev.Warms l d e) (hs : l ⊆ m) : Dev.Warms m d e := ⟨h.within.mono hs, h.warn⟩

theorem ite {a b : Dev} (c : Prop) [Decidable c] (ha : Dev.Warms l d a) (hb : Dev.Warms l d b) : Dev.Warms l d (if c then a else b) := by
  split
  · exact ha
  · exact hb

theorem wr {f : Field} (d : Dev) (v : Nat) {i j : Nat} (hj : f.has i j = true) (h : f ∈ l) : Dev.Warms l d (d.wr f v i j) := ⟨.wr d v hj h, by rw [Dev.wr_gaf]⟩

theorem posts (h : d.Posts e) : Dev.Warms l d e := ⟨h.within l, by rw [h.gaf]⟩

theorem raise (d : Dev) (ev : Ev) (inst data : Nat) (h : ev.sev < 5) : Dev.Warms l d (d.raise ev inst data) := posts (.raise d ev inst data h)

/-- The rest of the Gaffer's state changed. -/
theorem gaf (d : Dev) (g : Gaf) (h : g.warn = d.gaf.warn) : Dev.Warms l d { d with gaf := g } := ⟨.of_same (by simp [Dev.Spares]) rfl, h⟩

theorem gafRaise (d : Dev) (g : Gaf) (h : g.warn = d.gaf.warn) (ev : Ev) (inst data : Nat) (hs : ev.sev < 5) : Dev.Warms l d ({ d with gaf := g }.raise ev inst data) :=
  (gaf d g h).trans (raise _ ev inst data hs)

theorem foldl {β : Type} {f : Dev → β → Dev} (bs : List β) (hf : ∀ (x : Dev) b, b ∈ bs → Dev.Warms l x (f x b)) (d : Dev) : Dev.Warms l d (bs.foldl f d) := by
  induction bs generalizing d with
  | nil => exact refl l d
  | cons b bs ih => exact (hf d b List.mem_cons_self).trans (ih (fun x c hc => hf x c (List.mem_cons_of_mem _ hc)) (f d b))

end Dev.Warms

theorem Dev.switchGo_gaf (d : Dev) (lead : Nat) (cause : Option Nat) : (d.switchGo lead cause).gaf = d.gaf := by
  rcases d.switchGo_cases lead cause with ⟨st, h⟩ | ⟨k, pay, h⟩
  · rw [h, Dev.wr_gaf]
  · rw [h, Dev.peerSend_gaf]
    unfold Dev.switching
    extract_lets e src f
    have hf : f.gaf = e.gaf := rfl
    clear_value f
    rw [Dev.wr_gaf, Dev.set1_gaf, hf]
    exact Dev.wr_gaf _ _ _ _ _

theorem Dev.warms_askWrap (d : Dev) (cause : Nat) : Dev.Warms askFields d (d.askWrap cause) := by
  refine ⟨d.within_askWrap cause, ?_⟩
  unfold Dev.askWrap
  extract_lets e
  have he : e.gaf.warn = d.gaf.warn := by
    simp only [e]
    split
    · rw [d.switchGo_gaf]
    · rfl
  clear_value e
  split
  · unfold Dev.wrapAgain
    split
    · rfl
    next w _ =>
      extract_lets lim endAt ev b g f
      have hb : b.gaf = d.gaf := by
        simp only [b]
        rcases hx : d.bbPut 1 ev (d.bbContext 14) with _ | x
        · rfl
        · obtain ⟨p, rfl⟩ := Dev.bbPut_eq hx
          rfl
      have hf : f.gaf.warn = b.gaf.warn := rfl
      clear_value f
      rw [Dev.wr_gaf, hf, hb]
  · split
    · rfl
    · split
      · exact he
      · rfl

/-- The fields that the levels of the dies write. -/
def levelFields : List Field := [Reg.GAF_STATUS_THR_REQ, Reg.GAF_STATUS_THR_ENF, Reg.GAF_BUDGET_DISC, Reg.GAF_STATUS_WRAP_STATE] ++ askFields

theorem Dev.warms_ask (d : Dev) (cause : Nat) : Dev.Warms levelFields d (d.askWrap cause) := (d.warms_askWrap cause).mono (List.subset_append_right _ _)

theorem Dev.warms_graceOut (d : Dev) : Dev.Warms levelFields d d.graceOut := by
  unfold Dev.graceOut
  split
  · exact .refl _ d
  refine .ite _ (.refl _ d) ?_
  extract_lets sg e disc s1 s2 f
  have he : Dev.Warms levelFields d e := .gaf d _ rfl
  clear_value e
  have h1 : Dev.Warms levelFields e s1 := (Dev.Warms.wr e 1 (by decide) (by simp [levelFields])).trans (.wr _ disc (by decide) (by simp [levelFields]))
  have hg1 : s1.gaf = e.gaf := (Dev.wr_gaf _ _ _ _ _).trans (Dev.set1_gaf _ _ _ _)
  clear_value s1
  have hf : Dev.Warms levelFields s1 f := .gaf s1 _ (by rw [hg1])
  exact .ite _ he (((he.trans h1).trans hf).trans (.raise f _ _ _ (by decide)))

theorem Dev.warms_wrapLevel (d : Dev) : Dev.Warms levelFields d d.wrapLevel := by
  unfold Dev.wrapLevel
  split
  · exact .gaf d _ rfl
  next a b _ =>
    extract_lets first g e
    have he : Dev.Warms levelFields d e := .ite _ (.gafRaise d { d.gaf with wrapStand := true } rfl Ev.GAF_TEMP_WRAP _ _ (by decide)) (.refl _ d)
    clear_value e
    exact he.trans (.ite _ (e.warms_ask 3) (.refl _ e))

theorem Dev.warms_sensorsLost (d : Dev) : Dev.Warms levelFields d d.sensorsLost := by
  unfold Dev.sensorsLost
  refine Dev.Warms.foldl _ (fun x die _ => ?_) d
  extract_lets n gone first g e
  refine .ite _ (.gaf x _ rfl) ?_
  have he : Dev.Warms levelFields x e := .ite _ (.gafRaise x { x.gaf with lost := die :: x.gaf.lost } rfl Ev.GAF_SENSORS_LOST _ _ (by decide)) (.refl _ x)
  clear_value e
  exact he.trans (.ite _ (e.warms_ask 7) (.refl _ e))

/-- The start of an immediate shutdown, which is under way after it. -/
theorem Dev.warms_immStart {d : Dev} (cause : Nat) (hm : d.mainOn = true) (hh : d.mode ≠ .halt) :
    Dev.Warms levelFields d (d.immStart cause) ∧ (d.immStart cause).gaf.immediate.isSome = true ∧ (d.immStart cause).mainOn = true := by
  rcases hi : d.gaf.immediate with _ | i
  · have hp := Dev.immStart_posts (cause := cause) hi hm hh
    have hw : Dev.Warms levelFields d (d.withdrawing cause) := (Dev.Warms.gaf d { d.gaf with immediate := some (cause, 0, d.cyc) } rfl).trans (.wr _ 4 (by decide) (by simp [levelFields]))
    have ht := hw.trans (.posts hp)
    refine ⟨ht, by rw [hp.gaf, d.withdrawing_gaf]; rfl, ?_⟩
    unfold Dev.mainOn
    rw [ht.within.mode]
    exact hm
  · have he : d.immStart cause = d := by
      unfold Dev.immStart
      rw [if_pos (by simp [hi])]
    rw [he]
    exact ⟨.refl _ d, by rw [hi]; rfl, hm⟩

theorem Dev.warms_hwSample {d : Dev} (hm : d.mainOn = true) : Dev.Warms levelFields d d.hwSample := by
  unfold Dev.hwSample
  extract_lets hot both g e
  have he : Dev.Warms levelFields d e := .gaf d _ rfl
  have hme : e.mainOn = true := hm
  clear_value e both
  split
  next k _ =>
    refine he.trans ?_
    unfold Dev.hwFire
    split
    · exact .refl _ e
    next hno =>
      have hh : e.mode ≠ .halt := fun h => hno (by simp [h])
      have hw : Dev.Warms levelFields e { e with gaf := { e.gaf with hwAt := some e.own } } := .gaf e _ rfl
      obtain ⟨h1, h2, h3⟩ := Dev.warms_immStart (d := { e with gaf := { e.gaf with hwAt := some e.own } }) 3 hme hh
      exact (hw.trans h1).trans (.posts (Dev.Posts.of_evKeeps (Dev.evKeeps_raise _ _ _ _) (Dev.stReq_raise_shutdown _ _ _ (by decide) h2 h3)))
  · exact he

/-! ### The warm dies (R458) -/

/-- What the warn level of the dies shows. -/
structure Dev.WarnShown (d e : Dev) : Prop where
  warn : ∀ die, die < 4 → (die ∈ e.gaf.warn ↔ ∃ y, d.dieTemp die = some y ∧ (d.rdI Reg.GAF_THERM_T_WARN ≤ y ∨ die ∈ d.gaf.warn ∧ d.rdI Reg.GAF_THERM_T_WARN - 500 ≤ y))
  thermN : e.pins.thermN = e.gaf.warn.isEmpty
  alert : e.rd Reg.GAF_STATUS_ALERT = b2n (!e.gaf.warn.isEmpty)
  writes : Dev.Writes (Reg.GAF_STATUS_ALERT :: levelFields) d e
  stReq : e.stReq = d.stReq
  mode : e.mode = d.mode

theorem Dev.WarnShown.warms {d e x : Dev} (h : d.WarnShown e) (k : Dev.Warms levelFields e x) : d.WarnShown x := by
  have hpins : x.pins = e.pins := k.within.spares.2.2.2.2.2.2.2.2
  refine ⟨?_, by rw [hpins, k.warn, h.thermN], ?_, h.writes.trans (k.within.writes.mono (List.subset_cons_self _ _)), k.within.stReq.trans h.stReq, k.within.mode.trans h.mode⟩
  · rw [k.warn]
    exact h.warn
  · rw [k.within.rd (by decide) (by decide), k.warn, h.alert]

/-- A die in the set of warm dies, with its hysteresis. -/
theorem mem_warm {f : Nat → Option Int} {old : List Nat} {t : Int} {p : Nat → Bool} (hp : ∀ die, p die = true ↔ ∃ y, f die = some y ∧ (t ≤ y ∨ die ∈ old ∧ t - 500 ≤ y)) {die : Nat} (h : die < 4) :
    die ∈ [0, 1, 2, 3].filter p ↔ ∃ y, f die = some y ∧ (t ≤ y ∨ die ∈ old ∧ t - 500 ≤ y) := by
  rw [List.mem_filter, hp]
  refine ⟨And.right, fun hy => ⟨?_, hy⟩⟩
  simp only [List.mem_cons, List.not_mem_nil, or_false]
  omega

theorem Dev.warnLevel_shown (d : Dev) : d.WarnShown d.warnLevel := by
  unfold Dev.warnLevel
  extract_lets t old now s1 g p d1 hs d2 s3 g3 d3 s4
  have hnow : ∀ die, die < 4 → (die ∈ now ↔ ∃ y, d.dieTemp die = some y ∧ (t ≤ y ∨ die ∈ old ∧ t - 500 ≤ y)) := fun die h => by
    refine mem_warm (fun k => ?_) h
    rcases d.dieTemp k with _ | y <;> simp [and_comm]
  clear_value now
  have h1 : d.WarnShown d1 := by
    have ha : s1.rd Reg.GAF_STATUS_ALERT = b2n (!now.isEmpty) := (Dev.rd_wr_self d Reg.GAF_STATUS_ALERT _ 0 0 (by decide)).trans (by cases now.isEmpty <;> rfl)
    have hw : Dev.Writes (Reg.GAF_STATUS_ALERT :: levelFields) d s1 := Dev.Writes.wr d _ (by decide) (by simp)
    have hs : s1.stReq = d.stReq := Dev.wr_stReq _ _ _ _ _
    have hm : s1.mode = d.mode := Dev.wr_mode _ _ _ _ _
    clear_value s1
    have hregs : d1.regs = s1.regs := rfl
    exact ⟨hnow, rfl, (Dev.rd_congr (Dev.word_congr hregs _)).trans ha, hw.trans (Dev.Writes.of_regs hregs), hs, hm⟩
  clear_value d1
  have h2 : Dev.Warms levelFields d1 d2 := .ite _ (.raise d1 _ _ _ (by decide)) (.refl _ d1)
  clear_value d2
  have h3 : Dev.Warms levelFields d2 d3 := by
    have hs : Dev.Warms levelFields d2 s3 := .wr d2 1 (by decide) (by simp [levelFields])
    have hg : s3.gaf = d2.gaf := Dev.set1_gaf _ _ _ _
    clear_value s3
    exact hs.trans (.gaf s3 _ (by rw [hg]))
  clear_value d3
  have h4 : Dev.Warms levelFields d2 s4 := .wr d2 0 (by decide) (by simp [levelFields])
  have hg4 : s4.gaf = d2.gaf := Dev.clr_gaf _ _ _ _
  clear_value s4
  refine h1.warms (h2.trans (.ite _ ((h3.trans (.raise d3 _ _ _ (by decide))).trans (Dev.warms_graceOut _)) (.ite _ (h4.trans (.gaf s4 _ ?_)) (.refl _ d2))))
  rw [hg4]

/-! ### A sample (R457 to R459) -/

/-- The readings kept at the end of a sample. -/
def sampleFields : List Field := [Reg.GAF_SENS_EXCL, Reg.GAF_SENS_WRAP_LVL]

theorem Dev.warms_sensCheck (d : Dev) {k : Nat} (h : k < 32) : Dev.Warms sampleFields d (d.sensCheck k) := by
  have hset : ∀ (x : Dev) (v : Sensor), Dev.Warms sampleFields x (x.setSensor k v) := fun x v => .gaf x _ rfl
  unfold Dev.sensCheck
  refine .ite _ (.refl _ d) ?_
  extract_lets nb x m since
  refine .ite _ (hset d _) (.ite _ (hset d _) (.ite _ ?_ (hset d _)))
  exact ((hset d {}).trans (.wr _ 1 (Field.has_of h (by decide)) (by decide))).trans (.raise _ _ _ _ (by decide))

theorem Dev.warms_sensWrap (d : Dev) {k : Nat} (h : k < 32) : Dev.Warms sampleFields d (d.sensWrap k) := by
  unfold Dev.sensWrap
  extract_lets lim hot x nb cnt
  have hset : Dev.Warms sampleFields d (d.setSensor k { x with wrap0 := cnt 0 x.wrap0, wrap1 := cnt 1 x.wrap1, wrap2 := cnt 2 x.wrap2 }) := .gaf d _ rfl
  exact hset.trans (.wr _ _ (Field.has_of h (by decide)) (by decide))

/-- The readings of a sample written. -/
def Dev.readings (d : Dev) (temps : List Int) (l : List Nat) : Dev := l.foldl (fun (d : Dev) k => d.wrI Reg.GAF_SENS_T (temps.getD k 0) k) d

theorem Dev.readings_shown (temps : List Int) (l : List Nat) (d : Dev) (hl : ∀ k ∈ l, k < 32) :
    Dev.Warms [Reg.GAF_SENS_T] d (d.readings temps l) ∧
    ∀ j, d.rd Reg.GAF_SENS_T j = code 16 (temps.getD j 0) ∨ j ∈ l → (d.readings temps l).rd Reg.GAF_SENS_T j = code 16 (temps.getD j 0) := by
  induction l generalizing d with
  | nil => exact ⟨.refl _ d, fun j h => h.elim id fun hn => absurd hn List.not_mem_nil⟩
  | cons k l ih =>
    obtain ⟨hw, hr⟩ := ih (d.wrI Reg.GAF_SENS_T (temps.getD k 0) k) fun j hj => hl j (List.mem_cons_of_mem _ hj)
    have hstep : Dev.Warms [Reg.GAF_SENS_T] d (d.wrI Reg.GAF_SENS_T (temps.getD k 0) k) := .wr d _ (Field.has_of (hl k List.mem_cons_self) (by decide)) (by decide)
    refine ⟨hstep.trans hw, fun j hj => hr j ?_⟩
    by_cases hjk : j = k
    · subst hjk
      exact .inl ((Dev.rd_wr_self d Reg.GAF_SENS_T _ j 0 (by decide)).trans (Nat.mod_eq_of_lt (code_lt 16 _)))
    · refine hj.elim (fun h => .inl ?_) fun h => .inr ((List.mem_cons.1 h).resolve_left hjk)
      exact (Dev.rd_wr_ne _ _ _ _ _ _ _ _ (by simp only [Field.addr, Reg.GAF_SENS_T]; omega)).trans h

/-- A device whose readings and exclusions stand has the same die temperatures. -/
theorem Dev.dieTemp_congr {d e : Dev} (ht : ∀ j, j < 32 → e.rd Reg.GAF_SENS_T j = d.rd Reg.GAF_SENS_T j) (hx : ∀ j, j < 32 → e.rd Reg.GAF_SENS_EXCL j = d.rd Reg.GAF_SENS_EXCL j) (die : Nat) :
    e.dieTemp die = d.dieTemp die := by
  have hdie : ∀ k ∈ dieSensors die, k < 32 := by
    unfold dieSensors
    split <;> simp [List.mem_range]
    omega
  have hu : e.usable die = d.usable die := List.filter_congr fun k hk => by
    unfold Dev.sensOk Dev.on
    rw [hx k (hdie k hk)]
  unfold Dev.dieTemp
  rw [hu]
  congr 1
  refine List.map_congr_left fun k hk => Dev.rdI_congr (ht k (hdie k (List.mem_of_mem_filter hk)))

theorem maxI_mem {l : List Int} {x : Int} (h : maxI l = some x) : x ∈ l := by
  cases l with
  | nil => cases h
  | cons a l =>
    have hx : l.foldl max a = x := by simpa [maxI] using h
    have hgen : ∀ (l : List Int) (a : Int), l.foldl max a = a ∨ l.foldl max a ∈ l := by
      intro l
      induction l with
      | nil => exact fun a => .inl rfl
      | cons b l ih =>
        intro a
        rcases ih (max a b) with h | h
        · rcases max_choice a b with hm | hm
          · exact .inl (h.trans hm)
          · exact .inr (List.mem_cons.2 (.inl (h.trans hm)))
        · exact .inr (List.mem_cons_of_mem _ h)
    rcases hgen l a with hm | hm
    · exact List.mem_cons.2 (.inl (hx.symm.trans hm))
    · exact List.mem_cons_of_mem _ (hx ▸ hm)

/-- A die temperature fits its register. -/
theorem Dev.dieTemp_bounds (d : Dev) (die : Nat) : -(2 ^ 15 : Int) ≤ (d.dieTemp die).getD 0 ∧ (d.dieTemp die).getD 0 < 2 ^ 15 := by
  rcases h : d.dieTemp die with _ | x
  · simp
  · obtain ⟨k, -, rfl⟩ := List.mem_map.1 (maxI_mem h)
    have hb := sx_bounds (w := 16) (by decide) (d.rd Reg.GAF_SENS_T k)
    exact ⟨Int.le_trans (by decide) hb.1, Int.lt_of_lt_of_le hb.2 (by decide)⟩

end Sys2Proof.Machine
end

section
/-!
PROOFS. Proofs/Gaffer.lean: a sample of the die sensors, and the statement on the Gaffer (R453 to R462).
-/
namespace Sys2Proof.Machine

/-- The die temperatures shown. -/
def Dev.diesShown (d : Dev) : Dev :=
  (((d.wrI Reg.GAF_DIE_T0_LOGIC ((d.dieTemp 0).getD 0)).wrI Reg.GAF_DIE_T0_DRAM ((d.dieTemp 1).getD 0)).wrI Reg.GAF_DIE_T1_NVM ((d.dieTemp 2).getD 0)).wrI Reg.GAF_DIE_T1_WATCH ((d.dieTemp 3).getD 0)

def dieFields : List Field := [Reg.GAF_DIE_T0_LOGIC, Reg.GAF_DIE_T0_DRAM, Reg.GAF_DIE_T1_NVM, Reg.GAF_DIE_T1_WATCH]

theorem Dev.diesShown_shown (d : Dev) :
    Dev.Warms dieFields d d.diesShown ∧ d.diesShown.rdI Reg.GAF_DIE_T0_LOGIC = (d.dieTemp 0).getD 0 ∧ d.diesShown.rdI Reg.GAF_DIE_T1_WATCH = (d.dieTemp 3).getD 0 := by
  have hb := d.dieTemp_bounds
  unfold Dev.diesShown
  refine ⟨?_, ?_, ?_⟩
  · exact (((Dev.Warms.wr d _ (by decide) (by decide)).trans (.wr _ _ (by decide) (by decide))).trans (.wr _ _ (by decide) (by decide))).trans (.wr _ _ (by decide) (by decide))
  · have h1 := Dev.rdI_wrI_self d Reg.GAF_DIE_T0_LOGIC 0 0 (by decide) (by decide) (hb 0).1 (hb 0).2
    generalize d.wrI Reg.GAF_DIE_T0_LOGIC ((d.dieTemp 0).getD 0) = e at h1
    refine (Dev.rdI_congr ?_).trans h1
    exact (Dev.rd_wr_apart _ _ _ _ _ _ _ _ (by decide)).trans ((Dev.rd_wr_apart _ _ _ _ _ _ _ _ (by decide)).trans (Dev.rd_wr_apart _ _ _ _ _ _ _ _ (by decide)))
  · exact Dev.rdI_wrI_self _ Reg.GAF_DIE_T1_WATCH 0 0 (by decide) (by decide) (hb 3).1 (hb 3).2

/-- The readings of a sample, their checks and the temperatures of the dies. -/
def Dev.sampled (d : Dev) (temps : List Int) : Dev :=
  (((List.range 32).foldl (fun (d : Dev) k => d.sensWrap k) ((List.range 32).foldl (fun (d : Dev) k => d.sensCheck k) (d.readings temps (List.range 32))))).diesShown

/-- The fields up to the temperatures of the dies. -/
def sampledFields : List Field := Reg.GAF_SENS_T :: sampleFields ++ dieFields

theorem Dev.sampled_shown (d : Dev) (temps : List Int) : Dev.Warms sampledFields d (d.sampled temps) ∧
    (∀ j, j < 32 → (d.sampled temps).rd Reg.GAF_SENS_T j = code 16 (temps.getD j 0)) ∧
    (d.sampled temps).rdI Reg.GAF_DIE_T0_LOGIC = ((d.sampled temps).dieTemp 0).getD 0 ∧ (d.sampled temps).rdI Reg.GAF_DIE_T1_WATCH = ((d.sampled temps).dieTemp 3).getD 0 := by
  have hlt : ∀ k ∈ List.range 32, k < 32 := fun k => List.mem_range.1
  unfold Dev.sampled
  obtain ⟨hw1, hr1⟩ := Dev.readings_shown temps (List.range 32) d hlt
  generalize d.readings temps (List.range 32) = a at hw1 hr1
  have hw2 : Dev.Warms sampleFields a ((List.range 32).foldl (fun (d : Dev) k => d.sensCheck k) a) := Dev.Warms.foldl _ (fun x k hk => x.warms_sensCheck (hlt k hk)) a
  generalize (List.range 32).foldl (fun (d : Dev) k => d.sensCheck k) a = b at hw2
  have hw3 : Dev.Warms sampleFields b ((List.range 32).foldl (fun (d : Dev) k => d.sensWrap k) b) := Dev.Warms.foldl _ (fun x k hk => x.warms_sensWrap (hlt k hk)) b
  generalize (List.range 32).foldl (fun (d : Dev) k => d.sensWrap k) b = c at hw3
  obtain ⟨hw4, hl, hx⟩ := c.diesShown_shown
  generalize c.diesShown = e at hw4 hl hx
  have hdie : ∀ die, e.dieTemp die = c.dieTemp die := Dev.dieTemp_congr (fun j hj => hw4.within.rd (Field.has_of hj (by decide)) (by decide))
    (fun j hj => hw4.within.rd (Field.has_of hj (by decide)) (by decide))
  refine ⟨?_, fun j hj => ?_, by rw [hl, hdie], by rw [hx, hdie]⟩
  · exact (((hw1.mono (by simp [sampledFields])).trans (hw2.mono (by simp [sampledFields, sampleFields]))).trans (hw3.mono (by simp [sampledFields, sampleFields]))).trans
      (hw4.mono (List.subset_append_right _ _))
  · have hT : Reg.GAF_SENS_T.has j 0 = true := Field.has_of hj (by decide)
    rw [hw4.within.rd hT (by decide), hw3.within.rd hT (by decide), hw2.within.rd hT (by decide)]
    exact hr1 j (.inr (List.mem_range.2 hj))

/-- What a sample shows. -/
structure Dev.SampleShown (o : Dev) (temps : List Int) (e : Dev) : Prop where
  readings : ∀ j, j < 32 → e.rd Reg.GAF_SENS_T j = code 16 (temps.getD j 0)
  logic : e.rdI Reg.GAF_DIE_T0_LOGIC = (e.dieTemp 0).getD 0
  watch : e.rdI Reg.GAF_DIE_T1_WATCH = (e.dieTemp 3).getD 0
  warm : o.reel.isSome = true → e.rd Reg.GAF_STATUS_ALERT = b2n (!e.gaf.warn.isEmpty) ∧ e.pins.thermN = e.gaf.warn.isEmpty ∧
    ∀ die, die < 4 → (die ∈ e.gaf.warn ↔ ∃ y, e.dieTemp die = some y ∧ (o.rdI Reg.GAF_THERM_T_WARN ≤ y ∨ die ∈ o.gaf.warn ∧ o.rdI Reg.GAF_THERM_T_WARN - 500 ≤ y))

theorem Dev.sensSample_eq {d : Dev} {temps : List Int} (hl : temps.length = 32) (hm : d.mainOn = true) :
    d.sensSample temps = (if (d.sampled temps).reel.isSome then (d.sampled temps).warnLevel.wrapLevel else d.sampled temps).sensorsLost.hwSample := by
  have hm0 : d.mode.stateCode ≠ 0 := fun h => by simp [Dev.mainOn, h] at hm
  unfold Dev.sensSample
  rw [if_neg (by simp [hl, hm0])]
  rfl

theorem Dev.sensSample_shown {d : Dev} {temps : List Int} (hl : temps.length = 32) (hm : d.mainOn = true) : Dev.SampleShown d temps (d.sensSample temps) ∧ (d.sensSample temps).stReq = d.stReq := by
  rw [Dev.sensSample_eq hl hm]
  obtain ⟨hw, hr, hlo, hwa⟩ := d.sampled_shown temps
  generalize d.sampled temps = a at hw hr hlo hwa
  have hreel : a.reel = d.reel := hw.within.reel
  have hT : ∀ j, j < 32 → Reg.GAF_SENS_T.has j 0 = true := fun j hj => Field.has_of hj (by decide)
  have hX : ∀ j, j < 32 → Reg.GAF_SENS_EXCL.has j 0 = true := fun j hj => Field.has_of hj (by decide)
  -- What the levels leave of the readings.
  have hend : ∀ x : Dev, Dev.Writes (Reg.GAF_STATUS_ALERT :: levelFields) a x → x.mode = a.mode → x.stReq = a.stReq →
      (d.reel.isSome = true → a.WarnShown x) → Dev.SampleShown d temps x.sensorsLost.hwSample ∧ x.sensorsLost.hwSample.stReq = d.stReq := by
    intro x hwr hmode hst hshown
    have hmx : x.sensorsLost.mainOn = true := by
      unfold Dev.mainOn
      rw [x.warms_sensorsLost.within.mode, hmode, hw.within.mode]
      exact hm
    have hk := x.warms_sensorsLost.trans (Dev.warms_hwSample hmx)
    generalize x.sensorsLost.hwSample = e at hk
    have hall : Dev.Writes (Reg.GAF_STATUS_ALERT :: levelFields) a e := hwr.trans (hk.within.writes.mono (List.subset_cons_self _ _))
    have hdie := Dev.dieTemp_congr (d := a) (e := e) (fun j hj => hall _ _ _ (hT j hj) (by decide)) (fun j hj => hall _ _ _ (hX j hj) (by decide))
    refine ⟨⟨fun j hj => (hall _ _ _ (hT j hj) (by decide)).trans (hr j hj), ?_, ?_, fun hre => ?_⟩, hk.within.stReq.trans (hst.trans hw.within.stReq)⟩
    · rw [hdie, ← hlo]
      exact Dev.rdI_congr (hall _ _ _ (by decide) (by decide))
    · rw [hdie, ← hwa]
      exact Dev.rdI_congr (hall _ _ _ (by decide) (by decide))
    · have hs := (hshown hre).warms hk
      refine ⟨hs.alert, hs.thermN, fun die hdl => ?_⟩
      rw [hs.warn die hdl, hdie, hw.warn, show a.rdI Reg.GAF_THERM_T_WARN = d.rdI Reg.GAF_THERM_T_WARN from Dev.rdI_congr (hw.within.rd (by decide) (by decide))]
  rcases hre : d.reel with _ | r
  · rw [if_neg (by rw [hreel, hre]; decide)]
    refine hend a (.refl _ a) rfl rfl fun h => ?_
    rw [hre] at h
    cases h
  · rw [if_pos (by rw [hreel, hre]; rfl)]
    have hs := a.warnLevel_shown.warms (Dev.warms_wrapLevel _)
    exact hend _ hs.writes hs.mode hs.stReq fun _ => hs

/-- The ball of the temperature alert is as the command left it. -/
theorem settle_thermN (o d : Dev) (h : d.stReq = []) : (settle o d).pins.thermN = d.pins.thermN := by
  rw [settle_calm o d h, Dev.drivePins_pins, Dev.wr_pins, Dev.scanSafe_pins]
  rfl

/-- The scaled pool lies within the pool. -/
theorem scaled_le {pool a b : Nat} (h : a ≤ b) : pool * a / b ≤ pool := by
  rcases Nat.eq_zero_or_pos b with rfl | hb
  · simp
  · exact Nat.div_le_of_le_mul (by rw [Nat.mul_comm b]; exact Nat.mul_le_mul_left _ h)

section
variable {s : State} {t : Nat} {temps : List Int} {c : Fin 64} {first count pool : Nat}

theorem ends_dieSensorSample (hl : temps.length = 32) (hm : s.dev.mainOn = true) : Ends (.dieSensorSample t temps) s (Dev.SampleShown s.dev temps) := by
  refine ends_of (exec_dieSensorSample t temps s) ?_
  obtain ⟨h, hst⟩ := Dev.sensSample_shown (d := begin_ t s.dev) hl hm
  replace hst : ((begin_ t s.dev).sensSample temps).stReq = [] := hst
  generalize (begin_ t s.dev).sensSample temps = e at h hst
  have hT : ∀ j, j < 32 → (settle s.dev e).rd Reg.GAF_SENS_T j = e.rd Reg.GAF_SENS_T j := fun j hj => settle_rd_clear _ _ hst _ _ _ (Field.has_of hj (by decide)) (by decide)
  have hX : ∀ j, j < 32 → (settle s.dev e).rd Reg.GAF_SENS_EXCL j = e.rd Reg.GAF_SENS_EXCL j := fun j hj => settle_rd_clear _ _ hst _ _ _ (Field.has_of hj (by decide)) (by decide)
  have hdie := Dev.dieTemp_congr hT hX
  have hgaf : (settle s.dev e).gaf = e.gaf := settle_gaf _ _ hst
  refine ⟨fun j hj => (hT j hj).trans (h.readings j hj), ?_, ?_, fun hre => ?_⟩
  · rw [hdie, ← h.logic]
    exact Dev.rdI_congr (settle_rd_clear _ _ hst _ _ _ (by decide) (by decide))
  · rw [hdie, ← h.watch]
    exact Dev.rdI_congr (settle_rd_clear _ _ hst _ _ _ (by decide) (by decide))
  · obtain ⟨ha, ht, hw⟩ := h.warm hre
    refine ⟨?_, ?_, fun die hd => ?_⟩
    · rw [hgaf, settle_rd_clear _ _ hst _ _ _ (by decide) (by decide), ha]
    · rw [hgaf, ← ht]
      exact settle_thermN _ _ hst
    · rw [hgaf, hdie]
      exact hw die hd

/-- The pool that a container is granted. -/
theorem ends_heatPool (hf : s.dev.containers.find? (fun y => y.1 == c.val) = some (c.val, first, count, pool)) {n : Nat} (hn : s.dev.heatGrant c first count pool % 2 ^ 16 = n) :
    Ends (.heatPoolEvaluate t) s fun d => d.rd Reg.GAF_HEAT_POOL_GRANTED c = n := by
  refine ends_of (exec_heatPoolEvaluate t s) ?_
  obtain ⟨hg, hst⟩ := Dev.heatAll_grant (d := begin_ t s.dev) c.isLt hf
  rw [settle_rd_clear _ _ hst _ _ _ (Field.has_of c.isLt (by decide)) (by decide), hg]
  exact hn

/-- The grants of the pools that the statement names. -/
theorem ends_heatPools {v : Nat} {x : Int} (hf : s.dev.containers.find? (fun y => y.1 == c.val) = some (c.val, first, count, pool)) (hp : pool < 65536) :
    let t0 := s.dev.rdI Reg.GAF_HEAT_CFG_HEAT_T0
    let t1 := s.dev.rdI Reg.GAF_HEAT_CFG_HEAT_T1
    let ends (n : Nat) : Prop := Ends (.heatPoolEvaluate t) s fun d => d.rd Reg.GAF_HEAT_POOL_GRANTED c = n
    (s.dev.mode = .wrap ∨ s.dev.containerTemp first count = none → ends 0) ∧
    (s.dev.mode ≠ .wrap → s.dev.rd Reg.GAF_HEAT_CAP_CAP c = 0xFFFF → s.dev.containerTemp first count = some x →
      (x ≤ t0 → ends pool) ∧ (t0 < x → t1 ≤ x → ends 0) ∧ (t0 < x → x < t1 → ends (pool * (t1 - x).toNat / (t1 - t0).toNat))) ∧
    (s.dev.mode ≠ .wrap → s.dev.rd Reg.GAF_HEAT_CAP_CAP c = v → v < pool → s.dev.containerTemp first count = some x → x ≤ t0 → ends v) := by
  intro t0 t1 ends
  refine ⟨fun h => ends_heatPool hf ?none, fun hm hc ht => ⟨fun h0 => ends_heatPool hf ?cool, fun h0 h1 => ends_heatPool hf ?hot, fun h0 h1 => ends_heatPool hf ?between⟩,
    fun hm hc hv ht h0 => ends_heatPool hf ?capped⟩
  case none => exact (congrArg (· % 2 ^ 16) (Dev.heatGrant_none h)).trans rfl
  case cool => rw [Dev.heatGrant_uncapped hm hc ht, if_pos h0]; exact Nat.mod_eq_of_lt hp
  case hot => rw [Dev.heatGrant_uncapped hm hc ht, if_neg (not_le.2 h0), if_pos h1]; rfl
  case between =>
    rw [Dev.heatGrant_uncapped hm hc ht, if_neg (not_le.2 h0), if_neg (not_le.2 h1)]
    exact Nat.mod_eq_of_lt (lt_of_le_of_lt (scaled_le (Int.toNat_le_toNat (by omega))) hp)
  case capped => rw [Dev.heatGrant_capped hm hc hv hp ht h0]; exact Nat.mod_eq_of_lt (hv.trans hp)

end

/-- Settles O55: each command by its rule on the Gaffer's registers; the shutdown of the comparators by the immediate shutdown's. -/
theorem gafferGrantsSensesAndThrottles : Obligations.GafferGrantsSensesAndThrottles := by
  unfold Obligations.GafferGrantsSensesAndThrottles
  intro s t req a v first count pool c k box cap temps x g disc t0 t1 aux
  refine ⟨ends_grantReclaim, ends_gafCap, ends_gafCap_refused, fun hl hm => ?sample, fun hm hh => ⟨fun hk hat hi => ?shut, ends_haltForce hm hh⟩, ends_gafSensRestore,
    ends_throttleGrace, fun he => ⟨ends_throttleStep he, ends_throttleRelease he⟩, fun hm => ?comp, ends_heatPools⟩
  case sample => exact (ends_dieSensorSample hl hm).imp fun _ h => ⟨h.readings, h.logic, h.watch, h.warm⟩
  case shut => exact (ends_hwThermal hm hh hk hat hi).imp fun _ ⟨hat', h⟩ => ⟨hat', h.immediate, h.state, h.tripH, h.tripP, h.mode⟩
  case comp => exact (ends_compensation hm).imp fun _ ⟨h, ho⟩ => ⟨h.amp, h.adc, h.rtc, h.corr, ho⟩

end Sys2Proof.Machine
end

section
/-!
PROOFS. Proofs/RingCycles.lean: what the end of a cycle leaves of the rings and who originates them after it (R114, R116, R132, R135).
-/
namespace Sys2Proof.Machine

/-! ### Who originates a ring -/

/-- A change of a ring's record, after which the rings run on. -/
structure Dev.Relanes (g : Nat) (orig : Bool) (stopped : Nat) (d e : Dev) : Prop where
  rolls : d.Rolls e
  orig : (e.lr g).orig = orig
  stopped : (e.lr g).stopped = stopped
  other : ∀ h, h ≠ g → ((e.lr h).orig, (e.lr h).stopped) = ((d.lr h).orig, (d.lr h).stopped)

section
variable {g n m : Nat} {a b : Bool} {c d e : Dev}

theorem Dev.Relanes.setLr (d : Dev) (g : Nat) (r : LRing) : Dev.Relanes g r.orig r.stopped d (d.setLr g r) :=
  ⟨.setLr d g r, by rw [Dev.lr_setLr], by rw [Dev.lr_setLr], fun h hh => by rw [Dev.lr_setLr_ne d (Ne.symm hh)]⟩

theorem Dev.Relanes.runs (h : Dev.Relanes g a n c d) (k : d.RunsOn e) : Dev.Relanes g a n c e := by
  have hg := Prod.mk.inj (k.lane g)
  exact ⟨h.rolls.trans k.rolls, hg.1.trans h.orig, hg.2.trans h.stopped, fun i hi => (k.lane i).trans (h.other i hi)⟩

theorem Dev.Relanes.trans (h : Dev.Relanes g a n c d) (k : Dev.Relanes g b m d e) : Dev.Relanes g b m c e :=
  ⟨h.rolls.trans k.rolls, k.orig, k.stopped, fun i hi => (k.other i hi).trans (h.other i hi)⟩

end

theorem Dev.RunsOn.ite {d a b : Dev} {c : Prop} [Decidable c] (ha : d.RunsOn a) (hb : d.RunsOn b) : d.RunsOn (if c then a else b) := by
  split
  · exact ha
  · exact hb

theorem Dev.RunsOn.foldl {β : Type} {f : Dev → β → Dev} (l : List β) (hf : ∀ x : Dev, ∀ b ∈ l, x.RunsOn (f x b)) (d : Dev) : d.RunsOn (l.foldl f d) := by
  induction l generalizing d with
  | nil => exact .refl d
  | cons b l ih => exact (hf d b List.mem_cons_self).trans (ih (fun x c hc => hf x c (List.mem_cons_of_mem _ hc)) _)

/-- A write of a field of the links whose word is no port's control word. -/
theorem Dev.RunsOn.wrPort (d : Dev) {f : Field} (v : Nat) {i : Nat} (hb : f.base % 4096 ≠ 0) (h1 : f.s1 % 4096 = 0) : d.RunsOn (d.wr f v i) :=
  .wr d v fun p _ he => by
    have hm : (f.s1 * i) % 4096 = 0 := by rw [Nat.mul_mod, h1, Nat.zero_mul, Nat.zero_mod]
    simp only [Field.addr, Reg.LNK_PORT_CTRL_ENABLE] at he
    omega

theorem Dev.RunsOn.raise (d : Dev) {ev : Ev} (inst data : Nat) (hs : ev.sev < 5) : d.RunsOn (d.raise ev inst data) := .posts (.raise _ _ _ _ hs)

/-- A write of a field whose element is no port's control. -/
theorem Dev.RunsOn.put (d : Dev) {f : Field} (v : Nat) {i j : Nat} (hj : f.has i j = true) (he : Reg.LNK_PORT_CTRL_ENABLE.clearOf [f] = true) : d.RunsOn (d.wr f v i j) :=
  .within (Dev.Within.wr d v hj List.mem_cons_self) (.wr _ _ _ _ _) he

theorem Dev.setOrig_relanes (d : Dev) {g : Nat} (hg : g < 64) (on : Bool) : Dev.Relanes g on (d.lr g).stopped d (d.setOrig g on) := by
  unfold Dev.setOrig
  extract_lets r d1 code d2 d3
  have h1 : Dev.Relanes g on (d.lr g).stopped d d1 := Dev.Relanes.setLr d g { r with orig := on, stopAt := false, absent := false }
  clear_value d1 code
  have h2 : d1.RunsOn d2 := Dev.RunsOn.foldl _ (fun x p _ => .wrPort x _ (by decide) (by decide)) d1
  clear_value d2
  have h3 : d2.RunsOn d3 := .put d2 _ (by decide) (by decide)
  clear_value d3
  have h4 : d3.RunsOn (d3.wr Reg.LNK_RING_STAT_ORIG code g) := .wrPort d3 _ (by decide) (by decide)
  exact h1.runs ((h2.trans h3).trans (.ite (.refl d3) (h4.trans (.raise _ _ _ (by decide)))))

/-! ### The end of a cycle on a ring (R116, R135) -/

/-- The rotations stopped on a ring: those whose ports are not enabled. -/
def Dev.stoppedPorts (d : Dev) (g : Nat) : Nat := b2n (!d.on Reg.LNK_PORT_CTRL_ENABLE (2 * g + 0)) + 2 * b2n (!d.on Reg.LNK_PORT_CTRL_ENABLE (2 * g + 1))

theorem Dev.rollCycle_relanes (d : Dev) {g : Nat} (hg : g < 64) (k : Nat) : ∃ a, Dev.Relanes g a (d.stoppedPorts g) d (d.rollCycle g k) := by
  unfold Dev.rollCycle
  extract_lets r en stopped ok code d0 d1 isLong conf e1 e2 e3
  have hs : stopped = d.stoppedPorts g := rfl
  clear_value stopped
  subst hs
  split
  · exact ⟨_, Dev.Relanes.setLr d g { r with stopped := d.stoppedPorts g }⟩
  have h1 : Dev.Relanes g r.orig (d.stoppedPorts g) d e1 := ⟨.setLr d g _, by rw [Dev.lr_setLr], by rw [Dev.lr_setLr], fun h hh => by rw [Dev.lr_setLr_ne d (Ne.symm hh)]⟩
  clear_value e1
  have h2 : e1.RunsOn e2 := (Dev.RunsOn.wrPort e1 _ (by decide) (by decide)).trans (.wrPort _ _ (by decide) (by decide))
  clear_value e2
  have h3 : e2.RunsOn e3 := .ite (.refl e2) (.wrPort e2 _ (by decide) (by decide))
  have h := h1.runs (h2.trans h3)
  clear_value e3
  split
  · have ho := e3.setOrig_relanes hg false
    rw [h.stopped] at ho
    exact ⟨_, h.trans ho⟩
  · exact ⟨_, h⟩

section
variable (d : Dev) {g : Nat}

theorem Dev.runsOn_ringLong : d.RunsOn (d.ringLong g) := by
  unfold Dev.ringLong
  exact .ite (.refl d) ((Dev.RunsOn.wrPort d 1 (by decide) (by decide)).trans (.raise _ _ _ (by decide)))

theorem Dev.runsOn_ringBreak : d.RunsOn (d.ringBreak g) := by
  unfold Dev.ringBreak
  exact .ite (.refl d) ((((Dev.RunsOn.wrPort d 1 (by decide) (by decide)).trans (.wrPort _ _ (by decide) (by decide))).trans (.wrPort _ _ (by decide) (by decide))).trans (.raise _ _ _ (by decide)))

theorem Dev.runsOn_ringRestored : d.RunsOn (d.ringRestored g) := by
  unfold Dev.ringRestored
  exact .ite ((Dev.RunsOn.wrPort d 0 (by decide) (by decide)).trans (.raise _ _ _ (by decide))) (.refl d)

theorem Dev.runsOn_holdDeadline (cyc addr nt : Nat) : d.RunsOn (d.holdDeadline g cyc addr nt) := by
  unfold Dev.holdDeadline
  extract_lets r d1
  split
  · exact .refl d
  next hn =>
    have ha : addr < 256 := by
      simp only [Bool.or_eq_true, not_or, Option.isNone_iff_eq_none, ← ne_eq] at hn
      exact Reel.node_lt (Option.isSome_iff_ne_none.2 hn.2)
    split
    · next h _ =>
      extract_lets d2 d3
      have h2 : d.RunsOn d2 := .wr d _ fun p _ => by
        simp only [Field.addr, Reg.LNK_PORT_CTRL_ENABLE, Reg.LNK_CNT_DUPMISS_CNT]
        omega
      exact h2.trans (((d2.framesKept_rot g addr _ false ha).trans (d3.framesKept_accept g cyc addr nt _ _)).written_after (Dev.deliver_written _ g cyc addr true nt _ ha)).runs
    · exact (((d.framesKept_rot g addr 0 false ha).trans (Dev.framesKept_rot _ g addr 1 false ha)).trans (d1.framesKept_accept g cyc addr nt none 0)).written_after
        (Dev.missed_written _ g cyc addr nt) |>.runs

theorem Dev.runsOn_deadlines (k : Nat) : d.RunsOn (d.deadlines g k) := by
  unfold Dev.deadlines
  exact .ite (.refl d) (.foldl _ (fun x b _ => x.runsOn_holdDeadline _ _ _) d)

theorem Dev.endCycle_relanes (hg : g < 64) (k : Nat) : ∃ a, Dev.Relanes g a (d.stoppedPorts g) d (d.endCycle g k) := by
  obtain ⟨a, h⟩ := d.rollCycle_relanes hg k
  unfold Dev.endCycle
  exact ⟨a, h.runs ((((Dev.runsOn_ringLong _).trans (Dev.runsOn_ringBreak _)).trans (Dev.runsOn_ringRestored _)).trans (Dev.runsOn_deadlines _ k))⟩

end

theorem Dev.Rolls.stoppedPorts {d e : Dev} (h : d.Rolls e) {g : Nat} (hg : g < 64) : e.stoppedPorts g = d.stoppedPorts g := by
  unfold Dev.stoppedPorts Dev.on
  rw [h.enable _ (by omega), h.enable _ (by omega)]

/-- After the cycle has ended on every ring of a list, the rotations stopped are those whose ports are not enabled. -/
theorem Dev.endCycles_relanes (k : Nat) (l : List Nat) (hl : ∀ g ∈ l, g < 64) (d : Dev) :
    d.Rolls (l.foldl (fun (d : Dev) g => d.endCycle g k) d) ∧ (∀ g, g < 64 → (g ∈ l ∨ (d.lr g).stopped = d.stoppedPorts g) → ((l.foldl (fun (d : Dev) g => d.endCycle g k) d).lr g).stopped = d.stoppedPorts g) := by
  induction l generalizing d with
  | nil => exact ⟨.refl d, fun g _ h => h.elim (fun h => absurd h List.not_mem_nil) id⟩
  | cons x l ih =>
    obtain ⟨a, h⟩ := d.endCycle_relanes (hl x List.mem_cons_self) k
    obtain ⟨hr, hs⟩ := ih (fun g hg => hl g (List.mem_cons_of_mem _ hg)) (d.endCycle x k)
    refine ⟨h.rolls.trans hr, fun g hg hm => ?_⟩
    rw [List.foldl_cons, ← h.rolls.stoppedPorts hg]
    refine hs g hg ?_
    rw [h.rolls.stoppedPorts hg]
    by_cases hx : g = x
    · exact .inr (by rw [hx, h.stopped])
    · rcases hm with hm | hm
      · exact .inl ((List.mem_cons.1 hm).resolve_left hx)
      · exact .inr ((Prod.mk.inj (h.other g hx)).2.trans hm)

/-! ### A single device originates every ring (R114) -/

theorem Dev.Rolls.solo {d e : Dev} (h : d.Rolls e) : e.solo = d.solo := by
  unfold Dev.solo Dev.rl
  rw [h.spares.reel]

/-- A step that has each ring of a list originated, ring by ring. -/
theorem Dev.relanes_foldl {f : Dev → Nat → Dev} (hf : ∀ (x : Dev) g, x.solo = true → g < 64 → Dev.Relanes g true (x.lr g).stopped x (f x g)) (l : List Nat) (hl : ∀ g ∈ l, g < 64)
    (d : Dev) (hs : d.solo = true) : d.Rolls (l.foldl f d) ∧ ∀ g, ((l.foldl f d).lr g).stopped = (d.lr g).stopped ∧ (g ∈ l ∨ (d.lr g).orig = true → ((l.foldl f d).lr g).orig = true) := by
  induction l generalizing d with
  | nil => exact ⟨.refl d, fun g => ⟨rfl, fun h => h.elim (fun h => absurd h List.not_mem_nil) id⟩⟩
  | cons x l ih =>
    have h := hf d x hs (hl x List.mem_cons_self)
    obtain ⟨hr, hk⟩ := ih (fun g hg => hl g (List.mem_cons_of_mem _ hg)) (f d x) (h.rolls.solo.trans hs)
    refine ⟨h.rolls.trans hr, fun g => ?_⟩
    obtain ⟨hstop, horig⟩ := hk g
    by_cases hx : g = x
    · subst hx
      exact ⟨hstop.trans h.stopped, fun _ => horig (.inr h.orig)⟩
    · obtain ⟨ho, hst⟩ := Prod.mk.inj (h.other g hx)
      exact ⟨hstop.trans hst, fun hm => horig (hm.imp (fun hm => (List.mem_cons.1 hm).resolve_left hx) ho.trans)⟩

/-- A device without a pair takes every ring of its structure up. -/
theorem Dev.originate_solo {d : Dev} (hs : d.solo = true) :
    d.Rolls d.originate ∧ ∀ g, (d.originate.lr g).stopped = (d.lr g).stopped ∧ (g ∈ d.rl.rings ∨ (d.lr g).orig = true → (d.originate.lr g).orig = true) := by
  unfold Dev.originate
  extract_lets partner opened
  refine Dev.relanes_foldl (fun x g hx hg => ?_) d.rl.rings (fun g hg => Reel.lt_of_mem_rings hg) d hs
  have hp : x.isP = true := by simp [Dev.isP, hx]
  by_cases ho : (x.lr g).orig = true
  · rw [if_neg (by simp [ho]), if_neg (by simp [hp])]
    exact ⟨.refl x, ho, rfl, fun _ _ => rfl⟩
  · rw [if_pos (by simp [hx, ho])]
    exact x.setOrig_relanes hg true

end Sys2Proof.Machine
end

section
/-!
PROOFS. Proofs/WindowFills.lean: a ring at the boundary of a cycle in QUIET: the CYC and LEASE sets, the command window (R112, R117, R145).
-/
namespace Sys2Proof.Machine

section
variable (d : Dev) (g k : Nat)

theorem Dev.RunsOn.same {d e : Dev} (hs : d.Spares e) (hb : d.Beside e) (hr : e.regs = d.regs) : d.RunsOn e := hb.runsOn hs fun _ _ => Dev.rd_congr (Dev.word_congr hr _)

theorem Dev.runsOn_emit (o : Out) : d.RunsOn (d.emit o) :=
  .same ⟨rfl, rfl, rfl, rfl, rfl, rfl, rfl, rfl, rfl⟩ ⟨rfl, rfl, id, List.subset_append_left _ _⟩ rfl

theorem Dev.RunsOn.foldl_fst {α β : Type} {f : Dev × α → β → Dev × α} (hf : ∀ (x : Dev × α) b, x.1.RunsOn (f x b).1) (l : List β) (x : Dev × α) : x.1.RunsOn (l.foldl f x).1 := by
  induction l generalizing x with
  | nil => exact .refl x.1
  | cons b l ih => exact (hf x b).trans (ih _)

/-! ### The CYC and LEASE sets (R112, R117) -/

theorem Dev.runsOn_launchCyc : d.RunsOn (d.launchCyc g k) := by
  unfold Dev.launchCyc
  exact .ite (.refl d) (.foldl _ (fun x rot _ => (x.runsOn_emit _).trans (Dev.runsOn_emit _ _)) d)

variable {d g} in
/-- A single device sends its sets into each rotation that is not stopped. -/
theorem Dev.launchCyc_out (hs : d.solo = true) (ho : (d.lr g).orig = true) {rot : Fin 2} (hr : bitAt (d.lr g).stopped rot = false) :
    .oset g rot 0 [BitVec.ofNat 8 k, BitVec.ofNat 8 rot] ∈ (d.launchCyc g k).out ∧ .oset g rot 1 [] ∈ (d.launchCyc g k).out := by
  have hcode : d.origCode = 0 := by simp [Dev.origCode, Dev.isP, hs, b2n]
  have hmem : rot.val ∈ [0, 1].filter (fun rot => !bitAt (d.lr g).stopped rot) := List.mem_filter.2 ⟨(by decide : ∀ r : Fin 2, r.val ∈ [0, 1]) rot, by rw [hr]; rfl⟩
  have hfold : ∀ (l : List Nat) (x : Dev), x.origCode = 0 → rot.val ∈ l →
      let y := l.foldl (fun (d : Dev) rot => (d.emit (.oset g rot 0 [BitVec.ofNat 8 k, BitVec.ofNat 8 (rot + 2 * d.origCode)])).emit (.oset g rot 1 [])) x
      .oset g rot 0 [BitVec.ofNat 8 k, BitVec.ofNat 8 rot] ∈ y.out ∧ .oset g rot 1 [] ∈ y.out := by
    intro l
    induction l with
    | nil => exact fun _ _ h => absurd h List.not_mem_nil
    | cons r l ih =>
      intro x hx hm
      rcases List.mem_cons.1 hm with rfl | hm
      · have hsub := (Dev.RunsOn.foldl l (fun (x : Dev) (rot : Nat) _ => (x.runsOn_emit (.oset g rot 0 [BitVec.ofNat 8 k, BitVec.ofNat 8 (rot + 2 * x.origCode)])).trans (Dev.runsOn_emit _ (.oset g rot 1 [])))
          ((x.emit (.oset g rot 0 [BitVec.ofNat 8 k, BitVec.ofNat 8 (rot + 2 * x.origCode)])).emit (.oset g rot 1 []))).rolls.out
        exact ⟨hsub (by simp [Dev.emit, hx]), hsub (by simp [Dev.emit])⟩
      · exact ih _ hx hm
  unfold Dev.launchCyc
  extract_lets r
  rw [if_neg (by simp [r, ho])]
  exact hfold _ d hcode hmem

/-! ### The command window (R145) -/

theorem Dev.runsOn_take (q : Nat) : d.RunsOn (d.take q).1 := by
  unfold Dev.take
  split
  · exact .refl d
  · exact .same ⟨rfl, rfl, rfl, rfl, rfl, rfl, rfl, rfl, rfl⟩ ⟨rfl, rfl, id, List.Subset.refl _⟩ rfl

theorem Dev.runsOn_fillFrom (slate sleepOk : Bool) (fuel : Nat) (qids : List Nat) (taken : List LCmd) : d.RunsOn (fillFrom slate sleepOk qids fuel d g taken).1 := by
  induction fuel generalizing d qids taken with
  | zero => exact .refl d
  | succ fuel ih =>
    unfold fillFrom
    extract_lets heads ok best
    clear_value heads
    split
    · exact ((d.runsOn_take _).trans (.wrPort _ _ (by decide) (by decide))).trans (ih _ _ _)
    · clear_value best
      split
      · exact .refl d
      · exact (d.runsOn_take _).trans (ih _ _ _)

theorem Dev.runsOn_fillWindow (slate : Bool) (first : List LCmd) : d.RunsOn (d.fillWindow g k slate first).1 := by
  unfold Dev.fillWindow
  dsimp -zeta only
  extract_lets r taken qids qs fuel waited all ends d1 d2
  have hf := d.runsOn_fillFrom g slate (d.mode == .quiet) fuel qs
    (r.cmds.foldl (fun (a : List LCmd × List LCmd) c => let l := addCmd a.1 c; if fits slate l then (l, a.2) else (a.1, a.2 ++ [c])) (taken, [])).1
  have h1 : d.RunsOn d1 := hf.trans (.setLr _ g (hf.lane g).symm)
  clear_value d1 all
  refine h1.trans (.foldl all (fun x c _ => ?_) d1)
  split
  · exact .ite (.wrPort x _ (by decide) (by decide)) (.refl x)
  · extract_lets y r2 cyc
    have hy : x.RunsOn y := .ite (x.runsOn_emit _) (.refl x)
    clear_value y cyc
    exact hy.trans (.ite (.setLr y g rfl) (.ite (.setLr y g rfl) (.refl y)))

theorem Dev.runsOn_cmdOverrun (q : Nat) : d.RunsOn (d.cmdOverrun g q) := by
  unfold Dev.cmdOverrun
  extract_lets r
  split
  · next n _ =>
    have h : d.RunsOn (d.setLr g { r with waited := r.waited.ins q (n, true) }) := Dev.RunsOn.setLr d g rfl
    generalize d.setLr g { r with waited := r.waited.ins q (n, true) } = e at h
    exact .ite (h.trans (.raise e _ _ (by decide))) (.refl d)
  · exact .refl d

end

section
variable {d : Dev} {g k : Nat}

theorem Dev.ownFrames_quiet (hm : d.mode = .quiet) (hw : d.gaf.wrap = none) : (d.ownFrames g k).1 = d := by
  have hl : d.live = false := by simp [Dev.live, hm]
  have hh : d.wrapHolds g = (d, []) := by
    unfold Dev.wrapHolds
    rw [hw]
  have he : d.enumRunCmd g k = (d, []) := by
    unfold Dev.enumRunCmd
    split
    · rfl
    · extract_lets lost
      rw [if_pos (.inr (.inr (.inl (by rw [hm]; decide))))]
  unfold Dev.ownFrames
  rw [hl, if_neg (by decide)]
  dsimp -zeta only
  rw [hh]
  dsimp -zeta only
  rw [he]

/-- In QUIET a ring's boundary sends its sets first, and the rings run on. -/
theorem Dev.ringCycle_quiet (hm : d.mode = .quiet) (hw : d.gaf.wrap = none) : (d.launchCyc g k).RunsOn (d.ringCycle g k).1 := by
  have hl := d.runsOn_launchCyc g k
  unfold Dev.ringCycle
  extract_lets e a here
  have he : e = d.launchCyc g k := rfl
  rw [← he] at hl ⊢
  have hme : e.mode = .quiet := hl.rolls.spares.1.trans hm
  have hwe : e.gaf.wrap = none := by rw [hl.rolls.gaf, hw]
  have ha : a = e := if_neg (by simp [Dev.live, hme])
  clear_value a
  subst ha
  clear_value here e
  have ho := Dev.ownFrames_quiet (g := g) (k := k) hme hwe
  rcases hof : e.ownFrames g k with ⟨f, first, permit⟩
  rw [hof] at ho
  obtain rfl : f = e := ho
  dsimp -zeta only
  have hwin := f.runsOn_fillWindow g k here first
  generalize f.fillWindow g k here first = w at hwin
  obtain ⟨w, cmds⟩ := w
  dsimp only at hwin ⊢
  exact hwin.trans (.foldl (w.lr g).waited (fun x (q : Nat × Nat × Bool) _ => x.runsOn_cmdOverrun g q.1) w)

end

end Sys2Proof.Machine
end

section
/-!
PROOFS. Proofs/Boundaries.lean: the engines and the ports at a boundary, and the statement on the boundary of a cycle (R112, R117, R149, R468).
-/
namespace Sys2Proof.Machine

/-- The boundary is passed on: the device's state and structure and the boundary dealt with stand; no output is taken back. -/
structure Dev.Turns (d e : Dev) : Prop where
  spares : d.Spares e
  done : e.lnk.done = d.lnk.done
  out : d.out ⊆ e.out

namespace Dev.Turns

theorem refl (d : Dev) : d.Turns d := ⟨.refl d, rfl, List.Subset.refl _⟩

theorem trans {a b c : Dev} (h : a.Turns b) (k : b.Turns c) : a.Turns c := ⟨h.spares.trans k.spares, k.done.trans h.done, List.Subset.trans h.out k.out⟩

theorem ite {d a b : Dev} {c : Prop} [Decidable c] (ha : d.Turns a) (hb : d.Turns b) : d.Turns (if c then a else b) := by
  split
  · exact ha
  · exact hb

theorem foldl {β : Type} {f : Dev → β → Dev} (hf : ∀ (x : Dev) b, x.Turns (f x b)) (l : List β) (d : Dev) : d.Turns (l.foldl f d) := by
  induction l generalizing d with
  | nil => exact refl d
  | cons b l ih => exact (hf d b).trans (ih _)

theorem foldl_fst {α β : Type} {f : Dev × α → β → Dev × α} (hf : ∀ (x : Dev × α) b, x.1.Turns (f x b).1) (l : List β) (x : Dev × α) : x.1.Turns (l.foldl f x).1 := by
  induction l generalizing x with
  | nil => exact refl x.1
  | cons b l ih => exact (hf x b).trans (ih _)

theorem beside {d e : Dev} (hs : d.Spares e) (hb : d.Beside e) : d.Turns e := ⟨hs, by rw [hb.lnk], hb.out⟩

theorem same {d e : Dev} (hs : d.Spares e) (hl : e.lnk = d.lnk) (ho : e.out = d.out) : d.Turns e := ⟨hs, by rw [hl], by rw [ho]; exact List.Subset.refl _⟩

theorem wr (d : Dev) (f : Field) (v i j : Nat) : d.Turns (d.wr f v i j) := beside (Dev.spares_wr _ _ _ _ _) (.wr _ _ _ _ _)

theorem runs {d e : Dev} (h : d.RunsOn e) : d.Turns e := ⟨h.rolls.spares, h.rolls.done, h.rolls.out⟩

theorem posts {d e : Dev} (h : d.Posts e) : d.Turns e := runs (.posts h)

theorem peerSend (d : Dev) (l : List Nat) (ty : Nat) (pay : List Byte) : d.Turns (d.peerSend l ty pay) := beside (Dev.spares_peerSend _ _ _ _) (.peerSend _ _ _ _)

theorem emit (d : Dev) (o : Out) : d.Turns (d.emit o) := runs (d.runsOn_emit o)

end Dev.Turns

/-- The device's state and structure, its links and its outputs stand. -/
structure Dev.Still (d e : Dev) : Prop where
  spares : d.Spares e
  lnk : e.lnk = d.lnk
  out : e.out = d.out

theorem Dev.Still.refl (d : Dev) : d.Still d := ⟨.refl d, rfl, rfl⟩

theorem Dev.Still.trans {a b c : Dev} (h : a.Still b) (k : b.Still c) : a.Still c := ⟨h.spares.trans k.spares, k.lnk.trans h.lnk, k.out.trans h.out⟩

theorem Dev.Still.wr (d : Dev) (f : Field) (v i j : Nat) : d.Still (d.wr f v i j) := ⟨Dev.spares_wr _ _ _ _ _, rfl, rfl⟩

theorem Dev.Still.foldl {β : Type} {f : Dev → β → Dev} (hf : ∀ (x : Dev) b, x.Still (f x b)) (l : List β) (d : Dev) : d.Still (l.foldl f d) := by
  induction l generalizing d with
  | nil => exact refl d
  | cons b l ih => exact (hf d b).trans (ih _)

section
variable (d : Dev) (k : Nat)

/-! ### The engines -/

/-- The arbitration of grants leaves the links and sends nothing. -/
theorem Dev.gafArbitrate_still : d.Still (d.gafArbitrate k) := by
  unfold Dev.gafArbitrate
  extract_lets d1 cl out d2 d3
  have h1 : d.Still d1 := by
    refine .foldl (fun x c => ?_) _ d
    split
    · exact .refl x
    · extract_lets y
      have hy : x.Still y := (Dev.Still.wr x _ _ _ _).trans (.wr _ _ _ _ _)
      exact hy.trans ⟨⟨rfl, rfl, rfl, rfl, rfl, rfl, rfl, rfl, rfl⟩, rfl, rfl⟩
  clear_value d1 out
  have h2 : d1.Still d2 := .foldl (fun x b => .wr x _ _ _ _) _ d1
  clear_value d2
  split
  · exact .refl d
  · exact (h1.trans h2).trans ((Dev.Still.wr d2 _ _ _ _).trans (.wr _ _ _ _ _))

theorem Dev.turns_gafArbitrate : d.Turns (d.gafArbitrate k) := .same (d.gafArbitrate_still k).spares (d.gafArbitrate_still k).lnk (d.gafArbitrate_still k).out

theorem Dev.turns_qdBoundary : d.Turns d.qdBoundary := by
  unfold Dev.qdBoundary
  exact .ite (.refl d) (.foldl (fun x q => .ite (.posts (Dev.Posts.produce x _ _ _)) (.refl x)) _ d)

theorem Dev.turns_decideStep : d.Turns d.decideStep := by
  unfold Dev.decideStep
  split
  · exact .refl d
  · extract_lets m e src e2
    have h1 : d.Turns e := .wr d _ _ _ _
    clear_value e
    have h2 : e.Turns e2 := .same ⟨rfl, rfl, rfl, rfl, rfl, rfl, rfl, rfl, rfl⟩ rfl rfl
    clear_value e2
    exact (h1.trans h2).trans (.ite (.peerSend _ _ _ _) (.refl _))

variable {d} in
/-- In QUIET neither the dispatcher nor a loop runs. -/
theorem Dev.turns_engines (hm : d.mode = .quiet) : d.Turns (d.engines k) := by
  have hl : d.live = false := by simp [Dev.live, hm]
  have hd : d.dspAllocate = d := by
    unfold Dev.dspAllocate
    exact if_pos (by simp [hl])
  have hp : d.lpeBoundary = d := by
    unfold Dev.lpeBoundary
    exact if_pos (by simp [hl])
  unfold Dev.engines
  rw [hd, hp]
  have ht : d.Turns d.trwPOut := .same ⟨rfl, rfl, rfl, rfl, rfl, rfl, rfl, rfl, rfl⟩ rfl rfl
  generalize d.trwPOut = e at ht
  exact ((ht.trans e.turns_qdBoundary).trans (Dev.turns_gafArbitrate _ k)).trans (Dev.turns_decideStep _)

/-! ### CAN, the board, the pair, the Ethernet ports -/

theorem Dev.turns_setCan (c : Nat) (x : CanCtl) : d.Turns (d.setCan c x) := .same ⟨rfl, rfl, rfl, rfl, rfl, rfl, rfl, rfl, rfl⟩ rfl rfl

theorem Dev.turns_canMiss (c cycle slot : Nat) : d.Turns (d.canMiss c cycle slot) := by
  unfold Dev.canMiss
  exact (Dev.Turns.wr d _ _ _ _).trans (.posts (.raiseHeld _ _ _ _ _ _ (by decide)))

theorem Dev.turns_canClose (c : Nat) : d.Turns (d.canClose c) := by
  unfold Dev.canClose Dev.canWithdraw
  extract_lets x
  refine .ite (.refl d) (.ite ?_ ((d.turns_setCan c _).trans (.wr _ _ _ _ _)))
  split
  · exact .refl d
  · exact ((d.turns_setCan c _).trans (.wr _ _ _ _ _)).trans (.posts (.raiseHeld _ _ _ _ _ _ (by decide)))

theorem Dev.turns_canSlot (c : Nat) : d.Turns (d.canSlot c).1 := by
  unfold Dev.canSlot
  split
  · exact .refl d
  split
  · exact .refl d
  next cycle slot _ =>
  extract_lets src e1 e2
  have h1 : d.Turns e1 := .ite (d.turns_setCan c _) (.refl d)
  clear_value e1
  have h2 : e1.Turns e2 := ((e1.turns_canClose c).trans (.wr _ _ _ _ _)).trans (.wr _ _ _ _ _)
  clear_value e2
  refine (h1.trans h2).trans ?_
  split
  · exact .refl e2
  next x _ =>
  extract_lets qid act
  split
  · exact e2.turns_canMiss c cycle slot
  next q _ =>
  rcases q.takeNewest with ⟨q', u, old, cut⟩
  dsimp -zeta only
  extract_lets e3 e4 e5 src2
  have h3 : e2.Turns e3 := .posts (.of_evKeeps (Dev.evKeeps_setQueue e2 qid _) (Dev.setQueue_stReq _ _ _))
  clear_value e3
  have h4 : e3.Turns e4 := .ite (.refl e3) (.wr e3 _ _ _ _)
  clear_value e4
  refine (h3.trans h4).trans ?_
  split
  · exact e4.turns_canMiss c cycle slot
  next u _ =>
  split
  · have h5 : e4.Turns e5 := (Dev.Turns.wr e4 _ _ _ _).trans (.posts (.raiseHeld _ _ _ _ _ _ (by decide)))
    clear_value e5
    exact h5.trans (e5.turns_canMiss c cycle slot)
  next data _ =>
  extract_lets io e6
  have h6 : e4.Turns e6 := e4.turns_setCan c _
  clear_value e6
  have hsend : ∀ b : Bool, e4.Turns (if b = true then (e6.emit (.can c (x.u8 11 % 8) (x.u32 12) data), io) else (e4, io)).1 := fun b => by
    cases b
    · exact .refl e4
    · exact h6.trans (.emit _ _)
  split
  · exact e4.turns_canMiss c cycle slot
  · split
    · exact hsend _
    · exact hsend _

theorem Dev.turns_canBoundary : d.Turns d.canBoundary.1 := by
  unfold Dev.canBoundary
  split
  · exact .refl d
  · exact Dev.Turns.foldl_fst (fun x c => x.1.turns_canSlot c) [0, 1, 2, 3] (d, ([] : List Byte))

theorem Dev.turns_boardPulse : d.Turns (d.boardPulse k) := by
  have hask : d.Turns d.twttAsk := by
    unfold Dev.twttAsk
    extract_lets src
    have h : d.Turns { d with tb := { src with twttAt := some d.now } } := .same ⟨rfl, rfl, rfl, rfl, rfl, rfl, rfl, rfl, rfl⟩ rfl rfl
    generalize ({ d with tb := { src with twttAt := some d.now } } : Dev) = e at h
    exact .ite (h.trans (.peerSend e _ _ _)) (.refl d)
  unfold Dev.boardPulse
  exact .ite (.refl d) (.ite ((Dev.Turns.emit d _).trans (.peerSend _ _ _ _)) hask)

theorem Dev.turns_testAges : d.Turns d.testAges := by
  unfold Dev.testAges
  refine .foldl (fun x s => ?_) _ d
  split
  · exact .wr x _ _ _ _
  · exact .wr x _ _ _ _

theorem Dev.turns_snapSend : d.Turns d.snapSend := by
  unfold Dev.snapSend
  extract_lets src e sync e2
  have h1 : d.Turns e := .same ⟨rfl, rfl, rfl, rfl, rfl, rfl, rfl, rfl, rfl⟩ rfl rfl
  clear_value e
  have h2 : e.Turns e2 := .peerSend _ _ _ _
  clear_value e2
  exact .ite (.refl d) ((h1.trans h2).trans (.foldl (fun x p => .peerSend x _ _ _) _ e2))

theorem Dev.turns_snapEntry (x : SnapEntry) : d.Turns (d.snapEntry x) := by
  have hsame : ∀ e : Dev, d.Spares e → e.lnk = d.lnk → e.out = d.out → d.Turns e := fun e => .same
  unfold Dev.snapEntry
  split
  case h_9 =>
    extract_lets st
    have hd : ∀ y : DStr, d.Turns (d.setDstr x.key y) := fun y => hsame _ ⟨rfl, rfl, rfl, rfl, rfl, rfl, rfl, rfl, rfl⟩ rfl rfl
    exact (hd _).trans (.wr _ _ _ _ _)
  case h_1 => exact .ite (hsame _ ⟨rfl, rfl, rfl, rfl, rfl, rfl, rfl, rfl, rfl⟩ rfl rfl) (.refl d)
  all_goals exact hsame _ ⟨rfl, rfl, rfl, rfl, rfl, rfl, rfl, rfl, rfl⟩ rfl rfl

theorem Dev.turns_snapTry : d.Turns d.snapTry := by
  unfold Dev.snapTry
  split
  · exact .refl d
  extract_lets total here ps src e
  have h1 : d.Turns e := .same ⟨rfl, rfl, rfl, rfl, rfl, rfl, rfl, rfl, rfl⟩ rfl rfl
  clear_value e ps
  refine .ite (.refl d) ((h1.trans (.foldl (fun x p => ?_) ps e)).trans (.wr _ _ _ _ _))
  unfold Dev.snapApply
  exact .foldl (fun y n => y.turns_snapEntry n) _ x

theorem Dev.turns_portEmit (p : Nat) (frame : List Byte) : d.Turns (d.portEmit p frame) := by
  unfold Dev.portEmit
  split
  · exact .refl d
  next c _ =>
  have hm : d.Turns (d.macProtect p c frame).1 := by
    unfold Dev.macProtect
    split
    · exact .refl d
    · exact .same ⟨rfl, rfl, rfl, rfl, rfl, rfl, rfl, rfl, rfl⟩ rfl rfl
  refine .ite (.refl d) (.ite ((Dev.Turns.emit d _).trans (.wr _ _ _ _ _)) ?_)
  generalize d.macProtect p c frame = m at hm
  obtain ⟨e, _ | f⟩ := m
  · exact hm
  · exact Dev.Turns.trans (b := e) hm ((Dev.Turns.emit e _).trans (.wr _ _ _ _ _))

theorem Dev.turns_portRelease (p : Nat) : d.Turns (d.portRelease p) := by
  unfold Dev.portRelease
  extract_lets x e
  have h1 : d.Turns e := .same ⟨rfl, rfl, rfl, rfl, rfl, rfl, rfl, rfl, rfl⟩ rfl rfl
  clear_value e
  exact .ite (.refl d) (h1.trans (.foldl (fun y (h : Nat × List Byte) => y.turns_portEmit p h.2) _ e))

end

/-! ### The boundary -/

section
variable {d : Dev} {k : Nat}

theorem Dev.cycleEnds_calm (hi : d.gaf.immediate = none) (hw : d.gaf.wrap = none) : d.cycleEnds k = d := by
  have ha : d.immAdvance k = d := by
    unfold Dev.immAdvance
    rw [hi]
  unfold Dev.cycleEnds
  rw [ha]
  dsimp only
  rw [hw]

/-- An immediate shutdown whose withdrawing PERMIT has gone ends in HALT. -/
theorem Dev.cycleEnds_halts {c last : Nat} (hi : d.gaf.immediate = some (c, 1, last)) (hl : last < k) : ∃ a l, (d.cycleEnds k).stReq = d.stReq ++ (.halt, a) :: l ∧ ∀ x ∈ l, x.1 = .halt := by
  have ha : d.immAdvance k = d.go .halt (if c = 3 then 8 else 7) := by
    unfold Dev.immAdvance
    rw [hi]
    dsimp only
    rw [if_neg (Nat.not_le.2 hl), if_neg (by decide)]
  have hg : ∀ x : Dev, x.wrapHalt.stReq = x.stReq ++ [(.halt, 6)] := fun x => by
    unfold Dev.wrapHalt Dev.go
    dsimp only
    split
    · exact congrArg (· ++ [(DevState.halt, 6)]) (Dev.wr_stReq x Reg.WCH_STATUS_MAIN_REQ 0 0 0)
    · rfl
  unfold Dev.cycleEnds
  rw [ha]
  dsimp only
  have h0 : (d.go .halt (if c = 3 then 8 else 7)).stReq = d.stReq ++ [(.halt, if c = 3 then 8 else 7)] := rfl
  generalize d.go .halt (if c = 3 then 8 else 7) = e at h0
  split
  · split
    · exact ⟨_, [(.halt, 6)], by rw [hg, h0, List.append_assoc]; rfl, by simp⟩
    · exact ⟨_, [], h0, by simp⟩
  · exact ⟨_, [], h0, by simp⟩

/-- Of requests that all ask for HALT the first is taken. -/
theorem pickState_halts {a : DevState} {c : Nat} {l : List (DevState × Nat)} (he : a.edge .halt = true) (hl : ∀ x ∈ l, x.1 = .halt) : pickState a ((.halt, c) :: l) = some (.halt, c) := by
  unfold pickState
  rw [List.filter_cons_of_pos (by exact he), List.foldl_cons]
  dsimp only
  have hall : ∀ x ∈ l.filter (fun r => a.edge r.1), x.1 = .halt := fun x hx => hl x (List.mem_filter.1 hx).1
  generalize l.filter (fun r => a.edge r.1) = m at hall
  induction m with
  | nil => rfl
  | cons x m ih =>
    rw [List.foldl_cons]
    dsimp only
    rw [if_neg (by rw [hall x List.mem_cons_self]; exact lt_irrefl _)]
    exact ih fun y hy => hall y (List.mem_cons_of_mem _ hy)

/-- In QUIET no Wrap begins and none is under way. -/
theorem Dev.wrapBoundary_quiet (hm : d.mode = .quiet) (hw : d.gaf.wrap = none) : d.Turns d.wrapBoundary ∧ d.wrapBoundary.gaf.wrap = none ∧ d.wrapBoundary.lnk = d.lnk := by
  have henter : ∀ x : Dev, x.mode = .quiet → x.gaf.wrap = none → x.Turns x.wrapEnter.wrapSteps ∧ x.wrapEnter.wrapSteps.gaf.wrap = none ∧ x.wrapEnter.wrapSteps.lnk = x.lnk := by
    intro x hx hxw
    have he : x.Turns x.wrapEnter ∧ x.wrapEnter.gaf.wrap = none ∧ x.wrapEnter.lnk = x.lnk := by
      unfold Dev.wrapEnter
      split
      · exact ⟨.refl x, hxw, rfl⟩
      · extract_lets src y
        have hy : x.Turns y ∧ y.gaf.wrap = none ∧ y.lnk = x.lnk := ⟨.same ⟨rfl, rfl, rfl, rfl, rfl, rfl, rfl, rfl, rfl⟩ rfl rfl, hxw, rfl⟩
        rw [if_pos (by rw [hy.1.spares.1, hx]; decide)]
        exact hy
    have hs : x.wrapEnter.wrapSteps = x.wrapEnter := by
      unfold Dev.wrapSteps
      rw [he.2.1]
    rw [hs]
    exact he
  unfold Dev.wrapBoundary
  extract_lets src src2 e
  have he : d.Turns e ∧ e.gaf.wrap = none ∧ e.lnk = d.lnk := by
    simp only [e]
    split
    · split
      · exact ⟨.refl d, hw, rfl⟩
      · exact ⟨.same ⟨rfl, rfl, rfl, rfl, rfl, rfl, rfl, rfl, rfl⟩ rfl rfl, hw, rfl⟩
    · exact ⟨.refl d, hw, rfl⟩
  clear_value e
  obtain ⟨ht, hwe, hl⟩ := he
  obtain ⟨ht2, hw2, hl2⟩ := henter e (ht.spares.1.trans hm) hwe
  exact ⟨ht.trans ht2, hw2, hl2.trans hl⟩

/-- In QUIET, without a cut-over and a switch, a boundary changes who originates the rings: a single device, all of them. -/
theorem Dev.cycleChanges_quiet (hm : d.mode = .quiet) (hw : d.gaf.wrap = none) (hc : d.img.cut = none) (hk : d.sin.switchK = none) (hs : d.solo = true) :
    d.Turns d.cycleChanges.cycleSleep ∧ d.cycleChanges.cycleSleep.gaf.wrap = none ∧
      ∀ g ∈ d.rl.rings, (d.cycleChanges.cycleSleep.lr g).orig = true ∧ (d.cycleChanges.cycleSleep.lr g).stopped = (d.lr g).stopped := by
  have h1 : d.cutLate = d := by
    unfold Dev.cutLate
    rw [hc]
  have h2 : d.cutover = d := by
    unfold Dev.cutover
    rw [hc]
  have h3 : d.switchAtK = d := by
    unfold Dev.switchAtK
    rw [hk]
  have hch : d.cycleChanges = d.originate.wrapBoundary := by
    unfold Dev.cycleChanges
    rw [h1, h2, h3]
  obtain ⟨hr, ho⟩ := Dev.originate_solo hs
  generalize d.originate = e at hch hr ho
  obtain ⟨ht, hwe, hl⟩ := Dev.wrapBoundary_quiet (hr.spares.1.trans hm) (show e.gaf.wrap = none by rw [hr.gaf, hw])
  have hsl : e.wrapBoundary.cycleSleep = e.wrapBoundary := by
    unfold Dev.cycleSleep
    rw [hwe]
  rw [hch, hsl]
  refine ⟨⟨hr.spares.trans ht.spares, ht.done.trans hr.done, List.Subset.trans hr.out ht.out⟩, hwe, fun g hg => ?_⟩
  rw [Dev.lr_congr hl]
  exact ⟨(ho g).2 (.inl hg), (ho g).1⟩

/-- A ring's boundary after those of the rings before it. -/
def ringAfter (k : Nat) (a : Dev × List LCmd × List LCmd) (g : Nat) : Dev × List LCmd × List LCmd :=
  ((a.1.ringCycle g k).1, a.2.1 ++ (a.1.ringCycle g k).2.1, a.2.2 ++ (a.1.ringCycle g k).2.2)

theorem Dev.ringCycles_eq (d : Dev) (k : Nat) : d.ringCycles k = d.rl.rings.foldl (ringAfter k) (d, [], []) := by
  have hstep : (fun (a : Dev × List LCmd × List LCmd) g => let (d, p, c) := a.1.ringCycle g k; (d, a.2.1 ++ p, a.2.2 ++ c)) = ringAfter k := by
    funext a g
    unfold ringAfter
    rcases a.1.ringCycle g k with ⟨e, p, c⟩
    rfl
  rw [← hstep]
  rfl

theorem ringAfter_fst (k : Nat) (a : Dev × List LCmd × List LCmd) (g : Nat) : (ringAfter k a g).1 = (a.1.ringCycle g k).1 := by
  unfold ringAfter
  generalize a.1.ringCycle g k = r
  rfl

/-- In QUIET every ring of a list runs on, and the sets of each one originated stand in the output. -/
theorem ringAfter_quiet (k : Nat) (l : List Nat) (x : Dev × List LCmd × List LCmd) (hm : x.1.mode = .quiet) (hw : x.1.gaf.wrap = none) (hs : x.1.solo = true) {g : Nat} (ho : (x.1.lr g).orig = true)
    {rot : Fin 2} (hr : bitAt (x.1.lr g).stopped rot = false) :
    x.1.RunsOn (l.foldl (ringAfter k) x).1 ∧
      (g ∈ l → .oset g rot 0 [BitVec.ofNat 8 k, BitVec.ofNat 8 rot] ∈ (l.foldl (ringAfter k) x).1.out ∧ .oset g rot 1 [] ∈ (l.foldl (ringAfter k) x).1.out) := by
  induction l generalizing x with
  | nil => exact ⟨.refl x.1, fun h => absurd h List.not_mem_nil⟩
  | cons y l ih =>
    rw [List.foldl_cons]
    have hl := x.1.runsOn_launchCyc y k
    have hc : (x.1.launchCyc y k).RunsOn (ringAfter k x y).1 := by
      rw [ringAfter_fst]
      exact Dev.ringCycle_quiet hm hw
    generalize ringAfter k x y = z at hc ⊢
    have hz := hl.trans hc
    have hlane := Prod.mk.inj (hz.lane g)
    have hmz : z.1.mode = .quiet := hz.rolls.spares.1.trans hm
    have hwz : z.1.gaf.wrap = none := (congrArg Gaf.wrap hz.rolls.gaf).trans hw
    have hrz : bitAt (z.1.lr g).stopped rot = false := (congrArg (bitAt · rot) hlane.2).trans hr
    obtain ⟨hrun, hout⟩ := ih z hmz hwz (hz.rolls.solo.trans hs) (hlane.1.trans ho) hrz
    refine ⟨hz.trans hrun, fun hg => ?_⟩
    rcases List.mem_cons.1 hg with rfl | hg
    · obtain ⟨h0, h1⟩ := Dev.launchCyc_out k hs ho hr
      have hsub := List.Subset.trans hc.rolls.out hrun.rolls.out
      exact ⟨hsub h0, hsub h1⟩
    · exact hout hg

/-- The rotations stopped leave out those whose port is enabled. -/
theorem Dev.stoppedPorts_enabled {g : Nat} {rot : Fin 2} (h : d.rd Reg.LNK_PORT_CTRL_ENABLE (2 * g + rot) = 1) : bitAt (d.stoppedPorts g) rot = false := by
  have hon : d.on Reg.LNK_PORT_CTRL_ENABLE (2 * g + rot) = true := by simp [Dev.on, h]
  have hbit : ∀ (a b : Bool) (r : Fin 2), (if r = 0 then a else b) = true → bitAt (b2n (!a) + 2 * b2n (!b)) r = false := by decide
  refine hbit _ _ rot ?_
  by_cases hr : rot = 0
  · subst hr
    exact hon
  · obtain rfl : rot = 1 := by omega
    exact hon

/-- The device that takes a boundary up. -/
def Dev.taking (d : Dev) (k : Nat) : Dev := { d with lnk := { d.lnk with done := some k } }

theorem Dev.taking_kept (d : Dev) (k : Nat) : (d.taking k).lnk.done = some k ∧ d.Spares (d.taking k) ∧ (d.taking k).regs = d.regs ∧ (d.taking k).gaf = d.gaf ∧ (d.taking k).sin = d.sin ∧
    (d.taking k).out = d.out ∧ (∀ g, (d.taking k).lr g = d.lr g) := ⟨rfl, ⟨rfl, rfl, rfl, rfl, rfl, rfl, rfl, rfl, rfl⟩, rfl, rfl, rfl, rfl, fun _ => rfl⟩

theorem Dev.timeStep_none (h : d.tb.step = none) : d.timeStep = d := by
  unfold Dev.timeStep
  rw [h]

theorem Dev.cycleBoundary_done (hs : d.tb.step = none) (h : d.lnk.done = some d.cyc) : d.cycleBoundary = d := by
  unfold Dev.cycleBoundary
  rw [Dev.timeStep_none hs]
  exact if_pos h

theorem Dev.cycleBoundary_idle (hs : d.tb.step = none) (h : d.lnk.done ≠ some d.cyc) (hp : d.plant = false) : d.cycleBoundary = (d.taking d.cyc).gafArbitrate d.cyc := by
  unfold Dev.cycleBoundary
  rw [Dev.timeStep_none hs]
  extract_lets d0 k src e
  rw [if_neg h, if_pos (by rw [show e.plant = d.plant from rfl, hp]; rfl)]
  rfl

/-- The rest of a boundary once the rings and CAN are served. -/
def Dev.portsTurn (d : Dev) (k : Nat) : Dev :=
  let d := d.boardPulse k
  let d := if k % 8000 = 0 then d.testAges else d
  [0, 1, 2, 3].foldl (fun (d : Dev) p => d.portRelease p) d.snapSend.snapTry

/-- The rest of a boundary of the plant that does not end in HALT. -/
def Dev.ringsTurn (d : Dev) (k : Nat) : Dev := (((d.rl.rings.foldl (fun (d : Dev) g => d.endCycle g k) d).cycleChanges.cycleSleep.ringCycles k).1.engines k).canBoundary.1.portsTurn k

theorem Dev.cycleBoundary_plant (hs : d.tb.step = none) (h : d.lnk.done ≠ some d.cyc) (hp : d.plant = true) :
    (((d.taking d.cyc).cycleEnds d.cyc).halting = true → d.cycleBoundary = (d.taking d.cyc).cycleEnds d.cyc) ∧
    (((d.taking d.cyc).cycleEnds d.cyc).halting = false → (((d.taking d.cyc).cycleEnds d.cyc).ringsTurn d.cyc).live = false →
      d.cycleBoundary = ((d.taking d.cyc).cycleEnds d.cyc).ringsTurn d.cyc) := by
  unfold Dev.cycleBoundary
  rw [Dev.timeStep_none hs]
  extract_lets d0 k src e f f1 f2
  rw [if_neg h, if_neg (by rw [show e.plant = d.plant from rfl, hp]; decide)]
  have hf : f = (d.taking d.cyc).cycleEnds d.cyc := rfl
  have he : f.ringsTurn k = f.ringsTurn d.cyc := rfl
  rw [← hf]
  clear_value f
  refine ⟨fun hh => if_pos hh, fun hh hl => ?_⟩
  rw [if_neg (by rw [hh]; decide)]
  have ht : f.ringsTurn d.cyc = ((f2.ringCycles k).1.engines k).canBoundary.1.portsTurn k := rfl
  rw [ht] at hl ⊢
  clear_value f2 k
  generalize f2.ringCycles k = r at hl ⊢
  obtain ⟨x, permits, cmds⟩ := r
  dsimp -zeta only at hl ⊢
  generalize x.engines k = y at hl ⊢
  extract_lets u0 u1 u2 u3 w
  have hw : y.canBoundary.1.portsTurn k = w := rfl
  rw [hw] at hl ⊢
  clear_value w
  rw [if_neg (by rw [hl]; decide)]

/-- In QUIET the rest of a boundary turns on from the rings, and a ring's sets stand in the output. -/
theorem Dev.ringsTurn_quiet (hm : d.mode = .quiet) (hw : d.gaf.wrap = none) (hc : d.img.cut = none) (hk : d.sin.switchK = none) (hs : d.solo = true) {g : Nat} (hg : g ∈ d.rl.rings) {rot : Fin 2}
    (he : d.rd Reg.LNK_PORT_CTRL_ENABLE (2 * g + rot) = 1) :
    d.Turns (d.ringsTurn k) ∧ .oset g rot 0 [BitVec.ofNat 8 k, BitVec.ofNat 8 rot] ∈ (d.ringsTurn k).out ∧ .oset g rot 1 [] ∈ (d.ringsTurn k).out := by
  unfold Dev.ringsTurn
  obtain ⟨hr1, hs1⟩ := Dev.endCycles_relanes k d.rl.rings (fun g hg => Reel.lt_of_mem_rings hg) d
  replace hs1 := hs1 g (Reel.lt_of_mem_rings hg) (.inl hg)
  generalize d.rl.rings.foldl (fun (d : Dev) g => d.endCycle g k) d = a at hr1 hs1
  have hrings : a.rl.rings = d.rl.rings := by
    unfold Dev.rl
    rw [hr1.spares.reel]
  have h1 : d.Turns a := ⟨hr1.spares, hr1.done, hr1.out⟩
  obtain ⟨h2, hw2, hl2⟩ := Dev.cycleChanges_quiet (h1.spares.1.trans hm) (by rw [hr1.gaf, hw]) (by rw [hr1.spares.img, hc]) (hr1.switchK hk) (hr1.solo.trans hs)
  obtain ⟨ho2, hs2⟩ := hl2 g (by rw [hrings]; exact hg)
  generalize a.cycleChanges.cycleSleep = b at h2 hw2 ho2 hs2
  have hbr : b.rl.rings = d.rl.rings := by
    unfold Dev.rl at hrings ⊢
    rw [h2.spares.reel, hrings]
  have hbs : b.solo = true := by
    unfold Dev.solo Dev.rl
    rw [h2.spares.reel]
    exact hr1.solo.trans hs
  have h12 := h1.trans h2
  rw [Dev.ringCycles_eq]
  obtain ⟨h3, hout⟩ := ringAfter_quiet k b.rl.rings (b, [], []) (h12.spares.1.trans hm) hw2 hbs ho2 (rot := rot) (by rw [hs2, hs1]; exact Dev.stoppedPorts_enabled he)
  obtain ⟨hcyc, hlease⟩ := hout (by rw [hbr]; exact hg)
  generalize (b.rl.rings.foldl (ringAfter k) (b, [], [])).1 = c at h3 hcyc hlease
  replace h3 : b.Turns c := .runs h3
  have h13 := h12.trans h3
  have h4 := (Dev.turns_engines k (h13.spares.1.trans hm)).trans (Dev.turns_canBoundary _)
  generalize (c.engines k).canBoundary.1 = e at h4
  have h5 : e.Turns (e.portsTurn k) := by
    unfold Dev.portsTurn
    extract_lets x y
    have hx : e.Turns x := e.turns_boardPulse k
    clear_value x
    have hy : x.Turns y := .ite x.turns_testAges (.refl x)
    clear_value y
    exact (((hx.trans hy).trans y.turns_snapSend).trans (Dev.turns_snapTry _)).trans (.foldl (fun z p => z.turns_portRelease p) _ _)
  have h45 := h4.trans h5
  exact ⟨h13.trans h45, h45.out hcyc, h45.out hlease⟩

end

section
variable {s : State} {t : Nat}

theorem ends_boundary_done (hs : s.dev.tb.step = none) (h : s.dev.lnk.done = some (cycleOf (s.dev.nowAt t))) :
    Ends (.cycleBoundary t) s fun d => d.out = [] ∧ d.lnk = s.dev.lnk ∧ d.qf = s.dev.qf ∧ d.mode = s.dev.mode ∧ s.dev.OnlyWrites d [] := by
  refine ends_of (exec_cycleBoundary t s) ?_
  rw [Dev.cycleBoundary_done (d := begin_ t s.dev) hs h]
  have hst : (begin_ t s.dev).stReq = [] := rfl
  exact ⟨settle_out _ _ hst, settle_lnk _ _ hst, settle_qf _ _ hst, settle_mode_calm _ _ hst, (Dev.Touches.of_regs rfl).settle hst⟩

theorem ends_boundary_idle (hs : s.dev.tb.step = none) (h : s.dev.lnk.done ≠ some (cycleOf (s.dev.nowAt t))) (hp : s.dev.plant = false) :
    Ends (.cycleBoundary t) s fun d => d.lnk.done = some (cycleOf (s.dev.nowAt t)) ∧ d.out = [] ∧ d.mode = s.dev.mode := by
  refine ends_of (exec_cycleBoundary t s) ?_
  rw [Dev.cycleBoundary_idle (d := begin_ t s.dev) hs h hp]
  have hk := Dev.gafArbitrate_still ((begin_ t s.dev).taking (begin_ t s.dev).cyc) (begin_ t s.dev).cyc
  obtain ⟨hd, hsp, -, -, -, ho, -⟩ := (begin_ t s.dev).taking_kept (begin_ t s.dev).cyc
  generalize (begin_ t s.dev).taking (begin_ t s.dev).cyc = e at hk hd hsp ho ⊢
  have hst : (e.gafArbitrate (begin_ t s.dev).cyc).stReq = [] := hk.spares.2.1.trans hsp.2.1
  refine ⟨?_, ?_, settle_mode_calm _ _ hst⟩
  · rw [settle_lnk _ _ hst, hk.lnk, hd]
    rfl
  · rw [settle_out _ _ hst, hk.out, ho]
    rfl

theorem ends_boundary_halts {c last : Nat} (hs : s.dev.tb.step = none) (h : s.dev.lnk.done ≠ some (cycleOf (s.dev.nowAt t))) (hp : s.dev.plant = true)
    (hi : s.dev.gaf.immediate = some (c, 1, last)) (hl : last < cycleOf (s.dev.nowAt t)) : Ends (.cycleBoundary t) s Dev.Halted := by
  refine ends_of (exec_cycleBoundary t s) ((settle_settled _ _).halted ?_)
  obtain ⟨hd, hsp, -, hg, -⟩ := (begin_ t s.dev).taking_kept (begin_ t s.dev).cyc
  obtain ⟨a, l, hreq, hall⟩ := Dev.cycleEnds_halts (d := (begin_ t s.dev).taking (begin_ t s.dev).cyc) (k := (begin_ t s.dev).cyc) (by rw [hg]; exact hi) hl
  have hst : ((begin_ t s.dev).taking (begin_ t s.dev).cyc).stReq = [] := hsp.2.1
  rw [hst, List.nil_append] at hreq
  have hb := (Dev.cycleBoundary_plant (d := begin_ t s.dev) hs h hp).1 (by unfold Dev.halting; rw [hreq]; rfl)
  have hedge : s.dev.mode.edge .halt = true := by
    have hpl : s.dev.mode = .quiet ∨ s.dev.mode = .run ∨ s.dev.mode = .wrap := by simpa [Dev.plant, Dev.live] using hp
    rcases hpl with h | h | h <;> rw [h] <;> rfl
  rw [settle_mode, hb, hreq, pickState_halts hedge hall]
  rfl

theorem ends_boundary_quiet {ring : Fin 64} {rot : Fin 2} (hs : s.dev.tb.step = none) (h : s.dev.lnk.done ≠ some (cycleOf (s.dev.nowAt t))) (hm : s.dev.mode = .quiet) (hso : s.dev.solo = true)
    (hi : s.dev.gaf.immediate = none) (hw : s.dev.gaf.wrap = none) (hc : s.dev.img.cut = none) (hk : s.dev.sin.switchK = none) (hr : ring.val ∈ s.dev.rl.rings)
    (he : s.dev.rd Reg.LNK_PORT_CTRL_ENABLE (2 * ring + rot) = 1) :
    Ends (.cycleBoundary t) s fun d => d.mode = .quiet ∧ d.lnk.done = some (cycleOf (s.dev.nowAt t)) ∧
      .oset ring rot 0 [BitVec.ofNat 8 (cycleOf (s.dev.nowAt t)), BitVec.ofNat 8 rot] ∈ d.out ∧ .oset ring rot 1 [] ∈ d.out := by
  refine ends_of (exec_cycleBoundary t s) ?_
  have hp : (begin_ t s.dev).plant = true := by
    unfold Dev.plant
    rw [show (begin_ t s.dev).mode = s.dev.mode from rfl, hm]
    rfl
  have hbound := (Dev.cycleBoundary_plant (d := begin_ t s.dev) hs h hp).2
  obtain ⟨hd, hsp, hregs, hg, hsin, ho, -⟩ := (begin_ t s.dev).taking_kept (begin_ t s.dev).cyc
  generalize (begin_ t s.dev).taking (begin_ t s.dev).cyc = e at hbound hd hsp hregs hg hsin ho
  have hrl : e.rl = s.dev.rl := by
    unfold Dev.rl
    rw [hsp.reel]
    rfl
  have hme : e.mode = .quiet := hsp.1.trans hm
  rw [Dev.cycleEnds_calm (by rw [hg]; exact hi) (by rw [hg]; exact hw)] at hbound
  obtain ⟨ht, hcyc, hlease⟩ := Dev.ringsTurn_quiet (d := e) (k := (begin_ t s.dev).cyc) (g := ring) (rot := rot) hme (by rw [hg]; exact hw) (by rw [hsp.img]; exact hc) (by rw [hsin]; exact hk)
    (by unfold Dev.solo; rw [hrl]; exact hso) (by rw [hrl]; exact hr) ((Dev.rd_congr (Dev.word_congr hregs _)).trans he)
  have hmode : (e.ringsTurn (begin_ t s.dev).cyc).mode = .quiet := ht.spares.1.trans hme
  rw [hbound (by unfold Dev.halting; rw [show e.stReq = [] from hsp.2.1]; rfl) (by unfold Dev.live; rw [hmode]; rfl)]
  have hst : (e.ringsTurn (begin_ t s.dev).cyc).stReq = [] := ht.spares.2.1.trans hsp.2.1
  refine ⟨(settle_mode_calm _ _ hst).trans hm, ?_, ?_, ?_⟩
  · rw [settle_lnk _ _ hst, ht.done, hd]
    rfl
  · rw [settle_out _ _ hst]
    exact hcyc
  · rw [settle_out _ _ hst]
    exact hlease

end

/-- Settles O60: a boundary already dealt with changes nothing; else by what each part of the boundary leaves of the rings and the outputs. -/
theorem cycleBoundaryActsOnce : Obligations.CycleBoundaryActsOnce := by
  unfold Obligations.CycleBoundaryActsOnce
  intro s t c last ring rot k hs
  exact ⟨ends_boundary_done hs, fun h => ⟨ends_boundary_idle hs h, ends_boundary_halts hs h, fun hm hso hi hw hc hk hr _ he => ends_boundary_quiet hs h hm hso hi hw hc hk hr he⟩⟩

end Sys2Proof.Machine
end
